-- ==== Sys2Proof/Word.lean ====
section
/-! DEFINITION. The word types of the part: a 32-bit register word, a byte, and the signed reading of a field. -/
namespace Sys2Proof

/-- A register word (R48: page registers are 32 bits wide). -/
abbrev Word := BitVec 32

/-- A byte of memory, of a frame or of a record. -/
abbrev Byte := BitVec 8

end Sys2Proof
end

