-- ==== Sys2Proof/Machine/Field.lean ====
section
/-! DEFINITION. What a register field is: where it stands in its page, its access code (R53), its reset value, the
index register through which an entry of a table is reached, and the range check of its own text (R58, R63). -/
namespace Sys2Proof.Machine

/-- Access codes of R53, Table 6. -/
inductive Acc where
  | ro | rw | rs | rc | wo | w1 | pv
  deriving DecidableEq, Repr

/-- Which entry of a table an access to the field reaches: the index register of the page, the half or the master
group of the access, or the one instance of an ordinary register. -/
inductive Tab where
  | one | half | grp
  | ltIdx | lrnIdx | leLoop | leTbl | leBad | camIdx
  | ftSel | ftIdx | fmIdx | carIdx | callIdx | stopSel | stopCar
  | tmcSel | frcIdx | txSel | rxSel | ttCol | ttCell | stnIdx
  | cfgRd | spbAddr | sltRd | tokAddr | repAddr
  deriving DecidableEq, Repr

/-- The range check a field's own text gives: no check; zero has no meaning (ZERO); at most `hi` (RANGE); zero is
ZERO and anything else outside `lo`–`hi` is RANGE; outside `lo`–`hi` is RANGE; one of a list (RANGE). -/
inductive Chk where
  | any
  | nz
  | upto (hi : Nat)
  | span (lo hi : Nat)
  | within (lo hi : Nat)
  | oneOf (vs : List Nat)
  deriving DecidableEq, Repr

/-- One field of a register table: byte offset in the page, lowest bit, width, access code, reset value, stride in
bytes and count of a register array, the table selector, and the range check. -/
structure Fld where
  off : Nat
  lo : Nat
  w : Nat
  acc : Acc
  reset : Nat
  stride : Nat
  cnt : Nat
  tab : Tab
  chk : Chk
  deriving DecidableEq, Repr

/-- The blocks of R49, Table 2, in the table's order. -/
inductive Blk where
  | cyx | tmc | frc | mpg | sep | le | dax | stp | pos | shl | mir | hlf | sbk
  | can | glk | hst | rsm
  | wir | din | dout | ain | aout | trm
  | sfc | smb | ths | sio | spb
  | cfg | rtc | cal | slt | nvm | enc | bot | pwr
  deriving DecidableEq, Repr

/-- Boundaries of R50, Table 3; `none` is a read-only page or one whose values take another path. -/
inductive Bnd where
  | none | cycle | servo | frame | tick | second | immediate
  deriving DecidableEq, Repr

/-- The two control halves (R16). -/
inductive HalfId where
  | a | b
  deriving DecidableEq, Repr

/-- Who makes an access: its master identity (R66, Table 9) and whether the core is in machine mode. -/
structure Who where
  mid : Nat
  mach : Bool
  deriving DecidableEq, Repr

/-- What a read names: its address and its size in bytes (R48); and whether it meets an error that cannot be corrected: a parity error of the register,
a double-bit error of the memory word (R21). -/
structure Span where
  addr : BitVec 64
  bytes : Nat
  err : Bool
  deriving DecidableEq, Repr

/-- An edge of a door-zone vane: the DIN channel that shows it, and whether the car enters the vane (R103). -/
structure VaneEdge where
  src : Fin 32
  entering : Bool
  deriving DecidableEq, Repr

/-- The voltages of an output pair's two contacts in mV (R309). -/
structure Volts where
  vp : BitVec 16
  vn : BitVec 16
  deriving DecidableEq, Repr

/-- When a frame started (R401): TICKs from its start-of-frame edge to its end, and CCLK periods from the TICK before that edge to it. -/
structure Sof where
  ago : BitVec 16
  sub : BitVec 12
  deriving DecidableEq, Repr

/-- A controller at a basic cycle start: its number, and whether a frame is on the bus (R398, R408). -/
structure CanBus where
  c : Fin 4
  busy : Bool
  deriving DecidableEq, Repr

/-- What goes wrong on the mirror link at a half (R351): a packet fails its CRC, its resend fails again, or lane lock is lost. -/
inductive LinkErr where
  | crc
  | again
  | lock
  deriving DecidableEq, Repr

end Sys2Proof.Machine
end

