-- ==== Sys2Proof/Wire.lean ====
section
/-! DEFINITION. What group-link frames carry into the part (spec/13_group_link.md, R379 to R389): the group header and the contents the
chapter names. Layouts the chapter gives no bytes for are kept as their contents (notes/assumptions/21.md). -/
namespace Sys2Proof

/-- The group header of a received frame (R379, Table 4), whether its FCS is good, and the frame's destination, source address and EtherType (Table 3;
octet i of an address in bits 8i+7 to 8i). -/
structure GHdr where
  ver : BitVec 8
  typ : BitVec 8
  group : BitVec 16
  src : BitVec 5
  role : BitVec 2
  hops : BitVec 8
  seq : BitVec 16
  len : BitVec 16
  epoch : BitVec 16
  leave : Bool
  active : Bool
  hcrc : BitVec 16
  fcsOk : Bool
  dst : BitVec 48
  sa : BitVec 48
  etype : BitVec 16
  deriving DecidableEq, Repr

/-- One copy of a BEACON (R384): the port it came on, its header, CORR_NS, the nanoseconds beyond the own time-stamp at reception, and the residence
time in ns of the copy that is forwarded. -/
structure GCopy where
  port : Fin 2
  hd : GHdr
  corr : BitVec 32
  rsub : BitVec 14
  stay : BitVec 32
  deriving DecidableEq, Repr

/-- A car record (R223): group car index, position, speed, minimum stopping point, direction, floor stood at, doors not closed, T_HEAD in
ms, load, availability. -/
structure GRec where
  car : BitVec 6
  x : BitVec 32
  v : BitVec 32
  stop : BitVec 32
  up : Bool
  floor : Option (BitVec 8)
  doors : Bool
  head : BitVec 32
  load : BitVec 8
  avail : BitVec 2
  deriving DecidableEq, Repr

/-- A call as frames carry it (R228, R388): its key, state, kind, floors, persons, flags, assignment, registration, tag, estimates. -/
structure GCall where
  key : BitVec 32
  state : BitVec 4
  kind : BitVec 4
  src : BitVec 8
  dst : BitVec 8
  count : BitVec 4
  access : Bool
  prio : Bool
  held : Bool
  car : BitVec 6
  deck : Bool
  valid : Bool
  reg : BitVec 64
  tag : BitVec 32
  cost : BitVec 32
  etaP : BitVec 16
  etaD : BitVec 16
  deriving DecidableEq, Repr

/-- A stop of a sequence (R229), its calls named by key. -/
structure GStop where
  floor : BitVec 8
  upper : Bool
  up : Bool
  picks : List (BitVec 32)
  here : List (BitVec 32)
  drops : List (BitVec 32)
  eta : BitVec 32
  deriving DecidableEq, Repr

/-- A forwarded submission (R237): 1 NEW, 2 CANCEL, 3 ARRIVE; the call, or the car and the floor of an ARRIVE. -/
structure GFwd where
  op : BitVec 4
  call : GCall
  car : BitVec 6
  floor : BitVec 8
  deriving DecidableEq, Repr

/-- A decision (R236): the event and reason of its result, and the call. -/
structure GDec where
  event : BitVec 4
  reason : BitVec 8
  call : GCall
  deriving DecidableEq, Repr

end Sys2Proof
end

