-- ==== Sys2Proof/Syntax.lean ====
section
/-! DEFINITION. The commands of the block: one constructor per row of spec/opcode_table.json, with the row's operands. A
command that names a time condition (a timer expired, a frame ended) is the environment's report that the condition came
about (notes/assumptions/2.md). -/
namespace Sys2Proof

open Sys2Proof.Machine (HalfId Who Span VaneEdge Volts LinkErr Sof CanBus)


/-- The commands of the block, in the order of spec/opcode_table.json. -/
inductive Instr where
  /-- REGISTER_WRITE (R53): A write to a page register that has no row of its own takes effect under its access code (RW at once, RS to the shadow, PV and W1 as defined). -/
  | registerWrite (who : Who) (addr : BitVec 64) (bytes : Nat) (data : BitVec 64)
  /-- CLEARING_READ (R54): A read of an RC register by the page owner clears the bits it returns as 1. -/
  | clearingRead (who : Who) (span : Span)
  /-- BLOCK_ABORT (R67): Writing 0x0000_00AB to ABORT ends operations, discards staged values, clears CTRL.EN and sets STAT.ABORTED. -/
  | blockAbort (who : Who) (addr : BitVec 64) (key : BitVec 32)
  /-- LOCK_SET (R57): Writing LOCK.SET = 1 locks the page against writes until the half is reset or the next nRESET. -/
  | lockSet (who : Who) (addr : BitVec 64)
  /-- STAGE_HOLD_CLEAR (R59): A write that clears CTRL.STAGE_HOLD lets the held staged fields apply together at the next event. -/
  | stageHoldClear (who : Who) (addr : BitVec 64) (data : BitVec 32)
  /-- ACCESS_TIMEOUT (R22): A block that does not answer an access within 2 µs is fenced by its region. -/
  | accessTimeout (who : Who) (addr : BitVec 64)
  /-- ABORT_TIMEOUT (R22): A block abort not complete within 4 µs makes the region fence the block, and a car block out of service escalates to a half abort. -/
  | abortTimeout (page : BitVec 11)
  /-- REGION_ABORT (R22): A region aborts its faulty blocks and clears fences, completing within 100 µs. -/
  | regionAbort (bank : Fin 6)
  /-- DEVICE_SAFE_STATE (R23): A COM, FIO or MGT fault not cleared by a region abort within 100 µs puts the part in the device safe state. -/
  | deviceSafeState 
  /-- MRAM_WINDOW_ACCESS (R38): A core access through the MRAM window is checked per partition and either served or refused with PRIV or RANGE and recorded. -/
  | mramWindowAccess (who : Who) (addr : BitVec 32) (wr : Option (List (BitVec 8))) (n : BitVec 4)
  /-- SCRUB_PASS (R35): The scrubber reads and corrects every SRAM word every 4 s and every MRAM word every 7 days. -/
  | scrubPass (sram : Option HalfId) (ces : List (BitVec 33)) (ues : List (BitVec 33))
  /-- SRAM_ROW_REPLACE (R362): An SRAM row with a second corrected error in 24 h or any uncorrectable error is replaced live by a spare row. -/
  | sramRowReplace (h : HalfId) (addr : BitVec 23) (ue : Bool)
  /-- MRAM_BLOCK_REMAP (R362): An MRAM block meeting the R35 conditions is remapped live within 2 ms. -/
  | mramBlockRemap (off : BitVec 33) (ue : Bool) (first : BitVec 64) (last : BitVec 64)
  /-- SILT_POST (R28): A block posts a record into the Silt intake, which queues it or counts it lost without blocking. -/
  | siltPost (src : BitVec 4) (page : BitVec 8) (mid : BitVec 8) (priv : BitVec 8) (cls : BitVec 8) (code : BitVec 8) (detail : BitVec 16) (payload : List (BitVec 8))
  /-- SERVO_EVENT (R43): At each SERVO boundary a half applies staged values, samples and fuses positions, evaluates profiles, runs loops, writes the servo lane and sends servo state. -/
  | servoEvent (h : HalfId)
  /-- FRAME_EVENT (R50): A FRAME boundary of a CAN controller applies its staged values at the end of a frame, a basic-cycle start or a TICK. -/
  | frameEvent (c : Fin 4) (start : Bool)
  /-- CYCLE_SNAPSHOT (R315): The executive swaps input banks, copies inputs, applies substitutes and forces, evaluates cells and starts the program. -/
  | cycleSnapshot (h : HalfId) (dt : BitVec 48) (ns : BitVec 32)
  /-- CYCLE_PUBLISH (R315): When every core of the mask has written DONE, forces are rewritten, outputs go to the Weir and COM, and the CYCLE boundary occurs. -/
  | cyclePublish (h : HalfId) (us : BitVec 32) (ns : BitVec 32)
  /-- CYX_DONE (R314): A core writes its DONE bit to end its part of the cycle. -/
  | cyxDone (h : HalfId) (core : Fin 4) (ws : List (BitVec 32 × BitVec 8))
  /-- CYC_WDOG (R318): The maximum-cycle watchdog expires, the cycle is not published and the half halts or is aborted per WDOG.ACT. -/
  | cycWdog (h : HalfId)
  /-- IDLE_CYCLE_EVENT (R320): Every 10 ms while STOPPED or HALTED the half produces an idle CYCLE event that applies CYCLE-staged values. -/
  | idleCycleEvent (h : HalfId)
  /-- CYX_WARM (R321): WARM starts or restarts the program keeping retained variables and cells. -/
  | cyxWarm (h : HalfId)
  /-- CYX_COLD (R321): COLD starts or restarts the program with every variable initialised and cells reset. -/
  | cyxCold (h : HalfId)
  /-- CYX_STOP (R321): STOP ends the program after the publish of the cycle in progress and enters STOPPED. -/
  | cyxStop (h : HalfId)
  /-- OLC_LOAD (R334): LOAD verifies a new image, checks its layout and copies it to the idle code banks of both halves. -/
  | olcLoad (h : HalfId)
  /-- OLC_LOAD_DONE (R334): Copying of the new image completes and OLC_STAT shows LOADED or FAILED. -/
  | olcLoadDone (h : HalfId) (ok : Bool)
  /-- OLC_SWITCH (R334): SWITCH arms the on-line switch of a loaded image. -/
  | olcSwitch (h : HalfId)
  /-- OLC_CANCEL (R334): CANCEL releases the idle bank in LOADED or ARMED and returns to IDLE. -/
  | olcCancel (h : HalfId)
  /-- OLC_SWITCH_EXEC (R336): At the first publish with the standby synchronised or out of service, cells, forces, variables and code move to the new image. -/
  | olcSwitchExec (h : HalfId) (ns10 : BitVec 16)
  /-- OLC_DONE (R337): Once the standby's shadow holds a cycle of the new image the old bank is released and OLC_STAT shows DONE. -/
  | olcDone (h : HalfId)
  /-- FRC_CLR_ALL (R340): CLR_ALL stages EN = 0 in every force entry. -/
  | frcClrAll (h : HalfId) (mid : BitVec 8) (mach : Bool)
  /-- TMC_FIND (R339): A write to FIND_ID searches both cell kinds and selects the cell on a hit. -/
  | tmcFind (h : HalfId) (id : BitVec 32)
  /-- CFG_SAVE (R70): SAVE is checked for pending staged values and, if accepted, waits for the next CYCLE event to capture. -/
  | cfgSave (mid : BitVec 8) (mach : Bool)
  /-- CFG_SAVE_CAPTURE (R70): At the next CYCLE event the commit manager captures every covered register and table. -/
  | cfgSaveCapture 
  /-- CFG_SAVE_DONE (R70): The generation is written, read back and marked committed, or the SAVE fails with CFG_VERIFY. -/
  | cfgSaveDone (ok : Bool)
  /-- CFG_REVERT (R71): REVERT makes the other valid generation committed for the next boot. -/
  | cfgRevert (mid : BitVec 8) (mach : Bool)
  /-- CFG_FACTORY (R71): FACTORY makes the next boot apply reset values. -/
  | cfgFactory (mid : BitVec 8) (mach : Bool)
  /-- CFG_RD_DATA_READ (R72): A read of CFG.RD_DATA returns a stored word and advances RD_ADDR. -/
  | cfgRdDataRead 
  /-- SERVO_STATE_RECEIVE (R350): A complete servo state received by the standby becomes its shadow at its next SERVO event. -/
  | servoStateReceive (h : HalfId)
  /-- SERVO_STATE_MISS (R352): Three consecutive servo states not received with the link up make a synchronised standby STANDBY_STALE. -/
  | servoStateMiss (h : HalfId)
  /-- CYCLE_MARKER (R44): The standby begins its cycle on the cycle marker received over the mirror link. -/
  | cycleMarker (h : HalfId) (dt : BitVec 48) (ns : BitVec 32)
  /-- SHADOW_COPY (R331): On the end marker of a cycle MIR copies the received retained lines, cells and forces into the shadow. -/
  | shadowCopy (h : HalfId)
  /-- MIR_PACKET_CRC_FAIL (R351): A mirror packet with a bad CRC is resent once, and a second failure starts a retraining. -/
  | mirPacketCrcFail (h : HalfId) (err : LinkErr)
  /-- MIR_LINK_DOWN (R355): No symbol for 2 µs takes the link down, and the standby watches the Weir renewals to decide. -/
  | mirLinkDown 
  /-- SSI_FRAME (R85): A source-P SSI frame completes and is decoded into a position. -/
  | ssiFrame (rx : Fin 4) (lineLow : Bool) (bits : BitVec 32)
  /-- POS_FUSE (R89): After the last frame of the period POS fuses positions and speeds, updates states and copies them to the safety pair. -/
  | posFuse (h : HalfId)
  /-- SLIP (R90): The encoder residual above its limit for SLIP.N periods raises SLIP. -/
  | slip (h : HalfId) (n : Fin 4)
  /-- COAST_EXPIRED (R91): BAD exceeding COAST_MAX takes a coasting car to UNCERTAIN. -/
  | coastExpired (h : HalfId) (n : Fin 4)
  /-- ENCODER_EDGE (R88): A quadrature edge advances the encoder counter. -/
  | encoderEdge (e : Fin 4) (up : Bool)
  /-- ENC_LOSS (R88): A pair held equal for over 1 µs or a simultaneous A and B change raises ENC_LOSS. -/
  | encLoss (e : Fin 4)
  /-- POS_REVAL (R91): W1 to CARn_CMD.REVAL returns an UNCERTAIN standing car to INIT. -/
  | posReval (h : HalfId) (n : Fin 4)
  /-- SWITCH_CHANGE (R97): A DIN-sourced switch entry changes and reaches its MPG over a hardware line. -/
  | switchChange (h : HalfId) (m : Fin 16) (level : Bool)
  /-- LATCH_EDGE (R99): A raw DIN or Z edge is time-stamped and the encoder counters are latched. -/
  | latchEdge (src : Fin 36) (rising : Bool) (dt20 : Nat)
  /-- LATCH_CONFIRM (R100): The debounced input takes the new level and the raw edge is confirmed. -/
  | latchConfirm (src : Fin 32) (level : Bool)
  /-- LATCH_BOUNCE (R100): A raw edge not confirmed within the debounce time plus 1 µs is dropped as LATCH_BOUNCE. -/
  | latchBounce (src : Fin 32)
  /-- LATCH_ARM (R101): W1 to LATm_ARM clears FULL and OVR. -/
  | latchArm (h : HalfId) (m : Fin 16)
  /-- DZ_EDGE (R102): A door-zone vane edge is compared with its expected position. -/
  | dzEdge (h : HalfId) (src : Fin 32) (entering : Bool) (dt20 : Nat)
  /-- LRN_START (R103): Setting LRN_CTRL.RUN clears the buffer and starts recording vanes. -/
  | lrnStart (h : HalfId) (n : Fin 4) (src : Fin 32)
  /-- LRN_STOP (R103): Clearing RUN ends the learning run with DONE. -/
  | lrnStop (h : HalfId)
  /-- LRN_EDGE (R103): An entering or leaving vane edge during a learning run is stored as LO or HI. -/
  | lrnEdge (h : HalfId) (edge : VaneEdge) (dt20 : Nat)
  /-- MPG_MOVE (R120): MOVE is checked at the next SERVO event and starts or replaces an absolute move. -/
  | mpgMove (h : HalfId) (n : Fin 4) (pos : BitVec 32) (tag : BitVec 16)
  /-- MPG_JOG (R115): JOG runs the car at the given speed towards its reservation edge or the shaft bound. -/
  | mpgJog (h : HalfId) (n : Fin 4) (vel : BitVec 32) (tag : BitVec 16)
  /-- MPG_STOP (R125): STOP plans a ramp stop to the present STOPPT. -/
  | mpgStop (h : HalfId) (n : Fin 4) (tag : BitVec 16)
  /-- MPG_STOP_AT (R125): STOP_AT plans a stop at a given position at or beyond STOPPT. -/
  | mpgStopAt (h : HalfId) (n : Fin 4) (pos : BitVec 32) (tag : BitVec 16)
  /-- MPG_STOP_NOW (R125): STOP_NOW freezes export with QSTOP set. -/
  | mpgStopNow (h : HalfId) (n : Fin 4) (tag : BitVec 16)
  /-- MPG_RESCUE (R132): RESCUE moves a standing car slowly in the light-load direction to the next landing with an opening. -/
  | mpgRescue (h : HalfId) (n : Fin 4) (vel : BitVec 32) (tag : BitVec 16)
  /-- DRV_STATUS_FRAME (R136): A drive status frame of at least 8 bytes is copied by the servo lane for its generator. -/
  | drvStatusFrame (n : Fin 4) (data : List Byte)
  /-- DRV_SILENT (R136): DRV_LOSS.N export periods without status raise DRV_SILENT. -/
  | drvSilent (h : HalfId) (n : Fin 4)
  /-- LOOP_LATE (R152): At the engine deadline unfinished loops are abandoned and flagged LATE. -/
  | loopLate (h : HalfId) (e : Fin 3) (k : Fin 32)
  /-- PLAUS (R165): A supervisor residual above threshold for SUP_CNT.N samples raises PLAUS. -/
  | plaus (h : HalfId) (e : Fin 3) (l : Fin 32)
  /-- TBL_DATA_WRITE (R161): A write to TBL_DATA stores a table word, checks stability and advances TBL_ADDR. -/
  | tblDataWrite (h : HalfId) (e : Fin 3) (v : BitVec 32)
  /-- SEP_RESERVE (R173): RESERVE sets a car's reservation after claim and overlap checks. -/
  | sepReserve (h : HalfId) (car : Fin 4) (lo : BitVec 32) (hi : BitVec 32) (tag : BitVec 16)
  /-- SEP_TRIM (R173): TRIM shrinks a car's reservation to its present claim. -/
  | sepTrim (h : HalfId) (car : Fin 4) (tag : BitVec 16)
  /-- SEP_HANDOVER (R173): HANDOVER moves the boundary between two neighbouring reservations in one step. -/
  | sepHandover (h : HalfId) (car : Fin 4) (bnd : BitVec 32) (tag : BitVec 16)
  /-- HEADWAY_CHECK (R181): The safety pair checks gaps and reservations of separation pairs from the source-P copy and acts per its table. -/
  | headwayCheck 
  /-- SOURCE_T_FRAME (R87): A source-T frame completes in SAF and updates Theath's position and speed. -/
  | sourceTFrame (n : Fin 4) (lineLow : Bool) (bits : BitVec 32)
  /-- THEATH_SEP_CHECK (R184): Every microsecond Theath compares each separation gap with its stopping-distance threshold. -/
  | theathSepCheck 
  /-- SEP_TINV (R184): Source T without a good frame for T_INV trips the car and its neighbours. -/
  | sepTinv (n : Fin 4)
  /-- DOOR_OPEN (R197): OPEN starts the cam for a standing level car or arms the gear for an arriving car. -/
  | doorOpen (h : HalfId) (k : Fin 8) (land : BitVec 8) (tag : BitVec 16)
  /-- DOOR_CLOSE (R203): CLOSE runs the cam backwards under the kinetic-energy cap. -/
  | doorClose (h : HalfId) (k : Fin 8) (tag : BitVec 16)
  /-- DOOR_NUDGE (R205): NUDGE closes at NUDGE_KE with the light curtain ignored. -/
  | doorNudge (h : HalfId) (k : Fin 8) (tag : BitVec 16)
  /-- DOOR_STOP (R196): STOP decelerates the door at REV_DEC and holds. -/
  | doorStop (h : HalfId) (k : Fin 8) (tag : BitVec 16)
  /-- DOOR_STOP_NOW (R207): STOP_NOW freezes the door axis at once. -/
  | doorStopNow (h : HalfId) (k : Fin 8) (tag : BitVec 16)
  /-- DOOR_HOME (R207): HOME closes a stepper door until the closed switch acts and zeroes its count. -/
  | doorHome (h : HalfId) (k : Fin 8) (tag : BitVec 16)
  /-- DOOR_LOCK_FAIL (R208): A lock not shown closed within LOCK_T makes the axis reopen and retry or stop. -/
  | doorLockFail (h : HalfId) (k : Fin 8)
  /-- DOOR_STATUS_FRAME (R209): A door drive status frame of at least 12 bytes is taken for the axis and its force residual. -/
  | doorStatusFrame (k : Fin 8) (data : List Byte)
  /-- DOOR_SILENT (R209): DRV_LOSS.N missed door status frames raise DOOR_SILENT. -/
  | doorSilent (h : HalfId) (k : Fin 8)
  /-- STP_STEP_EDGE (R211): A STEP rising edge moves the coarse target and schedules microsteps. -/
  | stpStepEdge (c : Fin 4) (up : Bool) (dtNs : Nat)
  /-- STP_PWM_PERIOD (R210): Each PWM period sets the phase duties from the latest microstep count. -/
  | stpPwmPeriod (h : HalfId) (c : Fin 4) (tNs : Nat)
  /-- STP_STILL (R212): No microstep for STILL_T enters the configured standstill mode. -/
  | stpStill (h : HalfId) (c : Fin 4)
  /-- STP_DRV_POWER_LOSS (R213): Loss of the bridge supply drops STPc_EN and keeps or loses the position per RETAIN. -/
  | stpDrvPowerLoss (c : Fin 4)
  /-- STP_DRV_POWER_RETURN (R213): Return of the bridge supply re-energises the channel at the kept angle. -/
  | stpDrvPowerReturn (c : Fin 4)
  /-- SHL_NEW (R230): A NEW submission takes a slot and is evaluated against the feasible cars or forwarded. -/
  | shlNew (h : HalfId) (kind : BitVec 4) (src : BitVec 8) (dst : BitVec 8) (count : BitVec 4) (access : Bool) (prio : Bool) (car : BitVec 6) (tag : BitVec 32)
  /-- SHL_CANCEL (R238): CANCEL removes a call and its unneeded stops. -/
  | shlCancel (h : HalfId) (slot : BitVec 12) (tag : BitVec 32)
  /-- SHL_ARRIVE (R238): ARRIVE removes a car's head stop and advances the calls served there. -/
  | shlArrive (h : HalfId) (car : BitVec 6) (floor : BitVec 8) (tag : BitVec 32)
  /-- RES_TAIL_WRITE (R225): Firmware advances RES_TAIL to release consumed result entries. -/
  | resTailWrite (h : HalfId) (v : BitVec 12)
  /-- SHL_PUBLISH (R235): At the first CYCLE boundary after the mirror acknowledges, decisions are published and results posted. -/
  | shlPublish (h : HalfId)
  /-- SHL_SWEEP (R240): Every 500 ms a sweep re-evaluates assigned hall calls and moves those with a better car. -/
  | shlSweep (h : HalfId)
  /-- SHL_REASSIGN_OUT (R224): At the next evaluation slot every ASSIGNED call of a car gone OUT is reassigned. -/
  | shlReassignOut (h : HalfId) (car : BitVec 6)
  /-- CAR_RECORD_STALE (R223): A car record older than REC_AGE makes the car NO_NEW. -/
  | carRecordStale (h : HalfId) (car : BitVec 6)
  /-- SHL_FWD_TMO (R237): A forwarded call without a decision within FWD_TMO is assigned locally and marked HELD. -/
  | shlFwdTmo (h : HalfId) (slot : BitVec 12)
  /-- SAFE_INPUT_CHANGE (R252): A safe input channel changes its filtered level. -/
  | safeInputChange (ch : Fin 16) (level : Bool)
  /-- THEATH_EVAL (R258): Theath evaluates its safety functions for every car and latches category-0 trips. -/
  | theathEval 
  /-- PAIR_SAMPLE (R256): Every 25 µs the safety pair samples the safe inputs and applies its test-pulse checks. -/
  | pairSample (t : BitVec 18)
  /-- PAIR_SERVO_EVAL (R259): Once per servo period the safety pair evaluates its functions, permits and stop envelopes. -/
  | pairServoEval 
  /-- DISCREPANCY (R253): Channels of a pair disagreeing beyond DISC_T fault the pair. -/
  | discrepancy (p : Fin 8)
  /-- TP_WINDOW_START (R254): A test-pulse line switches off for its window and its channels are blanked. -/
  | tpWindowStart (k : Fin 4)
  /-- TP_WINDOW_END (R256): At the end of a window and settle time the channels are judged for stuck and cross faults. -/
  | tpWindowEnd (k : Fin 4) (high : BitVec 16) (low : BitVec 16)
  /-- TP_OVERLOAD (R549): A TP line limited for 1 ms or not switching faults every pair it feeds. -/
  | tpOverload (k : Fin 4)
  /-- HEARTBEAT_SEND (R247): The safety pair writes a heartbeat to Theath every 100 µs. -/
  | heartbeatSend 
  /-- HEARTBEAT_TIMEOUT (R247): No heartbeat for 300 µs makes Theath switch every low-side switch off. -/
  | heartbeatTimeout 
  /-- TCLK_CHECK (R247): Every 10 µs the pair checks TCLK and Theath status and enters FAULT on a deviation. -/
  | tclkCheck (off : Bool) (stale : Bool)
  /-- LOCKSTEP_MISMATCH (R247): A mismatch between the safety cores puts the pair in FAULT. -/
  | lockstepMismatch 
  /-- SAFE_FRAME (R417): A tapped safe frame is checked and, if accepted, updates the station's lock and door status. -/
  | safeFrame (bus : Fin 4) (ident : BitVec 32) (fd : Bool) (dlc : BitVec 4) (data : List Byte)
  /-- STATION_SILENT (R261): A station without an accepted safe frame for SF_TMO is silent and its locks are taken as open. -/
  | stationSilent (k : Fin 260)
  /-- LOCK_DISAGREE (R261): A lock reported open by frames with its pair not in demand beyond SF_TMO raises LOCK_DISAGREE. -/
  | lockDisagree (l : BitVec 8)
  /-- SOURCE_T_LOST (R258): A car outside every separation pair without a good source-T frame for T_INV is stopped. -/
  | sourceTLost (n : Fin 4)
  /-- SMB_INFO (R276): INFO returns the active BLOCK_ID, seal code and safety state. -/
  | smbInfo (tag : BitVec 16)
  /-- SMB_RESCUE (R264): RESCUE requests or withdraws the rescue permit of a car. -/
  | smbRescue (car : BitVec 32) (request : BitVec 32) (tag : BitVec 16)
  /-- SMB_RESET (R303): RESET clears the latched stops of the masked cars in both channels, all or nothing. -/
  | smbReset (mask : BitVec 32) (tag : BitVec 16)
  /-- SMB_DEGRADED (R300): DEGRADED grants or withdraws degraded operation with waivers. -/
  | smbDegraded (car : BitVec 32) (request : BitVec 32) (tag : BitVec 16)
  /-- SMB_OUTPUT_TEST (R308): OUTPUT_TEST withdraws the car's permit and holds one output pair fully off for checking. -/
  | smbOutputTest (k : BitVec 32) (ms : BitVec 32) (tag : BitVec 16)
  /-- OUTPUT_TEST_DONE (R308): The output test ends, the reply is posted and a fault latches OUTPUT. -/
  | outputTestDone (v : Volts) (ma : BitVec 16)
  /-- SPB_CLEAR (R279): CLEAR empties the candidate safety parameter block. -/
  | spbClear 
  /-- SPB_DATA_WRITE (R270): A write to SPB.DATA stores a candidate word, advances ADDR and returns the state to IDLE. -/
  | spbDataWrite (v : BitVec 32)
  /-- SPB_VERIFY (R269): VERIFY starts the checks of the candidate block. -/
  | spbVerify 
  /-- SPB_VERIFY_DONE (R269): The candidate is shown VERIFIED or FAILED with its reason. -/
  | spbVerifyDone 
  /-- SPB_SEAL (R271): SEAL is accepted under its conditions and the region enters SEALING. -/
  | spbSeal (sw : BitVec 16) (en : Bool)
  /-- SEAL_COMMIT_DONE (R271): Both MRAM copies are written, a record posted and the region restarts from START. -/
  | sealCommitDone 
  /-- SPB_READ_ACTIVE (R279): READ_ACTIVE copies the active block into the candidate. -/
  | spbReadActive 
  /-- SEAL_CONTACT_POLL (R272): Every 1 s in RUN the pair reads SEAL and SEAL_EN and acts on a change. -/
  | sealContactPoll (sw : BitVec 16) (en : Bool)
  /-- SAFETY_START (R269): In START the region self-tests and loads a block copy to RUN, NO_BLOCK, SEAL_FAIL or FAULT. -/
  | safetyStart (selfTest : Bool) (sw : BitVec 16) (en : Bool)
  /-- S1_STANDSTILL (R288): Standstill held for SS_T during a category-1 stop switches the BRAKE pairs off. -/
  | s1Standstill (n : Fin 4)
  /-- S1_STO_OFF (R288): BRK_SET_T after the brake drops the STO pair goes off and the stop completes. -/
  | s1StoOff (n : Fin 4)
  /-- S1_TIME (R290): Standstill not reached by S1_TMAX escalates to stop category 0. -/
  | s1Time (n : Fin 4)
  /-- STANDSTILL_BRAKE_DROP (R284): A car stood for SS_T with permit withdrawn or doors open drops its brake and later its STO pair. -/
  | standstillBrakeDrop (n : Fin 4)
  /-- BRAKE_LIFT (R284): BRAKE pairs switch on once the STO pair has been on for LIFT_T. -/
  | brakeLift (n : Fin 4)
  /-- BRAKE_PICK_CHECK (R293): Brake current not reaching BRK_I_PICK within BRK_PICK_T is BRAKE_FAULT. -/
  | brakePickCheck (k : Fin 8) (ma : BitVec 16)
  /-- BRAKE_DROP_CHECK (R293): Brake current not below 50 mA within BRK_DROP_T is BRAKE_FAULT. -/
  | brakeDropCheck (k : Fin 8) (ma : BitVec 16)
  /-- DARK_TEST (R296): Each DARK_PER one switch of an on pair is pulsed off and checked. -/
  | darkTest (k : Fin 8) (low : Bool) (vp : BitVec 16) (vn : BitVec 16) (ma : BitVec 16)
  /-- SPLIT_TEST (R297): Each DARK_PER one switch of an off pair is pulsed on and checked. -/
  | splitTest (k : Fin 8) (low : Bool) (vp : BitVec 16) (vn : BitVec 16) (ma : BitVec 16) (cross : Bool)
  /-- OUTPUT_OVERLOAD (R298): A pair current above 2.5 A is limited and turned off, latching cause OUTPUT. -/
  | outputOverload (k : Fin 8)
  /-- OPEN_LOAD (R298): An on pair below OL_I for 100 ms fails with OPEN_LOAD. -/
  | openLoad (k : Fin 8) (ma : BitVec 16)
  /-- OT_DUE (R299): Hours since a pair's last OUTPUT_TEST reaching OT_DUE set the due flag and post a record. -/
  | otDue (k : Fin 8)
  /-- DEG_TIME (R302): Expiry of DEG_T stops the car with cause DEG_TIME. -/
  | degTime (n : Fin 4)
  /-- DEG_RECOVERY (R302): Waived conditions held for SS_T end the degraded grant. -/
  | degRecovery (n : Fin 4)
  /-- RESET_PRESS (R304): A RESET pair in demand 100 ms to 5 s and then released counts as a press. -/
  | resetPress (p : Fin 8) (ms : BitVec 16)
  /-- LEASE_RENEWAL (R344): The active half sends a lease renewal with its epoch every 250 µs. -/
  | leaseRenewal (h : HalfId) (epoch : BitVec 16)
  /-- LEASE_EXPIRY (R344): The lease expires 750 µs after the last counted renewal. -/
  | leaseExpiry 
  /-- HALF_ABORT (R345): A half abort releases the lease and takes the half OFFLINE. -/
  | halfAbort (h : HalfId)
  /-- STANDBY_CLAIM (R356): A standby claims within 100 ns of seeing the lease invalid, or is refused and fenced. -/
  | standbyClaim (h : HalfId)
  /-- CLAIM_WINDOW_END (R346): At the end of the 2 µs window the higher epoch wins the lease and the winner takes over. -/
  | claimWindowEnd (gap : BitVec 20) (dt : BitVec 48)
  /-- WEIR_NOHOLD (R348): No grant within 1.0 ms drives every field output safe and enters the device safe state. -/
  | weirNohold 
  /-- INTENT_TIMEOUT (R349): No motion intent for 1.0 ms plus two servo periods stops moving cars with cause DEVICE. -/
  | intentTimeout 
  /-- RESYNC_COMPLETE (R353): A stale standby meeting the resynchronisation conditions becomes STANDBY_SYNC. -/
  | resyncComplete (h : HalfId)
  /-- DISAGREE (R354): DIS_N consecutive disagreements make the standby STANDBY_STALE. -/
  | disagree (h : HalfId)
  /-- SWAP (R359): SWAP is checked and armed for a proof swap. -/
  | swap (h : HalfId)
  /-- SWAP_RELEASE (R359): After the shadow holds the published cycle and 50 µs after the next SERVO event, the active half releases the lease. -/
  | swapRelease (h : HalfId)
  /-- SWAP_PROOF_DONE (R359): The new holder's first publish and three export events without a missed renewal record a successful proof. -/
  | swapProofDone 
  /-- SWAP_CANCEL (R366): SWAP_CANCEL withdraws an armed swap before the release. -/
  | swapCancel (h : HalfId)
  /-- RESET_PEER (R366): RESET_PEER resets the other half, which passes through OFFLINE to REPAIR. -/
  | resetPeer (h : HalfId)
  /-- HOLD_PEER (R366): HOLD_PEER takes the other half OFFLINE and holds it in reset. -/
  | holdPeer (h : HalfId)
  /-- RELEASE_PEER (R366): RELEASE_PEER ends the hold and the peer enters REPAIR. -/
  | releasePeer (h : HalfId)
  /-- PROOF_AGE_DUE (R360): The standby's proof age reaching SWAP_DUE raises HLF_SWAP_DUE. -/
  | proofAgeDue (h : HalfId)
  /-- AUTO_REJOIN (R365): One second after a faulted half goes OFFLINE the other half checks its clock and restarts it. -/
  | autoRejoin (h : HalfId) (clockOk : Bool)
  /-- REPAIR_ENTRY (R363): A half in REPAIR applies the Seedbank, runs BIST and maps spares. -/
  | repairEntry (h : HalfId) (fails : List (BitVec 2 × BitVec 13 × BitVec 4))
  /-- REPAIR_DONE (R363): REPAIR steps complete and the half starts its cores and claims or resynchronises. -/
  | repairDone (h : HalfId)
  /-- HCLK_OUT_OF_RANGE (R344): HCLK outside ±2 % stops renewals and starts a half abort. -/
  | hclkOutOfRange (h : HalfId) (runs : Bool)
  /-- HELLO_TICK (R378): At each HELLO.MS tick a module sends HELLO and evaluates the ring state and manager role. -/
  | helloTick 
  /-- MANAGER_ACTIVATE (R388): A passive manager with no active frame for 6 HELLO periods and a majority becomes active and requests reports. -/
  | managerActivate 
  /-- GLK_HELLO_RX (R380): A received HELLO updates membership, joins, mismatches and duplicates and is forwarded. -/
  | glkHelloRx (port : Fin 2) (hd : GHdr) (cfg : BitVec 32) (dev : BitVec 64) (boots : BitVec 32) (w : BitVec 5) (heard : BitVec 18)
  /-- GLK_BEACON_SEND (R384): The active manager sends a time BEACON every 10 ms. -/
  | glkBeaconSend (sub : BitVec 14)
  /-- GLK_BEACON_RX (R385): A follower computes its offset from a usable beacon and steers its RTC. -/
  | glkBeaconRx (copies : List GCopy) (ts : BitVec 64) (sub : BitVec 14)
  /-- DELAY_REQ_SEND (R383): A port sends a DELAY_REQ on schedule after link up. -/
  | delayReqSend (port : Fin 2) (t1 : BitVec 64)
  /-- DELAY_REQ_RX (R383): A port answers a DELAY_REQ with its receive and send instants. -/
  | delayReqRx (port : Fin 2) (hd : GHdr) (t2 : BitVec 64) (t3 : BitVec 64)
  /-- DELAY_RESP_RX (R383): A DELAY_RESP updates the averaged link delay of the port. -/
  | delayRespRx (port : Fin 2) (hd : GHdr) (t2 : BitVec 64) (t3 : BitVec 64) (t4 : BitVec 64)
  /-- RECORDS_RX (R223): A manager takes a worker's car records. -/
  | recordsRx (port : Fin 2) (hd : GHdr) (rs : List GRec)
  /-- FORWARD_RX (R237): A manager takes a worker's forwarded submissions. -/
  | forwardRx (port : Fin 2) (hd : GHdr) (fs : List GFwd)
  /-- DECISION_RX (R236): A worker applies received decisions at its next CYCLE boundary. -/
  | decisionRx (port : Fin 2) (hd : GHdr) (ds : List GDec) (calls : List GCall) (seqs : List (BitVec 6 × List GStop))
  /-- REPORT_REQ_RX (R388): A worker answers REPORT_REQ with its calls. -/
  | reportReqRx (port : Fin 2) (hd : GHdr)
  /-- REPORT_RX (R388): A manager adopts reported calls by KEY and reassigns unreported ones. -/
  | reportRx (port : Fin 2) (hd : GHdr) (full : Bool) (calls : List GCall)
  /-- TABLES_RX (R389): The passive manager updates its call and stop tables. -/
  | tablesRx (port : Fin 2) (hd : GHdr) (calls : List GCall) (seqs : List (BitVec 6 × List GStop))
  /-- USER_RX (R381): A USER frame is kept as the latest from its source for the cycle program. -/
  | userRx (port : Fin 2) (hd : GHdr) (data : List (BitVec 8))
  /-- GLK_LINK_LOSS (R374): A port reports link loss 1 ms after its last valid symbol. -/
  | glkLinkLoss (port : Fin 2)
  /-- GLK_LINK_UP (R383): A port gains link and starts its delay exchanges. -/
  | glkLinkUp (port : Fin 2) (low : Bool)
  /-- TSYNC_HOLDOVER (R385): No usable beacon for 50 ms puts the follower in HOLDOVER. -/
  | tsyncHoldover 
  /-- GLK_NO_MGR (R387): A worker hearing no active manager for 8 HELLO periods enters ISLAND. -/
  | glkNoMgr 
  /-- GLK_LEAVE (R380): A staged CTRL.EN = 0 sends a LEAVE HELLO and takes both ports down. -/
  | glkLeave 
  /-- CAN_RX_FRAME (R401): A valid frame is acknowledged, queued and copied to the tap, servo lane, stations and receive variables. -/
  | canRxFrame (c : Fin 4) (id : BitVec 29) (ide : Bool) (fdf : Bool) (brs : Bool) (rtr : Bool) (esi : Bool) (dlc : BitVec 4) (data : List (BitVec 8)) (sof : Sof)
  /-- STATION_PERIOD_MISS (R420): Each full PER without a status frame adds to MISS and at 3 the station goes DOWN. -/
  | stationPeriodMiss (stn : Fin 288)
  /-- CAN_BUS_ERROR (R410): A bus error updates the error counters and state, possibly to error-passive or bus-off. -/
  | canBusError (c : Fin 4) (tx : Bool) (lec : BitVec 3) (inData : Bool) (dom : Bool)
  /-- CAN_LONELY (R412): ACKRUN reaching LONELY.N raises CAN_LONELY. -/
  | canLonely (c : Fin 4)
  /-- TX_REQ (R406): W1 to TX_REQ requests a firmware buffer after format checks. -/
  | txReq (c : Fin 4) (q : Fin 4) (bits : BitVec 32)
  /-- TX_CANCEL (R407): W1 to TX_CANCEL cancels a request not yet in arbitration. -/
  | txCancel (c : Fin 4) (q : Fin 4) (bits : BitVec 32)
  /-- CAN_TX_END (R407): A transmission attempt ends with its result and sets TX_DONE and TX_FAIL. -/
  | canTxEnd (c : Fin 4) (buf : Fin 128) (sent : Bool) (arbLost : Bool) (lec : BitVec 3) (sof : Sof) (tdc : Option (BitVec 7))
  /-- RX_ACK (R402): A write of n to RX_ACK releases n owned queue entries. -/
  | rxAck (c : Fin 4) (n : BitVec 11)
  /-- CAN_REJOIN (R411): W1 to REJOIN in BUS_OFF starts REJOINING. -/
  | canRejoin (c : Fin 4)
  /-- CAN_REJOIN_DONE (R410): 128 sequences of 11 recessive bits end REJOINING with both counters 0. -/
  | canRejoinDone (c : Fin 4)
  /-- CAN_INTEGRATED (R398): 11 consecutive recessive bits end integration and the controller joins bus traffic. -/
  | canIntegrated (c : Fin 4)
  /-- TT_BASIC_CYCLE (R408): A basic cycle starts, the row counter advances and a FRAME event occurs. -/
  | ttBasicCycle (bus : CanBus)
  /-- TT_WINDOW_END (R409): A window ends without its frame starting and the request ends NOT_SENT with WINDOW. -/
  | ttWindowEnd (c : Fin 4)
  /-- DIN_DEBOUNCED_CHANGE (R432): An input holds a new level for DEB and its debounced level changes. -/
  | dinDebouncedChange (n : Fin 32) (lvl : Bool)
  /-- DSUP_SHORT (R435): A sensor supply limited for 5 ms is switched off. -/
  | dsupShort (g : Fin 4)
  /-- DSUP_RETRY (R435): Every 1 s a shorted sensor supply retries for 5 ms. -/
  | dsupRetry (g : Fin 4) (limits : Bool)
  /-- FIO_SILENT (R429): The logic-silence timer expires and outputs go to their safe state. -/
  | fioSilent 
  /-- DO_OVERLOAD (R437): An output limited for 2 ms is switched off. -/
  | doOverload (n : Fin 16)
  /-- DO_OPEN (R437): An on output below OW_MA for 100 ms is an open wire. -/
  | doOpen (n : Fin 16) (ma : BitVec 16)
  /-- DO_OVERTEMP (R437): An output switch at 150 °C is switched off. -/
  | doOvertemp (n : Fin 16)
  /-- DO_RB_LOW (R437): An on output reading back low for 100 µs is faulted. -/
  | doRbLow (n : Fin 16)
  /-- DO_RB_HIGH (R437): An off output reading back high for 1 ms is reported. -/
  | doRbHigh (n : Fin 16)
  /-- DO_VFIELD (R437): A field supply below 18.0 V is reported. -/
  | doVfield (g : Fin 2) (mv : BitVec 16)
  /-- DO_RETRY (R437): Every 1 s an unlatched faulted output retries. -/
  | doRetry (n : Fin 16) (cool : Bool)
  /-- DO_CLR (R437): W1 to DOUT.CLR clears a latched output fault whose cause is gone. -/
  | doClr (bits : BitVec 16)
  /-- AI_SAMPLE (R438): An analog input sample updates the filtered current, class and window flags. -/
  | aiSample (c : Fin 8) (code : BitVec 16)
  /-- AI_SHORT (R439): A loop at 28 mA or more for 50 ms sets SHORT and switches loop power off. -/
  | aiShort (c : Fin 8)
  /-- AI_RETRY (R439): Every 1 s a shorted loop retries its power for 50 ms. -/
  | aiRetry (c : Fin 8) (ua : BitVec 16)
  /-- AO_REPORT (R445): An analog output stage reports its loop current and terminal voltage. -/
  | aoReport (c : Fin 4) (meas : BitVec 16) (ut : BitVec 16) (rsvLow : Bool) (sat : Bool)
  /-- AO_LINK (R445): No report for 5 ms sets LINK. -/
  | aoLink (c : Fin 4)
  /-- AO_TARGET_LOSS (R445): A stage receiving no target for 5 ms regulates to the alarm level. -/
  | aoTargetLoss (c : Fin 4)
  /-- AO_COMPLIANCE (R446): A current over 16 µA below target for 10 ms sets COMPLIANCE. -/
  | aoCompliance (c : Fin 4)
  /-- AO_COMPLIANCE_CLEAR (R446): Recovery held for 100 ms clears COMPLIANCE. -/
  | aoComplianceClear (c : Fin 4)
  /-- TRIM_SEL_PRESS (R450): TRIM_SEL pressed 50 ms to 2 s advances the selected trim point. -/
  | trimSelPress 
  /-- TRIM_SEL_LONG (R450): TRIM_SEL pressed longer than 2 s ends the selection. -/
  | trimSelLong 
  /-- TRIM_STEP (R450): TRIM_UP or TRIM_DN adjusts the zero or span of the selected output. -/
  | trimStep (up : Bool)
  /-- TRIM_REPEAT (R450): A trim contact held beyond 1 s repeats at 10 steps per second. -/
  | trimRepeat (up : Bool)
  /-- TRIM_IDLE (R450): No contact pressed for 300 s ends the selection. -/
  | trimIdle 
  /-- TRM_SEL_WRITE (R451): A write of SEL.POINT selects a trim point or is refused with BUSY. -/
  | trmSelWrite (pt : BitVec 4)
  /-- TICK (R468): At each TICK the RTC applies a pending SET or advances, applies calendar values and evaluates alarms. -/
  | tick 
  /-- ALARM_FIRE (R472): An armed alarm fires when the count reaches its value. -/
  | alarmFire (k : Fin 4)
  /-- RTC_SET (R466): SET_CMD GO queues a SET for the next TICK or is refused. -/
  | rtcSet (mid : BitVec 8) (mach : Bool) (val : BitVec 64) (sync : Bool)
  /-- RTC_SET_CANCEL (R466): SET_CMD CANCEL withdraws a pending SET. -/
  | rtcSetCancel 
  /-- RTC_CAPTURE (R465): CAPTURE latches the count and calendar together. -/
  | rtcCapture 
  /-- CAL_SYNC (R470): CAL.CMD.SYNC rewrites the calendar from the count at the next TICK. -/
  | calSync 
  /-- RTC_OSC_STOP (R460): No crystal edge for 1 ms switches TICK to MCLK and raises RTC_OSC_STOP. -/
  | rtcOscStop 
  /-- RTC_OSC_RESUME (R460): The crystal running for 1 s clears OSC_STOP. -/
  | rtcOscResume 
  /-- VBAT_SWITCHOVER (R461): The always-on domain switches to or from VBAT as both supply inputs are lost or one returns. -/
  | vbatSwitchover 
  /-- CHARGER_LIMIT (R462): The charger stops at its limit and resumes 50 mV below it. -/
  | chargerLimit (mv : BitVec 16)
  /-- VBAT_MEASURE (R463): Once per second VBAT is measured and BAT_LOW set or cleared. -/
  | vbatMeasure (mv : BitVec 16)
  /-- SLT_POST_GO (R481): POST_GO starts the copy of a USER or MARKER record from half SRAM. -/
  | sltPostGo (mid : BitVec 8) (mach : Bool) (addr : BitVec 32) (len : BitVec 13) (code : BitVec 8) (detail : BitVec 16)
  /-- SLT_POST_COPY_DONE (R481): The payload copy ends and the record is QUEUED or LOST. -/
  | sltPostCopyDone (g : Fin 4)
  /-- SILT_WRITE (R482): The writer takes a queued record, assigns its SEQ and writes it to MRAM. -/
  | siltWrite 
  /-- SILT_LOSS_END (R483): When 1,024 entries are free again a LOSS record is posted. -/
  | siltLossEnd (prot : Bool)
  /-- SLT_CUR_OLDEST (R489): Cursor command OLDEST captures the first readable record. -/
  | sltCurOldest (g : Fin 4)
  /-- SLT_CUR_NEWEST (R489): Cursor command NEWEST captures the last record written. -/
  | sltCurNewest (g : Fin 4)
  /-- SLT_CUR_SEQ (R489): Cursor command SEQ captures record CUR_ARG. -/
  | sltCurSeq (g : Fin 4) (seq : BitVec 32)
  /-- SLT_CUR_NEXT (R489): Cursor command NEXT captures the following record. -/
  | sltCurNext (g : Fin 4)
  /-- SLT_CUR_PREV (R489): Cursor command PREV captures the preceding record. -/
  | sltCurPrev (g : Fin 4)
  /-- SLT_RD_DATA_READ (R489): A read of RD_DATA returns a payload word and advances RD_POFS. -/
  | sltRdDataRead (g : Fin 4)
  /-- SLT_CAPTURE (R490): CAPTURE latches oldest, newest, next SEQ, seal and anchor. -/
  | sltCapture 
  /-- SLT_EXPORT (R490): EXP_GO starts copying sealed pages into half SRAM. -/
  | sltExport (g : Fin 4) (addr : BitVec 32) (pseq : BitVec 64) (n : BitVec 7)
  /-- SLT_EXPORT_DONE (R490): The export ends with DONE, GONE or ECC. -/
  | sltExportDone (g : Fin 4)
  /-- SLT_VERIFY (R490): VFY_GO starts verification of a range of page seals. -/
  | sltVerify (pseq : BitVec 64) (n : BitVec 32)
  /-- SLT_VERIFY_DONE (R490): Verification ends with PASS or FAIL and the first failing page. -/
  | sltVerifyDone 
  /-- SLT_NONCE (R491): NONCE_GO produces a device nonce for a clear token. -/
  | sltNonce 
  /-- SLT_NONCE_LAPSE (R491): The clear nonce lapses after 600 s. -/
  | sltNonceLapse 
  /-- SLT_CLEAR (R491): CLR_GO verifies the clear token and starts erasure per scope. -/
  | sltClear (mid : BitVec 8) (mach : Bool) (scope : Bool) (seq : BitVec 32)
  /-- SLT_CLEAR_DONE (R492): Erasure completes and the clear shows DONE. -/
  | sltClearDone 
  /-- ENC_NONCE (R502): NONCE gives the requester group a fresh 128-bit nonce. -/
  | encNonce (mid : BitVec 8)
  /-- ENC_NONCE_LAPSE (R502): A group nonce lapses after 600 s. -/
  | encNonceLapse (g : Fin 3)
  /-- ENC_TOK_DATA_WRITE (R501): A write to TOK_DATA stores a token word and advances TOK_ADDR. -/
  | encTokDataWrite (g : Fin 3) (v : BitVec 32)
  /-- TOKEN_AUTH (R504): A presented AUTH token is checked and opens an authorisation with its role. -/
  | tokenAuth (mid : BitVec 8) (mach : Bool)
  /-- TOKEN_KEY_ADD (R500): A presented KEY_ADD token adds a key to the store. -/
  | tokenKeyAdd (mid : BitVec 8) (mach : Bool)
  /-- TOKEN_KEY_REVOKE (R500): A presented KEY_REVOKE token removes a key and closes its authorisations. -/
  | tokenKeyRevoke (mid : BitVec 8) (mach : Bool)
  /-- TOKEN_SILT_CLEAR (R491): A presented SILT_CLEAR token is checked against the Silt nonce for a clear. -/
  | tokenSiltClear (mid : BitVec 8) (mach : Bool)
  /-- TOKEN_LIFECYCLE (R498): A presented LIFECYCLE token moves the lifecycle forward, zeroising keys for RETURNED. -/
  | tokenLifecycle (mid : BitVec 8) (mach : Bool)
  /-- ENC_CLOSE (R504): CLOSE ends the group's authorisation. -/
  | encClose (mid : BitVec 8)
  /-- ENC_ATTEST (R512): ATTEST signs the attestation report over the challenge. -/
  | encAttest (mid : BitVec 8)
  /-- ENC_ATTEST_DONE (R512): The signed report is placed in the report port within 20 ms. -/
  | encAttestDone 
  /-- ENC_CERT (R512): CERT places the device certificate in the report port. -/
  | encCert (mid : BitVec 8)
  /-- ENC_REP_DATA_READ (R512): A read of REP_DATA returns a report word and advances REP_ADDR. -/
  | encRepDataRead (g : Fin 3)
  /-- ENC_INSTALL (R511): INSTALL verifies an image in the user area and starts copying it into a slot. -/
  | encInstall (mid : BitVec 8) (mach : Bool)
  /-- ENC_INSTALL_DONE (R511): The copy is verified and the slot marked valid or invalid. -/
  | encInstallDone (ok : Bool)
  /-- ENC_ACCEPT_VERSION (R509): ACCEPT_VERSION raises MIN_VER to the running image's VERSION. -/
  | encAcceptVersion (mid : BitVec 8) (mach : Bool)
  /-- AUTH_EXPIRY (R504): An authorisation lapses at its duration or NOT_AFTER. -/
  | authExpiry (g : Fin 3)
  /-- ENC_RATE_END (R503): 60 s after five refusals the group may take nonces again. -/
  | encRateEnd (g : Fin 3)
  /-- TAMPER (R517): Tamper detection zeroises keys within 10 µs and enters the device safe state. -/
  | tamper (sensor : Fin 4)
  /-- HST_READ (R523): A READ transaction returns N+1 words with WAIT, START or ERROR tokens. -/
  | hstRead (addr : BitVec 32) (n : BitVec 8) (late : Option (BitVec 8))
  /-- HST_WRITE (R524): A WRITE transaction buffers N+1 words and performs them in order. -/
  | hstWrite (addr : BitVec 32) (ws : List (BitVec 32))
  /-- HST_READ_FIX (R522): READ_FIX reads every word from one address. -/
  | hstReadFix (addr : BitVec 32) (n : BitVec 8) (late : Option (BitVec 8))
  /-- HST_WRITE_FIX (R522): WRITE_FIX writes every word to one address. -/
  | hstWriteFix (addr : BitVec 32) (ws : List (BitVec 32))
  /-- HST_STATUS (R522): STATUS returns HST.STATUS and clears WR_ERR and FULL. -/
  | hstStatus 
  /-- HST_BOOT_DATA (R526): BOOT_DATA supplies the next words of a host-link boot image, verified when complete. -/
  | hstBootData (ofs : BitVec 32) (ws : List (BitVec 32))
  /-- HST_RESET (R525): RESET discards the write buffer and reads and ends the host session. -/
  | hstReset 
  /-- HST_CS_ABORT (R525): QSPI_nCS rising within a word discards that word. -/
  | hstCsAbort (wr : Bool) (fix : Bool) (addr : BitVec 32) (n : BitVec 8) (got : BitVec 8) (ws : List (BitVec 32))
  /-- HST_BOOT_IDLE (R526): No boot data for 1 s resets BOOT_OFS and raises HST_BOOT_IDLE. -/
  | hstBootIdle 
  /-- HST_SESSION_IDLE (R513): SESS_IDLE seconds without a host access end the host session. -/
  | hstSessionIdle 
  /-- INPUT_OK (R530): A supply input rising to 19.0 V becomes IN_OK. -/
  | inputOk (inp : HalfId) (mv : BitVec 16)
  /-- INPUT_LOST (R531): An input below 18.0 V for 20 µs is lost and its half aborts. -/
  | inputLost (inp : HalfId) (mv : BitVec 16)
  /-- INPUT_OVERVOLTAGE (R530): An input above 32.0 V is disconnected and counts as lost. -/
  | inputOvervoltage (inp : HalfId) (mv : BitVec 16)
  /-- PWR_IN_LOW (R530): An IN_OK input below WARN.VIN_MV raises a warning. -/
  | pwrInLow (inp : HalfId) (mv : BitVec 16)
  /-- HALF_RESET_RELEASE (R531): A half's input IN_OK for 100 ms releases its reset into REPAIR. -/
  | halfResetRelease (h : HalfId)
  /-- POWER_FAIL_WARN (R532): Loss of both inputs starts the hold-up sequence that writes Silt, MRAM and the shutdown mark. -/
  | powerFailWarn (ended : Bool)
  /-- POWER_GOOD (R532): An input IN_OK for 10 ms with the shared rails in regulation asserts power-good. -/
  | powerGood 
  /-- NRESET_ASSERT (R534): nRESET low for at least 10 µs holds every region in reset. -/
  | nresetAssert 
  /-- RESET_RELEASE (R534): Release samples the straps and starts the boot timeline. -/
  | resetRelease (straps : BitVec 16) (aoLost : Bool) (tagOk : Bool) (ok1 : Bool) (ok2 : Bool) (cols : List (BitVec 16))
  /-- CLAIM_STROBE (R538): MGT issues one claim strobe when ready halves finish REPAIR steps or at 320 ms. -/
  | claimStrobe 
  /-- STRAP_CHANGE (R535): A live strap first differing from its sampled value posts a STATE record. -/
  | strapChange (live : BitVec 16)
  /-- PWR_TEMP (R544): The cold plate above WARN.TEMP raises PWR_TEMP. -/
  | pwrTemp (t : BitVec 16)
  /-- MIR_LINK_UP (R351): The mirror link completes training on the widest working set of lanes and comes up, after a BIST in REPAIR or after it has gone down. -/
  | mirLinkUp (lanes : BitVec 4)
  /-- TT_COLUMN_START (R409): A column window of the time-triggered schedule begins, and the buffer its cell names is started if its request is pending. -/
  | ttColumnStart (c : Fin 4) (col : Fin 32) (start : Bool)
  deriving DecidableEq, Repr

end Sys2Proof
end

