-- ==== Sys2Proof/Decode.lean ====
section
/-! DEFINITION. Commands that a word spells: none, since no row of spec/opcode_table.json gives bits. -/
namespace Sys2Proof

/-- The command that a word spells by the table's bits. -/
def decodeTableWord (_nbits _w : Nat) : Option Instr := none

end Sys2Proof
end

