-- ==== Sys2Proof/Machine/Flags.lean ====
section
/-! DEFINITION. The arithmetic the chapters share: signed reading of a field, division and shifts as the spec's integer code uses
them, integer square root, byte order, and the two CRCs. -/
namespace Sys2Proof.Machine

open Sys2Proof

/-- The signed reading of the low `w` bits of `n`. -/
def sgn (w n : Nat) : Int :=
  let m := n % 2 ^ w
  if 2 * m < 2 ^ w then (m : Int) else (m : Int) - 2 ^ w

/-- The `w`-bit encoding of a signed value (two's complement, wrapping). -/
def encS (w : Nat) (x : Int) : Nat := (x % (2 ^ w : Int)).toNat

/-- The value clamped to the signed `w`-bit range. -/
def satS (w : Nat) (x : Int) : Int :=
  if x > 2 ^ (w - 1) - 1 then 2 ^ (w - 1) - 1 else if x < -(2 ^ (w - 1)) then -(2 ^ (w - 1)) else x

/-- A count that stops at the largest value of its field. -/
def satU (w n : Nat) : Nat := if n ≥ 2 ^ w then 2 ^ w - 1 else n

/-- Arithmetic shift right (toward negative infinity). -/
def asr (x : Int) (n : Nat) : Int := Int.fdiv x (2 ^ n)

/-- Division truncating toward zero; a zero divisor gives 0 and is never used where the spec divides. -/
def tdiv (x y : Int) : Int := Int.tdiv x y

/-- Ceiling of a division by a positive number. -/
def cdiv (x : Int) (y : Int) : Int := -(Int.fdiv (-x) y)

/-- One step of the bitwise integer square root: try bit `k`. -/
def isqrtGo : Nat → Nat → Nat → Nat
  | 0, _, r => r
  | k + 1, n, r => let r' := r + 2 ^ k; isqrtGo k n (if r' * r' ≤ n then r' else r)

/-- The largest integer whose square is at most `n`, for `n` below 2^192. -/
def isqrt (n : Nat) : Nat := isqrtGo 96 n 0

/-- Bit `k` of `n`. -/
def bitN (n k : Nat) : Nat := n / 2 ^ k % 2

/-- `n` with bit `k` set to `b`. -/
def setBitN (n k : Nat) (b : Bool) : Nat :=
  let c := n - bitN n k * 2 ^ k
  if b then c + 2 ^ k else c

/-- Bits `lo` upward of `n`, `w` of them. -/
def field (n lo w : Nat) : Nat := n / 2 ^ lo % 2 ^ w

/-- A word from bits. -/
def bitsOf (w : Nat) (f : Nat → Bool) : Nat := ((List.range w).map (fun n => if f n then 2 ^ n else 0)).sum

/-- Number of ones among the low `w` bits. -/
def popc : Nat → Nat → Nat
  | 0, _ => 0
  | w + 1, n => n % 2 + popc w (n / 2)

/-- Gray code to binary, `w` bits: bit i is the exclusive or of the bits from i upward. -/
def ungray (w n : Nat) : Nat :=
  (List.range w).foldl (fun acc i => acc + (popc (w - i) (n / 2 ^ i) % 2) * 2 ^ i) 0

/-- `k` bytes of `n`, least significant first. -/
def leBytes : Nat → Nat → List Nat
  | 0, _ => []
  | k + 1, n => n % 256 :: leBytes k (n / 256)

/-- The number whose bytes are given, least significant first. -/
def ofLe : List Nat → Nat
  | [] => 0
  | b :: bs => b + 256 * ofLe bs

/-- Bytes of a list from `i`, `k` of them, read least significant first; absent bytes read 0. -/
def leAt (bs : List Nat) (i k : Nat) : Nat := ofLe ((bs.drop i).take k)

/-- One bit of the CRC-16 with polynomial 0x1021 (R14, R268). -/
def crc16Bit (c : Nat) : Nat :=
  if c ≥ 0x8000 then ((c * 2) % 0x10000).xor 0x1021 else c * 2

/-- CRC-16 of bytes: polynomial 0x1021, initial 0xFFFF, most significant bit first, no reflection, no final XOR (R268). -/
def crc16 (bs : List Nat) : Nat :=
  bs.foldl (fun c b => (List.range 8).foldl (fun c _ => crc16Bit c) (c.xor (b % 256 * 256))) 0xFFFF

/-- One bit of a reflected CRC-32 with the given polynomial. -/
def crc32Bit (poly c : Nat) : Nat := if c % 2 = 1 then (c / 2).xor poly else c / 2

/-- A CRC-32 with reflected input and output, initial value and final XOR 0xFFFF_FFFF, for a reflected polynomial. -/
def crc32r (poly : Nat) (bs : List Nat) : Nat :=
  (bs.foldl (fun c b => (List.range 8).foldl (fun c _ => crc32Bit poly c) (c.xor (b % 256))) 0xFFFFFFFF).xor 0xFFFFFFFF

/-- CRC-32 with polynomial 0x1EDC_6F41 (R416), whose reflection is 0x82F6_3B78. -/
def crc32c (bs : List Nat) : Nat := crc32r 0x82F63B78 bs

/-- `l` padded with zeros to a multiple of 8. -/
def pad8 (l : List Nat) : List Nat := l ++ List.replicate ((8 - l.length % 8) % 8) 0

/-- Whether epoch `a` is higher than `b`, modulo 65,536 (R346, R386). -/
def epochHigher (a b : Nat) : Bool := decide (1 ≤ (a + 65536 - b) % 65536 ∧ (a + 65536 - b) % 65536 ≤ 32767)

/-- Replace entry `i` of a list. -/
def lset {α : Type} (l : List α) (i : Nat) (a : α) : List α := l.set i a

/-- Change entry `i` of a list. -/
def lmod {α : Type} : List α → Nat → (α → α) → List α
  | [], _, _ => []
  | a :: l, 0, f => f a :: l
  | a :: l, i + 1, f => a :: lmod l i f

end Sys2Proof.Machine
end

