-- ==== Sys2Proof/Image.lean ====
section
/-! DEFINITION. What a program image tells the part (spec/11_cycle_executive.md, R312, R313, R322, R328; spec/14_can_fd.md, R404, R405; R428).
The spec names these contents and leaves their layout in the image body to Relith (notes/assumptions/20.md). -/
namespace Sys2Proof

/-- A variable (R312): identifier, address, width in bits (1, 8, 16, 32 or 64), and the RETAINED and SAFE flags. -/
structure Var where
  id : Nat
  addr : Nat
  bits : Nat
  retained : Bool
  safe : Bool
  deriving DecidableEq, Repr

/-- A cell of the cell table (R322): edge or timer, kind, quiet first scan, instance identifier, and the addresses bound to IN, PT, Q, ET. -/
structure CellDef where
  edge : Bool
  kind : Nat
  qfs : Bool
  id : Nat
  inA : Nat
  ptA : Nat
  qA : Nat
  etA : Nat
  deriving DecidableEq, Repr

/-- A station of the station table (R328): number, where its input image lies in the station area of the lane, destination address, substitute block,
SAFE mask; both blocks of one length. -/
structure StnDef where
  num : Fin 288
  lane : Nat
  dst : Nat
  subst : List Nat
  safe : List Nat
  deriving DecidableEq, Repr

/-- A receive variable (R404): controller, extended identifier, identifier, and where its data go at the snapshot. -/
structure RxDef where
  ctrl : Nat
  ide : Bool
  id : Nat
  dst : Nat
  len : Nat
  deriving DecidableEq, Repr

/-- A transmit descriptor (R405): controller and buffer, the header the frame carries, and the address and number of its data bytes. -/
structure TxDef where
  ctrl : Nat
  buf : Nat
  id : Nat
  ide : Bool
  fdf : Bool
  brs : Bool
  dlc : Nat
  src : Nat
  len : Nat
  deriving DecidableEq, Repr

/-- A program (R312, R313): entry address of each core and of the error task (0: none), the bytes of a code bank, variable, cell, station, receive and
transmit tables, destinations of the words of the FIO input image, sources of the words of the output image, the init table by variable
identifier, the data region, the retained area, its shadow, the size of a code bank, and the bases of the two; where USER frames of a ring position go (position, address,
length) and where the own USER bytes come from (R381). -/
structure Program where
  entries : List Nat
  errEntry : Nat
  code : List Nat
  bank : Nat
  banks : Nat × Nat
  vars : List Var
  cells : List CellDef
  stns : List StnDef
  rx : List RxDef
  tx : List TxDef
  fioIn : List (Nat × Nat)
  fioOut : List Nat
  init : List (Nat × List Nat)
  data : Nat × Nat
  ret : Nat × Nat
  shadow : Nat
  userIn : List (Nat × Nat × Nat)
  userOut : Nat
  deriving DecidableEq, Repr, Inhabited

end Sys2Proof
end

