-- ==== Sys2Proof/Config.lean ====
section
/-! DEFINITION. The values the spec leaves open, as opaque constants: nothing in Lean can evaluate them or prove a value of
them, so a claim about the model holds for every choice. Each is named in the assumption log. -/
namespace Sys2Proof.Config

/-- A fresh free value: applied to the counter of the state that each use advances. -/
opaque freeWord : Nat → BitVec 32
/-- A fresh free choice. -/
opaque freeBool : Nat → Bool
/-- The SHAKE256 digest of a byte list, first 512 bits (the algorithm is named by R14 and not given by the spec). -/
opaque shake256 : List (BitVec 8) → BitVec 512
/-- Whether a Falcon-1024 signature (bytes) verifies over a message (bytes) under a key identifier (the algorithm is named by
R14 and not given by the spec). -/
opaque falconOk : (key : BitVec 128) → (msg sig : List (BitVec 8)) → Bool
/-- The Falcon-1024 signature word number `n` the device key makes over a message (R512). -/
opaque falconSign : (msg : List (BitVec 8)) → (n : Nat) → BitVec 32
/-- Whether the duty of a stepper phase for a peak duty and a microstep angle, a sine that falls between two steps of the duty, takes
the upper one (R210 gives the sine without its rounding). -/
opaque dutyUp : (peak angle : Nat) → Bool
/-- The identifier of the vendor public key in ROM (R499). -/
opaque vendorKey : BitVec 128
/-- Word `n` of the device certificate (R512 gives the certificate no content). -/
opaque certWord : Nat → BitVec 32
/-- The MRAM window offset of a debug access, in MiB: R39 names such accesses and no register gives their base (R38, R526). -/
opaque debugWindow : BitVec 13
/-- Where copy `i` of the active safety parameter block lies in the configuration partition (R36 and R267 give it no place). -/
opaque copyPlace : (i : Nat) → Nat
/-- The program that an image body holds, as Relith lays it out (R312 names the contents and not their layout). -/
opaque program : (body : List (BitVec 8)) → Program

end Sys2Proof.Config
end

