-- ==== Sys2Proof/Machine/Regs.lean ====
section
/-! DEFINITION. The named register fields of every page, one `def` per field, as the register tables of spec/ give them: byte offset in the page, lowest bit, width, access code, reset value, stride and count of a register array, the index register through which an entry is reached, and the range check of the field's own text. The chapter file and rule stand in the docstring of each block's list. -/
namespace Sys2Proof.Machine


/-! ### HDR (02_register_conventions.md, R52) -/
def HDR.ID_TYPE : Fld := ⟨0x000, 16, 16, .ro, 0, 0, 1, .one, .any⟩
def HDR.ID_INST : Fld := ⟨0x000, 8, 8, .ro, 0, 0, 1, .one, .any⟩
def HDR.ID_VER : Fld := ⟨0x000, 0, 8, .ro, 1, 0, 1, .one, .any⟩
def HDR.CAP_BSEL_OK : Fld := ⟨0x004, 31, 1, .ro, 0, 0, 1, .one, .any⟩
def HDR.CAP_STAGED : Fld := ⟨0x004, 30, 1, .ro, 0, 0, 1, .one, .any⟩
def HDR.CAP_PER_HALF : Fld := ⟨0x004, 29, 1, .ro, 0, 0, 1, .one, .any⟩
def HDR.CAP_BLOCK : Fld := ⟨0x004, 0, 29, .ro, 0, 0, 1, .one, .any⟩
def HDR.CTRL_EN : Fld := ⟨0x008, 0, 1, .rs, 0, 0, 1, .one, .any⟩
def HDR.CTRL_STAGE_HOLD : Fld := ⟨0x008, 1, 1, .rw, 0, 0, 1, .one, .any⟩
def HDR.CTRL_IRQ_EN : Fld := ⟨0x008, 2, 1, .rs, 0, 0, 1, .one, .any⟩
def HDR.CTRL_BSEL : Fld := ⟨0x008, 4, 4, .rs, 0, 0, 1, .one, .any⟩
def HDR.STAT_REJECTED : Fld := ⟨0x00C, 31, 1, .rc, 0, 0, 1, .one, .any⟩
def HDR.STAT_APPLIED : Fld := ⟨0x00C, 30, 1, .rc, 0, 0, 1, .one, .any⟩
def HDR.STAT_ABORTED : Fld := ⟨0x00C, 29, 1, .rc, 0, 0, 1, .one, .any⟩
def HDR.STAT_BLOCK : Fld := ⟨0x00C, 0, 29, .rc, 0, 0, 1, .one, .any⟩
def HDR.STAT_PEEK_BITS : Fld := ⟨0x010, 0, 32, .ro, 0, 0, 1, .one, .any⟩
def HDR.IEN_BITS : Fld := ⟨0x014, 0, 32, .rw, 0, 0, 1, .one, .any⟩
def HDR.ERR_CODE : Fld := ⟨0x018, 0, 8, .rc, 0, 0, 1, .one, .any⟩
def HDR.ERR_COUNT : Fld := ⟨0x018, 8, 8, .rc, 0, 0, 1, .one, .any⟩
def HDR.ERR_DETAIL : Fld := ⟨0x018, 16, 16, .rc, 0, 0, 1, .one, .any⟩
def HDR.COMMIT_SEQ : Fld := ⟨0x01C, 0, 16, .ro, 0, 0, 1, .one, .any⟩
def HDR.COMMIT_RESULT : Fld := ⟨0x01C, 16, 2, .ro, 0, 0, 1, .one, .any⟩
def HDR.COMMIT_REASON : Fld := ⟨0x01C, 24, 8, .ro, 0, 0, 1, .one, .any⟩
def HDR.ABORT_KEY : Fld := ⟨0x020, 0, 32, .wo, 0, 0, 1, .one, .any⟩
def HDR.OWNER_MID : Fld := ⟨0x024, 0, 8, .pv, 1, 0, 1, .one, .any⟩
def HDR.LOCK_SET : Fld := ⟨0x028, 0, 1, .pv, 0, 0, 1, .one, .any⟩
/-- Every field of the HDR register table, in the table's order (02_register_conventions.md). -/
def HDR.all : List Fld :=
  [HDR.ID_TYPE, HDR.ID_INST, HDR.ID_VER, HDR.CAP_BSEL_OK, HDR.CAP_STAGED, HDR.CAP_PER_HALF, HDR.CAP_BLOCK, HDR.CTRL_EN, HDR.CTRL_STAGE_HOLD, HDR.CTRL_IRQ_EN, HDR.CTRL_BSEL, HDR.STAT_REJECTED, HDR.STAT_APPLIED, HDR.STAT_ABORTED, HDR.STAT_BLOCK, HDR.STAT_PEEK_BITS, HDR.IEN_BITS, HDR.ERR_CODE, HDR.ERR_COUNT, HDR.ERR_DETAIL, HDR.COMMIT_SEQ, HDR.COMMIT_RESULT, HDR.COMMIT_REASON, HDR.ABORT_KEY, HDR.OWNER_MID, HDR.LOCK_SET]

/-! ### CYX (11_cycle_executive.md, R338) -/
def CYX.STATE_CODE : Fld := ⟨0x040, 0, 2, .ro, 0, 0, 1, .one, .any⟩
def CYX.STATE_FOLLOW : Fld := ⟨0x040, 2, 1, .ro, 0, 0, 1, .one, .any⟩
def CYX.STATE_COLD : Fld := ⟨0x040, 3, 1, .ro, 0, 0, 1, .one, .any⟩
def CYX.STATE_FIRST : Fld := ⟨0x040, 4, 1, .ro, 0, 0, 1, .one, .any⟩
def CYX.STATE_LAG : Fld := ⟨0x040, 5, 1, .ro, 0, 0, 1, .one, .any⟩
def CYX.CNT_CYCLE : Fld := ⟨0x044, 0, 32, .ro, 0, 0, 1, .one, .any⟩
def CYX.CORE_MASK_CORES : Fld := ⟨0x048, 0, 4, .rs, 1, 0, 1, .one, .any⟩
def CYX.WDOG_MS : Fld := ⟨0x04C, 0, 7, .rs, 20, 0, 1, .one, .span 1 100⟩
def CYX.WDOG_ACT : Fld := ⟨0x04C, 8, 1, .rs, 0, 0, 1, .one, .any⟩
def CYX.START_MODE : Fld := ⟨0x050, 0, 2, .rs, 0, 0, 1, .one, .upto 2⟩
def CYX.CMD_OP : Fld := ⟨0x054, 0, 2, .wo, 0, 0, 1, .one, .any⟩
def CYX.DONE_CORES : Fld := ⟨0x058, 0, 4, .w1, 0, 0, 1, .one, .any⟩
def CYX.CYC_LAST_US : Fld := ⟨0x05C, 0, 24, .ro, 0, 0, 1, .one, .any⟩
def CYX.CYC_MAX_US : Fld := ⟨0x060, 0, 24, .rc, 0, 0, 1, .one, .any⟩
def CYX.PHASE_SNAP_NS : Fld := ⟨0x064, 0, 16, .ro, 0, 0, 1, .one, .any⟩
def CYX.PHASE_PUB_NS : Fld := ⟨0x064, 16, 16, .ro, 0, 0, 1, .one, .any⟩
def CYX.IMG_ID : Fld := ⟨0x068, 0, 32, .ro, 0, 0, 1, .one, .any⟩
def CYX.IMG_BANK : Fld := ⟨0x06C, 0, 1, .ro, 0, 0, 1, .one, .any⟩
def CYX.ERRT_CAUSE : Fld := ⟨0x070, 0, 4, .ro, 0, 0, 1, .one, .any⟩
def CYX.ERRT_SKIPPED : Fld := ⟨0x070, 8, 1, .ro, 0, 0, 1, .one, .any⟩
def CYX.STN_DOWN_BITS : Fld := ⟨0x080, 0, 32, .ro, 0, 4, 9, .one, .any⟩
def CYX.STN_EVT_BITS : Fld := ⟨0x0A4, 0, 32, .ro, 0, 4, 9, .one, .any⟩
def CYX.OLC_SRC_OFS : Fld := ⟨0x0D0, 0, 32, .pv, 0, 0, 1, .one, .any⟩
def CYX.OLC_CMD_OP : Fld := ⟨0x0D4, 0, 2, .pv, 0, 0, 1, .one, .any⟩
def CYX.OLC_STAT_STATE : Fld := ⟨0x0D8, 0, 3, .ro, 0, 0, 1, .one, .any⟩
def CYX.OLC_STAT_REASON : Fld := ⟨0x0D8, 8, 8, .ro, 0, 0, 1, .one, .any⟩
def CYX.OLC_CNT1 : Fld := ⟨0x0DC, 0, 32, .ro, 0, 0, 1, .one, .any⟩
def CYX.OLC_CNT2 : Fld := ⟨0x0E0, 0, 32, .ro, 0, 0, 1, .one, .any⟩
def CYX.OLC_SW_NS : Fld := ⟨0x0E4, 0, 16, .ro, 0, 0, 1, .one, .any⟩
def CYX.RET_BASE : Fld := ⟨0x0F0, 0, 32, .ro, 0, 0, 1, .one, .any⟩
def CYX.RET_SIZE : Fld := ⟨0x0F4, 0, 20, .ro, 0, 0, 1, .one, .any⟩
def CYX.SHADOW_BASE : Fld := ⟨0x0F8, 0, 32, .ro, 0, 0, 1, .one, .any⟩
def CYX.SHADOW_CYC : Fld := ⟨0x0FC, 0, 32, .ro, 0, 0, 1, .one, .any⟩
def CYX.SHADOW_LAG : Fld := ⟨0x100, 0, 8, .ro, 0, 0, 1, .one, .any⟩
/-- Every field of the CYX register table, in the table's order (11_cycle_executive.md). -/
def CYX.all : List Fld :=
  [CYX.STATE_CODE, CYX.STATE_FOLLOW, CYX.STATE_COLD, CYX.STATE_FIRST, CYX.STATE_LAG, CYX.CNT_CYCLE, CYX.CORE_MASK_CORES, CYX.WDOG_MS, CYX.WDOG_ACT, CYX.START_MODE, CYX.CMD_OP, CYX.DONE_CORES, CYX.CYC_LAST_US, CYX.CYC_MAX_US, CYX.PHASE_SNAP_NS, CYX.PHASE_PUB_NS, CYX.IMG_ID, CYX.IMG_BANK, CYX.ERRT_CAUSE, CYX.ERRT_SKIPPED, CYX.STN_DOWN_BITS, CYX.STN_EVT_BITS, CYX.OLC_SRC_OFS, CYX.OLC_CMD_OP, CYX.OLC_STAT_STATE, CYX.OLC_STAT_REASON, CYX.OLC_CNT1, CYX.OLC_CNT2, CYX.OLC_SW_NS, CYX.RET_BASE, CYX.RET_SIZE, CYX.SHADOW_BASE, CYX.SHADOW_CYC, CYX.SHADOW_LAG]

/-! ### TMC (11_cycle_executive.md, R339) -/
def TMC.USED_TIMERS : Fld := ⟨0x040, 0, 11, .ro, 0, 0, 1, .one, .any⟩
def TMC.USED_EDGES : Fld := ⟨0x040, 16, 11, .ro, 0, 0, 1, .one, .any⟩
def TMC.SEL_IDX : Fld := ⟨0x044, 0, 10, .rw, 0, 0, 1, .one, .any⟩
def TMC.SEL_EDGE : Fld := ⟨0x044, 16, 1, .rw, 0, 0, 1, .one, .any⟩
def TMC.FIND_ID_ID : Fld := ⟨0x048, 0, 32, .rw, 0, 0, 1, .one, .any⟩
def TMC.FIND_HIT : Fld := ⟨0x04C, 0, 1, .ro, 0, 0, 1, .one, .any⟩
def TMC.CELL_ID_ID : Fld := ⟨0x050, 0, 32, .ro, 0, 0, 1, .tmcSel, .any⟩
def TMC.CELL_CFG_KIND : Fld := ⟨0x054, 0, 2, .ro, 0, 0, 1, .tmcSel, .any⟩
def TMC.CELL_CFG_QFS : Fld := ⟨0x054, 2, 1, .ro, 0, 0, 1, .tmcSel, .any⟩
def TMC.CELL_CFG_Q : Fld := ⟨0x054, 3, 1, .ro, 0, 0, 1, .tmcSel, .any⟩
def TMC.CELL_CFG_PREV : Fld := ⟨0x054, 4, 1, .ro, 0, 0, 1, .tmcSel, .any⟩
def TMC.CELL_PT_MS : Fld := ⟨0x058, 0, 32, .ro, 0, 0, 1, .tmcSel, .any⟩
def TMC.CELL_ET_MS : Fld := ⟨0x05C, 0, 32, .ro, 0, 0, 1, .tmcSel, .any⟩
def TMC.CELL_IN_ADDR : Fld := ⟨0x060, 0, 32, .ro, 0, 0, 1, .tmcSel, .any⟩
def TMC.CELL_Q_ADDR : Fld := ⟨0x064, 0, 32, .ro, 0, 0, 1, .tmcSel, .any⟩
def TMC.QFS_HIT_COUNT : Fld := ⟨0x068, 0, 16, .rc, 0, 0, 1, .one, .any⟩
/-- Every field of the TMC register table, in the table's order (11_cycle_executive.md). -/
def TMC.all : List Fld :=
  [TMC.USED_TIMERS, TMC.USED_EDGES, TMC.SEL_IDX, TMC.SEL_EDGE, TMC.FIND_ID_ID, TMC.FIND_HIT, TMC.CELL_ID_ID, TMC.CELL_CFG_KIND, TMC.CELL_CFG_QFS, TMC.CELL_CFG_Q, TMC.CELL_CFG_PREV, TMC.CELL_PT_MS, TMC.CELL_ET_MS, TMC.CELL_IN_ADDR, TMC.CELL_Q_ADDR, TMC.QFS_HIT_COUNT]

/-! ### FRC (11_cycle_executive.md, R340) -/
def FRC.IDX_IDX : Fld := ⟨0x040, 0, 9, .rw, 0, 0, 1, .one, .any⟩
def FRC.VAR_ID_ID : Fld := ⟨0x044, 0, 32, .rs, 0, 0, 1, .frcIdx, .any⟩
def FRC.ADDR_ADDR : Fld := ⟨0x048, 0, 32, .rs, 0, 0, 1, .frcIdx, .any⟩
def FRC.CFG_WIDTH : Fld := ⟨0x04C, 0, 3, .rs, 0, 0, 1, .frcIdx, .upto 4⟩
def FRC.CFG_BIT : Fld := ⟨0x04C, 3, 3, .rs, 0, 0, 1, .frcIdx, .any⟩
def FRC.CFG_EN : Fld := ⟨0x04C, 8, 1, .rs, 0, 0, 1, .frcIdx, .any⟩
def FRC.VAL_LO : Fld := ⟨0x050, 0, 32, .rs, 0, 0, 1, .frcIdx, .any⟩
def FRC.VAL_HI : Fld := ⟨0x054, 0, 32, .rs, 0, 0, 1, .frcIdx, .any⟩
def FRC.CLR_ALL_GO : Fld := ⟨0x058, 0, 1, .w1, 0, 0, 1, .one, .any⟩
def FRC.USED_N : Fld := ⟨0x05C, 0, 10, .ro, 0, 0, 1, .one, .any⟩
def FRC.ESTAT_DROPPED : Fld := ⟨0x060, 0, 1, .ro, 0, 0, 1, .frcIdx, .any⟩
def FRC.DROPS_COUNT : Fld := ⟨0x064, 0, 16, .rc, 0, 0, 1, .one, .any⟩
/-- Every field of the FRC register table, in the table's order (11_cycle_executive.md). -/
def FRC.all : List Fld :=
  [FRC.IDX_IDX, FRC.VAR_ID_ID, FRC.ADDR_ADDR, FRC.CFG_WIDTH, FRC.CFG_BIT, FRC.CFG_EN, FRC.VAL_LO, FRC.VAL_HI, FRC.CLR_ALL_GO, FRC.USED_N, FRC.ESTAT_DROPPED, FRC.DROPS_COUNT]

/-! ### MPG (04_motion.md, R139) -/
def MPG.CMD_POS_UM : Fld := ⟨0x040, 0, 32, .rw, 0, 0, 1, .one, .any⟩
def MPG.CMD_VEL_UMS : Fld := ⟨0x044, 0, 32, .rw, 0, 0, 1, .one, .any⟩
def MPG.CMD_TAG_TAG : Fld := ⟨0x048, 0, 16, .rw, 0, 0, 1, .one, .any⟩
def MPG.CMD_GO_OP : Fld := ⟨0x04C, 0, 4, .wo, 0, 0, 1, .one, .any⟩
def MPG.CMD_RES_STATE : Fld := ⟨0x050, 0, 3, .ro, 0, 0, 1, .one, .any⟩
def MPG.CMD_RES_REASON : Fld := ⟨0x050, 8, 8, .ro, 0, 0, 1, .one, .any⟩
def MPG.CMD_RES_TAG : Fld := ⟨0x050, 16, 16, .ro, 0, 0, 1, .one, .any⟩
def MPG.CMD_RES_SEQ : Fld := ⟨0x054, 0, 16, .ro, 0, 0, 1, .one, .any⟩
def MPG.VMAX_UMS : Fld := ⟨0x060, 0, 32, .rs, 0xf4240, 0, 1, .one, .span 1 25000000⟩
def MPG.AMAX_UMS2 : Fld := ⟨0x064, 0, 32, .rs, 0x7a120, 0, 1, .one, .span 1 5000000⟩
def MPG.DMAX_UMS2 : Fld := ⟨0x068, 0, 32, .rs, 0x7a120, 0, 1, .one, .span 1 5000000⟩
def MPG.JMAX_UMS3 : Fld := ⟨0x06C, 0, 32, .rs, 0xf4240, 0, 1, .one, .span 1 20000000⟩
def MPG.JOG_VMAX_UMS : Fld := ⟨0x070, 0, 32, .rs, 0x493e0, 0, 1, .one, .nz⟩
def MPG.TSD_VCAP_UMS : Fld := ⟨0x074, 0, 32, .rs, 0xf4240, 0, 1, .one, .nz⟩
def MPG.SOFT_DIV : Fld := ⟨0x078, 0, 4, .rs, 4, 0, 1, .one, .nz⟩
def MPG.RSC_ACC_UMS2 : Fld := ⟨0x07C, 0, 32, .rs, 0x30d40, 0, 1, .one, .span 1 5000000⟩
def MPG.RSC_BAL_KG : Fld := ⟨0x080, 0, 32, .rw, 0, 0, 1, .one, .any⟩
def MPG.EXP_ID_ID : Fld := ⟨0x084, 0, 29, .rs, 0, 0, 1, .one, .any⟩
def MPG.EXP_ID_IDE : Fld := ⟨0x084, 29, 1, .rs, 0, 0, 1, .one, .any⟩
def MPG.DRV_ID_ID : Fld := ⟨0x088, 0, 29, .rs, 0, 0, 1, .one, .any⟩
def MPG.DRV_ID_IDE : Fld := ⟨0x088, 29, 1, .rs, 0, 0, 1, .one, .any⟩
def MPG.DRV_ID_EN : Fld := ⟨0x088, 30, 1, .rs, 0, 0, 1, .one, .any⟩
def MPG.DRV_LOSS_N : Fld := ⟨0x08C, 0, 8, .rs, 3, 0, 1, .one, .any⟩
def MPG.EXP_CFG_TRQ_LE : Fld := ⟨0x090, 0, 2, .rs, 0, 0, 1, .one, .upto 2⟩
def MPG.EXP_CFG_TRQ_LOOP : Fld := ⟨0x090, 2, 5, .rs, 0, 0, 1, .one, .any⟩
def MPG.EXP_CFG_TRQ_EN : Fld := ⟨0x090, 7, 1, .rs, 0, 0, 1, .one, .any⟩
def MPG.SERVO_CFG_MULT : Fld := ⟨0x094, 0, 5, .rs, 16, 0, 1, .one, .any⟩
def MPG.SERVO_CFG_EXP_DIV : Fld := ⟨0x094, 8, 6, .rs, 1, 0, 1, .one, .any⟩
def MPG.SP_X_UM : Fld := ⟨0x0A0, 0, 32, .ro, 0, 0, 1, .one, .any⟩
def MPG.SP_V_UMS : Fld := ⟨0x0A4, 0, 32, .ro, 0, 0, 1, .one, .any⟩
def MPG.SP_A_UMS2 : Fld := ⟨0x0A8, 0, 32, .ro, 0, 0, 1, .one, .any⟩
def MPG.SP_J_UMS3 : Fld := ⟨0x0AC, 0, 32, .ro, 0, 0, 1, .one, .any⟩
def MPG.TGT_UM : Fld := ⟨0x0B0, 0, 32, .ro, 0, 0, 1, .one, .any⟩
def MPG.STOPPT_UM : Fld := ⟨0x0B4, 0, 32, .ro, 0, 0, 1, .one, .any⟩
def MPG.STATE_MODE : Fld := ⟨0x0B8, 0, 4, .ro, 0, 0, 1, .one, .any⟩
def MPG.STATE_PHASE : Fld := ⟨0x0B8, 4, 3, .ro, 0, 0, 1, .one, .any⟩
def MPG.STATE_DIR : Fld := ⟨0x0B8, 7, 1, .ro, 0, 0, 1, .one, .any⟩
def MPG.STATE_CAP : Fld := ⟨0x0B8, 8, 1, .ro, 0, 0, 1, .one, .any⟩
def MPG.STATE_SOFT : Fld := ⟨0x0B8, 9, 1, .ro, 0, 0, 1, .one, .any⟩
def MPG.STATE_PERMIT : Fld := ⟨0x0B8, 10, 1, .ro, 0, 0, 1, .one, .any⟩
def MPG.STATE_QSTOP : Fld := ⟨0x0B8, 11, 1, .ro, 0, 0, 1, .one, .any⟩
def MPG.STATE_CAUSE : Fld := ⟨0x0B8, 12, 4, .ro, 0, 0, 1, .one, .any⟩
def MPG.STATE_SEQ : Fld := ⟨0x0B8, 16, 8, .ro, 0, 0, 1, .one, .any⟩
def MPG.DRV_STAT_WORD : Fld := ⟨0x0BC, 0, 16, .ro, 0, 0, 1, .one, .any⟩
def MPG.DRV_STAT_ECHO : Fld := ⟨0x0BC, 16, 8, .ro, 0, 0, 1, .one, .any⟩
def MPG.DRV_STAT_MISSED : Fld := ⟨0x0BC, 24, 8, .ro, 0, 0, 1, .one, .any⟩
def MPG.DRV_TRQ_Q : Fld := ⟨0x0C0, 0, 32, .ro, 0, 0, 1, .one, .any⟩
def MPG.VCAP_UMS : Fld := ⟨0x0C4, 0, 32, .ro, 0xf4240, 0, 1, .one, .any⟩
/-- Every field of the MPG register table, in the table's order (04_motion.md). -/
def MPG.all0 : List Fld :=
  [MPG.CMD_POS_UM, MPG.CMD_VEL_UMS, MPG.CMD_TAG_TAG, MPG.CMD_GO_OP, MPG.CMD_RES_STATE, MPG.CMD_RES_REASON, MPG.CMD_RES_TAG, MPG.CMD_RES_SEQ, MPG.VMAX_UMS, MPG.AMAX_UMS2, MPG.DMAX_UMS2, MPG.JMAX_UMS3, MPG.JOG_VMAX_UMS, MPG.TSD_VCAP_UMS, MPG.SOFT_DIV, MPG.RSC_ACC_UMS2, MPG.RSC_BAL_KG, MPG.EXP_ID_ID, MPG.EXP_ID_IDE, MPG.DRV_ID_ID, MPG.DRV_ID_IDE, MPG.DRV_ID_EN, MPG.DRV_LOSS_N, MPG.EXP_CFG_TRQ_LE, MPG.EXP_CFG_TRQ_LOOP, MPG.EXP_CFG_TRQ_EN, MPG.SERVO_CFG_MULT, MPG.SERVO_CFG_EXP_DIV, MPG.SP_X_UM, MPG.SP_V_UMS, MPG.SP_A_UMS2, MPG.SP_J_UMS3, MPG.TGT_UM, MPG.STOPPT_UM, MPG.STATE_MODE, MPG.STATE_PHASE, MPG.STATE_DIR, MPG.STATE_CAP, MPG.STATE_SOFT, MPG.STATE_PERMIT]
def MPG.all1 : List Fld :=
  [MPG.STATE_QSTOP, MPG.STATE_CAUSE, MPG.STATE_SEQ, MPG.DRV_STAT_WORD, MPG.DRV_STAT_ECHO, MPG.DRV_STAT_MISSED, MPG.DRV_TRQ_Q, MPG.VCAP_UMS]
def MPG.all : List Fld :=
  MPG.all0 ++ MPG.all1

/-! ### SEP (06_multicar_separation.md, R190) -/
def SEP.GAP_MIN_UM : Fld := ⟨0x040, 0, 32, .rs, 0x4c4b40, 0, 1, .one, .nz⟩
def SEP.AUTO_TRIM_CARS : Fld := ⟨0x044, 0, 4, .rs, 0, 0, 1, .one, .any⟩
def SEP.RSV_CAR_CAR : Fld := ⟨0x048, 0, 2, .rw, 0, 0, 1, .one, .any⟩
def SEP.RSV_LO_UM : Fld := ⟨0x04C, 0, 32, .rw, 0, 0, 1, .one, .any⟩
def SEP.RSV_HI_UM : Fld := ⟨0x050, 0, 32, .rw, 0, 0, 1, .one, .any⟩
def SEP.RSV_BND_UM : Fld := ⟨0x054, 0, 32, .rw, 0, 0, 1, .one, .any⟩
def SEP.RSV_TAG_TAG : Fld := ⟨0x058, 0, 16, .rw, 0, 0, 1, .one, .any⟩
def SEP.RSV_GO_OP : Fld := ⟨0x05C, 0, 4, .wo, 0, 0, 1, .one, .any⟩
def SEP.RSV_RES_STATE : Fld := ⟨0x060, 0, 3, .ro, 0, 0, 1, .one, .any⟩
def SEP.RSV_RES_REASON : Fld := ⟨0x060, 8, 8, .ro, 0, 0, 1, .one, .any⟩
def SEP.RSV_RES_TAG : Fld := ⟨0x060, 16, 16, .ro, 0, 0, 1, .one, .any⟩
def SEP.RSV_RES_SEQ : Fld := ⟨0x064, 0, 16, .ro, 0, 0, 1, .one, .any⟩
def SEP.RES_LO_UM : Fld := ⟨0x080, 0, 32, .ro, 0, 32, 4, .one, .any⟩
def SEP.RES_HI_UM : Fld := ⟨0x084, 0, 32, .ro, 0, 32, 4, .one, .any⟩
def SEP.CLM_LO_UM : Fld := ⟨0x088, 0, 32, .ro, 0, 32, 4, .one, .any⟩
def SEP.CLM_HI_UM : Fld := ⟨0x08C, 0, 32, .ro, 0, 32, 4, .one, .any⟩
def SEP.RES_STAT_HAS : Fld := ⟨0x090, 0, 1, .ro, 0, 32, 4, .one, .any⟩
def SEP.RES_STAT_FULL : Fld := ⟨0x090, 1, 1, .ro, 0, 32, 4, .one, .any⟩
def SEP.RES_STAT_OVERRUN : Fld := ⟨0x090, 2, 1, .ro, 0, 32, 4, .one, .any⟩
def SEP.RES_STAT_CONFLICT : Fld := ⟨0x090, 3, 1, .ro, 0, 32, 4, .one, .any⟩
def SEP.PR_BGAP_UM : Fld := ⟨0x100, 0, 32, .ro, 0, 16, 3, .one, .any⟩
def SEP.PR_RGAP_UM : Fld := ⟨0x104, 0, 32, .ro, 0, 16, 3, .one, .any⟩
def SEP.PR_CGAP_UM : Fld := ⟨0x108, 0, 32, .ro, 0, 16, 3, .one, .any⟩
/-- Every field of the SEP register table, in the table's order (06_multicar_separation.md). -/
def SEP.all : List Fld :=
  [SEP.GAP_MIN_UM, SEP.AUTO_TRIM_CARS, SEP.RSV_CAR_CAR, SEP.RSV_LO_UM, SEP.RSV_HI_UM, SEP.RSV_BND_UM, SEP.RSV_TAG_TAG, SEP.RSV_GO_OP, SEP.RSV_RES_STATE, SEP.RSV_RES_REASON, SEP.RSV_RES_TAG, SEP.RSV_RES_SEQ, SEP.RES_LO_UM, SEP.RES_HI_UM, SEP.CLM_LO_UM, SEP.CLM_HI_UM, SEP.RES_STAT_HAS, SEP.RES_STAT_FULL, SEP.RES_STAT_OVERRUN, SEP.RES_STAT_CONFLICT, SEP.PR_BGAP_UM, SEP.PR_RGAP_UM, SEP.PR_CGAP_UM]

/-! ### LE (05_loop_engine.md, R167) -/
def LE.DEADLINE_NS : Fld := ⟨0x040, 0, 20, .rs, 40000, 0, 1, .one, .nz⟩
def LE.ENG_END_NS : Fld := ⟨0x044, 0, 20, .ro, 0, 0, 1, .one, .any⟩
def LE.ENG_MAX_NS : Fld := ⟨0x048, 0, 20, .rc, 0, 0, 1, .one, .any⟩
def LE.LATE_MAP_BITS : Fld := ⟨0x04C, 0, 32, .rc, 0, 0, 1, .one, .any⟩
def LE.SAT_MAP_BITS : Fld := ⟨0x050, 0, 32, .rc, 0, 0, 1, .one, .any⟩
def LE.PLAUS_MAP_BITS : Fld := ⟨0x054, 0, 32, .rc, 0, 0, 1, .one, .any⟩
def LE.RUN_MAP_BITS : Fld := ⟨0x058, 0, 32, .ro, 0, 0, 1, .one, .any⟩
def LE.WIN_LOOP : Fld := ⟨0x05C, 0, 5, .rw, 0, 0, 1, .one, .any⟩
def LE.TBL_SEL_TBL : Fld := ⟨0x060, 0, 4, .rw, 0, 0, 1, .one, .upto 11⟩
def LE.TBL_SEL_BANK : Fld := ⟨0x060, 4, 1, .rw, 0, 0, 1, .one, .any⟩
def LE.TBL_ADDR_WORD : Fld := ⟨0x064, 0, 11, .rw, 0, 0, 1, .one, .any⟩
def LE.TBL_DATA_WORD : Fld := ⟨0x068, 0, 32, .rw, 0, 0, 1, .leTbl, .any⟩
def LE.TBL_ACT_BANK : Fld := ⟨0x06C, 0, 12, .rs, 0, 0, 1, .one, .any⟩
def LE.TBL_BAD_COUNT : Fld := ⟨0x070, 0, 9, .ro, 0, 0, 1, .leBad, .any⟩
def LE.NT_CFG_CAR : Fld := ⟨0x080, 0, 2, .rs, 0, 16, 8, .one, .any⟩
def LE.NT_X0_UM : Fld := ⟨0x084, 0, 32, .rs, 0, 16, 8, .one, .any⟩
def LE.NT_STEP_UM : Fld := ⟨0x088, 0, 24, .rs, 0, 16, 8, .one, .any⟩
def LE.CT_CFG_CAR : Fld := ⟨0x100, 0, 2, .rs, 0, 16, 4, .one, .any⟩
def LE.CT_CFG_MOD : Fld := ⟨0x100, 2, 1, .rs, 0, 16, 4, .one, .any⟩
def LE.CT_X0_UM : Fld := ⟨0x104, 0, 32, .rs, 0, 16, 4, .one, .any⟩
def LE.CT_STEP_UM : Fld := ⟨0x108, 0, 24, .rs, 0, 16, 4, .one, .any⟩
def LE.LOOP_CFG_EN : Fld := ⟨0x200, 0, 1, .rs, 0, 0, 1, .leLoop, .any⟩
def LE.LOOP_CFG_AUTO : Fld := ⟨0x200, 1, 1, .rs, 0, 0, 1, .leLoop, .any⟩
def LE.LOOP_CFG_TRACK : Fld := ⟨0x200, 2, 1, .rs, 0, 0, 1, .leLoop, .any⟩
def LE.LOOP_CFG_NSEC : Fld := ⟨0x200, 4, 4, .rs, 0, 0, 1, .leLoop, .upto 8⟩
def LE.LOOP_CFG_INT_SEC : Fld := ⟨0x200, 8, 4, .rs, 15, 0, 1, .leLoop, .any⟩
def LE.LOOP_CFG_DEC : Fld := ⟨0x200, 12, 2, .rs, 0, 0, 1, .leLoop, .any⟩
def LE.LOOP_CFG_DEC_PH : Fld := ⟨0x200, 16, 3, .rs, 0, 0, 1, .leLoop, .any⟩
def LE.LOOP_CFG_OWN : Fld := ⟨0x200, 20, 2, .rs, 0, 0, 1, .leLoop, .any⟩
def LE.LOOP_CFG_OWN_EN : Fld := ⟨0x200, 22, 1, .rs, 0, 0, 1, .leLoop, .any⟩
def LE.LOOP_CFG_COG_EN : Fld := ⟨0x200, 23, 1, .rs, 0, 0, 1, .leLoop, .any⟩
def LE.LOOP_CFG_COG_T : Fld := ⟨0x200, 24, 2, .rs, 0, 0, 1, .leLoop, .any⟩
def LE.LOOP_CFG_COG_KIND : Fld := ⟨0x200, 26, 1, .rs, 0, 0, 1, .leLoop, .any⟩
def LE.LOOP_CFG_SUP_EN : Fld := ⟨0x200, 27, 1, .rs, 0, 0, 1, .leLoop, .any⟩
def LE.SP_SRC_CODE : Fld := ⟨0x204, 0, 8, .rs, 0, 0, 1, .leLoop, .upto 10⟩
def LE.SPADD_SRC_CODE : Fld := ⟨0x208, 0, 8, .rs, 0, 0, 1, .leLoop, .upto 10⟩
def LE.FB_SRC_CODE : Fld := ⟨0x20C, 0, 8, .rs, 0, 0, 1, .leLoop, .upto 10⟩
def LE.FF_SRC_CODE : Fld := ⟨0x210, 0, 8, .rs, 0, 0, 1, .leLoop, .upto 10⟩
def LE.SP_SCALE_Q : Fld := ⟨0x214, 0, 32, .rs, 0x8000000, 0, 1, .leLoop, .any⟩
def LE.SPADD_SCALE_Q : Fld := ⟨0x218, 0, 32, .rs, 0x8000000, 0, 1, .leLoop, .any⟩
def LE.FB_SCALE_Q : Fld := ⟨0x21C, 0, 32, .rs, 0x8000000, 0, 1, .leLoop, .any⟩
def LE.FF_SCALE_Q : Fld := ⟨0x220, 0, 32, .rs, 0x8000000, 0, 1, .leLoop, .any⟩
def LE.RAMP_Q : Fld := ⟨0x224, 0, 31, .rs, 0, 0, 1, .leLoop, .any⟩
def LE.OUT_LO_Q : Fld := ⟨0x228, 0, 32, .rs, 0xf8000000, 0, 1, .leLoop, .any⟩
def LE.OUT_HI_Q : Fld := ⟨0x22C, 0, 32, .rs, 0x8000000, 0, 1, .leLoop, .any⟩
def LE.MAN_OUT_Q : Fld := ⟨0x230, 0, 32, .rs, 0, 0, 1, .leLoop, .any⟩
def LE.COG_GAIN_Q : Fld := ⟨0x234, 0, 32, .rs, 0, 0, 1, .leLoop, .any⟩
def LE.COG_VDB_UMS : Fld := ⟨0x238, 0, 32, .rs, 0, 0, 1, .leLoop, .any⟩
def LE.SUP_M1_Q : Fld := ⟨0x23C, 0, 32, .rs, 0, 0, 1, .leLoop, .any⟩
def LE.SUP_M2_Q : Fld := ⟨0x240, 0, 32, .rs, 0, 0, 1, .leLoop, .any⟩
def LE.SUP_N1_Q : Fld := ⟨0x244, 0, 32, .rs, 0, 0, 1, .leLoop, .any⟩
def LE.SUP_N2_Q : Fld := ⟨0x248, 0, 32, .rs, 0, 0, 1, .leLoop, .any⟩
def LE.SUP_L_Q : Fld := ⟨0x24C, 0, 32, .rs, 0, 0, 1, .leLoop, .any⟩
def LE.SUP_THR_Q : Fld := ⟨0x250, 0, 31, .rs, 0, 0, 1, .leLoop, .any⟩
def LE.SUP_CNT_N : Fld := ⟨0x254, 0, 8, .rs, 0, 0, 1, .leLoop, .any⟩
def LE.SEC_B0_Q : Fld := ⟨0x280, 0, 32, .rs, 0, 20, 8, .leLoop, .any⟩
def LE.SEC_B1_Q : Fld := ⟨0x284, 0, 32, .rs, 0, 20, 8, .leLoop, .any⟩
def LE.SEC_B2_Q : Fld := ⟨0x288, 0, 32, .rs, 0, 20, 8, .leLoop, .any⟩
def LE.SEC_A1_Q : Fld := ⟨0x28C, 0, 32, .rs, 0, 20, 8, .leLoop, .any⟩
def LE.SEC_A2_Q : Fld := ⟨0x290, 0, 32, .rs, 0, 20, 8, .leLoop, .any⟩
def LE.SEC_CFG_SCHED : Fld := ⟨0x320, 0, 1, .rs, 0, 4, 8, .leLoop, .any⟩
def LE.SEC_CFG_TBL : Fld := ⟨0x320, 1, 3, .rs, 0, 4, 8, .leLoop, .any⟩
def LE.SEC_X1_Q : Fld := ⟨0x340, 0, 32, .ro, 0, 16, 8, .leLoop, .any⟩
def LE.SEC_X2_Q : Fld := ⟨0x344, 0, 32, .ro, 0, 16, 8, .leLoop, .any⟩
def LE.SEC_Y1_Q : Fld := ⟨0x348, 0, 32, .ro, 0, 16, 8, .leLoop, .any⟩
def LE.SEC_Y2_Q : Fld := ⟨0x34C, 0, 32, .ro, 0, 16, 8, .leLoop, .any⟩
def LE.YM1_Q : Fld := ⟨0x3C0, 0, 32, .ro, 0, 0, 1, .leLoop, .any⟩
def LE.YM2_Q : Fld := ⟨0x3C4, 0, 32, .ro, 0, 0, 1, .leLoop, .any⟩
def LE.UM1_Q : Fld := ⟨0x3C8, 0, 32, .ro, 0, 0, 1, .leLoop, .any⟩
def LE.UM2_Q : Fld := ⟨0x3CC, 0, 32, .ro, 0, 0, 1, .leLoop, .any⟩
def LE.OUT_Q : Fld := ⟨0x3D0, 0, 32, .ro, 0, 0, 1, .leLoop, .any⟩
def LE.SP_EFF_Q : Fld := ⟨0x3D4, 0, 32, .ro, 0, 0, 1, .leLoop, .any⟩
def LE.EVAL_Q : Fld := ⟨0x3D8, 0, 32, .ro, 0, 0, 1, .leLoop, .any⟩
def LE.RESID_Q : Fld := ⟨0x3DC, 0, 32, .ro, 0, 0, 1, .leLoop, .any⟩
def LE.LFLAG_BITS : Fld := ⟨0x3E0, 0, 10, .rc, 0, 0, 1, .leLoop, .any⟩
def LE.LSTAT_BITS : Fld := ⟨0x3E4, 0, 5, .ro, 0, 0, 1, .leLoop, .any⟩
def LE.LSTAT_CNT : Fld := ⟨0x3E4, 8, 8, .ro, 0, 0, 1, .leLoop, .any⟩
def LE.SP_SRC_IDX : Fld := ⟨0x204, 8, 5, .rs, 0, 0, 1, .leLoop, .any⟩
def LE.SP_SRC_SHR : Fld := ⟨0x204, 16, 6, .rs, 27, 0, 1, .leLoop, .any⟩
def LE.SPADD_SRC_IDX : Fld := ⟨0x208, 8, 5, .rs, 0, 0, 1, .leLoop, .any⟩
def LE.SPADD_SRC_SHR : Fld := ⟨0x208, 16, 6, .rs, 27, 0, 1, .leLoop, .any⟩
def LE.FB_SRC_IDX : Fld := ⟨0x20C, 8, 5, .rs, 0, 0, 1, .leLoop, .any⟩
def LE.FB_SRC_SHR : Fld := ⟨0x20C, 16, 6, .rs, 27, 0, 1, .leLoop, .any⟩
def LE.FF_SRC_IDX : Fld := ⟨0x210, 8, 5, .rs, 0, 0, 1, .leLoop, .any⟩
def LE.FF_SRC_SHR : Fld := ⟨0x210, 16, 6, .rs, 27, 0, 1, .leLoop, .any⟩
/-- Every field of the LE register table, in the table's order (05_loop_engine.md). -/
def LE.all0 : List Fld :=
  [LE.DEADLINE_NS, LE.ENG_END_NS, LE.ENG_MAX_NS, LE.LATE_MAP_BITS, LE.SAT_MAP_BITS, LE.PLAUS_MAP_BITS, LE.RUN_MAP_BITS, LE.WIN_LOOP, LE.TBL_SEL_TBL, LE.TBL_SEL_BANK, LE.TBL_ADDR_WORD, LE.TBL_DATA_WORD, LE.TBL_ACT_BANK, LE.TBL_BAD_COUNT, LE.NT_CFG_CAR, LE.NT_X0_UM, LE.NT_STEP_UM, LE.CT_CFG_CAR, LE.CT_CFG_MOD, LE.CT_X0_UM, LE.CT_STEP_UM, LE.LOOP_CFG_EN, LE.LOOP_CFG_AUTO, LE.LOOP_CFG_TRACK, LE.LOOP_CFG_NSEC, LE.LOOP_CFG_INT_SEC, LE.LOOP_CFG_DEC, LE.LOOP_CFG_DEC_PH, LE.LOOP_CFG_OWN, LE.LOOP_CFG_OWN_EN, LE.LOOP_CFG_COG_EN, LE.LOOP_CFG_COG_T, LE.LOOP_CFG_COG_KIND, LE.LOOP_CFG_SUP_EN, LE.SP_SRC_CODE, LE.SPADD_SRC_CODE, LE.FB_SRC_CODE, LE.FF_SRC_CODE, LE.SP_SCALE_Q, LE.SPADD_SCALE_Q]
def LE.all1 : List Fld :=
  [LE.FB_SCALE_Q, LE.FF_SCALE_Q, LE.RAMP_Q, LE.OUT_LO_Q, LE.OUT_HI_Q, LE.MAN_OUT_Q, LE.COG_GAIN_Q, LE.COG_VDB_UMS, LE.SUP_M1_Q, LE.SUP_M2_Q, LE.SUP_N1_Q, LE.SUP_N2_Q, LE.SUP_L_Q, LE.SUP_THR_Q, LE.SUP_CNT_N, LE.SEC_B0_Q, LE.SEC_B1_Q, LE.SEC_B2_Q, LE.SEC_A1_Q, LE.SEC_A2_Q, LE.SEC_CFG_SCHED, LE.SEC_CFG_TBL, LE.SEC_X1_Q, LE.SEC_X2_Q, LE.SEC_Y1_Q, LE.SEC_Y2_Q, LE.YM1_Q, LE.YM2_Q, LE.UM1_Q, LE.UM2_Q, LE.OUT_Q, LE.SP_EFF_Q, LE.EVAL_Q, LE.RESID_Q, LE.LFLAG_BITS, LE.LSTAT_BITS, LE.LSTAT_CNT, LE.SP_SRC_IDX, LE.SP_SRC_SHR, LE.SPADD_SRC_IDX]
def LE.all2 : List Fld :=
  [LE.SPADD_SRC_SHR, LE.FB_SRC_IDX, LE.FB_SRC_SHR, LE.FF_SRC_IDX, LE.FF_SRC_SHR]
def LE.all : List Fld :=
  LE.all0 ++ LE.all1 ++ LE.all2

/-! ### DAX (07_doors.md, R214) -/
def DAX.CMD_LAND_IDX : Fld := ⟨0x040, 0, 8, .rw, 0, 0, 1, .one, .any⟩
def DAX.CMD_TAG_TAG : Fld := ⟨0x044, 0, 16, .rw, 0, 0, 1, .one, .any⟩
def DAX.CMD_GO_OP : Fld := ⟨0x048, 0, 4, .wo, 0, 0, 1, .one, .any⟩
def DAX.CMD_RES_STATE : Fld := ⟨0x04C, 0, 3, .ro, 0, 0, 1, .one, .any⟩
def DAX.CMD_RES_REASON : Fld := ⟨0x04C, 8, 8, .ro, 0, 0, 1, .one, .any⟩
def DAX.CMD_RES_TAG : Fld := ⟨0x04C, 16, 16, .ro, 0, 0, 1, .one, .any⟩
def DAX.CMD_RES_SEQ : Fld := ⟨0x050, 0, 16, .ro, 0, 0, 1, .one, .any⟩
def DAX.CFG_CAR : Fld := ⟨0x060, 0, 2, .rs, 0, 0, 1, .one, .any⟩
def DAX.CFG_SIDE : Fld := ⟨0x060, 2, 1, .rs, 0, 0, 1, .one, .any⟩
def DAX.CFG_DECK : Fld := ⟨0x060, 3, 1, .rs, 0, 0, 1, .one, .any⟩
def DAX.CFG_TYPE : Fld := ⟨0x060, 4, 1, .rs, 0, 0, 1, .one, .any⟩
def DAX.CFG_STP_CH : Fld := ⟨0x060, 5, 2, .rs, 0, 0, 1, .one, .any⟩
def DAX.CFG_NUDGE_AFTER : Fld := ⟨0x060, 8, 4, .rs, 3, 0, 1, .one, .any⟩
def DAX.CFG_LOCK_RETRY : Fld := ⟨0x060, 12, 4, .rs, 1, 0, 1, .one, .any⟩
def DAX.CFG_CLOSE_STR : Fld := ⟨0x060, 16, 4, .rs, 1, 0, 1, .one, .span 1 8⟩
def DAX.OPEN_W_UM : Fld := ⟨0x064, 0, 24, .rs, 0, 0, 1, .one, .nz⟩
def DAX.DOOR_VMAX_UMS : Fld := ⟨0x068, 0, 24, .rs, 0x7a120, 0, 1, .one, .nz⟩
def DAX.REV_DEC_UMS2 : Fld := ⟨0x06C, 0, 24, .rs, 0xf4240, 0, 1, .one, .nz⟩
def DAX.MASS_HG : Fld := ⟨0x070, 0, 16, .rs, 0, 0, 1, .one, .nz⟩
def DAX.KE_MAX_MJ : Fld := ⟨0x074, 0, 16, .rs, 10000, 0, 1, .one, .any⟩
def DAX.NUDGE_KE_MJ : Fld := ⟨0x074, 16, 16, .rs, 4000, 0, 1, .one, .any⟩
def DAX.F_MAX_N : Fld := ⟨0x078, 0, 16, .rs, 150, 0, 1, .one, .nz⟩
def DAX.GEAR_N_N : Fld := ⟨0x07C, 0, 4, .rs, 0, 0, 1, .one, .upto 8⟩
def DAX.GEAR_VMAX_UMS : Fld := ⟨0x080, 0, 24, .rs, 0x493e0, 0, 1, .one, .any⟩
def DAX.GBRK_UM : Fld := ⟨0x084, 0, 24, .rs, 0, 8, 8, .one, .any⟩
def DAX.GRAT_Q : Fld := ⟨0x088, 0, 32, .rs, 0, 8, 8, .one, .any⟩
def DAX.CAM_LEN_N : Fld := ⟨0x0C4, 0, 9, .rs, 0, 0, 1, .one, .upto 256⟩
def DAX.CAM_DT_US : Fld := ⟨0x0C8, 0, 20, .rs, 20000, 0, 1, .one, .nz⟩
def DAX.CAM_IDX_IDX : Fld := ⟨0x0CC, 0, 8, .rw, 0, 0, 1, .one, .any⟩
def DAX.CAM_PT_FRAC : Fld := ⟨0x0D0, 0, 16, .rs, 0, 0, 1, .camIdx, .any⟩
def DAX.OBS_THR : Fld := ⟨0x0D4, 0, 16, .rs, 100, 0, 1, .one, .any⟩
def DAX.OBS_N : Fld := ⟨0x0D4, 16, 8, .rs, 0, 0, 1, .one, .any⟩
def DAX.F_MODEL_FRIC : Fld := ⟨0x0D8, 0, 16, .rs, 0, 0, 1, .one, .any⟩
def DAX.F_MODEL_BIAS : Fld := ⟨0x0D8, 16, 16, .rs, 0, 0, 1, .one, .any⟩
def DAX.LC_SRC : Fld := ⟨0x0DC, 0, 5, .rs, 0, 0, 1, .one, .any⟩
def DAX.LC_POL : Fld := ⟨0x0DC, 5, 1, .rs, 0, 0, 1, .one, .any⟩
def DAX.LC_EN : Fld := ⟨0x0DC, 6, 1, .rs, 0, 0, 1, .one, .any⟩
def DAX.STALL_SRC : Fld := ⟨0x0DC, 8, 5, .rs, 0, 0, 1, .one, .any⟩
def DAX.STALL_POL : Fld := ⟨0x0DC, 13, 1, .rs, 0, 0, 1, .one, .any⟩
def DAX.STALL_EN : Fld := ⟨0x0DC, 14, 1, .rs, 0, 0, 1, .one, .any⟩
def DAX.CLOSED_SRC : Fld := ⟨0x0DC, 16, 5, .rs, 0, 0, 1, .one, .any⟩
def DAX.CLOSED_POL : Fld := ⟨0x0DC, 21, 1, .rs, 0, 0, 1, .one, .any⟩
def DAX.CLOSED_EN : Fld := ⟨0x0DC, 22, 1, .rs, 0, 0, 1, .one, .any⟩
def DAX.STALL_BACK_UM : Fld := ⟨0x0E0, 0, 24, .rs, 20000, 0, 1, .one, .any⟩
def DAX.HOME_V_UMS : Fld := ⟨0x0E4, 0, 24, .rs, 50000, 0, 1, .one, .nz⟩
def DAX.LOCK_T_MS : Fld := ⟨0x0E8, 0, 16, .rs, 500, 0, 1, .one, .nz⟩
def DAX.EXP_ID_ID : Fld := ⟨0x0EC, 0, 29, .rs, 0, 0, 1, .one, .any⟩
def DAX.EXP_ID_IDE : Fld := ⟨0x0EC, 29, 1, .rs, 0, 0, 1, .one, .any⟩
def DAX.DRV_ID_ID : Fld := ⟨0x0F0, 0, 29, .rs, 0, 0, 1, .one, .any⟩
def DAX.DRV_ID_IDE : Fld := ⟨0x0F0, 29, 1, .rs, 0, 0, 1, .one, .any⟩
def DAX.DRV_ID_EN : Fld := ⟨0x0F0, 30, 1, .rs, 0, 0, 1, .one, .any⟩
def DAX.DRV_LOSS_N : Fld := ⟨0x0F4, 0, 8, .rs, 3, 0, 1, .one, .any⟩
def DAX.SP_X_UM : Fld := ⟨0x100, 0, 32, .ro, 0, 0, 1, .one, .any⟩
def DAX.SP_V_UMS : Fld := ⟨0x104, 0, 32, .ro, 0, 0, 1, .one, .any⟩
def DAX.ACT_X_UM : Fld := ⟨0x108, 0, 32, .ro, 0, 0, 1, .one, .any⟩
def DAX.FORCE_ACT : Fld := ⟨0x10C, 0, 16, .ro, 0, 0, 1, .one, .any⟩
def DAX.FORCE_RESID : Fld := ⟨0x10C, 16, 16, .ro, 0, 0, 1, .one, .any⟩
def DAX.STATE_MODE : Fld := ⟨0x110, 0, 4, .ro, 0, 0, 1, .one, .any⟩
def DAX.STATE_CAUSE : Fld := ⟨0x110, 4, 4, .ro, 0, 0, 1, .one, .any⟩
def DAX.STATE_LANDING : Fld := ⟨0x110, 8, 8, .ro, 255, 0, 1, .one, .any⟩
def DAX.STATE_REVS : Fld := ⟨0x110, 16, 4, .ro, 0, 0, 1, .one, .any⟩
def DAX.STATE_PERMIT : Fld := ⟨0x110, 20, 1, .ro, 0, 0, 1, .one, .any⟩
def DAX.STATE_LOCK : Fld := ⟨0x110, 21, 1, .ro, 0, 0, 1, .one, .any⟩
def DAX.STATE_LC : Fld := ⟨0x110, 22, 1, .ro, 0, 0, 1, .one, .any⟩
def DAX.DRV_STAT_WORD : Fld := ⟨0x114, 0, 16, .ro, 0, 0, 1, .one, .any⟩
def DAX.DRV_STAT_ECHO : Fld := ⟨0x114, 16, 8, .ro, 0, 0, 1, .one, .any⟩
def DAX.DRV_STAT_MISSED : Fld := ⟨0x114, 24, 8, .ro, 0, 0, 1, .one, .any⟩
/-- Every field of the DAX register table, in the table's order (07_doors.md). -/
def DAX.all0 : List Fld :=
  [DAX.CMD_LAND_IDX, DAX.CMD_TAG_TAG, DAX.CMD_GO_OP, DAX.CMD_RES_STATE, DAX.CMD_RES_REASON, DAX.CMD_RES_TAG, DAX.CMD_RES_SEQ, DAX.CFG_CAR, DAX.CFG_SIDE, DAX.CFG_DECK, DAX.CFG_TYPE, DAX.CFG_STP_CH, DAX.CFG_NUDGE_AFTER, DAX.CFG_LOCK_RETRY, DAX.CFG_CLOSE_STR, DAX.OPEN_W_UM, DAX.DOOR_VMAX_UMS, DAX.REV_DEC_UMS2, DAX.MASS_HG, DAX.KE_MAX_MJ, DAX.NUDGE_KE_MJ, DAX.F_MAX_N, DAX.GEAR_N_N, DAX.GEAR_VMAX_UMS, DAX.GBRK_UM, DAX.GRAT_Q, DAX.CAM_LEN_N, DAX.CAM_DT_US, DAX.CAM_IDX_IDX, DAX.CAM_PT_FRAC, DAX.OBS_THR, DAX.OBS_N, DAX.F_MODEL_FRIC, DAX.F_MODEL_BIAS, DAX.LC_SRC, DAX.LC_POL, DAX.LC_EN, DAX.STALL_SRC, DAX.STALL_POL, DAX.STALL_EN]
def DAX.all1 : List Fld :=
  [DAX.CLOSED_SRC, DAX.CLOSED_POL, DAX.CLOSED_EN, DAX.STALL_BACK_UM, DAX.HOME_V_UMS, DAX.LOCK_T_MS, DAX.EXP_ID_ID, DAX.EXP_ID_IDE, DAX.DRV_ID_ID, DAX.DRV_ID_IDE, DAX.DRV_ID_EN, DAX.DRV_LOSS_N, DAX.SP_X_UM, DAX.SP_V_UMS, DAX.ACT_X_UM, DAX.FORCE_ACT, DAX.FORCE_RESID, DAX.STATE_MODE, DAX.STATE_CAUSE, DAX.STATE_LANDING, DAX.STATE_REVS, DAX.STATE_PERMIT, DAX.STATE_LOCK, DAX.STATE_LC, DAX.DRV_STAT_WORD, DAX.DRV_STAT_ECHO, DAX.DRV_STAT_MISSED]
def DAX.all : List Fld :=
  DAX.all0 ++ DAX.all1

/-! ### STP (07_doors.md, R216) -/
def STP.PWM_FREQ_HZ : Fld := ⟨0x040, 0, 16, .rs, 25000, 0, 1, .one, .span 20000 50000⟩
def STP.CH_CFG_SRC : Fld := ⟨0x060, 0, 1, .rs, 0, 32, 4, .one, .any⟩
def STP.CH_CFG_KSTEP : Fld := ⟨0x060, 1, 3, .rs, 0, 32, 4, .one, .upto 4⟩
def STP.CH_CFG_STILL_MODE : Fld := ⟨0x060, 4, 2, .rs, 2, 32, 4, .one, .any⟩
def STP.CH_CFG_RETAIN : Fld := ⟨0x060, 6, 1, .rs, 0, 32, 4, .one, .any⟩
def STP.CH_CFG_DIR_POL : Fld := ⟨0x060, 7, 1, .rs, 0, 32, 4, .one, .any⟩
def STP.CH_UM_PER_FS_Q : Fld := ⟨0x064, 0, 32, .rs, 0, 32, 4, .one, .any⟩
def STP.CH_I_RUN : Fld := ⟨0x068, 0, 16, .rs, 0, 32, 4, .one, .any⟩
def STP.CH_I_HOLD : Fld := ⟨0x068, 16, 16, .rs, 0, 32, 4, .one, .any⟩
def STP.CH_STILL_T_MS : Fld := ⟨0x06C, 0, 16, .rs, 100, 32, 4, .one, .any⟩
def STP.CH_IPL_TMAX_US : Fld := ⟨0x070, 0, 20, .rs, 10000, 32, 4, .one, .nz⟩
def STP.CH_DRV_PG_SRC : Fld := ⟨0x074, 0, 5, .rs, 0, 32, 4, .one, .any⟩
def STP.CH_DRV_PG_POL : Fld := ⟨0x074, 5, 1, .rs, 0, 32, 4, .one, .any⟩
def STP.CH_DRV_PG_EN : Fld := ⟨0x074, 6, 1, .rs, 0, 32, 4, .one, .any⟩
def STP.CH_COUNT_USTEP : Fld := ⟨0x078, 0, 32, .ro, 0, 32, 4, .one, .any⟩
def STP.CH_STAT_UNCERT : Fld := ⟨0x07C, 0, 1, .ro, 1, 32, 4, .one, .any⟩
def STP.CH_STAT_DRV_OFF : Fld := ⟨0x07C, 1, 1, .ro, 0, 32, 4, .one, .any⟩
def STP.CH_STAT_STILL : Fld := ⟨0x07C, 2, 1, .ro, 0, 32, 4, .one, .any⟩
/-- Every field of the STP register table, in the table's order (07_doors.md). -/
def STP.all : List Fld :=
  [STP.PWM_FREQ_HZ, STP.CH_CFG_SRC, STP.CH_CFG_KSTEP, STP.CH_CFG_STILL_MODE, STP.CH_CFG_RETAIN, STP.CH_CFG_DIR_POL, STP.CH_UM_PER_FS_Q, STP.CH_I_RUN, STP.CH_I_HOLD, STP.CH_STILL_T_MS, STP.CH_IPL_TMAX_US, STP.CH_DRV_PG_SRC, STP.CH_DRV_PG_POL, STP.CH_DRV_PG_EN, STP.CH_COUNT_USTEP, STP.CH_STAT_UNCERT, STP.CH_STAT_DRV_OFF, STP.CH_STAT_STILL]

/-! ### POS (03_shaft_and_position.md, R105) -/
def POS.LT_CFG_COUNT : Fld := ⟨0x040, 0, 9, .rs, 0, 0, 1, .one, .upto 256⟩
def POS.LT_IDX_IDX : Fld := ⟨0x044, 0, 8, .rw, 0, 0, 1, .one, .any⟩
def POS.LT_POS_UM : Fld := ⟨0x048, 0, 32, .rs, 0, 0, 1, .ltIdx, .any⟩
def POS.LT_DZB_UM : Fld := ⟨0x04C, 0, 20, .rs, 0, 0, 1, .ltIdx, .any⟩
def POS.LT_DZA_UM : Fld := ⟨0x050, 0, 20, .rs, 0, 0, 1, .ltIdx, .any⟩
def POS.LT_FLG_SIDE : Fld := ⟨0x054, 0, 2, .rs, 0, 0, 1, .ltIdx, .any⟩
def POS.LT_TOL_DZ : Fld := ⟨0x058, 0, 16, .rs, 5000, 0, 1, .one, .nz⟩
def POS.LT_TOL_LEVEL : Fld := ⟨0x058, 16, 16, .rs, 10000, 0, 1, .one, .nz⟩
def POS.SSI_FMT_BITS : Fld := ⟨0x060, 0, 6, .rs, 0, 16, 4, .one, .upto 32⟩
def POS.SSI_FMT_PLSB : Fld := ⟨0x060, 8, 6, .rs, 0, 16, 4, .one, .any⟩
def POS.SSI_FMT_PWID : Fld := ⟨0x060, 16, 6, .rs, 0, 16, 4, .one, .any⟩
def POS.SSI_FMT_GRAY : Fld := ⟨0x060, 22, 1, .rs, 0, 16, 4, .one, .any⟩
def POS.SSI_FMT_EPOL : Fld := ⟨0x060, 23, 1, .rs, 0, 16, 4, .one, .any⟩
def POS.SSI_FMT_PAR : Fld := ⟨0x060, 24, 2, .rs, 0, 16, 4, .one, .any⟩
def POS.SSI_FMT_EEN : Fld := ⟨0x060, 26, 1, .rs, 0, 16, 4, .one, .any⟩
def POS.SSI_FMT_EBIT : Fld := ⟨0x060, 27, 5, .rs, 0, 16, 4, .one, .any⟩
def POS.SSI_TIM_DIV : Fld := ⟨0x064, 0, 10, .rs, 25, 16, 4, .one, .span 25 400⟩
def POS.SSI_TIM_DLY : Fld := ⟨0x064, 12, 8, .rs, 0, 16, 4, .one, .any⟩
def POS.SSI_SCL_NM : Fld := ⟨0x068, 0, 16, .rs, 1000, 16, 4, .one, .nz⟩
def POS.SSI_SCL_DIR : Fld := ⟨0x068, 16, 1, .rs, 0, 16, 4, .one, .any⟩
def POS.ENC_SCALE_Q : Fld := ⟨0x0A0, 0, 32, .rs, 0, 4, 4, .one, .any⟩
def POS.ENC_CNT_COUNT : Fld := ⟨0x0B0, 0, 32, .ro, 0, 4, 4, .one, .any⟩
def POS.SHAFT_LO_UM : Fld := ⟨0x0C0, 0, 32, .rs, 0x80000000, 0, 1, .one, .any⟩
def POS.SHAFT_HI_UM : Fld := ⟨0x0C4, 0, 32, .rs, 0x7fffffff, 0, 1, .one, .any⟩
def POS.SW_STATE_ACT : Fld := ⟨0x0C8, 0, 16, .ro, 0, 0, 1, .one, .any⟩
def POS.SW_SRC : Fld := ⟨0x100, 0, 5, .rs, 0, 4, 16, .one, .any⟩
def POS.SW_SRCK : Fld := ⟨0x100, 5, 1, .rs, 0, 4, 16, .one, .any⟩
def POS.SW_CAR : Fld := ⟨0x100, 6, 2, .rs, 0, 4, 16, .one, .any⟩
def POS.SW_DIR : Fld := ⟨0x100, 8, 1, .rs, 0, 4, 16, .one, .any⟩
def POS.SW_KIND : Fld := ⟨0x100, 9, 2, .rs, 0, 4, 16, .one, .any⟩
def POS.SW_ACT : Fld := ⟨0x100, 11, 1, .rs, 0, 4, 16, .one, .any⟩
def POS.SW_POL : Fld := ⟨0x100, 12, 1, .rs, 0, 4, 16, .one, .any⟩
def POS.CAR_CFG_EN : Fld := ⟨0x140, 0, 1, .rs, 0, 64, 4, .one, .any⟩
def POS.CAR_CFG_ENC_USE : Fld := ⟨0x140, 1, 1, .rs, 0, 64, 4, .one, .any⟩
def POS.CAR_CFG_ENC : Fld := ⟨0x140, 2, 2, .rs, 0, 64, 4, .one, .any⟩
def POS.CAR_CFG_SSI : Fld := ⟨0x140, 4, 2, .rs, 0, 64, 4, .one, .any⟩
def POS.CAR_CFG_DDECK : Fld := ⟨0x140, 6, 1, .rs, 0, 64, 4, .one, .any⟩
def POS.CAR_CFG_DZ_EN : Fld := ⟨0x140, 7, 1, .rs, 0, 64, 4, .one, .any⟩
def POS.CAR_CFG_DZ_SRC : Fld := ⟨0x140, 8, 5, .rs, 0, 64, 4, .one, .any⟩
def POS.CAR_CFG_SHIFT : Fld := ⟨0x140, 13, 3, .rs, 0, 64, 4, .one, .any⟩
def POS.CAR_CFG_COAST_MAX : Fld := ⟨0x140, 16, 4, .rs, 0, 64, 4, .one, .any⟩
def POS.CAR_CFG_SPD_AVG : Fld := ⟨0x140, 20, 2, .rs, 0, 64, 4, .one, .any⟩
def POS.CAR_POFS_UM : Fld := ⟨0x144, 0, 32, .rs, 0, 64, 4, .one, .any⟩
def POS.CAR_TOP_UM : Fld := ⟨0x148, 0, 24, .rs, 0, 64, 4, .one, .any⟩
def POS.CAR_BOT_UM : Fld := ⟨0x14C, 0, 24, .rs, 0, 64, 4, .one, .any⟩
def POS.CAR_DECK_UM : Fld := ⟨0x150, 0, 24, .rs, 0, 64, 4, .one, .any⟩
def POS.CAR_JUMP_UM : Fld := ⟨0x154, 0, 24, .rs, 50000, 64, 4, .one, .nz⟩
def POS.CAR_SLIP_LIM : Fld := ⟨0x158, 0, 24, .rs, 20000, 64, 4, .one, .any⟩
def POS.CAR_SLIP_N : Fld := ⟨0x158, 24, 8, .rs, 0, 64, 4, .one, .any⟩
def POS.CAR_CMD_REVAL : Fld := ⟨0x15C, 0, 1, .w1, 0, 64, 4, .one, .any⟩
def POS.CAR_X_UM : Fld := ⟨0x160, 0, 32, .ro, 0, 64, 4, .one, .any⟩
def POS.CAR_V_UMS : Fld := ⟨0x164, 0, 32, .ro, 0, 64, 4, .one, .any⟩
def POS.CAR_STAT_STATE : Fld := ⟨0x168, 0, 3, .ro, 0, 64, 4, .one, .any⟩
def POS.CAR_STAT_ENC_LOST : Fld := ⟨0x168, 3, 1, .ro, 0, 64, 4, .one, .any⟩
def POS.CAR_STAT_IN_DZ : Fld := ⟨0x168, 4, 1, .ro, 0, 64, 4, .one, .any⟩
def POS.CAR_STAT_LEVEL : Fld := ⟨0x168, 5, 1, .ro, 0, 64, 4, .one, .any⟩
def POS.CAR_STAT_UPPER_DZ : Fld := ⟨0x168, 6, 1, .ro, 0, 64, 4, .one, .any⟩
def POS.CAR_STAT_LANDING : Fld := ⟨0x168, 8, 8, .ro, 255, 64, 4, .one, .any⟩
def POS.CAR_STAT_BAD : Fld := ⟨0x168, 16, 8, .ro, 0, 64, 4, .one, .any⟩
def POS.CAR_STAT_UPPER : Fld := ⟨0x168, 24, 8, .ro, 255, 64, 4, .one, .any⟩
def POS.CAR_RAW_FIELD : Fld := ⟨0x16C, 0, 32, .ro, 0, 64, 4, .one, .any⟩
def POS.CAR_RESID_UM : Fld := ⟨0x170, 0, 32, .ro, 0, 64, 4, .one, .any⟩
def POS.LAT_CFG_EN : Fld := ⟨0x240, 0, 1, .rs, 0, 32, 16, .one, .any⟩
def POS.LAT_CFG_CONT : Fld := ⟨0x240, 1, 1, .rs, 0, 32, 16, .one, .any⟩
def POS.LAT_CFG_EDGE : Fld := ⟨0x240, 2, 2, .rs, 0, 32, 16, .one, .any⟩
def POS.LAT_CFG_SRC : Fld := ⟨0x240, 4, 6, .rs, 0, 32, 16, .one, .upto 35⟩
def POS.LAT_CFG_CAR : Fld := ⟨0x240, 12, 2, .rs, 0, 32, 16, .one, .any⟩
def POS.LAT_ARM_ARM : Fld := ⟨0x244, 0, 1, .w1, 0, 32, 16, .one, .any⟩
def POS.LAT_POS_UM : Fld := ⟨0x248, 0, 32, .ro, 0, 32, 16, .one, .any⟩
def POS.LAT_DT_T20 : Fld := ⟨0x24C, 0, 32, .ro, 0, 32, 16, .one, .any⟩
def POS.LAT_TS_LO : Fld := ⟨0x250, 0, 32, .ro, 0, 32, 16, .one, .any⟩
def POS.LAT_TS_HI : Fld := ⟨0x254, 0, 32, .ro, 0, 32, 16, .one, .any⟩
def POS.LAT_STAT_FULL : Fld := ⟨0x258, 0, 1, .ro, 0, 32, 16, .one, .any⟩
def POS.LAT_STAT_OVR : Fld := ⟨0x258, 1, 1, .ro, 0, 32, 16, .one, .any⟩
def POS.LAT_STAT_UP : Fld := ⟨0x258, 2, 1, .ro, 0, 32, 16, .one, .any⟩
def POS.LAT_STAT_COUNT : Fld := ⟨0x258, 8, 8, .ro, 0, 32, 16, .one, .any⟩
def POS.LRN_CTRL_RUN : Fld := ⟨0x440, 0, 1, .rw, 0, 0, 1, .one, .any⟩
def POS.LRN_CTRL_CAR : Fld := ⟨0x440, 2, 2, .rw, 0, 0, 1, .one, .any⟩
def POS.LRN_CTRL_SRC : Fld := ⟨0x440, 4, 5, .rw, 0, 0, 1, .one, .any⟩
def POS.LRN_STAT_COUNT : Fld := ⟨0x444, 0, 9, .ro, 0, 0, 1, .one, .any⟩
def POS.LRN_STAT_RESULT : Fld := ⟨0x444, 12, 4, .ro, 0, 0, 1, .one, .any⟩
def POS.LRN_IDX_IDX : Fld := ⟨0x448, 0, 8, .rw, 0, 0, 1, .one, .any⟩
def POS.LRN_LO_UM : Fld := ⟨0x44C, 0, 32, .ro, 0, 0, 1, .lrnIdx, .any⟩
def POS.LRN_HI_UM : Fld := ⟨0x450, 0, 32, .ro, 0, 0, 1, .lrnIdx, .any⟩
/-- Every field of the POS register table, in the table's order (03_shaft_and_position.md). -/
def POS.all0 : List Fld :=
  [POS.LT_CFG_COUNT, POS.LT_IDX_IDX, POS.LT_POS_UM, POS.LT_DZB_UM, POS.LT_DZA_UM, POS.LT_FLG_SIDE, POS.LT_TOL_DZ, POS.LT_TOL_LEVEL, POS.SSI_FMT_BITS, POS.SSI_FMT_PLSB, POS.SSI_FMT_PWID, POS.SSI_FMT_GRAY, POS.SSI_FMT_EPOL, POS.SSI_FMT_PAR, POS.SSI_FMT_EEN, POS.SSI_FMT_EBIT, POS.SSI_TIM_DIV, POS.SSI_TIM_DLY, POS.SSI_SCL_NM, POS.SSI_SCL_DIR, POS.ENC_SCALE_Q, POS.ENC_CNT_COUNT, POS.SHAFT_LO_UM, POS.SHAFT_HI_UM, POS.SW_STATE_ACT, POS.SW_SRC, POS.SW_SRCK, POS.SW_CAR, POS.SW_DIR, POS.SW_KIND, POS.SW_ACT, POS.SW_POL, POS.CAR_CFG_EN, POS.CAR_CFG_ENC_USE, POS.CAR_CFG_ENC, POS.CAR_CFG_SSI, POS.CAR_CFG_DDECK, POS.CAR_CFG_DZ_EN, POS.CAR_CFG_DZ_SRC, POS.CAR_CFG_SHIFT]
def POS.all1 : List Fld :=
  [POS.CAR_CFG_COAST_MAX, POS.CAR_CFG_SPD_AVG, POS.CAR_POFS_UM, POS.CAR_TOP_UM, POS.CAR_BOT_UM, POS.CAR_DECK_UM, POS.CAR_JUMP_UM, POS.CAR_SLIP_LIM, POS.CAR_SLIP_N, POS.CAR_CMD_REVAL, POS.CAR_X_UM, POS.CAR_V_UMS, POS.CAR_STAT_STATE, POS.CAR_STAT_ENC_LOST, POS.CAR_STAT_IN_DZ, POS.CAR_STAT_LEVEL, POS.CAR_STAT_UPPER_DZ, POS.CAR_STAT_LANDING, POS.CAR_STAT_BAD, POS.CAR_STAT_UPPER, POS.CAR_RAW_FIELD, POS.CAR_RESID_UM, POS.LAT_CFG_EN, POS.LAT_CFG_CONT, POS.LAT_CFG_EDGE, POS.LAT_CFG_SRC, POS.LAT_CFG_CAR, POS.LAT_ARM_ARM, POS.LAT_POS_UM, POS.LAT_DT_T20, POS.LAT_TS_LO, POS.LAT_TS_HI, POS.LAT_STAT_FULL, POS.LAT_STAT_OVR, POS.LAT_STAT_UP, POS.LAT_STAT_COUNT, POS.LRN_CTRL_RUN, POS.LRN_CTRL_CAR, POS.LRN_CTRL_SRC, POS.LRN_STAT_COUNT]
def POS.all2 : List Fld :=
  [POS.LRN_STAT_RESULT, POS.LRN_IDX_IDX, POS.LRN_LO_UM, POS.LRN_HI_UM]
def POS.all : List Fld :=
  POS.all0 ++ POS.all1 ++ POS.all2

/-! ### SHL (08_dispatch_shoal.md, R241) -/
def SHL.SCOPE_MODE : Fld := ⟨0x040, 0, 2, .ro, 0, 0, 1, .one, .any⟩
def SHL.SCOPE_PASSIVE : Fld := ⟨0x040, 2, 1, .ro, 0, 0, 1, .one, .any⟩
def SHL.SHAFT_SLOT : Fld := ⟨0x044, 0, 4, .rs, 0, 0, 1, .one, .any⟩
def SHL.W_WAIT_K : Fld := ⟨0x048, 0, 16, .rs, 4, 0, 1, .one, .any⟩
def SHL.W_RIDE_K : Fld := ⟨0x048, 16, 16, .rs, 2, 0, 1, .one, .any⟩
def SHL.W_DELAY_K : Fld := ⟨0x04C, 0, 16, .rs, 3, 0, 1, .one, .any⟩
def SHL.W_STOP_K : Fld := ⟨0x04C, 16, 16, .rs, 1, 0, 1, .one, .any⟩
def SHL.W_LANE_K : Fld := ⟨0x050, 0, 16, .rs, 0, 0, 1, .one, .any⟩
def SHL.PRIO_MUL_Q : Fld := ⟨0x050, 16, 16, .rs, 512, 0, 1, .one, .nz⟩
def SHL.DWELL_BASE : Fld := ⟨0x054, 0, 16, .rs, 8000, 0, 1, .one, .any⟩
def SHL.DWELL_PP : Fld := ⟨0x054, 16, 16, .rs, 1000, 0, 1, .one, .any⟩
def SHL.DWELL_ACC_MS : Fld := ⟨0x058, 0, 16, .rs, 4000, 0, 1, .one, .any⟩
def SHL.LANE_GAP_UM : Fld := ⟨0x05C, 0, 32, .rs, 0x4c4b40, 0, 1, .one, .any⟩
def SHL.SWEEP_EN : Fld := ⟨0x060, 0, 1, .rs, 1, 0, 1, .one, .any⟩
def SHL.SWEEP_HYST : Fld := ⟨0x060, 8, 24, .rs, 10000, 0, 1, .one, .any⟩
def SHL.FWD_TMO_MS : Fld := ⟨0x064, 0, 16, .rs, 50, 0, 1, .one, .nz⟩
def SHL.REC_AGE_MS : Fld := ⟨0x068, 0, 16, .rs, 100, 0, 1, .one, .nz⟩
def SHL.SUB_BASE_ADDR : Fld := ⟨0x070, 0, 32, .rs, 0, 0, 1, .one, .any⟩
def SHL.SUB_SIZE_N : Fld := ⟨0x074, 0, 13, .rs, 0, 0, 1, .one, .any⟩
def SHL.SUB_HEAD_IDX : Fld := ⟨0x078, 0, 12, .rw, 0, 0, 1, .one, .any⟩
def SHL.SUB_TAIL_IDX : Fld := ⟨0x07C, 0, 12, .ro, 0, 0, 1, .one, .any⟩
def SHL.RES_BASE_ADDR : Fld := ⟨0x080, 0, 32, .rs, 0, 0, 1, .one, .any⟩
def SHL.RES_SIZE_N : Fld := ⟨0x084, 0, 13, .rs, 0, 0, 1, .one, .any⟩
def SHL.RES_HEAD_IDX : Fld := ⟨0x088, 0, 12, .ro, 0, 0, 1, .one, .any⟩
def SHL.RES_TAIL_IDX : Fld := ⟨0x08C, 0, 12, .rw, 0, 0, 1, .one, .any⟩
def SHL.FT_SEL_SHAFT : Fld := ⟨0x090, 0, 4, .rw, 0, 0, 1, .one, .any⟩
def SHL.FT_STEP_UM : Fld := ⟨0x094, 0, 24, .rs, 0, 0, 1, .ftSel, .any⟩
def SHL.FT_IDX_IDX : Fld := ⟨0x098, 0, 8, .rw, 0, 0, 1, .one, .any⟩
def SHL.FT_DATA_MS : Fld := ⟨0x09C, 0, 32, .rs, 0, 0, 1, .ftIdx, .any⟩
def SHL.FM_SEL_SHAFT : Fld := ⟨0x0A0, 0, 4, .rw, 0, 0, 1, .one, .any⟩
def SHL.FM_IDX_FLOOR : Fld := ⟨0x0A4, 0, 8, .rw, 0, 0, 1, .one, .any⟩
def SHL.FM_LAND_IDX : Fld := ⟨0x0A8, 0, 8, .rs, 255, 0, 1, .fmIdx, .any⟩
def SHL.FM_POS_UM : Fld := ⟨0x0AC, 0, 32, .rs, 0, 0, 1, .fmIdx, .any⟩
def SHL.CAR_IDX_CAR : Fld := ⟨0x0B0, 0, 6, .rw, 0, 0, 1, .one, .any⟩
def SHL.CAR_CFG_EN : Fld := ⟨0x0B4, 0, 1, .rs, 0, 0, 1, .carIdx, .any⟩
def SHL.CAR_CFG_DDECK : Fld := ⟨0x0B4, 1, 1, .rs, 0, 0, 1, .carIdx, .any⟩
def SHL.CAR_CFG_BAND_LO : Fld := ⟨0x0B4, 8, 8, .rs, 0, 0, 1, .carIdx, .any⟩
def SHL.CAR_CFG_BAND_HI : Fld := ⟨0x0B4, 16, 8, .rs, 255, 0, 1, .carIdx, .any⟩
def SHL.CAR_CFG_CAP : Fld := ⟨0x0B4, 24, 8, .rs, 0, 0, 1, .carIdx, .any⟩
def SHL.LCAR_AVAIL : Fld := ⟨0x0C0, 0, 2, .rw, 0, 4, 4, .one, .upto 2⟩
def SHL.LCAR_LOAD : Fld := ⟨0x0C0, 8, 8, .rw, 0, 4, 4, .one, .any⟩
def SHL.CALL_IDX_SLOT : Fld := ⟨0x0D0, 0, 12, .rw, 0, 0, 1, .one, .any⟩
def SHL.CALL_W : Fld := ⟨0x0D4, 0, 32, .ro, 0, 4, 8, .callIdx, .any⟩
def SHL.STOP_SEL_CAR : Fld := ⟨0x100, 0, 6, .rw, 0, 0, 1, .one, .any⟩
def SHL.STOP_SEL_IDX : Fld := ⟨0x100, 8, 5, .rw, 0, 0, 1, .one, .any⟩
def SHL.STOP_W0 : Fld := ⟨0x104, 0, 32, .ro, 0, 0, 1, .stopSel, .any⟩
def SHL.STOP_W1 : Fld := ⟨0x108, 0, 32, .ro, 0, 0, 1, .stopSel, .any⟩
def SHL.STOP_CNT_N : Fld := ⟨0x10C, 0, 6, .ro, 0, 0, 1, .stopCar, .any⟩
def SHL.CALLS_USED : Fld := ⟨0x110, 0, 13, .ro, 0, 0, 1, .one, .any⟩
def SHL.EVAL_LAST_NS : Fld := ⟨0x114, 0, 16, .ro, 0, 0, 1, .one, .any⟩
def SHL.EVAL_MAX_NS : Fld := ⟨0x118, 0, 16, .rc, 0, 0, 1, .one, .any⟩
def SHL.SWEEP_CNT_N : Fld := ⟨0x11C, 0, 32, .ro, 0, 0, 1, .one, .any⟩
def SHL.REASSIGN_COUNT : Fld := ⟨0x120, 0, 32, .rc, 0, 0, 1, .one, .any⟩
def SHL.CARS_LIVE_LO : Fld := ⟨0x124, 0, 32, .ro, 0, 0, 1, .one, .any⟩
def SHL.CARS_LIVE_HI : Fld := ⟨0x128, 0, 32, .ro, 0, 0, 1, .one, .any⟩
/-- Every field of the SHL register table, in the table's order (08_dispatch_shoal.md). -/
def SHL.all0 : List Fld :=
  [SHL.SCOPE_MODE, SHL.SCOPE_PASSIVE, SHL.SHAFT_SLOT, SHL.W_WAIT_K, SHL.W_RIDE_K, SHL.W_DELAY_K, SHL.W_STOP_K, SHL.W_LANE_K, SHL.PRIO_MUL_Q, SHL.DWELL_BASE, SHL.DWELL_PP, SHL.DWELL_ACC_MS, SHL.LANE_GAP_UM, SHL.SWEEP_EN, SHL.SWEEP_HYST, SHL.FWD_TMO_MS, SHL.REC_AGE_MS, SHL.SUB_BASE_ADDR, SHL.SUB_SIZE_N, SHL.SUB_HEAD_IDX, SHL.SUB_TAIL_IDX, SHL.RES_BASE_ADDR, SHL.RES_SIZE_N, SHL.RES_HEAD_IDX, SHL.RES_TAIL_IDX, SHL.FT_SEL_SHAFT, SHL.FT_STEP_UM, SHL.FT_IDX_IDX, SHL.FT_DATA_MS, SHL.FM_SEL_SHAFT, SHL.FM_IDX_FLOOR, SHL.FM_LAND_IDX, SHL.FM_POS_UM, SHL.CAR_IDX_CAR, SHL.CAR_CFG_EN, SHL.CAR_CFG_DDECK, SHL.CAR_CFG_BAND_LO, SHL.CAR_CFG_BAND_HI, SHL.CAR_CFG_CAP, SHL.LCAR_AVAIL]
def SHL.all1 : List Fld :=
  [SHL.LCAR_LOAD, SHL.CALL_IDX_SLOT, SHL.CALL_W, SHL.STOP_SEL_CAR, SHL.STOP_SEL_IDX, SHL.STOP_W0, SHL.STOP_W1, SHL.STOP_CNT_N, SHL.CALLS_USED, SHL.EVAL_LAST_NS, SHL.EVAL_MAX_NS, SHL.SWEEP_CNT_N, SHL.REASSIGN_COUNT, SHL.CARS_LIVE_LO, SHL.CARS_LIVE_HI]
def SHL.all : List Fld :=
  SHL.all0 ++ SHL.all1

/-! ### MIR (12_redundancy.md, R368) -/
def MIR.LINK_LANES : Fld := ⟨0x040, 0, 4, .ro, 0, 0, 1, .one, .any⟩
def MIR.LINK_WIDTH : Fld := ⟨0x040, 4, 2, .ro, 0, 0, 1, .one, .any⟩
def MIR.LINK_UP : Fld := ⟨0x040, 8, 1, .ro, 0, 0, 1, .one, .any⟩
def MIR.LINK_TRAIN : Fld := ⟨0x040, 9, 1, .ro, 0, 0, 1, .one, .any⟩
def MIR.SERVO_T_NS : Fld := ⟨0x044, 0, 16, .ro, 0, 0, 1, .one, .any⟩
def MIR.CYC_BYTES_N : Fld := ⟨0x048, 0, 24, .ro, 0, 0, 1, .one, .any⟩
def MIR.BACKLOG_BYTES : Fld := ⟨0x04C, 0, 24, .ro, 0, 0, 1, .one, .any⟩
def MIR.TX_PKT_COUNT : Fld := ⟨0x050, 0, 32, .ro, 0, 0, 1, .one, .any⟩
def MIR.RX_PKT_COUNT : Fld := ⟨0x054, 0, 32, .ro, 0, 0, 1, .one, .any⟩
def MIR.CRC_ERR_COUNT : Fld := ⟨0x058, 0, 16, .rc, 0, 0, 1, .one, .any⟩
def MIR.RESEND_COUNT : Fld := ⟨0x058, 16, 16, .rc, 0, 0, 1, .one, .any⟩
def MIR.DOWN_COUNT : Fld := ⟨0x05C, 0, 16, .rc, 0, 0, 1, .one, .any⟩
def MIR.SMISS_COUNT : Fld := ⟨0x05C, 16, 16, .rc, 0, 0, 1, .one, .any⟩
/-- Every field of the MIR register table, in the table's order (12_redundancy.md). -/
def MIR.all : List Fld :=
  [MIR.LINK_LANES, MIR.LINK_WIDTH, MIR.LINK_UP, MIR.LINK_TRAIN, MIR.SERVO_T_NS, MIR.CYC_BYTES_N, MIR.BACKLOG_BYTES, MIR.TX_PKT_COUNT, MIR.RX_PKT_COUNT, MIR.CRC_ERR_COUNT, MIR.RESEND_COUNT, MIR.DOWN_COUNT, MIR.SMISS_COUNT]

/-! ### HLF (12_redundancy.md, R366) -/
def HLF.STATE_OWN : Fld := ⟨0x040, 0, 3, .ro, 4, 0, 1, .one, .any⟩
def HLF.STATE_PEER : Fld := ⟨0x040, 4, 3, .ro, 7, 0, 1, .one, .any⟩
def HLF.STATE_PEER_QUIET : Fld := ⟨0x040, 7, 1, .ro, 0, 0, 1, .one, .any⟩
def HLF.STATE_CAUSE : Fld := ⟨0x040, 8, 4, .ro, 1, 0, 1, .one, .any⟩
def HLF.STATE_PEER_CAUSE : Fld := ⟨0x040, 12, 4, .ro, 0, 0, 1, .one, .any⟩
def HLF.EPOCH_KNOWN : Fld := ⟨0x044, 0, 16, .ro, 0, 0, 1, .one, .any⟩
def HLF.LEASE_MINE : Fld := ⟨0x048, 0, 1, .ro, 0, 0, 1, .one, .any⟩
def HLF.LEASE_VALID : Fld := ⟨0x048, 1, 1, .ro, 0, 0, 1, .one, .any⟩
def HLF.LEASE_EPOCH : Fld := ⟨0x048, 16, 16, .ro, 0, 0, 1, .one, .any⟩
def HLF.TAKE_COUNT : Fld := ⟨0x04C, 0, 16, .ro, 0, 0, 1, .one, .any⟩
def HLF.TAKE_COLD : Fld := ⟨0x04C, 16, 1, .ro, 0, 0, 1, .one, .any⟩
def HLF.GAP_US : Fld := ⟨0x050, 0, 20, .ro, 0, 0, 1, .one, .any⟩
def HLF.CMD_OP : Fld := ⟨0x054, 0, 2, .pv, 0, 0, 1, .one, .any⟩
def HLF.PEER_CMD_OP : Fld := ⟨0x058, 0, 2, .pv, 0, 0, 1, .one, .any⟩
def HLF.CFG_AUTO_REJOIN : Fld := ⟨0x05C, 0, 1, .rs, 1, 0, 1, .one, .any⟩
def HLF.CFG_CMP_SERVO : Fld := ⟨0x05C, 1, 1, .rs, 1, 0, 1, .one, .any⟩
def HLF.CFG_CMP_CYCLE : Fld := ⟨0x05C, 2, 1, .rs, 0, 0, 1, .one, .any⟩
def HLF.CFG_DIS_N : Fld := ⟨0x05C, 8, 8, .rs, 3, 0, 1, .one, .any⟩
def HLF.SWAP_DUE_H : Fld := ⟨0x060, 0, 14, .rs, 168, 0, 1, .one, .span 1 8760⟩
def HLF.PROOF_AGE_A : Fld := ⟨0x064, 0, 16, .ro, 0, 0, 1, .one, .any⟩
def HLF.PROOF_AGE_B : Fld := ⟨0x064, 16, 16, .ro, 0, 0, 1, .one, .any⟩
def HLF.SWAP_ST_STATE : Fld := ⟨0x068, 0, 3, .ro, 0, 0, 1, .one, .any⟩
def HLF.SWAP_ST_REASON : Fld := ⟨0x068, 8, 8, .ro, 0, 0, 1, .one, .any⟩
def HLF.DIS_COUNT : Fld := ⟨0x06C, 0, 16, .rc, 0, 0, 1, .one, .any⟩
def HLF.DIS_ITEM : Fld := ⟨0x06C, 16, 4, .ro, 0, 0, 1, .one, .any⟩
def HLF.REJOIN_N24 : Fld := ⟨0x070, 0, 2, .ro, 0, 0, 1, .one, .any⟩
/-- Every field of the HLF register table, in the table's order (12_redundancy.md). -/
def HLF.all : List Fld :=
  [HLF.STATE_OWN, HLF.STATE_PEER, HLF.STATE_PEER_QUIET, HLF.STATE_CAUSE, HLF.STATE_PEER_CAUSE, HLF.EPOCH_KNOWN, HLF.LEASE_MINE, HLF.LEASE_VALID, HLF.LEASE_EPOCH, HLF.TAKE_COUNT, HLF.TAKE_COLD, HLF.GAP_US, HLF.CMD_OP, HLF.PEER_CMD_OP, HLF.CFG_AUTO_REJOIN, HLF.CFG_CMP_SERVO, HLF.CFG_CMP_CYCLE, HLF.CFG_DIS_N, HLF.SWAP_DUE_H, HLF.PROOF_AGE_A, HLF.PROOF_AGE_B, HLF.SWAP_ST_STATE, HLF.SWAP_ST_REASON, HLF.DIS_COUNT, HLF.DIS_ITEM, HLF.REJOIN_N24]

/-! ### SBK (12_redundancy.md, R370) -/
def SBK.CORE_SPARE_FOR : Fld := ⟨0x040, 0, 3, .ro, 7, 0, 1, .one, .any⟩
def SBK.CORE_SPARE_FAILED : Fld := ⟨0x040, 3, 1, .ro, 0, 0, 1, .one, .any⟩
def SBK.CORE_FAILED : Fld := ⟨0x040, 4, 4, .ro, 0, 0, 1, .one, .any⟩
def SBK.LE_SPARE_FOR : Fld := ⟨0x044, 0, 3, .ro, 7, 0, 1, .one, .any⟩
def SBK.LE_SPARE_FAILED : Fld := ⟨0x044, 3, 1, .ro, 0, 0, 1, .one, .any⟩
def SBK.LE_FAILED : Fld := ⟨0x044, 4, 3, .ro, 0, 0, 1, .one, .any⟩
def SBK.ROWS_USED : Fld := ⟨0x048, 0, 8, .ro, 0, 0, 1, .one, .any⟩
def SBK.ROWS_LEFT : Fld := ⟨0x048, 16, 8, .ro, 164, 0, 1, .one, .any⟩
def SBK.MCOL_USED : Fld := ⟨0x04C, 0, 10, .ro, 0, 0, 1, .one, .any⟩
def SBK.MCOL_LEFT : Fld := ⟨0x04C, 16, 10, .ro, 512, 0, 1, .one, .any⟩
def SBK.ENTRIES_N : Fld := ⟨0x050, 0, 8, .ro, 0, 0, 1, .one, .any⟩
def SBK.COPY_OK1 : Fld := ⟨0x054, 0, 1, .ro, 1, 0, 1, .one, .any⟩
def SBK.COPY_OK2 : Fld := ⟨0x054, 1, 1, .ro, 1, 0, 1, .one, .any⟩
def SBK.COPY_REST : Fld := ⟨0x054, 2, 1, .ro, 0, 0, 1, .one, .any⟩
def SBK.GROW_COUNT : Fld := ⟨0x058, 0, 16, .rc, 0, 0, 1, .one, .any⟩
def SBK.ENT_W0 : Fld := ⟨0x100, 0, 32, .ro, 0, 16, 240, .one, .any⟩
def SBK.ENT_W1 : Fld := ⟨0x104, 0, 32, .ro, 0, 16, 240, .one, .any⟩
def SBK.ENT_W2 : Fld := ⟨0x108, 0, 32, .ro, 0, 16, 240, .one, .any⟩
def SBK.ENT_W3 : Fld := ⟨0x10C, 0, 32, .ro, 0, 16, 240, .one, .any⟩
/-- Every field of the SBK register table, in the table's order (12_redundancy.md). -/
def SBK.all : List Fld :=
  [SBK.CORE_SPARE_FOR, SBK.CORE_SPARE_FAILED, SBK.CORE_FAILED, SBK.LE_SPARE_FOR, SBK.LE_SPARE_FAILED, SBK.LE_FAILED, SBK.ROWS_USED, SBK.ROWS_LEFT, SBK.MCOL_USED, SBK.MCOL_LEFT, SBK.ENTRIES_N, SBK.COPY_OK1, SBK.COPY_OK2, SBK.COPY_REST, SBK.GROW_COUNT, SBK.ENT_W0, SBK.ENT_W1, SBK.ENT_W2, SBK.ENT_W3]

/-! ### CAN (14_can_fd.md, R422) -/
def CAN.NBT_BRP : Fld := ⟨0x040, 0, 5, .rs, 8, 0, 1, .one, .any⟩
def CAN.NBT_TSEG1 : Fld := ⟨0x040, 8, 9, .rs, 63, 0, 1, .one, .upto 256⟩
def CAN.NBT_TSEG2 : Fld := ⟨0x040, 17, 8, .rs, 16, 0, 1, .one, .upto 128⟩
def CAN.NSJW_SJW : Fld := ⟨0x044, 0, 8, .rs, 16, 0, 1, .one, .upto 128⟩
def CAN.DBT_DBRP : Fld := ⟨0x048, 0, 5, .rs, 1, 0, 1, .one, .any⟩
def CAN.DBT_DTSEG1 : Fld := ⟨0x048, 5, 6, .rs, 29, 0, 1, .one, .upto 32⟩
def CAN.DBT_DTSEG2 : Fld := ⟨0x048, 11, 5, .rs, 10, 0, 1, .one, .upto 16⟩
def CAN.DBT_DSJW : Fld := ⟨0x048, 16, 5, .rs, 10, 0, 1, .one, .upto 16⟩
def CAN.TDC_EN : Fld := ⟨0x04C, 0, 1, .rs, 1, 0, 1, .one, .any⟩
def CAN.TDC_TDCO : Fld := ⟨0x04C, 1, 7, .rs, 30, 0, 1, .one, .any⟩
def CAN.TDC_MEAS : Fld := ⟨0x050, 0, 7, .ro, 0, 0, 1, .one, .any⟩
def CAN.MODE_OP : Fld := ⟨0x054, 0, 2, .rs, 0, 0, 1, .one, .any⟩
def CAN.MODE_TXECHO : Fld := ⟨0x054, 2, 1, .rs, 0, 0, 1, .one, .any⟩
def CAN.LONELY_N : Fld := ⟨0x058, 0, 8, .rs, 16, 0, 1, .one, .any⟩
def CAN.REJOIN_GO : Fld := ⟨0x05C, 0, 1, .w1, 0, 0, 1, .one, .any⟩
def CAN.BUS_STATE : Fld := ⟨0x060, 0, 3, .ro, 0, 0, 1, .one, .any⟩
def CAN.BUS_LONELY : Fld := ⟨0x060, 3, 1, .ro, 0, 0, 1, .one, .any⟩
def CAN.BUS_TERM : Fld := ⟨0x060, 4, 1, .ro, 0, 0, 1, .one, .any⟩
def CAN.BUS_ACKRUN : Fld := ⟨0x060, 8, 8, .ro, 0, 0, 1, .one, .any⟩
def CAN.ERRC_TEC : Fld := ⟨0x064, 0, 9, .ro, 0, 0, 1, .one, .any⟩
def CAN.ERRC_REC : Fld := ⟨0x064, 16, 8, .ro, 0, 0, 1, .one, .any⟩
def CAN.LEC_CODE : Fld := ⟨0x068, 0, 3, .rc, 0, 0, 1, .one, .any⟩
def CAN.LEC_DATA : Fld := ⟨0x068, 3, 1, .rc, 0, 0, 1, .one, .any⟩
def CAN.REJ_CNT_SEQ : Fld := ⟨0x06C, 0, 8, .ro, 0, 0, 1, .one, .any⟩
def CAN.RX_HEAD_IDX : Fld := ⟨0x080, 0, 10, .ro, 0, 0, 1, .one, .any⟩
def CAN.RX_TAIL_IDX : Fld := ⟨0x084, 0, 10, .ro, 0, 0, 1, .one, .any⟩
def CAN.RX_OWNED_N : Fld := ⟨0x088, 0, 11, .ro, 0, 0, 1, .one, .any⟩
def CAN.RX_ACK_N : Fld := ⟨0x08C, 0, 11, .wo, 0, 0, 1, .one, .any⟩
def CAN.RX_DROP_COUNT : Fld := ⟨0x090, 0, 32, .rc, 0, 0, 1, .one, .any⟩
def CAN.RX_SEL_IDX : Fld := ⟨0x094, 0, 10, .rw, 0, 0, 1, .one, .any⟩
def CAN.RX_HWM_N : Fld := ⟨0x098, 0, 11, .rc, 0, 0, 1, .one, .any⟩
def CAN.TX_SEL_BUF : Fld := ⟨0x0A0, 0, 7, .rw, 0, 0, 1, .one, .any⟩
def CAN.TX_REQ_BITS : Fld := ⟨0x0A4, 0, 32, .w1, 0, 4, 4, .one, .any⟩
def CAN.TX_CANCEL_BITS : Fld := ⟨0x0B4, 0, 32, .w1, 0, 4, 4, .one, .any⟩
def CAN.TX_PEND_BITS : Fld := ⟨0x0C4, 0, 32, .ro, 0, 4, 4, .one, .any⟩
def CAN.TX_DONE_BITS : Fld := ⟨0x0D4, 0, 32, .rc, 0, 4, 4, .one, .any⟩
def CAN.TX_FAIL_BITS : Fld := ⟨0x0E4, 0, 32, .rc, 0, 4, 4, .one, .any⟩
def CAN.TT_CFG_ROWS : Fld := ⟨0x100, 0, 7, .rs, 0, 0, 1, .one, .any⟩
def CAN.TT_CFG_COLS : Fld := ⟨0x100, 8, 6, .rs, 0, 0, 1, .one, .any⟩
def CAN.TT_CFG_SYNC : Fld := ⟨0x100, 16, 2, .rs, 0, 0, 1, .one, .upto 2⟩
def CAN.TT_LEN_US : Fld := ⟨0x104, 0, 20, .rs, 0, 0, 1, .one, .any⟩
def CAN.TT_ROW_IDX : Fld := ⟨0x108, 0, 6, .ro, 0, 0, 1, .one, .any⟩
def CAN.TT_SEL_COL : Fld := ⟨0x10C, 0, 5, .rw, 0, 0, 1, .one, .any⟩
def CAN.TT_SEL_ROW : Fld := ⟨0x10C, 8, 6, .rw, 0, 0, 1, .one, .any⟩
def CAN.TT_COL_START : Fld := ⟨0x110, 0, 20, .rs, 0, 0, 1, .ttCol, .any⟩
def CAN.TT_CELL_BUF : Fld := ⟨0x114, 0, 8, .rs, 255, 0, 1, .ttCell, .any⟩
def CAN.TXB_ID_ID : Fld := ⟨0x200, 0, 29, .rw, 0, 0, 1, .txSel, .any⟩
def CAN.TXB_ID_IDE : Fld := ⟨0x200, 29, 1, .rw, 0, 0, 1, .txSel, .any⟩
def CAN.TXB_ID_FDF : Fld := ⟨0x200, 30, 1, .rw, 0, 0, 1, .txSel, .any⟩
def CAN.TXB_ID_BRS : Fld := ⟨0x200, 31, 1, .rw, 0, 0, 1, .txSel, .any⟩
def CAN.TXB_CTL_DLC : Fld := ⟨0x204, 0, 4, .rw, 0, 0, 1, .txSel, .any⟩
def CAN.TXB_CTL_RTR : Fld := ⟨0x204, 4, 1, .rw, 0, 0, 1, .txSel, .any⟩
def CAN.TXB_CTL_SRC : Fld := ⟨0x204, 8, 2, .ro, 0, 0, 1, .txSel, .any⟩
def CAN.TXB_ST_RESULT : Fld := ⟨0x208, 0, 4, .ro, 0, 0, 1, .txSel, .any⟩
def CAN.TXB_ST_LEC : Fld := ⟨0x208, 4, 3, .ro, 0, 0, 1, .txSel, .any⟩
def CAN.TXB_ST_WHY : Fld := ⟨0x208, 8, 4, .ro, 0, 0, 1, .txSel, .any⟩
def CAN.TXB_TS_LO : Fld := ⟨0x20C, 0, 32, .ro, 0, 0, 1, .txSel, .any⟩
def CAN.TXB_TS_HI : Fld := ⟨0x210, 0, 32, .ro, 0, 0, 1, .txSel, .any⟩
def CAN.TXB_D : Fld := ⟨0x240, 0, 32, .rw, 0, 4, 16, .txSel, .any⟩
def CAN.RXE_W : Fld := ⟨0x300, 0, 32, .ro, 0, 4, 20, .rxSel, .any⟩
/-- Every field of the CAN register table, in the table's order (14_can_fd.md). -/
def CAN.all0 : List Fld :=
  [CAN.NBT_BRP, CAN.NBT_TSEG1, CAN.NBT_TSEG2, CAN.NSJW_SJW, CAN.DBT_DBRP, CAN.DBT_DTSEG1, CAN.DBT_DTSEG2, CAN.DBT_DSJW, CAN.TDC_EN, CAN.TDC_TDCO, CAN.TDC_MEAS, CAN.MODE_OP, CAN.MODE_TXECHO, CAN.LONELY_N, CAN.REJOIN_GO, CAN.BUS_STATE, CAN.BUS_LONELY, CAN.BUS_TERM, CAN.BUS_ACKRUN, CAN.ERRC_TEC, CAN.ERRC_REC, CAN.LEC_CODE, CAN.LEC_DATA, CAN.REJ_CNT_SEQ, CAN.RX_HEAD_IDX, CAN.RX_TAIL_IDX, CAN.RX_OWNED_N, CAN.RX_ACK_N, CAN.RX_DROP_COUNT, CAN.RX_SEL_IDX, CAN.RX_HWM_N, CAN.TX_SEL_BUF, CAN.TX_REQ_BITS, CAN.TX_CANCEL_BITS, CAN.TX_PEND_BITS, CAN.TX_DONE_BITS, CAN.TX_FAIL_BITS, CAN.TT_CFG_ROWS, CAN.TT_CFG_COLS, CAN.TT_CFG_SYNC]
def CAN.all1 : List Fld :=
  [CAN.TT_LEN_US, CAN.TT_ROW_IDX, CAN.TT_SEL_COL, CAN.TT_SEL_ROW, CAN.TT_COL_START, CAN.TT_CELL_BUF, CAN.TXB_ID_ID, CAN.TXB_ID_IDE, CAN.TXB_ID_FDF, CAN.TXB_ID_BRS, CAN.TXB_CTL_DLC, CAN.TXB_CTL_RTR, CAN.TXB_CTL_SRC, CAN.TXB_ST_RESULT, CAN.TXB_ST_LEC, CAN.TXB_ST_WHY, CAN.TXB_TS_LO, CAN.TXB_TS_HI, CAN.TXB_D, CAN.RXE_W]
def CAN.all : List Fld :=
  CAN.all0 ++ CAN.all1

/-! ### GLK (13_group_link.md, R390) -/
def GLK.NODE_POS : Fld := ⟨0x040, 0, 5, .rs, 0, 0, 1, .one, .any⟩
def GLK.GROUP_ID : Fld := ⟨0x044, 0, 16, .rs, 0, 0, 1, .one, .nz⟩
def GLK.WORKERS_MASK : Fld := ⟨0x048, 0, 18, .rs, 0, 0, 1, .one, .any⟩
def GLK.MANAGERS_MASK : Fld := ⟨0x04C, 0, 18, .rs, 0, 0, 1, .one, .any⟩
def GLK.ETYPE_TYPE : Fld := ⟨0x050, 0, 16, .rs, 34997, 0, 1, .one, .any⟩
def GLK.MAC_LO : Fld := ⟨0x054, 0, 32, .rs, 6659, 0, 1, .one, .any⟩
def GLK.MAC_HI : Fld := ⟨0x058, 0, 16, .rs, 0, 0, 1, .one, .any⟩
def GLK.CFG_ID_ID : Fld := ⟨0x05C, 0, 32, .rs, 0, 0, 1, .one, .any⟩
def GLK.HELLO_MS : Fld := ⟨0x060, 0, 7, .rs, 10, 0, 1, .one, .any⟩
def GLK.REC_MS : Fld := ⟨0x060, 8, 8, .rs, 20, 0, 1, .one, .any⟩
def GLK.PHY_AMP0 : Fld := ⟨0x064, 0, 1, .rs, 0, 0, 1, .one, .any⟩
def GLK.PHY_AMP1 : Fld := ⟨0x064, 1, 1, .rs, 0, 0, 1, .one, .any⟩
def GLK.TSYNC_STEP_US : Fld := ⟨0x068, 0, 16, .rs, 1000, 0, 1, .one, .any⟩
def GLK.TSYNC_EN : Fld := ⟨0x068, 16, 1, .rs, 1, 0, 1, .one, .any⟩
def GLK.USER_LEN : Fld := ⟨0x06C, 0, 11, .rs, 0, 0, 1, .one, .any⟩
def GLK.ROLE_STRAP : Fld := ⟨0x080, 0, 2, .ro, 0, 0, 1, .one, .any⟩
def GLK.ROLE_ACTIVE : Fld := ⟨0x080, 2, 1, .ro, 0, 0, 1, .one, .any⟩
def GLK.ROLE_HAS_MGR : Fld := ⟨0x080, 3, 1, .ro, 0, 0, 1, .one, .any⟩
def GLK.ROLE_PEER_TBL : Fld := ⟨0x080, 4, 1, .ro, 0, 0, 1, .one, .any⟩
def GLK.EPOCH_ROLE : Fld := ⟨0x084, 0, 16, .ro, 0, 0, 1, .one, .any⟩
def GLK.EPOCH_MGR_POS : Fld := ⟨0x084, 16, 5, .ro, 31, 0, 1, .one, .any⟩
def GLK.RING_STATE : Fld := ⟨0x088, 0, 2, .ro, 0, 0, 1, .one, .any⟩
def GLK.RING_LINK : Fld := ⟨0x088, 8, 2, .ro, 0, 0, 1, .one, .any⟩
def GLK.RING_AMP : Fld := ⟨0x088, 10, 2, .ro, 0, 0, 1, .one, .any⟩
def GLK.HEARD0_MASK : Fld := ⟨0x08C, 0, 18, .ro, 0, 0, 1, .one, .any⟩
def GLK.HEARD1_MASK : Fld := ⟨0x090, 0, 18, .ro, 0, 0, 1, .one, .any⟩
def GLK.COUNT_W : Fld := ⟨0x094, 0, 5, .ro, 0, 0, 1, .one, .any⟩
def GLK.COUNT_N : Fld := ⟨0x094, 8, 5, .ro, 0, 0, 1, .one, .any⟩
def GLK.TSYNC_STATE : Fld := ⟨0x098, 0, 2, .ro, 0, 0, 1, .one, .any⟩
def GLK.TSYNC_OFFSET_NS : Fld := ⟨0x09C, 0, 32, .ro, 0, 0, 1, .one, .any⟩
def GLK.TSYNC_FREQ_PPB : Fld := ⟨0x0A0, 0, 32, .ro, 0, 0, 1, .one, .any⟩
def GLK.LINK_D0_NS : Fld := ⟨0x0A4, 0, 16, .ro, 0, 0, 1, .one, .any⟩
def GLK.LINK_D1_NS : Fld := ⟨0x0A4, 16, 16, .ro, 0, 0, 1, .one, .any⟩
def GLK.LOAD_LOAD0 : Fld := ⟨0x0A8, 0, 8, .ro, 0, 0, 1, .one, .any⟩
def GLK.LOAD_LOAD1 : Fld := ⟨0x0A8, 8, 8, .ro, 0, 0, 1, .one, .any⟩
def GLK.DROP_OLD : Fld := ⟨0x0AC, 0, 16, .rc, 0, 0, 1, .one, .any⟩
def GLK.DROP_FOREIGN : Fld := ⟨0x0AC, 16, 16, .rc, 0, 0, 1, .one, .any⟩
def GLK.ERR_CNT_FCS : Fld := ⟨0x0B0, 0, 16, .rc, 0, 0, 1, .one, .any⟩
def GLK.ERR_CNT_HCRC : Fld := ⟨0x0B0, 16, 16, .rc, 0, 0, 1, .one, .any⟩
def GLK.QDROP_COUNT : Fld := ⟨0x0B4, 0, 16, .rc, 0, 0, 1, .one, .any⟩
def GLK.SPLITS_COUNT : Fld := ⟨0x0B8, 0, 16, .rc, 0, 0, 1, .one, .any⟩
/-- Every field of the GLK register table, in the table's order (13_group_link.md). -/
def GLK.all0 : List Fld :=
  [GLK.NODE_POS, GLK.GROUP_ID, GLK.WORKERS_MASK, GLK.MANAGERS_MASK, GLK.ETYPE_TYPE, GLK.MAC_LO, GLK.MAC_HI, GLK.CFG_ID_ID, GLK.HELLO_MS, GLK.REC_MS, GLK.PHY_AMP0, GLK.PHY_AMP1, GLK.TSYNC_STEP_US, GLK.TSYNC_EN, GLK.USER_LEN, GLK.ROLE_STRAP, GLK.ROLE_ACTIVE, GLK.ROLE_HAS_MGR, GLK.ROLE_PEER_TBL, GLK.EPOCH_ROLE, GLK.EPOCH_MGR_POS, GLK.RING_STATE, GLK.RING_LINK, GLK.RING_AMP, GLK.HEARD0_MASK, GLK.HEARD1_MASK, GLK.COUNT_W, GLK.COUNT_N, GLK.TSYNC_STATE, GLK.TSYNC_OFFSET_NS, GLK.TSYNC_FREQ_PPB, GLK.LINK_D0_NS, GLK.LINK_D1_NS, GLK.LOAD_LOAD0, GLK.LOAD_LOAD1, GLK.DROP_OLD, GLK.DROP_FOREIGN, GLK.ERR_CNT_FCS, GLK.ERR_CNT_HCRC, GLK.QDROP_COUNT]
def GLK.all1 : List Fld :=
  [GLK.SPLITS_COUNT]
def GLK.all : List Fld :=
  GLK.all0 ++ GLK.all1

/-! ### HST (18_security.md, R527) -/
def HST.STATUS_SESSION : Fld := ⟨0x040, 0, 1, .ro, 0, 0, 1, .one, .any⟩
def HST.STATUS_ROLE : Fld := ⟨0x040, 1, 3, .ro, 0, 0, 1, .one, .any⟩
def HST.STATUS_BOOT_REQ : Fld := ⟨0x040, 4, 1, .ro, 0, 0, 1, .one, .any⟩
def HST.STATUS_WR_ERR : Fld := ⟨0x040, 5, 1, .ro, 0, 0, 1, .one, .any⟩
def HST.STATUS_FULL : Fld := ⟨0x040, 6, 1, .ro, 0, 0, 1, .one, .any⟩
def HST.STATUS_WR_FREE : Fld := ⟨0x040, 8, 7, .ro, 64, 0, 1, .one, .any⟩
def HST.STATUS_WR_CODE : Fld := ⟨0x040, 16, 8, .ro, 0, 0, 1, .one, .any⟩
def HST.WR_FAIL_ADDR : Fld := ⟨0x044, 0, 32, .ro, 0, 0, 1, .one, .any⟩
def HST.WIN_BASE_BASE : Fld := ⟨0x048, 0, 13, .rw, 0, 0, 1, .one, .upto 8191⟩
def HST.BOOT_OFS_BYTES : Fld := ⟨0x04C, 0, 32, .ro, 0, 0, 1, .one, .any⟩
def HST.BOOT_LEN_BYTES : Fld := ⟨0x050, 0, 32, .ro, 0, 0, 1, .one, .any⟩
def HST.IDLE_LEFT_S : Fld := ⟨0x054, 0, 16, .ro, 0, 0, 1, .one, .any⟩
def HST.ERR_CNT_PROTO : Fld := ⟨0x058, 0, 16, .rc, 0, 0, 1, .one, .any⟩
def HST.ERR_CNT_BOOT : Fld := ⟨0x058, 16, 16, .rc, 0, 0, 1, .one, .any⟩
def HST.XFER_COUNT : Fld := ⟨0x05C, 0, 32, .ro, 0, 0, 1, .one, .any⟩
/-- Every field of the HST register table, in the table's order (18_security.md). -/
def HST.all : List Fld :=
  [HST.STATUS_SESSION, HST.STATUS_ROLE, HST.STATUS_BOOT_REQ, HST.STATUS_WR_ERR, HST.STATUS_FULL, HST.STATUS_WR_FREE, HST.STATUS_WR_CODE, HST.WR_FAIL_ADDR, HST.WIN_BASE_BASE, HST.BOOT_OFS_BYTES, HST.BOOT_LEN_BYTES, HST.IDLE_LEFT_S, HST.ERR_CNT_PROTO, HST.ERR_CNT_BOOT, HST.XFER_COUNT]

/-! ### RSM (14_can_fd.md, R424) -/
def RSM.STN_IDX_STN : Fld := ⟨0x040, 0, 9, .rw, 0, 0, 1, .one, .upto 287⟩
def RSM.STN_CFG_EN : Fld := ⟨0x044, 0, 1, .rs, 0, 0, 1, .stnIdx, .any⟩
def RSM.STN_CFG_CTRL : Fld := ⟨0x044, 1, 2, .rs, 1, 0, 1, .stnIdx, .oneOf [0, 1, 3]⟩
def RSM.STN_CFG_IDE : Fld := ⟨0x044, 3, 1, .rs, 0, 0, 1, .stnIdx, .any⟩
def RSM.STN_CFG_LEN : Fld := ⟨0x044, 4, 7, .rs, 8, 0, 1, .stnIdx, .upto 64⟩
def RSM.STN_CFG_UPN : Fld := ⟨0x044, 12, 4, .rs, 2, 0, 1, .stnIdx, .any⟩
def RSM.STN_ID_ID : Fld := ⟨0x048, 0, 29, .rs, 0, 0, 1, .stnIdx, .any⟩
def RSM.STN_PER_MS : Fld := ⟨0x04C, 0, 9, .rs, 100, 0, 1, .stnIdx, .any⟩
def RSM.STN_ST_STATE : Fld := ⟨0x050, 0, 2, .ro, 0, 0, 1, .stnIdx, .any⟩
def RSM.STN_ST_MISS : Fld := ⟨0x050, 4, 2, .ro, 0, 0, 1, .stnIdx, .any⟩
def RSM.STN_ST_UPRUN : Fld := ⟨0x050, 8, 4, .ro, 0, 0, 1, .stnIdx, .any⟩
def RSM.STN_ST_DOWNS : Fld := ⟨0x050, 16, 16, .ro, 0, 0, 1, .stnIdx, .any⟩
def RSM.STN_FRAMES_COUNT : Fld := ⟨0x054, 0, 32, .ro, 0, 0, 1, .stnIdx, .any⟩
def RSM.STN_LAST_LO : Fld := ⟨0x058, 0, 32, .ro, 0, 0, 1, .stnIdx, .any⟩
def RSM.STN_LAST_HI : Fld := ⟨0x05C, 0, 32, .ro, 0, 0, 1, .stnIdx, .any⟩
def RSM.STN_SHORT_COUNT : Fld := ⟨0x060, 0, 16, .rc, 0, 0, 1, .stnIdx, .any⟩
def RSM.DOWN_BITS : Fld := ⟨0x080, 0, 32, .ro, 0, 4, 9, .one, .any⟩
def RSM.COUNT_UP : Fld := ⟨0x0A4, 0, 9, .ro, 0, 0, 1, .one, .any⟩
def RSM.COUNT_EN : Fld := ⟨0x0A4, 16, 9, .ro, 0, 0, 1, .one, .any⟩
/-- Every field of the RSM register table, in the table's order (14_can_fd.md). -/
def RSM.all : List Fld :=
  [RSM.STN_IDX_STN, RSM.STN_CFG_EN, RSM.STN_CFG_CTRL, RSM.STN_CFG_IDE, RSM.STN_CFG_LEN, RSM.STN_CFG_UPN, RSM.STN_ID_ID, RSM.STN_PER_MS, RSM.STN_ST_STATE, RSM.STN_ST_MISS, RSM.STN_ST_UPRUN, RSM.STN_ST_DOWNS, RSM.STN_FRAMES_COUNT, RSM.STN_LAST_LO, RSM.STN_LAST_HI, RSM.STN_SHORT_COUNT, RSM.DOWN_BITS, RSM.COUNT_UP, RSM.COUNT_EN]

/-! ### WIR (12_redundancy.md, R369) -/
def WIR.LEASE_VALID : Fld := ⟨0x040, 0, 1, .ro, 0, 0, 1, .one, .any⟩
def WIR.LEASE_HOLDER : Fld := ⟨0x040, 1, 1, .ro, 0, 0, 1, .one, .any⟩
def WIR.LEASE_WIN : Fld := ⟨0x040, 2, 1, .ro, 0, 0, 1, .one, .any⟩
def WIR.LEASE_EPOCH : Fld := ⟨0x040, 16, 16, .ro, 0, 0, 1, .one, .any⟩
def WIR.RENEW_COUNT : Fld := ⟨0x044, 0, 32, .ro, 0, 0, 1, .one, .any⟩
def WIR.LEASE_AGE : Fld := ⟨0x048, 0, 10, .ro, 0, 0, 1, .one, .any⟩
def WIR.GRANTS_COUNT : Fld := ⟨0x04C, 0, 16, .ro, 0, 0, 1, .one, .any⟩
def WIR.REFUSED_A : Fld := ⟨0x050, 0, 16, .rc, 0, 0, 1, .one, .any⟩
def WIR.REFUSED_B : Fld := ⟨0x050, 16, 16, .rc, 0, 0, 1, .one, .any⟩
def WIR.FENCE_LINES : Fld := ⟨0x054, 0, 2, .ro, 0, 0, 1, .one, .any⟩
def WIR.SAFE_NOHOLD : Fld := ⟨0x058, 0, 1, .ro, 1, 0, 1, .one, .any⟩
def WIR.LAST_GAP_US : Fld := ⟨0x05C, 0, 20, .ro, 0, 0, 1, .one, .any⟩
def WIR.OUT_DIG_BITS : Fld := ⟨0x060, 0, 16, .ro, 0, 0, 1, .one, .any⟩
def WIR.OUT_STP_BITS : Fld := ⟨0x064, 0, 12, .ro, 0, 0, 1, .one, .any⟩
def WIR.SAFE_CNT_COUNT : Fld := ⟨0x068, 0, 16, .rc, 0, 0, 1, .one, .any⟩
/-- Every field of the WIR register table, in the table's order (12_redundancy.md). -/
def WIR.all : List Fld :=
  [WIR.LEASE_VALID, WIR.LEASE_HOLDER, WIR.LEASE_WIN, WIR.LEASE_EPOCH, WIR.RENEW_COUNT, WIR.LEASE_AGE, WIR.GRANTS_COUNT, WIR.REFUSED_A, WIR.REFUSED_B, WIR.FENCE_LINES, WIR.SAFE_NOHOLD, WIR.LAST_GAP_US, WIR.OUT_DIG_BITS, WIR.OUT_STP_BITS, WIR.SAFE_CNT_COUNT]

/-! ### DIN (15_field_io.md, R452) -/
def DIN.GRP_TYPE : Fld := ⟨0x040, 0, 4, .rs, 0, 0, 1, .one, .any⟩
def DIN.GRP_LLF : Fld := ⟨0x040, 4, 4, .rs, 0, 0, 1, .one, .any⟩
def DIN.SUP_EN : Fld := ⟨0x044, 0, 4, .rs, 0, 0, 1, .one, .any⟩
def DIN.SUP_SHORT : Fld := ⟨0x044, 8, 4, .ro, 0, 0, 1, .one, .any⟩
def DIN.LEVEL_BITS : Fld := ⟨0x048, 0, 32, .ro, 0, 0, 1, .one, .any⟩
def DIN.RAW_BITS : Fld := ⟨0x04C, 0, 32, .ro, 0, 0, 1, .one, .any⟩
def DIN.RISE_BITS : Fld := ⟨0x050, 0, 32, .rc, 0, 0, 1, .one, .any⟩
def DIN.FALL_BITS : Fld := ⟨0x054, 0, 32, .rc, 0, 0, 1, .one, .any⟩
def DIN.CH_CFG_DEB : Fld := ⟨0x080, 0, 16, .rs, 0, 4, 32, .one, .any⟩
def DIN.CH_CFG_INV : Fld := ⟨0x080, 16, 1, .rs, 0, 4, 32, .one, .any⟩
/-- Every field of the DIN register table, in the table's order (15_field_io.md). -/
def DIN.all : List Fld :=
  [DIN.GRP_TYPE, DIN.GRP_LLF, DIN.SUP_EN, DIN.SUP_SHORT, DIN.LEVEL_BITS, DIN.RAW_BITS, DIN.RISE_BITS, DIN.FALL_BITS, DIN.CH_CFG_DEB, DIN.CH_CFG_INV]

/-! ### DOUT (15_field_io.md, R453) -/
def DOUT.GANG_MODE : Fld := ⟨0x040, 0, 8, .rs, 0, 0, 1, .one, .any⟩
def DOUT.SAFE_BITS : Fld := ⟨0x044, 0, 16, .rs, 0, 0, 1, .one, .any⟩
def DOUT.SILENCE_MS : Fld := ⟨0x048, 0, 10, .rs, 20, 0, 1, .one, .span 1 1000⟩
def DOUT.CLR_BITS : Fld := ⟨0x04C, 0, 16, .w1, 0, 0, 1, .one, .any⟩
def DOUT.OUT_BITS : Fld := ⟨0x050, 0, 16, .ro, 0, 0, 1, .one, .any⟩
def DOUT.RB_BITS : Fld := ⟨0x054, 0, 16, .ro, 0, 0, 1, .one, .any⟩
def DOUT.FLT_OL_BITS : Fld := ⟨0x058, 0, 16, .ro, 0, 0, 1, .one, .any⟩
def DOUT.FLT_OW_BITS : Fld := ⟨0x05C, 0, 16, .ro, 0, 0, 1, .one, .any⟩
def DOUT.FLT_OT_BITS : Fld := ⟨0x060, 0, 16, .ro, 0, 0, 1, .one, .any⟩
def DOUT.FLT_RB_LOW : Fld := ⟨0x064, 0, 16, .ro, 0, 0, 1, .one, .any⟩
def DOUT.FLT_RB_HIGH : Fld := ⟨0x064, 16, 16, .ro, 0, 0, 1, .one, .any⟩
def DOUT.STATE_CAUSE : Fld := ⟨0x068, 0, 3, .ro, 1, 0, 1, .one, .any⟩
def DOUT.STATE_VF0_LOW : Fld := ⟨0x068, 3, 1, .ro, 0, 0, 1, .one, .any⟩
def DOUT.STATE_VF1_LOW : Fld := ⟨0x068, 4, 1, .ro, 0, 0, 1, .one, .any⟩
def DOUT.VF_MV0 : Fld := ⟨0x06C, 0, 16, .ro, 0, 0, 1, .one, .any⟩
def DOUT.VF_MV1 : Fld := ⟨0x06C, 16, 16, .ro, 0, 0, 1, .one, .any⟩
def DOUT.CH_CFG_OW_MA : Fld := ⟨0x080, 0, 6, .rs, 0, 4, 16, .one, .upto 50⟩
def DOUT.CH_CFG_LATCH : Fld := ⟨0x080, 8, 1, .rs, 0, 4, 16, .one, .any⟩
def DOUT.CH_I_MA : Fld := ⟨0x0C0, 0, 16, .ro, 0, 4, 16, .one, .any⟩
/-- Every field of the DOUT register table, in the table's order (15_field_io.md). -/
def DOUT.all : List Fld :=
  [DOUT.GANG_MODE, DOUT.SAFE_BITS, DOUT.SILENCE_MS, DOUT.CLR_BITS, DOUT.OUT_BITS, DOUT.RB_BITS, DOUT.FLT_OL_BITS, DOUT.FLT_OW_BITS, DOUT.FLT_OT_BITS, DOUT.FLT_RB_LOW, DOUT.FLT_RB_HIGH, DOUT.STATE_CAUSE, DOUT.STATE_VF0_LOW, DOUT.STATE_VF1_LOW, DOUT.VF_MV0, DOUT.VF_MV1, DOUT.CH_CFG_OW_MA, DOUT.CH_CFG_LATCH, DOUT.CH_I_MA]

/-! ### AIN (15_field_io.md, R454) -/
def AIN.CH_CFG_EN : Fld := ⟨0x040, 0, 1, .rs, 0, 32, 8, .one, .any⟩
def AIN.CH_CFG_PWR : Fld := ⟨0x040, 1, 1, .rs, 0, 32, 8, .one, .any⟩
def AIN.CH_CFG_FILT : Fld := ⟨0x040, 2, 3, .rs, 0, 32, 8, .one, .any⟩
def AIN.CH_CFG_ALM_EN : Fld := ⟨0x040, 5, 1, .rs, 0, 32, 8, .one, .any⟩
def AIN.ALM_LO_UA : Fld := ⟨0x044, 0, 16, .rs, 4000, 32, 8, .one, .any⟩
def AIN.ALM_HI_UA : Fld := ⟨0x048, 0, 16, .rs, 20000, 32, 8, .one, .any⟩
def AIN.CH_RAW_CODE : Fld := ⟨0x04C, 0, 16, .ro, 0, 32, 8, .one, .any⟩
def AIN.CH_UA_UA : Fld := ⟨0x050, 0, 16, .ro, 0, 32, 8, .one, .any⟩
def AIN.CH_ST_CLASS : Fld := ⟨0x054, 0, 3, .ro, 3, 32, 8, .one, .any⟩
def AIN.CH_ST_SHORT : Fld := ⟨0x054, 3, 1, .ro, 0, 32, 8, .one, .any⟩
def AIN.CH_ST_OPEN : Fld := ⟨0x054, 4, 1, .ro, 0, 32, 8, .one, .any⟩
def AIN.CH_ST_BELOW : Fld := ⟨0x054, 5, 1, .ro, 0, 32, 8, .one, .any⟩
def AIN.CH_ST_ABOVE : Fld := ⟨0x054, 6, 1, .ro, 0, 32, 8, .one, .any⟩
/-- Every field of the AIN register table, in the table's order (15_field_io.md). -/
def AIN.all : List Fld :=
  [AIN.CH_CFG_EN, AIN.CH_CFG_PWR, AIN.CH_CFG_FILT, AIN.CH_CFG_ALM_EN, AIN.ALM_LO_UA, AIN.ALM_HI_UA, AIN.CH_RAW_CODE, AIN.CH_UA_UA, AIN.CH_ST_CLASS, AIN.CH_ST_SHORT, AIN.CH_ST_OPEN, AIN.CH_ST_BELOW, AIN.CH_ST_ABOVE]

/-! ### AOUT (15_field_io.md, R455) -/
def AOUT.CH_CFG_EN : Fld := ⟨0x040, 0, 1, .rs, 0, 32, 4, .one, .any⟩
def AOUT.CH_CFG_ALM_SRC : Fld := ⟨0x040, 1, 1, .rs, 0, 32, 4, .one, .any⟩
def AOUT.CH_CFG_ALM_REG : Fld := ⟨0x040, 2, 1, .rs, 0, 32, 4, .one, .any⟩
def AOUT.CH_CFG_SAFE_MODE : Fld := ⟨0x040, 3, 1, .rs, 0, 32, 4, .one, .any⟩
def AOUT.CH_SAFE_UA : Fld := ⟨0x044, 0, 16, .rs, 3800, 32, 4, .one, .within 3500 21750⟩
def AOUT.CH_TGT_UA : Fld := ⟨0x048, 0, 16, .ro, 3500, 32, 4, .one, .any⟩
def AOUT.CH_MEAS_UA : Fld := ⟨0x04C, 0, 16, .ro, 0, 32, 4, .one, .any⟩
def AOUT.CH_UT_MV : Fld := ⟨0x050, 0, 16, .ro, 0, 32, 4, .one, .any⟩
def AOUT.CH_ST_COMPLIANCE : Fld := ⟨0x054, 0, 1, .ro, 0, 32, 4, .one, .any⟩
def AOUT.CH_ST_SAT : Fld := ⟨0x054, 1, 1, .ro, 0, 32, 4, .one, .any⟩
def AOUT.CH_ST_RSV_LOW : Fld := ⟨0x054, 2, 1, .ro, 0, 32, 4, .one, .any⟩
def AOUT.CH_ST_STALE : Fld := ⟨0x054, 3, 1, .ro, 0, 32, 4, .one, .any⟩
def AOUT.CH_ST_LINK : Fld := ⟨0x054, 4, 1, .ro, 0, 32, 4, .one, .any⟩
def AOUT.CH_ST_SAFE : Fld := ⟨0x054, 5, 1, .ro, 1, 32, 4, .one, .any⟩
def AOUT.CH_ST_ALARM : Fld := ⟨0x054, 6, 1, .ro, 0, 32, 4, .one, .any⟩
def AOUT.CH_ST_ALM_HIGH : Fld := ⟨0x054, 7, 1, .ro, 0, 32, 4, .one, .any⟩
def AOUT.CH_ST_CLIP : Fld := ⟨0x054, 8, 1, .ro, 0, 32, 4, .one, .any⟩
/-- Every field of the AOUT register table, in the table's order (15_field_io.md). -/
def AOUT.all : List Fld :=
  [AOUT.CH_CFG_EN, AOUT.CH_CFG_ALM_SRC, AOUT.CH_CFG_ALM_REG, AOUT.CH_CFG_SAFE_MODE, AOUT.CH_SAFE_UA, AOUT.CH_TGT_UA, AOUT.CH_MEAS_UA, AOUT.CH_UT_MV, AOUT.CH_ST_COMPLIANCE, AOUT.CH_ST_SAT, AOUT.CH_ST_RSV_LOW, AOUT.CH_ST_STALE, AOUT.CH_ST_LINK, AOUT.CH_ST_SAFE, AOUT.CH_ST_ALARM, AOUT.CH_ST_ALM_HIGH, AOUT.CH_ST_CLIP]

/-! ### TRM (15_field_io.md, R456) -/
def TRM.CFG_BTN_EN : Fld := ⟨0x040, 0, 1, .rs, 1, 0, 1, .one, .any⟩
def TRM.SEL_POINT : Fld := ⟨0x044, 0, 4, .rw, 0, 0, 1, .one, .upto 8⟩
def TRM.SEL_SRC : Fld := ⟨0x044, 4, 2, .ro, 0, 0, 1, .one, .any⟩
def TRM.BTN_LVL : Fld := ⟨0x048, 0, 3, .ro, 0, 0, 1, .one, .any⟩
def TRM.SEL_LEFT_S : Fld := ⟨0x04C, 0, 9, .ro, 0, 0, 1, .one, .any⟩
def TRM.AO_ZERO_U : Fld := ⟨0x060, 0, 16, .rs, 0, 8, 4, .one, .any⟩
def TRM.AO_SPAN_U : Fld := ⟨0x064, 0, 16, .rs, 0, 8, 4, .one, .any⟩
/-- Every field of the TRM register table, in the table's order (15_field_io.md). -/
def TRM.all : List Fld :=
  [TRM.CFG_BTN_EN, TRM.SEL_POINT, TRM.SEL_SRC, TRM.BTN_LVL, TRM.SEL_LEFT_S, TRM.AO_ZERO_U, TRM.AO_SPAN_U]

/-! ### SFC (09_safety_architecture.md, R275) -/
def SFC.STATE_CODE : Fld := ⟨0x040, 0, 3, .ro, 0, 0, 1, .one, .any⟩
def SFC.STATE_MODE : Fld := ⟨0x040, 3, 1, .ro, 0, 0, 1, .one, .any⟩
def SFC.STATE_SEAL_EN : Fld := ⟨0x040, 4, 1, .ro, 0, 0, 1, .one, .any⟩
def SFC.STATE_SEAL_MATCH : Fld := ⟨0x040, 5, 1, .ro, 0, 0, 1, .one, .any⟩
def SFC.STATE_SEAL_SW : Fld := ⟨0x040, 16, 16, .ro, 0, 0, 1, .one, .any⟩
def SFC.BLOCK_ID_ID : Fld := ⟨0x044, 0, 32, .ro, 0, 0, 1, .one, .any⟩
def SFC.BLOCK_CRC_CODE : Fld := ⟨0x048, 0, 16, .ro, 0, 0, 1, .one, .any⟩
def SFC.BLOCK_TS_LO : Fld := ⟨0x04C, 0, 32, .ro, 0, 0, 1, .one, .any⟩
def SFC.BLOCK_TS_HI : Fld := ⟨0x050, 0, 32, .ro, 0, 0, 1, .one, .any⟩
def SFC.CFG_CARS : Fld := ⟨0x054, 0, 4, .ro, 0, 0, 1, .one, .any⟩
def SFC.CFG_SEP_PAIRS : Fld := ⟨0x054, 4, 3, .ro, 0, 0, 1, .one, .any⟩
def SFC.CFG_DDECK : Fld := ⟨0x054, 8, 4, .ro, 0, 0, 1, .one, .any⟩
def SFC.PERMIT_MOTION : Fld := ⟨0x058, 0, 4, .ro, 0, 0, 1, .one, .any⟩
def SFC.PERMIT_RESCUE : Fld := ⟨0x058, 4, 4, .ro, 0, 0, 1, .one, .any⟩
def SFC.STOPS_CAT1 : Fld := ⟨0x05C, 0, 4, .ro, 0, 0, 1, .one, .any⟩
def SFC.STOPS_CAT0 : Fld := ⟨0x05C, 4, 4, .ro, 0, 0, 1, .one, .any⟩
def SFC.STOPS_PAIR_FLT : Fld := ⟨0x05C, 8, 8, .ro, 0, 0, 1, .one, .any⟩
def SFC.CAR_WHY_BITS : Fld := ⟨0x060, 0, 12, .ro, 1, 4, 4, .one, .any⟩
def SFC.HB_COUNT : Fld := ⟨0x070, 0, 32, .ro, 0, 0, 1, .one, .any⟩
def SFC.FAULT_CODE : Fld := ⟨0x074, 0, 8, .ro, 0, 0, 1, .one, .any⟩
def SFC.FAULT_DETAIL : Fld := ⟨0x074, 8, 24, .ro, 0, 0, 1, .one, .any⟩
/-- Every field of the SFC register table, in the table's order (09_safety_architecture.md). -/
def SFC.all : List Fld :=
  [SFC.STATE_CODE, SFC.STATE_MODE, SFC.STATE_SEAL_EN, SFC.STATE_SEAL_MATCH, SFC.STATE_SEAL_SW, SFC.BLOCK_ID_ID, SFC.BLOCK_CRC_CODE, SFC.BLOCK_TS_LO, SFC.BLOCK_TS_HI, SFC.CFG_CARS, SFC.CFG_SEP_PAIRS, SFC.CFG_DDECK, SFC.PERMIT_MOTION, SFC.PERMIT_RESCUE, SFC.STOPS_CAT1, SFC.STOPS_CAT0, SFC.STOPS_PAIR_FLT, SFC.CAR_WHY_BITS, SFC.HB_COUNT, SFC.FAULT_CODE, SFC.FAULT_DETAIL]

/-! ### SMB (09_safety_architecture.md, R276) -/
def SMB.REQ_OP_OP : Fld := ⟨0x040, 0, 8, .rw, 0, 0, 1, .one, .any⟩
def SMB.REQ_ARG0_V : Fld := ⟨0x044, 0, 32, .rw, 0, 0, 1, .one, .any⟩
def SMB.REQ_ARG1_V : Fld := ⟨0x048, 0, 32, .rw, 0, 0, 1, .one, .any⟩
def SMB.REQ_TAG_TAG : Fld := ⟨0x04C, 0, 16, .rw, 0, 0, 1, .one, .any⟩
def SMB.REQ_GO_GO : Fld := ⟨0x050, 0, 1, .w1, 0, 0, 1, .one, .any⟩
def SMB.REP_STATE : Fld := ⟨0x054, 0, 3, .ro, 0, 0, 1, .one, .any⟩
def SMB.REP_REASON : Fld := ⟨0x054, 8, 8, .ro, 0, 0, 1, .one, .any⟩
def SMB.REP_TAG : Fld := ⟨0x054, 16, 16, .ro, 0, 0, 1, .one, .any⟩
def SMB.REP_DATA0 : Fld := ⟨0x058, 0, 32, .ro, 0, 0, 1, .one, .any⟩
def SMB.REP_DATA1 : Fld := ⟨0x05C, 0, 32, .ro, 0, 0, 1, .one, .any⟩
/-- Every field of the SMB register table, in the table's order (09_safety_architecture.md). -/
def SMB.all : List Fld :=
  [SMB.REQ_OP_OP, SMB.REQ_ARG0_V, SMB.REQ_ARG1_V, SMB.REQ_TAG_TAG, SMB.REQ_GO_GO, SMB.REP_STATE, SMB.REP_REASON, SMB.REP_TAG, SMB.REP_DATA0, SMB.REP_DATA1]

/-! ### THS (09_safety_architecture.md, R277) -/
def THS.MODE_NATIVE : Fld := ⟨0x040, 0, 1, .ro, 0, 0, 1, .one, .any⟩
def THS.MODE_FOLLOWER : Fld := ⟨0x040, 1, 1, .ro, 0, 0, 1, .one, .any⟩
def THS.MODE_HB_OK : Fld := ⟨0x040, 2, 1, .ro, 0, 0, 1, .one, .any⟩
def THS.MODE_BLOCK_OK : Fld := ⟨0x040, 3, 1, .ro, 0, 0, 1, .one, .any⟩
def THS.MODE_SO_LS : Fld := ⟨0x040, 8, 8, .ro, 0, 0, 1, .one, .any⟩
def THS.IN_CH : Fld := ⟨0x044, 0, 16, .ro, 0, 0, 1, .one, .any⟩
def THS.IN_PAIR_ACT : Fld := ⟨0x044, 16, 8, .ro, 0, 0, 1, .one, .any⟩
def THS.IN_PAIR_FLT : Fld := ⟨0x044, 24, 8, .ro, 0, 0, 1, .one, .any⟩
def THS.TP_LVL : Fld := ⟨0x048, 0, 4, .ro, 0, 0, 1, .one, .any⟩
def THS.TP_OVL : Fld := ⟨0x048, 4, 4, .ro, 0, 0, 1, .one, .any⟩
def THS.TP_BLANK : Fld := ⟨0x048, 8, 4, .ro, 0, 0, 1, .one, .any⟩
def THS.CARS_TRIP : Fld := ⟨0x04C, 0, 4, .ro, 0, 0, 1, .one, .any⟩
def THS.CARS_BRIDGED : Fld := ⟨0x04C, 4, 4, .ro, 0, 0, 1, .one, .any⟩
def THS.CARS_DOOR_PERMIT : Fld := ⟨0x04C, 8, 4, .ro, 0, 0, 1, .one, .any⟩
def THS.CARS_T_GOOD : Fld := ⟨0x04C, 12, 4, .ro, 0, 0, 1, .one, .any⟩
def THS.CAR_XT_UM : Fld := ⟨0x060, 0, 32, .ro, 0, 32, 4, .one, .any⟩
def THS.CAR_VT_UMS : Fld := ⟨0x064, 0, 32, .ro, 0, 32, 4, .one, .any⟩
def THS.CAR_ST_CAUSE : Fld := ⟨0x068, 0, 4, .ro, 0, 32, 4, .one, .any⟩
def THS.CAR_ST_LAND : Fld := ⟨0x068, 8, 8, .ro, 255, 32, 4, .one, .any⟩
def THS.CAR_ST_BIN : Fld := ⟨0x068, 16, 6, .ro, 0, 32, 4, .one, .any⟩
def THS.CAR_TRIP_TS_LO : Fld := ⟨0x06C, 0, 32, .ro, 0, 32, 4, .one, .any⟩
def THS.CAR_TRIP_TS_HI : Fld := ⟨0x070, 0, 32, .ro, 0, 32, 4, .one, .any⟩
def THS.CAR_TBAD_COUNT : Fld := ⟨0x074, 0, 16, .ro, 0, 32, 4, .one, .any⟩
def THS.PR_GAP_UM : Fld := ⟨0x0E0, 0, 32, .ro, 0, 16, 3, .one, .any⟩
def THS.PR_THR_UM : Fld := ⟨0x0E4, 0, 32, .ro, 0, 16, 3, .one, .any⟩
def THS.PR_ST_TRIP : Fld := ⟨0x0E8, 0, 1, .ro, 0, 16, 3, .one, .any⟩
/-- Every field of the THS register table, in the table's order (09_safety_architecture.md). -/
def THS.all : List Fld :=
  [THS.MODE_NATIVE, THS.MODE_FOLLOWER, THS.MODE_HB_OK, THS.MODE_BLOCK_OK, THS.MODE_SO_LS, THS.IN_CH, THS.IN_PAIR_ACT, THS.IN_PAIR_FLT, THS.TP_LVL, THS.TP_OVL, THS.TP_BLANK, THS.CARS_TRIP, THS.CARS_BRIDGED, THS.CARS_DOOR_PERMIT, THS.CARS_T_GOOD, THS.CAR_XT_UM, THS.CAR_VT_UMS, THS.CAR_ST_CAUSE, THS.CAR_ST_LAND, THS.CAR_ST_BIN, THS.CAR_TRIP_TS_LO, THS.CAR_TRIP_TS_HI, THS.CAR_TBAD_COUNT, THS.PR_GAP_UM, THS.PR_THR_UM, THS.PR_ST_TRIP]

/-! ### SIO (09_safety_architecture.md, R278) -/
def SIO.TP_PER_MS : Fld := ⟨0x040, 0, 8, .ro, 0, 0, 1, .one, .any⟩
def SIO.TP_SETTLE_US : Fld := ⟨0x040, 16, 16, .ro, 0, 0, 1, .one, .any⟩
def SIO.TPW01_W0 : Fld := ⟨0x044, 0, 16, .ro, 0, 0, 1, .one, .any⟩
def SIO.TPW01_W1 : Fld := ⟨0x044, 16, 16, .ro, 0, 0, 1, .one, .any⟩
def SIO.TPW23_W2 : Fld := ⟨0x048, 0, 16, .ro, 0, 0, 1, .one, .any⟩
def SIO.TPW23_W3 : Fld := ⟨0x048, 16, 16, .ro, 0, 0, 1, .one, .any⟩
def SIO.PR_CFG_FUNC : Fld := ⟨0x050, 0, 4, .ro, 0, 4, 8, .one, .any⟩
def SIO.PR_CFG_MODE : Fld := ⟨0x050, 4, 2, .ro, 0, 4, 8, .one, .any⟩
def SIO.PR_CFG_TP_A : Fld := ⟨0x050, 6, 3, .ro, 0, 4, 8, .one, .any⟩
def SIO.PR_CFG_TP_B : Fld := ⟨0x050, 9, 3, .ro, 0, 4, 8, .one, .any⟩
def SIO.PR_CFG_CARS : Fld := ⟨0x050, 12, 4, .ro, 0, 4, 8, .one, .any⟩
def SIO.PR_CFG_LAND_LO : Fld := ⟨0x050, 16, 8, .ro, 0, 4, 8, .one, .any⟩
def SIO.PR_CFG_LAND_HI : Fld := ⟨0x050, 24, 8, .ro, 0, 4, 8, .one, .any⟩
def SIO.PR_DIAG_DISC : Fld := ⟨0x070, 0, 8, .rc, 0, 4, 8, .one, .any⟩
def SIO.PR_DIAG_STUCK : Fld := ⟨0x070, 8, 8, .rc, 0, 4, 8, .one, .any⟩
def SIO.PR_DIAG_CROSS : Fld := ⟨0x070, 16, 8, .rc, 0, 4, 8, .one, .any⟩
def SIO.SO_CFG_FUNC : Fld := ⟨0x100, 0, 2, .ro, 0, 16, 8, .one, .any⟩
def SIO.SO_CFG_CAR : Fld := ⟨0x100, 4, 2, .ro, 0, 16, 8, .one, .any⟩
def SIO.SO_ST_HS : Fld := ⟨0x104, 0, 1, .ro, 0, 16, 8, .one, .any⟩
def SIO.SO_ST_LS : Fld := ⟨0x104, 1, 1, .ro, 0, 16, 8, .one, .any⟩
def SIO.SO_ST_FCODE : Fld := ⟨0x104, 4, 4, .ro, 0, 16, 8, .one, .any⟩
def SIO.SO_RB_VP : Fld := ⟨0x108, 0, 16, .ro, 0, 16, 8, .one, .any⟩
def SIO.SO_RB_VN : Fld := ⟨0x108, 16, 16, .ro, 0, 16, 8, .one, .any⟩
def SIO.SO_RB_I : Fld := ⟨0x10C, 0, 16, .ro, 0, 16, 8, .one, .any⟩
def SIO.SO_OT_HOURS : Fld := ⟨0x10C, 16, 16, .ro, 0, 16, 8, .one, .any⟩
def SIO.CAR_RUN_STO_ON : Fld := ⟨0x180, 0, 1, .ro, 0, 16, 4, .one, .any⟩
def SIO.CAR_RUN_BRK_ON : Fld := ⟨0x180, 1, 1, .ro, 0, 16, 4, .one, .any⟩
def SIO.CAR_RUN_DEG : Fld := ⟨0x180, 2, 1, .ro, 0, 16, 4, .one, .any⟩
def SIO.CAR_RUN_S1 : Fld := ⟨0x180, 3, 1, .ro, 0, 16, 4, .one, .any⟩
def SIO.CAR_RUN_OT_DUE : Fld := ⟨0x180, 4, 1, .ro, 0, 16, 4, .one, .any⟩
def SIO.CAR_RUN_CAUSE : Fld := ⟨0x180, 8, 8, .ro, 21, 16, 4, .one, .any⟩
def SIO.CAR_DEG_LEFT_MS : Fld := ⟨0x184, 0, 32, .ro, 0, 16, 4, .one, .any⟩
def SIO.CAR_ENV_UMS : Fld := ⟨0x188, 0, 32, .ro, 0, 16, 4, .one, .any⟩
/-- Every field of the SIO register table, in the table's order (09_safety_architecture.md). -/
def SIO.all : List Fld :=
  [SIO.TP_PER_MS, SIO.TP_SETTLE_US, SIO.TPW01_W0, SIO.TPW01_W1, SIO.TPW23_W2, SIO.TPW23_W3, SIO.PR_CFG_FUNC, SIO.PR_CFG_MODE, SIO.PR_CFG_TP_A, SIO.PR_CFG_TP_B, SIO.PR_CFG_CARS, SIO.PR_CFG_LAND_LO, SIO.PR_CFG_LAND_HI, SIO.PR_DIAG_DISC, SIO.PR_DIAG_STUCK, SIO.PR_DIAG_CROSS, SIO.SO_CFG_FUNC, SIO.SO_CFG_CAR, SIO.SO_ST_HS, SIO.SO_ST_LS, SIO.SO_ST_FCODE, SIO.SO_RB_VP, SIO.SO_RB_VN, SIO.SO_RB_I, SIO.SO_OT_HOURS, SIO.CAR_RUN_STO_ON, SIO.CAR_RUN_BRK_ON, SIO.CAR_RUN_DEG, SIO.CAR_RUN_S1, SIO.CAR_RUN_OT_DUE, SIO.CAR_RUN_CAUSE, SIO.CAR_DEG_LEFT_MS, SIO.CAR_ENV_UMS]

/-! ### SPB (09_safety_architecture.md, R279) -/
def SPB.ADDR_WORD : Fld := ⟨0x040, 0, 12, .pv, 0, 0, 1, .one, .upto 3391⟩
def SPB.DATA_WORD : Fld := ⟨0x044, 0, 32, .pv, 0, 0, 1, .spbAddr, .any⟩
def SPB.CMD_OP : Fld := ⟨0x048, 0, 3, .pv, 0, 0, 1, .one, .any⟩
def SPB.STATUS_STATE : Fld := ⟨0x04C, 0, 3, .ro, 0, 0, 1, .one, .any⟩
def SPB.STATUS_REASON : Fld := ⟨0x04C, 8, 8, .ro, 0, 0, 1, .one, .any⟩
def SPB.STATUS_DETAIL : Fld := ⟨0x04C, 16, 16, .ro, 0, 0, 1, .one, .any⟩
def SPB.CAND_ID_ID : Fld := ⟨0x050, 0, 32, .ro, 0, 0, 1, .one, .any⟩
/-- Every field of the SPB register table, in the table's order (09_safety_architecture.md). -/
def SPB.all : List Fld :=
  [SPB.ADDR_WORD, SPB.DATA_WORD, SPB.CMD_OP, SPB.STATUS_STATE, SPB.STATUS_REASON, SPB.STATUS_DETAIL, SPB.CAND_ID_ID]

/-! ### CFG (02_register_conventions.md, R72) -/
def CFG.CMD_OP : Fld := ⟨0x040, 0, 2, .pv, 0, 0, 1, .one, .any⟩
def CFG.SAVE_ST_STATE : Fld := ⟨0x044, 0, 3, .ro, 0, 0, 1, .one, .any⟩
def CFG.SAVE_ST_REASON : Fld := ⟨0x044, 8, 8, .ro, 0, 0, 1, .one, .any⟩
def CFG.GEN_COMMITTED : Fld := ⟨0x048, 0, 32, .ro, 0, 0, 1, .one, .any⟩
def CFG.GEN_BOOTED : Fld := ⟨0x04C, 0, 32, .ro, 0, 0, 1, .one, .any⟩
def CFG.GEN_TS_LO : Fld := ⟨0x050, 0, 32, .ro, 0, 0, 1, .one, .any⟩
def CFG.GEN_TS_HI : Fld := ⟨0x054, 0, 32, .ro, 0, 0, 1, .one, .any⟩
def CFG.GEN_CRC_CRC : Fld := ⟨0x058, 0, 32, .ro, 0, 0, 1, .one, .any⟩
def CFG.GEN_LEN_BYTES : Fld := ⟨0x05C, 0, 25, .ro, 0, 0, 1, .one, .any⟩
def CFG.AREA_VALID_A : Fld := ⟨0x060, 0, 1, .ro, 0, 0, 1, .one, .any⟩
def CFG.AREA_VALID_B : Fld := ⟨0x060, 1, 1, .ro, 0, 0, 1, .one, .any⟩
def CFG.RD_SEL_AREA : Fld := ⟨0x064, 0, 1, .rw, 0, 0, 1, .one, .any⟩
def CFG.RD_ADDR_WORD : Fld := ⟨0x068, 0, 22, .rw, 0, 0, 1, .one, .any⟩
def CFG.RD_DATA_WORD : Fld := ⟨0x06C, 0, 32, .ro, 0, 0, 1, .cfgRd, .any⟩
def CFG.BOOT_FAIL_PAGE : Fld := ⟨0x070, 0, 16, .ro, 65535, 0, 1, .one, .any⟩
/-- Every field of the CFG register table, in the table's order (02_register_conventions.md). -/
def CFG.all : List Fld :=
  [CFG.CMD_OP, CFG.SAVE_ST_STATE, CFG.SAVE_ST_REASON, CFG.GEN_COMMITTED, CFG.GEN_BOOTED, CFG.GEN_TS_LO, CFG.GEN_TS_HI, CFG.GEN_CRC_CRC, CFG.GEN_LEN_BYTES, CFG.AREA_VALID_A, CFG.AREA_VALID_B, CFG.RD_SEL_AREA, CFG.RD_ADDR_WORD, CFG.RD_DATA_WORD, CFG.BOOT_FAIL_PAGE]

/-! ### RTC (16_rtc.md, R474) -/
def RTC.NOW_LO : Fld := ⟨0x040, 0, 32, .ro, 0, 0, 1, .one, .any⟩
def RTC.NOW_HI : Fld := ⟨0x044, 0, 32, .ro, 0, 0, 1, .one, .any⟩
def RTC.CAPTURE_GO : Fld := ⟨0x048, 0, 1, .w1, 0, 0, 1, .one, .any⟩
def RTC.CAP_LO : Fld := ⟨0x04C, 0, 32, .ro, 0, 0, 1, .one, .any⟩
def RTC.CAP_HI : Fld := ⟨0x050, 0, 32, .ro, 0, 0, 1, .one, .any⟩
def RTC.CAP_CAL0 : Fld := ⟨0x054, 0, 32, .ro, 0, 0, 1, .one, .any⟩
def RTC.CAP_CAL1 : Fld := ⟨0x058, 0, 32, .ro, 0, 0, 1, .one, .any⟩
def RTC.SET_LO : Fld := ⟨0x05C, 0, 32, .rw, 0, 0, 1, .one, .any⟩
def RTC.SET_HI : Fld := ⟨0x060, 0, 32, .rw, 0, 0, 1, .one, .any⟩
def RTC.SET_CMD_GO : Fld := ⟨0x064, 0, 1, .pv, 0, 0, 1, .one, .any⟩
def RTC.SET_CMD_SYNC : Fld := ⟨0x064, 1, 1, .pv, 0, 0, 1, .one, .any⟩
def RTC.SET_CMD_CANCEL : Fld := ⟨0x064, 2, 1, .pv, 0, 0, 1, .one, .any⟩
def RTC.SET_ST_STATE : Fld := ⟨0x068, 0, 2, .ro, 0, 0, 1, .one, .any⟩
def RTC.SET_ST_REASON : Fld := ⟨0x068, 8, 8, .ro, 0, 0, 1, .one, .any⟩
def RTC.TRIM_PPB : Fld := ⟨0x06C, 0, 32, .rs, 0, 0, 1, .one, .any⟩
def RTC.CHG_EN : Fld := ⟨0x070, 0, 1, .pv, 0, 0, 1, .one, .any⟩
def RTC.CHG_RSEL : Fld := ⟨0x070, 1, 2, .pv, 0, 0, 1, .one, .upto 2⟩
def RTC.CHG_LIM : Fld := ⟨0x070, 3, 1, .pv, 0, 0, 1, .one, .any⟩
def RTC.STATUS_BITS : Fld := ⟨0x074, 0, 6, .ro, 0, 0, 1, .one, .any⟩
def RTC.BAT_MV : Fld := ⟨0x078, 0, 16, .ro, 0, 0, 1, .one, .any⟩
def RTC.ALM_LO : Fld := ⟨0x080, 0, 32, .rs, 0, 16, 4, .one, .any⟩
def RTC.ALM_HI : Fld := ⟨0x084, 0, 32, .rs, 0, 16, 4, .one, .any⟩
def RTC.ALM_PER_S : Fld := ⟨0x088, 0, 32, .rs, 0, 16, 4, .one, .any⟩
def RTC.ALM_CTL_ARM : Fld := ⟨0x08C, 0, 1, .rs, 0, 16, 4, .one, .any⟩
def RTC.ALM_CTL_REARM : Fld := ⟨0x08C, 1, 1, .rs, 0, 16, 4, .one, .any⟩
def RTC.ALM_ST_ARMED : Fld := ⟨0x0C0, 0, 1, .ro, 0, 4, 4, .one, .any⟩
def RTC.ALM_ST_FIRED : Fld := ⟨0x0C0, 1, 1, .rc, 0, 4, 4, .one, .any⟩
def RTC.ALM_ST_SKIPPED : Fld := ⟨0x0C0, 2, 1, .rc, 0, 4, 4, .one, .any⟩
/-- Every field of the RTC register table, in the table's order (16_rtc.md). -/
def RTC.all : List Fld :=
  [RTC.NOW_LO, RTC.NOW_HI, RTC.CAPTURE_GO, RTC.CAP_LO, RTC.CAP_HI, RTC.CAP_CAL0, RTC.CAP_CAL1, RTC.SET_LO, RTC.SET_HI, RTC.SET_CMD_GO, RTC.SET_CMD_SYNC, RTC.SET_CMD_CANCEL, RTC.SET_ST_STATE, RTC.SET_ST_REASON, RTC.TRIM_PPB, RTC.CHG_EN, RTC.CHG_RSEL, RTC.CHG_LIM, RTC.STATUS_BITS, RTC.BAT_MV, RTC.ALM_LO, RTC.ALM_HI, RTC.ALM_PER_S, RTC.ALM_CTL_ARM, RTC.ALM_CTL_REARM, RTC.ALM_ST_ARMED, RTC.ALM_ST_FIRED, RTC.ALM_ST_SKIPPED]

/-! ### CAL (16_rtc.md, R474) -/
def CAL.NOW0_SEC : Fld := ⟨0x040, 0, 6, .ro, 0, 0, 1, .one, .any⟩
def CAL.NOW0_MIN : Fld := ⟨0x040, 8, 6, .ro, 0, 0, 1, .one, .any⟩
def CAL.NOW0_HOUR : Fld := ⟨0x040, 16, 5, .ro, 0, 0, 1, .one, .any⟩
def CAL.NOW0_WDAY : Fld := ⟨0x040, 24, 3, .ro, 0, 0, 1, .one, .any⟩
def CAL.NOW1_DAY : Fld := ⟨0x044, 0, 5, .ro, 0, 0, 1, .one, .any⟩
def CAL.NOW1_MONTH : Fld := ⟨0x044, 8, 4, .ro, 0, 0, 1, .one, .any⟩
def CAL.NOW1_YEAR : Fld := ⟨0x044, 16, 16, .ro, 0, 0, 1, .one, .any⟩
def CAL.SETV0 : Fld := ⟨0x048, 0, 32, .rs, 0, 0, 1, .one, .any⟩
def CAL.SETV1 : Fld := ⟨0x04C, 0, 32, .rs, 0, 0, 1, .one, .any⟩
def CAL.CMD_SYNC : Fld := ⟨0x050, 0, 1, .w1, 0, 0, 1, .one, .any⟩
/-- Every field of the CAL register table, in the table's order (16_rtc.md). -/
def CAL.all : List Fld :=
  [CAL.NOW0_SEC, CAL.NOW0_MIN, CAL.NOW0_HOUR, CAL.NOW0_WDAY, CAL.NOW1_DAY, CAL.NOW1_MONTH, CAL.NOW1_YEAR, CAL.SETV0, CAL.SETV1, CAL.CMD_SYNC]

/-! ### SLT (17_silt_recorder.md, R494) -/
def SLT.CFG_FULL_MODE : Fld := ⟨0x040, 0, 1, .pv, 0, 0, 1, .one, .any⟩
def SLT.CFG_WARN_PCT : Fld := ⟨0x040, 8, 7, .pv, 90, 0, 1, .one, .span 1 100⟩
def SLT.STATE_CODE : Fld := ⟨0x044, 0, 2, .ro, 0, 0, 1, .one, .any⟩
def SLT.STATE_VFY : Fld := ⟨0x044, 2, 1, .ro, 0, 0, 1, .one, .any⟩
def SLT.OLDEST_LO : Fld := ⟨0x048, 0, 32, .ro, 0, 0, 1, .one, .any⟩
def SLT.OLDEST_HI : Fld := ⟨0x04C, 0, 32, .ro, 0, 0, 1, .one, .any⟩
def SLT.NEWEST_LO : Fld := ⟨0x050, 0, 32, .ro, 0, 0, 1, .one, .any⟩
def SLT.NEWEST_HI : Fld := ⟨0x054, 0, 32, .ro, 0, 0, 1, .one, .any⟩
def SLT.NEXT_SEQ_SEQ : Fld := ⟨0x058, 0, 32, .ro, 0, 0, 1, .one, .any⟩
def SLT.FILL_PCT : Fld := ⟨0x05C, 0, 7, .ro, 0, 0, 1, .one, .any⟩
def SLT.PAGES_TOTAL : Fld := ⟨0x060, 0, 32, .ro, 0x180000, 0, 1, .one, .any⟩
def SLT.LOST_UNPROT : Fld := ⟨0x064, 0, 16, .rc, 0, 0, 1, .one, .any⟩
def SLT.LOST_PROT : Fld := ⟨0x064, 16, 16, .rc, 0, 0, 1, .one, .any⟩
def SLT.QUEUE_USED : Fld := ⟨0x068, 0, 13, .ro, 0, 0, 1, .one, .any⟩
def SLT.CLEAR_CNT_N : Fld := ⟨0x06C, 0, 32, .ro, 0, 0, 1, .one, .any⟩
def SLT.SEAL : Fld := ⟨0x070, 0, 32, .ro, 0, 4, 4, .one, .any⟩
def SLT.ANCHOR : Fld := ⟨0x080, 0, 32, .ro, 0, 4, 4, .one, .any⟩
def SLT.CAPTURE_GO : Fld := ⟨0x090, 0, 1, .w1, 0, 0, 1, .one, .any⟩
def SLT.POST_ADDR_ADDR : Fld := ⟨0x0A0, 0, 32, .rw, 0, 0, 1, .grp, .any⟩
def SLT.POST_LEN_N : Fld := ⟨0x0A4, 0, 13, .rw, 0, 0, 1, .grp, .upto 4072⟩
def SLT.POST_CODE_CODE : Fld := ⟨0x0A4, 16, 8, .rw, 0, 0, 1, .grp, .any⟩
def SLT.POST_DETAIL_D : Fld := ⟨0x0A8, 0, 16, .rw, 0, 0, 1, .grp, .any⟩
def SLT.POST_GO_GO : Fld := ⟨0x0AC, 0, 1, .w1, 0, 0, 1, .grp, .any⟩
def SLT.POST_ST_STATE : Fld := ⟨0x0B0, 0, 3, .ro, 0, 0, 1, .grp, .any⟩
def SLT.CUR_CMD_OP : Fld := ⟨0x0C0, 0, 3, .pv, 0, 0, 1, .grp, .any⟩
def SLT.CUR_ARG_SEQ : Fld := ⟨0x0C4, 0, 32, .pv, 0, 0, 1, .grp, .any⟩
def SLT.CUR_ST_STATE : Fld := ⟨0x0C8, 0, 3, .ro, 0, 0, 1, .grp, .any⟩
def SLT.RD_H : Fld := ⟨0x0D0, 0, 32, .pv, 0, 4, 6, .grp, .any⟩
def SLT.RD_POFS_OFS : Fld := ⟨0x0E8, 0, 13, .pv, 0, 0, 1, .grp, .any⟩
def SLT.RD_DATA_WORD : Fld := ⟨0x0EC, 0, 32, .pv, 0, 0, 1, .sltRd, .any⟩
def SLT.EXP_ADDR_ADDR : Fld := ⟨0x100, 0, 32, .pv, 0, 0, 1, .grp, .any⟩
def SLT.EXP_PSEQ_LO : Fld := ⟨0x104, 0, 32, .pv, 0, 0, 1, .grp, .any⟩
def SLT.EXP_PSEQ_HI : Fld := ⟨0x108, 0, 32, .pv, 0, 0, 1, .grp, .any⟩
def SLT.EXP_N_N : Fld := ⟨0x10C, 0, 7, .pv, 0, 0, 1, .grp, .upto 64⟩
def SLT.EXP_GO_GO : Fld := ⟨0x110, 0, 1, .w1, 0, 0, 1, .grp, .any⟩
def SLT.EXP_ST_STATE : Fld := ⟨0x114, 0, 3, .ro, 0, 0, 1, .grp, .any⟩
def SLT.VFY_PSEQ_LO : Fld := ⟨0x120, 0, 32, .pv, 0, 0, 1, .one, .any⟩
def SLT.VFY_PSEQ_HI : Fld := ⟨0x124, 0, 32, .pv, 0, 0, 1, .one, .any⟩
def SLT.VFY_N_N : Fld := ⟨0x128, 0, 32, .pv, 0, 0, 1, .one, .any⟩
def SLT.VFY_GO_GO : Fld := ⟨0x12C, 0, 1, .w1, 0, 0, 1, .one, .any⟩
def SLT.VFY_ST_STATE : Fld := ⟨0x130, 0, 3, .ro, 0, 0, 1, .one, .any⟩
def SLT.VFY_BAD_LO : Fld := ⟨0x134, 0, 32, .ro, 0, 0, 1, .one, .any⟩
def SLT.VFY_BAD_HI : Fld := ⟨0x138, 0, 32, .ro, 0, 0, 1, .one, .any⟩
def SLT.NONCE_GO_GO : Fld := ⟨0x140, 0, 1, .w1, 0, 0, 1, .one, .any⟩
def SLT.NONCE : Fld := ⟨0x144, 0, 32, .ro, 0, 4, 4, .one, .any⟩
def SLT.CLR_SCOPE_SCOPE : Fld := ⟨0x154, 0, 1, .pv, 0, 0, 1, .one, .any⟩
def SLT.CLR_SEQ_SEQ : Fld := ⟨0x158, 0, 32, .pv, 0, 0, 1, .one, .any⟩
def SLT.CLR_GO_GO : Fld := ⟨0x15C, 0, 1, .w1, 0, 0, 1, .one, .any⟩
def SLT.CLR_ST_STATE : Fld := ⟨0x160, 0, 3, .ro, 0, 0, 1, .one, .any⟩
def SLT.CLR_ST_REASON : Fld := ⟨0x160, 8, 8, .ro, 0, 0, 1, .one, .any⟩
/-- Every field of the SLT register table, in the table's order (17_silt_recorder.md). -/
def SLT.all0 : List Fld :=
  [SLT.CFG_FULL_MODE, SLT.CFG_WARN_PCT, SLT.STATE_CODE, SLT.STATE_VFY, SLT.OLDEST_LO, SLT.OLDEST_HI, SLT.NEWEST_LO, SLT.NEWEST_HI, SLT.NEXT_SEQ_SEQ, SLT.FILL_PCT, SLT.PAGES_TOTAL, SLT.LOST_UNPROT, SLT.LOST_PROT, SLT.QUEUE_USED, SLT.CLEAR_CNT_N, SLT.SEAL, SLT.ANCHOR, SLT.CAPTURE_GO, SLT.POST_ADDR_ADDR, SLT.POST_LEN_N, SLT.POST_CODE_CODE, SLT.POST_DETAIL_D, SLT.POST_GO_GO, SLT.POST_ST_STATE, SLT.CUR_CMD_OP, SLT.CUR_ARG_SEQ, SLT.CUR_ST_STATE, SLT.RD_H, SLT.RD_POFS_OFS, SLT.RD_DATA_WORD, SLT.EXP_ADDR_ADDR, SLT.EXP_PSEQ_LO, SLT.EXP_PSEQ_HI, SLT.EXP_N_N, SLT.EXP_GO_GO, SLT.EXP_ST_STATE, SLT.VFY_PSEQ_LO, SLT.VFY_PSEQ_HI, SLT.VFY_N_N, SLT.VFY_GO_GO]
def SLT.all1 : List Fld :=
  [SLT.VFY_ST_STATE, SLT.VFY_BAD_LO, SLT.VFY_BAD_HI, SLT.NONCE_GO_GO, SLT.NONCE, SLT.CLR_SCOPE_SCOPE, SLT.CLR_SEQ_SEQ, SLT.CLR_GO_GO, SLT.CLR_ST_STATE, SLT.CLR_ST_REASON]
def SLT.all : List Fld :=
  SLT.all0 ++ SLT.all1

/-! ### NVM (01_architecture.md, R40) -/
def NVM.WIN_BASE0_BASE : Fld := ⟨0x040, 0, 13, .rw, 0, 0, 1, .half, .upto 8191⟩
def NVM.WIN_BASE1_BASE : Fld := ⟨0x044, 0, 13, .rw, 0, 0, 1, .half, .upto 8191⟩
def NVM.WIN_BASE2_BASE : Fld := ⟨0x048, 0, 13, .rw, 0, 0, 1, .half, .upto 8191⟩
def NVM.WIN_BASE3_BASE : Fld := ⟨0x04C, 0, 13, .rw, 0, 0, 1, .half, .upto 8191⟩
def NVM.PART_SILT_GIB : Fld := ⟨0x050, 0, 4, .ro, 6, 0, 1, .one, .any⟩
def NVM.PART_NEXT_SILT_GIB : Fld := ⟨0x054, 0, 4, .pv, 0, 0, 1, .one, .upto 7⟩
def NVM.CE_COUNT_COUNT : Fld := ⟨0x058, 0, 32, .rc, 0, 0, 1, .one, .any⟩
def NVM.UE_COUNT_COUNT : Fld := ⟨0x05C, 0, 16, .rc, 0, 0, 1, .one, .any⟩
def NVM.UE_ADDR_LO : Fld := ⟨0x060, 0, 32, .ro, 0, 0, 1, .one, .any⟩
def NVM.UE_ADDR_HI : Fld := ⟨0x064, 0, 1, .ro, 0, 0, 1, .one, .any⟩
def NVM.REMAP_USED : Fld := ⟨0x068, 0, 16, .ro, 0, 0, 1, .one, .any⟩
def NVM.REMAP_LEFT : Fld := ⟨0x068, 16, 16, .ro, 1024, 0, 1, .one, .any⟩
def NVM.STBY_DROP_COUNT : Fld := ⟨0x06C, 0, 32, .rc, 0, 0, 1, .one, .any⟩
/-- Every field of the NVM register table, in the table's order (01_architecture.md). -/
def NVM.all : List Fld :=
  [NVM.WIN_BASE0_BASE, NVM.WIN_BASE1_BASE, NVM.WIN_BASE2_BASE, NVM.WIN_BASE3_BASE, NVM.PART_SILT_GIB, NVM.PART_NEXT_SILT_GIB, NVM.CE_COUNT_COUNT, NVM.UE_COUNT_COUNT, NVM.UE_ADDR_LO, NVM.UE_ADDR_HI, NVM.REMAP_USED, NVM.REMAP_LEFT, NVM.STBY_DROP_COUNT]

/-! ### ENC (18_security.md, R520) -/
def ENC.LIFE_STATE : Fld := ⟨0x040, 0, 3, .ro, 0, 0, 1, .one, .any⟩
def ENC.DEV_ID_LO : Fld := ⟨0x044, 0, 32, .ro, 0, 0, 1, .one, .any⟩
def ENC.DEV_ID_HI : Fld := ⟨0x048, 0, 32, .ro, 0, 0, 1, .one, .any⟩
def ENC.TOK_ADDR_WORD : Fld := ⟨0x04C, 0, 10, .rw, 0, 0, 1, .grp, .upto 863⟩
def ENC.TOK_DATA_WORD : Fld := ⟨0x050, 0, 32, .rw, 0, 0, 1, .tokAddr, .any⟩
def ENC.CMD_OP : Fld := ⟨0x054, 0, 3, .rw, 0, 0, 1, .grp, .any⟩
def ENC.CMD_ST_STATE : Fld := ⟨0x058, 0, 2, .ro, 0, 0, 1, .grp, .any⟩
def ENC.CMD_ST_REASON : Fld := ⟨0x058, 8, 8, .ro, 0, 0, 1, .grp, .any⟩
def ENC.NONCE : Fld := ⟨0x05C, 0, 32, .ro, 0, 4, 4, .grp, .any⟩
def ENC.AUTH_ROLE : Fld := ⟨0x06C, 0, 3, .ro, 0, 0, 1, .grp, .any⟩
def ENC.AUTH_LEFT_S : Fld := ⟨0x070, 0, 15, .ro, 0, 0, 1, .grp, .any⟩
def ENC.AUTH_KEY : Fld := ⟨0x074, 0, 32, .ro, 0, 4, 4, .grp, .any⟩
def ENC.ATT_CHAL : Fld := ⟨0x084, 0, 32, .rw, 0, 4, 4, .grp, .any⟩
def ENC.REP_ADDR_WORD : Fld := ⟨0x094, 0, 10, .rw, 0, 0, 1, .grp, .any⟩
def ENC.REP_DATA_WORD : Fld := ⟨0x098, 0, 32, .ro, 0, 0, 1, .repAddr, .any⟩
def ENC.INST_SRC : Fld := ⟨0x09C, 0, 32, .pv, 0, 0, 1, .one, .any⟩
def ENC.INST_SLOT : Fld := ⟨0x0A0, 0, 1, .pv, 0, 0, 1, .one, .any⟩
def ENC.BOOT_PREF : Fld := ⟨0x0A4, 0, 2, .pv, 0, 0, 1, .one, .upto 2⟩
def ENC.BOOT_SLOT : Fld := ⟨0x0A4, 4, 2, .ro, 0, 0, 1, .one, .any⟩
def ENC.BOOT_ATTEMPTS : Fld := ⟨0x0A4, 8, 2, .ro, 0, 0, 1, .one, .any⟩
def ENC.SLOTA_VER_V : Fld := ⟨0x0A8, 0, 32, .ro, 0, 0, 1, .one, .any⟩
def ENC.SLOTB_VER_V : Fld := ⟨0x0AC, 0, 32, .ro, 0, 0, 1, .one, .any⟩
def ENC.MIN_VER_V : Fld := ⟨0x0B0, 0, 32, .ro, 0, 0, 1, .one, .any⟩
def ENC.KEYS_USED : Fld := ⟨0x0B4, 0, 5, .ro, 0, 0, 1, .one, .any⟩
def ENC.KEYS_CUSTODIAN : Fld := ⟨0x0B4, 8, 1, .ro, 0, 0, 1, .one, .any⟩
def ENC.TAMPER_FLAGS : Fld := ⟨0x0B8, 0, 5, .ro, 0, 0, 1, .one, .any⟩
def ENC.SESS_IDLE_S : Fld := ⟨0x0BC, 0, 16, .pv, 300, 0, 1, .one, .nz⟩
/-- Every field of the ENC register table, in the table's order (18_security.md). -/
def ENC.all : List Fld :=
  [ENC.LIFE_STATE, ENC.DEV_ID_LO, ENC.DEV_ID_HI, ENC.TOK_ADDR_WORD, ENC.TOK_DATA_WORD, ENC.CMD_OP, ENC.CMD_ST_STATE, ENC.CMD_ST_REASON, ENC.NONCE, ENC.AUTH_ROLE, ENC.AUTH_LEFT_S, ENC.AUTH_KEY, ENC.ATT_CHAL, ENC.REP_ADDR_WORD, ENC.REP_DATA_WORD, ENC.INST_SRC, ENC.INST_SLOT, ENC.BOOT_PREF, ENC.BOOT_SLOT, ENC.BOOT_ATTEMPTS, ENC.SLOTA_VER_V, ENC.SLOTB_VER_V, ENC.MIN_VER_V, ENC.KEYS_USED, ENC.KEYS_CUSTODIAN, ENC.TAMPER_FLAGS, ENC.SESS_IDLE_S]

/-! ### BOT (19_power_boot_straps.md, R543) -/
def BOT.STRAP_RAW : Fld := ⟨0x040, 0, 16, .ro, 0, 0, 1, .one, .any⟩
def BOT.STRAP_LIVE : Fld := ⟨0x044, 0, 16, .ro, 0, 0, 1, .one, .any⟩
def BOT.VARIANT_CODE : Fld := ⟨0x048, 0, 2, .ro, 0, 0, 1, .one, .any⟩
def BOT.RESET_CAUSE : Fld := ⟨0x04C, 0, 3, .ro, 0, 0, 1, .one, .any⟩
def BOT.RESET_TIME_LOST : Fld := ⟨0x04C, 8, 1, .ro, 0, 0, 1, .one, .any⟩
def BOT.BOOTS_COUNT : Fld := ⟨0x050, 0, 32, .ro, 0, 0, 1, .one, .any⟩
def BOT.PHASE_CODE : Fld := ⟨0x054, 0, 4, .ro, 0, 0, 1, .one, .any⟩
def BOT.PHASE_WHY : Fld := ⟨0x054, 8, 4, .ro, 0, 0, 1, .one, .any⟩
def BOT.T_REPAIR_US : Fld := ⟨0x058, 0, 20, .ro, 0, 0, 1, .one, .any⟩
def BOT.T_VERIFY_US : Fld := ⟨0x05C, 0, 20, .ro, 0, 0, 1, .one, .any⟩
def BOT.T_FIRST_US : Fld := ⟨0x060, 0, 20, .ro, 0, 0, 1, .one, .any⟩
def BOT.REL_TS_LO : Fld := ⟨0x064, 0, 32, .ro, 0, 0, 1, .one, .any⟩
def BOT.REL_TS_HI : Fld := ⟨0x068, 0, 32, .ro, 0, 0, 1, .one, .any⟩
/-- Every field of the BOT register table, in the table's order (19_power_boot_straps.md). -/
def BOT.all : List Fld :=
  [BOT.STRAP_RAW, BOT.STRAP_LIVE, BOT.VARIANT_CODE, BOT.RESET_CAUSE, BOT.RESET_TIME_LOST, BOT.BOOTS_COUNT, BOT.PHASE_CODE, BOT.PHASE_WHY, BOT.T_REPAIR_US, BOT.T_VERIFY_US, BOT.T_FIRST_US, BOT.REL_TS_LO, BOT.REL_TS_HI]

/-! ### PWR (19_power_boot_straps.md, R544) -/
def PWR.VIN_A_MV : Fld := ⟨0x040, 0, 16, .ro, 0, 0, 1, .one, .any⟩
def PWR.VIN_B_MV : Fld := ⟨0x040, 16, 16, .ro, 0, 0, 1, .one, .any⟩
def PWR.IN_A_OK : Fld := ⟨0x044, 0, 1, .ro, 0, 0, 1, .one, .any⟩
def PWR.IN_B_OK : Fld := ⟨0x044, 1, 1, .ro, 0, 0, 1, .one, .any⟩
def PWR.IN_A_OV : Fld := ⟨0x044, 2, 1, .ro, 0, 0, 1, .one, .any⟩
def PWR.IN_B_OV : Fld := ⟨0x044, 3, 1, .ro, 0, 0, 1, .one, .any⟩
def PWR.IN_PFW : Fld := ⟨0x044, 4, 1, .ro, 0, 0, 1, .one, .any⟩
def PWR.TEMP_PLATE : Fld := ⟨0x048, 0, 16, .ro, 0, 0, 1, .one, .any⟩
def PWR.LOGIC_MW : Fld := ⟨0x04C, 0, 16, .ro, 0, 0, 1, .one, .any⟩
def PWR.BROWN_A : Fld := ⟨0x050, 0, 16, .rc, 0, 0, 1, .one, .any⟩
def PWR.BROWN_B : Fld := ⟨0x050, 16, 16, .rc, 0, 0, 1, .one, .any⟩
def PWR.WARN_VIN_MV : Fld := ⟨0x054, 0, 16, .rs, 20000, 0, 1, .one, .span 19000 30000⟩
def PWR.WARN_TEMP : Fld := ⟨0x058, 0, 16, .rs, 1000, 0, 1, .one, .span 1 1050⟩
def PWR.HOURS_H : Fld := ⟨0x05C, 0, 32, .ro, 0, 0, 1, .one, .any⟩
/-- Every field of the PWR register table, in the table's order (19_power_boot_straps.md). -/
def PWR.all : List Fld :=
  [PWR.VIN_A_MV, PWR.VIN_B_MV, PWR.IN_A_OK, PWR.IN_B_OK, PWR.IN_A_OV, PWR.IN_B_OV, PWR.IN_PFW, PWR.TEMP_PLATE, PWR.LOGIC_MW, PWR.BROWN_A, PWR.BROWN_B, PWR.WARN_VIN_MV, PWR.WARN_TEMP, PWR.HOURS_H]

end Sys2Proof.Machine
end

