-- ==== Sys2Proof/Machine/Parts.lean ====
section
/-! DEFINITION. What the part holds: every register field by page, offset, bit and entry; the staged values; and what each
block keeps beside its registers. Plain data. `Dev` is the part without its command queue. -/
namespace Sys2Proof.Machine

/-- A Silt record before it is laid out in bytes (R476, Table 1); `seq` is 0 until the writer assigns it. -/
structure Rec where
  ts : Nat
  seq : Nat
  len : Nat
  cls : Nat
  code : Nat
  src : Nat
  page : Nat
  mid : Nat
  priv : Nat
  detail : Nat
  payload : List Nat   -- the payload bytes, unpadded
  deriving DecidableEq, Repr

/-- A staged value of an RS field (R58, R59): the page, the field and its entry, the half whose shadow holds it (`none` for
a page with one shadow), the value, the writer, and whether its rejection has been recorded. -/
structure Staged where
  page : Nat
  fld : Fld
  i : Nat
  t : Nat
  half : Option HalfId
  val : Word
  mid : Nat
  priv : Nat
  recorded : Bool
  deriving DecidableEq, Repr

/-- The answer of the last access or host transaction: its words, whether a bus error response went with it, and the code. -/
structure Resp where
  words : List Word
  busErr : Bool
  code : Nat
  deriving DecidableEq, Repr

/-- A decoded source-P frame of the present servo period (R85, R86): whether it is good, its position in 1/256 µm, and
`BAD` as it stood before it. -/
structure SsiFrame where
  good : Bool
  p : Int
  bad : Nat
  deriving DecidableEq, Repr

/-- What POS keeps of one car beside its registers (R89 to R91): fused position in 1/256 µm, encoder count of the last
latch, the positions of earlier periods (newest first), the good-frame run of INIT, the last good p, the slip run, the frame
of the present period, and whether this is the first period of INIT. -/
structure PosCar where
  x : Int
  cntPrev : Nat
  hist : List Int
  run : Nat
  lastP : Int
  slipRun : Nat
  frame : Option SsiFrame
  first : Bool
  deriving DecidableEq, Repr

/-- A raw edge waiting at a latch unit (R99 to R101): counts since event k, edge time after event k in 20 ns units,
time-stamp, the car's direction, the level the edge leads to, whether the debounced input has confirmed it, position and speed of event k once published, and
the number of the raw edge. -/
structure LatchPend where
  dcnt : Int
  dt20 : Nat
  ts : Nat
  up : Bool
  rising : Bool
  confirmed : Bool
  atK : Option (Int × Int)
  no : Nat
  deriving DecidableEq, Repr

/-- A vane edge of the door-zone check (R102) or of the learning run (R103) that waits for the position of event k: whether it is one of the
learning run, the car, whether it enters the vane, counts since event k, and edge time after event k in 20 ns units. -/
structure EdgePend where
  lrn : Bool
  car : Nat
  entering : Bool
  dcnt : Int
  dt20 : Nat
  deriving DecidableEq, Repr

/-- The POS internals of one half; `fused` says that the frames of the present servo period have been fused, `latches` holds the raw edges that
wait at each latch unit, oldest first, `raws` the raw edges of DIN channels that are neither confirmed nor dropped (channel, number and the level they lead
to), oldest first, and `rawNo` the number of the next. -/
structure Pos where
  cars : List PosCar
  fused : Bool
  latches : List (List LatchPend)
  edges : List EdgePend
  raws : List (Nat × Nat × Bool)
  rawNo : Nat
  deriving DecidableEq, Repr

/-- The copy of a car's fused position, speed and state that POS hands the safety pair (R29, R89), and the speed of the copy before it
(R181). -/
structure PosCopy where
  x : Int
  v : Int
  st : Nat
  vp : Int
  deriving DecidableEq, Repr

/-- A segment of a motion plan: its phase number (R111, Table 2), its jerk in µm/s³ in shaft direction, and its duration in ns. -/
structure Seg where
  ph : Nat
  j : Int
  t : Nat
  deriving DecidableEq, Repr

/-- A command written to an argument set and a GO register, waiting for its event (R115, R173, R196). -/
structure GoCmd where
  op : Nat
  pos : Int
  vel : Int
  land : Nat
  car : Nat
  lo : Int
  hi : Int
  tag : Nat
  deriving DecidableEq, Repr

/-- The motion intent handed to the safety pair at every accepted change (R29, R122): target, stopping point, limits, and the epoch of the half that
sends it (R349). -/
structure Intent where
  tgt : Int
  stop : Int
  v : Int
  d : Int
  j : Int
  epoch : Nat
  deriving DecidableEq, Repr

/-- What a motion profile generator keeps beside its registers. `xs`, `vs`, `av` are position in µm × 6·10²⁷, speed in µm/s ×
2·10¹⁸ and acceleration in µm/s² × 10⁹, so that a phase is integrated exactly over whole nanoseconds (R111). -/
structure Mpg where
  xs : Int
  vs : Int
  av : Int
  segs : List Seg
  jogV : Nat                 -- speed limit of a JOG or RESCUE in progress, 0 none
  soft : Bool                -- the next move starts soft (R126)
  ramp : Option (Nat × Nat)  -- deceleration and jerk of a category-1 ramp in progress (R130)
  waiting : Option GoCmd
  tsd : Bool                 -- terminal slowdown cap in force (R128)
  degCap : Nat               -- degraded-mode cap passed down by the safety region, 0 none (R113)
  drv : Option (List Byte)   -- drive status frame of the present export period (R136)
  drvShort : Bool            -- the last frame with the status identifier was short
  drvMiss : Bool             -- a short frame came in the present export period
  seqNext : Nat              -- SEQ of the next frame (R134)
  stopLine : Nat             -- stop line asserted by the safety region: 0 none, 1 category 1, 2 category 0 (R130)
  posStop : Bool             -- stop request of POS waiting (R129)
  deriving DecidableEq, Repr

/-- What a loop keeps beside its registers (R146, R154, R155): the set-point in force, whether its next sample is a start sample,
whether automatic mode was in force in its last sample, the last automatic output, and whether a staged `MAN_OUT` was applied since automatic mode was last selected and waits for the sample after the switch (R156). -/
structure LoopSt where
  spEff : Int
  start : Bool
  auto : Bool
  autoOut : Int
  manNew : Bool
  deriving DecidableEq, Repr

/-- What a loop engine keeps beside its registers: its loops, the last trusted index and fraction of each table for each car (table × 4 + car)
and the last trusted speed of each car (R163, R164); and, for loops that do not complete (R152), the loop registers, loops and flags and the
page's maps, `STAT.BLOCK` and `ERR` and the staged `MAN_OUT` values as they stood before the present period, the time at which it began, and the
flags that each loop has raised in it. -/
structure Le where
  loops : List LoopSt
  idx : List (Nat × Nat)
  spd : List Int
  prevRegs : List (Nat × Word)
  prevLoops : List LoopSt
  prevFlags : List Nat
  prevMaps : List Nat
  began : Nat
  raised : List Nat
  prevMan : List Staged
  deriving DecidableEq, Repr

/-- What SEP keeps beside its registers: the waiting operation, whether an abort is in force (R178), and the cars whose
reservation is to be created at their first VALID event (R177). -/
structure Sep where
  waiting : Option GoCmd
  aborted : Bool
  make : List Bool
  deriving DecidableEq, Repr

/-- What a door axis keeps beside its registers (R194 to R209): the waiting command; position in nm and speed in nm/s; the cam time
in ns; the mode held before ARMED; the car target at which OPEN was taken; whether the gear has let go and the door holds; whether it
decelerates and what follows (0 hold, 1 open, 2 close, 3 nudge); lock supervision time left in ns and reopening attempts; whether a
reopening closes again; distance run by HOME in nm; back-off target after a stall; the drive status copy, whether it is new since the
last export, the short-frame run, obstruction count, SEQ of the next frame, and the speed of the last event. -/
structure Dax where
  waiting : Option GoCmd
  xn : Int
  vn : Int
  camNs : Int
  before : Nat
  tgt : Int
  held : Bool
  slowing : Bool
  after : Nat
  lockNs : Option Nat
  tries : Nat
  recloses : Bool
  homed : Nat
  back : Option Int
  drv : Option (List Byte)
  drvShort : Bool
  drvMiss : Bool
  obs : Nat
  seqNext : Nat
  vPrev : Int
  deriving DecidableEq, Repr

/-- What a microstep channel keeps beside its registers (R210 to R213): the count at the start of the present interpolation, the target
count, the interval in ns, the count of the last PWM period, the direction of the last edge, and the outputs: phase duties, signs and
bridge enable. -/
structure StpCh where
  m0 : Int
  target : Int
  span : Nat
  pwmCnt : Int
  lastUp : Bool
  pa : Nat
  pb : Nat
  da : Bool
  db : Bool
  en : Bool
  deriving DecidableEq, Repr

/-- A key of the enclave's store (R499): its slot, its identifier and its role (1 operator, 2 engineer, 3 safety engineer, 4 custodian). -/
structure Key where
  slot : Nat
  id : BitVec 128
  role : Nat
  deriving DecidableEq, Repr

/-- A category-1 stop in progress (R288, R289): time since t₀ in ns, speed v₀ in the direction of travel, acceleration a₀,
direction of travel, and whether its standstill has dropped the brake. -/
structure S1Run where
  t : Nat
  v0 : Int
  a0 : Int
  up : Bool
  braked : Bool
  deriving DecidableEq, Repr

/-- What the safety core pair keeps of one car: latched causes (bit c for code c of R310), the category-1 stop, the time stood in ns, the brake-slip references of source P and source T (R294), whether a move has
been taken since the car last stood (R284), the HEADWAY latch and its present condition, a reservation overrun and a terminal-switch
disagreement present, LIMIT_MISMATCH, the time of the last reset press, the waivers of a degraded grant, the position of the
grant and its time left in ns, the CHAIN pairs a rescue ignores, the landings at which the pair finds the car bridged (two at most, for a double-deck car), and those
whose bridging excuses an open door or lock, whether its brake has dropped, and the pairs whose CHAIN demand is latched (R306). -/
structure SafCar where
  causes : Nat
  s1 : Option S1Run
  still : Nat
  slipP : Option Int
  slipT : Option Int
  moved : Bool
  hw : Bool
  hwNow : Bool
  resOut : Bool
  tslBad : Bool
  limMis : Bool
  press : Option Nat
  deg : Option Nat
  degAt : Int
  degNs : Nat
  rscChain : Nat
  bridged : List Nat
  excused : List Nat
  dropped : Bool
  chain : Nat
  deriving DecidableEq, Repr

/-- What Theath keeps of one car: latched causes (bit c for code c of R277, Table 14), good source-T positions (1/256 µm) with their
frame times in ns (newest first), the frame clock, the landings of bridging, the door pairs that bridging excuses, whether the pair's off
request stands (R287), the pair's waiver and rescue notices (R301, R306), and the pairs whose CHAIN demand is latched (R306). -/
structure ThCar where
  causes : Nat
  frames : List (Int × Nat)
  clock : Nat
  bridged : List Nat
  excused : Nat
  offReq : Bool
  waiveT : Bool
  waiveH : Bool
  rscChain : Nat
  chain : Nat
  deriving DecidableEq, Repr

/-- A safe-frame station (R415 to R417): the last accepted SEQ, whether it is silent, its STATUS, and whether a run of rejections has
been recorded. Stations 0 to 255 are landing stations, 256 to 259 the car stations. -/
structure Stn where
  seq : Nat
  silent : Bool
  status : Nat
  rejected : Bool
  deriving DecidableEq, Repr

/-- The safety region beside its registers: the active block and the two stored copies (as words by index, zero words left out), whether a change of
SEAL[15:0] leads to SEAL_FAIL once every car stands, input levels as each channel takes them (held while
blanked), the pairs that failed a check in the present and in no part of the last complete `TP_PER`, each channel's samples of the
windows, the per-pair demand of the safety core pair, heartbeats since the last break, the stations, the landings with
LOCK_DISAGREE, the cars, the output test in progress (pair and tag), whether the device safe state holds (R23, R292), the block accepted for sealing with
the group whose authorisation sealed it (R271), the levels of the SEAL[15:0] and SEAL_EN contacts, and whether the pair has read them
since power-up (R272). -/
structure Saf where
  active : Option (List (Nat × Word))
  copy1 : List (Nat × Word)
  copy2 : List (Nat × Word)
  sealFail : Bool
  thLvl : Nat
  spLvl : Nat
  badNow : Nat
  clean : Nat
  ownHigh : Nat
  lowIn : List Nat
  spAct : Nat
  hbRun : Nat
  stations : List (Nat × Stn)
  lockDis : List Nat
  sp : List SafCar
  th : List ThCar
  test : Option (Nat × Nat)
  deviceSafe : Bool
  sealing : Option (List (Nat × Word) × Nat)
  pinSeal : Nat
  pinEn : Bool
  pinRead : Bool
  deriving DecidableEq, Repr

/-- A timer or edge cell of the running image (R322): its definition, elapsed time in µs, output, input memory, and the preset last read. -/
structure Cell where
  def_ : CellDef
  e : Nat
  q : Bool
  prev : Bool
  pt : Nat
  deriving DecidableEq, Repr

/-- A program image loaded in a code bank: identifier, version, and what it holds. -/
structure Image where
  id : Nat
  ver : Nat
  prog : Program
  deriving DecidableEq, Repr

/-- A complete cycle state of the active half as it travels to the standby (R331): cycle, retained bytes, cells, the words of FRC, the code bank the
cycle ran from, the CRC of what was published, the retained area (base and bytes), the base of its shadow, and the bytes it takes on the link. -/
structure CycState where
  cyc : Nat
  ret : List Nat
  cells : List Cell
  frc : List (Nat × Word)
  bank : Nat
  crc : Nat
  area : Nat × Nat
  shadowAt : Nat
  bytes : Nat
  deriving DecidableEq, Repr

/-- What the cycle executive of a half keeps beside its registers (R312 to R337): the running image, the image in the idle bank, the old
image kept until the switch is DONE; the phase of the cycle (0 between cycles, 1 error task, 2 program); the cores that have written DONE;
cells, and those before the last switch; whether SRAM content is valid; a start asked for while RUNNING (cold?); whether STOP waits for the publish; whether the error task
is due; the cycle marker last received, markers waiting, and the times of one that met a running cycle (R332); time-stamp of the last watchdog takeover; whether the next snapshot waits for a
proof swap; the shadow, and the cycle states on their way to it, oldest first; whether an armed switch takes place before the next
snapshot, and the cycle state of the publish that it follows. -/
structure Cyx where
  img : Option Image
  idle : Option Image
  old : Option Image
  phase : Nat
  done : Nat
  cells : List Cell
  oldCells : List Cell
  valid : Bool
  restart : Option Bool
  stopReq : Bool
  due : Bool
  marker : Nat
  waiting : Nat
  late : Option (Nat × Nat)
  wdogAt : Option Nat
  heldNext : Bool
  shadow : Option CycState
  rxq : List CycState
  switchNow : Bool
  pub : Option CycState
  deriving DecidableEq, Repr

/-- A CAN frame as a controller sees it. -/
structure Frame where
  id : Nat
  ide : Bool
  fdf : Bool
  brs : Bool
  dlc : Nat
  rtr : Bool
  esi : Bool
  data : List Nat
  deriving DecidableEq, Repr

/-- The schedule matrix in effect in a basic cycle (R408): its columns, the cells of the present row, and the buffers that any cell names. -/
structure TtRow where
  cols : Nat
  cells : List Nat
  named : List Nat
  deriving DecidableEq, Repr

/-- What a CAN controller keeps beside its registers (R393 to R412): FRAME events counted; the buffer whose arbitration has begun, the frame it sends, and
whether a lane has loaded and requested that buffer again; whether it was BUS_OFF or REJOINING when it was switched off, and whether it was
switched off with a frame on the bus; the matrix in effect, whether a changed one waits for the next basic cycle, the column of the present
window and the buffer that window waits for. -/
structure CanCh where
  frames : Nat
  begun : Option Nat
  run : Option Frame
  again : Bool
  keptOff : Bool
  fin : Bool
  mat : Option TtRow
  changed : Bool
  col : Option Nat
  arm : Option Nat
  deriving DecidableEq, Repr

/-- A receive variable in the cycle lane (R404): controller, extended identifier, identifier, latest data, FRESH. -/
structure RxVar where
  ctrl : Nat
  ide : Bool
  id : Nat
  data : List Nat
  fresh : Bool
  deriving DecidableEq, Repr

/-- The cycle lane of the image exchange (R26): received CAN variables and station images as COM fills them, and the snapshot both halves
read: variables, station images, stations that are down (bit s), and the frozen FIO input image. -/
structure Lane where
  rx : List RxVar
  img : List (Nat × List Nat)
  snapRx : List RxVar
  snapImg : List (Nat × List Nat)
  snapDown : Nat
  snapFio : List Nat
  deriving DecidableEq, Repr

/-- A call of Shoal (R228, Table 5): state (1 PENDING, 2 ASSIGNED, 3 RIDING, 4 DONE, 5 CANCELLED; a slot without an entry is FREE), kind
(1 DEST, 2 HALL_UP, 3 HALL_DN, 4 CAR), floors, persons, flags, the assigned group car and deck, registration, key, tag, cost and
estimates; `rejected` marks a call whose REJECTED result waits to be posted, `ours` one that the module assigned itself in ISLAND scope (R237). -/
structure Call where
  state : Nat
  kind : Nat
  src : Nat
  dst : Nat
  count : Nat
  access : Bool
  prio : Bool
  held : Bool
  locked : Bool
  car : Nat
  deck : Bool
  valid : Bool
  reg : Nat
  key : Nat
  tag : Nat
  cost : Nat
  etaP : Nat
  etaD : Nat
  rejected : Bool
  ours : Bool
  deriving DecidableEq, Repr

/-- A stop of a car's sequence (R229, Table 6): floor of the lower deck, deck used, direction after the stop, the calls that board, those
that boarded where the car stood before it, those that leave, and the estimate in ms. -/
structure Stop where
  floor : Nat
  upper : Bool
  up : Bool
  picks : List Nat
  here : List Nat
  drops : List Nat
  eta : Nat
  deriving DecidableEq, Repr

/-- A car record (R223): position, speed, minimum stopping point, direction, floor stood at, doors not closed, T_HEAD in ms, load,
availability, and whether it is fresh. -/
structure CarRec where
  x : Int
  v : Int
  stop : Int
  up : Bool
  floor : Option Nat
  doors : Bool
  head : Nat
  load : Nat
  avail : Nat
  fresh : Bool
  deriving DecidableEq, Repr

/-- A result of Shoal before it is posted (R225, Table 4); `loose` marks one whose slot number holds no call of this result. -/
structure ShlRes where
  event : Nat
  reason : Nat
  slot : Nat
  car : Nat
  deck : Bool
  tag : Nat
  etaP : Nat
  etaD : Nat
  loose : Bool
  deriving DecidableEq, Repr

/-- What Shoal keeps beside its registers: the working call table by slot, the working sequences of the 64 group cars, their records,
the results of decisions not yet posted, decisions for calls of other modules (event, reason, call), the count of NEW submissions, the slots the call port shows, the calls to forward and to
report, the cars whose sequence changed since the last publish, whether a decision waits to be published, for each group car the persons and the
ACCESS of the calls served where it stands and the floor of that stop, for each own car the time-stamp at which its doors left the closed state,
the keys of own calls that have ended in this module (R237), and the call entries as the last publish left them (R389). -/
structure Shl where
  calls : List (Nat × Call)
  stops : List (List Stop)
  recs : List (Option CarRec)
  out : List ShlRes
  dec : List (Nat × Nat × Call)
  newCnt : Nat
  shown : List Nat
  fwd : List GFwd
  report : List Nat
  touched : List Nat
  decided : Bool
  persons : List Nat
  acc : List Bool
  servedAt : List (Option Nat)
  doorTs : List (Option Nat)
  settled : List Nat
  lastCalls : List GCall
  deriving DecidableEq, Repr

/-- The servo state a half sends over the mirror link (R42, R43): the state words of its MPG, SEP, LE, DAX, STP and POS pages by page index, what
those blocks keep beside their registers, the servo count, and the values of R354, Table 3, in its order, and the fusion of each car. -/
structure ServoState where
  words : List (Nat × List (Nat × Word))
  mpg : List Mpg
  sep : Sep
  le : List Le
  dax : List Dax
  stp : List StpCh
  cnt : Nat
  cmp : List (List Int)
  pos : List PosCar
  deriving DecidableEq, Repr

/-- What half control keeps of a half (R342 to R366): whether a hold stands, whether a fault took it OFFLINE, whether REPAIR steps 1 to 3 are
complete, the times of automatic restarts, runs of disagreements, of servo states missed and of servo states received, whether a cycle on
the marker has been completed without lag, the renewal count recorded when the link went down, the servo state received, the SRAM words
that hold an uncorrectable error (by word address), the time-stamps of corrected errors by SRAM row (row and time), the CRC of the last
cycle it published as standby (cycle and CRC), the run of cycles that differed, and whether its first motion intent after a cold takeover is to
come (R356). -/
structure Hlf where
  hold : Bool
  faulted : Bool
  ready : Bool
  restarts : List Nat
  disRun : Nat
  missRun : Nat
  okRun : Nat
  cycOk : Bool
  quiet : Option Nat
  servoBuf : Option ServoState
  bad : List Nat
  ces : List (Nat × Nat)
  ownCrc : Option (Nat × Nat)
  disCyc : Nat
  cold : Bool
  deriving DecidableEq, Repr

/-- What the Weir and the part keep of claims and proofs (R346, R359, R538): claims of the window (half, epoch), the half that has released
for a proof swap, the proof under way (half, first publish made, exports left), whether the claim strobe has been issued, and the TICKs since
the last counted renewal (`WIR.LEASE.AGE`). -/
structure Weir where
  claims : List (HalfId × Nat)
  swapBy : Option HalfId
  proof : Option (HalfId × Bool × Nat)
  strobed : Bool
  ticks : Nat
  deriving DecidableEq, Repr

/-- A stored generation of the configuration (R70): number, capture time-stamp, requester and role, CRC and length as stored, whether it passes
its CRC, and its values by key, with CTL pages kept as those of Half A. -/
structure Gen where
  num : Nat
  ts : Nat
  mid : Nat
  role : Nat
  crc : Nat
  len : Nat
  ok : Bool
  rows : List (Nat × Word)
  deriving DecidableEq, Repr

/-- The commit manager (R70, R71): the two configuration areas, the area committed, the SAVE that waits for its capture (requester and role),
and the generation captured; in the same partition, the time-stamp of the last proof of each half (R359). -/
structure Store where
  areas : List (Option Gen)
  committed : Option Nat
  waiting : Option (Nat × Nat)
  captured : Option Gen
  proofAt : List (Option Nat)
  deriving DecidableEq, Repr

/-- An operation of the enclave that takes time: an INSTALL (source, slot), or an attestation (report bytes). -/
inductive EncJob where
  | install (grp src slot : Nat)
  | attest (grp : Nat) (report : List Nat)
  deriving DecidableEq, Repr

/-- What the enclave keeps beside its registers (R496 to R517): live nonces, consecutive refusals and withheld nonces per requester group,
the operation under way, whether the device private key exists, the identifiers of the keys that opened the authorisations, and the image slots
marked invalid (bit 0 A, bit 1 B). -/
structure Enc where
  nonce : List (Option (BitVec 128))
  refused : List Nat
  withheld : List Bool
  job : Option EncJob
  devKey : Bool
  authKey : List (Option (BitVec 128))
  slotBad : Nat
  deriving DecidableEq, Repr

/-- Power, reset and boot (R529 to R541): whether nRESET is low, whether power-good stands, whether the hold-up sequence runs, the shutdown
mark, whether the part has been released, whether an image was verified, the boot-image bytes received
over the host link, the episodes of the temperature and input warnings, whether a strap change has been recorded, whether power-good has
risen since the last release (R543), whether forces have been lost (R327), the seconds since the last full hour, and the custodian key under which
`NVM.PART_NEXT` was written (R493). -/
structure Boot where
  nreset : Bool
  good : Bool
  holdup : Bool
  mark : Bool
  released : Bool
  verified : Bool
  hostImg : List Byte
  tempEp : Bool
  vinEp : List Bool
  strapNoted : Bool
  powerUp : Bool
  frcLost : Bool
  secs : Nat
  partKey : BitVec 128
  deriving DecidableEq, Repr


/-- Group traffic that goes to Shoal through the cycle lane (R381), with the ring position it came from. -/
inductive GMsg where
  | records (src : Nat) (rs : List GRec)
  | forward (src : Nat) (fs : List GFwd)
  | decision (src : Nat) (ds : List GDec) (calls : List GCall) (seqs : List (BitVec 6 × List GStop))
  | reportReq (src : Nat)
  | report (src : Nat) (full : Bool) (calls : List GCall)
  | tables (src : Nat) (calls : List GCall) (seqs : List (BitVec 6 × List GStop))
  deriving DecidableEq, Repr

/-- A frame handed to a port: port, TYPE, SRC, HOPS, SEQ, EPOCH, FLAGS, payload bytes, the traffic or the numbers it carries, destination, source
address and EtherType, VER, GROUP, ROLE, HCRC (R379, Tables 3 and 4; octet i of an address in bits 8i+7 to 8i), and whether its FCS is good (R376). -/
structure GFrame where
  port : Nat
  typ : Nat
  src : Nat
  hops : Nat
  seq : Nat
  epoch : Nat
  flags : Nat
  len : Nat
  msg : Option GMsg
  nums : List Nat
  dst : Nat
  sa : Nat
  etype : Nat
  ver : Nat
  group : Nat
  role : Nat
  hcrc : Nat
  fcsOk : Bool
  deriving DecidableEq, Repr

/-- What a module keeps of a ring position (R377, R378, R380): HELLO ticks since its last HELLO on each port, configuration identifier,
identity and boot count from its HELLO, whether it has joined and whether its `CFG_ID` differs, the highest SEQ accepted and the record of
the 64 below it, the epoch and ACTIVE flag of its last frame, the shaft slot its records name, and its latest USER bytes. -/
structure GNode where
  age0 : Nat
  age1 : Nat
  cfg : Nat
  dev : Nat
  boots : Nat
  joined : Bool
  mis : Bool
  hi : Option Nat
  seen : Nat
  epoch : Nat
  active : Bool
  slot : Option Nat
  user : List Nat
  deriving DecidableEq, Repr

/-- What GLK keeps beside its registers: the 18 positions; SEQ of the next own frame; whether another module holds the own position and the
HELLO ticks since it was heard; per port the instant of the DELAY_REQ outstanding and the last delays; runs of beacons within and beyond
10 µs, the learnt frequency and the rate in force (R385); group traffic received and traffic the snapshot has delivered; the scope mode
that waits for the CYCLE boundary; whether REPORT_REQ is to be sent; the call slots and cars of a whole TABLES copy not sent yet, if one runs;
time-stamp of the last RECORDS; bits sent in this second per port; the frames the last command handed to the ports; USER bytes at the snapshot; the
frames queued at the ports; and per port the frame in progress with what is left of it, in 1/65,536 bit (R376). -/
structure Glk where
  nodes : List GNode
  seq : Nat
  dup : Bool
  dupAge : Nat
  req : List (Option Nat)
  delays : List (List Int)
  good : Nat
  bad : Nat
  freq : Int
  rate : Int
  inbox : List GMsg
  arrived : List GMsg
  scopeNext : Option (Nat × Bool)
  askReports : Bool
  tblSent : Option (List Nat × List Nat)
  lastRec : Nat
  bits : List Nat
  out : List GFrame
  userSnap : List (Nat × List Nat)
  queue : List GFrame
  cur : List (Option (GFrame × Nat))
  deriving DecidableEq, Repr

/-- What the field region keeps beside its registers (R426 to R451): the safe-state causes in force (bit c for code c of R430, Table 3), the
output image in force (R428, Table 2), outputs a fault has switched off, switches still hot, debounced input levels, levels on the hardware
lines, whether an abort of DIN holds them, the last codes of each analog input (newest first), the analog
stages without a target, what each stage regulates to in µA (R442, R445), and which of DOUT (bit 0) and AOUT (bit 1) an abort cut off. -/
structure Fio where
  causes : Nat
  image : List Nat
  trip : Nat
  hot : Nat
  deb : Nat
  lines : Nat
  held : Bool
  win : List (List Nat)
  lost : Nat
  stage : List Int
  cut : Nat
  deriving DecidableEq, Repr

/-- What the clock keeps beside its registers (R458 to R473): the complete pair last written to `RTC.SET`; the pending SET (count, SYNC, MID
and PRIV byte of its writer); whether a calendar synchronisation waits for the next TICK; the alarms that firing has disarmed; whether the
always-on domain runs on VBAT; whether VBAT has reached the charger's limit and not yet fallen 50 mV below it (R462). -/
structure Rtc where
  setVal : Nat
  pend : Option (Nat × Bool × Nat × Nat)
  calSync : Bool
  fired : List Bool
  onVbat : Bool
  full : Bool
  deriving DecidableEq, Repr

/-- A page of the Silt ring (R484, Table 3): page number, time-stamp and SEQ of the first record that starts in it, the
offset of that record, flags, the clear count, the data bytes written so far, the seal, and whether it reads with an
uncorrectable error. -/
structure SiltPage where
  pseq : Nat
  ts : Nat
  fseq : Nat
  first : Nat
  flags : Nat
  clearCnt : Nat
  data : List Byte
  sealVal : BitVec 128
  ecc : Bool
  deriving DecidableEq, Repr

/-- A loss episode of one intake group (R483): records lost, time-stamps of the first and the last. -/
structure Loss where
  count : Nat
  tsFirst : Nat
  tsLast : Nat
  deriving DecidableEq, Repr

/-- The reading state of one master group (R489): the SEQ the cursor stands at and the captured payload. -/
structure Cursor where
  seq : Option Nat
  payload : List Nat
  deriving DecidableEq, Repr

/-- Silt (R476 to R495): the two intake groups in intake order, their loss episodes, the sealed pages kept (oldest first), the
open page, SEQ of the next record, the newest seal and the anchor, the count of retired pages, whether SLT_NEAR_FULL was raised, the
cursors, the USER records being copied and the exports under way (address, first page, pages) per master group, the clear nonce, the
clear token accepted (scope, SEQ, key, serial), the pages still to be erased, and the verification under way (first page, pages). -/
structure Silt where
  qProt : List Rec
  qUn : List Rec
  lossUn : Option Loss
  lossProt : Option Loss
  pages : List SiltPage
  cur : SiltPage
  nextSeq : Nat
  lastSeal : BitVec 128
  anchor : BitVec 128
  retired : Nat
  nearFull : Bool
  cursors : List Cursor
  copying : List (Option Rec)
  exps : List (Option (Nat × Nat × Nat))
  nonce : Option (BitVec 128)
  token : Option (Nat × Nat × BitVec 128 × Nat)
  erasing : List SiltPage
  vfy : Option (Nat × Nat)
  deriving DecidableEq, Repr

/-- What one half holds beside its registers (R17). -/
structure Half where
  servoCnt : Nat
  pos : Pos
  mpg : List Mpg
  sep : Sep
  le : List Le
  dax : List Dax
  stp : List StpCh
  shl : Shl
  cyx : Cyx
  sram : List Host.Cell
  deriving DecidableEq, Repr

/-- The part without its command queue: registers, shadows, counts of IMMEDIATE events, the last answer, the counter of free values, whether
a SAVE freezes the configuration (R70), the halves, encoder counters, what POS and SEP hand the safety pair, the STP contacts, the door and lock
feedback, the highest epoch that a motion intent has carried and the
intent of each car as the safety pair holds it (R349), the blocks, the MRAM words that hold an uncorrectable error, the corrected errors by MRAM block and time, the blocks remapped and those whose spare has failed, and the
pages that are fenced (R22), pages whose abort is not yet
found complete (R68), registers with a parity error, as page, byte offset and entry (R21). -/
structure Dev where
  regs : List (Nat × Word)
  shadow : List Staged
  immCnt : List (Nat × Word)
  resp : Resp
  freeCtr : Nat
  cfgFrozen : Bool
  ha : Half
  hb : Half
  enc : List Nat
  pCopy : List PosCopy
  pRes : List (Option (Int × Int))
  /-- The claims of the cars as the ACTIVE half sent them with the reservations (R174 step 7); `none`: none sent. -/
  pClm : List (Option (Int × Int))
  pEpoch : Option Nat
  pInt : List (Option Intent)
  stpPins : List StpCh
  carDoorShut : List Bool
  landShut : List Bool
  silt : Silt
  fio : Fio
  can : List CanCh
  lane : Lane
  rtc : Rtc
  glk : Glk
  hlfA : Hlf
  hlfB : Hlf
  weir : Weir
  store : Store
  encl : Enc
  boot : Boot
  mbad : List Nat
  mces : List (Nat × Nat)
  remap : List Nat
  remapBad : List Nat
  fenced : List Nat
  aborting : List Nat
  badRegs : List (Nat × Nat × Nat)
  saf : Saf
  keys : List Key
  mram : List Host.Cell
  deriving DecidableEq, Repr

end Sys2Proof.Machine
end

