-- ==== Sys2Proof/Machine/File.lean ====
section
/-! DEFINITION. The register file: which word a field is stored in, pages and banks (R45 to R49), reading and writing of fields, and the
halves, the lease and the time as every meaning reads them. -/
namespace Sys2Proof.Machine

open Sys2Proof

/-! ### Register file -/

/-- The word stored under a key, if one is listed. -/
def rfFind (k : Nat) : List (Nat × Word) → Option Word
  | [] => none
  | (k', v) :: r => if k' = k then some v else rfFind k r

/-- List a word under a key, keeping the keys in rising order. -/
def rfInsert (k : Nat) (v : Word) : List (Nat × Word) → List (Nat × Word)
  | [] => [(k, v)]
  | (k', v') :: r =>
    if k' = k then (k, v) :: r else if k < k' then (k, v) :: (k', v') :: r else (k', v') :: rfInsert k v r

/-- Remove every entry of a key. -/
def rfErase (k : Nat) (r : List (Nat × Word)) : List (Nat × Word) := r.filter (fun e => !(e.1 == k))

/-- Store `v` under `k` where an unlisted key reads as `dflt`: the value an unlisted key reads as removes the entry. -/
def rfSet (k dflt : Nat) (v : Word) (r : List (Nat × Word)) : List (Nat × Word) :=
  if v.toNat = dflt then rfErase k r else rfInsert k v r

/-! ### Pages (R45, R47, R49) -/

def HalfId.n : HalfId → Nat
  | .a => 0
  | .b => 1

def HalfId.other : HalfId → HalfId
  | .a => .b
  | .b => .a

/-- Region number of a block (R45, R49): 0 CTL, 1 COM, 2 FIO, 3 SAF, 4 MGT. -/
def Blk.region : Blk → Nat
  | .cyx | .tmc | .frc | .mpg | .sep | .le | .dax | .stp | .pos | .shl | .mir | .hlf | .sbk => 0
  | .can | .glk | .hst | .rsm => 1
  | .wir | .din | .dout | .ain | .aout | .trm => 2
  | .sfc | .smb | .ths | .sio | .spb => 3
  | .cfg | .rtc | .cal | .slt | .nvm | .enc | .bot | .pwr => 4

/-- First page index of a block in its region (R49, Table 2). -/
def Blk.index : Blk → Nat
  | .cyx => 0x00 | .tmc => 0x01 | .frc => 0x02 | .mpg => 0x04 | .sep => 0x08 | .le => 0x0C | .dax => 0x10 | .stp => 0x18
  | .pos => 0x1A | .shl => 0x20 | .mir => 0x28 | .hlf => 0x2C | .sbk => 0x30
  | .can => 0x00 | .glk => 0x08 | .hst => 0x0C | .rsm => 0x10
  | .wir => 0x00 | .din => 0x01 | .dout => 0x02 | .ain => 0x04 | .aout => 0x05 | .trm => 0x06
  | .sfc => 0x00 | .smb => 0x01 | .ths => 0x02 | .sio => 0x03 | .spb => 0x04
  | .cfg => 0x00 | .rtc => 0x01 | .cal => 0x02 | .slt => 0x04 | .nvm => 0x06 | .enc => 0x08 | .bot => 0x0A | .pwr => 0x0C

/-- Number of pages of a block (R49, Table 2). -/
def Blk.pages : Blk → Nat
  | .mpg => 4 | .le => 3 | .dax => 8 | .can => 4 | _ => 1

/-- Default boundary of a block's pages (R49, Table 2). -/
def Blk.bnd : Blk → Bnd
  | .cyx | .tmc | .frc | .shl | .glk | .rsm | .wir | .din | .dout | .ain | .aout => .cycle
  | .mpg | .sep | .le | .dax | .stp | .pos => .servo
  | .can => .frame
  | .rtc | .cal => .tick
  | .pwr => .second
  | .mir | .hlf | .hst | .trm | .sfc | .smb | .sio | .cfg | .slt | .nvm | .enc => .immediate
  | .sbk | .ths | .spb | .bot => .none

/-- Boundaries `CTRL.BSEL` accepts beyond the default (R49, Table 2, column Selectable). -/
def Blk.selectable : Blk → List Bnd
  | .shl => [.cycle, .second, .immediate]
  | .glk => [.cycle, .second]
  | .din | .ain => [.cycle, .immediate]
  | _ => []

/-- `CAP.PER_HALF` of a block's pages (R394, R427, R474). -/
def Blk.perHalf : Blk → Bool
  | .can | .rsm | .din | .dout | .ain | .aout | .trm | .rtc | .cal => true
  | _ => false

/-- Blocks whose chapter says that `CTRL.EN` reads 1 (R72, R275, R338, R366, R368, R369, R456, R474, R494, R520, R527): no write changes it. -/
def Blk.enFixed : Blk → Bool
  | .cyx | .hlf | .mir | .wir | .cfg | .rtc | .cal | .slt | .enc | .hst | .trm | .sfc => true
  | _ => false

/-- Reset value of `CTRL.EN` (R52): 1 where it reads 1 always, and on the pages of TMC, FRC, SBK, SMB, THS, SIO, SPB, NVM, BOT and PWR, whose chapters
give those blocks no state in which they do not operate (notes/assumptions/67.md). -/
def Blk.enReset : Blk → Nat
  | .cyx | .hlf | .mir | .wir | .cfg | .rtc | .cal | .slt | .enc | .hst | .trm | .sfc | .smb | .ths | .sio | .spb | .nvm | .bot | .pwr
  | .sbk | .tmc | .frc => 1
  | _ => 0

/-- Every block, in the order of Table 2. -/
def Blk.list : List Blk :=
  [.cyx, .tmc, .frc, .mpg, .sep, .le, .dax, .stp, .pos, .shl, .mir, .hlf, .sbk, .can, .glk, .hst, .rsm,
   .wir, .din, .dout, .ain, .aout, .trm, .sfc, .smb, .ths, .sio, .spb, .cfg, .rtc, .cal, .slt, .nvm, .enc, .bot, .pwr]

/-- Page number: bank × 256 + page index, with bank 0 and 1 the CTL regions of Half A and Half B, 2 COM, 3 FIO, 4 SAF, 5 MGT. -/
def pageNo (b : Blk) (h : HalfId) (n : Nat) : Nat :=
  (if b.region = 0 then h.n else b.region + 1) * 256 + b.index + n

/-- A page of a CTL block of a half. -/
def ctl (b : Blk) (h : HalfId) : Nat := pageNo b h 0
/-- A page of a shared block. -/
def shp (b : Blk) : Nat := pageNo b .a 0
def pgMpg (h : HalfId) (n : Nat) : Nat := pageNo .mpg h n
def pgLe (h : HalfId) (n : Nat) : Nat := pageNo .le h n
def pgDax (h : HalfId) (n : Nat) : Nat := pageNo .dax h n
def pgCan (n : Nat) : Nat := pageNo .can .a n

/-- Bank of a page number. -/
def bankOf (p : Nat) : Nat := p / 256
/-- Region number of a page. -/
def regionOf (p : Nat) : Nat := if bankOf p ≤ 1 then 0 else bankOf p - 1

/-- The block and instance that hold a page, if any (R47, R49). -/
def pageBlk (p : Nat) : Option (Blk × Nat) :=
  (Blk.list.find? (fun b => b.region = regionOf p ∧ b.index ≤ p % 256 ∧ p % 256 < b.index + b.pages)).map
    (fun b => (b, p % 256 - b.index))

/-- The half of a CTL page. -/
def halfOfPage (p : Nat) : Option HalfId := if bankOf p = 0 then some .a else if bankOf p = 1 then some .b else none

/-- Base address of a page (R45, Table 1; R47). -/
def pageBase (p : Nat) : Nat := 0x40000000 + regionOf p * 0x4000000 + p % 256 * 0x1000

/-! ### Fields -/

/-- Key of a field's word: page, byte offset of the entry, lowest bit, entry of the table. -/
def fkey (p : Nat) (f : Fld) (i t : Nat) : Nat := ((p * 4096 + f.off + i * f.stride) * 32 + f.lo) * 65536 + t

/-- Reset value of a field on a page: the field's own, but for the header fields R52 gives by page. -/
def resetOf (p : Nat) (f : Fld) : Nat :=
  if f = HDR.CTRL_EN then (match pageBlk p with | some (b, _) => b.enReset | none => 0)
  else if f = HDR.OWNER_MID then (if bankOf p = 1 then 9 else 1)
  else f.reset

namespace Dev

/-- Working value of a field, as a number below 2^w. -/
def get (d : Dev) (p : Nat) (f : Fld) (i : Nat := 0) (t : Nat := 0) : Nat :=
  match rfFind (fkey p f i t) d.regs with
  | some v => v.toNat
  | none => resetOf p f

/-- Working value of a field read as a signed number. -/
def geti (d : Dev) (p : Nat) (f : Fld) (i : Nat := 0) (t : Nat := 0) : Int := sgn f.w (d.get p f i t)

/-- Whether a one-bit field is 1. -/
def on (d : Dev) (p : Nat) (f : Fld) (i : Nat := 0) (t : Nat := 0) : Bool := d.get p f i t == 1

/-- Write the working value of a field, truncated to its width. -/
def put (d : Dev) (p : Nat) (f : Fld) (v : Nat) (i : Nat := 0) (t : Nat := 0) : Dev :=
  { d with regs := rfSet (fkey p f i t) (resetOf p f) (BitVec.ofNat 32 (v % 2 ^ f.w)) d.regs }

/-- Write a signed value. -/
def puti (d : Dev) (p : Nat) (f : Fld) (x : Int) (i : Nat := 0) (t : Nat := 0) : Dev := d.put p f (encS f.w x) i t

/-- Write a flag. -/
def putb (d : Dev) (p : Nat) (f : Fld) (b : Bool) (i : Nat := 0) (t : Nat := 0) : Dev := d.put p f b.toNat i t

/-- Add to a counter field that saturates at its largest value. -/
def bump (d : Dev) (p : Nat) (f : Fld) (i : Nat := 0) (t : Nat := 0) : Dev := d.put p f (satU f.w (d.get p f i t + 1)) i t

/-- Add to a counter field that wraps. -/
def wrapUp (d : Dev) (p : Nat) (f : Fld) (i : Nat := 0) (t : Nat := 0) : Dev := d.put p f (d.get p f i t + 1) i t

/-- Set bits of a sticky field. -/
def orBits (d : Dev) (p : Nat) (f : Fld) (m : Nat) (i : Nat := 0) (t : Nat := 0) : Dev := d.put p f ((d.get p f i t).lor m) i t

/-- Set one bit of a field to a value. -/
def putBit (d : Dev) (p : Nat) (f : Fld) (k : Nat) (b : Bool) (i : Nat := 0) (t : Nat := 0) : Dev :=
  d.put p f (setBitN (d.get p f i t) k b) i t

/-- Two 32-bit fields as one 64-bit value, low word first (R64). -/
def get64 (d : Dev) (p : Nat) (lo hi : Fld) (i : Nat := 0) (t : Nat := 0) : Nat :=
  d.get p lo i t + 2 ^ 32 * d.get p hi i t

/-- Write a 64-bit value to its two words. -/
def put64 (d : Dev) (p : Nat) (lo hi : Fld) (v : Nat) (i : Nat := 0) (t : Nat := 0) : Dev :=
  (d.put p lo (v % 2 ^ 32) i t).put p hi (v / 2 ^ 32) i t

/-- Set bit `k` of `STAT.BLOCK` (R52). -/
def stat (d : Dev) (p k : Nat) : Dev := d.orBits p HDR.STAT_BLOCK (2 ^ k)

/-- What `ERR.DETAIL` names on a page of one car or one axis whatever the code: the car on MPG0 to MPG3
(R141), the axis on DAX0 to DAX7 (R215). -/
def errUnit? (p : Nat) : Option Nat :=
  if p / 256 ≤ 1 ∧ 4 ≤ p % 256 ∧ p % 256 ≤ 7 then some (p % 256 - 4)
  else if p / 256 ≤ 1 ∧ 16 ≤ p % 256 ∧ p % 256 ≤ 23 then some (p % 256 - 16) else none

/-- Report an error: `ERR.CODE`, `ERR.COUNT` and `ERR.DETAIL` of the page (R52, R65). -/
def err (d : Dev) (p code : Nat) (detail : Nat := 0) : Dev :=
  ((d.bump p HDR.ERR_COUNT).put p HDR.ERR_CODE code).put p HDR.ERR_DETAIL ((errUnit? p).getD detail)

/-- Whether a page's block operates (`CTRL.EN`). -/
def enabled (d : Dev) (p : Nat) : Bool := d.on p HDR.CTRL_EN

/-! ### Time, halves, free values -/

/-- The 64-bit time-stamp on the commit gate: the RTC count (R27, R458). -/
def now (d : Dev) : Nat := d.get64 (shp .rtc) RTC.NOW_LO RTC.NOW_HI

def half (d : Dev) : HalfId → Half
  | .a => d.ha
  | .b => d.hb

def setHalf (d : Dev) (h : HalfId) (x : Half) : Dev :=
  match h with
  | .a => { d with ha := x }
  | .b => { d with hb := x }

def modHalf (d : Dev) (h : HalfId) (f : Half → Half) : Dev := d.setHalf h (f (d.half h))

/-- Whether the Weir lease is valid and which half holds it (R369). -/
def holder? (d : Dev) : Option HalfId :=
  if d.on (shp .wir) WIR.LEASE_VALID then some (if d.on (shp .wir) WIR.LEASE_HOLDER then .b else .a) else none

/-- The half that holds the lease; with no valid lease, the half that held it last (`WIR.LEASE.HOLDER` keeps its value). -/
def holder (d : Dev) : HalfId := if d.on (shp .wir) WIR.LEASE_HOLDER then .b else .a

/-- Whether a half holds the valid lease. -/
def holds (d : Dev) (h : HalfId) : Bool := d.holder? == some h

/-- Whether a half is ACTIVE (R342, Table 1; `HLF.STATE.OWN`). -/
def active (d : Dev) (h : HalfId) : Bool := d.get (ctl .hlf h) HLF.STATE_OWN == 0

/-- Whether a half runs: ACTIVE, STANDBY_SYNC or STANDBY_STALE. -/
def running (d : Dev) (h : HalfId) : Bool := decide (d.get (ctl .hlf h) HLF.STATE_OWN ≤ 2)

/-- What half control keeps of a half. -/
def hlf (d : Dev) : HalfId → Hlf
  | .a => d.hlfA
  | .b => d.hlfB

def modHlf (d : Dev) (h : HalfId) (f : Hlf → Hlf) : Dev :=
  match h with
  | .a => { d with hlfA := f d.hlfA }
  | .b => { d with hlfB := f d.hlfB }

/-- Whether the executive of a half is STOPPED or HALTED (R321, Table 2). -/
def cyxIdle (d : Dev) (h : HalfId) : Bool := d.get (ctl .cyx h) CYX.STATE_CODE != 1

/-- Whether a command block of a half takes commands: the half is ACTIVE (R119) and its executive runs (R319). -/
def takes (d : Dev) (h : HalfId) : Bool := d.active h && !d.cyxIdle h

/-- A fresh free word, and the counter advanced. -/
def fresh (d : Dev) : BitVec 32 × Dev := (Config.freeWord d.freeCtr, { d with freeCtr := d.freeCtr + 1 })

/-- A fresh free choice, and the counter advanced. -/
def freshBool (d : Dev) : Bool × Dev := (Config.freeBool d.freeCtr, { d with freeCtr := d.freeCtr + 1 })

end Dev

end Sys2Proof.Machine
end

