-- ==== Sys2Proof/Machine/Init.lean ====
section
/-! DEFINITION. What each block holds when its region leaves reset, and the part before its first power-up. Register fields hold the reset
values of Regs.lean. -/
namespace Sys2Proof.Machine

open Sys2Proof

/-- A CAN controller with nothing in progress. -/
def CanCh.init : CanCh := ⟨0, none, none, false, false, false, none, false, none, none⟩
/-- A cycle executive with no image. -/
def Cyx.init : Cyx := ⟨none, none, none, 0, 0, [], [], false, none, false, false, 0, 0, none, none, false, none, [], false, none⟩
/-- The enclave with its private key and no session. -/
def Enc.init : Enc := ⟨[none, none, none], [0, 0, 0], [false, false, false], none, true, [none, none, none], 0⟩
/-- A position of which nothing has been heard. -/
def GNode.init : GNode := ⟨255, 255, 0, 0, 0, false, false, none, 0, 0, false, none, []⟩
/-- The group link with no position heard. -/
def Glk.init : Glk := ⟨List.replicate 18 GNode.init, 0, false, 255, [none, none], [[], []], 0, 0, 0, 0, [], [], none, false, none, 0, [0, 0], [], [], [], [none, none]⟩
/-- A loop whose next sample is a start sample. -/
def LoopSt.init : LoopSt := ⟨0, true, false, 0, false⟩
/-- A loop engine that has run no loop. -/
def Le.init : Le := ⟨List.replicate 32 LoopSt.init, List.replicate 48 (0, 0), List.replicate 4 0, [], [], [], [], 0, [], []⟩
/-- A motion profile generator at rest at 0. -/
def Mpg.init : Mpg := ⟨0, 0, 0, [], 0, false, none, none, false, 0, none, false, false, 0, 0, false⟩
/-- A car of which POS has no position. -/
def PosCar.init : PosCar := ⟨0, 0, [], 0, 0, 0, none, true⟩
/-- A door axis at rest at 0. -/
def Dax.init : Dax := ⟨none, 0, 0, 0, 1, 0, false, false, 0, none, 0, false, 0, none, none, false, false, 0, 0, 0⟩
/-- A microstep channel that holds count 0. -/
def StpCh.init : StpCh := ⟨0, 0, 0, 0, true, 0, 0, false, false, false⟩
/-- An empty call. -/
def Call.init : Call := ⟨0, 0, 0, 0, 0, false, false, false, false, 0, false, false, 0, 0, 0, 0, 0, 0, false, false⟩
/-- Shoal with no call and no car record. -/
def Shl.init : Shl := ⟨[], List.replicate 64 [], List.replicate 64 none, [], [], 0, [], [], [], [], false, List.replicate 64 0,
  List.replicate 64 false, List.replicate 64 none, [none, none, none, none], [], []⟩
/-- A page in which nothing is written yet. -/
def SiltPage.empty (pseq flags clearCnt : Nat) : SiltPage := ⟨pseq, 0, 0xFFFFFFFF, 0xFFFF, flags, clearCnt, [], 0, false⟩
/-- Silt with nothing written. -/
def Silt.init : Silt :=
  ⟨[], [], none, none, [], SiltPage.empty 0 0 0, 0, 0, 0, 0, false, List.replicate 4 ⟨none, []⟩, List.replicate 4 none, List.replicate 4 none, none, none,
    [], none⟩
/-- A car without a latched cause. -/
def SafCar.init : SafCar := ⟨0, none, 0, none, none, false, false, false, false, false, false, none, none, 0, 0, 0, [], [], false, 0⟩
/-- A car of Theath without a latched cause. -/
def ThCar.init : ThCar := ⟨0, [], 0, [], 0, false, false, false, 0, 0⟩
/-- The safety region without a block. -/
def Saf.init : Saf := ⟨none, [], [], false, 0, 0, 0, 0, 0, [0, 0, 0, 0], 0, 0, [], [], List.replicate 4 SafCar.init,
  List.replicate 4 ThCar.init, none, false, none, 0, false, false⟩
/-- SEP with nothing waiting. -/
def Sep.init : Sep := ⟨none, false, [false, false, false, false]⟩
/-- POS before its first period. -/
def Pos.init : Pos := ⟨List.replicate 4 PosCar.init, false, List.replicate 16 [], [], [], 0⟩
/-- A half out of reset. -/
def Half.init : Half :=
  ⟨0, Pos.init, List.replicate 4 Mpg.init, Sep.init, List.replicate 3 Le.init, List.replicate 8 Dax.init, List.replicate 4 StpCh.init, Shl.init,
    Cyx.init, []⟩
/-- Half control out of reset. -/
def Hlf.init : Hlf := ⟨false, false, false, [], 0, 0, 0, false, none, none, [], [], none, 0, false⟩
/-- The Weir with no claim. -/
def Weir.init : Weir := ⟨[], none, none, false, 0⟩
/-- The commit manager with no generation stored. -/
def Store.init : Store := ⟨[none, none], none, none, none, [none, none]⟩
/-- The part without supply: nRESET is open, no input is IN_OK, and nothing has been released (R529 to R534). -/
def Boot.init : Boot :=
  { nreset := false, good := false, holdup := false, mark := false, released := false, verified := false, hostImg := [], tempEp := false,
    vinEp := [false, false], strapNoted := false, powerUp := false, frcLost := false, secs := 0, partKey := 0 }
/-- The field region held in reset: safe-state causes 1 and 4 stand (R430, R534). -/
def Fio.init : Fio := ⟨0x12, [0, 0, 0, 0, 0], 0, 0, 0, 0, false, List.replicate 8 [], 0, [0, 0, 0, 0], 0⟩

/-- The part as the factory leaves it, with every field at its reset value: the fuses, the key store and every stored datum are the model's choice
(notes/assumptions/13.md). -/
def Dev.blank : Dev :=
  { regs := [], shadow := [], immCnt := [], resp := ⟨[], false, 0⟩, freeCtr := 0, cfgFrozen := false, ha := Half.init, hb := Half.init,
    enc := [0, 0, 0, 0], pCopy := List.replicate 8 ⟨0, 0, 0, 0⟩, pRes := List.replicate 4 none, pClm := List.replicate 4 none, pEpoch := none, pInt := List.replicate 4 none, stpPins := List.replicate 4 StpCh.init,
    carDoorShut := List.replicate 16 false, landShut := List.replicate 512 false, silt := Silt.init, fio := Fio.init,
    can := List.replicate 4 CanCh.init, lane := ⟨[], [], [], [], 0, []⟩, rtc := ⟨0, none, false, [false, false, false, false], false, false⟩,
    glk := Glk.init, hlfA := Hlf.init, hlfB := Hlf.init, weir := Weir.init, store := Store.init, encl := Enc.init, boot := Boot.init,
    mbad := [], mces := [], remap := [], remapBad := [], fenced := [], aborting := [], badRegs := [], saf := Saf.init, keys := [], mram := [] }

/-- The part before its first power-up: the fuses say FIELD and a device identifier, and the outputs stand in the safe state. -/
def Dev.init : Dev := ((Dev.blank.put (shp .enc) ENC.LIFE_STATE 2).put (shp .enc) ENC.DEV_ID_LO 1).put (shp .dout) DOUT.STATE_CAUSE 1

end Sys2Proof.Machine
end

