-- ==== Sys2Proof/Machine/State.lean ====
section
/-! DEFINITION. The state of the block, why a command can stop it, and the state before the first power-up. -/
namespace Sys2Proof.Machine

/-- Why a command can stop the block with a fault: there is none. Every error the spec describes is state (a code in `ERR`, a
status bit, a record, a bus error response) after which the part goes on. -/
inductive Fault where
  deriving DecidableEq, Repr

/-- Why a command is refused. -/
inductive Refusal where
  /-- Raised by an arm of `exec` that has no meaning yet; safe, since nothing is claimed of such a command. -/
  | notModelled (mnemonic : String)
  deriving DecidableEq, Repr

/-- The part and the queue of waiting commands, first in, first out. -/
structure State where
  dev : Dev
  pending : List Instr
  deriving DecidableEq, Repr

/-- The part as it is fitted, in reset, with nothing stored and no command waiting. -/
def State.reset : State := ⟨Dev.init, []⟩

end Sys2Proof.Machine
end

