-- ==== Sys2Proof/Machine/Plan.lean ====
section
/-! DEFINITION. The seven-phase profile: integration over whole nanoseconds, transitions between speeds, the plan of a move, and
the minimum stopping point (spec/04_motion.md, R111 to R114, R121, R123, R125). Positions are µm × 6·10²⁷, speeds µm/s × 2·10¹⁸,
accelerations µm/s² × 10⁹ (notes/assumptions/10.md). -/
namespace Sys2Proof.Machine

/-- Position, speed and acceleration in the profile's units. -/
structure Kin where
  x : Int
  v : Int
  a : Int
  deriving DecidableEq, Repr

def unitX : Int := 6 * 10 ^ 27
def unitV : Int := 2 * 10 ^ 18
def unitA : Int := 10 ^ 9

/-- The state `t` ns into a phase with jerk `j` (R111). -/
def Kin.adv (k : Kin) (j t : Int) : Kin :=
  ⟨k.x + 3 * k.v * t + 3 * k.a * t * t + j * t * t * t, k.v + 2 * k.a * t + j * t * t, k.a + j * t⟩

/-- The state at the end of a phase; phases 3 and 7 end with no acceleration (R111, Table 2). -/
def Kin.endSeg (k : Kin) (g : Seg) : Kin :=
  let k' := k.adv g.j g.t
  if g.ph = 3 ∨ g.ph = 7 then { k' with a := 0 } else k'

/-- The state at the end of a list of phases. -/
def Kin.run (k : Kin) (gs : List Seg) : Kin := gs.foldl Kin.endSeg k

/-- Advance by `t` ns across phase boundaries: the new state and the phases that remain. -/
def advSegs : Kin → List Seg → Nat → Kin × List Seg
  | k, [], _ => (k, [])
  | k, g :: gs, t =>
    if g.t ≤ t then advSegs (k.endSeg g) gs (t - g.t) else (k.adv g.j t, { g with t := g.t - t } :: gs)

/-- Three phases, numbered from `ph`, that raise the speed by `dv` from acceleration `a` with peak acceleration `lim` and jerk `j`,
the first phase at jerk `j1` (R112, R114, R126). -/
def rampUp (ph : Nat) (dv a lim j1 j : Int) : List Seg :=
  let p2 := (dv * j1 + a * a) * j / (j1 + j)
  let ap : Int := if p2 ≥ lim * lim then lim else isqrt p2.toNat
  let s1 : Int := if ap ≥ a then j1 else -j
  let t1 := (ap - a) / s1
  let d1 := if ap ≥ a then (ap * ap - a * a) / j1 else (a * a - ap * ap) / j
  let t2 := if p2 ≥ lim * lim ∧ ap > 0 then (dv - d1 - ap * ap / j) / (2 * ap) else 0
  [⟨ph, s1, t1.toNat⟩, ⟨ph + 1, 0, t2.toNat⟩, ⟨ph + 2, -j, (ap / j).toNat⟩]

/-- The same phases with the direction turned round. -/
def mirror (gs : List Seg) : List Seg := gs.map (fun g => { g with j := -g.j })

/-- The acceleration and jerk limits a plan is made under; `j1` is the jerk of phase 1. -/
structure Lim where
  a : Int
  d : Int
  j1 : Int
  j : Int

/-- Phases 1 to 3 from the present speed and acceleration to speed `vp`: accelerating under A, or decelerating under D (R114, R123). -/
def transition (L : Lim) (v a vp : Int) : List Seg :=
  if vp - v ≥ a * a.natAbs / L.j then rampUp 1 (vp - v) a (L.a * unitA) L.j1 L.j
  else mirror (rampUp 1 (v - vp) (-a) (L.d * unitA) L.j1 L.j)

/-- Phases 5 to 7 from speed `vp`. -/
def decel (L : Lim) (vp : Int) : List Seg := mirror (rampUp 5 vp 0 (L.d * unitA) L.j L.j)

/-- Distance that a plan with peak speed `vp` covers. -/
def planDist (L : Lim) (v a vp : Int) : Int := (Kin.run (Kin.run ⟨0, v, a⟩ (transition L v a vp)) (decel L vp)).x

/-- The bisection of R112: the largest speed found whose plan covers at most `s`. -/
def bisect (L : Lim) (v a s : Int) : Nat → Int → Int → Int
  | 0, lo, _ => lo
  | n + 1, lo, hi =>
    let m := (lo + hi) / 2
    if planDist L v a m ≤ s then bisect L v a s n m hi else bisect L v a s n lo m

/-- The phases of a move over distance `s` under speed limit `V`, in the direction of travel (R112, R114). -/
def planMove (L : Lim) (v a s V : Int) : List Seg :=
  let full := planDist L v a V
  if full ≤ s then
    transition L v a V ++ [⟨4, 0, (if V > 0 then (s - full) / (3 * V) else 0).toNat⟩] ++ decel L V
  else
    let vp := bisect L v a s 32 0 V
    transition L v a vp ++ decel L vp

/-- The phases of a stop from speed `v` ≥ 0 and acceleration `a` in the direction of travel (R121, R125): the full ramp, or, for a car
that decelerates harder than its stop needs, the ramp toward 0 until the speed reaches 0. A car that decelerates harder than `D` while
speed is left for the ramp to 0 goes through the transition to `D` first (R121, R124, R130). -/
def planStop (L : Lim) (v a : Int) : List Seg :=
  let am2 := (L.j * v + a * a) / 2
  let lim := L.d * unitA
  let am : Int := if am2 ≥ lim * lim then lim else isqrt am2.toNat
  if a + am ≥ 0 ∨ a * a < L.j * v then mirror (rampUp 5 v (-a) lim L.j L.j)
  else [⟨7, L.j, ((-a - isqrt (a * a - L.j * v).toNat) / L.j).toNat⟩]

/-- Stopping distance in whole µm, accumulated in 1/256 µm and rounded away from the car (R121). -/
def stopUm (L : Lim) (v a : Int) : Int :=
  let s := (Kin.run ⟨0, v, a⟩ (planStop L v a)).x * 256 / unitX
  (s + 255) / 256

/-- The speed that remains when the present acceleration is ramped to 0 at jerk J (R125). -/
def rampedSpeed (j v a : Int) : Int := v + a * a.natAbs / j

end Sys2Proof.Machine
end

