-- ==== Sys2Proof/Machine/Ops.lean ====
section
/-! DEFINITION. The named operations over registers, pages, records and staged values that every meaning is built from. -/
namespace Sys2Proof.Machine

open Sys2Proof

/-! ### Masters, privilege and roles (R56, R66, R502, R505) -/

/-- The half of an application core's MID. -/
def Who.half? (w : Who) : Option HalfId :=
  if 1 ≤ w.mid ∧ w.mid ≤ 4 then some .a else if 9 ≤ w.mid ∧ w.mid ≤ 12 then some .b else none

/-- Index of an application core in its half. -/
def Who.core (w : Who) : Nat := if w.mid ≥ 9 then w.mid - 9 else w.mid - 1

/-- The part acting on its own (R476, MID 0x00). -/
def Who.part : Who := ⟨0, false⟩

/-- Requester group of the enclave (R502): 0 cores, 1 host link, 2 debug. -/
def Who.encGrp (w : Who) : Nat := if w.mid = 0x12 then 1 else if w.mid = 0x13 then 2 else 0

/-- Master group of Silt (R489): 0 Half A cores, 1 Half B cores, 2 host link, 3 debug. -/
def Who.sltGrp (w : Who) : Nat :=
  if w.mid = 0x12 then 2 else if w.mid = 0x13 then 3 else if w.half? = some .b then 1 else 0

/-- Whether an access is privileged or secure (R66, Table 9): machine mode of a core, the safety pair and the enclave, the
host link within a session (R513), debug while it is unlocked (R515). -/
def Dev.privileged (d : Dev) (w : Who) : Bool :=
  if w.half?.isSome then w.mach
  else if w.mid = 0x10 ∨ w.mid = 0x11 then true
  else if w.mid = 0x12 then d.on (shp .hst) HST.STATUS_SESSION
  else if w.mid = 0x13 then d.get (shp .enc) ENC.LIFE_STATE == 0 || d.get (shp .enc) ENC.LIFE_STATE == 1 || d.get (shp .enc) ENC.LIFE_STATE == 3
  else false

/-- The role an access carries: the authorisation of its group, on privileged accesses only (R505). -/
def Dev.roleOf (d : Dev) (w : Who) : Nat :=
  if d.privileged w then d.get (shp .enc) ENC.AUTH_ROLE 0 w.encGrp else 0

/-- Whether a role includes another (R505): safety engineer ⊇ engineer ⊇ operator, custodian ⊇ operator only. -/
def roleIncludes (have_ need : Nat) : Bool :=
  need == 0 || have_ == need || (need == 1 && (have_ == 2 || have_ == 3 || have_ == 4)) || (need == 2 && have_ == 3)

/-- The PRIV byte of a record (R476). -/
def Dev.privByte (d : Dev) (w : Who) : Nat := (d.privileged w).toNat + 2 * d.roleOf w

/-! ### Silt intake (R480, R483) -/

/-- Bytes a record takes in the queue: header and padded payload. -/
def Rec.bytes (r : Rec) : Nat := 24 + (r.len + 7) / 8 * 8

/-- Whether a class uses the reserved intake space (R477, Table 2). -/
def protectedCls (c : Nat) : Bool := c == 2 || c == 5 || c == 6 || c == 8 || c == 0xB

/-- Entries queued. -/
def Silt.used (s : Silt) : Nat := s.qProt.length + s.qUn.length

/-- Bytes queued. -/
def Silt.usedBytes (s : Silt) : Nat := ((s.qProt ++ s.qUn).map Rec.bytes).sum

/-- Free pages of the ring. -/
def Dev.siltFree (d : Dev) : Nat := d.get (shp .slt) SLT.PAGES_TOTAL - (d.silt.pages.length + 1)

/-- Whether the intake takes a record now (R480; in HOLD mode also R487). -/
def Dev.siltTakes (d : Dev) (r : Rec) : Bool :=
  let full := d.on (shp .slt) SLT.CFG_FULL_MODE && d.siltFree == 0
  let hold := d.on (shp .slt) SLT.CFG_FULL_MODE && decide (d.siltFree ≤ 64)
  let freeE := 4096 - d.silt.used
  let freeB := 262144 - d.silt.usedBytes
  if protectedCls r.cls then !full && decide (freeE ≥ 1 ∧ freeB ≥ r.bytes)
  else !hold && decide (freeE ≥ 513 ∧ freeB ≥ 32768 + r.bytes)

/-- One more lost record of an episode. -/
def lossStep (l : Option Loss) (ts : Nat) : Option Loss :=
  match l with
  | none => some ⟨1, ts, ts⟩
  | some l => some ⟨l.count + 1, l.tsFirst, ts⟩

/-- A record is lost (R480, R495): SLT_LOST, counted, and the first of its group opens a loss episode (R483). The detail is the master group of a post of firmware (R495). -/
def Dev.lose (d : Dev) (r : Rec) : Dev :=
  let p := shp .slt
  let g := if r.cls = 0 ∨ r.cls = 0xA then (⟨r.mid, false⟩ : Who).sltGrp else 0
  if protectedCls r.cls then
    let d1 := { d with silt := { d.silt with lossProt := lossStep d.silt.lossProt r.ts } }.bump p SLT.LOST_PROT
    (if d.silt.lossProt.isNone then d1.stat p 0 else d1).err p 0xC8 g
  else
    let d1 := { d with silt := { d.silt with lossUn := lossStep d.silt.lossUn r.ts } }.bump p SLT.LOST_UNPROT
    (if d.silt.lossUn.isNone then d1.stat p 0 else d1).err p 0xC8 g

/-- Post a record: queue it, or lose it (R28, R480). -/
def Dev.post (d : Dev) (r : Rec) : Dev :=
  if d.siltTakes r then
    let s := if protectedCls r.cls then { d.silt with qProt := d.silt.qProt ++ [r] } else { d.silt with qUn := d.silt.qUn ++ [r] }
    { d with silt := s }.put (shp .slt) SLT.QUEUE_USED (d.silt.used + 1)
  else d.lose r

/-- SRC of a record from the page that posts it (R476): the CTL regions, COM, FIO, the safety pair, MGT, the enclave. -/
def srcOf (p : Nat) : Nat := if p = shp .enc then 7 else if bankOf p ≤ 1 then bankOf p else if bankOf p = 5 then 6 else bankOf p

/-- A record of the part acting on its own, from a page. -/
def Dev.note (d : Dev) (p cls code : Nat) (detail : Nat := 0) (words : List Nat := []) : Dev :=
  d.post ⟨d.now, 0, words.length * 4, cls, code, srcOf p, p % 256, 0, 0, detail, words.flatMap (leBytes 4)⟩

/-- A record caused by a master's access. -/
def Dev.noteBy (d : Dev) (w : Who) (p cls code : Nat) (detail : Nat := 0) (words : List Nat := []) : Dev :=
  d.post ⟨d.now, 0, words.length * 4, cls, code, srcOf p, p % 256, w.mid, d.privByte w, detail, words.flatMap (leBytes 4)⟩

/-- Record classes (R477, Table 2). -/
def clsConfig : Nat := 1
def clsRefused : Nat := 2
def clsState : Nat := 3
def clsFault : Nat := 4
def clsSafety : Nat := 5
def clsSecurity : Nat := 6
def clsTime : Nat := 7
def clsPower : Nat := 8
def clsRepair : Nat := 9
def clsSilt : Nat := 0xB

/-- Common codes of R65, Table 8. -/
def cRANGE : Nat := 0x01
def cPAIR : Nat := 0x02
def cPRIV : Nat := 0x03
def cLOCKED : Nat := 0x04
def cZERO : Nat := 0x05
def cBUSY : Nat := 0x06
def cABORTED : Nat := 0x07
def cECC : Nat := 0x08
def cTIMEOUT : Nat := 0x09
def cSAFETY : Nat := 0x0A
def cSEAL : Nat := 0x0B
def cFENCED : Nat := 0x0C
def cSIGNATURE : Nat := 0x0D

/-- A REFUSED record: address, value, kind of access (R479). -/
def Dev.refuse (d : Dev) (w : Who) (p reason addr value kind : Nat) : Dev :=
  d.noteBy w p clsRefused reason 0 [addr, value, kind]

/-- A fault or a state change that has a code: `ERR`, and a record of the class given. -/
def Dev.fault (d : Dev) (p code : Nat) (detail : Nat := 0) (words : List Nat := []) : Dev :=
  (d.err p code detail).note p clsFault code detail words

/-! ### Commands with a result register (R115, R116, R173, R196) -/

/-- The fields of a result register: state, reason, tag, sequence number. -/
structure ResFields where
  state : Fld
  reason : Fld
  tag : Fld
  seq : Fld

/-- Show a result. -/
def Dev.showRes (d : Dev) (p : Nat) (r : ResFields) (state reason tag : Nat) : Dev :=
  ((d.put p r.state state).put p r.reason reason).put p r.tag tag

/-- Report the command taken at an event: ACCEPTED, or REJECTED with its reason (R115), and `STAT.BLOCK` bit 0. -/
def Dev.takenRes (d : Dev) (p : Nat) (r : ResFields) (tag seq : Nat) (why : Option Nat) : Dev :=
  ((d.showRes p r (if why.isSome then 3 else 2) (why.getD 0) tag).put p r.seq (seq % 65536)).stat p 0

/-- A GO write (R116): the command that waits after it, and the report. `stops` are the operations that only `over_` replaces. -/
def Dev.goWrite (d : Dev) (p : Nat) (r : ResFields) (waiting : Option GoCmd) (c : GoCmd) (stops : List Nat) (over_ : List Nat)
    (busy : Nat) (shows : Bool) : Dev × Option GoCmd :=
  match waiting with
  | none => (if shows then d.showRes p r 1 0 c.tag else d, some c)
  | some w =>
    if stops.contains w.op && !over_.contains c.op then (if shows then d.showRes p r 3 busy c.tag else d, some w)
    else (if shows then d.showRes p r 4 0 w.tag else d, some c)

/-- Both halves in turn. -/
def Dev.both (d : Dev) (f : Dev → HalfId → Dev) : Dev := f (f d .a) .b

/-- A meaning that acts on the part whether or not it is in reset: supplies, resets, and the always-on domain (R534). -/
def onAny (f : Dev → Dev) (s : State) : Host.Outcome State Fault Refusal := .next { s with dev := f s.dev }

/-- A meaning that acts on the part and leaves the queue alone. Between a reset and the release every region is held in reset, and nothing
happens in it (R534). -/
def onDev (f : Dev → Dev) (s : State) : Host.Outcome State Fault Refusal := onAny (fun d => if d.boot.released then f d else d) s

end Sys2Proof.Machine
end

