-- ==== Sys2Proof/Machine/Operands.lean ====
section
/-! DEFINITION. Operand forms: which fields stand at an offset of a page, which entry of a table an access reaches, and the word a
read of a register returns. -/
namespace Sys2Proof.Machine

open Sys2Proof

/-- The block-specific fields of a block. -/
def Blk.fields : Blk → List Fld
  | .cyx => CYX.all | .tmc => TMC.all | .frc => FRC.all | .mpg => MPG.all | .sep => SEP.all | .le => LE.all | .dax => DAX.all
  | .stp => STP.all | .pos => POS.all | .shl => SHL.all | .mir => MIR.all | .hlf => HLF.all | .sbk => SBK.all
  | .can => CAN.all | .glk => GLK.all | .hst => HST.all | .rsm => RSM.all
  | .wir => WIR.all | .din => DIN.all | .dout => DOUT.all | .ain => AIN.all | .aout => AOUT.all | .trm => TRM.all
  | .sfc => SFC.all | .smb => SMB.all | .ths => THS.all | .sio => SIO.all | .spb => SPB.all
  | .cfg => CFG.all | .rtc => RTC.all | .cal => CAL.all | .slt => SLT.all | .nvm => NVM.all | .enc => ENC.all
  | .bot => BOT.all | .pwr => PWR.all

/-- The index in a register array whose word stands at byte offset `off`, if the field has one there. -/
def Fld.at? (f : Fld) (off : Nat) : Option Nat :=
  if f.stride = 0 then (if off = f.off then some 0 else none)
  else if f.off ≤ off ∧ (off - f.off) % f.stride = 0 ∧ (off - f.off) / f.stride < f.cnt then some ((off - f.off) / f.stride)
  else none

/-- The fields whose word stands at an offset of a page, with their array index; the common header first (R52). -/
def fieldsAt (p off : Nat) : List (Fld × Nat) :=
  (if off < 0x40 then HDR.all else (match pageBlk p with | some (b, _) => b.fields | none => [])).filterMap
    (fun f => (f.at? off).map (fun i => (f, i)))

/-- The access code of a field on a page: `SERVO_CFG` is staged on MPG0 and read-only on MPG1–MPG3 (R109); a `CTRL.EN` that reads 1 always takes no
writes. -/
def accOn (p : Nat) (f : Fld) : Acc :=
  if (f = MPG.SERVO_CFG_MULT ∨ f = MPG.SERVO_CFG_EXP_DIV) ∧ p % 256 ≠ 4 then .ro
  else if f = HDR.CTRL_EN ∧ (match pageBlk p with | some (b, _) => b.enFixed | none => false) = true then .ro
  else f.acc

namespace Dev

/-- The entry of a table an access reaches: by the page's index register, the half or the master group of the access. -/
def tabIdx (d : Dev) (p : Nat) (f : Fld) (w : Who) : Nat :=
  match f.tab with
  | .one => 0
  | .half => (w.half?.getD d.holder).n
  | .grp => if p = shp .slt then w.sltGrp else w.encGrp
  | .ltIdx => d.get p POS.LT_IDX_IDX
  | .lrnIdx => d.get p POS.LRN_IDX_IDX
  | .leLoop => d.get p LE.WIN_LOOP
  | .leTbl => (d.get p LE.TBL_SEL_TBL * 2 + d.get p LE.TBL_SEL_BANK) * 2048 + d.get p LE.TBL_ADDR_WORD
  | .leBad => d.get p LE.TBL_SEL_TBL * 2 + d.get p LE.TBL_SEL_BANK
  | .camIdx => d.get p DAX.CAM_IDX_IDX
  | .ftSel => d.get p SHL.FT_SEL_SHAFT
  | .ftIdx => d.get p SHL.FT_SEL_SHAFT * 256 + d.get p SHL.FT_IDX_IDX
  | .fmIdx => d.get p SHL.FM_SEL_SHAFT * 256 + d.get p SHL.FM_IDX_FLOOR
  | .carIdx => d.get p SHL.CAR_IDX_CAR
  | .callIdx => d.get p SHL.CALL_IDX_SLOT
  | .stopSel => d.get p SHL.STOP_SEL_CAR * 32 + d.get p SHL.STOP_SEL_IDX
  | .stopCar => d.get p SHL.STOP_SEL_CAR
  | .tmcSel => d.get p TMC.SEL_EDGE * 1024 + d.get p TMC.SEL_IDX
  | .frcIdx => d.get p FRC.IDX_IDX
  | .txSel => d.get p CAN.TX_SEL_BUF
  | .rxSel => d.get p CAN.RX_SEL_IDX
  | .ttCol => d.get p CAN.TT_SEL_COL
  | .ttCell => d.get p CAN.TT_SEL_ROW * 32 + d.get p CAN.TT_SEL_COL
  | .stnIdx => d.get p RSM.STN_IDX_STN
  | .cfgRd => 0
  | .spbAddr => d.get p SPB.ADDR_WORD
  | .sltRd => w.sltGrp
  | .tokAddr => w.encGrp * 1024 + d.get p ENC.TOK_ADDR_WORD 0 w.encGrp
  | .repAddr => w.encGrp * 1024 + d.get p ENC.REP_ADDR_WORD 0 w.encGrp

/-- The shadow an access reaches: its half's on a page that keeps one per half, that of the lease holder for masters of no half
(R60), and the page's only one elsewhere. -/
def shadowOf (d : Dev) (p : Nat) (w : Who) : Option HalfId :=
  match pageBlk p with
  | some (b, _) => if b.perHalf then some (w.half?.getD d.holder) else none
  | none => none

/-- Entry index of the `COMMIT` fields: each half reads its own on a page with one shadow per half (R60). -/
def commitIdx (half : Option HalfId) : Nat := (half.map HalfId.n).getD 0

/-- The staged value of a field, if one waits. -/
def staged? (d : Dev) (p : Nat) (half : Option HalfId) (f : Fld) (i t : Nat) : Option Staged :=
  d.shadow.find? (fun e => e.page = p ∧ e.half = half ∧ e.fld = f ∧ e.i = i ∧ e.t = t)

/-- The staged value of a field, or its working value when nothing is staged (R58, R53). -/
def view (d : Dev) (p : Nat) (half : Option HalfId) (f : Fld) (i t : Nat) : Nat :=
  match d.staged? p half f i t with
  | some e => e.val.toNat
  | none => d.get p f i t

/-- The header fields that R52 gives by page, and the status peek; every other field by `get`. `CAP.STAGED` is formed from the block's own RS fields:
the staged fields of the header, which every page has, do not count (notes/assumptions/67.md). -/
def getRO (d : Dev) (p : Nat) (f : Fld) (i t : Nat) : Nat :=
  match pageBlk p with
  | none => 0
  | some (b, n) =>
    if f = HDR.ID_TYPE then b.region * 256 + b.index
    else if f = HDR.ID_INST then n + (if bankOf p = 1 then 128 else 0)
    else if f = HDR.CAP_BSEL_OK then (!b.selectable.isEmpty).toNat
    else if f = HDR.CAP_STAGED then (b.fields.any (fun f => decide (f.acc = .rs))).toNat
    else if f = HDR.CAP_PER_HALF then b.perHalf.toNat
    else if f = HDR.STAT_PEEK_BITS then
      d.get p HDR.STAT_BLOCK + 2 ^ 29 * d.get p HDR.STAT_ABORTED + 2 ^ 30 * d.get p HDR.STAT_APPLIED + 2 ^ 31 * d.get p HDR.STAT_REJECTED
    else d.get p f i t

/-- What a read of one field returns to a master (R53): the shadow of a staged field, 0 for a write-only or action field, 0 for
a privileged field to a master without privilege, else the working value. -/
def readField (d : Dev) (w : Who) (p : Nat) (f : Fld) (i : Nat) : Nat :=
  let half := d.shadowOf p w
  let t := if f = HDR.COMMIT_SEQ ∨ f = HDR.COMMIT_RESULT ∨ f = HDR.COMMIT_REASON then commitIdx half else d.tabIdx p f w
  match accOn p f with
  | .wo | .w1 => 0
  | .pv => if d.privileged w then d.get p f i t else 0
  | .rs => d.view p half f i t
  | _ => d.getRO p f i t

/-- The word at an offset of a page as a master reads it, without side effects. -/
def readWord (d : Dev) (w : Who) (p off : Nat) : Nat :=
  ((fieldsAt p off).map (fun fi => d.readField w p fi.1 fi.2 % 2 ^ fi.1.w * 2 ^ fi.1.lo)).sum

/-- The working word at a register entry, for a CONFIG record (R478). -/
def workWord (d : Dev) (p off t : Nat) : Nat :=
  ((fieldsAt p off).map (fun fi => d.get p fi.1 fi.2 (if fi.1.tab = .one then 0 else t) % 2 ^ fi.1.w * 2 ^ fi.1.lo)).sum

/-- The word at a register entry with its staged values in place: the new value of a rejection's CONFIG record (R61). -/
def stagedWord (d : Dev) (p : Nat) (half : Option HalfId) (off t : Nat) : Nat :=
  ((fieldsAt p off).map (fun fi => d.view p half fi.1 fi.2 (if fi.1.tab = .one then 0 else t) % 2 ^ fi.1.w * 2 ^ fi.1.lo)).sum

end Dev

end Sys2Proof.Machine
end

