-- ==== Sys2Proof/Machine/Stage.lean ====
section
/-! DEFINITION. Staging and the apply of staged values at a boundary event (R51, R58 to R63), and the block abort (R67). -/
namespace Sys2Proof.Machine

open Sys2Proof

/-- The reason a field's own range check gives for a value, if it fails (R58, R63). -/
def Chk.why : Chk → Nat → Option Nat
  | .any, _ => none
  | .nz, v => if v = 0 then some cZERO else none
  | .upto hi, v => if v > hi then some cRANGE else none
  | .span lo hi, v => if v = 0 then some cZERO else if v < lo ∨ v > hi then some cRANGE else none
  | .within lo hi, v => if v < lo ∨ v > hi then some cRANGE else none
  | .oneOf vs, v => if vs.contains v then none else some cRANGE

/-- A failing consistency rule: the fields that take part in it (with array index and entry) and its reason. -/
structure RuleFail where
  fields : List (Fld × Nat × Nat)
  why : Nat

/-- How a page reads a field while its rules are checked: the staged value, or the working value (R58). -/
abbrev View := Fld → Nat → Nat → Nat

/-- Code of a boundary in `CTRL.BSEL` (R50, Table 3). -/
def Bnd.code : Bnd → Nat
  | .none => 0 | .cycle => 1 | .servo => 2 | .frame => 3 | .tick => 4 | .second => 5 | .immediate => 6

/-- The header rule of every page: a `CTRL.BSEL` outside the page's Selectable column is RANGE (R50). -/
def hdrFails (p : Nat) (v : View) : List RuleFail :=
  match pageBlk p with
  | some (b, _) =>
    let c := v HDR.CTRL_BSEL 0 0
    if c = 0 ∨ (b.selectable.map Bnd.code).contains c then [] else [⟨[(HDR.CTRL_BSEL, 0, 0)], cRANGE⟩]
  | none => []

/-- The writer of a staged value that comes from the committed configuration: no MID of R66, Table 9 (R71). -/
def cfgMid : Nat := 0x100

/-- Multi-word staged fields: low and high word (R62). -/
def wordPairs : List (Fld × Fld) := [(GLK.MAC_LO, GLK.MAC_HI), (FRC.VAL_LO, FRC.VAL_HI), (RTC.ALM_LO, RTC.ALM_HI)]

namespace Dev

/-- Whether the module is strapped as manager or standby manager (R8, R9). -/
def isManager (d : Dev) : Bool := decide (d.get (shp .glk) GLK.ROLE_STRAP ≥ 2)

/-- The motion, loop, lane-planner and door blocks of a manager or standby manager stay disabled (R9): their `CTRL.EN` = 1 is held back. The
reason is the model's choice (notes/assumptions/61.md). -/
def roleFails (d : Dev) (p : Nat) (v : View) : List RuleFail :=
  match pageBlk p with
  | some (b, _) =>
    if (b = .mpg ∨ b = .le ∨ b = .sep ∨ b = .dax) ∧ d.isManager = true ∧ v HDR.CTRL_EN 0 0 = 1 then [⟨[(HDR.CTRL_EN, 0, 0)], cRANGE⟩] else []
  | none => []

/-- The staged values that came after one: the shadow keeps them in the order of their writes. -/
def stagedAfter (e : Staged) : List Staged → List Staged
  | [] => []
  | x :: r => if x = e then r else stagedAfter e r

/-- Whether a staged low word still waits for a later write of its high word (R62). A word of the committed configuration waits for none: a stored
word at its reset value is not listed (R71). -/
def awaitsHigh (d : Dev) (e : Staged) : Bool :=
  e.mid != cfgMid && wordPairs.any (fun q => decide (q.1 = e.fld) &&
    !(stagedAfter e d.shadow).any (fun x => decide (x.page = e.page ∧ x.half = e.half ∧ x.fld = q.2 ∧ x.i = e.i ∧ x.t = e.t)))

/-- Stage a value: the shadow takes it, `COMMIT.RESULT` shows pending (R53, R59). -/
def stage (d : Dev) (w : Who) (p : Nat) (half : Option HalfId) (f : Fld) (i t v : Nat) : Dev :=
  let e : Staged := ⟨p, f, i, t, half, BitVec.ofNat 32 (v % 2 ^ f.w), w.mid, d.privByte w, false⟩
  let rest := d.shadow.filter (fun e => !(decide (e.page = p ∧ e.half = half ∧ e.fld = f ∧ e.i = i ∧ e.t = t)))
  { d with shadow := rest ++ [e] }.put p HDR.COMMIT_RESULT 3 0 (commitIdx half)

/-- Whether the committed configuration covers a page: of the CTL regions, that of the lease holder (R69). -/
def covered (d : Dev) (p : Nat) : Bool :=
  match pageBlk p with
  | some (b, _) => (decide (b.region ≠ 0) || decide (halfOfPage p = some d.holder)) && !(b.region == 3) && !decide (b = .frc)
  | none => false

/-- Post the CONFIG record of one register word (R61, R478). Values of the committed configuration post none:
the STATE record of R71 and R539 stands for them. -/
def noteConfig (d : Dev) (e : Staged) (code reason old new seq bnd : Nat) : Dev :=
  if e.mid = cfgMid then d
  else
  let addr := pageBase e.page + e.fld.off + e.i * e.fld.stride
  d.post ⟨d.now, 0, 16, clsConfig, code, srcOf e.page, e.page % 256, e.mid, e.priv, reason,
    leBytes 4 addr ++ leBytes 4 old ++ leBytes 4 new ++ leBytes 2 seq ++ [bnd, 0]⟩

/-- Byte offset of a staged entry's word. -/
def wordOff (e : Staged) : Nat := e.fld.off + e.i * e.fld.stride

/-- The entries of a list that are the last of their register word: one record is posted for each. -/
def lastOfWord : List Staged → List Staged
  | [] => []
  | e :: r => if r.any (fun e' => wordOff e' == wordOff e && e'.t == e.t) then lastOfWord r else e :: lastOfWord r

/-- Number an event of a page (R51). On a page with one shadow per half both halves' `COMMIT` take the number, and that of the half whose
shadow is not applied shows pending while it has staged values (R60). -/
def markEvent (d : Dev) (p : Nat) (half : Option HalfId) (seq : Nat) : Dev :=
  match half with
  | none => d.put p HDR.COMMIT_SEQ seq
  | some h =>
    let o := h.other
    let waits := d.shadow.any (fun e => decide (e.page = p ∧ e.half = some o))
    (((d.put p HDR.COMMIT_SEQ seq 0 h.n).put p HDR.COMMIT_SEQ seq 0 o.n).put p HDR.COMMIT_RESULT (if waits then 3 else 0) 0 o.n).put p
      HDR.COMMIT_REASON 0 0 o.n

/-- One event of a page's boundary: number it, then hold, or check and apply the staged values of one shadow (R51, R58, R59,
R61). `rules` gives the failing rules of the page under a view; `bnd` is the boundary code of R50. -/
def applyPage (d : Dev) (p : Nat) (half : Option HalfId) (rules : View → List RuleFail) (bnd seq : Nat) : Dev :=
  let ct := commitIdx half
  let d := d.markEvent p half seq
  let st := d.shadow.filter (fun e => decide (e.page = p ∧ e.half = half))
  if st.isEmpty then (d.put p HDR.COMMIT_RESULT 0 0 ct).put p HDR.COMMIT_REASON 0 0 ct
  else if d.on p HDR.CTRL_STAGE_HOLD || (d.cfgFrozen && d.covered p) then (d.put p HDR.COMMIT_RESULT 3 0 ct).put p HDR.COMMIT_REASON 0 0 ct
  else
    let ready := st.filter (fun e => !d.awaitsHigh e)
    let view : View := fun f i t => d.view p half f i t
    let fails := hdrFails p view ++ d.roleFails p view ++ rules view
    let why (e : Staged) : Option Nat :=
      match e.fld.chk.why e.val.toNat with
      | some r => some r
      | none => (fails.find? (fun rf => rf.fields.any (fun x => decide (x = (e.fld, e.i, e.t))))).map (fun rf => rf.why)
    let held := ready.filter (fun e => (why e).isSome)
    let ok := ready.filter (fun e => (why e).isNone)
    let gone (e : Staged) : Bool := ok.any (fun e' => decide (e' = e))
    let d1 := ok.foldl (fun d e => d.put p e.fld e.val.toNat e.i e.t)
      { d with shadow := d.shadow.filterMap (fun e =>
          if gone e then none else if held.any (fun e' => decide (e' = e)) then some { e with recorded := true } else some e) }
    let d2 := (lastOfWord ok).foldl (fun x e =>
      let o := d.workWord p (wordOff e) e.t
      let n := d1.workWord p (wordOff e) e.t
      if o = n then x else x.noteConfig e 1 0 o n seq bnd) d1
    let d3 := (lastOfWord (held.filter (fun e => !e.recorded))).foldl (fun x e =>
      x.noteConfig e 2 ((why e).getD 0) (d1.workWord p (wordOff e) e.t) (d1.stagedWord p half (wordOff e) e.t) seq bnd) d2
    let d4 := if ok.isEmpty then d3 else d3.put p HDR.STAT_APPLIED 1
    match held.foldl (fun (m : Option Staged) e => match m with
        | none => some e
        | some b => if wordOff e * 32 + e.fld.lo < wordOff b * 32 + b.fld.lo then some e else some b) none with
    | some e => ((d4.put p HDR.STAT_REJECTED 1).put p HDR.COMMIT_RESULT 2 0 ct).put p HDR.COMMIT_REASON ((why e).getD 0) 0 ct
    | none => (d4.put p HDR.COMMIT_RESULT (if ready.length = st.length then 1 else 3) 0 ct).put p HDR.COMMIT_REASON 0 0 ct

/-- Number the next IMMEDIATE event of a page (R51). -/
def nextImm (d : Dev) (p : Nat) : Nat × Dev :=
  let n := (((rfFind p d.immCnt).getD 0).toNat + 1) % 65536
  (n, { d with immCnt := rfSet p 0 (BitVec.ofNat 32 n) d.immCnt })

/-- A block abort (R67): discard the staged values of the page, clear STAGE_HOLD and, where `clearEn`, `CTRL.EN`; set
`STAT.ABORTED` and `ERR.CODE` = ABORTED. -/
def abortPage (d : Dev) (p : Nat) (clearEn : Bool) : Dev :=
  let d := { d with shadow := d.shadow.filter (fun e => !(decide (e.page = p))) }
  let d := d.put p HDR.CTRL_STAGE_HOLD 0
  let d := if clearEn then d.put p HDR.CTRL_EN 0 else d
  (d.put p HDR.STAT_ABORTED 1).err p cABORTED

end Dev

end Sys2Proof.Machine
end

