-- ==== Sys2Proof/Machine/Pos.lean ====
section
/-! DEFINITION. POS, the position fusion block (spec/03_shaft_and_position.md): source-P frames, fusion, position states, switches,
latches, door-zone check and learning run. -/
namespace Sys2Proof.Machine

open Sys2Proof

/-! ### Codes (R107) -/
def cSSI_LINE : Nat := 0x50
def cSSI_PARITY : Nat := 0x51
def cSSI_ERRBIT : Nat := 0x52
def cSSI_JUMP : Nat := 0x53
def cSSI_OUTSIDE : Nat := 0x54
def cENC_LOSS : Nat := 0x55
def cSLIP : Nat := 0x56
def cDZ_MISMATCH : Nat := 0x57
def cLATCH_BOUNCE : Nat := 0x58

namespace Dev

/-- Servo period in ns: 62.5 µs × MULT (R109). -/
def servoT (d : Dev) (h : HalfId) : Nat := d.get (pgMpg h 0) MPG.SERVO_CFG_MULT * 62500

/-- The POS internals of one car. -/
def posCar (d : Dev) (h : HalfId) (n : Nat) : PosCar := (d.half h).pos.cars.getD n PosCar.init

def modPosCar (d : Dev) (h : HalfId) (n : Nat) (f : PosCar → PosCar) : Dev :=
  d.modHalf h (fun x => { x with pos := { x.pos with cars := lmod x.pos.cars n f } })

/-- Whether a car is enabled in POS. -/
def carEn (d : Dev) (h : HalfId) (n : Nat) : Bool := d.on (ctl .pos h) POS.CAR_CFG_EN n

/-- Position state of a car (R91, Table 2): 0 OFF, 1 INIT, 2 VALID, 3 COAST, 4 UNCERTAIN. -/
def posState (d : Dev) (h : HalfId) (n : Nat) : Nat := d.get (ctl .pos h) POS.CAR_STAT_STATE n

def carX (d : Dev) (h : HalfId) (n : Nat) : Int := d.geti (ctl .pos h) POS.CAR_X_UM n
def carV (d : Dev) (h : HalfId) (n : Nat) : Int := d.geti (ctl .pos h) POS.CAR_V_UMS n

/-- |V| ≤ 1,000 µm/s. -/
def slow (d : Dev) (h : HalfId) (n : Nat) : Bool := decide ((d.carV h n).natAbs ≤ 1000)

/-- Every enabled car has |V| ≤ 1,000 µm/s. -/
def allSlow (d : Dev) (h : HalfId) : Bool := (List.range 4).all (fun n => !d.carEn h n || d.slow h n)

def modCopy (d : Dev) (h : HalfId) (n : Nat) (f : PosCopy → PosCopy) : Dev := { d with pCopy := lmod d.pCopy (h.n * 4 + n) f }

/-- The copy of a car's position, speed and state that goes to the safety pair once per servo period (R29, R89). -/
def copyToPair (d : Dev) (h : HalfId) (n : Nat) : Dev := d.modCopy h n (fun c => ⟨d.carX h n, d.carV h n, d.posState h n, c.v⟩)

/-- What begins anew with INIT (R89 to R91): the speed history, the run of good frames, the first encoder count, and the slip count. -/
def initCar (d : Dev) (h : HalfId) (n : Nat) : Dev :=
  d.modPosCar h n (fun c => { c with hist := [], run := 0, first := true, slipRun := 0 })

/-- Enter a position state: record the change, set the status bits, and on UNCERTAIN send the stop request to the MPG; a
return from INIT to VALID makes the next move start soft (R91, R92, R126, R129). -/
def setPosState (d : Dev) (h : HalfId) (n s : Nat) : Dev :=
  let p := ctl .pos h
  let old := d.posState h n
  if old = s then d
  else
    let d := ((d.put p POS.CAR_STAT_STATE s n).stat p n).note p clsState s n [old, s]
    let d := if s = 4 then
        (d.stat p (4 + n)).modHalf h (fun x => { x with mpg := lmod x.mpg n (fun m => { m with posStop := true }) })
      else d
    let d := if s = 2 ∧ old = 1 then
        d.modHalf h (fun x => { x with mpg := lmod x.mpg n (fun m => { m with soft := true }) })
      else d
    let d := if s = 1 then d.initCar h n else d
    d.modCopy h n (fun c => { c with st := d.posState h n })

/-- The present count of the encoder a car uses, as latched at the last SERVO event. -/
def encCnt (d : Dev) (h : HalfId) (n : Nat) : Nat := d.get (ctl .pos h) POS.ENC_CNT_COUNT (d.get (ctl .pos h) POS.CAR_CFG_ENC n)
/-- Live counter of the encoder a car uses. -/
def encLive (d : Dev) (h : HalfId) (n : Nat) : Nat := d.enc.getD (d.get (ctl .pos h) POS.CAR_CFG_ENC n) 0
/-- Signed Q16.16 scale of the encoder a car uses. -/
def encScale (d : Dev) (h : HalfId) (n : Nat) : Int := d.geti (ctl .pos h) POS.ENC_SCALE_Q (d.get (ctl .pos h) POS.CAR_CFG_ENC n)
/-- Whether fusion uses the encoder: ENC_USE and not lost (R89). -/
def encUsed (d : Dev) (h : HalfId) (n : Nat) : Bool :=
  d.on (ctl .pos h) POS.CAR_CFG_ENC_USE n && !d.on (ctl .pos h) POS.CAR_STAT_ENC_LOST n

/-- Displacement and speed of the present period, before the frame (R89): `(d, v)` in 1/256 µm and µm/s. -/
def posStep (d : Dev) (h : HalfId) (n : Nat) : Int × Int :=
  let T : Int := d.servoT h
  if d.encUsed h n then
    let c := d.posCar h n
    let dc : Int := if c.first then 0 else sgn 32 (d.encCnt h n + 2 ^ 32 - c.cntPrev)
    let dd := asr (dc * d.encScale h n) 8
    (dd, tdiv (dd * 1000000000) (256 * T))
  else (tdiv (d.carV h n * T * 256) 1000000000, d.carV h n)

/-- The prediction for the present period in 1/256 µm (R89). -/
def posPred (d : Dev) (h : HalfId) (n : Nat) : Int := (d.posCar h n).x + (d.posStep h n).1

/-- The POS page from which FIO takes the receiver configuration: that of the lease holder (R83). -/
def rxPage (d : Dev) : Nat := ctl .pos d.holder

/-- Position of a field count, in 1/256 µm (R85). -/
def ssiPos (d : Dev) (h : HalfId) (n : Nat) (rx c : Nat) : Int :=
  let p := d.rxPage
  let base := d.geti (ctl .pos h) POS.CAR_POFS_UM n * 256
  let s := tdiv ((c : Int) * d.get p POS.SSI_SCL_NM rx * 256) 1000
  if d.on p POS.SSI_SCL_DIR rx then base - s else base + s

/-- The position field of a frame as received (R85 step 1, before Gray decoding). -/
def ssiField (d : Dev) (rx bits : Nat) : Nat :=
  field bits (d.get d.rxPage POS.SSI_FMT_PLSB rx) (d.get d.rxPage POS.SSI_FMT_PWID rx)

/-- The field count of a frame (R85 step 1). -/
def ssiCount (d : Dev) (rx bits : Nat) : Nat :=
  if d.on d.rxPage POS.SSI_FMT_GRAY rx then ungray (d.get d.rxPage POS.SSI_FMT_PWID rx) (d.ssiField rx bits)
  else d.ssiField rx bits

/-- Whether parity fails (R85 step 2): the parity bit stands below the position field and covers it as received. -/
def ssiParityBad (d : Dev) (rx bits : Nat) : Bool :=
  let p := d.rxPage
  let par := d.get p POS.SSI_FMT_PAR rx
  let ones := popc (d.get p POS.SSI_FMT_PWID rx) (d.ssiField rx bits) + bitN bits (d.get p POS.SSI_FMT_PLSB rx - 1)
  (par == 1 && ones % 2 == 1) || (par == 2 && ones % 2 == 0)

/-- Whether the reader's error bit is active (R85 step 3). -/
def ssiErrBit (d : Dev) (rx bits : Nat) : Bool :=
  let p := d.rxPage
  d.on p POS.SSI_FMT_EEN rx && bitN bits (d.get p POS.SSI_FMT_EBIT rx) == d.get p POS.SSI_FMT_EPOL rx

/-- Whether a position in 1/256 µm lies outside SHAFT_LO–SHAFT_HI (R75, R86). -/
def outside (d : Dev) (h : HalfId) (x : Int) : Bool :=
  decide (x < d.geti (ctl .pos h) POS.SHAFT_LO_UM * 256 ∨ x > d.geti (ctl .pos h) POS.SHAFT_HI_UM * 256)

/-- The error of a frame, if it is bad: the conditions of R86 in the table's order. -/
def ssiBad (d : Dev) (h : HalfId) (n rx : Nat) (lineLow : Bool) (bits : Nat) : Option Nat :=
  let x := d.ssiPos h n rx (d.ssiCount rx bits)
  if lineLow then some cSSI_LINE
  else if d.ssiParityBad rx bits then some cSSI_PARITY
  else if d.ssiErrBit rx bits then some cSSI_ERRBIT
  else if d.outside h x then some cSSI_OUTSIDE
  else if (d.posState h n == 2 || d.posState h n == 3) &&
      decide ((x - d.posPred h n).natAbs > d.get (ctl .pos h) POS.CAR_JUMP_UM n * 256) then some cSSI_JUMP
  else none

/-- Count a bad frame: `ERR` with the car, `BAD`, the status bit (R86). -/
def badFrame (d : Dev) (h : HalfId) (n code : Nat) : Dev :=
  ((d.err (ctl .pos h) code n).bump (ctl .pos h) POS.CAR_STAT_BAD n).stat (ctl .pos h) 11

/-- One half takes a frame of a receiver for the enabled car that names it (R83, R85, R86). `CARn_RAW` takes the count of every frame, also of a
bad one: the spec does not say (notes/assumptions/63.md). -/
def takeSsi (d : Dev) (h : HalfId) (rx : Nat) (lineLow : Bool) (bits : Nat) : Dev :=
  let p := ctl .pos h
  match (List.range 4).find? (fun n => d.carEn h n && d.get p POS.CAR_CFG_SSI n == rx) with
  | none => d
  | some n =>
    if d.enabled p && d.get d.rxPage POS.SSI_FMT_BITS rx != 0 then
      let c := d.ssiCount rx bits
      let b := d.get p POS.CAR_STAT_BAD n
      let d1 := d.put p POS.CAR_RAW_FIELD c n
      match d.ssiBad h n rx lineLow bits with
      | some code => (d1.badFrame h n code).modPosCar h n (fun k => { k with frame := some ⟨false, 0, b⟩ })
      | none => (d1.put p POS.CAR_STAT_BAD 0 n).modPosCar h n (fun k => { k with frame := some ⟨true, d.ssiPos h n rx c, b⟩ })
    else d

/-! ### Fusion (R81, R89 to R91) -/

/-- The landing nearest a position, lower index on a tie; 0xFF with no landings (R81). -/
def nearest (d : Dev) (h : HalfId) (x : Int) : Nat :=
  let p := ctl .pos h
  ((List.range (d.get p POS.LT_CFG_COUNT)).foldl (fun (best : Option (Nat × Nat)) i =>
    let dist := (x - d.geti p POS.LT_POS_UM 0 i).natAbs
    match best with
    | none => some (i, dist)
    | some (j, bd) => if dist < bd then some (i, dist) else some (j, bd)) none).map (·.1) |>.getD 0xFF

/-- Whether a position lies in the door zone of a landing in use (R81). -/
def inDz (d : Dev) (h : HalfId) (x : Int) (l : Nat) : Bool :=
  let p := ctl .pos h
  decide (l < d.get p POS.LT_CFG_COUNT) && decide (d.geti p POS.LT_POS_UM 0 l - d.get p POS.LT_DZB_UM 0 l ≤ x ∧ x ≤ d.geti p POS.LT_POS_UM 0 l + d.get p POS.LT_DZA_UM 0 l)

/-- Report landing, door zone and level of a car (R81). -/
def posFlags (d : Dev) (h : HalfId) (n : Nat) : Dev :=
  let p := ctl .pos h
  let x := d.carX h n
  let l := d.nearest h x
  let d := ((d.put p POS.CAR_STAT_LANDING l n).putb p POS.CAR_STAT_IN_DZ (d.inDz h x l) n).putb p POS.CAR_STAT_LEVEL
    (decide (l < d.get p POS.LT_CFG_COUNT) && decide ((x - d.geti p POS.LT_POS_UM 0 l).natAbs ≤ d.get p POS.LT_TOL_LEVEL)) n
  if d.on p POS.CAR_CFG_DDECK n then
    let xu := x + d.get p POS.CAR_DECK_UM n
    let u := d.nearest h xu
    (d.put p POS.CAR_STAT_UPPER u n).putb p POS.CAR_STAT_UPPER_DZ (d.inDz h xu u) n
  else (d.put p POS.CAR_STAT_UPPER 0xFF n).putb p POS.CAR_STAT_UPPER_DZ false n

/-- Periods of the speed average: 1, 2, 4 or 8 (R89). -/
def spdAvg (d : Dev) (h : HalfId) (n : Nat) : Nat := 2 ^ d.get (ctl .pos h) POS.CAR_CFG_SPD_AVG n

/-- Speed from the history of fused positions (R89): over A periods, or the periods available. -/
def histSpeed (d : Dev) (h : HalfId) (n : Nat) (x : Int) : Int :=
  let hist := (d.posCar h n).hist
  let a := min (d.spdAvg h n) hist.length
  if a = 0 then 0 else tdiv ((x - hist.getD (a - 1) 0) * 1000000000) (256 * (d.servoT h : Int) * a)

/-- Publish position and speed of a car and advance its history. -/
def publishPos (d : Dev) (h : HalfId) (n : Nat) (x v : Int) : Dev :=
  let p := ctl .pos h
  ((d.puti p POS.CAR_X_UM (asr x 8) n).puti p POS.CAR_V_UMS v n).modPosCar h n (fun c =>
    { c with x := x, cntPrev := d.encCnt h n, hist := (x :: c.hist).take 8, frame := none, first := false })

/-- SLIP: the residual stood above its limit for SLIP.N periods (R90, R91). -/
def slipCheck (d : Dev) (h : HalfId) (n : Nat) : Dev :=
  let p := ctl .pos h
  if d.get p POS.CAR_SLIP_N n != 0 && decide ((d.posCar h n).slipRun ≥ d.get p POS.CAR_SLIP_N n) &&
      (d.posState h n == 2 || d.posState h n == 3) then
    ((d.err p cSLIP n).note p clsFault cSLIP n).setPosState h n 4
  else d

/-- COAST ends in UNCERTAIN when BAD exceeds COAST_MAX (R91). -/
def coastCheck (d : Dev) (h : HalfId) (n : Nat) : Dev :=
  let p := ctl .pos h
  if d.posState h n == 3 && decide (d.get p POS.CAR_STAT_BAD n > d.get p POS.CAR_CFG_COAST_MAX n) then d.setPosState h n 4 else d

/-- A period of a car in INIT (R89, R91): x is the p of the last good frame; four consecutive good frames within JUMP of each
other give VALID. A bad frame without an encoder leaves V as it was. -/
def fuseInit (d : Dev) (h : HalfId) (n : Nat) : Dev :=
  let p := ctl .pos h
  let c := d.posCar h n
  match c.frame with
  | some ⟨true, pp, _⟩ =>
    let run := if c.run > 0 && decide ((pp - c.lastP).natAbs ≤ d.get p POS.CAR_JUMP_UM n * 256) then c.run + 1 else 1
    let v := if d.encUsed h n then (d.posStep h n).2 else d.histSpeed h n pp
    let d := (d.publishPos h n pp v).modPosCar h n (fun k => { k with run := run, lastP := pp })
    if run ≥ 4 then d.setPosState h n 2 else d
  | _ =>
    let v := if d.encUsed h n then (d.posStep h n).2 else if c.first then 0 else d.carV h n
    (d.publishPos h n c.x v).modPosCar h n (fun k => { k with run := 0 })

/-- A bad frame in VALID: COAST, or UNCERTAIN with COAST_MAX = 0 (R91). -/
def validBad (d : Dev) (h : HalfId) (n : Nat) : Dev :=
  if d.posState h n == 2 then
    (if d.get (ctl .pos h) POS.CAR_CFG_COAST_MAX n = 0 then d.setPosState h n 4 else d.setPosState h n 3)
  else d

/-- A period of a car in VALID, COAST or UNCERTAIN: the fusion of R89, the slip check of R90, the state changes of R91. A fused position outside the
bounds is a bad frame after all: `BAD` counts on from what it was (R75). A bad frame forms no residual; that it leaves the run of periods above the slip limit as
it stands is the model's choice (notes/assumptions/63.md). -/
def fuseRun (d : Dev) (h : HalfId) (n : Nat) : Dev :=
  let p := ctl .pos h
  let c := d.posCar h n
  let st := d.posStep h n
  let pred := c.x + st.1
  match c.frame with
  | some ⟨true, pp, bad⟩ =>
    let r := pp - pred
    let eu := d.encUsed h n
    let x := if eu then pred + asr r (d.get p POS.CAR_CFG_SHIFT n) else pp
    if d.outside h x then
      let d := ((d.put p POS.CAR_STAT_BAD bad n).badFrame h n cSSI_OUTSIDE).publishPos h n pred st.2
      ((d.validBad h n).coastCheck h n)
    else
      let v := if eu then st.2 else d.histSpeed h n x
      let exceeds := eu && decide (r.natAbs > d.get p POS.CAR_SLIP_LIM n * 256)
      let d := (d.puti p POS.CAR_RESID_UM (asr r 8) n).publishPos h n x v
      let d := d.modPosCar h n (fun k => { k with slipRun := if exceeds then k.slipRun + 1 else 0, lastP := pp })
      let d := if d.posState h n == 3 then d.setPosState h n 2 else d
      d.slipCheck h n
  | _ => (((d.publishPos h n pred st.2).validBad h n).coastCheck h n)

/-- Fill in position and speed of event k for the edges latched in this period. -/
def fillLatches (d : Dev) (h : HalfId) : Dev :=
  let p := ctl .pos h
  let at_ (m : Nat) : Option (Int × Int) :=
    let n := d.get p POS.LAT_CFG_CAR m
    some (d.carX h n, d.carV h n)
  d.modHalf h (fun x => { x with pos := { x.pos with
    latches := x.pos.latches.mapIdx (fun m l => l.map (fun (q : LatchPend) => if q.atK.isSome then q else { q with atK := at_ m })) } })

/-- End a learning run with a result (R103). That RUN is cleared when the part ends a run is the model's choice (notes/assumptions/63.md). -/
def lrnEnd (d : Dev) (h : HalfId) (res : Nat) : Dev :=
  let p := ctl .pos h
  if d.on p POS.LRN_CTRL_RUN then ((d.put p POS.LRN_CTRL_RUN 0).put p POS.LRN_STAT_RESULT res).stat p 9 else d

/-- The ends of a learning run that the car's motion and state bring about (R103). -/
def lrnWatch (d : Dev) (h : HalfId) : Dev :=
  let p := ctl .pos h
  let n := d.get p POS.LRN_CTRL_CAR
  if !d.on p POS.LRN_CTRL_RUN then d
  else if d.posState h n != 2 && d.posState h n != 3 then d.lrnEnd h 5
  else if d.carV h n < -1000 then d.lrnEnd h 3
  else d

/-- Whether a frame has arrived for every enabled car. -/
def framesIn (d : Dev) (h : HalfId) : Bool := (List.range 4).all (fun n => !d.carEn h n || (d.posCar h n).frame.isSome)

/-! ### Latches (R99 to R101), door-zone check (R102), learning run (R103) -/

/-- Latched position of an edge in integer µm (R101): from the encoder counts since event k, brought to whole µm toward negative infinity (the spec
gives no rounding: notes/assumptions/63.md), or from the speed. An encoder marked ENC_LOST still
counts as in use here: the model's choice (notes/assumptions/63.md). -/
def edgePos (d : Dev) (h : HalfId) (n : Nat) (xk vk dcnt : Int) (dt20 : Nat) : Int :=
  if d.on (ctl .pos h) POS.CAR_CFG_ENC_USE n then xk + asr (dcnt * d.encScale h n) 16
  else xk + tdiv (vk * dt20 * 20) 1000000000

/-- The raw edges that wait at a latch unit, oldest first. -/
def latches (d : Dev) (h : HalfId) (m : Nat) : List LatchPend := (d.half h).pos.latches.getD m []

def setLatches (d : Dev) (h : HalfId) (m : Nat) (l : List LatchPend) : Dev :=
  d.modHalf h (fun x => { x with pos := { x.pos with latches := lset x.pos.latches m l } })

/-- Encoder counts of a car since event k. -/
def countsSince (d : Dev) (h : HalfId) (n : Nat) : Int := sgn 32 (d.encLive h n + 2 ^ 32 - d.encCnt h n)

/-- A raw edge, of number `no`, at one latch unit (R99, R101): it waits for its confirmation; in single mode one that comes while `FULL` stands is ignored and sets
`OVR`. A Z pulse needs no confirmation (R100). -/
def latchEdge (d : Dev) (h : HalfId) (m src : Nat) (rising : Bool) (dt20 no : Nat) : Dev :=
  let p := ctl .pos h
  let edge := d.get p POS.LAT_CFG_EDGE m
  let n := d.get p POS.LAT_CFG_CAR m
  if d.enabled p && d.on p POS.LAT_CFG_EN m && d.get p POS.LAT_CFG_SRC m == src &&
      (if rising then edge % 2 == 1 else edge / 2 == 1) then
    if d.on p POS.LAT_STAT_FULL m && !d.on p POS.LAT_CFG_CONT m then d.put p POS.LAT_STAT_OVR 1 m
    else
      d.setLatches h m (d.latches h m ++ [⟨d.countsSince h n, dt20, d.now, decide (d.carV h n > 0), rising, decide (src ≥ 32),
        if (d.half h).pos.fused then some (d.carX h n, d.carV h n) else none, no⟩])
  else d

/-- A raw edge at every unit of one half (R99); that of a DIN channel waits for its confirmation (R100). -/
def rawEdge (d : Dev) (h : HalfId) (src : Nat) (rising : Bool) (dt20 : Nat) : Dev :=
  let no := (d.half h).pos.rawNo
  let d := (List.range 16).foldl (fun d m => d.latchEdge h m src rising dt20 no) d
  if d.enabled (ctl .pos h) then
    d.modHalf h (fun x => { x with pos := { x.pos with
      rawNo := no + 1, raws := x.pos.raws ++ (if src < 32 then [(src, no, rising)] else []) } })
  else d

/-- Set the raw edges of DIN channels that wait. -/
def setRaws (d : Dev) (h : HalfId) (l : List (Nat × Nat × Bool)) : Dev := d.modHalf h (fun x => { x with pos := { x.pos with raws := l } })

/-- The debounced input of a channel takes a level (R100): every raw edge that leads to it and still waits is kept, at each unit that took it; one whose
time has passed has been dropped before. -/
def latchKeep (d : Dev) (h : HalfId) (src : Nat) (level : Bool) : Dev :=
  (List.range 16).foldl (fun d m =>
    if d.get (ctl .pos h) POS.LAT_CFG_SRC m != src then d
    else d.setLatches h m ((d.latches h m).map (fun q => if q.rising == level then { q with confirmed := true } else q)))
    (d.setRaws h ((d.half h).pos.raws.filter (fun r => !(r.1 == src && r.2.2 == level))))

/-- Drop one raw edge at a unit that took it, and count it (R100). -/
def latchDrop (d : Dev) (h : HalfId) (no m : Nat) : Dev :=
  if (d.latches h m).any (fun q => q.no == no && !q.confirmed) then
    (d.setLatches h m ((d.latches h m).filter (fun q => q.confirmed || q.no != no))).err (ctl .pos h) cLATCH_BOUNCE m
  else d

/-- The time of a channel's oldest raw edge passes without the debounced input taking its level (R100): that edge is dropped at every unit that took it,
and the others stay. -/
def latchBounced (d : Dev) (h : HalfId) (src : Nat) : Dev :=
  match (d.half h).pos.raws.find? (fun r => r.1 == src) with
  | none => d
  | some r => (List.range 16).foldl (fun d m => d.latchDrop h r.2.1 m) (d.setRaws h ((d.half h).pos.raws.filter (fun q => q.2.1 != r.2.1)))

/-- Capture a confirmed edge (R101). In single mode one that comes to conversion with `FULL` set is ignored, and sets `OVR`. -/
def latchCapture (d : Dev) (h : HalfId) (m : Nat) (q : LatchPend) (k : Int × Int) : Dev :=
  let p := ctl .pos h
  let full := d.on p POS.LAT_STAT_FULL m
  let d := if full then d.put p POS.LAT_STAT_OVR 1 m else d
  if full && !d.on p POS.LAT_CFG_CONT m then d
  else
    let d := (d.puti p POS.LAT_POS_UM (d.edgePos h (d.get p POS.LAT_CFG_CAR m) k.1 k.2 q.dcnt q.dt20) m).put p POS.LAT_DT_T20 q.dt20 m
    let d := d.put64 p POS.LAT_TS_LO POS.LAT_TS_HI q.ts m
    (((d.put p POS.LAT_STAT_FULL 1 m).putb p POS.LAT_STAT_UP q.up m).wrapUp p POS.LAT_STAT_COUNT m).stat p 8

/-- Convert the confirmed edges (R101), at a SERVO event, in the order in which they came. -/
def latchConvert (d : Dev) (h : HalfId) : Dev :=
  let ready (q : LatchPend) : Bool := q.confirmed && q.atK.isSome
  (List.range 16).foldl (fun d m =>
    let l := d.latches h m
    if !l.any ready then d
    else (l.filter ready).foldl (fun d q => match q.atK with | some k => d.latchCapture h m q k | none => d)
      (d.setLatches h m (l.filter (fun q => !ready q)))) d

/-- Position of a vane edge, once event k has been published (R101). -/
def edgeAt (d : Dev) (h : HalfId) (e : EdgePend) : Int := d.edgePos h e.car (d.carX h e.car) (d.carV h e.car) e.dcnt e.dt20

/-- Door-zone check of an edge (R102): an upward run enters at LT_POS − DZB and leaves at LT_POS + DZA, a downward run the other way
round. A car with V = 0 counts as running upward, and the landing passed is the one nearest the edge: the model's choices
(notes/assumptions/63.md). -/
def dzCheck (d : Dev) (h : HalfId) (e : EdgePend) : Dev :=
  let p := ctl .pos h
  let n := e.car
  let x := d.edgeAt h e
  let l := d.nearest h x
  if l ≥ d.get p POS.LT_CFG_COUNT then d
  else
    let up := decide (d.carV h n ≥ 0)
    let want := if up == e.entering then d.geti p POS.LT_POS_UM 0 l - d.get p POS.LT_DZB_UM 0 l
      else d.geti p POS.LT_POS_UM 0 l + d.get p POS.LT_DZA_UM 0 l
    if (x - want).natAbs > d.get p POS.LT_TOL_DZ then
      (d.fault p cDZ_MISMATCH n [encS 32 x, encS 32 want]).stat p 10
    else d

/-- Start a learning run (R103): only with the car VALID; the buffer is cleared. A start with the car in another state keeps the CAR and SRC
written and does nothing else, without an error: the model's choice (notes/assumptions/63.md). -/
def lrnStart (d : Dev) (h : HalfId) (n src : Nat) : Dev :=
  let p := ctl .pos h
  let d := (d.put p POS.LRN_CTRL_CAR n).put p POS.LRN_CTRL_SRC src
  if d.on p POS.LRN_CTRL_RUN then d
  else if d.enabled p && d.posState h n == 2 then
    (List.range 256).foldl (fun d i => (d.put p POS.LRN_LO_UM 0 0 i).put p POS.LRN_HI_UM 0 0 i)
      (((d.put p POS.LRN_CTRL_RUN 1).put p POS.LRN_STAT_COUNT 0).put p POS.LRN_STAT_RESULT 1)
  else d

/-- A vane edge of a learning run (R103): entering edges open an entry as LO, leaving edges complete it as HI. A leaving edge before any entering edge
is ignored: the model's choice (notes/assumptions/63.md). -/
def lrnStore (d : Dev) (h : HalfId) (e : EdgePend) : Dev :=
  let p := ctl .pos h
  let c := d.get p POS.LRN_STAT_COUNT
  let x := d.edgeAt h e
  if !d.on p POS.LRN_CTRL_RUN then d
  else if e.entering then
    (if c ≥ 256 then d.lrnEnd h 4 else (d.puti p POS.LRN_LO_UM x 0 c).put p POS.LRN_STAT_COUNT (c + 1))
  else if c = 0 then d else d.puti p POS.LRN_HI_UM x 0 (c - 1)

def vaneDo (d : Dev) (h : HalfId) (e : EdgePend) : Dev := if e.lrn then d.lrnStore h e else d.dzCheck h e

/-- A vane edge: its position is formed from event k, so one that comes before POS has published event k waits for it (R89, R101). -/
def vaneEdge (d : Dev) (h : HalfId) (e : EdgePend) : Dev :=
  if (d.half h).pos.fused then d.vaneDo h e
  else d.modHalf h (fun x => { x with pos := { x.pos with edges := x.pos.edges ++ [e] } })

/-- An edge of channel `src` for the cars whose door-zone check watches it (R102). -/
def dzEdge (d : Dev) (h : HalfId) (src : Nat) (entering : Bool) (dt20 : Nat) : Dev :=
  let p := ctl .pos h
  (List.range 4).foldl (fun d n =>
    if d.enabled p && d.on p POS.CAR_CFG_DZ_EN n && d.get p POS.CAR_CFG_DZ_SRC n == src && d.carEn h n then
      d.vaneEdge h ⟨false, n, entering, d.countsSince h n, dt20⟩
    else d) d

/-- An edge of channel `src` during a learning run that watches it (R103). -/
def lrnEdge (d : Dev) (h : HalfId) (src : Nat) (entering : Bool) (dt20 : Nat) : Dev :=
  let p := ctl .pos h
  let n := d.get p POS.LRN_CTRL_CAR
  if d.on p POS.LRN_CTRL_RUN && d.get p POS.LRN_CTRL_SRC == src then d.vaneEdge h ⟨true, n, entering, d.countsSince h n, dt20⟩ else d

/-- The vane edges that waited for the event just published. -/
def vaneFlush (d : Dev) (h : HalfId) : Dev :=
  let es := (d.half h).pos.edges
  es.foldl (fun d e => d.vaneDo h e) (d.modHalf h (fun x => { x with pos := { x.pos with edges := [] } }))

/-- Fusion of every enabled car (R89): publish, states, flags, the copy to the safety pair, the vane edges
that waited, and the learning run. -/
def posFuse (d : Dev) (h : HalfId) : Dev :=
  if d.enabled (ctl .pos h) then
    let d := (List.range 4).foldl (fun d n =>
      if d.carEn h n then
        let d := if d.posState h n == 1 then d.fuseInit h n else if d.posState h n == 0 then d else d.fuseRun h n
        (d.posFlags h n).copyToPair h n
      else d) d
    let d := ((d.fillLatches h).vaneFlush h).lrnWatch h
    d.modHalf h (fun x => { x with pos := { x.pos with fused := true } })
  else d

/-! ### Consistency rules of the POS page (R75, R76, R78, R80, R83, R84, R88, R93, R96) -/

/-- Cars the variant accepts (R5). -/
def variantCars (d : Dev) : Nat :=
  match d.get (shp .bot) BOT.VARIANT_CODE with | 0 => 4 | 1 => 2 | _ => 1

/-- The staged entries of a page whose field is in a list, as rule participants. -/
def stagedIn (d : Dev) (p : Nat) (fs : List Fld) : List (Fld × Nat × Nat) :=
  (d.shadow.filter (fun e => e.page = p ∧ fs.contains e.fld)).map (fun e => (e.fld, e.i, e.t))

/-- The fields of one car's configuration. -/
def carFields : List Fld :=
  [POS.CAR_CFG_EN, POS.CAR_CFG_ENC_USE, POS.CAR_CFG_ENC, POS.CAR_CFG_SSI, POS.CAR_CFG_DDECK, POS.CAR_CFG_DZ_EN, POS.CAR_CFG_DZ_SRC,
   POS.CAR_CFG_SHIFT, POS.CAR_CFG_COAST_MAX, POS.CAR_CFG_SPD_AVG, POS.CAR_POFS_UM, POS.CAR_TOP_UM, POS.CAR_BOT_UM, POS.CAR_DECK_UM,
   POS.CAR_JUMP_UM, POS.CAR_SLIP_LIM, POS.CAR_SLIP_N]

def ssiFields : List Fld :=
  [POS.SSI_FMT_BITS, POS.SSI_FMT_PLSB, POS.SSI_FMT_PWID, POS.SSI_FMT_GRAY, POS.SSI_FMT_EPOL, POS.SSI_FMT_PAR, POS.SSI_FMT_EEN,
   POS.SSI_FMT_EBIT, POS.SSI_TIM_DIV, POS.SSI_TIM_DLY, POS.SSI_SCL_NM, POS.SSI_SCL_DIR]

def swFields : List Fld :=
  [POS.SW_SRC, POS.SW_SRCK, POS.SW_CAR, POS.SW_DIR, POS.SW_KIND, POS.SW_ACT, POS.SW_POL]

/-- Failing rules of the landing table (R80, Table 1); entries at or above `COUNT` take part in none. -/
def landFails (d : Dev) (h : HalfId) (v : View) : List RuleFail :=
  let p := ctl .pos h
  let cnt := v POS.LT_CFG_COUNT 0 0
  let lo := sgn 32 (v POS.SHAFT_LO_UM 0 0)
  let hi := sgn 32 (v POS.SHAFT_HI_UM 0 0)
  let pos (i : Nat) : Int := sgn 32 (v POS.LT_POS_UM 0 i)
  let c : Fld × Nat × Nat := (POS.LT_CFG_COUNT, 0, 0)
  let l1 := (List.range cnt).filterMap (fun i =>
    if pos i < lo ∨ pos i > hi then
      some ⟨[c, (POS.LT_POS_UM, 0, i), (POS.SHAFT_LO_UM, 0, 0), (POS.SHAFT_HI_UM, 0, 0)], cRANGE⟩ else none)
  let l2 := (List.range (cnt - 1)).filterMap (fun i =>
    if pos i < pos (i + 1) then none else some ⟨[c, (POS.LT_POS_UM, 0, i), (POS.LT_POS_UM, 0, i + 1)], cPAIR⟩)
  let l3 := (List.range (cnt - 1)).filterMap (fun i =>
    if pos i + v POS.LT_DZA_UM 0 i < pos (i + 1) - v POS.LT_DZB_UM 0 (i + 1) then none
    else some ⟨[c, (POS.LT_POS_UM, 0, i), (POS.LT_DZA_UM, 0, i), (POS.LT_POS_UM, 0, i + 1), (POS.LT_DZB_UM, 0, i + 1)], cPAIR⟩)
  let l4 : List RuleFail := if d.allSlow h then []
    else [⟨(d.stagedIn p [POS.LT_CFG_COUNT, POS.LT_POS_UM, POS.LT_DZB_UM, POS.LT_DZA_UM, POS.LT_FLG_SIDE]).filter
      (fun x => decide (x.1 = POS.LT_CFG_COUNT) || decide (x.2.2 < cnt)), cBUSY⟩]
  l1 ++ l2 ++ l3 ++ l4

/-- Failing rules of one source-P receiver (R84, Table 5): none of `SSIn_FMT` is checked while BITS = 0. That EBIT takes part in its rule only with
EEN = 1 is the model's choice (notes/assumptions/63.md). -/
def ssiFails (d : Dev) (h : HalfId) (v : View) (r : Nat) : List RuleFail :=
  let bits := v POS.SSI_FMT_BITS r 0
  let pl := v POS.SSI_FMT_PLSB r 0
  let pw := v POS.SSI_FMT_PWID r 0
  let fs (l : List Fld) : List (Fld × Nat × Nat) := l.map (fun f => (f, r, 0))
  if bits = 0 then []
  else
    (if pw = 0 then [⟨fs [POS.SSI_FMT_PWID, POS.SSI_FMT_BITS], cZERO⟩] else if pw > 32 then [⟨fs [POS.SSI_FMT_PWID, POS.SSI_FMT_BITS], cRANGE⟩] else []) ++
    (if pl + pw > bits then [⟨fs [POS.SSI_FMT_BITS, POS.SSI_FMT_PLSB, POS.SSI_FMT_PWID], cPAIR⟩] else []) ++
    (if v POS.SSI_FMT_PAR r 0 = 3 then [⟨fs [POS.SSI_FMT_BITS, POS.SSI_FMT_PAR], cRANGE⟩] else []) ++
    (if v POS.SSI_FMT_PAR r 0 ≠ 0 ∧ pl = 0 then [⟨fs [POS.SSI_FMT_BITS, POS.SSI_FMT_PLSB, POS.SSI_FMT_PAR], cPAIR⟩] else []) ++
    (if v POS.SSI_FMT_EEN r 0 = 1 ∧ pl ≤ v POS.SSI_FMT_EBIT r 0 ∧ v POS.SSI_FMT_EBIT r 0 < pl + pw then
      [⟨fs [POS.SSI_FMT_BITS, POS.SSI_FMT_PLSB, POS.SSI_FMT_PWID, POS.SSI_FMT_EEN, POS.SSI_FMT_EBIT], cPAIR⟩] else []) ++
    (if 2 * (1000 + bits * v POS.SSI_TIM_DIV r 0 * 20 + v POS.SSI_TIM_DLY r 0 * 20) > d.servoT h then
      [⟨fs [POS.SSI_FMT_BITS, POS.SSI_TIM_DIV, POS.SSI_TIM_DLY], cPAIR⟩] else [])

/-- Pairs (a, b) of cars with a < b. -/
def carPairs : List (Nat × Nat) := [(0, 1), (0, 2), (0, 3), (1, 2), (1, 3), (2, 3)]

/-- Failing rules that bind the car enables, the cars and their sources (R5, R76, R78, R83, R84, R88). -/
def carFails (d : Dev) (v : View) : List RuleFail :=
  let en (n : Nat) : Bool := v POS.CAR_CFG_EN n 0 == 1
  let E (n : Nat) : Fld × Nat × Nat := (POS.CAR_CFG_EN, n, 0)
  let count := ((List.range 4).filter en).length
  let one (n : Nat) : List RuleFail :=
    if !en n then [] else
    (if n > 0 ∧ !en (n - 1) then [⟨[E n, E (n - 1)], cPAIR⟩] else []) ++
    (if count > d.variantCars then [⟨[E n], cRANGE⟩] else []) ++
    (if d.isManager then [⟨[E n], cRANGE⟩] else []) ++
    (if d.on (shp .sfc) SFC.STATE_MODE ∧ n > 0 then [⟨[E n], cSAFETY⟩] else []) ++
    (if v POS.CAR_TOP_UM n 0 = 0 then [⟨[E n, (POS.CAR_TOP_UM, n, 0)], cZERO⟩] else []) ++
    (if v POS.CAR_BOT_UM n 0 = 0 then [⟨[E n, (POS.CAR_BOT_UM, n, 0)], cZERO⟩] else []) ++
    (if v POS.SSI_FMT_BITS (v POS.CAR_CFG_SSI n 0) 0 = 0 then
      [⟨[E n, (POS.CAR_CFG_SSI, n, 0), (POS.SSI_FMT_BITS, v POS.CAR_CFG_SSI n 0, 0)], cPAIR⟩] else []) ++
    (if v POS.CAR_CFG_ENC_USE n 0 = 1 ∧ v POS.ENC_SCALE_Q (v POS.CAR_CFG_ENC n 0) 0 = 0 then
      [⟨[E n, (POS.CAR_CFG_ENC_USE, n, 0), (POS.CAR_CFG_ENC, n, 0), (POS.ENC_SCALE_Q, v POS.CAR_CFG_ENC n 0, 0)], cZERO⟩] else [])
  let dd (n : Nat) : List RuleFail :=
    if v POS.CAR_CFG_DDECK n 0 = 1 ∧ v POS.CAR_DECK_UM n 0 = 0 then
      [⟨[(POS.CAR_CFG_DDECK, n, 0), (POS.CAR_DECK_UM, n, 0)], cPAIR⟩] else []
  let two (ab : Nat × Nat) : List RuleFail :=
    let (a, b) := ab
    if !(en a && en b) then [] else
    (if v POS.CAR_CFG_SSI a 0 = v POS.CAR_CFG_SSI b 0 then
      [⟨[E a, E b, (POS.CAR_CFG_SSI, a, 0), (POS.CAR_CFG_SSI, b, 0)], cPAIR⟩] else []) ++
    (if v POS.CAR_CFG_ENC_USE a 0 = 1 ∧ v POS.CAR_CFG_ENC_USE b 0 = 1 ∧ v POS.CAR_CFG_ENC a 0 = v POS.CAR_CFG_ENC b 0 then
      [⟨[E a, E b, (POS.CAR_CFG_ENC, a, 0), (POS.CAR_CFG_ENC, b, 0), (POS.CAR_CFG_ENC_USE, a, 0), (POS.CAR_CFG_ENC_USE, b, 0)], cPAIR⟩] else [])
  (List.range 4).flatMap one ++ (List.range 4).flatMap dd ++ carPairs.flatMap two

/-- Failing rules of the switch table (R95, R96): a top entry names the highest enabled car, a bottom entry the lowest. -/
def swFails (v : View) : List RuleFail :=
  let en (n : Nat) : Bool := v POS.CAR_CFG_EN n 0 == 1
  let hi := ((List.range 4).filter en).getLast?
  let lo := ((List.range 4).filter en).head?
  (List.range 16).flatMap (fun m =>
    let fs : List (Fld × Nat × Nat) := swFields.map (fun f => (f, m, 0))
    (if v POS.SW_SRCK m 0 = 1 ∧ v POS.SW_SRC m 0 > 7 then [(⟨[(POS.SW_SRC, m, 0), (POS.SW_SRCK, m, 0)], cRANGE⟩ : RuleFail)] else []) ++
    (if v POS.SW_KIND m 0 ≠ 0 ∧ (if v POS.SW_DIR m 0 = 1 then hi else lo) ≠ some (v POS.SW_CAR m 0) then
      [⟨fs ++ (List.range 4).map (fun n => (POS.CAR_CFG_EN, n, 0)), cPAIR⟩] else []))

/-- Fields of car n, its receiver and its encoder are held while the car moves; EN is not cleared while a door axis names the car
(R93). -/
def carBusy (d : Dev) (h : HalfId) (v : View) : List RuleFail :=
  let p := ctl .pos h
  (List.range 4).flatMap (fun n =>
    let free := d.slow h n || decide (d.posState h n ≤ 1)
    let mine : List (Fld × Nat × Nat) := carFields.map (fun f => (f, n, 0))
    let src : List (Fld × Nat × Nat) := if d.carEn h n then
        ssiFields.map (fun f => (f, d.get p POS.CAR_CFG_SSI n, 0)) ++
        (if d.on p POS.CAR_CFG_ENC_USE n then [(POS.ENC_SCALE_Q, d.get p POS.CAR_CFG_ENC n, 0)] else [])
      else []
    (if free then [] else [(⟨mine ++ src, cBUSY⟩ : RuleFail)]) ++
    (if d.carEn h n ∧ v POS.CAR_CFG_EN n 0 = 0 ∧
        (List.range 8).any (fun k => d.enabled (pgDax h k) && d.get (pgDax h k) DAX.CFG_CAR == n) then
      [⟨[(POS.CAR_CFG_EN, n, 0)], cPAIR⟩] else []))

/-- Failing rules of the POS page. -/
def posRules (d : Dev) (h : HalfId) (v : View) : List RuleFail :=
  (if sgn 32 (v POS.SHAFT_LO_UM 0 0) < sgn 32 (v POS.SHAFT_HI_UM 0 0) then []
   else [⟨[(POS.SHAFT_LO_UM, 0, 0), (POS.SHAFT_HI_UM, 0, 0)], cPAIR⟩]) ++
  d.landFails h v ++ (List.range 4).flatMap (d.ssiFails h v) ++ d.carFails v ++ swFails v ++ d.carBusy h v

/-- The SERVO event of the POS page: apply, and the entry to OFF or INIT of a car whose enable was applied (R91). -/
def applyPos (d : Dev) (h : HalfId) : Dev :=
  let p := ctl .pos h
  let was := d
  let d := d.applyPage p none (d.posRules h) 2 ((d.half h).servoCnt % 65536)
  (List.range 4).foldl (fun d n =>
    if d.carEn h n && !was.carEn h n then
      (((d.put p POS.CAR_STAT_ENC_LOST 0 n).put p POS.CAR_STAT_BAD 0 n).modPosCar h n
        (fun c => { c with slipRun := 0, frame := none })).setPosState h n 1
    else if !d.carEn h n && was.carEn h n then d.setPosState h n 0
    else d) d

/-- Latch the encoder counters at the first falling SSI clock edge (R88). -/
def latchEnc (d : Dev) (h : HalfId) : Dev :=
  (List.range 4).foldl (fun d e => d.put (ctl .pos h) POS.ENC_CNT_COUNT (d.enc.getD e 0) e) d

/-- An abort of POS (R91, R94): x and V hold, every enabled car reads INIT, latches, checks and the learning run stop; a frame not yet fused is lost. -/
def abortPos (d : Dev) (h : HalfId) : Dev :=
  let d := (d.abortPage (ctl .pos h) true).lrnEnd h 6
  let d := d.modHalf h (fun x => { x with pos := { x.pos with latches := List.replicate 16 [], edges := [], raws := [] } })
  (List.range 4).foldl (fun d n =>
    if d.carEn h n then (((d.put (ctl .pos h) POS.CAR_STAT_ENC_LOST 0 n).setPosState h n 1).initCar h n).modPosCar h n (fun c => { c with frame := none })
    else d) d

/-- A quadrature fault of an encoder at one half (R88, R91). -/
def encLoss (d : Dev) (h : HalfId) (e : Nat) : Dev :=
  let p := ctl .pos h
  (List.range 4).foldl (fun d n =>
    if d.carEn h n && d.on p POS.CAR_CFG_ENC_USE n && d.get p POS.CAR_CFG_ENC n == e then
      let d1 := (d.fault p cENC_LOSS n).put p POS.CAR_STAT_ENC_LOST 1 n
      if d.posState h n == 3 && !d.on p POS.CAR_STAT_ENC_LOST n then d1.setPosState h n 4 else d1
    else d) d

/-- W1 to `CARn_CMD.REVAL` (R91): UNCERTAIN to INIT while the car stands. -/
def posReval (d : Dev) (h : HalfId) (n : Nat) : Dev :=
  if d.posState h n == 4 && d.slow h n then d.setPosState h n 1 else d

/-- W1 to `LATm_ARM` (R101): clears FULL and OVR. -/
def latchArm (d : Dev) (h : HalfId) (m : Nat) : Dev :=
  (d.put (ctl .pos h) POS.LAT_STAT_FULL 0 m).put (ctl .pos h) POS.LAT_STAT_OVR 0 m

end Dev

def execSsiFrame (rx : Fin 4) (lineLow : Bool) (bits : Word) (s : State) : Host.Outcome State Fault Refusal :=
  onDev (fun d => d.both (fun d h => d.takeSsi h rx lineLow bits.toNat)) s

def execPosFuse (h : HalfId) (s : State) : Host.Outcome State Fault Refusal := onDev (fun d => d.posFuse h) s

def execSlip (h : HalfId) (n : Fin 4) (s : State) : Host.Outcome State Fault Refusal := onDev (fun d => d.slipCheck h n) s

def execCoastExpired (h : HalfId) (n : Fin 4) (s : State) : Host.Outcome State Fault Refusal := onDev (fun d => d.coastCheck h n) s

def execEncoderEdge (e : Fin 4) (up : Bool) (s : State) : Host.Outcome State Fault Refusal :=
  onDev (fun d => { d with enc := lmod d.enc e (fun c => if up then (c + 1) % 2 ^ 32 else (c + (2 ^ 32 - 1)) % 2 ^ 32) }) s

def execEncLoss (e : Fin 4) (s : State) : Host.Outcome State Fault Refusal := onDev (fun d => d.both (fun d h => d.encLoss h e)) s

def execPosReval (h : HalfId) (n : Fin 4) (s : State) : Host.Outcome State Fault Refusal := onDev (fun d => d.posReval h n) s

def execLatchConfirm (src : Fin 32) (level : Bool) (s : State) : Host.Outcome State Fault Refusal :=
  onDev (fun d => d.both (fun d h => d.latchKeep h src level)) s

def execLatchBounce (src : Fin 32) (s : State) : Host.Outcome State Fault Refusal :=
  onDev (fun d => d.both (fun d h => d.latchBounced h src)) s

def execLatchArm (h : HalfId) (m : Fin 16) (s : State) : Host.Outcome State Fault Refusal := onDev (fun d => d.latchArm h m) s

def execDzEdge (h : HalfId) (src : Fin 32) (entering : Bool) (dt20 : Nat) (s : State) : Host.Outcome State Fault Refusal :=
  onDev (fun d => d.dzEdge h src entering dt20) s

def execLrnStart (h : HalfId) (n : Fin 4) (src : Fin 32) (s : State) : Host.Outcome State Fault Refusal :=
  onDev (fun d => d.lrnStart h n src) s

def execLrnStop (h : HalfId) (s : State) : Host.Outcome State Fault Refusal := onDev (fun d => d.lrnEnd h 2) s

def execLrnEdge (h : HalfId) (edge : VaneEdge) (dt20 : Nat) (s : State) : Host.Outcome State Fault Refusal :=
  onDev (fun d => d.lrnEdge h edge.src edge.entering dt20) s

end Sys2Proof.Machine
end

