-- ==== Sys2Proof/Machine/Sep.lean ====
section
/-! DEFINITION. SEP, the lane planner: bodies, reservations, claims and the operations on them (spec/06_multicar_separation.md,
R170 to R180, R190 to R192). -/
namespace Sys2Proof.Machine

open Sys2Proof

/-! ### Codes (R192) -/
def cSEP_CLAIM : Nat := 0x70
def cSEP_OVERLAP : Nat := 0x71
def cSEP_CONFLICT : Nat := 0x72
def cSEP_OVERRUN : Nat := 0x73

def sepRes : ResFields := ⟨SEP.RSV_RES_STATE, SEP.RSV_RES_REASON, SEP.RSV_RES_TAG, SEP.RSV_RES_SEQ⟩

namespace Dev

/-! ### Bodies, reservations, travel -/

def bodyLo (d : Dev) (h : HalfId) (n : Nat) : Int := d.carX h n - d.get (ctl .pos h) POS.CAR_BOT_UM n
def bodyHi (d : Dev) (h : HalfId) (n : Nat) : Int := d.carX h n + d.get (ctl .pos h) POS.CAR_TOP_UM n

def hasRes (d : Dev) (h : HalfId) (n : Nat) : Bool := d.on (ctl .sep h) SEP.RES_STAT_HAS n
def resLo (d : Dev) (h : HalfId) (n : Nat) : Int := d.geti (ctl .sep h) SEP.RES_LO_UM n
def resHi (d : Dev) (h : HalfId) (n : Nat) : Int := d.geti (ctl .sep h) SEP.RES_HI_UM n
def clmLo (d : Dev) (h : HalfId) (n : Nat) : Int := d.geti (ctl .sep h) SEP.CLM_LO_UM n
def clmHi (d : Dev) (h : HalfId) (n : Nat) : Int := d.geti (ctl .sep h) SEP.CLM_HI_UM n

/-- The reservation, or the body of a car that holds none (R177). -/
def laneLo (d : Dev) (h : HalfId) (n : Nat) : Int := if d.hasRes h n then d.resLo h n else d.bodyLo h n
def laneHi (d : Dev) (h : HalfId) (n : Nat) : Int := if d.hasRes h n then d.resHi h n else d.bodyHi h n

/-- Mode of a generator (R139, Table 12): 0 IDLE, 1 HOLD, 2 MOVE, 3 JOG, 4 STOPPING, 5 FROZEN, 6 RESCUE. -/
def mpgMode (d : Dev) (h : HalfId) (n : Nat) : Nat := d.get (pgMpg h n) MPG.STATE_MODE
def mpgUp (d : Dev) (h : HalfId) (n : Nat) : Bool := d.on (pgMpg h n) MPG.STATE_DIR

/-- Whether a profile moves the car. -/
def mpgMoving (d : Dev) (h : HalfId) (n : Nat) : Bool :=
  d.mpgMode h n == 2 || d.mpgMode h n == 3 || d.mpgMode h n == 4 || d.mpgMode h n == 6

/-- Direction of travel of a car for SEP: that of its profile, or of its measured speed while export is frozen; `none` for a car
that stands. -/
def travelUp (d : Dev) (h : HalfId) (n : Nat) : Option Bool :=
  if d.mpgMoving h n then some (d.mpgUp h n)
  else if d.mpgMode h n == 5 && !d.slow h n then some (decide (d.carV h n > 0))
  else none

/-! ### Claims (R172) -/

/-- The claim of Table 1, before it is clipped. -/
def claimOf (d : Dev) (h : HalfId) (n : Nat) : Int × Int :=
  let lo := d.bodyLo h n
  let hi := d.bodyHi h n
  let p := pgMpg h n
  let mode := d.mpgMode h n
  let top : Int := d.get (ctl .pos h) POS.CAR_TOP_UM n
  let bot : Int := d.get (ctl .pos h) POS.CAR_BOT_UM n
  if d.posState h n == 1 || d.posState h n == 4 || (d.half h).sep.aborted then (d.laneLo h n, d.laneHi h n)
  else if mode == 2 || mode == 4 || mode == 6 then
    (if d.mpgUp h n then (lo, max (d.geti p MPG.TGT_UM) (d.geti p MPG.STOPPT_UM) + top)
     else (min (d.geti p MPG.TGT_UM) (d.geti p MPG.STOPPT_UM) - bot, hi))
  else match d.travelUp h n with
    | some true => (lo, max hi (d.laneHi h n))
    | some false => (min lo (d.laneLo h n), hi)
    | none => (lo, hi)

/-- Mark that a reservation of the pairs of car n changed (R191). -/
def resChanged (d : Dev) (h : HalfId) (n : Nat) : Dev :=
  let p := ctl .sep h
  let d := if n ≥ 1 then d.stat p n else d
  if n ≤ 2 then d.stat p (n + 1) else d

/-- Set a reservation; the car then holds one and has no conflict. -/
def setRes (d : Dev) (h : HalfId) (n : Nat) (lo hi : Int) : Dev :=
  let p := ctl .sep h
  let same := d.hasRes h n && decide (d.resLo h n = lo ∧ d.resHi h n = hi)
  let d' := (((d.puti p SEP.RES_LO_UM lo n).puti p SEP.RES_HI_UM hi n).put p SEP.RES_STAT_HAS 1 n).put p SEP.RES_STAT_CONFLICT 0 n
  if same then d' else d'.resChanged h n

/-- Remove a reservation. -/
def dropRes (d : Dev) (h : HalfId) (n : Nat) : Dev :=
  let p := ctl .sep h
  let d' := (((d.put p SEP.RES_LO_UM 0 n).put p SEP.RES_HI_UM 0 n).put p SEP.RES_STAT_HAS 0 n).put p SEP.RES_STAT_CONFLICT 0 n
  if d.hasRes h n then d'.resChanged h n else d'

/-- Whether [lo, hi] for car n keeps R171 against the reservations of the other cars. -/
def fits (d : Dev) (h : HalfId) (n : Nat) (lo hi : Int) : Bool :=
  let g : Int := d.get (ctl .sep h) SEP.GAP_MIN_UM
  (List.range 4).all (fun m =>
    m == n || !d.carEn h m || !d.hasRes h m ||
      (if m < n then decide (d.resHi h m + g ≤ lo) else decide (hi + g ≤ d.resLo h m)))

def inShaft (d : Dev) (h : HalfId) (lo hi : Int) : Bool :=
  decide (d.geti (ctl .pos h) POS.SHAFT_LO_UM ≤ lo ∧ hi ≤ d.geti (ctl .pos h) POS.SHAFT_HI_UM)

/-- Create the reservations that are due: at the first event at which the car is VALID, its body, or a conflict (R177). -/
def makeRes (d : Dev) (h : HalfId) : Dev :=
  let p := ctl .sep h
  (List.range 4).foldl (fun d n =>
    if (d.half h).sep.make.getD n false && d.enabled p && d.carEn h n && d.posState h n == 2 then
      let d := d.modHalf h (fun x => { x with sep := { x.sep with make := lset x.sep.make n false } })
      let lo := d.bodyLo h n
      let hi := d.bodyHi h n
      if d.fits h n lo hi && d.inShaft h lo hi then d.setRes h n lo hi
      else (((d.dropRes h n).put p SEP.RES_STAT_CONFLICT 1 n).stat p 5).fault p cSEP_CONFLICT n
    else d) d

/-- The reason an operation is rejected with, if any: the checks of Table 2 in order, against the claims of the previous event. -/
def sepWhy (d : Dev) (h : HalfId) (c : GoCmd) : Option Nat :=
  let g : Int := d.get (ctl .sep h) SEP.GAP_MIN_UM
  if !d.enabled (ctl .sep h) then some cRANGE
  else match c.op with
  | 1 =>
    if !d.carEn h c.car then some cRANGE
    else if !decide (c.lo < c.hi) then some cPAIR
    else if !d.inShaft h c.lo c.hi then some cRANGE
    else if !decide (c.lo ≤ d.clmLo h c.car ∧ d.clmHi h c.car ≤ c.hi) then some cSEP_CLAIM
    else if !d.fits h c.car c.lo c.hi then some cSEP_OVERLAP
    else none
  | 2 => if !d.carEn h c.car then some cRANGE else if !d.hasRes h c.car then some cSEP_CONFLICT else none
  | 3 =>
    let n := c.car
    if n > 2 ∨ !d.carEn h n ∨ !d.carEn h (n + 1) then some cRANGE
    else if !d.hasRes h n ∨ !d.hasRes h (n + 1) then some cSEP_CONFLICT
    else if ¬(d.resLo h n < c.pos ∧ c.pos + g < d.resHi h (n + 1)) then some cPAIR
    else if ¬(c.pos ≥ d.clmHi h n ∧ c.pos + g ≤ d.clmLo h (n + 1)) then some cSEP_CLAIM
    else none
  | _ => some cRANGE

/-- The effect of an accepted operation (R173, Table 2). -/
def sepDo (d : Dev) (h : HalfId) (c : GoCmd) : Dev :=
  let g : Int := d.get (ctl .sep h) SEP.GAP_MIN_UM
  match c.op with
  | 1 => d.setRes h c.car c.lo c.hi
  | 2 => d.setRes h c.car (d.clmLo h c.car) (d.clmHi h c.car)
  | 3 => (d.setRes h c.car (d.resLo h c.car) c.pos).setRes h (c.car + 1) (c.pos + g) (d.resHi h (c.car + 1))
  | _ => d

/-- SEP takes its waiting operation (R173, R174 step 3). -/
def sepTake (d : Dev) (h : HalfId) : Dev :=
  match (d.half h).sep.waiting with
  | none => d
  | some c =>
    let d := d.modHalf h (fun x => { x with sep := { x.sep with waiting := none } })
    if d.takes h then
      let why := d.sepWhy h c
      let d := d.takenRes (ctl .sep h) sepRes c.tag (d.half h).servoCnt why
      if why.isNone then d.sepDo h c else d
    else d

/-- New claims, clipped to the reservation, with the OVERRUN episode (R172), and FULL. -/
def sepClaim (d : Dev) (h : HalfId) (n : Nat) : Dev :=
  let p := ctl .sep h
  let c := d.claimOf h n
  let clip := d.hasRes h n && decide (c.1 < d.resLo h n ∨ c.2 > d.resHi h n)
  let lo := if clip then max c.1 (d.resLo h n) else c.1
  let hi := if clip then min c.2 (d.resHi h n) else c.2
  let d' := (d.puti p SEP.CLM_LO_UM lo n).puti p SEP.CLM_HI_UM hi n
  let full := d.hasRes h n && (match d.travelUp h n with
    | some true => decide (hi = d.resHi h n)
    | some false => decide (lo = d.resLo h n)
    | none => false)
  let d' := (d'.putb p SEP.RES_STAT_FULL full n).putb p SEP.RES_STAT_OVERRUN clip n
  if clip && !d.on p SEP.RES_STAT_OVERRUN n then (d'.stat p 4).fault p cSEP_OVERRUN n [encS 32 c.1, encS 32 c.2] else d'

/-- Automatic trimming of the trailing edge (R176). -/
def sepTrim (d : Dev) (h : HalfId) (n : Nat) : Dev :=
  let p := ctl .sep h
  if d.enabled p && d.hasRes h n && bitN (d.get p SEP.AUTO_TRIM_CARS) n == 1 then
    match d.travelUp h n with
    | some true => d.setRes h n (d.clmLo h n) (d.resHi h n)
    | some false => d.setRes h n (d.resLo h n) (d.clmHi h n)
    | none => d
  else d

/-- The pair registers (R190): 0 for a pair with a disabled car. -/
def sepPairs (d : Dev) (h : HalfId) : Dev :=
  let p := ctl .sep h
  (List.range 3).foldl (fun d k =>
    let both := d.carEn h k && d.carEn h (k + 1)
    let w (x : Int) : Int := if both then x else 0
    ((d.puti p SEP.PR_BGAP_UM (w (d.bodyLo h (k + 1) - d.bodyHi h k)) k).puti p SEP.PR_RGAP_UM
      (w (d.resLo h (k + 1) - d.resHi h k)) k).puti p SEP.PR_CGAP_UM (w (d.clmLo h (k + 1) - d.clmHi h k)) k) d

/-- Motion intent of the ACTIVE half reaches the safety pair with the half's epoch: one below the highest that the pair has seen is refused (R349). -/
def sendIntent (d : Dev) (h : HalfId) (f : Dev → Nat → Dev) : Dev :=
  let e := d.get (ctl .hlf h) HLF.EPOCH_KNOWN
  let low := match d.pEpoch with | some m => epochHigher m e | none => false
  if !d.active h || low then d else { f d e with pEpoch := some e }

/-- Steps 6 and 7 of R174: claims, trimming, pair registers, and the reservations and claims handed to the safety pair by the ACTIVE half. -/
def sepClose (d : Dev) (h : HalfId) : Dev :=
  let d := (List.range 4).foldl (fun d n => if d.carEn h n then (d.sepClaim h n).sepTrim h n else d) d
  let d := d.sepPairs h
  d.sendIntent h (fun d _ =>
    { d with pRes := (List.range 4).map (fun n => if d.hasRes h n then some (d.resLo h n, d.resHi h n) else none),
             pClm := (List.range 4).map (fun n => if d.carEn h n then some (d.clmLo h n, d.clmHi h n) else none) })

/-- A write of `RSV_GO.OP` (R173). -/
def sepGo (d : Dev) (h : HalfId) (op : Nat) : Dev :=
  let p := ctl .sep h
  if op = 0 then d
  else
    let c : GoCmd := ⟨op, d.geti p SEP.RSV_BND_UM, 0, 0, d.get p SEP.RSV_CAR_CAR, d.geti p SEP.RSV_LO_UM, d.geti p SEP.RSV_HI_UM,
      d.get p SEP.RSV_TAG_TAG⟩
    let r := d.goWrite p sepRes (d.half h).sep.waiting c [] [] 0 (d.active h)
    r.1.modHalf h (fun x => { x with sep := { x.sep with waiting := r.2 } })

/-- Failing rules of the SEP page: a new `GAP_MIN` keeps R171 between the existing reservations (R179). -/
def sepRules (d : Dev) (h : HalfId) (v : View) : List RuleFail :=
  let g : Int := v SEP.GAP_MIN_UM 0 0
  let ok := (List.range 4).all (fun n => (List.range 4).all (fun m =>
    !(decide (n < m)) || !d.hasRes h n || !d.hasRes h m || decide (d.resHi h n + g ≤ d.resLo h m)))
  if ok then [] else [⟨[(SEP.GAP_MIN_UM, 0, 0)], cPAIR⟩]

/-- The SERVO event of the SEP page: apply; enabling SEP, or a car, makes its reservation due; disabling removes it (R177, R178).
Enabling shows `RSV_RES` as 'no command since enable', or a waiting operation as PENDING (R173, with the codes of `CMD_RES.STATE`).
`wasCar` gives the car enables before the event. -/
def applySep (d : Dev) (h : HalfId) (wasCar : Nat → Bool) : Dev :=
  let p := ctl .sep h
  let was := d.enabled p
  let d := d.applyPage p none (d.sepRules h) 2 ((d.half h).servoCnt % 65536)
  let d := if d.enabled p && !was then
      (d.modHalf h (fun x => { x with sep := { x.sep with aborted := false } })).showRes p sepRes
        (if (d.half h).sep.waiting.isSome then 1 else 0) 0 (((d.half h).sep.waiting.map GoCmd.tag).getD 0)
    else d
  (List.range 4).foldl (fun d n =>
    let due (d : Dev) : Dev := d.modHalf h (fun x => { x with sep := { x.sep with make := lset x.sep.make n true } })
    let gone (d : Dev) : Dev :=
      ((d.dropRes h n).put p SEP.RES_STAT_OVERRUN 0 n).modHalf h
        (fun x => { x with sep := { x.sep with make := lset x.sep.make n false } })
    if !d.carEn h n then
      (if wasCar n then ((((gone d).put p SEP.CLM_LO_UM 0 n).put p SEP.CLM_HI_UM 0 n).put p SEP.RES_STAT_FULL 0 n) else d)
    else if !d.enabled p then (if was then gone d else d)
    else if !was || !wasCar n then due d
    else d) d

/-- An abort of SEP (R178): the waiting operation ends with ABORTED, the reservations stay. -/
def abortSep (d : Dev) (h : HalfId) : Dev :=
  let p := ctl .sep h
  let d := match (d.half h).sep.waiting with
    | some c => d.showRes p sepRes 3 cABORTED c.tag
    | none => d
  (d.modHalf h (fun x => { x with sep := { x.sep with waiting := none, aborted := true } })).abortPage p true

end Dev

def execSepReserve (h : HalfId) (car : Fin 4) (lo hi : Word) (tag : BitVec 16) (s : State) : Host.Outcome State Fault Refusal :=
  onDev (fun d =>
    let p := ctl .sep h
    ((((d.put p SEP.RSV_CAR_CAR car).put p SEP.RSV_LO_UM lo.toNat).put p SEP.RSV_HI_UM hi.toNat).put p SEP.RSV_TAG_TAG tag.toNat).sepGo h 1) s

def execSepTrim (h : HalfId) (car : Fin 4) (tag : BitVec 16) (s : State) : Host.Outcome State Fault Refusal :=
  onDev (fun d => ((d.put (ctl .sep h) SEP.RSV_CAR_CAR car).put (ctl .sep h) SEP.RSV_TAG_TAG tag.toNat).sepGo h 2) s

def execSepHandover (h : HalfId) (car : Fin 4) (bnd : Word) (tag : BitVec 16) (s : State) : Host.Outcome State Fault Refusal :=
  onDev (fun d =>
    let p := ctl .sep h
    (((d.put p SEP.RSV_CAR_CAR car).put p SEP.RSV_BND_UM bnd.toNat).put p SEP.RSV_TAG_TAG tag.toNat).sepGo h 3) s

end Sys2Proof.Machine
end

