-- ==== Sys2Proof/Machine/Motion.lean ====
section
/-! DEFINITION. The motion profile generators MPG0 to MPG3 (spec/04_motion.md). -/
namespace Sys2Proof.Machine

open Sys2Proof

/-! ### Codes (R65, R141) -/
def cREJ_BEHIND : Nat := 0x40
def cREJ_INSIDE_STOP : Nat := 0x41
def cREJ_LANE : Nat := 0x42
def cREJ_LIMIT_SW : Nat := 0x43
def cREJ_NOT_PERMITTED : Nat := 0x44
def cREJ_UNCERTAIN : Nat := 0x45
def cREJ_STOPPING : Nat := 0x46
def cREJ_DIRECTION : Nat := 0x47
def cREJ_NO_LANDING : Nat := 0x48
def cDRV_SILENT : Nat := 0x49
def cDRV_SHORT : Nat := 0x4A

def mpgRes : ResFields := ⟨MPG.CMD_RES_STATE, MPG.CMD_RES_REASON, MPG.CMD_RES_TAG, MPG.CMD_RES_SEQ⟩

namespace Dev

def mpg (d : Dev) (h : HalfId) (n : Nat) : Mpg := (d.half h).mpg.getD n Mpg.init

def modMpg (d : Dev) (h : HalfId) (n : Nat) (f : Mpg → Mpg) : Dev := d.modHalf h (fun x => { x with mpg := lmod x.mpg n f })

/-- Whether a generator works: its `CTRL.EN` = 1 and its car enabled in POS (R108, R117). -/
def mpgOn (d : Dev) (h : HalfId) (n : Nat) : Bool := d.enabled (pgMpg h n) && d.carEn h n

/-- Whether a ramp, a move or a freeze leaves the car at rest in its profile: IDLE or HOLD. -/
def mpgStands (d : Dev) (h : HalfId) (n : Nat) : Bool := decide (d.mpgMode h n ≤ 1)

/-! ### Switches (R95 to R97, R128) -/

/-- Level of the source of a switch entry: the hardware line of its DIN channel (R97, R433), or the level of a safe input pair in `THS` (R95). -/
def swLevel (d : Dev) (h : HalfId) (m : Nat) : Bool :=
  let p := ctl .pos h
  if d.on p POS.SW_SRCK m then
    let k := d.get p POS.SW_SRC m
    !(bitN (d.get (shp .ths) THS.IN_PAIR_ACT) k == 1 || bitN (d.get (shp .ths) THS.IN_PAIR_FLT) k == 1)
  else bitN d.fio.lines (d.get p POS.SW_SRC m) == 1

/-- Show whether an entry is actuated: in use, and its input equal to `POL` (R95). -/
def swShow (d : Dev) (h : HalfId) (m : Nat) : Dev :=
  let p := ctl .pos h
  d.putBit p POS.SW_STATE_ACT m (d.get p POS.SW_KIND m != 0 && (d.swLevel h m == d.on p POS.SW_POL m))

/-- An actuated entry of one of the kinds for car n in direction `up`. -/
def swActs (d : Dev) (h : HalfId) (n : Nat) (up : Bool) (kinds : List Nat) (acts : List Nat) : Bool :=
  let p := ctl .pos h
  (List.range 16).any (fun m =>
    bitN (d.get p POS.SW_STATE_ACT) m == 1 && d.get p POS.SW_CAR m == n && (d.on p POS.SW_DIR m == up) &&
    kinds.contains (d.get p POS.SW_KIND m) && acts.contains (d.get p POS.SW_ACT m))

/-! ### The state of the profile -/

def mpgKin (d : Dev) (h : HalfId) (n : Nat) : Kin := let m := d.mpg h n; ⟨m.xs, m.vs, m.av⟩

/-- The limits in force: those of the page, of a rescue, or of a category-1 ramp (R130, R132). -/
def mpgLim (d : Dev) (h : HalfId) (n mode : Nat) (soft : Bool) : Lim :=
  let p := pgMpg h n
  let j : Int := d.get p MPG.JMAX_UMS3
  let j1 : Int := if soft then max 1 (j / d.get p MPG.SOFT_DIV) else j
  if mode = 6 then ⟨d.get p MPG.RSC_ACC_UMS2, d.get p MPG.RSC_ACC_UMS2, j1, j⟩
  else ⟨d.get p MPG.AMAX_UMS2, d.get p MPG.DMAX_UMS2, j1, j⟩

/-- The effective speed limit of R113 for a mode. -/
def mpgCap (d : Dev) (h : HalfId) (n mode : Nat) : Nat :=
  let m := d.mpg h n
  let v := d.get (pgMpg h n) MPG.VMAX_UMS
  let v := if m.degCap ≠ 0 then min v m.degCap else v
  let v := if m.tsd then min v (d.get (pgMpg h n) MPG.TSD_VCAP_UMS) else v
  if mode = 6 ∧ m.jogV ≠ 0 then min v m.jogV else v

/-- Stopping point of a state under limits (R121); equal to the position for a car that stands. -/
def stopPoint (k : Kin) (up : Bool) (L : Lim) : Int :=
  let s : Int := if k.v > 0 then 1 else if k.v < 0 then -1 else if up then 1 else -1
  k.x / unitX + s * stopUm L (s * k.v) (s * k.a)

/-- The minimum stopping point of a generator under `DMAX` and `JMAX`. -/
def mpgStoppt (d : Dev) (h : HalfId) (n : Nat) : Int :=
  if d.mpgMoving h n then stopPoint (d.mpgKin h n) (d.mpgUp h n) (d.mpgLim h n 2 false) else (d.mpg h n).xs / unitX

/-- Advance the running profile by the time since the last event (R111); at its end the car stands at its target (R115, R127). -/
def mpgAdvance (d : Dev) (h : HalfId) (n T : Nat) : Dev :=
  if d.mpgOn h n && d.mpgMoving h n then
    let p := pgMpg h n
    let m := d.mpg h n
    let r := advSegs (d.mpgKin h n) m.segs T
    if r.2.isEmpty then
      let d1 := d.modMpg h n (fun m => { m with xs := d.geti p MPG.TGT_UM * unitX, vs := 0, av := 0, segs := [], jogV := 0, ramp := none })
      ((d1.put p MPG.STATE_MODE 1).put p MPG.STATE_SOFT 0).stat p (if d.mpgMode h n == 4 then 2 else 1)
    else
      let d1 := d.modMpg h n (fun m => { m with xs := r.1.x, vs := r.1.v, av := r.1.a, segs := r.2 })
      if (r.2.headD ⟨0, 0, 0⟩).ph > 1 then d1.put p MPG.STATE_SOFT 0 else d1
  else d

/-- Hand the motion intent to the safety pair (R29, R122, R349). -/
def mpgIntent (d : Dev) (h : HalfId) (n : Nat) : Dev :=
  let p := pgMpg h n
  d.sendIntent h (fun d e => { d with pInt := lset d.pInt n (some ⟨d.geti p MPG.TGT_UM, d.mpgStoppt h n, d.get p MPG.VMAX_UMS,
    d.get p MPG.DMAX_UMS2, d.get p MPG.JMAX_UMS3, e⟩) })

/-- Begin a plan: mode, target, direction, phases. -/
def mpgPlan (d : Dev) (h : HalfId) (n mode : Nat) (tgt : Int) (up : Bool) (gs : List Seg) : Dev :=
  let p := pgMpg h n
  let gs := (if up then gs else mirror gs).filter (fun g => g.t != 0)
  (((d.put p MPG.STATE_MODE mode).puti p MPG.TGT_UM tgt).putb p MPG.STATE_DIR up).modMpg h n (fun m => { m with segs := gs })

/-! ### Stops (R125, R127 to R131) -/

/-- Record the cause of a stop that begins; one other than FIRMWARE sets `STAT.BLOCK` bit 3 (R140). -/
def mpgCause (d : Dev) (h : HalfId) (n cause : Nat) : Dev :=
  let d := d.put (pgMpg h n) MPG.STATE_CAUSE cause
  if cause = 1 then d else d.stat (pgMpg h n) 3

/-- Freeze export (R125): the profile stops being evaluated; a freeze in progress does not change (R127, Table 7). -/
def mpgFreeze (d : Dev) (h : HalfId) (n cause : Nat) : Dev :=
  let p := pgMpg h n
  if d.mpgMode h n == 5 then d
  else
    let x := d.geti p MPG.SP_X_UM
    ((((d.put p MPG.STATE_MODE 5).put p MPG.STATE_SOFT 0).modMpg h n
      (fun m => { m with xs := x * unitX, vs := 0, av := 0, segs := [], jogV := 0, ramp := none, soft := true })).mpgCause h n cause).mpgIntent h n

/-- Start, or replan, a ramp stop at the minimum stopping point under the limits given (R125, R130). One that runs already from the same cause only
replans; on a car that stands no stop begins. -/
def mpgRamp (d : Dev) (h : HalfId) (n cause : Nat) (D J : Nat) (supplied : Bool) : Dev :=
  let p := pgMpg h n
  if d.mpgMoving h n then
    let k := d.mpgKin h n
    let up := if k.v > 0 then true else if k.v < 0 then false else d.mpgUp h n
    let s : Int := if up then 1 else -1
    let L : Lim := ⟨D, D, J, J⟩
    let runs := d.mpgMode h n == 4 && d.get p MPG.STATE_CAUSE == cause
    let d := d.mpgPlan h n 4 (stopPoint k up L) up (planStop L (s * k.v) (s * k.a))
    let d := (d.put p MPG.STATE_SOFT 0).modMpg h n (fun m => { m with ramp := if supplied then some (D, J) else none, jogV := 0 })
    (if runs then d else d.mpgCause h n cause).mpgIntent h n
  else d

/-- Ramp stop under `DMAX` and `JMAX`. -/
def mpgStop (d : Dev) (h : HalfId) (n cause : Nat) : Dev :=
  d.mpgRamp h n cause (d.get (pgMpg h n) MPG.DMAX_UMS2) (d.get (pgMpg h n) MPG.JMAX_UMS3) false

/-- Step 2 of R118: the safety region's stop lines (R130). -/
def mpgStopLine (d : Dev) (h : HalfId) (n : Nat) : Dev :=
  let m := d.mpg h n
  let d' := d.modMpg h n (fun m => { m with stopLine := 0 })
  if m.stopLine = 2 then d'.mpgFreeze h n 6
  else if m.stopLine = 1 then
    (match m.ramp with
     | some (D, J) => d'.mpgRamp h n 5 D J true
     | none => d'.mpgStop h n 5)
  else d

/-- What the switch table does to a generator (R128): the slowdown cap, a freeze, a ramp stop. -/
def mpgLimitSw (d : Dev) (h : HalfId) (n : Nat) : Dev :=
  let up := d.mpgUp h n
  let moving := d.mpgMoving h n
  let d1 := d.modMpg h n (fun m => { m with tsd := moving && d.swActs h n up [1] [0, 1] })
  let d2 := if moving && d.swActs h n up [2, 3] [0] then d1.mpgFreeze h n 2 else d1
  if d2.mpgMoving h n && d2.mpgMode h n != 4 && d2.swActs h n up [2, 3] [1] then d2.mpgStop h n 3 else d2

/-- Step 3 of R118: the switch table and POS (R128, R129). -/
def mpgSwitches (d : Dev) (h : HalfId) (n : Nat) : Dev :=
  let d1 := (d.mpgLimitSw h n).modMpg h n (fun m => { m with posStop := false })
  if (d.mpg h n).posStop && d1.mpgMode h n != 4 then d1.mpgStop h n 4 else d1

/-! ### Commands (R115 to R120, R124 to R126, R132, R175) -/

/-- A write of `CMD_GO.OP` (R116). The arguments are those in force at the write: whether they are sampled there or at the event that takes the
command is not stated (notes/assumptions/64.md). -/
def mpgGo (d : Dev) (h : HalfId) (n op : Nat) : Dev :=
  let p := pgMpg h n
  if op = 0 then d
  else
    let c : GoCmd := ⟨op, d.geti p MPG.CMD_POS_UM, d.geti p MPG.CMD_VEL_UMS, 0, n, 0, 0, d.get p MPG.CMD_TAG_TAG⟩
    let r := d.goWrite p mpgRes (d.mpg h n).waiting c [3, 5] [5] cREJ_STOPPING (d.active h)
    r.1.modMpg h n (fun m => { m with waiting := r.2 })

/-- Whether a command starts its profile from the measured state (R126). -/
def mpgSeeds (d : Dev) (h : HalfId) (n : Nat) : Bool := d.mpgMode h n == 5 || (d.mpgStands h n && (d.mpg h n).soft)

/-- The state a move would start from. -/
def mpgFrom (d : Dev) (h : HalfId) (n : Nat) : Kin :=
  if d.mpgSeeds h n then ⟨d.carX h n * unitX, d.carV h n * unitV, 0⟩ else d.mpgKin h n

/-- Target of a JOG: the position at which the body reaches the reservation edge, or the shaft bound (R175). -/
def jogTarget (d : Dev) (h : HalfId) (n : Nat) (up : Bool) : Int :=
  let p := ctl .pos h
  if up then (if d.hasRes h n then d.resHi h n else d.geti p POS.SHAFT_HI_UM) - d.get p POS.CAR_TOP_UM n
  else (if d.hasRes h n then d.resLo h n else d.geti p POS.SHAFT_LO_UM) + d.get p POS.CAR_BOT_UM n

/-- Target of a RESCUE (R132): the first landing with an opening in the direction, at or beyond the stopping point. -/
def rescueTarget (d : Dev) (h : HalfId) (n : Nat) (up : Bool) : Option Int :=
  let p := ctl .pos h
  let x := stopPoint (d.mpgFrom h n) up (d.mpgLim h n 6 false)
  let ls := ((List.range (d.get p POS.LT_CFG_COUNT)).filter (fun i => d.get p POS.LT_FLG_SIDE 0 i != 0)).map
    (fun i => d.geti p POS.LT_POS_UM 0 i)
  if up then ls.find? (fun y => decide (x ≤ y)) else ls.reverse.find? (fun y => decide (y ≤ x))

/-- Direction and target of a command. -/
def cmdAim (d : Dev) (h : HalfId) (n : Nat) (c : GoCmd) : Bool × Int :=
  if c.op = 2 then (decide (c.vel > 0), d.jogTarget h n (decide (c.vel > 0)))
  else if c.op = 6 then (decide (c.vel > 0), (d.rescueTarget h n (decide (c.vel > 0))).getD 0)
  else (decide (c.pos > (d.mpgFrom h n).x / unitX), c.pos)

/-- Check 2 of R117: argument ranges (R115, Table 3; R132). -/
def mpgArg (d : Dev) (h : HalfId) (n : Nat) (c : GoCmd) : Option Nat :=
  let p := pgMpg h n
  match c.op with
  | 1 | 3 | 4 | 5 => none
  | 2 =>
    if c.vel = 0 then some cZERO
    else if c.vel.natAbs > min (d.get p MPG.JOG_VMAX_UMS) (d.get p MPG.VMAX_UMS) then some cRANGE else none
  | 6 => if c.vel = 0 ∨ c.vel.natAbs > 300000 then some cRANGE else none
  | _ => some cRANGE

/-- Check 7 of R117: the fixed-target rule for a car in motion (R120); a RESCUE needs a standing car (R132). -/
def mpgBehind (d : Dev) (h : HalfId) (n : Nat) (c : GoCmd) : Bool :=
  if d.mpgMoving h n then
    let up := d.mpgUp h n
    let aim := d.cmdAim h n c
    let x := (d.mpgKin h n).x / unitX
    c.op == 6 || (aim.1 != up) ||
      (if up then decide (aim.2 ≤ x ∨ aim.2 < d.mpgStoppt h n) else decide (aim.2 ≥ x ∨ aim.2 > d.mpgStoppt h n))
  else false

/-- The stopping point that counts for the claim of a command (R175): that of the state its profile starts from. -/
def cmdStop (d : Dev) (h : HalfId) (n : Nat) (c : GoCmd) (up : Bool) : Int :=
  if c.op ≠ 4 ∧ d.mpgSeeds h n = true then stopPoint (d.mpgFrom h n) up (d.mpgLim h n 2 false) else d.mpgStoppt h n

/-- Check 9 of R117: the claim the command would create lies inside the reservation (R175), the body alone for a standing car that is to stay where
it stands; with SEP not enabled, one enabled car
passes, and none while SEP is aborted (R178). -/
def mpgLane (d : Dev) (h : HalfId) (n : Nat) (c : GoCmd) : Bool :=
  let aim := d.cmdAim h n c
  let top : Int := d.get (ctl .pos h) POS.CAR_TOP_UM n
  let bot : Int := d.get (ctl .pos h) POS.CAR_BOT_UM n
  let stp := d.cmdStop h n c aim.1
  if (d.half h).sep.aborted then false
  else if !d.enabled (ctl .sep h) then decide (((List.range 4).filter (d.carEn h)).length = 1)
  else d.hasRes h n &&
    (let lo := d.bodyLo h n
     let hi := d.bodyHi h n
     let e : Int × Int :=
       if c.op = 2 then (if aim.1 then (lo, max hi (d.resHi h n)) else (min lo (d.resLo h n), hi))
       else if d.mpgStands h n ∧ aim.2 = (if c.op = 4 then d.mpgStoppt h n else (d.mpgFrom h n).x / unitX) then (lo, hi)
       else if aim.1 then (lo, max aim.2 stp + top) else (min aim.2 stp - bot, hi)
     decide (d.resLo h n ≤ e.1 ∧ e.2 ≤ d.resHi h n))

/-- The reason a MOVE, JOG or RESCUE is rejected with, if any: Table 5 in order. -/
def moveWhy (d : Dev) (h : HalfId) (n : Nat) (c : GoCmd) : Option Nat :=
  let mode := d.mpgMode h n
  let aim := d.cmdAim h n c
  let bal := d.geti (pgMpg h n) MPG.RSC_BAL_KG
  if d.posState h n == 1 || d.posState h n == 4 then some cREJ_UNCERTAIN
  else if !d.on (pgMpg h n) MPG.STATE_PERMIT then some cREJ_NOT_PERMITTED
  else if mode == 4 || (mode == 5 && !d.slow h n) then some cREJ_STOPPING
  else if (c.op ≠ 1 ∨ aim.2 ≠ (d.mpgFrom h n).x / unitX) ∧ d.swActs h n aim.1 [2, 3] [0, 1] then some cREJ_LIMIT_SW
  else if d.mpgBehind h n c then some cREJ_BEHIND
  else if c.op == 6 && (decide (bal = 0) || (aim.1 != decide (bal < 0))) then some cREJ_DIRECTION
  else if c.op == 6 && (d.rescueTarget h n aim.1).isNone then some cREJ_NO_LANDING
  else if !d.mpgLane h n c then some cREJ_LANE
  else none

/-- The reason a STOP_AT is rejected with, if any (R117, R124, R125). -/
def stopAtWhy (d : Dev) (h : HalfId) (n : Nat) (c : GoCmd) : Option Nat :=
  let mode := d.mpgMode h n
  let stp := d.mpgStoppt h n
  if d.posState h n == 1 || d.posState h n == 4 then some cREJ_UNCERTAIN
  else if mode == 4 || mode == 5 then some cREJ_STOPPING
  else if (if d.mpgMoving h n then (if d.mpgUp h n then decide (c.pos < stp) else decide (c.pos > stp)) else decide (c.pos ≠ stp)) then
    some cREJ_INSIDE_STOP
  else if !d.mpgLane h n c then some cREJ_LANE
  else none

/-- The reason a command is rejected with, if any (R117). -/
def mpgWhy (d : Dev) (h : HalfId) (n : Nat) (c : GoCmd) : Option Nat :=
  if !d.mpgOn h n then some cRANGE
  else match d.mpgArg h n c with
  | some r => some r
  | none => if c.op == 3 || c.op == 5 then none else if c.op == 4 then d.stopAtWhy h n c else d.moveWhy h n c

/-- The phases of a plan from the present state to a target in direction `up`. -/
def aimSegs (d : Dev) (h : HalfId) (n mode : Nat) (k : Kin) (tgt : Int) (up : Bool) (soft : Bool) (V : Int) : List Seg :=
  let s : Int := if up then 1 else -1
  planMove (d.mpgLim h n mode soft) (s * k.v) (s * k.a) (max 0 (s * (tgt * unitX - k.x))) (V * unitV)

/-- An accepted MOVE, JOG or RESCUE: seed a soft start, plan, or complete at once (R112, R114, R115, R126, R132). -/
def moveDo (d : Dev) (h : HalfId) (n : Nat) (c : GoCmd) : Dev :=
  let p := pgMpg h n
  let aim := d.cmdAim h n c
  let k := d.mpgFrom h n
  let soft := d.mpgSeeds h n
  let mode := if c.op = 2 then 3 else if c.op = 6 then 6 else 2
  let d := d.modMpg h n (fun m =>
    { m with xs := k.x, vs := k.v, av := k.a, soft := false, ramp := none, jogV := if c.op = 1 then 0 else c.vel.natAbs })
  if aim.2 * unitX = k.x ∧ k.v = 0 then
    (((((d.put p MPG.STATE_MODE 1).puti p MPG.TGT_UM aim.2).put p MPG.STATE_SOFT 0).modMpg h n
      (fun m => { m with segs := [], av := 0, jogV := 0 })).stat p 1).mpgIntent h n
  else
    let V : Int := min (d.mpgCap h n mode) (if c.op = 1 then d.get p MPG.VMAX_UMS else c.vel.natAbs)
    ((d.mpgPlan h n mode aim.2 aim.1 (d.aimSegs h n mode k aim.2 aim.1 soft V)).putb p MPG.STATE_SOFT soft).mpgIntent h n

/-- An accepted STOP_AT (R125): the acceleration is ramped to 0, the speed reached is kept under the effective limit, and the car
stands at the position; on a standing car nothing changes. -/
def stopAtDo (d : Dev) (h : HalfId) (n : Nat) (c : GoCmd) : Dev :=
  if d.mpgMoving h n then
    let p := pgMpg h n
    let k := d.mpgKin h n
    let up := d.mpgUp h n
    let s : Int := if up then 1 else -1
    let L := d.mpgLim h n 2 false
    let V := min (d.mpgCap h n (d.mpgMode h n) * unitV) (rampedSpeed L.j (s * k.v) (s * k.a))
    let gs := planMove L (s * k.v) (s * k.a) (max 0 (s * (c.pos * unitX - k.x))) (max 0 V)
    ((((d.mpgPlan h n 4 c.pos up gs).modMpg h n (fun m => { m with ramp := none, jogV := 0 })).put p MPG.STATE_SOFT 0).mpgCause h n 1).mpgIntent h n
  else d

/-- Step 4 of R118: the generator takes its waiting command. In a half that takes none, because it is not ACTIVE (R119) or its executive is STOPPED or
HALTED (R319), the command is dropped; that `CMD_RES` then stays PENDING is the model's choice (notes/assumptions/64.md). -/
def mpgTake (d : Dev) (h : HalfId) (n : Nat) : Dev :=
  match (d.mpg h n).waiting with
  | none => d
  | some c =>
    let d := d.modMpg h n (fun m => { m with waiting := none })
    if d.takes h then
      let why := d.mpgWhy h n c
      let d := d.takenRes (pgMpg h n) mpgRes c.tag (d.half h).servoCnt why
      if why.isSome then d
      else match c.op with
        | 3 => if d.mpgMode h n == 4 && (d.mpg h n).ramp.isSome then d else d.mpgStop h n 1
        | 4 => d.stopAtDo h n c
        | 5 => d.mpgFreeze h n 1
        | _ => d.moveDo h n c
    else d

/-! ### Replanning, publication, export -/

/-- Replan a running profile under changed limits (R123): same target, present state, no step in acceleration. -/
def mpgReplan (d : Dev) (h : HalfId) (n : Nat) : Dev :=
  let p := pgMpg h n
  let mode := d.mpgMode h n
  let k := d.mpgKin h n
  let up := d.mpgUp h n
  let s : Int := if up then 1 else -1
  if !d.mpgMoving h n || (d.mpg h n).ramp.isSome then d
  else
    let jv := if mode = 3 then min (d.mpg h n).jogV (d.get p MPG.JOG_VMAX_UMS) else (d.mpg h n).jogV
    let V0 : Int := d.mpgCap h n mode
    let V : Int := (if mode = 4 then min (V0 * unitV) (max 0 (rampedSpeed (d.get p MPG.JMAX_UMS3) (s * k.v) (s * k.a)))
      else if jv ≠ 0 then min V0 jv * unitV else V0 * unitV)
    let gs := planMove (d.mpgLim h n mode (d.on p MPG.STATE_SOFT)) (s * k.v) (s * k.a)
      (max 0 (s * (d.geti p MPG.TGT_UM * unitX - k.x))) V
    (d.mpgPlan h n mode (d.geti p MPG.TGT_UM) up gs).mpgIntent h n

/-- The effective limit and the `CAP` bits (R113, R140). They are not formed anew while the generator or its car is disabled: the model's choice
(notes/assumptions/64.md). -/
def mpgShowCap (d : Dev) (h : HalfId) (n : Nat) : Dev :=
  let p := pgMpg h n
  let v := d.mpgCap h n (d.mpgMode h n)
  let cap := decide (v < d.get p MPG.VMAX_UMS)
  let d' := (d.put p MPG.VCAP_UMS v).putb p MPG.STATE_CAP cap
  if cap && !d.on p MPG.STATE_CAP then d'.stat p 5 else d'

/-- Step 5 of R118: publish the values of this event (R108, R121). -/
def mpgPublish (d : Dev) (h : HalfId) (n : Nat) : Dev :=
  let p := pgMpg h n
  if !d.mpgOn h n then d
  else
    let m := d.mpg h n
    let frozen := d.mpgMode h n == 5
    let g := m.segs.headD ⟨0, 0, 0⟩
    let run := d.mpgMoving h n
    let d := ((d.puti p MPG.SP_X_UM (m.xs / unitX)).puti p MPG.SP_V_UMS (tdiv m.vs unitV)).puti p MPG.SP_A_UMS2 (tdiv m.av unitA)
    let d := ((d.puti p MPG.SP_J_UMS3 (if run then g.j else 0)).put p MPG.STATE_PHASE (if run then g.ph else 0)).putb p MPG.STATE_QSTOP frozen
    d.puti p MPG.STOPPT_UM (d.mpgStoppt h n)

/-- Whether this SERVO event is an export event (R110). -/
def exportNow (d : Dev) (h : HalfId) : Bool := (d.half h).servoCnt % max 1 (d.get (pgMpg h 0) MPG.SERVO_CFG_EXP_DIV) == 0

/-- The control word (R134, Table 9). -/
def mpgCtrl (d : Dev) (h : HalfId) (n : Nat) : Nat :=
  let p := pgMpg h n
  d.get p MPG.STATE_PERMIT + 2 * d.get p MPG.STATE_QSTOP + 4 * (d.mpgMode h n == 1).toNat + 8 * (d.mpgMode h n == 6).toNat +
  16 * d.get p MPG.STATE_SOFT + 32 * d.get p MPG.STATE_CAP + 256 * d.get p MPG.STATE_PHASE

/-- Torque demand of a frame (R134): the output of the loop named, or 0; 0 while export is frozen (R125, R157). -/
def mpgTrq (d : Dev) (h : HalfId) (n : Nat) : Nat :=
  let p := pgMpg h n
  if d.on p MPG.EXP_CFG_TRQ_EN && d.mpgMode h n != 5 then d.get (pgLe h (d.get p MPG.EXP_CFG_TRQ_LE)) LE.OUT_Q 0 (d.get p MPG.EXP_CFG_TRQ_LOOP) else 0

/-- The set-point frame of a generator (R134, Table 8). -/
def mpgFrame (d : Dev) (h : HalfId) (n : Nat) : List Nat :=
  let p := pgMpg h n
  leBytes 4 (d.get p MPG.SP_X_UM) ++ leBytes 4 (d.get p MPG.SP_V_UMS) ++ leBytes 4 (d.get p MPG.SP_A_UMS2) ++ leBytes 4 (d.mpgTrq h n) ++
  leBytes 2 (d.mpgCtrl h n) ++ [d.get p MPG.STATE_SEQ, n + 4 * h.n] ++ leBytes 4 (d.now % 2 ^ 32)

/-- DRV_SILENT: the missed export periods have reached `DRV_LOSS.N` (R136). -/
def drvSilent (d : Dev) (h : HalfId) (n : Nat) : Dev :=
  let p := pgMpg h n
  if d.on p MPG.DRV_ID_EN && d.get p MPG.DRV_LOSS_N != 0 && decide (d.get p MPG.DRV_STAT_MISSED ≥ d.get p MPG.DRV_LOSS_N) then
    (d.fault p cDRV_SILENT n).stat p 4
  else d

/-- The drive status of a generator at a SERVO event: read the latest copy, and count an export period without one, or with a
short frame (R136). -/
def drvCheck (d : Dev) (h : HalfId) (n : Nat) (exp : Bool) : Dev :=
  let p := pgMpg h n
  if !d.mpgOn h n || !d.on p MPG.DRV_ID_EN then d
  else
    let m := d.mpg h n
    let d := match m.drv with
      | some b =>
        let bs := b.map BitVec.toNat
        ((d.put p MPG.DRV_STAT_WORD (leAt bs 0 2)).put p MPG.DRV_STAT_ECHO (leAt bs 2 1)).put p MPG.DRV_TRQ_Q (leAt bs 4 4)
      | none => d
    if !exp then d
    else
      let d := d.modMpg h n (fun m => { m with drv := none, drvMiss := false })
      if m.drv.isSome && !m.drvMiss then d.put p MPG.DRV_STAT_MISSED 0
      else
        let d' := d.bump p MPG.DRV_STAT_MISSED
        if d'.get p MPG.DRV_STAT_MISSED == d.get p MPG.DRV_LOSS_N && d.get p MPG.DRV_STAT_MISSED != d.get p MPG.DRV_LOSS_N then d'.drvSilent h n else d'

/-- A frame with the drive status identifier reaches a generator (R136). -/
def drvFrame (d : Dev) (h : HalfId) (n : Nat) (data : List Byte) : Dev :=
  let p := pgMpg h n
  if !d.on p MPG.DRV_ID_EN then d
  else if data.length ≥ 8 then d.modMpg h n (fun m => { m with drv := some (data.take 8), drvShort := false })
  else
    let d' := d.modMpg h n (fun m => { m with drvShort := true, drvMiss := true })
    if (d.mpg h n).drvShort then d' else d'.err p cDRV_SHORT n

/-- The count of a frame: `STATE.SEQ` takes the export count, which advances at every export event while the generator is enabled
(R134, R137). -/
def mpgSeq (d : Dev) (h : HalfId) (n : Nat) : Dev :=
  if d.mpgOn h n && d.exportNow h then
    (d.put (pgMpg h n) MPG.STATE_SEQ (d.mpg h n).seqNext).modMpg h n (fun m => { m with seqNext := (m.seqNext + 1) % 256 })
  else d

/-! ### Staged values (R109, R123, R124, R131) -/

/-- Failing rules of `SERVO_CFG` (R109, Table 1). -/
def servoCfgFails (d : Dev) (h : HalfId) (v : View) : List RuleFail :=
  let p := ctl .pos h
  let m := v MPG.SERVO_CFG_MULT 0 0
  let e := v MPG.SERVO_CFG_EXP_DIV 0 0
  let both : List (Fld × Nat × Nat) := [(MPG.SERVO_CFG_MULT, 0, 0), (MPG.SERVO_CFG_EXP_DIV, 0, 0)]
  let ssi := (List.range 4).all (fun r => d.get p POS.SSI_FMT_BITS r == 0 ||
    (decide (2 * (1000 + d.get p POS.SSI_FMT_BITS r * d.get p POS.SSI_TIM_DIV r * 20 + d.get p POS.SSI_TIM_DLY r * 20) ≤ m * 62500)))
  (if m = 0 then [(⟨[(MPG.SERVO_CFG_MULT, 0, 0)], cZERO⟩ : RuleFail)] else []) ++
  (if e = 0 then [⟨[(MPG.SERVO_CFG_EXP_DIV, 0, 0)], cZERO⟩] else []) ++
  (if m > 16 then [⟨[(MPG.SERVO_CFG_MULT, 0, 0)], cRANGE⟩] else []) ++
  (if 62500 * m * e < 1000000 then [⟨both, cPAIR⟩] else []) ++
  (if ssi then [] else [⟨[(MPG.SERVO_CFG_MULT, 0, 0)], cPAIR⟩]) ++
  (if d.allSlow h then [] else [⟨both, cBUSY⟩])

/-- Failing rules of an MPG page. -/
def mpgRules (d : Dev) (h : HalfId) (n : Nat) (v : View) : List RuleFail :=
  let p := pgMpg h n
  let k := d.mpgKin h n
  let D := v MPG.DMAX_UMS2 0 0
  let J := v MPG.JMAX_UMS3 0 0
  let stp := stopPoint k (d.mpgUp h n) ⟨D, D, J, J⟩
  let tgt := d.geti p MPG.TGT_UM
  let inside := d.mpgMoving h n && D != 0 && J != 0 && (if d.mpgUp h n then decide (stp > tgt) else decide (stp < tgt))
  let idRule (id ide : Fld) : List RuleFail :=
    if v ide 0 0 = 0 ∧ v id 0 0 ≥ 2 ^ 11 then [⟨[(id, 0, 0), (ide, 0, 0)], cRANGE⟩] else []
  (if n = 0 then d.servoCfgFails h v else []) ++
  (if inside then [⟨[(MPG.DMAX_UMS2, 0, 0), (MPG.JMAX_UMS3, 0, 0)], cREJ_INSIDE_STOP⟩] else []) ++
  idRule MPG.EXP_ID_ID MPG.EXP_ID_IDE ++ idRule MPG.DRV_ID_ID MPG.DRV_ID_IDE ++
  (if d.enabled p ∧ v HDR.CTRL_EN 0 0 = 0 ∧ d.slow h n = false then [⟨[(HDR.CTRL_EN, 0, 0)], cBUSY⟩] else [])

/-- What the profile depends on: a change of it replans. -/
def mpgLimits (d : Dev) (h : HalfId) (n : Nat) : List Nat :=
  [MPG.VMAX_UMS, MPG.AMAX_UMS2, MPG.DMAX_UMS2, MPG.JMAX_UMS3, MPG.JOG_VMAX_UMS, MPG.TSD_VCAP_UMS, MPG.SOFT_DIV].map (fun f => d.get (pgMpg h n) f)

/-- Step 1 of R118 for one generator. Enabling seeds the profile with the measured position and clears the reports that count from
enable (R115, R126, R134, R139); a change of limits replans (R123). -/
def applyMpg (d : Dev) (h : HalfId) (n : Nat) : Dev :=
  let p := pgMpg h n
  let was := d
  let d := d.applyPage p none (d.mpgRules h n) 2 ((d.half h).servoCnt % 65536)
  let d := if n = 0 then
      [1, 2, 3].foldl (fun d i => (d.put (pgMpg h i) MPG.SERVO_CFG_MULT (d.get p MPG.SERVO_CFG_MULT)).put (pgMpg h i) MPG.SERVO_CFG_EXP_DIV
        (d.get p MPG.SERVO_CFG_EXP_DIV)) d
    else d
  let clear (d : Dev) : Dev :=
    let d := ((((d.put p MPG.STATE_MODE 0).put p MPG.STATE_PHASE 0).put p MPG.STATE_SOFT 0).put p MPG.STATE_QSTOP 0)
    d.modMpg h n (fun m => { m with segs := [], jogV := 0, ramp := none, tsd := false })
  if d.enabled p && !was.enabled p then
    let x := d.carX h n
    let d := ((clear d).put p MPG.STATE_CAUSE 0).showRes p mpgRes (if (d.mpg h n).waiting.isSome then 1 else 0) 0
      (((d.mpg h n).waiting.map GoCmd.tag).getD 0)
    d.modMpg h n (fun m => { m with xs := x * unitX, vs := 0, av := 0, soft := true, seqNext := 0, drv := none, drvShort := false, drvMiss := false })
  else if !d.enabled p && was.enabled p then clear d
  else if was.mpgLimits h n != d.mpgLimits h n then d.mpgReplan h n
  else d

/-- An abort of a generator (R131): export freezes with cause ABORT, the waiting command ends with ABORTED, `CTRL.EN` stays. -/
def abortMpg (d : Dev) (h : HalfId) (n : Nat) : Dev :=
  let p := pgMpg h n
  let d := match (d.mpg h n).waiting with
    | some c => d.showRes p mpgRes 3 cABORTED c.tag
    | none => d
  let d := (d.modMpg h n (fun m => { m with waiting := none })).abortPage p false
  let d := if d.mpgOn h n then d.mpgFreeze h n 7 else d
  if d.mpgOn h n then (d.put p MPG.STATE_CAUSE 7).put p MPG.STATE_QSTOP 1 else d

/-- Steps 2 to 5 of R118 for one generator, after SEP has taken its operation: stop lines, switches and POS, the command, the new
limits, publication. A half that is not ACTIVE computes its own results and discards its command (R43, R119). -/
def mpgServo (d : Dev) (h : HalfId) (n : Nat) : Dev :=
  if !d.mpgOn h n then d.mpgTake h n
  else
    let cap := d.get (pgMpg h n) MPG.VCAP_UMS
    let d := ((d.mpgStopLine h n).mpgSwitches h n)
    let d := if d.mpgMoving h n && d.mpgCap h n (d.mpgMode h n) != cap then d.mpgReplan h n else d
    let d := d.mpgTake h n
    (d.mpgShowCap h n).mpgPublish h n

/-- The hardware line of a DIN-sourced switch entry has changed: the entry shows it, and the generator of its car acts at once, before the next SERVO
event (R97, R128). The stop is planned from the state of the last event, and a new cap replans (notes/assumptions/64.md). -/
def switchReach (d : Dev) (h : HalfId) (m : Nat) : Dev :=
  let p := ctl .pos h
  if d.on p POS.SW_SRCK m then d
  else
    let n := d.get p POS.SW_CAR m
    let d := d.swShow h m
    if !d.running h || !d.mpgOn h n then d
    else
      let cap := d.mpgCap h n (d.mpgMode h n)
      let d := d.mpgLimitSw h n
      if d.mpgMoving h n && d.mpgCap h n (d.mpgMode h n) != cap then (d.mpgReplan h n).mpgShowCap h n else d

/-- The hardware lines have changed: every entry of both halves whose line did shows it and acts (R97). -/
def linesReach (d : Dev) (was : Nat) : Dev :=
  d.both (fun d h => (List.range 16).foldl (fun d m =>
    let k := d.get (ctl .pos h) POS.SW_SRC m
    if bitN was k = bitN d.fio.lines k then d else d.switchReach h m) d)

end Dev

def execMpgMove (h : HalfId) (n : Fin 4) (pos : Word) (tag : BitVec 16) (s : State) : Host.Outcome State Fault Refusal :=
  onDev (fun d => ((d.put (pgMpg h n) MPG.CMD_POS_UM pos.toNat).put (pgMpg h n) MPG.CMD_TAG_TAG tag.toNat).mpgGo h n 1) s

def execMpgJog (h : HalfId) (n : Fin 4) (vel : Word) (tag : BitVec 16) (s : State) : Host.Outcome State Fault Refusal :=
  onDev (fun d => ((d.put (pgMpg h n) MPG.CMD_VEL_UMS vel.toNat).put (pgMpg h n) MPG.CMD_TAG_TAG tag.toNat).mpgGo h n 2) s

def execMpgStop (h : HalfId) (n : Fin 4) (tag : BitVec 16) (s : State) : Host.Outcome State Fault Refusal :=
  onDev (fun d => (d.put (pgMpg h n) MPG.CMD_TAG_TAG tag.toNat).mpgGo h n 3) s

def execMpgStopAt (h : HalfId) (n : Fin 4) (pos : Word) (tag : BitVec 16) (s : State) : Host.Outcome State Fault Refusal :=
  onDev (fun d => ((d.put (pgMpg h n) MPG.CMD_POS_UM pos.toNat).put (pgMpg h n) MPG.CMD_TAG_TAG tag.toNat).mpgGo h n 4) s

def execMpgStopNow (h : HalfId) (n : Fin 4) (tag : BitVec 16) (s : State) : Host.Outcome State Fault Refusal :=
  onDev (fun d => (d.put (pgMpg h n) MPG.CMD_TAG_TAG tag.toNat).mpgGo h n 5) s

def execMpgRescue (h : HalfId) (n : Fin 4) (vel : Word) (tag : BitVec 16) (s : State) : Host.Outcome State Fault Refusal :=
  onDev (fun d => ((d.put (pgMpg h n) MPG.CMD_VEL_UMS vel.toNat).put (pgMpg h n) MPG.CMD_TAG_TAG tag.toNat).mpgGo h n 6) s

def execDrvStatusFrame (n : Fin 4) (data : List Byte) (s : State) : Host.Outcome State Fault Refusal :=
  onDev (fun d => d.both (fun d h => d.drvFrame h n data)) s

def execDrvSilent (h : HalfId) (n : Fin 4) (s : State) : Host.Outcome State Fault Refusal := onDev (fun d => d.drvSilent h n) s

end Sys2Proof.Machine
end

