-- ==== Sys2Proof/Machine/Stepper.lean ====
section
/-! DEFINITION. STP, the microstep sequencer (spec/07_doors.md, R210 to R213, R216). -/
namespace Sys2Proof.Machine

open Sys2Proof

/-! ### Codes of DAX and STP (R215, Table 11) -/
def cDOOR_NOT_ZONE : Nat := 0x80
def cDOOR_NO_OPENING : Nat := 0x81
def cDOOR_OBSTRUCTED : Nat := 0x82
def cDOOR_REVERSING : Nat := 0x83
def cDOOR_UNCERTAIN : Nat := 0x84
def cDOOR_NO_HOME : Nat := 0x85
def cDOOR_LOCK_FAIL : Nat := 0x86
def cDOOR_SILENT : Nat := 0x87
def cSTP_OVERRUN : Nat := 0x88
def cSTP_DRV_OFF : Nat := 0x89
def cDOOR_SHORT : Nat := 0x8A

namespace Dev

def dax (d : Dev) (h : HalfId) (k : Nat) : Dax := (d.half h).dax.getD k Dax.init
def modDax (d : Dev) (h : HalfId) (k : Nat) (f : Dax → Dax) : Dev := d.modHalf h (fun x => { x with dax := lmod x.dax k f })
def stpCh (d : Dev) (h : HalfId) (c : Nat) : StpCh := (d.half h).stp.getD c StpCh.init
def modStp (d : Dev) (h : HalfId) (c : Nat) (f : StpCh → StpCh) : Dev := d.modHalf h (fun x => { x with stp := lmod x.stp c f })

/-- Level of a DIN channel on its hardware line: debounced, without `INV` (R433). -/
def din (d : Dev) (k : Nat) : Bool := bitN d.fio.lines k == 1

def daxMode (d : Dev) (h : HalfId) (k : Nat) : Nat := d.get (pgDax h k) DAX.STATE_MODE

/-- The enabled stepper axis that a channel serves, if any. -/
def stpAxis (d : Dev) (h : HalfId) (c : Nat) : Option Nat :=
  (List.range 8).find? (fun k => d.enabled (pgDax h k) && !d.on (pgDax h k) DAX.CFG_TYPE && d.get (pgDax h k) DAX.CFG_STP_CH == c)

/-- What `ERR.DETAIL` names for a channel: its axis (R215), or the channel where no axis uses it. -/
def stpUnit (d : Dev) (h : HalfId) (c : Nat) : Nat := (d.stpAxis h c).getD c

/-- Enter UNCERTAIN with a cause (R207, R210, R213): the axis keeps its set-point and moves no more. -/
def daxUncertain (d : Dev) (h : HalfId) (k cause : Nat) : Dev :=
  let p := pgDax h k
  let d := d.modDax h k (fun x => { x with vn := 0, slowing := false, after := 0, lockNs := none, back := none, recloses := false, held := false })
  let d := ((d.put p DAX.STATE_MODE 13).put p DAX.STATE_CAUSE cause).put p DAX.SP_V_UMS 0
  d.stat p 4

/-- A channel loses its position: `CHc_STAT.UNCERT`, `STAT.BLOCK` bit c, and its axis UNCERTAIN (R216). -/
def stpUncertain (d : Dev) (h : HalfId) (c cause : Nat) : Dev :=
  let p := ctl .stp h
  let d := (d.put p STP.CH_STAT_UNCERT 1 c).stat p c
  match d.stpAxis h c with
  | some k => d.daxUncertain h k cause
  | none => d

/-- Whether the STP contacts are held in their safe state (R430, Table 3, causes 1 and 4). -/
def stpHeld (d : Dev) : Bool := bitN d.fio.causes 1 == 1 || bitN d.fio.causes 4 == 1

/-- Show the levels of the contacts in `WIR.OUT_STP`. -/
def stpShow (d : Dev) : Dev :=
  d.put (shp .wir) WIR.OUT_STP_BITS ((List.range 4).map (fun c =>
    let x := d.stpPins.getD c StpCh.init
    (x.en.toNat + 2 * x.da.toNat + 4 * x.db.toNat) * 8 ^ c)).sum

/-- Take the STP contacts to their safe state: bridge enables and PWM outputs low (R430). -/
def stpSafe (d : Dev) : Dev :=
  let pins := d.stpPins.map (fun x => { x with pa := 0, pb := 0, da := false, db := false, en := false })
  { d with stpPins := pins }.stpShow

/-- Show the outputs of the lease holder's sequencer on the contacts (R210). -/
def stpPinsOut (d : Dev) (h : HalfId) (c : Nat) : Dev :=
  let pins := lset d.stpPins c (d.stpCh h c)
  if d.holds h && !d.stpHeld then { d with stpPins := pins }.stpShow else d

/-- sin(2πk/1024) and sin(2π(k+1)/1024) in units of 2^-96, by sin((k+1)θ) = 2 cos θ sin kθ - sin((k-1)θ). -/
def sinPair : Nat → Nat × Nat
  | 0 => (0, 486134866151990591466405862)
  | k + 1 => let s := sinPair k; (s.2, 2 * 79226671066494975824533590135 * s.2 / 2 ^ 96 - s.1)

/-- The quarter-cycle step with the same magnitude of the sine as microstep `m`. -/
def quarter (m : Nat) : Nat := if m % 512 ≤ 256 then m % 512 else 512 - m % 512

/-- The duty |I sin(2πm/1024)| (R210), the sign being on the contacts DA and DB; it is rounded down or up, freely (notes/assumptions/17.md). -/
def sineDuty (i m : Nat) : Nat :=
  let k := quarter m
  if i = 0 ∨ k = 0 then 0 else if k = 256 then i else i * (sinPair k).1 / 2 ^ 96 + (Config.dutyUp i m).toNat

/-- Set the outputs of a channel for its count: duties I × sin and I × cos of the electrical angle (R210), or the standstill mode
(R212), or the bridge off (R213). -/
def stpOutputs (d : Dev) (h : HalfId) (c : Nat) : Dev :=
  let p := ctl .stp h
  let m := (d.geti p STP.CH_COUNT_USTEP c % 1024).toNat
  let still := d.on p STP.CH_STAT_STILL c
  let mode := d.get p STP.CH_CFG_STILL_MODE c
  let on_ := d.enabled p && !d.on p STP.CH_STAT_DRV_OFF c && !(still && mode == 0)
  let i := if !on_ ∨ (still ∧ mode = 1) then 0 else if still then d.get p STP.CH_I_HOLD c else d.get p STP.CH_I_RUN c
  let d := d.modStp h c (fun x =>
    { x with pa := sineDuty i m, pb := sineDuty i ((m + 256) % 1024)
             da := decide (m > 512), db := decide (256 < m ∧ m < 768), en := on_ })
  d.stpPinsOut h c

/-- Put the count of a channel; a microstep ends standstill. -/
def stpCount (d : Dev) (h : HalfId) (c : Nat) (m : Int) : Dev :=
  let p := ctl .stp h
  if d.geti p STP.CH_COUNT_USTEP c = m then d
  else (d.puti p STP.CH_COUNT_USTEP m c).put p STP.CH_STAT_STILL 0 c

/-- The latest count `t` ns into the present interpolation, never beyond the target (R211). -/
def stpLatest (d : Dev) (h : HalfId) (c t : Nat) : Int :=
  let x := d.stpCh h c
  if x.span = 0 ∨ t ≥ x.span then x.target else x.m0 + tdiv ((x.target - x.m0) * t) x.span

/-- A PWM period of a channel, `t` ns into its interpolation: the count, STP_OVERRUN beyond 256 microsteps, the duties (R210). -/
def stpPwm (d : Dev) (h : HalfId) (c t : Nat) : Dev :=
  let p := ctl .stp h
  if d.enabled p && !d.on p STP.CH_STAT_DRV_OFF c then
    let d := d.stpCount h c (d.stpLatest h c t)
    let m := d.geti p STP.CH_COUNT_USTEP c
    let over_ := decide ((m - (d.stpCh h c).pwmCnt).natAbs > 256)
    let d := (d.modStp h c (fun x => { x with pwmCnt := m })).stpOutputs h c
    if over_ then (d.err p cSTP_OVERRUN (d.stpUnit h c)).stpUncertain h c 9 else d
  else d

/-- Standstill mode of a channel with no microstep waiting (R212). -/
def stpStill (d : Dev) (h : HalfId) (c : Nat) : Dev :=
  let p := ctl .stp h
  if d.enabled p && d.geti p STP.CH_COUNT_USTEP c == (d.stpCh h c).target then (d.put p STP.CH_STAT_STILL 1 c).stpOutputs h c else d

/-- Set a new target of a channel: microsteps at equal intervals over `span` ns; 0 emits them at once. -/
def stpAim (d : Dev) (h : HalfId) (c : Nat) (target : Int) (span : Nat) : Dev :=
  let d := d.stpCount h c (d.stpCh h c).target
  let d := d.modStp h c (fun x => { x with m0 := d.geti (ctl .stp h) STP.CH_COUNT_USTEP c, target := target, span := span })
  if span = 0 then d.stpCount h c target else d

/-- A STEP edge of an external source (R211): `T` ns since the last edge in the same direction. The remainder of a running step is
emitted at once; the new step is spread over T when T ≤ IPL_TMAX and the edge follows one in its direction without standstill. -/
def stpEdge (d : Dev) (h : HalfId) (c : Nat) (up : Bool) (T : Nat) : Dev :=
  let p := ctl .stp h
  if d.enabled p && d.on p STP.CH_CFG_SRC c && !d.on p STP.CH_STAT_DRV_OFF c then
    let x := d.stpCh h c
    let q : Int := 256 / 2 ^ d.get p STP.CH_CFG_KSTEP c
    let still := d.on p STP.CH_STAT_STILL c
    let smooth := up == x.lastUp && !still && decide (T ≤ d.get p STP.CH_IPL_TMAX_US c * 1000)
    (d.stpAim h c (x.target + (if up then q else -q)) (if smooth then T else 0)).modStp h c (fun x => { x with lastUp := up })
  else d

/-- Target count of an internal channel for a door set-point (R211), with the sense of `DIR_POL`. -/
def stpTarget (d : Dev) (h : HalfId) (c : Nat) (sp : Int) : Int :=
  let p := ctl .stp h
  let m := tdiv (sp * 2 ^ 24) (d.get p STP.CH_UM_PER_FS_Q c)
  if d.on p STP.CH_CFG_DIR_POL c then -m else m

/-- Door position of a count (R214, `ACT_X`). -/
def stpPos (d : Dev) (h : HalfId) (c : Nat) : Int :=
  let p := ctl .stp h
  let x := tdiv (d.geti p STP.CH_COUNT_USTEP c * d.get p STP.CH_UM_PER_FS_Q c) (2 ^ 24)
  if d.on p STP.CH_CFG_DIR_POL c then -x else x

/-- The SERVO event of an internal channel: the next target over the servo period; more than 256 microsteps to a PWM period is
STP_OVERRUN (R210, R211). A disabled sequencer, a channel of the STEP contacts and one without the bridge supply take no door target
(R211, R213). -/
def stpServo (d : Dev) (h : HalfId) (c : Nat) (sp : Int) : Dev :=
  let p := ctl .stp h
  if !d.enabled p || d.on p STP.CH_CFG_SRC c || d.on p STP.CH_STAT_DRV_OFF c then d
  else
    let T := d.servoT h
    let d := d.stpAim h c (d.stpTarget h c sp) T
    let x := d.stpCh h c
    let n := (x.target - x.m0).natAbs
    let d := if n = 0 ∧ d.get p STP.CH_STILL_T_MS c = 0 then d.stpStill h c else d
    if n * 1000000000 > 256 * T * d.get p STP.PWM_FREQ_HZ then (d.err p cSTP_OVERRUN (d.stpUnit h c)).stpUncertain h c 9 else d

/-- Loss of the bridge supply of a channel (R213). -/
def stpOff (d : Dev) (h : HalfId) (c : Nat) : Dev :=
  let p := ctl .stp h
  if d.enabled p && d.on p STP.CH_DRV_PG_EN c && !d.on p STP.CH_STAT_DRV_OFF c then
    let d := (((d.put p STP.CH_STAT_DRV_OFF 1 c).err p cSTP_DRV_OFF (d.stpUnit h c)).modStp h c
      (fun x => { x with m0 := d.geti p STP.CH_COUNT_USTEP c, target := d.geti p STP.CH_COUNT_USTEP c, span := 0 })).stpOutputs h c
    if d.on p STP.CH_CFG_RETAIN c then d else d.stpUncertain h c 8
  else d

/-- Return of the bridge supply: re-energised at the kept angle with `I_HOLD` (R213). -/
def stpBack (d : Dev) (h : HalfId) (c : Nat) : Dev :=
  let p := ctl .stp h
  if d.enabled p && d.on p STP.CH_STAT_DRV_OFF c then
    let d := d.put p STP.CH_STAT_DRV_OFF 0 c
    let d := d.stpOutputs h c
    let i := d.get p STP.CH_I_HOLD c
    let m := (d.geti p STP.CH_COUNT_USTEP c % 1024).toNat
    (d.modStp h c (fun x => { x with pa := sineDuty i m, pb := sineDuty i ((m + 256) % 1024), en := true })).stpPinsOut h c
  else d

/-- Every channel whose `DRV_PG` input shows a loss or a return of its bridge supply acts on it: the supply is there while the DIN
channel equals `POL` (R213; notes/assumptions/17.md). -/
def stpReach (d : Dev) : Dev :=
  d.both (fun d h => (List.range 4).foldl (fun d c =>
    let p := ctl .stp h
    if d.on p STP.CH_DRV_PG_EN c && d.din (d.get p STP.CH_DRV_PG_SRC c) != d.on p STP.CH_DRV_PG_POL c then d.stpOff h c else d.stpBack h c) d)

/-! ### The lines of DIN (R432 to R434) -/

/-- Present `LEVEL` and the hardware lines for the debounced levels, and let the switch entries and the supply inputs take the lines (R97,
R213, R433, R434). -/
def dinShow (d : Dev) : Dev :=
  let p := shp .din
  if d.fio.held then d
  else
    let en := d.enabled p
    let was := d.fio.lines
    let d := { d with fio := { d.fio with lines := if en then d.fio.deb else 0 } }
    (d.put p DIN.LEVEL_BITS (bitsOf 32 (fun n => en && (bitN d.fio.deb n == 1) != d.on p DIN.CH_CFG_INV n))).linesReach was |>.stpReach

/-- The debounced level of a channel is `lvl`, which its samples have read (R432): a change is an edge after `INV` (R433). While DIN is disabled or
held by an abort nothing is delivered (R434). -/
def dinChange (d : Dev) (n : Nat) (lvl : Bool) : Dev :=
  let p := shp .din
  let was := bitN d.fio.deb n == 1
  let d := { d with fio := { d.fio with deb := setBitN d.fio.deb n lvl } }.putBit p DIN.RAW_BITS n lvl
  if d.fio.held || !d.enabled p then d
  else
    let d := if was == lvl then d
      else if lvl != d.on p DIN.CH_CFG_INV n then (d.orBits p DIN.RISE_BITS (2 ^ n)).stat p 1
      else (d.orBits p DIN.FALL_BITS (2 ^ n)).stat p 1
    d.dinShow

/-- A sample of a channel reads a new raw level (R432); with `DEB` = 0 the debounced level is the raw one. -/
def dinRaw (d : Dev) (n : Nat) (lvl : Bool) : Dev :=
  if d.get (shp .din) DIN.CH_CFG_DEB n = 0 then d.dinChange n lvl else d.putBit (shp .din) DIN.RAW_BITS n lvl

/-- A level reaches a switch entry over the line of its DIN channel (R97), while DIN works (R434). -/
def switchChange (d : Dev) (h : HalfId) (m : Nat) (level : Bool) : Dev :=
  let p := ctl .pos h
  if d.on p POS.SW_SRCK m || !d.enabled (shp .din) || d.fio.held then d
  else (d.dinChange (d.get p POS.SW_SRC m) level).switchReach h m

/-- The bridge supply of a channel comes or goes: the DIN channel that reads it changes, while DIN works (R213, R434). -/
def stpSupply (d : Dev) (h : HalfId) (c : Nat) (there : Bool) : Dev :=
  let p := ctl .stp h
  if !d.enabled p || !d.on p STP.CH_DRV_PG_EN c || !d.enabled (shp .din) || d.fio.held then d
  else (d.dinChange (d.get p STP.CH_DRV_PG_SRC c) (there == d.on p STP.CH_DRV_PG_POL c)).stpReach

/-- A raw edge of an input or of Z (R99): a DIN channel shows the level (R432), and the latch units of both halves take the edge; during an
abort of DIN its raw edges are not delivered (R434). -/
def latchTake (d : Dev) (src : Nat) (rising : Bool) (dt20 : Nat) : Dev :=
  let d1 := if src < 32 && d.fio.held then d else d.both (fun d h => d.rawEdge h src rising dt20)
  if src < 32 then d1.dinRaw src rising else d1

/-- The channel fields. -/
def stpFields : List Fld :=
  [STP.CH_CFG_SRC, STP.CH_CFG_KSTEP, STP.CH_CFG_STILL_MODE, STP.CH_CFG_RETAIN, STP.CH_CFG_DIR_POL, STP.CH_UM_PER_FS_Q, STP.CH_I_RUN,
   STP.CH_I_HOLD, STP.CH_STILL_T_MS, STP.CH_IPL_TMAX_US, STP.CH_DRV_PG_SRC, STP.CH_DRV_PG_POL, STP.CH_DRV_PG_EN]

/-- Failing rules of the STP page (R212, R216, Table 12). -/
def stpRules (d : Dev) (h : HalfId) (v : View) : List RuleFail :=
  let p := ctl .stp h
  (List.range 4).flatMap (fun c =>
    let used := (d.stpAxis h c).isSome
    let mine := (d.shadow.filter (fun e => e.page = p ∧ e.i = c ∧ stpFields.contains e.fld)).map (fun e => (e.fld, e.i, e.t))
    let src := v STP.CH_CFG_SRC c 0
    (if v STP.CH_CFG_KSTEP c 0 > 4 then [(⟨[(STP.CH_CFG_KSTEP, c, 0)], cRANGE⟩ : RuleFail)] else []) ++
    (if v STP.CH_CFG_STILL_MODE c 0 = 3 then [⟨[(STP.CH_CFG_STILL_MODE, c, 0)], cRANGE⟩] else []) ++
    (if src = 0 ∧ v STP.CH_UM_PER_FS_Q c 0 = 0 then [⟨[(STP.CH_UM_PER_FS_Q, c, 0), (STP.CH_CFG_SRC, c, 0)], cZERO⟩] else []) ++
    (if (used ∨ src = 1) ∧ v STP.CH_I_RUN c 0 = 0 then [⟨[(STP.CH_I_RUN, c, 0), (STP.CH_CFG_SRC, c, 0)], cZERO⟩] else []) ++
    (if v STP.CH_I_HOLD c 0 > v STP.CH_I_RUN c 0 then [⟨[(STP.CH_I_RUN, c, 0), (STP.CH_I_HOLD, c, 0)], cPAIR⟩] else []) ++
    (match d.stpAxis h c with
     | some k => if [0, 1, 2, 13].contains (d.daxMode h k) then [] else [⟨mine, cBUSY⟩]
     | none => []))

/-- The SERVO event of the STP page; a supply input that it enables is read. -/
def applyStp (d : Dev) (h : HalfId) : Dev :=
  (d.applyPage (ctl .stp h) none (d.stpRules h) 2 ((d.half h).servoCnt % 65536)).stpReach

end Dev

def execSwitchChange (h : HalfId) (m : Fin 16) (level : Bool) (s : State) : Host.Outcome State Fault Refusal :=
  onDev (fun d => d.switchChange h m level) s

def execLatchEdge (src : Fin 36) (rising : Bool) (dt20 : Nat) (s : State) : Host.Outcome State Fault Refusal :=
  onDev (fun d => d.latchTake src rising dt20) s

def execStpStepEdge (c : Fin 4) (up : Bool) (dtNs : Nat) (s : State) : Host.Outcome State Fault Refusal :=
  onDev (fun d => d.both (fun d h => if d.running h then d.stpEdge h c up dtNs else d)) s

def execStpPwmPeriod (h : HalfId) (c : Fin 4) (tNs : Nat) (s : State) : Host.Outcome State Fault Refusal :=
  onDev (fun d => d.stpPwm h c tNs) s

def execStpStill (h : HalfId) (c : Fin 4) (s : State) : Host.Outcome State Fault Refusal := onDev (fun d => d.stpStill h c) s

def execStpDrvPowerLoss (c : Fin 4) (s : State) : Host.Outcome State Fault Refusal := onDev (fun d => d.both (fun d h => d.stpSupply h c false)) s

def execStpDrvPowerReturn (c : Fin 4) (s : State) : Host.Outcome State Fault Refusal := onDev (fun d => d.both (fun d h => d.stpSupply h c true)) s

end Sys2Proof.Machine
end

