-- ==== Sys2Proof/Machine/Door.lean ====
section
/-! DEFINITION. The door axes DAX0 to DAX7 (spec/07_doors.md, R193 to R209, R214, R215). -/
namespace Sys2Proof.Machine

open Sys2Proof

def daxRes : ResFields := ⟨DAX.CMD_RES_STATE, DAX.CMD_RES_REASON, DAX.CMD_RES_TAG, DAX.CMD_RES_SEQ⟩

namespace Dev

def daxCar (d : Dev) (h : HalfId) (k : Nat) : Nat := d.get (pgDax h k) DAX.CFG_CAR
def daxCan (d : Dev) (h : HalfId) (k : Nat) : Bool := d.on (pgDax h k) DAX.CFG_TYPE
def daxCh (d : Dev) (h : HalfId) (k : Nat) : Nat := d.get (pgDax h k) DAX.CFG_STP_CH

/-- Door set-point, µm. -/
def daxX (d : Dev) (h : HalfId) (k : Nat) : Int := d.geti (pgDax h k) DAX.SP_X_UM

/-- Whether an axis is UNCERTAIN (R196, Table 2), or about to be: a stop of the back-off after a stall ends there (R210). -/
def daxLost (d : Dev) (h : HalfId) (k : Nat) : Bool := d.daxMode h k == 13 || (d.dax h k).after == 4

/-- A DIN input of an axis: enabled, and its channel equal to `POL`. -/
def daxIn (d : Dev) (h : HalfId) (k : Nat) (src pol en : Fld) : Bool :=
  let p := pgDax h k
  d.on p en && (d.din (d.get p src) == d.on p pol)

def daxLc (d : Dev) (h : HalfId) (k : Nat) : Bool := d.daxIn h k DAX.LC_SRC DAX.LC_POL DAX.LC_EN
def daxStall (d : Dev) (h : HalfId) (k : Nat) : Bool := !d.daxCan h k && d.daxIn h k DAX.STALL_SRC DAX.STALL_POL DAX.STALL_EN
def daxClosedSw (d : Dev) (h : HalfId) (k : Nat) : Bool := d.daxIn h k DAX.CLOSED_SRC DAX.CLOSED_POL DAX.CLOSED_EN

/-- Lock status of an axis (R208): the car door contact of its side and the landing door lock of the landing served. -/
def daxLock (d : Dev) (h : HalfId) (k : Nat) : Bool :=
  let p := pgDax h k
  let l := d.get p DAX.STATE_LANDING
  let i := d.get p DAX.CFG_SIDE
  d.carDoorShut.getD (d.daxCar h k * 4 + d.get p DAX.CFG_DECK * 2 + i) false && (l == 0xFF || d.landShut.getD (l * 2 + i) false)

/-- Door permit of the axis's car as `THS` shows it. -/
def daxPermit (d : Dev) (h : HalfId) (k : Nat) : Bool := bitN (d.get (shp .ths) THS.CARS_DOOR_PERMIT) (d.daxCar h k) == 1

/-- Sill position of an axis: the car sill, or the upper sill of an upper-deck axis (R197). -/
def daxSill (d : Dev) (h : HalfId) (k : Nat) : Int :=
  let n := d.daxCar h k
  d.carX h n + (if d.on (pgDax h k) DAX.CFG_DECK then (d.get (ctl .pos h) POS.CAR_DECK_UM n : Int) else 0)

/-- Nearest landing of the axis's sill, and whether the sill is level there. -/
def daxNear (d : Dev) (h : HalfId) (k : Nat) : Nat :=
  d.get (ctl .pos h) (if d.on (pgDax h k) DAX.CFG_DECK then POS.CAR_STAT_UPPER else POS.CAR_STAT_LANDING) (d.daxCar h k)

/-- The standing condition of R197 at a landing. -/
def daxStanding (d : Dev) (h : HalfId) (k l : Nat) : Bool :=
  d.slow h (d.daxCar h k) && d.on (ctl .pos h) POS.CAR_STAT_LEVEL (d.daxCar h k) && d.daxNear h k == l

/-- The arriving condition of R197. -/
def daxArriving (d : Dev) (h : HalfId) (k l : Nat) : Bool :=
  let n := d.daxCar h k
  let up : Int := if d.on (pgDax h k) DAX.CFG_DECK then (d.get (ctl .pos h) POS.CAR_DECK_UM n : Int) else 0
  d.get (pgDax h k) DAX.GEAR_N_N != 0 && d.mpgMode h n == 2 &&
    decide ((d.geti (pgMpg h n) MPG.TGT_UM + up - d.geti (ctl .pos h) POS.LT_POS_UM 0 l).natAbs ≤ d.get (ctl .pos h) POS.LT_TOL_LEVEL)

/-! ### Gear (R198 to R200) -/

/-- G(d) of R198 over breakpoints and ratios given by functions. -/
def gearG (n : Nat) (brk rat : Nat → Nat) (dist : Nat) : Nat :=
  if n = 0 ∨ dist ≥ brk 0 then 0
  else
    ((List.range n).foldl (fun (acc : Nat × Bool) i =>
      if acc.2 then acc
      else
        let lo := if i + 1 < n then brk (i + 1) else 0
        if dist ≥ lo then (acc.1 + (brk i - dist) * rat i / 65536, true) else (acc.1 + (brk i - lo) * rat i / 65536, false)) (0, false)).1

/-- Ratio in force at a remaining distance: that of the last segment whose breakpoint is reached. -/
def gearRat (n : Nat) (brk rat : Nat → Nat) (dist : Nat) : Nat :=
  ((List.range n).filter (fun i => decide (dist ≤ brk i))).getLast?.map rat |>.getD 0

/-- Remaining distance of an axis to the landing served. -/
def daxDist (d : Dev) (h : HalfId) (k : Nat) : Nat :=
  (d.daxSill h k - d.geti (ctl .pos h) POS.LT_POS_UM 0 (d.get (pgDax h k) DAX.STATE_LANDING)).natAbs

/-- The conditions of R199 but for the door permit. -/
def gearOk (d : Dev) (h : HalfId) (k : Nat) : Bool :=
  let n := d.daxCar h k
  let l := d.get (pgDax h k) DAX.STATE_LANDING
  let x := d.daxSill h k
  let y := d.geti (ctl .pos h) POS.LT_POS_UM 0 l
  let v := d.carV h n
  d.posState h n == 2 && d.inDz h x l && decide (v.natAbs ≤ d.get (pgDax h k) DAX.GEAR_VMAX_UMS) &&
    (d.slow h n || decide ((x ≤ y ∧ v > 0) ∨ (x ≥ y ∧ v < 0)))

/-! ### Cam (R201 to R203) -/

def camP (d : Dev) (h : HalfId) (k j : Nat) : Nat := d.get (pgDax h k) DAX.CAM_PT_FRAC 0 j
def camEnd (d : Dev) (h : HalfId) (k : Nat) : Int := ((d.get (pgDax h k) DAX.CAM_LEN_N - 1) * d.get (pgDax h k) DAX.CAM_DT_US * 1000 : Nat)

/-- Rising segment of the cam that holds a fraction: the highest point at or below it that rises (R202). -/
def camSeg (d : Dev) (h : HalfId) (k : Nat) (q : Int) : Nat :=
  ((List.range (d.get (pgDax h k) DAX.CAM_LEN_N - 1)).filter (fun j => decide (d.camP h k j ≤ q) && decide (d.camP h k j < d.camP h k (j + 1)))).getLast?.getD 0

/-- Cam time of a door position, µs truncated, in ns (R202). -/
def camEntry (d : Dev) (h : HalfId) (k : Nat) (x : Int) : Int :=
  let p := pgDax h k
  if x ≤ 0 then 0
  else
    let q := tdiv (x * 65535) (d.get p DAX.OPEN_W_UM)
    let j := d.camSeg h k q
    let a : Int := d.camP h k j
    let b : Int := d.camP h k (j + 1)
    (j * d.get p DAX.CAM_DT_US + tdiv (d.get p DAX.CAM_DT_US * (q - a)) (b - a)) * 1000

/-- Cam segment of a time. -/
def camAt (d : Dev) (h : HalfId) (k : Nat) (t : Int) : Nat :=
  min ((t.toNat) / max 1 (d.get (pgDax h k) DAX.CAM_DT_US * 1000)) (d.get (pgDax h k) DAX.CAM_LEN_N - 2)

/-- Door position at a cam time (R202). -/
def camPos (d : Dev) (h : HalfId) (k : Nat) (t : Int) : Int :=
  let p := pgDax h k
  if t ≤ 0 ∨ d.get p DAX.CAM_LEN_N < 2 then 0
  else if t ≥ d.camEnd h k then d.get p DAX.OPEN_W_UM
  else
    let dt : Int := d.get p DAX.CAM_DT_US * 1000
    let j := d.camAt h k t
    let a : Int := d.camP h k j
    let b : Int := d.camP h k (j + 1)
    tdiv ((a * dt + (b - a) * (t - j * dt)) * d.get p DAX.OPEN_W_UM) (65535 * dt)

/-- Slope of the cam at a time, µm/s. -/
def camSlope (d : Dev) (h : HalfId) (k : Nat) (t : Int) : Int :=
  let p := pgDax h k
  let j := d.camAt h k t
  tdiv (((d.camP h k (j + 1) : Int) - d.camP h k j) * d.get p DAX.OPEN_W_UM * 1000000) (65535 * (d.get p DAX.CAM_DT_US : Int))

/-- The closing speed cap of R203, µm/s. -/
def closeCap (d : Dev) (h : HalfId) (k : Nat) (nudge : Bool) : Nat :=
  let p := pgDax h k
  isqrt (2 * d.get p (if nudge then DAX.NUDGE_KE_MJ else DAX.KE_MAX_MJ) * 10 ^ 10 / d.get p DAX.MASS_HG)

/-- Cam time of a position reached under the speed cap, in ns. -/
def camBack (d : Dev) (h : HalfId) (k : Nat) (xn : Int) : Int :=
  let p := pgDax h k
  if xn ≤ 0 then 0
  else
    let w : Int := d.get p DAX.OPEN_W_UM * 1000
    let j := d.camSeg h k (tdiv (xn * 65535) w)
    let a : Int := d.camP h k j
    let b : Int := d.camP h k (j + 1)
    let dt : Int := d.get p DAX.CAM_DT_US * 1000
    j * dt + tdiv (dt * (xn * 65535 - a * w)) ((b - a) * w)

/-! ### Mode changes -/

/-- Publish the set-point of an axis: position in nm, speed in µm/s. -/
def daxSet (d : Dev) (h : HalfId) (k : Nat) (xn v : Int) : Dev :=
  let p := pgDax h k
  ((d.puti p DAX.SP_X_UM (Int.fdiv xn 1000)).puti p DAX.SP_V_UMS v).modDax h k (fun x => { x with xn := xn, vn := v * 1000 })

def daxGoMode (d : Dev) (h : HalfId) (k m : Nat) : Dev := d.put (pgDax h k) DAX.STATE_MODE m
def daxWhy (d : Dev) (h : HalfId) (k c : Nat) : Dev := d.put (pgDax h k) DAX.STATE_CAUSE c

/-- Begin a deceleration at `REV_DEC` in a mode; `after` says what follows at standstill: 0 nothing, 1 opening, 2 closing, 3 nudging,
4 UNCERTAIN with cause STALL. -/
def daxSlow (d : Dev) (h : HalfId) (k mode after : Nat) : Dev :=
  (d.daxGoMode h k mode).modDax h k (fun x => { x with slowing := true, after := after, held := false, lockNs := none, back := none })

/-- Start the cam opening at the present position (R202). -/
def daxOpenCam (d : Dev) (h : HalfId) (k : Nat) : Dev :=
  let t := d.camEntry h k (d.daxX h k)
  ((d.daxGoMode h k 5).modDax h k (fun x => { x with camNs := t, slowing := false, after := 0, held := false, lockNs := none, back := none, recloses := false }))

/-- Start closing at the present position (R203). -/
def daxCloseCam (d : Dev) (h : HalfId) (k : Nat) (nudge : Bool) : Dev :=
  let t := d.camEntry h k (d.daxX h k)
  (d.daxGoMode h k (if nudge then 8 else 7)).modDax h k (fun x => { x with camNs := t, slowing := false, after := 0, held := false, back := none, recloses := false })

/-- Reverse a closing door with a cause (R204). -/
def daxReverse (d : Dev) (h : HalfId) (k cause : Nat) : Dev := (((d.daxWhy h k cause).daxSlow h k 9 1).stat (pgDax h k) 3)

/-- Freeze an axis at once (R207). -/
def daxFreeze (d : Dev) (h : HalfId) (k cause : Nat) : Dev :=
  if d.daxCan h k then
    (((d.daxGoMode h k 11).daxWhy h k cause).put (pgDax h k) DAX.SP_V_UMS 0).modDax h k
      (fun x => { x with vn := 0, slowing := false, after := 0, held := false, lockNs := none, back := none, recloses := false })
  else (d.stpUncertain h (d.daxCh h k) cause).modStp h (d.daxCh h k)
    (fun x => { x with target := d.geti (ctl .stp h) STP.CH_COUNT_USTEP (d.daxCh h k), span := 0 })

/-- The door has reached 0: CLOSED, and lock supervision begins (R203, R208). -/
def daxClosed (d : Dev) (h : HalfId) (k : Nat) : Dev :=
  ((d.daxSet h k 0 0).daxGoMode h k 1).modDax h k
    (fun x => { x with camNs := 0, slowing := false, after := 0, lockNs := some (d.get (pgDax h k) DAX.LOCK_T_MS * 1000000) })

/-- The lock is confirmed: LOCKED, and the reversal count clears (R205, R208). -/
def daxLocked (d : Dev) (h : HalfId) (k : Nat) : Dev :=
  (((d.daxGoMode h k 2).put (pgDax h k) DAX.STATE_REVS 0).stat (pgDax h k) 2).modDax h k (fun x => { x with lockNs := none, tries := 0 })

/-- The lock was not confirmed in time (R208): reopen and close again, or stop after `LOCK_RETRY` attempts. -/
def daxLockFail (d : Dev) (h : HalfId) (k : Nat) : Dev :=
  let p := pgDax h k
  if d.daxMode h k == 1 && (d.dax h k).lockNs.isSome && !d.daxLock h k then
    let d := d.err p cDOOR_LOCK_FAIL k
    let n := (d.dax h k).tries
    if n < d.get p DAX.CFG_LOCK_RETRY then
      (d.daxOpenCam h k).modDax h k (fun x => { x with tries := n + 1, recloses := true })
    else ((d.daxGoMode h k 10).daxWhy h k 6).modDax h k (fun x => { x with lockNs := none, tries := 0 })
  else d

/-! ### Protective reactions (R195 step 3) -/

/-- Read the inputs into `STATE` and `ACT_X`. -/
def daxInputs (d : Dev) (h : HalfId) (k : Nat) : Dev :=
  let p := pgDax h k
  let d := ((d.putb p DAX.STATE_PERMIT (d.daxPermit h k)).putb p DAX.STATE_LOCK (d.daxLock h k)).putb p DAX.STATE_LC (d.daxLc h k)
  if d.daxCan h k then
    match (d.dax h k).drv with
    | some b =>
      let bs := b.map BitVec.toNat
      (((d.put p DAX.DRV_STAT_WORD (leAt bs 0 2)).put p DAX.DRV_STAT_ECHO (leAt bs 2 1)).put p DAX.ACT_X_UM (leAt bs 4 4)).put p DAX.FORCE_ACT (leAt bs 8 2)
    | none => d
  else d.puti p DAX.ACT_X_UM (d.stpPos h (d.daxCh h k))

/-- DOOR_SILENT: the missed export periods have reached `DRV_LOSS.N` (R209). -/
def doorSilent (d : Dev) (h : HalfId) (k : Nat) : Dev :=
  let p := pgDax h k
  if d.on p DAX.DRV_ID_EN && d.get p DAX.DRV_LOSS_N != 0 && decide (d.get p DAX.DRV_STAT_MISSED ≥ d.get p DAX.DRV_LOSS_N) then
    (d.fault p cDOOR_SILENT k).stat p 5
  else d

/-- At an export event: count a missed status frame, and form the force residual of a fresh one (R204, R209): a period with a short
frame counts as missed. The answer says whether the force check finds an obstruction. -/
def daxForce (d : Dev) (h : HalfId) (k : Nat) : Dev × Bool :=
  let p := pgDax h k
  let x := d.dax h k
  let missed (d : Dev) : Dev :=
    let d' := d.bump p DAX.DRV_STAT_MISSED
    if d'.get p DAX.DRV_STAT_MISSED == d.get p DAX.DRV_LOSS_N && d.get p DAX.DRV_STAT_MISSED != d.get p DAX.DRV_LOSS_N then d'.doorSilent h k else d'
  let d := d.modDax h k (fun x => { x with drvMiss := false })
  if !d.daxCan h k || !d.on p DAX.DRV_ID_EN then (d, false)
  else match x.drv with
  | none => (missed d, false)
  | some _ =>
    let v := d.geti p DAX.SP_V_UMS
    let a := tdiv ((v - x.vPrev) * 1000000000) (d.servoT h)
    let sg : Int := if v > 0 then 1 else if v < 0 then -1 else 0
    let fm := tdiv (d.get p DAX.MASS_HG * a) 10000000 + d.get p DAX.F_MODEL_FRIC * sg + d.geti p DAX.F_MODEL_BIAS
    let r := fm - d.geti p DAX.FORCE_ACT
    let n := if r > d.get p DAX.OBS_THR then x.obs + 1 else 0
    let d := if x.drvMiss then missed d else d.put p DAX.DRV_STAT_MISSED 0
    let d := (d.puti p DAX.FORCE_RESID (satS 16 r)).modDax h k (fun x => { x with drv := none, obs := n })
    (d, d.get p DAX.OBS_N != 0 && decide (n ≥ d.get p DAX.OBS_N))

/-- Step 3 of R195. The lock time of an axis that an OPEN has armed from CLOSED goes on, and ends once it is back in CLOSED (R208). -/
def daxProtect (d : Dev) (h : HalfId) (k : Nat) (force : Bool) : Dev :=
  let p := pgDax h k
  let m := d.daxMode h k
  let closing := m == 7 || m == 8
  if m == 4 && !d.daxPermit h k then (d.daxWhy h k 5).daxSlow h k 10 0
  else if (closing || m == 12) && d.daxStall h k then
    let dest := d.daxX h k + d.get p DAX.STALL_BACK_UM
    if d.get p DAX.STALL_BACK_UM = 0 then d.stpUncertain h (d.daxCh h k) 4
    else ((d.daxGoMode h k 9).daxWhy h k 4).modDax h k (fun x => { x with back := some dest, slowing := false, after := 0 })
  else if m == 7 && d.daxLc h k then
    let d := d.put p DAX.STATE_REVS (min 15 (d.get p DAX.STATE_REVS + 1))
    d.daxReverse h k 2
  else if closing && force then d.daxReverse h k 3
  else if m == 1 && d.daxLock h k then d.daxLocked h k
  else if m == 2 && !d.daxLock h k then
    (d.daxGoMode h k 1).note p clsState 1 k [2, 1]
  else if m == 1 || m == 3 then
    (match (d.dax h k).lockNs with
     | some t => if m == 1 && decide (t ≤ d.servoT h) then d.daxLockFail h k else d.modDax h k (fun x => { x with lockNs := some (t - d.servoT h) })
     | none => d)
  else d

/-! ### Commands (R196, R197) -/

/-- A write of `CMD_GO.OP` (R196). -/
def daxGo (d : Dev) (h : HalfId) (k op : Nat) : Dev :=
  let p := pgDax h k
  if op = 0 then d
  else
    let c : GoCmd := ⟨op, 0, 0, d.get p DAX.CMD_LAND_IDX, 0, 0, 0, d.get p DAX.CMD_TAG_TAG⟩
    let r := d.goWrite p daxRes (d.dax h k).waiting c [4, 5] [5] cREJ_STOPPING (d.active h)
    r.1.modDax h k (fun x => { x with waiting := r.2 })

/-- The reason a door command is rejected with, if any (R196, Table 2). -/
def daxReject (d : Dev) (h : HalfId) (k : Nat) (c : GoCmd) : Option Nat :=
  let p := pgDax h k
  let nudge := c.op == 3 || (d.get p DAX.CFG_NUDGE_AFTER != 0 && decide (d.get p DAX.STATE_REVS ≥ d.get p DAX.CFG_NUDGE_AFTER))
  if !d.enabled p then some cRANGE
  else match c.op with
  | 1 =>
    if c.land ≥ d.get (ctl .pos h) POS.LT_CFG_COUNT then some cRANGE
    else if d.daxLost h k then some cDOOR_UNCERTAIN
    else if d.get p DAX.CAM_LEN_N = 0 then some cZERO
    else if bitN (d.get (ctl .pos h) POS.LT_FLG_SIDE 0 c.land) (d.get p DAX.CFG_SIDE) = 0 then some cDOOR_NO_OPENING
    else if d.daxStanding h k c.land then (if d.daxPermit h k then none else some cSAFETY)
    else if d.daxArriving h k c.land then none
    else some cDOOR_NOT_ZONE
  | 2 | 3 =>
    if d.daxLost h k then some cDOOR_UNCERTAIN
    else if !nudge && d.daxLc h k then some cDOOR_OBSTRUCTED
    else if d.daxMode h k == 9 then some cDOOR_REVERSING
    else none
  | 4 | 5 => none
  | 6 => if d.daxCan h k then some cRANGE else if !d.on p DAX.CLOSED_EN then some cDOOR_NO_HOME else none
  | _ => some cRANGE

/-- An accepted OPEN (R196, R197). A deceleration under way goes on in ARMED. -/
def daxDoOpen (d : Dev) (h : HalfId) (k : Nat) (c : GoCmd) : Dev :=
  let p := pgDax h k
  let m := d.daxMode h k
  let standing := d.daxStanding h k c.land
  if m == 7 || m == 8 then (d.put p DAX.STATE_LANDING c.land).daxReverse h k 1
  else if m == 9 || m == 6 || m == 4 then d
  else if m == 5 && !(d.dax h k).held then d
  else if standing then (d.put p DAX.STATE_LANDING c.land).daxOpenCam h k
  else if m == 3 || m == 5 then d
  else ((d.put p DAX.STATE_LANDING c.land).daxGoMode h k 3).modDax h k
    (fun x => { x with before := m, tgt := d.geti (pgMpg h (d.daxCar h k)) MPG.TGT_UM, after := 0 })

/-- An accepted CLOSE or NUDGE (R196, R203, R205). -/
def daxDoClose (d : Dev) (h : HalfId) (k : Nat) (nudge : Bool) : Dev :=
  let m := d.daxMode h k
  if m == 3 then d.daxGoMode h k (d.dax h k).before
  else if m == 1 || m == 2 then d
  else if m == 7 || m == 8 then
    (if nudge then (d.daxGoMode h k 8).modDax h k (fun x => { x with after := if x.after = 2 then 3 else x.after }) else d)
  else if (m == 4 || m == 5 || (d.dax h k).slowing) && decide ((d.dax h k).vn ≠ 0) then
    d.daxSlow h k (if nudge then 8 else 7) (if nudge then 3 else 2)
  else d.daxCloseCam h k nudge

/-- Step 4 of R195: the axis takes its waiting command. -/
def daxTake (d : Dev) (h : HalfId) (k : Nat) : Dev :=
  match (d.dax h k).waiting with
  | none => d
  | some c =>
    let p := pgDax h k
    let d := d.modDax h k (fun x => { x with waiting := none })
    if d.takes h then
      let why := d.daxReject h k c
      let d := d.takenRes p daxRes c.tag (d.half h).servoCnt why
      let nudge := c.op == 3 || (d.get p DAX.CFG_NUDGE_AFTER != 0 && decide (d.get p DAX.STATE_REVS ≥ d.get p DAX.CFG_NUDGE_AFTER))
      if why.isSome then d
      else match c.op with
        | 1 => (d.modDax h k (fun x => { x with tries := 0 })).daxDoOpen h k c
        | 2 | 3 => (d.modDax h k (fun x => { x with tries := 0 })).daxDoClose h k nudge
        | 4 => if d.daxMode h k == 11 then d
               else if (d.dax h k).after == 4 then d
               else if (d.dax h k).back.isSome then (d.daxWhy h k 1).daxSlow h k 10 4
               else if d.daxMode h k == 13 then (d.daxUncertain h k 1).put (ctl .stp h) STP.CH_STAT_UNCERT 1 (d.daxCh h k)
               else (d.daxWhy h k 1).daxSlow h k 10 0
        | 5 => d.daxFreeze h k 1
        | 6 => if d.daxMode h k == 12 then d
               else (d.daxGoMode h k 12).modDax h k (fun x => { x with homed := 0, slowing := false, after := 0, lockNs := none, back := none, held := false })
        | _ => d
    else d

/-! ### Motion (R195 step 5) -/

/-- One event of a deceleration at `REV_DEC` (R196, R200, R204); the answer says whether the door stands. -/
def daxDecel (d : Dev) (h : HalfId) (k : Nat) : Dev × Bool :=
  let p := pgDax h k
  let T : Int := d.servoT h
  let x := d.dax h k
  let dv : Int := d.get p DAX.REV_DEC_UMS2 * T / 1000000
  let v' : Int := if x.vn > 0 then max 0 (x.vn - dv) else min 0 (x.vn + dv)
  let top : Int := d.get p DAX.OPEN_W_UM * 1000
  let xn := max 0 (min top (x.xn + tdiv ((x.vn + v') * T) 2000000000))
  let d := (d.puti p DAX.SP_X_UM (Int.fdiv xn 1000)).puti p DAX.SP_V_UMS (tdiv v' 1000)
  (d.modDax h k (fun x => { x with xn := xn, vn := v' }), v' == 0)

/-- Gear evaluation of an ARMED or geared axis (R197, R199, R200). -/
def daxGear (d : Dev) (h : HalfId) (k : Nat) : Dev :=
  let p := pgDax h k
  let n := d.daxCar h k
  let x := d.dax h k
  let l := d.get p DAX.STATE_LANDING
  let moved := decide (d.geti (pgMpg h n) MPG.TGT_UM ≠ x.tgt)
  let N := d.get p DAX.GEAR_N_N
  let brk (i : Nat) : Nat := d.get p DAX.GBRK_UM i
  let rat (i : Nat) : Nat := d.get p DAX.GRAT_Q i
  let follow (d : Dev) : Dev :=
    let g : Int := gearG N brk rat (d.daxDist h k)
    let v : Int := (d.carV h n).natAbs * gearRat N brk rat (d.daxDist h k) / 65536
    if g * 1000 > (d.dax h k).xn then d.daxSet h k (g * 1000) v else d.daxSet h k (d.dax h k).xn (if g * 1000 = (d.dax h k).xn then (if g = 0 then 0 else v) else 0)
  if d.daxMode h k == 3 then
    if d.gearOk h k && d.daxPermit h k then ((d.daxGoMode h k 4).modDax h k (fun x => { x with lockNs := none }) |> follow)
    else if moved || d.mpgMode h n != 2 then (d.daxGoMode h k x.before).daxWhy h k 10
    else d
  else if d.daxStanding h k l then d.daxOpenCam h k
  else if d.gearOk h k then follow d
  else (d.daxSet h k x.xn 0).daxGoMode h k 5 |>.modDax h k (fun x => { x with held := true })

/-- The hold after the gear has let go (R200): the cam continues once the car stands level with the permit; a new target stops it. -/
def daxHeld (d : Dev) (h : HalfId) (k : Nat) : Dev :=
  let n := d.daxCar h k
  let x := d.dax h k
  if d.daxStanding h k (d.get (pgDax h k) DAX.STATE_LANDING) && d.daxPermit h k then d.daxOpenCam h k
  else if d.geti (pgMpg h n) MPG.TGT_UM ≠ x.tgt then ((d.daxGoMode h k 10).daxWhy h k 10).modDax h k (fun x => { x with held := false })
  else d

/-- One event of cam opening (R202). -/
def daxOpening (d : Dev) (h : HalfId) (k : Nat) : Dev :=
  let p := pgDax h k
  let x := d.dax h k
  let t := x.camNs + d.servoT h
  if t ≥ d.camEnd h k then
    let d := (((d.daxSet h k (d.get p DAX.OPEN_W_UM * 1000) 0).daxGoMode h k 6).stat p 1).modDax h k (fun x => { x with camNs := t })
    if x.recloses then d.daxCloseCam h k false else d
  else (d.daxSet h k (d.camPos h k t * 1000) (d.camSlope h k t)).modDax h k (fun x => { x with camNs := t })

/-- One event of cam closing (R203). -/
def daxClosing (d : Dev) (h : HalfId) (k : Nat) (nudge : Bool) : Dev :=
  let p := pgDax h k
  let x := d.dax h k
  let T : Int := d.servoT h
  let s := max 1 (d.get p DAX.CFG_CLOSE_STR)
  let t := max 0 (x.camNs - T / s)
  let cap : Int := d.closeCap h k nudge
  let low := x.xn - tdiv (cap * T) 1000000
  let want := d.camPos h k t * 1000
  if want < low then
    (if low ≤ 0 then d.daxClosed h k
     else (d.daxSet h k low (-cap)).modDax h k (fun x => { x with camNs := d.camBack h k low }))
  else if want ≤ 0 then d.daxClosed h k
  else (d.daxSet h k want (-(tdiv (d.camSlope h k t) s))).modDax h k (fun x => { x with camNs := t })

/-- One event of homing (R207). -/
def daxHoming (d : Dev) (h : HalfId) (k : Nat) : Dev :=
  let p := pgDax h k
  let c := d.daxCh h k
  let v := min (d.get p DAX.HOME_V_UMS) (d.closeCap h k false)
  let step := v * d.servoT h / 1000000
  if d.daxClosedSw h k then
    let d := (d.puti (ctl .stp h) STP.CH_COUNT_USTEP 0 c).put (ctl .stp h) STP.CH_STAT_UNCERT 0 c
    (d.modStp h c (fun x => { x with m0 := 0, target := 0, span := 0, pwmCnt := 0 })).daxClosed h k
  else if d.daxLc h k then d.put p DAX.SP_V_UMS 0
  else if (d.dax h k).homed + step > (d.get p DAX.OPEN_W_UM + 50000) * 1000 then
    (d.err p cDOOR_NO_HOME k).stpUncertain h c 1
  else (d.daxSet h k ((d.dax h k).xn - step) (-v)).modDax h k (fun x => { x with homed := x.homed + step })

/-- One event of the back-off after a stall: microsteps to the end of `STALL_BACK`, then the hold and UNCERTAIN (R210). -/
def daxBackOff (d : Dev) (h : HalfId) (k : Nat) (dest : Int) : Dev :=
  let p := pgDax h k
  let step : Int := d.get p DAX.HOME_V_UMS * d.servoT h / 1000000
  if (d.dax h k).xn ≥ dest * 1000 then d.stpUncertain h (d.daxCh h k) 4
  else d.daxSet h k (min (dest * 1000) ((d.dax h k).xn + step)) (d.get p DAX.HOME_V_UMS)

/-- One event of an ARMED axis whose door still decelerates: the gear engages as at any other event (R199), else the deceleration goes on. -/
def daxArmedSlow (d : Dev) (h : HalfId) (k : Nat) : Dev :=
  let g := d.daxGear h k
  if g.daxMode h k == 4 then g.modDax h k (fun x => { x with slowing := false })
  else
    let r := g.daxDecel h k
    if r.2 then r.1.modDax h k (fun x => { x with slowing := false }) else r.1

/-- Step 5 of R195. -/
def daxMove (d : Dev) (h : HalfId) (k : Nat) : Dev :=
  let x := d.dax h k
  let m := d.daxMode h k
  match x.back with
  | some dest => if m == 9 then d.daxBackOff h k dest else d
  | none =>
    if x.slowing && m == 3 then d.daxArmedSlow h k
    else if x.slowing then
      let r := d.daxDecel h k
      if r.2 then
        let d := r.1.modDax h k (fun x => { x with slowing := false, after := 0 })
        match x.after with
        | 1 => d.daxOpenCam h k
        | 2 => d.daxCloseCam h k false
        | 3 => d.daxCloseCam h k true
        | 4 => d.stpUncertain h (d.daxCh h k) 4
        | _ => d
      else r.1
    else if m == 3 || m == 4 then d.daxGear h k
    else if m == 5 then (if x.held then d.daxHeld h k else d.daxOpening h k)
    else if m == 7 then d.daxClosing h k false
    else if m == 8 then d.daxClosing h k true
    else if m == 12 then d.daxHoming h k
    else d

/-- The SERVO event of one axis (R195): inputs, protective reactions, the command, gear or cam, the set-point. An axis that a
command or a reaction has just put on the cam holds its entry position for this event (R202). -/
def daxServo (d : Dev) (h : HalfId) (k : Nat) : Dev :=
  let p := pgDax h k
  if !d.enabled p then d.daxTake h k
  else
    let v0 := d.geti p DAX.SP_V_UMS
    let d := d.daxInputs h k
    let (d, force) := if d.exportNow h then d.daxForce h k else (d, false)
    let d := d.daxProtect h k force
    let m0 := d.daxMode h k
    let d := d.daxTake h k
    let fresh := d.daxMode h k != m0 && [5, 7, 8].contains (d.daxMode h k) && !(d.dax h k).slowing
    let d := if fresh then d.daxSet h k (d.dax h k).xn 0 else d.daxMove h k
    let d := if d.daxCan h k || d.daxMode h k == 13 then d else d.stpServo h (d.daxCh h k) (d.daxX h k)
    d.modDax h k (fun x => { x with vPrev := v0 })

/-- Whether an axis writes set-point frames: an enabled CAN axis (R209), and one that an abort has frozen, which repeats its last
set-point (R207). -/
def daxSends (d : Dev) (h : HalfId) (k : Nat) : Bool := d.daxCan h k && (d.enabled (pgDax h k) || d.daxMode h k == 11)

/-- The count of a door frame (R209). -/
def daxSeq (d : Dev) (h : HalfId) (k : Nat) : Dev :=
  if d.daxSends h k && d.exportNow h then d.modDax h k (fun x => { x with seqNext := (x.seqNext + 1) % 256 }) else d

/-- The set-point frame of a CAN axis (R209, Table 5). -/
def daxFrame (d : Dev) (h : HalfId) (k : Nat) : List Nat :=
  let p := pgDax h k
  let m := d.daxMode h k
  let ctrl := 1 + 2 * (m == 11).toNat + 4 * (m == 8).toNat + 8 * (m == 9).toNat + 16 * (m == 4).toNat
  leBytes 4 (d.get p DAX.SP_X_UM) ++ leBytes 4 (d.get p DAX.SP_V_UMS) ++ leBytes 2 (d.get p DAX.F_MAX_N) ++ leBytes 2 ctrl ++
  [(d.dax h k).seqNext, k + 8 * h.n] ++ leBytes 2 (d.now % 65536)

/-- A frame with the door status identifier reaches an axis (R209). -/
def doorFrame (d : Dev) (h : HalfId) (k : Nat) (data : List Byte) : Dev :=
  let p := pgDax h k
  if !d.on p DAX.DRV_ID_EN || !d.daxCan h k then d
  else if data.length ≥ 12 then d.modDax h k (fun x => { x with drv := some (data.take 12), drvShort := false })
  else
    let d' := d.modDax h k (fun x => { x with drvShort := true, drvMiss := true })
    if (d.dax h k).drvShort then d' else d'.err p cDOOR_SHORT k

/-! ### Staged values (R193, R198, R201, R214) -/

/-- Failing rules of a DAX page (Tables 1, 3 and 4, and the text of R214). -/
def daxRules (d : Dev) (h : HalfId) (k : Nat) (v : View) : List RuleFail :=
  let p := pgDax h k
  let g (f : Fld) : Nat := v f 0 0
  let fs (l : List Fld) : List (Fld × Nat × Nat) := l.map (fun f => (f, 0, 0))
  let en := g HDR.CTRL_EN == 1
  let car := g DAX.CFG_CAR
  let others := (List.range 8).filter (fun j => j != k && d.enabled (pgDax h j))
  let cfg := [DAX.CFG_CAR, DAX.CFG_SIDE, DAX.CFG_DECK, DAX.CFG_TYPE, DAX.CFG_STP_CH]
  let twin := others.any (fun j => d.get (pgDax h j) DAX.CFG_CAR == car && d.get (pgDax h j) DAX.CFG_SIDE == g DAX.CFG_SIDE &&
    d.get (pgDax h j) DAX.CFG_DECK == g DAX.CFG_DECK)
  let chan := g DAX.CFG_TYPE == 0 && (others.any (fun j => !d.daxCan h j && d.daxCh h j == g DAX.CFG_STP_CH) ||
    d.on (ctl .stp h) STP.CH_CFG_SRC (g DAX.CFG_STP_CH))
  let zero := [DAX.OPEN_W_UM, DAX.MASS_HG, DAX.KE_MAX_MJ, DAX.NUDGE_KE_MJ, DAX.LOCK_T_MS, DAX.CAM_DT_US].filter (fun f => g f = 0)
  let n := g DAX.GEAR_N_N
  let brk (i : Nat) : Nat := v DAX.GBRK_UM i 0
  let rat (i : Nat) : Nat := v DAX.GRAT_Q i 0
  let gf : List (Fld × Nat × Nat) := (DAX.GEAR_N_N, 0, 0) :: (List.range 8).flatMap (fun i => [(DAX.GBRK_UM, i, 0), (DAX.GRAT_Q, i, 0)])
  let len := g DAX.CAM_LEN_N
  let P (j : Nat) : Nat := v DAX.CAM_PT_FRAC 0 j
  let cf : List (Fld × Nat × Nat) := d.stagedIn p [DAX.CAM_PT_FRAC] ++ fs [DAX.CAM_LEN_N]
  let m := d.daxMode h k
  let bound := d.stagedIn p ([DAX.CFG_CAR, DAX.CFG_SIDE, DAX.CFG_DECK, DAX.CFG_TYPE, DAX.CFG_STP_CH, DAX.CFG_NUDGE_AFTER, DAX.CFG_LOCK_RETRY,
    DAX.CFG_CLOSE_STR, DAX.OPEN_W_UM, DAX.GEAR_N_N, DAX.GEAR_VMAX_UMS, DAX.GBRK_UM, DAX.GRAT_Q, DAX.CAM_LEN_N, DAX.CAM_DT_US, DAX.CAM_PT_FRAC])
  let idRule (id ide : Fld) : List RuleFail := if g ide = 0 ∧ g id ≥ 2 ^ 11 then [⟨fs [id, ide], cRANGE⟩] else []
  (if en then
    (if d.carEn h car then [] else [(⟨fs [HDR.CTRL_EN, DAX.CFG_CAR], cPAIR⟩ : RuleFail)]) ++
    (if g DAX.CFG_DECK = 1 ∧ !d.on (ctl .pos h) POS.CAR_CFG_DDECK car then [⟨fs [HDR.CTRL_EN, DAX.CFG_CAR, DAX.CFG_DECK], cPAIR⟩] else []) ++
    (if twin then [⟨fs (HDR.CTRL_EN :: cfg), cPAIR⟩] else []) ++
    (if chan then [⟨fs [HDR.CTRL_EN, DAX.CFG_TYPE, DAX.CFG_STP_CH], cPAIR⟩] else []) ++
    zero.map (fun f => ⟨fs [f, HDR.CTRL_EN], cZERO⟩) ++
    (if g DAX.NUDGE_KE_MJ ≤ g DAX.KE_MAX_MJ then [] else [⟨fs [HDR.CTRL_EN, DAX.NUDGE_KE_MJ, DAX.KE_MAX_MJ], cPAIR⟩])
   else []) ++
  (if [0, 1, 2].contains m then [] else [⟨bound, cBUSY⟩]) ++
  (if g DAX.CFG_CLOSE_STR > 8 then [⟨fs [DAX.CFG_CLOSE_STR], cRANGE⟩] else []) ++
  (if n > 8 then [⟨fs [DAX.GEAR_N_N], cRANGE⟩]
   else if n = 0 then []
   else
    (if (List.range (n - 1)).all (fun i => decide (brk i > brk (i + 1))) && decide (brk (n - 1) > 0) then [] else [⟨gf, cPAIR⟩]) ++
    (if gearG n brk rat 0 ≤ g DAX.OPEN_W_UM then [] else [⟨gf ++ fs [DAX.OPEN_W_UM], cPAIR⟩]) ++
    (if (List.range n).all (fun i => decide (rat i * g DAX.GEAR_VMAX_UMS ≤ g DAX.DOOR_VMAX_UMS * 65536)) then []
     else [⟨gf ++ fs [DAX.GEAR_VMAX_UMS, DAX.DOOR_VMAX_UMS], cPAIR⟩]) ++
    (if g DAX.GEAR_VMAX_UMS = 0 then [⟨fs [DAX.GEAR_VMAX_UMS, DAX.GEAR_N_N], cZERO⟩] else [])) ++
  (if len > 256 then [⟨fs [DAX.CAM_LEN_N], cRANGE⟩]
   else if len = 0 then []
   else
    (if P 0 = 0 ∧ P (len - 1) = 65535 then [] else [⟨cf, cPAIR⟩]) ++
    (if (List.range (len - 1)).all (fun j => decide (P j ≤ P (j + 1))) then [] else [⟨cf, cPAIR⟩]) ++
    (if (List.range (len - 1)).all (fun j => decide ((P (j + 1) - P j) * g DAX.OPEN_W_UM * 1000000 ≤ g DAX.DOOR_VMAX_UMS * g DAX.CAM_DT_US * 65535)) then []
     else [⟨cf ++ fs [DAX.OPEN_W_UM, DAX.CAM_DT_US, DAX.DOOR_VMAX_UMS], cPAIR⟩])) ++
  (if g DAX.OBS_N ≠ 0 ∧ g DAX.OBS_THR = 0 then [⟨fs [DAX.OBS_THR, DAX.OBS_N], cZERO⟩] else []) ++
  idRule DAX.EXP_ID_ID DAX.EXP_ID_IDE ++ idRule DAX.DRV_ID_ID DAX.DRV_ID_IDE ++
  (if d.enabled p ∧ !en ∧ !([0, 1, 2, 11, 13].contains m) then [⟨fs [HDR.CTRL_EN], cBUSY⟩] else [])

/-- The SERVO event of a DAX page. On enabling, a stepper axis whose channel has lost its position is UNCERTAIN; any other axis is
CLOSED at 0, and holds in STOPPED elsewhere (notes/assumptions/16.md); `CMD_RES` shows no command since enable, or the waiting one (R196). -/
def applyDax (d : Dev) (h : HalfId) (k : Nat) : Dev :=
  let p := pgDax h k
  let was := d
  let d := d.applyPage p none (d.daxRules h k) 2 ((d.half h).servoCnt % 65536)
  if d.enabled p && !was.enabled p then
    let d := d.modDax h k (fun x => { Dax.init with waiting := x.waiting, xn := d.daxX h k * 1000 })
    let d := ((d.put p DAX.STATE_CAUSE 0).put p DAX.SP_V_UMS 0).showRes p daxRes (if (was.dax h k).waiting.isSome then 1 else 0) 0
      (((was.dax h k).waiting.map GoCmd.tag).getD 0)
    if d.daxCan h k then
      (if d.daxMode h k == 11 then d else d.daxGoMode h k (if d.daxX h k = 0 then 1 else 10))
    else if d.on (ctl .stp h) STP.CH_STAT_UNCERT (d.daxCh h k) then (d.daxGoMode h k 13).stat p 4
    else d.daxGoMode h k (if d.daxX h k = 0 then 1 else 10)
  else if !d.enabled p && was.enabled p then
    (d.daxGoMode h k 0).modDax h k (fun x => { x with lockNs := none, slowing := false, after := 0, held := false, back := none })
  else d

/-- An abort of an axis (R207): it freezes with cause ABORT; the waiting command ends with ABORTED. -/
def abortDax (d : Dev) (h : HalfId) (k : Nat) : Dev :=
  let p := pgDax h k
  let d := match (d.dax h k).waiting with
    | some c => d.showRes p daxRes 3 cABORTED c.tag
    | none => d
  let d := d.modDax h k (fun x => { x with waiting := none })
  let d := if d.enabled p then d.daxFreeze h k 7 else d
  d.abortPage p true

end Dev

def execDoorOpen (h : HalfId) (k : Fin 8) (land : BitVec 8) (tag : BitVec 16) (s : State) : Host.Outcome State Fault Refusal :=
  onDev (fun d => ((d.put (pgDax h k) DAX.CMD_LAND_IDX land.toNat).put (pgDax h k) DAX.CMD_TAG_TAG tag.toNat).daxGo h k 1) s

def execDoorClose (h : HalfId) (k : Fin 8) (tag : BitVec 16) (s : State) : Host.Outcome State Fault Refusal :=
  onDev (fun d => (d.put (pgDax h k) DAX.CMD_TAG_TAG tag.toNat).daxGo h k 2) s

def execDoorNudge (h : HalfId) (k : Fin 8) (tag : BitVec 16) (s : State) : Host.Outcome State Fault Refusal :=
  onDev (fun d => (d.put (pgDax h k) DAX.CMD_TAG_TAG tag.toNat).daxGo h k 3) s

def execDoorStop (h : HalfId) (k : Fin 8) (tag : BitVec 16) (s : State) : Host.Outcome State Fault Refusal :=
  onDev (fun d => (d.put (pgDax h k) DAX.CMD_TAG_TAG tag.toNat).daxGo h k 4) s

def execDoorStopNow (h : HalfId) (k : Fin 8) (tag : BitVec 16) (s : State) : Host.Outcome State Fault Refusal :=
  onDev (fun d => (d.put (pgDax h k) DAX.CMD_TAG_TAG tag.toNat).daxGo h k 5) s

def execDoorHome (h : HalfId) (k : Fin 8) (tag : BitVec 16) (s : State) : Host.Outcome State Fault Refusal :=
  onDev (fun d => (d.put (pgDax h k) DAX.CMD_TAG_TAG tag.toNat).daxGo h k 6) s

def execDoorLockFail (h : HalfId) (k : Fin 8) (s : State) : Host.Outcome State Fault Refusal := onDev (fun d => d.daxLockFail h k) s

def execDoorStatusFrame (k : Fin 8) (data : List Byte) (s : State) : Host.Outcome State Fault Refusal :=
  onDev (fun d => d.both (fun d h => d.doorFrame h k data)) s

def execDoorSilent (h : HalfId) (k : Fin 8) (s : State) : Host.Outcome State Fault Refusal := onDev (fun d => d.doorSilent h k) s

end Sys2Proof.Machine
end

