-- ==== Sys2Proof/Machine/Mem.lean ====
section
/-! DEFINITION. The addressed memories of the part, half SRAM and MRAM (R34 to R36): lists of address and byte in rising order, where an
unlisted address reads as 0 (notes/assumptions/3.md). -/
namespace Sys2Proof.Machine

open Sys2Proof

/-- What an address that is not listed reads as. -/
def memDflt : Byte := 0

/-- The byte at an address. -/
def memRead (m : List Host.Cell) (a : Nat) : Byte :=
  match m with
  | [] => memDflt
  | (b, v) :: r => if b = a then v else memRead r a

/-- List a byte under its address, in rising order. -/
def memInsert (a : Nat) (v : Byte) : List Host.Cell → List Host.Cell
  | [] => [(a, v)]
  | (b, w) :: r => if a = b then (a, v) :: r else if a < b then (a, v) :: (b, w) :: r else (b, w) :: memInsert a v r

/-- Write a byte; the value an unlisted address reads as removes the entry. -/
def memWrite (m : List Host.Cell) (a : Nat) (v : Byte) : List Host.Cell :=
  if v = memDflt then m.filter (fun c => !(c.1 == a)) else memInsert a v m

/-- Write bytes from an address upward. -/
def memWrites (m : List Host.Cell) (a : Nat) : List Byte → List Host.Cell
  | [] => m
  | v :: vs => memWrites (memWrite m a v) (a + 1) vs

/-- Bytes from an address upward. -/
def memReads (m : List Host.Cell) (a : Nat) : Nat → List Byte
  | 0 => []
  | n + 1 => memRead m a :: memReads m (a + 1) n

/-- The canonical form: addresses strictly rising, no entry that reads as unlisted. -/
def Memory.wf : List Host.Cell → Bool
  | [] => true
  | [(_, v)] => v != memDflt
  | (a, v) :: (b, w) :: r => v != memDflt && decide (a < b) && Memory.wf ((b, w) :: r)

/-- A little-endian 32-bit word. -/
def memWord (m : List Host.Cell) (a : Nat) : Nat :=
  (memRead m a).toNat + 256 * (memRead m (a + 1)).toNat + 65536 * (memRead m (a + 2)).toNat + 16777216 * (memRead m (a + 3)).toNat

/-- Write a little-endian 32-bit word. -/
def memPutWord (m : List Host.Cell) (a w : Nat) : List Host.Cell :=
  memWrites m a [BitVec.ofNat 8 w, BitVec.ofNat 8 (w / 256), BitVec.ofNat 8 (w / 65536), BitVec.ofNat 8 (w / 16777216)]

/-- First address of half SRAM (R34). -/
def sramBase : Nat := 0x08000000

/-- Whole words among the bytes `a` to `a + n - 1`. -/
def coversWord (a n x : Nat) : Bool := decide (a ≤ x ∧ x + 4 ≤ a + n)

end Sys2Proof.Machine
end

