-- ==== Sys2Proof/Machine/Slot.lean ====
section
/-! DEFINITION. Signed images in MRAM: the header, validity (spec/18_security.md, R507, R508), and the user area (R36). -/
namespace Sys2Proof.Machine

open Sys2Proof

/-- A 128-bit value read from 16 bytes, least significant first. -/
def key128 (bs : List Byte) : BitVec 128 := BitVec.ofNat 128 (ofLe (bs.map BitVec.toNat))

/-- The bytes of a SHAKE256 digest. -/
def digestBytes (m : List Byte) : List Byte := (leBytes 64 (Config.shake256 m).toNat).map (BitVec.ofNat 8)

/-- An image header (R507, Table 6). -/
structure ImgHdr where
  id : Nat
  ver : Nat
  len : Nat
  dev : Nat
  key : BitVec 128

/-- The header at an MRAM offset, if it is well formed: MAGIC, FORMAT, LENGTH of 1 to 255 MiB, and zeros at 0x038 to 0x0FF (R507). -/
def imgHdr (m : List Host.Cell) (a : Nat) : Option ImgHdr :=
  let w (o : Nat) : Nat := memWord m (a + o)
  if w 0 = 0x494D4731 ∧ w 4 % 65536 = 1 ∧ 1 ≤ w 0x10 ∧ w 0x10 ≤ 255 * 2 ^ 20 ∧ (memReads m (a + 0x38) 0xC8).all (fun b => b == 0) then
    some ⟨w 8, w 0xC, w 0x10, w 0x20 + 2 ^ 32 * w 0x24, key128 (memReads m (a + 0x28) 16)⟩
  else none

/-- The signed bytes: header bytes 0x000 to 0x0FF followed by the body (R507). -/
def imgMsg (m : List Host.Cell) (a len : Nat) : List Byte := memReads m a 0x100 ++ memReads m (a + 0x1000) len

namespace Dev

/-- Whether a key may sign an image in the lifecycle state (R497, R508). -/
def imgKeyOk (d : Dev) (k : BitVec 128) : Bool :=
  match d.get (shp .enc) ENC.LIFE_STATE with
  | 0 | 3 => k == Config.vendorKey
  | 1 | 2 => d.keys.any (fun x => x.id == k && (x.role == 2 || x.role == 3))
  | _ => false

/-- Whether the signature of an image verifies under its key (R508). -/
def imgSigOk (d : Dev) (m : List Host.Cell) (a : Nat) (h : ImgHdr) : Bool :=
  d.imgKeyOk h.key && Config.falconOk h.key (digestBytes (imgMsg m a h.len)) (memReads m (a + 0x100) 0x500)

/-- Why an image is not valid, if so (R508): a malformed header or foreign device RANGE, SIGNATURE, or a version below the floor ENC_ROLLBACK. -/
def imgWhy (d : Dev) (m : List Host.Cell) (a : Nat) : Option Nat :=
  match imgHdr m a with
  | none => some cRANGE
  | some h =>
    let e := shp .enc
    if h.dev ≠ 0 ∧ h.dev ≠ d.get64 e ENC.DEV_ID_LO ENC.DEV_ID_HI then some cRANGE
    else if !d.imgSigOk m a h then some cSIGNATURE
    else if h.ver < d.get e ENC.MIN_VER_V then some 0x69
    else none

/-- The image a valid header leads to. -/
def imgLoad (m : List Host.Cell) (a : Nat) : Option Image :=
  (imgHdr m a).map (fun h => ⟨h.id, h.ver, Config.program (memReads m (a + 0x1000) h.len)⟩)

/-- First MRAM offset of the user area, and its end (R36). -/
def userBase (d : Dev) : Nat := 0x24000000 + d.get (shp .nvm) NVM.PART_SILT_GIB * 0x40000000
def mramEnd : Nat := 0x200000000

/-- Words of SRAM that held an uncorrectable error are good again once written whole (R362); `rs` are the ranges of bytes written. -/
def heal (d : Dev) (h : HalfId) (rs : List (Nat × Nat)) : Dev :=
  let hit (a : Nat) : Bool := rs.any (fun r => decide (r.1 ≤ a ∧ a < r.1 + r.2))
  d.modHlf h (fun x => { x with bad := x.bad.filter (fun b => !(List.range 4).all (fun i => hit (b + i))) })

end Dev

end Sys2Proof.Machine
end

