-- ==== Sys2Proof/Machine/Block.lean ====
section
/-! DEFINITION. The safety parameter block: its fields, its seal code and its load checks (spec/09_safety_architecture.md, R252 to
R254, R260 to R269; spec/10_safe_stop_outputs.md, R282, R290, R307; spec/06_multicar_separation.md, R187). -/
namespace Sys2Proof.Machine

open Sys2Proof

/-- A block as its words by index; a word that is 0 is left out. -/
abbrev Block := List (Nat × Word)

def bU32 (b : Block) (a : Nat) : Nat := ((rfFind (a / 4) b).getD 0).toNat
def bU8 (b : Block) (a : Nat) : Nat := bU32 b a / 2 ^ (8 * (a % 4)) % 256
def bU16 (b : Block) (a : Nat) : Nat := bU32 b a / 2 ^ (8 * (a % 4)) % 65536
def bI32 (b : Block) (a : Nat) : Int := sgn 32 (bU32 b a)

/-! ### Fields (R267, Table 7; R307, Table 5) -/

def bkId (b : Block) : Nat := bU32 b 0x0C
def bkMode (b : Block) : Nat := bU8 b 0x20
def bkCars (b : Block) : Nat := bU8 b 0x21
def bkSep (b : Block) : Nat := bU8 b 0x22
def bkDdeck (b : Block) : Nat := bU8 b 0x23
def bkCarOn (b : Block) (n : Nat) : Bool := bitN (bkCars b) n == 1
def bkSepOn (b : Block) (p : Nat) : Bool := bitN (bkSep b) p == 1
def bkTpPer (b : Block) : Nat := bU16 b 0x40
def bkSettle (b : Block) : Nat := bU16 b 0x42
def bkTpW (b : Block) (k : Nat) : Nat := bU16 b (0x44 + 2 * k)
def bkFunc (b : Block) (p : Nat) : Nat := bU8 b (0x50 + 8 * p)
def bkPMode (b : Block) (p : Nat) : Nat := bU8 b (0x51 + 8 * p)
/-- Feed of a channel: 0–3 TP line, 4 EXT. -/
def bkFeed (b : Block) (ch : Nat) : Nat := bU8 b (0x52 + 8 * (ch / 2) + ch % 2)
def bkPMask (b : Block) (p : Nat) : Nat := bU8 b (0x54 + 8 * p)
def bkLandLo (b : Block) (p : Nat) : Nat := bU8 b (0x55 + 8 * p)
def bkLandHi (b : Block) (p : Nat) : Nat := bU8 b (0x56 + 8 * p)
def bkDisc (b : Block) (p : Nat) : Nat := bU8 b (0x57 + 8 * p)
/-- Byte address of a field of car n's area. -/
def carA (n off : Nat) : Nat := 0x100 + 0x200 * n + off
def car8 (b : Block) (n off : Nat) : Nat := bU8 b (carA n off)
def car16 (b : Block) (n off : Nat) : Nat := bU16 b (carA n off)
def car32 (b : Block) (n off : Nat) : Nat := bU32 b (carA n off)
def carI (b : Block) (n off : Nat) : Int := bI32 b (carA n off)
def bkTop (b : Block) (n : Nat) : Int := car32 b n 0x14
def bkBot (b : Block) (n : Nat) : Int := car32 b n 0x18
def bkDeck (b : Block) (n : Nat) : Int := car32 b n 0x1C
def bkOvsP (b : Block) (n : Nat) (up : Bool) : Nat := car32 b n (if up then 0x30 else 0x34)
def bkOvsT (b : Block) (n : Nat) (up : Bool) : Nat := car32 b n (if up then 0x38 else 0x3C)
def bkDzV (b : Block) (n : Nat) : Nat := car32 b n 0x40
def bkDS1 (b : Block) (n : Nat) : Nat := car32 b n 0x60
def bkJS1 (b : Block) (n : Nat) : Nat := car32 b n 0x64
def bkBinW (b : Block) (n : Nat) : Nat := car32 b n 0x68
/-- `W_T` in ns (R182). -/
def bkWT (b : Block) (n : Nat) : Nat := 256000 * 2 ^ car16 b n 0x6C
def bkSsV (b : Block) (n : Nat) : Nat := car32 b n 0x8C
def bkSsT (b : Block) (n : Nat) : Nat := car16 b n 0x90 * 1000000
def bkUp (b : Block) (n k : Nat) : Nat := bU32 b (0xA00 + 0x200 * n + 4 * k)
def bkDn (b : Block) (n k : Nat) : Nat := bU32 b (0xB00 + 0x200 * n + 4 * k)
def bkHP (b : Block) (p : Nat) : Nat := bU32 b (0x900 + 0x20 * p)
def bkHT (b : Block) (p : Nat) : Nat := bU32 b (0x904 + 0x20 * p)
def bkEPT (b : Block) (p : Nat) : Nat := bU32 b (0x908 + 0x20 * p)
def bkLPos (b : Block) (l : Nat) : Int := bI32 b (0x1200 + 0x10 * l)
def bkLDzb (b : Block) (l : Nat) : Int := bU32 b (0x1204 + 0x10 * l)
def bkLDza (b : Block) (l : Nat) : Int := bU32 b (0x1208 + 0x10 * l)
def bkLSide (b : Block) (l : Nat) : Nat := bU8 b (0x120C + 0x10 * l)
/-- Station of a side of a landing: 0 front, 1 rear. -/
def bkLStn (b : Block) (l side : Nat) : Nat := bU8 b (0x120D + side + 0x10 * l)
/-- Landings with an opening. -/
def bkLandings (b : Block) : List Nat := (List.range 256).filter (fun l => bkLSide b l % 4 != 0)
def bkSfTmo (b : Block) : Nat := bU16 b 0x2200
def bkCarStn (b : Block) (n : Nat) : Nat := bU32 b (0x2204 + 4 * n)
def bkLandBase (b : Block) : Nat := bU32 b 0x2214
def bkOutFn (b : Block) (k : Nat) : Nat := bU8 b (0x2A00 + 0x10 * k)
def bkOutCar (b : Block) (k : Nat) : Nat := bU8 b (0x2A01 + 0x10 * k)
def bkOutOl (b : Block) (k : Nat) : Nat := bU16 b (0x2A02 + 0x10 * k)
def bkOtDue (b : Block) : Nat := bU16 b 0x2A86
def bkRstWin (b : Block) : Nat := bU16 b 0x2A88
def bkDegEn (b : Block) (n : Nat) : Bool := bU8 b (0x2B00 + 0x10 * n) == 1
def bkDegWaive (b : Block) (n : Nat) : Nat := bU8 b (0x2B01 + 0x10 * n)
def bkDegV (b : Block) (n : Nat) : Nat := bU32 b (0x2B04 + 0x10 * n)
def bkDegT (b : Block) (n : Nat) : Nat := bU16 b (0x2B08 + 0x10 * n)
/-- The cars of a pair's mask that the block enables. -/
def bkPCars (b : Block) (p : Nat) : List Nat := (List.range 4).filter (fun n => bitN (bkPMask b p) n == 1 && bkCarOn b n)
/-- Lowest and highest enabled car. -/
def bkLowest (b : Block) : Option Nat := (List.range 4).find? (bkCarOn b)
def bkHighest (b : Block) : Option Nat := (List.range 4).reverse.find? (bkCarOn b)

/-- Source-T frame period in ns: frame time plus 2 µs, in clock steps of 10 ns (R84, R87). -/
def bkFrameT (b : Block) (n : Nat) : Nat := 3000 + car8 b n 0 * car16 b n 8 * 10 + car16 b n 0xA * 10

/-! ### Seal code (R268) -/

/-- Bytes `a` to `a + len - 1` of a block. -/
def bkBytes (b : Block) (a len : Nat) : List Nat := (List.range len).map (fun i => bU8 b (a + i))

/-- The seal code: the CRC-16 over the whole block. -/
def sealCode (b : Block) : Nat := crc16 (bkBytes b 0 0x3500)

/-- Whether a safety-engineer key of the store verifies the block's signature (R267, R269 check 1). -/
def bkSigned (keys : List Key) (b : Block) : Bool :=
  keys.any (fun k => k.role == 3 && Config.falconOk k.id (digestBytes ((bkBytes b 0 0x3000).map (BitVec.ofNat 8))) ((bkBytes b 0x3000 0x500).map (BitVec.ofNat 8)))

/-! ### Load checks (R269) -/

/-- Whether a byte address belongs to a field of Table 7 or of Table 5 of the next chapter; every other byte is reserved. -/
def bkField (a : Nat) : Bool :=
  let inR (lo n : Nat) : Bool := decide (lo ≤ a ∧ a < lo + n)
  let car (o : Nat) : Bool :=
    decide (o < 0x0F ∨ (0x10 ≤ o ∧ o < 0x5D) ∨ (0x60 ≤ o ∧ o < 0x74) ∨ (0x80 ≤ o ∧ o < 0xA1))
  inR 0 6 || inR 8 0x1D || inR 0x40 0x0C || inR 0x50 0x40 || (inR 0x100 0x800 && car ((a - 0x100) % 0x200)) ||
  (inR 0x900 0x60 && decide ((a - 0x900) % 0x20 < 0x0C)) || inR 0xA00 0x800 || (inR 0x1200 0x1000 && decide (a % 0x10 < 0x0F)) ||
  inR 0x2200 2 || inR 0x2204 0x14 || (inR 0x2A00 0x80 && decide (a % 0x10 < 4)) || inR 0x2A80 0x0A ||
  (inR 0x2B00 0x40 && decide (a % 0x10 < 0x0A ∧ a % 0x10 ≠ 2 ∧ a % 0x10 ≠ 3)) || inR 0x3000 0x500

/-- MAGIC, FORMAT, LENGTH and the reserved bytes (check 2). -/
def bkForm (b : Block) : Bool :=
  decide (bU32 b 0 = 0x50534231 ∧ bU16 b 4 = 1 ∧ bU32 b 8 = 13568) &&
  b.all (fun e => (List.range 4).all (fun i => bkField (4 * e.1 + i) || bU8 b (4 * e.1 + i) == 0))

def inSpan (x lo hi : Nat) : Bool := decide (lo ≤ x ∧ x ≤ hi)

/-- Input parameters: periods, windows and pairs (R252 to R257). -/
def bkInputsOk (b : Block) : Bool :=
  inSpan (bkTpPer b) 10 200 && inSpan (bkSettle b) 10 500 &&
  (List.range 4).all (fun k => (bkTpW b k == 0 || inSpan (bkTpW b k) 200 1000) && decide (bkTpW b k + bkSettle b + 100 ≤ bkTpPer b * 250)) &&
  (List.range 8).all (fun p =>
    decide (bkFunc b p ≤ 9 ∧ bkPMode b p ≤ 2) && ((bkFunc b p == 0) == (bkPMode b p == 0)) &&
    (bkPMode b p == 0 ||
      ((List.range 2).all (fun i => let t := bkFeed b (2 * p + i); decide (t ≤ 4) && (t == 4 || bkTpW b t != 0)) &&
       (bkFeed b (2 * p) == 4 || bkFeed b (2 * p) != bkFeed b (2 * p + 1)) && inSpan (bkDisc b p) 1 250 &&
       (bkFunc b p != 4 || bkLowest b == (List.range 4).find? (fun n => bkPMask b p == 2 ^ n)) &&
       (bkFunc b p != 5 || bkHighest b == (List.range 4).find? (fun n => bkPMask b p == 2 ^ n)))))

/-- Whether the category-1 ramp from a speed `v` under `d` and `j` lasts no longer than `m` ns (R121, R290): v/d + d/j with a constant part,
2·√(v/j) without one. -/
def rampFits (v d j m : Nat) : Bool :=
  if d = 0 ∨ j = 0 then decide (v = 0)
  else if v * j ≥ d * d then decide (1000000000 * (v * j + d * d) ≤ m * d * j)
  else decide (4000000000000000000 * v ≤ j * m * m)

/-- The ranges of Table 5 in a car's area, for every car (R307). -/
def bkStopOk (b : Block) (n : Nat) : Bool :=
  decide (car32 b n 0x80 ≤ 500000) && inSpan (car32 b n 0x84) 10000 2000000 && inSpan (car32 b n 0x88) 100 60000 &&
  inSpan (bkSsV b n) 1000 50000 && inSpan (car16 b n 0x90) 10 1000 && decide (car16 b n 0x92 ≤ 2000 ∧ car16 b n 0x94 ≤ 500) &&
  inSpan (car16 b n 0x96) 10 2000 && inSpan (car16 b n 0x98) 50 2000 && inSpan (car16 b n 0x9A) 10 2000 &&
  inSpan (car32 b n 0x9C) 1000 100000 &&
  inSpan (bkDegV b n) 100000 1000000 && inSpan (bkDegT b n) 10 300 && decide (bU8 b (0x2B00 + 0x10 * n) ≤ 1 ∧ bkDegWaive b n ≤ 7)

/-- Parameters of one enabled car (R258 to R264, R290). -/
def bkCarOk (b : Block) (n : Nat) : Bool :=
  decide (bkDzV b n ≤ 800000) &&
  decide (car32 b n 0x20 < bkOvsP b n true ∧ bkOvsP b n true < bkOvsT b n true ∧ car32 b n 0x20 < bkOvsP b n false ∧
    bkOvsP b n false < bkOvsT b n false) &&
  (car8 b n 0x5C != 1 || decide (car32 b n 0x54 ≤ 300000 ∧ car32 b n 0x54 < car32 b n 0x58 ∧ car32 b n 0x58 ≤ 400000)) &&
  decide (car8 b n 0x5C ≤ 1 ∧ car16 b n 0x6C ≤ 2) && inSpan (car16 b n 0x6E) 1 50 &&
  (bkLandings b).all (fun l => decide (bkLDzb b l ≤ car32 b n 0x70 ∧ bkLDza b l ≤ car32 b n 0x70)) &&
  decide (car32 b n 0x80 * 1000 + bkSsT b n ≤ car32 b n 0x88 * 1000000) &&
  rampFits (car32 b n 0x20) (bkDS1 b n) (bkJS1 b n) (car32 b n 0x88 * 1000000 - car32 b n 0x80 * 1000 - bkSsT b n)

/-- The checks of the separation tables that the block's own fields decide (R187, Table 6, rows 1, 2 and 5). -/
def bkTables (b : Block) : Bool :=
  let up (lst : Nat → Nat) : Bool := (List.range 63).all (fun k => decide (lst k ≤ lst (k + 1)))
  (List.range 4).all (fun n => !bkCarOn b n ||
    (up (bkUp b n) && up (bkDn b n) && decide (bkDS1 b n ≥ car32 b n 0x24 ∧ bkJS1 b n ≥ car32 b n 0x28))) &&
  (List.range 3).all (fun p => !bkSepOn b p || decide (bkHT b p > bkEPT b p))

/-- In 3100-compatible mode the source-T fields of every car are 0 (R248). -/
def bkSourceT (b : Block) (native : Bool) : Bool := native || (List.range 4).all (fun n => (List.range 5).all (fun i => car32 b n (4 * i) == 0))

/-- Output pairs and common stop parameters (R282, R307). -/
def bkOutOk (b : Block) : Bool :=
  (List.range 8).all (fun k => decide (bkOutFn b k ≤ 2 ∧ bkOutCar b k ≤ 3) && bkCarOn b (bkOutCar b k)) &&
  (List.range 4).all (fun n => !bkCarOn b n ||
    (decide (((List.range 8).filter (fun k => bkOutFn b k == 1 && bkOutCar b k == n)).length = 1) &&
     (List.range 8).any (fun k => bkOutFn b k == 2 && bkOutCar b k == n))) &&
  inSpan (bU16 b 0x2A80) 1 60 && inSpan (bU16 b 0x2A82) 200 1000 && inSpan (bU16 b 0x2A84) 50 1000 && inSpan (bkOtDue b) 1 168 &&
  inSpan (bkRstWin b) 1 30

/-- Every range and relation that the block's own fields decide (check 4). -/
def bkRanges (b : Block) (native : Bool) : Bool :=
  bkInputsOk b && bkOutOk b && inSpan (bkSfTmo b) 10 1000 &&
  (List.range 4).all (bkStopOk b) && (List.range 4).all (fun n => !bkCarOn b n || bkCarOk b n) && bkSourceT b native && bkTables b

/-- The reason a block is refused with, if any (R269 checks 1 to 4): the cars admitted, whether SAFE_MODE is native, and this module's
identity are given. -/
def bkWhy (keys : List Key) (cars : Nat) (native : Bool) (dev : Nat) (b : Block) : Option Nat :=
  let n := popc 4 (bkCars b)
  if !bkSigned keys b then some cSIGNATURE
  else if !bkForm b then some 0xA0
  else if bkMode b ≠ (if native then 0 else 1) then some cSAFETY
  else if bkCars b ≥ 16 ∨ n > cars ∨ (!native ∧ n > 1) then some cSAFETY
  else if bU32 b 0x18 + 2 ^ 32 * bU32 b 0x1C ≠ 0 ∧ bU32 b 0x18 + 2 ^ 32 * bU32 b 0x1C ≠ dev then some 0xA2
  else if !bkRanges b native then some 0xA0
  else none

/-- The code in `ERR.CODE` for a refusal: SAFETY where the separation tables fail (R187), else the reason (R269; notes/assumptions/24.md). -/
def bkCode (b : Block) (why : Nat) : Nat := if why = 0xA0 ∧ bkForm b ∧ !bkTables b then cSAFETY else why

end Sys2Proof.Machine
end

