-- ==== Sys2Proof/Machine/Theath.lean ====
section
/-! DEFINITION. The safe inputs and Theath, the hard-wired channel (spec/09_safety_architecture.md, R246 to R258, R260 to R263;
spec/06_multicar_separation.md, R182 to R185; spec/03_shaft_and_position.md, R87; spec/10_safe_stop_outputs.md, R281 to R287). -/
namespace Sys2Proof.Machine

open Sys2Proof

/-! ### Codes (R280, R311; Theath causes, R277 Table 14) -/
def cTP_STUCK : Nat := 0xA5
def cTP_CROSS : Nat := 0xA6
def cTP_OVERLOAD : Nat := 0xA7
def cDISCREPANCY : Nat := 0xA8

namespace Dev

def modSaf (d : Dev) (f : Saf → Saf) : Dev := { d with saf := f d.saf }
def sp (d : Dev) (n : Nat) : SafCar := d.saf.sp.getD n SafCar.init
def th (d : Dev) (n : Nat) : ThCar := d.saf.th.getD n ThCar.init
def modSp (d : Dev) (n : Nat) (f : SafCar → SafCar) : Dev := d.modSaf (fun s => { s with sp := lmod s.sp n f })
def modTh (d : Dev) (n : Nat) (f : ThCar → ThCar) : Dev := d.modSaf (fun s => { s with th := lmod s.th n f })

/-- The active block; every field of an absent block reads 0. -/
def blk (d : Dev) : Block := d.saf.active.getD []
/-- Whether the safety region is in RUN (R273, Table 8). -/
def safRun (d : Dev) : Bool := d.get (shp .sfc) SFC.STATE_CODE == 3
def native (d : Dev) : Bool := d.get (shp .sfc) SFC.STATE_MODE == 0
/-- Whether Theath evaluates the native functions: block loaded, native mode (R248). -/
def thOn (d : Dev) : Bool := d.on (shp .ths) THS.MODE_BLOCK_OK && d.native
/-- A car the block enables. -/
def safCar (d : Dev) (n : Nat) : Bool := bkCarOn d.blk n
def safCars (d : Dev) : List Nat := (List.range 4).filter d.safCar

/-- A safety record. -/
def safNote (d : Dev) (p code detail : Nat) (words : List Nat := []) : Dev := d.note p clsSafety code detail words

/-! ### Position copy, speed (R29, R289) -/

/-- The source-P copy of a car: both halves hand theirs over (R29), and the pair takes that of the half that holds the lease, as for the motion
intent. -/
def pair (d : Dev) (n : Nat) : PosCopy := d.pCopy.getD (d.holder.n * 4 + n) ⟨0, 0, 0, 0⟩
def pX (d : Dev) (n : Nat) : Int := (d.pair n).x
def pV (d : Dev) (n : Nat) : Int := (d.pair n).v
def pSt (d : Dev) (n : Nat) : Nat := (d.pair n).st
def xT (d : Dev) (n : Nat) : Int := d.geti (shp .ths) THS.CAR_XT_UM n
def vT (d : Dev) (n : Nat) : Int := d.geti (shp .ths) THS.CAR_VT_UMS n

def tGood (d : Dev) (n : Nat) : Bool := bitN (d.get (shp .ths) THS.CARS_T_GOOD) n == 1

/-- The larger in magnitude of v_P and, in native mode, v_T (R289). A speed left from a source T that is no longer good is no speed of the car
(notes/assumptions/71.md). -/
def pairV (d : Dev) (n : Nat) : Int := if d.native && d.tGood n && decide ((d.vT n).natAbs > (d.pV n).natAbs) then d.vT n else d.pV n

/-- |v| above `SS_V`. -/
def pairMoves (d : Dev) (n : Nat) : Bool := decide ((d.pairV n).natAbs > bkSsV d.blk n)

/-! ### Output switches (R281 to R285) -/

/-- Command the switches: a high side follows the STO or BRAKE command of its car; a low side is on in native mode while no Theath stop
is latched for the car, and in 3100-compatible mode follows the high side (R248, R283). In every state but RUN both are off (R269), and in a
module strapped as a manager (R9). -/
def outUpdate (d : Dev) : Dev :=
  (List.range 8).foldl (fun d k =>
    let f := bkOutFn d.blk k
    let n := bkOutCar d.blk k
    let live := d.safRun && !d.isManager && f != 0 && (d.saf.test.map Prod.fst != some k)
    let hs := live && (if f == 1 then d.on (shp .sio) SIO.CAR_RUN_STO_ON n else d.on (shp .sio) SIO.CAR_RUN_BRK_ON n)
    let ls := live && (d.th n).causes == 0 && (if d.native then true else hs)
    ((d.putb (shp .sio) SIO.SO_ST_HS hs k).putb (shp .sio) SIO.SO_ST_LS ls k).putBit (shp .ths) THS.MODE_SO_LS k ls) d

/-- The outputs of a car go off together (R285); the brake-slip references follow R294. -/
def carOff (d : Dev) (n : Nat) : Dev :=
  let q := shp .sio
  let was := d.on q SIO.CAR_RUN_BRK_ON n
  let d := (d.put q SIO.CAR_RUN_STO_ON 0 n).put q SIO.CAR_RUN_BRK_ON 0 n
  let d := if was then d.modSp n (fun c => { c with
      slipP := if d.pairMoves n then none else some (d.pX n), slipT := if d.pairMoves n then none else some (d.xT n) }) else d
  d.outUpdate

/-- End a rescue permit: Theath and the pair heed the CHAIN pairs again (R306). -/
def endRescue (d : Dev) (n : Nat) : Dev :=
  ((d.putBit (shp .sfc) SFC.PERMIT_RESCUE n false).modSp n (fun c => { c with rscChain := 0 })).modTh n (fun t => { t with rscChain := 0 })

/-- Theath latches a stop category 0 for a car, with its cause (R258): both switches of its pairs go off together and a category-1 stop in
progress ends with it (R285); a rescue permit ends. -/
def thTrip (d : Dev) (n cause : Nat) (words : List Nat := []) : Dev :=
  if !d.safCar n || bitN (d.th n).causes cause == 1 then d
  else
    let p := shp .ths
    let first := (d.th n).causes == 0
    let d := d.modTh n (fun t => { t with causes := setBitN t.causes cause true })
    let d := if first then ((d.put p THS.CAR_ST_CAUSE cause n).put64 p THS.CAR_TRIP_TS_LO THS.CAR_TRIP_TS_HI d.now n).putBit p THS.CARS_TRIP n true
      else d
    let d := ((d.safNote p cause n words).endRescue n).carOff n
    ((d.modSp n (fun c => { c with s1 := none })).put (shp .sio) SIO.CAR_RUN_S1 0 n).put (shp .sio) SIO.CAR_ENV_UMS 0 n

/-! ### Safe inputs (R252 to R257) -/

/-- Whether a pair is in use. -/
def pairUsed (d : Dev) (p : Nat) : Bool := bkPMode d.blk p != 0

/-- Demand of a pair by a set of levels (R252). -/
def pairDem (d : Dev) (lvl p : Nat) : Bool :=
  let a := bitN lvl (2 * p)
  let b := bitN lvl (2 * p + 1)
  if bkPMode d.blk p == 1 then a == 0 || b == 0 else if bkPMode d.blk p == 2 then a == 0 || b == 1 else false

/-- Whether the channels of a pair contradict one another (R253). -/
def pairDiff (d : Dev) (lvl p : Nat) : Bool :=
  let same := bitN lvl (2 * p) == bitN lvl (2 * p + 1)
  if bkPMode d.blk p == 1 then !same else if bkPMode d.blk p == 2 then same else false

def demMask (d : Dev) (lvl : Nat) : Nat := ((List.range 8).map (fun p => (d.pairDem lvl p).toNat * 2 ^ p)).sum

/-- Show the demand of the pairs: Theath's in native mode, the pair's in 3100-compatible mode. -/
def showDem (d : Dev) : Dev :=
  if d.thOn then d.put (shp .ths) THS.IN_PAIR_ACT (d.demMask d.saf.thLvl) else d.put (shp .ths) THS.IN_PAIR_ACT d.saf.spAct

def thFlt (d : Dev) (p : Nat) : Bool := bitN (d.get (shp .ths) THS.IN_PAIR_FLT) p == 1
def spFlt (d : Dev) (p : Nat) : Bool := bitN (d.get (shp .sfc) SFC.STOPS_PAIR_FLT) p == 1

/-- A line in its window or its settle time. -/
def blanked (d : Dev) (ch : Nat) : Bool := decide (bkFeed d.blk ch < 4) && bitN (d.get (shp .ths) THS.TP_BLANK) (bkFeed d.blk ch) == 1

/-- Mark a pair as having failed a check in the present `TP_PER`. -/
def markBad (d : Dev) (p : Nat) : Dev :=
  d.modSaf (fun s => { s with badNow := setBitN s.badNow p true, clean := setBitN s.clean p false })

/-- Theath faults a pair; an event counts in the pair's `DIAG` (R253, R256). -/
def faultTh (d : Dev) (p code : Nat) : Dev :=
  if d.thOn && d.pairUsed p then
    let d := d.markBad p
    let d := if code == cDISCREPANCY then d.bump (shp .sio) SIO.PR_DIAG_DISC p else if code == cTP_STUCK then d.bump (shp .sio) SIO.PR_DIAG_STUCK p
      else if code == cTP_CROSS then d.bump (shp .sio) SIO.PR_DIAG_CROSS p else d
    if d.thFlt p then d else ((d.putBit (shp .ths) THS.IN_PAIR_FLT p true).err (shp .ths) code p).safNote (shp .ths) code p
  else d

/-- The safety core pair faults a pair (R256); in 3100-compatible mode it alone counts the event. -/
def faultSp (d : Dev) (p code : Nat) : Dev :=
  if d.safRun && d.pairUsed p then
    let d := d.markBad p
    let d := if d.native then d else if code == cDISCREPANCY then d.bump (shp .sio) SIO.PR_DIAG_DISC p
      else if code == cTP_STUCK then d.bump (shp .sio) SIO.PR_DIAG_STUCK p else if code == cTP_CROSS then d.bump (shp .sio) SIO.PR_DIAG_CROSS p else d
    if d.spFlt p then d else ((d.putBit (shp .sfc) SFC.STOPS_PAIR_FLT p true).err (shp .sfc) code p).safNote (shp .sfc) code p
  else d

/-- A safe input channel takes a filtered level (R252); a blanked channel keeps the level from before its window for the demand
evaluation (R255). -/
def safeInput (d : Dev) (ch : Nat) (level : Bool) : Dev :=
  let d' := d.putBit (shp .ths) THS.IN_CH ch level
  let d' := if d.blanked ch then d' else d'.modSaf (fun s => { s with thLvl := setBitN s.thLvl ch level })
  d'.showDem

/-- The channels of pairs in use that a line feeds. -/
def fedBy (d : Dev) (k : Nat) : List Nat := (List.range 16).filter (fun ch => d.pairUsed (ch / 2) && bkFeed d.blk ch == k)

/-- A window begins: the line is off and its channels are blanked (R254, R255). -/
def tpStart (d : Dev) (k : Nat) : Dev :=
  if d.safRun && bkTpW d.blk k != 0 then
    (((d.putBit (shp .ths) THS.TP_LVL k false).putBit (shp .ths) THS.TP_BLANK k true).modSaf (fun s => { s with lowIn := lset s.lowIn k 0 }))
  else d

/-- A window and its settle time have ended (R255, R256): blanking ends; `high` are the channels that read high in the last 10 µs of the
window, `low` those that read low during it and high again within the settle time. -/
def tpEnd (d : Dev) (k high low : Nat) : Dev :=
  if d.safRun && bkTpW d.blk k != 0 then
    let ch := d.get (shp .ths) THS.IN_CH
    let d := ((d.putBit (shp .ths) THS.TP_LVL k true).putBit (shp .ths) THS.TP_BLANK k false).putBit (shp .ths) THS.TP_OVL k false
    let d := (d.fedBy k).foldl (fun d c => d.modSaf (fun s => { s with thLvl := setBitN s.thLvl c (bitN ch c == 1) })) d
    let d := (d.fedBy k).foldl (fun d c => if bitN high c == 1 then d.faultTh (c / 2) cTP_STUCK else d) d
    let d := (List.range 16).foldl (fun d c =>
      if d.pairUsed (c / 2) && decide (bkFeed d.blk c < 4) && bkFeed d.blk c != k && bitN low c == 1 then d.faultTh (c / 2) cTP_CROSS else d) d
    d.showDem
  else d

/-- A line over its limit for 1 ms, or that did not switch: every pair it feeds is faulted in both channels (R256, R549). -/
def tpOverload (d : Dev) (k : Nat) : Dev :=
  if d.safRun then
    let d := (d.putBit (shp .ths) THS.TP_OVL k true).putBit (shp .ths) THS.TP_LVL k false
    (d.fedBy k).foldl (fun d c => (d.faultTh (c / 2) cTP_OVERLOAD).faultSp (c / 2) cTP_OVERLOAD) d
  else d

/-! ### Source T (R87, R182) -/

/-- Whether Theath uses source T of a car: good, and not waived (R301). -/
def useT (d : Dev) (n : Nat) : Bool := d.tGood n && !(d.th n).waiveT

/-- Bin of a speed (R183). -/
def speedBin (d : Dev) (n : Nat) (v : Int) : Nat := min (v.natAbs / bkBinW d.blk n) 63

/-- The position field of a source-T frame, its parity and its error bit (R85, R87). -/
def tField (b : Block) (n bits : Nat) : Nat := bits / 2 ^ car8 b n 1 % 2 ^ car8 b n 2
def tCount (b : Block) (n bits : Nat) : Nat := if car8 b n 3 == 1 then ungray (car8 b n 2) (tField b n bits) else tField b n bits
def tBad (b : Block) (n bits : Nat) : Bool :=
  let par := car8 b n 4
  let ones := (popc (car8 b n 2) (tField b n bits) + bitN bits (car8 b n 1 - 1)) % 2
  (par == 1 && ones == 1) || (par == 2 && ones == 0) || (car8 b n 5 == 1 && bitN bits (car8 b n 6) == car8 b n 7)
/-- Position in 1/256 µm. -/
def tPos (b : Block) (n bits : Nat) : Int :=
  let c := tdiv ((tCount b n bits * car16 b n 0xC * 256 : Nat) : Int) 1000
  carI b n 0x10 * 256 + (if car8 b n 0xE == 1 then -c else c)

/-- The newest frame at least `W_T` older than the frame clock. -/
def olderFrame (w now : Nat) (fs : List (Int × Nat)) : Option (Int × Nat) := fs.find? (fun f => decide (f.2 + w ≤ now))

/-- The frames still of use: those younger than `W_T` and the newest at least `W_T` older. -/
def useFrames (w now : Nat) (fs : List (Int × Nat)) : List (Int × Nat) :=
  fs.filter (fun f => decide (now < f.2 + w)) ++ (olderFrame w now fs).toList

/-- A source-T frame completes (R87, R182): the frame clock advances by the frame period; a good frame gives position and speed. -/
def sourceT (d : Dev) (n : Nat) (lineLow : Bool) (bits : Nat) : Dev :=
  let p := shp .ths
  let b := d.blk
  if !d.thOn || !d.safCar n then d
  else
    let d := d.modTh n (fun t => { t with clock := t.clock + bkFrameT b n })
    if lineLow || tBad b n bits then d.bump p THS.CAR_TBAD_COUNT n
    else
      let x := tPos b n bits
      let t := (d.th n).clock
      let old := olderFrame (bkWT b n) t (d.th n).frames
      let d := d.modTh n (fun c => { c with frames := (x, t) :: useFrames (bkWT b n) t c.frames })
      let d := d.puti p THS.CAR_XT_UM (asr x 8) n
      let d := match old with
        | some (x0, t0) => d.puti p THS.CAR_VT_UMS (tdiv ((x - x0) * 1000000000) (256 * ((t - t0 : Nat) : Int))) n
        | none => d
      (d.putBit p THS.CARS_T_GOOD n true).put p THS.CAR_ST_BIN (d.speedBin n (d.vT n)) n

/-! ### Bridging and evaluation (R258, R261, R262) -/

/-- The landings at which a car is bridged, by a sill position and a speed: for a double-deck car those of either sill (R261). -/
def bridgeAt (b : Block) (n : Nat) (x v : Int) : List Nat :=
  if v.natAbs ≤ bkDzV b n then
    let sills := if bitN (bkDdeck b) n == 1 then [x, x + bkDeck b n] else [x]
    (bkLandings b).filter (fun l => sills.any (fun y => decide (bkLPos b l - bkLDzb b l ≤ y ∧ y ≤ bkLPos b l + bkLDza b l)))
  else []

/-- Theath's bridging of every car, shown in `THS`; the door permit needs both channels in native mode and the pair alone in
3100-compatible mode (R261). -/
def thBridge (d : Dev) : Dev :=
  let p := shp .ths
  (List.range 4).foldl (fun d n =>
    let l := if d.thOn && d.safCar n && d.useT n then bridgeAt d.blk n (d.xT n) (d.vT n) else []
    let d := d.modTh n (fun t => { t with bridged := l })
    let permit := d.safRun && d.safCar n && !(d.sp n).bridged.isEmpty && (!d.native || !l.isEmpty)
    ((d.putBit p THS.CARS_BRIDGED n !l.isEmpty).put p THS.CAR_ST_LAND (l.headD 0xFF) n).putBit p THS.CARS_DOOR_PERMIT n permit) d

/-- Whether one of a list of landings lies in a pair's range. -/
def inLand (b : Block) (p : Nat) (ls : List Nat) : Bool := ls.any (fun l => decide (bkLandLo b p ≤ l ∧ l ≤ bkLandHi b p))

/-- Theath's excuse of a door pair for a car of its mask (R261). -/
def thExcused (d : Dev) (p n : Nat) : Bool :=
  if bkFunc d.blk p == 3 then !(d.th n).bridged.isEmpty else (bkPCars d.blk p).any (fun m => inLand d.blk p (d.th m).bridged)

/-- The terminal car of a FINAL pair (R257). -/
def finalCar (b : Block) (p : Nat) : List Nat := ((if bkFunc b p == 4 then bkLowest b else bkHighest b).toList).filter (fun n => (bkPCars b p).contains n)

/-- Theath's response to one pair in demand or faulted, or to its end. -/
def thPair (d : Dev) (p : Nat) : Dev :=
  let b := d.blk
  let flt := d.thFlt p
  let f := bkFunc b p
  if d.pairDem d.saf.thLvl p || flt then
    let why (c : Nat) : Nat := if flt then 0xB else c
    if f = 1 then
      (bkPCars b p).foldl (fun d n =>
        if bitN (d.th n).rscChain p == 1 then d
        else (d.modTh n (fun t => { t with chain := setBitN t.chain p true })).thTrip n (why 1) [p]) d
    else if f = 4 ∨ f = 5 then (finalCar b p).foldl (fun d n => d.thTrip n (why 2) [p]) d
    else if f = 2 ∨ f = 3 then
      (bkPCars b p).foldl (fun d n =>
        if d.thExcused p n then d.modTh n (fun t => { t with excused := setBitN t.excused p true })
        else if bitN (d.th n).excused p == 1 then d.thTrip n 5 [p]
        else d.thTrip n (why 3) [p]) d
    else if f = 6 ∨ f = 7 then
      (bkPCars b p).foldl (fun d n =>
        let v := if f = 6 then -(d.vT n) else d.vT n
        if d.useT n && decide (v > car32 b n 0x48) then d.thTrip n (why 6) [p, encS 32 (d.vT n)] else d) d
    else d
  else (List.range 4).foldl (fun d n => d.modTh n (fun t => { t with excused := setBitN t.excused p false })) d

/-- Overspeed and rescue speed of a car, from source T (R258). -/
def thSpeed (d : Dev) (n : Nat) : Dev :=
  if !d.safCar n || !d.useT n then d
  else
    let v := d.vT n
    let d := if v.natAbs > bkOvsT d.blk n (decide (v > 0)) then d.thTrip n 4 [encS 32 v] else d
    if bitN (d.get (shp .sfc) SFC.PERMIT_RESCUE) n == 1 && decide (v.natAbs > car32 d.blk n 0x58) then d.thTrip n 0xA [encS 32 v] else d

/-- Theath evaluates its functions (R258); in 3100-compatible mode it evaluates none (R248). -/
def thEval (d : Dev) : Dev :=
  if d.thOn then
    let d := d.showDem.thBridge
    let d := (List.range 8).foldl thPair d
    (List.range 4).foldl thSpeed d
  else d

/-! ### Separation (R182 to R185) -/

/-- A pair that Theath checks: enabled in the block, both cars enabled. -/
def sepOn (d : Dev) (p : Nat) : Bool := d.thOn && bkSepOn d.blk p && d.safCar p && d.safCar (p + 1)

def sepL (d : Dev) (p : Nat) : Nat := if d.vT p ≥ 0 then bkUp d.blk p (d.speedBin p (d.vT p)) else 0
def sepU (d : Dev) (p : Nat) : Nat := if d.vT (p + 1) ≤ 0 then bkDn d.blk (p + 1) (d.speedBin (p + 1) (d.vT (p + 1))) else 0
def gapT (d : Dev) (p : Nat) : Int := (d.xT (p + 1) - bkBot d.blk (p + 1)) - (d.xT p + bkTop d.blk p)
def thrT (d : Dev) (p : Nat) : Int := d.sepL p + d.sepU p + bkHT d.blk p

/-- Whether a waiver suspends the separation rows of a car (R301). -/
def sepWaived (d : Dev) (p : Nat) : Bool :=
  (d.th p).waiveT || (d.th (p + 1)).waiveT || (d.th p).waiveH || (d.th (p + 1)).waiveH

/-- Row 3 of R184 for every pair. -/
def thSepCheck (d : Dev) : Dev :=
  let q := shp .ths
  (List.range 3).foldl (fun d p =>
    if d.sepOn p then
      let g := d.gapT p
      let t := d.thrT p
      let d := (d.puti q THS.PR_GAP_UM g p).puti q THS.PR_THR_UM t p
      if !d.sepWaived p && d.tGood p && d.tGood (p + 1) && decide (g < t) then
        let w := [p, encS 32 g, d.sepL p, d.sepU p]
        ((d.put q THS.PR_ST_TRIP 1 p).thTrip p 7 w).thTrip (p + 1) 7 w
      else d
    else d) d

/-- The separation pairs of a car, and its neighbours in them. -/
def thPairs (d : Dev) (n : Nat) : List Nat := (List.range 3).filter (fun p => d.sepOn p && (p == n || p + 1 == n))
def sepNeighbours (d : Dev) (n : Nat) : List Nat := (d.thPairs n).map (fun p => if p = n then p + 1 else p)

/-- No good source-T frame for `T_INV` (R184 row 2, R258): a car of a separation pair trips with its neighbours, each pair recorded
with g_T and both table entries; another car trips alone. A pair that a waiver suspends takes no part (R301). -/
def sourceLost (d : Dev) (n : Nat) (inPair : Bool) : Dev :=
  if !d.thOn || !d.safCar n then d
  else
    let d := d.putBit (shp .ths) THS.CARS_T_GOOD n false
    let nb := d.sepNeighbours n
    if (d.th n).waiveT || nb.isEmpty == inPair then d
    else if inPair then
      let words (q : Nat) : List Nat := [n, q, encS 32 (d.gapT q), d.sepL q, d.sepU q]
      let qs := (d.thPairs n).filter (fun q => !d.sepWaived q)
      if qs.isEmpty then d
      else qs.foldl (fun d' q => d'.thTrip (if q = n then q + 1 else q) 8 (words q)) (d.thTrip n 8 (qs.flatMap words))
    else d.thTrip n 9 [n]

/-! ### Heartbeat (R247) -/

/-- The heartbeat reaches Theath: it is shown good, after a break only once it has come for 10 ms (R303). -/
def heartbeat (d : Dev) : Dev :=
  if d.get (shp .sfc) SFC.STATE_CODE == 5 then d
  else
    let d := (d.wrapUp (shp .sfc) SFC.HB_COUNT).modSaf (fun s => { s with hbRun := s.hbRun + 1 })
    let broken := (List.range 4).any (fun n => bitN (d.th n).causes 0xC == 1)
    if !broken || decide (d.saf.hbRun ≥ 100) then d.put (shp .ths) THS.MODE_HB_OK 1 else d

/-- No heartbeat for 300 µs: every low side goes off with cause HEARTBEAT. -/
def heartbeatLost (d : Dev) : Dev :=
  let d := (d.put (shp .ths) THS.MODE_HB_OK 0).modSaf (fun s => { s with hbRun := 0 })
  (List.range 4).foldl (fun d n => d.thTrip n 0xC) d

end Dev

def execSafeInputChange (ch : Fin 16) (level : Bool) (s : State) : Host.Outcome State Fault Refusal := onAny (fun d => d.safeInput ch level) s

def execTheathEval (s : State) : Host.Outcome State Fault Refusal := onDev (fun d => d.thEval) s

def execTheathSepCheck (s : State) : Host.Outcome State Fault Refusal := onDev (fun d => d.thSepCheck) s

def execSourceTFrame (n : Fin 4) (lineLow : Bool) (bits : Word) (s : State) : Host.Outcome State Fault Refusal :=
  onDev (fun d => d.sourceT n lineLow bits.toNat) s

def execSepTinv (n : Fin 4) (s : State) : Host.Outcome State Fault Refusal := onDev (fun d => d.sourceLost n true) s

def execSourceTLost (n : Fin 4) (s : State) : Host.Outcome State Fault Refusal := onDev (fun d => d.sourceLost n false) s

def execDiscrepancy (p : Fin 8) (s : State) : Host.Outcome State Fault Refusal :=
  onDev (fun d => (d.faultTh p cDISCREPANCY).faultSp p cDISCREPANCY) s

def execTpWindowStart (k : Fin 4) (s : State) : Host.Outcome State Fault Refusal := onDev (fun d => d.tpStart k) s

def execTpWindowEnd (k : Fin 4) (high low : BitVec 16) (s : State) : Host.Outcome State Fault Refusal :=
  onDev (fun d => d.tpEnd k high.toNat low.toNat) s

def execTpOverload (k : Fin 4) (s : State) : Host.Outcome State Fault Refusal := onDev (fun d => d.tpOverload k) s

def execHeartbeatSend (s : State) : Host.Outcome State Fault Refusal := onDev (fun d => d.heartbeat) s

def execHeartbeatTimeout (s : State) : Host.Outcome State Fault Refusal := onDev (fun d => d.heartbeatLost) s

end Sys2Proof.Machine
end

