-- ==== Sys2Proof/Machine/SafePair.lean ====
section
/-! DEFINITION. The safety core pair: its samples, stations, stops, permits and stop envelopes (spec/09_safety_architecture.md, R246 to
R266; spec/10_safe_stop_outputs.md, R281 to R294, R300 to R302; spec/06_multicar_separation.md, R181; spec/14_can_fd.md, R414 to
R417). -/
namespace Sys2Proof.Machine

open Sys2Proof

/-! ### Codes (R280, R310, R311) -/
def cLOCK_DISAGREE : Nat := 0xA9
def cSWITCH_DISAGREE : Nat := 0xAA
def cLIMIT_MISMATCH : Nat := 0xAB
def cSTATION_SILENT : Nat := 0xAD
def cOUT_FAULT : Nat := 0xB0
def cBRAKE_FAULT : Nat := 0xB1

namespace Dev

/-! ### Standing (R288) -/

/-- |v| ≤ `SS_V` for `SS_T`. -/
def stood (d : Dev) (n : Nat) : Bool := !d.pairMoves n && decide ((d.sp n).still ≥ bkSsT d.blk n)

/-! ### Stops (R283 to R292) -/

/-- Assert a stop line to the generators: category 0, or category 1 with the block's deceleration and jerk (R130, R258). A ramp in
progress under those values is not asserted again. Table 6 of R29 leads the stop lines to the Weir and to CAN-D as well; no rule gives them an effect
there, and the model none (notes/assumptions/67.md). -/
def stopLine (d : Dev) (n cat : Nat) : Dev :=
  let L := (bkDS1 d.blk n, bkJS1 d.blk n)
  d.both (fun d h =>
    if cat = 0 then d.modMpg h n (fun m => { m with stopLine := 2 })
    else if d.mpgMode h n == 4 && decide ((d.mpg h n).ramp = some L) then d
    else d.modMpg h n (fun m => { m with stopLine := max m.stopLine 1, ramp := some L }))

/-- The acceleration of the last two source-P speeds (R181, R289); `clipD` clips one to ±`D_S1`. -/
def pairAcc (d : Dev) (h : HalfId) (n : Nat) : Int :=
  tdiv (((d.pair n).v - (d.pair n).vp) * 1000000000) (max 1 (d.servoT h))
def clipD (b : Block) (n : Nat) (a : Int) : Int := max (-(bkDS1 b n : Int)) (min (bkDS1 b n) a)

/-- The safety core pair latches a stop of a car with a cause and a category (R258, R287 to R291): category 0 turns both switches off and
sends Theath the off request; category 1 asserts the stop line and starts the envelope, unless a category-1 stop is in progress, and under a
latched category 0 latches its cause alone. -/
def spStop (d : Dev) (n cause cat : Nat) (words : List Nat := []) : Dev :=
  if !d.safRun || !d.safCar n || (bitN (d.sp n).causes cause == 1 && (cat != 0 || bitN (d.get (shp .sfc) SFC.STOPS_CAT0) n == 1)) then d
  else
    let p := shp .sfc
    let q := shp .sio
    let d := ((d.modSp n (fun c => { c with causes := setBitN c.causes cause true })).put q SIO.CAR_RUN_CAUSE cause n).safNote p cause n words
    let d := d.endRescue n
    if cat = 0 then
      let d := ((d.putBit p SFC.STOPS_CAT0 n true).modSp n (fun c => { c with s1 := none })).put q SIO.CAR_RUN_S1 0 n
      let d := ((d.put q SIO.CAR_ENV_UMS 0 n).carOff n).stopLine n 0
      if d.native then (d.modTh n (fun t => { t with offReq := true })).thTrip n 0xF [cause] else d.thTrip n 0xD [cause]
    else
      let zero := bitN (d.get p SFC.STOPS_CAT0) n == 1 || (d.th n).causes != 0
      let d := if zero then d else d.putBit p SFC.STOPS_CAT1 n true
      if zero || (d.sp n).s1.isSome then d
      else
        let up := decide (d.pV n ≥ 0)
        let s : Int := if up then 1 else -1
        let a := clipD d.blk n (s * d.pairAcc d.holder n)
        ((d.modSp n (fun c => { c with s1 := some ⟨0, s * d.pV n, a, up, false⟩ })).put q SIO.CAR_RUN_S1 1 n).stopLine n 1

/-- Whether the device safe state holds (R23, R348). -/
def inSafe (d : Dev) : Bool := d.saf.deviceSafe || d.on (shp .wir) WIR.SAFE_NOHOLD

/-- Category-1 stop with cause DEVICE for each moving car (R292, R349). -/
def deviceStop (d : Dev) : Dev := (List.range 4).foldl (fun d n => if d.pairMoves n then d.spStop n 0x14 1 else d) d

/-! ### Stations, locks and doors (R261, R414 to R417) -/

def stn (d : Dev) (k : Nat) : Stn := ((d.saf.stations.find? (fun e => e.1 == k)).map Prod.snd).getD ⟨0, true, 0, false⟩

def setStn (d : Dev) (k : Nat) (s : Stn) : Dev :=
  d.modSaf (fun x => { x with stations := x.stations.filter (fun e => decide (e.1 < k)) ++ (k, s) :: x.stations.filter (fun e => decide (k < e.1)) })

/-- A status bit of a station; a silent station shows nothing closed. -/
def stnBit (d : Dev) (k i : Nat) : Bool := !(d.stn k).silent && bitN (d.stn k).status i == 1

/-- Whether the frames show the lock of a side of a landing closed (R415). -/
def lockShown (d : Dev) (l side : Nat) : Bool := d.stnBit (bkLStn d.blk l side) side
/-- Whether the frames report a lock of a landing open. -/
def lockReported (d : Dev) (l : Nat) : Bool :=
  (List.range 2).any (fun i => bitN (bkLSide d.blk l) i == 1 && !(d.stn (bkLStn d.blk l i)).silent && !d.lockShown l i)
/-- A silent station of a landing. -/
def landSilent (d : Dev) (l : Nat) : Bool := (List.range 2).any (fun i => bitN (bkLSide d.blk l) i == 1 && (d.stn (bkLStn d.blk l i)).silent)

/-- Demand or fault of a pair in the safety core pair's own evaluation (R256). -/
def spAct (d : Dev) (p : Nat) : Bool := bitN d.saf.spAct p == 1 || d.spFlt p

/-- Whether the frames, or their silence, show a lock of a landing open. -/
def lockSeen (d : Dev) (l : Nat) : Bool := (List.range 2).any (fun i => bitN (bkLSide d.blk l) i == 1 && !d.lockShown l i)

/-- The DOOR_LAND pairs of a landing's range that are in demand. -/
def landPairs (d : Dev) (l : Nat) : List Nat := (List.range 8).filter (fun p => bkFunc d.blk p == 2 && inLand d.blk p [l] && d.spAct p)

/-- Whether a lock of a landing counts as open for the pair: by the frames, by a silent station, or by a DOOR_LAND pair of its range in
demand that no bridged car excuses (R258, R261). -/
def lockOpen (d : Dev) (l : Nat) : Bool :=
  d.lockSeen l || (d.landPairs l).any (fun p => !(bkPCars d.blk p).any (fun n => inLand d.blk p (d.sp n).bridged))

/-- The sides on which a car has doors: those on which some landing has an opening (R415). -/
def doorSides (b : Block) : List Nat := (List.range 2).filter (fun i => (bkLandings b).any (fun l => bitN (bkLSide b l) i == 1))

/-- Whether a car's doors count as closed (R415): every door it has shown closed, and no DOOR_CAR pair of it in demand. -/
def carClosed (d : Dev) (n : Nat) : Bool :=
  (doorSides d.blk).all (fun i => d.stnBit (256 + n) i && (bitN (bkDdeck d.blk) n == 0 || d.stnBit (256 + n) (2 + i))) &&
  !(List.range 8).any (fun p => bkFunc d.blk p == 3 && (bkPCars d.blk p).contains n && d.spAct p)

/-- The door and lock levels that the door axes read (R208): each deck and side of each car, each side of each landing. -/
def showDoors (d : Dev) : Dev :=
  { d with
    carDoorShut := (List.range 16).map (fun i => d.stnBit (256 + i / 4) (i % 4)),
    landShut := (List.range 512).map (fun i => bitN (bkLSide d.blk (i / 2)) (i % 2) == 1 && d.lockShown (i / 2) (i % 2)) }

/-- Whether a car's reservation meets the sealed door zone of a landing; a car without one meets every zone (R259, R261). -/
def meets (d : Dev) (n l : Nat) : Bool :=
  match d.pRes.getD n none with
  | none => true
  | some (lo, hi) => decide (lo ≤ bkLPos d.blk l + bkLDza d.blk l ∧ bkLPos d.blk l - bkLDzb d.blk l ≤ hi)

/-- The pair's bridging of every car, from the source-P copy (R261). -/
def pairBridge (d : Dev) : Dev :=
  ((List.range 4).foldl (fun d n =>
    let ok := d.safRun && d.safCar n && (d.pSt n == 2 || d.pSt n == 3)
    d.modSp n (fun c => { c with bridged := if ok then bridgeAt d.blk n (d.pX n) (d.pV n) else [] })) d).thBridge

/-- Category of a fault or demand of a pair as its function gives it, and its cause (R258, R310). -/
def inCause (d : Dev) (p c : Nat) : Nat := if d.spFlt p then 0x12 else c

/-- Cause of an open car door without an excuse: DOOR, or that of a faulted DOOR_CAR pair. -/
def doorCause (d : Dev) (n : Nat) : Nat :=
  if (List.range 8).any (fun p => bkFunc d.blk p == 3 && (bkPCars d.blk p).contains n && d.spFlt p) then 0x12 else 3

/-- Cause of open landing locks without an excuse (R310): DOOR where frames or a pair in demand show one open, INPUT_FAULT where only faulted
DOOR_LAND pairs do. -/
def lockCause (d : Dev) (ls : List Nat) : Nat :=
  if ls.any (fun l => d.lockSeen l || (d.landPairs l).any (fun p => !d.spFlt p)) then 3 else 0x12

/-- The door interlock of the pair (R261, R262): UCM, at any speed, for a car that loses the bridging which excused a door or lock still open,
DOOR, or the fault of the pairs that show it, for an open car door without an excuse and for a moving car whose reservation meets an open,
unexcused landing lock. -/
def pairDoors (d : Dev) : Dev :=
  let open_ := (bkLandings d.blk).filter d.lockOpen
  let raw := (bkLandings d.blk).filter (fun l => d.lockSeen l || !(d.landPairs l).isEmpty)
  let un := open_.filter (fun l => !d.safCars.any (fun m => (d.sp m).bridged.contains l))
  (d.safCars).foldl (fun d n =>
    let c := d.sp n
    let closed := d.carClosed n
    let lost := c.excused.filter (fun l => !c.bridged.contains l)
    let ucm := lost.any open_.contains || (c.bridged.isEmpty && !c.excused.isEmpty && !closed)
    let d := if ucm then d.spStop n 4 0 else if !closed && c.bridged.isEmpty then d.spStop n (d.doorCause n) 0 else d
    let d := d.modSp n (fun x => { x with excused := if closed then c.bridged.filter raw.contains else c.bridged })
    let at_ := un.filter (d.meets n)
    if d.pairMoves n && !at_.isEmpty then d.spStop n (d.lockCause at_) 0 else d) d

/-- The input functions of the pair: chain and final limits (R258); a faulted slowdown pair acts as one in demand, in `pairCar`. -/
def pairInputs (d : Dev) : Dev :=
  (List.range 8).foldl (fun d p =>
    let f := bkFunc d.blk p
    if !d.spAct p then d
    else if f = 1 then
      (bkPCars d.blk p).foldl (fun d n =>
        if bitN (d.sp n).rscChain p == 1 then d
        else (d.modSp n (fun c => { c with chain := setBitN c.chain p true })).spStop n (d.inCause p 1) 0 [p]) d
    else if f = 4 ∨ f = 5 then (finalCar d.blk p).foldl (fun d n => d.spStop n (d.inCause p 2) 0 [p]) d
    else d) d

/-! ### Samples (R246, R256) -/

/-- Start, end and settle end of a line's window in µs from the start of `TP_PER`. -/
def tpWin (b : Block) (k : Nat) : Nat × Nat × Nat :=
  (k * bkTpPer b * 250, k * bkTpPer b * 250 + bkTpW b k, k * bkTpPer b * 250 + bkTpW b k + bkSettle b)

/-- The pair's own checks of a line at a sample (R256): stuck by its last sample inside the window, judged at the first sample after it;
cross by its samples inside the window and within the settle time after it. -/
def sampleLine (d : Dev) (t k : Nat) : Dev :=
  let b := d.blk
  if bkTpW b k == 0 then d
  else
    let w := tpWin b k
    let ch := d.get (shp .ths) THS.IN_CH
    let fed := d.fedBy k
    let others := (List.range 16).filter (fun c => d.pairUsed (c / 2) && decide (bkFeed b c < 4) && bkFeed b c != k)
    if w.1 ≤ t ∧ t < w.2.1 then
      let own := fed.foldl (fun m c => setBitN m c (bitN ch c == 1)) d.saf.ownHigh
      let low := others.foldl (fun m c => if bitN ch c == 0 then setBitN m c true else m) (d.saf.lowIn.getD k 0)
      d.modSaf (fun s => { s with ownHigh := own, lowIn := lset s.lowIn k low })
    else
      let d := if w.2.1 < t ∧ t ≤ w.2.1 + 25 then fed.foldl (fun d c => if bitN d.saf.ownHigh c == 1 then d.faultSp (c / 2) cTP_STUCK else d) d else d
      if w.2.1 ≤ t ∧ t ≤ w.2.2 then
        others.foldl (fun d c => if bitN (d.saf.lowIn.getD k 0) c == 1 && bitN ch c == 1 then d.faultSp (c / 2) cTP_CROSS else d) d
      else d.modSaf (fun s => { s with lowIn := lset s.lowIn k 0 })

/-- A sample of the safety core pair at `t` µs into `TP_PER` (R246, R255, R256): levels, demand, its own checks; at the start of each
period the pairs that passed every check of the last one are clean. -/
def pairSample (d : Dev) (t : Nat) : Dev :=
  if !d.safRun then d
  else
    let b := d.blk
    let ch := d.get (shp .ths) THS.IN_CH
    let held (c : Nat) : Bool :=
      let k := bkFeed b c
      let w := tpWin b k
      decide (k < 4 ∧ bkTpW b k ≠ 0 ∧ w.1 ≤ t ∧ t < w.2.2)
    let d := if t = 0 then
        let bad := ((List.range 8).map (fun p => (d.pairDiff ch p).toNat * 2 ^ p)).sum
        d.modSaf (fun s => { s with clean := 255 - s.badNow % 256, badNow := bad })
      else d
    let lvl := (List.range 16).foldl (fun m c => if held c then m else setBitN m c (bitN ch c == 1)) d.saf.spLvl
    let d := d.modSaf (fun s => { s with spLvl := lvl })
    let d := d.modSaf (fun s => { s with spAct := d.demMask lvl })
    let d := (List.range 4).foldl (fun d k => d.sampleLine t k) d
    ((d.showDem).pairInputs).pairDoors

/-! ### Safe frames (R414 to R417) -/

/-- The station whose safe frame an identifier names on a bus: CAN-C 0, CAN-L 1 (R414); bit 31 marks an extended identifier. -/
def tapStn (b : Block) (bus ident : Nat) : Option Nat :=
  if bus = 1 then
    let base := bkLandBase b
    if ident / 2 ^ 31 = base / 2 ^ 31 ∧ base ≤ ident ∧ ident - base < 256 then some (ident - base) else none
  else if bus = 0 then ((List.range 4).find? (fun n => bkCarStn b n == ident)).map (· + 256)
  else none

/-- Whether a tapped frame is a correct safe frame of a station, its SEQ aside (R415, R416, R417). -/
def safeFrameOk (k ident : Nat) (fd : Bool) (dlc : Nat) (bs : List Nat) : Bool :=
  fd && dlc == 0xA && decide (bs.length = 16) && leAt bs 0 1 == 1 && leAt bs 1 1 == k % 256 &&
  decide (leAt bs 4 2 + leAt bs 6 2 = 65535) && leAt bs 8 4 == 0 && decide (leAt bs 4 2 < 16) &&
  leAt bs 12 4 == crc32c (leBytes 4 ident ++ bs.take 12)

/-- A tapped safe frame (R417). -/
def safeFrame (d : Dev) (bus ident : Nat) (fd : Bool) (dlc : Nat) (bs : List Nat) : Dev :=
  if !d.safRun then d
  else match tapStn d.blk bus ident with
  | none => d
  | some k =>
    let s := d.stn k
    let q := leAt bs 2 2
    let dq := (q + 65536 - s.seq) % 65536
    if safeFrameOk k ident fd dlc bs && (s.silent || decide (1 ≤ dq ∧ dq ≤ 32767)) then
      ((d.setStn k ⟨q, false, leAt bs 4 2, false⟩).showDoors).pairDoors
    else
      let d' := d.setStn k { s with rejected := true }
      if s.rejected then d' else d'.safNote (shp .sfc) 0 k

/-- The first DOOR_LAND pair whose range holds a landing: the pair that `ERR.DETAIL` names for it (R280). -/
def coverOf (d : Dev) (l : Nat) : Nat := ((List.range 8).find? (fun p => bkFunc d.blk p == 2 && inLand d.blk p [l])).getD 0

/-- The car, or the pair of a landing, that `ERR.DETAIL` names for a station (R280). -/
def stnDetail (d : Dev) (k : Nat) : Nat :=
  if k ≥ 256 then k - 256
  else match (bkLandings d.blk).find? (fun l => (List.range 2).any (fun i => bitN (bkLSide d.blk l) i == 1 && bkLStn d.blk l i == k)) with
    | some l => d.coverOf l
    | none => 0

/-- No accepted safe frame of a station for `SF_TMO` (R261). -/
def stationSilent (d : Dev) (k : Nat) : Dev :=
  if !d.safRun || (d.stn k).silent then d
  else
    let d := (d.setStn k { d.stn k with silent := true }).err (shp .sfc) cSTATION_SILENT (d.stnDetail k)
    ((d.safNote (shp .sfc) cSTATION_SILENT k).showDoors).pairDoors

/-- Whether frames and DOOR_LAND pairs disagree about a landing (R261). -/
def lockDiffers (d : Dev) (l : Nat) : Bool :=
  let cover := (List.range 8).filter (fun p => bkFunc d.blk p == 2 && inLand d.blk p [l])
  d.lockReported l && !cover.isEmpty && !cover.any d.spAct

/-- LOCK_DISAGREE on a landing: the disagreement has lasted longer than `SF_TMO` (R261). -/
def lockDisagree (d : Dev) (l : Nat) : Dev :=
  if d.safRun && d.lockDiffers l && !d.saf.lockDis.contains l then
    (((d.modSaf (fun s => { s with lockDis := s.lockDis ++ [l] })).err (shp .sfc) cLOCK_DISAGREE (d.coverOf l)).safNote (shp .sfc) cLOCK_DISAGREE l)
  else d

/-! ### Headway (R181) -/

/-- Stopping distance s1 of a car towards another: 0 unless it closes; the profile of R121 under `D_S1` and `J_S1`, plus v × `T_P`. -/
def headS1 (d : Dev) (n : Nat) (s : Int) : Int :=
  let v := s * d.pV n
  if v ≤ 0 then 0
  else
    let L : Lim := ⟨bkDS1 d.blk n, bkDS1 d.blk n, bkJS1 d.blk n, bkJS1 d.blk n⟩
    stopUm L (v * unitV) (clipD d.blk n (s * d.pairAcc d.holder n) * unitA) + cdiv (v * (2 * d.servoT d.holder)) 1000000000

def gapP (d : Dev) (p : Nat) : Int := (d.pX (p + 1) - bkBot d.blk (p + 1)) - (d.pX p + bkTop d.blk p)

/-- Whether a car's own grant waives the headway condition (R300). -/
def hwWaiver (d : Dev) (n : Nat) : Bool := match (d.sp n).deg with | some w => bitN w 2 == 1 | none => false

/-- Whether a headway waiver suspends the checks of a pair of cars (R301). -/
def headWaived (d : Dev) (p : Nat) : Bool :=
  [p, p + 1].any d.hwWaiver

def markHw (d : Dev) (n : Nat) : Dev := d.modSp n (fun c => { c with hw := true, hwNow := true })

/-- One pair of cars (R181, Table 3). Under a headway waiver nothing is latched; only the waived car shows that the condition fails, so that
its recovery is seen (R301, R302). -/
def headPair (d : Dev) (p : Nat) : Dev :=
  if !(d.native && bkSepOn d.blk p && d.safCar p && d.safCar (p + 1)) then d
  else
    let h : Int := bkHP d.blk p
    let g := d.gapP p
    let sl := d.headS1 p 1
    let su := d.headS1 (p + 1) (-1)
    let cl := (if d.pV p > 0 then [p] else []) ++ (if d.pV (p + 1) < 0 then [p + 1] else [])
    let bad := if cl.isEmpty then decide (g < h) else decide (g < sl + su + h)
    if d.headWaived p then
      (if bad then [p, p + 1].foldl (fun d n => if d.hwWaiver n then d.modSp n (fun c => { c with hwNow := true }) else d) d else d)
    else
    let d := if bad then cl.foldl (fun d n => d.spStop n 8 1 [p, encS 32 g]) ((d.markHw p).markHw (p + 1)) else d
    match d.pRes.getD p none, d.pRes.getD (p + 1) none with
    | some r, some r' =>
      if r'.1 - r.2 < h then d.safCars.foldl (fun d n => let d := d.markHw n; if d.pairMoves n then d.spStop n 8 1 [p] else d) d else d
    | _, _ => d

/-- A car's body outside its reservation by more than `RES_TOL` (R181). -/
def headRes (d : Dev) (n : Nat) : Dev :=
  let inPair := (bkSepOn d.blk n && decide (n ≤ 2) && d.safCar (n + 1)) || (decide (n ≥ 1) && bkSepOn d.blk (n - 1) && d.safCar (n - 1))
  if !(d.native && inPair && d.safCar n) then d
  else match d.pRes.getD n none with
  | none => d
  | some r =>
    let tol : Int := car32 d.blk n 0x2C
    let out := decide (d.pX n - bkBot d.blk n < r.1 - tol ∨ d.pX n + bkTop d.blk n > r.2 + tol)
    let d := d.modSp n (fun c => { c with resOut := out })
    if out && !d.hwWaiver n then d.spStop n 9 1 else d

/-! ### The functions of a servo period (R258, R259, R266, R289, R294, R301) -/

/-- Whether the limits of the motion intent in force pass those of the block (R122, R266). -/
def intentMis (d : Dev) (n : Nat) : Bool :=
  match d.pInt.getD n none with
  | some i => decide (i.v > car32 d.blk n 0x20 ∨ i.d > car32 d.blk n 0x24 ∨ i.j > car32 d.blk n 0x28)
  | none => false

/-- Follow a car for one servo period of T ns: speeds, standing time, moves taken, the category-1 clock, the degraded clock. -/
def pairTrack (d : Dev) (T n : Nat) : Dev :=
  let mv := d.pairMoves n
  let mode := d.mpgMode d.holder n
  let taken := mode == 2 || mode == 3 || mode == 6
  let d := d.modSp n (fun c =>
    let still := if mv then 0 else satU 32 (c.still + T)
    { c with still := still, moved := taken || (c.moved && decide (still < bkSsT d.blk n)),
             s1 := c.s1.map (fun r => { r with t := r.t + T }), degNs := c.degNs - T })
  if (d.sp n).deg.isSome then d.put (shp .sio) SIO.CAR_DEG_LEFT_MS (((d.sp n).degNs + 999999) / 1000000) n else d

/-- v_ref(τ) of R289 in µm/s: the speed of the reference stop after τ ns; v₀ before. -/
def vRef (b : Block) (n : Nat) (r : S1Run) (tau : Int) : Int :=
  if tau < 0 then r.v0
  else
    let L : Lim := ⟨bkDS1 b n, bkDS1 b n, bkJS1 b n, bkJS1 b n⟩
    let gs := planStop L (r.v0 * unitV) (r.a0 * unitA)
    let e := advSegs ⟨0, r.v0 * unitV, r.a0 * unitA⟩ gs tau.toNat
    if e.2.isEmpty then 0 else max 0 (tdiv e.1.v unitV)

/-- The envelope check of a category-1 stop (R289, R290). -/
def pairEnv (d : Dev) (n : Nat) : Dev :=
  match (d.sp n).s1 with
  | none => d
  | some r =>
    let lim := vRef d.blk n r ((r.t : Int) - car32 d.blk n 0x80 * 1000) + car32 d.blk n 0x84
    let v := (if r.up then 1 else -1) * d.pairV n
    let d := d.put (shp .sio) SIO.CAR_ENV_UMS lim.toNat n
    if v > lim ∨ v < -(car32 d.blk n 0x84 : Int) then d.spStop n 0xB 0 [encS 32 v, encS 32 lim] else d

/-- Brake slip while the brakes are off (R294). -/
def pairSlip (d : Dev) (n : Nat) : Dev :=
  if d.on (shp .sio) SIO.CAR_RUN_BRK_ON n then d.modSp n (fun c => { c with slipP := none, slipT := none })
  else match (d.sp n).slipP with
  | none => if d.stood n then d.modSp n (fun c => { c with slipP := some (d.pX n), slipT := some (d.xT n) }) else d
  | some x =>
    let s := car32 d.blk n 0x9C
    let p := decide ((d.pX n - x).natAbs > s) && (d.pSt n == 2 || d.pSt n == 3)
    let t := d.native && d.tGood n && decide ((d.xT n - (d.sp n).slipT.getD (d.xT n)).natAbs > s)
    if (p || t) && bitN (d.sp n).causes 0xD == 0 then (d.err (shp .sfc) cBRAKE_FAULT n).spStop n 0xD 0 else d

/-- Speed and direction limits of a degraded grant (R301). -/
def pairDeg (d : Dev) (n : Nat) : Dev :=
  match (d.sp n).deg with
  | none => d
  | some w =>
    let v := if bitN w 1 == 1 then d.vT n else d.pV n
    let d := if v.natAbs > bkDegV d.blk n + 50000 then d.spStop n 0xF 0 else d
    if bitN w 2 == 0 then d
    else
      let x := if bitN w 1 == 1 then d.xT n else d.pX n
      let dx := x - (d.sp n).degAt
      let low (p : Nat) : Bool := bkSepOn d.blk p && d.safCar p && d.safCar (p + 1) &&
        decide (d.gapP p < d.headS1 p 1 + d.headS1 (p + 1) (-1) + bkHP d.blk p)
      if (dx > 50000 ∧ n ≤ 2 ∧ low n) ∨ (dx < -50000 ∧ n ≥ 1 ∧ low (n - 1)) then d.spStop n 0x11 0 else d

/-- The pair's functions of one car (R258, R266). -/
def pairCar (d : Dev) (n : Nat) : Dev :=
  if !d.safCar n then d
  else
    let b := d.blk
    let v := d.pV n
    let d := if v.natAbs > bkOvsP b n (decide (v > 0)) then d.spStop n 5 1 [encS 32 v] else d
    let d := if bitN (d.get (shp .sfc) SFC.PERMIT_RESCUE) n == 1 && decide (v.natAbs > car32 b n 0x54) then d.spStop n 7 0 [encS 32 v] else d
    let d := d.modSp n (fun c => { c with tslBad := false })
    let d := (List.range 8).foldl (fun d p =>
      let f := bkFunc b p
      if (f = 6 ∨ f = 7) ∧ (bkPCars b p).contains n then
        let tw := if f = 6 then -v else v
        let beyond := if f = 6 then decide (d.pX n < carI b n 0x4C) else decide (d.pX n > carI b n 0x50)
        let d := if d.spAct p && decide (tw > car32 b n 0x44) then (d.modSp n (fun c => { c with tslBad := true })).spStop n (d.inCause p 6) 1 [p] else d
        if beyond && !d.spAct p then
          let d := if bitN (d.sp n).causes 6 == 1 then d else d.err (shp .sfc) cSWITCH_DISAGREE n
          (d.modSp n (fun c => { c with tslBad := true })).spStop n 6 1 [p]
        else d
      else d) d
    let mis := d.intentMis n
    let d := if mis && !(d.sp n).limMis then (d.err (shp .sfc) cLIMIT_MISMATCH n).safNote (shp .sfc) cLIMIT_MISMATCH n else d
    let d := d.modSp n (fun c => { c with limMis := mis })
    let d := if mis && d.pairMoves n then d.spStop n 0xA 1 else d
    ((d.pairEnv n).pairSlip n).pairDeg n

/-- The unmet conditions of a car's permit (R259, Table 6), in every state and for every car. -/
def permitWhy (d : Dev) (n : Nat) : Nat :=
  let c := d.sp n
  let ls := (bkLandings d.blk).filter (fun l => d.meets n l && !c.bridged.contains l)
  let lAll := (bkLandings d.blk).filter (d.meets n)
  let bit (k : Nat) (b : Bool) : Nat := if b then 2 ^ k else 0
  bit 0 (!d.safRun) + bit 1 (d.on (shp .sfc) SFC.STATE_SEAL_EN || d.saf.sealFail) + bit 2 ((d.th n).causes != 0) + bit 3 (c.causes != 0) +
  bit 4 (!d.carClosed n && c.bridged.isEmpty) + bit 5 (ls.any d.lockOpen) +
  bit 6 (lAll.any (fun l => d.landSilent l || d.saf.lockDis.contains l)) + bit 7 (d.native && !d.tGood n) +
  bit 8 (!(d.pSt n == 2 || d.pSt n == 3)) + bit 9 c.limMis + bit 10 (c.hw || c.hwNow || c.resOut) +
  bit 11 ((List.range 8).any (fun p => (d.spFlt p || d.thFlt p) && (bkPCars d.blk p).contains n))

/-- The conditions a degraded grant waives (R300). -/
def waivedBits (w : Nat) : Nat := bitN w 0 * 128 + bitN w 1 * 256 + bitN w 2 * 1024

/-- Show the conditions and the permits; a granted rescue grants the motion permit (R259, R264); an output test withholds it (R308). The
STO pair of a car whose permit is granted goes on while no stop of either channel is latched for it (R283), but not in a module strapped as a
manager, whose safe output pairs stay off (R9). -/
def pairPermit (d : Dev) (n : Nat) : Dev :=
  let p := shp .sfc
  let why := d.permitWhy n
  let left := why - why.land (waivedBits ((d.sp n).deg.getD 0))
  let testing := match d.saf.test with | some (k, _) => bkOutFn d.blk k != 0 && bkOutCar d.blk k == n | none => false
  let rescue := bitN (d.get p SFC.PERMIT_RESCUE) n == 1
  let ok := d.safRun && d.safCar n && !testing && (left == 0 || rescue)
  let d := (d.put p SFC.CAR_WHY_BITS why n).putBit p SFC.PERMIT_MOTION n ok
  let d := d.both (fun d h => d.putb (pgMpg h n) MPG.STATE_PERMIT ok)
  let d := if ok && (d.sp n).causes == 0 && (d.th n).causes == 0 && !d.isManager && !d.on (shp .sio) SIO.CAR_RUN_STO_ON n then (d.put (shp .sio) SIO.CAR_RUN_STO_ON 1 n).outUpdate else d
  if ok then d.modSp n (fun c => { c with dropped := false }) else d

def permits (d : Dev) : Dev := (List.range 4).foldl pairPermit d

/-- The headway check of a servo period (R181): stops, and the permits that its conditions withdraw. -/
def headway (d : Dev) : Dev :=
  if !d.safRun then d
  else
    let d := (List.range 4).foldl (fun d n => d.modSp n (fun c => { c with hwNow := false, resOut := false })) d
    ((List.range 4).foldl headRes ((List.range 3).foldl headPair d)).permits

/-- The degraded-mode cap passed down to the generators (R113, R301). -/
def showDeg (d : Dev) (n : Nat) : Dev :=
  let on_ := (d.sp n).deg.isSome
  let d := (d.putb (shp .sio) SIO.CAR_RUN_DEG on_ n)
  let d := if on_ then d else d.put (shp .sio) SIO.CAR_DEG_LEFT_MS 0 n
  d.both (fun d h => d.modMpg h n (fun m => { m with degCap := if on_ then bkDegV d.blk n else 0 }))

/-- The configuration of inputs and outputs in force in `SIO` (R278, R309); that of no block is 0. -/
def showSio (d : Dev) (b : Block) : Dev :=
  let q := shp .sio
  let d := ((d.put q SIO.TP_PER_MS (bkTpPer b)).put q SIO.TP_SETTLE_US (bkSettle b))
  let d := (((d.put q SIO.TPW01_W0 (bkTpW b 0)).put q SIO.TPW01_W1 (bkTpW b 1)).put q SIO.TPW23_W2 (bkTpW b 2)).put q SIO.TPW23_W3 (bkTpW b 3)
  let d := (List.range 8).foldl (fun d p =>
    let d := ((d.put q SIO.PR_CFG_FUNC (bkFunc b p) p).put q SIO.PR_CFG_MODE (bkPMode b p) p).put q SIO.PR_CFG_TP_A (bkFeed b (2 * p)) p
    ((((d.put q SIO.PR_CFG_TP_B (bkFeed b (2 * p + 1)) p).put q SIO.PR_CFG_CARS (bkPMask b p) p).put q SIO.PR_CFG_LAND_LO (bkLandLo b p) p).put q
      SIO.PR_CFG_LAND_HI (bkLandHi b p) p)) d
  (List.range 8).foldl (fun d k => (d.put q SIO.SO_CFG_FUNC (bkOutFn b k) k).put q SIO.SO_CFG_CAR (bkOutCar b k) k) d

/-- Theath without a block evaluates nothing (R248, R277): no mode, demand, blanking, overload, bridging, door permit, source-T position, speed
or bin, gap or threshold. -/
def thIdle (d : Dev) : Dev :=
  let t := shp .ths
  let d := (((d.put t THS.MODE_BLOCK_OK 0).put t THS.MODE_NATIVE 0).put t THS.MODE_FOLLOWER 0).put t THS.IN_PAIR_ACT 0
  let d := (((d.put t THS.TP_LVL 0).put t THS.TP_OVL 0).put t THS.TP_BLANK 0).put t THS.CARS_T_GOOD 0
  let d := (List.range 3).foldl (fun d p => (d.put t THS.PR_GAP_UM 0 p).put t THS.PR_THR_UM 0 p) (d.modSaf (fun s => { s with spAct := 0 }))
  (List.range 4).foldl (fun d n =>
      (((((d.modTh n (fun c => { c with bridged := [], frames := [] })).put t THS.CAR_ST_LAND 0xFF n).put t THS.CAR_XT_UM 0 n).put t THS.CAR_VT_UMS 0 n).put t
        THS.CAR_ST_BIN 0 n))
    ((d.put t THS.CARS_BRIDGED 0).put t THS.CARS_DOOR_PERMIT 0)

/-- Leave RUN: every permit and output off, Theath without a block, no configuration shown in force, generators on their category-0 line
(R269, R273, R277, R278). -/
def leaveRun (d : Dev) (code : Nat) : Dev :=
  let p := shp .sfc
  let was := d.safRun
  let d := ((d.put p SFC.STATE_CODE code).thIdle).showSio []
  let d := (List.range 4).foldl (fun d n =>
    let d := if was && d.safCar n then (d.carOff n).stopLine n 0 else d
    ((((d.modSp n (fun c => { c with s1 := none, deg := none, bridged := [], excused := [] })).endRescue n).put (shp .sio) SIO.CAR_RUN_S1 0 n).put (shp .sio) SIO.CAR_ENV_UMS 0 n).showDeg n) d
  let d := (d.put (shp .sfc) SFC.PERMIT_MOTION 0).outUpdate
  (d.permits).safNote p code 0

/-- Which block `SFC` describes (R275). -/
def showBlock (d : Dev) (b : Option Block) : Dev :=
  let p := shp .sfc
  let x := b.getD []
  let d := (d.put p SFC.BLOCK_ID_ID (bkId x)).put p SFC.BLOCK_CRC_CODE (if b.isSome then sealCode x else 0)
  let d := (d.put p SFC.BLOCK_TS_LO (bU32 x 0x10)).put p SFC.BLOCK_TS_HI (bU32 x 0x14)
  ((d.put p SFC.CFG_CARS (bkCars x)).put p SFC.CFG_SEP_PAIRS (bkSep x)).put p SFC.CFG_DDECK (bkDdeck x)

/-- Whether SAFE_MODE selects native mode (R11; strap bit 3, R543). -/
def strapNative (d : Dev) : Bool := bitN (d.get (shp .bot) BOT.STRAP_RAW) 3 == 0

/-- The reason a block is refused with at a load (R269). -/
def loadWhy (d : Dev) (b : Block) : Option Nat :=
  bkWhy d.keys d.variantCars d.strapNative (d.get64 (shp .enc) ENC.DEV_ID_LO ENC.DEV_ID_HI) b

/-- The first stored copy that passes R269. -/
def firstCopy (d : Dev) : Option Block := [d.saf.copy1, d.saf.copy2].find? (fun b => (d.loadWhy b).isNone)

/-- SEAL_FAIL once every car stands after a change of SEAL[15:0] (R272, R275). -/
def sealEnd (d : Dev) : Dev :=
  if d.safRun && d.saf.sealFail && d.safCars.all (fun n => !d.pairMoves n) then
    let d := ((d.leaveRun 2).put (shp .sfc) SFC.STATE_SEAL_MATCH 0).modSaf (fun s => { s with active := none, sealFail := false })
    d.showBlock d.firstCopy
  else d

/-- The stop lines of latched stops: asserted as long as the stop holds. -/
def holdLines (d : Dev) : Dev :=
  d.safCars.foldl (fun d n =>
    if bitN (d.get (shp .sfc) SFC.STOPS_CAT0) n == 1 || (d.th n).causes != 0 then d.stopLine n 0
    else if (d.sp n).s1.isSome then d.stopLine n 1 else d) d

/-- The evaluation of the safety core pair once per servo period (R259); a car that moves in the device safe state is stopped (R292). -/
def pairServo (d : Dev) : Dev :=
  if !d.safRun then d.permits
  else
    let T := d.servoT d.holder
    let d := (d.safCars.foldl (fun d n => d.pairTrack T n) d).pairBridge
    let d := d.modSaf (fun s => { s with lockDis := s.lockDis.filter d.lockDiffers })
    let d := if d.inSafe then d.deviceStop else d
    let d := (List.range 4).foldl pairCar d.pairInputs
    let d := d.pairDoors
    (d.holdLines.permits).sealEnd

end Dev

def execHeadwayCheck (s : State) : Host.Outcome State Fault Refusal := onDev (fun d => d.headway) s

def execPairSample (t : BitVec 18) (s : State) : Host.Outcome State Fault Refusal := onDev (fun d => d.pairSample t.toNat) s

def execPairServoEval (s : State) : Host.Outcome State Fault Refusal := onDev (fun d => d.pairServo) s

def execSafeFrame (bus : Fin 4) (ident : Word) (fd : Bool) (dlc : BitVec 4) (data : List Byte) (s : State) : Host.Outcome State Fault Refusal :=
  onDev (fun d => d.safeFrame bus ident.toNat fd dlc.toNat (data.map BitVec.toNat)) s

def execStationSilent (k : Fin 260) (s : State) : Host.Outcome State Fault Refusal := onDev (fun d => d.stationSilent k) s

def execLockDisagree (l : BitVec 8) (s : State) : Host.Outcome State Fault Refusal := onDev (fun d => d.lockDisagree l.toNat) s

end Sys2Proof.Machine
end

