-- ==== Sys2Proof/Machine/SafeOut.lean ====
section
/-! DEFINITION. Safe outputs, brake and output tests, reset, degraded operation, the mailbox, the load of the safety parameter block and
its seal (spec/09_safety_architecture.md, R264, R267 to R280; spec/10_safe_stop_outputs.md, R281 to R311). -/
namespace Sys2Proof.Machine

open Sys2Proof

/-! ### Codes (R280, R311) -/
def cSF_ROLLBACK : Nat := 0xA1
def cSF_SEAL_EN : Nat := 0xA3
def cSF_CARS_MOVING : Nat := 0xA4
def cSF_NOT_GRANTED : Nat := 0xAC
def cRESET_CONTACT : Nat := 0xAE
def cNOT_STANDING : Nat := 0xAF
def cOT_DUE : Nat := 0xB2

namespace Dev

/-! ### Brake and STO sequences (R283, R284, R288, R293) -/

/-- Drop the brake of a car that stands: the BRAKE pairs go off, the slip reference is taken (R288, R294). -/
def dropBrake (d : Dev) (n : Nat) : Dev :=
  let was := d.on (shp .sio) SIO.CAR_RUN_BRK_ON n
  let d := (d.put (shp .sio) SIO.CAR_RUN_BRK_ON 0 n)
  let d := if was then d.modSp n (fun c => { c with slipP := some (d.pX n), slipT := some (d.xT n) }) else d
  (d.modSp n (fun c => { c with dropped := true })).outUpdate

/-- Standstill of a category-1 stop has held for `SS_T`: the BRAKE pairs go off (R288 step 3). -/
def s1Standstill (d : Dev) (n : Nat) : Dev :=
  match (d.sp n).s1 with
  | some r => if d.safRun && !d.pairMoves n then (d.dropBrake n).modSp n (fun c => { c with s1 := some { r with braked := true } }) else d
  | none => d

/-- `BRK_SET_T` after the brake the STO pair goes off and the stop is complete (R288 step 4). -/
def s1Off (d : Dev) (n : Nat) : Dev :=
  match (d.sp n).s1 with
  | some r =>
    if r.braked then
      (((d.put (shp .sio) SIO.CAR_RUN_STO_ON 0 n).put (shp .sio) SIO.CAR_RUN_S1 0 n).put (shp .sio) SIO.CAR_ENV_UMS 0 n).modSp n
        (fun c => { c with s1 := none }) |>.outUpdate
    else d
  | none => d

/-- Standstill is not reached by t₀ + `S1_TMAX` (R290). -/
def s1Time (d : Dev) (n : Nat) : Dev :=
  match (d.sp n).s1 with
  | some r => if r.braked then d else d.spStop n 0xC 0
  | none => d

/-- A car has stood for `SS_T` with its permit withdrawn, or with open doors and no move taken: its brake drops; with the permit withdrawn
its STO pair follows `BRK_SET_T` later (R283, R284). -/
def standDrop (d : Dev) (n : Nat) : Dev :=
  let q := shp .sio
  let permit := bitN (d.get (shp .sfc) SFC.PERMIT_MOTION) n == 1
  if !d.safRun || d.pairMoves n || (d.sp n).s1.isSome then d
  else if !permit then
    (if (d.sp n).dropped && !d.on q SIO.CAR_RUN_BRK_ON n then (d.put q SIO.CAR_RUN_STO_ON 0 n).outUpdate else d.dropBrake n)
  else if !d.carClosed n && !(d.sp n).moved then (d.dropBrake n).modSp n (fun c => { c with dropped := false })
  else d

/-- The STO pair has been on for `LIFT_T`: the BRAKE pairs go on if the doors are closed or a move has been taken (R284). A brake that has
dropped, after a stop or with the permit, while its STO pair waits for `BRK_SET_T` stays off (R283, R288). -/
def brakeLift (d : Dev) (n : Nat) : Dev :=
  let q := shp .sio
  let c := d.sp n
  let setting := c.dropped || (match c.s1 with | some r => r.braked | none => false)
  if d.safRun && d.on q SIO.CAR_RUN_STO_ON n && !setting && (d.carClosed n || c.moved) then
    ((d.put q SIO.CAR_RUN_BRK_ON 1 n).modSp n (fun c => { c with slipP := none, slipT := none })).outUpdate
  else d

/-- A reading of a pair's load current in mA. -/
def readI (d : Dev) (k i : Nat) : Dev := d.put (shp .sio) SIO.SO_RB_I i k

/-- BRAKE_FAULT of a pair's car (R293). -/
def brakeFault (d : Dev) (k : Nat) : Dev := (d.err (shp .sfc) cBRAKE_FAULT (bkOutCar d.blk k)).spStop (bkOutCar d.blk k) 0xD 0

/-- The current of a BRAKE pair `BRK_PICK_T` after it switched on (R293). -/
def brakePick (d : Dev) (k i : Nat) : Dev :=
  let d := d.readI k i
  if d.safRun && bkOutFn d.blk k == 2 && d.on (shp .sio) SIO.SO_ST_HS k && decide (i < car16 d.blk (bkOutCar d.blk k) 0x98) then d.brakeFault k else d

/-- The current of a BRAKE pair `BRK_DROP_T` after it switched off (R293). -/
def brakeDropped (d : Dev) (k i : Nat) : Dev :=
  let d := d.readI k i
  if d.safRun && bkOutFn d.blk k == 2 && !d.on (shp .sio) SIO.SO_ST_HS k && decide (i ≥ 50) then d.brakeFault k else d

/-! ### Output tests (R296 to R299) -/

/-- A pair fails (R298): its fault code; the pairs of its car go off and cause OUTPUT latches in both channels, in Theath before the off request
of the pair's stop (R287, R310); a pair whose function is OFF stops no car. -/
def outFail (d : Dev) (k code : Nat) : Dev :=
  let d := ((d.put (shp .sio) SIO.SO_ST_FCODE code k).err (shp .sio) cOUT_FAULT k).safNote (shp .sio) cOUT_FAULT k [code]
  if bkOutFn d.blk k == 0 then d
  else
    let n := bkOutCar d.blk k
    (d.thTrip n 0xE [k, code]).spStop n 0xE 0 [k, code]

/-- Readings of a pair: the voltages of its two contacts in mV and its current in mA. -/
def readBack (d : Dev) (k vp vn i : Nat) : Dev :=
  ((d.put (shp .sio) SIO.SO_RB_VP vp k).put (shp .sio) SIO.SO_RB_VN vn k).put (shp .sio) SIO.SO_RB_I i k

/-- The dark test of one switch of a pair that is on (R296). -/
def darkTest (d : Dev) (k : Nat) (low : Bool) (vp vn i : Nat) : Dev :=
  if !(d.safRun && d.on (shp .sio) SIO.SO_ST_HS k && d.on (shp .sio) SIO.SO_ST_LS k) then d
  else
    let d := d.readBack k vp vn i
    if low then (if i < 50 then d else d.outFail k 2) else (if vp < 5000 then d else d.outFail k 1)

/-- The split test of one switch of a pair that is off (R297); `cross` says that the level appeared at another pair. -/
def splitTest (d : Dev) (k : Nat) (low : Bool) (vp vn i : Nat) (cross : Bool) : Dev :=
  if !(d.safRun && !d.on (shp .sio) SIO.SO_ST_HS k) then d
  else
    let d := d.readBack k vp vn i
    if cross then d.outFail k 7
    else if low then (if vp ≥ 5000 then d.outFail k 1 else if vn ≥ 5000 then d.outFail k 4 else d)
    else if vp < 5000 then d.outFail k 3 else if vn < 5000 ∨ i ≥ 50 then d.outFail k 2 else d

/-- Whether a pair of a car is due for OUTPUT_TEST (R299). -/
def otDue (d : Dev) (n : Nat) : Bool :=
  (List.range 8).any (fun k => bkOutFn d.blk k != 0 && bkOutCar d.blk k == n && decide (d.get (shp .sio) SIO.SO_OT_HOURS k ≥ bkOtDue d.blk))

/-- The hours of a pair have reached `OT_DUE` (R299). -/
def otReached (d : Dev) (k : Nat) : Dev :=
  if d.saf.active.isSome && bkOutFn d.blk k != 0 && decide (d.get (shp .sio) SIO.SO_OT_HOURS k ≥ bkOtDue d.blk) then
    let n := bkOutCar d.blk k
    ((d.put (shp .sio) SIO.CAR_RUN_OT_DUE 1 n).err (shp .sio) cOT_DUE k).safNote (shp .sio) cOT_DUE k
  else d

/-- One hour since the last pass of every pair (R299). -/
def otHour (d : Dev) : Dev :=
  (List.range 8).foldl (fun d k =>
    let was := d.get (shp .sio) SIO.SO_OT_HOURS k
    let d := d.bump (shp .sio) SIO.SO_OT_HOURS k
    if was + 1 = bkOtDue d.blk then d.otReached k else d) d

/-! ### Reset (R303 to R306) -/

def contactSp : List Nat := [0x02, 0x04, 0x05, 0x0B, 0x0C, 0x0D, 0x0E, 0x0F, 0x10, 0x11, 0x12, 0x15]
def contactTh : List Nat := [2, 4, 5, 7, 0xB, 0xC, 0xE]

/-- Whether a press of a RESET contact of the car falls within `RST_WIN` (R304); time-stamps count 2³² in a second. -/
def pressed (d : Dev) (n : Nat) : Bool := match (d.sp n).press with
  | some t => decide (d.now ≤ t + bkRstWin d.blk * 65536)
  | none => false

/-- The faulted pairs whose mask names a car of a set. -/
def fltOf (d : Dev) (cars : List Nat) : List Nat :=
  (List.range 8).filter (fun p => (d.thFlt p || d.spFlt p) && cars.any (fun n => (bkPCars d.blk p).contains n))

/-- Whether a pair has passed every check for a full `TP_PER` (R256, R303). -/
def pairClean (d : Dev) (p : Nat) : Bool := bitN d.saf.clean p == 1 && bitN d.saf.badNow p == 0

/-- Whether a pair of one of the functions that names the car is in demand in the pair's evaluation, its fault left out. -/
def spDemand (d : Dev) (n : Nat) (fs : List Nat) : Bool :=
  (List.range 8).any (fun p => fs.contains (bkFunc d.blk p) && (bkPCars d.blk p).contains n && bitN d.saf.spAct p == 1)
def thDemand (d : Dev) (n : Nat) (fs : List Nat) : Bool :=
  (List.range 8).any (fun p => fs.contains (bkFunc d.blk p) && (bkPCars d.blk p).contains n && d.pairDem d.saf.thLvl p)

def outputsOk (d : Dev) (n : Nat) : Bool :=
  (List.range 8).all (fun k => bkOutFn d.blk k == 0 || bkOutCar d.blk k != n || d.get (shp .sio) SIO.SO_ST_FCODE k == 0)

/-- Whether the doors and locks that concern a car are closed or excused in the pair's evaluation. -/
def doorsOk (d : Dev) (n : Nat) : Bool :=
  (d.carClosed n || !(d.sp n).bridged.isEmpty) && (bkLandings d.blk).all (fun l => !d.meets n l || (d.sp n).bridged.contains l || !d.lockOpen l)

/-- Whether the condition behind a latched cause of the pair has cleared (R303). -/
def spCleared (d : Dev) (n c : Nat) : Bool :=
  match c with
  | 0x01 => !d.spDemand n [1]
  | 0x02 => !d.spDemand n [4, 5]
  | 0x03 | 0x04 => d.doorsOk n
  | 0x06 => !(d.sp n).tslBad
  | 0x08 => !(d.sp n).hwNow
  | 0x09 => !(d.sp n).resOut
  | 0x0A => !(d.sp n).limMis
  | 0x0E => d.outputsOk n
  | 0x12 => !d.spDemand n [1, 4, 5] && d.doorsOk n
  | 0x13 => !d.on (shp .sfc) SFC.STATE_SEAL_EN && !d.saf.sealFail
  | 0x14 => !d.inSafe
  | _ => true

/-- Whether the condition behind a latched trip of Theath has cleared in its own evaluation (R303). -/
def thCleared (d : Dev) (n c : Nat) : Bool :=
  let door (p : Nat) : Bool := d.thExcused p n
  let doors := (List.range 8).all (fun p => !([2, 3].contains (bkFunc d.blk p) && (bkPCars d.blk p).contains n && d.pairDem d.saf.thLvl p) || door p)
  match c with
  | 1 => !d.thDemand n [1]
  | 2 => !d.thDemand n [4, 5]
  | 3 | 5 => doors
  | 4 => decide ((d.vT n).natAbs ≤ bkOvsT d.blk n (decide (d.vT n > 0)))
  | 6 => (!d.thDemand n [6] || decide (-(d.vT n) ≤ car32 d.blk n 0x48)) && (!d.thDemand n [7] || decide (d.vT n ≤ car32 d.blk n 0x48))
  | 7 => (List.range 3).all (fun p => !d.sepOn p || d.sepWaived p || !(p == n || p + 1 == n) || decide (d.gapT p ≥ d.thrT p))
  | 8 => (n :: d.sepNeighbours n).all (fun m => d.tGood m || (d.th m).waiveT)
  | 9 => d.tGood n || (d.th n).waiveT
  | 0xA => decide ((d.vT n).natAbs ≤ car32 d.blk n 0x58)
  | 0xB => !d.thDemand n [1, 4, 5] && doors
  | 0xC => d.on (shp .ths) THS.MODE_HB_OK
  | 0xE => d.outputsOk n
  | _ => true

/-- Clear the stops of a car in both channels, and what they left. The references of the brake-slip watch stay (R294), but a reset BRAKE stop begins
the watch anew: its slip could never be reset otherwise (notes/assumptions/71.md). -/
def clearCar (d : Dev) (n : Nat) : Dev :=
  let d := (d.modSp n (fun c =>
    let slipped := bitN c.causes 0xD == 1
    { c with causes := 0, s1 := none, hw := false, chain := 0, slipP := if slipped then none else c.slipP,
             slipT := if slipped then none else c.slipT })).modTh n (fun t => { t with causes := 0, offReq := false, chain := 0 })
  let d := ((d.putBit (shp .sfc) SFC.STOPS_CAT0 n false).putBit (shp .sfc) SFC.STOPS_CAT1 n false).put (shp .sio) SIO.CAR_RUN_CAUSE 0 n
  let d := ((d.put (shp .sio) SIO.CAR_RUN_S1 0 n).put (shp .sio) SIO.CAR_ENV_UMS 0 n).put (shp .ths) THS.CAR_ST_CAUSE 0 n
  let d := d.putBit (shp .ths) THS.CARS_TRIP n false
  d.both (fun d h => d.modMpg h n (fun m => { m with stopLine := 0 }))

def clearFlt (d : Dev) (p : Nat) : Dev := (d.putBit (shp .ths) THS.IN_PAIR_FLT p false).putBit (shp .sfc) SFC.STOPS_PAIR_FLT p false

/-- The bits of a word, lowest first. -/
def causeBits (m : Nat) : List Nat := (List.range 32).filter (fun c => bitN m c == 1)

/-- Whether a cause latched for a car needs a press of the RESET contact (R304). -/
def needsPress (d : Dev) (n : Nat) : Bool := (causeBits (d.sp n).causes).any contactSp.contains || (causeBits (d.th n).causes).any contactTh.contains

/-- The reason a RESET is refused with, if any, in the order of R303, and the car or the faulted pair it is refused for (R280). -/
def resetWhy (d : Dev) (cars : List Nat) : Option (Nat × Nat) :=
  let first (code : Nat) (xs : List Nat) (bad : Nat → Bool) : Option (Nat × Nat) := (xs.find? bad).map (fun n => (code, n))
  (first cNOT_STANDING cars d.pairMoves).or <|
  (first cSF_NOT_GRANTED (d.fltOf cars) (fun p => !d.pairClean p)).or <|
  (first cSF_NOT_GRANTED cars (fun n => (causeBits (d.sp n).causes).any (fun c => !d.spCleared n c) || ((d.sp n).hw && (d.sp n).hwNow))).or <|
  (first cRESET_CONTACT cars (fun n => d.needsPress n && !d.pressed n)).or <|
  first cSF_NOT_GRANTED cars (fun n => (causeBits (d.th n).causes).any (fun c => !d.thCleared n c))

/-- The effect of an accepted RESET (R303, R306). -/
def resetDo (d : Dev) (cars : List Nat) : Dev :=
  let d := (d.fltOf cars).foldl clearFlt d
  let d := cars.foldl clearCar d
  let d := (List.range 3).foldl (fun d p => if cars.contains p || cars.contains (p + 1) then d.put (shp .ths) THS.PR_ST_TRIP 0 p else d) d
  d.outUpdate.permits

/-- A press of a RESET pair: in demand for 100 ms to 5 s and then released (R304). -/
def resetPress (d : Dev) (p ms : Nat) : Dev :=
  if d.safRun && bkFunc d.blk p == 8 && decide (100 ≤ ms ∧ ms ≤ 5000) then
    (bkPCars d.blk p).foldl (fun d n => d.modSp n (fun c => { c with press := some d.now })) d
  else d

/-! ### Rescue and degraded operation (R264, R300 to R302) -/

/-- The CHAIN pairs of a car's `RSC_CHAIN` mask. -/
def chainMask (d : Dev) (n : Nat) : Nat :=
  ((List.range 8).map (fun p => if bkFunc d.blk p == 1 then bitN (car8 d.blk n 0xA0) p * 2 ^ p else 0)).sum

/-- Whether the latched stops of a car are no more than CHAIN stops that a rescue admits (R264, R306): the pair's CHAIN, Theath's CHAIN
and the PAIR or FOLLOW stop that goes with it, every CHAIN pair that latched or is in demand in the mask. -/
def rescueAdmits (d : Dev) (n : Nat) : Bool :=
  let took (p : Nat) : Bool := bitN (d.sp n).chain p == 1 || bitN (d.th n).chain p == 1
  let ok := (List.range 8).all (fun p =>
    !(took p || (bkFunc d.blk p == 1 && (bkPCars d.blk p).contains n && (d.spAct p || d.thFlt p))) || bitN (d.chainMask n) p == 1)
  ((d.sp n).causes == 0 && (d.th n).causes == 0) ||
  (ok && ((d.sp n).causes.lor 2) == 2 && (((d.th n).causes.lor (2 + 2 ^ 0xD + 2 ^ 0xF)) == 2 + 2 ^ 0xD + 2 ^ 0xF))

/-- RESCUE: the reason of a refusal (R264). -/
def rescueWhy (d : Dev) (n : Nat) : Option Nat :=
  if d.safRun && d.safCar n && car8 d.blk n 0x5C == 1 && !d.pairMoves n && d.rescueAdmits n && d.doorsOk n then none else some cSF_NOT_GRANTED

/-- Grant the rescue permit: the admitted CHAIN stop is cleared and its pairs are ignored while it lasts (R264, R306). -/
def rescueDo (d : Dev) (n : Nat) : Dev :=
  let m := d.chainMask n
  let d := if (d.sp n).causes != 0 || (d.th n).causes != 0 then d.clearCar n else d
  let d := (d.modSp n (fun c => { c with rscChain := m })).modTh n (fun t => { t with rscChain := m })
  ((d.putBit (shp .sfc) SFC.PERMIT_RESCUE n true).outUpdate).permits

/-- End a degraded grant; the normal permit rules then apply (R302). -/
def degEnd (d : Dev) (n : Nat) : Dev :=
  (((d.modSp n (fun c => { c with deg := none, degNs := 0 })).modTh n (fun t => { t with waiveT := false, waiveH := false })).showDeg n)

/-- DEGRADED: the reason of a refusal (R300); after `DEG_T` has run out a RESET comes first (R302). -/
def degWhy (d : Dev) (n w : Nat) : Option Nat :=
  let b := d.blk
  let spGone : List Nat := if bitN w 2 == 1 then [8] else []
  let thGone : List Nat := (if bitN w 0 == 1 then [8, 9] else []) ++ (if bitN w 2 == 1 then [7] else [])
  let nb := (List.range 3).flatMap (fun p => if bkSepOn b p then (if p = n then [p + 1] else if p + 1 = n then [p] else []) else [])
  let why := d.permitWhy n
  let left := why - why.land (waivedBits w)
  let stopsOk := bitN (d.sp n).causes 0x10 == 0 && (causeBits (d.sp n).causes).all (fun c => spGone.contains c || d.spCleared n c) &&
    (causeBits (d.th n).causes).all (fun c => thGone.contains c || [0xD, 0xF].contains c || d.thCleared n c)
  if !d.native then some cSAFETY
  else if !d.safRun || !d.safCar n || !bkDegEn b n || w.land (bkDegWaive b n) ≠ w || (bitN w 0 == 1 && bitN w 1 == 1) then some cSF_NOT_GRANTED
  else if d.pairMoves n then some cNOT_STANDING
  else if !d.pressed n then some cRESET_CONTACT
  else if bitN w 2 == 1 && nb.any (fun m => d.safCar m && d.pairMoves m) then some cSF_NOT_GRANTED
  else if left.land (0x3F3) ≠ 0 || (bitN w 2 == 0 && ((d.sp n).hwNow || (d.sp n).resOut)) || !stopsOk || !((d.fltOf [n]).all d.pairClean) then some cSF_NOT_GRANTED
  else none

/-- Grant degraded operation: the stops whose causes lie in the waived conditions are cleared, the permit follows (R300, R301). -/
def degDo (d : Dev) (n w : Nat) : Dev :=
  let spGone := (if bitN w 2 == 1 then 2 ^ 8 else 0)
  let thGone := (if bitN w 0 == 1 then 2 ^ 8 + 2 ^ 9 else 0) + (if bitN w 2 == 1 then 2 ^ 7 else 0)
  let drop (m g : Nat) : Nat := m - m.land g
  let d := d.modSp n (fun c => { c with causes := drop c.causes spGone, hw := if bitN w 2 == 1 then false else c.hw, deg := some w,
                                        degNs := bkDegT d.blk n * 1000000000, degAt := if bitN w 1 == 1 then d.xT n else d.pX n })
  let d := d.modTh n (fun t => { t with causes := drop t.causes thGone, waiveT := bitN w 0 == 1, waiveH := bitN w 2 == 1 })
  let d := if (d.th n).causes == 0 then (d.putBit (shp .ths) THS.CARS_TRIP n false).put (shp .ths) THS.CAR_ST_CAUSE 0 n else d
  let d := if (d.sp n).causes == 0 then
      (((((d.putBit (shp .sfc) SFC.STOPS_CAT0 n false).putBit (shp .sfc) SFC.STOPS_CAT1 n false).put (shp .sio) SIO.CAR_RUN_CAUSE 0 n).put
        (shp .sio) SIO.CAR_RUN_S1 0 n).put (shp .sio) SIO.CAR_ENV_UMS 0 n).modSp n (fun c => { c with s1 := none })
    else d
  let d := if (d.sp n).causes == 0 && (d.th n).causes == 0 then d.both (fun d h => d.modMpg h n (fun m => { m with stopLine := 0 })) else d
  let d := (d.put (shp .sio) SIO.CAR_DEG_LEFT_MS (bkDegT d.blk n * 1000) n).showDeg n
  d.outUpdate.permits

/-- `DEG_T` has run out (R302). -/
def degTime (d : Dev) (n : Nat) : Dev := if (d.sp n).deg.isSome then ((d.spStop n 0x10 0).degEnd n).permits else d

/-- The waived conditions have held for `SS_T`: the grant ends (R302). -/
def degRecovered (d : Dev) (n : Nat) : Dev :=
  match (d.sp n).deg with
  | some w =>
    let d0 := d.modSp n (fun c => { c with deg := none })
    if (d0.permitWhy n).land (waivedBits w) == 0 then (d.degEnd n).permits else d
  | none => d

/-! ### The mailbox (R276, R308) -/

def smbReply (d : Dev) (why : Option Nat) (d0 d1 : Nat) : Dev :=
  let p := shp .smb
  ((((d.put p SMB.REP_STATE (if why.isSome then 3 else 2)).put p SMB.REP_REASON (why.getD 0)).put p SMB.REP_DATA0 d0).put p SMB.REP_DATA1 d1).stat p 0

/-- A refused request: the reply's reason, and the code in `ERR` with the car or the pair (R280). -/
def smbRefuse (d : Dev) (why n : Nat) : Dev := (d.err (shp .smb) why n).smbReply (some why) 0 0

/-- OUTPUT_TEST begins (R308): the permit is withdrawn, the brake drops and the pair is held fully off. -/
def testStart (d : Dev) (k ms tag : Nat) : Dev :=
  let n := bkOutCar d.blk k
  let f := bkOutFn d.blk k
  if k > 7 ∨ ms < 50 ∨ ms > 2000 then d.smbRefuse cRANGE k
  else if !d.safRun then d.smbRefuse cSF_NOT_GRANTED k
  else if f ≠ 0 && d.pairMoves n then d.smbRefuse cNOT_STANDING n
  else
    let d := d.modSaf (fun s => { s with test := some (k, tag) })
    let d := if f = 0 then d else (d.dropBrake n)
    let d := if f = 1 then d.put (shp .sio) SIO.CAR_RUN_STO_ON 0 n else d
    (d.outUpdate).permits

/-- A request of the mailbox (R276): one at a time; in FAULT the pair answers none. -/
def smbGo (d : Dev) : Dev :=
  let p := shp .smb
  if d.get p SMB.REP_STATE == 1 then d.err p cBUSY
  else
    let op := d.get p SMB.REQ_OP_OP
    let a0 := d.get p SMB.REQ_ARG0_V
    let a1 := d.get p SMB.REQ_ARG1_V
    let tag := d.get p SMB.REQ_TAG_TAG
    let d := ((((d.put p SMB.REP_STATE 1).put p SMB.REP_REASON 0).put p SMB.REP_TAG tag).put p SMB.REP_DATA0 0).put p SMB.REP_DATA1 0
    if d.get (shp .sfc) SFC.STATE_CODE == 5 then d
    else match op with
    | 1 => d.smbReply none (d.get (shp .sfc) SFC.BLOCK_ID_ID) (d.get (shp .sfc) SFC.BLOCK_CRC_CODE + 65536 * d.get (shp .sfc) SFC.STATE_CODE)
    | 2 =>
      if a0 > 3 then d.smbRefuse cSF_NOT_GRANTED a0
      else if a1 % 2 = 0 then ((d.endRescue a0).permits).smbReply none 0 0
      else match d.rescueWhy a0 with
        | some r => d.smbRefuse r a0
        | none => (d.rescueDo a0).smbReply none 0 0
    | 3 =>
      let cars := d.safCars.filter (fun n => bitN a0 n == 1)
      if !d.safRun then d.smbRefuse cSF_NOT_GRANTED 0
      else match d.resetWhy cars with
        | some (r, n) => d.smbRefuse r n
        | none => (d.resetDo cars).smbReply none 0 0
    | 4 =>
      if a0 > 3 then d.smbRefuse cSF_NOT_GRANTED a0
      else if a1 % 2 = 0 then ((d.degEnd a0).permits).smbReply none 0 0
      else match d.degWhy a0 (a1 / 2 % 8) with
        | some r => d.smbRefuse r a0
        | none => (d.degDo a0 (a1 / 2 % 8)).smbReply none 0 0
    | 5 => d.testStart a0 a1 tag
    | _ => d.smbRefuse cRANGE op

/-- The output test ends with its readings (R299, R308): pass with no voltage at either contact and no current left. The fault code of a voltage at
SOk− alone, which Table 4 gives none, is free. -/
def testDone (d : Dev) (vp vn i : Nat) : Dev :=
  match d.saf.test with
  | none => d
  | some (k, _) =>
    let d := (d.modSaf (fun s => { s with test := none })).readBack k vp vn i
    if vp < 5000 ∧ vn < 5000 ∧ i < 50 then
      let d := (d.put (shp .sio) SIO.SO_OT_HOURS 0 k).put (shp .sio) SIO.SO_ST_FCODE 0 k
      let n := bkOutCar d.blk k
      let d := if bkOutFn d.blk k == 0 then d else d.putb (shp .sio) SIO.CAR_RUN_OT_DUE (d.otDue n) n
      ((d.outUpdate).permits).smbReply none 0 0
    else
      let r := d.fresh
      let c := if vp ≥ 5000 then (1, d) else if i ≥ 50 then (2, d) else (1 + r.1.toNat % 7, r.2)
      (((c.2.outFail k c.1).outUpdate).permits).smbReply (some cOUT_FAULT) 0 0

/-- An abort of SMB ends an output test in progress: its reply is REJECTED with ABORTED (R67). -/
def abortSmb (d : Dev) : Dev :=
  let d := if d.saf.test.isSome then (((d.modSaf (fun s => { s with test := none })).outUpdate).permits).smbReply (some cABORTED) 0 0 else d
  d.abortPage (shp .smb) true

/-! ### FAULT (R247, R273) -/

/-- The safety region enters FAULT: every high side off; the value of `FAULT.CODE` is open. -/
def safFault (d : Dev) : Dev :=
  if d.get (shp .sfc) SFC.STATE_CODE == 5 then d
  else
    let (w, d) := d.fresh
    ((d.leaveRun 5).put (shp .sfc) SFC.FAULT_CODE (w.toNat % 256)).put (shp .sfc) SFC.FAULT_DETAIL (w.toNat / 256)

/-! ### The block in force (R269, R272, R275, R278) -/

/-- The levels of the SEAL[15:0] and SEAL_EN contacts. -/
def sealPins (d : Dev) (sw : Nat) (en : Bool) : Dev := d.modSaf (fun s => { s with pinSeal := sw, pinEn := en })

/-- The safety core pair reads the contacts (R272): a change of either is recorded; in RUN a change of SEAL[15:0] or a closing SEAL_EN
withdraws every permit, a rescue permit too, and stops the moving cars by category 1, and a change of SEAL[15:0], even back to the active code,
leads to SEAL_FAIL once every car stands. -/
def readSeal (d : Dev) : Dev :=
  let p := shp .sfc
  let sw := d.saf.pinSeal
  let en := d.saf.pinEn
  let sw0 := d.get p SFC.STATE_SEAL_SW
  let en0 := d.on p SFC.STATE_SEAL_EN
  let d := if !d.saf.pinRead || (sw == sw0 && en == en0) then d else d.safNote p 0 0 [sw0, sw, en.toNat]
  let d := ((d.put p SFC.STATE_SEAL_SW sw).putb p SFC.STATE_SEAL_EN en).modSaf (fun s => { s with pinRead := true })
  if !d.safRun then d
  else
    let off := decide (sw ≠ d.get p SFC.BLOCK_CRC_CODE)
    let d := (d.putb p SFC.STATE_SEAL_MATCH !off).modSaf (fun s => { s with sealFail := s.sealFail || off || decide (sw ≠ sw0) })
    if sw ≠ sw0 ∨ (en ∧ ¬en0) then
      (List.range 4).foldl (fun d n => let d := d.endRescue n; if d.pairMoves n then d.spStop n 0x13 1 else d) d
    else d

/-- Enter RUN with a block (R269, R273, R305): cars and channels begin anew, every station is silent, every enabled car has a stop with
cause START, the TP lines are driven; an output test goes on to its end (R308). -/
def enterRun (d : Dev) (b : Block) : Dev :=
  let p := shp .sfc
  let t := shp .ths
  let ch := d.get t THS.IN_CH
  let d := ((d.put p SFC.STATE_CODE 3).put p SFC.STATE_SEAL_MATCH 1).showBlock (some b)
  let d := d.showSio b
  let d := d.modSaf (fun s => { Saf.init with active := some b, copy1 := s.copy1, copy2 := s.copy2, thLvl := ch, spLvl := ch, hbRun := s.hbRun,
                                              deviceSafe := s.deviceSafe, test := s.test, pinSeal := s.pinSeal, pinEn := s.pinEn, pinRead := s.pinRead })
  let d := (((d.put t THS.MODE_BLOCK_OK 1).putb t THS.MODE_NATIVE d.native).putb t THS.MODE_FOLLOWER (!d.native)).put t THS.TP_BLANK 0
  let d := (d.put t THS.TP_OVL 0).put t THS.TP_LVL ((List.range 4).map (fun k => if bkTpW b k = 0 then 0 else 2 ^ k)).sum
  let d := ((d.put t THS.IN_PAIR_FLT 0).put p SFC.STOPS_PAIR_FLT 0).put t THS.CARS_T_GOOD 0
  let d := (List.range 4).foldl (fun d n =>
    (((((d.clearCar n).put t THS.CAR_XT_UM 0 n).put t THS.CAR_VT_UMS 0 n).put t THS.CAR_ST_BIN 0 n).put (shp .sio) SIO.CAR_RUN_BRK_ON 0 n).put (shp .sio) SIO.CAR_RUN_STO_ON 0 n)
    ((List.range 3).foldl (fun d p => d.put t THS.PR_ST_TRIP 0 p) d)
  let d := d.safCars.foldl (fun d n =>
    ((d.modSp n (fun c => { c with causes := 2 ^ 0x15 })).put (shp .sio) SIO.CAR_RUN_CAUSE 0x15 n).safNote p 0x15 n) d
  let d := (d.modSaf (fun s => { s with spAct := d.demMask ch })).showDem
  (((d.safNote p 3 0).showDoors).outUpdate).permits

/-- The last refusal, in `SFC.FAULT` (R275). -/
def lastRefusal (d : Dev) (why detail : Nat) : Dev := (d.put (shp .sfc) SFC.FAULT_CODE why).put (shp .sfc) SFC.FAULT_DETAIL detail

/-- A block is refused (R187, R269): `ERR` of the page and `SFC.FAULT`, with the number of the check, which the spec does not fix. -/
def blockRefused (d : Dev) (p why : Nat) (b : Block) : Dev :=
  let (x, d) := d.fresh
  (d.err p (bkCode b why) x.toNat).lastRefusal why x.toNat

/-- The load in START (R269): self-test, contacts, copy 1 and then copy 2. -/
def safStart (d : Dev) (selfTest : Bool) (sw : Nat) (en : Bool) : Dev :=
  let p := shp .sfc
  if d.get p SFC.STATE_CODE ≠ 0 then d
  else if !selfTest then d.safFault
  else
    let d := ((d.putb p SFC.STATE_MODE (!d.strapNative)).sealPins sw en).readSeal
    let w1 := d.loadWhy d.saf.copy1
    let w2 := d.loadWhy d.saf.copy2
    let refuse (d : Dev) (w : Option Nat) (b : Block) : Dev := match w with
      | some r => d.blockRefused p r b
      | none => d
    if w1.isNone ∧ sealCode d.saf.copy1 = sw then d.enterRun d.saf.copy1
    else if w2.isNone ∧ sealCode d.saf.copy2 = sw then (refuse d w1 d.saf.copy1).enterRun d.saf.copy2
    else
      let d := (refuse (refuse d w1 d.saf.copy1) w2 d.saf.copy2).put p SFC.STATE_SEAL_MATCH 0
      let st := if w1.isNone ∨ w2.isNone then 2 else 1
      ((d.put p SFC.STATE_CODE st).showBlock d.firstCopy).safNote p st 0

/-- The poll of SEAL and SEAL_EN (R272): in RUN the pair reads them; in SEAL_FAIL too, and a return to the code of a valid stored copy
leads to START. -/
def sealPoll (d : Dev) (sw : Nat) (en : Bool) : Dev :=
  let p := shp .sfc
  let d := d.sealPins sw en
  if d.safRun then d.readSeal.permits.sealEnd
  else if d.get p SFC.STATE_CODE == 2 then
    let d := d.readSeal
    let ok (b : Block) : Bool := (d.loadWhy b).isNone && sealCode b == sw
    if ok d.saf.copy1 || ok d.saf.copy2 then ((d.put p SFC.STATE_CODE 0).showBlock none).safNote p 0 0 else d
  else d

/-! ### SPB (R270, R271, R279) -/

/-- The candidate as a block. -/
def candidate (d : Dev) : Block :=
  (List.range 3392).filterMap (fun a => let w := d.get (shp .spb) SPB.DATA_WORD 0 a; if w = 0 then none else some (a, BitVec.ofNat 32 w))

def spbStatus (d : Dev) (st reason detail : Nat) : Dev :=
  ((d.put (shp .spb) SPB.STATUS_STATE st).put (shp .spb) SPB.STATUS_REASON reason).put (shp .spb) SPB.STATUS_DETAIL detail

def setCandidate (d : Dev) (b : Block) : Dev :=
  let d := (List.range 3392).foldl (fun d a => d.put (shp .spb) SPB.DATA_WORD ((rfFind a b).getD 0).toNat 0 a) d
  (d.put (shp .spb) SPB.CAND_ID_ID (bkId b)).spbStatus 0 0 0

/-- A write of `SPB.DATA`: the word is stored, `ADDR` advances, the state returns to IDLE (R271, R279). -/
def spbData (d : Dev) (v : Nat) : Dev :=
  let p := shp .spb
  let a := d.get p SPB.ADDR_WORD
  let d := (d.put p SPB.DATA_WORD v 0 a).put p SPB.ADDR_WORD (if a = 3391 then 0 else a + 1)
  let d := if a = 3 then d.put p SPB.CAND_ID_ID v else d
  d.spbStatus 0 0 0

/-- VERIFY ends (R269, R270): a new block must also exceed the active one. -/
def spbVerified (d : Dev) : Dev :=
  let p := shp .spb
  if d.get p SPB.STATUS_STATE ≠ 1 then d
  else
    let b := d.candidate
    let why := match d.loadWhy b with
      | some r => some r
      | none => if bkId b ≤ d.get (shp .sfc) SFC.BLOCK_ID_ID then some cSF_ROLLBACK else none
    match why with
    | none => d.spbStatus 2 0 0
    | some r => let (w, d) := d.fresh; ((d.err p (bkCode b r) w.toNat).lastRefusal r w.toNat).spbStatus 3 r w.toNat

/-- A car above the speed at which SEAL is accepted, by either source (R271); v_T counts while source T is good. -/
def sealMoving (d : Dev) : Option Nat :=
  (List.range 4).find? (fun n => (d.safCar n || d.pSt n ≥ 1) && (d.tGood n && decide ((d.vT n).natAbs > 1000) || decide ((d.pV n).natAbs > 1000)))

/-- SEAL (R271, R272): the contacts are read and the conditions tested in order; on acceptance the candidate and the group whose authorisation
seals it are kept, the region enters SEALING and every output goes off. -/
def spbSeal (d : Dev) (g : Nat) : Dev :=
  let p := shp .spb
  let st := d.get (shp .sfc) SFC.STATE_CODE
  let fails (d : Dev) (r detail : Nat) : Dev := ((((d.err p r detail).lastRefusal r detail).spbStatus 3 r 0).permits).sealEnd
  let d := d.readSeal
  if st ≠ 1 ∧ st ≠ 2 ∧ st ≠ 3 then d
  else if d.get p SPB.STATUS_STATE ≠ 2 then (let (w, d) := d.fresh; fails d (w.toNat % 256) 0)
  else if !d.saf.pinEn then fails d cSF_SEAL_EN 0
  else match d.sealMoving with
  | some n => fails d cSF_CARS_MOVING n
  | none =>
    if sealCode d.candidate ≠ d.saf.pinSeal then fails d cSEAL 0
    else ((d.leaveRun 4).modSaf (fun s => { s with sealing := some (d.candidate, g) })).spbStatus 1 0 0

/-- Where a copy of the active block lies in the configuration partition (R36, R267): each copy in a half of the partition, at a place that the
spec does not give (notes/assumptions/62.md). -/
def copyAt (i : Nat) : Nat := 0x20000000 + i * 0x2000000 + Config.copyPlace i % (0x2000000 - 0x3500)

/-- Write one copy of a block to MRAM. -/
def storeCopy (d : Dev) (i : Nat) (b : Block) : Dev := { d with mram := memWrites d.mram (copyAt i) ((bkBytes b 0 0x3500).map (BitVec.ofNat 8)) }

/-- The commit of SEALING ends (R271): both copies written, the record posted, restart from START. The block is the candidate as it was when
SEAL was accepted; the record names the role and key of the authorisation that sealed it. -/
def sealDone (d : Dev) : Dev :=
  let p := shp .sfc
  if d.get p SFC.STATE_CODE ≠ 4 then d
  else
    let (b, g) := d.saf.sealing.getD ([], 0)
    let d := d.safNote p 4 0 ([d.get p SFC.BLOCK_ID_ID, d.get p SFC.BLOCK_CRC_CODE, bkId b, sealCode b, d.get (shp .enc) ENC.AUTH_ROLE 0 g] ++
      (List.range 4).map (fun i => d.get (shp .enc) ENC.AUTH_KEY i g))
    let d := ((d.storeCopy 0 b).storeCopy 1 b).modSaf (fun s => { s with active := none, copy1 := b, copy2 := b, sealing := none })
    (((d.put p SFC.STATE_CODE 0).showBlock none).put p SFC.STATE_SEAL_MATCH 0).spbStatus 4 0 0

/-- An abort of SPB (R67): a verification in progress ends FAILED with ABORTED. A seal in progress ends too: the copies are not written and the
region returns to START with those it has, which the spec does not state (notes/assumptions/71.md). -/
def abortSpb (d : Dev) : Dev :=
  let d := if d.get (shp .spb) SPB.STATUS_STATE == 1 then d.spbStatus 3 cABORTED 0 else d
  let d := if d.saf.sealing.isSome then ((d.modSaf (fun s => { s with active := none, sealing := none })).put (shp .sfc) SFC.STATE_CODE 0).showBlock none else d
  d.abortPage (shp .spb) true

/-- The group whose authorisation carries the safety-engineer role: the sender of a command that names none (R271). -/
def sealGrp (d : Dev) : Nat := ((List.range 3).find? (fun g => d.get (shp .enc) ENC.AUTH_ROLE 0 g == 3)).getD 0

/-- A write of `SPB.CMD.OP` by a group (R279); while a verification or a seal runs, a command is refused with BUSY. -/
def spbCmd (d : Dev) (op g : Nat) : Dev :=
  let p := shp .spb
  if d.get p SPB.STATUS_STATE == 1 then d.err p cBUSY
  else match op with
  | 1 => d.setCandidate []
  | 2 => d.spbStatus 1 0 0
  | 3 => d.spbSeal g
  | 4 => d.setCandidate d.blk
  | _ => d.err p cRANGE

end Dev

/-! ### Meanings -/

def execTclkCheck (off stale : Bool) (s : State) : Host.Outcome State Fault Refusal := onDev (fun d => if off || stale then d.safFault else d) s
def execLockstepMismatch (s : State) : Host.Outcome State Fault Refusal := onDev (fun d => d.safFault) s

/-- Firmware's write of a mailbox request and of `REQ_GO` (R276). -/
def Dev.smbSend (d : Dev) (op a0 a1 tag : Nat) : Dev :=
  let p := shp .smb
  ((((d.put p SMB.REQ_OP_OP op).put p SMB.REQ_ARG0_V a0).put p SMB.REQ_ARG1_V a1).put p SMB.REQ_TAG_TAG tag).smbGo

def execSmbInfo (tag : BitVec 16) (s : State) : Host.Outcome State Fault Refusal := onDev (fun d => d.smbSend 1 0 0 tag.toNat) s
def execSmbRescue (car request : Word) (tag : BitVec 16) (s : State) : Host.Outcome State Fault Refusal :=
  onDev (fun d => d.smbSend 2 car.toNat request.toNat tag.toNat) s
def execSmbReset (mask : Word) (tag : BitVec 16) (s : State) : Host.Outcome State Fault Refusal := onDev (fun d => d.smbSend 3 mask.toNat 0 tag.toNat) s
def execSmbDegraded (car request : Word) (tag : BitVec 16) (s : State) : Host.Outcome State Fault Refusal :=
  onDev (fun d => d.smbSend 4 car.toNat request.toNat tag.toNat) s
def execSmbOutputTest (k ms : Word) (tag : BitVec 16) (s : State) : Host.Outcome State Fault Refusal :=
  onDev (fun d => d.smbSend 5 k.toNat ms.toNat tag.toNat) s
def execOutputTestDone (v : Volts) (i : BitVec 16) (s : State) : Host.Outcome State Fault Refusal :=
  onDev (fun d => d.testDone v.vp.toNat v.vn.toNat i.toNat) s
def execSpbClear (s : State) : Host.Outcome State Fault Refusal := onDev (fun d => d.spbCmd 1 0) s
def execSpbDataWrite (v : Word) (s : State) : Host.Outcome State Fault Refusal := onDev (fun d => d.spbData v.toNat) s
def execSpbVerify (s : State) : Host.Outcome State Fault Refusal := onDev (fun d => d.spbCmd 2 0) s
def execSpbVerifyDone (s : State) : Host.Outcome State Fault Refusal := onDev (fun d => d.spbVerified) s
def execSpbSeal (sw : BitVec 16) (en : Bool) (s : State) : Host.Outcome State Fault Refusal := onDev (fun d => (d.sealPins sw.toNat en).spbCmd 3 d.sealGrp) s
def execSealCommitDone (s : State) : Host.Outcome State Fault Refusal := onDev (fun d => d.sealDone) s
def execSpbReadActive (s : State) : Host.Outcome State Fault Refusal := onDev (fun d => d.spbCmd 4 0) s
def execSealContactPoll (sw : BitVec 16) (en : Bool) (s : State) : Host.Outcome State Fault Refusal := onDev (fun d => d.sealPoll sw.toNat en) s
def execSafetyStart (selfTest : Bool) (sw : BitVec 16) (en : Bool) (s : State) : Host.Outcome State Fault Refusal :=
  onDev (fun d => d.safStart selfTest sw.toNat en) s
def execS1Standstill (n : Fin 4) (s : State) : Host.Outcome State Fault Refusal := onDev (fun d => d.s1Standstill n) s
def execS1StoOff (n : Fin 4) (s : State) : Host.Outcome State Fault Refusal := onDev (fun d => d.s1Off n) s
def execS1Time (n : Fin 4) (s : State) : Host.Outcome State Fault Refusal := onDev (fun d => d.s1Time n) s
def execStandstillBrakeDrop (n : Fin 4) (s : State) : Host.Outcome State Fault Refusal := onDev (fun d => d.standDrop n) s
def execBrakeLift (n : Fin 4) (s : State) : Host.Outcome State Fault Refusal := onDev (fun d => d.brakeLift n) s
def execBrakePickCheck (k : Fin 8) (i : BitVec 16) (s : State) : Host.Outcome State Fault Refusal := onDev (fun d => d.brakePick k i.toNat) s
def execBrakeDropCheck (k : Fin 8) (i : BitVec 16) (s : State) : Host.Outcome State Fault Refusal := onDev (fun d => d.brakeDropped k i.toNat) s
def execDarkTest (k : Fin 8) (low : Bool) (vp vn i : BitVec 16) (s : State) : Host.Outcome State Fault Refusal :=
  onDev (fun d => d.darkTest k low vp.toNat vn.toNat i.toNat) s
def execSplitTest (k : Fin 8) (low : Bool) (vp vn i : BitVec 16) (cross : Bool) (s : State) : Host.Outcome State Fault Refusal :=
  onDev (fun d => d.splitTest k low vp.toNat vn.toNat i.toNat cross) s
def execOutputOverload (k : Fin 8) (s : State) : Host.Outcome State Fault Refusal := onDev (fun d => d.outFail k 5) s
def execOpenLoad (k : Fin 8) (i : BitVec 16) (s : State) : Host.Outcome State Fault Refusal :=
  onDev (fun d =>
    let d := d.readI k i.toNat
    if d.safRun && d.on (shp .sio) SIO.SO_ST_HS k && decide (i.toNat < bkOutOl d.blk k) then d.outFail k 6 else d) s
def execOtDue (k : Fin 8) (s : State) : Host.Outcome State Fault Refusal := onDev (fun d => d.otReached k) s
def execDegTime (n : Fin 4) (s : State) : Host.Outcome State Fault Refusal := onDev (fun d => d.degTime n) s
def execDegRecovery (n : Fin 4) (s : State) : Host.Outcome State Fault Refusal := onDev (fun d => d.degRecovered n) s
def execResetPress (p : Fin 8) (ms : BitVec 16) (s : State) : Host.Outcome State Fault Refusal := onDev (fun d => d.resetPress p ms.toNat) s

end Sys2Proof.Machine
end

