-- ==== Sys2Proof/Machine/Fio.lean ====
section
/-! DEFINITION. Field inputs and outputs: DIN, DOUT, AIN, AOUT and TRM (spec/15_field_io.md, R426 to R457). -/
namespace Sys2Proof.Machine

open Sys2Proof

/-! ### Codes of the field pages (R457, Table 13) -/
def cDI_SUP_SHORT : Nat := 0x74
def cDO_OVERLOAD : Nat := 0x75
def cDO_OPEN : Nat := 0x76
def cDO_OVERTEMP : Nat := 0x77
def cDO_RB_LOW : Nat := 0x78
def cDO_RB_HIGH : Nat := 0x79
def cDO_VFIELD : Nat := 0x7A
def cFIO_SILENT : Nat := 0x7B
def cAI_FAIL : Nat := 0x7C
def cAI_SHORT : Nat := 0x7D
def cAO_COMPLIANCE : Nat := 0x7E
def cAO_LINK : Nat := 0x7F


/-- Lowest member of the set of an output under `DOUT.GANG` (R436). -/
def gangLead (gang n : Nat) : Nat :=
  match field gang (n / 4 * 2) 2 with
  | 1 => n - n % 2
  | 2 => n - n % 4
  | _ => n

/-- Class of an input current under NAMUR NE 43 (R440, Table 5). -/
def aiBand (ua : Nat) : Nat :=
  if ua < 3600 then 3 else if ua < 3800 then 1 else if ua ≤ 20500 then 0 else if ua ≤ 20999 then 2 else 4

/-- Order of the classes along the current. -/
def aiRank : Nat → Nat
  | 3 => 0 | 1 => 1 | 0 => 2 | 2 => 3 | _ => 4

/-- The class after a new value: a class is left only once the value lies 20 µA inside the neighbouring band (R440). -/
def aiNext (cur ua : Nat) : Nat :=
  if aiRank (aiBand (ua + 20)) < aiRank cur then aiBand (ua + 20)
  else if aiRank cur < aiRank (aiBand (ua - 20)) then aiBand (ua - 20)
  else cur

/-- The target of an analog output in µA: zero and span trim applied to the value of R442 (R448). -/
def aoTrim (c : Nat) (zero span : Int) : Int :=
  tdiv (10 * (c : Int) + zero + tdiv (((c : Int) - 4000) * span) 16000) 10

namespace Dev

/-! ### Analog and digital outputs -/

/-- Alarm level of output c in force is high: strap AO_ALM[c] open, or `ALM_REG` (R443, R535). -/
def aoHigh (d : Dev) (c : Nat) : Bool :=
  let p := shp .aout
  if d.on p AOUT.CH_CFG_ALM_SRC c then d.on p AOUT.CH_CFG_ALM_REG c else bitN (d.get (shp .bot) BOT.STRAP_RAW) (12 + c) == 0

/-- The value of R442 for output c before trim, whether the alarm level is driven, and whether the command is clipped. -/
def aoValue (d : Dev) (c : Nat) : Nat × Bool × Bool :=
  let p := shp .aout
  let alarm := if d.aoHigh c then 21750 else 3500
  let point := d.get (shp .trm) TRM.SEL_POINT
  let w := d.fio.image.getD (1 + c) 0
  let cmd := w % 2 ^ 16
  if bitN d.fio.causes 1 = 1 then (alarm, true, false)
  else if !d.enabled p || !d.on p AOUT.CH_CFG_EN c then (3500, false, false)
  else if point ≠ 0 && (point - 1) / 2 == c then ((if point % 2 = 1 then 4000 else 20000), false, false)
  else if d.fio.causes ≠ 0 then
    (if d.on p AOUT.CH_CFG_SAFE_MODE c then (d.get p AOUT.CH_SAFE_UA c, false, false) else (alarm, true, false))
  else if bitN w 16 = 1 then (alarm, true, false)
  else if cmd < 3800 then (3800, false, true)
  else if cmd > 20500 then (20500, false, true)
  else (cmd, false, false)

/-- Form the target of analog output c and send it to its stage (R442, R448). A stage that receives no target regulates to the alarm level in force
(R445). -/
def aoDrive (d : Dev) (c : Nat) : Dev :=
  let p := shp .aout
  let x := d.aoValue c
  let lost := bitN d.fio.lost c == 1
  let t := aoTrim x.1 (d.geti (shp .trm) TRM.AO_ZERO_U c) (d.geti (shp .trm) TRM.AO_SPAN_U c)
  let d := { d with fio := { d.fio with stage := lset d.fio.stage c (if lost then (if d.aoHigh c then 21750 else 3500) else t) } }
  let d := d.puti p AOUT.CH_TGT_UA t c
  let d := d.putb p AOUT.CH_ST_SAFE (d.fio.causes != 0) c
  ((d.putb p AOUT.CH_ST_ALARM (x.2.1 || lost) c).putb p AOUT.CH_ST_ALM_HIGH (d.aoHigh c) c).putb p AOUT.CH_ST_CLIP x.2.2 c

/-- The digital output word in force: off while DOUT is disabled or unconfigured, the safe bits in the safe state, else the image (R430). -/
def doWord (d : Dev) : Nat :=
  let p := shp .dout
  if !d.enabled p || bitN d.fio.causes 1 == 1 then 0
  else if d.fio.causes ≠ 0 then d.get p DOUT.SAFE_BITS
  else d.fio.image.getD 0 0 % 2 ^ 16

/-- Whether the output word commands output n on, through the lowest member of its set. -/
def doCmd (d : Dev) (n : Nat) : Bool := bitN d.doWord (gangLead (d.get (shp .dout) DOUT.GANG_MODE) n) == 1

/-- Outputs of the set that n belongs to. -/
def doSet (d : Dev) (n : Nat) : List Nat :=
  let g := d.get (shp .dout) DOUT.GANG_MODE
  (List.range 16).filter (fun m => gangLead g m == gangLead g n)

/-- Whether switch n is on: commanded, and no member of its set switched off by a fault (R436, R437). -/
def doOn (d : Dev) (n : Nat) : Bool := d.doCmd n && (d.doSet n).all (fun m => bitN d.fio.trip m == 0)

/-- Drive the field outputs: switches, analog targets, the cause shown (R430, R436, R437, R442). -/
def fioDrive (d : Dev) : Dev :=
  let p := shp .dout
  let was := d.get p DOUT.OUT_BITS
  let out := bitsOf 16 d.doOn
  let rb := d.get p DOUT.RB_BITS
  let d := d.put p DOUT.RB_BITS (bitsOf 16 (fun n => if bitN out n = bitN was n then bitN rb n == 1 else bitN out n == 1))
  let d := d.put p DOUT.FLT_RB_HIGH (bitsOf 16 (fun n => bitN (d.get p DOUT.FLT_RB_HIGH) n == 1 && !d.doCmd n))
  let d := (d.put p DOUT.OUT_BITS out).put (shp .wir) WIR.OUT_DIG_BITS d.doWord
  let d := d.put p DOUT.STATE_CAUSE (((List.range 7).find? (fun c => c ≠ 0 && bitN d.fio.causes c == 1)).getD 0)
  (List.range 4).foldl aoDrive d

/-- End a trim selection (R430, R450, R451). -/
def trimEnd (d : Dev) : Dev :=
  let p := shp .trm
  if d.get p TRM.SEL_POINT = 0 then d
  else (((d.put p TRM.SEL_POINT 0).put p TRM.SEL_SRC 0).put p TRM.SEL_LEFT_S 0).stat p 1

/-- Rules of TRM: a trim lies in −2,000 to 2,000 (RANGE); the trims of the output the contacts have selected are BUSY (R448, R451). -/
def trmRules (d : Dev) (v : View) : List RuleFail :=
  let p := shp .trm
  let pt := d.get p TRM.SEL_POINT
  (List.range 4).flatMap (fun c => [TRM.AO_ZERO_U, TRM.AO_SPAN_U].filterMap (fun f =>
    let x := sgn 16 (v f c 0)
    if x < -2000 ∨ x > 2000 then some (⟨[(f, c, 0)], cRANGE⟩ : RuleFail)
    else if pt ≠ 0 && (pt - 1) / 2 == c && d.get p TRM.SEL_SRC == 1 then some (⟨[(f, c, 0)], cBUSY⟩ : RuleFail)
    else none))

/-- An IMMEDIATE event of TRM: changed trims are stored and act at once (R449). -/
def applyTrm (d : Dev) (half : HalfId) : Dev :=
  let p := shp .trm
  let old := (List.range 4).map (fun c => (d.get p TRM.AO_ZERO_U c, d.get p TRM.AO_SPAN_U c))
  let n := d.nextImm p
  let d1 := n.2.applyPage p (some half) (n.2.trmRules) 6 n.1
  let new_ := (List.range 4).map (fun c => (d1.get p TRM.AO_ZERO_U c, d1.get p TRM.AO_SPAN_U c))
  if old == new_ then d1 else (d1.stat p 0).fioDrive

/-- After a selection has ended, trims that waited for it are tried again (R451). -/
def trimRelease (d : Dev) : Dev :=
  if d.get (shp .trm) TRM.SEL_POINT = 0 && d.shadow.any (fun e => e.page == shp .trm && decide (e.half = some d.holder)) then
    (d.applyTrm d.holder).fioDrive
  else d.fioDrive

/-- A cause of the safe state comes into force (R430, Table 3); a trim selection ends with it, and what waited for it is tried (R451). -/
def fioSafe (d : Dev) (c : Nat) : Dev :=
  let was := d.fio.causes
  let sel := d.get (shp .trm) TRM.SEL_POINT ≠ 0
  let d := { d with fio := { d.fio with causes := setBitN was c true } }
  let d := if was = 0 then
      (((d.stat (shp .dout) 1).stat (shp .aout) 2).bump (shp .wir) WIR.SAFE_CNT_COUNT).trimEnd
    else d
  let d := if c = 1 ∨ c = 4 then d.stpSafe else d
  if was = 0 && sel then d.trimRelease else d.fioDrive

/-- An abort of DOUT (0) or AOUT (1) is an entry to the safe state (R67, R430). -/
def abortOut (d : Dev) (p k : Nat) : Dev :=
  ({ d with fio := { d.fio with cut := setBitN d.fio.cut k true } }.abortPage p true).fioSafe 6

/-- Causes end (R430, Table 3); the outputs leave the safe state when none is left. -/
def fioLeave (d : Dev) (cs : List Nat) : Dev :=
  let was := d.fio.causes
  let now_ := cs.foldl (fun m c => setBitN m c false) was
  let d := { d with fio := { d.fio with causes := now_ } }
  (if was ≠ 0 && now_ = 0 then d.stat (shp .dout) 2 else d).fioDrive

/-- The Weir forwards a publish of the holder to DOUT and AOUT (R348, R428): the image, the causes it ends, and the logic-silence timer,
which the environment runs. The device safe state of R23 keeps cause 4 in force; cause 6 ends once every aborted page of the two has its
`CTRL.EN` set again. -/
def fioForward (d : Dev) (image : List Nat) : Dev :=
  let ready := (bitN d.fio.cut 0 == 0 || d.enabled (shp .dout)) && (bitN d.fio.cut 1 == 0 || d.enabled (shp .aout))
  let d := { d with fio := { d.fio with image := image, lost := 0, cut := if ready then 0 else d.fio.cut } }.put (shp .wir) WIR.SAFE_NOHOLD 0
  d.fioLeave ([2, 3, 5] ++ (if d.saf.deviceSafe then [] else [4]) ++
    (if ready then [6] else []))

/-! ### Digital inputs -/

/-- An abort of DIN: `LEVEL`, the hardware lines and the image hold (R434). -/
def abortDin (d : Dev) : Dev := { d with fio := { d.fio with held := true } }.abortPage (shp .din) true

/-- One event of the DIN page: after `CTRL.EN` turns to 1 every filter starts settled on the present raw level (R432, R434). -/
def applyDin (d : Dev) (half : HalfId) (bnd seq : Nat) : Dev :=
  let p := shp .din
  let was := d.enabled p
  let d := d.applyPage p (some half) (fun _ => []) bnd seq
  let d := if d.enabled p && !was then { d with fio := { d.fio with held := false, deb := d.get p DIN.RAW_BITS } } else d
  d.dinShow

/-! ### Digital output faults (R437) -/

/-- Rule of `DOUT.GANG`: 0b11 for a quad is RANGE (R436). -/
def doutRules (v : View) : List RuleFail :=
  if (List.range 4).any (fun q => field (v DOUT.GANG_MODE 0 0) (2 * q) 2 == 3) then [⟨[(DOUT.GANG_MODE, 0, 0)], cRANGE⟩] else []

def applyDout (d : Dev) (half : HalfId) (bnd seq : Nat) : Dev :=
  (d.applyPage (shp .dout) (some half) doutRules bnd seq).fioDrive

def applyAout (d : Dev) (half : HalfId) (bnd seq : Nat) : Dev :=
  (d.applyPage (shp .aout) (some half) (fun _ => []) bnd seq).fioDrive

/-- A fault of output n: shown in `f`, its code raised, the set switched off unless the switch cannot (R436, R437). -/
def doFault (d : Dev) (n : Nat) (f : Fld) (code : Nat) (off : Bool) : Dev :=
  let p := shp .dout
  let fresh_ := bitN (d.get p f) n == 0
  let d := d.putBit p f n true
  let d := if off then { d with fio := { d.fio with trip := setBitN d.fio.trip n true } } else d
  let d := if fresh_ then (d.stat p 0).fault p code n else d
  d.fioDrive

/-- Whether the cause of a fault of output n stands while the output is off: a hot switch, a low field supply, a readback still high. -/
def doHeld (d : Dev) (n : Nat) : Bool :=
  let p := shp .dout
  bitN d.fio.hot n == 1 || d.on p (if n < 8 then DOUT.STATE_VF0_LOW else DOUT.STATE_VF1_LOW)

/-- Take back the faults of output n and let it switch again. -/
def doClear (d : Dev) (n : Nat) : Dev :=
  let p := shp .dout
  let d := [DOUT.FLT_OL_BITS, DOUT.FLT_OW_BITS, DOUT.FLT_OT_BITS, DOUT.FLT_RB_LOW].foldl (fun d f => d.putBit p f n false) d
  { d with fio := { d.fio with trip := setBitN d.fio.trip n false } }

/-- `DOUT.CLR`: outputs with `LATCH` = 1 whose cause is gone are released; in a ganged set the lowest member's bit serves (R436, R437). -/
def doClr (d : Dev) (bits : Nat) : Dev :=
  let p := shp .dout
  let g := d.get p DOUT.GANG_MODE
  ((List.range 16).foldl (fun d n =>
    if bitN bits (gangLead g n) = 1 && d.on p DOUT.CH_CFG_LATCH (gangLead g n) && !d.doHeld n then d.doClear n else d) d).fioDrive

/-- The one-second retry of a faulted output with `LATCH` = 0 while the image commands it on (R437). -/
def doRetry (d : Dev) (n : Nat) : Dev :=
  let p := shp .dout
  if !d.on p DOUT.CH_CFG_LATCH (gangLead (d.get p DOUT.GANG_MODE) n) && d.doCmd n && !d.doHeld n then (d.doClear n).fioDrive else d

/-! ### Analog inputs -/

/-- Rule of R441: `ALM_LOc` < `ALM_HIc` for each channel, else PAIR. -/
def ainRules (v : View) : List RuleFail :=
  (List.range 8).filterMap (fun c =>
    if v AIN.ALM_LO_UA c 0 < v AIN.ALM_HI_UA c 0 then none else some ⟨[(AIN.ALM_LO_UA, c, 0), (AIN.ALM_HI_UA, c, 0)], cPAIR⟩)

/-- Set the class of an input; entry to a FAIL class raises AI_FAIL with one record (R440). -/
def aiClass (d : Dev) (c cls : Nat) : Dev :=
  let p := shp .ain
  let was := d.get p AIN.CH_ST_CLASS c
  let d := d.put p AIN.CH_ST_CLASS cls c
  if cls ≠ was && (cls == 3 || cls == 4) then (d.stat p 0).fault p cAI_FAIL c else d

/-- Classify an input and set its flags from `CHc_UA` (R439 to R441). -/
def aiJudge (d : Dev) (c : Nat) : Dev :=
  let p := shp .ain
  let ua := d.get p AIN.CH_UA_UA c
  let d := if ua < 500 then d.put p AIN.CH_ST_OPEN 1 c else if ua > 520 then d.put p AIN.CH_ST_OPEN 0 c else d
  let d := d.aiClass c (if d.on p AIN.CH_ST_SHORT c then 4 else aiNext (d.get p AIN.CH_ST_CLASS c) ua)
  let lo := d.get p AIN.ALM_LO_UA c
  let hi := d.get p AIN.ALM_HI_UA c
  if !d.on p AIN.CH_CFG_ALM_EN c then (d.put p AIN.CH_ST_BELOW 0 c).put p AIN.CH_ST_ABOVE 0 c
  else
    let b := ua < lo || (d.on p AIN.CH_ST_BELOW c && ua < lo + 20)
    let a := ua > hi || (d.on p AIN.CH_ST_ABOVE c && ua + 20 > hi)
    let new_ := (b && !d.on p AIN.CH_ST_BELOW c) || (a && !d.on p AIN.CH_ST_ABOVE c)
    let d := (d.putb p AIN.CH_ST_BELOW b c).putb p AIN.CH_ST_ABOVE a c
    if new_ then d.stat p 2 else d

/-- A disabled channel reads 0 and class FAIL_LOW (R438). -/
def aiOff (d : Dev) (c : Nat) : Dev :=
  let p := shp .ain
  let d := { d with fio := { d.fio with win := lset d.fio.win c [] } }
  [AIN.CH_RAW_CODE, AIN.CH_UA_UA, AIN.CH_ST_SHORT, AIN.CH_ST_OPEN, AIN.CH_ST_BELOW, AIN.CH_ST_ABOVE].foldl (fun d f => d.put p f 0 c)
    (d.put p AIN.CH_ST_CLASS 3 c)

def applyAin (d : Dev) (half : HalfId) (bnd seq : Nat) : Dev :=
  let p := shp .ain
  let was := (List.range 8).map (fun c => d.on p AIN.CH_CFG_EN c)
  let d := d.applyPage p (some half) ainRules bnd seq
  (List.range 8).foldl (fun d c => if was.getD c false && !d.on p AIN.CH_CFG_EN c then d.aiOff c else d) d

/-- One converter sample (R438): the mean of the last 2^`FILT` codes, halved and truncated. -/
def aiSample (d : Dev) (c code : Nat) : Dev :=
  let p := shp .ain
  if !d.enabled p then d
  else if !d.on p AIN.CH_CFG_EN c then d.aiOff c
  else
    let n := 2 ^ d.get p AIN.CH_CFG_FILT c
    let w := (code :: d.fio.win.getD c []).take 128
    let d := { d with fio := { d.fio with win := lset d.fio.win c w } }
    let m := w.take n
    ((d.put p AIN.CH_RAW_CODE code c).put p AIN.CH_UA_UA (m.sum / (2 * m.length)) c).aiJudge c

/-- A loop at 28 mA or more for 50 ms: SHORT, loop power off, class FAIL_HIGH (R439, R440). -/
def aiShort (d : Dev) (c : Nat) : Dev :=
  let p := shp .ain
  if !d.enabled p || !d.on p AIN.CH_CFG_EN c || d.get p AIN.CH_UA_UA c < 28000 || d.on p AIN.CH_ST_SHORT c then d
  else ((((d.put p AIN.CH_ST_SHORT 1 c).stat p 1).fault p cAI_SHORT c)).aiClass c 4

/-- The retry of a shorted loop: a current that stays below 28,000 µA clears SHORT (R439). -/
def aiRetry (d : Dev) (c ua : Nat) : Dev :=
  let p := shp .ain
  if !d.enabled p || !d.on p AIN.CH_ST_SHORT c || ua ≥ 28000 then d
  else ((d.put p AIN.CH_ST_SHORT 0 c).put p AIN.CH_UA_UA ua c).aiJudge c

/-! ### Analog output stages -/

/-- A stage reports (R444, R445): current and terminal voltage, or, with a low reserve, nothing but that its reports are deferred. -/
def aoReport (d : Dev) (c meas ut : Nat) (rsvLow sat : Bool) : Dev :=
  let p := shp .aout
  let d := (d.putb p AOUT.CH_ST_RSV_LOW rsvLow c).putb p AOUT.CH_ST_STALE rsvLow c
  if rsvLow then d
  else (((d.put p AOUT.CH_MEAS_UA meas c).put p AOUT.CH_UT_MV ut c).putb p AOUT.CH_ST_SAT sat c).put p AOUT.CH_ST_LINK 0 c

def aoLink (d : Dev) (c : Nat) : Dev :=
  let p := shp .aout
  if d.on p AOUT.CH_ST_LINK c then d else ((d.put p AOUT.CH_ST_LINK 1 c).stat p 1).fault p cAO_LINK c

/-- The current has stayed more than 16 µA below the target for 10 ms (R446). -/
def aoCompliance (d : Dev) (c : Nat) : Dev :=
  let p := shp .aout
  if d.on p AOUT.CH_ST_COMPLIANCE c || d.get p AOUT.CH_MEAS_UA c + 16 ≥ d.get p AOUT.CH_TGT_UA c then d
  else ((d.put p AOUT.CH_ST_COMPLIANCE 1 c).stat p 0).fault p cAO_COMPLIANCE c

/-- Recovery has held for 100 ms: SAT clear and the current within 16 µA of the target (R446). -/
def aoComplianceClear (d : Dev) (c : Nat) : Dev :=
  let p := shp .aout
  if !d.on p AOUT.CH_ST_SAT c && decide (((d.get p AOUT.CH_MEAS_UA c : Int) - d.get p AOUT.CH_TGT_UA c).natAbs ≤ 16) then
    d.put p AOUT.CH_ST_COMPLIANCE 0 c
  else d

/-! ### Trim (R448 to R451) -/

/-- Select a trim point. -/
def trimSelect (d : Dev) (pt src : Nat) : Dev :=
  let p := shp .trm
  if pt = 0 then d.trimEnd.trimRelease
  else ((((d.put p TRM.SEL_POINT pt).put p TRM.SEL_SRC src).put p TRM.SEL_LEFT_S 300).stat p 1).fioDrive

/-- The contacts read pressed or released after their debounce, while they are in use (R450, Table 12; notes/assumptions/34.md). -/
def trimContact (d : Dev) (k : Nat) (pressed : Bool) : Dev :=
  let p := shp .trm
  if d.on p TRM.CFG_BTN_EN then d.putBit p TRM.BTN_LVL k pressed else d

/-- One step of TRIM_UP or TRIM_DN (R450): recorded as an applied change with origin TRIM, 0x1E (R449, R476). -/
def trimStep (d : Dev) (up : Bool) : Dev :=
  let d := d.trimContact (if up then 0 else 1) true
  let p := shp .trm
  let pt := d.get p TRM.SEL_POINT
  if !d.on p TRM.CFG_BTN_EN || pt = 0 then d
  else
    let d := d.put p TRM.SEL_LEFT_S 300
    let c := (pt - 1) / 2
    let f := if pt % 2 = 1 then TRM.AO_ZERO_U else TRM.AO_SPAN_U
    let x := d.geti p f c + (if up then 1 else -1)
    if x < -2000 ∨ x > 2000 then d
    else
      let e : Staged := ⟨p, f, c, 0, none, BitVec.ofNat 32 (encS 16 x), 0x1E, 0, false⟩
      let old := d.get p f c
      let d := (d.puti p f x c).stat p 0
      (d.noteConfig e 1 0 old (encS 16 x) (d.get p HDR.COMMIT_SEQ) 6).fioDrive

/-- A write of `TRM.SEL.POINT` (R451): RANGE above 8; BUSY for an output that is disabled or in the safe state. -/
def trimWrite (d : Dev) (pt : Nat) : Dev :=
  let p := shp .trm
  if pt > 8 then d.err p cRANGE
  else if pt ≠ 0 && (!d.enabled (shp .aout) || !d.on (shp .aout) AOUT.CH_CFG_EN ((pt - 1) / 2) || d.fio.causes != 0) then d.err p cBUSY
  else d.trimSelect pt 2

end Dev

/-! ### Meanings -/

def execDinDebouncedChange (n : Fin 32) (lvl : Bool) (s : State) : Host.Outcome State Fault Refusal :=
  onAny (fun d => d.dinChange n.val lvl) s

/-- A sensor supply limited for 5 ms (R435). -/
def execDsupShort (g : Fin 4) (s : State) : Host.Outcome State Fault Refusal :=
  onDev (fun d =>
    let p := shp .din
    if bitN (d.get p DIN.SUP_EN) g.val = 1 && bitN (d.get p DIN.SUP_SHORT) g.val = 0 then
      ((d.putBit p DIN.SUP_SHORT g.val true).stat p 0).fault p cDI_SUP_SHORT g.val
    else d) s

/-- A retry of a shorted sensor supply: the first that does not limit clears the bit (R435). -/
def execDsupRetry (g : Fin 4) (limits : Bool) (s : State) : Host.Outcome State Fault Refusal :=
  onDev (fun d => if limits then d else d.putBit (shp .din) DIN.SUP_SHORT g.val false) s

/-- The logic-silence timer expires (R429). -/
def execFioSilent (s : State) : Host.Outcome State Fault Refusal :=
  onDev (fun d => (((d.stat (shp .dout) 3).fault (shp .dout) cFIO_SILENT)).fioSafe 2) s

def execDoOverload (n : Fin 16) (s : State) : Host.Outcome State Fault Refusal :=
  onDev (fun d => if d.doOn n.val then d.doFault n.val DOUT.FLT_OL_BITS cDO_OVERLOAD true else d) s

def execDoOpen (n : Fin 16) (ma : BitVec 16) (s : State) : Host.Outcome State Fault Refusal :=
  onDev (fun d =>
    let p := shp .dout
    let ow := d.get p DOUT.CH_CFG_OW_MA (gangLead (d.get p DOUT.GANG_MODE) n.val)
    let d := d.put p DOUT.CH_I_MA ma.toNat n.val
    if d.doOn n.val && decide (ow ≠ 0 ∧ ma.toNat < ow) then d.doFault n.val DOUT.FLT_OW_BITS cDO_OPEN true else d) s

def execDoOvertemp (n : Fin 16) (s : State) : Host.Outcome State Fault Refusal :=
  onDev (fun d => { d with fio := { d.fio with hot := setBitN d.fio.hot n.val true } }.doFault n.val DOUT.FLT_OT_BITS cDO_OVERTEMP true) s

/-- An output reads back low (R437): a fault while it is on, unless the field supply of its group is low; off, a readback that was high has fallen. -/
def execDoRbLow (n : Fin 16) (s : State) : Host.Outcome State Fault Refusal :=
  onDev (fun d =>
    let p := shp .dout
    let vf := d.on p (if n.val < 8 then DOUT.STATE_VF0_LOW else DOUT.STATE_VF1_LOW)
    let d := (d.putBit p DOUT.RB_BITS n.val false).putBit p DOUT.FLT_RB_HIGH n.val false
    if d.doOn n.val && !vf then d.doFault n.val DOUT.FLT_RB_LOW cDO_RB_LOW true else d) s

/-- Commanded off and reading back high: reported, and cannot be switched off (R437). -/
def execDoRbHigh (n : Fin 16) (s : State) : Host.Outcome State Fault Refusal :=
  onDev (fun d =>
    if d.doCmd n.val then d
    else (d.putBit (shp .dout) DOUT.RB_BITS n.val true).doFault n.val DOUT.FLT_RB_HIGH cDO_RB_HIGH false) s

/-- The voltage of a field supply: below 18.0 V it is a fault of its eight outputs (R437). -/
def execDoVfield (g : Fin 2) (mv : BitVec 16) (s : State) : Host.Outcome State Fault Refusal :=
  onDev (fun d =>
    let p := shp .dout
    let low := if g.val = 0 then DOUT.STATE_VF0_LOW else DOUT.STATE_VF1_LOW
    let d := d.put p (if g.val = 0 then DOUT.VF_MV0 else DOUT.VF_MV1) mv.toNat
    let was := d.on p low
    if mv.toNat < 18000 then
      let d := d.put p low 1
      let d := { d with fio := { d.fio with trip := d.fio.trip.lor (if g.val = 0 then 0xFF else 0xFF00) } }
      (if was then d else (d.stat p 0).fault p cDO_VFIELD g.val).fioDrive
    else d.put p low 0) s

/-- The one-second retry; `cool` reports that the switch is below 130 °C (R437). -/
def execDoRetry (n : Fin 16) (cool : Bool) (s : State) : Host.Outcome State Fault Refusal :=
  onDev (fun d =>
    let d := if cool then { d with fio := { d.fio with hot := setBitN d.fio.hot n.val false } } else d
    d.doRetry n.val) s

def execDoClr (bits : BitVec 16) (s : State) : Host.Outcome State Fault Refusal := onDev (fun d => d.doClr bits.toNat) s

def execAiSample (c : Fin 8) (code : BitVec 16) (s : State) : Host.Outcome State Fault Refusal :=
  onDev (fun d => d.aiSample c.val code.toNat) s
def execAiShort (c : Fin 8) (s : State) : Host.Outcome State Fault Refusal := onDev (fun d => d.aiShort c.val) s
def execAiRetry (c : Fin 8) (ua : BitVec 16) (s : State) : Host.Outcome State Fault Refusal :=
  onDev (fun d => d.aiRetry c.val ua.toNat) s

def execAoReport (c : Fin 4) (meas ut : BitVec 16) (rsvLow sat : Bool) (s : State) : Host.Outcome State Fault Refusal :=
  onDev (fun d => d.aoReport c.val meas.toNat ut.toNat rsvLow sat) s
def execAoLink (c : Fin 4) (s : State) : Host.Outcome State Fault Refusal := onDev (fun d => d.aoLink c.val) s

/-- A stage without a target for 5 ms regulates to the alarm level in force (R445). -/
def execAoTargetLoss (c : Fin 4) (s : State) : Host.Outcome State Fault Refusal :=
  onDev (fun d => { d with fio := { d.fio with lost := setBitN d.fio.lost c.val true } }.aoDrive c) s
def execAoCompliance (c : Fin 4) (s : State) : Host.Outcome State Fault Refusal := onDev (fun d => d.aoCompliance c.val) s
def execAoComplianceClear (c : Fin 4) (s : State) : Host.Outcome State Fault Refusal := onDev (fun d => d.aoComplianceClear c.val) s

/-- TRIM_SEL pressed for 50 ms to 2 s (R450). -/
def execTrimSelPress (s : State) : Host.Outcome State Fault Refusal :=
  onDev (fun d =>
    let p := shp .trm
    if d.on p TRM.CFG_BTN_EN then (d.trimContact 2 false).trimSelect ((d.get p TRM.SEL_POINT + 1) % 9) 1 else d) s

def execTrimSelLong (s : State) : Host.Outcome State Fault Refusal :=
  onDev (fun d => if d.on (shp .trm) TRM.CFG_BTN_EN then (d.trimContact 2 true).trimSelect 0 0 else d) s

def execTrimStep (up : Bool) (s : State) : Host.Outcome State Fault Refusal := onDev (fun d => d.trimStep up) s

/-- A step of a contact held beyond 1 s (R450). -/
def execTrimRepeat (up : Bool) (s : State) : Host.Outcome State Fault Refusal := onDev (fun d => d.trimStep up) s

/-- No contact pressed for 300 s: the selection ends and the trims stay (R450). -/
def execTrimIdle (s : State) : Host.Outcome State Fault Refusal :=
  onDev (fun d => ((List.range 3).foldl (fun d k => d.trimContact k false) d).trimSelect 0 0) s

def execTrmSelWrite (pt : BitVec 4) (s : State) : Host.Outcome State Fault Refusal := onDev (fun d => d.trimWrite pt.toNat) s

end Sys2Proof.Machine
end

