-- ==== Sys2Proof/Machine/Can.lean ====
section
/-! DEFINITION. CAN FD controllers and the remote station manager (spec/14_can_fd.md, R393 to R425). -/
namespace Sys2Proof.Machine

open Sys2Proof

/-! ### Codes (R425, Table 19) -/
def cCAN_RX_DROP : Nat := 0xF0
def cCAN_BUS_OFF : Nat := 0xF1
def cCAN_PASSIVE : Nat := 0xF2
def cCAN_LONELY : Nat := 0xF3
def cCAN_TX_OWNED : Nat := 0xF4
def cCAN_TDC : Nat := 0xF5
def cCAN_WINDOW : Nat := 0xF6
def cRS_DOWN : Nat := 0xF8
def cRS_SHORT : Nat := 0xF9

/-- Data bytes of a DLC: FD frames carry up to 64, classical frames at most 8, remote frames none (R401, R406). -/
def dlcBytes (fdf rtr : Bool) (dlc : Nat) : Nat :=
  if rtr then 0
  else if dlc ≤ 8 then dlc
  else if !fdf then 8
  else if dlc = 9 then 12 else if dlc = 10 then 16 else if dlc = 11 then 20 else if dlc = 12 then 24
  else if dlc = 13 then 32 else if dlc = 14 then 48 else 64

/-- The first `n` entries of a list, filled with zeros. -/
def takeZ (n : Nat) (l : List Nat) : List Nat := (List.range n).map (fun i => l.getD i 0)

def Frame.len (f : Frame) : Nat := dlcBytes f.fdf f.rtr f.dlc

/-- The arbitration field of a frame, first bit highest (ISO 11898-1): base identifier, RTR or SRR, IDE, then the identifier's extension and its RTR.
The lower value wins arbitration. -/
def Frame.arb (f : Frame) : Nat :=
  if f.ide then f.id / 2 ^ 18 * 2 ^ 21 + 2 ^ 20 + 2 ^ 19 + f.id % 2 ^ 18 * 2 + f.rtr.toNat else f.id * 2 ^ 21 + f.rtr.toNat * 2 ^ 20

namespace Dev

def canCh (d : Dev) (c : Nat) : CanCh := d.can.getD c CanCh.init
def modCan (d : Dev) (c : Nat) (f : CanCh → CanCh) : Dev := { d with can := lmod d.can c f }

def canPend (d : Dev) (c b : Nat) : Bool := bitN (d.get (pgCan c) CAN.TX_PEND_BITS (b / 32)) (b % 32) == 1

/-- Source of a transmit buffer (R405, Table 6). -/
def canSrc (d : Dev) (c b : Nat) : Nat :=
  let h := d.holder
  if c = 2 && decide (b < 4) && d.enabled (pgMpg h b) then 2
  else if c = 0 && decide (b < 8) && d.enabled (pgDax h b) && d.on (pgDax h b) DAX.CFG_TYPE then 2
  else if ((d.half h).cyx.img.map (fun i => i.prog.tx.any (fun t => t.ctrl == c && t.buf == b))).getD false then 1
  else 0

/-- A request of a buffer ends with a result (R407): shown with its error and reason, `TX_DONE`, and `TX_FAIL` unless SENT; a window that waited for it
waits no longer. -/
def canEnd (d : Dev) (c b result lec why : Nat) : Dev :=
  let p := pgCan c
  let d := (d.putBit p CAN.TX_PEND_BITS (b % 32) false (b / 32)).modCan c (fun x => { x with arm := x.arm.filter (fun a => a != b) })
  let d := ((d.put p CAN.TXB_ST_RESULT result 0 b).put p CAN.TXB_ST_LEC lec 0 b).put p CAN.TXB_ST_WHY why 0 b
  let d := d.put64 p CAN.TXB_TS_LO CAN.TXB_TS_HI d.now 0 b
  let d := d.orBits p CAN.TX_DONE_BITS (2 ^ (b % 32)) (b / 32)
  if result = 2 then d else (d.orBits p CAN.TX_FAIL_BITS (2 ^ (b % 32)) (b / 32)).stat p 1

/-- Every pending request that has not begun arbitration ends NOT_SENT with a reason (R407, Table 8). -/
def canDrop (d : Dev) (c why : Nat) : Dev :=
  (List.range 128).foldl (fun d b =>
    if d.canPend c b && decide ((d.canCh c).begun ≠ some b) then d.canEnd c b 6 0 why else d) d

/-- Why a controller cannot send now: its reason of Table 8, if any (R394, R398, R399, R411). -/
def canWhyNot (d : Dev) (c : Nat) : Option Nat :=
  let p := pgCan c
  let st := d.get p CAN.BUS_STATE
  if st = 0 then some 3 else if st = 4 ∨ st = 5 then some 1 else if d.get p CAN.MODE_OP ≠ 0 then some 2 else if d.holder?.isNone then some 5 else none

/-- Set a request pending; where the controller cannot send, it ends at once (R394, R398, R399, R411). -/
def canPut (d : Dev) (c b : Nat) : Dev :=
  let p := pgCan c
  let d := (d.putBit p CAN.TX_PEND_BITS (b % 32) true (b / 32)).put p CAN.TXB_ST_RESULT 1 0 b
  match d.canWhyNot c with
  | some w => d.canEnd c b 6 0 w
  | none => d

/-- Whether the header of a buffer allows its request (R406). -/
def canHeaderOk (d : Dev) (c b : Nat) : Bool :=
  let p := pgCan c
  let fdf := d.on p CAN.TXB_ID_FDF 0 b
  let rtr := d.on p CAN.TXB_CTL_RTR 0 b
  !(!d.on p CAN.TXB_ID_IDE 0 b && decide (d.get p CAN.TXB_ID_ID 0 b ≥ 2 ^ 11)) && !(rtr && fdf) &&
    !(!fdf && rtr && decide (d.get p CAN.TXB_CTL_DLC 0 b > 8))

/-- W1 to one bit of `TX_REQ` (R405, R406). -/
def canReq (d : Dev) (c b : Nat) : Dev :=
  let p := pgCan c
  if d.canSrc c b ≠ 0 then d.err p cCAN_TX_OWNED b
  else if d.canPend c b then d
  else if !d.canHeaderOk c b then d.err p cRANGE b
  else d.canPut c b

/-- A lane loads and requests a buffer: a request that still waits ends SUPERSEDED; one whose attempt runs keeps its frame, and the new request waits
for its end (R405, R407). -/
def canLoad (d : Dev) (c b : Nat) (f : Frame) : Dev :=
  let p := pgCan c
  let running := d.canPend c b && decide ((d.canCh c).begun = some b)
  let d := if d.canPend c b && !running then d.canEnd c b 6 0 7 else d
  let d := ((d.put p CAN.TXB_ID_ID f.id 0 b).putb p CAN.TXB_ID_IDE f.ide 0 b).putb p CAN.TXB_ID_FDF f.fdf 0 b
  let d := ((d.putb p CAN.TXB_ID_BRS f.brs 0 b).put p CAN.TXB_CTL_DLC f.dlc 0 b).putb p CAN.TXB_CTL_RTR f.rtr 0 b
  let d := (List.range 16).foldl (fun d i => d.put p CAN.TXB_D (leAt f.data (4 * i) 4) i b) d
  if running then d.modCan c (fun x => { x with again := true }) else d.canPut c b

/-- The frame that a buffer gives (R401, R406): BRS and ESI are of FD frames, and ESI shows that the controller is error-passive. -/
def canFrame (d : Dev) (c b : Nat) : Frame :=
  let p := pgCan c
  let fdf := d.on p CAN.TXB_ID_FDF 0 b
  ⟨d.get p CAN.TXB_ID_ID 0 b, d.on p CAN.TXB_ID_IDE 0 b, fdf, fdf && d.on p CAN.TXB_ID_BRS 0 b, d.get p CAN.TXB_CTL_DLC 0 b,
    d.on p CAN.TXB_CTL_RTR 0 b, fdf && d.get p CAN.BUS_STATE == 3, (List.range 16).flatMap (fun i => leBytes 4 (d.get p CAN.TXB_D i b))⟩

/-! ### Which buffer goes first (R406, R408, R409) -/

/-- Of the buffers given, the pending one whose frame would win arbitration; equal frames go in ascending buffer number (R406). -/
def canFirst (d : Dev) (c : Nat) (bs : List Nat) : Option Nat :=
  bs.foldl (fun m b =>
    if !d.canPend c b then m
    else match m with
      | none => some b
      | some a => if (d.canFrame c b).arb < (d.canFrame c a).arb then some b else some a) none

/-- The buffer whose arbitration begins on an idle bus: none while one is under way or the controller cannot send; under a schedule, what the present
window lets start (R394, R406, R409). -/
def canMay (d : Dev) (c : Nat) : Option Nat :=
  let x := d.canCh c
  let all := List.range 128
  if x.begun.isSome || (d.canWhyNot c).isSome || d.get (pgCan c) CAN.BUS_STATE = 1 then none
  else match x.mat with
    | none => d.canFirst c all
    | some m => match x.col with
      | none => none
      | some k =>
        let cell := m.cells.getD k 0xFF
        if cell < 128 then x.arm.filter (fun b => d.canPend c b)
        else if cell = 0xFE then none
        else d.canFirst c (all.filter (fun b => !m.named.contains b))

/-- The bus is idle, and the first buffer that may start begins arbitration. -/
def canStart (d : Dev) (c : Nat) : Dev :=
  match d.canMay c with
  | some b => d.modCan c (fun x => { x with begun := some b, run := some (d.canFrame c b), again := false })
  | none => d

/-- A controller changes its state: recorded, and `STAT.BLOCK` bit 2 (R410). -/
def canState (d : Dev) (c st : Nat) : Dev :=
  let p := pgCan c
  if d.get p CAN.BUS_STATE = st then d
  else
    let d := (d.put p CAN.BUS_STATE st).stat p 2
    let d := d.note p clsState st c
    let d := if st = 3 then d.err p cCAN_PASSIVE else if st = 4 then d.err p cCAN_BUS_OFF else d
    if st = 4 then d.canDrop c 1 else if st = 0 then d.canDrop c 3 else d

/-- ERROR_ACTIVE, ERROR_PASSIVE or BUS_OFF by the counters (R410, Table 10). -/
def canJudge (d : Dev) (c : Nat) : Dev :=
  let p := pgCan c
  let t := d.get p CAN.ERRC_TEC
  let r := d.get p CAN.ERRC_REC
  let st := d.get p CAN.BUS_STATE
  if st = 2 ∨ st = 3 then d.canState c (if t > 255 then 4 else if t > 127 ∨ r > 127 then 3 else 2) else d

/-- `BUS.ACKRUN` returns to 0, and with it LONELY (R412). -/
def canHeard (d : Dev) (c : Nat) : Dev := (d.put (pgCan c) CAN.BUS_ACKRUN 0).put (pgCan c) CAN.BUS_LONELY 0

/-- CAN_LONELY when `ACKRUN` has reached `LONELY.N` (R412). -/
def canLonely (d : Dev) (c : Nat) : Dev :=
  let p := pgCan c
  let n := d.get p CAN.LONELY_N
  if n = 0 || decide (d.get p CAN.BUS_ACKRUN < n) || d.on p CAN.BUS_LONELY then d
  else ((d.put p CAN.BUS_LONELY 1).stat p 3).fault p cCAN_LONELY c

/-- Whether a controller takes part in bus traffic: in service, or completing the frame on the bus after it was disabled (R398, R410). -/
def canLive (d : Dev) (c : Nat) : Bool :=
  let st := d.get (pgCan c) CAN.BUS_STATE
  st == 2 || st == 3 || (d.canCh c).fin

/-- The frame on the bus has ended: a controller that was disabled in it stops; a transmit counter above 255 is bus-off, which is kept (R398, R410). -/
def canFin (d : Dev) (c : Nat) : Dev :=
  let off := (d.canCh c).fin && decide (d.get (pgCan c) CAN.ERRC_TEC > 255)
  d.modCan c (fun x => { x with fin := false, keptOff := x.keptOff || off })

/-- A bus error (R399, R410, R412): the last error, and outside RESTRICTED and MONITOR the counters. `tx` says that the controller was
sending; `dom` that it saw a dominant bit during or after its error flag (the counting rules are those of ISO 11898-1). -/
def canError (d : Dev) (c : Nat) (tx : Bool) (lec : Nat) (data dom : Bool) : Dev :=
  let p := pgCan c
  let st := d.get p CAN.BUS_STATE
  if !d.canLive c then d
  else
    let d := (d.put p CAN.LEC_CODE lec).putb p CAN.LEC_DATA data
    let d := if tx && lec = 3 then d.put p CAN.BUS_ACKRUN (satU 8 (d.get p CAN.BUS_ACKRUN + 1)) else d
    let d :=
      if d.get p CAN.MODE_OP ≠ 0 then d
      else if tx then (if lec = 3 && st = 3 && !dom then d else d.put p CAN.ERRC_TEC (satU 9 (d.get p CAN.ERRC_TEC + 8)))
      else d.put p CAN.ERRC_REC (satU 8 (d.get p CAN.ERRC_REC + (if dom then 8 else 1)))
    if tx then (d.canJudge c).canLonely c else ((d.canJudge c).canLonely c).canFin c

/-- Place an entry in the receive queue (R401 to R403), with the time-stamp at the start-of-frame edge. -/
def canQueue (d : Dev) (c : Nat) (f : Frame) (echo : Bool) (sof : Sof) : Dev :=
  let p := pgCan c
  let n := d.get p CAN.RX_OWNED_N
  if n ≥ 1024 then ((d.bump p CAN.RX_DROP_COUNT).err p cCAN_RX_DROP).stat p 0
  else
    let e := d.get p CAN.RX_HEAD_IDX
    let w0 := f.id + f.ide.toNat * 2 ^ 29 + f.fdf.toNat * 2 ^ 30 + f.brs.toNat * 2 ^ 31
    let w1 := f.dlc + f.rtr.toNat * 2 ^ 4 + f.esi.toNat * 2 ^ 5 + echo.toNat * 2 ^ 6 + f.len * 2 ^ 8 + sof.sub.toNat * 2 ^ 20
    let ts := (d.now + 2 ^ 64 - sof.ago.toNat) % 2 ^ 64
    let ws := [w0, w1, ts % 2 ^ 32, ts / 2 ^ 32] ++ (List.range 16).map (fun i => leAt (takeZ f.len f.data) (4 * i) 4)
    let d := (List.range 20).foldl (fun d i => d.put p CAN.RXE_W (ws.getD i 0) i e) d
    let d := (d.put p CAN.RX_HEAD_IDX (e + 1)).put p CAN.RX_OWNED_N (n + 1)
    let d := if d.get p CAN.RX_HWM_N < n + 1 then d.put p CAN.RX_HWM_N (n + 1) else d
    if n = 0 then d.stat p 4 else d

/-- `RX_ACK` (R402). -/
def canAck (d : Dev) (c n : Nat) : Dev :=
  let p := pgCan c
  let own := d.get p CAN.RX_OWNED_N
  if n > own then d.err p cRANGE
  else (d.put p CAN.RX_TAIL_IDX (d.get p CAN.RX_TAIL_IDX + n)).put p CAN.RX_OWNED_N (own - n)

/-! ### Remote station manager (R419 to R421) -/

/-- Show the states of the stations in `DOWNi` and `COUNT`. -/
def rsmShow (d : Dev) : Dev :=
  let p := shp .rsm
  let en (s : Nat) : Bool := d.on p RSM.STN_CFG_EN 0 s
  let up (s : Nat) : Bool := d.get p RSM.STN_ST_STATE 0 s == 2
  let l := List.range 288
  let d := (List.range 9).foldl (fun d i => d.put p RSM.DOWN_BITS (bitsOf 32 (fun j => en (32 * i + j) && !up (32 * i + j))) i) d
  (d.put p RSM.COUNT_UP (l.filter up).length).put p RSM.COUNT_EN (l.filter en).length

/-- A station goes DOWN: from UP it is counted, reported and recorded (R420). -/
def rsmDown (d : Dev) (s : Nat) : Dev :=
  let p := shp .rsm
  let was := d.get p RSM.STN_ST_STATE 0 s
  let d := (d.put p RSM.STN_ST_STATE 1 0 s).put p RSM.STN_ST_UPRUN 0 0 s
  if was = 2 then ((d.bump p RSM.STN_ST_DOWNS 0 s).stat p 0).fault p cRS_DOWN s else d

/-- A frame of a station's status identifier (R420). -/
def rsmFrame (d : Dev) (s : Nat) (f : Frame) : Dev :=
  let p := shp .rsm
  let len := d.get p RSM.STN_CFG_LEN 0 s
  if f.len < len then ((d.bump p RSM.STN_SHORT_COUNT 0 s).stat p 2).err p cRS_SHORT s
  else
    let d := (d.wrapUp p RSM.STN_FRAMES_COUNT 0 s).put64 p RSM.STN_LAST_LO RSM.STN_LAST_HI d.now 0 s
    let img := takeZ 64 ((takeZ f.len f.data).take len)
    let d := { d with lane := { d.lane with img := (s, img) :: d.lane.img.filter (fun e => e.1 != s) } }
    let run := d.get p RSM.STN_ST_UPRUN 0 s + 1
    let d := d.put p RSM.STN_ST_MISS 0 0 s
    if d.get p RSM.STN_ST_STATE 0 s = 1 then
      if run ≥ d.get p RSM.STN_CFG_UPN 0 s then
        (((d.put p RSM.STN_ST_STATE 2 0 s).put p RSM.STN_ST_UPRUN run 0 s).stat p 1).note p clsState 2 s
      else d.put p RSM.STN_ST_UPRUN run 0 s
    else d

/-- A full `PER` has elapsed without a status frame (R420). -/
def rsmMiss (d : Dev) (s : Nat) : Dev :=
  let p := shp .rsm
  if !d.enabled p || !d.on p RSM.STN_CFG_EN 0 s then d
  else
    let m := d.get p RSM.STN_ST_MISS 0 s + 1
    let d := (d.put p RSM.STN_ST_MISS (if m > 3 then 3 else m) 0 s).put p RSM.STN_ST_UPRUN 0 0 s
    if m ≥ 3 then (d.rsmDown s).rsmShow else d

/-- Whether two enabled stations watch the same frame (R419, Table 14), under a view. -/
def rsmClash (v : View) (a b : Nat) : Bool :=
  v RSM.STN_CFG_EN 0 a == 1 && v RSM.STN_CFG_EN 0 b == 1 && v RSM.STN_CFG_CTRL 0 a == v RSM.STN_CFG_CTRL 0 b &&
    v RSM.STN_CFG_IDE 0 a == v RSM.STN_CFG_IDE 0 b && v RSM.STN_ID_ID 0 a == v RSM.STN_ID_ID 0 b

/-- The rules of the station table (R419, Table 14) for the stations that have a staged value. -/
def rsmRules (d : Dev) (half : HalfId) (v : View) : List RuleFail :=
  let p := shp .rsm
  let touched := (d.shadow.filter (fun e => decide (e.page = p ∧ e.half = some half))).map (fun e => e.t)
  touched.flatMap (fun s =>
    let per := v RSM.STN_PER_MS 0 s
    let en := v RSM.STN_CFG_EN 0 s == 1
    let e : Fld × Nat × Nat := (RSM.STN_CFG_EN, 0, s)
    (if per ≠ 0 ∧ (per < 5 ∨ per > 500) then [(⟨[(RSM.STN_PER_MS, 0, s)], cRANGE⟩ : RuleFail)] else []) ++
    (if en && per = 0 then [(⟨[(RSM.STN_PER_MS, 0, s), e], cZERO⟩ : RuleFail)] else []) ++
    (if en && v RSM.STN_CFG_UPN 0 s = 0 then [(⟨[(RSM.STN_CFG_UPN, 0, s), e], cZERO⟩ : RuleFail)] else []) ++
    (if (List.range 288).any (fun b => b != s && rsmClash v s b) then
      [(⟨[e, (RSM.STN_CFG_CTRL, 0, s), (RSM.STN_CFG_IDE, 0, s), (RSM.STN_ID_ID, 0, s)], cPAIR⟩ : RuleFail)] else []) ++
    (if v RSM.STN_CFG_IDE 0 s = 0 && decide (v RSM.STN_ID_ID 0 s ≥ 2 ^ 11) then
      [(⟨[(RSM.STN_CFG_IDE, 0, s), (RSM.STN_ID_ID, 0, s)], cRANGE⟩ : RuleFail)] else []))

/-- One event of the RSM page: an enabled entry goes DOWN, a disabled one OFF, and a changed one DOWN (R420, Table 15). -/
def applyRsm (d : Dev) (half : HalfId) (bnd seq : Nat) : Dev :=
  let p := shp .rsm
  let key (d : Dev) (s : Nat) : List Nat := [RSM.STN_CFG_CTRL, RSM.STN_CFG_IDE, RSM.STN_ID_ID, RSM.STN_CFG_LEN].map (fun f => d.get p f 0 s)
  let touched := ((d.shadow.filter (fun e => decide (e.page = p ∧ e.half = some half))).map (fun e => e.t)).eraseDups
  let d1 := d.applyPage p (some half) (d.rsmRules half) bnd seq
  if touched.isEmpty then d1
  else
    (touched.foldl (fun x s =>
      let en := x.on p RSM.STN_CFG_EN 0 s
      let was := d.on p RSM.STN_CFG_EN 0 s
      if !en then (if was then (x.put p RSM.STN_ST_STATE 0 0 s).put p RSM.STN_ST_UPRUN 0 0 s else x)
      else if !was || key d s != key x s then x.rsmDown s else x) d1).rsmShow

/-- An abort of RSM: every enabled station goes DOWN (R421). -/
def abortRsm (d : Dev) : Dev :=
  let p := shp .rsm
  (((List.range 288).foldl (fun d s => if d.on p RSM.STN_CFG_EN 0 s then d.rsmDown s else d) (d.abortPage p true))).rsmShow

/-! ### Reception (R401, R403, R404) -/

/-- A valid frame reaches the other receivers of the part: safe-frame tap, servo lane, station manager, receive variables (R403).
A remote frame carries no data bytes: with a status identifier it is a frame that is too short (R136, R209, R420). -/
def canSpread (d : Dev) (c : Nat) (f : Frame) : Dev :=
  let bs := takeZ f.len f.data
  let d := d.safeFrame c (f.id + f.ide.toNat * 2 ^ 31) f.fdf f.dlc bs
  let hit (d : Dev) (p : Nat) (en ide id : Fld) : Bool := d.on p en && d.on p ide == f.ide && d.get p id == f.id
  let data : List Byte := if f.rtr then [] else bs.map (BitVec.ofNat 8)
  let d := if c = 2 then
      d.both (fun d h => (List.range 4).foldl (fun d n =>
        if hit d (pgMpg h n) MPG.DRV_ID_EN MPG.DRV_ID_IDE MPG.DRV_ID_ID then d.drvFrame h n data else d) d)
    else if c = 0 then
      d.both (fun d h => (List.range 8).foldl (fun d k =>
        if d.on (pgDax h k) DAX.CFG_TYPE && hit d (pgDax h k) DAX.DRV_ID_EN DAX.DRV_ID_IDE DAX.DRV_ID_ID then d.doorFrame h k data else d) d)
    else d
  let r := shp .rsm
  let stns := if d.enabled r then
      (List.range 288).filter (fun s => d.get r RSM.STN_CFG_CTRL 0 s == c &&
        d.on r RSM.STN_CFG_EN 0 s && d.on r RSM.STN_CFG_IDE 0 s == f.ide && d.get r RSM.STN_ID_ID 0 s == f.id)
    else []
  let d := if stns.isEmpty then d else (stns.foldl (fun d s => d.rsmFrame s f) d).rsmShow
  { d with lane := { d.lane with rx := d.lane.rx.map (fun x =>
      if x.ctrl = c ∧ x.ide = f.ide ∧ x.id = f.id then { x with data := bs, fresh := true } else x) } }

/-- A valid frame from another node (R399, R401, R410, R412). -/
def canReceive (d : Dev) (c : Nat) (f : Frame) (sof : Sof) : Dev :=
  let p := pgCan c
  if !d.canLive c then d
  else
    let r := d.get p CAN.ERRC_REC
    let d := if d.get p CAN.MODE_OP ≠ 0 then d else d.put p CAN.ERRC_REC (if r > 127 then 127 else r - 1)
    ((((d.canHeard c).canJudge c).canQueue c f false sof).canSpread c f).canFin c

/-- Whether an attempt of a buffer is under way: its arbitration has begun, or begins as the first that may start on an idle bus. -/
def canRuns (d : Dev) (c b : Nat) : Bool :=
  d.canPend c b && (match (d.canCh c).begun with | some a => a == b | none => decide (d.canMay c = some b))

/-- The transmitter loop delay of a frame, if one was measured: of an FD frame with BRS that came past its FDF bit (R397). -/
def canTdc (d : Dev) (c : Nat) (f : Frame) (tdc : Option Nat) : Dev :=
  let p := pgCan c
  match tdc with
  | some t =>
    if d.on p CAN.TDC_EN && f.fdf && f.brs then
      let d := d.put p CAN.TDC_MEAS t
      if t = 0 ∨ t + d.get p CAN.TDC_TDCO ≥ 128 then (d.err p cCAN_TDC).stat p 5 else d
    else d
  | none => d

/-- An attempt ends (R407, R412): SENT, ARB_LOST or ERROR. A request that a lane has made meanwhile then waits. -/
def canTxEnd (d : Dev) (c b result lec : Nat) (sof : Sof) (tdc : Option Nat) : Dev :=
  let p := pgCan c
  if !d.canRuns c b then d
  else
    let x := d.canCh c
    let f := x.run.getD (d.canFrame c b)
    let d := d.modCan c (fun x => { x with begun := none, run := none, again := false })
    let d := d.canTdc c f (if result = 3 then none else tdc)
    let d := d.canEnd c b result (if result = 4 then lec else 0) 0
    let d := if result = 2 then
        let d := ((d.put p CAN.ERRC_TEC (d.get p CAN.ERRC_TEC - 1)).canHeard c).canJudge c
        if d.on p CAN.MODE_TXECHO then d.canQueue c f true sof else d
      else d
    let d := if result = 3 then d else d.canFin c
    if x.again && x.begun.isSome then d.canPut c b else d

/-- A cancel of one buffer: only a request whose arbitration has not begun (R407). -/
def canCancel (d : Dev) (c b : Nat) : Dev :=
  if d.canPend c b && decide ((d.canCh c).begun ≠ some b) then d.canEnd c b 5 0 0 else d

/-- The lease has become invalid: requests that have not started arbitration end NO_LEASE on every controller (R394). -/
def canNoLease (d : Dev) : Dev := (List.range 4).foldl (fun d c => d.canDrop c 5) d

/-! ### Staging (R396, R398, R399, R408) -/

/-- Bit-timing fields of R396. -/
def canTiming : List Fld :=
  [CAN.NBT_BRP, CAN.NBT_TSEG1, CAN.NBT_TSEG2, CAN.NSJW_SJW, CAN.DBT_DBRP, CAN.DBT_DTSEG1, CAN.DBT_DTSEG2, CAN.DBT_DSJW, CAN.TDC_EN, CAN.TDC_TDCO]

/-- The bit-timing rules of R396, Table 2, and the mode of R399, under a view; `en` is `CTRL.EN` in force. -/
def canTimingRules (en : Bool) (v : View) : List RuleFail :=
  let g (f : Fld) : Nat := v f 0 0
  let rf (fs : List Fld) (why : Nat) : RuleFail := ⟨fs.map (fun f => (f, 0, 0)), why⟩
  let nq := g CAN.NBT_BRP * (1 + g CAN.NBT_TSEG1 + g CAN.NBT_TSEG2)
  let dq := g CAN.DBT_DBRP * (1 + g CAN.DBT_DTSEG1 + g CAN.DBT_DTSEG2)
  let nf := [CAN.NBT_BRP, CAN.NBT_TSEG1, CAN.NBT_TSEG2]
  let df := [CAN.DBT_DBRP, CAN.DBT_DTSEG1, CAN.DBT_DTSEG2]
  (if en then canTiming.map (fun f => rf [f] cBUSY) else []) ++
  (nf ++ [CAN.NSJW_SJW] ++ df ++ [CAN.DBT_DSJW]).filterMap (fun f => if g f = 0 then some (rf [f] cZERO) else none) ++
  (if g CAN.NBT_TSEG1 < 2 then [rf [CAN.NBT_TSEG1] cRANGE] else []) ++
  (if nq < 80 ∨ nq > 8000 then [rf nf cRANGE] else []) ++
  (if dq < 10 ∨ dq > 80 then [rf df cRANGE] else []) ++
  (if dq > nq then [rf (nf ++ df) cRANGE] else []) ++
  (if g CAN.NSJW_SJW > g CAN.NBT_TSEG2 then [rf [CAN.NSJW_SJW, CAN.NBT_TSEG2] cPAIR] else []) ++
  (if g CAN.DBT_DSJW > g CAN.DBT_DTSEG2 then [rf [CAN.DBT_DSJW, CAN.DBT_DTSEG2] cPAIR] else []) ++
  (if g CAN.TDC_EN = 1 ∧ g CAN.DBT_DBRP > 2 then [rf [CAN.TDC_EN, CAN.DBT_DBRP] cPAIR] else []) ++
  (if dq < 80 ∧ g CAN.TDC_EN = 0 then [rf (df ++ [CAN.TDC_EN]) cPAIR] else []) ++
  (if g CAN.MODE_OP = 3 then [rf [CAN.MODE_OP] cRANGE] else [])

/-- The schedule rules of R408, Table 9, under a view; `expPer` is the export period in units of 0.1 µs. -/
def canSchedRules (expPer : Nat) (v : View) : List RuleFail :=
  let rows := v CAN.TT_CFG_ROWS 0 0
  let cols := v CAN.TT_CFG_COLS 0 0
  let sync := v CAN.TT_CFG_SYNC 0 0
  let len := v CAN.TT_LEN_US 0 0
  let period := if sync = 0 then expPer else 10 * (if sync = 1 then 15 else len)
  let start (c : Nat) : Nat := v CAN.TT_COL_START 0 c
  let cfg : List (Fld × Nat × Nat) := [(CAN.TT_CFG_ROWS, 0, 0), (CAN.TT_CFG_COLS, 0, 0), (CAN.TT_CFG_SYNC, 0, 0), (CAN.TT_LEN_US, 0, 0)]
  (if rows > 64 then [(⟨[(CAN.TT_CFG_ROWS, 0, 0)], cRANGE⟩ : RuleFail)] else []) ++
  (if cols > 32 then [(⟨[(CAN.TT_CFG_COLS, 0, 0)], cRANGE⟩ : RuleFail)] else []) ++
  (if rows ≠ 0 ∧ cols = 0 then [(⟨[(CAN.TT_CFG_ROWS, 0, 0), (CAN.TT_CFG_COLS, 0, 0)], cZERO⟩ : RuleFail)] else []) ++
  (if sync = 2 ∧ len = 0 then [(⟨[(CAN.TT_CFG_SYNC, 0, 0), (CAN.TT_LEN_US, 0, 0)], cZERO⟩ : RuleFail)] else []) ++
  (if rows = 0 then [] else
    (if (List.range (cols - 1)).any (fun c => start (c + 1) ≤ start c) || (cols != 0 && decide (10 * start (cols - 1) ≥ period)) then
      [(⟨cfg ++ (List.range 32).map (fun c => (CAN.TT_COL_START, 0, c)), cPAIR⟩ : RuleFail)] else []))

/-- A cell holds 0–127, 0xFE or 0xFF (R408, Table 9). -/
def canCellRules (d : Dev) (p : Nat) (half : HalfId) : List RuleFail :=
  (d.shadow.filter (fun e => decide (e.page = p ∧ e.half = some half ∧ e.fld = CAN.TT_CELL_BUF))).filterMap (fun e =>
    let x := e.val.toNat
    if x < 128 ∨ x ≥ 0xFE then none else some ⟨[(CAN.TT_CELL_BUF, 0, e.t)], cRANGE⟩)

/-- Export period of the lease holder in units of 0.1 µs (R109, R110): 62.5 µs × MULT × EXP_DIV. -/
def exportTenths (d : Dev) : Nat :=
  let p := pgMpg d.holder 0
  625 * d.get p MPG.SERVO_CFG_MULT * d.get p MPG.SERVO_CFG_EXP_DIV

/-- A TICK of REJOINING: sequences of 11 recessive bits that the bus has shown, at most as many as fit, are counted (R411). How many the bus shows is
not given: a free value (notes/assumptions/68.md). -/
def canRejCount (d : Dev) (c : Nat) : Dev :=
  let p := pgCan c
  if d.get p CAN.BUS_STATE ≠ 5 then d
  else
    let q := d.get p CAN.NBT_BRP * (1 + d.get p CAN.NBT_TSEG1 + d.get p CAN.NBT_TSEG2)
    let r := d.fresh
    r.2.put p CAN.REJ_CNT_SEQ (min 127 (d.get p CAN.REJ_CNT_SEQ + r.1.toNat % (1221 / (11 * q) + 2)))

/-- The number of the next FRAME event of a controller (R51). -/
def canCount (d : Dev) (c : Nat) : Nat × Dev :=
  let n := ((d.canCh c).frames + 1) % 65536
  (n, d.modCan c (fun x => { x with frames := n }))

/-- A controller is enabled: it integrates, and no buffer has had a request since (R398, R407, Table 7). -/
def canEnable (d : Dev) (c : Nat) : Dev :=
  let p := pgCan c
  let d := (List.range 128).foldl (fun d b => ((d.put p CAN.TXB_ST_RESULT 0 0 b).put p CAN.TXB_ST_LEC 0 0 b).put p CAN.TXB_ST_WHY 0 0 b) d
  d.canState c 1

/-- Apply the staged values of the holder's shadow at a FRAME event, and act on `CTRL.EN`, the mode and a new schedule (R398, R399, R408): a frame that
is on the bus (`busy`) as the controller is disabled is completed. -/
def canFrameEvent (d : Dev) (c : Nat) (busy : Bool) : Dev :=
  let p := pgCan c
  let k := (d.canRejCount c).canCount c
  let d := k.2
  match d.holder? with
  | none => (d.put p HDR.COMMIT_SEQ k.1 0 0).put p HDR.COMMIT_SEQ k.1 0 1
  | some h =>
    let en := d.enabled p
    let mode := d.get p CAN.MODE_OP
    let sched (d : Dev) : List Nat := [CAN.TT_CFG_ROWS, CAN.TT_CFG_COLS, CAN.TT_CFG_SYNC].map (fun f => d.get p f)
    let was := sched d
    let per := d.exportTenths
    let d := d.applyPage p (some h) (fun v => canTimingRules en v ++ canSchedRules per v ++ d.canCellRules p h) 3 k.1
    let d := if sched d != was then (d.put p CAN.TT_ROW_IDX 0).modCan c (fun x => { x with changed := true }) else d
    let d :=
      if d.enabled p && !en then d.canEnable c
      else if !d.enabled p && en then
        let st := d.get p CAN.BUS_STATE
        (d.modCan c (fun x => { x with keptOff := x.keptOff || st == 4 || st == 5, fin := busy && (st == 2 || st == 3) })).canState c 0
      else d
    if d.get p CAN.MODE_OP ≠ mode ∧ d.get p CAN.MODE_OP ≠ 0 then d.canDrop c 2 else d

/-- An abort of a CAN block (R400). -/
def abortCan (d : Dev) (c : Nat) : Dev :=
  let p := pgCan c
  let st := d.get p CAN.BUS_STATE
  let d := d.modCan c (fun x => { x with keptOff := x.keptOff || st == 4 || st == 5, begun := none, run := none, again := false, fin := false })
  ((d.canDrop c 4).canState c 0).abortPage p true

/-- Integration ends (R410). -/
def canIntegrated (d : Dev) (c : Nat) : Dev :=
  let p := pgCan c
  if d.get p CAN.BUS_STATE ≠ 1 then d
  else if (d.canCh c).keptOff then d.canState c 4
  else d.canState c (if d.get p CAN.ERRC_TEC > 127 ∨ d.get p CAN.ERRC_REC > 127 then 3 else 2)

/-- A cell of the schedule matrix as configured. -/
def canCell (d : Dev) (c row col : Nat) : Nat := d.get (pgCan c) CAN.TT_CELL_BUF 0 (row * 32 + col)

/-- The matrix in effect from a basic cycle start in a row: none without a schedule (R408, R409). -/
def canMat (d : Dev) (c row : Nat) : Option TtRow :=
  let p := pgCan c
  let rows := d.get p CAN.TT_CFG_ROWS
  let cols := d.get p CAN.TT_CFG_COLS
  if rows = 0 then none
  else some ⟨cols, (List.range cols).map (fun k => d.canCell c row k),
    (((List.range rows).flatMap (fun r => (List.range cols).map (fun k => d.canCell c r k))).filter (fun b => decide (b < 128))).eraseDups⟩

/-- A basic cycle starts (R408): a FRAME event occurs, the row advances, or starts at 0 with a new schedule, and the matrix in force takes effect. -/
def canBasicCycle (d : Dev) (c : Nat) (busy : Bool) : Dev :=
  let p := pgCan c
  if d.get p CAN.TT_CFG_ROWS = 0 && (d.canCh c).mat.isNone then d
  else
    let d := d.canFrameEvent c busy
    let rows := d.get p CAN.TT_CFG_ROWS
    let row := if (d.canCh c).changed ∨ rows = 0 then 0 else (d.get p CAN.TT_ROW_IDX + 1) % rows
    (d.put p CAN.TT_ROW_IDX row).modCan c (fun x => { x with mat := d.canMat c row, changed := false, col := none, arm := none })

/-- A column of the matrix in effect starts: the window waits for the buffer its cell names, if that buffer's request is pending; on an idle bus
(`start`) what the window lets start begins (R409). -/
def canColumn (d : Dev) (c col : Nat) (start : Bool) : Dev :=
  match (d.canCh c).mat with
  | none => d
  | some m =>
    if col ≥ m.cols then d
    else
      let b := m.cells.getD col 0xFF
      let d := d.modCan c (fun x => { x with col := some col, arm := if decide (b < 128) && d.canPend c b then some b else none })
      if start then d.canStart c else d

/-- A window ends without the start of its frame: NOT_SENT with reason WINDOW (R409). -/
def canWindowEnd (d : Dev) (c : Nat) : Dev :=
  let x := d.canCh c
  let d1 := d.modCan c (fun x => { x with col := none, arm := none })
  match x.arm with
  | some b => if d.canPend c b && decide (x.begun ≠ some b) then (d1.canEnd c b 6 0 6).err (pgCan c) cCAN_WINDOW b else d1
  | none => d1

/-- `REJOIN.GO` (R411): from BUS_OFF. -/
def canRejoin (d : Dev) (c : Nat) : Dev :=
  if d.get (pgCan c) CAN.BUS_STATE = 4 then (d.put (pgCan c) CAN.REJ_CNT_SEQ 0).canState c 5 else d

/-- A write of `TX_REQ` or `TX_CANCEL`: each buffer whose bit is 1, in rising order. -/
def canReqs (d : Dev) (c q bits : Nat) : Dev :=
  (List.range 32).foldl (fun d i => if bitN bits i = 1 then d.canReq c (32 * q + i) else d) d
def canCancels (d : Dev) (c q bits : Nat) : Dev :=
  (List.range 32).foldl (fun d i => if bitN bits i = 1 then d.canCancel c (32 * q + i) else d) d

end Dev

/-! ### Meanings -/

/-- A FRAME event at the end of a frame or at a TICK; `start` says that the bus is idle after it, so that a buffer that may start begins. -/
def execFrameEvent (c : Fin 4) (start : Bool) (s : State) : Host.Outcome State Fault Refusal :=
  onDev (fun d => let d := d.canFrameEvent c.val false; if start then d.canStart c.val else d) s

def execCanRxFrame (c : Fin 4) (id : BitVec 29) (ide fdf brs rtr esi : Bool) (dlc : BitVec 4) (data : List (BitVec 8)) (sof : Sof)
    (s : State) : Host.Outcome State Fault Refusal :=
  onDev (fun d => d.canReceive c.val ⟨id.toNat, ide, fdf, brs, dlc.toNat, rtr, esi, data.map BitVec.toNat⟩ sof) s

def execStationPeriodMiss (stn : Fin 288) (s : State) : Host.Outcome State Fault Refusal := onDev (fun d => d.rsmMiss stn.val) s

def execCanBusError (c : Fin 4) (tx : Bool) (lec : BitVec 3) (inData dom : Bool) (s : State) : Host.Outcome State Fault Refusal :=
  onDev (fun d => d.canError c.val tx lec.toNat inData dom) s

def execCanLonely (c : Fin 4) (s : State) : Host.Outcome State Fault Refusal := onDev (fun d => d.canLonely c.val) s

def execTxReq (c q : Fin 4) (bits : Word) (s : State) : Host.Outcome State Fault Refusal :=
  onDev (fun d => d.canReqs c.val q.val bits.toNat) s

def execTxCancel (c q : Fin 4) (bits : Word) (s : State) : Host.Outcome State Fault Refusal :=
  onDev (fun d => d.canCancels c.val q.val bits.toNat) s

/-- An attempt ends: `sent`, or lost in arbitration, or by an error of kind `lec` (R407); `tdc` is the loop delay, where one was measured. -/
def execCanTxEnd (c : Fin 4) (buf : Fin 128) (sent arbLost : Bool) (lec : BitVec 3) (sof : Sof) (tdc : Option (BitVec 7)) (s : State) :
    Host.Outcome State Fault Refusal :=
  onDev (fun d => d.canTxEnd c.val buf.val (if sent then 2 else if arbLost then 3 else 4) lec.toNat sof (tdc.map BitVec.toNat)) s

def execRxAck (c : Fin 4) (n : BitVec 11) (s : State) : Host.Outcome State Fault Refusal := onDev (fun d => d.canAck c.val n.toNat) s

/-- W1 to `REJOIN`: only in BUS_OFF (R411). -/
def execCanRejoin (c : Fin 4) (s : State) : Host.Outcome State Fault Refusal :=
  onDev (fun d => d.canRejoin c.val) s

/-- 128 sequences of 11 recessive bits: ERROR_ACTIVE with both counters 0 (R410). -/
def execCanRejoinDone (c : Fin 4) (s : State) : Host.Outcome State Fault Refusal :=
  onDev (fun d =>
    let p := pgCan c.val
    if d.get p CAN.BUS_STATE = 5 then
      ((((d.put p CAN.REJ_CNT_SEQ 128).put p CAN.ERRC_TEC 0).put p CAN.ERRC_REC 0).modCan c.val (fun x => { x with keptOff := false })).canState c.val 2
    else d) s

def execCanIntegrated (c : Fin 4) (s : State) : Host.Outcome State Fault Refusal := onDev (fun d => d.canIntegrated c.val) s
def execTtBasicCycle (bus : CanBus) (s : State) : Host.Outcome State Fault Refusal := onDev (fun d => d.canBasicCycle bus.c.val bus.busy) s
def execTtWindowEnd (c : Fin 4) (s : State) : Host.Outcome State Fault Refusal := onDev (fun d => d.canWindowEnd c.val) s
def execTtColumnStart (c : Fin 4) (col : Fin 32) (start : Bool) (s : State) : Host.Outcome State Fault Refusal :=
  onDev (fun d => d.canColumn c.val col.val start) s

end Sys2Proof.Machine
end

