-- ==== Sys2Proof/Machine/Rtc.lean ====
section
/-! DEFINITION. The real-time clock RTC and the calendar CAL (spec/16_rtc.md, R458 to R475). -/
namespace Sys2Proof.Machine

open Sys2Proof

/-! ### Codes (R475, Table 4) -/
def cRTC_DISCIPLINED : Nat := 0xB8
def cRTC_OSC_STOP : Nat := 0xB9
def cRTC_BAT_LOW : Nat := 0xBA
def cRTC_LOST : Nat := 0xBB
def cRTC_SKIPPED : Nat := 0xBC

/-- Length of a month, with a leap year in every year divisible by 4; month values 0 and 13 to 15 have 31 days (R469). -/
def monthLen (month year : Nat) : Nat :=
  if month = 4 ∨ month = 6 ∨ month = 9 ∨ month = 11 then 30
  else if month = 2 then (if year % 4 = 0 then 29 else 28)
  else 31

/-- Month and day (from 1) of a day of the year (from 0), searching `n` months from `m`. -/
def monthDay (year : Nat) : Nat → Nat → Nat → Nat × Nat
  | 0, m, r => (m, r + 1)
  | n + 1, m, r => if r < monthLen m year then (m, r + 1) else monthDay year n (m + 1) (r - monthLen m year)

/-- Year, month and day of a day count since the epoch, with a leap year every fourth year (R470). -/
def dateOf (days : Nat) : Nat × Nat × Nat :=
  let q := days % 1461
  let y := if q < 366 then 0 else 1 + (q - 366) / 365
  let year := 2000 + 4 * (days / 1461) + y
  let md := monthDay year 12 1 (if y = 0 then q else (q - 366) % 365)
  (year, md.1, md.2)

namespace Dev

def modRtc (d : Dev) (f : Rtc → Rtc) : Dev := { d with rtc := f d.rtc }

/-- A bit of `RTC.STATUS`. -/
def rtcStatus (d : Dev) (k : Nat) (b : Bool) : Dev := d.putBit (shp .rtc) RTC.STATUS_BITS k b
def rtcBit (d : Dev) (k : Nat) : Bool := bitN (d.get (shp .rtc) RTC.STATUS_BITS) k == 1

/-- Whether group discipline is in force: `GLK.TSYNC.STATE` is ACQUIRING, LOCKED or HOLDOVER (R464). -/
def disciplined (d : Dev) : Bool := d.get (shp .glk) GLK.TSYNC_STATE != 0

/-- Whether the module is supplied: an input is IN_OK (R461). -/
def supplied (d : Dev) : Bool := d.on (shp .pwr) PWR.IN_A_OK || d.on (shp .pwr) PWR.IN_B_OK

/-- The calendar at a SECOND carry: each step on the old value (R469). -/
def calCarry (d : Dev) : Dev :=
  let p := shp .cal
  let s := d.get p CAL.NOW0_SEC
  let mi := d.get p CAL.NOW0_MIN
  let ho := d.get p CAL.NOW0_HOUR
  let wd := d.get p CAL.NOW0_WDAY
  let da := d.get p CAL.NOW1_DAY
  let mo := d.get p CAL.NOW1_MONTH
  let ye := d.get p CAL.NOW1_YEAR
  if s < 59 then d.put p CAL.NOW0_SEC (s + 1)
  else
    let d := d.put p CAL.NOW0_SEC 0
    if mi < 59 then d.put p CAL.NOW0_MIN (mi + 1)
    else
      let d := d.put p CAL.NOW0_MIN 0
      if ho < 23 then d.put p CAL.NOW0_HOUR (ho + 1)
      else
        let d := (d.put p CAL.NOW0_HOUR 0).put p CAL.NOW0_WDAY (if wd ≥ 6 then 0 else wd + 1)
        if 1 ≤ da ∧ da < monthLen mo ye then d.put p CAL.NOW1_DAY (da + 1)
        else
          let d := d.put p CAL.NOW1_DAY 1
          if mo ≥ 12 then (d.put p CAL.NOW1_MONTH 1).put p CAL.NOW1_YEAR (ye + 1) else d.put p CAL.NOW1_MONTH (mo + 1)

/-- Rewrite the calendar from the count (R470). -/
def calSync (d : Dev) : Dev :=
  let p := shp .cal
  let secs := d.now / 65536
  let days := secs / 86400
  let dt := dateOf days
  let d := ((d.put p CAL.NOW0_SEC (secs % 60)).put p CAL.NOW0_MIN (secs / 60 % 60)).put p CAL.NOW0_HOUR (secs / 3600 % 24)
  let d := ((d.put p CAL.NOW0_WDAY ((days + 5) % 7)).put p CAL.NOW1_DAY dt.2.2).put p CAL.NOW1_MONTH dt.2.1
  (d.put p CAL.NOW1_YEAR dt.1).stat p 1

/-- The calendar words as `CAL.NOW0` and `CAL.NOW1` read. -/
def calWords (d : Dev) : Nat × Nat := (d.workWord (shp .cal) 0x40 0, d.workWord (shp .cal) 0x44 0)

/-- The synchronisation that `CAL.CMD.SYNC` asked for, with its record: the old and the new calendar words (R470, R471). -/
def calSyncCmd (d : Dev) : Dev :=
  let o := d.calWords
  let d := (d.modRtc (fun r => { r with calSync := false })).calSync
  d.note (shp .cal) clsTime 0 0 [o.1, o.2, d.calWords.1, d.calWords.2]

/-- Alarm k against the count (R472). -/
def rtcAlarm (d : Dev) (k : Nat) : Dev :=
  let p := shp .rtc
  let a := d.get64 p RTC.ALM_LO RTC.ALM_HI k
  let c := d.now
  if !d.on p RTC.ALM_ST_ARMED k || c < a then d
  else
    let d := (d.put p RTC.ALM_ST_FIRED 1 k).stat p k
    let d := if c > a then (((d.put p RTC.ALM_ST_SKIPPED 1 k).err p cRTC_SKIPPED k).note p clsTime cRTC_SKIPPED k [a % 2 ^ 32, a / 2 ^ 32]) else d
    let per := d.get p RTC.ALM_PER_S k * 65536
    if per = 0 then (d.put p RTC.ALM_ST_ARMED 0 k).modRtc (fun r => { r with fired := lset r.fired k true })
    else d.put64 p RTC.ALM_LO RTC.ALM_HI (a + ((c - a) / per + 1) * per) k

/-- A SET backward re-arms an alarm that firing disarmed (R473). -/
def rtcRearm (d : Dev) (k : Nat) : Dev :=
  let p := shp .rtc
  if d.rtc.fired.getD k false && d.on p RTC.ALM_CTL_REARM k && decide (d.now < d.get64 p RTC.ALM_LO RTC.ALM_HI k) then
    (d.put p RTC.ALM_ST_ARMED 1 k).modRtc (fun r => { r with fired := lset r.fired k false })
  else d

/-- A pending SET replaces the count (R466, R468): the record carries the old and the new count. -/
def rtcApplySet (d : Dev) (v : Nat) (mid priv : Nat) : Dev :=
  let p := shp .rtc
  let old := d.now
  let d := d.put64 p RTC.NOW_LO RTC.NOW_HI v
  let ws := [old % 2 ^ 32, old / 2 ^ 32, v % 2 ^ 32, v / 2 ^ 32]
  let d := d.post ⟨v, 0, 16, clsTime, 0, srcOf p, p % 256, mid, priv, 0, ws.flatMap (leBytes 4)⟩
  let d := (d.put p RTC.SET_ST_STATE 2).put p RTC.SET_ST_REASON 0
  let d := ((d.stat p 4).rtcStatus 0 true).rtcStatus 1 false
  let d := d.modRtc (fun r => { r with pend := none })
  if v < old then (List.range 4).foldl rtcRearm d else d

/-- Rules of RTC: the local trim lies within ±200,000 ppb (R464). -/
def rtcRules (v : View) : List RuleFail :=
  let t := sgn 32 (v RTC.TRIM_PPB 0 0)
  if t < -200000 ∨ t > 200000 then [⟨[(RTC.TRIM_PPB, 0, 0)], cRANGE⟩] else []

/-- The staged entries of a page in a half's shadow. -/
def waiting (d : Dev) (p : Nat) (half : Option HalfId) : List Staged := d.shadow.filter (fun e => decide (e.page = p ∧ e.half = half))

/-- The staged values that an event has applied: those that waited before and wait no longer. -/
def applied (was d : Dev) (p : Nat) (half : Option HalfId) : List Staged :=
  (was.waiting p half).filter (fun e => !(d.waiting p half).any (fun x => decide (x.fld = e.fld ∧ x.i = e.i ∧ x.t = e.t)))

/-- Staged values of RTC at a TICK: applying `ARM` arms or disarms (R472, R474). -/
def applyRtc (d : Dev) (h : HalfId) (seq : Nat) : Dev :=
  let p := shp .rtc
  let d' := d.applyPage p (some h) rtcRules 4 seq
  ((applied d d' p (some h)).filter (fun e => decide (e.fld = RTC.ALM_CTL_ARM))).foldl (fun x e =>
    (x.put p RTC.ALM_ST_ARMED (e.val.toNat % 2) e.i).modRtc (fun r => { r with fired := lset r.fired e.i false })) d'

/-- Staged values of CAL at a TICK (R471): each word stands in the calendar as written. -/
def applyCal (d : Dev) (h : HalfId) (seq : Nat) : Dev :=
  let p := shp .cal
  let d' := d.applyPage p (some h) (fun _ => []) 4 seq
  (applied d d' p (some h)).foldl (fun x e =>
    let v := e.val.toNat
    if e.fld = CAL.SETV0 then
      ((((x.put p CAL.NOW0_SEC v).put p CAL.NOW0_MIN (v / 2 ^ 8)).put p CAL.NOW0_HOUR (v / 2 ^ 16)).put p CAL.NOW0_WDAY (v / 2 ^ 24)).stat p 0
    else if e.fld = CAL.SETV1 then
      (((x.put p CAL.NOW1_DAY v).put p CAL.NOW1_MONTH (v / 2 ^ 8)).put p CAL.NOW1_YEAR (v / 2 ^ 16)).stat p 0
    else x) d'

/-- The clock at a TICK (R468): the SET or the count with its carry, staged values, synchronisation, alarms; and whether the seconds changed. -/
def rtcTick (d : Dev) : Dev × Bool :=
  let p := shp .rtc
  let old := d.now
  let setSync := match d.rtc.pend with | some (_, s, _, _) => s | none => false
  let d := match d.rtc.pend with
    | some (v, _, mid, priv) => d.rtcApplySet v mid priv
    | none =>
      let c := (old + 1) % 2 ^ 64
      let d := d.put64 p RTC.NOW_LO RTC.NOW_HI c
      if c % 65536 = 0 then d.calCarry else d
  let seq := d.now % 65536
  let sec := d.now / 65536 != old / 65536
  let d := match d.holder? with
    | some h => (d.applyRtc h seq).applyCal h seq
    | none => ([p, shp .cal] : List Nat).foldl (fun d p => (d.put p HDR.COMMIT_SEQ seq 0 0).put p HDR.COMMIT_SEQ seq 0 1) d
  let d := if d.rtc.calSync then d.calSyncCmd else if setSync then d.calSync else d
  ((List.range 4).foldl rtcAlarm d, sec)

/-- `SET_CMD` with GO (R466, R467). -/
def rtcSet (d : Dev) (w : Who) (sync : Bool) : Dev :=
  let p := shp .rtc
  if d.disciplined then
    (((d.put p RTC.SET_ST_STATE 3).put p RTC.SET_ST_REASON cRTC_DISCIPLINED).stat p 5).err p cRTC_DISCIPLINED
  else
    ((d.modRtc (fun r => { r with pend := some (r.setVal, sync, w.mid, d.privByte w) })).put p RTC.SET_ST_STATE 1).put p RTC.SET_ST_REASON 0

/-- `SET_CMD` with CANCEL (R466): the pending SET of firmware is withdrawn. -/
def rtcCancel (d : Dev) : Dev :=
  match d.rtc.pend with
  | some (_, _, mid, _) => if mid = 0x1F then d else (d.modRtc (fun r => { r with pend := none })).put (shp .rtc) RTC.SET_ST_STATE 0
  | none => d

/-- A write of the high word of `RTC.SET` completes the pair (R62, R466). -/
def rtcSetPair (d : Dev) (v : Nat) : Dev := (d.put64 (shp .rtc) RTC.SET_LO RTC.SET_HI v).modRtc (fun r => { r with setVal := v })

/-- CAPTURE (R465). -/
def rtcCapture (d : Dev) : Dev :=
  let p := shp .rtc
  ((d.put64 p RTC.CAP_LO RTC.CAP_HI d.now).put p RTC.CAP_CAL0 d.calWords.1).put p RTC.CAP_CAL1 d.calWords.2

/-- An abort of RTC or CAL (R67, R474): staged values and a pending SET go, with CAL its pending synchronisation; the count keeps running. -/
def abortRtc (d : Dev) (p : Nat) : Dev :=
  (if p = shp .cal then d.modRtc (fun r => { r with calSync := false }) else d).rtcCancel.modRtc (fun r => { r with pend := none }) |>.abortPage p false

/-- Show whether the charger drives current (R462): enabled, not on VBAT, the limit not reached. -/
def chgShow (d : Dev) : Dev := d.rtcStatus 4 (d.on (shp .rtc) RTC.CHG_EN && !d.rtc.onVbat && !d.rtc.full)

/-- VBAT against the limit in force (R462): the charger stops at the limit and resumes 50 mV below it. -/
def charger (d : Dev) (mv : Nat) : Dev :=
  let lim := if d.on (shp .rtc) RTC.CHG_LIM then 3300 else 3000
  (d.modRtc (fun r => { r with full := decide (lim ≤ mv) || (r.full && decide (lim < mv + 50)) })).chgShow

/-- `CHG` has been written (R462): a limit other than `lim`, the one before, has not been reached yet. -/
def chgSet (d : Dev) (lim : Nat) : Dev :=
  (if d.get (shp .rtc) RTC.CHG_LIM = lim then d else d.modRtc (fun r => { r with full := false })).chgShow

/-- The measurement of VBAT, once per second while supplied (R463). -/
def vbatMeasure (d : Dev) (mv : Nat) : Dev :=
  let p := shp .rtc
  if d.rtc.onVbat then d
  else
    let d := d.put p RTC.BAT_MV mv
    if mv < 2300 then (if d.rtcBit 3 then d else ((d.rtcStatus 3 true).stat p 7).err p cRTC_BAT_LOW)
    else if mv > 2400 then d.rtcStatus 3 false
    else d

/-- No crystal edge for 1 ms while the module is supplied (R460). -/
def oscStop (d : Dev) : Dev :=
  let p := shp .rtc
  if d.rtc.onVbat || d.rtcBit 2 then d
  else (((d.rtcStatus 2 true).stat p 6).err p cRTC_OSC_STOP).note p clsTime cRTC_OSC_STOP

/-- The loss of the always-on domain, found at the next power-up (R459). -/
def rtcLost (d : Dev) : Dev :=
  let p := shp .rtc
  let d := ((d.put64 p RTC.NOW_LO RTC.NOW_HI 0).modRtc (fun r => { r with pend := none, calSync := false, fired := List.replicate 4 false })).calSync
  let d := (List.range 4).foldl (fun d k =>
    let d := ((d.put64 p RTC.ALM_LO RTC.ALM_HI 0 k).put p RTC.ALM_PER_S 0 k).put p RTC.ALM_CTL_ARM 0 k
    (((d.put p RTC.ALM_CTL_REARM 0 k).put p RTC.ALM_ST_ARMED 0 k).put p RTC.ALM_ST_FIRED 0 k).put p RTC.ALM_ST_SKIPPED 0 k) d
  let d := ((((d.put p RTC.TRIM_PPB 0).put p RTC.CHG_EN 0).put p RTC.CHG_RSEL 0).put p RTC.CHG_LIM 0).chgSet 2
  (((d.rtcStatus 1 true).rtcStatus 0 false).err p cRTC_LOST).note p clsTime cRTC_LOST

end Dev

/-! ### Meanings -/

def execAlarmFire (k : Fin 4) (s : State) : Host.Outcome State Fault Refusal := onAny (fun d => d.rtcAlarm k.val) s

def execRtcSet (mid : BitVec 8) (mach : Bool) (val : BitVec 64) (sync : Bool) (s : State) : Host.Outcome State Fault Refusal :=
  onDev (fun d => (d.rtcSetPair val.toNat).rtcSet ⟨mid.toNat, mach⟩ sync) s

def execRtcSetCancel (s : State) : Host.Outcome State Fault Refusal := onDev (fun d => d.rtcCancel) s
def execRtcCapture (s : State) : Host.Outcome State Fault Refusal := onDev (fun d => d.rtcCapture) s
def execCalSync (s : State) : Host.Outcome State Fault Refusal := onDev (fun d => d.modRtc (fun r => { r with calSync := true })) s
def execRtcOscStop (s : State) : Host.Outcome State Fault Refusal := onDev (fun d => d.oscStop) s

/-- The crystal has run for 1 s (R460), on whatever supply. -/
def execRtcOscResume (s : State) : Host.Outcome State Fault Refusal := onAny (fun d => d.rtcStatus 2 false) s

/-- The always-on domain takes its supply: VBAT while neither input is IN_OK (R461); the charger works from the module's supply only (R462). -/
def execVbatSwitchover (s : State) : Host.Outcome State Fault Refusal :=
  onAny (fun d =>
    let v := !d.supplied
    (d.modRtc (fun r => { r with onVbat := v })).chgShow) s

def execChargerLimit (mv : BitVec 16) (s : State) : Host.Outcome State Fault Refusal := onAny (fun d => d.charger mv.toNat) s
def execVbatMeasure (mv : BitVec 16) (s : State) : Host.Outcome State Fault Refusal := onDev (fun d => d.vbatMeasure mv.toNat) s

end Sys2Proof.Machine
end

