-- ==== Sys2Proof/Machine/Shoal.lean ====
section
/-! DEFINITION. Shoal, the assignment engine: calls, stop sequences, evaluation, publication (spec/08_dispatch_shoal.md). -/
namespace Sys2Proof.Machine

open Sys2Proof

/-! ### Codes (R244) -/
def cSHL_FULL : Nat := 0x90
def cSHL_NO_CAR : Nat := 0x91
def cSHL_FLOOR : Nat := 0x92
def cSHL_SLOT : Nat := 0x93
def cSHL_FWD_TMO : Nat := 0x94
def cSHL_DMA : Nat := 0x95
def cSHL_SLOT_DUP : Nat := 0x96
def cSHL_RES_FULL : Nat := 0x97
def cSHL_NOT_HEAD : Nat := 0x98

/-- A call as frames carry it. -/
def Call.toG (c : Call) : GCall :=
  { key := BitVec.ofNat 32 c.key, state := BitVec.ofNat 4 c.state, kind := BitVec.ofNat 4 c.kind, src := BitVec.ofNat 8 c.src,
    dst := BitVec.ofNat 8 c.dst, count := BitVec.ofNat 4 c.count, access := c.access, prio := c.prio, held := c.held,
    car := BitVec.ofNat 6 c.car, deck := c.deck, valid := c.valid, reg := BitVec.ofNat 64 c.reg, tag := BitVec.ofNat 32 c.tag,
    cost := BitVec.ofNat 32 c.cost, etaP := BitVec.ofNat 16 c.etaP, etaD := BitVec.ofNat 16 c.etaD }

/-- A call that frames carried. -/
def Call.ofG (g : GCall) : Call :=
  { state := g.state.toNat, kind := g.kind.toNat, src := g.src.toNat, dst := g.dst.toNat, count := g.count.toNat, access := g.access,
    prio := g.prio, held := g.held, locked := false, car := g.car.toNat, deck := g.deck, valid := g.valid, reg := g.reg.toNat,
    key := g.key.toNat, tag := g.tag.toNat, cost := g.cost.toNat, etaP := g.etaP.toNat, etaD := g.etaD.toNat, rejected := false, ours := false }

/-- A call as a report carries it: the assignments the module made itself keep their car (R237, R239). -/
def Call.toReport (c : Call) : GCall := { c with held := c.held || c.ours }.toG

/-- An insertion that is tried: the sequence after it, the indexes of pickup and dropoff, the stops created, and whether the pickup is where the
car stands. -/
structure Plan where
  seq : List Stop
  pick : Option Nat
  drop : Option Nat
  created : Nat
  here : Bool

/-- The position of a plan: that of the pickup, then that of the dropoff; a pickup where the car stands comes first. -/
def Plan.pos (pl : Plan) : Nat := (match pl.pick with | some i => i + 1 | none => 0) * 64 + pl.drop.getD 0

namespace Dev

def shl (d : Dev) (h : HalfId) : Shl := (d.half h).shl
def modShl (d : Dev) (h : HalfId) (f : Shl → Shl) : Dev := d.modHalf h (fun x => { x with shl := f x.shl })

/-! ### Scope, cars, floors (R217 to R222) -/

/-- Mode of the scope: 0 LOCAL, 1 GROUP, 2 FORWARD, 3 ISLAND. -/
def shlMode (d : Dev) (h : HalfId) : Nat := d.get (ctl .shl h) SHL.SCOPE_MODE
def shlPassive (d : Dev) (h : HalfId) : Bool := d.on (ctl .shl h) SHL.SCOPE_PASSIVE
def ownSlot (d : Dev) (h : HalfId) : Nat := d.get (ctl .shl h) SHL.SHAFT_SLOT
def carKnown (d : Dev) (h : HalfId) (c : Nat) : Bool := d.on (ctl .shl h) SHL.CAR_CFG_EN 0 c
def isOwn (d : Dev) (h : HalfId) (c : Nat) : Bool := c / 4 == d.ownSlot h

/-- Cars in the scope: all of the group, or the module's own (R217, Table 1). -/
def inScope (d : Dev) (h : HalfId) (c : Nat) : Bool := decide (c < 64) && d.carKnown h c && (d.shlMode h == 1 || d.isOwn h c)

def fmLand (d : Dev) (h : HalfId) (s f : Nat) : Nat := d.get (ctl .shl h) SHL.FM_LAND_IDX 0 (s * 256 + f)
def fmPos (d : Dev) (h : HalfId) (s f : Nat) : Int := d.geti (ctl .shl h) SHL.FM_POS_UM 0 (s * 256 + f)
def served (d : Dev) (h : HalfId) (s f : Nat) : Bool := decide (f < 256) && d.fmLand h s f != 0xFF
def inBand (d : Dev) (h : HalfId) (c f : Nat) : Bool :=
  decide (d.get (ctl .shl h) SHL.CAR_CFG_BAND_LO 0 c ≤ f ∧ f ≤ d.get (ctl .shl h) SHL.CAR_CFG_BAND_HI 0 c)
def ddeck (d : Dev) (h : HalfId) (c : Nat) : Bool := d.on (ctl .shl h) SHL.CAR_CFG_DDECK 0 c

/-- The lower-deck floor at which a deck of a car serves a floor that the shaft serves (R219, R220). -/
def deckFloor (d : Dev) (h : HalfId) (c f : Nat) (upper : Bool) : Option Nat :=
  if !d.served h (c / 4) f then none
  else if upper then (if f ≥ 1 ∧ d.served h (c / 4) (f - 1) ∧ d.ddeck h c then some (f - 1) else none)
  else some f

/-- Whether the shaft of a car serves a floor, and the floor lies in the car's band (R222, R230 rule 2). -/
def carServes (d : Dev) (h : HalfId) (c f : Nat) : Bool := d.inBand h c f && d.served h (c / 4) f

/-- The flight time over a distance in µm, in ms (R221). -/
def flight (d : Dev) (h : HalfId) (s : Nat) (dist : Nat) : Nat :=
  let p := ctl .shl h
  let step := d.get p SHL.FT_STEP_UM 0 s
  let ft (i : Nat) : Nat := d.get p SHL.FT_DATA_MS 0 (s * 256 + i)
  let k := dist / step
  if k ≥ 256 then ft 255
  else
    let lo := if k = 0 then 0 else ft (k - 1)
    let fr := (dist - k * step) * 65536 / step
    lo + (ft k - lo) * fr / 65536

def rec? (d : Dev) (h : HalfId) (c : Nat) : Option CarRec := (d.shl h).recs.getD c none
def seqOf (d : Dev) (h : HalfId) (c : Nat) : List Stop := (d.shl h).stops.getD c []
def setSeq (d : Dev) (h : HalfId) (c : Nat) (s : List Stop) : Dev :=
  d.modShl h (fun x => { x with stops := lset x.stops c s, touched := if x.touched.contains c then x.touched else x.touched ++ [c] })

def call? (d : Dev) (h : HalfId) (k : Nat) : Option Call := ((d.shl h).calls.find? (fun e => e.1 == k)).map Prod.snd
def setCall (d : Dev) (h : HalfId) (k : Nat) (c : Call) : Dev :=
  d.modShl h (fun x => { x with calls := x.calls.filter (fun e => decide (e.1 < k)) ++ (k, c) :: x.calls.filter (fun e => decide (k < e.1)) })
def dropCall (d : Dev) (h : HalfId) (k : Nat) : Dev := d.modShl h (fun x => { x with calls := x.calls.filter (fun e => !(e.1 == k)) })

/-- The lowest free slot (R228). -/
def freeSlot (d : Dev) (h : HalfId) : Option Nat := (List.range 4096).find? (fun k => (d.call? h k).isNone)

def persons (d : Dev) (h : HalfId) (ks : List Nat) : Nat := (ks.map (fun k => ((d.call? h k).map Call.count).getD 0)).sum
def anyAcc (d : Dev) (h : HalfId) (ks : List Nat) : Bool := ks.any (fun k => ((d.call? h k).map Call.access).getD false)

/-- Dwell of a stop in ms (R231). -/
def dwell (d : Dev) (h : HalfId) (s : Stop) : Nat :=
  let p := ctl .shl h
  d.get p SHL.DWELL_BASE + d.get p SHL.DWELL_PP * d.persons h (s.picks ++ s.drops) +
    (if d.anyAcc h (s.picks ++ s.drops) then d.get p SHL.DWELL_ACC_MS else 0)

/-! ### Evaluation (R230, R231) -/

/-- The estimates of a sequence, in ms: the first stop at `first`, each later stop after the dwell and flight of the one before. -/
def etas (d : Dev) (h : HalfId) (sl : Nat) : Nat → List Stop → List Nat
  | _, [] => []
  | t, [_] => [t]
  | t, a :: b :: r => t :: etas d h sl (t + d.dwell h a + d.flight h sl (d.fmPos h sl b.floor - d.fmPos h sl a.floor).natAbs) (b :: r)

/-- The time to the first stop of a sequence for a car: T_HEAD to its present head; a stop ahead of a moving car's head by proportion; a
stop ahead of a standing car after its remaining dwell; `more` is dwell that a pickup where the car stands adds (R223, R231). -/
def firstEta (d : Dev) (h : HalfId) (sl : Nat) (r : CarRec) (old : List Stop) (s : Stop) (more : Nat) : Nat :=
  let y := d.fmPos h sl s.floor
  match old with
  | [] => r.head + more + d.flight h sl (y - r.x).natAbs
  | o :: _ =>
    let hy := d.fmPos h sl o.floor
    if s.floor = o.floor ∧ s.upper = o.upper ∧ s.up = o.up then r.head + more
    else if r.v.natAbs > 1000 then (if (hy - r.x).natAbs = 0 then r.head else r.head * (y - r.x).natAbs / (hy - r.x).natAbs)
    else (r.head - d.flight h sl (hy - r.x).natAbs) + more + d.flight h sl (y - r.x).natAbs

/-- The estimates of a car's sequence. -/
def carEtas (d : Dev) (h : HalfId) (c : Nat) (r : CarRec) (old seq : List Stop) (more : Nat) : List Nat :=
  match seq with
  | [] => []
  | s :: _ => d.etas h (c / 4) (d.firstEta h (c / 4) r old s more) seq

/-- Whether the load never exceeds the capacity (R230 rule 5). -/
def loadOk (d : Dev) (h : HalfId) (cap : Nat) : Nat → List Stop → Bool
  | l, [] => decide (l ≤ cap)
  | l, s :: r => decide (l + d.persons h s.here ≤ cap) && loadOk d h cap (l + d.persons h s.here - d.persons h s.drops + d.persons h s.picks) r

/-- Every way to put a stop into a sequence at or after index `lo`: merged with an equal stop where there is one, else new (R231). `add` enters
the call at the stop. Answers index, sequence and stops created. -/
def places (s : Stop) (add : Stop → Stop) (lo : Nat) (seq : List Stop) : List (Nat × List Stop × Nat) :=
  let same (i : Nat) : Bool := match seq[i]? with | some t => decide (t.floor = s.floor ∧ t.upper = s.upper ∧ t.up = s.up) | none => false
  match (List.range seq.length).filter (fun i => decide (lo ≤ i) && same i) with
  | [] => ((List.range (seq.length + 1)).filter (fun i => decide (lo ≤ i))).map (fun i => (i, seq.take i ++ add s :: seq.drop i, 1))
  | l => l.map (fun i => (i, lmod seq i add, 0))

/-- The insertions of a call into a car's sequence with a deck at the pickup and one at the dropoff (R220, R231). `k` is the call's slot. A pickup
at the floor where the car stands with doors not closed, in its committed direction, merges into that stop: it is kept beside the head stop. The
committed direction is that of the head stop's DIR where the car stands at it, else the way to the head stop. -/
def plans (d : Dev) (h : HalfId) (c k : Nat) (cl : Call) (r : CarRec) (deckP deckD : Bool) : List Plan :=
  let seq := d.seqOf h c
  let up := if cl.kind = 1 then decide (cl.src < cl.dst) else cl.kind == 2
  let pick (s : Stop) : Stop := { s with picks := s.picks ++ [k] }
  let drop (s : Stop) : Stop := { s with drops := s.drops ++ [k] }
  let beside (s : Stop) : Stop := { s with here := s.here ++ [k] }
  let heading : Option Bool := seq.head?.map (fun s => if r.floor = some s.floor then s.up else decide (d.fmPos h (c / 4) s.floor > r.x))
  if cl.kind = 4 then
    match d.deckFloor h c cl.dst deckD with
    | none => []
    | some f => (places ⟨f, deckD, decide (d.fmPos h (c / 4) f > r.x), [], [], [], 0⟩ drop 0 seq).map (fun q => ⟨q.2.1, none, some q.1, q.2.2, false⟩)
  else
    match d.deckFloor h c cl.src deckP with
    | none => []
    | some f =>
      let ends (i : Nat) (s : List Stop) (created : Nat) (pk : Option Nat) (here : Bool) : List Plan :=
        let fin (s : List Stop) : List Stop := if here then lmod s 0 beside else s
        if cl.kind = 1 then
          match d.deckFloor h c cl.dst deckD with
          | none => []
          | some g => (places ⟨g, deckD, up, [], [], [], 0⟩ drop i s).map (fun q => ⟨fin q.2.1, pk, some q.1, created + q.2.2, here⟩)
        else [⟨fin s, pk, none, created, here⟩]
      let stands := r.doors && decide (r.v.natAbs ≤ 1000) && decide (r.floor = some f) && (heading.isNone || heading == some up)
      if stands then ends 0 seq 0 none true
      else (places ⟨f, deckP, up, [], [], [], 0⟩ pick 0 seq).flatMap (fun q => ends (q.1 + 1) q.2.1 q.2.2 (some q.1) false)

/-- Whether a plan keeps rules 3 to 6 of R230. The passenger of a CAR call boarded at FROM; a car that stands at a floor is taken to be at that
floor's position. -/
def planOk (d : Dev) (h : HalfId) (c : Nat) (cl : Call) (r : CarRec) (pl : Plan) : Bool :=
  let sl := c / 4
  let old := d.seqOf h c
  let y (s : Stop) : Int := d.fmPos h sl s.floor
  let up := if cl.kind = 1 ∨ cl.kind = 4 then decide (cl.src < cl.dst) else cl.kind == 2
  let mono (a b : Int) : Bool := if up then decide (a ≤ b) else decide (b ≤ a)
  let path := ((pl.seq.drop (pl.pick.getD 0)).take ((pl.drop.getD 0) + 1 - pl.pick.getD 0)).map y
  let x : Int := (r.floor.map (d.fmPos h sl)).getD r.x
  let aboard : List Int := match pl.drop.bind (pl.seq[·]?) with
    | some s => (((d.deckFloor h c cl.src s.upper).map (d.fmPos h sl)).toList ++ [x])
    | none => []
  let path := if cl.kind = 4 then aboard ++ path else if pl.here then x :: path else path
  let straight := (path.zip (path.drop 1)).all (fun q => mono q.1 q.2)
  let after : Bool := match pl.pick with
    | some i => (match pl.seq[i]?, pl.seq[i + 1]? with | some a, some b => mono (y a) (y b) | _, _ => true)
    | none => (match pl.seq.head? with | some b => mono x (y b) | none => true)
  let ahead : Bool := match pl.seq.head?, old.head? with
    | some a, some o => if (a.floor = o.floor ∧ a.upper = o.upper ∧ a.up = o.up) ∨ r.v.natAbs ≤ 1000 then true
        else if r.up then decide (y a ≥ r.stop) else decide (y a ≤ r.stop)
    | _, _ => true
  decide (pl.seq.length ≤ 32) && ahead && d.loadOk h (d.get (ctl .shl h) SHL.CAR_CFG_CAP 0 c) r.load pl.seq &&
    (if cl.kind = 1 ∨ cl.kind = 4 then straight else after)

/-- Lowest and highest position of a car: its position and its stops. -/
def span (d : Dev) (h : HalfId) (c : Nat) (x : Int) (seq : List Stop) : Int × Int :=
  let ys := seq.map (fun s => d.fmPos h (c / 4) s.floor)
  (ys.foldl min x, ys.foldl max x)

/-- Overlap with the neighbouring cars of a shaft in mm (R231). -/
def overlap (d : Dev) (h : HalfId) (c : Nat) (x : Int) (seq : List Stop) : Nat :=
  let me := d.span h c x seq
  let gap : Int := d.get (ctl .shl h) SHL.LANE_GAP_UM
  let others := (List.range 4).map (fun i => c / 4 * 4 + i) |>.filter (fun m => m != c && d.carKnown h m)
  let sp (m : Nat) : Int × Int := d.span h m (((d.rec? h m).map CarRec.x).getD 0) (d.seqOf h m)
  let lower := (others.filter (fun m => decide (m < c))).getLast?
  let upper := (others.filter (fun m => decide (c < m))).head?
  let lap (hi lo : Int) : Nat := (hi + gap - lo).toNat / 1000
  (match lower with | some m => lap (sp m).2 me.1 | none => 0) + (match upper with | some m => lap me.2 (sp m).1 | none => 0)

/-- Age of a call in whole ms (R231). -/
def ageMs (d : Dev) (reg : Nat) : Nat := (d.now - reg) * 1000 / 65536

/-- Delay a plan causes to the other calls of the car: COUNT × the increase of the estimate at which each is served (R231). -/
def delays (d : Dev) (h : HalfId) (old new_ : List (Stop × Nat)) (k : Nat) : Int :=
  let at_ (l : List (Stop × Nat)) (m : Nat) : Option Nat :=
    match l.find? (fun e => e.1.drops.contains m) with
    | some e => some e.2
    | none => (l.find? (fun e => e.1.picks.contains m)).map Prod.snd
  let ms := ((old.flatMap (fun e => e.1.picks ++ e.1.drops)).filter (fun m => m != k)).dedup
  (ms.map (fun m => ((((d.call? h m).map Call.count).getD 0 : Nat) : Int) * (((at_ new_ m).getD 0 : Nat) - ((at_ old m).getD 0 : Nat)))).sum

/-- Whether the persons and ACCESS that Shoal keeps for a group car are those of the floor at which it stands (R223). -/
def servedHere (d : Dev) (h : HalfId) (c : Nat) (floor : Option Nat) : Bool :=
  match (d.shl h).servedAt.getD c none, floor with
  | some a, some f => a == f
  | _, _ => false

/-- Dwell in ms that a pickup where the car stands adds: its persons, and `DWELL_ACC` unless a call served there has ACCESS already (R223). -/
def hereDwell (d : Dev) (h : HalfId) (c : Nat) (cl : Call) (r : CarRec) (pl : Plan) : Nat :=
  let p := ctl .shl h
  let acc := (d.servedHere h c r.floor && (d.shl h).acc.getD c false) ||
    (match d.seqOf h c with | s :: _ => d.anyAcc h s.here | [] => false)
  if pl.here then d.get p SHL.DWELL_PP * cl.count + (if cl.access && !acc then d.get p SHL.DWELL_ACC_MS else 0) else 0

/-- Cost of a plan and its two estimates (R231). -/
def planCost (d : Dev) (h : HalfId) (c k : Nat) (cl : Call) (r : CarRec) (pl : Plan) : Nat × Nat × Nat :=
  let p := ctl .shl h
  let old := d.seqOf h c
  let more := d.hereDwell h c cl r pl
  let e0 := d.carEtas h c r old old 0
  let e1 := d.carEtas h c r old pl.seq more
  let tp := match pl.pick with | some i => e1.getD i 0 | none => 0
  let td := match pl.drop with | some i => e1.getD i 0 | none => tp
  let cost : Int := ((if cl.kind = 4 then 0 else d.get p SHL.W_WAIT_K * (tp + d.ageMs cl.reg) : Nat) : Int) +
    ((if cl.kind = 1 ∨ cl.kind = 4 then d.get p SHL.W_RIDE_K * (td - tp) else 0 : Nat) : Int) +
    d.get p SHL.W_DELAY_K * d.delays h (old.zip e0) (pl.seq.zip e1) k + d.get p SHL.W_STOP_K * pl.created * 1000 +
    d.get p SHL.W_LANE_K * d.overlap h c r.x pl.seq
  let cost := if cl.prio then asr (cost * d.get p SHL.PRIO_MUL_Q) 8 else cost
  ((min cost 0xFFFFFFFF).toNat, tp, td)

/-- Whether rules 1, 2 and 7 of R230 admit a car. -/
def carFeasible (d : Dev) (h : HalfId) (c : Nat) (cl : Call) : Bool :=
  d.inScope h c && (match d.rec? h c with | some r => r.fresh && r.avail == 0 | none => false) &&
    d.carServes h c cl.src && (cl.kind == 2 || cl.kind == 3 || d.carServes h c cl.dst) && (cl.kind != 4 || cl.car == c)

/-- The best insertion of a call into one car: cost, plan, deck at the pickup and estimates. The deck is chosen for each stop (R220); ties go to
the earlier position (R231), and then to the lower deck. -/
def bestIn (d : Dev) (h : HalfId) (c k : Nat) (cl : Call) : Option (Nat × Plan × Bool × Nat × Nat) :=
  match d.rec? h c with
  | none => none
  | some r =>
    let decks : List (Bool × Bool) :=
      if cl.kind = 1 then [(false, false), (false, true), (true, false), (true, true)] else [(false, false), (true, true)]
    (decks.flatMap (fun u => ((d.plans h c k cl r u.1 u.2).filter (d.planOk h c cl r)).map (fun pl => (pl, u.1)))).foldl
      (fun b q =>
        let w := d.planCost h c k cl r q.1
        let this := some (w.1, q.1, q.2, w.2.1, w.2.2)
        match b with
        | some x => if w.1 < x.1 ∨ (w.1 = x.1 ∧ q.1.pos < x.2.1.pos) then this else b
        | none => this) none

/-- The best car and insertion for a call among some cars; ties go to the lower group car index (R231). -/
def best (d : Dev) (h : HalfId) (k : Nat) (cl : Call) (cars : List Nat) : Option (Nat × Nat × Plan × Bool × Nat × Nat) :=
  (cars.filter (fun c => d.carFeasible h c cl)).foldl (fun b c =>
    match d.bestIn h c k cl, b with
    | some x, some (_, y) => if x.1 < y.1 then some (c, x) else b
    | some x, none => some (c, x)
    | none, _ => b) none

/-- The measured time of an evaluation (R233). -/
def evalTime (d : Dev) (h : HalfId) : Dev :=
  let p := ctl .shl h
  let cars := (List.range 64).filter (d.inScope h)
  let s := (cars.map (fun c => (d.seqOf h c).length)).foldl max 0
  let t := 1000 + (cars.length + 15) / 16 * (500 + s * 125)
  (d.put p SHL.EVAL_LAST_NS t).put p SHL.EVAL_MAX_NS (max t (d.get p SHL.EVAL_MAX_NS))

/-! ### Results and decisions (R225, R228, R235) -/

def addRes (d : Dev) (h : HalfId) (r : ShlRes) : Dev := d.modShl h (fun x => { x with out := x.out ++ [r], decided := true })

/-- An estimate in 0.1 s, saturating. -/
def eta16 (ms : Nat) : Nat := min (ms / 100) 0xFFFF

/-- A call is done. -/
def callDone (d : Dev) (h : HalfId) (k : Nat) : Dev :=
  match d.call? h k with
  | some cl => (d.setCall h k { cl with state := 4 }).addRes h ⟨4, 0, k, cl.car, cl.deck, cl.tag, 0, 0, false⟩
  | none => d

/-- A group car serves calls where it stands: their persons and ACCESS count there (R223). -/
def boardHere (d : Dev) (h : HalfId) (c : Nat) (floor : Option Nat) (count : Nat) (access : Bool) : Dev :=
  if d.servedHere h c floor then
    d.modShl h (fun x => { x with persons := lmod x.persons c (· + count), acc := lmod x.acc c (· || access) })
  else d.modShl h (fun x => { x with persons := lset x.persons c count, acc := lset x.acc c access, servedAt := lset x.servedAt c floor })

/-- Enter a decision: the sequence with its estimates, the call, the result (R231, R235). A hall pickup where a car without stops stands is in no
stop: it is served at once (notes/assumptions/31.md). -/
def decide_ (d : Dev) (h : HalfId) (k : Nat) (cl : Call) (event : Nat) (b : Nat × Nat × Plan × Bool × Nat × Nat) : Dev :=
  let c := b.1
  let pl := b.2.2.1
  let etaD := if cl.kind = 1 ∨ cl.kind = 4 then eta16 b.2.2.2.2.2 else 0
  let etaP := eta16 b.2.2.2.2.1
  let r := (d.rec? h c).getD ⟨0, 0, 0, false, none, false, 0, 0, 0, false⟩
  let es := d.carEtas h c r (d.seqOf h c) pl.seq (d.hereDwell h c cl r pl)
  let alone := pl.here && pl.seq.isEmpty
  let d := d.setSeq h c ((pl.seq.zip es).map (fun q => { q.1 with eta := q.2 }))
  let d := d.setCall h k { cl with state := if cl.kind = 4 then 3 else 2, car := c, deck := b.2.2.2.1, valid := true, cost := b.2.1, etaP := etaP,
                                   etaD := etaD }
  let d := if pl.here then d.boardHere h c r.floor cl.count cl.access else d
  let d := d.addRes h ⟨event, 0, k, c, b.2.2.2.1, cl.tag, etaP, etaD, false⟩
  if alone then d.callDone h k else d

/-- Reject a call that holds a slot: it stays until its result has been posted. -/
def rejectCall (d : Dev) (h : HalfId) (k : Nat) (cl : Call) (why : Nat) : Dev :=
  ((d.setCall h k { cl with rejected := true }).err (ctl .shl h) why k).addRes h ⟨2, why, k, cl.car, false, cl.tag, 0, 0, false⟩

/-- Reject an entry that holds no slot; the result's slot is the one named, or open, and the call in that slot has no part in it. -/
def rejectEntry (d : Dev) (h : HalfId) (slot : Option Nat) (car tag why : Nat) : Dev :=
  match slot with
  | some k => (d.err (ctl .shl h) why k).addRes h ⟨2, why, k, car, false, tag, 0, 0, true⟩
  | none => let (w, d) := d.fresh; (d.err (ctl .shl h) why).addRes h ⟨2, why, w.toNat % 4096, car, false, tag, 0, 0, true⟩

/-- Evaluate a call among some cars and decide it, or reject it with SHL_NO_CAR (R230, R231). What a worker without a manager assigns is its own
decision (R237). -/
def evaluate (d : Dev) (h : HalfId) (k : Nat) (cl : Call) (event : Nat) (cars : List Nat) : Dev :=
  let cl := { cl with ours := cl.ours || d.shlMode h == 3 }
  match d.best h k cl cars with
  | some b => (d.evalTime h).decide_ h k cl event b
  | none => (d.evalTime h).rejectCall h k cl cSHL_NO_CAR

def scopeCars (d : Dev) (h : HalfId) : List Nat := (List.range 64).filter (d.inScope h)

/-! ### Submissions (R225, R230, R237, R238) -/

/-- Remove a call from a sequence, and with it every stop at which no other call boards or leaves (R238). What boarded beside a stop that goes, where
the car stood before it, is kept beside the next one; what is left over has no stop. `carry` is what comes from the stops before. -/
def unstop (k : Nat) : List Nat → List Stop → List Stop × List Nat
  | carry, [] => ([], carry)
  | carry, s :: r =>
    let s' : Stop := { s with picks := s.picks.filter (· != k), here := carry ++ s.here.filter (· != k), drops := s.drops.filter (· != k) }
    if s'.picks.isEmpty && s'.drops.isEmpty then unstop k s'.here r
    else let q := unstop k [] r; (s' :: q.1, q.2)

/-- Remove a call's stops from its car. A hall pickup served where the car stands that is left with no stop beside it is done. -/
def removeStops (d : Dev) (h : HalfId) (k : Nat) (cl : Call) : Dev :=
  if cl.valid then
    let q := unstop k [] (d.seqOf h cl.car)
    q.2.foldl (fun d m => d.callDone h m) (d.setSeq h cl.car q.1)
  else d

/-- Whether some enabled car's shaft of the group serves a floor. -/
def anyServes (d : Dev) (h : HalfId) (f : Nat) : Bool := (List.range 64).any (fun c => d.carKnown h c && d.served h (c / 4) f)

/-- Whether a submission is worth evaluating here and now: in FORWARD scope a hall or destination call goes to the manager (R237). -/
def forwards (d : Dev) (h : HalfId) (kind : Nat) : Bool := d.shlMode h == 2 && kind != 4

/-- Whether a call has a car: what is reported to the manager (R237). -/
def placed (d : Dev) (h : HalfId) (k : Nat) : Bool := ((d.call? h k).map (fun c => c.valid && !c.rejected)).getD false

/-- Whether a call is one of SHL_FLOOR (R230): FROM = TO, a floor that no enabled shaft serves, or a CAR call whose car lies outside the scope. -/
def floorBad (d : Dev) (h : HalfId) (kind src dst car : Nat) : Bool :=
  let ends := kind == 1 || kind == 4
  (ends && src == dst) || !d.anyServes h src || (ends && !d.anyServes h dst) || (kind == 4 && !d.inScope h car)

/-- A NEW submission (R228, R230, R237). -/
def shlNew (d : Dev) (h : HalfId) (w0 w1 tag : Nat) : Dev :=
  let kind := field w0 4 4
  let src := field w0 8 8
  let dst := field w0 16 8
  let car := field w1 16 6
  let n := ((d.shl h).newCnt + 1) % 65536
  let d := d.modShl h (fun x => { x with newCnt := n })
  match d.freeSlot h with
  | none => d.rejectEntry h none car tag cSHL_FULL
  | some k =>
    let cl : Call := { Call.init with state := 1, kind := kind, src := src, dst := dst, count := field w0 24 4, access := bitN w0 28 == 1,
                                       prio := bitN w0 29 == 1, car := car, reg := d.now,
                                       key := d.get (shp .glk) GLK.NODE_POS * 2 ^ 27 + n, tag := tag }
    let d := (d.setCall h k cl).modShl h (fun x => { x with settled := x.settled.filter (fun q => q != cl.key) })
    if kind = 0 ∨ kind > 4 then d.rejectCall h k cl cRANGE
    else if cl.count = 0 then d.rejectCall h k cl cZERO
    else if d.floorBad h kind src dst car then d.rejectCall h k cl cSHL_FLOOR
    else if d.forwards h kind then d.modShl h (fun x => { x with fwd := x.fwd ++ [⟨1, cl.toG, 0, 0⟩] })
    else
      let d := d.evaluate h k cl 1 (d.scopeCars h)
      if d.shlMode h == 2 && d.placed h k then d.modShl h (fun x => { x with report := x.report ++ [k] }) else d

/-- A CANCEL submission (R238). -/
def shlCancel (d : Dev) (h : HalfId) (slot tag : Nat) : Dev :=
  match d.call? h slot with
  | some cl =>
    if cl.rejected || decide (cl.state ≥ 4) then d.rejectEntry h (some slot) cl.car tag cSHL_SLOT
    else
      let d := (d.removeStops h slot cl).setCall h slot { cl with state := 5 }
      let d := d.addRes h ⟨5, 0, slot, cl.car, cl.deck, cl.tag, 0, 0, false⟩
      d.modShl h (fun x => { x with fwd := if d.shlMode h == 2 then x.fwd ++ [⟨2, cl.toG, 0, 0⟩] else x.fwd })
  | none => d.rejectEntry h (some slot) 0 tag cSHL_SLOT

/-- An ARRIVE submission (R238): the head stop of the car is removed and its calls advance. They join those served before at the floor while the doors
stayed open (R223). -/
def shlArrive (d : Dev) (h : HalfId) (car floor tag : Nat) : Dev :=
  if !d.inScope h car then d.rejectEntry h none car tag cSHL_SLOT
  else match d.seqOf h car with
  | [] => d.rejectEntry h none car tag cSHL_NOT_HEAD
  | s :: r =>
    if s.floor ≠ floor then d.rejectEntry h none car tag cSHL_NOT_HEAD
    else
      let f : GFwd := ⟨3, Call.init.toG, BitVec.ofNat 6 car, BitVec.ofNat 8 floor⟩
      let more := d.shlMode h == 2
      let d := (d.setSeq h car r).modShl h (fun x => { x with decided := true, fwd := if more then x.fwd ++ [f] else x.fwd })
      let open_ := ((d.rec? h car).map CarRec.doors).getD false
      let d := if open_ then d else d.modShl h (fun x => { x with servedAt := lset x.servedAt car none })
      let d := d.boardHere h car (some s.floor) (d.persons h (s.picks ++ s.drops)) (d.anyAcc h (s.picks ++ s.drops))
      let d := (s.picks ++ s.here).foldl (fun d k => match d.call? h k with
        | some cl => if cl.kind = 1 then d.setCall h k { cl with state := 3 } else d.callDone h k
        | none => d) d
      s.drops.foldl (fun d k => d.callDone h k) d

/-- One submission entry (R225, Table 3). -/
def shlEntry (d : Dev) (h : HalfId) (w0 w1 w2 w3 : Nat) : Dev :=
  let op := field w0 0 4
  if w3 ≠ 0 ∨ op = 0 ∨ op > 3 then d.rejectEntry h none (field w1 16 6) w2 cRANGE
  else if op = 1 then d.shlNew h w0 w1 w2
  else if op = 2 then d.shlCancel h (field w1 0 12) w2
  else d.shlArrive h (field w1 16 6) (field w0 8 8) w2

/-- Whether Shoal of a half takes submissions: enabled, its half ACTIVE, not passive, a ring given (R217, R225, R226, R241). -/
def shlTakes (d : Dev) (h : HalfId) : Bool :=
  d.enabled (ctl .shl h) && d.active h && !d.shlPassive h && d.get (ctl .shl h) SHL.SUB_SIZE_N != 0

def sram (d : Dev) (h : HalfId) : List Host.Cell := (d.half h).sram
def sramWord (d : Dev) (h : HalfId) (a : Nat) : Nat := memWord (d.sram h) a

/-- Addresses of the SRAM words of a half with an uncorrectable error that nothing has written since (R34). -/
def sramBad (d : Dev) : HalfId → List Nat
  | .a => d.hlfA.bad
  | .b => d.hlfB.bad

/-- A whole word written to half SRAM: its check bits are good from then on. -/
def sramPut (d : Dev) (h : HalfId) (a w : Nat) : Dev :=
  let bad := (d.sramBad h).filter (fun b => b != a)
  let d := match h with
    | .a => { d with hlfA := { d.hlfA with bad := bad } }
    | .b => { d with hlfB := { d.hlfB with bad := bad } }
  d.modHalf h (fun x => { x with sram := memPutWord x.sram a w })

/-- An entry that could not be read: REJECTED with reason ECC and slot 0x1000, and SHL_DMA (R225). -/
def skipEntry (d : Dev) (h : HalfId) : Dev := (d.err (ctl .shl h) cSHL_DMA).addRes h ⟨2, cECC, 0x1000, 0, false, 0, 0, 0, true⟩

/-- Take the entries of the submission ring from `SUB_TAIL` up to `SUB_HEAD`, in ring order (R225, R234); at most one ring's worth. -/
def takeRing (d : Dev) (h : HalfId) : Nat → Dev
  | 0 => d
  | n + 1 =>
    let p := ctl .shl h
    let t := d.get p SHL.SUB_TAIL_IDX
    if !d.shlTakes h || t == d.get p SHL.SUB_HEAD_IDX then d
    else
      let a := d.get p SHL.SUB_BASE_ADDR + 16 * t
      let d := d.put p SHL.SUB_TAIL_IDX ((t + 1) % d.get p SHL.SUB_SIZE_N)
      if (d.sramBad h).any (fun b => decide (a ≤ b ∧ b < a + 16)) then takeRing (d.skipEntry h) h n
      else takeRing (d.shlEntry h (d.sramWord h a) (d.sramWord h (a + 4)) (d.sramWord h (a + 8)) (d.sramWord h (a + 12))) h n

/-- A write of `SUB_HEAD` (R225). -/
def subHeadWrite (d : Dev) (h : HalfId) (v : Nat) : Dev :=
  let p := ctl .shl h
  if v ≥ d.get p SHL.SUB_SIZE_N then d.err p cRANGE else (d.put p SHL.SUB_HEAD_IDX v).takeRing h 4096

/-- Firmware writes an entry at `SUB_HEAD` and advances it; Shoal takes it (R225). -/
def submit (d : Dev) (h : HalfId) (w0 w1 w2 w3 : Nat) : Dev :=
  let p := ctl .shl h
  let n := d.get p SHL.SUB_SIZE_N
  let hd := d.get p SHL.SUB_HEAD_IDX
  if n = 0 then d
  else
    let a := d.get p SHL.SUB_BASE_ADDR + 16 * hd
    let d := (((d.sramPut h a w0).sramPut h (a + 4) w1).sramPut h (a + 8) w2).sramPut h (a + 12) w3
    d.subHeadWrite h ((hd + 1) % n)

/-- A write of `RES_TAIL` (R225): an index outside the ring, or one that would release more than it holds, is ignored. -/
def resTailWrite (d : Dev) (h : HalfId) (v : Nat) : Dev :=
  let p := ctl .shl h
  let n := d.get p SHL.RES_SIZE_N
  let t := d.get p SHL.RES_TAIL_IDX
  if v ≥ n ∨ (v + n - t) % n > (d.get p SHL.RES_HEAD_IDX + n - t) % n then d.err p cRANGE else d.put p SHL.RES_TAIL_IDX v

/-! ### Car records (R223) -/

/-- Floor at which a car of the half stands. -/
def standFloor (d : Dev) (h : HalfId) (n : Nat) : Option Nat :=
  if d.slow h n then
    (List.range 256).find? (fun f => d.served h (d.ownSlot h) f &&
      decide ((d.fmPos h (d.ownSlot h) f - d.carX h n).natAbs ≤ d.get (ctl .pos h) POS.LT_TOL_LEVEL))
  else none

/-- Whether a door axis of a car is in a mode other than OFF, CLOSED or LOCKED. -/
def doorsOpen (d : Dev) (h : HalfId) (n : Nat) : Bool :=
  (List.range 8).any (fun k => d.enabled (pgDax h k) && d.daxCar h k == n && decide (d.daxMode h k > 2))

/-- T_HEAD of a car of the half in ms. -/
def tHead (d : Dev) (h : HalfId) (n : Nat) (doors : Bool) : Nat :=
  let p := ctl .shl h
  let sl := d.ownSlot h
  let x := d.shl h
  let c := 4 * sl + n
  let here := d.servedHere h c (d.standFloor h n)
  let left := d.get p SHL.DWELL_BASE + (if here then d.get p SHL.DWELL_PP * x.persons.getD c 0 else 0) +
    (if here && x.acc.getD c false then d.get p SHL.DWELL_ACC_MS else 0) -
    (match x.doorTs.getD n none with | some t => d.ageMs t | none => 0)
  let stands := d.slow h n
  match d.seqOf h c with
  | [] => if stands && doors then left else 0
  | s :: _ =>
    let y := d.fmPos h sl s.floor
    let ft := d.flight h sl (d.carX h n - y).natAbs
    if d.mpgMoving h n && decide (d.geti (pgMpg h n) MPG.TGT_UM = y) then (((d.mpg h n).segs.map Seg.t).sum) / 1000000
    else if stands && doors then left + ft else ft

/-- Note for each car the instant at which its first door axis leaves the closed state (R223). -/
def doorStamp (d : Dev) (h : HalfId) : Dev :=
  d.modShl h (fun x => { x with doorTs := (List.range 4).map (fun n => if d.doorsOpen h n then some ((x.doorTs.getD n none).getD d.now) else none) })

/-- A car that stands at another floor than that of its last stop serves no call there. -/
def standStamp (d : Dev) (h : HalfId) (c : Nat) (floor : Option Nat) : Dev :=
  if floor.isSome && !d.servedHere h c floor then d.modShl h (fun x => { x with servedAt := lset x.servedAt c none }) else d

/-- Form the car record of a car of the half (R223). -/
def formRecord (d : Dev) (h : HalfId) (n : Nat) : Dev :=
  if !d.carEn h n then d
  else
    let p := ctl .shl h
    let doors := d.doorsOpen h n
    let d := (d.doorStamp h).standStamp h (4 * d.ownSlot h + n) (d.standFloor h n)
    let av := d.get p SHL.LCAR_AVAIL n
    let ok := d.posState h n == 2 || d.posState h n == 3
    let r : CarRec := ⟨d.carX h n, d.carV h n, d.geti (pgMpg h n) MPG.STOPPT_UM, d.mpgUp h n, d.standFloor h n, doors, d.tHead h n doors,
      d.get p SHL.LCAR_LOAD n, if ok then av else max av 1, true⟩
    d.modShl h (fun x => { x with recs := lset x.recs (4 * d.ownSlot h + n) (some r) })

/-- Show the cars whose records are fresh. -/
def showLive (d : Dev) (h : HalfId) : Dev :=
  let bit (c : Nat) : Nat := if ((d.rec? h c).map CarRec.fresh).getD false then 2 ^ (c % 32) else 0
  (d.put (ctl .shl h) SHL.CARS_LIVE_LO ((List.range 32).map bit).sum).put (ctl .shl h) SHL.CARS_LIVE_HI ((List.range 32).map (fun c => bit (c + 32))).sum

/-- The records of a CYCLE boundary: a standalone module or a worker forms them (R223). -/
def formRecords (d : Dev) (h : HalfId) : Dev := if d.isManager then d else ((List.range 4).foldl (fun d n => d.formRecord h n) d).showLive h

/-- A car's newest record is older than `REC_AGE`. -/
def recordStale (d : Dev) (h : HalfId) (c : Nat) : Dev :=
  match d.rec? h c with
  | some r => if r.fresh then (((d.modShl h (fun x => { x with recs := lset x.recs c (some { r with fresh := false, avail := max r.avail 1 }) })).stat
      (ctl .shl h) 5).showLive h) else d
  | none => d

/-! ### Reassignment (R224, R240) -/

/-- The ASSIGNED calls of a car. -/
def callsOf (d : Dev) (h : HalfId) (c : Nat) : List (Nat × Call) := (d.shl h).calls.filter (fun e => e.2.state == 2 && e.2.valid && e.2.car == c && !e.2.rejected)

def countMove (d : Dev) (h : HalfId) : Dev := (d.bump (ctl .shl h) SHL.REASSIGN_COUNT).stat (ctl .shl h) 1

/-- Reassign every ASSIGNED call of a car that went OUT (R224), the pickups beside a stop among them. In FORWARD scope the manager does (R217). -/
def reassignOut (d : Dev) (h : HalfId) (c : Nat) : Dev :=
  if !(d.enabled (ctl .shl h) && d.active h && !d.shlPassive h) || d.shlMode h == 2 || ((d.rec? h c).map CarRec.avail) != some 2 then d
  else (d.callsOf h c).foldl (fun d e =>
    let cl := e.2
    let d := d.setSeq h cl.car (unstop e.1 [] (d.seqOf h cl.car)).1
    let cl := { cl with state := 1, valid := false, locked := false }
    match d.best h e.1 cl (d.scopeCars h) with
    | some b => (d.evalTime h).decide_ h e.1 cl 3 b |>.countMove h
    | none => (d.evalTime h).rejectCall h e.1 cl cSHL_NO_CAR) d

/-- Whether a call is locked (R228, Table 5): its pickup is the head stop of a car of the half whose target equals that stop's position. -/
def lockedNow (d : Dev) (h : HalfId) (k : Nat) (cl : Call) : Bool :=
  cl.valid && d.isOwn h cl.car && (match d.seqOf h cl.car with
    | s :: _ => s.picks.contains k && decide (d.geti (pgMpg h (cl.car % 4)) MPG.TGT_UM = d.fmPos h (d.ownSlot h) s.floor)
    | [] => false)

/-- One call of the sweep (R240). -/
def sweepCall (d : Dev) (h : HalfId) (k : Nat) : Dev :=
  match d.call? h k with
  | some cl =>
    if (cl.kind == 2 || cl.kind == 3) && cl.state == 2 && !d.lockedNow h k cl && !cl.held && cl.valid && !cl.rejected then
      let d0 := d.removeStops h k cl
      match d0.best h k cl (d0.scopeCars h), d0.bestIn h cl.car k cl with
      | some b, some now_ =>
        if b.1 ≠ cl.car ∧ b.2.1 + d.get (ctl .shl h) SHL.SWEEP_HYST < now_.1 then ((d0.evalTime h).decide_ h k cl 3 b).countMove h else d.evalTime h
      | _, _ => d.evalTime h
    else d
  | none => d

/-- A sweep (R240). -/
def sweep (d : Dev) (h : HalfId) : Dev :=
  let p := ctl .shl h
  if d.enabled p && d.active h && !d.shlPassive h && d.on p SHL.SWEEP_EN && d.shlMode h != 2 then
    ((((d.shl h).calls.map Prod.fst).foldl (fun d k => d.sweepCall h k) d).wrapUp p SHL.SWEEP_CNT_N).stat p 3
  else d

/-- The locked marks of the entries that a publish shows (Tables 5 and 6). -/
def markLocked (d : Dev) (h : HalfId) : Dev :=
  d.modShl h (fun x => { x with calls := x.calls.map (fun e => (e.1, { e.2 with locked := d.lockedNow h e.1 e.2 })) })

/-- No decision of the manager within `FWD_TMO` (R237): the call is evaluated against the module's own cars and marked HELD. A Shoal out of service
evaluates nothing (R241). -/
def fwdTimeout (d : Dev) (h : HalfId) (k : Nat) : Dev :=
  match d.call? h k with
  | some cl =>
    if d.enabled (ctl .shl h) && d.shlMode h == 2 && cl.state == 1 && !cl.rejected then
      let p := ctl .shl h
      let own := (List.range 64).filter (fun c => d.carKnown h c && d.isOwn h c)
      let d := ((d.stat p 4).err p cSHL_FWD_TMO k).evaluate h k { cl with held := true } 1 own
      let more := if d.placed h k then [k] else []
      d.modShl h (fun x => { x with report := x.report ++ more, fwd := x.fwd.filter (fun f => f.op != 1 || f.call.key != BitVec.ofNat 32 cl.key) })
    else d
  | none => d

/-! ### Publication (R227, R235) -/

/-- The words of a call entry (R228, Table 5). -/
def callWords (c : Call) : List Nat :=
  [c.state + 16 * c.kind + 256 * c.src + 65536 * c.dst + 2 ^ 24 * c.count + 2 ^ 28 * c.access.toNat + 2 ^ 29 * c.prio.toNat + 2 ^ 30 * c.held.toNat +
     2 ^ 31 * c.locked.toNat,
   c.car + 64 * c.deck.toNat + 128 * c.valid.toNat, c.reg % 2 ^ 32, c.reg / 2 ^ 32, c.key, c.tag, c.cost, c.etaP + 65536 * c.etaD]

/-- The words of a stop entry (R229, Table 6). -/
def stopWords (d : Dev) (h : HalfId) (s : Stop) : Nat × Nat :=
  let locked := s.picks.any (fun k => ((d.call? h k).map Call.locked).getD false)
  (s.floor + 256 * s.upper.toNat + 512 * s.up.toNat + 1024 * locked.toNat + 65536 * min 255 (d.persons h (s.picks ++ s.here)) +
     2 ^ 24 * min 255 (d.persons h s.drops), s.eta)

/-- The estimates of the sequences as of this publish: entry 0 is due at T_HEAD of the newest record (R223, R229). -/
def freshEtas (d : Dev) (h : HalfId) : Dev :=
  d.modShl h (fun x => { x with stops := x.stops.mapIdx (fun c seq => match d.rec? h c with
    | some r => (seq.zip (d.carEtas h c r seq seq 0)).map (fun q => { q.1 with eta := q.2 })
    | none => seq) })

/-- Show the working tables in the ports. -/
def showTables (d : Dev) (h : HalfId) : Dev :=
  let p := ctl .shl h
  let x := d.shl h
  let d := x.shown.foldl (fun d k => (List.range 8).foldl (fun d i => d.put p SHL.CALL_W 0 i k) d) d
  let d := x.calls.foldl (fun d e => (((callWords e.2).zip (List.range 8)).foldl (fun d wi => d.put p SHL.CALL_W wi.1 wi.2 e.1) d)) d
  let d := (List.range 64).foldl (fun d c =>
    let seq := x.stops.getD c []
    let old := d.get p SHL.STOP_CNT_N 0 c
    let d := (List.range old).foldl (fun d i => (d.put p SHL.STOP_W0 0 0 (c * 32 + i)).put p SHL.STOP_W1 0 0 (c * 32 + i)) d
    let d := (seq.zip (List.range 32)).foldl (fun d si =>
      let w := d.stopWords h si.1
      (d.put p SHL.STOP_W0 w.1 0 (c * 32 + si.2)).put p SHL.STOP_W1 w.2 0 (c * 32 + si.2)) d
    d.put p SHL.STOP_CNT_N seq.length 0 c) d
  (d.put p SHL.CALLS_USED x.calls.length).modShl h (fun x => { x with shown := x.calls.map Prod.fst })

/-- Whether a call was issued by this module (R228). -/
def ownCall (d : Dev) (c : Call) : Bool := c.key / 2 ^ 27 == d.get (shp .glk) GLK.NODE_POS

/-- The call a result settles, if it is one of a call. -/
def resCall (d : Dev) (h : HalfId) (r : ShlRes) : Option Call := if r.loose then none else d.call? h r.slot

/-- Whether a result is for a call of another module: it goes to the group traffic and takes no entry of the ring. -/
def resAway (d : Dev) (h : HalfId) (r : ShlRes) : Bool := match d.resCall h r with | some c => !d.ownCall c | none => false

/-- Settle one result: write it to the result ring of a half, or hand it to the group traffic where another module issued the call (R388),
and free the slot that it settles (R225, R228), keeping the key of an own call that has ended (R237); in FORWARD scope a worker keeps no call that
another module's car serves (R217). -/
def postOne (d : Dev) (h : HalfId) (r : ShlRes) : Dev :=
  let p := ctl .shl h
  let hd := d.get p SHL.RES_HEAD_IDX
  let n := d.get p SHL.RES_SIZE_N
  let a := d.get p SHL.RES_BASE_ADDR + 16 * hd
  let cl := d.resCall h r
  let d := if d.resAway h r then d.modShl h (fun x => { x with dec := x.dec ++ [(r.event, r.reason, cl.getD Call.init)] })
    else if n = 0 then d else
    ((((d.sramPut h a (r.event + 256 * r.reason)).sramPut h (a + 4) (r.slot + 65536 * r.car + 2 ^ 22 * r.deck.toNat)).sramPut h (a + 8) r.tag).sramPut h
      (a + 12) (r.etaP + 65536 * r.etaD)).put p SHL.RES_HEAD_IDX ((hd + 1) % n)
  match cl with
  | some cl =>
    let away := d.shlMode h == 2 && (r.event == 1 || r.event == 3) && cl.valid && !d.isOwn h cl.car
    if (r.event = 4 ∧ cl.state = 4) ∨ (r.event = 5 ∧ cl.state = 5) ∨ (r.event = 2 ∧ cl.rejected) then
      let d := d.dropCall h r.slot
      if d.ownCall cl && !(d.shl h).settled.contains cl.key then d.modShl h (fun x => { x with settled := x.settled ++ [cl.key] }) else d
    else if away then d.dropCall h r.slot else d
  | none => d

/-- The results that a ring with `n` free entries takes, and those that wait, in order: one of another module's call needs no entry (R227). -/
def roomSplit (away : ShlRes → Bool) : Nat → List ShlRes → List ShlRes × List ShlRes
  | _, [] => ([], [])
  | n, r :: rs =>
    if away r then let q := roomSplit away n rs; (r :: q.1, q.2)
    else match n with
      | 0 => let q := roomSplit away 0 rs; (q.1, r :: q.2)
      | n + 1 => let q := roomSplit away n rs; (r :: q.1, q.2)

/-- The waiting results of a half, split by the room of its ring; without a ring every result is settled and none is posted (R225). -/
def shlRoom (d : Dev) (h : HalfId) : List ShlRes × List ShlRes :=
  let p := ctl .shl h
  let n := d.get p SHL.RES_SIZE_N
  let l := (d.shl h).out
  roomSplit (d.resAway h) (if n = 0 then l.length else n - 1 - (d.get p SHL.RES_HEAD_IDX + n - d.get p SHL.RES_TAIL_IDX) % n) l

/-- Publish the decisions of a half (R227, R235): the view of the ports is swapped and the results are posted; those beyond the room of the ring
wait. -/
def shlPublishOne (d : Dev) (h : HalfId) (q : List ShlRes × List ShlRes) : Dev :=
  let p := ctl .shl h
  if !d.enabled p then d
  else
    let was := (d.shl h).decided
    let d := (d.markLocked h).freshEtas h
    let d := (q.1.foldl (fun d r => d.postOne h r) d).modShl h (fun x => { x with out := q.2 })
    let d := if q.2.isEmpty then d else (d.stat p 2).err p cSHL_RES_FULL
    let d := (d.showTables h).modShl h (fun x => { x with decided := false })
    if was then d.stat p 0 else d

/-- Whether the mirror link carries state to a half: the link is up and the half is a standby. -/
def mirrors (d : Dev) (h : HalfId) : Bool :=
  d.on (ctl .mir h) MIR.LINK_UP && (d.get (ctl .hlf h) HLF.STATE_OWN == 1 || d.get (ctl .hlf h) HLF.STATE_OWN == 2)

/-- Whether a publish takes place: Shoal is in service (R241), and no STANDBY_SYNC standby is owed an acknowledgement that the link cannot
bring (R235). -/
def shlPublishes (d : Dev) (h : HalfId) : Bool :=
  d.enabled (ctl .shl h) && !(d.active h && !d.mirrors h.other && d.get (ctl .hlf h.other) HLF.STATE_OWN == 1)

/-- Publish the decisions (R235): the standby holds the tables with `SUB_TAIL` before they are published, and posts the same results into its
own ring, so that `RES_HEAD` agrees (R42, R226). While the standby is STANDBY_SYNC and the link down, nothing is acknowledged and nothing published. -/
def shlPublish (d : Dev) (h : HalfId) : Dev :=
  let o := h.other
  let q := d.shlRoom h
  if d.active h && d.mirrors o then
    let x := d.shl h
    let d := ((d.modShl o (fun _ => x)).put (ctl .shl o) SHL.SUB_TAIL_IDX (d.get (ctl .shl h) SHL.SUB_TAIL_IDX)).put (ctl .shl o) SHL.RES_HEAD_IDX
      (d.get (ctl .shl h) SHL.RES_HEAD_IDX)
    (d.shlPublishOne h q).shlPublishOne o q
  else if d.active h && d.get (ctl .hlf o) HLF.STATE_OWN == 1 then d
  else d.shlPublishOne h q

/-! ### Staged values (R222, R225, R242) -/

/-- Failing rules of one ring. -/
def ringFails (v : View) (d : Dev) (h : HalfId) (base size head tail : Fld) : List RuleFail :=
  let p := ctl .shl h
  let b := v base 0 0
  let n := v size 0 0
  let both : List (Fld × Nat × Nat) := [(base, 0, 0), (size, 0, 0)]
  let used := d.get p head ≠ d.get p tail ∧ (b ≠ d.get p base ∨ n ≠ d.get p size)
  (if used then [(⟨both, cBUSY⟩ : RuleFail)] else []) ++
  (if n = 0 then [] else
    (if [16, 32, 64, 128, 256, 512, 1024, 2048, 4096].contains n then [] else [(⟨[(size, 0, 0)], cRANGE⟩ : RuleFail)]) ++
    (if b % 16 = 0 ∧ 0x08080000 ≤ b ∧ b + 16 * n ≤ 0x08800000 then [] else [(⟨both, cRANGE⟩ : RuleFail)]))

/-- Failing rules of the SHL page (R242, Table 12); tables are checked where a staged entry touches them. The order of the bands concerns the
enabled cars of a shaft (R222). -/
def shlRules (d : Dev) (h : HalfId) (v : View) : List RuleFail :=
  let p := ctl .shl h
  let st (f : Fld) : List Nat := ((d.stagedIn p [f]).map (fun x => x.2.2))
  let slots := ((st SHL.FT_DATA_MS).map (· / 256) ++ st SHL.FT_STEP_UM ++ (st SHL.FM_LAND_IDX ++ st SHL.FM_POS_UM).map (· / 256)).dedup
  let sv (s : Nat) : List Nat := (List.range 256).filter (fun f => v SHL.FM_LAND_IDX 0 (s * 256 + f) != 0xFF)
  let pos (s f : Nat) : Int := sgn 32 (v SHL.FM_POS_UM 0 (s * 256 + f))
  let cars := (st SHL.CAR_CFG_EN ++ st SHL.CAR_CFG_CAP ++ st SHL.CAR_CFG_BAND_LO ++ st SHL.CAR_CFG_BAND_HI).dedup
  let band (c : Nat) : List (Fld × Nat × Nat) := [(SHL.CAR_CFG_BAND_LO, 0, c), (SHL.CAR_CFG_BAND_HI, 0, c), (SHL.CAR_CFG_EN, 0, c)]
  let en (c : Nat) : Bool := v SHL.CAR_CFG_EN 0 c == 1
  slots.flatMap (fun s =>
    (List.range 255).flatMap (fun i =>
      let a := s * 256 + i
      if v SHL.FT_DATA_MS 0 a > v SHL.FT_DATA_MS 0 (a + 1) then [(⟨[(SHL.FT_DATA_MS, 0, a), (SHL.FT_DATA_MS, 0, a + 1)], cPAIR⟩ : RuleFail)] else []) ++
    (let l := sv s
     let step := v SHL.FT_STEP_UM 0 s
     let ys := l.map (pos s)
     let lo := ys.foldl min (ys.headD 0)
     let hi := ys.foldl max (ys.headD 0)
     (if (256 * step : Int) < hi - lo then
       [(⟨(SHL.FT_STEP_UM, 0, s) :: l.flatMap (fun f => [(SHL.FM_POS_UM, 0, s * 256 + f), (SHL.FM_LAND_IDX, 0, s * 256 + f)]), cPAIR⟩ : RuleFail)] else []) ++
     (l.zip (l.drop 1)).flatMap (fun q => if pos s q.1 < pos s q.2 then [] else
       [(⟨[(SHL.FM_POS_UM, 0, s * 256 + q.1), (SHL.FM_POS_UM, 0, s * 256 + q.2), (SHL.FM_LAND_IDX, 0, s * 256 + q.1),
           (SHL.FM_LAND_IDX, 0, s * 256 + q.2)], cPAIR⟩ : RuleFail)]) ++
     (if step = 0 ∧ (List.range 4).any (fun i => en (4 * s + i)) then [(⟨[(SHL.FT_STEP_UM, 0, s)], cZERO⟩ : RuleFail)] else []))) ++
  cars.flatMap (fun c =>
    (if v SHL.CAR_CFG_BAND_LO 0 c > v SHL.CAR_CFG_BAND_HI 0 c then [(⟨band c, cPAIR⟩ : RuleFail)] else []) ++
    (if !en c then []
    else
      (if v SHL.FT_STEP_UM 0 (c / 4) = 0 then [(⟨[(SHL.CAR_CFG_EN, 0, c)], cZERO⟩ : RuleFail)] else []) ++
      (if v SHL.CAR_CFG_CAP 0 c = 0 then [(⟨[(SHL.CAR_CFG_EN, 0, c), (SHL.CAR_CFG_CAP, 0, c)], cZERO⟩ : RuleFail)] else []) ++
      (List.range 4).flatMap (fun i =>
        let m := c / 4 * 4 + i
        if m = c ∨ !en m then []
        else
          let a := min c m
          let b := max c m
          if v SHL.CAR_CFG_BAND_LO 0 a > v SHL.CAR_CFG_BAND_LO 0 b ∨ v SHL.CAR_CFG_BAND_HI 0 a > v SHL.CAR_CFG_BAND_HI 0 b then
            [(⟨band a ++ band b, cPAIR⟩ : RuleFail)] else []))) ++
  d.ringFails v h SHL.SUB_BASE_ADDR SHL.SUB_SIZE_N SHL.SUB_HEAD_IDX SHL.SUB_TAIL_IDX ++
  d.ringFails v h SHL.RES_BASE_ADDR SHL.RES_SIZE_N SHL.RES_HEAD_IDX SHL.RES_TAIL_IDX ++
  (let a := v SHL.SUB_BASE_ADDR 0 0
   let an := v SHL.SUB_SIZE_N 0 0
   let b := v SHL.RES_BASE_ADDR 0 0
   let bn := v SHL.RES_SIZE_N 0 0
   if an ≠ 0 ∧ bn ≠ 0 ∧ a < b + 16 * bn ∧ b < a + 16 * an then
     [(⟨[(SHL.SUB_BASE_ADDR, 0, 0), (SHL.SUB_SIZE_N, 0, 0), (SHL.RES_BASE_ADDR, 0, 0), (SHL.RES_SIZE_N, 0, 0)], cPAIR⟩ : RuleFail)] else [])

/-- A worker without a manager evaluates every PENDING call at once against its own cars (R237). -/
def islandEval (d : Dev) (h : HalfId) : Dev :=
  let d := d.modShl h (fun x => { x with fwd := x.fwd.filter (fun f => f.op != 1) })
  ((d.shl h).calls.filter (fun e => e.2.state == 1 && !e.2.rejected)).foldl (fun d e => d.evaluate h e.1 e.2 1 (d.scopeCars h)) d

/-- An event of the SHL page's boundary: a changed ring starts anew; a Shoal enabled anew goes on with its ring, and with what waited for an
evaluation in ISLAND scope (R225, R237, R241). -/
def applyShl (d : Dev) (h : HalfId) (bnd seq : Nat) : Dev :=
  let p := ctl .shl h
  let was := d
  let d := d.applyPage p none (d.shlRules h) bnd seq
  let moved (b s : Fld) : Bool := was.get p b != d.get p b || was.get p s != d.get p s
  let d := if moved SHL.SUB_BASE_ADDR SHL.SUB_SIZE_N then (d.put p SHL.SUB_HEAD_IDX 0).put p SHL.SUB_TAIL_IDX 0 else d
  let d := if moved SHL.RES_BASE_ADDR SHL.RES_SIZE_N then (d.put p SHL.RES_HEAD_IDX 0).put p SHL.RES_TAIL_IDX 0 else d
  if d.enabled p && !was.enabled p then (if d.active h && d.shlMode h == 3 then d.islandEval h else d).takeRing h 4096 else d

/-- An abort of SHL (R67, R241). -/
def abortShl (d : Dev) (h : HalfId) : Dev := d.abortPage (ctl .shl h) true

end Dev

def execShlNew (h : HalfId) (kind : BitVec 4) (src dst : BitVec 8) (count : BitVec 4) (access prio : Bool) (car : BitVec 6) (tag : Word) (s : State) :
    Host.Outcome State Fault Refusal :=
  onDev (fun d => d.submit h (1 + 16 * kind.toNat + 256 * src.toNat + 65536 * dst.toNat + 2 ^ 24 * count.toNat + 2 ^ 28 * access.toNat + 2 ^ 29 * prio.toNat)
    (65536 * car.toNat) tag.toNat 0) s

def execShlCancel (h : HalfId) (slot : BitVec 12) (tag : Word) (s : State) : Host.Outcome State Fault Refusal :=
  onDev (fun d => d.submit h 2 slot.toNat tag.toNat 0) s

def execShlArrive (h : HalfId) (car : BitVec 6) (floor : BitVec 8) (tag : Word) (s : State) : Host.Outcome State Fault Refusal :=
  onDev (fun d => d.submit h (3 + 256 * floor.toNat) (65536 * car.toNat) tag.toNat 0) s

def execResTailWrite (h : HalfId) (v : BitVec 12) (s : State) : Host.Outcome State Fault Refusal := onDev (fun d => d.resTailWrite h v.toNat) s
def execShlSweep (h : HalfId) (s : State) : Host.Outcome State Fault Refusal := onDev (fun d => d.sweep h) s
def execShlReassignOut (h : HalfId) (car : BitVec 6) (s : State) : Host.Outcome State Fault Refusal := onDev (fun d => d.reassignOut h car.toNat) s
def execCarRecordStale (h : HalfId) (car : BitVec 6) (s : State) : Host.Outcome State Fault Refusal := onDev (fun d => d.recordStale h car.toNat) s
def execShlFwdTmo (h : HalfId) (slot : BitVec 12) (s : State) : Host.Outcome State Fault Refusal := onDev (fun d => d.fwdTimeout h slot.toNat) s

end Sys2Proof.Machine
end

