-- ==== Sys2Proof/Machine/Glk.lean ====
section
/-! DEFINITION. The group link GLK: ring, membership, time discipline, roles and group traffic (spec/13_group_link.md, R372 to R392). -/
namespace Sys2Proof.Machine

open Sys2Proof

/-! ### Codes (R392, Table 9) and frame types (R379, Table 5) -/
def cGLK_POS_DUP : Nat := 0xE0
def cGLK_CFG_MISMATCH : Nat := 0xE1
def cGLK_SPLIT : Nat := 0xE2
def cGLK_NO_MGR : Nat := 0xE3
def cGLK_TSYNC_LOST : Nat := 0xE4
def cGLK_QFULL : Nat := 0xE5
def cGLK_ROLE_LOST : Nat := 0xE6
def fHELLO : Nat := 1
def fBEACON : Nat := 2
def fDELAY_REQ : Nat := 3
def fDELAY_RESP : Nat := 4
def fRECORDS : Nat := 5
def fFORWARD : Nat := 6
def fDECISION : Nat := 7
def fREPORT_REQ : Nat := 8
def fREPORT : Nat := 9
def fTABLES : Nat := 0xA
def fUSER : Nat := 0xB

/-- The duplicate rule of R377: the position with SEQ entered, and whether the frame is delivered (`some`), a second copy (`none` with
`false`), or older than the record (`none` with `true`). -/
def GNode.accept (n : GNode) (seq : Nat) : Option GNode × Bool :=
  match n.hi with
  | none => (some { n with hi := some seq, seen := 0 }, false)
  | some hi =>
    let up := (seq + 65536 - hi) % 65536
    let back := 65536 - up
    if up = 0 then (none, false)
    else if up ≤ 32767 then (some { n with hi := some seq, seen := (n.seen * 2 ^ up + 2 ^ (up - 1)) % 2 ^ 64 }, false)
    else if back > 64 then (none, true)
    else if bitN n.seen (back - 1) = 1 then (none, false)
    else (some { n with seen := setBitN n.seen (back - 1) true }, false)

/-- Whether a position is heard on a port: a HELLO has arrived on it within three ticks (R378), with the configuration of the group. -/
def GNode.on (n : GNode) (port : Nat) : Bool := n.joined && !n.mis && decide ((if port = 0 then n.age0 else n.age1) ≤ 3)
def GNode.heard (n : GNode) : Bool := n.on 0 || n.on 1

/-- Bytes 0 to 13 of a group header (R379, Table 4). -/
def headBytes (ver typ group src role hops seq len epoch flags : Nat) : List Nat :=
  [ver, typ] ++ leBytes 2 group ++ [src % 32 + 32 * (role % 4), hops] ++ leBytes 2 seq ++ leBytes 2 len ++ leBytes 2 epoch ++ [flags, 0]

end Sys2Proof.Machine

namespace Sys2Proof

/-- FLAGS of a received header. -/
def GHdr.flags (hd : GHdr) : Nat := hd.leave.toNat + 2 * hd.active.toNat

/-- The CRC-16 of a received header (R379, Table 4). -/
def GHdr.headCrc (hd : GHdr) : Nat :=
  Machine.crc16 (Machine.headBytes hd.ver.toNat hd.typ.toNat hd.group.toNat hd.src.toNat hd.role.toNat hd.hops.toNat hd.seq.toNat hd.len.toNat
    hd.epoch.toNat hd.flags)

/-- Whether the HCRC of a received header is good. -/
def GHdr.hcrcOk (hd : GHdr) : Bool := hd.hcrc.toNat == hd.headCrc

end Sys2Proof

namespace Sys2Proof.Machine

open Sys2Proof

/-- A frame with the HCRC of its header. -/
def GFrame.close (f : GFrame) : GFrame :=
  { f with hcrc := crc16 (headBytes f.ver f.typ f.group f.src f.role f.hops f.seq f.len f.epoch f.flags) }

/-- The clip of R385. -/
def clip (x lo hi : Int) : Int := max lo (min x hi)

namespace Dev

/-! ### Roles, positions and ports (R372, R373) -/

def modGlk (d : Dev) (f : Glk → Glk) : Dev := { d with glk := f d.glk }
def glkStrap (d : Dev) : Nat := d.get (shp .glk) GLK.ROLE_STRAP
def isWorker (d : Dev) : Bool := d.glkStrap == 1
def glkActive (d : Dev) : Bool := d.on (shp .glk) GLK.ROLE_ACTIVE
def glkOn (d : Dev) : Bool := d.enabled (shp .glk) && d.glkStrap != 0
def ringPos (d : Dev) : Nat := d.get (shp .glk) GLK.NODE_POS
def workers (d : Dev) : Nat := d.get (shp .glk) GLK.WORKERS_MASK
def managers (d : Dev) : Nat := d.get (shp .glk) GLK.MANAGERS_MASK
def workersN (d : Dev) : Nat := popc 18 d.workers
def devId (d : Dev) : Nat := d.get64 (shp .enc) ENC.DEV_ID_LO ENC.DEV_ID_HI
def linkUp (d : Dev) (port : Nat) : Bool := bitN (d.get (shp .glk) GLK.RING_LINK) port == 1
def node (d : Dev) (i : Nat) : GNode := d.glk.nodes.getD i GNode.init
def modNode (d : Dev) (i : Nat) (f : GNode → GNode) : Dev := d.modGlk (fun g => { g with nodes := lmod g.nodes i f })

/-- The other configured positions. -/
def members (d : Dev) : List Nat := (List.range 18).filter (fun i => i != d.ringPos && (bitN d.workers i == 1 || bitN d.managers i == 1))

/-- The other active managers heard. -/
def activeHeard (d : Dev) : List Nat := (List.range 18).filter (fun i => i != d.ringPos && (d.node i).active && (d.node i).heard)

/-- Workers heard (R386). -/
def workersHeard (d : Dev) : Nat := ((List.range 18).filter (fun i => bitN d.workers i == 1 && i != d.ringPos && (d.node i).heard)).length

/-! ### Sending (R375, R376, R379, R381) -/

/-- Bits of a frame on the wire: header, payload and FCS, at least 64 bytes, with preamble and gap. -/
def wireBits (len : Nat) : Nat := (max 64 (14 + 16 + len + 4) + 20) * 8

/-- Priority of a frame at a port (R376), the lowest number first: time frames, forwarded frames, own frames in the order of their types. -/
def glkPrio (d : Dev) (f : GFrame) : Nat :=
  if f.typ = fBEACON ∨ f.typ = fDELAY_REQ ∨ f.typ = fDELAY_RESP then 0
  else if f.src ≠ d.ringPos then 1
  else 2 + (([fHELLO, fDECISION, fREPORT_REQ, fFORWARD, fREPORT, fRECORDS, fTABLES, fUSER].findIdx? (· == f.typ)).getD 8)

/-- Whether the queue of a port has no room for a frame: 16 forwarded and 32 own frames (R376). A port with no frame in progress takes one more, which
is the one it sends next. -/
def portFull (d : Dev) (f : GFrame) : Bool :=
  let room := if (d.glk.cur.getD f.port none).isNone then 1 else 0
  let like (x : GFrame) : Bool := x.port == f.port && (d.glkPrio x == 1) == (d.glkPrio f == 1) && d.glkPrio x != 0
  d.glkPrio f != 0 && decide ((d.glk.queue.filter like).length ≥ (if d.glkPrio f = 1 then 16 else 32) + room)

/-- Hand a frame to one port; a port without link sends nothing, and a full queue drops the frame (R376). -/
def glkPort (d : Dev) (f : GFrame) : Dev :=
  let p := shp .glk
  if !d.linkUp f.port then d
  else if d.portFull f then (d.bump p GLK.QDROP_COUNT).err p cGLK_QFULL f.port
  else d.modGlk (fun g => { g with out := g.out ++ [f], queue := g.queue ++ [f] })

/-- The frame a port sends next: the oldest of the highest priority that waits there. -/
def glkNext (d : Dev) (port : Nat) : Option GFrame :=
  (List.range 11).findSome? (fun c => d.glk.queue.find? (fun f => f.port == port && d.glkPrio f == c))

/-- A port begins its next frame, of which `b` units of 1/65,536 bit have gone (R376, R390). -/
def portBegin (d : Dev) (port b : Nat) : Dev :=
  match d.glkNext port with
  | none => d.modGlk (fun g => { g with cur := lset g.cur port none })
  | some f =>
    d.modGlk (fun g => { g with queue := g.queue.eraseP (fun x => decide (x = f)), cur := lset g.cur port (some (f, wireBits f.len * 65536 - b)),
                                bits := lmod g.bits port (· + wireBits f.len) })

/-- One TICK of a port at 10 Mbit/s: 10⁷ units of 1/65,536 bit go, less than the shortest frame; a frame in progress is never interrupted (R376). -/
def portTick (d : Dev) (port : Nat) : Dev :=
  match d.glk.cur.getD port none with
  | some (f, r) =>
    if r > 10000000 then d.modGlk (fun g => { g with cur := lset g.cur port (some (f, r - 10000000)) }) else d.portBegin port (10000000 - r)
  | none => d.portBegin port 10000000

/-- The ports send on at a TICK. -/
def glkTick (d : Dev) : Dev := if d.glk.queue.isEmpty && d.glk.cur.all Option.isNone then d else (d.portTick 0).portTick 1

/-- Destination and source address of own frames (R379, Table 3). -/
def glkMac (d : Dev) : Nat := d.get64 (shp .glk) GLK.MAC_LO GLK.MAC_HI
def glkAddr (d : Dev) : Nat := 0x02 + d.devId % 2 ^ 40 * 256

/-- An own frame. -/
def ownFrame (d : Dev) (port typ hops seq flags len : Nat) (msg : Option GMsg) (nums : List Nat) : GFrame :=
  GFrame.close ⟨port, typ, d.ringPos, hops, seq, d.get (shp .glk) GLK.EPOCH_ROLE, flags, len, msg, nums, d.glkMac, d.glkAddr,
    d.get (shp .glk) GLK.ETYPE_TYPE, 1, d.get (shp .glk) GLK.GROUP_ID, d.glkStrap, 0, true⟩

/-- FLAGS of an own frame. -/
def glkFlags (d : Dev) (leave : Bool) : Nat := leave.toNat + 2 * d.glkActive.toNat

/-- Send an own frame on both ports (R375): HOPS = M − 2, which is N. -/
def glkSend (d : Dev) (typ len : Nat) (msg : Option GMsg) (nums : List Nat) (leave : Bool := false) : Dev :=
  if !d.glkOn || d.glk.dup then d
  else
    let f (port : Nat) : GFrame := d.ownFrame port typ d.workersN d.glk.seq (d.glkFlags leave) len msg nums
    ((d.modGlk (fun g => { g with seq := (g.seq + 1) % 65536 })).glkPort (f 0)).glkPort (f 1)

/-- A link-local frame on one port (R383); a module whose position another one holds sends none (R380). -/
def glkLocal (d : Dev) (port typ : Nat) (nums : List Nat) : Dev :=
  if !d.glkOn || d.glk.dup then d else d.glkPort (d.ownFrame port typ 0 0 (d.glkFlags false) (8 * nums.length) none nums)

/-- The frames handed over start anew with each command; those queued stay. -/
def glkBegin (d : Dev) : Dev := d.modGlk (fun g => { g with out := [] })

/-- Send HELLO (R379, Table 5): CFG_ID, identity, boot count, W and the positions heard. -/
def glkHello (d : Dev) (leave : Bool) : Dev :=
  let p := shp .glk
  d.glkSend fHELLO 25 none [d.get p GLK.CFG_ID_ID, d.devId, d.get (shp .bot) BOT.BOOTS_COUNT, d.get p GLK.COUNT_W,
    (d.get p GLK.HEARD0_MASK).lor (d.get p GLK.HEARD1_MASK)] leave

/-! ### Receiving (R375, R377, R380) -/

/-- A received frame as it is forwarded on the other port: HOPS one less, the header's CRC anew, and the inverted FCS where the FCS was bad (R375,
R376). -/
def relayFrame (port : Nat) (hd : GHdr) (msg : Option GMsg) (len : Nat) (nums : List Nat) : GFrame :=
  GFrame.close ⟨1 - port, hd.typ.toNat, hd.src.toNat, hd.hops.toNat - 1, hd.seq.toNat, hd.epoch.toNat, hd.flags, len, msg, nums, hd.dst.toNat, hd.sa.toNat,
    hd.etype.toNat, hd.ver.toNat, hd.group.toNat, hd.role.toNat, 0, hd.fcsOk⟩

/-- A frame on a port: discard, consume, forward with its contents, and the duplicate rule; whether it is delivered. -/
def glkAccept (d : Dev) (port : Nat) (hd : GHdr) (msg : Option GMsg) (len : Nat) (nums : List Nat := []) : Dev × Bool :=
  let p := shp .glk
  let typ := hd.typ.toNat
  let src := hd.src.toNat
  let near := typ == fDELAY_REQ || typ == fDELAY_RESP
  if !d.glkOn || !d.linkUp port then (d, false)
  else if !hd.hcrcOk then ((d.bump p GLK.DROP_FOREIGN).bump p GLK.ERR_CNT_HCRC, false)
  else if hd.ver ≠ 1 ∨ hd.group.toNat ≠ d.get p GLK.GROUP_ID ∨ typ = 0 ∨ typ > 0xB then (d.bump p GLK.DROP_FOREIGN, false)
  else if src = d.ringPos then (if hd.fcsOk then d else d.bump p GLK.ERR_CNT_FCS, false)
  else
    let d := if hd.hops = 0 ∨ near then d
      else d.glkPort (relayFrame port hd msg len nums)
    if !hd.fcsOk then (d.bump p GLK.ERR_CNT_FCS, false)
    else if near then (d, true)
    else if src > 17 then (d, false)
    else
      match (d.node src).accept hd.seq.toNat with
      | (some n, _) =>
        let d := d.modNode src (fun _ => { n with epoch := hd.epoch.toNat, active := hd.active })
        let d := if !d.glkActive && n.joined && !n.mis && epochHigher hd.epoch.toNat (d.get p GLK.EPOCH_ROLE) then d.put p GLK.EPOCH_ROLE hd.epoch.toNat else d
        (d, typ == fHELLO || (n.joined && !n.mis))
      | (none, old) => (if old then d.bump p GLK.DROP_OLD else d, false)

/-- A delivered frame for Shoal goes into the cycle lane (R381). -/
def glkLane (d : Dev) (port : Nat) (hd : GHdr) (m : GMsg) (len : Nat) : Dev :=
  let r := (d.glkBegin).glkAccept port hd (some m) len
  if r.2 then r.1.modGlk (fun g => { g with inbox := g.inbox ++ [m] }) else r.1

/-- Show a change of membership: `STAT.BLOCK` bit 3 and a STATE record (R380). Codes: 1 join, 0 leave. -/
def glkMember (d : Dev) (i : Nat) (join : Bool) : Dev := (d.stat (shp .glk) 3).note (shp .glk) clsState join.toNat i

/-- A module leaves: at LEAVE, or when it is no longer heard (R380); its shaft slot is free for another (R218). -/
def glkGone (d : Dev) (i : Nat) : Dev :=
  let n := d.node i
  let d := d.modNode i (fun n => { n with age0 := 255, age1 := 255, joined := false, mis := false, active := false, slot := none })
  if n.joined then d.glkMember i false else d

/-- All that a whole TABLES copy of the lease holder's Shoal sends: the slots of its calls and the cars that have stops (R389). -/
def tablesAll (d : Dev) : List Nat × List Nat :=
  let x := d.shl d.holder
  (x.calls.map Prod.fst, (List.range 64).filter (fun c => !(x.stops.getD c []).isEmpty))

/-- Whether an active manager is the one this module follows: of those heard, the one with the highest epoch (R387). -/
def follows (d : Dev) (src : Nat) : Bool :=
  (d.node src).active && !d.activeHeard.any (fun i => i != src && epochHigher (d.node i).epoch (d.node src).epoch)

/-- Ask for a change of the scope at the next CYCLE boundary (R387). -/
def scopeAsk (d : Dev) (mode : Nat) (passive : Bool) : Dev := d.modGlk (fun g => { g with scopeNext := some (mode, passive) })

/-- A HELLO (R377, R378, R380, R387). -/
def helloRx (d : Dev) (port : Nat) (hd : GHdr) (cfg dev boots w heard : Nat) : Dev :=
  let p := shp .glk
  let src := hd.src.toNat
  let good := d.glkOn && d.linkUp port && hd.hcrcOk && hd.fcsOk && hd.ver == 1 && hd.group.toNat == d.get p GLK.GROUP_ID && hd.typ.toNat == fHELLO
  let d := if good && decide (src ≤ 17) && src != d.ringPos && (d.node src).boots != boots then
      d.modNode src (fun n => { n with boots := boots, hi := none, seen := 0 }) else d
  let d := ((d.glkBegin).glkAccept port hd none 25 [cfg, dev, boots, w, heard]).1
  if !good || decide (src > 17) then d
  else if src = d.ringPos then
    if dev = d.devId then d
    else
      let fresh := d.glk.dupAge > 3
      let d := d.modGlk (fun g => { g with dup := decide (d.devId < dev), dupAge := 0 })
      if !fresh then d
      else
        let d := d.note p clsState cGLK_POS_DUP src
        if d.devId < dev then (d.stat p 4).err p cGLK_POS_DUP src else d
  else if hd.leave then d.glkGone src
  else
    let was := d.node src
    let d := d.modNode src (fun n => { n with dev := dev, cfg := cfg, age0 := if port = 0 then 0 else n.age0, age1 := if port = 1 then 0 else n.age1 })
    if cfg ≠ d.get p GLK.CFG_ID_ID then
      if was.mis then d
      else (((d.modNode src (fun n => { n with mis := true, joined := false, slot := none })).stat p 5).err p cGLK_CFG_MISMATCH src).note p clsState cGLK_CFG_MISMATCH src
    else
      let d := d.modNode src (fun n => { n with mis := false, joined := true })
      let d := if was.joined then d else d.glkMember src true
      let d := if !was.joined && d.glkActive && bitN d.managers src = 1 then
          (d.modGlk (fun g => { g with tblSent := some d.tablesAll })).put p GLK.ROLE_PEER_TBL 0 else d
      if d.isWorker && hd.active then d.scopeAsk 2 false else d

/-! ### Time discipline (R383 to R385) -/

/-- Whether the module follows the beacon: a worker or the passive manager, with `TSYNC.EN` (R385). -/
def follower (d : Dev) : Bool := d.glkOn && d.on (shp .glk) GLK.TSYNC_EN && (d.isWorker || (d.isManager && !d.glkActive))

/-- Enter a discipline state: leaving LOCKED raises GLK_TSYNC_LOST; the clock shows whether discipline is in force. -/
def tsyncGo (d : Dev) (st : Nat) : Dev :=
  let p := shp .glk
  let was := d.get p GLK.TSYNC_STATE
  if was = st then d
  else
    let d := ((d.put p GLK.TSYNC_STATE st).stat p 2).modGlk (fun g => { g with good := 0, bad := 0 })
    let d := d.rtcStatus 5 (st != 0)
    if was = 2 then d.err p cGLK_TSYNC_LOST d.ringPos else d

/-- Discipline starts or ends with the role and the enables. -/
def tsyncShow (d : Dev) : Dev :=
  if d.follower then (if d.get (shp .glk) GLK.TSYNC_STATE = 0 then d.tsyncGo 1 else d) else d.tsyncGo 0

/-- Steer the clock by an offset in ns (R385). -/
def discipline (d : Dev) (theta : Int) : Dev :=
  let p := shp .glk
  let d := d.puti p GLK.TSYNC_OFFSET_NS (satS 32 theta)
  let step := d.get p GLK.TSYNC_STEP_US
  if step ≠ 0 ∧ theta.natAbs > step * 1000 then
    let v := ((d.now + 1 : Int) + Int.fdiv (theta * 65536 + 500000000) 1000000000) % 2 ^ 64
    let d := d.modRtc (fun r => { r with pend := some (v.toNat, false, 0x1F, 0) })
    (d.tsyncGo 1).modGlk (fun g => { g with good := 0, bad := 0 })
  else
    let st := d.get p GLK.TSYNC_STATE
    let g := d.glk
    let f := if st = 2 then clip (g.freq + tdiv (theta * 100) 16) (-200000) 200000 else g.freq
    let pp := clip (theta * 50) (-500000 - f) (500000 - f)
    let near := decide (theta.natAbs ≤ 10000)
    let good := if near then g.good + 1 else 0
    let bad := if near then 0 else g.bad + 1
    let d := (d.puti p GLK.TSYNC_FREQ_PPB f).modGlk (fun g => { g with freq := f, rate := f + pp })
    let d := if st = 3 then d.tsyncGo 1 else d
    let d := d.modGlk (fun g => { g with good := good, bad := bad })
    if st = 2 then (if bad ≥ 3 then d.tsyncGo 1 else d)
    else if good ≥ 8 then d.tsyncGo 2 else d

/-- A port has completed the 8 exchanges without which its beacons are not used (R383). -/
def delayKnown (d : Dev) (port : Nat) : Bool := decide ((d.glk.delays.getD port []).length ≥ 8)
def linkDelay (d : Dev) (port : Nat) : Nat := d.get (shp .glk) (if port = 0 then GLK.LINK_D0_NS else GLK.LINK_D1_NS)

/-- A BEACON, in the copies that reached the two ports (R384, R385): the copy with more remaining hops, P0 where they are equal, of the manager that is
followed (R387). A forwarded copy has its residence time and the link delay of its ingress port added to CORR_NS. -/
def beaconRx (d : Dev) (copies : List GCopy) (ts sub : Nat) : Dev :=
  let r := copies.foldl (fun (a : Dev × Bool) c =>
    let x := a.1.glkAccept c.port.val c.hd none 16 [ts, sub, (c.corr.toNat + c.stay.toNat + a.1.linkDelay c.port.val) % 2 ^ 32]
    (x.1, a.2 || x.2)) (d.glkBegin, false)
  let d := r.1
  let ok := copies.filter (fun c => c.hd.hcrcOk && c.hd.fcsOk && c.hd.typ.toNat == fBEACON && d.linkUp c.port.val && d.delayKnown c.port.val)
  let best := ok.foldl (fun (b : Option GCopy) c =>
    match b with
    | none => some c
    | some x => if c.hd.hops.toNat > x.hd.hops.toNat ∨ (c.hd.hops = x.hd.hops ∧ c.port.val < x.port.val) then some c else b) none
  match best with
  | some c =>
    if r.2 && d.follower && d.follows c.hd.src.toNat then
      let dt : Int := Int.fdiv (((ts : Int) - d.now) * 1000000000) 65536
      d.discipline (dt + sub - c.rsub.toNat + c.corr.toNat + d.linkDelay c.port.val)
    else d
  | none => d

/-- A DELAY_RESP completes an exchange (R383). -/
def delayDone (d : Dev) (port : Nat) (t2 t3 t4 : Nat) : Dev :=
  match d.glk.req.getD port none with
  | none => d
  | some t1 =>
    let x : Int := Int.fdiv (((t4 : Int) - t1) - ((t3 : Int) - t2)) 2
    let l := (x :: d.glk.delays.getD port []).take 8
    let d := d.modGlk (fun g => { g with req := lset g.req port none, delays := lset g.delays port l })
    let avg := Int.fdiv l.sum l.length
    if l.length < 8 then d else d.put (shp .glk) (if port = 0 then GLK.LINK_D0_NS else GLK.LINK_D1_NS) (satU 16 avg.toNat)

/-! ### Ring state and roles (R378, R386 to R388) -/

/-- Show a change of role: `STAT.BLOCK` bit 1 and a STATE record. -/
def roleShow (d : Dev) (active : Bool) : Dev :=
  let p := shp .glk
  let d := (d.putb p GLK.ROLE_ACTIVE active).stat p 1
  d.note p clsState active.toNat d.ringPos [d.get p GLK.EPOCH_ROLE]

/-- The highest epoch that this module or a heard one knows. -/
def epochKnown (d : Dev) : Nat :=
  (((List.range 18).filter (fun i => (d.node i).joined && !(d.node i).mis)).map (fun i => (d.node i).epoch)).foldl
    (fun e x => if epochHigher x e then x else e) (d.get (shp .glk) GLK.EPOCH_ROLE)

/-- A manager gives up the role (R386, rows 1 and 2): Shoal turns passive at the next CYCLE boundary. -/
def roleDrop (d : Dev) : Dev :=
  let d := d.put (shp .glk) GLK.EPOCH_ROLE d.epochKnown
  ((d.roleShow false).scopeAsk 1 true).modGlk (fun g => { g with askReports := false, tblSent := none })

/-- The manager's role at a tick (R386, Table 6, rows 1 to 4 and 6; row 5 is MANAGER_ACTIVATE). -/
def roleTick (d : Dev) : Dev :=
  let p := shp .glk
  if !d.isManager then d
  else if d.glkActive then
    let e := d.get p GLK.EPOCH_ROLE
    if d.activeHeard.any (fun i => epochHigher (d.node i).epoch e || ((d.node i).epoch == e && d.glkStrap == 3)) then d.roleDrop
    else if 2 * d.workersHeard < d.workersN then (d.roleDrop).err p cGLK_ROLE_LOST d.ringPos
    else d
  else d.put p GLK.EPOCH_ROLE d.epochKnown

/-- Show who holds the role and what is heard. -/
def ringShow (d : Dev) : Dev :=
  let p := shp .glk
  let mask (port : Nat) : Nat := bitsOf 18 (fun i => i != d.ringPos && (d.node i).on port)
  let best := d.activeHeard.foldl (fun (b : Option Nat) i =>
    match b with | none => some i | some j => if epochHigher (d.node i).epoch (d.node j).epoch then some i else b) none
  let d := ((d.put p GLK.HEARD0_MASK (mask 0)).put p GLK.HEARD1_MASK (mask 1)).put p GLK.COUNT_N d.workersN
  let d := (d.put p GLK.COUNT_W d.workersHeard).putb p GLK.ROLE_HAS_MGR best.isSome
  d.put p GLK.EPOCH_MGR_POS (if d.glkActive then d.ringPos else best.getD 31)

/-- The ring state (R378); a configured module that is no longer heard raises GLK_SPLIT (R392). -/
def ringTick (d : Dev) : Dev :=
  let p := shp .glk
  let before := (d.get p GLK.HEARD0_MASK).lor (d.get p GLK.HEARD1_MASK)
  let d := d.ringShow
  let ms := d.members
  let lost := ms.filter (fun i => bitN before i == 1 && !(d.node i).heard)
  let d := lost.foldl (fun d i => d.err p cGLK_SPLIT i) d
  let st := if d.get p GLK.RING_LINK = 0 then 0
    else if ms.any (fun i => !(d.node i).heard) then 3
    else if ms.all (fun i => (d.node i).on 0 && (d.node i).on 1) then 1 else 2
  if st = d.get p GLK.RING_STATE then d
  else
    let d := (d.put p GLK.RING_STATE st).stat p 0
    if st = 3 then d.bump p GLK.SPLITS_COUNT else d

/-- A tick of `HELLO.MS`: ages, leavers, roles, ring state, and the own HELLO. -/
def helloTick (d : Dev) : Dev :=
  if !d.glkOn then d
  else
    let older (a : Nat) : Nat := min 255 (a + 1)
    let d := (d.glkBegin).modGlk (fun g => { g with dupAge := older g.dupAge, dup := g.dup && decide (older g.dupAge ≤ 3) })
    let d := d.modGlk (fun g => { g with nodes := g.nodes.map (fun n => { n with age0 := older n.age0, age1 := older n.age1 }) })
    let d := (List.range 18).foldl (fun d i =>
      let n := d.node i
      if (n.joined || n.mis) && decide (n.age0 > 3) && decide (n.age1 > 3) then d.glkGone i else d) d
    let d := ((d.roleTick).ringTick).tsyncShow
    d.glkHello false

/-- A passive manager takes the role (R386 row 5, R388). -/
def managerActivate (d : Dev) : Dev :=
  let p := shp .glk
  if !d.glkOn || !d.isManager || d.glkActive || !d.activeHeard.isEmpty || decide (2 * d.workersHeard ≤ d.workersN) then d
  else
    let d := d.put p GLK.EPOCH_ROLE ((d.epochKnown + 1) % 65536)
    let d := ((d.roleShow true).put p GLK.EPOCH_MGR_POS d.ringPos).put p GLK.ROLE_PEER_TBL 0
    let peer := (List.range 18).any (fun i => i != d.ringPos && bitN d.managers i == 1 && (d.node i).heard)
    let d := d.modGlk (fun g => { g with askReports := true, tblSent := if peer then some d.tablesAll else none })
    ((d.scopeAsk 1 false).tsyncShow)

/-! ### Links (R374, R383) -/

/-- A port loses its link: what waited there is not sent. -/
def linkLoss (d : Dev) (port : Nat) : Dev :=
  let p := shp .glk
  let d := (d.putBit p GLK.RING_LINK port false).putBit p GLK.RING_AMP port false
  d.modGlk (fun g => { g with req := lset g.req port none, delays := lset g.delays port [], queue := g.queue.filter (fun f => f.port != port),
                              cur := lset g.cur port none })

def linkGain (d : Dev) (port : Nat) (low : Bool) : Dev :=
  let p := shp .glk
  if !d.glkOn then d
  else
    let low := low || d.on p (if port = 0 then GLK.PHY_AMP0 else GLK.PHY_AMP1)
    (d.linkLoss port).putBit p GLK.RING_LINK port true |>.putBit p GLK.RING_AMP port low

/-- Both ports go down, and nothing of the ring is kept but SEQ and the records of SEQ. -/
def glkDown (d : Dev) : Dev :=
  let p := shp .glk
  let d := (d.linkLoss 0).linkLoss 1
  let d := d.modGlk (fun g => { g with nodes := g.nodes.map (fun n => { n with age0 := 255, age1 := 255, joined := false, mis := false, active := false, slot := none }) })
  let d := d.modGlk (fun g => { g with dup := false, dupAge := 255, askReports := false, tblSent := none })
  let d := if d.glkActive then d.roleDrop else d
  let d := if d.get p GLK.RING_STATE = 0 then d else (d.put p GLK.RING_STATE 0).stat p 0
  (d.ringShow).tsyncShow

/-! ### Staged values (R373, Table 2) -/

/-- Failing rules of GLK. -/
def glkRules (d : Dev) (v : View) : List RuleFail :=
  let p := shp .glk
  let g (f : Fld) : Nat := v f 0 0
  let at_ (f : Fld) : Fld × Nat × Nat := (f, 0, 0)
  let en := g HDR.CTRL_EN = 1
  let enF : List (Fld × Nat × Nat) := if en then [at_ HDR.CTRL_EN] else []
  let rule (bad : Bool) (fs : List Fld) (why : Nat) : List RuleFail := if bad then [⟨fs.map at_ ++ enF, why⟩] else []
  let w := g GLK.WORKERS_MASK
  let m := g GLK.MANAGERS_MASK
  let pos := g GLK.NODE_POS
  let own := if d.isWorker then bitN w pos == 1 else bitN m pos == 1
  let range5 (f : Fld) (lo hi : Nat) : List RuleFail :=
    if g f = 0 then [⟨[at_ f], cZERO⟩] else if g f < lo ∨ g f > hi then [⟨[at_ f], cRANGE⟩] else []
  (if d.enabled p then
    [⟨[GLK.NODE_POS, GLK.GROUP_ID, GLK.WORKERS_MASK, GLK.MANAGERS_MASK, GLK.ETYPE_TYPE, GLK.MAC_LO, GLK.MAC_HI].map at_, cBUSY⟩] else []) ++
  (if d.glkStrap = 0 ∧ en then [⟨[at_ HDR.CTRL_EN], cRANGE⟩] else []) ++
  rule (decide (pos > 17)) [GLK.NODE_POS] cRANGE ++
  rule (g GLK.GROUP_ID == 0) [GLK.GROUP_ID] cZERO ++
  rule (w == 0) [GLK.WORKERS_MASK] cZERO ++
  rule (decide (popc 18 w > 16)) [GLK.WORKERS_MASK] cRANGE ++
  rule (popc 18 m != 2 || w.land m != 0) [GLK.WORKERS_MASK, GLK.MANAGERS_MASK] cPAIR ++
  rule (d.glkStrap != 0 && !own) [GLK.NODE_POS, GLK.WORKERS_MASK, GLK.MANAGERS_MASK] cPAIR ++
  rule (decide (g GLK.ETYPE_TYPE < 0x600)) [GLK.ETYPE_TYPE] cRANGE ++
  rule (g GLK.MAC_LO % 2 == 0) [GLK.MAC_LO, GLK.MAC_HI] cRANGE ++
  range5 GLK.HELLO_MS 5 100 ++ range5 GLK.REC_MS 1 255 ++
  (if g GLK.USER_LEN > 1484 then [⟨[at_ GLK.USER_LEN], cRANGE⟩] else [])

/-- An event of the GLK page: EN = 0 sends one HELLO with LEAVE and takes both ports down; EN = 1 starts a ring of which nothing is known
(R374, R380, R390). -/
def applyGlk (d : Dev) (bnd seq : Nat) : Dev :=
  let p := shp .glk
  let was := d
  let wasMask := d.workersN
  let x := d.applyPage p none d.glkRules bnd seq
  if was.enabled p && !x.enabled p then
    let sent := (d.glkHello true).glk
    ({ x with glk := { x.glk with out := sent.out, seq := sent.seq, bits := sent.bits } }).glkDown
  else if !was.enabled p && x.enabled p then (x.ringShow).tsyncShow
  else if wasMask ≠ x.workersN then x.ringShow
  else x.tsyncShow

/-- An abort of GLK (R67): both ports go down without a HELLO, since a module with `CTRL.EN` = 0 sends nothing. -/
def abortGlk (d : Dev) : Dev := ((d.glkBegin).abortPage (shp .glk) true).glkDown

/-! ### Group traffic in Shoal (R217, R218, R223, R236 to R239, R388, R389) -/

/-- The slot that holds a call, by KEY. -/
def slotOf (d : Dev) (h : HalfId) (key : Nat) : Option Nat := ((d.shl h).calls.find? (fun e => e.2.key == key)).map Prod.fst

/-- Enter a call under its own slot or the lowest free one (R239); with no free slot it is left out. -/
def upsert (d : Dev) (h : HalfId) (c : Call) : Dev :=
  match d.slotOf h c.key with
  | some k => d.setCall h k { c with locked := ((d.call? h k).map Call.locked).getD false, rejected := ((d.call? h k).map Call.rejected).getD false }
  | none => match d.freeSlot h with
    | some k => d.setCall h k c
    | none => d.err (ctl .shl h) cSHL_FULL

/-- A received stop with its calls as slots. -/
def stopOf (d : Dev) (h : HalfId) (g : GStop) : Stop :=
  let ks (l : List (BitVec 32)) : List Nat := l.filterMap (fun k => d.slotOf h k.toNat)
  ⟨g.floor.toNat, g.upper, g.up, ks g.picks, ks g.here, ks g.drops, g.eta.toNat⟩

/-- A stop as frames carry it. -/
def stopToG (d : Dev) (h : HalfId) (s : Stop) : GStop :=
  let ks (l : List Nat) : List (BitVec 32) := l.map (fun k => BitVec.ofNat 32 (((d.call? h k).map Call.key).getD 0))
  ⟨BitVec.ofNat 8 s.floor, s.upper, s.up, ks s.picks, ks s.here, ks s.drops, BitVec.ofNat 32 s.eta⟩

/-- Enter the stops of a call into a car's sequence by the rule of R231, whatever the car's availability. -/
def insertOn (d : Dev) (h : HalfId) (c k : Nat) (cl : Call) : Dev :=
  match d.bestIn h c k (if cl.state = 3 then { cl with kind := 4 } else cl) with
  | some b => d.setSeq h c b.2.1.seq
  | none => d

/-- A worker's car records (R218, R223). -/
def takeRecords (d : Dev) (h : HalfId) (src : Nat) (rs : List GRec) : Dev :=
  let p := ctl .shl h
  match rs.head? with
  | none => d
  | some r0 =>
    let sl := r0.car.toNat / 4
    if (List.range 18).any (fun i => i != src && (d.node i).joined && (d.node i).slot == some sl) then d.err p cSHL_SLOT_DUP
    else
      let d := d.modNode src (fun n => { n with slot := some sl })
      (rs.foldl (fun d r =>
        let n : CarRec := ⟨r.x.toInt, r.v.toInt, r.stop.toInt, r.up, r.floor.map BitVec.toNat, r.doors, r.head.toNat, r.load.toNat, r.avail.toNat, true⟩
        (d.modShl h (fun x => { x with recs := lset x.recs r.car.toNat (some n) })).standStamp h r.car.toNat n.floor) d).showLive h

/-- Withdraw results that a source has settled itself: those of its own calls that came after the first `n` (R237). -/
def settle (d : Dev) (h : HalfId) (src n : Nat) : Dev :=
  let mine (r : ShlRes) : Bool := ((d.call? h r.slot).map (fun c => c.key / 2 ^ 27 == src)).getD false
  let x := d.shl h
  let gone := (x.out.drop n).filter mine
  let d := d.modShl h (fun x => { x with out := x.out.take n ++ (x.out.drop n).filter (fun r => !mine r) })
  gone.foldl (fun d r => d.dropCall h r.slot) d

/-- A forwarded submission at the active manager (R237, Table 7). -/
def takeForward (d : Dev) (h : HalfId) (src : Nat) (f : GFwd) : Dev :=
  let n := (d.shl h).out.length
  if f.op = 1 then
    let cl := { Call.ofG f.call with state := 1, valid := false }
    match d.slotOf h cl.key, d.freeSlot h with
    | some _, _ => d
    | none, some k =>
      let d := d.setCall h k cl
      if d.floorBad h cl.kind cl.src cl.dst cl.car then d.rejectCall h k cl cSHL_FLOOR else d.evaluate h k cl 1 (d.scopeCars h)
    | none, none => (d.err (ctl .shl h) cSHL_FULL).modShl h (fun x => { x with dec := x.dec ++ [(2, cSHL_FULL, cl)], decided := true })
  else if f.op = 2 then
    match d.slotOf h f.call.key.toNat with
    | some k => (d.shlCancel h k 0).settle h src n
    | none => d
  else if f.op = 3 then
    if ((d.seqOf h f.car.toNat).head?.map Stop.floor) = some f.floor.toNat then (d.shlArrive h f.car.toNat f.floor.toNat 0).settle h src n else d
  else d

/-- A report at the active manager (R239, R388): calls are adopted by KEY; after a full report, what the worker did not name is evaluated again. -/
def takeReport (d : Dev) (h : HalfId) (src : Nat) (full : Bool) (cs : List GCall) : Dev :=
  let sl := (d.node src).slot
  let d := cs.foldl (fun d g =>
    let cl := Call.ofG g
    match d.slotOf h cl.key with
    | some k =>
      match d.call? h k with
      | some old =>
        let placed := old.valid && old.car == cl.car
        let d := if placed then d else d.removeStops h k old
        let d := d.setCall h k { old with state := cl.state, car := cl.car, deck := cl.deck, valid := true, held := cl.held, rejected := false }
        if placed then d else d.insertOn h cl.car k cl
      | none => d
    | none => match d.freeSlot h with
      | some k => (d.setCall h k { cl with valid := true }).insertOn h cl.car k cl
      | none => d.err (ctl .shl h) cSHL_FULL) d
  let d := d.modShl h (fun x => { x with decided := true })
  if !full then d
  else
    let named (c : Call) : Bool := cs.any (fun g => g.key.toNat == c.key)
    let lost := (d.shl h).calls.filter (fun e => e.2.state == 2 && e.2.valid && some (e.2.car / 4) == sl && !named e.2)
    lost.foldl (fun d e =>
      let d := d.removeStops h e.1 e.2
      let cl := { e.2 with state := 1, valid := false, locked := false, held := false }
      match d.best h e.1 cl (d.scopeCars h) with
      | some b => (d.evalTime h).decide_ h e.1 cl 3 b |>.countMove h
      | none => (d.evalTime h).rejectCall h e.1 cl cSHL_NO_CAR) d

/-- Table entries at the passive manager (R389). -/
def takeTables (d : Dev) (h : HalfId) (cs : List GCall) (seqs : List (BitVec 6 × List GStop)) : Dev :=
  let d := cs.foldl (fun d g => if g.state = 0 then (match d.slotOf h g.key.toNat with | some k => d.dropCall h k | none => d) else d.upsert h (Call.ofG g)) d
  seqs.foldl (fun d q => d.setSeq h q.1.toNat (q.2.map (d.stopOf h))) d

/-- Decisions at a worker (R236, R237): calls and sequences of its own cars are replaced, car calls of its own that the manager has not
confirmed go in again, calls of other modules that its cars no longer serve go, and results of its own calls are posted, a rejection with its
code in `ERR` (R244). A decision for a call decided locally is discarded: one that the manager has not adopted yet has HELD = 0 (R239), and one for an
own call that has ended here. A pickup where the car stands counts in its dwell (R223). -/
def takeDecision (d : Dev) (h : HalfId) (ds : List GDec) (cs : List GCall) (seqs : List (BitVec 6 × List GStop)) : Dev :=
  let kept (g : GCall) : Bool := (d.shl h).settled.contains g.key.toNat || (!g.held && (match d.slotOf h g.key.toNat with
    | some k => (match d.call? h k with | some c => (c.held || c.ours) && (decide (c.state ≥ 2) || c.rejected) | none => false)
    | none => false))
  let ours := seqs.filter (fun q => d.isOwn h q.1.toNat)
  let d := cs.foldl (fun d g => if d.isOwn h g.car.toNat && !kept g then d.upsert h (Call.ofG g) else d) d
  let d := ours.foldl (fun d q =>
    let c := q.1.toNat
    let new_ := q.2.map (d.stopOf h)
    let have_ (k : Nat) : Bool := new_.any (fun s => s.drops.contains k)
    let old := (d.seqOf h c).flatMap Stop.here
    let d := ((new_.flatMap Stop.here).filter (fun k => !old.contains k)).foldl (fun d k => match d.call? h k with
      | some cl => d.boardHere h c (d.standFloor h (c % 4)) cl.count cl.access
      | none => d) d
    let mine := (d.shl h).calls.filter (fun e => e.2.kind == 4 && e.2.state == 3 && e.2.valid && e.2.car == c && !e.2.rejected && !have_ e.1)
    let d := d.setSeq h c new_
    let d := mine.foldl (fun d e => d.insertOn h c e.1 e.2) d
    let lost := (d.shl h).calls.filter (fun e => e.2.valid && e.2.car == c && !d.ownCall e.2 && decide (e.2.state < 4) &&
      !(d.seqOf h c).any (fun s => (s.picks ++ s.here ++ s.drops).contains e.1))
    lost.foldl (fun d e => d.dropCall h e.1) d) d
  let d := ds.foldl (fun d (g : GDec) =>
    if d.isOwn h g.call.car.toNat && (g.event == 1 || g.event == 3) && (g.call.kind == 2 || g.call.kind == 3) &&
        ds.any (fun e => e.event == 4 && e.call.key == g.call.key) then
      d.boardHere h g.call.car.toNat (d.standFloor h (g.call.car.toNat % 4)) g.call.count.toNat g.call.access
    else d) d
  ds.foldl (fun d (g : GDec) =>
    let cl := Call.ofG g.call
    if !d.ownCall cl || kept g.call then d
    else
      let res (k : Nat) (loose : Bool) : ShlRes := ⟨g.event.toNat, g.reason.toNat, k, cl.car, cl.deck, cl.tag, cl.etaP, cl.etaD, loose⟩
      let code (d : Dev) (k : Nat) : Dev := if g.event = 2 then d.err (ctl .shl h) g.reason.toNat k else d
      match d.slotOf h cl.key with
      | some k =>
        let old := (d.call? h k).getD cl
        let st := if g.event == 4 then 4 else if g.event == 5 then 5 else if g.event == 2 then old.state else cl.state
        (code (d.setCall h k { cl with state := st, rejected := g.event == 2 }) k).addRes h (res k false)
      | none => let r := d.fresh; (code r.2 0).addRes h (res (r.1.toNat % 4096) true)) d

/-- Shoal takes the group traffic of a snapshot (R381): at once in a manager; decisions and requests wait for the CYCLE boundary. A worker takes those
of the manager it follows (R387); the entries for a passive Shoal that is out of service wait in the lane (R241). -/
def glkTake (d : Dev) (h : HalfId) (m : GMsg) : Dev :=
  let act := d.isManager && d.glkActive && !d.shlPassive h && d.enabled (ctl .shl h)
  match m with
  | .records src rs => if d.isManager then d.takeRecords h src rs else d
  | .forward src fs => if act then fs.foldl (fun d f => d.takeForward h src f) d else d
  | .report src full cs => if act then d.takeReport h src full cs else d
  | .tables _ cs seqs =>
    if !(d.isManager && d.shlPassive h) then d
    else if d.enabled (ctl .shl h) then d.takeTables h cs seqs else d.modGlk (fun g => { g with inbox := g.inbox ++ [m] })
  | .decision src _ _ _ => if d.isWorker && d.follows src then d.modGlk (fun g => { g with arrived := g.arrived ++ [m] }) else d
  | .reportReq src => if d.isWorker && d.follows src then d.modGlk (fun g => { g with arrived := g.arrived ++ [m] }) else d

/-- The snapshot delivers what the cycle lane holds (R26, R381). -/
def glkSnapshot (d : Dev) (h : HalfId) : Dev :=
  let ms := d.glk.inbox
  let d := d.modGlk (fun g => { g with inbox := [], userSnap := (g.nodes.zip (List.range 18)).filterMap (fun n =>
    if n.1.user.isEmpty then none else some (n.2, n.1.user)) })
  ms.foldl (fun d m => d.glkTake h m) d

/-- Enter a scope (R237, R387): ISLAND evaluates every pending call at once, or, while Shoal is out of service, once it is enabled (R241); leaving ISLAND reports the assignments made in it, the HELD ones and
the car calls (R239); a Shoal that is passive no more takes the entries that wait (R217, R225). -/
def scopeGo (d : Dev) (h : HalfId) (mode : Nat) (passive : Bool) : Dev :=
  let was := d.shlMode h
  if was = mode ∧ d.shlPassive h = passive then d
  else
    let show_ (d : Dev) (q : HalfId) : Dev := (d.put (ctl .shl q) SHL.SCOPE_MODE mode).putb (ctl .shl q) SHL.SCOPE_PASSIVE passive
    let d := ((d.both show_).stat (shp .glk) 1)
    let d := if mode = 3 then (if d.enabled (ctl .shl h) then d.islandEval h else d)
    else if was = 3 then
      d.modShl h (fun x => { x with report := (x.calls.filter (fun e => e.2.valid && (e.2.state == 2 || e.2.state == 3) &&
        (e.2.ours || e.2.held || e.2.kind == 4))).map Prod.fst })
    else d
    if passive then d else d.takeRing h 4096

/-- After REPORT_REQ a worker forwards again what still waits for a decision (R388). -/
def forwardAgain (d : Dev) (h : HalfId) : Dev :=
  let again := ((d.shl h).calls.filter (fun e => e.2.state == 1 && !e.2.rejected && e.2.kind != 4)).map (fun e => (⟨1, e.2.toG, 0, 0⟩ : GFwd))
  d.modShl h (fun x => { x with fwd := x.fwd.filter (fun f => f.op != 1) ++ again })

/-- A worker in FORWARD scope sends what it forwards (R237). -/
def sendForward (d : Dev) (h : HalfId) : Dev :=
  let x := d.shl h
  if d.isWorker && d.shlMode h == 2 then
    (if x.fwd.isEmpty then d else (d.glkSend fFORWARD (32 * x.fwd.length) (some (.forward d.ringPos x.fwd)) []).modShl h (fun x => { x with fwd := [] }))
  else d.modShl h (fun x => { x with fwd := x.fwd.filter (fun _ => d.isWorker) })

/-- A worker answers REPORT_REQ with all its calls (R388), or, in FORWARD scope, sends what is to be reported (R237, R239). -/
def sendReport (d : Dev) (h : HalfId) (asked : Bool) : Dev :=
  let x := d.shl h
  if asked then
    let cs := (x.calls.filter (fun e => (e.2.state == 2 || e.2.state == 3) && e.2.valid)).map (fun e => e.2.toReport)
    (d.modShl h (fun x => { x with report := [] })).glkSend fREPORT (32 * cs.length) (some (.report d.ringPos true cs)) []
  else if d.isWorker && d.shlMode h == 2 && !x.report.isEmpty then
    let rep := x.report.filterMap (fun k => (d.call? h k).map Call.toReport)
    (if rep.isEmpty then d else d.glkSend fREPORT (32 * rep.length) (some (.report d.ringPos false rep)) []).modShl h (fun x => { x with report := [] })
  else d

/-- Own USER bytes of this cycle (R381). -/
def sendUser (d : Dev) (h : HalfId) (src : Option Nat) : Dev :=
  let n := d.get (shp .glk) GLK.USER_LEN
  match src with
  | some a => if n = 0 then d else d.glkSend fUSER n none ((memReads (d.sram h) a n).map BitVec.toNat)
  | none => d

/-- The records of the own cars, no sooner than `REC.MS` after the last (R223, Table 5). -/
def sendRecords (d : Dev) (h : HalfId) : Dev :=
  if (d.now - d.glk.lastRec) * 1000 < d.get (shp .glk) GLK.REC_MS * 65536 then d
  else
    let rs := (List.range 4).filterMap (fun n =>
      let c := 4 * d.ownSlot h + n
      (d.rec? h c).map (fun r => (⟨BitVec.ofNat 6 c, BitVec.ofInt 32 r.x, BitVec.ofInt 32 r.v, BitVec.ofInt 32 r.stop, r.up,
        r.floor.map (BitVec.ofNat 8), r.doors, BitVec.ofNat 32 r.head, BitVec.ofNat 8 r.load, BitVec.ofNat 2 r.avail⟩ : GRec)))
    (d.glkSend fRECORDS (32 * rs.length) (some (.records d.ringPos rs)) []).modGlk (fun g => { g with lastRec := d.now })

/-- A sequence as frames carry it. -/
def seqToG (d : Dev) (h : HalfId) (c : Nat) : BitVec 6 × List GStop := (BitVec.ofNat 6 c, (d.seqOf h c).map (d.stopToG h))

/-- One frame of a whole TABLES copy, of what is left to send: 44 call entries of 32 bytes as they now stand, or 5 sequences of up to 256 bytes; when
nothing is left, `ROLE.PEER_TBL` is set (R389). -/
def sendTable (d : Dev) (h : HalfId) : Dev :=
  match d.glk.tblSent with
  | none => d
  | some (ks, cs) =>
    let m : GMsg := if ks.isEmpty then .tables d.ringPos [] ((cs.take 5).map (d.seqToG h))
      else .tables d.ringPos ((ks.take 44).filterMap (fun k => (d.call? h k).map Call.toG)) []
    let left : List Nat × List Nat := if ks.isEmpty then ([], cs.drop 5) else (ks.drop 44, cs)
    let d := if ks.isEmpty && cs.isEmpty then d else d.glkSend fTABLES 1408 (some m) []
    if left.1.isEmpty && left.2.isEmpty then (d.modGlk (fun g => { g with tblSent := none })).put (shp .glk) GLK.ROLE_PEER_TBL 1
    else d.modGlk (fun g => { g with tblSent := some left })

/-- At most 4 frames of a whole copy in a cycle (R389). -/
def sendTables (d : Dev) (h : HalfId) : Dev := (((d.sendTable h).sendTable h).sendTable h).sendTable h

/-- GLK at the CYCLE boundary of the lease holder: the scope, what the snapshot brought, the car records, and the frames of this cycle, in the order of
R376. Decisions wait for a Shoal that is out of service (R241). `user` is where the cycle program keeps its USER bytes. -/
def glkBoundary (d : Dev) (h : HalfId) (user : Option Nat) : Dev :=
  if !d.glkOn && d.glk.scopeNext.isNone then d.formRecords h
  else
    let d := match d.glk.scopeNext with
      | some (m, q) => (d.modGlk (fun g => { g with scopeNext := none })).scopeGo h m q
      | none => d
    let arr := d.glk.arrived
    let works := d.enabled (ctl .shl h)
    let d := d.modGlk (fun g => { g with arrived := if works then [] else arr.filter (fun m => match m with | .decision .. => true | _ => false) })
    let d := if works then
        arr.foldl (fun d m => match m with | .decision _ ds cs sq => if d.shlMode h == 2 then d.takeDecision h ds cs sq else d | _ => d) d
      else d
    let d := if d.glk.askReports then (d.modGlk (fun g => { g with askReports := false })).glkSend fREPORT_REQ 0 (some (.reportReq d.ringPos)) [] else d
    let asked := arr.any (fun m => match m with | .reportReq _ => true | _ => false)
    let d := (((if asked then d.forwardAgain h else d).sendForward h).sendReport h asked).formRecords h
    let d := if d.isWorker then d.sendRecords h else d
    let d := if d.glkActive then d.sendTables h else d
    d.sendUser h user

/-- A publish of Shoal (R235) with its group traffic: the active manager sends the decisions and the sequences that changed to the
workers, and the table entries changed since the last publish to the passive manager (R236, R389). Where nothing is published, nothing is sent. -/
def shlPublishGrp (d : Dev) (h : HalfId) : Dev :=
  if !d.shlPublishes h then d
  else
  let d := d.shlPublish h
  let x := d.shl h
  let dec := x.dec
  let touched := x.touched
  let before := x.lastCalls
  let after := x.calls.map (fun e => e.2.toG)
  let clear (d : Dev) : Dev := d.both (fun d q => d.modShl q (fun x => { x with dec := [], touched := [], lastCalls := after }))
  if !(d.isManager && d.glkActive && d.active h && d.holds h) then clear d
  else
    let seqs := touched.map (d.seqToG h)
    let on_ := (touched.flatMap (fun c => (x.stops.getD c []).flatMap (fun s => s.picks ++ s.here ++ s.drops))).dedup
    let calls := on_.filterMap (fun k => (d.call? h k).map Call.toG)
    let gone := (before.filter (fun g => !after.any (fun f => f.key == g.key))).map (fun g => { g with state := 0 })
    let changed := (x.calls.filter (fun e => !before.contains e.2.toG || on_.contains e.1)).map (fun e => e.2.toG)
    let ds := dec.map (fun q => (⟨BitVec.ofNat 4 q.1, BitVec.ofNat 8 q.2.1, q.2.2.toG⟩ : GDec))
    let stops := (seqs.map (fun q => q.2.length)).sum
    let d := if ds.isEmpty && touched.isEmpty then d
      else d.glkSend fDECISION (32 * (ds.length + calls.length) + 8 * stops) (some (.decision d.ringPos ds calls seqs)) []
    let d := if gone.isEmpty && changed.isEmpty && touched.isEmpty then d
      else d.glkSend fTABLES (32 * (gone.length + changed.length) + 8 * stops) (some (.tables d.ringPos (gone ++ changed) seqs)) []
    clear d

/-- Transmit load of the last second, in percent of 10 Mbit/s (R390). -/
def glkSecond (d : Dev) : Dev :=
  let p := shp .glk
  let pct (k : Nat) : Nat := min 255 (d.glk.bits.getD k 0 * 100 / 10000000)
  ((d.put p GLK.LOAD_LOAD0 (pct 0)).put p GLK.LOAD_LOAD1 (pct 1)).modGlk (fun g => { g with bits := [0, 0] })

end Dev

/-! ### Meanings -/

def execHelloTick (s : State) : Host.Outcome State Fault Refusal := onDev (fun d => d.helloTick) s
def execManagerActivate (s : State) : Host.Outcome State Fault Refusal := onDev (fun d => (d.glkBegin).managerActivate) s

def execGlkHelloRx (port : Fin 2) (hd : GHdr) (cfg : BitVec 32) (dev : BitVec 64) (boots : BitVec 32) (w : BitVec 5) (heard : BitVec 18) (s : State) :
    Host.Outcome State Fault Refusal := onDev (fun d => d.helloRx port.val hd cfg.toNat dev.toNat boots.toNat w.toNat heard.toNat) s

/-- The active manager sends a BEACON: TS, SUB_NS and CORR_NS = 0 (R384). -/
def execGlkBeaconSend (sub : BitVec 14) (s : State) : Host.Outcome State Fault Refusal :=
  onDev (fun d => if d.isManager && d.glkActive then (d.glkBegin).glkSend fBEACON 16 none [d.now, sub.toNat, 0] else d) s

def execGlkBeaconRx (copies : List GCopy) (ts : BitVec 64) (sub : BitVec 14) (s : State) : Host.Outcome State Fault Refusal :=
  onDev (fun d => d.beaconRx copies ts.toNat sub.toNat) s

/-- A DELAY_REQ goes out at an instant (R383). -/
def execDelayReqSend (port : Fin 2) (t1 : BitVec 64) (s : State) : Host.Outcome State Fault Refusal :=
  onDev (fun d => if d.glkOn && d.linkUp port.val then
    ((d.glkBegin).modGlk (fun g => { g with req := lset g.req port.val (some t1.toNat) })).glkLocal port.val fDELAY_REQ [] else d) s

/-- The partner answers a DELAY_REQ with its receive and send instants (R383). -/
def execDelayReqRx (port : Fin 2) (hd : GHdr) (t2 t3 : BitVec 64) (s : State) : Host.Outcome State Fault Refusal :=
  onDev (fun d =>
    let r := (d.glkBegin).glkAccept port.val hd none 0
    if r.2 && hd.typ.toNat == fDELAY_REQ then r.1.glkLocal port.val fDELAY_RESP [t2.toNat, t3.toNat] else r.1) s

def execDelayRespRx (port : Fin 2) (hd : GHdr) (t2 t3 t4 : BitVec 64) (s : State) : Host.Outcome State Fault Refusal :=
  onDev (fun d =>
    let r := (d.glkBegin).glkAccept port.val hd none 16
    if r.2 && hd.typ.toNat == fDELAY_RESP then r.1.delayDone port.val t2.toNat t3.toNat t4.toNat else r.1) s

def execRecordsRx (port : Fin 2) (hd : GHdr) (rs : List GRec) (s : State) : Host.Outcome State Fault Refusal :=
  onDev (fun d => d.glkLane port.val hd (.records hd.src.toNat rs) (32 * rs.length)) s
def execForwardRx (port : Fin 2) (hd : GHdr) (fs : List GFwd) (s : State) : Host.Outcome State Fault Refusal :=
  onDev (fun d => d.glkLane port.val hd (.forward hd.src.toNat fs) (32 * fs.length)) s
def execDecisionRx (port : Fin 2) (hd : GHdr) (ds : List GDec) (calls : List GCall) (seqs : List (BitVec 6 × List GStop)) (s : State) :
    Host.Outcome State Fault Refusal :=
  onDev (fun d => d.glkLane port.val hd (.decision hd.src.toNat ds calls seqs) (32 * (ds.length + calls.length) + 8 * (seqs.map (fun q => q.2.length)).sum)) s
def execReportReqRx (port : Fin 2) (hd : GHdr) (s : State) : Host.Outcome State Fault Refusal :=
  onDev (fun d => d.glkLane port.val hd (.reportReq hd.src.toNat) 0) s
def execReportRx (port : Fin 2) (hd : GHdr) (full : Bool) (calls : List GCall) (s : State) : Host.Outcome State Fault Refusal :=
  onDev (fun d => d.glkLane port.val hd (.report hd.src.toNat full calls) (32 * calls.length)) s
def execTablesRx (port : Fin 2) (hd : GHdr) (calls : List GCall) (seqs : List (BitVec 6 × List GStop)) (s : State) : Host.Outcome State Fault Refusal :=
  onDev (fun d => d.glkLane port.val hd (.tables hd.src.toNat calls seqs) (32 * calls.length + 8 * (seqs.map (fun q => q.2.length)).sum)) s

/-- A USER frame: the lane keeps the latest of each source (R381). -/
def execUserRx (port : Fin 2) (hd : GHdr) (data : List (BitVec 8)) (s : State) : Host.Outcome State Fault Refusal :=
  onDev (fun d =>
    let r := (d.glkBegin).glkAccept port.val hd none data.length (data.map BitVec.toNat)
    if r.2 then r.1.modNode hd.src.toNat (fun n => { n with user := data.map BitVec.toNat }) else r.1) s

def execGlkLinkLoss (port : Fin 2) (s : State) : Host.Outcome State Fault Refusal := onDev (fun d => d.linkLoss port.val) s
def execGlkLinkUp (port : Fin 2) (low : Bool) (s : State) : Host.Outcome State Fault Refusal := onDev (fun d => d.linkGain port.val low) s

/-- No usable beacon for 50 ms (R385): the follower keeps f. -/
def execTsyncHoldover (s : State) : Host.Outcome State Fault Refusal :=
  onDev (fun d =>
    let st := d.get (shp .glk) GLK.TSYNC_STATE
    if d.follower && (st == 1 || st == 2) then (d.tsyncGo 3).modGlk (fun g => { g with rate := g.freq }) else d) s

/-- A worker has heard no frame from an active manager for 8 HELLO periods (R387). -/
def execGlkNoMgr (s : State) : Host.Outcome State Fault Refusal :=
  onDev (fun d => if d.isWorker && d.shlMode d.holder != 3 then
    ((d.modGlk (fun g => { g with nodes := g.nodes.map (fun n => { n with active := false }) })).scopeAsk 3 false).err (shp .glk) cGLK_NO_MGR d.ringPos else d) s

/-- A staged `CTRL.EN` = 0 applies at the page's boundary (R380). -/
def execGlkLeave (s : State) : Host.Outcome State Fault Refusal :=
  onDev (fun d =>
    let p := shp .glk
    match d.staged? p none HDR.CTRL_EN 0 0 with
    | some e =>
      if e.val = 0 then
        let d := d.glkBegin
        (if d.get p HDR.CTRL_BSEL = 5 then d.applyGlk 5 (d.now / 65536 % 65536) else d.applyGlk 1 (d.get (ctl .cyx d.holder) CYX.CNT_CYCLE % 65536))
      else d
    | none => d) s

def execShlPublish (h : HalfId) (s : State) : Host.Outcome State Fault Refusal := onDev (fun d => (d.glkBegin).shlPublishGrp h) s

end Sys2Proof.Machine
end

