-- ==== Sys2Proof/Machine/Cyx.lean ====
section
/-! DEFINITION. The cycle executive CYX, its cells TMC and its forces FRC (spec/11_cycle_executive.md, R312 to R341). -/
namespace Sys2Proof.Machine

open Sys2Proof

/-! ### Codes (R341, Table 8) -/
def cCYC_WDOG : Nat := 0xC0
def cOLC_LAYOUT : Nat := 0xC1
def cOLC_STANDBY : Nat := 0xC2
def cOLC_STATE : Nat := 0xC3
def cOLC_SPACE : Nat := 0xC4
def cOLC_LOST : Nat := 0xC5
def cFRC_VAR : Nat := 0xC6
def cFRC_DROPPED : Nat := 0xC7

/-! ### Words of a page, and what the mirror link copies -/

/-- Keys of a page's words. -/
def pageSpan : Nat := 4096 * 32 * 65536

/-- The words listed for a page, by key relative to the page. -/
def pageWords (r : List (Nat × Word)) (p : Nat) : List (Nat × Word) :=
  (r.filter (fun e => e.1 / pageSpan == p)).map (fun e => (e.1 % pageSpan, e.2))

/-- The words of every other page. -/
def otherWords (r : List (Nat × Word)) (p : Nat) : List (Nat × Word) := r.filter (fun e => e.1 / pageSpan != p)

/-- Put words on a page, keys in rising order. -/
def putWords (r : List (Nat × Word)) (p : Nat) (ws : List (Nat × Word)) : List (Nat × Word) :=
  ws.foldl (fun r e => rfInsert (p * pageSpan + e.1) e.2 r) r

/-- Whether a relative key belongs to one of the fields given. -/
def keyIn (fs : List Fld) (k : Nat) : Bool :=
  let lo := k / 65536 % 32
  let off := k / 65536 / 32
  fs.any (fun f => f.lo == lo && (f.at? off).isSome)

/-- The state fields of a block: what its page shows and no master writes. -/
def Blk.stateFields (b : Blk) : List Fld := b.fields.filter (fun f => decide (f.acc = .ro))

/-- An image of bytes with a region cleared: an address that is not listed reads 0. -/
def memClear (m : List Host.Cell) (a n : Nat) : List Host.Cell := m.filter (fun c => !(decide (a ≤ c.1 ∧ c.1 < a + n)))

def memPutBytes (m : List Host.Cell) (a : Nat) (bs : List Nat) : List Host.Cell := memWrites m a (bs.map (BitVec.ofNat 8))
def memBytes (m : List Host.Cell) (a n : Nat) : List Nat := (memReads m a n).map BitVec.toNat

/-! ### Cells (R322, R323) -/

def Cell.init (c : CellDef) : Cell := ⟨c, 0, false, false, 0⟩

/-- An edge cell: output and whether quiet first scan suppressed an edge. -/
def Cell.edgeEval (c : Cell) (first : Bool) (in_ : Bool) : Cell × Bool :=
  let q := (c.def_.kind != 1 && in_ && !c.prev) || (c.def_.kind != 0 && !in_ && c.prev)
  if first && c.def_.qfs then ({ c with q := false, prev := in_ }, q) else ({ c with q := q, prev := in_ }, false)

/-- A timer cell (R322): elapsed time `e` in 64 bits, preset `pt` in ms, `dt` the time since the previous snapshot in µs. -/
def Cell.timerEval (c : Cell) (dt pt : Nat) (in_ : Bool) : Cell :=
  let p := pt * 1000
  let add := (c.e + dt) % 2 ^ 64
  let r : Nat × Bool :=
    match c.def_.kind with
    | 0 => if !in_ then (0, false) else let e := if c.prev then add else c.e; (e, decide (e ≥ p))
    | 1 => if in_ then (0, true) else if c.q then (add, !decide (add ≥ p)) else (c.e, c.q)
    | 2 => if c.q then (add, !decide (add ≥ p)) else if in_ && !c.prev then (0, p != 0) else (c.e, c.q)
    | _ => (c.e, c.q)
  { c with e := r.1, q := r.2, prev := in_, pt := pt }

/-- `ET` of a timer, ms. -/
def Cell.et (c : Cell) : Nat := min (c.e / 1000) 0xFFFFFFFF

/-- Evaluate one cell on the variables: it reads IN (and PT), writes Q (and ET). -/
def Cell.run (c : Cell) (first : Bool) (dt : Nat) (m : List Host.Cell) : Cell × Bool × List Host.Cell :=
  let in_ := memRead m c.def_.inA != 0
  if c.def_.edge then
    let r := c.edgeEval first in_
    (r.1, r.2, memWrite m c.def_.qA (if r.1.q then 1 else 0))
  else
    let c' := c.timerEval dt (memWord m c.def_.ptA) in_
    let m := memWrite m c.def_.qA (if c'.q then 1 else 0)
    (c', false, if c.def_.etA = 0 then m else memPutWord m c.def_.etA c'.et)

/-- Evaluate cells in turn: the cells, the edges suppressed, the variables. -/
def runCells (first : Bool) (dt : Nat) : List Cell → List Host.Cell → List Cell × Nat × List Host.Cell
  | [], m => ([], 0, m)
  | c :: cs, m =>
    let r := c.run first dt m
    let rest := runCells first dt cs r.2.2
    (r.1 :: rest.1, r.2.1.toNat + rest.2.1, rest.2.2)

namespace Dev

def cyx (d : Dev) (h : HalfId) : Cyx := (d.half h).cyx
def modCyx (d : Dev) (h : HalfId) (f : Cyx → Cyx) : Dev := d.modHalf h (fun x => { x with cyx := f x.cyx })
def setSram (d : Dev) (h : HalfId) (m : List Host.Cell) : Dev := d.modHalf h (fun x => { x with sram := m })

/-- The program a half runs, if an image is loaded. -/
def prog? (d : Dev) (h : HalfId) : Option Program := (d.cyx h).img.map (fun i => i.prog)
def prog (d : Dev) (h : HalfId) : Program := (d.prog? h).getD default

/-- Copy the state fields of a block's page from one half to the other (R61). -/
def copyState (d : Dev) (b : Blk) (src dst : Nat) : Dev :=
  let fs := b.stateFields
  let new_ := (pageWords d.regs src).filter (fun e => keyIn fs e.1)
  let keep := (pageWords d.regs dst).filter (fun e => !keyIn fs e.1)
  { d with regs := putWords (putWords (otherWords d.regs dst) dst keep) dst new_ }

/-! ### Forces (R325 to R327) -/

/-- Enabled entries of the force table. -/
def forces (d : Dev) (h : HalfId) : List Nat := (List.range 512).filter (fun i => d.on (ctl .frc h) FRC.CFG_EN 0 i)

/-- Write one force to the variables (R325). -/
def forceOne (d : Dev) (h : HalfId) (i : Nat) (m : List Host.Cell) : List Host.Cell :=
  let p := ctl .frc h
  let a := d.get p FRC.ADDR_ADDR 0 i
  let v := d.get64 p FRC.VAL_LO FRC.VAL_HI 0 i
  match d.get p FRC.CFG_WIDTH 0 i with
  | 0 => memWrite m a (BitVec.ofNat 8 (setBitN (memRead m a).toNat (d.get p FRC.CFG_BIT 0 i) (v % 2 == 1)))
  | 1 => memPutBytes m a (leBytes 1 v)
  | 2 => memPutBytes m a (leBytes 2 v)
  | 3 => memPutBytes m a (leBytes 4 v)
  | 4 => memPutBytes m a (leBytes 8 v)
  | _ => m

/-- Write every enabled force (R315, steps 4 and 7). -/
def forceAll (d : Dev) (h : HalfId) : Dev :=
  (d.setSram h ((d.forces h).foldl (fun m i => d.forceOne h i m) (d.half h).sram)).heal h
    ((d.forces h).map (fun i => (d.get (ctl .frc h) FRC.ADDR_ADDR 0 i, match d.get (ctl .frc h) FRC.CFG_WIDTH 0 i with | 0 => 0 | w => 2 ^ (w - 1))))

/-- Whether a variable holds a force of a width at an address, under Table 3 of R326. -/
def frcFits (v : Var) (id addr width : Nat) : Bool :=
  v.id == id && v.addr == addr &&
    (match width with
     | 0 => true
     | w => decide (8 * 2 ^ (w - 1) ≤ v.bits))

/-- Why an enabled entry with these values is refused, by Table 3 of R326. -/
def frcWhy (pr : Program) (id addr width bit : Nat) : Option Nat :=
  match pr.vars.find? (fun v => frcFits v id addr width && (width != 0 || decide (bit < v.bits))) with
  | none => some cFRC_VAR
  | some v =>
    if v.safe then some cSAFETY
    else if 1 < width ∧ addr % 2 ^ (width - 1) ≠ 0 then some cRANGE
    else if width > 4 then some cRANGE
    else none

/-- The entries of the force table that have a staged value. -/
def frcTouched (d : Dev) (h : HalfId) : List Nat := ((d.shadow.filter (fun e => decide (e.page = ctl .frc h))).map (fun e => e.t)).eraseDups

/-- The rules of FRC (R326, Table 3) for the entries that have a staged value: an entry that fails one applies in no part. -/
def frcRules (d : Dev) (h : HalfId) (v : View) : List RuleFail :=
  (d.frcTouched h).filterMap (fun i =>
    if v FRC.CFG_EN 0 i = 0 then none
    else (frcWhy (d.prog h) (v FRC.VAR_ID_ID 0 i) (v FRC.ADDR_ADDR 0 i) (v FRC.CFG_WIDTH 0 i) (v FRC.CFG_BIT 0 i)).map (fun w =>
      ⟨[(FRC.VAR_ID_ID, 0, i), (FRC.ADDR_ADDR, 0, i), (FRC.CFG_WIDTH, 0, i), (FRC.CFG_BIT, 0, i), (FRC.CFG_EN, 0, i),
        (FRC.VAL_LO, 0, i), (FRC.VAL_HI, 0, i)], w⟩))

/-- Whether an entry has been held back at an event, and is still waiting to heal (R59). -/
def frcHeld (d : Dev) (h : HalfId) (i : Nat) : Bool := d.shadow.any (fun e => decide (e.page = ctl .frc h ∧ e.t = i) && e.recorded)

/-- FRC_VAR: an entry that names no matching variable is reported once for what is staged in it (R341). -/
def frcNamed (d was : Dev) (h : HalfId) (i : Nat) : Dev :=
  let p := ctl .frc h
  let v (f : Fld) : Nat := d.view p none f 0 i
  if d.frcHeld h i && !was.frcHeld h i && v FRC.CFG_EN != 0 &&
      frcWhy (d.prog h) (v FRC.VAR_ID_ID) (v FRC.ADDR_ADDR) (v FRC.CFG_WIDTH) (v FRC.CFG_BIT) == some cFRC_VAR then d.err p cFRC_VAR i
  else d

/-- One event of the FRC page; an entry put in place again is no longer shown as dropped. -/
def applyFrc (d : Dev) (h : HalfId) (seq : Nat) : Dev :=
  let p := ctl .frc h
  let touched := d.frcTouched h
  let was := d
  let d := d.applyPage p none (d.frcRules h) 1 seq
  let d := touched.foldl (fun d i => d.frcNamed was h i) d
  if touched.isEmpty then d
  else (touched.foldl (fun d i => if d.on p FRC.CFG_EN 0 i then d.put p FRC.ESTAT_DROPPED 0 0 i else d) d).put p FRC.USED_N (d.forces h).length

/-- `CLR_ALL` stages EN = 0 in every entry (R340). -/
def frcClrAll (d : Dev) (h : HalfId) (w : Who) : Dev :=
  (List.range 512).foldl (fun d i => d.stage w (ctl .frc h) none FRC.CFG_EN 0 i 0) d

/-! ### Snapshot (R315, R317, R329, R330) -/

/-- The FIO input image (R428, Table 1). -/
def fioImage (d : Dev) : List Nat :=
  let di := shp .din
  let o := shp .dout
  let flt (n : Nat) : Bool := [DOUT.FLT_OL_BITS, DOUT.FLT_OW_BITS, DOUT.FLT_OT_BITS, DOUT.FLT_RB_LOW, DOUT.FLT_RB_HIGH].any (fun f => bitN (d.get o f) n == 1) ||
    d.on o (if n < 8 then DOUT.STATE_VF0_LOW else DOUT.STATE_VF1_LOW)
  [d.get di DIN.LEVEL_BITS, d.get o DOUT.RB_BITS + 65536 * bitsOf 16 flt] ++
  (List.range 8).map (fun c =>
    let p := shp .ain
    d.get p AIN.CH_UA_UA c + 65536 * (d.get p AIN.CH_ST_CLASS c + 8 * d.get p AIN.CH_ST_SHORT c + 16 * d.get p AIN.CH_ST_OPEN c +
      32 * d.get p AIN.CH_ST_BELOW c + 64 * d.get p AIN.CH_ST_ABOVE c)) ++
  (List.range 4).map (fun c =>
    let p := shp .aout
    d.get p AOUT.CH_MEAS_UA c + 65536 * bitsOf 9 (fun k =>
      d.on p (([AOUT.CH_ST_COMPLIANCE, AOUT.CH_ST_SAT, AOUT.CH_ST_RSV_LOW, AOUT.CH_ST_STALE, AOUT.CH_ST_LINK, AOUT.CH_ST_SAFE,
        AOUT.CH_ST_ALARM, AOUT.CH_ST_ALM_HIGH, AOUT.CH_ST_CLIP] : List Fld).getD k AOUT.CH_ST_CLIP) c))

/-- The input banks of the cycle lane swap: both halves read what COM and FIO hold now, and FRESH starts anew (R26, R315, R404). -/
def laneSwap (d : Dev) : Dev :=
  let l := d.lane
  { d with lane := { l with snapRx := l.rx, snapImg := l.img,
                            snapDown := ((List.range 9).map (fun i => d.get (shp .rsm) RSM.DOWN_BITS i * 2 ^ (32 * i))).sum,
                            snapFio := d.fioImage, rx := l.rx.map (fun x => { x with fresh := false }) } }

/-- Bytes of the station area of the lane (R421): station `s` lies at offset 64 × s. -/
def areaBytes (d : Dev) (ofs n : Nat) : List Nat :=
  (List.range n).map (fun i =>
    let img := ((d.lane.snapImg.find? (fun e => e.1 == (ofs + i) / 64)).map (fun e => e.2)).getD []
    img.getD ((ofs + i) % 64) 0)

/-- Input descriptors copy the snapshot into the variables; DOWN stations take substitutes, 0 under the SAFE mask (R315, R329). -/
def copyInputs (d : Dev) (h : HalfId) : Dev :=
  let pr := d.prog h
  let l := d.lane
  let m := (d.half h).sram
  let m := pr.rx.foldl (fun m r =>
    match l.snapRx.find? (fun x => x.ctrl = r.ctrl ∧ x.ide = r.ide ∧ x.id = r.id) with
    | some x => memPutBytes m r.dst (takeZ r.len x.data)
    | none => m) m
  let m := pr.fioIn.foldl (fun m e => memPutBytes m e.2 (leBytes 4 (l.snapFio.getD e.1 0))) m
  let m := pr.userIn.foldl (fun m e => match d.glk.userSnap.find? (fun x => x.1 == e.1) with
    | some x => memPutBytes m e.2.1 (takeZ e.2.2 x.2)
    | none => m) m
  let m := pr.stns.foldl (fun m s =>
    let n := s.subst.length
    memPutBytes m s.dst (if bitN l.snapDown s.num.val = 1 then (List.range n).map (fun i => (s.subst.getD i 0).land (255 - s.safe.getD i 0)) else d.areaBytes s.lane n)) m
  (d.setSram h m).heal h (pr.rx.map (fun r => (r.dst, r.len)) ++ pr.fioIn.map (fun e => (e.2, 4)) ++ pr.userIn.map (fun e => (e.2.1, e.2.2)) ++
    pr.stns.map (fun s => (s.dst, s.subst.length)))

/-- Show the stations that are down, and gather what changed since the last error task (R330). -/
def noteStations (d : Dev) (h : HalfId) : Dev :=
  let p := ctl .cyx h
  let step (d : Dev) (i : Nat) : Dev :=
    let was := d.get p CYX.STN_DOWN_BITS i
    let now_ := field d.lane.snapDown (32 * i) 32
    if was = now_ then d
    else
      let d := (d.put p CYX.STN_DOWN_BITS now_ i).orBits p CYX.STN_EVT_BITS (was.xor now_) i
      let c := (if (now_.land (was.xor now_)) ≠ 0 then 1 else 0) + (if (was.land (was.xor now_)) ≠ 0 then 2 else 0)
      (d.orBits p CYX.ERRT_CAUSE c).modCyx h (fun x => { x with due := true })
  (List.range 9).foldl step d

/-- Steps 2 to 6 of R315 in one half: inputs, substitutes, forces, cells, and the start of the program phase. -/
def snapshotHalf (d : Dev) (h : HalfId) (dt ns : Nat) : Dev :=
  let p := ctl .cyx h
  let d := (d.copyInputs h).noteStations h
  let d := d.forceAll h
  let first := d.on p CYX.STATE_FIRST
  let cs := (d.cyx h).cells
  let e := runCells first dt (cs.filter (fun c => c.def_.edge)) (d.half h).sram
  let t := runCells first dt (cs.filter (fun c => !c.def_.edge)) e.2.2
  let d := ((d.setSram h t.2.2).heal h (cs.map (fun c => (c.def_.etA, if c.def_.edge then 0 else 4)))).modCyx h (fun x => { x with cells := e.1 ++ t.1 })
  let d := d.put (ctl .tmc h) TMC.QFS_HIT_COUNT (satU 16 (d.get (ctl .tmc h) TMC.QFS_HIT_COUNT + e.2.1))
  let d := d.put p CYX.PHASE_SNAP_NS (satU 16 ns)
  let err := (d.cyx h).due && d.get p CYX.CORE_MASK_CORES % 2 == 1 && (d.prog h).errEntry != 0
  let d := if (d.cyx h).due && (d.prog h).errEntry = 0 then d.put p CYX.ERRT_SKIPPED 1 else d
  d.modCyx h (fun x => { x with phase := if err then 1 else 2, done := 0, due := false })

/-- A new cycle of the active half: the counter advances, the input banks swap, and the marker goes to the standby (R315, R44). -/
def snapshot (d : Dev) (h : HalfId) (dt ns : Nat) : Dev :=
  let p := ctl .cyx h
  let x := d.cyx h
  if !d.active h || d.get p CYX.STATE_CODE ≠ 1 || x.phase ≠ 0 || x.heldNext || x.switchNow then d
  else
    let d := ((d.wrapUp p CYX.CNT_CYCLE).laneSwap).glkSnapshot h
    let n := d.get p CYX.CNT_CYCLE
    let d := if d.mirrors h.other then d.modCyx h.other (fun y => { y with marker := n, waiting := y.waiting + 1 }) else d
    d.snapshotHalf h dt ns

/-- A core writes DONE (R314, R330): the error task ends with C0's bit; a bit outside the mask or written already is ignored. -/
def cyxDone (d : Dev) (h : HalfId) (c : Nat) : Dev :=
  let p := ctl .cyx h
  let x := d.cyx h
  if x.phase = 1 then
    if c = 0 then
      let d := (d.put p CYX.ERRT_CAUSE 0).stat p 1
      ((List.range 9).foldl (fun d i => d.put p CYX.STN_EVT_BITS 0 i) d).modCyx h (fun x => { x with phase := 2 })
    else d
  else if x.phase = 2 && bitN (d.get p CYX.CORE_MASK_CORES) c = 1 then d.modCyx h (fun x => { x with done := setBitN x.done c true })
  else d

/-- Whether every core of the mask has written DONE. -/
def allDone (d : Dev) (h : HalfId) : Bool :=
  (d.cyx h).phase == 2 && (List.range 4).all (fun c => bitN (d.get (ctl .cyx h) CYX.CORE_MASK_CORES) c == 0 || bitN (d.cyx h).done c == 1)

/-! ### The CYCLE boundary (R315 step 8, R320, R50, R60) -/

/-- The boundary a page uses: its default, or the one `CTRL.BSEL` selects (R50). -/
def bndOf (d : Dev) (p : Nat) : Nat :=
  match pageBlk p with
  | some (b, _) => let c := d.get p HDR.CTRL_BSEL; if c = 0 then b.bnd.code else c
  | none => 0

/-- Rules of CYX: with an error task in the image, `CORE_MASK` needs bit 0, else PAIR (R330). -/
def cyxRules (d : Dev) (h : HalfId) (v : View) : List RuleFail :=
  if (d.prog h).errEntry ≠ 0 ∧ v CYX.CORE_MASK_CORES 0 0 % 2 = 0 then [⟨[(CYX.CORE_MASK_CORES, 0, 0)], cPAIR⟩] else []

/-- The CYCLE event of the CTL pages of a half. -/
def cycleCtl (d : Dev) (h : HalfId) (seq : Nat) : Dev :=
  let d := d.applyPage (ctl .cyx h) none (d.cyxRules h) 1 seq
  let d := d.applyPage (ctl .tmc h) none (fun _ => []) 1 seq
  let d := d.applyFrc h seq
  if d.bndOf (ctl .shl h) = 1 then d.applyShl h 1 seq else d

/-- The CYCLE event of the FIO and COM pages, from the lease holder's publish, with GLK's traffic of the cycle. -/
def cycleShared (d : Dev) (h : HalfId) (seq : Nat) : Dev :=
  let d := d.applyRsm h 1 seq
  let d := d.applyPage (shp .wir) none (fun _ => []) 1 seq
  let d := if d.bndOf (shp .din) = 1 then d.applyDin h 1 seq else d
  let d := if d.bndOf (shp .ain) = 1 then d.applyAin h 1 seq else d
  let d := (d.applyDout h 1 seq).applyAout h 1 seq
  let d := if d.bndOf (shp .glk) = 1 then d.applyGlk 1 seq else d
  let run := d.get (ctl .cyx h) CYX.STATE_CODE == 1
  d.glkBoundary h (if run then (d.prog? h).map (fun q => q.userOut) else none)

/-- The words of the output image (R428, Table 2). -/
def outImage (d : Dev) (h : HalfId) : List Nat := (d.prog h).fioOut.map (fun a => memWord (d.half h).sram a)

/-- The data of the transmit variables (R405). -/
def txData (d : Dev) (h : HalfId) : List (TxDef × List Nat) := (d.prog h).tx.map (fun t => (t, memBytes (d.half h).sram t.src t.len))

/-- CRC-32 of the published output table and transmit variables, carried in the end marker (R354): the polynomial is that of R416. -/
def pubCrc (d : Dev) (h : HalfId) : Nat := crc32c ((d.outImage h).flatMap (leBytes 4) ++ (d.txData h).flatMap (fun e => e.2))

/-- The cycle state that travels to the standby after a publish (R42, R331). -/
def cycState (d : Dev) (h : HalfId) : CycState :=
  let pr := d.prog h
  ⟨d.get (ctl .cyx h) CYX.CNT_CYCLE, memBytes (d.half h).sram pr.ret.1 pr.ret.2, (d.cyx h).cells, pageWords d.regs (ctl .frc h),
    d.get (ctl .cyx h) CYX.IMG_BANK, d.pubCrc h, pr.ret, pr.shadow, 0⟩

/-- Fill a region of a half's SRAM: the bytes given, then zeros. -/
def fillSram (d : Dev) (h : HalfId) (a n : Nat) (bs : List Nat) : Dev :=
  (d.setSram h (memPutBytes (memClear (d.half h).sram a n) a (bs.take n))).heal h [(a, n)]

/-- The retained lines of the oldest cycle state on its way reach the receive buffer, which follows the shadow (R313, R331). -/
def rxLand (d : Dev) (h : HalfId) : Dev :=
  match (d.cyx h).rxq with
  | s :: _ => d.fillSram h (s.shadowAt + s.area.2) s.area.2 s.ret
  | [] => d

/-- Class 2 bytes that half `h` still has to send (R353). -/
def showBacklog (d : Dev) (h : HalfId) : Dev :=
  d.put (ctl .mir h) MIR.BACKLOG_BYTES (satU 24 (((d.cyx h.other).rxq.map (fun s => s.bytes)).sum))

/-- A cycle state joins those on their way to the standby; nothing is discarded (R353). The bytes that travel rest on which lines the program
made dirty and on layouts the spec does not give: a free value (notes/assumptions/22.md). -/
def sendState (d : Dev) (h : HalfId) (st : CycState) : Dev :=
  if d.mirrors h.other then
    let r := d.fresh
    let n := r.1.toNat % 2 ^ 24
    let first := (d.cyx h.other).rxq.isEmpty
    let d := r.2.modCyx h.other (fun x => { x with rxq := x.rxq ++ [{ st with bytes := n }] })
    let d := if first then d.rxLand h.other else d
    (d.put (ctl .mir h) MIR.CYC_BYTES_N n).showBacklog h
  else d

/-- What the end of a publish leaves: the cycle's times, the end of the first scan, and the cycle state in the standby's receive buffer. -/
def endCycle (d : Dev) (h : HalfId) (us ns : Nat) : Dev :=
  let p := ctl .cyx h
  let d := (d.put p CYX.CYC_LAST_US (satU 24 us)).put p CYX.PHASE_PUB_NS (satU 16 ns)
  let d := if d.get p CYX.CYC_MAX_US < us then d.put p CYX.CYC_MAX_US (satU 24 us) else d
  (d.put p CYX.STATE_FIRST 0).modCyx h (fun x => { x with phase := 0 })

/-! ### Starts and states (R319 to R321) -/

/-- Enter STOPPED or HALTED; in the holder the field outputs go to their safe state (R319, R430 cause 3). -/
def cyxHalt (d : Dev) (h : HalfId) (code : Nat) : Dev :=
  let d := (d.put (ctl .cyx h) CYX.STATE_CODE code).modCyx h (fun x => { x with phase := 0, stopReq := false, restart := none })
  if d.holds h then d.fioSafe 3 else d

/-- Write the init table: every variable after a COLD start, those that are not retained after a WARM one (R321). -/
def initVars (pr : Program) (keep : Var → Bool) (m : List Host.Cell) : List Host.Cell :=
  pr.init.foldl (fun m e =>
    match pr.vars.find? (fun v => v.id == e.1) with
    | some v => if keep v then m else memPutBytes m v.addr e.2
    | none => m) m

/-- COM keeps the variables that the lease holder's image names, up to 512 of each controller (R404; notes/assumptions/20.md); one that persists keeps
its data. -/
def laneTable (d : Dev) (h : HalfId) : Dev :=
  let pick (c : Nat) : List RxDef := ((d.prog h).rx.filter (fun r => r.ctrl == c)).take 512
  let rx := ((List.range 4).flatMap pick).map (fun r =>
    (d.lane.rx.find? (fun x => x.ctrl = r.ctrl ∧ x.ide = r.ide ∧ x.id = r.id)).getD ⟨r.ctrl, r.ide, r.id, [], false⟩)
  if d.holds h then { d with lane := { d.lane with rx := rx } } else d

/-- Show the image a half runs. -/
def showImage (d : Dev) (h : HalfId) : Dev :=
  let p := ctl .cyx h
  let pr := d.prog h
  let t := ctl .tmc h
  let d := ((d.laneTable h).put p CYX.IMG_ID (((d.cyx h).img.map (fun i => i.id)).getD 0)).put p CYX.RET_BASE pr.ret.1
  let d := (d.put p CYX.RET_SIZE pr.ret.2).put p CYX.SHADOW_BASE pr.shadow
  (d.put t TMC.USED_TIMERS (pr.cells.filter (fun c => !c.edge)).length).put t TMC.USED_EDGES (pr.cells.filter (fun c => c.edge)).length

/-- Start the program (R321): COLD, or WARM, which is carried out as COLD when the content of SRAM is not valid. -/
def startHalf (d : Dev) (h : HalfId) (cold : Bool) : Dev :=
  let p := ctl .cyx h
  match d.prog? h with
  | none => d
  | some pr =>
    let cold := cold || !(d.cyx h).valid
    let m := (d.half h).sram
    let m := if cold then memClear (memClear m pr.data.1 pr.data.2) pr.ret.1 pr.ret.2 else m
    let d := (d.setSram h (initVars pr (fun v => !cold && v.retained) m)).heal h (if cold then [pr.data, pr.ret] else [])
    let d := if cold then d.modCyx h (fun x => { x with cells := pr.cells.map Cell.init }) else d
    let d := ((d.put p CYX.STATE_CODE 1).putb p CYX.STATE_COLD cold).put p CYX.STATE_FIRST 1
    ((d.showImage h).modCyx h (fun x => { x with valid := true, restart := none, stopReq := false, phase := 0 })).stat p 4

/-- Whether a cycle is in progress: it has not published, or the switch of its publish is still to come (R315, Table 1). -/
def inCycle (d : Dev) (h : HalfId) : Bool := (d.cyx h).phase != 0 || (d.cyx h).switchNow

/-- WARM or COLD (R321): from STOPPED or HALTED at once, while RUNNING after the publish of the cycle in progress. The standby follows. -/
def cyxStart (d : Dev) (h : HalfId) (cold : Bool) : Dev :=
  if !d.active h then d
  else if d.get (ctl .cyx h) CYX.STATE_CODE = 1 && d.inCycle h then d.modCyx h (fun x => { x with restart := some cold, stopReq := false })
  else
    let d := d.startHalf h cold
    if d.mirrors h.other then d.startHalf h.other cold else d

/-- STOP (R321): at the end of the cycle in progress; it changes nothing in STOPPED or HALTED. -/
def cyxStop (d : Dev) (h : HalfId) : Dev :=
  if !d.active h || d.get (ctl .cyx h) CYX.STATE_CODE ≠ 1 then d
  else if d.inCycle h then d.modCyx h (fun x => { x with stopReq := true, restart := none })
  else
    let d := d.cyxHalt h 0
    if d.mirrors h.other then d.cyxHalt h.other 0 else d

/-- What waits for the end of a cycle: a STOP or a restart (R321). -/
def afterPublish (d : Dev) (h : HalfId) : Dev :=
  let x := d.cyx h
  if x.stopReq then
    let d := d.cyxHalt h 0
    if d.mirrors h.other then d.cyxHalt h.other 0 else d
  else match x.restart with
    | some c =>
      let d := d.startHalf h c
      if d.mirrors h.other then d.startHalf h.other c else d
    | none => d

/-! ### On-line change (R334 to R337) -/

def olc (d : Dev) (h : HalfId) : Nat := d.get (ctl .cyx h) CYX.OLC_STAT_STATE
def setOlc (d : Dev) (h : HalfId) (st reason : Nat) : Dev := (d.put (ctl .cyx h) CYX.OLC_STAT_STATE st).put (ctl .cyx h) CYX.OLC_STAT_REASON reason

/-- Put something in the idle bank of a half, and of the standby that follows it (R334). -/
def setIdle (d : Dev) (h : HalfId) (i : Option Image) : Dev :=
  let d := d.modCyx h (fun x => { x with idle := i })
  if d.mirrors h.other then d.modCyx h.other (fun x => { x with idle := i }) else d

/-- Show a state of the change in both halves. -/
def showOlc (d : Dev) (h : HalfId) (st reason : Nat) : Dev :=
  let d := d.setOlc h st reason
  if d.mirrors h.other then d.setOlc h.other st reason else d

/-- Base of a code bank (R313). -/
def bankAt (pr : Program) (b : Nat) : Nat := if b = 0 then pr.banks.1 else pr.banks.2

/-- Write the code of an image to a bank of a half's SRAM, in the layout of the running image (R313, R334). -/
def loadBank (d : Dev) (h : HalfId) (lay : Program) (b : Nat) (i : Image) : Dev :=
  d.fillSram h (bankAt lay b) lay.bank i.prog.code

/-- A change that fails: FAILED with its reason, and `STAT.BLOCK` bit 3; the idle bank is released. `detail` is the count or entry concerned (R341). -/
def olcFail (d : Dev) (h : HalfId) (why : Nat) (detail : Nat := 0) : Dev :=
  ((d.showOlc h 6 why).setIdle h none).stat (ctl .cyx h) 3 |>.err (ctl .cyx h) why detail

/-- Index of the first cell whose identifier an earlier cell has (R324). -/
def dupCell (cs : List CellDef) : Option Nat := (List.range cs.length).find? (fun i => ((cs.take i).map (fun c => c.id)).contains ((cs.map (fun c => c.id)).getD i 0))

/-- Why no half may run an image, under a `CORE_MASK`, with the count or entry concerned (R313, R324, R330, R405; notes/assumptions/32.md). -/
def imageBad (mask : Nat) (pr : Program) : Option (Nat × Nat) :=
  let e := (pr.cells.filter (fun c => c.edge)).length
  let t := (pr.cells.filter (fun c => !c.edge)).length
  if e > 1024 then some (cOLC_SPACE, satU 16 e)
  else if t > 1024 then some (cOLC_SPACE, satU 16 t)
  else if pr.ret.2 > 0x80000 then some (cOLC_SPACE, 0xFFFF)
  else match dupCell pr.cells with
    | some i => some (cOLC_SPACE, i)
    | none =>
      if pr.errEntry ≠ 0 ∧ mask % 2 = 0 then some (cPAIR, mask)
      else (pr.tx.findIdx? (fun t => (t.ctrl == 0 && decide (t.buf < 8)) || (t.ctrl == 2 && decide (t.buf < 4)))).map (fun i => (cPAIR, satU 16 i))

/-- Whether a variable identifier found in both images differs in address, width or RETAINED (R335). -/
def varMoved (old : Program) (v : Var) : Bool :=
  old.vars.any (fun o => o.id == v.id && (o.addr != v.addr || o.bits != v.bits || o.retained != v.retained))

/-- Whether a station table entry breaks R328 or R329. -/
def stnBad (s : StnDef) : Bool :=
  s.safe.length != s.subst.length || (List.range s.subst.length).any (fun i => (s.subst.getD i 0).land (s.safe.getD i 0) != 0)

/-- Why an image may not be loaded beside the running one, with the count or entry concerned (R324, R330, R335, R405): the idle bank is one of the
running layout. -/
def olcWhy (d : Dev) (h : HalfId) (old new_ : Program) : Option (Nat × Nat) :=
  if new_.code.length > old.bank then some (cOLC_SPACE, satU 16 new_.code.length)
  else match new_.vars.findIdx? (varMoved old) with
    | some i => some (cOLC_LAYOUT, satU 16 i)
    | none => match new_.stns.findIdx? stnBad with
      | some i => some (cPAIR, i)
      | none => imageBad (d.get (ctl .cyx h) CYX.CORE_MASK_CORES) new_

/-- LOAD (R334, R335). -/
def olcLoad (d : Dev) (h : HalfId) : Dev :=
  let p := ctl .cyx h
  let a := d.get p CYX.OLC_SRC_OFS * 65536
  if !d.active h then d
  else if d.get p CYX.STATE_CODE ≠ 1 ∨ (d.olc h ≠ 0 ∧ d.olc h ≠ 5 ∧ d.olc h ≠ 6) then d.err p cOLC_STATE (d.olc h)
  else match d.imgWhy d.mram a with
    | some w => d.olcFail h (if w = cRANGE then cSIGNATURE else w)
    | none =>
      match imgLoad d.mram a with
      | none => d.olcFail h cSIGNATURE
      | some i =>
        match d.olcWhy h (d.prog h) i.prog with
        | some w => d.olcFail h w.1 w.2
        | none => (d.setOlc h 1 0).modCyx h (fun x => { x with idle := some i })

/-- A cell of the new image: one that persists by identifier and kind keeps its state (R336, 1). -/
def carryCell (old : List Cell) (n : CellDef) : Cell :=
  match old.find? (fun c => c.def_.id == n.id && c.def_.edge == n.edge && c.def_.kind == n.kind) with
  | some c => { c with def_ := n }
  | none => Cell.init n

/-- Drop the forces whose variable does not persist (R336, 2): FRC_DROPPED, and one record each, from the active half. -/
def dropForces (d : Dev) (h : HalfId) (new_ : Program) : Dev × Nat :=
  let p := ctl .frc h
  let gone := (d.forces h).filter (fun i =>
    (frcWhy new_ (d.get p FRC.VAR_ID_ID 0 i) (d.get p FRC.ADDR_ADDR 0 i) (d.get p FRC.CFG_WIDTH 0 i) (d.get p FRC.CFG_BIT 0 i)).isSome)
  let d := gone.foldl (fun d i =>
    let id := d.get p FRC.VAR_ID_ID 0 i
    let d := ((d.put p FRC.CFG_EN 0 0 i).put p FRC.ESTAT_DROPPED 1 0 i).bump p FRC.DROPS_COUNT
    if d.active h then d.fault p cFRC_DROPPED i [id] else d.err p cFRC_DROPPED i) d
  (d.put p FRC.USED_N (d.forces h).length, gone.length)

/-- The switch in one half (R336). -/
def switchHalf (d : Dev) (h : HalfId) (new_ : Image) (ns10 : Nat) : Dev :=
  let p := ctl .cyx h
  let old := d.prog h
  let cs := (d.cyx h).cells
  let cells := new_.prog.cells.map (carryCell cs)
  let same (a : CellDef) (c : Cell) : Bool := c.def_.id == a.id && c.def_.edge == a.edge && c.def_.kind == a.kind
  let kept := (new_.prog.cells.filter (fun a => cs.any (same a))).length
  let freed := (cs.filter (fun c => !new_.prog.cells.any (fun a => same a c))).length
  let fr := d.dropForces h new_.prog
  let d := fr.1
  let d := d.setSram h (initVars new_.prog (fun v => old.vars.any (fun o => o.id == v.id)) (d.half h).sram)
  let was := (d.cyx h).img
  let d := d.modCyx h (fun x => { x with cells := cells, oldCells := cs, old := was, img := some new_, idle := none })
  let d := (d.showImage h).put p CYX.IMG_BANK (1 - d.get p CYX.IMG_BANK)
  let d := (d.put p CYX.OLC_CNT1 (65536 * (new_.prog.cells.length - kept) + kept)).put p CYX.OLC_CNT2 (65536 * fr.2 + freed)
  let d := ((d.put p CYX.OLC_SW_NS (satU 16 ns10)).put p CYX.STATE_FIRST 1).stat p 2
  d.setOlc h 4 0

/-- Whether an armed switch may take place: the standby is STANDBY_SYNC or not in service (R336). -/
def olcReady (d : Dev) (h : HalfId) : Bool := d.get (ctl .hlf h.other) HLF.STATE_OWN != 2

/-- What follows a publish and its switch (R315, step 10; R321): the cycle state, as the switch has left it, goes to the mirror link, and a STOP or a
restart that has waited takes effect. A switch that has been cancelled leaves the same to do. -/
def endSwitch (d : Dev) (h : HalfId) : Dev :=
  let st := (d.cyx h).pub
  let d := d.modCyx h (fun x => { x with pub := none, switchNow := false })
  match st with
  | some s => ((if d.active h && d.holds h then
      d.sendState h { s with ret := memBytes (d.half h).sram s.area.1 s.area.2, cells := (d.cyx h).cells, frc := pageWords d.regs (ctl .frc h) }
    else d).afterPublish h)
  | none => d.afterPublish h

/-- The publish of a half whose cores are done (R315, steps 7 and 8; 10 where no switch follows, else `endSwitch`). -/
def publish (d : Dev) (h : HalfId) (us ns : Nat) : Dev :=
  let p := ctl .cyx h
  if !d.running h || d.get p CYX.STATE_CODE ≠ 1 || !d.allDone h then d
  else
    let d := d.forceAll h
    let seq := d.get p CYX.CNT_CYCLE % 65536
    let act := d.active h && d.holds h
    let d := if act then d.fioForward (d.outImage h) else d
    let d := if act then (d.txData h).foldl (fun d e => d.canLoad e.1.ctrl e.1.buf ⟨e.1.id, e.1.ide, e.1.fdf, e.1.brs, e.1.dlc, false, false, e.2⟩) d else d
    let d := d.cycleCtl h seq
    let d := if act then (d.cycleShared h seq).put (shp .enc) ENC.BOOT_ATTEMPTS 0 else d
    let d := if act && d.olc h = 3 then
        (if d.olcReady h then d.modCyx h (fun x => { x with switchNow := true }) else d.setOlc h 3 cOLC_STANDBY)
      else d
    let st := d.cycState h
    let d := d.endCycle h us ns
    if (d.cyx h).switchNow then d.modCyx h (fun x => { x with pub := some st })
    else (if act then d.sendState h st else d).afterPublish h

/-- An idle CYCLE event (R320): staged CYCLE values apply, the input banks swap, and Shoal publishes; the standby applies at the same event. -/
def idleCycle (d : Dev) (h : HalfId) : Dev :=
  let p := ctl .cyx h
  if !d.active h || !d.cyxIdle h then d
  else
    let d := d.wrapUp p CYX.CNT_CYCLE
    let n := d.get p CYX.CNT_CYCLE
    let d := d.cycleCtl h (n % 65536)
    let d := if d.holds h then d.cycleShared h (n % 65536) else d
    let d := (d.laneSwap).glkSnapshot h
    let d := d.shlPublishGrp h
    if d.mirrors h.other then (d.put (ctl .cyx h.other) CYX.CNT_CYCLE n).cycleCtl h.other (n % 65536) else d

/-! ### The standby (R331, R332) -/

/-- A cycle marker reaches the standby (R332, R44): it begins its cycle on the same snapshot; while it still runs one, it finishes it first
and sets LAG, and the marker waits. -/
def cycleMarker (d : Dev) (h : HalfId) (dt ns : Nat) : Dev :=
  let p := ctl .cyx h
  let x := d.cyx h
  if d.active h || !d.running h || x.waiting = 0 then d
  else if x.phase ≠ 0 then ((d.put p CYX.STATE_LAG 1).stat p 5).modCyx h (fun x => { x with late := some (dt, ns) })
  else
    let d := d.modCyx h (fun x => { x with waiting := x.waiting - 1, late := none })
    let d := d.put p CYX.CNT_CYCLE (x.marker - (x.waiting - 1))
    let d := if x.waiting = 1 then d.put p CYX.STATE_LAG 0 else d
    if d.get p CYX.STATE_CODE = 1 then d.snapshotHalf h dt ns else d

/-- Cycles between the active half's count and the shadow (R331). -/
def showLag (d : Dev) (h : HalfId) : Dev :=
  let p := ctl .cyx h
  match (d.cyx h).shadow with
  | some s => (d.put p CYX.SHADOW_CYC s.cyc).put p CYX.SHADOW_LAG (satU 8 (d.get (ctl .cyx h.other) CYX.CNT_CYCLE - s.cyc))
  | none => d.put p CYX.SHADOW_LAG (satU 8 (d.get (ctl .cyx h.other) CYX.CNT_CYCLE))

/-- The end marker of a cycle arrives: the receive buffer, the cells and the forces become the shadow; FRC shows the received table
(R327, R331). The cycle state behind it reaches the receive buffer next. -/
def shadowCopy (d : Dev) (h : HalfId) : Dev :=
  match (d.cyx h).rxq with
  | [] => d
  | s :: rest =>
    if d.active h || !d.running h then d
    else
      let q := ctl .frc h
      let d := { d with regs := putWords (otherWords d.regs q) q ((pageWords d.regs q).filter (fun (e : Nat × Word) => e.1 / 65536 / 32 < 0x40) ++
        s.frc.filter (fun (e : Nat × Word) => e.1 / 65536 / 32 ≥ 0x40)) }
      let d := d.fillSram h s.shadowAt s.area.2 (memBytes (d.half h).sram (s.shadowAt + s.area.2) s.area.2)
      (((d.modCyx h (fun x => { x with shadow := some { s with ret := [] }, rxq := rest })).rxLand h).showBacklog h.other).showLag h

/-- Restore the shadow into the retained area, with its cells and forces; a running timer has gone on for `dt` µs (R333). -/
def takeShadow (d : Dev) (h : HalfId) (dt : Nat) : Dev :=
  match (d.cyx h).shadow with
  | none => d
  | some s =>
    let q := ctl .frc h
    let runs (c : Cell) : Bool := !c.def_.edge && (match c.def_.kind with | 0 => c.prev | 1 => c.q && !c.prev | _ => c.q)
    let d := d.fillSram h s.area.1 s.area.2 (memBytes (d.half h).sram s.shadowAt s.area.2)
    let d := { d with regs := putWords (otherWords d.regs q) q ((pageWords d.regs q).filter (fun (e : Nat × Word) => e.1 / 65536 / 32 < 0x40) ++
      s.frc.filter (fun (e : Nat × Word) => e.1 / 65536 / 32 ≥ 0x40)) }
    d.modCyx h (fun x => { x with valid := true, cells := s.cells.map (fun c => if runs c then { c with e := (c.e + dt) % 2 ^ 64 } else c) })

/-- A takeover before DONE (R337): the new active half goes on with the old image from its bank, and the change is void. A cell of the old image that
the shadow no longer holds is as it was at the switch. -/
def voidSwitch (d : Dev) (h : HalfId) : Dev :=
  let p := ctl .cyx h
  match d.olc h, (d.cyx h).old with
  | 4, some i =>
    let x := d.cyx h
    let back (cs : List Cell) : List Cell := i.prog.cells.map (carryCell (cs ++ x.oldCells))
    let d := d.modCyx h (fun x => { x with img := some i, old := none, oldCells := [], cells := back x.cells,
                                           shadow := x.shadow.map (fun s => { s with cells := back s.cells }) })
    let d := (d.put p CYX.IMG_BANK (1 - d.get p CYX.IMG_BANK)).showImage h
    (d.olcFail h cOLC_LOST).note p clsFault cOLC_LOST
  | _, _ => d

/-- What a takeover leaves of the cycle in progress (R333): it is abandoned, the counter goes on from the last marker, and the error task is due with
cause TAKEOVER. -/
def takeCount (d : Dev) (h : HalfId) : Dev :=
  let p := ctl .cyx h
  let m := (d.cyx h).marker
  let d := if d.get p CYX.CNT_CYCLE < m then d.put p CYX.CNT_CYCLE m else d
  ((d.put p CYX.STATE_LAG 0).orBits p CYX.ERRT_CAUSE 4).modCyx h (fun x =>
    { x with phase := 0, done := 0, due := true, waiting := 0, late := none, rxq := [], switchNow := false, pub := none, heldNext := false })

/-- The program of a new active half after a warm takeover (R333, R337): it takes the shadow, and the first cycle runs with `first_scan` set. -/
def cyxWarm (d : Dev) (h : HalfId) (dt : Nat) : Dev := ((((d.voidSwitch h).takeShadow h dt).takeCount h).put (ctl .cyx h) CYX.STATE_FIRST 1)

/-- The copy of a loaded image ends: it is in the idle bank of both halves, or the load has failed (R334). -/
def olcLoaded (d : Dev) (h : HalfId) (ok : Bool) : Dev :=
  match d.olc h, (d.cyx h).idle with
  | 1, some i =>
    if ok then
      let lay := d.prog h
      let b := 1 - d.get (ctl .cyx h) CYX.IMG_BANK
      let d := (d.setIdle h (some i)).loadBank h lay b i
      (if d.mirrors h.other then d.loadBank h.other lay b i else d).showOlc h 2 0
    else d.olcFail h cECC
  | _, _ => d

/-- The old bank of a half is released (R337). -/
def releaseOld (d : Dev) (h : HalfId) : Dev := d.modCyx h (fun x => { x with old := none, oldCells := [] })

/-- SWITCH of `OLC_CMD` (R334). -/
def olcSwitch (d : Dev) (h : HalfId) : Dev :=
  if !d.active h then d
  else if d.get (ctl .cyx h) CYX.STATE_CODE = 1 ∧ d.olc h = 2 then d.setOlc h 3 0 else d.err (ctl .cyx h) cOLC_STATE (d.olc h)

/-- CANCEL of `OLC_CMD` (R334). -/
def olcCancel (d : Dev) (h : HalfId) : Dev :=
  if !d.active h then d
  else if d.get (ctl .cyx h) CYX.STATE_CODE = 1 ∧ (d.olc h = 2 ∨ d.olc h = 3) then
    let d := (d.showOlc h 0 0).setIdle h none
    if (d.cyx h).switchNow then d.endSwitch h else d
  else d.err (ctl .cyx h) cOLC_STATE (d.olc h)

/-- An abort of CYX (R67): an on-line change that has not switched yet fails with ABORTED, and a STOP or a restart that waits for the end of
the cycle is dropped. `CTRL.EN` stays 1 (R338), so the cycle goes on. -/
def abortCyx (d : Dev) (h : HalfId) : Dev :=
  let st := d.olc h
  let d := if 1 ≤ st ∧ st ≤ 3 then d.olcFail h cABORTED else d
  let d := d.modCyx h (fun x => { x with stopReq := false, restart := none })
  (if (d.cyx h).switchNow then d.endSwitch h else d).abortPage (ctl .cyx h) false

/-- A write of `FIND_ID` (R339): both kinds are searched, timers first. -/
def tmcFind (d : Dev) (h : HalfId) (id : Nat) : Dev :=
  let p := ctl .tmc h
  let d := d.put p TMC.FIND_ID_ID id
  let at_ (edge : Bool) : Option Nat := ((d.cyx h).cells.filter (fun c => c.def_.edge == edge)).findIdx? (fun c => c.def_.id == id)
  match at_ false, at_ true with
  | some i, _ => ((d.put p TMC.SEL_IDX i).put p TMC.SEL_EDGE 0).put p TMC.FIND_HIT 1
  | none, some i => ((d.put p TMC.SEL_IDX i).put p TMC.SEL_EDGE 1).put p TMC.FIND_HIT 1
  | none, none => d.put p TMC.FIND_HIT 0

end Dev

/-! ### Meanings -/

/-- A core writes its DONE bit; `ws` are the bytes its program has stored in SRAM in this cycle, outside the part's reserved area (R34). -/
def execCyxDone (h : HalfId) (core : Fin 4) (ws : List (BitVec 32 × BitVec 8)) (s : State) : Host.Outcome State Fault Refusal :=
  onDev (fun d =>
    let ok := ws.filter (fun e => decide (0x08080000 ≤ e.1.toNat ∧ e.1.toNat ≤ 0x087FFFFF))
    ((d.setSram h (ok.foldl (fun m e => memWrite m e.1.toNat e.2) (d.half h).sram)).heal h (ok.map (fun e => (e.1.toNat, 1)))).cyxDone h core.val) s

def execCyxWarm (h : HalfId) (s : State) : Host.Outcome State Fault Refusal := onDev (fun d => d.cyxStart h false) s
def execCyxCold (h : HalfId) (s : State) : Host.Outcome State Fault Refusal := onDev (fun d => d.cyxStart h true) s
def execCyxStop (h : HalfId) (s : State) : Host.Outcome State Fault Refusal := onDev (fun d => d.cyxStop h) s
def execOlcLoad (h : HalfId) (s : State) : Host.Outcome State Fault Refusal := onDev (fun d => d.olcLoad h) s

/-- The image is in the idle banks of both halves, or its copy failed (R334). -/
def execOlcLoadDone (h : HalfId) (ok : Bool) (s : State) : Host.Outcome State Fault Refusal :=
  onDev (fun d => if d.active h then d.olcLoaded h ok else d) s

def execOlcSwitch (h : HalfId) (s : State) : Host.Outcome State Fault Refusal := onDev (fun d => d.olcSwitch h) s

def execOlcCancel (h : HalfId) (s : State) : Host.Outcome State Fault Refusal := onDev (fun d => d.olcCancel h) s

def execOlcSwitchExec (h : HalfId) (ns10 : BitVec 16) (s : State) : Host.Outcome State Fault Refusal :=
  onDev (fun d =>
    match (d.cyx h).switchNow, (d.cyx h).idle with
    | true, some i =>
      let d := d.switchHalf h i ns10.toNat
      (if d.mirrors h.other && d.get (ctl .hlf h.other) HLF.STATE_OWN == 1 then d.switchHalf h.other i ns10.toNat else d).endSwitch h
    | _, _ => d) s

/-- The standby's shadow holds a cycle of the new image: the old bank is released (R337). -/
def execOlcDone (h : HalfId) (s : State) : Host.Outcome State Fault Refusal :=
  onDev (fun d =>
    let ok := d.olc h == 4 && (match (d.cyx h.other).shadow with | some c => c.bank == d.get (ctl .cyx h) CYX.IMG_BANK | none => false)
    if ok then ((d.setOlc h 5 0).setOlc h.other 5 0).releaseOld h |>.releaseOld h.other else d) s

def execFrcClrAll (h : HalfId) (mid : BitVec 8) (mach : Bool) (s : State) : Host.Outcome State Fault Refusal :=
  onDev (fun d => if d.active h then d.frcClrAll h ⟨mid.toNat, mach⟩ else d) s

/-- A write of `FIND_ID` (R339): the search of both kinds, timers first. -/
def execTmcFind (h : HalfId) (id : Word) (s : State) : Host.Outcome State Fault Refusal := onDev (fun d => d.tmcFind h id.toNat) s

end Sys2Proof.Machine
end

