-- ==== Sys2Proof/Machine/Loop.lean ====
section
/-! DEFINITION. The closed-loop control engines LE0 to LE2 (spec/05_loop_engine.md). -/
namespace Sys2Proof.Machine

open Sys2Proof

/-! ### Codes (R169) -/
def cLATE : Nat := 0x60
def cPLAUS : Nat := 0x61
def cTBL_ACTIVE : Nat := 0x62
def cUNSTABLE : Nat := 0x63

/-! ### Arithmetic (R143, R147) -/

/-- Addition that saturates at 64 bits (R143). -/
def sadd (x y : Int) : Int := satS 64 (x + y)
/-- Whether a sum leaves 64 bits. -/
def saddClips (x y : Int) : Bool := decide (satS 64 (x + y) ≠ x + y)
/-- Whether a value leaves 32 bits. -/
def clips32 (x : Int) : Bool := decide (satS 32 x ≠ x)
/-- The value 1.0 in Q4.27. -/
def q1 : Int := 134217728

/-- The five coefficients of a section. -/
structure Coef where
  b0 : Int
  b1 : Int
  b2 : Int
  a1 : Int
  a2 : Int

/-- The states of a section. -/
structure SecSt where
  x1 : Int
  x2 : Int
  y1 : Int
  y2 : Int

/-- One biquad section (R147): output, new states, whether an accumulation and whether the store saturated. -/
def biquad (c : Coef) (s : SecSt) (w : Int) : Int × SecSt × Bool × Bool :=
  let t0 := c.b0 * w
  let t1 := sadd t0 (c.b1 * s.x1)
  let t2 := sadd t1 (c.b2 * s.x2)
  let t3 := sadd t2 (-c.a1 * s.y1)
  let t4 := sadd t3 (-c.a2 * s.y2)
  let r := asr (sadd t4 (2 ^ 26)) 27
  let acc := saddClips t0 (c.b1 * s.x1) || saddClips t1 (c.b2 * s.x2) || saddClips t2 (-c.a1 * s.y1) ||
    saddClips t3 (-c.a2 * s.y2) || saddClips t4 (2 ^ 26)
  let y := satS 32 r
  (y, ⟨w, s.x1, y, s.y1⟩, acc, clips32 r)

/-- A cascade: output, new states, saturations. -/
def cascade : List (Coef × SecSt) → Int → Int × List SecSt × Bool × Bool
  | [], w => (w, [], false, false)
  | (c, s) :: r, w =>
    let (y, s', a, b) := biquad c s w
    let (z, ss, a', b') := cascade r y
    (z, s' :: ss, a || a', b || b')

/-- The stability rule of Table 4: |a2| < 1.0 and |a1| < 1.0 + a2 (R160). -/
def stableSec (a1 a2 : Int) : Bool := decide (-q1 < a2 ∧ a2 < q1 ∧ -(q1 + a2) < a1 ∧ a1 < q1 + a2)

/-- Interpolation between two words with a 16-bit fraction (R162). -/
def interp (c next : Int) (fr : Nat) : Int := c + asr ((next - c) * fr) 16

/-- Index and fraction of a position in a table of `n` entries that clamps (R162). -/
def tabAt (f : Int) (step n : Nat) : Nat × Nat :=
  if f < 0 then (0, 0)
  else if f ≥ ((n - 1) * step : Nat) then (n - 1, 0)
  else let i := f.toNat / step; (i, (f.toNat - i * step) * 65536 / step)

namespace Dev

def le (d : Dev) (h : HalfId) (e : Nat) : Le := (d.half h).le.getD e Le.init
def modLe (d : Dev) (h : HalfId) (e : Nat) (f : Le → Le) : Dev := d.modHalf h (fun x => { x with le := lmod x.le e f })
def loopSt (d : Dev) (h : HalfId) (e l : Nat) : LoopSt := (d.le h e).loops.getD l LoopSt.init
def modLoop (d : Dev) (h : HalfId) (e l : Nat) (f : LoopSt → LoopSt) : Dev :=
  d.modLe h e (fun x => { x with loops := lmod x.loops l f })

/-! ### Inputs (R144, R145) -/

/-- The raw value of a source. `d0` is the state before the engines of this period ran: other engines are read there. -/
def leRaw (d d0 : Dev) (h : HalfId) (e code idx : Nat) : Int :=
  let loop (k : Nat) : Int := if k = e then d.geti (pgLe h k) LE.OUT_Q 0 idx else d0.geti (pgLe h k) LE.OUT_Q 0 idx
  match code with
  | 1 => d.geti (pgMpg h idx) MPG.SP_X_UM
  | 2 => d.geti (pgMpg h idx) MPG.SP_V_UMS
  | 3 => d.geti (pgMpg h idx) MPG.SP_A_UMS2
  | 4 => d.carX h idx
  | 5 => d.carV h idx
  | 6 => d.geti (pgMpg h idx) MPG.DRV_TRQ_Q
  | 7 => loop 0
  | 8 => loop 1
  | 9 => loop 2
  | 10 => 1
  | _ => 0

/-- One input of a loop, converted (R144). -/
def leConv (d d0 : Dev) (h : HalfId) (e l : Nat) (code idx shr scale : Fld) : Int :=
  let p := pgLe h e
  asr (d.leRaw d0 h e (d.get p code 0 l) (d.get p idx 0 l) * d.geti p scale 0 l) (d.get p shr 0 l)

/-! ### Tables (R161 to R164) -/

/-- Bank of a table that is active. -/
def leBank (d : Dev) (h : HalfId) (e t : Nat) : Nat := bitN (d.get (pgLe h e) LE.TBL_ACT_BANK) t

/-- A word of the active bank of a table. -/
def leWord (d : Dev) (h : HalfId) (e t w : Nat) : Int :=
  d.geti (pgLe h e) LE.TBL_DATA_WORD 0 ((t * 2 + d.leBank h e t) * 2048 + w)

/-- Whether the position of a car is trusted: VALID or COAST (R163). -/
def trusted (d : Dev) (h : HalfId) (n : Nat) : Bool := d.posState h n == 2 || d.posState h n == 3

/-- Car of a table: notch tables 0 to 7, cog tables 8 to 11. -/
def tabCar (d : Dev) (h : HalfId) (e t : Nat) : Nat :=
  if t < 8 then d.get (pgLe h e) LE.NT_CFG_CAR t else d.get (pgLe h e) LE.CT_CFG_CAR (t - 8)

/-- Index and fraction of a table at the present position of a car. -/
def tabNow (d : Dev) (h : HalfId) (e t n : Nat) : Nat × Nat :=
  let p := pgLe h e
  let x := d.carX h n
  if t < 8 then tabAt (x - d.geti p LE.NT_X0_UM t) (d.get p LE.NT_STEP_UM t) 256
  else
    let c := t - 8
    let st := d.get p LE.CT_STEP_UM c
    let f := x - d.geti p LE.CT_X0_UM c
    if d.on p LE.CT_CFG_MOD c then
      let m := (f % (1024 * st : Nat)).toNat
      (m / st % 1024, (m - m / st * st) * 65536 / st)
    else tabAt f st 1024

/-- Index a table for this period (R163): the present index while the position is trusted, else the one kept
for the table's car, and entry 0 where there is none. -/
def tabIndex (d : Dev) (h : HalfId) (e t : Nat) : Nat × Nat :=
  if d.trusted h (d.tabCar h e t) then d.tabNow h e t (d.tabCar h e t) else (d.le h e).idx.getD (t * 4 + d.tabCar h e t) (0, 0)

/-- The coefficients of a section of a loop (R160, R162). -/
def secCoef (d : Dev) (h : HalfId) (e l s : Nat) : Coef :=
  let p := pgLe h e
  if d.on p LE.SEC_CFG_SCHED s l then
    let t := d.get p LE.SEC_CFG_TBL s l
    let (i, fr) := d.tabIndex h e t
    let j := if i = 255 then i else i + 1
    let c (k : Nat) : Int := interp (d.leWord h e t (5 * i + k)) (d.leWord h e t (5 * j + k)) fr
    ⟨c 0, c 1, c 2, c 3, c 4⟩
  else ⟨d.geti p LE.SEC_B0_Q s l, d.geti p LE.SEC_B1_Q s l, d.geti p LE.SEC_B2_Q s l, d.geti p LE.SEC_A1_Q s l, d.geti p LE.SEC_A2_Q s l⟩

/-- The cogging or friction term of a loop (R164). -/
def cogTerm (d : Dev) (h : HalfId) (e l : Nat) : Int :=
  let p := pgLe h e
  if d.on p LE.LOOP_CFG_COG_EN 0 l then
    let c := d.get p LE.LOOP_CFG_COG_T 0 l
    let t := 8 + c
    let (i, fr) := d.tabIndex h e t
    let j := if i = 1023 then (if d.on p LE.CT_CFG_MOD c then 0 else i) else i + 1
    let v := asr (interp (d.leWord h e t i) (d.leWord h e t j) fr * d.geti p LE.COG_GAIN_Q 0 l) 27
    if d.on p LE.LOOP_CFG_COG_KIND 0 l then
      let car := d.tabCar h e t
      let spd := if d.trusted h car then d.carV h car else (d.le h e).spd.getD car 0
      let sv := tdiv (spd * q1) (d.get p LE.COG_VDB_UMS 0 l)
      let sv := if sv > q1 then q1 else if sv < -q1 then -q1 else sv
      asr (v * sv) 27
    else v
  else 0

/-- Tables a loop uses under a view. -/
def tablesOf (v : View) (l : Nat) : List Nat :=
  ((List.range (v LE.LOOP_CFG_NSEC 0 l)).filter (fun s => v LE.SEC_CFG_SCHED s l == 1)).map (fun s => v LE.SEC_CFG_TBL s l) ++
  (if v LE.LOOP_CFG_COG_EN 0 l = 1 then [8 + v LE.LOOP_CFG_COG_T 0 l] else [])

/-- Tables a loop uses. -/
def leTables (d : Dev) (h : HalfId) (e l : Nat) : List Nat := tablesOf (fun f i t => d.get (pgLe h e) f i t) l

/-- Keep the indexes and the speeds of the cars whose position is trusted (R163, R164). -/
def keepTables (d : Dev) (h : HalfId) (e : Nat) : Dev :=
  d.modLe h e (fun x =>
    { x with
      idx := (List.range 48).map (fun k => if d.trusted h (k % 4) then d.tabNow h e (k / 4) (k % 4) else x.idx.getD k (0, 0))
      spd := (List.range 4).map (fun n => if d.trusted h n then d.carV h n else x.spd.getD n 0) })

/-! ### One sample (R146 to R157, R165) -/

/-- Raise flags of a loop; a flag of Table 2 also sets the loop's bit in `SAT_MAP` and `STAT.BLOCK` bit 1 (R148, R168). -/
def leFlags (d : Dev) (h : HalfId) (e l : Nat) (bits : Nat) : Dev :=
  let p := pgLe h e
  let d := (d.orBits p LE.LFLAG_BITS bits 0 l).modLe h e (fun x => { x with raised := lmod x.raised l (Nat.lor bits) })
  if bits % 64 ≠ 0 then (d.orBits p LE.SAT_MAP_BITS (2 ^ l)).stat p 1 else d

def secState (d : Dev) (h : HalfId) (e l s : Nat) : SecSt :=
  let p := pgLe h e
  ⟨d.geti p LE.SEC_X1_Q s l, d.geti p LE.SEC_X2_Q s l, d.geti p LE.SEC_Y1_Q s l, d.geti p LE.SEC_Y2_Q s l⟩

def putSec (d : Dev) (h : HalfId) (e l s : Nat) (x : SecSt) : Dev :=
  let p := pgLe h e
  (((d.puti p LE.SEC_X1_Q x.x1 s l).puti p LE.SEC_X2_Q x.x2 s l).puti p LE.SEC_Y1_Q x.y1 s l).puti p LE.SEC_Y2_Q x.y2 s l

/-- PLAUS of a loop: flags and `ERR` at every sample, the record at the start of an episode (R165). -/
def lePlaus (d : Dev) (h : HalfId) (e l : Nat) : Dev :=
  let p := pgLe h e
  let n := d.get p LE.SUP_CNT_N 0 l
  if d.on p LE.LOOP_CFG_SUP_EN 0 l && n != 0 && decide (d.get p LE.LSTAT_CNT 0 l ≥ n) then
    let was := bitN (d.get p LE.LSTAT_BITS 0 l) 4 == 1
    let d := ((((d.leFlags h e l 128).orBits p LE.PLAUS_MAP_BITS (2 ^ l)).stat p 2).putBit p LE.LSTAT_BITS 4 true 0 l)
    if was then d.err p cPLAUS l else d.fault p cPLAUS l [d.get p LE.RESID_Q 0 l]
  else d.putBit p LE.LSTAT_BITS 4 false 0 l

/-- The supervisor of a sample with output u (R165); a start sample seeds it. -/
def leSup (d : Dev) (h : HalfId) (e l : Nat) (start : Bool) (fb u : Int) : Dev :=
  let p := pgLe h e
  if !d.on p LE.LOOP_CFG_SUP_EN 0 l then d
  else if start then
    ((((d.puti p LE.YM1_Q (satS 32 fb) 0 l).puti p LE.YM2_Q (satS 32 fb) 0 l).puti p LE.UM1_Q u 0 l).puti p LE.UM2_Q u 0 l)
  else
    let ym1 := d.geti p LE.YM1_Q 0 l
    let um1 := d.geti p LE.UM1_Q 0 l
    let den := sadd (-(d.geti p LE.SUP_M1_Q 0 l) * ym1) (-(d.geti p LE.SUP_M2_Q 0 l) * d.geti p LE.YM2_Q 0 l)
    let num := sadd (d.geti p LE.SUP_N1_Q 0 l * um1) (d.geti p LE.SUP_N2_Q 0 l * d.geti p LE.UM2_Q 0 l)
    let ym := satS 32 (asr (sadd den num + 2 ^ 26) 27)
    let r := satS 32 (fb - ym)
    let cnt := if r.natAbs > d.get p LE.SUP_THR_Q 0 l then min (d.get p LE.LSTAT_CNT 0 l + 1) 255 else 0
    let d := (d.puti p LE.RESID_Q r 0 l).put p LE.LSTAT_CNT cnt 0 l
    let d := d.lePlaus h e l
    let d := (d.puti p LE.YM2_Q ym1 0 l).puti p LE.YM1_Q (satS 32 (ym + asr (d.geti p LE.SUP_L_Q 0 l * r) 27)) 0 l
    (d.puti p LE.UM2_Q um1 0 l).puti p LE.UM1_Q u 0 l

/-- Whether a loop is suspended (R157). -/
def leSusp (d : Dev) (h : HalfId) (e l : Nat) : Bool :=
  let p := pgLe h e
  let n := d.get p LE.LOOP_CFG_OWN 0 l
  d.on p LE.LOOP_CFG_OWN_EN 0 l && (d.mpgMode h n == 5 || !d.enabled (pgMpg h n))

/-- The preset of R155: sections before the integrating one zeroed, the integrating one holding P; all zeroed without one. -/
def lePreset (d : Dev) (h : HalfId) (e l : Nat) (ff : Int) : Dev :=
  let p := pgLe h e
  let is := d.get p LE.LOOP_CFG_INT_SEC 0 l
  let P := satS 32 (d.geti p LE.MAN_OUT_Q 0 l - ff)
  let d := (List.range (d.get p LE.LOOP_CFG_NSEC 0 l)).foldl (fun d s =>
    d.putSec h e l s (if s = is then ⟨0, 0, P, P⟩ else ⟨0, 0, 0, 0⟩)) d
  if is = 15 then d.leFlags h e l 512 else d

/-- Write the last automatic output into the working value of `MAN_OUT` and into its shadow (R156). A value applied with the switch stays for
the next sample. -/
def leTrack (d : Dev) (h : HalfId) (e l : Nat) : Dev :=
  let p := pgLe h e
  let st := d.loopSt h e l
  let d := if st.manNew then d else d.puti p LE.MAN_OUT_Q st.autoOut 0 l
  { d with shadow := d.shadow.map (fun x => if x.page = p ∧ x.fld = LE.MAN_OUT_Q ∧ x.t = l then { x with val := BitVec.ofInt 32 st.autoOut } else x) }

/-- A sample in manual mode (R146, R153, R156). `EVAL` keeps the error of the last automatic sample (notes/assumptions/15.md). -/
def leManual (d : Dev) (h : HalfId) (e l : Nat) (start : Bool) (sp fb : Int) : Dev :=
  let p := pgLe h e
  let st := d.loopSt h e l
  let track := st.auto && d.on p LE.LOOP_CFG_TRACK 0 l
  let u := if track then st.autoOut else d.geti p LE.MAN_OUT_Q 0 l
  let d := if track then d.leTrack h e l else d
  let d := (d.puti p LE.OUT_Q u 0 l).puti p LE.SP_EFF_Q (satS 32 fb) 0 l
  let d := d.modLoop h e l (fun x => { x with spEff := fb, auto := false, start := false })
  let d := d.put p LE.LSTAT_BITS (1 + 4 * (decide (fb ≠ sp)).toNat + 16 * bitN (d.get p LE.LSTAT_BITS 0 l) 4) 0 l
  d.leSup h e l start fb u

/-- A sample in automatic mode (R146 to R149, R155). -/
def leAuto (d : Dev) (h : HalfId) (e l : Nat) (start : Bool) (sp fb ff : Int) : Dev :=
  let p := pgLe h e
  let st := d.loopSt h e l
  let preset := start || !st.auto
  let d := if preset then d.lePreset h e l ff else d
  let ramp : Int := d.get p LE.RAMP_Q 0 l
  let eff : Int :=
    if preset then fb
    else if ramp = 0 then sp
    else if sp > st.spEff then min sp (sadd st.spEff ramp) else max sp (sadd st.spEff (-ramp))
  let e0 := eff - fb
  let ee := satS 32 e0
  let ns := d.get p LE.LOOP_CFG_NSEC 0 l
  let (w, ss, fa, fs) := cascade ((List.range ns).map (fun s => (d.secCoef h e l s, d.secState h e l s))) ee
  let v := satS 32 (w + ff)
  let hi := d.geti p LE.OUT_HI_Q 0 l
  let lo := d.geti p LE.OUT_LO_Q 0 l
  let u := if v > hi then hi else if v < lo then lo else v
  let is := d.get p LE.LOOP_CFG_INT_SEC 0 l
  let oldY := (d.secState h e l is).y1
  let newY := (ss.getD is ⟨0, 0, 0, 0⟩).y1
  let wind := decide (is < ns) && ((decide (v > hi) && decide (newY > oldY)) || (decide (v < lo) && decide (newY < oldY)))
  let d := (List.range ns).foldl (fun d s => if wind && s == is then d else d.putSec h e l s (ss.getD s ⟨0, 0, 0, 0⟩)) d
  let bits := (clips32 e0).toNat + 2 * fa.toNat + 4 * fs.toNat + 8 * (clips32 (w + ff)).toNat + 16 * (decide (u ≠ v)).toNat + 32 * wind.toNat
  let d := d.leFlags h e l bits
  let d := ((d.puti p LE.OUT_Q u 0 l).puti p LE.SP_EFF_Q (satS 32 eff) 0 l).puti p LE.EVAL_Q ee 0 l
  let d := d.modLoop h e l (fun x => { x with spEff := eff, auto := true, autoOut := u, start := false })
  let d := d.put p LE.LSTAT_BITS (3 + 4 * (decide (eff ≠ sp)).toNat + 16 * bitN (d.get p LE.LSTAT_BITS 0 l) 4) 0 l
  d.leSup h e l start fb u

/-- A sample of a loop; a start sample first zeroes its section states and `LSTAT` (R154). -/
def leSample (d d0 : Dev) (h : HalfId) (e l : Nat) : Dev :=
  let p := pgLe h e
  let sp := sadd (d.leConv d0 h e l LE.SP_SRC_CODE LE.SP_SRC_IDX LE.SP_SRC_SHR LE.SP_SCALE_Q)
    (d.leConv d0 h e l LE.SPADD_SRC_CODE LE.SPADD_SRC_IDX LE.SPADD_SRC_SHR LE.SPADD_SCALE_Q)
  let fb := d.leConv d0 h e l LE.FB_SRC_CODE LE.FB_SRC_IDX LE.FB_SRC_SHR LE.FB_SCALE_Q
  let ff := sadd (d.leConv d0 h e l LE.FF_SRC_CODE LE.FF_SRC_IDX LE.FF_SRC_SHR LE.FF_SCALE_Q) (d.cogTerm h e l)
  let start := (d.loopSt h e l).start
  let d := if start then
      ((List.range 8).foldl (fun d s => d.putSec h e l s ⟨0, 0, 0, 0⟩) d |>.put p LE.LSTAT_BITS 0 0 l).put p LE.LSTAT_CNT 0 0 l
    else d
  let d := if (d.leTables h e l).any (fun t => !d.trusted h (d.tabCar h e t)) then d.leFlags h e l 256 else d
  let d := if d.on p LE.LOOP_CFG_AUTO 0 l then d.leAuto h e l start sp fb ff else d.leManual h e l start sp fb
  d.modLoop h e l (fun x => { x with manNew := false })

/-- Whether a loop is due at this SERVO event (R150). -/
def leDue (d : Dev) (h : HalfId) (e l : Nat) : Bool :=
  let p := pgLe h e
  (d.half h).servoCnt % 2 ^ d.get p LE.LOOP_CFG_DEC 0 l == d.get p LE.LOOP_CFG_DEC_PH 0 l

/-- One loop in one period: held while disabled, suspended (R157; the supervisor's count, and PLAUS_ACT with it, hold), or sampled when due. -/
def leLoop (d d0 : Dev) (h : HalfId) (e l : Nat) : Dev :=
  let p := pgLe h e
  if !d.on p LE.LOOP_CFG_EN 0 l then
    if d.get p LE.LSTAT_BITS 0 l ≠ 0 ∨ d.get p LE.OUT_Q 0 l ≠ 0 then
      (((d.put p LE.OUT_Q 0 0 l).put p LE.LSTAT_BITS 0 0 l).put p LE.LSTAT_CNT 0 0 l).modLoop h e l (fun x => { x with auto := false })
    else d
  else if d.leSusp h e l then
    ((d.put p LE.OUT_Q 0 0 l).put p LE.LSTAT_BITS (8 + 16 * bitN (d.get p LE.LSTAT_BITS 0 l) 4) 0 l).modLoop h e l (fun x => { x with start := true })
  else if d.leDue h e l then d.leSample d0 h e l
  else d

/-- Engine time of a loop in a period, ns (R151, Table 3), without the indexing of notch tables. -/
def leTime (d : Dev) (h : HalfId) (e l : Nat) : Nat :=
  let p := pgLe h e
  if !d.on p LE.LOOP_CFG_EN 0 l || d.leSusp h e l || !d.leDue h e l then 0
  else if !d.on p LE.LOOP_CFG_AUTO 0 l then 100
  else 60 + ((List.range (d.get p LE.LOOP_CFG_NSEC 0 l)).map (fun s => if d.on p LE.SEC_CFG_SCHED s l then 70 else 20)).sum +
    (if d.on p LE.LOOP_CFG_COG_EN 0 l then 60 else 0) + (if d.on p LE.LOOP_CFG_SUP_EN 0 l then 40 else 0)

/-- Engine time of a period: the loops, and 80 ns for each notch table used (R151). -/
def engTime (d : Dev) (h : HalfId) (e : Nat) : Nat :=
  let due := (List.range 32).filter (fun l => d.leTime h e l != 0 && d.on (pgLe h e) LE.LOOP_CFG_AUTO 0 l)
  let used := (List.range 8).filter (fun t => due.any (fun l => (d.leTables h e l).contains t))
  ((List.range 32).map (d.leTime h e)).sum + 80 * used.length

/-- Registers that a period may change and a late loop keeps: section states, supervisor, outputs, status, and the `MAN_OUT` that tracking
writes (R152, R156). -/
def leKept (h : HalfId) (e k : Nat) : Bool :=
  let w := k / 65536 / 32
  w / 4096 == pgLe h e && decide ((0x340 ≤ w % 4096 ∧ w % 4096 < 0x3E0) ∨ w % 4096 = 0x3E4 ∨ w % 4096 = 0x230)

/-- One engine in one period (R151). The engine starts when the generators have published, at an instant the spec gives only
roughly: `ENG_END` counts the engine time from a free start (notes/assumptions/14.md). -/
def leRun (d d0 : Dev) (h : HalfId) (e : Nat) : Dev :=
  let p := pgLe h e
  if d.enabled p then
    let d := d.modLe h e (fun x =>
      { x with prevRegs := d.regs.filter (fun r => leKept h e r.1), prevLoops := x.loops,
               prevMan := d.shadow.filter (fun s => decide (s.page = p ∧ s.fld = LE.MAN_OUT_Q)),
               prevFlags := (List.range 32).map (fun l => d.get p LE.LFLAG_BITS 0 l), began := d.now, raised := List.replicate 32 0,
               prevMaps := [d.get p LE.SAT_MAP_BITS, d.get p LE.PLAUS_MAP_BITS, d.get p HDR.STAT_BLOCK, d.get p HDR.ERR_CODE, d.get p HDR.ERR_COUNT,
                 d.get p HDR.ERR_DETAIL] })
    let d := d.keepTables h e
    let (st, d) := d.fresh
    let t := d.engTime h e
    let fin := (st.toNat + t) % 2 ^ 20
    let d := (List.range 32).foldl (fun d l => d.leLoop d0 h e l) d
    let run := ((List.range 32).map (fun l => if d.on p LE.LOOP_CFG_EN 0 l && !d.leSusp h e l then 2 ^ l else 0)).sum
    ((d.put p LE.RUN_MAP_BITS run).put p LE.ENG_END_NS fin).put p LE.ENG_MAX_NS (max (d.get p LE.ENG_MAX_NS) fin)
  else d

/-- The engines of a half in one period. -/
def leRunAll (d : Dev) (h : HalfId) : Dev :=
  let d0 := d
  (List.range 3).foldl (fun d e => d.leRun d0 h e) d

/-- What a late loop has raised in the present period is not raised: its flags, its bits of the maps, `STAT.BLOCK`, `ERR` and the record that
still waits. Flags other than LATE come from samples that run (R150); one begun and abandoned raises none either (notes/assumptions/15.md). -/
def leUnraise (d : Dev) (h : HalfId) (e : Nat) (late : List Nat) : Dev :=
  let p := pgLe h e
  let x := d.le h e
  let was (k : Nat) : Nat := x.prevMaps.getD k 0
  let kept (f : Nat → Bool) : Bool := (List.range 32).any (fun l => !late.contains l && f (x.raised.getD l 0))
  let plaus (b : Nat) : Bool := bitN b 7 == 1
  let less (now old : Nat) : Nat := bitsOf 32 (fun l => bitN now l == 1 && (!late.contains l || bitN old l == 1))
  let d := late.foldl (fun d l => d.put p LE.LFLAG_BITS ((d.get p LE.LFLAG_BITS 0 l).land (x.prevFlags.getD l 0)) 0 l) d
  let d := (d.put p LE.SAT_MAP_BITS (less (d.get p LE.SAT_MAP_BITS) (was 0))).put p LE.PLAUS_MAP_BITS (less (d.get p LE.PLAUS_MAP_BITS) (was 1))
  let d := if bitN (was 2) 1 == 1 || kept (fun b => b % 64 != 0) then d else d.putBit p HDR.STAT_BLOCK 1 false
  let d := if bitN (was 2) 2 == 1 || kept plaus then d else d.putBit p HDR.STAT_BLOCK 2 false
  let d := if late.any (fun l => plaus (x.raised.getD l 0)) && d.get p HDR.ERR_CODE == cPLAUS then
      ((List.range 32).filter (fun l => !late.contains l && plaus (x.raised.getD l 0))).foldl (fun d l => d.err p cPLAUS l)
        (((d.put p HDR.ERR_CODE (was 3)).put p HDR.ERR_COUNT (was 4)).put p HDR.ERR_DETAIL (was 5))
    else d
  let d := { d with silt := { d.silt with qUn := d.silt.qUn.filter (fun r =>
    !(r.cls == clsFault && r.code == cPLAUS && r.src == srcOf p && r.page == p % 256 && r.ts == x.began && late.contains r.detail)) } }
  (d.put (shp .slt) SLT.QUEUE_USED d.silt.used).modLe h e (fun x => { x with raised := late.foldl (fun r l => lset r l 0) x.raised })

/-- What tracking wrote into a staged `MAN_OUT` in the present period is undone (R152, R156). -/
def leUntrack (d : Dev) (h : HalfId) (e l : Nat) : Dev :=
  let x := d.le h e
  let out := (x.prevLoops.getD l LoopSt.init).autoOut
  match x.prevMan.find? (fun o => o.t == l) with
  | some o => { d with shadow := d.shadow.map (fun s => if s = { o with val := BitVec.ofInt 32 out } then o else s) }
  | none => d

/-- At the deadline: the loops of an engine in service that have not completed, from loop `k` on, keep their previous outputs and states (R152). -/
def leLate (d : Dev) (h : HalfId) (e k : Nat) : Dev :=
  let p := pgLe h e
  let late := (List.range 32).filter (fun l => decide (k ≤ l) && d.on p LE.LOOP_CFG_EN 0 l && !d.leSusp h e l && d.leDue h e l)
  if late.isEmpty || !d.enabled p then d
  else
    let x := d.le h e
    let isLate (key : Nat) : Bool := leKept h e key && late.contains (key % 65536)
    let rest := d.regs.filter (fun (r : Nat × Word) => !(isLate r.1))
    let d1 := { d with regs := (x.prevRegs.filter (fun (r : Nat × Word) => isLate r.1)).foldl (fun acc (r : Nat × Word) => rfInsert r.1 r.2 acc) rest }
    let d1 := d1.leUnraise h e late
    let d1 := late.foldl (fun d l => ((d.leUntrack h e l).modLoop h e l (fun _ => x.prevLoops.getD l LoopSt.init)).orBits p LE.LFLAG_BITS 64 0 l) d1
    ((d1.orBits p LE.LATE_MAP_BITS ((late.map (fun l => 2 ^ l)).sum)).stat p 0).err p cLATE (late.headD 0)

/-! ### The table port (R161) -/

/-- Whether the notch entry that holds word `w` is unstable. -/
def leBadEntry (d : Dev) (p tb w : Nat) : Bool :=
  let b := tb * 2048 + w / 5 * 5
  !stableSec (d.geti p LE.TBL_DATA_WORD 0 (b + 3)) (d.geti p LE.TBL_DATA_WORD 0 (b + 4))

/-- Advance `TBL_ADDR`; after the last word it returns to 0. -/
def leAdvance (d : Dev) (p : Nat) : Dev :=
  let last := if d.get p LE.TBL_SEL_TBL < 8 then 1279 else 1023
  let a := d.get p LE.TBL_ADDR_WORD
  d.put p LE.TBL_ADDR_WORD (if a ≥ last then 0 else a + 1)

/-- A write of `TBL_DATA`: refused on the active bank, else stored, the entry checked, and the address advanced. -/
def tblWrite (d : Dev) (h : HalfId) (e : Nat) (v : Nat) : Dev :=
  let p := pgLe h e
  let t := d.get p LE.TBL_SEL_TBL
  let b := d.get p LE.TBL_SEL_BANK
  let w := d.get p LE.TBL_ADDR_WORD
  if d.leBank h e t = b then (d.err p cTBL_ACTIVE t).stat p 4
  else
    let tb := t * 2 + b
    let bad := d.leBadEntry p tb w
    let d1 := d.put p LE.TBL_DATA_WORD v 0 (tb * 2048 + w)
    let bad' := d1.leBadEntry p tb w
    let n := d.get p LE.TBL_BAD_COUNT 0 tb
    let d2 := if t < 8 && bad != bad' then d1.put p LE.TBL_BAD_COUNT (if bad' then n + 1 else n - 1) 0 tb else d1
    d2.leAdvance p

/-- A read of `TBL_DATA` advances the address as well. -/
def tblRead (d : Dev) (h : HalfId) (e : Nat) : Dev := d.leAdvance (pgLe h e)

/-! ### Staged values (R154, R156, R160, R161) -/

/-- The fields of one loop. -/
def leLoopFields : List Fld := LE.all.filter (fun f => decide (f.tab = .leLoop) && decide (f.acc = .rs))

/-- Failing rules of one loop, in the order of Table 4 (R160). Each holds back `EN` with the values it names. -/
def loopFails (d : Dev) (h : HalfId) (v : View) (l : Nat) : List RuleFail :=
  let g (f : Fld) (i : Nat := 0) : Nat := v f i l
  let s (f : Fld) (i : Nat := 0) : Int := sgn f.w (v f i l)
  let fs (x : List Fld) : List (Fld × Nat × Nat) := (LE.LOOP_CFG_EN :: x).map (fun f => (f, 0, l))
  let rule (bad : Bool) (x : List (Fld × Nat × Nat)) (why : Nat) : List RuleFail := if bad then [⟨x, why⟩] else []
  let ns := g LE.LOOP_CFG_NSEC
  let is := g LE.LOOP_CFG_INT_SEC
  let car (n : Nat) : Bool := d.carEn h n
  let srcs : List (Fld × Fld) := [(LE.SP_SRC_CODE, LE.SP_SRC_IDX), (LE.SPADD_SRC_CODE, LE.SPADD_SRC_IDX), (LE.FB_SRC_CODE, LE.FB_SRC_IDX),
    (LE.FF_SRC_CODE, LE.FF_SRC_IDX)]
  let ofCar (c : Fld) : Bool := decide (1 ≤ g c ∧ g c ≤ 6)
  let part (k : Nat) (more : List (Fld × Nat × Nat)) : List (Fld × Nat × Nat) :=
    fs [LE.LOOP_CFG_NSEC, LE.LOOP_CFG_INT_SEC] ++ [(LE.SEC_CFG_SCHED, k, l), (LE.SEC_CFG_TBL, k, l)] ++ more
  let coefs (k : Nat) : List (Fld × Nat × Nat) := [(LE.SEC_A1_Q, k, l), (LE.SEC_A2_Q, k, l)]
  let sched (k : Nat) : Bool := v LE.SEC_CFG_SCHED k l == 1
  let tbl (k : Nat) : Nat := v LE.SEC_CFG_TBL k l
  let secs := List.range (min ns 8)
  let rest := secs.filter (fun k => k != is)
  let cog := g LE.LOOP_CFG_COG_EN == 1
  let ct := g LE.LOOP_CFG_COG_T
  let cogF (x : List Fld) (f : Fld) : List (Fld × Nat × Nat) := fs ([LE.LOOP_CFG_COG_EN, LE.LOOP_CFG_COG_T] ++ x) ++ [(f, ct, 0)]
  rule (!(is == 15 || is + 1 == ns)) (fs [LE.LOOP_CFG_NSEC, LE.LOOP_CFG_INT_SEC]) cPAIR ++
  (secs.filter (fun k => k == is)).flatMap (fun k => rule (sched k || decide (q1 + s LE.SEC_A1_Q k + s LE.SEC_A2_Q k ≠ 0)) (part k (coefs k)) cPAIR) ++
  rest.flatMap (fun k => rule (!sched k && !stableSec (s LE.SEC_A1_Q k) (s LE.SEC_A2_Q k)) (part k (coefs k)) cPAIR) ++
  rule (decide (g LE.LOOP_CFG_DEC_PH ≥ 2 ^ g LE.LOOP_CFG_DEC)) (fs [LE.LOOP_CFG_DEC, LE.LOOP_CFG_DEC_PH]) cPAIR ++
  rule (decide (s LE.OUT_LO_Q ≥ s LE.OUT_HI_Q)) (fs [LE.OUT_LO_Q, LE.OUT_HI_Q]) cPAIR ++
  rule (decide (s LE.MAN_OUT_Q < s LE.OUT_LO_Q ∨ s LE.OUT_HI_Q < s LE.MAN_OUT_Q)) (fs [LE.OUT_LO_Q, LE.OUT_HI_Q, LE.MAN_OUT_Q]) cPAIR ++
  srcs.flatMap (fun q => rule (ofCar q.1 && decide (g q.2 > 3)) (fs [q.1, q.2]) cRANGE) ++
  srcs.flatMap (fun q => rule (ofCar q.1 && !car (g q.2)) (fs [q.1, q.2]) cPAIR) ++
  rule (g LE.LOOP_CFG_OWN_EN == 1 && !car (g LE.LOOP_CFG_OWN)) (fs [LE.LOOP_CFG_OWN, LE.LOOP_CFG_OWN_EN]) cPAIR ++
  rest.flatMap (fun k => rule (sched k && !car (v LE.NT_CFG_CAR (tbl k) 0)) (part k [(LE.NT_CFG_CAR, tbl k, 0)]) cPAIR) ++
  rule (cog && !car (v LE.CT_CFG_CAR ct 0)) (cogF [] LE.CT_CFG_CAR) cPAIR ++
  rest.flatMap (fun k => rule (sched k && v LE.NT_STEP_UM (tbl k) 0 == 0) (part k [(LE.NT_STEP_UM, tbl k, 0)]) cZERO) ++
  rule (cog && v LE.CT_STEP_UM ct 0 == 0) (cogF [] LE.CT_STEP_UM) cZERO ++
  rule (cog && g LE.LOOP_CFG_COG_KIND == 1 && g LE.COG_VDB_UMS == 0) (fs [LE.LOOP_CFG_COG_EN, LE.LOOP_CFG_COG_KIND, LE.COG_VDB_UMS]) cZERO ++
  rule (g LE.LOOP_CFG_SUP_EN == 1 && g LE.SUP_CNT_N != 0 && g LE.SUP_THR_Q == 0) (fs [LE.LOOP_CFG_SUP_EN, LE.SUP_CNT_N, LE.SUP_THR_Q]) cZERO

/-- The first table whose staged bank holds unstable entries (R161). -/
def badSwap (d : Dev) (h : HalfId) (e new : Nat) : Option Nat :=
  (List.range 12).find? (fun t => decide (bitN new t ≠ d.leBank h e t) && d.get (pgLe h e) LE.TBL_BAD_COUNT 0 (t * 2 + bitN new t) != 0)

/-- Failing rules of an LE page: the loops that are enabled and of which a value, or one of a table they use, is staged, and the bank swap
(R160, R161). -/
def leRules (d : Dev) (h : HalfId) (e : Nat) (v : View) : List RuleFail :=
  let st := d.shadow.filter (fun x => x.page = pgLe h e)
  let touched (l : Nat) : Bool := st.any (fun x =>
    (x.t == l && decide (x.fld.tab = .leLoop)) ||
    ([LE.NT_CFG_CAR, LE.NT_X0_UM, LE.NT_STEP_UM].contains x.fld && (tablesOf v l).contains x.i) ||
    ([LE.CT_CFG_CAR, LE.CT_CFG_MOD, LE.CT_X0_UM, LE.CT_STEP_UM].contains x.fld && (tablesOf v l).contains (8 + x.i)))
  ((List.range 32).filter (fun l => v LE.LOOP_CFG_EN 0 l == 1 && touched l)).flatMap (d.loopFails h v) ++
  (if (d.badSwap h e (v LE.TBL_ACT_BANK 0 0)).isSome then [⟨[(LE.TBL_ACT_BANK, 0, 0)], cUNSTABLE⟩] else [])

/-- The values of a loop whose change makes its next sample a start sample (R154). -/
def leStartKey (d : Dev) (h : HalfId) (e l : Nat) : List Nat :=
  [LE.SP_SRC_CODE, LE.SP_SRC_IDX, LE.SP_SRC_SHR, LE.SPADD_SRC_CODE, LE.SPADD_SRC_IDX, LE.SPADD_SRC_SHR, LE.FB_SRC_CODE, LE.FB_SRC_IDX,
   LE.FB_SRC_SHR, LE.FF_SRC_CODE, LE.FF_SRC_IDX, LE.FF_SRC_SHR, LE.LOOP_CFG_NSEC, LE.LOOP_CFG_INT_SEC].map (fun f => d.get (pgLe h e) f 0 l)

/-- UNSTABLE: a bank swap has been held back, reported once for a staged swap (R169). -/
def unstable (d was : Dev) (h : HalfId) (e : Nat) : Dev :=
  let p := pgLe h e
  let held (x : Dev) : Option Staged := x.shadow.find? (fun y => decide (y.page = p) && decide (y.fld = LE.TBL_ACT_BANK) && y.recorded)
  match held was, held d with
  | none, some y => d.err p cUNSTABLE ((was.badSwap h e y.val.toNat).getD 0)
  | _, _ => d

/-- The SERVO event of an LE page (R154, R156, R161). The switch of R156 reaches from the event that selects manual mode to the first sample in it:
a `MAN_OUT` applied while automatic mode was selected is older than the switch (notes/assumptions/15.md). -/
def applyLe (d : Dev) (h : HalfId) (e : Nat) : Dev :=
  let p := pgLe h e
  let was := d
  let d := d.applyPage p none (d.leRules h e) 2 ((d.half h).servoCnt % 65536)
  let d := if d.get p LE.TBL_ACT_BANK ≠ was.get p LE.TBL_ACT_BANK then d.stat p 3 else d
  let d := d.unstable was h e
  let up := d.enabled p && !was.enabled p
  let man (x : Dev) (l : Nat) : Bool := (x.staged? p none LE.MAN_OUT_Q 0 l).isSome
  (List.range 32).foldl (fun d l =>
    if d.on p LE.LOOP_CFG_EN 0 l then
      let st := up || !was.on p LE.LOOP_CFG_EN 0 l || d.leStartKey h e l ≠ was.leStartKey h e l
      let auto := d.on p LE.LOOP_CFG_AUTO 0 l
      let nw := man was l && !man d l
      d.modLoop h e l (fun x => { x with start := x.start || st, manNew := !auto && (x.manNew || nw) })
    else d) d

/-- An abort of an engine (R158): every output holds. -/
def abortLe (d : Dev) (h : HalfId) (e : Nat) : Dev := d.abortPage (pgLe h e) true

end Dev

def execPlaus (h : HalfId) (e : Fin 3) (l : Fin 32) (s : State) : Host.Outcome State Fault Refusal :=
  onDev (fun d => d.lePlaus h e l) s

def execTblDataWrite (h : HalfId) (e : Fin 3) (v : Word) (s : State) : Host.Outcome State Fault Refusal :=
  onDev (fun d => d.tblWrite h e v.toNat) s

end Sys2Proof.Machine
end

