-- ==== Sys2Proof/Machine/Servo.lean ====
section
/-! DEFINITION. One servo period of a half and the servo state on the mirror link (spec/01_architecture.md, R43;
spec/12_redundancy.md, R350, R354). -/
namespace Sys2Proof.Machine

open Sys2Proof

namespace Dev

def modWeir (d : Dev) (f : Weir → Weir) : Dev := { d with weir := f d.weir }

def hlfState (d : Dev) (h : HalfId) : Nat := d.get (ctl .hlf h) HLF.STATE_OWN
def mirUp (d : Dev) : Bool := d.on (ctl .mir .a) MIR.LINK_UP

/-! ### The servo state -/

/-- Pages whose states travel each servo period, as page index and block (R42, class 1). -/
def servoPages : List (Nat × Blk) :=
  [(4, .mpg), (5, .mpg), (6, .mpg), (7, .mpg), (8, .sep), (12, .le), (13, .le), (14, .le), (16, .dax), (17, .dax), (18, .dax), (19, .dax),
   (20, .dax), (21, .dax), (22, .dax), (23, .dax), (24, .stp), (26, .pos)]

/-- The registers of a block that travel (R42, R159): of POS what fusion has published of each car, of the loop engine what loops hold and put out, but
neither the standby's check of its own tables nor the times and loops of its own run. -/
def servoFields : Blk → List Fld
  | .pos => [POS.CAR_X_UM, POS.CAR_V_UMS, POS.CAR_STAT_STATE, POS.CAR_STAT_ENC_LOST, POS.CAR_STAT_IN_DZ, POS.CAR_STAT_LEVEL, POS.CAR_STAT_UPPER_DZ,
      POS.CAR_STAT_LANDING, POS.CAR_STAT_BAD, POS.CAR_STAT_UPPER, POS.CAR_RESID_UM]
  | .le => Blk.le.stateFields.filter (fun f => f != LE.TBL_BAD_COUNT && f != LE.ENG_END_NS && f != LE.RUN_MAP_BITS)
  | b => b.stateFields

/-- The values of R354, Table 3, rows 1 to 4. -/
def servoCmp (d : Dev) (h : HalfId) : List (List Int) :=
  let n4 := List.range 4
  [n4.flatMap (fun n => if d.carEn h n then [d.carX h n, d.carV h n, (d.posState h n : Int)] else []),
   n4.flatMap (fun n =>
     let p := pgMpg h n
     [d.geti p MPG.SP_X_UM, d.geti p MPG.SP_V_UMS, d.geti p MPG.SP_A_UMS2, d.geti p MPG.SP_J_UMS3, (d.get p MPG.STATE_SEQ : Int), (d.get p MPG.STATE_MODE : Int)]),
   (List.range 3).flatMap (fun e => (List.range 32).map (fun l => d.geti (pgLe h e) LE.OUT_Q 0 l)),
   (List.range 8).flatMap (fun k => [d.geti (pgDax h k) DAX.SP_X_UM, d.geti (pgDax h k) DAX.SP_V_UMS, (d.daxMode h k : Int)])]

/-- The servo state of a half. -/
def servoState (d : Dev) (h : HalfId) : ServoState :=
  let x := d.half h
  ⟨servoPages.map (fun q => (q.1, (pageWords d.regs (h.n * 256 + q.1)).filter (fun e => keyIn (servoFields q.2) e.1))), x.mpg, x.sep, x.le, x.dax, x.stp,
    x.servoCnt, d.servoCmp h, x.pos.cars⟩

/-- Put a received servo state into the working registers of a half (R43, R61). The frames of the half's own present period stay, and its fusion
goes on from the position states received (R41, R356). -/
def takeServo (d : Dev) (h : HalfId) (s : ServoState) : Dev :=
  let d := s.words.foldl (fun d q =>
    let p := h.n * 256 + q.1
    let fs : List Fld := match pageBlk p with | some (b, _) => servoFields b | none => []
    let keep := (pageWords d.regs p).filter (fun e => !keyIn fs e.1)
    { d with regs := putWords (putWords (otherWords d.regs p) p keep) p q.2 }) d
  let d := d.modHalf h (fun x => { x with mpg := s.mpg, sep := s.sep, dax := s.dax, stp := s.stp, servoCnt := s.cnt,
                                          le := x.le.mapIdx (fun e y => let r := s.le.getD e y; { y with loops := r.loops, idx := r.idx, spd := r.spd }),
                                          pos := { x.pos with cars := x.pos.cars.mapIdx (fun n c => { (s.pos.getD n c) with frame := c.frame }) } })
  (List.range 4).foldl (fun d n => if d.carEn h n then d.modCopy h n (fun c => ⟨d.carX h n, d.carV h n, d.posState h n, c.vp⟩) else d) d

/-- Send the servo state of this period to the standby (R43 step 7). Packet counts and link times rest on a partition into packets
that the spec leaves open: free values (notes/assumptions/22.md). -/
def servoSend (d : Dev) (h : HalfId) : Dev :=
  let o := h.other
  if d.active h && d.mirrors o then
    let s := d.servoState h
    let r1 := d.fresh
    let r2 := r1.2.fresh
    let n := (r2.1.toNat) % 65536 + 1
    let d := ((r2.2.put (ctl .mir h) MIR.SERVO_T_NS (r1.1.toNat % 65536)).put (ctl .mir h) MIR.TX_PKT_COUNT
      (r2.2.get (ctl .mir h) MIR.TX_PKT_COUNT + n)).put (ctl .mir o) MIR.RX_PKT_COUNT (r2.2.get (ctl .mir o) MIR.RX_PKT_COUNT + n)
    d.modHlf o (fun x => { x with servoBuf := some s })
  else d

/-! ### The servo period (R43, R118, R174, R195) -/

/-- The frames of an export event go to the transmit buffers of the servo lane: one for each generator on CAN2 and one for each CAN axis on
CAN0, from the lease holder only, and none in the device safe state (R18, R23, R134, R209). -/
def exportFrames (d : Dev) (h : HalfId) : Dev :=
  if !(d.active h && d.holds h) || d.saf.deviceSafe || !d.exportNow h then d
  else
    let d := (List.range 4).foldl (fun d n =>
      let p := pgMpg h n
      if d.mpgOn h n then d.canLoad 2 n ⟨d.get p MPG.EXP_ID_ID, d.on p MPG.EXP_ID_IDE, true, true, 12, false, false, d.mpgFrame h n⟩ else d) d
    (List.range 8).foldl (fun d k =>
      let p := pgDax h k
      if d.daxSends h k then d.canLoad 0 k ⟨d.get p DAX.EXP_ID_ID, d.on p DAX.EXP_ID_IDE, true, true, 10, false, false, d.daxFrame h k⟩ else d) d

/-- Staged values of the SERVO pages (R43 step 1). -/
def servoApply (d : Dev) (h : HalfId) : Dev :=
  let was := d
  let d := (d.applyPos h).applySep h (fun n => was.carEn h n)
  let d := (List.range 4).foldl (fun d n => d.applyMpg h n) d
  let d := (List.range 3).foldl (fun d e => d.applyLe h e) d
  let d := (List.range 8).foldl (fun d k => d.applyDax h k) d
  d.applyStp h

/-- Positions (R43 steps 2 and 3): the encoders are latched, confirmed edges converted, and frames that no
POS_FUSE has fused are fused as those of this event. -/
def servoPos (d : Dev) (h : HalfId) : Dev :=
  if !d.enabled (ctl .pos h) then d
  else
    let d := ((d.latchEnc h).latchConvert h).modHalf h (fun x => { x with pos := { x.pos with fused := false } })
    if d.framesIn h then d.posFuse h else d

/-- Profiles, lanes, loops and doors (R43 steps 4 and 5). -/
def servoRun (d : Dev) (h : HalfId) : Dev :=
  let d := (List.range 16).foldl (fun d m => d.swShow h m) d
  let d := (d.makeRes h).sepTake h
  let d := (List.range 4).foldl (fun d n => d.mpgServo h n) d
  let d := d.sepClose h
  let exp := d.exportNow h
  let d := (List.range 4).foldl (fun d n => d.drvCheck h n exp) d
  let d := d.leRunAll h
  (List.range 8).foldl (fun d k => d.daxServo h k) d

/-- Exports since the first publish of a new holder count towards a proof of it (R359). -/
def proofExport (d : Dev) (h : HalfId) : Dev :=
  match d.weir.proof with
  | some (q, true, n) => if q = h ∧ d.active h ∧ d.exportNow h then d.modWeir (fun w => { w with proof := some (q, true, n - 1) }) else d
  | _ => d

/-- The first motion intent after a cold takeover carries COLD: every moving car takes a DEVICE stop (R356, Table 4). -/
def coldIntent (d : Dev) (h : HalfId) : Dev :=
  if d.active h && (d.hlf h).cold then (d.modHlf h (fun x => { x with cold := false })).deviceStop else d

/-- A SERVO event of a half (R43). -/
def servoEvent (d : Dev) (h : HalfId) : Dev :=
  if !d.running h then d
  else
    let T := d.servoT h
    let d := d.modHalf h (fun x => { x with servoCnt := x.servoCnt + 1 })
    let d := (List.range 4).foldl (fun d n => d.mpgAdvance h n T) d
    let d := (((d.servoApply h).servoPos h).servoRun h).coldIntent h
    let d := (List.range 4).foldl (fun d n => d.mpgSeq h n) (d.doorStamp h)
    let d := d.exportFrames h
    let d := (List.range 8).foldl (fun d k => d.daxSeq h k) d
    (d.servoSend h).proofExport h

/-- The servo lane is written once every engine has completed or reached its deadline (R152): after loops were found late, the frames
that wait carry the torque demand that holds, and so does the servo state of the period, which is sent after it (R43, steps 6 and 7). -/
def loopLate (d : Dev) (h : HalfId) (e k : Nat) : Dev :=
  let d := d.leLate h e k
  let d := if d.active h && (d.hlf h.other).servoBuf.isSome then
      let st := d.servoState h
      d.modHlf h.other (fun x => { x with servoBuf := some st })
    else d
  if !(d.active h && d.holds h) || !d.exportNow h || d.saf.deviceSafe then d
  else (List.range 4).foldl (fun d n => if d.mpgOn h n && d.canPend 2 n then d.put (pgCan 2) CAN.TXB_D (d.mpgTrq h n) 3 n else d) d

end Dev

def execServoEvent (h : HalfId) (s : State) : Host.Outcome State Fault Refusal := onDev (fun d => d.servoEvent h) s

/-- The deadline of an engine passes with the loops from `k` on not completed (R152). -/
def execLoopLate (h : HalfId) (e : Fin 3) (k : Fin 32) (s : State) : Host.Outcome State Fault Refusal :=
  onDev (fun d => if d.running h then d.loopLate h e k else d) s

end Sys2Proof.Machine
end

