-- ==== Sys2Proof/Machine/Gate.lean ====
section
/-! DEFINITION. The commit gate over every page, and the committed configuration (spec/02_register_conventions.md, R50, R58, R69 to R73;
spec/19_power_boot_straps.md, R539). -/
namespace Sys2Proof.Machine

open Sys2Proof

def cCFG_PENDING : Nat := 0xB3
def cCFG_VERIFY : Nat := 0xB4
def cCFG_NO_GEN : Nat := 0xB5

namespace Dev

/-! ### The event of one page -/

/-- One event of a page, numbered `seq` under the boundary code `bnd`; a page of a shared region applies the shadow of the half given. -/
def applyOf (d : Dev) (p : Nat) (h : HalfId) (bnd seq : Nat) : Dev :=
  match pageBlk p with
  | none => d
  | some (b, n) =>
    match b with
    | .pos => d.applyPos h
    | .sep => d.applySep h (fun n => d.carEn h n)
    | .mpg => d.applyMpg h n
    | .le => d.applyLe h n
    | .dax => d.applyDax h n
    | .stp => d.applyStp h
    | .cyx => d.applyPage p none (d.cyxRules h) bnd seq
    | .frc => d.applyFrc h seq
    | .shl => d.applyShl h bnd seq
    | .can => d.canFrameEvent n false
    | .glk => (d.glkBegin).applyGlk bnd seq
    | .rsm => d.applyRsm h bnd seq
    | .din => d.applyDin h bnd seq
    | .dout => d.applyDout h bnd seq
    | .ain => d.applyAin h bnd seq
    | .aout => d.applyAout h bnd seq
    | .trm => d.applyTrm h
    | .rtc => d.applyRtc h seq
    | .cal => d.applyCal h seq
    | .tmc | .mir | .hlf | .sbk | .hst | .wir | .sfc | .smb | .ths | .sio | .spb | .cfg | .slt | .nvm | .enc | .bot | .pwr =>
      d.applyPage p none (fun _ => []) bnd seq

/-! ### What the configuration holds (R69) -/

/-- Pages of a half's CTL region in the order in which they are configured: those whose rules others read come first. -/
def cfgCtl (h : HalfId) : List Nat :=
  [ctl .pos h, ctl .sep h] ++ (List.range 4).map (pgMpg h) ++ (List.range 3).map (pgLe h) ++ (List.range 8).map (pgDax h) ++
  ([.stp, .cyx, .tmc, .shl, .mir, .hlf] : List Blk).map (fun b => ctl b h)

/-- Pages of the shared regions that the configuration covers. -/
def cfgShared : List Nat :=
  (List.range 4).map pgCan ++
    ([.glk, .hst, .rsm, .wir, .din, .dout, .ain, .aout, .trm, .cfg, .rtc, .cal, .slt, .nvm, .enc, .pwr] : List Blk).map shp

/-- Registers that keep their own store: the trims, and the RTC and CAL registers of the always-on domain (R69, R459). -/
def ownStore : List Fld :=
  [TRM.AO_ZERO_U, TRM.AO_SPAN_U, RTC.TRIM_PPB, RTC.ALM_LO, RTC.ALM_HI, RTC.ALM_PER_S, RTC.ALM_CTL_ARM, RTC.ALM_CTL_REARM]

/-- The calendar set values are arguments of the set that their apply starts (R69, R471). -/
def argRegs : List Fld := [CAL.SETV0, CAL.SETV1]

/-- The field, array index and entry that a key relative to its page stands for. -/
def keyFld (p k : Nat) : Option (Fld × Nat × Nat) :=
  let lo := k / 65536 % 32
  let off := k / 65536 / 32
  ((fieldsAt p off).find? (fun x => x.1.lo == lo)).map (fun x => (x.1, x.2, k % 65536))

/-- Whether a word is a covered setting: an RS register without a store of its own, or an entry of the active bank of a table. -/
def cfgKeeps (d : Dev) (p k : Nat) : Bool :=
  match keyFld p k, pageBlk p with
  | some (f, _, t), some (b, n) =>
    (decide (accOn p f = .rs) && !(f.off ≥ 0x40 && ((decide (b = .trm) || decide (b = .rtc)) && ownStore.contains f || decide (b = .cal) && argRegs.contains f))) ||
      (decide (f = LE.TBL_DATA_WORD) && t / 2048 % 2 == d.leBank ((halfOfPage p).getD .a) n (t / 4096) && decide (b = .le))
  | _, _ => false

/-- The covered words of the lease holder's CTL region and of the shared regions; CTL pages are kept as those of Half A. -/
def cfgImage (d : Dev) (h : HalfId) : List (Nat × Word) :=
  (cfgCtl h ++ cfgShared).flatMap (fun p =>
    let q := if bankOf p ≤ 1 then p % 256 else p
    ((pageWords d.regs p).filter (fun e => d.cfgKeeps p e.1)).map (fun e => (q * pageSpan + e.1, e.2)))

/-- Whether a covered page of the lease holder waits with a rejected or pending value (R70, 1). -/
def cfgPending (d : Dev) (h : HalfId) : Bool :=
  (cfgCtl h ++ cfgShared).any (fun p =>
    let ct := match pageBlk p with | some (b, _) => if b.perHalf then h.n else 0 | none => 0
    decide (d.get p HDR.COMMIT_RESULT 0 ct ≥ 2))

/-! ### Generations (R70, R71) -/

def modStore (d : Dev) (f : Store → Store) : Dev := { d with store := f d.store }
def gen? (d : Dev) (a : Nat) : Option Gen := d.store.areas.getD a none
def genOk (d : Dev) (a : Nat) : Option Gen := (d.gen? a).filter (fun g => g.ok)
/-- Number of the committed generation; 0 means reset values. -/
def genNum (d : Dev) : Nat := ((d.store.committed.bind d.gen?).map (fun g => g.num)).getD 0

/-- Show the committed generation and the validity of the areas. -/
def cfgShow (d : Dev) : Dev :=
  let p := shp .cfg
  let g := d.store.committed.bind d.gen?
  let d := (d.put p CFG.GEN_COMMITTED d.genNum).put64 p CFG.GEN_TS_LO CFG.GEN_TS_HI ((g.map (fun g => g.ts)).getD 0)
  let d := (d.put p CFG.GEN_CRC_CRC ((g.map (fun g => g.crc)).getD 0)).put p CFG.GEN_LEN_BYTES ((g.map (fun g => g.len)).getD 0)
  (d.putb p CFG.AREA_VALID_A (d.genOk 0).isSome).putb p CFG.AREA_VALID_B (d.genOk 1).isSome

/-- A refusal of a CFG command: `ERR` and `SAVE_ST.REASON`. -/
def cfgRefuse (d : Dev) (why : Nat) : Dev := (d.put (shp .cfg) CFG.SAVE_ST_REASON why).err (shp .cfg) why

/-- The record of a command with the generation numbers before and after (R71). -/
def cfgNote (d : Dev) (w : Who) (op before : Nat) : Dev := d.noteBy w (shp .cfg) clsState 0 op [before, d.genNum]

/-- SAVE (R70, 1). Its record stands for the command, before a new generation exists: it carries the present number as both (R71;
notes/assumptions/43.md). -/
def cfgSave (d : Dev) (w : Who) : Dev :=
  let p := shp .cfg
  let st := d.get p CFG.SAVE_ST_STATE
  let d := d.cfgNote w 1 d.genNum
  if st = 1 ∨ st = 2 then d.cfgRefuse cBUSY
  else if d.cfgPending d.holder then d.cfgRefuse cCFG_PENDING
  else ((d.put p CFG.SAVE_ST_STATE 1).put p CFG.SAVE_ST_REASON 0).modStore (fun s => { s with waiting := some (w.mid, d.roleOf w), captured := none })

/-- At a CYCLE event of the lease holder a SAVE that waits freezes the covered pages until its capture ends (R70, 2). -/
def cfgCycle (d : Dev) (h : HalfId) : Dev := if d.holds h && d.store.waiting.isSome then { d with cfgFrozen := true } else d

/-- The capture ends: the generation is complete, and covered pages apply again (R70, 2 and 3). Its length and CRC rest on a layout the
spec does not give: free values. -/
def cfgCapture (d : Dev) : Dev :=
  match d.cfgFrozen, d.store.waiting with
  | true, some (mid, role) =>
    let r1 := d.fresh
    let r2 := r1.2.fresh
    let num := (((d.store.areas.filterMap id).map (fun g => g.num)).foldl max 0) + 1
    let g : Gen := ⟨num, d.now, mid, role, r1.1.toNat, r2.1.toNat % 2 ^ 25, true, d.cfgImage d.holder⟩
    ({ r2.2 with cfgFrozen := false }.put (shp .cfg) CFG.SAVE_ST_STATE 2).modStore (fun s => { s with waiting := none, captured := some g })
  | _, _ => d

/-- The generation is written into the other area, read back and committed, or the read-back fails (R70, 3 to 5). With none committed it goes into
area A (notes/assumptions/43.md). -/
def cfgDone (d : Dev) (ok : Bool) : Dev :=
  let p := shp .cfg
  match d.store.captured with
  | none => d
  | some g =>
    let a := match d.store.committed with | some 0 => 1 | some _ => 0 | none => 0
    let d := (d.modStore (fun s => { s with areas := lset s.areas a (some { g with ok := ok }), captured := none })).stat p 0
    if ok then
      let d := ((d.modStore (fun s => { s with committed := some a })).put p CFG.SAVE_ST_STATE 3).cfgShow
      d.note p clsState 0 0 [g.num, g.crc, g.len]
    else (((d.put p CFG.SAVE_ST_STATE 4).put p CFG.SAVE_ST_REASON cCFG_VERIFY).err p cCFG_VERIFY).cfgShow |>.note p clsState cCFG_VERIFY 0
      [g.num, g.crc, g.len]

/-- An abort of CFG (R67): a SAVE in progress ends FAILED, the freeze of its capture is lifted, and the previous generation stays committed;
its STATE record (R70) is that of a capture taken, or zeros before one. -/
def abortCfg (d : Dev) : Dev :=
  let p := shp .cfg
  let st := d.get p CFG.SAVE_ST_STATE
  let d := if st = 1 ∨ st = 2 then
      let g := (d.store.captured.map (fun g => [g.num, g.crc, g.len])).getD [0, 0, 0]
      ((({ d with cfgFrozen := false }.modStore (fun s => { s with waiting := none, captured := none })).put p CFG.SAVE_ST_STATE 4).put p
        CFG.SAVE_ST_REASON cABORTED).stat p 0 |>.note p clsState cABORTED 0 g
    else d
  d.abortPage p false

/-- REVERT (R71): the other valid generation; with none committed, the newest valid one. -/
def cfgRevert (d : Dev) (w : Who) : Dev :=
  let was := d.genNum
  let other : Option Nat :=
    match d.store.committed with
    | some a => if (d.genOk (1 - a)).isSome then some (1 - a) else none
    | none =>
      match d.genOk 0, d.genOk 1 with
      | some x, some y => some (if x.num ≥ y.num then 0 else 1)
      | some _, none => some 0
      | none, some _ => some 1
      | none, none => none
  match other with
  | some a => ((d.modStore (fun s => { s with committed := some a })).cfgShow).cfgNote w 2 was
  | none => (d.cfgRefuse cCFG_NO_GEN).cfgNote w 2 was

/-- FACTORY (R71). -/
def cfgFactory (d : Dev) (w : Who) : Dev :=
  let was := d.genNum
  ((d.modStore (fun s => { s with committed := none })).cfgShow).cfgNote w 3 was

/-- `CFG.CMD` (R72, Table 11). -/
def cfgCmd (d : Dev) (w : Who) (op : Nat) : Dev :=
  match op with
  | 1 => d.cfgSave w
  | 2 => d.cfgRevert w
  | 3 => d.cfgFactory w
  | _ => d

/-- A read of `CFG.RD_DATA` (R72): the stored word, whose place in the generation the spec does not give, is a free value; `RD_ADDR` advances. -/
def cfgRead (d : Dev) : Dev :=
  let p := shp .cfg
  let a := d.get p CFG.RD_ADDR_WORD
  let r := d.fresh
  let v := if (d.gen? (d.get p CFG.RD_SEL_AREA)).isSome then r.1 else 0
  { (r.2.put p CFG.RD_ADDR_WORD (a + 1)) with resp := ⟨[v], false, 0⟩ }

/-! ### Application (R71, R539) -/

/-- The stored words of a page. -/
def genRows (g : Gen) (p : Nat) : List (Nat × Word) := pageWords g.rows (if bankOf p ≤ 1 then p % 256 else p)

/-- Apply the stored words of one page: checked against its rules as staged values are, written directly, and left at reset values as a
whole if any is refused. -/
def cfgPage (d : Dev) (g : Gen) (h : HalfId) (p : Nat) : Dev :=
  let rows := (genRows g p).filterMap (fun e => (keyFld p e.1).map (fun x => (x, e.2)))
  if rows.isEmpty then d
  else
    let half := match pageBlk p with | some (b, _) => if b.perHalf then some h else none | none => none
    let own := (halfOfPage p).getD h
    let kept := d.shadow.filter (fun e => decide (e.page = p ∧ e.half = half))
    let rest := d.shadow.filter (fun e => !decide (e.page = p ∧ e.half = half))
    let d1 := (rows.filter (fun r => decide (accOn p r.1.1 = .rw))).foldl (fun d r => d.put p r.1.1 r.2.toNat r.1.2.1 r.1.2.2) d
    let mine := (rows.filter (fun r => decide (accOn p r.1.1 = .rs))).map (fun r => (⟨p, r.1.1, r.1.2.1, r.1.2.2, half, r.2, cfgMid, 0, true⟩ : Staged))
    let d2 := { d1 with shadow := rest ++ mine }.applyOf p own 0 0
    let hdr (x : Dev) : Dev :=
      let ct := commitIdx half
      ([(HDR.COMMIT_SEQ, ct), (HDR.COMMIT_RESULT, ct), (HDR.COMMIT_REASON, ct), (HDR.STAT_APPLIED, 0)] : List (Fld × Nat)).foldl
        (fun x q => x.put p q.1 (d.get p q.1 0 q.2) 0 q.2) x
    if d2.shadow.any (fun e => decide (e.page = p ∧ e.half = half)) then
      let c := shp .cfg
      let n := regionOf p * 256 + p % 256
      ((d.put c CFG.BOOT_FAIL_PAGE n).stat c 2).note c clsFault cPAIR n
    else hdr { d2 with shadow := d2.shadow ++ kept }

/-- The generation a boot applies: the committed one if its CRC passes, else the other valid one, else none (R71). -/
def bootGen (d : Dev) : Option Gen × Bool :=
  match d.store.committed with
  | none => (none, false)
  | some a => match d.genOk a with
    | some g => (some g, false)
    | none => (d.genOk (1 - a), true)

/-- Apply the configuration to the pages of one half's CTL region. -/
def cfgHalf (d : Dev) (h : HalfId) : Dev :=
  match d.bootGen.1 with
  | some g => (cfgCtl h).foldl (fun (d : Dev) p => d.cfgPage g h p) d
  | none => d

/-- The boot application: every page, one STATE record from BOT that names the configuration, `GEN.BOOTED`, and a FAULT record where the
fallback was taken (R71, R539). -/
def cfgBoot (d : Dev) (h : HalfId) : Dev :=
  let c := shp .cfg
  let b := d.bootGen
  let num := (b.1.map (fun g => g.num)).getD 0
  let d := if b.2 then d.fault c cCFG_VERIFY 0 [num] else d
  let d := if b.2 || b.1.isNone then d.stat c 1 else d
  let d := match b.1 with
    | some g => (cfgCtl .a ++ cfgCtl .b ++ cfgShared).foldl (fun (d : Dev) p => d.cfgPage g h p) d
    | none => d
  (d.put c CFG.GEN_BOOTED num).note (shp .bot) clsState 0 0 [num]

end Dev

/-! ### Meanings -/

/-- The requester writes `CFG.CMD` = SAVE with the privilege and role it needs. -/
def execCfgSave (mid : BitVec 8) (mach : Bool) (s : State) : Host.Outcome State Fault Refusal := onDev (fun d => d.cfgSave ⟨mid.toNat, mach⟩) s
def execCfgSaveCapture (s : State) : Host.Outcome State Fault Refusal := onDev (fun d => d.cfgCapture) s
def execCfgSaveDone (ok : Bool) (s : State) : Host.Outcome State Fault Refusal := onDev (fun d => d.cfgDone ok) s
def execCfgRevert (mid : BitVec 8) (mach : Bool) (s : State) : Host.Outcome State Fault Refusal := onDev (fun d => d.cfgRevert ⟨mid.toNat, mach⟩) s
def execCfgFactory (mid : BitVec 8) (mach : Bool) (s : State) : Host.Outcome State Fault Refusal := onDev (fun d => d.cfgFactory ⟨mid.toNat, mach⟩) s
def execCfgRdDataRead (s : State) : Host.Outcome State Fault Refusal := onDev (fun d => d.cfgRead) s

end Sys2Proof.Machine
end

