-- ==== Sys2Proof/Machine/Silt.lean ====
section
/-! DEFINITION. The event recorder Silt: the writer, pages and their chain, cursors, export, verification and clearing
(spec/17_silt_recorder.md, R476 to R495). -/
namespace Sys2Proof.Machine

open Sys2Proof

/-! ### Codes (R495, Table 7; R489, Table 4) -/
def cSLT_LOST : Nat := 0xC8
def cSLT_FULL : Nat := 0xC9
def cSLT_NEAR_FULL : Nat := 0xCA
def cSLT_GONE : Nat := 0xCB
def cSLT_CHAIN : Nat := 0xCC
def cSLT_NONCE : Nat := 0xCD
def cSLT_WEAR : Nat := 0xCE
def cSLT_CLEARING : Nat := 0xCF

/-- The first 128 bits of a SHAKE256 digest (R485). -/
def digest128 (m : List Byte) : BitVec 128 := BitVec.ofNat 128 (Config.shake256 m).toNat

def bytes128 (x : BitVec 128) : List Byte := (leBytes 16 x.toNat).map (BitVec.ofNat 8)

/-- The bytes of a record: header, HCRC and padded payload (R476, Table 1). -/
def Rec.out (r : Rec) : List Byte :=
  let h := leBytes 8 r.ts ++ leBytes 4 r.seq ++ leBytes 2 r.len ++ [r.cls, r.code, r.src, r.page, r.mid, r.priv] ++ leBytes 2 r.detail
  (h ++ leBytes 2 (crc16 h) ++ pad8 r.payload).map (BitVec.ofNat 8)

/-- Data bytes of a page (R484, Table 3). -/
def pageData : Nat := 4048

/-- Bytes 0 to 4,079 of a page. -/
def SiltPage.body (p : SiltPage) : List Byte :=
  (leBytes 8 p.pseq ++ leBytes 8 p.ts ++ leBytes 4 p.fseq ++ leBytes 2 p.first ++ [p.flags, 1] ++ leBytes 4 p.clearCnt ++ leBytes 4 0).map
    (BitVec.ofNat 8) ++ p.data ++ List.replicate (pageData - p.data.length) 0

/-- The whole page with its seal. -/
def SiltPage.bytes (p : SiltPage) : List Byte := p.body ++ bytes128 p.sealVal

/-- The seal of a page after the seal of the previous page (R485). -/
def SiltPage.sealOf (prev : BitVec 128) (p : SiltPage) : BitVec 128 := digest128 (bytes128 prev ++ p.body)

/-! ### Reading the stream (R489) -/

/-- A record as readers find it: SEQ, the page it starts in, whether it reads with an uncorrectable error, its bytes. -/
structure Entry where
  seq : Nat
  pseq : Nat
  ecc : Bool
  bytes : List Byte

/-- Records that start in the rest of a page; `after` are the bytes of the pages behind it. -/
def entriesIn (pseq : Nat) (ecc : Bool) (after : List Byte) : Nat → List Byte → List Entry
  | 0, _ => []
  | n + 1, bs =>
    if bs.isEmpty then []
    else
      let all := (bs ++ after).map BitVec.toNat
      let total := 24 + (leAt all 12 2 + 7) / 8 * 8
      ⟨leAt all 8 4, pseq, ecc, (bs ++ after).take total⟩ :: entriesIn pseq ecc after n (bs.drop total)

/-- Every record that starts in one of the pages, oldest first; a record that spans a bad page reads with an error. -/
def entriesOf : List SiltPage → List Entry
  | [] => []
  | p :: ps =>
    let after := (ps.take 2).flatMap (fun q => q.data)
    (if p.first = 0xFFFF then [] else entriesIn p.pseq (p.ecc || (ps.take 1).any (fun q => q.ecc && q.first != 0)) after 200 (p.data.drop p.first)) ++
      entriesOf ps

namespace Dev

def modSilt (d : Dev) (f : Silt → Silt) : Dev := { d with silt := f d.silt }

/-- Every record readers see. -/
def entries (d : Dev) : List Entry := entriesOf (d.silt.pages ++ [d.silt.cur])

/-! ### The writer (R482 to R487) -/

/-- Pages used, in percent of those usable. -/
def siltPct (d : Dev) : Nat := (d.silt.pages.length + 1) * 100 / max 1 (d.get (shp .slt) SLT.PAGES_TOTAL)

/-- What the fill level raises (R487): SLT_NEAR_FULL once, SLT_FULL in HOLD mode once 64 free pages remain and again when none does; an erasure
stays shown as CLEARING. -/
def siltLevel (d : Dev) : Dev :=
  let p := shp .slt
  let pct := d.siltPct
  let d := d.put p SLT.FILL_PCT (min 100 pct)
  let d := if pct ≥ d.get p SLT.CFG_WARN_PCT && !d.silt.nearFull then
      ((d.modSilt (fun s => { s with nearFull := true })).stat p 1).err p cSLT_NEAR_FULL else d
  let st := d.get p SLT.STATE_CODE
  if d.on p SLT.CFG_FULL_MODE && (d.siltFree == 0 || (decide (d.siltFree ≤ 64) && st != 2)) then
    ((if st = 1 then d else d.put p SLT.STATE_CODE 2).stat p 2).err p cSLT_FULL
  else d

/-- The oldest kept page, the open page and the next SEQ as their registers show them (R490, R494). -/
def sltRing (d : Dev) : Dev :=
  let p := shp .slt
  let old := ((d.silt.pages.head?).map SiltPage.pseq).getD d.silt.cur.pseq
  ((d.put64 p SLT.OLDEST_LO SLT.OLDEST_HI old).put64 p SLT.NEWEST_LO SLT.NEWEST_HI d.silt.cur.pseq).put p SLT.NEXT_SEQ_SEQ d.silt.nextSeq

/-- Seal the open page and start the next; in WRAP mode a full ring gives up its oldest page, whose seal becomes the anchor. -/
def siltSeal (d : Dev) (flags : Nat) : Dev :=
  let s := d.silt
  let pg := { s.cur with flags := s.cur.flags.lor flags }
  let sl := pg.sealOf s.lastSeal
  let done := { pg with sealVal := sl }
  let pages := s.pages ++ [done]
  let over_ := !d.on (shp .slt) SLT.CFG_FULL_MODE && decide (pages.length ≥ d.get (shp .slt) SLT.PAGES_TOTAL)
  let anchor := if over_ then ((pages.head?).map SiltPage.sealVal).getD s.anchor else s.anchor
  let pages := if over_ then pages.drop 1 else pages
  (d.modSilt (fun s => { s with pages := pages, cur := SiltPage.empty (pg.pseq + 1) 0 (d.get (shp .slt) SLT.CLEAR_CNT_N), lastSeal := sl, anchor := anchor })).siltLevel.sltRing

/-- Append bytes to the stream, sealing each page as its data area fills. -/
def siltStream (d : Dev) : Nat → List Byte → Dev
  | 0, _ => d
  | n + 1, bs =>
    let room := pageData - d.silt.cur.data.length
    let d := d.modSilt (fun s => { s with cur := { s.cur with data := s.cur.data ++ bs.take room } })
    let d := if d.silt.cur.data.length ≥ pageData then d.siltSeal 0 else d
    if (bs.drop room).isEmpty then d else siltStream d n (bs.drop room)

/-- Write one record: its SEQ, the page fields of the first record that starts in a page, its bytes. -/
def siltAppend (d : Dev) (r : Rec) : Dev :=
  let r := { r with seq := d.silt.nextSeq }
  let d := d.modSilt (fun s => { s with
    nextSeq := (s.nextSeq + 1) % 2 ^ 32,
    cur := if s.cur.first = 0xFFFF then { s.cur with ts := r.ts, fseq := r.seq, first := s.cur.data.length } else s.cur })
  (d.siltStream 3 r.out).sltRing

/-- Whether the ring takes a record of a class now (R487). -/
def ringTakes (d : Dev) (cls : Nat) : Bool :=
  !d.on (shp .slt) SLT.CFG_FULL_MODE || (if protectedCls cls then d.siltFree != 0 else decide (d.siltFree > 64))

/-- The writer takes the next record: protected classes first (R482); what HOLD mode excludes is lost. -/
def siltWrite (d : Dev) : Dev :=
  let p := shp .slt
  match d.silt.qProt ++ d.silt.qUn with
  | [] => d
  | r :: _ =>
    let d := d.modSilt (fun s => match s.qProt with | _ :: q => { s with qProt := q } | [] => { s with qUn := s.qUn.drop 1 })
    let d := d.put p SLT.QUEUE_USED d.silt.used
    if d.ringTakes r.cls then d.siltAppend r else d.lose r

/-- A record of class SILT (R477; Table 4). -/
def siltNote (d : Dev) (code : Nat) (words : List Nat) : Dev := d.note (shp .slt) clsSilt code 0 words

/-- The end of a loss episode: at least 1,024 entries are free to the group (R483). -/
def siltLossEnd (d : Dev) (prot : Bool) : Dev :=
  let freeE := (4096 - d.silt.used) - (if prot then 0 else 512)
  match (if prot then d.silt.lossProt else d.silt.lossUn) with
  | none => d
  | some l =>
    if freeE < 1024 then d
    else (d.modSilt (fun s => if prot then { s with lossProt := none } else { s with lossUn := none })).siltNote 2
      [l.count, l.tsFirst % 2 ^ 32, l.tsFirst / 2 ^ 32, l.tsLast % 2 ^ 32, l.tsLast / 2 ^ 32]

/-- The seal that stands before a page of the ring; a page behind a retired block has none that is kept, and does not verify (notes/assumptions/38.md). -/
def sealBefore (d : Dev) (pseq : Nat) : BitVec 128 :=
  ((d.silt.pages.find? (fun q => q.pseq + 1 == pseq)).map SiltPage.sealVal).getD d.silt.anchor

/-- Whether a sealed page fails verification. -/
def pageBad (d : Dev) (q : SiltPage) : Bool := q.ecc || q.sealVal != SiltPage.sealOf (d.sealBefore q.pseq) q

/-- What the first failing page of a verification reports: ECC for one that reads with an uncorrectable error (R488), else SLT_CHAIN (R495). -/
def pageFails (d : Dev) (q : SiltPage) : Dev := d.err (shp .slt) (if q.ecc then cECC else cSLT_CHAIN) (q.pseq % 65536)

/-- What the part does at power-up before recording resumes (R486); queued records are lost. -/
def siltBoot (d : Dev) : Dev :=
  let d := d.modSilt (fun s => { s with qProt := [], qUn := [], lossProt := none, lossUn := none, copying := List.replicate 4 none, exps := List.replicate 4 none,
                                        vfy := none, nonce := none, token := none, cursors := List.replicate 4 ⟨none, []⟩ })
  let d := if d.silt.erasing.isEmpty then d else (d.put (shp .slt) SLT.STATE_CODE 1).put (shp .slt) SLT.CLR_ST_STATE 1
  let d := d.siltSeal 1
  let last := d.silt.pages.reverse.take 16
  match last.reverse.find? d.pageBad with
  | some q => (d.pageFails q).siltNote 4 [q.pseq % 2 ^ 32, q.pseq / 2 ^ 32, q.ecc.toNat]
  | none => d

/-- A block of the partition is retired (R488): its pages are lost, with a RETIRED record; the anchor is the seal before the oldest page kept (R485). -/
def siltRetire (d : Dev) (block first last : Nat) : Dev :=
  let p := shp .slt
  let was := d.get p SLT.PAGES_TOTAL
  let kept := d.silt.pages.filter (fun q => !(decide (first ≤ q.pseq ∧ q.pseq ≤ last)))
  let d := d.modSilt (fun s => { s with
    pages := kept, retired := s.retired + 16, anchor := d.sealBefore (((kept.head?).map SiltPage.pseq).getD s.cur.pseq) })
  let d := (d.sltRing.put p SLT.PAGES_TOTAL (was - 16)).siltLevel.siltNote 3 [block, first % 2 ^ 32, first / 2 ^ 32, last % 2 ^ 32, last / 2 ^ 32]
  let full := was - 16 + d.silt.retired
  if d.silt.retired * 100 > full && !decide ((d.silt.retired - 16) * 100 > full) then (d.stat p 5).err p cSLT_WEAR else d

/-! ### Posts of firmware (R481) -/

/-- POST_GO. -/
def sltPostGo (d : Dev) (w : Who) : Dev :=
  let p := shp .slt
  let g := w.sltGrp
  if (match w.half? with | some h => !d.holds h | none => false) then d.put p SLT.POST_ST_STATE 4 0 g
  else if (d.silt.copying.getD g none).isSome then d
  else
    let len := d.get p SLT.POST_LEN_N 0 g
    let a := d.get p SLT.POST_ADDR_ADDR 0 g
    let m := (d.half (w.half?.getD d.holder)).sram
    let r : Rec := ⟨d.now, 0, len, if len = 0 then 0 else 0xA, d.get p SLT.POST_CODE_CODE 0 g, srcOf p, p % 256, w.mid, d.privByte w,
      d.get p SLT.POST_DETAIL_D 0 g, (memReads m a len).map BitVec.toNat⟩
    (d.modSilt (fun s => { s with copying := lset s.copying g (some r) })).put p SLT.POST_ST_STATE 1 0 g

/-- The copy ends: the record is queued, or lost (R480, R481). -/
def sltPostDone (d : Dev) (g : Nat) : Dev :=
  let p := shp .slt
  match d.silt.copying.getD g none with
  | none => d
  | some r =>
    let st := if d.siltTakes r then 2 else 3
    ((d.modSilt (fun s => { s with copying := lset s.copying g none })).post r).put p SLT.POST_ST_STATE st 0 g

/-! ### Cursors (R489) -/

/-- Capture a record for a group. -/
def sltShow (d : Dev) (g : Nat) (e : Entry) : Dev :=
  let p := shp .slt
  if e.ecc then (d.modSilt (fun s => { s with cursors := lmod s.cursors g (fun c => { c with seq := some e.seq }) })).put p SLT.CUR_ST_STATE 3 0 g
  else
    let bs := e.bytes.map BitVec.toNat
    let d := d.modSilt (fun s => { s with cursors := lset s.cursors g ⟨some e.seq, (bs.drop 24).take (leAt bs 12 2)⟩ })
    let d := (List.range 6).foldl (fun d i => d.put p SLT.RD_H (leAt bs (4 * i) 4) i g) d
    d.put p SLT.CUR_ST_STATE 1 0 g

/-- Show what a cursor command found: nothing is NONE. -/
def sltFound (d : Dev) (g : Nat) (e : Option Entry) : Dev :=
  match e with
  | some e => d.sltShow g e
  | none => d.put (shp .slt) SLT.CUR_ST_STATE 0 0 g

/-- NEXT and PREV from the cursor's record: GONE when it has been replaced; after a bad page the next page follows. -/
def sltStep (d : Dev) (g : Nat) (es : List Entry) : Dev :=
  match (d.silt.cursors.getD g ⟨none, []⟩).seq with
  | none => d.put (shp .slt) SLT.CUR_ST_STATE 0 0 g
  | some q =>
    match es.findIdx? (fun e => e.seq == q) with
    | none => (d.put (shp .slt) SLT.CUR_ST_STATE 2 0 g).err (shp .slt) cSLT_GONE g
    | some i =>
      let rest := es.drop (i + 1)
      let bad := match es[i]? with | some e => e.ecc | none => false
      let at_ := match es[i]? with | some e => e.pseq | none => 0
      d.sltFound g ((if bad then rest.filter (fun e => !(e.ecc && e.pseq == at_)) else rest).head?)

/-- RD_DATA: the payload word at `RD_POFS`, which advances by 4. -/
def sltRdData (d : Dev) (g : Nat) : Dev :=
  let p := shp .slt
  let o := d.get p SLT.RD_POFS_OFS 0 g
  let w := leAt (d.silt.cursors.getD g ⟨none, []⟩).payload o 4
  { d with resp := ⟨[BitVec.ofNat 32 w], false, 0⟩ }.put p SLT.RD_POFS_OFS (o + 4) 0 g

/-- CAPTURE (R490). -/
def sltCapture (d : Dev) : Dev :=
  let p := shp .slt
  let s := d.silt
  let d := d.sltRing
  (List.range 4).foldl (fun d i => (d.put p SLT.SEAL (s.lastSeal.toNat / 2 ^ (32 * i)) i).put p SLT.ANCHOR (s.anchor.toNat / 2 ^ (32 * i)) i) d

/-! ### Export and verification (R490) -/

/-- The half whose SRAM a group's transfers use: its own, or the lease holder's for the host link and debug (R46). -/
def grpHalf (d : Dev) (g : Nat) : HalfId := if g = 0 then .a else if g = 1 then .b else d.holder

/-- EXP_GO with the arguments given. -/
def sltExport (d : Dev) (g addr pseq n : Nat) : Dev :=
  if (d.silt.exps.getD g none).isSome then d
  else (d.modSilt (fun s => { s with exps := lset s.exps g (some (addr, pseq, n)) })).put (shp .slt) SLT.EXP_ST_STATE 1 0 g

/-- The export ends: pages in turn into half SRAM; GONE for a page not held sealed, ECC for one that reads with an error. A page whose place is not in
half SRAM is stored nowhere: the model's choice (notes/assumptions/38.md). -/
def sltExportDone (d : Dev) (g : Nat) : Dev :=
  let p := shp .slt
  match d.silt.exps.getD g none with
  | none => d
  | some (addr, pseq, n) =>
    let h := d.grpHalf g
    let step (d : Dev) (i : Nat) : Dev :=
      match d.silt.pages.find? (fun q => q.pseq == pseq + i) with
      | none => if d.get p SLT.EXP_ST_STATE 0 g = 3 then d else (d.put p SLT.EXP_ST_STATE 3 0 g).err p cSLT_GONE g
      | some q =>
        if q.ecc then (if d.get p SLT.EXP_ST_STATE 0 g = 3 then d else d.put p SLT.EXP_ST_STATE 4 0 g)
        else if 0x08000000 ≤ addr + 4096 * i ∧ addr + 4096 * i + 4096 ≤ 0x08800000 then
          (d.modHalf h (fun x => { x with sram := memWrites x.sram (addr + 4096 * i) q.bytes })).heal h [(addr + 4096 * i, 4096)]
        else d
    let d := (List.range n).foldl step (d.modSilt (fun s => { s with exps := lset s.exps g none }))
    if d.get p SLT.EXP_ST_STATE 0 g = 1 then d.put p SLT.EXP_ST_STATE 2 0 g else d

/-- VFY_GO. -/
def sltVerify (d : Dev) (pseq n : Nat) : Dev :=
  let p := shp .slt
  if d.silt.vfy.isSome then d
  else ((d.modSilt (fun s => { s with vfy := some (pseq, n) })).put p SLT.VFY_ST_STATE 1).put p SLT.STATE_VFY 1

/-- The verification ends with PASS, or FAIL and the first failing page. -/
def sltVerifyDone (d : Dev) : Dev :=
  let p := shp .slt
  match d.silt.vfy with
  | none => d
  | some (a, n) =>
    let d := ((d.modSilt (fun s => { s with vfy := none })).put p SLT.STATE_VFY 0).stat p 3
    match d.silt.pages.find? (fun q => decide (a ≤ q.pseq ∧ q.pseq < a + n) && d.pageBad q) with
    | some q => ((d.put p SLT.VFY_ST_STATE 3).put64 p SLT.VFY_BAD_LO SLT.VFY_BAD_HI q.pseq).pageFails q
    | none => d.put p SLT.VFY_ST_STATE 2

/-! ### Clearing (R491 to R493) -/

/-- Show a nonce in the registers; 0 when there is none. -/
def sltShowNonce (d : Dev) : Dev :=
  let v := (d.silt.nonce.getD 0).toNat
  (List.range 4).foldl (fun d i => d.put (shp .slt) SLT.NONCE (v / 2 ^ (32 * i)) i) d

/-- NONCE_GO: a fresh nonce; the one before lapses. -/
def sltNonce (d : Dev) : Dev :=
  let r := (List.range 4).foldl (fun (x : Nat × Dev) i => let f := x.2.fresh; (x.1 + f.1.toNat * 2 ^ (32 * i), f.2)) ((0, d) : Nat × Dev)
  (r.2.modSilt (fun s => { s with nonce := some (BitVec.ofNat 128 r.1), token := none })).sltShowNonce

/-- The nonce lapses. -/
def sltNonceEnd (d : Dev) : Dev := (d.modSilt (fun s => { s with nonce := none })).sltShowNonce

/-- Start a clear (R492, R493): the pages to erase leave the readers' view, the anchor moves, and the CLEARED record is next to be written. -/
def siltErase (d : Dev) (all : Bool) (bound : Nat) (key : BitVec 128) (serial mid priv : Nat) : Dev :=
  let p := shp .slt
  let d := d.put p SLT.CLEAR_CNT_N (d.get p SLT.CLEAR_CNT_N + 1)
  let d := if all then d.siltSeal 0 else d
  let es := d.entries
  let upto := match es.find? (fun e => e.seq == bound) with | some e => e.pseq | none => 0
  let gone := if all then d.silt.pages else d.silt.pages.filter (fun q => decide (q.pseq < upto))
  let erased := es.filter (fun e => gone.any (fun q => q.pseq == e.pseq))
  let seal_ := ((gone.getLast?).map SiltPage.sealVal).getD d.silt.anchor
  let seq1 := ((erased.head?).map Entry.seq).getD 0
  let seq2 := ((erased.getLast?).map Entry.seq).getD 0
  let pay := (bytes128 key).map BitVec.toNat ++ leBytes 8 serial ++ [(!all).toNat, 0, 0, 0] ++ leBytes 4 seq1 ++ leBytes 4 seq2 ++ leBytes 4 gone.length ++
    leBytes 8 (((gone.head?).map SiltPage.pseq).getD 0) ++ (bytes128 seal_).map BitVec.toNat
  let r : Rec := ⟨d.now, 0, 64, clsSilt, 1, srcOf p, p % 256, mid, priv, 0, pay⟩
  let d := d.modSilt (fun s => { s with
    erasing := s.erasing ++ gone, pages := s.pages.drop gone.length, anchor := seal_,
    cur := if all then { s.cur with flags := 2 } else s.cur, qProt := r :: s.qProt })
  let d := d.modSilt (fun s => { s with nearFull := s.nearFull && decide (d.get p SLT.CFG_WARN_PCT ≤ d.siltPct) })
  (((d.sltRing.put p SLT.QUEUE_USED d.silt.used).put p SLT.STATE_CODE 1).put p SLT.CLR_ST_STATE 1).siltLevel

/-- CLR_GO (R491). -/
def sltClear (d : Dev) (w : Who) : Dev :=
  let p := shp .slt
  let refuse (d : Dev) (why : Nat) : Dev :=
    (((d.put p SLT.CLR_ST_STATE 3).put p SLT.CLR_ST_REASON why).err p why).noteBy w p clsSecurity why
  if d.get p SLT.STATE_CODE = 1 then (d.err p cSLT_CLEARING).noteBy w p clsSecurity cSLT_CLEARING
  else match d.silt.token with
    | none => refuse d cSIGNATURE
    | some (sc, sq, key, serial) =>
      if d.silt.nonce.isNone || sc != d.get p SLT.CLR_SCOPE_SCOPE || sq != d.get p SLT.CLR_SEQ_SEQ then refuse d cSLT_NONCE
      else
        let d := (d.modSilt (fun s => { s with token := none })).sltNonceEnd
        (d.put p SLT.CLR_ST_REASON 0).siltErase (sc == 0) sq key serial w.mid (d.privByte w)

/-- Erasure completes (R492). -/
def sltClearDone (d : Dev) : Dev :=
  let p := shp .slt
  if d.get p SLT.STATE_CODE ≠ 1 then d
  else ((((d.modSilt (fun s => { s with erasing := [] })).put p SLT.STATE_CODE 0).put p SLT.CLR_ST_STATE 2).stat p 4).siltLevel

/-- An abort of SLT (R67, R492): transfers and verification end; an erasure goes on. -/
def abortSlt (d : Dev) : Dev :=
  let p := shp .slt
  let d := d.modSilt (fun s => { s with copying := List.replicate 4 none, exps := List.replicate 4 none, vfy := none })
  let d := (List.range 4).foldl (fun d g => (d.put p SLT.POST_ST_STATE 0 0 g).put p SLT.EXP_ST_STATE 0 0 g) d
  ((d.put p SLT.VFY_ST_STATE 0).put p SLT.STATE_VFY 0).abortPage p false

end Dev

/-! ### Meanings -/

/-- POST_GO after its arguments; an address or a length out of range leaves the argument as it was (R481, R494). -/
def execSltPostGo (mid : BitVec 8) (mach : Bool) (addr : Word) (len : BitVec 13) (code : BitVec 8) (detail : BitVec 16) (s : State) :
    Host.Outcome State Fault Refusal :=
  onDev (fun d =>
    let p := shp .slt
    let w : Who := ⟨mid.toNat, mach⟩
    let g := w.sltGrp
    let d := if addr.toNat % 8 = 0 then d.put p SLT.POST_ADDR_ADDR addr.toNat 0 g else d.err p cRANGE g
    let d := if len.toNat ≤ 4072 then d.put p SLT.POST_LEN_N len.toNat 0 g else d.err p cRANGE g
    ((d.put p SLT.POST_CODE_CODE code.toNat 0 g).put p SLT.POST_DETAIL_D detail.toNat 0 g).sltPostGo w) s

def execSltPostCopyDone (g : Fin 4) (s : State) : Host.Outcome State Fault Refusal := onDev (fun d => d.sltPostDone g.val) s
def execSiltWrite (s : State) : Host.Outcome State Fault Refusal := onDev (fun d => d.siltWrite) s
def execSiltLossEnd (prot : Bool) (s : State) : Host.Outcome State Fault Refusal := onDev (fun d => d.siltLossEnd prot) s
def execSltCurOldest (g : Fin 4) (s : State) : Host.Outcome State Fault Refusal :=
  onDev (fun d => d.sltFound g.val (d.entries.find? (fun e => !e.ecc))) s
def execSltCurNewest (g : Fin 4) (s : State) : Host.Outcome State Fault Refusal := onDev (fun d => d.sltFound g.val d.entries.getLast?) s
def execSltCurSeq (g : Fin 4) (seq : Word) (s : State) : Host.Outcome State Fault Refusal :=
  onDev (fun d => (d.put (shp .slt) SLT.CUR_ARG_SEQ seq.toNat 0 g.val).sltFound g.val (d.entries.find? (fun e => e.seq == seq.toNat))) s
def execSltCurNext (g : Fin 4) (s : State) : Host.Outcome State Fault Refusal := onDev (fun d => d.sltStep g.val d.entries) s
def execSltCurPrev (g : Fin 4) (s : State) : Host.Outcome State Fault Refusal := onDev (fun d => d.sltStep g.val d.entries.reverse) s
def execSltRdDataRead (g : Fin 4) (s : State) : Host.Outcome State Fault Refusal := onDev (fun d => d.sltRdData g.val) s
def execSltCapture (s : State) : Host.Outcome State Fault Refusal := onDev (fun d => d.sltCapture) s

/-- EXP_GO after its arguments; a destination that is not 4 KiB aligned and a count above 64 are RANGE (R490, R494). -/
def execSltExport (g : Fin 4) (addr : Word) (pseq : BitVec 64) (n : BitVec 7) (s : State) : Host.Outcome State Fault Refusal :=
  onDev (fun d =>
    let p := shp .slt
    let d := if addr.toNat % 4096 = 0 then d.put p SLT.EXP_ADDR_ADDR addr.toNat 0 g.val else d.err p cRANGE g.val
    let d := if n.toNat ≤ 64 then d.put p SLT.EXP_N_N n.toNat 0 g.val else d.err p cRANGE g.val
    let d := d.put64 p SLT.EXP_PSEQ_LO SLT.EXP_PSEQ_HI pseq.toNat 0 g.val
    d.sltExport g.val (d.get p SLT.EXP_ADDR_ADDR 0 g.val) pseq.toNat (d.get p SLT.EXP_N_N 0 g.val)) s

def execSltExportDone (g : Fin 4) (s : State) : Host.Outcome State Fault Refusal := onDev (fun d => d.sltExportDone g.val) s

def execSltVerify (pseq : BitVec 64) (n : Word) (s : State) : Host.Outcome State Fault Refusal :=
  onDev (fun d =>
    let p := shp .slt
    ((d.put64 p SLT.VFY_PSEQ_LO SLT.VFY_PSEQ_HI pseq.toNat).put p SLT.VFY_N_N n.toNat).sltVerify pseq.toNat n.toNat) s

def execSltVerifyDone (s : State) : Host.Outcome State Fault Refusal := onDev (fun d => d.sltVerifyDone) s
def execSltNonce (s : State) : Host.Outcome State Fault Refusal := onDev (fun d => d.sltNonce) s
def execSltNonceLapse (s : State) : Host.Outcome State Fault Refusal := onDev (fun d => d.sltNonceEnd) s

def execSltClear (mid : BitVec 8) (mach : Bool) (scope : Bool) (seq : Word) (s : State) : Host.Outcome State Fault Refusal :=
  onDev (fun d =>
    let p := shp .slt
    ((d.putb p SLT.CLR_SCOPE_SCOPE scope).put p SLT.CLR_SEQ_SEQ seq.toNat).sltClear ⟨mid.toNat, mach⟩) s

def execSltClearDone (s : State) : Host.Outcome State Fault Refusal := onDev (fun d => d.sltClearDone) s

end Sys2Proof.Machine
end

