-- ==== Sys2Proof/Machine/Halves.lean ====
section
/-! DEFINITION. The halves, the Weir, the mirror link, the proof swap and the Seedbank (spec/12_redundancy.md, R342 to R371), and the steps of
the cycle executive that half control takes part in (spec/11_cycle_executive.md, R318, R332, R333). -/
namespace Sys2Proof.Machine

open Sys2Proof

def cHLF_PEER_STATE : Nat := 0xD0
def cHLF_SWAP_FAIL : Nat := 0xD1
def cHLF_SWAP_DUE : Nat := 0xD2
def cHLF_DISAGREE : Nat := 0xD3
def cHLF_NO_SPARE : Nat := 0xD4
def cMIR_DOWN : Nat := 0xD5
def cMIR_NARROW : Nat := 0xD6
def cMIR_BACKLOG : Nat := 0xD7
def cWIR_REFUSED : Nat := 0xD8
def cWIR_NOHOLD : Nat := 0xD9

/-- Units of the time-stamp in 24 hours and in 10 s (R458). -/
def day24 : Nat := 65536 * 86400
def sec10 : Nat := 655360

namespace Dev

/-! ### States (R342, R343) -/

/-- A transition of a half, shown on both pages and recorded with its cause (R343, R366, R367). -/
def hlfTo (d : Dev) (h : HalfId) (st cause : Nat) : Dev :=
  let p := ctl .hlf h
  let q := ctl .hlf h.other
  let was := d.hlfState h
  let d := (((d.put p HLF.STATE_OWN st).put p HLF.STATE_CAUSE cause).put p HLF.STATE_PEER_QUIET 0).stat p 0
  let d := ((d.put q HLF.STATE_PEER st).put q HLF.STATE_PEER_CAUSE cause).stat q 1
  let d := (d.modHlf h (fun x => { x with quiet := none })).putb (ctl .cyx h) CYX.STATE_FOLLOW (st == 1 || st == 2)
  d.note p clsState cause h.n [was, st]

/-- Whether the half's endpoint of the mirror link and its lease line work: the half is out of reset (R351). -/
def outOfReset (d : Dev) (h : HalfId) : Bool := d.hlfState h != 3 && d.hlfState h != 4

/-- Show the lease on the pages of the halves that are out of reset. -/
def showLease (d : Dev) : Dev :=
  let w := shp .wir
  let one (d : Dev) (h : HalfId) : Dev :=
    if d.outOfReset h then
      let p := ctl .hlf h
      ((d.putb p HLF.LEASE_MINE (d.holds h)).put p HLF.LEASE_VALID (d.get w WIR.LEASE_VALID)).put p HLF.LEASE_EPOCH (d.get w WIR.LEASE_EPOCH)
    else d
  d.both one

/-- The mirror link goes down (R351, R355): a standby in STANDBY_SYNC records the renewal count. -/
def mirDown (d : Dev) : Dev :=
  let one (d : Dev) (h : HalfId) : Dev :=
    let p := ctl .mir h
    let d := (((d.put p MIR.LINK_UP 0).put p MIR.LINK_LANES 0).put p MIR.LINK_WIDTH 0).put p MIR.LINK_TRAIN 0
    let d := if d.outOfReset h then (d.bump p MIR.DOWN_COUNT).fault p cMIR_DOWN h.n else d
    let d := d.modHlf h (fun x => { x with servoBuf := none, okRun := 0, missRun := 0 })
    if d.hlfState h = 1 then
      (d.put (ctl .hlf h) HLF.STATE_PEER_QUIET 1).modHlf h (fun x => { x with quiet := some (d.get (shp .wir) WIR.RENEW_COUNT) })
    else d
  if d.mirUp then d.both one else d

/-- Words of a half's CTL region that a reset of the half keeps: its state as half control shows it, the proof ages, the automatic restarts,
and the Seedbank (R366, R370, R542). -/
def keptWord (h : HalfId) (k : Nat) : Bool :=
  let p := k / pageSpan
  let fs : List Fld := [HLF.STATE_OWN, HLF.STATE_PEER, HLF.STATE_CAUSE, HLF.STATE_PEER_CAUSE, HLF.PROOF_AGE_A, HLF.PROOF_AGE_B, HLF.REJOIN_N24]
  p == ctl .sbk h && decide (k % pageSpan / 65536 / 32 ≥ 0x40) || p == ctl .hlf h && keyIn fs (k % pageSpan)

/-- Forces go with the reset of the last half that holds them (R327). -/
def frcGone (d : Dev) (hs : List HalfId) : Dev :=
  let held (h : HalfId) : Bool := !(d.forces h).isEmpty
  let all : List HalfId := [.a, .b]
  if hs.any held && (all.filter (fun h => !hs.contains h)).all (fun h => !held h) then { d with boot := { d.boot with frcLost := true } } else d

/-- The loss of forces is recorded at the next start (R327). -/
def frcNote (d : Dev) (h : HalfId) : Dev :=
  if d.boot.frcLost then { d with boot := { d.boot with frcLost := false } }.note (ctl .frc h) clsState 0 h.n else d

/-- A reset of a half (R542, Table 5): its CTL pages, its shadows and what its blocks keep; the levels of lines outside stay. -/
def halfReset (d : Dev) (h : HalfId) : Dev :=
  let d := (d.mirDown).frcGone [h]
  let d := { d with regs := d.regs.filter (fun e => e.1 / pageSpan / 256 != h.n || keptWord h e.1),
                    shadow := d.shadow.filter (fun e => bankOf e.page != h.n), immCnt := d.immCnt.filter (fun e => bankOf e.1 != h.n),
                    fenced := d.fenced.filter (fun q => bankOf q != h.n), aborting := d.aborting.filter (fun q => bankOf q != h.n),
                    badRegs := d.badRegs.filter (fun q => bankOf q.1 != h.n) }
  let d := (d.setHalf h Half.init).put (ctl .mir h.other) MIR.BACKLOG_BYTES 0
  d.modHlf h (fun x => { Hlf.init with hold := x.hold, faulted := x.faulted, restarts := x.restarts, ces := x.ces })

/-- A proof of the holder fails, or is no longer under way (R359). -/
def proofLost (d : Dev) : Dev :=
  let d := d.modWeir (fun w => { w with proof := none })
  let one (d : Dev) (h : HalfId) : Dev :=
    let p := ctl .hlf h
    if d.get p HLF.SWAP_ST_STATE = 2 then ((d.put p HLF.SWAP_ST_STATE 4).put p HLF.SWAP_ST_REASON cHLF_SWAP_FAIL).stat p 4 |>.fault p cHLF_SWAP_FAIL h.n else d
  d.both one

/-- The lease becomes invalid by release or expiry (R344, R345): no output changes, and requests on CAN that have not started end NO_LEASE. -/
def leaseInvalid (d : Dev) : Dev :=
  if !d.on (shp .wir) WIR.LEASE_VALID then d
  else
    let d := if d.weir.proof.isSome then d.proofLost else d
    ((d.put (shp .wir) WIR.LEASE_VALID 0).canNoLease).showLease

/-- A half goes OFFLINE or is FENCED: transition and reset. -/
def hlfOff (d : Dev) (h : HalfId) (st cause : Nat) : Dev := (d.hlfTo h st cause).halfReset h

/-- A half abort (R345): the lease is released first where HLF can, then the half is OFFLINE. -/
def halfAbortBy (d : Dev) (h : HalfId) (release fault : Bool) : Dev :=
  if d.hlfState h > 2 then d
  else
    let d := if release && d.holds h then d.leaseInvalid else d
    (d.hlfOff h 4 8).modHlf h (fun x => { x with faulted := fault })

/-- A half abort that the part starts on a fault; one that firmware writes to `HLF.ABORT` is no fault, so no automatic restart follows (R365). -/
def halfAbort (d : Dev) (h : HalfId) : Dev := d.halfAbortBy h true true

/-- STANDBY_SYNC ends (R352, R353, R355). -/
def goStale (d : Dev) (h : HalfId) (cause : Nat) : Dev :=
  if d.hlfState h = 1 then (d.hlfTo h 2 cause).modHlf h (fun x => { x with cycOk := false, okRun := 0, missRun := 0, disRun := 0, disCyc := 0 }) else d

/-- The input supply of a half is IN_OK (R531). -/
def inputOk (d : Dev) (h : HalfId) : Bool := d.on (shp .pwr) (match h with | .a => PWR.IN_A_OK | .b => PWR.IN_B_OK)

/-- The scope of Shoal in a half that leaves reset: that of the other half, or as the role strap gives it (R217, R372, R388). -/
def scopeInit (d : Dev) (h : HalfId) : Dev :=
  let p := ctl .shl h
  let q := ctl .shl h.other
  let role := d.get (shp .bot) BOT.STRAP_RAW % 4
  if d.hlfState h.other ≤ 2 then (d.put p SHL.SCOPE_MODE (d.get q SHL.SCOPE_MODE)).put p SHL.SCOPE_PASSIVE (d.get q SHL.SCOPE_PASSIVE)
  else (d.put p SHL.SCOPE_MODE (match role with | 0 => 0 | 1 => 2 | _ => 1)).putb p SHL.SCOPE_PASSIVE (decide (role ≥ 2))

/-- The reset of a half is released into REPAIR (R343); the fence on its line clears (R346). No half runs without its input (R531). -/
def repairEnter (d : Dev) (h : HalfId) (cause : Nat) : Dev :=
  if !d.inputOk h || (d.hlf h).hold then d
  else
    let d := ((d.hlfTo h 5 cause).scopeInit h).modHlf h (fun x => { x with ready := false, faulted := false })
    (d.putBit (shp .wir) WIR.FENCE_LINES h.n false).showLease

/-! ### Starting a half's program (R321, R333, R356, R363) -/

/-- The image a boot verified, in its slot or as the host link supplied it (R510). -/
def bootImage (d : Dev) : Option Image :=
  if !d.boot.verified then none
  else match d.get (shp .enc) ENC.BOOT_SLOT with
    | 0 => if bitN d.encl.slotBad 0 = 1 then none else imgLoad d.mram 0
    | 1 => if bitN d.encl.slotBad 1 = 1 then none else imgLoad d.mram 0x10000000
    | 2 => imgLoad (memWrites [] 0 d.boot.hostImg) 0
    | _ => none

/-- Write the code of what a half's banks hold: the running image, and in the other bank a loaded one or the one before the switch (R313). -/
def loadBanks (d : Dev) (h : HalfId) : Dev :=
  let x := d.cyx h
  let b := d.get (ctl .cyx h) CYX.IMG_BANK
  let put (d : Dev) (b : Nat) (i : Option Image) : Dev := match i with | some i => d.loadBank h (d.prog h) b i | none => d
  put (put (put d b x.img) (1 - b) x.old) (1 - b) x.idle

/-- Step 4 of REPAIR: the cores take the running code of the active half, with a change under way (R334, R337), or the boot image (R363). -/
def startCores (d : Dev) (h : HalfId) : Dev :=
  let o := h.other
  let x := d.cyx o
  if d.active o && x.img.isSome then
    let d := d.modCyx h (fun y => { y with img := x.img, idle := if d.olc o = 1 then none else x.idle, old := x.old, oldCells := x.oldCells, valid := false })
    let d := d.put (ctl .cyx h) CYX.IMG_BANK (d.get (ctl .cyx o) CYX.IMG_BANK)
    ((d.setOlc h (match d.olc o with | 1 => 0 | 3 => 2 | n => n) (d.get (ctl .cyx o) CYX.OLC_STAT_REASON)).showImage h).loadBanks h
  else ((d.modCyx h (fun x => { x with img := d.bootImage, valid := false })).showImage h).loadBanks h

/-- Start the program as at boot, under `CYX.START.MODE` (R321). -/
def startMode (d : Dev) (h : HalfId) : Dev :=
  match d.get (ctl .cyx h) CYX.START_MODE with
  | 1 => d.startHalf h false
  | 2 => d.startHalf h true
  | _ => d.cyxHalt h 0

/-- Why a boot ends HALTED before any image: the straps leave no source (R536), or the part is ZEROISED (R517). -/
def haltWhy (d : Dev) : Option Nat :=
  let r := d.get (shp .bot) BOT.STRAP_RAW
  if d.get (shp .enc) ENC.LIFE_STATE = 4 then some 3 else if field r 4 2 ≥ 2 ∧ bitN r 6 = 0 then some 1 else none

/-- The grant of the boot's claim (R537): the holder copies its code bank, the boot attempt is counted, the configuration is applied, and the
program starts. Without an image the part stays in STOPPED (R510, R536, R541). -/
def bootGrant (d : Dev) (h : HalfId) : Dev :=
  let b := shp .bot
  let e := shp .enc
  let d := d.startCores h
  let run := (d.cyx h).img.isSome
  let d := d.put b BOT.PHASE_WHY 0
  let d := if run && decide (d.get e ENC.BOOT_SLOT ≤ 1) then d.bump e ENC.BOOT_ATTEMPTS else d
  let d := ((d.put b BOT.PHASE_CODE 4).cfgBoot h).fioLeave [1]
  let d := if run then ((d.put b BOT.PHASE_CODE 5).startMode h).frcNote h else d.cyxHalt h 0
  let r := d.fresh
  if run && d.cyxIdle h then (r.2.put b BOT.PHASE_CODE 6).put b BOT.T_FIRST_US r.1.toNat
  else if run then d
  else match d.haltWhy with
    | some w => (d.put b BOT.PHASE_CODE 8).put b BOT.PHASE_WHY w
    | none => d.put b BOT.PHASE_CODE 7

/-- A half that restarts alone: its code, its own pages of the committed configuration, and its program as at boot (R363, R542). -/
def loneGrant (d : Dev) (h : HalfId) : Dev := (((d.startCores h).cfgHalf h).startMode h).frcNote h

/-- A half out of REPAIR that does not hold the lease (R363, R353). -/
def joinStandby (d : Dev) (h : HalfId) (cause : Nat) : Dev := ((d.hlfTo h 2 cause).startCores h).cfgHalf h

/-- The generators of a half after a cold takeover (R356, Table 4): a moving car ramps from its measured position and speed; a standing one
is IDLE and starts its next move soft. -/
def coldMpg (d : Dev) (h : HalfId) (n : Nat) : Dev :=
  let p := pgMpg h n
  if !d.mpgOn h n then d
  else
    let x := d.carX h n
    let v := d.carV h n
    let d := d.modMpg h n (fun m => { m with xs := x * unitX, vs := 0, av := 0, segs := [], jogV := 0, ramp := none, soft := true })
    if v.natAbs > 1000 then
      let d := (d.modMpg h n (fun m => { m with vs := v * unitV })).put p MPG.STATE_MODE 2
      (d.putb p MPG.STATE_DIR (decide (v > 0))).mpgStop h n 7
    else (d.put p MPG.STATE_MODE 0).put p MPG.STATE_SOFT 0

/-- The blocks after a cold takeover (R356, Table 4). -/
def coldBlocks (d : Dev) (h : HalfId) : Dev :=
  let d := (List.range 4).foldl (fun d n => d.coldMpg h n) d
  let d := (List.range 3).foldl (fun d e => d.modLe h e (fun x => { x with loops := x.loops.map (fun l => { l with start := true }) })) d
  (List.range 8).foldl (fun d k =>
    if !d.enabled (pgDax h k) then d
    else if d.daxCan h k then (if (d.dax h k).vn ≠ 0 ∨ d.get (pgDax h k) DAX.SP_V_UMS ≠ 0 then d.daxFreeze h k 7 else d)
    else d.daxFreeze h k 7) d

/-- The program after a cold takeover: started as at boot; a WARM start takes the shadow, whatever its age (R356, Table 4). -/
def coldProgram (d : Dev) (h : HalfId) (dt : Nat) : Dev :=
  let d := d.voidSwitch h
  let d := if d.get (ctl .cyx h) CYX.START_MODE = 1 then d.takeShadow h dt else d
  (d.takeCount h).startMode h

/-! ### The lease (R344 to R349) -/

/-- A renewal of a half's HLF with its epoch (R344, R355). An active half that finds the lease not its own aborts (R343, Table 2). -/
def renewal (d : Dev) (h : HalfId) (epoch : Nat) : Dev :=
  let w := shp .wir
  if !d.active h then d
  else if !d.holds h then (if d.weir.swapBy = some h then d else d.halfAbort h)
  else if epoch ≠ d.get w WIR.LEASE_EPOCH then d
  else
    let d := ((d.wrapUp w WIR.RENEW_COUNT).put w WIR.LEASE_AGE 0).modWeir (fun x => { x with ticks := 0 })
    match (d.hlf h.other).quiet with
    | some n => if n ≠ d.get w WIR.RENEW_COUNT then d.goStale h.other 5 else d
    | none => d

/-- A claim at the Weir (R346, R356). A half in REPAIR claims once its steps 1 to 3 are complete (R363, R538). -/
def claim (d : Dev) (h : HalfId) : Dev :=
  let w := shp .wir
  let st := d.hlfState h
  let may := st ≤ 2 ∨ (st = 5 ∧ (d.hlf h).ready)
  if ¬ may ∨ d.holds h then d
  else if d.on w WIR.LEASE_VALID then
    let d := (d.putBit w WIR.FENCE_LINES h.n true).bump w (match h with | .a => WIR.REFUSED_A | .b => WIR.REFUSED_B)
    ((d.fault w cWIR_REFUSED h.n).hlfOff h 3 4).showLease
  else if st = 0 then d
  else
    let e := (d.get (ctl .hlf h) HLF.EPOCH_KNOWN + 1) % 65536
    (d.modWeir (fun x => { x with claims := x.claims.filter (fun c => c.1 != h) ++ [(h, e)] })).put w WIR.LEASE_WIN 1

/-- The claim that wins a window (R346). -/
def winner (d : Dev) : Option (HalfId × Nat) :=
  match d.weir.claims.filter (fun c => d.outOfReset c.1) with
  | [] => none
  | [c] => some c
  | c :: c' :: _ =>
    let pref : HalfId := if bitN (d.get (shp .bot) BOT.STRAP_RAW) 2 = 1 then .b else .a
    if epochHigher c.2 c'.2 then some c else if epochHigher c'.2 c.2 then some c' else if c.1 = pref then some c else some c'

/-- The new holder after a warm takeover (R356, Table 4; R226, R333, R103): a warm takeover that meets the conditions of R359 is a proof. -/
def warmTake (d : Dev) (w : HalfId) (dt : Nat) : Dev :=
  let d := ((d.cyxWarm w dt).takeRing w 4096).lrnEnd w 6
  d.modWeir (fun x => { x with proof := some (w, false, 3) })

/-- The new holder after a cold takeover (R356, Table 4): Shoal goes on with its ring and the tables last received (R226, R235). -/
def coldTake (d : Dev) (w : HalfId) (dt : Nat) : Dev :=
  let d := ((d.coldBlocks w).takeRing w 4096).lrnEnd w 6
  ((d.coldProgram w dt).fioSafe 5).modHlf w (fun x => { x with cold := true })

/-- What a takeover shows (R357, R366). -/
def showTake (d : Dev) (w : HalfId) (cold : Bool) (gap : Nat) : Dev :=
  let p := ctl .hlf w
  let d := ((d.bump p HLF.TAKE_COUNT).putb p HLF.TAKE_COLD cold).stat p 2
  (d.put p HLF.GAP_US gap).put (shp .wir) WIR.LAST_GAP_US gap

/-- After a grant, a half still ACTIVE without the lease: the half that released it for a swap ends its learning run (R103), becomes STANDBY_STALE and,
with its own retained area as its shadow, STANDBY_SYNC (R359 step 5); any other one finds the lease not its own (R343). -/
def formerActive (d : Dev) (o : HalfId) : Dev :=
  if !d.active o then d
  else if d.weir.swapBy = some o then
    let d := d.lrnEnd o 6
    let st := { d.cycState o with ret := [] }
    let d := d.fillSram o st.shadowAt st.area.2 (memBytes (d.half o).sram st.area.1 st.area.2)
    let d := (d.hlfTo o 2 0xB).modCyx o (fun x => { x with shadow := some st, rxq := [], phase := 0, done := 0, heldNext := false, waiting := 0, late := none })
    let d := (d.modHlf o (fun x => { x with okRun := 3, missRun := 0, disRun := 0, disCyc := 0, cycOk := true })).showLag o
    (d.hlfTo o 1 0xB).put (ctl .hlf o) HLF.EPOCH_KNOWN (d.get (shp .wir) WIR.LEASE_EPOCH)
  else d.halfAbort o

/-- A losing half of a window becomes STANDBY_STALE (R346); one from REPAIR also starts its cores. -/
def loseClaim (d : Dev) (h : HalfId) : Dev :=
  match d.hlfState h with
  | 5 => d.joinStandby h 3
  | 1 => d.goStale h 3
  | _ => d

/-- The end of the claim window (R346, R347, R356): `gap` µs since the last renewal or the release, `dt` µs since the snapshot of the
shadow's cycle. -/
def windowEnd (d : Dev) (gap dt : Nat) : Dev :=
  let w := shp .wir
  if !d.on w WIR.LEASE_WIN then d
  else
    let losers (x : HalfId) : List HalfId := (d.weir.claims.map (fun c => c.1)).filter (fun h => h != x)
    let win := d.winner
    let d := d.put w WIR.LEASE_WIN 0
    match win with
    | none => d.modWeir (fun x => { x with claims := [] })
    | some (h, e) =>
      let ls := losers h
      let st := d.hlfState h
      let d := d.modWeir (fun x => { x with claims := [], ticks := 0 })
      let d := (((d.put w WIR.LEASE_VALID 1).putb w WIR.LEASE_HOLDER (h == .b)).put w WIR.LEASE_EPOCH e).put w WIR.LEASE_AGE 0
      let d := (d.put w WIR.GRANTS_COUNT (d.get w WIR.GRANTS_COUNT + 1)).put (ctl .hlf h) HLF.EPOCH_KNOWN e
      let d := if d.hlfState h.other ≤ 1 && d.mirUp then d.put (ctl .hlf h.other) HLF.EPOCH_KNOWN e else d
      let d := d.hlfTo h 0 2
      let d := if st = 5 then d else d.showTake h (st == 2) gap
      let d := d.formerActive h.other
      let d :=
        if st = 1 then d.warmTake h dt
        else if st = 2 then d.coldTake h dt
        else if d.get (shp .bot) BOT.PHASE_CODE = 3 ∨ d.get (shp .bot) BOT.PHASE_WHY = 2 then (if d.on (shp .hst) HST.STATUS_BOOT_REQ then d else d.bootGrant h)
        else d.loneGrant h
      let d := ls.foldl (fun d l => d.loseClaim l) d
      (d.modWeir (fun x => { x with swapBy := none })).showLease

/-- No claim has been granted within 1.0 ms of the lease becoming invalid (R348). -/
def noHold (d : Dev) : Dev :=
  let w := shp .wir
  if d.on w WIR.LEASE_VALID then d else (((d.put w WIR.SAFE_NOHOLD 1).fault w cWIR_NOHOLD).fioSafe 4).deviceStop

/-! ### The standby (R350 to R355) -/

/-- A difference of R354, Table 3: item `i`. -/
def disagreeItem (d : Dev) (h : HalfId) (i : Nat) : Dev :=
  let p := ctl .hlf h
  (((d.bump p HLF.DIS_COUNT).put p HLF.DIS_ITEM i).stat p 5).fault p cHLF_DISAGREE i

/-- `DIS_N` consecutive differences end STANDBY_SYNC (R354). -/
def disJudge (d : Dev) (h : HalfId) : Dev :=
  let n := d.get (ctl .hlf h) HLF.CFG_DIS_N
  if n ≠ 0 ∧ ((d.hlf h).disRun ≥ n ∨ (d.hlf h).disCyc ≥ n) then d.goStale h 7 else d

/-- The servo state of the period has arrived whole: comparison, then it becomes the shadow (R350, R354). -/
def servoReceive (d : Dev) (h : HalfId) : Dev :=
  match (d.hlf h).servoBuf with
  | none => d
  | some s =>
    if !d.mirrors h then d
    else
      let cmp := d.hlfState h == 1 && d.on (ctl .hlf h) HLF.CFG_CMP_SERVO
      let own := d.servoCmp h
      let bad := if cmp then (List.range 4).filter (fun i => own.getD i [] != s.cmp.getD i []) else []
      let d := bad.foldl (fun d i => d.disagreeItem h (i + 1)) d
      let d := d.modHlf h (fun x => { x with servoBuf := none, missRun := 0, okRun := min 3 (x.okRun + 1),
                                             disRun := if bad.isEmpty then 0 else x.disRun + 1 })
      (d.takeServo h s).disJudge h

/-- The servo state of the period has not arrived whole: the standby keeps its own results (R350, R352). -/
def servoMiss (d : Dev) (h : HalfId) : Dev :=
  if d.hlfState h ≠ 1 ∧ d.hlfState h ≠ 2 then d
  else
    let up := d.mirUp
    let d := (d.bump (ctl .mir h) MIR.SMISS_COUNT).modHlf h (fun x => { x with servoBuf := none, okRun := 0, missRun := if up then x.missRun + 1 else 0 })
    if (d.hlf h).missRun ≥ 3 then d.goStale h 6 else d

/-- Compare the CRC of a cycle both halves have published (R354, Table 3, last row). -/
def cycCompare (d : Dev) (h : HalfId) : Dev :=
  let x := d.cyx h
  match (d.hlf h).ownCrc with
  | none => d
  | some (c, crc) =>
    match ((x.rxq ++ x.shadow.toList).find? (fun s => s.cyc == c)) with
    | none => d
    | some s =>
      let bad := s.crc != crc
      let d := if bad then d.disagreeItem h 5 else d
      (d.modHlf h (fun x => { x with ownCrc := none, disCyc := if bad then x.disCyc + 1 else 0 })).disJudge h

/-- The shadow has fallen more than two cycles behind (R353). -/
def lagJudge (d : Dev) (h : HalfId) : Dev :=
  let d := d.showLag h
  if d.get (ctl .cyx h) CYX.SHADOW_LAG > 2 then d.goStale h 6 else d

/-- The end marker of a cycle's state (R331), with the comparison and the lag it decides. -/
def shadowEnd (d : Dev) (h : HalfId) : Dev :=
  if d.active h || !d.running h || !d.mirUp || (d.cyx h).rxq.isEmpty then d else ((d.shadowCopy h).cycCompare h).lagJudge h

/-- The cycle marker at the standby (R44, R332, R352, R353): two markers behind it abandons its cycle and takes its shadow; a half that has
no valid program state takes the received one and begins with `first_scan`. -/
def markerStep (d : Dev) (h : HalfId) (dt ns : Nat) : Dev :=
  let p := ctl .cyx h
  if d.active h || !d.running h then d
  else
    let d := d.lagJudge h
    let x := d.cyx h
    if x.waiting ≥ 2 then
      let d := (d.goStale h 6).takeShadow h 0
      ((d.modCyx h (fun x => { x with phase := 0, done := 0, waiting := 0, late := none })).put p CYX.STATE_FIRST 1).put p CYX.STATE_LAG 0
    else
      let d := if x.phase = 0 && !x.valid && x.shadow.isSome && x.waiting ≠ 0 && x.img.isSome then
          ((d.takeShadow h 0).put p CYX.STATE_FIRST 1).put p CYX.STATE_CODE (d.get (ctl .cyx h.other) CYX.STATE_CODE)
        else d
      d.cycleMarker h dt ns

/-- Resynchronisation (R353): whether every condition holds. -/
def resyncOk (d : Dev) (h : HalfId) : Bool :=
  let x := d.hlf h
  d.hlfState h == 2 && d.active h.other && d.mirUp && decide (d.get (ctl .cyx h) CYX.SHADOW_LAG ≤ 1) && (d.cyx h).shadow.isSome &&
    decide (x.okRun ≥ 3) && x.disRun == 0 && x.disCyc == 0 && x.cycOk

/-- STANDBY_SYNC, with the epoch of the grant in force (R347, R353). -/
def resync (d : Dev) (h : HalfId) : Dev :=
  if d.resyncOk h then (d.hlfTo h 1 0xA).put (ctl .hlf h) HLF.EPOCH_KNOWN (d.get (shp .wir) WIR.LEASE_EPOCH) else d

/-! ### The executive with half control (R315, R318, R320, R359) -/

/-- The publish of a half, what follows at the CYCLE event for a SAVE, a proof and an armed swap, and at the standby the comparison and the cycle of a
marker that has waited for it (R332). -/
def cyclePublish (d : Dev) (h : HalfId) (us ns : Nat) : Dev :=
  let p := ctl .cyx h
  if !d.running h || d.get p CYX.STATE_CODE ≠ 1 || !d.allDone h then d
  else if d.active h then
    let late := d.mirrors h.other && !(d.cyx h.other).rxq.isEmpty
    let d := ((d.glkBegin).publish h us ns).cfgCycle h
    let d := if late then d.err (ctl .mir h) cMIR_BACKLOG h.n else d
    let d := if d.get (ctl .hlf h) HLF.SWAP_ST_STATE = 1 then d.modCyx h (fun x => { x with heldNext := true }) else d
    match d.weir.proof with
    | some (q, false, n) => if q = h ∧ d.holds h then d.modWeir (fun w => { w with proof := some (q, true, n) }) else d
    | _ => d
  else
    let first := d.on p CYX.STATE_FIRST
    let lag := d.on p CYX.STATE_LAG
    let d := d.publish h us ns
    let d := if first || !d.on (ctl .hlf h) HLF.CFG_CMP_CYCLE || d.hlfState h ≠ 1 then d.modHlf h (fun x => { x with ownCrc := none })
      else (d.modHlf h (fun x => { x with ownCrc := some (d.get p CYX.CNT_CYCLE, d.pubCrc h) })).cycCompare h
    if lag then (match (d.cyx h).late with | some t => d.cycleMarker h t.1 t.2 | none => d) else d.modHlf h (fun x => { x with cycOk := true })

/-- The snapshot; the first one after a release ends the boot (R537). -/
def cycleSnap (d : Dev) (h : HalfId) (dt ns : Nat) : Dev :=
  let b := shp .bot
  let n := d.get (ctl .cyx h) CYX.CNT_CYCLE
  let d := d.snapshot h dt ns
  if d.get b BOT.PHASE_CODE = 5 ∧ d.get (ctl .cyx h) CYX.CNT_CYCLE ≠ n then
    let r := d.fresh
    (r.2.put b BOT.PHASE_CODE 6).put b BOT.T_FIRST_US r.1.toNat
  else d

/-- An idle CYCLE event (R320): it counts as a cycle of its own for the lag of the standby, whose state travels as after a publish. -/
def idleEvent (d : Dev) (h : HalfId) : Dev :=
  if d.active h && d.cyxIdle h then
    let d := ((d.glkBegin).idleCycle h).cfgCycle h
    if d.mirrors h.other then (d.sendState h (d.cycState h)).modHlf h.other (fun x => { x with cycOk := true }) else d
  else d

/-- The maximum-cycle watchdog expires (R318, R332). -/
def cycWdog (d : Dev) (h : HalfId) : Dev :=
  let p := ctl .cyx h
  let x := d.cyx h
  if !d.running h || d.get p CYX.STATE_CODE ≠ 1 || x.phase = 0 || d.allDone h then d
  else
    let mask := d.get p CYX.CORE_MASK_CORES
    let late := bitsOf 4 (fun c => bitN mask c == 1 && bitN x.done c == 0)
    let d := (d.stat p 0).fault p cCYC_WDOG late [late]
    let soon := match x.wdogAt with | some t => decide (d.now < t + sec10) | none => false
    if !d.active h then d.halfAbort h
    else if d.on p CYX.WDOG_ACT && d.hlfState h.other == 1 && !soon then
      (d.modCyx h.other (fun y => { y with wdogAt := some d.now })).halfAbort h
    else
      let d := d.cyxHalt h 2
      if d.mirrors h.other then d.cyxHalt h.other 2 else d

/-! ### The proof swap (R359, R360) -/

def swapShow (d : Dev) (st why : Nat) : Dev :=
  d.both (fun d h => (d.put (ctl .hlf h) HLF.SWAP_ST_STATE st).put (ctl .hlf h) HLF.SWAP_ST_REASON why)

/-- SWAP (R359 step 1). -/
def swap (d : Dev) (h : HalfId) : Dev :=
  let p := ctl .hlf h
  let st := d.get p HLF.SWAP_ST_STATE
  let refuse (why : Nat) : Dev := (d.put p HLF.SWAP_ST_REASON why).err p why h.other.n
  if !d.active h || d.hlfState h.other ≠ 1 || d.get (ctl .cyx h.other) CYX.SHADOW_LAG > 1 then refuse cHLF_PEER_STATE
  else if (2 ≤ d.olc h ∧ d.olc h ≤ 4) ∨ st = 1 ∨ st = 2 then refuse cBUSY
  else d.swapShow 1 0

/-- The release of a swap (R359 step 3). -/
def swapRelease (d : Dev) (h : HalfId) : Dev :=
  let held := (d.cyx h).heldNext && (match (d.cyx h.other).shadow with | some s => s.cyc == d.get (ctl .cyx h) CYX.CNT_CYCLE | none => false)
  if !d.holds h || d.get (ctl .hlf h) HLF.SWAP_ST_STATE ≠ 1 || !held || d.hlfState h.other ≠ 1 then d
  else ((d.leaseInvalid).modWeir (fun w => { w with swapBy := some h })).swapShow 2 0

/-- The proof of the new holder is complete: its time goes to the configuration partition (R359, R360). -/
def proofDone (d : Dev) : Dev :=
  match d.weir.proof with
  | some (q, true, 0) =>
    let age := match q with | .a => HLF.PROOF_AGE_A | .b => HLF.PROOF_AGE_B
    let was := d.get (ctl .hlf q) HLF.SWAP_ST_STATE
    let d := (d.both (fun d h => d.put (ctl .hlf h) age 0)).modWeir (fun w => { w with proof := none })
    let d := d.modStore (fun s => { s with proofAt := lset s.proofAt q.n (some d.now) })
    let d := if was = 2 then (d.swapShow 3 0).both (fun d h => d.stat (ctl .hlf h) 4) else d
    d.note (ctl .hlf q) clsState 0xB q.n [(d.get (ctl .hlf q) HLF.TAKE_COUNT)]
  | _ => d

def swapCancel (d : Dev) (h : HalfId) : Dev :=
  if d.active h && d.get (ctl .hlf h) HLF.SWAP_ST_STATE == 1 then (d.swapShow 0 0).modCyx h (fun x => { x with heldNext := false }) else d

def proofAge (d : Dev) (h : HalfId) : Nat := d.get (ctl .hlf h) (match h with | .a => HLF.PROOF_AGE_A | .b => HLF.PROOF_AGE_B)

/-- The standby's proof age reaches `SWAP_DUE` (R360). -/
def proofDue (d : Dev) (h : HalfId) : Dev :=
  let p := ctl .hlf h
  if d.active h || d.proofAge h < d.get p HLF.SWAP_DUE_H then d
  else
    let one (d : Dev) (q : HalfId) : Dev := if d.outOfReset q then (d.stat (ctl .hlf q) 3).err (ctl .hlf q) cHLF_SWAP_DUE h.n else d
    (d.both one).note p clsState cHLF_SWAP_DUE h.n [d.proofAge h]

/-- An hour passes (R360): the proof ages of the halves that are not ACTIVE. -/
def proofHour (d : Dev) : Dev :=
  d.both (fun d h =>
    if d.active h then d
    else
      let f := match h with | .a => HLF.PROOF_AGE_A | .b => HLF.PROOF_AGE_B
      let n := satU 16 (d.proofAge h + 1)
      let d := d.both (fun d q => d.put (ctl .hlf q) f n)
      if n = d.get (ctl .hlf h) HLF.SWAP_DUE_H then d.proofDue h else d)

/-! ### Peer commands and restarts (R365, R366) -/

def peerRefuse (d : Dev) (h : HalfId) : Dev := d.err (ctl .hlf h) cHLF_PEER_STATE h.other.n

def resetPeer (d : Dev) (h : HalfId) : Dev :=
  let o := h.other
  if !d.active h || d.active o || (d.hlf o).hold then d.peerRefuse h
  else (if d.hlfState o = 4 then d else d.hlfOff o 4 0xD).repairEnter o 0xD

def holdPeer (d : Dev) (h : HalfId) : Dev :=
  let o := h.other
  if !d.active h || d.active o then d.peerRefuse h
  else (if d.hlfState o = 4 then d else d.hlfOff o 4 0xD).modHlf o (fun x => { x with hold := true, faulted := false })

def releasePeer (d : Dev) (h : HalfId) : Dev :=
  let o := h.other
  if !d.active h || !(d.hlf o).hold then d.peerRefuse h
  else (d.modHlf o (fun x => { x with hold := false })).repairEnter o 0xD

/-- `HLF.CMD` and `HLF.PEER_CMD` (R366, Table 8). -/
def hlfCmd (d : Dev) (h : HalfId) (op : Nat) : Dev :=
  match op with | 1 => d.swap h | 2 => d.swapCancel h | 3 => d.err (ctl .hlf h) cRANGE | _ => d
def peerCmd (d : Dev) (h : HalfId) (op : Nat) : Dev :=
  match op with | 1 => d.resetPeer h | 2 => d.holdPeer h | 3 => d.releasePeer h | _ => d

/-- One second after a fault took half `h` OFFLINE, the other half restarts it (R365). -/
def autoRejoin (d : Dev) (h : HalfId) (clockOk : Bool) : Dev :=
  let p := ctl .hlf h
  let x := d.hlf h
  if !(d.hlfState h = 4 ∧ x.faulted ∧ ¬ x.hold ∧ d.running h.other ∧ d.on (ctl .hlf h.other) HLF.CFG_AUTO_REJOIN ∧ d.inputOk h) then d
  else
    let recent := x.restarts.filter (fun t => decide (d.now < t + day24))
    let why (d : Dev) (c : Nat) : Dev :=
      ((d.put p HLF.STATE_CAUSE c).put (ctl .hlf h.other) HLF.STATE_PEER_CAUSE c).note p clsState c h.n [4, 4]
    let d := d.modHlf h (fun y => { y with faulted := false, restarts := recent })
    if recent.length ≥ 3 then why d 0xE
    else
      let d := (d.modHlf h (fun y => { y with restarts := recent ++ [d.now] })).put p HLF.REJOIN_N24 (recent.length + 1)
      if clockOk then d.repairEnter h 0xF else (why d 0xC).err (ctl .hlf h.other) cHLF_NO_SPARE h.n

/-! ### The Seedbank (R361 to R364) -/

/-- A new entry of a half's Seedbank, and its REPAIR record (R362, Table 12). -/
def sbkEntry (d : Dev) (h : HalfId) (kind cause unit spare : Nat) : Dev :=
  let p := ctl .sbk h
  let n := d.get p SBK.ENTRIES_N
  let t := d.now
  let w0 := kind + 16 * cause + 256 * h.n + 65536 * unit
  let d := if n < 240 then
      ((((d.put p SBK.ENT_W0 w0 n).put p SBK.ENT_W1 spare n).put p SBK.ENT_W2 (t % 2 ^ 32) n).put p SBK.ENT_W3 (t / 2 ^ 32) n).put p SBK.ENTRIES_N (n + 1)
    else d
  (d.bump p SBK.GROW_COUNT).note p clsRepair kind unit [w0, spare, t % 2 ^ 32, t / 2 ^ 32]

/-- A core or loop engine fails; the spare takes its place unless it is in use or has failed (R361, R362). `false`: no spare is left. -/
def sbkUnit (d : Dev) (h : HalfId) (kind cause unit : Nat) (for_ failed map : Fld) (spare : Nat) : Dev × Bool :=
  let p := ctl .sbk h
  if unit = spare then
    let used := d.get p for_ ≠ 7
    (((d.put p failed 1).put p for_ 7).sbkEntry h kind cause unit 0xFFFF, !used)
  else
    let ok := d.get p for_ = 7 ∧ ¬ d.on p failed
    let d := d.putBit p map unit true
    if ok then ((d.put p for_ unit).sbkEntry h kind cause unit spare, true) else (d.sbkEntry h kind cause unit 0xFFFF, false)

/-- The SRAM row entries of a half's Seedbank: unit and spare. -/
def sbkRows (d : Dev) (h : HalfId) : List (Nat × Nat) :=
  let p := ctl .sbk h
  ((List.range (d.get p SBK.ENTRIES_N)).filter (fun n => d.get p SBK.ENT_W0 n % 16 == 3)).map (fun n => (d.get p SBK.ENT_W0 n / 65536, d.get p SBK.ENT_W1 n % 65536))

/-- Whether an SRAM row, or a spare row by its number from 8,192, is marked failed. -/
def rowFailed (d : Dev) (h : HalfId) (row : Nat) : Bool := (d.sbkRows h).any (fun e => e.1 == row)

/-- A spare row fails: it is marked failed by an entry of its own, and the row it served is then without a spare (R362); one not in use is no longer left. -/
def sbkSpareRow (d : Dev) (h : HalfId) (cause spare : Nat) : Dev × Bool :=
  let p := ctl .sbk h
  if d.rowFailed h spare then (d, false)
  else if (d.sbkRows h).any (fun e => e.2 == spare) then (d.sbkEntry h 3 cause spare 0xFFFF, false)
  else ((d.put p SBK.ROWS_LEFT (d.get p SBK.ROWS_LEFT - 1)).sbkEntry h 3 cause spare 0xFFFF, true)

/-- An SRAM row fails (R361, R362): a spare takes its place, the first one that neither serves a row nor has failed. A failure of a row that a spare
already serves is one of the spare. -/
def sbkRow (d : Dev) (h : HalfId) (cause row : Nat) : Dev × Bool :=
  let p := ctl .sbk h
  if row ≥ 8192 then d.sbkSpareRow h cause row
  else match (d.sbkRows h).find? (fun e => e.1 == row && e.2 != 0xFFFF) with
  | some e => d.sbkSpareRow h cause e.2
  | none =>
    let rows := d.sbkRows h
    match ((List.range 164).map (fun k => 8192 + k)).find? (fun s => !rows.any (fun e => e.1 == s || e.2 == s)) with
    | some s =>
      if d.get p SBK.ROWS_LEFT = 0 then (d.sbkEntry h 3 cause row 0xFFFF, false)
      else (((d.put p SBK.ROWS_USED (d.get p SBK.ROWS_USED + 1)).put p SBK.ROWS_LEFT (d.get p SBK.ROWS_LEFT - 1)).sbkEntry h 3 cause row s, true)
    | none => (d.sbkEntry h 3 cause row 0xFFFF, false)

/-- A unit of a half fails: 1 core, 2 loop engine, 3 SRAM row (R361, Table 6). -/
def sbkFail (d : Dev) (h : HalfId) (kind cause unit : Nat) : Dev × Bool :=
  match kind with
  | 1 => d.sbkUnit h 1 cause unit SBK.CORE_SPARE_FOR SBK.CORE_SPARE_FAILED SBK.CORE_FAILED 4
  | 2 => d.sbkUnit h 2 cause unit SBK.LE_SPARE_FOR SBK.LE_SPARE_FAILED SBK.LE_FAILED 3
  | 3 => d.sbkRow h cause unit
  | _ => (d, true)

/-- A training of the mirror link starts (R351). -/
def linkTrain (d : Dev) : Dev := d.both (fun d q => if d.outOfReset q then d.put (ctl .mir q) MIR.LINK_TRAIN 1 else d)

/-- Steps 1 to 3 of REPAIR (R363): the Seedbank is applied, BIST finds new failures (kind, unit, cause), spares are mapped; the link is down
while MIR is under test, and trained when that ends. -/
def repairSteps (d : Dev) (h : HalfId) (fails : List (Nat × Nat × Nat)) : Dev :=
  if d.hlfState h ≠ 5 then d
  else
    let d := d.mirDown
    let r := fails.foldl (fun (x : Dev × Bool) f => let y := x.1.sbkFail h f.1 f.2.2 f.2.1; (y.1, x.2 && y.2)) (d, true)
    if r.2 then (r.1.modHlf h (fun x => { x with ready := true })).linkTrain
    else (r.1.err (ctl .hlf h.other) cHLF_NO_SPARE h.n).hlfOff h 4 0xC

/-- REPAIR ends (R363, R538): before the claim strobe the half waits for it; after it the half joins as STANDBY_STALE while the other half
holds the lease, and claims otherwise. -/
def repairDone (d : Dev) (h : HalfId) : Dev :=
  if d.hlfState h ≠ 5 || !(d.hlf h).ready || !d.weir.strobed then d
  else if d.on (shp .wir) WIR.LEASE_VALID then d.joinStandby h 9
  else d.claim h

/-- An error in a word of a half's SRAM (R35): a corrected one is counted against its row, an uncorrectable one recorded with its address. -/
def sramErr (d : Dev) (h : HalfId) (addr : Nat) (ue : Bool) : Dev :=
  let row := (addr - sramBase) / 1024
  if ue then (d.modHlf h (fun x => { x with bad := (addr / 4 * 4) :: x.bad.filter (fun a => a != addr / 4 * 4) })).fault (ctl .hlf h) cECC 0 [addr]
  else d.modHlf h (fun x => { x with ces := (x.ces.filter (fun c => decide (d.now < c.2 + day24))) ++ [(row, d.now)] })

/-- An error found in a word of SRAM, by the scrubber or by an access: a row with an uncorrectable error or a second corrected error within
24 h is replaced by a spare, live (R35, R362). A word known to be poisoned answers ECC again and replaces nothing. -/
def sramFound (d : Dev) (h : HalfId) (addr : Nat) (ue : Bool) : Dev :=
  let row := (addr - sramBase) / 1024
  let poison := ue && (d.hlf h).bad.contains (addr / 4 * 4)
  let d := d.sramErr h addr ue
  if poison then d
  else if ue || decide (((d.hlf h).ces.filter (fun c => c.1 == row)).length ≥ 2) then
    let r := d.sbkRow h (if ue then 2 else 3) row
    let d := r.1.modHlf h (fun x => { x with ces := x.ces.filter (fun c => c.1 != row) })
    if r.2 then d else d.err (ctl .hlf h) cHLF_NO_SPARE row
  else d

/-- An error in a word of MRAM (R35, R40). -/
def mramErr (d : Dev) (off : Nat) (ue : Bool) : Dev :=
  let p := shp .nvm
  if ue then
    let d := ((d.bump p NVM.UE_COUNT_COUNT).put p NVM.UE_ADDR_LO (off % 2 ^ 32)).put p NVM.UE_ADDR_HI (off / 2 ^ 32)
    { d with mbad := (off / 4 * 4) :: d.mbad.filter (fun a => a != off / 4 * 4) }.fault p cECC 0 [off % 2 ^ 32, off / 2 ^ 32]
  else
    let d := d.bump p NVM.CE_COUNT_COUNT
    { d with mces := d.mces.filter (fun c => decide (d.now < c.2 + day24)) ++ [(off / 65536, d.now)] }

/-- The pages that a block of the Silt partition holds (R488): where the ring has put them is not stated, so those of a block that the
scrubber finds are free values. -/
def ringPages (d : Dev) (ps : Option (Nat × Nat)) : (Nat × Nat) × Dev :=
  match ps with
  | some x => (x, d)
  | none => let r := d.fresh; ((r.1.toNat % (d.silt.cur.pseq + 1), r.1.toNat % (d.silt.cur.pseq + 1) + 15), r.2)

/-- An error found in a word of MRAM, by the scrubber or by an access: a block with an uncorrectable error or a third corrected error within
24 h is remapped; with no spare left, a block of the Silt partition with an uncorrectable error is retired from the ring (R35, R362, R488). A word known to
be poisoned answers ECC again and remaps nothing. A block that fails again has lost its spare, which is marked failed (R362). -/
def mramFound (d : Dev) (off : Nat) (ue : Bool) (pages : Option (Nat × Nat)) : Dev :=
  let p := shp .nvm
  let blk := off / 65536
  let poison := ue && d.mbad.contains (off / 4 * 4)
  let d := d.mramErr off ue
  if poison then d
  else if ue || decide ((d.mces.filter (fun c => c.1 == blk)).length ≥ 3) then
    let left := d.get p NVM.REMAP_LEFT
    let cause := if ue then 2 else 3
    let again := d.remap.contains blk
    let d := { d with mces := d.mces.filter (fun c => c.1 != blk) }
    let d := if again && !d.remapBad.contains blk then
        { d with remapBad := d.remapBad ++ [blk] }.note p clsRepair 5 (blk % 65536) [5 + 16 * cause + 65536 * (blk % 65536), 0xFFFF, d.now % 2 ^ 32, d.now / 2 ^ 32]
      else d
    if left ≠ 0 ∧ ¬ again then
      let u := d.get p NVM.REMAP_USED
      let d := { d with remap := d.remap.filter (fun b => b != blk) ++ [blk] }
      let w0 := 5 + 16 * cause + 65536 * (blk % 65536)
      ((d.put p NVM.REMAP_USED (u + 1)).put p NVM.REMAP_LEFT (left - 1)).note p clsRepair 5 (blk % 65536) [w0, u, d.now % 2 ^ 32, d.now / 2 ^ 32]
    else if ue = true ∧ 0x24000000 ≤ off ∧ off < d.userBase then
      let r := d.ringPages pages
      r.2.siltRetire blk r.1.1 r.1.2
    else d.err p cHLF_NO_SPARE (blk % 65536)
  else d

/-! ### The mirror link (R351) -/

/-- A packet fails its CRC at half `h`: it is sent once more; a second failure, or the loss of lane lock, starts a retraining. -/
def packetFail (d : Dev) (h : HalfId) (e : LinkErr) : Dev :=
  if !d.mirUp then d
  else match e with
  | .crc => (d.bump (ctl .mir h) MIR.CRC_ERR_COUNT).bump (ctl .mir h.other) MIR.RESEND_COUNT
  | .again => (d.bump (ctl .mir h) MIR.CRC_ERR_COUNT).linkTrain
  | .lock => d.linkTrain

/-- Training ends on the working lanes: four, two or one of them, or none (R351). -/
def linkTrained (d : Dev) (lanes : Nat) : Dev :=
  let n := popc 4 lanes
  if n = 0 ∨ !(d.outOfReset .a && d.outOfReset .b) then (d.mirDown).both (fun d q => d.put (ctl .mir q) MIR.LINK_TRAIN 0)
  else
      let width := if n = 4 then 3 else if n ≥ 2 then 2 else 1
      let one (d : Dev) (h : HalfId) : Dev :=
        let p := ctl .mir h
        let d := (((d.put p MIR.LINK_UP 1).put p MIR.LINK_LANES lanes).put p MIR.LINK_WIDTH width).put p MIR.LINK_TRAIN 0
        let d := (d.put (ctl .hlf h) HLF.STATE_PEER_QUIET 0).modHlf h (fun x => { x with quiet := none })
        if width < 3 then d.fault p cMIR_NARROW lanes else d
      d.both one

end Dev

/-! ### Meanings -/

def execCyclePublish (h : HalfId) (us ns : Word) (s : State) : Host.Outcome State Fault Refusal := onDev (fun d => d.cyclePublish h us.toNat ns.toNat) s
def execCycleSnapshot (h : HalfId) (dt : BitVec 48) (ns : Word) (s : State) : Host.Outcome State Fault Refusal :=
  onDev (fun d => d.cycleSnap h dt.toNat ns.toNat) s
def execIdleCycleEvent (h : HalfId) (s : State) : Host.Outcome State Fault Refusal := onDev (fun d => d.idleEvent h) s
def execShadowCopy (h : HalfId) (s : State) : Host.Outcome State Fault Refusal := onDev (fun d => d.shadowEnd h) s
def execCycleMarker (h : HalfId) (dt : BitVec 48) (ns : Word) (s : State) : Host.Outcome State Fault Refusal :=
  onDev (fun d => d.markerStep h dt.toNat ns.toNat) s
def execCycWdog (h : HalfId) (s : State) : Host.Outcome State Fault Refusal := onDev (fun d => d.cycWdog h) s
def execServoStateReceive (h : HalfId) (s : State) : Host.Outcome State Fault Refusal := onDev (fun d => d.servoReceive h) s
def execServoStateMiss (h : HalfId) (s : State) : Host.Outcome State Fault Refusal := onDev (fun d => d.servoMiss h) s
def execMirPacketCrcFail (h : HalfId) (e : LinkErr) (s : State) : Host.Outcome State Fault Refusal := onDev (fun d => d.packetFail h e) s
def execMirLinkDown (s : State) : Host.Outcome State Fault Refusal := onDev (fun d => d.mirDown) s
def execMirLinkUp (lanes : BitVec 4) (s : State) : Host.Outcome State Fault Refusal := onDev (fun d => d.linkTrained lanes.toNat) s
def execLeaseRenewal (h : HalfId) (epoch : BitVec 16) (s : State) : Host.Outcome State Fault Refusal := onDev (fun d => d.renewal h epoch.toNat) s
def execLeaseExpiry (s : State) : Host.Outcome State Fault Refusal := onDev (fun d => d.leaseInvalid) s
def execHalfAbort (h : HalfId) (s : State) : Host.Outcome State Fault Refusal := onDev (fun d => d.halfAbort h) s
def execStandbyClaim (h : HalfId) (s : State) : Host.Outcome State Fault Refusal := onDev (fun d => d.claim h) s
def execClaimWindowEnd (gap : BitVec 20) (dt : BitVec 48) (s : State) : Host.Outcome State Fault Refusal := onDev (fun d => d.windowEnd gap.toNat dt.toNat) s
def execWeirNohold (s : State) : Host.Outcome State Fault Refusal := onDev (fun d => d.noHold) s

/-- No motion intent has arrived for 1.0 ms plus two servo periods (R349). -/
def execIntentTimeout (s : State) : Host.Outcome State Fault Refusal := onDev (fun d => d.deviceStop) s

def execResyncComplete (h : HalfId) (s : State) : Host.Outcome State Fault Refusal := onDev (fun d => d.resync h) s
def execDisagree (h : HalfId) (s : State) : Host.Outcome State Fault Refusal := onDev (fun d => d.disJudge h) s
def execSwap (h : HalfId) (s : State) : Host.Outcome State Fault Refusal := onDev (fun d => d.swap h) s
def execSwapRelease (h : HalfId) (s : State) : Host.Outcome State Fault Refusal := onDev (fun d => d.swapRelease h) s
def execSwapProofDone (s : State) : Host.Outcome State Fault Refusal := onDev (fun d => d.proofDone) s
def execSwapCancel (h : HalfId) (s : State) : Host.Outcome State Fault Refusal := onDev (fun d => d.swapCancel h) s
def execResetPeer (h : HalfId) (s : State) : Host.Outcome State Fault Refusal := onDev (fun d => d.resetPeer h) s
def execHoldPeer (h : HalfId) (s : State) : Host.Outcome State Fault Refusal := onDev (fun d => d.holdPeer h) s
def execReleasePeer (h : HalfId) (s : State) : Host.Outcome State Fault Refusal := onDev (fun d => d.releasePeer h) s
def execProofAgeDue (h : HalfId) (s : State) : Host.Outcome State Fault Refusal := onDev (fun d => d.proofDue h) s
def execAutoRejoin (h : HalfId) (clockOk : Bool) (s : State) : Host.Outcome State Fault Refusal := onDev (fun d => d.autoRejoin h clockOk) s

/-- REPAIR steps 1 to 3 with the failures that BIST finds, or the errors that sent the half there: kind (1 core, 2 loop engine, 3 SRAM row), unit,
and cause (R362, R363). -/
def execRepairEntry (h : HalfId) (fails : List (BitVec 2 × BitVec 13 × BitVec 4)) (s : State) : Host.Outcome State Fault Refusal :=
  onDev (fun d => d.repairSteps h (fails.map (fun f => (f.1.toNat, f.2.1.toNat, f.2.2.toNat)))) s

def execRepairDone (h : HalfId) (s : State) : Host.Outcome State Fault Refusal := onDev (fun d => d.repairDone h) s

/-- HCLK of a half lies outside ±2 % (R344, R345): one that still runs sends the RELEASE; one that has stopped does not. -/
def execHclkOutOfRange (h : HalfId) (runs : Bool) (s : State) : Host.Outcome State Fault Refusal := onDev (fun d => d.halfAbortBy h runs true) s

/-- An error in the word at an MRAM offset; `first` and `last` are the ring pages of its block, if it lies in the Silt partition. -/
def execMramBlockRemap (off : BitVec 33) (ue : Bool) (first last : BitVec 64) (s : State) : Host.Outcome State Fault Refusal :=
  onDev (fun d => d.mramFound off.toNat ue (some (first.toNat, last.toNat))) s

end Sys2Proof.Machine
end

