-- ==== Sys2Proof/Machine/Enclave.lean ====
section
/-! DEFINITION. The Polcia enclave (spec/18_security.md, R496 to R521): nonces, tokens, keys, authorisations, attestation, installation of images,
tamper; and what the host link does without an access of its own (R522 to R528). -/
namespace Sys2Proof.Machine

open Sys2Proof

def cENC_TOKEN : Nat := 0x64
def cENC_NONCE : Nat := 0x65
def cENC_KEY : Nat := 0x66
def cENC_EXPIRED : Nat := 0x67
def cENC_RATE : Nat := 0x68
def cENC_LAST_CUSTODIAN : Nat := 0x6A
def cENC_LIFECYCLE : Nat := 0x6B
def cENC_SLOT : Nat := 0x6C
def cENC_KEY_FULL : Nat := 0x6D
def cHST_PROTO : Nat := 0xE8
def cHST_FULL : Nat := 0xE9
def cHST_BOOT_ORDER : Nat := 0xEA
def cHST_BOOT_IDLE : Nat := 0xEB

/-- The requester group of an operation under way. -/
def jobGrp : EncJob → Nat
  | .install g _ _ => g
  | .attest g _ => g

namespace Dev

def modEnc (d : Dev) (f : Enc → Enc) : Dev := { d with encl := f d.encl }

/-- The four words of a 128-bit value in a register array of a requester group. -/
def put128 (d : Dev) (f : Fld) (g : Nat) (v : BitVec 128) : Dev :=
  (List.range 4).foldl (fun d i => d.put (shp .enc) f (v.toNat / 2 ^ (32 * i)) i g) d

def words128 (v : BitVec 128) : List Nat := (List.range 4).map (fun i => v.toNat / 2 ^ (32 * i) % 2 ^ 32)

/-! ### Commands of the mailbox (R496, R520) -/

/-- A command ends: DONE, or REFUSED with its reason. -/
def encEnd (d : Dev) (g : Nat) (why : Option Nat) : Dev :=
  let p := shp .enc
  let d := ((d.put p ENC.CMD_ST_STATE (if why.isSome then 3 else 2) 0 g).put p ENC.CMD_ST_REASON (why.getD 0) 0 g).stat p 0
  match why with
  | some w => d.err p w g
  | none => d

/-- A command for which the master lacks privilege or role: PRIV, recorded as R56 sets out. -/
def encPriv (d : Dev) (w : Who) (op : Nat) : Dev :=
  (d.encEnd w.encGrp (some cPRIV)).refuse w (shp .enc) cPRIV (pageBase (shp .enc) + ENC.CMD_OP.off) op 0

/-- One command at a time (R496): what a command does while none runs, and BUSY otherwise; the state of a group whose own command runs stays BUSY. -/
def encOne (d : Dev) (w : Who) (f : Dev → Dev) : Dev :=
  match d.encl.job with
  | none => f d
  | some j =>
    let d := (d.put (shp .enc) ENC.CMD_ST_REASON cBUSY 0 w.encGrp).err (shp .enc) cBUSY w.encGrp
    if jobGrp j = w.encGrp then d else (d.put (shp .enc) ENC.CMD_ST_STATE 3 0 w.encGrp).stat (shp .enc) 0

/-! ### Nonces (R502, R503) -/

def setNonce (d : Dev) (g : Nat) (n : Option (BitVec 128)) : Dev :=
  (d.modEnc (fun e => { e with nonce := lset e.nonce g n })).put128 ENC.NONCE g (n.getD 0)

/-- A fresh 128-bit value of the random source: a free value. -/
def fresh128 (d : Dev) : BitVec 128 × Dev :=
  let r := (List.range 4).foldl (fun (x : Nat × Dev) i => let f := x.2.fresh; (x.1 + f.1.toNat * 2 ^ (32 * i), f.2)) ((0, d) : Nat × Dev)
  (BitVec.ofNat 128 r.1, r.2)

def encNonce (d : Dev) (w : Who) : Dev :=
  let g := w.encGrp
  d.encOne w (fun d =>
    let d := d.setNonce g none
    if d.encl.withheld.getD g false then d.encEnd g (some cENC_RATE)
    else let r := d.fresh128; (r.2.setNonce g (some r.1)).encEnd g none)

/-! ### Authorisations (R504, R513) -/

/-- A SECURITY record of the enclave. -/
def encNote (d : Dev) (w : Who) (code detail : Nat) (words : List Nat) : Dev := d.noteBy w (shp .enc) clsSecurity code detail words

/-- The authorisation of a group ends; for the host group, its session with it. -/
def authClose (d : Dev) (g : Nat) : Dev :=
  let p := shp .enc
  if d.get p ENC.AUTH_ROLE 0 g = 0 then d
  else
    let role := d.get p ENC.AUTH_ROLE 0 g
    let key := (d.encl.authKey.getD g none).getD 0
    let d := (((d.put p ENC.AUTH_ROLE 0 0 g).put p ENC.AUTH_LEFT_S 0 0 g).put128 ENC.AUTH_KEY g 0).stat p 1
    let d := d.modEnc (fun e => { e with authKey := lset e.authKey g none })
    let d := if g = 1 then ((d.put (shp .hst) HST.STATUS_SESSION 0).put (shp .hst) HST.STATUS_ROLE 0).put (shp .hst) HST.IDLE_LEFT_S 0 else d
    d.encNote Who.part 0 g (role :: words128 key)

def authCloseAll (d : Dev) : Dev := (List.range 3).foldl authClose d

/-- An AUTH token opens an authorisation. -/
def authOpen (d : Dev) (w : Who) (role secs : Nat) (key : BitVec 128) : Dev :=
  let p := shp .enc
  let g := w.encGrp
  let d := d.authClose g
  let d := (((d.put p ENC.AUTH_ROLE role 0 g).put p ENC.AUTH_LEFT_S secs 0 g).put128 ENC.AUTH_KEY g key).stat p 1
  let d := d.modEnc (fun e => { e with authKey := lset e.authKey g (some key) })
  if g = 1 then
    ((d.put (shp .hst) HST.STATUS_SESSION 1).put (shp .hst) HST.STATUS_ROLE role).put (shp .hst) HST.IDLE_LEFT_S (d.get p ENC.SESS_IDLE_S)
  else d

/-! ### Keys (R499, R500) -/

def slotBase (s : Nat) : Nat := s * 0x10000000

/-- Whether a slot holds a valid image, and its header (R508, R511). -/
def slotHdr (d : Dev) (s : Nat) : Option ImgHdr :=
  if bitN d.encl.slotBad s = 1 ∨ (d.imgWhy d.mram (slotBase s)).isSome then none else imgHdr d.mram (slotBase s)

/-- Show the versions of the valid slots. -/
def showSlots (d : Dev) : Dev :=
  let v (s : Nat) : Nat := ((d.slotHdr s).map (fun h => h.ver)).getD 0
  (d.put (shp .enc) ENC.SLOTA_VER_V (v 0)).put (shp .enc) ENC.SLOTB_VER_V (v 1)

/-- Show the key store, and the slots whose images it makes valid or not (R508). -/
def showKeys (d : Dev) : Dev :=
  ((d.put (shp .enc) ENC.KEYS_USED d.keys.length).putb (shp .enc) ENC.KEYS_CUSTODIAN (d.keys.any (fun k => k.role == 4))).showSlots

def hasCustodian (d : Dev) : Bool := d.keys.any (fun k => k.role == 4)

/-! ### Lifecycle (R497, R498, R517) -/

/-- Zeroise the device private key and the key store. -/
def zeroise (d : Dev) : Dev := (({ d with keys := [] }.modEnc (fun e => { e with devKey := false })).showKeys).stat (shp .enc) 3

/-- A lifecycle change: every authorisation closes and every nonce lapses. -/
def lifeTo (d : Dev) (st : Nat) : Dev :=
  let d := (d.authCloseAll).put (shp .enc) ENC.LIFE_STATE st
  ((List.range 3).foldl (fun d g => d.setNonce g none) d).sltNonceEnd

/-! ### Tokens (R501, R503) -/

/-- A presented token: its bytes. -/
abbrev Token := List Nat

def tokAt (t : Token) (a n : Nat) : Nat := leAt t a n
def tokKind (t : Token) : Nat := tokAt t 6 1
def tokRole (t : Token) : Nat := tokAt t 7 1
def tokKey (t : Token) : BitVec 128 := BitVec.ofNat 128 (tokAt t 0x28 16)
def tokArg (t : Token) (a n : Nat) : Nat := tokAt t (0x80 + a) n
def tokZero (t : Token) (a b : Nat) : Bool := ((t.drop a).take (b - a)).all (fun x => x == 0)

/-- The token in the port of a group. -/
def tokenOf (d : Dev) (g : Nat) : Token := (List.range 864).flatMap (fun i => leBytes 4 (d.get (shp .enc) ENC.TOK_DATA_WORD 0 (g * 1024 + i)))

/-- The token of a group's port is discarded. -/
def tokenDrop (d : Dev) (g : Nat) : Dev := (List.range 864).foldl (fun d i => d.put (shp .enc) ENC.TOK_DATA_WORD 0 0 (g * 1024 + i)) d

/-- MAGIC, FORMAT, KIND, the arguments of the kind and the zero bytes (R503 step 1). -/
def tokForm (t : Token) : Bool :=
  decide (tokAt t 0 4 = 0x544F4B31 ∧ tokAt t 4 2 = 1) && tokZero t 0x40 0x80 &&
    (match tokKind t with
     | 1 => inSpan (tokArg t 0 4) 1 28800 && tokZero t 0x84 0x880
     | 2 => decide (tokArg t 0 1 ≤ 15) && inSpan (tokArg t 1 1) 1 4 && tokZero t 0x82 0x90 && tokZero t 0x791 0x880
     | 3 => tokZero t 0x90 0x880
     | 4 => decide (tokArg t 0 1 ≤ 1) && tokZero t 0x81 0x84 && tokZero t 0x88 0x880
     | 5 => tokZero t 0x81 0x880
     | _ => false)

/-- Whether the signer is allowed for the kind (R503 step 3, Table 3, R500). -/
def tokSigner (d : Dev) (t : Token) : Bool :=
  let role := tokRole t
  let known := d.keys.any (fun k => k.id == tokKey t && k.role == role) && decide (role ≠ 5) || (role == 5 && tokKey t == Config.vendorKey)
  known && (match tokKind t with
    | 1 => decide (role ≠ 5)
    | 2 => if d.hasCustodian then role == 4 else role == 5 && tokArg t 1 1 == 4
    | 5 => (match tokArg t 0 1 with | 3 => role == 5 | 2 => role == 4 | _ => role == 4 || role == 5)
    | _ => role == 4)

def tokSigned (t : Token) : Bool :=
  Config.falconOk (tokKey t) (digestBytes ((t.take 0x880).map (BitVec.ofNat 8))) (((t.drop 0x880).take 0x500).map (BitVec.ofNat 8))

/-- The live nonce a kind is checked against (R501, Table 3): that of `SLT` once, for a SILT_CLEAR. -/
def tokNonce (d : Dev) (g : Nat) (t : Token) : Option (BitVec 128) :=
  if tokKind t = 4 then (if d.silt.token.isSome then none else d.silt.nonce) else d.encl.nonce.getD g none

/-- The identifier of the key a KEY_ADD carries. -/
def tokNewKey (t : Token) : BitVec 128 := digest128 (((t.drop 0x90).take 1793).map (BitVec.ofNat 8))

/-- The conditions of the kind itself (R503 step 7). A KEY_ADD into a slot in use is refused as a full store is. -/
def tokOwn (d : Dev) (g : Nat) (t : Token) : Option Nat :=
  let life := d.get (shp .enc) ENC.LIFE_STATE
  match tokKind t with
  | 2 => if d.keys.length ≥ 16 ∨ d.keys.any (fun k => k.slot == tokArg t 0 1) then some cENC_KEY_FULL else none
  | 3 =>
    let id := BitVec.ofNat 128 (tokArg t 0 16)
    if !d.keys.any (fun k => k.id == id) then some cENC_KEY
    else if !(d.keys.filter (fun k => k.id != id)).any (fun k => k.role == 4) then some cENC_LAST_CUSTODIAN
    else none
  | 5 =>
    if tokArg t 0 1 = 2 ∧ life = 1 then none
    else if tokArg t 0 1 = 3 ∧ life = 2 ∧ d.get (shp .enc) ENC.AUTH_ROLE 0 g = 4 then none
    else some cENC_LIFECYCLE
  | _ => none

/-- The first check of R503, Table 4, that a token fails. -/
def tokWhy (d : Dev) (g : Nat) (t : Token) : Option Nat :=
  let dev := d.get64 (shp .enc) ENC.DEV_ID_LO ENC.DEV_ID_HI
  if !tokForm t then some cENC_TOKEN
  else if tokAt t 8 8 = 0 ∨ tokAt t 8 8 ≠ dev then some cENC_TOKEN
  else if !d.tokSigner t then some cENC_KEY
  else if !tokSigned t then some cSIGNATURE
  else if d.tokNonce g t ≠ some (BitVec.ofNat 128 (tokAt t 0x10 16)) then some cENC_NONCE
  else if d.rtcBit 0 ∧ d.now > tokAt t 0x38 8 then some cENC_EXPIRED
  else d.tokOwn g t

/-- What an accepted token does. -/
def tokDo (d : Dev) (w : Who) (t : Token) : Dev :=
  let g := w.encGrp
  match tokKind t with
  | 1 =>
    let left := if d.rtcBit 0 then (tokAt t 0x38 8 - d.now) / 65536 else 28800
    d.authOpen w (tokRole t) (min (tokArg t 0 4) left) (tokKey t)
  | 2 => (({ d with keys := d.keys ++ [(⟨tokArg t 0 1, tokNewKey t, tokArg t 1 1⟩ : Key)] }).showKeys).stat (shp .enc) 3
  | 3 =>
    let id := BitVec.ofNat 128 (tokArg t 0 16)
    let d := (({ d with keys := d.keys.filter (fun k => k.id != id) }).showKeys).stat (shp .enc) 3
    (List.range 3).foldl (fun d q => if d.encl.authKey.getD q none = some id then d.authClose q else d) d
  | 4 => d.modSilt (fun s => { s with token := some (tokArg t 0 1, tokArg t 4 4, tokKey t, tokAt t 0x20 8) })
  | 5 =>
    if tokArg t 0 1 = 3 then ((d.zeroise).lifeTo 3).encNote w 3 g [3] else (d.lifeTo 2).encNote w 2 g [2]
  | _ => d

/-- The payload of the record of a PRESENT: KIND, ROLE, SERIAL, KEY_ID, the result, and for a change of keys the other identifier (R500, R503). -/
def tokRecord (t : Token) (why : Option Nat) : List Nat :=
  [tokKind t, tokRole t, tokAt t 0x20 4, tokAt t 0x24 4] ++ words128 (tokKey t) ++ [why.getD 0] ++
    (match tokKind t with
     | 2 => words128 (tokNewKey t)
     | 3 => words128 (BitVec.ofNat 128 (tokArg t 0 16))
     | _ => [])

/-- PRESENT (R503). -/
def encPresent (d : Dev) (w : Who) : Dev :=
  let g := w.encGrp
  d.encOne w (fun d =>
    let t := d.tokenOf g
    let why := d.tokWhy g t
    let d := d.encNote w (why.getD 0) g (tokRecord t why)
    match why with
    | some _ =>
      let n := d.encl.refused.getD g 0 + 1
      let d := d.modEnc (fun e => { e with refused := lset e.refused g n, withheld := if n ≥ 5 then lset e.withheld g true else e.withheld })
      ((d.tokenDrop g).stat (shp .enc) 2).encEnd g why
    | none =>
      let d := d.modEnc (fun e => { e with refused := lset e.refused g 0 })
      let d := if tokKind t = 4 then d else d.setNonce g none
      (d.tokDo w t).encEnd g none)

/-- A PRESENT of a token of one kind. -/
def presentKind (d : Dev) (w : Who) (kind : Nat) : Dev := if tokKind (d.tokenOf w.encGrp) = kind then d.encPresent w else d

/-! ### Attestation (R512) -/

def slotReport (d : Dev) (s : Nat) : List Nat :=
  match d.slotHdr s with
  | some h => leBytes 4 h.id ++ leBytes 4 h.ver ++ ((digestBytes (imgMsg d.mram (slotBase s) h.len)).take 16).map BitVec.toNat
  | none => List.replicate 24 0

/-- The report of Table 7 without its signature. -/
def attReport (d : Dev) (g : Nat) : List Nat :=
  let e := shp .enc
  let b := shp .bot
  let s := shp .sfc
  let h := d.holder
  let newest := d.silt.cur.pseq - 1
  let newSeal : Nat := if d.silt.cur.pseq = 0 then 0 else d.silt.lastSeal.toNat
  let keyBytes := d.keys.flatMap (fun k => [k.slot, k.role] ++ leBytes 16 k.id.toNat)
  leBytes 4 0x41545331 ++ leBytes 4 1 ++ leBytes 8 (d.get64 e ENC.DEV_ID_LO ENC.DEV_ID_HI) ++
  (List.range 4).flatMap (fun i => leBytes 4 (d.get e ENC.ATT_CHAL i g)) ++
  leBytes 8 d.now ++ [(d.rtcBit 0).toNat, d.get e ENC.LIFE_STATE, d.get b BOT.VARIANT_CODE, d.get b BOT.STRAP_RAW % 128] ++ leBytes 4 (d.get b BOT.BOOTS_COUNT) ++
  [d.get e ENC.BOOT_SLOT] ++ List.replicate 15 0 ++ d.slotReport 0 ++ d.slotReport 1 ++
  leBytes 4 (d.get (ctl .cyx h) CYX.IMG_ID) ++ leBytes 4 (d.get e ENC.MIN_VER_V) ++
  leBytes 4 (d.get s SFC.BLOCK_ID_ID) ++ leBytes 2 (match d.saf.active with | some blk => sealCode blk | none => 0) ++ leBytes 2 (d.get s SFC.STATE_CODE) ++
  ((digestBytes (keyBytes.map (BitVec.ofNat 8))).take 16).map BitVec.toNat ++
  leBytes 8 newest ++ leBytes 16 newSeal ++
  leBytes 2 (d.get (ctl .sbk .a) SBK.ENTRIES_N) ++ leBytes 2 (d.get (ctl .sbk .b) SBK.ENTRIES_N) ++ leBytes 2 (d.hlfState .a) ++ leBytes 2 (d.hlfState .b) ++
  leBytes 4 (d.get e ENC.TAMPER_FLAGS) ++ List.replicate 76 0

/-- Words into the report port of a group. -/
def putReport (d : Dev) (g : Nat) (ws : List Nat) : Dev :=
  (ws.zipIdx).foldl (fun d x => d.put (shp .enc) ENC.REP_DATA_WORD x.1 0 (g * 1024 + x.2)) d

def encBusy (d : Dev) (g : Nat) (j : EncJob) : Dev :=
  ((d.modEnc (fun e => { e with job := some j })).put (shp .enc) ENC.CMD_ST_STATE 1 0 g).put (shp .enc) ENC.CMD_ST_REASON 0 0 g

def encAttest (d : Dev) (w : Who) : Dev := d.encOne w (fun d => d.encBusy w.encGrp (.attest w.encGrp (d.attReport w.encGrp)))

/-- The report and its signature stand in the report port; a part whose device key is gone signs with no key the spec names, so the
words of its signature are free. -/
def attestDone (d : Dev) : Dev :=
  match d.encl.job with
  | some (.attest g r) =>
    let dig := digestBytes (r.map (BitVec.ofNat 8))
    let sign (i : Nat) : Nat := if d.encl.devKey then (Config.falconSign dig i).toNat else (Config.freeWord (d.freeCtr + i)).toNat
    let ws := (List.range 64).map (fun i => leAt r (4 * i) 4) ++ (List.range 320).map sign
    let d := { d with freeCtr := if d.encl.devKey then d.freeCtr else d.freeCtr + 320 }
    ((d.modEnc (fun e => { e with job := none })).putReport g ws).encEnd g none
  | _ => d

/-- CERT: the identity, and words the spec gives no content (R512). -/
def encCert (d : Dev) (w : Who) : Dev :=
  d.encOne w (fun d =>
    let e := shp .enc
    let ws := [d.get e ENC.DEV_ID_LO, d.get e ENC.DEV_ID_HI] ++ (List.range 770).map (fun i => (Config.certWord (i + 2)).toNat)
    (d.putReport w.encGrp ws).encEnd w.encGrp none)

/-- A read of `REP_DATA`. -/
def repRead (d : Dev) (g : Nat) : Dev :=
  let p := shp .enc
  let a := d.get p ENC.REP_ADDR_WORD 0 g
  let v := d.get p ENC.REP_DATA_WORD 0 (g * 1024 + a)
  { (d.put p ENC.REP_ADDR_WORD (a + 1) 0 g) with resp := ⟨[BitVec.ofNat 32 v], false, 0⟩ }

/-- A write of `TOK_DATA`. -/
def tokWrite (d : Dev) (g v : Nat) : Dev :=
  let p := shp .enc
  let a := d.get p ENC.TOK_ADDR_WORD 0 g
  (d.put p ENC.TOK_DATA_WORD v 0 (g * 1024 + a)).put p ENC.TOK_ADDR_WORD (if a ≥ 863 then 0 else a + 1) 0 g

/-! ### Images (R509, R511) -/

/-- Whether the master has the engineer role, with privilege (R505, R506). -/
def engineer (d : Dev) (w : Who) : Bool := d.privileged w && roleIncludes (d.roleOf w) 2

def slotMark (d : Dev) (s : Nat) (bad : Bool) : Dev := (d.modEnc (fun e => { e with slotBad := setBitN e.slotBad s bad })).showSlots

/-- Copy bytes within MRAM; what the target held there is gone. -/
def mramCopy (m : List Host.Cell) (src dst len : Nat) : List Host.Cell :=
  (m.filter (fun c => decide (src ≤ c.1 ∧ c.1 < src + len))).foldl (fun m c => memWrite m (dst + (c.1 - src)) c.2) (memClear m dst len)

/-- INSTALL: the source is checked, then its copy runs. In the recovery behaviour only the host link may give it (R510). -/
def encInstall (d : Dev) (w : Who) : Dev :=
  let p := shp .enc
  let g := w.encGrp
  if !d.engineer w || (d.get (shp .bot) BOT.PHASE_CODE == 7 && g != 1) then d.encPriv w 6
  else d.encOne w (fun d =>
    let a := d.get p ENC.INST_SRC * 65536
    let s := d.get p ENC.INST_SLOT
    if a < d.userBase ∨ mramEnd ≤ a then d.encEnd g (some cRANGE)
    else if d.get p ENC.BOOT_SLOT = s then d.encEnd g (some cENC_SLOT)
    else match d.imgWhy d.mram a with
      | some why => ((d.slotMark s true).encEnd g (some why)).encNote w why g [s]
      | none => (d.slotMark s true).encBusy g (.install g a s))

/-- The copy ends, verified or not; its writes make failed words of the slot good again (R362). -/
def installDone (d : Dev) (ok : Bool) : Dev :=
  match d.encl.job with
  | some (.install g a s) =>
    let d := d.modEnc (fun e => { e with job := none })
    let len := ((imgHdr d.mram a).map (fun h => h.len)).getD 0
    let d := { d with mram := mramCopy d.mram a (slotBase s) (0x1000 + len), mbad := d.mbad.filter (fun b => !coversWord (slotBase s) (0x1000 + len) b) }
    if ok then
      let d := d.slotMark s false
      let good := (d.slotHdr s).isSome
      let d := if good then d else d.slotMark s true
      (d.encEnd g (if good then none else some cSIGNATURE)).encNote Who.part 0 g [s, d.get (shp .enc) (if s = 0 then ENC.SLOTA_VER_V else ENC.SLOTB_VER_V)]
    else (d.encEnd g (some cECC)).encNote Who.part cECC g [s]
  | _ => d

/-- ACCEPT_VERSION: `MIN_VER` rises to the version of the running image. -/
def acceptVersion (d : Dev) (w : Who) : Dev :=
  let p := shp .enc
  if !d.engineer w then d.encPriv w 7
  else d.encOne w (fun d =>
    let v := ((d.cyx d.holder).img.map (fun i => i.ver)).getD 0
    ((d.put p ENC.MIN_VER_V (max v (d.get p ENC.MIN_VER_V))).showSlots).encEnd w.encGrp none)

def encClose (d : Dev) (w : Who) : Dev := d.encOne w (fun d => (d.authClose w.encGrp).encEnd w.encGrp none)

/-- An abort of ENC (R67): the operation under way ends FAILED with ABORTED; the slot of an INSTALL stays marked invalid. -/
def abortEnc (d : Dev) : Dev :=
  let d := match d.encl.job with
    | some j => (d.modEnc (fun e => { e with job := none })).encEnd (jobGrp j) (some cABORTED)
    | none => d
  d.abortPage (shp .enc) false

/-- `ENC.CMD` (R520, Table 10). -/
def encCmd (d : Dev) (w : Who) (op : Nat) : Dev :=
  match op with
  | 1 => d.encNonce w
  | 2 => d.encPresent w
  | 3 => d.encClose w
  | 4 => d.encAttest w
  | 5 => d.encCert w
  | 6 => d.encInstall w
  | 7 => d.acceptVersion w
  | _ => d

/-! ### Tamper and the device safe state (R23, R292, R517) -/

/-- The part enters the device safe state (R23, R292). No set-point request is made in it; one that waits already stays, and whether the controller
still sends it is not stated (notes/assumptions/67.md). -/
def deviceSafe (d : Dev) : Dev := (({ d with saf := { d.saf with deviceSafe := true } }.fioSafe 4)).deviceStop

/-- Tamper detection: bit of `ENC.TAMPER` (R517). -/
def tamper (d : Dev) (sensor : Nat) : Dev :=
  let p := shp .enc
  let d := (((d.putBit p ENC.TAMPER_FLAGS sensor true).putBit p ENC.TAMPER_FLAGS 4 true).zeroise).authCloseAll
  let d := (((List.range 3).foldl (fun d g => d.setNonce g none) d).sltNonceEnd).stat p 4
  if d.boot.released then d.deviceSafe else d

/-! ### The host link beside its accesses (R525, R526) -/

/-- Whether the host link takes transactions: HOST_EN strapped on and the part out of reset (R525, R534). -/
def hostOn (d : Dev) : Bool := bitN (d.get (shp .bot) BOT.STRAP_RAW) 6 == 1 && d.boot.released && !d.boot.nreset

def hstCount (d : Dev) : Dev :=
  let d := d.wrapUp (shp .hst) HST.XFER_COUNT
  if d.on (shp .hst) HST.STATUS_SESSION then d.put (shp .hst) HST.IDLE_LEFT_S (d.get (shp .enc) ENC.SESS_IDLE_S) else d

/-- A malformed transaction (R522). -/
def hstProto (d : Dev) (addr : Nat) : Dev := (d.bump (shp .hst) HST.ERR_CNT_PROTO).err (shp .hst) cHST_PROTO (addr % 65536)

/-- STATUS. -/
def hstStatus (d : Dev) : Dev :=
  let p := shp .hst
  if !d.hostOn then d
  else
    let d := d.hstCount
    let w := d.readWord ⟨0x12, false⟩ p 0x040
    { ((d.put p HST.STATUS_WR_ERR 0).put p HST.STATUS_FULL 0) with resp := ⟨[BitVec.ofNat 32 w], false, 0⟩ }

/-- RESET. -/
def hstReset (d : Dev) : Dev :=
  let p := shp .hst
  if !d.hostOn then d
  else
    let was := d.on p HST.STATUS_SESSION
    let d := ((((d.hstCount).put p HST.STATUS_WR_ERR 0).put p HST.STATUS_FULL 0).put p HST.STATUS_WR_FREE 64).authClose 1
    if was then d.stat p 2 else d

/-- The recovery behaviour after a boot without a valid image (R510, R541): a SECURITY record, and no program. -/
def bootFail (d : Dev) (why : Nat) : Dev := d.encNote Who.part why 0 [d.get (shp .enc) ENC.BOOT_SLOT]

/-- `CYX.CORE_MASK` of a boot, from the committed configuration (R338). -/
def bootMask (d : Dev) : Nat :=
  let p := ctl .cyx .a
  let row := d.bootGen.1.bind (fun g => (genRows g p).find? (fun e => decide (keyFld p e.1 = some (CYX.CORE_MASK_CORES, 0, 0))))
  match row with | some e => e.2.toNat | none => 1

/-- Why a boot image is not taken: its validity (R508), or what no half may run (R313, R324, R330, R405). -/
def bootWhy (d : Dev) (m : List Host.Cell) (a : Nat) : Option Nat :=
  match d.imgWhy m a with
  | some w => some w
  | none => (imgLoad m a).bind (fun i => (imageBad d.bootMask i.prog).map (fun w => w.1))

/-- The image over the host link is complete: its verification, and what waited for it (R526). -/
def bootReceived (d : Dev) : Dev :=
  let p := shp .hst
  let m := memWrites [] 0 d.boot.hostImg
  let r := d.fresh
  let d := ((r.2.put p HST.STATUS_BOOT_REQ 0).stat p 1).put (shp .bot) BOT.T_VERIFY_US r.1.toNat
  let why := d.bootWhy m 0
  let d := match why with
    | some w => d.bootFail w
    | none => { d with boot := { d.boot with verified := true } }
  if d.get (shp .bot) BOT.PHASE_CODE = 3 then
    match d.holder? with
    | some h =>
      let d := d.bootGrant h
      if d.hlfState h.other = 2 then d.startCores h.other else d
    | none => d
  else d

/-- The image sequence starts anew. -/
def bootRestart (d : Dev) : Dev :=
  ({ d with boot := { d.boot with hostImg := [] } }.put (shp .hst) HST.BOOT_OFS_BYTES 0).put (shp .hst) HST.BOOT_LEN_BYTES 0

/-- The largest body of an image: the program area of half SRAM (R34, R526). -/
def bodyMax : Nat := 0x780000

/-- BOOT_DATA (R526). -/
def bootData (d : Dev) (ofs : Nat) (ws : List Nat) : Dev :=
  let p := shp .hst
  if !d.hostOn then d
  else
    let d := d.hstCount
    if ofs % 4 ≠ 0 then d.hstProto ofs
    else if !d.on p HST.STATUS_BOOT_REQ || ofs ≠ d.get p HST.BOOT_OFS_BYTES then
      (d.bump p HST.ERR_CNT_BOOT).err p cHST_BOOT_ORDER (ofs % 65536)
    else
      let img := d.boot.hostImg ++ (ws.flatMap (leBytes 4)).map (BitVec.ofNat 8)
      let d := { d with boot := { d.boot with hostImg := img } }.put p HST.BOOT_OFS_BYTES img.length
      let len := leAt (img.map BitVec.toNat) 0x10 4
      let hdr := decide (img.length ≥ 0x600)
      if hdr && decide (len > bodyMax) then (d.bootRestart).err p cRANGE (ofs % 65536)
      else
        let d := if hdr then d.put p HST.BOOT_LEN_BYTES (len + 0x1000) else d
        if hdr && decide (img.length ≥ len + 0x1000) then d.bootReceived else d

/-- No boot data for 1 s (R526). -/
def bootIdle (d : Dev) : Dev := if d.on (shp .hst) HST.STATUS_BOOT_REQ then (d.bootRestart).err (shp .hst) cHST_BOOT_IDLE else d

end Dev

/-! ### Meanings -/

def execEncNonce (mid : BitVec 8) (s : State) : Host.Outcome State Fault Refusal := onDev (fun d => d.encNonce ⟨mid.toNat, false⟩) s
def execEncNonceLapse (g : Fin 3) (s : State) : Host.Outcome State Fault Refusal := onDev (fun d => d.setNonce g.val none) s
def execEncTokDataWrite (g : Fin 3) (v : Word) (s : State) : Host.Outcome State Fault Refusal := onDev (fun d => d.tokWrite g.val v.toNat) s
def execTokenAuth (mid : BitVec 8) (mach : Bool) (s : State) : Host.Outcome State Fault Refusal := onDev (fun d => d.presentKind ⟨mid.toNat, mach⟩ 1) s
def execTokenKeyAdd (mid : BitVec 8) (mach : Bool) (s : State) : Host.Outcome State Fault Refusal := onDev (fun d => d.presentKind ⟨mid.toNat, mach⟩ 2) s
def execTokenKeyRevoke (mid : BitVec 8) (mach : Bool) (s : State) : Host.Outcome State Fault Refusal := onDev (fun d => d.presentKind ⟨mid.toNat, mach⟩ 3) s
def execTokenSiltClear (mid : BitVec 8) (mach : Bool) (s : State) : Host.Outcome State Fault Refusal := onDev (fun d => d.presentKind ⟨mid.toNat, mach⟩ 4) s
def execTokenLifecycle (mid : BitVec 8) (mach : Bool) (s : State) : Host.Outcome State Fault Refusal := onDev (fun d => d.presentKind ⟨mid.toNat, mach⟩ 5) s
def execEncClose (mid : BitVec 8) (s : State) : Host.Outcome State Fault Refusal := onDev (fun d => d.encClose ⟨mid.toNat, false⟩) s
def execEncAttest (mid : BitVec 8) (s : State) : Host.Outcome State Fault Refusal := onDev (fun d => d.encAttest ⟨mid.toNat, false⟩) s
def execEncAttestDone (s : State) : Host.Outcome State Fault Refusal := onDev (fun d => d.attestDone) s
def execEncCert (mid : BitVec 8) (s : State) : Host.Outcome State Fault Refusal := onDev (fun d => d.encCert ⟨mid.toNat, false⟩) s
def execEncRepDataRead (g : Fin 3) (s : State) : Host.Outcome State Fault Refusal := onDev (fun d => d.repRead g.val) s

/-- INSTALL with its source and slot already written. -/
def execEncInstall (mid : BitVec 8) (mach : Bool) (s : State) : Host.Outcome State Fault Refusal := onDev (fun d => d.encInstall ⟨mid.toNat, mach⟩) s
def execEncInstallDone (ok : Bool) (s : State) : Host.Outcome State Fault Refusal := onDev (fun d => d.installDone ok) s
def execEncAcceptVersion (mid : BitVec 8) (mach : Bool) (s : State) : Host.Outcome State Fault Refusal := onDev (fun d => d.acceptVersion ⟨mid.toNat, mach⟩) s
def execAuthExpiry (g : Fin 3) (s : State) : Host.Outcome State Fault Refusal := onDev (fun d => d.authClose g.val) s

/-- 60 s after five refusals the group may take nonces again (R503). -/
def execEncRateEnd (g : Fin 3) (s : State) : Host.Outcome State Fault Refusal :=
  onDev (fun d => d.modEnc (fun e => { e with withheld := lset e.withheld g.val false, refused := lset e.refused g.val 0 })) s

/-- A sensor of R516: 0 mesh, 1 voltage, 2 clock, 3 temperature. -/
def execTamper (sensor : Fin 4) (s : State) : Host.Outcome State Fault Refusal := onAny (fun d => d.tamper sensor.val) s
def execHstStatus (s : State) : Host.Outcome State Fault Refusal := onDev (fun d => d.hstStatus) s
def execHstBootData (ofs : Word) (ws : List (BitVec 32)) (s : State) : Host.Outcome State Fault Refusal :=
  onDev (fun d => d.bootData ofs.toNat (ws.map BitVec.toNat)) s
def execHstReset (s : State) : Host.Outcome State Fault Refusal := onDev (fun d => d.hstReset) s
def execHstBootIdle (s : State) : Host.Outcome State Fault Refusal := onDev (fun d => d.bootIdle) s

/-- `SESS_IDLE` seconds have passed without a host access (R513). -/
def execHstSessionIdle (s : State) : Host.Outcome State Fault Refusal := onDev (fun d => d.authClose 1) s

end Sys2Proof.Machine
end

