-- ==== Sys2Proof/Machine/Power.lean ====
section
/-! DEFINITION. Supplies, reset, straps and boot (spec/19_power_boot_straps.md, R529 to R545), the repartition of MRAM (R37), and the TICK
(spec/16_rtc.md, R468; spec/02_register_conventions.md, R50). -/
namespace Sys2Proof.Machine

open Sys2Proof

def cPWR_IN_LOST : Nat := 0xDA
def cPWR_IN_LOW : Nat := 0xDB
def cPWR_OVERVOLT : Nat := 0xDC
def cPWR_TEMP : Nat := 0xDD
def cPWR_FAIL_WARN : Nat := 0xDE

namespace Dev

def modBoot (d : Dev) (f : Boot → Boot) : Dev := { d with boot := f d.boot }

/-! ### Inputs (R530, R531, R544) -/

def vinOk : HalfId → Fld
  | .a => PWR.IN_A_OK
  | .b => PWR.IN_B_OK
def vinOv : HalfId → Fld
  | .a => PWR.IN_A_OV
  | .b => PWR.IN_B_OV
/-- A reading of an input; below 31.0 V its over-voltage protection has reconnected it (R530). -/
def vinMv (d : Dev) (i : HalfId) (mv : Nat) : Dev :=
  let d := d.put (shp .pwr) (match i with | .a => PWR.VIN_A_MV | .b => PWR.VIN_B_MV) mv
  if mv < 31000 then d.put (shp .pwr) (vinOv i) 0 else d

/-- A POWER record of an input. -/
def pwrNote (d : Dev) (code : Nat) (i : HalfId) : Dev := d.note (shp .pwr) clsPower code i.n

/-- Outside reset, what an input event raises (R530, R534): the monitors run, but PWR is held in reset with its region. -/
def pwrRaise (d : Dev) (f : Dev → Dev) : Dev := if d.boot.released then f d else d

/-- An input rises to 19.0 V, or falls below 31.0 V after an over-voltage (R530). -/
def inputRise (d : Dev) (i : HalfId) (mv : Nat) : Dev :=
  let p := shp .pwr
  let d := d.vinMv i mv
  if mv < 19000 ∨ mv > 32000 ∨ d.on p (vinOk i) ∨ d.on p (vinOv i) then d
  else (d.put p (vinOk i) 1).pwrRaise (fun d => d.stat p 1)

/-- An IN_OK input is lost: its half aborts, with the release (R531). -/
def inputGone (d : Dev) (i : HalfId) : Dev :=
  let p := shp .pwr
  (d.put p (vinOk i) 0).pwrRaise (fun d =>
    let d := (d.bump p (match i with | .a => PWR.BROWN_A | .b => PWR.BROWN_B)).stat p 0
    let d := (d.err p cPWR_IN_LOST i.n).pwrNote cPWR_IN_LOST i
    let d := d.modBoot (fun b => { b with vinEp := lset b.vinEp i.n false })
    if d.hlfState i = 5 then d.hlfOff i 4 8 else d.halfAbortBy i true false)

/-- An input has been below 18.0 V for 20 µs. -/
def inputLost (d : Dev) (i : HalfId) (mv : Nat) : Dev :=
  let d := d.vinMv i mv
  if mv < 18000 ∧ d.on (shp .pwr) (vinOk i) then d.inputGone i else d

/-- An input exceeds 32.0 V: it is disconnected, which counts as lost (R530, R545). -/
def inputOver (d : Dev) (i : HalfId) (mv : Nat) : Dev :=
  let p := shp .pwr
  let d := d.vinMv i mv
  if mv ≤ 32000 ∨ d.on p (vinOv i) then d
  else
    let d := if d.on p (vinOk i) then d.inputGone i else d
    (d.put p (vinOv i) 1).pwrRaise (fun d => ((d.stat p 4).err p cPWR_OVERVOLT i.n).pwrNote cPWR_OVERVOLT i)

/-- A reading of an input against `WARN.VIN_MV` (R530). -/
def inputLow (d : Dev) (i : HalfId) (mv : Nat) : Dev :=
  let p := shp .pwr
  let d := d.vinMv i mv
  let low := d.on p (vinOk i) && decide (mv < d.get p PWR.WARN_VIN_MV)
  let was := d.boot.vinEp.getD i.n false
  let d := d.modBoot (fun b => { b with vinEp := lset b.vinEp i.n low })
  if low && !was then ((d.stat p 2).err p cPWR_IN_LOW i.n).pwrNote cPWR_IN_LOW i else d

/-- A reading of the cold plate in 0.1 °C against `WARN.TEMP` (R544). -/
def plateTemp (d : Dev) (t : Int) : Dev :=
  let p := shp .pwr
  let d := d.puti p PWR.TEMP_PLATE t
  let warn : Int := d.get p PWR.WARN_TEMP
  if t > warn ∧ ¬ d.boot.tempEp then
    (((d.modBoot (fun b => { b with tempEp := true })).stat p 3).err p cPWR_TEMP).note p clsPower cPWR_TEMP 0 [encS 32 t]
  else if t ≤ warn - 20 then d.modBoot (fun b => { b with tempEp := false })
  else d

/-- A half's input has been IN_OK for 100 ms (R531). -/
def halfRelease (d : Dev) (h : HalfId) : Dev := if d.hlfState h = 4 then d.repairEnter h 1 else d

/-! ### Reset (R534, R542) -/

/-- Fields of the shared pages that a reset of the part keeps: what the fuses, the stores in MRAM and the always-on domain hold (R41, R542), and
the levels that the part reads from outside. -/
def keptFields (p : Nat) : List Fld :=
  if p = shp .rtc then
    [RTC.NOW_LO, RTC.NOW_HI, RTC.TRIM_PPB, RTC.CHG_EN, RTC.CHG_RSEL, RTC.CHG_LIM, RTC.STATUS_BITS, RTC.ALM_LO, RTC.ALM_HI, RTC.ALM_PER_S, RTC.ALM_CTL_ARM,
     RTC.ALM_CTL_REARM, RTC.ALM_ST_ARMED, RTC.ALM_ST_FIRED, RTC.ALM_ST_SKIPPED]
  else if p = shp .cal then
    [CAL.NOW0_SEC, CAL.NOW0_MIN, CAL.NOW0_HOUR, CAL.NOW0_WDAY, CAL.NOW1_DAY, CAL.NOW1_MONTH, CAL.NOW1_YEAR]
  else if p = shp .enc then
    [ENC.LIFE_STATE, ENC.DEV_ID_LO, ENC.DEV_ID_HI, ENC.BOOT_PREF, ENC.BOOT_ATTEMPTS, ENC.SLOTA_VER_V, ENC.SLOTB_VER_V, ENC.MIN_VER_V, ENC.KEYS_USED,
     ENC.KEYS_CUSTODIAN, ENC.TAMPER_FLAGS, ENC.SESS_IDLE_S]
  else if p = shp .trm then [TRM.AO_ZERO_U, TRM.AO_SPAN_U]
  else if p = shp .slt then
    [SLT.CFG_FULL_MODE, SLT.CFG_WARN_PCT, SLT.OLDEST_LO, SLT.OLDEST_HI, SLT.NEWEST_LO, SLT.NEWEST_HI, SLT.NEXT_SEQ_SEQ, SLT.FILL_PCT, SLT.PAGES_TOTAL,
     SLT.CLEAR_CNT_N]
  else if p = shp .nvm then [NVM.PART_SILT_GIB, NVM.PART_NEXT_SILT_GIB, NVM.REMAP_USED, NVM.REMAP_LEFT]
  else if p = shp .bot then [BOT.STRAP_RAW, BOT.STRAP_LIVE, BOT.VARIANT_CODE, BOT.BOOTS_COUNT]
  else if p = shp .pwr then
    [PWR.VIN_A_MV, PWR.VIN_B_MV, PWR.IN_A_OK, PWR.IN_B_OK, PWR.IN_A_OV, PWR.IN_B_OV, PWR.TEMP_PLATE, PWR.LOGIC_MW, PWR.HOURS_H]
  else if p = shp .ths then [THS.IN_CH]
  else if p = shp .din then [DIN.RAW_BITS]
  else if p = ctl .hlf .a ∨ p = ctl .hlf .b then [HLF.PROOF_AGE_A, HLF.PROOF_AGE_B]
  else if p = ctl .sbk .a ∨ p = ctl .sbk .b then SBK.all.filter (fun f => !decide (f = SBK.GROW_COUNT ∨ f = SBK.COPY_OK1 ∨ f = SBK.COPY_OK2 ∨ f = SBK.COPY_REST))
  else []

/-- Every region of the part enters reset: pages, staged values, halves and blocks return to their reset values; the always-on domain, the fuses
and keys, and MRAM keep theirs (R534, R542, Table 5). -/
def partReset (d : Dev) : Dev :=
  let d := d.frcGone [.a, .b]
  let d : Dev := { d with
    regs := d.regs.filter (fun e => keyIn (keptFields (e.1 / pageSpan)) (e.1 % pageSpan)),
    shadow := [], immCnt := [], resp := ⟨[], false, 0⟩, cfgFrozen := false, ha := Half.init, hb := Half.init, enc := [0, 0, 0, 0],
    pCopy := List.replicate 8 ⟨0, 0, 0, 0⟩, pRes := List.replicate 4 none, pClm := List.replicate 4 none, pEpoch := none, pInt := List.replicate 4 none, stpPins := List.replicate 4 StpCh.init,
    carDoorShut := List.replicate 16 false, landShut := List.replicate 512 false,
    can := List.replicate 4 CanCh.init, lane := ⟨[], [], [], [], 0, []⟩, glk := Glk.init, hlfA := { Hlf.init with hold := d.hlfA.hold }, hlfB := { Hlf.init with hold := d.hlfB.hold }, weir := Weir.init,
    encl := { Enc.init with devKey := d.encl.devKey, slotBad := d.encl.slotBad }, fenced := [], aborting := [], badRegs := [],
    saf := { Saf.init with copy1 := d.saf.copy1, copy2 := d.saf.copy2, pinSeal := d.saf.pinSeal, pinEn := d.saf.pinEn } }
  let d := (d.modStore (fun s => { s with waiting := none, captured := none })).modRtc (fun r => { r with pend := none, calSync := false, setVal := 0 })
  let d : Dev := { d with fio := ⟨0x12, [0, 0, 0, 0, 0], 0, 0, d.get (shp .din) DIN.RAW_BITS, 0, false, List.replicate 8 [], 0, [0, 0, 0, 0], 0⟩ }
  let d := d.modBoot (fun b => { b with released := false, verified := false, hostImg := [], tempEp := false, vinEp := [false, false],
                                        strapNoted := false, secs := 0 })
  d.fioDrive

/-- nRESET has been low long enough; a FENCED half goes OFFLINE by it (R343, Table 2). A hold of HOLD_PEER stands until RELEASE_PEER. -/
def nresetLow (d : Dev) : Dev :=
  let d := d.both (fun d h => if d.hlfState h = 3 then d.hlfTo h 4 1 else d)
  (d.partReset).modBoot (fun b => { b with nreset := true })

/-- Power-good rises: an input is IN_OK and the shared rails are in regulation (R532). -/
def powerGood (d : Dev) : Dev := if d.supplied && !d.boot.good then d.modBoot (fun b => { b with good := true, powerUp := true }) else d

/-- The power-fail warning, once both inputs are lost (R532): the protected records up to a POWER record are written, then the shutdown mark. A part held in reset
writes nothing (R534). -/
def failWarn (d : Dev) : Dev :=
  let p := shp .pwr
  if d.supplied || !d.boot.good || d.boot.holdup then d
  else if !d.boot.released then d.modBoot (fun b => { b with holdup := true })
  else
    let d := ((d.put p PWR.IN_PFW 1).err p cPWR_FAIL_WARN).note p clsPower cPWR_FAIL_WARN
    let d := (List.range d.silt.qProt.length).foldl (fun d _ => d.siltWrite) d
    d.modBoot (fun b => { b with holdup := true, mark := true })

/-- The hold-up ends: power-good falls and every region enters reset (R532). -/
def powerFall (d : Dev) : Dev := if d.boot.holdup then (d.partReset).modBoot (fun b => { b with good := false, holdup := false }) else d

/-! ### What a release does (R510, R517, R535 to R541) -/

/-- One entry of a rebuilt Seedbank (R364, Table 12). -/
def sbkReplay (d : Dev) (h : HalfId) (e : Nat × Nat × Nat × Nat) : Dev :=
  let p := ctl .sbk h
  let n := d.get p SBK.ENTRIES_N
  let unit := e.1 / 65536
  let got := e.2.1 % 65536 ≠ 0xFFFF
  let d := ((((d.put p SBK.ENT_W0 e.1 n).put p SBK.ENT_W1 e.2.1 n).put p SBK.ENT_W2 e.2.2.1 n).put p SBK.ENT_W3 e.2.2.2 n).put p SBK.ENTRIES_N (n + 1)
  let one (for_ failed map : Fld) (spare : Nat) : Dev :=
    if unit = spare then (d.put p failed 1).put p for_ 7
    else let d := d.putBit p map unit true; if got then d.put p for_ unit else d
  match e.1 % 16 with
  | 1 => one SBK.CORE_SPARE_FOR SBK.CORE_SPARE_FAILED SBK.CORE_FAILED 4
  | 2 => one SBK.LE_SPARE_FOR SBK.LE_SPARE_FAILED SBK.LE_FAILED 3
  | 3 =>
    if got then (d.put p SBK.ROWS_USED (d.get p SBK.ROWS_USED + 1)).put p SBK.ROWS_LEFT (d.get p SBK.ROWS_LEFT - 1)
    else if unit ≥ 8192 && !(d.sbkRows h).any (fun x => x.2 == unit) then d.put p SBK.ROWS_LEFT (d.get p SBK.ROWS_LEFT - 1)
    else d
  | _ => d

/-- Both copies of the Seedbank have failed: the entries of a half that a REPAIR record in Silt still holds are restored (R364). -/
def sbkRebuild (d : Dev) (h : HalfId) : Dev :=
  let p := ctl .sbk h
  let old := (List.range (d.get p SBK.ENTRIES_N)).map (fun n => (d.get p SBK.ENT_W0 n, d.get p SBK.ENT_W1 n, d.get p SBK.ENT_W2 n, d.get p SBK.ENT_W3 n))
  let pays := (d.entries.map (fun e => e.bytes.map BitVec.toNat)).filter (fun b => leAt b 14 1 == clsRepair)
  let kept := old.filter (fun e => pays.any (fun b => (b.drop 24).take 16 == leBytes 4 e.1 ++ leBytes 4 e.2.1 ++ leBytes 4 e.2.2.1 ++ leBytes 4 e.2.2.2))
  let fs := [SBK.CORE_SPARE_FOR, SBK.CORE_SPARE_FAILED, SBK.CORE_FAILED, SBK.LE_SPARE_FOR, SBK.LE_SPARE_FAILED, SBK.LE_FAILED, SBK.ROWS_USED, SBK.ROWS_LEFT,
    SBK.ENTRIES_N, SBK.ENT_W0, SBK.ENT_W1, SBK.ENT_W2, SBK.ENT_W3]
  let d : Dev := { d with regs := d.regs.filter (fun e => !(e.1 / pageSpan == p && keyIn fs (e.1 % pageSpan))) }
  kept.foldl (fun d e => d.sbkReplay h e) d

/-- The copies of the Seedbank at a release: which of them pass their CRC (R364). -/
def sbkCopies (d : Dev) (ok1 ok2 : Bool) : Dev :=
  let d := if ok1 || ok2 then d else ((d.both sbkRebuild).note (shp .bot) clsRepair 0)
  d.both (fun d h => let p := ctl .sbk h; ((d.putb p SBK.COPY_OK1 ok1).putb p SBK.COPY_OK2 ok2).putb p SBK.COPY_REST (!(ok1 && ok2)))

/-- An MRAM column fails at power-up: a spare column takes its place (R361, R362). -/
def mcolFail (d : Dev) (col : Nat) : Dev :=
  let p := ctl .sbk .a
  let u := d.get p SBK.MCOL_USED
  let left := d.get p SBK.MCOL_LEFT
  let spare := if left = 0 then 0xFFFF else u
  let d := if left = 0 then d else d.both (fun d h => (d.put (ctl .sbk h) SBK.MCOL_USED (u + 1)).put (ctl .sbk h) SBK.MCOL_LEFT (left - 1))
  d.note (shp .nvm) clsRepair 4 (col % 65536) [4 + 16 * 1 + 65536 * (col % 65536), spare, d.now % 2 ^ 32, d.now / 2 ^ 32]

/-- The new Silt size takes effect at a power-up (R37): Silt is cleared as a whole, the user area moves and keeps nothing. -/
def repartition (d : Dev) : Dev :=
  let n := shp .nvm
  let g := d.get n NVM.PART_NEXT_SILT_GIB
  if g = 0 then d
  else
    let old := d.userBase
    let d := d.siltErase true 0 d.boot.partKey 0 0 0
    let d := (d.put n NVM.PART_SILT_GIB g).put n NVM.PART_NEXT_SILT_GIB 0
    let lo := min old d.userBase
    let d : Dev := { d with mram := d.mram.filter (fun c => decide (c.1 < lo)) }
    ((d.modSilt (fun s => { s with retired := 0 })).put (shp .slt) SLT.PAGES_TOTAL (g * 262144)).siltLevel

/-- The ZEROISED transition at a power-up, from any state (R497), that finds the tamper state or, in a state with keys, a zeroised key memory (R517, R542). -/
def zeroisedNow (d : Dev) : Bool :=
  let life := d.get (shp .enc) ENC.LIFE_STATE
  life != 4 && (d.get (shp .enc) ENC.TAMPER_FLAGS != 0 || ((life == 1 || life == 2) && !d.encl.devKey))

def zeroisedGo (d : Dev) : Dev :=
  let e := shp .enc
  let d := ((d.zeroise).put e ENC.LIFE_STATE 4).putBit e ENC.TAMPER_FLAGS 4 true
  d.encNote Who.part 4 0 [d.get e ENC.TAMPER_FLAGS]

/-- The image of a boot from a slot (R510): the preferred slot, or the other one after three attempts, or the one that is valid. -/
def bootSlot (d : Dev) (src : Nat) : Dev :=
  let e := shp .enc
  let pref := match d.get e ENC.BOOT_PREF with | 1 => 0 | 2 => 1 | _ => src
  let swap := d.get e ENC.BOOT_ATTEMPTS ≥ 3
  let first := if swap then 1 - pref else pref
  let d := if swap then d.encNote Who.part 0 0 [first] else d
  let why (s : Nat) : Option Nat := if bitN d.encl.slotBad s = 1 then some cSIGNATURE else d.bootWhy d.mram (slotBase s)
  let take (d : Dev) (s : Nat) : Dev :=
    let r := d.fresh
    (((r.2.put e ENC.BOOT_SLOT s).modBoot (fun b => { b with verified := true })).put (shp .bot) BOT.T_VERIFY_US r.1.toNat)
  match why first with
  | none => take d first
  | some w => if (why (1 - first)).isNone then take d (1 - first) else (d.put e ENC.BOOT_SLOT 3).bootFail w

/-- The boot source (R510, R526, R536). -/
def bootChoose (d : Dev) : Dev :=
  let e := shp .enc
  let r := d.get (shp .bot) BOT.STRAP_RAW
  if d.get e ENC.LIFE_STATE = 4 then d.put e ENC.BOOT_SLOT 3
  else if field r 4 2 ≤ 1 then d.bootSlot (field r 4 2)
  else if bitN r 6 = 0 then (d.put e ENC.BOOT_SLOT 3).bootFail 0
  else if field r 4 2 = 2 then (d.put e ENC.BOOT_SLOT 2).put (shp .hst) HST.STATUS_BOOT_REQ 1
  else d.put e ENC.BOOT_SLOT 3

/-- What the straps select at a release (R8, R11, R372, R413, R535). -/
def strapSample (d : Dev) (straps : Nat) : Dev :=
  let b := shp .bot
  let d := (d.put b BOT.STRAP_RAW straps).put b BOT.STRAP_LIVE straps
  let d := (List.range 4).foldl (fun d c => d.put (pgCan c) CAN.BUS_TERM (bitN straps (8 + c))) d
  (d.put (shp .glk) GLK.ROLE_STRAP (straps % 4)).put (shp .sfc) SFC.STATE_MODE (bitN straps 3)

/-- Release: the straps, what the management region does before the halves, and the halves whose input is IN_OK into REPAIR (R534 to R541). -/
def release (d : Dev) (straps : Nat) (aoLost tagOk ok1 ok2 : Bool) (cols : List Nat) : Dev :=
  let b := shp .bot
  if !d.boot.good || d.boot.holdup || d.boot.released then d.modBoot (fun x => { x with nreset := false })
  else
    let up := d.boot.powerUp
    let mark := d.boot.mark
    let d := d.modBoot (fun x => { x with nreset := false, released := true, powerUp := false, mark := false })
    let d := d.siltBoot
    let d := if aoLost then ((d.rtcLost).put (shp .enc) ENC.BOOT_ATTEMPTS 0).put (shp .enc) ENC.TAMPER_FLAGS 0 else d
    let zero := up && d.zeroisedNow
    let d := if zero then d.zeroisedGo else d
    let cause := if zero then 4 else if !up then 3 else if mark then 1 else 2
    let d := ((d.strapSample straps).put b BOT.RESET_CAUSE cause).putb b BOT.RESET_TIME_LOST aoLost
    let d := ((d.wrapUp b BOT.BOOTS_COUNT).put64 b BOT.REL_TS_LO BOT.REL_TS_HI d.now).note (shp .pwr) clsPower cause
    let d := if up then d.repartition else d
    let d := ((cols.foldl mcolFail d).put b BOT.PHASE_CODE 1).sbkCopies ok1 ok2
    let d := if tagOk then d else d.put (shp .enc) ENC.MIN_VER_V 0xFFFFFFFF
    let d := ((d.showKeys).cfgShow).bootChoose
    let d := d.put b BOT.PHASE_CODE 2
    let d := d.both (fun d h => if d.inputOk h then d.repairEnter h 1 else d.put (ctl .hlf h.other) HLF.STATE_PEER 4)
    d.fioDrive

/-- The claim strobe (R538): each half that has completed REPAIR steps 1 to 3 claims; without one the boot ends HALTED (R541). -/
def strobe (d : Dev) : Dev :=
  let b := shp .bot
  if d.weir.strobed then d
  else
    let r := d.fresh
    let d := (r.2.modWeir (fun w => { w with strobed := true })).put b BOT.T_REPAIR_US r.1.toNat
    let all : List HalfId := [.a, .b]
    let ready := all.filter (fun h => d.hlfState h == 5 && (d.hlf h).ready)
    if ready.isEmpty then (d.put b BOT.PHASE_CODE 8).put b BOT.PHASE_WHY 2
    else ready.foldl claim (d.put b BOT.PHASE_CODE 3)

/-- The live straps (R535). -/
def strapLive (d : Dev) (live : Nat) : Dev :=
  let b := shp .bot
  let d := d.put b BOT.STRAP_LIVE live
  let raw := d.get b BOT.STRAP_RAW
  if !d.boot.released || live = raw || d.boot.strapNoted then d
  else (d.modBoot (fun x => { x with strapNoted := true })).note b clsState 0 0 [raw, live]

/-! ### TICK and SECOND (R50, R468) -/

/-- A countdown of seconds shown in a register. -/
def countDown (d : Dev) (p : Nat) (f : Fld) (t : Nat := 0) : Dev := d.put p f (d.get p f 0 t - 1) 0 t

/-- `HLF.REJOIN.N24`: the automatic restarts of each half in the last 24 h (R366). -/
def rejoinShow (d : Dev) : Dev :=
  d.both (fun d h =>
    let rs := (d.hlf h).restarts.filter (fun t => decide (d.now < t + day24))
    (d.modHlf h (fun x => { x with restarts := rs })).put (ctl .hlf h) HLF.REJOIN_N24 rs.length)

/-- The SECOND event, numbered with the seconds count (R50, R51). -/
def second (d : Dev) : Dev :=
  let seq := d.now / 65536 % 65536
  let h := d.holder
  let d := d.applyOf (shp .pwr) h 5 seq
  let d := if d.bndOf (shp .glk) = 5 then (d.glkBegin).applyGlk 5 seq else d
  let d := d.both (fun d q => if d.running q && d.bndOf (ctl .shl q) = 5 then d.applyShl q 5 seq else d)
  let d := (d.glkSecond).countDown (shp .trm) TRM.SEL_LEFT_S
  let d := (List.range 3).foldl (fun d g => d.countDown (shp .enc) ENC.AUTH_LEFT_S g) d
  let d := (d.countDown (shp .hst) HST.IDLE_LEFT_S).rejoinShow
  if d.boot.secs + 1 < 3600 then d.modBoot (fun x => { x with secs := x.secs + 1 })
  else (((d.modBoot (fun x => { x with secs := 0 })).wrapUp (shp .pwr) PWR.HOURS_H).proofHour).otHour

/-- The always-on domain while the part is in reset: the count, the calendar's carry, the alarms (R459, R461). -/
def aoTick (d : Dev) : Dev :=
  let c := (d.now + 1) % 2 ^ 64
  let d := d.put64 (shp .rtc) RTC.NOW_LO RTC.NOW_HI c
  let d := if c % 65536 = 0 then d.calCarry else d
  (List.range 4).foldl rtcAlarm d

/-- A renewal has certainly been missed (R344: one every 250 µs ± 1 µs): the exports of a proof are counted anew (R359). -/
def proofMissed (d : Dev) : Dev :=
  match d.weir.proof with
  | some (q, true, _) => d.modWeir (fun w => { w with proof := some (q, true, 3) })
  | _ => d

/-- `WIR.LEASE.AGE` counts µs since the last counted renewal, saturating (R369). -/
def leaseTick (d : Dev) : Dev :=
  let n := min (d.weir.ticks + 1) 68
  let d := (d.modWeir (fun x => { x with ticks := n })).put (shp .wir) WIR.LEASE_AGE (min 1023 (n * 1000000 / 65536))
  if n ≥ 18 then d.proofMissed else d

/-- A TICK; the group-link ports send on (R376). It is longer than any block abort, so no page still aborts after it (R21, R68). -/
def tick (d : Dev) : Dev :=
  if !d.boot.released then (if d.rtc.onVbat && d.rtcBit 2 then d else d.aoTick)
  else let r := ({ d with aborting := [] }.leaseTick).rtcTick; (if r.2 then r.1.second else r.1).glkTick

end Dev

/-! ### Meanings -/

/-- An input as measured, in mV. -/
def execInputOk (i : HalfId) (mv : BitVec 16) (s : State) : Host.Outcome State Fault Refusal := onAny (fun d => d.inputRise i mv.toNat) s
def execInputLost (i : HalfId) (mv : BitVec 16) (s : State) : Host.Outcome State Fault Refusal := onAny (fun d => d.inputLost i mv.toNat) s
def execInputOvervoltage (i : HalfId) (mv : BitVec 16) (s : State) : Host.Outcome State Fault Refusal := onAny (fun d => d.inputOver i mv.toNat) s
def execPwrInLow (i : HalfId) (mv : BitVec 16) (s : State) : Host.Outcome State Fault Refusal := onDev (fun d => d.inputLow i mv.toNat) s
def execHalfResetRelease (h : HalfId) (s : State) : Host.Outcome State Fault Refusal := onDev (fun d => d.halfRelease h) s

/-- The warning at the start of the hold-up, or the fall of power-good at its end. -/
def execPowerFailWarn (ended : Bool) (s : State) : Host.Outcome State Fault Refusal := onAny (fun d => if ended then d.powerFall else d.failWarn) s
def execPowerGood (s : State) : Host.Outcome State Fault Refusal := onAny (fun d => d.powerGood) s
def execNresetAssert (s : State) : Host.Outcome State Fault Refusal := onAny (fun d => d.nresetLow) s

/-- The straps as sampled, whether the always-on domain was lost (R459), whether the tag of `MIN_VER` holds (R509), whether each Seedbank copy passes
its CRC (R364), and the MRAM columns found failed (R361). -/
def execResetRelease (straps : BitVec 16) (aoLost tagOk ok1 ok2 : Bool) (cols : List (BitVec 16)) (s : State) : Host.Outcome State Fault Refusal :=
  onAny (fun d => d.release straps.toNat aoLost tagOk ok1 ok2 (cols.map BitVec.toNat)) s

def execClaimStrobe (s : State) : Host.Outcome State Fault Refusal := onDev (fun d => d.strobe) s
def execStrapChange (live : BitVec 16) (s : State) : Host.Outcome State Fault Refusal := onAny (fun d => d.strapLive live.toNat) s
def execPwrTemp (t : BitVec 16) (s : State) : Host.Outcome State Fault Refusal := onDev (fun d => d.plateTemp t.toInt) s
def execTick (s : State) : Host.Outcome State Fault Refusal := onAny (fun d => d.tick) s

end Sys2Proof.Machine
end

