-- ==== Sys2Proof/Machine/Access.lean ====
section
/-! DEFINITION. The registers whose writes act and the ports whose reads act, the roles a write needs, and the blocks' aborts
(spec/02_register_conventions.md, R50 to R63, R67; spec/18_security.md, R506; the chapters of the blocks). -/
namespace Sys2Proof.Machine

open Sys2Proof

namespace Dev

/-! ### Interrupt requests (R55) -/

/-- Whether a page raises its interrupt request: `CTRL.IRQ_EN` is 1 and `STAT` AND `IEN` is not zero. -/
def irq (d : Dev) (p : Nat) : Bool := d.on p HDR.CTRL_IRQ_EN && ((d.getRO p HDR.STAT_PEEK_BITS 0 0).land (d.get p HDR.IEN_BITS)) != 0

/-- Interrupt source of a page. -/
def irqSource (p : Nat) : Nat := 64 * regionOf p + p % 256 + 1

/-- The sources that request an interrupt at the controller of a half: its own CTL pages, and the shared pages. -/
def irqSources (d : Dev) (h : HalfId) : List Nat :=
  (Blk.list.flatMap (fun b => (List.range b.pages).map (fun n => pageNo b h n))).filter d.irq |>.map irqSource

/-! ### Aborts (R67) -/

/-- The abort of a page's block: the block's own, or the common one; `CTRL.EN` stays 1 on the pages where it reads 1. -/
def abortBlk (d : Dev) (p : Nat) : Dev :=
  match pageBlk p with
  | none => d
  | some (b, n) =>
    let h := (halfOfPage p).getD .a
    match b with
    | .mpg => d.abortMpg h n
    | .sep => d.abortSep h
    | .le => d.abortLe h n
    | .dax => d.abortDax h n
    | .pos => d.abortPos h
    | .shl => d.abortShl h
    | .hlf => d.halfAbortBy h true false
    | .can => d.abortCan n
    | .glk => d.abortGlk
    | .rsm => d.abortRsm
    | .din => d.abortDin
    | .dout => d.abortOut p 0
    | .aout => d.abortOut p 1
    | .rtc | .cal => d.abortRtc p
    | .slt => d.abortSlt
    | .cfg => d.abortCfg
    | .enc => d.abortEnc
    | .cyx => d.abortCyx h
    | .spb => d.abortSpb
    | .smb => d.abortSmb
    | .sbk | .bot => d
    | b => d.abortPage p (b.enReset == 0)

/-! ### Privilege and roles (R56, R506, Table 5) -/

/-- The role a write of a field needs beyond privilege, 0 none. "Every writable register" of FRC, CFG and SPB takes in the header. -/
def needRole (b : Blk) (f : Fld) : Nat :=
  match b with
  | .frc | .cfg => 2
  | .spb => 3
  | .cyx => if f = CYX.CMD_OP then 1 else if f = CYX.OLC_SRC_OFS ∨ f = CYX.OLC_CMD_OP then 2 else 0
  | .hlf => if f = HLF.CMD_OP ∨ f = HLF.PEER_CMD_OP then 2 else 0
  | .rtc => if f = RTC.SET_CMD_GO then 1 else if f = RTC.CHG_EN then 2 else 0
  | .enc => if f = ENC.BOOT_PREF ∨ f = ENC.SESS_IDLE_S then 2 else 0
  | .slt => if f = SLT.CFG_FULL_MODE ∨ f = SLT.NONCE_GO_GO ∨ f = SLT.CLR_GO_GO then 4 else 0
  | .nvm => if f = NVM.PART_NEXT_SILT_GIB then 4 else 0
  | _ => 0

/-- Whether a write of a field needs privilege: a PV field, one that needs a role, `CYX.CMD` (R338), and the starts of R494. -/
def needPriv (b : Blk) (f : Fld) : Bool :=
  f.acc == .pv || needRole b f != 0 || f == CYX.CMD_OP || (b == .slt && (f == SLT.EXP_GO_GO || f == SLT.VFY_GO_GO))

/-- Whether a master may write a field (R56, R506). -/
def mayWrite (d : Dev) (w : Who) (b : Blk) (f : Fld) : Bool :=
  !needPriv b f || (d.privileged w && roleIncludes (d.roleOf w) (needRole b f))

/-- Whether a write of a PV field is recorded as a setting (R61): not a command, argument, address or data port. -/
def isSetting (f : Fld) : Bool :=
  [HDR.OWNER_MID, HDR.LOCK_SET, RTC.CHG_EN, RTC.CHG_RSEL, RTC.CHG_LIM, SLT.CFG_FULL_MODE, SLT.CFG_WARN_PCT, NVM.PART_NEXT_SILT_GIB,
   ENC.BOOT_PREF, ENC.SESS_IDLE_S].contains f

/-- Whether the RW and action registers of a page that a field stands for take writes only from the lease holder (R60, R394, R274): not
those kept per half or per group, nor those of HST (R527) and the ports of ENC (R520). -/
def leaseOnly (b : Blk) (f : Fld) : Bool :=
  let own := f.tab == .half || f.tab == .grp || f.tab == .tokAddr
  b.region != 0 && !own && b != .hst &&
    (f.acc == .rw || ((f.acc == .w1 || f.acc == .wo) && (b == .can || b == .rsm || b == .smb)))

/-! ### Checks of a value beside a field's own range -/

/-- An image source: 64 KiB units of the user area (R338, R520). -/
def inUser (d : Dev) (v : Nat) : Bool := decide (d.userBase ≤ v * 65536 ∧ v * 65536 < mramEnd)

/-- MIDs of R66, Table 9. -/
def mids : List Nat := [1, 2, 3, 4, 9, 10, 11, 12, 0x10, 0x11, 0x12, 0x13, 0x14, 0x18]

/-- Why a value is not taken. -/
def valueWhy (d : Dev) (p : Nat) (f : Fld) (v : Nat) : Option Nat :=
  let bad (b : Bool) : Option Nat := if b then some cRANGE else none
  match f.chk.why v with
  | some r => some r
  | none =>
    if f = HDR.OWNER_MID then bad (!mids.contains v)
    else if f = LE.TBL_ADDR_WORD then bad (decide (v ≥ if d.get p LE.TBL_SEL_TBL ≥ 8 then 1024 else 1280))
    else if f = CYX.OLC_SRC_OFS ∨ f = ENC.INST_SRC then bad (!d.inUser v)
    else if f = SLT.POST_ADDR_ADDR then bad (v % 8 != 0)
    else if f = SLT.EXP_ADDR_ADDR then bad (v % 4096 != 0)
    else if f = SLT.RD_POFS_OFS then bad (v % 4 != 0)
    else none

/-! ### Fields whose writes act -/

/-- A write of the transmit window (R405): ignored for a buffer of another source or with a request pending. -/
def txbWrite (d : Dev) (p c : Nat) (f : Fld) (i v : Nat) : Dev :=
  let b := d.get p CAN.TX_SEL_BUF
  if d.canSrc c b ≠ 0 then d.err p cCAN_TX_OWNED b
  else if d.canPend c b then d.err p cBUSY b
  else d.put p f v i b

/-- A write of `LRN_CTRL.RUN` (R103); CAR and SRC come with the word. -/
def lrnWrite (d : Dev) (h : HalfId) (run data : Nat) : Dev :=
  if run = 1 then d.lrnStart h (field data 2 2) (field data 4 5) else d.lrnEnd h 2

/-- A cursor command (R489, Table 4). -/
def curCmd (d : Dev) (g op : Nat) : Dev :=
  match op with
  | 1 => d.sltFound g (d.entries.find? (fun e => !e.ecc))
  | 2 => d.sltFound g d.entries.getLast?
  | 3 => d.sltFound g (d.entries.find? (fun e => e.seq == d.get (shp .slt) SLT.CUR_ARG_SEQ 0 g))
  | 4 => d.sltStep g d.entries
  | 5 => d.sltStep g d.entries.reverse
  | _ => d

/-- What a write of a field of a CTL page does where it is more than storing the value. -/
def ctlAct (d : Dev) (w : Who) (p : Nat) (b : Blk) (h : HalfId) (n : Nat) (f : Fld) (i v data : Nat) : Option Dev :=
  match b with
  | .cyx =>
    if f = CYX.CMD_OP then some (match v with | 1 => d.cyxStart h false | 2 => d.cyxStart h true | 3 => d.cyxStop h | _ => d)
    else if f = CYX.DONE_CORES then some ((List.range 4).foldl (fun d c => if bitN v c = 1 then d.cyxDone h c else d) d)
    else if f = CYX.OLC_CMD_OP then some (match v with | 1 => d.olcLoad h | 2 => d.olcSwitch h | 3 => d.olcCancel h | _ => d)
    else none
  | .tmc => if f = TMC.FIND_ID_ID then some (d.tmcFind h v) else none
  | .frc => if f = FRC.CLR_ALL_GO then some (if v = 1 then d.frcClrAll h w else d) else none
  | .mpg => if f = MPG.CMD_GO_OP then some (d.mpgGo h n v) else none
  | .sep => if f = SEP.RSV_GO_OP then some (d.sepGo h v) else none
  | .le => if f = LE.TBL_DATA_WORD then some (d.tblWrite h n v) else none
  | .dax => if f = DAX.CMD_GO_OP then some (d.daxGo h n v) else none
  | .pos =>
    if f = POS.CAR_CMD_REVAL then some (if v = 1 then d.posReval h i else d)
    else if f = POS.LAT_ARM_ARM then some (if v = 1 then d.latchArm h i else d)
    else if f = POS.LRN_CTRL_RUN then some (d.lrnWrite h v data)
    else none
  | .shl =>
    if f = SHL.SUB_HEAD_IDX then some (d.subHeadWrite h v)
    else if f = SHL.RES_TAIL_IDX then some (d.resTailWrite h v)
    else none
  | .hlf => if f = HLF.CMD_OP then some (d.hlfCmd h v) else if f = HLF.PEER_CMD_OP then some (d.peerCmd h v) else none
  | _ => let _ := p; none

/-- What a write of a field of SLT does where it is more than storing the value. -/
def sltAct (d : Dev) (w : Who) (f : Fld) (v : Nat) : Option Dev :=
  let p := shp .slt
  let g := w.sltGrp
  let go (x : Dev) : Option Dev := some (if v = 1 then x else d)
  if f = SLT.CAPTURE_GO then go d.sltCapture
  else if f = SLT.POST_GO_GO then go (d.sltPostGo w)
  else if f = SLT.CUR_CMD_OP then some (d.curCmd g v)
  else if f = SLT.EXP_GO_GO then
    go (d.sltExport g (d.get p SLT.EXP_ADDR_ADDR 0 g) (d.get64 p SLT.EXP_PSEQ_LO SLT.EXP_PSEQ_HI 0 g) (d.get p SLT.EXP_N_N 0 g))
  else if f = SLT.VFY_GO_GO then go (d.sltVerify (d.get64 p SLT.VFY_PSEQ_LO SLT.VFY_PSEQ_HI) (d.get p SLT.VFY_N_N))
  else if f = SLT.NONCE_GO_GO then go d.sltNonce
  else if f = SLT.CLR_GO_GO then go (d.sltClear w)
  else if f = SLT.RD_H ∨ f = SLT.RD_DATA_WORD then some d
  else none

/-- What a write of a field of a shared page does where it is more than storing the value. -/
def shpAct (d : Dev) (w : Who) (p : Nat) (b : Blk) (n : Nat) (f : Fld) (i v data : Nat) : Option Dev :=
  match b with
  | .can =>
    if f = CAN.REJOIN_GO then some (if v = 1 then d.canRejoin n else d)
    else if f = CAN.RX_ACK_N then some (d.canAck n v)
    else if f = CAN.TX_REQ_BITS then some (d.canReqs n i v)
    else if f = CAN.TX_CANCEL_BITS then some (d.canCancels n i v)
    else if f.tab = .txSel ∧ f.acc = .rw then some (d.txbWrite p n f i v)
    else none
  | .dout => if f = DOUT.CLR_BITS then some (d.doClr v) else none
  | .trm => if f = TRM.SEL_POINT then some (d.trimWrite v) else none
  | .smb => if f = SMB.REQ_GO_GO then some (if v = 1 then d.smbGo else d) else none
  | .spb =>
    if f = SPB.DATA_WORD then some (d.spbData v)
    else if f = SPB.CMD_OP then some (d.spbCmd v w.encGrp)
    else none
  | .cfg => if f = CFG.CMD_OP then some (d.cfgCmd w v) else none
  | .rtc =>
    if f = RTC.CAPTURE_GO then some (if v = 1 then d.rtcCapture else d)
    else if f = RTC.SET_HI then some (d.rtcSetPair (d.get p RTC.SET_LO + 2 ^ 32 * v))
    else if f = RTC.SET_CMD_GO then some (if v = 1 then d.rtcSet w (field data 1 1 == 1) else d)
    else if f = RTC.SET_CMD_SYNC then some d
    else if f = RTC.SET_CMD_CANCEL then some (if v = 1 then d.rtcCancel else d)
    else none
  | .cal => if f = CAL.CMD_SYNC then some (if v = 1 then d.modRtc (fun r => { r with calSync := true }) else d) else none
  | .slt => d.sltAct w f v
  | .enc => if f = ENC.TOK_DATA_WORD then some (d.tokWrite w.encGrp v) else if f = ENC.CMD_OP then some (d.encCmd w v) else none
  | .nvm =>
    if f = NVM.PART_NEXT_SILT_GIB then
      some ((d.put p f v).modBoot (fun b => { b with partKey := (d.encl.authKey.getD w.encGrp none).getD 0 }))
    else none
  | _ => none

/-! ### Registers that a read forms, and ports that a read advances -/

/-- Registers that show the state of their block at the read: the selected cell (R339), the source of the selected buffer (R405), the
entries enabled (R340), the consumption of the logic (R544: a physical reading that no row reports, a free value). -/
def refresh (d : Dev) (p : Nat) : Dev :=
  match pageBlk p with
  | some (.tmc, _) =>
    let h := (halfOfPage p).getD .a
    let t := d.get p TMC.SEL_EDGE * 1024 + d.get p TMC.SEL_IDX
    let cs := (d.cyx h).cells.filter (fun c => c.def_.edge == d.on p TMC.SEL_EDGE)
    let vs : List (Fld × Nat) := match cs[d.get p TMC.SEL_IDX]? with
      | some c => [(TMC.CELL_ID_ID, c.def_.id), (TMC.CELL_CFG_KIND, c.def_.kind), (TMC.CELL_CFG_QFS, c.def_.qfs.toNat), (TMC.CELL_CFG_Q, c.q.toNat),
          (TMC.CELL_CFG_PREV, c.prev.toNat), (TMC.CELL_PT_MS, c.pt), (TMC.CELL_ET_MS, satU 32 (c.e / 1000)), (TMC.CELL_IN_ADDR, c.def_.inA),
          (TMC.CELL_Q_ADDR, c.def_.qA)]
      | none => [(TMC.CELL_ID_ID, 0), (TMC.CELL_CFG_KIND, 0), (TMC.CELL_CFG_QFS, 0), (TMC.CELL_CFG_Q, 0), (TMC.CELL_CFG_PREV, 0),
          (TMC.CELL_PT_MS, 0), (TMC.CELL_ET_MS, 0), (TMC.CELL_IN_ADDR, 0), (TMC.CELL_Q_ADDR, 0)]
    vs.foldl (fun d x => d.put p x.1 x.2 0 t) d
  | some (.can, n) => let b := d.get p CAN.TX_SEL_BUF; d.put p CAN.TXB_CTL_SRC (d.canSrc n b) 0 b
  | some (.pwr, _) => let r := d.fresh; r.2.put p PWR.LOGIC_MW r.1.toNat
  | some (.frc, _) => d.put p FRC.USED_N (d.forces ((halfOfPage p).getD .a)).length
  | _ => d

/-- What a read of a port does beside answering: its address advances (R72, R161, R279, R489, R520). -/
def portRead (d : Dev) (w : Who) (p off : Nat) : Dev :=
  match pageBlk p with
  | some (.le, n) => if off = LE.TBL_DATA_WORD.off then d.tblRead ((halfOfPage p).getD .a) n else d
  | some (.cfg, _) => if off = CFG.RD_DATA_WORD.off then d.cfgRead else d
  | some (.slt, _) => if off = SLT.RD_DATA_WORD.off ∧ d.privileged w = true then d.sltRdData w.sltGrp else d
  | some (.enc, _) =>
    let g := w.encGrp
    let a := d.get p ENC.TOK_ADDR_WORD 0 g
    if off = ENC.REP_DATA_WORD.off then d.repRead g
    else if off = ENC.TOK_DATA_WORD.off then d.put p ENC.TOK_ADDR_WORD (if a ≥ 863 then 0 else a + 1) 0 g
    else d
  | some (.spb, _) =>
    let a := d.get p SPB.ADDR_WORD
    if off = SPB.DATA_WORD.off ∧ d.privileged w = true then d.put p SPB.ADDR_WORD (if a ≥ 3391 then 0 else a + 1) else d
  | _ => d

end Dev

end Sys2Proof.Machine
end

