-- ==== Sys2Proof/Machine/Bus.lean ====
section
/-! DEFINITION. Accesses over the register interconnect, the MRAM window and the host link, fences and region aborts
(spec/01_architecture.md, R20 to R39; spec/02_register_conventions.md, R45 to R68; spec/18_security.md, R522 to R526). -/
namespace Sys2Proof.Machine

open Sys2Proof

/-- What an address reaches (R45, Table 1; R47). -/
inductive Place where
  | bad | rom | sram | mram
  | page (p off : Nat)
  deriving DecidableEq, Repr

namespace Dev

/-! ### Masters and places (R45, R46, R47, R66) -/

/-- Whether a master issues accesses now: a core of a half whose cores run (R365), the host link with its strap (R513), debug while it is
unlocked (R515), the safety pair and the enclave. Shoal and the mirror link access no page. -/
def issues (d : Dev) (w : Who) : Bool :=
  match w.half? with
  | some h => let st := d.hlfState h; decide (st ≤ 2) || (st == 5 && (d.hlf h).ready)
  | none => (w.mid == 0x12 && d.hostOn) || (w.mid == 0x13 && d.privileged w) || w.mid == 0x10 || w.mid == 0x11

/-- Whether a master reaches a block's pages: the safety pair and the enclave reach only their own (R46). -/
def reaches (w : Who) (b : Blk) : Bool :=
  if w.mid = 0x10 then b.region == 3 else if w.mid = 0x11 then b == .enc else true

/-- What an address reaches for a master. The host link and debug see the CTL region of the lease holder (R46). The safety pair and the enclave
have no MRAM window: R38, R526 and Table 6 of R29 give them none, so that range is reserved to them (notes/assumptions/67.md). -/
def place (d : Dev) (w : Who) (a : Nat) : Place :=
  if a < 0x10000 then .rom
  else if 0x08000000 ≤ a ∧ a < 0x08800000 then (if w.half?.isSome then .sram else .bad)
  else if 0x20000000 ≤ a ∧ a < 0x40000000 then (if w.mid = 0x10 ∨ w.mid = 0x11 then .bad else .mram)
  else if 0x40000000 ≤ a ∧ a < 0x54000000 then
    let r := (a - 0x40000000) / 0x4000000
    let i := (a - 0x40000000) % 0x4000000 / 0x1000
    let p := (if r = 0 then (w.half?.getD d.holder).n else r + 1) * 256 + i
    match (if i < 256 then pageBlk p else none) with
    | some (b, _) => if reaches w b then .page p (a % 0x1000) else .bad
    | none => .bad
  else .bad

/-- An answer without an error. -/
def ans (d : Dev) (ws : List Word) : Dev := { d with resp := ⟨ws, false, 0⟩ }
/-- An access refused with a code and without a bus error response. -/
def nak (d : Dev) (ws : List Word) (code : Nat) : Dev := { d with resp := ⟨ws, false, code⟩ }
/-- A bus error response; a read returns 0. -/
def busErr (d : Dev) (ws : List Word) (code : Nat) : Dev := { d with resp := ⟨ws, true, code⟩ }

/-- A refused write of a register: ignored, `ERR.CODE`, a REFUSED record (R56, R57, R274). -/
def refuseW (d : Dev) (w : Who) (p code a v : Nat) : Dev := ((d.err p code).refuse w p code a v 0).nak [] code

/-- The record of a write to a reserved range (R45, R479): SRC of the region addressed, else of the master; no page. -/
def refuseBad (d : Dev) (w : Who) (a v : Nat) : Dev :=
  let r := (a - 0x40000000) / 0x4000000
  let own := match w.half? with | some h => h.n | none => if w.mid = 0x12 then 2 else 6
  let src := if 0x40000000 ≤ a ∧ a < 0x54000000 then
      (match r with | 0 => (w.half?.getD d.holder).n | 1 => 2 | 2 => 3 | 3 => 4 | _ => 6) else own
  d.post ⟨d.now, 0, 12, clsRefused, cRANGE, src, 0xFF, w.mid, d.privByte w, 0, leBytes 4 a ++ leBytes 4 v ++ leBytes 4 0⟩

/-! ### Memories (R34, R35, R38, R39) -/

/-- The bytes of a read as words, the last padded with zeros. -/
def packWords : Nat → List Nat → List Word
  | 0, _ => []
  | k + 1, bs => BitVec.ofNat 32 (ofLe (bs.take 4)) :: packWords k (bs.drop 4)

/-- An access of a core to its half's SRAM: the reserved area reads 0 and ignores writes (R34); a word with an uncorrectable error answers
ECC (R35), and a write of the whole word ends it. `err` says that a read meets such an error in its first word. -/
def sramAccess (d : Dev) (h : HalfId) (a : Nat) (wr : Option (List Byte)) (n : Nat) (err : Bool := false) : Dev :=
  let len := match wr with | some bs => bs.length | none => n
  let zeros : List Word := if wr.isSome then [] else List.replicate ((len + 3) / 4) 0
  if a < 0x08080000 then d.nak zeros cPRIV
  else match wr with
  | some bs =>
    let bs := bs.take (0x08800000 - a)
    ((d.setSram h (memWrites (d.half h).sram a bs)).modHlf h (fun x => { x with bad := x.bad.filter (fun b => !coversWord a bs.length b) })).ans []
  | none =>
    match (d.hlf h).bad.find? (fun b => decide (a < b + 4 ∧ b < a + len)) with
    | some b => (d.sramErr h b true).busErr zeros cECC
    | none => if err then (d.sramFound h (a / 4 * 4) true).busErr zeros cECC else d.ans (packWords ((len + 3) / 4) ((memReads (d.half h).sram a len).map BitVec.toNat))

/-- The MRAM window offset of a master, in MiB (R38, R526). -/
def winBase (d : Dev) (w : Who) : Nat :=
  match w.half? with
  | some h =>
    let f := match w.core with | 0 => NVM.WIN_BASE0_BASE | 1 => NVM.WIN_BASE1_BASE | 2 => NVM.WIN_BASE2_BASE | _ => NVM.WIN_BASE3_BASE
    d.get (shp .nvm) f 0 h.n
  | none => if w.mid = 0x12 then d.get (shp .hst) HST.WIN_BASE_BASE else Config.debugWindow.toNat

/-- Whether an access may reach an MRAM offset (R38, Table 11). -/
def mramOk (d : Dev) (mach wr : Bool) (x : Nat) : Bool :=
  if x < 0x24000000 then mach && !wr else decide (d.userBase ≤ x ∧ x < mramEnd)

/-- An access through the MRAM window (R38, R39, R526): checked, refused with a record, discarded, or served. The configuration partition shows
the bytes of MRAM: generations and the Seedbank's copies, which the spec gives no layout, are kept beside it (notes/assumptions/62.md). `err` says that a read meets an uncorrectable error in its first word (R35). -/
def mramAccess (d : Dev) (w : Who) (a : Nat) (wr : Option (List Byte)) (n : Nat) (err : Bool := false) : Dev :=
  let p := shp .nvm
  let off := d.winBase w * 0x100000 + (a - 0x20000000)
  let len := match wr with | some bs => bs.length | none => n
  let zeros : List Word := if wr.isSome then [] else List.replicate ((len + 3) / 4) 0
  let val := match wr with | some bs => ofLe ((bs.take 4).map BitVec.toNat) | none => 0
  let no (code : Nat) : Dev := ((d.err p code).refuse w p code a val (if wr.isSome then 2 else 1)).nak zeros code
  if off + len > mramEnd then no cRANGE
  else if !(List.range len).all (fun i => d.mramOk (d.privileged w) wr.isSome (off + i)) then no cPRIV
  else match wr with
  | some bs =>
    if (match w.half? with | some h => !d.holds h | none => false) then (d.bump p NVM.STBY_DROP_COUNT).ans []
    else { d with mram := memWrites d.mram off bs, mbad := d.mbad.filter (fun b => !coversWord off bs.length b) }.ans []
  | none =>
    match d.mbad.find? (fun b => decide (off < b + 4 ∧ b < off + len)) with
    | some b => (d.mramErr b true).busErr zeros cECC
    | none => if err then (d.mramFound (off / 4 * 4) true none).busErr zeros cECC else d.ans (packWords ((len + 3) / 4) ((memReads d.mram off len).map BitVec.toNat))

/-! ### Writes of page registers (R48, R53 to R62) -/

/-- An IMMEDIATE event of a page (R50, R51). -/
def immEvent (d : Dev) (p : Nat) : Dev :=
  let h := (halfOfPage p).getD d.holder
  if p = shp .trm then d.applyTrm h else let n := d.nextImm p; n.2.applyOf p h 6 n.1

/-- The window offsets: a value above 8,191 is rejected with RANGE (R40, R526), so the bits above the field take part in the check. -/
def winBases : List Fld := [NVM.WIN_BASE0_BASE, NVM.WIN_BASE1_BASE, NVM.WIN_BASE2_BASE, NVM.WIN_BASE3_BASE, HST.WIN_BASE_BASE]

/-- The effect of a write on one field of the word, under its access code (R53). Each word of the challenge `ENC.ATT_CHAL0`–`3` is a register of its
own and takes effect at once (notes/assumptions/67.md). -/
def fieldWrite (d : Dev) (w : Who) (p : Nat) (b : Blk) (n : Nat) (f : Fld) (i data : Nat) : Dev :=
  let v := field data f.lo f.w
  let t := d.tabIdx p f w
  let why := if winBases.contains f && decide (data / 2 ^ f.lo ≥ 2 ^ f.w) then some cRANGE else d.valueWhy p f v
  let store (d : Dev) : Dev := match why with | some r => (d.err p r).nak [] r | none => d.put p f v i t
  let act := match halfOfPage p with | some h => d.ctlAct w p b h n f i v data | none => d.shpAct w p b n f i v data
  match accOn p f with
  | .rs =>
    if b.bnd = .none then d
    else
      let d := d.stage w p (d.shadowOf p w) f i t v
      if f = SHL.FT_DATA_MS then d.wrapUp p SHL.FT_IDX_IDX else d
  | .rw => match why, act with | some r, _ => (d.err p r).nak [] r | none, some x => x | none, none => store d
  | .pv =>
    if f = HDR.LOCK_SET then (if v = 1 then d.put p f 1 else d)
    else match d.valueWhy p f v, act with | some r, _ => (d.err p r).nak [] r | none, some x => x | none, none => store d
  | .w1 | .wo => act.getD d
  | .ro | .rc => d

/-- A write of the register at an offset, once it is permitted: each field in turn, the CONFIG record of a changed setting (R61), and the
IMMEDIATE event of the write (R50). -/
def wordWrite (d : Dev) (w : Who) (p : Nat) (b : Blk) (n off data : Nat) : Dev :=
  let fs := (fieldsAt p off).filter (fun x =>
    !(leaseOnly b x.1 && (match w.half? with | some h => !d.holds h | none => false)))
  let held := d.on p HDR.CTRL_STAGE_HOLD
  let bnd := d.bndOf p
  let d1 := fs.foldl (fun d x => d.fieldWrite w p b n x.1 x.2 data) (d.ans [])
  let d2 := match fs.find? (fun x => isSetting x.1) with
    | some (f, i) =>
      let o := d.workWord p off 0
      let v := d1.workWord p off 0
      if o = v then d1
      else d1.noteConfig ⟨p, f, i, 0, none, 0, w.mid, d.privByte w, false⟩ 1 0 o v (d1.get p HDR.COMMIT_SEQ 0 (commitIdx (d.shadowOf p w))) 6
    | none => d1
  let d3 := if p = shp .slt && off = SLT.CFG_FULL_MODE.off then d2.siltLevel
    else if p = shp .rtc && off = RTC.CHG_EN.off then d2.chgSet (d.get p RTC.CHG_LIM) else d2
  let staged := fs.any (fun x => decide (accOn p x.1 = .rs)) && b.bnd != .none
  let freed := held && !d3.on p HDR.CTRL_STAGE_HOLD && off == HDR.CTRL_STAGE_HOLD.off
  if bnd = 6 && (staged || freed) then { d3.immEvent p with resp := d3.resp } else d3

/-- A write of `ABORT` (R56, R67, R68): what the abort does is done at once, and the page stands as aborting until the abort is found
complete. SFC, THS and SIO are read only to every master but the safety pair (R274). Where every writable register of the page needs a role, so does
this one; in a half that is not ACTIVE a write to FRC is ignored (R326, R327). -/
def abortWrite (d : Dev) (w : Who) (p : Nat) (b : Blk) (a data : Nat) : Dev :=
  if b = .sbk ∨ b = .bot then d.ans []
  else if b.region = 3 && w.half?.isSome then d.refuseW w p cSAFETY a data
  else if (b = .sfc ∨ b = .ths ∨ b = .sio) ∧ w.mid ≠ 0x10 then d.ans []
  else if b = .frc && !d.active ((halfOfPage p).getD .a) then d.ans []
  else if (w.half?.isSome && !w.mach) || !d.mayWrite w b HDR.ABORT_KEY then d.refuseW w p cPRIV a data
  else if data ≠ 0xAB then (d.err p cRANGE).nak [] cRANGE
  else ({ d with aborting := d.aborting.filter (fun q => q != p) ++ [p] }.abortBlk p).ans []

/-- Whether a page is still aborting when an access reaches it (R68): an abort lasts up to 4 µs, and how much of that an access meets is a free
value. One found complete is over. -/
def abortWait (d : Dev) (p : Nat) : Bool × Dev :=
  if d.aborting.contains p then
    let r := d.fresh
    if r.1.toNat % 2 = 1 then (true, r.2) else (false, { r.2 with aborting := r.2.aborting.filter (fun q => q != p) })
  else (false, d)

/-- The entry of a register that an access reaches. -/
def tabOf (d : Dev) (w : Who) (p off : Nat) : Nat := match fieldsAt p off with | (f, _) :: _ => d.tabIdx p f w | [] => 0

/-- A write to a page (R22, R48, R52 to R57, R274, R327). -/
def pageWrite (d : Dev) (w : Who) (p off a bytes data : Nat) : Dev :=
  match pageBlk p with
  | none => d
  | some (b, n) =>
    let fs := fieldsAt p off
    let ws := fs.filter (fun x => decide (accOn p x.1 ≠ .ro) && decide (accOn p x.1 ≠ .rc))
    if d.fenced.contains p then (d.err p cFENCED).busErr [] cFENCED
    else if (d.abortWait p).1 then ((d.abortWait p).2.err p cBUSY).busErr [] cBUSY
    else
    let d := (d.abortWait p).2
    if bytes ≠ 4 ∨ a % 4 ≠ 0 then (d.err p cRANGE).busErr [] cRANGE
    else if off = HDR.ABORT_KEY.off then d.abortWrite w p b a data
    else if fs.isEmpty then d.ans []
    else if (b = .sfc ∨ b = .ths ∨ b = .sio) ∧ w.mid ≠ 0x10 then (if w.half?.isSome then d.refuseW w p cSAFETY a data else d.ans [])
    else if ws.isEmpty then d.ans []
    else if b = .frc && !d.active ((halfOfPage p).getD .a) then d.ans []
    else if ws.any (fun x => !d.mayWrite w b x.1) then d.refuseW w p cPRIV a data
    else if d.on p HDR.LOCK_SET && ws.any (fun x => decide (accOn p x.1 ≠ .wo)) then d.refuseW w p cLOCKED a data
    else { d with badRegs := d.badRegs.filter (fun x => !decide (x = (p, off, d.tabOf w p off))) }.wordWrite w p b n off data

/-- A write over the interconnect. -/
def busWrite (d : Dev) (w : Who) (a bytes data : Nat) : Dev :=
  if !d.issues w then d
  else match d.place w a with
  | .rom => d.busErr [] cRANGE
  | .bad => (d.refuseBad w a (data % 2 ^ 32)).busErr [] cRANGE
  | .sram => d.sramAccess ((w.half?).getD .a) a (some ((leBytes bytes data).map (BitVec.ofNat 8))) 0
  | .mram => d.mramAccess w a (some ((leBytes bytes data).map (BitVec.ofNat 8))) 0
  | .page p off => d.pageWrite w p off a bytes (data % 2 ^ 32)

/-! ### Reads (R47, R48, R53, R54) -/

/-- Whether a master matches `OWNER.MID` of a page (R54). -/
def owns (d : Dev) (w : Who) (p : Nat) : Bool :=
  let o := d.get p HDR.OWNER_MID
  let core (m : Nat) : Bool := decide ((1 ≤ m ∧ m ≤ 4) ∨ (9 ≤ m ∧ m ≤ 12))
  w.mid == o || (regionOf p != 0 && core o && core w.mid && w.mid % 8 == o % 8)

/-- The words of a read that is refused. -/
def zeroWords (n : Nat) : List Word := List.replicate ((n + 3) / 4) 0

/-- A read of a page register: its word, the ports it advances, and the RC bits an owner's read clears. While the page aborts, its header reads
normally and anything else answers BUSY (R68). A register with a parity error, met by this read (`bad`) or before and not written since, answers ECC,
and its block is aborted (R21, R22). -/
def pageRead (d : Dev) (w : Who) (p off a n : Nat) (bad : Bool := false) : Dev :=
  if d.fenced.contains p then (d.err p cFENCED).busErr (zeroWords n) cFENCED
  else if n ≠ 4 ∨ a % 4 ≠ 0 then (d.err p cRANGE).busErr (zeroWords n) cRANGE
  else if off ≥ 0x40 ∧ (d.abortWait p).1 = true then ((d.abortWait p).2.err p cBUSY).busErr [0] cBUSY
  else if d.badRegs.contains (p, off, d.tabOf w p off) then ((d.err p cECC).abortBlk p).busErr [0] cECC
  else if bad && !(fieldsAt p off).isEmpty then (({ d with badRegs := d.badRegs ++ [(p, off, d.tabOf w p off)] }.err p cECC).abortBlk p).busErr [0] cECC
  else
    let d := (if off ≥ 0x40 then (d.abortWait p).2 else d).refresh p
    let d1 := (d.ans [BitVec.ofNat 32 (d.readWord w p off)]).portRead w p off
    if d.owns w p then
      ((fieldsAt p off).filter (fun x => decide (x.1.acc = .rc))).foldl (fun x f => x.put p f.1 0 f.2 (d.tabIdx p f.1 w)) d1
    else d1

/-- Free words. -/
def freshWords : Nat → Dev → List Word × Dev
  | 0, d => ([], d)
  | k + 1, d => let r := d.fresh; let s := freshWords k r.2; (r.1 :: s.1, s.2)

/-- A read of `n` bytes over the interconnect. A read of a reserved range is not recorded (R45); the boot ROM's content is not given: free
values. `err` says that the read meets an error that cannot be corrected. -/
def busRead (d : Dev) (w : Who) (a n : Nat) (err : Bool := false) : Dev :=
  if !d.issues w then d
  else match d.place w a with
  | .rom => let r := freshWords ((n + 3) / 4) d; r.2.ans r.1
  | .bad => d.busErr (zeroWords n) cRANGE
  | .sram => d.sramAccess ((w.half?).getD .a) a none n err
  | .mram => d.mramAccess w a none n err
  | .page p off => d.pageRead w p off a n err

/-! ### Fences, region aborts (R22, R23) -/

/-- Whether a CTL page is the motion, loop, position or lane block of a car in use (R22). -/
def carBlock (d : Dev) (p : Nat) : Bool :=
  match pageBlk p, halfOfPage p with
  | some (b, n), some h =>
    let cars := (List.range 4).any (fun c => d.carEn h c)
    match b with
    | .mpg => d.carEn h n
    | .pos | .sep => cars
    | .le => (List.range 32).any (fun l => d.on p LE.LOOP_CFG_EN 0 l)
    | _ => false
  | _, _ => false

/-- Fence a page, with its record; a fence of a car's block leads HLF to abort the half. -/
def fence (d : Dev) (p : Nat) : Dev :=
  if (pageBlk p).isNone ∨ d.fenced.contains p then d
  else
    let lost := d.carBlock p
    let d := { d with fenced := d.fenced ++ [p], aborting := d.aborting.filter (fun q => q != p) }.fault p cFENCED
    match lost, halfOfPage p with
    | true, some h => d.halfAbort h
    | _, _ => d

/-- A block does not answer an access within 2 µs: the access ends with TIMEOUT, and the region fences the block. -/
def accessTimeout (d : Dev) (w : Who) (a : Nat) : Dev :=
  if !d.issues w then d
  else match d.place w a with
  | .page p _ => (d.fence p).busErr [] cTIMEOUT
  | _ => d

/-- A region aborts its fenced blocks and clears their fences (R22). The spec says of a region abort only that it ends the fences: that the
region's other blocks go on is the model's choice (notes/assumptions/49.md). -/
def regionAbort (d : Dev) (bank : Nat) : Dev :=
  let ps := d.fenced.filter (fun p => bankOf p == bank)
  let lost := ps.any d.carBlock
  let d := ps.foldl abortBlk { d with fenced := d.fenced.filter (fun p => bankOf p != bank) }
  if lost then d.halfAbort (if bank = 0 then .a else .b) else d

/-! ### Scrubbing and the intake (R28, R35) -/

/-- An uncorrectable word of the reserved area of SRAM is state of the block that keeps it there: TMC, FRC and Shoal, or the exchange descriptors, whose
block has no page (R34, R41). That block reports it and is aborted (R22). Which word is whose the spec does not give: free. -/
def reservedBad (d : Dev) (h : HalfId) (a : Nat) : Dev :=
  if a < 0x08080000 then
    let r := d.fresh
    match r.1.toNat % 4 with
    | 0 => (r.2.err (ctl .tmc h) cECC).abortBlk (ctl .tmc h)
    | 1 => (r.2.err (ctl .frc h) cECC).abortBlk (ctl .frc h)
    | 2 => (r.2.err (ctl .shl h) cECC).abortBlk (ctl .shl h)
    | _ => r.2
  else d

/-- An error found in a word of SRAM, and what it means for the block whose word it is (R22, R35). -/
def sramHit (d : Dev) (h : HalfId) (a : Nat) (ue : Bool) : Dev :=
  let d := d.sramFound h a ue
  if ue then d.reservedBad h a else d

/-- A pass of the scrubber over one memory: corrected and uncorrectable words as found, and the words known to hold an uncorrectable error. -/
def scrub (d : Dev) (m : Option HalfId) (ces ues : List Nat) : Dev :=
  match m with
  | some h =>
    let inS (a : Nat) : Bool := decide (0x08000000 ≤ a ∧ a < 0x08800000)
    let bad := (d.hlf h).bad
    let d := (ces.filter inS).foldl (fun d a => d.sramHit h a false) d
    (bad ++ (ues.filter (fun a => inS a && !bad.contains (a / 4 * 4)))).foldl (fun d a => d.sramHit h a true) d
  | none =>
    let bad := d.mbad
    let d := ces.foldl (fun d a => d.mramFound a false none) d
    (bad ++ (ues.filter (fun a => !bad.contains (a / 4 * 4)))).foldl (fun d a => d.mramFound a true none) d

/-- A record as a block posts it (R28, R476, R477): at most 4,072 payload bytes, of a class that is written. -/
def siltPost (d : Dev) (src page mid priv cls code detail : Nat) (payload : List Nat) : Dev :=
  if payload.length > 4072 ∨ cls ≥ 0xC then d
  else d.post ⟨d.now, 0, payload.length, cls, code, src, page, mid, priv, detail, payload⟩

/-! ### The host link (R522 to R525) -/

/-- The host link's accesses. -/
def hostW : Who := ⟨0x12, false⟩

/-- The words of a READ: an access that answers with a bus error, or a word not ready within 8 µs, ends the transaction with ERROR. -/
def hstReadGo (late : Option Nat) (acc : List Word) : Dev → List (Nat × Nat) → Dev
  | d, [] => { d with resp := ⟨acc, false, 0⟩ }
  | d, (i, a) :: r =>
    if late = some i then { d with resp := ⟨acc, true, cTIMEOUT⟩ }
    else
      let d := d.busRead hostW a 4
      if d.resp.busErr then { d with resp := ⟨acc, true, d.resp.code⟩ } else hstReadGo late (acc ++ d.resp.words) d r

/-- Addresses of the words of a transaction. -/
def hstAddrs (a n : Nat) (fix : Bool) : List (Nat × Nat) := (List.range n).map (fun i => (i, if fix then a else (a + 4 * i) % 2 ^ 32))

/-- READ and READ_FIX of `n` words. -/
def hstRead (d : Dev) (a n : Nat) (fix : Bool) (late : Option Nat) : Dev :=
  if !d.hostOn then d
  else
    let d := d.hstCount
    if a % 4 ≠ 0 then d.hstProto a else hstReadGo late [] d (hstAddrs a n fix)

/-- The words of a WRITE in order: a word whose access fails, or whose write is refused for privilege, ends the transaction (R524). -/
def hstWriteGo : Dev → List (Nat × Nat) → Dev
  | d, [] => d.ans []
  | d, (a, v) :: r =>
    let p := shp .hst
    let d := d.busWrite hostW a 4 v
    let c := d.resp.code
    if d.resp.busErr || c == cPRIV then
      ((((d.put p HST.STATUS_WR_ERR 1).put p HST.STATUS_WR_CODE c).put p HST.WR_FAIL_ADDR a).stat p 0).nak [] c
    else hstWriteGo d r

/-- WRITE and WRITE_FIX of `n` words, of which `ws` arrived whole. -/
def hstWrite (d : Dev) (a n : Nat) (fix : Bool) (ws : List Nat) : Dev :=
  let p := shp .hst
  if !d.hostOn then d
  else
    let d := d.hstCount
    if a % 4 ≠ 0 then d.hstProto a
    else if n > d.get p HST.STATUS_WR_FREE then ((d.put p HST.STATUS_FULL 1).err p cHST_FULL (a % 65536)).nak [] cHST_FULL
    else hstWriteGo d ((hstAddrs a ws.length fix).map (fun x => (x.2, ws.getD x.1 0)))

end Dev

/-! ### Meanings -/

def execRegisterWrite (who : Who) (addr : BitVec 64) (bytes : Nat) (data : BitVec 64) (s : State) : Host.Outcome State Fault Refusal :=
  onDev (fun d => d.busWrite who addr.toNat bytes data.toNat) s
def execClearingRead (who : Who) (span : Span) (s : State) : Host.Outcome State Fault Refusal :=
  onDev (fun d => d.busRead who span.addr.toNat span.bytes span.err) s

/-- A write of `ABORT` of the page that holds the address. -/
def execBlockAbort (who : Who) (addr : BitVec 64) (key : BitVec 32) (s : State) : Host.Outcome State Fault Refusal :=
  onDev (fun d => d.busWrite who (addr.toNat / 0x1000 * 0x1000 + HDR.ABORT_KEY.off) 4 key.toNat) s

/-- A write of 1 to `LOCK` of the page that holds the address. -/
def execLockSet (who : Who) (addr : BitVec 64) (s : State) : Host.Outcome State Fault Refusal :=
  onDev (fun d => d.busWrite who (addr.toNat / 0x1000 * 0x1000 + HDR.LOCK_SET.off) 4 1) s

/-- A write of `CTRL` of the page that holds the address, with STAGE_HOLD 0. -/
def execStageHoldClear (who : Who) (addr : BitVec 64) (data : BitVec 32) (s : State) : Host.Outcome State Fault Refusal :=
  onDev (fun d => d.busWrite who (addr.toNat / 0x1000 * 0x1000 + HDR.CTRL_EN.off) 4 (setBitN data.toNat 1 false)) s
def execAccessTimeout (who : Who) (addr : BitVec 64) (s : State) : Host.Outcome State Fault Refusal :=
  onDev (fun d => d.accessTimeout who addr.toNat) s
def execAbortTimeout (page : BitVec 11) (s : State) : Host.Outcome State Fault Refusal := onDev (fun d => d.fence page.toNat) s
def execRegionAbort (bank : Fin 6) (s : State) : Host.Outcome State Fault Refusal := onDev (fun d => d.regionAbort bank.val) s
def execDeviceSafeState (s : State) : Host.Outcome State Fault Refusal := onDev (fun d => d.deviceSafe) s

/-- An access of 1 to 8 bytes through the window: `wr` holds the bytes of a write, `n` the size of a read. -/
def execMramWindowAccess (who : Who) (addr : BitVec 32) (wr : Option (List (BitVec 8))) (n : BitVec 4) (s : State) :
    Host.Outcome State Fault Refusal :=
  onDev (fun d => if d.issues who && d.place who addr.toNat == .mram then d.mramAccess who addr.toNat wr n.toNat else d) s
def execScrubPass (sram : Option HalfId) (ces ues : List (BitVec 33)) (s : State) : Host.Outcome State Fault Refusal :=
  onDev (fun d => d.scrub sram (ces.map BitVec.toNat) (ues.map BitVec.toNat)) s
/-- An error in the word at an offset of a half's SRAM. -/
def execSramRowReplace (h : HalfId) (addr : BitVec 23) (ue : Bool) (s : State) : Host.Outcome State Fault Refusal :=
  onDev (fun d => d.sramHit h (sramBase + addr.toNat) ue) s

def execSiltPost (src : BitVec 4) (page mid priv cls code : BitVec 8) (detail : BitVec 16) (payload : List (BitVec 8)) (s : State) :
    Host.Outcome State Fault Refusal :=
  onDev (fun d => d.siltPost src.toNat page.toNat mid.toNat priv.toNat cls.toNat code.toNat detail.toNat (payload.map BitVec.toNat)) s

/-- `n` is the count byte; `late` the word that is not ready 8 µs after its access began. -/
def execHstRead (addr : BitVec 32) (n : BitVec 8) (late : Option (BitVec 8)) (s : State) : Host.Outcome State Fault Refusal :=
  onDev (fun d => d.hstRead addr.toNat (n.toNat + 1) false (late.map BitVec.toNat)) s
def execHstReadFix (addr : BitVec 32) (n : BitVec 8) (late : Option (BitVec 8)) (s : State) : Host.Outcome State Fault Refusal :=
  onDev (fun d => d.hstRead addr.toNat (n.toNat + 1) true (late.map BitVec.toNat)) s
def execHstWrite (addr : BitVec 32) (ws : List (BitVec 32)) (s : State) : Host.Outcome State Fault Refusal :=
  onDev (fun d => d.hstWrite addr.toNat ws.length false (ws.map BitVec.toNat)) s
def execHstWriteFix (addr : BitVec 32) (ws : List (BitVec 32)) (s : State) : Host.Outcome State Fault Refusal :=
  onDev (fun d => d.hstWrite addr.toNat ws.length true (ws.map BitVec.toNat)) s

/-- QSPI_nCS rises within a word, after `got` whole words of a READ or a WRITE with count byte `n` (R525). -/
def execHstCsAbort (wr fix : Bool) (addr : BitVec 32) (n got : BitVec 8) (ws : List (BitVec 32)) (s : State) :
    Host.Outcome State Fault Refusal :=
  onDev (fun d =>
    let k := min got.toNat n.toNat
    if wr then d.hstWrite addr.toNat (n.toNat + 1) fix ((ws.map BitVec.toNat).take k) else d.hstRead addr.toNat k fix none) s

end Sys2Proof.Machine
end

