-- ==== Sys2Proof/Machine/Dispatch.lean ====
section
/-! DEFINITION. One arm per command: the call of its meaning. -/
namespace Sys2Proof.Machine

open Sys2Proof

def exec (i : Instr) (s : State) : Host.Outcome State Fault Refusal :=
  match i with
  | .registerWrite who addr bytes data => Sys2Proof.Machine.execRegisterWrite who addr bytes data s
  | .clearingRead who span => Sys2Proof.Machine.execClearingRead who span s
  | .blockAbort who addr key => Sys2Proof.Machine.execBlockAbort who addr key s
  | .lockSet who addr => Sys2Proof.Machine.execLockSet who addr s
  | .stageHoldClear who addr data => Sys2Proof.Machine.execStageHoldClear who addr data s
  | .accessTimeout who addr => Sys2Proof.Machine.execAccessTimeout who addr s
  | .abortTimeout page => Sys2Proof.Machine.execAbortTimeout page s
  | .regionAbort bank => Sys2Proof.Machine.execRegionAbort bank s
  | .deviceSafeState => Sys2Proof.Machine.execDeviceSafeState s
  | .mramWindowAccess who addr wr n => Sys2Proof.Machine.execMramWindowAccess who addr wr n s
  | .scrubPass sram ces ues => Sys2Proof.Machine.execScrubPass sram ces ues s
  | .sramRowReplace h addr ue => Sys2Proof.Machine.execSramRowReplace h addr ue s
  | .mramBlockRemap off ue first last => Sys2Proof.Machine.execMramBlockRemap off ue first last s
  | .siltPost src page mid priv cls code detail payload => Sys2Proof.Machine.execSiltPost src page mid priv cls code detail payload s
  | .servoEvent h => Sys2Proof.Machine.execServoEvent h s
  | .frameEvent c start => Sys2Proof.Machine.execFrameEvent c start s
  | .cycleSnapshot h dt ns => Sys2Proof.Machine.execCycleSnapshot h dt ns s
  | .cyclePublish h us ns => Sys2Proof.Machine.execCyclePublish h us ns s
  | .cyxDone h core ws => Sys2Proof.Machine.execCyxDone h core ws s
  | .cycWdog h => Sys2Proof.Machine.execCycWdog h s
  | .idleCycleEvent h => Sys2Proof.Machine.execIdleCycleEvent h s
  | .cyxWarm h => Sys2Proof.Machine.execCyxWarm h s
  | .cyxCold h => Sys2Proof.Machine.execCyxCold h s
  | .cyxStop h => Sys2Proof.Machine.execCyxStop h s
  | .olcLoad h => Sys2Proof.Machine.execOlcLoad h s
  | .olcLoadDone h ok => Sys2Proof.Machine.execOlcLoadDone h ok s
  | .olcSwitch h => Sys2Proof.Machine.execOlcSwitch h s
  | .olcCancel h => Sys2Proof.Machine.execOlcCancel h s
  | .olcSwitchExec h ns10 => Sys2Proof.Machine.execOlcSwitchExec h ns10 s
  | .olcDone h => Sys2Proof.Machine.execOlcDone h s
  | .frcClrAll h mid mach => Sys2Proof.Machine.execFrcClrAll h mid mach s
  | .tmcFind h id => Sys2Proof.Machine.execTmcFind h id s
  | .cfgSave mid mach => Sys2Proof.Machine.execCfgSave mid mach s
  | .cfgSaveCapture => Sys2Proof.Machine.execCfgSaveCapture s
  | .cfgSaveDone ok => Sys2Proof.Machine.execCfgSaveDone ok s
  | .cfgRevert mid mach => Sys2Proof.Machine.execCfgRevert mid mach s
  | .cfgFactory mid mach => Sys2Proof.Machine.execCfgFactory mid mach s
  | .cfgRdDataRead => Sys2Proof.Machine.execCfgRdDataRead s
  | .servoStateReceive h => Sys2Proof.Machine.execServoStateReceive h s
  | .servoStateMiss h => Sys2Proof.Machine.execServoStateMiss h s
  | .cycleMarker h dt ns => Sys2Proof.Machine.execCycleMarker h dt ns s
  | .shadowCopy h => Sys2Proof.Machine.execShadowCopy h s
  | .mirPacketCrcFail h err => Sys2Proof.Machine.execMirPacketCrcFail h err s
  | .mirLinkDown => Sys2Proof.Machine.execMirLinkDown s
  | .ssiFrame rx lineLow bits => Sys2Proof.Machine.execSsiFrame rx lineLow bits s
  | .posFuse h => Sys2Proof.Machine.execPosFuse h s
  | .slip h n => Sys2Proof.Machine.execSlip h n s
  | .coastExpired h n => Sys2Proof.Machine.execCoastExpired h n s
  | .encoderEdge e up => Sys2Proof.Machine.execEncoderEdge e up s
  | .encLoss e => Sys2Proof.Machine.execEncLoss e s
  | .posReval h n => Sys2Proof.Machine.execPosReval h n s
  | .switchChange h m level => Sys2Proof.Machine.execSwitchChange h m level s
  | .latchEdge src rising dt20 => Sys2Proof.Machine.execLatchEdge src rising dt20 s
  | .latchConfirm src level => Sys2Proof.Machine.execLatchConfirm src level s
  | .latchBounce src => Sys2Proof.Machine.execLatchBounce src s
  | .latchArm h m => Sys2Proof.Machine.execLatchArm h m s
  | .dzEdge h src entering dt20 => Sys2Proof.Machine.execDzEdge h src entering dt20 s
  | .lrnStart h n src => Sys2Proof.Machine.execLrnStart h n src s
  | .lrnStop h => Sys2Proof.Machine.execLrnStop h s
  | .lrnEdge h edge dt20 => Sys2Proof.Machine.execLrnEdge h edge dt20 s
  | .mpgMove h n pos tag => Sys2Proof.Machine.execMpgMove h n pos tag s
  | .mpgJog h n vel tag => Sys2Proof.Machine.execMpgJog h n vel tag s
  | .mpgStop h n tag => Sys2Proof.Machine.execMpgStop h n tag s
  | .mpgStopAt h n pos tag => Sys2Proof.Machine.execMpgStopAt h n pos tag s
  | .mpgStopNow h n tag => Sys2Proof.Machine.execMpgStopNow h n tag s
  | .mpgRescue h n vel tag => Sys2Proof.Machine.execMpgRescue h n vel tag s
  | .drvStatusFrame n data => Sys2Proof.Machine.execDrvStatusFrame n data s
  | .drvSilent h n => Sys2Proof.Machine.execDrvSilent h n s
  | .loopLate h e k => Sys2Proof.Machine.execLoopLate h e k s
  | .plaus h e l => Sys2Proof.Machine.execPlaus h e l s
  | .tblDataWrite h e v => Sys2Proof.Machine.execTblDataWrite h e v s
  | .sepReserve h car lo hi tag => Sys2Proof.Machine.execSepReserve h car lo hi tag s
  | .sepTrim h car tag => Sys2Proof.Machine.execSepTrim h car tag s
  | .sepHandover h car bnd tag => Sys2Proof.Machine.execSepHandover h car bnd tag s
  | .headwayCheck => Sys2Proof.Machine.execHeadwayCheck s
  | .sourceTFrame n lineLow bits => Sys2Proof.Machine.execSourceTFrame n lineLow bits s
  | .theathSepCheck => Sys2Proof.Machine.execTheathSepCheck s
  | .sepTinv n => Sys2Proof.Machine.execSepTinv n s
  | .doorOpen h k land tag => Sys2Proof.Machine.execDoorOpen h k land tag s
  | .doorClose h k tag => Sys2Proof.Machine.execDoorClose h k tag s
  | .doorNudge h k tag => Sys2Proof.Machine.execDoorNudge h k tag s
  | .doorStop h k tag => Sys2Proof.Machine.execDoorStop h k tag s
  | .doorStopNow h k tag => Sys2Proof.Machine.execDoorStopNow h k tag s
  | .doorHome h k tag => Sys2Proof.Machine.execDoorHome h k tag s
  | .doorLockFail h k => Sys2Proof.Machine.execDoorLockFail h k s
  | .doorStatusFrame k data => Sys2Proof.Machine.execDoorStatusFrame k data s
  | .doorSilent h k => Sys2Proof.Machine.execDoorSilent h k s
  | .stpStepEdge c up dtNs => Sys2Proof.Machine.execStpStepEdge c up dtNs s
  | .stpPwmPeriod h c tNs => Sys2Proof.Machine.execStpPwmPeriod h c tNs s
  | .stpStill h c => Sys2Proof.Machine.execStpStill h c s
  | .stpDrvPowerLoss c => Sys2Proof.Machine.execStpDrvPowerLoss c s
  | .stpDrvPowerReturn c => Sys2Proof.Machine.execStpDrvPowerReturn c s
  | .shlNew h kind src dst count access prio car tag => Sys2Proof.Machine.execShlNew h kind src dst count access prio car tag s
  | .shlCancel h slot tag => Sys2Proof.Machine.execShlCancel h slot tag s
  | .shlArrive h car floor tag => Sys2Proof.Machine.execShlArrive h car floor tag s
  | .resTailWrite h v => Sys2Proof.Machine.execResTailWrite h v s
  | .shlPublish h => Sys2Proof.Machine.execShlPublish h s
  | .shlSweep h => Sys2Proof.Machine.execShlSweep h s
  | .shlReassignOut h car => Sys2Proof.Machine.execShlReassignOut h car s
  | .carRecordStale h car => Sys2Proof.Machine.execCarRecordStale h car s
  | .shlFwdTmo h slot => Sys2Proof.Machine.execShlFwdTmo h slot s
  | .safeInputChange ch level => Sys2Proof.Machine.execSafeInputChange ch level s
  | .theathEval => Sys2Proof.Machine.execTheathEval s
  | .pairSample t => Sys2Proof.Machine.execPairSample t s
  | .pairServoEval => Sys2Proof.Machine.execPairServoEval s
  | .discrepancy p => Sys2Proof.Machine.execDiscrepancy p s
  | .tpWindowStart k => Sys2Proof.Machine.execTpWindowStart k s
  | .tpWindowEnd k high low => Sys2Proof.Machine.execTpWindowEnd k high low s
  | .tpOverload k => Sys2Proof.Machine.execTpOverload k s
  | .heartbeatSend => Sys2Proof.Machine.execHeartbeatSend s
  | .heartbeatTimeout => Sys2Proof.Machine.execHeartbeatTimeout s
  | .tclkCheck off stale => Sys2Proof.Machine.execTclkCheck off stale s
  | .lockstepMismatch => Sys2Proof.Machine.execLockstepMismatch s
  | .safeFrame bus ident fd dlc data => Sys2Proof.Machine.execSafeFrame bus ident fd dlc data s
  | .stationSilent k => Sys2Proof.Machine.execStationSilent k s
  | .lockDisagree l => Sys2Proof.Machine.execLockDisagree l s
  | .sourceTLost n => Sys2Proof.Machine.execSourceTLost n s
  | .smbInfo tag => Sys2Proof.Machine.execSmbInfo tag s
  | .smbRescue car request tag => Sys2Proof.Machine.execSmbRescue car request tag s
  | .smbReset mask tag => Sys2Proof.Machine.execSmbReset mask tag s
  | .smbDegraded car request tag => Sys2Proof.Machine.execSmbDegraded car request tag s
  | .smbOutputTest k ms tag => Sys2Proof.Machine.execSmbOutputTest k ms tag s
  | .outputTestDone v ma => Sys2Proof.Machine.execOutputTestDone v ma s
  | .spbClear => Sys2Proof.Machine.execSpbClear s
  | .spbDataWrite v => Sys2Proof.Machine.execSpbDataWrite v s
  | .spbVerify => Sys2Proof.Machine.execSpbVerify s
  | .spbVerifyDone => Sys2Proof.Machine.execSpbVerifyDone s
  | .spbSeal sw en => Sys2Proof.Machine.execSpbSeal sw en s
  | .sealCommitDone => Sys2Proof.Machine.execSealCommitDone s
  | .spbReadActive => Sys2Proof.Machine.execSpbReadActive s
  | .sealContactPoll sw en => Sys2Proof.Machine.execSealContactPoll sw en s
  | .safetyStart selfTest sw en => Sys2Proof.Machine.execSafetyStart selfTest sw en s
  | .s1Standstill n => Sys2Proof.Machine.execS1Standstill n s
  | .s1StoOff n => Sys2Proof.Machine.execS1StoOff n s
  | .s1Time n => Sys2Proof.Machine.execS1Time n s
  | .standstillBrakeDrop n => Sys2Proof.Machine.execStandstillBrakeDrop n s
  | .brakeLift n => Sys2Proof.Machine.execBrakeLift n s
  | .brakePickCheck k ma => Sys2Proof.Machine.execBrakePickCheck k ma s
  | .brakeDropCheck k ma => Sys2Proof.Machine.execBrakeDropCheck k ma s
  | .darkTest k low vp vn ma => Sys2Proof.Machine.execDarkTest k low vp vn ma s
  | .splitTest k low vp vn ma cross => Sys2Proof.Machine.execSplitTest k low vp vn ma cross s
  | .outputOverload k => Sys2Proof.Machine.execOutputOverload k s
  | .openLoad k ma => Sys2Proof.Machine.execOpenLoad k ma s
  | .otDue k => Sys2Proof.Machine.execOtDue k s
  | .degTime n => Sys2Proof.Machine.execDegTime n s
  | .degRecovery n => Sys2Proof.Machine.execDegRecovery n s
  | .resetPress p ms => Sys2Proof.Machine.execResetPress p ms s
  | .leaseRenewal h epoch => Sys2Proof.Machine.execLeaseRenewal h epoch s
  | .leaseExpiry => Sys2Proof.Machine.execLeaseExpiry s
  | .halfAbort h => Sys2Proof.Machine.execHalfAbort h s
  | .standbyClaim h => Sys2Proof.Machine.execStandbyClaim h s
  | .claimWindowEnd gap dt => Sys2Proof.Machine.execClaimWindowEnd gap dt s
  | .weirNohold => Sys2Proof.Machine.execWeirNohold s
  | .intentTimeout => Sys2Proof.Machine.execIntentTimeout s
  | .resyncComplete h => Sys2Proof.Machine.execResyncComplete h s
  | .disagree h => Sys2Proof.Machine.execDisagree h s
  | .swap h => Sys2Proof.Machine.execSwap h s
  | .swapRelease h => Sys2Proof.Machine.execSwapRelease h s
  | .swapProofDone => Sys2Proof.Machine.execSwapProofDone s
  | .swapCancel h => Sys2Proof.Machine.execSwapCancel h s
  | .resetPeer h => Sys2Proof.Machine.execResetPeer h s
  | .holdPeer h => Sys2Proof.Machine.execHoldPeer h s
  | .releasePeer h => Sys2Proof.Machine.execReleasePeer h s
  | .proofAgeDue h => Sys2Proof.Machine.execProofAgeDue h s
  | .autoRejoin h clockOk => Sys2Proof.Machine.execAutoRejoin h clockOk s
  | .repairEntry h fails => Sys2Proof.Machine.execRepairEntry h fails s
  | .repairDone h => Sys2Proof.Machine.execRepairDone h s
  | .hclkOutOfRange h runs => Sys2Proof.Machine.execHclkOutOfRange h runs s
  | .helloTick => Sys2Proof.Machine.execHelloTick s
  | .managerActivate => Sys2Proof.Machine.execManagerActivate s
  | .glkHelloRx port hd cfg dev boots w heard => Sys2Proof.Machine.execGlkHelloRx port hd cfg dev boots w heard s
  | .glkBeaconSend sub => Sys2Proof.Machine.execGlkBeaconSend sub s
  | .glkBeaconRx copies ts sub => Sys2Proof.Machine.execGlkBeaconRx copies ts sub s
  | .delayReqSend port t1 => Sys2Proof.Machine.execDelayReqSend port t1 s
  | .delayReqRx port hd t2 t3 => Sys2Proof.Machine.execDelayReqRx port hd t2 t3 s
  | .delayRespRx port hd t2 t3 t4 => Sys2Proof.Machine.execDelayRespRx port hd t2 t3 t4 s
  | .recordsRx port hd rs => Sys2Proof.Machine.execRecordsRx port hd rs s
  | .forwardRx port hd fs => Sys2Proof.Machine.execForwardRx port hd fs s
  | .decisionRx port hd ds calls seqs => Sys2Proof.Machine.execDecisionRx port hd ds calls seqs s
  | .reportReqRx port hd => Sys2Proof.Machine.execReportReqRx port hd s
  | .reportRx port hd full calls => Sys2Proof.Machine.execReportRx port hd full calls s
  | .tablesRx port hd calls seqs => Sys2Proof.Machine.execTablesRx port hd calls seqs s
  | .userRx port hd data => Sys2Proof.Machine.execUserRx port hd data s
  | .glkLinkLoss port => Sys2Proof.Machine.execGlkLinkLoss port s
  | .glkLinkUp port low => Sys2Proof.Machine.execGlkLinkUp port low s
  | .tsyncHoldover => Sys2Proof.Machine.execTsyncHoldover s
  | .glkNoMgr => Sys2Proof.Machine.execGlkNoMgr s
  | .glkLeave => Sys2Proof.Machine.execGlkLeave s
  | .canRxFrame c id ide fdf brs rtr esi dlc data sof => Sys2Proof.Machine.execCanRxFrame c id ide fdf brs rtr esi dlc data sof s
  | .stationPeriodMiss stn => Sys2Proof.Machine.execStationPeriodMiss stn s
  | .canBusError c tx lec inData dom => Sys2Proof.Machine.execCanBusError c tx lec inData dom s
  | .canLonely c => Sys2Proof.Machine.execCanLonely c s
  | .txReq c q bits => Sys2Proof.Machine.execTxReq c q bits s
  | .txCancel c q bits => Sys2Proof.Machine.execTxCancel c q bits s
  | .canTxEnd c buf sent arbLost lec sof tdc => Sys2Proof.Machine.execCanTxEnd c buf sent arbLost lec sof tdc s
  | .rxAck c n => Sys2Proof.Machine.execRxAck c n s
  | .canRejoin c => Sys2Proof.Machine.execCanRejoin c s
  | .canRejoinDone c => Sys2Proof.Machine.execCanRejoinDone c s
  | .canIntegrated c => Sys2Proof.Machine.execCanIntegrated c s
  | .ttBasicCycle bus => Sys2Proof.Machine.execTtBasicCycle bus s
  | .ttWindowEnd c => Sys2Proof.Machine.execTtWindowEnd c s
  | .dinDebouncedChange n lvl => Sys2Proof.Machine.execDinDebouncedChange n lvl s
  | .dsupShort g => Sys2Proof.Machine.execDsupShort g s
  | .dsupRetry g limits => Sys2Proof.Machine.execDsupRetry g limits s
  | .fioSilent => Sys2Proof.Machine.execFioSilent s
  | .doOverload n => Sys2Proof.Machine.execDoOverload n s
  | .doOpen n ma => Sys2Proof.Machine.execDoOpen n ma s
  | .doOvertemp n => Sys2Proof.Machine.execDoOvertemp n s
  | .doRbLow n => Sys2Proof.Machine.execDoRbLow n s
  | .doRbHigh n => Sys2Proof.Machine.execDoRbHigh n s
  | .doVfield g mv => Sys2Proof.Machine.execDoVfield g mv s
  | .doRetry n cool => Sys2Proof.Machine.execDoRetry n cool s
  | .doClr bits => Sys2Proof.Machine.execDoClr bits s
  | .aiSample c code => Sys2Proof.Machine.execAiSample c code s
  | .aiShort c => Sys2Proof.Machine.execAiShort c s
  | .aiRetry c ua => Sys2Proof.Machine.execAiRetry c ua s
  | .aoReport c meas ut rsvLow sat => Sys2Proof.Machine.execAoReport c meas ut rsvLow sat s
  | .aoLink c => Sys2Proof.Machine.execAoLink c s
  | .aoTargetLoss c => Sys2Proof.Machine.execAoTargetLoss c s
  | .aoCompliance c => Sys2Proof.Machine.execAoCompliance c s
  | .aoComplianceClear c => Sys2Proof.Machine.execAoComplianceClear c s
  | .trimSelPress => Sys2Proof.Machine.execTrimSelPress s
  | .trimSelLong => Sys2Proof.Machine.execTrimSelLong s
  | .trimStep up => Sys2Proof.Machine.execTrimStep up s
  | .trimRepeat up => Sys2Proof.Machine.execTrimRepeat up s
  | .trimIdle => Sys2Proof.Machine.execTrimIdle s
  | .trmSelWrite pt => Sys2Proof.Machine.execTrmSelWrite pt s
  | .tick => Sys2Proof.Machine.execTick s
  | .alarmFire k => Sys2Proof.Machine.execAlarmFire k s
  | .rtcSet mid mach val sync => Sys2Proof.Machine.execRtcSet mid mach val sync s
  | .rtcSetCancel => Sys2Proof.Machine.execRtcSetCancel s
  | .rtcCapture => Sys2Proof.Machine.execRtcCapture s
  | .calSync => Sys2Proof.Machine.execCalSync s
  | .rtcOscStop => Sys2Proof.Machine.execRtcOscStop s
  | .rtcOscResume => Sys2Proof.Machine.execRtcOscResume s
  | .vbatSwitchover => Sys2Proof.Machine.execVbatSwitchover s
  | .chargerLimit mv => Sys2Proof.Machine.execChargerLimit mv s
  | .vbatMeasure mv => Sys2Proof.Machine.execVbatMeasure mv s
  | .sltPostGo mid mach addr len code detail => Sys2Proof.Machine.execSltPostGo mid mach addr len code detail s
  | .sltPostCopyDone g => Sys2Proof.Machine.execSltPostCopyDone g s
  | .siltWrite => Sys2Proof.Machine.execSiltWrite s
  | .siltLossEnd prot => Sys2Proof.Machine.execSiltLossEnd prot s
  | .sltCurOldest g => Sys2Proof.Machine.execSltCurOldest g s
  | .sltCurNewest g => Sys2Proof.Machine.execSltCurNewest g s
  | .sltCurSeq g seq => Sys2Proof.Machine.execSltCurSeq g seq s
  | .sltCurNext g => Sys2Proof.Machine.execSltCurNext g s
  | .sltCurPrev g => Sys2Proof.Machine.execSltCurPrev g s
  | .sltRdDataRead g => Sys2Proof.Machine.execSltRdDataRead g s
  | .sltCapture => Sys2Proof.Machine.execSltCapture s
  | .sltExport g addr pseq n => Sys2Proof.Machine.execSltExport g addr pseq n s
  | .sltExportDone g => Sys2Proof.Machine.execSltExportDone g s
  | .sltVerify pseq n => Sys2Proof.Machine.execSltVerify pseq n s
  | .sltVerifyDone => Sys2Proof.Machine.execSltVerifyDone s
  | .sltNonce => Sys2Proof.Machine.execSltNonce s
  | .sltNonceLapse => Sys2Proof.Machine.execSltNonceLapse s
  | .sltClear mid mach scope seq => Sys2Proof.Machine.execSltClear mid mach scope seq s
  | .sltClearDone => Sys2Proof.Machine.execSltClearDone s
  | .encNonce mid => Sys2Proof.Machine.execEncNonce mid s
  | .encNonceLapse g => Sys2Proof.Machine.execEncNonceLapse g s
  | .encTokDataWrite g v => Sys2Proof.Machine.execEncTokDataWrite g v s
  | .tokenAuth mid mach => Sys2Proof.Machine.execTokenAuth mid mach s
  | .tokenKeyAdd mid mach => Sys2Proof.Machine.execTokenKeyAdd mid mach s
  | .tokenKeyRevoke mid mach => Sys2Proof.Machine.execTokenKeyRevoke mid mach s
  | .tokenSiltClear mid mach => Sys2Proof.Machine.execTokenSiltClear mid mach s
  | .tokenLifecycle mid mach => Sys2Proof.Machine.execTokenLifecycle mid mach s
  | .encClose mid => Sys2Proof.Machine.execEncClose mid s
  | .encAttest mid => Sys2Proof.Machine.execEncAttest mid s
  | .encAttestDone => Sys2Proof.Machine.execEncAttestDone s
  | .encCert mid => Sys2Proof.Machine.execEncCert mid s
  | .encRepDataRead g => Sys2Proof.Machine.execEncRepDataRead g s
  | .encInstall mid mach => Sys2Proof.Machine.execEncInstall mid mach s
  | .encInstallDone ok => Sys2Proof.Machine.execEncInstallDone ok s
  | .encAcceptVersion mid mach => Sys2Proof.Machine.execEncAcceptVersion mid mach s
  | .authExpiry g => Sys2Proof.Machine.execAuthExpiry g s
  | .encRateEnd g => Sys2Proof.Machine.execEncRateEnd g s
  | .tamper sensor => Sys2Proof.Machine.execTamper sensor s
  | .hstRead addr n late => Sys2Proof.Machine.execHstRead addr n late s
  | .hstWrite addr ws => Sys2Proof.Machine.execHstWrite addr ws s
  | .hstReadFix addr n late => Sys2Proof.Machine.execHstReadFix addr n late s
  | .hstWriteFix addr ws => Sys2Proof.Machine.execHstWriteFix addr ws s
  | .hstStatus => Sys2Proof.Machine.execHstStatus s
  | .hstBootData ofs ws => Sys2Proof.Machine.execHstBootData ofs ws s
  | .hstReset => Sys2Proof.Machine.execHstReset s
  | .hstCsAbort wr fix addr n got ws => Sys2Proof.Machine.execHstCsAbort wr fix addr n got ws s
  | .hstBootIdle => Sys2Proof.Machine.execHstBootIdle s
  | .hstSessionIdle => Sys2Proof.Machine.execHstSessionIdle s
  | .inputOk inp mv => Sys2Proof.Machine.execInputOk inp mv s
  | .inputLost inp mv => Sys2Proof.Machine.execInputLost inp mv s
  | .inputOvervoltage inp mv => Sys2Proof.Machine.execInputOvervoltage inp mv s
  | .pwrInLow inp mv => Sys2Proof.Machine.execPwrInLow inp mv s
  | .halfResetRelease h => Sys2Proof.Machine.execHalfResetRelease h s
  | .powerFailWarn ended => Sys2Proof.Machine.execPowerFailWarn ended s
  | .powerGood => Sys2Proof.Machine.execPowerGood s
  | .nresetAssert => Sys2Proof.Machine.execNresetAssert s
  | .resetRelease straps aoLost tagOk ok1 ok2 cols => Sys2Proof.Machine.execResetRelease straps aoLost tagOk ok1 ok2 cols s
  | .claimStrobe => Sys2Proof.Machine.execClaimStrobe s
  | .strapChange live => Sys2Proof.Machine.execStrapChange live s
  | .pwrTemp t => Sys2Proof.Machine.execPwrTemp t s
  | .mirLinkUp lanes => Sys2Proof.Machine.execMirLinkUp lanes s
  | .ttColumnStart c col start => Sys2Proof.Machine.execTtColumnStart c col start s

end Sys2Proof.Machine
end

