-- ==== Sys2Proof/Safety.lean ====
section
/-! DEFINITION. What counts as a sound state and as a safe part, in the terms the statements use. -/
namespace Sys2Proof.Machine

/-- MRAM and the SRAM of both halves are in their canonical form. -/
def Dev.memWf (d : Dev) : Bool := Memory.wf d.mram && Memory.wf d.ha.sram && Memory.wf d.hb.sram

/-- The engines of a half, each list with one entry per unit. -/
def unitsOk (mpg : List Mpg) (le : List Le) (dax : List Dax) (stp : List StpCh) : Bool :=
  mpg.length == 4 && le.length == 3 && le.all (fun e => e.loops.length == 32) && dax.length == 8 && stp.length == 4

/-- What a half keeps has one entry per unit, and so has the servo state it holds of the other half. -/
def Half.shaped (x : Half) (y : Hlf) : Bool :=
  unitsOk x.mpg x.le x.dax x.stp && x.pos.cars.length == 4 && x.pos.latches.length == 16 && x.shl.stops.length == 64 && x.shl.recs.length == 64 &&
    (match y.servoBuf with | some b => unitsOk b.mpg b.le b.dax b.stp | none => true)

/-- Every list that stands for a fixed number of like things has that number of entries. -/
def Dev.shaped (d : Dev) : Bool :=
  d.ha.shaped d.hlfA && d.hb.shaped d.hlfB && d.enc.length == 4 && d.pCopy.length == 8 && d.stpPins.length == 4 && d.can.length == 4 &&
    d.saf.sp.length == 4 && d.saf.th.length == 4 && d.glk.nodes.length == 18 && d.glk.req.length == 2 && d.glk.delays.length == 2 && d.encl.nonce.length == 3 && d.encl.refused.length == 3 &&
    d.encl.withheld.length == 3 && d.encl.authKey.length == 3 && d.store.areas.length == 2 && d.silt.cursors.length == 4 &&
    d.silt.copying.length == 4 && d.silt.exps.length == 4 && d.fio.win.length == 8 && d.rtc.fired.length == 4

/-- A sound part: memories in canonical form, lists of their lengths. -/
def Dev.sound (d : Dev) : Bool := d.memWf && d.shaped

/-- What the addressed memories hold: MRAM and the SRAM of the two halves. -/
def Dev.memories (d : Dev) : List (List Host.Cell) := [d.mram, d.ha.sram, d.hb.sram]

/-- Page of a key of the register file. -/
def keyPage (k : Nat) : Nat := k / pageSpan

/-- An entry of a field that stands inside its page. -/
abbrev Inside (f : Fld) (i t : Nat) : Prop := f.off + i * f.stride < 4096 ∧ f.lo < 32 ∧ t < 65536

/-- A part that differs from another in no byte of memory, and in no register word outside the pages named. -/
def Dev.keeps (d e : Dev) (ps : List Nat) : Prop :=
  e.memories = d.memories ∧ ∀ k, keyPage k ∉ ps → rfFind k e.regs = rfFind k d.regs

/-- The part is out of reset: its regions act on commands (R534). -/
def State.out (s : State) : Bool := s.dev.boot.released

/-- Safety output pair `k` is off: neither of its switches conducts (R256). -/
def Dev.pairOff (d : Dev) (k : Nat) : Bool := d.get (shp .sio) SIO.SO_ST_HS k == 0 && d.get (shp .sio) SIO.SO_ST_LS k == 0

/-- A safe part: no safety output pair conducts. -/
def Dev.allOff (d : Dev) : Bool := (List.range 8).all (fun k => d.pairOff k)

end Sys2Proof.Machine
end

