-- ==== Sys2Proof/Certificates/Slice0/Obligations.lean ====
section
/-! DEFINITION. The statements for the provers: what the commands do, where they complete, and what they leave unchanged. -/

open Sys2Proof Sys2Proof.Machine

/-- A step performs the command at the front of the queue, on the part with the queue's rest left waiting in its order; with no command waiting the
block idles (the model's choice, notes/assumptions/1.md). -/
def Obligations.StepRunsFrontCommand : Prop :=
  (∀ (i : Instr) (s : State), step { s with pending := i :: s.pending } = exec i s) ∧
  (∀ (i : Instr) (rest : List Instr) (s : State), s.pending = i :: rest →
    ∃ t, step s = .next t ∧ t.pending = rest ∧ exec i { s with pending := rest } = .next t) ∧
  (∀ s : State, s.pending = [] → step s = .next s)

/-- From R53, RW: a write of an interrupt-enable register by a master that may write it takes effect at once, and reads back; nothing outside the page
changes. On a shared page it takes writes from the cores of the lease holder only (R60). The model's own choices in it: notes/assumptions/48.md. -/
def Obligations.RwWriteTakesEffect : Prop :=
  ∀ (s : State) (w : Who) (addr : BitVec 64) (v : BitVec 64) (p : Nat) (b : Blk) (n : Nat),
    s.out = true → s.dev.issues w = true → s.dev.place w addr.toNat = .page p 0x14 → pageBlk p = some (b, n) →
    addr.toNat % 4 = 0 → s.dev.fenced.contains p = false → s.dev.aborting.contains p = false → s.dev.on p HDR.LOCK_SET = false →
    s.dev.mayWrite w b HDR.IEN_BITS = true →
    (b = .sfc ∨ b = .ths ∨ b = .sio → w.mid = 0x10) → (b = .frc → s.dev.active ((halfOfPage p).getD .a) = true) →
    (∀ h, w.half? = some h → b.region ≠ 0 → b ≠ .hst → s.dev.holds h = true) →
    ∃ t, exec (.registerWrite w addr 4 v) s = .next t ∧ t.pending = s.pending ∧ t.dev.get p HDR.IEN_BITS = v.toNat % 2 ^ 32 ∧
      s.dev.keeps t.dev [p]

/-- From R53, RS, and R59: a write of a staged field goes to the shadow its master reaches; `COMMIT.RESULT` shows pending; the working value is as it
was until an event of the page. -/
def Obligations.RsWriteIsStaged : Prop :=
  ∀ (s : State) (w : Who) (addr : BitVec 64) (v : BitVec 64) (p off : Nat) (b : Blk) (n : Nat) (f : Fld) (i : Nat),
    s.out = true → s.dev.issues w = true → s.dev.place w addr.toNat = .page p off → pageBlk p = some (b, n) →
    (f, i) ∈ fieldsAt p off → accOn p f = .rs → Inside f i 0 → f.w ≤ 32 → 0x40 ≤ off →
    ((∀ x ∈ fieldsAt p off, accOn p x.1 ≠ .ro → accOn p x.1 ≠ .rc → accOn p x.1 = .rs ∧ x.1 ≠ SHL.FT_DATA_MS ∧ s.dev.mayWrite w b x.1 = true) ∨
      fieldsAt p off = [(SHL.FT_DATA_MS, i)]) →
    b.bnd ≠ .none → s.dev.bndOf p ≠ 6 → s.dev.tabIdx p f w < 65536 →
    (b = .sfc ∨ b = .ths ∨ b = .sio → w.mid = 0x10) → (b = .frc → s.dev.active ((halfOfPage p).getD .a) = true) →
    addr.toNat % 4 = 0 → s.dev.fenced.contains p = false → s.dev.aborting.contains p = false → s.dev.on p HDR.LOCK_SET = false →
    ∃ t, exec (.registerWrite w addr 4 v) s = .next t ∧ t.pending = s.pending ∧
      t.dev.view p (s.dev.shadowOf p w) f i (s.dev.tabIdx p f w) = field (v.toNat % 2 ^ 32) f.lo f.w ∧
      t.dev.get p HDR.COMMIT_RESULT 0 (Dev.commitIdx (s.dev.shadowOf p w)) = 3 ∧
      t.dev.get p f i (s.dev.tabIdx p f w) = s.dev.get p f i (s.dev.tabIdx p f w) ∧ s.dev.keeps t.dev [p]

/-- From R58 and R51: an event of a page that finds nothing staged numbers itself and shows that nothing was applied; while `CTRL.STAGE_HOLD` is 1 an
event applies nothing and shows that values wait. -/
def Obligations.QuietEventsApplyNothing : Prop :=
  (∀ (d : Dev) (p : Nat) (half : Option HalfId) (rules : View → List RuleFail) (bnd seq : Nat),
    (∀ e ∈ d.shadow, ¬ (e.page = p ∧ e.half = half)) →
    let e := d.applyPage p half rules bnd seq
    e.get p HDR.COMMIT_RESULT 0 (Dev.commitIdx half) = 0 ∧ e.get p HDR.COMMIT_SEQ 0 (Dev.commitIdx half) = seq % 65536 ∧ e.shadow = d.shadow ∧ d.keeps e [p]) ∧
  (∀ (d : Dev) (p : Nat) (half : Option HalfId) (rules : View → List RuleFail) (bnd seq : Nat),
    (∃ e ∈ d.shadow, e.page = p ∧ e.half = half) → d.on p HDR.CTRL_STAGE_HOLD = true →
    let e := d.applyPage p half rules bnd seq
    e.get p HDR.COMMIT_RESULT 0 (Dev.commitIdx half) = 3 ∧ e.shadow = d.shadow ∧ d.keeps e [p] ∧
    ∀ f i t, Inside f i t → 0x40 ≤ f.off → e.get p f i t = d.get p f i t)

/-- From R54: a read of `STAT` by the owner of the page returns its bits and clears them; a read by another master returns them and clears nothing. -/
def Obligations.StatClearsOnOwnersRead : Prop :=
  ∀ (s : State) (w : Who) (addr : BitVec 64) (p : Nat) (b : Blk) (n : Nat),
    s.out = true → s.dev.issues w = true → s.dev.place w addr.toNat = .page p 0x0C → pageBlk p = some (b, n) →
    addr.toNat % 4 = 0 → s.dev.fenced.contains p = false → s.dev.badRegs.contains (p, 0x0C, s.dev.tabOf w p 0x0C) = false →
    ∃ t, exec (.clearingRead w ⟨addr, 4, false⟩) s = .next t ∧ t.pending = s.pending ∧
      t.dev.resp = ⟨[BitVec.ofNat 32 (s.dev.readWord w p 0x0C)], false, 0⟩ ∧
      (∀ f ∈ [HDR.STAT_REJECTED, HDR.STAT_APPLIED, HDR.STAT_ABORTED, HDR.STAT_BLOCK],
        t.dev.get p f = if s.dev.owns w p then 0 else s.dev.get p f) ∧
      s.dev.memories = t.dev.memories

/-- R56: when a master without the privilege or the role that a register needs writes it, or a core in user mode or without the role of the whole page
writes `ABORT`, the write is ignored, the page's `ERR` shows PRIV, and a record is posted with the master, its privilege, the address and the value;
such a master's read of PV registers returns 0 and posts nothing. A write of a locked page is refused in the same way with LOCKED. -/
def Obligations.RefusedWritesAreRecorded : Prop :=
  ∀ (s : State) (w : Who) (addr : BitVec 64) (p off : Nat) (b : Blk) (n : Nat),
    s.out = true → s.dev.issues w = true → pageBlk p = some (b, n) → s.dev.fenced.contains p = false → s.dev.aborting.contains p = false →
    let refused (code a v : Nat) : Dev :=
      let e := s.dev.err p code
      (e.post ⟨e.now, 0, 12, clsRefused, code, srcOf p, p % 256, w.mid, e.privByte w, 0, leBytes 4 a ++ leBytes 4 v ++ leBytes 4 0⟩).nak [] code
    (∀ v : BitVec 64, s.dev.place w addr.toNat = .page p off → addr.toNat % 4 = 0 → off ≠ 0x20 → (b = .sfc ∨ b = .ths ∨ b = .sio → w.mid = 0x10) →
      (b = .frc → s.dev.active ((halfOfPage p).getD .a) = true) →
      ((∃ x ∈ fieldsAt p off, accOn p x.1 ≠ .ro ∧ accOn p x.1 ≠ .rc ∧ s.dev.mayWrite w b x.1 = false) →
        ∃ t, exec (.registerWrite w addr 4 v) s = .next t ∧ t.pending = s.pending ∧ t.dev = refused cPRIV addr.toNat (v.toNat % 2 ^ 32) ∧
          (p ≠ shp .slt → t.dev.get p HDR.ERR_CODE = cPRIV)) ∧
      ((∀ x ∈ fieldsAt p off, s.dev.mayWrite w b x.1 = true) → s.dev.on p HDR.LOCK_SET = true →
        (∃ x ∈ fieldsAt p off, accOn p x.1 = .rw ∨ accOn p x.1 = .rs ∨ accOn p x.1 = .w1 ∨ accOn p x.1 = .pv) →
        ∃ t, exec (.registerWrite w addr 4 v) s = .next t ∧ t.pending = s.pending ∧ t.dev = refused cLOCKED addr.toNat (v.toNat % 2 ^ 32) ∧
          (p ≠ shp .slt → t.dev.get p HDR.ERR_CODE = cLOCKED))) ∧
    (s.dev.place w addr.toNat = .page p off → addr.toNat % 4 = 0 → s.dev.badRegs.contains (p, off, s.dev.tabOf w p off) = false →
      s.dev.privileged w = false → (∀ x ∈ fieldsAt p off, x.1.acc = .pv) →
      ∃ t, exec (.clearingRead w ⟨addr, 4, false⟩) s = .next t ∧ t.pending = s.pending ∧ t.dev.resp = ⟨[0], false, 0⟩ ∧ t.dev.silt = s.dev.silt) ∧
    (∀ key : BitVec 32, s.dev.place w (addr.toNat / 0x1000 * 0x1000 + 0x20) = .page p 0x20 → b ≠ .sbk → b ≠ .bot → b.region ≠ 3 →
      (b = .frc → s.dev.active ((halfOfPage p).getD .a) = true) → (w.half?.isSome = true ∧ w.mach = false ∨ s.dev.mayWrite w b HDR.ABORT_KEY = false) →
      ∃ t, exec (.blockAbort w addr key) s = .next t ∧ t.pending = s.pending ∧ t.dev = refused cPRIV (addr.toNat / 0x1000 * 0x1000 + 0x20) key.toNat)

/-- R47: each block owns one page of 4 KiB at its place in its region; an offset of a page that holds no register reads 0 and ignores writes without
an error, and an access to a page index that no block holds is one to a reserved range, with a bus error. R48: an access of a size or alignment a page
does not take is answered with a bus error and RANGE in the page's `ERR`, and SRAM, MRAM and the boot ROM take every size. A fenced block answers
every access with a bus error, reads 0, ignores writes, and records FENCED. -/
def Obligations.OddAndFencedAccesses : Prop :=
  (∀ (d : Dev) (w : Who) (r i off : Nat), r < 5 → i < 256 → off < 4096 →
    let a := 0x40000000 + r * 0x4000000 + i * 0x1000 + off
    let p := (if r = 0 then (w.half?.getD d.holder).n else r + 1) * 256 + i
    (∀ (b : Blk) (n : Nat), pageBlk p = some (b, n) → Dev.reaches w b = true → d.place w a = .page p off) ∧
    (pageBlk p = none → d.place w a = .bad)) ∧
  (∀ (s : State) (w : Who) (addr : BitVec 64) (bytes : Nat) (v : BitVec 64), s.out = true → s.dev.issues w = true → s.dev.place w addr.toNat = .bad →
    (∃ t, exec (.registerWrite w addr bytes v) s = .next t ∧ t.pending = s.pending ∧ t.dev.resp = ⟨[], true, cRANGE⟩ ∧ s.dev.keeps t.dev [shp .slt]) ∧
    (∃ t, exec (.clearingRead w ⟨addr, bytes, false⟩) s = .next t ∧ t.pending = s.pending ∧ t.dev = s.dev.busErr (Dev.zeroWords bytes) cRANGE)) ∧
  (∀ (s : State) (w : Who) (addr : BitVec 64) (bytes : Nat) (v : BitVec 64) (p off : Nat) (b : Blk) (n : Nat),
    s.out = true → s.dev.issues w = true → s.dev.place w addr.toNat = .page p off → pageBlk p = some (b, n) →
    (s.dev.fenced.contains p = false → (bytes ≠ 4 ∨ addr.toNat % 4 ≠ 0) →
      (s.dev.aborting.contains p = false →
        ∃ t, exec (.registerWrite w addr bytes v) s = .next t ∧ t.pending = s.pending ∧ t.dev = (s.dev.err p cRANGE).busErr [] cRANGE) ∧
      (∃ t, exec (.clearingRead w ⟨addr, bytes, false⟩) s = .next t ∧ t.pending = s.pending ∧ t.dev = (s.dev.err p cRANGE).busErr (Dev.zeroWords bytes) cRANGE)) ∧
    (s.dev.fenced.contains p = false → bytes = 4 → addr.toNat % 4 = 0 → s.dev.aborting.contains p = false →
      s.dev.badRegs.contains (p, off, s.dev.tabOf w p off) = false →
      (∃ t, exec (.registerWrite w addr bytes v) s = .next t ∧ t.pending = s.pending ∧ t.dev.resp.busErr = false ∧
        (fieldsAt p off = [] → off ≠ 0x20 → t.dev = s.dev.ans [])) ∧
      (∃ t, exec (.clearingRead w ⟨addr, bytes, false⟩) s = .next t ∧ t.pending = s.pending ∧ t.dev.resp.busErr = false ∧
        (fieldsAt p off = [] → t.dev.resp = ⟨[0], false, 0⟩))) ∧
    (s.dev.fenced.contains p = true →
      (∃ t, exec (.registerWrite w addr bytes v) s = .next t ∧ t.pending = s.pending ∧ t.dev = (s.dev.err p cFENCED).busErr [] cFENCED) ∧
      (∃ t, exec (.clearingRead w ⟨addr, bytes, false⟩) s = .next t ∧ t.pending = s.pending ∧ t.dev = (s.dev.err p cFENCED).busErr (Dev.zeroWords bytes) cFENCED))) ∧
  (∀ (s : State) (w : Who) (addr : BitVec 64) (bytes : Nat) (v : BitVec 64), s.out = true → s.dev.issues w = true →
    (s.dev.place w addr.toNat = .sram ∨ s.dev.place w addr.toNat = .mram →
      ∃ t, exec (.registerWrite w addr bytes v) s = .next t ∧ t.pending = s.pending ∧ t.dev.resp.busErr = false) ∧
    (s.dev.place w addr.toNat = .rom → ∃ t, exec (.clearingRead w ⟨addr, bytes, false⟩) s = .next t ∧ t.pending = s.pending ∧ t.dev.resp.busErr = false)) ∧
  (∀ (s : State) (w : Who) (addr : BitVec 32) (n : BitVec 4), s.out = true → s.dev.issues w = true → s.dev.place w addr.toNat = .mram → s.dev.mbad = [] →
    ∃ t, exec (.mramWindowAccess w addr none n) s = .next t ∧ t.pending = s.pending ∧ t.dev.resp.busErr = false)

/-- From R67: an abort of a block whose chapter adds nothing to it ends its operations (a SAVE of CFG, a command of the enclave, an on-line change):
staged values go, `CTRL.STAGE_HOLD` and (where the page has it at all) `CTRL.EN` are cleared, `STAT.ABORTED` and ERR = ABORTED are set; any other
value is ignored and sets RANGE. A read that meets an error it cannot correct in a register answers ECC and aborts the block (R21, R22). R68: while
the abort lasts the header reads normally, and any other read or write either meets the abort, with BUSY and a bus error, or finds it complete (how
long it lasts is open, notes/assumptions/49.md). The model's own choices in it: notes/assumptions/49.md, 65.md. -/
def Obligations.BlockAbortStopsTheBlock : Prop :=
  ∀ (s : State) (w : Who) (addr : BitVec 64) (p : Nat) (b : Blk) (n : Nat),
    s.out = true → s.dev.issues w = true → s.dev.place w (addr.toNat / 0x1000 * 0x1000 + 0x20) = .page p 0x20 → pageBlk p = some (b, n) →
    b ∈ ([.cyx, .tmc, .frc, .stp, .mir, .hst, .wir, .ain, .trm, .cfg, .nvm, .enc, .pwr] : List Blk) → s.dev.fenced.contains p = false →
    (w.half?.isSome = true → w.mach = true) → s.dev.mayWrite w b HDR.ABORT_KEY = true → (b = .frc → s.dev.active ((halfOfPage p).getD .a) = true) →
    (s.dev.aborting.contains p = true → ∀ (a : BitVec 64) (off : Nat) (v : BitVec 64), s.dev.place w a.toNat = .page p off → a.toNat % 4 = 0 →
      (0x40 ≤ off → ∃ t, exec (.clearingRead w ⟨a, 4, false⟩) s = .next t ∧ t.pending = s.pending ∧
        ((t.dev.resp = ⟨[0], true, cBUSY⟩ ∧ t.dev.get p HDR.ERR_CODE = cBUSY) ∨ t.dev.aborting.contains p = false ∨ t.dev.resp.code = cECC)) ∧
      (off < 0x40 → s.dev.badRegs.contains (p, off, s.dev.tabOf w p off) = false →
        ∃ t, exec (.clearingRead w ⟨a, 4, false⟩) s = .next t ∧ t.pending = s.pending ∧ t.dev.resp.busErr = false) ∧
      (∃ t, exec (.registerWrite w a 4 v) s = .next t ∧ t.pending = s.pending ∧
        ((t.dev.resp = ⟨[], true, cBUSY⟩ ∧ t.dev.shadow = s.dev.shadow) ∨ off = 0x20 ∨ t.dev.aborting.contains p = false))) ∧
    (s.dev.aborting.contains p = false →
    (∃ t, exec (.blockAbort w addr 0xAB) s = .next t ∧ t.pending = s.pending ∧ t.dev.get p HDR.CTRL_STAGE_HOLD = 0 ∧
      (b.enReset = 0 → t.dev.get p HDR.CTRL_EN = 0) ∧ t.dev.get p HDR.STAT_ABORTED = 1 ∧ t.dev.get p HDR.ERR_CODE = cABORTED ∧
      (∀ e ∈ t.dev.shadow, e.page ≠ p) ∧ t.dev.aborting.contains p = true ∧
      (b ≠ .cyx → s.dev.keeps t.dev (if b = .cfg then [p, shp .slt] else [p])) ∧
      (b = .cyx → (∀ h, (s.dev.cyx h).switchNow = false) → s.dev.keeps t.dev [ctl .cyx .a, ctl .cyx .b] ∧
        ∀ h : HalfId, p = ctl .cyx h → (t.dev.cyx h).stopReq = false ∧ (t.dev.cyx h).restart = none ∧
          t.dev.olc h = (if 1 ≤ s.dev.olc h ∧ s.dev.olc h ≤ 3 then 6 else s.dev.olc h)) ∧
      (b = .cfg → s.dev.get p CFG.SAVE_ST_STATE = 1 ∨ s.dev.get p CFG.SAVE_ST_STATE = 2 →
        t.dev.get p CFG.SAVE_ST_STATE = 4 ∧ t.dev.store.waiting = none ∧ t.dev.store.captured = none ∧ t.dev.cfgFrozen = false)) ∧
    (∀ key : BitVec 32, key ≠ 0xAB → ∃ t, exec (.blockAbort w addr key) s = .next t ∧ t.pending = s.pending ∧
      t.dev = (s.dev.err p cRANGE).nak [] cRANGE) ∧
    (∀ (a : BitVec 64) (off : Nat), s.dev.place w a.toNat = .page p off → a.toNat % 4 = 0 → fieldsAt p off ≠ [] →
      ∃ t, exec (.clearingRead w ⟨a, 4, true⟩) s = .next t ∧ t.pending = s.pending ∧ t.dev.resp = ⟨[0], true, cECC⟩ ∧ t.dev.get p HDR.CTRL_STAGE_HOLD = 0 ∧
        (b.enReset = 0 → t.dev.get p HDR.CTRL_EN = 0) ∧ t.dev.get p HDR.STAT_ABORTED = 1 ∧ ∀ e ∈ t.dev.shadow, e.page ≠ p))

/-- From R52, R57 and R59: a privileged write of 1 to `LOCK.SET` locks the page; a write of `CTRL` with STAGE_HOLD 0 ends the hold at once, and what
was staged on other pages waits on. -/
def Obligations.LockAndStageHold : Prop :=
  ∀ (s : State) (w : Who) (addr : BitVec 64) (p : Nat) (b : Blk) (n : Nat),
    s.out = true → s.dev.issues w = true → pageBlk p = some (b, n) → s.dev.fenced.contains p = false → s.dev.aborting.contains p = false →
    s.dev.on p HDR.LOCK_SET = false → (b = .sfc ∨ b = .ths ∨ b = .sio → w.mid = 0x10) → (b = .frc → s.dev.active ((halfOfPage p).getD .a) = true) →
    (s.dev.place w (addr.toNat / 0x1000 * 0x1000 + 0x28) = .page p 0x28 → s.dev.mayWrite w b HDR.LOCK_SET = true →
      ∃ t, exec (.lockSet w addr) s = .next t ∧ t.pending = s.pending ∧ t.dev.on p HDR.LOCK_SET = true ∧ s.dev.keeps t.dev [p, shp .slt]) ∧
    (∀ data : BitVec 32, s.dev.place w (addr.toNat / 0x1000 * 0x1000 + 8) = .page p 8 →
      (∀ f ∈ [HDR.CTRL_EN, HDR.CTRL_STAGE_HOLD, HDR.CTRL_IRQ_EN, HDR.CTRL_BSEL], s.dev.mayWrite w b f = true) →
      (∀ h, w.half? = some h → b.region ≠ 0 → b ≠ .hst → s.dev.holds h = true) → s.dev.bndOf p ≠ 6 →
      ∃ t, exec (.stageHoldClear w addr data) s = .next t ∧ t.pending = s.pending ∧ t.dev.get p HDR.CTRL_STAGE_HOLD = 0 ∧
        (∀ e ∈ s.dev.shadow, e.page ≠ p → e ∈ t.dev.shadow) ∧ s.dev.keeps t.dev [p])

/-- From R22: a page of a shared region that does not answer an access within 2 µs, or whose abort takes longer than 4 µs, is fenced; the access ends
with a bus error and TIMEOUT; a page that is fenced already is left as it is. The model's own choices in it: notes/assumptions/49.md. -/
def Obligations.LateBlockIsFenced : Prop :=
  ∀ (s : State) (p : Nat) (b : Blk) (n : Nat), s.out = true → pageBlk p = some (b, n) → 2 ≤ bankOf p → p ∉ s.dev.fenced →
    (∀ (w : Who) (addr : BitVec 64) (off : Nat), s.dev.issues w = true → s.dev.place w addr.toNat = .page p off →
      ∃ t, exec (.accessTimeout w addr) s = .next t ∧ t.pending = s.pending ∧ t.dev.fenced = s.dev.fenced ++ [p] ∧
        t.dev.resp = ⟨[], true, cTIMEOUT⟩ ∧ s.dev.keeps t.dev [p, shp .slt]) ∧
    (∀ page : BitVec 11, page.toNat = p →
      ∃ t, exec (.abortTimeout page) s = .next t ∧ t.pending = s.pending ∧ t.dev.fenced = s.dev.fenced ++ [p] ∧
        (p ≠ shp .slt → t.dev.get p HDR.ERR_CODE = cFENCED) ∧ s.dev.keeps t.dev [p, shp .slt])

/-- From R22 and R23: an abort of a shared region clears its fences, and leaves those of the other regions; the device safe state puts cause 4 of R430
in force and stands. -/
def Obligations.RegionAbortClearsFences : Prop :=
  ∀ s : State, s.out = true →
    (∀ bank : Fin 6, 2 ≤ bank.val → ∃ t, exec (.regionAbort bank) s = .next t ∧ t.pending = s.pending ∧
      t.dev.fenced = s.dev.fenced.filter (fun p => bankOf p != bank.val) ∧ t.dev.memories = s.dev.memories) ∧
    (∃ t, exec .deviceSafeState s = .next t ∧ t.pending = s.pending ∧ t.dev.saf.deviceSafe = true ∧ bitN t.dev.fio.causes 4 = 1 ∧
      t.dev.memories = s.dev.memories)

/-- R39: the MRAM window takes a write to the user area from the half that holds the lease, and from the host link and debug whichever half holds it:
its bytes are stored, and no other byte and no register changes; the same write of the other half is discarded without an error or a record and
counted; a read of either half returns the content. -/
def Obligations.MramUserWrite : Prop :=
  ∀ (s : State) (w : Who) (addr : BitVec 32) (bs : List (BitVec 8)) (n : BitVec 4),
    s.out = true → s.dev.issues w = true → s.dev.place w addr.toNat = .mram →
    let off := s.dev.winBase w * 0x100000 + (addr.toNat - 0x20000000)
    s.dev.userBase ≤ off →
    (bs ≠ [] → off + bs.length ≤ 0x200000000 →
      ((∀ h, w.half? = some h → s.dev.holds h = true) →
        ∃ t, exec (.mramWindowAccess w addr (some bs) n) s = .next t ∧ t.pending = s.pending ∧ memReads t.dev.mram off bs.length = bs ∧
          (∀ a, a < off ∨ off + bs.length ≤ a → memRead t.dev.mram a = memRead s.dev.mram a) ∧ t.dev.regs = s.dev.regs ∧
          t.dev.ha = s.dev.ha ∧ t.dev.hb = s.dev.hb ∧ t.dev.silt = s.dev.silt) ∧
      (∀ h, w.half? = some h → s.dev.holds h = false →
        ∃ t, exec (.mramWindowAccess w addr (some bs) n) s = .next t ∧ t.pending = s.pending ∧ t.dev.memories = s.dev.memories ∧
          t.dev.resp = ⟨[], false, 0⟩ ∧ t.dev.silt = s.dev.silt ∧
          t.dev.get (shp .nvm) NVM.STBY_DROP_COUNT = satU 32 (s.dev.get (shp .nvm) NVM.STBY_DROP_COUNT + 1) % 2 ^ 32 ∧ s.dev.keeps t.dev [shp .nvm])) ∧
    (n ≠ 0 → off + n.toNat ≤ 0x200000000 → s.dev.mbad = [] →
      ∃ t, exec (.mramWindowAccess w addr none n) s = .next t ∧ t.pending = s.pending ∧ t.dev.memories = s.dev.memories ∧ t.dev.regs = s.dev.regs ∧
        t.dev.resp = ⟨Dev.packWords ((n.toNat + 3) / 4) ((memReads s.dev.mram off n.toNat).map BitVec.toNat), false, 0⟩)

/-- From R38: through the MRAM window a core in user mode and every write are refused below the user area, a core in machine mode in the Silt
partition, and every core beyond 8 GiB: the access reads 0, changes no byte, and reports PRIV or RANGE; one record is posted. The model's own choices
in it: notes/assumptions/53.md, 67.md. -/
def Obligations.MramWindowRefusals : Prop :=
  ∀ (s : State) (w : Who) (addr : BitVec 32) (wr : Option (List (BitVec 8))) (n : BitVec 4),
    s.out = true → s.dev.issues w = true → w.half?.isSome = true → 0x20000000 ≤ addr.toNat → addr.toNat < 0x40000000 →
    let len := match wr with | some bs => bs.length | none => n.toNat
    let off := s.dev.winBase w * 0x100000 + (addr.toNat - 0x20000000)
    len ≠ 0 →
    (off + len > 0x200000000 →
      ∃ t, exec (.mramWindowAccess w addr wr n) s = .next t ∧ t.pending = s.pending ∧ t.dev.memories = s.dev.memories ∧
        t.dev.resp.code = cRANGE ∧ (∀ x ∈ t.dev.resp.words, x = 0) ∧ t.dev.get (shp .nvm) HDR.ERR_CODE = cRANGE ∧
        s.dev.keeps t.dev [shp .nvm, shp .slt]) ∧
    (off + len ≤ 0x200000000 → off < s.dev.userBase → (w.mach = false ∨ wr.isSome = true ∨ 0x24000000 ≤ off) →
      ∃ t, exec (.mramWindowAccess w addr wr n) s = .next t ∧ t.pending = s.pending ∧ t.dev.memories = s.dev.memories ∧
        t.dev.resp.code = cPRIV ∧ (∀ x ∈ t.dev.resp.words, x = 0) ∧ t.dev.get (shp .nvm) HDR.ERR_CODE = cPRIV ∧
        s.dev.keeps t.dev [shp .nvm, shp .slt])

/-- From R35 and R40: a pass of the scrubber counts each corrected error of MRAM against its block, and records and counts each uncorrectable one with
its offset; an SRAM row with an uncorrectable error takes a spare row, and an MRAM block with one, or with a third corrected error within 24 h, a
spare block (R361, R362), whoever finds the error. The model's own choices in it: notes/assumptions/44.md, 49.md, 65.md. -/
def Obligations.MemoryErrorsAreHandled : Prop :=
  ∀ s : State, s.out = true →
    (∀ off : BitVec 33, s.dev.mbad = [] →
      let old := (s.dev.mces.filter (fun c => decide (s.dev.now < c.2 + day24) && c.1 == off.toNat / 65536)).length
      ∃ t, exec (.scrubPass none [off] []) s = .next t ∧ t.pending = s.pending ∧
      t.dev.get (shp .nvm) NVM.CE_COUNT_COUNT = satU 32 (s.dev.get (shp .nvm) NVM.CE_COUNT_COUNT + 1) % 2 ^ 32 ∧
      (old < 2 → (off.toNat / 65536, s.dev.now) ∈ t.dev.mces ∧ t.dev.remap = s.dev.remap) ∧
      (2 ≤ old → s.dev.get (shp .nvm) NVM.REMAP_LEFT ≠ 0 → off.toNat / 65536 ∈ t.dev.remap) ∧
      t.dev.mbad = [] ∧ t.dev.memories = s.dev.memories) ∧
    (∀ off : BitVec 33, s.dev.mbad = [] → s.dev.get (shp .nvm) NVM.REMAP_LEFT ≠ 0 → off.toNat / 65536 ∉ s.dev.remap → ∃ t, exec (.scrubPass none [] [off]) s = .next t ∧ t.pending = s.pending ∧
      off.toNat / 65536 ∈ t.dev.remap ∧ t.dev.mbad = [off.toNat / 4 * 4] ∧ t.dev.get (shp .nvm) NVM.UE_ADDR_LO = off.toNat % 2 ^ 32 ∧
      t.dev.get (shp .nvm) NVM.UE_ADDR_HI = off.toNat / 2 ^ 32 ∧ t.dev.get (shp .nvm) HDR.ERR_CODE = cECC ∧ t.dev.memories = s.dev.memories) ∧
    (∀ (h : HalfId) (a : BitVec 23), s.dev.get (ctl .sbk h) SBK.ROWS_LEFT ≠ 0 → s.dev.get (ctl .sbk h) SBK.ENTRIES_N < 240 →
      ((s.dev.hlf h).bad.contains ((sramBase + a.toNat) / 4 * 4) = false) → s.dev.rowFailed h (a.toNat / 1024) = false →
      (∃ k, k < 164 ∧ ∀ e ∈ s.dev.sbkRows h, e.1 ≠ 8192 + k ∧ e.2 ≠ 8192 + k) →
      ∃ t, exec (.sramRowReplace h a true) s = .next t ∧ t.pending = s.pending ∧
        t.dev.get (ctl .sbk h) SBK.ROWS_USED = (s.dev.get (ctl .sbk h) SBK.ROWS_USED + 1) % 2 ^ SBK.ROWS_USED.w ∧
        t.dev.get (ctl .sbk h) SBK.ROWS_LEFT = (s.dev.get (ctl .sbk h) SBK.ROWS_LEFT - 1) % 2 ^ SBK.ROWS_LEFT.w ∧
        (sramBase + a.toNat) / 4 * 4 ∈ (t.dev.hlf h).bad ∧ t.dev.memories = s.dev.memories) ∧
    (∀ (off : BitVec 33) (x y : BitVec 64), s.dev.get (shp .nvm) NVM.REMAP_LEFT ≠ 0 → s.dev.mbad.contains (off.toNat / 4 * 4) = false →
      off.toNat / 65536 ∉ s.dev.remap →
      ∃ t, exec (.mramBlockRemap off true x y) s = .next t ∧ t.pending = s.pending ∧ off.toNat / 65536 ∈ t.dev.remap ∧
        t.dev.get (shp .nvm) NVM.REMAP_USED = (s.dev.get (shp .nvm) NVM.REMAP_USED + 1) % 2 ^ 16 ∧ t.dev.memories = s.dev.memories)

/-- From R28: posting never blocks: a record that the intake takes is queued last in its group, and one it does not take is counted lost. The model's
own choices in it: notes/assumptions/53.md. -/
def Obligations.SiltPostQueuesOrCounts : Prop :=
  ∀ (s : State) (src : BitVec 4) (page mid priv cls code : BitVec 8) (detail : BitVec 16) (pl : List (BitVec 8)),
    s.out = true → pl.length ≤ 4072 → cls.toNat < 0xC →
    let r : Rec := ⟨s.dev.now, 0, pl.length, cls.toNat, code.toNat, src.toNat, page.toNat, mid.toNat, priv.toNat, detail.toNat, pl.map BitVec.toNat⟩
    (s.dev.siltTakes r = true →
      ∃ t, exec (.siltPost src page mid priv cls code detail pl) s = .next t ∧ t.pending = s.pending ∧
        (if protectedCls cls.toNat then t.dev.silt = { s.dev.silt with qProt := s.dev.silt.qProt ++ [r] }
         else t.dev.silt = { s.dev.silt with qUn := s.dev.silt.qUn ++ [r] }) ∧ s.dev.keeps t.dev [shp .slt]) ∧
    (s.dev.siltTakes r = false →
      ∃ t, exec (.siltPost src page mid priv cls code detail pl) s = .next t ∧ t.pending = s.pending ∧
        t.dev.silt.qProt = s.dev.silt.qProt ∧ t.dev.silt.qUn = s.dev.silt.qUn ∧
        (if protectedCls cls.toNat then t.dev.silt.lossProt = lossStep s.dev.silt.lossProt s.dev.now
         else t.dev.silt.lossUn = lossStep s.dev.silt.lossUn s.dev.now) ∧ s.dev.keeps t.dev [shp .slt])

/-- From R70 and R71: a SAVE with nothing pending waits for its capture, and is refused with CFG_PENDING otherwise; the capture takes every covered
word of the lease holder; a generation that reads back right becomes the committed one, and one that does not leaves the committed one as it was;
REVERT commits the other valid generation, and FACTORY none. The model's own choices in it: notes/assumptions/43.md. -/
def Obligations.ConfigurationCommands : Prop :=
  ∀ s : State, s.out = true →
    (∀ (mid : BitVec 8) (m : Bool), s.dev.get (shp .cfg) CFG.SAVE_ST_STATE = 0 → s.dev.cfgPending s.dev.holder = false →
      ∃ t, exec (.cfgSave mid m) s = .next t ∧ t.pending = s.pending ∧ t.dev.get (shp .cfg) CFG.SAVE_ST_STATE = 1 ∧
        t.dev.get (shp .cfg) CFG.SAVE_ST_REASON = 0 ∧ t.dev.store.waiting.isSome = true ∧ s.dev.keeps t.dev [shp .cfg, shp .slt]) ∧
    (∀ (mid : BitVec 8) (m : Bool), s.dev.get (shp .cfg) CFG.SAVE_ST_STATE = 0 → s.dev.cfgPending s.dev.holder = true →
      ∃ t, exec (.cfgSave mid m) s = .next t ∧ t.pending = s.pending ∧ t.dev.get (shp .cfg) CFG.SAVE_ST_REASON = 0xB3 ∧
        t.dev.get (shp .cfg) HDR.ERR_CODE = 0xB3 ∧ t.dev.store = s.dev.store ∧ s.dev.keeps t.dev [shp .cfg, shp .slt]) ∧
    (∀ q : Nat × Nat, s.dev.cfgFrozen = true → s.dev.store.waiting = some q →
      ∃ t, exec .cfgSaveCapture s = .next t ∧ t.pending = s.pending ∧ t.dev.cfgFrozen = false ∧ t.dev.store.waiting = none ∧
        t.dev.store.captured.map Gen.rows = some (s.dev.cfgImage s.dev.holder) ∧ t.dev.store.captured.map Gen.ts = some s.dev.now ∧
        t.dev.get (shp .cfg) CFG.SAVE_ST_STATE = 2 ∧ s.dev.keeps t.dev [shp .cfg]) ∧
    (∀ g : Gen, s.dev.store.captured = some g → s.dev.store.areas.length = 2 →
      (∃ t, exec (.cfgSaveDone true) s = .next t ∧ t.pending = s.pending ∧
        (∃ a, t.dev.store.committed = some a ∧ some a ≠ s.dev.store.committed ∧ t.dev.gen? a = some { g with ok := true }) ∧
        t.dev.get (shp .cfg) CFG.SAVE_ST_STATE = 3 ∧ t.dev.get (shp .cfg) CFG.GEN_COMMITTED = g.num % 2 ^ 32 ∧ s.dev.keeps t.dev [shp .cfg, shp .slt]) ∧
      (∃ t, exec (.cfgSaveDone false) s = .next t ∧ t.pending = s.pending ∧ t.dev.store.committed = s.dev.store.committed ∧
        t.dev.get (shp .cfg) CFG.SAVE_ST_STATE = 4 ∧ t.dev.get (shp .cfg) HDR.ERR_CODE = 0xB4 ∧ s.dev.keeps t.dev [shp .cfg, shp .slt])) ∧
    (∀ (mid : BitVec 8) (m : Bool) (a : Nat) (g : Gen), s.dev.store.committed = some a → a ≤ 1 → s.dev.genOk (1 - a) = some g →
      ∃ t, exec (.cfgRevert mid m) s = .next t ∧ t.pending = s.pending ∧ t.dev.store = { s.dev.store with committed := some (1 - a) } ∧
        t.dev.get (shp .cfg) CFG.GEN_COMMITTED = g.num % 2 ^ 32 ∧ s.dev.keeps t.dev [shp .cfg, shp .slt]) ∧
    (∀ (mid : BitVec 8) (m : Bool),
      ∃ t, exec (.cfgFactory mid m) s = .next t ∧ t.pending = s.pending ∧ t.dev.store = { s.dev.store with committed := none } ∧
        t.dev.get (shp .cfg) CFG.GEN_COMMITTED = 0 ∧ s.dev.keeps t.dev [shp .cfg, shp .slt]) ∧
    (∃ t, exec .cfgRdDataRead s = .next t ∧ t.pending = s.pending ∧
      t.dev.get (shp .cfg) CFG.RD_ADDR_WORD = (s.dev.get (shp .cfg) CFG.RD_ADDR_WORD + 1) % 2 ^ 22 ∧
      (s.dev.gen? (s.dev.get (shp .cfg) CFG.RD_SEL_AREA) = none → t.dev.resp.words = [0]) ∧ s.dev.keeps t.dev [shp .cfg])

/-- From R85, R86, R88 and R89: an encoder edge moves its counter by one modulo 2^32 and nothing else; a good frame of an enabled car clears `BAD` and
is held with its position, a bad one counts in `BAD` and reports its code, and a receiver that no enabled car names does nothing; the fusion of a
period publishes the position of each enabled car without an encoder that has a good frame, with the copy of the safety pair, and marks the period
fused; a SERVO event of a half that runs is counted, and one of a half that does not run does nothing (R43). The model's own choices in it:
notes/assumptions/18.md, 55.md, 63.md. -/
def Obligations.PositionSourcesAreTaken : Prop :=
  ∀ s : State, s.out = true →
    (∀ (e : Fin 4) (up : Bool), s.dev.enc.length = 4 →
      ∃ t, exec (.encoderEdge e up) s = .next t ∧ t = { s with dev := { s.dev with enc := t.dev.enc } } ∧
        t.dev.enc.getD e 0 = (if up then (s.dev.enc.getD e 0 + 1) % 2 ^ 32 else (s.dev.enc.getD e 0 + (2 ^ 32 - 1)) % 2 ^ 32) ∧
        (∀ k : Fin 4, k ≠ e → t.dev.enc.getD k 0 = s.dev.enc.getD k 0)) ∧
    (∀ (rx : Fin 4) (low : Bool) (bits : BitVec 32), (∀ (h : HalfId) (n : Fin 4), s.dev.carEn h n = true → s.dev.get (ctl .pos h) POS.CAR_CFG_SSI n ≠ rx.val) →
      exec (.ssiFrame rx low bits) s = .next s) ∧
    (∀ (h : HalfId) (rx n : Fin 4) (low : Bool) (bits : BitVec 32),
      (List.range 4).find? (fun n => s.dev.carEn h n && s.dev.get (ctl .pos h) POS.CAR_CFG_SSI n == rx.val) = some n.val →
      s.dev.enabled (ctl .pos h) = true → s.dev.get s.dev.rxPage POS.SSI_FMT_BITS rx ≠ 0 → (s.dev.half h).pos.cars.length = 4 →
      ∃ t, exec (.ssiFrame rx low bits) s = .next t ∧ t.pending = s.pending ∧
        t.dev.get (ctl .pos h) POS.CAR_RAW_FIELD n = s.dev.ssiCount rx bits.toNat % 2 ^ 32 ∧
        (match s.dev.ssiBad h n rx low bits.toNat with
         | none => t.dev.get (ctl .pos h) POS.CAR_STAT_BAD n = 0 ∧
             (t.dev.posCar h n).frame = some ⟨true, s.dev.ssiPos h n rx (s.dev.ssiCount rx bits.toNat), s.dev.get (ctl .pos h) POS.CAR_STAT_BAD n⟩
         | some code => t.dev.get (ctl .pos h) POS.CAR_STAT_BAD n = satU 8 (s.dev.get (ctl .pos h) POS.CAR_STAT_BAD n + 1) % 2 ^ 8 ∧
             t.dev.get (ctl .pos h) HDR.ERR_CODE = code % 2 ^ 8 ∧ t.dev.get (ctl .pos h) HDR.ERR_DETAIL = n.val ∧
             (t.dev.posCar h n).frame = some ⟨false, 0, s.dev.get (ctl .pos h) POS.CAR_STAT_BAD n⟩) ∧
        s.dev.keeps t.dev [ctl .pos .a, ctl .pos .b]) ∧
    (∀ h : HalfId, (s.dev.enabled (ctl .pos h) = false → exec (.posFuse h) s = .next s) ∧
      (s.dev.enabled (ctl .pos h) = true →
        ∃ t, exec (.posFuse h) s = .next t ∧ t.pending = s.pending ∧ (t.dev.half h).pos.fused = true ∧ t.dev.memories = s.dev.memories ∧
          (∀ (n : Fin 4) (x : Int) (b : Nat), s.dev.carEn h n = true → s.dev.posState h n = 2 → s.dev.encUsed h n = false →
            (s.dev.posCar h n).frame = some ⟨true, x, b⟩ → s.dev.outside h x = false → (s.dev.half h).pos.cars.length = 4 → s.dev.pCopy.length = 8 →
            t.dev.carX h n = sgn 32 (encS 32 (asr x 8) % 2 ^ 32) ∧ (t.dev.pCopy.getD (h.n * 4 + n) ⟨0, 0, 0, 0⟩).x = t.dev.carX h n))) ∧
    (∀ h : HalfId, ∃ t, exec (.servoEvent h) s = .next t ∧ t.pending = s.pending ∧ t.dev.memories = s.dev.memories ∧
      (s.dev.running h = false → t = s) ∧ (s.dev.running h = true → (t.dev.half h).servoCnt = (s.dev.half h).servoCnt + 1))

/-- From R90 and R91: a residual beyond its limit for SLIP.N periods, and BAD beyond COAST_MAX in COAST, make a car UNCERTAIN; encoder loss sets
ENC_LOST for the enabled cars that use the encoder, and makes one that coasts on it UNCERTAIN; REVAL takes a standing UNCERTAIN car to INIT and no
other car anywhere. -/
def Obligations.PositionStatesChange : Prop :=
  ∀ s : State, s.out = true →
    (∀ (h : HalfId) (n : Fin 4), s.dev.get (ctl .pos h) POS.CAR_SLIP_N n ≠ 0 → (s.dev.posCar h n).slipRun ≥ s.dev.get (ctl .pos h) POS.CAR_SLIP_N n →
      (s.dev.posState h n = 2 ∨ s.dev.posState h n = 3) →
      ∃ t, exec (.slip h n) s = .next t ∧ t.pending = s.pending ∧ t.dev.posState h n = 4 ∧ t.dev.get (ctl .pos h) HDR.ERR_CODE = cSLIP ∧
        s.dev.keeps t.dev [ctl .pos h, shp .slt]) ∧
    (∀ (h : HalfId) (n : Fin 4), s.dev.posState h n = 3 → s.dev.get (ctl .pos h) POS.CAR_STAT_BAD n > s.dev.get (ctl .pos h) POS.CAR_CFG_COAST_MAX n →
      ∃ t, exec (.coastExpired h n) s = .next t ∧ t.pending = s.pending ∧ t.dev.posState h n = 4 ∧ s.dev.keeps t.dev [ctl .pos h, shp .slt]) ∧
    (∀ (h : HalfId) (n e : Fin 4), s.dev.carEn h n = true → s.dev.on (ctl .pos h) POS.CAR_CFG_ENC_USE n = true →
      s.dev.get (ctl .pos h) POS.CAR_CFG_ENC n = e.val →
      ∃ t, exec (.encLoss e) s = .next t ∧ t.pending = s.pending ∧ t.dev.on (ctl .pos h) POS.CAR_STAT_ENC_LOST n = true ∧
        t.dev.get (ctl .pos h) HDR.ERR_CODE = cENC_LOSS ∧
        (s.dev.posState h n = 3 → s.dev.on (ctl .pos h) POS.CAR_STAT_ENC_LOST n = false → t.dev.posState h n = 4) ∧
        s.dev.keeps t.dev [ctl .pos .a, ctl .pos .b, shp .slt]) ∧
    (∀ (h : HalfId) (n : Fin 4), (s.dev.posState h n = 4 → s.dev.slow h n = true →
        ∃ t, exec (.posReval h n) s = .next t ∧ t.pending = s.pending ∧ t.dev.posState h n = 1 ∧ s.dev.keeps t.dev [ctl .pos h, shp .slt]) ∧
      ((s.dev.posState h n ≠ 4 ∨ s.dev.slow h n = false) → exec (.posReval h n) s = .next s))

/-- From R97 and R99 to R103: a level on the line of a DIN channel shows at the switch entry it drives; an edge that an enabled latch selects waits
behind those that came before it, is confirmed by the level it leads to, and the oldest raw edge of its channel is dropped with LATCH_BOUNCE, at every
unit that took it, when its time has passed; arming clears FULL and OVR; a vane edge too far from its place raises DZ_MISMATCH and never moves a car,
and one before the fusion of its period waits for it; a learning run starts on a VALID car with an empty buffer, stores each entering edge as LO, and
ends DONE when it is stopped. The model's own choices in it: notes/assumptions/18.md, 63.md. -/
def Obligations.LatchesAndLearningRun : Prop :=
  ∀ s : State, s.out = true →
    (∀ (h : HalfId) (m : Fin 16) (level : Bool), s.dev.on (ctl .pos h) POS.SW_SRCK m = false → s.dev.get (ctl .pos h) POS.SW_KIND m ≠ 0 →
      s.dev.enabled (shp .din) = true → s.dev.fio.held = false →
      ∃ t, exec (.switchChange h m level) s = .next t ∧ t.pending = s.pending ∧
        (bitN (t.dev.get (ctl .pos h) POS.SW_STATE_ACT) m = 1 ↔ level = s.dev.on (ctl .pos h) POS.SW_POL m) ∧
        bitN t.dev.fio.lines (s.dev.get (ctl .pos h) POS.SW_SRC m) = level.toNat ∧ t.dev.memories = s.dev.memories) ∧
    (∀ (h : HalfId) (m : Fin 16) (src : Fin 32) (up : Bool), (s.dev.half h).pos.latches.length = 16 → s.dev.get (ctl .pos h) POS.LAT_CFG_SRC m = src.val →
      (∃ t, exec (.latchConfirm src up) s = .next t ∧ t.pending = s.pending ∧
        t.dev.latches h m = (s.dev.latches h m).map (fun q => if q.rising == up then { q with confirmed := true } else q) ∧ t.dev.regs = s.dev.regs) ∧
      (∀ no up', (s.dev.half h).pos.raws.find? (fun r => r.1 == src.val) = some (src.val, no, up') →
        (∃ q ∈ s.dev.latches h m, q.no = no ∧ q.confirmed = false) →
        ∃ t, exec (.latchBounce src) s = .next t ∧ t.pending = s.pending ∧
          t.dev.latches h m = (s.dev.latches h m).filter (fun q => q.confirmed || q.no != no) ∧
          (t.dev.half h).pos.raws = (s.dev.half h).pos.raws.filter (fun r => r.2.1 != no) ∧
          t.dev.get (ctl .pos h) HDR.ERR_CODE = cLATCH_BOUNCE ∧ s.dev.keeps t.dev [ctl .pos .a, ctl .pos .b])) ∧
    (∀ (h : HalfId) (m : Fin 16) (src : Fin 36) (dt20 : Nat), s.dev.enabled (ctl .pos h) = true → s.dev.on (ctl .pos h) POS.LAT_CFG_EN m = true →
      s.dev.get (ctl .pos h) POS.LAT_CFG_SRC m = src.val → s.dev.get (ctl .pos h) POS.LAT_CFG_EDGE m = 1 →
      (s.dev.half h).pos.latches.length = 16 → (src.val < 32 → s.dev.fio.held = false) →
      (s.dev.on (ctl .pos h) POS.LAT_STAT_FULL m = true → s.dev.on (ctl .pos h) POS.LAT_CFG_CONT m = false →
        ∃ t, exec (.latchEdge src true dt20) s = .next t ∧ t.pending = s.pending ∧ t.dev.on (ctl .pos h) POS.LAT_STAT_OVR m = true ∧
          t.dev.latches h m = s.dev.latches h m) ∧
      (s.dev.on (ctl .pos h) POS.LAT_STAT_FULL m = false ∨ s.dev.on (ctl .pos h) POS.LAT_CFG_CONT m = true →
        ∃ t, exec (.latchEdge src true dt20) s = .next t ∧ t.pending = s.pending ∧
          ∃ q, t.dev.latches h m = s.dev.latches h m ++ [q] ∧ q.dt20 = dt20 ∧ q.ts = s.dev.now ∧ q.rising = true ∧ q.confirmed = decide (src.val ≥ 32) ∧
            q.dcnt = s.dev.countsSince h (s.dev.get (ctl .pos h) POS.LAT_CFG_CAR m))) ∧
    (∀ (h : HalfId) (m : Fin 16), ∃ t, exec (.latchArm h m) s = .next t ∧ t.pending = s.pending ∧
      t.dev.get (ctl .pos h) POS.LAT_STAT_FULL m = 0 ∧ t.dev.get (ctl .pos h) POS.LAT_STAT_OVR m = 0 ∧ s.dev.keeps t.dev [ctl .pos h]) ∧
    (∀ (h : HalfId) (n : Fin 4) (src : Fin 32) (entering : Bool) (dt20 : Nat), s.dev.enabled (ctl .pos h) = true → s.dev.on (ctl .pos h) POS.CAR_CFG_DZ_EN n = true →
      s.dev.get (ctl .pos h) POS.CAR_CFG_DZ_SRC n = src.val → s.dev.carEn h n = true → (∀ m : Fin 4, m ≠ n → s.dev.on (ctl .pos h) POS.CAR_CFG_DZ_EN m = false) →
      let e : EdgePend := ⟨false, n, entering, s.dev.countsSince h n, dt20⟩
      let x := s.dev.edgeAt h e
      let l := s.dev.nearest h x
      let lo := s.dev.geti (ctl .pos h) POS.LT_POS_UM 0 l - s.dev.get (ctl .pos h) POS.LT_DZB_UM 0 l
      let hi := s.dev.geti (ctl .pos h) POS.LT_POS_UM 0 l + s.dev.get (ctl .pos h) POS.LT_DZA_UM 0 l
      let want := if decide (0 ≤ s.dev.carV h n) == entering then lo else hi
      ((s.dev.half h).pos.fused = false → ∃ t, exec (.dzEdge h src entering dt20) s = .next t ∧ t.pending = s.pending ∧
        (t.dev.half h).pos.edges = (s.dev.half h).pos.edges ++ [e] ∧ t.dev.regs = s.dev.regs) ∧
      ((s.dev.half h).pos.fused = true → l < s.dev.get (ctl .pos h) POS.LT_CFG_COUNT →
        ((x - want).natAbs > s.dev.get (ctl .pos h) POS.LT_TOL_DZ →
          ∃ t, exec (.dzEdge h src entering dt20) s = .next t ∧ t.pending = s.pending ∧ t.dev.get (ctl .pos h) HDR.ERR_CODE = cDZ_MISMATCH ∧
            t.dev = ((s.dev.err (ctl .pos h) cDZ_MISMATCH n).note (ctl .pos h) clsFault cDZ_MISMATCH n [encS 32 x, encS 32 want]).stat (ctl .pos h) 10 ∧
            t.dev.carX h n = s.dev.carX h n ∧ s.dev.keeps t.dev [ctl .pos h, shp .slt]) ∧
        ((x - want).natAbs ≤ s.dev.get (ctl .pos h) POS.LT_TOL_DZ → exec (.dzEdge h src entering dt20) s = .next s))) ∧
    (∀ (h : HalfId) (n : Fin 4) (src : Fin 32), s.dev.enabled (ctl .pos h) = true → s.dev.on (ctl .pos h) POS.LRN_CTRL_RUN = false →
      s.dev.posState h n = 2 →
      ∃ t, exec (.lrnStart h n src) s = .next t ∧ t.pending = s.pending ∧ t.dev.get (ctl .pos h) POS.LRN_CTRL_RUN = 1 ∧
        t.dev.get (ctl .pos h) POS.LRN_CTRL_CAR = n.val ∧ t.dev.get (ctl .pos h) POS.LRN_CTRL_SRC = src.val ∧ t.dev.get (ctl .pos h) POS.LRN_STAT_COUNT = 0 ∧
        t.dev.get (ctl .pos h) POS.LRN_STAT_RESULT = 1 ∧ s.dev.keeps t.dev [ctl .pos h]) ∧
    (∀ h : HalfId, s.dev.on (ctl .pos h) POS.LRN_CTRL_RUN = true →
      (∃ t, exec (.lrnStop h) s = .next t ∧ t.pending = s.pending ∧ t.dev.get (ctl .pos h) POS.LRN_CTRL_RUN = 0 ∧
        t.dev.get (ctl .pos h) POS.LRN_STAT_RESULT = 2 ∧ s.dev.keeps t.dev [ctl .pos h]) ∧
      (∀ (src : Fin 32) (dt20 : Nat), s.dev.get (ctl .pos h) POS.LRN_STAT_COUNT < 256 → s.dev.get (ctl .pos h) POS.LRN_CTRL_SRC = src.val →
        (s.dev.half h).pos.fused = true →
        ∃ t, exec (.lrnEdge h ⟨src, true⟩ dt20) s = .next t ∧ t.pending = s.pending ∧
          t.dev.get (ctl .pos h) POS.LRN_STAT_COUNT = s.dev.get (ctl .pos h) POS.LRN_STAT_COUNT + 1 ∧
          (let n := s.dev.get (ctl .pos h) POS.LRN_CTRL_CAR
           t.dev.get (ctl .pos h) POS.LRN_LO_UM 0 (s.dev.get (ctl .pos h) POS.LRN_STAT_COUNT) =
             encS 32 (s.dev.edgeAt h ⟨true, n, true, s.dev.countsSince h n, dt20⟩) % 2 ^ 32) ∧ s.dev.keeps t.dev [ctl .pos h]))

/-- From R115, R116 and R119: a GO write of a generator makes its command wait and shows PENDING with its tag; over a command that waits it shows
SUPERSEDED with the tag replaced, except that a waiting STOP or STOP_NOW gives way to STOP_NOW only and any other command is rejected with
REJ_STOPPING. The model's own choices in it: notes/assumptions/6.md. -/
def Obligations.MotionCommandsWait : Prop :=
  ∀ (s : State) (h : HalfId) (n : Fin 4) (x : Word) (tag : BitVec 16) (i : Instr) (op : Nat),
    s.out = true → (s.dev.half h).mpg.length = 4 →
    ((i = .mpgMove h n x tag ∧ op = 1) ∨ (i = .mpgJog h n x tag ∧ op = 2) ∨ (i = .mpgStop h n tag ∧ op = 3) ∨ (i = .mpgStopAt h n x tag ∧ op = 4) ∨
      (i = .mpgStopNow h n tag ∧ op = 5) ∨ (i = .mpgRescue h n x tag ∧ op = 6)) →
    ∃ t, exec i s = .next t ∧ t.pending = s.pending ∧ s.dev.keeps t.dev [pgMpg h n] ∧
      (match (s.dev.mpg h n).waiting with
       | none =>
         (t.dev.mpg h n).waiting.map (fun c => (c.op, c.tag)) = some (op, tag.toNat) ∧
         (op = 1 ∨ op = 4 → (t.dev.mpg h n).waiting.map GoCmd.pos = some x.toInt) ∧
         (op = 2 ∨ op = 6 → (t.dev.mpg h n).waiting.map GoCmd.vel = some x.toInt) ∧
         (s.dev.active h = true → t.dev.get (pgMpg h n) MPG.CMD_RES_STATE = 1 ∧ t.dev.get (pgMpg h n) MPG.CMD_RES_TAG = tag.toNat)
       | some w =>
         if (w.op = 3 ∨ w.op = 5) ∧ op ≠ 5 then
           (t.dev.mpg h n).waiting = some w ∧
           (s.dev.active h = true → t.dev.get (pgMpg h n) MPG.CMD_RES_STATE = 3 ∧ t.dev.get (pgMpg h n) MPG.CMD_RES_REASON = cREJ_STOPPING ∧
             t.dev.get (pgMpg h n) MPG.CMD_RES_TAG = tag.toNat)
         else
           (t.dev.mpg h n).waiting.map (fun c => (c.op, c.tag)) = some (op, tag.toNat) ∧
           (s.dev.active h = true → t.dev.get (pgMpg h n) MPG.CMD_RES_STATE = 4 ∧ t.dev.get (pgMpg h n) MPG.CMD_RES_TAG = w.tag % 2 ^ 16))

/-- From R119 and R120: a generator takes its waiting command once; a rejected one shows REJECTED with its reason and its tag and leaves the running
move as it is; a MOVE that is accepted of a moving car has its target ahead of the car and at or beyond the minimum stopping point. -/
def Obligations.TheTargetIsFixed : Prop :=
  ∀ (d : Dev) (h : HalfId) (n : Fin 4) (c : GoCmd), (d.mpg h n).waiting = some c → (d.half h).mpg.length = 4 →
    ((d.mpgTake h n).mpg h n).waiting = none ∧
    (d.takes h = false → (d.mpgTake h n).regs = d.regs) ∧
    (∀ why : Nat, d.takes h = true → d.mpgWhy h n c = some why →
      (d.mpgTake h n).mpg h n = { d.mpg h n with waiting := none } ∧ (d.mpgTake h n).get (pgMpg h n) MPG.CMD_RES_STATE = 3 ∧
      (d.mpgTake h n).get (pgMpg h n) MPG.CMD_RES_REASON = why % 2 ^ 8 ∧ (d.mpgTake h n).get (pgMpg h n) MPG.TGT_UM = d.get (pgMpg h n) MPG.TGT_UM) ∧
    (c.op = 1 → d.mpgMoving h n = true → d.mpgWhy h n c = none →
      if d.mpgUp h n then (d.mpgKin h n).x / unitX < c.pos ∧ d.mpgStoppt h n ≤ c.pos else c.pos < (d.mpgKin h n).x / unitX ∧ c.pos ≤ d.mpgStoppt h n)

/-- From R136: a drive status frame of 8 bytes or more is held as the latest copy, and the first of a run of shorter ones reports DRV_SHORT;
DRV_SILENT is reported when the missed periods reach `DRV_LOSS.N`, and only with the check in use. -/
def Obligations.DriveStatusFrames : Prop :=
  ∀ (s : State) (h : HalfId) (n : Fin 4), s.out = true → (s.dev.half h).mpg.length = 4 →
    (∀ data : List Byte, s.dev.on (pgMpg h n) MPG.DRV_ID_EN = true →
      ∃ t, exec (.drvStatusFrame n data) s = .next t ∧ t.pending = s.pending ∧ s.dev.keeps t.dev [pgMpg .a n, pgMpg .b n] ∧
        (data.length ≥ 8 → (t.dev.mpg h n).drv = some (data.take 8) ∧ t.dev.get (pgMpg h n) HDR.ERR_CODE = s.dev.get (pgMpg h n) HDR.ERR_CODE) ∧
        (data.length < 8 → (t.dev.mpg h n).drv = (s.dev.mpg h n).drv ∧ (t.dev.mpg h n).drvMiss = true ∧
          ((s.dev.mpg h n).drvShort = false → t.dev.get (pgMpg h n) HDR.ERR_CODE = cDRV_SHORT ∧ t.dev.get (pgMpg h n) HDR.ERR_DETAIL = n.val))) ∧
    (if s.dev.on (pgMpg h n) MPG.DRV_ID_EN = true ∧ s.dev.get (pgMpg h n) MPG.DRV_LOSS_N ≠ 0 ∧
        s.dev.get (pgMpg h n) MPG.DRV_STAT_MISSED ≥ s.dev.get (pgMpg h n) MPG.DRV_LOSS_N then
      ∃ t, exec (.drvSilent h n) s = .next t ∧ t.pending = s.pending ∧ t.dev.get (pgMpg h n) HDR.ERR_CODE = cDRV_SILENT ∧
        bitN (t.dev.get (pgMpg h n) HDR.STAT_BLOCK) 4 = 1 ∧ s.dev.keeps t.dev [pgMpg h n, shp .slt]
     else exec (.drvSilent h n) s = .next s)

/-- From R148, R152, R161 and R165: a table write to the active bank is ignored and reports TBL_ACTIVE, one to the other bank stores its word and
advances the address; a supervisor count at its limit sets PLAUS and ERR at every sample, and records it once per episode; at the deadline every loop
not completed is marked late. The model's own choices in it: notes/assumptions/15.md. -/
def Obligations.LoopEngineCommands : Prop :=
  ∀ (s : State) (h : HalfId) (e : Fin 3), s.out = true →
    (∀ v : Word, s.dev.get (pgLe h e) LE.TBL_SEL_TBL < 12 → s.dev.get (pgLe h e) LE.TBL_SEL_BANK ≤ 1 → s.dev.get (pgLe h e) LE.TBL_ADDR_WORD < 1280 →
      let t := s.dev.get (pgLe h e) LE.TBL_SEL_TBL
      let b := s.dev.get (pgLe h e) LE.TBL_SEL_BANK
      let w := s.dev.get (pgLe h e) LE.TBL_ADDR_WORD
      (s.dev.leBank h e t = b →
        ∃ u, exec (.tblDataWrite h e v) s = .next u ∧ u.pending = s.pending ∧ u.dev.get (pgLe h e) HDR.ERR_CODE = cTBL_ACTIVE ∧
          u.dev.get (pgLe h e) HDR.ERR_DETAIL = t ∧ bitN (u.dev.get (pgLe h e) HDR.STAT_BLOCK) 4 = 1 ∧
          (∀ k, u.dev.get (pgLe h e) LE.TBL_DATA_WORD 0 k = s.dev.get (pgLe h e) LE.TBL_DATA_WORD 0 k) ∧ s.dev.keeps u.dev [pgLe h e]) ∧
      (s.dev.leBank h e t ≠ b →
        ∃ u, exec (.tblDataWrite h e v) s = .next u ∧ u.pending = s.pending ∧
          u.dev.get (pgLe h e) LE.TBL_DATA_WORD 0 ((t * 2 + b) * 2048 + w) = v.toNat ∧
          u.dev.get (pgLe h e) LE.TBL_ADDR_WORD = (if w ≥ (if t < 8 then 1279 else 1023) then 0 else w + 1) ∧ s.dev.keeps u.dev [pgLe h e])) ∧
    (∀ l : Fin 32,
      if s.dev.on (pgLe h e) LE.LOOP_CFG_SUP_EN 0 l = true ∧ s.dev.get (pgLe h e) LE.SUP_CNT_N 0 l ≠ 0 ∧
          s.dev.get (pgLe h e) LE.LSTAT_CNT 0 l ≥ s.dev.get (pgLe h e) LE.SUP_CNT_N 0 l then
        ∃ u, exec (.plaus h e l) s = .next u ∧ u.pending = s.pending ∧ bitN (u.dev.get (pgLe h e) LE.LFLAG_BITS 0 l) 7 = 1 ∧
          bitN (u.dev.get (pgLe h e) LE.PLAUS_MAP_BITS) l = 1 ∧ bitN (u.dev.get (pgLe h e) HDR.STAT_BLOCK) 2 = 1 ∧
          bitN (u.dev.get (pgLe h e) LE.LSTAT_BITS 0 l) 4 = 1 ∧
          u.dev.get (pgLe h e) HDR.ERR_CODE = cPLAUS ∧ u.dev.get (pgLe h e) HDR.ERR_DETAIL = l.val ∧
          (bitN (s.dev.get (pgLe h e) LE.LSTAT_BITS 0 l) 4 = 1 → u.dev.silt = s.dev.silt) ∧ s.dev.keeps u.dev [pgLe h e, shp .slt]
      else ∃ u, exec (.plaus h e l) s = .next u ∧ u.pending = s.pending ∧ bitN (u.dev.get (pgLe h e) LE.LSTAT_BITS 0 l) 4 = 0 ∧
          s.dev.keeps u.dev [pgLe h e]) ∧
    (∀ (k l : Fin 32), s.dev.running h = true → (s.dev.half h).le.length = 3 → (s.dev.le h e).loops.length = 32 → k ≤ l →
      s.dev.on (pgLe h e) LE.LOOP_CFG_EN 0 l = true → s.dev.leSusp h e l = false → s.dev.leDue h e l = true → s.dev.enabled (pgLe h e) = true →
      ∃ u, exec (.loopLate h e k) s = .next u ∧ u.pending = s.pending ∧ bitN (u.dev.get (pgLe h e) LE.LFLAG_BITS 0 l) 6 = 1 ∧
        u.dev.get (pgLe h e) HDR.ERR_CODE = cLATE ∧ u.dev.loopSt h e l = (s.dev.le h e).prevLoops.getD l LoopSt.init ∧
        s.dev.keeps u.dev [pgLe h e, pgCan 2, shp .slt])

/-- From R161 and R162: a coefficient set interpolated between two stable entries has its poles inside the unit circle or, by the rounding of R162
alone, on it: the bounds of the stability rule hold, the lower bound of a1 not strictly. The model's own choices in it: notes/assumptions/15.md. -/
def Obligations.InterpolatedNotchStaysStable : Prop :=
  ∀ (a1 a2 b1 b2 : Int) (fr : Nat), stableSec a1 a2 = true → stableSec b1 b2 = true → fr < 65536 →
    -q1 < interp a2 b2 fr ∧ interp a2 b2 fr < q1 ∧ interp a1 b1 fr < q1 + interp a2 b2 fr ∧ -(q1 + interp a2 b2 fr) ≤ interp a1 b1 fr

/-- From R173: a write of `RSV_GO` makes the operation wait for the next SERVO event and shows PENDING with its tag, or SUPERSEDED with the tag of the
operation it replaces. The model's own choices in it: notes/assumptions/6.md. -/
def Obligations.LaneOperationsWait : Prop :=
  ∀ (s : State) (h : HalfId) (car : Fin 4) (lo hi bnd : Word) (tag : BitVec 16) (i : Instr) (op : Nat), s.out = true →
    ((i = .sepReserve h car lo hi tag ∧ op = 1) ∨ (i = .sepTrim h car tag ∧ op = 2) ∨ (i = .sepHandover h car bnd tag ∧ op = 3)) →
    ∃ t, exec i s = .next t ∧ t.pending = s.pending ∧ s.dev.keeps t.dev [ctl .sep h] ∧
      (t.dev.half h).sep.waiting.map (fun c => (c.op, c.car, c.tag)) = some (op, car.val, tag.toNat) ∧
      (op = 1 → (t.dev.half h).sep.waiting.map (fun c => (c.lo, c.hi)) = some (lo.toInt, hi.toInt)) ∧
      (op = 3 → (t.dev.half h).sep.waiting.map GoCmd.pos = some bnd.toInt) ∧
      (s.dev.active h = true →
        match (s.dev.half h).sep.waiting with
        | none => t.dev.get (ctl .sep h) SEP.RSV_RES_STATE = 1 ∧ t.dev.get (ctl .sep h) SEP.RSV_RES_TAG = tag.toNat
        | some w => t.dev.get (ctl .sep h) SEP.RSV_RES_STATE = 4 ∧ t.dev.get (ctl .sep h) SEP.RSV_RES_TAG = w.tag % 2 ^ 16)

/-- From R171: SEP never applies an operation that breaks the order and the separation of the reservations, or takes one out of the shaft: an
operation that passes its checks keeps them, provided the claim of the car trimmed lies inside its reservation (R172 clips it there at every event).
-/
def Obligations.LanesStayApart : Prop :=
  ∀ (d : Dev) (h : HalfId) (c : GoCmd), c.car < 4 →
    let apart (x : Dev) : Prop := ∀ n m : Fin 4, x.carEn h n = true → x.hasRes h n = true →
      x.geti (ctl .pos h) POS.SHAFT_LO_UM ≤ x.resLo h n ∧ x.resHi h n ≤ x.geti (ctl .pos h) POS.SHAFT_HI_UM ∧
      (n < m → x.carEn h m = true → x.hasRes h m = true → x.resHi h n + x.get (ctl .sep h) SEP.GAP_MIN_UM ≤ x.resLo h m)
    apart d → (d.hasRes h c.car = true → d.resLo h c.car ≤ d.clmLo h c.car ∧ d.clmHi h c.car ≤ d.resHi h c.car) →
    d.sepWhy h c = none → apart (d.sepDo h c)

/-- From R196: a door command waits for the next SERVO event of its axis and shows PENDING with its tag; over a waiting command it shows SUPERSEDED
with the tag replaced, except that a waiting STOP or STOP_NOW gives way to STOP_NOW only. The model's own choices in it: notes/assumptions/6.md,
16.md. -/
def Obligations.DoorCommandsWait : Prop :=
  ∀ (s : State) (h : HalfId) (k : Fin 8) (land : BitVec 8) (tag : BitVec 16) (i : Instr) (op : Nat), s.out = true → (s.dev.half h).dax.length = 8 →
    ((i = .doorOpen h k land tag ∧ op = 1) ∨ (i = .doorClose h k tag ∧ op = 2) ∨ (i = .doorNudge h k tag ∧ op = 3) ∨ (i = .doorStop h k tag ∧ op = 4) ∨
      (i = .doorStopNow h k tag ∧ op = 5) ∨ (i = .doorHome h k tag ∧ op = 6)) →
    ∃ t, exec i s = .next t ∧ t.pending = s.pending ∧ s.dev.keeps t.dev [pgDax h k] ∧
      (match (s.dev.dax h k).waiting with
       | none =>
         (t.dev.dax h k).waiting.map (fun c => (c.op, c.tag)) = some (op, tag.toNat) ∧
         (op = 1 → (t.dev.dax h k).waiting.map GoCmd.land = some land.toNat) ∧
         (s.dev.active h = true → t.dev.get (pgDax h k) DAX.CMD_RES_STATE = 1 ∧ t.dev.get (pgDax h k) DAX.CMD_RES_TAG = tag.toNat)
       | some w =>
         if (w.op = 4 ∨ w.op = 5) ∧ op ≠ 5 then (t.dev.dax h k).waiting = some w
         else
           (t.dev.dax h k).waiting.map (fun c => (c.op, c.tag)) = some (op, tag.toNat) ∧
           (s.dev.active h = true → t.dev.get (pgDax h k) DAX.CMD_RES_STATE = 4 ∧ t.dev.get (pgDax h k) DAX.CMD_RES_TAG = w.tag % 2 ^ 16))

/-- From R208 and R209: a lock that does not close in time reports DOOR_LOCK_FAIL and reopens the door until `LOCK_RETRY` attempts are spent, and then
stops it with cause LOCK_FAIL; a door status frame of 12 bytes is held, and the first of a run of shorter ones reports DOOR_SHORT; DOOR_SILENT is
reported at `DRV_LOSS.N` missed periods. -/
def Obligations.DoorLocksAndDrives : Prop :=
  ∀ (s : State) (h : HalfId) (k : Fin 8), s.out = true → (s.dev.half h).dax.length = 8 →
    (s.dev.daxMode h k = 1 → (s.dev.dax h k).lockNs.isSome = true → s.dev.daxLock h k = false →
      ∃ t, exec (.doorLockFail h k) s = .next t ∧ t.pending = s.pending ∧ t.dev.get (pgDax h k) HDR.ERR_CODE = cDOOR_LOCK_FAIL ∧
        s.dev.keeps t.dev [pgDax h k] ∧
        (if (s.dev.dax h k).tries < s.dev.get (pgDax h k) DAX.CFG_LOCK_RETRY then
          t.dev.daxMode h k = 5 ∧ (t.dev.dax h k).tries = (s.dev.dax h k).tries + 1 ∧ (t.dev.dax h k).recloses = true
         else t.dev.daxMode h k = 10 ∧ t.dev.get (pgDax h k) DAX.STATE_CAUSE = 6)) ∧
    (s.dev.daxMode h k ≠ 1 ∨ s.dev.daxLock h k = true → exec (.doorLockFail h k) s = .next s) ∧
    (∀ data : List Byte, s.dev.on (pgDax h k) DAX.DRV_ID_EN = true → s.dev.daxCan h k = true →
      ∃ t, exec (.doorStatusFrame k data) s = .next t ∧ t.pending = s.pending ∧ s.dev.keeps t.dev [pgDax .a k, pgDax .b k] ∧
        (data.length ≥ 12 → (t.dev.dax h k).drv = some (data.take 12)) ∧
        (data.length < 12 → (t.dev.dax h k).drv = (s.dev.dax h k).drv ∧ (t.dev.dax h k).drvMiss = true ∧
          ((s.dev.dax h k).drvShort = false → t.dev.get (pgDax h k) HDR.ERR_CODE = cDOOR_SHORT ∧ t.dev.get (pgDax h k) HDR.ERR_DETAIL = k.val))) ∧
    (if s.dev.on (pgDax h k) DAX.DRV_ID_EN = true ∧ s.dev.get (pgDax h k) DAX.DRV_LOSS_N ≠ 0 ∧
        s.dev.get (pgDax h k) DAX.DRV_STAT_MISSED ≥ s.dev.get (pgDax h k) DAX.DRV_LOSS_N then
      ∃ t, exec (.doorSilent h k) s = .next t ∧ t.pending = s.pending ∧ t.dev.get (pgDax h k) HDR.ERR_CODE = cDOOR_SILENT ∧
        bitN (t.dev.get (pgDax h k) HDR.STAT_BLOCK) 5 = 1 ∧ s.dev.keeps t.dev [pgDax h k, shp .slt]
     else exec (.doorSilent h k) s = .next s)

/-- From R210 to R213: without its bridge supply a channel drives no current and reports STP_DRV_OFF, keeps its count, and loses its position unless
`RETAIN` = 1; the return of the supply (its DIN channel equal to `POL`) clears `DRV_OFF` at the kept count; a STEP edge moves the target by 256 /
2^KSTEP microsteps; a PWM period takes the count to its latest value, and more than 256 microsteps in it are an overrun; a channel with no microstep
waiting enters its standstill mode. The model's own choices in it: notes/assumptions/17.md. -/
def Obligations.StepperChannels : Prop :=
  ∀ (s : State) (h : HalfId) (c : Fin 4), s.out = true → (s.dev.half h).stp.length = 4 → s.dev.enabled (ctl .stp h) = true →
    (s.dev.on (ctl .stp h) STP.CH_DRV_PG_EN c = true → s.dev.enabled (shp .din) = true → s.dev.fio.held = false →
      (s.dev.get (ctl .stp .a) STP.CH_DRV_PG_SRC c ≠ s.dev.get (ctl .stp .b) STP.CH_DRV_PG_SRC c ∨
        s.dev.on (ctl .stp .a) STP.CH_DRV_PG_POL c = s.dev.on (ctl .stp .b) STP.CH_DRV_PG_POL c) →
      (s.dev.on (ctl .stp h) STP.CH_STAT_DRV_OFF c = false →
        ∃ t, exec (.stpDrvPowerLoss c) s = .next t ∧ t.pending = s.pending ∧ t.dev.get (ctl .stp h) STP.CH_STAT_DRV_OFF c = 1 ∧
          t.dev.get (ctl .stp h) HDR.ERR_CODE = cSTP_DRV_OFF ∧ (t.dev.stpCh h c).en = false ∧
          t.dev.din (s.dev.get (ctl .stp h) STP.CH_DRV_PG_SRC c) = !s.dev.on (ctl .stp h) STP.CH_DRV_PG_POL c ∧
          t.dev.get (ctl .stp h) STP.CH_COUNT_USTEP c = s.dev.get (ctl .stp h) STP.CH_COUNT_USTEP c ∧
          t.dev.get (ctl .stp h) STP.CH_STAT_UNCERT c =
            (if s.dev.on (ctl .stp h) STP.CH_CFG_RETAIN c then s.dev.get (ctl .stp h) STP.CH_STAT_UNCERT c else 1) ∧ t.dev.memories = s.dev.memories) ∧
      (s.dev.on (ctl .stp h) STP.CH_STAT_DRV_OFF c = true →
        ∃ t, exec (.stpDrvPowerReturn c) s = .next t ∧ t.pending = s.pending ∧ t.dev.get (ctl .stp h) STP.CH_STAT_DRV_OFF c = 0 ∧
          (t.dev.stpCh h c).en = true ∧ t.dev.din (s.dev.get (ctl .stp h) STP.CH_DRV_PG_SRC c) = s.dev.on (ctl .stp h) STP.CH_DRV_PG_POL c ∧
          t.dev.get (ctl .stp h) STP.CH_COUNT_USTEP c = s.dev.get (ctl .stp h) STP.CH_COUNT_USTEP c ∧
          t.dev.get (ctl .stp h) STP.CH_STAT_UNCERT c = s.dev.get (ctl .stp h) STP.CH_STAT_UNCERT c ∧ t.dev.memories = s.dev.memories)) ∧
    (∀ (up : Bool) (dt : Nat), s.dev.running h = true → s.dev.on (ctl .stp h) STP.CH_CFG_SRC c = true → s.dev.on (ctl .stp h) STP.CH_STAT_DRV_OFF c = false →
      ∃ t, exec (.stpStepEdge c up dt) s = .next t ∧ t.pending = s.pending ∧
        (let q : Int := 256 / 2 ^ s.dev.get (ctl .stp h) STP.CH_CFG_KSTEP c
         (t.dev.stpCh h c).target = (s.dev.stpCh h c).target + (if up then q else -q)) ∧ (t.dev.stpCh h c).lastUp = up ∧
        s.dev.keeps t.dev [ctl .stp .a, ctl .stp .b]) ∧
    (∀ ns : Nat, s.dev.on (ctl .stp h) STP.CH_STAT_DRV_OFF c = false → s.dev.stpLatest h c ns < 2 ^ 31 → -(2 ^ 31) ≤ s.dev.stpLatest h c ns →
      ∃ t, exec (.stpPwmPeriod h c ns) s = .next t ∧ t.pending = s.pending ∧
        t.dev.geti (ctl .stp h) STP.CH_COUNT_USTEP c = s.dev.stpLatest h c ns ∧
        ((s.dev.stpLatest h c ns - (s.dev.stpCh h c).pwmCnt).natAbs > 256 →
          t.dev.get (ctl .stp h) STP.CH_STAT_UNCERT c = 1 ∧ t.dev.get (ctl .stp h) HDR.ERR_CODE = cSTP_OVERRUN) ∧
        ((s.dev.stpLatest h c ns - (s.dev.stpCh h c).pwmCnt).natAbs ≤ 256 →
          t.dev.get (ctl .stp h) STP.CH_STAT_UNCERT c = s.dev.get (ctl .stp h) STP.CH_STAT_UNCERT c ∧
          s.dev.keeps t.dev [ctl .stp h, shp .wir]) ∧ t.dev.memories = s.dev.memories) ∧
    (s.dev.geti (ctl .stp h) STP.CH_COUNT_USTEP c = (s.dev.stpCh h c).target →
      ∃ t, exec (.stpStill h c) s = .next t ∧ t.pending = s.pending ∧ t.dev.get (ctl .stp h) STP.CH_STAT_STILL c = 1 ∧
        (s.dev.get (ctl .stp h) STP.CH_CFG_STILL_MODE c = 0 → (t.dev.stpCh h c).en = false) ∧ s.dev.keeps t.dev [ctl .stp h, shp .wir])

/-- From R225, R234 and R241: a submission is written at `SUB_HEAD` of its ring, which advances; Shoal takes it in the same step where it takes
submissions, and leaves it in the ring and its tables as they were otherwise. No other byte of memory changes. The model's own choices in it:
notes/assumptions/6.md, 31.md. -/
def Obligations.SubmissionsAreTaken : Prop :=
  ∀ (s : State) (h : HalfId) (kind count : BitVec 4) (src dst : BitVec 8) (access prio : Bool) (car : BitVec 6) (slot : BitVec 12) (tag : Word) (i : Instr),
    s.out = true →
    (i = .shlNew h kind src dst count access prio car tag ∨ i = .shlCancel h slot tag ∨ i = .shlArrive h car dst tag) →
    16 ≤ s.dev.get (ctl .shl h) SHL.SUB_SIZE_N → s.dev.get (ctl .shl h) SHL.SUB_SIZE_N ≤ 4096 →
    s.dev.get (ctl .shl h) SHL.SUB_HEAD_IDX < s.dev.get (ctl .shl h) SHL.SUB_SIZE_N →
    s.dev.get (ctl .shl h) SHL.SUB_TAIL_IDX = s.dev.get (ctl .shl h) SHL.SUB_HEAD_IDX →
    let next_ := (s.dev.get (ctl .shl h) SHL.SUB_HEAD_IDX + 1) % s.dev.get (ctl .shl h) SHL.SUB_SIZE_N
    let a := s.dev.get (ctl .shl h) SHL.SUB_BASE_ADDR + 16 * s.dev.get (ctl .shl h) SHL.SUB_HEAD_IDX
    ∃ t, exec i s = .next t ∧ t.pending = s.pending ∧ t.dev.get (ctl .shl h) SHL.SUB_HEAD_IDX = next_ ∧
      t.dev.get (ctl .shl h) SHL.SUB_TAIL_IDX = (if s.dev.shlTakes h then next_ else s.dev.get (ctl .shl h) SHL.SUB_TAIL_IDX) ∧
      (s.dev.shlTakes h = false → t.dev.shl h = s.dev.shl h) ∧ memWord (t.dev.half h).sram (a + 8) = tag.toNat ∧
      (∀ x, x < a ∨ a + 16 ≤ x → memRead (t.dev.half h).sram x = memRead (s.dev.half h).sram x) ∧ t.dev.mram = s.dev.mram ∧
      (t.dev.half h.other).sram = (s.dev.half h.other).sram ∧ (∀ k, keyPage k ≠ ctl .shl h → rfFind k t.dev.regs = rfFind k s.dev.regs)

/-- From R238: CANCEL of an ASSIGNED or RIDING call settles it as CANCELLED and removes its stops (a pickup where the car stands that this leaves
beside no stop is done: the model's choice, notes/assumptions/31.md), and one that names a FREE slot is rejected with SHL_SLOT; ARRIVE at another
floor than the head stop's is rejected with SHL_NOT_HEAD, and at that floor removes the head stop, takes the DEST calls boarding there to RIDING, and
the hall calls boarding and the calls leaving there to DONE. The model's own choices in it: notes/assumptions/31.md. -/
def Obligations.CancelAndArrive : Prop :=
  ∀ (d : Dev) (h : HalfId) (tag : Nat),
    (∀ (k : Nat) (cl : Call), d.call? h k = some cl → cl.rejected = false → cl.state < 4 → (d.shl h).stops.length = 64 → cl.car < 64 →
      let left := if cl.valid then (Dev.unstop k [] (d.seqOf h cl.car)).2 else []
      (d.shlCancel h k tag).call? h k = some { cl with state := 5 } ∧
      (∃ l, ((d.shlCancel h k tag).shl h).out = (d.shl h).out ++ l ++ [⟨5, 0, k, cl.car, cl.deck, cl.tag, 0, 0, false⟩] ∧
        (∀ r ∈ l, r.event = 4 ∧ r.slot ∈ left) ∧ (left = [] → l = [])) ∧
      (cl.valid = true → (d.shlCancel h k tag).seqOf h cl.car = (Dev.unstop k [] (d.seqOf h cl.car)).1) ∧
      (∀ j, j ≠ k → j ∉ left → (d.shlCancel h k tag).call? h j = d.call? h j) ∧
      (∀ j c, j ∈ left → d.call? h j = some c → (d.shlCancel h k tag).call? h j = some { c with state := 4 })) ∧
    (∀ k : Nat, d.call? h k = none →
      ((d.shlCancel h k tag).shl h).out = (d.shl h).out ++ [⟨2, cSHL_SLOT, k, 0, false, tag, 0, 0, true⟩] ∧
      (d.shlCancel h k tag).get (ctl .shl h) HDR.ERR_CODE = cSHL_SLOT ∧ ((d.shlCancel h k tag).shl h).calls = (d.shl h).calls) ∧
    (∀ (car floor : Nat) (st : Stop) (r : List Stop), d.inScope h car = true → d.seqOf h car = st :: r → (d.shl h).stops.length = 64 →
      (st.floor ≠ floor →
        (d.shlArrive h car floor tag).get (ctl .shl h) HDR.ERR_CODE = cSHL_NOT_HEAD ∧ (d.shlArrive h car floor tag).seqOf h car = st :: r ∧
        ((d.shlArrive h car floor tag).shl h).calls = (d.shl h).calls) ∧
      (st.floor = floor →
        (d.shlArrive h car floor tag).seqOf h car = r ∧
        (∀ k cl, k ∈ st.picks ++ st.here → k ∉ st.drops → d.call? h k = some cl →
          ((d.shlArrive h car floor tag).call? h k).map Call.state = some (if cl.kind = 1 then 3 else 4)) ∧
        (∀ k cl, k ∈ st.drops → d.call? h k = some cl → ((d.shlArrive h car floor tag).call? h k).map Call.state = some 4)))

/-- From R230 and R231: the car that Shoal chooses for a call is one of those evaluated and feasible, its insertion keeps the rules of R230, and no
other feasible car has an insertion of less cost. -/
def Obligations.TheCheapestFeasibleCar : Prop :=
  ∀ (d : Dev) (h : HalfId) (k : Nat) (cl : Call) (cars : List Nat) (b : Nat × Nat × Plan × Bool × Nat × Nat), d.best h k cl cars = some b →
    b.1 ∈ cars ∧ d.carFeasible h b.1 cl = true ∧ (∃ r, d.rec? h b.1 = some r ∧ d.planOk h b.1 cl r b.2.2.1 = true) ∧
    (∀ c ∈ cars, d.carFeasible h c cl = true → ∀ x, d.bestIn h c k cl = some x → b.2.1 ≤ x.1)

/-- From R223 to R225, R227, R235, R237 and R240: a `RES_TAIL` outside the ring is ignored with RANGE; a stale record makes its car NO_NEW; the sweep
counts itself; a car that went OUT keeps no ASSIGNED call; a call that no decision reaches in time is decided locally and HELD, and reported where a
car takes it; a publication shows the tables, and waits while the standby in STANDBY_SYNC cannot be reached. The model's own choices in it:
notes/assumptions/31.md. -/
def Obligations.ShoalKeepsItsTables : Prop :=
  ∀ (s : State) (h : HalfId), s.out = true →
    (∀ v : BitVec 12, (v.toNat ≥ s.dev.get (ctl .shl h) SHL.RES_SIZE_N →
        ∃ t, exec (.resTailWrite h v) s = .next t ∧ t.pending = s.pending ∧ t.dev.get (ctl .shl h) HDR.ERR_CODE = cRANGE ∧
          t.dev.get (ctl .shl h) SHL.RES_TAIL_IDX = s.dev.get (ctl .shl h) SHL.RES_TAIL_IDX ∧ s.dev.keeps t.dev [ctl .shl h]) ∧
      (v.toNat < s.dev.get (ctl .shl h) SHL.RES_SIZE_N → v.toNat = s.dev.get (ctl .shl h) SHL.RES_HEAD_IDX →
        ∃ t, exec (.resTailWrite h v) s = .next t ∧ t.pending = s.pending ∧ t.dev.get (ctl .shl h) SHL.RES_TAIL_IDX = v.toNat ∧
          s.dev.keeps t.dev [ctl .shl h])) ∧
    (∀ (car : BitVec 6) (r : CarRec), s.dev.rec? h car.toNat = some r → r.fresh = true →
      ∃ t, exec (.carRecordStale h car) s = .next t ∧ t.pending = s.pending ∧
        t.dev.rec? h car.toNat = some { r with fresh := false, avail := max r.avail 1 } ∧
        bitN (t.dev.get (ctl .shl h) HDR.STAT_BLOCK) 5 = 1 ∧ s.dev.keeps t.dev [ctl .shl h]) ∧
    (s.dev.enabled (ctl .shl h) = true → s.dev.active h = true → s.dev.shlPassive h = false → s.dev.on (ctl .shl h) SHL.SWEEP_EN = true →
      s.dev.shlMode h ≠ 2 →
      ∃ t, exec (.shlSweep h) s = .next t ∧ t.pending = s.pending ∧
        t.dev.get (ctl .shl h) SHL.SWEEP_CNT_N = (s.dev.get (ctl .shl h) SHL.SWEEP_CNT_N + 1) % 2 ^ 32 ∧
        bitN (t.dev.get (ctl .shl h) HDR.STAT_BLOCK) 3 = 1 ∧ s.dev.keeps t.dev [ctl .shl h]) ∧
    (∀ (car : BitVec 6) (r : CarRec), s.dev.enabled (ctl .shl h) = true → s.dev.active h = true → s.dev.shlPassive h = false →
      s.dev.shlMode h ≠ 2 → s.dev.rec? h car.toNat = some r → r.avail = 2 →
      ∃ t, exec (.shlReassignOut h car) s = .next t ∧ t.pending = s.pending ∧ t.dev.callsOf h car.toNat = [] ∧ s.dev.keeps t.dev [ctl .shl h]) ∧
    (∀ (slot : BitVec 12) (cl : Call), s.dev.enabled (ctl .shl h) = true → s.dev.shlMode h = 2 → s.dev.call? h slot.toNat = some cl → cl.state = 1 →
      cl.rejected = false →
      ∃ t, exec (.shlFwdTmo h slot) s = .next t ∧ t.pending = s.pending ∧ (t.dev.call? h slot.toNat).map Call.held = some true ∧
        (t.dev.shl h).report = (s.dev.shl h).report ++ (if t.dev.placed h slot.toNat then [slot.toNat] else []) ∧
        t.dev.get (ctl .shl h) HDR.ERR_DETAIL = slot.toNat ∧ bitN (t.dev.get (ctl .shl h) HDR.STAT_BLOCK) 4 = 1 ∧ s.dev.keeps t.dev [ctl .shl h]) ∧
    (s.dev.active h = true → s.dev.mirrors h.other = false → s.dev.get (ctl .hlf h.other) HLF.STATE_OWN = 1 →
      exec (.shlPublish h) s = .next { s with dev := s.dev.glkBegin }) ∧
    (s.dev.enabled (ctl .shl h) = true → s.dev.mirrors h.other = false → (s.dev.active h = false ∨ s.dev.get (ctl .hlf h.other) HLF.STATE_OWN ≠ 1) →
      ∃ t, exec (.shlPublish h) s = .next t ∧ t.pending = s.pending ∧ (t.dev.shl h).decided = false ∧
        t.dev.get (ctl .shl h) SHL.CALLS_USED = (t.dev.shl h).calls.length % 2 ^ 13 ∧ t.dev.mram = s.dev.mram ∧
        ((s.dev.shl h).decided = true → bitN (t.dev.get (ctl .shl h) HDR.STAT_BLOCK) 0 = 1))

/-- From R252 to R256: a safe input channel shows its filtered level at once, and hands it on to Theath's demand evaluation outside the window of its
line only; a window switches its line off and blanks its channels, and its end gives both back; a channel of a pair in use that still reads high in
its own window, an overloaded line and a discrepancy fault the pair. The model's own choices in it: notes/assumptions/2.md, 25.md. -/
def Obligations.SafeInputsAndTestPulses : Prop :=
  ∀ s : State,
    (∀ (ch : Fin 16) (level : Bool), ∃ t, exec (.safeInputChange ch level) s = .next t ∧ t.pending = s.pending ∧
      bitN (t.dev.get (shp .ths) THS.IN_CH) ch = level.toNat ∧
      (∀ c : Fin 16, c ≠ ch → bitN (t.dev.get (shp .ths) THS.IN_CH) c = bitN (s.dev.get (shp .ths) THS.IN_CH) c) ∧
      t.dev.saf.thLvl = (if s.dev.blanked ch then s.dev.saf.thLvl else setBitN s.dev.saf.thLvl ch level) ∧ s.dev.keeps t.dev [shp .ths]) ∧
    (s.out = true → s.dev.safRun = true →
      (∀ k : Fin 4, bkTpW s.dev.blk k ≠ 0 →
        (∃ t, exec (.tpWindowStart k) s = .next t ∧ t.pending = s.pending ∧ bitN (t.dev.get (shp .ths) THS.TP_LVL) k = 0 ∧
          bitN (t.dev.get (shp .ths) THS.TP_BLANK) k = 1 ∧ s.dev.keeps t.dev [shp .ths]) ∧
        (∀ high low : BitVec 16, ∃ t, exec (.tpWindowEnd k high low) s = .next t ∧ t.pending = s.pending ∧
          bitN (t.dev.get (shp .ths) THS.TP_LVL) k = 1 ∧ bitN (t.dev.get (shp .ths) THS.TP_BLANK) k = 0 ∧
          (∀ c ∈ s.dev.fedBy k, bitN high.toNat c = 1 → s.dev.thOn = true → bitN (t.dev.get (shp .ths) THS.IN_PAIR_FLT) (c / 2) = 1) ∧
          s.dev.keeps t.dev [shp .ths, shp .sio, shp .slt])) ∧
      (∀ k : Fin 4, ∃ t, exec (.tpOverload k) s = .next t ∧ t.pending = s.pending ∧ bitN (t.dev.get (shp .ths) THS.TP_OVL) k = 1 ∧
        (∀ c ∈ s.dev.fedBy k, bitN (t.dev.get (shp .sfc) SFC.STOPS_PAIR_FLT) (c / 2) = 1 ∧
          (s.dev.thOn = true → bitN (t.dev.get (shp .ths) THS.IN_PAIR_FLT) (c / 2) = 1)) ∧
        s.dev.keeps t.dev [shp .ths, shp .sfc, shp .sio, shp .slt]) ∧
      (∀ p : Fin 8, s.dev.pairUsed p = true → s.dev.thOn = true →
        ∃ t, exec (.discrepancy p) s = .next t ∧ t.pending = s.pending ∧ bitN (t.dev.get (shp .ths) THS.IN_PAIR_FLT) p = 1 ∧
          bitN (t.dev.get (shp .sfc) SFC.STOPS_PAIR_FLT) p = 1 ∧
          t.dev.get (shp .sio) SIO.PR_DIAG_DISC p = satU SIO.PR_DIAG_DISC.w (s.dev.get (shp .sio) SIO.PR_DIAG_DISC p + 1) % 2 ^ SIO.PR_DIAG_DISC.w ∧
          s.dev.keeps t.dev [shp .ths, shp .sfc, shp .sio, shp .slt]))

/-- From R87, R184, R247 and R258: Theath takes position and speed of a car from good source-T frames and counts bad ones; too fast, too near to its
neighbour or without source T, a car has a stop latched that opens both switches of its pairs; and the low sides go off when the heartbeat of the pair
ends. The model's own choices in it: notes/assumptions/2.md, 25.md. -/
def Obligations.TheathLatchesItsStops : Prop :=
  ∀ s : State, s.out = true → s.dev.shaped = true →
    (∀ (n : Fin 4) (low : Bool) (bits : Word), s.dev.thOn = true → s.dev.safCar n = true →
      ∃ t, exec (.sourceTFrame n low bits) s = .next t ∧ t.pending = s.pending ∧ s.dev.keeps t.dev [shp .ths] ∧
        (t.dev.th n).clock = (s.dev.th n).clock + bkFrameT s.dev.blk n ∧
        (if low = true ∨ Dev.tBad s.dev.blk n bits.toNat = true then
          t.dev.get (shp .ths) THS.CAR_TBAD_COUNT n = satU THS.CAR_TBAD_COUNT.w (s.dev.get (shp .ths) THS.CAR_TBAD_COUNT n + 1) % 2 ^ THS.CAR_TBAD_COUNT.w
         else t.dev.tGood n = true ∧ t.dev.get (shp .ths) THS.CAR_XT_UM n = encS 32 (asr (Dev.tPos s.dev.blk n bits.toNat) 8) % 2 ^ 32)) ∧
    (∀ n : Fin 4, s.dev.thOn = true → s.dev.safCar n = true → s.dev.useT n = true → (s.dev.vT n).natAbs > bkOvsT s.dev.blk n (decide (s.dev.vT n > 0)) →
      ∃ t, exec .theathEval s = .next t ∧ t.pending = s.pending ∧ bitN (t.dev.th n).causes 4 = 1 ∧
        ((s.dev.th n).causes = 0 → bitN (t.dev.get (shp .ths) THS.CARS_TRIP) n = 1 ∧
          ∀ k : Fin 8, bkOutCar s.dev.blk k = n.val → t.dev.pairOff k = true ∧ bitN (t.dev.get (shp .ths) THS.MODE_SO_LS) k = 0)) ∧
    (∀ p : Fin 3, s.dev.sepOn p = true → s.dev.sepWaived p = false → s.dev.tGood p = true → s.dev.tGood (p.val + 1) = true → s.dev.gapT p < s.dev.thrT p →
      ∃ t, exec .theathSepCheck s = .next t ∧ t.pending = s.pending ∧ bitN (t.dev.th p).causes 7 = 1 ∧ bitN (t.dev.th (p.val + 1)).causes 7 = 1 ∧
        t.dev.get (shp .ths) THS.PR_ST_TRIP p = 1 ∧ t.dev.memories = s.dev.memories) ∧
    (∀ n : Fin 4, s.dev.thOn = true → s.dev.safCar n = true → (s.dev.th n).waiveT = false →
      (s.dev.sepNeighbours n ≠ [] → ∃ t, exec (.sepTinv n) s = .next t ∧ t.pending = s.pending ∧ t.dev.tGood n = false ∧
        (∀ q ∈ s.dev.thPairs n, s.dev.sepWaived q = false →
          bitN (t.dev.th n).causes 8 = 1 ∧ bitN (t.dev.th (if q = n.val then q + 1 else q)).causes 8 = 1) ∧
        ((∀ q ∈ s.dev.thPairs n, s.dev.sepWaived q = true) → t.dev.saf = s.dev.saf)) ∧
      (s.dev.sepNeighbours n = [] → ∃ t, exec (.sourceTLost n) s = .next t ∧ t.pending = s.pending ∧ t.dev.tGood n = false ∧
        bitN (t.dev.th n).causes 9 = 1)) ∧
    (∃ t, exec .heartbeatTimeout s = .next t ∧ t.pending = s.pending ∧ t.dev.on (shp .ths) THS.MODE_HB_OK = false ∧ t.dev.saf.hbRun = 0 ∧
      ∀ n : Fin 4, s.dev.safCar n = true → bitN (t.dev.th n).causes 0xC = 1) ∧
    (s.dev.get (shp .sfc) SFC.STATE_CODE ≠ 5 → ∃ t, exec .heartbeatSend s = .next t ∧ t.pending = s.pending ∧ t.dev.saf.hbRun = s.dev.saf.hbRun + 1 ∧
      t.dev.get (shp .sfc) SFC.HB_COUNT = (s.dev.get (shp .sfc) SFC.HB_COUNT + 1) % 2 ^ SFC.HB_COUNT.w ∧ s.dev.keeps t.dev [shp .sfc, shp .ths])

/-- From R181, R258, R259, R261, R415 and R417: the safety core pair evaluates the levels it samples, with every demanding CHAIN pair latching a stop;
accepts a correct safe frame as the state of its station, and counts a station as open from its silence on; latches HEADWAY for a car that closes a
gap too small, and OVERSPEED, each with the motion permit withdrawn; and outside RUN it grants no permit. The model's own choices in it:
notes/assumptions/19.md, 26.md, 27.md. -/
def Obligations.PairLatchesItsStops : Prop :=
  ∀ s : State, s.out = true → s.dev.shaped = true →
    (∀ t₀ : BitVec 18, s.dev.safRun = true → ∃ t, exec (.pairSample t₀) s = .next t ∧ t.pending = s.pending ∧
      t.dev.saf.spAct = s.dev.demMask t.dev.saf.spLvl ∧
      (∀ c : Fin 16, bkFeed s.dev.blk c ≥ 4 → bitN t.dev.saf.spLvl c = bitN (s.dev.get (shp .ths) THS.IN_CH) c) ∧
      (∀ (p : Fin 8) (n : Nat), bkFunc s.dev.blk p = 1 → bitN t.dev.saf.spAct p = 1 → n ∈ bkPCars s.dev.blk p → bitN (s.dev.sp n).rscChain p = 0 →
        bitN (t.dev.sp n).causes (if t.dev.spFlt p then 0x12 else 1) = 1)) ∧
    (∀ (bus : Fin 4) (ident : Word) (fd : Bool) (dlc : BitVec 4) (data : List Byte) (k : Nat), s.dev.safRun = true →
      Dev.tapStn s.dev.blk bus ident.toNat = some k →
      let bs := data.map BitVec.toNat
      let dq := (leAt bs 2 2 + 65536 - (s.dev.stn k).seq) % 65536
      ∃ t, exec (.safeFrame bus ident fd dlc data) s = .next t ∧ t.pending = s.pending ∧
        t.dev.stn k = (if Dev.safeFrameOk k ident.toNat fd dlc.toNat bs = true ∧ ((s.dev.stn k).silent = true ∨ (1 ≤ dq ∧ dq ≤ 32767)) then
            ⟨leAt bs 2 2, false, leAt bs 4 2, false⟩
          else { s.dev.stn k with rejected := true })) ∧
    (∀ k : Fin 260, s.dev.safRun = true → (s.dev.stn k).silent = false →
      ∃ t, exec (.stationSilent k) s = .next t ∧ t.pending = s.pending ∧ (t.dev.stn k).silent = true ∧
        t.dev.get (shp .sfc) HDR.ERR_CODE = cSTATION_SILENT ∧ t.dev.get (shp .sfc) HDR.ERR_DETAIL = s.dev.stnDetail k) ∧
    (∀ l : BitVec 8, if s.dev.safRun = true ∧ s.dev.lockDiffers l.toNat = true ∧ s.dev.saf.lockDis.contains l.toNat = false then
        ∃ t, exec (.lockDisagree l) s = .next t ∧ t.pending = s.pending ∧ t.dev.saf.lockDis = s.dev.saf.lockDis ++ [l.toNat] ∧
          t.dev.get (shp .sfc) HDR.ERR_CODE = cLOCK_DISAGREE ∧ t.dev.get (shp .sfc) HDR.ERR_DETAIL = s.dev.coverOf l.toNat ∧ s.dev.keeps t.dev [shp .sfc, shp .slt]
      else exec (.lockDisagree l) s = .next s) ∧
    (∀ p : Fin 3, s.dev.safRun = true → s.dev.native = true → bkSepOn s.dev.blk p = true → s.dev.safCar p = true → s.dev.safCar (p.val + 1) = true →
      s.dev.headWaived p = false → s.dev.pV p > 0 → s.dev.gapP p < s.dev.headS1 p 1 + s.dev.headS1 (p.val + 1) (-1) + bkHP s.dev.blk p →
      ∃ t, exec .headwayCheck s = .next t ∧ t.pending = s.pending ∧ bitN (t.dev.sp p).causes 8 = 1 ∧ (t.dev.sp p).hw = true ∧
        (t.dev.sp (p.val + 1)).hw = true ∧ (bitN (s.dev.sp p).causes 8 = 0 →
          bitN (t.dev.get (shp .sfc) SFC.PERMIT_MOTION) p = 0 ∧
          (bitN (s.dev.get (shp .sfc) SFC.STOPS_CAT0) p = 0 → (s.dev.th p).causes = 0 → bitN (t.dev.get (shp .sfc) SFC.STOPS_CAT1) p = 1))) ∧
    (∀ n : Fin 4, s.dev.safRun = true → s.dev.safCar n = true → (s.dev.sp n).causes = 0 →
      (s.dev.pV n).natAbs > bkOvsP s.dev.blk n (decide (s.dev.pV n > 0)) →
      ∃ t, exec .pairServoEval s = .next t ∧ t.pending = s.pending ∧ bitN (t.dev.sp n).causes 5 = 1 ∧
        bitN (t.dev.get (shp .sfc) SFC.PERMIT_MOTION) n = 0) ∧
    (s.dev.safRun = false → ∃ t, exec .pairServoEval s = .next t ∧ t.pending = s.pending ∧
      ∀ n : Fin 4, bitN (t.dev.get (shp .sfc) SFC.PERMIT_MOTION) n = 0)

/-- From R276, R264, R303, R300 and R308: the mailbox takes one request at a time, and another is refused with BUSY; INFO answers with the block;
RESET, RESCUE, DEGRADED and OUTPUT_TEST take effect or are refused with their reason, and a refusal changes nothing of the safety state; a passed
output test clears the pair's fault and hours, and a failed one leaves its fault code. The model's own choices in it: notes/assumptions/6.md, 28.md,
30.md. -/
def Obligations.MailboxRequests : Prop :=
  ∀ s : State, s.out = true → s.dev.shaped = true →
    (∀ (i : Instr) (x y : Word) (tag : BitVec 16), s.dev.get (shp .smb) SMB.REP_STATE = 1 →
      (i = .smbInfo tag ∨ i = .smbRescue x y tag ∨ i = .smbReset x tag ∨ i = .smbDegraded x y tag ∨ i = .smbOutputTest x y tag) →
      ∃ t, exec i s = .next t ∧ t.pending = s.pending ∧ t.dev.get (shp .smb) HDR.ERR_CODE = cBUSY ∧ t.dev.get (shp .smb) SMB.REP_STATE = 1 ∧
        t.dev.saf = s.dev.saf ∧ s.dev.keeps t.dev [shp .smb]) ∧
    (s.dev.get (shp .smb) SMB.REP_STATE ≠ 1 → s.dev.get (shp .sfc) SFC.STATE_CODE ≠ 5 →
      (∀ tag : BitVec 16, ∃ t, exec (.smbInfo tag) s = .next t ∧ t.pending = s.pending ∧ t.dev.get (shp .smb) SMB.REP_STATE = 2 ∧
        t.dev.get (shp .smb) SMB.REP_TAG = tag.toNat ∧ t.dev.get (shp .smb) SMB.REP_DATA0 = s.dev.get (shp .sfc) SFC.BLOCK_ID_ID % 2 ^ 32 ∧
        t.dev.get (shp .smb) SMB.REP_DATA1 = (s.dev.get (shp .sfc) SFC.BLOCK_CRC_CODE + 65536 * s.dev.get (shp .sfc) SFC.STATE_CODE) % 2 ^ 32 ∧
        t.dev.saf = s.dev.saf ∧ s.dev.keeps t.dev [shp .smb]) ∧
      (∀ (mask : Word) (tag : BitVec 16), s.dev.safRun = true →
        let cars := s.dev.safCars.filter (fun n => bitN mask.toNat n == 1)
        match s.dev.resetWhy cars with
        | none => ∃ t, exec (.smbReset mask tag) s = .next t ∧ t.pending = s.pending ∧ t.dev.get (shp .smb) SMB.REP_STATE = 2 ∧
            t.dev.get (shp .smb) SMB.REP_TAG = tag.toNat ∧ ∀ n ∈ cars, (t.dev.sp n).causes = 0 ∧ (t.dev.th n).causes = 0 ∧
              bitN (t.dev.get (shp .sfc) SFC.STOPS_CAT0) n = 0 ∧ bitN (t.dev.get (shp .sfc) SFC.STOPS_CAT1) n = 0 ∧
              bitN (t.dev.get (shp .ths) THS.CARS_TRIP) n = 0
        | some r => ∃ t, exec (.smbReset mask tag) s = .next t ∧ t.pending = s.pending ∧ t.dev.get (shp .smb) SMB.REP_STATE = 3 ∧
            t.dev.get (shp .smb) SMB.REP_REASON = r.1 % 2 ^ 8 ∧ t.dev.get (shp .smb) HDR.ERR_CODE = r.1 % 2 ^ 8 ∧
            t.dev.get (shp .smb) HDR.ERR_DETAIL = r.2 % 2 ^ 16 ∧ t.dev.saf = s.dev.saf ∧ s.dev.keeps t.dev [shp .smb]) ∧
      (∀ (car req : Word) (tag : BitVec 16), car.toNat ≤ 3 →
        (req.toNat % 2 = 0 → ∃ t, exec (.smbRescue car req tag) s = .next t ∧ t.pending = s.pending ∧ t.dev.get (shp .smb) SMB.REP_STATE = 2 ∧
          bitN (t.dev.get (shp .sfc) SFC.PERMIT_RESCUE) car.toNat = 0) ∧
        (req.toNat % 2 = 1 → match s.dev.rescueWhy car.toNat with
          | none => ∃ t, exec (.smbRescue car req tag) s = .next t ∧ t.pending = s.pending ∧ t.dev.get (shp .smb) SMB.REP_STATE = 2 ∧
              bitN (t.dev.get (shp .sfc) SFC.PERMIT_RESCUE) car.toNat = 1 ∧ (t.dev.sp car.toNat).rscChain = s.dev.chainMask car.toNat
          | some r => ∃ t, exec (.smbRescue car req tag) s = .next t ∧ t.pending = s.pending ∧ t.dev.get (shp .smb) SMB.REP_STATE = 3 ∧
              t.dev.get (shp .smb) SMB.REP_REASON = r % 2 ^ 8 ∧ t.dev.get (shp .smb) HDR.ERR_DETAIL = car.toNat ∧ t.dev.saf = s.dev.saf ∧ s.dev.keeps t.dev [shp .smb])) ∧
      (∀ (car req : Word) (tag : BitVec 16), car.toNat ≤ 3 → req.toNat % 2 = 1 →
        match s.dev.degWhy car.toNat (req.toNat / 2 % 8) with
        | none => ∃ t, exec (.smbDegraded car req tag) s = .next t ∧ t.pending = s.pending ∧ t.dev.get (shp .smb) SMB.REP_STATE = 2 ∧
            (t.dev.sp car.toNat).deg = some (req.toNat / 2 % 8) ∧ t.dev.on (shp .sio) SIO.CAR_RUN_DEG car.toNat = true
        | some r => ∃ t, exec (.smbDegraded car req tag) s = .next t ∧ t.pending = s.pending ∧ t.dev.get (shp .smb) SMB.REP_STATE = 3 ∧
            t.dev.get (shp .smb) SMB.REP_REASON = r % 2 ^ 8 ∧ t.dev.get (shp .smb) HDR.ERR_DETAIL = car.toNat ∧ t.dev.saf = s.dev.saf ∧ s.dev.keeps t.dev [shp .smb]) ∧
      (∀ (k ms : Word) (tag : BitVec 16),
        (k.toNat > 7 ∨ ms.toNat < 50 ∨ ms.toNat > 2000 → ∃ t, exec (.smbOutputTest k ms tag) s = .next t ∧ t.pending = s.pending ∧
          t.dev.get (shp .smb) SMB.REP_STATE = 3 ∧ t.dev.get (shp .smb) SMB.REP_REASON = cRANGE ∧ t.dev.saf = s.dev.saf) ∧
        (k.toNat ≤ 7 → 50 ≤ ms.toNat → ms.toNat ≤ 2000 → s.dev.safRun = true → s.dev.pairMoves (bkOutCar s.dev.blk k.toNat) = false →
          ∃ t, exec (.smbOutputTest k ms tag) s = .next t ∧ t.pending = s.pending ∧ t.dev.get (shp .smb) SMB.REP_STATE = 1 ∧
            t.dev.saf.test = some (k.toNat, tag.toNat) ∧ t.dev.pairOff k.toNat = true))) ∧
    (∀ (k : Fin 8) (tag : Nat) (v : Volts) (i : BitVec 16), s.dev.saf.test = some (k.val, tag) →
      ∃ t, exec (.outputTestDone v i) s = .next t ∧ t.pending = s.pending ∧ t.dev.saf.test = none ∧
        t.dev.get (shp .sio) SIO.SO_RB_VP k = v.vp.toNat ∧ t.dev.get (shp .sio) SIO.SO_RB_VN k = v.vn.toNat ∧
        t.dev.get (shp .sio) SIO.SO_RB_I k = i.toNat ∧
        (if v.vp.toNat < 5000 ∧ v.vn.toNat < 5000 ∧ i.toNat < 50 then
          t.dev.get (shp .smb) SMB.REP_STATE = 2 ∧ t.dev.get (shp .sio) SIO.SO_ST_FCODE k = 0 ∧ t.dev.get (shp .sio) SIO.SO_OT_HOURS k = 0
         else t.dev.get (shp .smb) SMB.REP_STATE = 3 ∧ t.dev.get (shp .smb) SMB.REP_REASON = cOUT_FAULT ∧
          1 ≤ t.dev.get (shp .sio) SIO.SO_ST_FCODE k ∧
          (v.vp.toNat ≥ 5000 → t.dev.get (shp .sio) SIO.SO_ST_FCODE k = 1) ∧
          (v.vp.toNat < 5000 → 50 ≤ i.toNat → t.dev.get (shp .sio) SIO.SO_ST_FCODE k = 2)))

/-- From R283, R284, R288, R290 and R293: at the standstill of a category-1 stop the brake drops, and `BRK_SET_T` later the STO pair goes off and the
stop is complete; one that lasts too long becomes category 0; a car that stands without its permit drops its brake and then its STO pair; a brake
lifts with its STO pair on and the doors closed or a move taken, and not while it is set by a stop; and a BRAKE pair whose current does not follow its
switch latches BRAKE_FAULT. The model's own choices in it: notes/assumptions/2.md, 27.md, 71.md. -/
def Obligations.StopsAndBrakes : Prop :=
  ∀ (s : State) (n : Fin 4), s.out = true → s.dev.shaped = true → s.dev.safRun = true →
    (∀ r : S1Run, (s.dev.sp n).s1 = some r →
      (s.dev.pairMoves n = false → ∃ t, exec (.s1Standstill n) s = .next t ∧ t.pending = s.pending ∧ (t.dev.sp n).s1 = some { r with braked := true } ∧
        t.dev.get (shp .sio) SIO.CAR_RUN_BRK_ON n = 0 ∧
        (∀ k : Fin 8, bkOutFn s.dev.blk k = 2 → bkOutCar s.dev.blk k = n.val → t.dev.get (shp .sio) SIO.SO_ST_HS k = 0) ∧
        s.dev.keeps t.dev [shp .sio, shp .ths]) ∧
      (r.braked = true → ∃ t, exec (.s1StoOff n) s = .next t ∧ t.pending = s.pending ∧ (t.dev.sp n).s1 = none ∧
        t.dev.get (shp .sio) SIO.CAR_RUN_STO_ON n = 0 ∧ t.dev.get (shp .sio) SIO.CAR_RUN_S1 n = 0 ∧
        (∀ k : Fin 8, bkOutFn s.dev.blk k = 1 → bkOutCar s.dev.blk k = n.val → t.dev.get (shp .sio) SIO.SO_ST_HS k = 0) ∧
        s.dev.keeps t.dev [shp .sio, shp .ths]) ∧
      (r.braked = false → s.dev.safCar n = true → bitN (s.dev.sp n).causes 0xC = 0 →
        ∃ t, exec (.s1Time n) s = .next t ∧ t.pending = s.pending ∧ bitN (t.dev.sp n).causes 0xC = 1 ∧ bitN (t.dev.get (shp .sfc) SFC.STOPS_CAT0) n = 1 ∧
          (t.dev.sp n).s1 = none ∧ t.dev.get (shp .sio) SIO.CAR_RUN_STO_ON n = 0 ∧ t.dev.get (shp .sio) SIO.CAR_RUN_BRK_ON n = 0)) ∧
    (s.dev.pairMoves n = false → (s.dev.sp n).s1 = none → bitN (s.dev.get (shp .sfc) SFC.PERMIT_MOTION) n = 0 →
      ((s.dev.sp n).dropped = false → ∃ t, exec (.standstillBrakeDrop n) s = .next t ∧ t.pending = s.pending ∧
        t.dev.get (shp .sio) SIO.CAR_RUN_BRK_ON n = 0 ∧ (t.dev.sp n).dropped = true ∧ s.dev.keeps t.dev [shp .sio, shp .ths]) ∧
      ((s.dev.sp n).dropped = true → s.dev.on (shp .sio) SIO.CAR_RUN_BRK_ON n = false → ∃ t, exec (.standstillBrakeDrop n) s = .next t ∧
        t.pending = s.pending ∧ t.dev.get (shp .sio) SIO.CAR_RUN_STO_ON n = 0 ∧ s.dev.keeps t.dev [shp .sio, shp .ths])) ∧
    (if s.dev.on (shp .sio) SIO.CAR_RUN_STO_ON n = true ∧ (s.dev.sp n).dropped = false ∧ (s.dev.sp n).s1.map S1Run.braked ≠ some true ∧
        (s.dev.carClosed n = true ∨ (s.dev.sp n).moved = true) then
      ∃ t, exec (.brakeLift n) s = .next t ∧ t.pending = s.pending ∧ t.dev.get (shp .sio) SIO.CAR_RUN_BRK_ON n = 1 ∧ s.dev.keeps t.dev [shp .sio, shp .ths]
     else exec (.brakeLift n) s = .next s) ∧
    (∀ (k : Fin 8) (i : BitVec 16), bkOutFn s.dev.blk k = 2 → bkOutCar s.dev.blk k = n.val → s.dev.safCar n = true →
      (s.dev.on (shp .sio) SIO.SO_ST_HS k = true →
        ∃ t, exec (.brakePickCheck k i) s = .next t ∧ t.pending = s.pending ∧
          (if i.toNat < car16 s.dev.blk n 0x98 then t.dev.get (shp .sfc) HDR.ERR_CODE = cBRAKE_FAULT ∧ bitN (t.dev.sp n).causes 0xD = 1
           else t.dev.saf = s.dev.saf ∧ s.dev.keeps t.dev [shp .sio])) ∧
      (s.dev.on (shp .sio) SIO.SO_ST_HS k = false →
        ∃ t, exec (.brakeDropCheck k i) s = .next t ∧ t.pending = s.pending ∧
          (if i.toNat ≥ 50 then t.dev.get (shp .sfc) HDR.ERR_CODE = cBRAKE_FAULT ∧ bitN (t.dev.sp n).causes 0xD = 1
           else t.dev.saf = s.dev.saf ∧ s.dev.keeps t.dev [shp .sio])))

/-- From R296 to R299, R302 and R304: a test that reads right changes only the readings of its pair, and one that fails, an overload and an open load
leave the pair's fault code, with both channels stopping its car; hours at `OT_DUE` are reported; a degraded grant ends with a stop at its time and
without one when its conditions have recovered; a press of a RESET contact counts within 100 ms to 5 s. The model's own choices in it:
notes/assumptions/2.md, 28.md, 30.md, 71.md. -/
def Obligations.OutputTestsAndGrants : Prop :=
  ∀ s : State, s.out = true → s.dev.shaped = true → s.dev.safRun = true →
    (∀ (k : Fin 8) (low : Bool) (vp vn i : BitVec 16), s.dev.on (shp .sio) SIO.SO_ST_HS k = true → s.dev.on (shp .sio) SIO.SO_ST_LS k = true →
      ∃ t, exec (.darkTest k low vp vn i) s = .next t ∧ t.pending = s.pending ∧
        (if (low = true ∧ i.toNat ≥ 50) ∨ (low = false ∧ vp.toNat ≥ 5000) then
          t.dev.get (shp .sio) SIO.SO_ST_FCODE k = (if low then 2 else 1) ∧ t.dev.get (shp .sio) HDR.ERR_CODE = cOUT_FAULT
         else t.dev.saf = s.dev.saf ∧ t.dev.get (shp .sio) SIO.SO_RB_VP k = vp.toNat ∧ t.dev.get (shp .sio) SIO.SO_RB_VN k = vn.toNat ∧
          t.dev.get (shp .sio) SIO.SO_RB_I k = i.toNat ∧ s.dev.keeps t.dev [shp .sio])) ∧
    (∀ (k : Fin 8) (low : Bool) (vp vn i : BitVec 16) (cross : Bool), s.dev.on (shp .sio) SIO.SO_ST_HS k = false →
      ∃ t, exec (.splitTest k low vp vn i cross) s = .next t ∧ t.pending = s.pending ∧
        (if cross = true then t.dev.get (shp .sio) SIO.SO_ST_FCODE k = 7
         else if low = true ∧ vp.toNat < 5000 ∧ vn.toNat < 5000 ∨ low = false ∧ 5000 ≤ vp.toNat ∧ 5000 ≤ vn.toNat ∧ i.toNat < 50 then
          t.dev.saf = s.dev.saf ∧ s.dev.keeps t.dev [shp .sio]
         else t.dev.get (shp .sio) HDR.ERR_CODE = cOUT_FAULT)) ∧
    (∀ (k : Fin 8) (n : Fin 4), bkOutFn s.dev.blk k ≠ 0 → bkOutCar s.dev.blk k = n.val → s.dev.safCar n = true →
      (∃ t, exec (.outputOverload k) s = .next t ∧ t.pending = s.pending ∧ t.dev.get (shp .sio) SIO.SO_ST_FCODE k = 5 ∧
        bitN (t.dev.sp n).causes 0xE = 1 ∧ bitN (t.dev.th n).causes 0xE = 1) ∧
      (∀ i : BitVec 16, s.dev.on (shp .sio) SIO.SO_ST_HS k = true → i.toNat < bkOutOl s.dev.blk k →
        ∃ t, exec (.openLoad k i) s = .next t ∧ t.pending = s.pending ∧ t.dev.get (shp .sio) SIO.SO_ST_FCODE k = 6 ∧
          bitN (t.dev.sp n).causes 0xE = 1 ∧ bitN (t.dev.th n).causes 0xE = 1) ∧
      (s.dev.saf.active.isSome = true → s.dev.get (shp .sio) SIO.SO_OT_HOURS k ≥ bkOtDue s.dev.blk →
        ∃ t, exec (.otDue k) s = .next t ∧ t.pending = s.pending ∧ t.dev.get (shp .sio) SIO.CAR_RUN_OT_DUE n = 1 ∧
          t.dev.get (shp .sio) HDR.ERR_CODE = cOT_DUE ∧ s.dev.keeps t.dev [shp .sio, shp .slt])) ∧
    (∀ (n : Fin 4) (w : Nat), s.dev.safCar n = true → (s.dev.sp n).deg = some w →
      (bitN (s.dev.sp n).causes 0x10 = 0 → ∃ t, exec (.degTime n) s = .next t ∧ t.pending = s.pending ∧ bitN (t.dev.sp n).causes 0x10 = 1 ∧
        (t.dev.sp n).deg = none ∧ bitN (t.dev.get (shp .sfc) SFC.STOPS_CAT0) n = 1) ∧
      (((s.dev.modSp n (fun c => { c with deg := none })).permitWhy n).land (Dev.waivedBits w) = 0 →
        ∃ t, exec (.degRecovery n) s = .next t ∧ t.pending = s.pending ∧ (t.dev.sp n).deg = none ∧ (t.dev.sp n).causes = (s.dev.sp n).causes) ∧
      (((s.dev.modSp n (fun c => { c with deg := none })).permitWhy n).land (Dev.waivedBits w) ≠ 0 → exec (.degRecovery n) s = .next s)) ∧
    (∀ (p : Fin 8) (ms : BitVec 16), if bkFunc s.dev.blk p = 8 ∧ 100 ≤ ms.toNat ∧ ms.toNat ≤ 5000 then
        ∃ t, exec (.resetPress p ms) s = .next t ∧ t.pending = s.pending ∧ (∀ n ∈ bkPCars s.dev.blk p, (t.dev.sp n).press = some s.dev.now) ∧
          t.dev.regs = s.dev.regs ∧ t.dev.memories = s.dev.memories
      else exec (.resetPress p ms) s = .next s)

/-- From R247, R269 to R273 and R305: a stopped or stale safety clock and a lockstep mismatch lead to FAULT with every output off; START enters RUN
with the first valid copy that the contacts name, with every enabled car stopped by START; a candidate is written, verified and sealed only as R270
and R271 allow, and the seal writes both copies of the block fixed at its acceptance (at places that are open, notes/assumptions/62.md); a change of
the SEAL contacts in RUN stops moving cars. The model's own choices in it: notes/assumptions/24.md, 29.md, 71.md. -/
def Obligations.BlocksAndFault : Prop :=
  ∀ s : State, s.out = true → s.dev.shaped = true →
    (∀ i : Instr, (i = .lockstepMismatch ∨ ∃ off stale : Bool, (off || stale) = true ∧ i = .tclkCheck off stale) → s.dev.get (shp .sfc) SFC.STATE_CODE ≠ 5 →
      ∃ t, exec i s = .next t ∧ t.pending = s.pending ∧ t.dev.get (shp .sfc) SFC.STATE_CODE = 5 ∧ t.dev.allOff = true ∧
        ∀ n : Fin 4, bitN (t.dev.get (shp .sfc) SFC.PERMIT_MOTION) n = 0) ∧
    (s.dev.get (shp .sfc) SFC.STATE_CODE = 0 → ∀ (sw : BitVec 16) (en : Bool),
      (∃ t, exec (.safetyStart false sw en) s = .next t ∧ t.pending = s.pending ∧ t.dev.get (shp .sfc) SFC.STATE_CODE = 5) ∧
      (s.dev.loadWhy s.dev.saf.copy1 = none → sealCode s.dev.saf.copy1 = sw.toNat →
        ∃ t, exec (.safetyStart true sw en) s = .next t ∧ t.pending = s.pending ∧ t.dev.get (shp .sfc) SFC.STATE_CODE = 3 ∧
          t.dev.saf.active = some s.dev.saf.copy1 ∧ t.dev.get (shp .sfc) SFC.BLOCK_ID_ID = bkId s.dev.saf.copy1 % 2 ^ 32 ∧
          t.dev.get (shp .sfc) SFC.STATE_SEAL_MATCH = 1 ∧ ∀ n : Fin 4, bkCarOn s.dev.saf.copy1 n = true → (t.dev.sp n).causes = 2 ^ 0x15) ∧
      ((s.dev.loadWhy s.dev.saf.copy1).isSome = true → (s.dev.loadWhy s.dev.saf.copy2).isSome = true →
        ∃ t, exec (.safetyStart true sw en) s = .next t ∧ t.pending = s.pending ∧ t.dev.get (shp .sfc) SFC.STATE_CODE = 1)) ∧
    (s.dev.get (shp .spb) SPB.STATUS_STATE ≠ 1 →
      (∃ t, exec .spbClear s = .next t ∧ t.pending = s.pending ∧ t.dev.candidate = [] ∧ t.dev.get (shp .spb) SPB.STATUS_STATE = 0 ∧
        s.dev.keeps t.dev [shp .spb]) ∧
      (∃ t, exec .spbVerify s = .next t ∧ t.pending = s.pending ∧ t.dev.get (shp .spb) SPB.STATUS_STATE = 1 ∧ t.dev.candidate = s.dev.candidate ∧
        s.dev.keeps t.dev [shp .spb]) ∧
      (∃ t, exec .spbReadActive s = .next t ∧ t.pending = s.pending ∧ s.dev.keeps t.dev [shp .spb] ∧
        (∀ a : Fin 3392, t.dev.get (shp .spb) SPB.DATA_WORD 0 a = ((rfFind a s.dev.blk).getD 0).toNat) ∧
        t.dev.get (shp .spb) SPB.CAND_ID_ID = bkId s.dev.blk % 2 ^ 32) ∧
      (∀ (sw : BitVec 16) (en : Bool), s.dev.get (shp .spb) SPB.STATUS_STATE = 2 → 1 ≤ s.dev.get (shp .sfc) SFC.STATE_CODE → s.dev.get (shp .sfc) SFC.STATE_CODE ≤ 3 →
        (en = false → ∃ t, exec (.spbSeal sw en) s = .next t ∧ t.pending = s.pending ∧ t.dev.get (shp .spb) SPB.STATUS_STATE = 3 ∧
          t.dev.get (shp .spb) SPB.STATUS_REASON = cSF_SEAL_EN ∧ t.dev.get (shp .sfc) SFC.FAULT_CODE = cSF_SEAL_EN ∧ t.dev.candidate = s.dev.candidate ∧
          t.dev.saf.copy1 = s.dev.saf.copy1 ∧ t.dev.saf.copy2 = s.dev.saf.copy2 ∧ t.dev.memories = s.dev.memories) ∧
        (en = true → (∀ n : Fin 4, (s.dev.vT n).natAbs ≤ 1000 ∧ (s.dev.pV n).natAbs ≤ 1000) → sealCode s.dev.candidate = sw.toNat →
          ∃ t, exec (.spbSeal sw en) s = .next t ∧ t.pending = s.pending ∧ t.dev.get (shp .sfc) SFC.STATE_CODE = 4 ∧ t.dev.allOff = true ∧
            t.dev.get (shp .spb) SPB.STATUS_STATE = 1 ∧ t.dev.saf.sealing = some (s.dev.candidate, s.dev.sealGrp)))) ∧
    (∀ v : Word, s.dev.get (shp .spb) SPB.ADDR_WORD < 3392 →
      let a := s.dev.get (shp .spb) SPB.ADDR_WORD
      ∃ t, exec (.spbDataWrite v) s = .next t ∧ t.pending = s.pending ∧ t.dev.get (shp .spb) SPB.DATA_WORD 0 a = v.toNat ∧
        t.dev.get (shp .spb) SPB.ADDR_WORD = (if a = 3391 then 0 else a + 1) ∧ t.dev.get (shp .spb) SPB.STATUS_STATE = 0 ∧ s.dev.keeps t.dev [shp .spb]) ∧
    (s.dev.get (shp .spb) SPB.STATUS_STATE = 1 →
      (s.dev.loadWhy s.dev.candidate = none → s.dev.get (shp .sfc) SFC.BLOCK_ID_ID < bkId s.dev.candidate →
        ∃ t, exec .spbVerifyDone s = .next t ∧ t.pending = s.pending ∧ t.dev.get (shp .spb) SPB.STATUS_STATE = 2 ∧ s.dev.keeps t.dev [shp .spb]) ∧
      (s.dev.loadWhy s.dev.candidate = none → bkId s.dev.candidate ≤ s.dev.get (shp .sfc) SFC.BLOCK_ID_ID →
        ∃ t, exec .spbVerifyDone s = .next t ∧ t.pending = s.pending ∧ t.dev.get (shp .spb) SPB.STATUS_STATE = 3 ∧
          t.dev.get (shp .spb) SPB.STATUS_REASON = cSF_ROLLBACK ∧ t.dev.get (shp .sfc) SFC.FAULT_CODE = cSF_ROLLBACK ∧
          s.dev.keeps t.dev [shp .spb, shp .sfc]) ∧
      (∀ r, s.dev.loadWhy s.dev.candidate = some r →
        ∃ t, exec .spbVerifyDone s = .next t ∧ t.pending = s.pending ∧ t.dev.get (shp .spb) SPB.STATUS_STATE = 3 ∧
          t.dev.get (shp .spb) SPB.STATUS_REASON = r % 2 ^ 8 ∧ t.dev.get (shp .sfc) SFC.FAULT_CODE = r % 2 ^ 8 ∧ s.dev.keeps t.dev [shp .spb, shp .sfc])) ∧
    (if s.dev.get (shp .sfc) SFC.STATE_CODE = 4 then
      let b := (s.dev.saf.sealing.getD ([], 0)).1
      ∃ t, exec .sealCommitDone s = .next t ∧ t.pending = s.pending ∧ t.dev.saf.copy1 = b ∧ t.dev.saf.copy2 = b ∧
        (∀ (i : Fin 2) (j : Nat), j < 0x3500 → memRead t.dev.mram (Dev.copyAt i + j) = BitVec.ofNat 8 ((bkBytes b 0 0x3500).getD j 0)) ∧
        (∀ x, (∀ i : Fin 2, x < Dev.copyAt i ∨ Dev.copyAt i + 0x3500 ≤ x) → memRead t.dev.mram x = memRead s.dev.mram x) ∧ t.dev.saf.active = none ∧ t.dev.get (shp .sfc) SFC.STATE_CODE = 0 ∧ t.dev.get (shp .spb) SPB.STATUS_STATE = 4
     else exec .sealCommitDone s = .next s) ∧
    (∀ (sw : BitVec 16) (en : Bool) (n : Fin 4), s.dev.safRun = true → sw.toNat ≠ s.dev.get (shp .sfc) SFC.STATE_SEAL_SW → s.dev.safCar n = true →
      s.dev.pairMoves n = true → ∃ t, exec (.sealContactPoll sw en) s = .next t ∧ t.pending = s.pending ∧ bitN (t.dev.sp n).causes 0x13 = 1 ∧
        bitN (t.dev.get (shp .sfc) SFC.PERMIT_RESCUE) n = 0 ∧         t.dev.get (shp .sfc) SFC.STATE_SEAL_SW = sw.toNat ∧ t.dev.safRun = true)

/-- From R314, R315, R318 to R321: a core's DONE counts once its program runs; a snapshot begins a cycle of the active half with the counter advanced,
and a publish ends it; the maximum-cycle watchdog halts the program; a start enters RUNNING with `first_scan` and a STOP leaves it at the end of the
cycle; in STOPPED and HALTED an idle event takes its place. The model's own choices in it: notes/assumptions/2.md, 32.md. -/
def Obligations.TheCycleRuns : Prop :=
  ∀ (s : State) (h : HalfId), s.out = true →
    (∀ (core : Fin 4) (a : BitVec 32) (b : BitVec 8), (s.dev.cyx h).phase = 2 → bitN (s.dev.get (ctl .cyx h) CYX.CORE_MASK_CORES) core = 1 →
      0x08080000 ≤ a.toNat → a.toNat ≤ 0x087FFFFF →
      ∃ t, exec (.cyxDone h core [(a, b)]) s = .next t ∧ t.pending = s.pending ∧ (t.dev.cyx h).done = setBitN (s.dev.cyx h).done core true ∧
        memRead (t.dev.half h).sram a.toNat = b ∧ (∀ x, x ≠ a.toNat → memRead (t.dev.half h).sram x = memRead (s.dev.half h).sram x) ∧
        t.dev.regs = s.dev.regs ∧ t.dev.mram = s.dev.mram) ∧
    (∀ (dt : BitVec 48) (ns : Word), s.dev.active h = true → s.dev.get (ctl .cyx h) CYX.STATE_CODE = 1 → (s.dev.cyx h).phase = 0 →
      (s.dev.cyx h).heldNext = false → (s.dev.cyx h).switchNow = false →
      ∃ t, exec (.cycleSnapshot h dt ns) s = .next t ∧ t.pending = s.pending ∧
        t.dev.get (ctl .cyx h) CYX.CNT_CYCLE = (s.dev.get (ctl .cyx h) CYX.CNT_CYCLE + 1) % 2 ^ 32 ∧ ((t.dev.cyx h).phase = 1 ∨ (t.dev.cyx h).phase = 2) ∧
        (t.dev.cyx h).done = 0 ∧ t.dev.get (ctl .cyx h) CYX.PHASE_SNAP_NS = satU 16 ns.toNat % 2 ^ 16) ∧
    (∀ us ns : Word,
      (s.dev.running h = true → s.dev.get (ctl .cyx h) CYX.STATE_CODE = 1 → s.dev.allDone h = true →
        ∃ t, exec (.cyclePublish h us ns) s = .next t ∧ t.pending = s.pending ∧
          (s.dev.active h = true ∨ s.dev.on (ctl .cyx h) CYX.STATE_LAG = false → (t.dev.cyx h).phase = 0) ∧
          t.dev.get (ctl .cyx h) CYX.CYC_LAST_US = satU 24 us.toNat % 2 ^ 24) ∧
      (s.dev.allDone h = false → exec (.cyclePublish h us ns) s = .next s)) ∧
    (s.dev.active h = true → s.dev.get (ctl .cyx h) CYX.STATE_CODE = 1 → (s.dev.cyx h).phase ≠ 0 → s.dev.allDone h = false →
      s.dev.on (ctl .cyx h) CYX.WDOG_ACT = false →
      ∃ t, exec (.cycWdog h) s = .next t ∧ t.pending = s.pending ∧ t.dev.get (ctl .cyx h) CYX.STATE_CODE = 2 ∧ t.dev.get (ctl .cyx h) HDR.ERR_CODE = cCYC_WDOG ∧
        (t.dev.cyx h).phase = 0 ∧ (s.dev.holds h = true → bitN t.dev.fio.causes 3 = 1)) ∧
    (∀ (i : Instr) (cold : Bool), (i = .cyxWarm h ∧ cold = false ∨ i = .cyxCold h ∧ cold = true) → s.dev.active h = true →
      (s.dev.prog? h).isSome = true → s.dev.get (ctl .cyx h) CYX.STATE_CODE ≠ 1 →
      ∃ t, exec i s = .next t ∧ t.pending = s.pending ∧ t.dev.get (ctl .cyx h) CYX.STATE_CODE = 1 ∧ t.dev.get (ctl .cyx h) CYX.STATE_FIRST = 1 ∧
        t.dev.on (ctl .cyx h) CYX.STATE_COLD = (cold || !(s.dev.cyx h).valid) ∧ (t.dev.cyx h).valid = true ∧
        ((cold || !(s.dev.cyx h).valid) = true → (t.dev.cyx h).cells = (s.dev.prog h).cells.map Cell.init)) ∧
    (s.dev.active h = true → s.dev.get (ctl .cyx h) CYX.STATE_CODE = 1 →
      ((s.dev.cyx h).phase ≠ 0 ∨ (s.dev.cyx h).switchNow = true → ∃ t, exec (.cyxStop h) s = .next t ∧ t.pending = s.pending ∧ (t.dev.cyx h).stopReq = true ∧
        t.dev.get (ctl .cyx h) CYX.STATE_CODE = 1) ∧
      ((s.dev.cyx h).phase = 0 → (s.dev.cyx h).switchNow = false → ∃ t, exec (.cyxStop h) s = .next t ∧ t.pending = s.pending ∧ t.dev.get (ctl .cyx h) CYX.STATE_CODE = 0 ∧
        (s.dev.holds h = true → bitN t.dev.fio.causes 3 = 1))) ∧
    (if s.dev.active h = true ∧ s.dev.cyxIdle h = true then
      ∃ t, exec (.idleCycleEvent h) s = .next t ∧ t.pending = s.pending ∧ t.dev.mram = s.dev.mram ∧
        (s.dev.shadow = [] → s.dev.mirrors h.other = false →
          t.dev.get (ctl .cyx h) CYX.CNT_CYCLE = (s.dev.get (ctl .cyx h) CYX.CNT_CYCLE + 1) % 2 ^ 32)
     else exec (.idleCycleEvent h) s = .next s)

/-- From R334, R336, R337, R339 and R340: an on-line change goes from LOAD over LOADED and ARMED to the switch, where the new image runs from the
other bank with `first_scan`; a command out of turn leaves the state with OLC_STATE; a failed copy is FAILED; CLR_ALL stages EN = 0 in every force;
FIND selects the cell of an identifier. The model's own choices in it: notes/assumptions/32.md. -/
def Obligations.OnLineChange : Prop :=
  ∀ (s : State) (h : HalfId), s.out = true →
    (s.dev.active h = true → s.dev.get (ctl .cyx h) CYX.STATE_CODE = 1 → (s.dev.olc h = 0 ∨ s.dev.olc h = 5 ∨ s.dev.olc h = 6) →
      let a := s.dev.get (ctl .cyx h) CYX.OLC_SRC_OFS * 65536
      (∀ i : Image, s.dev.imgWhy s.dev.mram a = none → Dev.imgLoad s.dev.mram a = some i → s.dev.olcWhy h (s.dev.prog h) i.prog = none →
        ∃ t, exec (.olcLoad h) s = .next t ∧ t.pending = s.pending ∧ t.dev.olc h = 1 ∧ (t.dev.cyx h).idle = some i ∧ (t.dev.cyx h).img = (s.dev.cyx h).img ∧
          s.dev.keeps t.dev [ctl .cyx h]) ∧
      (∀ w, s.dev.imgWhy s.dev.mram a = some w →
        ∃ t, exec (.olcLoad h) s = .next t ∧ t.pending = s.pending ∧ t.dev.olc h = 6 ∧ (t.dev.cyx h).idle = none ∧
          t.dev.get (ctl .cyx h) CYX.OLC_STAT_REASON = (if w = cRANGE then cSIGNATURE else w) % 2 ^ 8 ∧ s.dev.keeps t.dev [ctl .cyx .a, ctl .cyx .b]) ∧
      (∀ (i : Image) (w : Nat × Nat), s.dev.imgWhy s.dev.mram a = none → Dev.imgLoad s.dev.mram a = some i →
        s.dev.olcWhy h (s.dev.prog h) i.prog = some w →
        ∃ t, exec (.olcLoad h) s = .next t ∧ t.pending = s.pending ∧ t.dev.olc h = 6 ∧ (t.dev.cyx h).idle = none ∧
          t.dev.get (ctl .cyx h) CYX.OLC_STAT_REASON = w.1 % 2 ^ 8 ∧ t.dev.get (ctl .cyx h) HDR.ERR_DETAIL = w.2 % 2 ^ 16 ∧
          (s.dev.mirrors h.other = true → t.dev.olc h.other = 6) ∧ s.dev.keeps t.dev [ctl .cyx .a, ctl .cyx .b])) ∧
    (∀ i : Instr, s.dev.active h = true →
      (i = .olcLoad h ∧ s.dev.get (ctl .cyx h) CYX.STATE_CODE ≠ 1 ∨ i = .olcSwitch h ∧ s.dev.olc h ≠ 2 ∨ i = .olcCancel h ∧ s.dev.olc h ≠ 2 ∧ s.dev.olc h ≠ 3) →
      ∃ t, exec i s = .next t ∧ t.pending = s.pending ∧ t.dev.olc h = s.dev.olc h ∧ t.dev.get (ctl .cyx h) HDR.ERR_CODE = cOLC_STATE ∧
        t.dev.cyx h = s.dev.cyx h ∧ s.dev.keeps t.dev [ctl .cyx h]) ∧
    (∀ i : Image, s.dev.active h = true → s.dev.olc h = 1 → (s.dev.cyx h).idle = some i →
      (let lay := s.dev.prog h
       let a := Dev.bankAt lay (1 - s.dev.get (ctl .cyx h) CYX.IMG_BANK)
       ∃ t, exec (.olcLoadDone h true) s = .next t ∧ t.pending = s.pending ∧ t.dev.olc h = 2 ∧ (t.dev.cyx h).idle = some i ∧
        (s.dev.mirrors h.other = true → t.dev.olc h.other = 2 ∧ (t.dev.cyx h.other).idle = some i) ∧
        (∀ j, j < lay.bank → memRead (t.dev.half h).sram (a + j) = BitVec.ofNat 8 (i.prog.code.getD j 0)) ∧
        (∀ x, x < a ∨ a + lay.bank ≤ x → memRead (t.dev.half h).sram x = memRead (s.dev.half h).sram x) ∧ t.dev.mram = s.dev.mram ∧
        (∀ k, keyPage k ≠ ctl .cyx .a → keyPage k ≠ ctl .cyx .b → rfFind k t.dev.regs = rfFind k s.dev.regs)) ∧
      (∃ t, exec (.olcLoadDone h false) s = .next t ∧ t.pending = s.pending ∧ t.dev.olc h = 6 ∧ (t.dev.cyx h).idle = none ∧
        t.dev.get (ctl .cyx h) CYX.OLC_STAT_REASON = cECC ∧ s.dev.keeps t.dev [ctl .cyx .a, ctl .cyx .b])) ∧
    (s.dev.active h = true → s.dev.get (ctl .cyx h) CYX.STATE_CODE = 1 →
      (s.dev.olc h = 2 → ∃ t, exec (.olcSwitch h) s = .next t ∧ t.pending = s.pending ∧ t.dev.olc h = 3 ∧ s.dev.keeps t.dev [ctl .cyx h]) ∧
      (s.dev.olc h = 2 ∨ s.dev.olc h = 3 → ∃ t, exec (.olcCancel h) s = .next t ∧ t.pending = s.pending ∧ t.dev.olc h = 0 ∧ (t.dev.cyx h).idle = none ∧
        (t.dev.cyx h).img = (s.dev.cyx h).img ∧ (t.dev.cyx h).switchNow = false ∧
        ((s.dev.cyx h).switchNow = false → s.dev.keeps t.dev [ctl .cyx .a, ctl .cyx .b]))) ∧
    (∀ (i : Image) (ns : BitVec 16), (s.dev.cyx h).switchNow = true → (s.dev.cyx h).idle = some i →
      ∃ t, exec (.olcSwitchExec h ns) s = .next t ∧ t.pending = s.pending ∧ (t.dev.cyx h).img = some i ∧ (t.dev.cyx h).old = (s.dev.cyx h).img ∧
        t.dev.olc h = 4 ∧ t.dev.get (ctl .cyx h) CYX.STATE_FIRST = 1 ∧
        t.dev.get (ctl .cyx h) CYX.IMG_BANK = (1 - s.dev.get (ctl .cyx h) CYX.IMG_BANK) % 2 ^ CYX.IMG_BANK.w) ∧
    (∀ c : CycState, s.dev.olc h = 4 → (s.dev.cyx h.other).shadow = some c →
      (c.bank = s.dev.get (ctl .cyx h) CYX.IMG_BANK → ∃ t, exec (.olcDone h) s = .next t ∧ t.pending = s.pending ∧ t.dev.olc h = 5 ∧ t.dev.olc h.other = 5 ∧ (t.dev.cyx h).old = none ∧
        s.dev.keeps t.dev [ctl .cyx .a, ctl .cyx .b]) ∧
      (c.bank ≠ s.dev.get (ctl .cyx h) CYX.IMG_BANK → exec (.olcDone h) s = .next s)) ∧
    (∀ (mid : BitVec 8) (m : Bool), s.dev.active h = true →
      ∃ t, exec (.frcClrAll h mid m) s = .next t ∧ t.pending = s.pending ∧ s.dev.keeps t.dev [ctl .frc h] ∧
        ∀ n : Fin 512, t.dev.view (ctl .frc h) none FRC.CFG_EN 0 n = 0 ∧ t.dev.get (ctl .frc h) FRC.CFG_EN 0 n = s.dev.get (ctl .frc h) FRC.CFG_EN 0 n) ∧
    (∀ id : Word, let at_ (edge : Bool) : Option Nat := ((s.dev.cyx h).cells.filter (fun c => c.def_.edge == edge)).findIdx? (fun c => c.def_.id == id.toNat)
      ∃ t, exec (.tmcFind h id) s = .next t ∧ t.pending = s.pending ∧ s.dev.keeps t.dev [ctl .tmc h] ∧
        t.dev.get (ctl .tmc h) TMC.FIND_HIT = (if (at_ false).isSome ∨ (at_ true).isSome then 1 else 0) ∧
        (∀ k, at_ false = some k → t.dev.get (ctl .tmc h) TMC.SEL_IDX = k % 2 ^ TMC.SEL_IDX.w ∧ t.dev.get (ctl .tmc h) TMC.SEL_EDGE = 0) ∧
        (∀ k, at_ false = none → at_ true = some k → t.dev.get (ctl .tmc h) TMC.SEL_IDX = k % 2 ^ TMC.SEL_IDX.w ∧ t.dev.get (ctl .tmc h) TMC.SEL_EDGE = 1))

/-- From R331, R332, R350, R352 to R354: the standby takes the state of the active half: a cycle's state at its end marker, the servo state of a
period when it arrives whole; it begins its cycle at the marker and shows LAG when it cannot; three missed servo states in a row and enough
differences end STANDBY_SYNC, and the whole of R353 restores it. The model's own choices in it: notes/assumptions/22.md, 32.md, 55.md, 69.md. -/
def Obligations.TheStandbyFollows : Prop :=
  ∀ (s : State) (h : HalfId), s.out = true →
    (∀ (c : CycState) (rest : List CycState), s.dev.active h = false → s.dev.running h = true → s.dev.mirUp = true → (s.dev.cyx h).rxq = c :: rest →
      let buf := c.shadowAt + c.area.2
      let next_ := (rest.head?).map (fun n => (n.shadowAt + n.area.2, n.area.2))
      ∃ t, exec (.shadowCopy h) s = .next t ∧ t.pending = s.pending ∧ (t.dev.cyx h).shadow = some { c with ret := [] } ∧ (t.dev.cyx h).rxq = rest ∧
        t.dev.get (ctl .cyx h) CYX.SHADOW_CYC = c.cyc % 2 ^ CYX.SHADOW_CYC.w ∧
        (rest = [] → ∀ j, j < c.area.2 → memRead (t.dev.half h).sram (c.shadowAt + j) = memRead (s.dev.half h).sram (buf + j)) ∧
        (∀ x, (x < c.shadowAt ∨ buf ≤ x) → (∀ n, next_ = some n → x < n.1 ∨ n.1 + n.2 ≤ x) →
          memRead (t.dev.half h).sram x = memRead (s.dev.half h).sram x) ∧
        (t.dev.half h.other).sram = (s.dev.half h.other).sram ∧ t.dev.mram = s.dev.mram) ∧
    (∀ (dt : BitVec 48) (ns : Word), s.dev.active h = false → s.dev.running h = true → (s.dev.cyx h).waiting = 1 →
      ((s.dev.cyx h).phase ≠ 0 → ∃ t, exec (.cycleMarker h dt ns) s = .next t ∧ t.pending = s.pending ∧ t.dev.get (ctl .cyx h) CYX.STATE_LAG = 1 ∧
        (t.dev.cyx h).late = some (dt.toNat, ns.toNat) ∧ (t.dev.cyx h).phase = (s.dev.cyx h).phase ∧ t.dev.memories = s.dev.memories) ∧
      ((s.dev.cyx h).phase = 0 → (s.dev.cyx h).valid = true → s.dev.get (ctl .cyx h) CYX.STATE_CODE = 1 →
        ∃ t, exec (.cycleMarker h dt ns) s = .next t ∧ t.pending = s.pending ∧ t.dev.get (ctl .cyx h) CYX.CNT_CYCLE = (s.dev.cyx h).marker % 2 ^ 32 ∧
          t.dev.get (ctl .cyx h) CYX.STATE_LAG = 0 ∧ ((t.dev.cyx h).phase = 1 ∨ (t.dev.cyx h).phase = 2))) ∧
    (∀ b : ServoState, (s.dev.hlf h).servoBuf = some b → s.dev.mirrors h = true → s.dev.on (ctl .hlf h) HLF.CFG_CMP_SERVO = false →
      ∃ t, exec (.servoStateReceive h) s = .next t ∧ t.pending = s.pending ∧ (t.dev.half h).mpg = b.mpg ∧ (t.dev.half h).dax = b.dax ∧
        (t.dev.half h).servoCnt = b.cnt ∧ (t.dev.hlf h).servoBuf = none ∧ t.dev.memories = s.dev.memories) ∧
    (s.dev.hlfState h = 1 → s.dev.mirUp = true →
      ∃ t, exec (.servoStateMiss h) s = .next t ∧ t.pending = s.pending ∧ (t.dev.hlf h).servoBuf = none ∧
        t.dev.get (ctl .mir h) MIR.SMISS_COUNT = satU 16 (s.dev.get (ctl .mir h) MIR.SMISS_COUNT + 1) % 2 ^ 16 ∧
        t.dev.hlfState h = (if (s.dev.hlf h).missRun ≥ 2 then 2 else 1) ∧ t.dev.memories = s.dev.memories) ∧
    (s.dev.hlfState h = 1 → let n := s.dev.get (ctl .hlf h) HLF.CFG_DIS_N
      if n ≠ 0 ∧ ((s.dev.hlf h).disRun ≥ n ∨ (s.dev.hlf h).disCyc ≥ n) then
        ∃ t, exec (.disagree h) s = .next t ∧ t.pending = s.pending ∧ t.dev.hlfState h = 2 ∧ t.dev.get (ctl .hlf h) HLF.STATE_CAUSE = 7 ∧
          t.dev.memories = s.dev.memories
      else exec (.disagree h) s = .next s) ∧
    (if s.dev.resyncOk h = true then
      ∃ t, exec (.resyncComplete h) s = .next t ∧ t.pending = s.pending ∧ t.dev.hlfState h = 1 ∧ t.dev.get (ctl .hlf h) HLF.STATE_CAUSE = 0xA ∧
        t.dev.get (ctl .hlf h) HLF.EPOCH_KNOWN = s.dev.get (shp .wir) WIR.LEASE_EPOCH % 2 ^ 16 ∧ t.dev.memories = s.dev.memories
     else exec (.resyncComplete h) s = .next s) ∧
    (∀ e : LinkErr, s.dev.mirUp = true → ∃ t, exec (.mirPacketCrcFail h e) s = .next t ∧ t.pending = s.pending ∧
      (e ≠ .lock → t.dev.get (ctl .mir h) MIR.CRC_ERR_COUNT = satU 16 (s.dev.get (ctl .mir h) MIR.CRC_ERR_COUNT + 1) % 2 ^ 16) ∧
      (e = .crc → t.dev.get (ctl .mir h.other) MIR.RESEND_COUNT = satU 16 (s.dev.get (ctl .mir h.other) MIR.RESEND_COUNT + 1) % 2 ^ 16) ∧
      (e ≠ .crc → ∀ q : HalfId, s.dev.outOfReset q = true → t.dev.on (ctl .mir q) MIR.LINK_TRAIN = true) ∧
      s.dev.keeps t.dev [ctl .mir .a, ctl .mir .b]) ∧
    (s.dev.mirUp = true → ∃ t, exec .mirLinkDown s = .next t ∧ t.pending = s.pending ∧ t.dev.mirUp = false ∧ t.dev.on (ctl .mir .b) MIR.LINK_UP = false ∧
      (t.dev.hlf h).servoBuf = none ∧ (s.dev.hlfState h = 1 → t.dev.get (ctl .hlf h) HLF.STATE_PEER_QUIET = 1) ∧ t.dev.memories = s.dev.memories) ∧
    (∀ lanes : BitVec 4, lanes ≠ 0 → s.dev.outOfReset .a = true → s.dev.outOfReset .b = true →
      ∃ t, exec (.mirLinkUp lanes) s = .next t ∧ t.pending = s.pending ∧ t.dev.mirUp = true ∧ t.dev.get (ctl .mir h) MIR.LINK_UP = 1 ∧
        t.dev.get (ctl .mir h) MIR.LINK_LANES = lanes.toNat ∧
        t.dev.get (ctl .mir h) MIR.LINK_WIDTH = (if popc 4 lanes.toNat = 4 then 3 else if popc 4 lanes.toNat ≥ 2 then 2 else 1) ∧
        t.dev.memories = s.dev.memories)

/-- From R344 to R349, R356: a renewal with the epoch in force keeps the lease; the lease ends by expiry and by release, and no output changes with
that; a half abort takes the half OFFLINE; a claim against a valid lease fences the claimant, and another waits for its window, whose winner becomes
ACTIVE with a new grant; without a grant the device safe state follows. The model's own choices in it: notes/assumptions/2.md, 42.md. -/
def Obligations.TheLeaseMoves : Prop :=
  ∀ (s : State) (h : HalfId), s.out = true →
    (∀ e : BitVec 16, s.dev.active h = true → s.dev.holds h = true → s.dev.get (shp .wir) WIR.LEASE_EPOCH = e.toNat →
      ∃ t, exec (.leaseRenewal h e) s = .next t ∧ t.pending = s.pending ∧ t.dev.holds h = true ∧ t.dev.get (shp .wir) WIR.LEASE_AGE = 0 ∧
        t.dev.get (shp .wir) WIR.RENEW_COUNT = (s.dev.get (shp .wir) WIR.RENEW_COUNT + 1) % 2 ^ 32 ∧ t.dev.weir.ticks = 0) ∧
    (s.dev.on (shp .wir) WIR.LEASE_VALID = true → ∃ t, exec .leaseExpiry s = .next t ∧ t.pending = s.pending ∧
      t.dev.on (shp .wir) WIR.LEASE_VALID = false ∧ t.dev.holder = s.dev.holder ∧ t.dev.fio = s.dev.fio ∧ t.dev.saf = s.dev.saf ∧
      t.dev.memories = s.dev.memories) ∧
    (∀ (i : Instr) (rel : Bool), (i = .halfAbort h ∧ rel = true ∨ i = .hclkOutOfRange h rel) →
      (s.dev.hlfState h ≤ 2 → ∃ t, exec i s = .next t ∧ t.pending = s.pending ∧ t.dev.hlfState h = 4 ∧ t.dev.get (ctl .hlf h) HLF.STATE_CAUSE = 8 ∧
        (t.dev.hlf h).faulted = true ∧ (s.dev.holds h = true → t.dev.holds h = !rel) ∧ t.dev.hlfState h.other = s.dev.hlfState h.other ∧
        t.dev.mram = s.dev.mram) ∧
      (s.dev.hlfState h > 2 → exec i s = .next s)) ∧
    ((s.dev.hlfState h ≤ 2 ∨ s.dev.hlfState h = 5 ∧ (s.dev.hlf h).ready = true) → s.dev.holds h = false →
      (s.dev.on (shp .wir) WIR.LEASE_VALID = true → ∃ t, exec (.standbyClaim h) s = .next t ∧ t.pending = s.pending ∧ t.dev.hlfState h = 3 ∧
        bitN (t.dev.get (shp .wir) WIR.FENCE_LINES) h.n = 1 ∧ t.dev.get (shp .wir) HDR.ERR_CODE = cWIR_REFUSED ∧
        t.dev.on (shp .wir) WIR.LEASE_VALID = true ∧ t.dev.holder = s.dev.holder) ∧
      (s.dev.on (shp .wir) WIR.LEASE_VALID = false → s.dev.hlfState h ≠ 0 → ∃ t, exec (.standbyClaim h) s = .next t ∧ t.pending = s.pending ∧
        (h, (s.dev.get (ctl .hlf h) HLF.EPOCH_KNOWN + 1) % 65536) ∈ t.dev.weir.claims ∧ t.dev.get (shp .wir) WIR.LEASE_WIN = 1 ∧
        t.dev.hlfState h = s.dev.hlfState h ∧ s.dev.keeps t.dev [shp .wir])) ∧
    (∀ (gap : BitVec 20) (dt : BitVec 48) (e : Nat), s.dev.on (shp .wir) WIR.LEASE_WIN = true → s.dev.winner = some (h, e) →
      (s.dev.hlfState h = 1 ∨ s.dev.hlfState h = 2) → s.dev.active h.other = false → (∀ c ∈ s.dev.weir.claims, c.1 = h) →
      s.dev.get (ctl .shl h) SHL.SUB_TAIL_IDX = s.dev.get (ctl .shl h) SHL.SUB_HEAD_IDX →
      (∀ c, (s.dev.cyx h).shadow = some c → ∀ x ∈ c.frc, x.1 < pageSpan) →
      ∃ t, exec (.claimWindowEnd gap dt) s = .next t ∧ t.pending = s.pending ∧ t.dev.holds h = true ∧ t.dev.hlfState h = 0 ∧
        t.dev.get (shp .wir) WIR.LEASE_EPOCH = e % 2 ^ 16 ∧
        t.dev.get (shp .wir) WIR.GRANTS_COUNT = (s.dev.get (shp .wir) WIR.GRANTS_COUNT + 1) % 2 ^ 16 ∧
        t.dev.get (ctl .hlf h) HLF.TAKE_COLD = (if s.dev.hlfState h = 2 then 1 else 0) ∧ t.dev.get (ctl .hlf h) HLF.GAP_US = gap.toNat ∧
        (s.dev.hlfState h = 2 → bitN t.dev.fio.causes 5 = 1)) ∧
    (∀ e e' : Nat, s.dev.weir.claims = [(.a, e), (.b, e')] → s.dev.outOfReset .a = true → s.dev.outOfReset .b = true → e < 65536 → e' < 65536 →
      s.dev.winner = (if epochHigher e e' = true then some (.a, e) else if epochHigher e' e = true then some (.b, e')
        else if bitN (s.dev.get (shp .bot) BOT.STRAP_RAW) 2 = 1 then some (.b, e') else some (.a, e))) ∧
    (if s.dev.on (shp .wir) WIR.LEASE_VALID = true then exec .weirNohold s = .next s
     else ∃ t, exec .weirNohold s = .next t ∧ t.pending = s.pending ∧ t.dev.get (shp .wir) WIR.SAFE_NOHOLD = 1 ∧ t.dev.get (shp .wir) HDR.ERR_CODE = cWIR_NOHOLD ∧
        bitN t.dev.fio.causes 4 = 1 ∧ t.dev.memories = s.dev.memories) ∧
    (∀ n : Fin 4, s.dev.shaped = true → s.dev.safRun = true → s.dev.safCar n = true → s.dev.pairMoves n = true →
      ∃ t, exec .intentTimeout s = .next t ∧ t.pending = s.pending ∧ bitN (t.dev.sp n).causes 0x14 = 1 ∧
        (bitN (s.dev.sp n).causes 0x14 = 0 → bitN (s.dev.get (shp .sfc) SFC.STOPS_CAT0) n = 0 → (s.dev.th n).causes = 0 → bitN (t.dev.get (shp .sfc) SFC.STOPS_CAT1) n = 1))

/-- From R359, R360, R363, R365 and R366: a proof swap is armed only with a standby in step, releases the lease at its cycle, and its proof sets both
proof ages to 0; peer commands reset, hold and release the other half; one automatic restart follows a fault; REPAIR without failures makes its half
ready, and it then joins the half that holds the lease. The model's own choices in it: notes/assumptions/42.md, 57.md, 69.md. -/
def Obligations.SwapsAndRepairs : Prop :=
  ∀ (s : State) (h : HalfId), s.out = true →
    (s.dev.active h = true → s.dev.hlfState h.other = 1 → s.dev.get (ctl .cyx h.other) CYX.SHADOW_LAG ≤ 1 → (s.dev.olc h < 2 ∨ 4 < s.dev.olc h) →
      s.dev.get (ctl .hlf h) HLF.SWAP_ST_STATE ≠ 1 → s.dev.get (ctl .hlf h) HLF.SWAP_ST_STATE ≠ 2 →
      ∃ t, exec (.swap h) s = .next t ∧ t.pending = s.pending ∧ (∀ q : HalfId, t.dev.get (ctl .hlf q) HLF.SWAP_ST_STATE = 1) ∧
        s.dev.keeps t.dev [ctl .hlf .a, ctl .hlf .b]) ∧
    (s.dev.active h = true → s.dev.hlfState h.other ≠ 1 →
      ∃ t, exec (.swap h) s = .next t ∧ t.pending = s.pending ∧ t.dev.get (ctl .hlf h) HLF.SWAP_ST_REASON = cHLF_PEER_STATE ∧
        t.dev.get (ctl .hlf h) HDR.ERR_CODE = cHLF_PEER_STATE ∧ t.dev.get (ctl .hlf h) HLF.SWAP_ST_STATE = s.dev.get (ctl .hlf h) HLF.SWAP_ST_STATE ∧
        s.dev.keeps t.dev [ctl .hlf h]) ∧
    (∀ c : CycState, s.dev.holds h = true → s.dev.get (ctl .hlf h) HLF.SWAP_ST_STATE = 1 → s.dev.hlfState h.other = 1 → (s.dev.cyx h).heldNext = true →
      (s.dev.cyx h.other).shadow = some c → c.cyc = s.dev.get (ctl .cyx h) CYX.CNT_CYCLE → s.dev.weir.proof = none →
      ∃ t, exec (.swapRelease h) s = .next t ∧ t.pending = s.pending ∧ t.dev.on (shp .wir) WIR.LEASE_VALID = false ∧ t.dev.weir.swapBy = some h ∧
        (∀ q : HalfId, t.dev.get (ctl .hlf q) HLF.SWAP_ST_STATE = 2) ∧ t.dev.fio = s.dev.fio ∧ t.dev.memories = s.dev.memories) ∧
    (s.dev.weir.proof = some (h, true, 0) → ∃ t, exec .swapProofDone s = .next t ∧ t.pending = s.pending ∧ t.dev.weir.proof = none ∧
      (∀ q : HalfId, t.dev.get (ctl .hlf q) (match h with | .a => HLF.PROOF_AGE_A | .b => HLF.PROOF_AGE_B) = 0) ∧
      (s.dev.get (ctl .hlf h) HLF.SWAP_ST_STATE = 2 → ∀ q : HalfId, t.dev.get (ctl .hlf q) HLF.SWAP_ST_STATE = 3) ∧
      (s.dev.store.proofAt.length = 2 → t.dev.store.proofAt.getD h.n none = some s.dev.now) ∧
      s.dev.keeps t.dev [ctl .hlf .a, ctl .hlf .b, shp .slt]) ∧
    (if s.dev.active h = true ∧ s.dev.get (ctl .hlf h) HLF.SWAP_ST_STATE = 1 then
      ∃ t, exec (.swapCancel h) s = .next t ∧ t.pending = s.pending ∧ (∀ q : HalfId, t.dev.get (ctl .hlf q) HLF.SWAP_ST_STATE = 0) ∧
        (t.dev.cyx h).heldNext = false ∧ s.dev.keeps t.dev [ctl .hlf .a, ctl .hlf .b]
     else exec (.swapCancel h) s = .next s) ∧
    (s.dev.active h = false → s.dev.outOfReset h = true → s.dev.proofAge h ≥ s.dev.get (ctl .hlf h) HLF.SWAP_DUE_H →
      ∃ t, exec (.proofAgeDue h) s = .next t ∧ t.pending = s.pending ∧ t.dev.get (ctl .hlf h) HDR.ERR_CODE = cHLF_SWAP_DUE ∧
        bitN (t.dev.get (ctl .hlf h) HDR.STAT_BLOCK) 3 = 1 ∧ s.dev.keeps t.dev [ctl .hlf .a, ctl .hlf .b, shp .slt]) ∧
    (s.dev.active h = true → s.dev.active h.other = false →
      ((s.dev.hlf h.other).hold = false → s.dev.inputOk h.other = true →
        ∃ t, exec (.resetPeer h) s = .next t ∧ t.pending = s.pending ∧ t.dev.hlfState h.other = 5 ∧ t.dev.active h = true ∧ t.dev.mram = s.dev.mram) ∧
      (∃ t, exec (.holdPeer h) s = .next t ∧ t.pending = s.pending ∧ t.dev.hlfState h.other = 4 ∧ (t.dev.hlf h.other).hold = true ∧ t.dev.active h = true) ∧
      ((s.dev.hlf h.other).hold = true → s.dev.inputOk h.other = true → ∃ t, exec (.releasePeer h) s = .next t ∧ t.pending = s.pending ∧
        t.dev.hlfState h.other = 5 ∧ (t.dev.hlf h.other).hold = false ∧ t.dev.active h = true)) ∧
    (s.dev.active h = false → ∀ i : Instr, (i = .resetPeer h ∨ i = .holdPeer h ∨ i = .releasePeer h) →
      ∃ t, exec i s = .next t ∧ t.pending = s.pending ∧ t.dev.get (ctl .hlf h) HDR.ERR_CODE = cHLF_PEER_STATE ∧ s.dev.keeps t.dev [ctl .hlf h]) ∧
    (s.dev.hlfState h = 4 → (s.dev.hlf h).faulted = true → (s.dev.hlf h).hold = false → s.dev.running h.other = true →
      s.dev.on (ctl .hlf h.other) HLF.CFG_AUTO_REJOIN = true → s.dev.inputOk h = true →
      let recent := (s.dev.hlf h).restarts.filter (fun t => decide (s.dev.now < t + day24))
      ∃ t, exec (.autoRejoin h true) s = .next t ∧ t.pending = s.pending ∧ (t.dev.hlf h).faulted = false ∧
        (recent.length < 3 → t.dev.hlfState h = 5 ∧ (t.dev.hlf h).restarts = recent ++ [s.dev.now]) ∧
        (recent.length ≥ 3 → t.dev.hlfState h = 4 ∧ t.dev.get (ctl .hlf h) HLF.STATE_CAUSE = 0xE)) ∧
    (s.dev.hlfState h = 5 →
      (∃ t, exec (.repairEntry h []) s = .next t ∧ t.pending = s.pending ∧ (t.dev.hlf h).ready = true ∧ t.dev.hlfState h = 5 ∧ t.dev.mirUp = false ∧
        t.dev.on (ctl .mir h) MIR.LINK_TRAIN = true) ∧
      ((s.dev.hlf h).ready = true → s.dev.weir.strobed = true → s.dev.on (shp .wir) WIR.LEASE_VALID = true → s.dev.bootGen.1 = none →
        ∃ t, exec (.repairDone h) s = .next t ∧ t.pending = s.pending ∧ t.dev.hlfState h = 2 ∧ t.dev.get (ctl .hlf h) HLF.STATE_CAUSE = 9) ∧
      (s.dev.weir.strobed = false → exec (.repairDone h) s = .next s))

/-- From R401, R402 and R405 to R407: a request of a buffer of the firmware is pending, or ends at once where the controller cannot send, and one of a
buffer that a lane or the program owns is refused; a cancel ends a request that has not begun; an attempt ends with its result; a frame from the bus
takes an entry of the receive queue, or is counted when the queue is full; an acknowledgement frees entries. The model's own choices in it:
notes/assumptions/36.md. -/
def Obligations.CanFramesAreSentAndQueued : Prop :=
  ∀ (s : State) (c : Fin 4), s.out = true → s.dev.shaped = true →
    (∀ (q : Fin 4) (b : Fin 32), let k := 32 * q.val + b.val
      let bits := BitVec.ofNat 32 (2 ^ b.val)
      (s.dev.canSrc c k ≠ 0 → ∃ t, exec (.txReq c q bits) s = .next t ∧ t.pending = s.pending ∧ t.dev.get (pgCan c) HDR.ERR_CODE = cCAN_TX_OWNED ∧
        t.dev.canPend c k = s.dev.canPend c k ∧ s.dev.keeps t.dev [pgCan c]) ∧
      (s.dev.canSrc c k = 0 → s.dev.canPend c k = true → exec (.txReq c q bits) s = .next s) ∧
      (s.dev.canSrc c k = 0 → s.dev.canPend c k = false → s.dev.canHeaderOk c k = false → ∃ t, exec (.txReq c q bits) s = .next t ∧ t.pending = s.pending ∧
        t.dev.get (pgCan c) HDR.ERR_CODE = cRANGE ∧ t.dev.canPend c k = false ∧ s.dev.keeps t.dev [pgCan c]) ∧
      (s.dev.canSrc c k = 0 → s.dev.canPend c k = false → s.dev.canHeaderOk c k = true → ∃ t, exec (.txReq c q bits) s = .next t ∧ t.pending = s.pending ∧
        (match s.dev.canWhyNot c with
         | none => t.dev.canPend c k = true ∧ t.dev.get (pgCan c) CAN.TXB_ST_RESULT 0 k = 1
         | some w => t.dev.canPend c k = false ∧ t.dev.get (pgCan c) CAN.TXB_ST_RESULT 0 k = 6 ∧ t.dev.get (pgCan c) CAN.TXB_ST_WHY 0 k = w ∧
             bitN (t.dev.get (pgCan c) CAN.TX_FAIL_BITS q) b = 1) ∧ s.dev.keeps t.dev [pgCan c]) ∧
      (if s.dev.canPend c k = true ∧ (s.dev.canCh c).begun ≠ some k then
        ∃ t, exec (.txCancel c q bits) s = .next t ∧ t.pending = s.pending ∧ t.dev.canPend c k = false ∧ t.dev.get (pgCan c) CAN.TXB_ST_RESULT 0 k = 5 ∧
          bitN (t.dev.get (pgCan c) CAN.TX_DONE_BITS q) b = 1 ∧ s.dev.keeps t.dev [pgCan c]
       else exec (.txCancel c q bits) s = .next s)) ∧
    (∀ (k : Fin 128) (arb : Bool) (lec : BitVec 3) (sof : Sof) (tdc : Option (BitVec 7)),
      (s.dev.canRuns c k = false → ∀ sent, exec (.canTxEnd c k sent arb lec sof tdc) s = .next s) ∧
      (s.dev.canRuns c k = true → (s.dev.canCh c).again = true → (s.dev.canCh c).begun.isSome = true → s.dev.canWhyNot c = none →
        ∃ t, exec (.canTxEnd c k false arb lec sof tdc) s = .next t ∧ t.pending = s.pending ∧ t.dev.canPend c k = true ∧
          t.dev.get (pgCan c) CAN.TXB_ST_RESULT 0 k = 1 ∧ (t.dev.canCh c).begun = none ∧ s.dev.keeps t.dev [pgCan c]) ∧
      (s.dev.canRuns c k = true → ((s.dev.canCh c).again = false ∨ (s.dev.canCh c).begun = none) → s.dev.get (pgCan c) CAN.RX_HEAD_IDX < 1024 →
        (∃ t, exec (.canTxEnd c k true arb lec sof tdc) s = .next t ∧ t.pending = s.pending ∧ t.dev.canPend c k = false ∧
          t.dev.get (pgCan c) CAN.TXB_ST_RESULT 0 k = 2 ∧ t.dev.get (pgCan c) CAN.ERRC_TEC = (s.dev.get (pgCan c) CAN.ERRC_TEC - 1) % 2 ^ 9 ∧
          t.dev.get (pgCan c) CAN.BUS_ACKRUN = 0 ∧ (t.dev.canCh c).begun = none ∧ s.dev.keeps t.dev [pgCan c, shp .slt]) ∧
        (∃ t, exec (.canTxEnd c k false arb lec sof tdc) s = .next t ∧ t.pending = s.pending ∧ t.dev.canPend c k = false ∧
          t.dev.get (pgCan c) CAN.TXB_ST_RESULT 0 k = (if arb then 3 else 4) ∧ t.dev.get (pgCan c) CAN.TXB_ST_LEC 0 k = (if arb then 0 else lec.toNat) ∧
          bitN (t.dev.get (pgCan c) CAN.TX_FAIL_BITS (k.val / 32)) (k.val % 32) = 1 ∧ (t.dev.canCh c).begun = none ∧ s.dev.keeps t.dev [pgCan c]))) ∧
    (∀ (id : BitVec 29) (ide fdf brs rtr esi : Bool) (dlc : BitVec 4) (data : List (BitVec 8)) (sof : Sof),
      let i : Instr := .canRxFrame c id ide fdf brs rtr esi dlc data sof
      let ts := (s.dev.now + 2 ^ 64 - sof.ago.toNat) % 2 ^ 64
      let e := s.dev.get (pgCan c) CAN.RX_HEAD_IDX
      let n := s.dev.get (pgCan c) CAN.RX_OWNED_N
      (s.dev.canLive c = false → exec i s = .next s) ∧
      (s.dev.canLive c = true → e < 1024 → s.dev.safRun = false ∨ Dev.tapStn s.dev.blk c (id.toNat + ide.toNat * 2 ^ 31) = none →
        ∃ t, exec i s = .next t ∧ t.pending = s.pending ∧ t.dev.memories = s.dev.memories ∧ t.dev.get (pgCan c) CAN.BUS_ACKRUN = 0 ∧
          (n < 1024 → t.dev.get (pgCan c) CAN.RX_OWNED_N = n + 1 ∧ t.dev.get (pgCan c) CAN.RX_HEAD_IDX = (e + 1) % 1024 ∧
            t.dev.get (pgCan c) CAN.RXE_W 0 e = id.toNat + ide.toNat * 2 ^ 29 + fdf.toNat * 2 ^ 30 + brs.toNat * 2 ^ 31 ∧
            t.dev.get (pgCan c) CAN.RXE_W 1 e = dlc.toNat + rtr.toNat * 2 ^ 4 + esi.toNat * 2 ^ 5 + dlcBytes fdf rtr dlc.toNat * 2 ^ 8 + sof.sub.toNat * 2 ^ 20 ∧
            t.dev.get (pgCan c) CAN.RXE_W 2 e = ts % 2 ^ 32 ∧ t.dev.get (pgCan c) CAN.RXE_W 3 e = ts / 2 ^ 32) ∧
          (n ≥ 1024 → t.dev.get (pgCan c) CAN.RX_OWNED_N = n ∧ t.dev.get (pgCan c) HDR.ERR_CODE = cCAN_RX_DROP))) ∧
    (∀ n : BitVec 11, let own := s.dev.get (pgCan c) CAN.RX_OWNED_N
      ∃ t, exec (.rxAck c n) s = .next t ∧ t.pending = s.pending ∧
        (if n.toNat > own then t.dev.get (pgCan c) HDR.ERR_CODE = cRANGE ∧ t.dev.get (pgCan c) CAN.RX_OWNED_N = own
         else t.dev.get (pgCan c) CAN.RX_OWNED_N = (own - n.toNat) % 2 ^ 11 ∧
           t.dev.get (pgCan c) CAN.RX_TAIL_IDX = (s.dev.get (pgCan c) CAN.RX_TAIL_IDX + n.toNat) % 2 ^ 10) ∧ s.dev.keeps t.dev [pgCan c])

/-- From R399, R408 to R412 and R420: a bus error shows its kind and moves the counters of R410, which decide the state of the controller; BUS_OFF is
left by a rejoin; a run of unacknowledged frames is LONELY; a FRAME event numbers itself; the rows and columns of the schedule advance, and a window
that no frame used ends its request; a station that misses three periods goes DOWN. The model's own choices in it: notes/assumptions/35.md, 36.md,
68.md. -/
def Obligations.CanStatesAndSchedule : Prop :=
  ∀ (s : State) (c : Fin 4), s.out = true → s.dev.shaped = true →
    let p := pgCan c
    let st := s.dev.get p CAN.BUS_STATE
    (∀ (tx inData dom : Bool) (lec : BitVec 3),
      (s.dev.canLive c = false → exec (.canBusError c tx lec inData dom) s = .next s) ∧
      (s.dev.canLive c = true → ∃ t, exec (.canBusError c tx lec inData dom) s = .next t ∧ t.pending = s.pending ∧ t.dev.get p CAN.LEC_CODE = lec.toNat ∧
        t.dev.on p CAN.LEC_DATA = inData ∧
        t.dev.get p CAN.ERRC_TEC = (if s.dev.get p CAN.MODE_OP = 0 ∧ tx = true ∧ ¬ (lec.toNat = 3 ∧ st = 3 ∧ dom = false) then
          satU 9 (s.dev.get p CAN.ERRC_TEC + 8) else s.dev.get p CAN.ERRC_TEC) ∧
        t.dev.get p CAN.ERRC_REC = (if s.dev.get p CAN.MODE_OP = 0 ∧ tx = false then
          satU 8 (s.dev.get p CAN.ERRC_REC + (if dom then 8 else 1)) else s.dev.get p CAN.ERRC_REC) ∧
        t.dev.get p CAN.BUS_STATE = (if st ≠ 2 ∧ st ≠ 3 then st else if t.dev.get p CAN.ERRC_TEC > 255 then 4
          else if t.dev.get p CAN.ERRC_TEC > 127 ∨ t.dev.get p CAN.ERRC_REC > 127 then 3 else 2) ∧ s.dev.keeps t.dev [p, shp .slt])) ∧
    (if s.dev.get p CAN.LONELY_N = 0 ∨ s.dev.get p CAN.BUS_ACKRUN < s.dev.get p CAN.LONELY_N ∨ s.dev.on p CAN.BUS_LONELY = true then
      exec (.canLonely c) s = .next s
     else ∃ t, exec (.canLonely c) s = .next t ∧ t.pending = s.pending ∧ t.dev.get p CAN.BUS_LONELY = 1 ∧ t.dev.get p HDR.ERR_CODE = cCAN_LONELY ∧
      s.dev.keeps t.dev [p, shp .slt]) ∧
    (if st = 4 then ∃ t, exec (.canRejoin c) s = .next t ∧ t.pending = s.pending ∧ t.dev.get p CAN.BUS_STATE = 5 ∧ t.dev.get p CAN.REJ_CNT_SEQ = 0 ∧
        s.dev.keeps t.dev [p, shp .slt]
     else exec (.canRejoin c) s = .next s) ∧
    (if st = 5 then ∃ t, exec (.canRejoinDone c) s = .next t ∧ t.pending = s.pending ∧ t.dev.get p CAN.BUS_STATE = 2 ∧ t.dev.get p CAN.ERRC_TEC = 0 ∧
        t.dev.get p CAN.ERRC_REC = 0 ∧ (t.dev.canCh c).keptOff = false ∧ s.dev.keeps t.dev [p, shp .slt]
     else exec (.canRejoinDone c) s = .next s) ∧
    (if st = 1 then ∃ t, exec (.canIntegrated c) s = .next t ∧ t.pending = s.pending ∧ s.dev.keeps t.dev [p, shp .slt] ∧
        t.dev.get p CAN.BUS_STATE = (if (s.dev.canCh c).keptOff then 4
          else if s.dev.get p CAN.ERRC_TEC > 127 ∨ s.dev.get p CAN.ERRC_REC > 127 then 3 else 2)
     else exec (.canIntegrated c) s = .next s) ∧
    ((∀ e ∈ s.dev.shadow, e.page ≠ p) →
      (∀ start : Bool, ∃ t, exec (.frameEvent c start) s = .next t ∧ t.pending = s.pending ∧
        (t.dev.canCh c).begun = (match start, s.dev.canMay c with | true, some b => some b | _, _ => (s.dev.canCh c).begun) ∧
        (∀ b, start = true → s.dev.canMay c = some b → (t.dev.canCh c).run = some (s.dev.canFrame c b)) ∧
        t.dev.get p HDR.COMMIT_SEQ = ((s.dev.canCh c).frames + 1) % 65536 ∧ s.dev.keeps t.dev [p]) ∧
      (∀ busy : Bool, s.dev.get p CAN.TT_CFG_ROWS ≠ 0 ∨ (s.dev.canCh c).mat.isSome = true →
        let rows := s.dev.get p CAN.TT_CFG_ROWS
        let row := if (s.dev.canCh c).changed = true ∨ rows = 0 then 0 else (s.dev.get p CAN.TT_ROW_IDX + 1) % rows
        ∃ t, exec (.ttBasicCycle ⟨c, busy⟩) s = .next t ∧ t.pending = s.pending ∧ (t.dev.canCh c).col = none ∧
        t.dev.get p CAN.TT_ROW_IDX = row % 2 ^ 6 ∧ (t.dev.canCh c).mat = s.dev.canMat c row ∧ (t.dev.canCh c).changed = false ∧
        t.dev.get p HDR.COMMIT_SEQ = ((s.dev.canCh c).frames + 1) % 65536 ∧ s.dev.keeps t.dev [p])) ∧
    (s.dev.get p CAN.TT_CFG_ROWS = 0 → (s.dev.canCh c).mat = none → ∀ busy : Bool, exec (.ttBasicCycle ⟨c, busy⟩) s = .next s) ∧
    (∀ (col : Fin 32) (start : Bool),
      ((s.dev.canCh c).mat.all (fun m => decide (col.val ≥ m.cols)) = true → exec (.ttColumnStart c col start) s = .next s) ∧
      (∀ m : TtRow, (s.dev.canCh c).mat = some m → col.val < m.cols →
        let b := m.cells.getD col 0xFF
        ∃ t, exec (.ttColumnStart c col start) s = .next t ∧ t.pending = s.pending ∧ (t.dev.canCh c).col = some col.val ∧
        (t.dev.canCh c).arm = (if b < 128 ∧ s.dev.canPend c b = true then some b else none) ∧
        (b = 0xFE → (t.dev.canCh c).begun = (s.dev.canCh c).begun) ∧ (start = false → (t.dev.canCh c).begun = (s.dev.canCh c).begun) ∧
        (start = true → b < 128 → s.dev.canPend c b = true → (s.dev.canCh c).begun = none → s.dev.canWhyNot c = none → st ≠ 1 →
          (t.dev.canCh c).begun = some b) ∧ t.dev.regs = s.dev.regs ∧ t.dev.memories = s.dev.memories)) ∧
    (∀ b : Option (Fin 128), (s.dev.canCh c).arm = b.map Fin.val → ∃ t, exec (.ttWindowEnd c) s = .next t ∧ t.pending = s.pending ∧
      (t.dev.canCh c).arm = none ∧ (t.dev.canCh c).col = none ∧ s.dev.keeps t.dev [p] ∧
      (∀ k : Fin 128, b = some k → s.dev.canPend c k = true → (s.dev.canCh c).begun ≠ some k.val → t.dev.canPend c k = false ∧
        t.dev.get p CAN.TXB_ST_RESULT 0 k = 6 ∧ t.dev.get p CAN.TXB_ST_WHY 0 k = 6 ∧ t.dev.get p HDR.ERR_CODE = cCAN_WINDOW)) ∧
    (∀ k : Fin 288, let m := s.dev.get (shp .rsm) RSM.STN_ST_MISS 0 k + 1
      if s.dev.enabled (shp .rsm) = false ∨ s.dev.on (shp .rsm) RSM.STN_CFG_EN 0 k = false then exec (.stationPeriodMiss k) s = .next s
      else ∃ t, exec (.stationPeriodMiss k) s = .next t ∧ t.pending = s.pending ∧ s.dev.keeps t.dev [shp .rsm, shp .slt] ∧
        t.dev.get (shp .rsm) RSM.STN_ST_MISS 0 k = (if m ≥ 3 then 3 else m) ∧ t.dev.get (shp .rsm) RSM.STN_ST_UPRUN 0 k = 0 ∧
        t.dev.get (shp .rsm) RSM.STN_ST_STATE 0 k = (if m ≥ 3 then 1 else s.dev.get (shp .rsm) RSM.STN_ST_STATE 0 k) ∧
        (m ≥ 3 → s.dev.get (shp .rsm) RSM.STN_ST_STATE 0 k = 2 → t.dev.get (shp .rsm) HDR.ERR_CODE = cRS_DOWN))

/-- From R375 to R377, R381, R383 to R385, R387: a frame that the part may use is forwarded with one hop less, to a queue with room, and delivered
once; the traffic of Shoal waits for the snapshot and `USER` bytes for theirs; damaged and foreign frames are counted and change nothing else; the
delay of a link is measured by its exchanges; the beacon of the active manager steers a follower, and without one it holds its frequency. The model's
own choices in it: notes/assumptions/21.md, 40.md, 41.md, 70.md. -/
def Obligations.GroupFramesAndTime : Prop :=
  ∀ s : State, s.out = true → s.dev.shaped = true → s.dev.glkOn = true →
    let p := shp .glk
    (∀ (i : Instr) (port : Fin 2) (hd : GHdr) (m : GMsg) (len : Nat) (rs : List GRec) (fs : List GFwd) (ds : List GDec) (cs : List GCall)
        (sq : List (BitVec 6 × List GStop)) (full : Bool),
      (i = .recordsRx port hd rs ∧ m = .records hd.src.toNat rs ∧ len = 32 * rs.length ∨ i = .forwardRx port hd fs ∧ m = .forward hd.src.toNat fs ∧ len = 32 * fs.length ∨
        i = .decisionRx port hd ds cs sq ∧ m = .decision hd.src.toNat ds cs sq ∧ len = 32 * (ds.length + cs.length) + 8 * (sq.map (fun q => q.2.length)).sum ∨
        i = .reportReqRx port hd ∧ m = .reportReq hd.src.toNat ∧ len = 0 ∨ i = .reportRx port hd full cs ∧ m = .report hd.src.toNat full cs ∧ len = 32 * cs.length ∨
        i = .tablesRx port hd cs sq ∧ m = .tables hd.src.toNat cs sq ∧ len = 32 * cs.length + 8 * (sq.map (fun q => q.2.length)).sum) →
      s.dev.linkUp port = true → hd.typ.toNat ≠ fDELAY_REQ → hd.typ.toNat ≠ fDELAY_RESP →
      let foreign := hd.ver ≠ 1 ∨ hd.group.toNat ≠ s.dev.get p GLK.GROUP_ID ∨ hd.typ.toNat = 0 ∨ hd.typ.toNat > 0xB
      ∃ t, exec i s = .next t ∧ t.pending = s.pending ∧ s.dev.keeps t.dev [p] ∧
        (hd.hcrcOk = false → t.dev.get p GLK.ERR_CNT_HCRC = satU 16 (s.dev.get p GLK.ERR_CNT_HCRC + 1) % 2 ^ 16 ∧ t.dev.glk = { s.dev.glk with out := [] }) ∧
        (hd.hcrcOk = true → foreign → t.dev.get p GLK.DROP_FOREIGN = satU 16 (s.dev.get p GLK.DROP_FOREIGN + 1) % 2 ^ 16 ∧ t.dev.glk = { s.dev.glk with out := [] }) ∧
        (hd.hcrcOk = true → ¬ foreign → hd.src.toNat = s.dev.ringPos → t.dev.glk = { s.dev.glk with out := [] }) ∧
        (hd.hcrcOk = true → ¬ foreign → hd.src.toNat ≠ s.dev.ringPos →
          (let f := Dev.relayFrame port.val hd (some m) len []
           let goes := hd.hops ≠ 0 ∧ s.dev.linkUp (1 - port.val) = true
           f.port = 1 - port.val ∧ f.typ = hd.typ.toNat ∧ f.src = hd.src.toNat ∧ f.hops = hd.hops.toNat - 1 ∧ f.seq = hd.seq.toNat ∧ f.msg = some m ∧ f.fcsOk = hd.fcsOk ∧
           (goes → s.dev.portFull f = true → t.dev.glk.out = [] ∧ t.dev.glk.queue = s.dev.glk.queue ∧
             t.dev.get p GLK.QDROP_COUNT = satU 16 (s.dev.get p GLK.QDROP_COUNT + 1) % 2 ^ 16 ∧ t.dev.get p HDR.ERR_CODE = cGLK_QFULL) ∧
           (goes → s.dev.portFull f = false → t.dev.glk.out = [f] ∧ t.dev.glk.queue = s.dev.glk.queue ++ [f]) ∧
           (¬ goes → t.dev.glk.out = [] ∧ t.dev.glk.queue = s.dev.glk.queue)) ∧
          (hd.fcsOk = false → t.dev.get p GLK.ERR_CNT_FCS = satU 16 (s.dev.get p GLK.ERR_CNT_FCS + 1) % 2 ^ 16 ∧ t.dev.glk.inbox = s.dev.glk.inbox) ∧
          (hd.fcsOk = true → hd.src.toNat ≤ 17 →
            (∀ n b, (s.dev.node hd.src.toNat).accept hd.seq.toNat = (some n, b) →
              t.dev.glk.inbox = s.dev.glk.inbox ++ (if hd.typ.toNat = fHELLO ∨ n.joined = true ∧ n.mis = false then [m] else []) ∧
              t.dev.node hd.src.toNat = { n with epoch := hd.epoch.toNat, active := hd.active }) ∧
            (∀ b, (s.dev.node hd.src.toNat).accept hd.seq.toNat = (none, b) → t.dev.glk.inbox = s.dev.glk.inbox ∧ t.dev.glk.nodes = s.dev.glk.nodes)))) ∧
    (∀ (port : Fin 2) (hd : GHdr) (data : List (BitVec 8)) (n : GNode) (b : Bool), s.dev.linkUp port = true → hd.hcrcOk = true → hd.fcsOk = true → hd.ver = 1 →
      hd.group.toNat = s.dev.get p GLK.GROUP_ID → hd.typ.toNat = fUSER → hd.src.toNat ≠ s.dev.ringPos → hd.src.toNat ≤ 17 →
      (s.dev.node hd.src.toNat).accept hd.seq.toNat = (some n, b) →
      ∃ t, exec (.userRx port hd data) s = .next t ∧ t.pending = s.pending ∧ s.dev.keeps t.dev [p] ∧
        (t.dev.node hd.src.toNat).user = if n.joined = true ∧ n.mis = false then data.map BitVec.toNat else n.user) ∧
    (∀ (port : Fin 2) (t1 : BitVec 64), s.dev.linkUp port = true →
      ∃ t, exec (.delayReqSend port t1) s = .next t ∧ t.pending = s.pending ∧ t.dev.regs = s.dev.regs ∧ t.dev.memories = s.dev.memories ∧
        t.dev.glk.req.getD port none = some t1.toNat ∧ (t.dev.glk.out.map (fun f => (f.port, f.typ))) = if s.dev.glk.dup = true then [] else [(port.val, fDELAY_REQ)]) ∧
    (∀ (port : Fin 2) (hd : GHdr) (t2 t3 t4 : BitVec 64), s.dev.linkUp port = true → hd.hcrcOk = true → hd.fcsOk = true → hd.ver = 1 →
      hd.group.toNat = s.dev.get p GLK.GROUP_ID → hd.src.toNat ≠ s.dev.ringPos →
      (hd.typ.toNat = fDELAY_REQ → ∃ t, exec (.delayReqRx port hd t2 t3) s = .next t ∧ t.pending = s.pending ∧ t.dev.regs = s.dev.regs ∧ t.dev.memories = s.dev.memories ∧
        (t.dev.glk.out.map (fun f => (f.port, f.typ, f.nums))) = if s.dev.glk.dup = true then [] else [(port.val, fDELAY_RESP, [t2.toNat, t3.toNat])]) ∧
      (∀ t1, hd.typ.toNat = fDELAY_RESP → s.dev.glk.req.getD port none = some t1 →
        let l := (Int.fdiv (((t4.toNat : Int) - t1) - ((t3.toNat : Int) - t2.toNat)) 2 :: s.dev.glk.delays.getD port []).take 8
        ∃ t, exec (.delayRespRx port hd t2 t3 t4) s = .next t ∧ t.pending = s.pending ∧ t.dev.glk.req.getD port none = none ∧ t.dev.glk.delays.getD port [] = l ∧
          s.dev.keeps t.dev [p] ∧ (l.length = 8 → t.dev.linkDelay port = satU 16 (Int.fdiv l.sum l.length).toNat % 2 ^ 16))) ∧
    (∀ sub : BitVec 14, (if s.dev.isManager = true ∧ s.dev.glkActive = true ∧ s.dev.glk.dup = false then
        ∃ t, exec (.glkBeaconSend sub) s = .next t ∧ t.pending = s.pending ∧ t.dev.regs = s.dev.regs ∧ t.dev.memories = s.dev.memories ∧
          t.dev.glk.seq = (s.dev.glk.seq + 1) % 65536 ∧ ∀ port : Fin 2, s.dev.linkUp port = true →
            ∃ f ∈ t.dev.glk.out, f.port = port.val ∧ f.typ = fBEACON ∧ f.seq = s.dev.glk.seq ∧ f.nums = [s.dev.now, sub.toNat, 0]
       else s.dev.isManager = false ∨ s.dev.glkActive = false → exec (.glkBeaconSend sub) s = .next s)) ∧
    (∀ (c : GCopy) (ts : BitVec 64) (sub : BitVec 14) (n : GNode) (b : Bool), c.hd.hcrcOk = true → c.hd.fcsOk = true → c.hd.ver = 1 →
      c.hd.group.toNat = s.dev.get p GLK.GROUP_ID → c.hd.typ.toNat = fBEACON → c.hd.src.toNat ≠ s.dev.ringPos → c.hd.src.toNat ≤ 17 → s.dev.linkUp c.port = true →
      s.dev.delayKnown c.port = true → (s.dev.node c.hd.src.toNat).accept c.hd.seq.toNat = (some n, b) → n.joined = true → n.mis = false → s.dev.follower = true →
      c.hd.active = true → (∀ i ∈ s.dev.activeHeard, i ≠ c.hd.src.toNat → epochHigher (s.dev.node i).epoch c.hd.epoch.toNat = false) →
      ∃ t, exec (.glkBeaconRx [c] ts sub) s = .next t ∧ t.pending = s.pending ∧ s.dev.keeps t.dev [p, shp .rtc] ∧
        t.dev.get p GLK.TSYNC_OFFSET_NS = encS 32 (satS 32 (Int.fdiv (((ts.toNat : Int) - s.dev.now) * 1000000000) 65536 + sub.toNat - c.rsub.toNat +
          c.corr.toNat + s.dev.linkDelay c.port)) % 2 ^ 32) ∧
    (if s.dev.follower = true ∧ (s.dev.get p GLK.TSYNC_STATE = 1 ∨ s.dev.get p GLK.TSYNC_STATE = 2) then
      ∃ t, exec .tsyncHoldover s = .next t ∧ t.pending = s.pending ∧ t.dev.get p GLK.TSYNC_STATE = 3 ∧ t.dev.glk.rate = s.dev.glk.freq ∧
        (s.dev.get p GLK.TSYNC_STATE = 2 → t.dev.get p HDR.ERR_CODE = cGLK_TSYNC_LOST) ∧ s.dev.keeps t.dev [p, shp .rtc]
     else exec .tsyncHoldover s = .next s)

/-- From R374, R377 to R380, R386 to R388: a HELLO with the configuration of the group joins its sender, one with another sets it aside, a LEAVE
removes it; at a tick the modules that were not heard leave and the own HELLO goes out; a passive manager that hears no active one and the greater
part of the workers takes the role; a worker without a manager asks for ISLAND; links come and go; EN = 0 leaves the ring. The model's own choices in
it: notes/assumptions/39.md, 70.md. -/
def Obligations.GroupMembershipAndRoles : Prop :=
  ∀ s : State, s.out = true → s.dev.shaped = true →
    let p := shp .glk
    (∀ (port : Fin 2) (hd : GHdr) (cfg : BitVec 32) (dev : BitVec 64) (boots : BitVec 32) (w : BitVec 5) (heard : BitVec 18), s.dev.glkOn = true →
      s.dev.linkUp port = true → hd.hcrcOk = true → hd.fcsOk = true → hd.ver = 1 → hd.group.toNat = s.dev.get p GLK.GROUP_ID → hd.typ.toNat = fHELLO → hd.src.toNat ≤ 17 →
      hd.src.toNat ≠ s.dev.ringPos → let k := hd.src.toNat
      ∃ t, exec (.glkHelloRx port hd cfg dev boots w heard) s = .next t ∧ t.pending = s.pending ∧ s.dev.keeps t.dev [p, shp .slt] ∧
        (hd.leave = true → (t.dev.node k).joined = false ∧ (t.dev.node k).active = false ∧ (t.dev.node k).heard = false) ∧
        (hd.leave = false → cfg.toNat = s.dev.get p GLK.CFG_ID_ID → (t.dev.node k).joined = true ∧ (t.dev.node k).mis = false ∧ (t.dev.node k).on port = true ∧
          (t.dev.node k).dev = dev.toNat) ∧
        (hd.leave = false → cfg.toNat ≠ s.dev.get p GLK.CFG_ID_ID → (s.dev.node k).mis = false → (t.dev.node k).joined = false ∧ (t.dev.node k).mis = true ∧
          t.dev.get p HDR.ERR_CODE = cGLK_CFG_MISMATCH) ∧ ∀ j : Fin 18, j.val ≠ k → t.dev.node j = s.dev.node j) ∧
    (if s.dev.glkOn = true then
      ∃ t, exec .helloTick s = .next t ∧ t.pending = s.pending ∧ t.dev.memories = s.dev.memories ∧ t.dev.glk.dupAge = min 255 (s.dev.glk.dupAge + 1) ∧
        (∀ k : Fin 18, (t.dev.node k).joined = ((s.dev.node k).joined && decide ((s.dev.node k).age0 < 3 ∨ (s.dev.node k).age1 < 3))) ∧
        (s.dev.glk.dup = false → t.dev.glk.seq = (s.dev.glk.seq + 1) % 65536 ∧ ∀ port : Fin 2, s.dev.linkUp port = true →
          (s.dev.glk.queue.filter (fun f => f.port == port.val)).length < 32 → ∃ f ∈ t.dev.glk.out, f.port = port.val ∧ f.typ = fHELLO ∧ f.seq = s.dev.glk.seq)
     else exec .helloTick s = .next s) ∧
    (∃ t, exec .managerActivate s = .next t ∧ t.pending = s.pending ∧
      (if s.dev.glkOn = true ∧ s.dev.isManager = true ∧ s.dev.glkActive = false ∧ s.dev.activeHeard = [] ∧ 2 * s.dev.workersHeard > s.dev.workersN then
        t.dev.get p GLK.ROLE_ACTIVE = 1 ∧ t.dev.get p GLK.EPOCH_ROLE = (s.dev.epochKnown + 1) % 65536 ∧ t.dev.get p GLK.EPOCH_MGR_POS = s.dev.ringPos % 2 ^ 5 ∧
          t.dev.glk.askReports = true ∧ t.dev.glk.scopeNext = some (1, false) ∧ s.dev.keeps t.dev [p, shp .slt, shp .rtc]
       else t.dev.regs = s.dev.regs ∧ t.dev.memories = s.dev.memories ∧ t.dev.glk = { s.dev.glk with out := [] })) ∧
    (if s.dev.isWorker = true ∧ s.dev.shlMode s.dev.holder ≠ 3 then
      ∃ t, exec .glkNoMgr s = .next t ∧ t.pending = s.pending ∧ t.dev.glk.scopeNext = some (3, false) ∧ t.dev.get p HDR.ERR_CODE = cGLK_NO_MGR ∧
        (∀ k : Fin 18, (t.dev.node k).active = false) ∧ s.dev.keeps t.dev [p]
     else exec .glkNoMgr s = .next s) ∧
    (∀ port : Fin 2,
      (∃ t, exec (.glkLinkLoss port) s = .next t ∧ t.pending = s.pending ∧ t.dev.linkUp port = false ∧ t.dev.linkUp (1 - port.val) = s.dev.linkUp (1 - port.val) ∧
        bitN (t.dev.get p GLK.RING_AMP) port = 0 ∧ t.dev.delayKnown port = false ∧ s.dev.keeps t.dev [p]) ∧
      (∀ low : Bool, if s.dev.glkOn = true then
        ∃ t, exec (.glkLinkUp port low) s = .next t ∧ t.pending = s.pending ∧ t.dev.linkUp port = true ∧ t.dev.linkUp (1 - port.val) = s.dev.linkUp (1 - port.val) ∧
          (bitN (t.dev.get p GLK.RING_AMP) port = 1 ↔ low = true ∨ s.dev.on p (if port.val = 0 then GLK.PHY_AMP0 else GLK.PHY_AMP1) = true) ∧ s.dev.keeps t.dev [p]
       else exec (.glkLinkUp port low) s = .next s)) ∧
    ((∀ e ∈ s.dev.shadow, e.fld ≠ HDR.CTRL_EN) → exec .glkLeave s = .next s) ∧
    (∀ e : Staged, s.dev.shadow = [e] → e.page = p → e.half = none → e.fld = HDR.CTRL_EN → e.i = 0 → e.t = 0 → e.val = 0 → s.dev.enabled p = true →
      s.dev.on p HDR.CTRL_STAGE_HOLD = false → s.dev.cfgFrozen = false →
      ∃ t, exec .glkLeave s = .next t ∧ t.pending = s.pending ∧ t.dev.enabled p = false ∧ t.dev.get p GLK.RING_LINK = 0 ∧ t.dev.get p GLK.RING_STATE = 0 ∧
        (∀ k : Fin 18, (t.dev.node k).joined = false) ∧ t.dev.shadow = [] ∧ t.dev.memories = s.dev.memories)

/-- From R429, R430, R432, R433 and R435 to R437: a debounced level is shown, latched as an edge and read under its inversion; a shorted sensor supply
is shown until a retry does not limit; logic silence brings the safe state; a fault of an output is shown, reported once and switches its set off, and
a clear or a retry releases an output whose cause has gone. The model's own choices in it: notes/assumptions/2.md, 33.md. -/
def Obligations.DigitalFieldIo : Prop :=
  ∀ s : State, let q := shp .dout
    let drv := [shp .dout, shp .aout, shp .wir, shp .slt]
    (∀ (n : Fin 32) (lvl : Bool), let v := lvl != s.dev.on (shp .din) DIN.CH_CFG_INV n
      let deb := setBitN s.dev.fio.deb n lvl
      ∃ t, exec (.dinDebouncedChange n lvl) s = .next t ∧ t.pending = s.pending ∧ (bitN (t.dev.get (shp .din) DIN.RAW_BITS) n = 1 ↔ lvl = true) ∧
        s.dev.keeps t.dev (shp .din :: shp .slt :: shp .wir ::
          [HalfId.a, HalfId.b].flatMap (fun h => ctl .pos h :: ctl .stp h :: (List.range 4).map (pgMpg h) ++ (List.range 8).map (pgDax h))) ∧
        (if s.dev.fio.held = false ∧ s.dev.enabled (shp .din) = true then
          t.dev.fio = { s.dev.fio with deb := deb, lines := deb } ∧ (bitN (t.dev.get (shp .din) DIN.LEVEL_BITS) n = 1 ↔ v = true) ∧
          ((bitN s.dev.fio.deb n = 1) ≠ (lvl = true) → bitN (t.dev.get (shp .din) (if v then DIN.RISE_BITS else DIN.FALL_BITS)) n = 1) ∧
          (bitN s.dev.fio.deb n = lvl.toNat → t.dev.get (shp .din) DIN.RISE_BITS = s.dev.get (shp .din) DIN.RISE_BITS ∧
            t.dev.get (shp .din) DIN.FALL_BITS = s.dev.get (shp .din) DIN.FALL_BITS)
         else t.dev.fio = { s.dev.fio with deb := deb } ∧ t.dev.get (shp .din) DIN.LEVEL_BITS = s.dev.get (shp .din) DIN.LEVEL_BITS ∧
          s.dev.keeps t.dev [shp .din])) ∧
    (s.out = true →
      (∀ g : Fin 4,
        (if bitN (s.dev.get (shp .din) DIN.SUP_EN) g = 1 ∧ bitN (s.dev.get (shp .din) DIN.SUP_SHORT) g = 0 then
          ∃ t, exec (.dsupShort g) s = .next t ∧ t.pending = s.pending ∧ bitN (t.dev.get (shp .din) DIN.SUP_SHORT) g = 1 ∧
            t.dev.get (shp .din) HDR.ERR_CODE = cDI_SUP_SHORT ∧ s.dev.keeps t.dev [shp .din, shp .slt]
         else exec (.dsupShort g) s = .next s) ∧
        exec (.dsupRetry g true) s = .next s ∧
        (∃ t, exec (.dsupRetry g false) s = .next t ∧ t.pending = s.pending ∧ bitN (t.dev.get (shp .din) DIN.SUP_SHORT) g = 0 ∧ s.dev.keeps t.dev [shp .din])) ∧
      (s.dev.get (shp .trm) TRM.SEL_POINT = 0 → ∃ t, exec .fioSilent s = .next t ∧ t.pending = s.pending ∧ bitN t.dev.fio.causes 2 = 1 ∧
        t.dev.get q HDR.ERR_CODE = cFIO_SILENT ∧ s.dev.keeps t.dev drv ∧
        (s.dev.enabled q = true → bitN s.dev.fio.causes 1 = 0 → t.dev.get (shp .wir) WIR.OUT_DIG_BITS = s.dev.get q DOUT.SAFE_BITS % 2 ^ 16)) ∧
      (∀ n : Fin 16, let vf := s.dev.on q (if n.val < 8 then DOUT.STATE_VF0_LOW else DOUT.STATE_VF1_LOW)
        let ow := s.dev.get q DOUT.CH_CFG_OW_MA (gangLead (s.dev.get q DOUT.GANG_MODE) n)
        (∀ (i : Instr) (f : Fld) (code : Nat),
          (i = .doOverload n ∧ f = DOUT.FLT_OL_BITS ∧ code = cDO_OVERLOAD ∧ s.dev.doOn n = true ∨
           i = .doOvertemp n ∧ f = DOUT.FLT_OT_BITS ∧ code = cDO_OVERTEMP ∨
           i = .doRbLow n ∧ f = DOUT.FLT_RB_LOW ∧ code = cDO_RB_LOW ∧ s.dev.doOn n = true ∧ vf = false ∨
           ∃ ma : BitVec 16, i = .doOpen n ma ∧ f = DOUT.FLT_OW_BITS ∧ code = cDO_OPEN ∧ s.dev.doOn n = true ∧ ow ≠ 0 ∧ ma.toNat < ow) →
          ∃ t, exec i s = .next t ∧ t.pending = s.pending ∧ bitN (t.dev.get q f) n = 1 ∧ t.dev.doOn n = false ∧ bitN (t.dev.get q DOUT.OUT_BITS) n = 0 ∧
            (bitN (s.dev.get q f) n = 0 → t.dev.get q HDR.ERR_CODE = code) ∧ s.dev.keeps t.dev drv) ∧
        (s.dev.doOn n = false → exec (.doOverload n) s = .next s) ∧
        (s.dev.doOn n = false ∨ vf = true → ∃ t, exec (.doRbLow n) s = .next t ∧ t.pending = s.pending ∧ bitN (t.dev.get q DOUT.RB_BITS) n = 0 ∧
          bitN (t.dev.get q DOUT.FLT_RB_HIGH) n = 0 ∧ t.dev.fio = s.dev.fio ∧ s.dev.keeps t.dev [q]) ∧
        (∀ ma : BitVec 16, s.dev.doOn n = false ∨ ow = 0 ∨ ow ≤ ma.toNat → ∃ t, exec (.doOpen n ma) s = .next t ∧ t.pending = s.pending ∧
          t.dev.get q DOUT.CH_I_MA n = ma.toNat ∧ t.dev.fio = s.dev.fio ∧ s.dev.keeps t.dev [q]) ∧
        (s.dev.doCmd n = true → exec (.doRbHigh n) s = .next s) ∧
        (s.dev.doCmd n = false → ∃ t, exec (.doRbHigh n) s = .next t ∧ t.pending = s.pending ∧ bitN (t.dev.get q DOUT.FLT_RB_HIGH) n = 1 ∧
          t.dev.fio.trip = s.dev.fio.trip ∧ s.dev.keeps t.dev drv) ∧
        (∀ cool : Bool, ∃ t, exec (.doRetry n cool) s = .next t ∧ t.pending = s.pending ∧
          (if s.dev.on q DOUT.CH_CFG_LATCH (gangLead (s.dev.get q DOUT.GANG_MODE) n) = false ∧ s.dev.doCmd n = true ∧ vf = false ∧
              (cool = true ∨ bitN s.dev.fio.hot n = 0) then
            bitN t.dev.fio.trip n = 0 ∧ bitN (t.dev.get q DOUT.FLT_OL_BITS) n = 0 ∧ bitN (t.dev.get q DOUT.FLT_OT_BITS) n = 0 ∧ s.dev.keeps t.dev drv
           else t.dev.fio.trip = s.dev.fio.trip ∧ t.dev.regs = s.dev.regs ∧ t.dev.memories = s.dev.memories))) ∧
      (∀ (g : Fin 2) (mv : BitVec 16), ∃ t, exec (.doVfield g mv) s = .next t ∧ t.pending = s.pending ∧
        t.dev.get q (if g.val = 0 then DOUT.VF_MV0 else DOUT.VF_MV1) = mv.toNat ∧
        (if mv.toNat < 18000 then t.dev.on q (if g.val = 0 then DOUT.STATE_VF0_LOW else DOUT.STATE_VF1_LOW) = true ∧
            (∀ n : Fin 16, n.val / 8 = g.val → t.dev.doOn n = false) ∧ s.dev.keeps t.dev drv
         else t.dev.on q (if g.val = 0 then DOUT.STATE_VF0_LOW else DOUT.STATE_VF1_LOW) = false ∧ t.dev.fio = s.dev.fio ∧ s.dev.keeps t.dev [q])) ∧
      (∀ bits : BitVec 16, ∃ t, exec (.doClr bits) s = .next t ∧ t.pending = s.pending ∧ s.dev.keeps t.dev drv ∧
        ∀ n : Fin 16, let lead := gangLead (s.dev.get q DOUT.GANG_MODE) n
          if bitN bits.toNat lead = 1 ∧ s.dev.on q DOUT.CH_CFG_LATCH lead = true ∧ s.dev.doHeld n = false then
            bitN t.dev.fio.trip n = 0 ∧ bitN (t.dev.get q DOUT.FLT_OL_BITS) n = 0
          else bitN t.dev.fio.trip n = bitN s.dev.fio.trip n))

/-- From R438 to R440, R442, R444 to R446 and R448 to R451: an analog sample is averaged, converted and classified; a shorted loop is shown until a
current below 28 mA; an analog output stage reports or raises its faults, and one without a target goes to its alarm level; a trim point is selected
by contact or register, drives its test current, and each step of a contact moves its trim within its bounds. The model's own choices in it:
notes/assumptions/34.md. -/
def Obligations.AnalogFieldIo : Prop :=
  ∀ s : State, s.out = true → let a := shp .ain
    let o := shp .aout
    let p := shp .trm
    let drv := [shp .trm, shp .dout, shp .aout, shp .wir]
    (∀ (c : Fin 8) (code : BitVec 16),
      (s.dev.enabled a = false → exec (.aiSample c code) s = .next s) ∧
      (s.dev.enabled a = true → s.dev.on a AIN.CH_CFG_EN c = true → let m := ((code.toNat :: s.dev.fio.win.getD c []).take 128).take (2 ^ s.dev.get a AIN.CH_CFG_FILT c)
        ∃ t, exec (.aiSample c code) s = .next t ∧ t.pending = s.pending ∧ t.dev.get a AIN.CH_RAW_CODE c = code.toNat ∧
          t.dev.get a AIN.CH_UA_UA c = m.sum / (2 * m.length) % 2 ^ 16 ∧ s.dev.keeps t.dev [a, shp .slt] ∧
          t.dev.get a AIN.CH_ST_CLASS c = (if s.dev.on a AIN.CH_ST_SHORT c = true then 4 else aiNext (s.dev.get a AIN.CH_ST_CLASS c) (t.dev.get a AIN.CH_UA_UA c)) % 2 ^ 3 ∧
          (t.dev.get a AIN.CH_UA_UA c < 500 → t.dev.get a AIN.CH_ST_OPEN c = 1) ∧ (t.dev.get a AIN.CH_UA_UA c > 520 → t.dev.get a AIN.CH_ST_OPEN c = 0)) ∧
      (s.dev.enabled a = true → s.dev.on a AIN.CH_CFG_EN c = false → ∃ t, exec (.aiSample c code) s = .next t ∧ t.pending = s.pending ∧
        t.dev.get a AIN.CH_UA_UA c = 0 ∧ t.dev.get a AIN.CH_ST_CLASS c = 3 ∧ s.dev.keeps t.dev [a])) ∧
    (∀ c : Fin 8, if s.dev.enabled a = true ∧ s.dev.on a AIN.CH_CFG_EN c = true ∧ s.dev.get a AIN.CH_UA_UA c ≥ 28000 ∧ s.dev.on a AIN.CH_ST_SHORT c = false then
        ∃ t, exec (.aiShort c) s = .next t ∧ t.pending = s.pending ∧ t.dev.get a AIN.CH_ST_SHORT c = 1 ∧ t.dev.get a AIN.CH_ST_CLASS c = 4 ∧
          t.dev.get a HDR.ERR_CODE = (if s.dev.get a AIN.CH_ST_CLASS c = 4 then cAI_SHORT else cAI_FAIL) ∧ s.dev.keeps t.dev [a, shp .slt]
      else exec (.aiShort c) s = .next s) ∧
    (∀ (c : Fin 8) (ua : BitVec 16), if s.dev.enabled a = true ∧ s.dev.on a AIN.CH_ST_SHORT c = true ∧ ua.toNat < 28000 then
        ∃ t, exec (.aiRetry c ua) s = .next t ∧ t.pending = s.pending ∧ t.dev.get a AIN.CH_ST_SHORT c = 0 ∧ t.dev.get a AIN.CH_UA_UA c = ua.toNat ∧
          t.dev.get a AIN.CH_ST_CLASS c = aiNext (s.dev.get a AIN.CH_ST_CLASS c) ua.toNat % 2 ^ 3 ∧ s.dev.keeps t.dev [a, shp .slt]
      else exec (.aiRetry c ua) s = .next s) ∧
    (∀ (c : Fin 4) (meas ut : BitVec 16) (rsvLow sat : Bool), ∃ t, exec (.aoReport c meas ut rsvLow sat) s = .next t ∧ t.pending = s.pending ∧ s.dev.keeps t.dev [o] ∧
      t.dev.on o AOUT.CH_ST_RSV_LOW c = rsvLow ∧ t.dev.on o AOUT.CH_ST_STALE c = rsvLow ∧
      (rsvLow = false → t.dev.get o AOUT.CH_MEAS_UA c = meas.toNat ∧ t.dev.get o AOUT.CH_UT_MV c = ut.toNat ∧ t.dev.on o AOUT.CH_ST_SAT c = sat ∧
        t.dev.get o AOUT.CH_ST_LINK c = 0) ∧ (rsvLow = true → t.dev.get o AOUT.CH_MEAS_UA c = s.dev.get o AOUT.CH_MEAS_UA c)) ∧
    (∀ c : Fin 4,
      (if s.dev.on o AOUT.CH_ST_LINK c = true then exec (.aoLink c) s = .next s
       else ∃ t, exec (.aoLink c) s = .next t ∧ t.pending = s.pending ∧ t.dev.get o AOUT.CH_ST_LINK c = 1 ∧ t.dev.get o HDR.ERR_CODE = cAO_LINK ∧
        s.dev.keeps t.dev [o, shp .slt]) ∧
      (∃ t, exec (.aoTargetLoss c) s = .next t ∧ t.pending = s.pending ∧ t.dev.on o AOUT.CH_ST_ALARM c = true ∧
        t.dev.fio = { s.dev.fio with lost := setBitN s.dev.fio.lost c true, stage := lset s.dev.fio.stage c (if s.dev.aoHigh c then 21750 else 3500) } ∧
        s.dev.keeps t.dev [o]) ∧
      (if s.dev.on o AOUT.CH_ST_COMPLIANCE c = true ∨ s.dev.get o AOUT.CH_MEAS_UA c + 16 ≥ s.dev.get o AOUT.CH_TGT_UA c then exec (.aoCompliance c) s = .next s
       else ∃ t, exec (.aoCompliance c) s = .next t ∧ t.pending = s.pending ∧ t.dev.get o AOUT.CH_ST_COMPLIANCE c = 1 ∧ t.dev.get o HDR.ERR_CODE = cAO_COMPLIANCE ∧
        s.dev.keeps t.dev [o, shp .slt]) ∧
      (if s.dev.on o AOUT.CH_ST_SAT c = false ∧ ((s.dev.get o AOUT.CH_MEAS_UA c : Int) - s.dev.get o AOUT.CH_TGT_UA c).natAbs ≤ 16 then
        ∃ t, exec (.aoComplianceClear c) s = .next t ∧ t.pending = s.pending ∧ t.dev.get o AOUT.CH_ST_COMPLIANCE c = 0 ∧ s.dev.keeps t.dev [o]
       else exec (.aoComplianceClear c) s = .next s)) ∧
    (∀ (i : Instr) (pt : Fin 9) (src : Nat), pt.val ≠ 0 →
      (i = .trimSelPress ∧ s.dev.on p TRM.CFG_BTN_EN = true ∧ pt.val = (s.dev.get p TRM.SEL_POINT + 1) % 9 ∧ src = 1 ∨
       i = .trmSelWrite (BitVec.ofNat 4 pt.val) ∧ s.dev.enabled o = true ∧ s.dev.on o AOUT.CH_CFG_EN ((pt.val - 1) / 2) = true ∧ s.dev.fio.causes = 0 ∧ src = 2) →
      ∃ t, exec i s = .next t ∧ t.pending = s.pending ∧ t.dev.get p TRM.SEL_POINT = pt.val ∧ t.dev.get p TRM.SEL_SRC = src ∧ t.dev.get p TRM.SEL_LEFT_S = 300 ∧
        (s.dev.enabled o = true → s.dev.on o AOUT.CH_CFG_EN ((pt.val - 1) / 2) = true → s.dev.fio.causes = 0 →
          t.dev.get o AOUT.CH_TGT_UA ((pt.val - 1) / 2) = encS 16 (aoTrim (if pt.val % 2 = 1 then 4000 else 20000)
            (s.dev.geti p TRM.AO_ZERO_U ((pt.val - 1) / 2)) (s.dev.geti p TRM.AO_SPAN_U ((pt.val - 1) / 2))) % 2 ^ 16) ∧ s.dev.keeps t.dev drv) ∧
    (∀ i : Instr, (i = .trimSelPress ∧ (s.dev.get p TRM.SEL_POINT + 1) % 9 = 0 ∧ s.dev.on p TRM.CFG_BTN_EN = true ∨ i = .trimSelLong ∧ s.dev.on p TRM.CFG_BTN_EN = true ∨
        i = .trimIdle ∨ i = .trmSelWrite 0) → (∀ e ∈ s.dev.shadow, e.page ≠ p) →
      ∃ t, exec i s = .next t ∧ t.pending = s.pending ∧ t.dev.get p TRM.SEL_POINT = 0 ∧ s.dev.keeps t.dev drv) ∧
    (∀ pt : BitVec 4, pt.toNat > 8 ∨ pt.toNat ≠ 0 ∧ (s.dev.enabled o = false ∨ s.dev.on o AOUT.CH_CFG_EN ((pt.toNat - 1) / 2) = false ∨ s.dev.fio.causes ≠ 0) →
      ∃ t, exec (.trmSelWrite pt) s = .next t ∧ t.pending = s.pending ∧ t.dev.get p HDR.ERR_CODE = (if pt.toNat > 8 then cRANGE else cBUSY) ∧
        t.dev.get p TRM.SEL_POINT = s.dev.get p TRM.SEL_POINT ∧ s.dev.keeps t.dev [p]) ∧
    (∀ (i : Instr) (up : Bool), (i = .trimStep up ∨ i = .trimRepeat up) →
      (s.dev.on p TRM.CFG_BTN_EN = false → exec i s = .next s) ∧
      (s.dev.on p TRM.CFG_BTN_EN = true → ∃ t, exec i s = .next t ∧ bitN (t.dev.get p TRM.BTN_LVL) (if up then 0 else 1) = 1 ∧
        (s.dev.get p TRM.SEL_POINT = 0 → t.pending = s.pending ∧ t.dev.fio = s.dev.fio ∧ t.dev.get p TRM.SEL_POINT = 0 ∧ s.dev.keeps t.dev [p] ∧
          ∀ k : Fin 4, t.dev.get p TRM.AO_ZERO_U k = s.dev.get p TRM.AO_ZERO_U k ∧ t.dev.get p TRM.AO_SPAN_U k = s.dev.get p TRM.AO_SPAN_U k)) ∧
      (∀ pt : Fin 9, s.dev.on p TRM.CFG_BTN_EN = true → pt.val ≠ 0 → s.dev.get p TRM.SEL_POINT = pt.val →
        let f := if pt.val % 2 = 1 then TRM.AO_ZERO_U else TRM.AO_SPAN_U
        let x := s.dev.geti p f ((pt.val - 1) / 2) + (if up then 1 else -1)
        ∃ t, exec i s = .next t ∧ t.pending = s.pending ∧ t.dev.get p TRM.SEL_LEFT_S = 300 ∧ s.dev.keeps t.dev (shp .slt :: drv) ∧
          (if -2000 ≤ x ∧ x ≤ 2000 then t.dev.geti p f ((pt.val - 1) / 2) = x
           else t.dev.get p f ((pt.val - 1) / 2) = s.dev.get p f ((pt.val - 1) / 2)))) ∧
    (s.dev.on p TRM.CFG_BTN_EN = false → exec .trimSelPress s = .next s ∧ exec .trimSelLong s = .next s)

/-- From R460 to R463, R465 to R468 and R470 to R473: a TICK adds one to the count, or puts a pending SET in its place; a SET is pending, or refused
while the group disciplines the clock, and can be withdrawn until its TICK; CAPTURE holds count and calendar together; an alarm fires once and is
disarmed, or moves on by its period beyond the count; the oscillator, the supply of the always-on domain, the charger and the measurement of VBAT show
in STATUS. The model's own choices in it: notes/assumptions/37.md. -/
def Obligations.ClockAndAlarms : Prop :=
  ∀ s : State, let p := shp .rtc
    let bit := fun (d : Dev) (k : Nat) => bitN (d.get p RTC.STATUS_BITS) k
    (∀ k : Fin 4, let a := s.dev.get64 p RTC.ALM_LO RTC.ALM_HI k
      let per := s.dev.get p RTC.ALM_PER_S k * 65536
      (s.dev.on p RTC.ALM_ST_ARMED k = false ∨ s.dev.now < a → exec (.alarmFire k) s = .next s) ∧
      (s.dev.on p RTC.ALM_ST_ARMED k = true → a ≤ s.dev.now → ∃ t, exec (.alarmFire k) s = .next t ∧ t.pending = s.pending ∧
        t.dev.get p RTC.ALM_ST_FIRED k = 1 ∧ (a < s.dev.now → t.dev.get p RTC.ALM_ST_SKIPPED k = 1 ∧ t.dev.get p HDR.ERR_CODE = cRTC_SKIPPED) ∧
        (per = 0 → t.dev.get p RTC.ALM_ST_ARMED k = 0) ∧
        (per ≠ 0 → t.dev.on p RTC.ALM_ST_ARMED k = true ∧ t.dev.get64 p RTC.ALM_LO RTC.ALM_HI k = (a + ((s.dev.now - a) / per + 1) * per) % 2 ^ 64) ∧
        t.dev.now = s.dev.now ∧ s.dev.keeps t.dev [p, shp .slt])) ∧
    (∃ t, exec .vbatSwitchover s = .next t ∧ t.pending = s.pending ∧ t.dev.rtc = { s.dev.rtc with onVbat := !s.dev.supplied } ∧
      bit t.dev 4 = (s.dev.on p RTC.CHG_EN && s.dev.supplied && !s.dev.rtc.full).toNat ∧ s.dev.keeps t.dev [p]) ∧
    (∀ mv : BitVec 16, let lim := if s.dev.on p RTC.CHG_LIM = true then 3300 else 3000
      let full := decide (lim ≤ mv.toNat) || (s.dev.rtc.full && decide (lim < mv.toNat + 50))
      ∃ t, exec (.chargerLimit mv) s = .next t ∧ t.pending = s.pending ∧ t.dev.rtc = { s.dev.rtc with full := full } ∧ s.dev.keeps t.dev [p] ∧
        bit t.dev 4 = (s.dev.on p RTC.CHG_EN && !s.dev.rtc.onVbat && !full).toNat) ∧
    (∃ t, exec .rtcOscResume s = .next t ∧ t.pending = s.pending ∧ bit t.dev 2 = 0 ∧ t.dev.rtc = s.dev.rtc ∧ s.dev.keeps t.dev [p]) ∧
    (s.dev.rtc.pend = none → s.dev.shadow = [] → (s.dev.now + 1) % 65536 ≠ 0 → s.out = true →
      ∃ t, exec .tick s = .next t ∧ t.pending = s.pending ∧ t.dev.now = s.dev.now + 1 ∧ t.dev.weir.ticks = min (s.dev.weir.ticks + 1) 68 ∧
        t.dev.get (shp .wir) WIR.LEASE_AGE = min 1023 (min (s.dev.weir.ticks + 1) 68 * 1000000 / 65536) ∧
        s.dev.keeps t.dev [p, shp .cal, shp .wir, shp .slt]) ∧
    (∀ (v mid priv : Nat) (sync : Bool), s.dev.rtc.pend = some (v, sync, mid, priv) → s.dev.shadow = [] → v < 2 ^ 64 → v / 65536 = s.dev.now / 65536 → s.out = true →
      ∃ t, exec .tick s = .next t ∧ t.pending = s.pending ∧ t.dev.now = v ∧ t.dev.rtc.pend = none ∧ (mid ≠ 0x1F → t.dev.get p RTC.SET_ST_STATE = 2) ∧
        bit t.dev 0 = 1 ∧ bit t.dev 1 = 0 ∧ s.dev.keeps t.dev [p, shp .cal, shp .wir, shp .slt]) ∧
    (s.out = false → s.dev.rtc.onVbat = false → ∃ t, exec .tick s = .next t ∧ t.pending = s.pending ∧ t.dev.now = (s.dev.now + 1) % 2 ^ 64 ∧
      s.dev.keeps t.dev [p, shp .cal, shp .slt]) ∧
    (s.out = true →
      (∀ (mid : BitVec 8) (mach sync : Bool) (v : BitVec 64),
        ∃ t, exec (.rtcSet mid mach v sync) s = .next t ∧ t.pending = s.pending ∧ s.dev.keeps t.dev [p] ∧ t.dev.now = s.dev.now ∧
          (if s.dev.disciplined = true then t.dev.get p RTC.SET_ST_STATE = 3 ∧ t.dev.get p RTC.SET_ST_REASON = cRTC_DISCIPLINED ∧
              t.dev.get p HDR.ERR_CODE = cRTC_DISCIPLINED ∧ t.dev.rtc.pend = s.dev.rtc.pend
           else t.dev.get p RTC.SET_ST_STATE = 1 ∧ t.dev.rtc.pend = some (v.toNat, sync, mid.toNat, s.dev.privByte ⟨mid.toNat, mach⟩))) ∧
      (∀ (v mid priv : Nat) (sync : Bool), s.dev.rtc.pend = some (v, sync, mid, priv) → mid ≠ 0x1F →
        ∃ t, exec .rtcSetCancel s = .next t ∧ t.pending = s.pending ∧ t.dev.rtc.pend = none ∧ t.dev.get p RTC.SET_ST_STATE = 0 ∧ s.dev.keeps t.dev [p]) ∧
      (s.dev.rtc.pend = none → exec .rtcSetCancel s = .next s) ∧
      (∃ t, exec .rtcCapture s = .next t ∧ t.pending = s.pending ∧ t.dev.get64 p RTC.CAP_LO RTC.CAP_HI = s.dev.now ∧
        t.dev.get p RTC.CAP_CAL0 = s.dev.calWords.1 % 2 ^ 32 ∧ t.dev.get p RTC.CAP_CAL1 = s.dev.calWords.2 % 2 ^ 32 ∧ s.dev.keeps t.dev [p]) ∧
      (∃ t, exec .calSync s = .next t ∧ t.pending = s.pending ∧ t.dev.rtc = { s.dev.rtc with calSync := true } ∧ t.dev.regs = s.dev.regs ∧
        t.dev.memories = s.dev.memories) ∧
      (if s.dev.rtc.onVbat = true ∨ bit s.dev 2 = 1 then exec .rtcOscStop s = .next s
       else ∃ t, exec .rtcOscStop s = .next t ∧ t.pending = s.pending ∧ bit t.dev 2 = 1 ∧ t.dev.get p HDR.ERR_CODE = cRTC_OSC_STOP ∧
        s.dev.keeps t.dev [p, shp .slt]) ∧
      (∀ mv : BitVec 16, if s.dev.rtc.onVbat = true then exec (.vbatMeasure mv) s = .next s
        else ∃ t, exec (.vbatMeasure mv) s = .next t ∧ t.pending = s.pending ∧ t.dev.get p RTC.BAT_MV = mv.toNat ∧ s.dev.keeps t.dev [p] ∧
          bit t.dev 3 = (if mv.toNat < 2300 then 1 else if mv.toNat > 2400 then 0 else bit s.dev 3) ∧
          (mv.toNat < 2300 → bit s.dev 3 = 0 → t.dev.get p HDR.ERR_CODE = cRTC_BAT_LOW)))

/-- From R480 to R483 and R485: a post of firmware is copied and then queued or lost; the writer takes the protected records first and gives each its
SEQ; an episode of losses ends with its record; a capture shows the newest seal and the anchor. The model's own choices in it:
notes/assumptions/38.md. -/
def Obligations.SiltTakesAndWrites : Prop :=
  ∀ s : State, s.out = true → s.dev.shaped = true → let p := shp .slt
    (∀ (mid : BitVec 8) (mach : Bool) (addr : Word) (len : BitVec 13) (code : BitVec 8) (detail : BitVec 16), addr.toNat % 8 = 0 → len.toNat ≤ 4072 →
      let w : Who := ⟨mid.toNat, mach⟩
      ∃ t, exec (.sltPostGo mid mach addr len code detail) s = .next t ∧ t.pending = s.pending ∧ s.dev.keeps t.dev [p] ∧
        (∀ h, w.half? = some h → s.dev.holds h = false → t.dev.get p SLT.POST_ST_STATE 0 w.sltGrp = 4 ∧ t.dev.silt = s.dev.silt) ∧
        ((∀ h, w.half? = some h → s.dev.holds h = true) → s.dev.silt.copying.getD w.sltGrp none = none →
          t.dev.get p SLT.POST_ST_STATE 0 w.sltGrp = 1 ∧ ∃ r : Rec, t.dev.silt.copying.getD w.sltGrp none = some r ∧ r.len = len.toNat ∧ r.code = code.toNat ∧
            r.detail = detail.toNat ∧ r.mid = mid.toNat ∧ r.ts = s.dev.now ∧ r.cls = (if len.toNat = 0 then 0 else 0xA) ∧
            r.payload = (memReads (s.dev.half (w.half?.getD s.dev.holder)).sram addr.toNat len.toNat).map BitVec.toNat)) ∧
    (∀ g : Fin 4, (s.dev.silt.copying.getD g none = none → exec (.sltPostCopyDone g) s = .next s) ∧
      (∀ r : Rec, s.dev.silt.copying.getD g none = some r → ∃ t, exec (.sltPostCopyDone g) s = .next t ∧ t.pending = s.pending ∧ s.dev.keeps t.dev [p] ∧
        t.dev.silt.copying.getD g none = none ∧ t.dev.get p SLT.POST_ST_STATE 0 g = (if s.dev.siltTakes r then 2 else 3) ∧
        (s.dev.siltTakes r = true → protectedCls r.cls = false → t.dev.silt.qUn = s.dev.silt.qUn ++ [r] ∧ t.dev.silt.qProt = s.dev.silt.qProt) ∧
        (s.dev.siltTakes r = true → protectedCls r.cls = true → t.dev.silt.qProt = s.dev.silt.qProt ++ [r] ∧ t.dev.silt.qUn = s.dev.silt.qUn))) ∧
    (s.dev.silt.qProt = [] → s.dev.silt.qUn = [] → exec .siltWrite s = .next s) ∧
    (∀ (r : Rec) (q : List Rec), (s.dev.silt.qProt = r :: q ∨ s.dev.silt.qProt = [] ∧ s.dev.silt.qUn = r :: q) →
      ∃ t, exec .siltWrite s = .next t ∧ t.pending = s.pending ∧ s.dev.keeps t.dev [p] ∧
        (s.dev.silt.qProt = r :: q → t.dev.silt.qProt = q ∧ t.dev.silt.qUn = s.dev.silt.qUn) ∧ (s.dev.silt.qProt = [] → t.dev.silt.qProt = [] ∧ t.dev.silt.qUn = q) ∧
        (s.dev.ringTakes r.cls = true → t.dev.silt.nextSeq = (s.dev.silt.nextSeq + 1) % 2 ^ 32 ∧ t.dev.get p SLT.NEXT_SEQ_SEQ = (s.dev.silt.nextSeq + 1) % 2 ^ 32) ∧
        (s.dev.ringTakes r.cls = false → t.dev.silt.nextSeq = s.dev.silt.nextSeq ∧ t.dev.silt.pages = s.dev.silt.pages ∧
          (let f := if protectedCls r.cls then SLT.LOST_PROT else SLT.LOST_UNPROT
           t.dev.get p f = satU 16 (s.dev.get p f + 1) % 2 ^ 16) ∧
          (if protectedCls r.cls then t.dev.silt.lossProt = lossStep s.dev.silt.lossProt r.ts ∧ t.dev.silt.lossUn = s.dev.silt.lossUn
           else t.dev.silt.lossUn = lossStep s.dev.silt.lossUn r.ts ∧ t.dev.silt.lossProt = s.dev.silt.lossProt))) ∧
    (∀ prot : Bool, let loss := if prot then s.dev.silt.lossProt else s.dev.silt.lossUn
      let free := (4096 - s.dev.silt.used) - (if prot then 0 else 512)
      (loss = none ∨ free < 1024 → exec (.siltLossEnd prot) s = .next s) ∧
      (∀ l, loss = some l → free ≥ 1024 → s.dev.silt.usedBytes + 48 ≤ 262144 → s.dev.on p SLT.CFG_FULL_MODE = false →
        ∃ t, exec (.siltLossEnd prot) s = .next t ∧ t.pending = s.pending ∧ s.dev.keeps t.dev [p] ∧
          (if prot then t.dev.silt.lossProt else t.dev.silt.lossUn) = none ∧
          ∃ r : Rec, t.dev.silt.qProt = s.dev.silt.qProt ++ [r] ∧ r.cls = clsSilt ∧ r.code = 2 ∧ r.len = 20)) ∧
    (∃ t, exec .sltCapture s = .next t ∧ t.pending = s.pending ∧ t.dev.silt = s.dev.silt ∧ s.dev.keeps t.dev [p] ∧ t.dev.get p SLT.NEXT_SEQ_SEQ = s.dev.silt.nextSeq % 2 ^ 32 ∧
      ∀ i : Fin 4, t.dev.get p SLT.SEAL i = s.dev.silt.lastSeal.toNat / 2 ^ (32 * i.val) % 2 ^ 32 ∧
        t.dev.get p SLT.ANCHOR i = s.dev.silt.anchor.toNat / 2 ^ (32 * i.val) % 2 ^ 32)

/-- From R489 to R493: a cursor finds a record and shows it, or says that there is none, that it has gone or that it cannot be read; an export copies
whole pages into the memory of its half and nothing else; a verification passes or names the first page that fails; a nonce is shown until it lapses;
a clear needs its nonce and its token, and the CLEARED record is the next one written. The model's own choices in it: notes/assumptions/9.md, 38.md.
-/
def Obligations.SiltReadsAndClears : Prop :=
  ∀ s : State, s.out = true → s.dev.shaped = true → let p := shp .slt
    let fine := fun (t : State) (g : Fin 4) (e : Option Entry) => match e with
      | none => t.dev.get p SLT.CUR_ST_STATE 0 g = 0
      | some e => (e.ecc = true → t.dev.get p SLT.CUR_ST_STATE 0 g = 3) ∧
          (e.ecc = false → t.dev.get p SLT.CUR_ST_STATE 0 g = 1 ∧ (t.dev.silt.cursors.getD g ⟨none, []⟩).seq = some e.seq ∧
            ∀ i : Fin 6, t.dev.get p SLT.RD_H i g = leAt (e.bytes.map BitVec.toNat) (4 * i.val) 4)
    (∀ (g : Fin 4) (i : Instr) (e : Option Entry) (q : Word),
      (i = .sltCurOldest g ∧ e = s.dev.entries.find? (fun e => !e.ecc) ∨ i = .sltCurNewest g ∧ e = s.dev.entries.getLast? ∨
        i = .sltCurSeq g q ∧ e = s.dev.entries.find? (fun e => e.seq == q.toNat)) →
      ∃ t, exec i s = .next t ∧ t.pending = s.pending ∧ s.dev.keeps t.dev [p] ∧ fine t g e) ∧
    (∀ (g : Fin 4) (i : Instr) (es : List Entry), (i = .sltCurNext g ∧ es = s.dev.entries ∨ i = .sltCurPrev g ∧ es = s.dev.entries.reverse) →
      ∃ t, exec i s = .next t ∧ t.pending = s.pending ∧ s.dev.keeps t.dev [p] ∧
        ((s.dev.silt.cursors.getD g ⟨none, []⟩).seq = none → t.dev.get p SLT.CUR_ST_STATE 0 g = 0) ∧
        (∀ q, (s.dev.silt.cursors.getD g ⟨none, []⟩).seq = some q →
          (es.findIdx? (fun e => e.seq == q) = none → t.dev.get p SLT.CUR_ST_STATE 0 g = 2 ∧ t.dev.get p HDR.ERR_CODE = cSLT_GONE) ∧
          (∀ k e, es.findIdx? (fun e => e.seq == q) = some k → es[k]? = some e → e.ecc = false → fine t g es[k + 1]?))) ∧
    (∀ g : Fin 4, ∃ t, exec (.sltRdDataRead g) s = .next t ∧ t.pending = s.pending ∧ s.dev.keeps t.dev [p] ∧
      t.dev.resp = ⟨[BitVec.ofNat 32 (leAt (s.dev.silt.cursors.getD g ⟨none, []⟩).payload (s.dev.get p SLT.RD_POFS_OFS 0 g) 4)], false, 0⟩ ∧
      t.dev.get p SLT.RD_POFS_OFS 0 g = (s.dev.get p SLT.RD_POFS_OFS 0 g + 4) % 2 ^ 13) ∧
    (∀ (g : Fin 4) (addr : Word) (q : BitVec 64) (n : BitVec 7), addr.toNat % 4096 = 0 → n.toNat ≤ 64 → s.dev.silt.exps.getD g none = none →
      ∃ t, exec (.sltExport g addr q n) s = .next t ∧ t.pending = s.pending ∧ s.dev.keeps t.dev [p] ∧ t.dev.get p SLT.EXP_ST_STATE 0 g = 1 ∧
        t.dev.silt.exps.getD g none = some (addr.toNat, q.toNat, n.toNat)) ∧
    (∀ g : Fin 4, s.dev.silt.exps.getD g none = none → exec (.sltExportDone g) s = .next s) ∧
    (∀ (g : Fin 4) (addr q n : Nat), s.dev.silt.exps.getD g none = some (addr, q, n) → s.dev.get p SLT.EXP_ST_STATE 0 g = 1 →
      (∀ i < n, ∃ pg, s.dev.silt.pages.find? (fun x => x.pseq == q + i) = some pg ∧ pg.ecc = false ∧ pg.bytes.length = 4096) →
      ∃ t, exec (.sltExportDone g) s = .next t ∧ t.pending = s.pending ∧ t.dev.get p SLT.EXP_ST_STATE 0 g = 2 ∧ t.dev.silt.exps.getD g none = none ∧
        t.dev.mram = s.dev.mram ∧ (t.dev.half (s.dev.grpHalf g).other).sram = (s.dev.half (s.dev.grpHalf g).other).sram ∧
        (∀ a, a < addr ∨ addr + 4096 * n ≤ a → memRead (t.dev.half (s.dev.grpHalf g)).sram a = memRead (s.dev.half (s.dev.grpHalf g)).sram a) ∧
        (∀ i < n, ∀ pg, s.dev.silt.pages.find? (fun x => x.pseq == q + i) = some pg → ∀ j < 4096,
          memRead (t.dev.half (s.dev.grpHalf g)).sram (addr + 4096 * i + j) = (if 0x08000000 ≤ addr + 4096 * i ∧ addr + 4096 * i + 4096 ≤ 0x08800000 then
            pg.bytes.getD j 0 else memRead (s.dev.half (s.dev.grpHalf g)).sram (addr + 4096 * i + j))) ∧
        ∀ k, keyPage k ≠ p → rfFind k t.dev.regs = rfFind k s.dev.regs) ∧
    (∀ (q : BitVec 64) (n : Word), ∃ t, exec (.sltVerify q n) s = .next t ∧ t.pending = s.pending ∧ s.dev.keeps t.dev [p] ∧
      (if s.dev.silt.vfy.isSome then t.dev.silt = s.dev.silt
       else t.dev.silt.vfy = some (q.toNat, n.toNat) ∧ t.dev.get p SLT.VFY_ST_STATE = 1 ∧ t.dev.get p SLT.STATE_VFY = 1)) ∧
    (s.dev.silt.vfy = none → exec .sltVerifyDone s = .next s) ∧
    (∀ a n : Nat, s.dev.silt.vfy = some (a, n) → ∃ t, exec .sltVerifyDone s = .next t ∧ t.pending = s.pending ∧ s.dev.keeps t.dev [p] ∧ t.dev.silt.vfy = none ∧
      t.dev.get p SLT.STATE_VFY = 0 ∧
      (match s.dev.silt.pages.find? (fun x => decide (a ≤ x.pseq ∧ x.pseq < a + n) && s.dev.pageBad x) with
       | some x => t.dev.get p SLT.VFY_ST_STATE = 3 ∧ t.dev.get p HDR.ERR_CODE = (if x.ecc then cECC else cSLT_CHAIN) ∧ t.dev.get64 p SLT.VFY_BAD_LO SLT.VFY_BAD_HI = x.pseq % 2 ^ 64
       | none => t.dev.get p SLT.VFY_ST_STATE = 2)) ∧
    (∃ t, exec .sltNonce s = .next t ∧ t.pending = s.pending ∧ s.dev.keeps t.dev [p] ∧ t.dev.silt.token = none ∧
      ∃ x : BitVec 128, t.dev.silt.nonce = some x ∧ ∀ i : Fin 4, t.dev.get p SLT.NONCE i = x.toNat / 2 ^ (32 * i.val) % 2 ^ 32) ∧
    (∃ t, exec .sltNonceLapse s = .next t ∧ t.pending = s.pending ∧ s.dev.keeps t.dev [p] ∧ t.dev.silt.nonce = none ∧ ∀ i : Fin 4, t.dev.get p SLT.NONCE i = 0) ∧
    (∀ (mid : BitVec 8) (mach scope : Bool) (seq : Word), ∃ t, exec (.sltClear mid mach scope seq) s = .next t ∧ t.pending = s.pending ∧ s.dev.keeps t.dev [p] ∧
      (s.dev.get p SLT.STATE_CODE = 1 → let r : Rec := ⟨s.dev.now, 0, 0, clsSecurity, cSLT_CLEARING, srcOf p, p % 256, mid.toNat, s.dev.privByte ⟨mid.toNat, mach⟩, 0, []⟩
        t.dev.silt.pages = s.dev.silt.pages ∧ t.dev.silt.erasing = s.dev.silt.erasing ∧ t.dev.silt.nonce = s.dev.silt.nonce ∧ t.dev.silt.token = s.dev.silt.token ∧
        t.dev.get p SLT.STATE_CODE = 1 ∧
        (s.dev.siltTakes r = true → t.dev.get p HDR.ERR_CODE = cSLT_CLEARING ∧ t.dev.silt = { s.dev.silt with qProt := s.dev.silt.qProt ++ [r] })) ∧
      (s.dev.get p SLT.STATE_CODE ≠ 1 → s.dev.silt.token = none →
        t.dev.get p SLT.CLR_ST_STATE = 3 ∧ t.dev.get p SLT.CLR_ST_REASON = cSIGNATURE ∧ t.dev.silt.pages = s.dev.silt.pages) ∧
      (∀ sc sq key serial, s.dev.get p SLT.STATE_CODE ≠ 1 → s.dev.silt.token = some (sc, sq, key, serial) →
        (s.dev.silt.nonce = none ∨ sc ≠ scope.toNat ∨ sq ≠ seq.toNat →
          t.dev.get p SLT.CLR_ST_STATE = 3 ∧ t.dev.get p SLT.CLR_ST_REASON = cSLT_NONCE ∧ t.dev.silt.pages = s.dev.silt.pages) ∧
        (s.dev.silt.nonce.isSome = true → sc = scope.toNat → sq = seq.toNat →
          t.dev.get p SLT.CLR_ST_STATE = 1 ∧ t.dev.get p SLT.STATE_CODE = 1 ∧ t.dev.silt.token = none ∧ t.dev.silt.nonce = none ∧
            (sc = 0 → t.dev.silt.pages = []) ∧ ∃ r q, t.dev.silt.qProt = r :: q ∧ q = s.dev.silt.qProt ∧ r.cls = clsSilt ∧ r.code = 1))) ∧
    (s.dev.get p SLT.STATE_CODE ≠ 1 → exec .sltClearDone s = .next s) ∧
    (s.dev.get p SLT.STATE_CODE = 1 → ∃ t, exec .sltClearDone s = .next t ∧ t.pending = s.pending ∧ s.dev.keeps t.dev [p] ∧ t.dev.silt.erasing = [] ∧
      t.dev.get p SLT.STATE_CODE = (if s.dev.on p SLT.CFG_FULL_MODE = true ∧ s.dev.siltFree ≤ 64 then 2 else 0) ∧ t.dev.get p SLT.CLR_ST_STATE = 2)

/-- From R496, R499 to R505, R507, R509, R511, R512 and R517: the enclave runs one operation at a time; a nonce is fresh and lapses; a token is
refused with the first check it fails, and after five refusals its group gets no nonce for a time, or it does what its kind says and uses up the
nonce; an authorisation ends when it is closed or expires; a report stands in its port once it is signed; an image is checked, copied and checked; a
tamper event zeroises the keys. The model's own choices in it: notes/assumptions/9.md, 45.md. -/
def Obligations.EnclaveOperations : Prop :=
  ∀ s : State, s.dev.shaped = true → let e := shp .enc
    (∀ sensor : Fin 4, ∃ t, exec (.tamper sensor) s = .next t ∧ t.pending = s.pending ∧ t.dev.keys = [] ∧ t.dev.encl.devKey = false ∧
      (s.out = true → t.dev.saf.deviceSafe = true) ∧
      (s.out = false → bitN (t.dev.get e ENC.TAMPER_FLAGS) sensor = 1 ∧ bitN (t.dev.get e ENC.TAMPER_FLAGS) 4 = 1 ∧
        (∀ g : Fin 3, t.dev.encl.nonce.getD g none = none ∧ t.dev.get e ENC.AUTH_ROLE 0 g = 0) ∧ t.dev.silt.nonce = none ∧
        s.dev.keeps t.dev [e, shp .hst, shp .slt])) ∧
    (s.out = true →
      (∀ (i : Instr) (w : Who) (j : EncJob), s.dev.encl.job = some j →
        (i = .encNonce (BitVec.ofNat 8 w.mid) ∧ w.mach = false ∨ i = .encClose (BitVec.ofNat 8 w.mid) ∧ w.mach = false ∨ i = .encAttest (BitVec.ofNat 8 w.mid) ∧ w.mach = false ∨
          i = .encCert (BitVec.ofNat 8 w.mid) ∧ w.mach = false ∨
          i = .encInstall (BitVec.ofNat 8 w.mid) w.mach ∧ s.dev.engineer w = true ∧ s.dev.get (shp .bot) BOT.PHASE_CODE ≠ 7 ∨
          i = .encAcceptVersion (BitVec.ofNat 8 w.mid) w.mach ∧ s.dev.engineer w = true ∨
          i = .tokenAuth (BitVec.ofNat 8 w.mid) w.mach ∧ Dev.tokKind (s.dev.tokenOf w.encGrp) = 1) → w.mid < 256 →
        ∃ t, exec i s = .next t ∧ t.pending = s.pending ∧ s.dev.keeps t.dev [e] ∧ t.dev.encl = s.dev.encl ∧ t.dev.keys = s.dev.keys ∧
          t.dev.get e ENC.CMD_ST_REASON 0 w.encGrp = cBUSY ∧ t.dev.get e HDR.ERR_CODE = cBUSY ∧
          t.dev.get e ENC.CMD_ST_STATE 0 w.encGrp = (if jobGrp j = w.encGrp then s.dev.get e ENC.CMD_ST_STATE 0 w.encGrp else 3)) ∧
      (s.dev.encl.job = none →
        (∀ mid : BitVec 8, let g := Who.encGrp ⟨mid.toNat, false⟩
          (∃ t, exec (.encNonce mid) s = .next t ∧ t.pending = s.pending ∧ s.dev.keeps t.dev [e] ∧
            (if s.dev.encl.withheld.getD g false = true then t.dev.encl.nonce.getD g none = none ∧ t.dev.get e ENC.CMD_ST_STATE 0 g = 3 ∧
                t.dev.get e ENC.CMD_ST_REASON 0 g = cENC_RATE
             else t.dev.get e ENC.CMD_ST_STATE 0 g = 2 ∧ ∃ x : BitVec 128, t.dev.encl.nonce.getD g none = some x ∧
                ∀ k : Fin 4, t.dev.get e ENC.NONCE k g = x.toNat / 2 ^ (32 * k.val) % 2 ^ 32)) ∧
          (∃ t, exec (.encClose mid) s = .next t ∧ t.pending = s.pending ∧ s.dev.keeps t.dev [e, shp .hst, shp .slt] ∧ t.dev.get e ENC.AUTH_ROLE 0 g = 0 ∧
            t.dev.get e ENC.CMD_ST_STATE 0 g = 2) ∧
          (∃ t, exec (.encAttest mid) s = .next t ∧ t.pending = s.pending ∧ s.dev.keeps t.dev [e] ∧ t.dev.get e ENC.CMD_ST_STATE 0 g = 1 ∧
            t.dev.encl.job = some (.attest g (s.dev.attReport g))) ∧
          (∃ t, exec (.encCert mid) s = .next t ∧ t.pending = s.pending ∧ s.dev.keeps t.dev [e] ∧ t.dev.get e ENC.CMD_ST_STATE 0 g = 2 ∧
            t.dev.get e ENC.REP_DATA_WORD 0 (g * 1024) = s.dev.get e ENC.DEV_ID_LO)) ∧
        (∀ (i : Instr) (kind : Nat) (mid : BitVec 8) (mach : Bool), (i = .tokenAuth mid mach ∧ kind = 1 ∨ i = .tokenKeyAdd mid mach ∧ kind = 2 ∨
            i = .tokenKeyRevoke mid mach ∧ kind = 3 ∨ i = .tokenSiltClear mid mach ∧ kind = 4 ∨ i = .tokenLifecycle mid mach ∧ kind = 5) →
          let g := Who.encGrp ⟨mid.toNat, mach⟩
          let tok := s.dev.tokenOf g
          (Dev.tokKind tok ≠ kind → exec i s = .next s) ∧
          (Dev.tokKind tok = kind → ∃ t, exec i s = .next t ∧ t.pending = s.pending ∧ s.dev.keeps t.dev [e, shp .hst, shp .slt] ∧
            (∀ why, s.dev.tokWhy g tok = some why → t.dev.get e ENC.CMD_ST_STATE 0 g = 3 ∧ t.dev.get e ENC.CMD_ST_REASON 0 g = why % 2 ^ 8 ∧ t.dev.keys = s.dev.keys ∧
              t.dev.encl.nonce = s.dev.encl.nonce ∧ t.dev.encl.authKey = s.dev.encl.authKey ∧ t.dev.encl.refused.getD g 0 = s.dev.encl.refused.getD g 0 + 1 ∧
              (s.dev.encl.refused.getD g 0 ≥ 4 → t.dev.encl.withheld.getD g false = true)) ∧
            (s.dev.tokWhy g tok = none → t.dev.get e ENC.CMD_ST_STATE 0 g = 2 ∧ t.dev.encl.refused.getD g 0 = 0 ∧
              (kind ≠ 4 → t.dev.encl.nonce.getD g none = none) ∧
              (kind = 1 → t.dev.get e ENC.AUTH_ROLE 0 g = Dev.tokRole tok % 2 ^ 3 ∧ t.dev.encl.authKey.getD g none = some (Dev.tokKey tok) ∧ t.dev.keys = s.dev.keys) ∧
              (kind = 2 → t.dev.keys = s.dev.keys ++ [⟨Dev.tokArg tok 0 1, Dev.tokNewKey tok, Dev.tokArg tok 1 1⟩]) ∧
              (kind = 3 → t.dev.keys = s.dev.keys.filter (fun k => k.id != BitVec.ofNat 128 (Dev.tokArg tok 0 16))) ∧
              (kind = 4 → t.dev.silt.token = some (Dev.tokArg tok 0 1, Dev.tokArg tok 4 4, Dev.tokKey tok, Dev.tokAt tok 0x20 8) ∧ t.dev.keys = s.dev.keys) ∧
              (kind = 5 → (Dev.tokArg tok 0 1 = 3 → t.dev.get e ENC.LIFE_STATE = 3 ∧ t.dev.keys = [] ∧ t.dev.encl.devKey = false) ∧
                (Dev.tokArg tok 0 1 ≠ 3 → t.dev.get e ENC.LIFE_STATE = 2 ∧ t.dev.keys = s.dev.keys))))) ∧
        (∀ (mid : BitVec 8) (mach : Bool), let w : Who := ⟨mid.toNat, mach⟩
          let a := s.dev.get e ENC.INST_SRC * 65536
          let sl := s.dev.get e ENC.INST_SLOT
          (s.dev.engineer w = true → s.dev.get (shp .bot) BOT.PHASE_CODE ≠ 7 → ∃ t, exec (.encInstall mid mach) s = .next t ∧ t.pending = s.pending ∧
            s.dev.keeps t.dev [e, shp .slt] ∧
            (if a < s.dev.userBase ∨ Dev.mramEnd ≤ a then t.dev.get e ENC.CMD_ST_REASON 0 w.encGrp = cRANGE ∧ t.dev.encl = s.dev.encl
             else if s.dev.get e ENC.BOOT_SLOT = sl then t.dev.get e ENC.CMD_ST_REASON 0 w.encGrp = cENC_SLOT ∧ t.dev.encl = s.dev.encl
             else match s.dev.imgWhy s.dev.mram a with
               | some why => t.dev.get e ENC.CMD_ST_STATE 0 w.encGrp = 3 ∧ t.dev.get e ENC.CMD_ST_REASON 0 w.encGrp = why % 2 ^ 8 ∧ t.dev.encl.job = none ∧
                   bitN t.dev.encl.slotBad sl = 1
               | none => t.dev.get e ENC.CMD_ST_STATE 0 w.encGrp = 1 ∧ t.dev.encl.job = some (.install w.encGrp a sl) ∧ bitN t.dev.encl.slotBad sl = 1)) ∧
          (s.dev.engineer w = true → ∃ t, exec (.encAcceptVersion mid mach) s = .next t ∧ t.pending = s.pending ∧ s.dev.keeps t.dev [e] ∧
            t.dev.get e ENC.CMD_ST_STATE 0 w.encGrp = 2 ∧
            t.dev.get e ENC.MIN_VER_V = max (((s.dev.cyx s.dev.holder).img.map (fun i => i.ver)).getD 0) (s.dev.get e ENC.MIN_VER_V) % 2 ^ 32))) ∧
      (∀ (i : Instr) (mid : BitVec 8) (mach : Bool), (i = .encInstall mid mach ∨ i = .encAcceptVersion mid mach) → let w : Who := ⟨mid.toNat, mach⟩
        s.dev.engineer w = false → ∃ t, exec i s = .next t ∧ t.pending = s.pending ∧ s.dev.keeps t.dev [e, shp .slt] ∧ t.dev.encl = s.dev.encl ∧
          t.dev.get e ENC.CMD_ST_STATE 0 w.encGrp = 3 ∧ t.dev.get e ENC.CMD_ST_REASON 0 w.encGrp = cPRIV) ∧
      (∀ g : Fin 3,
        (∀ r : List Nat, s.dev.encl.job = some (.attest g r) → ∃ t, exec .encAttestDone s = .next t ∧ t.pending = s.pending ∧ s.dev.keeps t.dev [e] ∧
          t.dev.encl.job = none ∧ t.dev.get e ENC.CMD_ST_STATE 0 g = 2 ∧ ∀ k : Fin 64, t.dev.get e ENC.REP_DATA_WORD 0 (g * 1024 + k) = leAt r (4 * k.val) 4 % 2 ^ 32) ∧
        (∃ t, exec (.encRepDataRead g) s = .next t ∧ t.pending = s.pending ∧ s.dev.keeps t.dev [e] ∧
          t.dev.resp = ⟨[BitVec.ofNat 32 (s.dev.get e ENC.REP_DATA_WORD 0 (g * 1024 + s.dev.get e ENC.REP_ADDR_WORD 0 g))], false, 0⟩ ∧
          t.dev.get e ENC.REP_ADDR_WORD 0 g = (s.dev.get e ENC.REP_ADDR_WORD 0 g + 1) % 2 ^ 10) ∧
        (∀ v : Word, let a := s.dev.get e ENC.TOK_ADDR_WORD 0 g
          a < 1024 → ∃ t, exec (.encTokDataWrite g v) s = .next t ∧ t.pending = s.pending ∧ s.dev.keeps t.dev [e] ∧
            t.dev.get e ENC.TOK_DATA_WORD 0 (g * 1024 + a) = v.toNat ∧ t.dev.get e ENC.TOK_ADDR_WORD 0 g = if a ≥ 863 then 0 else a + 1) ∧
        (s.dev.get e ENC.AUTH_ROLE 0 g = 0 → exec (.authExpiry g) s = .next s) ∧
        (s.dev.get e ENC.AUTH_ROLE 0 g ≠ 0 → ∃ t, exec (.authExpiry g) s = .next t ∧ t.pending = s.pending ∧ s.dev.keeps t.dev [e, shp .hst, shp .slt] ∧
          t.dev.get e ENC.AUTH_ROLE 0 g = 0 ∧ t.dev.get e ENC.AUTH_LEFT_S 0 g = 0 ∧ t.dev.encl.authKey.getD g none = none) ∧
        (∃ t, exec (.encNonceLapse g) s = .next t ∧ t.pending = s.pending ∧ s.dev.keeps t.dev [e] ∧ t.dev.encl.nonce.getD g none = none ∧
          ∀ k : Fin 4, t.dev.get e ENC.NONCE k g = 0) ∧
        (∃ t, exec (.encRateEnd g) s = .next t ∧ t.pending = s.pending ∧ t.dev.regs = s.dev.regs ∧ t.dev.memories = s.dev.memories ∧
          t.dev.encl.withheld.getD g false = false ∧ t.dev.encl.refused.getD g 0 = 0) ∧
        (∀ (a : Nat) (sl : Fin 2) (ok : Bool), s.dev.encl.job = some (.install g a sl) → s.dev.memWf = true →
          let len := 0x1000 + ((imgHdr s.dev.mram a).map (fun h => h.len)).getD 0
          Dev.slotBase sl + 0x10000000 ≤ a → len ≤ 0x10000000 → ∃ t, exec (.encInstallDone ok) s = .next t ∧ t.pending = s.pending ∧ t.dev.encl.job = none ∧
            (∀ x, x < Dev.slotBase sl ∨ Dev.slotBase sl + 0x10000000 ≤ x → memRead t.dev.mram x = memRead s.dev.mram x) ∧
            (∀ x, x < len → memRead t.dev.mram (Dev.slotBase sl + x) = memRead s.dev.mram (a + x)) ∧ t.dev.ha.sram = s.dev.ha.sram ∧ t.dev.hb.sram = s.dev.hb.sram ∧
            (ok = false → t.dev.get e ENC.CMD_ST_STATE 0 g = 3 ∧ t.dev.get e ENC.CMD_ST_REASON 0 g = cECC) ∧
            (ok = true → t.dev.get e ENC.CMD_ST_STATE 0 g = if (t.dev.slotHdr sl).isSome then 2 else 3))))

/-- From R513 and R522 to R526: the host link does nothing while it is strapped off; STATUS answers with its word and RESET ends the session, both
clearing the write error; a misaligned address is malformed; a READ or WRITE of one word is the access of the host at that address; through the MRAM
window every word of a READ is what MRAM holds there and every word of a WRITE is stored there, at one address for the FIX forms; a WRITE beyond the
room is not taken; words cut off by QSPI_nCS are not accessed; boot data is taken in order, and its sequence starts anew when it is too long or idle.
The model's own choices in it: notes/assumptions/50.md. -/
def Obligations.HostLink : Prop :=
  ∀ s : State, s.out = true → s.dev.shaped = true → let p := shp .hst
    (∀ (i : Instr) (a : BitVec 32) (n got : BitVec 8) (late : Option (BitVec 8)) (ws : List (BitVec 32)) (wr fix : Bool),
      (i = .hstStatus ∨ i = .hstReset ∨ i = .hstBootData a ws ∨ i = .hstRead a n late ∨ i = .hstReadFix a n late ∨ i = .hstWrite a ws ∨ i = .hstWriteFix a ws ∨
        i = .hstCsAbort wr fix a n got ws) →
      (s.dev.hostOn = false → exec i s = .next s) ∧
      (s.dev.hostOn = true → a.toNat % 4 ≠ 0 → i ≠ .hstStatus → i ≠ .hstReset → ∃ t, exec i s = .next t ∧ t.pending = s.pending ∧ s.dev.keeps t.dev [p] ∧
        t.dev.get p HDR.ERR_CODE = cHST_PROTO ∧ t.dev.get p HST.ERR_CNT_PROTO = satU 16 (s.dev.get p HST.ERR_CNT_PROTO + 1) % 2 ^ 16 ∧
        t.dev.get p HST.XFER_COUNT = (s.dev.get p HST.XFER_COUNT + 1) % 2 ^ 32)) ∧
    (s.dev.hostOn = true →
      (∃ t, exec .hstStatus s = .next t ∧ t.pending = s.pending ∧ s.dev.keeps t.dev [p] ∧ t.dev.resp = ⟨[BitVec.ofNat 32 (s.dev.readWord ⟨0x12, false⟩ p 0x040)], false, 0⟩ ∧
        t.dev.get p HST.STATUS_WR_ERR = 0 ∧ t.dev.get p HST.STATUS_FULL = 0 ∧ t.dev.get p HST.XFER_COUNT = (s.dev.get p HST.XFER_COUNT + 1) % 2 ^ 32) ∧
      (∃ t, exec .hstReset s = .next t ∧ t.pending = s.pending ∧ s.dev.keeps t.dev [p, shp .enc, shp .slt] ∧ t.dev.get p HST.STATUS_WR_ERR = 0 ∧
        t.dev.get p HST.STATUS_FULL = 0 ∧ t.dev.get p HST.STATUS_WR_FREE = 64 ∧ t.dev.get (shp .enc) ENC.AUTH_ROLE 0 1 = 0) ∧
      (∀ (a : BitVec 32) (fix : Bool), a.toNat % 4 = 0 → 0x20000000 ≤ a.toNat →
        let off := s.dev.get p HST.WIN_BASE_BASE * 0x100000 + (a.toNat - 0x20000000)
        let inWin := fun (k : Nat) => let span := if fix then 4 else 4 * k
          a.toNat + span ≤ 0x40000000 ∧ 0x24000000 ≤ off ∧ s.dev.userBase ≤ off ∧ off + span ≤ Dev.mramEnd ∧ ∀ b ∈ s.dev.mbad, b + 4 ≤ off ∨ off + span ≤ b
        let cell := fun (i : Nat) => off + if fix then 0 else 4 * i
        (∀ (i : Instr) (k : Nat), inWin k →
          ((∃ n : BitVec 8, k = n.toNat + 1 ∧ (fix = false ∧ i = .hstRead a n none ∨ fix = true ∧ i = .hstReadFix a n none)) ∨
            ∃ (n got : BitVec 8) (ws : List (BitVec 32)), k = min got.toNat n.toNat ∧ i = .hstCsAbort false fix a n got ws) →
          ∃ t, exec i s = .next t ∧ t.pending = s.pending ∧ s.dev.keeps t.dev [p] ∧ t.dev.get p HST.XFER_COUNT = (s.dev.get p HST.XFER_COUNT + 1) % 2 ^ 32 ∧
            t.dev.resp = ⟨(List.range k).map (fun j => BitVec.ofNat 32 (ofLe ((memReads s.dev.mram (cell j) 4).map BitVec.toNat))), false, 0⟩) ∧
        (∀ (i : Instr) (ws : List (BitVec 32)), inWin ws.length → ws.length ≤ s.dev.get p HST.STATUS_WR_FREE →
          (fix = false ∧ i = .hstWrite a ws ∨ fix = true ∧ i = .hstWriteFix a ws ∨
            ∃ (n got : BitVec 8) (wt : List (BitVec 32)), ws = wt.take (min got.toNat n.toNat) ∧ n.toNat + 1 ≤ s.dev.get p HST.STATUS_WR_FREE ∧
              i = .hstCsAbort true fix a n got wt) →
          ∃ t, exec i s = .next t ∧ t.pending = s.pending ∧ t.dev.get p HST.XFER_COUNT = (s.dev.get p HST.XFER_COUNT + 1) % 2 ^ 32 ∧ t.dev.resp = ⟨[], false, 0⟩ ∧
            t.dev.ha.sram = s.dev.ha.sram ∧ t.dev.hb.sram = s.dev.hb.sram ∧ (∀ k, keyPage k ≠ p → rfFind k t.dev.regs = rfFind k s.dev.regs) ∧
            (∀ x, (∀ j < ws.length, x < cell j ∨ cell j + 4 ≤ x) → memRead t.dev.mram x = memRead s.dev.mram x) ∧
            ∀ j < ws.length, (fix = true → j + 1 = ws.length) → ∀ q < 4,
              (memRead t.dev.mram (cell j + q)).toNat = (leBytes 4 (ws.getD j 0).toNat).getD q 0)) ∧
      (∀ a : BitVec 32, a.toNat % 4 = 0 →
        (∀ (i : Instr) (u : State), (i = .hstRead a 0 none ∨ i = .hstReadFix a 0 none) → exec (.clearingRead ⟨0x12, false⟩ ⟨a.setWidth 64, 4, false⟩) { s with dev := s.dev.hstCount } = .next u →
          ∃ t, exec i s = .next t ∧ t.pending = s.pending ∧ t.dev.regs = u.dev.regs ∧ t.dev.memories = u.dev.memories ∧
            (u.dev.resp.busErr = false → t.dev.resp = ⟨u.dev.resp.words, false, 0⟩) ∧ (u.dev.resp.busErr = true → t.dev.resp = ⟨[], true, u.dev.resp.code⟩)) ∧
        (∀ (i : Instr) (n : BitVec 8), (i = .hstRead a n (some 0) ∨ i = .hstReadFix a n (some 0)) → ∃ t, exec i s = .next t ∧ t.pending = s.pending ∧
          t.dev.resp = ⟨[], true, cTIMEOUT⟩ ∧ s.dev.keeps t.dev [p]) ∧
        (∀ (i : Instr) (v : BitVec 32) (u : State), (i = .hstWrite a [v] ∨ i = .hstWriteFix a [v]) → s.dev.get p HST.STATUS_WR_FREE ≠ 0 →
          exec (.registerWrite ⟨0x12, false⟩ (a.setWidth 64) 4 (v.setWidth 64)) { s with dev := s.dev.hstCount } = .next u →
          ∃ t, exec i s = .next t ∧ t.pending = s.pending ∧ t.dev.memories = u.dev.memories ∧
            (u.dev.resp.busErr = false → u.dev.resp.code ≠ cPRIV → t.dev.regs = u.dev.regs) ∧
            (u.dev.resp.busErr = true ∨ u.dev.resp.code = cPRIV → t.dev.get p HST.STATUS_WR_ERR = 1 ∧ t.dev.get p HST.WR_FAIL_ADDR = a.toNat ∧
              t.dev.get p HST.STATUS_WR_CODE = u.dev.resp.code % 2 ^ 8)) ∧
        (∀ (i : Instr) (ws : List (BitVec 32)), (i = .hstWrite a ws ∨ i = .hstWriteFix a ws) → ws.length > s.dev.get p HST.STATUS_WR_FREE →
          ∃ t, exec i s = .next t ∧ t.pending = s.pending ∧ s.dev.keeps t.dev [p] ∧ t.dev.get p HST.STATUS_FULL = 1 ∧ t.dev.get p HDR.ERR_CODE = cHST_FULL) ∧
        (∀ (wr fix : Bool) (n : BitVec 8) (ws : List (BitVec 32)), n.toNat + 1 ≤ s.dev.get p HST.STATUS_WR_FREE → ∃ t, exec (.hstCsAbort wr fix a n 0 ws) s = .next t ∧ t.pending = s.pending ∧
          t.dev.resp = ⟨[], false, 0⟩ ∧ s.dev.keeps t.dev [p]) ∧
        (∀ ws : List (BitVec 32),
          (s.dev.on p HST.STATUS_BOOT_REQ = false ∨ a.toNat ≠ s.dev.get p HST.BOOT_OFS_BYTES → ∃ t, exec (.hstBootData a ws) s = .next t ∧ t.pending = s.pending ∧
            s.dev.keeps t.dev [p] ∧ t.dev.boot = s.dev.boot ∧ t.dev.get p HDR.ERR_CODE = cHST_BOOT_ORDER) ∧
          (let img := s.dev.boot.hostImg ++ ((ws.map BitVec.toNat).flatMap (leBytes 4)).map (BitVec.ofNat 8)
           s.dev.on p HST.STATUS_BOOT_REQ = true → a.toNat = s.dev.get p HST.BOOT_OFS_BYTES →
            (img.length < 0x600 → ∃ t, exec (.hstBootData a ws) s = .next t ∧ t.pending = s.pending ∧ s.dev.keeps t.dev [p] ∧ t.dev.boot.hostImg = img ∧
              t.dev.get p HST.BOOT_OFS_BYTES = img.length) ∧
            (img.length ≥ 0x600 → leAt (img.map BitVec.toNat) 0x10 4 > Dev.bodyMax → ∃ t, exec (.hstBootData a ws) s = .next t ∧ t.pending = s.pending ∧ s.dev.keeps t.dev [p] ∧
              t.dev.boot.hostImg = [] ∧ t.dev.get p HST.BOOT_OFS_BYTES = 0 ∧ t.dev.get p HDR.ERR_CODE = cRANGE))))) ∧
    (if s.dev.on p HST.STATUS_BOOT_REQ = true then
      ∃ t, exec .hstBootIdle s = .next t ∧ t.pending = s.pending ∧ s.dev.keeps t.dev [p] ∧ t.dev.boot.hostImg = [] ∧ t.dev.get p HST.BOOT_OFS_BYTES = 0 ∧
        t.dev.get p HDR.ERR_CODE = cHST_BOOT_IDLE
     else exec .hstBootIdle s = .next s) ∧
    (s.dev.get (shp .enc) ENC.AUTH_ROLE 0 1 = 0 → exec .hstSessionIdle s = .next s) ∧
    (s.dev.get (shp .enc) ENC.AUTH_ROLE 0 1 ≠ 0 → ∃ t, exec .hstSessionIdle s = .next t ∧ t.pending = s.pending ∧ s.dev.keeps t.dev [p, shp .enc, shp .slt] ∧
      t.dev.get (shp .enc) ENC.AUTH_ROLE 0 1 = 0 ∧ t.dev.get p HST.STATUS_SESSION = 0)

/-- From R530 to R532, R534, R538, R541, R542 and R544: an input is shown in its window and lost below it; low inputs and a hot plate are reported
once an episode; the power-fail warning marks the shutdown and ends in reset; a reset of the part discards staged values and keeps MRAM, the clock and
the keys; power-good and the release end it; the halves whose input stands enter REPAIR; without one that is ready the strobe ends the boot. The
model's own choices in it: notes/assumptions/8.md, 46.md, 54.md. -/
def Obligations.PowerResetAndBoot : Prop :=
  ∀ s : State, let p := shp .pwr
    let vin := fun (i : HalfId) => match i with | .a => PWR.VIN_A_MV | .b => PWR.VIN_B_MV
    (∀ (i : HalfId) (mv : BitVec 16),
      (∃ t, exec (.inputOk i mv) s = .next t ∧ t.pending = s.pending ∧ s.dev.keeps t.dev [p] ∧ t.dev.get p (vin i) = mv.toNat ∧
        (if 19000 ≤ mv.toNat ∧ mv.toNat ≤ 32000 ∧ ¬ (s.dev.on p (Dev.vinOv i) = true ∧ 31000 ≤ mv.toNat) then
          t.dev.on p (Dev.vinOk i) = true ∧ (s.dev.on p (Dev.vinOk i) = false → t.dev.get p (Dev.vinOv i) = 0)
         else t.dev.get p (Dev.vinOk i) = s.dev.get p (Dev.vinOk i))) ∧
      (∃ t, exec (.inputLost i mv) s = .next t ∧ t.pending = s.pending ∧ t.dev.mram = s.dev.mram ∧
        (mv.toNat ≥ 18000 ∨ s.dev.on p (Dev.vinOk i) = false → t.dev.get p (vin i) = mv.toNat ∧ t.dev.get p (Dev.vinOk i) = s.dev.get p (Dev.vinOk i) ∧
          s.dev.keeps t.dev [p]) ∧
        (mv.toNat < 18000 → s.out = false → s.dev.on p (Dev.vinOk i) = true → t.dev.get p (Dev.vinOk i) = 0 ∧ s.dev.keeps t.dev [p])) ∧
      (∃ t, exec (.inputOvervoltage i mv) s = .next t ∧ t.pending = s.pending ∧ t.dev.mram = s.dev.mram ∧
        (mv.toNat ≤ 32000 ∨ s.dev.on p (Dev.vinOv i) = true → t.dev.get p (vin i) = mv.toNat ∧ s.dev.keeps t.dev [p]) ∧
        (mv.toNat > 32000 → s.dev.on p (Dev.vinOk i) = false → t.dev.on p (Dev.vinOv i) = true ∧ s.dev.keeps t.dev [p, shp .slt] ∧
          (s.out = true → s.dev.on p (Dev.vinOv i) = false → t.dev.get p HDR.ERR_CODE = cPWR_OVERVOLT)))) ∧
    (if s.dev.supplied = true ∧ s.dev.boot.good = false then
      ∃ t, exec .powerGood s = .next t ∧ t.pending = s.pending ∧ t.dev = { s.dev with boot := { s.dev.boot with good := true, powerUp := true } }
     else exec .powerGood s = .next s) ∧
    (∃ t, exec .nresetAssert s = .next t ∧ t.pending = s.pending ∧ t.out = false ∧ t.dev.boot.nreset = true ∧ t.dev.shadow = [] ∧ t.dev.fenced = [] ∧
      t.dev.mram = s.dev.mram ∧ t.dev.keys = s.dev.keys ∧ t.dev.now = s.dev.now ∧ t.dev.ha = Half.init ∧ t.dev.hb = Half.init ∧ t.dev.saf.active = none) ∧
    (∀ (straps : BitVec 16) (aoLost tagOk ok1 ok2 : Bool) (cols : List (BitVec 16)),
      (s.dev.boot.good = false ∨ s.dev.boot.holdup = true ∨ s.out = true → ∃ t, exec (.resetRelease straps aoLost tagOk ok1 ok2 cols) s = .next t ∧ t.pending = s.pending ∧
        t.dev = { s.dev with boot := { s.dev.boot with nreset := false } }) ∧
      (s.dev.boot.good = true → s.dev.boot.holdup = false → s.out = false → ∃ t, exec (.resetRelease straps aoLost tagOk ok1 ok2 cols) s = .next t ∧ t.pending = s.pending ∧ t.out = true ∧
        t.dev.boot.nreset = false ∧ t.dev.boot.powerUp = false ∧ t.dev.boot.mark = false)) ∧
    (∀ live : BitVec 16, ∃ t, exec (.strapChange live) s = .next t ∧ t.pending = s.pending ∧ t.dev.get (shp .bot) BOT.STRAP_LIVE = live.toNat ∧
      t.dev.get (shp .bot) BOT.STRAP_RAW = s.dev.get (shp .bot) BOT.STRAP_RAW ∧ s.dev.keeps t.dev [shp .bot, shp .slt]) ∧
    (if s.dev.supplied = true ∨ s.dev.boot.good = false ∨ s.dev.boot.holdup = true then exec (.powerFailWarn false) s = .next s
     else ∃ t, exec (.powerFailWarn false) s = .next t ∧ t.pending = s.pending ∧
      (s.out = false → t.dev = { s.dev with boot := { s.dev.boot with holdup := true } }) ∧
      (s.out = true → t.dev.boot = { s.dev.boot with holdup := true, mark := true } ∧ t.dev.get p PWR.IN_PFW = 1 ∧
        t.dev.get p HDR.ERR_CODE = cPWR_FAIL_WARN ∧ t.dev.silt.qProt = [] ∧ t.dev.silt.qUn = s.dev.silt.qUn ∧ s.dev.keeps t.dev [p, shp .slt])) ∧
    (if s.dev.boot.holdup = true then ∃ t, exec (.powerFailWarn true) s = .next t ∧ t.pending = s.pending ∧ t.out = false ∧ t.dev.boot.good = false ∧
      t.dev.boot.holdup = false ∧ t.dev.mram = s.dev.mram ∧ t.dev.shadow = []
     else exec (.powerFailWarn true) s = .next s) ∧
    (s.out = true →
      (∀ (i : HalfId) (mv : BitVec 16), s.dev.boot.vinEp.length = 2 → ∃ t, exec (.pwrInLow i mv) s = .next t ∧ t.pending = s.pending ∧ s.dev.keeps t.dev [p, shp .slt] ∧
        t.dev.get p (vin i) = mv.toNat ∧
        let low := s.dev.on p (Dev.vinOk i) && decide (mv.toNat < s.dev.get p PWR.WARN_VIN_MV)
        t.dev.boot.vinEp.getD i.n false = low ∧ (low = true → s.dev.boot.vinEp.getD i.n false = false → t.dev.get p HDR.ERR_CODE = cPWR_IN_LOW)) ∧
      (∀ x : BitVec 16, let warn : Int := s.dev.get p PWR.WARN_TEMP
        ∃ t, exec (.pwrTemp x) s = .next t ∧ t.pending = s.pending ∧ s.dev.keeps t.dev [p, shp .slt] ∧ t.dev.geti p PWR.TEMP_PLATE = x.toInt ∧
          t.dev.boot.tempEp = (if x.toInt > warn then true else if x.toInt ≤ warn - 20 then false else s.dev.boot.tempEp) ∧
          (x.toInt > warn → s.dev.boot.tempEp = false → t.dev.get p HDR.ERR_CODE = cPWR_TEMP)) ∧
      (∀ h : HalfId, (s.dev.hlfState h ≠ 4 ∨ s.dev.inputOk h = false ∨ (s.dev.hlf h).hold = true → exec (.halfResetRelease h) s = .next s) ∧
        (s.dev.hlfState h = 4 → s.dev.inputOk h = true → (s.dev.hlf h).hold = false → ∃ t, exec (.halfResetRelease h) s = .next t ∧ t.pending = s.pending ∧
          t.dev.hlfState h = 5 ∧ (t.dev.hlf h).ready = false ∧ t.dev.memories = s.dev.memories)) ∧
      (s.dev.weir.strobed = true → exec .claimStrobe s = .next s) ∧
      (s.dev.weir.strobed = false → (∀ h : HalfId, s.dev.hlfState h ≠ 5 ∨ (s.dev.hlf h).ready = false) → ∃ t, exec .claimStrobe s = .next t ∧ t.pending = s.pending ∧
        t.dev.weir.strobed = true ∧ t.dev.get (shp .bot) BOT.PHASE_CODE = 8 ∧ t.dev.get (shp .bot) BOT.PHASE_WHY = 2 ∧ s.dev.keeps t.dev [shp .bot]))

/-- From R534: while the part is in reset its regions stand still; only what the monitors, the always-on domain, the tamper sensors and the contacts
and sensors outside report is taken, and the release. The model's own choices in it: notes/assumptions/8.md. -/
def Obligations.HeldInReset : Prop :=
  ∀ (i : Instr) (s : State), s.out = false →
    exec i s = .next s ∨ (∃ h mv, i = .inputOk h mv ∨ i = .inputLost h mv ∨ i = .inputOvervoltage h mv) ∨ i = .powerGood ∨ i = .nresetAssert ∨
    (∃ x a b c d cs, i = .resetRelease x a b c d cs) ∨ (∃ x, i = .strapChange x) ∨ i = .tick ∨ (∃ x, i = .tamper x) ∨ (∃ x, i = .alarmFire x) ∨
    i = .vbatSwitchover ∨ i = .rtcOscResume ∨ (∃ x, i = .chargerLimit x) ∨ (∃ b, i = .powerFailWarn b) ∨ (∃ n b, i = .safeInputChange n b) ∨ (∃ n b, i = .dinDebouncedChange n b)

/-- Every step keeps a sound part sound: the memories stay in their canonical form, and every list that stands for a fixed number of like things keeps
that number. -/
def Obligations.StepKeepsSound : Prop :=
  ∀ s t : State, s.dev.sound = true → step s = .next t → t.dev.sound = true

/-- The state after reset: nothing waits and nothing is staged, the part is in reset and sound, no byte of memory is listed, no safety output
conducts, and the registers hold the reset values their tables give; the lifecycle state and the identity of the device are the model's choice
(notes/assumptions/13.md). The model's own choices in it: notes/assumptions/3.md, 4.md, 5.md, 13.md, 67.md. -/
def Obligations.ResetState : Prop :=
  State.reset.pending = [] ∧ State.reset.out = false ∧ State.reset.dev.sound = true ∧ State.reset.dev.memories = [[], [], []] ∧ State.reset.dev.shadow = [] ∧
  State.reset.dev.allOff = true ∧ State.reset.dev.get (pgMpg .a 0) MPG.SERVO_CFG_MULT = 16 ∧ State.reset.dev.get (pgMpg .b 0) MPG.SERVO_CFG_MULT = 16 ∧
  State.reset.dev.get (shp .pwr) PWR.WARN_VIN_MV = 20000 ∧ State.reset.dev.get (shp .enc) ENC.SESS_IDLE_S = 300 ∧ State.reset.dev.get (shp .dout) DOUT.SILENCE_MS = 20 ∧
  State.reset.dev.get (shp .glk) GLK.EPOCH_MGR_POS = 31 ∧ State.reset.dev.get (pgCan 0) CAN.TT_CELL_BUF 0 5 = 0xFF ∧ State.reset.dev.enabled (shp .cfg) = true ∧
  State.reset.dev.enabled (pgCan 3) = false ∧ State.reset.dev.get (shp .slt) SLT.CFG_WARN_PCT = 90
end

