-- ==== Sys2Proof/Laws/File.lean ====
section
/-! SUPPORT. The register file: reading after writing, and what a write leaves alone. -/
namespace Sys2Proof.Machine

open Sys2Proof

theorem rfFind_insert_same (k : Nat) (v : Word) (r : List (Nat × Word)) : rfFind k (rfInsert k v r) = some v := by
  induction r with
  | nil => simp [rfInsert, rfFind]
  | cons e r ih =>
    obtain ⟨k', v'⟩ := e
    by_cases h : k' = k
    · simp [rfInsert, rfFind, h]
    · by_cases h2 : k < k'
      · simp [rfInsert, rfFind, h, h2]
      · simp [rfInsert, rfFind, h, h2, ih]

theorem rfFind_insert_ne {k k₂ : Nat} (hk : k₂ ≠ k) (v : Word) (r : List (Nat × Word)) :
    rfFind k₂ (rfInsert k v r) = rfFind k₂ r := by
  induction r with
  | nil => simp [rfInsert, rfFind, Ne.symm hk]
  | cons e r ih =>
    obtain ⟨k', v'⟩ := e
    by_cases h : k' = k
    · subst h; simp [rfInsert, rfFind, Ne.symm hk]
    · by_cases h2 : k < k'
      · simp [rfInsert, rfFind, h, h2, Ne.symm hk]
      · simp [rfInsert, rfFind, h, h2, ih]

theorem rfFind_erase_same (k : Nat) (r : List (Nat × Word)) : rfFind k (rfErase k r) = none := by
  induction r with
  | nil => simp [rfErase, rfFind]
  | cons e r ih =>
    obtain ⟨k', v'⟩ := e
    by_cases h : k' = k
    · simpa [rfErase, h] using ih
    · simp [rfErase, rfFind, h] at ih ⊢; exact ih

theorem rfFind_erase_ne {k k₂ : Nat} (hk : k₂ ≠ k) (r : List (Nat × Word)) : rfFind k₂ (rfErase k r) = rfFind k₂ r := by
  induction r with
  | nil => simp [rfErase]
  | cons e r ih =>
    obtain ⟨k', v'⟩ := e
    by_cases h : k' = k
    · subst h; simp [rfErase, rfFind, Ne.symm hk] at ih ⊢; exact ih
    · simp [rfErase, rfFind, h] at ih ⊢; split <;> simp_all

theorem rfFind_set_ne {k k₂ : Nat} (hk : k₂ ≠ k) (x : Nat) (v : Word) (r : List (Nat × Word)) :
    rfFind k₂ (rfSet k x v r) = rfFind k₂ r := by
  unfold rfSet; split
  · exact rfFind_erase_ne hk r
  · exact rfFind_insert_ne hk v r

namespace Dev

/-- A field of at most 32 bits reads back what was written to it, truncated to its width. -/
theorem get_put_same (d : Dev) (p : Nat) (f : Fld) (v i t : Nat) (hw : f.w ≤ 32) :
    (d.put p f v i t).get p f i t = v % 2 ^ f.w := by
  have h1 : v % 2 ^ f.w < 2 ^ 32 := Nat.lt_of_lt_of_le (Nat.mod_lt _ (Nat.two_pow_pos _)) (Nat.pow_le_pow_right (by decide) hw)
  have h2 : (BitVec.ofNat 32 (v % 2 ^ f.w)).toNat = v % 2 ^ f.w := by rw [BitVec.toNat_ofNat, Nat.mod_eq_of_lt h1]
  have h3 : ∀ r, (match rfFind (fkey p f i t) (rfSet (fkey p f i t) (resetOf p f) (BitVec.ofNat 32 (v % 2 ^ f.w)) r) with
      | some w => w.toNat
      | none => resetOf p f) = v % 2 ^ f.w := by
    intro r; unfold rfSet; rw [h2]; by_cases h : v % 2 ^ f.w = resetOf p f
    · rw [if_pos h]; rw [rfFind_erase_same]; exact h.symm
    · rw [if_neg h, rfFind_insert_same]; exact h2
  exact h3 d.regs

/-- A write of one field leaves every field with another key as it was. -/
theorem get_put_ne (d : Dev) (p q : Nat) (f g : Fld) (v i t j u : Nat) (h : fkey q g j u ≠ fkey p f i t) :
    (d.put p f v i t).get q g j u = d.get q g j u := by
  simp only [get, put, rfFind_set_ne h]

/-- Only the register file decides what a field reads as. -/
theorem get_congr {d e : Dev} (h : d.regs = e.regs) (p : Nat) (f : Fld) (i t : Nat) : d.get p f i t = e.get p f i t := by
  simp only [get, h]

end Dev

end Sys2Proof.Machine
end

