-- ==== Sys2Proof/Laws/Memory.lean ====
section
/-! SUPPORT. The laws of the addressed memories: what a write leaves at each address, and that it keeps the canonical form. -/
namespace Sys2Proof.Machine

open Sys2Proof

/-- Every listed address lies above a bound. -/
def Memory.above (a : Nat) (m : List Host.Cell) : Prop := ∀ c ∈ m, a < c.1

theorem Memory.wf_cons {a : Nat} {v : Byte} {m : List Host.Cell} :
    Memory.wf ((a, v) :: m) = true ↔ v ≠ memDflt ∧ Memory.above a m ∧ Memory.wf m = true := by
  induction m generalizing a v with
  | nil => simp [Memory.wf, Memory.above]
  | cons c r ih =>
    obtain ⟨b, w⟩ := c
    have e : Memory.wf ((a, v) :: (b, w) :: r) = (v != memDflt && decide (a < b) && Memory.wf ((b, w) :: r)) := rfl
    rw [e]
    simp only [Bool.and_eq_true, bne_iff_ne, ne_eq, decide_eq_true_eq, Memory.above, List.mem_cons, forall_eq_or_imp]
    constructor
    · rintro ⟨⟨h1, h2⟩, h3⟩
      exact ⟨h1, ⟨h2, fun c hc => Nat.lt_trans h2 ((ih.1 h3).2.1 c hc)⟩, h3⟩
    · rintro ⟨h1, ⟨h2, -⟩, h3⟩
      exact ⟨⟨h1, h2⟩, h3⟩

/-- An address below every listed one reads as unlisted. -/
theorem memRead_above {a : Nat} {m : List Host.Cell} (h : Memory.above a m) : memRead m a = memDflt := by
  induction m with
  | nil => rfl
  | cons c r ih =>
    obtain ⟨b, w⟩ := c
    have hb : a < b := h (b, w) (by simp)
    have : b ≠ a := by omega
    simp only [memRead, if_neg this]
    exact ih (fun c hc => h c (by simp [hc]))

theorem Memory.above_insert {a b : Nat} {v : Byte} {m : List Host.Cell} (hb : b < a) (h : Memory.above b m) : Memory.above b (memInsert a v m) := by
  induction m with
  | nil => intro c hc; simp [memInsert] at hc; simp [hc, hb]
  | cons c r ih =>
    obtain ⟨x, w⟩ := c
    have hx : b < x := h (x, w) (by simp)
    have hr : Memory.above b r := fun c hc => h c (by simp [hc])
    unfold memInsert
    split
    · intro c hc; simp only [List.mem_cons] at hc; rcases hc with rfl | hc
      · exact hb
      · exact hr c hc
    · split
      · intro c hc; simp only [List.mem_cons] at hc; rcases hc with rfl | rfl | hc
        · exact hb
        · exact hx
        · exact hr c hc
      · intro c hc; simp only [List.mem_cons] at hc; rcases hc with rfl | hc
        · exact hx
        · exact ih hr c hc

theorem Memory.wf_insert {a : Nat} {v : Byte} {m : List Host.Cell} (hv : v ≠ memDflt) (h : Memory.wf m = true) : Memory.wf (memInsert a v m) = true := by
  induction m with
  | nil => simp [memInsert, Memory.wf, hv]
  | cons c r ih =>
    obtain ⟨x, w⟩ := c
    obtain ⟨h1, h2, h3⟩ := Memory.wf_cons.1 h
    unfold memInsert
    split
    · subst_vars; exact Memory.wf_cons.2 ⟨hv, h2, h3⟩
    · split
      · rename_i hax
        refine Memory.wf_cons.2 ⟨hv, ?_, h⟩
        intro c hc; simp only [List.mem_cons] at hc; rcases hc with rfl | hc
        · exact hax
        · exact Nat.lt_trans hax (h2 c hc)
      · exact Memory.wf_cons.2 ⟨h1, Memory.above_insert (by omega) h2, ih h3⟩

theorem Memory.wf_filter {p : Host.Cell → Bool} {m : List Host.Cell} (h : Memory.wf m = true) : Memory.wf (m.filter p) = true := by
  induction m with
  | nil => rfl
  | cons c r ih =>
    obtain ⟨x, w⟩ := c
    obtain ⟨h1, h2, h3⟩ := Memory.wf_cons.1 h
    rw [List.filter_cons]
    split
    · exact Memory.wf_cons.2 ⟨h1, fun c hc => h2 c (List.mem_filter.1 hc).1, ih h3⟩
    · exact ih h3

/-- A write keeps the canonical form. -/
theorem Memory.wf_memWrite {m : List Host.Cell} (a : Nat) (v : Byte) (h : Memory.wf m = true) : Memory.wf (memWrite m a v) = true := by
  unfold memWrite
  split
  · exact Memory.wf_filter h
  · exact Memory.wf_insert ‹_› h

/-- A write of several bytes keeps the canonical form. -/
theorem Memory.wf_memWrites {m : List Host.Cell} (a : Nat) (vs : List Byte) (h : Memory.wf m = true) : Memory.wf (memWrites m a vs) = true := by
  induction vs generalizing m a with
  | nil => exact h
  | cons v vs ih => exact ih (a + 1) (Memory.wf_memWrite a v h)

/-- A write of a word keeps the canonical form. -/
theorem Memory.wf_memPutWord {m : List Host.Cell} (a w : Nat) (h : Memory.wf m = true) : Memory.wf (memPutWord m a w) = true :=
  Memory.wf_memWrites a _ h

theorem memRead_insert (m : List Host.Cell) (a b : Nat) (v : Byte) : memRead (memInsert a v m) b = if b = a then v else memRead m b := by
  induction m with
  | nil => simp [memInsert, memRead, eq_comm]
  | cons c r ih =>
    obtain ⟨x, w⟩ := c
    unfold memInsert
    split
    · subst_vars; by_cases h : b = x <;> simp [memRead, h, eq_comm (a := x)]
    · split
      · by_cases h : b = a
        · simp [memRead, h]
        · simp [memRead, h, eq_comm (a := a)]
      · by_cases h : b = a
        · subst h
          have : x ≠ b := fun e => ‹¬ b = x› e.symm
          simp [memRead, this, ih]
        · simp only [memRead, ih, if_neg h]

theorem memRead_filter (m : List Host.Cell) (a b : Nat) : memRead (m.filter (fun c => !(c.1 == a))) b = if b = a then memDflt else memRead m b := by
  induction m with
  | nil => simp [memRead]
  | cons c r ih =>
    obtain ⟨x, w⟩ := c
    by_cases hx : x = a
    · subst hx
      simp only [List.filter_cons, beq_self_eq_true, Bool.not_true, Bool.false_eq_true, if_false, ih]
      by_cases h : b = x
      · simp [h]
      · simp [memRead, h, eq_comm (a := x)]
    · have : (x == a) = false := by simpa using hx
      simp only [List.filter_cons, this, Bool.not_false, if_true, memRead, ih]
      by_cases h : x = b
      · subst h; simp [hx]
      · simp [h]

/-- What an address reads as after a write of one byte. -/
theorem memRead_memWrite (m : List Host.Cell) (a b : Nat) (v : Byte) : memRead (memWrite m a v) b = if b = a then v else memRead m b := by
  unfold memWrite
  split
  · subst_vars; exact memRead_filter m a b
  · exact memRead_insert m a b v

/-- An address outside the written bytes reads as before. -/
theorem memRead_memWrites_outside (m : List Host.Cell) (a b : Nat) (vs : List Byte) (h : b < a ∨ a + vs.length ≤ b) :
    memRead (memWrites m a vs) b = memRead m b := by
  induction vs generalizing m a with
  | nil => rfl
  | cons v vs ih =>
    simp only [List.length_cons] at h
    rw [memWrites, ih _ _ (by omega), memRead_memWrite, if_neg (by omega)]

/-- The written bytes read back. -/
theorem memReads_memWrites (m : List Host.Cell) (a : Nat) (vs : List Byte) : memReads (memWrites m a vs) a vs.length = vs := by
  induction vs generalizing m a with
  | nil => rfl
  | cons v vs ih =>
    simp only [List.length_cons, memReads]
    rw [memWrites, memRead_memWrites_outside _ _ _ _ (by omega), memRead_memWrite, if_pos rfl, ih]

end Sys2Proof.Machine
end

