-- ==== Sys2Proof/Laws/State.lean ====
section
/-! SUPPORT. What each update of the part leaves alone, field by field: simp lemmas, each true by rfl, so that no proof unfolds a record update. -/
namespace Sys2Proof.Machine

open Sys2Proof

/-! ### The queue and the part -/

@[simp] theorem State.dev_mk (d : Dev) (q : List Instr) : (State.mk d q).dev = d := rfl
@[simp] theorem State.pending_mk (d : Dev) (q : List Instr) : (State.mk d q).pending = q := rfl

namespace Dev

/-! ### A write of a register field -/

@[simp] theorem put_shadow (d : Dev) (p : Nat) (f : Fld) (v i t : Nat) : (d.put p f v i t).shadow = d.shadow := rfl
@[simp] theorem put_immCnt (d : Dev) (p : Nat) (f : Fld) (v i t : Nat) : (d.put p f v i t).immCnt = d.immCnt := rfl
@[simp] theorem put_resp (d : Dev) (p : Nat) (f : Fld) (v i t : Nat) : (d.put p f v i t).resp = d.resp := rfl
@[simp] theorem put_freeCtr (d : Dev) (p : Nat) (f : Fld) (v i t : Nat) : (d.put p f v i t).freeCtr = d.freeCtr := rfl
@[simp] theorem put_cfgFrozen (d : Dev) (p : Nat) (f : Fld) (v i t : Nat) : (d.put p f v i t).cfgFrozen = d.cfgFrozen := rfl
@[simp] theorem put_ha (d : Dev) (p : Nat) (f : Fld) (v i t : Nat) : (d.put p f v i t).ha = d.ha := rfl
@[simp] theorem put_hb (d : Dev) (p : Nat) (f : Fld) (v i t : Nat) : (d.put p f v i t).hb = d.hb := rfl
@[simp] theorem put_enc (d : Dev) (p : Nat) (f : Fld) (v i t : Nat) : (d.put p f v i t).enc = d.enc := rfl
@[simp] theorem put_pCopy (d : Dev) (p : Nat) (f : Fld) (v i t : Nat) : (d.put p f v i t).pCopy = d.pCopy := rfl
@[simp] theorem put_pRes (d : Dev) (p : Nat) (f : Fld) (v i t : Nat) : (d.put p f v i t).pRes = d.pRes := rfl
@[simp] theorem put_pClm (d : Dev) (p : Nat) (f : Fld) (v i t : Nat) : (d.put p f v i t).pClm = d.pClm := rfl
@[simp] theorem put_pEpoch (d : Dev) (p : Nat) (f : Fld) (v i t : Nat) : (d.put p f v i t).pEpoch = d.pEpoch := rfl
@[simp] theorem put_pInt (d : Dev) (p : Nat) (f : Fld) (v i t : Nat) : (d.put p f v i t).pInt = d.pInt := rfl
@[simp] theorem put_stpPins (d : Dev) (p : Nat) (f : Fld) (v i t : Nat) : (d.put p f v i t).stpPins = d.stpPins := rfl
@[simp] theorem put_carDoorShut (d : Dev) (p : Nat) (f : Fld) (v i t : Nat) : (d.put p f v i t).carDoorShut = d.carDoorShut := rfl
@[simp] theorem put_landShut (d : Dev) (p : Nat) (f : Fld) (v i t : Nat) : (d.put p f v i t).landShut = d.landShut := rfl
@[simp] theorem put_silt (d : Dev) (p : Nat) (f : Fld) (v i t : Nat) : (d.put p f v i t).silt = d.silt := rfl
@[simp] theorem put_fio (d : Dev) (p : Nat) (f : Fld) (v i t : Nat) : (d.put p f v i t).fio = d.fio := rfl
@[simp] theorem put_can (d : Dev) (p : Nat) (f : Fld) (v i t : Nat) : (d.put p f v i t).can = d.can := rfl
@[simp] theorem put_lane (d : Dev) (p : Nat) (f : Fld) (v i t : Nat) : (d.put p f v i t).lane = d.lane := rfl
@[simp] theorem put_rtc (d : Dev) (p : Nat) (f : Fld) (v i t : Nat) : (d.put p f v i t).rtc = d.rtc := rfl
@[simp] theorem put_glk (d : Dev) (p : Nat) (f : Fld) (v i t : Nat) : (d.put p f v i t).glk = d.glk := rfl
@[simp] theorem put_hlfA (d : Dev) (p : Nat) (f : Fld) (v i t : Nat) : (d.put p f v i t).hlfA = d.hlfA := rfl
@[simp] theorem put_hlfB (d : Dev) (p : Nat) (f : Fld) (v i t : Nat) : (d.put p f v i t).hlfB = d.hlfB := rfl
@[simp] theorem put_weir (d : Dev) (p : Nat) (f : Fld) (v i t : Nat) : (d.put p f v i t).weir = d.weir := rfl
@[simp] theorem put_store (d : Dev) (p : Nat) (f : Fld) (v i t : Nat) : (d.put p f v i t).store = d.store := rfl
@[simp] theorem put_encl (d : Dev) (p : Nat) (f : Fld) (v i t : Nat) : (d.put p f v i t).encl = d.encl := rfl
@[simp] theorem put_boot (d : Dev) (p : Nat) (f : Fld) (v i t : Nat) : (d.put p f v i t).boot = d.boot := rfl
@[simp] theorem put_mbad (d : Dev) (p : Nat) (f : Fld) (v i t : Nat) : (d.put p f v i t).mbad = d.mbad := rfl
@[simp] theorem put_mces (d : Dev) (p : Nat) (f : Fld) (v i t : Nat) : (d.put p f v i t).mces = d.mces := rfl
@[simp] theorem put_remap (d : Dev) (p : Nat) (f : Fld) (v i t : Nat) : (d.put p f v i t).remap = d.remap := rfl
@[simp] theorem put_remapBad (d : Dev) (p : Nat) (f : Fld) (v i t : Nat) : (d.put p f v i t).remapBad = d.remapBad := rfl
@[simp] theorem put_fenced (d : Dev) (p : Nat) (f : Fld) (v i t : Nat) : (d.put p f v i t).fenced = d.fenced := rfl
@[simp] theorem put_aborting (d : Dev) (p : Nat) (f : Fld) (v i t : Nat) : (d.put p f v i t).aborting = d.aborting := rfl
@[simp] theorem put_badRegs (d : Dev) (p : Nat) (f : Fld) (v i t : Nat) : (d.put p f v i t).badRegs = d.badRegs := rfl
@[simp] theorem put_saf (d : Dev) (p : Nat) (f : Fld) (v i t : Nat) : (d.put p f v i t).saf = d.saf := rfl
@[simp] theorem put_keys (d : Dev) (p : Nat) (f : Fld) (v i t : Nat) : (d.put p f v i t).keys = d.keys := rfl
@[simp] theorem put_mram (d : Dev) (p : Nat) (f : Fld) (v i t : Nat) : (d.put p f v i t).mram = d.mram := rfl

/-! ### A change of a half -/

@[simp] theorem setHalf_regs (d : Dev) (h : HalfId) (x : Half) : (d.setHalf h x).regs = d.regs := by cases h <;> rfl
@[simp] theorem setHalf_shadow (d : Dev) (h : HalfId) (x : Half) : (d.setHalf h x).shadow = d.shadow := by cases h <;> rfl
@[simp] theorem setHalf_immCnt (d : Dev) (h : HalfId) (x : Half) : (d.setHalf h x).immCnt = d.immCnt := by cases h <;> rfl
@[simp] theorem setHalf_resp (d : Dev) (h : HalfId) (x : Half) : (d.setHalf h x).resp = d.resp := by cases h <;> rfl
@[simp] theorem setHalf_freeCtr (d : Dev) (h : HalfId) (x : Half) : (d.setHalf h x).freeCtr = d.freeCtr := by cases h <;> rfl
@[simp] theorem setHalf_cfgFrozen (d : Dev) (h : HalfId) (x : Half) : (d.setHalf h x).cfgFrozen = d.cfgFrozen := by cases h <;> rfl
@[simp] theorem setHalf_enc (d : Dev) (h : HalfId) (x : Half) : (d.setHalf h x).enc = d.enc := by cases h <;> rfl
@[simp] theorem setHalf_pCopy (d : Dev) (h : HalfId) (x : Half) : (d.setHalf h x).pCopy = d.pCopy := by cases h <;> rfl
@[simp] theorem setHalf_pRes (d : Dev) (h : HalfId) (x : Half) : (d.setHalf h x).pRes = d.pRes := by cases h <;> rfl
@[simp] theorem setHalf_pClm (d : Dev) (h : HalfId) (x : Half) : (d.setHalf h x).pClm = d.pClm := by cases h <;> rfl
@[simp] theorem setHalf_pEpoch (d : Dev) (h : HalfId) (x : Half) : (d.setHalf h x).pEpoch = d.pEpoch := by cases h <;> rfl
@[simp] theorem setHalf_pInt (d : Dev) (h : HalfId) (x : Half) : (d.setHalf h x).pInt = d.pInt := by cases h <;> rfl
@[simp] theorem setHalf_stpPins (d : Dev) (h : HalfId) (x : Half) : (d.setHalf h x).stpPins = d.stpPins := by cases h <;> rfl
@[simp] theorem setHalf_carDoorShut (d : Dev) (h : HalfId) (x : Half) : (d.setHalf h x).carDoorShut = d.carDoorShut := by cases h <;> rfl
@[simp] theorem setHalf_landShut (d : Dev) (h : HalfId) (x : Half) : (d.setHalf h x).landShut = d.landShut := by cases h <;> rfl
@[simp] theorem setHalf_silt (d : Dev) (h : HalfId) (x : Half) : (d.setHalf h x).silt = d.silt := by cases h <;> rfl
@[simp] theorem setHalf_fio (d : Dev) (h : HalfId) (x : Half) : (d.setHalf h x).fio = d.fio := by cases h <;> rfl
@[simp] theorem setHalf_can (d : Dev) (h : HalfId) (x : Half) : (d.setHalf h x).can = d.can := by cases h <;> rfl
@[simp] theorem setHalf_lane (d : Dev) (h : HalfId) (x : Half) : (d.setHalf h x).lane = d.lane := by cases h <;> rfl
@[simp] theorem setHalf_rtc (d : Dev) (h : HalfId) (x : Half) : (d.setHalf h x).rtc = d.rtc := by cases h <;> rfl
@[simp] theorem setHalf_glk (d : Dev) (h : HalfId) (x : Half) : (d.setHalf h x).glk = d.glk := by cases h <;> rfl
@[simp] theorem setHalf_hlfA (d : Dev) (h : HalfId) (x : Half) : (d.setHalf h x).hlfA = d.hlfA := by cases h <;> rfl
@[simp] theorem setHalf_hlfB (d : Dev) (h : HalfId) (x : Half) : (d.setHalf h x).hlfB = d.hlfB := by cases h <;> rfl
@[simp] theorem setHalf_weir (d : Dev) (h : HalfId) (x : Half) : (d.setHalf h x).weir = d.weir := by cases h <;> rfl
@[simp] theorem setHalf_store (d : Dev) (h : HalfId) (x : Half) : (d.setHalf h x).store = d.store := by cases h <;> rfl
@[simp] theorem setHalf_encl (d : Dev) (h : HalfId) (x : Half) : (d.setHalf h x).encl = d.encl := by cases h <;> rfl
@[simp] theorem setHalf_boot (d : Dev) (h : HalfId) (x : Half) : (d.setHalf h x).boot = d.boot := by cases h <;> rfl
@[simp] theorem setHalf_mbad (d : Dev) (h : HalfId) (x : Half) : (d.setHalf h x).mbad = d.mbad := by cases h <;> rfl
@[simp] theorem setHalf_mces (d : Dev) (h : HalfId) (x : Half) : (d.setHalf h x).mces = d.mces := by cases h <;> rfl
@[simp] theorem setHalf_remap (d : Dev) (h : HalfId) (x : Half) : (d.setHalf h x).remap = d.remap := by cases h <;> rfl
@[simp] theorem setHalf_remapBad (d : Dev) (h : HalfId) (x : Half) : (d.setHalf h x).remapBad = d.remapBad := by cases h <;> rfl
@[simp] theorem setHalf_fenced (d : Dev) (h : HalfId) (x : Half) : (d.setHalf h x).fenced = d.fenced := by cases h <;> rfl
@[simp] theorem setHalf_aborting (d : Dev) (h : HalfId) (x : Half) : (d.setHalf h x).aborting = d.aborting := by cases h <;> rfl
@[simp] theorem setHalf_badRegs (d : Dev) (h : HalfId) (x : Half) : (d.setHalf h x).badRegs = d.badRegs := by cases h <;> rfl
@[simp] theorem setHalf_saf (d : Dev) (h : HalfId) (x : Half) : (d.setHalf h x).saf = d.saf := by cases h <;> rfl
@[simp] theorem setHalf_keys (d : Dev) (h : HalfId) (x : Half) : (d.setHalf h x).keys = d.keys := by cases h <;> rfl
@[simp] theorem setHalf_mram (d : Dev) (h : HalfId) (x : Half) : (d.setHalf h x).mram = d.mram := by cases h <;> rfl
@[simp] theorem modHalf_regs (d : Dev) (h : HalfId) (g : Half → Half) : (d.modHalf h g).regs = d.regs := by cases h <;> rfl
@[simp] theorem modHalf_shadow (d : Dev) (h : HalfId) (g : Half → Half) : (d.modHalf h g).shadow = d.shadow := by cases h <;> rfl
@[simp] theorem modHalf_immCnt (d : Dev) (h : HalfId) (g : Half → Half) : (d.modHalf h g).immCnt = d.immCnt := by cases h <;> rfl
@[simp] theorem modHalf_resp (d : Dev) (h : HalfId) (g : Half → Half) : (d.modHalf h g).resp = d.resp := by cases h <;> rfl
@[simp] theorem modHalf_freeCtr (d : Dev) (h : HalfId) (g : Half → Half) : (d.modHalf h g).freeCtr = d.freeCtr := by cases h <;> rfl
@[simp] theorem modHalf_cfgFrozen (d : Dev) (h : HalfId) (g : Half → Half) : (d.modHalf h g).cfgFrozen = d.cfgFrozen := by cases h <;> rfl
@[simp] theorem modHalf_enc (d : Dev) (h : HalfId) (g : Half → Half) : (d.modHalf h g).enc = d.enc := by cases h <;> rfl
@[simp] theorem modHalf_pCopy (d : Dev) (h : HalfId) (g : Half → Half) : (d.modHalf h g).pCopy = d.pCopy := by cases h <;> rfl
@[simp] theorem modHalf_pRes (d : Dev) (h : HalfId) (g : Half → Half) : (d.modHalf h g).pRes = d.pRes := by cases h <;> rfl
@[simp] theorem modHalf_pClm (d : Dev) (h : HalfId) (g : Half → Half) : (d.modHalf h g).pClm = d.pClm := by cases h <;> rfl
@[simp] theorem modHalf_pEpoch (d : Dev) (h : HalfId) (g : Half → Half) : (d.modHalf h g).pEpoch = d.pEpoch := by cases h <;> rfl
@[simp] theorem modHalf_pInt (d : Dev) (h : HalfId) (g : Half → Half) : (d.modHalf h g).pInt = d.pInt := by cases h <;> rfl
@[simp] theorem modHalf_stpPins (d : Dev) (h : HalfId) (g : Half → Half) : (d.modHalf h g).stpPins = d.stpPins := by cases h <;> rfl
@[simp] theorem modHalf_carDoorShut (d : Dev) (h : HalfId) (g : Half → Half) : (d.modHalf h g).carDoorShut = d.carDoorShut := by cases h <;> rfl
@[simp] theorem modHalf_landShut (d : Dev) (h : HalfId) (g : Half → Half) : (d.modHalf h g).landShut = d.landShut := by cases h <;> rfl
@[simp] theorem modHalf_silt (d : Dev) (h : HalfId) (g : Half → Half) : (d.modHalf h g).silt = d.silt := by cases h <;> rfl
@[simp] theorem modHalf_fio (d : Dev) (h : HalfId) (g : Half → Half) : (d.modHalf h g).fio = d.fio := by cases h <;> rfl
@[simp] theorem modHalf_can (d : Dev) (h : HalfId) (g : Half → Half) : (d.modHalf h g).can = d.can := by cases h <;> rfl
@[simp] theorem modHalf_lane (d : Dev) (h : HalfId) (g : Half → Half) : (d.modHalf h g).lane = d.lane := by cases h <;> rfl
@[simp] theorem modHalf_rtc (d : Dev) (h : HalfId) (g : Half → Half) : (d.modHalf h g).rtc = d.rtc := by cases h <;> rfl
@[simp] theorem modHalf_glk (d : Dev) (h : HalfId) (g : Half → Half) : (d.modHalf h g).glk = d.glk := by cases h <;> rfl
@[simp] theorem modHalf_hlfA (d : Dev) (h : HalfId) (g : Half → Half) : (d.modHalf h g).hlfA = d.hlfA := by cases h <;> rfl
@[simp] theorem modHalf_hlfB (d : Dev) (h : HalfId) (g : Half → Half) : (d.modHalf h g).hlfB = d.hlfB := by cases h <;> rfl
@[simp] theorem modHalf_weir (d : Dev) (h : HalfId) (g : Half → Half) : (d.modHalf h g).weir = d.weir := by cases h <;> rfl
@[simp] theorem modHalf_store (d : Dev) (h : HalfId) (g : Half → Half) : (d.modHalf h g).store = d.store := by cases h <;> rfl
@[simp] theorem modHalf_encl (d : Dev) (h : HalfId) (g : Half → Half) : (d.modHalf h g).encl = d.encl := by cases h <;> rfl
@[simp] theorem modHalf_boot (d : Dev) (h : HalfId) (g : Half → Half) : (d.modHalf h g).boot = d.boot := by cases h <;> rfl
@[simp] theorem modHalf_mbad (d : Dev) (h : HalfId) (g : Half → Half) : (d.modHalf h g).mbad = d.mbad := by cases h <;> rfl
@[simp] theorem modHalf_mces (d : Dev) (h : HalfId) (g : Half → Half) : (d.modHalf h g).mces = d.mces := by cases h <;> rfl
@[simp] theorem modHalf_remap (d : Dev) (h : HalfId) (g : Half → Half) : (d.modHalf h g).remap = d.remap := by cases h <;> rfl
@[simp] theorem modHalf_remapBad (d : Dev) (h : HalfId) (g : Half → Half) : (d.modHalf h g).remapBad = d.remapBad := by cases h <;> rfl
@[simp] theorem modHalf_fenced (d : Dev) (h : HalfId) (g : Half → Half) : (d.modHalf h g).fenced = d.fenced := by cases h <;> rfl
@[simp] theorem modHalf_aborting (d : Dev) (h : HalfId) (g : Half → Half) : (d.modHalf h g).aborting = d.aborting := by cases h <;> rfl
@[simp] theorem modHalf_badRegs (d : Dev) (h : HalfId) (g : Half → Half) : (d.modHalf h g).badRegs = d.badRegs := by cases h <;> rfl
@[simp] theorem modHalf_saf (d : Dev) (h : HalfId) (g : Half → Half) : (d.modHalf h g).saf = d.saf := by cases h <;> rfl
@[simp] theorem modHalf_keys (d : Dev) (h : HalfId) (g : Half → Half) : (d.modHalf h g).keys = d.keys := by cases h <;> rfl
@[simp] theorem modHalf_mram (d : Dev) (h : HalfId) (g : Half → Half) : (d.modHalf h g).mram = d.mram := by cases h <;> rfl
@[simp] theorem half_setHalf_same (d : Dev) (h : HalfId) (x : Half) : (d.setHalf h x).half h = x := by cases h <;> rfl
@[simp] theorem half_modHalf_same (d : Dev) (h : HalfId) (g : Half → Half) : (d.modHalf h g).half h = g (d.half h) := by cases h <;> rfl
@[simp] theorem half_modHalf_other (d : Dev) (h : HalfId) (g : Half → Half) : (d.modHalf h g).half h.other = d.half h.other := by
  cases h <;> rfl
@[simp] theorem half_put (d : Dev) (h : HalfId) (p : Nat) (f : Fld) (v i t : Nat) : (d.put p f v i t).half h = d.half h := by cases h <;> rfl

end Dev

end Sys2Proof.Machine
end

