-- ==== Sys2Proof/Laws/Ops.lean ====
section
/-! SUPPORT. One law for each shared operation: what it can do to registers, memories and the intake. -/
namespace Sys2Proof.Machine

open Sys2Proof

/-! ### Keys and pages -/

theorem keyPage_fkey (p : Nat) {f : Fld} {i t : Nat} (h : Inside f i t) : keyPage (fkey p f i t) = p := by
  obtain ⟨h1, h2, h3⟩ := h
  unfold keyPage fkey pageSpan
  omega

theorem fkey_ne_of_page {p q : Nat} {f g : Fld} {i t j u : Nat} (hf : Inside f i t) (hg : Inside g j u) (h : p ≠ q) :
    fkey p f i t ≠ fkey q g j u := by
  intro e
  apply h
  rw [← keyPage_fkey p hf, e, keyPage_fkey q hg]

namespace Dev

/-- A write of a field on one page leaves every field of another page as it was. -/
theorem get_put_page (d : Dev) {p q : Nat} {f g : Fld} (v : Nat) {i t j u : Nat} (h : q ≠ p) (hf : Inside f i t) (hg : Inside g j u) :
    (d.put p f v i t).get q g j u = d.get q g j u :=
  get_put_ne d p q f g v i t j u (fkey_ne_of_page hg hf h)

/-- What a key holds after a write of another key. -/
theorem rfFind_put_ne (d : Dev) (p : Nat) (f : Fld) (v i t k : Nat) (h : k ≠ fkey p f i t) :
    rfFind k (d.put p f v i t).regs = rfFind k d.regs := rfFind_set_ne h _ _ _

/-- What a key of another page holds after a write. -/
theorem rfFind_put_page (d : Dev) (p : Nat) (f : Fld) (v i t k : Nat) (hf : Inside f i t) (h : keyPage k ≠ p) :
    rfFind k (d.put p f v i t).regs = rfFind k d.regs := by
  apply rfFind_put_ne
  intro e; rw [e, keyPage_fkey p hf] at h; exact h rfl

/-! ### The frame -/

theorem keeps_refl (d : Dev) (ps : List Nat) : d.keeps d ps := ⟨rfl, fun _ _ => rfl⟩

theorem keeps_trans {d e f : Dev} {ps : List Nat} (h1 : d.keeps e ps) (h2 : e.keeps f ps) : d.keeps f ps :=
  ⟨h2.1.trans h1.1, fun k hk => (h2.2 k hk).trans (h1.2 k hk)⟩

theorem keeps_mono {d e : Dev} {ps qs : List Nat} (h : d.keeps e ps) (hq : ∀ p ∈ ps, p ∈ qs) : d.keeps e qs :=
  ⟨h.1, fun k hk => h.2 k (fun hp => hk (hq _ hp))⟩

/-- A part with the same registers and memories keeps everything. -/
theorem keeps_of_eq {d e : Dev} (h1 : e.regs = d.regs) (h2 : e.memories = d.memories) (ps : List Nat) : d.keeps e ps :=
  ⟨h2, fun k _ => by rw [h1]⟩

theorem keeps_put (d : Dev) (p : Nat) (f : Fld) (v i t : Nat) (ps : List Nat) (hf : Inside f i t) (hp : p ∈ ps) :
    d.keeps (d.put p f v i t) ps :=
  ⟨rfl, fun k hk => rfFind_put_page d p f v i t k hf (fun e => hk (e ▸ hp))⟩

/-- A field of a page outside the frame reads as before. -/
theorem get_keeps {d e : Dev} {ps : List Nat} (h : d.keeps e ps) {p : Nat} {f : Fld} {i t : Nat} (hf : Inside f i t) (hp : p ∉ ps) :
    e.get p f i t = d.get p f i t := by
  simp only [get, h.2 (fkey p f i t) (by rw [keyPage_fkey p hf]; exact hp)]

/-! ### The intake (R480, R483) -/

theorem rfFind_bump (d : Dev) (p : Nat) (f : Fld) (i t k : Nat) (hf : Inside f i t) (h : keyPage k ≠ p) :
    rfFind k (d.bump p f i t).regs = rfFind k d.regs := rfFind_put_page d p f _ i t k hf h

theorem rfFind_stat (d : Dev) (p b k : Nat) (h : keyPage k ≠ p) : rfFind k (d.stat p b).regs = rfFind k d.regs :=
  rfFind_put_page d p HDR.STAT_BLOCK _ 0 0 k (by decide) h

theorem rfFind_err (d : Dev) (p c x k : Nat) (h : keyPage k ≠ p) : rfFind k (d.err p c x).regs = rfFind k d.regs := by
  unfold err
  rw [rfFind_put_page _ p HDR.ERR_DETAIL _ 0 0 k (by decide) h, rfFind_put_page _ p HDR.ERR_CODE _ 0 0 k (by decide) h,
    rfFind_bump d p HDR.ERR_COUNT 0 0 k (by decide) h]

/-- `e` is `d` but for the Silt engine and the registers of the SLT page. -/
def SltOnly (d e : Dev) : Prop :=
  ∃ s rg, e = { d with silt := s, regs := rg } ∧ ∀ k, keyPage k ≠ shp .slt → rfFind k rg = rfFind k d.regs

theorem SltOnly.trans {d e f : Dev} (h1 : SltOnly d e) (h2 : SltOnly e f) : SltOnly d f := by
  obtain ⟨s, rg, rfl, hk⟩ := h1
  obtain ⟨s', rg', rfl, hk'⟩ := h2
  exact ⟨s', rg', rfl, fun k h => (hk' k h).trans (hk k h)⟩

theorem sltOnly_silt (d : Dev) (s : Silt) : SltOnly d { d with silt := s } := ⟨s, d.regs, rfl, fun _ _ => rfl⟩
theorem sltOnly_put (d : Dev) (f : Fld) (v : Nat) (hf : Inside f 0 0) : SltOnly d (d.put (shp .slt) f v) :=
  ⟨d.silt, _, rfl, fun k hk => rfFind_put_page d (shp .slt) f v 0 0 k hf hk⟩
theorem sltOnly_bump (d : Dev) (f : Fld) (hf : Inside f 0 0) : SltOnly d (d.bump (shp .slt) f) := sltOnly_put d f _ hf
theorem sltOnly_stat (d : Dev) (b : Nat) : SltOnly d (d.stat (shp .slt) b) := sltOnly_put d HDR.STAT_BLOCK _ (by decide)
theorem sltOnly_err (d : Dev) (c x : Nat) : SltOnly d (d.err (shp .slt) c x) :=
  ⟨d.silt, (d.err (shp .slt) c x).regs, rfl, fun k hk => rfFind_err d (shp .slt) c x k hk⟩

/-- A lost record touches the intake and the registers of the SLT page, nothing else. -/
theorem lose_eq (d : Dev) (r : Rec) : SltOnly d (d.lose r) := by
  unfold lose
  dsimp only
  split
  · refine SltOnly.trans ?_ (sltOnly_err _ _ _)
    split
    · exact ((sltOnly_silt d _).trans (sltOnly_bump _ SLT.LOST_PROT (by decide))).trans (sltOnly_stat _ 0)
    · exact (sltOnly_silt d _).trans (sltOnly_bump _ SLT.LOST_PROT (by decide))
  · refine SltOnly.trans ?_ (sltOnly_err _ _ _)
    split
    · exact ((sltOnly_silt d _).trans (sltOnly_bump _ SLT.LOST_UNPROT (by decide))).trans (sltOnly_stat _ 0)
    · exact (sltOnly_silt d _).trans (sltOnly_bump _ SLT.LOST_UNPROT (by decide))

/-- Posting a record touches the intake and the registers of the SLT page, nothing else. -/
theorem post_eq (d : Dev) (r : Rec) : SltOnly d (d.post r) := by
  unfold post
  dsimp only
  split
  · exact (sltOnly_silt d _).trans (sltOnly_put _ SLT.QUEUE_USED _ (by decide))
  · exact lose_eq d r

theorem rfFind_post (d : Dev) (r : Rec) (k : Nat) (h : keyPage k ≠ shp .slt) : rfFind k (d.post r).regs = rfFind k d.regs := by
  obtain ⟨s, rg, e, hk⟩ := post_eq d r
  rw [e]; exact hk k h

/-- A record leaves every field outside the SLT page as it was. -/
theorem get_post (d : Dev) (r : Rec) (p : Nat) (f : Fld) (i t : Nat) (hf : Inside f i t) (hp : p ≠ shp .slt) :
    (d.post r).get p f i t = d.get p f i t := by
  simp only [get, rfFind_post d r (fkey p f i t) (by rw [keyPage_fkey p hf]; exact hp)]

/-- A record leaves memories and every page but SLT as they were. -/
theorem keeps_post (d : Dev) (r : Rec) (ps : List Nat) (h : shp .slt ∈ ps) : d.keeps (d.post r) ps := by
  refine ⟨?_, fun k hk => rfFind_post d r k (fun e => hk (e ▸ h))⟩
  obtain ⟨s, rg, e, -⟩ := post_eq d r
  rw [e]; rfl

@[simp] theorem post_shadow (d : Dev) (r : Rec) : (d.post r).shadow = d.shadow := by obtain ⟨s, rg, e, -⟩ := post_eq d r; rw [e]
@[simp] theorem post_immCnt (d : Dev) (r : Rec) : (d.post r).immCnt = d.immCnt := by obtain ⟨s, rg, e, -⟩ := post_eq d r; rw [e]
@[simp] theorem post_resp (d : Dev) (r : Rec) : (d.post r).resp = d.resp := by obtain ⟨s, rg, e, -⟩ := post_eq d r; rw [e]
@[simp] theorem post_freeCtr (d : Dev) (r : Rec) : (d.post r).freeCtr = d.freeCtr := by obtain ⟨s, rg, e, -⟩ := post_eq d r; rw [e]
@[simp] theorem post_cfgFrozen (d : Dev) (r : Rec) : (d.post r).cfgFrozen = d.cfgFrozen := by obtain ⟨s, rg, e, -⟩ := post_eq d r; rw [e]
@[simp] theorem post_ha (d : Dev) (r : Rec) : (d.post r).ha = d.ha := by obtain ⟨s, rg, e, -⟩ := post_eq d r; rw [e]
@[simp] theorem post_hb (d : Dev) (r : Rec) : (d.post r).hb = d.hb := by obtain ⟨s, rg, e, -⟩ := post_eq d r; rw [e]
@[simp] theorem post_enc (d : Dev) (r : Rec) : (d.post r).enc = d.enc := by obtain ⟨s, rg, e, -⟩ := post_eq d r; rw [e]
@[simp] theorem post_pCopy (d : Dev) (r : Rec) : (d.post r).pCopy = d.pCopy := by obtain ⟨s, rg, e, -⟩ := post_eq d r; rw [e]
@[simp] theorem post_pRes (d : Dev) (r : Rec) : (d.post r).pRes = d.pRes := by obtain ⟨s, rg, e, -⟩ := post_eq d r; rw [e]
@[simp] theorem post_pClm (d : Dev) (r : Rec) : (d.post r).pClm = d.pClm := by obtain ⟨s, rg, e, -⟩ := post_eq d r; rw [e]
@[simp] theorem post_pEpoch (d : Dev) (r : Rec) : (d.post r).pEpoch = d.pEpoch := by obtain ⟨s, rg, e, -⟩ := post_eq d r; rw [e]
@[simp] theorem post_pInt (d : Dev) (r : Rec) : (d.post r).pInt = d.pInt := by obtain ⟨s, rg, e, -⟩ := post_eq d r; rw [e]
@[simp] theorem post_stpPins (d : Dev) (r : Rec) : (d.post r).stpPins = d.stpPins := by obtain ⟨s, rg, e, -⟩ := post_eq d r; rw [e]
@[simp] theorem post_carDoorShut (d : Dev) (r : Rec) : (d.post r).carDoorShut = d.carDoorShut := by obtain ⟨s, rg, e, -⟩ := post_eq d r; rw [e]
@[simp] theorem post_landShut (d : Dev) (r : Rec) : (d.post r).landShut = d.landShut := by obtain ⟨s, rg, e, -⟩ := post_eq d r; rw [e]
@[simp] theorem post_fio (d : Dev) (r : Rec) : (d.post r).fio = d.fio := by obtain ⟨s, rg, e, -⟩ := post_eq d r; rw [e]
@[simp] theorem post_can (d : Dev) (r : Rec) : (d.post r).can = d.can := by obtain ⟨s, rg, e, -⟩ := post_eq d r; rw [e]
@[simp] theorem post_lane (d : Dev) (r : Rec) : (d.post r).lane = d.lane := by obtain ⟨s, rg, e, -⟩ := post_eq d r; rw [e]
@[simp] theorem post_rtc (d : Dev) (r : Rec) : (d.post r).rtc = d.rtc := by obtain ⟨s, rg, e, -⟩ := post_eq d r; rw [e]
@[simp] theorem post_glk (d : Dev) (r : Rec) : (d.post r).glk = d.glk := by obtain ⟨s, rg, e, -⟩ := post_eq d r; rw [e]
@[simp] theorem post_hlfA (d : Dev) (r : Rec) : (d.post r).hlfA = d.hlfA := by obtain ⟨s, rg, e, -⟩ := post_eq d r; rw [e]
@[simp] theorem post_hlfB (d : Dev) (r : Rec) : (d.post r).hlfB = d.hlfB := by obtain ⟨s, rg, e, -⟩ := post_eq d r; rw [e]
@[simp] theorem post_weir (d : Dev) (r : Rec) : (d.post r).weir = d.weir := by obtain ⟨s, rg, e, -⟩ := post_eq d r; rw [e]
@[simp] theorem post_store (d : Dev) (r : Rec) : (d.post r).store = d.store := by obtain ⟨s, rg, e, -⟩ := post_eq d r; rw [e]
@[simp] theorem post_encl (d : Dev) (r : Rec) : (d.post r).encl = d.encl := by obtain ⟨s, rg, e, -⟩ := post_eq d r; rw [e]
@[simp] theorem post_boot (d : Dev) (r : Rec) : (d.post r).boot = d.boot := by obtain ⟨s, rg, e, -⟩ := post_eq d r; rw [e]
@[simp] theorem post_mbad (d : Dev) (r : Rec) : (d.post r).mbad = d.mbad := by obtain ⟨s, rg, e, -⟩ := post_eq d r; rw [e]
@[simp] theorem post_mces (d : Dev) (r : Rec) : (d.post r).mces = d.mces := by obtain ⟨s, rg, e, -⟩ := post_eq d r; rw [e]
@[simp] theorem post_remap (d : Dev) (r : Rec) : (d.post r).remap = d.remap := by obtain ⟨s, rg, e, -⟩ := post_eq d r; rw [e]
@[simp] theorem post_remapBad (d : Dev) (r : Rec) : (d.post r).remapBad = d.remapBad := by obtain ⟨s, rg, e, -⟩ := post_eq d r; rw [e]
@[simp] theorem post_fenced (d : Dev) (r : Rec) : (d.post r).fenced = d.fenced := by obtain ⟨s, rg, e, -⟩ := post_eq d r; rw [e]
@[simp] theorem post_aborting (d : Dev) (r : Rec) : (d.post r).aborting = d.aborting := by obtain ⟨s, rg, e, -⟩ := post_eq d r; rw [e]
@[simp] theorem post_badRegs (d : Dev) (r : Rec) : (d.post r).badRegs = d.badRegs := by obtain ⟨s, rg, e, -⟩ := post_eq d r; rw [e]
@[simp] theorem post_saf (d : Dev) (r : Rec) : (d.post r).saf = d.saf := by obtain ⟨s, rg, e, -⟩ := post_eq d r; rw [e]
@[simp] theorem post_keys (d : Dev) (r : Rec) : (d.post r).keys = d.keys := by obtain ⟨s, rg, e, -⟩ := post_eq d r; rw [e]
@[simp] theorem post_mram (d : Dev) (r : Rec) : (d.post r).mram = d.mram := by obtain ⟨s, rg, e, -⟩ := post_eq d r; rw [e]

/-! ### Status, errors, records -/

theorem get_stat_ne (d : Dev) (p k q : Nat) (f : Fld) (i t : Nat) (h : fkey q f i t ≠ fkey p HDR.STAT_BLOCK 0 0) :
    (d.stat p k).get q f i t = d.get q f i t := get_put_ne d p q HDR.STAT_BLOCK f _ 0 0 i t h

theorem get_err_code (d : Dev) (p c x : Nat) : (d.err p c x).get p HDR.ERR_CODE = c % 2 ^ 8 := by
  unfold err
  rw [get_put_ne _ p p HDR.ERR_DETAIL HDR.ERR_CODE _ 0 0 0 0 (by simp [fkey, HDR.ERR_DETAIL, HDR.ERR_CODE])]
  exact get_put_same _ p HDR.ERR_CODE c 0 0 (by decide)

theorem get_err_page (d : Dev) (p c x q : Nat) (f : Fld) (i t : Nat) (hf : Inside f i t) (h : q ≠ p) :
    (d.err p c x).get q f i t = d.get q f i t := by
  simp only [get, rfFind_err d p c x (fkey q f i t) (by rw [keyPage_fkey q hf]; exact h)]

theorem keeps_stat (d : Dev) (p k : Nat) (ps : List Nat) (h : p ∈ ps) : d.keeps (d.stat p k) ps := keeps_put d p _ _ 0 0 ps (by decide) h

theorem keeps_err (d : Dev) (p c x : Nat) (ps : List Nat) (h : p ∈ ps) : d.keeps (d.err p c x) ps :=
  ⟨rfl, fun k hk => rfFind_err d p c x k (fun e => hk (e ▸ h))⟩

theorem keeps_note (d : Dev) (p cls code x : Nat) (ws : List Nat) (ps : List Nat) (h : shp .slt ∈ ps) : d.keeps (d.note p cls code x ws) ps :=
  keeps_post d _ ps h

theorem keeps_fault (d : Dev) (p code x : Nat) (ws : List Nat) (ps : List Nat) (hp : p ∈ ps) (h : shp .slt ∈ ps) :
    d.keeps (d.fault p code x ws) ps := keeps_trans (keeps_err d p code x ps hp) (keeps_note _ p _ code x ws ps h)

theorem get_note (d : Dev) (p cls code x : Nat) (ws : List Nat) (q : Nat) (f : Fld) (i t : Nat) (hf : Inside f i t) (hq : q ≠ shp .slt) :
    (d.note p cls code x ws).get q f i t = d.get q f i t := get_post d _ q f i t hf hq

end Dev

/-! ### Meanings on the part (R534) -/

theorem onAny_next (f : Dev → Dev) (s : State) : onAny f s = .next { s with dev := f s.dev } := rfl

theorem onDev_out (f : Dev → Dev) {s : State} (h : s.dev.boot.released = true) : onDev f s = .next { s with dev := f s.dev } := by
  simp [onDev, onAny, h]

theorem onDev_held (f : Dev → Dev) {s : State} (h : s.dev.boot.released = false) : onDev f s = .next s := by
  simp [onDev, onAny, h]

end Sys2Proof.Machine
end

