-- ==== Sys2Proof/Laws/Stage.lean ====
section
/-! SUPPORT. The laws of page events: what the number of an event touches. -/
namespace Sys2Proof.Machine

open Sys2Proof

namespace Dev

/-- A write that a register page takes. -/
theorem pageWrite_eq (d : Dev) {w : Who} {addr : Nat} {p off : Nat} (hi : d.issues w = true) (hp : d.place w addr = .page p off) (b v : Nat) :
    d.busWrite w addr b v = d.pageWrite w p off addr b (v % 2 ^ 32) := by
  simp [Dev.busWrite, hi, hp]

/-- Nothing staged for an event leaves it nothing to apply. -/
theorem empty_filter {d : Dev} {p : Nat} {half : Option HalfId} (h : ∀ e ∈ d.shadow, ¬ (e.page = p ∧ e.half = half)) :
   d.shadow.filter (fun e => decide (e.page = p ∧ e.half = half)) = [] := by
  simp only [List.filter_eq_nil_iff]; intro e he; simpa using h e he

/-- Numbering an event stages nothing. -/
theorem markEvent_shadow (d : Dev) (p) (half) (seq) : (d.markEvent p half seq).shadow = d.shadow := by
  cases half <;> rfl

/-- Numbering an event touches its page only. -/
theorem markEvent_keeps (d : Dev) (p) (half) (seq) : d.keeps (d.markEvent p half seq) [p] := by
  cases half
  · exact Dev.keeps_put _ _ _ _ _ _ _ (by decide) (by simp)
  · rename_i h
    have hn : h.other.n < 65536 := by cases h <;> decide
    have hn2 : h.n < 65536 := by cases h <;> decide
    refine Dev.keeps_trans (Dev.keeps_trans (Dev.keeps_trans (Dev.keeps_put _ _ _ _ _ _ _ ?_ (by simp)) (Dev.keeps_put _ _ _ _ _ _ _ ?_ (by simp))) (Dev.keeps_put _ _ _ _ _ _ _ ?_ (by simp))) (Dev.keeps_put _ _ _ _ _ _ _ ?_ (by simp)) <;> simp [Inside, HDR.COMMIT_SEQ, HDR.COMMIT_RESULT, HDR.COMMIT_REASON, hn, hn2]

/-- An event shows its number. -/
theorem markEvent_seq (d : Dev) (p) (half) (seq) : (d.markEvent p half seq).get p HDR.COMMIT_SEQ 0 (Dev.commitIdx half) = seq % 65536 := by
  cases half with
  | none => exact Dev.get_put_same _ _ _ _ _ _ (by decide)
  | some h =>
    have h1 : ∀ (v x) (D : Dev), (((D.put p HDR.COMMIT_SEQ seq 0 h.n).put p HDR.COMMIT_SEQ seq 0 h.other.n).put p HDR.COMMIT_RESULT v 0 h.other.n |>.put p HDR.COMMIT_REASON x 0 h.other.n).get p HDR.COMMIT_SEQ 0 h.n = seq % 65536 := by
      intro v x D
      rw [Dev.get_put_ne _ _ _ _ _ _ _ _ _ _ (by cases h <;> simp [fkey, HDR.COMMIT_SEQ, HDR.COMMIT_REASON, HalfId.n, HalfId.other] <;> omega), Dev.get_put_ne _ _ _ _ _ _ _ _ _ _ (by cases h <;> simp [fkey, HDR.COMMIT_SEQ, HDR.COMMIT_RESULT, HalfId.n, HalfId.other] <;> omega), Dev.get_put_ne _ _ _ _ _ _ _ _ _ _ (by cases h <;> simp [fkey, HDR.COMMIT_SEQ, HalfId.n, HalfId.other])]
      exact Dev.get_put_same _ _ _ _ _ _ (by decide)
    exact h1 _ _ _

theorem commitIdx_lt (half) : Dev.commitIdx half < 2 := by
  cases half with
  | none => decide
  | some h => cases h <;> decide

theorem inside_hdr (f : Fld) (half) (h1 : f.off < 4096) (_h2 : f.stride = 0) (h3 : f.lo < 32) : Inside f 0 (Dev.commitIdx half) := by
  refine ⟨by omega, h3, ?_⟩
  have := commitIdx_lt half; omega

/-- A write of a lower word of a page leaves a field above it. -/
theorem put_keeps_off {d : Dev} {p : Nat} {g f : Fld} {v i t j u : Nat} (hf : Inside f i t) (hg : Inside g j u) (h : g.off + j * g.stride < f.off) :
    (d.put p g v j u).get p f i t = d.get p f i t := by
  apply Dev.get_put_ne
  obtain ⟨h1, h2, h3⟩ := hf
  obtain ⟨h4, h5, h6⟩ := hg
  unfold fkey
  have : 0 ≤ i * f.stride := Nat.zero_le _
  omega

/-- Numbering an event leaves what stands above the header. -/
theorem markEvent_get_body (d : Dev) (p) (half) (seq) (f : Fld) (i t) (hf : Inside f i t) (h : 0x40 ≤ f.off) :
    (d.markEvent p half seq).get p f i t = d.get p f i t := by
  cases half with
  | none => exact put_keeps_off hf (by decide) (by simp [HDR.COMMIT_SEQ]; omega)
  | some hh =>
    have hn : hh.other.n < 65536 := by cases hh <;> decide
    have hn2 : hh.n < 65536 := by cases hh <;> decide
    unfold Dev.markEvent
    dsimp only
    rw [put_keeps_off hf (by simp [Inside, HDR.COMMIT_REASON, hn]) (by simp [HDR.COMMIT_REASON]; omega), put_keeps_off hf (by simp [Inside, HDR.COMMIT_RESULT, hn]) (by simp [HDR.COMMIT_RESULT]; omega), put_keeps_off hf (by simp [Inside, HDR.COMMIT_SEQ, hn]) (by simp [HDR.COMMIT_SEQ]; omega), put_keeps_off hf (by simp [Inside, HDR.COMMIT_SEQ, hn2]) (by simp [HDR.COMMIT_SEQ]; omega)]

/-- Numbering an event leaves the hold. -/
theorem markEvent_hold (d : Dev) (p) (half) (seq) : (d.markEvent p half seq).get p HDR.CTRL_STAGE_HOLD = d.get p HDR.CTRL_STAGE_HOLD := by
  cases half with
  | none => exact Dev.get_put_ne _ _ _ _ _ _ _ _ _ _ (by simp [fkey, HDR.CTRL_STAGE_HOLD, HDR.COMMIT_SEQ]; omega)
  | some hh =>
    have hn : hh.other.n < 2 := by cases hh <;> decide
    have hn2 : hh.n < 2 := by cases hh <;> decide
    unfold Dev.markEvent
    dsimp only
    rw [Dev.get_put_ne _ _ _ _ _ _ _ _ _ _ (by simp [fkey, HDR.CTRL_STAGE_HOLD, HDR.COMMIT_REASON]; omega), Dev.get_put_ne _ _ _ _ _ _ _ _ _ _ (by simp [fkey, HDR.CTRL_STAGE_HOLD, HDR.COMMIT_RESULT]; omega), Dev.get_put_ne _ _ _ _ _ _ _ _ _ _ (by simp [fkey, HDR.CTRL_STAGE_HOLD, HDR.COMMIT_SEQ]; omega), Dev.get_put_ne _ _ _ _ _ _ _ _ _ _ (by simp [fkey, HDR.CTRL_STAGE_HOLD, HDR.COMMIT_SEQ]; omega)]

end Dev

end Sys2Proof.Machine
end

