-- ==== Sys2Proof/WellFormed.lean ====
section
/-! DEFINITION. What a command must satisfy beyond its operands' types: sizes a bus or a frame can carry. Everything else the spec refuses is
refused by the part itself, in the meaning of the command. -/
namespace Sys2Proof

/-- Data bytes of a CAN frame with a given DLC (R401, R406): FD frames carry up to 64 bytes, classical ones up to 8. -/
def Instr.canBytes (fd : Bool) (dlc : BitVec 4) : Nat :=
  let n := dlc.toNat
  if n ≤ 8 then n else if !fd then 8 else [12, 16, 20, 24, 32, 48, 64].getD (n - 9) 64

/-- A master identity fits in eight bits (R66). -/
def Instr.whoOk (w : Machine.Who) : Bool := decide (w.mid < 256)

/-- A bus access moves one, two, four or eight bytes (R32, R56). -/
def Instr.sizeOk (n : Nat) : Bool := n == 1 || n == 2 || n == 4 || n == 8

/-- The operands of a command are ones the environment can present. -/
def Instr.wf : Instr → Bool
  | .registerWrite w _ n v => Instr.whoOk w && Instr.sizeOk n && decide (v.toNat < 2 ^ (8 * n))
  | .clearingRead w a => Instr.whoOk w && Instr.sizeOk a.bytes
  | .lockSet w _ | .accessTimeout w _ => Instr.whoOk w
  | .blockAbort w _ _ | .stageHoldClear w _ _ => Instr.whoOk w
  | .mramWindowAccess w _ wr n => Instr.whoOk w && Instr.sizeOk n.toNat && (match wr with | none => true | some bs => bs.length == n.toNat)
  | .siltPost _ _ _ _ _ _ _ payload => decide (payload.length ≤ 4072)
  | .drvStatusFrame _ data => decide (data.length ≤ 64)
  | .doorStatusFrame _ data => decide (data.length ≤ 64)
  | .safeFrame _ ident fd dlc data => decide (ident.toNat % 2 ^ 31 < 2 ^ 29) && data.length == Instr.canBytes fd dlc
  | .canRxFrame _ id ide fdf brs rtr _ dlc data _ =>
    (ide || decide (id.toNat < 2048)) && (fdf || !brs) && !(fdf && rtr) && (if rtr then data.isEmpty else data.length == Instr.canBytes fdf dlc)
  | .hstRead _ n late | .hstReadFix _ n late => (match late with | none => true | some k => decide (k.toNat ≤ n.toNat))
  | .hstWrite _ ws | .hstWriteFix _ ws | .hstBootData _ ws => decide (1 ≤ ws.length ∧ ws.length ≤ 256)
  | .hstCsAbort _ _ _ n got ws => decide (got.toNat ≤ n.toNat + 1 ∧ ws.length ≤ n.toNat + 1)
  | _ => true

end Sys2Proof
end

