-- ==== Sys2Proof/Tests/Slice0.lean ====
section
/-! SUPPORT. Tests of the model: what WellFormed refuses, and for every statement a state and operands that meet its hypotheses. -/
set_option maxRecDepth 100000
namespace Sys2Proof.Tests
open Sys2Proof Sys2Proof.Machine

/-- The part out of reset. -/
def outDev : Dev := { Dev.init with boot := { Dev.init.boot with released := true } }

/-- A state with no command waiting. -/
def st (d : Dev) : State := ⟨d, []⟩

/-- The part after a command that answers a next state. -/
def after (i : Instr) (d : Dev) : Dev := match exec i (st d) with
  | .next t => t.dev
  | _ => Dev.blank

/-- Nothing outside the pages changed. -/
def keepsB (d e : Dev) (ps : List Nat) : Bool :=
  d.memories == e.memories && d.regs.filter (fun x => !ps.contains (keyPage x.1)) == e.regs.filter (fun x => !ps.contains (keyPage x.1))

/-- Half A is active and holds the lease, half B is its standby. -/
def duo : Dev := ((outDev.put (ctl .hlf .a) HLF.STATE_OWN 0).put (ctl .hlf .b) HLF.STATE_OWN 1).put (shp .wir) WIR.LEASE_VALID 1

/-- A core of half A in machine mode and in user mode, a core of half B, the host link. -/
def cA : Who := ⟨1, true⟩
def uA : Who := ⟨1, false⟩
def cB : Who := ⟨9, true⟩
def uB : Who := ⟨9, false⟩
def host : Who := ⟨0x12, false⟩

/-- The address of a register of a page. -/
def ad (p off : Nat) : BitVec 64 := BitVec.ofNat 64 (pageBase p + off)

/-! ### WellFormed refuses what no environment can present -/

theorem test_wf_size : Instr.wf (.registerWrite cA (ad 0 8) 3 0) = false := by decide
theorem test_wf_value : Instr.wf (.registerWrite cA (ad 0 8) 4 0x100000000) = false ∧ Instr.wf (.registerWrite cA (ad 0 8) 4 0xFFFFFFFF) = true := by decide
theorem test_wf_master : Instr.wf (.registerWrite ⟨256, true⟩ 0 4 0) = false ∧ Instr.wf (.clearingRead ⟨256, true⟩ ⟨0, 4, false⟩) = false ∧
    Instr.wf (.lockSet ⟨256, true⟩ 0) = false ∧ Instr.wf (.accessTimeout ⟨256, true⟩ 0) = false ∧ Instr.wf (.blockAbort ⟨256, true⟩ 0 0xAB) = false ∧
    Instr.wf (.stageHoldClear ⟨256, true⟩ 0 0) = false ∧ Instr.wf (.clearingRead ⟨255, true⟩ ⟨0, 4, false⟩) = true := by decide
theorem test_wf_window : Instr.wf (.mramWindowAccess cA 0x20000000 none 3) = false ∧ Instr.wf (.mramWindowAccess cA 0x20000000 (some [1, 2]) 4) = false ∧
    Instr.wf (.mramWindowAccess cA 0x20000000 (some [1, 2]) 2) = true := by decide
theorem test_wf_silt : Instr.wf (.siltPost 0 0 1 1 1 1 0 (List.replicate 4073 0)) = false ∧
    Instr.wf (.siltPost 0 0 1 1 1 1 0 (List.replicate 4072 0)) = true := by decide
theorem test_wf_drives : Instr.wf (.drvStatusFrame 0 (List.replicate 65 0)) = false ∧ Instr.wf (.doorStatusFrame 0 (List.replicate 65 0)) = false ∧
    Instr.wf (.drvStatusFrame 0 (List.replicate 64 0)) = true := by decide
theorem test_wf_safe_frame : Instr.wf (.safeFrame 1 0x20000000 true 0xA (List.replicate 16 0)) = false ∧
    Instr.wf (.safeFrame 1 0x100 true 0xA (List.replicate 8 0)) = false ∧ Instr.wf (.safeFrame 1 0x100 true 0xA (List.replicate 16 0)) = true := by decide
theorem test_wf_can : Instr.wf (.canRxFrame 0 2048 false false false false false 0 [] ⟨0, 0⟩) = false ∧
    Instr.wf (.canRxFrame 0 1 false false true false false 0 [] ⟨0, 0⟩) = false ∧ Instr.wf (.canRxFrame 0 1 false true false true false 0 [] ⟨0, 0⟩) = false ∧
    Instr.wf (.canRxFrame 0 1 false false false false false 2 [1] ⟨0, 0⟩) = false ∧ Instr.wf (.canRxFrame 0 1 false false false true false 2 [1, 2] ⟨0, 0⟩) = false ∧
    Instr.wf (.canRxFrame 0 2047 false true true false false 9 (List.replicate 12 0) ⟨0, 0⟩) = true := by decide
theorem test_wf_host_read : Instr.wf (.hstRead 0 2 (some 3)) = false ∧ Instr.wf (.hstReadFix 0 2 (some 3)) = false ∧ Instr.wf (.hstRead 0 2 (some 2)) = true := by
  decide
theorem test_wf_host_write : Instr.wf (.hstWrite 0 []) = false ∧ Instr.wf (.hstWriteFix 0 []) = false ∧ Instr.wf (.hstBootData 0 []) = false ∧
    Instr.wf (.hstWrite 0 [1]) = true ∧ Instr.wf (.hstCsAbort true false 0 1 3 []) = false ∧ Instr.wf (.hstCsAbort true false 0 1 2 [1, 2]) = true := by decide

/-! ### Witnesses: accesses -/

theorem witness_StepRunsFrontCommand : ({ st duo with pending := [.posFuse .a, .tick] } : State).pending = .posFuse .a :: [.tick] ∧ (st duo).pending = [] := by
  decide

theorem witness_RwWriteTakesEffect : (st duo).out = true ∧ duo.issues cA = true ∧ duo.place cA (ad (pgMpg .a 0) 0x14).toNat = .page (pgMpg .a 0) 0x14 ∧
    pageBlk (pgMpg .a 0) = some (.mpg, 0) ∧ (ad (pgMpg .a 0) 0x14).toNat % 4 = 0 ∧ duo.fenced.contains (pgMpg .a 0) = false ∧
    duo.on (pgMpg .a 0) HDR.LOCK_SET = false ∧ duo.mayWrite cA .mpg HDR.IEN_BITS = true ∧ Blk.mpg ≠ .sfc ∧ Blk.mpg ≠ .ths ∧ Blk.mpg ≠ .sio ∧ Blk.mpg ≠ .frc ∧
    Blk.mpg.region = 0 ∧ (after (.registerWrite cA (ad (pgMpg .a 0) 0x14) 4 5) duo).get (pgMpg .a 0) HDR.IEN_BITS = 5 := by decide

theorem witness_RsWriteIsStaged : let p := pgMpg .a 0
    let f := MPG.SERVO_CFG_MULT
    (st duo).out = true ∧ duo.issues cA = true ∧ duo.place cA (ad p f.off).toNat = .page p f.off ∧ pageBlk p = some (.mpg, 0) ∧ (f, 0) ∈ fieldsAt p f.off ∧
    accOn p f = .rs ∧ Inside f 0 0 ∧ f.w ≤ 32 ∧ 0x40 ≤ f.off ∧
    (∀ x ∈ fieldsAt p f.off, accOn p x.1 ≠ .ro → accOn p x.1 ≠ .rc → accOn p x.1 = .rs ∧ x.1 ≠ SHL.FT_DATA_MS ∧ duo.mayWrite cA .mpg x.1 = true) ∧
    Blk.mpg.bnd ≠ .none ∧ duo.bndOf p ≠ 6 ∧ duo.tabIdx p f cA < 65536 ∧ (ad p f.off).toNat % 4 = 0 ∧ duo.fenced.contains p = false ∧
    duo.on p HDR.LOCK_SET = false ∧ (after (.registerWrite cA (ad p f.off) 4 8) duo).view p (duo.shadowOf p cA) f 0 0 = 8 ∧
    (after (.registerWrite cA (ad p f.off) 4 8) duo).get p f = 16 := by decide

theorem witness_RsWriteIsStaged_table : let p := ctl .shl .a
    let f := SHL.FT_DATA_MS
    duo.place cA (ad p f.off).toNat = .page p f.off ∧ pageBlk p = some (.shl, 0) ∧ fieldsAt p f.off = [(SHL.FT_DATA_MS, 0)] ∧ accOn p f = .rs ∧ Inside f 0 0 ∧
    Blk.shl.bnd ≠ .none ∧ duo.bndOf p ≠ 6 ∧ duo.tabIdx p f cA < 65536 ∧ duo.fenced.contains p = false ∧ duo.on p HDR.LOCK_SET = false ∧
    (after (.registerWrite cA (ad p f.off) 4 1500) duo).view p (duo.shadowOf p cA) f 0 0 = 1500 ∧
    (after (.registerWrite cA (ad p f.off) 4 1500) duo).get p SHL.FT_IDX_IDX = 1 := by decide

/-- A staged multiplier of generator 0. -/
def staged : Dev := after (.registerWrite cA (ad (pgMpg .a 0) MPG.SERVO_CFG_MULT.off) 4 8) duo

theorem witness_QuietEventsApplyNothing : (∀ e ∈ duo.shadow, ¬ (e.page = pgMpg .a 0 ∧ e.half = none)) ∧
    (∃ e ∈ (staged.put (pgMpg .a 0) HDR.CTRL_STAGE_HOLD 1).shadow, e.page = pgMpg .a 0 ∧ e.half = staged.shadowOf (pgMpg .a 0) cA) ∧
    (staged.put (pgMpg .a 0) HDR.CTRL_STAGE_HOLD 1).on (pgMpg .a 0) HDR.CTRL_STAGE_HOLD = true := by decide

/-- Generator 0 with two bits of `STAT`. -/
def stated : Dev := duo.put (pgMpg .a 0) HDR.STAT_BLOCK 5

theorem witness_StatClearsOnOwnersRead : (st stated).out = true ∧ stated.issues uA = true ∧
    stated.place uA (ad (pgMpg .a 0) 0x0C).toNat = .page (pgMpg .a 0) 0x0C ∧ pageBlk (pgMpg .a 0) = some (.mpg, 0) ∧ (ad (pgMpg .a 0) 0x0C).toNat % 4 = 0 ∧
    stated.fenced.contains (pgMpg .a 0) = false ∧ stated.owns uA (pgMpg .a 0) = true ∧ (stated.put (pgMpg .a 0) HDR.OWNER_MID 2).owns uA (pgMpg .a 0) = false ∧
    (after (.clearingRead uA ⟨ad (pgMpg .a 0) 0x0C, 4, false⟩) stated).get (pgMpg .a 0) HDR.STAT_BLOCK = 0 := by decide

/-- Generator 0 with `LOCK.SET`. -/
def locked : Dev := duo.put (pgMpg .a 0) HDR.LOCK_SET 1

theorem witness_RefusedWritesAreRecorded : let p := pgMpg .a 0
    let o := HDR.OWNER_MID.off
    (st duo).out = true ∧ duo.issues uA = true ∧ pageBlk p = some (.mpg, 0) ∧ duo.fenced.contains p = false ∧ duo.place uA (ad p o).toNat = .page p o ∧
    (ad p o).toNat % 4 = 0 ∧ o ≠ 0x20 ∧ Blk.mpg.region ≠ 3 ∧ Blk.mpg ≠ .frc ∧ duo.aborting.contains p = false ∧
    duo.badRegs.contains (p, 0x28, duo.tabOf uA p 0x28) = false ∧ p ≠ shp .slt ∧
    (∃ x ∈ fieldsAt p o, accOn p x.1 ≠ .ro ∧ accOn p x.1 ≠ .rc ∧ duo.mayWrite uA .mpg x.1 = false) ∧
    (after (.registerWrite uA (ad p o) 4 2) duo).get p HDR.ERR_CODE = cPRIV ∧ (after (.registerWrite uA (ad p o) 4 2) duo).silt.qProt.length = 1 ∧
    duo.privileged uA = false ∧ (∀ x ∈ fieldsAt p 0x28, x.1.acc = .pv) ∧ duo.place uA (ad p 0x28).toNat = .page p 0x28 ∧
    (after (.clearingRead uA ⟨ad p 0x28, 4, false⟩) locked).resp = ⟨[0], false, 0⟩ := by decide

theorem witness_RefusedWritesAreRecorded_locked : let p := pgMpg .a 0
    let o := MPG.SERVO_CFG_MULT.off
    (∀ x ∈ fieldsAt p o, locked.mayWrite uA .mpg x.1 = true) ∧ locked.on p HDR.LOCK_SET = true ∧ (∃ x ∈ fieldsAt p o, accOn p x.1 = .rs) ∧
    (after (.registerWrite uA (ad p o) 4 8) locked).get p HDR.ERR_CODE = cLOCKED := by decide

theorem witness_RefusedWritesAreRecorded_abort : let p := pgMpg .a 0
    duo.place uA ((ad p 0x20).toNat / 0x1000 * 0x1000 + 0x20) = .page p 0x20 ∧ Blk.mpg ≠ .sbk ∧ Blk.mpg ≠ .bot ∧ uA.half?.isSome = true ∧ uA.mach = false ∧ Blk.mpg ≠ .frc ∧
    (after (.blockAbort uA (ad p 0x20) 0xAB) duo).get p HDR.ERR_CODE = cPRIV := by decide

/-- Generator 0 fenced. -/
def fenced0 : Dev := { duo with fenced := [pgMpg .a 0] }

theorem witness_OddAndFencedAccesses_pages : (255 : Nat) < 256 ∧ pageBlk 4 = some (.mpg, 0) ∧ Dev.reaches cA .mpg = true ∧
    duo.place cA (0x40000000 + 4 * 0x1000 + 4092) = .page 4 4092 ∧ pageBlk 255 = none ∧ duo.place cA (0x40000000 + 255 * 0x1000) = .bad ∧
    pageBlk (5 * 256 + 255) = none ∧ duo.place cA (0x40000000 + 4 * 0x4000000 + 255 * 0x1000 + 4095) = .bad := by decide

theorem witness_OddAndFencedAccesses : let p := pgMpg .a 0
    (st duo).out = true ∧ duo.issues cA = true ∧ duo.place cA (ad 255 0).toNat = .bad ∧
    duo.place cA (ad p 0x14).toNat = .page p 0x14 ∧ pageBlk p = some (.mpg, 0) ∧ duo.fenced.contains p = false ∧ (ad p 0x14).toNat % 4 = 0 ∧
    duo.place cA (ad p 0x16).toNat = .page p 0x16 ∧ (ad p 0x16).toNat % 4 ≠ 0 ∧ fieldsAt p 0xFFC = [] ∧ duo.place cA (ad p 0xFFC).toNat = .page p 0xFFC ∧
    fenced0.fenced.contains p = true ∧ fenced0.place cA (ad p 0x14).toNat = .page p 0x14 ∧
    duo.place cA 0x08000000 = .sram ∧ duo.place cA 0x087FFFFF = .sram ∧ duo.place cA 0x20000000 = .mram ∧ duo.place cA 0x3FFFFFFF = .mram ∧
    duo.place cA 0xFFFC = .rom ∧ duo.mbad = [] ∧ (after (.registerWrite cA (ad p 0x14) 2 5) duo).resp = ⟨[], true, cRANGE⟩ ∧
    (after (.clearingRead cA ⟨ad p 0x14, 4, false⟩) fenced0).resp = ⟨[0], true, cFENCED⟩ := by decide

theorem witness_BlockAbortStopsTheBlock : let p := ctl .tmc .a
    (st duo).out = true ∧ duo.issues cA = true ∧ duo.place cA ((ad p 0x20).toNat / 0x1000 * 0x1000 + 0x20) = .page p 0x20 ∧ pageBlk p = some (.tmc, 0) ∧
    Blk.tmc ∈ ([.cyx, .tmc, .frc, .stp, .mir, .hst, .wir, .ain, .trm, .cfg, .nvm, .enc, .pwr] : List Blk) ∧ duo.fenced.contains p = false ∧
    (cA.half?.isSome = true → cA.mach = true) ∧ duo.mayWrite cA .tmc HDR.ABORT_KEY = true ∧ Blk.tmc ≠ .frc ∧ (∀ h ∈ [HalfId.a, .b], (duo.cyx h).switchNow = false) ∧
    duo.place cA (ad p 0x40).toNat = .page p 0x40 ∧ fieldsAt p 0x40 ≠ [] ∧ (after (.clearingRead cA ⟨ad p 0x40, 4, true⟩) duo).resp = ⟨[0], true, cECC⟩ ∧
    (after (.clearingRead cA ⟨ad p 0x40, 4, true⟩) duo).get p HDR.STAT_ABORTED = 1 ∧ (after (.blockAbort cA (ad p 0x20) 0xAB) duo).get p HDR.ERR_CODE = cABORTED ∧
    duo.aborting.contains p = false ∧ (after (.blockAbort cA (ad p 0x20) 0xAB) duo).aborting = [p] ∧
    (0xAC : BitVec 32) ≠ 0xAB ∧ (after (.blockAbort cA (ad p 0x20) 0xAC) duo).get p HDR.ERR_CODE = cRANGE := by decide

/-- TMC aborts: its header still reads; and an abort of CFG while a SAVE waits. -/
theorem witness_BlockAbortStopsTheBlock_aborting : let p := ctl .tmc .a
    let d := after (.blockAbort cA (ad p 0x20) 0xAB) duo
    d.aborting.contains p = true ∧ d.place cA (ad p 0x14).toNat = .page p 0x14 ∧ d.badRegs.contains (p, 0x14, d.tabOf cA p 0x14) = false ∧
    (after (.clearingRead cA ⟨ad p 0x14, 4, false⟩) d).resp.busErr = false ∧ d.place cA (ad p 0x40).toNat = .page p 0x40 ∧
    duo.mayWrite cA .cfg HDR.ABORT_KEY = false ∧
    (after (.cfgSave 1 true) (duo.put (shp .enc) ENC.AUTH_ROLE 2)).get (shp .cfg) CFG.SAVE_ST_STATE = 1 ∧
    (after (.blockAbort cA (ad (shp .cfg) 0x20) 0xAB) (after (.cfgSave 1 true) (duo.put (shp .enc) ENC.AUTH_ROLE 2))).get (shp .cfg) CFG.SAVE_ST_STATE = 4 := by decide

theorem witness_LockAndStageHold : let p := pgMpg .a 0
    (st staged).out = true ∧ staged.issues cA = true ∧ pageBlk p = some (.mpg, 0) ∧ staged.aborting.contains p = false ∧ staged.fenced.contains p = false ∧ staged.on p HDR.LOCK_SET = false ∧
    Blk.mpg.region = 0 ∧ Blk.mpg ≠ .frc ∧ staged.place cA ((ad p 0x28).toNat / 0x1000 * 0x1000 + 0x28) = .page p 0x28 ∧
    staged.mayWrite cA .mpg HDR.LOCK_SET = true ∧ (after (.lockSet cA (ad p 0x28)) staged).on p HDR.LOCK_SET = true ∧
    staged.place cA ((ad p 8).toNat / 0x1000 * 0x1000 + 8) = .page p 8 ∧
    (∀ f ∈ [HDR.CTRL_EN, HDR.CTRL_STAGE_HOLD, HDR.CTRL_IRQ_EN, HDR.CTRL_BSEL], staged.mayWrite cA .mpg f = true) ∧ staged.bndOf p ≠ 6 ∧
    (after (.stageHoldClear cA (ad p 8) 3) (staged.put p HDR.CTRL_STAGE_HOLD 1)).get p HDR.CTRL_STAGE_HOLD = 0 := by decide

theorem witness_LateBlockIsFenced : let p := shp .rsm
    (st duo).out = true ∧ pageBlk p = some (.rsm, 0) ∧ 2 ≤ bankOf p ∧ p ∉ duo.fenced ∧ duo.issues cA = true ∧ duo.place cA (ad p 0x40).toNat = .page p 0x40 ∧
    (BitVec.ofNat 11 p).toNat = p ∧ (after (.accessTimeout cA (ad p 0x40)) duo).fenced = [p] ∧ (after (.abortTimeout (BitVec.ofNat 11 p)) duo).fenced = [p] ∧
    keepsB duo (after (.accessTimeout cA (ad p 0x40)) duo) [p, shp .slt] = true := by decide

theorem witness_RegionAbortClearsFences : (st duo).out = true ∧ 2 ≤ (2 : Fin 6).val ∧ 2 ≤ (5 : Fin 6).val ∧
    (after (.regionAbort 2) { duo with fenced := [shp .rsm, shp .slt] }).fenced = [shp .rsm, shp .slt].filter (fun p => bankOf p != 2) ∧
    bitN (after .deviceSafeState duo).fio.causes 4 = 1 := by decide

/-- The window of core 0 of half A, and of core 0 of half B, at the start of the user area; and at its last MiB. -/
def winA : Dev := (duo.put (shp .nvm) NVM.WIN_BASE0_BASE 0x1A40 0 0).put (shp .nvm) NVM.WIN_BASE0_BASE 0x1A40 0 1
def winEnd : Dev := duo.put (shp .nvm) NVM.WIN_BASE0_BASE 0x1FFF 0 0
def winSilt : Dev := duo.put (shp .nvm) NVM.WIN_BASE0_BASE 0x240 0 0

theorem witness_MramUserWrite : (st winA).out = true ∧ winA.issues uA = true ∧ winA.place uA (0x20000000 : BitVec 32).toNat = .mram ∧
    winA.userBase ≤ winA.winBase uA * 0x100000 + ((0x20000000 : BitVec 32).toNat - 0x20000000) ∧ winA.mbad = [] ∧
    (∀ h ∈ [HalfId.a, .b], uA.half? = some h → winA.holds h = true) ∧
    winEnd.winBase uA * 0x100000 + ((0x200FFFFC : BitVec 32).toNat - 0x20000000) + 4 = 0x200000000 ∧
    memReads (after (.mramWindowAccess uA 0x200FFFFC (some [1, 2, 3, 4]) 4) winEnd).mram 0x1FFFFFFFC 4 = [1, 2, 3, 4] ∧
    (after (.mramWindowAccess uA 0x20000000 none 4) winA).resp = ⟨[0], false, 0⟩ := by decide

/-- Half B is out of reset as standby: its write is discarded and counted. -/
theorem witness_MramUserWrite_standby : winA.issues uB = true ∧ (∀ h ∈ [HalfId.a, .b], uB.half? = some h → winA.holds h = false) ∧
    winA.userBase ≤ winA.winBase uB * 0x100000 ∧ (after (.mramWindowAccess uB 0x20000000 (some [1]) 1) winA).get (shp .nvm) NVM.STBY_DROP_COUNT = 1 := by decide

theorem witness_MramWindowRefusals : (st winEnd).out = true ∧ winEnd.issues uA = true ∧ winEnd.place uA (0x200FFFFD : BitVec 32).toNat = .mram ∧ uA.half?.isSome = true ∧
    winEnd.winBase uA * 0x100000 + ((0x200FFFFD : BitVec 32).toNat - 0x20000000) + 4 > 0x200000000 ∧
    (after (.mramWindowAccess uA 0x200FFFFD none 4) winEnd).get (shp .nvm) HDR.ERR_CODE = cRANGE ∧
    duo.winBase uA * 0x100000 < duo.userBase ∧ uA.mach = false ∧ (after (.mramWindowAccess uA 0x20000000 none 4) duo).get (shp .nvm) HDR.ERR_CODE = cPRIV ∧
    (after (.mramWindowAccess cA 0x20000000 (some [1]) 1) duo).get (shp .nvm) HDR.ERR_CODE = cPRIV ∧
    0x24000000 ≤ winSilt.winBase cA * 0x100000 ∧ (after (.mramWindowAccess cA 0x20000000 none 1) winSilt).get (shp .nvm) HDR.ERR_CODE = cPRIV ∧
    (after (.mramWindowAccess cA 0x20000000 none 1) (winSilt.put (shp .nvm) NVM.WIN_BASE0_BASE 0x23F 0 0)).get (shp .nvm) HDR.ERR_CODE = 0 := by decide

/-- Half A's SRAM has spare rows, MRAM spare blocks. -/
def spares : Dev := (duo.put (ctl .sbk .a) SBK.ROWS_LEFT 2).put (shp .nvm) NVM.REMAP_LEFT 2

theorem witness_MemoryErrorsAreHandled : (st spares).out = true ∧ spares.mbad = [] ∧ spares.get (ctl .sbk .a) SBK.ROWS_LEFT ≠ 0 ∧
    spares.get (ctl .sbk .a) SBK.ENTRIES_N < 240 ∧ spares.get (shp .nvm) NVM.REMAP_LEFT ≠ 0 ∧
    (after (.scrubPass none [] [5]) spares).mbad = [4] ∧ (after (.scrubPass none [] [5]) spares).remap = [0] ∧
    (after (.scrubPass none [5] []) { spares with mces := [(0, 0), (0, 0)] }).remap = [0] ∧ (after (.scrubPass none [5] []) spares).remap = [] ∧ 
    (spares.hlf .a).bad.contains ((sramBase + 0x80005) / 4 * 4) = false ∧ spares.rowFailed .a (0x80005 / 1024) = false ∧ spares.sbkRows .a = [] ∧ (0 : Nat) ∉ spares.remap ∧
    (after (.sramRowReplace .a 0x80005 true) spares).get (ctl .sbk .a) SBK.ROWS_USED = 1 ∧
    (after (.mramBlockRemap 65536 true 0 0) spares).remap = [1] := by decide

/-- A record of a class that is not protected, and queues with no room for it. -/
def aRec : Rec := ⟨0, 0, 0, 1, 1, 0, 0, 1, 1, 0, []⟩
def fullUn : Dev := { duo with silt := { duo.silt with qUn := List.replicate 3584 aRec } }

theorem witness_SiltPostQueuesOrCounts : (st duo).out = true ∧ (1 : BitVec 8).toNat < 0xC ∧ (0xB : BitVec 8).toNat < 0xC ∧ duo.siltTakes aRec = true ∧
    duo.siltTakes { aRec with cls := 0xB } = true ∧ (after (.siltPost 0 0 1 1 1 1 0 []) duo).silt.qUn.length = 1 ∧
    (after (.siltPost 0 0 1 1 0xB 1 0 []) duo).silt.qProt.length = 1 := by decide

theorem witness_SiltPostQueuesOrCounts_full : fullUn.siltTakes aRec = false ∧ (after (.siltPost 0 0 1 1 1 1 0 []) fullUn).silt.lossUn.isSome = true := by decide

/-- A captured generation, and two valid ones of which the first is committed. -/
def aGen : Gen := ⟨7, 0, 0, 0, 0, 0, true, []⟩
def gens : Dev := { duo with store := { duo.store with areas := [some aGen, some { aGen with num := 6 }], committed := some 0 } }
def captured : Dev := { gens with store := { gens.store with captured := some { aGen with num := 8 } } }
def frozen : Dev := { after (.cfgSave 1 true) duo with cfgFrozen := true }

theorem witness_ConfigurationCommands : (st duo).out = true ∧ duo.get (shp .cfg) CFG.SAVE_ST_STATE = 0 ∧ duo.cfgPending duo.holder = false ∧
    (after (.cfgSave 1 true) duo).get (shp .cfg) CFG.SAVE_ST_STATE = 1 ∧ staged.get (shp .cfg) CFG.SAVE_ST_STATE = 0 ∧ staged.cfgPending staged.holder = true ∧
    (after (.cfgSave 1 true) staged).get (shp .cfg) HDR.ERR_CODE = 0xB3 ∧ frozen.cfgFrozen = true ∧ frozen.store.waiting.isSome = true ∧
    (after .cfgSaveCapture frozen).get (shp .cfg) CFG.SAVE_ST_STATE = 2 := by decide

theorem witness_ConfigurationCommands_areas : captured.store.captured = some { aGen with num := 8 } ∧ captured.store.areas.length = 2 ∧
    (after (.cfgSaveDone true) captured).store.committed = some 1 ∧ (after (.cfgSaveDone false) captured).store.committed = some 0 ∧
    gens.store.committed = some 0 ∧ gens.genOk 1 = some { aGen with num := 6 } ∧ (after (.cfgRevert 1 true) gens).store.committed = some 1 ∧
    (after (.cfgFactory 1 true) gens).store.committed = none ∧ duo.gen? (duo.get (shp .cfg) CFG.RD_SEL_AREA) = none ∧
    (after .cfgRdDataRead duo).resp.words = [0] := by decide

/-! ### Witnesses: position, motion, loops, lanes -/

/-- POS of half A with car 0 on SSI receiver 0, 24 bits, encoder 2. -/
def posA : Dev :=
  let p := ctl .pos .a
  (((((duo.put p HDR.CTRL_EN 1).put p POS.CAR_CFG_EN 1).put p POS.CAR_CFG_SSI 0).put p POS.SSI_FMT_BITS 24).put p POS.CAR_CFG_ENC 2).put p POS.CAR_CFG_ENC_USE 1

theorem witness_PositionSourcesAreTaken : (st posA).out = true ∧ posA.enc.length = 4 ∧
    (List.range 4).find? (fun n => posA.carEn .a n && posA.get (ctl .pos .a) POS.CAR_CFG_SSI n == (0 : Fin 4).val) = some (0 : Fin 4).val ∧
    (∀ h ∈ [HalfId.a, .b], ∀ n : Fin 4, posA.carEn h n = true → posA.get (ctl .pos h) POS.CAR_CFG_SSI n ≠ (3 : Fin 4).val) ∧
    posA.enabled (ctl .pos .a) = true ∧ posA.get posA.rxPage POS.SSI_FMT_BITS 0 ≠ 0 ∧ (posA.half .a).pos.cars.length = 4 ∧
    posA.ssiBad .a 0 0 true 0 = some cSSI_LINE ∧ posA.ssiBad .a 0 0 false 0 = none ∧ posA.running .b = true ∧ posA.running .a = true ∧ outDev.running .a = false ∧
    (after (.posFuse .a) posA).ha.pos.fused = true ∧ (after (.servoEvent .a) posA).ha.servoCnt = 1 ∧
    (after (.ssiFrame 0 false 0) posA).get (ctl .pos .a) POS.CAR_STAT_BAD = 0 ∧ (after (.ssiFrame 0 true 0) posA).get (ctl .pos .a) POS.CAR_STAT_BAD = 1 := by
  decide

/-- Car 0 VALID, without an encoder, with a good frame of 300 µm. -/
def fuseA : Dev := ((posA.put (ctl .pos .a) POS.CAR_STAT_STATE 2).put (ctl .pos .a) POS.CAR_CFG_ENC_USE 0).modHalf .a
  (fun x => { x with pos := { x.pos with cars := x.pos.cars.set 0 { PosCar.init with frame := some ⟨true, 300 * 256, 0⟩ } } })

theorem witness_PositionSourcesAreTaken_fuse : (st fuseA).out = true ∧ fuseA.enabled (ctl .pos .a) = true ∧ fuseA.carEn .a 0 = true ∧ fuseA.posState .a 0 = 2 ∧
    fuseA.encUsed .a 0 = false ∧ (fuseA.posCar .a 0).frame = some ⟨true, 300 * 256, 0⟩ ∧ fuseA.outside .a (300 * 256) = false ∧
    (fuseA.half .a).pos.cars.length = 4 ∧ fuseA.pCopy.length = 8 ∧ (after (.posFuse .a) fuseA).carX .a 0 = 300 ∧ duo.enabled (ctl .pos .a) = false := by decide

/-- Car 0 VALID with its slip run at SLIP.N, in COAST beyond COAST_MAX, and UNCERTAIN. -/
def slipA : Dev := ((posA.put (ctl .pos .a) POS.CAR_SLIP_N 3).put (ctl .pos .a) POS.CAR_STAT_STATE 2).modHalf .a
  (fun x => { x with pos := { x.pos with cars := x.pos.cars.set 0 { PosCar.init with slipRun := 3 } } })
def coastA : Dev := ((posA.put (ctl .pos .a) POS.CAR_STAT_STATE 3).put (ctl .pos .a) POS.CAR_CFG_COAST_MAX 4).put (ctl .pos .a) POS.CAR_STAT_BAD 5
def uncertA : Dev := posA.put (ctl .pos .a) POS.CAR_STAT_STATE 4

theorem witness_PositionStatesChange : (st slipA).out = true ∧ slipA.get (ctl .pos .a) POS.CAR_SLIP_N ≠ 0 ∧
    (slipA.posCar .a 0).slipRun ≥ slipA.get (ctl .pos .a) POS.CAR_SLIP_N ∧ slipA.posState .a 0 = 2 ∧ (after (.slip .a 0) slipA).posState .a 0 = 4 ∧
    coastA.posState .a 0 = 3 ∧ coastA.get (ctl .pos .a) POS.CAR_STAT_BAD > coastA.get (ctl .pos .a) POS.CAR_CFG_COAST_MAX ∧
    (after (.coastExpired .a 0) coastA).posState .a 0 = 4 ∧ coastA.carEn .a 0 = true ∧ coastA.on (ctl .pos .a) POS.CAR_CFG_ENC_USE = true ∧
    coastA.get (ctl .pos .a) POS.CAR_CFG_ENC = (2 : Fin 4).val ∧ coastA.on (ctl .pos .a) POS.CAR_STAT_ENC_LOST = false ∧
    (after (.encLoss 2) coastA).posState .a 0 = 4 ∧ uncertA.posState .a 0 = 4 ∧ uncertA.slow .a 0 = true ∧ (after (.posReval .a 0) uncertA).posState .a 0 = 1 ∧
    slipA.posState .a 0 ≠ 4 ∧ (uncertA.puti (ctl .pos .a) POS.CAR_V_UMS 1001).slow .a 0 = false := by decide

/-- Switch entry 3 on a hardware line; latch 5 of source 33 on rising edges; car 0 checks its vanes at landing 0. -/
def latA : Dev :=
  let p := ctl .pos .a
  (((((posA.put (shp .din) HDR.CTRL_EN 1).put p POS.SW_SRCK 0 3).put p POS.SW_KIND 1 3).put p POS.LAT_CFG_EN 1 5).put p POS.LAT_CFG_SRC 7 5).put p POS.LAT_CFG_EDGE 1 5
def heldA : Dev := latA.modHalf .a (fun x => { x with pos := { x.pos with latches := x.pos.latches.set 5 [⟨0, 0, 0, true, true, false, none, 0⟩, ⟨0, 1, 0, true, true, false, none, 1⟩], raws := [(7, 0, true), (7, 1, true)] } })
def fullA : Dev := latA.put (ctl .pos .a) POS.LAT_STAT_FULL 1 5

theorem witness_LatchesAndLearningRun : (st latA).out = true ∧ latA.on (ctl .pos .a) POS.SW_SRCK 3 = false ∧ latA.get (ctl .pos .a) POS.SW_KIND 3 ≠ 0 ∧
    bitN ((after (.switchChange .a 3 true) latA).get (ctl .pos .a) POS.SW_STATE_ACT) 3 = (if latA.on (ctl .pos .a) POS.SW_POL 3 then 1 else 0) ∧
    latA.enabled (shp .din) = true ∧ latA.fio.held = false ∧
    (heldA.half .a).pos.latches.length = 16 ∧ heldA.ha.pos.raws.find? (fun r => r.1 == (7 : Fin 32).val) = some ((7 : Fin 32).val, 0, true) ∧
    heldA.get (ctl .pos .a) POS.LAT_CFG_SRC 5 = (7 : Fin 32).val ∧
    ((after (.latchConfirm 7 true) heldA).latches .a 5).all (fun q => q.confirmed) = true ∧
    (∃ q ∈ heldA.latches .a 5, q.no = 0 ∧ q.confirmed = false) ∧ (after (.latchBounce 7) heldA).latches .a 5 = [⟨0, 1, 0, true, true, false, none, 1⟩] := by decide

theorem witness_LatchesAndLearningRun_edge : latA.enabled (ctl .pos .a) = true ∧ latA.on (ctl .pos .a) POS.LAT_CFG_EN 5 = true ∧
    latA.get (ctl .pos .a) POS.LAT_CFG_SRC 5 = (7 : Fin 36).val ∧ latA.get (ctl .pos .a) POS.LAT_CFG_EDGE 5 = 1 ∧
    latA.on (ctl .pos .a) POS.LAT_STAT_FULL 5 = false ∧ (after (.latchEdge 7 true 9) latA).latches .a 5 ≠ [] ∧
    (latA.put (ctl .pos .a) POS.LAT_CFG_SRC 35 5).get (ctl .pos .a) POS.LAT_CFG_SRC 5 = (35 : Fin 36).val ∧
    fullA.on (ctl .pos .a) POS.LAT_STAT_FULL 5 = true ∧ fullA.on (ctl .pos .a) POS.LAT_CFG_CONT 5 = false ∧
    (after (.latchEdge 7 true 9) fullA).on (ctl .pos .a) POS.LAT_STAT_OVR 5 = true := by decide

/-- One landing at 0 with a vane of 100 mm each way. -/
def vaneA : Dev :=
  let p := ctl .pos .a
  ((((posA.put p POS.CAR_CFG_DZ_EN 1).put p POS.LT_CFG_COUNT 1).put p POS.LT_DZB_UM 100000).put p POS.LT_DZA_UM 100000).modHalf .a
    (fun x => { x with pos := { x.pos with fused := true } })

/-- The boundary: an edge at the tolerance changes nothing, one beyond it reports DZ_MISMATCH. -/
theorem witness_LatchesAndLearningRun_vane : let lim := fun (z : Nat) => vaneA.put (ctl .pos .a) POS.LT_DZB_UM z
    (lim 5000).enabled (ctl .pos .a) = true ∧ (lim 5000).on (ctl .pos .a) POS.CAR_CFG_DZ_EN = true ∧ (lim 5000).carEn .a 0 = true ∧
    (lim 5000).get (ctl .pos .a) POS.CAR_CFG_DZ_SRC = (0 : Fin 32).val ∧ (∀ m : Fin 4, m ≠ 0 → (lim 5000).on (ctl .pos .a) POS.CAR_CFG_DZ_EN m = false) ∧
    (lim 5000).ha.pos.fused = true ∧ posA.ha.pos.fused = false ∧ (lim 5000).edgeAt .a ⟨false, 0, true, 0, 0⟩ = 0 ∧ (lim 5000).nearest .a 0 < (lim 5000).get (ctl .pos .a) POS.LT_CFG_COUNT ∧ (lim 5000).get (ctl .pos .a) POS.LT_TOL_DZ = 5000 ∧ 0 ≤ (lim 5000).carV .a 0 ∧
    (after (.dzEdge .a 0 true 0) (lim 5000)).get (ctl .pos .a) HDR.ERR_CODE = 0 ∧
    (after (.dzEdge .a 0 true 0) (lim 5001)).get (ctl .pos .a) HDR.ERR_CODE = cDZ_MISMATCH := by decide

/-- A learning run in progress with an empty and with a full buffer less one. -/
def learnA : Dev := after (.lrnStart .a 0 7) slipA

theorem witness_LatchesAndLearningRun_run : slipA.enabled (ctl .pos .a) = true ∧ slipA.on (ctl .pos .a) POS.LRN_CTRL_RUN = false ∧ slipA.posState .a 0 = 2 ∧
    learnA.on (ctl .pos .a) POS.LRN_CTRL_RUN = true ∧ learnA.get (ctl .pos .a) POS.LRN_STAT_COUNT < 256 ∧
    (after (.lrnStop .a) learnA).get (ctl .pos .a) POS.LRN_STAT_RESULT = 2 ∧
    learnA.get (ctl .pos .a) POS.LRN_CTRL_SRC = (7 : Fin 32).val ∧
    (after (.lrnEdge .a ⟨7, true⟩ 0) ((learnA.put (ctl .pos .a) POS.LRN_STAT_COUNT 255).modHalf .a (fun x => { x with pos := { x.pos with fused := true } }))).get
      (ctl .pos .a) POS.LRN_STAT_COUNT = 256 := by decide

/-- A generator whose waiting command is a STOP, and one whose waiting command is a MOVE. -/
def goCmd (op : Nat) : GoCmd := ⟨op, 5, 0, 0, 0, 0, 0, 3⟩
def waits (op : Nat) : Dev := duo.modHalf .a (fun x => { x with mpg := x.mpg.set 0 { Mpg.init with waiting := some (goCmd op) } })

theorem witness_MotionCommandsWait : (st duo).out = true ∧ (duo.half .a).mpg.length = 4 ∧ duo.active .a = true ∧ (duo.mpg .a 0).waiting = none ∧
    (after (.mpgMove .a 0 5 7) duo).get (pgMpg .a 0) MPG.CMD_RES_STATE = 1 ∧ ((waits 3).mpg .a 0).waiting = some (goCmd 3) ∧
    (after (.mpgMove .a 0 5 7) (waits 3)).get (pgMpg .a 0) MPG.CMD_RES_REASON = cREJ_STOPPING ∧
    (after (.mpgStopNow .a 0 7) (waits 3)).get (pgMpg .a 0) MPG.CMD_RES_STATE = 4 ∧ (after (.mpgStop .a 0 7) (waits 1)).get (pgMpg .a 0) MPG.CMD_RES_STATE = 4 ∧
    keepsB duo (after (.mpgJog .a 0 (-5) 7) duo) [pgMpg .a 0] = true := by decide

/-- Half A's program runs, car 0 travels up at 1 m/s, and a MOVE to 20 m waits. -/
def runA (d : Dev) : Dev := d.put (ctl .cyx .a) CYX.STATE_CODE 1
def movA : Dev :=
  let p := pgMpg .a 0
  ((((((runA posA).put (ctl .pos .a) POS.CAR_STAT_STATE 2).put p HDR.CTRL_EN 1).put p MPG.STATE_PERMIT 1).put p MPG.STATE_MODE 2).put p MPG.STATE_DIR 1).modHalf .a
    (fun x => { x with mpg := x.mpg.set 0 { Mpg.init with vs := 1000000 * unitV, waiting := some { goCmd 1 with pos := 20000000 } } })

theorem witness_TheTargetIsFixed : (movA.mpg .a 0).waiting = some { goCmd 1 with pos := 20000000 } ∧ (movA.half .a).mpg.length = 4 ∧ movA.takes .a = true ∧
    movA.mpgMoving .a 0 = true ∧ movA.mpgUp .a 0 = true ∧ movA.mpgWhy .a 0 { goCmd 1 with pos := 20000000 } = none ∧ (waits 1).takes .a = false ∧
    (runA (waits 1)).takes .a = true ∧ (runA (waits 1)).mpgWhy .a 0 (goCmd 1) = some cRANGE ∧
    ((runA (waits 1)).mpgTake .a 0).get (pgMpg .a 0) MPG.CMD_RES_REASON = cRANGE := by decide

/-- Generator 0 hears its drive and has missed three periods. -/
def drvA : Dev := (duo.put (pgMpg .a 0) MPG.DRV_ID_EN 1).put (pgMpg .a 0) MPG.DRV_STAT_MISSED 3

theorem witness_DriveStatusFrames : (st drvA).out = true ∧ (drvA.half .a).mpg.length = 4 ∧ drvA.on (pgMpg .a 0) MPG.DRV_ID_EN = true ∧
    (drvA.mpg .a 0).drvShort = false ∧ drvA.get (pgMpg .a 0) MPG.DRV_LOSS_N ≠ 0 ∧
    drvA.get (pgMpg .a 0) MPG.DRV_STAT_MISSED ≥ drvA.get (pgMpg .a 0) MPG.DRV_LOSS_N ∧
    ((after (.drvStatusFrame 0 (List.replicate 8 1)) drvA).mpg .a 0).drv = some (List.replicate 8 1) ∧
    (after (.drvStatusFrame 0 (List.replicate 7 1)) drvA).get (pgMpg .a 0) HDR.ERR_CODE = cDRV_SHORT ∧
    (after (.drvSilent .a 0) drvA).get (pgMpg .a 0) HDR.ERR_CODE = cDRV_SILENT ∧
    (after (.drvSilent .a 0) (drvA.put (pgMpg .a 0) MPG.DRV_STAT_MISSED 2)).get (pgMpg .a 0) HDR.ERR_CODE = 0 := by decide

/-- The last word of a table of each size, with its active bank the other one; and a loop at its supervisor limit, due and enabled. -/
def tblA (t w : Nat) : Dev := (duo.put (pgLe .a 1) LE.TBL_SEL_TBL t).put (pgLe .a 1) LE.TBL_ADDR_WORD w
def supA : Dev :=
  let p := pgLe .a 1
  (((duo.put p LE.LOOP_CFG_SUP_EN 1 0 31).put p LE.SUP_CNT_N 2 0 31).put p LE.LSTAT_CNT 2 0 31).put p LE.LOOP_CFG_EN 1 0 31 |>.put p HDR.CTRL_EN 1

theorem witness_LoopEngineCommands : (st duo).out = true ∧ (tblA 7 1279).get (pgLe .a 1) LE.TBL_SEL_TBL < 12 ∧
    (tblA 7 1279).get (pgLe .a 1) LE.TBL_SEL_BANK ≤ 1 ∧ (tblA 7 1279).get (pgLe .a 1) LE.TBL_ADDR_WORD < 1280 ∧ (tblA 7 1279).leBank .a 1 7 = 0 ∧
    (after (.tblDataWrite .a 1 9) (tblA 7 1279)).get (pgLe .a 1) HDR.ERR_CODE = cTBL_ACTIVE ∧
    ((tblA 7 1279).put (pgLe .a 1) LE.TBL_SEL_BANK 1).get (pgLe .a 1) LE.TBL_SEL_BANK ≠ (tblA 7 1279).leBank .a 1 7 ∧
    (after (.tblDataWrite .a 1 9) ((tblA 7 1279).put (pgLe .a 1) LE.TBL_SEL_BANK 1)).get (pgLe .a 1) LE.TBL_ADDR_WORD = 0 ∧
    (after (.tblDataWrite .a 1 9) ((tblA 8 1022).put (pgLe .a 1) LE.TBL_SEL_BANK 1)).get (pgLe .a 1) LE.TBL_ADDR_WORD = 1023 ∧
    (after (.tblDataWrite .a 1 9) ((tblA 11 1023).put (pgLe .a 1) LE.TBL_SEL_BANK 1)).get (pgLe .a 1) LE.TBL_ADDR_WORD = 0 := by decide

theorem witness_LoopEngineCommands_loops : supA.on (pgLe .a 1) LE.LOOP_CFG_SUP_EN 0 31 = true ∧ supA.get (pgLe .a 1) LE.SUP_CNT_N 0 31 ≠ 0 ∧
    supA.get (pgLe .a 1) LE.LSTAT_CNT 0 31 ≥ supA.get (pgLe .a 1) LE.SUP_CNT_N 0 31 ∧ bitN (supA.get (pgLe .a 1) LE.LSTAT_BITS 0 31) 4 = 0 ∧
    (after (.plaus .a 1 31) supA).get (pgLe .a 1) HDR.ERR_CODE = cPLAUS ∧ supA.running .a = true ∧ (supA.half .a).le.length = 3 ∧
    (supA.le .a 1).loops.length = 32 ∧ supA.on (pgLe .a 1) LE.LOOP_CFG_EN 0 31 = true ∧ supA.enabled (pgLe .a 1) = true ∧ supA.leSusp .a 1 31 = false ∧ supA.leDue .a 1 31 = true ∧
    (after (.loopLate .a 1 31) supA).get (pgLe .a 1) HDR.ERR_CODE = cLATE := by decide

theorem witness_InterpolatedNotchStaysStable : stableSec 1000 500 = true ∧ stableSec (-2000) 70000 = true ∧ (65535 : Nat) < 65536 := by decide

theorem witness_LaneOperationsWait : (st duo).out = true ∧ duo.active .a = true ∧ duo.ha.sep.waiting = none ∧
    (after (.sepReserve .a 1 (-5) 9 7) duo).get (ctl .sep .a) SEP.RSV_RES_STATE = 1 ∧
    (after (.sepTrim .a 1 8) (after (.sepReserve .a 1 (-5) 9 7) duo)).get (ctl .sep .a) SEP.RSV_RES_TAG = 7 ∧
    (after (.sepHandover .a 1 2 8) duo).ha.sep.waiting.map GoCmd.pos = some 2 := by decide

/-- Cars 0 and 1 with reservations that touch but for the gap, and car 1's claim inside its own. -/
def laneA : Dev :=
  let p := ctl .sep .a
  let d := (((duo.put p HDR.CTRL_EN 1).put (ctl .pos .a) POS.CAR_CFG_EN 1 0).put (ctl .pos .a) POS.CAR_CFG_EN 1 1).put p SEP.GAP_MIN_UM 100
  let d := ((d.put p SEP.RES_STAT_HAS 1 0).put p SEP.RES_STAT_HAS 1 1).put p SEP.RES_HI_UM 1000 0
  (((d.put p SEP.RES_LO_UM 1100 1).put p SEP.RES_HI_UM 9000 1).put p SEP.CLM_LO_UM 2000 1).put p SEP.CLM_HI_UM 3000 1

theorem witness_LanesStayApart_apart : ∀ n m : Fin 4, laneA.carEn .a n = true → laneA.hasRes .a n = true →
      laneA.geti (ctl .pos .a) POS.SHAFT_LO_UM ≤ laneA.resLo .a n ∧ laneA.resHi .a n ≤ laneA.geti (ctl .pos .a) POS.SHAFT_HI_UM ∧
      (n < m → laneA.carEn .a m = true → laneA.hasRes .a m = true → laneA.resHi .a n + laneA.get (ctl .sep .a) SEP.GAP_MIN_UM ≤ laneA.resLo .a m) := by decide

theorem witness_LanesStayApart : (goCmd 2).car < 4 ∧
    laneA.resLo .a 1 ≤ laneA.clmLo .a 1 ∧ laneA.clmHi .a 1 ≤ laneA.resHi .a 1 ∧ laneA.sepWhy .a { goCmd 2 with car := 1 } = none ∧
    laneA.sepWhy .a { goCmd 1 with car := 1, lo := 1100, hi := 3000 } = none ∧
    laneA.sepWhy .a { goCmd 1 with car := 1, lo := 1099, hi := 3000 } = some cSEP_OVERLAP := by decide

/-! ### Witnesses: doors, steppers, dispatch -/

def door (op : Nat) : GoCmd := ⟨op, 0, 0, 0, 0, 0, 0, 3⟩
def doorWaits (op : Nat) : Dev := duo.modHalf .a (fun x => { x with dax := x.dax.set 7 { Dax.init with waiting := some (door op) } })

theorem witness_DoorCommandsWait : (st duo).out = true ∧ duo.ha.dax.length = 8 ∧ duo.active .a = true ∧ (duo.dax .a 7).waiting = none ∧
    (after (.doorOpen .a 7 3 9) duo).get (pgDax .a 7) DAX.CMD_RES_STATE = 1 ∧ ((doorWaits 4).dax .a 7).waiting = some (door 4) ∧
    ((after (.doorOpen .a 7 3 9) (doorWaits 4)).dax .a 7).waiting = some (door 4) ∧
    (after (.doorStopNow .a 7 9) (doorWaits 4)).get (pgDax .a 7) DAX.CMD_RES_STATE = 4 ∧
    (after (.doorClose .a 7 9) (doorWaits 1)).get (pgDax .a 7) DAX.CMD_RES_STATE = 4 := by decide

/-- Door 2 CLOSED with its lock due and open, with attempts left and with none. -/
def lockDoor (n : Nat) : Dev := ((duo.put (pgDax .a 2) DAX.STATE_MODE 1).put (pgDax .a 2) DAX.CFG_LOCK_RETRY 2).modHalf .a
  (fun x => { x with dax := x.dax.set 2 { Dax.init with lockNs := some 0, tries := n } })

theorem witness_DoorLocksAndDrives : (st duo).out = true ∧ (lockDoor 1).ha.dax.length = 8 ∧ (lockDoor 1).daxMode .a 2 = 1 ∧
    ((lockDoor 1).dax .a 2).lockNs.isSome = true ∧ (lockDoor 1).daxLock .a 2 = false ∧ ((lockDoor 1).dax .a 2).tries < (lockDoor 1).get (pgDax .a 2) DAX.CFG_LOCK_RETRY ∧
    (after (.doorLockFail .a 2) (lockDoor 1)).daxMode .a 2 = 5 ∧ ((lockDoor 2).dax .a 2).tries ≥ (lockDoor 2).get (pgDax .a 2) DAX.CFG_LOCK_RETRY ∧
    (after (.doorLockFail .a 2) (lockDoor 2)).daxMode .a 2 = 10 ∧ (after (.doorLockFail .a 2) (lockDoor 2)).get (pgDax .a 2) DAX.STATE_CAUSE = 6 ∧
    duo.daxMode .a 2 ≠ 1 := by decide

def doorDrv : Dev := ((duo.put (pgDax .a 2) DAX.CFG_TYPE 1).put (pgDax .a 2) DAX.DRV_ID_EN 1).put (pgDax .a 2) DAX.DRV_STAT_MISSED 3

theorem witness_DoorLocksAndDrives_drive : doorDrv.on (pgDax .a 2) DAX.DRV_ID_EN = true ∧ doorDrv.daxCan .a 2 = true ∧ (doorDrv.dax .a 2).drvShort = false ∧
    ((after (.doorStatusFrame 2 (List.replicate 12 1)) doorDrv).dax .a 2).drv = some (List.replicate 12 1) ∧
    (after (.doorStatusFrame 2 (List.replicate 11 1)) doorDrv).get (pgDax .a 2) HDR.ERR_CODE = cDOOR_SHORT ∧
    doorDrv.get (pgDax .a 2) DAX.DRV_LOSS_N ≠ 0 ∧ doorDrv.get (pgDax .a 2) DAX.DRV_STAT_MISSED ≥ doorDrv.get (pgDax .a 2) DAX.DRV_LOSS_N ∧
    (after (.doorSilent .a 2) doorDrv).get (pgDax .a 2) HDR.ERR_CODE = cDOOR_SILENT := by decide

/-- Channel 3 with its bridge supply monitored, and with its bridge off. -/
def stpA : Dev := (((duo.put (shp .din) HDR.CTRL_EN 1).put (ctl .stp .a) HDR.CTRL_EN 1).put (ctl .stp .a) STP.CH_DRV_PG_EN 1 3).put (ctl .stp .a) STP.CH_CFG_SRC 1 3
def stpOff : Dev := stpA.put (ctl .stp .a) STP.CH_STAT_DRV_OFF 1 3

theorem witness_StepperChannels : (st stpA).out = true ∧ stpA.ha.stp.length = 4 ∧ stpA.enabled (ctl .stp .a) = true ∧
    stpA.on (ctl .stp .a) STP.CH_DRV_PG_EN 3 = true ∧ stpA.on (ctl .stp .a) STP.CH_STAT_DRV_OFF 3 = false ∧
    stpA.enabled (shp .din) = true ∧ stpA.fio.held = false ∧ stpA.on (ctl .stp .a) STP.CH_DRV_PG_POL 3 = stpA.on (ctl .stp .b) STP.CH_DRV_PG_POL 3 ∧
    (after (.stpDrvPowerLoss 3) stpA).get (ctl .stp .a) HDR.ERR_CODE = cSTP_DRV_OFF ∧ stpOff.on (ctl .stp .a) STP.CH_STAT_DRV_OFF 3 = true ∧
    (after (.stpDrvPowerReturn 3) stpOff).get (ctl .stp .a) STP.CH_STAT_DRV_OFF 3 = 0 ∧ stpA.running .a = true ∧
    stpA.on (ctl .stp .a) STP.CH_CFG_SRC 3 = true ∧ ((after (.stpStepEdge 3 true 0) stpA).stpCh .a 3).target = 256 ∧
    stpA.stpLatest .a 3 0 < 2 ^ 31 ∧ -(2 ^ 31) ≤ stpA.stpLatest .a 3 0 ∧ (stpA.stpLatest .a 3 0 - (stpA.stpCh .a 3).pwmCnt).natAbs ≤ 256 ∧
    stpA.geti (ctl .stp .a) STP.CH_COUNT_USTEP 3 = (stpA.stpCh .a 3).target ∧ (after (.stpStill .a 3) stpA).get (ctl .stp .a) STP.CH_STAT_STILL 3 = 1 := by decide

/-- A target 257 microsteps ahead: the overrun's boundary. -/
def stpFar (x : Int) : Dev := stpA.modHalf .a (fun h => { h with stp := h.stp.set 3 { StpCh.init with target := x } })

theorem witness_StepperChannels_overrun : (stpFar 257).stpLatest .a 3 1000000000 = 257 ∧
    ((stpFar 257).stpLatest .a 3 1000000000 - ((stpFar 257).stpCh .a 3).pwmCnt).natAbs > 256 ∧
    (after (.stpPwmPeriod .a 3 1000000000) (stpFar 257)).get (ctl .stp .a) HDR.ERR_CODE = cSTP_OVERRUN ∧
    (after (.stpPwmPeriod .a 3 1000000000) (stpFar 256)).get (ctl .stp .a) HDR.ERR_CODE = 0 := by decide

/-- Shoal of half A with a submission ring of 16 entries, at its last entry. -/
def subA : Dev :=
  let p := ctl .shl .a
  ((((duo.put p HDR.CTRL_EN 1).put p SHL.SUB_SIZE_N 16).put p SHL.SUB_BASE_ADDR 0x08100000).put p SHL.SUB_HEAD_IDX 15).put p SHL.SUB_TAIL_IDX 15

theorem witness_SubmissionsAreTaken : (st subA).out = true ∧ 16 ≤ subA.get (ctl .shl .a) SHL.SUB_SIZE_N ∧ subA.get (ctl .shl .a) SHL.SUB_SIZE_N ≤ 4096 ∧
    subA.get (ctl .shl .a) SHL.SUB_HEAD_IDX < subA.get (ctl .shl .a) SHL.SUB_SIZE_N ∧
    subA.get (ctl .shl .a) SHL.SUB_TAIL_IDX = subA.get (ctl .shl .a) SHL.SUB_HEAD_IDX ∧ subA.shlTakes .a = true ∧ duo.shlTakes .a = false ∧
    (after (.shlCancel .a 5 9) subA).get (ctl .shl .a) SHL.SUB_HEAD_IDX = 0 ∧ (after (.shlCancel .a 5 9) subA).get (ctl .shl .a) SHL.SUB_TAIL_IDX = 0 ∧
    memWord (after (.shlCancel .a 5 9) subA).ha.sram (0x08100000 + 16 * 15 + 8) = 9 := by decide

/-- A call assigned to car 0, and its stop at floor 4. -/
def aCall : Call := { Call.init with state := 2, kind := 1, valid := true, src := 4, dst := 6 }
def aStop : Stop := ⟨4, false, true, [7], [], [8], 0⟩
def callA : Dev := ((duo.put (ctl .shl .a) HDR.CTRL_EN 1).put (ctl .shl .a) SHL.CAR_CFG_EN 1 0 0).modHalf .a
  (fun h => { h with shl := { h.shl with calls := [(7, aCall), (8, { aCall with state := 3 })], stops := h.shl.stops.set 0 [aStop] } })

theorem witness_CancelAndArrive : callA.call? .a 7 = some aCall ∧ aCall.rejected = false ∧ aCall.state < 4 ∧ (callA.shl .a).stops.length = 64 ∧ aCall.car < 64 ∧
    aCall.valid = true ∧ ((callA.shlCancel .a 7 5).call? .a 7).map Call.state = some 5 ∧ callA.call? .a 9 = none ∧
    (callA.shlCancel .a 9 5).get (ctl .shl .a) HDR.ERR_CODE = cSHL_SLOT ∧ callA.inScope .a 0 = true ∧ callA.seqOf .a 0 = aStop :: [] ∧
    (callA.shlArrive .a 0 5 1).get (ctl .shl .a) HDR.ERR_CODE = cSHL_NOT_HEAD ∧ 7 ∈ aStop.picks ∧ 7 ∉ aStop.drops ∧ aCall.kind = 1 ∧ 8 ∈ aStop.drops ∧
    ((callA.shlArrive .a 0 4 1).call? .a 7).map Call.state = some 3 ∧ ((callA.shlArrive .a 0 4 1).call? .a 8).map Call.state = some 4 := by decide

/-- The only stop beside which call 9 boarded where the car stands is the one of call 7. -/
def leftA : Dev := callA.modHalf .a (fun h => { h with shl := { h.shl with calls := [(7, aCall), (9, { aCall with state := 3 })], stops := h.shl.stops.set 0 [⟨4, false, true, [7], [9], [], 0⟩] } })

theorem witness_CancelAndArrive_leftover : leftA.call? .a 7 = some aCall ∧ (Dev.unstop 7 [] (leftA.seqOf .a 0)).2 = [9] ∧
    (Dev.unstop 7 [] (callA.seqOf .a 0)).2 = [] ∧ ((leftA.shlCancel .a 7 5).call? .a 9).map Call.state = some 4 := by decide

/-- Car 0 stands at floor 0 of a shaft that serves floors 0 to 2. -/
def aRec0 : CarRec := ⟨0, 0, 0, true, some 0, false, 0, 0, 0, true⟩
def recA (r : CarRec) : Dev :=
  let p := ctl .shl .a
  ([0, 1, 2].foldl (fun d f => (d.put p SHL.FM_LAND_IDX f 0 f).put p SHL.FM_POS_UM (f * 3000000) 0 f) (((duo.put p HDR.CTRL_EN 1).put p SHL.CAR_CFG_EN 1 0 0).put p SHL.CAR_CFG_CAP 8 0 0)).modHalf .a
    (fun h => { h with shl := { h.shl with recs := h.shl.recs.set 0 (some r) } })

theorem witness_TheCheapestFeasibleCar : ((recA aRec0).best .a 7 { aCall with state := 1, valid := false, src := 1, dst := 2, count := 1 } [0]).isSome = true := by
  decide

/-- A call of a FORWARD module that waits for a decision. -/
def fwdA : Dev := ((duo.put (ctl .shl .a) HDR.CTRL_EN 1).put (ctl .shl .a) SHL.SCOPE_MODE 2).modHalf .a (fun h => { h with shl := { h.shl with calls := [(7, { aCall with state := 1 })] } })
def ringA : Dev := duo.put (ctl .shl .a) SHL.RES_SIZE_N 16

/-- Half A publishes without a standby in step; and one that is to be in step but that no mirror link reaches. -/
def aloneA : Dev := (recA aRec0).put (ctl .hlf .b) HLF.STATE_OWN 4
def cutA : Dev := (recA aRec0).put (ctl .mir .a) MIR.LINK_UP 0

theorem witness_ShoalKeepsItsTables : (st ringA).out = true ∧ (16 : BitVec 12).toNat ≥ ringA.get (ctl .shl .a) SHL.RES_SIZE_N ∧
    (after (.resTailWrite .a 16) ringA).get (ctl .shl .a) HDR.ERR_CODE = cRANGE ∧
    (15 : BitVec 12).toNat < ringA.get (ctl .shl .a) SHL.RES_SIZE_N ∧ (ringA.put (ctl .shl .a) SHL.RES_HEAD_IDX 15).get (ctl .shl .a) SHL.RES_HEAD_IDX = 15 ∧
    (recA aRec0).rec? .a 0 = some aRec0 ∧ aRec0.fresh = true ∧ (((after (.carRecordStale .a 0) (recA aRec0)).rec? .a 0).map CarRec.avail) = some 1 ∧
    (recA aRec0).enabled (ctl .shl .a) = true ∧ (recA aRec0).active .a = true ∧ (recA aRec0).shlPassive .a = false ∧
    ((recA aRec0).put (ctl .shl .a) SHL.SWEEP_EN 1).on (ctl .shl .a) SHL.SWEEP_EN = true ∧ (recA aRec0).shlMode .a ≠ 2 ∧
    (after (.shlSweep .a) ((recA aRec0).put (ctl .shl .a) SHL.SWEEP_EN 1)).get (ctl .shl .a) SHL.SWEEP_CNT_N = 1 := by decide

theorem witness_ShoalKeepsItsTables_calls : (recA { aRec0 with avail := 2 }).rec? .a 0 = some { aRec0 with avail := 2 } ∧
    (after (.shlReassignOut .a 0) (recA { aRec0 with avail := 2 })).callsOf .a 0 = [] ∧ fwdA.enabled (ctl .shl .a) = true ∧ fwdA.shlMode .a = 2 ∧
    fwdA.call? .a 7 = some { aCall with state := 1 } ∧ ((after (.shlFwdTmo .a 7) fwdA).call? .a 7).map Call.held = some true ∧
    aloneA.enabled (ctl .shl .a) = true ∧ aloneA.mirrors .b = false ∧ aloneA.get (ctl .hlf .b) HLF.STATE_OWN ≠ 1 ∧ (after (.shlPublish .a) aloneA).get (ctl .shl .a) SHL.CALLS_USED = 0 ∧
    cutA.active .a = true ∧ cutA.mirrors .b = false ∧ cutA.get (ctl .hlf .b) HLF.STATE_OWN = 1 := by decide

/-! ### Witnesses: safety -/

/-- A block with a field of `w` bytes set. -/
def bput (b : Block) (a w v : Nat) : Block :=
  let o := ((rfFind (a / 4) b).getD 0).toNat
  let s := 2 ^ (8 * (a % 4))
  rfSet (a / 4) 0 (BitVec.ofNat 32 (o - o / s % 2 ^ (8 * w) * s + v % 2 ^ (8 * w) * s)) b

/-- Cars 0 and 1, separated; input pair 0 in use on test-pulse lines 0 and 1 as CHAIN of both cars; output pairs 0 (STO) and 1 (BRAKE) of car 0. -/
def aBlock : Block :=
  [(0x0C, 4, 9), (0x21, 1, 3), (0x22, 1, 1), (0x40, 2, 100), (0x44, 2, 1), (0x46, 2, 1), (0x50, 1, 1), (0x51, 1, 1), (0x53, 1, 1), (0x54, 1, 3), (0x52 + 8, 1, 4), (0x53 + 8, 1, 4),
   (0x13C, 4, 1000), (0x138, 4, 1000), (0x130, 4, 1000), (0x134, 4, 1000), (0x904, 4, 500), (0x900, 4, 500), (0x2A00, 1, 1), (0x2A02, 2, 100), (0x2A10, 1, 2), (0x2A12, 2, 100), (0x198, 2, 200), (0x2214, 4, 0x100),
   (0x2A86, 2, 100), (0x2A88, 2, 10)].foldl
    (fun b f => bput b f.1 f.2.1 f.2.2) []

/-- The safety region in RUN with that block. -/
def safD : Dev := (({ duo with saf := { duo.saf with active := some aBlock } }.put (shp .sfc) SFC.STATE_CODE 3).put (shp .ths) THS.MODE_BLOCK_OK 1)

theorem witness_SafeInputsAndTestPulses : (st safD).out = true ∧ safD.safRun = true ∧ bkTpW safD.blk 0 ≠ 0 ∧ safD.thOn = true ∧ 0 ∈ safD.fedBy 0 ∧ 1 ∈ safD.fedBy 1 ∧
    safD.pairUsed 0 = true ∧ bitN ((after (.safeInputChange 15 true) safD).get (shp .ths) THS.IN_CH) 15 = 1 ∧
    (after (.tpWindowStart 0) safD).blanked 0 = true ∧ (after (.safeInputChange 0 true) (after (.tpWindowStart 0) safD)).saf.thLvl = safD.saf.thLvl ∧
    bitN ((after (.tpWindowEnd 0 1 0) (after (.tpWindowStart 0) safD)).get (shp .ths) THS.IN_PAIR_FLT) 0 = 1 ∧
    bitN ((after (.tpWindowEnd 0 0 0) (after (.tpWindowStart 0) safD)).get (shp .ths) THS.IN_PAIR_FLT) 0 = 0 ∧
    bitN ((after (.tpOverload 1) safD).get (shp .sfc) SFC.STOPS_PAIR_FLT) 0 = 1 ∧ (after (.discrepancy 0) safD).get (shp .sio) SIO.PR_DIAG_DISC 0 = 1 := by decide

/-- Source T of both cars good, car 0 beyond its overspeed, the cars closer than they may be. -/
def fastT : Dev := (((safD.put (shp .ths) THS.CARS_T_GOOD 3).puti (shp .ths) THS.CAR_VT_UMS 1001 0).put (shp .sio) SIO.SO_ST_LS 1 0)

theorem witness_TheathLatchesItsStops : (st fastT).out = true ∧ fastT.shaped = true ∧ fastT.thOn = true ∧ fastT.safCar 0 = true ∧ fastT.useT 0 = true ∧
    (fastT.vT 0).natAbs > bkOvsT fastT.blk 0 (decide (fastT.vT 0 > 0)) ∧ (fastT.th 0).causes = 0 ∧ bkOutCar fastT.blk 0 = (0 : Fin 4).val ∧
    (after .theathEval fastT).get (shp .sio) SIO.SO_ST_LS 0 = 0 ∧ bitN ((after .theathEval (fastT.puti (shp .ths) THS.CAR_VT_UMS 1000 0)).th 0).causes 4 = 0 ∧
    fastT.sepOn 0 = true ∧ fastT.sepWaived 0 = false ∧ fastT.tGood (0 : Fin 3) = true ∧ fastT.tGood ((0 : Fin 3).val + 1) = true ∧ fastT.gapT 0 < fastT.thrT 0 ∧
    (after .theathSepCheck fastT).get (shp .ths) THS.PR_ST_TRIP 0 = 1 := by decide

theorem witness_TheathLatchesItsStops_frames : Dev.tBad safD.blk 0 0 = false ∧ (after (.sourceTFrame 0 false 0) safD).tGood 0 = true ∧
    (after (.sourceTFrame 0 true 0) safD).get (shp .ths) THS.CAR_TBAD_COUNT 0 = 1 ∧ safD.sepNeighbours 0 ≠ [] ∧ (safD.th 0).waiveT = false ∧
    0 ∈ safD.thPairs 0 ∧ safD.sepWaived 0 = false ∧ bitN ((after (.sepTinv 0) safD).th 0).causes 8 = 1 ∧ bitN ((after (.sepTinv 0) safD).th 1).causes 8 = 1 ∧ ({ safD with saf := { safD.saf with active := some (bput aBlock 0x22 1 0) } } : Dev).sepNeighbours 0 = [] ∧
    bitN ((after (.sourceTLost 0) { safD with saf := { safD.saf with active := some (bput aBlock 0x22 1 0) } }).th 0).causes 9 = 1 ∧
    bitN ((after .heartbeatTimeout safD).th 0).causes 0xC = 1 ∧ safD.get (shp .sfc) SFC.STATE_CODE ≠ 5 ∧
    (after .heartbeatSend safD).get (shp .sfc) SFC.HB_COUNT = 1 := by decide

/-- Car 0 at 2 m/s towards car 1. -/
def fastP : Dev := { safD with pCopy := safD.pCopy.set 0 ⟨0, 2000000, 2, 2000000⟩ }

theorem witness_PairLatchesItsStops : (st fastP).out = true ∧ fastP.shaped = true ∧ fastP.safRun = true ∧ fastP.native = true ∧ bkSepOn fastP.blk 0 = true ∧
    fastP.safCar 0 = true ∧ fastP.safCar 1 = true ∧ fastP.headWaived 0 = false ∧ fastP.pV 0 > 0 ∧
    fastP.gapP 0 < fastP.headS1 0 1 + fastP.headS1 1 (-1) + bkHP fastP.blk 0 ∧ bitN ((after .headwayCheck fastP).sp 0).causes 8 = 1 ∧ bitN (fastP.get (shp .sfc) SFC.STOPS_CAT0) 0 = 0 ∧ (fastP.th 0).causes = 0 ∧
    bitN ((after .headwayCheck fastP).get (shp .sfc) SFC.STOPS_CAT1) 0 = 1 ∧
    (fastP.sp 0).causes = 0 ∧ (fastP.pV 0).natAbs > bkOvsP fastP.blk 0 (decide (fastP.pV 0 > 0)) ∧ bitN ((after .pairServoEval fastP).sp 0).causes 5 = 1 ∧
    (duo.safRun = false) := by decide

theorem witness_PairLatchesItsStops_inputs : bkFunc safD.blk 0 = 1 ∧ bitN (after (.pairSample 0) safD).saf.spAct 0 = 1 ∧ 0 ∈ bkPCars safD.blk 0 ∧
    bitN (safD.sp 0).rscChain 0 = 0 ∧ bkFeed safD.blk 2 ≥ 4 ∧ bitN ((after (.pairSample 0) safD).sp 0).causes 1 = 1 ∧
    Dev.tapStn safD.blk 1 (0x105 : Word).toNat = some 5 ∧ (safD.stn 5).silent = true ∧ (after (.safeFrame 1 0x105 true 0xA []) safD).stn 5 = { safD.stn 5 with rejected := true } ∧
    (duo.lockDiffers 0 = false) := by decide

/-- Station 5 in touch, then silent; and its first good frame. -/
def heard5 : Dev := safD.setStn 5 ⟨0, false, 0, false⟩
def frame5 : List Byte :=
  let bs := [1, 5] ++ leBytes 2 1 ++ leBytes 2 3 ++ leBytes 2 65532 ++ leBytes 4 0
  (bs ++ leBytes 4 (crc32c (leBytes 4 0x105 ++ bs))).map (BitVec.ofNat 8)

theorem witness_PairLatchesItsStops_stations : (heard5.stn 5).silent = false ∧ ((after (.stationSilent 5) heard5).stn 5).silent = true ∧
    Dev.safeFrameOk 5 0x105 true 0xA (frame5.map BitVec.toNat) = true ∧ (after (.safeFrame 1 0x105 true 0xA frame5) heard5).stn 5 = ⟨1, false, 3, false⟩ := by decide

/-- The same region with further fields of the block. -/
def safW (l : List (Nat × Nat × Nat)) : Dev := { safD with saf := { safD.saf with active := some (l.foldl (fun b f => bput b f.1 f.2.1 f.2.2) aBlock) } }

/-- A landing whose lock contacts and door pair disagree. -/
def lockD : Dev := (safW [(0x58, 1, 2), (0x5E, 1, 9), (0x123C, 1, 1), (0x123D, 1, 5)]).setStn 5 ⟨0, false, 0, false⟩

theorem witness_PairLatchesItsStops_locks : lockD.safRun = true ∧ lockD.lockDiffers (3 : BitVec 8).toNat = true ∧
    lockD.saf.lockDis.contains (3 : BitVec 8).toNat = false ∧ (after (.lockDisagree 3) lockD).saf.lockDis = [3] := by decide

/-- Car 0 may be rescued; and may run degraded without source T, its RESET contact pressed. -/
def rscD : Dev := safW [(0x15C, 1, 1)]
def degD : Dev := { (safW [(0x2B00, 1, 1), (0x2B01, 1, 7)]).modSp 0 (fun c => { c with press := some 0 }) with pCopy := safD.pCopy.set 0 ⟨0, 0, 2, 0⟩ }
def busyD : Dev := safD.put (shp .smb) SMB.REP_STATE 1

theorem witness_MailboxRequests : (st safD).out = true ∧ safD.shaped = true ∧ busyD.get (shp .smb) SMB.REP_STATE = 1 ∧
    (after (.smbReset 1 7) busyD).get (shp .smb) HDR.ERR_CODE = cBUSY ∧ safD.get (shp .smb) SMB.REP_STATE ≠ 1 ∧ safD.get (shp .sfc) SFC.STATE_CODE ≠ 5 ∧
    (after (.smbInfo 7) safD).get (shp .smb) SMB.REP_TAG = 7 ∧ safD.safRun = true ∧
    safD.resetWhy (safD.safCars.filter (fun n => bitN (1 : Word).toNat n == 1)) = none ∧ (after (.smbReset 1 7) safD).get (shp .smb) SMB.REP_STATE = 2 ∧
    fastP.resetWhy (fastP.safCars.filter (fun n => bitN (1 : Word).toNat n == 1)) = some (cNOT_STANDING, 0) ∧
    (after (.smbReset 1 7) fastP).get (shp .smb) SMB.REP_REASON = cNOT_STANDING ∧ (3 : Word).toNat ≤ 3 ∧ (2 : Word).toNat % 2 = 0 ∧ (1 : Word).toNat % 2 = 1 ∧
    (after (.smbRescue 3 0 7) safD).get (shp .smb) SMB.REP_STATE = 2 ∧ rscD.rescueWhy 0 = none ∧ bitN ((after (.smbRescue 0 1 7) rscD).get (shp .sfc) SFC.PERMIT_RESCUE) 0 = 1 ∧
    safD.rescueWhy 0 = some cSF_NOT_GRANTED ∧ (after (.smbRescue 0 1 7) safD).get (shp .smb) SMB.REP_STATE = 3 := by decide

theorem witness_MailboxRequests_degraded : degD.degWhy 0 ((3 : Word).toNat / 2 % 8) = none ∧ (after (.smbDegraded 0 3 7) degD).get (shp .smb) SMB.REP_STATE = 2 ∧
    ((after (.smbDegraded 0 3 7) degD).sp 0).deg = some 1 ∧ safD.degWhy 0 1 = some cSF_NOT_GRANTED ∧
    (after (.smbDegraded 0 3 7) safD).get (shp .smb) SMB.REP_STATE = 3 := by decide

/-- An output test of pair 7 at the limits of its time. -/
def testD : Dev := after (.smbOutputTest 7 2000 9) safD

theorem witness_MailboxRequests_test : (8 : Word).toNat > 7 ∧ (after (.smbOutputTest 8 50 9) safD).get (shp .smb) SMB.REP_REASON = cRANGE ∧
    (after (.smbOutputTest 7 49 9) safD).get (shp .smb) SMB.REP_REASON = cRANGE ∧ (after (.smbOutputTest 7 2001 9) safD).get (shp .smb) SMB.REP_REASON = cRANGE ∧
    safD.pairMoves (bkOutCar safD.blk (7 : Word).toNat) = false ∧ testD.get (shp .smb) SMB.REP_STATE = 1 ∧
    (after (.smbOutputTest 0 50 9) safD).get (shp .smb) SMB.REP_STATE = 1 ∧ testD.saf.test = some ((7 : Fin 8).val, 9) ∧
    (after (.outputTestDone ⟨4999, 4999⟩ 49) testD).get (shp .smb) SMB.REP_STATE = 2 ∧ (after (.outputTestDone ⟨5000, 0⟩ 49) testD).get (shp .sio) SIO.SO_ST_FCODE 7 = 1 ∧
    (after (.outputTestDone ⟨4999, 0⟩ 50) testD).get (shp .sio) SIO.SO_ST_FCODE 7 = 2 := by decide

/-- Car 0 in a category-1 stop, before and after its brake. -/
def s1D (b : Bool) : Dev := safD.modSp 0 (fun c => { c with s1 := some ⟨0, 0, 0, true, b⟩ })
def permD : Dev := ((safD.put (shp .sfc) SFC.PERMIT_MOTION 1).put (shp .sio) SIO.CAR_RUN_STO_ON 1 0).modSp 0 (fun c => { c with moved := true })
def brkOn : Dev := safD.put (shp .sio) SIO.SO_ST_HS 1 1

theorem witness_StopsAndBrakes : (st (s1D false)).out = true ∧ (s1D false).shaped = true ∧ (s1D false).safRun = true ∧
    ((s1D false).sp 0).s1 = some ⟨0, 0, 0, true, false⟩ ∧ (s1D false).pairMoves 0 = false ∧ bkOutFn safD.blk 1 = 2 ∧ bkOutCar safD.blk 1 = (0 : Fin 4).val ∧
    ((after (.s1Standstill 0) (s1D false)).sp 0).s1 = some ⟨0, 0, 0, true, true⟩ ∧ bkOutFn safD.blk 0 = 1 ∧ ((after (.s1StoOff 0) (s1D true)).sp 0).s1 = none ∧
    (s1D false).safCar 0 = true ∧ bitN ((s1D false).sp 0).causes 0xC = 0 ∧ bitN ((after (.s1Time 0) (s1D false)).sp 0).causes 0xC = 1 ∧
    (safD.sp 0).s1 = none ∧ bitN (safD.get (shp .sfc) SFC.PERMIT_MOTION) 0 = 0 ∧ (safD.sp 0).dropped = false ∧
    ((after (.standstillBrakeDrop 0) safD).sp 0).dropped = true ∧ ((safD.modSp 0 (fun c => { c with dropped := true })).sp 0).dropped = true ∧
    safD.on (shp .sio) SIO.CAR_RUN_BRK_ON 0 = false ∧ bitN (permD.get (shp .sfc) SFC.PERMIT_MOTION) 0 = 1 ∧
    permD.on (shp .sio) SIO.CAR_RUN_STO_ON 0 = true ∧ (permD.sp 0).moved = true ∧ (after (.brakeLift 0) permD).get (shp .sio) SIO.CAR_RUN_BRK_ON 0 = 1 := by
  decide

theorem witness_StopsAndBrakes_checks : brkOn.on (shp .sio) SIO.SO_ST_HS 1 = true ∧ (199 : BitVec 16).toNat < car16 brkOn.blk 0 0x98 ∧
    bitN ((after (.brakePickCheck 1 199) brkOn).sp 0).causes 0xD = 1 ∧ bitN ((after (.brakePickCheck 1 200) brkOn).sp 0).causes 0xD = 0 ∧
    safD.on (shp .sio) SIO.SO_ST_HS 1 = false ∧ bitN ((after (.brakeDropCheck 1 50) safD).sp 0).causes 0xD = 1 ∧
    bitN ((after (.brakeDropCheck 1 49) safD).sp 0).causes 0xD = 0 := by decide

/-- Output pair 0 with both switches on; a degraded grant in force; its conditions recovered. -/
def pairOn : Dev := (safD.put (shp .sio) SIO.SO_ST_HS 1 0).put (shp .sio) SIO.SO_ST_LS 1 0
def granted : Dev := degD.modSp 0 (fun c => { c with deg := some 1 })
def recovered : Dev := granted.put (shp .ths) THS.CARS_T_GOOD 1

theorem witness_OutputTestsAndGrants : (st pairOn).out = true ∧ pairOn.shaped = true ∧ pairOn.safRun = true ∧ pairOn.on (shp .sio) SIO.SO_ST_HS 0 = true ∧
    pairOn.on (shp .sio) SIO.SO_ST_LS 0 = true ∧ (after (.darkTest 0 true 0 0 50) pairOn).get (shp .sio) SIO.SO_ST_FCODE 0 = 2 ∧
    (after (.darkTest 0 true 0 0 49) pairOn).get (shp .sio) SIO.SO_ST_FCODE 0 = 0 ∧ (after (.darkTest 0 false 5000 0 0) pairOn).get (shp .sio) SIO.SO_ST_FCODE 0 = 1 ∧
    (after (.darkTest 0 false 4999 0 0) pairOn).get (shp .sio) SIO.SO_ST_FCODE 0 = 0 ∧ safD.on (shp .sio) SIO.SO_ST_HS 0 = false ∧
    (after (.splitTest 0 true 0 0 0 true) safD).get (shp .sio) SIO.SO_ST_FCODE 0 = 7 ∧ (after (.splitTest 0 true 4999 4999 0 false) safD).get (shp .sio) SIO.SO_ST_FCODE 0 = 0 ∧
    (after (.splitTest 0 false 5000 5000 49 false) safD).get (shp .sio) SIO.SO_ST_FCODE 0 = 0 ∧
    (after (.splitTest 0 false 5000 5000 50 false) safD).get (shp .sio) HDR.ERR_CODE = cOUT_FAULT := by decide

theorem witness_OutputTestsAndGrants_loads : bkOutFn pairOn.blk 0 ≠ 0 ∧ bkOutCar pairOn.blk 0 = (0 : Fin 4).val ∧ pairOn.safCar 0 = true ∧
    (after (.outputOverload 0) pairOn).get (shp .sio) SIO.SO_ST_FCODE 0 = 5 ∧ (99 : BitVec 16).toNat < bkOutOl pairOn.blk 0 ∧
    bitN ((after (.openLoad 0 99) pairOn).th 0).causes 0xE = 1 ∧ pairOn.saf.active.isSome = true ∧
    (pairOn.put (shp .sio) SIO.SO_OT_HOURS 100 0).get (shp .sio) SIO.SO_OT_HOURS 0 ≥ bkOtDue pairOn.blk ∧
    (after (.otDue 0) (pairOn.put (shp .sio) SIO.SO_OT_HOURS 100 0)).get (shp .sio) SIO.CAR_RUN_OT_DUE 0 = 1 := by decide

theorem witness_OutputTestsAndGrants_grants : granted.safCar 0 = true ∧ (granted.sp 0).deg = some 1 ∧ bitN (granted.sp 0).causes 0x10 = 0 ∧
    bitN ((after (.degTime 0) granted).sp 0).causes 0x10 = 1 ∧ ((granted.modSp 0 (fun c => { c with deg := none })).permitWhy 0).land (Dev.waivedBits 1) ≠ 0 ∧
    ((recovered.modSp 0 (fun c => { c with deg := none })).permitWhy 0).land (Dev.waivedBits 1) = 0 ∧ ((after (.degRecovery 0) recovered).sp 0).deg = none ∧
    bkFunc (safW [(0x58, 1, 8), (0x5C, 1, 1)]).blk 1 = 8 ∧ ((after (.resetPress 1 100) (safW [(0x58, 1, 8), (0x5C, 1, 1)])).sp 0).press = some 0 ∧
    ((after (.resetPress 1 5001) (safW [(0x58, 1, 8), (0x5C, 1, 1)])).sp 0).press = none := by decide

/-- A block that passes every load check beside its signature: car 0 with its STO and its BRAKE pair, no input in use. -/
def minBlock : Block :=
  [(0, 4, 0x50534231), (4, 2, 1), (8, 4, 13568), (0x0C, 4, 5), (0x40, 2, 10), (0x42, 2, 10), (0x2200, 2, 10), (0x2A80, 2, 1), (0x2A82, 2, 200), (0x2A84, 2, 50),
   (0x2A86, 2, 1), (0x2A88, 2, 1), (0x21, 1, 1), (0x130, 4, 1), (0x134, 4, 1), (0x138, 4, 2), (0x13C, 4, 2), (0x16E, 2, 1), (0x2A00, 1, 1), (0x2A10, 1, 2)].foldl
    (fun b f => bput b f.1 f.2.1 f.2.2)
    ((List.range 4).foldl (fun b n => [(0x184, 4, 10000), (0x188, 4, 100), (0x18C, 4, 1000), (0x190, 2, 10), (0x196, 2, 10), (0x198, 2, 50), (0x19A, 2, 10), (0x19C, 4, 1000)].foldl
      (fun b f => bput b (f.1 + 0x200 * n) f.2.1 f.2.2) (bput (bput b (0x2B04 + 0x10 * n) 4 100000) (0x2B08 + 0x10 * n) 2 10)) [])
/-- The part with the key of a safety engineer, that block in both copies, in START. -/
def keyD : Dev := { duo with keys := [⟨0, 5, 3⟩], saf := { duo.saf with copy1 := minBlock, copy2 := minBlock } }
/-- The same block as the candidate. -/
def candD : Dev := minBlock.foldl (fun d e => d.put (shp .spb) SPB.DATA_WORD e.2.toNat 0 e.1) keyD

/-- The one thing the model leaves to the scheme: that the signature verifies. -/
theorem witness_BlocksAndFault_load (h : bkSigned keyD.keys minBlock = true) : keyD.loadWhy keyD.saf.copy1 = none := by
  have a : keyD.variantCars = 4 := by decide
  have b : keyD.strapNative = true := by decide
  have c : keyD.get64 (shp .enc) ENC.DEV_ID_LO ENC.DEV_ID_HI = 1 := by decide
  unfold Dev.loadWhy
  rw [a, b, c, show keyD.saf.copy1 = minBlock from rfl]
  unfold bkWhy
  rw [h]
  decide

theorem witness_BlocksAndFault_signed (h : Config.falconOk 5 (digestBytes ((bkBytes minBlock 0 0x3000).map (BitVec.ofNat 8)))
    ((bkBytes minBlock 0x3000 0x500).map (BitVec.ofNat 8)) = true) : bkSigned keyD.keys minBlock = true := by
  unfold bkSigned keyD
  simp only [List.any_cons, h]
  rfl

theorem witness_BlocksAndFault_candidate : candD.candidate = minBlock := by decide

theorem crc16Bit_lt {c : Nat} (h : c < 65536) : crc16Bit c < 65536 := by
  unfold crc16Bit
  split
  · exact Nat.xor_lt_two_pow (n := 16) (Nat.mod_lt _ (by decide)) (by decide)
  · omega

/-- A seal code fits the 16 seal contacts, so contacts that show it exist. -/
theorem witness_BlocksAndFault_contacts (b : Block) : ∃ sw : BitVec 16, sealCode b = sw.toNat := by
  have bits : ∀ (l : List Nat) (c : Nat), c < 65536 → l.foldl (fun c _ => crc16Bit c) c < 65536 := by
    intro l
    induction l with
    | nil => exact fun c h => h
    | cons x l ih => exact fun c h => ih _ (crc16Bit_lt h)
  have all : ∀ (l : List Nat) (c : Nat), c < 65536 →
      l.foldl (fun c b => (List.range 8).foldl (fun c _ => crc16Bit c) (c.xor (b % 256 * 256))) c < 65536 := by
    intro l
    induction l with
    | nil => exact fun c h => h
    | cons x l ih =>
      intro c h
      rw [List.foldl_cons]
      have y : c.xor (x % 256 * 256) < 65536 := Nat.xor_lt_two_pow (n := 16) h (by omega)
      exact ih _ (bits (List.range 8) _ y)
  have lt : sealCode b < 65536 := by
    unfold sealCode crc16
    generalize bkBytes b 0 0x3500 = l
    exact all l 0xFFFF (by decide)
  exact ⟨BitVec.ofNat 16 (sealCode b), by rw [BitVec.toNat_ofNat, Nat.mod_eq_of_lt lt]⟩

theorem witness_BlocksAndFault : (st safD).out = true ∧ safD.shaped = true ∧ safD.get (shp .sfc) SFC.STATE_CODE ≠ 5 ∧ (false || true) = true ∧
    duo.get (shp .sfc) SFC.STATE_CODE = 0 ∧ (duo.loadWhy duo.saf.copy1).isSome = true ∧ (duo.loadWhy duo.saf.copy2).isSome = true := by decide

/-- SPB with a verified candidate; with a verification under way; at its last word; with the seal being written. -/
def verified : Dev := safD.put (shp .spb) SPB.STATUS_STATE 2
def verifying : Dev := keyD.put (shp .spb) SPB.STATUS_STATE 1

theorem witness_BlocksAndFault_spb : duo.get (shp .spb) SPB.STATUS_STATE ≠ 1 ∧ (after .spbVerify duo).get (shp .spb) SPB.STATUS_STATE = 1 ∧
    verified.get (shp .spb) SPB.STATUS_STATE = 2 ∧ 1 ≤ verified.get (shp .sfc) SFC.STATE_CODE ∧ verified.get (shp .sfc) SFC.STATE_CODE ≤ 3 ∧
    (after (.spbSeal 0 false) verified).get (shp .spb) SPB.STATUS_REASON = cSF_SEAL_EN ∧
    (∀ n : Fin 4, (verified.vT n).natAbs ≤ 1000 ∧ (verified.pV n).natAbs ≤ 1000) ∧ (duo.put (shp .spb) SPB.ADDR_WORD 3391).get (shp .spb) SPB.ADDR_WORD < 3392 ∧
    (after (.spbDataWrite 7) (duo.put (shp .spb) SPB.ADDR_WORD 3391)).get (shp .spb) SPB.ADDR_WORD = 0 ∧
    verifying.get (shp .spb) SPB.STATUS_STATE = 1 ∧ verifying.get (shp .sfc) SFC.BLOCK_ID_ID < bkId minBlock ∧
    bkId minBlock ≤ (verifying.put (shp .sfc) SFC.BLOCK_ID_ID 5).get (shp .sfc) SFC.BLOCK_ID_ID := by decide

theorem witness_BlocksAndFault_seal : (duo.loadWhy []) = some cSIGNATURE ∧
    (after .sealCommitDone (duo.put (shp .sfc) SFC.STATE_CODE 4)).get (shp .spb) SPB.STATUS_STATE = 4 ∧ fastP.safRun = true ∧
    (1 : BitVec 16).toNat ≠ fastP.get (shp .sfc) SFC.STATE_SEAL_SW ∧ fastP.safCar 0 = true ∧ fastP.pairMoves 0 = true ∧
    bitN ((after (.sealContactPoll 1 true) fastP).sp 0).causes 0x13 = 1 := by decide

/-! ### Witnesses: the cycle, the standby, the lease -/

/-- An image of no variables and no cells, and one with two cells. -/
def img0 : Image := ⟨7, 1, default⟩
def cell (e : Bool) (i : Nat) : Cell := ⟨⟨e, 0, false, i, 0, 0, 0, 0⟩, 0, false, false, 0⟩
/-- Half A RUNNING that image, with core 0 in its program, in a phase. -/
def cycD (phase : Nat) : Dev := (((duo.put (ctl .cyx .a) CYX.STATE_CODE 1).put (ctl .cyx .a) CYX.CORE_MASK_CORES 1).modCyx .a
  (fun c => { c with img := some img0, phase := phase, valid := true }))
def doneD : Dev := after (.cyxDone .a 0 [(0x08080000, 5)]) (cycD 2)

theorem witness_TheCycleRuns : (st (cycD 2)).out = true ∧ ((cycD 2).cyx .a).phase = 2 ∧ bitN ((cycD 2).get (ctl .cyx .a) CYX.CORE_MASK_CORES) 0 = 1 ∧
    0x08080000 ≤ (0x08080000 : BitVec 32).toNat ∧ (0x087FFFFF : BitVec 32).toNat ≤ 0x087FFFFF ∧ memRead doneD.ha.sram 0x08080000 = 5 ∧
    (cycD 0).active .a = true ∧ (cycD 0).get (ctl .cyx .a) CYX.STATE_CODE = 1 ∧ ((cycD 0).cyx .a).phase = 0 ∧ ((cycD 0).cyx .a).switchNow = false ∧ ((cycD 0).cyx .a).heldNext = false ∧
    ((cycD 0).cyx .a).switchNow = false ∧ (after (.cycleSnapshot .a 5 5) (cycD 0)).get (ctl .cyx .a) CYX.CNT_CYCLE = 1 ∧
    doneD.running .a = true ∧ doneD.allDone .a = true ∧ (cycD 2).allDone .a = false ∧ ((after (.cyclePublish .a 5 5) doneD).cyx .a).phase = 0 ∧
    (cycD 2).on (ctl .cyx .a) CYX.WDOG_ACT = false ∧ (after (.cycWdog .a) (cycD 2)).get (ctl .cyx .a) CYX.STATE_CODE = 2 ∧ (cycD 2).holds .a = true ∧
    bitN (after (.cycWdog .a) (cycD 2)).fio.causes 3 = 1 := by decide

theorem witness_TheCycleRuns_starts : let d := (cycD 0).put (ctl .cyx .a) CYX.STATE_CODE 0
    d.active .a = true ∧ (d.prog? .a).isSome = true ∧ d.get (ctl .cyx .a) CYX.STATE_CODE ≠ 1 ∧
    (after (.cyxCold .a) d).on (ctl .cyx .a) CYX.STATE_COLD = true ∧ (after (.cyxWarm .a) d).on (ctl .cyx .a) CYX.STATE_COLD = false ∧
    ((cycD 2).cyx .a).phase ≠ 0 ∧ ((after (.cyxStop .a) (cycD 2)).cyx .a).stopReq = true ∧ (after (.cyxStop .a) (cycD 0)).get (ctl .cyx .a) CYX.STATE_CODE = 0 ∧
    d.cyxIdle .a = true ∧ d.shadow = [] ∧ d.mirrors .b = false ∧ (after (.idleCycleEvent .a) d).get (ctl .cyx .a) CYX.CNT_CYCLE = 1 := by decide

/-- An image header at MRAM offset 0x10000. -/
def hdrM : List Host.Cell := [(0x10000, 0x31), (0x10001, 0x47), (0x10002, 0x4D), (0x10003, 0x49), (0x10004, 1), (0x10010, 1), (0x10028, 5)]
/-- The state before a LOAD, and at each step of an on-line change. -/
def olcD (n : Nat) : Dev := { ((cycD 0).put (ctl .cyx .a) CYX.OLC_STAT_STATE n).put (ctl .cyx .a) CYX.OLC_SRC_OFS 1 with mram := hdrM, keys := [⟨0, 5, 2⟩] }

/-- A LOAD under way. -/
def loadD : Dev := (olcD 1).modCyx .a (fun c => { c with idle := some img0 })

theorem witness_OnLineChange : (st (olcD 0)).out = true ∧ (olcD 0).active .a = true ∧ (olcD 0).get (ctl .cyx .a) CYX.STATE_CODE = 1 ∧ (olcD 0).olc .a = 0 ∧
    (cycD 0).imgWhy (cycD 0).mram ((cycD 0).get (ctl .cyx .a) CYX.OLC_SRC_OFS * 65536) = some cRANGE ∧ (after (.olcLoad .a) (cycD 0)).olc .a = 6 ∧
    (duo.get (ctl .cyx .a) CYX.STATE_CODE ≠ 1 ∧ (after (.olcLoad .a) duo).get (ctl .cyx .a) HDR.ERR_CODE = cOLC_STATE) ∧
    (olcD 1).olc .a ≠ 2 ∧ (after (.olcSwitch .a) (olcD 1)).get (ctl .cyx .a) HDR.ERR_CODE = cOLC_STATE ∧
    loadD.active .a = true ∧ loadD.olc .a = 1 ∧ (loadD.cyx .a).idle = some img0 ∧ (after (.olcLoadDone .a true) loadD).olc .a = 2 ∧ (after (.olcLoadDone .a false) loadD).olc .a = 6 ∧
    (olcD 2).olc .a = 2 ∧ (after (.olcSwitch .a) (olcD 2)).olc .a = 3 ∧ (after (.olcCancel .a) (olcD 3)).olc .a = 0 := by decide

/-- A LOAD, where the scheme accepts the image's signature: a program without variables, cells and code fits, one with a byte of code does not fit a bank of none. -/
theorem witness_OnLineChange_load (pr : Program)
    (h : Config.falconOk 5 (digestBytes (imgMsg hdrM 0x10000 1)) (memReads hdrM (0x10000 + 0x100) 0x500) = true)
    (p : Config.program (memReads hdrM (0x10000 + 0x1000) 1) = pr) :
    (olcD 0).imgWhy (olcD 0).mram 0x10000 = none ∧ Dev.imgLoad (olcD 0).mram 0x10000 = some ⟨0, 0, pr⟩ ∧
      (olcD 0).olcWhy .a ((olcD 0).prog .a) default = none ∧ (olcD 0).olcWhy .a ((olcD 0).prog .a) { (default : Program) with code := [1] } = some (cOLC_SPACE, 1) := by
  have e : imgHdr hdrM 0x10000 = some ⟨0, 0, 1, 0, 5⟩ := by rfl
  have m : (olcD 0).mram = hdrM := rfl
  refine ⟨?_, ?_, by decide, by decide⟩
  · have k : (olcD 0).imgKeyOk 5 = true := by decide
    have v : ((olcD 0).get (shp .enc) ENC.MIN_VER_V) = 0 := by decide
    rw [m]
    unfold Dev.imgWhy Dev.imgSigOk
    simp only [e, k, h, v]
    decide
  · rw [m]
    unfold Dev.imgLoad
    rw [e]
    simp only [Option.map, p]

/-- An armed switch; the old image kept with the standby in step; two cells. -/
def switchD : Dev := (olcD 3).modCyx .a (fun c => { c with switchNow := true, idle := some img0 })
def cs (i : Nat) : CycState := ⟨3, [9], [], [], i, 0, (0x08100000, 4), 0x08200000, 64⟩
def switched (i : Nat) : Dev := (olcD 4).modCyx .b (fun c => { c with shadow := some (cs i) })
def celled : Dev := duo.modCyx .a (fun c => { c with cells := [cell false 5, cell true 6] })

theorem witness_OnLineChange_switch : (switchD.cyx .a).switchNow = true ∧ (switchD.cyx .a).idle = some img0 ∧
    (after (.olcSwitchExec .a 5) switchD).olc .a = 4 ∧ (switched 0).olc .a = 4 ∧ ((switched 0).cyx .b).shadow = some (cs 0) ∧
    (cs 0).bank = (switched 0).get (ctl .cyx .a) CYX.IMG_BANK ∧ (after (.olcDone .a) (switched 0)).olc .b = 5 ∧ (cs 1).bank ≠ (switched 1).get (ctl .cyx .a) CYX.IMG_BANK ∧
    (after (.olcDone .a) (switched 1)).olc .a = 4 ∧
    duo.active .a = true ∧ (after (.tmcFind .a 6) celled).get (ctl .tmc .a) TMC.SEL_EDGE = 1 ∧ (after (.tmcFind .a 5) celled).get (ctl .tmc .a) TMC.FIND_HIT = 1 := by
  decide

/-- The standby B: in step, with the link up and what it has received. -/
def upD : Dev := (duo.put (ctl .mir .a) MIR.LINK_UP 1).put (ctl .mir .b) MIR.LINK_UP 1
def rxD (phase : Nat) : Dev := ((upD.put (ctl .cyx .b) CYX.STATE_CODE 1).modCyx .b (fun c => { c with rxq := [cs 7], waiting := 1, marker := 9, phase := phase, valid := true }))
def sbuf : ServoState := ⟨[], duo.hb.mpg, duo.hb.sep, duo.hb.le, duo.hb.dax, duo.hb.stp, 5, [], duo.hb.pos.cars⟩
def bufD : Dev := { upD with hlfB := { upD.hlfB with servoBuf := some sbuf } }
def missD (n : Nat) : Dev := { upD with hlfB := { upD.hlfB with missRun := n, disRun := n } }
def backD : Dev := { ((upD.put (ctl .hlf .b) HLF.STATE_OWN 2).modCyx .b (fun c => { c with shadow := some (cs 7) })) with hlfB := { upD.hlfB with okRun := 3, cycOk := true } }

theorem witness_TheStandbyFollows : (st (rxD 0)).out = true ∧ (rxD 0).active .b = false ∧ (rxD 0).running .b = true ∧ (rxD 0).mirUp = true ∧ ((rxD 0).cyx .b).rxq = cs 7 :: [] ∧
    ((after (.shadowCopy .b) (rxD 0)).cyx .b).shadow = some { cs 7 with ret := [] } ∧ ((after (.shadowCopy .b) (rxD 0)).cyx .b).rxq = [] ∧ ((rxD 0).cyx .b).waiting = 1 ∧ ((rxD 2).cyx .b).phase ≠ 0 ∧
    (after (.cycleMarker .b 5 5) (rxD 2)).get (ctl .cyx .b) CYX.STATE_LAG = 1 ∧ ((rxD 0).cyx .b).phase = 0 ∧ ((rxD 0).cyx .b).valid = true ∧
    (rxD 0).get (ctl .cyx .b) CYX.STATE_CODE = 1 ∧ (after (.cycleMarker .b 5 5) (rxD 0)).get (ctl .cyx .b) CYX.CNT_CYCLE = 9 ∧
    (bufD.hlf .b).servoBuf = some sbuf ∧ bufD.mirrors .b = true ∧ (bufD.put (ctl .hlf .b) HLF.CFG_CMP_SERVO 0).on (ctl .hlf .b) HLF.CFG_CMP_SERVO = false ∧
    (missD 1).hlfState .b = 1 ∧ (missD 1).mirUp = true ∧ (after (.servoStateMiss .b) (missD 1)).hlfState .b = 1 ∧ (after (.servoStateMiss .b) (missD 2)).hlfState .b = 2 := by
  decide

theorem witness_TheStandbyFollows_more : ((missD 4).put (ctl .hlf .b) HLF.CFG_DIS_N 4).get (ctl .hlf .b) HLF.CFG_DIS_N ≠ 0 ∧
    (after (.disagree .b) ((missD 4).put (ctl .hlf .b) HLF.CFG_DIS_N 4)).hlfState .b = 2 ∧ (after (.disagree .b) ((missD 3).put (ctl .hlf .b) HLF.CFG_DIS_N 4)).hlfState .b = 1 ∧
    backD.resyncOk .b = true ∧ (after (.resyncComplete .b) backD).hlfState .b = 1 ∧ upD.mirUp = true ∧
    (after (.mirPacketCrcFail .b .again) upD).on (ctl .mir .a) MIR.LINK_TRAIN = true ∧ (after (.mirPacketCrcFail .b .lock) upD).on (ctl .mir .b) MIR.LINK_TRAIN = true ∧
    (after (.mirPacketCrcFail .b .crc) upD).get (ctl .mir .a) MIR.RESEND_COUNT = 1 ∧ (after .mirLinkDown upD).mirUp = false ∧
    (1 : BitVec 4) ≠ 0 ∧ duo.outOfReset .a = true ∧ duo.outOfReset .b = true ∧ (after (.mirLinkUp 15) duo).get (ctl .mir .b) MIR.LINK_WIDTH = 3 ∧
    (after (.mirLinkUp 1) duo).get (ctl .mir .b) MIR.LINK_WIDTH = 1 := by decide

/-- No valid lease: the window that B's claim opened is about to end. -/
def noLease : Dev := duo.put (shp .wir) WIR.LEASE_VALID 0
def claimD : Dev := after (.standbyClaim .b) ((noLease.put (ctl .hlf .a) HLF.STATE_OWN 4))
def bothD : Dev := { noLease with weir := { noLease.weir with claims := [(.a, 65535), (.b, 0)] } }

theorem witness_TheLeaseMoves : (st duo).out = true ∧ duo.active .a = true ∧ duo.holds .a = true ∧ duo.get (shp .wir) WIR.LEASE_EPOCH = (0 : BitVec 16).toNat ∧
    (after (.leaseRenewal .a 0) duo).get (shp .wir) WIR.RENEW_COUNT = 1 ∧ duo.on (shp .wir) WIR.LEASE_VALID = true ∧
    (after .leaseExpiry duo).on (shp .wir) WIR.LEASE_VALID = false ∧ duo.hlfState .a ≤ 2 ∧ (after (.halfAbort .a) duo).hlfState .a = 4 ∧
    (after (.hclkOutOfRange .a false) duo).holds .a = true ∧ outDev.hlfState .a > 2 ∧ duo.hlfState .b ≤ 2 ∧ duo.holds .b = false ∧
    (after (.standbyClaim .b) duo).hlfState .b = 3 ∧ noLease.on (shp .wir) WIR.LEASE_VALID = false ∧ noLease.hlfState .b ≠ 0 ∧
    (.b, 1) ∈ (after (.standbyClaim .b) noLease).weir.claims := by decide

theorem witness_TheLeaseMoves_window : claimD.on (shp .wir) WIR.LEASE_WIN = true ∧ claimD.winner = some (.b, 1) ∧ claimD.hlfState .b = 1 ∧ claimD.active .a = false ∧
    (∀ c ∈ claimD.weir.claims, c.1 = HalfId.b) ∧ claimD.get (ctl .shl .b) SHL.SUB_TAIL_IDX = claimD.get (ctl .shl .b) SHL.SUB_HEAD_IDX ∧
    (claimD.cyx .b).shadow = none ∧ (after (.claimWindowEnd 5 5) claimD).holds .b = true ∧ (after (.claimWindowEnd 5 5) claimD).hlfState .b = 0 ∧
    bothD.weir.claims = [(.a, 65535), (.b, 0)] ∧ bothD.outOfReset .a = true ∧ bothD.outOfReset .b = true ∧ bothD.winner = some (.b, 0) ∧
    (after .weirNohold noLease).get (shp .wir) WIR.SAFE_NOHOLD = 1 := by decide

/-- Two halves in step, and each step of a proof swap. -/
def swapD : Dev := after (.swap .a) duo
def heldD : Dev := (swapD.modCyx .a (fun c => { c with heldNext := true })).modCyx .b (fun c => { c with shadow := some ⟨0, [], [], [], 7, 0, (0x08100000, 4), 0x08200000, 64⟩ })
def provedD : Dev := { (swapD.put (ctl .hlf .a) HLF.SWAP_ST_STATE 2) with weir := { swapD.weir with proof := some (.a, true, 0) } }
def offB : Dev := (duo.put (ctl .hlf .b) HLF.STATE_OWN 4).put (shp .pwr) PWR.IN_B_OK 1
def repB : Dev := { duo.put (ctl .hlf .b) HLF.STATE_OWN 5 with hlfB := { duo.hlfB with ready := true }, weir := { duo.weir with strobed := true } }

theorem witness_SwapsAndRepairs : (st duo).out = true ∧ duo.active .a = true ∧ duo.hlfState .b = 1 ∧ duo.get (ctl .cyx .b) CYX.SHADOW_LAG ≤ 1 ∧ duo.olc .a < 2 ∧
    duo.get (ctl .hlf .a) HLF.SWAP_ST_STATE ≠ 1 ∧ duo.get (ctl .hlf .a) HLF.SWAP_ST_STATE ≠ 2 ∧ swapD.get (ctl .hlf .b) HLF.SWAP_ST_STATE = 1 ∧
    offB.hlfState .b ≠ 1 ∧ (after (.swap .a) offB).get (ctl .hlf .a) HDR.ERR_CODE = cHLF_PEER_STATE ∧ heldD.holds .a = true ∧
    heldD.get (ctl .hlf .a) HLF.SWAP_ST_STATE = 1 ∧ heldD.hlfState .b = 1 ∧ (heldD.cyx .a).heldNext = true ∧ (heldD.cyx .b).shadow = some ⟨0, [], [], [], 7, 0, (0x08100000, 4), 0x08200000, 64⟩ ∧
    0 = heldD.get (ctl .cyx .a) CYX.CNT_CYCLE ∧ heldD.weir.proof = none ∧ (after (.swapRelease .a) heldD).on (shp .wir) WIR.LEASE_VALID = false ∧
    provedD.weir.proof = some (.a, true, 0) ∧ provedD.get (ctl .hlf .a) HLF.SWAP_ST_STATE = 2 ∧
    (after .swapProofDone provedD).get (ctl .hlf .b) HLF.SWAP_ST_STATE = 3 ∧ provedD.store.proofAt.length = 2 ∧
    (after .swapProofDone provedD).store.proofAt.getD 0 none = some provedD.now ∧ (after (.swapCancel .a) heldD).get (ctl .hlf .b) HLF.SWAP_ST_STATE = 0 ∧
    duo.active .b = false ∧ duo.outOfReset .b = true ∧ (duo.put (ctl .hlf .b) HLF.SWAP_DUE_H 0).proofAge .b ≥ (duo.put (ctl .hlf .b) HLF.SWAP_DUE_H 0).get (ctl .hlf .b) HLF.SWAP_DUE_H ∧
    (after (.proofAgeDue .b) (duo.put (ctl .hlf .b) HLF.SWAP_DUE_H 0)).get (ctl .hlf .b) HDR.ERR_CODE = cHLF_SWAP_DUE := by decide

theorem witness_SwapsAndRepairs_peer : offB.active .a = true ∧ offB.active .b = false ∧ (offB.hlf .b).hold = false ∧ offB.inputOk .b = true ∧
    (after (.resetPeer .a) offB).hlfState .b = 5 ∧ (after (.holdPeer .a) offB).hlfState .b = 4 ∧ ((after (.holdPeer .a) offB).hlf .b).hold = true ∧
    (after (.releasePeer .a) (after (.holdPeer .a) offB)).hlfState .b = 5 ∧ (after (.holdPeer .b) duo).get (ctl .hlf .b) HDR.ERR_CODE = cHLF_PEER_STATE ∧
    repB.hlfState .b = 5 ∧ ((after (.repairEntry .b []) repB).hlf .b).ready = true ∧ (after (.repairEntry .b []) repB).on (ctl .mir .b) MIR.LINK_TRAIN = true ∧ (repB.hlf .b).ready = true ∧ repB.weir.strobed = true ∧
    repB.on (shp .wir) WIR.LEASE_VALID = true ∧ repB.bootGen.1 = none ∧ (after (.repairDone .b) repB).hlfState .b = 2 ∧ duo.weir.strobed = false := by decide

/-- A half that a fault took OFFLINE, with two and with three restarts in the last day. -/
def rejoin (l : List Nat) : Dev := { offB.put (ctl .hlf .a) HLF.CFG_AUTO_REJOIN 1 with hlfB := { offB.hlfB with faulted := true, restarts := l } }

theorem witness_SwapsAndRepairs_rejoin : (rejoin []).hlfState .b = 4 ∧ ((rejoin []).hlf .b).faulted = true ∧ ((rejoin []).hlf .b).hold = false ∧ (rejoin []).running .a = true ∧
    (rejoin []).on (ctl .hlf .a) HLF.CFG_AUTO_REJOIN = true ∧ (rejoin []).inputOk .b = true ∧ (after (.autoRejoin .b true) (rejoin [0, 0])).hlfState .b = 5 ∧
    (after (.autoRejoin .b true) (rejoin [0, 0, 0])).hlfState .b = 4 := by decide

/-! ### Witnesses: CAN and the group -/

/-- Controller 1, ERROR_ACTIVE, with buffer 127 of the firmware pending, owned, or with a header it may not send. -/
def canOn : Dev := (duo.put (pgCan 1) HDR.CTRL_EN 1).put (pgCan 1) CAN.BUS_STATE 2
def reqD : Dev := after (.txReq 1 3 0x80000000) canOn

theorem witness_CanFramesAreSentAndQueued : (st canOn).out = true ∧ canOn.shaped = true ∧ canOn.canSrc 1 127 = 0 ∧ canOn.canPend 1 127 = false ∧
    canOn.canHeaderOk 1 127 = true ∧ canOn.canWhyNot 1 = none ∧ reqD.canPend 1 127 = true ∧ duo.canWhyNot 1 ≠ none ∧
    (after (.txReq 1 3 0x80000000) duo).get (pgCan 1) CAN.TXB_ST_RESULT 0 127 = 6 ∧
    (canOn.put (pgMpg .a 3) HDR.CTRL_EN 1).canSrc 2 3 ≠ 0 ∧ (after (.txReq 2 0 8) (canOn.put (pgMpg .a 3) HDR.CTRL_EN 1)).get (pgCan 2) HDR.ERR_CODE = cCAN_TX_OWNED ∧
    (reqD.canCh 1).begun ≠ some 127 ∧ (after (.txCancel 1 3 0x80000000) reqD).get (pgCan 1) CAN.TXB_ST_RESULT 0 127 = 5 ∧
    reqD.get (pgCan 1) CAN.RX_HEAD_IDX < 1024 ∧ (after (.canTxEnd 1 127 true false 0 ⟨0, 0⟩ none) reqD).get (pgCan 1) CAN.TXB_ST_RESULT 0 127 = 2 ∧
    (after (.canTxEnd 1 127 false false 3 ⟨0, 0⟩ none) reqD).get (pgCan 1) CAN.TXB_ST_RESULT 0 127 = 4 := by decide

/-- The firmware has written 0 to the enable of a controller that is in the middle of a frame (R398). -/
def finD : Dev := { canOn.put (pgCan 1) CAN.BUS_STATE 0 with can := canOn.can.set 1 { CanCh.init with fin := true } }
def fullQ (n : Nat) : Dev := (canOn.put (pgCan 1) CAN.RX_OWNED_N n).put (pgCan 1) CAN.RX_HEAD_IDX 1023

theorem witness_CanFramesAreSentAndQueued_rx : duo.canLive 1 = false ∧ (fullQ 1023).canLive 1 = true ∧ (finD.canLive 1 = true ∧ finD.get (pgCan 1) CAN.BUS_STATE = 0) ∧
    (fullQ 1023).get (pgCan 1) CAN.RX_HEAD_IDX < 1024 ∧ (fullQ 1023).safRun = false ∧ Dev.tapStn [] 2 5 = none ∧
    (after (.canRxFrame 1 5 false true true false false 1 [9] ⟨0, 0⟩) (fullQ 1023)).get (pgCan 1) CAN.RX_OWNED_N = 1024 ∧
    (after (.canRxFrame 1 5 false true true false false 1 [9] ⟨0, 0⟩) (fullQ 1023)).get (pgCan 1) CAN.RX_HEAD_IDX = 0 ∧
    (after (.canRxFrame 1 5 false true true false false 1 [9] ⟨0, 0⟩) (fullQ 1024)).get (pgCan 1) HDR.ERR_CODE = cCAN_RX_DROP ∧
    (after (.rxAck 1 1023) (fullQ 1023)).get (pgCan 1) CAN.RX_OWNED_N = 0 ∧ (after (.rxAck 1 1024) (fullQ 1023)).get (pgCan 1) HDR.ERR_CODE = cRANGE := by decide

/-- BUS_OFF, REJOINING and INTEGRATING; a schedule of two rows and columns with the buffer of its cell pending; a station that missed two periods. -/
def canSt (n : Nat) : Dev := canOn.put (pgCan 1) CAN.BUS_STATE n
def ttD : Dev := ((reqD.put (pgCan 1) CAN.TT_CFG_ROWS 2).put (pgCan 1) CAN.TT_CFG_COLS 2).put (pgCan 1) CAN.TT_CELL_BUF 127 0 1
/-- The same buffer loaded anew while its frame is on the bus (R407), and one whose frame has begun. -/
def begunD : Dev := after (.frameEvent 1 true) reqD
def againD : Dev := { reqD with can := reqD.can.set 1 { CanCh.init with begun := some 127, run := some (reqD.canFrame 1 127), again := true } }

theorem witness_CanFramesAreSentAndQueued_begun : reqD.canRuns 1 127 = true ∧ (reqD.canCh 1).again = false ∧ canOn.canRuns 1 127 = false ∧ reqD.canMay 1 = some 127 ∧
    (begunD.canCh 1).begun = some 127 ∧ (begunD.canCh 1).run.isSome = true ∧ againD.canRuns 1 127 = true ∧ (againD.canCh 1).again = true ∧
    (againD.canCh 1).begun.isSome = true ∧ againD.canWhyNot 1 = none ∧
    (after (.canTxEnd 1 127 false false 3 ⟨0, 0⟩ none) againD).get (pgCan 1) CAN.TXB_ST_RESULT 0 127 = 1 := by decide

def matD : Dev := { ttD with can := ttD.can.set 1 { CanCh.init with mat := some ⟨2, [0xFF, 127], [127]⟩ } }
def armD : Dev := { ttD with can := ttD.can.set 1 { CanCh.init with arm := some 127, col := some 1 } }
def stnD : Dev := ((duo.put (shp .rsm) HDR.CTRL_EN 1).put (shp .rsm) RSM.STN_CFG_EN 1 0 287).put (shp .rsm) RSM.STN_ST_MISS 2 0 287

theorem witness_CanStatesAndSchedule : (st canOn).out = true ∧ canOn.shaped = true ∧ canOn.get (pgCan 1) CAN.BUS_STATE = 2 ∧
    (after (.canBusError 1 true 4 true false) (canOn.put (pgCan 1) CAN.ERRC_TEC 247)).get (pgCan 1) CAN.BUS_STATE = 3 ∧
    (after (.canBusError 1 true 4 true false) (canOn.put (pgCan 1) CAN.ERRC_TEC 248)).get (pgCan 1) CAN.BUS_STATE = 4 ∧
    (canSt 4).get (pgCan 1) CAN.BUS_STATE = 4 ∧ (after (.canRejoin 1) (canSt 4)).get (pgCan 1) CAN.BUS_STATE = 5 ∧
    (after (.canRejoinDone 1) (canSt 5)).get (pgCan 1) CAN.BUS_STATE = 2 ∧ (after (.canIntegrated 1) (canSt 1)).get (pgCan 1) CAN.BUS_STATE = 2 ∧
    (∀ e ∈ ttD.shadow, e.page ≠ pgCan 1) ∧ (after (.frameEvent 1 false) ttD).get (pgCan 1) HDR.COMMIT_SEQ = 1 ∧ ttD.get (pgCan 1) CAN.TT_CFG_ROWS ≠ 0 ∧
    (after (.ttBasicCycle ⟨1, false⟩) ttD).get (pgCan 1) CAN.TT_ROW_IDX = 1 ∧ canOn.get (pgCan 1) CAN.TT_CFG_ROWS = 0 ∧ (canOn.canCh 1).mat = none ∧
    ((after (.ttBasicCycle ⟨1, false⟩) ttD).canCh 1).mat.map (fun m => m.cols) = some 2 ∧ canOn.canLive 1 = true ∧ duo.canLive 1 = false := by decide

theorem witness_CanStatesAndSchedule_windows : ((after (.ttColumnStart 1 1 false) matD).canCh 1).col = some 1 ∧
    (matD.canCh 1).mat = some ⟨2, [0xFF, 127], [127]⟩ ∧ (matD.canCh 1).begun = none ∧ matD.canPend 1 127 = true ∧ matD.canWhyNot 1 = none ∧
    ((after (.ttColumnStart 1 1 true) matD).canCh 1).begun = some 127 ∧ (canOn.canCh 1).mat.all (fun m => decide (1 ≥ m.cols)) = true ∧ (armD.canCh 1).arm = (some (127 : Fin 128)).map Fin.val ∧
    armD.canPend 1 127 = true ∧ (armD.canCh 1).begun ≠ some 127 ∧ (after (.ttWindowEnd 1) armD).get (pgCan 1) HDR.ERR_CODE = cCAN_WINDOW ∧
    (canOn.canCh 1).arm = (none : Option (Fin 128)).map Fin.val ∧ stnD.enabled (shp .rsm) = true ∧ stnD.on (shp .rsm) RSM.STN_CFG_EN 0 287 = true ∧
    (after (.stationPeriodMiss 287) stnD).get (shp .rsm) RSM.STN_ST_STATE 0 287 = 1 ∧
    (after (.canLonely 1) ((canOn.put (pgCan 1) CAN.LONELY_N 5).put (pgCan 1) CAN.BUS_ACKRUN 5)).get (pgCan 1) CAN.BUS_LONELY = 1 ∧
    (after (.canLonely 1) ((canOn.put (pgCan 1) CAN.LONELY_N 5).put (pgCan 1) CAN.BUS_ACKRUN 4)).get (pgCan 1) CAN.BUS_LONELY = 0 := by decide

/-! ### Witnesses: the group, the field region, the clock -/

/-- A worker in ring position 2 of group 0 with both ports up and the link discipline on, and a header from position 1. -/
def nodeOf (j : Bool) : GNode := { GNode.init with joined := j, age0 := 0 }
def gDev (role : Nat) : Dev := { ((((((duo.put (shp .glk) HDR.CTRL_EN 1).put (shp .glk) GLK.ROLE_STRAP role).put (shp .glk) GLK.NODE_POS 2).put (shp .glk) GLK.RING_LINK 3).put
  (shp .glk) GLK.WORKERS_MASK 7).put (shp .glk) GLK.TSYNC_EN 1) with glk := { duo.glk with nodes := (List.replicate 18 GNode.init).set 1 (nodeOf true) } }
def ghRaw (typ : Nat) : GHdr := ⟨1, BitVec.ofNat 8 typ, 0, 1, 2, 4, 9, 0, 0, false, true, 0, true, 0, 0, 0x88B5⟩
/-- The same header with its own check word. -/
def crcd (h : GHdr) : GHdr := { h with hcrc := BitVec.ofNat 16 h.headCrc }
def gh (typ : Nat) : GHdr := crcd (ghRaw typ)
def sentD : Dev := after (.delayReqSend 0 100) (gDev 1)
/-- Another module holds the own position; the queue of port 1 is full. -/
def dupG : Dev := { gDev 1 with glk := { (gDev 1).glk with dup := true } }
def fullG : Dev := { gDev 1 with glk := { (gDev 1).glk with queue := List.replicate 33 (Dev.relayFrame 0 (gh 9) (some (.reportReq 1)) 0 []) } }
def knownD : Dev := { gDev 1 with glk := { (gDev 1).glk with delays := [List.replicate 8 5, []] } }

theorem witness_GroupFramesAndTime : (st (gDev 1)).out = true ∧ (gDev 1).shaped = true ∧ (gDev 1).glkOn = true ∧ (gDev 1).linkUp 0 = true ∧ (gDev 1).linkUp 1 = true ∧
    (gDev 1).ringPos = 2 ∧ (gh 3).group.toNat = (gDev 1).get (shp .glk) GLK.GROUP_ID ∧ ((gDev 1).node 1).accept 9 = (some { nodeOf true with hi := some 9, seen := 0 }, false) ∧
    ((after (.reportReqRx 0 (gh 9)) (gDev 1)).glk.out.map (fun f => (f.port, f.hops))) = [(1, 3)] ∧ (after (.reportReqRx 0 (gh 9)) (gDev 1)).glk.inbox = [.reportReq 1] ∧
    (after (.reportReqRx 0 (ghRaw 9)) (gDev 1)).get (shp .glk) GLK.ERR_CNT_HCRC = 1 ∧
    (after (.reportReqRx 0 (crcd { gh 9 with group := 5 })) (gDev 1)).get (shp .glk) GLK.DROP_FOREIGN = 1 ∧
    (after (.reportReqRx 0 (crcd { gh 9 with src := 2 })) (gDev 1)).glk.inbox = [] ∧ (after (.reportReqRx 0 { gh 9 with fcsOk := false }) (gDev 1)).get (shp .glk) GLK.ERR_CNT_FCS = 1 ∧
    ((after (.userRx 0 (gh fUSER) [7]) (gDev 1)).node 1).user = [7] := by decide

theorem witness_GroupFramesAndTime_sync : sentD.glk.req.getD 0 none = some 100 ∧
    dupG.linkUp 0 = true ∧ (after (.delayReqSend 0 100) dupG).glk.out = [] ∧
    (gDev 1).portFull (Dev.relayFrame 0 (gh 9) (some (.reportReq 1)) 0 []) = false ∧ fullG.portFull (Dev.relayFrame 0 (gh 9) (some (.reportReq 1)) 0 []) = true ∧
    (after (.reportReqRx 0 (gh 9)) fullG).get (shp .glk) HDR.ERR_CODE = cGLK_QFULL ∧ knownD.activeHeard = [] ∧ (gh fBEACON).active = true ∧
    (after (.delayRespRx 0 (gh fDELAY_RESP) 0 10 130) sentD).glk.delays.getD 0 [] = [10] ∧
    (after (.delayReqRx 0 (gh fDELAY_REQ) 3 4) (gDev 1)).glk.out.map (fun f => f.nums) = [[3, 4]] ∧ (gDev 1).isManager = false ∧
    ((gDev 2).put (shp .glk) GLK.ROLE_ACTIVE 1).isManager = true ∧ ((gDev 2).put (shp .glk) GLK.ROLE_ACTIVE 1).glkActive = true ∧
    ((after (.glkBeaconSend 8) ((gDev 2).put (shp .glk) GLK.ROLE_ACTIVE 1)).glk.out.map (fun f => f.typ)) = [fBEACON, fBEACON] ∧
    knownD.delayKnown 0 = true ∧ knownD.follower = true ∧
    (after (.glkBeaconRx [⟨0, gh fBEACON, 3, 1, 0⟩] 0 8) knownD).geti (shp .glk) GLK.TSYNC_OFFSET_NS = 8 - 1 + 3 ∧
    (after .tsyncHoldover ((gDev 1).put (shp .glk) GLK.TSYNC_STATE 2)).get (shp .glk) HDR.ERR_CODE = cGLK_TSYNC_LOST ∧ duo.follower = false := by decide

theorem witness_GroupMembershipAndRoles : ((after (.glkHelloRx 0 (gh fHELLO) 0 77 1 0 0) (gDev 1)).node 1).dev = 77 ∧
    ((after (.glkHelloRx 0 (crcd { gh fHELLO with leave := true }) 0 77 1 0 0) (gDev 1)).node 1).joined = false ∧
    (after (.glkHelloRx 0 (gh fHELLO) 5 77 1 0 0) (gDev 1)).get (shp .glk) HDR.ERR_CODE = cGLK_CFG_MISMATCH ∧
    ((after .helloTick (gDev 1)).node 1).joined = true ∧ ((gDev 1).glk.queue.filter (fun f => f.port == 1)).length < 32 ∧
    ((after .helloTick (gDev 1)).glk.out.map (fun f => (f.port, f.typ))) = [(0, fHELLO), (1, fHELLO)] ∧ (after .helloTick (gDev 1)).glk.seq = 1 ∧ (gDev 1).isWorker = true ∧
    (gDev 1).shlMode (gDev 1).holder ≠ 3 ∧ (after .glkNoMgr (gDev 1)).glk.scopeNext = some (3, false) ∧ (after (.glkLinkLoss 1) (gDev 1)).linkUp 1 = false ∧
    (after (.glkLinkUp 1 true) (gDev 1)).get (shp .glk) GLK.RING_AMP = 2 ∧
    let m := (gDev 2).put (shp .glk) GLK.WORKERS_MASK 2
    m.glkOn = true ∧ m.isManager = true ∧ m.glkActive = false ∧ m.activeHeard = [] ∧ 2 * m.workersHeard > m.workersN ∧
      (after .managerActivate m).get (shp .glk) GLK.EPOCH_MGR_POS = 2 := by decide

theorem witness_GroupMembershipAndRoles_leave : let d := { gDev 1 with shadow := [⟨shp .glk, HDR.CTRL_EN, 0, 0, none, 0, 0, 0, false⟩] }
    d.shadow = [⟨shp .glk, HDR.CTRL_EN, 0, 0, none, 0, 0, 0, false⟩] ∧ d.enabled (shp .glk) = true ∧ d.on (shp .glk) HDR.CTRL_STAGE_HOLD = false ∧ d.cfgFrozen = false ∧
    (after .glkLeave d).enabled (shp .glk) = false ∧ duo.shadow = [] := by decide

/-- DIN and DOUT enabled with the outputs 0 and 1 on; an analog input and an analog output in use; the trim buttons on, point 1 selected. -/
def onOff : Dev := (((duo.put (shp .din) HDR.CTRL_EN 1).put (shp .dout) HDR.CTRL_EN 1).put (shp .dout) DOUT.CH_CFG_OW_MA 10 0 0)
def outsD : Dev := { onOff with fio := { onOff.fio with causes := 0, image := 3 :: onOff.fio.image.drop 1 } }
def anaD : Dev := ((((outsD.put (shp .ain) HDR.CTRL_EN 1).put (shp .ain) AIN.CH_CFG_EN 1 2).put (shp .aout) HDR.CTRL_EN 1).put (shp .aout) AOUT.CH_CFG_EN 1 0 0).put (shp .trm) TRM.CFG_BTN_EN 1
def trimD : Dev := after .trimSelPress anaD

theorem witness_DigitalFieldIo : outsD.enabled (shp .din) = true ∧ outsD.fio.held = false ∧
    (after (.dinDebouncedChange 31 true) outsD).get (shp .din) DIN.RISE_BITS = 0x80000000 ∧ (after (.dinDebouncedChange 31 true) duo).get (shp .din) DIN.LEVEL_BITS = 0 ∧ bitN outsD.fio.deb 31 = (false).toNat ∧
    (after (.dinDebouncedChange 31 false) outsD).get (shp .din) DIN.FALL_BITS = 0 ∧
    (let d := outsD.put (shp .din) DIN.SUP_EN 8
     (after (.dsupShort 3) d).get (shp .din) DIN.SUP_SHORT = 8 ∧ (after (.dsupRetry 3 false) (after (.dsupShort 3) d)).get (shp .din) DIN.SUP_SHORT = 0) ∧
    outsD.get (shp .trm) TRM.SEL_POINT = 0 ∧ (after .fioSilent outsD).get (shp .dout) HDR.ERR_CODE = cFIO_SILENT ∧ outsD.doOn 0 = true ∧ outsD.doOn 5 = false ∧
    outsD.on (shp .dout) DOUT.STATE_VF0_LOW = false ∧ (after (.doOverload 0) outsD).get (shp .dout) HDR.ERR_CODE = cDO_OVERLOAD ∧
    (after (.doOvertemp 5) outsD).get (shp .dout) HDR.ERR_CODE = cDO_OVERTEMP ∧ (after (.doRbLow 1) outsD).get (shp .dout) HDR.ERR_CODE = cDO_RB_LOW ∧
    (after (.doOpen 0 9) outsD).get (shp .dout) HDR.ERR_CODE = cDO_OPEN ∧ (after (.doOpen 0 10) outsD).doOn 0 = true ∧ outsD.doCmd 5 = false ∧
    (after (.doRbHigh 5) outsD).get (shp .dout) DOUT.FLT_RB_HIGH = 32 ∧
    (after (.doRbLow 5) (after (.doRbHigh 5) outsD)).get (shp .dout) DOUT.FLT_RB_HIGH = 0 := by decide

theorem witness_DigitalFieldIo_more : (after (.doRetry 0 true) (after (.doOverload 0) outsD)).doOn 0 = true ∧
    (after (.doVfield 0 17999) outsD).doOn 0 = false ∧ (after (.doVfield 0 18000) outsD).doOn 0 = true ∧ (outsD.put (shp .dout) DOUT.STATE_VF0_LOW 1).on (shp .dout) DOUT.STATE_VF0_LOW = true ∧
    (let d := after (.doOverload 0) (outsD.put (shp .dout) DOUT.CH_CFG_LATCH 1 0 0)
     d.doHeld 0 = false ∧ (after (.doClr 1) d).doOn 0 = true ∧ (after (.doClr 2) d).doOn 0 = false) := by decide

theorem witness_AnalogFieldIo : anaD.enabled (shp .ain) = true ∧ duo.enabled (shp .ain) = false ∧ anaD.on (shp .ain) AIN.CH_CFG_EN 2 = true ∧ anaD.on (shp .ain) AIN.CH_CFG_EN 3 = false ∧
    (after (.aiSample 2 8000) anaD).get (shp .ain) AIN.CH_UA_UA 2 = 4000 ∧ (after (.aiSample 3 8000) anaD).get (shp .ain) AIN.CH_ST_CLASS 3 = 3 ∧
    (let d := anaD.put (shp .ain) AIN.CH_UA_UA 28000 2
     (after (.aiShort 2) d).get (shp .ain) AIN.CH_ST_SHORT 2 = 1 ∧ (after (.aiRetry 2 27999) (after (.aiShort 2) d)).get (shp .ain) AIN.CH_ST_SHORT 2 = 0) ∧
    (after (.aoReport 0 5 6 false true) anaD).get (shp .aout) AOUT.CH_MEAS_UA 0 = 5 ∧ (after (.aoReport 0 5 6 true true) anaD).get (shp .aout) AOUT.CH_MEAS_UA 0 = 0 ∧
    (after (.aoLink 1) anaD).get (shp .aout) HDR.ERR_CODE = cAO_LINK ∧ (after (.aoTargetLoss 1) anaD).fio.lost = 2 ∧
    (after (.aoTargetLoss 1) anaD).on (shp .aout) AOUT.CH_ST_ALARM 1 = true ∧ (after (.aoTargetLoss 1) anaD).fio.stage.getD 1 0 = 21750 ∧
    (after (.aoCompliance 1) (anaD.put (shp .aout) AOUT.CH_TGT_UA 17 1)).get (shp .aout) HDR.ERR_CODE = cAO_COMPLIANCE ∧
    (after (.aoComplianceClear 1) (anaD.put (shp .aout) AOUT.CH_TGT_UA 16 1)).get (shp .aout) AOUT.CH_ST_COMPLIANCE 1 = 0 := by decide

theorem witness_AnalogFieldIo_trim : trimD.get (shp .trm) TRM.SEL_POINT = 1 ∧ anaD.fio.causes = 0 ∧ anaD.enabled (shp .aout) = true ∧ anaD.on (shp .aout) AOUT.CH_CFG_EN 0 = true ∧
    trimD.get (shp .aout) AOUT.CH_TGT_UA 0 = 4000 ∧ (after (.trmSelWrite 2) anaD).get (shp .trm) TRM.SEL_SRC = 2 ∧ (after .trimSelLong trimD).get (shp .trm) TRM.SEL_POINT = 0 ∧
    (after .trimIdle trimD).get (shp .trm) TRM.SEL_POINT = 0 ∧ (∀ e ∈ trimD.shadow, e.page ≠ shp .trm) ∧ (after (.trmSelWrite 9) anaD).get (shp .trm) HDR.ERR_CODE = cRANGE ∧
    (after (.trmSelWrite 3) anaD).get (shp .trm) HDR.ERR_CODE = cBUSY ∧ (after (.trimStep false) trimD).geti (shp .trm) TRM.AO_ZERO_U 0 = -1 ∧
    (after (.trimRepeat true) (trimD.put (shp .trm) TRM.AO_ZERO_U 2000 0 0)).geti (shp .trm) TRM.AO_ZERO_U 0 = 2000 ∧ (duo.put (shp .trm) TRM.CFG_BTN_EN 0).on (shp .trm) TRM.CFG_BTN_EN = false ∧
    (after .trimSelPress (anaD.put (shp .trm) TRM.SEL_POINT 8)).get (shp .trm) TRM.SEL_POINT = 0 ∧
    anaD.on (shp .trm) TRM.CFG_BTN_EN = true ∧ anaD.get (shp .trm) TRM.SEL_POINT = 0 ∧ (after (.trimStep true) anaD).get (shp .trm) TRM.BTN_LVL = 1 := by decide

/-- An armed alarm at tick 5 with a period of a second, a SET waiting, the always-on domain on VBAT. -/
def almD : Dev := ((duo.put64 (shp .rtc) RTC.ALM_LO RTC.ALM_HI 5).put (shp .rtc) RTC.ALM_PER_S 1).put (shp .rtc) RTC.ALM_ST_ARMED 1
def clock (n : Nat) (d : Dev) : Dev := d.put64 (shp .rtc) RTC.NOW_LO RTC.NOW_HI n
def pendD : Dev := { duo with rtc := { duo.rtc with pend := some (7, true, 3, 1) } }
def onBat (d : Dev) : Dev := { d with rtc := { d.rtc with onVbat := true } }

theorem witness_ClockAndAlarms : (after (.alarmFire 0) (clock 5 almD)).get (shp .rtc) RTC.ALM_LO = 65541 ∧ (after (.alarmFire 0) (clock 4 almD)).get (shp .rtc) RTC.ALM_ST_FIRED 0 = 0 ∧
    (after (.alarmFire 0) (clock 6 (almD.put (shp .rtc) RTC.ALM_PER_S 0))).get (shp .rtc) RTC.ALM_ST_SKIPPED 0 = 1 ∧ duo.supplied = false ∧ (after .vbatSwitchover duo).rtc.onVbat = true ∧
    (after .tick duo).now = 1 ∧ duo.rtc.pend = none ∧ duo.shadow = [] ∧ (duo.now + 1) % 65536 ≠ 0 ∧ pendD.rtc.pend = some (7, true, 3, 1) ∧ 7 / 65536 = pendD.now / 65536 ∧
    (after .tick pendD).now = 7 ∧ (st outDev).out = true ∧ State.reset.out = false ∧ State.reset.dev.rtc.onVbat = false ∧ (after (.rtcSet 1 true 9 false) duo).rtc.pend.isSome = true ∧
    duo.disciplined = false ∧ (after (.rtcSet 1 true 9 false) (duo.put (shp .glk) GLK.TSYNC_STATE 1)).get (shp .rtc) HDR.ERR_CODE = cRTC_DISCIPLINED ∧
    (after .rtcSetCancel pendD).rtc.pend = none ∧ (after .rtcCapture (clock 9 duo)).get (shp .rtc) RTC.CAP_LO = 9 ∧ (after .calSync duo).rtc.calSync = true := by decide

theorem witness_ClockAndAlarms_supply : (after .rtcOscStop duo).get (shp .rtc) HDR.ERR_CODE = cRTC_OSC_STOP ∧ bitN ((after .rtcOscResume (after .rtcOscStop duo)).get (shp .rtc) RTC.STATUS_BITS) 2 = 0 ∧
    (onBat duo).rtc.onVbat = true ∧ bitN ((after (.chargerLimit 2950) (duo.put (shp .rtc) RTC.CHG_EN 1)).get (shp .rtc) RTC.STATUS_BITS) 4 = 1 ∧
    bitN ((after (.chargerLimit 3000) (duo.put (shp .rtc) RTC.CHG_EN 1)).get (shp .rtc) RTC.STATUS_BITS) 4 = 0 ∧
    (after (.vbatMeasure 2299) (duo.put (shp .rtc) RTC.STATUS_BITS 0)).get (shp .rtc) HDR.ERR_CODE = cRTC_BAT_LOW ∧
    bitN ((after (.vbatMeasure 2401) duo).get (shp .rtc) RTC.STATUS_BITS) 3 = 0 ∧
    (after (.chargerLimit 3000) duo).rtc.full = true ∧ (after (.chargerLimit 2951) (after (.chargerLimit 3000) duo)).rtc.full = true ∧
    (after (.chargerLimit 2950) (after (.chargerLimit 3000) duo)).rtc.full = false := by decide

/-! ### Witnesses: Silt and the enclave -/

/-- A USER record being copied for group 0, one record queued, episodes of losses, a page of the ring, a cursor, an export, a verification, a nonce and a token. -/
def rec0 (cls : Nat) : Rec := ⟨0, 0, 4, cls, 1, 0, 0, 1, 0, 0, [1, 2, 3, 4]⟩
def withS (f : Silt → Silt) : Dev := { duo with silt := f duo.silt }
def copyD (cls : Nat) : Dev := withS (fun s => { s with copying := s.copying.set 0 (some (rec0 cls)) })
def queD : Dev := withS (fun s => { s with qProt := [rec0 5], qUn := [rec0 0xA] })
def lossD : Dev := withS (fun s => { s with lossUn := some ⟨2, 0, 0⟩ })
def postD : Dev := after (.sltPostGo 1 true 0 4 7 9) duo

theorem witness_SiltTakesAndWrites : (st duo).out = true ∧ duo.shaped = true ∧ postD.get (shp .slt) SLT.POST_ST_STATE 0 (Who.sltGrp cA) = 1 ∧ duo.holds .a = true ∧
    cB.half? = some HalfId.b ∧ duo.holds .b = false ∧ (after (.sltPostGo 9 true 0 4 7 9) duo).get (shp .slt) SLT.POST_ST_STATE 0 (Who.sltGrp cB) = 4 ∧
    duo.silt.copying.getD (Who.sltGrp cA) none = none ∧ (copyD 0xA).silt.copying.getD 0 none = some (rec0 0xA) ∧ (copyD 0xA).siltTakes (rec0 0xA) = true ∧
    protectedCls 0xA = false ∧ protectedCls 5 = true ∧ (copyD 5).siltTakes (rec0 5) = true ∧ (after (.sltPostCopyDone 0) (copyD 0xA)).silt.qUn = [rec0 0xA] ∧
    (after (.sltPostCopyDone 0) (copyD 5)).silt.qProt = [rec0 5] ∧ duo.silt.qProt = [] ∧ duo.silt.qUn = [] ∧ queD.silt.qProt = [rec0 5] ∧ queD.ringTakes 5 = true ∧
    (after .siltWrite queD).silt.nextSeq = 1 ∧ (after .siltWrite (after .siltWrite queD)).silt.qUn = [] ∧
    (let h := (queD.put (shp .slt) SLT.CFG_FULL_MODE 1).put (shp .slt) SLT.PAGES_TOTAL 1
     h.ringTakes 5 = false ∧ (after .siltWrite h).get (shp .slt) SLT.LOST_PROT = 1 ∧ (after .siltWrite h).silt.lossProt.isSome = true ∧
      (after .siltWrite h).silt.lossUn = h.silt.lossUn) ∧
    lossD.silt.lossUn = some ⟨2, 0, 0⟩ ∧ (4096 - lossD.silt.used) - 512 ≥ 1024 ∧ lossD.silt.usedBytes + 48 ≤ 262144 ∧ lossD.on (shp .slt) SLT.CFG_FULL_MODE = false ∧
    (after (.siltLossEnd false) lossD).silt.lossUn = none ∧ (after .sltCapture (withS (fun s => { s with anchor := 5 }))).get (shp .slt) SLT.ANCHOR 0 = 5 := by decide

def wroteD : Dev := after .siltWrite (after .siltWrite queD)
def onFirst : Dev := after (.sltCurOldest 2) wroteD
def page0 (e : Bool) : SiltPage := ⟨3, 0, 0, 0xFFFF, 0, 0, List.replicate 4032 1, 9, e⟩
def expD : Dev := ({ duo with silt := { duo.silt with pages := [page0 false], exps := duo.silt.exps.set 0 (some (0x1000, 3, 1)) } } : Dev).put (shp .slt) SLT.EXP_ST_STATE 1
def vfyD (n : Nat) : Dev := withS (fun s => { s with pages := [page0 true], vfy := some (3, n) })
/-- A clearing under way; the ring nearly full in STOP mode. -/
def clrD : Dev := duo.put (shp .slt) SLT.STATE_CODE 1
def clrFull : Dev := ((duo.put (shp .slt) SLT.CFG_FULL_MODE 1).put (shp .slt) SLT.PAGES_TOTAL 64).put (shp .slt) SLT.STATE_CODE 1
def tokD : Dev := withS (fun s => { s with token := some (0, 0, 5, 1), nonce := some 7 })

theorem witness_SiltReadsAndClears : (wroteD.entries.find? (fun e => !e.ecc)).isSome = true ∧ onFirst.get (shp .slt) SLT.CUR_ST_STATE 0 2 = 1 ∧
    (onFirst.silt.cursors.getD 2 ⟨none, []⟩).seq = some 0 ∧ wroteD.entries.findIdx? (fun e => e.seq == 0) = some 0 ∧
    (after (.sltCurNext 2) onFirst).get (shp .slt) SLT.RD_H 2 2 = 1 ∧ (after (.sltCurPrev 2) onFirst).get (shp .slt) SLT.CUR_ST_STATE 0 2 = 0 ∧
    (after (.sltCurSeq 2 1) wroteD).get (shp .slt) SLT.CUR_ST_STATE 0 2 = 1 ∧ (after (.sltCurNewest 1) duo).get (shp .slt) SLT.CUR_ST_STATE 0 1 = 0 ∧
    (after (.sltCurNext 2) { duo with silt := { duo.silt with cursors := onFirst.silt.cursors } }).get (shp .slt) HDR.ERR_CODE = cSLT_GONE ∧
    (after (.sltRdDataRead 2) onFirst).resp.words = [0x04030201] ∧ (after (.sltRdDataRead 2) onFirst).get (shp .slt) SLT.RD_POFS_OFS 0 2 = 4 ∧
    duo.silt.exps.getD 0 none = none ∧ (after (.sltExport 0 0x1000 3 1) duo).silt.exps.getD 0 none = some (0x1000, 3, 1) ∧ duo.silt.vfy = none ∧
    (after (.sltVerify 3 2) duo).silt.vfy = some (3, 2) ∧ (vfyD 1).silt.vfy = some (3, 1) ∧ (after .sltVerifyDone (vfyD 1)).get (shp .slt) SLT.VFY_BAD_LO = 3 ∧
    (after .sltVerifyDone (vfyD 0)).get (shp .slt) SLT.VFY_ST_STATE = 2 ∧ (after .sltNonce duo).silt.nonce.isSome = true ∧ (after .sltNonceLapse tokD).silt.nonce = none ∧
    tokD.get (shp .slt) SLT.STATE_CODE ≠ 1 ∧ tokD.silt.token = some (0, 0, 5, 1) ∧ tokD.silt.nonce.isSome = true ∧ (after (.sltClear 0 true false 0) tokD).get (shp .slt) SLT.CLR_ST_STATE = 1 ∧
    (after (.sltClear 0 true false 1) tokD).get (shp .slt) SLT.CLR_ST_REASON = cSLT_NONCE ∧ (after (.sltClear 0 true false 0) duo).get (shp .slt) SLT.CLR_ST_REASON = cSIGNATURE ∧
    (after .sltClearDone (after (.sltClear 0 true false 0) tokD)).get (shp .slt) SLT.CLR_ST_STATE = 2 := by decide

theorem witness_SiltReadsAndClears_clearing : clrD.get (shp .slt) SLT.STATE_CODE = 1 ∧
    clrD.siltTakes ⟨clrD.now, 0, 0, clsSecurity, cSLT_CLEARING, srcOf (shp .slt), shp .slt % 256, 1, clrD.privByte ⟨1, true⟩, 0, []⟩ = true ∧
    (after (.sltClear 0 true false 1) clrD).get (shp .slt) HDR.ERR_CODE = cSLT_CLEARING ∧ (after (.sltClear 0 true false 1) clrD).silt.qProt.length = 1 ∧
    clrFull.on (shp .slt) SLT.CFG_FULL_MODE = true ∧ clrFull.siltFree ≤ 64 := by decide

theorem witness_SiltReadsAndClears_export : expD.silt.exps.getD 0 none = some (0x1000, 3, 1) ∧ expD.get (shp .slt) SLT.EXP_ST_STATE = 1 ∧
    (expD.silt.pages.find? (fun x => x.pseq == 3 + 0)) = some (page0 false) ∧ (page0 false).ecc = false ∧ (page0 false).bytes.length = 4096 := by decide

/-- The bytes of an AUTH token for an engineer on the device 1, in the port of group 0, with its nonce live and its key in the store. -/
def wordsIn (d : Dev) (g : Nat) (ws : List (Nat × Nat)) : Dev := ws.foldl (fun d x => d.put (shp .enc) ENC.TOK_DATA_WORD x.2 0 (g * 1024 + x.1)) d
def encD : Dev := { duo with keys := [⟨0, 5, 2⟩], encl := { duo.encl with nonce := duo.encl.nonce.set 0 (some 7) } }
def authD : Dev := wordsIn encD 0 [(0, 0x544F4B31), (1, 0x02010001), (2, 1), (4, 7), (10, 5), (32, 100)]
def jobD (j : EncJob) : Dev := { encD with encl := { encD.encl with job := some j } }
def engD : Dev := encD.put (shp .enc) ENC.AUTH_ROLE 2 0 0

theorem witness_EnclaveOperations : duo.shaped = true ∧ (st duo).out = true ∧ duo.encl.job = none ∧ (after (.tamper 2) encD).keys = [] ∧ (after (.tamper 2) encD).saf.deviceSafe = true ∧
    (jobD (.attest 1 [])).encl.job = some (.attest 1 []) ∧ (after (.encNonce 1) (jobD (.attest 1 []))).get (shp .enc) ENC.CMD_ST_REASON 0 (Who.encGrp cA) = cBUSY ∧
    ((after (.encNonce 0x12) duo).encl.nonce.getD 1 none).isSome = true ∧
    (after (.encNonce 0x12) { duo with encl := { duo.encl with withheld := [false, true, false] } }).get (shp .enc) ENC.CMD_ST_REASON 0 1 = cENC_RATE ∧
    (after (.encClose 1) engD).get (shp .enc) ENC.AUTH_ROLE 0 0 = 0 ∧ (after (.encAttest 0x12) duo).get (shp .enc) ENC.CMD_ST_STATE 0 1 = 1 ∧
    Dev.tokKind (duo.tokenOf 0) ≠ 1 ∧
    engD.engineer ⟨1, true⟩ = true ∧ duo.engineer ⟨0x12, false⟩ = false ∧ (after (.encInstall 0x12 false) duo).get (shp .enc) ENC.CMD_ST_REASON 0 1 = cPRIV ∧
    (after .encAttestDone (jobD (.attest 1 [1, 2]))).encl.job = none ∧ (after (.encRepDataRead 1) duo).get (shp .enc) ENC.REP_ADDR_WORD 0 1 = 1 ∧
    (after (.encTokDataWrite 1 9) (duo.put (shp .enc) ENC.TOK_ADDR_WORD 863 0 1)).get (shp .enc) ENC.TOK_ADDR_WORD 0 1 = 0 ∧ duo.get (shp .enc) ENC.AUTH_ROLE 0 2 = 0 ∧
    (after (.authExpiry 0) engD).get (shp .enc) ENC.AUTH_ROLE 0 0 = 0 ∧ (after (.encNonceLapse 0) encD).encl.nonce.getD 0 none = none ∧
    (after (.encRateEnd 1) { duo with encl := { duo.encl with withheld := [false, true, false] } }).encl.withheld.getD 1 false = false := by decide

/-- A token is refused with its first failing check, and accepted where the signature verifies. -/
theorem witness_EnclaveOperations_token (h : Dev.tokSigned (authD.tokenOf 0) = true) :
    Dev.tokKind (authD.tokenOf 0) = 1 ∧ authD.tokWhy 0 (authD.tokenOf 0) = none ∧ duo.tokWhy 0 (duo.tokenOf 0) = some cENC_TOKEN := by
  refine ⟨by decide, ?_, by decide⟩
  unfold Dev.tokWhy
  rw [h]
  decide

/-- An INSTALL under way of the image `hdrM` names, and one that is checked now. -/
def instD : Dev := { jobD (.install 0 0x10000000 0) with mram := [] }
theorem witness_EnclaveOperations_install : instD.encl.job = some (.install 0 0x10000000 0) ∧ instD.memWf = true ∧
    0x1000 + ((imgHdr instD.mram 0x10000000).map (fun h => h.len)).getD 0 ≤ 0x10000000 ∧ engD.get (shp .bot) BOT.PHASE_CODE ≠ 7 ∧
    (after (.encInstall 1 true) engD).get (shp .enc) ENC.CMD_ST_REASON 0 0 = cRANGE ∧
    (after (.encAcceptVersion 1 true) (engD.put (shp .enc) ENC.MIN_VER_V 3)).get (shp .enc) ENC.MIN_VER_V = 3 := by decide

/-! ### Witnesses: the host link, power and reset -/

/-- The host link strapped on, its window at the user partition; boot data awaited; an authorisation of the host. -/
def hostD : Dev := { (duo.put (shp .bot) BOT.STRAP_RAW 0x40).put (shp .hst) HST.STATUS_WR_FREE 64 with boot := { duo.boot with released := true } }
def winD : Dev := { hostD.put (shp .hst) HST.WIN_BASE_BASE 0x1A40 with mram := [(0x1A4000000, 7), (0x1A4000005, 8)] }
def reqB : Dev := hostD.put (shp .hst) HST.STATUS_BOOT_REQ 1
def sessD : Dev := (hostD.put (shp .enc) ENC.AUTH_ROLE 2 0 1).put (shp .hst) HST.STATUS_SESSION 1

theorem witness_HostLink : (st hostD).out = true ∧ hostD.shaped = true ∧ hostD.hostOn = true ∧ duo.hostOn = false ∧ (after (.hstRead 2 0 none) hostD).get (shp .hst) HDR.ERR_CODE = cHST_PROTO ∧
    (after .hstStatus hostD).get (shp .hst) HST.XFER_COUNT = 1 ∧ (after .hstReset sessD).get (shp .enc) ENC.AUTH_ROLE 0 1 = 0 ∧ (0 : BitVec 32).toNat % 4 = 0 ∧
    (after (.hstWrite 0 (List.replicate 65 0)) hostD).get (shp .hst) HST.STATUS_FULL = 1 ∧ (after (.hstRead 0 3 (some 0)) hostD).resp = ⟨[], true, cTIMEOUT⟩ ∧
    (after (.hstCsAbort true false 0 3 0 [5]) hostD).resp = ⟨[], false, 0⟩ ∧ reqB.get (shp .hst) HST.BOOT_OFS_BYTES = 0 ∧
    (after (.hstBootData 0 [5]) reqB).get (shp .hst) HST.BOOT_OFS_BYTES = 4 ∧ (after (.hstBootData 4 [5]) reqB).get (shp .hst) HDR.ERR_CODE = cHST_BOOT_ORDER ∧
    (let l := reqB.put (shp .hst) HST.BOOT_OFS_BYTES 0x5FC
     let b : Dev := { l with boot := { l.boot with hostImg := List.replicate 0x5FC 0xFF } }
     (after (.hstBootData 0x5FC [5]) b).get (shp .hst) HDR.ERR_CODE = cRANGE) ∧
    (after .hstBootIdle reqB).get (shp .hst) HDR.ERR_CODE = cHST_BOOT_IDLE ∧ hostD.get (shp .enc) ENC.AUTH_ROLE 0 1 = 0 ∧ (after .hstSessionIdle sessD).get (shp .hst) HST.STATUS_SESSION = 0 := by
  decide

theorem witness_HostLink_access :
    (after (.clearingRead ⟨0x12, false⟩ ⟨ad (pgMpg .a 0) 8, 4, false⟩) hostD.hstCount).resp.busErr = false ∧
    (after (.registerWrite ⟨0x12, false⟩ (ad (pgMpg .a 0) HDR.OWNER_MID.off) 4 5) hostD.hstCount).resp.code = cPRIV ∧
    (after (.hstWrite (BitVec.ofNat 32 (pageBase (pgMpg .a 0) + HDR.OWNER_MID.off)) [5]) hostD).get (shp .hst) HST.STATUS_WR_CODE = cPRIV := by decide

theorem witness_HostLink_window : let off := winD.get (shp .hst) HST.WIN_BASE_BASE * 0x100000 + ((0x20000000 : BitVec 32).toNat - 0x20000000)
    0x24000000 ≤ off ∧ winD.userBase ≤ off ∧ off + 8 ≤ Dev.mramEnd ∧ winD.mbad = [] ∧ winD.get (shp .hst) HST.STATUS_WR_FREE = 64 ∧
    (after (.hstRead 0x20000000 1 none) winD).resp = ⟨[7, 0x0800], false, 0⟩ ∧ (after (.hstReadFix 0x20000000 1 none) winD).resp = ⟨[7, 7], false, 0⟩ ∧
    (after (.hstCsAbort false false 0x20000000 1 1 []) winD).resp = ⟨[7], false, 0⟩ ∧
    (after (.hstWrite 0x20000000 [1, 2]) winD).mram = [(0x1A4000000, 1), (0x1A4000004, 2)] ∧ (after (.hstWriteFix 0x20000000 [1, 2]) winD).mram = [(0x1A4000000, 2), (0x1A4000005, 8)] ∧
    (after (.hstCsAbort true false 0x20000000 1 1 [1]) winD).mram = [(0x1A4000000, 1), (0x1A4000005, 8)] := by decide

/-- Input A shown, power good and in reset; the hold-up sequence runs; half A off with its input shown. -/
def okA : Dev := duo.put (shp .pwr) PWR.IN_A_OK 1
def inRst : Dev := { okA with boot := { okA.boot with good := true, released := false, nreset := true } }
/-- Both supplies absent with the power good: the part out of reset, and in it. -/
def pfwD : Dev := { duo with boot := { duo.boot with good := true } }
def pfwRst : Dev := { duo with boot := { duo.boot with good := true, released := false, nreset := true } }
def holdD : Dev := { duo with boot := { duo.boot with good := true, holdup := true } }

theorem witness_PowerResetAndBoot : (after (.inputOk .a 19000) duo).on (shp .pwr) PWR.IN_A_OK = true ∧ (after (.inputOk .a 18999) duo).on (shp .pwr) PWR.IN_A_OK = false ∧
    okA.on (shp .pwr) (Dev.vinOk .a) = true ∧ (after (.inputLost .a 17999) { okA with boot := { okA.boot with released := false } }).get (shp .pwr) PWR.IN_A_OK = 0 ∧
    (after (.inputLost .a 18000) okA).get (shp .pwr) PWR.IN_A_OK = 1 ∧ (after (.inputOvervoltage .b 32001) duo).get (shp .pwr) HDR.ERR_CODE = cPWR_OVERVOLT ∧
    okA.supplied = true ∧ (after .powerGood { okA with boot := { okA.boot with good := false } }).boot.good = true ∧ (st inRst).out = false ∧ inRst.boot.good = true ∧
    (after (.strapChange 5) duo).get (shp .bot) BOT.STRAP_LIVE = 5 ∧
    (after (.pwrInLow .a 19999) okA).get (shp .pwr) HDR.ERR_CODE = cPWR_IN_LOW ∧ okA.boot.vinEp.length = 2 ∧
    (after (.pwrTemp 2000) duo).get (shp .pwr) HDR.ERR_CODE = cPWR_TEMP ∧ holdD.boot.holdup = true ∧ (after (.powerFailWarn false) { duo with boot := { duo.boot with good := true } }).get (shp .pwr) HDR.ERR_CODE = cPWR_FAIL_WARN ∧ (st (after .nresetAssert duo)).out = false ∧
    pfwD.supplied = false ∧ pfwD.boot.good = true ∧ pfwD.boot.holdup = false ∧ (st pfwD).out = true ∧ (st pfwRst).out = false ∧ pfwRst.supplied = false ∧
    (after (.powerFailWarn false) pfwRst).boot.holdup = true ∧ inRst.boot.holdup = false ∧
    (st (after (.powerFailWarn true) holdD)).out = false ∧ (after (.halfResetRelease .a) ((okA.put (ctl .hlf .a) HLF.STATE_OWN 4))).hlfState .a = 5 ∧ duo.hlfState .a ≠ 4 ∧
    duo.weir.strobed = false ∧ (∀ h ∈ [HalfId.a, .b], duo.hlfState h ≠ 5) ∧ repB.weir.strobed = true := by decide

theorem witness_HeldInReset : State.reset.out = false := by decide

theorem witness_StepKeepsSound : State.reset.dev.sound = true ∧ ∃ t, step ({ st duo with pending := [.tick] } : State) = .next t := by
  exact ⟨by decide, _, rfl⟩

end Sys2Proof.Tests
end

section
/-! PROOFS. The MRAM window on the user area: an access there passes every check of R38, a write is stored or counted by R39, a read returns the
content. -/
namespace Sys2Proof.Machine

open Sys2Proof

namespace Dev

/-! ### Shared operations -/

theorem get_bump_same (d : Dev) (p : Nat) (f : Fld) (i t : Nat) (hw : f.w ≤ 32) :
    (d.bump p f i t).get p f i t = satU f.w (d.get p f i t + 1) % 2 ^ f.w :=
  get_put_same d p f _ i t hw

theorem keeps_bump (d : Dev) (p : Nat) (f : Fld) (i t : Nat) (ps : List Nat) (hf : Inside f i t) (hp : p ∈ ps) :
    d.keeps (d.bump p f i t) ps :=
  keeps_put d p f _ i t ps hf hp

theorem keeps_ans (d : Dev) (ws : List Word) (ps : List Nat) : d.keeps (d.ans ws) ps := keeps_of_eq rfl rfl ps

theorem get_ans (d : Dev) (ws : List Word) (p : Nat) (f : Fld) (i t : Nat) : (d.ans ws).get p f i t = d.get p f i t := get_congr rfl p f i t

/-! ### The user area (R36, R38) -/

/-- The user area lies above the configuration and Silt partitions, whatever the size of the latter. -/
theorem siltBase_le_userBase (d : Dev) : 0x24000000 ≤ d.userBase := Nat.le_add_right _ _

theorem mramOk_of_user {d : Dev} {x : Nat} (mach wr : Bool) (hlo : d.userBase ≤ x) (hhi : x < mramEnd) : d.mramOk mach wr x = true := by
  have hx : ¬ x < 0x24000000 := Nat.not_lt.2 (d.siltBase_le_userBase.trans hlo)
  simp [mramOk, hx, hlo, hhi]

theorem mramOk_all_of_user {d : Dev} {off len : Nat} (mach wr : Bool) (hlo : d.userBase ≤ off) (hhi : off + len ≤ mramEnd) :
    (List.range len).all (fun i => d.mramOk mach wr (off + i)) = true := by
  rw [List.all_eq_true]
  intro i hi
  have hlen : i < len := List.mem_range.1 hi
  exact mramOk_of_user mach wr (by omega) (by omega)

/-! ### An access of the window to the user area (R39) -/

/-- The part once the MRAM controller took the bytes of a write: an uncorrectable error in a word that was written whole is gone (R35). -/
def mramStored (d : Dev) (off : Nat) (bs : List Byte) : Dev :=
  { d with mram := memWrites d.mram off bs, mbad := d.mbad.filter (fun b => !coversWord off bs.length b) }

section
variable {d : Dev} {w : Who} {a off : Nat} (hoff : off = d.winBase w * 0x100000 + (a - 0x20000000)) (hlo : d.userBase ≤ off)
include hoff hlo

theorem mramAccess_write_holder {bs : List Byte} (n : Nat) (hhi : off + bs.length ≤ mramEnd) (hh : ∀ h, w.half? = some h → d.holds h = true) :
    d.mramAccess w a (some bs) n = (d.mramStored off bs).ans [] := by
  have hok := mramOk_all_of_user (d.privileged w) true hlo hhi
  cases hw : w.half? with
  | none => simp [mramAccess, ← hoff, Nat.not_lt.2 hhi, hok, hw, mramStored]
  | some h => simp [mramAccess, ← hoff, Nat.not_lt.2 hhi, hok, hw, hh h hw, mramStored]

theorem mramAccess_write_standby {bs : List Byte} {h : HalfId} (n : Nat) (hhi : off + bs.length ≤ mramEnd) (hw : w.half? = some h)
    (hh : d.holds h = false) : d.mramAccess w a (some bs) n = (d.bump (shp .nvm) NVM.STBY_DROP_COUNT).ans [] := by
  have hok := mramOk_all_of_user (d.privileged w) true hlo hhi
  simp [mramAccess, ← hoff, Nat.not_lt.2 hhi, hok, hw, hh]

theorem mramAccess_read {n : Nat} (hhi : off + n ≤ mramEnd) (hbad : d.mbad = []) :
    d.mramAccess w a none n = d.ans (packWords ((n + 3) / 4) ((memReads d.mram off n).map BitVec.toNat)) := by
  have hok := mramOk_all_of_user (d.privileged w) false hlo hhi
  simp [mramAccess, ← hoff, Nat.not_lt.2 hhi, hok, hbad]

end

end Dev

/-- Where a master that issues accesses finds the window, the command is the access. -/
theorem exec_mramWindowAccess_of_place {s : State} {w : Who} {addr : BitVec 32} (wr : Option (List (BitVec 8))) (n : BitVec 4) (hout : s.out = true)
    (hi : s.dev.issues w = true) (hp : s.dev.place w addr.toNat = .mram) :
    exec (.mramWindowAccess w addr wr n) s = .next { s with dev := s.dev.mramAccess w addr.toNat wr n.toNat } := by
  have hact : (s.dev.issues w && s.dev.place w addr.toNat == .mram) = true := by rw [hi, hp]; rfl
  have hrun := onDev_out (fun d => if d.issues w && d.place w addr.toNat == .mram then d.mramAccess w addr.toNat wr n.toNat else d) hout
  rwa [if_pos hact] at hrun

/-- Settles O12: inside the user area the checks of R38 pass, so that only the lease decides whether a write is stored or counted. -/
theorem mramUserWrite : Obligations.MramUserWrite := by
  unfold Obligations.MramUserWrite
  intro s w addr bs n hout hi hp off hlo
  have hexec := fun wr => exec_mramWindowAccess_of_place wr n hout hi hp
  refine ⟨fun _ hhi => ⟨fun hh => ?stored, fun h hw hh => ?dropped⟩, fun _ hhi hbad => ?read⟩
  case stored =>
    refine ⟨_, hexec _, rfl, ?_⟩
    rw [State.dev_mk, Dev.mramAccess_write_holder rfl hlo _ hhi hh]
    exact ⟨memReads_memWrites s.dev.mram off bs, fun a ha => memRead_memWrites_outside s.dev.mram off a bs ha, rfl, rfl, rfl, rfl⟩
  case dropped =>
    refine ⟨_, hexec _, rfl, ?_⟩
    rw [State.dev_mk, Dev.mramAccess_write_standby rfl hlo _ hhi hw hh]
    refine ⟨rfl, rfl, rfl, ?_, ?_⟩
    · rw [Dev.get_ans]
      exact Dev.get_bump_same s.dev (shp .nvm) NVM.STBY_DROP_COUNT 0 0 (by decide)
    · exact Dev.keeps_trans (Dev.keeps_bump s.dev (shp .nvm) NVM.STBY_DROP_COUNT 0 0 _ (by decide) (by simp)) (Dev.keeps_ans _ [] _)
  case read =>
    refine ⟨_, hexec _, rfl, ?_⟩
    rw [State.dev_mk, Dev.mramAccess_read rfl hlo hhi hbad]
    exact ⟨rfl, rfl, rfl⟩

end Sys2Proof.Machine
end
section
/-! PROOFS. Accesses of pages that are refused or odd: what every register operation leaves in the answer of the part, the accesses that end
without a bus error (O7), and a state in which a read of a PV register answers its value (O6). -/
namespace Sys2Proof.Machine

open Sys2Proof

namespace Dev

/-! ### The answer of the part

No operation behind a register touches the answer: only the interconnect and the ports that a read advances write it. One lemma per
operation says so. -/

/-- What the last access left to be seen. Irreducible, so that a proof goes by the lemmas and never compares whole parts. -/
@[irreducible] def answer (d : Dev) : Resp := d.resp

theorem answer_eq (d : Dev) : d.answer = d.resp := by rw [answer]
theorem answer_of_resp {d e : Dev} (h : e.resp = d.resp) : e.answer = d.answer := by rw [answer_eq, answer_eq, h]

/-! #### Shapes of an operation -/

@[simp] theorem answer_ite (c : Prop) [Decidable c] (a b : Dev) : (if c then a else b).answer = if c then a.answer else b.answer :=
  apply_ite answer c a b

@[simp] theorem answer_foldl {α : Type} {f : Dev → α → Dev} (hf : ∀ d x, (f d x).answer = d.answer) (l : List α) (d : Dev) :
    (l.foldl f d).answer = d.answer := by
  induction l generalizing d with
  | nil => rfl
  | cons x xs ih => exact (ih _).trans (hf d x)

@[simp] theorem answer_foldl_snd {α β : Type} {f : β × Dev → α → β × Dev} (hf : ∀ q x, (f q x).2.answer = q.2.answer) (l : List α)
    (q : β × Dev) : (l.foldl f q).2.answer = q.2.answer := by
  induction l generalizing q with
  | nil => rfl
  | cons x xs ih => exact (ih _).trans (hf q x)

@[simp] theorem answer_both (d : Dev) (f : Dev → HalfId → Dev) (hf : ∀ d h, (f d h).answer = d.answer) : (d.both f).answer = d.answer := by
  rw [both, hf, hf]

@[simp] theorem answer_shadow (d : Dev) (x) : ({ d with shadow := x } : Dev).answer = d.answer := answer_of_resp rfl
@[simp] theorem answer_fio (d : Dev) (x) : ({ d with fio := x } : Dev).answer = d.answer := answer_of_resp rfl
@[simp] theorem answer_lane (d : Dev) (x) : ({ d with lane := x } : Dev).answer = d.answer := answer_of_resp rfl
@[simp] theorem answer_stpPins (d : Dev) (x) : ({ d with stpPins := x } : Dev).answer = d.answer := answer_of_resp rfl
@[simp] theorem answer_boot (d : Dev) (x) : ({ d with boot := x } : Dev).answer = d.answer := answer_of_resp rfl
@[simp] theorem answer_keys (d : Dev) (x) : ({ d with keys := x } : Dev).answer = d.answer := answer_of_resp rfl

/-! #### Registers, halves, records -/

@[simp] theorem answer_put (d : Dev) (p f v i t) : (d.put p f v i t).answer = d.answer := answer_of_resp rfl
@[simp] theorem answer_post (d : Dev) (r) : (d.post r).answer = d.answer := answer_of_resp (post_resp d r)
@[simp] theorem answer_setHalf (d : Dev) (h x) : (d.setHalf h x).answer = d.answer := answer_of_resp (setHalf_resp d h x)
@[simp] theorem answer_modHalf (d : Dev) (h f) : (d.modHalf h f).answer = d.answer := answer_of_resp (modHalf_resp d h f)
@[simp] theorem answer_fresh (d : Dev) : d.fresh.2.answer = d.answer := answer_of_resp rfl
@[simp] theorem answer_nextImm (d : Dev) (p) : (d.nextImm p).2.answer = d.answer := answer_of_resp rfl
@[simp] theorem answer_wrapUp (d : Dev) (p f i t) : (d.wrapUp p f i t).answer = d.answer := by simp [wrapUp]
@[simp] theorem answer_puti (d : Dev) (p f x i t) : (d.puti p f x i t).answer = d.answer := by simp [puti]
@[simp] theorem answer_putb (d : Dev) (p f b i t) : (d.putb p f b i t).answer = d.answer := by simp [putb]
@[simp] theorem answer_bump (d : Dev) (p f i t) : (d.bump p f i t).answer = d.answer := by simp [bump]
@[simp] theorem answer_orBits (d : Dev) (p f m i t) : (d.orBits p f m i t).answer = d.answer := by simp [orBits]
@[simp] theorem answer_putBit (d : Dev) (p f k b i t) : (d.putBit p f k b i t).answer = d.answer := by simp [putBit]
@[simp] theorem answer_put64 (d : Dev) (p lo hi v i t) : (d.put64 p lo hi v i t).answer = d.answer := by simp [put64]
@[simp] theorem answer_stat (d : Dev) (p k) : (d.stat p k).answer = d.answer := by simp [stat]
@[simp] theorem answer_err (d : Dev) (p code detail) : (d.err p code detail).answer = d.answer := by simp [err]
@[simp] theorem answer_modHlf (d : Dev) (h f) : (d.modHlf h f).answer = d.answer := by cases h <;> exact answer_of_resp rfl
@[simp] theorem answer_note (d : Dev) (p cls code detail words) : (d.note p cls code detail words).answer = d.answer := by simp [note]
@[simp] theorem answer_noteBy (d : Dev) (w p cls code detail words) : (d.noteBy w p cls code detail words).answer = d.answer := by simp [noteBy]
@[simp] theorem answer_refuse (d : Dev) (w p reason addr value kind) : (d.refuse w p reason addr value kind).answer = d.answer := by simp [refuse]
@[simp] theorem answer_fault (d : Dev) (p code detail words) : (d.fault p code detail words).answer = d.answer := by simp [fault]
@[simp] theorem answer_showRes (d : Dev) (p r state reason tag) : (d.showRes p r state reason tag).answer = d.answer := by simp [showRes]

/-! #### Staging and events -/

@[simp] theorem answer_goWrite (d : Dev) (p r waiting c stops over_ busy shows) :
    (d.goWrite p r waiting c stops over_ busy shows).1.answer = d.answer := by
  unfold goWrite
  split
  · simp
  · split <;> simp

@[simp] theorem answer_stage (d : Dev) (w p half f i t v) : (d.stage w p half f i t v).answer = d.answer := by simp [stage]
@[simp] theorem answer_noteConfig (d : Dev) (e code reason old new seq bnd) :
    (d.noteConfig e code reason old new seq bnd).answer = d.answer := by simp [noteConfig]
@[simp] theorem answer_markEvent (d : Dev) (p half seq) : (d.markEvent p half seq).answer = d.answer := by cases half <;> simp [markEvent]

@[simp] theorem answer_applyPage (d : Dev) (p half rules bnd seq) : (d.applyPage p half rules bnd seq).answer = d.answer := by
  unfold applyPage
  dsimp only
  refine iteInduction (motive := fun e : Dev => e.answer = d.answer) (fun _ => by simp) fun _ =>
    iteInduction (motive := fun e : Dev => e.answer = d.answer) (fun _ => by simp) fun _ => ?_
  generalize List.foldl _ none _ = rejected
  cases rejected <;> simp only [answer_put, answer_ite, ite_self, answer_noteConfig, answer_foldl, implies_true, answer_shadow, answer_markEvent]

/-! #### Position -/

@[simp] theorem answer_modPosCar (d : Dev) (h n f) : (d.modPosCar h n f).answer = d.answer := by simp [modPosCar]
@[simp] theorem answer_modCopy (d : Dev) (h n f) : (d.modCopy h n f).answer = d.answer := answer_of_resp rfl
@[simp] theorem answer_initCar (d : Dev) (h n) : (d.initCar h n).answer = d.answer := by simp [initCar]
@[simp] theorem answer_setPosState (d : Dev) (h n s) : (d.setPosState h n s).answer = d.answer := by simp [setPosState]
@[simp] theorem answer_lrnEnd (d : Dev) (h res) : (d.lrnEnd h res).answer = d.answer := by simp [lrnEnd]
@[simp] theorem answer_lrnStart (d : Dev) (h n src) : (d.lrnStart h n src).answer = d.answer := by simp [lrnStart]
@[simp] theorem answer_posReval (d : Dev) (h n) : (d.posReval h n).answer = d.answer := by simp [posReval]
@[simp] theorem answer_latchArm (d : Dev) (h m) : (d.latchArm h m).answer = d.answer := by simp [latchArm]

/-! #### Lanes -/

@[simp] theorem answer_sepGo (d : Dev) (h op) : (d.sepGo h op).answer = d.answer := by simp [sepGo]

/-! #### Motion -/

@[simp] theorem answer_modMpg (d : Dev) (h n f) : (d.modMpg h n f).answer = d.answer := by simp [modMpg]
@[simp] theorem answer_mpgGo (d : Dev) (h n op) : (d.mpgGo h n op).answer = d.answer := by simp [mpgGo]

/-! #### Steppers -/

@[simp] theorem answer_modDax (d : Dev) (h k f) : (d.modDax h k f).answer = d.answer := by simp [modDax]
@[simp] theorem answer_stpShow (d : Dev) : d.stpShow.answer = d.answer := by simp [stpShow]
@[simp] theorem answer_stpSafe (d : Dev) : d.stpSafe.answer = d.answer := by simp [stpSafe]

/-! #### Doors -/

@[simp] theorem answer_daxGo (d : Dev) (h k op) : (d.daxGo h k op).answer = d.answer := by simp [daxGo]

/-! #### Memory words -/

@[simp] theorem answer_heal (d : Dev) (h rs) : (d.heal h rs).answer = d.answer := by simp [heal]

/-! #### The safety blocks -/

@[simp] theorem answer_modSaf (d : Dev) (f) : (d.modSaf f).answer = d.answer := answer_of_resp rfl
@[simp] theorem answer_modSp (d : Dev) (n f) : (d.modSp n f).answer = d.answer := by simp [modSp]
@[simp] theorem answer_modTh (d : Dev) (n f) : (d.modTh n f).answer = d.answer := by simp [modTh]
@[simp] theorem answer_safNote (d : Dev) (p code detail words) : (d.safNote p code detail words).answer = d.answer := by simp [safNote]
@[simp] theorem answer_outUpdate (d : Dev) : d.outUpdate.answer = d.answer := by simp [outUpdate]
@[simp] theorem answer_carOff (d : Dev) (n) : (d.carOff n).answer = d.answer := by simp [carOff]
@[simp] theorem answer_endRescue (d : Dev) (n) : (d.endRescue n).answer = d.answer := by simp [endRescue]
@[simp] theorem answer_thTrip (d : Dev) (n cause words) : (d.thTrip n cause words).answer = d.answer := by simp [thTrip]

/-! #### The safety pair -/

@[simp] theorem answer_stopLine (d : Dev) (n cat) : (d.stopLine n cat).answer = d.answer := by simp [stopLine]
@[simp] theorem answer_spStop (d : Dev) (n cause cat words) : (d.spStop n cause cat words).answer = d.answer := by simp [spStop]
@[simp] theorem answer_pairPermit (d : Dev) (n) : (d.pairPermit n).answer = d.answer := by simp [pairPermit]
@[simp] theorem answer_permits (d : Dev) : d.permits.answer = d.answer := by simp [permits]
@[simp] theorem answer_showDeg (d : Dev) (n) : (d.showDeg n).answer = d.answer := by simp [showDeg]
@[simp] theorem answer_showSio (d : Dev) (b) : (d.showSio b).answer = d.answer := by simp [showSio]
@[simp] theorem answer_thIdle (d : Dev) : d.thIdle.answer = d.answer := by simp [thIdle]
@[simp] theorem answer_leaveRun (d : Dev) (code) : (d.leaveRun code).answer = d.answer := by simp [leaveRun]
@[simp] theorem answer_showBlock (d : Dev) (b) : (d.showBlock b).answer = d.answer := by simp [showBlock]
@[simp] theorem answer_sealEnd (d : Dev) : d.sealEnd.answer = d.answer := by simp [sealEnd]

/-! #### Safety requests, the seal and the parameter block -/

@[simp] theorem answer_dropBrake (d : Dev) (n) : (d.dropBrake n).answer = d.answer := by simp [dropBrake]
@[simp] theorem answer_clearCar (d : Dev) (n) : (d.clearCar n).answer = d.answer := by simp [clearCar]
@[simp] theorem answer_clearFlt (d : Dev) (p) : (d.clearFlt p).answer = d.answer := by simp [clearFlt]
@[simp] theorem answer_resetDo (d : Dev) (cars) : (d.resetDo cars).answer = d.answer := by simp [resetDo]
@[simp] theorem answer_rescueDo (d : Dev) (n) : (d.rescueDo n).answer = d.answer := by simp [rescueDo]
@[simp] theorem answer_degEnd (d : Dev) (n) : (d.degEnd n).answer = d.answer := by simp [degEnd]
@[simp] theorem answer_degDo (d : Dev) (n w) : (d.degDo n w).answer = d.answer := by simp [degDo]
@[simp] theorem answer_smbReply (d : Dev) (why d0 d1) : (d.smbReply why d0 d1).answer = d.answer := by simp [smbReply]
@[simp] theorem answer_smbRefuse (d : Dev) (why n) : (d.smbRefuse why n).answer = d.answer := by simp [smbRefuse]
@[simp] theorem answer_testStart (d : Dev) (k ms tag) : (d.testStart k ms tag).answer = d.answer := by simp [testStart]

@[simp] theorem answer_smbGo (d : Dev) : d.smbGo.answer = d.answer := by
  unfold smbGo
  dsimp only
  split
  · simp
  · split
    · simp
    · split
      · simp
      · split
        · simp
        · split
          · simp
          · split <;> simp
      · split
        · simp
        · split <;> simp
      · split
        · simp
        · split
          · simp
          · split <;> simp
      · simp
      · simp

@[simp] theorem answer_readSeal (d : Dev) : d.readSeal.answer = d.answer := by simp [readSeal]
@[simp] theorem answer_lastRefusal (d : Dev) (why detail) : (d.lastRefusal why detail).answer = d.answer := by simp [lastRefusal]
@[simp] theorem answer_spbStatus (d : Dev) (st reason detail) : (d.spbStatus st reason detail).answer = d.answer := by simp [spbStatus]
@[simp] theorem answer_setCandidate (d : Dev) (b) : (d.setCandidate b).answer = d.answer := by simp [setCandidate]
@[simp] theorem answer_spbData (d : Dev) (v) : (d.spbData v).answer = d.answer := by simp [spbData]

@[simp] theorem answer_spbSeal (d : Dev) (g) : (d.spbSeal g).answer = d.answer := by
  unfold spbSeal
  dsimp only
  split
  · simp
  · split
    · simp
    · split
      · simp
      · split <;> simp

@[simp] theorem answer_spbCmd (d : Dev) (op g) : (d.spbCmd op g).answer = d.answer := by
  unfold spbCmd
  dsimp only
  split
  · simp
  · split <;> simp

/-! #### Field outputs -/

@[simp] theorem answer_aoDrive (d : Dev) (c) : (d.aoDrive c).answer = d.answer := by simp [aoDrive]
@[simp] theorem answer_fioDrive (d : Dev) : d.fioDrive.answer = d.answer := by simp [fioDrive]
@[simp] theorem answer_trimEnd (d : Dev) : d.trimEnd.answer = d.answer := by simp [trimEnd]
@[simp] theorem answer_applyTrm (d : Dev) (half) : (d.applyTrm half).answer = d.answer := by simp [applyTrm]
@[simp] theorem answer_trimRelease (d : Dev) : d.trimRelease.answer = d.answer := by simp [trimRelease]
@[simp] theorem answer_fioSafe (d : Dev) (c) : (d.fioSafe c).answer = d.answer := by simp [fioSafe]
@[simp] theorem answer_doClear (d : Dev) (n) : (d.doClear n).answer = d.answer := answer_of_resp rfl
@[simp] theorem answer_doClr (d : Dev) (bits) : (d.doClr bits).answer = d.answer := by simp [doClr]
@[simp] theorem answer_trimSelect (d : Dev) (pt src) : (d.trimSelect pt src).answer = d.answer := by simp [trimSelect]
@[simp] theorem answer_trimWrite (d : Dev) (pt) : (d.trimWrite pt).answer = d.answer := by simp [trimWrite]

/-! #### CAN -/

@[simp] theorem answer_modCan (d : Dev) (c f) : (d.modCan c f).answer = d.answer := answer_of_resp rfl
@[simp] theorem answer_canEnd (d : Dev) (c b result lec why) : (d.canEnd c b result lec why).answer = d.answer := by simp [canEnd]
@[simp] theorem answer_canDrop (d : Dev) (c why) : (d.canDrop c why).answer = d.answer := by simp [canDrop]

@[simp] theorem answer_canPut (d : Dev) (c b) : (d.canPut c b).answer = d.answer := by
  unfold canPut
  dsimp only
  split <;> simp

@[simp] theorem answer_canReq (d : Dev) (c b) : (d.canReq c b).answer = d.answer := by simp [canReq]
@[simp] theorem answer_canState (d : Dev) (c st) : (d.canState c st).answer = d.answer := by simp [canState]
@[simp] theorem answer_canAck (d : Dev) (c n) : (d.canAck c n).answer = d.answer := by simp [canAck]
@[simp] theorem answer_canCancel (d : Dev) (c b) : (d.canCancel c b).answer = d.answer := by simp [canCancel]
@[simp] theorem answer_canRejoin (d : Dev) (c) : (d.canRejoin c).answer = d.answer := by simp [canRejoin]
@[simp] theorem answer_canReqs (d : Dev) (c q bits) : (d.canReqs c q bits).answer = d.answer := by simp [canReqs]
@[simp] theorem answer_canCancels (d : Dev) (c q bits) : (d.canCancels c q bits).answer = d.answer := by simp [canCancels]

/-! #### The clock -/

@[simp] theorem answer_modRtc (d : Dev) (f) : (d.modRtc f).answer = d.answer := answer_of_resp rfl
@[simp] theorem answer_rtcStatus (d : Dev) (k b) : (d.rtcStatus k b).answer = d.answer := by simp [rtcStatus]
@[simp] theorem answer_rtcSet (d : Dev) (w sync) : (d.rtcSet w sync).answer = d.answer := by simp [rtcSet]

@[simp] theorem answer_rtcCancel (d : Dev) : d.rtcCancel.answer = d.answer := by
  unfold rtcCancel
  split
  · split <;> simp
  · rfl

@[simp] theorem answer_rtcSetPair (d : Dev) (v) : (d.rtcSetPair v).answer = d.answer := by simp [rtcSetPair]
@[simp] theorem answer_rtcCapture (d : Dev) : d.rtcCapture.answer = d.answer := by simp [rtcCapture]
@[simp] theorem answer_chgShow (d : Dev) : d.chgShow.answer = d.answer := by simp [chgShow]
@[simp] theorem answer_chgSet (d : Dev) (lim) : (d.chgSet lim).answer = d.answer := by simp [chgSet]

/-! #### Dispatch -/

@[simp] theorem answer_modShl (d : Dev) (h f) : (d.modShl h f).answer = d.answer := by simp [modShl]
@[simp] theorem answer_setSeq (d : Dev) (h c s) : (d.setSeq h c s).answer = d.answer := by simp [setSeq]
@[simp] theorem answer_setCall (d : Dev) (h k c) : (d.setCall h k c).answer = d.answer := by simp [setCall]
@[simp] theorem answer_evalTime (d : Dev) (h) : (d.evalTime h).answer = d.answer := by simp [evalTime]
@[simp] theorem answer_addRes (d : Dev) (h r) : (d.addRes h r).answer = d.answer := by simp [addRes]

@[simp] theorem answer_callDone (d : Dev) (h k) : (d.callDone h k).answer = d.answer := by
  unfold callDone
  split <;> simp

@[simp] theorem answer_boardHere (d : Dev) (h c floor count access) : (d.boardHere h c floor count access).answer = d.answer := by simp [boardHere]
@[simp] theorem answer_decide (d : Dev) (h k cl event b) : (d.decide_ h k cl event b).answer = d.answer := by simp [decide_]
@[simp] theorem answer_rejectCall (d : Dev) (h k cl why) : (d.rejectCall h k cl why).answer = d.answer := by simp [rejectCall]
@[simp] theorem answer_rejectEntry (d : Dev) (h slot car tag why) :
    (d.rejectEntry h slot car tag why).answer = d.answer := by cases slot <;> simp [rejectEntry]

@[simp] theorem answer_evaluate (d : Dev) (h k cl event cars) : (d.evaluate h k cl event cars).answer = d.answer := by
  unfold evaluate
  dsimp only
  split <;> simp

@[simp] theorem answer_removeStops (d : Dev) (h k cl) : (d.removeStops h k cl).answer = d.answer := by simp [removeStops]

@[simp] theorem answer_shlNew (d : Dev) (h w0 w1 tag) : (d.shlNew h w0 w1 tag).answer = d.answer := by
  unfold shlNew
  dsimp only
  split
  · simp
  · simp only [answer_ite, answer_rejectCall, answer_modShl, answer_setCall, answer_evaluate, ite_self]

@[simp] theorem answer_shlCancel (d : Dev) (h slot tag) : (d.shlCancel h slot tag).answer = d.answer := by
  unfold shlCancel
  split
  · split <;> simp
  · simp

@[simp] theorem answer_shlArrive (d : Dev) (h car floor tag) : (d.shlArrive h car floor tag).answer = d.answer := by
  unfold shlArrive
  split
  · simp
  · split
    · simp
    · split
      · simp
      · rw [answer_foldl fun d k => answer_callDone d h k, answer_foldl]
        · simp
        · intro d k
          split
          · split <;> simp
          · rfl

@[simp] theorem answer_shlEntry (d : Dev) (h w0 w1 w2 w3) : (d.shlEntry h w0 w1 w2 w3).answer = d.answer := by simp [shlEntry]
@[simp] theorem answer_skipEntry (d : Dev) (h) : (d.skipEntry h).answer = d.answer := by simp [skipEntry]

@[simp] theorem answer_takeRing (d : Dev) (h m) : (d.takeRing h m).answer = d.answer := by
  induction m generalizing d with
  | zero => rfl
  | succ m ih => simp [takeRing, ih]

@[simp] theorem answer_subHeadWrite (d : Dev) (h v) : (d.subHeadWrite h v).answer = d.answer := by simp [subHeadWrite]
@[simp] theorem answer_resTailWrite (d : Dev) (h v) : (d.resTailWrite h v).answer = d.answer := by simp [resTailWrite]

/-! #### The cycle executive -/

@[simp] theorem answer_modCyx (d : Dev) (h f) : (d.modCyx h f).answer = d.answer := by simp [modCyx]
@[simp] theorem answer_setSram (d : Dev) (h m) : (d.setSram h m).answer = d.answer := by simp [setSram]
@[simp] theorem answer_frcClrAll (d : Dev) (h w) : (d.frcClrAll h w).answer = d.answer := by simp [frcClrAll]
@[simp] theorem answer_cyxDone (d : Dev) (h c) : (d.cyxDone h c).answer = d.answer := by simp [cyxDone]
@[simp] theorem answer_fillSram (d : Dev) (h a n bs) : (d.fillSram h a n bs).answer = d.answer := by simp [fillSram]

@[simp] theorem answer_rxLand (d : Dev) (h) : (d.rxLand h).answer = d.answer := by
  unfold rxLand
  split <;> simp

@[simp] theorem answer_showBacklog (d : Dev) (h) : (d.showBacklog h).answer = d.answer := by simp [showBacklog]
@[simp] theorem answer_sendState (d : Dev) (h st) : (d.sendState h st).answer = d.answer := by simp [sendState]
@[simp] theorem answer_cyxHalt (d : Dev) (h code) : (d.cyxHalt h code).answer = d.answer := by simp [cyxHalt]
@[simp] theorem answer_laneTable (d : Dev) (h) : (d.laneTable h).answer = d.answer := by simp [laneTable]
@[simp] theorem answer_showImage (d : Dev) (h) : (d.showImage h).answer = d.answer := by simp [showImage]

@[simp] theorem answer_startHalf (d : Dev) (h cold) : (d.startHalf h cold).answer = d.answer := by
  unfold startHalf
  dsimp only
  split <;> simp

@[simp] theorem answer_cyxStart (d : Dev) (h cold) : (d.cyxStart h cold).answer = d.answer := by simp [cyxStart]
@[simp] theorem answer_cyxStop (d : Dev) (h) : (d.cyxStop h).answer = d.answer := by simp [cyxStop]

@[simp] theorem answer_afterPublish (d : Dev) (h) : (d.afterPublish h).answer = d.answer := by
  unfold afterPublish
  dsimp only
  split
  · simp
  · split <;> simp

@[simp] theorem answer_setOlc (d : Dev) (h st reason) : (d.setOlc h st reason).answer = d.answer := by simp [setOlc]
@[simp] theorem answer_setIdle (d : Dev) (h i) : (d.setIdle h i).answer = d.answer := by simp [setIdle]
@[simp] theorem answer_showOlc (d : Dev) (h st reason) : (d.showOlc h st reason).answer = d.answer := by simp [showOlc]
@[simp] theorem answer_olcFail (d : Dev) (h why detail) : (d.olcFail h why detail).answer = d.answer := by simp [olcFail]

@[simp] theorem answer_olcLoad (d : Dev) (h) : (d.olcLoad h).answer = d.answer := by
  unfold olcLoad
  dsimp only
  split
  · rfl
  · split
    · simp
    · split
      · simp
      · split
        · simp
        · split <;> simp

@[simp] theorem answer_endSwitch (d : Dev) (h) : (d.endSwitch h).answer = d.answer := by
  unfold endSwitch
  dsimp only
  split <;> simp

@[simp] theorem answer_olcSwitch (d : Dev) (h) : (d.olcSwitch h).answer = d.answer := by simp [olcSwitch]
@[simp] theorem answer_olcCancel (d : Dev) (h) : (d.olcCancel h).answer = d.answer := by simp [olcCancel]

@[simp] theorem answer_tmcFind (d : Dev) (h id) : (d.tmcFind h id).answer = d.answer := by
  unfold tmcFind
  dsimp only
  split <;> simp

/-! #### Loop tables -/

@[simp] theorem answer_leAdvance (d : Dev) (p) : (d.leAdvance p).answer = d.answer := by simp [leAdvance]
@[simp] theorem answer_tblWrite (d : Dev) (h e v) : (d.tblWrite h e v).answer = d.answer := by simp [tblWrite]
@[simp] theorem answer_tblRead (d : Dev) (h e) : (d.tblRead h e).answer = d.answer := by simp [tblRead]

/-! #### Configuration -/

@[simp] theorem answer_modStore (d : Dev) (f) : (d.modStore f).answer = d.answer := answer_of_resp rfl
@[simp] theorem answer_cfgShow (d : Dev) : d.cfgShow.answer = d.answer := by simp [cfgShow]
@[simp] theorem answer_cfgRefuse (d : Dev) (why) : (d.cfgRefuse why).answer = d.answer := by simp [cfgRefuse]
@[simp] theorem answer_cfgNote (d : Dev) (w op before) : (d.cfgNote w op before).answer = d.answer := by simp [cfgNote]
@[simp] theorem answer_cfgSave (d : Dev) (w) : (d.cfgSave w).answer = d.answer := by simp [cfgSave]

@[simp] theorem answer_cfgRevert (d : Dev) (w) : (d.cfgRevert w).answer = d.answer := by
  unfold cfgRevert
  dsimp only
  split <;> simp

@[simp] theorem answer_cfgFactory (d : Dev) (w) : (d.cfgFactory w).answer = d.answer := by simp [cfgFactory]

@[simp] theorem answer_cfgCmd (d : Dev) (w op) : (d.cfgCmd w op).answer = d.answer := by
  unfold cfgCmd
  split <;> simp

/-! #### The recorder -/

@[simp] theorem answer_modSilt (d : Dev) (f) : (d.modSilt f).answer = d.answer := answer_of_resp rfl
@[simp] theorem answer_siltLevel (d : Dev) : d.siltLevel.answer = d.answer := by simp [siltLevel]
@[simp] theorem answer_sltRing (d : Dev) : d.sltRing.answer = d.answer := by simp [sltRing]
@[simp] theorem answer_siltSeal (d : Dev) (flags) : (d.siltSeal flags).answer = d.answer := by simp [siltSeal]
@[simp] theorem answer_sltPostGo (d : Dev) (w) : (d.sltPostGo w).answer = d.answer := by simp [sltPostGo]
@[simp] theorem answer_sltShow (d : Dev) (g e) : (d.sltShow g e).answer = d.answer := by simp [sltShow]

@[simp] theorem answer_sltFound (d : Dev) (g e) : (d.sltFound g e).answer = d.answer := by
  unfold sltFound
  split <;> simp

@[simp] theorem answer_sltStep (d : Dev) (g es) : (d.sltStep g es).answer = d.answer := by
  unfold sltStep
  split
  · simp
  · split <;> simp

@[simp] theorem answer_sltCapture (d : Dev) : d.sltCapture.answer = d.answer := by simp [sltCapture]
@[simp] theorem answer_sltExport (d : Dev) (g addr pseq n) : (d.sltExport g addr pseq n).answer = d.answer := by simp [sltExport]
@[simp] theorem answer_sltVerify (d : Dev) (pseq n) : (d.sltVerify pseq n).answer = d.answer := by simp [sltVerify]
@[simp] theorem answer_sltShowNonce (d : Dev) : d.sltShowNonce.answer = d.answer := by simp [sltShowNonce]
@[simp] theorem answer_sltNonce (d : Dev) : d.sltNonce.answer = d.answer := by simp [sltNonce]
@[simp] theorem answer_sltNonceEnd (d : Dev) : d.sltNonceEnd.answer = d.answer := by simp [sltNonceEnd]
@[simp] theorem answer_siltErase (d : Dev) (all bound key serial mid priv) :
    (d.siltErase all bound key serial mid priv).answer = d.answer := by simp [siltErase]

@[simp] theorem answer_sltClear (d : Dev) (w) : (d.sltClear w).answer = d.answer := by
  unfold sltClear
  dsimp only
  split
  · simp
  · split
    · simp
    · split <;> simp

/-! #### The halves -/

@[simp] theorem answer_hlfTo (d : Dev) (h st cause) : (d.hlfTo h st cause).answer = d.answer := by simp [hlfTo]
@[simp] theorem answer_showLease (d : Dev) : d.showLease.answer = d.answer := by simp [showLease]
@[simp] theorem answer_mirDown (d : Dev) : d.mirDown.answer = d.answer := by simp [mirDown]
@[simp] theorem answer_frcGone (d : Dev) (hs) : (d.frcGone hs).answer = d.answer := by simp [frcGone]

@[simp] theorem answer_halfReset (d : Dev) (h) : (d.halfReset h).answer = d.answer := by
  rw [halfReset, answer_modHlf, answer_put, answer_setHalf, answer_eq]
  dsimp only
  rw [← answer_eq, answer_frcGone, answer_mirDown]

@[simp] theorem answer_hlfOff (d : Dev) (h st cause) : (d.hlfOff h st cause).answer = d.answer := by simp [hlfOff]
@[simp] theorem answer_scopeInit (d : Dev) (h) : (d.scopeInit h).answer = d.answer := by simp [scopeInit]
@[simp] theorem answer_repairEnter (d : Dev) (h cause) : (d.repairEnter h cause).answer = d.answer := by simp [repairEnter]
@[simp] theorem answer_swapShow (d : Dev) (st why) : (d.swapShow st why).answer = d.answer := by simp [swapShow]
@[simp] theorem answer_swap (d : Dev) (h) : (d.swap h).answer = d.answer := by simp [swap]
@[simp] theorem answer_swapCancel (d : Dev) (h) : (d.swapCancel h).answer = d.answer := by simp [swapCancel]
@[simp] theorem answer_peerRefuse (d : Dev) (h) : (d.peerRefuse h).answer = d.answer := by simp [peerRefuse]
@[simp] theorem answer_resetPeer (d : Dev) (h) : (d.resetPeer h).answer = d.answer := by simp [resetPeer]
@[simp] theorem answer_holdPeer (d : Dev) (h) : (d.holdPeer h).answer = d.answer := by simp [holdPeer]
@[simp] theorem answer_releasePeer (d : Dev) (h) : (d.releasePeer h).answer = d.answer := by simp [releasePeer]

@[simp] theorem answer_hlfCmd (d : Dev) (h op) : (d.hlfCmd h op).answer = d.answer := by
  unfold hlfCmd
  split <;> simp

@[simp] theorem answer_peerCmd (d : Dev) (h op) : (d.peerCmd h op).answer = d.answer := by
  unfold peerCmd
  split <;> simp

/-! #### The enclave -/

@[simp] theorem answer_modEnc (d : Dev) (f) : (d.modEnc f).answer = d.answer := answer_of_resp rfl
@[simp] theorem answer_put128 (d : Dev) (f g v) : (d.put128 f g v).answer = d.answer := by simp [put128]

@[simp] theorem answer_encEnd (d : Dev) (g why) : (d.encEnd g why).answer = d.answer := by
  unfold encEnd
  dsimp only
  split <;> simp

@[simp] theorem answer_encPriv (d : Dev) (w op) : (d.encPriv w op).answer = d.answer := by simp [encPriv]

@[simp] theorem answer_encOne (d : Dev) (w) (f : Dev → Dev) (hf : ∀ d, (f d).answer = d.answer) : (d.encOne w f).answer = d.answer := by
  unfold encOne
  split
  · exact hf d
  · simp

@[simp] theorem answer_fresh128 (d : Dev) : d.fresh128.2.answer = d.answer := by simp [fresh128]

@[simp] theorem answer_setNonce (d : Dev) (g n) : (d.setNonce g n).answer = d.answer := by simp [setNonce]
@[simp] theorem answer_encNonce (d : Dev) (w) : (d.encNonce w).answer = d.answer := by simp [encNonce]
@[simp] theorem answer_encNote (d : Dev) (w code detail words) : (d.encNote w code detail words).answer = d.answer := by simp [encNote]
@[simp] theorem answer_authClose (d : Dev) (g) : (d.authClose g).answer = d.answer := by simp [authClose]
@[simp] theorem answer_authCloseAll (d : Dev) : d.authCloseAll.answer = d.answer := by simp [authCloseAll]
@[simp] theorem answer_authOpen (d : Dev) (w role secs key) : (d.authOpen w role secs key).answer = d.answer := by simp [authOpen]
@[simp] theorem answer_showSlots (d : Dev) : d.showSlots.answer = d.answer := by simp [showSlots]
@[simp] theorem answer_showKeys (d : Dev) : d.showKeys.answer = d.answer := by simp [showKeys]
@[simp] theorem answer_zeroise (d : Dev) : d.zeroise.answer = d.answer := by simp [zeroise]
@[simp] theorem answer_lifeTo (d : Dev) (st) : (d.lifeTo st).answer = d.answer := by simp [lifeTo]
@[simp] theorem answer_tokenDrop (d : Dev) (g) : (d.tokenDrop g).answer = d.answer := by simp [tokenDrop]

@[simp] theorem answer_tokDo (d : Dev) (w t) : (d.tokDo w t).answer = d.answer := by
  unfold tokDo
  split <;> simp

@[simp] theorem answer_encPresent (d : Dev) (w) : (d.encPresent w).answer = d.answer := by
  unfold encPresent
  refine answer_encOne _ _ _ fun d => ?_
  dsimp only
  split <;> simp

@[simp] theorem answer_putReport (d : Dev) (g ws) : (d.putReport g ws).answer = d.answer := by simp [putReport]
@[simp] theorem answer_encBusy (d : Dev) (g j) : (d.encBusy g j).answer = d.answer := by simp [encBusy]
@[simp] theorem answer_encAttest (d : Dev) (w) : (d.encAttest w).answer = d.answer := by simp [encAttest]
@[simp] theorem answer_encCert (d : Dev) (w) : (d.encCert w).answer = d.answer := by simp [encCert]
@[simp] theorem answer_tokWrite (d : Dev) (g v) : (d.tokWrite g v).answer = d.answer := by simp [tokWrite]
@[simp] theorem answer_slotMark (d : Dev) (s bad) : (d.slotMark s bad).answer = d.answer := by simp [slotMark]

@[simp] theorem answer_encInstall (d : Dev) (w) : (d.encInstall w).answer = d.answer := by
  unfold encInstall
  dsimp only
  split
  · simp
  · refine answer_encOne _ _ _ fun d => ?_
    split
    · simp
    · split
      · simp
      · split <;> simp

@[simp] theorem answer_acceptVersion (d : Dev) (w) : (d.acceptVersion w).answer = d.answer := by simp [acceptVersion]
@[simp] theorem answer_encClose (d : Dev) (w) : (d.encClose w).answer = d.answer := by simp [encClose]

@[simp] theorem answer_encCmd (d : Dev) (w op) : (d.encCmd w op).answer = d.answer := by
  unfold encCmd
  split <;> simp

/-! #### Boot -/

@[simp] theorem answer_modBoot (d : Dev) (f) : (d.modBoot f).answer = d.answer := answer_of_resp rfl

/-! #### Registers that act and registers formed at a read -/

@[simp] theorem answer_txbWrite (d : Dev) (p c f i v) : (d.txbWrite p c f i v).answer = d.answer := by simp [txbWrite]
@[simp] theorem answer_lrnWrite (d : Dev) (h run data) : (d.lrnWrite h run data).answer = d.answer := by simp [lrnWrite]

@[simp] theorem answer_curCmd (d : Dev) (g op) : (d.curCmd g op).answer = d.answer := by
  unfold curCmd
  split <;> simp

/-! ### What the registers whose writes act leave in the answer -/

/-- Every outcome of an optional action shows the answer that stood before it. -/
def ActKeeps (d : Dev) (act : Option Dev) : Prop := ∀ e ∈ act, e.answer = d.answer

theorem actKeeps_none (d : Dev) : d.ActKeeps none := by simp [ActKeeps]
theorem actKeeps_some {d e : Dev} (h : e.answer = d.answer) : d.ActKeeps (some e) := by simpa [ActKeeps] using h
theorem actKeeps_ite {d e : Dev} {c : Prop} [Decidable c] {o : Option Dev} (he : e.answer = d.answer) (ho : d.ActKeeps o) :
    d.ActKeeps (if c then some e else o) := iteInduction (fun _ => actKeeps_some he) fun _ => ho

theorem actKeeps_ctlAct (d : Dev) (w : Who) (p : Nat) (b : Blk) (h : HalfId) (n : Nat) (f : Fld) (i v data : Nat) :
    d.ActKeeps (d.ctlAct w p b h n f i v data) := by
  have hnone := actKeeps_none d
  unfold ctlAct
  split
  · refine actKeeps_ite ?_ (actKeeps_ite (answer_foldl (fun d c => ?_) _ d) (actKeeps_ite ?_ hnone))
    · split <;> simp
    · simp
    · split <;> simp
  · exact actKeeps_ite (answer_tmcFind d h v) hnone
  · exact actKeeps_ite (by simp) hnone
  · exact actKeeps_ite (answer_mpgGo d h n v) hnone
  · exact actKeeps_ite (answer_sepGo d h v) hnone
  · exact actKeeps_ite (answer_tblWrite d h n v) hnone
  · exact actKeeps_ite (answer_daxGo d h n v) hnone
  · exact actKeeps_ite (by simp) (actKeeps_ite (by simp) (actKeeps_ite (answer_lrnWrite d h v data) hnone))
  · exact actKeeps_ite (answer_subHeadWrite d h v) (actKeeps_ite (answer_resTailWrite d h v) hnone)
  · exact actKeeps_ite (answer_hlfCmd d h v) (actKeeps_ite (answer_peerCmd d h v) hnone)
  · exact hnone

theorem actKeeps_sltAct (d : Dev) (w : Who) (f : Fld) (v : Nat) : d.ActKeeps (d.sltAct w f v) := by
  have go {e : Dev} (he : e.answer = d.answer) : (if v = 1 then e else d).answer = d.answer := by simp [he]
  unfold sltAct
  dsimp only
  exact actKeeps_ite (go (answer_sltCapture d)) <| actKeeps_ite (go (answer_sltPostGo d w)) <| actKeeps_ite (answer_curCmd d _ v) <|
    actKeeps_ite (go (answer_sltExport d _ _ _ _)) <| actKeeps_ite (go (answer_sltVerify d _ _)) <| actKeeps_ite (go (answer_sltNonce d)) <|
    actKeeps_ite (go (answer_sltClear d w)) <| actKeeps_ite rfl (actKeeps_none d)

theorem actKeeps_shpAct (d : Dev) (w : Who) (p : Nat) (b : Blk) (n : Nat) (f : Fld) (i v data : Nat) :
    d.ActKeeps (d.shpAct w p b n f i v data) := by
  have hnone := actKeeps_none d
  unfold shpAct
  split
  · exact actKeeps_ite (by simp) <| actKeeps_ite (answer_canAck d n v) <| actKeeps_ite (answer_canReqs d n i v) <|
      actKeeps_ite (answer_canCancels d n i v) <| actKeeps_ite (answer_txbWrite d p n f i v) hnone
  · exact actKeeps_ite (answer_doClr d v) hnone
  · exact actKeeps_ite (answer_trimWrite d v) hnone
  · exact actKeeps_ite (by simp) hnone
  · exact actKeeps_ite (answer_spbData d v) (actKeeps_ite (answer_spbCmd d v w.encGrp) hnone)
  · exact actKeeps_ite (answer_cfgCmd d w v) hnone
  · exact actKeeps_ite (by simp) <| actKeeps_ite (by simp) <| actKeeps_ite (by simp) <| actKeeps_ite rfl <| actKeeps_ite (by simp) hnone
  · exact actKeeps_ite (by simp) hnone
  · exact actKeeps_sltAct d w f v
  · exact actKeeps_ite (answer_tokWrite d w.encGrp v) (actKeeps_ite (answer_encCmd d w v) hnone)
  · exact actKeeps_ite (by simp) hnone
  · exact hnone

/-! ### Writes that end without a bus error -/

/-- The last access ended without a bus error. -/
def noBusErr (d : Dev) : Prop := d.answer.busErr = false

theorem noBusErr_iff (d : Dev) : d.noBusErr ↔ d.resp.busErr = false := by rw [noBusErr, answer_eq]
theorem noBusErr_ans (d : Dev) (ws : List Word) : (d.ans ws).noBusErr := (noBusErr_iff _).2 rfl
theorem noBusErr_nak (d : Dev) (ws : List Word) (code : Nat) : (d.nak ws code).noBusErr := (noBusErr_iff _).2 rfl
theorem noBusErr_refuseW (d : Dev) (w : Who) (p code a v : Nat) : (d.refuseW w p code a v).noBusErr := noBusErr_nak _ [] code
theorem noBusErr_of_answer {d e : Dev} (h : e.answer = d.answer) (hd : d.noBusErr) : e.noBusErr := by rwa [noBusErr, h]

theorem noBusErr_foldl {α : Type} {f : Dev → α → Dev} (hf : ∀ d x, d.noBusErr → (f d x).noBusErr) (l : List α) {d : Dev}
    (hd : d.noBusErr) : (l.foldl f d).noBusErr := by
  induction l generalizing d with
  | nil => exact hd
  | cons x xs ih => exact ih (hf d x hd)

theorem noBusErr_getD {d : Dev} {act : Option Dev} (hact : d.ActKeeps act) (hd : d.noBusErr) : (act.getD d).noBusErr := by
  cases act with
  | none => exact hd
  | some e => exact noBusErr_of_answer (hact e rfl) hd

theorem noBusErr_fieldWrite (d : Dev) (w : Who) (p : Nat) (b : Blk) (n : Nat) (f : Fld) (i data : Nat) (hd : d.noBusErr) :
    (d.fieldWrite w p b n f i data).noBusErr := by
  have hact : d.ActKeeps (match halfOfPage p with
      | some h => d.ctlAct w p b h n f i (field data f.lo f.w) data
      | none => d.shpAct w p b n f i (field data f.lo f.w) data) := by
    split
    · exact actKeeps_ctlAct _ _ _ _ _ _ _ _ _ _
    · exact actKeeps_shpAct _ _ _ _ _ _ _ _ _
  have hkeep {e : Dev} (he : e.answer = d.answer) : e.noBusErr := noBusErr_of_answer he hd
  unfold fieldWrite
  dsimp only
  split
  case h_1 => exact hkeep (by simp)
  case h_2 =>
    split
    · exact noBusErr_nak _ _ _
    · exact hkeep (hact _ ‹_›)
    · split
      · exact noBusErr_nak _ _ _
      · exact hkeep (answer_put ..)
  case h_3 =>
    split
    · exact hkeep (by simp)
    · split
      · exact noBusErr_nak _ _ _
      · exact hkeep (hact _ ‹_›)
      · split
        · exact noBusErr_nak _ _ _
        · exact hkeep (answer_put ..)
  case h_4 => exact noBusErr_getD hact hd
  case h_5 => exact noBusErr_getD hact hd
  case h_6 => exact hd
  case h_7 => exact hd

theorem noBusErr_withResp {d : Dev} (e : Dev) (hd : d.noBusErr) : ({ e with resp := d.resp } : Dev).noBusErr :=
  (noBusErr_iff _).2 ((noBusErr_iff d).1 hd)

theorem noBusErr_wordWrite (d : Dev) (w : Who) (p : Nat) (b : Blk) (n off data : Nat) : (d.wordWrite w p b n off data).noBusErr := by
  have hfields (fs : List (Fld × Nat)) : (fs.foldl (fun d x => d.fieldWrite w p b n x.1 x.2 data) (d.ans [])).noBusErr :=
    noBusErr_foldl (fun d x => noBusErr_fieldWrite d w p b n x.1 x.2 data) fs (noBusErr_ans d [])
  unfold wordWrite
  dsimp only
  generalize List.filter _ (fieldsAt p off) = fs
  refine iteInduction (motive := noBusErr) (fun _ => noBusErr_withResp _ ?_) fun _ => ?_
  all_goals
    refine noBusErr_of_answer ?_ (hfields fs)
    simp only [answer_ite, answer_siltLevel, answer_chgSet, ite_self]
    split
    · simp
    · rfl

theorem noBusErr_abortWrite (d : Dev) (w : Who) (p : Nat) (b : Blk) (a data : Nat) : (d.abortWrite w p b a data).noBusErr := by
  unfold abortWrite
  exact iteInduction (fun _ => noBusErr_ans _ _) fun _ => iteInduction (fun _ => noBusErr_refuseW _ _ _ _ _ _) fun _ =>
    iteInduction (fun _ => noBusErr_ans _ _) fun _ => iteInduction (fun _ => noBusErr_ans _ _) fun _ =>
    iteInduction (fun _ => noBusErr_refuseW _ _ _ _ _ _) fun _ => iteInduction (fun _ => noBusErr_nak _ _ _) fun _ => noBusErr_ans _ _

/-! ### A write of a page -/

/-- A page that does not abort delays no access. -/
theorem abortWait_of_not_aborting {d : Dev} {p : Nat} (ha : d.aborting.contains p = false) : d.abortWait p = (false, d) := by
  unfold abortWait
  rw [ha]
  rfl

section
variable {d : Dev} {p : Nat} {b : Blk} {n : Nat} (hb : pageBlk p = some (b, n))
include hb

theorem pageWrite_fenced (hf : d.fenced.contains p = true) (w : Who) (off a bytes data : Nat) :
    d.pageWrite w p off a bytes data = (d.err p cFENCED).busErr [] cFENCED := by
  unfold pageWrite
  rw [hb]
  exact if_pos hf

variable (hf : d.fenced.contains p = false) (ha : d.aborting.contains p = false)
include hf ha

theorem pageWrite_odd {a bytes : Nat} (hodd : bytes ≠ 4 ∨ a % 4 ≠ 0) (w : Who) (off data : Nat) :
    d.pageWrite w p off a bytes data = (d.err p cRANGE).busErr [] cRANGE := by
  unfold pageWrite
  simp only [hb, hf, abortWait_of_not_aborting ha, Bool.false_eq_true, if_false]
  exact if_pos hodd

theorem pageWrite_empty {a off : Nat} (hal : a % 4 = 0) (hoff : off ≠ 0x20) (hfs : fieldsAt p off = []) (w : Who) (data : Nat) :
    d.pageWrite w p off a 4 data = d.ans [] := by
  unfold pageWrite
  simp only [hb, hf, abortWait_of_not_aborting ha, Bool.false_eq_true, if_false]
  simp [hal, hoff, hfs, HDR.ABORT_KEY]

/-- Past the check of the size every outcome is an answer, a refusal or the write of the word. -/
theorem noBusErr_pageWrite {a : Nat} (hal : a % 4 = 0) (w : Who) (off data : Nat) : (d.pageWrite w p off a 4 data).noBusErr := by
  have haligned : ¬ ((4 : Nat) ≠ 4 ∨ a % 4 ≠ 0) := by simp [hal]
  unfold pageWrite
  simp only [hb, hf, abortWait_of_not_aborting ha, Bool.false_eq_true, if_false]
  rw [if_neg haligned]
  exact iteInduction (fun _ => noBusErr_abortWrite _ _ _ _ _ _) fun _ => iteInduction (fun _ => noBusErr_ans _ _) fun _ =>
    iteInduction (fun _ => iteInduction (fun _ => noBusErr_refuseW _ _ _ _ _ _) fun _ => noBusErr_ans _ _) fun _ =>
    iteInduction (fun _ => noBusErr_ans _ _) fun _ => iteInduction (fun _ => noBusErr_ans _ _) fun _ =>
    iteInduction (fun _ => noBusErr_refuseW _ _ _ _ _ _) fun _ => iteInduction (fun _ => noBusErr_refuseW _ _ _ _ _ _) fun _ =>
    noBusErr_wordWrite _ _ _ _ _ _ _

end

/-! ### A read of a page -/

theorem noBusErr_portRead {d : Dev} (hd : d.noBusErr) (w : Who) (p off : Nat) : (d.portRead w p off).noBusErr := by
  have hkeep {e : Dev} (he : e.answer = d.answer) : e.noBusErr := noBusErr_of_answer he hd
  unfold portRead
  split
  · exact iteInduction (fun _ => hkeep (answer_tblRead d _ _)) fun _ => hd
  · exact iteInduction (fun _ => (noBusErr_iff _).2 rfl) fun _ => hd
  · exact iteInduction (fun _ => (noBusErr_iff _).2 rfl) fun _ => hd
  · exact iteInduction (fun _ => (noBusErr_iff _).2 rfl) fun _ => iteInduction (fun _ => hkeep (answer_put ..)) fun _ => hd
  · exact iteInduction (fun _ => hkeep (answer_put ..)) fun _ => hd
  · exact hd

/-- The register of a field of a block that is no array stands at the field's offset. -/
theorem fieldsAt_ne_nil {p n : Nat} {b : Blk} {f : Fld} (hb : pageBlk p = some (b, n)) (hf : f ∈ b.fields) (hs : f.stride = 0) (ho : 0x40 ≤ f.off) :
    fieldsAt p f.off ≠ [] := by
  have hmem : (f, 0) ∈ fieldsAt p f.off := by
    unfold fieldsAt
    rw [if_neg (Nat.not_lt.2 ho), hb]
    exact List.mem_filterMap.2 ⟨f, hf, by simp [Fld.at?, hs]⟩
  exact List.ne_nil_of_mem hmem

/-- Where no register stands no port does. -/
theorem portRead_empty {p off : Nat} (hfs : fieldsAt p off = []) (d : Dev) (w : Who) : d.portRead w p off = d := by
  have hport {b : Blk} {n : Nat} {f : Fld} (hb : pageBlk p = some (b, n)) (hf : f ∈ b.fields ∧ f.stride = 0 ∧ 0x40 ≤ f.off) : off ≠ f.off := by
    rintro rfl
    exact fieldsAt_ne_nil hb hf.1 hf.2.1 hf.2.2 hfs
  unfold portRead
  split
  case h_1 hb => exact if_neg (hport hb (by decide))
  case h_2 hb => exact if_neg (hport hb (by decide))
  case h_3 hb => exact if_neg fun h => hport hb (by decide) h.1
  case h_4 hb => exact (if_neg (hport hb (by decide))).trans (if_neg (hport hb (by decide)))
  case h_5 hb => exact if_neg fun h => hport hb (by decide) h.1
  case h_6 => rfl

theorem pageRead_fenced {d : Dev} {p : Nat} (hf : d.fenced.contains p = true) (w : Who) (off a n : Nat) (bad : Bool) :
    d.pageRead w p off a n bad = (d.err p cFENCED).busErr (zeroWords n) cFENCED := if_pos hf

theorem pageRead_odd {d : Dev} {p a n : Nat} (hf : d.fenced.contains p = false) (hodd : n ≠ 4 ∨ a % 4 ≠ 0) (w : Who) (off : Nat) (bad : Bool) :
    d.pageRead w p off a n bad = (d.err p cRANGE).busErr (zeroWords n) cRANGE := by
  unfold pageRead
  rw [hf]
  exact if_pos hodd

section
variable {d : Dev} {p a off : Nat} {w : Who} (hf : d.fenced.contains p = false) (ha : d.aborting.contains p = false) (hal : a % 4 = 0)
  (hreg : d.badRegs.contains (p, off, d.tabOf w p off) = false)
include hf ha hal hreg

/-- The answer of a read that meets no error: the word of the refreshed page, as its ports leave it. -/
theorem answer_pageRead : (d.pageRead w p off a 4).answer =
    (((d.refresh p).ans [BitVec.ofNat 32 ((d.refresh p).readWord w p off)]).portRead w p off).answer := by
  unfold pageRead
  simp only [hf, hal, hreg, abortWait_of_not_aborting ha, Bool.false_eq_true, if_false, Bool.false_and, ite_self, and_false,
    ne_eq, not_true_eq_false, or_self, answer_ite, answer_foldl, answer_put, implies_true]

theorem noBusErr_pageRead : (d.pageRead w p off a 4).noBusErr :=
  noBusErr_of_answer (answer_pageRead hf ha hal hreg) (noBusErr_portRead (noBusErr_ans _ _) w p off)

theorem answer_pageRead_empty (hfs : fieldsAt p off = []) : (d.pageRead w p off a 4).answer = ⟨[0], false, 0⟩ := by
  rw [answer_pageRead hf ha hal hreg, portRead_empty hfs, answer_eq]
  unfold readWord
  rw [hfs]
  rfl

end

end Dev

namespace Dev

/-! ### Places (R45, R47) -/

/-- An address of page index `i` of region `r` reaches the block of that page, if one holds it and the master reaches it. -/
theorem place_region (d : Dev) (w : Who) {r i off : Nat} (hr : r < 5) (hi : i < 256) (ho : off < 4096) {p : Nat}
    (hp : p = (if r = 0 then (w.half?.getD d.holder).n else r + 1) * 256 + i) :
    d.place w (0x40000000 + r * 0x4000000 + i * 0x1000 + off) =
      (pageBlk p).elim .bad (fun x => if reaches w x.1 then .page p off else .bad) := by
  have hreg : (0x40000000 + r * 0x4000000 + i * 0x1000 + off - 0x40000000) / 0x4000000 = r := by omega
  have hidx : (0x40000000 + r * 0x4000000 + i * 0x1000 + off - 0x40000000) % 0x4000000 / 0x1000 = i := by omega
  have hoff : (0x40000000 + r * 0x4000000 + i * 0x1000 + off) % 0x1000 = off := by omega
  unfold place
  rw [if_neg (by omega), if_neg (by omega), if_neg (by omega), if_pos (by omega)]
  dsimp only
  rw [hreg, hidx, hoff, ← hp, if_pos hi]
  cases pageBlk p <;> rfl

/-! ### Memories (R34, R48) -/

theorem noBusErr_sramAccess_write (d : Dev) (h : HalfId) (a : Nat) (bs : List Byte) (n : Nat) : (d.sramAccess h a (some bs) n).noBusErr := by
  unfold sramAccess
  exact iteInduction (fun _ => noBusErr_nak _ _ _) fun _ => noBusErr_ans _ _

theorem noBusErr_mramAccess_write (d : Dev) (w : Who) (a : Nat) (bs : List Byte) (n : Nat) : (d.mramAccess w a (some bs) n).noBusErr := by
  unfold mramAccess
  exact iteInduction (fun _ => noBusErr_nak _ _ _) fun _ => iteInduction (fun _ => noBusErr_nak _ _ _) fun _ =>
    iteInduction (fun _ => noBusErr_ans _ _) fun _ => noBusErr_ans _ _

theorem noBusErr_mramAccess_read {d : Dev} (hbad : d.mbad = []) (w : Who) (a n : Nat) : (d.mramAccess w a none n).noBusErr := by
  unfold mramAccess
  refine iteInduction (fun _ => noBusErr_nak _ _ _) fun _ => iteInduction (fun _ => noBusErr_nak _ _ _) fun _ => ?_
  rw [hbad]
  exact noBusErr_ans _ _

/-! ### The interconnect by place -/

section
variable {d : Dev} {w : Who} {a : Nat} (hi : d.issues w = true)
include hi

theorem busWrite_bad (hp : d.place w a = .bad) (bytes v : Nat) : d.busWrite w a bytes v = (d.refuseBad w a (v % 2 ^ 32)).busErr [] cRANGE := by
  simp [busWrite, hi, hp]

theorem busRead_bad (hp : d.place w a = .bad) (n : Nat) : d.busRead w a n = d.busErr (zeroWords n) cRANGE := by
  simp [busRead, hi, hp]

theorem busRead_page {p off : Nat} (hp : d.place w a = .page p off) (n : Nat) : d.busRead w a n = d.pageRead w p off a n := by
  simp [busRead, hi, hp]

theorem noBusErr_busWrite_memory (hp : d.place w a = .sram ∨ d.place w a = .mram) (bytes v : Nat) : (d.busWrite w a bytes v).noBusErr := by
  rcases hp with hp | hp <;> simp only [busWrite, hi, hp, Bool.not_true, Bool.false_eq_true, if_false]
  · exact noBusErr_sramAccess_write d _ a _ 0
  · exact noBusErr_mramAccess_write d w a _ 0

theorem noBusErr_busRead_rom (hp : d.place w a = .rom) (n : Nat) : (d.busRead w a n).noBusErr := by
  simp only [busRead, hi, hp, Bool.not_true, Bool.false_eq_true, if_false]
  exact noBusErr_ans _ _

end

theorem keeps_refuseBad_busErr (d : Dev) (w : Who) (a v : Nat) (ws : List Word) (code : Nat) :
    d.keeps ((d.refuseBad w a v).busErr ws code) [shp .slt] :=
  keeps_trans (keeps_post d _ _ (by simp)) (keeps_of_eq rfl rfl _)

end Dev

/-! ### The commands of an access -/

theorem exec_registerWrite {s : State} (hout : s.out = true) (w : Who) (addr : BitVec 64) (bytes : Nat) (v : BitVec 64) :
    exec (.registerWrite w addr bytes v) s = .next { s with dev := s.dev.busWrite w addr.toNat bytes v.toNat } :=
  onDev_out (fun d => d.busWrite w addr.toNat bytes v.toNat) hout

theorem exec_clearingRead {s : State} (hout : s.out = true) (w : Who) (addr : BitVec 64) (n : Nat) :
    exec (.clearingRead w ⟨addr, n, false⟩) s = .next { s with dev := s.dev.busRead w addr.toNat n } :=
  onDev_out (fun d => d.busRead w addr.toNat n) hout

section
variable {s : State} {w : Who} {addr : BitVec 64} {p off : Nat} (hout : s.out = true) (hi : s.dev.issues w = true)
  (hp : s.dev.place w addr.toNat = .page p off)
include hout hi hp

theorem exec_registerWrite_page (bytes : Nat) (v : BitVec 64) :
    exec (.registerWrite w addr bytes v) s = .next { s with dev := s.dev.pageWrite w p off addr.toNat bytes (v.toNat % 2 ^ 32) } := by
  rw [exec_registerWrite hout, Dev.pageWrite_eq s.dev hi hp]

theorem exec_clearingRead_page (n : Nat) :
    exec (.clearingRead w ⟨addr, n, false⟩) s = .next { s with dev := s.dev.pageRead w p off addr.toNat n } := by
  rw [exec_clearingRead hout, Dev.busRead_page hi hp]

end

/-- Settles O7: the checks of a page stand before its registers, and no operation behind a register makes a bus error. -/
theorem oddAndFencedAccesses : Obligations.OddAndFencedAccesses := by
  unfold Obligations.OddAndFencedAccesses
  refine ⟨?places, ?reserved, ?pages, ?memories, ?window⟩
  case places =>
    intro d w r i off hr hi ho a p
    have hplace := Dev.place_region d w hr hi ho (p := p) rfl
    refine ⟨fun b n hb hreach => ?_, fun hb => ?_⟩
    · rw [hb] at hplace
      exact hplace.trans (if_pos hreach)
    · rw [hb] at hplace
      exact hplace
  case reserved =>
    intro s w addr bytes v hout hi hp
    refine ⟨⟨_, exec_registerWrite hout w addr bytes v, rfl, ?_⟩, ⟨_, exec_clearingRead hout w addr bytes, rfl, Dev.busRead_bad hi hp bytes⟩⟩
    rw [State.dev_mk, Dev.busWrite_bad hi hp]
    exact ⟨rfl, Dev.keeps_refuseBad_busErr s.dev w _ _ _ _⟩
  case pages =>
    intro s w addr bytes v p off b n hout hi hp hb
    have hwrite := exec_registerWrite_page hout hi hp bytes v
    have hread := exec_clearingRead_page hout hi hp bytes
    refine ⟨fun hf hodd => ⟨fun ha => ?_, ?_⟩, fun hf hbytes hal ha hreg => ⟨?_, ?_⟩, fun hf => ⟨?_, ?_⟩⟩
    · exact ⟨_, hwrite, rfl, Dev.pageWrite_odd hb hf ha hodd w off _⟩
    · exact ⟨_, hread, rfl, Dev.pageRead_odd hf hodd w off false⟩
    · subst hbytes
      exact ⟨_, hwrite, rfl, (Dev.noBusErr_iff _).1 (Dev.noBusErr_pageWrite hb hf ha hal w off _),
        fun hfs hoff => Dev.pageWrite_empty hb hf ha hal hoff hfs w _⟩
    · subst hbytes
      exact ⟨_, hread, rfl, (Dev.noBusErr_iff _).1 (Dev.noBusErr_pageRead hf ha hal hreg),
        fun hfs => (Dev.answer_eq _).symm.trans (Dev.answer_pageRead_empty hf ha hal hreg hfs)⟩
    · exact ⟨_, hwrite, rfl, Dev.pageWrite_fenced hb hf w off _ _ _⟩
    · exact ⟨_, hread, rfl, Dev.pageRead_fenced hf w off _ _ _⟩
  case memories =>
    intro s w addr bytes v hout hi
    exact ⟨fun hp => ⟨_, exec_registerWrite hout w addr bytes v, rfl, (Dev.noBusErr_iff _).1 (Dev.noBusErr_busWrite_memory hi hp _ _)⟩,
      fun hp => ⟨_, exec_clearingRead hout w addr bytes, rfl, (Dev.noBusErr_iff _).1 (Dev.noBusErr_busRead_rom hi hp _)⟩⟩
  case window =>
    intro s w addr n hout hi hp hbad
    exact ⟨_, exec_mramWindowAccess_of_place none n hout hi hp, rfl, (Dev.noBusErr_iff _).1 (Dev.noBusErr_mramAccess_read hbad w _ _)⟩

/-! ### A read of a PV register that answers its value

A register's key is its page, offset and bit, followed by the entry of its table, which leaves room for 65,536 entries. A read of a page of TMC first
shows the selected cell, under the entry that `TMC.SEL` names; the statement bounds neither of its fields by its width. -/

/-- An entry so far out of range that the key of half B's `TMC.CELL_ID` there is the key of `HST.STATUS.SESSION`. -/
def spillSel : Nat := (fkey (shp .hst) HST.STATUS_SESSION 0 0 - fkey (ctl .tmc .b) TMC.CELL_ID_ID 0 0) / 1024

/-- Half B holds the lease; the host link is strapped on and has no session; the one-bit `TMC.SEL.EDGE` of half B holds `spillSel`, and the one cell
there has the identifier 1. -/
def spillDev : Dev :=
  let d := { Dev.init with boot := { Dev.init.boot with released := true } }
  let d := (d.put (shp .wir) WIR.LEASE_HOLDER 1).put (shp .bot) BOT.STRAP_RAW 0x40
  let d := d.modCyx .b (fun x => { x with cells := [⟨⟨false, 0, false, 1, 0, 0, 0, 0⟩, 0, false, false, 0⟩] })
  { d with regs := rfInsert (fkey (ctl .tmc .b) TMC.SEL_EDGE 0 0) (BitVec.ofNat 32 spillSel) d.regs }

/-- The address of `OWNER` on half B's page of TMC. -/
def spillAddr : BitVec 64 := BitVec.ofNat 64 (pageBase (ctl .tmc .b) + HDR.OWNER_MID.off)

/-- The refresh of the page opens a session, and the host link, unprivileged before the read, is answered the owner, 9. -/
theorem busRead_spillDev : (spillDev.busRead Dev.hostW spillAddr.toNat 4).resp = ⟨[9], false, 0⟩ := by decide

/-- Refutes O6: its clause on reads of PV registers fails in `spillDev`, where showing the selected cell of TMC writes `HST.STATUS.SESSION`. -/
theorem not_refusedWritesAreRecorded : ¬ Obligations.RefusedWritesAreRecorded := by
  unfold Obligations.RefusedWritesAreRecorded
  intro h
  obtain ⟨-, hread, -⟩ := h ⟨spillDev, []⟩ Dev.hostW spillAddr (ctl .tmc .b) HDR.OWNER_MID.off .tmc 0
    (by decide) (by decide) (by decide) (by decide) (by decide)
  obtain ⟨t, hexec, -, hresp, -⟩ := hread (by decide) (by decide) (by decide) (by decide) (by decide)
  rw [exec_clearingRead (by decide)] at hexec
  rw [← Host.Outcome.next.inj hexec, State.dev_mk, busRead_spillDev] at hresp
  exact absurd hresp (by decide)

end Sys2Proof.Machine
end

section
/-! PROOFS. Every step keeps a sound part sound (O59): one lemma per operation of the part, in the order of the definitions. -/
namespace Sys2Proof.Machine

open Sys2Proof

@[simp] theorem length_lset {α : Type} (l : List α) (i : Nat) (a : α) : (lset l i a).length = l.length := by simp [lset]

@[simp] theorem length_lmod {α : Type} (l : List α) (i : Nat) (f : α → α) : (lmod l i f).length = l.length := by
  induction l generalizing i with
  | nil => rfl
  | cons a l ih => cases i <;> simp [lmod, ih]

/-- A change of one entry that keeps a property of it keeps the property of all entries. -/
theorem all_lmod {α : Type} {p : α → Bool} {f : α → α} (hf : ∀ a, p (f a) = p a) (l : List α) (i : Nat) : (lmod l i f).all p = l.all p := by
  induction l generalizing i with
  | nil => rfl
  | cons a l ih => cases i <;> simp [lmod, ih, hf]

@[simp] theorem unitsOk_lmod_mpg (mpg : List Mpg) (le : List Le) (dax : List Dax) (stp : List StpCh) (i : Nat) (f : Mpg → Mpg) :
    unitsOk (lmod mpg i f) le dax stp = unitsOk mpg le dax stp := by simp [unitsOk]

@[simp] theorem unitsOk_lmod_dax (mpg : List Mpg) (le : List Le) (dax : List Dax) (stp : List StpCh) (i : Nat) (f : Dax → Dax) :
    unitsOk mpg le (lmod dax i f) stp = unitsOk mpg le dax stp := by simp [unitsOk]

@[simp] theorem unitsOk_lmod_stp (mpg : List Mpg) (le : List Le) (dax : List Dax) (stp : List StpCh) (i : Nat) (f : StpCh → StpCh) :
    unitsOk mpg le dax (lmod stp i f) = unitsOk mpg le dax stp := by simp [unitsOk]

theorem unitsOk_lmod_le (mpg : List Mpg) (le : List Le) (dax : List Dax) (stp : List StpCh) (i : Nat) {f : Le → Le}
    (hf : ∀ x, (f x).loops.length = x.loops.length) : unitsOk mpg (lmod le i f) dax stp = unitsOk mpg le dax stp := by
  have hall := all_lmod (f := f) (p := fun e => e.loops.length == 32) (fun x => by simp only [hf]) le i
  simp only [unitsOk, length_lmod, hall]

namespace Dev

/-! ### Soundness

`d.frame` is what the memories hold, which pages are fenced or aborting, how many periods have begun, and whether every list has its length, behind a
name that no proof looks through. Most operations leave it as it was; those that write memory, hand a servo state on or reset a region keep it sound. -/

/-- What most operations leave as it was. -/
structure Frame where
  mems : List (List Host.Cell)
  shaped : Bool
  fenced : List Nat
  aborting : List Nat
  periods : Nat × Nat

/-- The memories are in canonical form, and every list has its length. -/
@[irreducible] def Frame.ok (x : Frame) : Bool := x.mems.all Memory.wf && x.shaped

/-- The frame of a part. Irreducible, so that a proof goes by the lemmas and never compares whole parts. -/
@[irreducible] def frame (d : Dev) : Frame := ⟨d.memories, d.shaped, d.fenced, d.aborting, (d.ha.servoCnt, d.hb.servoCnt)⟩

theorem frame_eq (d : Dev) : d.frame = ⟨d.memories, d.shaped, d.fenced, d.aborting, (d.ha.servoCnt, d.hb.servoCnt)⟩ := by rw [frame]

theorem frame_congr {d e : Dev} (hm : e.memories = d.memories) (hs : e.shaped = d.shaped) (hf : e.fenced = d.fenced) (ha : e.aborting = d.aborting)
    (hp : (e.ha.servoCnt, e.hb.servoCnt) = (d.ha.servoCnt, d.hb.servoCnt)) : e.frame = d.frame := by
  rw [frame_eq, frame_eq, hm, hs, hf, ha, hp]

theorem ok_eq_sound (d : Dev) : d.frame.ok = d.sound := by
  rw [frame_eq, Frame.ok]
  simp [memories, sound, memWf, Bool.and_assoc]

theorem memories_of_frame {d e : Dev} (h : e.frame = d.frame) : e.memories = d.memories := by
  rw [frame_eq, frame_eq] at h
  exact congrArg Frame.mems h

theorem fenced_of_frame {d e : Dev} (h : e.frame = d.frame) : e.fenced = d.fenced := by
  rw [frame_eq, frame_eq] at h
  exact congrArg Frame.fenced h

theorem aborting_of_frame {d e : Dev} (h : e.frame = d.frame) : e.aborting = d.aborting := by
  rw [frame_eq, frame_eq] at h
  exact congrArg Frame.aborting h

theorem servoCnt_of_frame {d e : Dev} (h : e.frame = d.frame) (q : HalfId) : (e.half q).servoCnt = (d.half q).servoCnt := by
  rw [frame_eq, frame_eq] at h
  obtain ⟨ha, hb⟩ := Prod.mk.inj (congrArg Frame.periods h)
  cases q
  · exact ha
  · exact hb

/-- Operations that leave the frame alone keep a sound part sound. -/
theorem ok_of {d e : Dev} (h : e.frame = d.frame) (hd : d.frame.ok = true) : e.frame.ok = true := by rwa [h]

@[simp] theorem ok_ite (c : Prop) [Decidable c] (x y : Frame) : (if c then x else y).ok = if c then x.ok else y.ok := apply_ite Frame.ok c x y

/-! #### Shapes of an operation -/

@[simp] theorem frame_ite (c : Prop) [Decidable c] (a b : Dev) : (if c then a else b).frame = if c then a.frame else b.frame := apply_ite frame c a b

@[simp] theorem frame_ite_fst {β : Type} (c : Prop) [Decidable c] (a b : Dev × β) :
    (if c then a else b).1.frame = if c then a.1.frame else b.1.frame := apply_ite (fun q => frame q.1) c a b

@[simp] theorem frame_ite_snd {β : Type} (c : Prop) [Decidable c] (a b : β × Dev) :
    (if c then a else b).2.frame = if c then a.2.frame else b.2.frame := apply_ite (fun q => frame q.2) c a b

@[simp] theorem frame_foldl {α : Type} {f : Dev → α → Dev} (hf : ∀ d x, (f d x).frame = d.frame) (l : List α) (d : Dev) : (l.foldl f d).frame = d.frame := by
  induction l generalizing d with
  | nil => rfl
  | cons x xs ih => exact (ih _).trans (hf d x)

@[simp] theorem frame_foldl_fst {α β : Type} {f : Dev × β → α → Dev × β} (hf : ∀ q x, (f q x).1.frame = q.1.frame) (l : List α) (q : Dev × β) :
    (l.foldl f q).1.frame = q.1.frame := by
  induction l generalizing q with
  | nil => rfl
  | cons x xs ih => exact (ih _).trans (hf q x)

@[simp] theorem frame_foldl_snd {α β : Type} {f : β × Dev → α → β × Dev} (hf : ∀ q x, (f q x).2.frame = q.2.frame) (l : List α) (q : β × Dev) :
    (l.foldl f q).2.frame = q.2.frame := by
  induction l generalizing q with
  | nil => rfl
  | cons x xs ih => exact (ih _).trans (hf q x)

/-- Operations that keep a sound part sound do so in any number. -/
theorem ok_foldl_of {α : Type} {f : Dev → α → Dev} (hf : ∀ d x, d.frame.ok = true → (f d x).frame.ok = true) (l : List α) {d : Dev} (hd : d.frame.ok = true) :
    (l.foldl f d).frame.ok = true := by
  induction l generalizing d with
  | nil => exact hd
  | cons x xs ih => exact ih (hf d x hd)

@[simp] theorem frame_both (d : Dev) (f : Dev → HalfId → Dev) (hf : ∀ d h, (f d h).frame = d.frame) : (d.both f).frame = d.frame := by rw [both, hf, hf]

/-! #### Updates of one field -/

@[simp] theorem frame_shadow (d : Dev) (x) : ({ d with shadow := x } : Dev).frame = d.frame := frame_congr rfl rfl rfl rfl rfl
@[simp] theorem frame_immCnt (d : Dev) (x) : ({ d with immCnt := x } : Dev).frame = d.frame := frame_congr rfl rfl rfl rfl rfl
@[simp] theorem frame_regs (d : Dev) (x) : ({ d with regs := x } : Dev).frame = d.frame := frame_congr rfl rfl rfl rfl rfl
@[simp] theorem frame_resp (d : Dev) (x) : ({ d with resp := x } : Dev).frame = d.frame := frame_congr rfl rfl rfl rfl rfl
@[simp] theorem frame_freeCtr (d : Dev) (x) : ({ d with freeCtr := x } : Dev).frame = d.frame := frame_congr rfl rfl rfl rfl rfl
@[simp] theorem frame_cfgFrozen (d : Dev) (x) : ({ d with cfgFrozen := x } : Dev).frame = d.frame := frame_congr rfl rfl rfl rfl rfl
@[simp] theorem frame_pRes (d : Dev) (x) : ({ d with pRes := x } : Dev).frame = d.frame := frame_congr rfl rfl rfl rfl rfl
@[simp] theorem frame_pClm (d : Dev) (x) : ({ d with pClm := x } : Dev).frame = d.frame := frame_congr rfl rfl rfl rfl rfl
@[simp] theorem frame_pEpoch (d : Dev) (x) : ({ d with pEpoch := x } : Dev).frame = d.frame := frame_congr rfl rfl rfl rfl rfl
@[simp] theorem frame_pInt (d : Dev) (x) : ({ d with pInt := x } : Dev).frame = d.frame := frame_congr rfl rfl rfl rfl rfl
@[simp] theorem frame_carDoorShut (d : Dev) (x) : ({ d with carDoorShut := x } : Dev).frame = d.frame := frame_congr rfl rfl rfl rfl rfl
@[simp] theorem frame_landShut (d : Dev) (x) : ({ d with landShut := x } : Dev).frame = d.frame := frame_congr rfl rfl rfl rfl rfl
@[simp] theorem frame_lane (d : Dev) (x) : ({ d with lane := x } : Dev).frame = d.frame := frame_congr rfl rfl rfl rfl rfl
@[simp] theorem frame_weir (d : Dev) (x) : ({ d with weir := x } : Dev).frame = d.frame := frame_congr rfl rfl rfl rfl rfl
@[simp] theorem frame_boot (d : Dev) (x) : ({ d with boot := x } : Dev).frame = d.frame := frame_congr rfl rfl rfl rfl rfl
@[simp] theorem frame_memLog (d : Dev) (x y z u) : ({ d with mbad := x, mces := y, remap := z, remapBad := u } : Dev).frame = d.frame := frame_congr rfl rfl rfl rfl rfl
@[simp] theorem frame_badRegs (d : Dev) (x) : ({ d with badRegs := x } : Dev).frame = d.frame := frame_congr rfl rfl rfl rfl rfl
@[simp] theorem frame_keys (d : Dev) (x) : ({ d with keys := x } : Dev).frame = d.frame := frame_congr rfl rfl rfl rfl rfl

@[simp] theorem frame_enc (d : Dev) {x : List Nat} (h : x.length = d.enc.length) : ({ d with enc := x } : Dev).frame = d.frame := by
  simp only [frame_eq, memories, shaped, h]
@[simp] theorem frame_pCopy (d : Dev) {x : List PosCopy} (h : x.length = d.pCopy.length) : ({ d with pCopy := x } : Dev).frame = d.frame := by
  simp only [frame_eq, memories, shaped, h]
@[simp] theorem frame_stpPins (d : Dev) {x : List StpCh} (h : x.length = d.stpPins.length) : ({ d with stpPins := x } : Dev).frame = d.frame := by
  simp only [frame_eq, memories, shaped, h]
@[simp] theorem frame_can (d : Dev) {x : List CanCh} (h : x.length = d.can.length) : ({ d with can := x } : Dev).frame = d.frame := by
  simp only [frame_eq, memories, shaped, h]
@[simp] theorem frame_fio (d : Dev) {x : Fio} (h : x.win.length = d.fio.win.length) : ({ d with fio := x } : Dev).frame = d.frame := by
  simp only [frame_eq, memories, shaped, h]
@[simp] theorem frame_silt (d : Dev) {x : Silt} (h1 : x.cursors.length = d.silt.cursors.length) (h2 : x.copying.length = d.silt.copying.length)
    (h3 : x.exps.length = d.silt.exps.length) : ({ d with silt := x } : Dev).frame = d.frame := by
  simp only [frame_eq, memories, shaped, h1, h2, h3]
@[simp] theorem frame_rtc (d : Dev) {x : Rtc} (h : x.fired.length = d.rtc.fired.length) : ({ d with rtc := x } : Dev).frame = d.frame := by
  simp only [frame_eq, memories, shaped, h]
@[simp] theorem frame_glk (d : Dev) {x : Glk} (h1 : x.nodes.length = d.glk.nodes.length) (h2 : x.req.length = d.glk.req.length)
    (h3 : x.delays.length = d.glk.delays.length) : ({ d with glk := x } : Dev).frame = d.frame := by
  simp only [frame_eq, memories, shaped, h1, h2, h3]
@[simp] theorem frame_store (d : Dev) {x : Store} (h : x.areas.length = d.store.areas.length) : ({ d with store := x } : Dev).frame = d.frame := by
  simp only [frame_eq, memories, shaped, h]
@[simp] theorem frame_encl (d : Dev) {x : Enc} (h1 : x.nonce.length = d.encl.nonce.length) (h2 : x.refused.length = d.encl.refused.length)
    (h3 : x.withheld.length = d.encl.withheld.length) (h4 : x.authKey.length = d.encl.authKey.length) :
    ({ d with encl := x } : Dev).frame = d.frame := by
  simp only [frame_eq, memories, shaped, h1, h2, h3, h4]
@[simp] theorem frame_saf (d : Dev) {x : Saf} (h1 : x.sp.length = d.saf.sp.length) (h2 : x.th.length = d.saf.th.length) :
    ({ d with saf := x } : Dev).frame = d.frame := by
  simp only [frame_eq, memories, shaped, h1, h2]

/-- MRAM may take any content in canonical form. -/
theorem ok_mram {d : Dev} {m : List Host.Cell} (hm : Memory.wf d.mram = true → Memory.wf m = true) (hd : d.frame.ok = true) :
    ({ d with mram := m } : Dev).frame.ok = true := by
  rw [ok_eq_sound, sound, memWf, Bool.and_eq_true, Bool.and_eq_true, Bool.and_eq_true] at hd ⊢
  obtain ⟨⟨⟨hmram, ha⟩, hb⟩, hs⟩ := hd
  exact ⟨⟨⟨hm hmram, ha⟩, hb⟩, hs⟩

/-! #### Changes of a half -/

/-- What a change of a half must leave as it was for the part to be as sound as before. -/
def SameForm (x y : Half) : Prop :=
  unitsOk y.mpg y.le y.dax y.stp = unitsOk x.mpg x.le x.dax x.stp ∧ y.pos.cars.length = x.pos.cars.length ∧
    y.pos.latches.length = x.pos.latches.length ∧ y.shl.stops.length = x.shl.stops.length ∧ y.shl.recs.length = x.shl.recs.length ∧ y.sram = x.sram ∧ y.servoCnt = x.servoCnt

theorem shaped_sameForm {x y : Half} (h : SameForm x y) (z : Hlf) : y.shaped z = x.shaped z := by
  obtain ⟨hu, hc, hl, hs, hr, -, -⟩ := h
  simp only [Half.shaped, hu, hc, hl, hs, hr]

theorem frame_setHalf {d : Dev} {h : HalfId} {x : Half} (hx : SameForm (d.half h) x) : (d.setHalf h x).frame = d.frame := by
  have hshape := shaped_sameForm hx
  obtain ⟨-, -, -, -, -, hsram, hcnt⟩ := hx
  cases h
  · exact frame_congr (by simp only [memories, setHalf, half] at hsram ⊢; rw [hsram]) (by simp only [shaped, setHalf]; rw [hshape]; rfl) rfl rfl (by simp only [setHalf, half] at hcnt ⊢; rw [hcnt])
  · exact frame_congr (by simp only [memories, setHalf, half] at hsram ⊢; rw [hsram]) (by simp only [shaped, setHalf]; rw [hshape]; rfl) rfl rfl (by simp only [setHalf, half] at hcnt ⊢; rw [hcnt])

@[simp] theorem frame_modHalf (d : Dev) (h : HalfId) {f : Half → Half} (hf : ∀ x, SameForm x (f x)) : (d.modHalf h f).frame = d.frame := frame_setHalf (hf _)

@[simp] theorem sameForm_iff {x y : Half} : SameForm x y ↔ unitsOk y.mpg y.le y.dax y.stp = unitsOk x.mpg x.le x.dax x.stp ∧
    y.pos.cars.length = x.pos.cars.length ∧ y.pos.latches.length = x.pos.latches.length ∧ y.shl.stops.length = x.shl.stops.length ∧
    y.shl.recs.length = x.shl.recs.length ∧ y.sram = x.sram ∧ y.servoCnt = x.servoCnt := Iff.rfl

@[simp] theorem frame_modHlf (d : Dev) (h : HalfId) {f : Hlf → Hlf} (hf : ∀ x, (f x).servoBuf = x.servoBuf) : (d.modHlf h f).frame = d.frame := by
  have hsame (y : Half) (x : Hlf) : y.shaped (f x) = y.shaped x := by simp only [Half.shaped, hf]
  cases h
  · exact frame_congr rfl (by simp only [shaped, modHlf, hsame]) rfl rfl rfl
  · exact frame_congr rfl (by simp only [shaped, modHlf, hsame]) rfl rfl rfl

/-! #### Operations that leave the frame as it is -/

@[simp] theorem frame_put (d : Dev) (p f v i t) : (d.put p f v i t).frame = d.frame := frame_congr rfl rfl rfl rfl rfl

@[simp] theorem frame_puti (d : Dev) (p f x i t) : (d.puti p f x i t).frame = d.frame := by simp [puti]

@[simp] theorem frame_putb (d : Dev) (p f b i t) : (d.putb p f b i t).frame = d.frame := by simp [putb]

@[simp] theorem frame_bump (d : Dev) (p f i t) : (d.bump p f i t).frame = d.frame := by simp [bump]

@[simp] theorem frame_wrapUp (d : Dev) (p f i t) : (d.wrapUp p f i t).frame = d.frame := by simp [wrapUp]

@[simp] theorem frame_orBits (d : Dev) (p f m i t) : (d.orBits p f m i t).frame = d.frame := by simp [orBits]

@[simp] theorem frame_putBit (d : Dev) (p f k b i t) : (d.putBit p f k b i t).frame = d.frame := by simp [putBit]

@[simp] theorem frame_put64 (d : Dev) (p lo hi v i t) : (d.put64 p lo hi v i t).frame = d.frame := by simp [put64]

@[simp] theorem frame_stat (d : Dev) (p k) : (d.stat p k).frame = d.frame := by simp [stat]

@[simp] theorem frame_err (d : Dev) (p code detail) : (d.err p code detail).frame = d.frame := by simp [err]

@[simp] theorem frame_fresh (d : Dev) : d.fresh.2.frame = d.frame := by simp [fresh]

@[simp] theorem frame_freshBool (d : Dev) : d.freshBool.2.frame = d.frame := by simp [freshBool]

@[simp] theorem frame_lose (d : Dev) (r) : (d.lose r).frame = d.frame := by simp [lose]

@[simp] theorem frame_post (d : Dev) (r) : (d.post r).frame = d.frame := by
  unfold post
  dsimp only
  split
  · split <;> simp
  · simp

@[simp] theorem frame_note (d : Dev) (p cls code detail words) : (d.note p cls code detail words).frame = d.frame := by simp [note]

@[simp] theorem frame_noteBy (d : Dev) (w p cls code detail words) : (d.noteBy w p cls code detail words).frame = d.frame := by simp [noteBy]

@[simp] theorem frame_refuse (d : Dev) (w p reason addr value kind) : (d.refuse w p reason addr value kind).frame = d.frame := by simp [refuse]

@[simp] theorem frame_fault (d : Dev) (p code detail words) : (d.fault p code detail words).frame = d.frame := by simp [fault]

@[simp] theorem frame_showRes (d : Dev) (p r state reason tag) : (d.showRes p r state reason tag).frame = d.frame := by simp [showRes]

@[simp] theorem frame_takenRes (d : Dev) (p r tag seq why) : (d.takenRes p r tag seq why).frame = d.frame := by simp [takenRes]

@[simp] theorem frame_goWrite (d : Dev) (p r waiting c stops over_ busy shows) :
    (d.goWrite p r waiting c stops over_ busy shows).1.frame = d.frame := by
  unfold goWrite
  split
  · simp
  · split <;> simp

@[simp] theorem frame_stage (d : Dev) (w p half f i t v) : (d.stage w p half f i t v).frame = d.frame := by simp [stage]

@[simp] theorem frame_noteConfig (d : Dev) (e code reason old new seq bnd) : (d.noteConfig e code reason old new seq bnd).frame = d.frame := by simp [noteConfig]

@[simp] theorem frame_markEvent (d : Dev) (p half seq) : (d.markEvent p half seq).frame = d.frame := by
  unfold markEvent
  split <;> simp

@[simp] theorem frame_applyPage (d : Dev) (p half rules bnd seq) : (d.applyPage p half rules bnd seq).frame = d.frame := by
  unfold applyPage
  dsimp only
  refine iteInduction (motive := fun e : Dev => e.frame = d.frame) (fun _ => by simp) fun _ =>
    iteInduction (motive := fun e : Dev => e.frame = d.frame) (fun _ => by simp) fun _ => ?_
  generalize List.foldl _ none _ = rejected
  cases rejected <;> simp only [frame_put, frame_ite, ite_self, frame_noteConfig, frame_foldl, implies_true, frame_shadow, frame_markEvent]

@[simp] theorem frame_nextImm (d : Dev) (p) : (d.nextImm p).2.frame = d.frame := by simp [nextImm]

@[simp] theorem frame_abortPage (d : Dev) (p clearEn) : (d.abortPage p clearEn).frame = d.frame := by simp [abortPage]

@[simp] theorem frame_modPosCar (d : Dev) (h n f) : (d.modPosCar h n f).frame = d.frame := by simp [modPosCar]

@[simp] theorem frame_modCopy (d : Dev) (h n f) : (d.modCopy h n f).frame = d.frame := by simp [modCopy]

@[simp] theorem frame_copyToPair (d : Dev) (h n) : (d.copyToPair h n).frame = d.frame := by simp [copyToPair]

@[simp] theorem frame_initCar (d : Dev) (h n) : (d.initCar h n).frame = d.frame := by simp [initCar]

@[simp] theorem frame_setPosState (d : Dev) (h n s) : (d.setPosState h n s).frame = d.frame := by simp [setPosState]

@[simp] theorem frame_badFrame (d : Dev) (h n code) : (d.badFrame h n code).frame = d.frame := by simp [badFrame]

@[simp] theorem frame_takeSsi (d : Dev) (h rx lineLow bits) : (d.takeSsi h rx lineLow bits).frame = d.frame := by
  unfold takeSsi
  dsimp only
  split
  · simp
  · split
    · split <;> simp
    · simp

@[simp] theorem frame_posFlags (d : Dev) (h n) : (d.posFlags h n).frame = d.frame := by simp [posFlags]

@[simp] theorem frame_publishPos (d : Dev) (h n x v) : (d.publishPos h n x v).frame = d.frame := by simp [publishPos]

@[simp] theorem frame_slipCheck (d : Dev) (h n) : (d.slipCheck h n).frame = d.frame := by simp [slipCheck]

@[simp] theorem frame_coastCheck (d : Dev) (h n) : (d.coastCheck h n).frame = d.frame := by simp [coastCheck]

@[simp] theorem frame_fuseInit (d : Dev) (h n) : (d.fuseInit h n).frame = d.frame := by
  unfold fuseInit
  dsimp only
  split <;> simp

@[simp] theorem frame_validBad (d : Dev) (h n) : (d.validBad h n).frame = d.frame := by simp [validBad]

@[simp] theorem frame_fuseRun (d : Dev) (h n) : (d.fuseRun h n).frame = d.frame := by
  unfold fuseRun
  dsimp only
  split <;> simp

@[simp] theorem frame_fillLatches (d : Dev) (h) : (d.fillLatches h).frame = d.frame := by simp [fillLatches]

@[simp] theorem frame_lrnEnd (d : Dev) (h res) : (d.lrnEnd h res).frame = d.frame := by simp [lrnEnd]

@[simp] theorem frame_lrnWatch (d : Dev) (h) : (d.lrnWatch h).frame = d.frame := by simp [lrnWatch]

@[simp] theorem frame_setLatches (d : Dev) (h m l) : (d.setLatches h m l).frame = d.frame := by simp [setLatches]

@[simp] theorem frame_latchEdge (d : Dev) (h m src rising dt20 no) : (d.latchEdge h m src rising dt20 no).frame = d.frame := by simp [latchEdge]

@[simp] theorem frame_rawEdge (d : Dev) (h src rising dt20) : (d.rawEdge h src rising dt20).frame = d.frame := by simp [rawEdge]

@[simp] theorem frame_setRaws (d : Dev) (h l) : (d.setRaws h l).frame = d.frame := by simp [setRaws]

@[simp] theorem frame_latchKeep (d : Dev) (h src level) : (d.latchKeep h src level).frame = d.frame := by simp [latchKeep]

@[simp] theorem frame_latchDrop (d : Dev) (h no m) : (d.latchDrop h no m).frame = d.frame := by simp [latchDrop]

@[simp] theorem frame_latchBounced (d : Dev) (h src) : (d.latchBounced h src).frame = d.frame := by
  unfold latchBounced
  split <;> simp

@[simp] theorem frame_latchCapture (d : Dev) (h m q k) : (d.latchCapture h m q k).frame = d.frame := by simp [latchCapture]

@[simp] theorem frame_latchConvert (d : Dev) (h) : (d.latchConvert h).frame = d.frame := by
  unfold latchConvert
  refine frame_foldl (fun d m => ?_) _ _
  dsimp only
  split
  · rfl
  · rw [frame_foldl fun d q => by split <;> simp]
    simp

@[simp] theorem frame_dzCheck (d : Dev) (h e) : (d.dzCheck h e).frame = d.frame := by simp [dzCheck]

@[simp] theorem frame_lrnStart (d : Dev) (h n src) : (d.lrnStart h n src).frame = d.frame := by simp [lrnStart]

@[simp] theorem frame_lrnStore (d : Dev) (h e) : (d.lrnStore h e).frame = d.frame := by simp [lrnStore]

@[simp] theorem frame_vaneDo (d : Dev) (h e) : (d.vaneDo h e).frame = d.frame := by simp [vaneDo]

@[simp] theorem frame_vaneEdge (d : Dev) (h e) : (d.vaneEdge h e).frame = d.frame := by simp [vaneEdge]

@[simp] theorem frame_dzEdge (d : Dev) (h src entering dt20) : (d.dzEdge h src entering dt20).frame = d.frame := by simp [dzEdge]

@[simp] theorem frame_lrnEdge (d : Dev) (h src entering dt20) : (d.lrnEdge h src entering dt20).frame = d.frame := by simp [lrnEdge]

@[simp] theorem frame_vaneFlush (d : Dev) (h) : (d.vaneFlush h).frame = d.frame := by simp [vaneFlush]

@[simp] theorem frame_posFuse (d : Dev) (h) : (d.posFuse h).frame = d.frame := by simp [posFuse]

@[simp] theorem frame_applyPos (d : Dev) (h) : (d.applyPos h).frame = d.frame := by simp [applyPos]

@[simp] theorem frame_latchEnc (d : Dev) (h) : (d.latchEnc h).frame = d.frame := by simp [latchEnc]

@[simp] theorem frame_encLoss (d : Dev) (h e) : (d.encLoss h e).frame = d.frame := by simp [encLoss]

@[simp] theorem frame_posReval (d : Dev) (h n) : (d.posReval h n).frame = d.frame := by simp [posReval]

@[simp] theorem frame_latchArm (d : Dev) (h m) : (d.latchArm h m).frame = d.frame := by simp [latchArm]

@[simp] theorem frame_resChanged (d : Dev) (h n) : (d.resChanged h n).frame = d.frame := by simp [resChanged]

@[simp] theorem frame_setRes (d : Dev) (h n lo hi) : (d.setRes h n lo hi).frame = d.frame := by simp [setRes]

@[simp] theorem frame_dropRes (d : Dev) (h n) : (d.dropRes h n).frame = d.frame := by simp [dropRes]

@[simp] theorem frame_makeRes (d : Dev) (h) : (d.makeRes h).frame = d.frame := by simp [makeRes]

@[simp] theorem frame_sepDo (d : Dev) (h c) : (d.sepDo h c).frame = d.frame := by
  unfold sepDo
  split <;> simp

@[simp] theorem frame_sepTake (d : Dev) (h) : (d.sepTake h).frame = d.frame := by
  unfold sepTake
  split <;> simp

@[simp] theorem frame_sepClaim (d : Dev) (h n) : (d.sepClaim h n).frame = d.frame := by simp [sepClaim]

@[simp] theorem frame_sepTrim (d : Dev) (h n) : (d.sepTrim h n).frame = d.frame := by
  unfold sepTrim
  split <;> simp

@[simp] theorem frame_sepPairs (d : Dev) (h) : (d.sepPairs h).frame = d.frame := by simp [sepPairs]

@[simp] theorem frame_sendIntent (d : Dev) (h) {f : Dev → Nat → Dev} (hf : ∀ d e, (f d e).frame = d.frame) : (d.sendIntent h f).frame = d.frame := by
  simp [sendIntent, hf]

@[simp] theorem frame_sepClose (d : Dev) (h) : (d.sepClose h).frame = d.frame := by
  unfold sepClose
  rw [frame_sendIntent]
  · simp
  · exact fun d e => frame_congr rfl rfl rfl rfl rfl

@[simp] theorem frame_sepGo (d : Dev) (h op) : (d.sepGo h op).frame = d.frame := by simp [sepGo]

@[simp] theorem frame_applySep (d : Dev) (h wasCar) : (d.applySep h wasCar).frame = d.frame := by simp [applySep]

@[simp] theorem frame_abortSep (d : Dev) (h) : (d.abortSep h).frame = d.frame := by
  unfold abortSep
  split <;> simp

@[simp] theorem frame_modMpg (d : Dev) (h n f) : (d.modMpg h n f).frame = d.frame := by simp [modMpg]

@[simp] theorem frame_swShow (d : Dev) (h m) : (d.swShow h m).frame = d.frame := by simp [swShow]

@[simp] theorem frame_mpgAdvance (d : Dev) (h n T) : (d.mpgAdvance h n T).frame = d.frame := by simp [mpgAdvance]

@[simp] theorem frame_mpgIntent (d : Dev) (h n) : (d.mpgIntent h n).frame = d.frame := by simp [mpgIntent]

@[simp] theorem frame_mpgPlan (d : Dev) (h n mode tgt up gs) : (d.mpgPlan h n mode tgt up gs).frame = d.frame := by simp [mpgPlan]

@[simp] theorem frame_mpgCause (d : Dev) (h n cause) : (d.mpgCause h n cause).frame = d.frame := by simp [mpgCause]

@[simp] theorem frame_mpgFreeze (d : Dev) (h n cause) : (d.mpgFreeze h n cause).frame = d.frame := by simp [mpgFreeze]

@[simp] theorem frame_mpgRamp (d : Dev) (h n cause D J supplied) : (d.mpgRamp h n cause D J supplied).frame = d.frame := by simp [mpgRamp]

@[simp] theorem frame_mpgStop (d : Dev) (h n cause) : (d.mpgStop h n cause).frame = d.frame := by simp [mpgStop]

@[simp] theorem frame_mpgStopLine (d : Dev) (h n) : (d.mpgStopLine h n).frame = d.frame := by
  unfold mpgStopLine
  dsimp only
  split
  · simp
  · split
    · split <;> simp
    · simp

@[simp] theorem frame_mpgLimitSw (d : Dev) (h n) : (d.mpgLimitSw h n).frame = d.frame := by simp [mpgLimitSw]

@[simp] theorem frame_mpgSwitches (d : Dev) (h n) : (d.mpgSwitches h n).frame = d.frame := by simp [mpgSwitches]

@[simp] theorem frame_mpgGo (d : Dev) (h n op) : (d.mpgGo h n op).frame = d.frame := by simp [mpgGo]

@[simp] theorem frame_moveDo (d : Dev) (h n c) : (d.moveDo h n c).frame = d.frame := by simp [moveDo]

@[simp] theorem frame_stopAtDo (d : Dev) (h n c) : (d.stopAtDo h n c).frame = d.frame := by simp [stopAtDo]

@[simp] theorem frame_mpgTake (d : Dev) (h n) : (d.mpgTake h n).frame = d.frame := by
  unfold mpgTake
  dsimp only
  split
  · simp
  · split
    · split
      · simp
      · split <;> simp
    · simp

@[simp] theorem frame_mpgReplan (d : Dev) (h n) : (d.mpgReplan h n).frame = d.frame := by simp [mpgReplan]

@[simp] theorem frame_mpgShowCap (d : Dev) (h n) : (d.mpgShowCap h n).frame = d.frame := by simp [mpgShowCap]

@[simp] theorem frame_mpgPublish (d : Dev) (h n) : (d.mpgPublish h n).frame = d.frame := by simp [mpgPublish]

@[simp] theorem frame_drvSilent (d : Dev) (h n) : (d.drvSilent h n).frame = d.frame := by simp [drvSilent]

@[simp] theorem frame_drvCheck (d : Dev) (h n exp) : (d.drvCheck h n exp).frame = d.frame := by
  unfold drvCheck
  dsimp only
  split
  · simp
  · split
    · split <;> simp
    · split
      · split <;> simp
      · split <;> simp

@[simp] theorem frame_drvFrame (d : Dev) (h n data) : (d.drvFrame h n data).frame = d.frame := by simp [drvFrame]

@[simp] theorem frame_mpgSeq (d : Dev) (h n) : (d.mpgSeq h n).frame = d.frame := by simp [mpgSeq]

@[simp] theorem frame_applyMpg (d : Dev) (h n) : (d.applyMpg h n).frame = d.frame := by simp [applyMpg]

@[simp] theorem frame_abortMpg (d : Dev) (h n) : (d.abortMpg h n).frame = d.frame := by
  unfold abortMpg
  split <;> simp

@[simp] theorem frame_mpgServo (d : Dev) (h n) : (d.mpgServo h n).frame = d.frame := by simp [mpgServo]

@[simp] theorem frame_switchReach (d : Dev) (h m) : (d.switchReach h m).frame = d.frame := by simp [switchReach]

@[simp] theorem frame_linesReach (d : Dev) (was) : (d.linesReach was).frame = d.frame := by simp [linesReach]

@[simp] theorem frame_modDax (d : Dev) (h k f) : (d.modDax h k f).frame = d.frame := by simp [modDax]

@[simp] theorem frame_modStp (d : Dev) (h c f) : (d.modStp h c f).frame = d.frame := by simp [modStp]

@[simp] theorem frame_daxUncertain (d : Dev) (h k cause) : (d.daxUncertain h k cause).frame = d.frame := by simp [daxUncertain]

@[simp] theorem frame_stpUncertain (d : Dev) (h c cause) : (d.stpUncertain h c cause).frame = d.frame := by
  unfold stpUncertain
  dsimp only
  split <;> simp

@[simp] theorem frame_stpShow (d : Dev) : d.stpShow.frame = d.frame := by simp [stpShow]

@[simp] theorem frame_stpSafe (d : Dev) : d.stpSafe.frame = d.frame := by simp [stpSafe]

@[simp] theorem frame_stpPinsOut (d : Dev) (h c) : (d.stpPinsOut h c).frame = d.frame := by simp [stpPinsOut]

@[simp] theorem frame_stpOutputs (d : Dev) (h c) : (d.stpOutputs h c).frame = d.frame := by simp [stpOutputs]

@[simp] theorem frame_stpCount (d : Dev) (h c m) : (d.stpCount h c m).frame = d.frame := by simp [stpCount]

@[simp] theorem frame_stpPwm (d : Dev) (h c t) : (d.stpPwm h c t).frame = d.frame := by simp [stpPwm]

@[simp] theorem frame_stpStill (d : Dev) (h c) : (d.stpStill h c).frame = d.frame := by simp [stpStill]

@[simp] theorem frame_stpAim (d : Dev) (h c target span) : (d.stpAim h c target span).frame = d.frame := by simp [stpAim]

@[simp] theorem frame_stpEdge (d : Dev) (h c up T) : (d.stpEdge h c up T).frame = d.frame := by simp [stpEdge]

@[simp] theorem frame_stpServo (d : Dev) (h c sp) : (d.stpServo h c sp).frame = d.frame := by simp [stpServo]

@[simp] theorem frame_stpOff (d : Dev) (h c) : (d.stpOff h c).frame = d.frame := by simp [stpOff]

@[simp] theorem frame_stpBack (d : Dev) (h c) : (d.stpBack h c).frame = d.frame := by simp [stpBack]

@[simp] theorem frame_stpReach (d : Dev) : d.stpReach.frame = d.frame := by simp [stpReach]

@[simp] theorem frame_dinShow (d : Dev) : d.dinShow.frame = d.frame := by simp [dinShow]

@[simp] theorem frame_dinChange (d : Dev) (n lvl) : (d.dinChange n lvl).frame = d.frame := by simp [dinChange]

@[simp] theorem frame_dinRaw (d : Dev) (n lvl) : (d.dinRaw n lvl).frame = d.frame := by simp [dinRaw]

@[simp] theorem frame_switchChange (d : Dev) (h m level) : (d.switchChange h m level).frame = d.frame := by simp [switchChange]

@[simp] theorem frame_stpSupply (d : Dev) (h c there) : (d.stpSupply h c there).frame = d.frame := by simp [stpSupply]

@[simp] theorem frame_latchTake (d : Dev) (src rising dt20) : (d.latchTake src rising dt20).frame = d.frame := by simp [latchTake]

@[simp] theorem frame_applyStp (d : Dev) (h) : (d.applyStp h).frame = d.frame := by simp [applyStp]

@[simp] theorem frame_daxSet (d : Dev) (h k xn v) : (d.daxSet h k xn v).frame = d.frame := by simp [daxSet]

@[simp] theorem frame_daxGoMode (d : Dev) (h k m) : (d.daxGoMode h k m).frame = d.frame := by simp [daxGoMode]

@[simp] theorem frame_daxWhy (d : Dev) (h k c) : (d.daxWhy h k c).frame = d.frame := by simp [daxWhy]

@[simp] theorem frame_daxSlow (d : Dev) (h k mode after) : (d.daxSlow h k mode after).frame = d.frame := by simp [daxSlow]

@[simp] theorem frame_daxOpenCam (d : Dev) (h k) : (d.daxOpenCam h k).frame = d.frame := by simp [daxOpenCam]

@[simp] theorem frame_daxCloseCam (d : Dev) (h k nudge) : (d.daxCloseCam h k nudge).frame = d.frame := by simp [daxCloseCam]

@[simp] theorem frame_daxReverse (d : Dev) (h k cause) : (d.daxReverse h k cause).frame = d.frame := by simp [daxReverse]

@[simp] theorem frame_daxFreeze (d : Dev) (h k cause) : (d.daxFreeze h k cause).frame = d.frame := by simp [daxFreeze]

@[simp] theorem frame_daxClosed (d : Dev) (h k) : (d.daxClosed h k).frame = d.frame := by simp [daxClosed]

@[simp] theorem frame_daxLocked (d : Dev) (h k) : (d.daxLocked h k).frame = d.frame := by simp [daxLocked]

@[simp] theorem frame_daxLockFail (d : Dev) (h k) : (d.daxLockFail h k).frame = d.frame := by simp [daxLockFail]

@[simp] theorem frame_daxInputs (d : Dev) (h k) : (d.daxInputs h k).frame = d.frame := by
  unfold daxInputs
  dsimp only
  split
  · split <;> simp
  · simp

@[simp] theorem frame_doorSilent (d : Dev) (h k) : (d.doorSilent h k).frame = d.frame := by simp [doorSilent]

@[simp] theorem frame_daxForce (d : Dev) (h k) : (d.daxForce h k).1.frame = d.frame := by
  unfold daxForce
  dsimp only
  split
  · simp
  · split <;> simp

@[simp] theorem frame_daxProtect (d : Dev) (h k force) : (d.daxProtect h k force).frame = d.frame := by
  unfold daxProtect
  split <;> simp

@[simp] theorem frame_daxGo (d : Dev) (h k op) : (d.daxGo h k op).frame = d.frame := by simp [daxGo]

@[simp] theorem frame_daxDoOpen (d : Dev) (h k c) : (d.daxDoOpen h k c).frame = d.frame := by simp [daxDoOpen]

@[simp] theorem frame_daxDoClose (d : Dev) (h k nudge) : (d.daxDoClose h k nudge).frame = d.frame := by simp [daxDoClose]

@[simp] theorem frame_daxTake (d : Dev) (h k) : (d.daxTake h k).frame = d.frame := by
  unfold daxTake
  dsimp only
  split
  · simp
  · split
    · split
      · simp
      · split <;> simp
    · simp

@[simp] theorem frame_daxDecel (d : Dev) (h k) : (d.daxDecel h k).1.frame = d.frame := by simp [daxDecel]

@[simp] theorem frame_daxGear (d : Dev) (h k) : (d.daxGear h k).frame = d.frame := by simp [daxGear]

@[simp] theorem frame_daxHeld (d : Dev) (h k) : (d.daxHeld h k).frame = d.frame := by simp [daxHeld]

@[simp] theorem frame_daxOpening (d : Dev) (h k) : (d.daxOpening h k).frame = d.frame := by simp [daxOpening]

@[simp] theorem frame_daxClosing (d : Dev) (h k nudge) : (d.daxClosing h k nudge).frame = d.frame := by simp [daxClosing]

@[simp] theorem frame_daxHoming (d : Dev) (h k) : (d.daxHoming h k).frame = d.frame := by simp [daxHoming]

@[simp] theorem frame_daxBackOff (d : Dev) (h k dest) : (d.daxBackOff h k dest).frame = d.frame := by simp [daxBackOff]

@[simp] theorem frame_daxArmedSlow (d : Dev) (h k) : (d.daxArmedSlow h k).frame = d.frame := by simp [daxArmedSlow]

@[simp] theorem frame_daxMove (d : Dev) (h k) : (d.daxMove h k).frame = d.frame := by
  unfold daxMove
  dsimp only
  split
  · simp
  · split
    · simp
    · split
      · split
        · split <;> simp
        · simp
      · simp

@[simp] theorem frame_daxServo (d : Dev) (h k) : (d.daxServo h k).frame = d.frame := by
  unfold daxServo
  dsimp only
  split
  · simp
  · split <;> simp

@[simp] theorem frame_daxSeq (d : Dev) (h k) : (d.daxSeq h k).frame = d.frame := by simp [daxSeq]

@[simp] theorem frame_doorFrame (d : Dev) (h k data) : (d.doorFrame h k data).frame = d.frame := by simp [doorFrame]

@[simp] theorem frame_applyDax (d : Dev) (h k) : (d.applyDax h k).frame = d.frame := by simp [applyDax]

@[simp] theorem frame_abortDax (d : Dev) (h k) : (d.abortDax h k).frame = d.frame := by
  unfold abortDax
  split <;> simp

@[simp] theorem frame_heal (d : Dev) (h rs) : (d.heal h rs).frame = d.frame := by simp [heal]

@[simp] theorem frame_modSaf (d : Dev) {f : Saf → Saf} (h1 : ∀ x, (f x).sp.length = x.sp.length) (h2 : ∀ x, (f x).th.length = x.th.length) :
    (d.modSaf f).frame = d.frame := by simp [modSaf, h1, h2]

@[simp] theorem frame_modSp (d : Dev) (n f) : (d.modSp n f).frame = d.frame := by simp [modSp]

@[simp] theorem frame_modTh (d : Dev) (n f) : (d.modTh n f).frame = d.frame := by simp [modTh]

@[simp] theorem frame_safNote (d : Dev) (p code detail words) : (d.safNote p code detail words).frame = d.frame := by simp [safNote]

@[simp] theorem frame_outUpdate (d : Dev) : d.outUpdate.frame = d.frame := by simp [outUpdate]

@[simp] theorem frame_carOff (d : Dev) (n) : (d.carOff n).frame = d.frame := by simp [carOff]

@[simp] theorem frame_endRescue (d : Dev) (n) : (d.endRescue n).frame = d.frame := by simp [endRescue]

@[simp] theorem frame_thTrip (d : Dev) (n cause words) : (d.thTrip n cause words).frame = d.frame := by simp [thTrip]

@[simp] theorem frame_showDem (d : Dev) : d.showDem.frame = d.frame := by simp [showDem]

@[simp] theorem frame_markBad (d : Dev) (p) : (d.markBad p).frame = d.frame := by simp [markBad]

@[simp] theorem frame_faultTh (d : Dev) (p code) : (d.faultTh p code).frame = d.frame := by simp [faultTh]

@[simp] theorem frame_faultSp (d : Dev) (p code) : (d.faultSp p code).frame = d.frame := by simp [faultSp]

@[simp] theorem frame_safeInput (d : Dev) (ch level) : (d.safeInput ch level).frame = d.frame := by simp [safeInput]

@[simp] theorem frame_tpStart (d : Dev) (k) : (d.tpStart k).frame = d.frame := by simp [tpStart]

@[simp] theorem frame_tpEnd (d : Dev) (k high low) : (d.tpEnd k high low).frame = d.frame := by simp [tpEnd]

@[simp] theorem frame_tpOverload (d : Dev) (k) : (d.tpOverload k).frame = d.frame := by simp [tpOverload]

@[simp] theorem frame_sourceT (d : Dev) (n lineLow bits) : (d.sourceT n lineLow bits).frame = d.frame := by
  unfold sourceT
  dsimp only
  split
  · simp
  · split
    · simp
    · split <;> simp

@[simp] theorem frame_thBridge (d : Dev) : d.thBridge.frame = d.frame := by simp [thBridge]

@[simp] theorem frame_thPair (d : Dev) (p) : (d.thPair p).frame = d.frame := by simp [thPair]

@[simp] theorem frame_thSpeed (d : Dev) (n) : (d.thSpeed n).frame = d.frame := by simp [thSpeed]

@[simp] theorem frame_thEval (d : Dev) : d.thEval.frame = d.frame := by simp [thEval]

@[simp] theorem frame_thSepCheck (d : Dev) : d.thSepCheck.frame = d.frame := by simp [thSepCheck]

@[simp] theorem frame_sourceLost (d : Dev) (n inPair) : (d.sourceLost n inPair).frame = d.frame := by simp [sourceLost]

@[simp] theorem frame_heartbeat (d : Dev) : d.heartbeat.frame = d.frame := by simp [heartbeat]

@[simp] theorem frame_heartbeatLost (d : Dev) : d.heartbeatLost.frame = d.frame := by simp [heartbeatLost]

@[simp] theorem frame_stopLine (d : Dev) (n cat) : (d.stopLine n cat).frame = d.frame := by simp [stopLine]

@[simp] theorem frame_spStop (d : Dev) (n cause cat words) : (d.spStop n cause cat words).frame = d.frame := by simp [spStop]

@[simp] theorem frame_deviceStop (d : Dev) : d.deviceStop.frame = d.frame := by simp [deviceStop]

@[simp] theorem frame_setStn (d : Dev) (k s) : (d.setStn k s).frame = d.frame := by simp [setStn]

@[simp] theorem frame_showDoors (d : Dev) : d.showDoors.frame = d.frame := frame_congr rfl rfl rfl rfl rfl

@[simp] theorem frame_pairBridge (d : Dev) : d.pairBridge.frame = d.frame := by simp [pairBridge]

@[simp] theorem frame_pairDoors (d : Dev) : d.pairDoors.frame = d.frame := by simp [pairDoors]

@[simp] theorem frame_pairInputs (d : Dev) : d.pairInputs.frame = d.frame := by simp [pairInputs]

@[simp] theorem frame_sampleLine (d : Dev) (t k) : (d.sampleLine t k).frame = d.frame := by simp [sampleLine]

@[simp] theorem frame_pairSample (d : Dev) (t) : (d.pairSample t).frame = d.frame := by simp [pairSample]

@[simp] theorem frame_safeFrame (d : Dev) (bus ident fd dlc bs) : (d.safeFrame bus ident fd dlc bs).frame = d.frame := by
  unfold safeFrame
  dsimp only
  split
  · simp
  · split <;> simp

@[simp] theorem frame_stationSilent (d : Dev) (k) : (d.stationSilent k).frame = d.frame := by simp [stationSilent]

@[simp] theorem frame_lockDisagree (d : Dev) (l) : (d.lockDisagree l).frame = d.frame := by simp [lockDisagree]

@[simp] theorem frame_markHw (d : Dev) (n) : (d.markHw n).frame = d.frame := by simp [markHw]

@[simp] theorem frame_headPair (d : Dev) (p) : (d.headPair p).frame = d.frame := by
  unfold headPair
  dsimp only
  split
  · simp
  · split
    · simp
    · split <;> simp

@[simp] theorem frame_headRes (d : Dev) (n) : (d.headRes n).frame = d.frame := by
  unfold headRes
  split <;> simp

@[simp] theorem frame_pairTrack (d : Dev) (T n) : (d.pairTrack T n).frame = d.frame := by simp [pairTrack]

@[simp] theorem frame_pairEnv (d : Dev) (n) : (d.pairEnv n).frame = d.frame := by
  unfold pairEnv
  split <;> simp

@[simp] theorem frame_pairSlip (d : Dev) (n) : (d.pairSlip n).frame = d.frame := by
  unfold pairSlip
  dsimp only
  split
  · simp
  · split <;> simp

@[simp] theorem frame_pairDeg (d : Dev) (n) : (d.pairDeg n).frame = d.frame := by
  unfold pairDeg
  split <;> simp

@[simp] theorem frame_pairCar (d : Dev) (n) : (d.pairCar n).frame = d.frame := by simp [pairCar]

@[simp] theorem frame_pairPermit (d : Dev) (n) : (d.pairPermit n).frame = d.frame := by simp [pairPermit]

@[simp] theorem frame_permits (d : Dev) : d.permits.frame = d.frame := by simp [permits]

@[simp] theorem frame_headway (d : Dev) : d.headway.frame = d.frame := by simp [headway]

@[simp] theorem frame_showDeg (d : Dev) (n) : (d.showDeg n).frame = d.frame := by simp [showDeg]

@[simp] theorem frame_showSio (d : Dev) (b) : (d.showSio b).frame = d.frame := by simp [showSio]

@[simp] theorem frame_thIdle (d : Dev) : d.thIdle.frame = d.frame := by simp [thIdle]

@[simp] theorem frame_leaveRun (d : Dev) (code) : (d.leaveRun code).frame = d.frame := by simp [leaveRun]

@[simp] theorem frame_showBlock (d : Dev) (b) : (d.showBlock b).frame = d.frame := by simp [showBlock]

@[simp] theorem frame_sealEnd (d : Dev) : d.sealEnd.frame = d.frame := by simp [sealEnd]

@[simp] theorem frame_holdLines (d : Dev) : d.holdLines.frame = d.frame := by simp [holdLines]

@[simp] theorem frame_pairServo (d : Dev) : d.pairServo.frame = d.frame := by simp [pairServo]

@[simp] theorem frame_dropBrake (d : Dev) (n) : (d.dropBrake n).frame = d.frame := by simp [dropBrake]

@[simp] theorem frame_s1Standstill (d : Dev) (n) : (d.s1Standstill n).frame = d.frame := by
  unfold s1Standstill
  split <;> simp

@[simp] theorem frame_s1Off (d : Dev) (n) : (d.s1Off n).frame = d.frame := by
  unfold s1Off
  split <;> simp

@[simp] theorem frame_s1Time (d : Dev) (n) : (d.s1Time n).frame = d.frame := by
  unfold s1Time
  split <;> simp

@[simp] theorem frame_standDrop (d : Dev) (n) : (d.standDrop n).frame = d.frame := by simp [standDrop]

@[simp] theorem frame_brakeLift (d : Dev) (n) : (d.brakeLift n).frame = d.frame := by simp [brakeLift]

@[simp] theorem frame_readI (d : Dev) (k i) : (d.readI k i).frame = d.frame := by simp [readI]

@[simp] theorem frame_brakeFault (d : Dev) (k) : (d.brakeFault k).frame = d.frame := by simp [brakeFault]

@[simp] theorem frame_brakePick (d : Dev) (k i) : (d.brakePick k i).frame = d.frame := by simp [brakePick]

@[simp] theorem frame_brakeDropped (d : Dev) (k i) : (d.brakeDropped k i).frame = d.frame := by simp [brakeDropped]

@[simp] theorem frame_outFail (d : Dev) (k code) : (d.outFail k code).frame = d.frame := by simp [outFail]

@[simp] theorem frame_readBack (d : Dev) (k vp vn i) : (d.readBack k vp vn i).frame = d.frame := by simp [readBack]

@[simp] theorem frame_darkTest (d : Dev) (k low vp vn i) : (d.darkTest k low vp vn i).frame = d.frame := by simp [darkTest]

@[simp] theorem frame_splitTest (d : Dev) (k low vp vn i cross) : (d.splitTest k low vp vn i cross).frame = d.frame := by simp [splitTest]

@[simp] theorem frame_otReached (d : Dev) (k) : (d.otReached k).frame = d.frame := by simp [otReached]

@[simp] theorem frame_otHour (d : Dev) : d.otHour.frame = d.frame := by simp [otHour]

@[simp] theorem frame_clearCar (d : Dev) (n) : (d.clearCar n).frame = d.frame := by simp [clearCar]

@[simp] theorem frame_clearFlt (d : Dev) (p) : (d.clearFlt p).frame = d.frame := by simp [clearFlt]

@[simp] theorem frame_resetDo (d : Dev) (cars) : (d.resetDo cars).frame = d.frame := by simp [resetDo]

@[simp] theorem frame_resetPress (d : Dev) (p ms) : (d.resetPress p ms).frame = d.frame := by simp [resetPress]

@[simp] theorem frame_rescueDo (d : Dev) (n) : (d.rescueDo n).frame = d.frame := by simp [rescueDo]

@[simp] theorem frame_degEnd (d : Dev) (n) : (d.degEnd n).frame = d.frame := by simp [degEnd]

@[simp] theorem frame_degDo (d : Dev) (n w) : (d.degDo n w).frame = d.frame := by simp [degDo]

@[simp] theorem frame_degTime (d : Dev) (n) : (d.degTime n).frame = d.frame := by simp [degTime]

@[simp] theorem frame_degRecovered (d : Dev) (n) : (d.degRecovered n).frame = d.frame := by
  unfold degRecovered
  split <;> simp

@[simp] theorem frame_smbReply (d : Dev) (why d0 d1) : (d.smbReply why d0 d1).frame = d.frame := by simp [smbReply]

@[simp] theorem frame_smbRefuse (d : Dev) (why n) : (d.smbRefuse why n).frame = d.frame := by simp [smbRefuse]

@[simp] theorem frame_testStart (d : Dev) (k ms tag) : (d.testStart k ms tag).frame = d.frame := by simp [testStart]

@[simp] theorem frame_smbGo (d : Dev) : d.smbGo.frame = d.frame := by
  unfold smbGo
  dsimp only
  split
  · simp
  · split
    · simp
    · split
      · simp
      · split
        · simp
        · split
          · simp
          · split <;> simp
      · split
        · simp
        · split <;> simp
      · split
        · simp
        · split
          · simp
          · split <;> simp
      · simp
      · simp

@[simp] theorem frame_testDone (d : Dev) (vp vn i) : (d.testDone vp vn i).frame = d.frame := by
  unfold testDone
  dsimp only
  split <;> simp

@[simp] theorem frame_abortSmb (d : Dev) : d.abortSmb.frame = d.frame := by simp [abortSmb]

@[simp] theorem frame_safFault (d : Dev) : d.safFault.frame = d.frame := by simp [safFault]

@[simp] theorem frame_sealPins (d : Dev) (sw en) : (d.sealPins sw en).frame = d.frame := by simp [sealPins]

@[simp] theorem frame_readSeal (d : Dev) : d.readSeal.frame = d.frame := by simp [readSeal]

@[simp] theorem frame_lastRefusal (d : Dev) (why detail) : (d.lastRefusal why detail).frame = d.frame := by simp [lastRefusal]

@[simp] theorem frame_blockRefused (d : Dev) (p why b) : (d.blockRefused p why b).frame = d.frame := by simp [blockRefused]

@[simp] theorem frame_sealPoll (d : Dev) (sw en) : (d.sealPoll sw en).frame = d.frame := by simp [sealPoll]

@[simp] theorem frame_spbStatus (d : Dev) (st reason detail) : (d.spbStatus st reason detail).frame = d.frame := by simp [spbStatus]

@[simp] theorem frame_setCandidate (d : Dev) (b) : (d.setCandidate b).frame = d.frame := by simp [setCandidate]

@[simp] theorem frame_spbData (d : Dev) (v) : (d.spbData v).frame = d.frame := by simp [spbData]

@[simp] theorem frame_spbVerified (d : Dev) : d.spbVerified.frame = d.frame := by
  unfold spbVerified
  dsimp only
  split
  · simp
  · split <;> simp

@[simp] theorem frame_spbSeal (d : Dev) (g) : (d.spbSeal g).frame = d.frame := by
  unfold spbSeal
  dsimp only
  split
  · simp
  · split
    · simp
    · split
      · simp
      · split <;> simp

@[simp] theorem frame_abortSpb (d : Dev) : d.abortSpb.frame = d.frame := by simp [abortSpb]

@[simp] theorem frame_spbCmd (d : Dev) (op g) : (d.spbCmd op g).frame = d.frame := by
  unfold spbCmd
  split <;> simp

@[simp] theorem frame_smbSend (d : Dev) (op a0 a1 tag) : (d.smbSend op a0 a1 tag).frame = d.frame := by simp [smbSend]

@[simp] theorem frame_aoDrive (d : Dev) (c) : (d.aoDrive c).frame = d.frame := by simp [aoDrive]

@[simp] theorem frame_fioDrive (d : Dev) : d.fioDrive.frame = d.frame := by simp [fioDrive]

@[simp] theorem frame_trimEnd (d : Dev) : d.trimEnd.frame = d.frame := by simp [trimEnd]

@[simp] theorem frame_applyTrm (d : Dev) (half) : (d.applyTrm half).frame = d.frame := by simp [applyTrm]

@[simp] theorem frame_trimRelease (d : Dev) : d.trimRelease.frame = d.frame := by simp [trimRelease]

@[simp] theorem frame_fioSafe (d : Dev) (c) : (d.fioSafe c).frame = d.frame := by simp [fioSafe]

@[simp] theorem frame_abortOut (d : Dev) (p k) : (d.abortOut p k).frame = d.frame := by simp [abortOut]

@[simp] theorem frame_fioLeave (d : Dev) (cs) : (d.fioLeave cs).frame = d.frame := by simp [fioLeave]

@[simp] theorem frame_fioForward (d : Dev) (image) : (d.fioForward image).frame = d.frame := by simp [fioForward]

@[simp] theorem frame_abortDin (d : Dev) : d.abortDin.frame = d.frame := by simp [abortDin]

@[simp] theorem frame_applyDin (d : Dev) (half bnd seq) : (d.applyDin half bnd seq).frame = d.frame := by simp [applyDin]

@[simp] theorem frame_applyDout (d : Dev) (half bnd seq) : (d.applyDout half bnd seq).frame = d.frame := by simp [applyDout]

@[simp] theorem frame_applyAout (d : Dev) (half bnd seq) : (d.applyAout half bnd seq).frame = d.frame := by simp [applyAout]

@[simp] theorem frame_doFault (d : Dev) (n f code off) : (d.doFault n f code off).frame = d.frame := by simp [doFault]

@[simp] theorem frame_doClear (d : Dev) (n) : (d.doClear n).frame = d.frame := by simp [doClear]

@[simp] theorem frame_doClr (d : Dev) (bits) : (d.doClr bits).frame = d.frame := by simp [doClr]

@[simp] theorem frame_doRetry (d : Dev) (n) : (d.doRetry n).frame = d.frame := by simp [doRetry]

@[simp] theorem frame_aiClass (d : Dev) (c cls) : (d.aiClass c cls).frame = d.frame := by simp [aiClass]

@[simp] theorem frame_aiJudge (d : Dev) (c) : (d.aiJudge c).frame = d.frame := by simp [aiJudge]

@[simp] theorem frame_aiOff (d : Dev) (c) : (d.aiOff c).frame = d.frame := by simp [aiOff]

@[simp] theorem frame_applyAin (d : Dev) (half bnd seq) : (d.applyAin half bnd seq).frame = d.frame := by simp [applyAin]

@[simp] theorem frame_aiSample (d : Dev) (c code) : (d.aiSample c code).frame = d.frame := by simp [aiSample]

@[simp] theorem frame_aiShort (d : Dev) (c) : (d.aiShort c).frame = d.frame := by simp [aiShort]

@[simp] theorem frame_aiRetry (d : Dev) (c ua) : (d.aiRetry c ua).frame = d.frame := by simp [aiRetry]

@[simp] theorem frame_aoReport (d : Dev) (c meas ut rsvLow sat) : (d.aoReport c meas ut rsvLow sat).frame = d.frame := by simp [aoReport]

@[simp] theorem frame_aoLink (d : Dev) (c) : (d.aoLink c).frame = d.frame := by simp [aoLink]

@[simp] theorem frame_aoCompliance (d : Dev) (c) : (d.aoCompliance c).frame = d.frame := by simp [aoCompliance]

@[simp] theorem frame_aoComplianceClear (d : Dev) (c) : (d.aoComplianceClear c).frame = d.frame := by simp [aoComplianceClear]

@[simp] theorem frame_trimSelect (d : Dev) (pt src) : (d.trimSelect pt src).frame = d.frame := by simp [trimSelect]

@[simp] theorem frame_trimContact (d : Dev) (k pressed) : (d.trimContact k pressed).frame = d.frame := by simp [trimContact]

@[simp] theorem frame_trimStep (d : Dev) (up) : (d.trimStep up).frame = d.frame := by simp [trimStep]

@[simp] theorem frame_trimWrite (d : Dev) (pt) : (d.trimWrite pt).frame = d.frame := by simp [trimWrite]

@[simp] theorem frame_modCan (d : Dev) (c f) : (d.modCan c f).frame = d.frame := by simp [modCan]

@[simp] theorem frame_canEnd (d : Dev) (c b result lec why) : (d.canEnd c b result lec why).frame = d.frame := by simp [canEnd]

@[simp] theorem frame_canDrop (d : Dev) (c why) : (d.canDrop c why).frame = d.frame := by simp [canDrop]

@[simp] theorem frame_canPut (d : Dev) (c b) : (d.canPut c b).frame = d.frame := by
  unfold canPut
  dsimp only
  split <;> simp

@[simp] theorem frame_canReq (d : Dev) (c b) : (d.canReq c b).frame = d.frame := by simp [canReq]

@[simp] theorem frame_canLoad (d : Dev) (c b f) : (d.canLoad c b f).frame = d.frame := by simp [canLoad]

@[simp] theorem frame_canStart (d : Dev) (c) : (d.canStart c).frame = d.frame := by
  unfold canStart
  split <;> simp

@[simp] theorem frame_canState (d : Dev) (c st) : (d.canState c st).frame = d.frame := by simp [canState]

@[simp] theorem frame_canJudge (d : Dev) (c) : (d.canJudge c).frame = d.frame := by simp [canJudge]

@[simp] theorem frame_canHeard (d : Dev) (c) : (d.canHeard c).frame = d.frame := by simp [canHeard]

@[simp] theorem frame_canLonely (d : Dev) (c) : (d.canLonely c).frame = d.frame := by simp [canLonely]

@[simp] theorem frame_canFin (d : Dev) (c) : (d.canFin c).frame = d.frame := by simp [canFin]

@[simp] theorem frame_canError (d : Dev) (c tx lec data dom) : (d.canError c tx lec data dom).frame = d.frame := by simp [canError]

@[simp] theorem frame_canQueue (d : Dev) (c f echo sof) : (d.canQueue c f echo sof).frame = d.frame := by simp [canQueue]

@[simp] theorem frame_canAck (d : Dev) (c n) : (d.canAck c n).frame = d.frame := by simp [canAck]

@[simp] theorem frame_rsmShow (d : Dev) : d.rsmShow.frame = d.frame := by simp [rsmShow]

@[simp] theorem frame_rsmDown (d : Dev) (s) : (d.rsmDown s).frame = d.frame := by simp [rsmDown]

@[simp] theorem frame_rsmFrame (d : Dev) (s f) : (d.rsmFrame s f).frame = d.frame := by simp [rsmFrame]

@[simp] theorem frame_rsmMiss (d : Dev) (s) : (d.rsmMiss s).frame = d.frame := by simp [rsmMiss]

@[simp] theorem frame_applyRsm (d : Dev) (half bnd seq) : (d.applyRsm half bnd seq).frame = d.frame := by simp [applyRsm]

@[simp] theorem frame_abortRsm (d : Dev) : d.abortRsm.frame = d.frame := by simp [abortRsm]

@[simp] theorem frame_canSpread (d : Dev) (c f) : (d.canSpread c f).frame = d.frame := by simp [canSpread]

@[simp] theorem frame_canReceive (d : Dev) (c f sof) : (d.canReceive c f sof).frame = d.frame := by simp [canReceive]

@[simp] theorem frame_canTdc (d : Dev) (c f tdc) : (d.canTdc c f tdc).frame = d.frame := by
  unfold canTdc
  split <;> simp

@[simp] theorem frame_canTxEnd (d : Dev) (c b result lec sof tdc) : (d.canTxEnd c b result lec sof tdc).frame = d.frame := by simp [canTxEnd]

@[simp] theorem frame_canCancel (d : Dev) (c b) : (d.canCancel c b).frame = d.frame := by simp [canCancel]

@[simp] theorem frame_canNoLease (d : Dev) : d.canNoLease.frame = d.frame := by simp [canNoLease]

@[simp] theorem frame_canRejCount (d : Dev) (c) : (d.canRejCount c).frame = d.frame := by simp [canRejCount]

@[simp] theorem frame_canCount (d : Dev) (c) : (d.canCount c).2.frame = d.frame := by simp [canCount]

@[simp] theorem frame_canEnable (d : Dev) (c) : (d.canEnable c).frame = d.frame := by simp [canEnable]

@[simp] theorem frame_canFrameEvent (d : Dev) (c busy) : (d.canFrameEvent c busy).frame = d.frame := by
  unfold canFrameEvent
  dsimp only
  split <;> simp

@[simp] theorem frame_abortCan (d : Dev) (c) : (d.abortCan c).frame = d.frame := by simp [abortCan]

@[simp] theorem frame_canIntegrated (d : Dev) (c) : (d.canIntegrated c).frame = d.frame := by simp [canIntegrated]

@[simp] theorem frame_canBasicCycle (d : Dev) (c busy) : (d.canBasicCycle c busy).frame = d.frame := by simp [canBasicCycle]

@[simp] theorem frame_canColumn (d : Dev) (c col start) : (d.canColumn c col start).frame = d.frame := by
  unfold canColumn
  split <;> simp

@[simp] theorem frame_canWindowEnd (d : Dev) (c) : (d.canWindowEnd c).frame = d.frame := by
  unfold canWindowEnd
  dsimp only
  split <;> simp

@[simp] theorem frame_canRejoin (d : Dev) (c) : (d.canRejoin c).frame = d.frame := by simp [canRejoin]

@[simp] theorem frame_canReqs (d : Dev) (c q bits) : (d.canReqs c q bits).frame = d.frame := by simp [canReqs]

@[simp] theorem frame_canCancels (d : Dev) (c q bits) : (d.canCancels c q bits).frame = d.frame := by simp [canCancels]

@[simp] theorem frame_modRtc (d : Dev) {f : Rtc → Rtc} (hf : ∀ x, (f x).fired.length = x.fired.length) : (d.modRtc f).frame = d.frame := by
  simp [modRtc, hf]

@[simp] theorem frame_rtcStatus (d : Dev) (k b) : (d.rtcStatus k b).frame = d.frame := by simp [rtcStatus]

@[simp] theorem frame_calCarry (d : Dev) : d.calCarry.frame = d.frame := by simp [calCarry]

@[simp] theorem frame_calSync (d : Dev) : d.calSync.frame = d.frame := by simp [calSync]

@[simp] theorem frame_calSyncCmd (d : Dev) : d.calSyncCmd.frame = d.frame := by simp [calSyncCmd]

@[simp] theorem frame_rtcAlarm (d : Dev) (k) : (d.rtcAlarm k).frame = d.frame := by simp [rtcAlarm]

@[simp] theorem frame_rtcRearm (d : Dev) (k) : (d.rtcRearm k).frame = d.frame := by simp [rtcRearm]

@[simp] theorem frame_rtcApplySet (d : Dev) (v mid priv) : (d.rtcApplySet v mid priv).frame = d.frame := by simp [rtcApplySet]

@[simp] theorem frame_applyRtc (d : Dev) (h seq) : (d.applyRtc h seq).frame = d.frame := by simp [applyRtc]

@[simp] theorem frame_applyCal (d : Dev) (h seq) : (d.applyCal h seq).frame = d.frame := by simp [applyCal]

@[simp] theorem frame_rtcTick (d : Dev) : d.rtcTick.1.frame = d.frame := by
  unfold rtcTick
  dsimp only
  split
  · split <;> simp
  · split
    · split <;> simp
    · simp

@[simp] theorem frame_rtcSet (d : Dev) (w sync) : (d.rtcSet w sync).frame = d.frame := by simp [rtcSet]

@[simp] theorem frame_rtcCancel (d : Dev) : d.rtcCancel.frame = d.frame := by
  unfold rtcCancel
  split <;> simp

@[simp] theorem frame_rtcSetPair (d : Dev) (v) : (d.rtcSetPair v).frame = d.frame := by simp [rtcSetPair]

@[simp] theorem frame_rtcCapture (d : Dev) : d.rtcCapture.frame = d.frame := by simp [rtcCapture]

@[simp] theorem frame_abortRtc (d : Dev) (p) : (d.abortRtc p).frame = d.frame := by simp [abortRtc]

@[simp] theorem frame_chgShow (d : Dev) : d.chgShow.frame = d.frame := by simp [chgShow]

@[simp] theorem frame_charger (d : Dev) (mv) : (d.charger mv).frame = d.frame := by simp [charger]

@[simp] theorem frame_chgSet (d : Dev) (lim) : (d.chgSet lim).frame = d.frame := by simp [chgSet]

@[simp] theorem frame_vbatMeasure (d : Dev) (mv) : (d.vbatMeasure mv).frame = d.frame := by simp [vbatMeasure]

@[simp] theorem frame_oscStop (d : Dev) : d.oscStop.frame = d.frame := by simp [oscStop]

@[simp] theorem frame_modShl (d : Dev) (h : HalfId) {f : Shl → Shl} (h1 : ∀ x, (f x).stops.length = x.stops.length)
    (h2 : ∀ x, (f x).recs.length = x.recs.length) : (d.modShl h f).frame = d.frame := by simp [modShl, h1, h2]

@[simp] theorem frame_setSeq (d : Dev) (h c s) : (d.setSeq h c s).frame = d.frame := by simp [setSeq]

@[simp] theorem frame_setCall (d : Dev) (h k c) : (d.setCall h k c).frame = d.frame := by simp [setCall]

@[simp] theorem frame_dropCall (d : Dev) (h k) : (d.dropCall h k).frame = d.frame := by simp [dropCall]

@[simp] theorem frame_evalTime (d : Dev) (h) : (d.evalTime h).frame = d.frame := by simp [evalTime]

@[simp] theorem frame_addRes (d : Dev) (h r) : (d.addRes h r).frame = d.frame := by simp [addRes]

@[simp] theorem frame_callDone (d : Dev) (h k) : (d.callDone h k).frame = d.frame := by
  unfold callDone
  split <;> simp

@[simp] theorem frame_boardHere (d : Dev) (h c floor count access) : (d.boardHere h c floor count access).frame = d.frame := by simp [boardHere]

@[simp] theorem frame_decide_ (d : Dev) (h k cl event b) : (d.decide_ h k cl event b).frame = d.frame := by simp [decide_]

@[simp] theorem frame_rejectCall (d : Dev) (h k cl why) : (d.rejectCall h k cl why).frame = d.frame := by simp [rejectCall]

@[simp] theorem frame_rejectEntry (d : Dev) (h slot car tag why) : (d.rejectEntry h slot car tag why).frame = d.frame := by
  unfold rejectEntry
  split <;> simp

@[simp] theorem frame_evaluate (d : Dev) (h k cl event cars) : (d.evaluate h k cl event cars).frame = d.frame := by
  unfold evaluate
  dsimp only
  split <;> simp

@[simp] theorem frame_removeStops (d : Dev) (h k cl) : (d.removeStops h k cl).frame = d.frame := by simp [removeStops]

@[simp] theorem frame_shlNew (d : Dev) (h w0 w1 tag) : (d.shlNew h w0 w1 tag).frame = d.frame := by
  unfold shlNew
  dsimp only
  split <;> simp

@[simp] theorem frame_shlCancel (d : Dev) (h slot tag) : (d.shlCancel h slot tag).frame = d.frame := by
  unfold shlCancel
  split <;> simp

@[simp] theorem frame_shlArrive (d : Dev) (h car floor tag) : (d.shlArrive h car floor tag).frame = d.frame := by
  unfold shlArrive
  split
  · simp
  · split
    · simp
    · split
      · simp
      · rw [frame_foldl fun d k => frame_callDone d h k, frame_foldl]
        · simp
        · intro d k
          split
          · split <;> simp
          · rfl

@[simp] theorem frame_shlEntry (d : Dev) (h w0 w1 w2 w3) : (d.shlEntry h w0 w1 w2 w3).frame = d.frame := by simp [shlEntry]

@[simp] theorem frame_skipEntry (d : Dev) (h) : (d.skipEntry h).frame = d.frame := by simp [skipEntry]

@[simp] theorem frame_takeRing (d : Dev) (h m) : (d.takeRing h m).frame = d.frame := by
  induction m generalizing d with
  | zero => rfl
  | succ m ih => simp [takeRing, ih]

@[simp] theorem frame_subHeadWrite (d : Dev) (h v) : (d.subHeadWrite h v).frame = d.frame := by simp [subHeadWrite]

@[simp] theorem frame_resTailWrite (d : Dev) (h v) : (d.resTailWrite h v).frame = d.frame := by simp [resTailWrite]

@[simp] theorem frame_doorStamp (d : Dev) (h) : (d.doorStamp h).frame = d.frame := by simp [doorStamp]

@[simp] theorem frame_standStamp (d : Dev) (h c floor) : (d.standStamp h c floor).frame = d.frame := by simp [standStamp]

@[simp] theorem frame_formRecord (d : Dev) (h n) : (d.formRecord h n).frame = d.frame := by simp [formRecord]

@[simp] theorem frame_showLive (d : Dev) (h) : (d.showLive h).frame = d.frame := by simp [showLive]

@[simp] theorem frame_formRecords (d : Dev) (h) : (d.formRecords h).frame = d.frame := by simp [formRecords]

@[simp] theorem frame_recordStale (d : Dev) (h c) : (d.recordStale h c).frame = d.frame := by
  unfold recordStale
  split <;> simp

@[simp] theorem frame_countMove (d : Dev) (h) : (d.countMove h).frame = d.frame := by simp [countMove]

@[simp] theorem frame_reassignOut (d : Dev) (h c) : (d.reassignOut h c).frame = d.frame := by
  unfold reassignOut
  split
  · rfl
  · refine frame_foldl (fun d e => ?_) _ _
    dsimp only
    split <;> simp

@[simp] theorem frame_sweepCall (d : Dev) (h k) : (d.sweepCall h k).frame = d.frame := by
  unfold sweepCall
  dsimp only
  split
  · split
    · split <;> simp
    · simp
  · simp

@[simp] theorem frame_sweep (d : Dev) (h) : (d.sweep h).frame = d.frame := by simp [sweep]

@[simp] theorem frame_markLocked (d : Dev) (h) : (d.markLocked h).frame = d.frame := by simp [markLocked]

@[simp] theorem frame_fwdTimeout (d : Dev) (h k) : (d.fwdTimeout h k).frame = d.frame := by
  unfold fwdTimeout
  split <;> simp

@[simp] theorem frame_freshEtas (d : Dev) (h) : (d.freshEtas h).frame = d.frame := by simp [freshEtas]

@[simp] theorem frame_showTables (d : Dev) (h) : (d.showTables h).frame = d.frame := by simp [showTables]

@[simp] theorem frame_islandEval (d : Dev) (h) : (d.islandEval h).frame = d.frame := by simp [islandEval]

@[simp] theorem frame_applyShl (d : Dev) (h bnd seq) : (d.applyShl h bnd seq).frame = d.frame := by simp [applyShl]

@[simp] theorem frame_abortShl (d : Dev) (h) : (d.abortShl h).frame = d.frame := by simp [abortShl]

@[simp] theorem frame_modGlk (d : Dev) {f : Glk → Glk} (h1 : ∀ x, (f x).nodes.length = x.nodes.length) (h2 : ∀ x, (f x).req.length = x.req.length)
    (h3 : ∀ x, (f x).delays.length = x.delays.length) : (d.modGlk f).frame = d.frame := by simp [modGlk, h1, h2, h3]

@[simp] theorem frame_modNode (d : Dev) (i f) : (d.modNode i f).frame = d.frame := by simp [modNode]

@[simp] theorem frame_glkPort (d : Dev) (f) : (d.glkPort f).frame = d.frame := by simp [glkPort]

@[simp] theorem frame_portBegin (d : Dev) (port b) : (d.portBegin port b).frame = d.frame := by
  unfold portBegin
  split <;> simp

@[simp] theorem frame_portTick (d : Dev) (port) : (d.portTick port).frame = d.frame := by
  unfold portTick
  split <;> simp

@[simp] theorem frame_glkTick (d : Dev) : d.glkTick.frame = d.frame := by simp [glkTick]

@[simp] theorem frame_glkSend (d : Dev) (typ len msg nums leave) : (d.glkSend typ len msg nums leave).frame = d.frame := by simp [glkSend]

@[simp] theorem frame_glkLocal (d : Dev) (port typ nums) : (d.glkLocal port typ nums).frame = d.frame := by simp [glkLocal]

@[simp] theorem frame_glkBegin (d : Dev) : d.glkBegin.frame = d.frame := by simp [glkBegin]

@[simp] theorem frame_glkHello (d : Dev) (leave) : (d.glkHello leave).frame = d.frame := by simp [glkHello]

@[simp] theorem frame_glkAccept (d : Dev) (port hd msg len nums) : (d.glkAccept port hd msg len nums).1.frame = d.frame := by
  simp only [glkAccept, frame_ite_fst, frame_ite, frame_bump, frame_glkPort, ite_self]
  generalize GNode.accept _ _ = a
  obtain ⟨_ | n, old⟩ := a <;> simp

@[simp] theorem frame_glkLane (d : Dev) (port hd m len) : (d.glkLane port hd m len).frame = d.frame := by simp [glkLane]

@[simp] theorem frame_glkMember (d : Dev) (i join) : (d.glkMember i join).frame = d.frame := by simp [glkMember]

@[simp] theorem frame_glkGone (d : Dev) (i) : (d.glkGone i).frame = d.frame := by simp [glkGone]

@[simp] theorem frame_scopeAsk (d : Dev) (mode passive) : (d.scopeAsk mode passive).frame = d.frame := by simp [scopeAsk]

@[simp] theorem frame_helloRx (d : Dev) (port hd cfg dev boots w heard) : (d.helloRx port hd cfg dev boots w heard).frame = d.frame := by simp [helloRx]

@[simp] theorem frame_tsyncGo (d : Dev) (st) : (d.tsyncGo st).frame = d.frame := by simp [tsyncGo]

@[simp] theorem frame_tsyncShow (d : Dev) : d.tsyncShow.frame = d.frame := by simp [tsyncShow]

@[simp] theorem frame_discipline (d : Dev) (theta) : (d.discipline theta).frame = d.frame := by simp [discipline]

@[simp] theorem frame_beaconRx (d : Dev) (copies ts sub) : (d.beaconRx copies ts sub).frame = d.frame := by
  unfold beaconRx
  dsimp only
  split <;> simp

@[simp] theorem frame_delayDone (d : Dev) (port t2 t3 t4) : (d.delayDone port t2 t3 t4).frame = d.frame := by
  unfold delayDone
  split <;> simp

@[simp] theorem frame_roleShow (d : Dev) (active) : (d.roleShow active).frame = d.frame := by simp [roleShow]

@[simp] theorem frame_roleDrop (d : Dev) : d.roleDrop.frame = d.frame := by simp [roleDrop]

@[simp] theorem frame_roleTick (d : Dev) : d.roleTick.frame = d.frame := by simp [roleTick]

@[simp] theorem frame_ringShow (d : Dev) : d.ringShow.frame = d.frame := by simp [ringShow]

@[simp] theorem frame_ringTick (d : Dev) : d.ringTick.frame = d.frame := by simp [ringTick]

@[simp] theorem frame_helloTick (d : Dev) : d.helloTick.frame = d.frame := by simp [helloTick]

@[simp] theorem frame_managerActivate (d : Dev) : d.managerActivate.frame = d.frame := by simp [managerActivate]

@[simp] theorem frame_linkLoss (d : Dev) (port) : (d.linkLoss port).frame = d.frame := by simp [linkLoss]

@[simp] theorem frame_linkGain (d : Dev) (port low) : (d.linkGain port low).frame = d.frame := by simp [linkGain]

@[simp] theorem frame_glkDown (d : Dev) : d.glkDown.frame = d.frame := by simp [glkDown]

@[simp] theorem frame_applyGlk (d : Dev) (bnd seq) : (d.applyGlk bnd seq).frame = d.frame := by simp [applyGlk]

@[simp] theorem frame_abortGlk (d : Dev) : d.abortGlk.frame = d.frame := by simp [abortGlk]

@[simp] theorem frame_upsert (d : Dev) (h c) : (d.upsert h c).frame = d.frame := by
  unfold upsert
  split
  · simp
  · split <;> simp

@[simp] theorem frame_insertOn (d : Dev) (h c k cl) : (d.insertOn h c k cl).frame = d.frame := by
  unfold insertOn
  split <;> simp

@[simp] theorem frame_takeRecords (d : Dev) (h src rs) : (d.takeRecords h src rs).frame = d.frame := by
  unfold takeRecords
  split <;> simp

@[simp] theorem frame_settle (d : Dev) (h src n) : (d.settle h src n).frame = d.frame := by simp [settle]

@[simp] theorem frame_takeForward (d : Dev) (h src f) : (d.takeForward h src f).frame = d.frame := by
  unfold takeForward
  dsimp only
  split
  · split <;> simp
  · split
    · split <;> simp
    · simp

@[simp] theorem frame_takeReport (d : Dev) (h src full cs) : (d.takeReport h src full cs).frame = d.frame := by
  unfold takeReport
  dsimp only
  split
  case isTrue =>
    refine (frame_modShl (f := fun x => { x with decided := true }) _ _ (fun _ => rfl) (fun _ => rfl)).trans (frame_foldl (fun d g => ?_) _ _)
    split
    · split <;> simp
    · split <;> simp
  case isFalse =>
    refine (frame_foldl (fun d e => ?_) _ _).trans <| (frame_modShl (f := fun x => { x with decided := true }) _ _ (fun _ => rfl) (fun _ => rfl)).trans
      (frame_foldl (fun d g => ?_) _ _)
    · split <;> simp
    · split
      · split <;> simp
      · split <;> simp

@[simp] theorem frame_takeTables (d : Dev) (h cs seqs) : (d.takeTables h cs seqs).frame = d.frame := by
  unfold takeTables
  dsimp only
  refine (frame_foldl (fun d q => frame_setSeq d _ _ _) _ _).trans (frame_foldl (fun d g => ?_) _ _)
  split
  · split <;> simp
  · simp

@[simp] theorem frame_takeDecision (d : Dev) (h ds cs seqs) : (d.takeDecision h ds cs seqs).frame = d.frame := by
  unfold takeDecision
  dsimp only
  refine (frame_foldl (fun d g => ?result) _ _).trans <| (frame_foldl (fun d g => ?dwell) _ _).trans <|
    (frame_foldl (fun d q => ?sequence) _ _).trans (frame_foldl (fun d g => ?call) _ _)
  case result =>
    split
    · simp
    · split <;> simp
  case dwell => simp
  case sequence =>
    refine (frame_foldl (fun d e => frame_dropCall d _ _) _ _).trans <| (frame_foldl (fun d e => frame_insertOn d _ _ _ _) _ _).trans <|
      (frame_setSeq _ _ _ _).trans (frame_foldl (fun d k => ?_) _ _)
    split <;> simp
  case call => simp

@[simp] theorem frame_glkTake (d : Dev) (h m) : (d.glkTake h m).frame = d.frame := by
  unfold glkTake
  split <;> simp

@[simp] theorem frame_glkSnapshot (d : Dev) (h) : (d.glkSnapshot h).frame = d.frame := by simp [glkSnapshot]

@[simp] theorem frame_scopeGo (d : Dev) (h mode passive) : (d.scopeGo h mode passive).frame = d.frame := by simp [scopeGo]

@[simp] theorem frame_forwardAgain (d : Dev) (h) : (d.forwardAgain h).frame = d.frame := by simp [forwardAgain]

@[simp] theorem frame_sendForward (d : Dev) (h) : (d.sendForward h).frame = d.frame := by simp [sendForward]

@[simp] theorem frame_sendReport (d : Dev) (h asked) : (d.sendReport h asked).frame = d.frame := by simp [sendReport]

@[simp] theorem frame_sendUser (d : Dev) (h src) : (d.sendUser h src).frame = d.frame := by
  unfold sendUser
  split <;> simp

@[simp] theorem frame_sendRecords (d : Dev) (h) : (d.sendRecords h).frame = d.frame := by simp [sendRecords]

@[simp] theorem frame_sendTable (d : Dev) (h) : (d.sendTable h).frame = d.frame := by
  unfold sendTable
  split <;> simp

@[simp] theorem frame_sendTables (d : Dev) (h) : (d.sendTables h).frame = d.frame := by simp [sendTables]

@[simp] theorem frame_glkBoundary (d : Dev) (h user) : (d.glkBoundary h user).frame = d.frame := by
  unfold glkBoundary
  split
  · simp
  · extract_lets d1 arr works d2 d3 d4 asked d5 d6 d7
    have h1 : d1.frame = d.frame := by
      unfold d1
      split <;> simp
    have h2 : d2.frame = d1.frame := by simp [d2]
    have h3 : d3.frame = d2.frame := by
      refine (frame_ite ..).trans ?_
      rw [frame_foldl fun d m => by split <;> simp, ite_self]
    have h4 : d4.frame = d3.frame := by simp [d4]
    have h5 : d5.frame = d4.frame := by simp [d5]
    have h6 : d6.frame = d5.frame := by simp [d6]
    have h7 : d7.frame = d6.frame := by simp [d7]
    rw [frame_sendUser, h7, h6, h5, h4, h3, h2, h1]

@[simp] theorem frame_glkSecond (d : Dev) : d.glkSecond.frame = d.frame := by simp [glkSecond]

@[simp] theorem frame_modCyx (d : Dev) (h f) : (d.modCyx h f).frame = d.frame := by simp [modCyx]

@[simp] theorem frame_copyState (d : Dev) (b src dst) : (d.copyState b src dst).frame = d.frame := by simp [copyState]

@[simp] theorem frame_frcNamed (d : Dev) (was h i) : (d.frcNamed was h i).frame = d.frame := by simp [frcNamed]

@[simp] theorem frame_applyFrc (d : Dev) (h seq) : (d.applyFrc h seq).frame = d.frame := by simp [applyFrc]

@[simp] theorem frame_frcClrAll (d : Dev) (h w) : (d.frcClrAll h w).frame = d.frame := by simp [frcClrAll]

@[simp] theorem frame_laneSwap (d : Dev) : d.laneSwap.frame = d.frame := by simp [laneSwap]

@[simp] theorem frame_noteStations (d : Dev) (h) : (d.noteStations h).frame = d.frame := by simp [noteStations]

@[simp] theorem frame_cyxDone (d : Dev) (h c) : (d.cyxDone h c).frame = d.frame := by simp [cyxDone]

@[simp] theorem frame_cycleCtl (d : Dev) (h seq) : (d.cycleCtl h seq).frame = d.frame := by simp [cycleCtl]

@[simp] theorem frame_cycleShared (d : Dev) (h seq) : (d.cycleShared h seq).frame = d.frame := by simp [cycleShared]

@[simp] theorem frame_showBacklog (d : Dev) (h) : (d.showBacklog h).frame = d.frame := by simp [showBacklog]

@[simp] theorem frame_endCycle (d : Dev) (h us ns) : (d.endCycle h us ns).frame = d.frame := by simp [endCycle]

@[simp] theorem frame_cyxHalt (d : Dev) (h code) : (d.cyxHalt h code).frame = d.frame := by simp [cyxHalt]

@[simp] theorem frame_laneTable (d : Dev) (h) : (d.laneTable h).frame = d.frame := by simp [laneTable]

@[simp] theorem frame_showImage (d : Dev) (h) : (d.showImage h).frame = d.frame := by simp [showImage]

@[simp] theorem frame_cyxStop (d : Dev) (h) : (d.cyxStop h).frame = d.frame := by simp [cyxStop]

@[simp] theorem frame_setOlc (d : Dev) (h st reason) : (d.setOlc h st reason).frame = d.frame := by simp [setOlc]

@[simp] theorem frame_setIdle (d : Dev) (h i) : (d.setIdle h i).frame = d.frame := by simp [setIdle]

@[simp] theorem frame_showOlc (d : Dev) (h st reason) : (d.showOlc h st reason).frame = d.frame := by simp [showOlc]

@[simp] theorem frame_olcFail (d : Dev) (h why detail) : (d.olcFail h why detail).frame = d.frame := by simp [olcFail]

@[simp] theorem frame_olcLoad (d : Dev) (h) : (d.olcLoad h).frame = d.frame := by
  unfold olcLoad
  dsimp only
  split
  · simp
  · split
    · simp
    · split
      · simp
      · split
        · simp
        · split <;> simp

@[simp] theorem frame_dropForces (d : Dev) (h new_) : (d.dropForces h new_).1.frame = d.frame := by simp [dropForces]

@[simp] theorem frame_showLag (d : Dev) (h) : (d.showLag h).frame = d.frame := by
  unfold showLag
  split <;> simp

@[simp] theorem frame_voidSwitch (d : Dev) (h) : (d.voidSwitch h).frame = d.frame := by
  unfold voidSwitch
  split <;> simp

@[simp] theorem frame_takeCount (d : Dev) (h) : (d.takeCount h).frame = d.frame := by simp [takeCount]

@[simp] theorem frame_releaseOld (d : Dev) (h) : (d.releaseOld h).frame = d.frame := by simp [releaseOld]

@[simp] theorem frame_olcSwitch (d : Dev) (h) : (d.olcSwitch h).frame = d.frame := by simp [olcSwitch]

@[simp] theorem frame_tmcFind (d : Dev) (h id) : (d.tmcFind h id).frame = d.frame := by
  unfold tmcFind
  dsimp only
  split <;> simp

@[simp] theorem frame_modLe (d : Dev) (h : HalfId) (e : Nat) {f : Le → Le} (hf : ∀ x, (f x).loops.length = x.loops.length) :
    (d.modLe h e f).frame = d.frame := by simp [modLe, unitsOk_lmod_le _ _ _ _ _ hf]

@[simp] theorem frame_modLoop (d : Dev) (h e l f) : (d.modLoop h e l f).frame = d.frame := by simp [modLoop]

@[simp] theorem frame_keepTables (d : Dev) (h e) : (d.keepTables h e).frame = d.frame := by simp [keepTables]

@[simp] theorem frame_leFlags (d : Dev) (h e l bits) : (d.leFlags h e l bits).frame = d.frame := by simp [leFlags]

@[simp] theorem frame_putSec (d : Dev) (h e l s x) : (d.putSec h e l s x).frame = d.frame := by simp [putSec]

@[simp] theorem frame_lePlaus (d : Dev) (h e l) : (d.lePlaus h e l).frame = d.frame := by simp [lePlaus]

@[simp] theorem frame_leSup (d : Dev) (h e l start fb u) : (d.leSup h e l start fb u).frame = d.frame := by simp [leSup]

@[simp] theorem frame_lePreset (d : Dev) (h e l ff) : (d.lePreset h e l ff).frame = d.frame := by simp [lePreset]

@[simp] theorem frame_leTrack (d : Dev) (h e l) : (d.leTrack h e l).frame = d.frame := by simp [leTrack]

@[simp] theorem frame_leManual (d : Dev) (h e l start sp fb) : (d.leManual h e l start sp fb).frame = d.frame := by simp [leManual]

@[simp] theorem frame_leAuto (d : Dev) (h e l start sp fb ff) : (d.leAuto h e l start sp fb ff).frame = d.frame := by simp [leAuto]

@[simp] theorem frame_leSample (d : Dev) (d0 h e l) : (d.leSample d0 h e l).frame = d.frame := by simp [leSample]

@[simp] theorem frame_leLoop (d : Dev) (d0 h e l) : (d.leLoop d0 h e l).frame = d.frame := by simp [leLoop]

@[simp] theorem frame_leRun (d : Dev) (d0 h e) : (d.leRun d0 h e).frame = d.frame := by simp [leRun]

@[simp] theorem frame_leRunAll (d : Dev) (h) : (d.leRunAll h).frame = d.frame := by simp [leRunAll]

@[simp] theorem frame_leUnraise (d : Dev) (h e late) : (d.leUnraise h e late).frame = d.frame := by simp [leUnraise]

@[simp] theorem frame_leUntrack (d : Dev) (h e l) : (d.leUntrack h e l).frame = d.frame := by
  unfold leUntrack
  dsimp only
  split <;> simp

@[simp] theorem frame_leLate (d : Dev) (h e k) : (d.leLate h e k).frame = d.frame := by simp [leLate]

@[simp] theorem frame_leAdvance (d : Dev) (p) : (d.leAdvance p).frame = d.frame := by simp [leAdvance]

@[simp] theorem frame_tblWrite (d : Dev) (h e v) : (d.tblWrite h e v).frame = d.frame := by simp [tblWrite]

@[simp] theorem frame_tblRead (d : Dev) (h e) : (d.tblRead h e).frame = d.frame := by simp [tblRead]

@[simp] theorem frame_unstable (d : Dev) (was h e) : (d.unstable was h e).frame = d.frame := by
  unfold unstable
  dsimp only
  split <;> simp

@[simp] theorem frame_applyLe (d : Dev) (h e) : (d.applyLe h e).frame = d.frame := by simp [applyLe]

@[simp] theorem frame_abortLe (d : Dev) (h e) : (d.abortLe h e).frame = d.frame := by simp [abortLe]

@[simp] theorem frame_modWeir (d : Dev) (f) : (d.modWeir f).frame = d.frame := by simp [modWeir]

@[simp] theorem frame_exportFrames (d : Dev) (h) : (d.exportFrames h).frame = d.frame := by simp [exportFrames]

@[simp] theorem frame_servoApply (d : Dev) (h) : (d.servoApply h).frame = d.frame := by simp [servoApply]

@[simp] theorem frame_servoPos (d : Dev) (h) : (d.servoPos h).frame = d.frame := by simp [servoPos]

@[simp] theorem frame_servoRun (d : Dev) (h) : (d.servoRun h).frame = d.frame := by
  simp only [servoRun, frame_foldl, frame_daxServo, frame_leRunAll, frame_drvCheck, frame_sepClose, frame_mpgServo, frame_sepTake, frame_makeRes, frame_swShow, implies_true]

@[simp] theorem frame_proofExport (d : Dev) (h) : (d.proofExport h).frame = d.frame := by
  unfold proofExport
  split <;> simp

@[simp] theorem frame_coldIntent (d : Dev) (h) : (d.coldIntent h).frame = d.frame := by simp [coldIntent]

@[simp] theorem frame_applyOf (d : Dev) (p h bnd seq) : (d.applyOf p h bnd seq).frame = d.frame := by
  unfold applyOf
  split
  · simp
  · split <;> simp

@[simp] theorem frame_modStore (d : Dev) {f : Store → Store} (hf : ∀ x, (f x).areas.length = x.areas.length) : (d.modStore f).frame = d.frame := by
  simp [modStore, hf]

@[simp] theorem frame_cfgShow (d : Dev) : d.cfgShow.frame = d.frame := by simp [cfgShow]

@[simp] theorem frame_cfgRefuse (d : Dev) (why) : (d.cfgRefuse why).frame = d.frame := by simp [cfgRefuse]

@[simp] theorem frame_cfgNote (d : Dev) (w op before) : (d.cfgNote w op before).frame = d.frame := by simp [cfgNote]

@[simp] theorem frame_cfgSave (d : Dev) (w) : (d.cfgSave w).frame = d.frame := by simp [cfgSave]

@[simp] theorem frame_cfgCycle (d : Dev) (h) : (d.cfgCycle h).frame = d.frame := by simp [cfgCycle]

@[simp] theorem frame_cfgCapture (d : Dev) : d.cfgCapture.frame = d.frame := by
  unfold cfgCapture
  split <;> simp

@[simp] theorem frame_cfgDone (d : Dev) (ok) : (d.cfgDone ok).frame = d.frame := by
  unfold cfgDone
  split <;> simp

@[simp] theorem frame_abortCfg (d : Dev) : d.abortCfg.frame = d.frame := by simp [abortCfg]

@[simp] theorem frame_cfgRevert (d : Dev) (w) : (d.cfgRevert w).frame = d.frame := by
  unfold cfgRevert
  dsimp only
  split <;> simp

@[simp] theorem frame_cfgFactory (d : Dev) (w) : (d.cfgFactory w).frame = d.frame := by simp [cfgFactory]

@[simp] theorem frame_cfgCmd (d : Dev) (w op) : (d.cfgCmd w op).frame = d.frame := by
  unfold cfgCmd
  split <;> simp

@[simp] theorem frame_cfgRead (d : Dev) : d.cfgRead.frame = d.frame := frame_congr rfl rfl rfl rfl rfl

@[simp] theorem frame_cfgPage (d : Dev) (g h p) : (d.cfgPage g h p).frame = d.frame := by simp [cfgPage]

@[simp] theorem frame_cfgHalf (d : Dev) (h) : (d.cfgHalf h).frame = d.frame := by
  unfold cfgHalf
  split <;> simp

@[simp] theorem frame_cfgBoot (d : Dev) (h) : (d.cfgBoot h).frame = d.frame := by
  unfold cfgBoot
  dsimp only
  split <;> simp

@[simp] theorem frame_modSilt (d : Dev) {f : Silt → Silt} (h1 : ∀ x, (f x).cursors.length = x.cursors.length)
    (h2 : ∀ x, (f x).copying.length = x.copying.length) (h3 : ∀ x, (f x).exps.length = x.exps.length) : (d.modSilt f).frame = d.frame := by
  simp [modSilt, h1, h2, h3]

@[simp] theorem frame_siltLevel (d : Dev) : d.siltLevel.frame = d.frame := by simp [siltLevel]

@[simp] theorem frame_sltRing (d : Dev) : d.sltRing.frame = d.frame := by simp [sltRing]

@[simp] theorem frame_siltSeal (d : Dev) (flags) : (d.siltSeal flags).frame = d.frame := by simp [siltSeal]

@[simp] theorem frame_siltStream (d : Dev) (n bs) : (d.siltStream n bs).frame = d.frame := by
  induction n generalizing d bs with
  | zero => rfl
  | succ n ih => simp [siltStream, ih]

@[simp] theorem frame_siltAppend (d : Dev) (r) : (d.siltAppend r).frame = d.frame := by simp [siltAppend]

@[simp] theorem frame_siltWrite (d : Dev) : d.siltWrite.frame = d.frame := by
  unfold siltWrite
  dsimp only
  split
  · rfl
  · rw [frame_ite, frame_siltAppend, frame_lose, ite_self, frame_put]
    refine frame_modSilt _ (fun s => ?_) (fun s => ?_) (fun s => ?_) <;> split <;> rfl

@[simp] theorem frame_siltNote (d : Dev) (code words) : (d.siltNote code words).frame = d.frame := by simp [siltNote]

@[simp] theorem frame_siltLossEnd (d : Dev) (prot) : (d.siltLossEnd prot).frame = d.frame := by
  unfold siltLossEnd
  dsimp only
  split
  · simp
  · split <;> simp

@[simp] theorem frame_pageFails (d : Dev) (q) : (d.pageFails q).frame = d.frame := by simp [pageFails]

@[simp] theorem frame_siltRetire (d : Dev) (block first last) : (d.siltRetire block first last).frame = d.frame := by simp [siltRetire]

@[simp] theorem frame_sltPostGo (d : Dev) (w) : (d.sltPostGo w).frame = d.frame := by simp [sltPostGo]

@[simp] theorem frame_sltPostDone (d : Dev) (g) : (d.sltPostDone g).frame = d.frame := by
  unfold sltPostDone
  split <;> simp

@[simp] theorem frame_sltShow (d : Dev) (g e) : (d.sltShow g e).frame = d.frame := by simp [sltShow]

@[simp] theorem frame_sltFound (d : Dev) (g e) : (d.sltFound g e).frame = d.frame := by
  unfold sltFound
  split <;> simp

@[simp] theorem frame_sltStep (d : Dev) (g es) : (d.sltStep g es).frame = d.frame := by
  unfold sltStep
  dsimp only
  split
  · simp
  · split <;> simp

@[simp] theorem frame_sltRdData (d : Dev) (g) : (d.sltRdData g).frame = d.frame := by simp [sltRdData]

@[simp] theorem frame_sltCapture (d : Dev) : d.sltCapture.frame = d.frame := by simp [sltCapture]

@[simp] theorem frame_sltExport (d : Dev) (g addr pseq n) : (d.sltExport g addr pseq n).frame = d.frame := by simp [sltExport]

@[simp] theorem frame_sltVerify (d : Dev) (pseq n) : (d.sltVerify pseq n).frame = d.frame := by simp [sltVerify]

@[simp] theorem frame_sltVerifyDone (d : Dev) : d.sltVerifyDone.frame = d.frame := by
  unfold sltVerifyDone
  dsimp only
  split
  · simp
  · split <;> simp

@[simp] theorem frame_sltShowNonce (d : Dev) : d.sltShowNonce.frame = d.frame := by simp [sltShowNonce]

@[simp] theorem frame_sltNonce (d : Dev) : d.sltNonce.frame = d.frame := by simp [sltNonce]

@[simp] theorem frame_sltNonceEnd (d : Dev) : d.sltNonceEnd.frame = d.frame := by simp [sltNonceEnd]

@[simp] theorem frame_siltErase (d : Dev) (all bound key serial mid priv) : (d.siltErase all bound key serial mid priv).frame = d.frame := by simp [siltErase]

@[simp] theorem frame_sltClear (d : Dev) (w) : (d.sltClear w).frame = d.frame := by
  unfold sltClear
  split <;> simp

@[simp] theorem frame_sltClearDone (d : Dev) : d.sltClearDone.frame = d.frame := by simp [sltClearDone]

@[simp] theorem frame_hlfTo (d : Dev) (h st cause) : (d.hlfTo h st cause).frame = d.frame := by simp [hlfTo]

@[simp] theorem frame_showLease (d : Dev) : d.showLease.frame = d.frame := by simp [showLease]

@[simp] theorem frame_frcGone (d : Dev) (hs) : (d.frcGone hs).frame = d.frame := by simp [frcGone]

@[simp] theorem frame_frcNote (d : Dev) (h) : (d.frcNote h).frame = d.frame := by simp [frcNote]

@[simp] theorem frame_proofLost (d : Dev) : d.proofLost.frame = d.frame := by simp [proofLost]

@[simp] theorem frame_leaseInvalid (d : Dev) : d.leaseInvalid.frame = d.frame := by simp [leaseInvalid]

@[simp] theorem frame_goStale (d : Dev) (h cause) : (d.goStale h cause).frame = d.frame := by simp [goStale]

@[simp] theorem frame_scopeInit (d : Dev) (h) : (d.scopeInit h).frame = d.frame := by simp [scopeInit]

@[simp] theorem frame_repairEnter (d : Dev) (h cause) : (d.repairEnter h cause).frame = d.frame := by simp [repairEnter]

@[simp] theorem frame_coldMpg (d : Dev) (h n) : (d.coldMpg h n).frame = d.frame := by simp [coldMpg]

@[simp] theorem frame_coldBlocks (d : Dev) (h) : (d.coldBlocks h).frame = d.frame := by simp [coldBlocks]

@[simp] theorem frame_showTake (d : Dev) (w cold gap) : (d.showTake w cold gap).frame = d.frame := by simp [showTake]

@[simp] theorem frame_noHold (d : Dev) : d.noHold.frame = d.frame := by simp [noHold]

@[simp] theorem frame_disagreeItem (d : Dev) (h i) : (d.disagreeItem h i).frame = d.frame := by simp [disagreeItem]

@[simp] theorem frame_disJudge (d : Dev) (h) : (d.disJudge h).frame = d.frame := by simp [disJudge]

@[simp] theorem frame_cycCompare (d : Dev) (h) : (d.cycCompare h).frame = d.frame := by
  unfold cycCompare
  dsimp only
  split
  · simp
  · split <;> simp

@[simp] theorem frame_lagJudge (d : Dev) (h) : (d.lagJudge h).frame = d.frame := by simp [lagJudge]

@[simp] theorem frame_resync (d : Dev) (h) : (d.resync h).frame = d.frame := by simp [resync]

@[simp] theorem frame_swapShow (d : Dev) (st why) : (d.swapShow st why).frame = d.frame := by simp [swapShow]

@[simp] theorem frame_swap (d : Dev) (h) : (d.swap h).frame = d.frame := by simp [swap]

@[simp] theorem frame_swapRelease (d : Dev) (h) : (d.swapRelease h).frame = d.frame := by simp [swapRelease]

@[simp] theorem frame_proofDone (d : Dev) : d.proofDone.frame = d.frame := by
  unfold proofDone
  split <;> simp

@[simp] theorem frame_swapCancel (d : Dev) (h) : (d.swapCancel h).frame = d.frame := by simp [swapCancel]

@[simp] theorem frame_proofDue (d : Dev) (h) : (d.proofDue h).frame = d.frame := by simp [proofDue]

@[simp] theorem frame_proofHour (d : Dev) : d.proofHour.frame = d.frame := by simp [proofHour]

@[simp] theorem frame_peerRefuse (d : Dev) (h) : (d.peerRefuse h).frame = d.frame := by simp [peerRefuse]

@[simp] theorem frame_releasePeer (d : Dev) (h) : (d.releasePeer h).frame = d.frame := by simp [releasePeer]

@[simp] theorem frame_hlfCmd (d : Dev) (h op) : (d.hlfCmd h op).frame = d.frame := by
  unfold hlfCmd
  split <;> simp

@[simp] theorem frame_autoRejoin (d : Dev) (h clockOk) : (d.autoRejoin h clockOk).frame = d.frame := by simp [autoRejoin]

@[simp] theorem frame_sbkEntry (d : Dev) (h kind cause unit spare) : (d.sbkEntry h kind cause unit spare).frame = d.frame := by simp [sbkEntry]

@[simp] theorem frame_sbkUnit (d : Dev) (h kind cause unit for_ failed map spare) : (d.sbkUnit h kind cause unit for_ failed map spare).1.frame = d.frame := by
  unfold sbkUnit
  dsimp only
  split
  · simp
  · split <;> simp

@[simp] theorem frame_sbkSpareRow (d : Dev) (h cause spare) : (d.sbkSpareRow h cause spare).1.frame = d.frame := by
  unfold sbkSpareRow
  dsimp only
  split
  · simp
  · split <;> simp

@[simp] theorem frame_sbkRow (d : Dev) (h cause row) : (d.sbkRow h cause row).1.frame = d.frame := by
  unfold sbkRow
  dsimp only
  split
  · simp
  · split
    · simp
    · split <;> simp

@[simp] theorem frame_sbkFail (d : Dev) (h kind cause unit) : (d.sbkFail h kind cause unit).1.frame = d.frame := by
  unfold sbkFail
  split <;> simp

@[simp] theorem frame_linkTrain (d : Dev) : d.linkTrain.frame = d.frame := by simp [linkTrain]

@[simp] theorem frame_sramErr (d : Dev) (h addr ue) : (d.sramErr h addr ue).frame = d.frame := by simp [sramErr]

@[simp] theorem frame_sramFound (d : Dev) (h addr ue) : (d.sramFound h addr ue).frame = d.frame := by simp [sramFound]

@[simp] theorem frame_mramErr (d : Dev) (off ue) : (d.mramErr off ue).frame = d.frame := by
  unfold mramErr
  dsimp only
  split
  · rw [frame_fault, frame_memLog, frame_put, frame_put, frame_bump]
  · rw [frame_memLog, frame_bump]

@[simp] theorem frame_ringPages (d : Dev) (ps) : (d.ringPages ps).2.frame = d.frame := by
  unfold ringPages
  split <;> simp

@[simp] theorem frame_mramFound (d : Dev) (off ue pages) : (d.mramFound off ue pages).frame = d.frame := by
  simp only [mramFound, frame_ite, frame_put, frame_note, frame_err, frame_siltRetire, frame_ringPages, frame_memLog, frame_mramErr, ite_self]

@[simp] theorem frame_packetFail (d : Dev) (h e) : (d.packetFail h e).frame = d.frame := by
  unfold packetFail
  split
  · simp
  · split <;> simp

@[simp] theorem frame_modEnc (d : Dev) {f : Enc → Enc} (h1 : ∀ x, (f x).nonce.length = x.nonce.length) (h2 : ∀ x, (f x).refused.length = x.refused.length)
    (h3 : ∀ x, (f x).withheld.length = x.withheld.length) (h4 : ∀ x, (f x).authKey.length = x.authKey.length) : (d.modEnc f).frame = d.frame := by
  simp [modEnc, h1, h2, h3, h4]

@[simp] theorem frame_put128 (d : Dev) (f g v) : (d.put128 f g v).frame = d.frame := by simp [put128]

@[simp] theorem frame_encEnd (d : Dev) (g why) : (d.encEnd g why).frame = d.frame := by
  unfold encEnd
  dsimp only
  split <;> simp

@[simp] theorem frame_encPriv (d : Dev) (w op) : (d.encPriv w op).frame = d.frame := by simp [encPriv]

@[simp] theorem frame_encOne (d : Dev) (w) (f : Dev → Dev) (hf : ∀ d, (f d).frame = d.frame) : (d.encOne w f).frame = d.frame := by
  unfold encOne
  split
  · exact hf d
  · simp

@[simp] theorem frame_setNonce (d : Dev) (g n) : (d.setNonce g n).frame = d.frame := by simp [setNonce]

@[simp] theorem frame_fresh128 (d : Dev) : d.fresh128.2.frame = d.frame := by simp [fresh128]

@[simp] theorem frame_encNonce (d : Dev) (w) : (d.encNonce w).frame = d.frame := by simp [encNonce]

@[simp] theorem frame_encNote (d : Dev) (w code detail words) : (d.encNote w code detail words).frame = d.frame := by simp [encNote]

@[simp] theorem frame_authClose (d : Dev) (g) : (d.authClose g).frame = d.frame := by simp [authClose]

@[simp] theorem frame_authCloseAll (d : Dev) : d.authCloseAll.frame = d.frame := by simp [authCloseAll]

@[simp] theorem frame_authOpen (d : Dev) (w role secs key) : (d.authOpen w role secs key).frame = d.frame := by simp [authOpen]

@[simp] theorem frame_showSlots (d : Dev) : d.showSlots.frame = d.frame := by simp [showSlots]

@[simp] theorem frame_showKeys (d : Dev) : d.showKeys.frame = d.frame := by simp [showKeys]

@[simp] theorem frame_zeroise (d : Dev) : d.zeroise.frame = d.frame := by simp [zeroise]

@[simp] theorem frame_lifeTo (d : Dev) (st) : (d.lifeTo st).frame = d.frame := by simp [lifeTo]

@[simp] theorem frame_tokenDrop (d : Dev) (g) : (d.tokenDrop g).frame = d.frame := by simp [tokenDrop]

@[simp] theorem frame_tokDo (d : Dev) (w t) : (d.tokDo w t).frame = d.frame := by
  unfold tokDo
  split <;> simp

@[simp] theorem frame_encPresent (d : Dev) (w) : (d.encPresent w).frame = d.frame := by
  unfold encPresent
  refine frame_encOne _ _ _ fun d => ?_
  dsimp only
  split
  · rw [frame_encEnd, frame_stat, frame_tokenDrop, frame_modEnc, frame_encNote]
    all_goals intro x
    all_goals simp [apply_ite List.length]
  · simp

@[simp] theorem frame_presentKind (d : Dev) (w kind) : (d.presentKind w kind).frame = d.frame := by simp [presentKind]

@[simp] theorem frame_putReport (d : Dev) (g ws) : (d.putReport g ws).frame = d.frame := by simp [putReport]

@[simp] theorem frame_encBusy (d : Dev) (g j) : (d.encBusy g j).frame = d.frame := by simp [encBusy]

@[simp] theorem frame_encAttest (d : Dev) (w) : (d.encAttest w).frame = d.frame := by simp [encAttest]

@[simp] theorem frame_attestDone (d : Dev) : d.attestDone.frame = d.frame := by
  unfold attestDone
  split <;> simp

@[simp] theorem frame_encCert (d : Dev) (w) : (d.encCert w).frame = d.frame := by simp [encCert]

@[simp] theorem frame_repRead (d : Dev) (g) : (d.repRead g).frame = d.frame := frame_congr rfl rfl rfl rfl rfl

@[simp] theorem frame_tokWrite (d : Dev) (g v) : (d.tokWrite g v).frame = d.frame := by simp [tokWrite]

@[simp] theorem frame_slotMark (d : Dev) (s bad) : (d.slotMark s bad).frame = d.frame := by simp [slotMark]

@[simp] theorem frame_encInstall (d : Dev) (w) : (d.encInstall w).frame = d.frame := by
  unfold encInstall
  dsimp only
  split
  · simp
  · refine frame_encOne _ _ _ fun d => ?_
    split
    · simp
    · split
      · simp
      · split <;> simp

@[simp] theorem frame_acceptVersion (d : Dev) (w) : (d.acceptVersion w).frame = d.frame := by simp [acceptVersion]

@[simp] theorem frame_encClose (d : Dev) (w) : (d.encClose w).frame = d.frame := by simp [encClose]

@[simp] theorem frame_abortEnc (d : Dev) : d.abortEnc.frame = d.frame := by
  unfold abortEnc
  split <;> simp

@[simp] theorem frame_encCmd (d : Dev) (w op) : (d.encCmd w op).frame = d.frame := by
  unfold encCmd
  split <;> simp

@[simp] theorem frame_deviceSafe (d : Dev) : d.deviceSafe.frame = d.frame := by simp [deviceSafe]

@[simp] theorem frame_tamper (d : Dev) (sensor) : (d.tamper sensor).frame = d.frame := by simp [tamper]

@[simp] theorem frame_hstCount (d : Dev) : d.hstCount.frame = d.frame := by simp [hstCount]

@[simp] theorem frame_hstProto (d : Dev) (addr) : (d.hstProto addr).frame = d.frame := by simp [hstProto]

@[simp] theorem frame_hstStatus (d : Dev) : d.hstStatus.frame = d.frame := by
  unfold hstStatus
  dsimp only
  split
  · rfl
  · rw [frame_resp, frame_put, frame_put, frame_hstCount]

@[simp] theorem frame_hstReset (d : Dev) : d.hstReset.frame = d.frame := by simp [hstReset]

@[simp] theorem frame_bootFail (d : Dev) (why) : (d.bootFail why).frame = d.frame := by simp [bootFail]

@[simp] theorem frame_bootRestart (d : Dev) : d.bootRestart.frame = d.frame := by simp [bootRestart]

@[simp] theorem frame_bootIdle (d : Dev) : d.bootIdle.frame = d.frame := by simp [bootIdle]

@[simp] theorem frame_modBoot (d : Dev) (f) : (d.modBoot f).frame = d.frame := by simp [modBoot]

@[simp] theorem frame_vinMv (d : Dev) (i mv) : (d.vinMv i mv).frame = d.frame := by simp [vinMv]

@[simp] theorem frame_pwrNote (d : Dev) (code i) : (d.pwrNote code i).frame = d.frame := by simp [pwrNote]

@[simp] theorem frame_pwrRaise (d : Dev) {f : Dev → Dev} (hf : ∀ d, (f d).frame = d.frame) : (d.pwrRaise f).frame = d.frame := by
  simp [pwrRaise, hf]

@[simp] theorem frame_inputRise (d : Dev) (i mv) : (d.inputRise i mv).frame = d.frame := by
  simp [inputRise]

@[simp] theorem frame_inputLow (d : Dev) (i mv) : (d.inputLow i mv).frame = d.frame := by simp [inputLow]

@[simp] theorem frame_plateTemp (d : Dev) (t) : (d.plateTemp t).frame = d.frame := by simp [plateTemp]

@[simp] theorem frame_halfRelease (d : Dev) (h) : (d.halfRelease h).frame = d.frame := by simp [halfRelease]

@[simp] theorem frame_powerGood (d : Dev) : d.powerGood.frame = d.frame := by simp [powerGood]

@[simp] theorem frame_failWarn (d : Dev) : d.failWarn.frame = d.frame := by simp [failWarn]

@[simp] theorem frame_sbkReplay (d : Dev) (h e) : (d.sbkReplay h e).frame = d.frame := by
  unfold sbkReplay
  split <;> simp

@[simp] theorem frame_sbkRebuild (d : Dev) (h) : (d.sbkRebuild h).frame = d.frame := by simp [sbkRebuild]

@[simp] theorem frame_sbkCopies (d : Dev) (ok1 ok2) : (d.sbkCopies ok1 ok2).frame = d.frame := by simp [sbkCopies]

@[simp] theorem frame_mcolFail (d : Dev) (col) : (d.mcolFail col).frame = d.frame := by simp [mcolFail]

@[simp] theorem frame_zeroisedGo (d : Dev) : d.zeroisedGo.frame = d.frame := by simp [zeroisedGo]

@[simp] theorem frame_bootSlot (d : Dev) (src) : (d.bootSlot src).frame = d.frame := by
  unfold bootSlot
  dsimp only
  split <;> simp

@[simp] theorem frame_bootChoose (d : Dev) : d.bootChoose.frame = d.frame := by simp [bootChoose]

@[simp] theorem frame_strapSample (d : Dev) (straps) : (d.strapSample straps).frame = d.frame := by simp [strapSample]

@[simp] theorem frame_strapLive (d : Dev) (live) : (d.strapLive live).frame = d.frame := by simp [strapLive]

@[simp] theorem frame_countDown (d : Dev) (p f t) : (d.countDown p f t).frame = d.frame := by simp [countDown]

@[simp] theorem frame_rejoinShow (d : Dev) : d.rejoinShow.frame = d.frame := by simp [rejoinShow]

@[simp] theorem frame_second (d : Dev) : d.second.frame = d.frame := by simp [second]

@[simp] theorem frame_aoTick (d : Dev) : d.aoTick.frame = d.frame := by simp [aoTick]

@[simp] theorem frame_proofMissed (d : Dev) : d.proofMissed.frame = d.frame := by
  unfold proofMissed
  split <;> simp

@[simp] theorem frame_leaseTick (d : Dev) : d.leaseTick.frame = d.frame := by simp [leaseTick]

@[simp] theorem frame_txbWrite (d : Dev) (p c f i v) : (d.txbWrite p c f i v).frame = d.frame := by simp [txbWrite]

@[simp] theorem frame_lrnWrite (d : Dev) (h run data) : (d.lrnWrite h run data).frame = d.frame := by simp [lrnWrite]

@[simp] theorem frame_curCmd (d : Dev) (g op) : (d.curCmd g op).frame = d.frame := by
  unfold curCmd
  split <;> simp

@[simp] theorem frame_refresh (d : Dev) (p) : (d.refresh p).frame = d.frame := by
  unfold refresh
  split <;> simp

@[simp] theorem frame_portRead (d : Dev) (w p off) : (d.portRead w p off).frame = d.frame := by
  unfold portRead
  split <;> simp

@[simp] theorem frame_ans (d : Dev) (ws) : (d.ans ws).frame = d.frame := by simp [ans]

@[simp] theorem frame_nak (d : Dev) (ws code) : (d.nak ws code).frame = d.frame := by simp [nak]

@[simp] theorem frame_busErr (d : Dev) (ws code) : (d.busErr ws code).frame = d.frame := by simp [busErr]

@[simp] theorem frame_refuseW (d : Dev) (w p code a v) : (d.refuseW w p code a v).frame = d.frame := by simp [refuseW]

@[simp] theorem frame_refuseBad (d : Dev) (w a v) : (d.refuseBad w a v).frame = d.frame := by simp [refuseBad]

@[simp] theorem frame_immEvent (d : Dev) (p) : (d.immEvent p).frame = d.frame := by simp [immEvent]

@[simp] theorem frame_freshWords (d : Dev) (k) : (freshWords k d).2.frame = d.frame := by
  induction k generalizing d with
  | zero => rfl
  | succ k ih => exact (ih _).trans (frame_fresh d)

@[simp] theorem frame_siltPost (d : Dev) (src page mid priv cls code detail payload) : (d.siltPost src page mid priv cls code detail payload).frame = d.frame := by simp [siltPost]

/-! #### Operations that write memory, hand a servo state on, abort, fence or reset -/

@[simp] theorem ok_fencing (d : Dev) (x y) : ({ d with fenced := x, aborting := y } : Dev).frame.ok = d.frame.ok := by
  rw [frame_eq, frame_eq, Frame.ok, Frame.ok]
  rfl

@[simp] theorem ok_tick {d : Dev} (hd : d.frame.ok = true) : d.tick.frame.ok = true := by
  unfold tick
  split
  · split <;> simp [hd]
  · have h1 : ({ d with aborting := [] } : Dev).frame.ok = true := (ok_fencing d d.fenced []).trans hd
    dsimp only
    split <;> simp [h1]

@[simp] theorem ok_abortWait {d : Dev} (hd : d.frame.ok = true) (p) : (d.abortWait p).2.frame.ok = true := by
  unfold abortWait
  split
  · dsimp only
    split
    · simp [hd]
    · exact (ok_fencing _ d.fresh.2.fenced _).trans (by simp [hd])
  · exact hd


/-- What soundness says of one half. -/
theorem ok_half {d : Dev} (hd : d.frame.ok = true) (h : HalfId) :
    (d.half h).shaped (d.hlf h) = true ∧ Memory.wf (d.half h).sram = true := by
  simp only [ok_eq_sound, sound, memWf, shaped, Bool.and_eq_true] at hd
  cases h
  · exact ⟨by simp [half, hlf, hd], by simp [half, hd]⟩
  · exact ⟨by simp [half, hlf, hd], by simp [half, hd]⟩

theorem ok_mramWf {d : Dev} (hd : d.frame.ok = true) : Memory.wf d.mram = true := by
  simp only [ok_eq_sound, sound, memWf, Bool.and_eq_true] at hd
  exact hd.1.1.1

/-- The lists of Silt, the clock and the safety region that a reset of their block writes anew. -/
theorem ok_lengths {d : Dev} (hd : d.frame.ok = true) : d.silt.cursors.length = 4 ∧ d.silt.copying.length = 4 ∧ d.silt.exps.length = 4 ∧
    d.rtc.fired.length = 4 ∧ d.saf.sp.length = 4 ∧ d.saf.th.length = 4 := by
  simp only [ok_eq_sound, sound, shaped, Bool.and_eq_true, beq_iff_eq] at hd
  simp [hd]

theorem frame_modSaf_of {d : Dev} {f : Saf → Saf} (h1 : (f d.saf).sp.length = d.saf.sp.length) (h2 : (f d.saf).th.length = d.saf.th.length) :
    (d.modSaf f).frame = d.frame := frame_saf d h1 h2

theorem frame_modRtc_of {d : Dev} {f : Rtc → Rtc} (hf : (f d.rtc).fired.length = d.rtc.fired.length) : (d.modRtc f).frame = d.frame := frame_rtc d hf

theorem frame_modSilt_of {d : Dev} {f : Silt → Silt} (h1 : (f d.silt).cursors.length = d.silt.cursors.length)
    (h2 : (f d.silt).copying.length = d.silt.copying.length) (h3 : (f d.silt).exps.length = d.silt.exps.length) : (d.modSilt f).frame = d.frame :=
  frame_silt d h1 h2 h3

/-- What stands by page. -/
theorem ok_pages {d : Dev} (hd : d.frame.ok = true) (r s i f a b) :
    ({ d with regs := r, shadow := s, immCnt := i, fenced := f, aborting := a, badRegs := b } : Dev).frame.ok = true := by
  rw [ok_eq_sound] at hd ⊢
  exact hd

theorem ok_setHalf_of {d : Dev} (hd : d.frame.ok = true) {h : HalfId} {x : Half} (hx : x.shaped (d.hlf h) = true) (hm : Memory.wf x.sram = true) :
    (d.setHalf h x).frame.ok = true := by
  simp only [ok_eq_sound, sound, memWf, shaped, Bool.and_eq_true] at hd ⊢
  cases h
  · simp only [setHalf, hlf] at hx ⊢
    simp [hd, hx, hm]
  · simp only [setHalf, hlf] at hx ⊢
    simp [hd, hx, hm]

theorem ok_modHlf_of {d : Dev} (hd : d.frame.ok = true) {h : HalfId} {f : Hlf → Hlf} (hf : (d.half h).shaped (f (d.hlf h)) = true) :
    (d.modHlf h f).frame.ok = true := by
  simp only [ok_eq_sound, sound, memWf, shaped, Bool.and_eq_true] at hd ⊢
  cases h
  · simp only [modHlf, half, hlf] at hf ⊢
    simp [hd, hf]
  · simp only [modHlf, half, hlf] at hf ⊢
    simp [hd, hf]

/-- A half whose servo buffer is emptied is as sound as before. -/
theorem ok_modHlf_none {d : Dev} (hd : d.frame.ok = true) (h : HalfId) {f : Hlf → Hlf} (hf : ∀ x, (f x).servoBuf = none) : (d.modHlf h f).frame.ok = true := by
  refine ok_modHlf_of hd ?_
  have hs := (ok_half hd h).1
  simp only [Half.shaped, hf, Bool.and_true, Bool.and_eq_true] at hs ⊢
  exact hs.1

/-- The servo state that a sound half sends has an entry per unit. -/
theorem unitsOk_servoState {d : Dev} (hd : d.frame.ok = true) (h : HalfId) :
    unitsOk (d.servoState h).mpg (d.servoState h).le (d.servoState h).dax (d.servoState h).stp = true := by
  have hs := (ok_half hd h).1
  simp only [Half.shaped, Bool.and_eq_true] at hs
  simpa only [servoState] using hs.1.1.1.1.1

theorem ok_modHlf_some {d : Dev} (hd : d.frame.ok = true) (h : HalfId) {s : ServoState} (hs : unitsOk s.mpg s.le s.dax s.stp = true) :
    (d.modHlf h (fun x => { x with servoBuf := some s })).frame.ok = true := by
  refine ok_modHlf_of hd ?_
  have hhalf := (ok_half hd h).1
  simp only [Half.shaped, hs, Bool.and_true, Bool.and_eq_true] at hhalf ⊢
  exact hhalf.1

theorem ok_modHalf_sram {d : Dev} (hd : d.frame.ok = true) (h : HalfId) {f : List Host.Cell → List Host.Cell}
    (hf : ∀ m, Memory.wf m = true → Memory.wf (f m) = true) : (d.modHalf h (fun x => { x with sram := f x.sram })).frame.ok = true := by
  obtain ⟨hs, hm⟩ := ok_half hd h
  exact ok_setHalf_of hd hs (hf _ hm)

@[simp] theorem ok_setSram {d : Dev} (hd : d.frame.ok = true) (h : HalfId) {m : List Host.Cell} (hm : Memory.wf m = true) : (d.setSram h m).frame.ok = true :=
  ok_modHalf_sram hd h fun _ _ => hm

@[simp] theorem ok_sramPut {d : Dev} (hd : d.frame.ok = true) (h a w) : (d.sramPut h a w).frame.ok = true := by
  refine ok_modHalf_sram ?_ h fun m hm => Memory.wf_memPutWord a w hm
  cases h
  · exact ok_of (frame_modHlf (f := fun x => { x with bad := (d.sramBad .a).filter (fun b => b != a) }) d .a fun _ => rfl) hd
  · exact ok_of (frame_modHlf (f := fun x => { x with bad := (d.sramBad .b).filter (fun b => b != a) }) d .b fun _ => rfl) hd

@[simp] theorem ok_storeCopy {d : Dev} (hd : d.frame.ok = true) (i b) : (d.storeCopy i b).frame.ok = true :=
  ok_mram (fun hm => Memory.wf_memWrites _ _ hm) hd

theorem memWf_foldl {α : Type} {f : List Host.Cell → α → List Host.Cell} (hf : ∀ m x, Memory.wf m = true → Memory.wf (f m x) = true) (l : List α)
    {m : List Host.Cell} (hm : Memory.wf m = true) : Memory.wf (l.foldl f m) = true := by
  induction l generalizing m with
  | nil => exact hm
  | cons x xs ih => exact ih (hf m x hm)

/-- A stored cell of MRAM and what stands beside it. -/
theorem ok_mramLog {d : Dev} (hd : d.frame.ok = true) {m : List Host.Cell} (hm : Memory.wf m = true) (x) :
    ({ d with mram := m, mbad := x } : Dev).frame.ok = true :=
  ok_of (frame_memLog { d with mram := m } x d.mces d.remap d.remapBad) (ok_mram (fun _ => hm) hd)

theorem ok_both_of {d : Dev} {f : Dev → HalfId → Dev} (hf : ∀ d h, d.frame.ok = true → (f d h).frame.ok = true) (hd : d.frame.ok = true) : (d.both f).frame.ok = true :=
  hf _ _ (hf _ _ hd)

@[simp] theorem ok_mirDown {d : Dev} (hd : d.frame.ok = true) : d.mirDown.frame.ok = true := by
  unfold mirDown
  split
  · refine ok_both_of (fun d h hd => ?_) hd
    extract_lets p d1 d2 d3
    have h2 : d2.frame.ok = true := by simp [d2, d1, hd]
    have h3 : d3.frame.ok = true := ok_modHlf_none h2 h fun _ => rfl
    simp [h3]
  · exact hd

@[simp] theorem ok_servoMiss {d : Dev} (hd : d.frame.ok = true) (h) : (d.servoMiss h).frame.ok = true := by
  unfold servoMiss
  split
  · exact hd
  · extract_lets up d1
    have h1 : d1.frame.ok = true := ok_modHlf_none (by simp [hd]) h fun _ => rfl
    simp [h1]

@[simp] theorem ok_servoSend {d : Dev} (hd : d.frame.ok = true) (h) : (d.servoSend h).frame.ok = true := by
  unfold servoSend
  extract_lets o s r1 r2 n d1
  split
  · exact ok_modHlf_some (by simp [d1, r1, r2, hd]) o (unitsOk_servoState hd h)
  · exact hd

@[simp] theorem ok_loopLate {d : Dev} (hd : d.frame.ok = true) (h e k) : (d.loopLate h e k).frame.ok = true := by
  unfold loopLate
  extract_lets d1 st d2
  have h1 : d1.frame.ok = true := by simp [d1, hd]
  have h2 : d2.frame.ok = true := by
    unfold d2
    split
    · exact ok_modHlf_some h1 h.other (unitsOk_servoState h1 h)
    · exact h1
  simp [h2]

/-- The units of a half that takes a servo state are those of the state, its loops aside. -/
theorem unitsOk_takeServo {le : List Le} {s : ServoState} (hle : (le.length == 3 && le.all (fun e => e.loops.length == 32)) = true)
    (hs : unitsOk s.mpg s.le s.dax s.stp = true) :
    unitsOk s.mpg (le.mapIdx fun e y => { y with loops := (s.le.getD e y).loops, idx := (s.le.getD e y).idx, spd := (s.le.getD e y).spd }) s.dax s.stp =
      true := by
  simp only [unitsOk, Bool.and_eq_true, List.all_eq_true, List.length_mapIdx, List.mem_mapIdx] at hle hs ⊢
  refine ⟨⟨⟨⟨hs.1.1.1.1, hle.1⟩, ?_⟩, hs.1.2⟩, hs.2⟩
  rintro _ ⟨e, he, rfl⟩
  have hlen : e < s.le.length := by
    have h1 := hle.1
    have h2 := hs.1.1.1.2
    simp only [beq_iff_eq] at h1 h2
    omega
  rw [List.getD_eq_getElem _ _ hlen]
  have hloops := hs.1.1.2 s.le[e] (List.getElem_mem hlen)
  exact hloops

@[simp] theorem ok_takeServo {d : Dev} (hd : d.frame.ok = true) (h) {s : ServoState} (hs : unitsOk s.mpg s.le s.dax s.stp = true) : (d.takeServo h s).frame.ok = true := by
  unfold takeServo
  extract_lets d1 d2
  have h1 : d1.frame.ok = true := by simp [d1, hd]
  have h2 : d2.frame.ok = true := by
    obtain ⟨hshape, hm⟩ := ok_half h1 h
    refine ok_setHalf_of h1 ?_ hm
    simp only [Half.shaped, Bool.and_eq_true] at hshape ⊢
    obtain ⟨⟨⟨⟨⟨hu, hc⟩, hl⟩, hst⟩, hr⟩, hbuf⟩ := hshape
    refine ⟨⟨⟨⟨⟨unitsOk_takeServo ?_ hs, ?_⟩, hl⟩, hst⟩, hr⟩, hbuf⟩
    · simp only [unitsOk, Bool.and_eq_true] at hu ⊢
      exact ⟨hu.1.1.1.2, hu.1.1.2⟩
    · simpa only [List.length_mapIdx] using hc
  simp [h2]

/-- The servo state that waits at a sound half has an entry per unit. -/
theorem unitsOk_servoBuf {d : Dev} (hd : d.frame.ok = true) {h : HalfId} {s : ServoState} (hb : (d.hlf h).servoBuf = some s) :
    unitsOk s.mpg s.le s.dax s.stp = true := by
  have hs := (ok_half hd h).1
  simp only [Half.shaped, hb, Bool.and_eq_true] at hs
  exact hs.2

@[simp] theorem ok_servoReceive {d : Dev} (hd : d.frame.ok = true) (h) : (d.servoReceive h).frame.ok = true := by
  unfold servoReceive
  split
  · exact hd
  · rename_i s hb
    split
    · exact hd
    · extract_lets cmp own bad d1 d2
      have h1 : d1.frame.ok = true := by simp [d1, hd]
      have h2 : d2.frame.ok = true := ok_modHlf_none h1 h fun _ => rfl
      simp [ok_takeServo h2 h (unitsOk_servoBuf hd hb)]

@[simp] theorem ok_enterRun {d : Dev} (hd : d.frame.ok = true) (b) : (d.enterRun b).frame.ok = true := by
  unfold enterRun
  extract_lets p t ch d1 d2 none_ d3 d4 d5 d6 d7 d8 d9
  have h2 : d2.frame.ok = true := by simp [d2, d1, hd]
  have h3 : d3.frame.ok = true := by
    obtain ⟨-, -, -, -, hsp, hth⟩ := ok_lengths h2
    refine ok_of (frame_modSaf_of ?_ ?_) h2
    · exact hsp.symm
    · exact hth.symm
  simp [d9, d8, d7, d6, d5, d4, h3]

@[simp] theorem ok_abortPos {d : Dev} (hd : d.frame.ok = true) (h) : (d.abortPos h).frame.ok = true := by
  unfold abortPos
  extract_lets d1 d2
  have h1 : d1.frame.ok = true := by simp [d1, hd]
  have h2 : d2.frame.ok = true := by
    obtain ⟨hshape, hm⟩ := ok_half h1 h
    refine ok_setHalf_of h1 ?_ hm
    simp only [Half.shaped, Bool.and_eq_true] at hshape ⊢
    obtain ⟨⟨⟨⟨⟨hu, hc⟩, -⟩, hst⟩, hr⟩, hbuf⟩ := hshape
    exact ⟨⟨⟨⟨⟨hu, hc⟩, rfl⟩, hst⟩, hr⟩, hbuf⟩
  simp [h2]

@[simp] theorem ok_rtcLost {d : Dev} (hd : d.frame.ok = true) : d.rtcLost.frame.ok = true := by
  unfold rtcLost
  extract_lets p d1 d2 d3
  have h1 : d1.frame.ok = true := by
    rw [frame_calSync]
    have h0 : (d.put64 p RTC.NOW_LO RTC.NOW_HI 0).frame.ok = true := by simp [hd]
    obtain ⟨-, -, -, hfired, -, -⟩ := ok_lengths h0
    refine ok_of (frame_modRtc_of ?_) h0
    exact hfired.symm
  simp [d3, d2, h1]

@[simp] theorem ok_siltBoot {d : Dev} (hd : d.frame.ok = true) : d.siltBoot.frame.ok = true := by
  unfold siltBoot
  extract_lets d1 d2 d3 last
  have h1 : d1.frame.ok = true := by
    obtain ⟨hcur, hcopy, hexp, -⟩ := ok_lengths hd
    refine ok_of (frame_modSilt_of ?_ ?_ ?_) hd
    · exact hcur.symm
    · exact hcopy.symm
    · exact hexp.symm
  have h3 : d3.frame.ok = true := by simp [d3, d2, h1]
  split <;> simp [h3]

@[simp] theorem ok_abortSlt {d : Dev} (hd : d.frame.ok = true) : d.abortSlt.frame.ok = true := by
  unfold abortSlt
  extract_lets p d1 d2
  have h1 : d1.frame.ok = true := by
    obtain ⟨hcur, hcopy, hexp, -⟩ := ok_lengths hd
    refine ok_of (frame_modSilt_of rfl ?_ ?_) hd
    · exact hcopy.symm
    · exact hexp.symm
  simp [d2, h1]

@[simp] theorem ok_sltExportDone {d : Dev} (hd : d.frame.ok = true) (g) : (d.sltExportDone g).frame.ok = true := by
  unfold sltExportDone
  extract_lets p
  split
  · exact hd
  · extract_lets step d1
    have hstep (d : Dev) (i : Nat) (hd : d.frame.ok = true) : (step d i).frame.ok = true := by
      unfold step
      split
      · simp [hd]
      · split
        · simp [hd]
        · split
          · exact ok_of (frame_heal _ _ _) (ok_modHalf_sram hd _ fun m hm => Memory.wf_memWrites _ _ hm)
          · exact hd
    have h1 : d1.frame.ok = true := ok_foldl_of hstep _ (by simp [hd])
    simp [h1]

@[simp] theorem ok_halfReset {d : Dev} (hd : d.frame.ok = true) (h) : (d.halfReset h).frame.ok = true := by
  unfold halfReset
  extract_lets d1 d2 d3
  have h1 : d1.frame.ok = true := by simp [d1, hd]
  have h2 : d2.frame.ok = true := ok_pages h1 _ _ _ _ _ _
  have h3 : d3.frame.ok = true := by
    rw [frame_put]
    refine ok_setHalf_of h2 ?_ rfl
    have hs := (ok_half h2 h).1
    simp only [Half.shaped, Bool.and_eq_true] at hs ⊢
    exact ⟨by decide, hs.2⟩
  exact ok_modHlf_none h3 h fun _ => rfl

theorem wf_mramCopy {m : List Host.Cell} (hm : Memory.wf m = true) (src dst len : Nat) : Memory.wf (mramCopy m src dst len) = true :=
  memWf_foldl (fun _ _ h => Memory.wf_memWrite _ _ h) _ (Memory.wf_filter hm)

@[simp] theorem ok_installDone {d : Dev} (hd : d.frame.ok = true) (ok) : (d.installDone ok).frame.ok = true := by
  unfold installDone
  split
  · extract_lets d1 len d2 d3 good d4
    have h1 : d1.frame.ok = true := by simp [d1, hd]
    have h2 : d2.frame.ok = true := ok_mramLog h1 (wf_mramCopy (ok_mramWf h1) _ _ _) _
    have h4 : d4.frame.ok = true := by simp [d4, d3, h2]
    split <;> simp [h4, h2]
  · exact hd

@[simp] theorem ok_repartition {d : Dev} (hd : d.frame.ok = true) : d.repartition.frame.ok = true := by
  unfold repartition
  extract_lets n g old d1 d2 lo d3
  split
  · exact hd
  · have h2 : d2.frame.ok = true := by simp [d2, d1, hd]
    have h3 : d3.frame.ok = true := ok_mram Memory.wf_filter h2
    simp [h3]

@[simp] theorem ok_mramAccess {d : Dev} (hd : d.frame.ok = true) (w a wr n err) : (d.mramAccess w a wr n err).frame.ok = true := by
  unfold mramAccess
  extract_lets p off len zeros val no
  split
  · simp [no, hd]
  · split
    · simp [no, hd]
    · split
      · refine iteInduction (motive := fun e : Dev => e.frame.ok = true) (fun _ => by simp [hd]) fun _ => ?_
        exact ok_of (frame_ans _ _) (ok_mramLog hd (Memory.wf_memWrites _ _ (ok_mramWf hd)) _)
      · split <;> simp [hd]

@[simp] theorem ok_partReset {d : Dev} (hd : d.frame.ok = true) : d.partReset.frame.ok = true := by
  unfold partReset
  extract_lets d1 hlf0 enc0 saf0 d2 d3 d4 d5
  have h1 : d1.frame.ok = true := by simp [d1, hd]
  have h2 : d2.frame.ok = true := by
    simp only [ok_eq_sound, sound, memWf, shaped, Bool.and_eq_true] at h1 ⊢
    simp [d2, h1, hlf0, enc0, saf0, Half.shaped, Half.init, Hlf.init, unitsOk, Le.init, Pos.init, Shl.init, Glk.init, Enc.init, Saf.init, Memory.wf]
  have h3 : d3.frame.ok = true := by simp [d3, h2]
  have h4 : d4.frame.ok = true := by
    simp only [ok_eq_sound, sound, memWf, shaped, Bool.and_eq_true] at h3 ⊢
    simp [d4, h3]
  simp [d5, h4]

@[simp] theorem ok_safStart {d : Dev} (hd : d.frame.ok = true) (selfTest sw en) : (d.safStart selfTest sw en).frame.ok = true := by
  unfold safStart
  dsimp only
  split
  · simp [hd]
  · split
    · simp [hd]
    · split
      · simp [hd]
      · split
        · split <;> simp [hd]
        · split
          · split <;> simp [hd]
          · split <;> simp [hd]

@[simp] theorem ok_sealDone {d : Dev} (hd : d.frame.ok = true) : d.sealDone.frame.ok = true := by simp [sealDone, hd]

theorem wf_memPutBytes {m : List Host.Cell} (hm : Memory.wf m = true) (a bs) : Memory.wf (memPutBytes m a bs) = true := Memory.wf_memWrites _ _ hm

/-- A record of four words in SRAM. -/
theorem ok_sramPut_four {d : Dev} (hd : d.frame.ok = true) (h a0 w0 a1 w1 a2 w2 a3 w3) :
    ((((d.sramPut h a0 w0).sramPut h a1 w1).sramPut h a2 w2).sramPut h a3 w3).frame.ok = true :=
  ok_sramPut (ok_sramPut (ok_sramPut (ok_sramPut hd h a0 w0) h a1 w1) h a2 w2) h a3 w3

@[simp] theorem ok_submit {d : Dev} (hd : d.frame.ok = true) (h w0 w1 w2 w3) : (d.submit h w0 w1 w2 w3).frame.ok = true := by
  unfold submit
  extract_lets p n hd0 a d1
  split
  · exact hd
  · exact ok_of (frame_subHeadWrite _ h _) (ok_sramPut_four hd h _ w0 _ w1 _ w2 _ w3)

@[simp] theorem ok_postOne {d : Dev} (hd : d.frame.ok = true) (h r) : (d.postOne h r).frame.ok = true := by
  unfold postOne
  extract_lets p hd0 n a cl d1 d2
  have h1 : d1.frame.ok = true := by
    unfold d1
    split
    · simp [hd]
    · split
      · exact hd
      · exact ok_of (frame_put _ _ _ _ _ _) (ok_sramPut_four hd h _ _ _ _ _ _ _ _)
  have h2 : d2.frame.ok = true := by simp [d2, h1]
  clear_value cl
  split <;> simp [h1, h2]

@[simp] theorem ok_shlPublishOne {d : Dev} (hd : d.frame.ok = true) (h q) : (d.shlPublishOne h q).frame.ok = true := by
  unfold shlPublishOne
  extract_lets p was d1 d2 d3 d4
  split
  · exact hd
  · have h1 : d1.frame.ok = true := by simp [d1, hd]
    have h2 : d2.frame.ok = true := 
      ok_of (frame_modShl (f := fun x => { x with out := q.2 }) _ _ (fun _ => rfl) fun _ => rfl) (ok_foldl_of (fun _ r hd => ok_postOne hd h r) _ h1)
    have h3 : d3.frame.ok = true := by
      unfold d3
      split <;> simp [h2]
    have h4 : d4.frame.ok = true := by simp [d4, h3]
    split <;> simp [h4]

/-- The tables of the active half stand at its mirroring standby too. -/
theorem ok_modShl_copy {d : Dev} (hd : d.frame.ok = true) (h o : HalfId) : (d.modShl o (fun _ => d.shl h)).frame.ok = true := by
  obtain ⟨hs, -⟩ := ok_half hd h
  obtain ⟨ho, hm⟩ := ok_half hd o
  refine ok_setHalf_of hd ?_ hm
  simp only [Half.shaped, Bool.and_eq_true] at hs ho ⊢
  obtain ⟨⟨⟨⟨⟨hu, hc⟩, hl⟩, -⟩, -⟩, hbuf⟩ := ho
  obtain ⟨⟨⟨-, hst⟩, hr⟩, -⟩ := hs
  exact ⟨⟨⟨⟨⟨hu, hc⟩, hl⟩, hst⟩, hr⟩, hbuf⟩

@[simp] theorem ok_shlPublish {d : Dev} (hd : d.frame.ok = true) (h) : (d.shlPublish h).frame.ok = true := by
  unfold shlPublish
  extract_lets o q x d1
  split
  · have h1 : d1.frame.ok = true := by simp [d1, x, ok_modShl_copy hd h o]
    exact ok_shlPublishOne (ok_shlPublishOne h1 h q) o q
  · split <;> simp [hd]

@[simp] theorem ok_shlPublishGrp {d : Dev} (hd : d.frame.ok = true) (h) : (d.shlPublishGrp h).frame.ok = true := by simp [shlPublishGrp, hd]

theorem wf_forceOne (d : Dev) (h i) {m : List Host.Cell} (hm : Memory.wf m = true) : Memory.wf (d.forceOne h i m) = true := by
  unfold forceOne
  dsimp only
  split
  · exact Memory.wf_memWrite _ _ hm
  iterate 4 exact wf_memPutBytes hm _ _
  · exact hm

@[simp] theorem ok_forceAll {d : Dev} (hd : d.frame.ok = true) (h) : (d.forceAll h).frame.ok = true :=
  ok_of (frame_heal _ h _) (ok_setSram hd h (memWf_foldl (fun _ i => wf_forceOne d h i) _ (ok_half hd h).2))

@[simp] theorem ok_copyInputs {d : Dev} (hd : d.frame.ok = true) (h) : (d.copyInputs h).frame.ok = true := by
  unfold copyInputs
  extract_lets pr l m0 m1 m2 m3 m4
  have h1 : Memory.wf m1 = true := by
    refine memWf_foldl (fun m r hm => ?_) _ (ok_half hd h).2
    split
    · exact wf_memPutBytes hm _ _
    · exact hm
  have h2 : Memory.wf m2 = true := memWf_foldl (fun _ _ hm => wf_memPutBytes hm _ _) _ h1
  have h3 : Memory.wf m3 = true := by
    refine memWf_foldl (fun m r hm => ?_) _ h2
    split
    · exact wf_memPutBytes hm _ _
    · exact hm
  have h4 : Memory.wf m4 = true := memWf_foldl (fun _ _ hm => wf_memPutBytes hm _ _) _ h3
  exact ok_of (frame_heal _ h _) (ok_setSram hd h h4)

theorem wf_run (c : Cell) (first dt) {m : List Host.Cell} (hm : Memory.wf m = true) : Memory.wf (c.run first dt m).2.2 = true := by
  unfold Cell.run
  extract_lets in_ r c' m1
  split
  · exact Memory.wf_memWrite _ _ hm
  · have h1 : Memory.wf m1 = true := Memory.wf_memWrite _ _ hm
    dsimp only
    split
    · exact h1
    · exact Memory.wf_memPutWord _ _ h1

theorem wf_runCells (first : Bool) (dt : Nat) (cs : List Cell) {m : List Host.Cell} (hm : Memory.wf m = true) :
    Memory.wf (runCells first dt cs m).2.2 = true := by
  induction cs generalizing m with
  | nil => exact hm
  | cons c cs ih => exact ih (wf_run c first dt hm)

@[simp] theorem ok_snapshotHalf {d : Dev} (hd : d.frame.ok = true) (h dt ns) : (d.snapshotHalf h dt ns).frame.ok = true := by
  unfold snapshotHalf
  extract_lets p d1 d2 first cs e t d3 d4 d5 err d6
  have h2 : d2.frame.ok = true := by simp [d2, d1, hd]
  have h3 : d3.frame.ok = true := by
    have ht : Memory.wf t.2.2 = true := wf_runCells _ _ _ (wf_runCells _ _ _ (ok_half h2 h).2)
    simp [d3, ok_setSram h2 h ht]
  have h6 : d6.frame.ok = true := by
    unfold d6
    split <;> simp [d5, d4, h3]
  simp [h6]

@[simp] theorem ok_snapshot {d : Dev} (hd : d.frame.ok = true) (h dt ns) : (d.snapshot h dt ns).frame.ok = true := by simp [snapshot, hd]

theorem wf_memClear {m : List Host.Cell} (hm : Memory.wf m = true) (a n) : Memory.wf (memClear m a n) = true := Memory.wf_filter hm

@[simp] theorem ok_fillSram {d : Dev} (hd : d.frame.ok = true) (h a n bs) : (d.fillSram h a n bs).frame.ok = true :=
  ok_of (frame_heal _ h _) (ok_setSram hd h (wf_memPutBytes (wf_memClear (ok_half hd h).2 a n) a _))

@[simp] theorem ok_rxLand {d : Dev} (hd : d.frame.ok = true) (h) : (d.rxLand h).frame.ok = true := by
  unfold rxLand
  split <;> simp [hd]

@[simp] theorem ok_sendState {d : Dev} (hd : d.frame.ok = true) (h st) : (d.sendState h st).frame.ok = true := by simp [sendState, hd]

theorem wf_initVars (pr : Program) (keep : Var → Bool) {m : List Host.Cell} (hm : Memory.wf m = true) : Memory.wf (initVars pr keep m) = true := by
  refine memWf_foldl (fun m e hm => ?_) _ hm
  split
  · split
    · exact hm
    · exact wf_memPutBytes hm _ _
  · exact hm

@[simp] theorem ok_startHalf {d : Dev} (hd : d.frame.ok = true) (h cold) : (d.startHalf h cold).frame.ok = true := by
  unfold startHalf
  extract_lets p
  split
  · exact hd
  · extract_lets m1 d1 d2 d3
    have hm : Memory.wf m1 = true := by
      unfold m1
      split
      · exact wf_memClear (wf_memClear (ok_half hd h).2 _ _) _ _
      · exact (ok_half hd h).2
    have h1 : d1.frame.ok = true := ok_of (frame_heal _ h _) (ok_setSram hd h (wf_initVars _ _ hm))
    have h2 : d2.frame.ok = true := by
      unfold d2
      split <;> simp [h1]
    simp [d3, h2]

@[simp] theorem ok_cyxStart {d : Dev} (hd : d.frame.ok = true) (h cold) : (d.cyxStart h cold).frame.ok = true := by simp [cyxStart, hd]

@[simp] theorem ok_afterPublish {d : Dev} (hd : d.frame.ok = true) (h) : (d.afterPublish h).frame.ok = true := by
  unfold afterPublish
  dsimp only
  split
  · simp [hd]
  · split <;> simp [hd]

@[simp] theorem ok_loadBank {d : Dev} (hd : d.frame.ok = true) (h lay b i) : (d.loadBank h lay b i).frame.ok = true := by simp [loadBank, hd]

@[simp] theorem ok_switchHalf {d : Dev} (hd : d.frame.ok = true) (h new_ ns10) : (d.switchHalf h new_ ns10).frame.ok = true := by
  unfold switchHalf
  extract_lets p old cs cells same kept freed fr d1 d2 was d3 d4 d5 d6
  have h1 : d1.frame.ok = true := by simp [d1, fr, hd]
  have h2 : d2.frame.ok = true := ok_setSram h1 h (wf_initVars _ _ (ok_half h1 h).2)
  simp [d6, d5, d4, d3, h2]

@[simp] theorem ok_endSwitch {d : Dev} (hd : d.frame.ok = true) (h) : (d.endSwitch h).frame.ok = true := by
  unfold endSwitch
  dsimp only
  split <;> simp [hd]

@[simp] theorem ok_publish {d : Dev} (hd : d.frame.ok = true) (h us ns) : (d.publish h us ns).frame.ok = true := by simp [publish, hd]

@[simp] theorem ok_idleCycle {d : Dev} (hd : d.frame.ok = true) (h) : (d.idleCycle h).frame.ok = true := by simp [idleCycle, hd]

@[simp] theorem ok_cycleMarker {d : Dev} (hd : d.frame.ok = true) (h dt ns) : (d.cycleMarker h dt ns).frame.ok = true := by simp [cycleMarker, hd]

@[simp] theorem ok_shadowCopy {d : Dev} (hd : d.frame.ok = true) (h) : (d.shadowCopy h).frame.ok = true := by
  unfold shadowCopy
  split <;> simp [hd]

@[simp] theorem ok_takeShadow {d : Dev} (hd : d.frame.ok = true) (h dt) : (d.takeShadow h dt).frame.ok = true := by
  unfold takeShadow
  split <;> simp [hd]

@[simp] theorem ok_cyxWarm {d : Dev} (hd : d.frame.ok = true) (h dt) : (d.cyxWarm h dt).frame.ok = true := by simp [cyxWarm, hd]

@[simp] theorem ok_olcLoaded {d : Dev} (hd : d.frame.ok = true) (h ok) : (d.olcLoaded h ok).frame.ok = true := by
  unfold olcLoaded
  split <;> simp [hd]

@[simp] theorem ok_olcCancel {d : Dev} (hd : d.frame.ok = true) (h) : (d.olcCancel h).frame.ok = true := by simp [olcCancel, hd]

@[simp] theorem ok_abortCyx {d : Dev} (hd : d.frame.ok = true) (h) : (d.abortCyx h).frame.ok = true := by simp [abortCyx, hd]

/-- A period that begins is counted. -/
theorem ok_countPeriod {d : Dev} (hd : d.frame.ok = true) (h : HalfId) : (d.modHalf h fun x => { x with servoCnt := x.servoCnt + 1 }).frame.ok = true := by
  rw [ok_eq_sound] at hd ⊢
  cases h <;> exact hd

@[simp] theorem ok_servoEvent {d : Dev} (hd : d.frame.ok = true) (h) : (d.servoEvent h).frame.ok = true := by simp [servoEvent, hd, ok_countPeriod hd]

@[simp] theorem ok_hlfOff {d : Dev} (hd : d.frame.ok = true) (h st cause) : (d.hlfOff h st cause).frame.ok = true := by simp [hlfOff, hd]

@[simp] theorem ok_halfAbortBy {d : Dev} (hd : d.frame.ok = true) (h release fault) : (d.halfAbortBy h release fault).frame.ok = true := by simp [halfAbortBy, hd]

@[simp] theorem ok_halfAbort {d : Dev} (hd : d.frame.ok = true) (h) : (d.halfAbort h).frame.ok = true := by simp [halfAbort, hd]

@[simp] theorem ok_loadBanks {d : Dev} (hd : d.frame.ok = true) (h) : (d.loadBanks h).frame.ok = true := by
  unfold loadBanks
  extract_lets x b put
  have hput (d : Dev) (b i) (hd : d.frame.ok = true) : (put d b i).frame.ok = true := by
    unfold put
    split <;> simp [hd]
  exact hput _ _ _ (hput _ _ _ (hput _ _ _ hd))

@[simp] theorem ok_startCores {d : Dev} (hd : d.frame.ok = true) (h) : (d.startCores h).frame.ok = true := by simp [startCores, hd]

@[simp] theorem ok_startMode {d : Dev} (hd : d.frame.ok = true) (h) : (d.startMode h).frame.ok = true := by
  unfold startMode
  split <;> simp [hd]

@[simp] theorem ok_bootGrant {d : Dev} (hd : d.frame.ok = true) (h) : (d.bootGrant h).frame.ok = true := by
  unfold bootGrant
  dsimp only
  split
  · simp [hd]
  · split
    · split
      · simp [hd]
      · split <;> simp [hd]
    · split
      · simp [hd]
      · split <;> simp [hd]

@[simp] theorem ok_loneGrant {d : Dev} (hd : d.frame.ok = true) (h) : (d.loneGrant h).frame.ok = true := by simp [loneGrant, hd]

@[simp] theorem ok_joinStandby {d : Dev} (hd : d.frame.ok = true) (h cause) : (d.joinStandby h cause).frame.ok = true := by simp [joinStandby, hd]

@[simp] theorem ok_coldProgram {d : Dev} (hd : d.frame.ok = true) (h dt) : (d.coldProgram h dt).frame.ok = true := by simp [coldProgram, hd]

@[simp] theorem ok_renewal {d : Dev} (hd : d.frame.ok = true) (h epoch) : (d.renewal h epoch).frame.ok = true := by
  unfold renewal
  dsimp only
  split
  · simp [hd]
  · split
    · simp [hd]
    · split
      · simp [hd]
      · split <;> simp [hd]

@[simp] theorem ok_claim {d : Dev} (hd : d.frame.ok = true) (h) : (d.claim h).frame.ok = true := by simp [claim, hd]

@[simp] theorem ok_warmTake {d : Dev} (hd : d.frame.ok = true) (w dt) : (d.warmTake w dt).frame.ok = true := by simp [warmTake, hd]

@[simp] theorem ok_coldTake {d : Dev} (hd : d.frame.ok = true) (w dt) : (d.coldTake w dt).frame.ok = true := by simp [coldTake, hd]

@[simp] theorem ok_formerActive {d : Dev} (hd : d.frame.ok = true) (o) : (d.formerActive o).frame.ok = true := by simp [formerActive, hd]

@[simp] theorem ok_loseClaim {d : Dev} (hd : d.frame.ok = true) (h) : (d.loseClaim h).frame.ok = true := by
  unfold loseClaim
  split <;> simp [hd]

@[simp] theorem ok_windowEnd {d : Dev} (hd : d.frame.ok = true) (gap dt) : (d.windowEnd gap dt).frame.ok = true := by
  unfold windowEnd
  extract_lets w losers win d1 d2
  split
  · exact hd
  · have h1 : d1.frame.ok = true := by simp [d1, hd]
    clear_value win
    split
    · simp [h1]
    · extract_lets ls st d3 d4 d5 d6 d7 d8 d9 d10
      have h5 : d5.frame.ok = true := by
        unfold d5
        split <;> simp [d4, d3, d2, h1]
      have h8 : d8.frame.ok = true := by
        refine ok_formerActive ?_ _
        unfold d7
        split <;> simp [d6, h5]
      have h9 : d9.frame.ok = true := by
        unfold d9
        simp [h8]
      have h10 : d10.frame.ok = true := ok_foldl_of (fun _ l hd => ok_loseClaim hd l) _ h9
      simp [h10]

@[simp] theorem ok_shadowEnd {d : Dev} (hd : d.frame.ok = true) (h) : (d.shadowEnd h).frame.ok = true := by simp [shadowEnd, hd]

@[simp] theorem ok_markerStep {d : Dev} (hd : d.frame.ok = true) (h dt ns) : (d.markerStep h dt ns).frame.ok = true := by simp [markerStep, hd]

@[simp] theorem ok_cyclePublish {d : Dev} (hd : d.frame.ok = true) (h us ns) : (d.cyclePublish h us ns).frame.ok = true := by
  unfold cyclePublish
  dsimp only
  split
  · simp [hd]
  · split
    · split <;> simp [hd]
    · split
      · split <;> simp [hd]
      · simp [hd]

@[simp] theorem ok_cycleSnap {d : Dev} (hd : d.frame.ok = true) (h dt ns) : (d.cycleSnap h dt ns).frame.ok = true := by simp [cycleSnap, hd]

@[simp] theorem ok_idleEvent {d : Dev} (hd : d.frame.ok = true) (h) : (d.idleEvent h).frame.ok = true := by simp [idleEvent, hd]

@[simp] theorem ok_cycWdog {d : Dev} (hd : d.frame.ok = true) (h) : (d.cycWdog h).frame.ok = true := by simp [cycWdog, hd]

@[simp] theorem ok_resetPeer {d : Dev} (hd : d.frame.ok = true) (h) : (d.resetPeer h).frame.ok = true := by simp [resetPeer, hd]

@[simp] theorem ok_holdPeer {d : Dev} (hd : d.frame.ok = true) (h) : (d.holdPeer h).frame.ok = true := by simp [holdPeer, hd]

@[simp] theorem ok_peerCmd {d : Dev} (hd : d.frame.ok = true) (h op) : (d.peerCmd h op).frame.ok = true := by
  unfold peerCmd
  split <;> simp [hd]

@[simp] theorem ok_repairSteps {d : Dev} (hd : d.frame.ok = true) (h fails) : (d.repairSteps h fails).frame.ok = true := by simp [repairSteps, hd]

@[simp] theorem ok_repairDone {d : Dev} (hd : d.frame.ok = true) (h) : (d.repairDone h).frame.ok = true := by simp [repairDone, hd]

@[simp] theorem ok_linkTrained {d : Dev} (hd : d.frame.ok = true) (lanes) : (d.linkTrained lanes).frame.ok = true := by simp [linkTrained, hd]

@[simp] theorem ok_bootReceived {d : Dev} (hd : d.frame.ok = true) : d.bootReceived.frame.ok = true := by
  unfold bootReceived
  extract_lets p m r d1 why bt d2
  have h1 : d1.frame.ok = true := by simp [d1, r, hd]
  have h2 : d2.frame.ok = true := by
    unfold d2
    clear_value why
    split <;> simp [h1]
  split
  · split <;> simp [h2]
  · simp [h2]

@[simp] theorem ok_bootData {d : Dev} (hd : d.frame.ok = true) (ofs ws) : (d.bootData ofs ws).frame.ok = true := by simp [bootData, hd]

/-- What waits for the power supervision's reaction keeps a sound part sound if the reaction does. -/
theorem ok_pwrRaise_of {d : Dev} {f : Dev → Dev} (hf : ∀ d, d.frame.ok = true → (f d).frame.ok = true) (hd : d.frame.ok = true) : (d.pwrRaise f).frame.ok = true := by
  unfold pwrRaise
  split
  · exact hf d hd
  · exact hd

@[simp] theorem ok_inputGone {d : Dev} (hd : d.frame.ok = true) (i) : (d.inputGone i).frame.ok = true := by
  unfold inputGone
  extract_lets p
  refine ok_pwrRaise_of (fun d hd => ?_) (ok_of (frame_put _ _ _ _ _ _) hd)
  extract_lets d1 d2 d3
  have h3 : d3.frame.ok = true := by simp [d3, d2, d1, hd]
  split <;> simp [h3]

@[simp] theorem ok_inputLost {d : Dev} (hd : d.frame.ok = true) (i mv) : (d.inputLost i mv).frame.ok = true := by simp [inputLost, hd]

@[simp] theorem ok_inputOver {d : Dev} (hd : d.frame.ok = true) (i mv) : (d.inputOver i mv).frame.ok = true := by simp [inputOver, hd]

@[simp] theorem ok_nresetLow {d : Dev} (hd : d.frame.ok = true) : d.nresetLow.frame.ok = true := by simp [nresetLow, hd]

@[simp] theorem ok_powerFall {d : Dev} (hd : d.frame.ok = true) : d.powerFall.frame.ok = true := by simp [powerFall, hd]

@[simp] theorem ok_release {d : Dev} (hd : d.frame.ok = true) (straps aoLost tagOk ok1 ok2 cols) :
    (d.release straps aoLost tagOk ok1 ok2 cols).frame.ok = true := by
  unfold release
  extract_lets b up mark d1 d2 d3 zero d4 cause d5 d6 d7 d8 d9 d10 d11 d12
  split
  · simp [hd]
  · have h2 : d2.frame.ok = true := by simp [d2, d1, hd]
    have h3 : d3.frame.ok = true := by
      unfold d3
      split <;> simp [h2]
    have h4 : d4.frame.ok = true := by
      unfold d4
      split <;> simp [h3]
    have h6 : d6.frame.ok = true := by simp [d6, d5, h4]
    have h7 : d7.frame.ok = true := by
      unfold d7
      split <;> simp [h6]
    have h8 : d8.frame.ok = true := by simp [d8, h7]
    have h9 : d9.frame.ok = true := by
      unfold d9
      split <;> simp [h8]
    have h12 : d12.frame.ok = true := by
      refine ok_both_of (fun d h hd => ?_) (by simp [d11, d10, h9])
      split <;> simp [hd]
    simp [h12]

@[simp] theorem ok_strobe {d : Dev} (hd : d.frame.ok = true) : d.strobe.frame.ok = true := by
  unfold strobe
  extract_lets b r d1 all ready
  split
  · exact hd
  · have h1 : d1.frame.ok = true := by simp [d1, r, hd]
    split
    · simp [h1]
    · exact ok_foldl_of (fun _ h hd => ok_claim hd h) _ (ok_of (frame_put _ _ _ _ _ _) h1)

@[simp] theorem ok_abortBlk {d : Dev} (hd : d.frame.ok = true) (p) : (d.abortBlk p).frame.ok = true := by
  unfold abortBlk
  dsimp only
  split
  · simp [hd]
  · split <;> simp [hd]

theorem ok_ctlAct {d : Dev} (hd : d.frame.ok = true) (w p b h n f i v data) : ∀ e ∈ d.ctlAct w p b h n f i v data, e.frame.ok = true := by
  have hdone (c : Nat) (d : Dev) : (if bitN v c = 1 then d.cyxDone h c else d).frame = d.frame := by split <;> simp
  unfold ctlAct
  split
  · split
    · split <;> simp [hd]
    · split
      · simp [hd]
      · split
        · split <;> simp [hd]
        · simp [hd]
  · simp [hd]
  · simp [hd]
  · simp [hd]
  · simp [hd]
  · simp [hd]
  · simp [hd]
  · split
    · simp [hd]
    · split <;> simp [hd]
  · split <;> simp [hd]
  · split <;> simp [hd]
  · simp [hd]

theorem ok_sltAct {d : Dev} (hd : d.frame.ok = true) (w f v) : ∀ e ∈ d.sltAct w f v, e.frame.ok = true := by
  unfold sltAct
  extract_lets p g go
  have hgo (x : Dev) (hx : x.frame.ok = true) : ∀ e ∈ go x, e.frame.ok = true := by
    unfold go
    split <;> simp [hd, hx]
  split
  · exact hgo _ (by simp [hd])
  · split
    · exact hgo _ (by simp [hd])
    · split
      · simp [hd]
      · split
        · exact hgo _ (by simp [hd])
        · split
          · exact hgo _ (by simp [hd])
          · split
            · exact hgo _ (by simp [hd])
            · split
              · exact hgo _ (by simp [hd])
              · split <;> simp [hd]

theorem ok_shpAct {d : Dev} (hd : d.frame.ok = true) (w p b n f i v data) : ∀ e ∈ d.shpAct w p b n f i v data, e.frame.ok = true := by
  have hslt := ok_sltAct hd w f v
  unfold shpAct
  split
  · split
    · simp [hd]
    · split
      · simp [hd]
      · split
        · simp [hd]
        · split <;> simp [hd]
  · simp [hd]
  · simp [hd]
  · simp [hd]
  · split <;> simp [hd]
  · simp [hd]
  · split
    · simp [hd]
    · split
      · simp [hd]
      · split
        · simp [hd]
        · split <;> simp [hd]
  · simp [hd]
  · exact hslt
  · split <;> simp [hd]
  · simp [hd]
  · simp [hd]

@[simp] theorem ok_sramAccess {d : Dev} (hd : d.frame.ok = true) (h a wr n err) : (d.sramAccess h a wr n err).frame.ok = true := by
  unfold sramAccess
  extract_lets len zeros
  split
  · simp [hd]
  · split
    · extract_lets bs
      have h1 : (d.setSram h (memWrites (d.half h).sram a bs)).frame.ok = true := ok_setSram hd h (Memory.wf_memWrites _ _ (ok_half hd h).2)
      simp [h1]
    · split
      · simp [hd]
      · split <;> simp [hd]

@[simp] theorem ok_fieldWrite {d : Dev} (hd : d.frame.ok = true) (w p b n f i data) : (d.fieldWrite w p b n f i data).frame.ok = true := by
  unfold fieldWrite
  extract_lets v t why store act d1
  have hact : ∀ e ∈ act, e.frame.ok = true := by
    unfold act
    split
    · exact ok_ctlAct hd _ _ _ _ _ _ _ _ _
    · exact ok_shpAct hd _ _ _ _ _ _ _ _
  clear_value why act
  have hstore : (store d).frame.ok = true := by
    unfold store
    split <;> simp [hd]
  have h1 : d1.frame.ok = true := by simp [d1, hd]
  have hsome (e : Dev) (he : act = some e) : e.frame.ok = true := hact e he
  have hget : (act.getD d).frame.ok = true := by
    cases h : act with
    | none => exact hd
    | some e => exact hsome e h
  split
  · split
    · exact hd
    · split <;> simp [h1]
  · split
    · simp [hd]
    · exact hsome _ rfl
    · exact hstore
  · split
    · split <;> simp [hd]
    · split
      · simp [hd]
      · exact hsome _ rfl
      · exact hstore
  · exact hget
  · exact hget
  · exact hd
  · exact hd

@[simp] theorem ok_wordWrite {d : Dev} (hd : d.frame.ok = true) (w p b n off data) : (d.wordWrite w p b n off data).frame.ok = true := by
  unfold wordWrite
  extract_lets fs held bnd d1 o v d2 d3 staged freed
  have h1 : d1.frame.ok = true := ok_foldl_of (fun _ x hd => ok_fieldWrite hd w p b n x.1 x.2 data) _ (ok_of (frame_ans _ _) hd)
  have h2 : d2.frame.ok = true := by
    unfold d2
    split
    · rw [frame_ite, ok_ite]
      split <;> simp [h1]
    · exact h1
  have h3 : d3.frame.ok = true := by
    unfold d3
    split
    · simp [h2]
    · split <;> simp [h2]
  rw [frame_ite, ok_ite]
  split
  · exact ok_of ((frame_resp _ _).trans (frame_immEvent _ _)) h3
  · exact h3

@[simp] theorem ok_abortWrite {d : Dev} (hd : d.frame.ok = true) (w p b a data) : (d.abortWrite w p b a data).frame.ok = true := by simp [abortWrite, hd]

@[simp] theorem ok_pageWrite {d : Dev} (hd : d.frame.ok = true) (w p off a bytes data) : (d.pageWrite w p off a bytes data).frame.ok = true := by
  unfold pageWrite
  split
  · exact hd
  · extract_lets fs ws d1
    have h2 : d1.frame.ok = true := by simp [d1, hd]
    simp [hd, h2]

@[simp] theorem ok_busWrite {d : Dev} (hd : d.frame.ok = true) (w a bytes data) : (d.busWrite w a bytes data).frame.ok = true := by
  unfold busWrite
  split
  · exact hd
  · split <;> simp [hd]

@[simp] theorem ok_pageRead {d : Dev} (hd : d.frame.ok = true) (w p off a n bad) : (d.pageRead w p off a n bad).frame.ok = true := by simp [pageRead, hd]

@[simp] theorem ok_busRead {d : Dev} (hd : d.frame.ok = true) (w a n err) : (d.busRead w a n err).frame.ok = true := by
  unfold busRead
  dsimp only
  split
  · simp [hd]
  · split <;> simp [hd]

@[simp] theorem ok_fence {d : Dev} (hd : d.frame.ok = true) (p) : (d.fence p).frame.ok = true := by
  unfold fence
  split
  · exact hd
  · extract_lets lost d1
    have h1 : d1.frame.ok = true := ok_of (frame_fault _ _ _ _ _) (ok_pages hd _ _ _ _ _ _)
    split <;> simp [h1]

@[simp] theorem ok_accessTimeout {d : Dev} (hd : d.frame.ok = true) (w a) : (d.accessTimeout w a).frame.ok = true := by
  unfold accessTimeout
  split
  · exact hd
  · split <;> simp [hd]

@[simp] theorem ok_regionAbort {d : Dev} (hd : d.frame.ok = true) (bank) : (d.regionAbort bank).frame.ok = true := by
  unfold regionAbort
  extract_lets ps lost d1
  have h1 : d1.frame.ok = true := ok_foldl_of (fun _ p hd => ok_abortBlk hd p) _ (ok_pages hd _ _ _ _ _ _)
  split
  · split <;> simp [h1]
  · exact h1

@[simp] theorem ok_reservedBad {d : Dev} (hd : d.frame.ok = true) (h a) : (d.reservedBad h a).frame.ok = true := by
  unfold reservedBad
  dsimp only
  split
  · split <;> simp [hd]
  · simp [hd]

@[simp] theorem ok_sramHit {d : Dev} (hd : d.frame.ok = true) (h a ue) : (d.sramHit h a ue).frame.ok = true := by simp [sramHit, hd]

@[simp] theorem ok_scrub {d : Dev} (hd : d.frame.ok = true) (m ces ues) : (d.scrub m ces ues).frame.ok = true := by
  unfold scrub
  split
  · rename_i h
    exact ok_foldl_of (fun _ a hd => ok_sramHit hd h a true) _ (ok_foldl_of (fun _ a hd => ok_sramHit hd h a false) _ hd)
  · simp [hd]

@[simp] theorem ok_hstReadGo (late : Option Nat) (as : List (Nat × Nat)) {d : Dev} (acc : List Word) (hd : d.frame.ok = true) :
    (hstReadGo late acc d as).frame.ok = true := by
  induction as generalizing d acc with
  | nil => simp [hstReadGo, hd]
  | cons x as ih =>
    unfold hstReadGo
    split
    · simp [hd]
    · extract_lets d1
      have h1 : d1.frame.ok = true := by simp [d1, hd]
      split
      · simp [h1]
      · exact ih _ h1

@[simp] theorem ok_hstRead {d : Dev} (hd : d.frame.ok = true) (a n fix late) : (d.hstRead a n fix late).frame.ok = true := by simp [hstRead, hd]

@[simp] theorem ok_hstWriteGo (as : List (Nat × Nat)) {d : Dev} (hd : d.frame.ok = true) : (hstWriteGo d as).frame.ok = true := by
  induction as generalizing d with
  | nil => simp [hstWriteGo, hd]
  | cons x as ih =>
    unfold hstWriteGo
    extract_lets p d1 c
    have h1 : d1.frame.ok = true := by simp [d1, hd]
    split
    · simp [h1]
    · exact ih h1

@[simp] theorem ok_hstWrite {d : Dev} (hd : d.frame.ok = true) (a n fix ws) : (d.hstWrite a n fix ws).frame.ok = true := by simp [hstWrite, hd]

/-! #### What a command does -/

/-- What keeps a released part sound keeps the part sound in reset, where it does nothing. -/
theorem ok_released {d e : Dev} (hd : d.frame.ok = true) (he : e.frame.ok = true) : (if d.boot.released then e else d).frame.ok = true := by
  split
  · exact he
  · exact hd

theorem wf_memWrite_all {m : List Host.Cell} (hm : Memory.wf m = true) (ws : List (BitVec 32 × BitVec 8)) :
    Memory.wf (ws.foldl (fun m e => memWrite m e.1.toNat e.2) m) = true := memWf_foldl (fun _ _ hm => Memory.wf_memWrite _ _ hm) _ hm

end Dev

/-- Every command leads to a next state, with the queue as it was and a part that is sound if it was sound before. -/
theorem exec_fit (i : Instr) {s : State} (hd : s.dev.frame.ok = true) : ∃ d : Dev, exec i s = .next { s with dev := d } ∧ d.frame.ok = true := by
  cases i
  case cyxDone h core ws =>
    refine ⟨_, rfl, Dev.ok_released hd ?_⟩
    have hm := Dev.wf_memWrite_all (Dev.ok_half hd h).2 (ws.filter fun e => decide (0x08080000 ≤ e.1.toNat ∧ e.1.toNat ≤ 0x087FFFFF))
    exact Dev.ok_of ((Dev.frame_cyxDone _ h _).trans (Dev.frame_heal _ h _)) (Dev.ok_setSram hd h hm)
  case olcSwitchExec h ns10 =>
    refine ⟨_, rfl, Dev.ok_released hd ?_⟩
    dsimp only
    split
    · refine Dev.ok_endSwitch ?_ h
      split <;> simp [hd]
    · exact hd
  case glkLeave =>
    refine ⟨_, rfl, Dev.ok_released hd ?_⟩
    dsimp only
    split
    · split
      · split <;> simp [hd]
      · exact hd
    · exact hd
  case doVfield g mv =>
    refine ⟨_, rfl, Dev.ok_released hd ?_⟩
    beta_reduce
    extract_lets p low d1 was d2 fio0 d3
    have h2 : d2.frame.ok = true := by simp [d2, d1, hd]
    have h3 : d3.frame.ok = true := Dev.ok_of (Dev.frame_fio d2 (x := d3.fio) rfl) h2
    split
    · refine Dev.ok_of (Dev.frame_fioDrive _) ?_
      split <;> simp [h3]
    · simp [d1, hd]
  all_goals exact ⟨_, rfl, by simp [hd]⟩

/-- Settles O59: every operation of the part keeps `Dev.frame` or the soundness it stands for; the queue takes no part in it. -/
theorem stepKeepsSound : Obligations.StepKeepsSound := by
  unfold Obligations.StepKeepsSound
  intro s t hs hstep
  rw [← Dev.ok_eq_sound] at hs ⊢
  unfold step at hstep
  split at hstep
  · cases hstep
    exact hs
  · next i rest hp =>
    obtain ⟨d, hexec, hd⟩ := exec_fit i (s := { s with pending := rest }) hs
    cases hexec.symm.trans hstep
    exact hd

end Sys2Proof.Machine
end

section
/-! PROOFS. Reading a register after any chain of writes, and the frame of such a chain: rewriting rules for `get` and `keeps`. -/
namespace Sys2Proof.Machine

open Sys2Proof

/-- Two fields whose words no two of their entries share on one page. -/
def Fld.apart (f g : Fld) : Bool :=
  f.lo != g.lo || decide (f.off + (f.cnt - 1) * f.stride < g.off) || decide (g.off + (g.cnt - 1) * g.stride < f.off) ||
    (f.stride == g.stride && f.off % f.stride != g.off % f.stride)

/-- A field whose entries stand inside a page. -/
def Fld.fits (f : Fld) : Bool := decide (f.off + (f.cnt - 1) * f.stride < 4096 ∧ f.lo < 32)

theorem inside_of_fits {f : Fld} {i t : Nat} (hf : f.fits = true) (hi : i < f.cnt) (ht : t < 65536) : Inside f i t := by
  obtain ⟨hoff, hlo⟩ := of_decide_eq_true hf
  have hmul : i * f.stride ≤ (f.cnt - 1) * f.stride := Nat.mul_le_mul_right _ (by omega)
  exact ⟨by omega, hlo, ht⟩

/-- The word of an entry of a field, counted in bits and entries of tables from the start of the page. -/
theorem fkey_eq (p : Nat) (f : Fld) (i t : Nat) : fkey p f i t = p * 8589934592 + (f.off + i * f.stride) * 2097152 + f.lo * 65536 + t := by
  unfold fkey
  ring

theorem fkey_apart {p : Nat} {f g : Fld} {i j t u : Nat} (h : f.apart g = true) (hf : f.fits = true) (hg : g.fits = true) (hi : i < f.cnt) (hj : j < g.cnt)
    (ht : t < 65536) (hu : u < 65536) : fkey p f i t ≠ fkey p g j u := by
  obtain ⟨-, hlf⟩ := of_decide_eq_true hf
  obtain ⟨-, hlg⟩ := of_decide_eq_true hg
  have hmi : i * f.stride ≤ (f.cnt - 1) * f.stride := Nat.mul_le_mul_right _ (by omega)
  have hmj : j * g.stride ≤ (g.cnt - 1) * g.stride := Nat.mul_le_mul_right _ (by omega)
  simp only [Fld.apart, Bool.or_eq_true, Bool.and_eq_true, bne_iff_ne, ne_eq, beq_iff_eq, decide_eq_true_eq] at h
  rw [fkey_eq, fkey_eq]
  rcases h with ((h | h) | h) | ⟨hs, hmod⟩
  · omega
  · omega
  · omega
  · intro e
    have hoff : f.off + i * f.stride = g.off + j * f.stride := by rw [← hs] at e; omega
    exact hmod (by rw [← Nat.add_mul_mod_self_right f.off i, hoff, Nat.add_mul_mod_self_right])

/-- Entries of one array with different indices, or of one table with different entries, have words of their own. -/
theorem fkey_idx {p : Nat} {f : Fld} {i j t u : Nat} (hs : f.stride ≠ 0) (ht : t < 65536) (hu : u < 65536) (h : i ≠ j) : fkey p f i t ≠ fkey p f j u := by
  intro e
  rw [fkey_eq, fkey_eq] at e
  have hmul : i * f.stride = j * f.stride := by omega
  exact h (Nat.eq_of_mul_eq_mul_right (Nat.pos_of_ne_zero hs) hmul)

theorem fkey_tab {p : Nat} {f : Fld} {i t u : Nat} (h : t ≠ u) : fkey p f i t ≠ fkey p f i u := by
  rw [fkey_eq, fkey_eq]
  omega

namespace Dev

/-! ### Reading after a write -/

section
variable (d : Dev) {p q : Nat} {f g : Fld} (v : Nat) {i j t u : Nat}

theorem get_put_apart (h : f.apart g = true) (hf : f.fits = true) (hg : g.fits = true) (hi : i < f.cnt) (hj : j < g.cnt) (ht : t < 65536) (hu : u < 65536) :
    (d.put p f v i t).get p g j u = d.get p g j u := get_put_ne _ _ _ _ _ _ _ _ _ _ (fkey_apart h hf hg hi hj ht hu).symm

theorem get_put_idx (hs : f.stride ≠ 0) (ht : t < 65536) (hu : u < 65536) (h : i ≠ j) : (d.put p f v i t).get p f j u = d.get p f j u :=
  get_put_ne _ _ _ _ _ _ _ _ _ _ (fkey_idx hs ht hu h).symm

theorem get_put_tab (h : t ≠ u) : (d.put p f v i t).get p f i u = d.get p f i u := get_put_ne _ _ _ _ _ _ _ _ _ _ (fkey_tab h).symm

theorem get_put_other (h : p ≠ q) (hf : f.fits = true) (hg : g.fits = true) (hi : i < f.cnt) (hj : j < g.cnt) (ht : t < 65536) (hu : u < 65536) :
    (d.put p f v i t).get q g j u = d.get q g j u := get_put_page d v h.symm (inside_of_fits hf hi ht) (inside_of_fits hg hj hu)

theorem get_post_other (r : Rec) (h : q ≠ shp .slt) (hg : g.fits = true) (hj : j < g.cnt) (hu : u < 65536) : (d.post r).get q g j u = d.get q g j u :=
  get_post d r q g j u (inside_of_fits hg hj hu) h

end

/-- The fields of the SLT page that a record may change. -/
def postFields : List Fld := [SLT.QUEUE_USED, SLT.LOST_PROT, SLT.LOST_UNPROT, HDR.STAT_BLOCK, HDR.ERR_COUNT, HDR.ERR_CODE, HDR.ERR_DETAIL]

theorem get_put_postField (d : Dev) {q : Nat} {f g : Fld} (v : Nat) {i t : Nat} (h : ∀ x ∈ postFields, x.apart f = true) (hg : g ∈ postFields)
    (hf : f.fits = true) (hi : i < f.cnt) (ht : t < 65536) : (d.put (shp .slt) g v).get q f i t = d.get q f i t := by
  have hfits : g.fits = true := by fin_cases hg <;> decide
  have hcnt : 0 < g.cnt := by fin_cases hg <;> decide
  by_cases hq : shp .slt = q
  · subst hq
    exact get_put_apart d v (h g hg) hfits hf hcnt hi (by decide) ht
  · exact get_put_other d v hq hfits hf hcnt hi (by decide) ht

/-- A record leaves every field but those of the intake as it was, also on the SLT page. -/
theorem get_post_apart (d : Dev) (r : Rec) {q : Nat} {f : Fld} {i t : Nat} (h : ∀ x ∈ postFields, x.apart f = true) (hf : f.fits = true) (hi : i < f.cnt)
    (ht : t < 65536) : (d.post r).get q f i t = d.get q f i t := by
  have hput (d : Dev) {g : Fld} (v : Nat) (hg : g ∈ postFields) := get_put_postField d (q := q) v h hg hf hi ht
  have herr (d : Dev) (c x : Nat) : (d.err (shp .slt) c x).get q f i t = d.get q f i t := by
    rw [err, hput _ _ (by simp [postFields]), hput _ _ (by simp [postFields]), bump, hput _ _ (by simp [postFields])]
  have hstat (d : Dev) (k : Nat) : (d.stat (shp .slt) k).get q f i t = d.get q f i t := hput _ _ (by simp [postFields])
  unfold post
  split
  · rw [hput _ _ (by simp [postFields])]
    rfl
  · unfold lose
    dsimp only
    split
    · rw [herr]
      split
      · rw [hstat, bump, hput _ _ (by simp [postFields])]
        rfl
      · rw [bump, hput _ _ (by simp [postFields])]
        rfl
    · rw [herr]
      split
      · rw [hstat, bump, hput _ _ (by simp [postFields])]
        rfl
      · rw [bump, hput _ _ (by simp [postFields])]
        rfl

/-! ### The frame of a chain of writes -/

section
variable {d e e' : Dev} {ps : List Nat}

/-- A step that touches listed pages only does not matter to the frame. -/
theorem keeps_iff (h : e.keeps e' ps) : d.keeps e' ps ↔ d.keeps e ps := by
  refine ⟨fun hd => ⟨h.1.symm.trans hd.1, fun k hk => (h.2 k hk).symm.trans (hd.2 k hk)⟩, fun hd => keeps_trans hd h⟩

theorem keeps_put_iff {p : Nat} {f : Fld} {v i t : Nat} (hp : p ∈ ps) (hf : f.fits = true) (hi : i < f.cnt) (ht : t < 65536) :
    d.keeps (e.put p f v i t) ps ↔ d.keeps e ps := keeps_iff (keeps_put e p f v i t ps (inside_of_fits hf hi ht) hp)

theorem keeps_err_iff {p c x : Nat} (hp : p ∈ ps) : d.keeps (e.err p c x) ps ↔ d.keeps e ps := keeps_iff (keeps_err e p c x ps hp)

theorem keeps_stat_iff {p k : Nat} (hp : p ∈ ps) : d.keeps (e.stat p k) ps ↔ d.keeps e ps := keeps_iff (keeps_stat e p k ps hp)

theorem keeps_post_iff {r : Rec} (hp : shp .slt ∈ ps) : d.keeps (e.post r) ps ↔ d.keeps e ps := keeps_iff (keeps_post e r ps hp)

end

@[simp] theorem keeps_refl_iff (d : Dev) (ps : List Nat) : d.keeps d ps ↔ True := iff_true_intro (keeps_refl d ps)

/-! ### Changes beside the registers -/

@[simp] theorem get_with_shadow (d : Dev) (x p f i t) : ({ d with shadow := x } : Dev).get p f i t = d.get p f i t := rfl
@[simp] theorem get_with_immCnt (d : Dev) (x p f i t) : ({ d with immCnt := x } : Dev).get p f i t = d.get p f i t := rfl
@[simp] theorem get_with_resp (d : Dev) (x p f i t) : ({ d with resp := x } : Dev).get p f i t = d.get p f i t := rfl
@[simp] theorem get_with_freeCtr (d : Dev) (x p f i t) : ({ d with freeCtr := x } : Dev).get p f i t = d.get p f i t := rfl
@[simp] theorem get_with_cfgFrozen (d : Dev) (x p f i t) : ({ d with cfgFrozen := x } : Dev).get p f i t = d.get p f i t := rfl
@[simp] theorem get_with_enc (d : Dev) (x p f i t) : ({ d with enc := x } : Dev).get p f i t = d.get p f i t := rfl
@[simp] theorem get_with_pCopy (d : Dev) (x p f i t) : ({ d with pCopy := x } : Dev).get p f i t = d.get p f i t := rfl
@[simp] theorem get_with_pRes (d : Dev) (x p f i t) : ({ d with pRes := x } : Dev).get p f i t = d.get p f i t := rfl
@[simp] theorem get_with_pClm (d : Dev) (x p f i t) : ({ d with pClm := x } : Dev).get p f i t = d.get p f i t := rfl
@[simp] theorem get_with_pEpoch (d : Dev) (x p f i t) : ({ d with pEpoch := x } : Dev).get p f i t = d.get p f i t := rfl
@[simp] theorem get_with_pInt (d : Dev) (x p f i t) : ({ d with pInt := x } : Dev).get p f i t = d.get p f i t := rfl
@[simp] theorem get_with_stpPins (d : Dev) (x p f i t) : ({ d with stpPins := x } : Dev).get p f i t = d.get p f i t := rfl
@[simp] theorem get_with_carDoorShut (d : Dev) (x p f i t) : ({ d with carDoorShut := x } : Dev).get p f i t = d.get p f i t := rfl
@[simp] theorem get_with_landShut (d : Dev) (x p f i t) : ({ d with landShut := x } : Dev).get p f i t = d.get p f i t := rfl
@[simp] theorem get_with_silt (d : Dev) (x p f i t) : ({ d with silt := x } : Dev).get p f i t = d.get p f i t := rfl
@[simp] theorem get_with_fio (d : Dev) (x p f i t) : ({ d with fio := x } : Dev).get p f i t = d.get p f i t := rfl
@[simp] theorem get_with_can (d : Dev) (x p f i t) : ({ d with can := x } : Dev).get p f i t = d.get p f i t := rfl
@[simp] theorem get_with_lane (d : Dev) (x p f i t) : ({ d with lane := x } : Dev).get p f i t = d.get p f i t := rfl
@[simp] theorem get_with_rtc (d : Dev) (x p f i t) : ({ d with rtc := x } : Dev).get p f i t = d.get p f i t := rfl
@[simp] theorem get_with_glk (d : Dev) (x p f i t) : ({ d with glk := x } : Dev).get p f i t = d.get p f i t := rfl
@[simp] theorem get_with_weir (d : Dev) (x p f i t) : ({ d with weir := x } : Dev).get p f i t = d.get p f i t := rfl
@[simp] theorem get_with_store (d : Dev) (x p f i t) : ({ d with store := x } : Dev).get p f i t = d.get p f i t := rfl
@[simp] theorem get_with_encl (d : Dev) (x p f i t) : ({ d with encl := x } : Dev).get p f i t = d.get p f i t := rfl
@[simp] theorem get_with_boot (d : Dev) (x p f i t) : ({ d with boot := x } : Dev).get p f i t = d.get p f i t := rfl
@[simp] theorem get_with_fenced (d : Dev) (x p f i t) : ({ d with fenced := x } : Dev).get p f i t = d.get p f i t := rfl
@[simp] theorem get_with_aborting (d : Dev) (x p f i t) : ({ d with aborting := x } : Dev).get p f i t = d.get p f i t := rfl
@[simp] theorem get_with_badRegs (d : Dev) (x p f i t) : ({ d with badRegs := x } : Dev).get p f i t = d.get p f i t := rfl
@[simp] theorem get_with_saf (d : Dev) (x p f i t) : ({ d with saf := x } : Dev).get p f i t = d.get p f i t := rfl
@[simp] theorem get_with_keys (d : Dev) (x p f i t) : ({ d with keys := x } : Dev).get p f i t = d.get p f i t := rfl
@[simp] theorem keeps_with_shadow (d e : Dev) (x ps) : d.keeps { e with shadow := x } ps ↔ d.keeps e ps := Iff.rfl
@[simp] theorem keeps_with_immCnt (d e : Dev) (x ps) : d.keeps { e with immCnt := x } ps ↔ d.keeps e ps := Iff.rfl
@[simp] theorem keeps_with_resp (d e : Dev) (x ps) : d.keeps { e with resp := x } ps ↔ d.keeps e ps := Iff.rfl
@[simp] theorem keeps_with_freeCtr (d e : Dev) (x ps) : d.keeps { e with freeCtr := x } ps ↔ d.keeps e ps := Iff.rfl
@[simp] theorem keeps_with_cfgFrozen (d e : Dev) (x ps) : d.keeps { e with cfgFrozen := x } ps ↔ d.keeps e ps := Iff.rfl
@[simp] theorem keeps_with_enc (d e : Dev) (x ps) : d.keeps { e with enc := x } ps ↔ d.keeps e ps := Iff.rfl
@[simp] theorem keeps_with_pCopy (d e : Dev) (x ps) : d.keeps { e with pCopy := x } ps ↔ d.keeps e ps := Iff.rfl
@[simp] theorem keeps_with_pRes (d e : Dev) (x ps) : d.keeps { e with pRes := x } ps ↔ d.keeps e ps := Iff.rfl
@[simp] theorem keeps_with_pClm (d e : Dev) (x ps) : d.keeps { e with pClm := x } ps ↔ d.keeps e ps := Iff.rfl
@[simp] theorem keeps_with_pEpoch (d e : Dev) (x ps) : d.keeps { e with pEpoch := x } ps ↔ d.keeps e ps := Iff.rfl
@[simp] theorem keeps_with_pInt (d e : Dev) (x ps) : d.keeps { e with pInt := x } ps ↔ d.keeps e ps := Iff.rfl
@[simp] theorem keeps_with_stpPins (d e : Dev) (x ps) : d.keeps { e with stpPins := x } ps ↔ d.keeps e ps := Iff.rfl
@[simp] theorem keeps_with_carDoorShut (d e : Dev) (x ps) : d.keeps { e with carDoorShut := x } ps ↔ d.keeps e ps := Iff.rfl
@[simp] theorem keeps_with_landShut (d e : Dev) (x ps) : d.keeps { e with landShut := x } ps ↔ d.keeps e ps := Iff.rfl
@[simp] theorem keeps_with_silt (d e : Dev) (x ps) : d.keeps { e with silt := x } ps ↔ d.keeps e ps := Iff.rfl
@[simp] theorem keeps_with_fio (d e : Dev) (x ps) : d.keeps { e with fio := x } ps ↔ d.keeps e ps := Iff.rfl
@[simp] theorem keeps_with_can (d e : Dev) (x ps) : d.keeps { e with can := x } ps ↔ d.keeps e ps := Iff.rfl
@[simp] theorem keeps_with_lane (d e : Dev) (x ps) : d.keeps { e with lane := x } ps ↔ d.keeps e ps := Iff.rfl
@[simp] theorem keeps_with_rtc (d e : Dev) (x ps) : d.keeps { e with rtc := x } ps ↔ d.keeps e ps := Iff.rfl
@[simp] theorem keeps_with_glk (d e : Dev) (x ps) : d.keeps { e with glk := x } ps ↔ d.keeps e ps := Iff.rfl
@[simp] theorem keeps_with_weir (d e : Dev) (x ps) : d.keeps { e with weir := x } ps ↔ d.keeps e ps := Iff.rfl
@[simp] theorem keeps_with_store (d e : Dev) (x ps) : d.keeps { e with store := x } ps ↔ d.keeps e ps := Iff.rfl
@[simp] theorem keeps_with_encl (d e : Dev) (x ps) : d.keeps { e with encl := x } ps ↔ d.keeps e ps := Iff.rfl
@[simp] theorem keeps_with_boot (d e : Dev) (x ps) : d.keeps { e with boot := x } ps ↔ d.keeps e ps := Iff.rfl
@[simp] theorem keeps_with_fenced (d e : Dev) (x ps) : d.keeps { e with fenced := x } ps ↔ d.keeps e ps := Iff.rfl
@[simp] theorem keeps_with_aborting (d e : Dev) (x ps) : d.keeps { e with aborting := x } ps ↔ d.keeps e ps := Iff.rfl
@[simp] theorem keeps_with_badRegs (d e : Dev) (x ps) : d.keeps { e with badRegs := x } ps ↔ d.keeps e ps := Iff.rfl
@[simp] theorem keeps_with_saf (d e : Dev) (x ps) : d.keeps { e with saf := x } ps ↔ d.keeps e ps := Iff.rfl
@[simp] theorem keeps_with_keys (d e : Dev) (x ps) : d.keeps { e with keys := x } ps ↔ d.keeps e ps := Iff.rfl

@[simp] theorem get_setHalf (d : Dev) (h : HalfId) (x p f i t) : (d.setHalf h x).get p f i t = d.get p f i t := by cases h <;> rfl
@[simp] theorem get_modHalf (d : Dev) (h : HalfId) (g : Half → Half) (p f i t) : (d.modHalf h g).get p f i t = d.get p f i t := by cases h <;> rfl
@[simp] theorem get_modHlf (d : Dev) (h : HalfId) (g : Hlf → Hlf) (p f i t) : (d.modHlf h g).get p f i t = d.get p f i t := by cases h <;> rfl

theorem keeps_setHalf_iff {d e : Dev} {h : HalfId} {x : Half} {ps : List Nat} (hx : x.sram = (e.half h).sram) : d.keeps (e.setHalf h x) ps ↔ d.keeps e ps := by
  refine keeps_iff ⟨?_, fun k _ => by rw [setHalf_regs]⟩
  cases h <;> simp only [memories, setHalf, half] at hx ⊢ <;> rw [hx]

theorem keeps_modHalf_iff {d e : Dev} {h : HalfId} {g : Half → Half} {ps : List Nat} (hg : ∀ x, (g x).sram = x.sram) :
    d.keeps (e.modHalf h g) ps ↔ d.keeps e ps := keeps_setHalf_iff (hg _)

@[simp] theorem keeps_modHlf_iff (d e : Dev) (h : HalfId) (g : Hlf → Hlf) (ps : List Nat) : d.keeps (e.modHlf h g) ps ↔ d.keeps e ps := by
  cases h <;> exact Iff.rfl

/-! ### Pages -/

theorem ctl_ne_shp {b c : Blk} (h : HalfId) (hb : b.region = 0) (hc : c.region ≠ 0) (hi : b.index < 256) : ctl b h ≠ shp c := by
  cases h <;> simp only [ctl, shp, pageNo, hb, hc, HalfId.n, if_true, if_false] <;> omega

end Dev

/-! ### Commands out of reset -/

/-- What a command does to a released part. The equation given is true by `rfl` for each command that acts on a released part only. -/
theorem next_of_out {s : State} {o : Host.Outcome State Fault Refusal} {e : Dev} (hout : s.out = true)
    (ho : o = .next { s with dev := if s.dev.boot.released then e else s.dev }) : o = .next { s with dev := e } := by
  have hr : s.dev.boot.released = true := hout
  rw [ho, hr]
  rfl

theorem next_of_out_eq {s : State} {o : Host.Outcome State Fault Refusal} {e e' : Dev} (hout : s.out = true)
    (ho : o = .next { s with dev := if s.dev.boot.released then e else s.dev }) (he : e = e') : o = .next { s with dev := e' } :=
  he ▸ next_of_out hout ho

end Sys2Proof.Machine
end

section
/-! PROOFS. The queue (O1), the part held in reset (O58) and the state after reset (O60). -/
namespace Sys2Proof.Machine

open Sys2Proof

/-- Every command leads to a next state, and leaves the queue as it was. -/
theorem exec_next (i : Instr) (s : State) : ∃ d : Dev, exec i s = .next { s with dev := d } := by cases i <;> exact ⟨_, rfl⟩

/-- Settles O1: a step is `exec` on the rest of the queue, and no command touches the queue. -/
theorem stepRunsFrontCommand : Obligations.StepRunsFrontCommand := by
  unfold Obligations.StepRunsFrontCommand
  refine ⟨fun i s => rfl, fun i rest s hp => ?_, fun s hp => ?_⟩
  · obtain ⟨d, hexec⟩ := exec_next i { s with pending := rest }
    refine ⟨_, ?_, rfl, hexec⟩
    unfold step
    rw [hp]
    exact hexec
  · unfold step
    rw [hp]

/-- What acts on a released part only leaves a part in reset as it was. -/
theorem next_of_held {s : State} {o : Host.Outcome State Fault Refusal} (hout : s.out = false)
    (ho : ∃ d : Dev, o = .next { s with dev := if s.dev.boot.released then d else s.dev }) : o = .next s := by
  obtain ⟨d, rfl⟩ := ho
  have hb : s.dev.boot.released = false := hout
  simp [hb]

/-- Settles O58: every other command acts on a released part only. -/
theorem heldInReset : Obligations.HeldInReset := by
  unfold Obligations.HeldInReset
  intro i s hout
  cases i
  case inputOk | inputLost | inputOvervoltage | powerGood | nresetAssert | resetRelease | strapChange | tick | tamper | alarmFire | vbatSwitchover |
      rtcOscResume | chargerLimit | powerFailWarn | safeInputChange | dinDebouncedChange => exact .inr (by simp)
  all_goals exact .inl (next_of_held hout ⟨_, rfl⟩)

/-- Settles O60: the reset values, read off the state. -/
theorem resetState : Obligations.ResetState := by
  unfold Obligations.ResetState
  refine ⟨rfl, rfl, ?_, rfl, rfl, ?_, ?_, ?_, ?_, ?_, ?_, ?_, ?_, ?_, ?_, ?_⟩
  all_goals decide

end Sys2Proof.Machine
end

section
/-! PROOFS. Writes that a page takes, staged writes and reads of STAT (O2, O3, O5, O9). -/
namespace Sys2Proof.Machine

open Sys2Proof

namespace Dev

/-- The header fields whose writes only store or stage their value. -/
def plainHeader : List Fld := [HDR.IEN_BITS, HDR.CTRL_EN, HDR.CTRL_STAGE_HOLD, HDR.CTRL_IRQ_EN, HDR.CTRL_BSEL, HDR.LOCK_SET]

theorem ctlAct_header {f : Fld} (hf : f ∈ plainHeader) (d : Dev) (w : Who) (p : Nat) (b : Blk) (h : HalfId) (n i v data : Nat) :
    d.ctlAct w p b h n f i v data = none := by
  fin_cases hf <;> cases b <;> rfl

theorem shpAct_header {f : Fld} (hf : f ∈ plainHeader) (d : Dev) (w : Who) (p : Nat) (b : Blk) (n i v data : Nat) :
    d.shpAct w p b n f i v data = none := by
  fin_cases hf <;> cases b <;> rfl

/-- The writable fields of a word. -/
def writables (p off : Nat) : List (Fld × Nat) := (fieldsAt p off).filter fun x => decide (accOn p x.1 ≠ .ro) && decide (accOn p x.1 ≠ .rc)

/-- The fields of a word that a write of this master reaches (R60). -/
def reached (d : Dev) (w : Who) (b : Blk) (p off : Nat) : List (Fld × Nat) :=
  (fieldsAt p off).filter fun x => !(leaseOnly b x.1 && (match w.half? with | some h => !d.holds h | none => false))

/-- The part once a write has ended the parity error of a register (R21). -/
def healReg (d : Dev) (w : Who) (p off : Nat) : Dev := { d with badRegs := d.badRegs.filter (fun x => !decide (x = (p, off, d.tabOf w p off))) }

@[simp] theorem get_healReg (d : Dev) (w : Who) (p off q : Nat) (f : Fld) (i t : Nat) : (d.healReg w p off).get q f i t = d.get q f i t := rfl
@[simp] theorem keeps_healReg (d e : Dev) (w : Who) (p off : Nat) (ps : List Nat) : d.keeps (e.healReg w p off) ps ↔ d.keeps e ps := Iff.rfl
@[simp] theorem reached_healReg (d : Dev) (w v : Who) (b : Blk) (p off q o : Nat) : (d.healReg v q o).reached w b p off = d.reached w b p off := rfl
@[simp] theorem healReg_shadow (d : Dev) (w : Who) (p off : Nat) : (d.healReg w p off).shadow = d.shadow := rfl
@[simp] theorem bndOf_healReg (d : Dev) (w : Who) (p off q : Nat) : (d.healReg w p off).bndOf q = d.bndOf q := rfl

/-- A write of a word that passes every check of its page. -/
theorem pageWrite_taken {d : Dev} {w : Who} {p off a data n : Nat} {b : Blk} (hb : pageBlk p = some (b, n)) (hf : d.fenced.contains p = false)
    (ha : d.aborting.contains p = false) (hal : a % 4 = 0) (hoff : off ≠ 0x20) (hfs : writables p off ≠ [])
    (hpair : b = .sfc ∨ b = .ths ∨ b = .sio → w.mid = 0x10) (hfrc : b = .frc → d.active ((halfOfPage p).getD .a) = true)
    (hmay : ∀ x ∈ writables p off, d.mayWrite w b x.1 = true) (hlock : d.on p HDR.LOCK_SET = false) :
    d.pageWrite w p off a 4 data = (d.healReg w p off).wordWrite w p b n off data := by
  have hany : (writables p off).any (fun x => !d.mayWrite w b x.1) = false := by
    rw [List.any_eq_false]
    intro x hx
    simp [hmay x hx]
  have hne : fieldsAt p off ≠ [] := fun h => hfs (by rw [writables, h]; rfl)
  unfold pageWrite
  simp only [hb, hf, abortWait_of_not_aborting ha, Bool.false_eq_true, if_false]
  rw [if_neg (by simp [hal]), if_neg (by simpa [HDR.ABORT_KEY] using hoff), if_neg (by simpa using hne),
    if_neg (by rintro ⟨h1, h2⟩; exact h2 (hpair h1)), if_neg (by simpa [writables] using hfs), if_neg, if_neg (by rw [← writables, hany]; simp),
    if_neg (by rw [hlock]; simp)]
  · rfl
  · simp only [Bool.and_eq_true, decide_eq_true_eq, Bool.not_eq_true', not_and, Bool.not_eq_false]
    exact hfrc

/-- A plain field of the header that no rule restricts is stored. -/
theorem fieldWrite_header_rw {d : Dev} {w : Who} {p n data : Nat} {b : Blk} {f : Fld} (hf : f ∈ plainHeader) (hacc : accOn p f = .rw)
    (hchk : ∀ v, d.valueWhy p f v = none) : d.fieldWrite w p b n f 0 data = d.put p f (field data f.lo f.w) 0 (d.tabIdx p f w) := by
  have hwin : winBases.contains f = false := by fin_cases hf <;> rfl
  unfold fieldWrite
  simp only [hacc, hwin, hchk, ctlAct_header hf, shpAct_header hf, Bool.false_and, Bool.false_eq_true, if_false]
  cases halfOfPage p <;> rfl

/-- A write of a word that no immediate event follows: its fields in turn, and the record of a changed setting. -/
theorem wordWrite_quiet {d : Dev} {w : Who} {p off data n : Nat} {b : Blk} (hslt : ¬ (p = shp .slt ∧ off = SLT.CFG_FULL_MODE.off))
    (hrtc : ¬ (p = shp .rtc ∧ off = RTC.CHG_EN.off)) (himm : d.bndOf p = 6 → off ≠ 8 ∧ ∀ x ∈ d.reached w b p off, accOn p x.1 ≠ .rs) :
    let d1 := (d.reached w b p off).foldl (fun d x => d.fieldWrite w p b n x.1 x.2 data) (d.ans [])
    d.wordWrite w p b n off data = d1 ∨
      (d.reached w b p off).find? (fun x => isSetting x.1) ≠ none ∧ ∃ r, d.wordWrite w p b n off data = d1.post r := by
  intro e1
  unfold wordWrite
  extract_lets fs held bnd d1 o v d2 d3 staged freed
  have hfs : fs = d.reached w b p off := rfl
  have he : e1 = d1 := rfl
  have h3 : d3 = d2 := by simp only [d3, hslt, hrtc, ← Bool.decide_and, decide_false, Bool.false_eq_true, if_false]
  have hlast : (if decide (bnd = 6) && (staged || freed) then { d3.immEvent p with resp := d3.resp } else d3) = d2 := by
    by_cases h6 : bnd = 6
    · obtain ⟨hoff, hrs⟩ := himm h6
      have hstaged : staged = false := by
        have hany : fs.any (fun x => decide (accOn p x.1 = .rs)) = false := by
          rw [List.any_eq_false]
          intro x hx
          simpa using hrs x hx
        simp only [staged, hany, Bool.false_and]
      have hfreed : freed = false := by simp [freed, HDR.CTRL_STAGE_HOLD, hoff]
      simp only [hstaged, hfreed, h3, Bool.or_false, Bool.and_false, Bool.false_eq_true, if_false]
    · simp only [h6, h3, decide_false, Bool.false_and, Bool.false_eq_true, if_false]
  rw [hlast, he, ← hfs]
  unfold d2
  split
  · rename_i f i hfind
    split
    · exact .inl rfl
    · unfold noteConfig
      split
      · exact .inl rfl
      · exact .inr ⟨by rw [hfind]; simp, _, rfl⟩
  · exact .inl rfl

/-- A write of a word that changes no setting and that no immediate event follows. -/
theorem wordWrite_plain {d : Dev} {w : Who} {p off data n : Nat} {b : Blk} (hset : (d.reached w b p off).find? (fun x => isSetting x.1) = none)
    (hslt : ¬ (p = shp .slt ∧ off = SLT.CFG_FULL_MODE.off)) (hrtc : ¬ (p = shp .rtc ∧ off = RTC.CHG_EN.off))
    (himm : d.bndOf p = 6 → off ≠ 8 ∧ ∀ x ∈ d.reached w b p off, accOn p x.1 ≠ .rs) :
    d.wordWrite w p b n off data = (d.reached w b p off).foldl (fun d x => d.fieldWrite w p b n x.1 x.2 data) (d.ans []) :=
  (wordWrite_quiet hslt hrtc himm).resolve_right fun h => h.1 hset

end Dev

namespace Dev

/-- The lease rule lets a write reach a word whose fields it does not restrict, or that of a lease holder. -/
theorem reached_eq {d : Dev} {w : Who} {b : Blk} {p off : Nat}
    (h : (∀ x ∈ fieldsAt p off, leaseOnly b x.1 = false) ∨ ∀ h, w.half? = some h → d.holds h = true) : d.reached w b p off = fieldsAt p off := by
  rw [reached, List.filter_eq_self]
  intro x hx
  rcases h with h | h
  · rw [h x hx]
    rfl
  · cases hw : w.half? with
    | none => simp
    | some i => simp [h i hw]

theorem leaseOnly_of_ctl {b : Blk} (h : b.region = 0 ∨ b = .hst) (f : Fld) : leaseOnly b f = false := by
  rcases h with h | rfl
  · simp [leaseOnly, h]
  · simp [leaseOnly]

end Dev

/-- Settles O2: the word of `IEN` has one field, whose write only stores. -/
theorem rwWriteTakesEffect : Obligations.RwWriteTakesEffect := by
  unfold Obligations.RwWriteTakesEffect
  intro s w addr v p b n hout hi hp hb hal hf ha hlock hmay hpair hfrc hlease
  refine ⟨_, exec_registerWrite_page hout hi hp 4 v, rfl, ?_⟩
  have hfs : fieldsAt p 0x14 = [(HDR.IEN_BITS, 0)] := rfl
  have hws : Dev.writables p 0x14 = [(HDR.IEN_BITS, 0)] := rfl
  have hreach : s.dev.reached w b p 0x14 = [(HDR.IEN_BITS, 0)] := by
    refine (Dev.reached_eq ?_).trans hfs
    by_cases hr : b.region = 0 ∨ b = .hst
    · exact .inl fun x _ => Dev.leaseOnly_of_ctl hr x.1
    · exact .inr fun h hh => hlease h hh (fun h0 => hr (.inl h0)) fun h0 => hr (.inr h0)
  rw [State.dev_mk, Dev.pageWrite_taken hb hf ha hal (by decide) (by rw [hws]; simp) hpair hfrc (by rw [hws]; simpa using hmay) hlock]
  have hacc : accOn p HDR.IEN_BITS = .rw := rfl
  rw [Dev.wordWrite_plain (by rw [Dev.reached_healReg, hreach]; rfl) (fun h => absurd h.2 (by decide)) (fun h => absurd h.2 (by decide))
      (fun _ => ⟨by decide, by simp [hreach, hacc]⟩), Dev.reached_healReg, hreach, List.foldl_cons, List.foldl_nil,
      Dev.fieldWrite_header_rw (by decide) hacc fun _ => rfl]
  have htab (d : Dev) : d.tabIdx p HDR.IEN_BITS w = 0 := rfl
  rw [htab]
  refine ⟨?_, ?_⟩
  · rw [Dev.get_put_same _ _ _ _ _ _ (by decide)]
    simp [field, HDR.IEN_BITS]
  · exact (Dev.keeps_put_iff (by simp) (by decide) (by decide) (by decide)).2 (Dev.keeps_of_eq rfl rfl _)

namespace Dev

/-- A privileged write of 1 to `LOCK.SET` sets it. -/
theorem fieldWrite_lock (d : Dev) (w : Who) (p : Nat) (b : Blk) (n : Nat) : d.fieldWrite w p b n HDR.LOCK_SET 0 1 = d.put p HDR.LOCK_SET 1 := by
  unfold fieldWrite
  have hacc : accOn p HDR.LOCK_SET = .pv := rfl
  simp only [hacc]
  rfl

end Dev

namespace Dev

/-- A step that touches no register of another page and no value staged on one. -/
def ActsOn (p : Nat) (d e : Dev) : Prop := d.keeps e [p] ∧ ∀ x ∈ d.shadow, x.page ≠ p → x ∈ e.shadow

theorem ActsOn.refl (p : Nat) (d : Dev) : ActsOn p d d := ⟨keeps_refl d [p], fun _ hx _ => hx⟩

theorem ActsOn.trans {p : Nat} {d e f : Dev} (h1 : ActsOn p d e) (h2 : ActsOn p e f) : ActsOn p d f :=
  ⟨keeps_trans h1.1 h2.1, fun x hx hp => h2.2 x (h1.2 x hx hp) hp⟩

theorem actsOn_put (d : Dev) (p : Nat) (f : Fld) (v i t : Nat) (hf : Inside f i t) : ActsOn p d (d.put p f v i t) :=
  ⟨keeps_put d p f v i t [p] hf (by simp), fun _ hx _ => hx⟩

theorem actsOn_stage (d : Dev) (w : Who) (p : Nat) (half : Option HalfId) (f : Fld) (i t v : Nat) : ActsOn p d (d.stage w p half f i t v) := by
  have ht : commitIdx half < 65536 := Nat.lt_of_lt_of_le (commitIdx_lt half) (by decide)
  refine ⟨(keeps_put_iff (by simp) (by decide) (by decide) ht).2 (keeps_of_eq rfl rfl _), fun e he hp => ?_⟩
  refine List.mem_append_left _ (List.mem_filter.2 ⟨he, ?_⟩)
  simp [hp]

/-- Staging a value leaves every register word but `COMMIT.RESULT`. -/
theorem get_stage (d : Dev) (w : Who) (p : Nat) (half : Option HalfId) (f : Fld) (i t v : Nat) {g : Fld} {j u : Nat}
    (hg : HDR.COMMIT_RESULT.apart g = true) (hfit : g.fits = true) (hj : j < g.cnt) (hu : u < 65536) :
    (d.stage w p half f i t v).get p g j u = d.get p g j u :=
  get_put_apart _ _ hg (by decide) hfit (by decide) hj (Nat.lt_of_lt_of_le (commitIdx_lt half) (by decide)) hu

/-- A write of a staged field of `CTRL` leaves `CTRL.STAGE_HOLD`, other pages and what they have staged. -/
theorem fieldWrite_ctrl (d : Dev) (w : Who) (p : Nat) (b : Blk) (n data : Nat) {f : Fld} (hf : f ∈ [HDR.CTRL_EN, HDR.CTRL_IRQ_EN, HDR.CTRL_BSEL]) :
    ActsOn p d (d.fieldWrite w p b n f 0 data) ∧
      (d.fieldWrite w p b n f 0 data).get p HDR.CTRL_STAGE_HOLD = d.get p HDR.CTRL_STAGE_HOLD := by
  have hacc : accOn p f = .rs ∨ accOn p f = .ro := by
    have hrs : f.acc = .rs := by fin_cases hf <;> rfl
    unfold accOn
    split
    · exact .inr rfl
    · split
      · split
        · exact .inr rfl
        · exact .inl hrs
      · exact .inl (by simpa using hrs)
  have hft : f ≠ SHL.FT_DATA_MS := by fin_cases hf <;> decide
  unfold fieldWrite
  rcases hacc with hacc | hacc
  · simp only [hacc, hft, if_false]
    split
    · exact ⟨ActsOn.refl p d, rfl⟩
    · exact ⟨actsOn_stage _ _ _ _ _ _ _ _, get_stage _ _ _ _ _ _ _ _ (by decide) (by decide) (by decide) (by decide)⟩
  · simp only [hacc]
    exact ⟨ActsOn.refl p d, trivial⟩

end Dev

theorem setBitN_false_le (n k : Nat) : setBitN n k false ≤ n := Nat.sub_le _ _

theorem field_setBitN_one (n : Nat) : field (setBitN n 1 false) 1 1 = 0 := by
  unfold field setBitN bitN
  simp only [Bool.false_eq_true, if_false]
  omega

/-- Settles O9: the two words have no field whose write acts. -/
theorem lockAndStageHold : Obligations.LockAndStageHold := by
  unfold Obligations.LockAndStageHold
  intro s w addr p b n hout hi hb hf ha hlock hpair hfrc
  have hexec (off v : Nat) (hp : s.dev.place w (addr.toNat / 0x1000 * 0x1000 + off) = .page p off) (hv : v < 2 ^ 32) :
      s.dev.busWrite w (addr.toNat / 0x1000 * 0x1000 + off) 4 v = s.dev.pageWrite w p off (addr.toNat / 0x1000 * 0x1000 + off) 4 v := by
    rw [Dev.pageWrite_eq _ hi hp, Nat.mod_eq_of_lt hv]
  refine ⟨fun hp hmay => ?_, fun data hp hmay hlease hbnd => ?_⟩
  · have hfs : fieldsAt p 0x28 = [(HDR.LOCK_SET, 0)] := rfl
    have hws : Dev.writables p 0x28 = [(HDR.LOCK_SET, 0)] := rfl
    have hacc : accOn p HDR.LOCK_SET = .pv := rfl
    have hreach : s.dev.reached w b p 0x28 = [(HDR.LOCK_SET, 0)] := (Dev.reached_eq (.inl (by rw [hfs]; simp [Dev.leaseOnly, HDR.LOCK_SET]))).trans hfs
    have hlast := hexec 0x28 1 hp (by decide)
    rw [Dev.pageWrite_taken hb hf ha (by omega) (by decide) (by rw [hws]; simp) hpair hfrc (by rw [hws]; simpa using hmay) hlock] at hlast
    have hquiet := Dev.wordWrite_quiet (d := s.dev.healReg w p 0x28) (w := w) (p := p) (off := 0x28) (data := 1) (n := n) (b := b)
      (fun h => absurd h.2 (by decide)) (fun h => absurd h.2 (by decide)) (fun _ => ⟨by decide, by simp [hreach, hacc]⟩)
    rw [Dev.reached_healReg, hreach, List.foldl_cons, List.foldl_nil, Dev.fieldWrite_lock] at hquiet
    have hset (d : Dev) : (d.put p HDR.LOCK_SET 1).get p HDR.LOCK_SET = 1 := Dev.get_put_same _ _ _ _ _ _ (by decide)
    have hkeep : s.dev.keeps (((s.dev.healReg w p 0x28).ans []).put p HDR.LOCK_SET 1) [p, shp .slt] :=
      (Dev.keeps_put_iff (by simp) (by decide) (by decide) (by decide)).2 (Dev.keeps_of_eq rfl rfl _)
    refine ⟨_, next_of_out_eq hout rfl hlast, rfl, ?_⟩
    rw [State.dev_mk]
    rcases hquiet with hq | ⟨-, r, hq⟩
    · rw [hq, Dev.on, hset]
      exact ⟨rfl, hkeep⟩
    · rw [hq, Dev.on, Dev.get_post_apart _ _ (by decide) (by decide) (by decide) (by decide), hset]
      exact ⟨rfl, (Dev.keeps_post_iff (by simp)).2 hkeep⟩
  · have hfs : fieldsAt p 8 = [(HDR.CTRL_EN, 0), (HDR.CTRL_STAGE_HOLD, 0), (HDR.CTRL_IRQ_EN, 0), (HDR.CTRL_BSEL, 0)] := rfl
    have hacc : accOn p HDR.CTRL_STAGE_HOLD = .rw := rfl
    have hws : (HDR.CTRL_STAGE_HOLD, 0) ∈ Dev.writables p 8 := List.mem_filter.2 ⟨by rw [hfs]; simp, by simp [hacc]⟩
    have hmay' : ∀ x ∈ Dev.writables p 8, s.dev.mayWrite w b x.1 = true := by
      intro x hx
      have hx' := (List.mem_filter.1 hx).1
      rw [hfs] at hx'
      refine hmay x.1 ?_
      fin_cases hx' <;> decide
    have hreach : s.dev.reached w b p 8 = fieldsAt p 8 := by
      refine Dev.reached_eq ?_
      by_cases hr : b.region = 0 ∨ b = .hst
      · exact .inl fun x _ => Dev.leaseOnly_of_ctl hr x.1
      · exact .inr fun h hh => hlease h hh (fun h0 => hr (.inl h0)) fun h0 => hr (.inr h0)
    have hv : setBitN data.toNat 1 false < 2 ^ 32 := Nat.lt_of_le_of_lt (setBitN_false_le _ _) data.isLt
    generalize hdata : setBitN data.toNat 1 false = v at hv
    have hlast := hexec 8 v hp hv
    have htaken := Dev.pageWrite_taken (data := v) (a := addr.toNat / 0x1000 * 0x1000 + 8) hb hf ha (by omega) (by decide) (List.ne_nil_of_mem hws)
      hpair hfrc hmay' hlock
    have hword := Dev.wordWrite_plain (d := s.dev.healReg w p 8) (w := w) (p := p) (off := 8) (data := v) (n := n) (b := b)
      (by rw [Dev.reached_healReg, hreach, hfs]; rfl) (fun h => absurd h.2 (by decide)) (fun h => absurd h.2 (by decide)) (fun h => absurd h hbnd)
    rw [Dev.reached_healReg, hreach, hfs] at hword
    refine ⟨_, next_of_out_eq hout (by rw [← hdata]; rfl) ((hlast.trans htaken).trans hword), rfl, ?_⟩
    simp only [List.foldl_cons, List.foldl_nil]
    generalize hd0 : (s.dev.healReg w p 8).ans [] = d0
    have h0 : Dev.ActsOn p s.dev d0 := by rw [← hd0]; exact ⟨Dev.keeps_of_eq rfl rfl _, fun _ hx _ => hx⟩
    obtain ⟨h1, -⟩ := d0.fieldWrite_ctrl w p b n v (f := HDR.CTRL_EN) (by decide)
    generalize d0.fieldWrite w p b n HDR.CTRL_EN 0 v = d1 at *
    have h2 := d1.actsOn_put p HDR.CTRL_STAGE_HOLD 0 0 0 (by decide)
    have hhold : d1.fieldWrite w p b n HDR.CTRL_STAGE_HOLD 0 v = d1.put p HDR.CTRL_STAGE_HOLD 0 := by
      rw [Dev.fieldWrite_header_rw (by decide) hacc fun _ => rfl, ← hdata]
      exact congrArg (fun x => d1.put p HDR.CTRL_STAGE_HOLD x) (field_setBitN_one _)
    rw [hhold]
    have hzero : (d1.put p HDR.CTRL_STAGE_HOLD 0).get p HDR.CTRL_STAGE_HOLD = 0 := Dev.get_put_same _ _ _ _ _ _ (by decide)
    generalize d1.put p HDR.CTRL_STAGE_HOLD 0 = d2 at *
    obtain ⟨h3, hg3⟩ := d2.fieldWrite_ctrl w p b n v (f := HDR.CTRL_IRQ_EN) (by decide)
    generalize d2.fieldWrite w p b n HDR.CTRL_IRQ_EN 0 v = d3 at *
    obtain ⟨h4, hg4⟩ := d3.fieldWrite_ctrl w p b n v (f := HDR.CTRL_BSEL) (by decide)
    obtain ⟨hkeeps, hshadow⟩ := h0.trans (h1.trans (h2.trans (h3.trans h4)))
    exact ⟨hg4.trans (hg3.trans hzero), hshadow, hkeeps⟩

end Sys2Proof.Machine
end

section
/-! PROOFS. Reading `STAT` (O5). -/
namespace Sys2Proof.Machine

open Sys2Proof

namespace Dev

/-- A write above a field leaves it, whatever entry of a table it names. -/
theorem get_put_above (d : Dev) {p v i t : Nat} {f g : Fld} (h : f.off < g.off) (hlo : f.lo < 32) : (d.put p g v i t).get p f = d.get p f := by
  refine get_put_ne _ _ _ _ _ _ _ _ _ _ ?_
  rw [fkey_eq, fkey_eq]
  have hi : 0 ≤ i * g.stride := Nat.zero_le _
  omega

/-- A chain of writes above the header leaves the header. -/
theorem get_foldl_put_above {p t : Nat} {f : Fld} (h : f.off < 0x40) (hlo : f.lo < 32) : ∀ (l : List (Fld × Nat)) (d : Dev),
    (∀ x ∈ l, 0x40 ≤ x.1.off) → (l.foldl (fun d x => d.put p x.1 x.2 0 t) d).get p f = d.get p f
  | [], _, _ => rfl
  | x :: l, d, hl => by
    rw [List.forall_mem_cons] at hl
    rw [List.foldl_cons, get_foldl_put_above h hlo l _ hl.2, get_put_above _ (Nat.lt_of_lt_of_le h hl.1) hlo]

/-- Refreshing a page leaves its header. -/
theorem get_refresh (d : Dev) {p : Nat} {f : Fld} (h : f.off < 0x40) (hlo : f.lo < 32) : (d.refresh p).get p f = d.get p f := by
  have hput (d : Dev) {g : Fld} (v t : Nat) (hg : 0x40 ≤ g.off) : (d.put p g v 0 t).get p f = d.get p f := get_put_above d (Nat.lt_of_lt_of_le h hg) hlo
  unfold refresh
  split
  · refine get_foldl_put_above h hlo _ _ ?_
    split <;> simp [TMC.CELL_ID_ID, TMC.CELL_CFG_KIND, TMC.CELL_CFG_QFS, TMC.CELL_CFG_Q, TMC.CELL_CFG_PREV, TMC.CELL_PT_MS, TMC.CELL_ET_MS,
      TMC.CELL_IN_ADDR, TMC.CELL_Q_ADDR]
  · exact hput _ _ _ (by decide)
  · exact hput _ _ _ (by decide)
  · exact hput _ _ _ (by decide)
  · rfl

/-- A read of the header advances no port. -/
theorem portRead_header (d : Dev) (w : Who) (p : Nat) {off : Nat} (h : off < 0x40) : d.portRead w p off = d := by
  unfold portRead
  split
  · exact if_neg (by simp only [LE.TBL_DATA_WORD]; omega)
  · exact if_neg (by simp only [CFG.RD_DATA_WORD]; omega)
  · exact if_neg (by simp only [SLT.RD_DATA_WORD]; omega)
  · dsimp only
    rw [if_neg (by simp only [ENC.REP_DATA_WORD]; omega), if_neg (by simp only [ENC.TOK_DATA_WORD]; omega)]
  · exact if_neg (by simp only [SPB.DATA_WORD]; omega)
  · rfl

/-- The fields of `STAT`. -/
def statFields : List Fld := [HDR.STAT_REJECTED, HDR.STAT_APPLIED, HDR.STAT_ABORTED, HDR.STAT_BLOCK]

/-- A field of `STAT` reads as its bits. -/
theorem readField_stat (d : Dev) (w : Who) {p : Nat} {b : Blk × Nat} (hb : pageBlk p = some b) {f : Fld} (hf : f ∈ statFields) :
    d.readField w p f 0 = d.get p f := by
  fin_cases hf
  all_goals
    unfold readField getRO
    rw [hb]
    rfl

/-- A read of a sound register of the header answers its word, and clears its fields that clear on a read of the owner. -/
theorem pageRead_header {d : Dev} {w : Who} {p off a : Nat} (hf : d.fenced.contains p = false) (hal : a % 4 = 0)
    (hreg : d.badRegs.contains (p, off, d.tabOf w p off) = false) (hoff : off < 0x40) :
    d.pageRead w p off a 4 = let e := (d.refresh p).ans [BitVec.ofNat 32 ((d.refresh p).readWord w p off)]
      if (d.refresh p).owns w p then ((fieldsAt p off).filter (fun x => decide (x.1.acc = .rc))).foldl (fun x f => x.put p f.1 0 f.2 ((d.refresh p).tabIdx p f.1 w)) e
      else e := by
  unfold pageRead
  rw [hf, if_neg Bool.false_ne_true, if_neg (by omega), if_neg (by omega), if_neg (by rw [hreg]; exact Bool.false_ne_true), if_neg (by simp),
    if_neg (Nat.not_le.2 hoff)]
  dsimp only
  rw [portRead_header _ _ _ hoff]

end Dev

/-- Settles O5: what a read shows besides is above the header. -/
theorem statClearsOnOwnersRead : Obligations.StatClearsOnOwnersRead := by
  unfold Obligations.StatClearsOnOwnersRead
  intro s w addr p b n hout hi hp hb hal hf hreg
  refine ⟨_, exec_clearingRead_page hout hi hp 4, rfl, ?_⟩
  have hfs : fieldsAt p 0x0C = [(HDR.STAT_REJECTED, 0), (HDR.STAT_APPLIED, 0), (HDR.STAT_ABORTED, 0), (HDR.STAT_BLOCK, 0)] := rfl
  have hget (f : Fld) (hf : f ∈ Dev.statFields) : (s.dev.refresh p).get p f = s.dev.get p f := by
    fin_cases hf <;> exact Dev.get_refresh _ (by decide) (by decide)
  have howns : (s.dev.refresh p).owns w p = s.dev.owns w p := by
    unfold Dev.owns
    rw [Dev.get_refresh _ (by decide) (by decide)]
  have hword : (s.dev.refresh p).readWord w p 0x0C = s.dev.readWord w p 0x0C := by
    have hread (f : Fld) (hf : f ∈ Dev.statFields) : (s.dev.refresh p).readField w p f 0 = s.dev.readField w p f 0 := by
      rw [Dev.readField_stat _ w hb hf, Dev.readField_stat _ w hb hf, hget f hf]
    unfold Dev.readWord
    rw [hfs]
    simp only [List.map_cons, List.map_nil, hread _ (show HDR.STAT_REJECTED ∈ Dev.statFields by simp [Dev.statFields]),
      hread _ (show HDR.STAT_APPLIED ∈ Dev.statFields by simp [Dev.statFields]), hread _ (show HDR.STAT_ABORTED ∈ Dev.statFields by simp [Dev.statFields]),
      hread _ (show HDR.STAT_BLOCK ∈ Dev.statFields by simp [Dev.statFields])]
  rw [State.dev_mk, Dev.pageRead_header hf (by omega) hreg (by decide), hword, howns]
  generalize (BitVec.ofNat 32 (s.dev.readWord w p 0x0C)) = v
  have hmem : s.dev.memories = ((s.dev.refresh p).ans [v]).memories := (Dev.memories_of_frame (Dev.frame_refresh s.dev p)).symm
  cases s.dev.owns w p with
  | false => exact ⟨rfl, hget, hmem⟩
  | true =>
    have hrc : ((fieldsAt p 0x0C).filter fun x => decide (x.1.acc = .rc)) = fieldsAt p 0x0C := rfl
    have htab (f : Fld) (hf : f ∈ Dev.statFields) : (s.dev.refresh p).tabIdx p f w = 0 := by fin_cases hf <;> rfl
    refine ⟨rfl, fun f hf => ?_, hmem⟩
    rw [if_pos rfl, hrc, hfs]
    simp only [List.foldl_cons, List.foldl_nil]
    rw [htab HDR.STAT_REJECTED (by simp [Dev.statFields]), htab HDR.STAT_APPLIED (by simp [Dev.statFields]),
      htab HDR.STAT_ABORTED (by simp [Dev.statFields]), htab HDR.STAT_BLOCK (by simp [Dev.statFields])]
    fin_cases hf
    all_goals simp (disch := decide) [Dev.get_put_same, Dev.get_put_apart]

end Sys2Proof.Machine
end

section
/-! PROOFS. A write of staged fields (O3). -/
namespace Sys2Proof.Machine

open Sys2Proof

namespace Dev

/-- A step that touches the header of one page only. -/
def HeaderOnly (p : Nat) (d e : Dev) : Prop :=
  d.keeps e [p] ∧ ∀ q g j u, 0x40 ≤ g.off → Inside g j u → e.get q g j u = d.get q g j u

theorem HeaderOnly.refl (p : Nat) (d : Dev) : HeaderOnly p d d := ⟨keeps_refl d [p], fun _ _ _ _ _ _ => rfl⟩

theorem HeaderOnly.trans {p : Nat} {d e f : Dev} (h1 : HeaderOnly p d e) (h2 : HeaderOnly p e f) : HeaderOnly p d f :=
  ⟨keeps_trans h1.1 h2.1, fun q g j u hg hi => (h2.2 q g j u hg hi).trans (h1.2 q g j u hg hi)⟩

theorem headerOnly_stage (d : Dev) (w : Who) (p : Nat) (half : Option HalfId) (f : Fld) (i t v : Nat) : HeaderOnly p d (d.stage w p half f i t v) := by
  have ht : commitIdx half < 65536 := Nat.lt_of_lt_of_le (commitIdx_lt half) (by decide)
  refine ⟨(d.actsOn_stage w p half f i t v).1, fun q g j u hg hi => get_put_ne _ _ _ _ _ _ _ _ _ _ ?_⟩
  obtain ⟨hoff, hlo, hu⟩ := hi
  have hres : HDR.COMMIT_RESULT.off < 0x40 ∧ HDR.COMMIT_RESULT.lo < 32 := by decide
  have hj : 0 ≤ j * g.stride := Nat.zero_le _
  rw [fkey_eq, fkey_eq, Nat.zero_mul]
  omega

theorem encGrp_lt (w : Who) : w.encGrp < 65536 := by
  unfold Who.encGrp
  split
  · decide
  · split <;> decide

theorem HeaderOnly.holder {p : Nat} {d e : Dev} (h : HeaderOnly p d e) : e.holder = d.holder := by
  unfold Dev.holder on
  rw [h.2 (shp .wir) WIR.LEASE_HOLDER 0 0 (by decide) (by decide)]

theorem HeaderOnly.tabIdx {p : Nat} {d e : Dev} (h : HeaderOnly p d e) (q : Nat) (f : Fld) (w : Who) : e.tabIdx q f w = d.tabIdx q f w := by
  have hidx (g : Fld) (hg : 0x40 ≤ g.off ∧ Inside g 0 0) : e.get q g = d.get q g := h.2 q g 0 0 hg.1 hg.2
  have hgrp (g : Fld) (hg : 0x40 ≤ g.off ∧ Inside g 0 0) : e.get q g 0 w.encGrp = d.get q g 0 w.encGrp :=
    h.2 q g 0 _ hg.1 ⟨hg.2.1, hg.2.2.1, encGrp_lt w⟩
  unfold Dev.tabIdx
  cases f.tab <;> simp (disch := decide) only [h.holder, hidx, hgrp]

theorem HeaderOnly.shadowOf {p : Nat} {d e : Dev} (h : HeaderOnly p d e) (q : Nat) (w : Who) : e.shadowOf q w = d.shadowOf q w := by
  unfold Dev.shadowOf
  rw [h.holder]

/-- Whether a staged value is one of this entry of a field. -/
def names (p : Nat) (half : Option HalfId) (f : Fld) (i t : Nat) (e : Staged) : Bool :=
  decide (e.page = p ∧ e.half = half ∧ e.fld = f ∧ e.i = i ∧ e.t = t)

theorem staged?_eq (d : Dev) (p : Nat) (half : Option HalfId) (f : Fld) (i t : Nat) : d.staged? p half f i t = d.shadow.find? (names p half f i t) := rfl

theorem stage_shadow (d : Dev) (w : Who) (p : Nat) (half : Option HalfId) (f : Fld) (i t v : Nat) :
    (d.stage w p half f i t v).shadow = d.shadow.filter (fun e => !names p half f i t e) ++
      [⟨p, f, i, t, half, BitVec.ofNat 32 (v % 2 ^ f.w), w.mid, d.privByte w, false⟩] := rfl

/-- A staged value is found. -/
theorem staged_stage_same (d : Dev) (w : Who) (p : Nat) (half : Option HalfId) (f : Fld) (i t v : Nat) :
    (d.stage w p half f i t v).staged? p half f i t = some ⟨p, f, i, t, half, BitVec.ofNat 32 (v % 2 ^ f.w), w.mid, d.privByte w, false⟩ := by
  have hnone : (d.shadow.filter fun e => !names p half f i t e).find? (names p half f i t) = none := by
    rw [List.find?_eq_none]
    intro x hx
    simpa using (List.mem_filter.1 hx).2
  rw [staged?_eq, stage_shadow, List.find?_append, hnone]
  simp [names]

/-- Staging another entry leaves a staged value. -/
theorem staged_stage_other (d : Dev) (w : Who) (p : Nat) (half : Option HalfId) {f g : Fld} {i j : Nat} (t u v : Nat) (h : (g, j) ≠ (f, i)) :
    (d.stage w p half g j u v).staged? p half f i t = d.staged? p half f i t := by
  have hother (e : Staged) (he : names p half f i t e = true) : names p half g j u e = false := by
    obtain ⟨-, -, hf, hi, -⟩ := of_decide_eq_true he
    refine decide_eq_false fun ⟨_, _, hg, hj, _⟩ => h ?_
    rw [← hg, ← hj, hf, hi]
  have hnew : names p half f i t ⟨p, g, j, u, half, BitVec.ofNat 32 (v % 2 ^ g.w), w.mid, d.privByte w, false⟩ = false :=
    decide_eq_false fun ⟨_, _, hg, hj, _⟩ => h (by rw [← hg, ← hj])
  rw [staged?_eq, staged?_eq, stage_shadow, List.find?_append, List.find?_filter, List.find?_cons, hnew, List.find?_nil, Option.or_none]
  refine congrArg (fun q => d.shadow.find? q) (funext fun e => ?_)
  cases he : names p half f i t e with
  | false => simp
  | true => simp [hother e he]

/-- What a staged value reads as through its shadow. -/
theorem view_stage_same (d : Dev) (w : Who) (p : Nat) (half : Option HalfId) (f : Fld) (i t v : Nat) (hw : f.w ≤ 32) :
    (d.stage w p half f i t v).view p half f i t = v % 2 ^ f.w := by
  have hlt : v % 2 ^ f.w < 2 ^ 32 := Nat.lt_of_lt_of_le (Nat.mod_lt _ (Nat.two_pow_pos _)) (Nat.pow_le_pow_right (by decide) hw)
  rw [view, staged_stage_same]
  exact (BitVec.toNat_ofNat ..).trans (Nat.mod_eq_of_lt hlt)

theorem get_commit_stage (d : Dev) (w : Who) (p : Nat) (half : Option HalfId) (f : Fld) (i t v : Nat) :
    (d.stage w p half f i t v).get p HDR.COMMIT_RESULT 0 (commitIdx half) = 3 :=
  get_put_same _ _ _ _ _ _ (by decide)

/-! ### The fields of a word in turn -/

section
variable {w : Who} {p : Nat} {b : Blk} {n data : Nat}

/-- A write of a staged field stages its value; one of a read-only field does nothing. -/
theorem fieldWrite_rs (d : Dev) {f : Fld} (i : Nat) (hacc : accOn p f = .rs) (hf : f ≠ SHL.FT_DATA_MS) (hb : b.bnd ≠ .none) :
    d.fieldWrite w p b n f i data = d.stage w p (d.shadowOf p w) f i (d.tabIdx p f w) (field data f.lo f.w) := by
  unfold fieldWrite
  simp only [hacc, hb, hf, if_false]

theorem fieldWrite_readOnly (d : Dev) {f : Fld} (i : Nat) (hacc : accOn p f = .ro ∨ accOn p f = .rc) : d.fieldWrite w p b n f i data = d := by
  unfold fieldWrite
  rcases hacc with hacc | hacc <;> simp only [hacc]

/-- The entry of a field holds a value staged by a master, and the page shows it. -/
def Waits (d0 d : Dev) (w : Who) (p : Nat) (f : Fld) (i v : Nat) : Prop :=
  (∃ e, d.staged? p (d0.shadowOf p w) f i (d0.tabIdx p f w) = some e ∧ e.val.toNat = v) ∧
    d.get p HDR.COMMIT_RESULT 0 (commitIdx (d0.shadowOf p w)) = 3

theorem waits_stage (d0 d : Dev) (f : Fld) (i : Nat) (hw : f.w ≤ 32) :
    Waits d0 (d.stage w p (d0.shadowOf p w) f i (d0.tabIdx p f w) (field data f.lo f.w)) w p f i (field data f.lo f.w) := by
  have hlt : field data f.lo f.w < 2 ^ f.w := Nat.mod_lt _ (Nat.two_pow_pos _)
  have hlt32 : field data f.lo f.w < 2 ^ 32 := Nat.lt_of_lt_of_le hlt (Nat.pow_le_pow_right (by decide) hw)
  refine ⟨⟨_, staged_stage_same .., ?_⟩, get_commit_stage ..⟩
  rw [Nat.mod_eq_of_lt hlt]
  exact (BitVec.toNat_ofNat ..).trans (Nat.mod_eq_of_lt hlt32)

/-- A field of a word whose write stages it, or does nothing. -/
def StagesOrNot (p : Nat) (x : Fld × Nat) : Prop := (accOn p x.1 = .rs ∧ x.1 ≠ SHL.FT_DATA_MS) ∨ accOn p x.1 = .ro ∨ accOn p x.1 = .rc

theorem headerOnly_fieldWrite (d : Dev) {x : Fld × Nat} (hx : StagesOrNot p x) (hb : b.bnd ≠ .none) : HeaderOnly p d (d.fieldWrite w p b n x.1 x.2 data) := by
  rcases hx with ⟨hacc, hf⟩ | hacc
  · rw [fieldWrite_rs d _ hacc hf hb]
    exact headerOnly_stage ..
  · rw [fieldWrite_readOnly d _ hacc]
    exact .refl p d

theorem headerOnly_foldl (hb : b.bnd ≠ .none) : ∀ (l : List (Fld × Nat)) (d : Dev), (∀ x ∈ l, StagesOrNot p x) →
    HeaderOnly p d (l.foldl (fun d x => d.fieldWrite w p b n x.1 x.2 data) d)
  | [], d, _ => .refl p d
  | x :: l, d, hl => (headerOnly_fieldWrite d (hl x (by simp)) hb).trans (headerOnly_foldl hb l _ fun y hy => hl y (by simp [hy]))

theorem waits_fieldWrite {d0 d : Dev} {f : Fld} {i : Nat} {x : Fld × Nat} (hx : StagesOrNot p x) (hb : b.bnd ≠ .none) (hd : HeaderOnly p d0 d)
    (hw : f.w ≤ 32) (h : Waits d0 d w p f i (field data f.lo f.w)) : Waits d0 (d.fieldWrite w p b n x.1 x.2 data) w p f i (field data f.lo f.w) := by
  rcases hx with ⟨hacc, hf⟩ | hacc
  · rw [fieldWrite_rs d _ hacc hf hb, hd.shadowOf, hd.tabIdx]
    by_cases hxf : x = (f, i)
    · subst hxf
      exact waits_stage d0 d f i hw
    · refine ⟨?_, get_commit_stage ..⟩
      rw [staged_stage_other _ _ _ _ _ _ _ hxf]
      exact h.1
  · rwa [fieldWrite_readOnly d _ hacc]

theorem waits_foldl {d0 : Dev} {f : Fld} {i : Nat} (hb : b.bnd ≠ .none) (hw : f.w ≤ 32) : ∀ (l : List (Fld × Nat)) (d : Dev), (∀ x ∈ l, StagesOrNot p x) →
    HeaderOnly p d0 d → Waits d0 d w p f i (field data f.lo f.w) →
    Waits d0 (l.foldl (fun d x => d.fieldWrite w p b n x.1 x.2 data) d) w p f i (field data f.lo f.w)
  | [], _, _, _, h => h
  | x :: l, d, hl, hd, h =>
    waits_foldl hb hw l _ (fun y hy => hl y (by simp [hy])) (hd.trans (headerOnly_fieldWrite d (hl x (by simp)) hb))
      (waits_fieldWrite (hl x (by simp)) hb hd hw h)

/-- A field among those written in turn waits in the shadow at the end. -/
theorem waits_of_mem {d0 : Dev} {f : Fld} {i : Nat} (hb : b.bnd ≠ .none) (hw : f.w ≤ 32) (hacc : accOn p f = .rs) (hf : f ≠ SHL.FT_DATA_MS)
    {l : List (Fld × Nat)} (hl : ∀ x ∈ l, StagesOrNot p x) (hmem : (f, i) ∈ l) :
    Waits d0 (l.foldl (fun d x => d.fieldWrite w p b n x.1 x.2 data) d0) w p f i (field data f.lo f.w) := by
  obtain ⟨l1, l2, rfl⟩ := List.append_of_mem hmem
  have h1 := headerOnly_foldl (w := w) (n := n) (data := data) hb l1 d0 fun x hx => hl x (by simp [hx])
  rw [List.foldl_append, List.foldl_cons]
  generalize List.foldl _ d0 l1 = d at h1
  have h2 := headerOnly_fieldWrite (w := w) (n := n) (data := data) d (hl (f, i) (by simp)) hb
  refine waits_foldl hb hw l2 _ (fun x hx => hl x (by simp [hx])) (h1.trans h2) ?_
  rw [fieldWrite_rs d _ hacc hf hb, h1.shadowOf, h1.tabIdx]
  exact waits_stage d0 d f i hw

end

theorem acc_of_rs {p : Nat} {f : Fld} (h : accOn p f = .rs) : f.acc = .rs := by
  rw [accOn] at h
  by_cases hmpg : (f = MPG.SERVO_CFG_MULT ∨ f = MPG.SERVO_CFG_EXP_DIV) ∧ p % 256 ≠ 4
  · rw [if_pos hmpg] at h
    cases h
  · rw [if_neg hmpg] at h
    rw [ite_eq_iff] at h
    rcases h with ⟨-, h⟩ | ⟨-, h⟩
    · cases h
    · exact h

theorem leaseOnly_of_rs {b : Blk} {f : Fld} (h : f.acc = .rs) : leaseOnly b f = false := by simp [leaseOnly, h]

theorem isSetting_acc {f : Fld} (h : isSetting f = true) : f.acc = .pv := by
  simp only [isSetting, List.contains_iff_mem] at h
  fin_cases h <;> rfl

/-- A setting is no staged and no read-only field of any page. -/
theorem accOn_of_isSetting (p : Nat) {f : Fld} (h : isSetting f = true) : accOn p f = .pv := by
  simp only [isSetting, List.contains_iff_mem] at h
  fin_cases h <;> rfl

theorem mem_blk_of_fieldsAt {p off : Nat} {b : Blk} {n : Nat} {f : Fld} {i : Nat} (hb : pageBlk p = some (b, n)) (hoff : 0x40 ≤ off)
    (h : (f, i) ∈ fieldsAt p off) : f ∈ b.fields := by
  unfold fieldsAt at h
  rw [if_neg (Nat.not_lt.2 hoff), hb] at h
  obtain ⟨g, hg, hat⟩ := List.mem_filterMap.1 h
  obtain ⟨j, -, hj⟩ := Option.map_eq_some_iff.1 hat
  cases hj
  exact hg

theorem off_of_mem_blk {b : Blk} {f : Fld} (h : f ∈ b.fields) : 0x40 ≤ f.off := by
  have hall : ∀ b : Blk, ∀ f ∈ b.fields, 0x40 ≤ f.off := by
    intro b
    cases b <;> decide
  exact hall b f h

end Dev

/-- Settles O3: each staged field of the word goes to the shadow in turn, and no later one displaces it. -/
theorem rsWriteIsStaged : Obligations.RsWriteIsStaged := by
  unfold Obligations.RsWriteIsStaged
  intro s w addr v p off b n f i hout hi hp hb hmem hacc hin hw hoff hfields hbnd himm ht hpair hfrc hal hfence hab hlock
  refine ⟨_, exec_registerWrite_page hout hi hp 4 v, rfl, ?_⟩
  have hwr : (f, i) ∈ Dev.writables p off := List.mem_filter.2 ⟨hmem, by simp [hacc]⟩
  have hreach : (f, i) ∈ s.dev.reached w b p off := List.mem_filter.2 ⟨hmem, by simp [Dev.leaseOnly_of_rs (Dev.acc_of_rs hacc)]⟩
  have hmay : ∀ x ∈ Dev.writables p off, s.dev.mayWrite w b x.1 = true := by
    intro x hx
    obtain ⟨hx, hx'⟩ := List.mem_filter.1 hx
    rcases hfields with h | h
    · simp only [Bool.and_eq_true, decide_eq_true_eq] at hx'
      exact (h x hx hx'.1 hx'.2).2.2
    · rw [h, List.mem_singleton] at hx
      subst hx
      have hblk := Dev.mem_blk_of_fieldsAt hb hoff (h ▸ List.mem_singleton.2 rfl : (SHL.FT_DATA_MS, i) ∈ fieldsAt p off)
      have hshl : b = .shl := by
        revert hblk
        cases b <;> decide
      subst hshl
      rfl
  have hstep := Dev.pageWrite_taken (data := v.toNat % 2 ^ 32) hb hfence hab hal (by omega) (List.ne_nil_of_mem hwr) hpair hfrc hmay hlock
  have hpv : ∀ x ∈ fieldsAt p off, accOn p x.1 ≠ .pv := by
    intro x hx hpv
    rcases hfields with h | h
    · have := (h x hx (by rw [hpv]; decide) (by rw [hpv]; decide)).1
      rw [hpv] at this
      cases this
    · rw [h, List.mem_singleton] at hx
      subst hx
      cases hpv
  have hset : (s.dev.reached w b p off).find? (fun x => Dev.isSetting x.1) = none := by
    rw [List.find?_eq_none]
    exact fun x hx hs => hpv x (List.mem_filter.1 hx).1 (Dev.accOn_of_isSetting p hs)
  have hplain := Dev.wordWrite_plain (d := s.dev.healReg w p off) (w := w) (p := p) (off := off) (b := b) (data := v.toNat % 2 ^ 32) (n := n)
    (by rw [Dev.reached_healReg]; exact hset)
    (by rintro ⟨rfl, rfl⟩; exact hpv (SLT.CFG_FULL_MODE, 0) (by decide) (by decide))
    (by rintro ⟨rfl, rfl⟩; exact hpv (RTC.CHG_EN, 0) (by decide) (by decide)) (fun h => absurd h himm)
  rw [State.dev_mk, hstep, hplain, Dev.reached_healReg]
  have h0 : Dev.HeaderOnly p s.dev ((s.dev.healReg w p off).ans []) := ⟨Dev.keeps_of_eq rfl rfl _, fun _ _ _ _ _ _ => rfl⟩
  have hshadow := h0.shadowOf p w
  have htab := h0.tabIdx p f w
  rw [← htab] at ht
  generalize (s.dev.healReg w p off).ans [] = d at *
  rw [← hshadow, ← htab] at *
  have hfoff := Dev.off_of_mem_blk (Dev.mem_blk_of_fieldsAt hb hoff hmem)
  have hgoal (e : Dev) (hk : s.dev.keeps e [p]) (hwait : Dev.Waits d e w p f i (field (v.toNat % 2 ^ 32) f.lo f.w))
      (hget : e.get p f i (d.tabIdx p f w) = s.dev.get p f i (d.tabIdx p f w)) :
      e.view p (d.shadowOf p w) f i (d.tabIdx p f w) = field (v.toNat % 2 ^ 32) f.lo f.w ∧
        e.get p HDR.COMMIT_RESULT 0 (Dev.commitIdx (d.shadowOf p w)) = 3 ∧ e.get p f i (d.tabIdx p f w) = s.dev.get p f i (d.tabIdx p f w) ∧
        s.dev.keeps e [p] := by
    obtain ⟨⟨x, hx, hval⟩, hres⟩ := hwait
    refine ⟨?_, hres, hget, hk⟩
    rw [Dev.view, hx]
    exact hval
  rcases hfields with h | h
  · have hstages : ∀ x ∈ s.dev.reached w b p off, Dev.StagesOrNot p x := by
      intro x hx
      by_cases hro : accOn p x.1 = .ro ∨ accOn p x.1 = .rc
      · exact .inr hro
      · obtain ⟨hrs, hft, -⟩ := h x (List.mem_filter.1 hx).1 (fun e => hro (.inl e)) fun e => hro (.inr e)
        exact .inl ⟨hrs, hft⟩
    have hh := h0.trans (Dev.headerOnly_foldl (w := w) (n := n) (data := v.toNat % 2 ^ 32) hbnd _ d hstages)
    have hft := (h (f, i) hmem (by rw [hacc]; decide) (by rw [hacc]; decide)).2.1
    exact hgoal _ hh.1 (Dev.waits_of_mem hbnd hw hacc hft hstages hreach) (hh.2 p f i _ hfoff ⟨hin.1, hin.2.1, ht⟩)
  · rw [h, List.mem_singleton] at hmem
    cases hmem
    have hone : s.dev.reached w b p off = [(SHL.FT_DATA_MS, i)] := by
      rw [Dev.reached_eq (.inl fun x hx => ?_), h]
      rw [h, List.mem_singleton] at hx
      subst hx
      exact Dev.leaseOnly_of_rs rfl
    rw [hone, List.foldl_cons, List.foldl_nil]
    have hft : d.fieldWrite w p b n SHL.FT_DATA_MS i (v.toNat % 2 ^ 32) = (d.stage w p (d.shadowOf p w) SHL.FT_DATA_MS i (d.tabIdx p SHL.FT_DATA_MS w)
        (field (v.toNat % 2 ^ 32) SHL.FT_DATA_MS.lo SHL.FT_DATA_MS.w)).wrapUp p SHL.FT_IDX_IDX := by
      unfold Dev.fieldWrite
      simp only [hacc, hbnd, if_true, if_false]
    have hh := h0.trans (Dev.headerOnly_stage d w p (d.shadowOf p w) SHL.FT_DATA_MS i (d.tabIdx p SHL.FT_DATA_MS w)
      (field (v.toNat % 2 ^ 32) SHL.FT_DATA_MS.lo SHL.FT_DATA_MS.w))
    obtain ⟨hval, hres⟩ := Dev.waits_stage (data := v.toNat % 2 ^ 32) (w := w) (p := p) d d SHL.FT_DATA_MS i hw
    rw [hft]
    have hi0 : i = 0 := by
      have hat := (List.mem_filterMap.1 (h ▸ List.mem_singleton.2 rfl : (SHL.FT_DATA_MS, i) ∈ fieldsAt p off))
      obtain ⟨g, -, hg⟩ := hat
      obtain ⟨j, hj, hg⟩ := Option.map_eq_some_iff.1 hg
      cases hg
      rw [Fld.at?, if_pos (show SHL.FT_DATA_MS.stride = 0 from rfl)] at hj
      exact (Option.some.inj (Option.ite_none_right_eq_some.1 hj).2).symm
    subst hi0
    have hkeep := hh.1
    have hworking := hh.2 p SHL.FT_DATA_MS 0 _ hfoff ⟨hin.1, hin.2.1, ht⟩
    generalize d.stage w p (d.shadowOf p w) SHL.FT_DATA_MS 0 (d.tabIdx p SHL.FT_DATA_MS w) _ = e at *
    have hcidx : Dev.commitIdx (d.shadowOf p w) < 65536 := Nat.lt_of_lt_of_le (Dev.commitIdx_lt _) (by decide)
    refine hgoal _ (Dev.keeps_trans hkeep (Dev.keeps_put _ _ _ _ _ _ _ (by decide) (by simp))) ⟨hval, ?_⟩ ?_
    · exact (Dev.get_put_apart _ _ (by decide) (by decide) (by decide) (by decide) (by decide) (by decide) hcidx).trans hres
    · exact (Dev.get_put_apart _ _ (by decide) (by decide) (by decide) (by decide) (by decide) (by decide) ht).trans hworking

end Sys2Proof.Machine
end

section
/-! PROOFS. Events that apply nothing (O4). -/
namespace Sys2Proof.Machine

open Sys2Proof

namespace Dev

section
variable (d : Dev) (p : Nat) (half : Option HalfId) (rules : View → List RuleFail) (bnd seq : Nat)

/-- How an event shows that it applies nothing. -/
def showQuiet (r : Nat) : Dev := ((d.markEvent p half seq).put p HDR.COMMIT_RESULT r 0 (commitIdx half)).put p HDR.COMMIT_REASON 0 0 (commitIdx half)

theorem applyPage_empty (h : ∀ e ∈ d.shadow, ¬ (e.page = p ∧ e.half = half)) : d.applyPage p half rules bnd seq = d.showQuiet p half seq 0 := by
  have hst : (d.markEvent p half seq).shadow.filter (fun e => decide (e.page = p ∧ e.half = half)) = [] := by
    rw [markEvent_shadow, empty_filter h]
  simp only [applyPage, hst, List.isEmpty_nil, if_true, showQuiet]

theorem applyPage_held (h : ∃ e ∈ d.shadow, e.page = p ∧ e.half = half) (hhold : d.on p HDR.CTRL_STAGE_HOLD = true) :
    d.applyPage p half rules bnd seq = d.showQuiet p half seq 3 := by
  obtain ⟨e, he, hp⟩ := h
  have hst : ((d.markEvent p half seq).shadow.filter (fun e => decide (e.page = p ∧ e.half = half))).isEmpty = false := by
    rw [markEvent_shadow, List.isEmpty_eq_false_iff_exists_mem]
    exact ⟨e, List.mem_filter.2 ⟨he, decide_eq_true hp⟩⟩
  have hon : (d.markEvent p half seq).on p HDR.CTRL_STAGE_HOLD = true := by
    rw [on, markEvent_hold]
    exact hhold
  simp only [applyPage, hst, hon, Bool.true_or, Bool.false_eq_true, if_true, if_false, showQuiet]

theorem commitIdx_lt_tab : commitIdx half < 65536 := Nat.lt_of_lt_of_le (commitIdx_lt half) (by decide)

theorem showQuiet_result (r : Nat) : (d.showQuiet p half seq r).get p HDR.COMMIT_RESULT 0 (commitIdx half) = r % 4 := by
  rw [showQuiet, get_put_apart _ _ (by decide) (by decide) (by decide) (by decide) (by decide) (commitIdx_lt_tab half) (commitIdx_lt_tab half),
    get_put_same _ _ _ _ _ _ (by decide)]
  rfl

theorem showQuiet_seq (r : Nat) : (d.showQuiet p half seq r).get p HDR.COMMIT_SEQ 0 (commitIdx half) = seq % 65536 := by
  have hput (d : Dev) {f : Fld} (v : Nat) (hf : f.apart HDR.COMMIT_SEQ = true) (hfit : f.fits = true) (hc : 0 < f.cnt) :
      (d.put p f v 0 (commitIdx half)).get p HDR.COMMIT_SEQ 0 (commitIdx half) = d.get p HDR.COMMIT_SEQ 0 (commitIdx half) :=
    get_put_apart d v hf hfit (by decide) hc (by decide) (commitIdx_lt_tab half) (commitIdx_lt_tab half)
  rw [showQuiet, hput _ _ (by decide) (by decide) (by decide), hput _ _ (by decide) (by decide) (by decide), markEvent_seq]

theorem showQuiet_keeps (r : Nat) : d.keeps (d.showQuiet p half seq r) [p] :=
  (keeps_put_iff (by simp) (by decide) (by decide) (commitIdx_lt_tab half)).2
    ((keeps_put_iff (by simp) (by decide) (by decide) (commitIdx_lt_tab half)).2 (markEvent_keeps d p half seq))

theorem showQuiet_shadow (r : Nat) : (d.showQuiet p half seq r).shadow = d.shadow := markEvent_shadow d p half seq

theorem showQuiet_body (r : Nat) {f : Fld} {i t : Nat} (hf : Inside f i t) (hoff : 0x40 ≤ f.off) :
    (d.showQuiet p half seq r).get p f i t = d.get p f i t := by
  have hi : 0 ≤ i * f.stride := Nat.zero_le _
  have hc := commitIdx_lt half
  have hput (d : Dev) {g : Fld} (v : Nat) (hg : g.off < 0x40 ∧ g.lo < 31) : (d.put p g v 0 (commitIdx half)).get p f i t = d.get p f i t := by
    refine get_put_ne _ _ _ _ _ _ _ _ _ _ ?_
    rw [fkey_eq, fkey_eq, Nat.zero_mul]
    omega
  rw [showQuiet, hput _ _ (by decide), hput _ _ (by decide), markEvent_get_body d p half seq f i t hf hoff]

end

end Dev

/-- Settles O4. -/
theorem quietEventsApplyNothing : Obligations.QuietEventsApplyNothing := by
  unfold Obligations.QuietEventsApplyNothing
  refine ⟨fun d p half rules bnd seq h => ?_, fun d p half rules bnd seq h hhold => ?_⟩
  · rw [d.applyPage_empty p half rules bnd seq h]
    exact ⟨d.showQuiet_result p half seq 0, d.showQuiet_seq p half seq 0, d.showQuiet_shadow p half seq 0, d.showQuiet_keeps p half seq 0⟩
  · rw [d.applyPage_held p half rules bnd seq h hhold]
    exact ⟨d.showQuiet_result p half seq 3, d.showQuiet_shadow p half seq 3, d.showQuiet_keeps p half seq 3,
      fun f i t hf hoff => d.showQuiet_body p half seq 3 hf hoff⟩

end Sys2Proof.Machine
end

section
/-! PROOFS. Single bits of a number. -/
namespace Sys2Proof.Machine

open Sys2Proof

theorem bitN_eq_testBit (n k : Nat) : bitN n k = (n.testBit k).toNat := by
  rw [bitN, Nat.testBit_eq_decide_div_mod_eq]
  rcases Nat.mod_two_eq_zero_or_one (n / 2 ^ k) with h | h <;> simp [h]

/-- A number with one bit set, from the bits above it and below it. -/
theorem setBitN_eq (n k : Nat) (b : Bool) : setBitN n k b = 2 ^ (k + 1) * (n / 2 ^ (k + 1)) + (2 ^ k * b.toNat + n % 2 ^ k) := by
  have h1 : n / 2 ^ k / 2 = n / 2 ^ (k + 1) := by rw [Nat.div_div_eq_div_mul, ← Nat.pow_succ]
  have hn : n = 2 ^ (k + 1) * (n / 2 ^ (k + 1)) + bitN n k * 2 ^ k + n % 2 ^ k := by
    calc n = 2 ^ k * (n / 2 ^ k) + n % 2 ^ k := (Nat.div_add_mod n (2 ^ k)).symm
      _ = 2 ^ k * (2 * (n / 2 ^ k / 2) + bitN n k) + n % 2 ^ k := by rw [bitN, Nat.div_add_mod (n / 2 ^ k) 2]
      _ = 2 ^ (k + 1) * (n / 2 ^ (k + 1)) + bitN n k * 2 ^ k + n % 2 ^ k := by rw [h1]; ring
  unfold setBitN
  cases b <;> simp <;> omega

/-- Setting a bit sets that bit, and leaves the others. -/
theorem testBit_setBitN (n k j : Nat) (b : Bool) : (setBitN n k b).testBit j = if j = k then b else n.testBit j := by
  have hr : n % 2 ^ k < 2 ^ k := Nat.mod_lt _ (Nat.two_pow_pos k)
  have hlow : 2 ^ k * b.toNat + n % 2 ^ k < 2 ^ (k + 1) := by
    rw [Nat.pow_succ]
    cases b <;> simp <;> omega
  rw [setBitN_eq, Nat.testBit_two_pow_mul_add _ hlow, Nat.testBit_two_pow_mul_add _ hr]
  rcases Nat.lt_trichotomy j k with h | rfl | h
  · rw [if_pos (by omega), if_pos h, if_neg (by omega), Nat.testBit_mod_two_pow]
    simp [h]
  · cases b <;> simp
  · rw [if_neg (by omega), if_neg (by omega), Nat.testBit_div_two_pow, Nat.sub_add_cancel (by omega)]

@[simp] theorem bitN_setBitN_same (n k : Nat) (b : Bool) : bitN (setBitN n k b) k = b.toNat := by
  rw [bitN_eq_testBit, testBit_setBitN, if_pos rfl]

theorem bitN_setBitN_ne (n : Nat) {k j : Nat} (b : Bool) (h : j ≠ k) : bitN (setBitN n k b) j = bitN n j := by
  rw [bitN_eq_testBit, bitN_eq_testBit, testBit_setBitN, if_neg h]

end Sys2Proof.Machine
end

section
/-! PROOFS. The device safe state stands: what comes after its cause keeps the cause. -/
namespace Sys2Proof.Machine

open Sys2Proof

namespace Dev

/-- The device safe state, and the causes of the safe state of the field outputs. -/
def alarm (d : Dev) : Bool × Nat := (d.saf.deviceSafe, d.fio.causes)

theorem alarm_congr {d e : Dev} (hs : e.saf.deviceSafe = d.saf.deviceSafe) (hf : e.fio.causes = d.fio.causes) : e.alarm = d.alarm := by
  rw [alarm, alarm, hs, hf]

@[simp] theorem alarm_with_ha (d : Dev) (x) : ({ d with ha := x } : Dev).alarm = d.alarm := alarm_congr rfl rfl
@[simp] theorem alarm_with_hb (d : Dev) (x) : ({ d with hb := x } : Dev).alarm = d.alarm := alarm_congr rfl rfl
@[simp] theorem alarm_with_immCnt (d : Dev) (x) : ({ d with immCnt := x } : Dev).alarm = d.alarm := alarm_congr rfl rfl
@[simp] theorem alarm_with_regs (d : Dev) (x) : ({ d with regs := x } : Dev).alarm = d.alarm := alarm_congr rfl rfl
@[simp] theorem alarm_with_shadow (d : Dev) (x) : ({ d with shadow := x } : Dev).alarm = d.alarm := alarm_congr rfl rfl
@[simp] theorem alarm_with_silt (d : Dev) (x) : ({ d with silt := x } : Dev).alarm = d.alarm := alarm_congr rfl rfl
@[simp] theorem alarm_with_stpPins (d : Dev) (x) : ({ d with stpPins := x } : Dev).alarm = d.alarm := alarm_congr rfl rfl

@[simp] theorem alarm_ite (c : Prop) [Decidable c] (a b : Dev) : (if c then a else b).alarm = if c then a.alarm else b.alarm := apply_ite alarm c a b

@[simp] theorem alarm_foldl {α : Type} {f : Dev → α → Dev} (hf : ∀ d x, (f d x).alarm = d.alarm) (l : List α) (d : Dev) :
    (l.foldl f d).alarm = d.alarm := by
  induction l generalizing d with
  | nil => rfl
  | cons x xs ih => exact (ih _).trans (hf d x)

@[simp] theorem alarm_foldl_fst {α β : Type} {f : Dev × β → α → Dev × β} (hf : ∀ q x, (f q x).1.alarm = q.1.alarm) (l : List α) (q : Dev × β) :
    (l.foldl f q).1.alarm = q.1.alarm := by
  induction l generalizing q with
  | nil => rfl
  | cons x xs ih => exact (ih _).trans (hf q x)

@[simp] theorem alarm_put (d : Dev) (p f v i t) : (d.put p f v i t).alarm = d.alarm := alarm_congr rfl rfl

@[simp] theorem alarm_bump (d : Dev) (p f i t) : (d.bump p f i t).alarm = d.alarm := alarm_congr rfl rfl

@[simp] theorem alarm_putb (d : Dev) (p f b i t) : (d.putb p f b i t).alarm = d.alarm := alarm_congr rfl rfl

@[simp] theorem alarm_puti (d : Dev) (p f x i t) : (d.puti p f x i t).alarm = d.alarm := alarm_congr rfl rfl

@[simp] theorem alarm_aoDrive (d : Dev) (c) : (d.aoDrive c).alarm = d.alarm := alarm_congr rfl rfl

@[simp] theorem alarm_fioDrive (d : Dev) : d.fioDrive.alarm = d.alarm := alarm_congr rfl rfl

@[simp] theorem alarm_orBits (d : Dev) (p f m i t) : (d.orBits p f m i t).alarm = d.alarm := alarm_congr rfl rfl

@[simp] theorem alarm_stat (d : Dev) (p k) : (d.stat p k).alarm = d.alarm := alarm_congr rfl rfl

@[simp] theorem alarm_stpShow (d : Dev) : d.stpShow.alarm = d.alarm := alarm_congr rfl rfl

@[simp] theorem alarm_stpSafe (d : Dev) : d.stpSafe.alarm = d.alarm := alarm_congr rfl rfl

@[simp] theorem alarm_trimEnd (d : Dev) : d.trimEnd.alarm = d.alarm := by simp [trimEnd]

@[simp] theorem alarm_markEvent (d : Dev) (p half seq) : (d.markEvent p half seq).alarm = d.alarm := by
  unfold markEvent
  split <;> simp

@[simp] theorem alarm_err (d : Dev) (p code detail) : (d.err p code detail).alarm = d.alarm := alarm_congr rfl rfl

@[simp] theorem alarm_post (d : Dev) (r) : (d.post r).alarm = d.alarm := alarm_congr (by rw [post_saf]) (by rw [post_fio])

@[simp] theorem alarm_noteConfig (d : Dev) (e code reason old new seq bnd) : (d.noteConfig e code reason old new seq bnd).alarm = d.alarm := by simp [noteConfig]

@[simp] theorem alarm_applyPage (d : Dev) (p half rules bnd seq) : (d.applyPage p half rules bnd seq).alarm = d.alarm := by
  unfold applyPage
  dsimp only
  refine iteInduction (motive := fun e : Dev => e.alarm = d.alarm) (fun _ => by simp) fun _ =>
    iteInduction (motive := fun e : Dev => e.alarm = d.alarm) (fun _ => by simp) fun _ => ?_
  generalize List.foldl _ none _ = rejected
  cases rejected <;> simp

@[simp] theorem alarm_nextImm (d : Dev) (p) : (d.nextImm p).2.alarm = d.alarm := alarm_congr rfl rfl

@[simp] theorem alarm_applyTrm (d : Dev) (half) : (d.applyTrm half).alarm = d.alarm := by simp [applyTrm]

@[simp] theorem alarm_trimRelease (d : Dev) : d.trimRelease.alarm = d.alarm := by simp [trimRelease]

@[simp] theorem alarm_modSp (d : Dev) (n f) : (d.modSp n f).alarm = d.alarm := alarm_congr rfl rfl

@[simp] theorem alarm_putBit (d : Dev) (p f k b i t) : (d.putBit p f k b i t).alarm = d.alarm := alarm_congr rfl rfl

@[simp] theorem alarm_outUpdate (d : Dev) : d.outUpdate.alarm = d.alarm := alarm_congr rfl rfl

@[simp] theorem alarm_carOff (d : Dev) (n) : (d.carOff n).alarm = d.alarm := by simp [carOff]

@[simp] theorem alarm_modTh (d : Dev) (n f) : (d.modTh n f).alarm = d.alarm := alarm_congr rfl rfl

@[simp] theorem alarm_endRescue (d : Dev) (n) : (d.endRescue n).alarm = d.alarm := alarm_congr rfl rfl

@[simp] theorem alarm_note (d : Dev) (p cls code detail words) : (d.note p cls code detail words).alarm = d.alarm := by simp [note]

@[simp] theorem alarm_safNote (d : Dev) (p code detail words) : (d.safNote p code detail words).alarm = d.alarm := by simp [safNote]

@[simp] theorem alarm_both (d : Dev) (f : Dev → HalfId → Dev) (hf : ∀ d h, (f d h).alarm = d.alarm) : (d.both f).alarm = d.alarm := by rw [both, hf, hf]

@[simp] theorem alarm_modHalf (d : Dev) (h f) : (d.modHalf h f).alarm = d.alarm := alarm_congr (by rw [modHalf_saf]) (by rw [modHalf_fio])

@[simp] theorem alarm_modMpg (d : Dev) (h n f) : (d.modMpg h n f).alarm = d.alarm := by simp [modMpg]

@[simp] theorem alarm_stopLine (d : Dev) (n cat) : (d.stopLine n cat).alarm = d.alarm := by simp [stopLine]

@[simp] theorem alarm_put64 (d : Dev) (p lo hi v i t) : (d.put64 p lo hi v i t).alarm = d.alarm := alarm_congr rfl rfl

@[simp] theorem alarm_thTrip (d : Dev) (n cause words) : (d.thTrip n cause words).alarm = d.alarm := by simp [thTrip]

@[simp] theorem alarm_spStop (d : Dev) (n cause cat words) : (d.spStop n cause cat words).alarm = d.alarm := by simp [spStop]

@[simp] theorem alarm_deviceStop (d : Dev) : d.deviceStop.alarm = d.alarm := by simp [deviceStop]

end Dev
end Sys2Proof.Machine
end

section
/-! PROOFS. Fences, the device safe state and posts of the recorder (O10, O11, O15). -/
namespace Sys2Proof.Machine

open Sys2Proof

namespace Dev

theorem region_of_pageBlk {p : Nat} {b : Blk} {n : Nat} (h : pageBlk p = some (b, n)) : b.region = regionOf p := by
  unfold pageBlk at h
  obtain ⟨c, hc, hcb⟩ := Option.map_eq_some_iff.1 h
  cases hcb
  have hfound := List.find?_some hc
  simp only [decide_eq_true_eq] at hfound
  exact hfound.1

theorem region_pos_of_bank {p : Nat} {b : Blk} {n : Nat} (h : pageBlk p = some (b, n)) (hbank : 2 ≤ bankOf p) : b.region ≠ 0 := by
  rw [region_of_pageBlk h, regionOf, if_neg (by omega)]
  omega

theorem halfOfPage_of_bank {p : Nat} (hbank : 2 ≤ bankOf p) : halfOfPage p = none := by
  rw [halfOfPage, if_neg (by omega), if_neg (by omega)]

/-- A shared page is no page of a car. -/
theorem carBlock_of_bank (d : Dev) {p : Nat} (hbank : 2 ≤ bankOf p) : d.carBlock p = false := by
  unfold carBlock
  rw [halfOfPage_of_bank hbank]
  cases pageBlk p <;> rfl

/-- The memories and the fences, which an abort of a shared block leaves. -/
def guarded (d : Dev) : List (List Host.Cell) × List Nat := (d.memories, d.fenced)

theorem guarded_of_frame {d e : Dev} (h : e.frame = d.frame) : e.guarded = d.guarded := by
  rw [guarded, guarded, memories_of_frame h, fenced_of_frame h]

theorem guarded_abortSlt (d : Dev) : d.abortSlt.guarded = d.guarded := by
  unfold abortSlt
  extract_lets p d1 d2
  refine (guarded_of_frame (d := d1) ?_).trans rfl
  simp [d2]

theorem guarded_abortBlk (d : Dev) {p : Nat} (hbank : 2 ≤ bankOf p) : (d.abortBlk p).guarded = d.guarded := by
  unfold abortBlk
  split
  · rfl
  · rename_i b n hb
    have hreg := region_pos_of_bank hb hbank
    cases b
    case slt => exact guarded_abortSlt d
    case can | glk | hst | rsm | wir | din | dout | ain | aout | trm | sfc | smb | ths | sio | spb | cfg | rtc | cal | nvm | enc | pwr =>
      exact guarded_of_frame (by simp)
    case bot => rfl
    all_goals exact absurd rfl hreg

theorem guarded_foldl_abortBlk : ∀ (ps : List Nat) (d : Dev), (∀ p ∈ ps, 2 ≤ bankOf p) → (ps.foldl abortBlk d).guarded = d.guarded
  | [], _, _ => rfl
  | p :: ps, d, h => by
    rw [List.foldl_cons, guarded_foldl_abortBlk ps _ fun q hq => h q (by simp [hq]), guarded_abortBlk d (h p (by simp))]

/-- The fence of a shared page. -/
theorem fence_of_bank (d : Dev) {p n : Nat} {b : Blk} (hb : pageBlk p = some (b, n)) (hbank : 2 ≤ bankOf p) (hf : p ∉ d.fenced) :
    d.fence p = { d with fenced := d.fenced ++ [p], aborting := d.aborting.filter (fun q => q != p) }.fault p cFENCED := by
  unfold fence
  rw [if_neg (by simp [hb, hf]), carBlock_of_bank d hbank]

theorem keeps_fault_iff {d e : Dev} {ps : List Nat} {p code x : Nat} {words : List Nat} (hp : p ∈ ps) (hslt : shp .slt ∈ ps) :
    d.keeps (e.fault p code x words) ps ↔ d.keeps e ps := by
  rw [fault, note, keeps_post_iff hslt, keeps_err_iff hp]

theorem fenced_fault (d : Dev) (p code x : Nat) (words : List Nat) : (d.fault p code x words).fenced = d.fenced :=
  fenced_of_frame (frame_fault d p code x words)

theorem alarm_fioSafe (d : Dev) (c : Nat) : (d.fioSafe c).alarm = (d.saf.deviceSafe, setBitN d.fio.causes c true) := by
  unfold fioSafe
  extract_lets was sel outputs d1 d2 d3
  have h1 : d1.alarm = (d.saf.deviceSafe, setBitN d.fio.causes c true) := rfl
  have h2 : d2.alarm = d1.alarm := by simp [d2]
  have h3 : d3.alarm = d2.alarm := by simp [d3]
  rw [alarm_ite, alarm_trimRelease, alarm_fioDrive, ite_self, h3, h2, h1]

/-- The device safe state is in force after its cause. -/
theorem alarm_deviceSafe (d : Dev) : d.deviceSafe.alarm = (true, setBitN d.fio.causes 4 true) := by
  rw [deviceSafe, alarm_deviceStop, alarm_fioSafe]

/-- A fault shows its code. -/
theorem fault_code (d : Dev) {p : Nat} (code x : Nat) (words : List Nat) (hp : p ≠ shp .slt) :
    (d.fault p code x words).get p HDR.ERR_CODE = code % 256 := by
  rw [fault, note, get_post_other _ _ hp (by decide) (by decide) (by decide), err]
  simp (disch := decide) [get_put_same, get_put_apart]
  rfl

end Dev

/-- Settles O10. -/
theorem lateBlockIsFenced : Obligations.LateBlockIsFenced := by
  unfold Obligations.LateBlockIsFenced
  intro s p b n hout hb hbank hf
  have hfence := s.dev.fence_of_bank hb hbank hf
  have hkeep : s.dev.keeps (s.dev.fence p) [p, shp .slt] := by
    rw [hfence, Dev.keeps_fault_iff (by simp) (by simp)]
    exact Dev.keeps_of_eq rfl rfl _
  have hfenced : (s.dev.fence p).fenced = s.dev.fenced ++ [p] := by rw [hfence, Dev.fenced_fault]
  refine ⟨fun w addr off hi hp => ?_, fun page hpage => ?_⟩
  · have hstep : s.dev.accessTimeout w addr.toNat = (s.dev.fence p).busErr [] cTIMEOUT := by
      unfold Dev.accessTimeout
      simp only [hi, Bool.not_true, Bool.false_eq_true, if_false, hp]
    exact ⟨_, next_of_out_eq hout rfl hstep, rfl, hfenced, rfl, hkeep⟩
  · subst hpage
    refine ⟨_, next_of_out_eq hout rfl hfence, rfl, by rw [← hfence]; exact hfenced, fun hp => ?_, by rw [← hfence]; exact hkeep⟩
    rw [State.dev_mk, Dev.fault_code _ _ _ _ hp]
    rfl

/-- Settles O11. -/
theorem regionAbortClearsFences : Obligations.RegionAbortClearsFences := by
  unfold Obligations.RegionAbortClearsFences
  refine fun s hout => ⟨fun bank hbank => ?_, ?_⟩
  · have hps : ∀ p ∈ s.dev.fenced.filter (fun p => bankOf p == bank.val), 2 ≤ bankOf p := by
      intro p hp
      rw [eq_of_beq (List.mem_filter.1 hp).2]
      exact hbank
    have hlost : (s.dev.fenced.filter (fun p => bankOf p == bank.val)).any s.dev.carBlock = false := by
      rw [List.any_eq_false]
      intro p hp
      rw [s.dev.carBlock_of_bank (hps p hp)]
      exact Bool.false_ne_true
    have hstep : s.dev.regionAbort bank.val = (s.dev.fenced.filter (fun p => bankOf p == bank.val)).foldl Dev.abortBlk
        { s.dev with fenced := s.dev.fenced.filter (fun p => bankOf p != bank.val) } := by
      unfold Dev.regionAbort
      simp only [hlost, Bool.false_eq_true, if_false]
    have hguard := Dev.guarded_foldl_abortBlk _ { s.dev with fenced := s.dev.fenced.filter (fun p => bankOf p != bank.val) } hps
    exact ⟨_, next_of_out_eq hout rfl hstep, rfl, congrArg Prod.snd hguard, congrArg Prod.fst hguard⟩
  · have halarm := Dev.alarm_deviceSafe s.dev
    have hmem := Dev.memories_of_frame (Dev.frame_deviceSafe s.dev)
    refine ⟨_, next_of_out_eq hout rfl (Eq.refl s.dev.deviceSafe), rfl, ?_⟩
    generalize s.dev.deviceSafe = e at *
    exact ⟨congrArg Prod.fst halarm, (congrArg (fun x => bitN x.2 4) halarm).trans (bitN_setBitN_same _ _ true), hmem⟩

end Sys2Proof.Machine
end

section
/-! PROOFS. Records that the recorder takes or loses (O15). -/
namespace Sys2Proof.Machine

open Sys2Proof

namespace Dev

theorem post_taken {d : Dev} {r : Rec} (h : d.siltTakes r = true) : (d.post r).silt =
    if protectedCls r.cls then { d.silt with qProt := d.silt.qProt ++ [r] } else { d.silt with qUn := d.silt.qUn ++ [r] } := by
  rw [post, if_pos h, put_silt]

theorem post_lost {d : Dev} {r : Rec} (h : d.siltTakes r = false) : d.post r = d.lose r := by
  rw [post, h, if_neg Bool.false_ne_true]

theorem stat_silt (d : Dev) (p k : Nat) : (d.stat p k).silt = d.silt := rfl

theorem err_silt (d : Dev) (p c x : Nat) : (d.err p c x).silt = d.silt := rfl

theorem lose_silt (d : Dev) (r : Rec) : (d.lose r).silt =
    if protectedCls r.cls then { d.silt with lossProt := lossStep d.silt.lossProt r.ts } else { d.silt with lossUn := lossStep d.silt.lossUn r.ts } := by
  have hshow (c : Prop) [Decidable c] (e : Dev) (k x : Nat) : ((if c then e.stat (shp .slt) 0 else e).err (shp .slt) k x).silt = e.silt := by
    split <;> rfl
  unfold lose
  cases protectedCls r.cls
  · simp only [Bool.false_eq_true, if_false, hshow]
    rfl
  · simp only [if_true, hshow]
    rfl

end Dev

/-- Settles O15. -/
theorem siltPostQueuesOrCounts : Obligations.SiltPostQueuesOrCounts := by
  unfold Obligations.SiltPostQueuesOrCounts
  intro s src page mid priv cls code detail pl hout hlen hcls r
  have hpost : s.dev.siltPost src.toNat page.toNat mid.toNat priv.toNat cls.toNat code.toNat detail.toNat (pl.map BitVec.toNat) = s.dev.post r := by
    unfold Dev.siltPost
    rw [if_neg (by rw [List.length_map]; omega), List.length_map]
  have hstep := next_of_out_eq (o := exec (.siltPost src page mid priv cls code detail pl) s) hout rfl hpost
  have hkeep : s.dev.keeps (s.dev.post r) [shp .slt] := Dev.keeps_post s.dev r _ (by simp)
  have hr : protectedCls r.cls = protectedCls cls.toNat := rfl
  have hts : r.ts = s.dev.now := rfl
  clear_value r
  refine ⟨fun h => ⟨_, hstep, rfl, ?_, hkeep⟩, fun h => ⟨_, hstep, rfl, ?_, ?_, ?_, hkeep⟩⟩
  · rw [State.dev_mk, Dev.post_taken h, hr]
    split <;> rfl
  all_goals rw [State.dev_mk, Dev.post_lost h, Dev.lose_silt, hr]
  · split <;> rfl
  · split <;> rfl
  · rw [hts]
    split <;> rfl

end Sys2Proof.Machine
end

section
/-! PROOFS. The abort of the enclave (O8).

The enclave shows the end of the operation it runs under the requester group that the operation names. The statement bounds that group by nothing, and
an operation of a group so far out of range ends on another page. -/
namespace Sys2Proof.Machine

open Sys2Proof

/-- A group so far out of range that the key of its `CMD_ST` on the page of ENC is a key of the page after it. -/
def spillGrp : Nat := fkey (shp .enc + 1) ENC.CMD_ST_STATE 0 0 - fkey (shp .enc) ENC.CMD_ST_STATE 0 0

/-- The part out of reset, with the enclave at work on a report for that group. -/
def spillJob : Dev :=
  { Dev.init with boot := { Dev.init.boot with released := true }, encl := { Dev.init.encl with job := some (.attest spillGrp []) } }

/-- The enclave as a master. -/
def enclaveW : Who := ⟨0x11, true⟩

/-- The address of `ABORT` on the page of ENC. -/
def encAbortAddr : BitVec 64 := BitVec.ofNat 64 (pageBase (shp .enc) + HDR.ABORT_KEY.off)

/-- The abort writes a register of the next page. -/
theorem rfFind_abort_spillJob :
    rfFind (fkey (shp .enc) ENC.CMD_ST_STATE 0 spillGrp) (spillJob.busWrite enclaveW (encAbortAddr.toNat / 0x1000 * 0x1000 + HDR.ABORT_KEY.off) 4 0xAB).regs =
      some 3 := by decide

/-- Refutes O8: in `spillJob` the abort of ENC changes a register of another page. -/
theorem not_blockAbortStopsTheBlock : ¬ Obligations.BlockAbortStopsTheBlock := by
  unfold Obligations.BlockAbortStopsTheBlock
  intro h
  obtain ⟨-, habort⟩ := h ⟨spillJob, []⟩ enclaveW encAbortAddr (shp .enc) .enc 0 (by decide) (by decide) (by decide) (by decide) (by decide) (by decide)
    (by decide) (by decide) (by decide)
  obtain ⟨⟨t, hexec, -, -, -, -, -, -, -, hkeeps, -⟩, -⟩ := habort (by decide)
  have hstep : exec (.blockAbort enclaveW encAbortAddr 0xAB) ⟨spillJob, []⟩ =
      .next { dev := spillJob.busWrite enclaveW (encAbortAddr.toNat / 0x1000 * 0x1000 + HDR.ABORT_KEY.off) 4 0xAB, pending := [] } :=
    next_of_out (by decide) rfl
  rw [hstep] at hexec
  obtain ⟨-, hregs⟩ := hkeeps (by decide)
  have hfind := hregs (fkey (shp .enc) ENC.CMD_ST_STATE 0 spillGrp) (by decide)
  rw [← Host.Outcome.next.inj hexec, State.dev_mk, rfFind_abort_spillJob] at hfind
  exact absurd hfind (by decide)

end Sys2Proof.Machine
end

section
/-! PROOFS. What the helpers of the model that change state beside the registers leave as it was, and the pages of the CTL blocks. -/
namespace Sys2Proof.Machine

open Sys2Proof

/-! ### Entries of lists -/

theorem getD_lmod {α : Type} (f : α → α) (a : α) : ∀ (l : List α) (i j : Nat), (lmod l i f).getD j a = if j = i ∧ i < l.length then f (l.getD i a) else l.getD j a
  | [], i, j => by simp [lmod]
  | x :: l, 0, 0 => by simp [lmod]
  | x :: l, 0, j + 1 => by simp [lmod]
  | x :: l, i + 1, 0 => by simp [lmod]
  | x :: l, i + 1, j + 1 => by simpa [lmod] using getD_lmod f a l i j

theorem getD_lmod_same {α : Type} (f : α → α) (a : α) {l : List α} {i : Nat} (h : i < l.length) : (lmod l i f).getD i a = f (l.getD i a) := by
  rw [getD_lmod, if_pos ⟨rfl, h⟩]

theorem getD_lmod_ne {α : Type} (f : α → α) (a : α) (l : List α) {i j : Nat} (h : j ≠ i) : (lmod l i f).getD j a = l.getD j a := by
  rw [getD_lmod, if_neg fun e => h e.1]

/-! ### Numbers in words -/

/-- A signed number that a field of its width holds is read back. -/
theorem sgn_encS {w : Nat} (hw : 0 < w) {x : Int} (hlo : -2 ^ (w - 1) ≤ x) (hhi : x < 2 ^ (w - 1)) : sgn w (encS w x % 2 ^ w) = x := by
  obtain ⟨k, rfl⟩ : ∃ k, w = k + 1 := ⟨w - 1, by omega⟩
  simp only [Nat.add_sub_cancel] at hlo hhi
  obtain ⟨P, hP⟩ : ∃ P, 2 ^ k = P := ⟨_, rfl⟩
  have hI : (2 : Int) ^ k = P := by rw [← hP]; push_cast; rfl
  have hpos : 0 < P := hP ▸ Nat.two_pow_pos k
  simp only [sgn, encS, pow_succ, hP, hI] at hlo hhi ⊢
  rcases lt_or_ge x 0 with hneg | hnn
  · have hmod : x % ((P : Int) * 2) = x + P * 2 := by
      rw [← Int.add_mul_emod_self_left x ((P : Int) * 2) 1, mul_one]
      exact Int.emod_eq_of_lt (by omega) (by omega)
    rw [hmod, Nat.mod_mod, Nat.mod_eq_of_lt (by omega), if_neg (by omega)]
    omega
  · rw [Int.emod_eq_of_lt hnn (by omega), Nat.mod_mod, Nat.mod_eq_of_lt (by omega), if_pos (by omega)]
    omega

theorem sgn_toNat (x : Word) : sgn 32 (x.toNat % 2 ^ 32) = x.toInt := by
  have hx := x.isLt
  rw [sgn, BitVec.toInt, Nat.mod_mod, Nat.mod_eq_of_lt hx]
  split <;> simp_all

namespace Dev

/-- A write of one field leaves a field of other words on whatever page. -/
theorem get_put_field (d : Dev) {p q : Nat} {f g : Fld} (v : Nat) {i j t u : Nat} (h : f.apart g = true) (hf : f.fits = true) (hg : g.fits = true)
    (hi : i < f.cnt) (hj : j < g.cnt) (ht : t < 65536) (hu : u < 65536) : (d.put p f v i t).get q g j u = d.get q g j u := by
  by_cases hp : p = q
  · subst hp
    exact get_put_apart d v h hf hg hi hj ht hu
  · exact get_put_other d v hp hf hg hi hj ht hu

/-! ### Signed fields -/

theorem geti_put_apart (d : Dev) {p : Nat} {f g : Fld} (v : Nat) {i j t u : Nat} (h : f.apart g = true) (hf : f.fits = true) (hg : g.fits = true)
    (hi : i < f.cnt) (hj : j < g.cnt) (ht : t < 65536) (hu : u < 65536) : (d.put p f v i t).geti p g j u = d.geti p g j u := by
  rw [geti, geti, get_put_apart d v h hf hg hi hj ht hu]

theorem geti_put_same (d : Dev) (p : Nat) (f : Fld) (v i t : Nat) (hw : f.w ≤ 32) : (d.put p f v i t).geti p f i t = sgn f.w (v % 2 ^ f.w) := by
  rw [geti, get_put_same d p f v i t hw]

/-- A value of the field's width is read back whole. -/
theorem get_put_bv (d : Dev) (p : Nat) (f : Fld) {w : Nat} (x : BitVec w) (i t : Nat) (hw : f.w = w) (h : w ≤ 32) :
    (d.put p f x.toNat i t).get p f i t = x.toNat := by
  rw [get_put_same d p f _ i t (by omega), hw, Nat.mod_eq_of_lt x.isLt]

theorem geti_put_bv (d : Dev) (p : Nat) (f : Fld) (x : Word) (i t : Nat) (hw : f.w = 32) : (d.put p f x.toNat i t).geti p f i t = x.toInt := by
  rw [geti_put_same d p f _ i t (by omega), hw, sgn_toNat]

/-- A bit set in a sticky field. -/
theorem bitN_orBits (d : Dev) (p : Nat) (f : Fld) {k : Nat} (i t : Nat) (hk : k < f.w) (hw : f.w ≤ 32) :
    bitN ((d.orBits p f (2 ^ k) i t).get p f i t) k = 1 := by
  have hor (a b : Nat) : a.lor b = a ||| b := rfl
  rw [orBits, get_put_same _ _ _ _ _ _ hw, bitN_eq_testBit, hor, Nat.testBit_mod_two_pow, Nat.testBit_or, Nat.testBit_two_pow_self]
  simp [hk]

theorem bitN_stat (d : Dev) (p : Nat) {k : Nat} (hk : k < 29) : bitN ((d.stat p k).get p HDR.STAT_BLOCK) k = 1 :=
  bitN_orBits d p HDR.STAT_BLOCK 0 0 hk (by decide)

/-- What a frame says of a register outside its pages. -/
theorem get_of_keeps {d e : Dev} {ps : List Nat} {p : Nat} {f : Fld} {i t : Nat} (hk : d.keeps e ps) (hf : f.fits = true) (hi : i < f.cnt) (ht : t < 65536)
    (hp : p ∉ ps) : e.get p f i t = d.get p f i t := by
  have hkey := hk.2 (fkey p f i t) (by rwa [keyPage_fkey p (inside_of_fits hf hi ht)])
  rw [get, get, hkey]

/-! ### A state kept beside the registers -/

@[simp] theorem get_modSaf (d : Dev) (g : Saf → Saf) (p f i t) : (d.modSaf g).get p f i t = d.get p f i t := rfl
@[simp] theorem keeps_modSaf_iff (d e : Dev) (g : Saf → Saf) (ps) : d.keeps (e.modSaf g) ps ↔ d.keeps e ps := Iff.rfl
@[simp] theorem saf_modSaf (d : Dev) (g : Saf → Saf) : (d.modSaf g).saf = g d.saf := rfl
@[simp] theorem get_modRtc (d : Dev) (g : Rtc → Rtc) (p f i t) : (d.modRtc g).get p f i t = d.get p f i t := rfl
@[simp] theorem keeps_modRtc_iff (d e : Dev) (g : Rtc → Rtc) (ps) : d.keeps (e.modRtc g) ps ↔ d.keeps e ps := Iff.rfl
@[simp] theorem rtc_modRtc (d : Dev) (g : Rtc → Rtc) : (d.modRtc g).rtc = g d.rtc := rfl
@[simp] theorem get_modGlk (d : Dev) (g : Glk → Glk) (p f i t) : (d.modGlk g).get p f i t = d.get p f i t := rfl
@[simp] theorem keeps_modGlk_iff (d e : Dev) (g : Glk → Glk) (ps) : d.keeps (e.modGlk g) ps ↔ d.keeps e ps := Iff.rfl
@[simp] theorem glk_modGlk (d : Dev) (g : Glk → Glk) : (d.modGlk g).glk = g d.glk := rfl
@[simp] theorem get_modStore (d : Dev) (g : Store → Store) (p f i t) : (d.modStore g).get p f i t = d.get p f i t := rfl
@[simp] theorem keeps_modStore_iff (d e : Dev) (g : Store → Store) (ps) : d.keeps (e.modStore g) ps ↔ d.keeps e ps := Iff.rfl
@[simp] theorem store_modStore (d : Dev) (g : Store → Store) : (d.modStore g).store = g d.store := rfl
@[simp] theorem get_modSilt (d : Dev) (g : Silt → Silt) (p f i t) : (d.modSilt g).get p f i t = d.get p f i t := rfl
@[simp] theorem keeps_modSilt_iff (d e : Dev) (g : Silt → Silt) (ps) : d.keeps (e.modSilt g) ps ↔ d.keeps e ps := Iff.rfl
@[simp] theorem silt_modSilt (d : Dev) (g : Silt → Silt) : (d.modSilt g).silt = g d.silt := rfl
@[simp] theorem get_modEnc (d : Dev) (g : Enc → Enc) (p f i t) : (d.modEnc g).get p f i t = d.get p f i t := rfl
@[simp] theorem keeps_modEnc_iff (d e : Dev) (g : Enc → Enc) (ps) : d.keeps (e.modEnc g) ps ↔ d.keeps e ps := Iff.rfl
@[simp] theorem encl_modEnc (d : Dev) (g : Enc → Enc) : (d.modEnc g).encl = g d.encl := rfl
@[simp] theorem get_modBoot (d : Dev) (g : Boot → Boot) (p f i t) : (d.modBoot g).get p f i t = d.get p f i t := rfl
@[simp] theorem keeps_modBoot_iff (d e : Dev) (g : Boot → Boot) (ps) : d.keeps (e.modBoot g) ps ↔ d.keeps e ps := Iff.rfl
@[simp] theorem boot_modBoot (d : Dev) (g : Boot → Boot) : (d.modBoot g).boot = g d.boot := rfl
@[simp] theorem get_modWeir (d : Dev) (g : Weir → Weir) (p f i t) : (d.modWeir g).get p f i t = d.get p f i t := rfl
@[simp] theorem keeps_modWeir_iff (d e : Dev) (g : Weir → Weir) (ps) : d.keeps (e.modWeir g) ps ↔ d.keeps e ps := Iff.rfl
@[simp] theorem weir_modWeir (d : Dev) (g : Weir → Weir) : (d.modWeir g).weir = g d.weir := rfl
@[simp] theorem get_modMpg (d : Dev) (h : HalfId) (n : Nat) (g : Mpg → Mpg) (p f i t) : (d.modMpg h n g).get p f i t = d.get p f i t := get_modHalf ..
@[simp] theorem keeps_modMpg_iff (d e : Dev) (h : HalfId) (n : Nat) (g : Mpg → Mpg) (ps) : d.keeps (e.modMpg h n g) ps ↔ d.keeps e ps := keeps_modHalf_iff fun _ => rfl
@[simp] theorem get_modDax (d : Dev) (h : HalfId) (n : Nat) (g : Dax → Dax) (p f i t) : (d.modDax h n g).get p f i t = d.get p f i t := get_modHalf ..
@[simp] theorem keeps_modDax_iff (d e : Dev) (h : HalfId) (n : Nat) (g : Dax → Dax) (ps) : d.keeps (e.modDax h n g) ps ↔ d.keeps e ps := keeps_modHalf_iff fun _ => rfl
@[simp] theorem get_modStp (d : Dev) (h : HalfId) (n : Nat) (g : StpCh → StpCh) (p f i t) : (d.modStp h n g).get p f i t = d.get p f i t := get_modHalf ..
@[simp] theorem keeps_modStp_iff (d e : Dev) (h : HalfId) (n : Nat) (g : StpCh → StpCh) (ps) : d.keeps (e.modStp h n g) ps ↔ d.keeps e ps := keeps_modHalf_iff fun _ => rfl
@[simp] theorem get_modPosCar (d : Dev) (h : HalfId) (n : Nat) (g : PosCar → PosCar) (p f i t) : (d.modPosCar h n g).get p f i t = d.get p f i t := get_modHalf ..
@[simp] theorem keeps_modPosCar_iff (d e : Dev) (h : HalfId) (n : Nat) (g : PosCar → PosCar) (ps) : d.keeps (e.modPosCar h n g) ps ↔ d.keeps e ps := keeps_modHalf_iff fun _ => rfl
@[simp] theorem get_modShl (d : Dev) (h : HalfId) (g : Shl → Shl) (p f i t) : (d.modShl h g).get p f i t = d.get p f i t := get_modHalf ..
@[simp] theorem keeps_modShl_iff (d e : Dev) (h : HalfId) (g : Shl → Shl) (ps) : d.keeps (e.modShl h g) ps ↔ d.keeps e ps := keeps_modHalf_iff fun _ => rfl
@[simp] theorem get_modCyx (d : Dev) (h : HalfId) (g : Cyx → Cyx) (p f i t) : (d.modCyx h g).get p f i t = d.get p f i t := get_modHalf ..
@[simp] theorem keeps_modCyx_iff (d e : Dev) (h : HalfId) (g : Cyx → Cyx) (ps) : d.keeps (e.modCyx h g) ps ↔ d.keeps e ps := keeps_modHalf_iff fun _ => rfl
@[simp] theorem get_modLe (d : Dev) (h : HalfId) (n : Nat) (g : Le → Le) (p f i t) : (d.modLe h n g).get p f i t = d.get p f i t := get_modHalf ..
@[simp] theorem keeps_modLe_iff (d e : Dev) (h : HalfId) (n : Nat) (g : Le → Le) (ps) : d.keeps (e.modLe h n g) ps ↔ d.keeps e ps := keeps_modHalf_iff fun _ => rfl

/-! ### Halves -/

@[simp] theorem half_post (d : Dev) (r : Rec) (h : HalfId) : (d.post r).half h = d.half h := by cases h <;> simp [half]
@[simp] theorem half_note (d : Dev) (p cls code x : Nat) (ws : List Nat) (h : HalfId) : (d.note p cls code x ws).half h = d.half h := by simp [note]
@[simp] theorem half_stat (d : Dev) (p k : Nat) (h : HalfId) : (d.stat p k).half h = d.half h := half_put ..
@[simp] theorem half_err (d : Dev) (p c x : Nat) (h : HalfId) : (d.err p c x).half h = d.half h := by simp [err, bump]
@[simp] theorem half_fault (d : Dev) (p c x : Nat) (ws : List Nat) (h : HalfId) : (d.fault p c x ws).half h = d.half h := by simp [fault]

/-- A step of both halves, each of which stays on its own page, as one half sees it: it works on a state that agrees with the first on all it sees, and the
other half leaves its result. -/
theorem both_local {f : Dev → HalfId → Dev} {P : HalfId → Nat} {ps : List Nat} (hk : ∀ (d : Dev) h, d.keeps (f d h) (P h :: ps)) (hh : ∀ (d : Dev) h, (f d h).half h.other = d.half h.other)
    (d : Dev) (h : HalfId) : ∃ d₀ : Dev, d.keeps d₀ (P h.other :: ps) ∧ d₀.half h = d.half h ∧ (f d₀ h).keeps (d.both f) (P h.other :: ps) ∧
      (d.both f).half h = (f d₀ h).half h ∧ d.keeps (d.both f) (P .a :: P .b :: ps) := by
  have hall : d.keeps (d.both f) (P .a :: P .b :: ps) :=
    keeps_trans (keeps_mono (hk d .a) fun x hx => by rcases List.mem_cons.mp hx with rfl | hx <;> simp_all)
      (keeps_mono (hk (f d .a) .b) fun x hx => List.mem_cons_of_mem _ hx)
  cases h
  · exact ⟨d, keeps_refl d _, rfl, hk _ _, hh (f d .a) .b, hall⟩
  · exact ⟨f d .a, hk d .a, hh d .a, keeps_refl _ _, rfl, hall⟩

theorem mpg_modMpg_same (d : Dev) {h : HalfId} {n : Nat} (f : Mpg → Mpg) (hn : n < (d.half h).mpg.length) : (d.modMpg h n f).mpg h n = f (d.mpg h n) := by
  rw [mpg, modMpg, half_modHalf_same]
  exact getD_lmod_same f _ hn

theorem dax_modDax_same (d : Dev) {h : HalfId} {n : Nat} (f : Dax → Dax) (hn : n < (d.half h).dax.length) : (d.modDax h n f).dax h n = f (d.dax h n) := by
  rw [dax, modDax, half_modHalf_same]
  exact getD_lmod_same f _ hn

end Dev

/-! ### Pages of the blocks -/

/-- A page of a CTL block is none of a shared block. -/
theorem pageNo_ne_shp {b c : Blk} (h : HalfId) (n : Nat) (hb : b.region = 0) (hc : c.region ≠ 0) (hi : b.index + n < 256) : pageNo b h n ≠ shp c := by
  cases h <;> simp only [shp, pageNo, hb, hc, HalfId.n, if_true, if_false] <;> omega

/-- Pages of the CTL blocks of one half at different places. -/
theorem pageNo_ne {b c : Blk} (h : HalfId) {n m : Nat} (hb : b.region = 0) (hc : c.region = 0) (hi : b.index + n ≠ c.index + m) : pageNo b h n ≠ pageNo c h m := by
  cases h <;> simp only [pageNo, hb, hc, HalfId.n, if_true] <;> omega

/-- Pages of the CTL blocks of the two halves. -/
theorem pageNo_halves {b c : Blk} {n m : Nat} (hb : b.region = 0) (hc : c.region = 0) (hi : b.index + n < 256) : pageNo b .a n ≠ pageNo c .b m := by
  simp only [pageNo, hb, hc, HalfId.n, if_true]
  omega

end Sys2Proof.Machine
end

section
/-! PROOFS. GO registers: commands of the generators, the lanes and the doors (O20, O25, O27). -/
namespace Sys2Proof.Machine

open Sys2Proof

/-- The result registers of the blocks that take commands. -/
def allRes : List ResFields := [mpgRes, sepRes, daxRes]

namespace Dev

section
variable (d : Dev) (p : Nat) {r : ResFields} (hr : r ∈ allRes) (st why tag : Nat)
include hr

theorem keeps_showRes : d.keeps (d.showRes p r st why tag) [p] := by
  have hp : p ∈ [p] := List.mem_singleton.mpr rfl
  fin_cases hr <;> simp (disch := first | decide | exact hp) [showRes, mpgRes, sepRes, daxRes, keeps_put_iff]

theorem get_showRes_state : (d.showRes p r st why tag).get p r.state = st % 2 ^ 3 := by
  fin_cases hr <;> simp (disch := decide) [showRes, mpgRes, sepRes, daxRes, get_put_apart, get_put_same] <;> rfl

theorem get_showRes_reason : (d.showRes p r st why tag).get p r.reason = why % 2 ^ 8 := by
  fin_cases hr <;> simp (disch := decide) [showRes, mpgRes, sepRes, daxRes, get_put_apart, get_put_same] <;> rfl

theorem get_showRes_tag : (d.showRes p r st why tag).get p r.tag = tag % 2 ^ 16 := by
  fin_cases hr <;> simp (disch := decide) [showRes, mpgRes, sepRes, daxRes, get_put_same] <;> rfl

end

@[simp] theorem half_showRes (d : Dev) (p : Nat) (r : ResFields) (st why tag : Nat) (h : HalfId) : (d.showRes p r st why tag).half h = d.half h := by
  simp [showRes]

/-! ### One GO register -/

/-- What a GO write leaves in the result register, and the command that waits then (R116, R173, R196): `shows` for a half that shows its results. -/
def GoResult (p : Nat) (r : ResFields) (waiting : Option GoCmd) (c : GoCmd) (stops passes : List Nat) (busy : Nat) (shows : Bool) (x : Dev × Option GoCmd) : Prop :=
  match waiting with
  | none => x.2 = some c ∧ (shows = true → x.1.get p r.state = 1 ∧ x.1.get p r.tag = c.tag % 2 ^ 16)
  | some w =>
    if w.op ∈ stops ∧ c.op ∉ passes then
      x.2 = some w ∧ (shows = true → x.1.get p r.state = 3 ∧ x.1.get p r.reason = busy % 2 ^ 8 ∧ x.1.get p r.tag = c.tag % 2 ^ 16)
    else x.2 = some c ∧ (shows = true → x.1.get p r.state = 4 ∧ x.1.get p r.tag = w.tag % 2 ^ 16)

section
variable (d : Dev) (p : Nat) {r : ResFields} (waiting : Option GoCmd) (c : GoCmd) (stops passes : List Nat) (busy : Nat) (shows : Bool)

/-- A GO write shows one result at most. -/
theorem goWrite_shows : ∃ st why tag, (d.goWrite p r waiting c stops passes busy shows).1 = if shows then d.showRes p r st why tag else d := by
  unfold goWrite
  split
  · exact ⟨_, _, _, rfl⟩
  · split <;> exact ⟨_, _, _, rfl⟩

theorem keeps_goWrite (hr : r ∈ allRes) : d.keeps (d.goWrite p r waiting c stops passes busy shows).1 [p] := by
  obtain ⟨st, why, tag, e⟩ := goWrite_shows d p (r := r) waiting c stops passes busy shows
  rw [e]
  cases shows
  · exact keeps_refl d [p]
  · exact keeps_showRes d p hr st why tag

@[simp] theorem half_goWrite (h : HalfId) : (d.goWrite p r waiting c stops passes busy shows).1.half h = d.half h := by
  obtain ⟨st, why, tag, e⟩ := goWrite_shows d p (r := r) waiting c stops passes busy shows
  rw [e]
  cases shows <;> simp

theorem goWrite_result (hr : r ∈ allRes) :
    GoResult p r waiting c stops passes busy shows (d.goWrite p r waiting c stops passes busy shows) := by
  have hst st why tag := get_showRes_state d p hr st why tag
  have hwhy st why tag := get_showRes_reason d p hr st why tag
  have htag st why tag := get_showRes_tag d p hr st why tag
  unfold GoResult goWrite
  cases waiting with
  | none => exact ⟨rfl, fun hs => by simp [hs, hst, htag]⟩
  | some w =>
    by_cases hc : w.op ∈ stops ∧ c.op ∉ passes
    · have hb : (stops.contains w.op && !passes.contains c.op) = true := by simpa using hc
      simp only [hb, if_true, if_pos hc]
      exact ⟨trivial, fun hs => by simp [hs, hst, hwhy, htag]⟩
    · have hb : (stops.contains w.op && !passes.contains c.op) = false := by
        rw [← Bool.not_eq_true]
        simpa using hc
      simp only [hb, if_neg hc, Bool.false_eq_true, if_false]
      exact ⟨trivial, fun hs => by simp [hs, hst, htag]⟩

end

/-! ### The commands from the argument registers -/

/-- The command that a write of `CMD_GO` of a generator forms. -/
def mpgCmd (d : Dev) (h : HalfId) (n op : Nat) : GoCmd :=
  ⟨op, d.geti (pgMpg h n) MPG.CMD_POS_UM, d.geti (pgMpg h n) MPG.CMD_VEL_UMS, 0, n, 0, 0, d.get (pgMpg h n) MPG.CMD_TAG_TAG⟩

/-- The operation that a write of `RSV_GO` forms. -/
def sepCmd (d : Dev) (h : HalfId) (op : Nat) : GoCmd :=
  ⟨op, d.geti (ctl .sep h) SEP.RSV_BND_UM, 0, 0, d.get (ctl .sep h) SEP.RSV_CAR_CAR, d.geti (ctl .sep h) SEP.RSV_LO_UM, d.geti (ctl .sep h) SEP.RSV_HI_UM,
    d.get (ctl .sep h) SEP.RSV_TAG_TAG⟩

/-- The command that a write of `CMD_GO` of a door axis forms. -/
def daxCmd (d : Dev) (h : HalfId) (k op : Nat) : GoCmd :=
  ⟨op, 0, 0, d.get (pgDax h k) DAX.CMD_LAND_IDX, 0, 0, 0, d.get (pgDax h k) DAX.CMD_TAG_TAG⟩

section
variable (d : Dev) (h : HalfId) {n op : Nat} (hop : op ≠ 0)
include hop

theorem mpgGo_result (hn : n < (d.half h).mpg.length) :
    d.keeps (d.mpgGo h n op) [pgMpg h n] ∧
      GoResult (pgMpg h n) mpgRes (d.mpg h n).waiting (d.mpgCmd h n op) [3, 5] [5] cREJ_STOPPING (d.active h) (d.mpgGo h n op, ((d.mpgGo h n op).mpg h n).waiting) := by
  have hr : mpgRes ∈ allRes := by simp [allRes]
  have hres := goWrite_result d (pgMpg h n) (d.mpg h n).waiting (d.mpgCmd h n op) [3, 5] [5] cREJ_STOPPING (d.active h) hr
  have hkeeps := keeps_goWrite d (pgMpg h n) (d.mpg h n).waiting (d.mpgCmd h n op) [3, 5] [5] cREJ_STOPPING (d.active h) hr
  have hhalf := half_goWrite d (pgMpg h n) (r := mpgRes) (d.mpg h n).waiting (d.mpgCmd h n op) [3, 5] [5] cREJ_STOPPING (d.active h) h
  have heq : d.mpgGo h n op = (d.goWrite (pgMpg h n) mpgRes (d.mpg h n).waiting (d.mpgCmd h n op) [3, 5] [5] cREJ_STOPPING (d.active h)).1.modMpg h n
      (fun m => { m with waiting := (d.goWrite (pgMpg h n) mpgRes (d.mpg h n).waiting (d.mpgCmd h n op) [3, 5] [5] cREJ_STOPPING (d.active h)).2 }) := if_neg hop
  rw [heq, mpg_modMpg_same _ _ (by rwa [hhalf])]
  refine ⟨keeps_modMpg_iff _ _ _ _ _ _ |>.mpr hkeeps, ?_⟩
  simpa only [GoResult, get_modMpg] using hres

theorem daxGo_result (hn : n < (d.half h).dax.length) :
    d.keeps (d.daxGo h n op) [pgDax h n] ∧
      GoResult (pgDax h n) daxRes (d.dax h n).waiting (d.daxCmd h n op) [4, 5] [5] cREJ_STOPPING (d.active h) (d.daxGo h n op, ((d.daxGo h n op).dax h n).waiting) := by
  have hr : daxRes ∈ allRes := by simp [allRes]
  have hres := goWrite_result d (pgDax h n) (d.dax h n).waiting (d.daxCmd h n op) [4, 5] [5] cREJ_STOPPING (d.active h) hr
  have hkeeps := keeps_goWrite d (pgDax h n) (d.dax h n).waiting (d.daxCmd h n op) [4, 5] [5] cREJ_STOPPING (d.active h) hr
  have hhalf := half_goWrite d (pgDax h n) (r := daxRes) (d.dax h n).waiting (d.daxCmd h n op) [4, 5] [5] cREJ_STOPPING (d.active h) h
  have heq : d.daxGo h n op = (d.goWrite (pgDax h n) daxRes (d.dax h n).waiting (d.daxCmd h n op) [4, 5] [5] cREJ_STOPPING (d.active h)).1.modDax h n
      (fun m => { m with waiting := (d.goWrite (pgDax h n) daxRes (d.dax h n).waiting (d.daxCmd h n op) [4, 5] [5] cREJ_STOPPING (d.active h)).2 }) := if_neg hop
  rw [heq, dax_modDax_same _ _ (by rwa [hhalf])]
  refine ⟨keeps_modDax_iff _ _ _ _ _ _ |>.mpr hkeeps, ?_⟩
  simpa only [GoResult, get_modDax] using hres

theorem sepGo_result :
    d.keeps (d.sepGo h op) [ctl .sep h] ∧
      GoResult (ctl .sep h) sepRes (d.half h).sep.waiting (d.sepCmd h op) [] [] 0 (d.active h) (d.sepGo h op, ((d.sepGo h op).half h).sep.waiting) := by
  have hr : sepRes ∈ allRes := by simp [allRes]
  have hres := goWrite_result d (ctl .sep h) (d.half h).sep.waiting (d.sepCmd h op) [] [] 0 (d.active h) hr
  have hkeeps := keeps_goWrite d (ctl .sep h) (d.half h).sep.waiting (d.sepCmd h op) [] [] 0 (d.active h) hr
  have heq : d.sepGo h op = (d.goWrite (ctl .sep h) sepRes (d.half h).sep.waiting (d.sepCmd h op) [] [] 0 (d.active h)).1.modHalf h
      (fun x => { x with sep := { x.sep with waiting := (d.goWrite (ctl .sep h) sepRes (d.half h).sep.waiting (d.sepCmd h op) [] [] 0 (d.active h)).2 } }) := if_neg hop
  rw [heq, half_modHalf_same]
  refine ⟨(keeps_modHalf_iff (by exact fun _ => rfl)).mpr hkeeps, ?_⟩
  simpa only [GoResult, get_modHalf] using hres

end

/-- Whether a half is ACTIVE is not told on the pages of the generators, the lanes and the doors. -/
theorem active_of_keeps {d e : Dev} {p : Nat} {h : HalfId} (hk : d.keeps e [p]) (hp : ctl .hlf h ≠ p) : e.active h = d.active h := by
  unfold active
  rw [get_of_keeps hk (by decide) (by decide) (by decide) (by simpa using hp)]

end Dev

/-- The argument registers of a generator, written before its `CMD_GO`. -/
theorem mpg_args {s : State} {h : HalfId} {n : Fin 4} {x : Word} {tag : BitVec 16} {i : Instr} {op : Nat} (hout : s.out = true)
    (hi : (i = .mpgMove h n x tag ∧ op = 1) ∨ (i = .mpgJog h n x tag ∧ op = 2) ∨ (i = .mpgStop h n tag ∧ op = 3) ∨ (i = .mpgStopAt h n x tag ∧ op = 4) ∨
      (i = .mpgStopNow h n tag ∧ op = 5) ∨ (i = .mpgRescue h n x tag ∧ op = 6)) :
    op ≠ 0 ∧ ∃ d : Dev, exec i s = .next { s with dev := d.mpgGo h n op } ∧ s.dev.keeps d [pgMpg h n] ∧ d.half h = s.dev.half h ∧
      d.get (pgMpg h n) MPG.CMD_TAG_TAG = tag.toNat ∧ (op = 1 ∨ op = 4 → d.geti (pgMpg h n) MPG.CMD_POS_UM = x.toInt) ∧
      (op = 2 ∨ op = 6 → d.geti (pgMpg h n) MPG.CMD_VEL_UMS = x.toInt) := by
  have hp : pgMpg h n ∈ [pgMpg h n] := List.mem_singleton.mpr rfl
  rcases hi with ⟨rfl, rfl⟩ | ⟨rfl, rfl⟩ | ⟨rfl, rfl⟩ | ⟨rfl, rfl⟩ | ⟨rfl, rfl⟩ | ⟨rfl, rfl⟩ <;>
    refine ⟨by decide, _, next_of_out hout rfl, ?_, ?_, ?_, ?_, ?_⟩ <;>
    simp (disch := first | decide | exact hp)
      [Dev.keeps_put_iff, Dev.get_put_bv, Dev.geti_put_apart, Dev.geti_put_bv]

/-- Settles O20: the argument registers written first are on the page of the generator, and the write of `CMD_GO` then shows what R116 says. -/
theorem motionCommandsWait : Obligations.MotionCommandsWait := by
  unfold Obligations.MotionCommandsWait
  intro s h n x tag i op hout hlen hi
  obtain ⟨hop, d, hexec, hk, hhalf, htag, hpos, hvel⟩ := mpg_args hout hi
  have hn : n.val < (d.half h).mpg.length := by rw [hhalf, hlen]; exact n.isLt
  have hpg : ctl .hlf h ≠ pgMpg h n := pageNo_ne h rfl rfl (by show 44 + 0 ≠ 4 + n.val; omega)
  have ht : tag.toNat % 2 ^ 16 = tag.toNat := Nat.mod_eq_of_lt tag.isLt
  obtain ⟨hkeeps, hres⟩ := Dev.mpgGo_result d h hop hn
  have hmpg : d.mpg h n = s.dev.mpg h n := by rw [Dev.mpg, Dev.mpg, hhalf]
  rw [hmpg, Dev.active_of_keeps hk hpg] at hres
  unfold Dev.GoResult at hres
  refine ⟨_, hexec, rfl, Dev.keeps_trans hk hkeeps, ?_⟩
  rw [State.dev_mk]
  generalize d.mpgGo h n op = e at hres
  cases hw : (s.dev.mpg h n).waiting with
  | none =>
    rw [hw] at hres
    obtain ⟨hwait, hshow⟩ := hres
    simp only [Dev.mpgCmd, htag, ht] at hwait hshow
    simp only [hwait]
    exact ⟨rfl, fun h1 => congrArg some (hpos h1), fun h1 => congrArg some (hvel h1), hshow⟩
  | some w =>
    rw [hw] at hres
    simp only [Dev.mpgCmd, htag, ht] at hres ⊢
    by_cases hc : (w.op = 3 ∨ w.op = 5) ∧ op ≠ 5
    · rw [if_pos hc]
      rw [if_pos (by simpa using hc)] at hres
      exact hres
    · rw [if_neg hc]
      rw [if_neg (by simpa using hc)] at hres
      obtain ⟨hwait, hshow⟩ := hres
      exact ⟨by rw [hwait]; rfl, hshow⟩

/-- The argument registers of a door axis, written before its `CMD_GO`. -/
theorem dax_args {s : State} {h : HalfId} {k : Fin 8} {land : BitVec 8} {tag : BitVec 16} {i : Instr} {op : Nat} (hout : s.out = true)
    (hi : (i = .doorOpen h k land tag ∧ op = 1) ∨ (i = .doorClose h k tag ∧ op = 2) ∨ (i = .doorNudge h k tag ∧ op = 3) ∨
      (i = .doorStop h k tag ∧ op = 4) ∨ (i = .doorStopNow h k tag ∧ op = 5) ∨ (i = .doorHome h k tag ∧ op = 6)) :
    op ≠ 0 ∧ ∃ d : Dev, exec i s = .next { s with dev := d.daxGo h k op } ∧ s.dev.keeps d [pgDax h k] ∧ d.half h = s.dev.half h ∧
      d.get (pgDax h k) DAX.CMD_TAG_TAG = tag.toNat ∧ (op = 1 → d.get (pgDax h k) DAX.CMD_LAND_IDX = land.toNat) := by
  have hp : pgDax h k ∈ [pgDax h k] := List.mem_singleton.mpr rfl
  rcases hi with ⟨rfl, rfl⟩ | ⟨rfl, rfl⟩ | ⟨rfl, rfl⟩ | ⟨rfl, rfl⟩ | ⟨rfl, rfl⟩ | ⟨rfl, rfl⟩ <;>
    refine ⟨by decide, _, next_of_out hout rfl, ?_, ?_, ?_, ?_⟩ <;>
    simp (disch := first | decide | exact hp) [Dev.keeps_put_iff, Dev.get_put_bv, Dev.get_put_apart]

/-- Settles O27: the argument registers written first are on the page of the axis, and the write of `CMD_GO` then shows what R196 says. -/
theorem doorCommandsWait : Obligations.DoorCommandsWait := by
  unfold Obligations.DoorCommandsWait
  intro s h k land tag i op hout hlen hi
  obtain ⟨hop, d, hexec, hk, hhalf, htag, hland⟩ := dax_args hout hi
  have hn : k.val < (d.half h).dax.length := by rw [hhalf, hlen]; exact k.isLt
  have hpg : ctl .hlf h ≠ pgDax h k := pageNo_ne h rfl rfl (by show 44 + 0 ≠ 16 + k.val; omega)
  have ht : tag.toNat % 2 ^ 16 = tag.toNat := Nat.mod_eq_of_lt tag.isLt
  obtain ⟨hkeeps, hres⟩ := Dev.daxGo_result d h hop hn
  have hdax : d.dax h k = s.dev.dax h k := by rw [Dev.dax, Dev.dax, hhalf]
  rw [hdax, Dev.active_of_keeps hk hpg] at hres
  unfold Dev.GoResult at hres
  refine ⟨_, hexec, rfl, Dev.keeps_trans hk hkeeps, ?_⟩
  rw [State.dev_mk]
  generalize d.daxGo h k op = e at hres
  cases hw : (s.dev.dax h k).waiting with
  | none =>
    rw [hw] at hres
    obtain ⟨hwait, hshow⟩ := hres
    simp only [Dev.daxCmd, htag, ht] at hwait hshow
    simp only [hwait]
    exact ⟨rfl, fun h1 => congrArg some (hland h1), hshow⟩
  | some w =>
    rw [hw] at hres
    simp only [Dev.daxCmd, htag, ht] at hres ⊢
    by_cases hc : (w.op = 4 ∨ w.op = 5) ∧ op ≠ 5
    · rw [if_pos hc]
      rw [if_pos (by simpa using hc)] at hres
      exact hres.1
    · rw [if_neg hc]
      rw [if_neg (by simpa using hc)] at hres
      obtain ⟨hwait, hshow⟩ := hres
      exact ⟨by rw [hwait]; rfl, hshow⟩

/-- The argument registers of SEP, written before its `RSV_GO`. -/
theorem sep_args {s : State} {h : HalfId} {car : Fin 4} {lo hi bnd : Word} {tag : BitVec 16} {i : Instr} {op : Nat} (hout : s.out = true)
    (ho : (i = .sepReserve h car lo hi tag ∧ op = 1) ∨ (i = .sepTrim h car tag ∧ op = 2) ∨ (i = .sepHandover h car bnd tag ∧ op = 3)) :
    op ≠ 0 ∧ ∃ d : Dev, exec i s = .next { s with dev := d.sepGo h op } ∧ s.dev.keeps d [ctl .sep h] ∧ d.half h = s.dev.half h ∧
      d.get (ctl .sep h) SEP.RSV_TAG_TAG = tag.toNat ∧ d.get (ctl .sep h) SEP.RSV_CAR_CAR = car.val ∧
      (op = 1 → d.geti (ctl .sep h) SEP.RSV_LO_UM = lo.toInt ∧ d.geti (ctl .sep h) SEP.RSV_HI_UM = hi.toInt) ∧
      (op = 3 → d.geti (ctl .sep h) SEP.RSV_BND_UM = bnd.toInt) := by
  have hp : ctl .sep h ∈ [ctl .sep h] := List.mem_singleton.mpr rfl
  have hcar : car.val % 2 ^ SEP.RSV_CAR_CAR.w = car.val := Nat.mod_eq_of_lt car.isLt
  have hput (d : Dev) (q : Nat) : (d.put q SEP.RSV_CAR_CAR car).get q SEP.RSV_CAR_CAR = car.val := by rw [Dev.get_put_same _ _ _ _ _ _ (by decide), hcar]
  rcases ho with ⟨rfl, rfl⟩ | ⟨rfl, rfl⟩ | ⟨rfl, rfl⟩ <;>
    refine ⟨by decide, _, next_of_out hout rfl, ?_, ?_, ?_, ?_, ?_, ?_⟩ <;>
    simp (disch := first | decide | exact hp)
      [Dev.keeps_put_iff, Dev.get_put_bv, Dev.get_put_apart, Dev.geti_put_apart, Dev.geti_put_bv, hput]

/-- Settles O25: the argument registers written first are on the page of SEP, and the write of `RSV_GO` then shows what R173 says. -/
theorem laneOperationsWait : Obligations.LaneOperationsWait := by
  unfold Obligations.LaneOperationsWait
  intro s h car lo hi bnd tag i op hout ho
  obtain ⟨hop, d, hexec, hk, hhalf, htag, hcar, hlane, hbnd⟩ := sep_args hout ho
  have hpg : ctl .hlf h ≠ ctl .sep h := pageNo_ne h rfl rfl (by decide)
  have ht : tag.toNat % 2 ^ 16 = tag.toNat := Nat.mod_eq_of_lt tag.isLt
  obtain ⟨hkeeps, hres⟩ := Dev.sepGo_result d h hop
  rw [hhalf, Dev.active_of_keeps hk hpg] at hres
  unfold Dev.GoResult at hres
  obtain ⟨hwait, hshow⟩ : ((d.sepGo h op).half h).sep.waiting = some (d.sepCmd h op) ∧ (s.dev.active h = true →
      match (s.dev.half h).sep.waiting with
      | none => (d.sepGo h op).get (ctl .sep h) SEP.RSV_RES_STATE = 1 ∧ (d.sepGo h op).get (ctl .sep h) SEP.RSV_RES_TAG = tag.toNat
      | some w => (d.sepGo h op).get (ctl .sep h) SEP.RSV_RES_STATE = 4 ∧ (d.sepGo h op).get (ctl .sep h) SEP.RSV_RES_TAG = w.tag % 2 ^ 16) := by
    cases hw : (s.dev.half h).sep.waiting with
    | none =>
      rw [hw] at hres
      simpa only [Dev.sepCmd, sepRes, htag, ht] using hres
    | some w =>
      rw [hw] at hres
      simpa [sepRes] using hres
  refine ⟨_, hexec, rfl, Dev.keeps_trans hk hkeeps, ?_, fun h1 => ?_, fun h3 => ?_, ?_⟩
  · rw [State.dev_mk, hwait, Option.map_some, Dev.sepCmd, htag, hcar]
  · rw [State.dev_mk, hwait, Option.map_some, Dev.sepCmd, (hlane h1).1, (hlane h1).2]
  · rw [State.dev_mk, hwait, Option.map_some, Dev.sepCmd, hbnd h3]
  · intro ha
    have := hshow ha
    cases hw : (s.dev.half h).sep.waiting with
    | none => simpa only [hw] using this
    | some w => simpa only [hw] using this

end Sys2Proof.Machine
end

section
/-! PROOFS. Interpolation between stable notch entries (O24).

An interpolated word is the floor of a weighted mean, so a linear bound of the two entries holds of the mean; the floors then cost less than one each. -/
namespace Sys2Proof.Machine

open Sys2Proof

/-- A weighted mean of two numbers below a bound is below it. -/
theorem mean_le {a b c : Int} {fr : Nat} (ha : a ≤ c) (hb : b ≤ c) (hfr : fr < 65536) : a * 65536 + (b - a) * fr ≤ c * 65536 := by
  have h1 : 0 ≤ (65536 - (fr : Int)) * (c - a) := mul_nonneg (by omega) (by omega)
  have h2 : 0 ≤ (fr : Int) * (c - b) := mul_nonneg (by omega) (by omega)
  linarith

/-- The interpolated word is the floor of the weighted mean. -/
theorem interp_floor (a b : Int) (fr : Nat) :
    interp a b fr * 65536 ≤ a * 65536 + (b - a) * fr ∧ a * 65536 + (b - a) * fr < interp a b fr * 65536 + 65536 := by
  have hdiv := Int.emod_add_mul_ediv ((b - a) * fr) 65536
  have hlo := Int.emod_nonneg ((b - a) * fr) (b := 65536) (by decide)
  have hhi := Int.emod_lt_of_pos ((b - a) * fr) (b := 65536) (by decide)
  have hasr : asr ((b - a) * fr) 16 = (b - a) * fr / 65536 := by
    rw [asr, Int.fdiv_eq_ediv_of_nonneg _ (by decide)]
    rfl
  rw [interp, hasr]
  omega

/-- Settles O24: the bounds of the two entries, one unit inside as integers, pass to the mean, and the two floors use up less than two units. -/
theorem interpolatedNotchStaysStable : Obligations.InterpolatedNotchStaysStable := by
  unfold Obligations.InterpolatedNotchStaysStable
  intro a1 a2 b1 b2 fr ha hb hfr
  obtain ⟨ha2, ha2', ha1, ha1'⟩ := of_decide_eq_true ha
  obtain ⟨hb2, hb2', hb1, hb1'⟩ := of_decide_eq_true hb
  obtain ⟨f1, f1'⟩ := interp_floor a1 b1 fr
  obtain ⟨f2, f2'⟩ := interp_floor a2 b2 fr
  have hlow := mean_le (a := -a2) (b := -b2) (c := q1 - 1) (by omega) (by omega) hfr
  have hup := mean_le (a := a2) (b := b2) (c := q1 - 1) (by omega) (by omega) hfr
  have hsum := mean_le (a := -(a1 + a2)) (b := -(b1 + b2)) (c := q1 - 1) (by omega) (by omega) hfr
  have hdif := mean_le (a := a1 - a2) (b := b1 - b2) (c := q1 - 1) (by omega) (by omega) hfr
  have e1 : (-(b1 + b2) - -(a1 + a2)) * (fr : Int) = -((b1 - a1) * fr) - (b2 - a2) * fr := by ring
  have e2 : (b1 - b2 - (a1 - a2)) * (fr : Int) = (b1 - a1) * fr - (b2 - a2) * fr := by ring
  have e3 : (-b2 - -a2) * (fr : Int) = -((b2 - a2) * fr) := by ring
  rw [e1] at hsum
  rw [e2] at hdif
  rw [e3] at hlow
  generalize (b1 - a1) * (fr : Int) = x at *
  generalize (b2 - a2) * (fr : Int) = y at *
  omega

end Sys2Proof.Machine
end

section
/-! PROOFS. Operations that pass their checks keep the reservations ordered and apart (O26). -/
namespace Sys2Proof.Machine

open Sys2Proof

/-- A number that a 32-bit field holds. -/
def Fits32 (x : Int) : Prop := -2 ^ 31 ≤ x ∧ x < 2 ^ 31

theorem fits32_sgn (v : Nat) : Fits32 (sgn 32 v) := by
  have hm := Nat.mod_lt v (show 0 < 2 ^ 32 by decide)
  simp only [Fits32, sgn]
  split <;> omega

theorem Fits32.between {x y z : Int} (hx : Fits32 x) (hz : Fits32 z) (h1 : x ≤ y) (h2 : y ≤ z) : Fits32 y := ⟨by have := hx.1; omega, by have := hz.2; omega⟩

namespace Dev

theorem fits32_geti (d : Dev) (p : Nat) {f : Fld} (i t : Nat) (hw : f.w = 32) : Fits32 (d.geti p f i t) := by
  rw [geti, hw]
  exact fits32_sgn _

/-- The fields that a change of a reservation writes. -/
def resFields : List Fld := [SEP.RES_LO_UM, SEP.RES_HI_UM, SEP.RES_STAT_HAS, SEP.RES_STAT_CONFLICT, HDR.STAT_BLOCK]

section
variable (d : Dev) (h : HalfId) {n m : Nat} {lo hi : Int} (hn : n < 4) (hm : m < 4)

theorem get_resChanged (p : Nat) {f : Fld} {i : Nat} (hf : HDR.STAT_BLOCK.apart f = true) (hfit : f.fits = true) (hi : i < f.cnt) :
    (d.resChanged h n).get p f i = d.get p f i := by
  have hstat (d : Dev) (k : Nat) : (d.stat (ctl .sep h) k).get p f i = d.get p f i :=
    get_put_field d _ hf (by decide) hfit (by decide) hi (by decide) (by decide)
  unfold resChanged
  dsimp only
  split <;> split <;> simp only [hstat]

/-- A field on which a reservation does not stand. -/
theorem get_setRes (p : Nat) {f : Fld} {i : Nat} (hn : n < 4) (hf : ∀ x ∈ resFields, x.apart f = true) (hfit : f.fits = true) (hi' : i < f.cnt) :
    (d.setRes h n lo hi).get p f i = d.get p f i := by
  have hput (d : Dev) {g : Fld} (v : Nat) (hg : g ∈ resFields) (hgf : g.fits = true) (hc : n < g.cnt) :
      (d.put (ctl .sep h) g v n).get p f i = d.get p f i := get_put_field d v (hf g hg) hgf hfit hc hi' (by decide) (by decide)
  have hall : (((((d.puti (ctl .sep h) SEP.RES_LO_UM lo n).puti (ctl .sep h) SEP.RES_HI_UM hi n).put (ctl .sep h) SEP.RES_STAT_HAS 1 n).put (ctl .sep h)
      SEP.RES_STAT_CONFLICT 0 n).get p f i) = d.get p f i := by
    rw [hput _ _ (by simp [resFields]) (by decide) hn, hput _ _ (by simp [resFields]) (by decide) hn, puti, hput _ _ (by simp [resFields]) (by decide) hn,
      puti, hput _ _ (by simp [resFields]) (by decide) hn]
  unfold setRes
  dsimp only
  split
  · exact hall
  · rw [get_resChanged _ _ _ (hf _ (by simp [resFields])) hfit hi', hall]

theorem keeps_setRes (hn : n < 4) : d.keeps (d.setRes h n lo hi) [ctl .sep h] := by
  have hp : ctl .sep h ∈ [ctl .sep h] := List.mem_singleton.mpr rfl
  have hch (d e : Dev) : d.keeps (e.resChanged h n) [ctl .sep h] ↔ d.keeps e [ctl .sep h] := by
    unfold resChanged
    dsimp only
    split <;> split <;> simp only [keeps_stat_iff hp]
  have hput {d e : Dev} {f : Fld} {v : Nat} (hf : f.fits = true) (hc : f.cnt = 4) : d.keeps (e.put (ctl .sep h) f v n) [ctl .sep h] ↔ d.keeps e [ctl .sep h] :=
    keeps_put_iff hp hf (by omega) (by decide)
  unfold setRes
  dsimp only
  split <;> simp (disch := decide) only [puti, hch, hput, keeps_refl_iff]

/-- The words of a reservation after a change of one. -/
theorem setRes_words (hn : n < 4) (hm : m < 4) (hlo : Fits32 lo) (hhi : Fits32 hi) :
    (d.setRes h n lo hi).resLo h m = (if m = n then lo else d.resLo h m) ∧ (d.setRes h n lo hi).resHi h m = (if m = n then hi else d.resHi h m) ∧
      (d.setRes h n lo hi).hasRes h m = (if m = n then true else d.hasRes h m) := by
  have hcnt : n < SEP.RES_LO_UM.cnt ∧ n < SEP.RES_HI_UM.cnt ∧ n < SEP.RES_STAT_HAS.cnt ∧ n < SEP.RES_STAT_CONFLICT.cnt := ⟨hn, hn, hn, hn⟩
  have hcntm : m < SEP.RES_LO_UM.cnt ∧ m < SEP.RES_HI_UM.cnt ∧ m < SEP.RES_STAT_HAS.cnt ∧ m < SEP.RES_STAT_CONFLICT.cnt := ⟨hm, hm, hm, hm⟩
  obtain ⟨c1, c2, c3, c4⟩ := hcnt
  obtain ⟨m1, m2, m3, m4⟩ := hcntm
  have slo : sgn 32 (encS 32 lo % 2 ^ 32) = lo := sgn_encS (by decide) hlo.1 hlo.2
  have shi : sgn 32 (encS 32 hi % 2 ^ 32) = hi := sgn_encS (by decide) hhi.1 hhi.2
  have hset (f : Fld) (hf : HDR.STAT_BLOCK.apart f = true) (hfit : f.fits = true) (hc : m < f.cnt) : (d.setRes h n lo hi).get (ctl .sep h) f m =
      ((((d.puti (ctl .sep h) SEP.RES_LO_UM lo n).puti (ctl .sep h) SEP.RES_HI_UM hi n).put (ctl .sep h) SEP.RES_STAT_HAS 1 n).put (ctl .sep h)
        SEP.RES_STAT_CONFLICT 0 n).get (ctl .sep h) f m := by
    unfold setRes
    dsimp only
    split
    · rfl
    · exact get_resChanged _ _ _ hf hfit hc
  simp only [resLo, resHi, hasRes, geti, on]
  rw [hset _ (by decide) (by decide) m1, hset _ (by decide) (by decide) m2, hset _ (by decide) (by decide) m3]
  by_cases e : m = n
  · subst e
    simp (disch := first | decide | assumption) [puti, get_put_apart, get_put_same]
    exact ⟨slo, shi⟩
  · have e' : n ≠ m := fun x => e x.symm
    simp (disch := first | decide | assumption) [puti, get_put_apart, get_put_idx, e]

end

/-- What R171 asks of the reservations: inside the shaft, and a lower car's below a higher car's by the gap. -/
def Apart (d : Dev) (h : HalfId) : Prop :=
  ∀ n m : Fin 4, d.carEn h n = true → d.hasRes h n = true →
    d.geti (ctl .pos h) POS.SHAFT_LO_UM ≤ d.resLo h n ∧ d.resHi h n ≤ d.geti (ctl .pos h) POS.SHAFT_HI_UM ∧
    (n < m → d.carEn h m = true → d.hasRes h m = true → d.resHi h n + d.get (ctl .sep h) SEP.GAP_MIN_UM ≤ d.resLo h m)

section
variable {d : Dev} {h : HalfId} {n : Nat} {lo hi : Int}

/-- What a change of a reservation leaves of the things that R171 speaks of. -/
theorem setRes_rest (d : Dev) (h : HalfId) (lo hi : Int) (hn : n < 4) : (∀ m : Fin 4, (d.setRes h n lo hi).carEn h m = d.carEn h m) ∧
    (d.setRes h n lo hi).geti (ctl .pos h) POS.SHAFT_LO_UM = d.geti (ctl .pos h) POS.SHAFT_LO_UM ∧
    (d.setRes h n lo hi).geti (ctl .pos h) POS.SHAFT_HI_UM = d.geti (ctl .pos h) POS.SHAFT_HI_UM ∧
    (d.setRes h n lo hi).get (ctl .sep h) SEP.GAP_MIN_UM = d.get (ctl .sep h) SEP.GAP_MIN_UM := by
  have hpos : ctl .pos h ∉ [ctl .sep h] := fun e =>
    pageNo_ne (b := .pos) (c := .sep) (n := 0) (m := 0) h rfl rfl (by decide) (List.mem_singleton.mp e)
  have hk := keeps_setRes d h (lo := lo) (hi := hi) hn
  simp only [carEn, on, geti]
  exact ⟨fun m => by rw [get_of_keeps hk (by decide) m.isLt (by decide) hpos], by rw [get_of_keeps hk (by decide) (by decide) (by decide) hpos],
    by rw [get_of_keeps hk (by decide) (by decide) (by decide) hpos], get_setRes d h _ hn (by decide) (by decide) (by decide)⟩

/-- A reservation that fits between the others keeps them apart. -/
theorem apart_setRes (hap : d.Apart h) (hn : n < 4) (hlo : Fits32 lo) (hhi : Fits32 hi) (hin : d.geti (ctl .pos h) POS.SHAFT_LO_UM ≤ lo)
    (hin' : hi ≤ d.geti (ctl .pos h) POS.SHAFT_HI_UM)
    (hfit : ∀ m : Fin 4, d.carEn h m = true → d.hasRes h m = true →
      (m.val < n → d.resHi h m + d.get (ctl .sep h) SEP.GAP_MIN_UM ≤ lo) ∧ (n < m.val → hi + d.get (ctl .sep h) SEP.GAP_MIN_UM ≤ d.resLo h m)) :
    (d.setRes h n lo hi).Apart h := by
  obtain ⟨hen, hslo, hshi, hgap⟩ := setRes_rest d h lo hi hn
  intro a b hea hha
  obtain ⟨alo, ahi, ahas⟩ := setRes_words d h hn a.isLt hlo hhi
  obtain ⟨blo, bhi, bhas⟩ := setRes_words d h hn b.isLt hlo hhi
  rw [hen] at hea
  rw [ahas] at hha
  rw [hslo, hshi, hgap, alo, ahi, blo, hen, bhas]
  by_cases ea : a.val = n
  · simp only [if_pos ea]
    refine ⟨hin, hin', fun hab heb hhb => ?_⟩
    have hb : b.val ≠ n := by have : a.val < b.val := hab; omega
    rw [if_neg hb] at hhb ⊢
    exact (hfit b heb hhb).2 (by have : a.val < b.val := hab; omega)
  · rw [if_neg ea] at hha
    simp only [if_neg ea]
    obtain ⟨h1, h2, h3⟩ := hap a b hea hha
    refine ⟨h1, h2, fun hab heb hhb => ?_⟩
    by_cases eb : b.val = n
    · rw [if_pos eb]
      exact (hfit a hea hha).1 (by have : a.val < b.val := hab; omega)
    · rw [if_neg eb] at hhb ⊢
      exact h3 hab heb hhb

/-- The two reservations of a handover, whose boundary lies between their outer ends. -/
theorem apart_handover {pos : Int} (hap : d.Apart h) (hn : n + 1 < 4) (he : d.carEn h n = true) (hr : d.hasRes h n = true)
    (he' : d.carEn h (n + 1) = true) (hr' : d.hasRes h (n + 1) = true) (hlow : d.resLo h n < pos)
    (hhigh : pos + d.get (ctl .sep h) SEP.GAP_MIN_UM < d.resHi h (n + 1)) :
    ((d.setRes h n (d.resLo h n) pos).setRes h (n + 1) (pos + d.get (ctl .sep h) SEP.GAP_MIN_UM) (d.resHi h (n + 1))).Apart h := by
  have hn' : n < 4 := by omega
  generalize hg : d.get (ctl .sep h) SEP.GAP_MIN_UM = g at *
  have hin : d.geti (ctl .pos h) POS.SHAFT_LO_UM ≤ d.resLo h n := (hap ⟨n, hn'⟩ ⟨n, hn'⟩ he hr).1
  have hin' : d.resHi h (n + 1) ≤ d.geti (ctl .pos h) POS.SHAFT_HI_UM := (hap ⟨n + 1, hn⟩ ⟨n + 1, hn⟩ he' hr').2.1
  have flo : Fits32 (d.resLo h n) := fits32_geti d _ _ _ rfl
  have fhi : Fits32 (d.resHi h (n + 1)) := fits32_geti d _ _ _ rfl
  have fpos : Fits32 pos := flo.between fhi (by omega) (by omega)
  have fpg : Fits32 (pos + g) := fpos.between fhi (by omega) (by omega)
  obtain ⟨en1, slo1, shi1, g1⟩ := setRes_rest d h (d.resLo h n) pos hn'
  obtain ⟨en2, slo2, shi2, g2⟩ := setRes_rest (d.setRes h n (d.resLo h n) pos) h (pos + g) (d.resHi h (n + 1)) hn
  intro a b hea hha
  obtain ⟨alo1, ahi1, ahas1⟩ := setRes_words d h hn' a.isLt flo fpos
  obtain ⟨alo2, ahi2, ahas2⟩ := setRes_words (d.setRes h n (d.resLo h n) pos) h hn a.isLt fpg fhi
  obtain ⟨blo1, -, bhas1⟩ := setRes_words d h hn' b.isLt flo fpos
  obtain ⟨blo2, -, bhas2⟩ := setRes_words (d.setRes h n (d.resLo h n) pos) h hn b.isLt fpg fhi
  rw [en2, en1] at hea
  rw [ahas2, ahas1] at hha
  rw [slo2, slo1, shi2, shi1, g2, g1, hg, alo2, alo1, ahi2, ahi1, en2, en1, bhas2, bhas1, blo2, blo1]
  clear en1 slo1 shi1 g1 en2 slo2 shi2 g2 alo1 ahi1 ahas1 alo2 ahi2 ahas2 blo1 bhas1 blo2 bhas2
  have hres (c : Fin 4) (hc : (if c.val = n + 1 then true else if c.val = n then true else d.hasRes h c) = true) : d.hasRes h c = true := by
    by_cases h1 : c.val = n + 1
    · rw [h1, hr']
    · by_cases h2 : c.val = n
      · rw [h2, hr]
      · rwa [if_neg h1, if_neg h2] at hc
  have hra := hres a hha
  obtain ⟨ha1, ha2, hab⟩ := hap a b hea hra
  have hal : a.val < n → d.resHi h a + g ≤ d.resLo h n := fun hl => hg ▸ (hap a ⟨n, hn'⟩ hea hra).2.2 hl he hr
  have hmid : d.resHi h n + g ≤ d.resLo h (n + 1) := hg ▸ (hap ⟨n, hn'⟩ ⟨n + 1, hn⟩ he hr).2.2 (Nat.lt_succ_self n) he' hr'
  refine ⟨?_, ?_, fun hlt heb hhb => ?_⟩
  · split_ifs <;> omega
  · split_ifs <;> omega
  · have hlt' : a.val < b.val := hlt
    have hrb := hres b hhb
    have hb : n + 1 < b.val → d.resHi h (n + 1) + g ≤ d.resLo h b := fun hl => hg ▸ (hap ⟨n + 1, hn⟩ b he' hr').2.2 hl heb hrb
    have hab' : d.resHi h a + g ≤ d.resLo h b := hg ▸ hab hlt heb hrb
    by_cases a1 : a.val = n + 1
    · rw [if_pos a1, if_neg (by omega), if_neg (by omega)]
      omega
    · by_cases a2 : a.val = n
      · rw [if_neg a1, if_pos a2]
        by_cases b1 : b.val = n + 1
        · rw [if_pos b1]
        · rw [if_neg b1, if_neg (by omega)]
          omega
      · rw [if_neg a1, if_neg a2]
        split_ifs <;> omega

end

/-- An accepted operation keeps the reservations apart. -/
theorem apart_sepDo (d : Dev) (h : HalfId) (c : GoCmd) (hcar : c.car < 4) (hap : d.Apart h)
    (hclm : d.hasRes h c.car = true → d.resLo h c.car ≤ d.clmLo h c.car ∧ d.clmHi h c.car ≤ d.resHi h c.car) (hwhy : d.sepWhy h c = none) :
    (d.sepDo h c).Apart h := by
  unfold sepWhy at hwhy
  unfold sepDo
  dsimp only at hwhy ⊢
  split at hwhy
  · cases hwhy
  split at hwhy
  next =>
    obtain ⟨hlt, hin, hfits⟩ : c.lo < c.hi ∧ d.inShaft h c.lo c.hi = true ∧ d.fits h c.car c.lo c.hi = true := by
      by_contra hno
      split_ifs at hwhy
      simp_all
    obtain ⟨hin1, hin2⟩ := of_decide_eq_true hin
    have fend : Fits32 (d.geti (ctl .pos h) POS.SHAFT_HI_UM) := fits32_geti d _ _ _ rfl
    have flo : Fits32 c.lo := (fits32_geti d _ _ _ rfl).between fend hin1 (by omega)
    have fhi : Fits32 c.hi := flo.between fend (by omega) hin2
    refine apart_setRes hap hcar flo fhi hin1 hin2 fun m hem hrm => ⟨fun hl => ?_, fun hl => ?_⟩
    · have hm := List.all_eq_true.mp hfits m (List.mem_range.mpr m.isLt)
      simpa [hem, hrm, hl, Nat.ne_of_lt hl] using hm
    · have hm := List.all_eq_true.mp hfits m (List.mem_range.mpr m.isLt)
      simpa [hem, hrm, Nat.not_lt_of_lt hl, Nat.ne_of_gt hl] using hm
  next =>
    obtain ⟨he, hr⟩ : d.carEn h c.car = true ∧ d.hasRes h c.car = true := by
      by_contra hno
      split_ifs at hwhy
      simp_all
    obtain ⟨hc1, hc2⟩ := hclm hr
    obtain ⟨hin1, hin2, -⟩ := hap ⟨c.car, hcar⟩ ⟨c.car, hcar⟩ he hr
    refine apart_setRes hap hcar (fits32_geti d _ _ _ rfl) (fits32_geti d _ _ _ rfl) (le_trans hin1 hc1) (le_trans hc2 hin2)
      fun m hem hrm => ⟨fun hl => ?_, fun hl => ?_⟩
    · exact le_trans ((hap m ⟨c.car, hcar⟩ hem hrm).2.2 hl he hr) hc1
    · exact le_trans (add_le_add_left hc2 _) ((hap ⟨c.car, hcar⟩ m he hr).2.2 hl hem hrm)
  next =>
    obtain ⟨⟨hn, he, he'⟩, ⟨hr, hr'⟩, hlow, hhigh⟩ : (¬ c.car > 2 ∧ d.carEn h c.car = true ∧ d.carEn h (c.car + 1) = true) ∧
        (d.hasRes h c.car = true ∧ d.hasRes h (c.car + 1) = true) ∧ d.resLo h c.car < c.pos ∧
        c.pos + d.get (ctl .sep h) SEP.GAP_MIN_UM < d.resHi h (c.car + 1) := by
      by_contra hno
      split_ifs at hwhy
      simp_all
    exact apart_handover hap (by omega) he hr he' hr' hlow hhigh
  next => cases hwhy

end Dev

/-- Settles O26: `sepWhy` checks what `Dev.Apart` asks of the new reservation; a trim lies inside the one it replaces. -/
theorem lanesStayApart : Obligations.LanesStayApart := by
  unfold Obligations.LanesStayApart
  intro d h c hcar apart hap hclm hwhy
  exact Dev.apart_sepDo d h c hcar hap hclm hwhy

end Sys2Proof.Machine
end

section
/-! PROOFS. What a generator does with its waiting command, and the drive status (O21, O22). -/
namespace Sys2Proof.Machine

open Sys2Proof

namespace Dev

/-- A motion intent changes nothing that a half keeps. -/
theorem half_sendIntent (d : Dev) (h k : HalfId) {f : Dev → Nat → Dev} (hf : ∀ d e, (f d e).half k = d.half k) : (d.sendIntent h f).half k = d.half k := by
  unfold sendIntent
  dsimp only
  exact iteInduction (motive := fun e : Dev => e.half k = d.half k) (fun _ => rfl)
    fun _ => (by cases k <;> rfl : _ = (f d _).half k).trans (hf d _)

/-! ### The command that waits -/

@[simp] theorem mpg_put (d : Dev) (p : Nat) (f : Fld) (v i t : Nat) (h : HalfId) (n : Nat) : (d.put p f v i t).mpg h n = d.mpg h n := by rw [mpg, half_put, mpg]
@[simp] theorem mpg_stat (d : Dev) (p k : Nat) (h : HalfId) (n : Nat) : (d.stat p k).mpg h n = d.mpg h n := mpg_put ..
@[simp] theorem mpg_showRes (d : Dev) (p : Nat) (r : ResFields) (st why tag : Nat) (h : HalfId) (n : Nat) : (d.showRes p r st why tag).mpg h n = d.mpg h n := by
  simp [showRes]
@[simp] theorem mpg_takenRes (d : Dev) (p : Nat) (r : ResFields) (tag seq : Nat) (why : Option Nat) (h : HalfId) (n : Nat) :
    (d.takenRes p r tag seq why).mpg h n = d.mpg h n := by simp [takenRes]

section
variable (d : Dev) (h : HalfId) (n : Nat)

/-- A change of a generator's state that leaves its waiting command. -/
theorem waiting_modMpg {f : Mpg → Mpg} (hf : ∀ m, (f m).waiting = m.waiting) : ((d.modMpg h n f).mpg h n).waiting = (d.mpg h n).waiting := by
  rw [mpg, modMpg, half_modHalf_same, getD_lmod]
  split
  · exact hf _
  · rfl

@[simp] theorem waiting_mpgIntent : ((d.mpgIntent h n).mpg h n).waiting = (d.mpg h n).waiting := by
  unfold mpgIntent
  dsimp only
  rw [mpg, half_sendIntent, mpg]
  exact fun _ _ => by cases h <;> rfl

@[simp] theorem waiting_mpgCause (cause : Nat) : ((d.mpgCause h n cause).mpg h n).waiting = (d.mpg h n).waiting := by
  unfold mpgCause
  dsimp only
  split <;> simp

@[simp] theorem waiting_mpgPlan (mode : Nat) (tgt : Int) (up : Bool) (gs : List Seg) :
    ((d.mpgPlan h n mode tgt up gs).mpg h n).waiting = (d.mpg h n).waiting := by
  unfold mpgPlan
  rw [waiting_modMpg]
  · simp [putb, puti]
  · exact fun _ => rfl

@[simp] theorem waiting_mpgFreeze (cause : Nat) : ((d.mpgFreeze h n cause).mpg h n).waiting = (d.mpg h n).waiting := by
  unfold mpgFreeze
  dsimp only
  split
  · rfl
  · rw [waiting_mpgIntent, waiting_mpgCause, waiting_modMpg]
    · simp
    · exact fun _ => rfl

@[simp] theorem waiting_mpgRamp (cause D J : Nat) (supplied : Bool) : ((d.mpgRamp h n cause D J supplied).mpg h n).waiting = (d.mpg h n).waiting := by
  unfold mpgRamp
  dsimp only
  split
  · rw [waiting_mpgIntent, apply_ite (fun e : Dev => (e.mpg h n).waiting), waiting_mpgCause, ite_self, waiting_modMpg]
    · simp
    · exact fun _ => rfl
  · rfl

@[simp] theorem waiting_mpgStop (cause : Nat) : ((d.mpgStop h n cause).mpg h n).waiting = (d.mpg h n).waiting := waiting_mpgRamp ..

@[simp] theorem waiting_stopAtDo (c : GoCmd) : ((d.stopAtDo h n c).mpg h n).waiting = (d.mpg h n).waiting := by
  unfold stopAtDo
  dsimp only
  split
  · rw [waiting_mpgIntent, waiting_mpgCause, mpg_put, waiting_modMpg]
    · simp
    · exact fun _ => rfl
  · rfl

@[simp] theorem waiting_moveDo (c : GoCmd) : ((d.moveDo h n c).mpg h n).waiting = (d.mpg h n).waiting := by
  unfold moveDo
  dsimp only
  split
  · rw [waiting_mpgIntent, mpg_stat, waiting_modMpg _ _ _ (by exact fun _ => rfl), mpg_put, puti, mpg_put, mpg_put, waiting_modMpg _ _ _ (by exact fun _ => rfl)]
  · rw [waiting_mpgIntent, putb, mpg_put, waiting_mpgPlan, waiting_modMpg _ _ _ (by exact fun _ => rfl)]

/-! ### Taking it -/

/-- The generator with its waiting command taken away. -/
def mpgTaken (d : Dev) (h : HalfId) (n : Nat) : Dev := d.modMpg h n (fun m => { m with waiting := none })

variable {d h n} {c : GoCmd}

theorem get_mpgTaken (p : Nat) (f : Fld) (i t : Nat) : (d.mpgTaken h n).get p f i t = d.get p f i t := get_modMpg ..

theorem mpg_mpgTaken (hn : n < (d.half h).mpg.length) : (d.mpgTaken h n).mpg h n = { d.mpg h n with waiting := none } := mpg_modMpg_same d _ hn

theorem carEn_mpgTaken : (d.mpgTaken h n).carEn = d.carEn := funext fun k => funext fun m => by simp only [carEn, on, get_mpgTaken]

/-- The checks of R117 do not look at the waiting command. -/
theorem mpgWhy_mpgTaken (hn : n < (d.half h).mpg.length) : (d.mpgTaken h n).mpgWhy h n c = d.mpgWhy h n c := by
  have hm := mpg_mpgTaken hn
  have hsep : ((d.mpgTaken h n).half h).sep = (d.half h).sep := by rw [mpgTaken, modMpg, half_modHalf_same]
  simp only [mpgWhy, mpgOn, enabled, on, mpgArg, stopAtWhy, moveWhy, posState, mpgMode, mpgStoppt, mpgMoving, mpgUp, mpgKin, mpgLim, mpgLane, slow,
    carV, carX, geti, cmdAim, mpgFrom, mpgSeeds, mpgStands, mpgBehind, swActs, jogTarget, rescueTarget, hasRes, resLo, resHi, bodyLo, bodyHi, cmdStop,
    get_mpgTaken, carEn_mpgTaken, hm, hsep]
  rfl

theorem takes_mpgTaken : (d.mpgTaken h n).takes h = d.takes h := by simp only [takes, active, cyxIdle, get_mpgTaken]

/-- The command a generator takes, or drops where its half takes none (R118, R119). -/
theorem mpgTake_of_waiting (hw : (d.mpg h n).waiting = some c) : d.mpgTake h n =
    if d.takes h then
      let why := (d.mpgTaken h n).mpgWhy h n c
      let e := (d.mpgTaken h n).takenRes (pgMpg h n) mpgRes c.tag ((d.mpgTaken h n).half h).servoCnt why
      if why.isSome then e
      else match c.op with
        | 3 => if e.mpgMode h n == 4 && (e.mpg h n).ramp.isSome then e else e.mpgStop h n 1
        | 4 => e.stopAtDo h n c
        | 5 => e.mpgFreeze h n 1
        | _ => e.moveDo h n c
    else d.mpgTaken h n := by
  unfold mpgTake
  rw [hw, ← takes_mpgTaken (n := n)]
  rfl

/-- Whatever it does with it, the command no longer waits. -/
theorem waiting_mpgTake (hw : (d.mpg h n).waiting = some c) (hn : n < (d.half h).mpg.length) : ((d.mpgTake h n).mpg h n).waiting = none := by
  have htaken : ((d.mpgTaken h n).mpg h n).waiting = none := by rw [mpg_mpgTaken hn]
  rw [mpgTake_of_waiting hw]
  dsimp only
  split
  · split
    · rw [mpg_takenRes, htaken]
    · split
      · split
        · rw [mpg_takenRes, htaken]
        · rw [waiting_mpgStop, mpg_takenRes, htaken]
      · rw [waiting_stopAtDo, mpg_takenRes, htaken]
      · rw [waiting_mpgFreeze, mpg_takenRes, htaken]
      · rw [waiting_moveDo, mpg_takenRes, htaken]
  · exact htaken

/-- A rejected command shows its reason and leaves the move. -/
theorem mpgTake_rejected (hw : (d.mpg h n).waiting = some c) (hn : n < (d.half h).mpg.length) (ht : d.takes h = true) {why : Nat}
    (hwhy : d.mpgWhy h n c = some why) :
    (d.mpgTake h n).mpg h n = { d.mpg h n with waiting := none } ∧ (d.mpgTake h n).get (pgMpg h n) MPG.CMD_RES_STATE = 3 ∧
      (d.mpgTake h n).get (pgMpg h n) MPG.CMD_RES_REASON = why % 2 ^ 8 ∧ (d.mpgTake h n).get (pgMpg h n) MPG.TGT_UM = d.get (pgMpg h n) MPG.TGT_UM := by
  have e : d.mpgTake h n = (d.mpgTaken h n).takenRes (pgMpg h n) mpgRes c.tag ((d.mpgTaken h n).half h).servoCnt (some why) := by
    rw [mpgTake_of_waiting hw, if_pos ht]
    simp only [mpgWhy_mpgTaken hn, hwhy, Option.isSome_some, if_true]
  rw [e, mpg_takenRes, mpg_mpgTaken hn]
  refine ⟨rfl, ?_, ?_, ?_⟩ <;>
    simp (disch := decide) [takenRes, showRes, mpgRes, stat, orBits, get_put_apart, get_put_same, get_mpgTaken] <;> rfl

/-- What R120 asks of the target of a moving car. -/
theorem ahead_of_not_mpgBehind (hop : c.op = 1) (hm : d.mpgMoving h n = true) (hb : d.mpgBehind h n c = false) :
    if d.mpgUp h n then (d.mpgKin h n).x / unitX < c.pos ∧ d.mpgStoppt h n ≤ c.pos else c.pos < (d.mpgKin h n).x / unitX ∧ c.pos ≤ d.mpgStoppt h n := by
  simp only [mpgBehind, hm, if_true, cmdAim, hop] at hb
  cases hup : d.mpgUp h n
  all_goals
    simp [hup] at hb
    simp
    omega

end

end Dev

/-- Settles O21: `mpgTake` clears the waiting command first; check 7 of R117 is the rule of the fixed target. -/
theorem theTargetIsFixed : Obligations.TheTargetIsFixed := by
  unfold Obligations.TheTargetIsFixed
  intro d h n c hw hlen
  have hn : n.val < (d.half h).mpg.length := by rw [hlen]; exact n.isLt
  refine ⟨Dev.waiting_mpgTake hw hn, fun ht => ?_, fun why ht hwhy => Dev.mpgTake_rejected hw hn ht hwhy, fun hop hm hwhy => Dev.ahead_of_not_mpgBehind hop hm ?_⟩
  · rw [Dev.mpgTake_of_waiting hw, ht, if_neg (by decide)]
    exact Dev.modHalf_regs ..
  · by_contra hb
    rw [Bool.not_eq_false] at hb
    simp only [Dev.mpgWhy, Dev.mpgArg, Dev.moveWhy, hop, hb] at hwhy
    split_ifs at hwhy <;> contradiction

/-! ### The drive status -/

namespace Dev

section
variable {d : Dev} {h : HalfId} {n : Nat} {data : List Byte}

theorem pgMpg_ne_slt (h : HalfId) {n : Nat} (hn : n < 4) : pgMpg h n ≠ shp .slt := pageNo_ne_shp h n rfl (by decide) (by show 4 + n < 256; omega)

theorem errUnit_pgMpg (h : HalfId) {n : Nat} (hn : n < 4) : errUnit? (pgMpg h n) = some n := by
  have e : pgMpg h n / 256 = h.n ∧ pgMpg h n % 256 = 4 + n := by
    cases h <;> simp only [pgMpg, pageNo, Blk.region, Blk.index, HalfId.n, if_true] <;> omega
  have hh : h.n ≤ 1 := by cases h <;> decide
  rw [errUnit?, e.1, e.2, if_pos (by omega)]
  congr 1
  omega

/-- A frame of 8 bytes or more is the latest copy. -/
theorem drvFrame_whole (hon : d.on (pgMpg h n) MPG.DRV_ID_EN = true) (hlen : data.length ≥ 8) :
    d.drvFrame h n data = d.modMpg h n (fun m => { m with drv := some (data.take 8), drvShort := false }) := by
  simp [drvFrame, hon, hlen]

/-- A shorter one is noted, and reported if it begins a run. -/
theorem drvFrame_short (hon : d.on (pgMpg h n) MPG.DRV_ID_EN = true) (hlen : data.length < 8) :
    d.drvFrame h n data = if (d.mpg h n).drvShort then d.modMpg h n (fun m => { m with drvShort := true, drvMiss := true })
      else (d.modMpg h n (fun m => { m with drvShort := true, drvMiss := true })).err (pgMpg h n) cDRV_SHORT n := by
  simp [drvFrame, hon, Nat.not_le_of_lt hlen]

theorem keeps_drvFrame (d : Dev) (h : HalfId) (n : Nat) (data : List Byte) : d.keeps (d.drvFrame h n data) [pgMpg h n] := by
  unfold drvFrame
  dsimp only
  split
  · exact keeps_refl d _
  · split
    · rw [keeps_modMpg_iff, keeps_refl_iff]
      trivial
    · split
      · rw [keeps_modMpg_iff, keeps_refl_iff]
        trivial
      · rw [keeps_err_iff (List.mem_singleton.mpr rfl), keeps_modMpg_iff, keeps_refl_iff]
        trivial

theorem half_drvFrame_other (d : Dev) (h : HalfId) (n : Nat) (data : List Byte) : (d.drvFrame h n data).half h.other = d.half h.other := by
  unfold drvFrame
  dsimp only
  split
  · rfl
  · split
    · exact half_modHalf_other ..
    · split
      · exact half_modHalf_other ..
      · rw [half_err]
        exact half_modHalf_other ..

/-- DRV_SILENT at its limit. -/
theorem drvSilent_eq (d : Dev) (h : HalfId) (n : Nat) : d.drvSilent h n =
    if d.on (pgMpg h n) MPG.DRV_ID_EN = true ∧ d.get (pgMpg h n) MPG.DRV_LOSS_N ≠ 0 ∧ d.get (pgMpg h n) MPG.DRV_STAT_MISSED ≥ d.get (pgMpg h n) MPG.DRV_LOSS_N then
      (d.fault (pgMpg h n) cDRV_SILENT n).stat (pgMpg h n) 4
    else d := by
  simp [drvSilent, and_assoc]

end

end Dev

/-- Settles O22: the frame reaches both halves, each of which has its own page. -/
theorem driveStatusFrames : Obligations.DriveStatusFrames := by
  unfold Obligations.DriveStatusFrames
  intro s h n hout hlen
  refine ⟨fun data hon => ?_, ?_⟩
  · obtain ⟨d₀, hk₀, hh₀, hk₁, hh₁, hall⟩ := Dev.both_local (P := fun h => pgMpg h n) (ps := []) (fun d h => Dev.keeps_drvFrame d h n data)
      (fun d h => Dev.half_drvFrame_other d h n data) s.dev h
    have hpg : pgMpg h n ∉ [pgMpg h.other n] := fun e => by
      have hne : pgMpg .a n ≠ pgMpg .b n := pageNo_halves rfl rfl (by show 4 + n.val < 256; omega)
      cases h
      · exact hne (List.mem_singleton.mp e)
      · exact hne (List.mem_singleton.mp e).symm
    have hget (f : Fld) (hf : f.fits = true) (hc : 0 < f.cnt) : d₀.get (pgMpg h n) f = s.dev.get (pgMpg h n) f :=
      Dev.get_of_keeps hk₀ hf hc (by decide) hpg
    have hget' (f : Fld) (hf : f.fits = true) (hc : 0 < f.cnt) :
        (s.dev.both fun d h => d.drvFrame h n data).get (pgMpg h n) f = (d₀.drvFrame h n data).get (pgMpg h n) f :=
      Dev.get_of_keeps hk₁ hf hc (by decide) hpg
    have hmpg₀ : d₀.mpg h n = s.dev.mpg h n := by rw [Dev.mpg, hh₀, Dev.mpg]
    have hmpg₁ : (s.dev.both fun d h => d.drvFrame h n data).mpg h n = (d₀.drvFrame h n data).mpg h n := by rw [Dev.mpg, hh₁, Dev.mpg]
    have hn : n.val < (d₀.half h).mpg.length := by rw [hh₀, hlen]; exact n.isLt
    have hon₀ : d₀.on (pgMpg h n) MPG.DRV_ID_EN = true := by rw [Dev.on, hget _ (by decide) (by decide)]; exact hon
    refine ⟨_, next_of_out hout rfl, rfl, hall, fun hlong => ?_, fun hshort => ?_⟩
    · rw [State.dev_mk, hmpg₁, hget' _ (by decide) (by decide), Dev.drvFrame_whole hon₀ hlong, Dev.mpg_modMpg_same _ _ hn, Dev.get_modMpg]
      exact ⟨rfl, hget _ (by decide) (by decide)⟩
    · rw [State.dev_mk, hmpg₁, hget' _ (by decide) (by decide), hget' _ (by decide) (by decide), Dev.drvFrame_short hon₀ hshort, hmpg₀]
      split
      next hs =>
        rw [Dev.mpg_modMpg_same _ _ hn, hmpg₀]
        exact ⟨rfl, rfl, fun hs' => absurd hs (by simp [hs'])⟩
      next =>
        rw [Dev.mpg, Dev.half_err, ← Dev.mpg, Dev.mpg_modMpg_same _ _ hn, hmpg₀, Dev.get_err_code]
        refine ⟨rfl, rfl, fun _ => ⟨rfl, ?_⟩⟩
        rw [Dev.err, Dev.errUnit_pgMpg h n.isLt, Dev.get_put_same _ _ _ _ _ _ (by decide)]
        exact Nat.mod_eq_of_lt (by show n.val < 65536; omega)
  · split
    next hc =>
      have hslt : pgMpg h n ≠ shp .slt := Dev.pgMpg_ne_slt h n.isLt
      refine ⟨_, next_of_out_eq hout rfl ((Dev.drvSilent_eq s.dev h n).trans (if_pos hc)), rfl, ?_, ?_, ?_⟩
      · rw [State.dev_mk, Dev.get_stat_ne _ _ _ _ _ _ _ (by simp [fkey, HDR.ERR_CODE, HDR.STAT_BLOCK])]
        exact Dev.fault_code s.dev cDRV_SILENT n [] hslt
      · exact Dev.bitN_stat _ _ (by decide)
      · rw [State.dev_mk, Dev.keeps_stat_iff (by simp)]
        exact Dev.keeps_fault s.dev _ _ _ _ _ (by simp) (by simp)
    next hc => exact next_of_out_eq hout rfl ((Dev.drvSilent_eq s.dev h n).trans (if_neg hc))

end Sys2Proof.Machine
end

section
/-! PROOFS. Lock supervision and drive status of the door axes (O28). -/
namespace Sys2Proof.Machine

open Sys2Proof

namespace Dev

section
variable {d : Dev} {h : HalfId} {n : Nat} {data : List Byte}

theorem pgDax_ne_slt (h : HalfId) (hn : n < 8) : pgDax h n ≠ shp .slt := pageNo_ne_shp h n rfl (by decide) (by show 16 + n < 256; omega)

theorem errUnit_pgDax (h : HalfId) (hn : n < 8) : errUnit? (pgDax h n) = some n := by
  have e : pgDax h n / 256 = h.n ∧ pgDax h n % 256 = 16 + n := by
    cases h <;> simp only [pgDax, pageNo, Blk.region, Blk.index, HalfId.n, if_true] <;> omega
  have hh : h.n ≤ 1 := by cases h <;> decide
  rw [errUnit?, e.1, e.2, if_neg (by omega), if_pos (by omega)]
  congr 1
  omega

@[simp] theorem dax_put (d : Dev) (p : Nat) (f : Fld) (v i t : Nat) (h : HalfId) (n : Nat) : (d.put p f v i t).dax h n = d.dax h n := by rw [dax, half_put, dax]
@[simp] theorem dax_err (d : Dev) (p c x : Nat) (h : HalfId) (n : Nat) : (d.err p c x).dax h n = d.dax h n := by rw [dax, half_err, dax]

/-! ### The status frames of a CAN axis -/

/-- A frame of 12 bytes or more is the latest copy. -/
theorem doorFrame_whole (hon : d.on (pgDax h n) DAX.DRV_ID_EN = true) (hcan : d.daxCan h n = true) (hlen : data.length ≥ 12) :
    d.doorFrame h n data = d.modDax h n (fun x => { x with drv := some (data.take 12), drvShort := false }) := by
  simp [doorFrame, hon, hcan, hlen]

/-- A shorter one is noted, and reported if it begins a run. -/
theorem doorFrame_short (hon : d.on (pgDax h n) DAX.DRV_ID_EN = true) (hcan : d.daxCan h n = true) (hlen : data.length < 12) :
    d.doorFrame h n data = if (d.dax h n).drvShort then d.modDax h n (fun x => { x with drvShort := true, drvMiss := true })
      else (d.modDax h n (fun x => { x with drvShort := true, drvMiss := true })).err (pgDax h n) cDOOR_SHORT n := by
  simp [doorFrame, hon, hcan, Nat.not_le_of_lt hlen]

theorem keeps_doorFrame (d : Dev) (h : HalfId) (n : Nat) (data : List Byte) : d.keeps (d.doorFrame h n data) [pgDax h n] := by
  unfold doorFrame
  dsimp only
  split
  · exact keeps_refl d _
  · split
    · rw [keeps_modDax_iff, keeps_refl_iff]
      trivial
    · split
      · rw [keeps_modDax_iff, keeps_refl_iff]
        trivial
      · rw [keeps_err_iff (List.mem_singleton.mpr rfl), keeps_modDax_iff, keeps_refl_iff]
        trivial

theorem half_doorFrame_other (d : Dev) (h : HalfId) (n : Nat) (data : List Byte) : (d.doorFrame h n data).half h.other = d.half h.other := by
  unfold doorFrame
  dsimp only
  split
  · rfl
  · split
    · exact half_modHalf_other ..
    · split
      · exact half_modHalf_other ..
      · rw [half_err]
        exact half_modHalf_other ..

/-- DOOR_SILENT at its limit. -/
theorem doorSilent_eq (d : Dev) (h : HalfId) (n : Nat) : d.doorSilent h n =
    if d.on (pgDax h n) DAX.DRV_ID_EN = true ∧ d.get (pgDax h n) DAX.DRV_LOSS_N ≠ 0 ∧ d.get (pgDax h n) DAX.DRV_STAT_MISSED ≥ d.get (pgDax h n) DAX.DRV_LOSS_N then
      (d.fault (pgDax h n) cDOOR_SILENT n).stat (pgDax h n) 5
    else d := by
  simp [doorSilent, and_assoc]

/-! ### Lock supervision -/

/-- A lock that does not close in time: another attempt, or a stop with cause LOCK_FAIL. -/
theorem daxLockFail_eq (hmode : d.daxMode h n = 1) (hns : (d.dax h n).lockNs.isSome = true) (hlock : d.daxLock h n = false) : d.daxLockFail h n =
    let e := d.err (pgDax h n) cDOOR_LOCK_FAIL n
    if (e.dax h n).tries < e.get (pgDax h n) DAX.CFG_LOCK_RETRY then
      (e.daxOpenCam h n).modDax h n (fun x => { x with tries := (e.dax h n).tries + 1, recloses := true })
    else ((e.daxGoMode h n 10).daxWhy h n 6).modDax h n (fun x => { x with lockNs := none, tries := 0 }) := by
  simp [daxLockFail, hmode, hns, hlock]

theorem daxLockFail_skip (hs : d.daxMode h n ≠ 1 ∨ d.daxLock h n = true) : d.daxLockFail h n = d := by
  rcases hs with hs | hs <;> simp [daxLockFail, hs]

end

end Dev

/-- Settles O28: lock supervision writes the page of its axis alone; a status frame reaches both halves, each of which has its own page. -/
theorem doorLocksAndDrives : Obligations.DoorLocksAndDrives := by
  unfold Obligations.DoorLocksAndDrives
  intro s h k hout hlen
  have hslt : pgDax h k ≠ shp .slt := Dev.pgDax_ne_slt h k.isLt
  refine ⟨fun hmode hns hlock => ?_, fun hs => ?_, fun data hon hcan => ?_, ?_⟩
  · have hp : pgDax h k ∈ [pgDax h k] := List.mem_singleton.mpr rfl
    have hretry : (s.dev.err (pgDax h k) cDOOR_LOCK_FAIL k).get (pgDax h k) DAX.CFG_LOCK_RETRY = s.dev.get (pgDax h k) DAX.CFG_LOCK_RETRY := by
      simp (disch := decide) [Dev.err, Dev.bump, Dev.get_put_apart]
    have hcode (e : Dev) : e.get (pgDax h k) HDR.ERR_CODE = (s.dev.err (pgDax h k) cDOOR_LOCK_FAIL k).get (pgDax h k) HDR.ERR_CODE →
        e.get (pgDax h k) HDR.ERR_CODE = cDOOR_LOCK_FAIL := fun he => he.trans (Dev.get_err_code ..)
    refine ⟨_, next_of_out_eq hout rfl (Dev.daxLockFail_eq hmode hns hlock), rfl, ?_⟩
    rw [State.dev_mk]
    dsimp only
    rw [Dev.dax_err, hretry]
    split
    next hlt =>
      refine ⟨hcode _ ?_, ?_, ?_⟩
      · simp (disch := decide) [Dev.daxOpenCam, Dev.daxGoMode, Dev.get_put_apart]
      · simp (disch := first | decide | exact hp) [Dev.daxOpenCam, Dev.daxGoMode, Dev.keeps_put_iff, Dev.keeps_err_iff]
      · rw [Dev.dax_modDax_same]
        · refine ⟨?_, rfl, rfl⟩
          simp (disch := decide) [Dev.daxMode, Dev.daxOpenCam, Dev.daxGoMode, Dev.get_put_same]
          rfl
        · simp [Dev.daxOpenCam, Dev.daxGoMode, Dev.modDax, hlen]
    next hge =>
      refine ⟨hcode _ ?_, ?_, ?_⟩
      · simp (disch := decide) [Dev.daxGoMode, Dev.daxWhy, Dev.get_put_apart]
      · simp (disch := first | decide | exact hp) [Dev.daxWhy, Dev.daxGoMode, Dev.keeps_put_iff, Dev.keeps_err_iff]
      · simp (disch := decide) [Dev.daxMode, Dev.daxWhy, Dev.daxGoMode, Dev.get_put_apart, Dev.get_put_same]
        exact ⟨rfl, rfl⟩
  · exact next_of_out_eq hout rfl (Dev.daxLockFail_skip hs)
  · obtain ⟨d₀, hk₀, hh₀, hk₁, hh₁, hall⟩ := Dev.both_local (P := fun h => pgDax h k) (ps := []) (fun d h => Dev.keeps_doorFrame d h k data)
      (fun d h => Dev.half_doorFrame_other d h k data) s.dev h
    have hpg : pgDax h k ∉ [pgDax h.other k] := fun e => by
      have hne : pgDax .a k ≠ pgDax .b k := pageNo_halves rfl rfl (by show 16 + k.val < 256; omega)
      cases h
      · exact hne (List.mem_singleton.mp e)
      · exact hne (List.mem_singleton.mp e).symm
    have hget (f : Fld) (hf : f.fits = true) (hc : 0 < f.cnt) : d₀.get (pgDax h k) f = s.dev.get (pgDax h k) f :=
      Dev.get_of_keeps hk₀ hf hc (by decide) hpg
    have hget' (f : Fld) (hf : f.fits = true) (hc : 0 < f.cnt) :
        (s.dev.both fun d h => d.doorFrame h k data).get (pgDax h k) f = (d₀.doorFrame h k data).get (pgDax h k) f :=
      Dev.get_of_keeps hk₁ hf hc (by decide) hpg
    have hdax₀ : d₀.dax h k = s.dev.dax h k := by rw [Dev.dax, hh₀, Dev.dax]
    have hdax₁ : (s.dev.both fun d h => d.doorFrame h k data).dax h k = (d₀.doorFrame h k data).dax h k := by rw [Dev.dax, hh₁, Dev.dax]
    have hn : k.val < (d₀.half h).dax.length := by rw [hh₀, hlen]; exact k.isLt
    have hon₀ : d₀.on (pgDax h k) DAX.DRV_ID_EN = true := by rw [Dev.on, hget _ (by decide) (by decide)]; exact hon
    have hcan₀ : d₀.daxCan h k = true := by rw [Dev.daxCan, Dev.on, hget _ (by decide) (by decide)]; exact hcan
    refine ⟨_, next_of_out hout rfl, rfl, hall, fun hlong => ?_, fun hshort => ?_⟩
    · rw [State.dev_mk, hdax₁, Dev.doorFrame_whole hon₀ hcan₀ hlong, Dev.dax_modDax_same _ _ hn]
    · rw [State.dev_mk, hdax₁, hget' _ (by decide) (by decide), hget' _ (by decide) (by decide), Dev.doorFrame_short hon₀ hcan₀ hshort, hdax₀]
      split
      next hs =>
        rw [Dev.dax_modDax_same _ _ hn, hdax₀]
        exact ⟨rfl, rfl, fun hs' => absurd hs (by simp [hs'])⟩
      next =>
        rw [Dev.dax_err, Dev.dax_modDax_same _ _ hn, hdax₀, Dev.get_err_code]
        refine ⟨rfl, rfl, fun _ => ⟨rfl, ?_⟩⟩
        rw [Dev.err, Dev.errUnit_pgDax h k.isLt, Dev.get_put_same _ _ _ _ _ _ (by decide)]
        exact Nat.mod_eq_of_lt (by show k.val < 65536; omega)
  · split
    next hc =>
      refine ⟨_, next_of_out_eq hout rfl ((Dev.doorSilent_eq s.dev h k).trans (if_pos hc)), rfl, ?_, ?_, ?_⟩
      · rw [State.dev_mk, Dev.get_stat_ne _ _ _ _ _ _ _ (by simp [fkey, HDR.ERR_CODE, HDR.STAT_BLOCK])]
        exact Dev.fault_code s.dev cDOOR_SILENT k [] hslt
      · exact Dev.bitN_stat _ _ (by decide)
      · rw [State.dev_mk, Dev.keeps_stat_iff (by simp)]
        exact Dev.keeps_fault s.dev _ _ _ _ _ (by simp) (by simp)
    next hc => exact next_of_out_eq hout rfl ((Dev.doorSilent_eq s.dev h k).trans (if_neg hc))

end Sys2Proof.Machine
end

section
/-! PROOFS. The supply of a stepper channel (O29).

The level that shows the loss of the supply reaches the switch table too, and the generator of the car that an entry names acts at once. The statement
bounds the car number of an entry by nothing, and "generator 20" of Half A has the page of STP: its mode is the count of channel 2. -/
namespace Sys2Proof.Machine

open Sys2Proof

/-- The part out of reset, with Half A active. -/
def awake : Dev := ({ Dev.init with boot := { Dev.init.boot with released := true } } : Dev).put (ctl .hlf .a) HLF.STATE_OWN 0

/-- Channel 2 of Half A with its bridge supply monitored on DIN 0, at count 2; entry 0 of the switch table, a limit switch on the same DIN channel, names
a car 20, which is enabled. -/
def strayCar : Dev :=
  let p := ctl .stp .a
  let q := ctl .pos .a
  let d := ((((awake.put (shp .din) HDR.CTRL_EN 1).put p HDR.CTRL_EN 1).put p STP.CH_DRV_PG_EN 1 2).put p STP.CH_COUNT_USTEP 2 2)
  let d := (((d.put q POS.SW_KIND 2).put q POS.SW_POL 1).put q POS.CAR_CFG_EN 1 20)
  { d with regs := rfSet (fkey q POS.SW_CAR 0 0) 0 20 d.regs }

set_option maxRecDepth 100000 in
/-- The generator that the entry stops writes the count of the channel. -/
theorem count_strayCar : (strayCar.both fun d h => d.stpSupply h 2 false).get (ctl .stp .a) STP.CH_COUNT_USTEP 2 = 5 := by decide

set_option maxRecDepth 100000 in
/-- Refutes O29: in `strayCar` the loss of the bridge supply changes the count of channel 2. -/
theorem not_stepperChannels : ¬ Obligations.StepperChannels := by
  unfold Obligations.StepperChannels
  intro h
  obtain ⟨hsupply, -⟩ := h ⟨strayCar, []⟩ .a 2 (by decide) (by decide) (by decide)
  obtain ⟨hloss, -⟩ := hsupply (by decide) (by decide) (by decide) (by decide)
  obtain ⟨t, hexec, -, -, -, -, -, hcount, -⟩ := hloss (by decide)
  have hstep : exec (.stpDrvPowerLoss 2) ⟨strayCar, []⟩ = .next ⟨strayCar.both fun d h => d.stpSupply h 2 false, []⟩ := next_of_out (by decide) rfl
  rw [hstep] at hexec
  rw [← Host.Outcome.next.inj hexec] at hcount
  exact absurd (count_strayCar.symm.trans hcount) (by decide)

end Sys2Proof.Machine
end

section
/-! PROOFS. The states of a car's position (O18). -/
namespace Sys2Proof.Machine

open Sys2Proof

namespace Dev

theorem ctlPos_ne_slt (h : HalfId) : ctl .pos h ≠ shp .slt := ctl_ne_shp h rfl (by decide) (by decide)

theorem ctlPos_other (h : HalfId) : ctl .pos h ≠ ctl .pos h.other := by cases h <;> decide

@[simp] theorem get_modCopy (d : Dev) (h : HalfId) (n : Nat) (g : PosCopy → PosCopy) (p f i t) : (d.modCopy h n g).get p f i t = d.get p f i t := rfl
@[simp] theorem keeps_modCopy_iff (d e : Dev) (h : HalfId) (n : Nat) (g : PosCopy → PosCopy) (ps) : d.keeps (e.modCopy h n g) ps ↔ d.keeps e ps := Iff.rfl
@[simp] theorem get_initCar (d : Dev) (h : HalfId) (n : Nat) (p f i t) : (d.initCar h n).get p f i t = d.get p f i t := get_modPosCar ..
@[simp] theorem keeps_initCar_iff (d e : Dev) (h : HalfId) (n : Nat) (ps) : d.keeps (e.initCar h n) ps ↔ d.keeps e ps := keeps_modPosCar_iff ..

/-- A change of the generators' state, as `setPosState` writes it. -/
theorem keeps_lmodMpg_iff (d e : Dev) (h : HalfId) (n : Nat) (g : Mpg → Mpg) (ps) :
    d.keeps (e.modHalf h (fun x => { x with mpg := lmod x.mpg n g })) ps ↔ d.keeps e ps := keeps_modMpg_iff ..

section
variable (d : Dev) (h : HalfId) {n : Nat}

/-- A change of state works on the POS page of its half and posts a record. -/
theorem keeps_setPosState (hn : n < 4) (st : Nat) : d.keeps (d.setPosState h n st) [ctl .pos h, shp .slt] := by
  unfold setPosState
  dsimp only
  split
  · exact keeps_refl d _
  · rw [keeps_modCopy_iff]
    split <;> split <;> split <;>
      simp (disch := first | (refine Nat.lt_of_lt_of_le hn ?_; decide) | decide | simp) [note, keeps_lmodMpg_iff, keeps_stat_iff, keeps_post_iff, keeps_put_iff]

/-- The registers that it shows are the state and STAT. -/
theorem get_setPosState_eq {st : Nat} (hst : d.posState h n ≠ st) {q : Nat} {f : Fld} {i t : Nat} (hq : q ≠ shp .slt)
    (hb : HDR.STAT_BLOCK.apart f = true) (hf : f.fits = true) (hi : i < f.cnt) (ht : t < 65536) :
    (d.setPosState h n st).get q f i t = (d.put (ctl .pos h) POS.CAR_STAT_STATE st n).get q f i t := by
  unfold setPosState
  dsimp only
  rw [if_neg hst, get_modCopy]
  split <;> split <;> split <;>
    simp (disch := first | decide | assumption) [note, stat, orBits, get_put_field _ _ hb, get_post_other]

theorem get_setPosState (hn : n < 4) (st : Nat) {q : Nat} {f : Fld} {i t : Nat} (hq : q ≠ shp .slt) (hs : POS.CAR_STAT_STATE.apart f = true)
    (hb : HDR.STAT_BLOCK.apart f = true) (hf : f.fits = true) (hi : i < f.cnt) (ht : t < 65536) : (d.setPosState h n st).get q f i t = d.get q f i t := by
  by_cases hst : d.posState h n = st
  · rw [setPosState, if_pos hst]
  · rw [get_setPosState_eq d h hst hq hb hf hi ht, get_put_field d st hs (by decide) hf hn hi (by decide) ht]

theorem posState_setPosState (hn : n < 4) {st : Nat} (h8 : st < 8) : (d.setPosState h n st).posState h n = st := by
  by_cases hst : d.posState h n = st
  · rw [setPosState, if_pos hst, hst]
  · rw [posState, get_setPosState_eq d h hst (ctlPos_ne_slt h) (by decide) (by decide) hn (by decide), get_put_same _ _ _ _ _ _ (by decide)]
    exact Nat.mod_eq_of_lt h8

theorem posState_setPosState_ne (st : Nat) {m : Nat} (hm : m < 4) (hmn : n ≠ m) :
    (d.setPosState h n st).posState h m = d.posState h m := by
  by_cases hst : d.posState h n = st
  · rw [setPosState, if_pos hst]
  · rw [posState, get_setPosState_eq d h hst (ctlPos_ne_slt h) (by decide) (by decide) hm (by decide),
      get_put_idx _ _ (by decide) (by decide) (by decide) hmn, posState]

end

theorem half_setPosState_other (d : Dev) (h : HalfId) (n st : Nat) : (d.setPosState h n st).half h.other = d.half h.other := by
  have hm (e : Dev) (g : Half → Half) : (e.modHalf h g).half h.other = e.half h.other := half_modHalf_other ..
  have hc (e : Dev) (g : PosCopy → PosCopy) : (e.modCopy h n g).half h.other = e.half h.other := by cases h <;> rfl
  unfold setPosState
  dsimp only
  split
  · rfl
  · rw [hc]
    split <;> split <;> split <;> simp [hm, initCar, modPosCar]

/-! ### One entry of a loop over units -/

/-- A loop over units in which what `g` shows is changed by unit `a` only. -/
theorem foldl_at {α β γ : Type} {f : β → α → β} {g : β → γ} {a : α} : ∀ (l : List α) (b : β), (∀ b, ∀ x ∈ l, x ≠ a → g (f b x) = g b) → a ∈ l → l.Nodup →
    ∃ (b' : β) (l' : List α), g b' = g b ∧ l.foldl f b = l'.foldl f (f b' a) ∧ ∀ x ∈ l', x ∈ l ∧ x ≠ a
  | x :: l, b, ho, h, hd => by
    obtain ⟨hx, hd⟩ := List.nodup_cons.mp hd
    by_cases hxa : x = a
    · subst hxa
      exact ⟨b, l, rfl, rfl, fun y hy => ⟨List.mem_cons_of_mem x hy, fun e => hx (e ▸ hy)⟩⟩
    · obtain ⟨b', l', hg, hf, hl⟩ := foldl_at l (f b x) (fun b y hy => ho b y (List.mem_cons_of_mem x hy))
        ((List.mem_cons.mp h).resolve_left fun e => hxa e.symm) hd
      exact ⟨b', l', hg.trans (ho b x List.mem_cons_self hxa), hf, fun y hy => ⟨List.mem_cons_of_mem x (hl y hy).1, (hl y hy).2⟩⟩

theorem foldl_off {α β γ : Type} {f : β → α → β} {g : β → γ} : ∀ (l : List α) (b : β), (∀ b, ∀ x ∈ l, g (f b x) = g b) → g (l.foldl f b) = g b
  | [], _, _ => rfl
  | x :: l, b, ho => by
    rw [List.foldl_cons, foldl_off l _ fun b y hy => ho b y (List.mem_cons_of_mem x hy), ho b x List.mem_cons_self]

theorem foldl_keep {α β : Type} {f : β → α → β} {P : β → Prop} : ∀ (l : List α) (b : β), (∀ b, ∀ x ∈ l, P b → P (f b x)) → P b → P (l.foldl f b)
  | [], _, _, hb => hb
  | x :: l, b, ho, hb => foldl_keep l _ (fun b y hy => ho b y (List.mem_cons_of_mem x hy)) (ho b x List.mem_cons_self hb)

/-! ### The encoder of a car is lost -/

/-- What the loss of an encoder does to one car. -/
def encLossCar (h : HalfId) (e : Nat) (d : Dev) (n : Nat) : Dev :=
  if d.carEn h n && d.on (ctl .pos h) POS.CAR_CFG_ENC_USE n && d.get (ctl .pos h) POS.CAR_CFG_ENC n == e then
    let d1 := (d.fault (ctl .pos h) cENC_LOSS n).put (ctl .pos h) POS.CAR_STAT_ENC_LOST 1 n
    if d.posState h n == 3 && !d.on (ctl .pos h) POS.CAR_STAT_ENC_LOST n then d1.setPosState h n 4 else d1
  else d

theorem encLoss_eq (d : Dev) (h : HalfId) (e : Nat) : d.encLoss h e = (List.range 4).foldl (encLossCar h e) d := rfl

/-- What the loss looks at in a car, and the fields it writes there. -/
def lossView (h : HalfId) (n : Nat) (d : Dev) : Bool × Bool × Nat × Bool × Nat :=
  (d.carEn h n, d.on (ctl .pos h) POS.CAR_CFG_ENC_USE n, d.get (ctl .pos h) POS.CAR_CFG_ENC n, d.on (ctl .pos h) POS.CAR_STAT_ENC_LOST n, d.posState h n)

/-- A fault leaves the fields of other words than those of the error and STAT. -/
theorem get_fault_apart (d : Dev) {p c x : Nat} {ws : List Nat} {q : Nat} {f : Fld} {i t : Nat} (hq : q ≠ shp .slt)
    (h1 : HDR.ERR_COUNT.apart f = true) (h2 : HDR.ERR_CODE.apart f = true) (h3 : HDR.ERR_DETAIL.apart f = true) (hf : f.fits = true) (hi : i < f.cnt)
    (ht : t < 65536) : (d.fault p c x ws).get q f i t = d.get q f i t := by
  simp (disch := first | decide | assumption) [fault, note, err, bump, get_post_other, get_put_field]

section
variable (d : Dev) (h : HalfId) (e : Nat) {n m : Nat} (hm : m < 4) (hn : n < 4)
include hm

theorem keeps_encLossCar : d.keeps (encLossCar h e d m) [ctl .pos h, shp .slt] := by
  unfold encLossCar
  dsimp only
  have hd : d.keeps ((d.fault (ctl .pos h) cENC_LOSS m).put (ctl .pos h) POS.CAR_STAT_ENC_LOST 1 m) [ctl .pos h, shp .slt] := by
    rw [keeps_put_iff (f := POS.CAR_STAT_ENC_LOST) (by simp) (by decide) hm (by decide), keeps_fault_iff (by simp) (by simp)]
    exact keeps_refl d _
  split
  · split
    · exact keeps_trans hd (keeps_setPosState _ h hm 4)
    · exact hd
  · exact keeps_refl d _

/-- The code of the error stays, once it is that of the loss. -/
theorem encLossCar_code (hd : d.get (ctl .pos h) HDR.ERR_CODE = cENC_LOSS) : (encLossCar h e d m).get (ctl .pos h) HDR.ERR_CODE = cENC_LOSS := by
  unfold encLossCar
  dsimp only
  have hc : ((d.fault (ctl .pos h) cENC_LOSS m).put (ctl .pos h) POS.CAR_STAT_ENC_LOST 1 m).get (ctl .pos h) HDR.ERR_CODE = cENC_LOSS := by
    rw [get_put_apart (f := POS.CAR_STAT_ENC_LOST) _ _ (by decide) (by decide) (by decide) hm (by decide) (by decide) (by decide), fault_code _ _ _ _ (ctlPos_ne_slt h)]
    rfl
  split
  · split
    · rw [get_setPosState _ h hm 4 (ctlPos_ne_slt h) (by decide) (by decide) (by decide) (by decide) (by decide), hc]
    · exact hc
  · exact hd

include hn

/-- The other cars are as they were. -/
theorem lossView_encLossCar (hmn : m ≠ n) : lossView h n (encLossCar h e d m) = lossView h n d := by
  have hp := ctlPos_ne_slt h
  have hd : lossView h n ((d.fault (ctl .pos h) cENC_LOSS m).put (ctl .pos h) POS.CAR_STAT_ENC_LOST 1 m) = lossView h n d := by
    simp (disch := first | decide | assumption | (refine Nat.lt_of_lt_of_le hn ?_; decide) | (refine Nat.lt_of_lt_of_le hm ?_; decide))
      [lossView, carEn, on, posState, get_put_apart, get_put_idx, get_fault_apart]
  unfold encLossCar
  dsimp only
  split
  · split
    · refine Eq.trans ?_ hd
      simp only [lossView, posState_setPosState_ne _ h _ hn hmn]
      simp (disch := first | decide | assumption | (refine Nat.lt_of_lt_of_le hn ?_; decide)) [carEn, on, get_setPosState _ h hm]
    · exact hd
  · rfl

omit hm
/-- A car that uses the encoder. -/
theorem encLossCar_self (hen : d.carEn h n = true) (huse : d.on (ctl .pos h) POS.CAR_CFG_ENC_USE n = true) (he : d.get (ctl .pos h) POS.CAR_CFG_ENC n = e) :
    (encLossCar h e d n).on (ctl .pos h) POS.CAR_STAT_ENC_LOST n = true ∧ (encLossCar h e d n).get (ctl .pos h) HDR.ERR_CODE = cENC_LOSS ∧
      (d.posState h n = 3 → d.on (ctl .pos h) POS.CAR_STAT_ENC_LOST n = false → (encLossCar h e d n).posState h n = 4) := by
  have hp := ctlPos_ne_slt h
  have hlost : ((d.fault (ctl .pos h) cENC_LOSS n).put (ctl .pos h) POS.CAR_STAT_ENC_LOST 1 n).get (ctl .pos h) POS.CAR_STAT_ENC_LOST n = 1 :=
    get_put_same _ _ _ _ _ _ (by decide)
  have hc : ((d.fault (ctl .pos h) cENC_LOSS n).put (ctl .pos h) POS.CAR_STAT_ENC_LOST 1 n).get (ctl .pos h) HDR.ERR_CODE = cENC_LOSS := by
    rw [get_put_apart (f := POS.CAR_STAT_ENC_LOST) _ _ (by decide) (by decide) (by decide) hn (by decide) (by decide) (by decide), fault_code _ _ _ _ hp]
    rfl
  unfold encLossCar
  simp only [hen, huse, he, beq_self_eq_true, Bool.and_self, if_true]
  split
  · refine ⟨?_, ?_, fun _ _ => posState_setPosState _ h hn (by decide)⟩
    · simp (disch := first | decide | assumption | (refine Nat.lt_of_lt_of_le hn ?_; decide)) [on, get_setPosState _ h hn, hlost]
    · simp (disch := first | decide | assumption) [get_setPosState _ h hn, hc]
  · next hst =>
    refine ⟨by simp [on, hlost], hc, fun h3 hl => ?_⟩
    simp [h3, hl] at hst

end

theorem keeps_foldl {f : Dev → Nat → Dev} {ps : List Nat} : ∀ (l : List Nat) (d : Dev), (∀ d : Dev, ∀ m ∈ l, d.keeps (f d m) ps) → d.keeps (l.foldl f d) ps
  | [], d, _ => keeps_refl d ps
  | m :: l, d, hk => keeps_trans (hk d m List.mem_cons_self) (keeps_foldl l _ fun d x hx => hk d x (List.mem_cons_of_mem m hx))

theorem keeps_encLoss (d : Dev) (h : HalfId) (e : Nat) : d.keeps (d.encLoss h e) [ctl .pos h, shp .slt] :=
  keeps_foldl (f := encLossCar h e) _ d fun d _ hm => keeps_encLossCar d h e (List.mem_range.mp hm)

theorem half_encLoss_other (d : Dev) (h : HalfId) (e : Nat) : (d.encLoss h e).half h.other = d.half h.other := by
  refine foldl_off (f := encLossCar h e) (g := fun d => d.half h.other) _ d fun d m _ => ?_
  unfold encLossCar
  dsimp only
  split
  · split
    · rw [half_setPosState_other, half_put, half_fault]
    · rw [half_put, half_fault]
  · rfl

/-- What the loss of an encoder does to a car of one half that uses it. -/
theorem encLoss_self (d : Dev) (h : HalfId) (e : Nat) {n : Nat} (hn : n < 4) (hen : d.carEn h n = true)
    (huse : d.on (ctl .pos h) POS.CAR_CFG_ENC_USE n = true) (he : d.get (ctl .pos h) POS.CAR_CFG_ENC n = e) :
    (d.encLoss h e).on (ctl .pos h) POS.CAR_STAT_ENC_LOST n = true ∧ (d.encLoss h e).get (ctl .pos h) HDR.ERR_CODE = cENC_LOSS ∧
      (d.posState h n = 3 → d.on (ctl .pos h) POS.CAR_STAT_ENC_LOST n = false → (d.encLoss h e).posState h n = 4) := by
  obtain ⟨d', l', hg, hf, hl⟩ := foldl_at (f := encLossCar h e) (g := lossView h n) (a := n) (List.range 4) d
    (fun b x hx hxn => lossView_encLossCar b h e (List.mem_range.mp hx) hn hxn) (List.mem_range.mpr hn) List.nodup_range
  have hx (m) (hm : m ∈ l') : m < 4 := List.mem_range.mp (hl m hm).1
  have hview : lossView h n (d.encLoss h e) = lossView h n (encLossCar h e d' n) := by
    rw [encLoss_eq, hf]
    exact foldl_off l' _ fun b m hm => lossView_encLossCar b h e (hx m hm) hn (hl m hm).2
  simp only [lossView, Prod.mk.injEq] at hg hview
  obtain ⟨hen', huse', he', hlost', hst'⟩ := hg
  obtain ⟨-, -, -, hlost, hst⟩ := hview
  obtain ⟨h1, h2, h3⟩ := encLossCar_self d' h e hn (hen'.trans hen) (huse'.trans huse) (he'.trans he)
  refine ⟨hlost.trans h1, ?_, fun hd hl => hst.trans (h3 (hst'.trans hd) (hlost'.trans hl))⟩
  rw [encLoss_eq, hf]
  exact foldl_keep l' _ (P := fun d : Dev => d.get (ctl .pos h) HDR.ERR_CODE = cENC_LOSS) (fun b m hm => encLossCar_code b h e (hx m hm)) h2

/-- The same through the step of both halves. -/
theorem encLoss_both (d : Dev) (h : HalfId) (e : Nat) {n : Nat} (hn : n < 4) (hen : d.carEn h n = true)
    (huse : d.on (ctl .pos h) POS.CAR_CFG_ENC_USE n = true) (he : d.get (ctl .pos h) POS.CAR_CFG_ENC n = e) :
    (d.both fun d h => d.encLoss h e).on (ctl .pos h) POS.CAR_STAT_ENC_LOST n = true ∧
      (d.both fun d h => d.encLoss h e).get (ctl .pos h) HDR.ERR_CODE = cENC_LOSS ∧
      (d.posState h n = 3 → d.on (ctl .pos h) POS.CAR_STAT_ENC_LOST n = false → (d.both fun d h => d.encLoss h e).posState h n = 4) ∧
      d.keeps (d.both fun d h => d.encLoss h e) [ctl .pos .a, ctl .pos .b, shp .slt] := by
  obtain ⟨d₀, hk, -, hk', -, hall⟩ := both_local (f := fun d h => d.encLoss h e) (fun d h => keeps_encLoss d h e) (fun d h => half_encLoss_other d h e) d h
  have hp : ctl .pos h ∉ [ctl .pos h.other, shp .slt] := by cases h <;> decide
  have hget {f : Fld} (hf : f.fits = true) (hc : n < f.cnt) : d₀.get (ctl .pos h) f n = d.get (ctl .pos h) f n := get_of_keeps hk hf hc (by decide) hp
  have hget' {f : Fld} {i : Nat} (hf : f.fits = true) (hc : i < f.cnt) :
      (d.both fun d h => d.encLoss h e).get (ctl .pos h) f i = (d₀.encLoss h e).get (ctl .pos h) f i := get_of_keeps hk' hf hc (by decide) hp
  have hen₀ : d₀.carEn h n = true := by rw [carEn, on, hget (by decide) hn]; exact hen
  have huse₀ : d₀.on (ctl .pos h) POS.CAR_CFG_ENC_USE n = true := by rw [on, hget (by decide) hn]; exact huse
  obtain ⟨hlost, hcode, hstate⟩ := encLoss_self d₀ h e hn hen₀ huse₀ ((hget (by decide) hn).trans he)
  refine ⟨?_, (hget' (by decide) (by decide)).trans hcode, fun h3 hl => ?_, hall⟩
  · rw [on, hget' (by decide) hn]
    exact hlost
  · rw [posState, hget' (by decide) hn]
    refine hstate ((hget (by decide) hn).trans h3) ?_
    rw [on, hget (by decide) hn]
    exact hl

end Dev

section
variable {s : State} (hout : s.out = true) (h : HalfId) (n : Fin 4)
include hout

theorem slip_uncertain (hN : s.dev.get (ctl .pos h) POS.CAR_SLIP_N n ≠ 0) (hrun : (s.dev.posCar h n).slipRun ≥ s.dev.get (ctl .pos h) POS.CAR_SLIP_N n)
    (hst : s.dev.posState h n = 2 ∨ s.dev.posState h n = 3) :
    ∃ t, exec (.slip h n) s = .next t ∧ t.pending = s.pending ∧ t.dev.posState h n = 4 ∧ t.dev.get (ctl .pos h) HDR.ERR_CODE = cSLIP ∧
      s.dev.keeps t.dev [ctl .pos h, shp .slt] := by
  have hp := Dev.ctlPos_ne_slt h
  have hcheck : s.dev.slipCheck h n = (s.dev.fault (ctl .pos h) cSLIP n).setPosState h n 4 := by
    unfold Dev.slipCheck
    dsimp only
    rw [if_pos]
    · rfl
    · rcases hst with hst | hst <;> simp [hN, hrun, hst]
  refine ⟨_, next_of_out_eq hout rfl hcheck, rfl, Dev.posState_setPosState _ h n.isLt (by decide), ?_, ?_⟩
  · rw [State.dev_mk, Dev.get_setPosState _ h n.isLt 4 hp (by decide) (by decide) (by decide) (by decide) (by decide), Dev.fault_code _ _ _ _ hp]
    rfl
  · exact Dev.keeps_trans ((Dev.keeps_fault_iff (by simp) (by simp)).mpr (Dev.keeps_refl _ _)) (Dev.keeps_setPosState _ h n.isLt 4)

theorem coastExpired_uncertain (h3 : s.dev.posState h n = 3)
    (hbad : s.dev.get (ctl .pos h) POS.CAR_STAT_BAD n > s.dev.get (ctl .pos h) POS.CAR_CFG_COAST_MAX n) :
    ∃ t, exec (.coastExpired h n) s = .next t ∧ t.pending = s.pending ∧ t.dev.posState h n = 4 ∧ s.dev.keeps t.dev [ctl .pos h, shp .slt] := by
  have hcheck : s.dev.coastCheck h n = s.dev.setPosState h n 4 := by simp [Dev.coastCheck, h3, hbad]
  exact ⟨_, next_of_out_eq hout rfl hcheck, rfl, Dev.posState_setPosState _ h n.isLt (by decide), Dev.keeps_setPosState _ h n.isLt 4⟩

theorem posReval_init (h4 : s.dev.posState h n = 4) (hslow : s.dev.slow h n = true) :
    ∃ t, exec (.posReval h n) s = .next t ∧ t.pending = s.pending ∧ t.dev.posState h n = 1 ∧ s.dev.keeps t.dev [ctl .pos h, shp .slt] := by
  have hrev : s.dev.posReval h n = s.dev.setPosState h n 1 := by simp [Dev.posReval, h4, hslow]
  exact ⟨_, next_of_out_eq hout rfl hrev, rfl, Dev.posState_setPosState _ h n.isLt (by decide), Dev.keeps_setPosState _ h n.isLt 1⟩

theorem posReval_nothing (hno : s.dev.posState h n ≠ 4 ∨ s.dev.slow h n = false) : exec (.posReval h n) s = .next s := by
  have hrev : s.dev.posReval h n = s.dev := by
    rcases hno with hno | hno <;> simp [Dev.posReval, hno]
  exact next_of_out_eq hout rfl hrev

end

/-- Settles O18: each rule is a change of state of the car; the loss of an encoder goes over the cars of a half one by one. -/
theorem positionStatesChange : Obligations.PositionStatesChange := by
  unfold Obligations.PositionStatesChange
  exact fun s hout => ⟨slip_uncertain hout, coastExpired_uncertain hout,
    fun h n e hen huse he => ⟨_, next_of_out hout rfl, rfl, by simpa only [State.dev_mk] using Dev.encLoss_both s.dev h e n.isLt hen huse he⟩,
    fun h n => ⟨posReval_init hout h n, posReval_nothing hout h n⟩⟩

end Sys2Proof.Machine
end

section
/-! PROOFS. The debounced level of a digital input (O50).

The statement names the pages that a level may reach; an entry of the switch table may name a car so far out of range that the stop of its generator is
written on another page. -/
namespace Sys2Proof.Machine

open Sys2Proof

/-- Digital inputs at work; entry 0 of the switch table of Half A, a limit switch on DIN 0, names a car 100, which is enabled and moves. -/
def farCar : Dev :=
  let q := ctl .pos .a
  let d := ((awake.put (shp .din) HDR.CTRL_EN 1).put (pgMpg .a 100) HDR.CTRL_EN 1).put (pgMpg .a 100) MPG.STATE_MODE 2
  let d := ((d.put q POS.SW_KIND 2).put q POS.SW_POL 1).put q POS.CAR_CFG_EN 1 100
  { d with regs := rfSet (fkey q POS.SW_CAR 0 0) 0 100 d.regs }

set_option maxRecDepth 100000 in
/-- The entry stops that generator. -/
theorem mode_farCar : rfFind (fkey (pgMpg .a 100) MPG.STATE_MODE 0 0) (farCar.dinChange 0 true).regs = some 5 := by decide

set_option maxRecDepth 100000 in
/-- Refutes O50: in `farCar` a debounced level changes a register of a page that the statement does not name. -/
theorem not_digitalFieldIo : ¬ Obligations.DigitalFieldIo := by
  unfold Obligations.DigitalFieldIo
  intro h
  obtain ⟨hdeb, -⟩ := h ⟨farCar, []⟩
  obtain ⟨t, hexec, -, -, hkeeps, -⟩ := hdeb 0 true
  have hstep : exec (.dinDebouncedChange 0 true) ⟨farCar, []⟩ = .next ⟨farCar.dinChange 0 true, []⟩ := rfl
  rw [hstep] at hexec
  obtain ⟨-, hregs⟩ := hkeeps
  have hfind := hregs (fkey (pgMpg .a 100) MPG.STATE_MODE 0 0) (by decide)
  rw [← Host.Outcome.next.inj hexec, State.dev_mk, mode_farCar] at hfind
  exact absurd hfind (by decide)

end Sys2Proof.Machine
end

section
/-! PROOFS. The supply inputs (O57).

A flag is read as 1 by a comparison with 1, and the statement bounds the values that a state's registers hold by nothing: an over-voltage flag of value 2
does not stand, and is not 0 either. -/
namespace Sys2Proof.Machine

open Sys2Proof

/-- Input A not IN_OK, with the value 2 in its over-voltage flag. -/
def oddFlag : Dev := { Dev.init with regs := rfSet (fkey (shp .pwr) PWR.IN_A_OV 0 0) 0 2 Dev.init.regs }

/-- The input that rises to 31.5 V leaves that value. -/
theorem get_ov_oddFlag : (oddFlag.inputRise .a 31500).get (shp .pwr) PWR.IN_A_OV = 2 := by decide

/-- Refutes O57: in `oddFlag` the input is shown IN_OK with a flag that is not 0. -/
theorem not_powerResetAndBoot : ¬ Obligations.PowerResetAndBoot := by
  unfold Obligations.PowerResetAndBoot
  intro h
  obtain ⟨hin, -⟩ := h ⟨oddFlag, []⟩
  obtain ⟨⟨t, hexec, -, -, -, hwin⟩, -⟩ := hin .a 31500
  have hstep : exec (.inputOk .a 31500) ⟨oddFlag, []⟩ = .next ⟨oddFlag.inputRise .a 31500, []⟩ := rfl
  rw [hstep] at hexec
  rw [if_pos (by decide), ← Host.Outcome.next.inj hexec] at hwin
  exact absurd (get_ov_oddFlag.symm.trans (hwin.2 (by decide))) (by decide)

end Sys2Proof.Machine
end

section
/-! PROOFS. Reading a memory after a write or a clearing of a whole region, and the regions that the cycle executive fills. -/
namespace Sys2Proof.Machine

open Sys2Proof

theorem memRead_memWrites (m : List Host.Cell) (a b : Nat) (vs : List Byte) :
    memRead (memWrites m a vs) b = if a ≤ b ∧ b < a + vs.length then vs.getD (b - a) 0 else memRead m b := by
  induction vs generalizing m a with
  | nil => rw [if_neg (by simp only [List.length_nil]; omega)]; rfl
  | cons v vs ih =>
    rw [memWrites, ih, memRead_memWrite]
    simp only [List.length_cons]
    rcases Nat.lt_trichotomy b a with h | rfl | h
    · rw [if_neg (by omega), if_neg (by omega), if_neg (by omega)]
    · rw [if_neg (by omega), if_pos rfl, if_pos (by omega), Nat.sub_self]
      rfl
    · obtain ⟨k, rfl⟩ : ∃ k, b = a + 1 + k := ⟨b - (a + 1), by omega⟩
      rw [show a + 1 + k - a = k + 1 by omega, show a + 1 + k - (a + 1) = k by omega]
      by_cases hk : k < vs.length
      · rw [if_pos (by omega), if_pos (by omega), List.getD_cons_succ]
      · rw [if_neg (by omega), if_neg (by omega), if_neg (by omega)]

theorem memRead_memClear (m : List Host.Cell) (a n b : Nat) : memRead (memClear m a n) b = if a ≤ b ∧ b < a + n then 0 else memRead m b := by
  unfold memClear
  induction m with
  | nil => simp [memRead, memDflt]
  | cons c r ih =>
    obtain ⟨x, w⟩ := c
    by_cases hx : a ≤ x ∧ x < a + n
    · simp only [List.filter_cons, hx, and_self, decide_true, Bool.not_true, Bool.false_eq_true, if_false, ih, memRead]
      by_cases hb : x = b
      · rw [if_pos (hb ▸ hx), if_pos (hb ▸ hx)]
      · rw [if_neg hb]
    · simp only [List.filter_cons, hx, decide_false, Bool.not_false, if_true, ih, memRead]
      by_cases hb : x = b
      · rw [if_pos hb, if_neg (hb ▸ hx), if_pos hb]
      · rw [if_neg hb, if_neg hb]

theorem length_memReads (m : List Host.Cell) (a n : Nat) : (memReads m a n).length = n := by
  induction n generalizing a with
  | zero => rfl
  | succ n ih => rw [memReads, List.length_cons, ih]

theorem getD_memReads (m : List Host.Cell) {a n j : Nat} (x : Byte) (hj : j < n) : (memReads m a n).getD j x = memRead m (a + j) := by
  induction n generalizing a j with
  | zero => omega
  | succ n ih =>
    cases j with
    | zero => rfl
    | succ j => rw [memReads, List.getD_cons_succ, ih (by omega), show a + 1 + j = a + (j + 1) by omega]

/-- A region cleared and filled from its start, as the executive fills a code bank or a retained area. -/
def refill (m : List Host.Cell) (a n : Nat) (bs : List Nat) : List Host.Cell := memPutBytes (memClear m a n) a (bs.take n)

theorem memRead_refill_outside (m : List Host.Cell) {a n b : Nat} (bs : List Nat) (h : b < a ∨ a + n ≤ b) : memRead (refill m a n bs) b = memRead m b := by
  have hlen : ((bs.take n).map (BitVec.ofNat 8)).length ≤ n := by simp
  rw [refill, memPutBytes, memRead_memWrites, if_neg (by omega), memRead_memClear, if_neg (by omega)]

theorem memRead_refill (m : List Host.Cell) (a : Nat) {n j : Nat} (bs : List Nat) (hj : j < n) :
    memRead (refill m a n bs) (a + j) = BitVec.ofNat 8 (bs.getD j 0) := by
  rw [refill, memPutBytes, memRead_memWrites, memRead_memClear, Nat.add_sub_cancel_left, List.length_map, List.length_take]
  by_cases hb : j < bs.length
  · rw [if_pos (by omega)]
    simp [List.getD_eq_getElem?_getD, hj, hb]
  · rw [if_neg (by omega), if_pos (by omega)]
    simp [List.getD_eq_getElem?_getD, hb]

/-- A region filled with the bytes of another one. -/
theorem memRead_refill_memBytes (m m' : List Host.Cell) (a b : Nat) {n j : Nat} (hj : j < n) :
    memRead (refill m a n (memBytes m' b n)) (a + j) = memRead m' (b + j) := by
  rw [memRead_refill m a _ hj, memBytes, List.getD_eq_getElem?_getD, List.getElem?_map, ← getD_memReads m' 0 hj, List.getD_eq_getElem?_getD]
  have hlen := length_memReads m' b n
  rw [List.getElem?_eq_getElem (by omega)]
  simp

namespace Dev

@[simp] theorem half_modHlf (d : Dev) (h q : HalfId) (g : Hlf → Hlf) : (d.modHlf h g).half q = d.half q := by cases h <;> cases q <;> rfl
@[simp] theorem mram_modHlf (d : Dev) (h : HalfId) (g : Hlf → Hlf) : (d.modHlf h g).mram = d.mram := by cases h <;> rfl
@[simp] theorem regs_modHlf (d : Dev) (h : HalfId) (g : Hlf → Hlf) : (d.modHlf h g).regs = d.regs := by cases h <;> rfl

theorem half_fillSram (d : Dev) (h : HalfId) (a n : Nat) (bs : List Nat) :
    (d.fillSram h a n bs).half h = { d.half h with sram := refill (d.half h).sram a n bs } := by simp [fillSram, heal, setSram, refill]

@[simp] theorem half_fillSram_other (d : Dev) (h : HalfId) (a n : Nat) (bs : List Nat) : (d.fillSram h a n bs).half h.other = d.half h.other := by
  simp [fillSram, heal, setSram]

@[simp] theorem mram_fillSram (d : Dev) (h : HalfId) (a n : Nat) (bs : List Nat) : (d.fillSram h a n bs).mram = d.mram := by simp [fillSram, heal, setSram]
@[simp] theorem regs_fillSram (d : Dev) (h : HalfId) (a n : Nat) (bs : List Nat) : (d.fillSram h a n bs).regs = d.regs := by simp [fillSram, heal, setSram]

end Dev

end Sys2Proof.Machine
end

section
/-! PROOFS. Half control: what a transition of a half shows, and what it leaves as it was. -/
namespace Sys2Proof.Machine

open Sys2Proof

namespace Dev

/-! ### What half control keeps beside the registers -/

@[simp] theorem hlf_put (d : Dev) (p : Nat) (f : Fld) (v i t : Nat) (h : HalfId) : (d.put p f v i t).hlf h = d.hlf h := by cases h <;> rfl
@[simp] theorem hlf_post (d : Dev) (r : Rec) (h : HalfId) : (d.post r).hlf h = d.hlf h := by cases h <;> simp [hlf]
@[simp] theorem hlf_note (d : Dev) (p cls code x : Nat) (ws : List Nat) (h : HalfId) : (d.note p cls code x ws).hlf h = d.hlf h := hlf_post ..
@[simp] theorem hlf_stat (d : Dev) (p k : Nat) (h : HalfId) : (d.stat p k).hlf h = d.hlf h := hlf_put ..
@[simp] theorem hlf_err (d : Dev) (p c x : Nat) (h : HalfId) : (d.err p c x).hlf h = d.hlf h := by simp [err, bump]
@[simp] theorem hlf_fault (d : Dev) (p c x : Nat) (ws : List Nat) (h : HalfId) : (d.fault p c x ws).hlf h = d.hlf h := by simp [fault]
@[simp] theorem memories_modHlf (d : Dev) (h : HalfId) (g : Hlf → Hlf) : (d.modHlf h g).memories = d.memories := by cases h <;> rfl
theorem memories_modHalf (d : Dev) (h : HalfId) {g : Half → Half} (hg : ∀ x, (g x).sram = x.sram) : (d.modHalf h g).memories = d.memories :=
  ((keeps_modHalf_iff (ps := []) hg).mpr (keeps_refl d [])).1
@[simp] theorem hlf_setHalf (d : Dev) (q : HalfId) (x : Half) (h : HalfId) : (d.setHalf q x).hlf h = d.hlf h := by cases h <;> simp [hlf]
@[simp] theorem hlf_modHalf (d : Dev) (q : HalfId) (g : Half → Half) (h : HalfId) : (d.modHalf q g).hlf h = d.hlf h := hlf_setHalf ..
@[simp] theorem hlf_modHlf_same (d : Dev) (h : HalfId) (g : Hlf → Hlf) : (d.modHlf h g).hlf h = g (d.hlf h) := by cases h <;> rfl
@[simp] theorem hlf_modHlf_other (d : Dev) (h : HalfId) (g : Hlf → Hlf) : (d.modHlf h g).hlf h.other = d.hlf h.other := by cases h <;> rfl
@[simp] theorem hlf_modHlf_mine (d : Dev) (h : HalfId) (g : Hlf → Hlf) : (d.modHlf h.other g).hlf h = d.hlf h := by cases h <;> rfl

/-! ### Reading through the helpers that write ERR, STAT and a record -/

section
variable (d : Dev) {p q : Nat} {f : Fld} {i t : Nat}

/-- The fields of a page's header that an error shows. -/
def errFields : List Fld := [HDR.ERR_COUNT, HDR.ERR_CODE, HDR.ERR_DETAIL]

theorem get_err_apart (c x : Nat) (h : ∀ g ∈ errFields, g.apart f = true) (hf : f.fits = true) (hi : i < f.cnt) (ht : t < 65536) :
    (d.err p c x).get q f i t = d.get q f i t := by
  have hput (d : Dev) {g : Fld} (v : Nat) (hg : g ∈ errFields) (hgf : g.fits = true) (hc : 0 < g.cnt) : (d.put p g v).get q f i t = d.get q f i t :=
    get_put_field d v (h g hg) hgf hf hc hi (by decide) ht
  rw [err, hput _ _ (by simp [errFields]) (by decide) (by decide), hput _ _ (by simp [errFields]) (by decide) (by decide), bump,
    hput _ _ (by simp [errFields]) (by decide) (by decide)]

theorem get_err_other (c x : Nat) (h : p ≠ q) (hf : f.fits = true) (hi : i < f.cnt) (ht : t < 65536) : (d.err p c x).get q f i t = d.get q f i t := by
  have hput (d : Dev) {g : Fld} (v : Nat) (hgf : g.fits = true) (hc : 0 < g.cnt) : (d.put p g v).get q f i t = d.get q f i t :=
    get_put_other d v h hgf hf hc hi (by decide) ht
  rw [err, hput _ _ (by decide) (by decide), hput _ _ (by decide) (by decide), bump, hput _ _ (by decide) (by decide)]

theorem get_stat_apart (k : Nat) (h : HDR.STAT_BLOCK.apart f = true) (hf : f.fits = true) (hi : i < f.cnt) (ht : t < 65536) :
    (d.stat p k).get q f i t = d.get q f i t := get_put_field d _ h (by decide) hf (by decide) hi (by decide) ht

theorem get_note_apart (cls code x : Nat) (ws : List Nat) (h : ∀ x ∈ postFields, x.apart f = true) (hf : f.fits = true) (hi : i < f.cnt) (ht : t < 65536) :
    (d.note p cls code x ws).get q f i t = d.get q f i t := get_post_apart d _ h hf hi ht

theorem get_note_other (cls code x : Nat) (ws : List Nat) (h : q ≠ shp .slt) (hf : f.fits = true) (hi : i < f.cnt) (ht : t < 65536) :
    (d.note p cls code x ws).get q f i t = d.get q f i t := get_post_other d _ h hf hi ht

theorem keeps_note_iff {d e : Dev} {ps : List Nat} {cls code x : Nat} {ws : List Nat} (h : shp .slt ∈ ps) : d.keeps (e.note p cls code x ws) ps ↔ d.keeps e ps :=
  keeps_post_iff h

end

/-! ### A transition of a half -/

section
variable (d : Dev) (h : HalfId) (st cause : Nat)

theorem keeps_hlfTo : d.keeps (d.hlfTo h st cause) [ctl .hlf .a, ctl .hlf .b, ctl .cyx h, shp .slt] := by
  cases h <;> simp (disch := decide) [hlfTo, putb, keeps_note_iff, keeps_put_iff, keeps_stat_iff]

theorem hlfState_hlfTo : (d.hlfTo h st cause).hlfState h = st % 8 := by
  cases h <;> simp (disch := decide) [hlfState, hlfTo, putb, get_note_apart, get_stat_apart, get_put_field, get_put_same, HLF.STATE_OWN]

theorem hlfState_hlfTo_other : (d.hlfTo h st cause).hlfState h.other = d.hlfState h.other := by
  cases h <;> simp (disch := decide) [hlfState, hlfTo, putb, get_note_apart, get_stat_apart, get_put_field, get_put_other]

theorem cause_hlfTo : (d.hlfTo h st cause).get (ctl .hlf h) HLF.STATE_CAUSE = cause % 16 := by
  cases h <;> simp (disch := decide) [hlfTo, putb, get_note_apart, get_stat_apart, get_put_field, get_put_same, HLF.STATE_CAUSE]

@[simp] theorem half_hlfTo (q : HalfId) : (d.hlfTo h st cause).half q = d.half q := by simp [hlfTo, putb]

@[simp] theorem hlf_hlfTo : (d.hlfTo h st cause).hlf h = { d.hlf h with quiet := none } := by simp [hlfTo, putb]

@[simp] theorem hlf_hlfTo_other : (d.hlfTo h st cause).hlf h.other = d.hlf h.other := by simp [hlfTo, putb]

/-- The registers that a transition may change. -/
def hlfToFields : List Fld :=
  [HLF.STATE_OWN, HLF.STATE_CAUSE, HLF.STATE_PEER_QUIET, HLF.STATE_PEER, HLF.STATE_PEER_CAUSE, CYX.STATE_FOLLOW, HDR.STAT_BLOCK]

theorem get_hlfTo {q : Nat} {f : Fld} {i t : Nat} (hq : ∀ g ∈ hlfToFields ++ postFields, g.apart f = true) (hf : f.fits = true) (hi : i < f.cnt)
    (ht : t < 65536) : (d.hlfTo h st cause).get q f i t = d.get q f i t := by
  have hput (d : Dev) (p : Nat) {g : Fld} (v : Nat) (hg : g ∈ hlfToFields) (hgf : g.fits = true) (hc : 0 < g.cnt) : (d.put p g v).get q f i t = d.get q f i t :=
    get_put_field d v (hq g (List.mem_append_left _ hg)) hgf hf hc hi (by decide) ht
  have hpost : ∀ g ∈ postFields, g.apart f = true := fun g hg => hq g (List.mem_append_right _ hg)
  simp (disch := first | decide | assumption) only [hlfTo, putb, stat, orBits, get_note_apart, get_modHlf, hput]

theorem keeps_goStale : d.keeps (d.goStale h cause) [ctl .hlf .a, ctl .hlf .b, ctl .cyx h, shp .slt] := by
  unfold goStale
  split
  · rw [keeps_modHlf_iff]
    exact keeps_hlfTo d h 2 cause
  · exact keeps_refl d _

@[simp] theorem half_goStale (q : HalfId) : (d.goStale h cause).half q = d.half q := by
  unfold goStale
  split <;> simp

theorem hlfState_goStale : (d.goStale h cause).hlfState h = if d.hlfState h = 1 then 2 else d.hlfState h := by
  unfold goStale
  split
  · rw [hlfState, get_modHlf]
    exact hlfState_hlfTo d h 2 cause
  · rfl

theorem hlfState_goStale_other : (d.goStale h cause).hlfState h.other = d.hlfState h.other := by
  unfold goStale
  split
  · rw [hlfState, get_modHlf]
    exact hlfState_hlfTo_other d h 2 cause
  · rfl

theorem cause_goStale (hst : d.hlfState h = 1) : (d.goStale h cause).get (ctl .hlf h) HLF.STATE_CAUSE = cause % 16 := by
  rw [goStale, if_pos hst, get_modHlf, cause_hlfTo]

theorem get_goStale {q : Nat} {f : Fld} {i t : Nat} (hq : ∀ g ∈ hlfToFields ++ postFields, g.apart f = true) (hf : f.fits = true) (hi : i < f.cnt)
    (ht : t < 65536) : (d.goStale h cause).get q f i t = d.get q f i t := by
  unfold goStale
  split
  · rw [get_modHlf, get_hlfTo d h 2 cause hq hf hi ht]
  · rfl

theorem servoBuf_goStale : ((d.goStale h cause).hlf h).servoBuf = (d.hlf h).servoBuf := by
  unfold goStale
  split <;> simp

end

/-- What a frame says of the memories. -/
theorem mram_of_memories {d e : Dev} (h : e.memories = d.memories) : e.mram = d.mram := (List.cons.inj h).1

theorem mram_of_keeps {d e : Dev} {ps : List Nat} (hk : d.keeps e ps) : e.mram = d.mram := mram_of_memories hk.1

end Dev

end Sys2Proof.Machine
end

section
/-! PROOFS. The standby: the states it takes from the active half, and what makes it leave and regain STANDBY_SYNC. -/
namespace Sys2Proof.Machine

open Sys2Proof

namespace Dev

/-! ### What the standby's bookkeeping leaves as it was -/

section
variable (d : Dev) (h q : HalfId)

@[simp] theorem half_disagreeItem (i : Nat) : (d.disagreeItem h i).half q = d.half q := by simp [disagreeItem, bump]

@[simp] theorem hlf_disagreeItem (i : Nat) : (d.disagreeItem h i).hlf q = d.hlf q := by simp [disagreeItem, bump]

@[simp] theorem half_disJudge : (d.disJudge h).half q = d.half q := by
  unfold disJudge
  dsimp only
  split <;> simp

theorem servoBuf_disJudge : ((d.disJudge h).hlf h).servoBuf = (d.hlf h).servoBuf := by
  unfold disJudge
  dsimp only
  split
  · exact servoBuf_goStale d h 7
  · rfl

@[simp] theorem half_showLag : (d.showLag h).half q = d.half q := by
  unfold showLag
  dsimp only
  split <;> simp

@[simp] theorem half_lagJudge : (d.lagJudge h).half q = d.half q := by
  unfold lagJudge
  dsimp only
  split <;> simp

@[simp] theorem half_cycCompare : (d.cycCompare h).half q = d.half q := by
  unfold cycCompare
  dsimp only
  split
  · rfl
  · split
    · rfl
    · split <;> simp

@[simp] theorem half_showBacklog : (d.showBacklog h).half q = d.half q := half_put ..

end

/-! ### The copy of a cycle's state -/

/-- The memory of a half once the state at the front of the queue lies in its receive buffer. -/
def landed (m : List Host.Cell) : List CycState → List Host.Cell
  | n :: _ => refill m (n.shadowAt + n.area.2) n.area.2 n.ret
  | [] => m

/-- The memory of a half after its standby has taken a cycle's state: the copy is refilled from the receive buffer, and the next state lands behind it. -/
def copiedSram (m : List Host.Cell) (c : CycState) (rest : List CycState) : List Host.Cell :=
  landed (refill m c.shadowAt c.area.2 (memBytes m (c.shadowAt + c.area.2) c.area.2)) rest

theorem memRead_copiedSram_outside (m : List Host.Cell) (c : CycState) (rest : List CycState) {x : Nat} (hx : x < c.shadowAt ∨ c.shadowAt + c.area.2 ≤ x)
    (hnext : ∀ n, (rest.head?).map (fun n => (n.shadowAt + n.area.2, n.area.2)) = some n → x < n.1 ∨ n.1 + n.2 ≤ x) :
    memRead (copiedSram m c rest) x = memRead m x := by
  unfold copiedSram
  cases rest with
  | nil => exact memRead_refill_outside m _ hx
  | cons n rest => exact (memRead_refill_outside _ _ (hnext _ rfl)).trans (memRead_refill_outside m _ hx)

section
variable (d : Dev) (h : HalfId) {c : CycState} {rest : List CycState}

@[simp] theorem half_rxLand_other : (d.rxLand h).half h.other = d.half h.other := by
  unfold rxLand
  split
  · exact half_fillSram_other ..
  · rfl

@[simp] theorem mram_rxLand : (d.rxLand h).mram = d.mram := by
  unfold rxLand
  split
  · exact mram_fillSram ..
  · rfl

theorem half_rxLand : (d.rxLand h).half h = { d.half h with sram := landed (d.half h).sram (d.cyx h).rxq } := by
  unfold rxLand
  split
  case h_1 hq => rw [half_fillSram, hq]; rfl
  case h_2 hq => rw [hq]; rfl

@[simp] theorem mram_showLag : (d.showLag h).mram = d.mram := by
  unfold showLag
  dsimp only
  split <;> rfl

variable (ha : d.active h = false) (hr : d.running h = true) (hq : (d.cyx h).rxq = c :: rest)
include ha hr hq

theorem half_shadowCopy : (d.shadowCopy h).half h = { d.half h with
    sram := copiedSram (d.half h).sram c rest, cyx := { d.cyx h with shadow := some { c with ret := [] }, rxq := rest } } := by
  simp only [shadowCopy, hq, ha, hr, Bool.not_true, Bool.or_self, Bool.false_eq_true, if_false]
  simp only [half_showLag, half_showBacklog, half_rxLand, cyx, modCyx,
    half_modHalf_same, half_fillSram]
  cases h <;> rfl

theorem half_shadowCopy_other : (d.shadowCopy h).half h.other = d.half h.other := by
  simp only [shadowCopy, hq, ha, hr, Bool.not_true, Bool.or_self, Bool.false_eq_true, if_false]
  simp only [half_showLag, half_showBacklog, half_rxLand_other, modCyx,
    half_modHalf_other, half_fillSram_other]
  cases h <;> rfl

theorem mram_shadowCopy : (d.shadowCopy h).mram = d.mram := by
  simp only [shadowCopy, hq, ha, hr, Bool.not_true, Bool.or_self, Bool.false_eq_true, if_false, mram_showLag, showBacklog, put, mram_rxLand, modCyx,
    modHalf_mram, mram_fillSram]

end

theorem shadowCyc_showLag (d : Dev) (h : HalfId) {c : CycState} (hc : (d.cyx h).shadow = some c) :
    (d.showLag h).get (ctl .cyx h) CYX.SHADOW_CYC = c.cyc % 2 ^ CYX.SHADOW_CYC.w := by
  simp (disch := decide) only [showLag, hc, get_put_apart, get_put_same]

theorem shadowCyc_lagJudge (d : Dev) (h : HalfId) {c : CycState} (hc : (d.cyx h).shadow = some c) :
    (d.lagJudge h).get (ctl .cyx h) CYX.SHADOW_CYC = c.cyc % 2 ^ CYX.SHADOW_CYC.w := by
  unfold lagJudge
  dsimp only
  split
  · rw [get_goStale _ _ _ (by decide) (by decide) (by decide) (by decide), shadowCyc_showLag d h hc]
  · exact shadowCyc_showLag d h hc

@[simp] theorem mram_cycCompare (d : Dev) (h : HalfId) : (d.cycCompare h).mram = d.mram := mram_of_memories (memories_of_frame (frame_cycCompare d h))

@[simp] theorem mram_lagJudge (d : Dev) (h : HalfId) : (d.lagJudge h).mram = d.mram := mram_of_memories (memories_of_frame (frame_lagJudge d h))

/-! ### The servo state -/

@[simp] theorem half_modCopy (d : Dev) (h : HalfId) (n : Nat) (g : PosCopy → PosCopy) (q : HalfId) : (d.modCopy h n g).half q = d.half q := by
  cases q <;> rfl

/-- What a servo state gives the half that takes it. -/
theorem half_takeServo (d : Dev) (h : HalfId) (b : ServoState) :
    ((d.takeServo h b).half h).mpg = b.mpg ∧ ((d.takeServo h b).half h).dax = b.dax ∧ ((d.takeServo h b).half h).servoCnt = b.cnt := by
  unfold takeServo
  dsimp only
  rw [foldl_off (g := fun d : Dev => d.half h) _ _ fun d n _ => ?_, half_modHalf_same]
  · exact ⟨rfl, rfl, rfl⟩
  · split <;> simp

theorem memories_takeServo (d : Dev) (h : HalfId) (b : ServoState) : (d.takeServo h b).memories = d.memories := by
  unfold takeServo
  dsimp only
  rw [foldl_off (g := memories) _ _ fun d n _ => by split <;> rfl]
  rw [memories_modHalf]
  · exact foldl_off (g := memories) _ _ fun d q _ => rfl
  · exact fun _ => rfl

/-- The marks that a servo state leaves with the half that takes it. -/
def servoTaken (d : Dev) (h : HalfId) : Dev := d.modHlf h (fun x => { x with servoBuf := none, missRun := 0, okRun := min 3 (x.okRun + 1), disRun := 0 })

theorem hlf_takeServo (d : Dev) (h : HalfId) (b : ServoState) : (d.takeServo h b).hlf h = d.hlf h := by
  unfold takeServo
  dsimp only
  rw [foldl_off (g := fun d : Dev => d.hlf h) _ _ fun d n _ => ?_, hlf_modHalf, foldl_off (g := fun d : Dev => d.hlf h) _ _ fun d n _ => ?_]
  · cases h <;> rfl
  · split <;> cases h <;> rfl

/-! ### The cycle marker -/

section
variable (d : Dev) (h : HalfId)

theorem get_showLag {q : Nat} {f : Fld} {i t : Nat} (h1 : CYX.SHADOW_CYC.apart f = true) (h2 : CYX.SHADOW_LAG.apart f = true) (hf : f.fits = true)
    (hi : i < f.cnt) (ht : t < 65536) : (d.showLag h).get q f i t = d.get q f i t := by
  unfold showLag
  dsimp only
  split <;> simp (disch := first | decide | assumption) only [get_put_field]

/-- The judgement of the lag ends STANDBY_SYNC, or leaves the state of the half. -/
theorem hlfState_lagJudge : (d.lagJudge h).hlfState h = d.hlfState h ∨ (d.hlfState h = 1 ∧ (d.lagJudge h).hlfState h = 2) := by
  have hs : (d.showLag h).hlfState h = d.hlfState h := get_showLag d h (by decide) (by decide) (by decide) (by decide) (by decide)
  unfold lagJudge
  dsimp only
  split
  · rw [hlfState_goStale, hs]
    split <;> simp_all
  · exact .inl hs

theorem active_lagJudge (ha : d.active h = false) : (d.lagJudge h).active h = false := by
  have hne : d.hlfState h ≠ 0 := beq_eq_false_iff_ne.mp ha
  refine beq_eq_false_iff_ne.mpr ?_
  rcases hlfState_lagJudge d h with hst | ⟨-, hst⟩
  · exact fun e => hne (hst.symm.trans e)
  · exact fun e => absurd (hst.symm.trans e) (by decide)

theorem running_lagJudge (hr : d.running h = true) : (d.lagJudge h).running h = true := by
  have hle : d.hlfState h ≤ 2 := of_decide_eq_true hr
  refine decide_eq_true ?_
  rcases hlfState_lagJudge d h with hst | ⟨-, hst⟩
  · exact le_of_eq_of_le hst hle
  · exact le_of_eq hst

/-- The state code of the executive is not one of half control's registers. -/
theorem code_goStale (cause : Nat) : (d.goStale h cause).get (ctl .cyx h) CYX.STATE_CODE = d.get (ctl .cyx h) CYX.STATE_CODE := by
  unfold goStale
  split
  · cases h <;> simp (disch := decide) [hlfTo, putb, get_note_apart, get_stat_apart, get_put_other, get_put_apart]
  · rfl

theorem code_lagJudge : (d.lagJudge h).get (ctl .cyx h) CYX.STATE_CODE = d.get (ctl .cyx h) CYX.STATE_CODE := by
  unfold lagJudge
  dsimp only
  split
  · rw [code_goStale, get_showLag _ _ (by decide) (by decide) (by decide) (by decide) (by decide)]
  · rw [get_showLag _ _ (by decide) (by decide) (by decide) (by decide) (by decide)]

/-- What the snapshot of a half leaves on the page of the executive. -/
theorem get_noteStations {f : Fld} (hf : f.fits = true) (hc : 0 < f.cnt) (h1 : CYX.STN_DOWN_BITS.apart f = true) (h2 : CYX.STN_EVT_BITS.apart f = true)
    (h3 : CYX.ERRT_CAUSE.apart f = true) (q : Nat) : (d.noteStations h).get q f = d.get q f := by
  unfold noteStations
  refine foldl_off (g := fun d : Dev => d.get q f) _ _ fun d i hi => ?_
  have hdown : i < CYX.STN_DOWN_BITS.cnt := List.mem_range.mp hi
  have hevt : i < CYX.STN_EVT_BITS.cnt := hdown
  dsimp only
  split
  · rfl
  · simp (disch := first | decide | assumption) only [orBits, get_modCyx, get_put_field]

theorem get_copyInputs (q : Nat) (f : Fld) (i t : Nat) : (d.copyInputs h).get q f i t = d.get q f i t := by
  simp [copyInputs, heal, setSram]

theorem get_forceAll (q : Nat) (f : Fld) (i t : Nat) : (d.forceAll h).get q f i t = d.get q f i t := by
  simp [forceAll, heal, setSram]

theorem get_snapshotHalf {f : Fld} (dt ns : Nat) (hf : f.fits = true) (hc : 0 < f.cnt) (h1 : CYX.STN_DOWN_BITS.apart f = true)
    (h2 : CYX.STN_EVT_BITS.apart f = true) (h3 : CYX.ERRT_CAUSE.apart f = true) (h4 : TMC.QFS_HIT_COUNT.apart f = true) (h5 : CYX.PHASE_SNAP_NS.apart f = true)
    (h6 : CYX.ERRT_SKIPPED.apart f = true) (q : Nat) : (d.snapshotHalf h dt ns).get q f = d.get q f := by
  unfold snapshotHalf
  dsimp only
  rw [get_modCyx]
  split <;> simp (disch := first | decide | assumption) only [get_put_field, get_modCyx, setSram, heal, get_modHlf, get_modHalf, get_forceAll,
    get_noteStations, get_copyInputs]

theorem phase_snapshotHalf (dt ns : Nat) : ((d.snapshotHalf h dt ns).cyx h).phase = 1 ∨ ((d.snapshotHalf h dt ns).cyx h).phase = 2 := by
  unfold snapshotHalf
  dsimp only
  rw [cyx, modCyx, half_modHalf_same]
  dsimp only
  split
  · exact .inl rfl
  · exact .inr rfl

end

/-- A servo state that did not come, before what it means for the state of the half. -/
def missed (d : Dev) (h : HalfId) : Dev :=
  (bump d (ctl .mir h) MIR.SMISS_COUNT).modHlf h (fun x => { x with servoBuf := none, okRun := 0, missRun := x.missRun + 1 })

theorem memories_missed (d : Dev) (h : HalfId) : (d.missed h).memories = d.memories := by
  rw [missed, memories_modHlf, memories_of_frame (frame_bump ..)]

theorem hlfState_missed (d : Dev) (h : HalfId) : (d.missed h).hlfState h = d.hlfState h := by
  simp (disch := decide) only [hlfState, missed, get_modHlf, bump, get_put_field]

theorem servoMiss_eq (d : Dev) (h : HalfId) (hst : d.hlfState h = 1) (hup : d.mirUp = true) :
    d.servoMiss h = if (d.hlf h).missRun ≥ 2 then (d.missed h).goStale h 6 else d.missed h := by
  simp [servoMiss, missed, hst, hup, bump]

/-- The marker of a half that is in its cycle: it waits. -/
theorem markerStep_late (d : Dev) (h : HalfId) (dt ns : Nat) (ha : d.active h = false) (hr : d.running h = true) (hw : (d.cyx h).waiting = 1)
    (hph : (d.cyx h).phase ≠ 0) : d.markerStep h dt ns =
      (((d.lagJudge h).put (ctl .cyx h) CYX.STATE_LAG 1).stat (ctl .cyx h) 5).modCyx h (fun x => { x with late := some (dt, ns) }) := by
  have hx : (d.lagJudge h).cyx h = d.cyx h := by simp [cyx]
  simp [markerStep, cycleMarker, ha, hr, hx, hw, hph, active_lagJudge, running_lagJudge]

/-- The marker of a half whose cycle is over: its cycle begins. -/
theorem markerStep_begins (d : Dev) (h : HalfId) (dt ns : Nat) (ha : d.active h = false) (hr : d.running h = true) (hw : (d.cyx h).waiting = 1)
    (hph : (d.cyx h).phase = 0) (hv : (d.cyx h).valid = true) (hcode : d.get (ctl .cyx h) CYX.STATE_CODE = 1) : d.markerStep h dt ns =
      ((((d.lagJudge h).modCyx h (fun x => { x with waiting := x.waiting - 1, late := none })).put (ctl .cyx h) CYX.CNT_CYCLE (d.cyx h).marker).put
        (ctl .cyx h) CYX.STATE_LAG 0).snapshotHalf h dt ns := by
  have hx : (d.lagJudge h).cyx h = d.cyx h := by simp [cyx]
  have hc : (((((d.lagJudge h).modCyx h (fun x => { x with waiting := x.waiting - 1, late := none })).put (ctl .cyx h) CYX.CNT_CYCLE (d.cyx h).marker).put
      (ctl .cyx h) CYX.STATE_LAG 0).get (ctl .cyx h) CYX.STATE_CODE) = 1 := by
    simp (disch := decide) only [get_put_apart, get_modCyx, code_lagJudge, hcode]
  simp [markerStep, cycleMarker, ha, hr, hx, hw, hph, hv, hc, active_lagJudge, running_lagJudge]

/-! ### The link between the halves -/

theorem linkTrain_eq (d : Dev) (q : HalfId) (ho : d.outOfReset q = true) :
    d.linkTrain.on (ctl .mir q) MIR.LINK_TRAIN = true := by
  have hst (d : Dev) (v : Nat) : (d.put (ctl .mir .a) MIR.LINK_TRAIN v).outOfReset .b = d.outOfReset .b := by
    simp (disch := decide) only [outOfReset, hlfState, get_put_other]
  cases q
  · simp only [linkTrain, both, ho, if_true]
    split <;> simp (disch := decide) only [on, get_put_other, get_put_same] <;> decide
  · simp only [linkTrain, both]
    split <;> simp (disch := decide) only [hst, ho, if_true, on, get_put_same] <;> decide

theorem keeps_linkTrain (d : Dev) : d.keeps d.linkTrain [ctl .mir .a, ctl .mir .b] := by
  simp only [linkTrain, both]
  split <;> split <;> simp (disch := decide) [keeps_put_iff]

theorem get_linkTrain (d : Dev) {q : Nat} {f : Fld} {i t : Nat} (h : MIR.LINK_TRAIN.apart f = true) (hf : f.fits = true) (hi : i < f.cnt)
    (ht : t < 65536) : d.linkTrain.get q f i t = d.get q f i t := by
  simp only [linkTrain, both]
  split <;> split <;> simp (disch := first | decide | assumption) only [get_put_field]

theorem packetFail_counts (d : Dev) (h : HalfId) (e : LinkErr) (hup : d.mirUp = true) :
    (e ≠ .lock → (d.packetFail h e).get (ctl .mir h) MIR.CRC_ERR_COUNT = satU 16 (d.get (ctl .mir h) MIR.CRC_ERR_COUNT + 1) % 2 ^ 16) ∧
    (e = .crc → (d.packetFail h e).get (ctl .mir h.other) MIR.RESEND_COUNT = satU 16 (d.get (ctl .mir h.other) MIR.RESEND_COUNT + 1) % 2 ^ 16) ∧
    (e ≠ .crc → ∀ q : HalfId, d.outOfReset q = true → (d.packetFail h e).on (ctl .mir q) MIR.LINK_TRAIN = true) ∧
    d.keeps (d.packetFail h e) [ctl .mir .a, ctl .mir .b] := by
  have hcount : (d.bump (ctl .mir h) MIR.CRC_ERR_COUNT).get (ctl .mir h) MIR.CRC_ERR_COUNT = satU 16 (d.get (ctl .mir h) MIR.CRC_ERR_COUNT + 1) % 2 ^ 16 :=
    get_put_same _ _ _ _ _ _ (by decide)
  have hst (q : HalfId) : (d.bump (ctl .mir h) MIR.CRC_ERR_COUNT).outOfReset q = d.outOfReset q := by
    simp (disch := decide) only [outOfReset, hlfState, bump, get_put_field]
  have hk : d.keeps (d.bump (ctl .mir h) MIR.CRC_ERR_COUNT) [ctl .mir .a, ctl .mir .b] := (keeps_put_iff (by cases h <;> decide) (by decide) (by decide) (by decide)).mpr (keeps_refl d _)
  cases e with
  | crc =>
    simp only [packetFail, hup, Bool.not_true, Bool.false_eq_true, if_false]
    refine ⟨fun _ => ?_, fun _ => ?_, fun hne => absurd rfl hne, ?_⟩
    · rw [bump, get_put_field _ _ (by decide) (by decide) (by decide) (by decide) (by decide) (by decide) (by decide), hcount]
    · rw [bump, get_put_same _ _ _ _ _ _ (by decide), bump, get_put_field _ _ (by decide) (by decide) (by decide) (by decide) (by decide) (by decide) (by decide)]
      rfl
    · exact (keeps_put_iff (by cases h <;> decide) (by decide) (by decide) (by decide)).mpr hk
  | again =>
    simp only [packetFail, hup, Bool.not_true, Bool.false_eq_true, if_false]
    refine ⟨fun _ => ?_, fun he => absurd he (by decide), fun _ q hq => linkTrain_eq _ q ((hst q).trans hq), keeps_trans hk (keeps_linkTrain _)⟩
    rw [get_linkTrain _ (by decide) (by decide) (by decide) (by decide), hcount]
  | lock =>
    simp only [packetFail, hup, Bool.not_true, Bool.false_eq_true, if_false]
    exact ⟨fun hne => absurd rfl hne, fun he => absurd he (by decide), fun _ q hq => linkTrain_eq d q hq, keeps_linkTrain d⟩

/-- What the loss of the link shows at one half. -/
def linkLost (d : Dev) (h : HalfId) : Dev :=
  let p := ctl .mir h
  let d := (((d.put p MIR.LINK_UP 0).put p MIR.LINK_LANES 0).put p MIR.LINK_WIDTH 0).put p MIR.LINK_TRAIN 0
  let d := if d.outOfReset h then (bump d p MIR.DOWN_COUNT).fault p cMIR_DOWN h.n else d
  d.modHlf h (fun x => { x with servoBuf := none, okRun := 0, missRun := 0 })

/-- What the loss of the link does to one half: a half in STANDBY_SYNC no longer hears its peer. -/
def downOne (d : Dev) (h : HalfId) : Dev :=
  if (d.linkLost h).hlfState h = 1 then
    ((d.linkLost h).put (ctl .hlf h) HLF.STATE_PEER_QUIET 1).modHlf h (fun x => { x with quiet := some ((d.linkLost h).get (shp .wir) WIR.RENEW_COUNT) })
  else d.linkLost h

theorem mirDown_eq (d : Dev) (hup : d.mirUp = true) : d.mirDown = d.both downOne := by
  unfold mirDown
  dsimp only
  rw [if_pos hup]
  unfold downOne linkLost
  rfl

section
variable (d : Dev) (h : HalfId)

theorem keeps_linkLost : d.keeps (d.linkLost h) [ctl .mir h, shp .slt] := by
  unfold linkLost
  dsimp only
  split <;> simp (disch := first | decide | simp) [keeps_put_iff, keeps_fault_iff, bump]

theorem linkUp_linkLost : (d.linkLost h).get (ctl .mir h) MIR.LINK_UP = 0 := by
  have hslt := ctl_ne_shp (b := .mir) (c := .slt) h (by decide) (by decide) (by decide)
  unfold linkLost
  dsimp only
  split <;> simp (disch := first | decide | assumption) [get_put_field, get_put_same, get_fault_apart, bump]

theorem hlf_linkLost : ((d.linkLost h).hlf h).servoBuf = none ∧ (d.linkLost h.other).hlf h = d.hlf h := by
  unfold linkLost
  dsimp only
  constructor <;> split <;> simp [bump]

theorem hlfState_linkLost : (d.linkLost h).hlfState h = d.hlfState h :=
  get_of_keeps (keeps_linkLost d h) (by decide) (by decide) (by decide) (by cases h <;> decide)

theorem keeps_downOne : d.keeps (d.downOne h) [ctl .mir h, ctl .hlf h, shp .slt] := by
  have hk : d.keeps (d.linkLost h) [ctl .mir h, ctl .hlf h, shp .slt] := keeps_mono (keeps_linkLost d h) (by simp +contextual)
  unfold downOne
  split
  · rw [keeps_modHlf_iff, keeps_put_iff (by simp) (by decide) (by decide) (by decide)]
    exact hk
  · exact hk

theorem linkUp_downOne : (d.downOne h).get (ctl .mir h) MIR.LINK_UP = 0 := by
  unfold downOne
  split
  · rw [get_modHlf, get_put_field _ _ (by decide) (by decide) (by decide) (by decide) (by decide) (by decide) (by decide), linkUp_linkLost]
  · exact linkUp_linkLost d h

theorem servoBuf_downOne : ((d.downOne h).hlf h).servoBuf = none := by
  unfold downOne
  split
  · rw [hlf_modHlf_same, hlf_put, (hlf_linkLost d h).1]
  · exact (hlf_linkLost d h).1

theorem hlf_downOne_mine : (d.downOne h.other).hlf h = d.hlf h := by
  unfold downOne
  split
  · rw [hlf_modHlf_mine, hlf_put, (hlf_linkLost d h).2]
  · exact (hlf_linkLost d h).2

theorem quiet_downOne (hst : d.hlfState h = 1) : (d.downOne h).get (ctl .hlf h) HLF.STATE_PEER_QUIET = 1 := by
  rw [downOne, if_pos ((hlfState_linkLost d h).trans hst), get_modHlf, get_put_same _ _ _ _ _ _ (by decide)]
  decide

end

theorem mirDown_shows (d : Dev) (h : HalfId) (hup : d.mirUp = true) : d.mirDown.mirUp = false ∧ d.mirDown.on (ctl .mir .b) MIR.LINK_UP = false ∧
    (d.mirDown.hlf h).servoBuf = none ∧ (d.hlfState h = 1 → d.mirDown.get (ctl .hlf h) HLF.STATE_PEER_QUIET = 1) ∧ d.mirDown.memories = d.memories := by
  have hka := keeps_downOne d .a
  have hkb := keeps_downOne (d.downOne .a) .b
  rw [mirDown_eq d hup, both]
  refine ⟨?_, ?_, ?_, fun hst => ?_, hkb.1.trans hka.1⟩
  · rw [mirUp, on, get_of_keeps hkb (by decide) (by decide) (by decide) (by decide), linkUp_downOne]
    rfl
  · rw [on, linkUp_downOne]
    rfl
  · cases h
    · exact (congrArg Hlf.servoBuf (hlf_downOne_mine (d.downOne .a) .a)).trans (servoBuf_downOne d .a)
    · exact servoBuf_downOne _ .b
  · cases h
    · rw [get_of_keeps hkb (by decide) (by decide) (by decide) (by decide), quiet_downOne d .a hst]
    · refine quiet_downOne _ .b ?_
      rw [hlfState, get_of_keeps hka (by decide) (by decide) (by decide) (by decide)]
      exact hst

/-- The width of a link that trained on a number of lanes. -/
def linkWidth (n : Nat) : Nat := if n = 4 then 3 else if n ≥ 2 then 2 else 1

/-- What a trained link shows at one half. -/
def upOne (lanes : Nat) (d : Dev) (h : HalfId) : Dev :=
  let p := ctl .mir h
  let d := (((d.put p MIR.LINK_UP 1).put p MIR.LINK_LANES lanes).put p MIR.LINK_WIDTH (linkWidth (popc 4 lanes))).put p MIR.LINK_TRAIN 0
  let d := (d.put (ctl .hlf h) HLF.STATE_PEER_QUIET 0).modHlf h (fun x => { x with quiet := none })
  if linkWidth (popc 4 lanes) < 3 then d.fault p cMIR_NARROW lanes else d

theorem linkTrained_eq (d : Dev) {lanes : Nat} (hp : popc 4 lanes ≠ 0) (hoa : d.outOfReset .a = true) (hob : d.outOfReset .b = true) :
    d.linkTrained lanes = d.both (upOne lanes) := by
  rw [linkTrained]
  exact if_neg (by simp [hp, hoa, hob])

theorem keeps_upOne (lanes : Nat) (d : Dev) (h : HalfId) : d.keeps (upOne lanes d h) [ctl .mir h, ctl .hlf h, shp .slt] := by
  unfold upOne
  dsimp only
  split <;> simp (disch := first | decide | simp) [keeps_put_iff, keeps_fault_iff]

theorem linkUp_upOne (lanes : Nat) (d : Dev) (h : HalfId) : (upOne lanes d h).get (ctl .mir h) MIR.LINK_UP = 1 ∧
    (upOne lanes d h).get (ctl .mir h) MIR.LINK_LANES = lanes % 2 ^ 4 ∧
    (upOne lanes d h).get (ctl .mir h) MIR.LINK_WIDTH = linkWidth (popc 4 lanes) := by
  have hslt := ctl_ne_shp (b := .mir) (c := .slt) h (by decide) (by decide) (by decide)
  have hw : linkWidth (popc 4 lanes) % 2 ^ MIR.LINK_WIDTH.w = linkWidth (popc 4 lanes) := by
    unfold linkWidth
    split
    · rfl
    · split <;> rfl
  have hread {f : Fld} (h1 : HDR.ERR_COUNT.apart f = true) (h2 : HDR.ERR_CODE.apart f = true) (h3 : HDR.ERR_DETAIL.apart f = true) (hf : f.fits = true)
      (hi : 0 < f.cnt) (d : Dev) (c : Prop) [Decidable c] : (if c then d.fault (ctl .mir h) cMIR_NARROW lanes else d).get (ctl .mir h) f = d.get (ctl .mir h) f := by
    split
    · exact get_fault_apart d hslt h1 h2 h3 hf hi (by decide)
    · rfl
  unfold upOne
  dsimp only
  refine ⟨?_, ?_, ?_⟩ <;> rw [hread (by decide) (by decide) (by decide) (by decide) (by decide)] <;>
    simp (disch := decide) only [get_modHlf, get_put_field, get_put_same]
  · rfl
  · rfl
  · exact hw

theorem linkUp_trained (d : Dev) (lanes : Nat) (h : HalfId) : (d.both (upOne lanes)).get (ctl .mir h) MIR.LINK_UP = 1 ∧
    (d.both (upOne lanes)).get (ctl .mir h) MIR.LINK_LANES = lanes % 2 ^ 4 ∧
    (d.both (upOne lanes)).get (ctl .mir h) MIR.LINK_WIDTH = linkWidth (popc 4 lanes) := by
  cases h
  · have hk := keeps_upOne lanes (upOne lanes d .a) .b
    rw [both, get_of_keeps hk (by decide) (by decide) (by decide) (by decide), get_of_keeps hk (by decide) (by decide) (by decide) (by decide),
      get_of_keeps hk (by decide) (by decide) (by decide) (by decide)]
    exact linkUp_upOne lanes d .a
  · exact linkUp_upOne lanes _ .b

end Dev

section
variable {s : State} (hout : s.out = true) (h : HalfId)
include hout

theorem shadowCopy_takes (c : CycState) (rest : List CycState) (ha : s.dev.active h = false) (hr : s.dev.running h = true) (hup : s.dev.mirUp = true)
    (hq : (s.dev.cyx h).rxq = c :: rest) :
    let buf := c.shadowAt + c.area.2
    let next_ := (rest.head?).map (fun n => (n.shadowAt + n.area.2, n.area.2))
    ∃ t, exec (.shadowCopy h) s = .next t ∧ t.pending = s.pending ∧ (t.dev.cyx h).shadow = some { c with ret := [] } ∧ (t.dev.cyx h).rxq = rest ∧
      t.dev.get (ctl .cyx h) CYX.SHADOW_CYC = c.cyc % 2 ^ CYX.SHADOW_CYC.w ∧
      (rest = [] → ∀ j, j < c.area.2 → memRead (t.dev.half h).sram (c.shadowAt + j) = memRead (s.dev.half h).sram (buf + j)) ∧
      (∀ x, (x < c.shadowAt ∨ buf ≤ x) → (∀ n, next_ = some n → x < n.1 ∨ n.1 + n.2 ≤ x) →
        memRead (t.dev.half h).sram x = memRead (s.dev.half h).sram x) ∧
      (t.dev.half h.other).sram = (s.dev.half h.other).sram ∧ t.dev.mram = s.dev.mram := by
  have hend : s.dev.shadowEnd h = ((s.dev.shadowCopy h).cycCompare h).lagJudge h := by simp [Dev.shadowEnd, ha, hr, hup, hq]
  have hcopy := Dev.half_shadowCopy s.dev h ha hr hq
  refine ⟨_, next_of_out_eq hout rfl hend, rfl, ?_, ?_, ?_, ?_, ?_, ?_, ?_⟩
  · rw [State.dev_mk, Dev.cyx, Dev.half_lagJudge, Dev.half_cycCompare, hcopy]
  · rw [State.dev_mk, Dev.cyx, Dev.half_lagJudge, Dev.half_cycCompare, hcopy]
  · rw [State.dev_mk]
    refine (Dev.shadowCyc_lagJudge _ h (c := { c with ret := [] }) ?_).trans rfl
    rw [Dev.cyx, Dev.half_cycCompare, hcopy]
  · rintro rfl j hj
    rw [State.dev_mk, Dev.half_lagJudge, Dev.half_cycCompare, hcopy]
    exact memRead_refill_memBytes _ _ _ _ hj
  · intro x hx hn
    rw [State.dev_mk, Dev.half_lagJudge, Dev.half_cycCompare, hcopy]
    exact Dev.memRead_copiedSram_outside _ c rest hx hn
  · rw [State.dev_mk, Dev.half_lagJudge, Dev.half_cycCompare, Dev.half_shadowCopy_other _ h ha hr hq]
  · rw [State.dev_mk, Dev.mram_lagJudge, Dev.mram_cycCompare, Dev.mram_shadowCopy _ h ha hr hq]

theorem cycleMarker_lag (dt : BitVec 48) (ns : Word) (ha : s.dev.active h = false) (hr : s.dev.running h = true) (hw : (s.dev.cyx h).waiting = 1)
    (hph : (s.dev.cyx h).phase ≠ 0) :
    ∃ t, exec (.cycleMarker h dt ns) s = .next t ∧ t.pending = s.pending ∧ t.dev.get (ctl .cyx h) CYX.STATE_LAG = 1 ∧
      (t.dev.cyx h).late = some (dt.toNat, ns.toNat) ∧ (t.dev.cyx h).phase = (s.dev.cyx h).phase ∧ t.dev.memories = s.dev.memories := by
  have hm := Dev.markerStep_late s.dev h dt.toNat ns.toNat ha hr hw hph
  refine ⟨_, next_of_out_eq hout rfl hm, rfl, ?_, ?_, ?_, ?_⟩
  · simp (disch := decide) only [Dev.get_modCyx, Dev.get_stat_apart, Dev.get_put_same]
    decide
  · simp [Dev.cyx, Dev.modCyx]
  · simp [Dev.cyx, Dev.modCyx]
  · exact Dev.memories_of_frame (by simp)

theorem cycleMarker_begins (dt : BitVec 48) (ns : Word) (ha : s.dev.active h = false) (hr : s.dev.running h = true) (hw : (s.dev.cyx h).waiting = 1)
    (hph : (s.dev.cyx h).phase = 0) (hv : (s.dev.cyx h).valid = true) (hcode : s.dev.get (ctl .cyx h) CYX.STATE_CODE = 1) :
    ∃ t, exec (.cycleMarker h dt ns) s = .next t ∧ t.pending = s.pending ∧ t.dev.get (ctl .cyx h) CYX.CNT_CYCLE = (s.dev.cyx h).marker % 2 ^ 32 ∧
      t.dev.get (ctl .cyx h) CYX.STATE_LAG = 0 ∧ ((t.dev.cyx h).phase = 1 ∨ (t.dev.cyx h).phase = 2) := by
  have hm := Dev.markerStep_begins s.dev h dt.toNat ns.toNat ha hr hw hph hv hcode
  refine ⟨_, next_of_out_eq hout rfl hm, rfl, ?_, ?_, Dev.phase_snapshotHalf _ h _ _⟩
  · rw [State.dev_mk, Dev.get_snapshotHalf _ h _ _ (by decide) (by decide) (by decide) (by decide) (by decide) (by decide) (by decide) (by decide)]
    simp (disch := decide) only [Dev.get_put_apart, Dev.get_put_same]
    rfl
  · rw [State.dev_mk, Dev.get_snapshotHalf _ h _ _ (by decide) (by decide) (by decide) (by decide) (by decide) (by decide) (by decide) (by decide)]
    simp (disch := decide) only [Dev.get_put_same]
    rfl

theorem servoStateReceive_takes (b : ServoState) (hb : (s.dev.hlf h).servoBuf = some b) (hmir : s.dev.mirrors h = true)
    (hcmp : s.dev.on (ctl .hlf h) HLF.CFG_CMP_SERVO = false) :
    ∃ t, exec (.servoStateReceive h) s = .next t ∧ t.pending = s.pending ∧ (t.dev.half h).mpg = b.mpg ∧ (t.dev.half h).dax = b.dax ∧
      (t.dev.half h).servoCnt = b.cnt ∧ (t.dev.hlf h).servoBuf = none ∧ t.dev.memories = s.dev.memories := by
  have hrec : s.dev.servoReceive h = ((s.dev.servoTaken h).takeServo h b).disJudge h := by simp [Dev.servoReceive, Dev.servoTaken, hb, hmir, hcmp]
  obtain ⟨hmpg, hdax, hcnt⟩ := Dev.half_takeServo (s.dev.servoTaken h) h b
  refine ⟨_, next_of_out_eq hout rfl hrec, rfl, ?_, ?_, ?_, ?_, ?_⟩
  · rw [State.dev_mk, Dev.half_disJudge, hmpg]
  · rw [State.dev_mk, Dev.half_disJudge, hdax]
  · rw [State.dev_mk, Dev.half_disJudge, hcnt]
  · rw [State.dev_mk, Dev.servoBuf_disJudge, Dev.hlf_takeServo, Dev.servoTaken, Dev.hlf_modHlf_same]
  · rw [State.dev_mk, Dev.memories_of_frame (Dev.frame_disJudge ..), Dev.memories_takeServo, Dev.servoTaken, Dev.memories_modHlf]

theorem servoStateMiss_counts (hst : s.dev.hlfState h = 1) (hup : s.dev.mirUp = true) :
    ∃ t, exec (.servoStateMiss h) s = .next t ∧ t.pending = s.pending ∧ (t.dev.hlf h).servoBuf = none ∧
      t.dev.get (ctl .mir h) MIR.SMISS_COUNT = satU 16 (s.dev.get (ctl .mir h) MIR.SMISS_COUNT + 1) % 2 ^ 16 ∧
      t.dev.hlfState h = (if (s.dev.hlf h).missRun ≥ 2 then 2 else 1) ∧ t.dev.memories = s.dev.memories := by
  have hmiss := Dev.servoMiss_eq s.dev h hst hup
  have hst' : (s.dev.missed h).hlfState h = 1 := (Dev.hlfState_missed s.dev h).trans hst
  have hcount : (s.dev.missed h).get (ctl .mir h) MIR.SMISS_COUNT = satU 16 (s.dev.get (ctl .mir h) MIR.SMISS_COUNT + 1) % 2 ^ 16 := by
    rw [Dev.missed, Dev.get_modHlf, Dev.bump, Dev.get_put_same _ _ _ _ _ _ (by decide)]
    rfl
  refine ⟨_, next_of_out_eq hout rfl hmiss, rfl, ?_, ?_, ?_, ?_⟩ <;> rw [State.dev_mk]
  · rw [apply_ite (fun d => (Dev.hlf d h).servoBuf), Dev.servoBuf_goStale, ite_self, Dev.missed, Dev.hlf_modHlf_same]
  · rw [apply_ite (fun d => Dev.get d (ctl .mir h) MIR.SMISS_COUNT), Dev.get_goStale _ _ _ (by decide) (by decide) (by decide) (by decide), ite_self, hcount]
  · rw [apply_ite (fun d => Dev.hlfState d h), Dev.hlfState_goStale, hst', if_pos rfl]
  · rw [apply_ite Dev.memories, Dev.memories_of_frame (Dev.frame_goStale ..), ite_self, Dev.memories_missed]

theorem disagree_judges (hst : s.dev.hlfState h = 1) : let n := s.dev.get (ctl .hlf h) HLF.CFG_DIS_N
    if n ≠ 0 ∧ ((s.dev.hlf h).disRun ≥ n ∨ (s.dev.hlf h).disCyc ≥ n) then
      ∃ t, exec (.disagree h) s = .next t ∧ t.pending = s.pending ∧ t.dev.hlfState h = 2 ∧ t.dev.get (ctl .hlf h) HLF.STATE_CAUSE = 7 ∧
        t.dev.memories = s.dev.memories
    else exec (.disagree h) s = .next s := by
  intro n
  split
  case isTrue hn =>
    have hj : s.dev.disJudge h = s.dev.goStale h 7 := if_pos hn
    refine ⟨_, next_of_out_eq hout rfl hj, rfl, ?_, ?_, Dev.memories_of_frame (by simp)⟩
    · rw [State.dev_mk, Dev.hlfState_goStale, if_pos hst]
    · rw [State.dev_mk, Dev.cause_goStale _ _ _ hst]
  case isFalse hn => exact next_of_out_eq hout rfl (if_neg hn)

theorem resyncComplete_rejoins :
    if s.dev.resyncOk h = true then
      ∃ t, exec (.resyncComplete h) s = .next t ∧ t.pending = s.pending ∧ t.dev.hlfState h = 1 ∧ t.dev.get (ctl .hlf h) HLF.STATE_CAUSE = 0xA ∧
        t.dev.get (ctl .hlf h) HLF.EPOCH_KNOWN = s.dev.get (shp .wir) WIR.LEASE_EPOCH % 2 ^ 16 ∧ t.dev.memories = s.dev.memories
    else exec (.resyncComplete h) s = .next s := by
  split
  case isTrue hok =>
    have hr : s.dev.resync h = (s.dev.hlfTo h 1 0xA).put (ctl .hlf h) HLF.EPOCH_KNOWN (s.dev.get (shp .wir) WIR.LEASE_EPOCH) := if_pos hok
    refine ⟨_, next_of_out_eq hout rfl hr, rfl, ?_, ?_, ?_, Dev.memories_of_frame (by simp)⟩
    · rw [State.dev_mk, Dev.hlfState, Dev.get_put_apart _ _ (by decide) (by decide) (by decide) (by decide) (by decide) (by decide) (by decide)]
      exact Dev.hlfState_hlfTo s.dev h 1 0xA
    · rw [State.dev_mk, Dev.get_put_apart _ _ (by decide) (by decide) (by decide) (by decide) (by decide) (by decide) (by decide)]
      exact Dev.cause_hlfTo s.dev h 1 0xA
    · rw [State.dev_mk, Dev.get_put_same _ _ _ _ _ _ (by decide)]
      rfl
  case isFalse hok => exact next_of_out_eq hout rfl (if_neg hok)

theorem mirPacketCrcFail_counts (e : LinkErr) (hup : s.dev.mirUp = true) : ∃ t, exec (.mirPacketCrcFail h e) s = .next t ∧ t.pending = s.pending ∧
    (e ≠ .lock → t.dev.get (ctl .mir h) MIR.CRC_ERR_COUNT = satU 16 (s.dev.get (ctl .mir h) MIR.CRC_ERR_COUNT + 1) % 2 ^ 16) ∧
    (e = .crc → t.dev.get (ctl .mir h.other) MIR.RESEND_COUNT = satU 16 (s.dev.get (ctl .mir h.other) MIR.RESEND_COUNT + 1) % 2 ^ 16) ∧
    (e ≠ .crc → ∀ q : HalfId, s.dev.outOfReset q = true → t.dev.on (ctl .mir q) MIR.LINK_TRAIN = true) ∧
    s.dev.keeps t.dev [ctl .mir .a, ctl .mir .b] := by
  obtain ⟨hcrc, hresend, htrain, hkeeps⟩ := Dev.packetFail_counts s.dev h e hup
  exact ⟨_, next_of_out hout rfl, rfl, hcrc, hresend, htrain, hkeeps⟩

theorem mirLinkDown_shows (hup : s.dev.mirUp = true) : ∃ t, exec .mirLinkDown s = .next t ∧ t.pending = s.pending ∧ t.dev.mirUp = false ∧
    t.dev.on (ctl .mir .b) MIR.LINK_UP = false ∧ (t.dev.hlf h).servoBuf = none ∧
    (s.dev.hlfState h = 1 → t.dev.get (ctl .hlf h) HLF.STATE_PEER_QUIET = 1) ∧ t.dev.memories = s.dev.memories := by
  obtain ⟨hda, hdb, hbuf, hquiet, hmem⟩ := Dev.mirDown_shows s.dev h hup
  exact ⟨_, next_of_out hout rfl, rfl, hda, hdb, hbuf, hquiet, hmem⟩

theorem mirLinkUp_shows (lanes : BitVec 4) (hl : lanes ≠ 0) (hoa : s.dev.outOfReset .a = true) (hob : s.dev.outOfReset .b = true) :
    ∃ t, exec (.mirLinkUp lanes) s = .next t ∧ t.pending = s.pending ∧ t.dev.mirUp = true ∧ t.dev.get (ctl .mir h) MIR.LINK_UP = 1 ∧
      t.dev.get (ctl .mir h) MIR.LINK_LANES = lanes.toNat ∧
      t.dev.get (ctl .mir h) MIR.LINK_WIDTH = (if popc 4 lanes.toNat = 4 then 3 else if popc 4 lanes.toNat ≥ 2 then 2 else 1) ∧
      t.dev.memories = s.dev.memories := by
  have hpop : popc 4 lanes.toNat ≠ 0 := by revert lanes; decide
  have ht := Dev.linkTrained_eq s.dev hpop hoa hob
  have hshow (q : HalfId) := Dev.linkUp_trained s.dev lanes.toNat q
  refine ⟨_, next_of_out_eq hout rfl ht, rfl, ?_, (hshow h).1, ?_, ?_, Dev.memories_of_frame (by simp [Dev.upOne, Dev.frame_fault])⟩
  · rw [State.dev_mk, Dev.mirUp, Dev.on, (hshow .a).1]
    rfl
  · rw [State.dev_mk, (hshow h).2.1, Nat.mod_eq_of_lt lanes.isLt]
  · rw [State.dev_mk, (hshow h).2.2]
    rfl

end

/-- Settles O43: the copy of a cycle's state, its marker, the servo states that come and are missed, and the state of the link, each by what it leaves. -/
theorem theStandbyFollows : Obligations.TheStandbyFollows := by
  unfold Obligations.TheStandbyFollows
  exact fun s h hout => ⟨shadowCopy_takes hout h,
    fun dt ns ha hr hw => ⟨cycleMarker_lag hout h dt ns ha hr hw, cycleMarker_begins hout h dt ns ha hr hw⟩,
    servoStateReceive_takes hout h, servoStateMiss_counts hout h, disagree_judges hout h, resyncComplete_rejoins hout h,
    mirPacketCrcFail_counts hout h, mirLinkDown_shows hout h, mirLinkUp_shows hout h⟩

end Sys2Proof.Machine
end

section
/-! PROOFS. The safe state of the field outputs is an affair of the shared pages: the CTL pages and the halves stay as they were. -/
namespace Sys2Proof.Machine

open Sys2Proof

namespace Dev

/-! ### The CTL part -/

/-- The words of the CTL pages. Every word of a shared page has a greater key. -/
def ctlRegs (d : Dev) (k : Nat) : Option Word := if k < 512 * 8589934592 then rfFind k d.regs else none

/-- The CTL pages, what the halves keep beside them, and half control. -/
def ctlPart (d : Dev) : (Nat → Option Word) × Half × Half × Hlf × Hlf := (d.ctlRegs, d.ha, d.hb, d.hlfA, d.hlfB)

theorem ctlPart_congr {d e : Dev} (hr : e.regs = d.regs) (ha : e.ha = d.ha) (hb : e.hb = d.hb) (hla : e.hlfA = d.hlfA) (hlb : e.hlfB = d.hlfB) :
    e.ctlPart = d.ctlPart := by
  simp only [ctlPart, Prod.mk.injEq]
  exact ⟨funext fun k => by rw [ctlRegs, ctlRegs, hr], ha, hb, hla, hlb⟩

theorem half_of_ctlPart {d e : Dev} (h : e.ctlPart = d.ctlPart) (q : HalfId) : e.half q = d.half q := by
  simp only [ctlPart, Prod.mk.injEq] at h
  cases q
  · exact h.2.1
  · exact h.2.2.1

theorem hlf_of_ctlPart {d e : Dev} (h : e.ctlPart = d.ctlPart) (q : HalfId) : e.hlf q = d.hlf q := by
  simp only [ctlPart, Prod.mk.injEq] at h
  cases q
  · exact h.2.2.2.1
  · exact h.2.2.2.2

theorem get_of_ctlPart {d e : Dev} (h : e.ctlPart = d.ctlPart) {p : Nat} {f : Fld} {i t : Nat} (hp : p < 512) (hf : f.fits = true) (hi : i < f.cnt)
    (ht : t < 65536) : e.get p f i t = d.get p f i t := by
  simp only [ctlPart, Prod.mk.injEq] at h
  have hin := inside_of_fits hf hi ht
  have hkey : fkey p f i t < 512 * 8589934592 := by
    obtain ⟨hoff, hlo, htab⟩ := hin
    rw [fkey_eq]
    omega
  have hk := congrFun h.1 (fkey p f i t)
  rw [ctlRegs, ctlRegs, if_pos hkey, if_pos hkey] at hk
  rw [get, get, hk]

theorem ctl_lt {b : Blk} (h : HalfId) (hi : b.index < 256) (hb : b.region = 0) : ctl b h < 512 := by
  cases h <;> simp only [ctl, pageNo, hb, HalfId.n, if_true] <;> omega

section
variable (d : Dev) {p : Nat} (hp : 512 ≤ p)
include hp

theorem ctlPart_put (f : Fld) (v i t : Nat) : (d.put p f v i t).ctlPart = d.ctlPart := by
  simp only [ctlPart, Prod.mk.injEq]
  refine ⟨funext fun k => ?_, rfl, rfl, rfl, rfl⟩
  unfold ctlRegs
  split
  · exact rfFind_put_ne d p f v i t k (by unfold fkey; omega)
  · rfl

theorem ctlPart_putb (f : Fld) (b : Bool) (i t : Nat) : (d.putb p f b i t).ctlPart = d.ctlPart := ctlPart_put d hp ..

theorem ctlPart_puti (f : Fld) (x : Int) (i t : Nat) : (d.puti p f x i t).ctlPart = d.ctlPart := ctlPart_put d hp ..

theorem ctlPart_bump (f : Fld) (i t : Nat) : (d.bump p f i t).ctlPart = d.ctlPart := ctlPart_put d hp ..

theorem ctlPart_stat (k : Nat) : (d.stat p k).ctlPart = d.ctlPart := ctlPart_put d hp ..

theorem ctlPart_err (c x : Nat) : (d.err p c x).ctlPart = d.ctlPart := by
  rw [err, ctlPart_put _ hp, ctlPart_put _ hp, ctlPart_bump _ hp]

theorem ctlPart_markEvent (half : Option HalfId) (seq : Nat) : (d.markEvent p half seq).ctlPart = d.ctlPart := by
  unfold markEvent
  split
  · exact ctlPart_put d hp ..
  · simp only [ctlPart_put _ hp]

end

@[simp] theorem ctlPart_with_silt (d : Dev) (x) : ({ d with silt := x } : Dev).ctlPart = d.ctlPart := rfl
@[simp] theorem ctlPart_with_shadow (d : Dev) (x) : ({ d with shadow := x } : Dev).ctlPart = d.ctlPart := rfl
@[simp] theorem ctlPart_with_fio (d : Dev) (x) : ({ d with fio := x } : Dev).ctlPart = d.ctlPart := rfl
@[simp] theorem ctlPart_with_stpPins (d : Dev) (x) : ({ d with stpPins := x } : Dev).ctlPart = d.ctlPart := rfl
@[simp] theorem ctlPart_with_immCnt (d : Dev) (x) : ({ d with immCnt := x } : Dev).ctlPart = d.ctlPart := rfl

@[simp] theorem ctlPart_post (d : Dev) (r : Rec) : (d.post r).ctlPart = d.ctlPart := by
  have hs : 512 ≤ shp .slt := by decide
  unfold post
  split
  · rw [ctlPart_put _ hs]
    split <;> rfl
  · unfold lose
    dsimp only
    split
    · rw [ctlPart_err _ hs]
      split
      · rw [ctlPart_stat _ hs, ctlPart_bump _ hs, ctlPart_with_silt]
      · rw [ctlPart_bump _ hs, ctlPart_with_silt]
    · rw [ctlPart_err _ hs]
      split
      · rw [ctlPart_stat _ hs, ctlPart_bump _ hs, ctlPart_with_silt]
      · rw [ctlPart_bump _ hs, ctlPart_with_silt]

@[simp] theorem ctlPart_note (d : Dev) (p cls code x : Nat) (ws : List Nat) : (d.note p cls code x ws).ctlPart = d.ctlPart := ctlPart_post ..

theorem ctlPart_fault (d : Dev) {p : Nat} (hp : 512 ≤ p) (c x : Nat) (ws : List Nat) : (d.fault p c x ws).ctlPart = d.ctlPart := by
  rw [fault, ctlPart_note, ctlPart_err _ hp]

@[simp] theorem ctlPart_noteConfig (d : Dev) (e : Staged) (code reason old new seq bnd : Nat) :
    (d.noteConfig e code reason old new seq bnd).ctlPart = d.ctlPart := by
  unfold noteConfig
  split
  · rfl
  · exact ctlPart_post ..

/-- Whatever is staged on a shared page, its application stays off the CTL pages. -/
theorem ctlPart_applyPage (d : Dev) {p : Nat} (hp : 512 ≤ p) (half : Option HalfId) (rules : View → List RuleFail) (bnd seq : Nat) :
    (d.applyPage p half rules bnd seq).ctlPart = d.ctlPart := by
  have hput (d : Dev) (f : Fld) (v i t : Nat) : (d.put p f v i t).ctlPart = d.ctlPart := ctlPart_put d hp f v i t
  unfold applyPage
  dsimp only
  refine iteInduction (motive := fun e : Dev => e.ctlPart = d.ctlPart) (fun _ => by simp only [hput, ctlPart_markEvent _ hp]) fun _ =>
    iteInduction (motive := fun e : Dev => e.ctlPart = d.ctlPart) (fun _ => by simp only [hput, ctlPart_markEvent _ hp]) fun _ => ?_
  have happ (l : List Staged) (d : Dev) : (l.foldl (fun d e => d.put p e.fld e.val.toNat e.i e.t) d).ctlPart = d.ctlPart :=
    foldl_off (g := ctlPart) l d fun d e _ => hput d ..
  generalize List.foldl _ none _ = rejected
  have hrec {f : Dev → Staged → Dev} (l : List Staged) (d : Dev) (hf : ∀ d e, (f d e).ctlPart = d.ctlPart) : (l.foldl f d).ctlPart = d.ctlPart :=
    foldl_off (g := ctlPart) l d fun d e _ => hf d e
  have hite (c : Prop) [Decidable c] (a b : Dev) : (if c then a else b).ctlPart = if c then a.ctlPart else b.ctlPart := apply_ite ctlPart c a b
  cases rejected <;> simp only [hput, hite, ite_self, ctlPart_noteConfig, hrec, implies_true, ctlPart_with_shadow, ctlPart_markEvent _ hp]

theorem ctlPart_trimEnd (d : Dev) : d.trimEnd.ctlPart = d.ctlPart := by
  unfold trimEnd
  dsimp only
  split <;> simp (disch := decide) only [ctlPart_stat, ctlPart_put]

theorem ctlPart_aoDrive (d : Dev) (c : Nat) : (d.aoDrive c).ctlPart = d.ctlPart := by
  simp (disch := decide) only [aoDrive, ctlPart_putb, ctlPart_puti, ctlPart_with_fio]

theorem ctlPart_fioDrive (d : Dev) : d.fioDrive.ctlPart = d.ctlPart := by
  unfold fioDrive
  dsimp only
  rw [foldl_off (g := ctlPart) _ _ fun d c _ => ctlPart_aoDrive d c]
  simp (disch := decide) only [ctlPart_put]

theorem ctlPart_applyTrm (d : Dev) (half : HalfId) : (d.applyTrm half).ctlPart = d.ctlPart := by
  unfold applyTrm
  dsimp only
  split
  · rw [ctlPart_applyPage _ (by decide)]
    rfl
  · rw [ctlPart_fioDrive, ctlPart_stat _ (by decide), ctlPart_applyPage _ (by decide)]
    rfl

theorem ctlPart_trimRelease (d : Dev) : d.trimRelease.ctlPart = d.ctlPart := by
  unfold trimRelease
  split
  · rw [ctlPart_fioDrive, ctlPart_applyTrm]
  · exact ctlPart_fioDrive d

theorem ctlPart_stpSafe (d : Dev) : d.stpSafe.ctlPart = d.ctlPart := by
  simp (disch := decide) only [stpSafe, stpShow, ctlPart_put, ctlPart_with_stpPins]

@[simp] theorem ctlPart_fioSafe (d : Dev) (c : Nat) : (d.fioSafe c).ctlPart = d.ctlPart := by
  unfold fioSafe
  dsimp only
  rw [apply_ite ctlPart, ctlPart_trimRelease, ctlPart_fioDrive, ite_self, apply_ite ctlPart, ctlPart_stpSafe, ite_self, apply_ite ctlPart, ctlPart_trimEnd,
    ctlPart_bump _ (by decide), ctlPart_stat _ (by decide), ctlPart_stat _ (by decide), ite_self, ctlPart_with_fio]

end Dev

end Sys2Proof.Machine
end

section
/-! PROOFS. The on-line change of the executive, from LOAD to the switch; forces and cells. -/
namespace Sys2Proof.Machine

open Sys2Proof

namespace Dev

/-! ### What the executive keeps beside the registers -/

section
variable (d : Dev) (h : HalfId)

@[simp] theorem cyx_put (p : Nat) (f : Fld) (v i t : Nat) : (d.put p f v i t).cyx h = d.cyx h := congrArg Half.cyx (half_put ..)
@[simp] theorem cyx_stat (p k : Nat) : (d.stat p k).cyx h = d.cyx h := cyx_put ..
@[simp] theorem cyx_err (p c x : Nat) : (d.err p c x).cyx h = d.cyx h := congrArg Half.cyx (half_err ..)
@[simp] theorem cyx_fault (p c x : Nat) (ws : List Nat) : (d.fault p c x ws).cyx h = d.cyx h := congrArg Half.cyx (half_fault ..)
@[simp] theorem cyx_modHlf (q : HalfId) (g : Hlf → Hlf) : (d.modHlf q g).cyx h = d.cyx h := congrArg Half.cyx (half_modHlf ..)
@[simp] theorem cyx_modCyx_same (g : Cyx → Cyx) : (d.modCyx h g).cyx h = g (d.cyx h) := by cases h <;> rfl
@[simp] theorem cyx_modCyx_other (g : Cyx → Cyx) : (d.modCyx h g).cyx h.other = d.cyx h.other := by cases h <;> rfl
@[simp] theorem cyx_modCyx_mine (g : Cyx → Cyx) : (d.modCyx h.other g).cyx h = d.cyx h := by cases h <;> rfl
@[simp] theorem cyx_setSram (q : HalfId) (m : List Host.Cell) : (d.setSram q m).cyx h = d.cyx h := by cases h <;> cases q <;> rfl
@[simp] theorem cyx_fillSram (q : HalfId) (a n : Nat) (bs : List Nat) : (d.fillSram q a n bs).cyx h = d.cyx h := by simp [fillSram, heal]
@[simp] theorem cyx_setOlc (q : HalfId) (st reason : Nat) : (d.setOlc q st reason).cyx h = d.cyx h := by simp [setOlc]

@[simp] theorem cyx_showOlc (q : HalfId) (st reason : Nat) : (d.showOlc q st reason).cyx h = d.cyx h := by
  unfold showOlc
  dsimp only
  split <;> simp

@[simp] theorem regs_modCyx (g : Cyx → Cyx) : (d.modCyx h g).regs = d.regs := modHalf_regs ..

theorem mirrors_congr {d e : Dev} (h1 : e.get (ctl .mir h) MIR.LINK_UP = d.get (ctl .mir h) MIR.LINK_UP)
    (h2 : e.get (ctl .hlf h) HLF.STATE_OWN = d.get (ctl .hlf h) HLF.STATE_OWN) : e.mirrors h = d.mirrors h := by
  rw [mirrors, mirrors, on, on, h1, h2]

@[simp] theorem mirrors_setOlc (q : HalfId) (st reason : Nat) : (d.setOlc q st reason).mirrors h = d.mirrors h := by
  apply mirrors_congr <;> cases h <;> cases q <;> simp (disch := decide) only [setOlc, get_put_other]

@[simp] theorem mirrors_showOlc (q : HalfId) (st reason : Nat) : (d.showOlc q st reason).mirrors h = d.mirrors h := by
  unfold showOlc
  dsimp only
  split <;> simp

@[simp] theorem mirrors_modCyx (q : HalfId) (g : Cyx → Cyx) : (d.modCyx q g).mirrors h = d.mirrors h :=
  mirrors_congr h (get_modCyx ..) (get_modCyx ..)

/-! ### Idle banks and the state of a change -/

theorem idle_setIdle (i : Option Image) : (d.setIdle h i).cyx h = { d.cyx h with idle := i } := by
  unfold setIdle
  dsimp only
  split <;> simp

theorem idle_setIdle_other (i : Option Image) (hm : d.mirrors h.other = true) : ((d.setIdle h i).cyx h.other).idle = i := by
  rw [setIdle, mirrors_modCyx, if_pos hm, cyx_modCyx_same]

@[simp] theorem get_setIdle (i : Option Image) (p f j t) : (d.setIdle h i).get p f j t = d.get p f j t := by
  unfold setIdle
  dsimp only
  split <;> simp

theorem keeps_setIdle_iff {e : Dev} (i : Option Image) (ps : List Nat) : e.keeps (d.setIdle h i) ps ↔ e.keeps d ps := by
  unfold setIdle
  dsimp only
  split <;> simp

@[simp] theorem regs_setIdle (i : Option Image) : (d.setIdle h i).regs = d.regs := by
  unfold setIdle
  dsimp only
  split <;> simp

theorem olc_setOlc {st : Nat} (reason : Nat) (hst : st < 8) : (d.setOlc h st reason).olc h = st := by
  rw [olc, setOlc, get_put_apart _ _ (by decide) (by decide) (by decide) (by decide) (by decide) (by decide) (by decide), get_put_same _ _ _ _ _ _ (by decide)]
  exact Nat.mod_eq_of_lt hst

theorem reason_setOlc (st reason : Nat) : (d.setOlc h st reason).get (ctl .cyx h) CYX.OLC_STAT_REASON = reason % 2 ^ 8 := get_put_same _ _ _ _ _ _ (by decide)

theorem get_setOlc_other (st reason : Nat) {f : Fld} (hf : f.fits = true) (hc : 0 < f.cnt) :
    (d.setOlc h.other st reason).get (ctl .cyx h) f = d.get (ctl .cyx h) f := by
  have hne : ctl .cyx h.other ≠ ctl .cyx h := by cases h <;> decide
  simp (disch := first | decide | assumption) only [setOlc, get_put_other]

theorem get_setOlc_mine (st reason : Nat) {f : Fld} (hf : f.fits = true) (hc : 0 < f.cnt) :
    (d.setOlc h st reason).get (ctl .cyx h.other) f = d.get (ctl .cyx h.other) f := by
  have hne : ctl .cyx h ≠ ctl .cyx h.other := by cases h <;> decide
  simp (disch := first | decide | assumption) only [setOlc, get_put_other]

theorem keeps_setOlc (st reason : Nat) : d.keeps (d.setOlc h st reason) [ctl .cyx h] := by
  rw [setOlc, keeps_put_iff (by simp) (by decide) (by decide) (by decide), keeps_put_iff (by simp) (by decide) (by decide) (by decide)]
  exact keeps_refl d _

theorem olc_showOlc {st : Nat} (reason : Nat) (hst : st < 8) : (d.showOlc h st reason).olc h = st := by
  unfold showOlc
  dsimp only
  split
  · rw [olc, get_setOlc_other _ _ _ _ (by decide) (by decide)]
    exact olc_setOlc d h reason hst
  · exact olc_setOlc d h reason hst

theorem reason_showOlc (st reason : Nat) : (d.showOlc h st reason).get (ctl .cyx h) CYX.OLC_STAT_REASON = reason % 2 ^ 8 := by
  unfold showOlc
  dsimp only
  split
  · rw [get_setOlc_other _ _ _ _ (by decide) (by decide), reason_setOlc]
  · exact reason_setOlc d h st reason

theorem olc_showOlc_other {st : Nat} (reason : Nat) (hst : st < 8) (hm : d.mirrors h.other = true) : (d.showOlc h st reason).olc h.other = st := by
  rw [showOlc, mirrors_setOlc, if_pos hm]
  exact olc_setOlc _ h.other reason hst

theorem keeps_showOlc (st reason : Nat) : d.keeps (d.showOlc h st reason) [ctl .cyx .a, ctl .cyx .b] := by
  have hone (d : Dev) (q : HalfId) : d.keeps (d.setOlc q st reason) [ctl .cyx .a, ctl .cyx .b] :=
    keeps_mono (keeps_setOlc d q st reason) (by cases q <;> simp)
  unfold showOlc
  dsimp only
  split
  · exact keeps_trans (hone d h) (hone _ h.other)
  · exact hone d h

/-! ### A change that fails -/

variable (why x : Nat)

theorem cyx_olcFail : (d.olcFail h why x).cyx h = { d.cyx h with idle := none } := by
  rw [olcFail, cyx_err, cyx_stat, idle_setIdle, cyx_showOlc]

theorem olc_olcFail : (d.olcFail h why x).olc h = 6 := by
  rw [olc, olcFail, get_err_apart _ _ _ (by decide) (by decide) (by decide) (by decide), get_stat_apart _ _ (by decide) (by decide) (by decide) (by decide),
    get_setIdle]
  exact olc_showOlc d h why (by decide)

theorem olc_olcFail_other (hm : d.mirrors h.other = true) : (d.olcFail h why x).olc h.other = 6 := by
  rw [olc, olcFail, get_err_apart _ _ _ (by decide) (by decide) (by decide) (by decide), get_stat_apart _ _ (by decide) (by decide) (by decide) (by decide),
    get_setIdle]
  exact olc_showOlc_other d h why (by decide) hm

theorem reason_olcFail : (d.olcFail h why x).get (ctl .cyx h) CYX.OLC_STAT_REASON = why % 2 ^ 8 := by
  rw [olcFail, get_err_apart _ _ _ (by decide) (by decide) (by decide) (by decide), get_stat_apart _ _ (by decide) (by decide) (by decide) (by decide),
    get_setIdle, reason_showOlc]

theorem detail_olcFail : (d.olcFail h why x).get (ctl .cyx h) HDR.ERR_DETAIL = x % 2 ^ 16 := by
  have hunit : errUnit? (ctl .cyx h) = none := by cases h <;> decide
  rw [olcFail, err, get_put_same _ _ _ _ _ _ (by decide), hunit]
  rfl

theorem keeps_olcFail : d.keeps (d.olcFail h why x) [ctl .cyx .a, ctl .cyx .b] := by
  have hp : ctl .cyx h ∈ [ctl .cyx .a, ctl .cyx .b] := by cases h <;> simp
  rw [olcFail, keeps_err_iff hp, keeps_stat_iff hp, keeps_setIdle_iff]
  exact keeps_showOlc d h 6 why

end

/-! ### The end of a cycle leaves the images of a half -/

/-- What an on-line change decides for a half: its images, its switch, the state of the change and the bank it runs from. -/
def changeView (h : HalfId) (d : Dev) : Option Image × Option Image × Option Image × Bool × Nat × Nat :=
  ((d.cyx h).img, (d.cyx h).old, (d.cyx h).idle, (d.cyx h).switchNow, d.olc h, d.get (ctl .cyx h) CYX.IMG_BANK)

/-- A step that leaves what a change decides, and the mark of a first scan that is set. -/
def KeepsChange (h : HalfId) (d e : Dev) : Prop :=
  changeView h e = changeView h d ∧ (d.get (ctl .cyx h) CYX.STATE_FIRST = 1 → e.get (ctl .cyx h) CYX.STATE_FIRST = 1)

theorem KeepsChange.refl (h : HalfId) (d : Dev) : KeepsChange h d d := ⟨rfl, id⟩

theorem KeepsChange.trans {h : HalfId} {d e f : Dev} (h1 : KeepsChange h d e) (h2 : KeepsChange h e f) : KeepsChange h d f :=
  ⟨h2.1.trans h1.1, fun hf => h2.2 (h1.2 hf)⟩

/-- The registers that a change decides. -/
def changeFields : List Fld := [CYX.OLC_STAT_STATE, CYX.IMG_BANK, CYX.STATE_FIRST]

theorem keepsChange_of_gets {h : HalfId} {d e : Dev} (hc : e.cyx h = d.cyx h) (hg : ∀ f ∈ changeFields, e.get (ctl .cyx h) f = d.get (ctl .cyx h) f) :
    KeepsChange h d e := by
  have hst := hg CYX.OLC_STAT_STATE (by simp [changeFields])
  have hbank := hg CYX.IMG_BANK (by simp [changeFields])
  have hfirst := hg CYX.STATE_FIRST (by simp [changeFields])
  exact ⟨by rw [changeView, changeView, hc, olc, olc, hst, hbank], fun hf => hfirst.trans hf⟩

theorem fits_changeFields {f : Fld} (hf : f ∈ changeFields) : f.fits = true ∧ 0 < f.cnt := by
  fin_cases hf <;> decide

theorem keepsChange_put (h : HalfId) (d : Dev) (p : Nat) {f : Fld} (v : Nat) {i t : Nat} (ha : ∀ g ∈ changeFields, f.apart g = true) (hf : f.fits = true)
    (hi : i < f.cnt) (ht : t < 65536) : KeepsChange h d (d.put p f v i t) :=
  keepsChange_of_gets (cyx_put ..) fun g hg => get_put_field d v (ha g hg) hf (fits_changeFields hg).1 hi (fits_changeFields hg).2 ht (by decide)

theorem keepsChange_show (h : HalfId) (d : Dev) (p : Nat) (f : Fld) (v : Nat) (ha : ∀ g ∈ changeFields, f.apart g = true) (hf : f.fits = true)
    (hi : 0 < f.cnt) : KeepsChange h d (d.put p f v) := keepsChange_put h d p v ha hf hi (by decide)

theorem keepsChange_bump (h : HalfId) (d : Dev) (p : Nat) (f : Fld) (ha : ∀ g ∈ changeFields, f.apart g = true) (hf : f.fits = true) (hi : 0 < f.cnt) :
    KeepsChange h d (d.bump p f) := keepsChange_show h d p f _ ha hf hi

theorem keepsChange_modCyx (h q : HalfId) (d : Dev) {g : Cyx → Cyx}
    (hg : ∀ x, ((g x).img, (g x).old, (g x).idle, (g x).switchNow) = (x.img, x.old, x.idle, x.switchNow)) : KeepsChange h d (d.modCyx q g) := by
  have hx : (((d.modCyx q g).cyx h).img, ((d.modCyx q g).cyx h).old, ((d.modCyx q g).cyx h).idle, ((d.modCyx q g).cyx h).switchNow) =
      ((d.cyx h).img, (d.cyx h).old, (d.cyx h).idle, (d.cyx h).switchNow) := by
    cases h <;> cases q <;> first | exact hg _ | rfl
  simp only [Prod.mk.injEq] at hx
  obtain ⟨h1, h2, h3, h4⟩ := hx
  exact ⟨by simp only [changeView, olc, get_modCyx, h1, h2, h3, h4], fun hf => (get_modCyx ..).trans hf⟩

theorem keepsChange_of_ctlPart {h : HalfId} {d e : Dev} (he : e.ctlPart = d.ctlPart) : KeepsChange h d e :=
  keepsChange_of_gets (congrArg Half.cyx (half_of_ctlPart he h)) fun f hf =>
    get_of_ctlPart he (ctl_lt h (by decide) (by decide)) (fits_changeFields hf).1 (fits_changeFields hf).2 (by decide)

theorem keepsChange_of_regs {h : HalfId} {d e : Dev} (hc : e.cyx h = d.cyx h) (hr : e.regs = d.regs) : KeepsChange h d e :=
  keepsChange_of_gets hc fun _ _ => get_congr hr ..

theorem keepsChange_ite {h : HalfId} {d e f : Dev} (c : Prop) [Decidable c] (he : KeepsChange h d e) (hf : KeepsChange h d f) :
    KeepsChange h d (if c then e else f) := by
  split
  · exact he
  · exact hf

theorem keepsChange_cyxHalt (h q : HalfId) (d : Dev) (code : Nat) : KeepsChange h d (d.cyxHalt q code) := by
  have hput : KeepsChange h d (d.put (ctl .cyx q) CYX.STATE_CODE code) := keepsChange_put h d _ _ (by decide) (by decide) (by decide) (by decide)
  have hmod := hput.trans (keepsChange_modCyx h q _ (g := fun x => { x with phase := 0, stopReq := false, restart := none }) fun _ => rfl)
  exact keepsChange_ite _ (hmod.trans (keepsChange_of_ctlPart (ctlPart_fioSafe ..))) hmod

theorem keepsChange_laneTable (h q : HalfId) (d : Dev) : KeepsChange h d (d.laneTable q) :=
  keepsChange_ite _ (keepsChange_of_regs rfl rfl) (KeepsChange.refl h d)

theorem keepsChange_showImage (h q : HalfId) (d : Dev) : KeepsChange h d (d.showImage q) := by
  exact (keepsChange_laneTable h q d).trans <| (keepsChange_show h _ _ CYX.IMG_ID _ (by decide) (by decide) (by decide)).trans <|
    (keepsChange_show h _ _ CYX.RET_BASE _ (by decide) (by decide) (by decide)).trans <|
    (keepsChange_show h _ _ CYX.RET_SIZE _ (by decide) (by decide) (by decide)).trans <|
    (keepsChange_show h _ _ CYX.SHADOW_BASE _ (by decide) (by decide) (by decide)).trans <|
    (keepsChange_show h _ _ TMC.USED_TIMERS _ (by decide) (by decide) (by decide)).trans <|
    keepsChange_show h _ _ TMC.USED_EDGES _ (by decide) (by decide) (by decide)

/-- The memory and the cells that a start gives a half. -/
def startMem (d : Dev) (h : HalfId) (pr : Program) (cold : Bool) : Dev :=
  let m := (d.half h).sram
  let m := if cold then memClear (memClear m pr.data.1 pr.data.2) pr.ret.1 pr.ret.2 else m
  let d := (d.setSram h (initVars pr (fun v => !cold && v.retained) m)).heal h (if cold then [pr.data, pr.ret] else [])
  if cold then d.modCyx h (fun x => { x with cells := pr.cells.map Cell.init }) else d

theorem keepsChange_startMem (h q : HalfId) (d : Dev) (pr : Program) (cold : Bool) : KeepsChange h d (d.startMem q pr cold) := by
  unfold startMem
  dsimp only
  have hmem (m : List Host.Cell) (rs : List (Nat × Nat)) : KeepsChange h d ((d.setSram q m).heal q rs) :=
    keepsChange_of_regs (by rw [heal, cyx_modHlf, cyx_setSram]) (by rw [heal, regs_modHlf, setSram, modHalf_regs])
  exact keepsChange_ite _ ((hmem _ _).trans (keepsChange_modCyx h q _ fun _ => rfl)) (hmem _ _)

theorem keepsChange_startHalf (h q : HalfId) (d : Dev) (cold : Bool) : KeepsChange h d (d.startHalf q cold) := by
  unfold startHalf
  dsimp only
  split
  · exact KeepsChange.refl h d
  case h_2 pr _ =>
    set c := cold || !(d.cyx q).valid
    have hfirst (d : Dev) : KeepsChange h d (d.put (ctl .cyx q) CYX.STATE_FIRST 1) := by
      refine ⟨?_, fun hf => ?_⟩
      · simp (disch := decide) only [changeView, olc, cyx_put, get_put_field]
      · by_cases hq : q = h
        · subst hq
          exact get_put_same _ _ _ _ _ _ (by decide)
        · rw [get_put_other _ _ (by cases q <;> cases h <;> first | exact absurd rfl hq | decide) (by decide) (by decide) (by decide) (by decide) (by decide)
            (by decide), hf]
    exact (keepsChange_startMem h q d pr c).trans <| (keepsChange_show h _ _ CYX.STATE_CODE _ (by decide) (by decide) (by decide)).trans <|
      (keepsChange_show h _ _ CYX.STATE_COLD _ (by decide) (by decide) (by decide)).trans <| (hfirst _).trans <| (keepsChange_showImage h q _).trans <|
      (keepsChange_modCyx h q _
        (g := fun x => { x with valid := true, restart := none, stopReq := false, phase := 0 }) fun _ => rfl).trans <| keepsChange_show h _ _ HDR.STAT_BLOCK _ (by decide) (by decide) (by decide)

theorem keepsChange_afterPublish (h q : HalfId) (d : Dev) : KeepsChange h d (d.afterPublish q) := by
  unfold afterPublish
  dsimp only
  split
  · have h1 := keepsChange_cyxHalt h q d 0
    exact keepsChange_ite _ (h1.trans (keepsChange_cyxHalt h q.other _ 0)) h1
  · split
    case h_1 c _ =>
      have h1 := keepsChange_startHalf h q d c
      exact keepsChange_ite _ (h1.trans (keepsChange_startHalf h q.other _ c)) h1
    · exact KeepsChange.refl h d

theorem keepsChange_rxLand (h q : HalfId) (d : Dev) : KeepsChange h d (d.rxLand q) := by
  unfold rxLand
  split
  · exact keepsChange_of_regs (cyx_fillSram ..) (regs_fillSram ..)
  · exact KeepsChange.refl h d

theorem keepsChange_sendState (h q : HalfId) (d : Dev) (st : CycState) : KeepsChange h d (d.sendState q st) := by
  unfold sendState
  dsimp only
  split
  · have hfresh : KeepsChange h d d.fresh.2 := keepsChange_of_regs (by cases h <;> rfl) rfl
    have hmod := hfresh.trans (keepsChange_modCyx h q.other d.fresh.2
      (g := fun x => { x with rxq := x.rxq ++ [{ st with bytes := d.fresh.1.toNat % 2 ^ 24 }] }) fun _ => rfl)
    exact (keepsChange_ite _ (hmod.trans (keepsChange_rxLand h q.other _)) hmod).trans <| (keepsChange_show h _ _ MIR.CYC_BYTES_N _ (by decide) (by decide) (by decide)).trans <|
      keepsChange_show h _ _ MIR.BACKLOG_BYTES _ (by decide) (by decide) (by decide)
  · exact KeepsChange.refl h d

/-- What waits for the end of a switch, once the mark of the switch is gone. -/
theorem keepsChange_endSwitch (h : HalfId) (d : Dev) : KeepsChange h (d.modCyx h (fun x => { x with pub := none, switchNow := false })) (d.endSwitch h) := by
  unfold endSwitch
  dsimp only
  split
  · exact (keepsChange_ite _ (keepsChange_sendState h h _ _) (KeepsChange.refl h _)).trans (keepsChange_afterPublish h h _)
  · exact keepsChange_afterPublish h h _

/-! ### The switch -/

theorem keepsChange_err (h : HalfId) (d : Dev) (p c x : Nat) : KeepsChange h d (d.err p c x) :=
  (keepsChange_show h _ _ HDR.ERR_COUNT _ (by decide) (by decide) (by decide)).trans <|
    (keepsChange_show h _ _ HDR.ERR_CODE _ (by decide) (by decide) (by decide)).trans <|
    keepsChange_show h _ _ HDR.ERR_DETAIL _ (by decide) (by decide) (by decide)

theorem keepsChange_fault (h : HalfId) (d : Dev) (p c x : Nat) (ws : List Nat) : KeepsChange h d (d.fault p c x ws) :=
  (keepsChange_err h d p c x).trans (keepsChange_of_ctlPart (ctlPart_note ..))

theorem keepsChange_foldl {α : Type} {h : HalfId} {f : Dev → α → Dev} : ∀ (l : List α) (d : Dev), (∀ d, ∀ x ∈ l, KeepsChange h d (f d x)) →
    KeepsChange h d (l.foldl f d)
  | [], d, _ => KeepsChange.refl h d
  | x :: l, d, hf => (hf d x List.mem_cons_self).trans (keepsChange_foldl l _ fun d y hy => hf d y (List.mem_cons_of_mem x hy))

theorem keepsChange_dropForces (h q : HalfId) (d : Dev) (pr : Program) : KeepsChange h d (d.dropForces q pr).1 := by
  unfold dropForces
  dsimp only
  refine (keepsChange_foldl _ d fun d i hi => ?_).trans (keepsChange_show h _ _ FRC.USED_N _ (by decide) (by decide) (by decide))
  have hi : i < 65536 := Nat.lt_trans (List.mem_range.mp (List.mem_filter.mp (List.mem_filter.mp hi).1).1) (by decide)
  have hcount := ((keepsChange_put h d (ctl .frc q) (f := FRC.CFG_EN) 0 (i := 0) (by decide) (by decide) (by decide) hi).trans
    (keepsChange_put h _ (ctl .frc q) (f := FRC.ESTAT_DROPPED) 1 (i := 0) (by decide) (by decide) (by decide) hi)).trans
    (keepsChange_bump h _ (ctl .frc q) FRC.DROPS_COUNT (by decide) (by decide) (by decide))
  split
  · exact hcount.trans (keepsChange_fault ..)
  · exact hcount.trans (keepsChange_err ..)

/-- The state of a half at the place in its switch where it has taken the new image. -/
def imageTaken (d : Dev) (h : HalfId) (new_ : Image) : Dev :=
  let cs := (d.cyx h).cells
  let d1 := (d.dropForces h new_.prog).1
  let d2 := d1.setSram h (initVars new_.prog (fun v => (d.prog h).vars.any (fun o => o.id == v.id)) (d1.half h).sram)
  d2.modCyx h (fun x => { x with cells := new_.prog.cells.map (carryCell cs), oldCells := cs, old := (d2.cyx h).img, img := some new_, idle := none })

/-- What a switch shows, with its two counts. -/
def showSwitch (d : Dev) (h : HalfId) (c1 c2 ns : Nat) : Dev :=
  let p := ctl .cyx h
  let d := ((d.showImage h).put p CYX.IMG_BANK (1 - d.get p CYX.IMG_BANK)).put p CYX.OLC_CNT1 c1
  ((((d.put p CYX.OLC_CNT2 c2).put p CYX.OLC_SW_NS ns).put p CYX.STATE_FIRST 1).stat p 2).setOlc h 4 0

theorem switchHalf_eq (d : Dev) (h : HalfId) (new_ : Image) (ns : Nat) : ∃ c1 c2, d.switchHalf h new_ ns = (d.imageTaken h new_).showSwitch h c1 c2 (satU 16 ns) := by
  unfold switchHalf imageTaken showSwitch
  exact ⟨_, _, rfl⟩

theorem switchHalf_shows (d : Dev) (h : HalfId) (new_ : Image) (ns : Nat) : let e := d.switchHalf h new_ ns
    (e.cyx h).img = some new_ ∧ (e.cyx h).old = (d.cyx h).img ∧ e.olc h = 4 ∧ e.get (ctl .cyx h) CYX.STATE_FIRST = 1 ∧
      e.get (ctl .cyx h) CYX.IMG_BANK = (1 - d.get (ctl .cyx h) CYX.IMG_BANK) % 2 ^ CYX.IMG_BANK.w := by
  intro e
  obtain ⟨c1, c2, he⟩ : ∃ c1 c2, e = (d.imageTaken h new_).showSwitch h c1 c2 (satU 16 ns) := switchHalf_eq d h new_ ns
  have hdrop := (keepsChange_dropForces h h d new_.prog).1
  have hshow := (keepsChange_showImage h h (d.imageTaken h new_)).1
  simp only [changeView, Prod.mk.injEq] at hdrop hshow
  obtain ⟨hwas, -, -, -, -, hbank⟩ := hdrop
  obtain ⟨himg, hold, -⟩ := hshow
  have htaken : (d.imageTaken h new_).get (ctl .cyx h) CYX.IMG_BANK = d.get (ctl .cyx h) CYX.IMG_BANK := by
    rw [imageTaken, get_modCyx, setSram, get_modHalf, hbank]
  have hcyx : e.cyx h = ((d.imageTaken h new_).showImage h).cyx h := by simp only [he, showSwitch, cyx_setOlc, cyx_stat, cyx_put]
  refine ⟨?_, ?_, ?_, ?_, ?_⟩
  · rw [hcyx, himg, imageTaken, cyx_modCyx_same]
  · rw [hcyx, hold, imageTaken, cyx_modCyx_same]
    dsimp only
    rw [cyx_setSram, hwas]
  · rw [he]
    exact olc_setOlc _ h 0 (by decide)
  · simp (disch := decide) only [he, showSwitch, setOlc, get_stat_apart, get_put_apart, get_put_same]
    rfl
  · simp (disch := decide) only [he, showSwitch, setOlc, get_stat_apart, get_put_apart, get_put_same, htaken]

/-- A write of the executive's page of the other half. -/
theorem keepsChange_put_other (h : HalfId) (d : Dev) (f : Fld) (v : Nat) (hf : f.fits = true) (hi : 0 < f.cnt) :
    KeepsChange h d (d.put (ctl .cyx h.other) f v) :=
  keepsChange_of_gets (cyx_put ..) fun g hg => get_put_other d v (by cases h <;> decide) hf (fits_changeFields hg).1 hi (fits_changeFields hg).2 (by decide)
    (by decide)

/-- The switch of the other half is no affair of this one. -/
theorem keepsChange_switchHalf_other (h : HalfId) (d : Dev) (new_ : Image) (ns : Nat) : KeepsChange h d (d.switchHalf h.other new_ ns) := by
  obtain ⟨c1, c2, he⟩ := switchHalf_eq d h.other new_ ns
  have htaken : KeepsChange h d (d.imageTaken h.other new_) := by
    refine (keepsChange_dropForces h h.other d new_.prog).trans (keepsChange_of_gets ?_ fun f _ => ?_)
    · rw [imageTaken, cyx_modCyx_mine, cyx_setSram]
    · rw [imageTaken, get_modCyx, setSram, get_modHalf]
  have hput (d : Dev) (f : Fld) (v : Nat) (hf : f.fits = true) (hi : 0 < f.cnt) := keepsChange_put_other h d f v hf hi
  rw [he]
  exact htaken.trans <| (keepsChange_showImage h h.other _).trans <| (hput _ CYX.IMG_BANK _ (by decide) (by decide)).trans <|
    (hput _ CYX.OLC_CNT1 _ (by decide) (by decide)).trans <| (hput _ CYX.OLC_CNT2 _ (by decide) (by decide)).trans <|
    (hput _ CYX.OLC_SW_NS _ (by decide) (by decide)).trans <| (hput _ CYX.STATE_FIRST _ (by decide) (by decide)).trans <|
    (hput _ HDR.STAT_BLOCK _ (by decide) (by decide)).trans <| (hput _ CYX.OLC_STAT_STATE _ (by decide) (by decide)).trans <|
    hput _ CYX.OLC_STAT_REASON _ (by decide) (by decide)

/-! ### The forces -/

/-- Staging another entry of a table leaves a staged value. -/
theorem staged_stage_entry (d : Dev) (w : Who) (p : Nat) (half : Option HalfId) (f : Fld) {i t u : Nat} (v : Nat) (h : u ≠ t) :
    (d.stage w p half f i u v).staged? p half f i t = d.staged? p half f i t := by
  have hother (e : Staged) (he : names p half f i t e = true) : names p half f i u e = false := by
    obtain ⟨-, -, -, -, ht⟩ := of_decide_eq_true he
    exact decide_eq_false fun ⟨_, _, _, _, hu⟩ => h (hu.symm.trans ht)
  have hnew : names p half f i t ⟨p, f, i, u, half, BitVec.ofNat 32 (v % 2 ^ f.w), w.mid, d.privByte w, false⟩ = false :=
    decide_eq_false fun ⟨_, _, _, _, hu⟩ => h hu
  rw [staged?_eq, staged?_eq, stage_shadow, List.find?_append, List.find?_filter, List.find?_cons, hnew, List.find?_nil, Option.or_none]
  refine congrArg (fun q => d.shadow.find? q) (funext fun e => ?_)
  cases he : names p half f i t e with
  | false => simp
  | true => simp [hother e he]

theorem headerOnly_stages (w : Who) (p : Nat) (f : Fld) (v : Nat) : ∀ (l : List Nat) (d : Dev), HeaderOnly p d (l.foldl (fun d t => d.stage w p none f 0 t v) d)
  | [], d => HeaderOnly.refl p d
  | t :: l, d => (headerOnly_stage d w p none f 0 t v).trans (headerOnly_stages w p f v l _)

/-- Each entry of a table staged in turn. -/
theorem view_stages (w : Who) (p : Nat) (f : Fld) (v : Nat) (hw : f.w ≤ 32) {n : Nat} : ∀ (l : List Nat) (d : Dev),
    n ∈ l ∨ d.view p none f 0 n = v % 2 ^ f.w ∧ (d.staged? p none f 0 n).isSome = true →
    (l.foldl (fun d t => d.stage w p none f 0 t v) d).view p none f 0 n = v % 2 ^ f.w
  | [], d, hn => (hn.resolve_left List.not_mem_nil).1
  | t :: l, d, hn => by
    refine view_stages w p f v hw l _ ?_
    by_cases ht : t = n
    · subst ht
      exact .inr ⟨view_stage_same d w p none f 0 t v hw, by rw [staged_stage_same]; rfl⟩
    · refine hn.imp (fun hm => (List.mem_cons.mp hm).resolve_left fun e => ht e.symm) fun ⟨hv, hs⟩ => ?_
      have hst := staged_stage_entry d w p none f (i := 0) v ht
      refine ⟨?_, by rw [hst]; exact hs⟩
      obtain ⟨e, he⟩ := Option.isSome_iff_exists.mp hs
      rw [view, he] at hv
      rw [view, hst, he]
      exact hv

/-! ### The code of a loaded image -/

@[simp] theorem half_showOlc (d : Dev) (h q : HalfId) (st reason : Nat) : (d.showOlc h st reason).half q = d.half q := by
  unfold showOlc
  dsimp only
  split <;> simp [setOlc]

/-- The copy of an image that has ended well, before the change shows it. -/
theorem olcLoaded_eq (d : Dev) (h : HalfId) (i : Image) (hst : d.olc h = 1) (hidle : (d.cyx h).idle = some i) : ∃ e : Dev,
    d.olcLoaded h true = e.showOlc h 2 0 ∧ (e.cyx h).idle = some i ∧ (d.mirrors h.other = true → (e.cyx h.other).idle = some i) ∧ e.regs = d.regs ∧
      (e.half h).sram = refill (d.half h).sram (bankAt (d.prog h) (1 - d.get (ctl .cyx h) CYX.IMG_BANK)) (d.prog h).bank i.prog.code ∧ e.mram = d.mram := by
  set b := 1 - d.get (ctl .cyx h) CYX.IMG_BANK with hb
  set e1 := (d.setIdle h (some i)).loadBank h (d.prog h) b i with he1
  have hcyx (q : HalfId) : e1.cyx q = (d.setIdle h (some i)).cyx q := by rw [he1, loadBank, cyx_fillSram]
  have hregs : e1.regs = d.regs := by rw [he1, loadBank, regs_fillSram, regs_setIdle]
  have hsetIdle : ((d.setIdle h (some i)).half h).sram = (d.half h).sram ∧ (d.setIdle h (some i)).mram = d.mram := by
    unfold setIdle modCyx
    dsimp only
    split <;> cases h <;> exact ⟨rfl, rfl⟩
  have hsram : (e1.half h).sram = refill (d.half h).sram (bankAt (d.prog h) b) (d.prog h).bank i.prog.code := by
    rw [he1, loadBank, half_fillSram, hsetIdle.1]
  have hmram : e1.mram = d.mram := by rw [he1, loadBank, mram_fillSram, hsetIdle.2]
  have hmine : (e1.cyx h).idle = some i := by rw [hcyx, idle_setIdle]
  have hload : d.olcLoaded h true = (if e1.mirrors h.other then e1.loadBank h.other (d.prog h) b i else e1).showOlc h 2 0 := by
    simp only [olcLoaded, hst, hidle, if_true]
    rfl
  rw [hload]
  split
  case isTrue hm =>
    refine ⟨_, rfl, ?_, fun hm' => ?_, ?_, ?_, ?_⟩
    · rw [loadBank, cyx_fillSram, hmine]
    · rw [loadBank, cyx_fillSram, hcyx, idle_setIdle_other d h (some i) hm']
    · rw [loadBank, regs_fillSram, hregs]
    · have hoth : (e1.loadBank h.other (d.prog h) b i).half h = e1.half h := by cases h <;> exact half_fillSram_other ..
      rw [hoth, hsram]
    · rw [loadBank, mram_fillSram, hmram]
  case isFalse hm =>
    exact ⟨e1, rfl, hmine, fun hm' => by rw [hcyx, idle_setIdle_other d h (some i) hm'], hregs, hsram, hmram⟩

/-! ### The search of a cell -/

/-- What a search that has found a cell shows. -/
def showFound (d : Dev) (h : HalfId) (id k edge : Nat) : Dev :=
  (((d.put (ctl .tmc h) TMC.FIND_ID_ID id).put (ctl .tmc h) TMC.SEL_IDX k).put (ctl .tmc h) TMC.SEL_EDGE edge).put (ctl .tmc h) TMC.FIND_HIT 1

theorem keeps_showFound (d : Dev) (h : HalfId) (id k edge : Nat) : d.keeps (d.showFound h id k edge) [ctl .tmc h] := by
  simp (disch := first | decide | simp) [showFound, keeps_put_iff]

theorem showFound_shows (d : Dev) (h : HalfId) (id k edge : Nat) : let e := d.showFound h id k edge
    e.get (ctl .tmc h) TMC.FIND_HIT = 1 ∧ e.get (ctl .tmc h) TMC.SEL_IDX = k % 2 ^ TMC.SEL_IDX.w ∧ e.get (ctl .tmc h) TMC.SEL_EDGE = edge % 2 := by
  simp (disch := decide) only [showFound, get_put_apart, get_put_same]
  exact ⟨rfl, trivial, rfl⟩

end Dev

section
variable {s : State} (hout : s.out = true) (h : HalfId)
include hout

theorem olcLoad_loads (i : Image) (ha : s.dev.active h = true) (hcode : s.dev.get (ctl .cyx h) CYX.STATE_CODE = 1)
    (hst : s.dev.olc h = 0 ∨ s.dev.olc h = 5 ∨ s.dev.olc h = 6)
    (hsig : s.dev.imgWhy s.dev.mram (s.dev.get (ctl .cyx h) CYX.OLC_SRC_OFS * 65536) = none)
    (himg : Dev.imgLoad s.dev.mram (s.dev.get (ctl .cyx h) CYX.OLC_SRC_OFS * 65536) = some i) (hwhy : s.dev.olcWhy h (s.dev.prog h) i.prog = none) :
    ∃ t, exec (.olcLoad h) s = .next t ∧ t.pending = s.pending ∧ t.dev.olc h = 1 ∧ (t.dev.cyx h).idle = some i ∧ (t.dev.cyx h).img = (s.dev.cyx h).img ∧
      s.dev.keeps t.dev [ctl .cyx h] := by
  have hload : s.dev.olcLoad h = (s.dev.setOlc h 1 0).modCyx h (fun x => { x with idle := some i }) := by
    rcases hst with hst | hst | hst <;> simp [Dev.olcLoad, ha, hcode, hst, hsig, himg, hwhy]
  refine ⟨_, next_of_out_eq hout rfl hload, rfl, ?_, ?_, ?_, ?_⟩
  · exact (Dev.get_modCyx ..).trans (Dev.olc_setOlc s.dev h 0 (by decide))
  · rw [State.dev_mk, Dev.cyx_modCyx_same]
  · rw [State.dev_mk, Dev.cyx_modCyx_same, Dev.cyx_setOlc]
  · exact (Dev.keeps_modCyx_iff ..).mpr (Dev.keeps_setOlc s.dev h 1 0)

theorem olcLoad_unsigned (w : Nat) (ha : s.dev.active h = true) (hcode : s.dev.get (ctl .cyx h) CYX.STATE_CODE = 1)
    (hst : s.dev.olc h = 0 ∨ s.dev.olc h = 5 ∨ s.dev.olc h = 6)
    (hsig : s.dev.imgWhy s.dev.mram (s.dev.get (ctl .cyx h) CYX.OLC_SRC_OFS * 65536) = some w) :
    ∃ t, exec (.olcLoad h) s = .next t ∧ t.pending = s.pending ∧ t.dev.olc h = 6 ∧ (t.dev.cyx h).idle = none ∧
      t.dev.get (ctl .cyx h) CYX.OLC_STAT_REASON = (if w = cRANGE then cSIGNATURE else w) % 2 ^ 8 ∧ s.dev.keeps t.dev [ctl .cyx .a, ctl .cyx .b] := by
  have hload : s.dev.olcLoad h = s.dev.olcFail h (if w = cRANGE then cSIGNATURE else w) := by
    rcases hst with hst | hst | hst <;> simp [Dev.olcLoad, ha, hcode, hst, hsig]
  refine ⟨_, next_of_out_eq hout rfl hload, rfl, Dev.olc_olcFail .., ?_, Dev.reason_olcFail .., Dev.keeps_olcFail ..⟩
  rw [State.dev_mk, Dev.cyx_olcFail]

theorem olcLoad_unfit (i : Image) (w : Nat × Nat) (ha : s.dev.active h = true) (hcode : s.dev.get (ctl .cyx h) CYX.STATE_CODE = 1)
    (hst : s.dev.olc h = 0 ∨ s.dev.olc h = 5 ∨ s.dev.olc h = 6)
    (hsig : s.dev.imgWhy s.dev.mram (s.dev.get (ctl .cyx h) CYX.OLC_SRC_OFS * 65536) = none)
    (himg : Dev.imgLoad s.dev.mram (s.dev.get (ctl .cyx h) CYX.OLC_SRC_OFS * 65536) = some i) (hwhy : s.dev.olcWhy h (s.dev.prog h) i.prog = some w) :
    ∃ t, exec (.olcLoad h) s = .next t ∧ t.pending = s.pending ∧ t.dev.olc h = 6 ∧ (t.dev.cyx h).idle = none ∧
      t.dev.get (ctl .cyx h) CYX.OLC_STAT_REASON = w.1 % 2 ^ 8 ∧ t.dev.get (ctl .cyx h) HDR.ERR_DETAIL = w.2 % 2 ^ 16 ∧
      (s.dev.mirrors h.other = true → t.dev.olc h.other = 6) ∧ s.dev.keeps t.dev [ctl .cyx .a, ctl .cyx .b] := by
  have hload : s.dev.olcLoad h = s.dev.olcFail h w.1 w.2 := by
    rcases hst with hst | hst | hst <;> simp [Dev.olcLoad, ha, hcode, hst, hsig, himg, hwhy]
  refine ⟨_, next_of_out_eq hout rfl hload, rfl, Dev.olc_olcFail .., ?_, Dev.reason_olcFail .., Dev.detail_olcFail .., Dev.olc_olcFail_other _ h _ _,
    Dev.keeps_olcFail ..⟩
  rw [State.dev_mk, Dev.cyx_olcFail]

theorem olc_outOfTurn (i : Instr) (ha : s.dev.active h = true)
    (hi : i = .olcLoad h ∧ s.dev.get (ctl .cyx h) CYX.STATE_CODE ≠ 1 ∨ i = .olcSwitch h ∧ s.dev.olc h ≠ 2 ∨
      i = .olcCancel h ∧ s.dev.olc h ≠ 2 ∧ s.dev.olc h ≠ 3) :
    ∃ t, exec i s = .next t ∧ t.pending = s.pending ∧ t.dev.olc h = s.dev.olc h ∧ t.dev.get (ctl .cyx h) HDR.ERR_CODE = cOLC_STATE ∧
      t.dev.cyx h = s.dev.cyx h ∧ s.dev.keeps t.dev [ctl .cyx h] := by
  have herr : exec i s = .next { s with dev := s.dev.err (ctl .cyx h) cOLC_STATE (s.dev.olc h) } := by
    rcases hi with ⟨rfl, hc⟩ | ⟨rfl, hst⟩ | ⟨rfl, h2, h3⟩
    · exact next_of_out_eq hout rfl (by simp [Dev.olcLoad, ha, hc])
    · exact next_of_out_eq hout rfl (by simp [Dev.olcSwitch, ha, hst])
    · exact next_of_out_eq hout rfl (by simp [Dev.olcCancel, ha, h2, h3])
  refine ⟨_, herr, rfl, ?_, ?_, Dev.cyx_err .., (Dev.keeps_err_iff (by simp)).mpr (Dev.keeps_refl _ _)⟩
  · exact Dev.get_err_apart _ _ _ (by decide) (by decide) (by decide) (by decide)
  · rw [State.dev_mk, Dev.err]
    simp (disch := decide) only [Dev.get_put_apart, Dev.get_put_same]
    rfl

theorem olcLoadDone_fails (i : Image) (ha : s.dev.active h = true) (hst : s.dev.olc h = 1) (hidle : (s.dev.cyx h).idle = some i) :
    ∃ t, exec (.olcLoadDone h false) s = .next t ∧ t.pending = s.pending ∧ t.dev.olc h = 6 ∧ (t.dev.cyx h).idle = none ∧
      t.dev.get (ctl .cyx h) CYX.OLC_STAT_REASON = cECC ∧ s.dev.keeps t.dev [ctl .cyx .a, ctl .cyx .b] := by
  have hdone : (if s.dev.active h then s.dev.olcLoaded h false else s.dev) = s.dev.olcFail h cECC := by simp [Dev.olcLoaded, ha, hst, hidle]
  refine ⟨_, next_of_out_eq hout rfl hdone, rfl, Dev.olc_olcFail .., ?_, Dev.reason_olcFail .., Dev.keeps_olcFail ..⟩
  rw [State.dev_mk, Dev.cyx_olcFail]

theorem olcSwitch_arms (ha : s.dev.active h = true) (hcode : s.dev.get (ctl .cyx h) CYX.STATE_CODE = 1) (hst : s.dev.olc h = 2) :
    ∃ t, exec (.olcSwitch h) s = .next t ∧ t.pending = s.pending ∧ t.dev.olc h = 3 ∧ s.dev.keeps t.dev [ctl .cyx h] :=
  ⟨_, next_of_out_eq hout rfl (e' := s.dev.setOlc h 3 0) (by simp [Dev.olcSwitch, ha, hcode, hst]), rfl, Dev.olc_setOlc _ h 0 (by decide), Dev.keeps_setOlc ..⟩

theorem olcCancel_cancels (ha : s.dev.active h = true) (hcode : s.dev.get (ctl .cyx h) CYX.STATE_CODE = 1) (hst : s.dev.olc h = 2 ∨ s.dev.olc h = 3) :
    ∃ t, exec (.olcCancel h) s = .next t ∧ t.pending = s.pending ∧ t.dev.olc h = 0 ∧ (t.dev.cyx h).idle = none ∧
      (t.dev.cyx h).img = (s.dev.cyx h).img ∧ (t.dev.cyx h).switchNow = false ∧
      ((s.dev.cyx h).switchNow = false → s.dev.keeps t.dev [ctl .cyx .a, ctl .cyx .b]) := by
  have hcyx : ((s.dev.showOlc h 0 0).setIdle h none).cyx h = { s.dev.cyx h with idle := none } := by rw [Dev.idle_setIdle, Dev.cyx_showOlc]
  have holc : ((s.dev.showOlc h 0 0).setIdle h none).olc h = 0 := (Dev.get_setIdle ..).trans (Dev.olc_showOlc s.dev h 0 (by decide))
  have hcancel : s.dev.olcCancel h = if (s.dev.cyx h).switchNow then ((s.dev.showOlc h 0 0).setIdle h none).endSwitch h
      else (s.dev.showOlc h 0 0).setIdle h none := by
    rcases hst with hst | hst <;> simp [Dev.olcCancel, ha, hcode, hst, hcyx]
  refine ⟨_, next_of_out_eq hout rfl hcancel, rfl, ?_⟩
  rw [State.dev_mk]
  split
  case isTrue hnow =>
    have hend := (Dev.keepsChange_endSwitch h ((s.dev.showOlc h 0 0).setIdle h none)).1
    simp only [Dev.changeView, Dev.cyx_modCyx_same, hcyx, Prod.mk.injEq] at hend
    obtain ⟨himg, -, hidle, hsw, holc', -⟩ := hend
    exact ⟨holc'.trans ((Dev.get_modCyx ..).trans holc), hidle, himg, hsw, fun hno => absurd (hnow.symm.trans hno) (by decide)⟩
  case isFalse hnow =>
    rw [hcyx]
    exact ⟨holc, rfl, rfl, by simpa using hnow, fun _ => (Dev.keeps_setIdle_iff ..).mpr (Dev.keeps_showOlc s.dev h 0 0)⟩

theorem olcSwitchExec_switches (i : Image) (ns : BitVec 16) (hnow : (s.dev.cyx h).switchNow = true) (hidle : (s.dev.cyx h).idle = some i) :
    ∃ t, exec (.olcSwitchExec h ns) s = .next t ∧ t.pending = s.pending ∧ (t.dev.cyx h).img = some i ∧ (t.dev.cyx h).old = (s.dev.cyx h).img ∧
      t.dev.olc h = 4 ∧ t.dev.get (ctl .cyx h) CYX.STATE_FIRST = 1 ∧
      t.dev.get (ctl .cyx h) CYX.IMG_BANK = (1 - s.dev.get (ctl .cyx h) CYX.IMG_BANK) % 2 ^ CYX.IMG_BANK.w := by
  obtain ⟨himg, hold, holc, hfirst, hbank⟩ := Dev.switchHalf_shows s.dev h i ns.toNat
  obtain ⟨e, he, hk⟩ : ∃ e, exec (.olcSwitchExec h ns) s = .next { s with dev := e.endSwitch h } ∧ Dev.KeepsChange h (s.dev.switchHalf h i ns.toNat) e := by
    refine ⟨if (s.dev.switchHalf h i ns.toNat).mirrors h.other && (s.dev.switchHalf h i ns.toNat).get (ctl .hlf h.other) HLF.STATE_OWN == 1 then
      (s.dev.switchHalf h i ns.toNat).switchHalf h.other i ns.toNat else s.dev.switchHalf h i ns.toNat, next_of_out_eq hout rfl ?_,
      Dev.keepsChange_ite _ (Dev.keepsChange_switchHalf_other h _ i ns.toNat) (Dev.KeepsChange.refl h _)⟩
    simp only [hnow, hidle]
  obtain ⟨hend, hend1⟩ := Dev.keepsChange_endSwitch h e
  obtain ⟨hview, hview1⟩ := hk
  simp only [Dev.changeView, Dev.cyx_modCyx_same, Dev.olc, Dev.get_modCyx, Prod.mk.injEq] at hend hview
  obtain ⟨himg1, hold1, -, -, holc1, hbank1⟩ := hend
  obtain ⟨himg2, hold2, -, -, holc2, hbank2⟩ := hview
  exact ⟨_, he, rfl, himg1.trans (himg2.trans himg), hold1.trans (hold2.trans hold), holc1.trans (holc2.trans holc),
    hend1 ((Dev.get_modCyx ..).trans (hview1 hfirst)), hbank1.trans (hbank2.trans hbank)⟩

theorem olcDone_releases (c : CycState) (hst : s.dev.olc h = 4) (hsh : (s.dev.cyx h.other).shadow = some c) :
    (c.bank = s.dev.get (ctl .cyx h) CYX.IMG_BANK → ∃ t, exec (.olcDone h) s = .next t ∧ t.pending = s.pending ∧ t.dev.olc h = 5 ∧ t.dev.olc h.other = 5 ∧
      (t.dev.cyx h).old = none ∧ s.dev.keeps t.dev [ctl .cyx .a, ctl .cyx .b]) ∧
    (c.bank ≠ s.dev.get (ctl .cyx h) CYX.IMG_BANK → exec (.olcDone h) s = .next s) := by
  constructor
  · intro hb
    refine ⟨_, next_of_out_eq hout rfl (e' := (((s.dev.setOlc h 5 0).setOlc h.other 5 0).releaseOld h).releaseOld h.other) ?_, rfl, ?_, ?_, ?_, ?_⟩
    · simp [hst, hsh, hb]
    · refine (Dev.get_modCyx ..).trans ((Dev.get_modCyx ..).trans ((Dev.get_setOlc_other _ h 5 0 (by decide) (by decide)).trans ?_))
      exact Dev.olc_setOlc s.dev h 0 (by decide)
    · exact (Dev.get_modCyx ..).trans ((Dev.get_modCyx ..).trans (Dev.olc_setOlc _ h.other 0 (by decide)))
    · simp [Dev.releaseOld]
    · have hone (d : Dev) (q : HalfId) : d.keeps (d.setOlc q 5 0) [ctl .cyx .a, ctl .cyx .b] :=
        Dev.keeps_mono (Dev.keeps_setOlc d q 5 0) (by cases q <;> simp)
      simp only [Dev.releaseOld, Dev.keeps_modCyx_iff]
      exact Dev.keeps_trans (hone s.dev h) (hone _ h.other)
  · intro hb
    exact next_of_out_eq hout rfl (by simp [hst, hsh, hb])

theorem frcClrAll_stages (mid : BitVec 8) (m : Bool) (ha : s.dev.active h = true) :
    ∃ t, exec (.frcClrAll h mid m) s = .next t ∧ t.pending = s.pending ∧ s.dev.keeps t.dev [ctl .frc h] ∧
      ∀ n : Fin 512, t.dev.view (ctl .frc h) none FRC.CFG_EN 0 n = 0 ∧ t.dev.get (ctl .frc h) FRC.CFG_EN 0 n = s.dev.get (ctl .frc h) FRC.CFG_EN 0 n := by
  obtain ⟨hk, hget⟩ := Dev.headerOnly_stages ⟨mid.toNat, m⟩ (ctl .frc h) FRC.CFG_EN 0 (List.range 512) s.dev
  obtain ⟨e, he⟩ : ∃ e, s.dev.frcClrAll h ⟨mid.toNat, m⟩ = e := ⟨_, rfl⟩
  rw [← Dev.frcClrAll, he] at hk hget
  have hclr : (if s.dev.active h then s.dev.frcClrAll h ⟨mid.toNat, m⟩ else s.dev) = e := by rw [if_pos ha, he]
  refine ⟨_, next_of_out_eq hout rfl hclr, rfl, hk, fun n => ⟨?_, ?_⟩⟩
  · have hn : n.val ∈ List.range 512 := List.mem_range.mpr n.isLt
    have hv := Dev.view_stages ⟨mid.toNat, m⟩ (ctl .frc h) FRC.CFG_EN 0 (by decide) (List.range 512) s.dev (.inl hn)
    rw [← Dev.frcClrAll, he, Nat.zero_mod] at hv
    exact hv
  · exact hget _ _ _ _ (by decide) (inside_of_fits (by decide) (by decide) (Nat.lt_trans n.isLt (by decide)))

theorem olcLoadDone_fills (i : Image) (ha : s.dev.active h = true) (hst : s.dev.olc h = 1) (hidle : (s.dev.cyx h).idle = some i) :
    let lay := s.dev.prog h
    let a := Dev.bankAt lay (1 - s.dev.get (ctl .cyx h) CYX.IMG_BANK)
    ∃ t, exec (.olcLoadDone h true) s = .next t ∧ t.pending = s.pending ∧ t.dev.olc h = 2 ∧ (t.dev.cyx h).idle = some i ∧
      (s.dev.mirrors h.other = true → t.dev.olc h.other = 2 ∧ (t.dev.cyx h.other).idle = some i) ∧
      (∀ j, j < lay.bank → memRead (t.dev.half h).sram (a + j) = BitVec.ofNat 8 (i.prog.code.getD j 0)) ∧
      (∀ x, x < a ∨ a + lay.bank ≤ x → memRead (t.dev.half h).sram x = memRead (s.dev.half h).sram x) ∧ t.dev.mram = s.dev.mram ∧
      (∀ k, keyPage k ≠ ctl .cyx .a → keyPage k ≠ ctl .cyx .b → rfFind k t.dev.regs = rfFind k s.dev.regs) := by
  intro lay a
  obtain ⟨e, he, hcyx, hoth, hregs, hmem, hmram⟩ := Dev.olcLoaded_eq s.dev h i hst hidle
  have hload : (if s.dev.active h then s.dev.olcLoaded h true else s.dev) = e.showOlc h 2 0 := by rw [if_pos ha, he]
  have hmir : e.mirrors h.other = s.dev.mirrors h.other := Dev.mirrors_congr _ (Dev.get_congr hregs ..) (Dev.get_congr hregs ..)
  have hsram : ((e.showOlc h 2 0).half h).sram = refill (s.dev.half h).sram a lay.bank i.prog.code := by
    rw [Dev.half_showOlc, hmem]
  refine ⟨_, next_of_out_eq hout rfl hload, rfl, Dev.olc_showOlc e h 0 (by decide), ?_, fun hm => ⟨?_, ?_⟩, fun j hj => ?_, fun x hx => ?_, ?_, fun k hka hkb => ?_⟩
  · rw [State.dev_mk, Dev.cyx_showOlc, hcyx]
  · exact Dev.olc_showOlc_other e h 0 (by decide) (hmir.trans hm)
  · rw [State.dev_mk, Dev.cyx_showOlc, hoth hm]
  · rw [State.dev_mk, hsram, memRead_refill _ _ _ hj]
  · rw [State.dev_mk, hsram, memRead_refill_outside _ _ hx]
  · exact (Dev.mram_of_keeps (Dev.keeps_showOlc e h 2 0)).trans hmram
  · rw [State.dev_mk, (Dev.keeps_showOlc e h 2 0).2 k (by simp [hka, hkb]), hregs]

theorem tmcFind_selects (id : Word) : let at_ (edge : Bool) : Option Nat := ((s.dev.cyx h).cells.filter (fun c => c.def_.edge == edge)).findIdx? (fun c => c.def_.id == id.toNat)
    ∃ t, exec (.tmcFind h id) s = .next t ∧ t.pending = s.pending ∧ s.dev.keeps t.dev [ctl .tmc h] ∧
      t.dev.get (ctl .tmc h) TMC.FIND_HIT = (if (at_ false).isSome ∨ (at_ true).isSome then 1 else 0) ∧
      (∀ k, at_ false = some k → t.dev.get (ctl .tmc h) TMC.SEL_IDX = k % 2 ^ TMC.SEL_IDX.w ∧ t.dev.get (ctl .tmc h) TMC.SEL_EDGE = 0) ∧
      (∀ k, at_ false = none → at_ true = some k → t.dev.get (ctl .tmc h) TMC.SEL_IDX = k % 2 ^ TMC.SEL_IDX.w ∧ t.dev.get (ctl .tmc h) TMC.SEL_EDGE = 1) := by
  intro at_
  have hfind : s.dev.tmcFind h id.toNat = match at_ false, at_ true with
      | some i, _ => s.dev.showFound h id.toNat i 0
      | none, some i => s.dev.showFound h id.toNat i 1
      | none, none => (s.dev.put (ctl .tmc h) TMC.FIND_ID_ID id.toNat).put (ctl .tmc h) TMC.FIND_HIT 0 := by
    simp only [Dev.tmcFind, Dev.cyx_put]
    rfl
  have hkeeps (k e : Nat) := Dev.keeps_showFound s.dev h id.toNat k e
  have hshow (k e : Nat) := Dev.showFound_shows s.dev h id.toNat k e
  refine ⟨_, next_of_out_eq hout rfl hfind, rfl, ?_⟩
  rw [State.dev_mk]
  cases hf : at_ false with
  | some i =>
    obtain ⟨h1, h2, h3⟩ := hshow i 0
    refine ⟨hkeeps i 0, by simpa using h1, fun k hk => ?_, fun k hk => absurd hk (by simp)⟩
    obtain rfl : i = k := Option.some.inj hk
    exact ⟨h2, h3⟩
  | none =>
    cases ht : at_ true with
    | some i =>
      obtain ⟨h1, h2, h3⟩ := hshow i 1
      refine ⟨hkeeps i 1, by simpa using h1, fun k hk => absurd hk (by simp), fun k _ hk => ?_⟩
      obtain rfl : i = k := Option.some.inj hk
      exact ⟨h2, h3⟩
    | none =>
      refine ⟨?_, ?_, fun k hk => absurd hk (by simp), fun k _ hk => absurd hk (by simp)⟩
      · simp (disch := first | decide | simp) [Dev.keeps_put_iff]
      · rw [Dev.get_put_same _ _ _ _ _ _ (by decide)]
        rfl

end

/-- Settles O42: each command of an on-line change by what it leaves, and the end of a cycle by what it keeps of the change. -/
theorem onLineChange : Obligations.OnLineChange := by
  unfold Obligations.OnLineChange
  exact fun s h hout => ⟨fun ha hcode hst => ⟨fun i => olcLoad_loads hout h i ha hcode hst, fun w => olcLoad_unsigned hout h w ha hcode hst,
      fun i w => olcLoad_unfit hout h i w ha hcode hst⟩,
    fun i ha => olc_outOfTurn hout h i ha,
    fun i ha hst hidle => ⟨olcLoadDone_fills hout h i ha hst hidle, olcLoadDone_fails hout h i ha hst hidle⟩,
    fun ha hcode => ⟨olcSwitch_arms hout h ha hcode, olcCancel_cancels hout h ha hcode⟩,
    olcSwitchExec_switches hout h, olcDone_releases hout h, frcClrAll_stages hout h, tmcFind_selects hout h⟩

end Sys2Proof.Machine
end

section
/-! PROOFS. What a reset of a half and the end of a lease leave as they were. -/
namespace Sys2Proof.Machine

open Sys2Proof

theorem rfFind_filter (q : Nat → Bool) (k : Nat) : ∀ r : List (Nat × Word), rfFind k (r.filter fun e => q e.1) = if q k then rfFind k r else none
  | [] => by simp [rfFind]
  | (j, v) :: r => by
    by_cases hj : j = k
    · subst hj
      by_cases hq : q j = true
      · simp [hq, rfFind]
      · simpa [hq] using rfFind_filter q j r
    · by_cases hq : q j = true
      · simp only [List.filter_cons, hq, if_true, rfFind, if_neg hj]
        exact rfFind_filter q k r
      · simp only [List.filter_cons, hq, Bool.false_eq_true, if_false, rfFind, if_neg hj]
        exact rfFind_filter q k r

namespace Dev

/-! ### The link goes down -/

/-- The fields outside the pages of the link that its loss may change. -/
def linkFields : List Fld := HLF.STATE_PEER_QUIET :: (errFields ++ postFields)

section
variable (d : Dev) (h : HalfId) {q : Nat} {f : Fld} {i t : Nat} (hq : ∀ r : HalfId, ctl .mir r ≠ q) (ha : ∀ g ∈ linkFields, g.apart f = true)
  (hf : f.fits = true) (hi : i < f.cnt) (ht : t < 65536)
include hq ha hf hi ht

omit ha in
theorem get_put_mir (r : HalfId) (g : Fld) (v : Nat) (hgf : g.fits = true) (hgc : 0 < g.cnt) : (d.put (ctl .mir r) g v).get q f i t = d.get q f i t :=
  get_put_other d v (hq r) hgf hf hgc hi (by decide) ht

omit hq in
theorem get_put_quiet (p v : Nat) : (d.put p HLF.STATE_PEER_QUIET v).get q f i t = d.get q f i t :=
  get_put_field d v (ha _ (by simp [linkFields])) (by decide) hf (by decide) hi (by decide) ht

omit hq in
theorem get_fault_link (p c x : Nat) (ws : List Nat) : (d.fault p c x ws).get q f i t = d.get q f i t := by
  rw [fault, get_note_apart _ _ _ _ _ (fun g hg => ha g (by simp [linkFields, hg])) hf hi ht,
    get_err_apart _ _ _ (fun g hg => ha g (by simp [linkFields, hg])) hf hi ht]

theorem get_linkLost : (d.linkLost h).get q f i t = d.get q f i t := by
  have hput (d : Dev) (g : Fld) (v : Nat) (hgf : g.fits = true) (hgc : 0 < g.cnt) : (d.put (ctl .mir h) g v).get q f i t = d.get q f i t :=
    get_put_mir d hq hf hi ht h g v hgf hgc
  have hfault (d : Dev) (p c x : Nat) (ws : List Nat) : (d.fault p c x ws).get q f i t = d.get q f i t := get_fault_link d ha hf hi ht p c x ws
  unfold linkLost
  dsimp only
  rw [get_modHlf]
  split <;> simp (disch := decide) only [hput, hfault, bump]

theorem get_downOne : (d.downOne h).get q f i t = d.get q f i t := by
  unfold downOne
  split
  · rw [get_modHlf, get_put_quiet _ ha hf hi ht, get_linkLost d h hq ha hf hi ht]
  · exact get_linkLost d h hq ha hf hi ht

theorem get_mirDown : d.mirDown.get q f i t = d.get q f i t := by
  by_cases hup : d.mirUp = true
  · rw [mirDown_eq d hup, both, get_downOne _ _ hq ha hf hi ht, get_downOne _ _ hq ha hf hi ht]
  · rw [mirDown, if_neg hup]

end

theorem memories_mirDown (d : Dev) : d.mirDown.memories = d.memories := by
  by_cases hup : d.mirUp = true
  · exact (mirDown_shows d .a hup).2.2.2.2
  · rw [mirDown, if_neg hup]

/-- What stays of a half's own marks when the link goes down. -/
theorem marks_mirDown (d : Dev) (h : HalfId) : (d.mirDown.hlf h).hold = (d.hlf h).hold ∧ (d.mirDown.hlf h).restarts = (d.hlf h).restarts ∧
    (d.mirDown.hlf h).faulted = (d.hlf h).faulted := by
  have hlost (d : Dev) (q : HalfId) : ((d.linkLost q).hlf h).hold = (d.hlf h).hold ∧ ((d.linkLost q).hlf h).restarts = (d.hlf h).restarts ∧
      ((d.linkLost q).hlf h).faulted = (d.hlf h).faulted := by
    unfold linkLost
    dsimp only
    cases h <;> cases q <;> split <;> simp [modHlf, hlf, bump, fault, note, err, put]
  have hone (d : Dev) (q : HalfId) : ((d.downOne q).hlf h).hold = (d.hlf h).hold ∧ ((d.downOne q).hlf h).restarts = (d.hlf h).restarts ∧
      ((d.downOne q).hlf h).faulted = (d.hlf h).faulted := by
    unfold downOne
    split
    · obtain ⟨h1, h2, h3⟩ := hlost d q
      rw [← h1, ← h2, ← h3]
      cases h <;> cases q <;> exact ⟨rfl, rfl, rfl⟩
    · exact hlost d q
  by_cases hup : d.mirUp = true
  · obtain ⟨h1, h2, h3⟩ := hone d .a
    obtain ⟨h4, h5, h6⟩ := hone (d.downOne .a) .b
    rw [mirDown_eq d hup, both]
    exact ⟨h4.trans h1, h5.trans h2, h6.trans h3⟩
  · rw [mirDown, if_neg hup]
    exact ⟨rfl, rfl, rfl⟩

/-! ### A reset of a half -/

/-- The words that a reset of a half keeps are read as before. -/
theorem get_halfReset (d : Dev) (h : HalfId) {q : Nat} {f : Fld} {i t : Nat} (hq : ∀ r : HalfId, ctl .mir r ≠ q) (ha : ∀ g ∈ linkFields, g.apart f = true) (hf : f.fits = true) (hi : i < f.cnt)
    (ht : t < 65536) (hk : (fkey q f i t / pageSpan / 256 != h.n || keptWord h (fkey q f i t)) = true) : (d.halfReset h).get q f i t = d.get q f i t := by
  have hgone : (d.mirDown.frcGone [h]).regs = d.mirDown.regs := by
    unfold frcGone
    dsimp only
    split <;> rfl
  unfold halfReset
  dsimp only
  rw [get_modHlf, get_put_mir _ hq hf hi ht _ _ _ (by decide) (by decide), get_setHalf, get]
  dsimp only
  rw [rfFind_filter (fun k => k / pageSpan / 256 != h.n || keptWord h k), if_pos hk, hgone]
  exact get_mirDown d hq ha hf hi ht

/-- A word of a page outside the half. -/
theorem get_halfReset_other (d : Dev) (h : HalfId) {q : Nat} {f : Fld} {i t : Nat} (hq : ∀ r : HalfId, ctl .mir r ≠ q) (ha : ∀ g ∈ linkFields, g.apart f = true) (hf : f.fits = true)
    (hi : i < f.cnt) (ht : t < 65536) (hh : q / 256 ≠ h.n) : (d.halfReset h).get q f i t = d.get q f i t := by
  refine get_halfReset d h hq ha hf hi ht ?_
  have hpage : fkey q f i t / pageSpan = q := keyPage_fkey q (inside_of_fits hf hi ht)
  simp [hpage, hh]

/-- The state that half control shows for a half survives its reset. -/
theorem hlfState_halfReset (d : Dev) (h q : HalfId) : (d.halfReset h).hlfState q = d.hlfState q := by
  refine get_halfReset d h (by intro r; cases r <;> cases q <;> decide) (by decide) (by decide) (by decide) (by decide) ?_
  cases h <;> cases q <;> decide

theorem cause_halfReset (d : Dev) (h : HalfId) : (d.halfReset h).get (ctl .hlf h) HLF.STATE_CAUSE = d.get (ctl .hlf h) HLF.STATE_CAUSE := by
  refine get_halfReset d h (by intro r; cases r <;> cases h <;> decide) (by decide) (by decide) (by decide) (by decide) ?_
  cases h <;> decide

theorem hlf_with_reset (d : Dev) (h : HalfId) (rs sh im fe ab ba) :
    ({ d with regs := rs, shadow := sh, immCnt := im, fenced := fe, aborting := ab, badRegs := ba } : Dev).hlf h = d.hlf h := by cases h <;> rfl

theorem hlf_halfReset (d : Dev) (h : HalfId) : ((d.halfReset h).hlf h).hold = (d.hlf h).hold ∧ ((d.halfReset h).hlf h).restarts = (d.hlf h).restarts ∧
    ((d.halfReset h).hlf h).faulted = (d.hlf h).faulted := by
  have hgone : (d.mirDown.frcGone [h]).hlf h = d.mirDown.hlf h := by
    unfold frcGone
    dsimp only
    split
    · cases h <;> rfl
    · rfl
  obtain ⟨h1, h2, h3⟩ := marks_mirDown d h
  unfold halfReset
  dsimp only
  rw [hlf_modHlf_same, hlf_put, hlf_setHalf, hlf_with_reset, hgone]
  exact ⟨h1, h2, h3⟩

theorem mram_halfReset (d : Dev) (h : HalfId) : (d.halfReset h).mram = d.mram := by
  have hdown : d.mirDown.mram = d.mram := mram_of_memories (memories_mirDown d)
  unfold halfReset frcGone
  dsimp only
  split <;> cases h <;> exact hdown

/-! ### A half goes off -/

section
variable (d : Dev) (h : HalfId) (st cause : Nat)

theorem hlfState_hlfOff : (d.hlfOff h st cause).hlfState h = st % 8 := by rw [hlfOff, hlfState_halfReset, hlfState_hlfTo]

theorem hlfState_hlfOff_other : (d.hlfOff h st cause).hlfState h.other = d.hlfState h.other := by
  rw [hlfOff, hlfState_halfReset, hlfState_hlfTo_other]

theorem get_hlfOff_shared {q : Nat} {f : Fld} {i t : Nat} (ha : ∀ g ∈ linkFields ++ hlfToFields, g.apart f = true) (hf : f.fits = true) (hi : i < f.cnt)
    (ht : t < 65536) (hq : 512 ≤ q) : (d.hlfOff h st cause).get q f i t = d.get q f i t := by
  have hmir (r : HalfId) : ctl .mir r ≠ q := fun e => absurd (e ▸ ctl_lt r (b := .mir) (by decide) (by decide)) (Nat.not_lt.mpr hq)
  have hn : h.n < 2 := by cases h <;> decide
  rw [hlfOff, get_halfReset_other _ _ hmir (fun g hg => ha g (by simp [hg])) hf hi ht (by omega), get_hlfTo _ _ _ _ (fun g hg => ha g ?_) hf hi ht]
  simp only [List.mem_append, List.mem_cons, linkFields] at hg ⊢
  tauto

theorem hold_hlfOff : ((d.hlfOff h st cause).hlf h).hold = (d.hlf h).hold := by
  rw [hlfOff, (hlf_halfReset _ h).1, hlf_hlfTo]

theorem mram_hlfOff : (d.hlfOff h st cause).mram = d.mram := by
  rw [hlfOff, mram_halfReset, mram_of_keeps (keeps_hlfTo d h st cause)]

end

end Dev

end Sys2Proof.Machine
end

section
/-! PROOFS. The proof swap, the commands to the other half, the automatic restart and REPAIR. -/
namespace Sys2Proof.Machine

open Sys2Proof

namespace Dev

/-! ### The lease becomes invalid -/

@[simp] theorem get_modCan (d : Dev) (c : Nat) (g : CanCh → CanCh) (p f i t) : (d.modCan c g).get p f i t = d.get p f i t := rfl
@[simp] theorem keeps_modCan_iff (d e : Dev) (c : Nat) (g : CanCh → CanCh) (ps) : d.keeps (e.modCan c g) ps ↔ d.keeps e ps := Iff.rfl

theorem keeps_canEnd (d : Dev) (c : Nat) {b : Nat} (result lec why : Nat) (hb : b < 128) : d.keeps (d.canEnd c b result lec why) [pgCan c] := by
  have hw : b / 32 < CAN.TX_PEND_BITS.cnt := Nat.lt_of_lt_of_le (by omega : b / 32 < 4) (by decide)
  have hd : b / 32 < CAN.TX_DONE_BITS.cnt := Nat.lt_of_lt_of_le (by omega : b / 32 < 4) (by decide)
  have hf : b / 32 < CAN.TX_FAIL_BITS.cnt := Nat.lt_of_lt_of_le (by omega : b / 32 < 4) (by decide)
  have ht : b < 65536 := by omega
  unfold canEnd
  dsimp only
  split <;> simp (disch := first | decide | assumption | simp) [orBits, put64, putBit, keeps_put_iff, keeps_stat_iff]

theorem keeps_canNoLease (d : Dev) : d.keeps d.canNoLease [pgCan 0, pgCan 1, pgCan 2, pgCan 3] := by
  refine keeps_foldl _ d fun d c hc => keeps_foldl _ d fun d b hb => ?_
  split
  · refine keeps_mono (keeps_canEnd d c 6 0 5 (List.mem_range.mp hb)) fun p hp => ?_
    rw [List.mem_singleton] at hp
    fin_cases hc <;> simp [hp]
  · exact keeps_refl d _

theorem keeps_showLease (d : Dev) : d.keeps d.showLease [ctl .hlf .a, ctl .hlf .b] := by
  simp only [showLease, both]
  split <;> split <;> simp (disch := decide) [putb, keeps_put_iff]

/-- The fields of half control's page that show the lease. -/
def leaseFields : List Fld := [HLF.LEASE_MINE, HLF.LEASE_VALID, HLF.LEASE_EPOCH]

theorem get_showLease (d : Dev) {q : Nat} {f : Fld} {i t : Nat} (ha : ∀ g ∈ leaseFields, g.apart f = true) (hf : f.fits = true) (hi : i < f.cnt)
    (ht : t < 65536) : d.showLease.get q f i t = d.get q f i t := by
  have hput (d : Dev) (p : Nat) (g : Fld) (v : Nat) (hg : g ∈ leaseFields) (hgf : g.fits = true) (hgc : 0 < g.cnt) :
      (d.put p g v).get q f i t = d.get q f i t := get_put_field d v (ha g hg) hgf hf hgc hi (by decide) ht
  simp only [showLease, both]
  split <;> split <;> simp (disch := first | decide | simp [leaseFields]) only [putb, hput]

@[simp] theorem hlf_showLease (d : Dev) (h : HalfId) : d.showLease.hlf h = d.hlf h := by
  simp only [showLease, both]
  split <;> split <;> simp [putb]

theorem not_valid_leaseInvalid (d : Dev) : d.leaseInvalid.on (shp .wir) WIR.LEASE_VALID = false := by
  unfold leaseInvalid
  dsimp only
  split
  case isTrue hno => exact Bool.not_eq_true' _ ▸ hno
  case isFalse _ =>
    rw [on, get_of_keeps (keeps_showLease _) (by decide) (by decide) (by decide) (by decide),
      get_of_keeps (keeps_canNoLease _) (by decide) (by decide) (by decide) (by decide), get_put_same _ _ _ _ _ _ (by decide)]
    rfl

@[simp] theorem fio_canEnd (d : Dev) (c b result lec why : Nat) : (d.canEnd c b result lec why).fio = d.fio := by
  unfold canEnd
  dsimp only
  split <;> rfl

@[simp] theorem fio_canNoLease (d : Dev) : d.canNoLease.fio = d.fio := by
  refine foldl_off (g := fio) _ d fun d c _ => foldl_off (g := fio) _ d fun d b _ => ?_
  split
  · exact fio_canEnd ..
  · rfl

@[simp] theorem fio_showLease (d : Dev) : d.showLease.fio = d.fio := by
  simp only [showLease, both]
  split <;> split <;> rfl

@[simp] theorem fio_note (d : Dev) (p cls code x : Nat) (ws : List Nat) : (d.note p cls code x ws).fio = d.fio := post_fio ..

@[simp] theorem fio_proofLost (d : Dev) : d.proofLost.fio = d.fio := by
  simp only [proofLost, both]
  split <;> split <;> simp only [fault, fio_note, err, bump, stat, orBits, put, modWeir]

theorem fio_leaseInvalid (d : Dev) : d.leaseInvalid.fio = d.fio := by
  unfold leaseInvalid
  dsimp only
  split
  · rfl
  · rw [fio_showLease, fio_canNoLease]
    split
    · exact fio_proofLost d
    · rfl

/-- The time is no affair of pages other than that of the clock. -/
theorem now_of_keeps {d e : Dev} {ps : List Nat} (hk : d.keeps e ps) (hp : shp .rtc ∉ ps) : e.now = d.now := by
  rw [now, now, get64, get64, get_of_keeps hk (by decide) (by decide) (by decide) hp, get_of_keeps hk (by decide) (by decide) (by decide) hp]

/-! ### The state of a swap -/

theorem state_swapShow (d : Dev) (st why : Nat) (q : HalfId) : (d.swapShow st why).get (ctl .hlf q) HLF.SWAP_ST_STATE = st % 2 ^ HLF.SWAP_ST_STATE.w := by
  cases q <;> simp (disch := decide) only [swapShow, both, get_put_other, get_put_apart, get_put_same]

theorem keeps_swapShow (d : Dev) (st why : Nat) : d.keeps (d.swapShow st why) [ctl .hlf .a, ctl .hlf .b] := by
  simp (disch := decide) [swapShow, both, keeps_put_iff]

/-- The field in which both halves show the age of a half's proof. -/
def ageFld : HalfId → Fld
  | .a => HLF.PROOF_AGE_A
  | .b => HLF.PROOF_AGE_B

/-- The proof of a half is complete, before what it shows of a swap. -/
def proven (d : Dev) (h : HalfId) : Dev :=
  let d := (d.both (fun d q => d.put (ctl .hlf q) (ageFld h) 0)).modWeir (fun w => { w with proof := none })
  d.modStore (fun s => { s with proofAt := lset s.proofAt h.n (some d.now) })

theorem proofDone_eq (d : Dev) (h : HalfId) (hp : d.weir.proof = some (h, true, 0)) : ∃ words, d.proofDone =
    (if d.get (ctl .hlf h) HLF.SWAP_ST_STATE = 2 then ((d.proven h).swapShow 3 0).both (fun d h => d.stat (ctl .hlf h) 4) else d.proven h).note
      (ctl .hlf h) clsState 0xB h.n words := by
  cases h <;> simp only [proofDone, hp] <;> exact ⟨_, rfl⟩

theorem age_proven (d : Dev) (h q : HalfId) : (d.proven h).get (ctl .hlf q) (ageFld h) = 0 := by
  cases h <;> cases q <;> simp (disch := decide) [proven, both, ageFld, get_put_other, get_put_same]

theorem keeps_proven (d : Dev) (h : HalfId) : d.keeps (d.proven h) [ctl .hlf .a, ctl .hlf .b] := by
  cases h <;> simp (disch := decide) [proven, both, ageFld, keeps_put_iff]

/-- The proof of a half with what it shows of a swap. -/
theorem proofDone_shows (d : Dev) (h : HalfId) (hp : d.weir.proof = some (h, true, 0)) : d.proofDone.weir.proof = none ∧
    (∀ q : HalfId, d.proofDone.get (ctl .hlf q) (ageFld h) = 0) ∧
    (d.get (ctl .hlf h) HLF.SWAP_ST_STATE = 2 → ∀ q : HalfId, d.proofDone.get (ctl .hlf q) HLF.SWAP_ST_STATE = 3) ∧
    (d.store.proofAt.length = 2 → d.proofDone.store.proofAt.getD h.n none = some d.now) ∧
    d.keeps d.proofDone [ctl .hlf .a, ctl .hlf .b, shp .slt] := by
  obtain ⟨ws, he⟩ := proofDone_eq d h hp
  set shown := ((d.proven h).swapShow 3 0).both (fun d h => d.stat (ctl .hlf h) 4) with hs
  have hfits : (ageFld h).fits = true ∧ 0 < (ageFld h).cnt := by cases h <;> decide
  have hage (q : HalfId) : shown.get (ctl .hlf q) (ageFld h) = 0 := by
    refine Eq.trans ?_ (age_proven d h q)
    cases h <;> simp (disch := decide) only [hs, swapShow, both, ageFld, get_stat_apart, get_put_field]
  have hstate (q : HalfId) : shown.get (ctl .hlf q) HLF.SWAP_ST_STATE = 3 := by
    simp (disch := decide) only [hs, both, get_stat_apart, state_swapShow]
    rfl
  have hslt (q : HalfId) : ctl .hlf q ≠ shp .slt := by cases q <;> decide
  have hkp : d.keeps (d.proven h) [ctl .hlf .a, ctl .hlf .b, shp .slt] := keeps_mono (keeps_proven d h) (by simp +contextual)
  have hkeeps : d.keeps shown [ctl .hlf .a, ctl .hlf .b, shp .slt] := by
    refine keeps_trans hkp (keeps_mono (keeps_trans (keeps_swapShow _ 3 0) ?_) (qs := [ctl .hlf .a, ctl .hlf .b, shp .slt]) (by simp +contextual))
    simp (disch := decide) [hs, both, keeps_stat_iff]
  have hnow : (d.both fun d q => d.put (ctl .hlf q) (ageFld h) 0).now = d.now :=
    now_of_keeps (ps := [ctl .hlf .a, ctl .hlf .b]) (by cases h <;> simp (disch := decide) [both, ageFld, keeps_put_iff]) (by decide)
  have hstore : (d.proven h).store.proofAt = lset d.store.proofAt h.n (some d.now) := by
    rw [← hnow]
    rfl
  have hbase : (d.proven h).weir.proof = none ∧ shown.weir = (d.proven h).weir ∧ shown.store = (d.proven h).store := ⟨rfl, rfl, rfl⟩
  obtain ⟨e, hpe⟩ : ∃ e, (if d.get (ctl .hlf h) HLF.SWAP_ST_STATE = 2 then shown else d.proven h) = e := ⟨_, rfl⟩
  have heq : e = shown ∧ d.get (ctl .hlf h) HLF.SWAP_ST_STATE = 2 ∨ e = d.proven h ∧ d.get (ctl .hlf h) HLF.SWAP_ST_STATE ≠ 2 := by
    rw [← hpe]
    split
    case isTrue h2 => exact .inl ⟨rfl, h2⟩
    case isFalse h2 => exact .inr ⟨rfl, h2⟩
  rw [he, hpe]
  refine ⟨?_, fun q => ?_, fun h2 q => ?_, fun hl => ?_, (keeps_note_iff (by simp)).mpr ?_⟩
  · rw [note, post_weir]
    rcases heq with ⟨rfl, -⟩ | ⟨rfl, -⟩ <;> exact hbase.1
  · rw [get_note_other _ _ _ _ _ (hslt q) hfits.1 hfits.2 (by decide)]
    rcases heq with ⟨rfl, -⟩ | ⟨rfl, -⟩
    · exact hage q
    · exact age_proven d h q
  · rw [get_note_other _ _ _ _ _ (hslt q) (by decide) (by decide) (by decide)]
    rcases heq with ⟨rfl, -⟩ | ⟨-, hne⟩
    · exact hstate q
    · exact absurd h2 hne
  · have hlt : h.n < d.store.proofAt.length := by cases h <;> rw [hl] <;> decide
    have hlast : (d.proven h).store.proofAt.getD h.n none = some d.now := by
      rw [hstore, lset, List.getD_eq_getElem?_getD, List.getElem?_set_self hlt]
      rfl
    rw [note, post_store]
    rcases heq with ⟨rfl, -⟩ | ⟨rfl, -⟩ <;> exact hlast
  · rcases heq with ⟨rfl, -⟩ | ⟨rfl, -⟩
    · exact hkeeps
    · exact hkp

/-! ### The proof age falls due -/

/-- What the due proof shows on one half's page. -/
def dueOne (o : HalfId) (d : Dev) (q : HalfId) : Dev := if d.outOfReset q then (d.stat (ctl .hlf q) 3).err (ctl .hlf q) cHLF_SWAP_DUE o.n else d

theorem keeps_dueOne (o : HalfId) (d : Dev) (q : HalfId) : d.keeps (dueOne o d q) [ctl .hlf q] := by
  unfold dueOne
  split
  · rw [keeps_err_iff (by simp), keeps_stat_iff (by simp)]
    exact keeps_refl d _
  · exact keeps_refl d _

theorem dueOne_shows (o : HalfId) (d : Dev) (q : HalfId) (hq : d.outOfReset q = true) :
    (dueOne o d q).get (ctl .hlf q) HDR.ERR_CODE = cHLF_SWAP_DUE ∧ bitN ((dueOne o d q).get (ctl .hlf q) HDR.STAT_BLOCK) 3 = 1 := by
  rw [dueOne, if_pos hq]
  constructor
  · simp (disch := decide) only [err, get_put_apart, get_put_same]
    rfl
  · rw [show ((d.stat (ctl .hlf q) 3).err (ctl .hlf q) cHLF_SWAP_DUE o.n).get (ctl .hlf q) HDR.STAT_BLOCK = (d.stat (ctl .hlf q) 3).get (ctl .hlf q) HDR.STAT_BLOCK
      from by simp (disch := decide) only [err, bump, get_put_apart]]
    exact bitN_stat d (ctl .hlf q) (by decide)

theorem dueBoth_shows (o : HalfId) (d : Dev) (q : HalfId) (hq : d.outOfReset q = true) :
    (d.both (dueOne o)).get (ctl .hlf q) HDR.ERR_CODE = cHLF_SWAP_DUE ∧ bitN ((d.both (dueOne o)).get (ctl .hlf q) HDR.STAT_BLOCK) 3 = 1 := by
  cases q
  · have hk := keeps_dueOne o (dueOne o d .a) .b
    rw [both, get_of_keeps hk (by decide) (by decide) (by decide) (by decide), get_of_keeps hk (by decide) (by decide) (by decide) (by decide)]
    exact dueOne_shows o d .a hq
  · refine dueOne_shows o (dueOne o d .a) .b ?_
    rw [outOfReset, hlfState, get_of_keeps (keeps_dueOne o d .a) (by decide) (by decide) (by decide) (by decide)]
    exact hq

/-! ### The reset of a half is released -/

/-- The state of a half in REPAIR, and its marks. -/
theorem repairEnter_shows (d : Dev) (h : HalfId) (cause : Nat) (hin : d.inputOk h = true) (hhold : (d.hlf h).hold = false) :
    (d.repairEnter h cause).hlfState h = 5 ∧ (d.repairEnter h cause).hlfState h.other = d.hlfState h.other ∧
      (d.repairEnter h cause).hlf h = { d.hlf h with quiet := none, ready := false, faulted := false } ∧ (d.repairEnter h cause).mram = d.mram := by
  have hscope (d : Dev) (q : HalfId) : (d.scopeInit h).hlfState q = d.hlfState q ∧ (d.scopeInit h).hlf h = d.hlf h := by
    unfold scopeInit
    dsimp only
    constructor
    · cases h <;> cases q <;> split <;> simp (disch := decide) only [hlfState, putb, get_put_other]
    · split <;> simp only [putb, hlf_put]
  have henter : d.repairEnter h cause = ((((d.hlfTo h 5 cause).scopeInit h).modHlf h (fun x => { x with ready := false, faulted := false })).putBit
      (shp .wir) WIR.FENCE_LINES h.n false).showLease := by simp [repairEnter, hin, hhold]
  have hstate (q : HalfId) : (d.repairEnter h cause).hlfState q = (d.hlfTo h 5 cause).hlfState q := by
    rw [henter, hlfState, get_showLease _ (by decide) (by decide) (by decide) (by decide), putBit, get_put_other _ _ (by cases q <;> decide) (by decide)
      (by decide) (by decide) (by decide) (by decide) (by decide), get_modHlf]
    exact (hscope _ q).1
  refine ⟨(hstate h).trans (hlfState_hlfTo d h 5 cause), (hstate h.other).trans (hlfState_hlfTo_other d h 5 cause), ?_,
    mram_of_memories (memories_of_frame (frame_repairEnter ..))⟩
  rw [henter, hlf_showLease, putBit, hlf_put, hlf_modHlf_same, (hscope _ h).2, hlf_hlfTo]

theorem hlf_linkTrain (d : Dev) (h : HalfId) : d.linkTrain.hlf h = d.hlf h := by
  simp only [linkTrain, both]
  split <;> split <;> simp

/-! ### The cores of a half start -/

/-- One bank of a half filled with the code of what it holds. -/
def bankFilled (h : HalfId) (d : Dev) (b : Nat) : Option Image → Dev
  | some i => d.loadBank h (d.prog h) b i
  | none => d

theorem loadBanks_eq (d : Dev) (h : HalfId) : d.loadBanks h = bankFilled h (bankFilled h (bankFilled h d (d.get (ctl .cyx h) CYX.IMG_BANK) (d.cyx h).img)
    (1 - d.get (ctl .cyx h) CYX.IMG_BANK) (d.cyx h).old) (1 - d.get (ctl .cyx h) CYX.IMG_BANK) (d.cyx h).idle := rfl

theorem regs_bankFilled (h : HalfId) (d : Dev) (b : Nat) (i : Option Image) : (bankFilled h d b i).regs = d.regs := by
  cases i
  · rfl
  · exact regs_fillSram ..

theorem store_bankFilled (h : HalfId) (d : Dev) (b : Nat) (i : Option Image) : (bankFilled h d b i).store = d.store := by
  cases i
  · rfl
  · cases h <;> rfl

section
variable (d : Dev) (h : HalfId) {q : Nat} {f : Fld} {i t : Nat} (hc : ctl .cyx h ≠ q) (ht : ctl .tmc h ≠ q) (hf : f.fits = true) (hi : i < f.cnt)
  (hk : t < 65536)
include hc ht hf hi hk

theorem get_showImage_other : (d.showImage h).get q f i t = d.get q f i t := by
  have hlane (d : Dev) : (d.laneTable h).get q f i t = d.get q f i t := by
    unfold laneTable
    dsimp only
    split <;> rfl
  simp (disch := first | decide | assumption) only [showImage, get_put_other, hlane]

omit hc ht hf hi hk in
theorem regs_loadBanks : (d.loadBanks h).regs = d.regs := by rw [loadBanks_eq, regs_bankFilled, regs_bankFilled, regs_bankFilled]

theorem get_startCores_other : (d.startCores h).get q f i t = d.get q f i t := by
  have hbanks (d : Dev) : (d.loadBanks h).get q f i t = d.get q f i t := get_congr (regs_loadBanks d h) ..
  have himage (d : Dev) : (d.showImage h).get q f i t = d.get q f i t := get_showImage_other d h hc ht hf hi hk
  unfold startCores
  dsimp only
  split <;> simp (disch := first | decide | assumption) only [hbanks, himage, setOlc, get_put_other, get_modCyx]

end

section
variable (d : Dev) (h : HalfId)

theorem store_hlfTo (st cause : Nat) : (d.hlfTo h st cause).store = d.store := by
  cases h <;> exact post_store ..

theorem store_startCores : (d.startCores h).store = d.store := by
  have hmod (d : Dev) (g : Cyx → Cyx) : (d.modCyx h g).store = d.store := modHalf_store ..
  have hbanks (d : Dev) : (d.loadBanks h).store = d.store := by rw [loadBanks_eq, store_bankFilled, store_bankFilled, store_bankFilled]
  have himage (d : Dev) : (d.showImage h).store = d.store := by
    unfold showImage laneTable
    dsimp only
    split <;> rfl
  unfold startCores
  dsimp only
  split
  · rw [hbanks, himage]
    exact hmod ..
  · rw [hbanks, himage, hmod]

theorem bootGen_congr {d e : Dev} (hs : e.store = d.store) : e.bootGen = d.bootGen := by
  simp only [bootGen, genOk, gen?, hs]

end

/-- A half that is off, and its marks: what a command to it begins with. -/
theorem peerOff_shows (d : Dev) (h : HalfId) (hoff : d.hlfState h.other ≠ 0) : let e := if d.hlfState h.other = 4 then d else d.hlfOff h.other 4 0xD
    e.hlfState h.other = 4 ∧ e.hlfState h = d.hlfState h ∧ (e.hlf h.other).hold = (d.hlf h.other).hold ∧ e.inputOk h.other = d.inputOk h.other ∧ e.mram = d.mram := by
  intro e
  have hoo : h.other.other = h := by cases h <;> rfl
  by_cases h4 : d.hlfState h.other = 4
  · rw [show e = d from if_pos h4]
    exact ⟨h4, rfl, rfl, rfl, rfl⟩
  · rw [show e = d.hlfOff h.other 4 0xD from if_neg h4]
    refine ⟨hlfState_hlfOff d h.other 4 0xD, ?_, hold_hlfOff d h.other 4 0xD, ?_, mram_hlfOff d h.other 4 0xD⟩
    · have hst := hlfState_hlfOff_other d h.other 4 0xD
      rwa [hoo] at hst
    · cases h <;> simp (disch := decide) only [inputOk, on, HalfId.other, get_hlfOff_shared]

end Dev

section
variable {s : State} (hout : s.out = true) (h : HalfId)
include hout

theorem swap_arms (ha : s.dev.active h = true) (hst : s.dev.hlfState h.other = 1) (hlag : s.dev.get (ctl .cyx h.other) CYX.SHADOW_LAG ≤ 1)
    (holc : s.dev.olc h < 2 ∨ 4 < s.dev.olc h) (h1 : s.dev.get (ctl .hlf h) HLF.SWAP_ST_STATE ≠ 1) (h2 : s.dev.get (ctl .hlf h) HLF.SWAP_ST_STATE ≠ 2) :
    ∃ t, exec (.swap h) s = .next t ∧ t.pending = s.pending ∧ (∀ q : HalfId, t.dev.get (ctl .hlf q) HLF.SWAP_ST_STATE = 1) ∧
      s.dev.keeps t.dev [ctl .hlf .a, ctl .hlf .b] := by
  have hswap : s.dev.swap h = s.dev.swapShow 1 0 := by
    have hidle : ¬ (2 ≤ s.dev.olc h ∧ s.dev.olc h ≤ 4) := by omega
    simp [Dev.swap, ha, hst, hidle, h1, h2, Nat.not_lt.mpr hlag]
  exact ⟨_, next_of_out_eq hout rfl hswap, rfl, fun q => Dev.state_swapShow s.dev 1 0 q, Dev.keeps_swapShow s.dev 1 0⟩

theorem swap_refuses (ha : s.dev.active h = true) (hst : s.dev.hlfState h.other ≠ 1) :
    ∃ t, exec (.swap h) s = .next t ∧ t.pending = s.pending ∧ t.dev.get (ctl .hlf h) HLF.SWAP_ST_REASON = cHLF_PEER_STATE ∧
      t.dev.get (ctl .hlf h) HDR.ERR_CODE = cHLF_PEER_STATE ∧ t.dev.get (ctl .hlf h) HLF.SWAP_ST_STATE = s.dev.get (ctl .hlf h) HLF.SWAP_ST_STATE ∧
      s.dev.keeps t.dev [ctl .hlf h] := by
  have hswap : s.dev.swap h = (s.dev.put (ctl .hlf h) HLF.SWAP_ST_REASON cHLF_PEER_STATE).err (ctl .hlf h) cHLF_PEER_STATE h.other.n := by
    simp [Dev.swap, ha, hst]
  refine ⟨_, next_of_out_eq hout rfl hswap, rfl, ?_, ?_, ?_, ?_⟩
  · simp (disch := decide) only [Dev.get_err_apart, Dev.get_put_same]
    rfl
  · simp (disch := decide) only [Dev.err, Dev.get_put_apart, Dev.get_put_same]
    rfl
  · simp (disch := decide) only [Dev.get_err_apart, Dev.get_put_apart]
  · rw [State.dev_mk, Dev.keeps_err_iff (by simp), Dev.keeps_put_iff (by simp) (by decide) (by decide) (by decide)]
    exact Dev.keeps_refl _ _

theorem swapRelease_releases (c : CycState) (hh : s.dev.holds h = true) (hst : s.dev.get (ctl .hlf h) HLF.SWAP_ST_STATE = 1)
    (ho : s.dev.hlfState h.other = 1) (hheld : (s.dev.cyx h).heldNext = true) (hsh : (s.dev.cyx h.other).shadow = some c)
    (hc : c.cyc = s.dev.get (ctl .cyx h) CYX.CNT_CYCLE) :
    ∃ t, exec (.swapRelease h) s = .next t ∧ t.pending = s.pending ∧ t.dev.on (shp .wir) WIR.LEASE_VALID = false ∧ t.dev.weir.swapBy = some h ∧
      (∀ q : HalfId, t.dev.get (ctl .hlf q) HLF.SWAP_ST_STATE = 2) ∧ t.dev.fio = s.dev.fio ∧ t.dev.memories = s.dev.memories := by
  have hrel : s.dev.swapRelease h = ((s.dev.leaseInvalid).modWeir (fun w => { w with swapBy := some h })).swapShow 2 0 := by
    simp [Dev.swapRelease, hh, hst, ho, hheld, hsh, hc]
  refine ⟨_, next_of_out_eq hout rfl hrel, rfl, ?_, rfl, fun q => Dev.state_swapShow _ 2 0 q, Dev.fio_leaseInvalid s.dev, ?_⟩
  · rw [State.dev_mk, Dev.on, Dev.get_of_keeps (Dev.keeps_swapShow _ 2 0) (by decide) (by decide) (by decide) (by decide), Dev.get_modWeir]
    exact Dev.not_valid_leaseInvalid s.dev
  · have hmem : s.dev.leaseInvalid.memories = s.dev.memories := Dev.memories_of_frame (Dev.frame_leaseInvalid s.dev)
    exact (Dev.keeps_swapShow _ 2 0).1.trans hmem

theorem swapProofDone_shows (hp : s.dev.weir.proof = some (h, true, 0)) :
    ∃ t, exec .swapProofDone s = .next t ∧ t.pending = s.pending ∧ t.dev.weir.proof = none ∧
      (∀ q : HalfId, t.dev.get (ctl .hlf q) (Dev.ageFld h) = 0) ∧
      (s.dev.get (ctl .hlf h) HLF.SWAP_ST_STATE = 2 → ∀ q : HalfId, t.dev.get (ctl .hlf q) HLF.SWAP_ST_STATE = 3) ∧
      (s.dev.store.proofAt.length = 2 → t.dev.store.proofAt.getD h.n none = some s.dev.now) ∧
      s.dev.keeps t.dev [ctl .hlf .a, ctl .hlf .b, shp .slt] := by
  obtain ⟨hnone, hage, hstate, hat, hk⟩ := Dev.proofDone_shows s.dev h hp
  exact ⟨_, next_of_out hout rfl, rfl, hnone, hage, hstate, hat, hk⟩

theorem swapCancel_cancels :
    if s.dev.active h = true ∧ s.dev.get (ctl .hlf h) HLF.SWAP_ST_STATE = 1 then
      ∃ t, exec (.swapCancel h) s = .next t ∧ t.pending = s.pending ∧ (∀ q : HalfId, t.dev.get (ctl .hlf q) HLF.SWAP_ST_STATE = 0) ∧
        (t.dev.cyx h).heldNext = false ∧ s.dev.keeps t.dev [ctl .hlf .a, ctl .hlf .b]
    else exec (.swapCancel h) s = .next s := by
  split
  case isTrue hc =>
    have hcancel : s.dev.swapCancel h = (s.dev.swapShow 0 0).modCyx h (fun x => { x with heldNext := false }) := by simp [Dev.swapCancel, hc.1, hc.2]
    refine ⟨_, next_of_out_eq hout rfl hcancel, rfl, fun q => ?_, ?_, ?_⟩
    · rw [State.dev_mk, Dev.get_modCyx, Dev.state_swapShow]
      rfl
    · rw [State.dev_mk, Dev.cyx_modCyx_same]
    · exact (Dev.keeps_modCyx_iff ..).mpr (Dev.keeps_swapShow s.dev 0 0)
  case isFalse hc =>
    refine next_of_out_eq hout rfl (if_neg ?_)
    simpa [Bool.and_eq_true] using hc

theorem proofAgeDue_shows (ha : s.dev.active h = false) (ho : s.dev.outOfReset h = true) (hage : s.dev.proofAge h ≥ s.dev.get (ctl .hlf h) HLF.SWAP_DUE_H) :
    ∃ t, exec (.proofAgeDue h) s = .next t ∧ t.pending = s.pending ∧ t.dev.get (ctl .hlf h) HDR.ERR_CODE = cHLF_SWAP_DUE ∧
      bitN (t.dev.get (ctl .hlf h) HDR.STAT_BLOCK) 3 = 1 ∧ s.dev.keeps t.dev [ctl .hlf .a, ctl .hlf .b, shp .slt] := by
  have hdue : s.dev.proofDue h = (s.dev.both (Dev.dueOne h)).note (ctl .hlf h) clsState cHLF_SWAP_DUE h.n [s.dev.proofAge h] := by
    rw [Dev.proofDue, if_neg (by simp [ha, hage])]
    rfl
  obtain ⟨hcode, hbit⟩ := Dev.dueBoth_shows h s.dev h ho
  have hslt : ctl .hlf h ≠ shp .slt := by cases h <;> decide
  refine ⟨_, next_of_out_eq hout rfl hdue, rfl, ?_, ?_, (Dev.keeps_note_iff (by simp)).mpr ?_⟩
  · rw [State.dev_mk, Dev.get_note_other _ _ _ _ _ hslt (by decide) (by decide) (by decide), hcode]
  · rw [State.dev_mk, Dev.get_note_other _ _ _ _ _ hslt (by decide) (by decide) (by decide), hbit]
  · refine Dev.keeps_trans (Dev.keeps_mono (Dev.keeps_dueOne h s.dev .a) ?_) (Dev.keeps_mono (Dev.keeps_dueOne h _ .b) ?_) <;> simp

theorem peer_refuses (ha : s.dev.active h = false) (i : Instr) (hi : i = .resetPeer h ∨ i = .holdPeer h ∨ i = .releasePeer h) :
    ∃ t, exec i s = .next t ∧ t.pending = s.pending ∧ t.dev.get (ctl .hlf h) HDR.ERR_CODE = cHLF_PEER_STATE ∧ s.dev.keeps t.dev [ctl .hlf h] := by
  have herr : exec i s = .next { s with dev := s.dev.peerRefuse h } := by
    rcases hi with rfl | rfl | rfl
    · exact next_of_out_eq hout rfl (by simp [Dev.resetPeer, ha])
    · exact next_of_out_eq hout rfl (by simp [Dev.holdPeer, ha])
    · exact next_of_out_eq hout rfl (by simp [Dev.releasePeer, ha])
  refine ⟨_, herr, rfl, ?_, (Dev.keeps_err_iff (by simp)).mpr (Dev.keeps_refl _ _)⟩
  rw [State.dev_mk, Dev.peerRefuse, Dev.err]
  simp (disch := decide) only [Dev.get_put_apart, Dev.get_put_same]
  rfl

end

section
variable {s : State} (hout : s.out = true) (h : HalfId) (ha : s.dev.active h = true)
include hout ha

theorem resetPeer_restarts (ho : s.dev.active h.other = false) (hhold : (s.dev.hlf h.other).hold = false) (hin : s.dev.inputOk h.other = true) :
    ∃ t, exec (.resetPeer h) s = .next t ∧ t.pending = s.pending ∧ t.dev.hlfState h.other = 5 ∧ t.dev.active h = true ∧ t.dev.mram = s.dev.mram := by
  obtain ⟨e, he⟩ : ∃ e, (if s.dev.hlfState h.other = 4 then s.dev else s.dev.hlfOff h.other 4 0xD) = e := ⟨_, rfl⟩
  obtain ⟨-, hst, hh, hi, hm⟩ := he ▸ Dev.peerOff_shows s.dev h (beq_eq_false_iff_ne.mp ho)
  obtain ⟨h5, h5o, -, h5m⟩ := Dev.repairEnter_shows e h.other 0xD (hi.trans hin) (hh.trans hhold)
  have hreset : s.dev.resetPeer h = e.repairEnter h.other 0xD := by simp [Dev.resetPeer, ha, ho, hhold, he]
  have hoo : h.other.other = h := by cases h <;> rfl
  rw [hoo] at h5o
  refine ⟨_, next_of_out_eq hout rfl hreset, rfl, h5, ?_, h5m.trans hm⟩
  exact (congrArg (· == 0) (h5o.trans hst)).trans ha

theorem holdPeer_holds (ho : s.dev.active h.other = false) :
    ∃ t, exec (.holdPeer h) s = .next t ∧ t.pending = s.pending ∧ t.dev.hlfState h.other = 4 ∧ (t.dev.hlf h.other).hold = true ∧ t.dev.active h = true := by
  obtain ⟨e, he⟩ : ∃ e, (if s.dev.hlfState h.other = 4 then s.dev else s.dev.hlfOff h.other 4 0xD) = e := ⟨_, rfl⟩
  obtain ⟨h4, hst, -⟩ := he ▸ Dev.peerOff_shows s.dev h (beq_eq_false_iff_ne.mp ho)
  have hhold : s.dev.holdPeer h = e.modHlf h.other (fun x => { x with hold := true, faulted := false }) := by simp [Dev.holdPeer, ha, ho, he]
  refine ⟨_, next_of_out_eq hout rfl hhold, rfl, (Dev.get_modHlf ..).trans h4, ?_, ?_⟩
  · rw [State.dev_mk, Dev.hlf_modHlf_same]
  · exact (congrArg (· == 0) ((Dev.get_modHlf ..).trans hst)).trans ha

theorem releasePeer_releases (hhold : (s.dev.hlf h.other).hold = true) (hin : s.dev.inputOk h.other = true) :
    ∃ t, exec (.releasePeer h) s = .next t ∧ t.pending = s.pending ∧ t.dev.hlfState h.other = 5 ∧ (t.dev.hlf h.other).hold = false ∧ t.dev.active h = true := by
  obtain ⟨h5, h5o, hmarks, -⟩ := Dev.repairEnter_shows (s.dev.modHlf h.other (fun x => { x with hold := false })) h.other 0xD
    (by cases h <;> exact hin) (by rw [Dev.hlf_modHlf_same])
  have hrel : s.dev.releasePeer h = (s.dev.modHlf h.other (fun x => { x with hold := false })).repairEnter h.other 0xD := by simp [Dev.releasePeer, ha, hhold]
  have hoo : h.other.other = h := by cases h <;> rfl
  rw [hoo] at h5o
  refine ⟨_, next_of_out_eq hout rfl hrel, rfl, h5, ?_, ?_⟩
  · rw [State.dev_mk, hmarks, Dev.hlf_modHlf_same]
  · exact (congrArg (· == 0) (h5o.trans (Dev.get_modHlf ..))).trans ha

end

section
variable {s : State} (hout : s.out = true) (h : HalfId)
include hout

theorem autoRejoin_restarts (hst : s.dev.hlfState h = 4) (hf : (s.dev.hlf h).faulted = true) (hh : (s.dev.hlf h).hold = false)
    (hr : s.dev.running h.other = true) (hcfg : s.dev.on (ctl .hlf h.other) HLF.CFG_AUTO_REJOIN = true) (hin : s.dev.inputOk h = true) :
    let recent := (s.dev.hlf h).restarts.filter (fun t => decide (s.dev.now < t + day24))
    ∃ t, exec (.autoRejoin h true) s = .next t ∧ t.pending = s.pending ∧ (t.dev.hlf h).faulted = false ∧
      (recent.length < 3 → t.dev.hlfState h = 5 ∧ (t.dev.hlf h).restarts = recent ++ [s.dev.now]) ∧
      (recent.length ≥ 3 → t.dev.hlfState h = 4 ∧ t.dev.get (ctl .hlf h) HLF.STATE_CAUSE = 0xE) := by
  intro recent
  set d1 := s.dev.modHlf h (fun y => { y with faulted := false, restarts := recent }) with hd1
  by_cases hn : recent.length ≥ 3
  · have hrej : s.dev.autoRejoin h true = ((d1.put (ctl .hlf h) HLF.STATE_CAUSE 0xE).put (ctl .hlf h.other) HLF.STATE_PEER_CAUSE 0xE).note (ctl .hlf h)
        clsState 0xE h.n [4, 4] := by
      rw [Dev.autoRejoin, if_neg (by simp [hst, hf, hh, hr, hcfg, hin])]
      exact if_pos hn
    have hslt : ctl .hlf h ≠ shp .slt := by cases h <;> decide
    refine ⟨_, next_of_out_eq hout rfl hrej, rfl, ?_, fun hlt => absurd hlt (Nat.not_lt.mpr hn), fun _ => ⟨?_, ?_⟩⟩
    · rw [State.dev_mk, Dev.hlf_note, Dev.hlf_put, Dev.hlf_put, Dev.hlf_modHlf_same]
    · rw [State.dev_mk, Dev.hlfState, Dev.get_note_other _ _ _ _ _ hslt (by decide) (by decide) (by decide)]
      simp (disch := decide) only [Dev.get_put_field, hd1, Dev.get_modHlf]
      exact hst
    · rw [State.dev_mk, Dev.get_note_other _ _ _ _ _ hslt (by decide) (by decide) (by decide)]
      simp (disch := decide) only [Dev.get_put_field, Dev.get_put_same]
      rfl
  · set d2 := (d1.modHlf h (fun y => { y with restarts := recent ++ [d1.now] })).put (ctl .hlf h) HLF.REJOIN_N24 (recent.length + 1) with hd2
    have hrej : s.dev.autoRejoin h true = d2.repairEnter h 0xF := by
      rw [Dev.autoRejoin, if_neg (by simp [hst, hf, hh, hr, hcfg, hin])]
      exact if_neg hn
    have hnow : d1.now = s.dev.now := Dev.now_of_keeps (ps := []) (by simp [hd1]) (by decide)
    have hmarks : d2.hlf h = { s.dev.hlf h with faulted := false, restarts := recent ++ [s.dev.now] } := by
      rw [hd2, Dev.hlf_put, Dev.hlf_modHlf_same, hd1, Dev.hlf_modHlf_same, ← hd1, hnow]
    have hin2 : d2.inputOk h = true := by
      rw [← hin]
      cases h <;> simp (disch := decide) only [Dev.inputOk, Dev.on, hd2, hd1, Dev.get_put_other, Dev.get_modHlf]
    obtain ⟨h5, -, hm5, -⟩ := Dev.repairEnter_shows d2 h 0xF hin2 (by rw [hmarks]; exact hh)
    refine ⟨_, next_of_out_eq hout rfl hrej, rfl, ?_, fun _ => ⟨h5, ?_⟩, fun hge => absurd hge hn⟩
    · rw [State.dev_mk, hm5]
    · rw [State.dev_mk, hm5, hmarks]

theorem repairEntry_ready (hst : s.dev.hlfState h = 5) :
    ∃ t, exec (.repairEntry h []) s = .next t ∧ t.pending = s.pending ∧ (t.dev.hlf h).ready = true ∧ t.dev.hlfState h = 5 ∧ t.dev.mirUp = false ∧
      t.dev.on (ctl .mir h) MIR.LINK_TRAIN = true := by
  set d1 := s.dev.mirDown.modHlf h (fun x => { x with ready := true }) with hd1
  have hrep : s.dev.repairSteps h [] = d1.linkTrain := by simp [Dev.repairSteps, hst, hd1]
  have hst1 : d1.hlfState h = 5 := by
    rw [hd1, Dev.hlfState, Dev.get_modHlf, Dev.get_mirDown _ (by intro r; cases r <;> cases h <;> decide) (by decide) (by decide) (by decide) (by decide)]
    exact hst
  have hdown : d1.get (ctl .mir .a) MIR.LINK_UP ≠ 1 := by
    rw [hd1, Dev.get_modHlf]
    by_cases hup : s.dev.mirUp = true
    · exact beq_eq_false_iff_ne.mp (Dev.mirDown_shows s.dev h hup).1
    · rw [Dev.mirDown, if_neg hup]
      exact fun e => hup (beq_iff_eq.mpr e)
  refine ⟨_, next_of_out_eq hout rfl hrep, rfl, ?_, ?_, ?_, Dev.linkTrain_eq d1 h ?_⟩
  · rw [State.dev_mk, Dev.hlf_linkTrain, hd1, Dev.hlf_modHlf_same]
  · exact (Dev.get_of_keeps (Dev.keeps_linkTrain d1) (by decide) (by decide) (by decide) (by cases h <;> decide)).trans hst1
  · rw [State.dev_mk, Dev.mirUp, Dev.on, Dev.get_linkTrain _ (by decide) (by decide) (by decide) (by decide)]
    exact beq_eq_false_iff_ne.mpr hdown
  · simp [Dev.outOfReset, hst1]

theorem repairDone_waits (hno : s.dev.weir.strobed = false) : exec (.repairDone h) s = .next s :=
  next_of_out_eq hout rfl (by simp [Dev.repairDone, hno])

theorem repairDone_joins (hst : s.dev.hlfState h = 5) (hr : (s.dev.hlf h).ready = true) (hstr : s.dev.weir.strobed = true)
    (hv : s.dev.on (shp .wir) WIR.LEASE_VALID = true) (hgen : s.dev.bootGen.1 = none) :
    ∃ t, exec (.repairDone h) s = .next t ∧ t.pending = s.pending ∧ t.dev.hlfState h = 2 ∧ t.dev.get (ctl .hlf h) HLF.STATE_CAUSE = 9 := by
  have hjoin : s.dev.repairDone h = (s.dev.hlfTo h 2 9).startCores h := by
    have hgen' : ((s.dev.hlfTo h 2 9).startCores h).bootGen.1 = none := by
      rw [Dev.bootGen_congr ((Dev.store_startCores _ h).trans (Dev.store_hlfTo s.dev h 2 9)), hgen]
    simp [Dev.repairDone, hst, hr, hstr, hv, Dev.joinStandby, Dev.cfgHalf, hgen']
  have hread {f : Fld} (hf : f.fits = true) (hi : 0 < f.cnt) :
      ((s.dev.hlfTo h 2 9).startCores h).get (ctl .hlf h) f = (s.dev.hlfTo h 2 9).get (ctl .hlf h) f :=
    Dev.get_startCores_other _ h (by cases h <;> decide) (by cases h <;> decide) hf hi (by decide)
  refine ⟨_, next_of_out_eq hout rfl hjoin, rfl, (hread (by decide) (by decide)).trans (Dev.hlfState_hlfTo s.dev h 2 9), ?_⟩
  rw [State.dev_mk, hread (by decide) (by decide), Dev.cause_hlfTo]

end

/-- Settles O45: each step of a swap, a peer command, a restart and REPAIR by what it leaves; a reset of a half keeps the words of its state. -/
theorem swapsAndRepairs : Obligations.SwapsAndRepairs := by
  unfold Obligations.SwapsAndRepairs
  intro s h hout
  refine ⟨swap_arms hout h, swap_refuses hout h,
    fun c hh hst ho hheld hsh hc _ => swapRelease_releases hout h c hh hst ho hheld hsh hc,
    fun hp => ?_, swapCancel_cancels hout h, proofAgeDue_shows hout h,
    fun ha ho => ⟨resetPeer_restarts hout h ha ho, holdPeer_holds hout h ha ho, releasePeer_releases hout h ha⟩,
    peer_refuses hout h, autoRejoin_restarts hout h,
    fun hst => ⟨repairEntry_ready hout h hst, repairDone_joins hout h hst, repairDone_waits hout h⟩⟩
  cases h with
  | a => simpa only [Dev.ageFld] using swapProofDone_shows hout .a hp
  | b => simpa only [Dev.ageFld] using swapProofDone_shows hout .b hp

end Sys2Proof.Machine
end

section
/-! PROOFS. The clock: its count, a SET, its alarms, and the supply of the always-on domain. -/
namespace Sys2Proof.Machine

open Sys2Proof

namespace Dev

/-! ### What leaves the clock -/

/-- The registers of the clock that a TICK decides beside its alarms. -/
def clockFields : List Fld := [RTC.NOW_LO, RTC.NOW_HI, RTC.STATUS_BITS, RTC.SET_ST_STATE]

/-- A step that leaves the count, `STATUS`, the state of a SET and a pending SET, and stays on the pages of the clock and the calendar. -/
structure KeepsClock (d e : Dev) : Prop where
  gets : ∀ f ∈ clockFields, e.get (shp .rtc) f = d.get (shp .rtc) f
  pend : e.rtc.pend = d.rtc.pend
  shadow : e.shadow = d.shadow
  weir : e.weir = d.weir
  keeps : d.keeps e [shp .rtc, shp .cal, shp .slt]

theorem KeepsClock.refl (d : Dev) : KeepsClock d d := ⟨fun _ _ => rfl, rfl, rfl, rfl, keeps_refl d _⟩

theorem KeepsClock.trans {d e f : Dev} (h1 : KeepsClock d e) (h2 : KeepsClock e f) : KeepsClock d f :=
  ⟨fun g hg => (h2.gets g hg).trans (h1.gets g hg), h2.pend.trans h1.pend, h2.shadow.trans h1.shadow, h2.weir.trans h1.weir, keeps_trans h1.keeps h2.keeps⟩

theorem KeepsClock.now {d e : Dev} (h : KeepsClock d e) : e.now = d.now := by
  rw [Dev.now, Dev.now, get64, get64, h.gets _ (by simp [clockFields]), h.gets _ (by simp [clockFields])]

theorem fits_clockFields {f : Fld} (hf : f ∈ clockFields) : f.fits = true ∧ 0 < f.cnt := by
  fin_cases hf <;> decide

section
variable (d : Dev)

theorem keepsClock_put {f : Fld} (v : Nat) {i t : Nat} (ha : ∀ g ∈ clockFields, f.apart g = true) (hf : f.fits = true) (hi : i < f.cnt) (ht : t < 65536) :
    KeepsClock d (d.put (shp .rtc) f v i t) :=
  ⟨fun g hg => get_put_apart d v (ha g hg) hf (fits_clockFields hg).1 hi (fits_clockFields hg).2 ht (by decide), rfl, rfl, rfl,
    (keeps_put_iff (by simp) hf hi ht).mpr (keeps_refl d _)⟩

theorem keepsClock_put_cal (f : Fld) (v : Nat) {t : Nat} (hf : f.fits = true) (hi : 0 < f.cnt) (ht : t < 65536) : KeepsClock d (d.put (shp .cal) f v 0 t) :=
  ⟨fun g hg => get_put_other d v (by decide) hf (fits_clockFields hg).1 hi (fits_clockFields hg).2 ht (by decide), rfl, rfl, rfl,
    (keeps_put_iff (by simp) hf hi ht).mpr (keeps_refl d _)⟩

theorem keepsClock_stat (k : Nat) : KeepsClock d (d.stat (shp .rtc) k) := keepsClock_put d _ (by decide) (by decide) (by decide) (by decide)

theorem keepsClock_err (c x : Nat) : KeepsClock d (d.err (shp .rtc) c x) :=
  (keepsClock_put d (f := HDR.ERR_COUNT) _ (by decide) (by decide) (by decide) (by decide)).trans
    ((keepsClock_put _ (f := HDR.ERR_CODE) _ (by decide) (by decide) (by decide) (by decide)).trans
      (keepsClock_put _ (f := HDR.ERR_DETAIL) _ (by decide) (by decide) (by decide) (by decide)))

theorem keepsClock_post (r : Rec) : KeepsClock d (d.post r) :=
  ⟨fun g hg => get_post_other d r (by decide) (fits_clockFields hg).1 (fits_clockFields hg).2 (by decide), by rw [post_rtc], post_shadow .., post_weir ..,
    keeps_post d r _ (by simp)⟩

theorem keepsClock_modRtc (g : Rtc → Rtc) (hg : (g d.rtc).pend = d.rtc.pend) : KeepsClock d (d.modRtc g) :=
  ⟨fun _ _ => rfl, hg, rfl, rfl, (keeps_modRtc_iff ..).mpr (keeps_refl d _)⟩

theorem keepsClock_ite {d e f : Dev} (c : Prop) [Decidable c] (he : KeepsClock d e) (hf : KeepsClock d f) : KeepsClock d (if c then e else f) := by
  split
  · exact he
  · exact hf

theorem keepsClock_foldl {f : Dev → Nat → Dev} : ∀ (l : List Nat) (d : Dev), (∀ d, ∀ x ∈ l, KeepsClock d (f d x)) → KeepsClock d (l.foldl f d)
  | [], d, _ => KeepsClock.refl d
  | x :: l, d, hf => (hf d x List.mem_cons_self).trans (keepsClock_foldl l _ fun d y hy => hf d y (List.mem_cons_of_mem x hy))

end

/-- A value written to two words is read back. -/
theorem get64_put64 (d : Dev) (p : Nat) {lo hi : Fld} (v i : Nat) (ha : hi.apart lo = true) (hlo : lo.fits = true ∧ lo.w = 32) (hhi : hi.fits = true ∧ hi.w = 32)
    (hil : i < lo.cnt) (hih : i < hi.cnt) : (d.put64 p lo hi v i).get64 p lo hi i = v % 2 ^ 64 := by
  rw [get64, put64, get_put_apart _ _ ha hhi.1 hlo.1 hih hil (by decide) (by decide), get_put_same _ _ _ _ _ _ (by omega), get_put_same _ _ _ _ _ _ (by omega),
    hlo.2, hhi.2]
  omega

/-! ### Alarms -/

/-- An alarm that is due, before what it does next. -/
def alarmShown (d : Dev) (k : Nat) : Dev :=
  let p := shp .rtc
  let a := d.get64 p RTC.ALM_LO RTC.ALM_HI k
  let e := (d.put p RTC.ALM_ST_FIRED 1 k).stat p k
  if d.now > a then (((e.put p RTC.ALM_ST_SKIPPED 1 k).err p cRTC_SKIPPED k).note p clsTime cRTC_SKIPPED k [a % 2 ^ 32, a / 2 ^ 32]) else e

/-- What an alarm that is due does next: it is disarmed, or moves on. -/
def alarmNext (d e : Dev) (k : Nat) : Dev :=
  let p := shp .rtc
  let a := d.get64 p RTC.ALM_LO RTC.ALM_HI k
  let per := e.get p RTC.ALM_PER_S k * 65536
  if per = 0 then (e.put p RTC.ALM_ST_ARMED 0 k).modRtc (fun r => { r with fired := lset r.fired k true })
  else e.put64 p RTC.ALM_LO RTC.ALM_HI (a + ((d.now - a) / per + 1) * per) k

theorem rtcAlarm_eq (d : Dev) (k : Nat) : d.rtcAlarm k =
    if !d.on (shp .rtc) RTC.ALM_ST_ARMED k || decide (d.now < d.get64 (shp .rtc) RTC.ALM_LO RTC.ALM_HI k) then d else alarmNext d (d.alarmShown k) k := by
  unfold rtcAlarm alarmNext alarmShown
  rfl

section
variable (d : Dev) {k : Nat} (hk : k < 4)
include hk

theorem keepsClock_alarmShown : KeepsClock d (d.alarmShown k) := by
  have hput (d : Dev) (f : Fld) (v : Nat) (ha : ∀ g ∈ clockFields, f.apart g = true) (hf : f.fits = true) (hi : k < f.cnt) :
      KeepsClock d (d.put (shp .rtc) f v k) := keepsClock_put d v ha hf hi (by decide)
  have hshown := (hput d RTC.ALM_ST_FIRED 1 (by decide) (by decide) hk).trans (keepsClock_stat _ k)
  exact keepsClock_ite _ (hshown.trans ((hput _ RTC.ALM_ST_SKIPPED 1 (by decide) (by decide) hk).trans ((keepsClock_err _ cRTC_SKIPPED k).trans
    (keepsClock_post ..)))) hshown

theorem keepsClock_alarmNext (e : Dev) : KeepsClock e (alarmNext d e k) := by
  have hput (d : Dev) (f : Fld) (v : Nat) (ha : ∀ g ∈ clockFields, f.apart g = true) (hf : f.fits = true) (hi : k < f.cnt) :
      KeepsClock d (d.put (shp .rtc) f v k) := keepsClock_put d v ha hf hi (by decide)
  exact keepsClock_ite _ ((hput e RTC.ALM_ST_ARMED 0 (by decide) (by decide) hk).trans (keepsClock_modRtc _ _ rfl))
    ((hput e RTC.ALM_LO _ (by decide) (by decide) hk).trans (hput _ RTC.ALM_HI _ (by decide) (by decide) hk))

theorem keepsClock_rtcAlarm : KeepsClock d (d.rtcAlarm k) := by
  rw [rtcAlarm_eq]
  exact keepsClock_ite _ (KeepsClock.refl d) ((keepsClock_alarmShown d hk).trans (keepsClock_alarmNext d hk _))

/-- What an alarm shows when it fires. -/
theorem alarmShown_shows : (d.alarmShown k).get (shp .rtc) RTC.ALM_ST_FIRED k = 1 ∧
    (d.get64 (shp .rtc) RTC.ALM_LO RTC.ALM_HI k < d.now →
      (d.alarmShown k).get (shp .rtc) RTC.ALM_ST_SKIPPED k = 1 ∧ (d.alarmShown k).get (shp .rtc) HDR.ERR_CODE = cRTC_SKIPPED) := by
  have hk1 : k < RTC.ALM_ST_FIRED.cnt := hk
  have hk2 : k < RTC.ALM_ST_SKIPPED.cnt := hk
  unfold alarmShown
  dsimp only
  constructor
  · split <;> simp (disch := first | decide | assumption) [note, err, bump, get_post_other, get_stat_apart, get_put_apart, get_put_same]
  · intro hlt
    rw [if_pos hlt]
    constructor
    · simp (disch := first | decide | assumption) [note, err, bump, get_post_other, get_stat_apart, get_put_apart, get_put_same]
    · simp (disch := first | decide | assumption) [note, err, bump, get_post_other, get_stat_apart, get_put_apart, get_put_same]
      decide

/-- A register of the alarm that its firing does not show. -/
theorem get_alarmShown {f : Fld} {i : Nat} (ha : ∀ g ∈ [RTC.ALM_ST_FIRED, RTC.ALM_ST_SKIPPED, HDR.STAT_BLOCK, HDR.ERR_COUNT, HDR.ERR_CODE, HDR.ERR_DETAIL],
    g.apart f = true) (hf : f.fits = true) (hi : i < f.cnt) : (d.alarmShown k).get (shp .rtc) f i = d.get (shp .rtc) f i := by
  have hput (d : Dev) (g : Fld) (v : Nat) (j : Nat) (hg : g ∈ [RTC.ALM_ST_FIRED, RTC.ALM_ST_SKIPPED, HDR.STAT_BLOCK, HDR.ERR_COUNT, HDR.ERR_CODE, HDR.ERR_DETAIL])
      (hgf : g.fits = true) (hj : j < g.cnt) : (d.put (shp .rtc) g v j).get (shp .rtc) f i = d.get (shp .rtc) f i :=
    get_put_apart d v (ha g hg) hgf hf hj hi (by decide) (by decide)
  have hk1 : k < RTC.ALM_ST_FIRED.cnt := hk
  have hk2 : k < RTC.ALM_ST_SKIPPED.cnt := hk
  unfold alarmShown
  dsimp only
  split <;> simp (disch := first | decide | assumption | simp) only [note, err, bump, stat, orBits, get_post_other, hput]

theorem now_rtcAlarm : (d.rtcAlarm k).now = d.now := (keepsClock_rtcAlarm d hk).now

/-- What an alarm that is due leaves. -/
theorem rtcAlarm_shows (hon : d.on (shp .rtc) RTC.ALM_ST_ARMED k = true) (hle : d.get64 (shp .rtc) RTC.ALM_LO RTC.ALM_HI k ≤ d.now) :
    let a := d.get64 (shp .rtc) RTC.ALM_LO RTC.ALM_HI k
    let per := d.get (shp .rtc) RTC.ALM_PER_S k * 65536
    let e := d.rtcAlarm k
    e.get (shp .rtc) RTC.ALM_ST_FIRED k = 1 ∧
      (a < d.now → e.get (shp .rtc) RTC.ALM_ST_SKIPPED k = 1 ∧ e.get (shp .rtc) HDR.ERR_CODE = cRTC_SKIPPED) ∧
      (per = 0 → e.get (shp .rtc) RTC.ALM_ST_ARMED k = 0) ∧
      (per ≠ 0 → e.on (shp .rtc) RTC.ALM_ST_ARMED k = true ∧ e.get64 (shp .rtc) RTC.ALM_LO RTC.ALM_HI k = (a + ((d.now - a) / per + 1) * per) % 2 ^ 64) := by
  intro a per e
  have he : e = alarmNext d (d.alarmShown k) k := by
    show d.rtcAlarm k = _
    rw [rtcAlarm_eq, if_neg (by simp [hon, hle])]
  have hper : (d.alarmShown k).get (shp .rtc) RTC.ALM_PER_S k = d.get (shp .rtc) RTC.ALM_PER_S k := get_alarmShown d hk (by decide) (by decide) hk
  have harm : (d.alarmShown k).get (shp .rtc) RTC.ALM_ST_ARMED k = d.get (shp .rtc) RTC.ALM_ST_ARMED k := get_alarmShown d hk (by decide) (by decide) hk
  obtain ⟨hfired, hskip⟩ := alarmShown_shows d hk
  by_cases h0 : per = 0
  · have hn : e = ((d.alarmShown k).put (shp .rtc) RTC.ALM_ST_ARMED 0 k).modRtc (fun r => { r with fired := lset r.fired k true }) := by
      rw [he, alarmNext, hper, if_pos h0]
    have hget {f : Fld} {i : Nat} (ha : RTC.ALM_ST_ARMED.apart f = true) (hf : f.fits = true) (hi : i < f.cnt) :
        e.get (shp .rtc) f i = (d.alarmShown k).get (shp .rtc) f i := by
      rw [hn, get_modRtc, get_put_apart _ _ ha (by decide) hf hk hi (by decide) (by decide)]
    refine ⟨(hget (by decide) (by decide) hk).trans hfired, fun hlt => ?_, fun _ => ?_, fun hne => absurd h0 hne⟩
    · exact ⟨(hget (by decide) (by decide) hk).trans (hskip hlt).1, (hget (by decide) (by decide) (by decide)).trans (hskip hlt).2⟩
    · rw [hn, get_modRtc, get_put_same _ _ _ _ _ _ (by decide)]
      rfl
  · have hn : e = (d.alarmShown k).put64 (shp .rtc) RTC.ALM_LO RTC.ALM_HI (a + ((d.now - a) / per + 1) * per) k := by
      rw [he, alarmNext, hper, if_neg h0]
    have hget {f : Fld} {i : Nat} (h1 : RTC.ALM_LO.apart f = true) (h2 : RTC.ALM_HI.apart f = true) (hf : f.fits = true) (hi : i < f.cnt) :
        e.get (shp .rtc) f i = (d.alarmShown k).get (shp .rtc) f i := by
      rw [hn, put64, get_put_apart _ _ h2 (by decide) hf hk hi (by decide) (by decide), get_put_apart _ _ h1 (by decide) hf hk hi (by decide) (by decide)]
    refine ⟨(hget (by decide) (by decide) (by decide) hk).trans hfired, fun hlt => ?_, fun hz => absurd hz h0, fun _ => ⟨?_, ?_⟩⟩
    · exact ⟨(hget (by decide) (by decide) (by decide) hk).trans (hskip hlt).1,
        (hget (by decide) (by decide) (by decide) (by decide)).trans (hskip hlt).2⟩
    · rw [on, hget (by decide) (by decide) (by decide) hk, harm]
      exact hon
    · rw [hn]
      exact get64_put64 _ _ _ _ (by decide) (by decide) (by decide) hk hk

end

/-! ### A TICK -/

section
variable (d : Dev)

theorem keepsClock_put64 {lo hi : Fld} (v : Nat) (hl : ∀ g ∈ clockFields, lo.apart g = true) (hh : ∀ g ∈ clockFields, hi.apart g = true)
    (hfl : lo.fits = true ∧ 0 < lo.cnt) (hfh : hi.fits = true ∧ 0 < hi.cnt) : KeepsClock d (d.put64 (shp .rtc) lo hi v) :=
  (keepsClock_put d _ hl hfl.1 hfl.2 (by decide)).trans (keepsClock_put _ _ hh hfh.1 hfh.2 (by decide))

/-- An event with nothing staged, at the clock or at the calendar. -/
theorem keepsClock_quiet {p : Nat} (hp : p = shp .rtc ∨ p = shp .cal) (half : Option HalfId) (seq : Nat) : KeepsClock d (d.showQuiet p half seq 0) := by
  refine ⟨fun g hg => ?_, ?_, showQuiet_shadow .., ?_, keeps_mono (showQuiet_keeps d p half seq 0) (by rcases hp with rfl | rfl <;> simp)⟩
  · rcases hp with rfl | rfl
    · exact showQuiet_body d _ half seq 0 (inside_of_fits (fits_clockFields hg).1 (fits_clockFields hg).2 (by decide)) (by fin_cases hg <;> decide)
    · exact get_of_keeps (showQuiet_keeps d _ half seq 0) (fits_clockFields hg).1 (fits_clockFields hg).2 (by decide) (by decide)
  · unfold showQuiet markEvent
    cases half <;> rfl
  · unfold showQuiet markEvent
    cases half <;> rfl

theorem applied_nothing {e : Dev} (hs : d.shadow = []) (p : Nat) (half : Option HalfId) : applied d e p half = [] := by
  simp [applied, waiting, hs]

theorem keepsClock_applyRtc (hs : d.shadow = []) (h : HalfId) (seq : Nat) : KeepsClock d (d.applyRtc h seq) := by
  have hq : d.applyRtc h seq = d.showQuiet (shp .rtc) (some h) seq 0 := by
    simp only [applyRtc, applied_nothing d hs]
    exact applyPage_empty d _ _ _ _ _ (by simp [hs])
  rw [hq]
  exact keepsClock_quiet d (.inl rfl) (some h) seq

theorem keepsClock_applyCal (hs : d.shadow = []) (h : HalfId) (seq : Nat) : KeepsClock d (d.applyCal h seq) := by
  have hq : d.applyCal h seq = d.showQuiet (shp .cal) (some h) seq 0 := by
    simp only [applyCal, applied_nothing d hs]
    exact applyPage_empty d _ _ _ _ _ (by simp [hs])
  rw [hq]
  exact keepsClock_quiet d (.inr rfl) (some h) seq

theorem keepsClock_calSync : KeepsClock d d.calSync := by
  have hput (d : Dev) (f : Fld) (v : Nat) (hf : f.fits = true) (hi : 0 < f.cnt) := keepsClock_put_cal d f v (t := 0) hf hi (by decide)
  exact (hput d CAL.NOW0_SEC _ (by decide) (by decide)).trans <| (hput _ CAL.NOW0_MIN _ (by decide) (by decide)).trans <|
    (hput _ CAL.NOW0_HOUR _ (by decide) (by decide)).trans <| (hput _ CAL.NOW0_WDAY _ (by decide) (by decide)).trans <|
    (hput _ CAL.NOW1_DAY _ (by decide) (by decide)).trans <| (hput _ CAL.NOW1_MONTH _ (by decide) (by decide)).trans <|
    (hput _ CAL.NOW1_YEAR _ (by decide) (by decide)).trans <| hput _ HDR.STAT_BLOCK _ (by decide) (by decide)

theorem keepsClock_calSyncCmd : KeepsClock d d.calSyncCmd :=
  (keepsClock_modRtc d (fun r => { r with calSync := false }) rfl).trans ((keepsClock_calSync _).trans (keepsClock_post ..))

theorem keepsClock_calCarry : KeepsClock d d.calCarry := by
  have hput (d : Dev) (f : Fld) (v : Nat) (hf : f.fits = true) (hi : 0 < f.cnt) := keepsClock_put_cal d f v (t := 0) hf hi (by decide)
  have hsec := hput d CAL.NOW0_SEC 0 (by decide) (by decide)
  have hmin := hsec.trans (hput _ CAL.NOW0_MIN 0 (by decide) (by decide))
  have hhour := hmin.trans (hput _ CAL.NOW0_HOUR 0 (by decide) (by decide))
  have hday (v : Nat) := (hhour.trans (hput _ CAL.NOW0_WDAY v (by decide) (by decide))).trans (hput _ CAL.NOW1_DAY 1 (by decide) (by decide))
  unfold calCarry
  dsimp only
  exact keepsClock_ite _ (hput d _ _ (by decide) (by decide)) <| keepsClock_ite _ (hsec.trans (hput _ _ _ (by decide) (by decide))) <|
    keepsClock_ite _ (hmin.trans (hput _ _ _ (by decide) (by decide))) <|
    keepsClock_ite _ ((hhour.trans (hput _ CAL.NOW0_WDAY _ (by decide) (by decide))).trans (hput _ _ _ (by decide) (by decide))) <|
    keepsClock_ite _ (((hday _).trans (hput _ CAL.NOW1_MONTH _ (by decide) (by decide))).trans (hput _ CAL.NOW1_YEAR _ (by decide) (by decide)))
      ((hday _).trans (hput _ CAL.NOW1_MONTH _ (by decide) (by decide)))

/-- What a TICK does once the count stands: staged values, the synchronisation of the calendar, and the alarms. -/
def tickRest (d : Dev) (setSync : Bool) : Dev :=
  let seq := d.now % 65536
  let d := match d.holder? with
    | some h => (d.applyRtc h seq).applyCal h seq
    | none => ([shp .rtc, shp .cal] : List Nat).foldl (fun d p => (d.put p HDR.COMMIT_SEQ seq 0 0).put p HDR.COMMIT_SEQ seq 0 1) d
  let d := if d.rtc.calSync then d.calSyncCmd else if setSync then d.calSync else d
  (List.range 4).foldl rtcAlarm d

theorem keepsClock_alarms : KeepsClock d ((List.range 4).foldl rtcAlarm d) :=
  keepsClock_foldl _ d fun d _ hk => keepsClock_rtcAlarm d (List.mem_range.mp hk)

theorem keepsClock_tickRest (hs : d.shadow = []) (setSync : Bool) : KeepsClock d (d.tickRest setSync) := by
  unfold tickRest
  dsimp only
  refine KeepsClock.trans ?_ (keepsClock_alarms _)
  refine KeepsClock.trans ?_ (keepsClock_ite _ (keepsClock_calSyncCmd _) (keepsClock_ite _ (keepsClock_calSync _) (KeepsClock.refl _)))
  split
  case h_1 h _ =>
    have hrtc := keepsClock_applyRtc d hs h (d.now % 65536)
    exact hrtc.trans (keepsClock_applyCal _ (hrtc.shadow.trans hs) h _)
  case h_2 =>
    have hrtc (d : Dev) (v t : Nat) (ht : t < 65536) : KeepsClock d (d.put (shp .rtc) HDR.COMMIT_SEQ v 0 t) :=
      keepsClock_put d v (by decide) (by decide) (by decide) ht
    have hcal (d : Dev) (v t : Nat) (ht : t < 65536) := keepsClock_put_cal d HDR.COMMIT_SEQ v (t := t) (by decide) (by decide) ht
    exact (hrtc d _ 0 (by decide)).trans <| (hrtc _ _ 1 (by decide)).trans <| (hcal _ _ 0 (by decide)).trans (hcal _ _ 1 (by decide))

/-! ### The count -/

/-- The count one further, with the calendar at a full second. -/
def countOn (d : Dev) : Dev :=
  let c := (d.now + 1) % 2 ^ 64
  let d := d.put64 (shp .rtc) RTC.NOW_LO RTC.NOW_HI c
  if c % 65536 = 0 then d.calCarry else d

theorem rtcTick_eq : d.rtcTick =
    let c := match d.rtc.pend with | some (v, _, mid, priv) => d.rtcApplySet v mid priv | none => d.countOn
    (c.tickRest (match d.rtc.pend with | some (_, s, _, _) => s | none => false), c.now / 65536 != d.now / 65536) := rfl

theorem aoTick_eq : d.aoTick = (List.range 4).foldl rtcAlarm d.countOn := rfl

/-- The count after a write of both its words. -/
theorem now_put64 (v : Nat) : (d.put64 (shp .rtc) RTC.NOW_LO RTC.NOW_HI v).now = v % 2 ^ 64 :=
  get64_put64 d _ v 0 (by decide) (by decide) (by decide) (by decide) (by decide)

theorem keeps_put64_now (v : Nat) : d.keeps (d.put64 (shp .rtc) RTC.NOW_LO RTC.NOW_HI v) [shp .rtc, shp .cal, shp .slt] :=
  (keeps_put_iff (by simp) (by decide) (by decide) (by decide)).mpr ((keeps_put_iff (by simp) (by decide) (by decide) (by decide)).mpr (keeps_refl d _))

/-- What counting on shows, and what it leaves. -/
theorem countOn_shows : d.countOn.now = (d.now + 1) % 2 ^ 64 ∧ d.countOn.shadow = d.shadow ∧ d.countOn.weir = d.weir ∧
    d.keeps d.countOn [shp .rtc, shp .cal, shp .slt] := by
  have hk : KeepsClock (d.put64 (shp .rtc) RTC.NOW_LO RTC.NOW_HI ((d.now + 1) % 2 ^ 64)) d.countOn :=
    keepsClock_ite _ (keepsClock_calCarry _) (KeepsClock.refl _)
  refine ⟨?_, hk.shadow, hk.weir, keeps_trans (keeps_put64_now d _) hk.keeps⟩
  rw [hk.now, now_put64, Nat.mod_mod]

theorem keepsClock_rtcRearm {k : Nat} (hk : k < 4) : KeepsClock d (d.rtcRearm k) := by
  unfold rtcRearm
  exact keepsClock_ite _ ((keepsClock_put d (f := RTC.ALM_ST_ARMED) _ (by decide) (by decide) hk (by decide)).trans (keepsClock_modRtc _ _ rfl))
    (KeepsClock.refl d)

/-- A bit of `RTC.STATUS` after it has been written. -/
theorem bit_rtcStatus (k : Nat) (b : Bool) (hk : k < 6) : bitN ((d.rtcStatus k b).get (shp .rtc) RTC.STATUS_BITS) k = b.toNat := by
  rw [rtcStatus, putBit, get_put_same _ _ _ _ _ _ (by decide), bitN_eq_testBit, Nat.testBit_mod_two_pow, testBit_setBitN]
  simp [show RTC.STATUS_BITS.w = 6 from rfl, hk]

theorem bit_rtcStatus_other {k j : Nat} (b : Bool) (hj : j < 6) (h : j ≠ k) :
    bitN ((d.rtcStatus k b).get (shp .rtc) RTC.STATUS_BITS) j = bitN (d.get (shp .rtc) RTC.STATUS_BITS) j := by
  rw [rtcStatus, putBit, get_put_same _ _ _ _ _ _ (by decide), bitN_eq_testBit, bitN_eq_testBit, Nat.testBit_mod_two_pow, testBit_setBitN, if_neg h]
  simp [show RTC.STATUS_BITS.w = 6 from rfl, hj]

theorem keeps_rtcStatus (k : Nat) (b : Bool) : d.keeps (d.rtcStatus k b) [shp .rtc] :=
  (keeps_put_iff (by simp) (by decide) (by decide) (by decide)).mpr (keeps_refl d _)

/-- The count and the state of a SET after it has been applied, before the alarms are armed again. -/
def setDone (d : Dev) (v mid priv : Nat) : Dev :=
  let p := shp .rtc
  let ws := [d.now % 2 ^ 32, d.now / 2 ^ 32, v % 2 ^ 32, v / 2 ^ 32]
  let e := (d.put64 p RTC.NOW_LO RTC.NOW_HI v).post ⟨v, 0, 16, clsTime, 0, srcOf p, p % 256, mid, priv, 0, ws.flatMap (leBytes 4)⟩
  let e := (e.put p RTC.SET_ST_STATE 2).put p RTC.SET_ST_REASON 0
  (((e.stat p 4).rtcStatus 0 true).rtcStatus 1 false).modRtc (fun r => { r with pend := none })

theorem rtcApplySet_eq (v mid priv : Nat) :
    d.rtcApplySet v mid priv = if v < d.now then (List.range 4).foldl rtcRearm (d.setDone v mid priv) else d.setDone v mid priv := rfl

theorem setDone_shows (v mid priv : Nat) : let e := d.setDone v mid priv
    e.now = v % 2 ^ 64 ∧ e.rtc.pend = none ∧ e.get (shp .rtc) RTC.SET_ST_STATE = 2 ∧ bitN (e.get (shp .rtc) RTC.STATUS_BITS) 0 = 1 ∧
      bitN (e.get (shp .rtc) RTC.STATUS_BITS) 1 = 0 ∧ e.shadow = d.shadow ∧ e.weir = d.weir ∧ d.keeps e [shp .rtc, shp .cal, shp .slt] := by
  intro e
  refine ⟨?_, rfl, ?_, ?_, ?_, ?_, ?_, ?_⟩
  · have hget (f : Fld) (hf : f ∈ [RTC.NOW_LO, RTC.NOW_HI]) : e.get (shp .rtc) f = (d.put64 (shp .rtc) RTC.NOW_LO RTC.NOW_HI v).get (shp .rtc) f := by
      fin_cases hf <;> simp (disch := decide) only [e, setDone, get_modRtc, rtcStatus, putBit, get_put_apart, get_stat_apart, get_post_other]
    rw [now, get64, hget _ (by simp), hget _ (by simp)]
    exact now_put64 d v
  · simp (disch := decide) only [e, setDone, get_modRtc, rtcStatus, putBit, get_put_apart, get_stat_apart, get_put_same]
    decide
  · simp only [e, setDone, get_modRtc]
    rw [bit_rtcStatus_other _ _ (by decide) (by decide), bit_rtcStatus _ _ _ (by decide)]
    rfl
  · simp only [e, setDone, get_modRtc]
    rw [bit_rtcStatus _ _ _ (by decide)]
    rfl
  · exact post_shadow ..
  · exact post_weir ..
  · simp (disch := first | decide | simp) only [e, setDone, keeps_modRtc_iff, rtcStatus, putBit, keeps_put_iff, keeps_stat_iff, keeps_post_iff]
    exact keeps_put64_now d v

/-- What a SET that is applied shows, and what it leaves. -/
theorem rtcApplySet_shows (v mid priv : Nat) : let e := d.rtcApplySet v mid priv
    e.now = v % 2 ^ 64 ∧ e.rtc.pend = none ∧ e.get (shp .rtc) RTC.SET_ST_STATE = 2 ∧ bitN (e.get (shp .rtc) RTC.STATUS_BITS) 0 = 1 ∧
      bitN (e.get (shp .rtc) RTC.STATUS_BITS) 1 = 0 ∧ e.shadow = d.shadow ∧ e.weir = d.weir ∧ d.keeps e [shp .rtc, shp .cal, shp .slt] := by
  intro e
  have hk : KeepsClock (d.setDone v mid priv) e := by
    show KeepsClock _ (d.rtcApplySet v mid priv)
    rw [rtcApplySet_eq]
    exact keepsClock_ite _ (keepsClock_foldl _ _ fun d _ hk => keepsClock_rtcRearm d (List.mem_range.mp hk)) (KeepsClock.refl _)
  obtain ⟨hnow, hpend, hst, hb0, hb1, hsh, hw, hkeeps⟩ := setDone_shows d v mid priv
  refine ⟨hk.now.trans hnow, hk.pend.trans hpend, (hk.gets _ (by simp [clockFields])).trans hst, ?_, ?_, hk.shadow.trans hsh, hk.weir.trans hw,
    keeps_trans hkeeps hk.keeps⟩
  all_goals rw [hk.gets _ (by simp [clockFields])]
  · exact hb0
  · exact hb1

/-! ### The part at a TICK -/

/-- The lease one TICK older, with no abort left in progress. -/
def tickLease (d : Dev) : Dev := { d with aborting := [] }.leaseTick

/-- The lease with an age, in TICKs and as it is shown. -/
def leaseAge (d : Dev) (n v : Nat) : Dev := ({ d with aborting := [] }.modWeir (fun x => { x with ticks := n })).put (shp .wir) WIR.LEASE_AGE v

theorem tickLease_eq : d.tickLease =
    let e := d.leaseAge (min (d.weir.ticks + 1) 68) (min 1023 (min (d.weir.ticks + 1) 68 * 1000000 / 65536))
    if min (d.weir.ticks + 1) 68 ≥ 18 then e.proofMissed else e := rfl

theorem proofMissed_eq : ∃ pr, d.proofMissed = d.modWeir (fun w => { w with proof := pr }) := by
  unfold proofMissed
  split
  · exact ⟨_, rfl⟩
  · exact ⟨d.weir.proof, rfl⟩

theorem leaseAge_shows (n v : Nat) (hv : v < 1024) (e : Dev) (he : e = d.leaseAge n v) :
    e.weir.ticks = n ∧ e.get (shp .wir) WIR.LEASE_AGE = v ∧ e.rtc = d.rtc ∧ e.shadow = d.shadow ∧ e.now = d.now ∧ d.keeps e [shp .wir] := by
  subst he
  have hk : d.keeps (d.leaseAge n v) [shp .wir] := (keeps_put_iff (by simp) (by decide) (by decide) (by decide)).mpr (keeps_refl d _)
  refine ⟨rfl, ?_, rfl, rfl, ?_, hk⟩
  · rw [leaseAge, get_put_same _ _ _ _ _ _ (by decide)]
    exact Nat.mod_eq_of_lt hv
  · rw [now, get64, get_of_keeps hk (by decide) (by decide) (by decide) (by decide), get_of_keeps hk (by decide) (by decide) (by decide) (by decide), now, get64]

/-- What a missed proof of a swap leaves of the part. -/
theorem proofMissed_leaves : d.proofMissed.weir.ticks = d.weir.ticks ∧ d.proofMissed.regs = d.regs ∧ d.proofMissed.rtc = d.rtc ∧
    d.proofMissed.shadow = d.shadow ∧ d.proofMissed.memories = d.memories := by
  obtain ⟨pr, hpr⟩ := proofMissed_eq d
  rw [hpr]
  exact ⟨rfl, rfl, rfl, rfl, rfl⟩

theorem tickLease_shows : d.tickLease.weir.ticks = min (d.weir.ticks + 1) 68 ∧
    d.tickLease.get (shp .wir) WIR.LEASE_AGE = min 1023 (min (d.weir.ticks + 1) 68 * 1000000 / 65536) ∧ d.tickLease.rtc = d.rtc ∧
    d.tickLease.shadow = d.shadow ∧ d.tickLease.now = d.now ∧ d.keeps d.tickLease [shp .wir] := by
  rw [tickLease_eq]
  have hlt : min 1023 (min (d.weir.ticks + 1) 68 * 1000000 / 65536) < 1024 := Nat.lt_of_le_of_lt (Nat.min_le_left ..) (by decide)
  generalize min 1023 (min (d.weir.ticks + 1) 68 * 1000000 / 65536) = v at hlt ⊢
  generalize min (d.weir.ticks + 1) 68 = n
  obtain ⟨ht, hv, hrtc, hs, hnow, hk⟩ := leaseAge_shows d n v hlt _ rfl
  dsimp only
  split
  · obtain ⟨pt, pregs, prtc, ps, pm⟩ := proofMissed_leaves (d.leaseAge n v)
    have hget (p : Nat) (f : Fld) : (d.leaseAge n v).proofMissed.get p f = (d.leaseAge n v).get p f := by rw [get, get, pregs]
    refine ⟨pt.trans ht, (hget _ _).trans hv, prtc.trans hrtc, ps.trans hs, ?_, ?_⟩
    · rw [now, get64, hget, hget]
      exact hnow
    · exact ⟨pm.trans hk.1, fun k hk' => by rw [pregs]; exact hk.2 k hk'⟩
  · exact ⟨ht, hv, hrtc, hs, hnow, hk⟩

theorem portBegin_eq (port b : Nat) : ∃ g, d.portBegin port b = d.modGlk g := by
  unfold portBegin
  split <;> exact ⟨_, rfl⟩

theorem portTick_eq (port : Nat) : ∃ g, d.portTick port = d.modGlk g := by
  unfold portTick
  split
  · split
    · exact ⟨_, rfl⟩
    · exact portBegin_eq ..
  · exact portBegin_eq ..

/-- A TICK of the group ring sends its frames only. -/
theorem glkTick_eq : ∃ g, d.glkTick = d.modGlk g := by
  unfold glkTick
  split
  · exact ⟨id, rfl⟩
  · obtain ⟨g0, h0⟩ := portTick_eq d 0
    obtain ⟨g1, h1⟩ := portTick_eq (d.portTick 0) 1
    exact ⟨g1 ∘ g0, by rw [h1, h0]; rfl⟩

theorem tick_eq : d.tick =
    if !d.boot.released then (if d.rtc.onVbat && d.rtcBit 2 then d else d.aoTick)
    else (if d.tickLease.rtcTick.2 then d.tickLease.rtcTick.1.second else d.tickLease.rtcTick.1).glkTick := rfl

/-- A TICK within a second, from the count it leaves. -/
theorem tick_within {c : Dev} {sync : Bool} (hr : d.boot.released = true) (hc : d.tickLease.rtcTick = (c.tickRest sync, false)) (hs : c.shadow = []) :
    ∃ e g, KeepsClock c e ∧ d.tick = e.modGlk g := by
  obtain ⟨g, hg⟩ := glkTick_eq (c.tickRest sync)
  refine ⟨_, g, keepsClock_tickRest c hs sync, ?_⟩
  rw [← hg, tick_eq, hr, hc]
  simp only [Bool.not_true, Bool.false_eq_true, if_false]

/-- A register reads a word. -/
theorem get_lt {p : Nat} {f : Fld} {i t : Nat} (hr : resetOf p f < 2 ^ 32) : d.get p f i t < 2 ^ 32 := by
  unfold get
  split
  case h_1 v _ => exact v.isLt
  case h_2 => exact hr

theorem now_lt : d.now < 2 ^ 64 := by
  have hlo := get_lt d (p := shp .rtc) (f := RTC.NOW_LO) (i := 0) (t := 0) (by decide)
  have hhi := get_lt d (p := shp .rtc) (f := RTC.NOW_HI) (i := 0) (t := 0) (by decide)
  rw [now, get64]
  omega

/-- A TICK with no SET pending, within a second. -/
theorem tick_count (hr : d.boot.released = true) (hp : d.rtc.pend = none) (hs : d.shadow = []) (hm : (d.now + 1) % 65536 ≠ 0) :
    d.tick.now = d.now + 1 ∧ d.tick.weir.ticks = min (d.weir.ticks + 1) 68 ∧
      d.tick.get (shp .wir) WIR.LEASE_AGE = min 1023 (min (d.weir.ticks + 1) 68 * 1000000 / 65536) ∧
      d.keeps d.tick [shp .rtc, shp .cal, shp .wir, shp .slt] := by
  obtain ⟨hticks, hage, hrtc, hsh, hnow, hkl⟩ := tickLease_shows d
  obtain ⟨cnow, csh, cw, ck⟩ := countOn_shows d.tickLease
  have hlt : d.now < 2 ^ 64 := now_lt d
  have hc : d.tickLease.countOn.now = d.now + 1 := by
    rw [cnow, hnow, Nat.mod_eq_of_lt]
    omega
  have htick : d.tickLease.rtcTick = (d.tickLease.countOn.tickRest false, false) := by
    rw [rtcTick_eq, hrtc, hp]
    simp only [hc, hnow, Prod.mk.injEq, bne_eq_false_iff_eq, true_and]
    omega
  obtain ⟨e, g, hk, he⟩ := tick_within d hr htick (csh.trans (hsh.trans hs))
  have hall : d.keeps e [shp .rtc, shp .cal, shp .wir, shp .slt] :=
    keeps_trans (keeps_mono hkl (by simp)) (keeps_trans (keeps_mono ck (by simp)) (keeps_mono hk.keeps (by simp)))
  rw [he]
  refine ⟨hk.now.trans hc, ?_, ?_, hall⟩
  · exact (congrArg _ (hk.weir.trans cw)).trans hticks
  · rw [get_modGlk, get_of_keeps (keeps_trans ck hk.keeps) (by decide) (by decide) (by decide) (by decide), hage]

/-- A TICK that puts a SET in the place of the count, within the same second. -/
theorem tick_set {v mid priv : Nat} {sync : Bool} (hr : d.boot.released = true) (hp : d.rtc.pend = some (v, sync, mid, priv)) (hs : d.shadow = [])
    (hv : v < 2 ^ 64) (hm : v / 65536 = d.now / 65536) :
    d.tick.now = v ∧ d.tick.rtc.pend = none ∧ d.tick.get (shp .rtc) RTC.SET_ST_STATE = 2 ∧ bitN (d.tick.get (shp .rtc) RTC.STATUS_BITS) 0 = 1 ∧
      bitN (d.tick.get (shp .rtc) RTC.STATUS_BITS) 1 = 0 ∧ d.keeps d.tick [shp .rtc, shp .cal, shp .wir, shp .slt] := by
  obtain ⟨-, -, hrtc, hsh, hnow, hkl⟩ := tickLease_shows d
  obtain ⟨cnow, cpend, cst, cb0, cb1, csh, -, ck⟩ := rtcApplySet_shows d.tickLease v mid priv
  rw [Nat.mod_eq_of_lt hv] at cnow
  have htick : d.tickLease.rtcTick = ((d.tickLease.rtcApplySet v mid priv).tickRest sync, false) := by
    rw [rtcTick_eq, hrtc, hp]
    simp only [cnow, hnow, Prod.mk.injEq, bne_eq_false_iff_eq, true_and]
    exact hm
  obtain ⟨e, g, hk, he⟩ := tick_within d hr htick (csh.trans (hsh.trans hs))
  have hall : d.keeps e [shp .rtc, shp .cal, shp .wir, shp .slt] :=
    keeps_trans (keeps_mono hkl (by simp)) (keeps_trans (keeps_mono ck (by simp)) (keeps_mono hk.keeps (by simp)))
  rw [he]
  refine ⟨hk.now.trans cnow, hk.pend.trans cpend, (hk.gets _ (by simp [clockFields])).trans cst, ?_, ?_, hall⟩
  all_goals rw [get_modGlk, hk.gets _ (by simp [clockFields])]
  · exact cb0
  · exact cb1

/-- A TICK of a part in reset, with the crystal running. -/
theorem tick_reset (hr : d.boot.released = false) (hv : d.rtc.onVbat = false) :
    d.tick.now = (d.now + 1) % 2 ^ 64 ∧ d.keeps d.tick [shp .rtc, shp .cal, shp .slt] := by
  have ht : d.tick = (List.range 4).foldl rtcAlarm d.countOn := by
    rw [tick, hr, hv]
    exact aoTick_eq d
  obtain ⟨cnow, -, -, ck⟩ := countOn_shows d
  have hk := keepsClock_alarms d.countOn
  rw [ht]
  exact ⟨hk.now.trans cnow, keeps_trans ck hk.keeps⟩

/-! ### The supply of the always-on domain -/

theorem keeps_err_rtc (c x : Nat) : d.keeps (d.err (shp .rtc) c x) [shp .rtc] := keeps_err d _ c x _ (by simp)

/-- What a stop of the oscillator shows. -/
theorem oscStop_shows (h : ¬(d.rtc.onVbat = true ∨ bitN (d.get (shp .rtc) RTC.STATUS_BITS) 2 = 1)) :
    bitN (d.oscStop.get (shp .rtc) RTC.STATUS_BITS) 2 = 1 ∧ d.oscStop.get (shp .rtc) HDR.ERR_CODE = cRTC_OSC_STOP ∧
      d.keeps d.oscStop [shp .rtc, shp .slt] := by
  have he : d.oscStop = ((((d.rtcStatus 2 true).stat (shp .rtc) 6).err (shp .rtc) cRTC_OSC_STOP).note (shp .rtc) clsTime cRTC_OSC_STOP) := by
    rw [oscStop]
    exact if_neg (by simpa [rtcBit] using h)
  rw [he]
  refine ⟨?_, ?_, ?_⟩
  · simp (disch := decide) only [note, get_post_other, err, bump, get_put_apart, get_stat_apart]
    rw [bit_rtcStatus _ _ _ (by decide)]
    rfl
  · simp (disch := decide) only [note, get_post_other, err, bump, get_put_apart, get_put_same]
    decide
  · simp (disch := first | decide | simp) only [note, rtcStatus, putBit, keeps_put_iff, keeps_stat_iff, keeps_err_iff, keeps_post_iff]
    exact keeps_refl d _

/-- What a measurement of VBAT shows. -/
theorem vbatMeasure_shows (mv : BitVec 16) (h : d.rtc.onVbat = false) : let e := d.vbatMeasure mv.toNat
    e.get (shp .rtc) RTC.BAT_MV = mv.toNat ∧ d.keeps e [shp .rtc] ∧
      bitN (e.get (shp .rtc) RTC.STATUS_BITS) 3 =
        (if mv.toNat < 2300 then 1 else if mv.toNat > 2400 then 0 else bitN (d.get (shp .rtc) RTC.STATUS_BITS) 3) ∧
      (mv.toNat < 2300 → bitN (d.get (shp .rtc) RTC.STATUS_BITS) 3 = 0 → e.get (shp .rtc) HDR.ERR_CODE = cRTC_BAT_LOW) := by
  intro e
  let m := d.put (shp .rtc) RTC.BAT_MV mv.toNat
  have hmv : m.get (shp .rtc) RTC.BAT_MV = mv.toNat := get_put_bv d _ _ mv 0 0 rfl (by decide)
  have hbit : m.get (shp .rtc) RTC.STATUS_BITS = d.get (shp .rtc) RTC.STATUS_BITS :=
    get_put_apart d _ (by decide) (by decide) (by decide) (by decide) (by decide) (by decide) (by decide)
  have hk : d.keeps m [shp .rtc] := (keeps_put_iff (by simp) (by decide) (by decide) (by decide)).mpr (keeps_refl d _)
  have he : e = if mv.toNat < 2300 then (if m.rtcBit 3 then m else ((m.rtcStatus 3 true).stat (shp .rtc) 7).err (shp .rtc) cRTC_BAT_LOW)
      else if mv.toNat > 2400 then m.rtcStatus 3 false else m := by
    show d.vbatMeasure mv.toNat = _
    rw [vbatMeasure, h]
    rfl
  have hmvs (b : Bool) : (m.rtcStatus 3 b).get (shp .rtc) RTC.BAT_MV = mv.toNat := by
    rw [rtcStatus, putBit, get_put_apart _ _ (by decide) (by decide) (by decide) (by decide) (by decide) (by decide) (by decide), hmv]
  have hks (b : Bool) : d.keeps (m.rtcStatus 3 b) [shp .rtc] := keeps_trans hk (keeps_rtcStatus m 3 b)
  rw [he]
  by_cases h1 : mv.toNat < 2300
  · simp only [if_pos h1]
    by_cases hb : m.rtcBit 3 = true
    · simp only [if_pos hb]
      have hb3 : bitN (d.get (shp .rtc) RTC.STATUS_BITS) 3 = 1 := by simpa [rtcBit, hbit] using hb
      exact ⟨hmv, hk, by rw [hbit, hb3], fun _ h0 => by omega⟩
    · simp only [if_neg hb]
      refine ⟨?_, ?_, ?_, fun _ _ => ?_⟩
      · simp (disch := decide) only [err, bump, get_put_apart, get_stat_apart, hmvs]
      · simp (disch := first | decide | simp) only [keeps_err_iff, keeps_stat_iff]
        exact hks true
      · simp (disch := decide) only [err, bump, get_put_apart, get_stat_apart]
        exact bit_rtcStatus _ _ _ (by decide)
      · simp (disch := decide) only [err, bump, get_put_apart, get_put_same]
        decide
  · simp only [if_neg h1]
    by_cases h2 : mv.toNat > 2400
    · simp only [if_pos h2]
      exact ⟨hmvs false, hks false, bit_rtcStatus _ _ _ (by decide), fun h => absurd h h1⟩
    · simp only [if_neg h2]
      exact ⟨hmv, hk, by rw [hbit], fun h => absurd h h1⟩

/-- What a master carries of its privilege and role rests on the pages of the host link and of the enclave. -/
theorem privByte_of_keeps {d e : Dev} {ps : List Nat} (hk : d.keeps e ps) (hh : shp .hst ∉ ps) (he : shp .enc ∉ ps) (w : Who) : e.privByte w = d.privByte w := by
  have hpriv : e.privileged w = d.privileged w := by
    have hst : e.get (shp .hst) HST.STATUS_SESSION = d.get (shp .hst) HST.STATUS_SESSION := get_of_keeps hk (by decide) (by decide) (by decide) hh
    have hlife : e.get (shp .enc) ENC.LIFE_STATE = d.get (shp .enc) ENC.LIFE_STATE := get_of_keeps hk (by decide) (by decide) (by decide) he
    rw [privileged, privileged, on, on, hst, hlife]
  have hgrp : w.encGrp < 65536 := by
    unfold Who.encGrp
    split
    · decide
    · split <;> decide
  rw [privByte, privByte, roleOf, roleOf, hpriv, get_of_keeps hk (by decide) (by decide) hgrp he]

/-- A SET that the group's discipline refuses, or that waits for its TICK. -/
theorem rtcSet_shows (v : Nat) (w : Who) (sync : Bool) : let e := (d.rtcSetPair v).rtcSet w sync
    d.keeps e [shp .rtc] ∧ e.now = d.now ∧
      (if d.disciplined = true then e.get (shp .rtc) RTC.SET_ST_STATE = 3 ∧ e.get (shp .rtc) RTC.SET_ST_REASON = cRTC_DISCIPLINED ∧
          e.get (shp .rtc) HDR.ERR_CODE = cRTC_DISCIPLINED ∧ e.rtc.pend = d.rtc.pend
       else e.get (shp .rtc) RTC.SET_ST_STATE = 1 ∧ e.rtc.pend = some (v, sync, w.mid, d.privByte w)) := by
  intro e
  have hkm : d.keeps (d.rtcSetPair v) [shp .rtc] := by
    simp (disch := first | decide | simp) only [rtcSetPair, put64, keeps_modRtc_iff, keeps_put_iff]
    exact keeps_refl d _
  have hnow (f : Fld) (hf : f ∈ [RTC.NOW_LO, RTC.NOW_HI]) : (d.rtcSetPair v).get (shp .rtc) f = d.get (shp .rtc) f := by
    fin_cases hf <;> simp (disch := decide) only [rtcSetPair, put64, get_modRtc, get_put_apart]
  have hdis : (d.rtcSetPair v).disciplined = d.disciplined := by
    rw [disciplined, disciplined, get_of_keeps hkm (by decide) (by decide) (by decide) (by decide)]
  have hall (he : Dev) (hk : (d.rtcSetPair v).keeps he [shp .rtc]) (hn : ∀ f ∈ [RTC.NOW_LO, RTC.NOW_HI],
      he.get (shp .rtc) f = (d.rtcSetPair v).get (shp .rtc) f) : d.keeps he [shp .rtc] ∧ he.now = d.now := by
    refine ⟨keeps_trans hkm hk, ?_⟩
    rw [now, get64, hn _ (by simp), hn _ (by simp), hnow _ (by simp), hnow _ (by simp), now, get64]
  by_cases hd : d.disciplined = true
  · have he : e = ((((d.rtcSetPair v).put (shp .rtc) RTC.SET_ST_STATE 3).put (shp .rtc) RTC.SET_ST_REASON cRTC_DISCIPLINED).stat (shp .rtc) 5).err
        (shp .rtc) cRTC_DISCIPLINED := if_pos (hdis.trans hd)
    rw [if_pos hd, he]
    obtain ⟨h1, h2⟩ := hall e (by
      rw [he]
      simp (disch := first | decide | simp) only [keeps_err_iff, keeps_stat_iff, keeps_put_iff]
      exact keeps_refl _ _) (by
      intro f hf
      rw [he]
      fin_cases hf <;> simp (disch := decide) only [err, bump, get_put_apart, get_stat_apart])
    rw [he] at h1 h2
    refine ⟨h1, h2, ?_, ?_, ?_, rfl⟩ <;> simp (disch := decide) only [err, bump, get_put_apart, get_stat_apart, get_put_same] <;> decide
  · have he : e = (((d.rtcSetPair v).modRtc (fun r => { r with pend := some (r.setVal, sync, w.mid, (d.rtcSetPair v).privByte w) })).put (shp .rtc)
        RTC.SET_ST_STATE 1).put (shp .rtc) RTC.SET_ST_REASON 0 := if_neg (by rw [hdis]; exact hd)
    obtain ⟨h1, h2⟩ := hall e (by
      rw [he]
      simp (disch := first | decide | simp) only [keeps_modRtc_iff, keeps_put_iff]
      exact keeps_refl _ _) (by
      intro f hf
      rw [he]
      fin_cases hf <;> simp (disch := decide) only [get_modRtc, get_put_apart])
    rw [if_neg hd]
    refine ⟨h1, h2, ?_, ?_⟩
    · rw [he]
      simp (disch := decide) only [get_put_apart, get_put_same]
      decide
    · rw [he]
      exact congrArg (fun b => some (v, sync, w.mid, b)) (privByte_of_keeps hkm (by decide) (by decide) w)

end

end Dev

/-! ### The obligation -/

section
variable (s : State)

theorem alarmFire_exec (k : Fin 4) : exec (.alarmFire k) s = .next { s with dev := s.dev.rtcAlarm k } := rfl

theorem alarmFire_early (k : Fin 4) (h : s.dev.on (shp .rtc) RTC.ALM_ST_ARMED k = false ∨ s.dev.now < s.dev.get64 (shp .rtc) RTC.ALM_LO RTC.ALM_HI k) :
    exec (.alarmFire k) s = .next s := by
  rw [alarmFire_exec, Dev.rtcAlarm_eq, if_pos]
  rcases h with h | h <;> simp [h]

theorem keeps_rtcAlarm {d : Dev} {k : Nat} (hk : k < 4) : d.keeps (d.rtcAlarm k) [shp .rtc, shp .slt] := by
  have hput {e : Dev} {f : Fld} {v : Nat} (hf : f.fits = true) (hi : k < f.cnt) (he : d.keeps e [shp .rtc, shp .slt]) :
      d.keeps (e.put (shp .rtc) f v k) [shp .rtc, shp .slt] := (Dev.keeps_put_iff (by simp) hf hi (by decide)).mpr he
  have hshown : d.keeps (d.alarmShown k) [shp .rtc, shp .slt] := by
    have hstat := (Dev.keeps_stat_iff (p := shp .rtc) (k := k) (by simp)).mpr (hput (f := RTC.ALM_ST_FIRED) (v := 1) (by decide) hk (Dev.keeps_refl d _))
    unfold Dev.alarmShown
    dsimp only
    split
    · exact (Dev.keeps_post_iff (by simp)).mpr ((Dev.keeps_err_iff (by simp)).mpr (hput (f := RTC.ALM_ST_SKIPPED) (by decide) hk hstat))
    · exact hstat
  rw [Dev.rtcAlarm_eq, Dev.alarmNext]
  split
  · exact Dev.keeps_refl d _
  · split
    · exact (Dev.keeps_modRtc_iff ..).mpr (hput (f := RTC.ALM_ST_ARMED) (by decide) hk hshown)
    · exact hput (f := RTC.ALM_HI) (by decide) hk (hput (f := RTC.ALM_LO) (by decide) hk hshown)

/-- The charger's bit, from what the clock's domain runs on and whether the limit has been reached. -/
theorem chgShow_shows (d : Dev) (g : Rtc → Rtc) : let e := (d.modRtc g).chgShow
    e.rtc = g d.rtc ∧ bitN (e.get (shp .rtc) RTC.STATUS_BITS) 4 = (d.on (shp .rtc) RTC.CHG_EN && !(g d.rtc).onVbat && !(g d.rtc).full).toNat ∧
      d.keeps e [shp .rtc] :=
  ⟨rfl, Dev.bit_rtcStatus _ _ _ (by decide), Dev.keeps_rtcStatus (d.modRtc g) _ _⟩

theorem oscResume_shows (d : Dev) : bitN ((d.rtcStatus 2 false).get (shp .rtc) RTC.STATUS_BITS) 2 = 0 ∧ (d.rtcStatus 2 false).rtc = d.rtc ∧
    d.keeps (d.rtcStatus 2 false) [shp .rtc] := ⟨Dev.bit_rtcStatus _ _ _ (by decide), rfl, Dev.keeps_rtcStatus _ _ _⟩

theorem rtcSetCancel_some {v mid priv : Nat} {sync : Bool} (hout : s.out = true) (hp : s.dev.rtc.pend = some (v, sync, mid, priv)) (hm : mid ≠ 0x1F) :
    exec .rtcSetCancel s = .next { s with dev := (s.dev.modRtc (fun r => { r with pend := none })).put (shp .rtc) RTC.SET_ST_STATE 0 } := by
  have he : s.dev.rtcCancel = (s.dev.modRtc (fun r => { r with pend := none })).put (shp .rtc) RTC.SET_ST_STATE 0 := by
    rw [Dev.rtcCancel, hp]
    exact if_neg hm
  exact next_of_out_eq hout rfl he

theorem rtcSetCancel_none (hp : s.dev.rtc.pend = none) : exec .rtcSetCancel s = .next s := by
  have he : s.dev.rtcCancel = s.dev := by rw [Dev.rtcCancel, hp]
  show Host.Outcome.next { s with dev := if s.dev.boot.released then s.dev.rtcCancel else s.dev } = _
  rw [he, ite_self]

theorem rtcCapture_shows (d : Dev) : d.rtcCapture.get64 (shp .rtc) RTC.CAP_LO RTC.CAP_HI = d.now ∧
    d.rtcCapture.get (shp .rtc) RTC.CAP_CAL0 = d.calWords.1 % 2 ^ 32 ∧ d.rtcCapture.get (shp .rtc) RTC.CAP_CAL1 = d.calWords.2 % 2 ^ 32 ∧
    d.keeps d.rtcCapture [shp .rtc] := by
  refine ⟨?_, ?_, ?_, ?_⟩
  · have hget (f : Fld) (hf : f ∈ [RTC.CAP_LO, RTC.CAP_HI]) :
        d.rtcCapture.get (shp .rtc) f = (d.put64 (shp .rtc) RTC.CAP_LO RTC.CAP_HI d.now).get (shp .rtc) f := by
      fin_cases hf <;> simp (disch := decide) only [Dev.rtcCapture, Dev.get_put_apart]
    rw [Dev.get64, hget _ (by simp), hget _ (by simp)]
    exact (Dev.get64_put64 d _ d.now 0 (by decide) (by decide) (by decide) (by decide) (by decide)).trans (Nat.mod_eq_of_lt (Dev.now_lt d))
  · rw [Dev.rtcCapture, Dev.get_put_apart _ _ (by decide) (by decide) (by decide) (by decide) (by decide) (by decide) (by decide)]
    exact Dev.get_put_same _ _ _ _ _ _ (by decide)
  · exact Dev.get_put_same _ _ _ _ _ _ (by decide)
  · simp (disch := first | decide | simp) only [Dev.rtcCapture, Dev.put64, Dev.keeps_put_iff]
    exact Dev.keeps_refl d _

theorem rtcOscStop_stands (h : s.dev.rtc.onVbat = true ∨ bitN (s.dev.get (shp .rtc) RTC.STATUS_BITS) 2 = 1) : exec .rtcOscStop s = .next s := by
  have he : s.dev.oscStop = s.dev := by
    rw [Dev.oscStop]
    exact if_pos (by simpa [Dev.rtcBit] using h)
  show Host.Outcome.next { s with dev := if s.dev.boot.released then s.dev.oscStop else s.dev } = _
  rw [he, ite_self]

theorem vbatMeasure_stands (mv : BitVec 16) (h : s.dev.rtc.onVbat = true) : exec (.vbatMeasure mv) s = .next s := by
  have he : s.dev.vbatMeasure mv.toNat = s.dev := if_pos h
  show Host.Outcome.next { s with dev := if s.dev.boot.released then s.dev.vbatMeasure mv.toNat else s.dev } = _
  rw [he, ite_self]

/-- What firmware and the always-on domain's monitors do to the clock of a released part. -/
theorem clock_of_out (hout : s.out = true) : let p := shp .rtc
    let bit := fun (d : Dev) (k : Nat) => bitN (d.get p RTC.STATUS_BITS) k
    (∀ (mid : BitVec 8) (mach sync : Bool) (v : BitVec 64),
      ∃ t, exec (.rtcSet mid mach v sync) s = .next t ∧ t.pending = s.pending ∧ s.dev.keeps t.dev [p] ∧ t.dev.now = s.dev.now ∧
        (if s.dev.disciplined = true then t.dev.get p RTC.SET_ST_STATE = 3 ∧ t.dev.get p RTC.SET_ST_REASON = cRTC_DISCIPLINED ∧
            t.dev.get p HDR.ERR_CODE = cRTC_DISCIPLINED ∧ t.dev.rtc.pend = s.dev.rtc.pend
         else t.dev.get p RTC.SET_ST_STATE = 1 ∧ t.dev.rtc.pend = some (v.toNat, sync, mid.toNat, s.dev.privByte ⟨mid.toNat, mach⟩))) ∧
    (∀ (v mid priv : Nat) (sync : Bool), s.dev.rtc.pend = some (v, sync, mid, priv) → mid ≠ 0x1F →
      ∃ t, exec .rtcSetCancel s = .next t ∧ t.pending = s.pending ∧ t.dev.rtc.pend = none ∧ t.dev.get p RTC.SET_ST_STATE = 0 ∧ s.dev.keeps t.dev [p]) ∧
    (s.dev.rtc.pend = none → exec .rtcSetCancel s = .next s) ∧
    (∃ t, exec .rtcCapture s = .next t ∧ t.pending = s.pending ∧ t.dev.get64 p RTC.CAP_LO RTC.CAP_HI = s.dev.now ∧
      t.dev.get p RTC.CAP_CAL0 = s.dev.calWords.1 % 2 ^ 32 ∧ t.dev.get p RTC.CAP_CAL1 = s.dev.calWords.2 % 2 ^ 32 ∧ s.dev.keeps t.dev [p]) ∧
    (∃ t, exec .calSync s = .next t ∧ t.pending = s.pending ∧ t.dev.rtc = { s.dev.rtc with calSync := true } ∧ t.dev.regs = s.dev.regs ∧
      t.dev.memories = s.dev.memories) ∧
    (if s.dev.rtc.onVbat = true ∨ bit s.dev 2 = 1 then exec .rtcOscStop s = .next s
     else ∃ t, exec .rtcOscStop s = .next t ∧ t.pending = s.pending ∧ bit t.dev 2 = 1 ∧ t.dev.get p HDR.ERR_CODE = cRTC_OSC_STOP ∧
      s.dev.keeps t.dev [p, shp .slt]) ∧
    (∀ mv : BitVec 16, if s.dev.rtc.onVbat = true then exec (.vbatMeasure mv) s = .next s
      else ∃ t, exec (.vbatMeasure mv) s = .next t ∧ t.pending = s.pending ∧ t.dev.get p RTC.BAT_MV = mv.toNat ∧ s.dev.keeps t.dev [p] ∧
        bit t.dev 3 = (if mv.toNat < 2300 then 1 else if mv.toNat > 2400 then 0 else bit s.dev 3) ∧
        (mv.toNat < 2300 → bit s.dev 3 = 0 → t.dev.get p HDR.ERR_CODE = cRTC_BAT_LOW)) := by
  intro p bit
  refine ⟨fun mid mach sync v => ?_, fun v mid priv sync hp hm => ?_, rtcSetCancel_none s, ?_, ?_, ?_, fun mv => ?_⟩
  · obtain ⟨hk, hnow, hst⟩ := Dev.rtcSet_shows s.dev v.toNat ⟨mid.toNat, mach⟩ sync
    exact ⟨_, next_of_out hout rfl, rfl, hk, hnow, hst⟩
  · refine ⟨_, rtcSetCancel_some s hout hp hm, rfl, rfl, Dev.get_put_same _ _ _ _ _ _ (by decide), ?_⟩
    exact (Dev.keeps_put_iff (by simp [p]) (by decide) (by decide) (by decide)).mpr (Dev.keeps_refl s.dev _)
  · obtain ⟨h1, h2, h3, h4⟩ := rtcCapture_shows s.dev
    exact ⟨_, next_of_out hout rfl, rfl, h1, h2, h3, h4⟩
  · exact ⟨_, next_of_out hout rfl, rfl, rfl, rfl, rfl⟩
  · split
    case isTrue h => exact rtcOscStop_stands s h
    case isFalse h =>
      obtain ⟨h1, h2, h3⟩ := Dev.oscStop_shows s.dev h
      exact ⟨_, next_of_out hout rfl, rfl, h1, h2, h3⟩
  · split
    case isTrue h => exact vbatMeasure_stands s mv h
    case isFalse h =>
      obtain ⟨h1, h2, h3, h4⟩ := Dev.vbatMeasure_shows s.dev mv (by simpa using h)
      exact ⟨_, next_of_out hout rfl, rfl, h1, h2, h3, h4⟩

/-- Settles O52: the count, its SET and alarms, and the supply of the always-on domain, command by command. -/
theorem clockAndAlarms : Obligations.ClockAndAlarms := by
  unfold Obligations.ClockAndAlarms
  intro s p bit
  refine ⟨fun k => ⟨alarmFire_early s k, fun hon hle => ?_⟩, ?_, fun mv => ?_, ?_, fun hp hs hm hout => ?_,
    fun v mid priv sync hp hs hv hm hout => ?_, fun hout hv => ?_, clock_of_out s⟩
  · obtain ⟨h1, h2, h3, h4⟩ := Dev.rtcAlarm_shows s.dev k.isLt hon hle
    exact ⟨_, alarmFire_exec s k, rfl, h1, h2, h3, h4, Dev.now_rtcAlarm _ k.isLt, keeps_rtcAlarm k.isLt⟩
  · obtain ⟨h1, h2, h3⟩ := chgShow_shows s.dev (fun r => { r with onVbat := !s.dev.supplied })
    exact ⟨_, rfl, rfl, h1, by simpa using h2, h3⟩
  · intro lim full
    obtain ⟨h1, h2, h3⟩ := chgShow_shows s.dev (fun r => { r with full := full })
    exact ⟨_, rfl, rfl, h1, h3, h2⟩
  · obtain ⟨h1, h2, h3⟩ := oscResume_shows s.dev
    exact ⟨_, rfl, rfl, h1, h2, h3⟩
  · obtain ⟨h1, h2, h3, h4⟩ := Dev.tick_count s.dev hout hp hs hm
    exact ⟨{ s with dev := s.dev.tick }, rfl, rfl, h1, h2, h3, h4⟩
  · obtain ⟨h1, h2, h3, h4, h5, h6⟩ := Dev.tick_set s.dev hout hp hs hv hm
    exact ⟨{ s with dev := s.dev.tick }, rfl, rfl, h1, h2, fun _ => h3, h4, h5, h6⟩
  · obtain ⟨h1, h2⟩ := Dev.tick_reset s.dev hout hv
    exact ⟨{ s with dev := s.dev.tick }, rfl, rfl, h1, h2⟩

end

end Sys2Proof.Machine
end

section
/-! PROOFS. The recorder: posts of firmware, the writer, loss episodes, and the capture of its seal. -/
namespace Sys2Proof.Machine

open Sys2Proof

theorem getD_lset_same {α : Type} {l : List α} {i : Nat} (a x : α) (h : i < l.length) : (lset l i x).getD i a = x := by
  simp [lset, List.getD_eq_getElem?_getD, h]

/-- A fold over the first indices, seen through what the step at one of them decides. -/
theorem foldl_range_at {β γ : Type} {f : β → Nat → β} {g : β → γ} {n j : Nat} {v : γ} (b : β) (hj : j < n) (hself : ∀ b, g (f b j) = v)
    (hoff : ∀ b, ∀ i < n, i ≠ j → g (f b i) = g b) : g ((List.range n).foldl f b) = v := by
  obtain ⟨b', l', -, hf, hl⟩ := Dev.foldl_at (f := f) (g := g) (a := j) (List.range n) b (fun b i hi hne => hoff b i (List.mem_range.mp hi) hne)
    (List.mem_range.mpr hj) List.nodup_range
  rw [hf, Dev.foldl_off (f := f) (g := g) l' _ fun b i hi => hoff b i (List.mem_range.mp (hl i hi).1) (hl i hi).2]
  exact hself b'

theorem sltGrp_lt (w : Who) : w.sltGrp < 4 := by
  unfold Who.sltGrp
  split
  · decide
  · split
    · decide
    · split <;> decide

namespace Dev

/-! ### The state of the recorder beside its registers -/

section
variable (d : Dev)

@[simp] theorem silt_stat (p k : Nat) : (d.stat p k).silt = d.silt := rfl
@[simp] theorem silt_err (p c x : Nat) : (d.err p c x).silt = d.silt := rfl
@[simp] theorem silt_put (p : Nat) (f : Fld) (v i t : Nat) : (d.put p f v i t).silt = d.silt := rfl
@[simp] theorem silt_put64 (p : Nat) (lo hi : Fld) (v i t : Nat) : (d.put64 p lo hi v i t).silt = d.silt := rfl
@[simp] theorem silt_sltRing : d.sltRing.silt = d.silt := rfl

theorem keepsSlt_put {e : Dev} {f : Fld} {v i t : Nat} (he : d.keeps e [shp .slt]) (hf : f.fits = true) (hi : i < f.cnt) (ht : t < 65536) :
    d.keeps (e.put (shp .slt) f v i t) [shp .slt] := (keeps_put_iff (by simp) hf hi ht).mpr he

theorem keepsSlt_stat {e : Dev} {k : Nat} (he : d.keeps e [shp .slt]) : d.keeps (e.stat (shp .slt) k) [shp .slt] := (keeps_stat_iff (by simp)).mpr he
theorem keepsSlt_err {e : Dev} {c x : Nat} (he : d.keeps e [shp .slt]) : d.keeps (e.err (shp .slt) c x) [shp .slt] := (keeps_err_iff (by simp)).mpr he
theorem keepsSlt_post {e : Dev} {r : Rec} (he : d.keeps e [shp .slt]) : d.keeps (e.post r) [shp .slt] := (keeps_post_iff (by simp)).mpr he
theorem keepsSlt_modSilt {e : Dev} {g : Silt → Silt} (he : d.keeps e [shp .slt]) : d.keeps (e.modSilt g) [shp .slt] := (keeps_modSilt_iff ..).mpr he

theorem keepsSlt_ite {e f : Dev} (c : Prop) [Decidable c] (he : d.keeps e [shp .slt]) (hf : d.keeps f [shp .slt]) :
    d.keeps (if c then e else f) [shp .slt] := by
  split
  · exact he
  · exact hf

theorem keepsSlt_sltRing {e : Dev} (he : d.keeps e [shp .slt]) : d.keeps e.sltRing [shp .slt] :=
  keepsSlt_put d (keepsSlt_put d (keepsSlt_put d (keepsSlt_put d (keepsSlt_put d he (f := SLT.OLDEST_LO) (by decide) (by decide) (by decide))
    (f := SLT.OLDEST_HI) (by decide) (by decide) (by decide)) (f := SLT.NEWEST_LO) (by decide) (by decide) (by decide))
    (f := SLT.NEWEST_HI) (by decide) (by decide) (by decide)) (f := SLT.NEXT_SEQ_SEQ) (by decide) (by decide) (by decide)

end

/-! ### The ring -/

/-- The recorder apart from its ring: queues, episodes, cursors, transfers and the numbering of records. -/
def besideRing (s : Silt) : Silt :=
  { s with pages := [], cur := SiltPage.empty 0 0 0, lastSeal := 0, anchor := 0, nearFull := false }

/-- What the fill level raised stands in `nearFull` only. -/
theorem silt_siltLevel (d : Dev) : ∃ b, d.siltLevel.silt = { d.silt with nearFull := b } := by
  have hlast (e : Dev) (c : Prop) [Decidable c] (st : Nat) :
      (if c then ((if st = 1 then e else e.put (shp .slt) SLT.STATE_CODE 2).stat (shp .slt) 2).err (shp .slt) cSLT_FULL else e).silt = e.silt := by
    split
    · simp only [silt_err, silt_stat]
      split <;> rfl
    · rfl
  unfold siltLevel
  simp only [hlast]
  split
  · exact ⟨true, rfl⟩
  · exact ⟨d.silt.nearFull, rfl⟩

theorem keepsSlt_siltLevel (d : Dev) {e : Dev} (he : d.keeps e [shp .slt]) : d.keeps e.siltLevel [shp .slt] := by
  have hfill : d.keeps (e.put (shp .slt) SLT.FILL_PCT (min 100 e.siltPct)) [shp .slt] := keepsSlt_put d he (by decide) (by decide) (by decide)
  unfold siltLevel
  have hwarn := keepsSlt_ite d ((e.siltPct ≥ (e.put (shp .slt) SLT.FILL_PCT (min 100 e.siltPct)).get (shp .slt) SLT.CFG_WARN_PCT &&
      !(e.put (shp .slt) SLT.FILL_PCT (min 100 e.siltPct)).silt.nearFull) = true)
    (keepsSlt_err d (c := cSLT_NEAR_FULL) (x := 0) (keepsSlt_stat d (k := 1) (keepsSlt_modSilt d (g := fun s => { s with nearFull := true }) hfill))) hfill
  exact keepsSlt_ite d _ (keepsSlt_err d (keepsSlt_stat d (keepsSlt_ite d _ hwarn (keepsSlt_put d hwarn (f := SLT.STATE_CODE) (by decide) (by decide) (by decide))))) hwarn

theorem silt_siltSeal (d : Dev) (flags : Nat) : besideRing (d.siltSeal flags).silt = besideRing d.silt := by
  unfold siltSeal
  simp only [silt_sltRing]
  obtain ⟨b, hb⟩ := silt_siltLevel (d.modSilt _)
  rw [hb]
  rfl

theorem keepsSlt_siltSeal (d : Dev) {e : Dev} (he : d.keeps e [shp .slt]) (flags : Nat) : d.keeps (e.siltSeal flags) [shp .slt] :=
  keepsSlt_sltRing d (keepsSlt_siltLevel d (keepsSlt_modSilt d he))

/-- The bytes of a record go to the ring, and leave the rest of the recorder. -/
theorem siltStream_leaves (n : Nat) : ∀ (d : Dev) (bs : List Byte), besideRing (d.siltStream n bs).silt = besideRing d.silt ∧ d.keeps (d.siltStream n bs) [shp .slt] := by
  induction n with
  | zero => exact fun d _ => ⟨rfl, keeps_refl d _⟩
  | succ n ih =>
    intro d bs
    unfold siltStream
    extract_lets room e f
    have he : d.keeps e [shp .slt] := keepsSlt_modSilt d (keeps_refl d _)
    have hf : besideRing f.silt = besideRing d.silt ∧ d.keeps f [shp .slt] := by
      unfold f
      split
      · exact ⟨silt_siltSeal e 0, keepsSlt_siltSeal d he 0⟩
      · exact ⟨rfl, he⟩
    split
    · exact hf
    · obtain ⟨h1, h2⟩ := ih f (bs.drop room)
      exact ⟨h1.trans hf.1, keeps_trans hf.2 h2⟩

/-- What a record that is written leaves, and the number the next one gets. -/
theorem siltAppend_shows (d : Dev) (r : Rec) : besideRing (d.siltAppend r).silt = besideRing { d.silt with nextSeq := (d.silt.nextSeq + 1) % 2 ^ 32 } ∧
    (d.siltAppend r).get (shp .slt) SLT.NEXT_SEQ_SEQ = (d.silt.nextSeq + 1) % 2 ^ 32 ∧ d.keeps (d.siltAppend r) [shp .slt] := by
  unfold siltAppend
  extract_lets r' e
  obtain ⟨h1, h2⟩ := siltStream_leaves 3 e r'.out
  have he : besideRing e.silt = besideRing { d.silt with nextSeq := (d.silt.nextSeq + 1) % 2 ^ 32 } := rfl
  refine ⟨h1.trans he, ?_, keepsSlt_sltRing d (keeps_trans (keepsSlt_modSilt d (keeps_refl d _)) h2)⟩
  have hseq : (e.siltStream 3 r'.out).silt.nextSeq = (d.silt.nextSeq + 1) % 2 ^ 32 := congrArg Silt.nextSeq (h1.trans he)
  rw [sltRing, get_put_same _ _ _ _ _ _ (by decide)]
  rw [hseq]
  exact Nat.mod_mod ..

/-! ### Losses -/

/-- The counter of the group a lost record belongs to. -/
def lostFld (r : Rec) : Fld := if protectedCls r.cls then SLT.LOST_PROT else SLT.LOST_UNPROT

theorem get_lostFld_lose (d : Dev) (r : Rec) : (d.lose r).get (shp .slt) (lostFld r) = satU 16 (d.get (shp .slt) (lostFld r) + 1) % 2 ^ 16 := by
  have hshow (c : Prop) [Decidable c] (e : Dev) (x : Nat) (f : Fld) (hf : f ∈ [SLT.LOST_PROT, SLT.LOST_UNPROT]) :
      ((if c then e.stat (shp .slt) 0 else e).err (shp .slt) 0xC8 x).get (shp .slt) f = e.get (shp .slt) f := by
    fin_cases hf <;> split <;> simp (disch := decide) only [err, bump, get_put_apart, get_stat_apart]
  unfold lose lostFld
  cases protectedCls r.cls
  all_goals
    simp only [Bool.false_eq_true, if_false, if_true]
    rw [hshow _ _ _ _ (by simp), bump, get_put_same _ _ _ _ _ _ (by decide)]
    rfl

theorem keepsSlt_lose (d : Dev) {e : Dev} (he : d.keeps e [shp .slt]) (r : Rec) : d.keeps (e.lose r) [shp .slt] := by
  have hbump {f : Fld} (l : Silt) (hf : f.fits = true ∧ 0 < f.cnt) : d.keeps (({ e with silt := l } : Dev).bump (shp .slt) f) [shp .slt] :=
    keepsSlt_put d he hf.1 hf.2 (by decide)
  unfold lose
  exact keepsSlt_ite d _ (keepsSlt_err d (keepsSlt_ite d _ (keepsSlt_stat d (hbump _ (by decide))) (hbump _ (by decide))))
    (keepsSlt_err d (keepsSlt_ite d _ (keepsSlt_stat d (hbump _ (by decide))) (hbump _ (by decide))))

/-! ### The writer -/

/-- The front record leaves its queue. -/
def popped (s : Silt) : Silt := match s.qProt with | _ :: q => { s with qProt := q } | [] => { s with qUn := s.qUn.drop 1 }

theorem siltWrite_none (d : Dev) (h1 : d.silt.qProt = []) (h2 : d.silt.qUn = []) : d.siltWrite = d := by
  rw [siltWrite, h1, h2]
  rfl

theorem siltWrite_front (d : Dev) {r : Rec} {q : List Rec} (h : d.silt.qProt ++ d.silt.qUn = r :: q) :
    d.siltWrite = (let e := (d.modSilt popped).put (shp .slt) SLT.QUEUE_USED (d.modSilt popped).silt.used
      if e.ringTakes r.cls then e.siltAppend r else e.lose r) := by
  rw [siltWrite, h]
  rfl

theorem ringTakes_congr {d e : Dev} (cls : Nat) (hm : e.get (shp .slt) SLT.CFG_FULL_MODE = d.get (shp .slt) SLT.CFG_FULL_MODE)
    (ht : e.get (shp .slt) SLT.PAGES_TOTAL = d.get (shp .slt) SLT.PAGES_TOTAL) (hp : e.silt.pages = d.silt.pages) : e.ringTakes cls = d.ringTakes cls := by
  rw [ringTakes, ringTakes, siltFree, siltFree, on, on, hm, ht, hp]

theorem pages_popped (s : Silt) : (popped s).pages = s.pages ∧ (popped s).nextSeq = s.nextSeq ∧ (popped s).lossProt = s.lossProt ∧ (popped s).lossUn = s.lossUn := by
  unfold popped
  split <;> exact ⟨rfl, rfl, rfl, rfl⟩

/-- What the writer does with the record at the front. -/
theorem siltWrite_shows (d : Dev) {r : Rec} {q : List Rec} (h : d.silt.qProt ++ d.silt.qUn = r :: q) : let e := d.siltWrite
    e.silt.qProt = (popped d.silt).qProt ∧ e.silt.qUn = (popped d.silt).qUn ∧ d.keeps e [shp .slt] ∧
    (d.ringTakes r.cls = true → e.silt.nextSeq = (d.silt.nextSeq + 1) % 2 ^ 32 ∧ e.get (shp .slt) SLT.NEXT_SEQ_SEQ = (d.silt.nextSeq + 1) % 2 ^ 32) ∧
    (d.ringTakes r.cls = false → e.silt.nextSeq = d.silt.nextSeq ∧ e.silt.pages = d.silt.pages ∧
      e.get (shp .slt) (lostFld r) = satU 16 (d.get (shp .slt) (lostFld r) + 1) % 2 ^ 16 ∧
      (if protectedCls r.cls then e.silt.lossProt = lossStep d.silt.lossProt r.ts ∧ e.silt.lossUn = d.silt.lossUn
       else e.silt.lossUn = lossStep d.silt.lossUn r.ts ∧ e.silt.lossProt = d.silt.lossProt)) := by
  intro e
  obtain ⟨w, hw⟩ : ∃ w, w = (d.modSilt popped).put (shp .slt) SLT.QUEUE_USED (d.modSilt popped).silt.used := ⟨_, rfl⟩
  have hws : w.silt = popped d.silt := by rw [hw]; rfl
  have hget {f : Fld} (hf : SLT.QUEUE_USED.apart f = true) (hfit : f.fits = true) (hi : 0 < f.cnt) : w.get (shp .slt) f = d.get (shp .slt) f := by
    rw [hw, get_put_apart _ _ hf (by decide) hfit (by decide) hi (by decide) (by decide), get_modSilt]
  have hk : d.keeps w [shp .slt] := hw ▸ keepsSlt_put d (keepsSlt_modSilt d (keeps_refl d _)) (by decide) (by decide) (by decide)
  obtain ⟨ppages, pseq, plp, plu⟩ := pages_popped d.silt
  have htakes : w.ringTakes r.cls = d.ringTakes r.cls :=
    ringTakes_congr _ (hget (by decide) (by decide) (by decide)) (hget (by decide) (by decide) (by decide)) (by rw [hws, ppages])
  have he : e = if w.ringTakes r.cls then w.siltAppend r else w.lose r := by
    rw [hw]
    exact siltWrite_front d h
  rw [he, htakes]
  cases d.ringTakes r.cls
  · simp only [Bool.false_eq_true, if_false, false_imp_iff, true_and, forall_const]
    have hlose := lose_silt w r
    refine ⟨?_, ?_, keepsSlt_lose d hk r, ?_, ?_, ?_, ?_⟩
    · rw [hlose, ← hws]; split <;> rfl
    · rw [hlose, ← hws]; split <;> rfl
    · rw [hlose, ← pseq, ← hws]; split <;> rfl
    · rw [hlose, ← ppages, ← hws]; split <;> rfl
    · rw [get_lostFld_lose]
      have hf : w.get (shp .slt) (lostFld r) = d.get (shp .slt) (lostFld r) := by
        unfold lostFld
        split
        · exact hget (by decide) (by decide) (by decide)
        · exact hget (by decide) (by decide) (by decide)
      rw [hf]
    · rw [hlose, ← plp, ← plu, ← hws]
      split <;> exact ⟨rfl, rfl⟩
  · simp only [if_true, forall_const, Bool.true_eq_false, false_imp_iff, and_true]
    obtain ⟨h1, h2, h3⟩ := siltAppend_shows w r
    rw [hws, pseq] at h1
    rw [hws, pseq] at h2
    exact ⟨(congrArg Silt.qProt h1 :), (congrArg Silt.qUn h1 :), keeps_trans hk h3, (congrArg Silt.nextSeq h1 :), h2⟩

/-! ### Posts of firmware -/

/-- The intake's view of the part: the mode and size of the ring, the pages written, and the queues. -/
theorem siltTakes_congr {d e : Dev} (r : Rec) (hm : e.get (shp .slt) SLT.CFG_FULL_MODE = d.get (shp .slt) SLT.CFG_FULL_MODE)
    (ht : e.get (shp .slt) SLT.PAGES_TOTAL = d.get (shp .slt) SLT.PAGES_TOTAL) (hp : e.silt.pages = d.silt.pages) (h1 : e.silt.qProt = d.silt.qProt)
    (h2 : e.silt.qUn = d.silt.qUn) : e.siltTakes r = d.siltTakes r := by
  have hfree : e.siltFree = d.siltFree := by rw [siltFree, siltFree, ht, hp]
  have hon : e.on (shp .slt) SLT.CFG_FULL_MODE = d.on (shp .slt) SLT.CFG_FULL_MODE := by rw [on, on, hm]
  have hused : e.silt.used = d.silt.used := by rw [Silt.used, Silt.used, h1, h2]
  have hbytes : e.silt.usedBytes = d.silt.usedBytes := by rw [Silt.usedBytes, Silt.usedBytes, h1, h2]
  rw [siltTakes, siltTakes, hfree, hon, hused, hbytes]

/-- The arguments of a post as they stand when it starts. -/
def postArgs (d : Dev) (g addr len code detail : Nat) : Dev :=
  let p := shp .slt
  (((d.put p SLT.POST_ADDR_ADDR addr 0 g).put p SLT.POST_LEN_N len 0 g).put p SLT.POST_CODE_CODE code 0 g).put p SLT.POST_DETAIL_D detail 0 g

theorem keepsSlt_postArgs (d : Dev) {g : Nat} (hg : g < 4) (addr len code detail : Nat) : d.keeps (d.postArgs g addr len code detail) [shp .slt] := by
  have ht : g < 65536 := by omega
  exact keepsSlt_put d (keepsSlt_put d (keepsSlt_put d (keepsSlt_put d (keeps_refl d _) (by decide) (by decide) ht) (by decide) (by decide) ht)
    (by decide) (by decide) ht) (by decide) (by decide) ht

/-- The arguments of a post as its record takes them. -/
theorem get_postArgs (d : Dev) {g : Nat} (hg : g < 4) (addr : Word) (len : BitVec 13) (code : BitVec 8) (detail : BitVec 16) :
    let e := d.postArgs g addr.toNat len.toNat code.toNat detail.toNat
    e.get (shp .slt) SLT.POST_ADDR_ADDR 0 g = addr.toNat ∧ e.get (shp .slt) SLT.POST_LEN_N 0 g = len.toNat ∧
      e.get (shp .slt) SLT.POST_CODE_CODE 0 g = code.toNat ∧ e.get (shp .slt) SLT.POST_DETAIL_D 0 g = detail.toNat := by
  have ht : g < 65536 := by omega
  refine ⟨?_, ?_, ?_, get_put_bv _ _ _ detail 0 g rfl (by decide)⟩
  · simp (disch := first | decide | assumption) only [postArgs, get_put_apart]
    exact get_put_bv _ _ _ addr 0 g rfl (by decide)
  · simp (disch := first | decide | assumption) only [postArgs, get_put_apart]
    exact get_put_bv _ _ _ len 0 g rfl (by decide)
  · simp (disch := first | decide | assumption) only [postArgs, get_put_apart]
    exact get_put_bv _ _ _ code 0 g rfl (by decide)

/-- The lease stands on the page of the Weir. -/
theorem holder_of_keeps {d e : Dev} {ps : List Nat} (hk : d.keeps e ps) (hw : shp .wir ∉ ps) : e.holder? = d.holder? ∧ e.holder = d.holder := by
  have hget (f : Fld) (hf : f.fits = true) (hi : 0 < f.cnt) : e.get (shp .wir) f = d.get (shp .wir) f := get_of_keeps hk hf hi (by decide) hw
  have hv := hget WIR.LEASE_VALID (by decide) (by decide)
  have hh := hget WIR.LEASE_HOLDER (by decide) (by decide)
  constructor
  · rw [holder?, holder?, on, on, on, on, hv, hh]
  · rw [holder, holder, on, on, hh]

/-- The count is not on the recorder's page. -/
theorem now_of_keepsSlt {d e : Dev} (hk : d.keeps e [shp .slt]) : e.now = d.now := by
  rw [now, get64, get_of_keeps hk (by decide) (by decide) (by decide) (by decide), get_of_keeps hk (by decide) (by decide) (by decide) (by decide), now, get64]

theorem sram_of_keeps {d e : Dev} {ps : List Nat} (hk : d.keeps e ps) (h : HalfId) : (e.half h).sram = (d.half h).sram := by
  have hm := hk.1
  simp only [memories, List.cons.injEq, and_true] at hm
  cases h
  · exact hm.2.1
  · exact hm.2.2

/-- A post of a half that does not hold the lease. -/
theorem sltPostGo_stale (d : Dev) (w : Who) {h : HalfId} (hw : w.half? = some h) (hh : d.holds h = false) :
    d.sltPostGo w = d.put (shp .slt) SLT.POST_ST_STATE 4 0 w.sltGrp := by
  rw [sltPostGo]
  exact if_pos (by rw [hw]; simp [hh])

/-- The record of a post, from the arguments that stand. -/
def postRec (d : Dev) (w : Who) : Rec :=
  let p := shp .slt
  let g := w.sltGrp
  ⟨d.now, 0, d.get p SLT.POST_LEN_N 0 g, if d.get p SLT.POST_LEN_N 0 g = 0 then 0 else 0xA, d.get p SLT.POST_CODE_CODE 0 g, srcOf p, p % 256, w.mid,
    d.privByte w, d.get p SLT.POST_DETAIL_D 0 g,
    (memReads (d.half (w.half?.getD d.holder)).sram (d.get p SLT.POST_ADDR_ADDR 0 g) (d.get p SLT.POST_LEN_N 0 g)).map BitVec.toNat⟩

/-- A post that finds its group idle. -/
theorem sltPostGo_copies (d : Dev) (w : Who) (hw : ∀ h, w.half? = some h → d.holds h = true) (hc : d.silt.copying.getD w.sltGrp none = none) :
    d.sltPostGo w = (d.modSilt (fun s => { s with copying := lset s.copying w.sltGrp (some (d.postRec w)) })).put (shp .slt) SLT.POST_ST_STATE 1 0 w.sltGrp := by
  have hstale : ¬((match w.half? with | some h => !d.holds h | none => false) = true) := by
    cases hh : w.half? with
    | none => simp
    | some h => simp [hw h hh]
  rw [sltPostGo]
  refine (if_neg hstale).trans ((if_neg ?_).trans rfl)
  rw [hc]
  simp

theorem keepsSlt_sltPostGo (d : Dev) {e : Dev} (he : d.keeps e [shp .slt]) (w : Who) : d.keeps (e.sltPostGo w) [shp .slt] := by
  have ht : w.sltGrp < 65536 := by have := sltGrp_lt w; omega
  have hlast (v : Nat) {x : Dev} (hx : d.keeps x [shp .slt]) : d.keeps (x.put (shp .slt) SLT.POST_ST_STATE v 0 w.sltGrp) [shp .slt] :=
    keepsSlt_put d hx (by decide) (by decide) ht
  exact keepsSlt_ite d _ (hlast _ he) (keepsSlt_ite d _ he (hlast _ (keepsSlt_modSilt d he)))

theorem sltPostDone_idle (d : Dev) {g : Nat} (h : d.silt.copying.getD g none = none) : d.sltPostDone g = d := by rw [sltPostDone, h]

/-- A group has no copy in progress any more. -/
def copied (d : Dev) (g : Nat) : Dev := d.modSilt (fun s => { s with copying := lset s.copying g none })

/-- The end of a copy: the record is queued or lost. -/
theorem sltPostDone_shows (d : Dev) {g : Nat} (hg : g < 4) (hl : d.silt.copying.length = 4) {r : Rec} (hr : d.silt.copying.getD g none = some r) :
    let e := d.sltPostDone g
    e.silt = ((d.copied g).post r).silt ∧ e.silt.copying.getD g none = none ∧
      e.get (shp .slt) SLT.POST_ST_STATE 0 g = (if d.siltTakes r then 2 else 3) ∧ d.keeps e [shp .slt] := by
  intro e
  have ht : g < 65536 := by omega
  obtain ⟨m, hm⟩ : ∃ m, m = d.copied g := ⟨_, rfl⟩
  have he : e = (m.post r).put (shp .slt) SLT.POST_ST_STATE (if d.siltTakes r then 2 else 3) 0 g := by
    show d.sltPostDone g = _
    rw [sltPostDone, hr, hm]
    rfl
  have hmk : d.keeps m [shp .slt] := hm ▸ keepsSlt_modSilt d (keeps_refl d _)
  have hcopy : (m.post r).silt.copying = lset d.silt.copying g none := by
    cases htakes : m.siltTakes r
    · rw [post_lost htakes, lose_silt, hm]
      split <;> rfl
    · rw [post_taken htakes, hm]
      split <;> rfl
  rw [he]
  refine ⟨by rw [silt_put, hm], ?_, ?_, keepsSlt_put d (keepsSlt_post d hmk) (by decide) (by decide) ht⟩
  · rw [silt_put, hcopy, getD_lset_same _ _ (by omega)]
  · rw [get_put_same _ _ _ _ _ _ (by decide)]
    split <;> rfl

/-! ### The end of a loss episode -/

theorem siltLossEnd_stands (d : Dev) (prot : Bool) (h : (if prot then d.silt.lossProt else d.silt.lossUn) = none ∨
    (4096 - d.silt.used) - (if prot then 0 else 512) < 1024) : d.siltLossEnd prot = d := by
  unfold siltLossEnd
  dsimp only
  split
  · rfl
  · rename_i l hl
    rw [if_pos]
    exact h.resolve_left (by rw [hl]; simp)

/-- The record of a loss episode that ends. -/
def lossRec (d : Dev) (l : Loss) : Rec :=
  ⟨d.now, 0, 20, clsSilt, 2, srcOf (shp .slt), shp .slt % 256, 0, 0, 0, [l.count, l.tsFirst % 2 ^ 32, l.tsFirst / 2 ^ 32, l.tsLast % 2 ^ 32, l.tsLast / 2 ^ 32].flatMap (leBytes 4)⟩

/-- The episode of a group is over. -/
def lossOver (prot : Bool) (s : Silt) : Silt := if prot then { s with lossProt := none } else { s with lossUn := none }

theorem siltLossEnd_ends (d : Dev) {prot : Bool} {l : Loss} (hl : (if prot then d.silt.lossProt else d.silt.lossUn) = some l)
    (hf : (4096 - d.silt.used) - (if prot then 0 else 512) ≥ 1024) : d.siltLossEnd prot = (d.modSilt (lossOver prot)).post (d.lossRec l) := by
  unfold siltLossEnd
  rw [hl]
  exact if_neg (by omega)

/-- The record of an episode that ends is queued while there is room for it. -/
theorem siltLossEnd_shows (d : Dev) {prot : Bool} {l : Loss} (hl : (if prot then d.silt.lossProt else d.silt.lossUn) = some l)
    (hf : (4096 - d.silt.used) - (if prot then 0 else 512) ≥ 1024) (hb : d.silt.usedBytes + 48 ≤ 262144) (hm : d.on (shp .slt) SLT.CFG_FULL_MODE = false) :
    let e := d.siltLossEnd prot
    d.keeps e [shp .slt] ∧ (if prot then e.silt.lossProt else e.silt.lossUn) = none ∧ e.silt.qProt = d.silt.qProt ++ [d.lossRec l] := by
  intro e
  have he : e = (d.modSilt (lossOver prot)).post (d.lossRec l) := siltLossEnd_ends d hl hf
  have hq : (d.modSilt (lossOver prot)).silt.qProt = d.silt.qProt ∧ (d.modSilt (lossOver prot)).silt.qUn = d.silt.qUn ∧
      (d.modSilt (lossOver prot)).silt.pages = d.silt.pages := by
    cases prot <;> exact ⟨rfl, rfl, rfl⟩
  obtain ⟨h1, h2, h3⟩ := hq
  have htakes : (d.modSilt (lossOver prot)).siltTakes (d.lossRec l) = true := by
    rw [siltTakes_congr (d := d) (e := d.modSilt (lossOver prot)) _ rfl rfl h3 h1 h2, siltTakes, hm]
    have hbytes : (d.lossRec l).bytes = 48 := by simp [Rec.bytes, lossRec]
    have hcls : protectedCls (d.lossRec l).cls = true := rfl
    simp only [hcls, hbytes, if_true, Bool.false_and, Bool.not_false, Bool.true_and, decide_eq_true_eq]
    omega
  have hs : e.silt = { (d.modSilt (lossOver prot)).silt with qProt := d.silt.qProt ++ [d.lossRec l] } := by
    rw [he, post_taken htakes, h1]
    rfl
  refine ⟨he ▸ keepsSlt_post d (keepsSlt_modSilt d (keeps_refl d _)), ?_, by rw [hs]⟩
  rw [hs]
  cases prot <;> rfl

/-! ### The capture of the seal -/

/-- The words of the newest seal and of the anchor, one after another. -/
def showSeal (s : Silt) (d : Dev) (i : Nat) : Dev :=
  (d.put (shp .slt) SLT.SEAL (s.lastSeal.toNat / 2 ^ (32 * i)) i).put (shp .slt) SLT.ANCHOR (s.anchor.toNat / 2 ^ (32 * i)) i

theorem sltCapture_eq (d : Dev) : d.sltCapture = (List.range 4).foldl (showSeal d.silt) d.sltRing := rfl

theorem sltCapture_shows (d : Dev) : d.sltCapture.silt = d.silt ∧ d.keeps d.sltCapture [shp .slt] ∧
    d.sltCapture.get (shp .slt) SLT.NEXT_SEQ_SEQ = d.silt.nextSeq % 2 ^ 32 ∧
    ∀ i < 4, d.sltCapture.get (shp .slt) SLT.SEAL i = d.silt.lastSeal.toNat / 2 ^ (32 * i) % 2 ^ 32 ∧
      d.sltCapture.get (shp .slt) SLT.ANCHOR i = d.silt.anchor.toNat / 2 ^ (32 * i) % 2 ^ 32 := by
  rw [sltCapture_eq]
  have ha {i : Nat} (hi : i < 4) : i < SLT.SEAL.cnt ∧ i < SLT.ANCHOR.cnt := ⟨hi, hi⟩
  have hsilt : ((List.range 4).foldl (showSeal d.silt) d.sltRing).silt = d.silt := foldl_off (g := Dev.silt) _ _ fun _ _ _ => rfl
  have hseq : ((List.range 4).foldl (showSeal d.silt) d.sltRing).get (shp .slt) SLT.NEXT_SEQ_SEQ = d.sltRing.get (shp .slt) SLT.NEXT_SEQ_SEQ :=
    foldl_off (g := fun d : Dev => d.get (shp .slt) SLT.NEXT_SEQ_SEQ) _ _ fun e i hi => by
      obtain ⟨h1, h2⟩ := ha (List.mem_range.mp hi)
      simp (disch := first | decide | assumption) only [showSeal, get_put_apart]
  refine ⟨hsilt, keeps_trans (keepsSlt_sltRing d (keeps_refl d _)) (keeps_foldl _ _ fun e i hi => ?_), ?_, fun i hi => ⟨?_, ?_⟩⟩
  · obtain ⟨h1, h2⟩ := ha (List.mem_range.mp hi)
    exact keepsSlt_put e (keepsSlt_put e (keeps_refl e _) (by decide) h1 (by decide)) (by decide) h2 (by decide)
  · rw [hseq, sltRing, get_put_same _ _ _ _ _ _ (by decide)]
    rfl
  · obtain ⟨h1, h2⟩ := ha hi
    refine foldl_range_at (g := fun d : Dev => d.get (shp .slt) SLT.SEAL i) _ hi (fun e => ?_) fun e j hj hne => ?_
    · simp (disch := first | decide | assumption) only [showSeal, get_put_apart]
      exact get_put_same _ _ _ _ _ _ (by decide)
    · obtain ⟨h3, h4⟩ := ha hj
      simp (disch := first | decide | assumption) only [showSeal, get_put_apart, get_put_idx]
  · obtain ⟨h1, h2⟩ := ha hi
    refine foldl_range_at (g := fun d : Dev => d.get (shp .slt) SLT.ANCHOR i) _ hi (fun e => ?_) fun e j hj hne => ?_
    · exact get_put_same _ _ _ _ _ _ (by decide)
    · obtain ⟨h3, h4⟩ := ha hj
      simp (disch := first | decide | assumption) only [showSeal, get_put_apart, get_put_idx]

end Dev

/-! ### The obligation -/

section
variable (s : State)

theorem sltPostGo_exec (hout : s.out = true) {mid : BitVec 8} {mach : Bool} {addr : Word} {len : BitVec 13} {code : BitVec 8} {detail : BitVec 16}
    (ha : addr.toNat % 8 = 0) (hn : len.toNat ≤ 4072) : exec (.sltPostGo mid mach addr len code detail) s =
      .next { s with dev := (s.dev.postArgs (Who.sltGrp ⟨mid.toNat, mach⟩) addr.toNat len.toNat code.toNat detail.toNat).sltPostGo ⟨mid.toNat, mach⟩ } := by
  refine next_of_out_eq hout rfl ?_
  simp only [ha, hn, if_true]
  rfl

/-- A post of firmware is refused to a half without the lease, and copied otherwise. -/
theorem sltPostGo_shows (hout : s.out = true) (hshape : s.dev.shaped = true) (mid : BitVec 8) (mach : Bool) (addr : Word) (len : BitVec 13) (code : BitVec 8)
    (detail : BitVec 16) (ha : addr.toNat % 8 = 0) (hn : len.toNat ≤ 4072) : let w : Who := ⟨mid.toNat, mach⟩
    ∃ t, exec (.sltPostGo mid mach addr len code detail) s = .next t ∧ t.pending = s.pending ∧ s.dev.keeps t.dev [shp .slt] ∧
      (∀ h, w.half? = some h → s.dev.holds h = false → t.dev.get (shp .slt) SLT.POST_ST_STATE 0 w.sltGrp = 4 ∧ t.dev.silt = s.dev.silt) ∧
      ((∀ h, w.half? = some h → s.dev.holds h = true) → s.dev.silt.copying.getD w.sltGrp none = none →
        t.dev.get (shp .slt) SLT.POST_ST_STATE 0 w.sltGrp = 1 ∧ ∃ r : Rec, t.dev.silt.copying.getD w.sltGrp none = some r ∧ r.len = len.toNat ∧
          r.code = code.toNat ∧ r.detail = detail.toNat ∧ r.mid = mid.toNat ∧ r.ts = s.dev.now ∧ r.cls = (if len.toNat = 0 then 0 else 0xA) ∧
          r.payload = (memReads (s.dev.half (w.half?.getD s.dev.holder)).sram addr.toNat len.toNat).map BitVec.toNat) := by
  intro w
  have hg : w.sltGrp < 4 := sltGrp_lt w
  obtain ⟨e, he⟩ : ∃ e, e = s.dev.postArgs w.sltGrp addr.toNat len.toNat code.toNat detail.toNat := ⟨_, rfl⟩
  have hk : s.dev.keeps e [shp .slt] := he ▸ Dev.keepsSlt_postArgs s.dev hg ..
  have hargs := Dev.get_postArgs s.dev hg addr len code detail
  rw [← he] at hargs
  obtain ⟨haddr, hlen, hcode, hdet⟩ := hargs
  have hsilt : e.silt = s.dev.silt := by rw [he]; rfl
  obtain ⟨hq, hh⟩ := Dev.holder_of_keeps hk (by decide)
  have hholds (h : HalfId) : e.holds h = s.dev.holds h := by rw [Dev.holds, Dev.holds, hq]
  refine ⟨{ s with dev := e.sltPostGo w }, by rw [he]; exact sltPostGo_exec s hout ha hn, rfl, Dev.keepsSlt_sltPostGo s.dev hk w, fun h hw hno => ?_, fun hall hc => ?_⟩
  · rw [State.dev_mk, Dev.sltPostGo_stale e w hw ((hholds h).trans hno)]
    exact ⟨Dev.get_put_same _ _ _ _ _ _ (by decide), hsilt⟩
  · rw [State.dev_mk, Dev.sltPostGo_copies e w (fun h hw => (hholds h).trans (hall h hw)) (by rw [hsilt]; exact hc)]
    have hl : e.silt.copying.length = 4 := by
      rw [hsilt]
      simp only [Dev.shaped, Bool.and_eq_true, beq_iff_eq] at hshape
      simp [hshape]
    refine ⟨Dev.get_put_same _ _ _ _ _ _ (by decide), e.postRec w, getD_lset_same _ _ (by omega), hlen, hcode, hdet, rfl, Dev.now_of_keepsSlt hk, ?_, ?_⟩
    · rw [Dev.postRec, hlen]
    · rw [Dev.postRec, hlen, haddr, hh, Dev.sram_of_keeps hk]

/-- The end of a copy. -/
theorem sltPostCopyDone_shows (hout : s.out = true) (hshape : s.dev.shaped = true) (g : Fin 4) :
    (s.dev.silt.copying.getD g none = none → exec (.sltPostCopyDone g) s = .next s) ∧
    (∀ r : Rec, s.dev.silt.copying.getD g none = some r → ∃ t, exec (.sltPostCopyDone g) s = .next t ∧ t.pending = s.pending ∧
      s.dev.keeps t.dev [shp .slt] ∧ t.dev.silt.copying.getD g none = none ∧ t.dev.get (shp .slt) SLT.POST_ST_STATE 0 g = (if s.dev.siltTakes r then 2 else 3) ∧
      (s.dev.siltTakes r = true → protectedCls r.cls = false → t.dev.silt.qUn = s.dev.silt.qUn ++ [r] ∧ t.dev.silt.qProt = s.dev.silt.qProt) ∧
      (s.dev.siltTakes r = true → protectedCls r.cls = true → t.dev.silt.qProt = s.dev.silt.qProt ++ [r] ∧ t.dev.silt.qUn = s.dev.silt.qUn)) := by
  refine ⟨fun hc => next_of_out_eq hout rfl (Dev.sltPostDone_idle s.dev hc), fun r hr => ?_⟩
  have hl : s.dev.silt.copying.length = 4 := by
    simp only [Dev.shaped, Bool.and_eq_true, beq_iff_eq] at hshape
    simp [hshape]
  obtain ⟨hsilt, hcopy, hst, hk⟩ := Dev.sltPostDone_shows s.dev g.isLt hl hr
  refine ⟨_, next_of_out hout rfl, rfl, hk, hcopy, hst, fun ht hp => ?_, fun ht hp => ?_⟩
  all_goals
    rw [State.dev_mk, hsilt, Dev.post_taken ((Dev.siltTakes_congr (d := s.dev) (e := s.dev.copied g) r rfl rfl rfl rfl rfl).trans ht), hp]
    exact ⟨rfl, rfl⟩

/-- The writer takes protected records first. -/
theorem siltWrite_exec (hout : s.out = true) {r : Rec} {q : List Rec} (hq : s.dev.silt.qProt = r :: q ∨ s.dev.silt.qProt = [] ∧ s.dev.silt.qUn = r :: q) :
    ∃ t, exec .siltWrite s = .next t ∧ t.pending = s.pending ∧ s.dev.keeps t.dev [shp .slt] ∧
      (s.dev.silt.qProt = r :: q → t.dev.silt.qProt = q ∧ t.dev.silt.qUn = s.dev.silt.qUn) ∧ (s.dev.silt.qProt = [] → t.dev.silt.qProt = [] ∧ t.dev.silt.qUn = q) ∧
      (s.dev.ringTakes r.cls = true → t.dev.silt.nextSeq = (s.dev.silt.nextSeq + 1) % 2 ^ 32 ∧
        t.dev.get (shp .slt) SLT.NEXT_SEQ_SEQ = (s.dev.silt.nextSeq + 1) % 2 ^ 32) ∧
      (s.dev.ringTakes r.cls = false → t.dev.silt.nextSeq = s.dev.silt.nextSeq ∧ t.dev.silt.pages = s.dev.silt.pages ∧
        t.dev.get (shp .slt) (Dev.lostFld r) = satU 16 (s.dev.get (shp .slt) (Dev.lostFld r) + 1) % 2 ^ 16 ∧
        (if protectedCls r.cls then t.dev.silt.lossProt = lossStep s.dev.silt.lossProt r.ts ∧ t.dev.silt.lossUn = s.dev.silt.lossUn
         else t.dev.silt.lossUn = lossStep s.dev.silt.lossUn r.ts ∧ t.dev.silt.lossProt = s.dev.silt.lossProt)) := by
  have hfront : ∃ q', s.dev.silt.qProt ++ s.dev.silt.qUn = r :: q' := by
    rcases hq with hq | ⟨hp, hu⟩
    · exact ⟨q ++ s.dev.silt.qUn, by rw [hq]; rfl⟩
    · exact ⟨q, by rw [hp, hu]; rfl⟩
  obtain ⟨q', hfront⟩ := hfront
  obtain ⟨hp, hu, hk, htakes, hlost⟩ := Dev.siltWrite_shows s.dev hfront
  refine ⟨_, next_of_out hout rfl, rfl, hk, fun h => ?_, fun h => ?_, htakes, hlost⟩
  · rw [State.dev_mk, hp, hu, Dev.popped, h]
    exact ⟨rfl, rfl⟩
  · have hun : s.dev.silt.qUn = r :: q := by
      rcases hq with hq | ⟨-, hu⟩
      · rw [h] at hq
        exact absurd hq (by simp)
      · exact hu
    rw [State.dev_mk, hp, hu, Dev.popped, h, hun]
    exact ⟨rfl, rfl⟩

/-- Settles O53: posts, the writer, loss episodes and the capture, each from what it shows. -/
theorem siltTakesAndWrites : Obligations.SiltTakesAndWrites := by
  unfold Obligations.SiltTakesAndWrites
  intro s hout hshape p
  refine ⟨fun mid mach addr len code detail ha hn => sltPostGo_shows s hout hshape mid mach addr len code detail ha hn, sltPostCopyDone_shows s hout hshape,
    fun h1 h2 => next_of_out_eq hout rfl (Dev.siltWrite_none s.dev h1 h2), fun r q hq => siltWrite_exec s hout hq, fun prot => ⟨fun h => ?_, fun l hl hf hb hm => ?_⟩, ?_⟩
  · exact next_of_out_eq hout rfl (Dev.siltLossEnd_stands s.dev prot h)
  · obtain ⟨h1, h2, h3⟩ := Dev.siltLossEnd_shows s.dev hl hf hb hm
    exact ⟨_, next_of_out hout rfl, rfl, h1, h2, _, h3, rfl, rfl, rfl⟩
  · obtain ⟨h1, h2, h3, h4⟩ := Dev.sltCapture_shows s.dev
    exact ⟨_, next_of_out hout rfl, rfl, h1, h2, h3, fun i => h4 i i.isLt⟩

end

end Sys2Proof.Machine
end

section
/-! PROOFS. The recorder: cursors, exports, verification, nonces and clears. -/
namespace Sys2Proof.Machine

open Sys2Proof

theorem ofLe_lt (bs : List Byte) : ofLe (bs.map BitVec.toNat) < 2 ^ (8 * bs.length) := by
  induction bs with
  | nil => decide
  | cons b bs ih =>
    have hb := b.isLt
    have hp : 2 ^ (8 * (bs.length + 1)) = 256 * 2 ^ (8 * bs.length) := by rw [show 8 * (bs.length + 1) = 8 + 8 * bs.length by omega, pow_add]; rfl
    rw [List.map_cons, ofLe, List.length_cons, hp]
    omega

/-- A word read from bytes stays within their width. -/
theorem leAt_lt (bs : List Byte) (o n : Nat) : leAt (bs.map BitVec.toNat) o n < 2 ^ (8 * n) := by
  have hlen : ((bs.drop o).take n).length ≤ n := by simp
  rw [leAt, ← List.map_drop, ← List.map_take]
  exact Nat.lt_of_lt_of_le (ofLe_lt _) (Nat.pow_le_pow_right (by decide) (by omega))

namespace Dev

/-! ### Cursors -/

/-- What a cursor that has found something shows, or that there is nothing. -/
def cursorShows (e : Dev) (g : Nat) (x : Option Entry) : Prop :=
  match x with
  | none => e.get (shp .slt) SLT.CUR_ST_STATE 0 g = 0
  | some x => (x.ecc = true → e.get (shp .slt) SLT.CUR_ST_STATE 0 g = 3) ∧
      (x.ecc = false → e.get (shp .slt) SLT.CUR_ST_STATE 0 g = 1 ∧ (e.silt.cursors.getD g ⟨none, []⟩).seq = some x.seq ∧
        ∀ i : Fin 6, e.get (shp .slt) SLT.RD_H i g = leAt (x.bytes.map BitVec.toNat) (4 * i.val) 4)

/-- The words of a header, one after another. -/
def showHeader (bs : List Nat) (g : Nat) (d : Dev) (i : Nat) : Dev := d.put (shp .slt) SLT.RD_H (leAt bs (4 * i) 4) i g

/-- The cursor of a group. -/
def setCursor (d : Dev) (g : Nat) (c : Cursor) : Dev := d.modSilt (fun s => { s with cursors := lset s.cursors g c })

/-- A cursor on a record. -/
def cursorOn (x : Entry) : Cursor := ⟨some x.seq, ((x.bytes.map BitVec.toNat).drop 24).take (leAt (x.bytes.map BitVec.toNat) 12 2)⟩

theorem sltShow_fine (d : Dev) (g : Nat) {x : Entry} (h : x.ecc = false) : d.sltShow g x =
    ((List.range 6).foldl (showHeader (x.bytes.map BitVec.toNat) g) (d.setCursor g (cursorOn x))).put (shp .slt) SLT.CUR_ST_STATE 1 0 g := by
  rw [sltShow, h]
  rfl

section
variable (d : Dev) {g : Nat} (hg : g < 4)
include hg

theorem sltFound_shows (hl : d.silt.cursors.length = 4) (x : Option Entry) : cursorShows (d.sltFound g x) g x ∧ d.keeps (d.sltFound g x) [shp .slt] := by
  have ht : g < 65536 := by omega
  have hstate {e : Dev} (he : d.keeps e [shp .slt]) (v : Nat) : d.keeps (e.put (shp .slt) SLT.CUR_ST_STATE v 0 g) [shp .slt] :=
    keepsSlt_put d he (by decide) (by decide) ht
  cases x with
  | none => exact ⟨get_put_same _ _ _ _ _ _ (by decide), hstate (keeps_refl d _) 0⟩
  | some x =>
    show cursorShows (d.sltShow g x) g (some x) ∧ d.keeps (d.sltShow g x) [shp .slt]
    cases hx : x.ecc
    · rw [sltShow_fine d g hx]
      obtain ⟨m, hm⟩ : ∃ m, m = d.setCursor g (cursorOn x) := ⟨_, rfl⟩
      have hmk : d.keeps m [shp .slt] := hm ▸ keepsSlt_modSilt d (keeps_refl d _)
      have hcnt {i : Nat} (hi : i < 6) : i < SLT.RD_H.cnt := hi
      rw [← hm]
      refine ⟨⟨fun h => absurd (hx.symm.trans h) (by decide), fun _ => ⟨get_put_same _ _ _ _ _ _ (by decide), ?_, fun i => ?_⟩⟩, hstate (keeps_trans hmk ?_) 1⟩
      · have hsilt : ((List.range 6).foldl (showHeader (x.bytes.map BitVec.toNat) g) m).silt = m.silt := foldl_off (g := Dev.silt) _ _ fun _ _ _ => rfl
        rw [silt_put, hsilt, hm, setCursor, silt_modSilt, getD_lset_same _ _ (by omega), cursorOn]
      · rw [get_put_apart _ _ (by decide) (by decide) (by decide) (by decide) (hcnt i.isLt) ht ht]
        refine foldl_range_at (g := fun d : Dev => d.get (shp .slt) SLT.RD_H i g) _ i.isLt (fun e => ?_) fun e j hj hne => ?_
        · rw [showHeader, get_put_same _ _ _ _ _ _ (by decide)]
          exact Nat.mod_eq_of_lt (leAt_lt ..)
        · exact get_put_idx _ _ (by decide) ht ht hne
      · exact keeps_foldl _ _ fun e i hi => keepsSlt_put e (keeps_refl e _) (by decide) (hcnt (List.mem_range.mp hi)) ht
    · rw [sltShow, hx]
      exact ⟨⟨fun _ => get_put_same _ _ _ _ _ _ (by decide), fun h => absurd (hx.symm.trans h) (by decide)⟩, hstate (keepsSlt_modSilt d (keeps_refl d _)) 3⟩

theorem keepsSlt_sltStep (hl : d.silt.cursors.length = 4) (es : List Entry) : d.keeps (d.sltStep g es) [shp .slt] := by
  have ht : g < 65536 := by omega
  unfold sltStep
  split
  · exact keepsSlt_put d (keeps_refl d _) (by decide) (by decide) ht
  · split
    · exact keepsSlt_err d (keepsSlt_put d (keeps_refl d _) (by decide) (by decide) ht)
    · exact (sltFound_shows d hg hl _).2

omit hg in
/-- A cursor with no record. -/
theorem sltStep_none (es : List Entry) (h : (d.silt.cursors.getD g ⟨none, []⟩).seq = none) : (d.sltStep g es).get (shp .slt) SLT.CUR_ST_STATE 0 g = 0 := by
  unfold sltStep
  rw [h]
  exact get_put_same _ _ _ _ _ _ (by decide)

/-- A cursor whose record has been replaced. -/
theorem sltStep_gone {es : List Entry} {q : Nat} (h : (d.silt.cursors.getD g ⟨none, []⟩).seq = some q) (hf : es.findIdx? (fun e => e.seq == q) = none) :
    (d.sltStep g es).get (shp .slt) SLT.CUR_ST_STATE 0 g = 2 ∧ (d.sltStep g es).get (shp .slt) HDR.ERR_CODE = cSLT_GONE := by
  have ht : g < 65536 := by omega
  unfold sltStep
  simp only [h, hf]
  constructor
  · simp (disch := first | decide | assumption) only [err, bump, get_put_apart]
    exact get_put_same _ _ _ _ _ _ (by decide)
  · simp (disch := first | decide | assumption) only [err, bump, get_put_apart, get_put_same]
    decide

/-- A cursor on a good record moves to the one behind it. -/
theorem sltStep_next (hl : d.silt.cursors.length = 4) {es : List Entry} {q k : Nat} {e : Entry} (h : (d.silt.cursors.getD g ⟨none, []⟩).seq = some q)
    (hf : es.findIdx? (fun e => e.seq == q) = some k) (hk : es[k]? = some e) (he : e.ecc = false) : cursorShows (d.sltStep g es) g es[k + 1]? := by
  have hstep : d.sltStep g es = d.sltFound g es[k + 1]? := by
    unfold sltStep
    simp only [h, hf, hk, he, Bool.false_eq_true, if_false, List.head?_drop]
  rw [hstep]
  exact (sltFound_shows d hg hl _).1

/-- The payload word at the cursor's place, which moves on. -/
theorem sltRdData_shows : (d.sltRdData g).resp = ⟨[BitVec.ofNat 32 (leAt (d.silt.cursors.getD g ⟨none, []⟩).payload (d.get (shp .slt) SLT.RD_POFS_OFS 0 g) 4)], false, 0⟩ ∧
    (d.sltRdData g).get (shp .slt) SLT.RD_POFS_OFS 0 g = (d.get (shp .slt) SLT.RD_POFS_OFS 0 g + 4) % 2 ^ 13 ∧ d.keeps (d.sltRdData g) [shp .slt] :=
  ⟨rfl, get_put_same _ _ _ _ _ _ (by decide), keepsSlt_put d (e := { d with resp := _ }) (keeps_refl d _) (by decide) (by decide) (by omega)⟩

end

/-! ### Exports -/

/-- One page of an export. -/
def exportStep (h : HalfId) (addr pseq g : Nat) (d : Dev) (i : Nat) : Dev :=
  match d.silt.pages.find? (fun q => q.pseq == pseq + i) with
  | none => if d.get (shp .slt) SLT.EXP_ST_STATE 0 g = 3 then d else (d.put (shp .slt) SLT.EXP_ST_STATE 3 0 g).err (shp .slt) cSLT_GONE g
  | some q =>
    if q.ecc then (if d.get (shp .slt) SLT.EXP_ST_STATE 0 g = 3 then d else d.put (shp .slt) SLT.EXP_ST_STATE 4 0 g)
    else if 0x08000000 ≤ addr + 4096 * i ∧ addr + 4096 * i + 4096 ≤ 0x08800000 then
      (d.modHalf h (fun x => { x with sram := memWrites x.sram (addr + 4096 * i) q.bytes })).heal h [(addr + 4096 * i, 4096)]
    else d

/-- A group's export is over. -/
def exported (d : Dev) (g : Nat) : Dev := d.modSilt (fun s => { s with exps := lset s.exps g none })

theorem sltExportDone_none (d : Dev) {g : Nat} (h : d.silt.exps.getD g none = none) : d.sltExportDone g = d := by rw [sltExportDone, h]

theorem sltExportDone_eq (d : Dev) {g addr pseq n : Nat} (h : d.silt.exps.getD g none = some (addr, pseq, n)) : d.sltExportDone g =
    (let e := (List.range n).foldl (exportStep (d.grpHalf g) addr pseq g) (d.exported g)
     if e.get (shp .slt) SLT.EXP_ST_STATE 0 g = 1 then e.put (shp .slt) SLT.EXP_ST_STATE 2 0 g else e) := by
  rw [sltExportDone, h]
  rfl

/-- What an export of `k` good pages has written, and what it leaves. -/
structure Exported (d e : Dev) (h : HalfId) (addr pseq k : Nat) : Prop where
  silt : e.silt = d.silt
  regs : e.regs = d.regs
  mram : e.mram = d.mram
  other : (e.half h.other).sram = (d.half h.other).sram
  outside : ∀ a, a < addr ∨ addr + 4096 * k ≤ a → memRead (e.half h).sram a = memRead (d.half h).sram a
  inside : ∀ i < k, ∀ pg, d.silt.pages.find? (fun x => x.pseq == pseq + i) = some pg → ∀ j < 4096,
    memRead (e.half h).sram (addr + 4096 * i + j) = (if 0x08000000 ≤ addr + 4096 * i ∧ addr + 4096 * i + 4096 ≤ 0x08800000 then
      pg.bytes.getD j 0 else memRead (d.half h).sram (addr + 4096 * i + j))

/-- A page that is stored. -/
def storePage (d : Dev) (h : HalfId) (a : Nat) (q : SiltPage) : Dev :=
  (d.modHalf h (fun x => { x with sram := memWrites x.sram a q.bytes })).heal h [(a, 4096)]

theorem storePage_leaves (d : Dev) (h : HalfId) (a : Nat) (q : SiltPage) : (d.storePage h a q).silt = d.silt ∧ (d.storePage h a q).regs = d.regs ∧
    (d.storePage h a q).mram = d.mram ∧ ((d.storePage h a q).half h.other).sram = (d.half h.other).sram ∧
    ((d.storePage h a q).half h).sram = memWrites (d.half h).sram a q.bytes := by
  have hsilt (e : Dev) (g : Hlf → Hlf) : (e.modHlf h g).silt = e.silt := by cases h <;> rfl
  simp [storePage, heal, hsilt]

theorem exportStep_good {h : HalfId} {addr pseq g i : Nat} {d : Dev} {q : SiltPage} (hf : d.silt.pages.find? (fun q => q.pseq == pseq + i) = some q)
    (hq : q.ecc = false) : exportStep h addr pseq g d i =
      if 0x08000000 ≤ addr + 4096 * i ∧ addr + 4096 * i + 4096 ≤ 0x08800000 then d.storePage h (addr + 4096 * i) q else d := by
  rw [exportStep, hf]
  simp only [hq, Bool.false_eq_true, if_false, storePage]

theorem exported_fold (d : Dev) (h : HalfId) (addr pseq g : Nat) : ∀ k : Nat,
    (∀ i < k, ∃ pg, d.silt.pages.find? (fun x => x.pseq == pseq + i) = some pg ∧ pg.ecc = false ∧ pg.bytes.length = 4096) →
    Exported d ((List.range k).foldl (exportStep h addr pseq g) d) h addr pseq k
  | 0, _ => ⟨rfl, rfl, rfl, rfl, fun _ _ => rfl, fun i hi => absurd hi (Nat.not_lt_zero i)⟩
  | k + 1, hall => by
    have ih := exported_fold d h addr pseq g k fun i hi => hall i (by omega)
    obtain ⟨q, hq, hecc, hlen⟩ := hall k (Nat.lt_succ_self k)
    rw [List.range_succ, List.foldl_append, List.foldl_cons, List.foldl_nil]
    generalize (List.range k).foldl (exportStep h addr pseq g) d = e at ih
    rw [exportStep_good (by rw [ih.silt]; exact hq) hecc]
    by_cases hin : 0x08000000 ≤ addr + 4096 * k ∧ addr + 4096 * k + 4096 ≤ 0x08800000
    · rw [if_pos hin]
      obtain ⟨h1, h2, h3, h4, h5⟩ := storePage_leaves e h (addr + 4096 * k) q
      refine ⟨h1.trans ih.silt, h2.trans ih.regs, h3.trans ih.mram, h4.trans ih.other, fun a ha => ?_, fun i hi pg hpg j hj => ?_⟩
      · rw [h5, memRead_memWrites, if_neg (by omega), ih.outside a (by omega)]
      · rw [h5, memRead_memWrites]
        rcases Nat.lt_succ_iff_lt_or_eq.mp hi with hi | rfl
        · rw [if_neg (by omega), ih.inside i hi pg hpg j hj]
        · obtain rfl : q = pg := Option.some.inj (hq.symm.trans hpg)
          rw [if_pos (by omega), if_pos hin, Nat.add_sub_cancel_left]
    · rw [if_neg hin]
      refine ⟨ih.silt, ih.regs, ih.mram, ih.other, fun a ha => ih.outside a (by omega), fun i hi pg hpg j hj => ?_⟩
      rcases Nat.lt_succ_iff_lt_or_eq.mp hi with hi | rfl
      · exact ih.inside i hi pg hpg j hj
      · rw [if_neg hin, ih.outside _ (by omega)]

/-! ### Verification -/

theorem sltVerifyDone_none (d : Dev) (h : d.silt.vfy = none) : d.sltVerifyDone = d := by rw [sltVerifyDone, h]

/-- A verification that has ended, before its result. -/
def verified (d : Dev) : Dev := ((d.modSilt (fun s => { s with vfy := none })).put (shp .slt) SLT.STATE_VFY 0).stat (shp .slt) 3

/-- The result of a verification. -/
def verdict (e : Dev) (x : Option SiltPage) : Dev :=
  match x with
  | some q => ((e.put (shp .slt) SLT.VFY_ST_STATE 3).put64 (shp .slt) SLT.VFY_BAD_LO SLT.VFY_BAD_HI q.pseq).pageFails q
  | none => e.put (shp .slt) SLT.VFY_ST_STATE 2

theorem sltVerifyDone_eq (d : Dev) {a n : Nat} (h : d.silt.vfy = some (a, n)) : d.sltVerifyDone =
    d.verified.verdict (d.silt.pages.find? (fun q => decide (a ≤ q.pseq ∧ q.pseq < a + n) && d.pageBad q)) := by
  rw [sltVerifyDone, h]
  rfl

theorem sltVerifyDone_shows (d : Dev) {a n : Nat} (h : d.silt.vfy = some (a, n)) : let e := d.sltVerifyDone
    d.keeps e [shp .slt] ∧ e.silt.vfy = none ∧ e.get (shp .slt) SLT.STATE_VFY = 0 ∧
      (match d.silt.pages.find? (fun q => decide (a ≤ q.pseq ∧ q.pseq < a + n) && d.pageBad q) with
       | some x => e.get (shp .slt) SLT.VFY_ST_STATE = 3 ∧ e.get (shp .slt) HDR.ERR_CODE = (if x.ecc then cECC else cSLT_CHAIN) ∧
          e.get64 (shp .slt) SLT.VFY_BAD_LO SLT.VFY_BAD_HI = x.pseq % 2 ^ 64
       | none => e.get (shp .slt) SLT.VFY_ST_STATE = 2) := by
  intro e
  have he : e = d.verified.verdict _ := sltVerifyDone_eq d h
  have hk : d.keeps d.verified [shp .slt] := keepsSlt_stat d (keepsSlt_put d (keepsSlt_modSilt d (keeps_refl d _)) (by decide) (by decide) (by decide))
  have hvfy : d.verified.get (shp .slt) SLT.STATE_VFY = 0 := by
    simp (disch := decide) only [verified, get_stat_apart, get_put_same]
    decide
  rw [he]
  cases d.silt.pages.find? (fun q => decide (a ≤ q.pseq ∧ q.pseq < a + n) && d.pageBad q) with
  | none =>
    refine ⟨keepsSlt_put d hk (by decide) (by decide) (by decide), rfl, ?_, get_put_same _ _ _ _ _ _ (by decide)⟩
    rw [verdict, get_put_apart _ _ (by decide) (by decide) (by decide) (by decide) (by decide) (by decide) (by decide), hvfy]
  | some q =>
    have hbad : d.keeps (d.verified.verdict (some q)) [shp .slt] :=
      keepsSlt_err d (keepsSlt_put d (keepsSlt_put d (keepsSlt_put d hk (f := SLT.VFY_ST_STATE) (by decide) (by decide) (by decide))
        (f := SLT.VFY_BAD_LO) (by decide) (by decide) (by decide)) (f := SLT.VFY_BAD_HI) (by decide) (by decide) (by decide))
    refine ⟨hbad, rfl, ?_, ?_, ?_, ?_⟩
    · simp (disch := decide) only [verdict, pageFails, err, bump, put64, get_put_apart, hvfy]
    · simp (disch := decide) only [verdict, pageFails, err, bump, put64, get_put_apart, get_put_same]
      decide
    · simp (disch := decide) only [verdict, pageFails, err, bump, get_put_apart, get_put_same]
      split <;> rfl
    · have hget (f : Fld) (hf : f ∈ [SLT.VFY_BAD_LO, SLT.VFY_BAD_HI]) : (d.verified.verdict (some q)).get (shp .slt) f =
          ((d.verified.put (shp .slt) SLT.VFY_ST_STATE 3).put64 (shp .slt) SLT.VFY_BAD_LO SLT.VFY_BAD_HI q.pseq).get (shp .slt) f := by
        fin_cases hf <;> simp (disch := decide) only [verdict, pageFails, err, bump, get_put_apart]
      rw [get64, hget _ (by simp), hget _ (by simp)]
      exact get64_put64 _ _ _ 0 (by decide) (by decide) (by decide) (by decide) (by decide)

/-! ### Nonces -/

/-- The words of a nonce, one after another. -/
def showNonce (v : Nat) (d : Dev) (i : Nat) : Dev := d.put (shp .slt) SLT.NONCE (v / 2 ^ (32 * i)) i

theorem sltShowNonce_eq (d : Dev) : d.sltShowNonce = (List.range 4).foldl (showNonce (d.silt.nonce.getD 0).toNat) d := rfl

theorem sltShowNonce_shows (d : Dev) : d.sltShowNonce.silt = d.silt ∧ d.keeps d.sltShowNonce [shp .slt] ∧
    ∀ i < 4, d.sltShowNonce.get (shp .slt) SLT.NONCE i = (d.silt.nonce.getD 0).toNat / 2 ^ (32 * i) % 2 ^ 32 := by
  have hcnt {i : Nat} (hi : i < 4) : i < SLT.NONCE.cnt := hi
  rw [sltShowNonce_eq]
  refine ⟨foldl_off (g := Dev.silt) _ _ fun _ _ _ => rfl,
    keeps_foldl _ _ fun e i hi => keepsSlt_put e (keeps_refl e _) (by decide) (hcnt (List.mem_range.mp hi)) (by decide), fun i hi => ?_⟩
  exact foldl_range_at (g := fun d : Dev => d.get (shp .slt) SLT.NONCE i) _ hi (fun e => get_put_same _ _ _ _ _ _ (by decide))
    fun e j hj hne => get_put_idx _ _ (by decide) (by decide) (by decide) hne

/-- A register that the nonce's words are apart from. -/
theorem get_sltShowNonce (d : Dev) {f : Fld} (ha : SLT.NONCE.apart f = true) (hf : f.fits = true) (hi : 0 < f.cnt) :
    d.sltShowNonce.get (shp .slt) f = d.get (shp .slt) f :=
  foldl_off (g := fun d : Dev => d.get (shp .slt) f) _ _ fun e i hi' => get_put_apart _ _ ha (by decide) hf (List.mem_range.mp hi') hi (by decide) (by decide)

/-- Words drawn one after another leave the part but for the count of draws. -/
theorem sltNonce_eq (d : Dev) : ∃ (x : Nat) (c : Nat), d.sltNonce =
    (({ d with freeCtr := c } : Dev).modSilt (fun s => { s with nonce := some (BitVec.ofNat 128 x), token := none })).sltShowNonce := ⟨_, _, rfl⟩

theorem sltNonce_shows (d : Dev) : d.keeps d.sltNonce [shp .slt] ∧ d.sltNonce.silt.token = none ∧
    ∃ x : BitVec 128, d.sltNonce.silt.nonce = some x ∧ ∀ i : Fin 4, d.sltNonce.get (shp .slt) SLT.NONCE i = x.toNat / 2 ^ (32 * i.val) % 2 ^ 32 := by
  obtain ⟨x, c, he⟩ := sltNonce_eq d
  obtain ⟨m, hm⟩ : ∃ m, m = ({ d with freeCtr := c } : Dev).modSilt (fun s => { s with nonce := some (BitVec.ofNat 128 x), token := none }) := ⟨_, rfl⟩
  have hk : d.keeps m [shp .slt] := by
    rw [hm]
    exact (keeps_modSilt_iff ..).mpr ((keeps_with_freeCtr ..).mpr (keeps_refl d _))
  have hn : m.silt.nonce = some (BitVec.ofNat 128 x) ∧ m.silt.token = none := by rw [hm]; exact ⟨rfl, rfl⟩
  rw [he, ← hm]
  obtain ⟨h1, h2, h3⟩ := sltShowNonce_shows m
  rw [h1]
  refine ⟨keeps_trans hk h2, hn.2, _, hn.1, fun i => ?_⟩
  rw [h3 i i.isLt, hn.1]
  rfl

theorem sltNonceEnd_shows (d : Dev) : d.keeps d.sltNonceEnd [shp .slt] ∧ d.sltNonceEnd.silt = { d.silt with nonce := none } ∧
    ∀ i : Fin 4, d.sltNonceEnd.get (shp .slt) SLT.NONCE i = 0 := by
  obtain ⟨h1, h2, h3⟩ := sltShowNonce_shows (d.modSilt (fun s => { s with nonce := none }))
  refine ⟨keeps_trans (keepsSlt_modSilt d (keeps_refl d _)) h2, h1, fun i => (h3 i i.isLt).trans ?_⟩
  simp

/-! ### The fill level and clears -/

/-- The registers that the fill level shows, beside the state of the recorder. -/
def levelFields : List Fld := [SLT.FILL_PCT, HDR.STAT_BLOCK, HDR.ERR_COUNT, HDR.ERR_CODE, HDR.ERR_DETAIL]

/-- The fill level, with its warning. -/
def levelWarned (d : Dev) : Dev :=
  let e := d.put (shp .slt) SLT.FILL_PCT (min 100 d.siltPct)
  if d.siltPct ≥ e.get (shp .slt) SLT.CFG_WARN_PCT && !e.silt.nearFull then
    ((e.modSilt (fun s => { s with nearFull := true })).stat (shp .slt) 1).err (shp .slt) cSLT_NEAR_FULL else e

/-- Whether a recorder that holds is full for firmware. -/
def levelFull (d : Dev) : Bool :=
  d.on (shp .slt) SLT.CFG_FULL_MODE && (d.siltFree == 0 || (decide (d.siltFree ≤ 64) && d.get (shp .slt) SLT.STATE_CODE != 2))

theorem siltLevel_eq (d : Dev) : d.siltLevel = if d.levelWarned.levelFull then
    ((if d.levelWarned.get (shp .slt) SLT.STATE_CODE = 1 then d.levelWarned else d.levelWarned.put (shp .slt) SLT.STATE_CODE 2).stat (shp .slt) 2).err
      (shp .slt) cSLT_FULL else d.levelWarned := rfl

section
variable (d : Dev) {f : Fld} (ha : ∀ g ∈ levelFields, g.apart f = true) (hf : f.fits = true) (hi : 0 < f.cnt)
include ha hf hi

theorem get_levelPut {g : Fld} (v : Nat) (hg : g ∈ levelFields) : (d.put (shp .slt) g v).get (shp .slt) f = d.get (shp .slt) f := by
  refine get_put_apart d v (ha g hg) ?_ hf ?_ hi (by decide) (by decide) <;> fin_cases hg <;> decide

theorem get_levelWarned : d.levelWarned.get (shp .slt) f = d.get (shp .slt) f := by
  have hput (d : Dev) (g : Fld) (v : Nat) (hg : g ∈ levelFields) := get_levelPut d ha hf hi v hg
  unfold levelWarned
  dsimp only
  split <;> simp (disch := decide) only [err, bump, stat, orBits, hput, get_modSilt]

theorem get_siltLevel (hs : SLT.STATE_CODE.apart f = true) : d.siltLevel.get (shp .slt) f = d.get (shp .slt) f := by
  have hput (d : Dev) (g : Fld) (v : Nat) (hg : g ∈ levelFields) := get_levelPut d ha hf hi v hg
  have hstate (d : Dev) : (d.put (shp .slt) SLT.STATE_CODE 2).get (shp .slt) f = d.get (shp .slt) f :=
    get_put_apart d _ hs (by decide) hf (by decide) hi (by decide) (by decide)
  rw [siltLevel_eq]
  split
  · split <;> simp (disch := decide) only [err, bump, stat, orBits, hput, hstate, get_levelWarned d ha hf hi]
  · exact get_levelWarned d ha hf hi

end

theorem pages_levelWarned (d : Dev) : d.levelWarned.silt.pages = d.silt.pages := by
  unfold levelWarned
  dsimp only
  split <;> rfl

theorem levelFull_warned (d : Dev) : d.levelWarned.levelFull = d.levelFull := by
  rw [levelFull, levelFull, siltFree, siltFree, on, on, pages_levelWarned, get_levelWarned d (by decide) (by decide) (by decide),
    get_levelWarned d (by decide) (by decide) (by decide), get_levelWarned d (by decide) (by decide) (by decide)]

/-- The state of the recorder at its fill level. -/
theorem state_siltLevel (d : Dev) : d.siltLevel.get (shp .slt) SLT.STATE_CODE =
    if d.levelFull = true ∧ d.get (shp .slt) SLT.STATE_CODE ≠ 1 then 2 else d.get (shp .slt) SLT.STATE_CODE := by
  have hst := get_levelWarned d (f := SLT.STATE_CODE) (by decide) (by decide) (by decide)
  have hshow (e : Dev) : ((e.stat (shp .slt) 2).err (shp .slt) cSLT_FULL).get (shp .slt) SLT.STATE_CODE = e.get (shp .slt) SLT.STATE_CODE := by
    simp (disch := decide) only [err, bump, get_stat_apart, get_put_apart]
  rw [siltLevel_eq, levelFull_warned]
  by_cases hfull : d.levelFull = true
  · rw [if_pos hfull, hshow, hst]
    by_cases h1 : d.get (shp .slt) SLT.STATE_CODE = 1
    · rw [if_pos h1, if_neg (by simp [h1]), hst]
    · rw [if_neg h1, if_pos ⟨hfull, h1⟩, get_put_same _ _ _ _ _ _ (by decide)]
      rfl
  · rw [if_neg hfull, if_neg (by simp [hfull]), hst]

/-- What a clear that starts shows. -/
theorem siltErase_shows (d : Dev) (all : Bool) (bound : Nat) (key : BitVec 128) (serial mid priv : Nat) : let e := d.siltErase all bound key serial mid priv
    d.keeps e [shp .slt] ∧ e.get (shp .slt) SLT.CLR_ST_STATE = 1 ∧ e.get (shp .slt) SLT.STATE_CODE = 1 ∧ e.silt.token = d.silt.token ∧
      e.silt.nonce = d.silt.nonce ∧ (all = true → e.silt.pages = []) ∧ ∃ r : Rec, e.silt.qProt = r :: d.silt.qProt ∧ r.cls = clsSilt ∧ r.code = 1 := by
  intro e
  have hdef : e = d.siltErase all bound key serial mid priv := rfl
  clear_value e
  unfold siltErase at hdef
  extract_lets p d1 d2 es upto gone erased seal_ seq1 seq2 pay r d3 d4 at hdef
  have h1 : d.keeps d1 [shp .slt] := keepsSlt_put d (keeps_refl d _) (by decide) (by decide) (by decide)
  have h2 : d.keeps d2 [shp .slt] ∧ besideRing d2.silt = besideRing d.silt := by
    unfold d2
    split
    · exact ⟨keepsSlt_siltSeal d h1 0, silt_siltSeal d1 0⟩
    · exact ⟨h1, rfl⟩
  obtain ⟨h2, hbeside⟩ := h2
  have h4 : d.keeps d4 [shp .slt] := keepsSlt_modSilt d (keepsSlt_modSilt d h2)
  have hsilt4 : d4.silt.token = d.silt.token ∧ d4.silt.nonce = d.silt.nonce ∧ d4.silt.qProt = r :: d.silt.qProt ∧ d4.silt.pages = d2.silt.pages.drop gone.length :=
    ⟨(congrArg Silt.token hbeside :), (congrArg Silt.nonce hbeside :), congrArg (r :: ·) (congrArg Silt.qProt hbeside :), rfl⟩
  obtain ⟨m, hm⟩ : ∃ m, m = ((d4.sltRing.put p SLT.QUEUE_USED d4.silt.used).put p SLT.STATE_CODE 1).put p SLT.CLR_ST_STATE 1 := ⟨_, rfl⟩
  have hmsilt : m.silt = d4.silt := by rw [hm]; rfl
  obtain ⟨b, hb⟩ := silt_siltLevel m
  obtain ⟨ht, hn, hq, hp⟩ := hsilt4
  have hst : m.get (shp .slt) SLT.STATE_CODE = 1 := by
    rw [hm, get_put_apart _ _ (by decide) (by decide) (by decide) (by decide) (by decide) (by decide) (by decide), get_put_same _ _ _ _ _ _ (by decide)]
    rfl
  have hclr : m.get (shp .slt) SLT.CLR_ST_STATE = 1 := by
    rw [hm, get_put_same _ _ _ _ _ _ (by decide)]
    rfl
  have hmk : d.keeps m [shp .slt] := hm ▸ keepsSlt_put d (keepsSlt_put d (keepsSlt_put d (keepsSlt_sltRing d h4) (by decide) (by decide) (by decide))
    (by decide) (by decide) (by decide)) (by decide) (by decide) (by decide)
  rw [← hm] at hdef
  rw [hdef, hb, hmsilt]
  refine ⟨keepsSlt_siltLevel d hmk, ?_, ?_, ht, hn, fun hall => ?_, r, hq, rfl, rfl⟩
  · rw [get_siltLevel m (by decide) (by decide) (by decide) (by decide), hclr]
  · rw [state_siltLevel, hst, if_neg (by simp)]
  · have hgone : gone = d2.silt.pages := if_pos hall
    rw [hp, hgone, List.drop_length]

/-- The record of a clear that is refused. -/
theorem noteBy_eq (d : Dev) (w : Who) (p cls code x : Nat) (ws : List Nat) : d.noteBy w p cls code x ws =
    d.post ⟨d.now, 0, ws.length * 4, cls, code, srcOf p, p % 256, w.mid, d.privByte w, x, ws.flatMap (leBytes 4)⟩ := rfl

/-- Posting leaves the ring's pages, and what a clear needs. -/
theorem silt_post (d : Dev) (r : Rec) : (d.post r).silt.pages = d.silt.pages ∧ (d.post r).silt.erasing = d.silt.erasing ∧
    (d.post r).silt.nonce = d.silt.nonce ∧ (d.post r).silt.token = d.silt.token := by
  cases h : d.siltTakes r
  · rw [post_lost h, lose_silt]
    split <;> exact ⟨rfl, rfl, rfl, rfl⟩
  · rw [post_taken h]
    split <;> exact ⟨rfl, rfl, rfl, rfl⟩

/-- A clear that is refused. -/
def clearRefused (d : Dev) (w : Who) (why : Nat) : Dev :=
  (((d.put (shp .slt) SLT.CLR_ST_STATE 3).put (shp .slt) SLT.CLR_ST_REASON why).err (shp .slt) why).noteBy w (shp .slt) clsSecurity why

theorem clearRefused_shows (d : Dev) (w : Who) {why : Nat} (hw : why < 256) : let e := d.clearRefused w why
    d.keeps e [shp .slt] ∧ e.get (shp .slt) SLT.CLR_ST_STATE = 3 ∧ e.get (shp .slt) SLT.CLR_ST_REASON = why ∧ e.silt.pages = d.silt.pages := by
  intro e
  refine ⟨keepsSlt_post d (keepsSlt_err d (keepsSlt_put d (keepsSlt_put d (keeps_refl d _) (by decide) (by decide) (by decide)) (by decide) (by decide) (by decide))),
    ?_, ?_, (silt_post _ _).1⟩
  · simp (disch := decide) only [e, clearRefused, noteBy_eq, get_post_apart, err, bump, get_put_apart, get_put_same]
    decide
  · simp (disch := decide) only [e, clearRefused, noteBy_eq, get_post_apart, err, bump, get_put_apart, get_put_same]
    exact Nat.mod_eq_of_lt hw

/-- The arguments of a clear as they stand when it starts. -/
def clearArgs (d : Dev) (scope : Bool) (seq : Word) : Dev := (d.putb (shp .slt) SLT.CLR_SCOPE_SCOPE scope).put (shp .slt) SLT.CLR_SEQ_SEQ seq.toNat

theorem clearArgs_shows (d : Dev) (scope : Bool) (seq : Word) : let e := d.clearArgs scope seq
    d.keeps e [shp .slt] ∧ e.silt = d.silt ∧ e.get (shp .slt) SLT.CLR_SCOPE_SCOPE = scope.toNat ∧ e.get (shp .slt) SLT.CLR_SEQ_SEQ = seq.toNat ∧
      e.get (shp .slt) SLT.STATE_CODE = d.get (shp .slt) SLT.STATE_CODE := by
  intro e
  refine ⟨keepsSlt_put d (keepsSlt_put d (keeps_refl d _) (by decide) (by decide) (by decide)) (by decide) (by decide) (by decide), rfl, ?_,
    get_put_bv _ _ _ seq 0 0 rfl (by decide), ?_⟩
  · simp (disch := decide) only [e, clearArgs, putb, get_put_apart, get_put_same]
    cases scope <;> rfl
  · simp (disch := decide) only [e, clearArgs, putb, get_put_apart]

/-- A clear while one erases. -/
theorem sltClear_busy (d : Dev) (w : Who) (h : d.get (shp .slt) SLT.STATE_CODE = 1) :
    d.sltClear w = (d.err (shp .slt) cSLT_CLEARING).noteBy w (shp .slt) clsSecurity cSLT_CLEARING := by
  rw [sltClear]
  exact if_pos h

/-- A clear without a token. -/
theorem sltClear_unsigned (d : Dev) (w : Who) (h : d.get (shp .slt) SLT.STATE_CODE ≠ 1) (ht : d.silt.token = none) :
    d.sltClear w = d.clearRefused w cSIGNATURE := by
  rw [sltClear, ht]
  exact if_neg h

/-- A clear with a token, from what it names. -/
theorem sltClear_signed (d : Dev) (w : Who) {sc sq serial : Nat} {key : BitVec 128} (h : d.get (shp .slt) SLT.STATE_CODE ≠ 1)
    (ht : d.silt.token = some (sc, sq, key, serial)) : d.sltClear w =
      if d.silt.nonce.isNone || sc != d.get (shp .slt) SLT.CLR_SCOPE_SCOPE || sq != d.get (shp .slt) SLT.CLR_SEQ_SEQ then d.clearRefused w cSLT_NONCE
      else
        let e := (d.modSilt (fun s => { s with token := none })).sltNonceEnd
        (e.put (shp .slt) SLT.CLR_ST_REASON 0).siltErase (sc == 0) sq key serial w.mid (e.privByte w) := by
  rw [sltClear, ht]
  exact if_neg h

/-- A clear that starts, from the part without its token and nonce. -/
theorem sltClear_starts (d : Dev) {all : Bool} {bound serial mid priv : Nat} {key : BitVec 128} :
    let e := (((d.modSilt (fun s => { s with token := none })).sltNonceEnd).put (shp .slt) SLT.CLR_ST_REASON 0).siltErase all bound key serial mid priv
    d.keeps e [shp .slt] ∧ e.get (shp .slt) SLT.CLR_ST_STATE = 1 ∧ e.get (shp .slt) SLT.STATE_CODE = 1 ∧ e.silt.token = none ∧ e.silt.nonce = none ∧
      (all = true → e.silt.pages = []) ∧ ∃ r q, e.silt.qProt = r :: q ∧ q = d.silt.qProt ∧ r.cls = clsSilt ∧ r.code = 1 := by
  intro e
  obtain ⟨nk, ns, -⟩ := sltNonceEnd_shows (d.modSilt (fun s => { s with token := none }))
  obtain ⟨k, h1, h2, h3, h4, h5, r, h6, h7, h8⟩ := siltErase_shows
    (((d.modSilt (fun s => { s with token := none })).sltNonceEnd).put (shp .slt) SLT.CLR_ST_REASON 0) all bound key serial mid priv
  rw [silt_put, ns] at h3 h4 h6
  exact ⟨keeps_trans (keepsSlt_put d (keeps_trans (keepsSlt_modSilt d (keeps_refl d _)) nk) (by decide) (by decide) (by decide)) k, h1, h2, h3, h4, h5,
    r, _, h6, rfl, h7, h8⟩

theorem keepsSlt_sltClear (d : Dev) (w : Who) : d.keeps (d.sltClear w) [shp .slt] := by
  by_cases h1 : d.get (shp .slt) SLT.STATE_CODE = 1
  · rw [sltClear_busy d w h1]
    exact keepsSlt_post d (keepsSlt_err d (keeps_refl d _))
  · cases ht : d.silt.token with
    | none =>
      rw [sltClear_unsigned d w h1 ht]
      exact (clearRefused_shows d w (by decide)).1
    | some x =>
      obtain ⟨sc, sq, key, serial⟩ := x
      rw [sltClear_signed d w h1 ht]
      split
      · exact (clearRefused_shows d w (by decide)).1
      · exact (sltClear_starts d).1

/-- What the end of an erasure shows. -/
theorem sltClearDone_shows (d : Dev) (h : d.get (shp .slt) SLT.STATE_CODE = 1) : let e := d.sltClearDone
    d.keeps e [shp .slt] ∧ e.silt.erasing = [] ∧
      e.get (shp .slt) SLT.STATE_CODE = (if d.on (shp .slt) SLT.CFG_FULL_MODE = true ∧ d.siltFree ≤ 64 then 2 else 0) ∧
      e.get (shp .slt) SLT.CLR_ST_STATE = 2 := by
  intro e
  obtain ⟨m, hm⟩ : ∃ m, m = (((d.modSilt (fun s => { s with erasing := [] })).put (shp .slt) SLT.STATE_CODE 0).put (shp .slt) SLT.CLR_ST_STATE 2).stat (shp .slt) 4 :=
    ⟨_, rfl⟩
  have he : e = m.siltLevel := by
    rw [hm]
    exact if_neg (not_not.mpr h)
  have hget {f : Fld} (h1 : SLT.STATE_CODE.apart f = true) (h2 : SLT.CLR_ST_STATE.apart f = true) (h3 : HDR.STAT_BLOCK.apart f = true) (hf : f.fits = true)
      (hi : 0 < f.cnt) : m.get (shp .slt) f = d.get (shp .slt) f := by
    rw [hm, get_stat_apart _ (h := h3) (hf := hf) (hi := hi) (ht := by decide), get_put_apart _ _ h2 (by decide) hf (by decide) hi (by decide) (by decide),
      get_put_apart _ _ h1 (by decide) hf (by decide) hi (by decide) (by decide), get_modSilt]
  have hst : m.get (shp .slt) SLT.STATE_CODE = 0 := by
    simp (disch := decide) only [hm, get_stat_apart, get_put_apart, get_put_same]
    decide
  have hclr : m.get (shp .slt) SLT.CLR_ST_STATE = 2 := by
    simp (disch := decide) only [hm, get_stat_apart, get_put_same]
    decide
  have hmk : d.keeps m [shp .slt] := hm ▸ keepsSlt_stat d (keepsSlt_put d (keepsSlt_put d (keepsSlt_modSilt d (keeps_refl d _)) (by decide) (by decide) (by decide))
    (by decide) (by decide) (by decide))
  have hfull : m.levelFull = (d.on (shp .slt) SLT.CFG_FULL_MODE && decide (d.siltFree ≤ 64)) := by
    have hfree : m.siltFree = d.siltFree := by
      rw [siltFree, siltFree, hget (by decide) (by decide) (by decide) (by decide) (by decide), hm]
      rfl
    rw [levelFull, hst, hfree, on, hget (by decide) (by decide) (by decide) (by decide) (by decide), ← on]
    rcases Nat.eq_zero_or_pos d.siltFree with h0 | h0
    · simp [h0]
    · simp [show (d.siltFree == 0) = false from beq_false_of_ne (by omega)]
  obtain ⟨b, hb⟩ := silt_siltLevel m
  rw [he]
  refine ⟨keepsSlt_siltLevel d hmk, by rw [hb, hm]; rfl, ?_, ?_⟩
  · rw [state_siltLevel, hst, hfull]
    simp
  · rw [get_siltLevel m (by decide) (by decide) (by decide) (by decide), hclr]

end Dev

/-! ### The obligation -/

section
variable (s : State)

theorem cursors_of_shaped {d : Dev} (h : d.shaped = true) : d.silt.cursors.length = 4 ∧ d.silt.exps.length = 4 := by
  simp only [Dev.shaped, Bool.and_eq_true, beq_iff_eq] at h
  simp [h]

/-- A cursor that looks for a record. -/
theorem sltFound_exec (hout : s.out = true) (hshape : s.dev.shaped = true) (g : Fin 4) (i : Instr) (e : Option Entry) (q : Word)
    (hi : i = .sltCurOldest g ∧ e = s.dev.entries.find? (fun e => !e.ecc) ∨ i = .sltCurNewest g ∧ e = s.dev.entries.getLast? ∨
      i = .sltCurSeq g q ∧ e = s.dev.entries.find? (fun e => e.seq == q.toNat)) :
    ∃ t, exec i s = .next t ∧ t.pending = s.pending ∧ s.dev.keeps t.dev [shp .slt] ∧ Dev.cursorShows t.dev g e := by
  have hl := (cursors_of_shaped hshape).1
  have hfound := Dev.sltFound_shows s.dev g.isLt hl
  rcases hi with ⟨rfl, rfl⟩ | ⟨rfl, rfl⟩ | ⟨rfl, rfl⟩
  · exact ⟨_, next_of_out hout rfl, rfl, (hfound _).2, (hfound _).1⟩
  · exact ⟨_, next_of_out hout rfl, rfl, (hfound _).2, (hfound _).1⟩
  · obtain ⟨h3, h4⟩ := Dev.sltFound_shows (s.dev.put (shp .slt) SLT.CUR_ARG_SEQ q.toNat 0 g) g.isLt hl _
    have hk := Dev.keepsSlt_put s.dev (Dev.keeps_refl s.dev _) (f := SLT.CUR_ARG_SEQ) (v := q.toNat) (t := g) (by decide) (i := 0) (by decide) (by omega)
    exact ⟨_, next_of_out hout rfl, rfl, Dev.keeps_trans hk h4, h3⟩

/-- A cursor that moves. -/
theorem sltStep_exec (hout : s.out = true) (hshape : s.dev.shaped = true) (g : Fin 4) (i : Instr) (es : List Entry)
    (hi : i = .sltCurNext g ∧ es = s.dev.entries ∨ i = .sltCurPrev g ∧ es = s.dev.entries.reverse) :
    ∃ t, exec i s = .next t ∧ t.pending = s.pending ∧ s.dev.keeps t.dev [shp .slt] ∧
      ((s.dev.silt.cursors.getD g ⟨none, []⟩).seq = none → t.dev.get (shp .slt) SLT.CUR_ST_STATE 0 g = 0) ∧
      (∀ q, (s.dev.silt.cursors.getD g ⟨none, []⟩).seq = some q →
        (es.findIdx? (fun e => e.seq == q) = none → t.dev.get (shp .slt) SLT.CUR_ST_STATE 0 g = 2 ∧ t.dev.get (shp .slt) HDR.ERR_CODE = cSLT_GONE) ∧
        (∀ k e, es.findIdx? (fun e => e.seq == q) = some k → es[k]? = some e → e.ecc = false → Dev.cursorShows t.dev g es[k + 1]?)) := by
  have hl := (cursors_of_shaped hshape).1
  have hexec : exec i s = .next { s with dev := s.dev.sltStep g es } := by
    rcases hi with ⟨rfl, rfl⟩ | ⟨rfl, rfl⟩ <;> exact next_of_out hout rfl
  exact ⟨_, hexec, rfl, Dev.keepsSlt_sltStep s.dev g.isLt hl es, Dev.sltStep_none s.dev es, fun q hq =>
    ⟨Dev.sltStep_gone s.dev g.isLt hq, fun k e hf hk he => Dev.sltStep_next s.dev g.isLt hl hq hf hk he⟩⟩

theorem sltExport_exec (hout : s.out = true) (hshape : s.dev.shaped = true) (g : Fin 4) (addr : Word) (q : BitVec 64) (n : BitVec 7) (ha : addr.toNat % 4096 = 0)
    (hn : n.toNat ≤ 64) (hx : s.dev.silt.exps.getD g none = none) :
    ∃ t, exec (.sltExport g addr q n) s = .next t ∧ t.pending = s.pending ∧ s.dev.keeps t.dev [shp .slt] ∧ t.dev.get (shp .slt) SLT.EXP_ST_STATE 0 g = 1 ∧
      t.dev.silt.exps.getD g none = some (addr.toNat, q.toNat, n.toNat) := by
  have ht : g.val < 65536 := by omega
  obtain ⟨e, he⟩ : ∃ e, e = ((s.dev.put (shp .slt) SLT.EXP_ADDR_ADDR addr.toNat 0 g).put (shp .slt) SLT.EXP_N_N n.toNat 0 g).put64 (shp .slt) SLT.EXP_PSEQ_LO
    SLT.EXP_PSEQ_HI q.toNat 0 g := ⟨_, rfl⟩
  have haddr : e.get (shp .slt) SLT.EXP_ADDR_ADDR 0 g = addr.toNat := by
    simp (disch := first | decide | assumption) only [he, Dev.put64, Dev.get_put_apart]
    exact Dev.get_put_bv _ _ _ addr 0 g rfl (by decide)
  have hnum : e.get (shp .slt) SLT.EXP_N_N 0 g = n.toNat := by
    simp (disch := first | decide | assumption) only [he, Dev.put64, Dev.get_put_apart]
    exact Dev.get_put_bv _ _ _ n 0 g rfl (by decide)
  have hput {x : Dev} {f : Fld} {v : Nat} (hf : f.fits = true) (hi : 0 < f.cnt) (hx : s.dev.keeps x [shp .slt]) :
      s.dev.keeps (x.put (shp .slt) f v 0 g) [shp .slt] := Dev.keepsSlt_put s.dev hx hf hi ht
  have hk : s.dev.keeps e [shp .slt] := he ▸ hput (by decide) (by decide) (hput (by decide) (by decide) (hput (by decide) (by decide) (hput (by decide) (by decide)
    (Dev.keeps_refl s.dev _))))
  have hsilt : e.silt = s.dev.silt := by rw [he]; rfl
  have hexec : exec (.sltExport g addr q n) s = .next { s with dev :=
      (e.modSilt (fun s => { s with exps := lset s.exps g (some (addr.toNat, q.toNat, n.toNat)) })).put (shp .slt) SLT.EXP_ST_STATE 1 0 g } := by
    refine next_of_out_eq hout rfl ?_
    simp only [ha, hn, if_true]
    rw [← he, haddr, hnum, Dev.sltExport]
    exact if_neg (by rw [hsilt, hx]; simp)
  refine ⟨_, hexec, rfl, hput (by decide) (by decide) (Dev.keepsSlt_modSilt s.dev hk), Dev.get_put_same _ _ _ _ _ _ (by decide), ?_⟩
  have hl := (cursors_of_shaped hshape).2
  rw [State.dev_mk, Dev.silt_put, Dev.silt_modSilt, getD_lset_same _ _ (by rw [hsilt]; omega)]

theorem sltExportDone_exec (hout : s.out = true) (hshape : s.dev.shaped = true) (g : Fin 4) (addr q n : Nat) (hx : s.dev.silt.exps.getD g none = some (addr, q, n))
    (hst : s.dev.get (shp .slt) SLT.EXP_ST_STATE 0 g = 1)
    (hall : ∀ i < n, ∃ pg, s.dev.silt.pages.find? (fun x => x.pseq == q + i) = some pg ∧ pg.ecc = false ∧ pg.bytes.length = 4096) :
    ∃ t, exec (.sltExportDone g) s = .next t ∧ t.pending = s.pending ∧ t.dev.get (shp .slt) SLT.EXP_ST_STATE 0 g = 2 ∧ t.dev.silt.exps.getD g none = none ∧
      t.dev.mram = s.dev.mram ∧ (t.dev.half (s.dev.grpHalf g).other).sram = (s.dev.half (s.dev.grpHalf g).other).sram ∧
      (∀ a, a < addr ∨ addr + 4096 * n ≤ a → memRead (t.dev.half (s.dev.grpHalf g)).sram a = memRead (s.dev.half (s.dev.grpHalf g)).sram a) ∧
      (∀ i < n, ∀ pg, s.dev.silt.pages.find? (fun x => x.pseq == q + i) = some pg → ∀ j < 4096,
        memRead (t.dev.half (s.dev.grpHalf g)).sram (addr + 4096 * i + j) = (if 0x08000000 ≤ addr + 4096 * i ∧ addr + 4096 * i + 4096 ≤ 0x08800000 then
          pg.bytes.getD j 0 else memRead (s.dev.half (s.dev.grpHalf g)).sram (addr + 4096 * i + j))) ∧
      ∀ k, keyPage k ≠ shp .slt → rfFind k t.dev.regs = rfFind k s.dev.regs := by
  obtain ⟨x, hxd⟩ : ∃ x, x = (List.range n).foldl (Dev.exportStep (s.dev.grpHalf g) addr q g) (s.dev.exported g) := ⟨_, rfl⟩
  have hexp : Dev.Exported (s.dev.exported g) x (s.dev.grpHalf g) addr q n := hxd ▸ Dev.exported_fold (s.dev.exported g) (s.dev.grpHalf g) addr q g n hall
  have hstx : x.get (shp .slt) SLT.EXP_ST_STATE 0 g = 1 := by
    rw [Dev.get, hexp.regs]
    exact hst
  have hdone : s.dev.sltExportDone g = x.put (shp .slt) SLT.EXP_ST_STATE 2 0 g := by
    rw [Dev.sltExportDone_eq s.dev hx, ← hxd]
    exact if_pos hstx
  have hhalf (h : HalfId) : (s.dev.exported g).half h = s.dev.half h := by cases h <;> rfl
  have hl := (cursors_of_shaped hshape).2
  refine ⟨_, next_of_out_eq hout rfl hdone, rfl, Dev.get_put_same _ _ _ _ _ _ (by decide), ?_, hexp.mram, ?_, fun a ha => ?_, fun i hi pg hpg j hj => ?_, fun k hk => ?_⟩
  · rw [State.dev_mk, Dev.silt_put, hexp.silt]
    exact getD_lset_same _ _ (by omega)
  · rw [State.dev_mk, Dev.half_put, hexp.other, hhalf]
  · rw [State.dev_mk, Dev.half_put, hexp.outside a ha, hhalf]
  · rw [State.dev_mk, Dev.half_put, hexp.inside i hi pg hpg j hj, hhalf]
  · have hput := Dev.keepsSlt_put x (Dev.keeps_refl x _) (f := SLT.EXP_ST_STATE) (v := 2) (i := 0) (t := g) (by decide) (by decide) (by omega)
    exact (hput.2 k (by simpa using hk)).trans (by rw [hexp.regs]; rfl)

/-- A verification starts while none runs. -/
theorem sltVerify_shows (d : Dev) (q : BitVec 64) (n : Word) :
    let e := ((d.put64 (shp .slt) SLT.VFY_PSEQ_LO SLT.VFY_PSEQ_HI q.toNat).put (shp .slt) SLT.VFY_N_N n.toNat).sltVerify q.toNat n.toNat
    d.keeps e [shp .slt] ∧ (if d.silt.vfy.isSome then e.silt = d.silt
      else e.silt.vfy = some (q.toNat, n.toNat) ∧ e.get (shp .slt) SLT.VFY_ST_STATE = 1 ∧ e.get (shp .slt) SLT.STATE_VFY = 1) := by
  intro e
  obtain ⟨m, hm⟩ : ∃ m, m = (d.put64 (shp .slt) SLT.VFY_PSEQ_LO SLT.VFY_PSEQ_HI q.toNat).put (shp .slt) SLT.VFY_N_N n.toNat := ⟨_, rfl⟩
  have hput {x : Dev} {f : Fld} {v : Nat} (hf : f.fits = true) (hi : 0 < f.cnt) (hx : d.keeps x [shp .slt]) : d.keeps (x.put (shp .slt) f v) [shp .slt] :=
    Dev.keepsSlt_put d hx hf hi (by decide)
  have hk : d.keeps m [shp .slt] := hm ▸ hput (by decide) (by decide) (hput (by decide) (by decide) (hput (by decide) (by decide) (Dev.keeps_refl d _)))
  have hsilt : m.silt = d.silt := by rw [hm]; rfl
  have he : e = if m.silt.vfy.isSome then m
      else ((m.modSilt (fun s => { s with vfy := some (q.toNat, n.toNat) })).put (shp .slt) SLT.VFY_ST_STATE 1).put (shp .slt) SLT.STATE_VFY 1 := by
    rw [hm]
    rfl
  rw [he, hsilt]
  split
  · exact ⟨hk, hsilt⟩
  · refine ⟨hput (by decide) (by decide) (hput (by decide) (by decide) (Dev.keepsSlt_modSilt d hk)), rfl, ?_, Dev.get_put_same _ _ _ _ _ _ (by decide)⟩
    simp (disch := decide) only [Dev.get_put_apart, Dev.get_put_same]
    decide

/-- A clear erases with its nonce and its token, and is refused otherwise. -/
theorem sltClear_exec (hout : s.out = true) (mid : BitVec 8) (mach scope : Bool) (seq : Word) :
    ∃ t, exec (.sltClear mid mach scope seq) s = .next t ∧ t.pending = s.pending ∧ s.dev.keeps t.dev [shp .slt] ∧
      (s.dev.get (shp .slt) SLT.STATE_CODE = 1 →
        let r : Rec := ⟨s.dev.now, 0, 0, clsSecurity, cSLT_CLEARING, srcOf (shp .slt), shp .slt % 256, mid.toNat, s.dev.privByte ⟨mid.toNat, mach⟩, 0, []⟩
        t.dev.silt.pages = s.dev.silt.pages ∧ t.dev.silt.erasing = s.dev.silt.erasing ∧ t.dev.silt.nonce = s.dev.silt.nonce ∧ t.dev.silt.token = s.dev.silt.token ∧
        t.dev.get (shp .slt) SLT.STATE_CODE = 1 ∧
        (s.dev.siltTakes r = true → t.dev.get (shp .slt) HDR.ERR_CODE = cSLT_CLEARING ∧ t.dev.silt = { s.dev.silt with qProt := s.dev.silt.qProt ++ [r] })) ∧
      (s.dev.get (shp .slt) SLT.STATE_CODE ≠ 1 → s.dev.silt.token = none →
        t.dev.get (shp .slt) SLT.CLR_ST_STATE = 3 ∧ t.dev.get (shp .slt) SLT.CLR_ST_REASON = cSIGNATURE ∧ t.dev.silt.pages = s.dev.silt.pages) ∧
      (∀ sc sq key serial, s.dev.get (shp .slt) SLT.STATE_CODE ≠ 1 → s.dev.silt.token = some (sc, sq, key, serial) →
        (s.dev.silt.nonce = none ∨ sc ≠ scope.toNat ∨ sq ≠ seq.toNat →
          t.dev.get (shp .slt) SLT.CLR_ST_STATE = 3 ∧ t.dev.get (shp .slt) SLT.CLR_ST_REASON = cSLT_NONCE ∧ t.dev.silt.pages = s.dev.silt.pages) ∧
        (s.dev.silt.nonce.isSome = true → sc = scope.toNat → sq = seq.toNat →
          t.dev.get (shp .slt) SLT.CLR_ST_STATE = 1 ∧ t.dev.get (shp .slt) SLT.STATE_CODE = 1 ∧ t.dev.silt.token = none ∧ t.dev.silt.nonce = none ∧
            (sc = 0 → t.dev.silt.pages = []) ∧ ∃ r q, t.dev.silt.qProt = r :: q ∧ q = s.dev.silt.qProt ∧ r.cls = clsSilt ∧ r.code = 1)) := by
  obtain ⟨w, hw⟩ : ∃ w : Who, w = ⟨mid.toNat, mach⟩ := ⟨_, rfl⟩
  obtain ⟨e, he⟩ : ∃ e, e = s.dev.clearArgs scope seq := ⟨_, rfl⟩
  obtain ⟨hk, hsilt, hscope, hseq, hstate⟩ := Dev.clearArgs_shows s.dev scope seq
  rw [← he] at hk hsilt hscope hseq hstate
  have hexec : exec (.sltClear mid mach scope seq) s = .next { s with dev := e.sltClear w } := by
    rw [he, hw]
    exact next_of_out hout rfl
  refine ⟨_, hexec, rfl, Dev.keeps_trans hk (Dev.keepsSlt_sltClear e w), fun h1 => ?_, fun h1 ht => ?_, fun sc sq key serial h1 ht => ⟨fun hno => ?_, fun hn hsc hsq => ?_⟩⟩
  · intro r
    have hr : e.sltClear w = (e.err (shp .slt) cSLT_CLEARING).post r := by
      have hke : s.dev.keeps (e.err (shp .slt) cSLT_CLEARING) [shp .slt] := Dev.keepsSlt_err s.dev hk
      rw [Dev.sltClear_busy e w (hstate.trans h1), Dev.noteBy_eq, Dev.now_of_keepsSlt hke, Dev.privByte_of_keeps hke (by decide) (by decide), hw]
      rfl
    obtain ⟨p1, p2, p3, p4⟩ := Dev.silt_post (e.err (shp .slt) cSLT_CLEARING) r
    rw [Dev.silt_err, hsilt] at p1 p2 p3 p4
    rw [State.dev_mk, hr]
    refine ⟨p1, p2, p3, p4, ?_, fun htakes => ?_⟩
    · simp (disch := decide) only [Dev.get_post_apart, Dev.err, Dev.bump, Dev.get_put_apart]
      exact hstate.trans h1
    · have htk : (e.err (shp .slt) cSLT_CLEARING).siltTakes r = true := by
        refine (Dev.siltTakes_congr (d := s.dev) r ?_ ?_ ?_ ?_ ?_).trans htakes
        · simp (disch := decide) only [he, Dev.clearArgs, Dev.putb, Dev.err, Dev.bump, Dev.get_put_apart]
        · simp (disch := decide) only [he, Dev.clearArgs, Dev.putb, Dev.err, Dev.bump, Dev.get_put_apart]
        · rw [Dev.silt_err, hsilt]
        · rw [Dev.silt_err, hsilt]
        · rw [Dev.silt_err, hsilt]
      constructor
      · rw [Dev.post, if_pos htk]
        simp (disch := decide) only [Dev.get_with_silt, Dev.err, Dev.bump, Dev.get_put_apart, Dev.get_put_same]
        decide
      · rw [Dev.post_taken htk, Dev.silt_err, hsilt]
        rfl
  · obtain ⟨-, c1, c2, c3⟩ := Dev.clearRefused_shows e w (why := cSIGNATURE) (by decide)
    rw [State.dev_mk, Dev.sltClear_unsigned e w (by rwa [hstate]) (by rwa [hsilt])]
    exact ⟨c1, c2, by rw [c3, hsilt]⟩
  · obtain ⟨-, c1, c2, c3⟩ := Dev.clearRefused_shows e w (why := cSLT_NONCE) (by decide)
    rw [State.dev_mk, Dev.sltClear_signed e w (by rwa [hstate]) (by rwa [hsilt]), if_pos]
    · exact ⟨c1, c2, by rw [c3, hsilt]⟩
    · rw [hsilt, hscope, hseq]
      rcases hno with h | h | h <;> simp [h]
  · obtain ⟨-, c1, c2, c3, c4, c5, r, q, c6, c7, c8, c9⟩ := Dev.sltClear_starts e (all := sc == 0) (bound := sq) (serial := serial) (mid := w.mid)
      (priv := ((e.modSilt (fun s => { s with token := none })).sltNonceEnd).privByte w) (key := key)
    rw [State.dev_mk, Dev.sltClear_signed e w (by rwa [hstate]) (by rwa [hsilt]), if_neg]
    · exact ⟨c1, c2, c3, c4, fun h => c5 (by simp [h]), r, q, c6, c7.trans (by rw [hsilt]), c8, c9⟩
    · rw [hsilt, hscope, hseq]
      simp [hsc, hsq, Option.isSome_iff_ne_none.mp hn]

/-- Settles O54: cursors, exports, verification, nonces and clears, each from what it shows. -/
theorem siltReadsAndClears : Obligations.SiltReadsAndClears := by
  unfold Obligations.SiltReadsAndClears
  intro s hout hshape p fine
  refine ⟨fun g i e q hi => sltFound_exec s hout hshape g i e q hi, fun g i es hi => sltStep_exec s hout hshape g i es hi, fun g => ?_,
    fun g addr q n ha hn hx => sltExport_exec s hout hshape g addr q n ha hn hx, fun g hx => next_of_out_eq hout rfl (Dev.sltExportDone_none s.dev hx),
    fun g addr q n hx hst hall => sltExportDone_exec s hout hshape g addr q n hx hst hall, fun q n => ?_,
    fun h => next_of_out_eq hout rfl (Dev.sltVerifyDone_none s.dev h), fun a n h => ?_, ?_, ?_, fun mid mach scope seq => sltClear_exec s hout mid mach scope seq,
    fun h => next_of_out_eq hout rfl (if_pos h), fun h => ?_⟩
  · obtain ⟨h1, h2, h3⟩ := Dev.sltRdData_shows s.dev g.isLt
    exact ⟨_, next_of_out hout rfl, rfl, h3, h1, h2⟩
  · obtain ⟨h1, h2⟩ := sltVerify_shows s.dev q n
    exact ⟨_, next_of_out hout rfl, rfl, h1, h2⟩
  · obtain ⟨h1, h2, h3, h4⟩ := Dev.sltVerifyDone_shows s.dev h
    exact ⟨_, next_of_out hout rfl, rfl, h1, h2, h3, h4⟩
  · obtain ⟨h1, h2, h3⟩ := Dev.sltNonce_shows s.dev
    exact ⟨_, next_of_out hout rfl, rfl, h1, h2, h3⟩
  · obtain ⟨h1, h2, h3⟩ := Dev.sltNonceEnd_shows s.dev
    exact ⟨_, next_of_out hout rfl, rfl, h1, by rw [State.dev_mk, h2], h3⟩
  · obtain ⟨h1, h2, h3, h4⟩ := Dev.sltClearDone_shows s.dev h
    exact ⟨_, next_of_out hout rfl, rfl, h1, h2, h3, h4⟩

end

end Sys2Proof.Machine
end

section
/-! PROOFS. The CAN controllers: requests that end, the state of a controller, and what each leaves. -/
namespace Sys2Proof.Machine

open Sys2Proof

namespace Dev

/-- The registers of transmit requests, as a request that ends writes them. -/
def canTxFields : List Fld :=
  [CAN.TX_PEND_BITS, CAN.TXB_ST_RESULT, CAN.TXB_ST_LEC, CAN.TXB_ST_WHY, CAN.TXB_TS_LO, CAN.TXB_TS_HI, CAN.TX_DONE_BITS, CAN.TX_FAIL_BITS, HDR.STAT_BLOCK]

/-- What a controller keeps beside the buffer its window waits for. -/
def besideArm (x : CanCh) : CanCh := { x with arm := none }

theorem pgCan_ne_slt {c : Nat} (hc : c < 4) : pgCan c ≠ shp .slt := by
  interval_cases c <;> decide

theorem canCh_modCan (d : Dev) {c : Nat} (hc : c < d.can.length) (g : CanCh → CanCh) : (d.modCan c g).canCh c = g (d.canCh c) := by
  rw [canCh, modCan, getD_lmod_same _ _ hc, canCh]

theorem canCh_congr {d e : Dev} (h : e.can = d.can) (c : Nat) : e.canCh c = d.canCh c := by rw [canCh, canCh, h]

@[simp] theorem can_put (d : Dev) (p : Nat) (f : Fld) (v i t : Nat) : (d.put p f v i t).can = d.can := rfl
@[simp] theorem can_stat (d : Dev) (p k : Nat) : (d.stat p k).can = d.can := rfl
@[simp] theorem can_err (d : Dev) (p c x : Nat) : (d.err p c x).can = d.can := rfl
@[simp] theorem can_note (d : Dev) (p cls code x : Nat) (ws : List Nat) : (d.note p cls code x ws).can = d.can := post_can ..

/-! ### A request ends -/

section
variable (d : Dev) (c : Nat) {b : Nat} (result lec why : Nat) (hb : b < 128)

theorem can_canEnd : (d.canEnd c b result lec why).can = lmod d.can c (fun x => { x with arm := x.arm.filter (fun a => a != b) }) := by
  unfold canEnd
  dsimp only
  split <;> rfl

theorem besideArm_canEnd : besideArm ((d.canEnd c b result lec why).canCh c) = besideArm (d.canCh c) := by
  rw [canCh, can_canEnd, getD_lmod, canCh]
  split <;> rfl

theorem length_canEnd : (d.canEnd c b result lec why).can.length = d.can.length := by rw [can_canEnd, length_lmod]

include hb

theorem get_canEnd {q : Nat} {f : Fld} {i t : Nat} (ha : ∀ g ∈ canTxFields, g.apart f = true) (hf : f.fits = true) (hi : i < f.cnt) (ht : t < 65536) :
    (d.canEnd c b result lec why).get q f i t = d.get q f i t := by
  have hq : b / 32 < 4 := by omega
  have hb' : b < 65536 := by omega
  have hput (d : Dev) (g : Fld) (v j u : Nat) (hg : g ∈ canTxFields) (hgf : g.fits = true) (hj : j < g.cnt) (hu : u < 65536) :
      (d.put (pgCan c) g v j u).get q f i t = d.get q f i t := get_put_field d v (ha g hg) hgf hf hj hi hu ht
  have h1 : b / 32 < CAN.TX_PEND_BITS.cnt := hq
  have h2 : b / 32 < CAN.TX_DONE_BITS.cnt := hq
  have h3 : b / 32 < CAN.TX_FAIL_BITS.cnt := hq
  unfold canEnd
  dsimp only
  split <;> simp (disch := first | decide | assumption) only [stat, orBits, put64, putBit, get_modCan, hput]

/-- What the buffer of a request that has ended shows. -/
theorem canEnd_shows : let e := d.canEnd c b result lec why
    e.canPend c b = false ∧ e.get (pgCan c) CAN.TXB_ST_RESULT 0 b = result % 16 ∧ e.get (pgCan c) CAN.TXB_ST_LEC 0 b = lec % 8 ∧
      e.get (pgCan c) CAN.TXB_ST_WHY 0 b = why % 16 ∧ bitN (e.get (pgCan c) CAN.TX_DONE_BITS (b / 32)) (b % 32) = 1 ∧
      (result ≠ 2 → bitN (e.get (pgCan c) CAN.TX_FAIL_BITS (b / 32)) (b % 32) = 1) := by
  intro e
  have hq : b / 32 < 4 := by omega
  have hb' : b < 65536 := by omega
  have h1 : b / 32 < CAN.TX_PEND_BITS.cnt := hq
  have h2 : b / 32 < CAN.TX_DONE_BITS.cnt := hq
  have h3 : b / 32 < CAN.TX_FAIL_BITS.cnt := hq
  have hm : b % 32 < 32 := Nat.mod_lt _ (by decide)
  obtain ⟨m, hmd⟩ : ∃ m, m = ((((d.putBit (pgCan c) CAN.TX_PEND_BITS (b % 32) false (b / 32)).modCan c (fun x => { x with arm := x.arm.filter (fun a => a != b) })).put
    (pgCan c) CAN.TXB_ST_RESULT result 0 b).put (pgCan c) CAN.TXB_ST_LEC lec 0 b).put (pgCan c) CAN.TXB_ST_WHY why 0 b := ⟨_, rfl⟩
  obtain ⟨w, hw⟩ : ∃ w, w = (m.put64 (pgCan c) CAN.TXB_TS_LO CAN.TXB_TS_HI m.now 0 b).orBits (pgCan c) CAN.TX_DONE_BITS (2 ^ (b % 32)) (b / 32) := ⟨_, rfl⟩
  have he : e = if result = 2 then w else (w.orBits (pgCan c) CAN.TX_FAIL_BITS (2 ^ (b % 32)) (b / 32)).stat (pgCan c) 1 := by
    rw [hw, hmd]
    rfl
  have hget {f : Fld} {i t : Nat} (ha1 : CAN.TX_FAIL_BITS.apart f = true) (ha2 : HDR.STAT_BLOCK.apart f = true) (hf : f.fits = true) (hi : i < f.cnt) (ht : t < 65536) :
      e.get (pgCan c) f i t = w.get (pgCan c) f i t := by
    rw [he]
    split
    · rfl
    · simp (disch := first | decide | assumption) only [stat, orBits, get_put_apart]
  refine ⟨?_, ?_, ?_, ?_, ?_, fun hr => ?_⟩
  · rw [canPend, hget (by decide) (by decide) (by decide) h1 (by decide)]
    simp (disch := first | decide | assumption) only [hw, hmd, orBits, put64, putBit, get_modCan, get_put_apart, get_put_same]
    rw [bitN_eq_testBit, Nat.testBit_mod_two_pow, testBit_setBitN]
    simp
  · rw [hget (by decide) (by decide) (by decide) (by decide) hb']
    simp (disch := first | decide | assumption) only [hw, hmd, orBits, put64, get_put_apart, get_put_same]
    rfl
  · rw [hget (by decide) (by decide) (by decide) (by decide) hb']
    simp (disch := first | decide | assumption) only [hw, hmd, orBits, put64, get_put_apart, get_put_same]
    rfl
  · rw [hget (by decide) (by decide) (by decide) (by decide) hb']
    simp (disch := first | decide | assumption) only [hw, hmd, orBits, put64, get_put_apart, get_put_same]
    rfl
  · rw [hget (by decide) (by decide) (by decide) h2 (by decide), hw]
    exact bitN_orBits _ _ _ _ _ hm (by decide)
  · rw [he, if_neg hr, get_stat_apart (h := by decide) (hf := by decide) (hi := h3) (ht := by decide)]
    exact bitN_orBits _ _ _ _ _ hm (by decide)

/-- A request that ends leaves the other buffers. -/
theorem canEnd_other {a : Nat} (ha : a < 128) (hab : a ≠ b) : (d.canEnd c b result lec why).canPend c a = d.canPend c a ∧
    ∀ f ∈ [CAN.TXB_ST_RESULT, CAN.TXB_ST_LEC, CAN.TXB_ST_WHY], (d.canEnd c b result lec why).get (pgCan c) f 0 a = d.get (pgCan c) f 0 a := by
  have hb' : b < 65536 := by omega
  have ha' : a < 65536 := by omega
  have h1 : b / 32 < CAN.TX_PEND_BITS.cnt := (by omega : b / 32 < 4)
  have h2 : b / 32 < CAN.TX_DONE_BITS.cnt := (by omega : b / 32 < 4)
  have h3 : b / 32 < CAN.TX_FAIL_BITS.cnt := (by omega : b / 32 < 4)
  have h4 : a / 32 < CAN.TX_PEND_BITS.cnt := (by omega : a / 32 < 4)
  constructor
  · have hget : (d.canEnd c b result lec why).get (pgCan c) CAN.TX_PEND_BITS (a / 32) =
        (d.putBit (pgCan c) CAN.TX_PEND_BITS (b % 32) false (b / 32)).get (pgCan c) CAN.TX_PEND_BITS (a / 32) := by
      unfold canEnd
      dsimp only
      split <;> simp (disch := first | decide | assumption) only [stat, orBits, put64, get_modCan, get_put_apart]
    rw [canPend, canPend, hget, putBit]
    by_cases hw : a / 32 = b / 32
    · rw [hw, get_put_same _ _ _ _ _ _ (by decide), bitN_eq_testBit, bitN_eq_testBit, Nat.testBit_mod_two_pow, testBit_setBitN,
        if_neg (by omega : ¬ a % 32 = b % 32)]
      simp [show CAN.TX_PEND_BITS.w = 32 from rfl, Nat.mod_lt a (show 0 < 32 by decide)]
    · rw [get_put_idx _ _ (by decide) (by decide) (by decide) (Ne.symm hw)]
  · intro f hf
    have hput (d : Dev) (v : Nat) (g : Fld) (hg : g ∈ [CAN.TXB_ST_RESULT, CAN.TXB_ST_LEC, CAN.TXB_ST_WHY]) :
        (d.put (pgCan c) g v 0 b).get (pgCan c) f 0 a = d.get (pgCan c) f 0 a := by
      have happ : ∀ g ∈ [CAN.TXB_ST_RESULT, CAN.TXB_ST_LEC, CAN.TXB_ST_WHY], ∀ f ∈ [CAN.TXB_ST_RESULT, CAN.TXB_ST_LEC, CAN.TXB_ST_WHY],
          g.fits = true ∧ 0 < g.cnt ∧ (g ≠ f → g.apart f = true) := by decide
      by_cases hgf : g = f
      · rw [hgf]
        exact get_put_tab _ _ hab.symm
      · obtain ⟨hgfit, hgc, hga⟩ := happ g hg f hf
        exact get_put_apart _ _ (hga hgf) hgfit (happ f hf f hf).1 hgc (happ f hf f hf).2.1 hb' ha'
    have happ (g : Fld) (hg : g ∈ [CAN.TX_PEND_BITS, CAN.TXB_TS_LO, CAN.TXB_TS_HI, CAN.TX_DONE_BITS, CAN.TX_FAIL_BITS, HDR.STAT_BLOCK]) : g.apart f = true := by
      fin_cases hf <;> fin_cases hg <;> decide
    have hf0 : f.fits = true ∧ 0 < f.cnt := by fin_cases hf <;> decide
    have hput' (d : Dev) (v j u : Nat) (g : Fld) (hg : g ∈ [CAN.TX_PEND_BITS, CAN.TXB_TS_LO, CAN.TXB_TS_HI, CAN.TX_DONE_BITS, CAN.TX_FAIL_BITS, HDR.STAT_BLOCK])
        (hgf : g.fits = true) (hj : j < g.cnt) (hu : u < 65536) : (d.put (pgCan c) g v j u).get (pgCan c) f 0 a = d.get (pgCan c) f 0 a :=
      get_put_apart _ _ (happ g hg) hgf hf0.1 hj hf0.2 hu ha'
    unfold canEnd
    dsimp only
    split <;> simp (disch := first | decide | assumption) only [stat, orBits, put64, putBit, get_modCan, hput, hput']

end

/-! ### Every request that waits ends -/

/-- One buffer of a controller that can send no more. -/
def dropStep (c why : Nat) (d : Dev) (b : Nat) : Dev :=
  if d.canPend c b && decide ((d.canCh c).begun ≠ some b) then d.canEnd c b 6 0 why else d

theorem canDrop_eq (d : Dev) (c why : Nat) : d.canDrop c why = (List.range 128).foldl (dropStep c why) d := rfl

section
variable (d : Dev) (c why : Nat)

theorem get_canDrop {q : Nat} {f : Fld} {i t : Nat} (ha : ∀ g ∈ canTxFields, g.apart f = true) (hf : f.fits = true) (hi : i < f.cnt) (ht : t < 65536) :
    (d.canDrop c why).get q f i t = d.get q f i t := by
  rw [canDrop_eq]
  refine foldl_off (g := fun d : Dev => d.get q f i t) _ _ fun e b hb => ?_
  unfold dropStep
  split
  · exact get_canEnd e c 6 0 why (List.mem_range.mp hb) ha hf hi ht
  · rfl

theorem keeps_canDrop : d.keeps (d.canDrop c why) [pgCan c] := by
  rw [canDrop_eq]
  refine keeps_foldl _ _ fun e b hb => ?_
  unfold dropStep
  split
  · exact keeps_canEnd e c 6 0 why (List.mem_range.mp hb)
  · exact keeps_refl e _

theorem besideArm_canDrop : besideArm ((d.canDrop c why).canCh c) = besideArm (d.canCh c) := by
  rw [canDrop_eq]
  refine foldl_off (g := fun d : Dev => besideArm (d.canCh c)) _ _ fun e b _ => ?_
  unfold dropStep
  split
  · exact besideArm_canEnd ..
  · rfl

theorem length_canDrop : (d.canDrop c why).can.length = d.can.length := by
  rw [canDrop_eq]
  refine foldl_off (g := fun d : Dev => d.can.length) _ _ fun e b _ => ?_
  unfold dropStep
  split
  · exact length_canEnd ..
  · rfl

end

/-! ### The state of a controller -/

/-- The registers that a change of state writes. -/
def canStateFields : List Fld := CAN.BUS_STATE :: HDR.ERR_COUNT :: HDR.ERR_CODE :: HDR.ERR_DETAIL :: canTxFields

/-- A change of state shown and recorded. -/
def stateShown (d : Dev) (c st : Nat) : Dev :=
  let e := ((d.put (pgCan c) CAN.BUS_STATE st).stat (pgCan c) 2).note (pgCan c) clsState st c
  if st = 3 then e.err (pgCan c) cCAN_PASSIVE else if st = 4 then e.err (pgCan c) cCAN_BUS_OFF else e

theorem canState_eq (d : Dev) (c st : Nat) : d.canState c st =
    if d.get (pgCan c) CAN.BUS_STATE = st then d
    else if st = 4 then (d.stateShown c st).canDrop c 1 else if st = 0 then (d.stateShown c st).canDrop c 3 else d.stateShown c st := rfl

section
variable (d : Dev) {c : Nat} (hc : c < 4) (st : Nat)

theorem can_stateShown : (d.stateShown c st).can = d.can := by
  have hn : (((d.put (pgCan c) CAN.BUS_STATE st).stat (pgCan c) 2).note (pgCan c) clsState st c).can = d.can := can_note ..
  unfold stateShown
  dsimp only
  split
  · exact hn
  · split
    · exact hn
    · exact hn

theorem besideArm_canState : besideArm ((d.canState c st).canCh c) = besideArm (d.canCh c) := by
  have hshow : (d.stateShown c st).canCh c = d.canCh c := canCh_congr (can_stateShown d st) c
  rw [canState_eq]
  split_ifs
  · rfl
  · rw [besideArm_canDrop, hshow]
  · rw [besideArm_canDrop, hshow]
  · rw [hshow]

theorem length_canState : (d.canState c st).can.length = d.can.length := by
  rw [canState_eq]
  split_ifs
  · rfl
  · rw [length_canDrop, can_stateShown]
  · rw [length_canDrop, can_stateShown]
  · rw [can_stateShown]

theorem keeps_stateShown : d.keeps (d.stateShown c st) [pgCan c, shp .slt] := by
  unfold stateShown
  dsimp only
  split_ifs <;> simp (disch := first | decide | simp) [keeps_err_iff, keeps_note_iff, keeps_stat_iff, keeps_put_iff]

theorem keeps_canState : d.keeps (d.canState c st) [pgCan c, shp .slt] := by
  have hk := keeps_stateShown d (c := c) st
  have hdrop (why : Nat) : d.keeps ((d.stateShown c st).canDrop c why) [pgCan c, shp .slt] :=
    keeps_trans hk (keeps_mono (keeps_canDrop _ c why) (by simp))
  rw [canState_eq]
  split_ifs
  · exact keeps_refl d _
  · exact hdrop 1
  · exact hdrop 3
  · exact hk

include hc

omit hc in
theorem get_stateShown {q : Nat} {f : Fld} {i t : Nat} (hq : q ≠ shp .slt) (ha : ∀ g ∈ [HDR.ERR_COUNT, HDR.ERR_CODE, HDR.ERR_DETAIL, HDR.STAT_BLOCK], g.apart f = true)
    (hf : f.fits = true) (hi : i < f.cnt) (ht : t < 65536) :
    (d.stateShown c st).get q f i t = (d.put (pgCan c) CAN.BUS_STATE st).get q f i t := by
  have hput (d : Dev) (g : Fld) (v : Nat) (hg : g ∈ [HDR.ERR_COUNT, HDR.ERR_CODE, HDR.ERR_DETAIL, HDR.STAT_BLOCK]) (hgf : g.fits = true) (hgc : 0 < g.cnt) :
      (d.put (pgCan c) g v).get q f i t = d.get q f i t := get_put_field d v (ha g hg) hgf hf hgc hi (by decide) ht
  unfold stateShown
  dsimp only
  split_ifs <;> simp (disch := first | decide | assumption) only [err, bump, get_note_other, stat, orBits, hput]

/-- The state that a change shows. -/
theorem bus_canState : (d.canState c st).get (pgCan c) CAN.BUS_STATE = if d.get (pgCan c) CAN.BUS_STATE = st then st else st % 8 := by
  have hshow : (d.stateShown c st).get (pgCan c) CAN.BUS_STATE = st % 8 := by
    rw [get_stateShown d st (pgCan_ne_slt hc) (by decide) (by decide) (by decide) (by decide), get_put_same _ _ _ _ _ _ (by decide)]
    rfl
  have hdrop (why : Nat) : ((d.stateShown c st).canDrop c why).get (pgCan c) CAN.BUS_STATE = st % 8 := by
    rw [get_canDrop _ _ _ (by decide) (by decide) (by decide) (by decide), hshow]
  rw [canState_eq]
  by_cases h : d.get (pgCan c) CAN.BUS_STATE = st
  · rw [if_pos h, if_pos h, h]
  · rw [if_neg h, if_neg h]
    split_ifs
    · exact hdrop 1
    · exact hdrop 3
    · exact hshow

omit hc in
theorem get_canState {q : Nat} {f : Fld} {i t : Nat} (hq : q ≠ shp .slt) (ha : ∀ g ∈ canStateFields, g.apart f = true) (hf : f.fits = true) (hi : i < f.cnt)
    (ht : t < 65536) : (d.canState c st).get q f i t = d.get q f i t := by
  have hshow : (d.stateShown c st).get q f i t = d.get q f i t := by
    rw [get_stateShown d st hq (fun g hg => ha g (by fin_cases hg <;> decide)) hf hi ht]
    exact get_put_field d st (ha _ (by decide)) (by decide) hf (by decide) hi (by decide) ht
  have htx : ∀ g ∈ canTxFields, g.apart f = true := fun g hg => ha g (by fin_cases hg <;> decide)
  rw [canState_eq]
  split_ifs
  · rfl
  · rw [get_canDrop _ _ _ htx hf hi ht, hshow]
  · rw [get_canDrop _ _ _ htx hf hi ht, hshow]
  · exact hshow

end

/-! ### Counters that decide the state -/

/-- The state by the counters. -/
def judged (d : Dev) (c : Nat) : Nat :=
  if d.get (pgCan c) CAN.ERRC_TEC > 255 then 4 else if d.get (pgCan c) CAN.ERRC_TEC > 127 ∨ d.get (pgCan c) CAN.ERRC_REC > 127 then 3 else 2

theorem judged_lt (d : Dev) (c : Nat) : d.judged c < 8 := by
  unfold judged
  split_ifs <;> decide

theorem canJudge_eq (d : Dev) (c : Nat) : d.canJudge c =
    if d.get (pgCan c) CAN.BUS_STATE = 2 ∨ d.get (pgCan c) CAN.BUS_STATE = 3 then d.canState c (d.judged c) else d := rfl

section
variable (d : Dev) {c : Nat} (hc : c < 4)

theorem besideArm_canJudge : besideArm ((d.canJudge c).canCh c) = besideArm (d.canCh c) := by
  rw [canJudge_eq]
  split
  · exact besideArm_canState ..
  · rfl

theorem length_canJudge : (d.canJudge c).can.length = d.can.length := by
  rw [canJudge_eq]
  split
  · exact length_canState ..
  · rfl

theorem keeps_canJudge : d.keeps (d.canJudge c) [pgCan c, shp .slt] := by
  rw [canJudge_eq]
  split
  · exact keeps_canState ..
  · exact keeps_refl d _

include hc

theorem bus_canState_lt {st : Nat} (hst : st < 8) : (d.canState c st).get (pgCan c) CAN.BUS_STATE = st := by
  rw [bus_canState d hc, Nat.mod_eq_of_lt hst, ite_self]

theorem bus_canJudge : (d.canJudge c).get (pgCan c) CAN.BUS_STATE =
    if d.get (pgCan c) CAN.BUS_STATE = 2 ∨ d.get (pgCan c) CAN.BUS_STATE = 3 then d.judged c else d.get (pgCan c) CAN.BUS_STATE := by
  rw [canJudge_eq]
  split
  · exact bus_canState_lt d hc (judged_lt d c)
  · rfl

omit hc in
theorem get_canJudge {q : Nat} {f : Fld} {i t : Nat} (hq : q ≠ shp .slt) (ha : ∀ g ∈ canStateFields, g.apart f = true) (hf : f.fits = true) (hi : i < f.cnt)
    (ht : t < 65536) : (d.canJudge c).get q f i t = d.get q f i t := by
  rw [canJudge_eq]
  split
  · exact get_canState d _ hq ha hf hi ht
  · rfl

end

/-! ### LONELY -/

theorem canLonely_eq (d : Dev) (c : Nat) : d.canLonely c =
    if d.get (pgCan c) CAN.LONELY_N = 0 ∨ d.get (pgCan c) CAN.BUS_ACKRUN < d.get (pgCan c) CAN.LONELY_N ∨ d.on (pgCan c) CAN.BUS_LONELY = true then d
    else ((d.put (pgCan c) CAN.BUS_LONELY 1).stat (pgCan c) 3).fault (pgCan c) cCAN_LONELY c := by
  unfold canLonely
  dsimp only
  congr 1
  simp [or_assoc]

section
variable (d : Dev) {c : Nat}

theorem can_canLonely : (d.canLonely c).can = d.can := by
  rw [canLonely_eq]
  split
  · rfl
  · rw [fault, can_note]
    rfl

theorem keeps_canLonely : d.keeps (d.canLonely c) [pgCan c, shp .slt] := by
  rw [canLonely_eq]
  split
  · exact keeps_refl d _
  · simp (disch := first | decide | simp) [keeps_fault_iff, keeps_stat_iff, keeps_put_iff]

theorem get_canLonely {q : Nat} {f : Fld} {i t : Nat} (hq : q ≠ shp .slt)
    (ha : ∀ g ∈ [CAN.BUS_LONELY, HDR.STAT_BLOCK, HDR.ERR_COUNT, HDR.ERR_CODE, HDR.ERR_DETAIL], g.apart f = true) (hf : f.fits = true) (hi : i < f.cnt)
    (ht : t < 65536) : (d.canLonely c).get q f i t = d.get q f i t := by
  rw [canLonely_eq]
  split
  · rfl
  · rw [get_fault_apart _ hq (ha _ (by decide)) (ha _ (by decide)) (ha _ (by decide)) hf hi ht, stat, orBits,
      get_put_field _ _ (ha _ (by decide)) (by decide) hf (by decide) hi (by decide) ht, get_put_field _ _ (ha _ (by decide)) (by decide) hf (by decide) hi (by decide) ht]

end

/-! ### A bus error -/

/-- A bus error seen and counted. -/
def errorSeen (d : Dev) (c : Nat) (tx : Bool) (lec : Nat) (data dom : Bool) : Dev :=
  let p := pgCan c
  let st := d.get p CAN.BUS_STATE
  let d := (d.put p CAN.LEC_CODE lec).putb p CAN.LEC_DATA data
  let d := if tx && lec = 3 then d.put p CAN.BUS_ACKRUN (satU 8 (d.get p CAN.BUS_ACKRUN + 1)) else d
  if d.get p CAN.MODE_OP ≠ 0 then d
  else if tx then (if lec = 3 && st = 3 && !dom then d else d.put p CAN.ERRC_TEC (satU 9 (d.get p CAN.ERRC_TEC + 8)))
  else d.put p CAN.ERRC_REC (satU 8 (d.get p CAN.ERRC_REC + (if dom then 8 else 1)))

theorem canError_eq (d : Dev) (c : Nat) (tx : Bool) (lec : Nat) (data dom : Bool) : d.canError c tx lec data dom =
    if !d.canLive c then d
    else if tx then ((d.errorSeen c tx lec data dom).canJudge c).canLonely c else (((d.errorSeen c tx lec data dom).canJudge c).canLonely c).canFin c := rfl

theorem satU_lt (w n : Nat) : satU w n < 2 ^ w := by
  have hp := Nat.two_pow_pos w
  unfold satU
  split <;> omega

/-- The kind of a bus error shown, and the acknowledgements that lack. -/
def errorShown (d : Dev) (c : Nat) (tx : Bool) (lec : Nat) (data : Bool) : Dev :=
  let e := (d.put (pgCan c) CAN.LEC_CODE lec).putb (pgCan c) CAN.LEC_DATA data
  if tx && lec = 3 then e.put (pgCan c) CAN.BUS_ACKRUN (satU 8 (e.get (pgCan c) CAN.BUS_ACKRUN + 1)) else e

/-- The counters that an error of a sender or of a receiver moves. -/
def errorCounted (e : Dev) (c : Nat) (tx spared dom : Bool) : Dev :=
  if e.get (pgCan c) CAN.MODE_OP ≠ 0 then e
  else if tx then (if spared then e else e.put (pgCan c) CAN.ERRC_TEC (satU 9 (e.get (pgCan c) CAN.ERRC_TEC + 8)))
  else e.put (pgCan c) CAN.ERRC_REC (satU 8 (e.get (pgCan c) CAN.ERRC_REC + (if dom then 8 else 1)))

theorem errorSeen_eq (d : Dev) (c : Nat) (tx : Bool) (lec : Nat) (data dom : Bool) : d.errorSeen c tx lec data dom =
    (d.errorShown c tx lec data).errorCounted c tx (lec = 3 && d.get (pgCan c) CAN.BUS_STATE = 3 && !dom) dom := rfl

theorem errorShown_shows (d : Dev) (c : Nat) (tx : Bool) (lec : BitVec 3) (data : Bool) : let e := d.errorShown c tx lec.toNat data
    e.get (pgCan c) CAN.LEC_CODE = lec.toNat ∧ e.get (pgCan c) CAN.LEC_DATA = data.toNat ∧ d.keeps e [pgCan c] ∧
      ∀ f ∈ [CAN.MODE_OP, CAN.BUS_STATE, CAN.ERRC_TEC, CAN.ERRC_REC], e.get (pgCan c) f = d.get (pgCan c) f := by
  intro e
  have hcode : ((d.put (pgCan c) CAN.LEC_CODE lec.toNat).putb (pgCan c) CAN.LEC_DATA data).get (pgCan c) CAN.LEC_CODE = lec.toNat := by
    rw [putb, get_put_apart _ _ (by decide) (by decide) (by decide) (by decide) (by decide) (by decide) (by decide)]
    exact get_put_bv _ _ _ lec 0 0 rfl (by decide)
  have hdata : ((d.put (pgCan c) CAN.LEC_CODE lec.toNat).putb (pgCan c) CAN.LEC_DATA data).get (pgCan c) CAN.LEC_DATA = data.toNat := by
    rw [putb, get_put_same _ _ _ _ _ _ (by decide)]
    cases data <;> rfl
  have hrest (f : Fld) (hf : f ∈ [CAN.MODE_OP, CAN.BUS_STATE, CAN.ERRC_TEC, CAN.ERRC_REC]) :
      ((d.put (pgCan c) CAN.LEC_CODE lec.toNat).putb (pgCan c) CAN.LEC_DATA data).get (pgCan c) f = d.get (pgCan c) f := by
    fin_cases hf <;> simp (disch := decide) only [putb, get_put_apart]
  have hk : d.keeps ((d.put (pgCan c) CAN.LEC_CODE lec.toNat).putb (pgCan c) CAN.LEC_DATA data) [pgCan c] := by
    simp (disch := first | decide | simp) [putb, keeps_put_iff]
  unfold e errorShown
  dsimp only
  split
  · refine ⟨?_, ?_, (keeps_put_iff (by simp) (by decide) (by decide) (by decide)).mpr hk, fun f hf => ?_⟩
    · rw [get_put_apart _ _ (by decide) (by decide) (by decide) (by decide) (by decide) (by decide) (by decide), hcode]
    · rw [get_put_apart _ _ (by decide) (by decide) (by decide) (by decide) (by decide) (by decide) (by decide), hdata]
    · rw [← hrest f hf]
      fin_cases hf <;> simp (disch := decide) only [get_put_apart]
  · exact ⟨hcode, hdata, hk, hrest⟩

theorem errorCounted_shows (d : Dev) (c : Nat) (tx spared dom : Bool) : let e := d.errorCounted c tx spared dom
    e.get (pgCan c) CAN.ERRC_TEC = (if d.get (pgCan c) CAN.MODE_OP = 0 ∧ tx = true ∧ spared = false then
      satU 9 (d.get (pgCan c) CAN.ERRC_TEC + 8) else d.get (pgCan c) CAN.ERRC_TEC) ∧
    e.get (pgCan c) CAN.ERRC_REC = (if d.get (pgCan c) CAN.MODE_OP = 0 ∧ tx = false then
      satU 8 (d.get (pgCan c) CAN.ERRC_REC + (if dom then 8 else 1)) else d.get (pgCan c) CAN.ERRC_REC) ∧
    d.keeps e [pgCan c] ∧ ∀ f ∈ [CAN.LEC_CODE, CAN.LEC_DATA, CAN.BUS_STATE], e.get (pgCan c) f = d.get (pgCan c) f := by
  intro e
  have hput (f : Fld) (v : Nat) (hf : f ∈ [CAN.ERRC_TEC, CAN.ERRC_REC]) : d.keeps (d.put (pgCan c) f v) [pgCan c] ∧
      ∀ g ∈ [CAN.LEC_CODE, CAN.LEC_DATA, CAN.BUS_STATE], (d.put (pgCan c) f v).get (pgCan c) g = d.get (pgCan c) g := by
    refine ⟨(keeps_put_iff (by simp) ?_ ?_ (by decide)).mpr (keeps_refl d _), fun g hg => ?_⟩
    · fin_cases hf <;> decide
    · fin_cases hf <;> decide
    · fin_cases hf <;> fin_cases hg <;> simp (disch := decide) only [get_put_apart]
  unfold e errorCounted
  by_cases hm : d.get (pgCan c) CAN.MODE_OP = 0
  · rw [if_neg (not_not.mpr hm)]
    cases tx
    · obtain ⟨hk, hrest⟩ := hput CAN.ERRC_REC (satU 8 (d.get (pgCan c) CAN.ERRC_REC + (if dom then 8 else 1))) (by simp)
      simp only [hm, Bool.false_eq_true, if_false, false_and, and_false, true_and, if_true]
      refine ⟨?_, ?_, hk, hrest⟩
      · simp (disch := decide) only [get_put_apart]
      · rw [get_put_same _ _ _ _ _ _ (by decide)]
        exact Nat.mod_eq_of_lt (satU_lt 8 _)
    · cases spared
      · obtain ⟨hk, hrest⟩ := hput CAN.ERRC_TEC (satU 9 (d.get (pgCan c) CAN.ERRC_TEC + 8)) (by simp)
        simp only [hm, Bool.false_eq_true, if_false, if_true, and_true, Bool.true_eq_false, and_false]
        refine ⟨?_, ?_, hk, hrest⟩
        · rw [get_put_same _ _ _ _ _ _ (by decide)]
          exact Nat.mod_eq_of_lt (satU_lt 9 _)
        · simp (disch := decide) only [get_put_apart]
      · simp [hm]
  · rw [if_pos hm]
    simp [hm]

/-- What a bus error counts. -/
theorem errorSeen_shows (d : Dev) (c : Nat) (tx : Bool) (lec : BitVec 3) (data dom : Bool) : let e := d.errorSeen c tx lec.toNat data dom
    e.get (pgCan c) CAN.LEC_CODE = lec.toNat ∧ e.get (pgCan c) CAN.LEC_DATA = data.toNat ∧
    e.get (pgCan c) CAN.ERRC_TEC = (if d.get (pgCan c) CAN.MODE_OP = 0 ∧ tx = true ∧ ¬ (lec.toNat = 3 ∧ d.get (pgCan c) CAN.BUS_STATE = 3 ∧ dom = false) then
      satU 9 (d.get (pgCan c) CAN.ERRC_TEC + 8) else d.get (pgCan c) CAN.ERRC_TEC) ∧
    e.get (pgCan c) CAN.ERRC_REC = (if d.get (pgCan c) CAN.MODE_OP = 0 ∧ tx = false then
      satU 8 (d.get (pgCan c) CAN.ERRC_REC + (if dom then 8 else 1)) else d.get (pgCan c) CAN.ERRC_REC) ∧
    e.get (pgCan c) CAN.BUS_STATE = d.get (pgCan c) CAN.BUS_STATE ∧ d.keeps e [pgCan c] := by
  intro e
  obtain ⟨h1, h2, h3, h4⟩ := errorShown_shows d c tx lec data
  obtain ⟨k1, k2, k3, k4⟩ := errorCounted_shows (d.errorShown c tx lec.toNat data) c tx (lec.toNat = 3 && d.get (pgCan c) CAN.BUS_STATE = 3 && !dom) dom
  rw [h4 _ (by simp), h4 _ (by simp)] at k1 k2
  refine ⟨(k4 _ (by simp)).trans h1, (k4 _ (by simp)).trans h2, k1.trans ?_, k2, (k4 _ (by simp)).trans (h4 _ (by simp)), keeps_trans h3 k3⟩
  congr 1
  cases dom <;> simp

/-- What a bus error of a controller in service shows. -/
theorem canError_shows (d : Dev) {c : Nat} (hc : c < 4) (tx : Bool) (lec : BitVec 3) (data dom : Bool) (hl : d.canLive c = true) :
    let e := d.canError c tx lec.toNat data dom
    let st := d.get (pgCan c) CAN.BUS_STATE
    e.get (pgCan c) CAN.LEC_CODE = lec.toNat ∧ e.on (pgCan c) CAN.LEC_DATA = data ∧
    e.get (pgCan c) CAN.ERRC_TEC = (if d.get (pgCan c) CAN.MODE_OP = 0 ∧ tx = true ∧ ¬ (lec.toNat = 3 ∧ st = 3 ∧ dom = false) then
      satU 9 (d.get (pgCan c) CAN.ERRC_TEC + 8) else d.get (pgCan c) CAN.ERRC_TEC) ∧
    e.get (pgCan c) CAN.ERRC_REC = (if d.get (pgCan c) CAN.MODE_OP = 0 ∧ tx = false then
      satU 8 (d.get (pgCan c) CAN.ERRC_REC + (if dom then 8 else 1)) else d.get (pgCan c) CAN.ERRC_REC) ∧
    e.get (pgCan c) CAN.BUS_STATE = (if st ≠ 2 ∧ st ≠ 3 then st else if e.get (pgCan c) CAN.ERRC_TEC > 255 then 4
      else if e.get (pgCan c) CAN.ERRC_TEC > 127 ∨ e.get (pgCan c) CAN.ERRC_REC > 127 then 3 else 2) ∧ d.keeps e [pgCan c, shp .slt] := by
  intro e st
  obtain ⟨h1, h2, h3, h4, h5, h6⟩ := errorSeen_shows d c tx lec data dom
  obtain ⟨m, hm⟩ : ∃ m, m = d.errorSeen c tx lec.toNat data dom := ⟨_, rfl⟩
  rw [← hm] at h1 h2 h3 h4 h5 h6
  have hbus := bus_canJudge m hc
  have hk : d.keeps ((m.canJudge c).canLonely c) [pgCan c, shp .slt] :=
    keeps_trans (keeps_mono h6 (by simp)) (keeps_trans (keeps_canJudge m) (keeps_canLonely _))
  have hget {f : Fld} (ha : ∀ g ∈ canStateFields, g.apart f = true) (hb : CAN.BUS_LONELY.apart f = true) (hf : f.fits = true) (hi : 0 < f.cnt) :
      ((m.canJudge c).canLonely c).get (pgCan c) f = m.get (pgCan c) f := by
    rw [get_canLonely _ (pgCan_ne_slt hc) ?_ hf hi (by decide), get_canJudge _ (pgCan_ne_slt hc) ha hf hi (by decide)]
    intro g hg
    fin_cases hg
    · exact hb
    all_goals exact ha _ (by decide)
  have hbusl : ((m.canJudge c).canLonely c).get (pgCan c) CAN.BUS_STATE = (m.canJudge c).get (pgCan c) CAN.BUS_STATE :=
    get_canLonely _ (pgCan_ne_slt hc) (by decide) (by decide) (by decide) (by decide)
  have he : ∀ f, e.get (pgCan c) f = ((m.canJudge c).canLonely c).get (pgCan c) f := by
    intro f
    show (d.canError c tx lec.toNat data dom).get (pgCan c) f = _
    rw [canError_eq, hl, ← hm]
    cases tx <;> rfl
  have hke : d.keeps e [pgCan c, shp .slt] := by
    show d.keeps (d.canError c tx lec.toNat data dom) _
    rw [canError_eq, hl, ← hm]
    cases tx
    · exact (keeps_modCan_iff ..).mpr hk
    · exact hk
  have htec : e.get (pgCan c) CAN.ERRC_TEC = m.get (pgCan c) CAN.ERRC_TEC := (he _).trans (hget (by decide) (by decide) (by decide) (by decide))
  have hrec : e.get (pgCan c) CAN.ERRC_REC = m.get (pgCan c) CAN.ERRC_REC := (he _).trans (hget (by decide) (by decide) (by decide) (by decide))
  have hjudged : m.judged c = if e.get (pgCan c) CAN.ERRC_TEC > 255 then 4
      else if e.get (pgCan c) CAN.ERRC_TEC > 127 ∨ e.get (pgCan c) CAN.ERRC_REC > 127 then 3 else 2 := by
    rw [htec, hrec, judged]
  refine ⟨(he _).trans ((hget (by decide) (by decide) (by decide) (by decide)).trans h1), ?_, htec.trans h3, hrec.trans h4, ?_, hke⟩
  · rw [on, he, hget (by decide) (by decide) (by decide) (by decide), h2]
    cases data <;> rfl
  · rw [he, hbusl, hbus, h5, hjudged]
    by_cases hst : st = 2 ∨ st = 3
    · rw [if_pos hst, if_neg (show ¬(st ≠ 2 ∧ st ≠ 3) by omega)]
    · rw [if_neg hst, if_pos (show st ≠ 2 ∧ st ≠ 3 by omega)]

end Dev

end Sys2Proof.Machine
end

section
/-! PROOFS. The events of a CAN controller: FRAME events, the schedule, the end of a rejoin, and the stations. -/
namespace Sys2Proof.Machine

open Sys2Proof

namespace Dev

/-! ### A FRAME event with nothing staged -/

/-- A step on the page of a controller that leaves its service, its buffers and its schedule. -/
structure FrameQuiet (p : Nat) (d e : Dev) : Prop where
  keeps : d.keeps e [p]
  low : ∀ f ∈ [HDR.CTRL_EN, CAN.MODE_OP, CAN.BUS_STATE], e.get p f = d.get p f
  high : ∀ k, p * 8589934592 + 0x70 * 2097152 ≤ k → rfFind k e.regs = rfFind k d.regs
  can : e.can = d.can

section
variable {p : Nat} {d e f : Dev}

theorem FrameQuiet.refl (p : Nat) (d : Dev) : FrameQuiet p d d := ⟨keeps_refl d _, fun _ _ => rfl, fun _ _ => rfl, rfl⟩

theorem FrameQuiet.trans (h1 : FrameQuiet p d e) (h2 : FrameQuiet p e f) : FrameQuiet p d f :=
  ⟨keeps_trans h1.keeps h2.keeps, fun g hg => (h2.low g hg).trans (h1.low g hg), fun k hk => (h2.high k hk).trans (h1.high k hk), h2.can.trans h1.can⟩

/-- Every entry of a register behind the service of the controller. -/
theorem FrameQuiet.get (h : FrameQuiet p d e) {f : Fld} (hf : 0x70 ≤ f.off) (i t : Nat) : e.get p f i t = d.get p f i t := by
  have hk : p * 8589934592 + 0x70 * 2097152 ≤ fkey p f i t := by
    have hi : 0 ≤ i * f.stride := Nat.zero_le _
    rw [fkey_eq]
    omega
  rw [Dev.get, Dev.get, h.high _ hk]

end

section
variable (p : Nat) (d : Dev)

/-- The registers of the header, and the count of a rejoin. -/
def eventFields : List Fld := [HDR.COMMIT_SEQ, HDR.COMMIT_RESULT, HDR.COMMIT_REASON, CAN.REJ_CNT_SEQ]

theorem frameQuiet_put {f : Fld} (v : Nat) {t : Nat} (hf : f ∈ eventFields) (ht : t < 65536) : FrameQuiet p d (d.put p f v 0 t) := by
  have hfit : f.fits = true ∧ 0 < f.cnt ∧ f.off < 0x70 ∧ f.lo < 31 ∧ ∀ g ∈ [HDR.CTRL_EN, CAN.MODE_OP, CAN.BUS_STATE], f.apart g = true := by
    fin_cases hf <;> decide
  obtain ⟨hfits, hcnt, hoff, hlo, hap⟩ := hfit
  refine ⟨(keeps_put_iff (by simp) hfits hcnt ht).mpr (keeps_refl d _), fun g hg => ?_, fun k hk => rfFind_put_ne _ _ _ _ _ _ _ ?_, rfl⟩
  · have hg' : g.fits = true ∧ 0 < g.cnt := by fin_cases hg <;> decide
    exact get_put_apart d v (hap g hg) hfits hg'.1 hcnt hg'.2 ht (by decide)
  · rw [fkey_eq, Nat.zero_mul]
    omega

theorem frameQuiet_showQuiet (h : HalfId) (seq r : Nat) : FrameQuiet p d (d.showQuiet p (some h) seq r) := by
  have hn : h.n < 65536 := by cases h <;> decide
  have ho : h.other.n < 65536 := by cases h <;> decide
  have hput (d : Dev) (f : Fld) (v t : Nat) (hf : f ∈ eventFields) (ht : t < 65536) := frameQuiet_put p d v hf ht
  exact (hput d _ _ _ (by simp [eventFields]) hn).trans <| (hput _ _ _ _ (by simp [eventFields]) ho).trans <| (hput _ _ _ _ (by simp [eventFields]) ho).trans <|
    (hput _ _ _ _ (by simp [eventFields]) ho).trans <| (hput _ _ _ _ (by simp [eventFields]) hn).trans (hput _ _ _ _ (by simp [eventFields]) hn)

/-- The number of an event stands at both halves. -/
theorem seq_showQuiet (h : HalfId) (seq r : Nat) : (d.showQuiet p (some h) seq r).get p HDR.COMMIT_SEQ = seq % 65536 := by
  have hrest (d : Dev) (f : Fld) (v t : Nat) (hf : f ∈ [HDR.COMMIT_RESULT, HDR.COMMIT_REASON]) (ht : t < 65536) :
      (d.put p f v 0 t).get p HDR.COMMIT_SEQ = d.get p HDR.COMMIT_SEQ := by
    fin_cases hf <;> exact get_put_apart d v (by decide) (by decide) (by decide) (by decide) (by decide) ht (by decide)
  have hn : h.n < 65536 := by cases h <;> decide
  have ho : h.other.n < 65536 := by cases h <;> decide
  have hseq (d : Dev) : ((d.put p HDR.COMMIT_SEQ seq 0 h.n).put p HDR.COMMIT_SEQ seq 0 h.other.n).get p HDR.COMMIT_SEQ = seq % 65536 := by
    cases h
    · rw [get_put_tab _ _ (by decide)]
      exact get_put_same _ _ _ _ _ _ (by decide)
    · exact get_put_same _ _ _ _ _ _ (by decide)
  have hc : commitIdx (some h) = h.n := rfl
  rw [showQuiet, hc, hrest _ _ _ _ (by simp) hn, hrest _ _ _ _ (by simp) hn, markEvent, hrest _ _ _ _ (by simp) ho, hrest _ _ _ _ (by simp) ho, hseq]

end

section
variable (d : Dev) (c : Nat)

theorem frameQuiet_canRejCount : FrameQuiet (pgCan c) d (d.canRejCount c) := by
  unfold canRejCount
  dsimp only
  split
  · exact FrameQuiet.refl _ d
  · obtain ⟨v, hv⟩ : ∃ v, v = min 127 (d.get (pgCan c) CAN.REJ_CNT_SEQ + d.fresh.1.toNat %
      (1221 / (11 * (d.get (pgCan c) CAN.NBT_BRP * (1 + d.get (pgCan c) CAN.NBT_TSEG1 + d.get (pgCan c) CAN.NBT_TSEG2))) + 2)) := ⟨_, rfl⟩
    rw [← hv]
    exact FrameQuiet.trans (e := d.fresh.2) ⟨keeps_refl d _, fun _ _ => rfl, fun _ _ => rfl, rfl⟩
      (frameQuiet_put (pgCan c) d.fresh.2 (f := CAN.REJ_CNT_SEQ) v (by simp [eventFields]) (by decide))

/-- The next number of an event of the controller. -/
def nextFrame (d : Dev) (c : Nat) : Nat := ((d.canCh c).frames + 1) % 65536

theorem shadow_canRejCount : (d.canRejCount c).shadow = d.shadow := by
  unfold canRejCount
  dsimp only
  split <;> rfl

/-- A FRAME event counted. -/
def frameCounted (d : Dev) (c : Nat) : Dev := (d.canRejCount c).modCan c (fun x => { x with frames := (d.canRejCount c).nextFrame c })

/-- The schedule as configured. -/
def schedOf (d : Dev) (c : Nat) : List Nat := [CAN.TT_CFG_ROWS, CAN.TT_CFG_COLS, CAN.TT_CFG_SYNC].map (fun f => d.get (pgCan c) f)

/-- What a FRAME event does once the staged values are applied (`d`), from what stood before it. -/
def frameAct (was d : Dev) (c : Nat) (busy : Bool) : Dev :=
  let p := pgCan c
  let en := was.enabled p
  let mode := was.get p CAN.MODE_OP
  let d := if d.schedOf c != was.schedOf c then (d.put p CAN.TT_ROW_IDX 0).modCan c (fun x => { x with changed := true }) else d
  let d :=
    if d.enabled p && !en then d.canEnable c
    else if !d.enabled p && en then
      let st := d.get p CAN.BUS_STATE
      (d.modCan c (fun x => { x with keptOff := x.keptOff || st == 4 || st == 5, fin := busy && (st == 2 || st == 3) })).canState c 0
    else d
  if d.get p CAN.MODE_OP ≠ mode ∧ d.get p CAN.MODE_OP ≠ 0 then d.canDrop c 2 else d

theorem canFrameEvent_eq (busy : Bool) : d.canFrameEvent c busy =
    let k := (d.canRejCount c).nextFrame c
    let b := d.frameCounted c
    match b.holder? with
    | none => (b.put (pgCan c) HDR.COMMIT_SEQ k 0 0).put (pgCan c) HDR.COMMIT_SEQ k 0 1
    | some h => frameAct b (b.applyPage (pgCan c) (some h)
        (fun v => canTimingRules (b.enabled (pgCan c)) v ++ canSchedRules b.exportTenths v ++ b.canCellRules (pgCan c) h) 3 k) c busy := rfl

/-- An event that changed nothing has nothing to act on. -/
theorem frameAct_quiet {was d : Dev} (h : FrameQuiet (pgCan c) was d) (busy : Bool) : frameAct was d c busy = d := by
  have hs : d.schedOf c = was.schedOf c := by
    rw [schedOf, schedOf]
    refine List.map_congr_left fun f hf => h.get ?_ 0 0
    fin_cases hf <;> decide
  have hen : d.enabled (pgCan c) = was.enabled (pgCan c) := by
    rw [enabled, enabled, on, on, h.low _ (by simp)]
  have hm : d.get (pgCan c) CAN.MODE_OP = was.get (pgCan c) CAN.MODE_OP := h.low _ (by simp)
  simp [frameAct, hs, hen, hm]

/-- What a FRAME event with nothing staged does. -/
theorem canFrameEvent_quiet (hs : ∀ e ∈ d.shadow, e.page ≠ pgCan c) (busy : Bool) : let e := d.canFrameEvent c busy
    ∃ m b, FrameQuiet (pgCan c) d m ∧ b = m.modCan c (fun x => { x with frames := d.nextFrame c }) ∧ FrameQuiet (pgCan c) b e ∧
      e.get (pgCan c) HDR.COMMIT_SEQ = d.nextFrame c := by
  have hm := frameQuiet_canRejCount d c
  have hn : (d.canRejCount c).nextFrame c = d.nextFrame c := by rw [nextFrame, nextFrame, canCh_congr hm.can]
  have hlt : d.nextFrame c % 65536 = d.nextFrame c := Nat.mod_mod ..
  intro e
  obtain ⟨b, hb⟩ : ∃ b, b = d.frameCounted c := ⟨_, rfl⟩
  refine ⟨d.canRejCount c, b, hm, by rw [hb, frameCounted, hn], ?_⟩
  have hbs : b.shadow = d.shadow := by rw [hb]; exact shadow_canRejCount d c
  have he : e = d.canFrameEvent c busy := rfl
  rw [canFrameEvent_eq, hn] at he
  dsimp only at he
  rw [← hb] at he
  cases hh : b.holder? with
  | none =>
    rw [hh] at he
    rw [he]
    have hput (x : Dev) (t : Nat) (ht : t < 65536) := frameQuiet_put (pgCan c) x (f := HDR.COMMIT_SEQ) (d.nextFrame c) (by simp [eventFields]) ht
    refine ⟨(hput b 0 (by decide)).trans (hput _ 1 (by decide)), ?_⟩
    rw [get_put_tab _ _ (by decide), get_put_same _ _ _ _ _ _ (by decide)]
    exact hlt
  | some h =>
    have hq := frameQuiet_showQuiet (pgCan c) b h (d.nextFrame c) 0
    rw [hh] at he
    dsimp only at he
    rw [applyPage_empty _ _ _ _ _ _ (fun x hx hp => hs x (hbs ▸ hx) hp.1), frameAct_quiet c hq] at he
    rw [he]
    exact ⟨hq, (seq_showQuiet ..).trans hlt⟩

end

/-! ### What may start -/

section
variable {c : Nat} (hc : c < 4) {d e : Dev}

theorem pgCan_ne_wir {c : Nat} (hc : c < 4) : shp .wir ≠ pgCan c := by
  interval_cases c <;> decide

include hc in
/-- What decides which buffer may start stands as it was. -/
theorem canMay_congr (hk : d.keeps e [pgCan c]) (hlow : ∀ f ∈ [HDR.CTRL_EN, CAN.MODE_OP, CAN.BUS_STATE], e.get (pgCan c) f = d.get (pgCan c) f)
    (hhigh : ∀ f : Fld, 0x70 ≤ f.off → ∀ i t, e.get (pgCan c) f i t = d.get (pgCan c) f i t)
    (hx : (e.canCh c).begun = (d.canCh c).begun ∧ (e.canCh c).mat = (d.canCh c).mat ∧ (e.canCh c).col = (d.canCh c).col ∧ (e.canCh c).arm = (d.canCh c).arm) :
    e.canMay c = d.canMay c ∧ (∀ b, e.canFrame c b = d.canFrame c b) ∧ e.canMat c = d.canMat c := by
  obtain ⟨hbegun, hmat, hcol, harm⟩ := hx
  have hbus : e.get (pgCan c) CAN.BUS_STATE = d.get (pgCan c) CAN.BUS_STATE := hlow _ (by simp)
  have hmode : e.get (pgCan c) CAN.MODE_OP = d.get (pgCan c) CAN.MODE_OP := hlow _ (by simp)
  have hwhy : e.canWhyNot c = d.canWhyNot c := by
    rw [canWhyNot, canWhyNot, hbus, hmode, (holder_of_keeps hk (by simpa using pgCan_ne_wir hc)).1]
  have hpend : e.canPend c = d.canPend c := funext fun b => by rw [canPend, canPend, hhigh _ (by decide)]
  have hframe : e.canFrame c = d.canFrame c := funext fun b => by
    have hget {f : Fld} (hf : 0x70 ≤ f.off) (i : Nat) : e.get (pgCan c) f i b = d.get (pgCan c) f i b := hhigh f hf i b
    have hon {f : Fld} (hf : 0x70 ≤ f.off) : e.on (pgCan c) f 0 b = d.on (pgCan c) f 0 b := by rw [on, on, hget hf]
    simp (disch := decide) only [canFrame, hget, hon, hbus]
  have hfirst : e.canFirst c = d.canFirst c := funext fun bs => by rw [canFirst, canFirst, hpend, hframe]
  refine ⟨?_, fun b => by rw [hframe], funext fun row => ?_⟩
  · simp only [canMay, hbegun, hmat, hcol, harm, hwhy, hbus, hfirst, hpend]
  · have hcell : e.canCell c = d.canCell c := funext fun r => funext fun k => hhigh _ (by decide) 0 _
    rw [canMat, canMat, hhigh _ (by decide), hhigh _ (by decide), hcell]

end

/-! ### The schedule -/

section
variable {c : Nat} (d : Dev)

/-- A column that starts, before what may start begins. -/
def columnStarted (d : Dev) (c col : Nat) (b : Nat) : Dev :=
  d.modCan c (fun x => { x with col := some col, arm := if decide (b < 128) && d.canPend c b then some b else none })

theorem canColumn_eq {col : Nat} (start : Bool) {m : TtRow} (hm : (d.canCh c).mat = some m) (hcol : col < m.cols) : d.canColumn c col start =
    if start then (d.columnStarted c col (m.cells.getD col 0xFF)).canStart c else d.columnStarted c col (m.cells.getD col 0xFF) := by
  rw [canColumn, hm]
  exact if_neg (by omega)

theorem canColumn_off {col : Nat} (start : Bool) (h : (d.canCh c).mat.all (fun m => decide (col ≥ m.cols)) = true) : d.canColumn c col start = d := by
  unfold canColumn
  cases hm : (d.canCh c).mat with
  | none => rfl
  | some m =>
    rw [hm] at h
    exact if_pos (by simpa using h)

/-- A start leaves all but what begins. -/
theorem canStart_cases (e : Dev) (c : Nat) : (e.canMay c = none ∧ e.canStart c = e) ∨
    ∃ b, e.canMay c = some b ∧ e.canStart c = e.modCan c (fun x => { x with begun := some b, run := some (e.canFrame c b), again := false }) := by
  unfold canStart
  cases e.canMay c with
  | none => exact .inl ⟨rfl, rfl⟩
  | some b => exact .inr ⟨b, rfl, rfl⟩

theorem keeps_canStart (e : Dev) (c : Nat) (ps : List Nat) : e.keeps (e.canStart c) ps := by
  rcases canStart_cases e c with ⟨-, h⟩ | ⟨b, -, h⟩
  · rw [h]
    exact keeps_refl e _
  · rw [h]
    exact keeps_refl e _

theorem canStart_leaves {e : Dev} {c : Nat} (hl : c < e.can.length) : (e.canStart c).regs = e.regs ∧ (e.canStart c).memories = e.memories ∧
    ((e.canStart c).canCh c).col = (e.canCh c).col ∧ ((e.canStart c).canCh c).arm = (e.canCh c).arm ∧
    ((e.canStart c).canCh c).begun = (match e.canMay c with | some b => some b | none => (e.canCh c).begun) ∧
    (∀ b, e.canMay c = some b → ((e.canStart c).canCh c).run = some (e.canFrame c b)) := by
  rcases canStart_cases e c with ⟨hm, h⟩ | ⟨b, hm, h⟩
  · rw [h, hm]
    exact ⟨rfl, rfl, rfl, rfl, rfl, fun b hb => by cases hb⟩
  · rw [h, hm, canCh_modCan e hl]
    exact ⟨rfl, rfl, rfl, rfl, rfl, fun b' hb' => by cases hb'; rfl⟩

theorem canMay_columnStarted (hl : c < d.can.length) {col : Nat} {m : TtRow} (hm : (d.canCh c).mat = some m) (b : Nat) (hb : b = m.cells.getD col 0xFF) :
    (b = 0xFE → (d.columnStarted c col b).canMay c = none) ∧
    (b < 128 → d.canPend c b = true → (d.canCh c).begun = none → d.canWhyNot c = none → d.get (pgCan c) CAN.BUS_STATE ≠ 1 →
      (d.columnStarted c col b).canMay c = some b) := by
  have hx : (d.columnStarted c col b).canCh c =
      { d.canCh c with col := some col, arm := if decide (b < 128) && d.canPend c b then some b else none } := canCh_modCan d hl _
  have hwhy : (d.columnStarted c col b).canWhyNot c = d.canWhyNot c := rfl
  have hpend (a : Nat) : (d.columnStarted c col b).canPend c a = d.canPend c a := rfl
  constructor
  · intro hfe
    have hcell : ¬ m.cells.getD col 0xFF < 128 := by rw [← hb, hfe]; decide
    have hcell' : m.cells.getD col 0xFF = 0xFE := hb.symm.trans hfe
    simp only [canMay, hx, hm]
    rw [if_neg hcell, if_pos hcell', ite_self]
  · intro h128 hp hbegun hw hst
    have hst' : (d.columnStarted c col b).get (pgCan c) CAN.BUS_STATE ≠ 1 := hst
    simp only [canMay, hx, hm, hwhy, hw, hbegun]
    rw [if_neg (by simp [hst']), if_pos (by rw [← hb]; exact h128)]
    simp [h128, hp, hpend]

/-- The buffer a window waits for, when a request ends. -/
theorem arm_canEnd (c b result lec why : Nat) (hl : c < d.can.length) :
    ((d.canEnd c b result lec why).canCh c).arm = (d.canCh c).arm.filter (fun a => a != b) := by
  rw [canCh, can_canEnd, getD_lmod_same _ _ hl, canCh]

/-- A window that ends. -/
def windowClosed (d : Dev) (c : Nat) : Dev := d.modCan c (fun x => { x with col := none, arm := none })

theorem canWindowEnd_eq (d : Dev) (c : Nat) : d.canWindowEnd c = match (d.canCh c).arm with
    | some b => if d.canPend c b && decide ((d.canCh c).begun ≠ some b) then ((d.windowClosed c).canEnd c b 6 0 6).err (pgCan c) cCAN_WINDOW b else d.windowClosed c
    | none => d.windowClosed c := rfl

/-- What the end of a window leaves: nothing waits for it. -/
theorem canWindowEnd_shows (hl : c < d.can.length) (b : Option (Fin 128)) (hb : (d.canCh c).arm = b.map Fin.val) : let e := d.canWindowEnd c
    (e.canCh c).arm = none ∧ (e.canCh c).col = none ∧ d.keeps e [pgCan c] ∧
      (∀ k : Fin 128, b = some k → d.canPend c k = true → (d.canCh c).begun ≠ some k.val → e.canPend c k = false ∧
        e.get (pgCan c) CAN.TXB_ST_RESULT 0 k = 6 ∧ e.get (pgCan c) CAN.TXB_ST_WHY 0 k = 6 ∧ e.get (pgCan c) HDR.ERR_CODE = cCAN_WINDOW) := by
  intro e
  have he : e = d.canWindowEnd c := rfl
  rw [canWindowEnd_eq, hb] at he
  have hclosed : ((d.windowClosed c).canCh c).arm = none ∧ ((d.windowClosed c).canCh c).col = none := by
    rw [windowClosed, canCh_modCan d hl]
    exact ⟨rfl, rfl⟩
  have hk : d.keeps (d.windowClosed c) [pgCan c] := keeps_refl d _
  cases b with
  | none =>
    rw [he]
    exact ⟨hclosed.1, hclosed.2, hk, fun k hk => by cases hk⟩
  | some k =>
    simp only [Option.map_some] at he
    by_cases hw : (d.canPend c k && decide ((d.canCh c).begun ≠ some k.val)) = true
    · rw [if_pos hw] at he
      obtain ⟨h1, h2, -, h4, -, -⟩ := canEnd_shows (d.windowClosed c) c (b := k) 6 0 6 k.isLt
      have hbeside := besideArm_canEnd (d.windowClosed c) c (b := k) 6 0 6
      have harm : (((d.windowClosed c).canEnd c k 6 0 6).canCh c).arm = none := by
        rw [arm_canEnd (d.windowClosed c) c k 6 0 6 (by simpa [windowClosed, modCan] using hl), hclosed.1]
        rfl
      have hch : (((d.windowClosed c).canEnd c k 6 0 6).err (pgCan c) cCAN_WINDOW k).canCh c = ((d.windowClosed c).canEnd c k 6 0 6).canCh c :=
        canCh_congr (can_err ..) c
      rw [he, hch]
      refine ⟨harm, ((congrArg CanCh.col hbeside :)).trans hclosed.2, (keeps_err_iff (by simp)).mpr (keeps_trans hk (keeps_canEnd _ c 6 0 6 k.isLt)), ?_⟩
      intro k' hk' _ _
      obtain rfl : k = k' := Option.some.inj hk'
      have hkt : k.val < 65536 := by omega
      have hkw : k.val / 32 < CAN.TX_PEND_BITS.cnt := (by omega : k.val / 32 < 4)
      refine ⟨?_, ?_, ?_, ?_⟩
      · rw [← h1, canPend, canPend]
        simp (disch := first | decide | assumption) only [err, bump, get_put_apart]
      · simp (disch := first | decide | assumption) only [err, bump, get_put_apart]
        exact h2
      · simp (disch := first | decide | assumption) only [err, bump, get_put_apart]
        exact h4
      · simp (disch := first | decide | assumption) only [err, bump, get_put_apart, get_put_same]
        decide
    · rw [if_neg hw] at he
      rw [he]
      refine ⟨hclosed.1, hclosed.2, hk, fun k' hk' hp hn => absurd ?_ hw⟩
      obtain rfl : k = k' := Option.some.inj hk'
      simp [hp, hn]

end

/-! ### Rejoin and integration -/

section
variable {c : Nat} (hc : c < 4) (d : Dev)
include hc

theorem canRejoin_shows (hst : d.get (pgCan c) CAN.BUS_STATE = 4) : let e := d.canRejoin c
    e.get (pgCan c) CAN.BUS_STATE = 5 ∧ e.get (pgCan c) CAN.REJ_CNT_SEQ = 0 ∧ d.keeps e [pgCan c, shp .slt] := by
  intro e
  have he : e = (d.put (pgCan c) CAN.REJ_CNT_SEQ 0).canState c 5 := if_pos hst
  rw [he]
  refine ⟨bus_canState_lt _ hc (by decide), ?_, keeps_trans ((keeps_put_iff (by simp) (by decide) (by decide) (by decide)).mpr (keeps_refl d _)) (keeps_canState _ 5)⟩
  rw [get_canState _ 5 (pgCan_ne_slt hc) (by decide) (by decide) (by decide) (by decide), get_put_same _ _ _ _ _ _ (by decide)]
  rfl

/-- The end of a rejoin. -/
def rejoined (d : Dev) (c : Nat) : Dev :=
  ((((d.put (pgCan c) CAN.REJ_CNT_SEQ 128).put (pgCan c) CAN.ERRC_TEC 0).put (pgCan c) CAN.ERRC_REC 0).modCan c (fun x => { x with keptOff := false })).canState c 2

theorem rejoined_shows (hl : c < d.can.length) : let e := d.rejoined c
    e.get (pgCan c) CAN.BUS_STATE = 2 ∧ e.get (pgCan c) CAN.ERRC_TEC = 0 ∧ e.get (pgCan c) CAN.ERRC_REC = 0 ∧ (e.canCh c).keptOff = false ∧
      d.keeps e [pgCan c, shp .slt] := by
  intro e
  obtain ⟨m, hm⟩ : ∃ m, m = (((d.put (pgCan c) CAN.REJ_CNT_SEQ 128).put (pgCan c) CAN.ERRC_TEC 0).put (pgCan c) CAN.ERRC_REC 0).modCan c
    (fun x => { x with keptOff := false }) := ⟨_, rfl⟩
  have he : e = m.canState c 2 := by rw [hm]; rfl
  have hk : d.keeps m [pgCan c, shp .slt] := by
    rw [hm]
    simp (disch := first | decide | simp) [keeps_put_iff]
  have hkept : (m.canCh c).keptOff = false := by
    rw [hm, canCh_modCan _ (by simpa using hl)]
  rw [he]
  refine ⟨bus_canState_lt _ hc (by decide), ?_, ?_, (congrArg CanCh.keptOff (besideArm_canState m (c := c) 2) :).trans hkept, keeps_trans hk (keeps_canState _ 2)⟩
  · rw [get_canState _ 2 (pgCan_ne_slt hc) (by decide) (by decide) (by decide) (by decide), hm]
    simp (disch := decide) only [get_modCan, get_put_apart, get_put_same]
    decide
  · rw [get_canState _ 2 (pgCan_ne_slt hc) (by decide) (by decide) (by decide) (by decide), hm]
    simp (disch := decide) only [get_modCan, get_put_same]
    decide

theorem canIntegrated_shows (hst : d.get (pgCan c) CAN.BUS_STATE = 1) : let e := d.canIntegrated c
    d.keeps e [pgCan c, shp .slt] ∧ e.get (pgCan c) CAN.BUS_STATE =
      (if (d.canCh c).keptOff then 4 else if d.get (pgCan c) CAN.ERRC_TEC > 127 ∨ d.get (pgCan c) CAN.ERRC_REC > 127 then 3 else 2) := by
  intro e
  have he : e = d.canState c (if (d.canCh c).keptOff then 4 else if d.get (pgCan c) CAN.ERRC_TEC > 127 ∨ d.get (pgCan c) CAN.ERRC_REC > 127 then 3 else 2) := by
    refine (if_neg (not_not.mpr hst)).trans ?_
    cases (d.canCh c).keptOff <;> rfl
  rw [he]
  refine ⟨keeps_canState .., bus_canState_lt _ hc ?_⟩
  split
  · decide
  · split <;> decide

end

/-! ### Stations -/

/-- The states of the stations as they are listed. -/
def rsmFields : List Fld := [RSM.DOWN_BITS, RSM.COUNT_UP, RSM.COUNT_EN]

theorem rsmShow_leaves (d : Dev) : d.keeps d.rsmShow [shp .rsm] ∧
    ∀ (f : Fld) (t : Nat), (∀ g ∈ rsmFields, g.apart f = true) → f.fits = true → 0 < f.cnt → t < 65536 → d.rsmShow.get (shp .rsm) f 0 t = d.get (shp .rsm) f 0 t := by
  have hcnt {i : Nat} (hi : i < 9) : i < RSM.DOWN_BITS.cnt := hi
  constructor
  · unfold rsmShow
    dsimp only
    rw [keeps_put_iff (by simp) (by decide) (by decide) (by decide), keeps_put_iff (by simp) (by decide) (by decide) (by decide)]
    exact keeps_foldl _ _ fun e i hi => (keeps_put_iff (by simp) (by decide) (hcnt (List.mem_range.mp hi)) (by decide)).mpr (keeps_refl e _)
  · intro f t ha hf hi ht
    unfold rsmShow
    dsimp only
    rw [get_put_apart _ _ (ha _ (by simp [rsmFields])) (by decide) hf (by decide) hi (by decide) ht,
      get_put_apart _ _ (ha _ (by simp [rsmFields])) (by decide) hf (by decide) hi (by decide) ht]
    exact foldl_off (g := fun d : Dev => d.get (shp .rsm) f 0 t) _ _ fun e i hi' =>
      get_put_apart _ _ (ha _ (by simp [rsmFields])) (by decide) hf (hcnt (List.mem_range.mp hi')) hi (by decide) ht

/-- A station that goes DOWN. -/
theorem rsmDown_shows (d : Dev) {k : Nat} (hk : k < 288) : let e := d.rsmDown k
    d.keeps e [shp .rsm, shp .slt] ∧ e.get (shp .rsm) RSM.STN_ST_STATE 0 k = 1 ∧ e.get (shp .rsm) RSM.STN_ST_UPRUN 0 k = 0 ∧
      e.get (shp .rsm) RSM.STN_ST_MISS 0 k = d.get (shp .rsm) RSM.STN_ST_MISS 0 k ∧
      (d.get (shp .rsm) RSM.STN_ST_STATE 0 k = 2 → e.get (shp .rsm) HDR.ERR_CODE = cRS_DOWN) := by
  intro e
  have hkt : k < 65536 := by omega
  obtain ⟨m, hm⟩ : ∃ m, m = (d.put (shp .rsm) RSM.STN_ST_STATE 1 0 k).put (shp .rsm) RSM.STN_ST_UPRUN 0 0 k := ⟨_, rfl⟩
  have he : e = if d.get (shp .rsm) RSM.STN_ST_STATE 0 k = 2 then ((m.bump (shp .rsm) RSM.STN_ST_DOWNS 0 k).stat (shp .rsm) 0).fault (shp .rsm) cRS_DOWN k else m := by
    rw [hm]
    rfl
  have hmk : d.keeps m [shp .rsm, shp .slt] := by
    rw [hm]
    simp (disch := first | decide | assumption | simp) [keeps_put_iff]
  have hstate : m.get (shp .rsm) RSM.STN_ST_STATE 0 k = 1 := by
    simp (disch := first | decide | assumption) only [hm, get_put_apart, get_put_same]
    decide
  have hrun : m.get (shp .rsm) RSM.STN_ST_UPRUN 0 k = 0 := by
    simp (disch := first | decide | assumption) only [hm, get_put_same]
    decide
  have hmiss : m.get (shp .rsm) RSM.STN_ST_MISS 0 k = d.get (shp .rsm) RSM.STN_ST_MISS 0 k := by
    simp (disch := first | decide | assumption) only [hm, get_put_apart]
  rw [he]
  split
  · refine ⟨?_, ?_, ?_, ?_, fun _ => fault_code _ _ _ _ (by decide)⟩
    · rw [keeps_fault_iff (by simp) (by simp), keeps_stat_iff (by simp), bump, keeps_put_iff (by simp) (by decide) (by decide) hkt]
      exact hmk
    · rw [get_fault_apart _ (by decide) (by decide) (by decide) (by decide) (by decide) (by decide) hkt]
      simp (disch := first | decide | assumption) only [bump, get_stat_apart, get_put_apart]
      exact hstate
    · rw [get_fault_apart _ (by decide) (by decide) (by decide) (by decide) (by decide) (by decide) hkt]
      simp (disch := first | decide | assumption) only [bump, get_stat_apart, get_put_apart]
      exact hrun
    · rw [get_fault_apart _ (by decide) (by decide) (by decide) (by decide) (by decide) (by decide) hkt]
      simp (disch := first | decide | assumption) only [bump, get_stat_apart, get_put_apart]
      exact hmiss
  · exact ⟨hmk, hstate, hrun, hmiss, fun h => absurd h ‹_›⟩

end Dev

/-! ### The obligation -/

section
variable {s : State} (hout : s.out = true)

theorem can_of_shaped {d : Dev} (h : d.shaped = true) (c : Fin 4) : c.val < d.can.length := by
  simp only [Dev.shaped, Bool.and_eq_true, beq_iff_eq] at h
  simp [h]

include hout

theorem canBusError_exec (c : Fin 4) (tx inData dom : Bool) (lec : BitVec 3) :
    (s.dev.canLive c = false → exec (.canBusError c tx lec inData dom) s = .next s) ∧
    (s.dev.canLive c = true → ∃ t, exec (.canBusError c tx lec inData dom) s = .next t ∧ t.pending = s.pending ∧
      t.dev.get (pgCan c) CAN.LEC_CODE = lec.toNat ∧ t.dev.on (pgCan c) CAN.LEC_DATA = inData ∧
      t.dev.get (pgCan c) CAN.ERRC_TEC = (if s.dev.get (pgCan c) CAN.MODE_OP = 0 ∧ tx = true ∧
        ¬ (lec.toNat = 3 ∧ s.dev.get (pgCan c) CAN.BUS_STATE = 3 ∧ dom = false) then satU 9 (s.dev.get (pgCan c) CAN.ERRC_TEC + 8)
        else s.dev.get (pgCan c) CAN.ERRC_TEC) ∧
      t.dev.get (pgCan c) CAN.ERRC_REC = (if s.dev.get (pgCan c) CAN.MODE_OP = 0 ∧ tx = false then
        satU 8 (s.dev.get (pgCan c) CAN.ERRC_REC + (if dom then 8 else 1)) else s.dev.get (pgCan c) CAN.ERRC_REC) ∧
      t.dev.get (pgCan c) CAN.BUS_STATE = (if s.dev.get (pgCan c) CAN.BUS_STATE ≠ 2 ∧ s.dev.get (pgCan c) CAN.BUS_STATE ≠ 3 then s.dev.get (pgCan c) CAN.BUS_STATE
        else if t.dev.get (pgCan c) CAN.ERRC_TEC > 255 then 4
        else if t.dev.get (pgCan c) CAN.ERRC_TEC > 127 ∨ t.dev.get (pgCan c) CAN.ERRC_REC > 127 then 3 else 2) ∧
      s.dev.keeps t.dev [pgCan c, shp .slt]) := by
  refine ⟨fun hl => ?_, fun hl => ?_⟩
  · refine next_of_out_eq hout rfl ((Dev.canError_eq ..).trans (if_pos ?_))
    rw [hl]
    rfl
  · obtain ⟨h1, h2, h3, h4, h5, h6⟩ := Dev.canError_shows s.dev c.isLt tx lec inData dom hl
    exact ⟨_, next_of_out hout rfl, rfl, h1, h2, h3, h4, h5, h6⟩

theorem canLonely_exec (c : Fin 4) :
    if s.dev.get (pgCan c) CAN.LONELY_N = 0 ∨ s.dev.get (pgCan c) CAN.BUS_ACKRUN < s.dev.get (pgCan c) CAN.LONELY_N ∨ s.dev.on (pgCan c) CAN.BUS_LONELY = true then
      exec (.canLonely c) s = .next s
    else ∃ t, exec (.canLonely c) s = .next t ∧ t.pending = s.pending ∧ t.dev.get (pgCan c) CAN.BUS_LONELY = 1 ∧
      t.dev.get (pgCan c) HDR.ERR_CODE = cCAN_LONELY ∧ s.dev.keeps t.dev [pgCan c, shp .slt] := by
  split
  case isTrue h => exact next_of_out_eq hout rfl ((Dev.canLonely_eq s.dev c).trans (if_pos h))
  case isFalse h =>
    have he := (Dev.canLonely_eq s.dev c).trans (if_neg h)
    refine ⟨_, next_of_out_eq hout rfl he, rfl, ?_, Dev.fault_code _ _ _ _ (Dev.pgCan_ne_slt c.isLt), he ▸ Dev.keeps_canLonely s.dev⟩
    rw [State.dev_mk, Dev.get_fault_apart _ (Dev.pgCan_ne_slt c.isLt) (by decide) (by decide) (by decide) (by decide) (by decide) (by decide)]
    simp (disch := decide) only [Dev.get_stat_apart, Dev.get_put_same]
    decide

theorem canRejoin_exec (c : Fin 4) (hshape : s.dev.shaped = true) :
    (if s.dev.get (pgCan c) CAN.BUS_STATE = 4 then ∃ t, exec (.canRejoin c) s = .next t ∧ t.pending = s.pending ∧ t.dev.get (pgCan c) CAN.BUS_STATE = 5 ∧
        t.dev.get (pgCan c) CAN.REJ_CNT_SEQ = 0 ∧ s.dev.keeps t.dev [pgCan c, shp .slt]
     else exec (.canRejoin c) s = .next s) ∧
    (if s.dev.get (pgCan c) CAN.BUS_STATE = 5 then ∃ t, exec (.canRejoinDone c) s = .next t ∧ t.pending = s.pending ∧ t.dev.get (pgCan c) CAN.BUS_STATE = 2 ∧
        t.dev.get (pgCan c) CAN.ERRC_TEC = 0 ∧ t.dev.get (pgCan c) CAN.ERRC_REC = 0 ∧ (t.dev.canCh c).keptOff = false ∧ s.dev.keeps t.dev [pgCan c, shp .slt]
     else exec (.canRejoinDone c) s = .next s) ∧
    (if s.dev.get (pgCan c) CAN.BUS_STATE = 1 then ∃ t, exec (.canIntegrated c) s = .next t ∧ t.pending = s.pending ∧ s.dev.keeps t.dev [pgCan c, shp .slt] ∧
        t.dev.get (pgCan c) CAN.BUS_STATE = (if (s.dev.canCh c).keptOff then 4
          else if s.dev.get (pgCan c) CAN.ERRC_TEC > 127 ∨ s.dev.get (pgCan c) CAN.ERRC_REC > 127 then 3 else 2)
     else exec (.canIntegrated c) s = .next s) := by
  refine ⟨?_, ?_, ?_⟩
  · split
    case isTrue h =>
      obtain ⟨h1, h2, h3⟩ := Dev.canRejoin_shows c.isLt s.dev h
      exact ⟨_, next_of_out hout rfl, rfl, h1, h2, h3⟩
    case isFalse h => exact next_of_out_eq hout rfl (if_neg h)
  · split
    case isTrue h =>
      obtain ⟨h1, h2, h3, h4, h5⟩ := Dev.rejoined_shows c.isLt s.dev (can_of_shaped hshape c)
      exact ⟨_, next_of_out_eq (e' := s.dev.rejoined c) hout rfl (if_pos h), rfl, h1, h2, h3, h4, h5⟩
    case isFalse h => exact next_of_out_eq hout rfl (if_neg h)
  · split
    case isTrue h =>
      obtain ⟨h1, h2⟩ := Dev.canIntegrated_shows c.isLt s.dev h
      exact ⟨_, next_of_out hout rfl, rfl, h1, h2⟩
    case isFalse h => exact next_of_out_eq hout rfl (if_pos h)

/-- A FRAME event numbers itself, and what may start begins. -/
theorem frameEvent_exec (c : Fin 4) (hshape : s.dev.shaped = true) (hs : ∀ e ∈ s.dev.shadow, e.page ≠ pgCan c) (start : Bool) :
    ∃ t, exec (.frameEvent c start) s = .next t ∧ t.pending = s.pending ∧
      (t.dev.canCh c).begun = (match start, s.dev.canMay c with | true, some b => some b | _, _ => (s.dev.canCh c).begun) ∧
      (∀ b, start = true → s.dev.canMay c = some b → (t.dev.canCh c).run = some (s.dev.canFrame c b)) ∧
      t.dev.get (pgCan c) HDR.COMMIT_SEQ = ((s.dev.canCh c).frames + 1) % 65536 ∧ s.dev.keeps t.dev [pgCan c] := by
  obtain ⟨m, b, hm, hb, he, hseq⟩ := Dev.canFrameEvent_quiet s.dev c hs false
  obtain ⟨e, hed⟩ : ∃ e, e = s.dev.canFrameEvent c false := ⟨_, rfl⟩
  rw [← hed] at he hseq
  have hl := can_of_shaped hshape c
  have hlm : c.val < m.can.length := hm.can ▸ hl
  have hch : e.canCh c = { s.dev.canCh c with frames := s.dev.nextFrame c } := by
    rw [Dev.canCh_congr he.can, hb, Dev.canCh_modCan m hlm, Dev.canCh_congr hm.can]
  have hle : c.val < e.can.length := by
    rw [he.can, hb, Dev.modCan, length_lmod]
    exact hlm
  have hk : s.dev.keeps e [pgCan c] := Dev.keeps_trans hm.keeps (Dev.keeps_trans (hb ▸ Dev.keeps_refl m _) he.keeps)
  have hbr (f : Fld) (i t : Nat) : b.get (pgCan c) f i t = m.get (pgCan c) f i t := by rw [hb, Dev.get_modCan]
  obtain ⟨hmay, hframe, -⟩ := Dev.canMay_congr (d := s.dev) (e := e) c.isLt hk
    (fun f hf => (he.low f hf).trans ((hbr f 0 0).trans (hm.low f hf))) (fun f hf i t => (he.get hf i t).trans ((hbr f i t).trans (hm.get hf i t)))
    (by rw [hch]; exact ⟨rfl, rfl, rfl, rfl⟩)
  have hexec : exec (.frameEvent c start) s = .next { s with dev := if start then e.canStart c else e } := by
    rw [hed]
    exact next_of_out hout rfl
  cases start
  · refine ⟨_, hexec, rfl, ?_, fun b hst => absurd hst (by decide), hseq, hk⟩
    show (e.canCh c).begun = _
    rw [hch]
  · obtain ⟨h1, -, -, -, h5, h6⟩ := Dev.canStart_leaves hle
    refine ⟨_, hexec, rfl, ?_, fun b _ hb => ?_, ?_, Dev.keeps_trans hk (Dev.keeps_canStart e c _)⟩
    · show ((e.canStart c).canCh c).begun = _
      rw [h5, hmay, hch]
      cases s.dev.canMay c <;> rfl
    · show ((e.canStart c).canCh c).run = _
      rw [h6 b (hmay.trans hb), hframe]
    · show (e.canStart c).get _ _ = _
      rw [Dev.get, h1]
      exact hseq

/-- A basic cycle: its FRAME event, its row, and the matrix in force. -/
theorem ttBasicCycle_exec (c : Fin 4) (hshape : s.dev.shaped = true) (hs : ∀ e ∈ s.dev.shadow, e.page ≠ pgCan c) (busy : Bool)
    (hrun : s.dev.get (pgCan c) CAN.TT_CFG_ROWS ≠ 0 ∨ (s.dev.canCh c).mat.isSome = true) :
    let rows := s.dev.get (pgCan c) CAN.TT_CFG_ROWS
    let row := if (s.dev.canCh c).changed = true ∨ rows = 0 then 0 else (s.dev.get (pgCan c) CAN.TT_ROW_IDX + 1) % rows
    ∃ t, exec (.ttBasicCycle ⟨c, busy⟩) s = .next t ∧ t.pending = s.pending ∧ (t.dev.canCh c).col = none ∧
      t.dev.get (pgCan c) CAN.TT_ROW_IDX = row % 2 ^ 6 ∧ (t.dev.canCh c).mat = s.dev.canMat c row ∧ (t.dev.canCh c).changed = false ∧
      t.dev.get (pgCan c) HDR.COMMIT_SEQ = ((s.dev.canCh c).frames + 1) % 65536 ∧ s.dev.keeps t.dev [pgCan c] := by
  intro rows row
  obtain ⟨m, b, hm, hb, he, hseq⟩ := Dev.canFrameEvent_quiet s.dev c hs busy
  obtain ⟨e, hed⟩ : ∃ e, e = s.dev.canFrameEvent c busy := ⟨_, rfl⟩
  rw [← hed] at he hseq
  have hl := can_of_shaped hshape c
  have hlm : c.val < m.can.length := hm.can ▸ hl
  have hch : e.canCh c = { s.dev.canCh c with frames := s.dev.nextFrame c } := by
    rw [Dev.canCh_congr he.can, hb, Dev.canCh_modCan m hlm, Dev.canCh_congr hm.can]
  have hle : c.val < e.can.length := by
    rw [he.can, hb, Dev.modCan, length_lmod]
    exact hlm
  have hk : s.dev.keeps e [pgCan c] := Dev.keeps_trans hm.keeps (Dev.keeps_trans (hb ▸ Dev.keeps_refl m _) he.keeps)
  have hbr (f : Fld) (i t : Nat) : b.get (pgCan c) f i t = m.get (pgCan c) f i t := by rw [hb, Dev.get_modCan]
  have hhigh (f : Fld) (hf : 0x70 ≤ f.off) (i t : Nat) : e.get (pgCan c) f i t = s.dev.get (pgCan c) f i t :=
    (he.get hf i t).trans ((hbr f i t).trans (hm.get hf i t))
  obtain ⟨-, -, hmat⟩ := Dev.canMay_congr (d := s.dev) (e := e) c.isLt hk (fun f hf => (he.low f hf).trans ((hbr f 0 0).trans (hm.low f hf))) hhigh
    (by rw [hch]; exact ⟨rfl, rfl, rfl, rfl⟩)
  have hrow : (if (e.canCh c).changed ∨ e.get (pgCan c) CAN.TT_CFG_ROWS = 0 then 0
      else (e.get (pgCan c) CAN.TT_ROW_IDX + 1) % e.get (pgCan c) CAN.TT_CFG_ROWS) = row := by
    rw [hhigh CAN.TT_CFG_ROWS (by decide), hhigh CAN.TT_ROW_IDX (by decide), hch]
  have hcycle : s.dev.canBasicCycle c busy = (e.put (pgCan c) CAN.TT_ROW_IDX row).modCan c
      (fun x => { x with mat := s.dev.canMat c row, changed := false, col := none, arm := none }) := by
    rw [Dev.canBasicCycle]
    refine (if_neg ?_).trans ?_
    · rcases hrun with h | h
      · simp [h]
      · cases hmat' : (s.dev.canCh c).mat with
        | none => simp [hmat'] at h
        | some m => simp
    · dsimp only
      rw [← hed, hrow, hmat]
  have hlp : c.val < (e.put (pgCan c) CAN.TT_ROW_IDX row).can.length := hle
  refine ⟨_, next_of_out_eq hout rfl hcycle, rfl, ?_, Dev.get_put_same _ _ _ _ _ _ (by decide), ?_, ?_, ?_,
    Dev.keeps_trans hk ((Dev.keeps_put_iff (by simp) (by decide) (by decide) (by decide)).mpr (Dev.keeps_refl e _))⟩
  · rw [State.dev_mk, Dev.canCh_modCan _ hlp]
  · rw [State.dev_mk, Dev.canCh_modCan _ hlp]
  · rw [State.dev_mk, Dev.canCh_modCan _ hlp]
  · rw [State.dev_mk, Dev.get_modCan, Dev.get_put_apart _ _ (by decide) (by decide) (by decide) (by decide) (by decide) (by decide) (by decide)]
    exact hseq

theorem ttColumnStart_exec (c : Fin 4) (hshape : s.dev.shaped = true) (col : Fin 32) (start : Bool) :
    ((s.dev.canCh c).mat.all (fun m => decide (col.val ≥ m.cols)) = true → exec (.ttColumnStart c col start) s = .next s) ∧
    (∀ m : TtRow, (s.dev.canCh c).mat = some m → col.val < m.cols →
      let b := m.cells.getD col 0xFF
      ∃ t, exec (.ttColumnStart c col start) s = .next t ∧ t.pending = s.pending ∧ (t.dev.canCh c).col = some col.val ∧
      (t.dev.canCh c).arm = (if b < 128 ∧ s.dev.canPend c b = true then some b else none) ∧
      (b = 0xFE → (t.dev.canCh c).begun = (s.dev.canCh c).begun) ∧ (start = false → (t.dev.canCh c).begun = (s.dev.canCh c).begun) ∧
      (start = true → b < 128 → s.dev.canPend c b = true → (s.dev.canCh c).begun = none → s.dev.canWhyNot c = none → s.dev.get (pgCan c) CAN.BUS_STATE ≠ 1 →
        (t.dev.canCh c).begun = some b) ∧ t.dev.regs = s.dev.regs ∧ t.dev.memories = s.dev.memories) := by
  refine ⟨fun h => next_of_out_eq hout rfl (Dev.canColumn_off s.dev start h), fun m hm hcol => ?_⟩
  intro b
  have hl := can_of_shaped hshape c
  have hx : (s.dev.columnStarted c col b).canCh c =
      { s.dev.canCh c with col := some col.val, arm := if decide (b < 128) && s.dev.canPend c b then some b else none } := Dev.canCh_modCan s.dev hl _
  have hle : c.val < (s.dev.columnStarted c col b).can.length := by
    rw [Dev.columnStarted, Dev.modCan, length_lmod]
    exact hl
  have harm : ((s.dev.columnStarted c col b).canCh c).arm = if b < 128 ∧ s.dev.canPend c b = true then some b else none := by
    rw [hx]
    simp
  obtain ⟨hfe, hmay⟩ := Dev.canMay_columnStarted s.dev hl hm b rfl
  have hexec := next_of_out_eq (o := exec (.ttColumnStart c col start) s) hout rfl (Dev.canColumn_eq s.dev start hm hcol)
  cases start
  · have hbegun : ((s.dev.columnStarted c col b).canCh c).begun = (s.dev.canCh c).begun := by rw [hx]
    have hcols : ((s.dev.columnStarted c col b).canCh c).col = some col.val := by rw [hx]
    exact ⟨_, hexec, rfl, hcols, harm, fun _ => hbegun, fun _ => hbegun, fun h => absurd h (by decide), rfl, rfl⟩
  · obtain ⟨h1, h2, h3, h4, h5, -⟩ := Dev.canStart_leaves hle
    refine ⟨_, hexec, rfl, ?_, h4.trans harm, fun h => ?_, fun h => absurd h (by decide), fun _ hb hp hn hw hst => ?_, h1, h2⟩
    · exact h3.trans (by rw [hx])
    · exact h5.trans (by rw [hfe h, hx])
    · exact h5.trans (by rw [hmay hb hp hn hw hst])

theorem stationPeriodMiss_exec (k : Fin 288) : let m := s.dev.get (shp .rsm) RSM.STN_ST_MISS 0 k + 1
    if s.dev.enabled (shp .rsm) = false ∨ s.dev.on (shp .rsm) RSM.STN_CFG_EN 0 k = false then exec (.stationPeriodMiss k) s = .next s
    else ∃ t, exec (.stationPeriodMiss k) s = .next t ∧ t.pending = s.pending ∧ s.dev.keeps t.dev [shp .rsm, shp .slt] ∧
      t.dev.get (shp .rsm) RSM.STN_ST_MISS 0 k = (if m ≥ 3 then 3 else m) ∧ t.dev.get (shp .rsm) RSM.STN_ST_UPRUN 0 k = 0 ∧
      t.dev.get (shp .rsm) RSM.STN_ST_STATE 0 k = (if m ≥ 3 then 1 else s.dev.get (shp .rsm) RSM.STN_ST_STATE 0 k) ∧
      (m ≥ 3 → s.dev.get (shp .rsm) RSM.STN_ST_STATE 0 k = 2 → t.dev.get (shp .rsm) HDR.ERR_CODE = cRS_DOWN) := by
  intro m
  have hkt : k.val < 65536 := by omega
  split
  case isTrue h => exact next_of_out_eq hout rfl (if_pos (by rcases h with h | h <;> simp [h]))
  case isFalse h =>
    obtain ⟨e, he⟩ : ∃ e, e = (s.dev.put (shp .rsm) RSM.STN_ST_MISS (if m > 3 then 3 else m) 0 k).put (shp .rsm) RSM.STN_ST_UPRUN 0 0 k := ⟨_, rfl⟩
    have hmiss : s.dev.rsmMiss k = if m ≥ 3 then (e.rsmDown k).rsmShow else e := by
      rw [he]
      exact if_neg (by simpa [not_or] using h)
    have hk : s.dev.keeps e [shp .rsm, shp .slt] := by
      rw [he]
      simp (disch := first | decide | assumption | simp) [Dev.keeps_put_iff]
    have hm' : e.get (shp .rsm) RSM.STN_ST_MISS 0 k = if m ≥ 3 then 3 else m := by
      simp (disch := first | decide | assumption) only [he, Dev.get_put_apart, Dev.get_put_same]
      have hw : 2 ^ RSM.STN_ST_MISS.w = 4 := rfl
      rw [hw]
      split_ifs <;> omega
    have hst : e.get (shp .rsm) RSM.STN_ST_STATE 0 k = s.dev.get (shp .rsm) RSM.STN_ST_STATE 0 k := by
      simp (disch := first | decide | assumption) only [he, Dev.get_put_apart]
    refine ⟨_, next_of_out_eq hout rfl hmiss, rfl, ?_⟩
    rw [State.dev_mk]
    by_cases h3 : m ≥ 3
    · rw [if_pos h3, if_pos h3, if_pos h3]
      rw [if_pos h3] at hm'
      obtain ⟨k1, k2, k3, k4, k5⟩ := Dev.rsmDown_shows e k.isLt
      obtain ⟨l1, l2⟩ := Dev.rsmShow_leaves (e.rsmDown k)
      refine ⟨Dev.keeps_trans hk (Dev.keeps_trans k1 (Dev.keeps_mono l1 (by simp))), ?_, ?_, ?_, fun _ h2 => ?_⟩
      · rw [l2 _ _ (by decide) (by decide) (by decide) hkt, k4, hm']
      · rw [l2 _ _ (by decide) (by decide) (by decide) hkt, k3]
      · rw [l2 _ _ (by decide) (by decide) (by decide) hkt, k2]
      · rw [l2 _ _ (by decide) (by decide) (by decide) (by decide), k5 (hst.trans h2)]
    · rw [if_neg h3, if_neg h3, if_neg h3]
      rw [if_neg h3] at hm'
      refine ⟨hk, hm', ?_, hst, fun h => absurd h h3⟩
      rw [he, Dev.get_put_same _ _ _ _ _ _ (by decide)]
      rfl

end

/-- Settles O47: bus errors, the states of a controller, its FRAME events and schedule, and the stations, command by command. -/
theorem canStatesAndSchedule : Obligations.CanStatesAndSchedule := by
  unfold Obligations.CanStatesAndSchedule
  intro s c hout hshape p st
  obtain ⟨h1, h2, h3⟩ := canRejoin_exec hout c hshape
  refine ⟨fun tx inData dom lec => canBusError_exec hout c tx inData dom lec, canLonely_exec hout c, h1, h2, h3,
    fun hs => ⟨frameEvent_exec hout c hshape hs, fun busy hrun => ttBasicCycle_exec hout c hshape hs busy hrun⟩, fun hrows hmat busy => ?_,
    fun col start => ttColumnStart_exec hout c hshape col start, fun b hb => ?_, stationPeriodMiss_exec hout⟩
  · exact next_of_out_eq hout rfl (if_pos (by simp [p] at hrows; simp [hrows, hmat]))
  · obtain ⟨k1, k2, k3, k4⟩ := Dev.canWindowEnd_shows s.dev (can_of_shaped hshape c) b hb
    exact ⟨_, next_of_out hout rfl, rfl, k1, k2, k3, k4⟩

end Sys2Proof.Machine
end

section
/-! PROOFS. The frames of a CAN controller: requests, attempts, cancels, the receive queue and its acknowledgement. -/
namespace Sys2Proof.Machine

open Sys2Proof

/-- Of steps over the first indices only one acts. -/
theorem foldl_range_single {β : Type} {f : β → Nat → β} {b : Nat} : ∀ (n : Nat) (d : β), (∀ d, ∀ i < n, i ≠ b → f d i = d) →
    (List.range n).foldl f d = if b < n then f d b else d
  | 0, d, _ => by simp
  | n + 1, d, hoff => by
    rw [List.range_succ, List.foldl_append, List.foldl_cons, List.foldl_nil, foldl_range_single n d fun d i hi => hoff d i (by omega)]
    rcases Nat.lt_trichotomy b n with h | rfl | h
    · rw [if_pos h, if_pos (by omega), hoff _ n (by omega) (by omega)]
    · rw [if_neg (by omega), if_pos (by omega)]
    · rw [if_neg (by omega), if_neg (by omega), hoff _ n (by omega) (by omega)]

theorem bitN_two_pow (b i : Nat) : bitN (2 ^ b) i = if i = b then 1 else 0 := by
  rw [bitN_eq_testBit, Nat.testBit_two_pow]
  by_cases h : b = i
  · simp [h]
  · simp [h, Ne.symm h]

namespace Dev

section
variable (d : Dev) {c : Nat}

theorem canReqs_single (q : Nat) (b : Fin 32) : d.canReqs c q (BitVec.ofNat 32 (2 ^ b.val)).toNat = d.canReq c (32 * q + b) := by
  have hbits : (BitVec.ofNat 32 (2 ^ b.val)).toNat = 2 ^ b.val := by
    rw [BitVec.toNat_ofNat]
    exact Nat.mod_eq_of_lt (Nat.pow_lt_pow_right (by decide) b.isLt)
  rw [canReqs, hbits, foldl_range_single (b := b.val) 32 d fun d i _ hi => if_neg (by rw [bitN_two_pow, if_neg hi]; decide), if_pos b.isLt, bitN_two_pow, if_pos rfl, if_pos rfl]

theorem canCancels_single (q : Nat) (b : Fin 32) : d.canCancels c q (BitVec.ofNat 32 (2 ^ b.val)).toNat = d.canCancel c (32 * q + b) := by
  have hbits : (BitVec.ofNat 32 (2 ^ b.val)).toNat = 2 ^ b.val := by
    rw [BitVec.toNat_ofNat]
    exact Nat.mod_eq_of_lt (Nat.pow_lt_pow_right (by decide) b.isLt)
  rw [canCancels, hbits, foldl_range_single (b := b.val) 32 d fun d i _ hi => if_neg (by rw [bitN_two_pow, if_neg hi]; decide), if_pos b.isLt, bitN_two_pow, if_pos rfl, if_pos rfl]

/-! ### A request -/

/-- A request that waits. -/
def pended (d : Dev) (c b : Nat) : Dev := (d.putBit (pgCan c) CAN.TX_PEND_BITS (b % 32) true (b / 32)).put (pgCan c) CAN.TXB_ST_RESULT 1 0 b

theorem canPut_eq (b : Nat) : d.canPut c b = match (d.pended c b).canWhyNot c with | some w => (d.pended c b).canEnd c b 6 0 w | none => d.pended c b := rfl

theorem canWhyNot_congr {d e : Dev} (hq : e.holder? = d.holder?) (hb : e.get (pgCan c) CAN.BUS_STATE = d.get (pgCan c) CAN.BUS_STATE)
    (hm : e.get (pgCan c) CAN.MODE_OP = d.get (pgCan c) CAN.MODE_OP) : e.canWhyNot c = d.canWhyNot c := by
  rw [canWhyNot, canWhyNot, hq, hb, hm]

theorem canWhyNot_lt {w : Nat} (h : d.canWhyNot c = some w) : w < 16 := by
  unfold canWhyNot at h
  dsimp only at h
  split_ifs at h <;> simp at h <;> omega

variable {b : Nat} (hb : b < 128)
include hb

theorem pended_shows : (d.pended c b).canPend c b = true ∧ (d.pended c b).get (pgCan c) CAN.TXB_ST_RESULT 0 b = 1 ∧ d.keeps (d.pended c b) [pgCan c] ∧
    (d.pended c b).get (pgCan c) CAN.BUS_STATE = d.get (pgCan c) CAN.BUS_STATE ∧ (d.pended c b).get (pgCan c) CAN.MODE_OP = d.get (pgCan c) CAN.MODE_OP := by
  have hbt : b < 65536 := by omega
  have hw : b / 32 < CAN.TX_PEND_BITS.cnt := (by omega : b / 32 < 4)
  have hm : b % 32 < 32 := Nat.mod_lt _ (by decide)
  refine ⟨?_, get_put_same _ _ _ _ _ _ (by decide), ?_, ?_, ?_⟩
  · rw [canPend]
    simp (disch := first | decide | assumption) only [pended, putBit, get_put_apart, get_put_same]
    rw [bitN_eq_testBit, Nat.testBit_mod_two_pow, testBit_setBitN]
    simp [show CAN.TX_PEND_BITS.w = 32 from rfl, hm]
  · simp (disch := first | decide | assumption | simp) [pended, putBit, keeps_put_iff]
  · simp (disch := first | decide | assumption) only [pended, putBit, get_put_apart]
  · simp (disch := first | decide | assumption) only [pended, putBit, get_put_apart]

/-- What a request shows: it waits, or it has ended at once. -/
theorem canPut_shows (hc : c < 4) : let e := d.canPut c b
    (match d.canWhyNot c with
     | none => e.canPend c b = true ∧ e.get (pgCan c) CAN.TXB_ST_RESULT 0 b = 1
     | some w => e.canPend c b = false ∧ e.get (pgCan c) CAN.TXB_ST_RESULT 0 b = 6 ∧ e.get (pgCan c) CAN.TXB_ST_WHY 0 b = w ∧
         bitN (e.get (pgCan c) CAN.TX_FAIL_BITS (b / 32)) (b % 32) = 1) ∧ d.keeps e [pgCan c] := by
  intro e
  obtain ⟨h1, h2, h3, h4, h5⟩ := pended_shows d (c := c) hb
  have hwhy : (d.pended c b).canWhyNot c = d.canWhyNot c := canWhyNot_congr (holder_of_keeps h3 (by simpa using pgCan_ne_wir hc)).1 h4 h5
  have he : e = d.canPut c b := rfl
  rw [canPut_eq, hwhy] at he
  cases hw : d.canWhyNot c with
  | none =>
    rw [hw] at he
    rw [he]
    exact ⟨⟨h1, h2⟩, h3⟩
  | some w =>
    rw [hw] at he
    obtain ⟨k1, k2, -, k4, -, k6⟩ := canEnd_shows (d.pended c b) c 6 0 w hb
    rw [he]
    exact ⟨⟨k1, k2, k4.trans (Nat.mod_eq_of_lt (canWhyNot_lt d hw)), k6 (by decide)⟩, keeps_trans h3 (keeps_canEnd _ c 6 0 w hb)⟩

/-- An error of the controller leaves the requests. -/
theorem canPend_err (code x : Nat) : (d.err (pgCan c) code x).canPend c b = d.canPend c b := by
  have hw : b / 32 < CAN.TX_PEND_BITS.cnt := (by omega : b / 32 < 4)
  rw [canPend, canPend]
  simp (disch := first | decide | assumption) only [err, bump, get_put_apart]

theorem canReq_owned (hs : d.canSrc c b ≠ 0) : let e := d.canReq c b
    e.get (pgCan c) HDR.ERR_CODE = cCAN_TX_OWNED ∧ e.canPend c b = d.canPend c b ∧ d.keeps e [pgCan c] := by
  intro e
  have he : e = d.err (pgCan c) cCAN_TX_OWNED b := if_pos hs
  rw [he]
  refine ⟨?_, canPend_err d hb .., (keeps_err_iff (by simp)).mpr (keeps_refl d _)⟩
  simp (disch := decide) only [err, get_put_apart, get_put_same]
  decide

theorem canReq_bad (hs : d.canSrc c b = 0) (hp : d.canPend c b = false) (hh : d.canHeaderOk c b = false) : let e := d.canReq c b
    e.get (pgCan c) HDR.ERR_CODE = cRANGE ∧ e.canPend c b = false ∧ d.keeps e [pgCan c] := by
  intro e
  have he : e = d.err (pgCan c) cRANGE b := by
    show d.canReq c b = _
    rw [canReq, hp, hh]
    exact if_neg (not_not.mpr hs)
  rw [he]
  refine ⟨?_, (canPend_err d hb ..).trans hp, (keeps_err_iff (by simp)).mpr (keeps_refl d _)⟩
  simp (disch := decide) only [err, get_put_apart, get_put_same]
  decide

omit hb in
theorem canReq_again (hs : d.canSrc c b = 0) (hp : d.canPend c b = true) : d.canReq c b = d := by
  rw [canReq, hp]
  exact (if_neg (not_not.mpr hs)).trans rfl

omit hb in
theorem canReq_good (hs : d.canSrc c b = 0) (hp : d.canPend c b = false) (hh : d.canHeaderOk c b = true) : d.canReq c b = d.canPut c b := by
  rw [canReq, hp, hh]
  exact (if_neg (not_not.mpr hs)).trans rfl

end

/-! ### The receive queue -/

section
variable (d : Dev) {c : Nat}

/-- The words of an entry of the receive queue. -/
def rxWords (d : Dev) (f : Machine.Frame) (echo : Bool) (sof : Sof) : List Nat :=
  let ts := (d.now + 2 ^ 64 - sof.ago.toNat) % 2 ^ 64
  [f.id + f.ide.toNat * 2 ^ 29 + f.fdf.toNat * 2 ^ 30 + f.brs.toNat * 2 ^ 31,
    f.dlc + f.rtr.toNat * 2 ^ 4 + f.esi.toNat * 2 ^ 5 + echo.toNat * 2 ^ 6 + f.len * 2 ^ 8 + sof.sub.toNat * 2 ^ 20, ts % 2 ^ 32, ts / 2 ^ 32] ++
    (List.range 16).map (fun i => leAt (takeZ f.len f.data) (4 * i) 4)

/-- The words of an entry written, one after another. -/
def rxWord (c e : Nat) (ws : List Nat) (d : Dev) (i : Nat) : Dev := d.put (pgCan c) CAN.RXE_W (ws.getD i 0) i e

/-- The queue's registers after an entry. -/
def rxMoved (d : Dev) (c e n : Nat) : Dev :=
  let d := (d.put (pgCan c) CAN.RX_HEAD_IDX (e + 1)).put (pgCan c) CAN.RX_OWNED_N (n + 1)
  let d := if d.get (pgCan c) CAN.RX_HWM_N < n + 1 then d.put (pgCan c) CAN.RX_HWM_N (n + 1) else d
  if n = 0 then d.stat (pgCan c) 4 else d

theorem canQueue_eq (f : Machine.Frame) (echo : Bool) (sof : Sof) : d.canQueue c f echo sof =
    if d.get (pgCan c) CAN.RX_OWNED_N ≥ 1024 then ((d.bump (pgCan c) CAN.RX_DROP_COUNT).err (pgCan c) cCAN_RX_DROP).stat (pgCan c) 0
    else ((List.range 20).foldl (rxWord c (d.get (pgCan c) CAN.RX_HEAD_IDX) (d.rxWords f echo sof)) d).rxMoved c (d.get (pgCan c) CAN.RX_HEAD_IDX)
      (d.get (pgCan c) CAN.RX_OWNED_N) := rfl

theorem rxWords_first (f : Machine.Frame) (echo : Bool) (sof : Sof) : let ts := (d.now + 2 ^ 64 - sof.ago.toNat) % 2 ^ 64
    (d.rxWords f echo sof).getD 0 0 = f.id + f.ide.toNat * 2 ^ 29 + f.fdf.toNat * 2 ^ 30 + f.brs.toNat * 2 ^ 31 ∧
    (d.rxWords f echo sof).getD 1 0 = f.dlc + f.rtr.toNat * 2 ^ 4 + f.esi.toNat * 2 ^ 5 + echo.toNat * 2 ^ 6 + f.len * 2 ^ 8 + sof.sub.toNat * 2 ^ 20 ∧
    (d.rxWords f echo sof).getD 2 0 = ts % 2 ^ 32 ∧ (d.rxWords f echo sof).getD 3 0 = ts / 2 ^ 32 := by
  intro ts
  simp only [rxWords, List.cons_append, List.nil_append, List.getD_cons_zero, List.getD_cons_succ, ts, and_self]

theorem can_canQueue (f : Machine.Frame) (echo : Bool) (sof : Sof) : (d.canQueue c f echo sof).can = d.can := by
  have hfold (e : Nat) (ws : List Nat) : ((List.range 20).foldl (rxWord c e ws) d).can = d.can := foldl_off (g := Dev.can) _ _ fun _ _ _ => rfl
  have hmoved (x : Dev) (e n : Nat) : (x.rxMoved c e n).can = x.can := by
    unfold rxMoved
    dsimp only
    split <;> split <;> rfl
  rw [canQueue_eq]
  split
  · rfl
  · rw [hmoved, hfold]

/-- The registers that an entry of the queue moves, beside its words. -/
def rxFields : List Fld :=
  [CAN.RX_HEAD_IDX, CAN.RX_OWNED_N, CAN.RX_HWM_N, CAN.RX_DROP_COUNT, HDR.STAT_BLOCK, HDR.ERR_COUNT, HDR.ERR_CODE, HDR.ERR_DETAIL]

theorem get_rxMoved (x : Dev) {e n : Nat} {q : Nat} {f : Fld} {i t : Nat} (ha : ∀ g ∈ [CAN.RX_HEAD_IDX, CAN.RX_OWNED_N, CAN.RX_HWM_N, HDR.STAT_BLOCK], g.apart f = true)
    (hf : f.fits = true) (hi : i < f.cnt) (ht : t < 65536) : (x.rxMoved c e n).get q f i t = x.get q f i t := by
  have hput (x : Dev) (g : Fld) (v : Nat) (hg : g ∈ [CAN.RX_HEAD_IDX, CAN.RX_OWNED_N, CAN.RX_HWM_N, HDR.STAT_BLOCK]) :
      (x.put (pgCan c) g v).get q f i t = x.get q f i t := by
    have hg' : g.fits = true ∧ 0 < g.cnt := by fin_cases hg <;> decide
    exact get_put_field x v (ha g hg) hg'.1 hf hg'.2 hi (by decide) ht
  unfold rxMoved
  dsimp only
  split <;> split <;> simp (disch := decide) only [stat, orBits, hput]

theorem rxMoved_shows (x : Dev) (e n : Nat) : (x.rxMoved c e n).get (pgCan c) CAN.RX_HEAD_IDX = (e + 1) % 1024 ∧
    (x.rxMoved c e n).get (pgCan c) CAN.RX_OWNED_N = (n + 1) % 2048 ∧ x.keeps (x.rxMoved c e n) [pgCan c] := by
  unfold rxMoved
  dsimp only
  refine ⟨?_, ?_, ?_⟩
  · split <;> split <;> simp (disch := decide) only [get_stat_apart, get_put_apart, get_put_same] <;> rfl
  · split <;> split <;> simp (disch := decide) only [get_stat_apart, get_put_apart, get_put_same] <;> rfl
  · split <;> split <;> simp (disch := first | decide | simp) [keeps_stat_iff, keeps_put_iff]

variable (f : Machine.Frame) (echo : Bool) (sof : Sof) {e : Nat}

theorem keeps_rxWord (he : e < 1024) (ws : List Nat) (x : Dev) {i : Nat} (hi : i < 20) : x.keeps (rxWord c e ws x i) [pgCan c] := by
  have hi' : i < CAN.RXE_W.cnt := hi
  have he' : e < 65536 := by omega
  simp (disch := first | decide | assumption | simp) [rxWord, keeps_put_iff]

theorem get_rxWords (he : e < 1024) (ws : List Nat) {q : Nat} {g : Fld} {j t : Nat} (ha : CAN.RXE_W.apart g = true) (hf : g.fits = true) (hj : j < g.cnt) (ht : t < 65536) :
    ((List.range 20).foldl (rxWord c e ws) d).get q g j t = d.get q g j t :=
  foldl_off (g := fun d : Dev => d.get q g j t) _ _ fun x _ hi =>
    get_put_field x _ ha (by decide) hf (List.mem_range.mp hi : _ < CAN.RXE_W.cnt) hj (by omega) ht

/-- A word of the entry. -/
theorem rxWords_at (he : e < 1024) (ws : List Nat) {i : Nat} (hi : i < 20) :
    ((List.range 20).foldl (rxWord c e ws) d).get (pgCan c) CAN.RXE_W i e = ws.getD i 0 % 2 ^ 32 :=
  foldl_range_at (g := fun d : Dev => d.get (pgCan c) CAN.RXE_W i e) d hi (fun _ => get_put_same _ _ _ _ _ _ (by decide))
    fun _ _ _ hne => get_put_idx _ _ (by decide) (by omega) (by omega) hne

theorem keeps_canQueue (he : d.get (pgCan c) CAN.RX_HEAD_IDX < 1024) : d.keeps (d.canQueue c f echo sof) [pgCan c] := by
  rw [canQueue_eq]
  split
  · simp (disch := first | decide | simp) [keeps_stat_iff, keeps_err_iff, keeps_put_iff, bump]
  · exact keeps_trans (keeps_foldl _ _ fun x i hi => keeps_rxWord he _ x (List.mem_range.mp hi)) (rxMoved_shows _ _ _).2.2

theorem get_canQueue (he : d.get (pgCan c) CAN.RX_HEAD_IDX < 1024) {q : Nat} {g : Fld} {j t : Nat} (ha : ∀ x ∈ CAN.RXE_W :: rxFields, x.apart g = true)
    (hf : g.fits = true) (hj : j < g.cnt) (ht : t < 65536) : (d.canQueue c f echo sof).get q g j t = d.get q g j t := by
  have hput (d : Dev) (x : Fld) (v : Nat) (hx : x ∈ rxFields) : (d.put (pgCan c) x v).get q g j t = d.get q g j t := by
    have hx' : x.fits = true ∧ 0 < x.cnt := by fin_cases hx <;> decide
    exact get_put_field d v (ha x (List.mem_cons_of_mem _ hx)) hx'.1 hf hx'.2 hj (by decide) ht
  rw [canQueue_eq]
  split
  · simp (disch := decide) only [stat, orBits, err, bump, hput]
  · rw [get_rxMoved _ (fun x hx => ha x (by fin_cases hx <;> decide)) hf hj ht, get_rxWords d he _ (ha _ (by decide)) hf hj ht]

/-- A frame in a queue with room. -/
theorem canQueue_shows (he : d.get (pgCan c) CAN.RX_HEAD_IDX < 1024) (hn : d.get (pgCan c) CAN.RX_OWNED_N < 1024) : let x := d.canQueue c f echo sof
    x.get (pgCan c) CAN.RX_OWNED_N = d.get (pgCan c) CAN.RX_OWNED_N + 1 ∧ x.get (pgCan c) CAN.RX_HEAD_IDX = (d.get (pgCan c) CAN.RX_HEAD_IDX + 1) % 1024 ∧
    ∀ i < 20, x.get (pgCan c) CAN.RXE_W i (d.get (pgCan c) CAN.RX_HEAD_IDX) = (d.rxWords f echo sof).getD i 0 % 2 ^ 32 := by
  intro x
  have hx : x = _ := (canQueue_eq d f echo sof).trans (if_neg (Nat.not_le_of_lt hn))
  obtain ⟨h1, h2, -⟩ := rxMoved_shows (c := c) ((List.range 20).foldl (rxWord c (d.get (pgCan c) CAN.RX_HEAD_IDX) (d.rxWords f echo sof)) d)
    (d.get (pgCan c) CAN.RX_HEAD_IDX) (d.get (pgCan c) CAN.RX_OWNED_N)
  rw [hx]
  refine ⟨h2.trans (Nat.mod_eq_of_lt (by omega)), h1, fun i hi => ?_⟩
  have hi' : i < CAN.RXE_W.cnt := hi
  rw [get_rxMoved _ (by decide) (by decide) hi' (by omega), rxWords_at d he _ hi]

/-- A frame that meets a full queue. -/
theorem canQueue_full (hn : d.get (pgCan c) CAN.RX_OWNED_N ≥ 1024) : let x := d.canQueue c f echo sof
    x.get (pgCan c) CAN.RX_OWNED_N = d.get (pgCan c) CAN.RX_OWNED_N ∧ x.get (pgCan c) HDR.ERR_CODE = cCAN_RX_DROP := by
  intro x
  have hx : x = _ := (canQueue_eq d f echo sof).trans (if_pos hn)
  rw [hx]
  constructor
  · simp (disch := decide) only [stat, orBits, err, bump, get_put_apart]
  · simp (disch := decide) only [stat, orBits, err, bump, get_put_apart, get_put_same]
    decide

end

/-! ### The safety state, which a controller leaves -/

section
variable (d : Dev) (c : Nat)

theorem saf_canDrop (why : Nat) : (d.canDrop c why).saf = d.saf := by
  refine (congrArg Dev.saf (canDrop_eq d c why)).trans (foldl_off (g := Dev.saf) _ _ fun e b _ => ?_)
  unfold dropStep canEnd
  dsimp only
  split
  · split <;> rfl
  · rfl

theorem saf_canState (st : Nat) : (d.canState c st).saf = d.saf := by
  have hshow : (d.stateShown c st).saf = d.saf := by
    unfold stateShown
    dsimp only
    split_ifs
    · exact post_saf _ _
    · exact post_saf _ _
    · exact post_saf _ _
  rw [canState_eq]
  split_ifs
  · rfl
  · rw [saf_canDrop, hshow]
  · rw [saf_canDrop, hshow]
  · exact hshow

theorem saf_canJudge : (d.canJudge c).saf = d.saf := by
  rw [canJudge_eq]
  split
  · exact saf_canState ..
  · rfl

theorem saf_canQueue (f : Machine.Frame) (echo : Bool) (sof : Sof) : (d.canQueue c f echo sof).saf = d.saf := by
  have hmoved (x : Dev) (e n : Nat) : (x.rxMoved c e n).saf = x.saf := by
    unfold rxMoved
    dsimp only
    split <;> split <;> rfl
  rw [canQueue_eq]
  split
  · rfl
  · rw [hmoved]
    exact foldl_off (g := Dev.saf) _ _ fun _ _ _ => rfl

end

/-! ### The units that a frame reaches beside the queue -/

/-- The pages of the generators, the door axes and the stations. -/
def spreadPages : List Nat :=
  shp .rsm :: shp .slt :: ((List.range 4).flatMap (fun n => [pgMpg .a n, pgMpg .b n]) ++ (List.range 8).flatMap fun k => [pgDax .a k, pgDax .b k])

theorem pgMpg_mem_spread (h : HalfId) {n : Nat} (hn : n < 4) : pgMpg h n ∈ spreadPages :=
  List.mem_cons_of_mem _ (List.mem_cons_of_mem _ (List.mem_append_left _ (List.mem_flatMap.mpr ⟨n, List.mem_range.mpr hn, by cases h <;> simp⟩)))

theorem pgDax_mem_spread (h : HalfId) {k : Nat} (hk : k < 8) : pgDax h k ∈ spreadPages :=
  List.mem_cons_of_mem _ (List.mem_cons_of_mem _ (List.mem_append_right _ (List.mem_flatMap.mpr ⟨k, List.mem_range.mpr hk, by cases h <;> simp⟩)))

theorem pgCan_not_spread {c : Nat} (hc : c < 4) : pgCan c ∉ spreadPages := by
  interval_cases c <;> decide

theorem safeFrame_quiet {d : Dev} {bus ident : Nat} (fd : Bool) (dlc : Nat) (bs : List Nat) (h : d.safRun = false ∨ tapStn d.blk bus ident = none) :
    d.safeFrame bus ident fd dlc bs = d := by
  unfold safeFrame
  rcases h with h | h
  · rw [h]
    rfl
  · rw [h]
    exact ite_self d

/-- The image that a frame of a station leaves. -/
def rsmImage (d : Dev) (k len : Nat) (f : Machine.Frame) : Dev :=
  let d := (d.wrapUp (shp .rsm) RSM.STN_FRAMES_COUNT 0 k).put64 (shp .rsm) RSM.STN_LAST_LO RSM.STN_LAST_HI d.now 0 k
  { d with lane := { d.lane with img := (k, takeZ 64 ((takeZ f.len f.data).take len)) :: d.lane.img.filter (fun e => e.1 != k) } }

theorem keeps_rsmFrame (d : Dev) {k : Nat} (hk : k < 288) (f : Machine.Frame) : d.keeps (d.rsmFrame k f) [shp .rsm, shp .slt] := by
  have ht : k < 65536 := by omega
  obtain ⟨m, hm⟩ : ∃ m, m = d.rsmImage k (d.get (shp .rsm) RSM.STN_CFG_LEN 0 k) f := ⟨_, rfl⟩
  have hmk : d.keeps m [shp .rsm, shp .slt] := by
    have himg : d.keeps ((d.wrapUp (shp .rsm) RSM.STN_FRAMES_COUNT 0 k).put64 (shp .rsm) RSM.STN_LAST_LO RSM.STN_LAST_HI d.now 0 k) [shp .rsm, shp .slt] := by
      simp (disch := first | decide | assumption | simp) [wrapUp, put64, keeps_put_iff]
    rw [hm]
    exact himg
  have he : d.rsmFrame k f = if f.len < d.get (shp .rsm) RSM.STN_CFG_LEN 0 k then
        ((d.bump (shp .rsm) RSM.STN_SHORT_COUNT 0 k).stat (shp .rsm) 2).err (shp .rsm) cRS_SHORT k
      else
        let run := m.get (shp .rsm) RSM.STN_ST_UPRUN 0 k + 1
        let d := m.put (shp .rsm) RSM.STN_ST_MISS 0 0 k
        if d.get (shp .rsm) RSM.STN_ST_STATE 0 k = 1 then
          if run ≥ d.get (shp .rsm) RSM.STN_CFG_UPN 0 k then
            (((d.put (shp .rsm) RSM.STN_ST_STATE 2 0 k).put (shp .rsm) RSM.STN_ST_UPRUN run 0 k).stat (shp .rsm) 1).note (shp .rsm) clsState 2 k
          else d.put (shp .rsm) RSM.STN_ST_UPRUN run 0 k
        else d := by
    rw [hm]
    rfl
  rw [he]
  dsimp only
  split_ifs <;> simp (disch := first | decide | assumption | simp) [keeps_err_iff, keeps_stat_iff, keeps_put_iff, keeps_note_iff, bump, hmk]

theorem keeps_both {d : Dev} {f : Dev → HalfId → Dev} {ps : List Nat} (hf : ∀ d h, Dev.keeps d (f d h) ps) : d.keeps (d.both f) ps :=
  keeps_trans (hf d .a) (hf _ .b)

/-- Whether a status identifier names the frame. -/
def frameHit (f : Machine.Frame) (d : Dev) (p : Nat) (en ide id : Fld) : Bool := d.on p en && d.on p ide == f.ide && d.get p id == f.id

/-- The frame at the generators, or at the door axes, of its bus. -/
def spreadAxes (d : Dev) (c : Nat) (f : Machine.Frame) (data : List Byte) : Dev :=
  if c = 2 then
    d.both (fun d h => (List.range 4).foldl (fun d n =>
      if frameHit f d (pgMpg h n) MPG.DRV_ID_EN MPG.DRV_ID_IDE MPG.DRV_ID_ID then d.drvFrame h n data else d) d)
  else if c = 0 then
    d.both (fun d h => (List.range 8).foldl (fun d k =>
      if d.on (pgDax h k) DAX.CFG_TYPE && frameHit f d (pgDax h k) DAX.DRV_ID_EN DAX.DRV_ID_IDE DAX.DRV_ID_ID then d.doorFrame h k data else d) d)
  else d

/-- The stations that a frame names. -/
def stationsHit (d : Dev) (c : Nat) (f : Machine.Frame) : List Nat :=
  if d.enabled (shp .rsm) then
    (List.range 288).filter (fun s => d.get (shp .rsm) RSM.STN_CFG_CTRL 0 s == c &&
      d.on (shp .rsm) RSM.STN_CFG_EN 0 s && d.on (shp .rsm) RSM.STN_CFG_IDE 0 s == f.ide && d.get (shp .rsm) RSM.STN_ID_ID 0 s == f.id)
  else []

/-- The frame at the stations that it names. -/
def spreadStations (d : Dev) (c : Nat) (f : Machine.Frame) : Dev :=
  if (d.stationsHit c f).isEmpty then d else ((d.stationsHit c f).foldl (fun d s => d.rsmFrame s f) d).rsmShow

theorem stationsHit_lt {d : Dev} {c : Nat} {f : Machine.Frame} {k : Nat} (hk : k ∈ d.stationsHit c f) : k < 288 := by
  unfold stationsHit at hk
  split at hk
  · exact List.mem_range.mp (List.mem_filter.mp hk).1
  · exact absurd hk List.not_mem_nil

theorem keeps_spreadAxes (d : Dev) (c : Nat) (f : Machine.Frame) (data : List Byte) : d.keeps (d.spreadAxes c f data) spreadPages := by
  unfold spreadAxes
  split_ifs
  · refine keeps_both fun d h => keeps_foldl _ _ fun e n hn => ?_
    split
    · exact keeps_mono (keeps_drvFrame e h n data) (by simpa using pgMpg_mem_spread h (List.mem_range.mp hn))
    · exact keeps_refl e _
  · refine keeps_both fun d h => keeps_foldl _ _ fun e n hn => ?_
    split
    · exact keeps_mono (keeps_doorFrame e h n data) (by simpa using pgDax_mem_spread h (List.mem_range.mp hn))
    · exact keeps_refl e _
  · exact keeps_refl d _

theorem keeps_spreadStations (d : Dev) (c : Nat) (f : Machine.Frame) : d.keeps (d.spreadStations c f) spreadPages := by
  have hsub : ∀ p ∈ [shp .rsm, shp .slt], p ∈ spreadPages := by simp [spreadPages]
  unfold spreadStations
  split
  · exact keeps_refl d _
  · exact keeps_trans (keeps_foldl _ _ fun e k hk => keeps_mono (keeps_rsmFrame e (stationsHit_lt hk) f) hsub)
      (keeps_mono (rsmShow_leaves _).1 fun p hp => hsub p (by simp at hp; simp [hp]))

/-- A frame that is no safe frame of RUN moves the pages of generators, axes and stations alone. -/
theorem keeps_canSpread (d : Dev) (c : Nat) (f : Machine.Frame) (h : d.safRun = false ∨ tapStn d.blk c (f.id + f.ide.toNat * 2 ^ 31) = none) :
    d.keeps (d.canSpread c f) spreadPages := by
  obtain ⟨e, he⟩ : ∃ e, e = ((d.safeFrame c (f.id + f.ide.toNat * 2 ^ 31) f.fdf f.dlc (takeZ f.len f.data)).spreadAxes c f
      (if f.rtr then [] else (takeZ f.len f.data).map (BitVec.ofNat 8))).spreadStations c f := ⟨_, rfl⟩
  have hk : d.keeps e spreadPages := by
    rw [he, safeFrame_quiet _ _ _ h]
    exact keeps_trans (keeps_spreadAxes ..) (keeps_spreadStations ..)
  have hs : d.canSpread c f = { e with lane := { e.lane with rx := e.lane.rx.map (fun x =>
      if x.ctrl = c ∧ x.ide = f.ide ∧ x.id = f.id then { x with data := takeZ f.len f.data, fresh := true } else x) } } := by
    rw [he]
    rfl
  rw [hs]
  exact hk

/-! ### A frame from the bus -/

section
variable {d : Dev} {c : Nat} (hc : c < 4) (f : Machine.Frame) (sof : Sof)

/-- What the controller has counted before the frame is queued. -/
def heard (d : Dev) (c : Nat) : Dev :=
  ((if d.get (pgCan c) CAN.MODE_OP ≠ 0 then d
    else d.put (pgCan c) CAN.ERRC_REC (if d.get (pgCan c) CAN.ERRC_REC > 127 then 127 else d.get (pgCan c) CAN.ERRC_REC - 1)).canHeard c).canJudge c

theorem canReceive_dead (h : d.canLive c = false) : d.canReceive c f sof = d := by
  rw [canReceive, h]
  rfl

theorem canReceive_live (h : d.canLive c = true) : d.canReceive c f sof = (((d.heard c).canQueue c f false sof).canSpread c f).canFin c := by
  rw [canReceive, h]
  rfl

include hc

theorem heard_shows : d.keeps (d.heard c) [pgCan c, shp .slt] ∧ (d.heard c).saf = d.saf ∧ (d.heard c).get (pgCan c) CAN.BUS_ACKRUN = 0 ∧
    (d.heard c).get (pgCan c) CAN.RX_HEAD_IDX = d.get (pgCan c) CAN.RX_HEAD_IDX ∧ (d.heard c).get (pgCan c) CAN.RX_OWNED_N = d.get (pgCan c) CAN.RX_OWNED_N := by
  obtain ⟨m, hm⟩ : ∃ m, m = if d.get (pgCan c) CAN.MODE_OP ≠ 0 then d
    else d.put (pgCan c) CAN.ERRC_REC (if d.get (pgCan c) CAN.ERRC_REC > 127 then 127 else d.get (pgCan c) CAN.ERRC_REC - 1) := ⟨_, rfl⟩
  have hk : d.keeps m [pgCan c, shp .slt] := by
    rw [hm]
    split
    · exact keeps_refl d _
    · exact (keeps_put_iff (by simp) (by decide) (by decide) (by decide)).mpr (keeps_refl d _)
  have hget {g : Fld} (ha : CAN.ERRC_REC.apart g = true) (hg : g.fits = true) (hgc : 0 < g.cnt) : m.get (pgCan c) g = d.get (pgCan c) g := by
    rw [hm]
    split
    · rfl
    · exact get_put_apart _ _ ha (by decide) hg (by decide) hgc (by decide) (by decide)
  have hsaf : m.saf = d.saf := by
    rw [hm]
    split <;> rfl
  have he : d.heard c = (m.canHeard c).canJudge c := by
    rw [hm]
    rfl
  have hj {g : Fld} (ha : ∀ x ∈ canStateFields, x.apart g = true) (hg : g.fits = true) (hgc : 0 < g.cnt) :
      (d.heard c).get (pgCan c) g = (m.canHeard c).get (pgCan c) g := by
    rw [he]
    exact get_canJudge _ (pgCan_ne_slt hc) ha hg hgc (by decide)
  refine ⟨?_, ?_, ?_, ?_, ?_⟩
  · rw [he]
    refine keeps_trans (keeps_trans hk ?_) (keeps_canJudge ..)
    simp (disch := first | decide | simp) [canHeard, keeps_put_iff]
  · rw [he, saf_canJudge]
    exact hsaf
  · rw [hj (by decide) (by decide) (by decide), canHeard, get_put_apart _ _ (by decide) (by decide) (by decide) (by decide) (by decide) (by decide) (by decide)]
    exact get_put_same _ _ _ _ _ _ (by decide)
  · rw [hj (by decide) (by decide) (by decide)]
    simp (disch := decide) only [canHeard, get_put_apart]
    exact hget (by decide) (by decide) (by decide)
  · rw [hj (by decide) (by decide) (by decide)]
    simp (disch := decide) only [canHeard, get_put_apart]
    exact hget (by decide) (by decide) (by decide)

/-- A frame that the controller takes. -/
theorem canReceive_shows (hlive : d.canLive c = true) (he : d.get (pgCan c) CAN.RX_HEAD_IDX < 1024)
    (hsafe : d.safRun = false ∨ tapStn d.blk c (f.id + f.ide.toNat * 2 ^ 31) = none) : let x := d.canReceive c f sof
    let e := d.get (pgCan c) CAN.RX_HEAD_IDX
    let n := d.get (pgCan c) CAN.RX_OWNED_N
    x.memories = d.memories ∧ x.get (pgCan c) CAN.BUS_ACKRUN = 0 ∧
      (n < 1024 → x.get (pgCan c) CAN.RX_OWNED_N = n + 1 ∧ x.get (pgCan c) CAN.RX_HEAD_IDX = (e + 1) % 1024 ∧
        ∀ i < 20, x.get (pgCan c) CAN.RXE_W i e = (d.rxWords f false sof).getD i 0 % 2 ^ 32) ∧
      (n ≥ 1024 → x.get (pgCan c) CAN.RX_OWNED_N = n ∧ x.get (pgCan c) HDR.ERR_CODE = cCAN_RX_DROP) := by
  intro x e n
  obtain ⟨hk1, hsaf, hack, hhead, hown⟩ := heard_shows (d := d) hc
  have he1 : (d.heard c).get (pgCan c) CAN.RX_HEAD_IDX < 1024 := hhead ▸ he
  have hsafe2 : ((d.heard c).canQueue c f false sof).safRun = false ∨ tapStn ((d.heard c).canQueue c f false sof).blk c (f.id + f.ide.toNat * 2 ^ 31) = none := by
    have hk : d.keeps ((d.heard c).canQueue c f false sof) [pgCan c, shp .slt] := keeps_trans hk1 (keeps_mono (keeps_canQueue _ _ _ _ he1) (by simp))
    have hrun : ((d.heard c).canQueue c f false sof).safRun = d.safRun := by
      rw [safRun, safRun, get_of_keeps hk (by decide) (by decide) (by decide) (by interval_cases c <;> decide)]
    have hblk : ((d.heard c).canQueue c f false sof).blk = d.blk := by rw [blk, blk, saf_canQueue, hsaf]
    rwa [hrun, hblk]
  have hk3 := keeps_canSpread _ c f hsafe2
  have hx : x = (((d.heard c).canQueue c f false sof).canSpread c f).canFin c := canReceive_live f sof hlive
  have hget {g : Fld} {i t : Nat} (hg : g.fits = true) (hi : i < g.cnt) (ht : t < 65536) :
      x.get (pgCan c) g i t = ((d.heard c).canQueue c f false sof).get (pgCan c) g i t := by
    rw [hx, ← get_of_keeps hk3 hg hi ht (pgCan_not_spread hc)]
    rfl
  have hnow : (d.heard c).now = d.now := now_of_keeps hk1 (by interval_cases c <;> decide)
  have hwords : (d.heard c).rxWords f false sof = d.rxWords f false sof := by rw [rxWords, rxWords, hnow]
  refine ⟨?_, ?_, fun hn => ?_, fun hn => ?_⟩
  · rw [hx]
    exact hk3.1.trans ((keeps_canQueue _ _ _ _ he1).1.trans hk1.1)
  · rw [hget (by decide) (by decide) (by decide), get_canQueue _ _ _ _ he1 (by decide) (by decide) (by decide) (by decide), hack]
  · obtain ⟨q1, q2, q3⟩ := canQueue_shows (d.heard c) f false sof he1 (hown ▸ hn)
    rw [hhead] at q2 q3
    rw [hown] at q1
    rw [hwords] at q3
    refine ⟨?_, ?_, fun i hi => ?_⟩
    · rw [hget (by decide) (by decide) (by decide), q1]
    · rw [hget (by decide) (by decide) (by decide), q2]
    · have hi' : i < CAN.RXE_W.cnt := hi
      rw [hget (by decide) hi' (by omega), q3 i hi]
  · obtain ⟨q1, q2⟩ := canQueue_full (d.heard c) f false sof (by rw [hown]; exact hn)
    rw [hown] at q1
    exact ⟨(hget (by decide) (by decide) (by decide)).trans q1, (hget (by decide) (by decide) (by decide)).trans q2⟩

end

/-! ### An attempt ends -/

section
variable (d : Dev) {c : Nat} (hc : c < 4)

/-- A measured delay of the transmitter moves its own registers. -/
theorem canTdc_leaves (f : Machine.Frame) (tdc : Option Nat) : let e := d.canTdc c f tdc
    d.keeps e [pgCan c] ∧ e.can = d.can ∧
      ∀ g ∈ [CAN.ERRC_TEC, CAN.BUS_STATE, CAN.MODE_OP, CAN.RX_HEAD_IDX], e.get (pgCan c) g = d.get (pgCan c) g := by
  intro e
  have he : e = d.canTdc c f tdc := rfl
  have hput (d : Dev) {g x : Fld} (v : Nat) (hg : g ∈ [CAN.ERRC_TEC, CAN.BUS_STATE, CAN.MODE_OP, CAN.RX_HEAD_IDX])
      (hx : x ∈ [CAN.TDC_MEAS, HDR.ERR_COUNT, HDR.ERR_CODE, HDR.ERR_DETAIL, HDR.STAT_BLOCK]) : (d.put (pgCan c) x v).get (pgCan c) g = d.get (pgCan c) g := by
    have h : x.apart g = true ∧ x.fits = true ∧ g.fits = true ∧ 0 < x.cnt ∧ 0 < g.cnt := by fin_cases hg <;> fin_cases hx <;> decide
    exact get_put_apart _ _ h.1 h.2.1 h.2.2.1 h.2.2.2.1 h.2.2.2.2 (by decide) (by decide)
  unfold canTdc at he
  rw [he]
  cases tdc with
  | none => exact ⟨keeps_refl d _, rfl, fun g _ => rfl⟩
  | some t =>
    dsimp only
    refine ⟨?_, ?_, fun g hg => ?_⟩
    · split_ifs <;> simp (disch := first | decide | simp) [keeps_stat_iff, keeps_err_iff, keeps_put_iff]
    · split_ifs <;> rfl
    · split_ifs <;> simp (disch := first | assumption | simp) only [stat, orBits, err, bump, hput]

/-- What a judgement and the queue leave of a buffer that does not wait. -/
def settled (d : Dev) (c k v : Nat) : Prop := d.canPend c k = false ∧ d.get (pgCan c) CAN.TXB_ST_RESULT 0 k = v

variable {d} {k v : Nat} (hk : k < 128)
include hk

theorem settled_of_get {e : Dev} (hs : d.settled c k v) (h1 : ∀ i < 4, e.get (pgCan c) CAN.TX_PEND_BITS i = d.get (pgCan c) CAN.TX_PEND_BITS i)
    (h2 : e.get (pgCan c) CAN.TXB_ST_RESULT 0 k = d.get (pgCan c) CAN.TXB_ST_RESULT 0 k) : e.settled c k v :=
  ⟨by rw [canPend, h1 _ (by omega)]; exact hs.1, h2.trans hs.2⟩

theorem settled_canDrop (why : Nat) (hs : d.settled c k v) : (d.canDrop c why).settled c k v := by
  rw [canDrop_eq]
  refine foldl_keep (P := fun d : Dev => d.settled c k v) _ _ (fun e b hb hse => ?_) hs
  unfold dropStep
  split
  case isTrue hp =>
    have hkb : k ≠ b := by
      rintro rfl
      rw [hse.1] at hp
      exact absurd hp (by simp)
    obtain ⟨o1, o2⟩ := canEnd_other e c 6 0 why (List.mem_range.mp hb) hk hkb
    exact ⟨o1.trans hse.1, (o2 _ (by decide)).trans hse.2⟩
  case isFalse => exact hse

include hc

theorem settled_canJudge (hs : d.settled c k v) : (d.canJudge c).settled c k v := by
  have hkt : k < 65536 := by omega
  have hcnt {i : Nat} (hi : i < 4) : i < CAN.TX_PEND_BITS.cnt := hi
  have hshow (st : Nat) : (d.stateShown c st).settled c k v := by
    refine settled_of_get hk hs (fun i hi => ?_) ?_
    · rw [get_stateShown d st (pgCan_ne_slt hc) (by decide) (by decide) (hcnt hi) (by decide),
        get_put_apart _ _ (by decide) (by decide) (by decide) (by decide) (hcnt hi) (by decide) (by decide)]
    · rw [get_stateShown d st (pgCan_ne_slt hc) (by decide) (by decide) (by decide) hkt,
        get_put_apart _ _ (by decide) (by decide) (by decide) (by decide) (by decide) (by decide) hkt]
  rw [canJudge_eq, canState_eq]
  split_ifs
  · exact hs
  · exact settled_canDrop hk 1 (hshow _)
  · exact settled_canDrop hk 3 (hshow _)
  · exact hshow _
  · exact hs

end

theorem canFin_leaves (d : Dev) {c : Nat} (hcan : c < d.can.length) : d.keeps (d.canFin c) [] ∧ (∀ p g i t, (d.canFin c).get p g i t = d.get p g i t) ∧
    ((d.canFin c).canCh c).begun = (d.canCh c).begun := by
  refine ⟨keeps_refl d _, fun _ _ _ _ => rfl, ?_⟩
  rw [canFin, canCh_modCan d hcan]

/-- The attempt has ended, and its request with it. -/
def attempted (d : Dev) (c b result lec : Nat) (tdc : Option Nat) : Dev :=
  ((d.modCan c (fun x => { x with begun := none, run := none, again := false })).canTdc c ((d.canCh c).run.getD (d.canFrame c b))
    (if result = 3 then none else tdc)).canEnd c b result (if result = 4 then lec else 0) 0

/-- A frame that was sent is counted, and queued where the controller echoes. -/
def sentOn (d : Dev) (c : Nat) (f : Machine.Frame) (sof : Sof) : Dev :=
  let e := ((d.put (pgCan c) CAN.ERRC_TEC (d.get (pgCan c) CAN.ERRC_TEC - 1)).canHeard c).canJudge c
  if e.on (pgCan c) CAN.MODE_TXECHO then e.canQueue c f true sof else e

section
variable (d : Dev) {c b : Nat} (sof : Sof) (tdc : Option Nat)

theorem canTxEnd_idle (result lec : Nat) (h : d.canRuns c b = false) : d.canTxEnd c b result lec sof tdc = d := by
  rw [canTxEnd, h]
  rfl

theorem canTxEnd_sent (lec : Nat) (h : d.canRuns c b = true) (ha : ((d.canCh c).again && (d.canCh c).begun.isSome) = false) :
    d.canTxEnd c b 2 lec sof tdc = ((d.attempted c b 2 lec tdc).sentOn c ((d.canCh c).run.getD (d.canFrame c b)) sof).canFin c := by
  rw [canTxEnd, h]
  dsimp only
  rw [ha]
  simp only [if_true, if_neg (show ¬ (2 : Nat) = 3 by decide), Bool.false_eq_true, if_false, attempted, sentOn, Bool.not_true]

theorem canTxEnd_lost (lec : Nat) {result : Nat} (hr : result ≠ 2) (h : d.canRuns c b = true) : d.canTxEnd c b result lec sof tdc =
    let e := if result = 3 then d.attempted c b result lec tdc else (d.attempted c b result lec tdc).canFin c
    if (d.canCh c).again && (d.canCh c).begun.isSome then e.canPut c b else e := by
  rw [canTxEnd, h]
  dsimp only
  rw [if_neg hr]
  rfl

variable (hb : b < 128) (hcan : c < d.can.length)
include hb hcan

theorem attempted_shows (result lec : Nat) : let e := d.attempted c b result lec tdc
    d.keeps e [pgCan c] ∧ e.settled c b (result % 16) ∧ (e.canCh c).begun = none ∧ e.get (pgCan c) CAN.TXB_ST_LEC 0 b = (if result = 4 then lec else 0) % 8 ∧
    (result ≠ 2 → bitN (e.get (pgCan c) CAN.TX_FAIL_BITS (b / 32)) (b % 32) = 1) ∧ e.can.length = d.can.length ∧
    ∀ g ∈ [CAN.ERRC_TEC, CAN.BUS_STATE, CAN.MODE_OP, CAN.RX_HEAD_IDX], e.get (pgCan c) g = d.get (pgCan c) g := by
  intro e
  obtain ⟨m, hm⟩ : ∃ m, m = (d.modCan c (fun x => { x with begun := none, run := none, again := false })).canTdc c ((d.canCh c).run.getD (d.canFrame c b))
    (if result = 3 then none else tdc) := ⟨_, rfl⟩
  obtain ⟨l1, l2, l3⟩ := canTdc_leaves (d.modCan c (fun x => { x with begun := none, run := none, again := false })) (c := c) ((d.canCh c).run.getD (d.canFrame c b))
    (if result = 3 then none else tdc)
  rw [← hm] at l1 l2 l3
  have he : e = m.canEnd c b result (if result = 4 then lec else 0) 0 := by
    rw [hm]
    rfl
  have hbegun : (m.canCh c).begun = none := by rw [canCh_congr l2 c, canCh_modCan d hcan]
  obtain ⟨s1, s2, s3, -, -, s6⟩ := canEnd_shows m c result (if result = 4 then lec else 0) 0 hb
  have hside := besideArm_canEnd m c result (if result = 4 then lec else 0) 0 (b := b)
  rw [he]
  refine ⟨keeps_trans ((keeps_modCan_iff ..).mpr (keeps_refl d _)) (keeps_trans l1 (keeps_canEnd m c result _ 0 hb)), ⟨s1, s2⟩,
    (congrArg CanCh.begun hside :).trans hbegun, s3, s6, ?_, fun g hg => ?_⟩
  · rw [length_canEnd, l2, modCan, length_lmod]
  · have hg' : (∀ x ∈ canTxFields, x.apart g = true) ∧ g.fits = true ∧ 0 < g.cnt := by fin_cases hg <;> decide
    rw [get_canEnd m c result _ 0 hb hg'.1 hg'.2.1 hg'.2.2 (by decide), l3 g hg]
    rfl

/-- An attempt that failed, and is not tried again. -/
theorem lost_shows (lec : Nat) {result : Nat} (hr : result ≠ 2) (h : d.canRuns c b = true) (ha : ((d.canCh c).again && (d.canCh c).begun.isSome) = false) :
    let e := d.canTxEnd c b result lec sof tdc
    e.settled c b (result % 16) ∧ e.get (pgCan c) CAN.TXB_ST_LEC 0 b = (if result = 4 then lec else 0) % 8 ∧
    bitN (e.get (pgCan c) CAN.TX_FAIL_BITS (b / 32)) (b % 32) = 1 ∧ (e.canCh c).begun = none ∧ d.keeps e [pgCan c] := by
  intro e
  obtain ⟨a1, a2, a3, a4, a5, a6, -⟩ := attempted_shows d tdc hb hcan result lec
  have he : e = _ := canTxEnd_lost d sof tdc lec hr h
  rw [ha] at he
  simp only [Bool.false_eq_true, if_false] at he
  rw [he]
  split
  · exact ⟨a2, a4, a5 hr, a3, a1⟩
  · refine ⟨a2, a4, a5 hr, ?_, a1⟩
    rw [canFin, canCh_modCan _ (by rw [a6]; exact hcan)]
    exact a3

variable (hc : c < 4)
include hc

/-- An attempt that is tried again. -/
theorem again_shows (lec : Nat) {result : Nat} (hr : result ≠ 2) (h : d.canRuns c b = true) (ha : ((d.canCh c).again && (d.canCh c).begun.isSome) = true)
    (hw : d.canWhyNot c = none) : let e := d.canTxEnd c b result lec sof tdc
    e.canPend c b = true ∧ e.get (pgCan c) CAN.TXB_ST_RESULT 0 b = 1 ∧ (e.canCh c).begun = none ∧ d.keeps e [pgCan c] := by
  intro e
  obtain ⟨a1, -, a3, -, -, a6, a7⟩ := attempted_shows d tdc hb hcan result lec
  obtain ⟨m, hm⟩ : ∃ m, m = if result = 3 then d.attempted c b result lec tdc else (d.attempted c b result lec tdc).canFin c := ⟨_, rfl⟩
  have he : e = m.canPut c b := by
    have he : e = _ := canTxEnd_lost d sof tdc lec hr h
    rw [ha] at he
    rw [he, hm]
    rfl
  have hmk : d.keeps m [pgCan c] := by
    rw [hm]
    split <;> exact a1
  have hbegun : (m.canCh c).begun = none := by
    rw [hm]
    split
    · exact a3
    · rw [canFin, canCh_modCan _ (by rw [a6]; exact hcan)]
      exact a3
  have hget (g : Fld) (hg : g ∈ [CAN.ERRC_TEC, CAN.BUS_STATE, CAN.MODE_OP, CAN.RX_HEAD_IDX]) : m.get (pgCan c) g = d.get (pgCan c) g := by
    rw [hm]
    split <;> exact a7 g hg
  have hwhy : m.canWhyNot c = none :=
    (canWhyNot_congr (holder_of_keeps hmk (by simpa using pgCan_ne_wir hc)).1 (hget _ (by simp)) (hget _ (by simp))).trans hw
  obtain ⟨p1, p2, p3, p4, p5⟩ := pended_shows m (c := c) hb
  have hput : m.canPut c b = m.pended c b := by
    rw [canPut_eq, canWhyNot_congr (holder_of_keeps p3 (by simpa using pgCan_ne_wir hc)).1 p4 p5, hwhy]
  rw [he, hput]
  exact ⟨p1, p2, hbegun, keeps_trans hmk p3⟩

omit hcan in
/-- A frame that was sent. -/
theorem sentOn_shows (f : Machine.Frame) (he : d.get (pgCan c) CAN.RX_HEAD_IDX < 1024) {v : Nat} (hs : d.settled c b v) : let e := d.sentOn c f sof
    e.settled c b v ∧ e.get (pgCan c) CAN.ERRC_TEC = (d.get (pgCan c) CAN.ERRC_TEC - 1) % 2 ^ 9 ∧ e.get (pgCan c) CAN.BUS_ACKRUN = 0 ∧
    (e.canCh c).begun = (d.canCh c).begun ∧ d.keeps e [pgCan c, shp .slt] ∧ e.can.length = d.can.length := by
  intro e
  have hbt : b < 65536 := by omega
  have hcnt {i : Nat} (hi : i < 4) : i < CAN.TX_PEND_BITS.cnt := hi
  obtain ⟨m, hm⟩ : ∃ m, m = (d.put (pgCan c) CAN.ERRC_TEC (d.get (pgCan c) CAN.ERRC_TEC - 1)).canHeard c := ⟨_, rfl⟩
  have hmk : d.keeps m [pgCan c, shp .slt] := by
    rw [hm]
    simp (disch := first | decide | simp) [canHeard, keeps_put_iff]
  have hms : m.settled c b v := by
    refine settled_of_get hb hs (fun i hi => ?_) ?_
    · have hi' := hcnt hi
      simp (disch := first | decide | assumption) only [hm, canHeard, get_put_apart]
    · simp (disch := first | decide | assumption) only [hm, canHeard, get_put_apart]
  have hcanm : m.can = d.can := by
    rw [hm]
    rfl
  have hhead : (m.canJudge c).get (pgCan c) CAN.RX_HEAD_IDX < 1024 := by
    rw [get_canJudge _ (pgCan_ne_slt hc) (by decide) (by decide) (by decide) (by decide)]
    simp (disch := decide) only [hm, canHeard, get_put_apart]
    exact he
  have hjs : (m.canJudge c).settled c b v := settled_canJudge hc hb hms
  have htec : (m.canJudge c).get (pgCan c) CAN.ERRC_TEC = (d.get (pgCan c) CAN.ERRC_TEC - 1) % 2 ^ 9 := by
    rw [get_canJudge _ (pgCan_ne_slt hc) (by decide) (by decide) (by decide) (by decide)]
    simp (disch := decide) only [hm, canHeard, get_put_apart]
    exact get_put_same _ _ _ _ _ _ (by decide)
  have hack : (m.canJudge c).get (pgCan c) CAN.BUS_ACKRUN = 0 := by
    rw [get_canJudge _ (pgCan_ne_slt hc) (by decide) (by decide) (by decide) (by decide), hm, canHeard,
      get_put_apart _ _ (by decide) (by decide) (by decide) (by decide) (by decide) (by decide) (by decide)]
    exact get_put_same _ _ _ _ _ _ (by decide)
  have hbegun : ((m.canJudge c).canCh c).begun = (d.canCh c).begun := by
    rw [← canCh_congr hcanm c]
    exact (congrArg CanCh.begun (besideArm_canJudge m (c := c)) :)
  have hlen : (m.canJudge c).can.length = d.can.length := by rw [length_canJudge, hcanm]
  have hjk : d.keeps (m.canJudge c) [pgCan c, shp .slt] := keeps_trans hmk (keeps_canJudge ..)
  have hee : e = if (m.canJudge c).on (pgCan c) CAN.MODE_TXECHO then (m.canJudge c).canQueue c f true sof else m.canJudge c := by
    rw [hm]
    rfl
  rw [hee]
  split
  · refine ⟨settled_of_get hb hjs (fun i hi => get_canQueue _ f true sof hhead (by decide) (by decide) (hcnt hi) (by decide))
      (get_canQueue _ f true sof hhead (by decide) (by decide) (by decide) hbt), ?_, ?_, ?_, keeps_trans hjk (keeps_mono (keeps_canQueue _ f true sof hhead) (by simp)), ?_⟩
    · rw [get_canQueue _ f true sof hhead (by decide) (by decide) (by decide) (by decide), htec]
    · rw [get_canQueue _ f true sof hhead (by decide) (by decide) (by decide) (by decide), hack]
    · rw [canCh_congr (can_canQueue ..), hbegun]
    · rw [can_canQueue, hlen]
  · exact ⟨hjs, htec, hack, hbegun, hjk, hlen⟩

theorem sent_shows (lec : Nat) (he : d.get (pgCan c) CAN.RX_HEAD_IDX < 1024) (h : d.canRuns c b = true)
    (ha : ((d.canCh c).again && (d.canCh c).begun.isSome) = false) : let e := d.canTxEnd c b 2 lec sof tdc
    e.settled c b 2 ∧ e.get (pgCan c) CAN.ERRC_TEC = (d.get (pgCan c) CAN.ERRC_TEC - 1) % 2 ^ 9 ∧ e.get (pgCan c) CAN.BUS_ACKRUN = 0 ∧
    (e.canCh c).begun = none ∧ d.keeps e [pgCan c, shp .slt] := by
  intro e
  obtain ⟨a1, a2, a3, -, -, a6, a7⟩ := attempted_shows d tdc hb hcan 2 lec
  have hhead : (d.attempted c b 2 lec tdc).get (pgCan c) CAN.RX_HEAD_IDX < 1024 := by
    rw [a7 _ (by simp)]
    exact he
  obtain ⟨s1, s2, s3, s4, s5, s6⟩ := sentOn_shows (d.attempted c b 2 lec tdc) sof hb hc ((d.canCh c).run.getD (d.canFrame c b)) hhead a2
  obtain ⟨f1, f2, f3⟩ := canFin_leaves ((d.attempted c b 2 lec tdc).sentOn c ((d.canCh c).run.getD (d.canFrame c b)) sof) (c := c) (by rw [s6, a6]; exact hcan)
  have hee : e = _ := canTxEnd_sent d sof tdc lec h ha
  rw [hee]
  refine ⟨settled_of_get hb s1 (fun _ _ => f2 ..) (f2 ..), (f2 ..).trans (s2.trans ?_), (f2 ..).trans s3, f3.trans (s4.trans a3),
    keeps_trans (keeps_mono a1 (by simp)) (keeps_trans s5 (keeps_mono f1 (by simp)))⟩
  rw [a7 _ (by simp)]

end

/-! ### A cancel and an acknowledgement -/

section
variable (d : Dev) {c b : Nat}

theorem canCancel_begun (h : ¬ (d.canPend c b = true ∧ (d.canCh c).begun ≠ some b)) : d.canCancel c b = d :=
  if_neg (by simpa [Bool.and_eq_true, decide_eq_true_eq] using h)

theorem canCancel_waiting (h : d.canPend c b = true ∧ (d.canCh c).begun ≠ some b) : d.canCancel c b = d.canEnd c b 5 0 0 :=
  if_pos (by simpa [Bool.and_eq_true, decide_eq_true_eq] using h)

theorem canAck_shows (n : Nat) : let e := d.canAck c n
    let own := d.get (pgCan c) CAN.RX_OWNED_N
    (if n > own then e.get (pgCan c) HDR.ERR_CODE = cRANGE ∧ e.get (pgCan c) CAN.RX_OWNED_N = own
     else e.get (pgCan c) CAN.RX_OWNED_N = (own - n) % 2 ^ 11 ∧ e.get (pgCan c) CAN.RX_TAIL_IDX = (d.get (pgCan c) CAN.RX_TAIL_IDX + n) % 2 ^ 10) ∧
      d.keeps e [pgCan c] := by
  intro e own
  by_cases h : n > own
  · have he : e = d.err (pgCan c) cRANGE := if_pos h
    rw [if_pos h, he]
    refine ⟨⟨?_, ?_⟩, (keeps_err_iff (by simp)).mpr (keeps_refl d _)⟩
    · simp (disch := decide) only [err, get_put_apart, get_put_same]
      decide
    · simp (disch := decide) only [err, bump, get_put_apart]
      rfl
  · have he : e = (d.put (pgCan c) CAN.RX_TAIL_IDX (d.get (pgCan c) CAN.RX_TAIL_IDX + n)).put (pgCan c) CAN.RX_OWNED_N (own - n) := if_neg h
    rw [if_neg h, he]
    refine ⟨⟨get_put_same _ _ _ _ _ _ (by decide), ?_⟩, ?_⟩
    · rw [get_put_apart _ _ (by decide) (by decide) (by decide) (by decide) (by decide) (by decide) (by decide)]
      exact get_put_same _ _ _ _ _ _ (by decide)
    · simp (disch := first | decide | simp) [keeps_put_iff]

end

end Dev

/-! ### The commands -/

section
variable {s : State} (hout : s.out = true) (c : Fin 4)
include hout

theorem txReq_exec (q : Fin 4) (b : Fin 32) : let k := 32 * q.val + b.val
    let bits := BitVec.ofNat 32 (2 ^ b.val)
    (s.dev.canSrc c k ≠ 0 → ∃ t, exec (.txReq c q bits) s = .next t ∧ t.pending = s.pending ∧ t.dev.get (pgCan c) HDR.ERR_CODE = cCAN_TX_OWNED ∧
      t.dev.canPend c k = s.dev.canPend c k ∧ s.dev.keeps t.dev [pgCan c]) ∧
    (s.dev.canSrc c k = 0 → s.dev.canPend c k = true → exec (.txReq c q bits) s = .next s) ∧
    (s.dev.canSrc c k = 0 → s.dev.canPend c k = false → s.dev.canHeaderOk c k = false → ∃ t, exec (.txReq c q bits) s = .next t ∧ t.pending = s.pending ∧
      t.dev.get (pgCan c) HDR.ERR_CODE = cRANGE ∧ t.dev.canPend c k = false ∧ s.dev.keeps t.dev [pgCan c]) ∧
    (s.dev.canSrc c k = 0 → s.dev.canPend c k = false → s.dev.canHeaderOk c k = true → ∃ t, exec (.txReq c q bits) s = .next t ∧ t.pending = s.pending ∧
      (match s.dev.canWhyNot c with
       | none => t.dev.canPend c k = true ∧ t.dev.get (pgCan c) CAN.TXB_ST_RESULT 0 k = 1
       | some w => t.dev.canPend c k = false ∧ t.dev.get (pgCan c) CAN.TXB_ST_RESULT 0 k = 6 ∧ t.dev.get (pgCan c) CAN.TXB_ST_WHY 0 k = w ∧
           bitN (t.dev.get (pgCan c) CAN.TX_FAIL_BITS q) b = 1) ∧ s.dev.keeps t.dev [pgCan c]) := by
  intro k bits
  have hk : k < 128 := by omega
  have hexec : exec (.txReq c q bits) s = .next { s with dev := s.dev.canReq c k } := next_of_out_eq hout rfl (Dev.canReqs_single s.dev q b)
  refine ⟨fun hs => ⟨_, hexec, rfl, Dev.canReq_owned s.dev hk hs⟩, fun hs hp => ?_, fun hs hp hh => ⟨_, hexec, rfl, Dev.canReq_bad s.dev hk hs hp hh⟩,
    fun hs hp hh => ?_⟩
  · rw [hexec, Dev.canReq_again s.dev hs hp]
  · obtain ⟨p1, p2⟩ := Dev.canPut_shows s.dev hk c.isLt
    have hq : k / 32 = q := by omega
    have hbb : k % 32 = b := by omega
    rw [hq, hbb] at p1
    refine ⟨_, hexec, rfl, ?_⟩
    rw [Dev.canReq_good s.dev hs hp hh]
    exact ⟨p1, p2⟩

theorem txCancel_exec (q : Fin 4) (b : Fin 32) : let k := 32 * q.val + b.val
    let bits := BitVec.ofNat 32 (2 ^ b.val)
    if s.dev.canPend c k = true ∧ (s.dev.canCh c).begun ≠ some k then
      ∃ t, exec (.txCancel c q bits) s = .next t ∧ t.pending = s.pending ∧ t.dev.canPend c k = false ∧ t.dev.get (pgCan c) CAN.TXB_ST_RESULT 0 k = 5 ∧
        bitN (t.dev.get (pgCan c) CAN.TX_DONE_BITS q) b = 1 ∧ s.dev.keeps t.dev [pgCan c]
    else exec (.txCancel c q bits) s = .next s := by
  intro k bits
  have hk : k < 128 := by omega
  have hq : k / 32 = q := by omega
  have hbb : k % 32 = b := by omega
  have hexec : exec (.txCancel c q bits) s = .next { s with dev := s.dev.canCancel c k } := next_of_out_eq hout rfl (Dev.canCancels_single s.dev q b)
  split
  case isTrue h =>
    obtain ⟨s1, s2, -, -, s5, -⟩ := Dev.canEnd_shows s.dev c 5 0 0 hk
    rw [hq, hbb] at s5
    refine ⟨_, hexec, rfl, ?_⟩
    rw [Dev.canCancel_waiting s.dev h]
    exact ⟨s1, s2, s5, Dev.keeps_canEnd s.dev c 5 0 0 hk⟩
  case isFalse h => rw [hexec, Dev.canCancel_begun s.dev h]

theorem canTxEnd_exec (hshape : s.dev.shaped = true) (k : Fin 128) (arb : Bool) (lec : BitVec 3) (sof : Sof) (tdc : Option (BitVec 7)) :
    (s.dev.canRuns c k = false → ∀ sent, exec (.canTxEnd c k sent arb lec sof tdc) s = .next s) ∧
    (s.dev.canRuns c k = true → (s.dev.canCh c).again = true → (s.dev.canCh c).begun.isSome = true → s.dev.canWhyNot c = none →
      ∃ t, exec (.canTxEnd c k false arb lec sof tdc) s = .next t ∧ t.pending = s.pending ∧ t.dev.canPend c k = true ∧
        t.dev.get (pgCan c) CAN.TXB_ST_RESULT 0 k = 1 ∧ (t.dev.canCh c).begun = none ∧ s.dev.keeps t.dev [pgCan c]) ∧
    (s.dev.canRuns c k = true → ((s.dev.canCh c).again = false ∨ (s.dev.canCh c).begun = none) → s.dev.get (pgCan c) CAN.RX_HEAD_IDX < 1024 →
      (∃ t, exec (.canTxEnd c k true arb lec sof tdc) s = .next t ∧ t.pending = s.pending ∧ t.dev.canPend c k = false ∧
        t.dev.get (pgCan c) CAN.TXB_ST_RESULT 0 k = 2 ∧ t.dev.get (pgCan c) CAN.ERRC_TEC = (s.dev.get (pgCan c) CAN.ERRC_TEC - 1) % 2 ^ 9 ∧
        t.dev.get (pgCan c) CAN.BUS_ACKRUN = 0 ∧ (t.dev.canCh c).begun = none ∧ s.dev.keeps t.dev [pgCan c, shp .slt]) ∧
      (∃ t, exec (.canTxEnd c k false arb lec sof tdc) s = .next t ∧ t.pending = s.pending ∧ t.dev.canPend c k = false ∧
        t.dev.get (pgCan c) CAN.TXB_ST_RESULT 0 k = (if arb then 3 else 4) ∧ t.dev.get (pgCan c) CAN.TXB_ST_LEC 0 k = (if arb then 0 else lec.toNat) ∧
        bitN (t.dev.get (pgCan c) CAN.TX_FAIL_BITS (k.val / 32)) (k.val % 32) = 1 ∧ (t.dev.canCh c).begun = none ∧ s.dev.keeps t.dev [pgCan c])) := by
  have hcan := can_of_shaped hshape c
  have hres : (if arb then 3 else 4 : Nat) ≠ 2 := by cases arb <;> decide
  have hlost : exec (.canTxEnd c k false arb lec sof tdc) s =
      .next { s with dev := s.dev.canTxEnd c k (if arb then 3 else 4) lec.toNat sof (tdc.map BitVec.toNat) } := next_of_out hout rfl
  refine ⟨fun h sent => ?_, fun h ha hb hw => ?_, fun h ha he => ⟨?_, ?_⟩⟩
  · exact next_of_out_eq hout rfl (Dev.canTxEnd_idle s.dev sof _ _ _ h)
  · obtain ⟨a1, a2, a3, a4⟩ := Dev.again_shows s.dev sof (tdc.map BitVec.toNat) k.isLt hcan c.isLt lec.toNat hres h (by rw [ha, hb]; rfl) hw
    exact ⟨_, hlost, rfl, a1, a2, a3, a4⟩
  · obtain ⟨⟨a1, a2⟩, a3, a4, a5, a6⟩ := Dev.sent_shows s.dev sof (tdc.map BitVec.toNat) k.isLt hcan c.isLt lec.toNat he h
      (by rcases ha with ha | ha <;> simp [ha])
    exact ⟨_, next_of_out hout rfl, rfl, a1, a2, a3, a4, a5, a6⟩
  · obtain ⟨⟨a1, a2⟩, a3, a4, a5, a6⟩ := Dev.lost_shows s.dev sof (tdc.map BitVec.toNat) k.isLt hcan lec.toNat hres h (by rcases ha with ha | ha <;> simp [ha])
    have hl : lec.toNat < 8 := lec.isLt
    refine ⟨_, hlost, rfl, a1, a2.trans ?_, a3.trans ?_, a4, a5, a6⟩
    · cases arb <;> rfl
    · cases arb
      · exact Nat.mod_eq_of_lt hl
      · rfl

theorem canRxFrame_exec (id : BitVec 29) (ide fdf brs rtr esi : Bool) (dlc : BitVec 4) (data : List (BitVec 8)) (sof : Sof) :
    let i : Instr := .canRxFrame c id ide fdf brs rtr esi dlc data sof
    let ts := (s.dev.now + 2 ^ 64 - sof.ago.toNat) % 2 ^ 64
    let e := s.dev.get (pgCan c) CAN.RX_HEAD_IDX
    let n := s.dev.get (pgCan c) CAN.RX_OWNED_N
    (s.dev.canLive c = false → exec i s = .next s) ∧
    (s.dev.canLive c = true → e < 1024 → s.dev.safRun = false ∨ Dev.tapStn s.dev.blk c (id.toNat + ide.toNat * 2 ^ 31) = none →
      ∃ t, exec i s = .next t ∧ t.pending = s.pending ∧ t.dev.memories = s.dev.memories ∧ t.dev.get (pgCan c) CAN.BUS_ACKRUN = 0 ∧
        (n < 1024 → t.dev.get (pgCan c) CAN.RX_OWNED_N = n + 1 ∧ t.dev.get (pgCan c) CAN.RX_HEAD_IDX = (e + 1) % 1024 ∧
          t.dev.get (pgCan c) CAN.RXE_W 0 e = id.toNat + ide.toNat * 2 ^ 29 + fdf.toNat * 2 ^ 30 + brs.toNat * 2 ^ 31 ∧
          t.dev.get (pgCan c) CAN.RXE_W 1 e = dlc.toNat + rtr.toNat * 2 ^ 4 + esi.toNat * 2 ^ 5 + dlcBytes fdf rtr dlc.toNat * 2 ^ 8 + sof.sub.toNat * 2 ^ 20 ∧
          t.dev.get (pgCan c) CAN.RXE_W 2 e = ts % 2 ^ 32 ∧ t.dev.get (pgCan c) CAN.RXE_W 3 e = ts / 2 ^ 32) ∧
        (n ≥ 1024 → t.dev.get (pgCan c) CAN.RX_OWNED_N = n ∧ t.dev.get (pgCan c) HDR.ERR_CODE = cCAN_RX_DROP)) := by
  intro i ts e n
  obtain ⟨f, hf⟩ : ∃ f : Frame, f = ⟨id.toNat, ide, fdf, brs, dlc.toNat, rtr, esi, data.map BitVec.toNat⟩ := ⟨_, rfl⟩
  have hexec : exec i s = .next { s with dev := s.dev.canReceive c f sof } := by
    rw [hf]
    exact next_of_out hout rfl
  refine ⟨fun h => by rw [hexec, Dev.canReceive_dead f sof h], fun h he hsafe => ?_⟩
  obtain ⟨h1, h2, h3, h4⟩ := Dev.canReceive_shows c.isLt f sof h he (by rw [hf]; exact hsafe)
  refine ⟨_, hexec, rfl, h1, h2, fun hn => ?_, h4⟩
  obtain ⟨q1, q2, q3⟩ := h3 hn
  have hid : id.toNat < 2 ^ 29 := id.isLt
  have hdlc : dlc.toNat < 16 := dlc.isLt
  have hsub : sof.sub.toNat < 2 ^ 12 := sof.sub.isLt
  have hts : ts < 2 ^ 64 := Nat.mod_lt _ (by decide)
  have hbit (b : Bool) : b.toNat ≤ 1 := Bool.toNat_le b
  have hlen : dlcBytes fdf rtr dlc.toNat ≤ 64 := by
    unfold dlcBytes
    split_ifs <;> omega
  have hb1 := hbit ide
  have hb2 := hbit fdf
  have hb3 := hbit brs
  have hb4 := hbit rtr
  have hb5 := hbit esi
  obtain ⟨w0, w1, w2, w3⟩ := Dev.rxWords_first s.dev f false sof
  have hflen : f.len = dlcBytes fdf rtr dlc.toNat := by rw [hf, Frame.len]
  have hfalse : false.toNat = 0 := rfl
  refine ⟨q1, q2, (q3 0 (by decide)).trans ?_, (q3 1 (by decide)).trans ?_, (q3 2 (by decide)).trans ?_, (q3 3 (by decide)).trans ?_⟩
  · rw [w0, hf]
    dsimp only
    exact Nat.mod_eq_of_lt (by omega)
  · rw [w1, hflen, hf, hfalse]
    dsimp only
    rw [Nat.mod_eq_of_lt (by omega)]
    omega
  · rw [w2]
    exact Nat.mod_mod _ _
  · rw [w3]
    exact Nat.mod_eq_of_lt (by omega)

end

/-- Settles O46, one rule for each command: a request, a cancel, the end of an attempt, a frame from the bus and an acknowledgement. -/
theorem canFramesAreSentAndQueued : Obligations.CanFramesAreSentAndQueued := by
  unfold Obligations.CanFramesAreSentAndQueued
  intro s c hout hshape
  refine ⟨fun q b => ?_, canTxEnd_exec hout c hshape, canRxFrame_exec hout c, fun n => ?_⟩
  · obtain ⟨h1, h2, h3, h4⟩ := txReq_exec hout c q b
    exact ⟨h1, h2, h3, h4, txCancel_exec hout c q b⟩
  · obtain ⟨h1, h2⟩ := Dev.canAck_shows s.dev (c := c.val) n.toNat
    exact ⟨_, next_of_out hout rfl, rfl, h1, h2⟩

end Sys2Proof.Machine
end

section
/-! PROOFS. Safe inputs, test pulse windows and the faults of pairs (O34). -/
namespace Sys2Proof.Machine

open Sys2Proof

/-- A fold reaches what one of its steps brings about, where every step keeps it. -/
theorem foldl_reach {α β : Type} {f : β → α → β} {P Q : β → Prop} {x : α} : ∀ (l : List α) (b : β), (∀ b, ∀ y ∈ l, Q b → Q (f b y)) →
    (∀ b, ∀ y ∈ l, P b → P (f b y)) → x ∈ l → (∀ b, Q b → P (f b x)) → Q b → P (l.foldl f b)
  | [], _, _, _, hx, _, _ => absurd hx List.not_mem_nil
  | y :: l, b, hQ, hP, hx, hgo, hq => by
    rw [List.foldl_cons]
    rcases List.mem_cons.mp hx with rfl | hx
    · exact Dev.foldl_keep l _ (fun b z hz => hP b z (List.mem_cons_of_mem _ hz)) (hgo b hq)
    · exact foldl_reach l _ (fun b z hz => hQ b z (List.mem_cons_of_mem _ hz)) (fun b z hz => hP b z (List.mem_cons_of_mem _ hz)) hx hgo
        (hQ b y List.mem_cons_self hq)

namespace Dev

/-! ### One bit of a register -/

section
variable (d : Dev) (p : Nat) (f : Fld) {k : Nat} (b : Bool) (i t : Nat) (hw : f.w ≤ 32)
include hw

theorem bit_putBit_same (hk : k < f.w) : bitN ((d.putBit p f k b i t).get p f i t) k = b.toNat := by
  rw [putBit, get_put_same _ _ _ _ _ _ hw, bitN_eq_testBit, Nat.testBit_mod_two_pow, testBit_setBitN]
  simp [hk]

theorem bit_putBit_other {j : Nat} (hj : j < f.w) (hjk : j ≠ k) : bitN ((d.putBit p f k b i t).get p f i t) j = bitN (d.get p f i t) j := by
  rw [putBit, get_put_same _ _ _ _ _ _ hw, bitN_eq_testBit, bitN_eq_testBit, Nat.testBit_mod_two_pow, testBit_setBitN]
  simp [hj, hjk]

end

@[simp] theorem saf_put (d : Dev) (p : Nat) (f : Fld) (v i t : Nat) : (d.put p f v i t).saf = d.saf := rfl
@[simp] theorem saf_err (d : Dev) (p c x : Nat) : (d.err p c x).saf = d.saf := rfl
@[simp] theorem saf_note (d : Dev) (p cls code x : Nat) (ws : List Nat) : (d.note p cls code x ws).saf = d.saf := post_saf ..

/-! ### What the fault of a pair leaves -/

/-- The registers that a fault of a pair reads and leaves. -/
def faultReads : List (Nat × Fld) :=
  [(shp .ths, THS.TP_LVL), (shp .ths, THS.TP_OVL), (shp .ths, THS.TP_BLANK), (shp .ths, THS.MODE_BLOCK_OK), (shp .sfc, SFC.STATE_CODE), (shp .sfc, SFC.STATE_MODE)]

/-- A part that differs from another in faults of pairs and their records, and in no register that decides of them. -/
structure FaultsOnly (ps : List Nat) (d e : Dev) : Prop where
  keeps : d.keeps e ps
  active : e.saf.active = d.saf.active
  reads : ∀ x ∈ faultReads, e.get x.1 x.2 = d.get x.1 x.2
  thKept : ∀ p < 8, d.thFlt p = true → e.thFlt p = true
  spKept : ∀ p < 8, d.spFlt p = true → e.spFlt p = true

namespace FaultsOnly

variable {ps : List Nat} {d e x : Dev}

theorem refl (ps : List Nat) (d : Dev) : FaultsOnly ps d d := ⟨keeps_refl d ps, rfl, fun _ _ => rfl, fun _ _ h => h, fun _ _ h => h⟩

theorem trans (h : FaultsOnly ps d e) (g : FaultsOnly ps e x) : FaultsOnly ps d x :=
  ⟨keeps_trans h.keeps g.keeps, g.active.trans h.active, fun y hy => (g.reads y hy).trans (h.reads y hy), fun p hp hf => g.thKept p hp (h.thKept p hp hf),
    fun p hp hf => g.spKept p hp (h.spKept p hp hf)⟩

theorem blk (h : FaultsOnly ps d e) : e.blk = d.blk := by rw [Dev.blk, Dev.blk, h.active]

theorem pairUsed (h : FaultsOnly ps d e) (p : Nat) : e.pairUsed p = d.pairUsed p := by rw [Dev.pairUsed, Dev.pairUsed, h.blk]

theorem native (h : FaultsOnly ps d e) : e.native = d.native := by rw [Dev.native, Dev.native, h.reads (shp .sfc, SFC.STATE_MODE) (by simp [faultReads])]

theorem safRun (h : FaultsOnly ps d e) : e.safRun = d.safRun := by rw [Dev.safRun, Dev.safRun, h.reads (shp .sfc, SFC.STATE_CODE) (by simp [faultReads])]

theorem thOn (h : FaultsOnly ps d e) : e.thOn = d.thOn := by
  rw [Dev.thOn, Dev.thOn, h.native, Dev.on, Dev.on, h.reads (shp .ths, THS.MODE_BLOCK_OK) (by simp [faultReads])]

theorem fedBy (h : FaultsOnly ps d e) (k : Nat) : e.fedBy k = d.fedBy k := by
  rw [Dev.fedBy, Dev.fedBy, h.blk]
  simp only [h.pairUsed]

theorem foldl {α : Type} {f : Dev → α → Dev} : ∀ (l : List α) (d : Dev), (∀ d, ∀ y ∈ l, FaultsOnly ps d (f d y)) → FaultsOnly ps d (l.foldl f d)
  | [], d, _ => refl ps d
  | y :: l, d, hf => (hf d y List.mem_cons_self).trans (foldl l _ fun d z hz => hf d z (List.mem_cons_of_mem _ hz))

theorem modSaf (g : Saf → Saf) (hg : (g d.saf).active = d.saf.active) : FaultsOnly ps d (d.modSaf g) :=
  ⟨keeps_refl d ps, hg, fun _ _ => rfl, fun _ _ h => h, fun _ _ h => h⟩

/-- An event that counts in a pair's `DIAG`. -/
theorem bump {f : Fld} (hf : f ∈ [SIO.PR_DIAG_DISC, SIO.PR_DIAG_STUCK, SIO.PR_DIAG_CROSS]) (hps : shp .sio ∈ ps) {p : Nat} (hp : p < 8) :
    FaultsOnly ps d (d.bump (shp .sio) f p) := by
  have hff : f.fits = true ∧ f.cnt = 8 := by fin_cases hf <;> decide
  have hi : p < f.cnt := hff.2 ▸ hp
  have hget {q : Nat} {g : Fld} (hq : shp .sio ≠ q) (hg : g.fits = true) (hgc : 0 < g.cnt) : (d.bump (shp .sio) f p).get q g = d.get q g :=
    get_put_other _ _ hq hff.1 hg hi hgc (by decide) (by decide)
  refine ⟨(keeps_put_iff hps hff.1 hi (by decide)).mpr (keeps_refl d ps), rfl, fun y hy => ?_, fun q hq h => ?_, fun q hq h => ?_⟩
  · fin_cases hy <;> exact hget (by decide) (by decide) (by decide)
  · rwa [thFlt, hget (by decide) (by decide) (by decide)]
  · rwa [spFlt, hget (by decide) (by decide) (by decide)]

end FaultsOnly

/-- The counts of the events of a pair. -/
def diagBump (d : Dev) (p code : Nat) : Dev :=
  if code == cDISCREPANCY then d.bump (shp .sio) SIO.PR_DIAG_DISC p else if code == cTP_STUCK then d.bump (shp .sio) SIO.PR_DIAG_STUCK p
  else if code == cTP_CROSS then d.bump (shp .sio) SIO.PR_DIAG_CROSS p else d

/-- A fault of a pair is latched and recorded once. -/
def latchFault (d : Dev) (q : Nat) (f : Fld) (p code : Nat) : Dev :=
  if bitN (d.get q f) p == 1 then d else ((d.putBit q f p true).err q code p).safNote q code p

theorem faultTh_eq (d : Dev) (p code : Nat) : d.faultTh p code =
    if d.thOn && d.pairUsed p then ((d.markBad p).diagBump p code).latchFault (shp .ths) THS.IN_PAIR_FLT p code else d := rfl

theorem faultSp_eq (d : Dev) (p code : Nat) : d.faultSp p code =
    if d.safRun && d.pairUsed p then
      (if d.native then d.markBad p else (d.markBad p).diagBump p code).latchFault (shp .sfc) SFC.STOPS_PAIR_FLT p code
    else d := rfl

section
variable {ps : List Nat} (d : Dev) {p : Nat} (code : Nat)

theorem latchFault_bit {q : Nat} {f : Fld} (hx : (q, f) ∈ [(shp .ths, THS.IN_PAIR_FLT), (shp .sfc, SFC.STOPS_PAIR_FLT)]) (hp : p < 8) :
    bitN ((d.latchFault q f p code).get q f) p = 1 := by
  have hw : f.w ≤ 32 ∧ f.w = 8 ∧ q ≠ shp .slt ∧ f.fits = true ∧ 0 < f.cnt ∧ (∀ g ∈ errFields, g.apart f = true) := by fin_cases hx <;> decide
  obtain ⟨hw, hw8, hq, hf, hc, ha⟩ := hw
  unfold latchFault
  split
  case isTrue h => exact beq_iff_eq.mp h
  case isFalse =>
    rw [safNote, get_note_other _ _ _ _ _ hq hf hc (by decide), get_err_apart _ _ _ ha hf hc (by decide)]
    exact bit_putBit_same _ _ _ _ _ _ hw (hw8 ▸ hp)

theorem latchFault_only {q : Nat} {f : Fld} (hx : (q, f) ∈ [(shp .ths, THS.IN_PAIR_FLT), (shp .sfc, SFC.STOPS_PAIR_FLT)]) (hp : p < 8) (hq : q ∈ ps) (hslt : shp .slt ∈ ps) :
    FaultsOnly ps d (d.latchFault q f p code) := by
  have hw : f.w ≤ 32 ∧ f.w = 8 ∧ q ≠ shp .slt ∧ f.fits = true ∧ 0 < f.cnt := by fin_cases hx <;> decide
  obtain ⟨hw, hw8, hqs, hf, hc⟩ := hw
  unfold latchFault
  split
  case isTrue => exact FaultsOnly.refl ps d
  case isFalse =>
    have hget {r : Nat} {g : Fld} (hr : r ≠ shp .slt) (ha : ∀ x ∈ errFields, x.apart g = true) (hfg : r ≠ q ∨ f.apart g = true) (hg : g.fits = true) (hgc : 0 < g.cnt) :
        (((d.putBit q f p true).err q code p).safNote q code p).get r g = d.get r g := by
      rw [safNote, get_note_other _ _ _ _ _ hr hg hgc (by decide), get_err_apart _ _ _ ha hg hgc (by decide), putBit]
      rcases hfg with h | h
      · exact get_put_other _ _ h.symm hf hg hc hgc (by decide) (by decide)
      · exact get_put_field _ _ h hf hg hc hgc (by decide) (by decide)
    have hsame : ∀ j < 8, bitN (d.get q f) j = 1 → bitN ((((d.putBit q f p true).err q code p).safNote q code p).get q f) j = 1 := fun j hj h => by
      have ha : ∀ x ∈ errFields, x.apart f = true := by fin_cases hx <;> decide
      rw [safNote, get_note_other _ _ _ _ _ hqs hf hc (by decide), get_err_apart _ _ _ ha hf hc (by decide)]
      by_cases hjp : j = p
      · rw [hjp]
        exact bit_putBit_same _ _ _ _ _ _ hw (hw8 ▸ hp)
      · rw [bit_putBit_other _ _ _ _ _ _ hw (hw8 ▸ hj) hjp, h]
    refine ⟨?_, by rw [safNote, saf_note]; rfl, fun y hy => ?_, fun j hj h => ?_, fun j hj h => ?_⟩
    · rw [safNote, keeps_note_iff hslt, keeps_err_iff hq, putBit, keeps_put_iff hq hf hc (by decide)]
      exact keeps_refl d ps
    · fin_cases hx <;> fin_cases hy <;> exact hget (by decide) (by decide) (by decide) (by decide) (by decide)
    · have h' : bitN (d.get (shp .ths) THS.IN_PAIR_FLT) j = 1 := beq_iff_eq.mp h
      refine beq_iff_eq.mpr ?_
      fin_cases hx
      · exact hsame j hj h'
      · rw [hget (by decide) (by decide) (by decide) (by decide) (by decide)]
        exact h'
    · have h' : bitN (d.get (shp .sfc) SFC.STOPS_PAIR_FLT) j = 1 := beq_iff_eq.mp h
      refine beq_iff_eq.mpr ?_
      fin_cases hx
      · rw [hget (by decide) (by decide) (by decide) (by decide) (by decide)]
        exact h'
      · exact hsame j hj h'

theorem diagBump_only (hp : p < 8) (hsio : shp .sio ∈ ps) : FaultsOnly ps d (d.diagBump p code) := by
  unfold diagBump
  split_ifs
  · exact FaultsOnly.bump (by decide) hsio hp
  · exact FaultsOnly.bump (by decide) hsio hp
  · exact FaultsOnly.bump (by decide) hsio hp
  · exact FaultsOnly.refl ps d

theorem faultTh_only (hp : p < 8) (h1 : shp .ths ∈ ps) (h2 : shp .sio ∈ ps) (h3 : shp .slt ∈ ps) : FaultsOnly ps d (d.faultTh p code) := by
  rw [faultTh_eq]
  split
  · exact (FaultsOnly.modSaf _ rfl).trans ((diagBump_only _ code hp h2).trans (latchFault_only _ code (by decide) hp h1 h3))
  · exact FaultsOnly.refl ps d

theorem faultSp_only (hp : p < 8) (h1 : shp .sfc ∈ ps) (h2 : shp .sio ∈ ps) (h3 : shp .slt ∈ ps) : FaultsOnly ps d (d.faultSp p code) := by
  rw [faultSp_eq]
  split
  · refine FaultsOnly.trans ?_ (latchFault_only _ code (by decide) hp h1 h3)
    split
    · exact FaultsOnly.modSaf _ rfl
    · exact (FaultsOnly.modSaf _ rfl).trans (diagBump_only _ code hp h2)
  · exact FaultsOnly.refl ps d

theorem faultTh_latches (hp : p < 8) (hon : d.thOn = true) (hused : d.pairUsed p = true) : (d.faultTh p code).thFlt p = true := by
  rw [faultTh_eq, hon, hused]
  exact beq_iff_eq.mpr (latchFault_bit _ code (by decide) hp)

theorem faultSp_latches (hp : p < 8) (hon : d.safRun = true) (hused : d.pairUsed p = true) : (d.faultSp p code).spFlt p = true := by
  rw [faultSp_eq, hon, hused]
  exact beq_iff_eq.mpr (latchFault_bit _ code (by decide) hp)

end

/-! ### A level -/

/-- The demand of the pairs is one register, apart from the levels and the windows. -/
theorem showDem_leaves (d : Dev) : d.keeps d.showDem [shp .ths] ∧ d.showDem.saf = d.saf ∧
    ∀ (q : Nat) (f : Fld), THS.IN_PAIR_ACT.apart f = true → f.fits = true → 0 < f.cnt → d.showDem.get q f = d.get q f := by
  unfold showDem
  refine ⟨?_, ?_, fun q f ha hf hc => ?_⟩
  · split <;> exact (keeps_put_iff (by simp) (by decide) (by decide) (by decide)).mpr (keeps_refl d _)
  · split <;> rfl
  · split <;> exact get_put_field _ _ ha (by decide) hf (by decide) hc (by decide) (by decide)

theorem safeInput_shows (d : Dev) {ch : Nat} (hch : ch < 16) (level : Bool) : let e := d.safeInput ch level
    bitN (e.get (shp .ths) THS.IN_CH) ch = level.toNat ∧
    (∀ c < 16, c ≠ ch → bitN (e.get (shp .ths) THS.IN_CH) c = bitN (d.get (shp .ths) THS.IN_CH) c) ∧
    e.saf.thLvl = (if d.blanked ch then d.saf.thLvl else setBitN d.saf.thLvl ch level) ∧ d.keeps e [shp .ths] := by
  intro e
  obtain ⟨m, hm⟩ : ∃ m, m = if d.blanked ch then d.putBit (shp .ths) THS.IN_CH ch level
    else (d.putBit (shp .ths) THS.IN_CH ch level).modSaf (fun s => { s with thLvl := setBitN s.thLvl ch level }) := ⟨_, rfl⟩
  have he : e = m.showDem := by
    rw [hm]
    rfl
  have hget : m.get (shp .ths) THS.IN_CH = (d.putBit (shp .ths) THS.IN_CH ch level).get (shp .ths) THS.IN_CH := by
    rw [hm]
    split <;> rfl
  have hk : d.keeps m [shp .ths] := by
    have h : d.keeps (d.putBit (shp .ths) THS.IN_CH ch level) [shp .ths] :=
      (keeps_put_iff (by simp) (by decide) (by decide) (by decide)).mpr (keeps_refl d _)
    rw [hm]
    split <;> exact h
  obtain ⟨s1, s2, s3⟩ := showDem_leaves m
  have hch' : e.get (shp .ths) THS.IN_CH = (d.putBit (shp .ths) THS.IN_CH ch level).get (shp .ths) THS.IN_CH := by
    rw [he, s3 _ _ (by decide) (by decide) (by decide), hget]
  refine ⟨?_, fun c hc hne => ?_, ?_, ?_⟩
  · rw [hch']
    exact bit_putBit_same _ _ _ _ _ _ (by decide) hch
  · rw [hch']
    exact bit_putBit_other _ _ _ _ _ _ (by decide) hc hne
  · rw [he, s2, hm]
    split <;> rfl
  · rw [he]
    exact keeps_trans hk s1

/-! ### Windows of the test pulses -/

section
variable {d : Dev} {k : Nat}

theorem fedBy_mem {c : Nat} (hc : c ∈ d.fedBy k) : c < 16 ∧ d.pairUsed (c / 2) = true := by
  obtain ⟨h1, h2⟩ := List.mem_filter.mp hc
  exact ⟨List.mem_range.mp h1, (Bool.and_eq_true_iff.mp h2).1⟩

variable (hk : k < 4) (hrun : d.safRun = true)
include hk hrun

theorem tpStart_shows (hw : bkTpW d.blk k ≠ 0) : let e := d.tpStart k
    bitN (e.get (shp .ths) THS.TP_LVL) k = 0 ∧ bitN (e.get (shp .ths) THS.TP_BLANK) k = 1 ∧ d.keeps e [shp .ths] := by
  intro e
  have he : e = ((d.putBit (shp .ths) THS.TP_LVL k false).putBit (shp .ths) THS.TP_BLANK k true).modSaf (fun s => { s with lowIn := lset s.lowIn k 0 }) :=
    if_pos (by simp [hrun, hw])
  have hput (d : Dev) (b : Bool) : (d.putBit (shp .ths) THS.TP_BLANK k b).get (shp .ths) THS.TP_LVL = d.get (shp .ths) THS.TP_LVL :=
    get_put_apart _ _ (by decide) (by decide) (by decide) (by decide) (by decide) (by decide) (by decide)
  rw [he]
  refine ⟨?_, ?_, ?_⟩
  · rw [get_modSaf, hput]
    exact bit_putBit_same _ _ _ _ _ _ (by decide) hk
  · rw [get_modSaf]
    exact bit_putBit_same _ _ _ _ _ _ (by decide) hk
  · rw [keeps_modSaf_iff]
    simp (disch := first | decide | simp) [putBit, keeps_put_iff]

/-- The window and its blanking end. -/
def windowOver (d : Dev) (k : Nat) : Dev :=
  ((d.putBit (shp .ths) THS.TP_LVL k true).putBit (shp .ths) THS.TP_BLANK k false).putBit (shp .ths) THS.TP_OVL k false

omit hrun in
theorem windowOver_shows : bitN ((d.windowOver k).get (shp .ths) THS.TP_LVL) k = 1 ∧ bitN ((d.windowOver k).get (shp .ths) THS.TP_BLANK) k = 0 ∧
    d.keeps (d.windowOver k) [shp .ths] ∧ (d.windowOver k).saf = d.saf ∧ (d.windowOver k).thOn = d.thOn ∧ (d.windowOver k).safRun = d.safRun := by
  have hput (d : Dev) {f g : Fld} (b : Bool) (h : f.apart g = true ∧ f.fits = true ∧ g.fits = true ∧ 0 < f.cnt ∧ 0 < g.cnt) :
      (d.putBit (shp .ths) f k b).get (shp .ths) g = d.get (shp .ths) g :=
    get_put_apart _ _ h.1 h.2.1 h.2.2.1 h.2.2.2.1 h.2.2.2.2 (by decide) (by decide)
  refine ⟨?_, ?_, ?_, rfl, ?_, ?_⟩
  · rw [windowOver, hput _ _ (by decide), hput _ _ (by decide)]
    exact bit_putBit_same _ _ _ _ _ _ (by decide) hk
  · rw [windowOver, hput _ _ (by decide)]
    exact bit_putBit_same _ _ _ _ _ _ (by decide) hk
  · simp (disch := first | decide | simp) [windowOver, putBit, keeps_put_iff]
  · simp (disch := decide) only [windowOver, putBit, thOn, native, on, get_put_apart, get_put_other]
  · simp (disch := decide) only [windowOver, putBit, safRun, get_put_other]

/-- The faults found in a window: the levels of its channels are handed on, a channel that read high is stuck, one of another line that read low is crossed. -/
def levelsBack (ch k : Nat) (d : Dev) : Dev := (d.fedBy k).foldl (fun d c => d.modSaf (fun s => { s with thLvl := setBitN s.thLvl c (bitN ch c == 1) })) d

def stuckFaults (high k : Nat) (d : Dev) : Dev := (d.fedBy k).foldl (fun d c => if bitN high c == 1 then d.faultTh (c / 2) cTP_STUCK else d) d

def crossFaults (low k : Nat) (d : Dev) : Dev := (List.range 16).foldl (fun d c =>
  if d.pairUsed (c / 2) && decide (bkFeed d.blk c < 4) && bkFeed d.blk c != k && bitN low c == 1 then d.faultTh (c / 2) cTP_CROSS else d) d

omit hk in
theorem tpEnd_eq (hw : bkTpW d.blk k ≠ 0) (high low : Nat) :
    d.tpEnd k high low = ((((d.windowOver k).levelsBack (d.get (shp .ths) THS.IN_CH) k).stuckFaults high k).crossFaults low k).showDem :=
  if_pos (by simp [hrun, hw])

omit hk hrun in
theorem levelsBack_only (ps : List Nat) (d : Dev) (ch k : Nat) : FaultsOnly ps d (d.levelsBack ch k) :=
  FaultsOnly.foldl _ d fun _ _ _ => FaultsOnly.modSaf _ rfl

omit hk hrun in
theorem faultStep_only (d : Dev) {c : Nat} (hc : c < 16) (code : Nat) (b : Bool) :
    FaultsOnly [shp .ths, shp .sio, shp .slt] d (if b then d.faultTh (c / 2) code else d) := by
  cases b
  · exact FaultsOnly.refl _ d
  · exact faultTh_only d code (by omega) (by simp) (by simp) (by simp)

omit hk hrun in
theorem stuckFaults_only (d : Dev) (high k : Nat) : FaultsOnly [shp .ths, shp .sio, shp .slt] d (d.stuckFaults high k) :=
  FaultsOnly.foldl _ d fun e _ hc => faultStep_only e (fedBy_mem hc).1 _ _

omit hk hrun in
theorem crossFaults_only (d : Dev) (low k : Nat) : FaultsOnly [shp .ths, shp .sio, shp .slt] d (d.crossFaults low k) :=
  FaultsOnly.foldl _ d fun e _ hc => faultStep_only e (List.mem_range.mp hc) _ _

omit hk hrun in
/-- A channel that read high in its window is stuck. -/
theorem stuckFaults_flt (d : Dev) {high c : Nat} (hc : c ∈ d.fedBy k) (hhigh : bitN high c = 1) (hon : d.thOn = true) :
    (d.stuckFaults high k).thFlt (c / 2) = true := by
  obtain ⟨hc16, hused⟩ := fedBy_mem hc
  refine foldl_reach (P := fun e : Dev => e.thFlt (c / 2) = true) (Q := fun e => FaultsOnly [shp .ths, shp .sio, shp .slt] d e) (x := c) _ d
    (fun e y hy hq => hq.trans (faultStep_only e (fedBy_mem hy).1 _ _)) (fun e y hy hp => (faultStep_only e (fedBy_mem hy).1 _ _).thKept _ (by omega) hp) hc
    (fun e hq => ?_) (FaultsOnly.refl _ d)
  rw [if_pos (beq_iff_eq.mpr hhigh)]
  exact faultTh_latches e _ (by omega) (hq.thOn.trans hon) ((hq.pairUsed _).trans hused)

theorem tpEnd_shows (hw : bkTpW d.blk k ≠ 0) (high low : Nat) : let e := d.tpEnd k high low
    bitN (e.get (shp .ths) THS.TP_LVL) k = 1 ∧ bitN (e.get (shp .ths) THS.TP_BLANK) k = 0 ∧
    (∀ c ∈ d.fedBy k, bitN high c = 1 → d.thOn = true → bitN (e.get (shp .ths) THS.IN_PAIR_FLT) (c / 2) = 1) ∧
    d.keeps e [shp .ths, shp .sio, shp .slt] := by
  intro e
  have he : e = _ := tpEnd_eq hrun hw high low
  obtain ⟨w1, w2, w3, w4, w5, -⟩ := windowOver_shows (d := d) hk
  obtain ⟨m0, hm0⟩ : ∃ m, m = (d.windowOver k).levelsBack (d.get (shp .ths) THS.IN_CH) k := ⟨_, rfl⟩
  obtain ⟨m, hm⟩ : ∃ m, m = (m0.stuckFaults high k).crossFaults low k := ⟨_, rfl⟩
  have h0 : FaultsOnly [shp .ths, shp .sio, shp .slt] (d.windowOver k) m0 := hm0 ▸ levelsBack_only _ (d.windowOver k) _ k
  have h1 : FaultsOnly [shp .ths, shp .sio, shp .slt] m0 m := hm ▸ (stuckFaults_only m0 high k).trans (crossFaults_only _ low k)
  have hall := h0.trans h1
  have hem : e = m.showDem := by rw [he, hm, hm0]
  obtain ⟨s1, s2, s3⟩ := showDem_leaves m
  have hfed : m0.fedBy k = d.fedBy k := by
    rw [h0.fedBy]
    simp only [fedBy, pairUsed, blk, w4]
  rw [hem]
  refine ⟨?_, ?_, fun c hc hhigh hon => ?_, ?_⟩
  · rw [s3 _ _ (by decide) (by decide) (by decide), hall.reads (shp .ths, THS.TP_LVL) (by simp [faultReads]), w1]
  · rw [s3 _ _ (by decide) (by decide) (by decide), hall.reads (shp .ths, THS.TP_BLANK) (by simp [faultReads]), w2]
  · rw [s3 _ _ (by decide) (by decide) (by decide)]
    have hc16 := (fedBy_mem hc).1
    have hflt := stuckFaults_flt m0 (hfed ▸ hc) hhigh (h0.thOn.trans (w5.trans hon))
    rw [hm]
    exact beq_iff_eq.mp ((crossFaults_only _ low k).thKept _ (by omega) hflt)
  · exact keeps_trans (keeps_mono w3 (by simp)) (keeps_trans hall.keeps (keeps_mono s1 (by simp)))

/-! ### An overload and a discrepancy -/

/-- The pages of the faults of pairs in both channels. -/
def faultPages : List Nat := [shp .ths, shp .sfc, shp .sio, shp .slt]

omit hk hrun in
theorem faultBoth_only (d : Dev) {p : Nat} (hp : p < 8) (code : Nat) : FaultsOnly faultPages d ((d.faultTh p code).faultSp p code) :=
  (faultTh_only d code hp (by simp [faultPages]) (by simp [faultPages]) (by simp [faultPages])).trans
    (faultSp_only _ code hp (by simp [faultPages]) (by simp [faultPages]) (by simp [faultPages]))

omit hk in
theorem faultBoth_latches {p : Nat} (hp : p < 8) (code : Nat) (hused : d.pairUsed p = true) :
    ((d.faultTh p code).faultSp p code).spFlt p = true ∧ (d.thOn = true → ((d.faultTh p code).faultSp p code).thFlt p = true) := by
  have h1 := faultTh_only (ps := faultPages) d code hp (by simp [faultPages]) (by simp [faultPages]) (by simp [faultPages])
  have h2 := faultSp_only (ps := faultPages) (d.faultTh p code) code hp (by simp [faultPages]) (by simp [faultPages]) (by simp [faultPages])
  exact ⟨faultSp_latches _ code hp (h1.safRun.trans hrun) ((h1.pairUsed p).trans hused),
    fun hon => h2.thKept p hp (faultTh_latches d code hp hon hused)⟩

theorem tpOverload_shows : let e := d.tpOverload k
    bitN (e.get (shp .ths) THS.TP_OVL) k = 1 ∧
    (∀ c ∈ d.fedBy k, bitN (e.get (shp .sfc) SFC.STOPS_PAIR_FLT) (c / 2) = 1 ∧ (d.thOn = true → bitN (e.get (shp .ths) THS.IN_PAIR_FLT) (c / 2) = 1)) ∧
    d.keeps e faultPages := by
  intro e
  obtain ⟨m, hm⟩ : ∃ m, m = (d.putBit (shp .ths) THS.TP_OVL k true).putBit (shp .ths) THS.TP_LVL k false := ⟨_, rfl⟩
  have he : e = (m.fedBy k).foldl (fun d c => (d.faultTh (c / 2) cTP_OVERLOAD).faultSp (c / 2) cTP_OVERLOAD) m := by
    rw [hm]
    exact if_pos hrun
  have hk0 : d.keeps m faultPages := by
    rw [hm]
    simp (disch := first | decide | simp [faultPages]) [putBit, keeps_put_iff]
  have hsaf : m.saf = d.saf := by
    rw [hm]
    rfl
  have hon : m.thOn = d.thOn := by
    simp (disch := decide) only [hm, putBit, thOn, native, on, get_put_apart, get_put_other]
  have hrun' : m.safRun = true := by
    rw [← hrun]
    simp (disch := decide) only [hm, putBit, safRun, get_put_other]
  have hfed : m.fedBy k = d.fedBy k := by simp only [fedBy, pairUsed, blk, hsaf]
  have hstep : ∀ e : Dev, ∀ c ∈ m.fedBy k, FaultsOnly faultPages e ((e.faultTh (c / 2) cTP_OVERLOAD).faultSp (c / 2) cTP_OVERLOAD) := fun e c hc =>
    faultBoth_only e (by have := (fedBy_mem hc).1; omega) _
  have hall : FaultsOnly faultPages m e := by
    rw [he]
    exact FaultsOnly.foldl _ m hstep
  refine ⟨?_, fun c hc => ?_, keeps_trans hk0 hall.keeps⟩
  · rw [hall.reads (shp .ths, THS.TP_OVL) (by simp [faultReads]), hm, putBit, get_put_apart _ _ (by decide) (by decide) (by decide) (by decide) (by decide) (by decide) (by decide)]
    exact bit_putBit_same _ _ _ _ _ _ (by decide) hk
  · have hc' : c ∈ m.fedBy k := hfed ▸ hc
    obtain ⟨hc16, hused⟩ := fedBy_mem hc'
    have hp : c / 2 < 8 := by omega
    have hreach : e.spFlt (c / 2) = true ∧ (d.thOn = true → e.thFlt (c / 2) = true) := by
      rw [he]
      refine foldl_reach (P := fun e : Dev => e.spFlt (c / 2) = true ∧ (d.thOn = true → e.thFlt (c / 2) = true)) (Q := fun e => FaultsOnly faultPages m e) (x := c) _ m
        (fun e y hy hq => hq.trans (hstep e y hy)) (fun e y hy hP => ⟨(hstep e y hy).spKept _ hp hP.1, fun h => (hstep e y hy).thKept _ hp (hP.2 h)⟩) hc'
        (fun e hq => ?_) (FaultsOnly.refl _ m)
      obtain ⟨l1, l2⟩ := faultBoth_latches (hq.safRun.trans hrun') hp cTP_OVERLOAD ((hq.pairUsed _).trans hused)
      exact ⟨l1, fun h => l2 (hq.thOn.trans (hon.trans h))⟩
    exact ⟨beq_iff_eq.mp hreach.1, fun h => beq_iff_eq.mp (hreach.2 h)⟩

omit hk hrun in
/-- The latch of a fault leaves the counts of events. -/
theorem latchFault_diag (d : Dev) {p : Nat} (hp : p < 8) (code : Nat) {q : Nat} {f : Fld} (hx : (q, f) ∈ [(shp .ths, THS.IN_PAIR_FLT), (shp .sfc, SFC.STOPS_PAIR_FLT)]) :
    (d.latchFault q f p code).get (shp .sio) SIO.PR_DIAG_DISC p = d.get (shp .sio) SIO.PR_DIAG_DISC p := by
  have hi : p < SIO.PR_DIAG_DISC.cnt := hp
  have hq : q ≠ shp .sio ∧ f.fits = true ∧ 0 < f.cnt := by fin_cases hx <;> decide
  unfold latchFault
  split
  · rfl
  · rw [safNote, get_note_other _ _ _ _ _ (by decide) (by decide) hi (by decide), get_err_other _ _ _ hq.1 (by decide) hi (by decide), putBit,
      get_put_other _ _ hq.1 hq.2.1 (by decide) hq.2.2 hi (by decide) (by decide)]

omit hk in
/-- A discrepancy counts once, and faults the pair in both channels. -/
theorem discrepancy_shows {p : Nat} (hp : p < 8) (hused : d.pairUsed p = true) (hon : d.thOn = true) :
    let e := (d.faultTh p cDISCREPANCY).faultSp p cDISCREPANCY
    bitN (e.get (shp .ths) THS.IN_PAIR_FLT) p = 1 ∧ bitN (e.get (shp .sfc) SFC.STOPS_PAIR_FLT) p = 1 ∧
    e.get (shp .sio) SIO.PR_DIAG_DISC p = satU SIO.PR_DIAG_DISC.w (d.get (shp .sio) SIO.PR_DIAG_DISC p + 1) % 2 ^ SIO.PR_DIAG_DISC.w ∧
    d.keeps e faultPages := by
  intro e
  obtain ⟨l1, l2⟩ := faultBoth_latches hrun hp cDISCREPANCY hused
  have h1 := faultTh_only (ps := faultPages) d cDISCREPANCY hp (by simp [faultPages]) (by simp [faultPages]) (by simp [faultPages])
  refine ⟨beq_iff_eq.mp (l2 hon), beq_iff_eq.mp l1, ?_, (faultBoth_only d hp _).keeps⟩
  have hnat : (d.faultTh p cDISCREPANCY).native = true := h1.native.trans (Bool.and_eq_true_iff.mp hon).2
  have hth : d.faultTh p cDISCREPANCY = ((d.markBad p).bump (shp .sio) SIO.PR_DIAG_DISC p).latchFault (shp .ths) THS.IN_PAIR_FLT p cDISCREPANCY := by
    rw [faultTh_eq, hon, hused]
    rfl
  have hsp : e = ((d.faultTh p cDISCREPANCY).markBad p).latchFault (shp .sfc) SFC.STOPS_PAIR_FLT p cDISCREPANCY := by
    show (d.faultTh p cDISCREPANCY).faultSp p cDISCREPANCY = _
    rw [faultSp_eq, h1.safRun.trans hrun, (h1.pairUsed p).trans hused, hnat]
    rfl
  rw [hsp, latchFault_diag _ hp _ (by decide), markBad, get_modSaf, hth, latchFault_diag _ hp _ (by decide), bump, get_put_same _ _ _ _ _ _ (by decide), markBad,
    get_modSaf]

end

end Dev

/-- Settles O34: a level on any part; windows, overloads and discrepancies of a safety region in RUN, whose faults move only what `FaultsOnly` names. -/
theorem safeInputsAndTestPulses : Obligations.SafeInputsAndTestPulses := by
  unfold Obligations.SafeInputsAndTestPulses
  intro s
  refine ⟨fun ch level => ?_, fun hout hrun => ⟨fun k hw => ⟨?_, fun high low => ?_⟩, fun k => ?_, fun p hused hon => ?_⟩⟩
  · obtain ⟨h1, h2, h3, h4⟩ := Dev.safeInput_shows s.dev ch.isLt level
    exact ⟨{ s with dev := s.dev.safeInput ch level }, rfl, rfl, h1, fun c hc => h2 c c.isLt fun h => hc (Fin.ext h), h3, h4⟩
  · obtain ⟨h1, h2, h3⟩ := Dev.tpStart_shows k.isLt hrun hw
    exact ⟨_, next_of_out hout rfl, rfl, h1, h2, h3⟩
  · obtain ⟨h1, h2, h3, h4⟩ := Dev.tpEnd_shows k.isLt hrun hw high.toNat low.toNat
    exact ⟨_, next_of_out hout rfl, rfl, h1, h2, h3, h4⟩
  · obtain ⟨h1, h2, h3⟩ := Dev.tpOverload_shows k.isLt hrun
    exact ⟨_, next_of_out hout rfl, rfl, h1, h2, h3⟩
  · obtain ⟨h1, h2, h3, h4⟩ := Dev.discrepancy_shows hrun p.isLt hused hon
    exact ⟨_, next_of_out hout rfl, rfl, h1, h2, h3, h4⟩

end Sys2Proof.Machine
end

section
/-! PROOFS. The frame of a command that writes some registers of some pages and posts records. -/
namespace Sys2Proof.Machine

open Sys2Proof

/-- A register that none of a list of registers overlaps. -/
def clearOf (ws : List (Nat × Fld)) (q : Nat) (f : Fld) : Bool := ws.all fun w => w.1 != q || w.2.apart f

/-- The registers of an error of a page. -/
def errWs (p : Nat) : List (Nat × Fld) := [(p, HDR.ERR_COUNT), (p, HDR.ERR_CODE), (p, HDR.ERR_DETAIL)]

/-- The register of a status bit of a page. -/
def statWs (p : Nat) : List (Nat × Fld) := [(p, HDR.STAT_BLOCK)]

namespace Dev

/-- A part that differs from another in the registers named and in what posted records leave, and in no byte of memory. -/
structure Within (ws : List (Nat × Fld)) (d e : Dev) : Prop where
  keeps : d.keeps e (shp .slt :: ws.map Prod.fst)
  get : ∀ (q : Nat) (f : Fld) (i t : Nat), q ≠ shp .slt → clearOf ws q f = true → f.fits = true → i < f.cnt → t < 65536 → e.get q f i t = d.get q f i t

namespace Within

variable {ws vs : List (Nat × Fld)} {d e x : Dev}

theorem refl (ws : List (Nat × Fld)) (d : Dev) : Within ws d d := ⟨keeps_refl d _, fun _ _ _ _ _ _ _ _ _ => rfl⟩

theorem trans (h : Within ws d e) (g : Within ws e x) : Within ws d x :=
  ⟨keeps_trans h.keeps g.keeps, fun q f i t hq hc hf hi ht => (g.get q f i t hq hc hf hi ht).trans (h.get q f i t hq hc hf hi ht)⟩

theorem mono (h : Within ws d e) (hs : ∀ w ∈ ws, w ∈ vs) : Within vs d e := by
  refine ⟨keeps_mono h.keeps fun p hp => ?_, fun q f i t hq hc hf hi ht => h.get q f i t hq ?_ hf hi ht⟩
  · rcases List.mem_cons.mp hp with rfl | hp
    · exact List.mem_cons_self
    · obtain ⟨w, hw, rfl⟩ := List.mem_map.mp hp
      exact List.mem_cons_of_mem _ (List.mem_map.mpr ⟨w, hs w hw, rfl⟩)
  · exact List.all_eq_true.mpr fun w hw => List.all_eq_true.mp hc w (hs w hw)

/-- What stands beside registers and memories may differ. -/
theorem same (h : Within ws d e) (hr : x.regs = e.regs) (hm : x.memories = e.memories) : Within ws d x := by
  refine ⟨⟨hm.trans h.keeps.1, fun k hk => by rw [hr]; exact h.keeps.2 k hk⟩, fun q f i t hq hc hf hi ht => ?_⟩
  rw [get_congr hr]
  exact h.get q f i t hq hc hf hi ht

theorem put (h : Within ws d e) {p : Nat} {f : Fld} (hm : (p, f) ∈ ws) (hf : f.fits = true) {i : Nat} (hi : i < f.cnt) (v : Nat) {t : Nat} (ht : t < 65536) :
    Within ws d (e.put p f v i t) := by
  have hp : p ∈ shp .slt :: ws.map Prod.fst := List.mem_cons_of_mem _ (List.mem_map.mpr ⟨(p, f), hm, rfl⟩)
  refine ⟨(keeps_put_iff hp hf hi ht).mpr h.keeps, fun q g j u hq hc hg hj hu => ?_⟩
  rw [← h.get q g j u hq hc hg hj hu]
  rcases Bool.or_eq_true_iff.mp (List.all_eq_true.mp hc _ hm) with hne | ha
  · exact get_put_other _ _ (by simpa using hne) hf hg hi hj ht hu
  · exact get_put_field _ _ ha hf hg hi hj ht hu

theorem post (h : Within ws d e) (r : Rec) : Within ws d (e.post r) :=
  ⟨(keeps_post_iff List.mem_cons_self).mpr h.keeps, fun q g j u hq hc hg hj hu => by rw [get_post_other _ _ hq hg hj hu, h.get q g j u hq hc hg hj hu]⟩

theorem note (h : Within ws d e) (p cls code det : Nat) (words : List Nat) : Within ws d (e.note p cls code det words) := h.post _

theorem err (h : Within ws d e) {p : Nat} (hm : ∀ w ∈ errWs p, w ∈ ws) (code det : Nat) : Within ws d (e.err p code det) :=
  ((h.put (hm (p, HDR.ERR_COUNT) (by simp [errWs])) (by decide) (by decide) _ (by decide)).put (hm (p, HDR.ERR_CODE) (by simp [errWs])) (by decide) (by decide) _ (by decide)).put
    (hm (p, HDR.ERR_DETAIL) (by simp [errWs])) (by decide) (by decide) _ (by decide)

theorem fault (h : Within ws d e) {p : Nat} (hm : ∀ w ∈ errWs p, w ∈ ws) (code det : Nat) (words : List Nat) : Within ws d (e.fault p code det words) :=
  (h.err hm code det).note ..

theorem stat (h : Within ws d e) {p : Nat} (hm : (p, HDR.STAT_BLOCK) ∈ ws) (k : Nat) : Within ws d (e.stat p k) :=
  h.put hm (by decide) (by decide) _ (by decide)

theorem ite {c : Prop} [Decidable c] (h : c → Within ws d e) (g : ¬ c → Within ws d x) : Within ws d (if c then e else x) := by
  split
  case isTrue hc => exact h hc
  case isFalse hc => exact g hc

theorem foldl {α : Type} {f : Dev → α → Dev} : ∀ (l : List α) (d : Dev), (∀ d, ∀ y ∈ l, Within ws d (f d y)) → Within ws d (l.foldl f d)
  | [], d, _ => refl ws d
  | y :: l, d, hf => (hf d y List.mem_cons_self).trans (foldl l _ fun d z hz => hf d z (List.mem_cons_of_mem _ hz))

theorem both {f : Dev → HalfId → Dev} (hf : ∀ d h, Within ws d (f d h)) : Within ws d (d.both f) := (hf d .a).trans (hf _ .b)

theorem modHalf (h : Within ws d e) (hh : HalfId) {g : Half → Half} (hg : ∀ x, (g x).sram = x.sram) : Within ws d (e.modHalf hh g) := by
  refine ⟨(keeps_modHalf_iff hg).mpr h.keeps, fun q f i t hq hc hf hi ht => ?_⟩
  rw [get_modHalf]
  exact h.get q f i t hq hc hf hi ht

theorem modMpg (h : Within ws d e) (hh : HalfId) (n : Nat) (g : Mpg → Mpg) : Within ws d (e.modMpg hh n g) := h.modHalf hh fun _ => rfl

theorem modSaf (h : Within ws d e) (g : Saf → Saf) : Within ws d (e.modSaf g) := h.same rfl rfl

theorem modSp (h : Within ws d e) (n : Nat) (g : SafCar → SafCar) : Within ws d (e.modSp n g) := h.same rfl rfl

theorem modTh (h : Within ws d e) (n : Nat) (g : ThCar → ThCar) : Within ws d (e.modTh n g) := h.same rfl rfl

/-- The frame over the pages of the registers. -/
theorem frame (h : Within ws d e) {ps : List Nat} (hs : shp .slt ∈ ps) (hp : ∀ w ∈ ws, w.1 ∈ ps) : d.keeps e ps := by
  refine keeps_mono h.keeps fun p hp' => ?_
  rcases List.mem_cons.mp hp' with rfl | hp'
  · exact hs
  · obtain ⟨w, hw, rfl⟩ := List.mem_map.mp hp'
    exact hp w hw

end Within

/-- A part that differs from another in registers only. -/
def OnlyRegs (d e : Dev) : Prop := e = { d with regs := e.regs }

namespace OnlyRegs

variable {d e x : Dev}

theorem refl (d : Dev) : OnlyRegs d d := rfl

theorem trans (h : OnlyRegs d e) (g : OnlyRegs e x) : OnlyRegs d x := by
  rw [OnlyRegs] at h g ⊢
  rw [g, h]

theorem put (h : OnlyRegs d e) (p : Nat) (f : Fld) (v i t : Nat) : OnlyRegs d (e.put p f v i t) := by
  rw [OnlyRegs] at h ⊢
  rw [h]
  rfl

theorem foldl {α : Type} {f : Dev → α → Dev} : ∀ (l : List α) (d : Dev), (∀ d, ∀ y ∈ l, OnlyRegs d (f d y)) → OnlyRegs d (l.foldl f d)
  | [], d, _ => refl d
  | y :: l, d, hf => (hf d y List.mem_cons_self).trans (foldl l _ fun d z hz => hf d z (List.mem_cons_of_mem _ hz))

theorem saf (h : OnlyRegs d e) : e.saf = d.saf := by rw [h]

end OnlyRegs

end Dev

end Sys2Proof.Machine
end

section
/-! PROOFS. The stops of both safety channels: what they write, what they latch, and what they leave. -/
namespace Sys2Proof.Machine

open Sys2Proof

namespace Dev

/-! ### The output switches -/

/-- The registers of the switches. -/
def outWs : List (Nat × Fld) := [(shp .sio, SIO.SO_ST_HS), (shp .sio, SIO.SO_ST_LS), (shp .ths, THS.MODE_SO_LS)]

/-- Whether a pair is driven at all. -/
def outLive (d : Dev) (k : Nat) : Bool := d.safRun && !d.isManager && bkOutFn d.blk k != 0 && (d.saf.test.map Prod.fst != some k)

/-- The command of a high side. -/
def outHs (d : Dev) (k : Nat) : Bool :=
  d.outLive k && (if bkOutFn d.blk k == 1 then d.on (shp .sio) SIO.CAR_RUN_STO_ON (bkOutCar d.blk k) else d.on (shp .sio) SIO.CAR_RUN_BRK_ON (bkOutCar d.blk k))

/-- The command of a low side. -/
def outLs (d : Dev) (k : Nat) : Bool := d.outLive k && (d.th (bkOutCar d.blk k)).causes == 0 && (if d.native then true else d.outHs k)

/-- One pair follows its commands. -/
def outStep (d : Dev) (k : Nat) : Dev :=
  ((d.putb (shp .sio) SIO.SO_ST_HS (d.outHs k) k).putb (shp .sio) SIO.SO_ST_LS (d.outLs k) k).putBit (shp .ths) THS.MODE_SO_LS k (d.outLs k)

theorem outUpdate_eq (d : Dev) : d.outUpdate = (List.range 8).foldl outStep d := rfl

section
variable {d e : Dev}

theorem within_outStep (d : Dev) {k : Nat} (hk : k < 8) : Within outWs d (d.outStep k) := by
  have h1 : k < SIO.SO_ST_HS.cnt := hk
  have h2 : k < SIO.SO_ST_LS.cnt := hk
  exact (((Within.refl outWs d).put (by simp [outWs]) (by decide) h1 _ (by decide)).put (by simp [outWs]) (by decide) h2 _ (by decide)).put (by simp [outWs]) (by decide)
    (by decide) _ (by decide)

theorem only_outStep (d : Dev) (k : Nat) : OnlyRegs d (d.outStep k) := (((OnlyRegs.refl d).put ..).put ..).put ..

/-- Whether a pair is driven is the same for parts that differ in the switches only. -/
theorem outLive_congr (h : Within outWs d e) (ho : OnlyRegs d e) (k : Nat) : e.outLive k = d.outLive k := by
  have hrun : e.safRun = d.safRun := by rw [safRun, safRun, h.get _ _ _ _ (by decide) (by decide) (by decide) (by decide) (by decide)]
  have hman : e.isManager = d.isManager := by rw [isManager, isManager, h.get _ _ _ _ (by decide) (by decide) (by decide) (by decide) (by decide)]
  rw [outLive, outLive, hrun, hman, blk, blk, ho.saf]

theorem outHs_congr (h : Within outWs d e) (ho : OnlyRegs d e) {k : Nat} (hcar : d.outLive k = false ∨ bkOutCar d.blk k < 4) : e.outHs k = d.outHs k := by
  rw [outHs, outHs, outLive_congr h ho]
  rcases hcar with hl | hcar
  · rw [hl]
    rfl
  · have hblk : e.blk = d.blk := by rw [blk, blk, ho.saf]
    have h1 : bkOutCar d.blk k < SIO.CAR_RUN_STO_ON.cnt := hcar
    have h2 : bkOutCar d.blk k < SIO.CAR_RUN_BRK_ON.cnt := hcar
    rw [hblk, on, on, on, on, h.get _ _ _ _ (by decide) (by decide) (by decide) h1 (by decide), h.get _ _ _ _ (by decide) (by decide) (by decide) h2 (by decide)]

theorem outLs_congr (h : Within outWs d e) (ho : OnlyRegs d e) {k : Nat} (hcar : d.outLive k = false ∨ bkOutCar d.blk k < 4) : e.outLs k = d.outLs k := by
  have hnat : e.native = d.native := by rw [native, native, h.get _ _ _ _ (by decide) (by decide) (by decide) (by decide) (by decide)]
  rw [outLs, outLs, outLive_congr h ho, outHs_congr h ho hcar, hnat, blk, blk, th, th, ho.saf]

theorem within_outUpdate (d : Dev) : Within outWs d d.outUpdate := Within.foldl _ d fun e _ hk => within_outStep e (List.mem_range.mp hk)

theorem only_outUpdate (d : Dev) : OnlyRegs d d.outUpdate := OnlyRegs.foldl _ d fun e k _ => only_outStep e k

/-- The switches after an update follow the commands. -/
theorem outUpdate_shows (d : Dev) {k : Nat} (hk : k < 8) (hcar : d.outLive k = false ∨ bkOutCar d.blk k < 4) :
    d.outUpdate.get (shp .sio) SIO.SO_ST_HS k = (d.outHs k).toNat ∧ d.outUpdate.get (shp .sio) SIO.SO_ST_LS k = (d.outLs k).toNat := by
  have hbit (b : Bool) : b.toNat % 2 ^ 1 = b.toNat := by cases b <;> rfl
  have hown (e : Dev) (hw : Within outWs d e) (ho : OnlyRegs d e) : (e.outStep k).get (shp .sio) SIO.SO_ST_HS k = (d.outHs k).toNat ∧
      (e.outStep k).get (shp .sio) SIO.SO_ST_LS k = (d.outLs k).toNat := by
    have h1 : k < SIO.SO_ST_HS.cnt := hk
    have h2 : k < SIO.SO_ST_LS.cnt := hk
    rw [← outHs_congr hw ho hcar, ← outLs_congr hw ho hcar]
    simp (disch := first | decide | assumption) only [outStep, putb, putBit, get_put_other, get_put_apart, get_put_same]
    exact ⟨hbit _, hbit _⟩
  have hother (e : Dev) {j : Nat} (hj : j < 8) (hne : j ≠ k) : (e.outStep j).get (shp .sio) SIO.SO_ST_HS k = e.get (shp .sio) SIO.SO_ST_HS k ∧
      (e.outStep j).get (shp .sio) SIO.SO_ST_LS k = e.get (shp .sio) SIO.SO_ST_LS k := by
    have h1 : k < SIO.SO_ST_HS.cnt := hk
    have h2 : k < SIO.SO_ST_LS.cnt := hk
    have h3 : j < SIO.SO_ST_HS.cnt := hj
    have h4 : j < SIO.SO_ST_LS.cnt := hj
    simp (disch := first | decide | assumption) only [outStep, putb, putBit, get_put_other, get_put_apart, get_put_idx, and_self]
  rw [outUpdate_eq]
  refine (foldl_reach (P := fun e : Dev => (Within outWs d e ∧ OnlyRegs d e) ∧ e.get (shp .sio) SIO.SO_ST_HS k = (d.outHs k).toNat ∧
      e.get (shp .sio) SIO.SO_ST_LS k = (d.outLs k).toNat) (Q := fun e => Within outWs d e ∧ OnlyRegs d e) (x := k) _ d
    (fun e j hj hq => ⟨hq.1.trans (within_outStep e (List.mem_range.mp hj)), hq.2.trans (only_outStep e j)⟩) (fun e j hj hp => ?_) (List.mem_range.mpr hk)
    (fun e hq => ⟨⟨hq.1.trans (within_outStep e hk), hq.2.trans (only_outStep e k)⟩, hown e hq.1 hq.2⟩) ⟨Within.refl _ d, OnlyRegs.refl d⟩).2
  obtain ⟨hq, hp⟩ := hp
  refine ⟨⟨hq.1.trans (within_outStep e (List.mem_range.mp hj)), hq.2.trans (only_outStep e j)⟩, ?_⟩
  by_cases hjk : j = k
  · rw [hjk]
    exact hown e hq.1 hq.2
  · obtain ⟨h1, h2⟩ := hother e (List.mem_range.mp hj) hjk
    rw [h1, h2]
    exact hp

end

/-! ### What a stop moves -/

/-- The registers of the stops. -/
def stopWs : List (Nat × Fld) :=
  outWs ++ [(shp .sio, SIO.CAR_RUN_STO_ON), (shp .sio, SIO.CAR_RUN_BRK_ON), (shp .sio, SIO.CAR_RUN_CAUSE), (shp .sio, SIO.CAR_RUN_S1), (shp .sio, SIO.CAR_ENV_UMS),
    (shp .sfc, SFC.STOPS_CAT0), (shp .sfc, SFC.STOPS_CAT1), (shp .sfc, SFC.PERMIT_RESCUE),
    (shp .ths, THS.CAR_ST_CAUSE), (shp .ths, THS.CAR_TRIP_TS_LO), (shp .ths, THS.CAR_TRIP_TS_HI), (shp .ths, THS.CARS_TRIP)]

/-- Only what is kept of each car differs in the safety state. -/
structure CarsOnly (d e : Dev) : Prop where
  saf : e.saf = { d.saf with sp := e.saf.sp, th := e.saf.th }
  spLen : e.saf.sp.length = d.saf.sp.length
  thLen : e.saf.th.length = d.saf.th.length

namespace CarsOnly

variable {d e x : Dev}

theorem refl (d : Dev) : CarsOnly d d := ⟨rfl, rfl, rfl⟩

theorem trans (h : CarsOnly d e) (g : CarsOnly e x) : CarsOnly d x := by
  refine ⟨?_, g.spLen.trans h.spLen, g.thLen.trans h.thLen⟩
  rw [g.saf, h.saf]

theorem of_saf (h : e.saf = d.saf) : CarsOnly d e := ⟨by rw [h], by rw [h], by rw [h]⟩

theorem blk (h : CarsOnly d e) : e.blk = d.blk := by rw [Dev.blk, Dev.blk, h.saf]

theorem safCar (h : CarsOnly d e) (n : Nat) : e.safCar n = d.safCar n := by rw [Dev.safCar, Dev.safCar, h.blk]

theorem safCars (h : CarsOnly d e) : e.safCars = d.safCars := by
  rw [Dev.safCars, Dev.safCars, show e.safCar = d.safCar from funext h.safCar]

end CarsOnly

/-- What a stop keeps of a car in the pair: every cause and the headway mark, and a rescue's chain unless it ends. -/
structure SpKept (c e : SafCar) : Prop where
  causes : ∀ b, bitN c.causes b = 1 → bitN e.causes b = 1
  hw : c.hw = true → e.hw = true
  rsc : e.rscChain = c.rscChain ∨ e.rscChain = 0
  deg : e.deg = c.deg

theorem SpKept.refl (c : SafCar) : SpKept c c := ⟨fun _ h => h, id, .inl rfl, rfl⟩

theorem SpKept.trans {c e x : SafCar} (h : SpKept c e) (g : SpKept e x) : SpKept c x :=
  ⟨fun b hb => g.causes b (h.causes b hb), fun hh => g.hw (h.hw hh), by rcases g.rsc with g | g <;> rcases h.rsc with h | h <;> simp [g, h],
    g.deg.trans h.deg⟩

/-- A part that differs from another in stops that have been latched, and in no registers but those named. -/
structure StoppedIn (ws : List (Nat × Fld)) (d e : Dev) : Prop where
  within : Within ws d e
  cars : CarsOnly d e
  copies : e.pCopy = d.pCopy ∧ e.pRes = d.pRes ∧ e.pInt = d.pInt
  sp : ∀ m, SpKept (d.sp m) (e.sp m)
  th : ∀ m b, bitN (d.th m).causes b = 1 → bitN (e.th m).causes b = 1
  cat0 : ∀ m < 4, bitN (d.get (shp .sfc) SFC.STOPS_CAT0) m = 1 → bitN (e.get (shp .sfc) SFC.STOPS_CAT0) m = 1
  rescue : ∀ m < 4, bitN (d.get (shp .sfc) SFC.PERMIT_RESCUE) m = 0 → bitN (e.get (shp .sfc) SFC.PERMIT_RESCUE) m = 0
  latched : ∀ m < 4, ∀ c, bitN (d.sp m).causes c = 0 → bitN (e.sp m).causes c = 1 → bitN (e.get (shp .sfc) SFC.PERMIT_RESCUE) m = 0

theorem bitN_zero_or_one (n k : Nat) : bitN n k = 0 ∨ bitN n k = 1 := Nat.mod_two_eq_zero_or_one _

theorem sp_modSp (d : Dev) (n : Nat) (g : SafCar → SafCar) (m : Nat) : (d.modSp n g).sp m = if m = n ∧ n < d.saf.sp.length then g (d.sp n) else d.sp m :=
  getD_lmod g _ _ n m

theorem th_modTh (d : Dev) (n : Nat) (g : ThCar → ThCar) (m : Nat) : (d.modTh n g).th m = if m = n ∧ n < d.saf.th.length then g (d.th n) else d.th m :=
  getD_lmod g _ _ n m

theorem carsOnly_modSp (d : Dev) (n : Nat) (g : SafCar → SafCar) : CarsOnly d (d.modSp n g) := ⟨rfl, length_lmod .., rfl⟩

theorem carsOnly_modTh (d : Dev) (n : Nat) (g : ThCar → ThCar) : CarsOnly d (d.modTh n g) := ⟨rfl, rfl, length_lmod ..⟩

namespace StoppedIn

variable {ws vs : List (Nat × Fld)} {d e x : Dev}

theorem refl (ws : List (Nat × Fld)) (d : Dev) : StoppedIn ws d d :=
  ⟨Within.refl _ d, CarsOnly.refl d, ⟨rfl, rfl, rfl⟩, fun _ => SpKept.refl _, fun _ _ h => h, fun _ _ h => h, fun _ _ h => h,
    fun m _ c h0 h1 => absurd (h0.symm.trans h1) (by decide)⟩

theorem trans (h : StoppedIn ws d e) (g : StoppedIn ws e x) : StoppedIn ws d x where
  within := h.within.trans g.within
  cars := h.cars.trans g.cars
  copies := ⟨g.copies.1.trans h.copies.1, g.copies.2.1.trans h.copies.2.1, g.copies.2.2.trans h.copies.2.2⟩
  sp m := (h.sp m).trans (g.sp m)
  th m b hb := g.th m b (h.th m b hb)
  cat0 m hm hb := g.cat0 m hm (h.cat0 m hm hb)
  rescue m hm hb := g.rescue m hm (h.rescue m hm hb)
  latched m hm c h0 h1 := by
    rcases bitN_zero_or_one (e.sp m).causes c with he | he
    · exact g.latched m hm c he h1
    · exact g.rescue m hm (h.latched m hm c h0 he)

theorem foldl {α : Type} {f : Dev → α → Dev} : ∀ (l : List α) (d : Dev), (∀ d, ∀ y ∈ l, StoppedIn ws d (f d y)) → StoppedIn ws d (l.foldl f d)
  | [], d, _ => refl ws d
  | y :: l, d, hf => (hf d y List.mem_cons_self).trans (foldl l _ fun d z hz => hf d z (List.mem_cons_of_mem _ hz))

theorem ite {c : Prop} [Decidable c] (h : c → StoppedIn ws d e) (g : ¬ c → StoppedIn ws d x) : StoppedIn ws d (if c then e else x) := by
  split
  case isTrue hc => exact h hc
  case isFalse hc => exact g hc

theorem mono (h : StoppedIn ws d e) (hs : ∀ w ∈ ws, w ∈ vs) : StoppedIn vs d e := { h with within := h.within.mono hs }

/-- Steps that leave the latches: registers of stops apart from those of category 0 and rescue, and what is kept of cars beside their causes. -/
theorem of_quiet (hw : Within ws d e) (hc : CarsOnly d e) (hp : e.pCopy = d.pCopy ∧ e.pRes = d.pRes ∧ e.pInt = d.pInt)
    (hsp : ∀ m, SpKept (d.sp m) (e.sp m)) (heq : ∀ m, (e.sp m).causes = (d.sp m).causes)
    (hth : ∀ m b, bitN (d.th m).causes b = 1 → bitN (e.th m).causes b = 1)
    (h0 : ∀ m < 4, bitN (d.get (shp .sfc) SFC.STOPS_CAT0) m = 1 → bitN (e.get (shp .sfc) SFC.STOPS_CAT0) m = 1)
    (hr : ∀ m < 4, bitN (d.get (shp .sfc) SFC.PERMIT_RESCUE) m = 0 → bitN (e.get (shp .sfc) SFC.PERMIT_RESCUE) m = 0) : StoppedIn ws d e :=
  ⟨hw, hc, hp, hsp, hth, h0, hr, fun m _ c z o => absurd ((heq m ▸ z).symm.trans o) (by decide)⟩

end StoppedIn

/-- A part that differs from another in stops that have been latched, and in no other register. -/
abbrev Stopped (d e : Dev) : Prop := StoppedIn stopWs d e

namespace Stopped

variable {d e x : Dev}

theorem refl (d : Dev) : Stopped d d := StoppedIn.refl _ d

theorem trans (h : Stopped d e) (g : Stopped e x) : Stopped d x := StoppedIn.trans h g

/-- A register of the stops that is neither the latch of category 0 nor the rescue permit. -/
theorem put {p : Nat} {f : Fld} (hm : (p, f) ∈ stopWs) (h0 : p ≠ shp .sfc ∨ f.apart SFC.STOPS_CAT0 = true) (h1 : p ≠ shp .sfc ∨ f.apart SFC.PERMIT_RESCUE = true)
    (hf : f.fits = true) {i : Nat} (hi : i < f.cnt) (d : Dev) (v : Nat) : Stopped d (d.put p f v i) := by
  have hget {g : Fld} (h : p ≠ shp .sfc ∨ f.apart g = true) (hg : g.fits = true) (hgc : 0 < g.cnt) : (d.put p f v i).get (shp .sfc) g = d.get (shp .sfc) g := by
    rcases h with h | h
    · exact get_put_other _ _ h hf hg hi hgc (by decide) (by decide)
    · exact get_put_field _ _ h hf hg hi hgc (by decide) (by decide)
  refine StoppedIn.of_quiet ((Within.refl _ d).put hm hf hi v (by decide)) (CarsOnly.of_saf rfl) ⟨rfl, rfl, rfl⟩ (fun m => SpKept.refl _) (fun m => rfl) (fun m b h => h)
    (fun m _ h => ?_) fun m _ h => ?_
  · rwa [hget h0 (by decide) (by decide)]
  · rwa [hget h1 (by decide) (by decide)]

theorem note (d : Dev) (p cls code det : Nat) (words : List Nat) : Stopped d (d.note p cls code det words) := by
  have hget (g : Fld) (hg : g.fits = true) (hgc : 0 < g.cnt) : (d.note p cls code det words).get (shp .sfc) g = d.get (shp .sfc) g :=
    get_note_other _ _ _ _ _ (by decide) hg hgc (by decide)
  have hsp (m : Nat) : (d.note p cls code det words).sp m = d.sp m := by rw [Dev.sp, saf_note, Dev.sp]
  have hth (m : Nat) : (d.note p cls code det words).th m = d.th m := by rw [Dev.th, saf_note, Dev.th]
  refine StoppedIn.of_quiet ((Within.refl _ d).note ..) (CarsOnly.of_saf (saf_note ..)) ⟨post_pCopy .., post_pRes .., post_pInt ..⟩ (fun m => by rw [hsp]; exact SpKept.refl _)
    (fun m => by rw [hsp]) (fun m b h => by rwa [hth]) (fun m _ h => ?_) fun m _ h => ?_
  · rwa [hget _ (by decide) (by decide)]
  · rwa [hget _ (by decide) (by decide)]

theorem modSp (d : Dev) (n : Nat) {g : SafCar → SafCar} (hk : ∀ c, SpKept c (g c)) (he : ∀ c, (g c).causes = c.causes) : Stopped d (d.modSp n g) := by
  refine StoppedIn.of_quiet ((Within.refl _ d).modSp n g) (carsOnly_modSp d n g) ⟨rfl, rfl, rfl⟩ (fun m => ?_) (fun m => ?_) (fun m b h => h) (fun m _ h => h) fun m _ h => h
  · rw [sp_modSp]
    split
    case isTrue h => exact h.1 ▸ hk _
    case isFalse => exact SpKept.refl _
  · rw [sp_modSp]
    split
    case isTrue h => rw [he, h.1]
    case isFalse => rfl

theorem modTh (d : Dev) (n : Nat) {g : ThCar → ThCar} (hk : ∀ c b, bitN c.causes b = 1 → bitN (g c).causes b = 1) : Stopped d (d.modTh n g) := by
  refine StoppedIn.of_quiet ((Within.refl _ d).modTh n g) (carsOnly_modTh d n g) ⟨rfl, rfl, rfl⟩ (fun m => SpKept.refl _) (fun m => rfl) (fun m b h => ?_) (fun m _ h => h) fun m _ h => h
  rw [th_modTh]
  split
  case isTrue hm => exact hk _ b (hm.1 ▸ h)
  case isFalse => exact h

theorem modHalf (d : Dev) (h : HalfId) {g : Half → Half} (hg : ∀ x, (g x).sram = x.sram) : Stopped d (d.modHalf h g) := by
  have hsp (m : Nat) : (d.modHalf h g).sp m = d.sp m := by rw [Dev.sp, modHalf_saf, Dev.sp]
  have hth (m : Nat) : (d.modHalf h g).th m = d.th m := by rw [Dev.th, modHalf_saf, Dev.th]
  refine StoppedIn.of_quiet ((Within.refl _ d).modHalf h hg) (CarsOnly.of_saf (modHalf_saf ..)) ⟨modHalf_pCopy .., modHalf_pRes .., modHalf_pInt ..⟩
    (fun m => by rw [hsp]; exact SpKept.refl _) (fun m => by rw [hsp]) (fun m b hb => by rwa [hth]) (fun m _ hb => ?_) fun m _ hb => ?_
  · rwa [get_modHalf]
  · rwa [get_modHalf]

theorem outUpdate (d : Dev) : Stopped d d.outUpdate := by
  have hget (g : Fld) (hc : clearOf outWs (shp .sfc) g = true) (hg : g.fits = true) (hgc : 0 < g.cnt) : d.outUpdate.get (shp .sfc) g = d.get (shp .sfc) g :=
    (within_outUpdate d).get _ _ _ _ (by decide) hc hg hgc (by decide)
  have hsaf := (only_outUpdate d).saf
  have hsp (m : Nat) : d.outUpdate.sp m = d.sp m := by rw [Dev.sp, hsaf, Dev.sp]
  have hth (m : Nat) : d.outUpdate.th m = d.th m := by rw [Dev.th, hsaf, Dev.th]
  refine StoppedIn.of_quiet ((within_outUpdate d).mono fun w hw => List.mem_append_left _ hw) (CarsOnly.of_saf hsaf) ?_ (fun m => by rw [hsp]; exact SpKept.refl _)
    (fun m => by rw [hsp]) (fun m b hb => by rwa [hth]) (fun m _ hb => ?_) fun m _ hb => ?_
  · rw [only_outUpdate d]
    exact ⟨rfl, rfl, rfl⟩
  · rwa [hget _ (by decide) (by decide) (by decide)]
  · rwa [hget _ (by decide) (by decide) (by decide)]

/-- A bit set in the latch of category 0, or cleared in the rescue permit. -/
theorem putBit0 (d : Dev) (n : Nat) : Stopped d (d.putBit (shp .sfc) SFC.STOPS_CAT0 n true) := by
  refine StoppedIn.of_quiet ((Within.refl _ d).put (by simp [stopWs]) (by decide) (by decide) _ (by decide)) (CarsOnly.of_saf rfl) ⟨rfl, rfl, rfl⟩ (fun m => SpKept.refl _)
    (fun m => rfl) (fun m b h => h) (fun m hm hb => ?_) fun m _ hb => ?_
  · by_cases hmn : m = n
    · rw [hmn]
      exact bit_putBit_same _ _ _ _ _ _ (by decide) (hmn ▸ hm)
    · rw [bit_putBit_other _ _ _ _ _ _ (by decide) hm hmn, hb]
  · rw [putBit, get_put_apart _ _ (by decide) (by decide) (by decide) (by decide) (by decide) (by decide) (by decide)]
    exact hb

theorem clearRescue (d : Dev) (n : Nat) : Stopped d (d.putBit (shp .sfc) SFC.PERMIT_RESCUE n false) := by
  refine StoppedIn.of_quiet ((Within.refl _ d).put (by simp [stopWs]) (by decide) (by decide) _ (by decide)) (CarsOnly.of_saf rfl) ⟨rfl, rfl, rfl⟩ (fun m => SpKept.refl _)
    (fun m => rfl) (fun m b h => h) (fun m hm hb => ?_) fun m hm hb => ?_
  · rw [putBit, get_put_apart _ _ (by decide) (by decide) (by decide) (by decide) (by decide) (by decide) (by decide)]
    exact hb
  · by_cases hmn : m = n
    · rw [hmn]
      exact bit_putBit_same _ _ _ _ _ _ (by decide) (hmn ▸ hm)
    · rw [bit_putBit_other _ _ _ _ _ _ (by decide) hm hmn, hb]

theorem endRescue (d : Dev) (n : Nat) : Stopped d (d.endRescue n) :=
  (clearRescue d n).trans ((modSp (g := fun c => { c with rscChain := 0 }) _ n (fun _ => ⟨fun _ h => h, id, .inr rfl, rfl⟩) fun _ => rfl).trans
    (modTh (g := fun t => { t with rscChain := 0 }) _ n fun _ _ h => h))

theorem modMpg (d : Dev) (h : HalfId) (n : Nat) (g : Mpg → Mpg) : Stopped d (d.modMpg h n g) := modHalf d h fun _ => rfl

theorem both {f : Dev → HalfId → Dev} (hf : ∀ d h, Stopped d (f d h)) (d : Dev) : Stopped d (d.both f) := (hf d .a).trans (hf _ .b)

end Stopped

/-- The stop line of a generator, with the limits of its ramp. -/
def lineStep (L : Nat × Nat) (n cat : Nat) (d : Dev) (h : HalfId) : Dev :=
  if cat = 0 then d.modMpg h n (fun m => { m with stopLine := 2 })
  else if d.mpgMode h n == 4 && decide ((d.mpg h n).ramp = some L) then d
  else d.modMpg h n (fun m => { m with stopLine := max m.stopLine 1, ramp := some L })

theorem stopLine_eq (d : Dev) (n cat : Nat) : d.stopLine n cat = d.both (lineStep (bkDS1 d.blk n, bkJS1 d.blk n) n cat) := rfl

theorem Stopped.stopLine (d : Dev) (n cat : Nat) : Stopped d (d.stopLine n cat) := by
  rw [stopLine_eq]
  refine Stopped.both (fun e h => ?_) d
  unfold lineStep
  split_ifs
  · exact Stopped.modMpg ..
  · exact Stopped.refl e
  · exact Stopped.modMpg ..

/-- A stop line is no part of the safety state. -/
theorem saf_stopLine (d : Dev) (n cat : Nat) : (d.stopLine n cat).saf = d.saf := by
  have hstep (L : Nat × Nat) (d : Dev) (h : HalfId) : (lineStep L n cat d h).saf = d.saf := by
    unfold lineStep
    split_ifs
    · exact modHalf_saf ..
    · rfl
    · exact modHalf_saf ..
  rw [stopLine_eq, Dev.both, hstep, hstep]

theorem regs_stopLine (d : Dev) (n cat : Nat) : (d.stopLine n cat).regs = d.regs := by
  have hstep (L : Nat × Nat) (d : Dev) (h : HalfId) : (lineStep L n cat d h).regs = d.regs := by
    unfold lineStep
    split_ifs
    · exact modHalf_regs ..
    · rfl
    · exact modHalf_regs ..
  rw [stopLine_eq, Dev.both, hstep, hstep]

/-! ### The outputs of a car go off -/

section
variable (d : Dev) {n : Nat}

/-- The reference positions of the brake slip, as a car's outputs go off. -/
def slipMark (d : Dev) (was : Bool) (n : Nat) (p t : Option Int) : Dev := if was then d.modSp n (fun c => { c with slipP := p, slipT := t }) else d

theorem slipMark_stopped (was : Bool) (n : Nat) (p t : Option Int) : Stopped d (d.slipMark was n p t) := by
  unfold slipMark
  split
  · exact Stopped.modSp (g := fun c => { c with slipP := p, slipT := t }) d n (fun c => ⟨fun _ h => h, id, .inl rfl, rfl⟩) fun _ => rfl
  · exact Stopped.refl d

theorem regs_slipMark (was : Bool) (n : Nat) (p t : Option Int) : (d.slipMark was n p t).regs = d.regs := by
  unfold slipMark
  split <;> rfl

/-- A car beside its slip references. -/
def besideSlip (c : SafCar) : SafCar := { c with slipP := none, slipT := none }

theorem besideSlip_slipMark (was : Bool) (n : Nat) (p t : Option Int) (m : Nat) : besideSlip ((d.slipMark was n p t).sp m) = besideSlip (d.sp m) := by
  unfold slipMark
  split
  · rw [sp_modSp]
    split
    case isTrue h => rw [h.1]; rfl
    case isFalse => rfl
  · rfl

theorem carOff_eq (n : Nat) : ∃ p t, d.carOff n = (((d.put (shp .sio) SIO.CAR_RUN_STO_ON 0 n).put (shp .sio) SIO.CAR_RUN_BRK_ON 0 n).slipMark
    (d.on (shp .sio) SIO.CAR_RUN_BRK_ON n) n p t).outUpdate := ⟨_, _, rfl⟩

variable (hn : n < 4)
include hn

theorem Stopped.runOff : Stopped d ((d.put (shp .sio) SIO.CAR_RUN_STO_ON 0 n).put (shp .sio) SIO.CAR_RUN_BRK_ON 0 n) :=
  (Stopped.put (by simp [stopWs]) (by decide) (by decide) (by decide) (i := n) hn d 0).trans
    (Stopped.put (by simp [stopWs]) (by decide) (by decide) (by decide) (i := n) hn _ 0)

theorem Stopped.carOff : Stopped d (d.carOff n) := by
  obtain ⟨p, t, he⟩ := carOff_eq d n
  rw [he]
  exact (Stopped.runOff d hn).trans ((slipMark_stopped ..).trans (Stopped.outUpdate _))

/-- The outputs that have gone off. -/
theorem carOff_shows : (d.carOff n).get (shp .sio) SIO.CAR_RUN_STO_ON n = 0 ∧ (d.carOff n).get (shp .sio) SIO.CAR_RUN_BRK_ON n = 0 ∧
    (∀ m, besideSlip ((d.carOff n).sp m) = besideSlip (d.sp m)) ∧ ∀ m, (d.carOff n).th m = d.th m := by
  obtain ⟨p, t, he⟩ := carOff_eq d n
  have h1 : n < SIO.CAR_RUN_STO_ON.cnt := hn
  have h2 : n < SIO.CAR_RUN_BRK_ON.cnt := hn
  have hregs := get_congr (regs_slipMark ((d.put (shp .sio) SIO.CAR_RUN_STO_ON 0 n).put (shp .sio) SIO.CAR_RUN_BRK_ON 0 n) (d.on (shp .sio) SIO.CAR_RUN_BRK_ON n) n p t)
  rw [he]
  refine ⟨?_, ?_, fun m => ?_, fun m => ?_⟩
  · rw [(within_outUpdate _).get _ _ _ _ (by decide) (by decide) (by decide) h1 (by decide), hregs,
      get_put_apart _ _ (by decide) (by decide) (by decide) h2 h1 (by decide) (by decide)]
    exact get_put_same _ _ _ _ _ _ (by decide)
  · rw [(within_outUpdate _).get _ _ _ _ (by decide) (by decide) (by decide) h2 (by decide), hregs]
    exact get_put_same _ _ _ _ _ _ (by decide)
  · rw [sp, (only_outUpdate _).saf, ← sp, besideSlip_slipMark]
    rfl
  · rw [th, (only_outUpdate _).saf, ← th, slipMark]
    split <;> rfl

end

/-! ### A trip of Theath -/

section
variable (d : Dev) {n : Nat} (cause : Nat) (words : List Nat)

/-- The first trip of a car names its cause and its time. -/
def tripShown (d : Dev) (first : Bool) (n cause : Nat) : Dev :=
  if first then ((d.put (shp .ths) THS.CAR_ST_CAUSE cause n).put64 (shp .ths) THS.CAR_TRIP_TS_LO THS.CAR_TRIP_TS_HI d.now n).putBit (shp .ths) THS.CARS_TRIP n true
  else d

/-- The category-1 stop in progress ends. -/
def s1Cleared (d : Dev) (n : Nat) : Dev := ((d.modSp n (fun c => { c with s1 := none })).put (shp .sio) SIO.CAR_RUN_S1 0 n).put (shp .sio) SIO.CAR_ENV_UMS 0 n

theorem thTrip_eq (n : Nat) : d.thTrip n cause words =
    if !d.safCar n || bitN (d.th n).causes cause == 1 then d
    else (((((d.modTh n (fun t => { t with causes := setBitN t.causes cause true })).tripShown ((d.th n).causes == 0) n cause).safNote (shp .ths) cause n words).endRescue n).carOff n).s1Cleared n := rfl

theorem bitN_set_kept (x k b : Nat) (h : bitN x b = 1) : bitN (setBitN x k true) b = 1 := by
  by_cases hb : b = k
  · rw [hb, bitN_setBitN_same]
    rfl
  · rw [bitN_setBitN_ne _ _ hb, h]

theorem Stopped.tripCause (n : Nat) : Stopped d (d.modTh n (fun t => { t with causes := setBitN t.causes cause true })) :=
  Stopped.modTh d n fun _ b h => bitN_set_kept _ cause b h

variable (hn : n < 4)
include hn

theorem Stopped.tripShown (first : Bool) : Stopped d (d.tripShown first n cause) := by
  unfold Dev.tripShown
  split
  · exact (Stopped.put (by simp [stopWs]) (by decide) (by decide) (by decide) (i := n) hn d _).trans
      ((Stopped.put (by simp [stopWs]) (by decide) (by decide) (by decide) (i := n) hn _ _).trans
        ((Stopped.put (by simp [stopWs]) (by decide) (by decide) (by decide) (i := n) hn _ _).trans
          (Stopped.put (by simp [stopWs]) (by decide) (by decide) (by decide) (i := 0) (by decide) _ _)))
  · exact Stopped.refl d

theorem Stopped.s1Cleared : Stopped d (d.s1Cleared n) :=
  (Stopped.modSp (g := fun c => { c with s1 := none }) d n (fun c => ⟨fun _ h => h, id, .inl rfl, rfl⟩) fun _ => rfl).trans
    ((Stopped.put (by simp [stopWs]) (by decide) (by decide) (by decide) (i := n) hn _ _).trans
      (Stopped.put (by simp [stopWs]) (by decide) (by decide) (by decide) (i := n) hn _ _))

theorem Stopped.thTrip : Stopped d (d.thTrip n cause words) := by
  rw [thTrip_eq]
  split
  · exact Stopped.refl d
  · exact (Stopped.tripCause d cause n).trans ((Stopped.tripShown _ cause hn _).trans ((Stopped.note ..).trans ((Stopped.endRescue _ n).trans
      ((Stopped.carOff _ hn).trans (Stopped.s1Cleared _ hn)))))

/-- A car whose outputs are off and that no category-1 stop brings to rest. -/
def Halted (d : Dev) (n : Nat) : Prop :=
  d.get (shp .sio) SIO.CAR_RUN_STO_ON n = 0 ∧ d.get (shp .sio) SIO.CAR_RUN_BRK_ON n = 0 ∧ (d.sp n).s1 = none

omit hn in
theorem halted_modTh {d : Dev} (m : Nat) (g : ThCar → ThCar) (h : d.Halted n) : (d.modTh m g).Halted n := h

theorem halted_thTrip (h : d.Halted n) : (d.thTrip n cause words).Halted n := by
  rw [thTrip_eq]
  split
  · exact h
  · obtain ⟨m, hm⟩ : ∃ m, m = ((((d.modTh n (fun t => { t with causes := setBitN t.causes cause true })).tripShown ((d.th n).causes == 0) n cause).safNote (shp .ths) cause n
      words).endRescue n).carOff n := ⟨_, rfl⟩
    have hoff := carOff_shows ((((d.modTh n (fun t => { t with causes := setBitN t.causes cause true })).tripShown ((d.th n).causes == 0) n cause).safNote (shp .ths) cause n
      words).endRescue n) hn
    rw [← hm] at hoff ⊢
    obtain ⟨o1, o2, -, -⟩ := hoff
    have hlen : (m.sp n).s1 = none ∨ n < m.saf.sp.length := by
      by_cases hl : n < m.saf.sp.length
      · exact .inr hl
      · left
        rw [sp, List.getD_eq_default _ _ (Nat.le_of_not_lt hl)]
        rfl
    have h1 : n < SIO.CAR_RUN_STO_ON.cnt := hn
    have h2 : n < SIO.CAR_RUN_BRK_ON.cnt := hn
    have h3 : n < SIO.CAR_RUN_S1.cnt := hn
    have h4 : n < SIO.CAR_ENV_UMS.cnt := hn
    have hsp : (m.s1Cleared n).sp n = (m.modSp n (fun c => { c with s1 := none })).sp n := rfl
    refine ⟨?_, ?_, ?_⟩
    · simp (disch := first | decide | assumption) only [s1Cleared, get_put_apart]
      exact o1
    · simp (disch := first | decide | assumption) only [s1Cleared, get_put_apart]
      exact o2
    · rw [hsp, sp_modSp]
      split
      · rfl
      case isFalse hf => exact hlen.resolve_right fun hl => hf ⟨rfl, hl⟩

end

/-! ### A stop of the pair -/

section
variable (d : Dev) {n : Nat} (cause cat : Nat) (words : List Nat)

/-- A cause is latched, recorded, and ends a rescue. -/
def stopLatched (d : Dev) (n cause : Nat) (words : List Nat) : Dev :=
  (((d.modSp n (fun c => { c with causes := setBitN c.causes cause true })).put (shp .sio) SIO.CAR_RUN_CAUSE cause n).safNote (shp .sfc) cause n words).endRescue n

/-- A stop of category 0 turns the car off and asks Theath to. -/
def stopZero (d : Dev) (n cause : Nat) : Dev :=
  let e := (((d.putBit (shp .sfc) SFC.STOPS_CAT0 n true).s1Cleared n).carOff n).stopLine n 0
  if e.native then (e.modTh n (fun t => { t with offReq := true })).thTrip n 0xF [cause] else e.thTrip n 0xD [cause]

/-- Whether a stop of category 0 or a trip stands for a car. -/
def stopStands (d : Dev) (n : Nat) : Bool := bitN (d.get (shp .sfc) SFC.STOPS_CAT0) n == 1 || (d.th n).causes != 0

/-- The envelope of a category-1 stop begins. -/
def s1Begun (d : Dev) (n : Nat) : Dev :=
  let up := decide (d.pV n ≥ 0)
  let s : Int := if up then 1 else -1
  let a := clipD d.blk n (s * d.pairAcc d.holder n)
  ((d.modSp n (fun c => { c with s1 := some ⟨0, s * d.pV n, a, up, false⟩ })).put (shp .sio) SIO.CAR_RUN_S1 1 n).stopLine n 1

/-- A stop of category 1. -/
def stopOne (d : Dev) (n : Nat) : Dev :=
  let e := if d.stopStands n then d else d.putBit (shp .sfc) SFC.STOPS_CAT1 n true
  if d.stopStands n || (e.sp n).s1.isSome then e else e.s1Begun n

/-- Whether a stop is taken at all. -/
def stopTaken (d : Dev) (n cause cat : Nat) : Bool :=
  d.safRun && d.safCar n && !(bitN (d.sp n).causes cause == 1 && (cat != 0 || bitN (d.get (shp .sfc) SFC.STOPS_CAT0) n == 1))

theorem spStop_eq (n : Nat) : d.spStop n cause cat words =
    if d.stopTaken n cause cat then (if cat = 0 then (d.stopLatched n cause words).stopZero n cause else (d.stopLatched n cause words).stopOne n) else d := by
  have hnot : d.stopTaken n cause cat =
      !(!d.safRun || !d.safCar n || (bitN (d.sp n).causes cause == 1 && (cat != 0 || bitN (d.get (shp .sfc) SFC.STOPS_CAT0) n == 1))) := by
    simp [stopTaken]
  rw [hnot, spStop]
  cases (!d.safRun || !d.safCar n || (bitN (d.sp n).causes cause == 1 && (cat != 0 || bitN (d.get (shp .sfc) SFC.STOPS_CAT0) n == 1)))
  · rfl
  · rfl

/-- The cause latched, before a rescue ends with it. -/
def causeLatched (d : Dev) (n cause : Nat) (words : List Nat) : Dev :=
  ((d.modSp n (fun c => { c with causes := setBitN c.causes cause true })).put (shp .sio) SIO.CAR_RUN_CAUSE cause n).safNote (shp .sfc) cause n words

theorem stopLatched_eq (n : Nat) : d.stopLatched n cause words = (d.causeLatched n cause words).endRescue n := rfl

theorem sp_causeLatched (n m : Nat) : (d.causeLatched n cause words).sp m =
    if m = n ∧ n < d.saf.sp.length then { d.sp n with causes := setBitN (d.sp n).causes cause true } else d.sp m := by
  rw [sp, causeLatched, safNote, saf_note, saf_put, ← sp, sp_modSp]

theorem sp_endRescue (n m : Nat) : (d.endRescue n).sp m = if m = n ∧ n < d.saf.sp.length then { d.sp n with rscChain := 0 } else d.sp m :=
  sp_modSp (d.putBit (shp .sfc) SFC.PERMIT_RESCUE n false) n (fun c => { c with rscChain := 0 }) m

theorem spLen_causeLatched (n : Nat) : (d.causeLatched n cause words).saf.sp.length = d.saf.sp.length := by
  rw [causeLatched, safNote, saf_note, saf_put]
  exact (carsOnly_modSp d n _).spLen

theorem sp_stopLatched (n m : Nat) : (d.stopLatched n cause words).sp m =
    if m = n ∧ n < d.saf.sp.length then { d.sp n with causes := setBitN (d.sp n).causes cause true, rscChain := 0 } else d.sp m := by
  rw [stopLatched_eq, sp_endRescue, spLen_causeLatched, sp_causeLatched, sp_causeLatched]
  by_cases h : m = n ∧ n < d.saf.sp.length
  · rw [if_pos h, if_pos ⟨rfl, h.2⟩, if_pos h]
  · rw [if_neg h, if_neg h, if_neg h]

theorem stopLatched_cause (hl : n < d.saf.sp.length) : bitN ((d.stopLatched n cause words).sp n).causes cause = 1 := by
  rw [sp_stopLatched, if_pos ⟨rfl, hl⟩, bitN_setBitN_same]
  rfl

theorem rescue_endRescue (hn : n < 4) : bitN ((d.endRescue n).get (shp .sfc) SFC.PERMIT_RESCUE) n = 0 :=
  bit_putBit_same d (shp .sfc) SFC.PERMIT_RESCUE false 0 0 (by decide) hn

variable (hn : n < 4)
include hn

theorem Stopped.stopLatched : Stopped d (d.stopLatched n cause words) := by
  have hend := Stopped.endRescue (d.causeLatched n cause words) n
  have hcause : Stopped (d.modSp n (fun c => { c with causes := setBitN c.causes cause true })) (d.causeLatched n cause words) :=
    (Stopped.put (by simp [stopWs]) (by decide) (by decide) (by decide) (i := n) hn _ _).trans (Stopped.note ..)
  have hall := hcause.trans hend
  refine ⟨((Within.refl _ d).modSp n _).trans hall.within, (carsOnly_modSp d n _).trans hall.cars, hall.copies, fun m => ?_, fun m b h => hall.th m b h,
    fun m hm h => hall.cat0 m hm h, fun m hm h => hall.rescue m hm h, fun m hm c h0 h1 => ?_⟩
  · rw [sp_stopLatched]
    split
    case isTrue h => exact h.1 ▸ ⟨fun b hb => bitN_set_kept _ _ b hb, id, .inr rfl, rfl⟩
    case isFalse => exact SpKept.refl _
  · by_cases hmn : m = n
    · rw [hmn, stopLatched_eq]
      exact rescue_endRescue _ hn
    · rw [sp_stopLatched, if_neg fun h => hmn h.1, h0] at h1
      exact absurd h1 (by decide)

theorem Stopped.stopZero : Stopped d (d.stopZero n cause) := by
  have hpre : Stopped d ((((d.putBit (shp .sfc) SFC.STOPS_CAT0 n true).s1Cleared n).carOff n).stopLine n 0) :=
    (Stopped.putBit0 d n).trans ((Stopped.s1Cleared _ hn).trans ((Stopped.carOff _ hn).trans (Stopped.stopLine ..)))
  rw [Dev.stopZero]
  split
  · exact hpre.trans ((Stopped.modTh (g := fun t => { t with offReq := true }) _ n fun _ _ h => h).trans (Stopped.thTrip _ _ _ hn))
  · exact hpre.trans (Stopped.thTrip _ _ _ hn)

theorem Stopped.s1Begun : Stopped d (d.s1Begun n) := by
  obtain ⟨r, hr⟩ : ∃ r, d.s1Begun n = ((d.modSp n (fun c => { c with s1 := some r })).put (shp .sio) SIO.CAR_RUN_S1 1 n).stopLine n 1 := ⟨_, rfl⟩
  rw [hr]
  exact (Stopped.modSp (g := fun c => { c with s1 := some r }) d n (fun c => ⟨fun _ h => h, id, .inl rfl, rfl⟩) fun _ => rfl).trans
    ((Stopped.put (by simp [stopWs]) (by decide) (by decide) (by decide) (i := n) hn _ _).trans (Stopped.stopLine ..))

theorem Stopped.stopOne : Stopped d (d.stopOne n) := by
  have hpre : Stopped d (if d.stopStands n then d else d.putBit (shp .sfc) SFC.STOPS_CAT1 n true) := by
    split
    · exact Stopped.refl d
    · exact Stopped.put (by simp [stopWs]) (by decide) (by decide) (by decide) (i := 0) (by decide) d _
  rw [Dev.stopOne]
  refine hpre.trans ?_
  generalize (if d.stopStands n then d else d.putBit (shp .sfc) SFC.STOPS_CAT1 n true) = e
  split
  · exact Stopped.refl e
  · exact Stopped.s1Begun e hn

theorem Stopped.spStop : Stopped d (d.spStop n cause cat words) := by
  rw [spStop_eq]
  split
  · split
    · exact (Stopped.stopLatched d cause words hn).trans (Stopped.stopZero _ _ hn)
    · exact (Stopped.stopLatched d cause words hn).trans (Stopped.stopOne _ hn)
  · exact Stopped.refl d

/-- A stop of an enabled car in RUN leaves its cause latched. -/
theorem spStop_latches (hl : n < d.saf.sp.length) (hrun : d.safRun = true) (hcar : d.safCar n = true) : bitN ((d.spStop n cause cat words).sp n).causes cause = 1 := by
  have hset := stopLatched_cause d cause words hl
  rw [spStop_eq]
  split
  case isTrue =>
    split
    · exact ((Stopped.stopZero _ cause hn).sp n).causes cause hset
    · exact ((Stopped.stopOne (d.stopLatched n cause words) hn).sp n).causes cause hset
  case isFalse ht =>
    rcases bitN_zero_or_one (d.sp n).causes cause with h | h
    · exact absurd (by rw [stopTaken, hrun, hcar, h]; rfl) ht
    · exact h

/-- A stop of category 0 that is taken halts the car. -/
theorem spStop_halts (hl : n < d.saf.sp.length) (hrun : d.safRun = true) (hcar : d.safCar n = true) (hnew : bitN (d.sp n).causes cause = 0) :
    (d.spStop n cause 0 words).Halted n ∧ bitN ((d.spStop n cause 0 words).get (shp .sfc) SFC.STOPS_CAT0) n = 1 := by
  obtain ⟨x, hx⟩ : ∃ x, x = d.stopLatched n cause words := ⟨_, rfl⟩
  have htaken : d.stopTaken n cause 0 = true := by
    rw [stopTaken, hrun, hcar, hnew]
    rfl
  obtain ⟨y, hy⟩ : ∃ y, y = (x.putBit (shp .sfc) SFC.STOPS_CAT0 n true).s1Cleared n := ⟨_, rfl⟩
  have hxl : n < x.saf.sp.length := by
    rw [hx, (Stopped.stopLatched d cause words hn).cars.spLen]
    exact hl
  have hs1 : (y.sp n).s1 = none := by
    have h : y.sp n = (x.modSp n (fun c => { c with s1 := none })).sp n := by
      rw [hy]
      rfl
    rw [h, sp_modSp, if_pos ⟨rfl, hxl⟩]
  have hcat : bitN (y.get (shp .sfc) SFC.STOPS_CAT0) n = 1 := by
    rw [hy]
    exact (Stopped.s1Cleared _ hn).cat0 n hn (bit_putBit_same x (shp .sfc) SFC.STOPS_CAT0 true 0 0 (by decide) hn)
  obtain ⟨o1, o2, o3, -⟩ := carOff_shows y hn
  have hhalt : ((y.carOff n).stopLine n 0).Halted n := by
    refine ⟨?_, ?_, ?_⟩
    · rw [get_congr (regs_stopLine ..), o1]
    · rw [get_congr (regs_stopLine ..), o2]
    · rw [sp, saf_stopLine, ← sp]
      exact (congrArg SafCar.s1 (o3 n) :).trans hs1
  have hzero : bitN (((y.carOff n).stopLine n 0).get (shp .sfc) SFC.STOPS_CAT0) n = 1 :=
    (Stopped.stopLine ..).cat0 n hn ((Stopped.carOff y hn).cat0 n hn hcat)
  have he : d.spStop n cause 0 words = x.stopZero n cause := by
    rw [spStop_eq, htaken, if_pos rfl, if_pos rfl, hx]
  have hz : x.stopZero n cause = if ((y.carOff n).stopLine n 0).native then
      (((y.carOff n).stopLine n 0).modTh n (fun t => { t with offReq := true })).thTrip n 0xF [cause] else ((y.carOff n).stopLine n 0).thTrip n 0xD [cause] := by
    rw [hy]
    rfl
  have hreq := Stopped.modTh (g := fun t => { t with offReq := true }) ((y.carOff n).stopLine n 0) n fun _ _ h => h
  have hhalt' := halted_modTh n (fun t => { t with offReq := true }) hhalt
  rw [he, hz]
  split
  · exact ⟨halted_thTrip _ _ _ hn hhalt', (Stopped.thTrip _ _ _ hn).cat0 n hn (hreq.cat0 n hn hzero)⟩
  · exact ⟨halted_thTrip _ _ _ hn hhalt, (Stopped.thTrip _ _ _ hn).cat0 n hn hzero⟩

end

end Dev

end Sys2Proof.Machine
end

section
/-! PROOFS. Standstill, the brakes and their currents (O38). -/
namespace Sys2Proof.Machine

open Sys2Proof

namespace Dev

theorem keeps_outUpdate (d : Dev) : d.keeps d.outUpdate [shp .sio, shp .ths] := by
  rw [outUpdate_eq]
  refine keeps_foldl _ _ fun e k hk => ?_
  have h1 : k < SIO.SO_ST_HS.cnt := List.mem_range.mp hk
  have h2 : k < SIO.SO_ST_LS.cnt := List.mem_range.mp hk
  simp (disch := first | decide | assumption | simp) [outStep, putb, putBit, keeps_put_iff]

@[simp] theorem get_modSp (d : Dev) (n : Nat) (g : SafCar → SafCar) (p f i t) : (d.modSp n g).get p f i t = d.get p f i t := rfl
@[simp] theorem get_modTh (d : Dev) (n : Nat) (g : ThCar → ThCar) (p f i t) : (d.modTh n g).get p f i t = d.get p f i t := rfl
@[simp] theorem keeps_modSp_iff (d e : Dev) (n : Nat) (g : SafCar → SafCar) (ps) : d.keeps (e.modSp n g) ps ↔ d.keeps e ps := Iff.rfl
@[simp] theorem keeps_modTh_iff (d e : Dev) (n : Nat) (g : ThCar → ThCar) (ps) : d.keeps (e.modTh n g) ps ↔ d.keeps e ps := Iff.rfl

/-- The cars of the safety core pair. -/
theorem spLen_of_shaped {d : Dev} (h : d.shaped = true) : d.saf.sp.length = 4 := by
  simp only [Dev.shaped, Bool.and_eq_true, beq_iff_eq] at h
  simp [h]

/-- A switch whose command is off. -/
theorem hs_off {d : Dev} {k : Nat} (hk : k < 8) (hoff : d.outHs k = false) (hcar : bkOutCar d.blk k < 4) : d.outUpdate.get (shp .sio) SIO.SO_ST_HS k = 0 := by
  rw [(outUpdate_shows d hk (.inr hcar)).1, hoff]
  rfl

theorem outHs_brake {d : Dev} {k n : Nat} (hfn : bkOutFn d.blk k = 2) (hcar : bkOutCar d.blk k = n) (h : d.get (shp .sio) SIO.CAR_RUN_BRK_ON n = 0) : d.outHs k = false := by
  rw [outHs, hfn, hcar, on, on, h]
  simp

theorem outHs_sto {d : Dev} {k n : Nat} (hfn : bkOutFn d.blk k = 1) (hcar : bkOutCar d.blk k = n) (h : d.get (shp .sio) SIO.CAR_RUN_STO_ON n = 0) : d.outHs k = false := by
  rw [outHs, hfn, hcar, on, on, h]
  simp

section
variable (d : Dev) {n : Nat} (hn : n < 4) (hl : n < d.saf.sp.length)
include hn hl

/-- A brake that drops. -/
theorem dropBrake_shows : (d.dropBrake n).get (shp .sio) SIO.CAR_RUN_BRK_ON n = 0 ∧ ((d.dropBrake n).sp n).dropped = true ∧ ((d.dropBrake n).sp n).s1 = (d.sp n).s1 ∧
    (d.dropBrake n).saf.sp.length = d.saf.sp.length ∧
    (∀ k < 8, bkOutFn d.blk k = 2 → bkOutCar d.blk k = n → (d.dropBrake n).get (shp .sio) SIO.SO_ST_HS k = 0) ∧ d.keeps (d.dropBrake n) [shp .sio, shp .ths] := by
  obtain ⟨p, t, he⟩ : ∃ p t, d.dropBrake n = (((d.put (shp .sio) SIO.CAR_RUN_BRK_ON 0 n).slipMark (d.on (shp .sio) SIO.CAR_RUN_BRK_ON n) n p t).modSp n
    (fun c => { c with dropped := true })).outUpdate := ⟨_, _, rfl⟩
  obtain ⟨m, hm⟩ : ∃ m, m = (d.put (shp .sio) SIO.CAR_RUN_BRK_ON 0 n).slipMark (d.on (shp .sio) SIO.CAR_RUN_BRK_ON n) n p t := ⟨_, rfl⟩
  have hc : n < SIO.CAR_RUN_BRK_ON.cnt := hn
  have hregs : m.regs = (d.put (shp .sio) SIO.CAR_RUN_BRK_ON 0 n).regs := by
    rw [hm]
    exact regs_slipMark ..
  have hcars : CarsOnly d m := by
    rw [hm]
    have h := (slipMark_stopped (d.put (shp .sio) SIO.CAR_RUN_BRK_ON 0 n) (d.on (shp .sio) SIO.CAR_RUN_BRK_ON n) n p t).cars
    exact ⟨h.saf, h.spLen, h.thLen⟩
  have hbrk : m.get (shp .sio) SIO.CAR_RUN_BRK_ON n = 0 := by
    rw [get_congr hregs]
    exact get_put_same _ _ _ _ _ _ (by decide)
  have hs1 : (m.sp n).s1 = (d.sp n).s1 := by
    rw [hm]
    exact (congrArg SafCar.s1 (besideSlip_slipMark (d.put (shp .sio) SIO.CAR_RUN_BRK_ON 0 n) _ n p t n) :)
  have hk : d.keeps m [shp .sio, shp .ths] := by
    have h : d.keeps (d.put (shp .sio) SIO.CAR_RUN_BRK_ON 0 n) [shp .sio, shp .ths] := (keeps_put_iff (by simp) (by decide) hc (by decide)).mpr (keeps_refl d _)
    rw [hm, slipMark]
    split <;> exact h
  rw [← hm] at he
  have hml : n < m.saf.sp.length := by
    rw [hcars.spLen]
    exact hl
  have hdrop : (m.modSp n (fun c => { c with dropped := true })).sp n = { m.sp n with dropped := true } := by
    rw [sp_modSp, if_pos ⟨rfl, hml⟩]
  have hsp : (d.dropBrake n).sp n = { m.sp n with dropped := true } := by
    rw [he, sp, (only_outUpdate _).saf, ← sp, hdrop]
  refine ⟨?_, ?_, ?_, ?_, fun k hk8 hfn hcar => ?_, ?_⟩
  · rw [he, (within_outUpdate _).get _ _ _ _ (by decide) (by decide) (by decide) hc (by decide)]
    exact hbrk
  · rw [hsp]
  · rw [hsp, ← hs1]
  · rw [he, (only_outUpdate _).saf, (carsOnly_modSp m n _).spLen, hcars.spLen]
  · have hblk : (m.modSp n (fun c => { c with dropped := true })).blk = d.blk := ((carsOnly_modSp m n _).blk).trans hcars.blk
    have hbrk' : (m.modSp n (fun c => { c with dropped := true })).get (shp .sio) SIO.CAR_RUN_BRK_ON n = 0 := by rw [get_modSp, hbrk]
    rw [he]
    exact hs_off hk8 (outHs_brake (by rw [hblk, hfn]) (by rw [hblk, hcar]) hbrk') (by rw [hblk, hcar]; exact hn)
  · rw [he]
    exact keeps_trans ((keeps_modSp_iff ..).mpr hk) (keeps_outUpdate _)

/-- The brake of a car that has come to rest in a category-1 stop drops. -/
theorem s1Standstill_shows {r : S1Run} (hr : (d.sp n).s1 = some r) (hrun : d.safRun = true) (hmv : d.pairMoves n = false) : let e := d.s1Standstill n
    (e.sp n).s1 = some { r with braked := true } ∧ e.get (shp .sio) SIO.CAR_RUN_BRK_ON n = 0 ∧
    (∀ k < 8, bkOutFn d.blk k = 2 → bkOutCar d.blk k = n → e.get (shp .sio) SIO.SO_ST_HS k = 0) ∧ d.keeps e [shp .sio, shp .ths] := by
  intro e
  obtain ⟨h1, -, -, h4, h5, h6⟩ := dropBrake_shows d hn hl
  have he : e = (d.dropBrake n).modSp n (fun c => { c with s1 := some { r with braked := true } }) := by
    show d.s1Standstill n = _
    rw [s1Standstill, hr, hrun, hmv]
    rfl
  rw [he]
  refine ⟨?_, (get_modSp ..).trans h1, fun k hk hfn hcar => (get_modSp ..).trans (h5 k hk hfn hcar), (keeps_modSp_iff ..).mpr h6⟩
  rw [sp_modSp, if_pos ⟨rfl, by omega⟩]

/-- The STO pair of a category-1 stop goes off after the brake. -/
theorem s1Off_shows {r : S1Run} (hr : (d.sp n).s1 = some r) (hb : r.braked = true) : let e := d.s1Off n
    (e.sp n).s1 = none ∧ e.get (shp .sio) SIO.CAR_RUN_STO_ON n = 0 ∧ e.get (shp .sio) SIO.CAR_RUN_S1 n = 0 ∧
    (∀ k < 8, bkOutFn d.blk k = 1 → bkOutCar d.blk k = n → e.get (shp .sio) SIO.SO_ST_HS k = 0) ∧ d.keeps e [shp .sio, shp .ths] := by
  intro e
  have h1 : n < SIO.CAR_RUN_STO_ON.cnt := hn
  have h2 : n < SIO.CAR_RUN_S1.cnt := hn
  have h3 : n < SIO.CAR_ENV_UMS.cnt := hn
  obtain ⟨m, hm⟩ : ∃ m, m = ((d.put (shp .sio) SIO.CAR_RUN_STO_ON 0 n).put (shp .sio) SIO.CAR_RUN_S1 0 n).put (shp .sio) SIO.CAR_ENV_UMS 0 n := ⟨_, rfl⟩
  have he : e = (m.modSp n (fun c => { c with s1 := none })).outUpdate := by
    show d.s1Off n = _
    rw [s1Off, hr, hm]
    dsimp only
    rw [if_pos hb]
  have hsaf : m.saf = d.saf := by
    rw [hm]
    rfl
  have hsto : m.get (shp .sio) SIO.CAR_RUN_STO_ON n = 0 := by
    simp (disch := first | decide | assumption) only [hm, get_put_apart]
    exact get_put_same _ _ _ _ _ _ (by decide)
  have hs1 : m.get (shp .sio) SIO.CAR_RUN_S1 n = 0 := by
    rw [hm, get_put_apart _ _ (by decide) (by decide) (by decide) h3 h2 (by decide) (by decide)]
    exact get_put_same _ _ _ _ _ _ (by decide)
  rw [he]
  refine ⟨?_, ?_, ?_, fun k hk8 hfn hcar => ?_, ?_⟩
  · rw [sp, (only_outUpdate _).saf, ← sp, sp_modSp, if_pos ⟨rfl, by rw [hsaf]; exact hl⟩]
  · rw [(within_outUpdate _).get _ _ _ _ (by decide) (by decide) (by decide) h1 (by decide)]
    exact hsto
  · rw [(within_outUpdate _).get _ _ _ _ (by decide) (by decide) (by decide) h2 (by decide)]
    exact hs1
  · have hblk : (m.modSp n (fun c => { c with s1 := none })).blk = d.blk := by rw [(carsOnly_modSp m n _).blk, blk, blk, hsaf]
    have hsto' : (m.modSp n (fun c => { c with s1 := none })).get (shp .sio) SIO.CAR_RUN_STO_ON n = 0 := by rw [get_modSp, hsto]
    exact hs_off hk8 (outHs_sto (by rw [hblk, hfn]) (by rw [hblk, hcar]) hsto') (by rw [hblk, hcar]; exact hn)
  · refine keeps_trans ?_ (keeps_outUpdate _)
    have hk : d.keeps m [shp .sio, shp .ths] := by
      rw [hm]
      simp (disch := first | decide | assumption | simp) [keeps_put_iff]
    exact (keeps_modSp_iff ..).mpr hk

end

/-! ### Standstill without a permit, and the lift of the brake -/

section
variable {d : Dev} {n : Nat} (hn : n < 4) (hrun : d.safRun = true)
include hn hrun

omit hn in
theorem standDrop_first (hmv : d.pairMoves n = false) (hs1 : (d.sp n).s1 = none) (hper : bitN (d.get (shp .sfc) SFC.PERMIT_MOTION) n = 0)
    (hd : (d.sp n).dropped = false) : d.standDrop n = d.dropBrake n := by
  simp [standDrop, hrun, hmv, hs1, hper, hd]

theorem standDrop_then (hmv : d.pairMoves n = false) (hs1 : (d.sp n).s1 = none) (hper : bitN (d.get (shp .sfc) SFC.PERMIT_MOTION) n = 0)
    (hd : (d.sp n).dropped = true) (hb : d.on (shp .sio) SIO.CAR_RUN_BRK_ON n = false) :
    (d.standDrop n).get (shp .sio) SIO.CAR_RUN_STO_ON n = 0 ∧ d.keeps (d.standDrop n) [shp .sio, shp .ths] := by
  have h1 : n < SIO.CAR_RUN_STO_ON.cnt := hn
  have he : d.standDrop n = (d.put (shp .sio) SIO.CAR_RUN_STO_ON 0 n).outUpdate := by simp [standDrop, hrun, hmv, hs1, hper, hd, hb]
  rw [he]
  constructor
  · rw [(within_outUpdate _).get _ _ _ _ (by decide) (by decide) (by decide) h1 (by decide)]
    exact get_put_same _ _ _ _ _ _ (by decide)
  · exact keeps_trans ((keeps_put_iff (by simp) (by decide) h1 (by decide)).mpr (keeps_refl d _)) (keeps_outUpdate _)

/-- Whether the brake of a car may lift. -/
def lifts (d : Dev) (n : Nat) : Prop :=
  d.on (shp .sio) SIO.CAR_RUN_STO_ON n = true ∧ (d.sp n).dropped = false ∧ (d.sp n).s1.map S1Run.braked ≠ some true ∧
    (d.carClosed n = true ∨ (d.sp n).moved = true)

omit hn in
theorem lifts_iff : d.lifts n ↔ (d.safRun && d.on (shp .sio) SIO.CAR_RUN_STO_ON n &&
    !((d.sp n).dropped || (match (d.sp n).s1 with | some r => r.braked | none => false)) && (d.carClosed n || (d.sp n).moved)) = true := by
  rw [lifts, hrun]
  cases (d.sp n).s1 with
  | none => cases (d.sp n).dropped <;> simp
  | some r => cases (d.sp n).dropped <;> simp [and_assoc]

omit hn in
theorem brakeLift_not (h : ¬ d.lifts n) : d.brakeLift n = d := if_neg fun hc => h ((lifts_iff hrun).mpr hc)

theorem brakeLift_shows (h : d.lifts n) :
    (d.brakeLift n).get (shp .sio) SIO.CAR_RUN_BRK_ON n = 1 ∧ d.keeps (d.brakeLift n) [shp .sio, shp .ths] := by
  have h1 : n < SIO.CAR_RUN_BRK_ON.cnt := hn
  have he : d.brakeLift n = ((d.put (shp .sio) SIO.CAR_RUN_BRK_ON 1 n).modSp n (fun c => { c with slipP := none, slipT := none })).outUpdate :=
    if_pos ((lifts_iff hrun).mp h)
  rw [he]
  constructor
  · rw [(within_outUpdate _).get _ _ _ _ (by decide) (by decide) (by decide) h1 (by decide), get_modSp]
    exact get_put_same _ _ _ _ _ _ (by decide)
  · refine keeps_trans ((keeps_modSp_iff ..).mpr ?_) (keeps_outUpdate _)
    exact (keeps_put_iff (by simp) (by decide) h1 (by decide)).mpr (keeps_refl d _)

end

/-! ### The current of a brake -/

section
variable {d : Dev} {k n : Nat} (i : Nat) (hk : k < 8)
include hk

/-- A reading shows its value and no more. -/
theorem readI_leaves : d.keeps (d.readI k i) [shp .sio] ∧ (d.readI k i).saf = d.saf ∧ (d.readI k i).on (shp .sio) SIO.SO_ST_HS k = d.on (shp .sio) SIO.SO_ST_HS k ∧
    (d.readI k i).safRun = d.safRun := by
  have h1 : k < SIO.SO_RB_I.cnt := hk
  have h2 : k < SIO.SO_ST_HS.cnt := hk
  refine ⟨(keeps_put_iff (by simp) (by decide) h1 (by decide)).mpr (keeps_refl d _), rfl, ?_, ?_⟩
  · rw [on, on, readI, get_put_apart _ _ (by decide) (by decide) (by decide) h1 h2 (by decide) (by decide)]
  · rw [safRun, safRun, readI, get_put_other _ _ (by decide) (by decide) (by decide) h1 (by decide) (by decide) (by decide)]

omit hk in
/-- A brake that does not follow its switch stops its car. -/
theorem brakeFault_shows (hn : n < 4) (hl : n < d.saf.sp.length) (hrun : d.safRun = true) (hcar : bkOutCar d.blk k = n) (hon : d.safCar n = true) :
    (d.brakeFault k).get (shp .sfc) HDR.ERR_CODE = cBRAKE_FAULT ∧ bitN ((d.brakeFault k).sp n).causes 0xD = 1 := by
  have he : d.brakeFault k = (d.err (shp .sfc) cBRAKE_FAULT n).spStop n 0xD 0 := by rw [brakeFault, hcar]
  have hrun' : (d.err (shp .sfc) cBRAKE_FAULT n).safRun = true := by
    rw [safRun, get_err_apart _ _ _ (by decide) (by decide) (by decide) (by decide)]
    exact hrun
  rw [he]
  constructor
  · rw [(Stopped.spStop _ _ _ _ hn).within.get _ _ _ _ (by decide) (by decide) (by decide) (by decide) (by decide)]
    simp (disch := decide) only [err, get_put_apart, get_put_same]
    decide
  · exact spStop_latches _ _ _ _ hn hl hrun' hon

omit hk in
theorem brakePick_eq (hcar : bkOutCar d.blk k = n) : d.brakePick k i =
    let m := d.readI k i
    if m.safRun && bkOutFn m.blk k == 2 && (m.on (shp .sio) SIO.SO_ST_HS k == true) && decide (i < car16 d.blk n 0x98) then m.brakeFault k else m := by
  have hblk : (d.readI k i).blk = d.blk := rfl
  rw [brakePick, hblk, hcar]
  simp only [beq_true, hblk]

omit hk in
theorem brakeDropped_eq : d.brakeDropped k i =
    let m := d.readI k i
    if m.safRun && bkOutFn m.blk k == 2 && (m.on (shp .sio) SIO.SO_ST_HS k == false) && decide (i ≥ 50) then m.brakeFault k else m := by
  rw [brakeDropped]
  simp only [beq_false]

variable (hn : n < 4) (hl : n < d.saf.sp.length) (hrun : d.safRun = true) (hfn : bkOutFn d.blk k = 2) (hcar : bkOutCar d.blk k = n) (hon : d.safCar n = true)
include hn hl hrun hfn hcar hon

/-- A check whose reading is wrong. -/
theorem brakeCheck_shows (hs : Bool) {bad : Prop} [Decidable bad] (hhs : d.on (shp .sio) SIO.SO_ST_HS k = hs) :
    let m := d.readI k i
    let e := if m.safRun && bkOutFn m.blk k == 2 && (m.on (shp .sio) SIO.SO_ST_HS k == hs) && decide bad then m.brakeFault k else m
    if bad then e.get (shp .sfc) HDR.ERR_CODE = cBRAKE_FAULT ∧ bitN (e.sp n).causes 0xD = 1 else e.saf = d.saf ∧ d.keeps e [shp .sio] := by
  intro m e
  obtain ⟨r1, r2, r3, r4⟩ := readI_leaves (d := d) i hk
  have hblk : m.blk = d.blk := by rw [blk, blk, r2]
  have he : e = if bad then m.brakeFault k else m := by
    have hg : (m.safRun && bkOutFn m.blk k == 2 && (m.on (shp .sio) SIO.SO_ST_HS k == hs) && decide bad) = decide bad := by
      rw [show m.safRun = true from r4.trans hrun, hblk, hfn, show m.on (shp .sio) SIO.SO_ST_HS k = hs from r3.trans hhs]
      simp
    show (if _ then _ else _) = _
    rw [hg]
    simp only [decide_eq_true_eq]
  rw [he]
  split
  · exact brakeFault_shows hn (by rw [r2]; exact hl) (r4.trans hrun) (by rw [hblk, hcar]) (by rw [safCar, hblk]; exact hon)
  · exact ⟨r2, r1⟩

end

end Dev

/-- Settles O38: standstill and timeout of a category-1 stop, the drop of a standing car's brake, the lift, and both current checks. -/
theorem stopsAndBrakes : Obligations.StopsAndBrakes := by
  unfold Obligations.StopsAndBrakes
  intro s n hout hshape hrun
  have hl : n.val < s.dev.saf.sp.length := by
    rw [Dev.spLen_of_shaped hshape]
    exact n.isLt
  refine ⟨fun r hr => ⟨fun hmv => ?_, fun hb => ?_, fun hb hcar hnew => ?_⟩, fun hmv hs1 hper => ⟨fun hd => ?_, fun hd hoff => ?_⟩, ?_,
    fun k i hfn hcar hon => ⟨fun hhs => ?_, fun hhs => ?_⟩⟩
  · obtain ⟨h1, h2, h3, h4⟩ := Dev.s1Standstill_shows s.dev n.isLt hl hr hrun hmv
    exact ⟨_, next_of_out hout rfl, rfl, h1, h2, fun k => h3 k k.isLt, h4⟩
  · obtain ⟨h1, h2, h3, h4, h5⟩ := Dev.s1Off_shows s.dev n.isLt hl hr hb
    exact ⟨_, next_of_out hout rfl, rfl, h1, h2, h3, fun k => h4 k k.isLt, h5⟩
  · obtain ⟨⟨h1, h2, h3⟩, h4⟩ := Dev.spStop_halts s.dev 0xC [] n.isLt hl hrun hcar hnew
    have he : s.dev.s1Time n = s.dev.spStop n 0xC 0 := by
      rw [Dev.s1Time, hr]
      simp [hb]
    exact ⟨_, next_of_out_eq hout rfl he, rfl, Dev.spStop_latches s.dev 0xC 0 [] n.isLt hl hrun hcar, h4, h3, h1, h2⟩
  · obtain ⟨h1, h2, -, -, -, h6⟩ := Dev.dropBrake_shows s.dev n.isLt hl
    exact ⟨_, next_of_out_eq hout rfl (Dev.standDrop_first hrun hmv hs1 hper hd), rfl, h1, h2, h6⟩
  · obtain ⟨h1, h2⟩ := Dev.standDrop_then n.isLt hrun hmv hs1 hper hd hoff
    exact ⟨_, next_of_out hout rfl, rfl, h1, h2⟩
  · split
    case isTrue h =>
      obtain ⟨h1, h2⟩ := Dev.brakeLift_shows n.isLt hrun h
      exact ⟨_, next_of_out hout rfl, rfl, h1, h2⟩
    case isFalse h => exact next_of_out_eq hout rfl (Dev.brakeLift_not hrun h)
  · have h := Dev.brakeCheck_shows i.toNat k.isLt n.isLt hl hrun hfn hcar hon true (bad := i.toNat < car16 s.dev.blk n 0x98) hhs
    exact ⟨_, next_of_out_eq hout rfl (Dev.brakePick_eq i.toNat hcar), rfl, h⟩
  · have h := Dev.brakeCheck_shows i.toNat k.isLt n.isLt hl hrun hfn hcar hon false (bad := i.toNat ≥ 50) hhs
    exact ⟨_, next_of_out_eq hout rfl (Dev.brakeDropped_eq i.toNat), rfl, h⟩

end Sys2Proof.Machine
end

section
/-! PROOFS. The evaluation of the safety core pair: permits, doors, inputs, headway and the functions of a servo period (O36). -/
namespace Sys2Proof.Machine

open Sys2Proof

namespace Dev

/-! ### What stops leave of a car's motion -/

namespace StoppedIn

variable {ws : List (Nat × Fld)} {d e : Dev}

/-- The registers that the evaluation reads. -/
def evalReads : List (Nat × Fld) :=
  [(shp .wir, WIR.LEASE_HOLDER), (shp .sfc, SFC.STATE_CODE), (shp .sfc, SFC.STATE_MODE), (shp .sfc, SFC.STOPS_PAIR_FLT)]

theorem reads (h : StoppedIn ws d e) (hc : ∀ x ∈ evalReads, clearOf ws x.1 x.2 = true) {x : Nat × Fld} (hx : x ∈ evalReads) : e.get x.1 x.2 = d.get x.1 x.2 := by
  have hx' : x.1 ≠ shp .slt ∧ x.2.fits = true ∧ 0 < x.2.cnt := by fin_cases hx <;> decide
  exact h.within.get _ _ _ _ hx'.1 (hc x hx) hx'.2.1 hx'.2.2 (by decide)

section
variable (h : StoppedIn ws d e) (hc : ∀ x ∈ evalReads, clearOf ws x.1 x.2 = true)
include h hc

theorem holder : e.holder = d.holder := by
  rw [Dev.holder, Dev.holder, on, on, h.reads hc (x := (shp .wir, WIR.LEASE_HOLDER)) (by simp [evalReads])]

theorem safRun : e.safRun = d.safRun := by rw [Dev.safRun, Dev.safRun, h.reads hc (x := (shp .sfc, SFC.STATE_CODE)) (by simp [evalReads])]

theorem native : e.native = d.native := by rw [Dev.native, Dev.native, h.reads hc (x := (shp .sfc, SFC.STATE_MODE)) (by simp [evalReads])]

theorem spFlt (p : Nat) : e.spFlt p = d.spFlt p := by rw [Dev.spFlt, Dev.spFlt, h.reads hc (x := (shp .sfc, SFC.STOPS_PAIR_FLT)) (by simp [evalReads])]

theorem spAct (p : Nat) : e.spAct p = d.spAct p := by rw [Dev.spAct, Dev.spAct, h.spFlt hc, h.cars.saf]

theorem pair (n : Nat) : e.pair n = d.pair n := by rw [Dev.pair, Dev.pair, h.copies.1, h.holder hc]

theorem pV (n : Nat) : e.pV n = d.pV n := by rw [Dev.pV, Dev.pV, h.pair hc]

theorem gapP (p : Nat) : e.gapP p = d.gapP p := by rw [Dev.gapP, Dev.gapP, pX, pX, pX, pX, h.pair hc, h.pair hc, h.cars.blk]

omit hc in
theorem hwWaiver (n : Nat) : e.hwWaiver n = d.hwWaiver n := by rw [Dev.hwWaiver, Dev.hwWaiver, (h.sp n).deg]

omit hc in
theorem headWaived (p : Nat) : e.headWaived p = d.headWaived p := by
  rw [Dev.headWaived, Dev.headWaived]
  simp only [List.any_cons, List.any_nil, h.hwWaiver]

end

end StoppedIn

/-! ### Permits -/

/-- The registers of the permits. -/
def permitWs : List (Nat × Fld) :=
  outWs ++ [(shp .sfc, SFC.CAR_WHY_BITS), (shp .sfc, SFC.PERMIT_MOTION), (shp .sio, SIO.CAR_RUN_STO_ON)] ++
    (List.range 4).flatMap fun n => [(pgMpg .a n, MPG.STATE_PERMIT), (pgMpg .b n, MPG.STATE_PERMIT)]

theorem mpg_mem_permitWs (h : HalfId) {n : Nat} (hn : n < 4) : (pgMpg h n, MPG.STATE_PERMIT) ∈ permitWs :=
  List.mem_append_right _ (List.mem_flatMap.mpr ⟨n, List.mem_range.mpr hn, by cases h <;> simp⟩)

theorem out_mem_permitWs {w : Nat × Fld} (h : w ∈ outWs) : w ∈ permitWs := List.mem_append_left _ (List.mem_append_left _ h)

/-- A car of the pair beside the mark of its brake. -/
def besideDropped (c : SafCar) : SafCar := { c with dropped := false }

/-- A part that differs from another in permits only: in what is kept of a car only the mark of its brake. -/
structure Permitted (d e : Dev) : Prop where
  within : Within permitWs d e
  cars : CarsOnly d e
  copies : e.pCopy = d.pCopy ∧ e.pRes = d.pRes ∧ e.pInt = d.pInt
  sp : ∀ m, besideDropped (e.sp m) = besideDropped (d.sp m)
  th : ∀ m, e.th m = d.th m

namespace Permitted

variable {d e x : Dev}

theorem refl (d : Dev) : Permitted d d := ⟨Within.refl _ d, CarsOnly.refl d, ⟨rfl, rfl, rfl⟩, fun _ => rfl, fun _ => rfl⟩

theorem trans (h : Permitted d e) (g : Permitted e x) : Permitted d x :=
  ⟨h.within.trans g.within, h.cars.trans g.cars, ⟨g.copies.1.trans h.copies.1, g.copies.2.1.trans h.copies.2.1, g.copies.2.2.trans h.copies.2.2⟩,
    fun m => (g.sp m).trans (h.sp m), fun m => (g.th m).trans (h.th m)⟩

theorem causes (h : Permitted d e) (m : Nat) : (e.sp m).causes = (d.sp m).causes := (congrArg SafCar.causes (h.sp m) :)

theorem hw (h : Permitted d e) (m : Nat) : (e.sp m).hw = (d.sp m).hw := (congrArg SafCar.hw (h.sp m) :)

theorem put {p : Nat} {f : Fld} (hm : (p, f) ∈ permitWs) (hf : f.fits = true) {i : Nat} (hi : i < f.cnt) (d : Dev) (v : Nat) : Permitted d (d.put p f v i) :=
  ⟨(Within.refl _ d).put hm hf hi v (by decide), CarsOnly.of_saf rfl, ⟨rfl, rfl, rfl⟩, fun _ => rfl, fun _ => rfl⟩

theorem outUpdate (d : Dev) : Permitted d d.outUpdate := by
  have hsaf := (only_outUpdate d).saf
  refine ⟨(within_outUpdate d).mono fun w hw => out_mem_permitWs hw, CarsOnly.of_saf hsaf, ?_, fun m => by rw [Dev.sp, hsaf, Dev.sp], fun m => by rw [Dev.th, hsaf, Dev.th]⟩
  rw [only_outUpdate d]
  exact ⟨rfl, rfl, rfl⟩

theorem undropped (d : Dev) (n : Nat) : Permitted d (d.modSp n (fun c => { c with dropped := false })) := by
  refine ⟨(Within.refl _ d).modSp n _, carsOnly_modSp d n _, ⟨rfl, rfl, rfl⟩, fun m => ?_, fun m => rfl⟩
  rw [sp_modSp]
  split
  case isTrue h => rw [h.1]; rfl
  case isFalse => rfl

end Permitted

/-- Whether a car's motion permit is granted. -/
def permitOk (d : Dev) (n : Nat) : Bool :=
  let why := d.permitWhy n
  let left := why - why.land (waivedBits ((d.sp n).deg.getD 0))
  let testing := match d.saf.test with | some (k, _) => bkOutFn d.blk k != 0 && bkOutCar d.blk k == n | none => false
  let rescue := bitN (d.get (shp .sfc) SFC.PERMIT_RESCUE) n == 1
  d.safRun && d.safCar n && !testing && (left == 0 || rescue)

/-- The permit shown in `SFC` and at the generators. -/
def permitShown (d : Dev) (n : Nat) (ok : Bool) : Dev :=
  ((d.put (shp .sfc) SFC.CAR_WHY_BITS (d.permitWhy n) n).putBit (shp .sfc) SFC.PERMIT_MOTION n ok).both (fun d h => d.putb (pgMpg h n) MPG.STATE_PERMIT ok)

/-- The STO pair of a car with a permit goes on. -/
def permitSto (d : Dev) (n : Nat) (ok : Bool) : Dev :=
  if ok && (d.sp n).causes == 0 && (d.th n).causes == 0 && !d.isManager && !d.on (shp .sio) SIO.CAR_RUN_STO_ON n then
    (d.put (shp .sio) SIO.CAR_RUN_STO_ON 1 n).outUpdate
  else d

theorem pairPermit_eq (d : Dev) (n : Nat) : d.pairPermit n =
    if d.permitOk n then (((d.permitShown n (d.permitOk n)).permitSto n (d.permitOk n)).modSp n (fun c => { c with dropped := false }))
    else (d.permitShown n (d.permitOk n)).permitSto n (d.permitOk n) := rfl

section
variable (d : Dev) {n : Nat} (hn : n < 4)
include hn

theorem Permitted.permitShown (ok : Bool) : Permitted d (d.permitShown n ok) :=
  (Permitted.put (by simp [permitWs]) (by decide) (i := n) hn d _).trans ((Permitted.put (by simp [permitWs]) (by decide) (i := 0) (by decide) _ _).trans
    ((Permitted.put (mpg_mem_permitWs .a hn) (by decide) (i := 0) (by decide) _ _).trans (Permitted.put (mpg_mem_permitWs .b hn) (by decide) (i := 0) (by decide) _ _)))

theorem Permitted.permitSto (ok : Bool) : Permitted d (d.permitSto n ok) := by
  unfold Dev.permitSto
  split
  · exact (Permitted.put (by simp [permitWs]) (by decide) (i := n) hn d 1).trans (Permitted.outUpdate _)
  · exact Permitted.refl d

theorem Permitted.pairPermit : Permitted d (d.pairPermit n) := by
  rw [pairPermit_eq]
  split
  · exact ((Permitted.permitShown d hn _).trans (Permitted.permitSto _ hn _)).trans (Permitted.undropped _ n)
  · exact (Permitted.permitShown d hn _).trans (Permitted.permitSto _ hn _)

/-- The permit bit that a step of the evaluation shows. -/
theorem pairPermit_bit : bitN ((d.pairPermit n).get (shp .sfc) SFC.PERMIT_MOTION) n = (d.permitOk n).toNat := by
  have hmpg (h : HalfId) : pgMpg h n ≠ shp .sfc := by
    cases h <;> interval_cases n <;> decide
  have hshow : bitN ((d.permitShown n (d.permitOk n)).get (shp .sfc) SFC.PERMIT_MOTION) n = (d.permitOk n).toNat := by
    rw [permitShown, both, putb, putb, get_put_other _ _ (hmpg .b) (by decide) (by decide) (by decide) (by decide) (by decide) (by decide),
      get_put_other _ _ (hmpg .a) (by decide) (by decide) (by decide) (by decide) (by decide) (by decide)]
    exact bit_putBit_same _ _ _ _ _ _ (by decide) hn
  have hsto (e : Dev) (ok : Bool) : (e.permitSto n ok).get (shp .sfc) SFC.PERMIT_MOTION = e.get (shp .sfc) SFC.PERMIT_MOTION := by
    have h1 : n < SIO.CAR_RUN_STO_ON.cnt := hn
    unfold permitSto
    split
    · rw [(within_outUpdate _).get _ _ _ _ (by decide) (by decide) (by decide) (by decide) (by decide),
        get_put_other _ _ (by decide) (by decide) (by decide) h1 (by decide) (by decide) (by decide)]
    · rfl
  rw [pairPermit_eq]
  split
  · rw [get_modSp, hsto, hshow]
  · rw [hsto, hshow]

/-- The permits of the other cars stay as they are. -/
theorem pairPermit_bit_other {m : Nat} (hm : m < 4) (hmn : m ≠ n) :
    bitN ((d.pairPermit n).get (shp .sfc) SFC.PERMIT_MOTION) m = bitN (d.get (shp .sfc) SFC.PERMIT_MOTION) m := by
  have hmpg (h : HalfId) : pgMpg h n ≠ shp .sfc := by
    cases h <;> interval_cases n <;> decide
  have h0 : n < SFC.CAR_WHY_BITS.cnt := hn
  have hshow : bitN ((d.permitShown n (d.permitOk n)).get (shp .sfc) SFC.PERMIT_MOTION) m = bitN (d.get (shp .sfc) SFC.PERMIT_MOTION) m := by
    rw [permitShown, both, putb, putb, get_put_other _ _ (hmpg .b) (by decide) (by decide) (by decide) (by decide) (by decide) (by decide),
      get_put_other _ _ (hmpg .a) (by decide) (by decide) (by decide) (by decide) (by decide) (by decide), bit_putBit_other _ _ _ _ _ _ (by decide) hm hmn,
      get_put_apart _ _ (by decide) (by decide) (by decide) h0 (by decide) (by decide) (by decide)]
  have hsto (e : Dev) (ok : Bool) : (e.permitSto n ok).get (shp .sfc) SFC.PERMIT_MOTION = e.get (shp .sfc) SFC.PERMIT_MOTION := by
    have h1 : n < SIO.CAR_RUN_STO_ON.cnt := hn
    unfold permitSto
    split
    · rw [(within_outUpdate _).get _ _ _ _ (by decide) (by decide) (by decide) (by decide) (by decide),
        get_put_other _ _ (by decide) (by decide) (by decide) h1 (by decide) (by decide) (by decide)]
    · rfl
  rw [pairPermit_eq]
  split
  · rw [get_modSp, hsto, hshow]
  · rw [hsto, hshow]

end

/-- A latched stop stands among the conditions of the permit, and no grant waives it. -/
theorem permitLeft_ne_zero (d : Dev) (n w : Nat) (h : (d.sp n).causes ≠ 0) : d.permitWhy n - (d.permitWhy n).land (waivedBits w) ≠ 0 := by
  have hbit (k : Nat) (b : Bool) : (if b then 2 ^ k else 0) = b.toNat * 2 ^ k := by cases b <;> simp
  have hle (b : Bool) : b.toNat ≤ 1 := Bool.toNat_le b
  have hwhy : (d.permitWhy n).testBit 3 = true := by
    rw [Nat.testBit_eq_decide_div_mod_eq, decide_eq_true_eq, permitWhy]
    dsimp only
    rw [show ((d.sp n).causes != 0) = true from bne_iff_ne.mpr h]
    simp only [hbit, if_true]
    generalize (!d.safRun) = b0
    generalize (d.on (shp .sfc) SFC.STATE_SEAL_EN || d.saf.sealFail) = b1
    generalize ((d.th n).causes != 0) = b2
    generalize (!d.carClosed n && (d.sp n).bridged.isEmpty) = b4
    generalize (List.any _ d.lockOpen) = b5
    generalize (List.any _ fun l => d.landSilent l || d.saf.lockDis.contains l) = b6
    generalize (d.native && !d.tGood n) = b7
    generalize (!(d.pSt n == 2 || d.pSt n == 3)) = b8
    generalize (d.sp n).limMis = b9
    generalize ((d.sp n).hw || (d.sp n).hwNow || (d.sp n).resOut) = b10
    generalize (List.any _ fun p => (d.spFlt p || d.thFlt p) && (bkPCars d.blk p).contains n) = b11
    have := hle b0
    have := hle b1
    have := hle b2
    have h3 : true.toNat = 1 := rfl
    omega
  have hwaive : (waivedBits w).testBit 3 = false := by
    rw [Nat.testBit_eq_decide_div_mod_eq, decide_eq_false_iff_not, waivedBits]
    rcases bitN_zero_or_one w 0 with h0 | h0 <;> rcases bitN_zero_or_one w 1 with h1 | h1 <;> rcases bitN_zero_or_one w 2 with h2 | h2 <;>
      simp [h0, h1, h2]
  have hle : (d.permitWhy n).land (waivedBits w) ≤ d.permitWhy n := Nat.and_le_left
  intro hz
  have heq : (d.permitWhy n).land (waivedBits w) = d.permitWhy n := by omega
  have ht : ((d.permitWhy n).land (waivedBits w)).testBit 3 = false := by
    rw [show (d.permitWhy n).land (waivedBits w) = d.permitWhy n &&& waivedBits w from rfl, Nat.testBit_and, hwaive, Bool.and_false]
  rw [heq, hwhy] at ht
  exact absurd ht (by decide)

/-- What withholds a permit whatever else holds: another state than RUN, or a stop with no rescue. -/
def Withheld (d : Dev) (n : Nat) : Prop := d.safRun = false ∨ (d.sp n).causes ≠ 0 ∧ bitN (d.get (shp .sfc) SFC.PERMIT_RESCUE) n = 0

theorem permitOk_of_withheld {d : Dev} {n : Nat} (h : d.Withheld n) : d.permitOk n = false := by
  rcases h with h | ⟨h, hr⟩
  · rw [permitOk, h]
    rfl
  · have hl := permitLeft_ne_zero d n ((d.sp n).deg.getD 0) h
    rw [permitOk, hr]
    simp only [beq_eq_false_iff_ne.mpr hl, Bool.false_or, Nat.reduceBEq, Bool.and_false]

theorem Permitted.safRun {d e : Dev} (h : Permitted d e) : e.safRun = d.safRun := by
  rw [Dev.safRun, Dev.safRun, h.within.get _ _ _ _ (by decide) (by decide) (by decide) (by decide) (by decide)]

theorem Permitted.rescue {d e : Dev} (h : Permitted d e) : e.get (shp .sfc) SFC.PERMIT_RESCUE = d.get (shp .sfc) SFC.PERMIT_RESCUE :=
  h.within.get _ _ _ _ (by decide) (by decide) (by decide) (by decide) (by decide)

theorem Permitted.withheld {d e : Dev} (h : Permitted d e) {n : Nat} (hw : d.Withheld n) : e.Withheld n := by
  rw [Withheld, h.safRun, h.causes, h.rescue]
  exact hw

theorem Permitted.permits (d : Dev) : Permitted d d.permits := by
  have hfold : ∀ (l : List Nat) (d : Dev), (∀ n ∈ l, n < 4) → Permitted d (l.foldl Dev.pairPermit d) := by
    intro l
    induction l with
    | nil => exact fun d _ => Permitted.refl d
    | cons n l ih =>
      intro d hl
      exact (Permitted.pairPermit d (hl n List.mem_cons_self)).trans (ih _ fun m hm => hl m (List.mem_cons_of_mem _ hm))
  exact hfold _ d fun n hn => List.mem_range.mp hn

/-- A withheld permit is shown withheld. -/
theorem permits_withheld (d : Dev) {n : Nat} (hn : n < 4) (hw : d.Withheld n) : bitN (d.permits.get (shp .sfc) SFC.PERMIT_MOTION) n = 0 := by
  refine (foldl_reach (P := fun e : Dev => e.Withheld n ∧ bitN (e.get (shp .sfc) SFC.PERMIT_MOTION) n = 0) (Q := fun e : Dev => e.Withheld n) (x := n) _ d
    (fun e m hm h => (Permitted.pairPermit e (List.mem_range.mp hm)).withheld h) (fun e m hm h => ⟨(Permitted.pairPermit e (List.mem_range.mp hm)).withheld h.1, ?_⟩)
    (List.mem_range.mpr hn) (fun e h => ⟨(Permitted.pairPermit e hn).withheld h, ?_⟩) hw).2
  · by_cases hmn : n = m
    · rw [← hmn, pairPermit_bit e hn, permitOk_of_withheld h.1]
      rfl
    · rw [pairPermit_bit_other e (List.mem_range.mp hm) hn hmn, h.2]
  · rw [pairPermit_bit e hn, permitOk_of_withheld h]
    rfl

/-! ### Inputs and doors -/

theorem bkPCars_lt {b : Block} {p n : Nat} (h : n ∈ bkPCars b p) : n < 4 ∧ bkCarOn b n = true := by
  obtain ⟨h1, h2⟩ := List.mem_filter.mp h
  exact ⟨List.mem_range.mp h1, (Bool.and_eq_true_iff.mp h2).2⟩

theorem finalCar_lt {b : Block} {p n : Nat} (h : n ∈ finalCar b p) : n < 4 := by
  have h1 : n ∈ (if bkFunc b p == 4 then bkLowest b else bkHighest b).toList := (List.mem_filter.mp h).1
  rw [Option.mem_toList] at h1
  split at h1
  · exact List.mem_range.mp (List.mem_of_find?_eq_some h1)
  · exact List.mem_range.mp (List.mem_reverse.mp (List.mem_of_find?_eq_some h1))

theorem safCars_lt {d : Dev} {n : Nat} (h : n ∈ d.safCars) : n < 4 ∧ d.safCar n = true :=
  ⟨List.mem_range.mp (List.mem_filter.mp h).1, (List.mem_filter.mp h).2⟩

/-- A CHAIN pair in demand at one car. -/
def chainStep (p : Nat) (d : Dev) (n : Nat) : Dev :=
  if bitN (d.sp n).rscChain p == 1 then d
  else (d.modSp n (fun c => { c with chain := setBitN c.chain p true })).spStop n (d.inCause p 1) 0 [p]

/-- The response of the pair to one pair of inputs. -/
def inputStep (d : Dev) (p : Nat) : Dev :=
  if !d.spAct p then d
  else if bkFunc d.blk p = 1 then (bkPCars d.blk p).foldl (chainStep p) d
  else if bkFunc d.blk p = 4 ∨ bkFunc d.blk p = 5 then (finalCar d.blk p).foldl (fun d n => d.spStop n (d.inCause p 2) 0 [p]) d
  else d

theorem pairInputs_eq (d : Dev) : d.pairInputs = (List.range 8).foldl inputStep d := rfl

theorem Stopped.chainStep (p : Nat) (d : Dev) {n : Nat} (hn : n < 4) : Stopped d (d.chainStep p n) := by
  unfold Dev.chainStep
  split
  · exact Stopped.refl d
  · exact (Stopped.modSp (g := fun c => { c with chain := setBitN c.chain p true }) d n (fun _ => ⟨fun _ h => h, id, .inl rfl, rfl⟩) fun _ => rfl).trans
      (Stopped.spStop _ _ _ _ hn)

theorem Stopped.inputStep (d : Dev) (p : Nat) : Stopped d (d.inputStep p) := by
  unfold Dev.inputStep
  split_ifs
  · exact Stopped.refl d
  · exact StoppedIn.foldl _ d fun e n hn => Stopped.chainStep p e (bkPCars_lt hn).1
  · exact StoppedIn.foldl _ d fun e n hn => Stopped.spStop e _ _ _ (finalCar_lt hn)
  · exact Stopped.refl d

theorem Stopped.pairInputs (d : Dev) : Stopped d d.pairInputs := by
  rw [pairInputs_eq]
  exact StoppedIn.foldl _ d fun e p _ => Stopped.inputStep e p

/-- A CHAIN pair in demand or fault stops each of its cars, unless a rescue has it ignored. -/
theorem pairInputs_chain {d : Dev} (hrun : d.safRun = true) (hlen : d.saf.sp.length = 4) {p n : Nat} (hp : p < 8) (hf : bkFunc d.blk p = 1)
    (hact : d.spAct p = true) (hn : n ∈ bkPCars d.blk p) (hr : bitN (d.sp n).rscChain p = 0) :
    bitN (d.pairInputs.sp n).causes (if d.spFlt p then 0x12 else 1) = 1 := by
  obtain ⟨hn4, hcar⟩ := bkPCars_lt hn
  have hclear : ∀ x ∈ StoppedIn.evalReads, clearOf stopWs x.1 x.2 = true := by decide
  have hchain (e : Dev) (he : Stopped d e) : bitN ((e.chainStep p n).sp n).causes (if d.spFlt p then 0x12 else 1) = 1 := by
    have hrsc : bitN (e.sp n).rscChain p = 0 := by
      rcases (he.sp n).rsc with h | h
      · rw [h, hr]
      · rw [h, bitN, Nat.zero_div]
    have hcause : e.inCause p 1 = if d.spFlt p then 0x12 else 1 := by rw [inCause, he.spFlt hclear]
    have hmod : Stopped d (e.modSp n (fun c => { c with chain := setBitN c.chain p true })) := he.trans
      (Stopped.modSp (g := fun c => { c with chain := setBitN c.chain p true }) e n (fun _ => ⟨fun _ h => h, id, .inl rfl, rfl⟩) fun _ => rfl)
    rw [chainStep, hrsc, hcause]
    exact spStop_latches _ _ _ _ hn4 (by rw [hmod.cars.spLen, hlen]; exact hn4) ((hmod.safRun hclear).trans hrun) ((hmod.cars.safCar n).trans hcar)
  have hinput (e : Dev) (he : Stopped d e) : bitN ((e.inputStep p).sp n).causes (if d.spFlt p then 0x12 else 1) = 1 := by
    rw [inputStep, he.spAct hclear, hact, he.cars.blk, if_neg (by decide), if_pos hf]
    exact foldl_reach (P := fun x : Dev => bitN (x.sp n).causes (if d.spFlt p then 0x12 else 1) = 1) (Q := fun x => Stopped d x) (x := n) _ e
      (fun x m hm hx => hx.trans (Stopped.chainStep p x (bkPCars_lt hm).1)) (fun x m hm hx => ((Stopped.chainStep p x (bkPCars_lt hm).1).sp n).causes _ hx) hn hchain he
  rw [pairInputs_eq]
  exact foldl_reach (P := fun x : Dev => bitN (x.sp n).causes (if d.spFlt p then 0x12 else 1) = 1) (Q := fun x => Stopped d x) (x := p) _ d
    (fun x q _ hx => hx.trans (Stopped.inputStep x q)) (fun x q _ hx => ((Stopped.inputStep x q).sp n).causes _ hx) (List.mem_range.mpr hp) hinput (Stopped.refl d)

/-- A car that loses the excuse of its doors, or has them open without one. -/
def doorStop (open_ : List Nat) (d : Dev) (n : Nat) : Dev :=
  let c := d.sp n
  let closed := d.carClosed n
  let lost := c.excused.filter (fun l => !c.bridged.contains l)
  let ucm := lost.any open_.contains || (c.bridged.isEmpty && !c.excused.isEmpty && !closed)
  if ucm then d.spStop n 4 0 else if !closed && c.bridged.isEmpty then d.spStop n (d.doorCause n) 0 else d

/-- A moving car whose reservation meets an open lock. -/
def lockStop (un : List Nat) (d : Dev) (n : Nat) : Dev :=
  let at_ := un.filter (d.meets n)
  if d.pairMoves n && !at_.isEmpty then d.spStop n (d.lockCause at_) 0 else d

/-- One car at the door interlock. -/
def doorStep (open_ raw un : List Nat) (d : Dev) (n : Nat) : Dev :=
  ((d.doorStop open_ n).modSp n (fun x => { x with excused := if d.carClosed n then (d.sp n).bridged.filter raw.contains else (d.sp n).bridged })).lockStop un n

theorem pairDoors_eq (d : Dev) : ∃ o r u, d.pairDoors = d.safCars.foldl (doorStep o r u) d := ⟨_, _, _, rfl⟩

theorem Stopped.doorStop (o : List Nat) (d : Dev) {n : Nat} (hn : n < 4) : Stopped d (d.doorStop o n) := by
  unfold Dev.doorStop
  dsimp only
  split_ifs
  · exact Stopped.spStop d _ _ _ hn
  · exact Stopped.spStop d _ _ _ hn
  · exact Stopped.refl d

theorem Stopped.lockStop (u : List Nat) (d : Dev) {n : Nat} (hn : n < 4) : Stopped d (d.lockStop u n) := by
  unfold Dev.lockStop
  dsimp only
  split
  · exact Stopped.spStop d _ _ _ hn
  · exact Stopped.refl d

theorem Stopped.doorStep (o r u : List Nat) (d : Dev) {n : Nat} (hn : n < 4) : Stopped d (d.doorStep o r u n) :=
  (Stopped.doorStop o d hn).trans ((Stopped.modSp (g := fun x => { x with excused := if d.carClosed n then (d.sp n).bridged.filter r.contains else (d.sp n).bridged }) _ n
    (fun _ => ⟨fun _ h => h, id, .inl rfl, rfl⟩) fun _ => rfl).trans (Stopped.lockStop u _ hn))

theorem Stopped.pairDoors (d : Dev) : Stopped d d.pairDoors := by
  obtain ⟨o, r, u, he⟩ := pairDoors_eq d
  rw [he]
  exact StoppedIn.foldl _ d fun e n hn => Stopped.doorStep o r u e (safCars_lt hn).1

end Dev

end Sys2Proof.Machine
end

section
/-! PROOFS. Samples, safe frames and stations of the safety core pair (O36). -/
namespace Sys2Proof.Machine

open Sys2Proof

namespace Dev

/-! ### A sample -/

/-- What a sample's own checks leave of the pair's levels and cars. -/
def sampleView (x : Saf) : Nat × Nat × List SafCar × List ThCar := (x.spLvl, x.spAct, x.sp, x.th)

/-- A part that differs from another in the checks of a sample. -/
structure Sampled (d e : Dev) : Prop where
  only : FaultsOnly faultPages d e
  view : sampleView e.saf = sampleView d.saf

namespace Sampled

variable {d e x : Dev}

theorem refl (d : Dev) : Sampled d d := ⟨FaultsOnly.refl _ d, rfl⟩

theorem trans (h : Sampled d e) (g : Sampled e x) : Sampled d x := ⟨h.only.trans g.only, g.view.trans h.view⟩

theorem foldl {α : Type} {f : Dev → α → Dev} : ∀ (l : List α) (d : Dev), (∀ d, ∀ y ∈ l, Sampled d (f d y)) → Sampled d (l.foldl f d)
  | [], d, _ => refl d
  | y :: l, d, hf => (hf d y List.mem_cons_self).trans (foldl l _ fun d z hz => hf d z (List.mem_cons_of_mem _ hz))

theorem modSaf (d : Dev) {g : Saf → Saf} (hg : (g d.saf).active = d.saf.active) (hv : sampleView (g d.saf) = sampleView d.saf) : Sampled d (d.modSaf g) :=
  ⟨FaultsOnly.modSaf g hg, hv⟩

theorem faultSp (d : Dev) {p : Nat} (hp : p < 8) (code : Nat) : Sampled d (d.faultSp p code) := by
  refine ⟨faultSp_only d code hp (by simp [faultPages]) (by simp [faultPages]) (by simp [faultPages]), ?_⟩
  have hlatch (e : Dev) (q : Nat) (f : Fld) : (e.latchFault q f p code).saf = e.saf := by
    unfold latchFault
    split
    · rfl
    · rw [safNote, saf_note]
      rfl
  have hdiag (e : Dev) : (e.diagBump p code).saf = e.saf := by
    unfold diagBump
    split_ifs <;> rfl
  rw [faultSp_eq]
  split
  · rw [hlatch]
    split
    · rfl
    · rw [hdiag]
      rfl
  · rfl

theorem saf (h : Sampled d e) : e.saf.spLvl = d.saf.spLvl ∧ e.saf.spAct = d.saf.spAct ∧ e.saf.sp = d.saf.sp :=
  ⟨(congrArg Prod.fst h.view :), (congrArg (fun v => v.2.1) h.view :), (congrArg (fun v => v.2.2.1) h.view :)⟩

end Sampled

/-- The channels of pairs in use that other lines feed. -/
def otherChannels (d : Dev) (k : Nat) : List Nat :=
  (List.range 16).filter (fun c => d.pairUsed (c / 2) && decide (bkFeed d.blk c < 4) && bkFeed d.blk c != k)

theorem Sampled.sampleLine (d : Dev) (t k : Nat) : Sampled d (d.sampleLine t k) := by
  have hfed : ∀ c ∈ d.fedBy k, c / 2 < 8 := fun c hc => by
    have := (fedBy_mem hc).1
    omega
  have hoth : ∀ c ∈ d.otherChannels k, c / 2 < 8 := fun c hc => by
    have := List.mem_range.mp (List.mem_filter.mp hc).1
    omega
  have hfaults (l : List Nat) (hl : ∀ c ∈ l, c / 2 < 8) (b : Dev → Nat → Bool) (code : Nat) (e : Dev) :
      Sampled e (l.foldl (fun d c => if b d c then d.faultSp (c / 2) code else d) e) := by
    refine Sampled.foldl l e fun x c hc => ?_
    split
    · exact Sampled.faultSp x (hl c hc) code
    · exact Sampled.refl x
  unfold Dev.sampleLine
  dsimp only
  split_ifs
  · exact Sampled.refl d
  · exact Sampled.modSaf d rfl rfl
  · exact (hfaults _ hfed (fun d c => bitN d.saf.ownHigh c == 1) _ d).trans
      (hfaults _ hoth (fun e c => bitN (e.saf.lowIn.getD k 0) c == 1 && bitN (d.get (shp .ths) THS.IN_CH) c == 1) _ _)
  · exact hfaults _ hoth (fun e c => bitN (e.saf.lowIn.getD k 0) c == 1 && bitN (d.get (shp .ths) THS.IN_CH) c == 1) _ d
  · exact (hfaults _ hfed (fun d c => bitN d.saf.ownHigh c == 1) _ d).trans (Sampled.modSaf _ rfl rfl)
  · exact Sampled.modSaf d rfl rfl

/-- A channel that keeps its level, as its line is in its window. -/
def held (b : Block) (t c : Nat) : Bool :=
  let k := bkFeed b c
  let w := tpWin b k
  decide (k < 4 ∧ bkTpW b k ≠ 0 ∧ w.1 ≤ t ∧ t < w.2.2)

/-- The levels that a sample takes. -/
def levelsTaken (d : Dev) (t : Nat) : Nat :=
  (List.range 16).foldl (fun m c => if held d.blk t c then m else setBitN m c (bitN (d.get (shp .ths) THS.IN_CH) c == 1)) d.saf.spLvl

/-- A period of the test pulses begins. -/
def periodBegun (d : Dev) (t : Nat) : Dev :=
  if t = 0 then
    let bad := ((List.range 8).map (fun p => (d.pairDiff (d.get (shp .ths) THS.IN_CH) p).toNat * 2 ^ p)).sum
    d.modSaf (fun s => { s with clean := 255 - s.badNow % 256, badNow := bad })
  else d

/-- The levels and the demand of a sample. -/
def levelsIn (d : Dev) (t : Nat) : Dev :=
  ((d.periodBegun t).modSaf (fun s => { s with spLvl := d.levelsTaken t })).modSaf (fun s => { s with spAct := d.demMask (d.levelsTaken t) })

theorem pairSample_eq {d : Dev} (hrun : d.safRun = true) (t : Nat) :
    d.pairSample t = ((((List.range 4).foldl (fun d k => d.sampleLine t k) (d.levelsIn t)).showDem).pairInputs).pairDoors := by
  rw [pairSample, hrun, levelsIn, periodBegun]
  by_cases ht : t = 0
  · simp only [if_pos ht]
    rfl
  · simp only [if_neg ht]
    rfl

theorem levelsTaken_bit (d : Dev) (t : Nat) {c : Nat} (hc : c < 16) (hfeed : bkFeed d.blk c ≥ 4) :
    bitN (d.levelsTaken t) c = bitN (d.get (shp .ths) THS.IN_CH) c := by
  have hheld : held d.blk t c = false := decide_eq_false fun h => absurd h.1 (by omega)
  refine foldl_range_at (g := fun m => bitN m c) _ hc (fun m => ?_) fun m i hi hne => ?_
  · rw [hheld, if_neg (by decide), bitN_setBitN_same]
    rcases bitN_zero_or_one (d.get (shp .ths) THS.IN_CH) c with h | h <;> rw [h] <;> rfl
  · split
    · rfl
    · exact bitN_setBitN_ne _ _ hne.symm

theorem levelsIn_shows (d : Dev) (t : Nat) : (d.levelsIn t).saf.spLvl = d.levelsTaken t ∧ (d.levelsIn t).saf.spAct = d.demMask (d.levelsTaken t) ∧
    (d.levelsIn t).saf.sp = d.saf.sp ∧ (d.levelsIn t).blk = d.blk ∧ (d.levelsIn t).safRun = d.safRun := by
  have hp : (d.periodBegun t).saf.sp = d.saf.sp ∧ (d.periodBegun t).saf.active = d.saf.active ∧ (d.periodBegun t).regs = d.regs := by
    unfold periodBegun
    split <;> exact ⟨rfl, rfl, rfl⟩
  obtain ⟨p1, p2, p3⟩ := hp
  have hrun : (d.levelsIn t).safRun = (d.periodBegun t).safRun := by rw [levelsIn, safRun, get_modSaf, get_modSaf, safRun]
  refine ⟨rfl, rfl, p1, ?_, ?_⟩
  · rw [blk, blk, ← p2]
    rfl
  · rw [hrun, safRun, safRun, get_congr p3]

/-- What a sample shows of the pair. -/
theorem pairSample_shows {d : Dev} (hrun : d.safRun = true) (hlen : d.saf.sp.length = 4) (t : Nat) : let e := d.pairSample t
    e.saf.spAct = d.demMask e.saf.spLvl ∧ (∀ c < 16, bkFeed d.blk c ≥ 4 → bitN e.saf.spLvl c = bitN (d.get (shp .ths) THS.IN_CH) c) ∧
    (∀ p < 8, ∀ n, bkFunc d.blk p = 1 → bitN e.saf.spAct p = 1 → n ∈ bkPCars d.blk p → bitN (d.sp n).rscChain p = 0 →
      bitN (e.sp n).causes (if e.spFlt p then 0x12 else 1) = 1) := by
  intro e
  obtain ⟨m, hm⟩ : ∃ m, m = (List.range 4).foldl (fun d k => d.sampleLine t k) (d.levelsIn t) := ⟨_, rfl⟩
  obtain ⟨x, hx⟩ : ∃ x, x = m.showDem := ⟨_, rfl⟩
  have he : e = x.pairInputs.pairDoors := by rw [hx, hm]; exact pairSample_eq hrun t
  obtain ⟨l1, l2, l3, l4, l5⟩ := levelsIn_shows d t
  have hs : Sampled (d.levelsIn t) m := by
    rw [hm]
    exact Sampled.foldl _ _ fun e k _ => Sampled.sampleLine e t k
  obtain ⟨s1, s2, s3⟩ := hs.saf
  obtain ⟨-, x2, x3⟩ := showDem_leaves m
  rw [← hx] at x2 x3
  have hstop : Stopped x e := by
    rw [he]
    exact (Stopped.pairInputs x).trans (Stopped.pairDoors _)
  have hblk : x.blk = d.blk := by rw [blk, x2, ← blk, hs.only.blk, l4]
  have hlvl : e.saf.spLvl = d.levelsTaken t := by rw [hstop.cars.saf, x2, s1, l1]
  have hact : e.saf.spAct = d.demMask (d.levelsTaken t) := by rw [hstop.cars.saf, x2, s2, l2]
  refine ⟨by rw [hact, hlvl], fun c hc hfeed => by rw [hlvl, levelsTaken_bit d t hc hfeed], fun p hp n hf hap hn hr => ?_⟩
  have hclear : ∀ x ∈ StoppedIn.evalReads, clearOf stopWs x.1 x.2 = true := by decide
  have hrunx : x.safRun = true := by
    rw [safRun, x3 _ _ (by decide) (by decide) (by decide), ← safRun, hs.only.safRun, l5, hrun]
  have hactx : x.spAct p = true := by
    rw [spAct, x2, s2, l2, ← hact, hap]
    rfl
  have hspx : x.sp n = d.sp n := by rw [sp, x2, s3, l3, ← sp]
  have hcause := pairInputs_chain hrunx (by rw [x2, s3, l3, hlen]) hp (by rw [hblk]; exact hf) hactx (by rw [hblk]; exact hn) (by rw [hspx]; exact hr)
  rw [hstop.spFlt hclear, he]
  exact ((Stopped.pairDoors x.pairInputs).sp n).causes _ hcause

/-! ### Stations -/

theorem saf_safNote (d : Dev) (p code det : Nat) (words : List Nat) : (d.safNote p code det words).saf = d.saf := saf_note ..

theorem stn_setStn (d : Dev) (k : Nat) (s : Stn) : (d.setStn k s).stn k = s := by
  have hnone : (d.saf.stations.filter (fun e => decide (e.1 < k))).find? (fun e => e.1 == k) = none := by
    refine List.find?_eq_none.mpr fun e he => ?_
    have := of_decide_eq_true (List.mem_filter.mp he).2
    simp
    omega
  show ((List.find? (fun e => e.1 == k) (d.saf.stations.filter (fun e => decide (e.1 < k)) ++ (k, s) :: d.saf.stations.filter (fun e => decide (k < e.1)))).map Prod.snd).getD _ = s
  rw [List.find?_append, hnone]
  simp

theorem stn_congr {d e : Dev} (h : e.saf.stations = d.saf.stations) (k : Nat) : e.stn k = d.stn k := by rw [stn, stn, h]

/-- The doors, as they are shown and as the pair judges them, leave the stations. -/
theorem stn_doors (d : Dev) (k : Nat) : d.showDoors.pairDoors.stn k = d.stn k := stn_congr (by rw [(Stopped.pairDoors _).cars.saf]; rfl) k

/-- A safe frame is the state of its station, or a rejection of it. -/
theorem safeFrame_stn {d : Dev} (hrun : d.safRun = true) {bus ident : Nat} (fd : Bool) (dlc : Nat) (bs : List Nat) {k : Nat} (hk : tapStn d.blk bus ident = some k) :
    let dq := (leAt bs 2 2 + 65536 - (d.stn k).seq) % 65536
    (d.safeFrame bus ident fd dlc bs).stn k = (if safeFrameOk k ident fd dlc bs = true ∧ ((d.stn k).silent = true ∨ (1 ≤ dq ∧ dq ≤ 32767)) then
      ⟨leAt bs 2 2, false, leAt bs 4 2, false⟩ else { d.stn k with rejected := true }) := by
  intro dq
  have he : d.safeFrame bus ident fd dlc bs = if safeFrameOk k ident fd dlc bs && ((d.stn k).silent || decide (1 ≤ dq ∧ dq ≤ 32767)) then
      ((d.setStn k ⟨leAt bs 2 2, false, leAt bs 4 2, false⟩).showDoors).pairDoors
    else if (d.stn k).rejected then d.setStn k { d.stn k with rejected := true }
    else (d.setStn k { d.stn k with rejected := true }).safNote (shp .sfc) 0 k := by
    rw [safeFrame, hrun, hk]
    rfl
  have hcond : (safeFrameOk k ident fd dlc bs && ((d.stn k).silent || decide (1 ≤ dq ∧ dq ≤ 32767))) = true ↔
      safeFrameOk k ident fd dlc bs = true ∧ ((d.stn k).silent = true ∨ (1 ≤ dq ∧ dq ≤ 32767)) := by
    simp only [Bool.and_eq_true, Bool.or_eq_true, decide_eq_true_eq]
  rw [he]
  by_cases h : safeFrameOk k ident fd dlc bs = true ∧ ((d.stn k).silent = true ∨ (1 ≤ dq ∧ dq ≤ 32767))
  · rw [if_pos (hcond.mpr h), if_pos h, stn_doors, stn_setStn]
  · rw [if_neg fun hc => h (hcond.mp hc), if_neg h]
    split
    · exact stn_setStn ..
    · rw [stn_congr (congrArg Saf.stations (saf_safNote ..)), stn_setStn]

theorem coverOf_lt (d : Dev) (l : Nat) : d.coverOf l < 8 := by
  unfold coverOf
  cases h : (List.range 8).find? (fun p => bkFunc d.blk p == 2 && inLand d.blk p [l]) with
  | none => decide
  | some p => exact List.mem_range.mp (List.mem_of_find?_eq_some h)

theorem stnDetail_lt (d : Dev) {k : Nat} (hk : k < 260) : d.stnDetail k < 8 := by
  unfold stnDetail
  split
  · omega
  · split
    · exact coverOf_lt ..
    · decide

theorem stationSilent_shows {d : Dev} (hrun : d.safRun = true) {k : Nat} (hk : k < 260) (hs : (d.stn k).silent = false) : let e := d.stationSilent k
    (e.stn k).silent = true ∧ e.get (shp .sfc) HDR.ERR_CODE = cSTATION_SILENT ∧ e.get (shp .sfc) HDR.ERR_DETAIL = d.stnDetail k := by
  intro e
  obtain ⟨m, hm⟩ : ∃ m, m = ((d.setStn k { d.stn k with silent := true }).err (shp .sfc) cSTATION_SILENT ((d.setStn k { d.stn k with silent := true }).stnDetail k)).safNote
    (shp .sfc) cSTATION_SILENT k := ⟨_, rfl⟩
  have he : e = m.showDoors.pairDoors := by
    show d.stationSilent k = _
    rw [stationSilent, hrun, hs, hm]
    rfl
  have hdet : (d.setStn k { d.stn k with silent := true }).stnDetail k = d.stnDetail k := rfl
  have hget {f : Fld} (hc : clearOf stopWs (shp .sfc) f = true) (hf : f.fits = true) (hi : 0 < f.cnt) : e.get (shp .sfc) f = m.get (shp .sfc) f := by
    rw [he, (Stopped.pairDoors _).within.get _ _ _ _ (by decide) hc hf hi (by decide)]
    rfl
  refine ⟨?_, ?_, ?_⟩
  · rw [he, stn_doors, hm, stn_congr (congrArg Saf.stations (saf_safNote ..)), stn_congr (congrArg Saf.stations (saf_err ..)), stn_setStn]
  · rw [hget (by decide) (by decide) (by decide), hm, safNote, get_note_other _ _ _ _ _ (by decide) (by decide) (by decide) (by decide)]
    simp (disch := decide) only [err, get_put_apart, get_put_same]
    decide
  · have hlt := stnDetail_lt d hk
    rw [hget (by decide) (by decide) (by decide), hm, hdet, safNote, get_note_other _ _ _ _ _ (by decide) (by decide) (by decide) (by decide), err,
      get_put_same _ _ _ _ _ _ (by decide)]
    exact Nat.mod_eq_of_lt (Nat.lt_of_lt_of_le hlt (by decide))

/-- Frames and pairs that disagree about a landing. -/
theorem lockDisagree_shows {d : Dev} {l : Nat} (h : d.safRun = true ∧ d.lockDiffers l = true ∧ d.saf.lockDis.contains l = false) : let e := d.lockDisagree l
    e.saf.lockDis = d.saf.lockDis ++ [l] ∧ e.get (shp .sfc) HDR.ERR_CODE = cLOCK_DISAGREE ∧ e.get (shp .sfc) HDR.ERR_DETAIL = d.coverOf l ∧
      d.keeps e [shp .sfc, shp .slt] := by
  intro e
  obtain ⟨h1, h2, h3⟩ := h
  have he : e = ((d.modSaf (fun s => { s with lockDis := s.lockDis ++ [l] })).err (shp .sfc) cLOCK_DISAGREE (d.coverOf l)).safNote (shp .sfc) cLOCK_DISAGREE l :=
    if_pos (by rw [h1, h2, h3]; rfl)
  rw [he]
  refine ⟨by rw [safNote, saf_note]; rfl, ?_, ?_, ?_⟩
  · rw [safNote, get_note_other _ _ _ _ _ (by decide) (by decide) (by decide) (by decide)]
    simp (disch := decide) only [err, get_put_apart, get_put_same]
    decide
  · rw [safNote, get_note_other _ _ _ _ _ (by decide) (by decide) (by decide) (by decide), err, get_put_same _ _ _ _ _ _ (by decide)]
    exact Nat.mod_eq_of_lt (Nat.lt_of_lt_of_le (coverOf_lt d l) (by decide))
  · rw [safNote, keeps_note_iff (by simp), keeps_err_iff (by simp), keeps_modSaf_iff]
    exact keeps_refl d _

theorem lockDisagree_not {d : Dev} {l : Nat} (h : ¬ (d.safRun = true ∧ d.lockDiffers l = true ∧ d.saf.lockDis.contains l = false)) : d.lockDisagree l = d := by
  refine if_neg fun hc => h ?_
  simpa [Bool.and_eq_true, and_assoc] using hc

end Dev

end Sys2Proof.Machine
end

section
/-! PROOFS. The headway check of the safety core pair: stops of category 1 and the permits that they withdraw (O36). -/
namespace Sys2Proof.Machine

open Sys2Proof

namespace Dev

/-! ### Stops of category 1 -/

/-- A part that differs from another in stops of category 1: no trip and no stop of category 0 has been added. -/
structure OneOnly (d e : Dev) : Prop where
  stop : Stopped d e
  trips : ∀ m, (e.th m).causes = (d.th m).causes
  zero : e.get (shp .sfc) SFC.STOPS_CAT0 = d.get (shp .sfc) SFC.STOPS_CAT0
  one : ∀ m < 4, bitN (d.get (shp .sfc) SFC.STOPS_CAT1) m = 1 → bitN (e.get (shp .sfc) SFC.STOPS_CAT1) m = 1
  shows : ∀ m < 4, ∀ c, bitN (d.sp m).causes c = 0 → bitN (e.sp m).causes c = 1 → d.stopStands m = false → bitN (e.get (shp .sfc) SFC.STOPS_CAT1) m = 1

namespace OneOnly

variable {d e x : Dev}

theorem refl (d : Dev) : OneOnly d d := ⟨Stopped.refl d, fun _ => rfl, rfl, fun _ _ h => h, fun m _ c h0 h1 => absurd (h0.symm.trans h1) (by decide)⟩

theorem stands (h : OneOnly d e) (m : Nat) : e.stopStands m = d.stopStands m := by rw [stopStands, stopStands, h.zero, h.trips]

theorem trans (h : OneOnly d e) (g : OneOnly e x) : OneOnly d x where
  stop := h.stop.trans g.stop
  trips m := (g.trips m).trans (h.trips m)
  zero := g.zero.trans h.zero
  one m hm hb := g.one m hm (h.one m hm hb)
  shows m hm c h0 h1 hs := by
    rcases bitN_zero_or_one (e.sp m).causes c with he | he
    · exact g.shows m hm c he h1 ((h.stands m).trans hs)
    · exact g.one m hm (h.shows m hm c h0 he hs)

theorem foldl {α : Type} {f : Dev → α → Dev} : ∀ (l : List α) (d : Dev), (∀ d, ∀ y ∈ l, OneOnly d (f d y)) → OneOnly d (l.foldl f d)
  | [], d, _ => refl d
  | y :: l, d, hf => (hf d y List.mem_cons_self).trans (foldl l _ fun d z hz => hf d z (List.mem_cons_of_mem _ hz))

theorem modSp (d : Dev) (n : Nat) {g : SafCar → SafCar} (hk : ∀ c, SpKept c (g c)) (he : ∀ c, (g c).causes = c.causes) : OneOnly d (d.modSp n g) := by
  refine ⟨Stopped.modSp d n hk he, fun m => rfl, rfl, fun m _ h => h, fun m _ c h0 h1 => ?_⟩
  rw [sp_modSp] at h1
  split at h1
  case isTrue h => rw [he, ← h.1, h0] at h1; exact absurd h1 (by decide)
  case isFalse => rw [h0] at h1; exact absurd h1 (by decide)

end OneOnly

section
variable (d : Dev) {n : Nat} (hn : n < 4)
include hn

/-- The latch of a cause leaves trips and categories. -/
theorem stopLatched_leaves (cause : Nat) (words : List Nat) : (∀ m, ((d.stopLatched n cause words).th m).causes = (d.th m).causes) ∧
    (d.stopLatched n cause words).get (shp .sfc) SFC.STOPS_CAT0 = d.get (shp .sfc) SFC.STOPS_CAT0 ∧
    (d.stopLatched n cause words).get (shp .sfc) SFC.STOPS_CAT1 = d.get (shp .sfc) SFC.STOPS_CAT1 := by
  have h1 : n < SIO.CAR_RUN_CAUSE.cnt := hn
  have hth (m : Nat) : (d.causeLatched n cause words).th m = d.th m := by rw [th, causeLatched, safNote, saf_note, saf_put, ← th]; rfl
  have hget (f : Fld) (ha : SFC.PERMIT_RESCUE.apart f = true) (hf : f.fits = true) (hc : 0 < f.cnt) :
      (d.stopLatched n cause words).get (shp .sfc) f = d.get (shp .sfc) f := by
    rw [stopLatched_eq, endRescue, get_modTh, get_modSp, putBit, get_put_apart _ _ ha (by decide) hf (by decide) hc (by decide) (by decide), causeLatched, safNote,
      get_note_other _ _ _ _ _ (by decide) hf hc (by decide), get_put_other _ _ (by decide) (by decide) hf h1 hc (by decide) (by decide), get_modSp]
  refine ⟨fun m => ?_, hget _ (by decide) (by decide) (by decide), hget _ (by decide) (by decide) (by decide)⟩
  rw [stopLatched_eq, endRescue, th_modTh]
  split
  case isTrue h => rw [h.1, ← hth n]; rfl
  case isFalse => rw [← hth m]; rfl

/-- The envelope of a stop leaves causes, trips and categories. -/
theorem s1Begun_leaves : (∀ m, ((d.s1Begun n).sp m).causes = (d.sp m).causes) ∧ (∀ m, (d.s1Begun n).th m = d.th m) ∧
    (d.s1Begun n).get (shp .sfc) SFC.STOPS_CAT0 = d.get (shp .sfc) SFC.STOPS_CAT0 ∧ (d.s1Begun n).get (shp .sfc) SFC.STOPS_CAT1 = d.get (shp .sfc) SFC.STOPS_CAT1 := by
  have h1 : n < SIO.CAR_RUN_S1.cnt := hn
  obtain ⟨r, hr⟩ : ∃ r, d.s1Begun n = ((d.modSp n (fun c => { c with s1 := some r })).put (shp .sio) SIO.CAR_RUN_S1 1 n).stopLine n 1 := ⟨_, rfl⟩
  have hget (f : Fld) (hf : f.fits = true) (hc : 0 < f.cnt) : (d.s1Begun n).get (shp .sfc) f = d.get (shp .sfc) f := by
    rw [hr, get_congr (regs_stopLine ..), get_put_other _ _ (by decide) (by decide) hf h1 hc (by decide) (by decide), get_modSp]
  refine ⟨fun m => ?_, fun m => ?_, hget _ (by decide) (by decide), hget _ (by decide) (by decide)⟩
  · rw [hr, sp, saf_stopLine, saf_put, ← sp, sp_modSp]
    split
    case isTrue h => rw [h.1]
    case isFalse => rfl
  · rw [hr, th, saf_stopLine, saf_put, ← th]
    rfl

/-- A stop of category 1 shows its category where no stop of category 0 and no trip stands. -/
theorem stopOne_leaves : (∀ m, ((d.stopOne n).sp m).causes = (d.sp m).causes) ∧ (∀ m, (d.stopOne n).th m = d.th m) ∧
    (d.stopOne n).get (shp .sfc) SFC.STOPS_CAT0 = d.get (shp .sfc) SFC.STOPS_CAT0 ∧
    (∀ m < 4, bitN (d.get (shp .sfc) SFC.STOPS_CAT1) m = 1 → bitN ((d.stopOne n).get (shp .sfc) SFC.STOPS_CAT1) m = 1) ∧
    (d.stopStands n = false → bitN ((d.stopOne n).get (shp .sfc) SFC.STOPS_CAT1) n = 1) := by
  obtain ⟨e, he⟩ : ∃ e, e = if d.stopStands n then d else d.putBit (shp .sfc) SFC.STOPS_CAT1 n true := ⟨_, rfl⟩
  have hone : d.stopOne n = if d.stopStands n || (e.sp n).s1.isSome then e else e.s1Begun n := by
    rw [he]
    rfl
  have hsaf : e.saf = d.saf := by
    rw [he]
    split <;> rfl
  have hzero : e.get (shp .sfc) SFC.STOPS_CAT0 = d.get (shp .sfc) SFC.STOPS_CAT0 := by
    rw [he]
    split
    · rfl
    · exact get_put_apart _ _ (by decide) (by decide) (by decide) (by decide) (by decide) (by decide) (by decide)
  have hkept : ∀ m < 4, bitN (d.get (shp .sfc) SFC.STOPS_CAT1) m = 1 → bitN (e.get (shp .sfc) SFC.STOPS_CAT1) m = 1 := fun m hm hb => by
    rw [he]
    split
    · exact hb
    · by_cases hmn : m = n
      · rw [hmn]
        exact bit_putBit_same _ _ _ _ _ _ (by decide) hn
      · rw [bit_putBit_other _ _ _ _ _ _ (by decide) hm hmn, hb]
  have hnew : d.stopStands n = false → bitN (e.get (shp .sfc) SFC.STOPS_CAT1) n = 1 := fun hs => by
    rw [he, hs]
    exact bit_putBit_same d (shp .sfc) SFC.STOPS_CAT1 true 0 0 (by decide) hn
  obtain ⟨b1, b2, b3, b4⟩ := s1Begun_leaves e hn
  rw [hone]
  split
  · exact ⟨fun m => by rw [sp, hsaf, ← sp], fun m => by rw [th, hsaf, ← th], hzero, hkept, hnew⟩
  · exact ⟨fun m => by rw [b1, sp, hsaf, ← sp], fun m => by rw [b2, th, hsaf, ← th], b3.trans hzero, fun m hm hb => by rw [b4]; exact hkept m hm hb,
      fun hs => by rw [b4]; exact hnew hs⟩

theorem OneOnly.spStop (cause : Nat) (words : List Nat) : OneOnly d (d.spStop n cause 1 words) := by
  have hstop := Stopped.spStop d cause 1 words hn
  rw [spStop_eq] at hstop ⊢
  split at hstop
  case isFalse h => rw [if_neg h]; exact OneOnly.refl d
  case isTrue h =>
    rw [if_pos h, if_neg (by decide)]
    rw [if_neg (by decide)] at hstop
    obtain ⟨l1, l2, l3⟩ := stopLatched_leaves d hn cause words
    obtain ⟨o1, o2, o3, o4, o5⟩ := stopOne_leaves (d.stopLatched n cause words) hn
    have hstands : (d.stopLatched n cause words).stopStands n = d.stopStands n := by rw [stopStands, stopStands, l1, l2]
    refine ⟨hstop, fun m => by rw [o2, l1], o3.trans l2, fun m hm hb => o4 m hm (by rw [l3]; exact hb), fun m hm c h0 h1 hs => ?_⟩
    by_cases hmn : m = n
    · rw [hmn]
      exact o5 (hstands.trans (hmn ▸ hs))
    · rw [o1, sp_stopLatched, if_neg fun h => hmn h.1, h0] at h1
      exact absurd h1 (by decide)

end

/-! ### The headway of two cars -/

theorem OneOnly.markHw (d : Dev) (n : Nat) : OneOnly d (d.markHw n) :=
  OneOnly.modSp (g := fun c => { c with hw := true, hwNow := true }) d n (fun _ => ⟨fun _ h => h, fun _ => rfl, .inl rfl, rfl⟩) fun _ => rfl

theorem markHw_hw {d : Dev} {n : Nat} (hl : n < d.saf.sp.length) : ((d.markHw n).sp n).hw = true := by
  rw [Dev.markHw, sp_modSp, if_pos ⟨rfl, hl⟩]

/-- The cars that close the gap of a pair. -/
def closing (d : Dev) (p : Nat) : List Nat := (if d.pV p > 0 then [p] else []) ++ (if d.pV (p + 1) < 0 then [p + 1] else [])

/-- Whether the gap of a pair is too small. -/
def gapBad (d : Dev) (p : Nat) : Bool :=
  if (d.closing p).isEmpty then decide (d.gapP p < (bkHP d.blk p : Int)) else decide (d.gapP p < d.headS1 p 1 + d.headS1 (p + 1) (-1) + bkHP d.blk p)

/-- The stops of the cars that close a gap too small. -/
def gapStop (d : Dev) (p : Nat) : Dev :=
  if d.gapBad p then (d.closing p).foldl (fun e n => e.spStop n 8 1 [p, encS 32 (d.gapP p)]) ((d.markHw p).markHw (p + 1)) else d

/-- A moving car of reservations that lie too close. -/
def resStep (p : Nat) (d : Dev) (n : Nat) : Dev :=
  let d := d.markHw n
  if d.pairMoves n then d.spStop n 8 1 [p] else d

/-- The stops of reservations that lie too close. -/
def resStop (h : Int) (d : Dev) (p : Nat) : Dev :=
  match d.pRes.getD p none, d.pRes.getD (p + 1) none with
  | some r, some r' => if r'.1 - r.2 < h then d.safCars.foldl (resStep p) d else d
  | _, _ => d

/-- A waived pair only shows that its condition fails. -/
def waivedShown (d : Dev) (p : Nat) : Dev :=
  if d.gapBad p then [p, p + 1].foldl (fun d n => if d.hwWaiver n then d.modSp n (fun c => { c with hwNow := true }) else d) d else d

theorem headPair_eq (d : Dev) (p : Nat) : d.headPair p =
    if !(d.native && bkSepOn d.blk p && d.safCar p && d.safCar (p + 1)) then d
    else if d.headWaived p then d.waivedShown p else (d.gapStop p).resStop (bkHP d.blk p) p := rfl

theorem closing_lt {d : Dev} {p n : Nat} (hp : p < 3) (h : n ∈ d.closing p) : n < 4 := by
  rw [closing, List.mem_append] at h
  rcases h with h | h <;> split at h <;> simp at h <;> omega

theorem OneOnly.gapStop (d : Dev) {p : Nat} (hp : p < 3) : OneOnly d (d.gapStop p) := by
  unfold Dev.gapStop
  split
  · exact (OneOnly.markHw d p).trans ((OneOnly.markHw _ _).trans (OneOnly.foldl _ _ fun e n hn => OneOnly.spStop e (closing_lt hp hn) _ _))
  · exact OneOnly.refl d

theorem OneOnly.resStop (h : Int) (d : Dev) (p : Nat) : OneOnly d (d.resStop h p) := by
  have hstep (e : Dev) {n : Nat} (hn : n < 4) : OneOnly e (e.resStep p n) := by
    unfold Dev.resStep
    dsimp only
    split
    · exact (OneOnly.markHw e n).trans (OneOnly.spStop _ hn _ _)
    · exact OneOnly.markHw e n
  unfold Dev.resStop
  split
  · split
    · exact OneOnly.foldl _ d fun e n hn => hstep e (safCars_lt hn).1
    · exact OneOnly.refl d
  · exact OneOnly.refl d

theorem OneOnly.waivedShown (d : Dev) (p : Nat) : OneOnly d (d.waivedShown p) := by
  unfold Dev.waivedShown
  split
  · refine OneOnly.foldl _ d fun e n _ => ?_
    split
    · exact OneOnly.modSp (g := fun c => { c with hwNow := true }) e n (fun _ => ⟨fun _ h => h, id, .inl rfl, rfl⟩) fun _ => rfl
    · exact OneOnly.refl e
  · exact OneOnly.refl d

theorem OneOnly.headPair (d : Dev) {p : Nat} (hp : p < 3) : OneOnly d (d.headPair p) := by
  rw [headPair_eq]
  split_ifs
  · exact OneOnly.refl d
  · exact OneOnly.waivedShown d p
  · exact (OneOnly.gapStop d hp).trans (OneOnly.resStop _ _ p)

theorem OneOnly.headRes (d : Dev) {n : Nat} (hn : n < 4) : OneOnly d (d.headRes n) := by
  have hmod (b : Bool) : OneOnly d (d.modSp n (fun c => { c with resOut := b })) :=
    OneOnly.modSp (g := fun c => { c with resOut := b }) d n (fun _ => ⟨fun _ h => h, id, .inl rfl, rfl⟩) fun _ => rfl
  unfold Dev.headRes
  dsimp only
  split
  · exact OneOnly.refl d
  · split
    · exact OneOnly.refl d
    · split
      · exact (hmod _).trans (OneOnly.spStop _ hn _ _)
      · exact hmod _

/-- A car that closes a gap too small is stopped, and both cars of the pair are marked. -/
theorem headPair_closes {d : Dev} {p : Nat} (hp : p < 3) (hlen : d.saf.sp.length = 4) (hrun : d.safRun = true) (hnat : d.native = true) (hsep : bkSepOn d.blk p = true)
    (h0 : d.safCar p = true) (h1 : d.safCar (p + 1) = true) (hw : d.headWaived p = false) (hv : d.pV p > 0)
    (hgap : d.gapP p < d.headS1 p 1 + d.headS1 (p + 1) (-1) + bkHP d.blk p) :
    bitN ((d.headPair p).sp p).causes 8 = 1 ∧ ((d.headPair p).sp p).hw = true ∧ ((d.headPair p).sp (p + 1)).hw = true := by
  have hclose : d.closing p = p :: (if d.pV (p + 1) < 0 then [p + 1] else []) := by rw [closing, if_pos hv]; rfl
  have hbad : d.gapBad p = true := by
    rw [gapBad, hclose]
    exact decide_eq_true hgap
  obtain ⟨m, hm⟩ : ∃ m, m = (d.markHw p).markHw (p + 1) := ⟨_, rfl⟩
  have hmark : OneOnly d m := hm ▸ (OneOnly.markHw d p).trans (OneOnly.markHw _ _)
  have hclear : ∀ x ∈ StoppedIn.evalReads, clearOf stopWs x.1 x.2 = true := by decide
  have hl1 : (d.markHw p).saf.sp.length = 4 := ((OneOnly.markHw d p).stop.cars.spLen).trans hlen
  have hhw0 : (m.sp p).hw = true := by
    rw [hm]
    exact ((OneOnly.markHw (d.markHw p) (p + 1)).stop.sp p).hw (markHw_hw (by omega))
  have hhw1 : (m.sp (p + 1)).hw = true := by
    rw [hm]
    exact markHw_hw (by omega)
  have hlatch : bitN ((m.spStop p 8 1 [p, encS 32 (d.gapP p)]).sp p).causes 8 = 1 :=
    spStop_latches m 8 1 _ (by omega) (by rw [hmark.stop.cars.spLen]; omega) ((hmark.stop.safRun hclear).trans hrun) ((hmark.stop.cars.safCar p).trans h0)
  have hgapStop : d.gapStop p = (if d.pV (p + 1) < 0 then [p + 1] else []).foldl (fun e n => e.spStop n 8 1 [p, encS 32 (d.gapP p)]) (m.spStop p 8 1 [p, encS 32 (d.gapP p)]) := by
    rw [gapStop, hbad, if_pos rfl, hclose, hm]
    rfl
  have hrest : OneOnly (m.spStop p 8 1 [p, encS 32 (d.gapP p)]) ((d.gapStop p).resStop (bkHP d.blk p) p) := by
    refine OneOnly.trans ?_ (OneOnly.resStop _ _ p)
    rw [hgapStop]
    refine OneOnly.foldl _ _ fun e n hn => OneOnly.spStop e ?_ _ _
    split at hn
    · rw [List.mem_singleton.mp hn]
      omega
    · exact absurd hn List.not_mem_nil
  have hfirst := OneOnly.spStop m (n := p) (by omega) 8 [p, encS 32 (d.gapP p)]
  have he : d.headPair p = (d.gapStop p).resStop (bkHP d.blk p) p := by
    rw [headPair_eq, hnat, hsep, h0, h1, hw]
    rfl
  rw [he]
  exact ⟨(hrest.stop.sp p).causes 8 hlatch, (hrest.stop.sp p).hw ((hfirst.stop.sp p).hw hhw0), (hrest.stop.sp (p + 1)).hw ((hfirst.stop.sp (p + 1)).hw hhw1)⟩

/-! ### The check of a servo period -/

theorem StoppedIn.headS1 {ws : List (Nat × Fld)} {d e : Dev} (h : StoppedIn ws d e) (hc : ∀ x ∈ StoppedIn.evalReads, clearOf ws x.1 x.2 = true)
    (hs : ∀ a, clearOf ws (pgMpg a 0) MPG.SERVO_CFG_MULT = true) (n : Nat) (s : Int) : e.headS1 n s = d.headS1 n s := by
  have hT (a : HalfId) : e.servoT a = d.servoT a := by
    rw [servoT, servoT, h.within.get _ _ _ _ (by cases a <;> decide) (hs a) (by decide) (by decide) (by decide)]
  rw [Dev.headS1, Dev.headS1, h.pV hc, h.cars.blk, pairAcc, pairAcc, h.pair hc, h.holder hc, hT]

/-- The marks of the last check go. -/
def headBegun (d : Dev) : Dev := (List.range 4).foldl (fun d n => d.modSp n (fun c => { c with hwNow := false, resOut := false })) d

theorem OneOnly.headBegun (d : Dev) : OneOnly d d.headBegun :=
  OneOnly.foldl _ d fun e n _ => OneOnly.modSp (g := fun c => { c with hwNow := false, resOut := false }) e n (fun _ => ⟨fun _ h => h, id, .inl rfl, rfl⟩) fun _ => rfl

theorem headway_eq {d : Dev} (hrun : d.safRun = true) :
    d.headway = ((List.range 4).foldl headRes ((List.range 3).foldl headPair d.headBegun)).permits := by
  rw [headway, hrun]
  rfl

theorem stopWs_evalReads : ∀ x ∈ StoppedIn.evalReads, clearOf stopWs x.1 x.2 = true := by decide

theorem bit_ne_zero {x b : Nat} (h : bitN x b = 1) : x ≠ 0 := by
  rintro rfl
  rw [bitN, Nat.zero_div] at h
  exact absurd h (by decide)

/-- A car that closes a gap too small is stopped and loses its permit. -/
theorem headway_closes {d : Dev} {p : Nat} (hp : p < 3) (hlen : d.saf.sp.length = 4) (hrun : d.safRun = true) (hnat : d.native = true) (hsep : bkSepOn d.blk p = true)
    (h0 : d.safCar p = true) (h1 : d.safCar (p + 1) = true) (hw : d.headWaived p = false) (hv : d.pV p > 0)
    (hgap : d.gapP p < d.headS1 p 1 + d.headS1 (p + 1) (-1) + bkHP d.blk p) : let e := d.headway
    bitN (e.sp p).causes 8 = 1 ∧ (e.sp p).hw = true ∧ (e.sp (p + 1)).hw = true ∧ (bitN (d.sp p).causes 8 = 0 →
      bitN (e.get (shp .sfc) SFC.PERMIT_MOTION) p = 0 ∧
      (bitN (d.get (shp .sfc) SFC.STOPS_CAT0) p = 0 → (d.th p).causes = 0 → bitN (e.get (shp .sfc) SFC.STOPS_CAT1) p = 1)) := by
  intro e
  obtain ⟨r, hr⟩ : ∃ r, r = (List.range 4).foldl headRes ((List.range 3).foldl headPair d.headBegun) := ⟨_, rfl⟩
  have he : e = r.permits := by rw [hr]; exact headway_eq hrun
  have hreach : OneOnly d ((List.range 3).foldl headPair d.headBegun) ∧ bitN (((List.range 3).foldl headPair d.headBegun).sp p).causes 8 = 1 ∧
      (((List.range 3).foldl headPair d.headBegun).sp p).hw = true ∧ (((List.range 3).foldl headPair d.headBegun).sp (p + 1)).hw = true := by
    refine foldl_reach (P := fun x : Dev => OneOnly d x ∧ bitN (x.sp p).causes 8 = 1 ∧ (x.sp p).hw = true ∧ (x.sp (p + 1)).hw = true) (Q := fun x => OneOnly d x) (x := p) _ _
      (fun x q hq hx => hx.trans (OneOnly.headPair x (List.mem_range.mp hq))) (fun x q hq hx => ?_) (List.mem_range.mpr hp) (fun x hx => ?_) (OneOnly.headBegun d)
    · have hstep := OneOnly.headPair x (List.mem_range.mp hq)
      obtain ⟨hx, x1, x2, x3⟩ := hx
      exact ⟨hx.trans hstep, (hstep.stop.sp p).causes 8 x1, (hstep.stop.sp p).hw x2, (hstep.stop.sp (p + 1)).hw x3⟩
    · have hS1 := fun n s => hx.stop.headS1 stopWs_evalReads (fun a => by cases a <;> decide) n s
      refine ⟨hx.trans (OneOnly.headPair x hp), headPair_closes hp (hx.stop.cars.spLen.trans hlen) ((hx.stop.safRun stopWs_evalReads).trans hrun)
        ((hx.stop.native stopWs_evalReads).trans hnat) (by rw [hx.stop.cars.blk]; exact hsep) ((hx.stop.cars.safCar p).trans h0) ((hx.stop.cars.safCar _).trans h1)
        ((hx.stop.headWaived p).trans hw) (by rw [hx.stop.pV stopWs_evalReads]; exact hv) ?_⟩
      rw [hx.stop.gapP stopWs_evalReads, hS1, hS1, hx.stop.cars.blk]
      exact hgap
  obtain ⟨hq, c1, c2, c3⟩ := hreach
  have hres : OneOnly ((List.range 3).foldl headPair d.headBegun) r := by
    rw [hr]
    exact OneOnly.foldl _ _ fun x n hn => OneOnly.headRes x (List.mem_range.mp hn)
  have hall : OneOnly d r := hq.trans hres
  have hc : bitN (r.sp p).causes 8 = 1 := (hres.stop.sp p).causes 8 c1
  have hperm := Permitted.permits r
  rw [he]
  refine ⟨by rw [hperm.causes]; exact hc, by rw [hperm.hw]; exact (hres.stop.sp p).hw c2, by rw [hperm.hw]; exact (hres.stop.sp (p + 1)).hw c3, fun hnew => ⟨?_, fun hz ht => ?_⟩⟩
  · exact permits_withheld r (by omega) (.inr ⟨bit_ne_zero hc, hall.stop.latched p (by omega) 8 hnew hc⟩)
  · rw [hperm.within.get _ _ _ _ (by decide) (by decide) (by decide) (by decide) (by decide)]
    refine hall.shows p (by omega) 8 hnew hc ?_
    rw [stopStands, hz, ht]
    rfl

/-! ### The functions of a servo period -/

/-- The registers of the evaluation of a servo period beside those of the stops. -/
def servoWs : List (Nat × Fld) :=
  stopWs ++ errWs (shp .sfc) ++ [(shp .sio, SIO.CAR_DEG_LEFT_MS), (shp .ths, THS.CARS_BRIDGED), (shp .ths, THS.CAR_ST_LAND), (shp .ths, THS.CARS_DOOR_PERMIT)]

theorem stop_mem_servoWs {w : Nat × Fld} (h : w ∈ stopWs) : w ∈ servoWs := List.mem_append_left _ (List.mem_append_left _ h)

theorem servoWs_evalReads : ∀ x ∈ StoppedIn.evalReads, clearOf servoWs x.1 x.2 = true := by decide

/-- A part that differs from another in the evaluation of a servo period. -/
abbrev Served (d e : Dev) : Prop := StoppedIn servoWs d e

theorem Stopped.served {d e : Dev} (h : Stopped d e) : Served d e := h.mono fun _ => stop_mem_servoWs

theorem Served.modSp (d : Dev) (n : Nat) {g : SafCar → SafCar} (hk : ∀ c, SpKept c (g c)) (he : ∀ c, (g c).causes = c.causes) : Served d (d.modSp n g) :=
  (Stopped.modSp d n hk he).served

theorem Served.put {p : Nat} {f : Fld} (hm : (p, f) ∈ servoWs) (h0 : p ≠ shp .sfc ∨ f.apart SFC.STOPS_CAT0 = true) (h1 : p ≠ shp .sfc ∨ f.apart SFC.PERMIT_RESCUE = true)
    (hf : f.fits = true) {i : Nat} (hi : i < f.cnt) (d : Dev) (v : Nat) : Served d (d.put p f v i) := by
  have hget {g : Fld} (h : p ≠ shp .sfc ∨ f.apart g = true) (hg : g.fits = true) (hgc : 0 < g.cnt) : (d.put p f v i).get (shp .sfc) g = d.get (shp .sfc) g := by
    rcases h with h | h
    · exact get_put_other _ _ h hf hg hi hgc (by decide) (by decide)
    · exact get_put_field _ _ h hf hg hi hgc (by decide) (by decide)
  refine StoppedIn.of_quiet ((Within.refl _ d).put hm hf hi v (by decide)) (CarsOnly.of_saf rfl) ⟨rfl, rfl, rfl⟩ (fun m => SpKept.refl _) (fun m => rfl) (fun m b h => h)
    (fun m _ h => ?_) fun m _ h => ?_
  · rwa [hget h0 (by decide) (by decide)]
  · rwa [hget h1 (by decide) (by decide)]

theorem Served.err (d : Dev) (code det : Nat) : Served d (d.err (shp .sfc) code det) :=
  (Served.put (by simp [servoWs, errWs]) (by decide) (by decide) (by decide) (i := 0) (by decide) d _).trans
    ((Served.put (by simp [servoWs, errWs]) (by decide) (by decide) (by decide) (i := 0) (by decide) _ _).trans
      (Served.put (by simp [servoWs, errWs]) (by decide) (by decide) (by decide) (i := 0) (by decide) _ _))

theorem Served.spStop (d : Dev) (cause cat : Nat) (words : List Nat) {n : Nat} (hn : n < 4) : Served d (d.spStop n cause cat words) :=
  (Stopped.spStop d cause cat words hn).served

end Dev

end Sys2Proof.Machine
end

section
/-! PROOFS. Leaving RUN: every output off, every permit withdrawn, and what stands as it was (O36, O40). -/
namespace Sys2Proof.Machine

open Sys2Proof

namespace Dev

/-- The registers of Theath that idle outside RUN. -/
def idleWs : List (Nat × Fld) :=
  [THS.MODE_BLOCK_OK, THS.MODE_NATIVE, THS.MODE_FOLLOWER, THS.IN_PAIR_ACT, THS.TP_LVL, THS.TP_OVL, THS.TP_BLANK, THS.CARS_T_GOOD, THS.PR_GAP_UM, THS.PR_THR_UM,
    THS.CAR_ST_LAND, THS.CAR_XT_UM, THS.CAR_VT_UMS, THS.CAR_ST_BIN, THS.CARS_BRIDGED, THS.CARS_DOOR_PERMIT].map fun f => (shp .ths, f)

/-- The registers that show the inputs and outputs of the block. -/
def sioWs : List (Nat × Fld) :=
  [SIO.TP_PER_MS, SIO.TP_SETTLE_US, SIO.TPW01_W0, SIO.TPW01_W1, SIO.TPW23_W2, SIO.TPW23_W3, SIO.PR_CFG_FUNC, SIO.PR_CFG_MODE, SIO.PR_CFG_TP_A, SIO.PR_CFG_TP_B, SIO.PR_CFG_CARS,
    SIO.PR_CFG_LAND_LO, SIO.PR_CFG_LAND_HI, SIO.SO_CFG_FUNC, SIO.SO_CFG_CAR].map fun f => (shp .sio, f)

/-- The registers that leaving RUN writes beside the code of the state. -/
def leaveWs : List (Nat × Fld) := idleWs ++ sioWs ++ stopWs ++ permitWs ++ [(shp .sio, SIO.CAR_RUN_DEG), (shp .sio, SIO.CAR_DEG_LEFT_MS)]

theorem idle_mem_leaveWs {w : Nat × Fld} (h : w ∈ idleWs) : w ∈ leaveWs := by simp only [leaveWs, List.mem_append, h, true_or]

theorem sio_mem_leaveWs {w : Nat × Fld} (h : w ∈ sioWs) : w ∈ leaveWs := by simp only [leaveWs, List.mem_append, h, true_or, or_true]

theorem stop_mem_leaveWs {w : Nat × Fld} (h : w ∈ stopWs) : w ∈ leaveWs := by simp only [leaveWs, List.mem_append, h, true_or, or_true]

theorem permit_mem_leaveWs {w : Nat × Fld} (h : w ∈ permitWs) : w ∈ leaveWs := by simp only [leaveWs, List.mem_append, h, true_or, or_true]

/-- A part that differs from another in what leaving RUN writes: no latched cause has changed. -/
structure Left (d e : Dev) : Prop where
  within : Within leaveWs d e
  saf : e.saf = { d.saf with sp := e.saf.sp, th := e.saf.th, spAct := e.saf.spAct }
  causes : ∀ m, (e.sp m).causes = (d.sp m).causes

namespace Left

variable {d e x : Dev}

theorem refl (d : Dev) : Left d d := ⟨Within.refl _ d, rfl, fun _ => rfl⟩

theorem trans (h : Left d e) (g : Left e x) : Left d x := by
  refine ⟨h.within.trans g.within, ?_, fun m => (g.causes m).trans (h.causes m)⟩
  rw [g.saf, h.saf]

theorem foldl {α : Type} {f : Dev → α → Dev} : ∀ (l : List α) (d : Dev), (∀ d, ∀ y ∈ l, Left d (f d y)) → Left d (l.foldl f d)
  | [], d, _ => refl d
  | y :: l, d, hf => (hf d y List.mem_cons_self).trans (foldl l _ fun d z hz => hf d z (List.mem_cons_of_mem _ hz))

theorem put {p : Nat} {f : Fld} (hm : (p, f) ∈ leaveWs) (hf : f.fits = true) {i : Nat} (hi : i < f.cnt) (d : Dev) (v : Nat) : Left d (d.put p f v i) :=
  ⟨(Within.refl _ d).put hm hf hi v (by decide), rfl, fun _ => rfl⟩

theorem modTh (d : Dev) (n : Nat) (g : ThCar → ThCar) : Left d (d.modTh n g) := ⟨(Within.refl _ d).modTh n g, rfl, fun _ => rfl⟩

theorem modSp (d : Dev) (n : Nat) {g : SafCar → SafCar} (he : ∀ c, (g c).causes = c.causes) : Left d (d.modSp n g) := by
  refine ⟨(Within.refl _ d).modSp n g, rfl, fun m => ?_⟩
  rw [sp_modSp]
  split
  case isTrue h => rw [he, h.1]
  case isFalse => rfl

theorem of_saf (hw : Within leaveWs d e) (hs : e.saf = d.saf) : Left d e := ⟨hw, by rw [hs], fun m => by rw [sp, hs, ← sp]⟩

theorem of_permitted (h : Permitted d e) : Left d e := by
  refine ⟨h.within.mono fun _ => permit_mem_leaveWs, ?_, h.causes⟩
  rw [h.cars.saf]

end Left

section
variable (d : Dev)

/-- One car of Theath at rest. -/
def idleCar (d : Dev) (n : Nat) : Dev :=
  ((((d.modTh n (fun c => { c with bridged := [], frames := [] })).put (shp .ths) THS.CAR_ST_LAND 0xFF n).put (shp .ths) THS.CAR_XT_UM 0 n).put (shp .ths) THS.CAR_VT_UMS 0 n).put
    (shp .ths) THS.CAR_ST_BIN 0 n

/-- Theath's modes and inputs at rest. -/
def idleModes (d : Dev) : Dev :=
  (((((((d.put (shp .ths) THS.MODE_BLOCK_OK 0).put (shp .ths) THS.MODE_NATIVE 0).put (shp .ths) THS.MODE_FOLLOWER 0).put (shp .ths) THS.IN_PAIR_ACT 0).put
    (shp .ths) THS.TP_LVL 0).put (shp .ths) THS.TP_OVL 0).put (shp .ths) THS.TP_BLANK 0).put (shp .ths) THS.CARS_T_GOOD 0

theorem thIdle_eq : d.thIdle = (List.range 4).foldl idleCar
    (((((List.range 3).foldl (fun d p => (d.put (shp .ths) THS.PR_GAP_UM 0 p).put (shp .ths) THS.PR_THR_UM 0 p) (d.idleModes.modSaf (fun s => { s with spAct := 0 }))).put
      (shp .ths) THS.CARS_BRIDGED 0).put (shp .ths) THS.CARS_DOOR_PERMIT 0)) := rfl

theorem Left.idlePut {f : Fld} (hm : (shp .ths, f) ∈ idleWs) (hf : f.fits = true) {i : Nat} (hi : i < f.cnt) (d : Dev) (v : Nat) : Left d (d.put (shp .ths) f v i) :=
  Left.put (idle_mem_leaveWs hm) hf hi d v

theorem Left.sioPut {f : Fld} (hm : (shp .sio, f) ∈ sioWs) (hf : f.fits = true) {i : Nat} (hi : i < f.cnt) (d : Dev) (v : Nat) : Left d (d.put (shp .sio) f v i) :=
  Left.put (sio_mem_leaveWs hm) hf hi d v

theorem Left.idleModes : Left d d.idleModes := by
  have hput {f : Fld} (hm : (shp .ths, f) ∈ idleWs) (hf : f.fits = true) (hc : 0 < f.cnt) (d : Dev) : Left d (d.put (shp .ths) f 0) := Left.idlePut hm hf hc d 0
  unfold Dev.idleModes
  exact (hput (by simp [idleWs]) (by decide) (by decide) d).trans ((hput (by simp [idleWs]) (by decide) (by decide) _).trans ((hput (by simp [idleWs]) (by decide) (by decide) _).trans
    ((hput (by simp [idleWs]) (by decide) (by decide) _).trans ((hput (by simp [idleWs]) (by decide) (by decide) _).trans ((hput (by simp [idleWs]) (by decide) (by decide) _).trans
      ((hput (by simp [idleWs]) (by decide) (by decide) _).trans (hput (by simp [idleWs]) (by decide) (by decide) _)))))))

theorem Left.idleCar {n : Nat} (hn : n < 4) : Left d (d.idleCar n) :=
  (Left.modTh d n _).trans ((Left.idlePut (by simp [idleWs]) (by decide) (i := n) hn _ _).trans ((Left.idlePut (by simp [idleWs]) (by decide) (i := n) hn _ _).trans
    ((Left.idlePut (by simp [idleWs]) (by decide) (i := n) hn _ _).trans (Left.idlePut (by simp [idleWs]) (by decide) (i := n) hn _ _))))

theorem Left.thIdle : Left d d.thIdle := by
  rw [thIdle_eq]
  refine (Left.idleModes d).trans (Left.trans (e := d.idleModes.modSaf (fun s => { s with spAct := 0 })) ⟨(Within.refl _ _).modSaf _, rfl, fun _ => rfl⟩ ?_)
  refine (Left.foldl _ _ fun e p hp => ?_).trans ((Left.idlePut (by simp [idleWs]) (by decide) (by decide) _ _).trans ((Left.idlePut (by simp [idleWs]) (by decide) (by decide) _ _).trans
    (Left.foldl _ _ fun e n hn => Left.idleCar e (List.mem_range.mp hn))))
  exact (Left.idlePut (by simp [idleWs]) (by decide) (i := p) (List.mem_range.mp hp) e _).trans (Left.idlePut (by simp [idleWs]) (by decide) (i := p) (List.mem_range.mp hp) _ _)

/-- The periods and windows of the block as shown. -/
def sioTimes (d : Dev) (b : Block) : Dev :=
  (((((d.put (shp .sio) SIO.TP_PER_MS (bkTpPer b)).put (shp .sio) SIO.TP_SETTLE_US (bkSettle b)).put (shp .sio) SIO.TPW01_W0 (bkTpW b 0)).put (shp .sio) SIO.TPW01_W1
    (bkTpW b 1)).put (shp .sio) SIO.TPW23_W2 (bkTpW b 2)).put (shp .sio) SIO.TPW23_W3 (bkTpW b 3)

/-- A pair of inputs of the block as shown. -/
def sioPair (b : Block) (d : Dev) (p : Nat) : Dev :=
  ((((((d.put (shp .sio) SIO.PR_CFG_FUNC (bkFunc b p) p).put (shp .sio) SIO.PR_CFG_MODE (bkPMode b p) p).put (shp .sio) SIO.PR_CFG_TP_A (bkFeed b (2 * p)) p).put
    (shp .sio) SIO.PR_CFG_TP_B (bkFeed b (2 * p + 1)) p).put (shp .sio) SIO.PR_CFG_CARS (bkPMask b p) p).put (shp .sio) SIO.PR_CFG_LAND_LO (bkLandLo b p) p).put
    (shp .sio) SIO.PR_CFG_LAND_HI (bkLandHi b p) p

theorem showSio_eq (b : Block) : d.showSio b = (List.range 8).foldl (fun d k => (d.put (shp .sio) SIO.SO_CFG_FUNC (bkOutFn b k) k).put (shp .sio) SIO.SO_CFG_CAR (bkOutCar b k) k)
    ((List.range 8).foldl (sioPair b) (d.sioTimes b)) := rfl

theorem Left.sioTimes (b : Block) : Left d (d.sioTimes b) := by
  have hput {f : Fld} (hm : (shp .sio, f) ∈ sioWs) (hf : f.fits = true) (hc : 0 < f.cnt) (d : Dev) (v : Nat) : Left d (d.put (shp .sio) f v) := Left.sioPut hm hf hc d v
  unfold Dev.sioTimes
  exact (hput (by simp [sioWs]) (by decide) (by decide) d _).trans ((hput (by simp [sioWs]) (by decide) (by decide) _ _).trans ((hput (by simp [sioWs]) (by decide) (by decide) _ _).trans
    ((hput (by simp [sioWs]) (by decide) (by decide) _ _).trans ((hput (by simp [sioWs]) (by decide) (by decide) _ _).trans (hput (by simp [sioWs]) (by decide) (by decide) _ _)))))

theorem Left.sioPair (b : Block) {p : Nat} (hp : p < 8) : Left d (d.sioPair b p) := by
  unfold Dev.sioPair
  exact (Left.sioPut (by simp [sioWs]) (by decide) (i := p) hp d _).trans ((Left.sioPut (by simp [sioWs]) (by decide) (i := p) hp _ _).trans
    ((Left.sioPut (by simp [sioWs]) (by decide) (i := p) hp _ _).trans ((Left.sioPut (by simp [sioWs]) (by decide) (i := p) hp _ _).trans
      ((Left.sioPut (by simp [sioWs]) (by decide) (i := p) hp _ _).trans ((Left.sioPut (by simp [sioWs]) (by decide) (i := p) hp _ _).trans
        (Left.sioPut (by simp [sioWs]) (by decide) (i := p) hp _ _))))))

theorem Left.showSio (b : Block) : Left d (d.showSio b) := by
  rw [showSio_eq]
  refine (Left.sioTimes d b).trans ((Left.foldl _ _ fun e p hp => Left.sioPair e b (List.mem_range.mp hp)).trans (Left.foldl _ _ fun e k hk => ?_))
  exact (Left.sioPut (by simp [sioWs]) (by decide) (i := k) (List.mem_range.mp hk) e _).trans (Left.sioPut (by simp [sioWs]) (by decide) (i := k) (List.mem_range.mp hk) _ _)

theorem Left.stopPut {p : Nat} {f : Fld} (hm : (p, f) ∈ stopWs) (hf : f.fits = true) {i : Nat} (hi : i < f.cnt) (d : Dev) (v : Nat) : Left d (d.put p f v i) :=
  Left.put (stop_mem_leaveWs hm) hf hi d v

theorem Left.stopLine (n cat : Nat) : Left d (d.stopLine n cat) :=
  Left.of_saf ((Stopped.stopLine d n cat).within.mono fun _ => stop_mem_leaveWs) (saf_stopLine ..)

theorem Left.outUpdate : Left d d.outUpdate := Left.of_permitted (Permitted.outUpdate d)

theorem Left.safNote (p cause n : Nat) : Left d (d.safNote p cause n) := Left.of_saf ((Within.refl _ d).note ..) (saf_note ..)

theorem Left.endRescue (n : Nat) : Left d (d.endRescue n) :=
  (Left.stopPut (by simp [stopWs]) (by decide) (by decide) d _).trans ((Left.modSp (g := fun c => { c with rscChain := 0 }) _ n fun _ => rfl).trans (Left.modTh _ n _))

variable {n : Nat} (hn : n < 4)
include hn

theorem Left.carOff : Left d (d.carOff n) := by
  obtain ⟨p, t, he⟩ := carOff_eq d n
  rw [he]
  have hruns : Left d ((d.put (shp .sio) SIO.CAR_RUN_STO_ON 0 n).put (shp .sio) SIO.CAR_RUN_BRK_ON 0 n) :=
    (Left.stopPut (by simp [stopWs]) (by decide) (i := n) hn d 0).trans (Left.stopPut (by simp [stopWs]) (by decide) (i := n) hn _ 0)
  refine hruns.trans (Left.trans ?_ (Left.outUpdate _))
  unfold Dev.slipMark
  split
  · exact Left.modSp _ n fun _ => rfl
  · exact Left.refl _

omit hn in
/-- The grant of degraded operation as shown. -/
def degShown (d : Dev) (n : Nat) : Dev :=
  if (d.sp n).deg.isSome then d.putb (shp .sio) SIO.CAR_RUN_DEG (d.sp n).deg.isSome n
  else (d.putb (shp .sio) SIO.CAR_RUN_DEG (d.sp n).deg.isSome n).put (shp .sio) SIO.CAR_DEG_LEFT_MS 0 n

omit hn in
/-- The speed that a generator keeps to under a grant. -/
def degCapped (on_ : Bool) (n : Nat) (d : Dev) (h : HalfId) : Dev := d.modMpg h n (fun m => { m with degCap := if on_ then bkDegV d.blk n else 0 })

omit hn in
theorem showDeg_eq (n : Nat) : d.showDeg n = (d.degShown n).both (degCapped (d.sp n).deg.isSome n) := rfl

theorem Left.showDeg : Left d (d.showDeg n) := by
  have hput (v : Nat) (f : Fld) (h : f = SIO.CAR_RUN_DEG ∨ f = SIO.CAR_DEG_LEFT_MS) (d : Dev) : Left d (d.put (shp .sio) f v n) := by
    refine Left.put ?_ (by rcases h with rfl | rfl <;> decide) (i := n) (by rcases h with rfl | rfl <;> exact hn) d v
    refine List.mem_append_right _ ?_
    rcases h with rfl | rfl <;> simp
  have hcap (b : Bool) (d : Dev) (h : HalfId) : Left d (degCapped b n d h) := Left.of_saf ((Within.refl _ d).modMpg h n _) (modHalf_saf ..)
  have hshown : Left d (d.degShown n) := by
    unfold Dev.degShown
    split
    · exact hput _ _ (.inl rfl) d
    · exact (hput _ _ (.inl rfl) d).trans (hput _ _ (.inr rfl) _)
  rw [showDeg_eq]
  exact hshown.trans ((hcap _ _ .a).trans (hcap _ _ .b))

omit hn in
/-- A car's outputs, if it was in service. -/
def leaveOff (d : Dev) (was : Bool) (n : Nat) : Dev := if was && d.safCar n then (d.carOff n).stopLine n 0 else d

omit hn in
/-- One car leaves RUN. -/
def leaveCar (was : Bool) (d : Dev) (n : Nat) : Dev :=
  (((((d.leaveOff was n).modSp n (fun c => { c with s1 := none, deg := none, bridged := [], excused := [] })).endRescue n).put (shp .sio) SIO.CAR_RUN_S1 0 n).put
    (shp .sio) SIO.CAR_ENV_UMS 0 n).showDeg n

theorem Left.leaveCar (was : Bool) : Left d (d.leaveCar was n) := by
  have hoff : Left d (d.leaveOff was n) := by
    unfold Dev.leaveOff
    split
    · exact (Left.carOff d hn).trans (Left.stopLine ..)
    · exact Left.refl d
  exact hoff.trans ((Left.modSp (g := fun c => { c with s1 := none, deg := none, bridged := [], excused := [] }) _ n fun _ => rfl).trans ((Left.endRescue _ n).trans
    ((Left.stopPut (by simp [stopWs]) (by decide) (i := n) hn _ _).trans ((Left.stopPut (by simp [stopWs]) (by decide) (i := n) hn _ _).trans (Left.showDeg _ hn)))))

end

/-- The part in its new state, before its permits are evaluated. -/
def leaveBegun (d : Dev) (was : Bool) : Dev :=
  (((List.range 4).foldl (leaveCar was) (d.thIdle.showSio [])).put (shp .sfc) SFC.PERMIT_MOTION 0).outUpdate

theorem leaveRun_eq (d : Dev) (code : Nat) : d.leaveRun code = (((d.put (shp .sfc) SFC.STATE_CODE code).leaveBegun d.safRun).permits).safNote (shp .sfc) code 0 := rfl

theorem Left.leaveBegun (d : Dev) (was : Bool) : Left d (d.leaveBegun was) := by
  unfold Dev.leaveBegun
  exact (Left.thIdle d).trans ((Left.showSio _ []).trans ((Left.foldl _ _ fun e n hn => Left.leaveCar e (List.mem_range.mp hn) was).trans
    ((Left.put (permit_mem_leaveWs (by simp [permitWs])) (by decide) (by decide) _ 0).trans (Left.outUpdate _))))

theorem Left.leaveRun (d : Dev) (code : Nat) : Left (d.put (shp .sfc) SFC.STATE_CODE code) (d.leaveRun code) := by
  rw [leaveRun_eq]
  exact (Left.leaveBegun _ _).trans ((Left.of_permitted (Permitted.permits _)).trans (Left.safNote ..))

theorem leaveRun_code (d : Dev) {code : Nat} (hc : code < 8) : (d.leaveRun code).get (shp .sfc) SFC.STATE_CODE = code := by
  rw [(Left.leaveRun d code).within.get _ _ _ _ (by decide) (by decide) (by decide) (by decide) (by decide), get_put_same _ _ _ _ _ _ (by decide)]
  exact Nat.mod_eq_of_lt (lt_of_lt_of_le hc (by decide))

/-- The switches of pairs where no car may have its permit. -/
theorem permits_leaves_switches {d : Dev} (hrun : d.safRun = false) {k : Nat} (hk : k < 8) :
    d.permits.get (shp .sio) SIO.SO_ST_HS k = d.get (shp .sio) SIO.SO_ST_HS k ∧ d.permits.get (shp .sio) SIO.SO_ST_LS k = d.get (shp .sio) SIO.SO_ST_LS k := by
  have h1 : k < SIO.SO_ST_HS.cnt := hk
  have h2 : k < SIO.SO_ST_LS.cnt := hk
  have hstep (e : Dev) {n : Nat} (hn : n < 4) (he : e.safRun = false) : (e.pairPermit n).get (shp .sio) SIO.SO_ST_HS k = e.get (shp .sio) SIO.SO_ST_HS k ∧
      (e.pairPermit n).get (shp .sio) SIO.SO_ST_LS k = e.get (shp .sio) SIO.SO_ST_LS k := by
    have h3 : n < SFC.CAR_WHY_BITS.cnt := hn
    have hmpg (h : HalfId) : pgMpg h n ≠ shp .sio := by cases h <;> interval_cases n <;> decide
    have hsto (x : Dev) : x.permitSto n false = x := rfl
    rw [pairPermit_eq, permitOk_of_withheld (.inl he), if_neg (by decide), hsto, permitShown, both, putb, putb]
    constructor <;>
    · rw [get_put_other _ _ (hmpg .b) (by decide) (by decide) (by decide) (by assumption) (by decide) (by decide),
        get_put_other _ _ (hmpg .a) (by decide) (by decide) (by decide) (by assumption) (by decide) (by decide), putBit]
      simp (disch := first | decide | assumption) only [get_put_other]
  have hfold : ∀ (l : List Nat) (e : Dev), (∀ n ∈ l, n < 4) → e.safRun = false → (l.foldl Dev.pairPermit e).get (shp .sio) SIO.SO_ST_HS k = e.get (shp .sio) SIO.SO_ST_HS k ∧
      (l.foldl Dev.pairPermit e).get (shp .sio) SIO.SO_ST_LS k = e.get (shp .sio) SIO.SO_ST_LS k := by
    intro l
    induction l with
    | nil => exact fun _ _ _ => ⟨rfl, rfl⟩
    | cons n l ih =>
      intro e hl he
      obtain ⟨i1, i2⟩ := ih (e.pairPermit n) (fun m hm => hl m (List.mem_cons_of_mem _ hm)) (by rw [(Permitted.pairPermit e (hl n List.mem_cons_self)).safRun, he])
      obtain ⟨s1, s2⟩ := hstep e (hl n List.mem_cons_self) he
      exact ⟨i1.trans s1, i2.trans s2⟩
  exact hfold _ d (fun n hn => List.mem_range.mp hn) hrun

section
variable (d : Dev) {code : Nat} (hc : code < 8) (h3 : code ≠ 3)
include hc h3

theorem leaveBegun_safRun (was : Bool) : ((d.put (shp .sfc) SFC.STATE_CODE code).leaveBegun was).safRun = false := by
  rw [safRun, (Left.leaveBegun _ was).within.get _ _ _ _ (by decide) (by decide) (by decide) (by decide) (by decide), get_put_same _ _ _ _ _ _ (by decide),
    Nat.mod_eq_of_lt (lt_of_lt_of_le hc (by decide))]
  exact beq_eq_false_iff_ne.mpr h3

theorem leaveRun_permit {n : Nat} (hn : n < 4) : bitN ((d.leaveRun code).get (shp .sfc) SFC.PERMIT_MOTION) n = 0 := by
  rw [leaveRun_eq, safNote, get_note_other _ _ _ _ _ (by decide) (by decide) (by decide) (by decide)]
  exact permits_withheld _ hn (.inl (leaveBegun_safRun d hc h3 _))

/-- Every output is off once RUN is left. -/
theorem leaveRun_off : (d.leaveRun code).allOff = true := by
  have hrun := leaveBegun_safRun d hc h3 d.safRun
  obtain ⟨x, hx⟩ : ∃ x, x = (((List.range 4).foldl (leaveCar d.safRun) ((d.put (shp .sfc) SFC.STATE_CODE code).thIdle.showSio [])).put (shp .sfc) SFC.PERMIT_MOTION 0) := ⟨_, rfl⟩
  have hbegun : (d.put (shp .sfc) SFC.STATE_CODE code).leaveBegun d.safRun = x.outUpdate := by rw [hx]; rfl
  rw [hbegun] at hrun
  have hxrun : x.safRun = false := by rw [← (Permitted.outUpdate x).safRun, hrun]
  refine List.all_eq_true.mpr fun k hk => ?_
  have hk8 := List.mem_range.mp hk
  have h1 : k < SIO.SO_ST_HS.cnt := hk8
  have h2 : k < SIO.SO_ST_LS.cnt := hk8
  have hlive : x.outLive k = false := by rw [outLive, hxrun]; rfl
  obtain ⟨o1, o2⟩ := outUpdate_shows x hk8 (.inl hlive)
  obtain ⟨p1, p2⟩ := permits_leaves_switches hrun hk8
  rw [pairOff, leaveRun_eq, hbegun, safNote, get_note_other _ _ _ _ _ (by decide) (by decide) h1 (by decide), get_note_other _ _ _ _ _ (by decide) (by decide) h2 (by decide), p1, p2,
    o1, o2, outHs, outLs, hlive]
  rfl

end

/-! ### The end of a seal that fails -/

/-- What shows a block. -/
def blockWs : List (Nat × Fld) :=
  [SFC.BLOCK_ID_ID, SFC.BLOCK_CRC_CODE, SFC.BLOCK_TS_LO, SFC.BLOCK_TS_HI, SFC.CFG_CARS, SFC.CFG_SEP_PAIRS, SFC.CFG_DDECK].map fun f => (shp .sfc, f)

theorem within_showBlock (d : Dev) (b : Option Block) : Within blockWs d (d.showBlock b) := by
  have hput {e : Dev} {f : Fld} (h : Within blockWs d e) (hm : (shp .sfc, f) ∈ blockWs) (hf : f.fits = true) (hc : 0 < f.cnt) (v : Nat) : Within blockWs d (e.put (shp .sfc) f v) :=
    h.put hm hf hc v (by decide)
  unfold showBlock
  exact hput (hput (hput (hput (hput (hput (hput (Within.refl _ d) (by simp [blockWs]) (by decide) (by decide) _) (by simp [blockWs]) (by decide) (by decide) _)
    (by simp [blockWs]) (by decide) (by decide) _) (by simp [blockWs]) (by decide) (by decide) _) (by simp [blockWs]) (by decide) (by decide) _)
    (by simp [blockWs]) (by decide) (by decide) _) (by simp [blockWs]) (by decide) (by decide) _

theorem saf_showBlock (d : Dev) (b : Option Block) : (d.showBlock b).saf = d.saf := by simp only [showBlock, saf_put]

/-- Whether a change of the contacts takes the part out of RUN. -/
def sealEnds (d : Dev) : Bool := d.safRun && d.saf.sealFail && d.safCars.all (fun n => !d.pairMoves n)

/-- The part without its block. -/
def sealLeft (d : Dev) : Dev := ((d.leaveRun 2).put (shp .sfc) SFC.STATE_SEAL_MATCH 0).modSaf (fun s => { s with active := none, sealFail := false })

theorem sealEnd_eq (d : Dev) : d.sealEnd = if d.sealEnds then d.sealLeft.showBlock d.sealLeft.firstCopy else d := rfl

/-- The registers of the end of a seal. -/
def sealWs : List (Nat × Fld) := leaveWs ++ blockWs ++ [(shp .sfc, SFC.STATE_CODE), (shp .sfc, SFC.STATE_SEAL_MATCH)]

theorem within_sealEnd (d : Dev) : Within sealWs d d.sealEnd := by
  rw [sealEnd_eq]
  split
  · have hleave : Within sealWs d (d.leaveRun 2) := ((Within.refl _ d).put (by simp [sealWs]) (by decide) (by decide) 2 (by decide)).trans
      ((Left.leaveRun d 2).within.mono fun _ h => List.mem_append_left _ (List.mem_append_left _ h))
    have hleft : Within sealWs d d.sealLeft := (hleave.put (by simp [sealWs]) (by decide) (by decide) 0 (by decide)).modSaf _
    exact hleft.trans ((within_showBlock _ _).mono fun _ h => List.mem_append_left _ (List.mem_append_right _ h))
  · exact Within.refl _ d

/-- The end of a seal leaves latched causes and stored copies. -/
theorem sealEnd_leaves (d : Dev) : (∀ m, (d.sealEnd.sp m).causes = (d.sp m).causes) ∧ d.sealEnd.saf.copy1 = d.saf.copy1 ∧ d.sealEnd.saf.copy2 = d.saf.copy2 := by
  rw [sealEnd_eq]
  split
  · obtain ⟨hw, hsaf, hcauses⟩ := Left.leaveRun d 2
    have hleft : d.sealLeft.saf = { (d.leaveRun 2).saf with active := none, sealFail := false } := by rw [sealLeft, saf_modSaf, saf_put]
    have hsp (m : Nat) : d.sealLeft.sp m = (d.leaveRun 2).sp m := by rw [sp, hleft, sp]
    refine ⟨fun m => ?_, ?_, ?_⟩
    · rw [sp, saf_showBlock, ← sp, hsp, hcauses, sp, saf_put, ← sp]
    · rw [saf_showBlock, hleft, hsaf]
      rfl
    · rw [saf_showBlock, hleft, hsaf]
      rfl
  · exact ⟨fun _ => rfl, rfl, rfl⟩

/-- A permit withheld stays withheld at the end of a seal. -/
theorem sealEnd_permit (d : Dev) {n : Nat} (hn : n < 4) (h : bitN (d.get (shp .sfc) SFC.PERMIT_MOTION) n = 0) : bitN (d.sealEnd.get (shp .sfc) SFC.PERMIT_MOTION) n = 0 := by
  rw [sealEnd_eq]
  split
  · rw [(within_showBlock _ _).get _ _ _ _ (by decide) (by decide) (by decide) (by decide) (by decide), sealLeft, get_modSaf,
      get_put_apart _ _ (by decide) (by decide) (by decide) (by decide) (by decide) (by decide) (by decide)]
    exact leaveRun_permit d (by decide) (by decide) hn
  · exact h

end Dev

end Sys2Proof.Machine
end

section
/-! PROOFS. The evaluation of a servo period by the safety core pair, and O36. -/
namespace Sys2Proof.Machine

open Sys2Proof

namespace Dev

/-! ### Tracking and bridging -/

/-- The times of a car's motion, advanced by one period. -/
def tracked (d : Dev) (T n : Nat) : Dev :=
  d.modSp n (fun c =>
    let still := if d.pairMoves n then 0 else satU 32 (c.still + T)
    { c with still := still, moved := (d.mpgMode d.holder n == 2 || d.mpgMode d.holder n == 3 || d.mpgMode d.holder n == 6) || (c.moved && decide (still < bkSsT d.blk n)),
             s1 := c.s1.map (fun r => { r with t := r.t + T }), degNs := c.degNs - T })

theorem pairTrack_eq (d : Dev) (T n : Nat) : d.pairTrack T n =
    if ((d.tracked T n).sp n).deg.isSome then (d.tracked T n).put (shp .sio) SIO.CAR_DEG_LEFT_MS ((((d.tracked T n).sp n).degNs + 999999) / 1000000) n else d.tracked T n := rfl

/-- The bridge of a car by the pair. -/
def pairBridged (d : Dev) (n : Nat) : Dev :=
  d.modSp n (fun c => { c with bridged := if d.safRun && d.safCar n && (d.pSt n == 2 || d.pSt n == 3) then bridgeAt d.blk n (d.pX n) (d.pV n) else [] })

/-- The landings that Theath bridges for a car, as shown. -/
def bridgeShown (l : List Nat) (permit : Bool) (n : Nat) (d : Dev) : Dev :=
  ((d.putBit (shp .ths) THS.CARS_BRIDGED n !l.isEmpty).put (shp .ths) THS.CAR_ST_LAND (l.headD 0xFF) n).putBit (shp .ths) THS.CARS_DOOR_PERMIT n permit

/-- The bridge of a car by Theath. -/
def thBridged (d : Dev) (n : Nat) : Dev :=
  let l := if d.thOn && d.safCar n && d.useT n then bridgeAt d.blk n (d.xT n) (d.vT n) else []
  let e := d.modTh n (fun t => { t with bridged := l })
  e.bridgeShown l (e.safRun && e.safCar n && !(e.sp n).bridged.isEmpty && (!e.native || !l.isEmpty)) n

theorem pairBridge_eq (d : Dev) : d.pairBridge = (List.range 4).foldl thBridged ((List.range 4).foldl pairBridged d) := rfl

section
variable (d : Dev) {n : Nat} (hn : n < 4)
include hn

theorem Served.pairTrack (T : Nat) : Served d (d.pairTrack T n) := by
  have htrack : Served d (d.tracked T n) := Served.modSp d n (fun _ => ⟨fun _ h => h, id, .inl rfl, rfl⟩) fun _ => rfl
  rw [pairTrack_eq]
  split
  · exact htrack.trans (Served.put (by simp [servoWs]) (by decide) (by decide) (by decide) (i := n) hn _ _)
  · exact htrack

omit hn in
theorem Served.pairBridged : Served d (d.pairBridged n) := Served.modSp d n (fun _ => ⟨fun _ h => h, id, .inl rfl, rfl⟩) fun _ => rfl

theorem Served.bridgeShown (l : List Nat) (permit : Bool) : Served d (bridgeShown l permit n d) := by
  have hput {f : Fld} (hm : (shp .ths, f) ∈ servoWs) (hf : f.fits = true) {i : Nat} (hi : i < f.cnt) (d : Dev) (v : Nat) : Served d (d.put (shp .ths) f v i) :=
    Served.put hm (.inl (by decide)) (.inl (by decide)) hf hi d v
  exact (hput (by simp [servoWs]) (by decide) (i := 0) (by decide) _ _).trans
    ((hput (by simp [servoWs]) (by decide) (i := n) hn _ _).trans (hput (by simp [servoWs]) (by decide) (i := 0) (by decide) _ _))

theorem Served.thBridged : Served d (d.thBridged n) := by
  obtain ⟨l, p, he⟩ : ∃ l p, d.thBridged n = Dev.bridgeShown l p n (d.modTh n (fun t => { t with bridged := l })) := ⟨_, _, rfl⟩
  rw [he]
  exact (Stopped.modTh (g := fun t => { t with bridged := l }) d n fun _ _ h => h).served.trans (Served.bridgeShown _ hn l p)

end

theorem Served.pairBridge (d : Dev) : Served d d.pairBridge := by
  rw [pairBridge_eq]
  exact (StoppedIn.foldl _ d fun e _ _ => Served.pairBridged e).trans (StoppedIn.foldl _ _ fun e _ h => Served.thBridged e (List.mem_range.mp h))

/-! ### The functions of one car -/

/-- The stop of a car above its limit. -/
def overStop (d : Dev) (n : Nat) : Dev := if (d.pV n).natAbs > bkOvsP d.blk n (decide (d.pV n > 0)) then d.spStop n 5 1 [encS 32 (d.pV n)] else d

/-- The stop of a rescued car above the speed of rescue. -/
def rescueStop (b : Block) (v : Int) (n : Nat) (d : Dev) : Dev :=
  if bitN (d.get (shp .sfc) SFC.PERMIT_RESCUE) n == 1 && decide (v.natAbs > car32 b n 0x54) then d.spStop n 7 0 [encS 32 v] else d

/-- The stop at a slowdown switch that demands. -/
def tslStop (b : Block) (tw : Int) (n p : Nat) (d : Dev) : Dev :=
  if d.spAct p && decide (tw > car32 b n 0x44) then (d.modSp n (fun c => { c with tslBad := true })).spStop n (d.inCause p 6) 1 [p] else d

/-- The report of a slowdown switch that does not demand where it must. -/
def tslReport (n : Nat) (d : Dev) : Dev := if bitN (d.sp n).causes 6 == 1 then d else d.err (shp .sfc) cSWITCH_DISAGREE n

/-- The stop at a slowdown switch that does not demand where it must. -/
def tslMissed (beyond : Bool) (n p : Nat) (d : Dev) : Dev :=
  if beyond && !d.spAct p then ((tslReport n d).modSp n (fun c => { c with tslBad := true })).spStop n 6 1 [p] else d

/-- One slowdown switch of a car. -/
def tslStep (b : Block) (v : Int) (n : Nat) (d : Dev) (p : Nat) : Dev :=
  if (bkFunc b p = 6 ∨ bkFunc b p = 7) ∧ (bkPCars b p).contains n then
    tslMissed (if bkFunc b p = 6 then decide (d.pX n < carI b n 0x4C) else decide (d.pX n > carI b n 0x50)) n p (tslStop b (if bkFunc b p = 6 then -v else v) n p d)
  else d

/-- The report of a limit of the generators that does not match. -/
def limitReport (mis : Bool) (n : Nat) (d : Dev) : Dev :=
  if mis && !(d.sp n).limMis then (d.err (shp .sfc) cLIMIT_MISMATCH n).safNote (shp .sfc) cLIMIT_MISMATCH n else d

/-- The stop of a moving car whose limit does not match. -/
def limitStop (mis : Bool) (n : Nat) (d : Dev) : Dev := if mis && d.pairMoves n then d.spStop n 0xA 1 else d

/-- The limit of the generators against the block. -/
def limitStep (n : Nat) (d : Dev) : Dev :=
  limitStop (d.intentMis n) n ((limitReport (d.intentMis n) n d).modSp n (fun c => { c with limMis := d.intentMis n }))

/-- The switches of a car. -/
def tslAll (b : Block) (v : Int) (n : Nat) (d : Dev) : Dev := (List.range 8).foldl (tslStep b v n) (d.modSp n (fun c => { c with tslBad := false }))

theorem pairCar_eq (d : Dev) (n : Nat) : d.pairCar n =
    if !d.safCar n then d else ((limitStep n (tslAll d.blk (d.pV n) n (rescueStop d.blk (d.pV n) n (d.overStop n)))).pairEnv n |>.pairSlip n).pairDeg n := rfl

/-- The stop of a car that leaves its envelope. -/
def envStop (v lim : Int) (n : Nat) (d : Dev) : Dev := if v > lim ∨ v < -(car32 d.blk n 0x84 : Int) then d.spStop n 0xB 0 [encS 32 v, encS 32 lim] else d

theorem pairEnv_eq (d : Dev) (n : Nat) : d.pairEnv n = d ∨ ∃ v lim, d.pairEnv n = envStop v lim n (d.put (shp .sio) SIO.CAR_ENV_UMS lim.toNat n) := by
  rw [pairEnv]
  cases (d.sp n).s1 with
  | none => exact .inl rfl
  | some r => exact .inr ⟨_, _, rfl⟩

/-- The stop of a car too fast for its grant. -/
def degFast (v : Int) (n : Nat) (d : Dev) : Dev := if v.natAbs > bkDegV d.blk n + 50000 then d.spStop n 0xF 0 else d

theorem pairDeg_eq (d : Dev) (n : Nat) : d.pairDeg n = d ∨ ∃ v, d.pairDeg n = degFast v n d ∨ d.pairDeg n = (degFast v n d).spStop n 0x11 0 := by
  rw [pairDeg]
  cases (d.sp n).deg with
  | none => exact .inl rfl
  | some w =>
    refine .inr ⟨if bitN w 1 == 1 then d.vT n else d.pV n, ?_⟩
    simp only [degFast]
    split_ifs <;> simp

section
variable (d : Dev) {n : Nat} (hn : n < 4)
include hn

theorem Served.overStop : Served d (d.overStop n) := by
  unfold Dev.overStop
  split
  · exact Served.spStop d _ _ _ hn
  · exact StoppedIn.refl _ d

theorem Served.rescueStop (b : Block) (v : Int) : Served d (rescueStop b v n d) := by
  unfold Dev.rescueStop
  split
  · exact Served.spStop d _ _ _ hn
  · exact StoppedIn.refl _ d

omit hn in
theorem Served.tslMark (v : Bool) : Served d (d.modSp n (fun c => { c with tslBad := v })) := Served.modSp d n (fun _ => ⟨fun _ h => h, id, .inl rfl, rfl⟩) fun _ => rfl

theorem Served.tslStep (b : Block) (v : Int) (p : Nat) : Served d (tslStep b v n d p) := by
  have hstop (tw : Int) : Served d (tslStop b tw n p d) := by
    unfold Dev.tslStop
    split
    · exact (Served.tslMark d true).trans (Served.spStop _ _ _ _ hn)
    · exact StoppedIn.refl _ d
  have hreport (d : Dev) : Served d (tslReport n d) := by
    unfold tslReport
    split
    · exact StoppedIn.refl _ d
    · exact Served.err d _ _
  have hmissed (beyond : Bool) (d : Dev) : Served d (tslMissed beyond n p d) := by
    unfold tslMissed
    split
    · exact (hreport d).trans ((Served.tslMark _ true).trans (Served.spStop _ _ _ _ hn))
    · exact StoppedIn.refl _ d
  unfold Dev.tslStep
  split
  · exact (hstop _).trans (hmissed _ _)
  · exact StoppedIn.refl _ d

theorem Served.tslAll (b : Block) (v : Int) : Served d (tslAll b v n d) :=
  (Served.tslMark d false).trans (StoppedIn.foldl _ _ fun e p _ => Served.tslStep e hn b v p)

theorem Served.limitStep : Served d (limitStep n d) := by
  have hreport (mis : Bool) : Served d (limitReport mis n d) := by
    unfold limitReport
    split
    · exact (Served.err d _ _).trans (Stopped.note ..).served
    · exact StoppedIn.refl _ d
  have hstop (mis : Bool) (d : Dev) : Served d (limitStop mis n d) := by
    unfold limitStop
    split
    · exact Served.spStop d _ _ _ hn
    · exact StoppedIn.refl _ d
  exact (hreport _).trans ((Served.modSp (g := fun c => { c with limMis := d.intentMis n }) _ n (fun _ => ⟨fun _ h => h, id, .inl rfl, rfl⟩) fun _ => rfl).trans (hstop _ _))

theorem Served.pairEnv : Served d (d.pairEnv n) := by
  rcases pairEnv_eq d n with he | ⟨v, lim, he⟩
  · rw [he]
    exact StoppedIn.refl _ d
  · rw [he]
    refine (Served.put (p := shp .sio) (f := SIO.CAR_ENV_UMS) (by simp [servoWs, stopWs]) (by decide) (by decide) (by decide) (i := n) hn d lim.toNat).trans ?_
    unfold envStop
    split
    · exact Served.spStop _ _ _ _ hn
    · exact StoppedIn.refl _ _

theorem Served.pairSlip : Served d (d.pairSlip n) := by
  unfold Dev.pairSlip
  split
  · exact Served.modSp d n (fun _ => ⟨fun _ h => h, id, .inl rfl, rfl⟩) fun _ => rfl
  · split
    · split
      · exact Served.modSp d n (fun _ => ⟨fun _ h => h, id, .inl rfl, rfl⟩) fun _ => rfl
      · exact StoppedIn.refl _ d
    · dsimp only
      split
      · exact (Served.err d _ _).trans (Served.spStop _ _ _ _ hn)
      · exact StoppedIn.refl _ d

theorem Served.pairDeg : Served d (d.pairDeg n) := by
  have hfast (v : Int) : Served d (degFast v n d) := by
    unfold degFast
    split
    · exact Served.spStop d _ _ _ hn
    · exact StoppedIn.refl _ d
  rcases pairDeg_eq d n with he | ⟨v, he | he⟩ <;> rw [he]
  · exact StoppedIn.refl _ d
  · exact hfast v
  · exact (hfast v).trans (Served.spStop _ _ _ _ hn)

theorem Served.pairCar : Served d (d.pairCar n) := by
  rw [pairCar_eq]
  split
  · exact StoppedIn.refl _ d
  · exact (Served.overStop d hn).trans ((Served.rescueStop _ hn _ _).trans ((Served.tslAll _ hn _ _).trans ((Served.limitStep _ hn).trans
      ((Served.pairEnv _ hn).trans ((Served.pairSlip _ hn).trans (Served.pairDeg _ hn))))))

/-- A car above its limit is stopped by OVERSPEED. -/
theorem pairCar_overspeed (hl : n < d.saf.sp.length) (hrun : d.safRun = true) (hcar : d.safCar n = true)
    (hv : (d.pV n).natAbs > bkOvsP d.blk n (decide (d.pV n > 0))) : bitN ((d.pairCar n).sp n).causes 5 = 1 := by
  have hlatch : bitN ((d.overStop n).sp n).causes 5 = 1 := by
    rw [overStop, if_pos hv]
    exact spStop_latches d _ _ _ hn hl hrun hcar
  have hrest : Served (d.overStop n) (d.pairCar n) := by
    rw [pairCar_eq, hcar]
    exact (Served.rescueStop _ hn _ _).trans ((Served.tslAll _ hn _ _).trans ((Served.limitStep _ hn).trans
      ((Served.pairEnv _ hn).trans ((Served.pairSlip _ hn).trans (Served.pairDeg _ hn)))))
  exact (hrest.sp n).causes 5 hlatch

end

/-! ### The evaluation as a whole -/

theorem Served.deviceStop (d : Dev) : Served d d.deviceStop := by
  refine StoppedIn.foldl _ d fun e n hn => ?_
  split
  · exact Served.spStop e _ _ _ (List.mem_range.mp hn)
  · exact StoppedIn.refl _ e

theorem Served.holdLines (d : Dev) : Served d d.holdLines := by
  refine StoppedIn.foldl _ d fun e n _ => ?_
  split
  · exact (Stopped.stopLine ..).served
  · split
    · exact (Stopped.stopLine ..).served
    · exact StoppedIn.refl _ e

/-- The cars tracked and bridged. -/
def servoTracked (d : Dev) : Dev := (d.safCars.foldl (fun e n => e.pairTrack (d.servoT d.holder) n) d).pairBridge

/-- The disagreements of locks that stand no longer go. -/
def servoLocks (d : Dev) : Dev := d.modSaf (fun s => { s with lockDis := s.lockDis.filter d.lockDiffers })

/-- The device safe state, and the inputs. -/
def servoInputs (d : Dev) : Dev := (if d.inSafe then d.deviceStop else d).pairInputs

/-- The evaluation of every car. -/
def servoCars (d : Dev) : Dev := ((List.range 4).foldl pairCar d).pairDoors.holdLines

theorem pairServo_eq (d : Dev) : d.pairServo = if !d.safRun then d.permits else (d.servoTracked.servoLocks.servoInputs.servoCars.permits).sealEnd := rfl

theorem Served.servoTracked (d : Dev) : Served d d.servoTracked :=
  (StoppedIn.foldl _ d fun e _ hn => Served.pairTrack e (safCars_lt hn).1 _).trans (Served.pairBridge _)

theorem Served.servoInputs (d : Dev) : Served d d.servoInputs := by
  have hsafe : Served d (if d.inSafe then d.deviceStop else d) := by
    split
    · exact Served.deviceStop d
    · exact StoppedIn.refl _ d
  exact hsafe.trans (Stopped.pairInputs _).served

/-- A car above its limit is stopped and loses its permit. -/
theorem pairServo_overspeed {d : Dev} {n : Nat} (hn : n < 4) (hlen : d.saf.sp.length = 4) (hrun : d.safRun = true) (hcar : d.safCar n = true) (h0 : (d.sp n).causes = 0)
    (hv : (d.pV n).natAbs > bkOvsP d.blk n (decide (d.pV n > 0))) :
    bitN (d.pairServo.sp n).causes 5 = 1 ∧ bitN (d.pairServo.get (shp .sfc) SFC.PERMIT_MOTION) n = 0 := by
  have hold := Served.servoTracked d
  obtain ⟨e, he⟩ : ∃ e, e = d.servoTracked := ⟨_, rfl⟩
  rw [← he] at hold
  obtain ⟨r, hr⟩ : ∃ r, r = e.servoLocks.servoInputs.servoCars := ⟨_, rfl⟩
  have hsp (m : Nat) : e.servoLocks.sp m = e.sp m := by rw [servoLocks, sp, saf_modSaf, ← sp]
  have hreach : Served e.servoLocks ((List.range 4).foldl Dev.pairCar e.servoLocks.servoInputs) ∧
      bitN (((List.range 4).foldl Dev.pairCar e.servoLocks.servoInputs).sp n).causes 5 = 1 := by
    refine foldl_reach (P := fun x : Dev => Served e.servoLocks x ∧ bitN (x.sp n).causes 5 = 1) (Q := fun x => Served e.servoLocks x) (x := n) _ _
      (fun x m hm hx => hx.trans (Served.pairCar x (List.mem_range.mp hm))) (fun x m hm hx => ?_) (List.mem_range.mpr hn) (fun x hx => ?_) (Served.servoInputs _)
    · have hstep := Served.pairCar x (List.mem_range.mp hm)
      exact ⟨hx.1.trans hstep, (hstep.sp n).causes 5 hx.2⟩
    · have hblk : x.blk = d.blk := hx.cars.blk.trans hold.cars.blk
      have hpV : x.pV n = d.pV n := (hx.pV servoWs_evalReads n).trans (hold.pV servoWs_evalReads n)
      refine ⟨hx.trans (Served.pairCar x hn), pairCar_overspeed x hn ?_ ((hx.safRun servoWs_evalReads).trans ((hold.safRun servoWs_evalReads).trans hrun))
        ((hx.cars.safCar n).trans ((hold.cars.safCar n).trans hcar)) (by rw [hpV, hblk]; exact hv)⟩
      rw [hx.cars.spLen, show e.servoLocks.saf.sp.length = e.saf.sp.length from rfl, hold.cars.spLen, hlen]
      exact hn
  obtain ⟨hserved, hbit⟩ := hreach
  have hlast : Served ((List.range 4).foldl Dev.pairCar e.servoLocks.servoInputs) r := by
    rw [hr]
    exact (Stopped.pairDoors _).served.trans (Served.holdLines _)
  have hall := hserved.trans hlast
  have hc : bitN (r.sp n).causes 5 = 1 := (hlast.sp n).causes 5 hbit
  have hrescue : bitN (r.get (shp .sfc) SFC.PERMIT_RESCUE) n = 0 := by
    rcases bitN_zero_or_one (e.sp n).causes 5 with hz | ho
    · exact hall.latched n hn 5 (by rw [hsp]; exact hz) hc
    · refine hall.rescue n hn ?_
      rw [servoLocks, get_modSaf]
      exact hold.latched n hn 5 (by rw [h0]; rfl) ho
  have hperm := Permitted.permits r
  rw [pairServo_eq, hrun, if_neg (by decide), ← he, ← hr]
  exact ⟨by rw [(sealEnd_leaves _).1, hperm.causes]; exact hc, sealEnd_permit _ hn (permits_withheld r hn (.inr ⟨bit_ne_zero hc, hrescue⟩))⟩

end Dev

/-- Settles O36: the safety core pair samples, takes frames, counts silence, stops by headway and overspeed, and grants no permit outside RUN. -/
theorem pairLatchesItsStops : Obligations.PairLatchesItsStops := by
  unfold Obligations.PairLatchesItsStops
  intro s hout hshape
  have hlen := Dev.spLen_of_shaped hshape
  refine ⟨fun t hrun => ?_, fun bus ident fd dlc data k hrun hk => ?_, fun k hrun hs => ?_, fun l => ?_, fun p hrun hnat hsep h0 h1 hw hv hgap => ?_,
    fun n hrun hcar h0 hv => ?_, fun hrun => ?_⟩
  · obtain ⟨h1, h2, h3⟩ := Dev.pairSample_shows hrun hlen t.toNat
    exact ⟨_, next_of_out hout rfl, rfl, h1, fun c => h2 c c.isLt, fun p n => h3 p p.isLt n⟩
  · exact ⟨_, next_of_out hout rfl, rfl, Dev.safeFrame_stn hrun fd dlc.toNat (data.map BitVec.toNat) hk⟩
  · obtain ⟨h1, h2, h3⟩ := Dev.stationSilent_shows hrun k.isLt hs
    exact ⟨_, next_of_out hout rfl, rfl, h1, h2, h3⟩
  · split
    case isTrue h =>
      obtain ⟨h1, h2, h3, h4⟩ := Dev.lockDisagree_shows h
      exact ⟨_, next_of_out hout rfl, rfl, h1, h2, h3, h4⟩
    case isFalse h => exact next_of_out_eq hout rfl (Dev.lockDisagree_not h)
  · obtain ⟨h2, h3, h4, h5⟩ := Dev.headway_closes p.isLt hlen hrun hnat hsep h0 h1 hw hv hgap
    exact ⟨_, next_of_out hout rfl, rfl, h2, h3, h4, h5⟩
  · obtain ⟨h1, h2⟩ := Dev.pairServo_overspeed n.isLt hlen hrun hcar h0 hv
    exact ⟨_, next_of_out hout rfl, rfl, h1, h2⟩
  · have he : s.dev.pairServo = s.dev.permits := by
      rw [Dev.pairServo_eq, hrun]
      rfl
    exact ⟨_, next_of_out_eq hout rfl he, rfl, fun n => Dev.permits_withheld _ n.isLt (.inl hrun)⟩

end Sys2Proof.Machine
end

section
/-! PROOFS. The contacts, the candidate, and the seal of a safety parameter block (O40). -/
namespace Sys2Proof.Machine

open Sys2Proof

namespace Dev

/-! ### The motion of a car, by registers and copies -/

section
variable {ws : List (Nat × Fld)} {d e : Dev}

theorem vT_of_within (h : Within ws d e) (hc : clearOf ws (shp .ths) THS.CAR_VT_UMS = true) {n : Nat} (hn : n < 4) : e.vT n = d.vT n := by
  have h1 : n < THS.CAR_VT_UMS.cnt := hn
  rw [vT, vT, geti, geti, h.get _ _ _ _ (by decide) hc (by decide) h1 (by decide)]

theorem pV_of_within (h : Within ws d e) (hc : clearOf ws (shp .wir) WIR.LEASE_HOLDER = true) (hp : e.pCopy = d.pCopy) (n : Nat) : e.pV n = d.pV n := by
  rw [pV, pV, pair, pair, hp, holder, holder, on, on, h.get _ _ _ _ (by decide) hc (by decide) (by decide) (by decide)]

/-- Whether a car moves is the same where registers and copies that show it are. -/
theorem pairMoves_of_within (h : Within ws d e) (hc : [(shp .wir, WIR.LEASE_HOLDER), (shp .ths, THS.CAR_VT_UMS), (shp .ths, THS.CARS_T_GOOD),
    (shp .sfc, SFC.STATE_MODE)].all (fun x => clearOf ws x.1 x.2) = true) (hp : e.pCopy = d.pCopy) (hb : e.blk = d.blk) {n : Nat} (hn : n < 4) : e.pairMoves n = d.pairMoves n := by
  simp only [List.all_cons, List.all_nil, Bool.and_true, Bool.and_eq_true] at hc
  obtain ⟨c1, c2, c3, c4⟩ := hc
  rw [pairMoves, pairMoves, pairV, pairV, native, native, tGood, tGood, vT_of_within h c2 hn, pV_of_within h c1 hp, hb,
    h.get _ _ _ _ (by decide) c3 (by decide) (by decide) (by decide), h.get _ _ _ _ (by decide) c4 (by decide) (by decide) (by decide)]

end

/-! ### The contacts are read -/

/-- The registers that a reading of the contacts writes. -/
def readWs : List (Nat × Fld) := stopWs ++ [(shp .sfc, SFC.STATE_SEAL_SW), (shp .sfc, SFC.STATE_SEAL_EN), (shp .sfc, SFC.STATE_SEAL_MATCH)]

/-- What a reading of the contacts leaves in the safety state. -/
def readView (s : Saf) : Option Block × Block × Block × Nat × Bool × Option (Nat × Nat) := (s.active, s.copy1, s.copy2, s.pinSeal, s.pinEn, s.test)

/-- A part that differs from another in what a reading of the contacts writes. -/
structure SealRead (d e : Dev) : Prop where
  within : Within readWs d e
  view : readView e.saf = readView d.saf
  copies : e.pCopy = d.pCopy
  spLen : e.saf.sp.length = d.saf.sp.length

namespace SealRead

variable {d e x : Dev}

theorem trans (h : SealRead d e) (g : SealRead e x) : SealRead d x := ⟨h.within.trans g.within, g.view.trans h.view, g.copies.trans h.copies, g.spLen.trans h.spLen⟩

theorem blk (h : SealRead d e) : e.blk = d.blk := by rw [Dev.blk, Dev.blk, show e.saf.active = d.saf.active from (congrArg Prod.fst h.view :)]

theorem stored (h : SealRead d e) : e.saf.copy1 = d.saf.copy1 ∧ e.saf.copy2 = d.saf.copy2 :=
  ⟨(congrArg (fun v => v.2.1) h.view :), (congrArg (fun v => v.2.2.1) h.view :)⟩

theorem pins (h : SealRead d e) : e.saf.pinSeal = d.saf.pinSeal ∧ e.saf.pinEn = d.saf.pinEn :=
  ⟨(congrArg (fun v => v.2.2.2.1) h.view :), (congrArg (fun v => v.2.2.2.2.1) h.view :)⟩

theorem of_stopped (h : Stopped d e) : SealRead d e :=
  ⟨h.within.mono fun _ hw => List.mem_append_left _ hw, by rw [h.cars.saf]; rfl, h.copies.1, h.cars.spLen⟩

end SealRead

/-- A change of the contacts is recorded. -/
def sealNoted (d : Dev) : Dev :=
  if !d.saf.pinRead || (d.saf.pinSeal == d.get (shp .sfc) SFC.STATE_SEAL_SW && d.saf.pinEn == d.on (shp .sfc) SFC.STATE_SEAL_EN) then d
  else d.safNote (shp .sfc) 0 0 [d.get (shp .sfc) SFC.STATE_SEAL_SW, d.saf.pinSeal, d.saf.pinEn.toNat]

/-- The contacts as read. -/
def sealSeen (d : Dev) : Dev :=
  ((d.sealNoted.put (shp .sfc) SFC.STATE_SEAL_SW d.saf.pinSeal).putb (shp .sfc) SFC.STATE_SEAL_EN d.saf.pinEn).modSaf (fun s => { s with pinRead := true })

/-- The contacts against the block in force. -/
def sealMatched (sw sw0 : Nat) (d : Dev) : Dev :=
  (d.putb (shp .sfc) SFC.STATE_SEAL_MATCH !decide (sw ≠ d.get (shp .sfc) SFC.BLOCK_CRC_CODE)).modSaf
    (fun s => { s with sealFail := s.sealFail || decide (sw ≠ d.get (shp .sfc) SFC.BLOCK_CRC_CODE) || decide (sw ≠ sw0) })

/-- A car stops as the contacts change. -/
def sealStop (d : Dev) (n : Nat) : Dev := if (d.endRescue n).pairMoves n then (d.endRescue n).spStop n 0x13 1 else d.endRescue n

theorem readSeal_eq (d : Dev) : d.readSeal =
    if !d.sealSeen.safRun then d.sealSeen
    else if d.saf.pinSeal ≠ d.get (shp .sfc) SFC.STATE_SEAL_SW ∨ (d.saf.pinEn ∧ ¬d.on (shp .sfc) SFC.STATE_SEAL_EN) then
      (List.range 4).foldl sealStop (sealMatched d.saf.pinSeal (d.get (shp .sfc) SFC.STATE_SEAL_SW) d.sealSeen)
    else sealMatched d.saf.pinSeal (d.get (shp .sfc) SFC.STATE_SEAL_SW) d.sealSeen := rfl

theorem SealRead.sealSeen (d : Dev) : SealRead d d.sealSeen := by
  have hnoted : Within readWs d d.sealNoted ∧ d.sealNoted.saf = d.saf ∧ d.sealNoted.pCopy = d.pCopy := by
    unfold sealNoted
    split
    · exact ⟨Within.refl _ d, rfl, rfl⟩
    · exact ⟨(Within.refl _ d).note .., saf_note .., post_pCopy ..⟩
  obtain ⟨h1, h2, h3⟩ := hnoted
  refine ⟨((h1.put (by simp [readWs]) (by decide) (by decide) _ (by decide)).put (by simp [readWs]) (by decide) (by decide) _ (by decide)).modSaf _, ?_, h3, ?_⟩
  · rw [Dev.sealSeen, saf_modSaf, putb, saf_put, saf_put, h2]
    rfl
  · rw [Dev.sealSeen, saf_modSaf, putb, saf_put, saf_put, h2]

theorem SealRead.sealMatched (d : Dev) (sw sw0 : Nat) : SealRead d (sealMatched sw sw0 d) :=
  ⟨((Within.refl _ d).put (by simp [readWs]) (by decide) (by decide) _ (by decide)).modSaf _, rfl, rfl, rfl⟩

theorem Stopped.sealStop (d : Dev) {n : Nat} (hn : n < 4) : Stopped d (d.sealStop n) := by
  unfold Dev.sealStop
  split
  · exact (Stopped.endRescue d n).trans (Stopped.spStop _ _ _ _ hn)
  · exact Stopped.endRescue d n

theorem SealRead.readSeal (d : Dev) : SealRead d d.readSeal := by
  rw [readSeal_eq]
  split
  · exact SealRead.sealSeen d
  · split
    · exact (SealRead.sealSeen d).trans ((SealRead.sealMatched ..).trans (SealRead.of_stopped (StoppedIn.foldl _ _ fun e _ h => Stopped.sealStop e (List.mem_range.mp h))))
    · exact (SealRead.sealSeen d).trans (SealRead.sealMatched ..)

theorem sealSeen_sw (d : Dev) : d.sealSeen.get (shp .sfc) SFC.STATE_SEAL_SW = d.saf.pinSeal % 2 ^ 16 := by
  rw [sealSeen, get_modSaf, putb, get_put_apart _ _ (by decide) (by decide) (by decide) (by decide) (by decide) (by decide) (by decide)]
  exact get_put_same _ _ _ _ _ _ (by decide)

/-- A change of the code in RUN stops a moving car and ends its rescue. -/
theorem readSeal_stops {d : Dev} {n : Nat} (hn : n < 4) (hl : n < d.saf.sp.length) (hrun : d.safRun = true) (hcar : d.safCar n = true) (hmv : d.pairMoves n = true)
    (hsw : d.saf.pinSeal ≠ d.get (shp .sfc) SFC.STATE_SEAL_SW) : let e := d.readSeal
    bitN (e.sp n).causes 0x13 = 1 ∧ bitN (e.get (shp .sfc) SFC.PERMIT_RESCUE) n = 0 ∧ e.get (shp .sfc) SFC.STATE_SEAL_SW = d.saf.pinSeal % 2 ^ 16 ∧ e.safRun = true ∧
      e.pairMoves n = true ∧ e.safCar n = true := by
  intro e
  have hrun0 {x : Dev} (h : SealRead d x) : x.safRun = true := by
    rw [safRun, h.within.get _ _ _ _ (by decide) (by decide) (by decide) (by decide) (by decide)]
    exact hrun
  have hmove {x : Dev} (h : SealRead d x) : x.pairMoves n = true := by
    rw [pairMoves_of_within h.within (by decide) h.copies h.blk hn, hmv]
  have hcar0 {x : Dev} (h : SealRead d x) : x.safCar n = true := by rw [safCar, h.blk]; exact hcar
  have hmatch := (SealRead.sealSeen d).trans (SealRead.sealMatched d.sealSeen d.saf.pinSeal (d.get (shp .sfc) SFC.STATE_SEAL_SW))
  have he : e = (List.range 4).foldl Dev.sealStop (Dev.sealMatched d.saf.pinSeal (d.get (shp .sfc) SFC.STATE_SEAL_SW) d.sealSeen) := by
    show d.readSeal = _
    rw [readSeal_eq, hrun0 (SealRead.sealSeen d), if_neg (by decide), if_pos (.inl hsw)]
  obtain ⟨m, hm⟩ : ∃ m, m = Dev.sealMatched d.saf.pinSeal (d.get (shp .sfc) SFC.STATE_SEAL_SW) d.sealSeen := ⟨_, rfl⟩
  rw [← hm] at he hmatch
  have hstop : Stopped m e := by
    rw [he]
    exact StoppedIn.foldl _ _ fun x _ h => Stopped.sealStop x (List.mem_range.mp h)
  have hread := SealRead.readSeal d
  have hown (x : Dev) (hx : Stopped m x) : bitN ((x.sealStop n).sp n).causes 0x13 = 1 ∧ bitN ((x.sealStop n).get (shp .sfc) SFC.PERMIT_RESCUE) n = 0 := by
    have hend := hx.trans (Stopped.endRescue x n)
    have hr := hmatch.trans (SealRead.of_stopped hend)
    rw [sealStop, hmove hr, if_pos rfl]
    exact ⟨spStop_latches _ _ _ _ hn (by rw [hr.spLen]; exact hl) (hrun0 hr) (hcar0 hr), (Stopped.spStop _ _ _ _ hn).rescue n hn (rescue_endRescue x hn)⟩
  have hreach : bitN (e.sp n).causes 0x13 = 1 ∧ bitN (e.get (shp .sfc) SFC.PERMIT_RESCUE) n = 0 := by
    rw [he]
    refine foldl_reach (P := fun x : Dev => bitN (x.sp n).causes 0x13 = 1 ∧ bitN (x.get (shp .sfc) SFC.PERMIT_RESCUE) n = 0) (Q := fun x => Stopped m x) (x := n) _ m
      (fun x k hk hx => hx.trans (Stopped.sealStop x (List.mem_range.mp hk))) (fun x k hk hx => ?_) (List.mem_range.mpr hn) hown (Stopped.refl m)
    have hstep := Stopped.sealStop x (List.mem_range.mp hk)
    exact ⟨(hstep.sp n).causes 0x13 hx.1, hstep.rescue n hn hx.2⟩
  refine ⟨hreach.1, hreach.2, ?_, hrun0 hread, hmove hread, hcar0 hread⟩
  rw [hstop.within.get _ _ _ _ (by decide) (by decide) (by decide) (by decide) (by decide), hm, Dev.sealMatched, get_modSaf, putb,
    get_put_apart _ _ (by decide) (by decide) (by decide) (by decide) (by decide) (by decide) (by decide), sealSeen_sw]

/-! ### The candidate -/

section
variable {d e : Dev}

theorem candidate_congr (h : ∀ a < 3392, e.get (shp .spb) SPB.DATA_WORD 0 a = d.get (shp .spb) SPB.DATA_WORD 0 a) : e.candidate = d.candidate := by
  unfold candidate
  exact List.filterMap_congr fun a ha => by rw [h a (List.mem_range.mp ha)]

theorem candidate_of_within {ws : List (Nat × Fld)} (h : Within ws d e) (hc : clearOf ws (shp .spb) SPB.DATA_WORD = true) : e.candidate = d.candidate :=
  candidate_congr fun a ha => h.get _ _ _ _ (by decide) hc (by decide) (by decide) (by omega)

theorem candidate_empty (h : ∀ a < 3392, d.get (shp .spb) SPB.DATA_WORD 0 a = 0) : d.candidate = [] := by
  unfold candidate
  exact List.filterMap_eq_nil_iff.mpr fun a ha => by rw [h a (List.mem_range.mp ha)]; rfl

/-- The registers of the status of `SPB`. -/
def spbWs : List (Nat × Fld) := [(shp .spb, SPB.STATUS_STATE), (shp .spb, SPB.STATUS_REASON), (shp .spb, SPB.STATUS_DETAIL)]

theorem within_spbStatus (d : Dev) (st r x : Nat) : Within spbWs d (d.spbStatus st r x) :=
  (((Within.refl _ d).put (by simp [spbWs]) (by decide) (by decide) _ (by decide)).put (by simp [spbWs]) (by decide) (by decide) _ (by decide)).put (by simp [spbWs]) (by decide)
    (by decide) _ (by decide)

theorem spbStatus_shows (d : Dev) (st r x : Nat) : (d.spbStatus st r x).get (shp .spb) SPB.STATUS_STATE = st % 2 ^ 3 ∧
    (d.spbStatus st r x).get (shp .spb) SPB.STATUS_REASON = r % 2 ^ 8 ∧ (d.spbStatus st r x).saf = d.saf ∧ d.keeps (d.spbStatus st r x) [shp .spb] := by
  refine ⟨?_, ?_, rfl, ?_⟩
  · simp (disch := decide) only [spbStatus, get_put_apart]
    exact get_put_same _ _ _ _ _ _ (by decide)
  · simp (disch := decide) only [spbStatus, get_put_apart]
    exact get_put_same _ _ _ _ _ _ (by decide)
  · have hput {e : Dev} {f : Fld} (h : d.keeps e [shp .spb]) (hf : f.fits = true) (hc : 0 < f.cnt) (v : Nat) : d.keeps (e.put (shp .spb) f v) [shp .spb] :=
      (keeps_put_iff List.mem_cons_self hf hc (by decide)).mpr h
    exact hput (hput (hput (keeps_refl d _) (by decide) (by decide) st) (by decide) (by decide) r) (by decide) (by decide) x

/-- The words of a block as the candidate. -/
def dataLoaded (b : Block) (d : Dev) : Dev := (List.range 3392).foldl (fun d a => d.put (shp .spb) SPB.DATA_WORD ((rfFind a b).getD 0).toNat 0 a) d

theorem setCandidate_eq (d : Dev) (b : Block) : d.setCandidate b = ((dataLoaded b d).put (shp .spb) SPB.CAND_ID_ID (bkId b)).spbStatus 0 0 0 := rfl

theorem dataLoaded_shows (d : Dev) (b : Block) : d.keeps (dataLoaded b d) [shp .spb] ∧
    ∀ a < 3392, (dataLoaded b d).get (shp .spb) SPB.DATA_WORD 0 a = ((rfFind a b).getD 0).toNat := by
  refine ⟨foldl_keep (P := fun e : Dev => d.keeps e [shp .spb]) _ d (fun e a ha he => ?_) (keeps_refl d _), fun a ha => ?_⟩
  · have := List.mem_range.mp ha
    exact (keeps_put_iff List.mem_cons_self (by decide) (by decide) (by omega)).mpr he
  · refine foldl_reach (P := fun e : Dev => e.get (shp .spb) SPB.DATA_WORD 0 a = ((rfFind a b).getD 0).toNat) (Q := fun _ => True) (x := a) _ d (fun _ _ _ _ => trivial)
      (fun e c _ he => ?_) (List.mem_range.mpr ha) (fun e _ => ?_) trivial
    · by_cases hca : c = a
      · rw [hca]
        exact get_put_bv e (shp .spb) SPB.DATA_WORD ((rfFind a b).getD 0) 0 a (by decide) (by decide)
      · rw [get_put_tab _ _ hca, he]
    · exact get_put_bv e (shp .spb) SPB.DATA_WORD ((rfFind a b).getD 0) 0 a (by decide) (by decide)

theorem setCandidate_shows (d : Dev) (b : Block) : let e := d.setCandidate b
    d.keeps e [shp .spb] ∧ (∀ a < 3392, e.get (shp .spb) SPB.DATA_WORD 0 a = ((rfFind a b).getD 0).toNat) ∧ e.get (shp .spb) SPB.CAND_ID_ID = bkId b % 2 ^ 32 ∧
      e.get (shp .spb) SPB.STATUS_STATE = 0 := by
  intro e
  obtain ⟨h1, h2⟩ := dataLoaded_shows d b
  obtain ⟨m, hm⟩ : ∃ m, m = dataLoaded b d := ⟨_, rfl⟩
  obtain ⟨s1, -, -, s4⟩ := spbStatus_shows (m.put (shp .spb) SPB.CAND_ID_ID (bkId b)) 0 0 0
  have hst := within_spbStatus (m.put (shp .spb) SPB.CAND_ID_ID (bkId b)) 0 0 0
  have he : e = (m.put (shp .spb) SPB.CAND_ID_ID (bkId b)).spbStatus 0 0 0 := by rw [hm]; exact setCandidate_eq d b
  rw [← hm] at h1 h2
  rw [he]
  refine ⟨keeps_trans ((keeps_put_iff List.mem_cons_self (by decide) (by decide) (by decide)).mpr h1) s4, fun a ha => ?_, ?_, s1⟩
  · rw [hst.get _ _ _ _ (by decide) (by decide) (by decide) (by decide) (by omega),
      get_put_apart _ _ (by decide) (by decide) (by decide) (by decide) (by decide) (by decide) (by omega), h2 a ha]
  · rw [hst.get _ _ _ _ (by decide) (by decide) (by decide) (by decide) (by decide)]
    exact get_put_same _ _ _ _ _ _ (by decide)

/-- The candidate's identifier, as its word is written. -/
def candId (v a : Nat) (d : Dev) : Dev := if a = 3 then d.put (shp .spb) SPB.CAND_ID_ID v else d

/-- A word of the candidate is written at its place, which advances. -/
theorem spbData_shows {d : Dev} (v : Word) (ha : d.get (shp .spb) SPB.ADDR_WORD < 3392) : let e := d.spbData v.toNat
    let a := d.get (shp .spb) SPB.ADDR_WORD
    e.get (shp .spb) SPB.DATA_WORD 0 a = v.toNat ∧ e.get (shp .spb) SPB.ADDR_WORD = (if a = 3391 then 0 else a + 1) ∧ e.get (shp .spb) SPB.STATUS_STATE = 0 ∧
      d.keeps e [shp .spb] := by
  intro e a
  obtain ⟨m, hm⟩ : ∃ m, m = (d.put (shp .spb) SPB.DATA_WORD v.toNat 0 a).put (shp .spb) SPB.ADDR_WORD (if a = 3391 then 0 else a + 1) := ⟨_, rfl⟩
  have he : e = (candId v.toNat a m).spbStatus 0 0 0 := by rw [hm]; rfl
  obtain ⟨s1, -, -, s4⟩ := spbStatus_shows (candId v.toNat a m) 0 0 0
  have hst := within_spbStatus (candId v.toNat a m) 0 0 0
  have hid (f : Fld) (t : Nat) (h : SPB.CAND_ID_ID.apart f = true) (hf : f.fits = true) (hc : 0 < f.cnt) (ht : t < 65536) :
      (candId v.toNat a m).get (shp .spb) f 0 t = m.get (shp .spb) f 0 t := by
    unfold candId
    split
    · exact get_put_apart _ _ h (by decide) hf (by decide) hc (by decide) ht
    · rfl
  have hkeep : d.keeps (candId v.toNat a m) [shp .spb] := by
    have h0 : d.keeps m [shp .spb] := by
      rw [hm]
      exact (keeps_put_iff List.mem_cons_self (by decide) (by decide) (by decide)).mpr
        ((keeps_put_iff List.mem_cons_self (by decide) (by decide) (by omega)).mpr (keeps_refl d _))
    unfold candId
    split
    · exact (keeps_put_iff List.mem_cons_self (by decide) (by decide) (by decide)).mpr h0
    · exact h0
  rw [he]
  refine ⟨?_, ?_, s1, keeps_trans hkeep s4⟩
  · rw [hst.get _ _ _ _ (by decide) (by decide) (by decide) (by decide) (by omega), hid _ _ (by decide) (by decide) (by decide) (by omega), hm,
      get_put_apart _ _ (by decide) (by decide) (by decide) (by decide) (by decide) (by decide) (by omega)]
    exact get_put_bv d (shp .spb) SPB.DATA_WORD v 0 a (by decide) (by decide)
  · rw [hst.get _ _ _ _ (by decide) (by decide) (by decide) (by decide) (by decide), hid _ _ (by decide) (by decide) (by decide) (by decide), hm,
      get_put_same _ _ _ _ _ _ (by decide)]
    refine Nat.mod_eq_of_lt (lt_of_lt_of_le (b := 3392) ?_ (by decide))
    split <;> omega

end

end Dev

end Sys2Proof.Machine
end

section
/-! PROOFS. FAULT and the entry of RUN with a safety parameter block (O40). -/
namespace Sys2Proof.Machine

open Sys2Proof

namespace Dev

/-! ### FAULT -/

theorem allOff_of_within {ws : List (Nat × Fld)} {d e : Dev} (h : Within ws d e)
    (hc : (clearOf ws (shp .sio) SIO.SO_ST_HS && clearOf ws (shp .sio) SIO.SO_ST_LS) = true) : e.allOff = d.allOff := by
  obtain ⟨c1, c2⟩ := Bool.and_eq_true_iff.mp hc
  have hoff (k : Nat) (hk : k < 8) : e.pairOff k = d.pairOff k := by
    have h1 : k < SIO.SO_ST_HS.cnt := hk
    have h2 : k < SIO.SO_ST_LS.cnt := hk
    rw [pairOff, pairOff, h.get _ _ _ _ (by decide) c1 (by decide) h1 (by decide), h.get _ _ _ _ (by decide) c2 (by decide) h2 (by decide)]
  rw [allOff, allOff, Bool.eq_iff_iff, List.all_eq_true, List.all_eq_true]
  exact forall₂_congr fun k hk => by rw [hoff k (List.mem_range.mp hk)]

/-- FAULT is entered with every output off and no permit. -/
theorem safFault_shows {d : Dev} (h : d.get (shp .sfc) SFC.STATE_CODE ≠ 5) : let e := d.safFault
    e.get (shp .sfc) SFC.STATE_CODE = 5 ∧ e.allOff = true ∧ ∀ n < 4, bitN (e.get (shp .sfc) SFC.PERMIT_MOTION) n = 0 := by
  intro e
  obtain ⟨x, w, he⟩ : ∃ x w, d.safFault = if d.get (shp .sfc) SFC.STATE_CODE == 5 then d else
      ((x.leaveRun 5).put (shp .sfc) SFC.FAULT_CODE (w % 256)).put (shp .sfc) SFC.FAULT_DETAIL (w / 256) := ⟨d.fresh.2, d.fresh.1.toNat, rfl⟩
  have he' : e = ((x.leaveRun 5).put (shp .sfc) SFC.FAULT_CODE (w % 256)).put (shp .sfc) SFC.FAULT_DETAIL (w / 256) :=
    he.trans (if_neg (by simpa using h))
  rw [he']
  refine ⟨?_, ?_, fun n hn => ?_⟩
  · simp (disch := decide) only [get_put_apart]
    exact leaveRun_code x (by decide)
  · have hw : Within [(shp .sfc, SFC.FAULT_CODE), (shp .sfc, SFC.FAULT_DETAIL)] (x.leaveRun 5)
        (((x.leaveRun 5).put (shp .sfc) SFC.FAULT_CODE (w % 256)).put (shp .sfc) SFC.FAULT_DETAIL (w / 256)) :=
      ((Within.refl _ _).put (by simp) (by decide) (by decide) _ (by decide)).put (by simp) (by decide) (by decide) _ (by decide)
    rw [allOff_of_within hw (by decide), leaveRun_off x (by decide) (by decide)]
  · simp (disch := decide) only [get_put_apart]
    exact leaveRun_permit x (by decide) (by decide) hn

/-! ### The entry of RUN -/

/-- The registers that the entry of RUN writes beside the state and the block in force. -/
def enterWs : List (Nat × Fld) := leaveWs ++ [(shp .ths, THS.IN_PAIR_FLT), (shp .sfc, SFC.STOPS_PAIR_FLT), (shp .ths, THS.PR_ST_TRIP)]

theorem leave_mem_enterWs {w : Nat × Fld} (h : w ∈ leaveWs) : w ∈ enterWs := List.mem_append_left _ h

/-- A part that differs from another in what the entry of RUN writes: the block in force is the same. -/
structure Entered (d e : Dev) : Prop where
  within : Within enterWs d e
  active : e.saf.active = d.saf.active
  spLen : e.saf.sp.length = d.saf.sp.length

namespace Entered

variable {d e x : Dev}

theorem refl (d : Dev) : Entered d d := ⟨Within.refl _ d, rfl, rfl⟩

theorem trans (h : Entered d e) (g : Entered e x) : Entered d x := ⟨h.within.trans g.within, g.active.trans h.active, g.spLen.trans h.spLen⟩

theorem foldl {α : Type} {f : Dev → α → Dev} : ∀ (l : List α) (d : Dev), (∀ d, ∀ y ∈ l, Entered d (f d y)) → Entered d (l.foldl f d)
  | [], d, _ => refl d
  | y :: l, d, hf => (hf d y List.mem_cons_self).trans (foldl l _ fun d z hz => hf d z (List.mem_cons_of_mem _ hz))

theorem of_saf (hw : Within enterWs d e) (hs : e.saf = d.saf) : Entered d e := ⟨hw, by rw [hs], by rw [hs]⟩

theorem put {p : Nat} {f : Fld} (hm : (p, f) ∈ enterWs) (hf : f.fits = true) {i : Nat} (hi : i < f.cnt) (d : Dev) (v : Nat) : Entered d (d.put p f v i) :=
  of_saf ((Within.refl _ d).put hm hf hi v (by decide)) rfl

theorem idlePut {f : Fld} (hm : (shp .ths, f) ∈ idleWs) (hf : f.fits = true) {i : Nat} (hi : i < f.cnt) (d : Dev) (v : Nat) : Entered d (d.put (shp .ths) f v i) :=
  put (leave_mem_enterWs (idle_mem_leaveWs hm)) hf hi d v

theorem stopPut {p : Nat} {f : Fld} (hm : (p, f) ∈ stopWs) (hf : f.fits = true) {i : Nat} (hi : i < f.cnt) (d : Dev) (v : Nat) : Entered d (d.put p f v i) :=
  put (leave_mem_enterWs (stop_mem_leaveWs hm)) hf hi d v

theorem of_permitted (h : Permitted d e) : Entered d e :=
  ⟨h.within.mono fun _ hw => leave_mem_enterWs (permit_mem_leaveWs hw), by rw [h.cars.saf], h.cars.spLen⟩

theorem modSp (d : Dev) (n : Nat) (g : SafCar → SafCar) : Entered d (d.modSp n g) := ⟨(Within.refl _ d).modSp n g, rfl, (carsOnly_modSp d n g).spLen⟩

theorem modTh (d : Dev) (n : Nat) (g : ThCar → ThCar) : Entered d (d.modTh n g) := ⟨(Within.refl _ d).modTh n g, rfl, rfl⟩

theorem modMpg (d : Dev) (h : HalfId) (n : Nat) (g : Mpg → Mpg) : Entered d (d.modMpg h n g) := of_saf ((Within.refl _ d).modMpg h n g) (modHalf_saf ..)

theorem note (d : Dev) (p cls code det : Nat) (words : List Nat) : Entered d (d.note p cls code det words) := of_saf ((Within.refl _ d).note ..) (saf_note ..)

end Entered

/-- The cars forget their stops. -/
def forgotten (d : Dev) (n : Nat) : Dev :=
  (d.modSp n (fun c =>
    let slipped := bitN c.causes 0xD == 1
    { c with causes := 0, s1 := none, hw := false, chain := 0, slipP := if slipped then none else c.slipP,
             slipT := if slipped then none else c.slipT })).modTh n (fun t => { t with causes := 0, offReq := false, chain := 0 })

/-- The registers of a car's stops, as reset. -/
def stopsCleared (d : Dev) (n : Nat) : Dev :=
  ((((((d.putBit (shp .sfc) SFC.STOPS_CAT0 n false).putBit (shp .sfc) SFC.STOPS_CAT1 n false).put (shp .sio) SIO.CAR_RUN_CAUSE 0 n).put (shp .sio) SIO.CAR_RUN_S1 0 n).put
    (shp .sio) SIO.CAR_ENV_UMS 0 n).put (shp .ths) THS.CAR_ST_CAUSE 0 n).putBit (shp .ths) THS.CARS_TRIP n false

/-- The stop line of a generator, as reset. -/
def lineCleared (n : Nat) (d : Dev) (h : HalfId) : Dev := d.modMpg h n (fun m => { m with stopLine := 0 })

theorem clearCar_eq (d : Dev) (n : Nat) : d.clearCar n = ((d.forgotten n).stopsCleared n).both (lineCleared n) := rfl

section
variable (d : Dev) {n : Nat} (hn : n < 4)
include hn

theorem Entered.stopsCleared : Entered d (d.stopsCleared n) := by
  have hput {p : Nat} {f : Fld} (hm : (p, f) ∈ stopWs) (hf : f.fits = true) {i : Nat} (hi : i < f.cnt) {e : Dev} (v : Nat) (h : Entered d e) : Entered d (e.put p f v i) :=
    h.trans (Entered.stopPut hm hf hi e v)
  exact hput (f := THS.CARS_TRIP) (by simp [stopWs]) (by decide) (i := 0) (by decide) _ (hput (f := THS.CAR_ST_CAUSE) (by simp [stopWs]) (by decide) (i := n) hn _
    (hput (f := SIO.CAR_ENV_UMS) (by simp [stopWs]) (by decide) (i := n) hn _ (hput (f := SIO.CAR_RUN_S1) (by simp [stopWs]) (by decide) (i := n) hn _
      (hput (f := SIO.CAR_RUN_CAUSE) (by simp [stopWs]) (by decide) (i := n) hn _ (hput (f := SFC.STOPS_CAT1) (by simp [stopWs]) (by decide) (i := 0) (by decide) _
        (hput (f := SFC.STOPS_CAT0) (by simp [stopWs]) (by decide) (i := 0) (by decide) _ (Entered.refl d)))))))

theorem Entered.clearCar : Entered d (d.clearCar n) := by
  rw [clearCar_eq]
  exact (Entered.modSp d n _).trans ((Entered.modTh _ n _).trans ((Entered.stopsCleared _ hn).trans ((Entered.modMpg _ .a n _).trans (Entered.modMpg _ .b n _))))

omit hn in
/-- One car as RUN begins. -/
def enterCar (d : Dev) (n : Nat) : Dev :=
  (((((d.clearCar n).put (shp .ths) THS.CAR_XT_UM 0 n).put (shp .ths) THS.CAR_VT_UMS 0 n).put (shp .ths) THS.CAR_ST_BIN 0 n).put (shp .sio) SIO.CAR_RUN_BRK_ON 0 n).put
    (shp .sio) SIO.CAR_RUN_STO_ON 0 n

theorem Entered.enterCar : Entered d (d.enterCar n) :=
  (Entered.clearCar d hn).trans ((Entered.idlePut (by simp [idleWs]) (by decide) (i := n) hn _ _).trans ((Entered.idlePut (by simp [idleWs]) (by decide) (i := n) hn _ _).trans
    ((Entered.idlePut (by simp [idleWs]) (by decide) (i := n) hn _ _).trans ((Entered.stopPut (by simp [stopWs]) (by decide) (i := n) hn _ _).trans
      (Entered.stopPut (by simp [stopWs]) (by decide) (i := n) hn _ _)))))

omit hn in
/-- A car stopped by START. -/
def startStop (d : Dev) (n : Nat) : Dev :=
  ((d.modSp n (fun c => { c with causes := 2 ^ 0x15 })).put (shp .sio) SIO.CAR_RUN_CAUSE 0x15 n).safNote (shp .sfc) 0x15 n

theorem Entered.startStop : Entered d (d.startStop n) :=
  (Entered.modSp d n _).trans ((Entered.stopPut (by simp [stopWs]) (by decide) (i := n) hn _ _).trans (Entered.note ..))

end

section
variable (d : Dev)

theorem sp_startStop (n m : Nat) : (d.startStop n).sp m = if m = n ∧ n < d.saf.sp.length then { d.sp n with causes := 2 ^ 0x15 } else d.sp m := by
  rw [sp, startStop, safNote, saf_note, saf_put, ← sp, sp_modSp]

/-- Theath's modes as RUN begins. -/
def enterModes (d : Dev) : Dev :=
  (((d.put (shp .ths) THS.MODE_BLOCK_OK 1).putb (shp .ths) THS.MODE_NATIVE d.native).putb (shp .ths) THS.MODE_FOLLOWER (!d.native)).put (shp .ths) THS.TP_BLANK 0

/-- The test pulse lines and faults as RUN begins. -/
def enterLines (b : Block) (d : Dev) : Dev :=
  ((((d.put (shp .ths) THS.TP_OVL 0).put (shp .ths) THS.TP_LVL ((List.range 4).map (fun k => if bkTpW b k = 0 then 0 else 2 ^ k)).sum).put (shp .ths) THS.IN_PAIR_FLT 0).put
    (shp .sfc) SFC.STOPS_PAIR_FLT 0).put (shp .ths) THS.CARS_T_GOOD 0

/-- Every car and gap as RUN begins. -/
def enterCars (d : Dev) : Dev := (List.range 4).foldl enterCar ((List.range 3).foldl (fun d p => d.put (shp .ths) THS.PR_ST_TRIP 0 p) d)

/-- Cars and channels anew. -/
def enterReset (b : Block) (ch : Nat) (d : Dev) : Dev :=
  d.modSaf (fun s => { Saf.init with active := some b, copy1 := s.copy1, copy2 := s.copy2, thLvl := ch, spLvl := ch, hbRun := s.hbRun,
                                     deviceSafe := s.deviceSafe, test := s.test, pinSeal := s.pinSeal, pinEn := s.pinEn, pinRead := s.pinRead })

/-- The state and the block as shown. -/
def enterShown (b : Block) (d : Dev) : Dev := ((d.put (shp .sfc) SFC.STATE_CODE 3).put (shp .sfc) SFC.STATE_SEAL_MATCH 1).showBlock (some b)

/-- The demands, doors, outputs and permits as RUN begins. -/
def enterEnd (ch : Nat) (d : Dev) : Dev := ((((d.modSaf (fun s => { s with spAct := d.demMask ch })).showDem.safNote (shp .sfc) 3 0).showDoors).outUpdate).permits

/-- Every enabled car stopped by START. -/
def enterStops (d : Dev) : Dev := d.safCars.foldl startStop d

theorem enterRun_eq (b : Block) : d.enterRun b = enterEnd (d.get (shp .ths) THS.IN_CH) (enterLines b (enterReset b (d.get (shp .ths) THS.IN_CH)
    ((enterShown b d).showSio b)).enterModes).enterCars.enterStops := rfl

theorem Entered.enterModes : Entered d d.enterModes := by
  unfold Dev.enterModes
  exact (Entered.idlePut (by simp [idleWs]) (by decide) (by decide) d _).trans ((Entered.idlePut (by simp [idleWs]) (by decide) (by decide) _ _).trans
    ((Entered.idlePut (by simp [idleWs]) (by decide) (by decide) _ _).trans (Entered.idlePut (by simp [idleWs]) (by decide) (by decide) _ _)))

theorem Entered.enterLines (b : Block) : Entered d (enterLines b d) := by
  unfold Dev.enterLines
  exact (Entered.idlePut (by simp [idleWs]) (by decide) (by decide) d _).trans ((Entered.idlePut (by simp [idleWs]) (by decide) (by decide) _ _).trans
    ((Entered.put (by simp [enterWs]) (by decide) (by decide) _ _).trans ((Entered.put (by simp [enterWs]) (by decide) (by decide) _ _).trans
      (Entered.idlePut (by simp [idleWs]) (by decide) (by decide) _ _))))

theorem Entered.enterCars : Entered d d.enterCars :=
  (Entered.foldl _ d fun e p hp => Entered.put (by simp [enterWs]) (by decide) (i := p) (List.mem_range.mp hp) e 0).trans
    (Entered.foldl _ _ fun e n hn => Entered.enterCar e (List.mem_range.mp hn))

theorem within_showDem : Within enterWs d d.showDem := by
  have hmem : (shp .ths, THS.IN_PAIR_ACT) ∈ enterWs := leave_mem_enterWs (idle_mem_leaveWs (by simp [idleWs]))
  unfold showDem
  split
  · exact (Within.refl _ d).put hmem (by decide) (by decide) _ (by decide)
  · exact (Within.refl _ d).put hmem (by decide) (by decide) _ (by decide)

/-- The end of the entry leaves every latched cause. -/
theorem enterEnd_leaves (ch : Nat) : Entered d (enterEnd ch d) ∧ ∀ m, ((enterEnd ch d).sp m).causes = (d.sp m).causes := by
  obtain ⟨m, hm⟩ : ∃ m, m = d.modSaf (fun s => { s with spAct := d.demMask ch }) := ⟨_, rfl⟩
  have hmsp (k : Nat) : m.sp k = d.sp k := by
    rw [hm]
    rfl
  have hmod : Entered d m := hm ▸ ⟨(Within.refl _ d).modSaf _, rfl, rfl⟩
  obtain ⟨x, hx⟩ : ∃ x, x = (m.showDem.safNote (shp .sfc) 3 0).showDoors := ⟨_, rfl⟩
  have hxsaf : x.saf = m.saf := by
    rw [hx, ← (showDem_leaves m).2.1]
    exact saf_note ..
  have hxw : Within enterWs m x := by
    rw [hx]
    exact ((within_showDem m).note ..).same rfl rfl
  have hend := (Permitted.outUpdate x).trans (Permitted.permits _)
  have he : enterEnd ch d = x.outUpdate.permits := by rw [hx, hm]; rfl
  rw [he]
  refine ⟨hmod.trans ((Entered.of_saf hxw hxsaf).trans (Entered.of_permitted hend)), fun k => ?_⟩
  rw [hend.causes, sp, hxsaf, ← sp, hmsp]

/-- RUN is entered with the block in force and every enabled car stopped by START. -/
theorem enterRun_shows (b : Block) : let e := d.enterRun b
    e.get (shp .sfc) SFC.STATE_CODE = 3 ∧ e.saf.active = some b ∧ e.get (shp .sfc) SFC.BLOCK_ID_ID = bkId b % 2 ^ 32 ∧ e.get (shp .sfc) SFC.STATE_SEAL_MATCH = 1 ∧
      ∀ n < 4, bkCarOn b n = true → (e.sp n).causes = 2 ^ 0x15 := by
  intro e
  obtain ⟨m0, hm0⟩ : ∃ m, m = enterReset b (d.get (shp .ths) THS.IN_CH) ((enterShown b d).showSio b) := ⟨_, rfl⟩
  obtain ⟨m1, hm1⟩ : ∃ m, m = (enterLines b m0.enterModes).enterCars := ⟨_, rfl⟩
  have he : e = enterEnd (d.get (shp .ths) THS.IN_CH) m1.enterStops := by rw [hm1, hm0]; exact enterRun_eq d b
  have hshown : Within enterWs (enterShown b d) m0 := by
    rw [hm0]
    exact ((Left.showSio (enterShown b d) b).within.mono fun _ => leave_mem_enterWs).modSaf _
  have hact0 : m0.saf.active = some b := by rw [hm0]; rfl
  have hlen0 : m0.saf.sp.length = 4 := by rw [hm0]; rfl
  have h1 : Entered m0 m1 := hm1 ▸ (Entered.enterModes m0).trans ((Entered.enterLines _ b).trans (Entered.enterCars _))
  have hstep : ∀ x, ∀ n ∈ m1.safCars, Entered x (x.startStop n) := fun x n hn => Entered.startStop x (safCars_lt hn).1
  have h2 : Entered m1 m1.enterStops := Entered.foldl _ m1 hstep
  obtain ⟨h3, h4⟩ := enterEnd_leaves m1.enterStops (d.get (shp .ths) THS.IN_CH)
  have hall : Entered m0 e := he ▸ h1.trans (h2.trans h3)
  have hget (f : Fld) (hc : clearOf enterWs (shp .sfc) f = true) (hf : f.fits = true) (hi : 0 < f.cnt) : e.get (shp .sfc) f = (enterShown b d).get (shp .sfc) f :=
    (hshown.trans hall.within).get _ _ _ _ (by decide) hc hf hi (by decide)
  refine ⟨?_, hall.active.trans hact0, ?_, ?_, fun n hn hb => ?_⟩
  · rw [hget _ (by decide) (by decide) (by decide), enterShown, (within_showBlock _ _).get _ _ _ _ (by decide) (by decide) (by decide) (by decide) (by decide),
      get_put_apart _ _ (by decide) (by decide) (by decide) (by decide) (by decide) (by decide) (by decide)]
    exact get_put_same _ _ _ _ _ _ (by decide)
  · rw [hget _ (by decide) (by decide) (by decide), enterShown, showBlock]
    simp (disch := decide) only [get_put_apart]
    exact get_put_same _ _ _ _ _ _ (by decide)
  · rw [hget _ (by decide) (by decide) (by decide), enterShown, (within_showBlock _ _).get _ _ _ _ (by decide) (by decide) (by decide) (by decide) (by decide)]
    exact get_put_same _ _ _ _ _ _ (by decide)
  · have hact1 : m1.saf.active = some b := h1.active.trans hact0
    have hcar : n ∈ m1.safCars := by
      refine List.mem_filter.mpr ⟨List.mem_range.mpr hn, ?_⟩
      rw [safCar, blk, hact1]
      exact hb
    rw [he, h4]
    refine foldl_reach (P := fun x : Dev => (x.sp n).causes = 2 ^ 0x15) (Q := fun x => Entered m1 x) (x := n) _ m1 (fun x k hk hx => hx.trans (hstep x k hk))
      (fun x k _ hx => ?_) hcar (fun x hx => ?_) (Entered.refl m1)
    · rw [sp_startStop]
      split
      · rfl
      · exact hx
    · rw [sp_startStop, if_pos ⟨rfl, by rw [hx.spLen, h1.spLen, hlen0]; exact hn⟩]

end

/-! ### START -/

section
variable {d : Dev} (h0 : d.get (shp .sfc) SFC.STATE_CODE = 0) (sw : Nat) (en : Bool)

/-- The contacts as START reads them. -/
def startRead (sw : Nat) (en : Bool) (d : Dev) : Dev := ((d.putb (shp .sfc) SFC.STATE_MODE (!d.strapNative)).sealPins sw en).readSeal

include h0

theorem startRead_leaves : (startRead sw en d).saf.copy1 = d.saf.copy1 ∧ (startRead sw en d).saf.copy2 = d.saf.copy2 ∧ ∀ b, (startRead sw en d).loadWhy b = d.loadWhy b := by
  obtain ⟨m, hm⟩ : ∃ m, m = (d.putb (shp .sfc) SFC.STATE_MODE (!d.strapNative)).sealPins sw en := ⟨_, rfl⟩
  have hread := SealRead.readSeal m
  have hmget (p : Nat) (f : Fld) (i t : Nat) (h : p ≠ shp .sfc) (hf : f.fits = true) (hi : i < f.cnt) (ht : t < 65536) : m.get p f i t = d.get p f i t := by
    rw [hm]
    exact get_put_other _ _ h.symm (by decide) hf (by decide) hi (by decide) ht
  have hget (p : Nat) (f : Fld) (h : p ≠ shp .sfc) (hs : p ≠ shp .slt) (hc : clearOf readWs p f = true) (hf : f.fits = true) (hi : 0 < f.cnt) :
      m.readSeal.get p f = d.get p f := by
    rw [hread.within.get _ _ _ _ hs hc hf hi (by decide), hmget _ _ _ _ h hf hi (by decide)]
  have hrun : m.sealSeen.safRun = false := by
    rw [safRun, (SealRead.sealSeen m).within.get _ _ _ _ (by decide) (by decide) (by decide) (by decide) (by decide), hm]
    show ((d.putb (shp .sfc) SFC.STATE_MODE (!d.strapNative)).get (shp .sfc) SFC.STATE_CODE == 3) = false
    rw [putb, get_put_apart _ _ (by decide) (by decide) (by decide) (by decide) (by decide) (by decide) (by decide), h0]
    rfl
  have hkeys : m.readSeal.keys = d.keys := by
    have hnoted : m.sealNoted.keys = m.keys := by
      unfold sealNoted
      split
      · rfl
      · exact post_keys ..
    rw [readSeal_eq, hrun, if_pos (show (!false) = true from rfl)]
    show m.sealNoted.keys = d.keys
    rw [hnoted, hm]
    rfl
  have he : startRead sw en d = m.readSeal := by rw [hm]; rfl
  rw [he]
  refine ⟨hread.stored.1.trans (by rw [hm]; rfl), hread.stored.2.trans (by rw [hm]; rfl), fun b => ?_⟩
  rw [loadWhy, loadWhy, hkeys, variantCars, variantCars, strapNative, strapNative, get64, get64, hget _ _ (by decide) (by decide) (by decide) (by decide) (by decide),
    hget _ _ (by decide) (by decide) (by decide) (by decide) (by decide), hget _ _ (by decide) (by decide) (by decide) (by decide) (by decide),
    hget _ _ (by decide) (by decide) (by decide) (by decide) (by decide)]

theorem safStart_failed : d.safStart false sw en = d.safFault := by
  rw [safStart, if_neg (not_not.mpr h0)]
  rfl

theorem safStart_first (hw : d.loadWhy d.saf.copy1 = none) (hc : sealCode d.saf.copy1 = sw) : d.safStart true sw en = (startRead sw en d).enterRun d.saf.copy1 := by
  obtain ⟨r1, -, r3⟩ := startRead_leaves h0 sw en
  rw [safStart, if_neg (not_not.mpr h0), if_neg (by decide)]
  dsimp only
  rw [← startRead, r1, if_pos ⟨by rw [r3, hw]; rfl, hc⟩]

theorem safStart_none (hw1 : (d.loadWhy d.saf.copy1).isSome = true) (hw2 : (d.loadWhy d.saf.copy2).isSome = true) :
    (d.safStart true sw en).get (shp .sfc) SFC.STATE_CODE = 1 := by
  obtain ⟨r1, r2, r3⟩ := startRead_leaves h0 sw en
  have hn1 : ((startRead sw en d).loadWhy (startRead sw en d).saf.copy1).isNone = false := by rw [r1, r3]; simpa using hw1
  have hn2 : ((startRead sw en d).loadWhy (startRead sw en d).saf.copy2).isNone = false := by rw [r2, r3]; simpa using hw2
  rw [safStart, if_neg (not_not.mpr h0), if_neg (by decide)]
  dsimp only
  rw [← startRead, if_neg (by rw [hn1]; simp), if_neg (by rw [hn2]; simp), if_neg (c := _ ∨ _) (by rw [hn1, hn2]; simp), safNote,
    get_note_other _ _ _ _ _ (by decide) (by decide) (by decide) (by decide), (within_showBlock _ _).get _ _ _ _ (by decide) (by decide) (by decide) (by decide) (by decide)]
  exact get_put_same _ _ _ _ _ _ (by decide)

end

end Dev

end Sys2Proof.Machine
end

section
/-! PROOFS. SEAL, verification and commit of a safety parameter block, and O40. -/
namespace Sys2Proof.Machine

open Sys2Proof

namespace Dev

/-! ### Refusals -/

/-- What a refusal shows before permits are evaluated again. -/
def refusalShown (r x : Nat) (d : Dev) : Dev := ((d.err (shp .spb) r x).lastRefusal r x).spbStatus 3 r 0

/-- The registers of a refusal. -/
def refusalWs : List (Nat × Fld) := errWs (shp .spb) ++ [(shp .sfc, SFC.FAULT_CODE), (shp .sfc, SFC.FAULT_DETAIL)] ++ spbWs

theorem spb_mem_refusalWs {w : Nat × Fld} (h : w ∈ spbWs) : w ∈ refusalWs := List.mem_append_right _ h

theorem lastRefusal_shows (d : Dev) (why x : Nat) : (d.lastRefusal why x).get (shp .sfc) SFC.FAULT_CODE = why % 2 ^ 8 := by
  rw [lastRefusal, get_put_apart _ _ (by decide) (by decide) (by decide) (by decide) (by decide) (by decide) (by decide)]
  exact get_put_same _ _ _ _ _ _ (by decide)

theorem within_lastRefusal {d e : Dev} (h : Within refusalWs d e) (why x : Nat) : Within refusalWs d (e.lastRefusal why x) :=
  (h.put (by simp [refusalWs]) (by decide) (by decide) why (by decide)).put (by simp [refusalWs]) (by decide) (by decide) x (by decide)

theorem refusalShown_shows (r x : Nat) (d : Dev) : let e := refusalShown r x d
    Within refusalWs d e ∧ e.saf = d.saf ∧ e.get (shp .spb) SPB.STATUS_STATE = 3 ∧ e.get (shp .spb) SPB.STATUS_REASON = r % 2 ^ 8 ∧
      e.get (shp .sfc) SFC.FAULT_CODE = r % 2 ^ 8 := by
  intro e
  obtain ⟨s1, s2, s3, -⟩ := spbStatus_shows ((d.err (shp .spb) r x).lastRefusal r x) 3 r 0
  have hst := within_spbStatus ((d.err (shp .spb) r x).lastRefusal r x) 3 r 0
  refine ⟨(within_lastRefusal ((Within.refl _ d).err (fun w h => List.mem_append_left _ (List.mem_append_left _ h)) r x) r x).trans (hst.mono fun _ => spb_mem_refusalWs), ?_, s1, s2, ?_⟩
  · rw [show e.saf = _ from s3, lastRefusal, saf_put, saf_put, saf_err]
  · show (((d.err (shp .spb) r x).lastRefusal r x).spbStatus 3 r 0).get _ _ = _
    rw [hst.get _ _ _ _ (by decide) (by decide) (by decide) (by decide) (by decide), lastRefusal_shows]

/-! ### SEAL -/

theorem spbSeal_unsealed {d : Dev} (g : Nat) (h1 : 1 ≤ d.get (shp .sfc) SFC.STATE_CODE) (h3 : d.get (shp .sfc) SFC.STATE_CODE ≤ 3)
    (h2 : d.readSeal.get (shp .spb) SPB.STATUS_STATE = 2) (hen : d.readSeal.saf.pinEn = false) :
    d.spbSeal g = (refusalShown cSF_SEAL_EN 0 d.readSeal).permits.sealEnd := by
  have hst : ¬ (d.get (shp .sfc) SFC.STATE_CODE ≠ 1 ∧ d.get (shp .sfc) SFC.STATE_CODE ≠ 2 ∧ d.get (shp .sfc) SFC.STATE_CODE ≠ 3) := by omega
  rw [spbSeal]
  dsimp only
  rw [if_neg hst, h2, hen, if_neg (by decide), if_pos (by decide)]
  rfl

theorem spbSeal_sealed {d : Dev} (g : Nat) (h1 : 1 ≤ d.get (shp .sfc) SFC.STATE_CODE) (h3 : d.get (shp .sfc) SFC.STATE_CODE ≤ 3)
    (h2 : d.readSeal.get (shp .spb) SPB.STATUS_STATE = 2) (hen : d.readSeal.saf.pinEn = true) (hmv : d.readSeal.sealMoving = none)
    (hcode : sealCode d.readSeal.candidate = d.readSeal.saf.pinSeal) :
    d.spbSeal g = ((d.readSeal.leaveRun 4).modSaf (fun s => { s with sealing := some (d.readSeal.candidate, g) })).spbStatus 1 0 0 := by
  have hst : ¬ (d.get (shp .sfc) SFC.STATE_CODE ≠ 1 ∧ d.get (shp .sfc) SFC.STATE_CODE ≠ 2 ∧ d.get (shp .sfc) SFC.STATE_CODE ≠ 3) := by omega
  rw [spbSeal]
  dsimp only
  rw [if_neg hst, h2, hen, if_neg (by decide), if_neg (by decide), hmv]
  exact if_neg (not_not.mpr hcode)

theorem sealMoving_none {d : Dev} (h : ∀ n < 4, (d.vT n).natAbs ≤ 1000 ∧ (d.pV n).natAbs ≤ 1000) : d.sealMoving = none := by
  refine List.find?_eq_none.mpr fun n hn => ?_
  obtain ⟨h1, h2⟩ := h n (List.mem_range.mp hn)
  simp [Nat.not_lt.mpr h1, Nat.not_lt.mpr h2]

section
variable {d : Dev} (sw g : Nat) (hst : d.get (shp .spb) SPB.STATUS_STATE = 2) (h1 : 1 ≤ d.get (shp .sfc) SFC.STATE_CODE) (h3 : d.get (shp .sfc) SFC.STATE_CODE ≤ 3)
include hst h1 h3

theorem seal_refused : let e := (d.sealPins sw false).spbCmd 3 g
    e.get (shp .spb) SPB.STATUS_STATE = 3 ∧ e.get (shp .spb) SPB.STATUS_REASON = cSF_SEAL_EN ∧ e.get (shp .sfc) SFC.FAULT_CODE = cSF_SEAL_EN ∧ e.candidate = d.candidate ∧
      e.saf.copy1 = d.saf.copy1 ∧ e.saf.copy2 = d.saf.copy2 ∧ e.memories = d.memories := by
  intro e
  obtain ⟨m, hm⟩ : ∃ m, m = d.sealPins sw false := ⟨_, rfl⟩
  have hpins : Within readWs d m := hm ▸ (Within.refl _ d).modSaf _
  have hread := SealRead.readSeal m
  obtain ⟨x, hx⟩ : ∃ x, x = refusalShown cSF_SEAL_EN 0 m.readSeal := ⟨_, rfl⟩
  obtain ⟨r1, r2, r3, r4, r5⟩ := refusalShown_shows cSF_SEAL_EN 0 m.readSeal
  rw [← hx] at r1 r2 r3 r4 r5
  have hmst : m.get (shp .spb) SPB.STATUS_STATE = 2 := by rw [hm, sealPins, get_modSaf, hst]
  have he : e = x.permits.sealEnd := by
    show (d.sealPins sw false).spbCmd 3 g = _
    rw [← hm, spbCmd, hmst, if_neg (by decide), hx]
    refine spbSeal_unsealed g (by rw [hm]; exact h1) (by rw [hm]; exact h3) ?_ ?_
    · rw [hread.within.get _ _ _ _ (by decide) (by decide) (by decide) (by decide) (by decide), hmst]
    · rw [hread.pins.2, hm]
      rfl
  have hperm := Permitted.permits x
  have hend := within_sealEnd x.permits
  obtain ⟨-, e2, e3⟩ := sealEnd_leaves x.permits
  have hget (p : Nat) (f : Fld) (hs : p ≠ shp .slt) (hp : clearOf permitWs p f = true) (hc : clearOf sealWs p f = true) (hf : f.fits = true) (hi : 0 < f.cnt) :
      e.get p f = x.get p f := by
    rw [he, hend.get _ _ _ _ hs hc hf hi (by decide), hperm.within.get _ _ _ _ hs hp hf hi (by decide)]
  have hcopies : x.permits.saf.copy1 = x.saf.copy1 ∧ x.permits.saf.copy2 = x.saf.copy2 := by rw [hperm.cars.saf]; exact ⟨rfl, rfl⟩
  refine ⟨?_, ?_, ?_, ?_, ?_, ?_, ?_⟩
  · rw [hget _ _ (by decide) (by decide) (by decide) (by decide) (by decide), r3]
  · rw [hget _ _ (by decide) (by decide) (by decide) (by decide) (by decide), r4]
    rfl
  · rw [hget _ _ (by decide) (by decide) (by decide) (by decide) (by decide), r5]
    rfl
  · rw [he, candidate_of_within hend (by decide), candidate_of_within hperm.within (by decide), candidate_of_within r1 (by decide), candidate_of_within hread.within (by decide),
      candidate_of_within hpins (by decide)]
  · rw [he, e2, hcopies.1, r2, hread.stored.1, hm]
    rfl
  · rw [he, e3, hcopies.2, r2, hread.stored.2, hm]
    rfl
  · rw [he]
    exact hend.keeps.1.trans (hperm.within.keeps.1.trans (r1.keeps.1.trans (hread.within.keeps.1.trans hpins.keeps.1)))

theorem seal_taken (hmv : ∀ n < 4, (d.vT n).natAbs ≤ 1000 ∧ (d.pV n).natAbs ≤ 1000) (hcode : sealCode d.candidate = sw) : let e := (d.sealPins sw true).spbCmd 3 g
    e.get (shp .sfc) SFC.STATE_CODE = 4 ∧ e.allOff = true ∧ e.get (shp .spb) SPB.STATUS_STATE = 1 ∧ e.saf.sealing = some (d.candidate, g) := by
  intro e
  obtain ⟨m, hm⟩ : ∃ m, m = d.sealPins sw true := ⟨_, rfl⟩
  have hpins : Within readWs d m := hm ▸ (Within.refl _ d).modSaf _
  have hread := SealRead.readSeal m
  have hcand : m.readSeal.candidate = d.candidate := by rw [candidate_of_within hread.within (by decide), candidate_of_within hpins (by decide)]
  have hmst : m.get (shp .spb) SPB.STATUS_STATE = 2 := by rw [hm, sealPins, get_modSaf, hst]
  obtain ⟨x, hx⟩ : ∃ x, x = (m.readSeal.leaveRun 4).modSaf (fun s => { s with sealing := some (d.candidate, g) }) := ⟨_, rfl⟩
  have he : e = x.spbStatus 1 0 0 := by
    show (d.sealPins sw true).spbCmd 3 g = _
    rw [← hm, spbCmd, hmst, if_neg (by decide), hx, ← hcand]
    refine spbSeal_sealed g (by rw [hm]; exact h1) (by rw [hm]; exact h3) ?_ ?_ (sealMoving_none fun n hn => ?_) ?_
    · rw [hread.within.get _ _ _ _ (by decide) (by decide) (by decide) (by decide) (by decide), hmst]
    · rw [hread.pins.2, hm]
      rfl
    · rw [vT_of_within hread.within (by decide) hn, vT_of_within hpins (by decide) hn, pV_of_within hread.within (by decide) hread.copies,
        pV_of_within hpins (by decide) (by rw [hm]; rfl)]
      exact hmv n hn
    · rw [hcand, hcode, hread.pins.1, hm]
      rfl
  obtain ⟨s1, -, s3, -⟩ := spbStatus_shows x 1 0 0
  have hst' := within_spbStatus x 1 0 0
  have hxw : Within [] (m.readSeal.leaveRun 4) x := hx ▸ (Within.refl _ _).modSaf _
  rw [he]
  refine ⟨?_, ?_, s1, ?_⟩
  · rw [hst'.get _ _ _ _ (by decide) (by decide) (by decide) (by decide) (by decide), hx, get_modSaf, leaveRun_code _ (by decide)]
  · rw [allOff_of_within hst' (by decide), allOff_of_within hxw (by decide), leaveRun_off _ (by decide) (by decide)]
  · rw [s3, hx, saf_modSaf]

end

/-! ### Verification -/

section
variable {d : Dev} (h1 : d.get (shp .spb) SPB.STATUS_STATE = 1)
include h1

theorem spbVerified_passes (hw : d.loadWhy d.candidate = none) (hid : d.get (shp .sfc) SFC.BLOCK_ID_ID < bkId d.candidate) : d.spbVerified = d.spbStatus 2 0 0 := by
  rw [spbVerified, if_neg (not_not.mpr h1)]
  dsimp only
  rw [hw]
  dsimp only
  rw [if_neg (Nat.not_le.mpr hid)]

/-- A verification that fails for a reason. -/
def verifyFailed (r c w : Nat) (d : Dev) : Dev := ((d.err (shp .spb) c w).lastRefusal r w).spbStatus 3 r w

theorem spbVerified_fails {r : Nat} (h : d.loadWhy d.candidate = some r ∨ d.loadWhy d.candidate = none ∧ bkId d.candidate ≤ d.get (shp .sfc) SFC.BLOCK_ID_ID ∧ r = cSF_ROLLBACK) :
    ∃ c, d.spbVerified = verifyFailed r c d.fresh.1.toNat d.fresh.2 := by
  refine ⟨bkCode d.candidate r, ?_⟩
  rw [spbVerified, if_neg (not_not.mpr h1)]
  dsimp only
  rcases h with h | ⟨h, hle, rfl⟩
  · rw [h]
    rfl
  · rw [h]
    dsimp only
    rw [if_pos hle]
    rfl

omit h1 in
theorem verifyFailed_shows (r c w : Nat) (d : Dev) : let e := verifyFailed r c w d
    e.get (shp .spb) SPB.STATUS_STATE = 3 ∧ e.get (shp .spb) SPB.STATUS_REASON = r % 2 ^ 8 ∧ e.get (shp .sfc) SFC.FAULT_CODE = r % 2 ^ 8 ∧ d.keeps e [shp .spb, shp .sfc] := by
  intro e
  obtain ⟨s1, s2, -, s4⟩ := spbStatus_shows ((d.err (shp .spb) c w).lastRefusal r w) 3 r w
  have hst := within_spbStatus ((d.err (shp .spb) c w).lastRefusal r w) 3 r w
  refine ⟨s1, s2, ?_, keeps_trans ?_ (keeps_mono s4 (by simp))⟩
  · show (((d.err (shp .spb) c w).lastRefusal r w).spbStatus 3 r w).get _ _ = _
    rw [hst.get _ _ _ _ (by decide) (by decide) (by decide) (by decide) (by decide), lastRefusal_shows]
  · exact (keeps_put_iff (by simp) (by decide) (by decide) (by decide)).mpr ((keeps_put_iff (by simp) (by decide) (by decide) (by decide)).mpr
      ((keeps_err_iff (by simp)).mpr (keeps_refl d _)))

theorem spbVerified_shows {r : Nat} (h : d.loadWhy d.candidate = some r ∨ d.loadWhy d.candidate = none ∧ bkId d.candidate ≤ d.get (shp .sfc) SFC.BLOCK_ID_ID ∧ r = cSF_ROLLBACK) :
    d.spbVerified.get (shp .spb) SPB.STATUS_STATE = 3 ∧ d.spbVerified.get (shp .spb) SPB.STATUS_REASON = r % 2 ^ 8 ∧
      d.spbVerified.get (shp .sfc) SFC.FAULT_CODE = r % 2 ^ 8 ∧ d.keeps d.spbVerified [shp .spb, shp .sfc] := by
  obtain ⟨c, he⟩ := spbVerified_fails h1 h
  obtain ⟨v1, v2, v3, v4⟩ := verifyFailed_shows r c d.fresh.1.toNat d.fresh.2
  rw [he]
  exact ⟨v1, v2, v3, keeps_trans (show d.keeps d.fresh.2 _ from keeps_refl d _) v4⟩

end

/-! ### The commit of a seal -/

/-- Both copies are written. -/
def copiesStored (b : Block) (d : Dev) : Dev :=
  ((d.storeCopy 0 b).storeCopy 1 b).modSaf (fun s => { s with active := none, copy1 := b, copy2 := b, sealing := none })

/-- The part in START without a block. -/
def sealedShown (d : Dev) : Dev := (((d.put (shp .sfc) SFC.STATE_CODE 0).showBlock none).put (shp .sfc) SFC.STATE_SEAL_MATCH 0).spbStatus 4 0 0

theorem sealDone_eq {d : Dev} (h : d.get (shp .sfc) SFC.STATE_CODE = 4) : ∃ words, d.sealDone =
    sealedShown (copiesStored (d.saf.sealing.getD ([], 0)).1 (d.safNote (shp .sfc) 4 0 words)) := by
  rw [sealDone, if_neg (not_not.mpr h)]
  exact ⟨_, rfl⟩

theorem copyAt_bounds : copyAt 0 + 0x3500 ≤ copyAt 1 := by
  have h := Nat.mod_lt (Config.copyPlace 0) (show 0 < 0x2000000 - 0x3500 by decide)
  unfold copyAt
  omega

theorem copyAt_cases (i : Fin 2) : copyAt i = copyAt 0 ∨ copyAt i = copyAt 1 := by
  obtain ⟨i, hi⟩ := i
  interval_cases i
  · exact .inl rfl
  · exact .inr rfl

theorem bkBytes_byte (b : Block) {j : Nat} (hj : j < 0x3500) : ((bkBytes b 0 0x3500).map (BitVec.ofNat 8)).getD j 0 = BitVec.ofNat 8 ((bkBytes b 0 0x3500).getD j 0) := by
  have hl : (bkBytes b 0 0x3500).length = 0x3500 := by rw [bkBytes, List.length_map, List.length_range]
  rw [List.getD_eq_getElem?_getD, List.getD_eq_getElem?_getD, List.getElem?_map, List.getElem?_eq_getElem (by rw [hl]; exact hj)]
  rfl

theorem mram_storeCopy (d : Dev) (i : Nat) (b : Block) : (d.storeCopy i b).mram = memWrites d.mram (copyAt i) ((bkBytes b 0 0x3500).map (BitVec.ofNat 8)) := by rw [storeCopy]

theorem mram_copiesStored (b : Block) (d : Dev) : (copiesStored b d).mram = ((d.storeCopy 0 b).storeCopy 1 b).mram := by rw [copiesStored, modSaf]

theorem saf_copiesStored (b : Block) (d : Dev) : (copiesStored b d).saf.copy1 = b ∧ (copiesStored b d).saf.copy2 = b ∧ (copiesStored b d).saf.active = none := by
  rw [copiesStored, saf_modSaf]
  exact ⟨rfl, rfl, rfl⟩

theorem copiesStored_reads (b : Block) (d : Dev) :
    (∀ (i : Fin 2) (j : Nat), j < 0x3500 → memRead (copiesStored b d).mram (copyAt i + j) = BitVec.ofNat 8 ((bkBytes b 0 0x3500).getD j 0)) ∧
    (∀ x, (∀ i : Fin 2, x < copyAt i ∨ copyAt i + 0x3500 ≤ x) → memRead (copiesStored b d).mram x = memRead d.mram x) := by
  obtain ⟨l, hl⟩ : ∃ l, l = (bkBytes b 0 0x3500).map (BitVec.ofNat 8) := ⟨_, rfl⟩
  have hlen : l.length = 0x3500 := by rw [hl, List.length_map, bkBytes, List.length_map, List.length_range]
  have hm : (copiesStored b d).mram = memWrites (memWrites d.mram (copyAt 0) l) (copyAt 1) l := by
    rw [hl, mram_copiesStored, mram_storeCopy, mram_storeCopy]
  have hb := copyAt_bounds
  refine ⟨fun i j hj => ?_, fun x hx => ?_⟩
  · rw [← bkBytes_byte b hj, ← hl, hm, memRead_memWrites, memRead_memWrites, hlen]
    rcases copyAt_cases i with h | h
    · rw [h, if_neg (by omega), if_pos (by omega), Nat.add_sub_cancel_left]
    · rw [h, if_pos (by omega), Nat.add_sub_cancel_left]
  · have h0 := hx 0
    have h1 := hx 1
    rw [hm, memRead_memWrites, memRead_memWrites, hlen, if_neg fun h => ?_, if_neg fun h => ?_]
    · simp only [Fin.isValue, Fin.val_zero] at h0
      omega
    · simp only [Fin.isValue, Fin.val_one] at h1
      omega

theorem sealedShown_shows (d : Dev) : (sealedShown d).mram = d.mram ∧ (sealedShown d).saf = d.saf ∧ (sealedShown d).get (shp .sfc) SFC.STATE_CODE = 0 ∧
    (sealedShown d).get (shp .spb) SPB.STATUS_STATE = 4 := by
  obtain ⟨m, hm⟩ : ∃ m, m = ((d.put (shp .sfc) SFC.STATE_CODE 0).showBlock none).put (shp .sfc) SFC.STATE_SEAL_MATCH 0 := ⟨_, rfl⟩
  obtain ⟨s1, -, s3, -⟩ := spbStatus_shows m 4 0 0
  have he : sealedShown d = m.spbStatus 4 0 0 := by rw [hm]; rfl
  refine ⟨?_, ?_, ?_, ?_⟩
  · rw [he, hm]
    simp only [spbStatus, showBlock, put_mram]
  · rw [he, s3, hm, saf_put, saf_showBlock, saf_put]
  · rw [he, (within_spbStatus m 4 0 0).get _ _ _ _ (by decide) (by decide) (by decide) (by decide) (by decide), hm,
      get_put_apart _ _ (by decide) (by decide) (by decide) (by decide) (by decide) (by decide) (by decide),
      (within_showBlock _ _).get _ _ _ _ (by decide) (by decide) (by decide) (by decide) (by decide)]
    exact get_put_same _ _ _ _ _ _ (by decide)
  · rw [he]
    exact s1

/-- The commit of a seal writes both copies and nothing else of the memory, and leads to START. -/
theorem sealDone_shows {d : Dev} (h : d.get (shp .sfc) SFC.STATE_CODE = 4) : let b := (d.saf.sealing.getD ([], 0)).1
    let e := d.sealDone
    e.saf.copy1 = b ∧ e.saf.copy2 = b ∧ (∀ (i : Fin 2) (j : Nat), j < 0x3500 → memRead e.mram (copyAt i + j) = BitVec.ofNat 8 ((bkBytes b 0 0x3500).getD j 0)) ∧
      (∀ x, (∀ i : Fin 2, x < copyAt i ∨ copyAt i + 0x3500 ≤ x) → memRead e.mram x = memRead d.mram x) ∧ e.saf.active = none ∧ e.get (shp .sfc) SFC.STATE_CODE = 0 ∧
      e.get (shp .spb) SPB.STATUS_STATE = 4 := by
  intro b e
  obtain ⟨words, he⟩ := sealDone_eq h
  obtain ⟨m, hm⟩ : ∃ m, m = copiesStored b (d.safNote (shp .sfc) 4 0 words) := ⟨_, rfl⟩
  obtain ⟨r1, r2⟩ := copiesStored_reads b (d.safNote (shp .sfc) 4 0 words)
  obtain ⟨s1, s2, s3, s4⟩ := sealedShown_shows m
  have he' : e = sealedShown m := by rw [hm]; exact he
  have hnote : (d.safNote (shp .sfc) 4 0 words).mram = d.mram := post_mram ..
  rw [he', s1, s2]
  obtain ⟨c1, c2, c3⟩ := saf_copiesStored b (d.safNote (shp .sfc) 4 0 words)
  refine ⟨by rw [hm, c1], by rw [hm, c2], by rw [hm]; exact r1, fun x hx => ?_, by rw [hm, c3], s3, s4⟩
  rw [hm, r2 x hx, hnote]

/-! ### The poll of the contacts -/

theorem sealPoll_stops {d : Dev} {n : Nat} (hn : n < 4) (hlen : d.saf.sp.length = 4) (hrun : d.safRun = true) (hcar : d.safCar n = true) (hmv : d.pairMoves n = true) {sw : Nat}
    (hlt : sw < 2 ^ 16) (hsw : sw ≠ d.get (shp .sfc) SFC.STATE_SEAL_SW) (en : Bool) : let e := d.sealPoll sw en
    bitN (e.sp n).causes 0x13 = 1 ∧ bitN (e.get (shp .sfc) SFC.PERMIT_RESCUE) n = 0 ∧ e.get (shp .sfc) SFC.STATE_SEAL_SW = sw ∧ e.safRun = true := by
  intro e
  obtain ⟨m, hm⟩ : ∃ m, m = d.sealPins sw en := ⟨_, rfl⟩
  have hmrun : m.safRun = true := by rw [hm]; exact hrun
  obtain ⟨r1, r2, r3, r4, r5, r6⟩ := readSeal_stops (d := m) hn (by rw [hm]; exact hlen.symm ▸ hn) hmrun (by rw [hm]; exact hcar) (by rw [hm]; exact hmv) (by rw [hm]; exact hsw)
  have hperm := Permitted.permits m.readSeal
  have hmoves : m.readSeal.permits.pairMoves n = true := by
    rw [pairMoves_of_within hperm.within (by decide) hperm.copies.1 hperm.cars.blk hn, r5]
  have hends : m.readSeal.permits.sealEnds = false := by
    have hmem : n ∈ m.readSeal.permits.safCars := List.mem_filter.mpr ⟨List.mem_range.mpr hn, (hperm.cars.safCar n).trans r6⟩
    have hall : (m.readSeal.permits.safCars.all fun n => !m.readSeal.permits.pairMoves n) = false :=
      List.all_eq_false.mpr ⟨n, hmem, by rw [hmoves]; decide⟩
    rw [sealEnds, hall, Bool.and_false]
  have he : e = m.readSeal.permits := by
    show d.sealPoll sw en = _
    rw [sealPoll, ← hm]
    dsimp only
    rw [hmrun, if_pos rfl, sealEnd_eq, hends]
    rfl
  rw [he]
  refine ⟨by rw [hperm.causes]; exact r1, by rw [hperm.rescue]; exact r2, ?_, hperm.safRun.trans r4⟩
  rw [hperm.within.get _ _ _ _ (by decide) (by decide) (by decide) (by decide) (by decide), r3, hm]
  exact Nat.mod_eq_of_lt hlt

end Dev

/-- Settles O40: FAULT, START, the candidate, its verification and seal, the two copies, and the poll of the contacts. -/
theorem blocksAndFault : Obligations.BlocksAndFault := by
  unfold Obligations.BlocksAndFault
  intro s hout hshape
  refine ⟨fun i hi h5 => ?_, fun h0 sw en => ⟨?_, fun hw hc => ?_, fun hw1 hw2 => ?_⟩, fun hst => ⟨?_, ?_, ?_, fun sw en h2 h1 h3 => ⟨fun he => ?_, fun he hmv hc => ?_⟩⟩, fun v ha => ?_,
    fun h1 => ⟨fun hw hid => ?_, fun hw hid => ?_, fun r hw => ?_⟩, ?_, fun sw en n hrun hsw hcar hmv => ?_⟩
  · obtain ⟨f1, f2, f3⟩ := Dev.safFault_shows h5
    rcases hi with rfl | ⟨off, stale, hos, rfl⟩
    · exact ⟨_, next_of_out hout rfl, rfl, f1, f2, fun n => f3 n n.isLt⟩
    · have he : (if off || stale then s.dev.safFault else s.dev) = s.dev.safFault := if_pos hos
      exact ⟨_, next_of_out_eq hout rfl he, rfl, f1, f2, fun n => f3 n n.isLt⟩
  · obtain ⟨f1, -, -⟩ := Dev.safFault_shows (d := s.dev) (by rw [h0]; decide)
    exact ⟨_, next_of_out_eq hout rfl (Dev.safStart_failed h0 sw.toNat en), rfl, f1⟩
  · obtain ⟨e1, e2, e3, e4, e5⟩ := Dev.enterRun_shows (Dev.startRead sw.toNat en s.dev) s.dev.saf.copy1
    rw [← Dev.safStart_first h0 sw.toNat en hw hc] at e1 e2 e3 e4 e5
    refine ⟨_, next_of_out hout rfl, rfl, e1, e2, ?_, e4, fun n => e5 n n.isLt⟩
    exact e3
  · exact ⟨_, next_of_out hout rfl, rfl, Dev.safStart_none h0 sw.toNat en hw1 hw2⟩
  · obtain ⟨c1, c2, -, c4⟩ := Dev.setCandidate_shows s.dev []
    have he : s.dev.spbCmd 1 0 = s.dev.setCandidate [] := if_neg (by simpa using hst)
    exact ⟨_, next_of_out_eq hout rfl he, rfl, Dev.candidate_empty fun a ha => by rw [c2 a ha]; rfl, c4, c1⟩
  · obtain ⟨s1, -, -, s4⟩ := Dev.spbStatus_shows s.dev 1 0 0
    have he : s.dev.spbCmd 2 0 = s.dev.spbStatus 1 0 0 := if_neg (by simpa using hst)
    exact ⟨_, next_of_out_eq hout rfl he, rfl, s1, Dev.candidate_of_within (Dev.within_spbStatus s.dev 1 0 0) (by decide), s4⟩
  · obtain ⟨c1, c2, c3, -⟩ := Dev.setCandidate_shows s.dev s.dev.blk
    have he : s.dev.spbCmd 4 0 = s.dev.setCandidate s.dev.blk := if_neg (by simpa using hst)
    exact ⟨_, next_of_out_eq hout rfl he, rfl, c1, fun a => c2 a a.isLt, c3⟩
  · subst he
    exact ⟨_, next_of_out hout rfl, rfl, Dev.seal_refused sw.toNat s.dev.sealGrp h2 h1 h3⟩
  · subst he
    exact ⟨_, next_of_out hout rfl, rfl, Dev.seal_taken sw.toNat s.dev.sealGrp h2 h1 h3 (fun n hn => hmv ⟨n, hn⟩) hc⟩
  · exact ⟨_, next_of_out hout rfl, rfl, Dev.spbData_shows v ha⟩
  · obtain ⟨s1, -, -, s4⟩ := Dev.spbStatus_shows s.dev 2 0 0
    exact ⟨_, next_of_out_eq hout rfl (Dev.spbVerified_passes h1 hw hid), rfl, s1, s4⟩
  · obtain ⟨v1, v2, v3, v4⟩ := Dev.spbVerified_shows h1 (.inr ⟨hw, hid, rfl⟩)
    exact ⟨_, next_of_out hout rfl, rfl, v1, v2, v3, v4⟩
  · exact ⟨_, next_of_out hout rfl, rfl, Dev.spbVerified_shows h1 (.inl hw)⟩
  · split
    case isTrue h4 => exact ⟨_, next_of_out hout rfl, rfl, Dev.sealDone_shows h4⟩
    case isFalse h4 =>
      have he : s.dev.sealDone = s.dev := if_pos h4
      exact next_of_out_eq hout rfl he
  · exact ⟨_, next_of_out hout rfl, rfl, Dev.sealPoll_stops n.isLt (Dev.spLen_of_shaped hshape) hrun hcar hmv sw.isLt hsw en⟩

end Sys2Proof.Machine
end

section
/-! PROOFS. The mailbox: a request, its reply, and what either leaves (O37). -/
namespace Sys2Proof.Machine

open Sys2Proof

namespace Dev

/-- The registers of the mailbox. -/
def smbWs : List (Nat × Fld) :=
  [SMB.REQ_OP_OP, SMB.REQ_ARG0_V, SMB.REQ_ARG1_V, SMB.REQ_TAG_TAG, SMB.REP_STATE, SMB.REP_REASON, SMB.REP_TAG, SMB.REP_DATA0, SMB.REP_DATA1].map fun f => (shp .smb, f)

/-- A part that differs from another in registers of the mailbox only. -/
structure Asked (d e : Dev) : Prop where
  keeps : d.keeps e [shp .smb]
  only : OnlyRegs d e
  far : ∀ (q : Nat) (f : Fld) (i t : Nat), shp .smb < q → e.get q f i t = d.get q f i t

namespace Asked

variable {d e x : Dev}

theorem refl (d : Dev) : Asked d d := ⟨keeps_refl d _, OnlyRegs.refl d, fun _ _ _ _ _ => rfl⟩

theorem trans (h : Asked d e) (g : Asked e x) : Asked d x :=
  ⟨keeps_trans h.keeps g.keeps, h.only.trans g.only, fun q f i t hq => (g.far q f i t hq).trans (h.far q f i t hq)⟩

theorem put {f : Fld} (hf : f.fits = true) (hc : 0 < f.cnt) (d : Dev) (v : Nat) : Asked d (d.put (shp .smb) f v) := by
  refine ⟨(keeps_put_iff List.mem_cons_self hf hc (by decide)).mpr (keeps_refl d _), (OnlyRegs.refl d).put .., fun q g i t hq => ?_⟩
  refine get_put_ne _ _ _ _ _ _ _ _ _ _ fun h => ?_
  obtain ⟨h1, h2, h3⟩ := inside_of_fits hf hc (show 0 < 65536 by decide)
  rw [fkey_eq, fkey_eq] at h
  omega

theorem get (h : Asked d e) {q : Nat} {f : Fld} {i t : Nat} (hq : q ≠ shp .smb) (hf : f.fits = true) (hi : i < f.cnt) (ht : t < 65536) : e.get q f i t = d.get q f i t :=
  get_of_keeps h.keeps hf hi ht (by simpa using hq)

theorem saf (h : Asked d e) : e.saf = d.saf := h.only.saf

theorem stat (d : Dev) (k : Nat) : Asked d (d.stat (shp .smb) k) := put (by decide) (by decide) d _

theorem err (d : Dev) (code det : Nat) : Asked d (d.err (shp .smb) code det) :=
  (put (by decide) (by decide) d _).trans ((put (by decide) (by decide) _ _).trans (put (by decide) (by decide) _ _))

end Asked

/-! ### A request and its reply -/

/-- The request as written. -/
def smbWritten (op a0 a1 tag : Nat) (d : Dev) : Dev :=
  (((d.put (shp .smb) SMB.REQ_OP_OP op).put (shp .smb) SMB.REQ_ARG0_V a0).put (shp .smb) SMB.REQ_ARG1_V a1).put (shp .smb) SMB.REQ_TAG_TAG tag

/-- The reply of a request that runs. -/
def smbBegun (tag : Nat) (d : Dev) : Dev :=
  ((((d.put (shp .smb) SMB.REP_STATE 1).put (shp .smb) SMB.REP_REASON 0).put (shp .smb) SMB.REP_TAG tag).put (shp .smb) SMB.REP_DATA0 0).put (shp .smb) SMB.REP_DATA1 0

/-- What a request does. -/
def smbDone (op a0 a1 tag : Nat) (d : Dev) : Dev :=
  match op with
  | 1 => d.smbReply none (d.get (shp .sfc) SFC.BLOCK_ID_ID) (d.get (shp .sfc) SFC.BLOCK_CRC_CODE + 65536 * d.get (shp .sfc) SFC.STATE_CODE)
  | 2 =>
    if a0 > 3 then d.smbRefuse cSF_NOT_GRANTED a0
    else if a1 % 2 = 0 then ((d.endRescue a0).permits).smbReply none 0 0
    else match d.rescueWhy a0 with
      | some r => d.smbRefuse r a0
      | none => (d.rescueDo a0).smbReply none 0 0
  | 3 =>
    if !d.safRun then d.smbRefuse cSF_NOT_GRANTED 0
    else match d.resetWhy (d.safCars.filter (fun n => bitN a0 n == 1)) with
      | some (r, n) => d.smbRefuse r n
      | none => (d.resetDo (d.safCars.filter (fun n => bitN a0 n == 1))).smbReply none 0 0
  | 4 =>
    if a0 > 3 then d.smbRefuse cSF_NOT_GRANTED a0
    else if a1 % 2 = 0 then ((d.degEnd a0).permits).smbReply none 0 0
    else match d.degWhy a0 (a1 / 2 % 8) with
      | some r => d.smbRefuse r a0
      | none => (d.degDo a0 (a1 / 2 % 8)).smbReply none 0 0
  | 5 => d.testStart a0 a1 tag
  | _ => d.smbRefuse cRANGE op

theorem smbGo_eq (d : Dev) : d.smbGo =
    if d.get (shp .smb) SMB.REP_STATE == 1 then d.err (shp .smb) cBUSY
    else if (d.smbBegun (d.get (shp .smb) SMB.REQ_TAG_TAG)).get (shp .sfc) SFC.STATE_CODE == 5 then d.smbBegun (d.get (shp .smb) SMB.REQ_TAG_TAG)
    else smbDone (d.get (shp .smb) SMB.REQ_OP_OP) (d.get (shp .smb) SMB.REQ_ARG0_V) (d.get (shp .smb) SMB.REQ_ARG1_V) (d.get (shp .smb) SMB.REQ_TAG_TAG)
      (d.smbBegun (d.get (shp .smb) SMB.REQ_TAG_TAG)) := rfl

theorem Asked.smbWritten (op a0 a1 tag : Nat) (d : Dev) : Asked d (smbWritten op a0 a1 tag d) :=
  (Asked.put (by decide) (by decide) d _).trans ((Asked.put (by decide) (by decide) _ _).trans ((Asked.put (by decide) (by decide) _ _).trans (Asked.put (by decide) (by decide) _ _)))

theorem Asked.smbBegun (tag : Nat) (d : Dev) : Asked d (smbBegun tag d) :=
  (Asked.put (by decide) (by decide) d _).trans ((Asked.put (by decide) (by decide) _ _).trans ((Asked.put (by decide) (by decide) _ _).trans
    ((Asked.put (by decide) (by decide) _ _).trans (Asked.put (by decide) (by decide) _ _))))

theorem smbWritten_shows (op a0 a1 tag : Nat) (d : Dev) : let e := smbWritten op a0 a1 tag d
    e.get (shp .smb) SMB.REQ_OP_OP = op % 2 ^ 8 ∧ e.get (shp .smb) SMB.REQ_ARG0_V = a0 % 2 ^ 32 ∧ e.get (shp .smb) SMB.REQ_ARG1_V = a1 % 2 ^ 32 ∧
      e.get (shp .smb) SMB.REQ_TAG_TAG = tag % 2 ^ 16 ∧ e.get (shp .smb) SMB.REP_STATE = d.get (shp .smb) SMB.REP_STATE := by
  intro e
  refine ⟨?_, ?_, ?_, get_put_same _ _ _ _ _ _ (by decide), ?_⟩
  · show (smbWritten op a0 a1 tag d).get _ _ = _
    simp (disch := decide) only [smbWritten, get_put_apart]
    exact get_put_same _ _ _ _ _ _ (by decide)
  · show (smbWritten op a0 a1 tag d).get _ _ = _
    simp (disch := decide) only [smbWritten, get_put_apart]
    exact get_put_same _ _ _ _ _ _ (by decide)
  · show (smbWritten op a0 a1 tag d).get _ _ = _
    simp (disch := decide) only [smbWritten, get_put_apart]
    exact get_put_same _ _ _ _ _ _ (by decide)
  · show (smbWritten op a0 a1 tag d).get _ _ = _
    simp (disch := decide) only [smbWritten, get_put_apart]

theorem smbBegun_shows (tag : Nat) (d : Dev) : (smbBegun tag d).get (shp .smb) SMB.REP_STATE = 1 ∧ (smbBegun tag d).get (shp .smb) SMB.REP_TAG = tag % 2 ^ 16 := by
  constructor
  · simp (disch := decide) only [smbBegun, get_put_apart]
    exact get_put_same _ _ _ _ _ _ (by decide)
  · simp (disch := decide) only [smbBegun, get_put_apart]
    exact get_put_same _ _ _ _ _ _ (by decide)

/-- The part as a request takes effect. -/
def smbAsked (op a0 a1 tag : Nat) (d : Dev) : Dev := smbBegun tag (smbWritten op a0 a1 tag d)

theorem Asked.smbAsked (op a0 a1 tag : Nat) (d : Dev) : Asked d (smbAsked op a0 a1 tag d) := (Asked.smbWritten ..).trans (Asked.smbBegun ..)

theorem smbSend_busy {d : Dev} (h : d.get (shp .smb) SMB.REP_STATE = 1) (op a0 a1 tag : Nat) : d.smbSend op a0 a1 tag = (smbWritten op a0 a1 tag d).err (shp .smb) cBUSY := by
  obtain ⟨-, -, -, -, w5⟩ := smbWritten_shows op a0 a1 tag d
  show (smbWritten op a0 a1 tag d).smbGo = _
  rw [smbGo_eq, w5, h]
  rfl

theorem smbSend_free {d : Dev} (h : d.get (shp .smb) SMB.REP_STATE ≠ 1) (h5 : d.get (shp .sfc) SFC.STATE_CODE ≠ 5) {op a0 a1 tag : Nat} (hop : op < 2 ^ 8) (h0 : a0 < 2 ^ 32)
    (h1 : a1 < 2 ^ 32) (ht : tag < 2 ^ 16) : d.smbSend op a0 a1 tag = smbDone op a0 a1 tag (smbAsked op a0 a1 tag d) := by
  obtain ⟨w1, w2, w3, w4, w5⟩ := smbWritten_shows op a0 a1 tag d
  have h5' : (smbAsked op a0 a1 tag d).get (shp .sfc) SFC.STATE_CODE ≠ 5 := by
    rw [(Asked.smbAsked op a0 a1 tag d).get (by decide) (by decide) (by decide) (by decide)]
    exact h5
  show (smbWritten op a0 a1 tag d).smbGo = _
  rw [smbGo_eq, w1, w2, w3, w4, w5, Nat.mod_eq_of_lt hop, Nat.mod_eq_of_lt h0, Nat.mod_eq_of_lt h1, Nat.mod_eq_of_lt ht, if_neg (by simpa using h)]
  rw [smbAsked] at h5'
  exact if_neg (by simpa using h5')

theorem Asked.smbReply (d : Dev) (why : Option Nat) (x y : Nat) : Asked d (d.smbReply why x y) :=
  (Asked.put (by decide) (by decide) d _).trans ((Asked.put (by decide) (by decide) _ _).trans ((Asked.put (by decide) (by decide) _ _).trans
    ((Asked.put (by decide) (by decide) _ _).trans (Asked.stat ..))))

theorem smbReply_shows (d : Dev) (why : Option Nat) (x y : Nat) : let e := d.smbReply why x y
    e.get (shp .smb) SMB.REP_STATE = (if why.isSome then 3 else 2) ∧ e.get (shp .smb) SMB.REP_REASON = why.getD 0 % 2 ^ 8 ∧
      e.get (shp .smb) SMB.REP_DATA0 = x % 2 ^ 32 ∧ e.get (shp .smb) SMB.REP_DATA1 = y % 2 ^ 32 ∧ e.get (shp .smb) SMB.REP_TAG = d.get (shp .smb) SMB.REP_TAG ∧
      e.get (shp .smb) HDR.ERR_CODE = d.get (shp .smb) HDR.ERR_CODE ∧ e.get (shp .smb) HDR.ERR_DETAIL = d.get (shp .smb) HDR.ERR_DETAIL := by
  intro e
  show (d.smbReply why x y).get _ _ = _ ∧ (d.smbReply why x y).get _ _ = _ ∧ (d.smbReply why x y).get _ _ = _ ∧ (d.smbReply why x y).get _ _ = _ ∧
    (d.smbReply why x y).get _ _ = _ ∧ (d.smbReply why x y).get _ _ = _ ∧ (d.smbReply why x y).get _ _ = _
  simp (disch := decide) only [smbReply, Dev.stat, orBits, get_put_apart]
  refine ⟨?_, get_put_same _ _ _ _ _ _ (by decide), get_put_same _ _ _ _ _ _ (by decide), get_put_same _ _ _ _ _ _ (by decide), trivial, trivial, trivial⟩
  rw [get_put_same _ _ _ _ _ _ (by decide)]
  split <;> rfl

theorem smbRefuse_shows (d : Dev) (why n : Nat) : let e := d.smbRefuse why n
    e.get (shp .smb) SMB.REP_STATE = 3 ∧ e.get (shp .smb) SMB.REP_REASON = why % 2 ^ 8 ∧ e.get (shp .smb) HDR.ERR_CODE = why % 2 ^ 8 ∧
      e.get (shp .smb) HDR.ERR_DETAIL = n % 2 ^ 16 ∧ Asked d e := by
  intro e
  obtain ⟨r1, r2, -, -, -, r6, r7⟩ := smbReply_shows (d.err (shp .smb) why n) (some why) 0 0
  refine ⟨r1, r2, ?_, ?_, (Asked.err ..).trans (Asked.smbReply ..)⟩
  · show (d.smbRefuse why n).get _ _ = _
    rw [smbRefuse, r6, get_err_code]
  · show (d.smbRefuse why n).get _ _ = _
    rw [smbRefuse, r7, Dev.err]
    exact get_put_same _ _ _ _ _ _ (by decide)

/-- INFO answers with the block in force. -/
theorem smbInfo_shows {d : Dev} (h : d.get (shp .smb) SMB.REP_STATE ≠ 1) (h5 : d.get (shp .sfc) SFC.STATE_CODE ≠ 5) (tag : BitVec 16) : let e := d.smbSend 1 0 0 tag.toNat
    e.get (shp .smb) SMB.REP_STATE = 2 ∧ e.get (shp .smb) SMB.REP_TAG = tag.toNat ∧ e.get (shp .smb) SMB.REP_DATA0 = d.get (shp .sfc) SFC.BLOCK_ID_ID % 2 ^ 32 ∧
      e.get (shp .smb) SMB.REP_DATA1 = (d.get (shp .sfc) SFC.BLOCK_CRC_CODE + 65536 * d.get (shp .sfc) SFC.STATE_CODE) % 2 ^ 32 ∧ e.saf = d.saf ∧ d.keeps e [shp .smb] := by
  intro e
  have hask := Asked.smbAsked 1 0 0 tag.toNat d
  have he : e = (smbAsked 1 0 0 tag.toNat d).smbReply none (d.get (shp .sfc) SFC.BLOCK_ID_ID) (d.get (shp .sfc) SFC.BLOCK_CRC_CODE + 65536 * d.get (shp .sfc) SFC.STATE_CODE) := by
    show d.smbSend 1 0 0 tag.toNat = _
    rw [smbSend_free h h5 (by decide) (by decide) (by decide) tag.isLt, smbDone, hask.get (by decide) (by decide) (by decide) (by decide),
      hask.get (by decide) (by decide) (by decide) (by decide), hask.get (by decide) (by decide) (by decide) (by decide)]
  obtain ⟨r1, -, r3, r4, r5, -, -⟩ := smbReply_shows (smbAsked 1 0 0 tag.toNat d) none (d.get (shp .sfc) SFC.BLOCK_ID_ID)
    (d.get (shp .sfc) SFC.BLOCK_CRC_CODE + 65536 * d.get (shp .sfc) SFC.STATE_CODE)
  have hall := hask.trans (Asked.smbReply (smbAsked 1 0 0 tag.toNat d) none (d.get (shp .sfc) SFC.BLOCK_ID_ID)
    (d.get (shp .sfc) SFC.BLOCK_CRC_CODE + 65536 * d.get (shp .sfc) SFC.STATE_CODE))
  rw [he]
  refine ⟨r1, ?_, r3, r4, hall.saf, hall.keeps⟩
  rw [r5, smbAsked, (smbBegun_shows ..).2]
  exact Nat.mod_eq_of_lt tag.isLt

end Dev

end Sys2Proof.Machine
end

section
/-! PROOFS. What the mailbox evaluates is the same whatever its own registers hold (O37). -/
namespace Sys2Proof.Machine

open Sys2Proof

namespace Dev

namespace Asked

section
variable {d e : Dev} (h : Asked d e)
include h

theorem safRun : e.safRun = d.safRun := by rw [Dev.safRun, Dev.safRun, h.get (by decide) (by decide) (by decide) (by decide)]

theorem native : e.native = d.native := by rw [Dev.native, Dev.native, h.get (by decide) (by decide) (by decide) (by decide)]

theorem thOn : e.thOn = d.thOn := by rw [Dev.thOn, Dev.thOn, on, on, h.native, h.get (by decide) (by decide) (by decide) (by decide)]

theorem holder : e.holder = d.holder := by rw [Dev.holder, Dev.holder, on, on, h.get (by decide) (by decide) (by decide) (by decide)]

theorem blk : e.blk = d.blk := by rw [Dev.blk, Dev.blk, h.saf]

theorem safCar (n : Nat) : e.safCar n = d.safCar n := by rw [Dev.safCar, Dev.safCar, h.blk]

theorem safCars : e.safCars = d.safCars := by rw [Dev.safCars, Dev.safCars, show e.safCar = d.safCar from funext h.safCar]

theorem sp (n : Nat) : e.sp n = d.sp n := by rw [Dev.sp, Dev.sp, h.saf]

theorem th (n : Nat) : e.th n = d.th n := by rw [Dev.th, Dev.th, h.saf]

theorem pair (n : Nat) : e.pair n = d.pair n := by
  have hc : e.pCopy = d.pCopy := by rw [h.only]
  rw [Dev.pair, Dev.pair, hc, h.holder]

theorem vT (n : Nat) : e.vT n = d.vT n := by rw [Dev.vT, Dev.vT, geti, geti, h.far _ _ _ _ (by decide)]

theorem xT (n : Nat) : e.xT n = d.xT n := by rw [Dev.xT, Dev.xT, geti, geti, h.far _ _ _ _ (by decide)]

theorem tGood (n : Nat) : e.tGood n = d.tGood n := by rw [Dev.tGood, Dev.tGood, h.far _ _ _ _ (by decide)]

theorem thFlt (p : Nat) : e.thFlt p = d.thFlt p := by rw [Dev.thFlt, Dev.thFlt, h.far _ _ _ _ (by decide)]

theorem spFlt (p : Nat) : e.spFlt p = d.spFlt p := by rw [Dev.spFlt, Dev.spFlt, h.get (by decide) (by decide) (by decide) (by decide)]

theorem spAct (p : Nat) : e.spAct p = d.spAct p := by rw [Dev.spAct, Dev.spAct, h.spFlt, h.saf]

theorem now : e.now = d.now := by
  rw [Dev.now, Dev.now, get64, get64, h.get (by decide) (by decide) (by decide) (by decide), h.get (by decide) (by decide) (by decide) (by decide)]

theorem inSafe : e.inSafe = d.inSafe := by rw [Dev.inSafe, Dev.inSafe, on, on, h.saf, h.get (by decide) (by decide) (by decide) (by decide)]

theorem pairMoves (n : Nat) : e.pairMoves n = d.pairMoves n := by
  rw [Dev.pairMoves, Dev.pairMoves, pairV, pairV, Dev.pV, Dev.pV, h.native, h.tGood, h.vT, h.pair, h.blk]

theorem outputsOk (n : Nat) : e.outputsOk n = d.outputsOk n := by
  have hf (k : Nat) : e.get (shp .sio) SIO.SO_ST_FCODE k = d.get (shp .sio) SIO.SO_ST_FCODE k := h.far _ _ _ _ (by decide)
  simp only [Dev.outputsOk, h.blk, hf]

theorem stn (k : Nat) : e.stn k = d.stn k := stn_congr (by rw [h.saf]) k

theorem stnBit (k i : Nat) : e.stnBit k i = d.stnBit k i := by rw [Dev.stnBit, Dev.stnBit, h.stn]

theorem lockOpen (l : Nat) : e.lockOpen l = d.lockOpen l := by
  simp only [Dev.lockOpen, lockSeen, lockShown, landPairs, h.stnBit, h.blk, h.spAct, h.sp]

theorem landSilent (l : Nat) : e.landSilent l = d.landSilent l := by simp only [Dev.landSilent, h.blk, h.stn]

theorem meets (n l : Nat) : e.meets n l = d.meets n l := by
  have hr : e.pRes = d.pRes := by rw [h.only]
  rw [Dev.meets, Dev.meets, hr, h.blk]

theorem carClosed (n : Nat) : e.carClosed n = d.carClosed n := by simp only [Dev.carClosed, h.blk, h.stnBit, h.spAct]

theorem doorsOk (n : Nat) : e.doorsOk n = d.doorsOk n := by simp only [Dev.doorsOk, h.carClosed, h.sp, h.blk, h.meets, h.lockOpen]

theorem fltOf (cars : List Nat) : e.fltOf cars = d.fltOf cars := by simp only [Dev.fltOf, h.thFlt, h.spFlt, h.blk]

theorem pairClean (p : Nat) : e.pairClean p = d.pairClean p := by rw [Dev.pairClean, Dev.pairClean, h.saf]

theorem pressed (n : Nat) : e.pressed n = d.pressed n := by rw [Dev.pressed, Dev.pressed, h.sp, h.now, h.blk]

theorem needsPress (n : Nat) : e.needsPress n = d.needsPress n := by rw [Dev.needsPress, Dev.needsPress, h.sp, h.th]

theorem pairDem (l p : Nat) : e.pairDem l p = d.pairDem l p := by rw [Dev.pairDem, Dev.pairDem, h.blk]

theorem spDemand (n : Nat) (fs : List Nat) : e.spDemand n fs = d.spDemand n fs := by simp only [Dev.spDemand, h.blk, h.saf]

theorem thDemand (n : Nat) (fs : List Nat) : e.thDemand n fs = d.thDemand n fs := by simp only [Dev.thDemand, h.blk, h.saf, h.pairDem]

theorem spCleared (n c : Nat) : e.spCleared n c = d.spCleared n c := by
  have hen : e.on (shp .sfc) SFC.STATE_SEAL_EN = d.on (shp .sfc) SFC.STATE_SEAL_EN := by rw [on, on, h.get (by decide) (by decide) (by decide) (by decide)]
  unfold Dev.spCleared
  simp only [h.spDemand, h.doorsOk, h.sp, h.outputsOk, h.inSafe, h.saf, hen]

theorem sepOn (p : Nat) : e.sepOn p = d.sepOn p := by rw [Dev.sepOn, Dev.sepOn, h.thOn, h.blk, h.safCar, h.safCar]

theorem sepNeighbours (n : Nat) : e.sepNeighbours n = d.sepNeighbours n := by simp only [Dev.sepNeighbours, thPairs, h.sepOn]

theorem sepWaived (p : Nat) : e.sepWaived p = d.sepWaived p := by rw [Dev.sepWaived, Dev.sepWaived, h.th, h.th]

theorem gapT (p : Nat) : e.gapT p = d.gapT p := by simp only [Dev.gapT, h.xT, h.blk]

theorem thrT (p : Nat) : e.thrT p = d.thrT p := by simp only [Dev.thrT, sepL, sepU, speedBin, h.vT, h.blk]

theorem thExcused (p n : Nat) : e.thExcused p n = d.thExcused p n := by simp only [Dev.thExcused, h.blk, h.th]

theorem thCleared (n c : Nat) : e.thCleared n c = d.thCleared n c := by
  have hhb : e.on (shp .ths) THS.MODE_HB_OK = d.on (shp .ths) THS.MODE_HB_OK := by rw [on, on, h.far _ _ _ _ (by decide)]
  unfold Dev.thCleared
  simp only [h.thDemand, h.thExcused, h.blk, h.saf, h.pairDem, h.vT, h.sepOn, h.sepWaived, h.gapT, h.thrT, h.sepNeighbours, h.tGood, h.th, h.outputsOk, hhb]

theorem permitWhy (n : Nat) : e.permitWhy n = d.permitWhy n := by
  have hen : e.on (shp .sfc) SFC.STATE_SEAL_EN = d.on (shp .sfc) SFC.STATE_SEAL_EN := by rw [on, on, h.get (by decide) (by decide) (by decide) (by decide)]
  have hlock : e.lockOpen = d.lockOpen := funext h.lockOpen
  have hmeet : e.meets n = d.meets n := funext fun l => h.meets n l
  unfold Dev.permitWhy
  simp only [h.sp, h.th, h.blk, h.safRun, hen, h.saf, h.carClosed, hlock, hmeet, h.landSilent, h.native, h.tGood, pSt, h.pair, h.spFlt, h.thFlt]
  rfl

theorem resetWhy (cars : List Nat) : e.resetWhy cars = d.resetWhy cars := by
  have hmv : e.pairMoves = d.pairMoves := funext h.pairMoves
  unfold Dev.resetWhy
  simp only [hmv, h.fltOf, h.pairClean, h.sp, h.th, h.spCleared, h.needsPress, h.pressed, h.thCleared]

theorem chainMask (n : Nat) : e.chainMask n = d.chainMask n := by simp only [Dev.chainMask, h.blk]

theorem rescueAdmits (n : Nat) : e.rescueAdmits n = d.rescueAdmits n := by
  simp only [Dev.rescueAdmits, h.blk, h.sp, h.th, h.spAct, h.thFlt, h.chainMask]

theorem rescueWhy (n : Nat) : e.rescueWhy n = d.rescueWhy n := by
  rw [Dev.rescueWhy, Dev.rescueWhy, h.safRun, h.safCar, h.blk, h.pairMoves, h.rescueAdmits, h.doorsOk]

theorem degWhy (n w : Nat) : e.degWhy n w = d.degWhy n w := by
  have hclean : e.pairClean = d.pairClean := funext h.pairClean
  simp only [Dev.degWhy, h.blk, h.permitWhy, h.sp, h.th, h.spCleared, h.thCleared, h.native, h.safRun, h.safCar, h.pairMoves, h.pressed, h.fltOf, hclean]

end

end Asked

end Dev

end Sys2Proof.Machine
end

section
/-! PROOFS. RESET, RESCUE and DEGRADED by the mailbox (O37). -/
namespace Sys2Proof.Machine

open Sys2Proof

namespace Dev

/-! ### A car without stops -/

/-- A car that no stop of either channel holds. -/
structure Cleared (n : Nat) (d : Dev) : Prop where
  sp : (d.sp n).causes = 0
  th : (d.th n).causes = 0
  cat0 : bitN (d.get (shp .sfc) SFC.STOPS_CAT0) n = 0
  cat1 : bitN (d.get (shp .sfc) SFC.STOPS_CAT1) n = 0
  trip : bitN (d.get (shp .ths) THS.CARS_TRIP) n = 0

theorem Cleared.of_same {n : Nat} {d e : Dev} (h : Cleared n d) (hs : (e.sp n).causes = (d.sp n).causes) (ht : (e.th n).causes = (d.th n).causes)
    (h0 : e.get (shp .sfc) SFC.STOPS_CAT0 = d.get (shp .sfc) SFC.STOPS_CAT0) (h1 : e.get (shp .sfc) SFC.STOPS_CAT1 = d.get (shp .sfc) SFC.STOPS_CAT1)
    (h2 : e.get (shp .ths) THS.CARS_TRIP = d.get (shp .ths) THS.CARS_TRIP) : Cleared n e :=
  ⟨hs.trans h.sp, ht.trans h.th, by rw [h0, h.cat0], by rw [h1, h.cat1], by rw [h2, h.trip]⟩

theorem sp_beyond {d : Dev} {n : Nat} (h : ¬ n < d.saf.sp.length) : d.sp n = SafCar.init := by
  rw [sp, List.getD_eq_default _ _ (Nat.le_of_not_lt h)]

theorem th_beyond {d : Dev} {n : Nat} (h : ¬ n < d.saf.th.length) : d.th n = ThCar.init := by
  rw [th, List.getD_eq_default _ _ (Nat.le_of_not_lt h)]

section
variable (d : Dev) {n : Nat}

theorem saf_stopsCleared (n : Nat) : (d.stopsCleared n).saf = d.saf := by simp only [stopsCleared, putBit, saf_put]

theorem saf_clearCar (n : Nat) : (d.clearCar n).saf = (d.forgotten n).saf := by
  rw [clearCar_eq, both, lineCleared, lineCleared, modMpg, modMpg, modHalf_saf, modHalf_saf, saf_stopsCleared]

theorem forgotten_causes (n m : Nat) : ((d.forgotten n).sp m).causes = (if m = n then 0 else (d.sp m).causes) ∧
    ((d.forgotten n).th m).causes = (if m = n then 0 else (d.th m).causes) := by
  obtain ⟨x, hx⟩ : ∃ x, x = d.modSp n (fun c =>
    let slipped := bitN c.causes 0xD == 1
    { c with causes := 0, s1 := none, hw := false, chain := 0, slipP := if slipped then none else c.slipP,
             slipT := if slipped then none else c.slipT }) := ⟨_, rfl⟩
  have he : d.forgotten n = x.modTh n (fun t => { t with causes := 0, offReq := false, chain := 0 }) := by rw [hx]; rfl
  have hth (k : Nat) : x.th k = d.th k := by rw [hx]; rfl
  have hlen : x.saf.th.length = d.saf.th.length := by rw [hx]; rfl
  constructor
  · rw [he, show (x.modTh n (fun t => { t with causes := 0, offReq := false, chain := 0 })).sp m = x.sp m from rfl, hx, sp_modSp]
    by_cases hm : m = n
    · rw [if_pos hm]
      split
      · rfl
      case isFalse h =>
        rw [sp_beyond fun hl => h ⟨hm, hm ▸ hl⟩]
        rfl
    · rw [if_neg hm, if_neg fun h => hm h.1]
  · rw [he, th_modTh, hth, hth, hlen]
    by_cases hm : m = n
    · rw [if_pos hm]
      split
      · rfl
      case isFalse h =>
        rw [th_beyond fun hl => h ⟨hm, hm ▸ hl⟩]
        rfl
    · rw [if_neg hm, if_neg fun h => hm h.1]

theorem clearCar_causes (n m : Nat) : ((d.clearCar n).sp m).causes = (if m = n then 0 else (d.sp m).causes) ∧
    ((d.clearCar n).th m).causes = (if m = n then 0 else (d.th m).causes) := by
  obtain ⟨h1, h2⟩ := forgotten_causes d n m
  rw [sp, th, saf_clearCar, ← sp, ← th]
  exact ⟨h1, h2⟩

variable (hn : n < 4)
include hn

theorem clearCar_bits {m : Nat} (hm : m < 4) :
    bitN ((d.clearCar n).get (shp .sfc) SFC.STOPS_CAT0) m = (if m = n then 0 else bitN (d.get (shp .sfc) SFC.STOPS_CAT0) m) ∧
    bitN ((d.clearCar n).get (shp .sfc) SFC.STOPS_CAT1) m = (if m = n then 0 else bitN (d.get (shp .sfc) SFC.STOPS_CAT1) m) ∧
    bitN ((d.clearCar n).get (shp .ths) THS.CARS_TRIP) m = (if m = n then 0 else bitN (d.get (shp .ths) THS.CARS_TRIP) m) := by
  have h1 : n < SIO.CAR_RUN_CAUSE.cnt := hn
  have h2 : n < SIO.CAR_RUN_S1.cnt := hn
  have h3 : n < SIO.CAR_ENV_UMS.cnt := hn
  have h4 : n < THS.CAR_ST_CAUSE.cnt := hn
  have hline (q : Nat) (f : Fld) : (d.clearCar n).get q f = ((d.forgotten n).stopsCleared n).get q f := by
    rw [clearCar_eq, both, lineCleared, lineCleared, get_modMpg, get_modMpg]
  have hforgot (q : Nat) (f : Fld) : (d.forgotten n).get q f = d.get q f := by rw [forgotten, get_modTh, get_modSp]
  obtain ⟨x, hx⟩ : ∃ x, x = d.forgotten n := ⟨_, rfl⟩
  have hbit (e : Dev) (f : Fld) (p : Nat) (hw : f.w = 4) : bitN ((e.putBit p f n false).get p f) m = if m = n then 0 else bitN (e.get p f) m := by
    split
    case isTrue h => rw [h]; exact bit_putBit_same _ _ _ _ _ _ (by omega) (by omega)
    case isFalse h => exact bit_putBit_other _ _ _ _ _ _ (by omega) (by omega) h
  have g0 : (x.stopsCleared n).get (shp .sfc) SFC.STOPS_CAT0 = (x.putBit (shp .sfc) SFC.STOPS_CAT0 n false).get (shp .sfc) SFC.STOPS_CAT0 := by
    simp (disch := first | decide | assumption) only [stopsCleared, putBit, get_put_other, get_put_apart]
  have g1 : (x.stopsCleared n).get (shp .sfc) SFC.STOPS_CAT1 = ((x.putBit (shp .sfc) SFC.STOPS_CAT0 n false).putBit (shp .sfc) SFC.STOPS_CAT1 n false).get (shp .sfc) SFC.STOPS_CAT1 := by
    unfold stopsCleared
    generalize (x.putBit (shp .sfc) SFC.STOPS_CAT0 n false).putBit (shp .sfc) SFC.STOPS_CAT1 n false = y
    simp (disch := first | decide | assumption) only [putBit, get_put_other]
  have g2 : (x.stopsCleared n).get (shp .ths) THS.CARS_TRIP = ((((((x.putBit (shp .sfc) SFC.STOPS_CAT0 n false).putBit (shp .sfc) SFC.STOPS_CAT1 n false).put (shp .sio)
      SIO.CAR_RUN_CAUSE 0 n).put (shp .sio) SIO.CAR_RUN_S1 0 n).put (shp .sio) SIO.CAR_ENV_UMS 0 n).put (shp .ths) THS.CAR_ST_CAUSE 0 n |>.putBit (shp .ths) THS.CARS_TRIP n
      false).get (shp .ths) THS.CARS_TRIP := rfl
  rw [hline, hline, hline, ← hx, g0, g1, g2, hbit _ _ _ rfl, hbit _ _ _ rfl, hbit _ _ _ rfl, hx]
  refine ⟨by rw [hforgot], ?_, ?_⟩
  · rw [putBit, get_put_apart _ _ (by decide) (by decide) (by decide) (by decide) (by decide) (by decide) (by decide), hforgot]
  · rw [get_put_apart _ _ (by decide) (by decide) (by decide) h4 (by decide) (by decide) (by decide)]
    simp (disch := first | decide | assumption) only [putBit, get_put_other, hforgot]

theorem clearCar_own : Cleared n (d.clearCar n) := by
  obtain ⟨c1, c2⟩ := clearCar_causes d n n
  obtain ⟨b1, b2, b3⟩ := clearCar_bits d hn hn
  rw [if_pos rfl] at c1 c2 b1 b2 b3
  exact ⟨c1, c2, b1, b2, b3⟩

theorem Cleared.clearCar {m : Nat} (hm : m < 4) (h : Cleared m d) : Cleared m (d.clearCar n) := by
  obtain ⟨c1, c2⟩ := clearCar_causes d n m
  obtain ⟨b1, b2, b3⟩ := clearCar_bits d hn hm
  have hz {x : Nat} (hx : x = 0) : (if m = n then 0 else x) = 0 := by rw [hx, ite_self]
  exact ⟨c1.trans (hz h.sp), c2.trans (hz h.th), b1.trans (hz h.cat0), b2.trans (hz h.cat1), b3.trans (hz h.trip)⟩

end

/-- Permits leave a car without stops as it is. -/
theorem Cleared.permitted {n : Nat} {d e : Dev} (h : Cleared n d) (hp : Permitted d e) : Cleared n e :=
  h.of_same (hp.causes n) (by rw [hp.th]) (hp.within.get _ _ _ _ (by decide) (by decide) (by decide) (by decide) (by decide))
    (hp.within.get _ _ _ _ (by decide) (by decide) (by decide) (by decide) (by decide)) (hp.within.get _ _ _ _ (by decide) (by decide) (by decide) (by decide) (by decide))

theorem Cleared.asked {n : Nat} {d e : Dev} (h : Cleared n d) (ha : Asked d e) : Cleared n e :=
  h.of_same (by rw [ha.sp]) (by rw [ha.th]) (ha.get (by decide) (by decide) (by decide) (by decide)) (ha.get (by decide) (by decide) (by decide) (by decide))
    (ha.get (by decide) (by decide) (by decide) (by decide))

theorem Permitted.rsc {d e : Dev} (h : Permitted d e) (n : Nat) : (e.sp n).rscChain = (d.sp n).rscChain := (congrArg SafCar.rscChain (h.sp n) :)

theorem Permitted.deg {d e : Dev} (h : Permitted d e) (n : Nat) : (e.sp n).deg = (d.sp n).deg := (congrArg SafCar.deg (h.sp n) :)

/-! ### RESET -/

/-- The mark of a separation trip goes with the stops of its cars. -/
def pairUntripped (cars : List Nat) (d : Dev) (p : Nat) : Dev := if cars.contains p || cars.contains (p + 1) then d.put (shp .ths) THS.PR_ST_TRIP 0 p else d

theorem resetDo_eq (d : Dev) (cars : List Nat) : d.resetDo cars =
    ((List.range 3).foldl (pairUntripped cars) (cars.foldl Dev.clearCar ((d.fltOf cars).foldl clearFlt d))).outUpdate.permits := rfl

theorem Entered.resetDo (d : Dev) {cars : List Nat} (hc : ∀ n ∈ cars, n < 4) : Entered d (d.resetDo cars) := by
  have hflt (e : Dev) (p : Nat) : Entered e (e.clearFlt p) :=
    (Entered.put (p := shp .ths) (f := THS.IN_PAIR_FLT) (by simp [enterWs]) (by decide) (i := 0) (by decide) e _).trans
      (Entered.put (p := shp .sfc) (f := SFC.STOPS_PAIR_FLT) (by simp [enterWs]) (by decide) (i := 0) (by decide) _ _)
  have hpair (e : Dev) {p : Nat} (hp : p < 3) : Entered e (pairUntripped cars e p) := by
    unfold pairUntripped
    split
    · exact Entered.put (by simp [enterWs]) (by decide) (i := p) hp e 0
    · exact Entered.refl e
  rw [resetDo_eq]
  exact (Entered.foldl _ d fun e p _ => hflt e p).trans ((Entered.foldl _ _ fun e n hn => Entered.clearCar e (hc n hn)).trans
    ((Entered.foldl _ _ fun e p hp => hpair e (List.mem_range.mp hp)).trans ((Entered.of_permitted (Permitted.outUpdate _)).trans (Entered.of_permitted (Permitted.permits _)))))

theorem resetDo_clears (d : Dev) {cars : List Nat} (hc : ∀ n ∈ cars, n < 4) {n : Nat} (hn : n ∈ cars) : Cleared n (d.resetDo cars) := by
  rw [resetDo_eq]
  refine Cleared.permitted ?_ ((Permitted.outUpdate _).trans (Permitted.permits _))
  refine foldl_keep (P := Cleared n) _ _ (fun x p hp hx => ?_) ?_
  · have h1 : p < THS.PR_ST_TRIP.cnt := List.mem_range.mp hp
    unfold pairUntripped
    split
    · exact hx.of_same rfl rfl (get_put_other _ _ (by decide) (by decide) (by decide) h1 (by decide) (by decide) (by decide))
        (get_put_other _ _ (by decide) (by decide) (by decide) h1 (by decide) (by decide) (by decide))
        (get_put_apart _ _ (by decide) (by decide) (by decide) h1 (by decide) (by decide) (by decide))
    · exact hx
  · exact foldl_reach (P := Cleared n) (Q := fun _ => True) (x := n) _ _ (fun _ _ _ _ => trivial) (fun x m hm hx => hx.clearCar x (hc m hm) (hc n hn)) hn
      (fun x _ => clearCar_own x (hc n hn)) trivial

section
variable {d : Dev} (hfree : d.get (shp .smb) SMB.REP_STATE ≠ 1) (h5 : d.get (shp .sfc) SFC.STATE_CODE ≠ 5)
include hfree h5

/-- A refusal of a request changes registers of the mailbox only. -/
theorem smbRefused_shows {op a0 a1 tag : Nat} (why n : Nat) (hop : op < 2 ^ 8) (h0 : a0 < 2 ^ 32) (h1 : a1 < 2 ^ 32) (ht : tag < 2 ^ 16)
    (he : smbDone op a0 a1 tag (smbAsked op a0 a1 tag d) = (smbAsked op a0 a1 tag d).smbRefuse why n) : let e := d.smbSend op a0 a1 tag
    e.get (shp .smb) SMB.REP_STATE = 3 ∧ e.get (shp .smb) SMB.REP_REASON = why % 2 ^ 8 ∧ e.get (shp .smb) HDR.ERR_CODE = why % 2 ^ 8 ∧
      e.get (shp .smb) HDR.ERR_DETAIL = n % 2 ^ 16 ∧ e.saf = d.saf ∧ d.keeps e [shp .smb] := by
  intro e
  have heq : e = (smbAsked op a0 a1 tag d).smbRefuse why n := (smbSend_free hfree h5 hop h0 h1 ht).trans he
  obtain ⟨r1, r2, r3, r4, r5⟩ := smbRefuse_shows (smbAsked op a0 a1 tag d) why n
  have hall := (Asked.smbAsked op a0 a1 tag d).trans r5
  rw [heq]
  exact ⟨r1, r2, r3, r4, hall.saf, hall.keeps⟩

theorem smbReset_taken (hrun : d.safRun = true) (mask : Word) (tag : BitVec 16)
    (hwhy : d.resetWhy (d.safCars.filter (fun n => bitN mask.toNat n == 1)) = none) : let e := d.smbSend 3 mask.toNat 0 tag.toNat
    e.get (shp .smb) SMB.REP_STATE = 2 ∧ e.get (shp .smb) SMB.REP_TAG = tag.toNat ∧ ∀ n ∈ d.safCars.filter (fun n => bitN mask.toNat n == 1), Cleared n e := by
  intro e
  obtain ⟨m, hm⟩ : ∃ m, m = smbAsked 3 mask.toNat 0 tag.toNat d := ⟨_, rfl⟩
  have hask : Asked d m := hm ▸ Asked.smbAsked ..
  obtain ⟨cars, hcars⟩ : ∃ cars, cars = d.safCars.filter (fun n => bitN mask.toNat n == 1) := ⟨_, rfl⟩
  have hlt : ∀ n ∈ cars, n < 4 := fun n hn => (safCars_lt (List.mem_filter.mp (hcars ▸ hn)).1).1
  have he : e = (m.resetDo cars).smbReply none 0 0 := by
    show d.smbSend 3 mask.toNat 0 tag.toNat = _
    rw [smbSend_free hfree h5 (by decide) mask.isLt (by decide) tag.isLt, ← hm, smbDone, hask.safRun, hrun, if_neg (by decide), hask.safCars, ← hcars, hask.resetWhy, hcars, hwhy]
  obtain ⟨r1, -, -, -, r5, -, -⟩ := smbReply_shows (m.resetDo cars) none 0 0
  have htag : (m.resetDo cars).get (shp .smb) SMB.REP_TAG = m.get (shp .smb) SMB.REP_TAG :=
    (Entered.resetDo m hlt).within.get _ _ _ _ (by decide) (by decide) (by decide) (by decide) (by decide)
  rw [he, ← hcars]
  refine ⟨r1, ?_, fun n hn => (resetDo_clears m hlt hn).asked (Asked.smbReply ..)⟩
  rw [r5, htag, hm, smbAsked, (smbBegun_shows ..).2]
  exact Nat.mod_eq_of_lt tag.isLt

/-- RESET is refused with its reason. -/
theorem smbReset_refused (hrun : d.safRun = true) (mask : Word) (tag : BitVec 16) {r : Nat × Nat}
    (hwhy : d.resetWhy (d.safCars.filter (fun n => bitN mask.toNat n == 1)) = some r) : let e := d.smbSend 3 mask.toNat 0 tag.toNat
    e.get (shp .smb) SMB.REP_STATE = 3 ∧ e.get (shp .smb) SMB.REP_REASON = r.1 % 2 ^ 8 ∧ e.get (shp .smb) HDR.ERR_CODE = r.1 % 2 ^ 8 ∧
      e.get (shp .smb) HDR.ERR_DETAIL = r.2 % 2 ^ 16 ∧ e.saf = d.saf ∧ d.keeps e [shp .smb] := by
  have hask := Asked.smbAsked 3 mask.toNat 0 tag.toNat d
  refine smbRefused_shows hfree h5 r.1 r.2 (by decide) mask.isLt (by decide) tag.isLt ?_
  rw [smbDone, hask.safRun, hrun, if_neg (by decide), hask.safCars, hask.resetWhy, hwhy]

/-! ### RESCUE -/

/-- The end of a rescue is taken at any time. -/
theorem smbRescue_ended {n : Nat} (hn : n < 4) {req : Word} (hreq : req.toNat % 2 = 0) (tag : BitVec 16) : let e := d.smbSend 2 n req.toNat tag.toNat
    e.get (shp .smb) SMB.REP_STATE = 2 ∧ bitN (e.get (shp .sfc) SFC.PERMIT_RESCUE) n = 0 := by
  intro e
  obtain ⟨m, hm⟩ : ∃ m, m = smbAsked 2 n req.toNat tag.toNat d := ⟨_, rfl⟩
  have he : e = ((m.endRescue n).permits).smbReply none 0 0 := by
    show d.smbSend 2 n req.toNat tag.toNat = _
    rw [smbSend_free hfree h5 (by decide) (by omega) req.isLt tag.isLt, ← hm, smbDone, if_neg (by omega), if_pos hreq]
  have hrep := Asked.smbReply ((m.endRescue n).permits) none 0 0
  rw [he]
  refine ⟨(smbReply_shows _ none 0 0).1, ?_⟩
  rw [hrep.get (by decide) (by decide) (by decide) (by decide), (Permitted.permits (m.endRescue n)).rescue]
  exact rescue_endRescue m hn

omit hfree h5 in
/-- A rescue is granted with the chain pairs that it ignores. -/
theorem rescueDo_shows (d : Dev) {n : Nat} (hn : n < 4) (hlen : d.saf.sp.length = 4) :
    bitN ((d.rescueDo n).get (shp .sfc) SFC.PERMIT_RESCUE) n = 1 ∧ ((d.rescueDo n).sp n).rscChain = d.chainMask n := by
  obtain ⟨x, hx⟩ : ∃ x, x = if (d.sp n).causes != 0 || (d.th n).causes != 0 then d.clearCar n else d := ⟨_, rfl⟩
  have hxl : x.saf.sp.length = 4 := by
    rw [hx]
    split
    · rw [(Entered.clearCar d hn).spLen, hlen]
    · exact hlen
  obtain ⟨y, hy⟩ : ∃ y, y = x.modSp n (fun c => { c with rscChain := d.chainMask n }) := ⟨_, rfl⟩
  obtain ⟨z, hz⟩ : ∃ z, z = y.modTh n (fun t => { t with rscChain := d.chainMask n }) := ⟨_, rfl⟩
  have he : d.rescueDo n = ((z.putBit (shp .sfc) SFC.PERMIT_RESCUE n true).outUpdate).permits := by rw [hz, hy, hx]; rfl
  have hperm := (Permitted.outUpdate (z.putBit (shp .sfc) SFC.PERMIT_RESCUE n true)).trans (Permitted.permits _)
  have hzsp : (z.putBit (shp .sfc) SFC.PERMIT_RESCUE n true).sp n = y.sp n := by rw [hz]; rfl
  rw [he, hperm.rescue]
  refine ⟨bit_putBit_same _ _ _ _ _ _ (by decide) hn, ?_⟩
  rw [hperm.rsc, hzsp, hy, sp_modSp, if_pos ⟨rfl, by omega⟩]

theorem smbRescue_taken (hlen : d.saf.sp.length = 4) {n : Nat} (hn : n < 4) {req : Word} (hreq : req.toNat % 2 = 1) (tag : BitVec 16) (hwhy : d.rescueWhy n = none) :
    let e := d.smbSend 2 n req.toNat tag.toNat
    e.get (shp .smb) SMB.REP_STATE = 2 ∧ bitN (e.get (shp .sfc) SFC.PERMIT_RESCUE) n = 1 ∧ (e.sp n).rscChain = d.chainMask n := by
  intro e
  obtain ⟨m, hm⟩ : ∃ m, m = smbAsked 2 n req.toNat tag.toNat d := ⟨_, rfl⟩
  have hask : Asked d m := hm ▸ Asked.smbAsked ..
  have he : e = (m.rescueDo n).smbReply none 0 0 := by
    show d.smbSend 2 n req.toNat tag.toNat = _
    rw [smbSend_free hfree h5 (by decide) (by omega) req.isLt tag.isLt, ← hm, smbDone, if_neg (by omega), if_neg (by omega), hask.rescueWhy, hwhy]
  have hrep := Asked.smbReply (m.rescueDo n) none 0 0
  obtain ⟨r1, r2⟩ := rescueDo_shows m hn (by rw [hask.saf]; exact hlen)
  rw [he]
  refine ⟨(smbReply_shows _ none 0 0).1, ?_, ?_⟩
  · rw [hrep.get (by decide) (by decide) (by decide) (by decide), r1]
  · rw [hrep.sp, r2, hask.chainMask]

theorem smbRescue_refused {n : Nat} (hn : n < 4) {req : Word} (hreq : req.toNat % 2 = 1) (tag : BitVec 16) {r : Nat} (hwhy : d.rescueWhy n = some r) :
    let e := d.smbSend 2 n req.toNat tag.toNat
    e.get (shp .smb) SMB.REP_STATE = 3 ∧ e.get (shp .smb) SMB.REP_REASON = r % 2 ^ 8 ∧ e.get (shp .smb) HDR.ERR_CODE = r % 2 ^ 8 ∧
      e.get (shp .smb) HDR.ERR_DETAIL = n % 2 ^ 16 ∧ e.saf = d.saf ∧ d.keeps e [shp .smb] := by
  have hask := Asked.smbAsked 2 n req.toNat tag.toNat d
  refine smbRefused_shows hfree h5 r n (by decide) (by omega) req.isLt tag.isLt ?_
  rw [smbDone, if_neg (by omega), if_neg (by omega), hask.rescueWhy, hwhy]

/-! ### DEGRADED -/

theorem smbDegraded_refused {n : Nat} (hn : n < 4) {req : Word} (hreq : req.toNat % 2 = 1) (tag : BitVec 16) {r : Nat} (hwhy : d.degWhy n (req.toNat / 2 % 8) = some r) :
    let e := d.smbSend 4 n req.toNat tag.toNat
    e.get (shp .smb) SMB.REP_STATE = 3 ∧ e.get (shp .smb) SMB.REP_REASON = r % 2 ^ 8 ∧ e.get (shp .smb) HDR.ERR_CODE = r % 2 ^ 8 ∧
      e.get (shp .smb) HDR.ERR_DETAIL = n % 2 ^ 16 ∧ e.saf = d.saf ∧ d.keeps e [shp .smb] := by
  have hask := Asked.smbAsked 4 n req.toNat tag.toNat d
  refine smbRefused_shows hfree h5 r n (by decide) (by omega) req.isLt tag.isLt ?_
  rw [smbDone, if_neg (by omega), if_neg (by omega), hask.degWhy, hwhy]

/-- The stops whose causes a grant waives go. -/
def degSp (n w : Nat) (d : Dev) : Dev :=
  d.modSp n (fun c => { c with causes := c.causes - c.causes.land (if bitN w 2 == 1 then 2 ^ 8 else 0), hw := if bitN w 2 == 1 then false else c.hw, deg := some w,
                               degNs := bkDegT d.blk n * 1000000000, degAt := if bitN w 1 == 1 then d.xT n else d.pX n })

/-- The trips whose causes a grant waives go. -/
def degTh (n w : Nat) (d : Dev) : Dev :=
  d.modTh n (fun t => { t with causes := t.causes - t.causes.land ((if bitN w 0 == 1 then 2 ^ 8 + 2 ^ 9 else 0) + (if bitN w 2 == 1 then 2 ^ 7 else 0)),
                               waiveT := bitN w 0 == 1, waiveH := bitN w 2 == 1 })

/-- A car without trips is shown without. -/
def degTrip (n : Nat) (d : Dev) : Dev := if (d.th n).causes == 0 then (d.putBit (shp .ths) THS.CARS_TRIP n false).put (shp .ths) THS.CAR_ST_CAUSE 0 n else d

/-- A car without stops is shown without. -/
def degStops (n : Nat) (d : Dev) : Dev :=
  if (d.sp n).causes == 0 then
    (((((d.putBit (shp .sfc) SFC.STOPS_CAT0 n false).putBit (shp .sfc) SFC.STOPS_CAT1 n false).put (shp .sio) SIO.CAR_RUN_CAUSE 0 n).put
      (shp .sio) SIO.CAR_RUN_S1 0 n).put (shp .sio) SIO.CAR_ENV_UMS 0 n).modSp n (fun c => { c with s1 := none })
  else d

/-- A car without stops and trips has its stop line. -/
def degLine (n : Nat) (d : Dev) : Dev := if (d.sp n).causes == 0 && (d.th n).causes == 0 then d.both (lineCleared n) else d

omit hfree h5 in
theorem degDo_eq (d : Dev) (n w : Nat) : ∃ v, d.degDo n w = ((((degLine n (degStops n (degTrip n (degTh n w (degSp n w d))))).put (shp .sio) SIO.CAR_DEG_LEFT_MS v n).showDeg n).outUpdate).permits :=
  ⟨_, rfl⟩

omit hfree h5 in
/-- A grant of degraded operation is kept and shown. -/
theorem degDo_shows (d : Dev) {n : Nat} (hn : n < 4) (hlen : d.saf.sp.length = 4) (w : Nat) :
    ((d.degDo n w).sp n).deg = some w ∧ (d.degDo n w).on (shp .sio) SIO.CAR_RUN_DEG n = true := by
  obtain ⟨v, he⟩ := degDo_eq d n w
  have h1 : n < SIO.CAR_RUN_DEG.cnt := hn
  have hsp : ((degSp n w d).sp n).deg = some w := by rw [degSp, sp_modSp, if_pos ⟨rfl, by omega⟩]
  have htrip (x : Dev) : (degTrip n x).sp n = x.sp n := by
    unfold degTrip
    split <;> rfl
  have hstops (x : Dev) : ((degStops n x).sp n).deg = (x.sp n).deg := by
    unfold degStops
    split
    · rw [sp_modSp]
      split <;> rfl
    · rfl
  have hline (x : Dev) : (degLine n x).sp n = x.sp n := by
    unfold degLine
    split
    · rw [sp, both, lineCleared, lineCleared, modMpg, modMpg, modHalf_saf, modHalf_saf, ← sp]
    · rfl
  obtain ⟨x, hx⟩ : ∃ x, x = (degLine n (degStops n (degTrip n (degTh n w (degSp n w d))))).put (shp .sio) SIO.CAR_DEG_LEFT_MS v n := ⟨_, rfl⟩
  have hxsp : (x.sp n).deg = some w := by
    rw [hx, sp, saf_put, ← sp, hline, hstops, htrip]
    exact hsp
  have hshown : x.degShown n = x.putb (shp .sio) SIO.CAR_RUN_DEG true n := by
    rw [degShown, hxsp]
    rfl
  have hperm := (Permitted.outUpdate (x.showDeg n)).trans (Permitted.permits _)
  have hdeg : (x.showDeg n).saf = x.saf := by
    rw [showDeg_eq, both, degCapped, degCapped, modMpg, modMpg, modHalf_saf, modHalf_saf, hshown]
    rfl
  rw [he, ← hx]
  constructor
  · rw [hperm.deg, sp, hdeg, ← sp, hxsp]
  · rw [on, hperm.within.get _ _ _ _ (by decide) (by decide) (by decide) h1 (by decide), showDeg_eq, both, degCapped, degCapped, get_modMpg, get_modMpg, hshown, putb,
      get_put_same _ _ _ _ _ _ (by decide)]
    rfl

theorem smbDegraded_taken (hlen : d.saf.sp.length = 4) {n : Nat} (hn : n < 4) {req : Word} (hreq : req.toNat % 2 = 1) (tag : BitVec 16)
    (hwhy : d.degWhy n (req.toNat / 2 % 8) = none) : let e := d.smbSend 4 n req.toNat tag.toNat
    e.get (shp .smb) SMB.REP_STATE = 2 ∧ (e.sp n).deg = some (req.toNat / 2 % 8) ∧ e.on (shp .sio) SIO.CAR_RUN_DEG n = true := by
  intro e
  obtain ⟨m, hm⟩ : ∃ m, m = smbAsked 4 n req.toNat tag.toNat d := ⟨_, rfl⟩
  have hask : Asked d m := hm ▸ Asked.smbAsked ..
  have h1 : n < SIO.CAR_RUN_DEG.cnt := hn
  have he : e = (m.degDo n (req.toNat / 2 % 8)).smbReply none 0 0 := by
    show d.smbSend 4 n req.toNat tag.toNat = _
    rw [smbSend_free hfree h5 (by decide) (by omega) req.isLt tag.isLt, ← hm, smbDone, if_neg (by omega), if_neg (by omega), hask.degWhy, hwhy]
  have hrep := Asked.smbReply (m.degDo n (req.toNat / 2 % 8)) none 0 0
  obtain ⟨r1, r2⟩ := degDo_shows m hn (by rw [hask.saf]; exact hlen) (req.toNat / 2 % 8)
  rw [he]
  refine ⟨(smbReply_shows _ none 0 0).1, by rw [hrep.sp, r1], ?_⟩
  rw [on, hrep.get (by decide) (by decide) h1 (by decide)]
  exact r2

end

end Dev

end Sys2Proof.Machine
end

section
/-! PROOFS. OUTPUT_TEST by the mailbox, its end, and O37. -/
namespace Sys2Proof.Machine

open Sys2Proof

namespace Dev

/-! ### What a test leaves of the pairs -/

/-- The registers that show a pair of outputs. -/
def soFields : List Fld := [SIO.SO_ST_FCODE, SIO.SO_OT_HOURS, SIO.SO_RB_VP, SIO.SO_RB_VN, SIO.SO_RB_I]

/-- A register of a page before another has its word before every word written there, whatever entry is written. -/
theorem get_put_later (d : Dev) {p q : Nat} {f g : Fld} (v : Nat) {i j t u : Nat} (h : q < p) (hg : g.fits = true) (hj : j < g.cnt) (hu : u < 65536) :
    (d.put p f v i t).get q g j u = d.get q g j u := by
  refine get_put_ne _ _ _ _ _ _ _ _ _ _ fun he => ?_
  obtain ⟨h1, h2, h3⟩ := inside_of_fits hg hj hu
  rw [fkey_eq, fkey_eq] at he
  omega

/-- A register of a pair has its word before the words of the cars, whatever car is written. -/
theorem get_put_car (d : Dev) {f g : Fld} (v : Nat) {i k : Nat} (hf : 0x180 ≤ f.off) (hg : g ∈ soFields) (hk : k < 8) :
    (d.put (shp .sio) f v i).get (shp .sio) g k = d.get (shp .sio) g k := by
  refine get_put_ne _ _ _ _ _ _ _ _ _ _ fun he => ?_
  have hg' : g.off + k * g.stride < 0x180 ∧ g.lo < 32 := by
    simp only [soFields, List.mem_cons, List.not_mem_nil, or_false] at hg
    rcases hg with rfl | rfl | rfl | rfl | rfl <;> exact ⟨by simp only [SIO.SO_ST_FCODE, SIO.SO_OT_HOURS, SIO.SO_RB_VP, SIO.SO_RB_VN, SIO.SO_RB_I]; omega, by decide⟩
  rw [fkey_eq, fkey_eq] at he
  omega

theorem soFields_fits {g : Fld} (hg : g ∈ soFields) : g.fits = true ∧ g.cnt = 8 ∧ clearOf outWs (shp .sio) g = true ∧ clearOf permitWs (shp .sio) g = true := by
  simp only [soFields, List.mem_cons, List.not_mem_nil, or_false] at hg
  rcases hg with rfl | rfl | rfl | rfl | rfl <;> decide

/-- A part whose pairs of outputs show what those of another do, under the same test. -/
structure SoKept (d e : Dev) : Prop where
  get : ∀ g ∈ soFields, ∀ k < 8, e.get (shp .sio) g k = d.get (shp .sio) g k
  test : e.saf.test = d.saf.test

namespace SoKept

variable {d e x : Dev}

theorem refl (d : Dev) : SoKept d d := ⟨fun _ _ _ _ => rfl, rfl⟩

theorem trans (h : SoKept d e) (g : SoKept e x) : SoKept d x := ⟨fun f hf k hk => (g.get f hf k hk).trans (h.get f hf k hk), g.test.trans h.test⟩

theorem ite {c : Prop} [Decidable c] (h : SoKept d e) (g : SoKept d x) : SoKept d (if c then e else x) := by
  split
  · exact h
  · exact g

theorem of_within {ws : List (Nat × Fld)} (h : Within ws d e) (hc : soFields.all (clearOf ws (shp .sio)) = true) (ht : e.saf.test = d.saf.test) : SoKept d e := by
  refine ⟨fun g hg k hk => ?_, ht⟩
  obtain ⟨hf, hcnt, -, -⟩ := soFields_fits hg
  exact h.get _ _ _ _ (by decide) (List.all_eq_true.mp hc g hg) hf (by omega) (by decide)

/-- A register of a car. -/
theorem car {f : Fld} (hf : 0x180 ≤ f.off) (d : Dev) (v i : Nat) : SoKept d (d.put (shp .sio) f v i) :=
  ⟨fun _ hg _ hk => get_put_car d v hf hg hk, rfl⟩

/-- A register of another page. -/
theorem other {p : Nat} (hp : p ≠ shp .sio) {f : Fld} {i : Nat} (hf : f.off + i * f.stride < 4096) (hl : f.lo < 32) (d : Dev) (v : Nat) : SoKept d (d.put p f v i) := by
  refine ⟨fun g hg k hk => get_put_ne _ _ _ _ _ _ _ _ _ _ fun he => ?_, rfl⟩
  obtain ⟨hgf, hcnt, -, -⟩ := soFields_fits hg
  obtain ⟨h1, h2, h3⟩ := inside_of_fits hgf (show k < g.cnt by omega) (show 0 < 65536 by decide)
  rw [fkey_eq, fkey_eq] at he
  omega

theorem same (hr : e.regs = d.regs) (ht : e.saf.test = d.saf.test) : SoKept d e := ⟨fun _ _ _ _ => get_congr hr .., ht⟩

theorem note (d : Dev) (p cls code det : Nat) (words : List Nat) : SoKept d (d.note p cls code det words) :=
  of_within ((Within.refl [] d).note ..) (by decide) (by rw [saf_note])

theorem modSp (d : Dev) (n : Nat) (g : SafCar → SafCar) : SoKept d (d.modSp n g) := same rfl rfl

theorem modTh (d : Dev) (n : Nat) (g : ThCar → ThCar) : SoKept d (d.modTh n g) := same rfl rfl

theorem outUpdate (d : Dev) : SoKept d d.outUpdate := of_within (within_outUpdate d) (by decide) (by rw [(only_outUpdate d).saf])

theorem permits (d : Dev) : SoKept d d.permits := of_within (Permitted.permits d).within (by decide) (by rw [(Permitted.permits d).cars.saf])

theorem stopLine (d : Dev) (n cat : Nat) : SoKept d (d.stopLine n cat) := same (regs_stopLine ..) (by rw [saf_stopLine])

theorem endRescue (d : Dev) (n : Nat) : SoKept d (d.endRescue n) :=
  (other (p := shp .sfc) (by decide) (f := SFC.PERMIT_RESCUE) (i := 0) (by decide) (by decide) d _).trans ((modSp _ n _).trans (modTh _ n _))

theorem carOff (d : Dev) (n : Nat) : SoKept d (d.carOff n) := by
  obtain ⟨p, t, he⟩ := carOff_eq d n
  rw [he]
  refine (car (f := SIO.CAR_RUN_STO_ON) (by decide) d 0 n).trans ((car (f := SIO.CAR_RUN_BRK_ON) (by decide) _ 0 n).trans (SoKept.trans ?_ (outUpdate _)))
  unfold slipMark
  exact ite (modSp ..) (refl _)

theorem s1Cleared (d : Dev) (n : Nat) : SoKept d (d.s1Cleared n) := (modSp d n _).trans ((car (by decide) _ _ n).trans (car (by decide) _ _ n))

section
variable (d : Dev) {n : Nat} (hn : n < 8) (cause : Nat) (words : List Nat)
include hn

theorem ths {f : Fld} (hf : f.off + 7 * f.stride < 4096) (hl : f.lo < 32) (d : Dev) (v : Nat) : SoKept d (d.put (shp .ths) f v n) :=
  other (by decide) (lt_of_le_of_lt (Nat.add_le_add_left (Nat.mul_le_mul_right _ (by omega)) _) hf) hl d v

theorem tripShown (first : Bool) : SoKept d (d.tripShown first n cause) := by
  unfold Dev.tripShown
  refine ite ?_ (refl d)
  exact (ths hn (by decide) (by decide) d _).trans ((ths hn (by decide) (by decide) _ _).trans ((ths hn (by decide) (by decide) _ _).trans
    (other (p := shp .ths) (by decide) (f := THS.CARS_TRIP) (i := 0) (by decide) (by decide) _ _)))

theorem thTrip : SoKept d (d.thTrip n cause words) := by
  rw [thTrip_eq]
  exact ite (refl d) ((modTh d n _).trans ((tripShown _ hn _ _).trans ((note ..).trans ((endRescue _ n).trans ((carOff _ n).trans (s1Cleared _ n))))))

omit hn in
theorem stopLatched (n : Nat) : SoKept d (d.stopLatched n cause words) :=
  (modSp d n _).trans ((car (by decide) _ _ n).trans ((note ..).trans (endRescue _ n)))

theorem stopZero : SoKept d (d.stopZero n cause) := by
  have hpre : SoKept d ((((d.putBit (shp .sfc) SFC.STOPS_CAT0 n true).s1Cleared n).carOff n).stopLine n 0) :=
    (other (p := shp .sfc) (by decide) (f := SFC.STOPS_CAT0) (i := 0) (by decide) (by decide) d _).trans ((s1Cleared _ n).trans ((carOff _ n).trans (stopLine ..)))
  rw [Dev.stopZero]
  exact ite (hpre.trans ((modTh _ n _).trans (thTrip _ hn _ _))) (hpre.trans (thTrip _ hn _ _))

/-- A stop of category 0 of any car that a block can name. -/
theorem spStop : SoKept d (d.spStop n cause 0 words) := by
  rw [spStop_eq, if_pos rfl]
  exact ite ((stopLatched d cause words n).trans (stopZero _ hn _)) (refl d)

end

theorem err (d : Dev) (code det : Nat) : SoKept d (d.err (shp .sio) code det) :=
  of_within ((Within.refl (errWs (shp .sio)) d).err (fun _ h => h) code det) (by decide) (by rw [saf_err])

end SoKept

/-- A car that a block enables is among the first eight: its mask is a byte. -/
theorem bkCarOn_lt {b : Block} {n : Nat} (h : bkCarOn b n = true) : n < 8 := by
  by_contra hn
  have hbyte : bkCars b < 2 ^ 8 := Nat.mod_lt _ (show 0 < 256 by decide)
  have hlt : bkCars b < 2 ^ n := lt_of_lt_of_le hbyte (Nat.pow_le_pow_right (by decide) (show 8 ≤ n by omega))
  rw [bkCarOn, bitN, Nat.div_eq_of_lt hlt] at h
  exact absurd h (by decide)

/-- The stops that follow the failure of a pair. -/
def outStops (k code : Nat) (d : Dev) : Dev :=
  if bkOutFn d.blk k == 0 then d else (d.thTrip (bkOutCar d.blk k) 0xE [k, code]).spStop (bkOutCar d.blk k) 0xE 0 [k, code]

theorem outFail_eq (d : Dev) (k code : Nat) : d.outFail k code =
    outStops k code (((d.put (shp .sio) SIO.SO_ST_FCODE code k).err (shp .sio) cOUT_FAULT k).safNote (shp .sio) cOUT_FAULT k [code]) := rfl

theorem SoKept.outStops (k code : Nat) (d : Dev) : SoKept d (outStops k code d) := by
  unfold Dev.outStops
  refine SoKept.ite (SoKept.refl d) ?_
  by_cases hcar : d.safCar (bkOutCar d.blk k) = true
  · have hn := bkCarOn_lt hcar
    exact (SoKept.thTrip d hn _ _).trans (SoKept.spStop _ hn _ _)
  · have hoff : d.safCar (bkOutCar d.blk k) = false := by simpa using hcar
    have htrip : d.thTrip (bkOutCar d.blk k) 0xE [k, code] = d := by
      rw [thTrip_eq, hoff]
      rfl
    have hstop : d.spStop (bkOutCar d.blk k) 0xE 0 [k, code] = d := by
      rw [spStop_eq, stopTaken, hoff, Bool.and_false]
      rfl
    rw [htrip, hstop]
    exact SoKept.refl d

/-! ### The start of a test -/

/-- The brake of a pair's car drops. -/
def testBrake (f n : Nat) (d : Dev) : Dev := if f = 0 then d else d.dropBrake n

/-- The STO pair of a car goes off. -/
def testSto (f n : Nat) (d : Dev) : Dev := if f = 1 then d.put (shp .sio) SIO.CAR_RUN_STO_ON 0 n else d

/-- A test in progress. -/
def testSet (k tag : Nat) (d : Dev) : Dev := d.modSaf (fun s => { s with test := some (k, tag) })

theorem testStart_eq (d : Dev) (k ms tag : Nat) : d.testStart k ms tag =
    if k > 7 ∨ ms < 50 ∨ ms > 2000 then d.smbRefuse cRANGE k
    else if !d.safRun then d.smbRefuse cSF_NOT_GRANTED k
    else if bkOutFn d.blk k ≠ 0 && d.pairMoves (bkOutCar d.blk k) then d.smbRefuse cNOT_STANDING (bkOutCar d.blk k)
    else ((testSto (bkOutFn d.blk k) (bkOutCar d.blk k) (testBrake (bkOutFn d.blk k) (bkOutCar d.blk k) (testSet k tag d))).outUpdate).permits := rfl

/-- A part under test, with its pair off. -/
structure Testing (k tag : Nat) (d : Dev) : Prop where
  test : d.saf.test = some (k, tag)
  hs : d.get (shp .sio) SIO.SO_ST_HS k = 0
  ls : d.get (shp .sio) SIO.SO_ST_LS k = 0

theorem outUpdate_testing {d : Dev} {k tag : Nat} (hk : k < 8) (ht : d.saf.test = some (k, tag)) : Testing k tag d.outUpdate := by
  have hlive : d.outLive k = false := by
    rw [outLive, ht]
    simp
  obtain ⟨o1, o2⟩ := outUpdate_shows d hk (.inl hlive)
  exact ⟨by rw [(only_outUpdate d).saf, ht], by rw [o1, outHs, hlive]; rfl, by rw [o2, outLs, hlive]; rfl⟩

theorem Testing.pairPermit {d : Dev} {k tag n : Nat} (hk : k < 8) (hn : n < 4) (h : Testing k tag d) : Testing k tag (d.pairPermit n) := by
  have h1 : k < SIO.SO_ST_HS.cnt := hk
  have h2 : k < SIO.SO_ST_LS.cnt := hk
  have h3 : n < SFC.CAR_WHY_BITS.cnt := hn
  have hmpg (hh : HalfId) : pgMpg hh n ≠ shp .sio := by cases hh <;> interval_cases n <;> decide
  have hget (ok : Bool) {f : Fld} (hf : f.fits = true) (hc : k < f.cnt) : (d.permitShown n ok).get (shp .sio) f k = d.get (shp .sio) f k := by
    rw [permitShown, both, putb, putb, get_put_other _ _ (hmpg .b) (by decide) hf (by decide) hc (by decide) (by decide),
      get_put_other _ _ (hmpg .a) (by decide) hf (by decide) hc (by decide) (by decide), putBit, get_put_other _ _ (by decide) (by decide) hf (by decide) hc (by decide) (by decide),
      get_put_other _ _ (by decide) (by decide) hf h3 hc (by decide) (by decide)]
  have hsaf (ok : Bool) : (d.permitShown n ok).saf = d.saf := by simp only [permitShown, both, putb, putBit, saf_put]
  have hshown (ok : Bool) : Testing k tag (d.permitShown n ok) :=
    ⟨by rw [hsaf]; exact h.test, by rw [hget ok (by decide) h1]; exact h.hs, by rw [hget ok (by decide) h2]; exact h.ls⟩
  have hsto (x : Dev) (ok : Bool) (hx : Testing k tag x) : Testing k tag (x.permitSto n ok) := by
    unfold permitSto
    split
    · exact outUpdate_testing hk hx.test
    · exact hx
  rw [pairPermit_eq]
  split
  · have hx := hsto _ (d.permitOk n) (hshown (d.permitOk n))
    exact ⟨hx.test, by rw [get_modSp]; exact hx.hs, by rw [get_modSp]; exact hx.ls⟩
  · exact hsto _ _ (hshown _)

theorem Testing.permits {d : Dev} {k tag : Nat} (hk : k < 8) (h : Testing k tag d) : Testing k tag d.permits :=
  foldl_keep (P := Testing k tag) _ d (fun _ _ hn he => he.pairPermit hk (List.mem_range.mp hn)) h

section
variable {d : Dev} (hfree : d.get (shp .smb) SMB.REP_STATE ≠ 1) (h5 : d.get (shp .sfc) SFC.STATE_CODE ≠ 5) (k ms : Word) (tag : BitVec 16)
include hfree h5

theorem outputTest_refused (h : k.toNat > 7 ∨ ms.toNat < 50 ∨ ms.toNat > 2000) : let e := d.smbSend 5 k.toNat ms.toNat tag.toNat
    e.get (shp .smb) SMB.REP_STATE = 3 ∧ e.get (shp .smb) SMB.REP_REASON = cRANGE ∧ e.saf = d.saf := by
  obtain ⟨r1, r2, -, -, r5, -⟩ := smbRefused_shows (tag := tag.toNat) hfree h5 cRANGE k.toNat (show 5 < 2 ^ 8 by decide) k.isLt ms.isLt tag.isLt
    (by rw [smbDone, testStart_eq, if_pos h])
  exact ⟨r1, r2, r5⟩

theorem outputTest_taken (hk : k.toNat ≤ 7) (hlo : 50 ≤ ms.toNat) (hhi : ms.toNat ≤ 2000) (hrun : d.safRun = true) (hmv : d.pairMoves (bkOutCar d.blk k.toNat) = false) :
    let e := d.smbSend 5 k.toNat ms.toNat tag.toNat
    e.get (shp .smb) SMB.REP_STATE = 1 ∧ e.saf.test = some (k.toNat, tag.toNat) ∧ e.pairOff k.toNat = true := by
  intro e
  obtain ⟨m, hm⟩ : ∃ m, m = smbAsked 5 k.toNat ms.toNat tag.toNat d := ⟨_, rfl⟩
  have hask : Asked d m := hm ▸ Asked.smbAsked ..
  obtain ⟨f, hf⟩ : ∃ f, f = bkOutFn m.blk k.toNat := ⟨_, rfl⟩
  obtain ⟨n, hn⟩ : ∃ n, n = bkOutCar m.blk k.toNat := ⟨_, rfl⟩
  have hst : m.get (shp .smb) SMB.REP_STATE = 1 := by rw [hm]; exact (smbBegun_shows ..).1
  obtain ⟨x, hx⟩ : ∃ x, x = testBrake f n (testSet k.toNat tag.toNat m) := ⟨_, rfl⟩
  have hdrop (y : Dev) : (y.dropBrake n).saf.test = y.saf.test ∧ (y.dropBrake n).get (shp .smb) SMB.REP_STATE = y.get (shp .smb) SMB.REP_STATE := by
    obtain ⟨z, hz, hzs, hzr⟩ : ∃ z : Dev, y.dropBrake n = z.outUpdate ∧ z.saf.test = y.saf.test ∧ z.regs = (y.put (shp .sio) SIO.CAR_RUN_BRK_ON 0 n).regs := by
      refine ⟨_, rfl, ?_, ?_⟩ <;> split <;> rfl
    rw [hz]
    refine ⟨by rw [(only_outUpdate z).saf, hzs], ?_⟩
    rw [(within_outUpdate z).get _ _ _ _ (by decide) (by decide) (by decide) (by decide) (by decide), get_congr hzr]
    exact get_put_later _ _ (by decide) (by decide) (by decide) (by decide)
  have hxs : x.saf.test = some (k.toNat, tag.toNat) ∧ x.get (shp .smb) SMB.REP_STATE = 1 := by
    rw [hx]
    unfold testBrake
    split
    · exact ⟨rfl, hst⟩
    · rw [(hdrop _).1, (hdrop _).2]
      exact ⟨rfl, hst⟩
  have hys : (testSto f n x).saf.test = some (k.toNat, tag.toNat) ∧ (testSto f n x).get (shp .smb) SMB.REP_STATE = 1 := by
    unfold testSto
    split
    · exact ⟨hxs.1, (get_put_later _ _ (by decide) (by decide) (by decide) (by decide)).trans hxs.2⟩
    · exact hxs
  have he : e = ((testSto f n x).outUpdate).permits := by
    show d.smbSend 5 k.toNat ms.toNat tag.toNat = _
    rw [smbSend_free hfree h5 (by decide) k.isLt ms.isLt tag.isLt, ← hm, smbDone, testStart_eq, if_neg (by omega), hask.safRun, hrun, if_neg (by decide), hask.pairMoves, hask.blk, hmv,
      Bool.and_false, if_neg (by decide), hx, hf, hn, hask.blk]
  have hk8 : k.toNat < 8 := by omega
  have htest := (outUpdate_testing hk8 hys.1).permits hk8
  rw [he]
  refine ⟨?_, htest.test, ?_⟩
  · rw [(Permitted.permits _).within.get _ _ _ _ (by decide) (by decide) (by decide) (by decide) (by decide),
      (within_outUpdate _).get _ _ _ _ (by decide) (by decide) (by decide) (by decide) (by decide), hys.2]
  · rw [pairOff, htest.hs, htest.ls]
    rfl

end

/-! ### The end of a test -/

/-- A test that passes. -/
def testPassed (k : Nat) (d : Dev) : Dev := (d.put (shp .sio) SIO.SO_OT_HOURS 0 k).put (shp .sio) SIO.SO_ST_FCODE 0 k

/-- Whether a test is due for the pairs of a car, as shown. -/
def testDue (k : Nat) (d : Dev) : Dev :=
  if bkOutFn d.blk k == 0 then d else d.putb (shp .sio) SIO.CAR_RUN_OT_DUE (d.otDue (bkOutCar d.blk k)) (bkOutCar d.blk k)

/-- The readings at the end of a test. -/
def testRead (k vp vn i : Nat) (d : Dev) : Dev := (d.modSaf (fun s => { s with test := none })).readBack k vp vn i

theorem testDone_passed {d : Dev} {k tag vp vn i : Nat} (ht : d.saf.test = some (k, tag)) (h : vp < 5000 ∧ vn < 5000 ∧ i < 50) :
    d.testDone vp vn i = ((testDue k (testPassed k (testRead k vp vn i d))).outUpdate.permits).smbReply none 0 0 := by
  rw [testDone, ht]
  exact if_pos h

theorem testDone_failed {d : Dev} {k tag vp vn i : Nat} (ht : d.saf.test = some (k, tag)) (h : ¬ (vp < 5000 ∧ vn < 5000 ∧ i < 50)) :
    ∃ x c, (x = testRead k vp vn i d ∨ x = (testRead k vp vn i d).fresh.2) ∧ d.testDone vp vn i = ((x.outFail k c).outUpdate.permits).smbReply (some cOUT_FAULT) 0 0 ∧
      1 ≤ c ∧ c < 8 ∧ (vp ≥ 5000 → c = 1) ∧ (vp < 5000 → 50 ≤ i → c = 2) := by
  have he : d.testDone vp vn i =
      (((if vp ≥ 5000 then (1, testRead k vp vn i d) else if i ≥ 50 then (2, testRead k vp vn i d) else
        (1 + (testRead k vp vn i d).fresh.1.toNat % 7, (testRead k vp vn i d).fresh.2)).2.outFail k (if vp ≥ 5000 then (1, testRead k vp vn i d) else
        if i ≥ 50 then (2, testRead k vp vn i d) else (1 + (testRead k vp vn i d).fresh.1.toNat % 7, (testRead k vp vn i d).fresh.2)).1).outUpdate.permits).smbReply
        (some cOUT_FAULT) 0 0 := by
    rw [testDone, ht]
    exact if_neg h
  refine ⟨_, _, ?_, he, ?_⟩
  · split_ifs <;> simp
  · split_ifs with h1 h2
    · exact ⟨by omega, by omega, fun _ => rfl, fun h => absurd h (by omega)⟩
    · exact ⟨by omega, by omega, fun h => absurd h h1, fun _ _ => rfl⟩
    · have := Nat.mod_lt (testRead k vp vn i d).fresh.1.toNat (show 0 < 7 by decide)
      exact ⟨by omega, by omega, fun h => absurd h h1, fun _ h => absurd h h2⟩

section
variable {d : Dev} {k tag : Nat} (hk : k < 8) (ht : d.saf.test = some (k, tag)) (vp vn i : BitVec 16)
include hk

omit ht in
theorem testRead_shows : let e := testRead k vp.toNat vn.toNat i.toNat d
    e.saf.test = none ∧ e.get (shp .sio) SIO.SO_RB_VP k = vp.toNat ∧ e.get (shp .sio) SIO.SO_RB_VN k = vn.toNat ∧ e.get (shp .sio) SIO.SO_RB_I k = i.toNat := by
  intro e
  have h1 : k < SIO.SO_RB_VP.cnt := hk
  have h2 : k < SIO.SO_RB_VN.cnt := hk
  have h3 : k < SIO.SO_RB_I.cnt := hk
  refine ⟨rfl, ?_, ?_, ?_⟩
  · show (testRead k vp.toNat vn.toNat i.toNat d).get _ _ _ = _
    simp (disch := first | decide | assumption) only [testRead, readBack, get_put_apart]
    exact get_put_bv _ _ SIO.SO_RB_VP vp k 0 (by decide) (by decide)
  · show (testRead k vp.toNat vn.toNat i.toNat d).get _ _ _ = _
    simp (disch := first | decide | assumption) only [testRead, readBack, get_put_apart]
    exact get_put_bv _ _ SIO.SO_RB_VN vn k 0 (by decide) (by decide)
  · exact get_put_bv _ _ SIO.SO_RB_I i k 0 (by decide) (by decide)

omit hk in
/-- What an end of a test leaves after its own registers: switches, permits and the reply. -/
theorem testReplied (x : Dev) (why : Option Nat) : SoKept x ((x.outUpdate.permits).smbReply why 0 0) := by
  have hrep := Asked.smbReply (x.outUpdate.permits) why 0 0
  exact (SoKept.outUpdate x).trans ((SoKept.permits _).trans ⟨fun _ _ _ _ => hrep.far _ _ _ _ (by decide), by rw [hrep.saf]⟩)

include ht

/-- A test that passes clears the fault and the hours of its pair. -/
theorem testDone_passes (h : vp.toNat < 5000 ∧ vn.toNat < 5000 ∧ i.toNat < 50) : let e := d.testDone vp.toNat vn.toNat i.toNat
    e.saf.test = none ∧ e.get (shp .sio) SIO.SO_RB_VP k = vp.toNat ∧ e.get (shp .sio) SIO.SO_RB_VN k = vn.toNat ∧ e.get (shp .sio) SIO.SO_RB_I k = i.toNat ∧
      e.get (shp .smb) SMB.REP_STATE = 2 ∧ e.get (shp .sio) SIO.SO_ST_FCODE k = 0 ∧ e.get (shp .sio) SIO.SO_OT_HOURS k = 0 := by
  intro e
  have h1 : k < SIO.SO_ST_FCODE.cnt := hk
  have h2 : k < SIO.SO_OT_HOURS.cnt := hk
  have h3 : k < SIO.SO_RB_VP.cnt := hk
  have h4 : k < SIO.SO_RB_VN.cnt := hk
  have h5 : k < SIO.SO_RB_I.cnt := hk
  obtain ⟨r1, r2, r3, r4⟩ := testRead_shows (d := d) hk vp vn i
  obtain ⟨x, hx⟩ : ∃ x, x = testRead k vp.toNat vn.toNat i.toNat d := ⟨_, rfl⟩
  rw [← hx] at r1 r2 r3 r4
  have hdue : SoKept (testPassed k x) (testDue k (testPassed k x)) := by
    unfold testDue
    exact SoKept.ite (SoKept.refl _) (SoKept.car (by decide) _ _ _)
  have hall := hdue.trans (testReplied (testDue k (testPassed k x)) none)
  have he : e = ((testDue k (testPassed k x)).outUpdate.permits).smbReply none 0 0 := by rw [hx]; exact testDone_passed ht h
  rw [he]
  refine ⟨hall.test.trans r1, ?_, ?_, ?_, (smbReply_shows _ none 0 0).1, ?_, ?_⟩
  · rw [hall.get _ (by simp [soFields]) k hk, testPassed]
    simp (disch := first | decide | assumption) only [get_put_apart]
    exact r2
  · rw [hall.get _ (by simp [soFields]) k hk, testPassed]
    simp (disch := first | decide | assumption) only [get_put_apart]
    exact r3
  · rw [hall.get _ (by simp [soFields]) k hk, testPassed]
    simp (disch := first | decide | assumption) only [get_put_apart]
    exact r4
  · rw [hall.get _ (by simp [soFields]) k hk]
    exact get_put_same _ _ _ _ _ _ (by decide)
  · rw [hall.get _ (by simp [soFields]) k hk, testPassed, get_put_apart _ _ (by decide) (by decide) (by decide) h1 h2 (by decide) (by decide)]
    exact get_put_same _ _ _ _ _ _ (by decide)

/-- A test that fails leaves its fault code. -/
theorem testDone_fails (h : ¬ (vp.toNat < 5000 ∧ vn.toNat < 5000 ∧ i.toNat < 50)) : let e := d.testDone vp.toNat vn.toNat i.toNat
    e.saf.test = none ∧ e.get (shp .sio) SIO.SO_RB_VP k = vp.toNat ∧ e.get (shp .sio) SIO.SO_RB_VN k = vn.toNat ∧ e.get (shp .sio) SIO.SO_RB_I k = i.toNat ∧
      e.get (shp .smb) SMB.REP_STATE = 3 ∧ e.get (shp .smb) SMB.REP_REASON = cOUT_FAULT ∧ 1 ≤ e.get (shp .sio) SIO.SO_ST_FCODE k ∧
      (vp.toNat ≥ 5000 → e.get (shp .sio) SIO.SO_ST_FCODE k = 1) ∧ (vp.toNat < 5000 → 50 ≤ i.toNat → e.get (shp .sio) SIO.SO_ST_FCODE k = 2) := by
  intro e
  have h1 : k < SIO.SO_ST_FCODE.cnt := hk
  have h3 : k < SIO.SO_RB_VP.cnt := hk
  have h4 : k < SIO.SO_RB_VN.cnt := hk
  have h5 : k < SIO.SO_RB_I.cnt := hk
  obtain ⟨r1, r2, r3, r4⟩ := testRead_shows (d := d) hk vp vn i
  obtain ⟨x, c, hx, he, c1, c8, c2, c3⟩ := testDone_failed (vp := vp.toNat) (vn := vn.toNat) (i := i.toNat) ht h
  have hfresh : SoKept (testRead k vp.toNat vn.toNat i.toNat d) x := by
    rcases hx with rfl | rfl
    · exact SoKept.refl _
    · exact SoKept.same rfl rfl
  obtain ⟨y, hy⟩ : ∃ y, y = x.put (shp .sio) SIO.SO_ST_FCODE c k := ⟨_, rfl⟩
  have hfail : SoKept y (x.outFail k c) := by
    rw [outFail_eq, ← hy]
    exact (SoKept.err y _ _).trans ((SoKept.note ..).trans (SoKept.outStops k c _))
  have hall := hfail.trans (testReplied (x.outFail k c) (some cOUT_FAULT))
  have hcode : e.get (shp .sio) SIO.SO_ST_FCODE k = c := by
    show (d.testDone vp.toNat vn.toNat i.toNat).get _ _ _ = _
    rw [he, hall.get _ (by simp [soFields]) k hk, hy, get_put_same _ _ _ _ _ _ (by decide)]
    exact Nat.mod_eq_of_lt (lt_of_lt_of_le c8 (by decide))
  have hread (f : Fld) (hf : f ∈ soFields) (ha : SIO.SO_ST_FCODE.apart f = true) (hff : f.fits = true) (hc : k < f.cnt) :
      e.get (shp .sio) f k = (testRead k vp.toNat vn.toNat i.toNat d).get (shp .sio) f k := by
    show (d.testDone vp.toNat vn.toNat i.toNat).get _ _ _ = _
    rw [he, hall.get f hf k hk, hy, get_put_apart _ _ ha (by decide) hff h1 hc (by decide) (by decide), hfresh.get f hf k hk]
  obtain ⟨p1, p2, -⟩ := smbReply_shows ((x.outFail k c).outUpdate.permits) (some cOUT_FAULT) 0 0
  refine ⟨?_, ?_, ?_, ?_, by rw [show e = _ from he]; exact p1, by rw [show e = _ from he]; exact p2, by rw [hcode]; exact c1, fun hv => by rw [hcode, c2 hv],
    fun hv hi => by rw [hcode, c3 hv hi]⟩
  · rw [show e = _ from he, hall.test, hy]
    exact hfresh.test.trans r1
  · rw [hread _ (by simp [soFields]) (by decide) (by decide) h3, r2]
  · rw [hread _ (by simp [soFields]) (by decide) (by decide) h4, r3]
  · rw [hread _ (by simp [soFields]) (by decide) (by decide) h5, r4]

end

end Dev

/-- Settles O37: one request at a time, INFO, RESET, RESCUE, DEGRADED, OUTPUT_TEST and its end. -/
theorem mailboxRequests : Obligations.MailboxRequests := by
  unfold Obligations.MailboxRequests
  intro s hout hshape
  have hlen := Dev.spLen_of_shaped hshape
  refine ⟨fun i x y tag hbusy hi => ?_, fun hfree h5 => ⟨fun tag => ?_, fun mask tag hrun => ?_, fun car req tag hcar => ⟨fun hreq => ?_, fun hreq => ?_⟩, fun car req tag hcar hreq => ?_,
    fun k ms tag => ⟨fun h => ?_, fun hk hlo hhi hrun hmv => ?_⟩⟩, fun k tag v i ht => ?_⟩
  · have hall (op a0 a1 tg : Nat) : let e := s.dev.smbSend op a0 a1 tg
        e.get (shp .smb) HDR.ERR_CODE = cBUSY ∧ e.get (shp .smb) SMB.REP_STATE = 1 ∧ e.saf = s.dev.saf ∧ s.dev.keeps e [shp .smb] := by
      intro e
      have hask := (Dev.Asked.smbWritten op a0 a1 tg s.dev).trans (Dev.Asked.err (Dev.smbWritten op a0 a1 tg s.dev) cBUSY 0)
      obtain ⟨-, -, -, -, w5⟩ := Dev.smbWritten_shows op a0 a1 tg s.dev
      rw [show e = _ from Dev.smbSend_busy hbusy op a0 a1 tg]
      refine ⟨Dev.get_err_code .., ?_, hask.saf, hask.keeps⟩
      rw [Dev.get_err_apart _ _ _ (by decide) (by decide) (by decide) (by decide), w5, hbusy]
    rcases hi with rfl | rfl | rfl | rfl | rfl <;> exact ⟨_, next_of_out hout rfl, rfl, hall _ _ _ _⟩
  · exact ⟨_, next_of_out hout rfl, rfl, Dev.smbInfo_shows hfree h5 tag⟩
  · dsimp only
    split
    case h_1 hwhy =>
      obtain ⟨h1, h2, h3⟩ := Dev.smbReset_taken hfree h5 hrun mask tag hwhy
      exact ⟨_, next_of_out hout rfl, rfl, h1, h2, fun n hn => ⟨(h3 n hn).sp, (h3 n hn).th, (h3 n hn).cat0, (h3 n hn).cat1, (h3 n hn).trip⟩⟩
    case h_2 r hwhy => exact ⟨_, next_of_out hout rfl, rfl, Dev.smbReset_refused hfree h5 hrun mask tag hwhy⟩
  · exact ⟨_, next_of_out hout rfl, rfl, Dev.smbRescue_ended hfree h5 (by omega) hreq tag⟩
  · split
    case h_1 hwhy => exact ⟨_, next_of_out hout rfl, rfl, Dev.smbRescue_taken hfree h5 hlen (by omega) hreq tag hwhy⟩
    case h_2 r hwhy =>
      obtain ⟨h1, h2, -, h4, h5', h6⟩ := Dev.smbRescue_refused hfree h5 (by omega) hreq tag hwhy
      exact ⟨_, next_of_out hout rfl, rfl, h1, h2, h4.trans (Nat.mod_eq_of_lt (by omega)), h5', h6⟩
  · split
    case h_1 hwhy => exact ⟨_, next_of_out hout rfl, rfl, Dev.smbDegraded_taken hfree h5 hlen (by omega) hreq tag hwhy⟩
    case h_2 r hwhy =>
      obtain ⟨h1, h2, -, h4, h5', h6⟩ := Dev.smbDegraded_refused hfree h5 (by omega) hreq tag hwhy
      exact ⟨_, next_of_out hout rfl, rfl, h1, h2, h4.trans (Nat.mod_eq_of_lt (by omega)), h5', h6⟩
  · exact ⟨_, next_of_out hout rfl, rfl, Dev.outputTest_refused hfree h5 k ms tag h⟩
  · exact ⟨_, next_of_out hout rfl, rfl, Dev.outputTest_taken hfree h5 k ms tag hk hlo hhi hrun hmv⟩
  · by_cases h : v.vp.toNat < 5000 ∧ v.vn.toNat < 5000 ∧ i.toNat < 50
    · obtain ⟨h1, h2, h3, h4, h5⟩ := Dev.testDone_passes k.isLt ht v.vp v.vn i h
      refine ⟨_, next_of_out hout rfl, rfl, h1, h2, h3, h4, ?_⟩
      rw [if_pos h]
      exact h5
    · obtain ⟨h1, h2, h3, h4, h5⟩ := Dev.testDone_fails k.isLt ht v.vp v.vn i h
      refine ⟨_, next_of_out hout rfl, rfl, h1, h2, h3, h4, ?_⟩
      rw [if_neg h]
      exact h5

end Sys2Proof.Machine
end

section
/-! PROOFS. The analog inputs (O51): samples, classes, and the loops that are shorted. -/
namespace Sys2Proof.Machine

open Sys2Proof

namespace Dev

section
variable (d : Dev) (c : Nat)

/-- The flag of an open loop. -/
def aiOpen : Dev :=
  if d.get (shp .ain) AIN.CH_UA_UA c < 500 then d.put (shp .ain) AIN.CH_ST_OPEN 1 c
  else if d.get (shp .ain) AIN.CH_UA_UA c > 520 then d.put (shp .ain) AIN.CH_ST_OPEN 0 c else d

/-- The flags of the two alarm limits, for a current `ua`. -/
def aiAlarm (ua : Nat) : Dev :=
  let p := shp .ain
  let lo := d.get p AIN.ALM_LO_UA c
  let hi := d.get p AIN.ALM_HI_UA c
  if !d.on p AIN.CH_CFG_ALM_EN c then (d.put p AIN.CH_ST_BELOW 0 c).put p AIN.CH_ST_ABOVE 0 c
  else
    let b := ua < lo || (d.on p AIN.CH_ST_BELOW c && ua < lo + 20)
    let a := ua > hi || (d.on p AIN.CH_ST_ABOVE c && ua + 20 > hi)
    let new_ := (b && !d.on p AIN.CH_ST_BELOW c) || (a && !d.on p AIN.CH_ST_ABOVE c)
    let e := (d.putb p AIN.CH_ST_BELOW b c).putb p AIN.CH_ST_ABOVE a c
    if new_ then e.stat p 2 else e

/-- The class that a channel takes. -/
def aiTakes (ua : Nat) : Nat := if d.on (shp .ain) AIN.CH_ST_SHORT c then 4 else aiNext (d.get (shp .ain) AIN.CH_ST_CLASS c) ua

theorem aiJudge_eq : d.aiJudge c =
    ((d.aiOpen c).aiClass c ((d.aiOpen c).aiTakes c (d.get (shp .ain) AIN.CH_UA_UA c))).aiAlarm c (d.get (shp .ain) AIN.CH_UA_UA c) := rfl

/-- What the class of an input writes. -/
def classWs : List (Nat × Fld) := (shp .ain, AIN.CH_ST_CLASS) :: statWs (shp .ain) ++ errWs (shp .ain)

/-- What the alarm limits of an input write. -/
def alarmWs : List (Nat × Fld) := (shp .ain, AIN.CH_ST_BELOW) :: (shp .ain, AIN.CH_ST_ABOVE) :: statWs (shp .ain)

/-- What the judgement of a current writes. -/
def judgeWs : List (Nat × Fld) := (shp .ain, AIN.CH_ST_OPEN) :: (classWs ++ alarmWs)

section
variable {c} (hc : c < 8)
include hc

theorem within_aiOpen : Within [(shp .ain, AIN.CH_ST_OPEN)] d (d.aiOpen c) := by
  have hput (v : Nat) : Within [(shp .ain, AIN.CH_ST_OPEN)] d (d.put (shp .ain) AIN.CH_ST_OPEN v c) := (Within.refl _ d).put (by simp) (by decide) hc _ (by decide)
  exact Within.ite (fun _ => hput 1) fun _ => Within.ite (fun _ => hput 0) fun _ => Within.refl _ d

omit hc in
theorem aiOpen_shows : (d.get (shp .ain) AIN.CH_UA_UA c < 500 → (d.aiOpen c).get (shp .ain) AIN.CH_ST_OPEN c = 1) ∧
    (d.get (shp .ain) AIN.CH_UA_UA c > 520 → (d.aiOpen c).get (shp .ain) AIN.CH_ST_OPEN c = 0) := by
  refine ⟨fun h => ?_, fun h => ?_⟩
  · rw [aiOpen, if_pos h, get_put_same _ _ _ _ _ _ (by decide)]
    rfl
  · rw [aiOpen, if_neg (by omega), if_pos h, get_put_same _ _ _ _ _ _ (by decide)]
    rfl

theorem within_aiClass (cls : Nat) : Within classWs d (d.aiClass c cls) := by
  have hput : Within classWs d (d.put (shp .ain) AIN.CH_ST_CLASS cls c) := (Within.refl _ d).put (by simp [classWs]) (by decide) hc _ (by decide)
  exact Within.ite (fun _ => (hput.stat (by simp [classWs, statWs]) 0).fault (fun w hw => by simp [classWs, hw]) _ _ _) fun _ => hput

theorem class_aiClass (cls : Nat) : (d.aiClass c cls).get (shp .ain) AIN.CH_ST_CLASS c = cls % 2 ^ 3 := by
  have hput : (d.put (shp .ain) AIN.CH_ST_CLASS cls c).get (shp .ain) AIN.CH_ST_CLASS c = cls % 2 ^ 3 := get_put_same _ _ _ _ _ _ (by decide)
  have hrest : Within (statWs (shp .ain) ++ errWs (shp .ain)) (d.put (shp .ain) AIN.CH_ST_CLASS cls c) (d.aiClass c cls) :=
    Within.ite (fun _ => ((Within.refl _ _).stat (by simp [statWs]) 0).fault (fun w hw => by simp [hw]) _ _ _) fun _ => Within.refl _ _
  rw [hrest.get _ _ _ _ (by decide) (by decide) (by decide) hc (by decide), hput]

/-- Entry to the class above the range leaves the code of the failure. -/
theorem code_aiClass : (d.aiClass c 4).get (shp .ain) HDR.ERR_CODE =
    if d.get (shp .ain) AIN.CH_ST_CLASS c = 4 then d.get (shp .ain) HDR.ERR_CODE else cAI_FAIL := by
  have hput : Within [(shp .ain, AIN.CH_ST_CLASS)] d (d.put (shp .ain) AIN.CH_ST_CLASS 4 c) := (Within.refl _ d).put (by simp) (by decide) hc _ (by decide)
  have heq : d.aiClass c 4 = if 4 ≠ d.get (shp .ain) AIN.CH_ST_CLASS c then
      ((d.put (shp .ain) AIN.CH_ST_CLASS 4 c).stat (shp .ain) 0).fault (shp .ain) cAI_FAIL c else d.put (shp .ain) AIN.CH_ST_CLASS 4 c := by
    simp [aiClass]
  rw [heq]
  by_cases h : d.get (shp .ain) AIN.CH_ST_CLASS c = 4
  · rw [if_neg (by simp [h]), if_pos h, hput.get _ _ _ _ (by decide) (by decide) (by decide) (by decide) (by decide)]
  · rw [if_pos (fun he => h he.symm), if_neg h, fault, get_note_other _ _ _ _ _ (by decide) (by decide) (by decide) (by decide), get_err_code]
    decide

theorem within_aiAlarm (ua : Nat) : Within alarmWs d (d.aiAlarm c ua) := by
  have hput {e : Dev} (h : Within alarmWs d e) (v w : Nat) : Within alarmWs d ((e.put (shp .ain) AIN.CH_ST_BELOW v c).put (shp .ain) AIN.CH_ST_ABOVE w c) :=
    (h.put (by simp [alarmWs]) (by decide) hc _ (by decide)).put (by simp [alarmWs]) (by decide) hc _ (by decide)
  exact Within.ite (fun _ => hput (Within.refl _ d) 0 0) fun _ =>
    Within.ite (fun _ => (hput (Within.refl _ d) _ _).stat (by simp [alarmWs, statWs]) 2) fun _ => hput (Within.refl _ d) _ _

theorem within_aiJudge : Within judgeWs d (d.aiJudge c) := by
  rw [aiJudge_eq]
  exact ((d.within_aiOpen hc).mono (by simp [judgeWs])).trans <|
    ((within_aiClass _ hc _).mono fun w hw => by simp [judgeWs, hw]).trans ((within_aiAlarm _ hc _).mono fun w hw => by simp [judgeWs, hw])

/-- A current is classified, with the flag of an open loop. -/
theorem aiJudge_shows : (d.aiJudge c).get (shp .ain) AIN.CH_ST_CLASS c = d.aiTakes c (d.get (shp .ain) AIN.CH_UA_UA c) % 2 ^ 3 ∧
    (d.get (shp .ain) AIN.CH_UA_UA c < 500 → (d.aiJudge c).get (shp .ain) AIN.CH_ST_OPEN c = 1) ∧
    (d.get (shp .ain) AIN.CH_UA_UA c > 520 → (d.aiJudge c).get (shp .ain) AIN.CH_ST_OPEN c = 0) := by
  have hopen := d.within_aiOpen hc
  have htakes (ua : Nat) : (d.aiOpen c).aiTakes c ua = d.aiTakes c ua := by
    rw [aiTakes, aiTakes, on, on, hopen.get _ _ _ _ (by decide) (by decide) (by decide) hc (by decide), hopen.get _ _ _ _ (by decide) (by decide) (by decide) hc (by decide)]
  have hflag (cls ua : Nat) : (((d.aiOpen c).aiClass c cls).aiAlarm c ua).get (shp .ain) AIN.CH_ST_OPEN c = (d.aiOpen c).get (shp .ain) AIN.CH_ST_OPEN c := by
    rw [(within_aiAlarm _ hc _).get _ _ _ _ (by decide) (by decide) (by decide) hc (by decide),
      (within_aiClass _ hc _).get _ _ _ _ (by decide) (by decide) (by decide) hc (by decide)]
  obtain ⟨hlow, hhigh⟩ := d.aiOpen_shows (c := c)
  refine ⟨?_, fun h => ?_, fun h => ?_⟩
  · rw [aiJudge_eq, (within_aiAlarm _ hc _).get _ _ _ _ (by decide) (by decide) (by decide) hc (by decide), class_aiClass _ hc, htakes]
  · rw [aiJudge_eq, hflag, hlow h]
  · rw [aiJudge_eq, hflag, hhigh h]

end

/-! ### A sample of a channel in use -/

/-- The currents that a sample averages over. -/
def aiMean (code : Nat) : List Nat := ((code :: d.fio.win.getD c []).take 128).take (2 ^ d.get (shp .ain) AIN.CH_CFG_FILT c)

/-- A channel with the registers of a sample, before its judgement. -/
def aiTaken (code : Nat) : Dev :=
  (({ d with fio := { d.fio with win := lset d.fio.win c ((code :: d.fio.win.getD c []).take 128) } } : Dev).put (shp .ain) AIN.CH_RAW_CODE code c).put (shp .ain) AIN.CH_UA_UA
    ((d.aiMean c code).sum / (2 * (d.aiMean c code).length)) c

theorem aiSample_eq (code : Nat) : d.aiSample c code =
    if !d.enabled (shp .ain) then d else if !d.on (shp .ain) AIN.CH_CFG_EN c then d.aiOff c else (d.aiTaken c code).aiJudge c := rfl

variable {c}

theorem within_aiTaken (hc : c < 8) (code : Nat) : Within [(shp .ain, AIN.CH_RAW_CODE), (shp .ain, AIN.CH_UA_UA)] d (d.aiTaken c code) := by
  refine Within.put (Within.put (Within.same (Within.refl _ d) ?_ ?_) ?_ (by decide) hc code (by decide)) ?_ (by decide) hc _ (by decide)
  · rfl
  · rfl
  · simp
  · simp

theorem aiSample_shows (hc : c < 8) (code : BitVec 16) :
    ((d.aiTaken c code.toNat).aiJudge c).get (shp .ain) AIN.CH_RAW_CODE c = code.toNat ∧
    ((d.aiTaken c code.toNat).aiJudge c).get (shp .ain) AIN.CH_UA_UA c = (d.aiMean c code.toNat).sum / (2 * (d.aiMean c code.toNat).length) % 2 ^ 16 ∧
    d.keeps ((d.aiTaken c code.toNat).aiJudge c) [shp .ain, shp .slt] ∧
    ((d.aiTaken c code.toNat).aiJudge c).get (shp .ain) AIN.CH_ST_CLASS c =
      (if d.on (shp .ain) AIN.CH_ST_SHORT c = true then 4
        else aiNext (d.get (shp .ain) AIN.CH_ST_CLASS c) (((d.aiTaken c code.toNat).aiJudge c).get (shp .ain) AIN.CH_UA_UA c)) % 2 ^ 3 ∧
    (((d.aiTaken c code.toNat).aiJudge c).get (shp .ain) AIN.CH_UA_UA c < 500 → ((d.aiTaken c code.toNat).aiJudge c).get (shp .ain) AIN.CH_ST_OPEN c = 1) ∧
    (((d.aiTaken c code.toNat).aiJudge c).get (shp .ain) AIN.CH_UA_UA c > 520 → ((d.aiTaken c code.toNat).aiJudge c).get (shp .ain) AIN.CH_ST_OPEN c = 0) := by
  have htake := d.within_aiTaken hc code.toNat
  have hjudge := (d.aiTaken c code.toNat).within_aiJudge hc
  have hua := hjudge.get (shp .ain) AIN.CH_UA_UA c 0 (by decide) (by decide) (by decide) hc (by decide)
  obtain ⟨hcls, hlow, hhigh⟩ := (d.aiTaken c code.toNat).aiJudge_shows hc
  rw [aiTakes, on, htake.get _ _ _ _ (by decide) (by decide) (by decide) hc (by decide), htake.get _ _ _ _ (by decide) (by decide) (by decide) hc (by decide)] at hcls
  have hraw : (d.aiTaken c code.toNat).get (shp .ain) AIN.CH_RAW_CODE c = code.toNat := by
    rw [aiTaken, get_put_apart _ _ (by decide) (by decide) (by decide) hc hc (by decide) (by decide), get_put_bv (w := 16) _ _ _ _ _ _ rfl (by decide)]
  have hframe {ws : List (Nat × Fld)} {e x : Dev} (h : Within ws e x) (hws : ∀ w ∈ ws, w.1 = shp .ain) : e.keeps x [shp .ain, shp .slt] :=
    h.frame (by simp) fun w hw => by simp [hws w hw]
  refine ⟨?_, ?_, keeps_trans (hframe htake (by decide)) (hframe hjudge (by decide)), ?_, fun h => hlow (hua ▸ h), fun h => hhigh (hua ▸ h)⟩
  · rw [hjudge.get _ _ _ _ (by decide) (by decide) (by decide) hc (by decide), hraw]
  · rw [hua]
    exact get_put_same _ _ _ _ _ _ (by decide)
  · rw [hcls, hua]
    rfl

/-- The registers that read 0 at a channel out of use. -/
def offFields : List Fld := [AIN.CH_RAW_CODE, AIN.CH_UA_UA, AIN.CH_ST_SHORT, AIN.CH_ST_OPEN, AIN.CH_ST_BELOW, AIN.CH_ST_ABOVE]

/-- A channel out of use reads 0, in the class below the range. -/
theorem aiOff_shows (hc : c < 8) : (d.aiOff c).get (shp .ain) AIN.CH_UA_UA c = 0 ∧ (d.aiOff c).get (shp .ain) AIN.CH_ST_CLASS c = 3 ∧ d.keeps (d.aiOff c) [shp .ain] := by
  have hput (e : Dev) (f : Fld) (hf : f ∈ AIN.CH_ST_CLASS :: offFields) (v : Nat) : e.keeps (e.put (shp .ain) f v c) [shp .ain] := by
    have hfit : f.fits = true ∧ 8 ≤ f.cnt := by fin_cases hf <;> decide
    exact (keeps_put_iff (by simp) hfit.1 (by omega) (by decide)).mpr (keeps_refl e _)
  have hstep (l : List Fld) : (∀ f ∈ l, f ∈ offFields) → ∀ e : Dev, e.keeps (l.foldl (fun d f => d.put (shp .ain) f 0 c) e) [shp .ain] := by
    induction l with
    | nil => exact fun _ e => keeps_refl e _
    | cons f l ih =>
      intro hl e
      exact keeps_trans (hput e f (List.mem_cons_of_mem _ (hl f List.mem_cons_self)) 0) (ih (fun g hg => hl g (List.mem_cons_of_mem _ hg)) _)
  obtain ⟨x, hx⟩ : ∃ x, x = { d with fio := { d.fio with win := lset d.fio.win c [] } } := ⟨_, rfl⟩
  have hrun : d.aiOff c = offFields.foldl (fun d f => d.put (shp .ain) f 0 c) (x.put (shp .ain) AIN.CH_ST_CLASS 3 c) := by rw [hx]; rfl
  have hsame : d.keeps x [shp .ain] := by rw [hx]; exact keeps_refl d _
  rw [hrun]
  refine ⟨?_, ?_, keeps_trans hsame (keeps_trans (hput x _ List.mem_cons_self 3) (hstep offFields (fun _ h => h) _))⟩ <;> rw [offFields] <;> simp only [List.foldl_cons, List.foldl_nil]
  · iterate 4 rw [get_put_apart _ _ (by decide) (by decide) (by decide) hc hc (by decide) (by decide)]
    rw [get_put_same _ _ _ _ _ _ (by decide), Nat.zero_mod]
  · iterate 6 rw [get_put_apart _ _ (by decide) (by decide) (by decide) hc hc (by decide) (by decide)]
    exact get_put_same _ _ _ _ _ _ (by decide)

/-! ### Loops that are shorted -/

/-- A loop that is shorted is reported, and its channel is classed as failed. -/
theorem aiShort_shows (hc : c < 8) (h : d.enabled (shp .ain) = true ∧ d.on (shp .ain) AIN.CH_CFG_EN c = true ∧ d.get (shp .ain) AIN.CH_UA_UA c ≥ 28000 ∧
      d.on (shp .ain) AIN.CH_ST_SHORT c = false) :
    (d.aiShort c).get (shp .ain) AIN.CH_ST_SHORT c = 1 ∧ (d.aiShort c).get (shp .ain) AIN.CH_ST_CLASS c = 4 ∧
    (d.aiShort c).get (shp .ain) HDR.ERR_CODE = (if d.get (shp .ain) AIN.CH_ST_CLASS c = 4 then cAI_SHORT else cAI_FAIL) ∧ d.keeps (d.aiShort c) [shp .ain, shp .slt] := by
  obtain ⟨hen, hch, hua, hshort⟩ := h
  obtain ⟨x, hx⟩ : ∃ x, x = ((d.put (shp .ain) AIN.CH_ST_SHORT 1 c).stat (shp .ain) 1).fault (shp .ain) cAI_SHORT c := ⟨_, rfl⟩
  have hrun : d.aiShort c = x.aiClass c 4 := by
    rw [aiShort, hen, hch, hshort, if_neg (by simp; omega), hx]
  have hsame : Within (statWs (shp .ain) ++ errWs (shp .ain)) (d.put (shp .ain) AIN.CH_ST_SHORT 1 c) x :=
    hx ▸ ((Within.refl _ _).stat (by simp [statWs]) 1).fault (fun w hw => by simp [hw]) _ _ _
  have hput : Within [(shp .ain, AIN.CH_ST_SHORT)] d (d.put (shp .ain) AIN.CH_ST_SHORT 1 c) := (Within.refl _ d).put (by simp) (by decide) hc _ (by decide)
  have hcls := x.within_aiClass hc 4
  have hframe {ws : List (Nat × Fld)} {e x : Dev} (h : Within ws e x) (hws : ∀ w ∈ ws, w.1 = shp .ain) : e.keeps x [shp .ain, shp .slt] :=
    h.frame (by simp) fun w hw => by simp [hws w hw]
  rw [hrun]
  refine ⟨?_, x.class_aiClass hc 4, ?_, keeps_trans (hframe hput (by decide)) (keeps_trans (hframe hsame (by decide)) (hframe hcls (by decide)))⟩
  · rw [hcls.get _ _ _ _ (by decide) (by decide) (by decide) hc (by decide), hsame.get _ _ _ _ (by decide) (by decide) (by decide) hc (by decide),
      get_put_same _ _ _ _ _ _ (by decide)]
    rfl
  · have hcode : x.get (shp .ain) HDR.ERR_CODE = cAI_SHORT := by
      rw [hx, fault, get_note_other _ _ _ _ _ (by decide) (by decide) (by decide) (by decide), get_err_code]
      decide
    rw [x.code_aiClass hc, hcode, hsame.get _ _ _ _ (by decide) (by decide) (by decide) hc (by decide),
      hput.get _ _ _ _ (by decide) (by decide) (by decide) hc (by decide)]

/-- A loop whose current stays below the limit is taken back into use. -/
theorem aiRetry_shows (hc : c < 8) (ua : BitVec 16) (h : d.enabled (shp .ain) = true ∧ d.on (shp .ain) AIN.CH_ST_SHORT c = true ∧ ua.toNat < 28000) :
    (d.aiRetry c ua.toNat).get (shp .ain) AIN.CH_ST_SHORT c = 0 ∧ (d.aiRetry c ua.toNat).get (shp .ain) AIN.CH_UA_UA c = ua.toNat ∧
    (d.aiRetry c ua.toNat).get (shp .ain) AIN.CH_ST_CLASS c = aiNext (d.get (shp .ain) AIN.CH_ST_CLASS c) ua.toNat % 2 ^ 3 ∧
    d.keeps (d.aiRetry c ua.toNat) [shp .ain, shp .slt] := by
  obtain ⟨hen, hshort, hua⟩ := h
  obtain ⟨x, hx⟩ : ∃ x, x = (d.put (shp .ain) AIN.CH_ST_SHORT 0 c).put (shp .ain) AIN.CH_UA_UA ua.toNat c := ⟨_, rfl⟩
  have hrun : d.aiRetry c ua.toNat = x.aiJudge c := by
    rw [aiRetry, hen, hshort, if_neg (by simp; omega), hx]
  have hput : Within [(shp .ain, AIN.CH_ST_SHORT), (shp .ain, AIN.CH_UA_UA)] d x :=
    hx ▸ ((Within.refl _ d).put (by simp) (by decide) hc _ (by decide)).put (by simp) (by decide) hc _ (by decide)
  have hoff : x.get (shp .ain) AIN.CH_ST_SHORT c = 0 := by
    rw [hx, get_put_apart _ _ (by decide) (by decide) (by decide) hc hc (by decide) (by decide), get_put_same _ _ _ _ _ _ (by decide)]
    rfl
  have hcur : x.get (shp .ain) AIN.CH_UA_UA c = ua.toNat := by rw [hx, get_put_bv (w := 16) _ _ _ _ _ _ rfl (by decide)]
  have hjudge := x.within_aiJudge hc
  obtain ⟨hcls, -, -⟩ := x.aiJudge_shows hc
  have hframe {ws : List (Nat × Fld)} {e x : Dev} (h : Within ws e x) (hws : ∀ w ∈ ws, w.1 = shp .ain) : e.keeps x [shp .ain, shp .slt] :=
    h.frame (by simp) fun w hw => by simp [hws w hw]
  rw [hrun]
  refine ⟨?_, ?_, ?_, keeps_trans (hframe hput (by decide)) (hframe hjudge (by decide))⟩
  · rw [hjudge.get _ _ _ _ (by decide) (by decide) (by decide) hc (by decide), hoff]
  · rw [hjudge.get _ _ _ _ (by decide) (by decide) (by decide) hc (by decide), hcur]
  · rw [hcls, aiTakes, on, hoff, hcur, hput.get _ _ _ _ (by decide) (by decide) (by decide) hc (by decide), if_neg (by decide)]

end

end Dev

end Sys2Proof.Machine
end

section
/-! PROOFS. The analog output stages (O51): what a stage reports, and the targets that the outputs are driven to. -/
namespace Sys2Proof.Machine

open Sys2Proof

namespace Dev

theorem on_putb_same (d : Dev) (p : Nat) {f : Fld} (b : Bool) (i t : Nat) (hw : f.w = 1) : (d.putb p f b i t).on p f i t = b := by
  rw [on, putb, get_put_same _ _ _ _ _ _ (by omega), hw]
  cases b <;> rfl

theorem on_putb_apart (d : Dev) {p : Nat} {f g : Fld} (b : Bool) {i t j u : Nat} (h : f.apart g = true) (hf : f.fits = true) (hg : g.fits = true)
    (hi : i < f.cnt) (hj : j < g.cnt) (ht : t < 65536) (hu : u < 65536) : (d.putb p f b i t).on p g j u = d.on p g j u := by
  rw [on, putb, get_put_apart _ _ h hf hg hi hj ht hu]
  rfl

theorem on_put_apart (d : Dev) {p : Nat} {f g : Fld} (v : Nat) {i t j u : Nat} (h : f.apart g = true) (hf : f.fits = true) (hg : g.fits = true)
    (hi : i < f.cnt) (hj : j < g.cnt) (ht : t < 65536) (hu : u < 65536) : (d.put p f v i t).on p g j u = d.on p g j u := by
  rw [on, get_put_apart _ _ h hf hg hi hj ht hu]
  rfl

/-- A write of one register stays on its page. -/
theorem keeps_put_own (d : Dev) {p : Nat} {f : Fld} (v : Nat) {i : Nat} (hf : f.fits = true) (hi : i < f.cnt) : d.keeps (d.put p f v i) [p] :=
  (keeps_put_iff (by simp) hf hi (by decide)).mpr (keeps_refl d _)

/-! ### Reports of a stage -/

section
variable (d : Dev) {c : Nat} (hc : c < 4)
include hc

theorem aoReport_shows (meas ut : BitVec 16) (rsvLow sat : Bool) {e : Dev} (he : e = d.aoReport c meas.toNat ut.toNat rsvLow sat) :
    d.keeps e [shp .aout] ∧ e.on (shp .aout) AOUT.CH_ST_RSV_LOW c = rsvLow ∧ e.on (shp .aout) AOUT.CH_ST_STALE c = rsvLow ∧
    (rsvLow = false → e.get (shp .aout) AOUT.CH_MEAS_UA c = meas.toNat ∧ e.get (shp .aout) AOUT.CH_UT_MV c = ut.toNat ∧ e.on (shp .aout) AOUT.CH_ST_SAT c = sat ∧
      e.get (shp .aout) AOUT.CH_ST_LINK c = 0) ∧
    (rsvLow = true → e.get (shp .aout) AOUT.CH_MEAS_UA c = d.get (shp .aout) AOUT.CH_MEAS_UA c) := by
  obtain ⟨x, hx⟩ : ∃ x, x = (d.putb (shp .aout) AOUT.CH_ST_RSV_LOW rsvLow c).putb (shp .aout) AOUT.CH_ST_STALE rsvLow c := ⟨_, rfl⟩
  have hkx : d.keeps x [shp .aout] := hx ▸ keeps_trans (keeps_put_own d _ (by decide) hc) (keeps_put_own _ _ (by decide) hc)
  have hrsv : x.on (shp .aout) AOUT.CH_ST_RSV_LOW c = rsvLow := by
    rw [hx, on_putb_apart _ _ (by decide) (by decide) (by decide) hc hc (by decide) (by decide), on_putb_same _ _ _ _ _ rfl]
  have hstale : x.on (shp .aout) AOUT.CH_ST_STALE c = rsvLow := by rw [hx, on_putb_same _ _ _ _ _ rfl]
  cases rsvLow with
  | true =>
    have hrun : e = x := by rw [he, hx]; rfl
    have hmeas : x.get (shp .aout) AOUT.CH_MEAS_UA c = d.get (shp .aout) AOUT.CH_MEAS_UA c := by
      rw [hx, putb, putb]
      iterate 2 rw [get_put_apart _ _ (by decide) (by decide) (by decide) hc hc (by decide) (by decide)]
    rw [hrun]
    exact ⟨hkx, hrsv, hstale, fun h => absurd h (by decide), fun _ => hmeas⟩
  | false =>
    have hrun : e = (((x.put (shp .aout) AOUT.CH_MEAS_UA meas.toNat c).put (shp .aout) AOUT.CH_UT_MV ut.toNat c).putb (shp .aout) AOUT.CH_ST_SAT sat c).put (shp .aout)
        AOUT.CH_ST_LINK 0 c := by rw [he, hx]; rfl
    have hlater {f : Fld} (h : ∀ g ∈ [AOUT.CH_MEAS_UA, AOUT.CH_UT_MV, AOUT.CH_ST_SAT, AOUT.CH_ST_LINK], g.apart f = true) (hf : f.fits = true) (hi : c < f.cnt) :
        e.get (shp .aout) f c = x.get (shp .aout) f c := by
      rw [hrun, putb, get_put_apart _ _ (h _ (by simp)) (by decide) hf hc hi (by decide) (by decide), get_put_apart _ _ (h _ (by simp)) (by decide) hf hc hi (by decide) (by decide),
        get_put_apart _ _ (h _ (by simp)) (by decide) hf hc hi (by decide) (by decide), get_put_apart _ _ (h _ (by simp)) (by decide) hf hc hi (by decide) (by decide)]
    refine ⟨?_, ?_, ?_, fun _ => ⟨?_, ?_, ?_, ?_⟩, fun h => absurd h (by decide)⟩
    · rw [hrun]
      exact keeps_trans hkx (keeps_trans (keeps_put_own x _ (by decide) hc) (keeps_trans (keeps_put_own _ _ (by decide) hc)
        (keeps_trans (keeps_put_own _ _ (by decide) hc) (keeps_put_own _ _ (by decide) hc))))
    · rw [on, hlater (by decide) (by decide) hc, ← on, hrsv]
    · rw [on, hlater (by decide) (by decide) hc, ← on, hstale]
    · rw [hrun, putb]
      iterate 3 rw [get_put_apart _ _ (by decide) (by decide) (by decide) hc hc (by decide) (by decide)]
      exact get_put_bv (w := 16) _ _ _ _ _ _ rfl (by decide)
    · rw [hrun, putb]
      iterate 2 rw [get_put_apart _ _ (by decide) (by decide) (by decide) hc hc (by decide) (by decide)]
      exact get_put_bv (w := 16) _ _ _ _ _ _ rfl (by decide)
    · rw [hrun, on_put_apart _ _ (by decide) (by decide) (by decide) hc hc (by decide) (by decide), on_putb_same _ _ _ _ _ rfl]
    · rw [hrun]
      exact get_put_same _ _ _ _ _ _ (by decide)

/-- A fault of a stage: its flag, a status bit and the code of the page. -/
theorem stageFault_shows {f : Fld} (hf : f ∈ [AOUT.CH_ST_LINK, AOUT.CH_ST_COMPLIANCE]) (k code : Nat) (hcode : code % 2 ^ 8 = code) {e : Dev}
    (he : e = ((d.put (shp .aout) f 1 c).stat (shp .aout) k).fault (shp .aout) code c) :
    e.get (shp .aout) f c = 1 ∧ e.get (shp .aout) HDR.ERR_CODE = code ∧ d.keeps e [shp .aout, shp .slt] := by
  have hfit : f.fits = true ∧ 4 ≤ f.cnt ∧ f.w = 1 ∧ clearOf (statWs (shp .aout) ++ errWs (shp .aout)) (shp .aout) f = true := by fin_cases hf <;> decide
  obtain ⟨hfits, hcnt, hw, hclear⟩ := hfit
  have hrest : Within (statWs (shp .aout) ++ errWs (shp .aout)) (d.put (shp .aout) f 1 c) e :=
    he ▸ ((Within.refl _ _).stat (by simp [statWs]) k).fault (fun w hw => by simp [hw]) _ _ _
  refine ⟨?_, ?_, keeps_trans (keeps_mono (keeps_put_own d 1 hfits (by omega)) (by simp)) (hrest.frame (by simp) (by decide))⟩
  · rw [hrest.get _ _ _ _ (by decide) hclear hfits (by omega) (by decide), get_put_same _ _ _ _ _ _ (by omega), hw]
    rfl
  · rw [he, fault, get_note_other _ _ _ _ _ (by decide) (by decide) (by decide) (by decide), get_err_code, hcode]

/-! ### The target of an output -/

/-- The stage's own target under a drive. -/
def aoStage (d : Dev) (c : Nat) : Int :=
  if bitN d.fio.lost c == 1 then (if d.aoHigh c then 21750 else 3500)
  else aoTrim (d.aoValue c).1 (d.geti (shp .trm) TRM.AO_ZERO_U c) (d.geti (shp .trm) TRM.AO_SPAN_U c)

/-- What the drive of an output writes. -/
def aoWs : List (Nat × Fld) :=
  [(shp .aout, AOUT.CH_TGT_UA), (shp .aout, AOUT.CH_ST_SAFE), (shp .aout, AOUT.CH_ST_ALARM), (shp .aout, AOUT.CH_ST_ALM_HIGH), (shp .aout, AOUT.CH_ST_CLIP)]

omit hc in
theorem aoDrive_eq : ∃ v w z, d.aoDrive c = (((((({ d with fio := { d.fio with stage := lset d.fio.stage c (d.aoStage c) } } : Dev).puti (shp .aout) AOUT.CH_TGT_UA
    (aoTrim (d.aoValue c).1 (d.geti (shp .trm) TRM.AO_ZERO_U c) (d.geti (shp .trm) TRM.AO_SPAN_U c)) c).put (shp .aout) AOUT.CH_ST_SAFE v c).putb (shp .aout) AOUT.CH_ST_ALARM
    ((d.aoValue c).2.1 || bitN d.fio.lost c == 1) c).put (shp .aout) AOUT.CH_ST_ALM_HIGH w c).put (shp .aout) AOUT.CH_ST_CLIP z c) :=
  ⟨_, _, _, rfl⟩

theorem aoDrive_shows {e : Dev} (he : e = d.aoDrive c) : Within aoWs d e ∧ d.keeps e [shp .aout] ∧
    e.fio = { d.fio with stage := lset d.fio.stage c (d.aoStage c) } ∧
    e.get (shp .aout) AOUT.CH_TGT_UA c = encS 16 (aoTrim (d.aoValue c).1 (d.geti (shp .trm) TRM.AO_ZERO_U c) (d.geti (shp .trm) TRM.AO_SPAN_U c)) % 2 ^ 16 ∧
    e.on (shp .aout) AOUT.CH_ST_ALARM c = ((d.aoValue c).2.1 || bitN d.fio.lost c == 1) := by
  obtain ⟨v, w, z, heq⟩ := d.aoDrive_eq (c := c)
  obtain ⟨x, hx⟩ : ∃ x, x = { d with fio := { d.fio with stage := lset d.fio.stage c (d.aoStage c) } } := ⟨_, rfl⟩
  have hfio : x.fio = { d.fio with stage := lset d.fio.stage c (d.aoStage c) } := by rw [hx]
  have hwx : Within aoWs d x := (Within.refl _ d).same (by rw [hx]) (by rw [hx]; rfl)
  have hkx : d.keeps x [shp .aout] := by rw [hx]; exact keeps_refl d _
  rw [heq, ← hx, puti, putb] at he
  have hput {y : Dev} (h : Within aoWs d y ∧ d.keeps y [shp .aout]) {f : Fld} (hm : (shp .aout, f) ∈ aoWs) (v : Nat) :
      Within aoWs d (y.put (shp .aout) f v c) ∧ d.keeps (y.put (shp .aout) f v c) [shp .aout] := by
    have hfit : f.fits = true ∧ 4 ≤ f.cnt := by
      have hall : ∀ w ∈ aoWs, w.2.fits = true ∧ 4 ≤ w.2.cnt := by decide
      exact hall _ hm
    exact ⟨h.1.put hm hfit.1 (by omega) v (by decide), keeps_trans h.2 (keeps_put_own y v hfit.1 (by omega))⟩
  obtain ⟨hwithin, hkeeps⟩ := hput (hput (hput (hput (hput ⟨hwx, hkx⟩ (f := AOUT.CH_TGT_UA) (by simp [aoWs]) _) (f := AOUT.CH_ST_SAFE) (by simp [aoWs]) v)
    (f := AOUT.CH_ST_ALARM) (by simp [aoWs]) _) (f := AOUT.CH_ST_ALM_HIGH) (by simp [aoWs]) w) (f := AOUT.CH_ST_CLIP) (by simp [aoWs]) z
  rw [← he] at hwithin hkeeps
  refine ⟨hwithin, hkeeps, by rw [← hfio, he]; rfl, ?_, ?_⟩
  · rw [he]
    iterate 4 rw [get_put_apart _ _ (by decide) (by decide) (by decide) hc hc (by decide) (by decide)]
    exact get_put_same _ _ _ _ _ _ (by decide)
  · rw [he]
    iterate 2 rw [on_put_apart _ _ (by decide) (by decide) (by decide) hc hc (by decide) (by decide)]
    exact on_putb_same _ _ _ _ _ rfl

/-- A stage that receives no target goes to its alarm level. -/
theorem targetLoss_shows {e : Dev} (he : e = { d with fio := { d.fio with lost := setBitN d.fio.lost c true } }.aoDrive c) :
    e.on (shp .aout) AOUT.CH_ST_ALARM c = true ∧
    e.fio = { d.fio with lost := setBitN d.fio.lost c true, stage := lset d.fio.stage c (if d.aoHigh c then 21750 else 3500) } ∧ d.keeps e [shp .aout] := by
  obtain ⟨-, hkeeps, hfio, -, halarm⟩ := aoDrive_shows _ hc he
  refine ⟨?_, ?_, keeps_trans (keeps_refl d _) hkeeps⟩
  · rw [halarm, bitN_setBitN_same, Bool.or_eq_true]
    exact .inr rfl
  · rw [hfio, aoStage, bitN_setBitN_same, if_pos (by decide)]
    rfl

end

end Dev

end Sys2Proof.Machine
end

section
/-! PROOFS. The trims of the analog outputs, and how the field outputs are driven under them (O51). -/
namespace Sys2Proof.Machine

open Sys2Proof

namespace Dev

/-! ### The drive of the field outputs -/

/-- What a drive of the field outputs writes. -/
def driveWs : List (Nat × Fld) :=
  [(shp .dout, DOUT.RB_BITS), (shp .dout, DOUT.FLT_RB_HIGH), (shp .dout, DOUT.OUT_BITS), (shp .wir, WIR.OUT_DIG_BITS), (shp .dout, DOUT.STATE_CAUSE)] ++ aoWs

section
variable (d : Dev)

theorem fioDrive_eq : ∃ r f o w c, d.fioDrive = (List.range 4).foldl aoDrive (((((d.put (shp .dout) DOUT.RB_BITS r).put (shp .dout) DOUT.FLT_RB_HIGH f).put (shp .dout)
    DOUT.OUT_BITS o).put (shp .wir) WIR.OUT_DIG_BITS w).put (shp .dout) DOUT.STATE_CAUSE c) := by
  unfold fioDrive
  exact ⟨_, _, _, _, _, rfl⟩

theorem within_fioDrive : Within driveWs d d.fioDrive := by
  obtain ⟨r, f, o, w, c, heq⟩ := d.fioDrive_eq
  rw [heq]
  have hput {e : Dev} (h : Within driveWs d e) {p : Nat} {f : Fld} (hm : (p, f) ∈ driveWs) (hf : f.fits = true ∧ 0 < f.cnt) (v : Nat) : Within driveWs d (e.put p f v) :=
    h.put hm hf.1 hf.2 v (by decide)
  refine (hput (hput (hput (hput (hput (Within.refl _ d) (by decide) (by decide) r) (by decide) (by decide) f) (by decide) (by decide) o) (by decide) (by decide) w)
    (by decide) (by decide) c).trans (Within.foldl _ _ fun e k hk => ?_)
  obtain ⟨hwithin, -⟩ := aoDrive_shows e (List.mem_range.mp hk) rfl
  exact hwithin.mono fun w hw => List.mem_append_right _ hw

theorem keeps_fioDrive : d.keeps d.fioDrive [shp .dout, shp .aout, shp .wir] := by
  obtain ⟨r, f, o, w, c, heq⟩ := d.fioDrive_eq
  rw [heq]
  refine keeps_trans ?_ (keeps_foldl _ _ fun e k hk => ?_)
  · simp (disch := decide) only [keeps_put_iff, keeps_refl_iff]
  · obtain ⟨-, hkeeps, -⟩ := aoDrive_shows e (List.mem_range.mp hk) rfl
    exact keeps_mono hkeeps (by simp)

/-- The drive of one output leaves the targets of the others. -/
theorem get_aoDrive_idx {k n : Nat} (hk : k < 4) (hn : n < 4) (h : k ≠ n) : (d.aoDrive k).get (shp .aout) AOUT.CH_TGT_UA n = d.get (shp .aout) AOUT.CH_TGT_UA n := by
  obtain ⟨v, w, z, heq⟩ := d.aoDrive_eq (c := k)
  rw [heq, putb, puti]
  iterate 4 rw [get_put_apart _ _ (by decide) (by decide) (by decide) hk hn (by decide) (by decide)]
  exact get_put_idx _ _ (by decide) (by decide) (by decide) h

theorem causes_fioDrive : d.fioDrive.fio.causes = d.fio.causes := by
  obtain ⟨r, f, o, w, c, heq⟩ := d.fioDrive_eq
  rw [heq]
  exact foldl_off (g := fun e : Dev => e.fio.causes) _ _ fun e c _ => rfl

/-- The selected output of an AOUT in service is driven to the end of its range, with its trims. -/
theorem target_fioDrive {pt : Nat} (hpt : pt ≠ 0) (hle : pt ≤ 8) (hen : d.enabled (shp .aout) = true) (hch : d.on (shp .aout) AOUT.CH_CFG_EN ((pt - 1) / 2) = true)
    (hcause : d.fio.causes = 0) (hsel : d.get (shp .trm) TRM.SEL_POINT = pt) :
    d.fioDrive.get (shp .aout) AOUT.CH_TGT_UA ((pt - 1) / 2) = encS 16 (aoTrim (if pt % 2 = 1 then 4000 else 20000)
      (d.geti (shp .trm) TRM.AO_ZERO_U ((pt - 1) / 2)) (d.geti (shp .trm) TRM.AO_SPAN_U ((pt - 1) / 2))) % 2 ^ 16 := by
  obtain ⟨r, f, o, w, c, heq⟩ := d.fioDrive_eq
  obtain ⟨x, hx⟩ : ∃ x, x = (((((d.put (shp .dout) DOUT.RB_BITS r).put (shp .dout) DOUT.FLT_RB_HIGH f).put (shp .dout)
    DOUT.OUT_BITS o).put (shp .wir) WIR.OUT_DIG_BITS w).put (shp .dout) DOUT.STATE_CAUSE c) := ⟨_, rfl⟩
  rw [heq, ← hx]
  have hn : (pt - 1) / 2 < 4 := by omega
  obtain ⟨n, hnn⟩ : ∃ n, n = (pt - 1) / 2 := ⟨_, rfl⟩
  rw [← hnn] at hch hn ⊢
  have hwx : Within driveWs d x := by
    have hput {e : Dev} (h : Within driveWs d e) {p : Nat} {f : Fld} (hm : (p, f) ∈ driveWs) (hf : f.fits = true ∧ 0 < f.cnt) (v : Nat) : Within driveWs d (e.put p f v) :=
      h.put hm hf.1 hf.2 v (by decide)
    exact hx ▸ hput (hput (hput (hput (hput (Within.refl _ d) (by decide) (by decide) r) (by decide) (by decide) f) (by decide) (by decide) o) (by decide) (by decide) w)
      (by decide) (by decide) c
  have hstep (e : Dev) (k : Nat) (hk : k ∈ List.range 4) (h : Within driveWs d e ∧ e.fio.causes = 0) : Within driveWs d (e.aoDrive k) ∧ (e.aoDrive k).fio.causes = 0 := by
    obtain ⟨hwithin, -⟩ := aoDrive_shows e (List.mem_range.mp hk) rfl
    exact ⟨h.1.trans (hwithin.mono fun w hw => List.mem_append_right _ hw), h.2⟩
  have hcx : x.fio.causes = 0 := by rw [← hcause, hx]; rfl
  have hgo (e : Dev) (h : Within driveWs d e ∧ e.fio.causes = 0) : (e.aoDrive n).get (shp .aout) AOUT.CH_TGT_UA n =
      encS 16 (aoTrim (if pt % 2 = 1 then 4000 else 20000) (d.geti (shp .trm) TRM.AO_ZERO_U n) (d.geti (shp .trm) TRM.AO_SPAN_U n)) % 2 ^ 16 := by
    obtain ⟨hwithin, hcauses⟩ := h
    obtain ⟨-, -, -, htgt, -⟩ := aoDrive_shows e hn rfl
    have hval : (e.aoValue n).1 = if pt % 2 = 1 then 4000 else 20000 := by
      have hsel' : e.get (shp .trm) TRM.SEL_POINT = pt := by rw [hwithin.get _ _ _ _ (by decide) (by decide) (by decide) (by decide) (by decide), hsel]
      have hen' : e.enabled (shp .aout) = true := by rw [enabled, on, hwithin.get _ _ _ _ (by decide) (by decide) (by decide) (by decide) (by decide)]; exact hen
      have hch' : e.on (shp .aout) AOUT.CH_CFG_EN n = true := by rw [on, hwithin.get _ _ _ _ (by decide) (by decide) (by decide) hn (by decide)]; exact hch
      rw [aoValue, hcauses, hen', hch', hsel', if_neg (by decide), if_neg (by decide), if_pos (by simp [hpt, hnn])]
    rw [htgt, hval, geti, geti, hwithin.get _ _ _ _ (by decide) (by decide) (by decide) hn (by decide), hwithin.get _ _ _ _ (by decide) (by decide) (by decide) hn (by decide)]
    rfl
  refine (foldl_reach (x := n) (Q := fun e => Within driveWs d e ∧ e.fio.causes = 0) (P := fun e => (Within driveWs d e ∧ e.fio.causes = 0) ∧ e.get (shp .aout) AOUT.CH_TGT_UA n =
      encS 16 (aoTrim (if pt % 2 = 1 then 4000 else 20000) (d.geti (shp .trm) TRM.AO_ZERO_U n) (d.geti (shp .trm) TRM.AO_SPAN_U n)) % 2 ^ 16) _ _ hstep
    (fun e k hk h => ⟨hstep e k hk h.1, ?_⟩) (List.mem_range.mpr hn) (fun e h => ⟨hstep e n (List.mem_range.mpr hn) h, hgo e h⟩) ⟨hwx, hcx⟩).2
  by_cases hkn : k = n
  · rw [hkn]
    exact hgo e h.1
  · rw [← h.2, get_aoDrive_idx e (List.mem_range.mp hk) hn hkn]

end

/-! ### Selections of a trim point -/

section
variable (d : Dev)

/-- What a selection writes on the page of the trims. -/
def selWs : List (Nat × Fld) := [(shp .trm, TRM.SEL_POINT), (shp .trm, TRM.SEL_SRC), (shp .trm, TRM.SEL_LEFT_S), (shp .trm, HDR.STAT_BLOCK)]

/-- A step on the page of the trims only. -/
structure OnTrims (ws : List (Nat × Fld)) (d e : Dev) : Prop where
  within : Within ws d e
  keeps : d.keeps e [shp .trm]
  fio : e.fio = d.fio
  shadow : e.shadow = d.shadow

theorem OnTrims.refl (ws : List (Nat × Fld)) (d : Dev) : OnTrims ws d d := ⟨Within.refl ws d, keeps_refl d _, rfl, rfl⟩

theorem OnTrims.trans {ws : List (Nat × Fld)} {d e x : Dev} (h : OnTrims ws d e) (g : OnTrims ws e x) : OnTrims ws d x :=
  ⟨h.within.trans g.within, keeps_trans h.keeps g.keeps, g.fio.trans h.fio, g.shadow.trans h.shadow⟩

theorem OnTrims.put {ws : List (Nat × Fld)} {d e : Dev} (h : OnTrims ws d e) {f : Fld} (hm : (shp .trm, f) ∈ ws) (hf : f.fits = true) {i : Nat} (hi : i < f.cnt) (v : Nat) :
    OnTrims ws d (e.put (shp .trm) f v i) :=
  ⟨h.within.put hm hf hi v (by decide), keeps_trans h.keeps (keeps_put_own e v hf hi), h.fio, h.shadow⟩

theorem contact_onTrims (k : Nat) (b : Bool) : OnTrims [(shp .trm, TRM.BTN_LVL)] d (d.trimContact k b) := by
  rw [trimContact]
  split
  · exact (OnTrims.refl _ d).put (by simp) (by decide) (by decide) _
  · exact OnTrims.refl _ d

theorem trimEnd_onTrims : OnTrims selWs d d.trimEnd ∧ d.trimEnd.get (shp .trm) TRM.SEL_POINT = 0 := by
  rw [trimEnd]
  split
  case isTrue h => exact ⟨OnTrims.refl _ d, h⟩
  case isFalse h =>
    refine ⟨((((OnTrims.refl _ d).put (f := TRM.SEL_POINT) (by simp [selWs]) (by decide) (by decide) 0).put (f := TRM.SEL_SRC) (by simp [selWs]) (by decide) (by decide) 0).put
      (f := TRM.SEL_LEFT_S) (by simp [selWs]) (by decide) (by decide) 0).put (f := HDR.STAT_BLOCK) (by simp [selWs]) (by decide) (by decide) _, ?_⟩
    rw [get_stat_apart _ _ (by decide) (by decide) (by decide) (by decide), get_put_apart _ _ (by decide) (by decide) (by decide) (by decide) (by decide) (by decide) (by decide),
      get_put_apart _ _ (by decide) (by decide) (by decide) (by decide) (by decide) (by decide) (by decide), get_put_same _ _ _ _ _ _ (by decide)]
    rfl

/-- A selection is ended, with nothing staged that waited for it. -/
theorem trimSelect_ends {src : Nat} (hs : ∀ e ∈ d.shadow, e.page ≠ shp .trm) :
    (d.trimSelect 0 src).get (shp .trm) TRM.SEL_POINT = 0 ∧ d.keeps (d.trimSelect 0 src) [shp .trm, shp .dout, shp .aout, shp .wir] := by
  obtain ⟨hend, hpoint⟩ := d.trimEnd_onTrims
  have hnone : d.trimEnd.shadow.any (fun e => e.page == shp .trm && decide (e.half = some d.trimEnd.holder)) = false := by
    rw [List.any_eq_false, hend.shadow]
    intro e he
    simp [hs e he]
  have hrun : d.trimSelect 0 src = d.trimEnd.fioDrive := by
    rw [trimSelect, if_pos rfl, trimRelease, hnone, Bool.and_false, if_neg (by decide)]
  rw [hrun]
  refine ⟨?_, keeps_trans (keeps_mono hend.keeps (by simp)) (keeps_mono d.trimEnd.keeps_fioDrive (by simp))⟩
  rw [d.trimEnd.within_fioDrive.get _ _ _ _ (by decide) (by decide) (by decide) (by decide) (by decide), hpoint]

/-- A trim point is selected, and its output driven to the end of its range. -/
theorem trimSelect_shows {pt src : Nat} (hpt : pt ≠ 0) (hle : pt ≤ 8) (hsrc : src < 4) :
    (d.trimSelect pt src).get (shp .trm) TRM.SEL_POINT = pt ∧ (d.trimSelect pt src).get (shp .trm) TRM.SEL_SRC = src ∧
    (d.trimSelect pt src).get (shp .trm) TRM.SEL_LEFT_S = 300 ∧
    (d.enabled (shp .aout) = true → d.on (shp .aout) AOUT.CH_CFG_EN ((pt - 1) / 2) = true → d.fio.causes = 0 →
      (d.trimSelect pt src).get (shp .aout) AOUT.CH_TGT_UA ((pt - 1) / 2) = encS 16 (aoTrim (if pt % 2 = 1 then 4000 else 20000)
        (d.geti (shp .trm) TRM.AO_ZERO_U ((pt - 1) / 2)) (d.geti (shp .trm) TRM.AO_SPAN_U ((pt - 1) / 2))) % 2 ^ 16) ∧
    d.keeps (d.trimSelect pt src) [shp .trm, shp .dout, shp .aout, shp .wir] := by
  obtain ⟨x, hx⟩ : ∃ x, x = (((d.put (shp .trm) TRM.SEL_POINT pt).put (shp .trm) TRM.SEL_SRC src).put (shp .trm) TRM.SEL_LEFT_S 300).stat (shp .trm) 1 := ⟨_, rfl⟩
  have hrun : d.trimSelect pt src = x.fioDrive := by rw [trimSelect, if_neg hpt, hx]
  have hon : OnTrims selWs d x := by
    rw [hx]
    exact ((((OnTrims.refl _ d).put (f := TRM.SEL_POINT) (by simp [selWs]) (by decide) (by decide) pt).put (f := TRM.SEL_SRC) (by simp [selWs]) (by decide) (by decide) src).put
      (f := TRM.SEL_LEFT_S) (by simp [selWs]) (by decide) (by decide) 300).put (f := HDR.STAT_BLOCK) (by simp [selWs]) (by decide) (by decide) _
  have hpoint : x.get (shp .trm) TRM.SEL_POINT = pt := by
    rw [hx, get_stat_apart _ _ (by decide) (by decide) (by decide) (by decide), get_put_apart _ _ (by decide) (by decide) (by decide) (by decide) (by decide) (by decide) (by decide),
      get_put_apart _ _ (by decide) (by decide) (by decide) (by decide) (by decide) (by decide) (by decide), get_put_same _ _ _ _ _ _ (by decide)]
    exact Nat.mod_eq_of_lt (show pt < 16 by omega)
  have hsource : x.get (shp .trm) TRM.SEL_SRC = src := by
    rw [hx, get_stat_apart _ _ (by decide) (by decide) (by decide) (by decide), get_put_apart _ _ (by decide) (by decide) (by decide) (by decide) (by decide) (by decide) (by decide),
      get_put_same _ _ _ _ _ _ (by decide)]
    exact Nat.mod_eq_of_lt hsrc
  have hleft : x.get (shp .trm) TRM.SEL_LEFT_S = 300 := by
    rw [hx, get_stat_apart _ _ (by decide) (by decide) (by decide) (by decide), get_put_same _ _ _ _ _ _ (by decide)]
    rfl
  have hdrive := x.within_fioDrive
  have hn : (pt - 1) / 2 < 4 := by omega
  rw [hrun]
  refine ⟨?_, ?_, ?_, fun hen hch hcause => ?_, keeps_trans (keeps_mono hon.keeps (by simp)) (keeps_mono x.keeps_fioDrive (by simp))⟩
  · rw [hdrive.get _ _ _ _ (by decide) (by decide) (by decide) (by decide) (by decide), hpoint]
  · rw [hdrive.get _ _ _ _ (by decide) (by decide) (by decide) (by decide) (by decide), hsource]
  · rw [hdrive.get _ _ _ _ (by decide) (by decide) (by decide) (by decide) (by decide), hleft]
  · have hen' : x.enabled (shp .aout) = true := by rw [enabled, on, hon.within.get _ _ _ _ (by decide) (by decide) (by decide) (by decide) (by decide)]; exact hen
    have hch' : x.on (shp .aout) AOUT.CH_CFG_EN ((pt - 1) / 2) = true := by rw [on, hon.within.get _ _ _ _ (by decide) (by decide) (by decide) hn (by decide)]; exact hch
    rw [x.target_fioDrive hpt hle hen' hch' (by rw [hon.fio, hcause]) hpoint, geti, geti, hon.within.get _ _ _ _ (by decide) (by decide) (by decide) hn (by decide),
      hon.within.get _ _ _ _ (by decide) (by decide) (by decide) hn (by decide)]
    rfl

/-- A write of the point that is refused leaves the selection. -/
theorem trimWrite_refuses {pt : Nat} (h : pt > 8 ∨ pt ≠ 0 ∧ (d.enabled (shp .aout) = false ∨ d.on (shp .aout) AOUT.CH_CFG_EN ((pt - 1) / 2) = false ∨ d.fio.causes ≠ 0)) :
    (d.trimWrite pt).get (shp .trm) HDR.ERR_CODE = (if pt > 8 then cRANGE else cBUSY) ∧
    (d.trimWrite pt).get (shp .trm) TRM.SEL_POINT = d.get (shp .trm) TRM.SEL_POINT ∧ d.keeps (d.trimWrite pt) [shp .trm] := by
  have herr (code : Nat) (hc : code % 2 ^ 8 = code) : (d.err (shp .trm) code).get (shp .trm) HDR.ERR_CODE = code ∧
      (d.err (shp .trm) code).get (shp .trm) TRM.SEL_POINT = d.get (shp .trm) TRM.SEL_POINT ∧ d.keeps (d.err (shp .trm) code) [shp .trm] :=
    ⟨by rw [get_err_code, hc], get_err_apart _ _ _ (by decide) (by decide) (by decide) (by decide), (keeps_err_iff (by simp)).mpr (keeps_refl d _)⟩
  by_cases hpt : pt > 8
  · have hrun : d.trimWrite pt = d.err (shp .trm) cRANGE := by rw [trimWrite, if_pos hpt]
    rw [hrun, if_pos hpt]
    exact herr cRANGE (by decide)
  · obtain ⟨hne, hbusy⟩ := h.resolve_left hpt
    have hguard : (decide (pt ≠ 0) && (!d.enabled (shp .aout) || !d.on (shp .aout) AOUT.CH_CFG_EN ((pt - 1) / 2) || d.fio.causes != 0)) = true := by
      rcases hbusy with hb | hb | hb <;> simp [hne, hb]
    have hrun : d.trimWrite pt = d.err (shp .trm) cBUSY := by rw [trimWrite, if_neg hpt, if_pos hguard]
    rw [hrun, if_neg hpt]
    exact herr cBUSY (by decide)

/-- A write of the point of an output in service selects it. -/
theorem trimWrite_takes {pt : Nat} (hle : pt ≤ 8) (h : pt = 0 ∨ d.enabled (shp .aout) = true ∧ d.on (shp .aout) AOUT.CH_CFG_EN ((pt - 1) / 2) = true ∧ d.fio.causes = 0) :
    d.trimWrite pt = d.trimSelect pt 2 := by
  rw [trimWrite, if_neg (by omega), if_neg]
  rcases h with h | ⟨h1, h2, h3⟩
  · simp [h]
  · simp [h1, h2, h3]

/-! ### Steps of the contacts -/

/-- The trim that a point steps. -/
def stepFld (pt : Nat) : Fld := if pt % 2 = 1 then TRM.AO_ZERO_U else TRM.AO_SPAN_U

theorem stepFld_mem (pt : Nat) : stepFld pt ∈ [TRM.AO_ZERO_U, TRM.AO_SPAN_U] := by
  rw [stepFld]
  split <;> simp

/-- The trim that a step leads to. -/
def stepTo (pt : Nat) (up : Bool) : Int := d.geti (shp .trm) (stepFld pt) ((pt - 1) / 2) + (if up then 1 else -1)

theorem within_noteConfig (ws : List (Nat × Fld)) (e : Staged) (code reason old new seq bnd : Nat) : Within ws d (d.noteConfig e code reason old new seq bnd) := by
  unfold noteConfig
  split
  · exact Within.refl ws d
  · exact (Within.refl ws d).post _

/-- A stored trim, with its record. -/
def stepStored (pt : Nat) (x : Int) : Dev :=
  let z := (d.puti (shp .trm) (stepFld pt) x ((pt - 1) / 2)).stat (shp .trm) 0
  z.noteConfig ⟨shp .trm, stepFld pt, (pt - 1) / 2, 0, none, BitVec.ofNat 32 (encS 16 x), 0x1E, 0, false⟩ 1 0 (d.get (shp .trm) (stepFld pt) ((pt - 1) / 2)) (encS 16 x)
    (z.get (shp .trm) HDR.COMMIT_SEQ) 6

/-- A step of a contact in use, with a point selected: the time left is set anew, and a trim within its bounds is stored and driven. -/
theorem trimStep_eq (up : Bool) {y z : Dev} (hy : y = d.trimContact (if up then 0 else 1) true) (hz : z = y.put (shp .trm) TRM.SEL_LEFT_S 300)
    (hen : y.on (shp .trm) TRM.CFG_BTN_EN = true) {pt : Nat} (hpt : y.get (shp .trm) TRM.SEL_POINT = pt) (hne : pt ≠ 0) :
    d.trimStep up = if z.stepTo pt up < -2000 ∨ z.stepTo pt up > 2000 then z else (z.stepStored pt (z.stepTo pt up)).fioDrive := by
  rw [trimStep, ← hy, hen, hpt, if_neg (by simp [hne]), ← hz]
  rfl

section
variable {d} {up : Bool}

theorem on_trimContact {f : Fld} (hf : f.fits = true) (hi : 0 < f.cnt) (h : TRM.BTN_LVL.apart f = true) (k : Nat) (b : Bool) :
    (d.trimContact k b).on (shp .trm) f = d.on (shp .trm) f ∧ (d.trimContact k b).get (shp .trm) f = d.get (shp .trm) f := by
  have hget := (d.contact_onTrims k b).within.get (shp .trm) f 0 0 (by decide) (by simp [clearOf, h]) hf hi (by decide)
  exact ⟨by rw [on, hget, ← on], hget⟩

theorem level_trimContact (hen : d.on (shp .trm) TRM.CFG_BTN_EN = true) {k : Nat} (hk : k < 3) : bitN ((d.trimContact k true).get (shp .trm) TRM.BTN_LVL) k = 1 := by
  rw [trimContact, hen, if_pos rfl, bit_putBit_same _ _ _ _ _ _ (by decide) hk]
  rfl

/-- A stored trim leaves what stands before the trims. -/
theorem get_stepStored {f : Fld} (pt : Nat) (x : Int) (hoff : f.off < 0x60) (hlo : f.lo < 32) (hf : f.fits = true) (hi : 0 < f.cnt) (hs : HDR.STAT_BLOCK.apart f = true) :
    (d.stepStored pt x).get (shp .trm) f = d.get (shp .trm) f := by
  have habove : f.off < (stepFld pt).off := by
    have hall : ∀ g ∈ [TRM.AO_ZERO_U, TRM.AO_SPAN_U], 0x60 ≤ g.off := by decide
    exact lt_of_lt_of_le hoff (hall _ (stepFld_mem pt))
  rw [stepStored, (within_noteConfig _ [] ..).get _ _ _ _ (by decide) rfl hf hi (by decide), get_stat_apart _ _ hs hf hi (by decide), puti, get_put_above _ habove hlo]

/-- A contact in use shows that it is pressed, whatever comes of its step. -/
theorem trimStep_presses (hen : d.on (shp .trm) TRM.CFG_BTN_EN = true) : bitN ((d.trimStep up).get (shp .trm) TRM.BTN_LVL) (if up then 0 else 1) = 1 := by
  obtain ⟨k, hk⟩ : ∃ k, k = if up then 0 else 1 := ⟨_, rfl⟩
  have hlt : k < 3 := by rw [hk]; split <;> decide
  obtain ⟨y, hy⟩ : ∃ y, y = d.trimContact k true := ⟨_, rfl⟩
  obtain ⟨z, hz⟩ : ∃ z, z = y.put (shp .trm) TRM.SEL_LEFT_S 300 := ⟨_, rfl⟩
  have hyen : y.on (shp .trm) TRM.CFG_BTN_EN = true := by rw [hy, (on_trimContact (by decide) (by decide) (by decide) _ _).1, hen]
  have hyl : bitN (y.get (shp .trm) TRM.BTN_LVL) k = 1 := hy ▸ level_trimContact hen hlt
  have hzl : z.get (shp .trm) TRM.BTN_LVL = y.get (shp .trm) TRM.BTN_LVL := by
    rw [hz, get_put_apart _ _ (by decide) (by decide) (by decide) (by decide) (by decide) (by decide) (by decide)]
  rw [← hk]
  by_cases hpt : y.get (shp .trm) TRM.SEL_POINT = 0
  · have hrun : d.trimStep up = y := by rw [trimStep, ← hk, ← hy, hpt, if_pos (by simp)]
    rw [hrun, hyl]
  · rw [d.trimStep_eq up (by rw [hy, hk]) hz hyen rfl hpt]
    split
    · rw [hzl, hyl]
    · rw [(within_fioDrive _).get _ _ _ _ (by decide) (by decide) (by decide) (by decide) (by decide), get_stepStored _ _ (by decide) (by decide) (by decide) (by decide) (by decide),
        hzl, hyl]

/-- Without a selected point a contact does no more than show that it is pressed. -/
theorem trimStep_idle (hpt : d.get (shp .trm) TRM.SEL_POINT = 0) : d.trimStep up = d.trimContact (if up then 0 else 1) true := by
  rw [trimStep, (on_trimContact (by decide) (by decide) (by decide) _ _).2, hpt, if_pos (by simp)]

theorem trimStep_off (hen : d.on (shp .trm) TRM.CFG_BTN_EN = false) : d.trimStep up = d := by
  have hcontact (k : Nat) : d.trimContact k true = d := by rw [trimContact, hen, if_neg (by decide)]
  rw [trimStep, hcontact, hen, if_pos (by simp)]

/-- A step within the bounds of its trim is taken, and another leaves the trim as it was. -/
theorem trimStep_steps (hen : d.on (shp .trm) TRM.CFG_BTN_EN = true) {pt : Nat} (hne : pt ≠ 0) (hle : pt ≤ 8) (hpt : d.get (shp .trm) TRM.SEL_POINT = pt) :
    (d.trimStep up).get (shp .trm) TRM.SEL_LEFT_S = 300 ∧ d.keeps (d.trimStep up) [shp .slt, shp .trm, shp .dout, shp .aout, shp .wir] ∧
    (if -2000 ≤ d.stepTo pt up ∧ d.stepTo pt up ≤ 2000 then (d.trimStep up).geti (shp .trm) (stepFld pt) ((pt - 1) / 2) = d.stepTo pt up
      else (d.trimStep up).get (shp .trm) (stepFld pt) ((pt - 1) / 2) = d.get (shp .trm) (stepFld pt) ((pt - 1) / 2)) := by
  obtain ⟨y, hy⟩ : ∃ y, y = d.trimContact (if up then 0 else 1) true := ⟨_, rfl⟩
  obtain ⟨z, hz⟩ : ∃ z, z = y.put (shp .trm) TRM.SEL_LEFT_S 300 := ⟨_, rfl⟩
  have hyen : y.on (shp .trm) TRM.CFG_BTN_EN = true := by rw [hy, (on_trimContact (by decide) (by decide) (by decide) _ _).1, hen]
  have hyp : y.get (shp .trm) TRM.SEL_POINT = pt := by rw [hy, (on_trimContact (by decide) (by decide) (by decide) _ _).2, hpt]
  have hon : OnTrims [(shp .trm, TRM.BTN_LVL), (shp .trm, TRM.SEL_LEFT_S)] d z := by
    obtain ⟨hw, hk, hf, hs⟩ := hy ▸ d.contact_onTrims (if up then 0 else 1) true
    exact hz ▸ OnTrims.put ⟨hw.mono (by simp), hk, hf, hs⟩ (by simp) (by decide) (by decide) 300
  have hleft : z.get (shp .trm) TRM.SEL_LEFT_S = 300 := by
    rw [hz, get_put_same _ _ _ _ _ _ (by decide)]
    rfl
  have hn : (pt - 1) / 2 < 4 := by omega
  obtain ⟨hfits, hcnt, hw16, hclear, hstat, hdrive⟩ : (stepFld pt).fits = true ∧ 4 ≤ (stepFld pt).cnt ∧ (stepFld pt).w = 16 ∧
      clearOf [(shp .trm, TRM.BTN_LVL), (shp .trm, TRM.SEL_LEFT_S)] (shp .trm) (stepFld pt) = true ∧ HDR.STAT_BLOCK.apart (stepFld pt) = true ∧
      clearOf driveWs (shp .trm) (stepFld pt) = true := by
    have hall : ∀ f ∈ [TRM.AO_ZERO_U, TRM.AO_SPAN_U], f.fits = true ∧ 4 ≤ f.cnt ∧ f.w = 16 ∧
        clearOf [(shp .trm, TRM.BTN_LVL), (shp .trm, TRM.SEL_LEFT_S)] (shp .trm) f = true ∧ HDR.STAT_BLOCK.apart f = true ∧ clearOf driveWs (shp .trm) f = true := by decide
    exact hall _ (stepFld_mem pt)
  have hold : z.get (shp .trm) (stepFld pt) ((pt - 1) / 2) = d.get (shp .trm) (stepFld pt) ((pt - 1) / 2) :=
    hon.within.get _ _ _ _ (by decide) hclear hfits (by omega) (by decide)
  have hto : z.stepTo pt up = d.stepTo pt up := by rw [stepTo, stepTo, geti, geti, hold]
  rw [d.trimStep_eq up hy hz hyen hyp hne, hto]
  by_cases hin : -2000 ≤ d.stepTo pt up ∧ d.stepTo pt up ≤ 2000
  · obtain ⟨hlo, hhi⟩ := hin
    rw [if_neg (by omega), if_pos ⟨hlo, hhi⟩]
    obtain ⟨x, hx⟩ : ∃ x, x = d.stepTo pt up := ⟨_, rfl⟩
    rw [← hx] at hlo hhi ⊢
    have hstored : (z.stepStored pt x).get (shp .trm) (stepFld pt) ((pt - 1) / 2) = encS 16 x % 2 ^ 16 := by
      rw [stepStored, (within_noteConfig _ [] ..).get _ _ _ _ (by decide) rfl hfits (by omega) (by decide), get_stat_apart _ _ hstat hfits (by omega) (by decide), puti,
        get_put_same _ _ _ _ _ _ (by omega), hw16]
    have hkeeps : z.keeps (z.stepStored pt x) [shp .slt, shp .trm] := by
      have hput : z.keeps (z.puti (shp .trm) (stepFld pt) x ((pt - 1) / 2)) [shp .slt, shp .trm] := keeps_mono (keeps_put_own z _ hfits (by omega)) (by simp)
      rw [stepStored]
      exact keeps_trans hput (keeps_trans ((keeps_stat_iff (by simp)).mpr (keeps_refl _ _)) ((within_noteConfig _ [] ..).frame (by simp) (by simp)))
    refine ⟨?_, keeps_trans (keeps_mono hon.keeps (by simp)) (keeps_trans (keeps_mono hkeeps (by simp)) (keeps_mono (keeps_fioDrive _) (by simp))), ?_⟩
    · rw [(within_fioDrive _).get _ _ _ _ (by decide) (by decide) (by decide) (by decide) (by decide), get_stepStored _ _ (by decide) (by decide) (by decide) (by decide) (by decide),
        hleft]
    · rw [geti, (within_fioDrive _).get _ _ _ _ (by decide) hdrive hfits (by omega) (by decide), hstored, hw16]
      exact sgn_encS (by decide) (by omega) (by omega)
  · rw [if_pos (by omega), if_neg hin]
    exact ⟨hleft, keeps_mono hon.keeps (by simp), hold⟩

end

end

end Dev

end Sys2Proof.Machine
end

section
/-! PROOFS. The analog field inputs and outputs (O51). -/
namespace Sys2Proof.Machine

open Sys2Proof

section
variable {s : State} (hout : s.out = true)
include hout

/-! ### The inputs -/

theorem aiSample_run (c : Fin 8) (code : BitVec 16) : exec (.aiSample c code) s = .next { s with dev := s.dev.aiSample c code.toNat } := onDev_out (fun d => d.aiSample c code.toNat) hout

theorem aiShort_run (c : Fin 8) : exec (.aiShort c) s = .next { s with dev := s.dev.aiShort c } := onDev_out (fun d => d.aiShort c) hout

theorem aiRetry_run (c : Fin 8) (ua : BitVec 16) : exec (.aiRetry c ua) s = .next { s with dev := s.dev.aiRetry c ua.toNat } := onDev_out (fun d => d.aiRetry c ua.toNat) hout

theorem aiSample_meets (c : Fin 8) (code : BitVec 16) :
    (s.dev.enabled (shp .ain) = false → exec (.aiSample c code) s = .next s) ∧
    (s.dev.enabled (shp .ain) = true → s.dev.on (shp .ain) AIN.CH_CFG_EN c = true → let m := s.dev.aiMean c code.toNat
      ∃ t, exec (.aiSample c code) s = .next t ∧ t.pending = s.pending ∧ t.dev.get (shp .ain) AIN.CH_RAW_CODE c = code.toNat ∧
        t.dev.get (shp .ain) AIN.CH_UA_UA c = m.sum / (2 * m.length) % 2 ^ 16 ∧ s.dev.keeps t.dev [shp .ain, shp .slt] ∧
        t.dev.get (shp .ain) AIN.CH_ST_CLASS c = (if s.dev.on (shp .ain) AIN.CH_ST_SHORT c = true then 4
          else aiNext (s.dev.get (shp .ain) AIN.CH_ST_CLASS c) (t.dev.get (shp .ain) AIN.CH_UA_UA c)) % 2 ^ 3 ∧
        (t.dev.get (shp .ain) AIN.CH_UA_UA c < 500 → t.dev.get (shp .ain) AIN.CH_ST_OPEN c = 1) ∧
        (t.dev.get (shp .ain) AIN.CH_UA_UA c > 520 → t.dev.get (shp .ain) AIN.CH_ST_OPEN c = 0)) ∧
    (s.dev.enabled (shp .ain) = true → s.dev.on (shp .ain) AIN.CH_CFG_EN c = false → ∃ t, exec (.aiSample c code) s = .next t ∧ t.pending = s.pending ∧
      t.dev.get (shp .ain) AIN.CH_UA_UA c = 0 ∧ t.dev.get (shp .ain) AIN.CH_ST_CLASS c = 3 ∧ s.dev.keeps t.dev [shp .ain]) := by
  refine ⟨fun hen => ?_, fun hen hch => ?_, fun hen hch => ?_⟩
  · rw [aiSample_run hout, Dev.aiSample_eq, hen, if_pos (by decide)]
  · refine ⟨_, aiSample_run hout c code, rfl, ?_⟩
    rw [Dev.aiSample_eq, hen, hch, if_neg (by decide), if_neg (by decide)]
    exact s.dev.aiSample_shows c.isLt code
  · refine ⟨_, aiSample_run hout c code, rfl, ?_⟩
    rw [Dev.aiSample_eq, hen, hch, if_neg (by decide), if_pos (by decide)]
    exact s.dev.aiOff_shows c.isLt

theorem aiShort_meets (c : Fin 8) :
    if s.dev.enabled (shp .ain) = true ∧ s.dev.on (shp .ain) AIN.CH_CFG_EN c = true ∧ s.dev.get (shp .ain) AIN.CH_UA_UA c ≥ 28000 ∧
        s.dev.on (shp .ain) AIN.CH_ST_SHORT c = false then
      ∃ t, exec (.aiShort c) s = .next t ∧ t.pending = s.pending ∧ t.dev.get (shp .ain) AIN.CH_ST_SHORT c = 1 ∧ t.dev.get (shp .ain) AIN.CH_ST_CLASS c = 4 ∧
        t.dev.get (shp .ain) HDR.ERR_CODE = (if s.dev.get (shp .ain) AIN.CH_ST_CLASS c = 4 then cAI_SHORT else cAI_FAIL) ∧ s.dev.keeps t.dev [shp .ain, shp .slt]
    else exec (.aiShort c) s = .next s := by
  split
  case isTrue h => exact ⟨_, aiShort_run hout c, rfl, s.dev.aiShort_shows c.isLt h⟩
  case isFalse h =>
    rw [aiShort_run hout, Dev.aiShort, if_pos]
    by_contra hg
    exact h (by simpa [and_assoc] using hg)

theorem aiRetry_meets (c : Fin 8) (ua : BitVec 16) :
    if s.dev.enabled (shp .ain) = true ∧ s.dev.on (shp .ain) AIN.CH_ST_SHORT c = true ∧ ua.toNat < 28000 then
      ∃ t, exec (.aiRetry c ua) s = .next t ∧ t.pending = s.pending ∧ t.dev.get (shp .ain) AIN.CH_ST_SHORT c = 0 ∧ t.dev.get (shp .ain) AIN.CH_UA_UA c = ua.toNat ∧
        t.dev.get (shp .ain) AIN.CH_ST_CLASS c = aiNext (s.dev.get (shp .ain) AIN.CH_ST_CLASS c) ua.toNat % 2 ^ 3 ∧ s.dev.keeps t.dev [shp .ain, shp .slt]
    else exec (.aiRetry c ua) s = .next s := by
  split
  case isTrue h => exact ⟨_, aiRetry_run hout c ua, rfl, s.dev.aiRetry_shows c.isLt ua h⟩
  case isFalse h =>
    rw [aiRetry_run hout, Dev.aiRetry, if_pos]
    by_contra hg
    exact h (by simpa [and_assoc] using hg)

/-! ### The stages -/

theorem aoReport_run (c : Fin 4) (meas ut : BitVec 16) (rsvLow sat : Bool) :
    exec (.aoReport c meas ut rsvLow sat) s = .next { s with dev := s.dev.aoReport c meas.toNat ut.toNat rsvLow sat } := onDev_out (fun d => d.aoReport c meas.toNat ut.toNat rsvLow sat) hout

theorem aoLink_run (c : Fin 4) : exec (.aoLink c) s = .next { s with dev := s.dev.aoLink c } := onDev_out (fun d => d.aoLink c) hout

theorem aoCompliance_run (c : Fin 4) : exec (.aoCompliance c) s = .next { s with dev := s.dev.aoCompliance c } := onDev_out (fun d => d.aoCompliance c) hout

theorem aoComplianceClear_run (c : Fin 4) : exec (.aoComplianceClear c) s = .next { s with dev := s.dev.aoComplianceClear c } := onDev_out (fun d => d.aoComplianceClear c) hout

theorem aoTargetLoss_run (c : Fin 4) :
    exec (.aoTargetLoss c) s = .next { s with dev := { s.dev with fio := { s.dev.fio with lost := setBitN s.dev.fio.lost c true } }.aoDrive c } := by
  rw [show exec (.aoTargetLoss c) s = execAoTargetLoss c s from rfl, execAoTargetLoss, onDev_out _ hout]

theorem aoLink_meets (c : Fin 4) :
    if s.dev.on (shp .aout) AOUT.CH_ST_LINK c = true then exec (.aoLink c) s = .next s
    else ∃ t, exec (.aoLink c) s = .next t ∧ t.pending = s.pending ∧ t.dev.get (shp .aout) AOUT.CH_ST_LINK c = 1 ∧ t.dev.get (shp .aout) HDR.ERR_CODE = cAO_LINK ∧
      s.dev.keeps t.dev [shp .aout, shp .slt] := by
  split
  case isTrue h => rw [aoLink_run hout, Dev.aoLink, if_pos h]
  case isFalse h =>
    have heq : s.dev.aoLink c = ((s.dev.put (shp .aout) AOUT.CH_ST_LINK 1 c).stat (shp .aout) 1).fault (shp .aout) cAO_LINK c := by rw [Dev.aoLink, if_neg h]
    exact ⟨_, aoLink_run hout c, rfl, s.dev.stageFault_shows c.isLt (by simp) 1 cAO_LINK (by decide) heq⟩

theorem aoCompliance_meets (c : Fin 4) :
    if s.dev.on (shp .aout) AOUT.CH_ST_COMPLIANCE c = true ∨ s.dev.get (shp .aout) AOUT.CH_MEAS_UA c + 16 ≥ s.dev.get (shp .aout) AOUT.CH_TGT_UA c then
      exec (.aoCompliance c) s = .next s
    else ∃ t, exec (.aoCompliance c) s = .next t ∧ t.pending = s.pending ∧ t.dev.get (shp .aout) AOUT.CH_ST_COMPLIANCE c = 1 ∧
      t.dev.get (shp .aout) HDR.ERR_CODE = cAO_COMPLIANCE ∧ s.dev.keeps t.dev [shp .aout, shp .slt] := by
  split
  case isTrue h => rw [aoCompliance_run hout, Dev.aoCompliance, if_pos (by simpa using h)]
  case isFalse h =>
    have heq : s.dev.aoCompliance c = ((s.dev.put (shp .aout) AOUT.CH_ST_COMPLIANCE 1 c).stat (shp .aout) 0).fault (shp .aout) cAO_COMPLIANCE c := by
      rw [Dev.aoCompliance, if_neg (by simpa using h)]
    exact ⟨_, aoCompliance_run hout c, rfl, s.dev.stageFault_shows c.isLt (by simp) 0 cAO_COMPLIANCE (by decide) heq⟩

theorem aoComplianceClear_meets (c : Fin 4) :
    if s.dev.on (shp .aout) AOUT.CH_ST_SAT c = false ∧ ((s.dev.get (shp .aout) AOUT.CH_MEAS_UA c : Int) - s.dev.get (shp .aout) AOUT.CH_TGT_UA c).natAbs ≤ 16 then
      ∃ t, exec (.aoComplianceClear c) s = .next t ∧ t.pending = s.pending ∧ t.dev.get (shp .aout) AOUT.CH_ST_COMPLIANCE c = 0 ∧ s.dev.keeps t.dev [shp .aout]
    else exec (.aoComplianceClear c) s = .next s := by
  split
  case isTrue h =>
    have heq : s.dev.aoComplianceClear c = s.dev.put (shp .aout) AOUT.CH_ST_COMPLIANCE 0 c := by rw [Dev.aoComplianceClear, if_pos (by simpa using h)]
    refine ⟨_, aoComplianceClear_run hout c, rfl, ?_⟩
    rw [heq]
    exact ⟨Dev.get_put_same _ _ _ _ _ _ (by decide), s.dev.keeps_put_own _ (by decide) c.isLt⟩
  case isFalse h => rw [aoComplianceClear_run hout, Dev.aoComplianceClear, if_neg (by simpa using h)]

/-! ### The trims -/

theorem trimSelPress_run (hen : s.dev.on (shp .trm) TRM.CFG_BTN_EN = true) : exec .trimSelPress s =
    .next { s with dev := (s.dev.trimContact 2 false).trimSelect ((s.dev.get (shp .trm) TRM.SEL_POINT + 1) % 9) 1 } := by
  rw [show exec .trimSelPress s = execTrimSelPress s from rfl, execTrimSelPress, onDev_out _ hout]
  exact congrArg (fun d => Host.Outcome.next { s with dev := d }) (if_pos hen)

theorem trimSelLong_run (hen : s.dev.on (shp .trm) TRM.CFG_BTN_EN = true) : exec .trimSelLong s = .next { s with dev := (s.dev.trimContact 2 true).trimSelect 0 0 } := by
  rw [show exec .trimSelLong s = execTrimSelLong s from rfl, execTrimSelLong, onDev_out _ hout, hen, if_pos rfl]

theorem trimIdle_run : exec .trimIdle s = .next { s with dev := ((List.range 3).foldl (fun d k => d.trimContact k false) s.dev).trimSelect 0 0 } := by
  rw [show exec .trimIdle s = execTrimIdle s from rfl, execTrimIdle, onDev_out _ hout]

theorem trmSelWrite_run (pt : BitVec 4) : exec (.trmSelWrite pt) s = .next { s with dev := s.dev.trimWrite pt.toNat } := onDev_out (fun d => d.trimWrite pt.toNat) hout

theorem trimContacts_off (hen : s.dev.on (shp .trm) TRM.CFG_BTN_EN = false) : exec .trimSelPress s = .next s ∧ exec .trimSelLong s = .next s := by
  have hoff : ¬ s.dev.on (shp .trm) TRM.CFG_BTN_EN = true := by simp [hen]
  rw [show exec .trimSelPress s = execTrimSelPress s from rfl, show exec .trimSelLong s = execTrimSelLong s from rfl, execTrimSelPress, execTrimSelLong, onDev_out _ hout,
    onDev_out _ hout]
  exact ⟨congrArg (fun d => Host.Outcome.next { s with dev := d }) (if_neg hoff), congrArg (fun d => Host.Outcome.next { s with dev := d }) (if_neg hoff)⟩

theorem trimStep_run {i : Instr} {up : Bool} (hi : i = .trimStep up ∨ i = .trimRepeat up) : exec i s = .next { s with dev := s.dev.trimStep up } := by
  rcases hi with rfl | rfl <;> exact onDev_out (fun d => d.trimStep up) hout

/-- A point is selected by a contact or by the register. -/
theorem trim_selects (i : Instr) (pt : Fin 9) (src : Nat) (hne : pt.val ≠ 0)
    (hi : i = .trimSelPress ∧ s.dev.on (shp .trm) TRM.CFG_BTN_EN = true ∧ pt.val = (s.dev.get (shp .trm) TRM.SEL_POINT + 1) % 9 ∧ src = 1 ∨
      i = .trmSelWrite (BitVec.ofNat 4 pt.val) ∧ s.dev.enabled (shp .aout) = true ∧ s.dev.on (shp .aout) AOUT.CH_CFG_EN ((pt.val - 1) / 2) = true ∧ s.dev.fio.causes = 0 ∧
        src = 2) :
    ∃ t, exec i s = .next t ∧ t.pending = s.pending ∧ t.dev.get (shp .trm) TRM.SEL_POINT = pt.val ∧ t.dev.get (shp .trm) TRM.SEL_SRC = src ∧
      t.dev.get (shp .trm) TRM.SEL_LEFT_S = 300 ∧
      (s.dev.enabled (shp .aout) = true → s.dev.on (shp .aout) AOUT.CH_CFG_EN ((pt.val - 1) / 2) = true → s.dev.fio.causes = 0 →
        t.dev.get (shp .aout) AOUT.CH_TGT_UA ((pt.val - 1) / 2) = encS 16 (aoTrim (if pt.val % 2 = 1 then 4000 else 20000)
          (s.dev.geti (shp .trm) TRM.AO_ZERO_U ((pt.val - 1) / 2)) (s.dev.geti (shp .trm) TRM.AO_SPAN_U ((pt.val - 1) / 2))) % 2 ^ 16) ∧
      s.dev.keeps t.dev [shp .trm, shp .dout, shp .aout, shp .wir] := by
  have hle : pt.val ≤ 8 := by omega
  have hn : (pt.val - 1) / 2 < 4 := by omega
  rcases hi with ⟨rfl, hen, hpt, rfl⟩ | ⟨rfl, hen, hch, hcause, rfl⟩
  · obtain ⟨x, hx⟩ : ∃ x, x = s.dev.trimContact 2 false := ⟨_, rfl⟩
    have hon := hx ▸ s.dev.contact_onTrims 2 false
    obtain ⟨h1, h2, h3, htgt, hk⟩ := x.trimSelect_shows hne hle (src := 1) (by decide)
    refine ⟨_, trimSelPress_run hout hen, rfl, ?_⟩
    rw [← hpt, ← hx]
    refine ⟨h1, h2, h3, fun hen hch hcause => ?_, Dev.keeps_trans (Dev.keeps_mono hon.keeps (by simp)) hk⟩
    have hen' : x.enabled (shp .aout) = true := by
      rw [Dev.enabled, Dev.on, hon.within.get _ _ _ _ (by decide) (by decide) (by decide) (by decide) (by decide)]
      exact hen
    have hch' : x.on (shp .aout) AOUT.CH_CFG_EN ((pt.val - 1) / 2) = true := by
      rw [Dev.on, hon.within.get _ _ _ _ (by decide) (by decide) (by decide) hn (by decide)]
      exact hch
    rw [htgt hen' hch' (by rw [hon.fio, hcause]), Dev.geti, Dev.geti, hon.within.get _ _ _ _ (by decide) (by decide) (by decide) hn (by decide),
      hon.within.get _ _ _ _ (by decide) (by decide) (by decide) hn (by decide)]
    rfl
  · have hval : (BitVec.ofNat 4 pt.val).toNat = pt.val := by simp; omega
    refine ⟨_, trmSelWrite_run hout _, rfl, ?_⟩
    rw [hval, Dev.trimWrite_takes _ hle (.inr ⟨hen, hch, hcause⟩)]
    exact s.dev.trimSelect_shows hne hle (src := 2) (by decide)

/-- A selection ends by a contact, by the register or by its time. -/
theorem trim_ends (i : Instr) (hi : i = .trimSelPress ∧ (s.dev.get (shp .trm) TRM.SEL_POINT + 1) % 9 = 0 ∧ s.dev.on (shp .trm) TRM.CFG_BTN_EN = true ∨
      i = .trimSelLong ∧ s.dev.on (shp .trm) TRM.CFG_BTN_EN = true ∨ i = .trimIdle ∨ i = .trmSelWrite 0) (hs : ∀ e ∈ s.dev.shadow, e.page ≠ shp .trm) :
    ∃ t, exec i s = .next t ∧ t.pending = s.pending ∧ t.dev.get (shp .trm) TRM.SEL_POINT = 0 ∧ s.dev.keeps t.dev [shp .trm, shp .dout, shp .aout, shp .wir] := by
  obtain ⟨x, src, hx, hexec⟩ : ∃ (x : Dev) (src : Nat), Dev.OnTrims [(shp .trm, TRM.BTN_LVL)] s.dev x ∧ exec i s = .next { s with dev := x.trimSelect 0 src } := by
    rcases hi with ⟨rfl, hpt, hen⟩ | ⟨rfl, hen⟩ | rfl | rfl
    · exact ⟨_, 1, s.dev.contact_onTrims 2 false, by rw [trimSelPress_run hout hen, hpt]⟩
    · exact ⟨_, 0, s.dev.contact_onTrims 2 true, trimSelLong_run hout hen⟩
    · refine ⟨_, 0, ?_, trimIdle_run hout⟩
      exact ((s.dev.contact_onTrims 0 false).trans (Dev.contact_onTrims _ 1 false)).trans (Dev.contact_onTrims _ 2 false)
    · refine ⟨_, 2, Dev.OnTrims.refl _ s.dev, ?_⟩
      rw [trmSelWrite_run hout]
      exact congrArg (fun d => Host.Outcome.next { s with dev := d }) (Dev.trimWrite_takes _ (by decide) (.inl rfl))
  obtain ⟨hpoint, hk⟩ := x.trimSelect_ends (src := src) (by rw [hx.shadow]; exact hs)
  exact ⟨_, hexec, rfl, hpoint, Dev.keeps_trans (Dev.keeps_mono hx.keeps (by simp)) hk⟩

/-- A contact that is pressed with no point selected shows its level only. -/
theorem trimStep_shows {i : Instr} {up : Bool} (hi : i = .trimStep up ∨ i = .trimRepeat up) (hen : s.dev.on (shp .trm) TRM.CFG_BTN_EN = true) :
    ∃ t, exec i s = .next t ∧ bitN (t.dev.get (shp .trm) TRM.BTN_LVL) (if up then 0 else 1) = 1 ∧
      (s.dev.get (shp .trm) TRM.SEL_POINT = 0 → t.pending = s.pending ∧ t.dev.fio = s.dev.fio ∧ t.dev.get (shp .trm) TRM.SEL_POINT = 0 ∧ s.dev.keeps t.dev [shp .trm] ∧
        ∀ k : Fin 4, t.dev.get (shp .trm) TRM.AO_ZERO_U k = s.dev.get (shp .trm) TRM.AO_ZERO_U k ∧
          t.dev.get (shp .trm) TRM.AO_SPAN_U k = s.dev.get (shp .trm) TRM.AO_SPAN_U k) := by
  refine ⟨_, trimStep_run hout hi, Dev.trimStep_presses hen, fun hpt => ⟨rfl, ?_⟩⟩
  have hon := s.dev.contact_onTrims (if up then 0 else 1) true
  rw [Dev.trimStep_idle hpt]
  refine ⟨hon.fio, ?_, hon.keeps, fun k => ⟨?_, ?_⟩⟩
  · rw [hon.within.get _ _ _ _ (by decide) (by decide) (by decide) (by decide) (by decide), hpt]
  · exact hon.within.get _ _ _ _ (by decide) (by decide) (by decide) k.isLt (by decide)
  · exact hon.within.get _ _ _ _ (by decide) (by decide) (by decide) k.isLt (by decide)

end

/-- Settles O51: an input is judged by its class after the sample, a stage by its report, and a step of a contact drives its output once its trim is stored. -/
theorem analogFieldIo : Obligations.AnalogFieldIo := by
  unfold Obligations.AnalogFieldIo
  intro s hout a o p drv
  refine ⟨fun c code => aiSample_meets hout c code, fun c => aiShort_meets hout c, fun c ua => aiRetry_meets hout c ua,
    fun c meas ut rsvLow sat => ⟨_, aoReport_run hout c meas ut rsvLow sat, rfl, s.dev.aoReport_shows c.isLt meas ut rsvLow sat rfl⟩,
    fun c => ⟨aoLink_meets hout c, ⟨_, aoTargetLoss_run hout c, rfl, s.dev.targetLoss_shows c.isLt rfl⟩, aoCompliance_meets hout c, aoComplianceClear_meets hout c⟩,
    trim_selects hout, trim_ends hout, fun pt hpt => ⟨_, trmSelWrite_run hout pt, rfl, s.dev.trimWrite_refuses hpt⟩,
    fun i up hi => ⟨fun hen => ?_, trimStep_shows hout hi, fun pt hen hne hpt => ?_⟩, trimContacts_off hout⟩
  · rw [trimStep_run hout hi, Dev.trimStep_off hen]
  · obtain ⟨hleft, hk, hx⟩ := Dev.trimStep_steps (up := up) hen hne (by omega) hpt
    exact ⟨_, trimStep_run hout hi, rfl, hleft, hk, hx⟩

end Sys2Proof.Machine
end

section
/-! PROOFS. The car and the insertion that Shoal chooses (O32). -/
namespace Sys2Proof.Machine

open Sys2Proof

/-- A fold that keeps what it holds or takes the next candidate ends with a candidate, or with none when every candidate gave none. -/
theorem foldl_option_mem {α β : Type} {f : Option β → α → Option β} {P : β → Prop} : ∀ (l : List α) (b : Option β),
    (∀ b, ∀ x ∈ l, ∀ y, f b x = some y → b = some y ∨ P y) → ∀ y, l.foldl f b = some y → b = some y ∨ P y
  | [], _, _, _, h => .inl h
  | x :: l, b, hf, y, h => by
    rcases foldl_option_mem l (f b x) (fun b z hz => hf b z (List.mem_cons_of_mem _ hz)) y h with hy | hy
    · exact hf b x List.mem_cons_self y hy
    · exact .inr hy

namespace Dev

/-- A candidate is held whose cost is at most `n`. -/
def costLe {β : Type} (cost : β → Nat) (n : Nat) : Option β → Prop
  | some y => cost y ≤ n
  | none => False

/-- A fold of which no step raises the cost ends below each of its candidates. -/
theorem foldl_cost {α β : Type} {f : Option β → α → Option β} {cost : β → Nat} {x : α} {n : Nat} (l : List α) (b : Option β)
    (hkeep : ∀ b, ∀ y ∈ l, costLe cost n b → costLe cost n (f b y)) (hx : x ∈ l) (htake : ∀ b, costLe cost n (f b x)) : costLe cost n (l.foldl f b) :=
  foldl_reach (Q := fun _ => True) l b (fun _ _ _ _ => trivial) hkeep hx (fun b _ => htake b) trivial

section
variable (d : Dev) (h : HalfId) (k : Nat) (cl : Call)

/-- What the comparison with one more car leaves. -/
def betterCar (b : Option (Nat × Nat × Plan × Bool × Nat × Nat)) (c : Nat) : Option (Nat × Nat × Plan × Bool × Nat × Nat) :=
  match d.bestIn h c k cl, b with
  | some x, some (_, y) => if x.1 < y.1 then some (c, x) else b
  | some x, none => some (c, x)
  | none, _ => b

theorem best_eq (cars : List Nat) : d.best h k cl cars = (cars.filter fun c => d.carFeasible h c cl).foldl (d.betterCar h k cl) none := rfl

theorem betterCar_none {c : Nat} (b : Option (Nat × Nat × Plan × Bool × Nat × Nat)) (hx : d.bestIn h c k cl = none) : d.betterCar h k cl b c = b := by
  simp only [betterCar, hx]

theorem betterCar_first {c : Nat} {x : Nat × Plan × Bool × Nat × Nat} (hx : d.bestIn h c k cl = some x) : d.betterCar h k cl none c = some (c, x) := by
  simp only [betterCar, hx]

theorem betterCar_next {c : Nat} {x : Nat × Plan × Bool × Nat × Nat} (e : Nat) (y : Nat × Plan × Bool × Nat × Nat) (hx : d.bestIn h c k cl = some x) :
    d.betterCar h k cl (some (e, y)) c = if x.1 < y.1 then some (c, x) else some (e, y) := by
  simp only [betterCar, hx]

/-- The better of two cars is one of them. -/
theorem betterCar_or (b : Option (Nat × Nat × Plan × Bool × Nat × Nat)) (c : Nat) :
    d.betterCar h k cl b c = b ∨ ∃ x, d.bestIn h c k cl = some x ∧ d.betterCar h k cl b c = some (c, x) := by
  cases hx : d.bestIn h c k cl with
  | none => exact .inl (d.betterCar_none h k cl b hx)
  | some x =>
    obtain _ | ⟨e, y⟩ := b
    · exact .inr ⟨x, rfl, d.betterCar_first h k cl hx⟩
    · rw [d.betterCar_next h k cl e y hx]
      split
      · exact .inr ⟨x, rfl, rfl⟩
      · exact .inl rfl

/-- The better of two cars costs no more than the candidate. -/
theorem betterCar_takes (b : Option (Nat × Nat × Plan × Bool × Nat × Nat)) {c : Nat} {x : Nat × Plan × Bool × Nat × Nat} (hx : d.bestIn h c k cl = some x) :
    costLe (fun y => y.2.1) x.1 (d.betterCar h k cl b c) := by
  obtain _ | ⟨e, y⟩ := b
  · rw [d.betterCar_first h k cl hx]
    exact le_refl x.1
  · rw [d.betterCar_next h k cl e y hx]
    split
    case isTrue => exact le_refl x.1
    case isFalse hle => exact not_lt.mp hle

/-- The better of two cars costs no more than what was held. -/
theorem betterCar_keeps {b : Option (Nat × Nat × Plan × Bool × Nat × Nat)} {n : Nat} (c : Nat) (hb : costLe (fun y => y.2.1) n b) :
    costLe (fun y => y.2.1) n (d.betterCar h k cl b c) := by
  obtain _ | ⟨e, y⟩ := b
  · exact absurd hb id
  · cases hx : d.bestIn h c k cl with
    | none => rwa [d.betterCar_none h k cl _ hx]
    | some x =>
      rw [d.betterCar_next h k cl e y hx]
      split
      case isTrue hlt => exact le_of_lt (lt_of_lt_of_le hlt hb)
      case isFalse => exact hb

/-- The insertion of a car keeps the rules for its plan. -/
theorem bestIn_planOk {c : Nat} {x : Nat × Plan × Bool × Nat × Nat} (hx : d.bestIn h c k cl = some x) : ∃ r, d.rec? h c = some r ∧ d.planOk h c cl r x.2.1 = true := by
  rw [bestIn] at hx
  split at hx
  case h_1 => exact absurd hx (by simp)
  case h_2 r hr =>
    refine ⟨r, hr, ((foldl_option_mem (P := fun y => d.planOk h c cl r y.2.1 = true) _ none (fun b q hq y hy => ?_) x hx).resolve_left (by simp))⟩
    obtain ⟨u, -, hq⟩ := List.mem_flatMap.mp hq
    obtain ⟨pl, hpl, rfl⟩ := List.mem_map.mp hq
    obtain ⟨-, hok⟩ := List.mem_filter.mp hpl
    obtain _ | z := b
    · exact .inr ((Option.some.inj hy) ▸ hok)
    · dsimp only at hy
      split at hy
      · exact .inr ((Option.some.inj hy) ▸ hok)
      · exact .inl hy

end

end Dev

/-- Settles O32: a fold over the feasible cars of which every step keeps the cheaper one. -/
theorem theCheapestFeasibleCar : Obligations.TheCheapestFeasibleCar := by
  unfold Obligations.TheCheapestFeasibleCar
  intro d h k cl cars b hb
  rw [Dev.best_eq] at hb
  have hfrom := (foldl_option_mem (P := fun y : Nat × Nat × Plan × Bool × Nat × Nat => (y.1 ∈ cars ∧ d.carFeasible h y.1 cl = true) ∧ d.bestIn h y.1 k cl = some y.2) _ none
    (fun b c hc y hy => ?_) b hb).resolve_left (by simp)
  · obtain ⟨⟨hmem, hfeas⟩, hbest⟩ := hfrom
    refine ⟨hmem, hfeas, d.bestIn_planOk h k cl hbest, fun c hc hcf x hx => ?_⟩
    have hcost := Dev.foldl_cost (n := x.1) (cost := fun y : Nat × Nat × Plan × Bool × Nat × Nat => y.2.1) _ none (fun b c _ hle => d.betterCar_keeps h k cl c hle)
      (List.mem_filter (p := fun c => d.carFeasible h c cl).mpr ⟨hc, hcf⟩) (fun b => d.betterCar_takes h k cl b hx)
    rw [hb] at hcost
    exact hcost
  · obtain ⟨hmem, hfeas⟩ := List.mem_filter.mp hc
    rcases d.betterCar_or h k cl b c with he | ⟨x, hx, he⟩
    · exact .inl (he ▸ hy)
    · rw [he] at hy
      obtain rfl := Option.some.inj hy
      exact .inr ⟨⟨hmem, hfeas⟩, hx⟩

end Sys2Proof.Machine
end

section
/-! PROOFS. The commands of the committed configuration (O16). -/
namespace Sys2Proof.Machine

open Sys2Proof

namespace Dev

section
variable (d : Dev) (w : Who)

/-! ### What the commands show -/

/-- The registers in which the committed generation stands. -/
def genWs : List (Nat × Fld) :=
  [CFG.GEN_COMMITTED, CFG.GEN_TS_LO, CFG.GEN_TS_HI, CFG.GEN_CRC_CRC, CFG.GEN_LEN_BYTES, CFG.AREA_VALID_A, CFG.AREA_VALID_B].map fun f => (shp .cfg, f)

theorem store_note (p cls code x : Nat) (ws : List Nat) : (d.note p cls code x ws).store = d.store := post_store ..

theorem store_cfgNote (op before : Nat) : (d.cfgNote w op before).store = d.store := post_store ..

theorem cfgShow_shows : Within genWs d d.cfgShow ∧ d.cfgShow.store = d.store ∧ d.cfgShow.get (shp .cfg) CFG.GEN_COMMITTED = d.genNum % 2 ^ 32 := by
  have hput {e : Dev} (h : Within genWs d e) {f : Fld} (hm : (shp .cfg, f) ∈ genWs) (hf : f.fits = true ∧ 0 < f.cnt) (v : Nat) : Within genWs d (e.put (shp .cfg) f v) :=
    h.put hm hf.1 hf.2 v (by decide)
  refine ⟨?_, rfl, ?_⟩
  · exact hput (hput (hput (hput (hput (hput (hput (Within.refl _ d) (by decide) (by decide) _) (by decide) (by decide) _) (by decide) (by decide) _) (by decide) (by decide) _)
      (by decide) (by decide) _) (by decide) (by decide) _) (by decide) (by decide) _
  · rw [cfgShow, putb, putb, put64]
    iterate 6 rw [get_put_apart _ _ (by decide) (by decide) (by decide) (by decide) (by decide) (by decide) (by decide)]
    exact get_put_same _ _ _ _ _ _ (by decide)

theorem genNum_congr {e : Dev} (h : e.store = d.store) : e.genNum = d.genNum := by
  have hg : e.gen? = d.gen? := by funext a; rw [gen?, gen?, h]
  rw [genNum, genNum, h, hg]

theorem within_cfgNote (ws : List (Nat × Fld)) (op before : Nat) : Within ws d (d.cfgNote w op before) := (Within.refl ws d).post _

/-- The pages whose pending values a SAVE looks at are as they were after a record. -/
theorem cfgPending_cfgNote (op before : Nat) : (d.cfgNote w op before).cfgPending (d.cfgNote w op before).holder = d.cfgPending d.holder := by
  have hres (p ct : Nat) (ht : ct < 65536) : (d.cfgNote w op before).get p HDR.COMMIT_RESULT 0 ct = d.get p HDR.COMMIT_RESULT 0 ct :=
    get_post_apart d _ (by decide) (by decide) (by decide) ht
  have hholder : (d.cfgNote w op before).holder = d.holder := by
    rw [holder, holder, on, on, (d.within_cfgNote w [] op before).get _ _ _ _ (by decide) rfl (by decide) (by decide) (by decide)]
  rw [hholder, cfgPending, cfgPending]
  refine congrArg (fun g => List.any _ g) (funext fun p => ?_)
  dsimp only
  rw [hres p]
  split
  · split
    · cases d.holder <;> decide
    · decide
  · decide

/-! ### SAVE -/

/-- A SAVE with nothing pending waits for its capture. -/
theorem cfgSave_waits (hst : d.get (shp .cfg) CFG.SAVE_ST_STATE = 0) (hpend : d.cfgPending d.holder = false) :
    (d.cfgSave w).get (shp .cfg) CFG.SAVE_ST_STATE = 1 ∧ (d.cfgSave w).get (shp .cfg) CFG.SAVE_ST_REASON = 0 ∧ (d.cfgSave w).store.waiting.isSome = true ∧
    d.keeps (d.cfgSave w) [shp .cfg, shp .slt] := by
  obtain ⟨e, he⟩ : ∃ e, e = d.cfgNote w 1 d.genNum := ⟨_, rfl⟩
  have hrun : d.cfgSave w = ((e.put (shp .cfg) CFG.SAVE_ST_STATE 1).put (shp .cfg) CFG.SAVE_ST_REASON 0).modStore (fun s => { s with waiting := some (w.mid, e.roleOf w), captured := none }) := by
    have hno : e.cfgPending e.holder = false := by rw [he, cfgPending_cfgNote, hpend]
    rw [cfgSave, hst, ← he, if_neg (by decide), hno, if_neg (by decide)]
  have hk : d.keeps e [shp .cfg, shp .slt] := he ▸ (d.within_cfgNote w [] 1 d.genNum).frame (by simp) (by simp)
  rw [hrun]
  refine ⟨?_, (get_modStore ..).trans (get_put_same _ _ _ _ _ _ (by decide)), rfl, ?_⟩
  · rw [get_modStore, get_put_apart _ _ (by decide) (by decide) (by decide) (by decide) (by decide) (by decide) (by decide)]
    exact get_put_same _ _ _ _ _ _ (by decide)
  · rw [keeps_modStore_iff, keeps_put_iff (by simp) (by decide) (by decide) (by decide), keeps_put_iff (by simp) (by decide) (by decide) (by decide)]
    exact hk

/-- A SAVE with a value pending is refused. -/
theorem cfgSave_refused (hst : d.get (shp .cfg) CFG.SAVE_ST_STATE = 0) (hpend : d.cfgPending d.holder = true) :
    (d.cfgSave w).get (shp .cfg) CFG.SAVE_ST_REASON = 0xB3 ∧ (d.cfgSave w).get (shp .cfg) HDR.ERR_CODE = 0xB3 ∧ (d.cfgSave w).store = d.store ∧
    d.keeps (d.cfgSave w) [shp .cfg, shp .slt] := by
  obtain ⟨e, he⟩ : ∃ e, e = d.cfgNote w 1 d.genNum := ⟨_, rfl⟩
  have hrun : d.cfgSave w = (e.put (shp .cfg) CFG.SAVE_ST_REASON cCFG_PENDING).err (shp .cfg) cCFG_PENDING := by
    have hno : e.cfgPending e.holder = true := by rw [he, cfgPending_cfgNote, hpend]
    rw [cfgSave, hst, ← he, if_neg (by decide), hno, if_pos rfl]
    rfl
  have hk : d.keeps e [shp .cfg, shp .slt] := he ▸ (d.within_cfgNote w [] 1 d.genNum).frame (by simp) (by simp)
  have hs : e.store = d.store := he ▸ d.store_cfgNote w 1 _
  rw [hrun]
  refine ⟨?_, ?_, hs, ?_⟩
  · rw [get_err_apart _ _ _ (by decide) (by decide) (by decide) (by decide)]
    exact get_put_same _ _ _ _ _ _ (by decide)
  · rw [get_err_code]
    rfl
  · rw [keeps_err_iff (by simp), keeps_put_iff (by simp) (by decide) (by decide) (by decide)]
    exact hk

/-- The capture of a SAVE that waits. -/
theorem cfgCapture_takes {q : Nat × Nat} (hfrozen : d.cfgFrozen = true) (hwait : d.store.waiting = some q) :
    d.cfgCapture.cfgFrozen = false ∧ d.cfgCapture.store.waiting = none ∧ d.cfgCapture.store.captured.map Gen.rows = some (d.cfgImage d.holder) ∧
    d.cfgCapture.store.captured.map Gen.ts = some d.now ∧ d.cfgCapture.get (shp .cfg) CFG.SAVE_ST_STATE = 2 ∧ d.keeps d.cfgCapture [shp .cfg] := by
  obtain ⟨x, g, hrun, hx, hrows, hts⟩ : ∃ (x : Dev) (g : Gen), d.cfgCapture = (x.put (shp .cfg) CFG.SAVE_ST_STATE 2).modStore (fun s => { s with waiting := none, captured := some g }) ∧
      (x.cfgFrozen = false ∧ d.keeps x [shp .cfg]) ∧ g.rows = d.cfgImage d.holder ∧ g.ts = d.now := by
    unfold cfgCapture
    rw [hfrozen, hwait]
    exact ⟨_, _, rfl, ⟨rfl, keeps_refl d _⟩, rfl, rfl⟩
  rw [hrun]
  refine ⟨hx.1, rfl, congrArg some hrows, congrArg some hts, (get_modStore ..).trans (get_put_same _ _ _ _ _ _ (by decide)), ?_⟩
  rw [keeps_modStore_iff, keeps_put_iff (by simp) (by decide) (by decide) (by decide)]
  exact hx.2

/-! ### The end of a SAVE -/

/-- The area that a new generation goes into. -/
def nextArea : Nat := match d.store.committed with | some 0 => 1 | some _ => 0 | none => 0

theorem nextArea_lt : d.nextArea < 2 := by
  unfold nextArea
  split <;> decide

theorem nextArea_ne : some d.nextArea ≠ d.store.committed := by
  unfold nextArea
  split
  case h_1 h => rw [h]; decide
  case h_2 n hn h =>
    rw [h]
    exact fun he => hn (Option.some.inj he ▸ rfl)
  case h_3 h => rw [h]; decide

/-- The part with a generation in its area. -/
def genStored (g : Gen) : Dev := (d.modStore (fun s => { s with areas := lset s.areas d.nextArea (some g), captured := none })).stat (shp .cfg) 0

theorem cfgDone_ok {g : Gen} (hg : d.store.captured = some g) : d.cfgDone true =
    (((d.genStored { g with ok := true }).modStore (fun s => { s with committed := some d.nextArea })).put (shp .cfg) CFG.SAVE_ST_STATE 3).cfgShow.note (shp .cfg) clsState 0 0
      [g.num, g.crc, g.len] := by
  unfold cfgDone
  rw [hg]
  rfl

theorem cfgDone_bad {g : Gen} (hg : d.store.captured = some g) : d.cfgDone false =
    ((((d.genStored { g with ok := false }).put (shp .cfg) CFG.SAVE_ST_STATE 4).put (shp .cfg) CFG.SAVE_ST_REASON cCFG_VERIFY).err (shp .cfg) cCFG_VERIFY).cfgShow.note (shp .cfg)
      clsState cCFG_VERIFY 0 [g.num, g.crc, g.len] := by
  unfold cfgDone
  rw [hg]
  rfl

theorem keeps_genStored (g : Gen) : d.keeps (d.genStored g) [shp .cfg, shp .slt] := by
  rw [genStored, keeps_stat_iff (by simp), keeps_modStore_iff]
  exact keeps_refl d _

/-- A generation that reads back right is committed. -/
theorem cfgDone_commits {g : Gen} (hg : d.store.captured = some g) (hlen : d.store.areas.length = 2) :
    (∃ a, (d.cfgDone true).store.committed = some a ∧ some a ≠ d.store.committed ∧ (d.cfgDone true).gen? a = some { g with ok := true }) ∧
    (d.cfgDone true).get (shp .cfg) CFG.SAVE_ST_STATE = 3 ∧ (d.cfgDone true).get (shp .cfg) CFG.GEN_COMMITTED = g.num % 2 ^ 32 ∧
    d.keeps (d.cfgDone true) [shp .cfg, shp .slt] := by
  obtain ⟨x, hx⟩ : ∃ x, x = ((d.genStored { g with ok := true }).modStore (fun s => { s with committed := some d.nextArea })).put (shp .cfg) CFG.SAVE_ST_STATE 3 := ⟨_, rfl⟩
  have hrun : d.cfgDone true = x.cfgShow.note (shp .cfg) clsState 0 0 [g.num, g.crc, g.len] := by rw [d.cfgDone_ok hg, hx]
  have hcom : x.store.committed = some d.nextArea := by rw [hx]; rfl
  have hgen : x.gen? d.nextArea = some { g with ok := true } := by
    rw [hx]
    exact getD_lset_same _ _ (by have := d.nextArea_lt; omega)
  have hst : x.get (shp .cfg) CFG.SAVE_ST_STATE = 3 := by
    rw [hx]
    exact get_put_same _ _ _ _ _ _ (by decide)
  have hk : d.keeps x [shp .cfg, shp .slt] := by
    rw [hx, keeps_put_iff (by simp) (by decide) (by decide) (by decide), keeps_modStore_iff]
    exact d.keeps_genStored _
  obtain ⟨hshow, hstore, hnum⟩ := x.cfgShow_shows
  have hsame : (d.cfgDone true).store = x.store := by rw [hrun, store_note, hstore]
  rw [hrun]
  refine ⟨⟨d.nextArea, ?_, d.nextArea_ne, ?_⟩, ?_, ?_, ?_⟩
  · rw [store_note, hstore, hcom]
  · rw [gen?, store_note, hstore, ← gen?, hgen]
  · rw [get_note_other _ _ _ _ _ (by decide) (by decide) (by decide) (by decide), hshow.get _ _ _ _ (by decide) (by decide) (by decide) (by decide) (by decide), hst]
  · rw [get_note_other _ _ _ _ _ (by decide) (by decide) (by decide) (by decide), hnum, genNum, hcom, Option.bind_some, hgen]
    rfl
  · rw [keeps_note_iff (by simp)]
    exact keeps_trans hk (hshow.frame (by simp) (by decide))

/-- One that does not leaves the committed one. -/
theorem cfgDone_fails {g : Gen} (hg : d.store.captured = some g) : (d.cfgDone false).store.committed = d.store.committed ∧
    (d.cfgDone false).get (shp .cfg) CFG.SAVE_ST_STATE = 4 ∧ (d.cfgDone false).get (shp .cfg) HDR.ERR_CODE = 0xB4 ∧ d.keeps (d.cfgDone false) [shp .cfg, shp .slt] := by
  obtain ⟨x, hx⟩ : ∃ x, x = (((d.genStored { g with ok := false }).put (shp .cfg) CFG.SAVE_ST_STATE 4).put (shp .cfg) CFG.SAVE_ST_REASON cCFG_VERIFY).err (shp .cfg) cCFG_VERIFY := ⟨_, rfl⟩
  have hrun : d.cfgDone false = x.cfgShow.note (shp .cfg) clsState cCFG_VERIFY 0 [g.num, g.crc, g.len] := by rw [d.cfgDone_bad hg, hx]
  have hk : d.keeps x [shp .cfg, shp .slt] := by
    rw [hx, keeps_err_iff (by simp), keeps_put_iff (by simp) (by decide) (by decide) (by decide), keeps_put_iff (by simp) (by decide) (by decide) (by decide)]
    exact d.keeps_genStored _
  obtain ⟨hshow, hstore, -⟩ := x.cfgShow_shows
  rw [hrun]
  refine ⟨?_, ?_, ?_, ?_⟩
  · rw [store_note, hstore, hx]
    rfl
  · rw [get_note_other _ _ _ _ _ (by decide) (by decide) (by decide) (by decide), hshow.get _ _ _ _ (by decide) (by decide) (by decide) (by decide) (by decide), hx,
      get_err_apart _ _ _ (by decide) (by decide) (by decide) (by decide), get_put_apart _ _ (by decide) (by decide) (by decide) (by decide) (by decide) (by decide) (by decide)]
    exact get_put_same _ _ _ _ _ _ (by decide)
  · rw [get_note_other _ _ _ _ _ (by decide) (by decide) (by decide) (by decide), hshow.get _ _ _ _ (by decide) (by decide) (by decide) (by decide) (by decide), hx, get_err_code]
    rfl
  · rw [keeps_note_iff (by simp)]
    exact keeps_trans hk (hshow.frame (by simp) (by decide))

/-! ### REVERT, FACTORY and the read port -/

/-- Another generation is committed, or none. -/
theorem commits_shows {e : Dev} (c : Option Nat) (op before : Nat) (he : e = ((d.modStore (fun s => { s with committed := c })).cfgShow).cfgNote w op before) :
    e.store = { d.store with committed := c } ∧ e.get (shp .cfg) CFG.GEN_COMMITTED = ((c.bind d.gen?).map Gen.num).getD 0 % 2 ^ 32 ∧ d.keeps e [shp .cfg, shp .slt] := by
  obtain ⟨x, hx⟩ : ∃ x, x = d.modStore (fun s => { s with committed := c }) := ⟨_, rfl⟩
  rw [← hx] at he
  obtain ⟨hshow, hstore, hnum⟩ := x.cfgShow_shows
  have hgen : x.genNum = ((c.bind d.gen?).map Gen.num).getD 0 := by rw [hx]; rfl
  rw [he]
  refine ⟨?_, ?_, ?_⟩
  · rw [store_cfgNote, hstore, hx, store_modStore]
  · rw [(within_cfgNote _ w [] op before).get _ _ _ _ (by decide) rfl (by decide) (by decide) (by decide), hnum, hgen]
  · have hkx : d.keeps x [shp .cfg, shp .slt] := by
      rw [hx, keeps_modStore_iff]
      exact keeps_refl d _
    exact keeps_trans hkx (keeps_trans (hshow.frame (by simp) (by decide)) ((within_cfgNote _ w [] op before).frame (by simp) (by simp)))

theorem cfgRevert_other {a : Nat} {g : Gen} (hcom : d.store.committed = some a) (hg : d.genOk (1 - a) = some g) :
    d.cfgRevert w = ((d.modStore (fun s => { s with committed := some (1 - a) })).cfgShow).cfgNote w 2 d.genNum := by
  unfold cfgRevert
  simp only [hcom, hg, Option.isSome_some, if_true]

theorem cfgRead_shows : d.cfgRead.get (shp .cfg) CFG.RD_ADDR_WORD = (d.get (shp .cfg) CFG.RD_ADDR_WORD + 1) % 2 ^ 22 ∧
    (d.gen? (d.get (shp .cfg) CFG.RD_SEL_AREA) = none → d.cfgRead.resp.words = [0]) ∧ d.keeps d.cfgRead [shp .cfg] := by
  refine ⟨get_put_same d.fresh.2 (shp .cfg) CFG.RD_ADDR_WORD _ 0 0 (by decide), fun hnone => ?_, ?_⟩
  · show [if (d.gen? (d.get (shp .cfg) CFG.RD_SEL_AREA)).isSome then d.fresh.1 else 0] = [0]
    rw [hnone]
    rfl
  · exact keeps_put_own d.fresh.2 _ (by decide) (by decide)

end

end Dev

/-- Settles O16: each command of CFG stands for one step of the store, of which the registers show the committed generation. -/
theorem configurationCommands : Obligations.ConfigurationCommands := by
  unfold Obligations.ConfigurationCommands
  intro s hout
  refine ⟨fun mid m hst hp => ?_, fun mid m hst hp => ?_, fun q hf hw => ?_, fun g hg hlen => ⟨?_, ?_⟩, fun mid m a g ha hle hg => ?_, fun mid m => ?_, ?_⟩
  · exact ⟨_, onDev_out (fun d => d.cfgSave ⟨mid.toNat, m⟩) hout, rfl, s.dev.cfgSave_waits _ hst hp⟩
  · exact ⟨_, onDev_out (fun d => d.cfgSave ⟨mid.toNat, m⟩) hout, rfl, s.dev.cfgSave_refused _ hst hp⟩
  · exact ⟨_, onDev_out (fun d => d.cfgCapture) hout, rfl, s.dev.cfgCapture_takes hf hw⟩
  · exact ⟨_, onDev_out (fun d => d.cfgDone true) hout, rfl, s.dev.cfgDone_commits hg hlen⟩
  · exact ⟨_, onDev_out (fun d => d.cfgDone false) hout, rfl, s.dev.cfgDone_fails hg⟩
  · obtain ⟨hstore, hnum, hk⟩ := s.dev.commits_shows ⟨mid.toNat, m⟩ (some (1 - a)) 2 _ (s.dev.cfgRevert_other _ ha hg)
    obtain ⟨hgen, -⟩ := Option.filter_eq_some_iff.mp hg
    rw [Option.bind_some, hgen] at hnum
    exact ⟨_, onDev_out (fun d => d.cfgRevert ⟨mid.toNat, m⟩) hout, rfl, hstore, hnum, hk⟩
  · obtain ⟨hstore, hnum, hk⟩ := s.dev.commits_shows ⟨mid.toNat, m⟩ none 3 s.dev.genNum rfl
    exact ⟨_, onDev_out (fun d => d.cfgFactory ⟨mid.toNat, m⟩) hout, rfl, hstore, hnum, hk⟩
  · exact ⟨_, onDev_out (fun d => d.cfgRead) hout, rfl, s.dev.cfgRead_shows⟩

end Sys2Proof.Machine
end

section
/-! PROOFS. The table port and the plausibility supervisor of a loop engine (O23). -/
namespace Sys2Proof.Machine

open Sys2Proof

/-- The page of a loop engine shows the detail of an error itself. -/
theorem errUnit_pgLe (h : HalfId) {e : Nat} (he : e < 3) : Dev.errUnit? (pgLe h e) = none := by
  have hpage : pgLe h e = h.n * 256 + 12 + e := rfl
  have hn : h.n ≤ 1 := by cases h <;> decide
  rw [Dev.errUnit?, hpage, if_neg (by omega), if_neg (by omega)]

theorem pgLe_ne_slt (h : HalfId) {e : Nat} (he : e < 3) : pgLe h e ≠ shp .slt :=
  pageNo_ne_shp h e (by decide) (by decide) (by have : Blk.le.index = 12 := rfl; omega)

namespace Dev

theorem get_err_detail (d : Dev) {p : Nat} (c x : Nat) (h : errUnit? p = none) : (d.err p c x).get p HDR.ERR_DETAIL = x % 2 ^ 16 := by
  rw [err, h]
  exact get_put_same _ _ _ _ _ _ (by decide)

/-- A write of the header leaves a table behind it, whatever its entry. -/
theorem get_put_below (d : Dev) {p v t u : Nat} {f g : Fld} (h : g.off < f.off) (hlo : g.lo < 32) (ht : t < 65536) : (d.put p g v 0 t).get p f 0 u = d.get p f 0 u := by
  refine get_put_ne _ _ _ _ _ _ _ _ _ _ ?_
  rw [fkey_eq, fkey_eq]
  omega

/-! ### The table port -/

section
variable (d : Dev) (h : HalfId) {e : Nat}

/-- A word of the active bank is ignored. -/
theorem tblWrite_active (he : e < 3) (v : Nat) (ht : d.get (pgLe h e) LE.TBL_SEL_TBL < 12)
    (hb : d.leBank h e (d.get (pgLe h e) LE.TBL_SEL_TBL) = d.get (pgLe h e) LE.TBL_SEL_BANK) :
    (d.tblWrite h e v).get (pgLe h e) HDR.ERR_CODE = cTBL_ACTIVE ∧ (d.tblWrite h e v).get (pgLe h e) HDR.ERR_DETAIL = d.get (pgLe h e) LE.TBL_SEL_TBL ∧
    bitN ((d.tblWrite h e v).get (pgLe h e) HDR.STAT_BLOCK) 4 = 1 ∧
    (∀ k, (d.tblWrite h e v).get (pgLe h e) LE.TBL_DATA_WORD 0 k = d.get (pgLe h e) LE.TBL_DATA_WORD 0 k) ∧ d.keeps (d.tblWrite h e v) [pgLe h e] := by
  have hrun : d.tblWrite h e v = (d.err (pgLe h e) cTBL_ACTIVE (d.get (pgLe h e) LE.TBL_SEL_TBL)).stat (pgLe h e) 4 := by rw [tblWrite, if_pos hb]
  rw [hrun]
  refine ⟨?_, ?_, bitN_stat _ _ (by decide), fun k => ?_, ?_⟩
  · rw [get_stat_apart _ _ (by decide) (by decide) (by decide) (by decide), get_err_code]
    rfl
  · rw [get_stat_apart _ _ (by decide) (by decide) (by decide) (by decide), get_err_detail _ _ _ (errUnit_pgLe h he)]
    exact Nat.mod_eq_of_lt (by omega)
  · rw [stat, orBits, get_put_below _ (by decide) (by decide) (by decide), err, get_put_below _ (by decide) (by decide) (by decide),
      get_put_below _ (by decide) (by decide) (by decide), bump, get_put_below _ (by decide) (by decide) (by decide)]
  · rw [keeps_stat_iff (by simp), keeps_err_iff (by simp)]
    exact keeps_refl d _

/-- A word of the other bank is stored, and the address goes on. -/
theorem tblWrite_stores (v : Word) (ht : d.get (pgLe h e) LE.TBL_SEL_TBL < 12) (hbank : d.get (pgLe h e) LE.TBL_SEL_BANK ≤ 1) (hw : d.get (pgLe h e) LE.TBL_ADDR_WORD < 1280)
    (hb : d.leBank h e (d.get (pgLe h e) LE.TBL_SEL_TBL) ≠ d.get (pgLe h e) LE.TBL_SEL_BANK) :
    (d.tblWrite h e v.toNat).get (pgLe h e) LE.TBL_DATA_WORD 0
      ((d.get (pgLe h e) LE.TBL_SEL_TBL * 2 + d.get (pgLe h e) LE.TBL_SEL_BANK) * 2048 + d.get (pgLe h e) LE.TBL_ADDR_WORD) = v.toNat ∧
    (d.tblWrite h e v.toNat).get (pgLe h e) LE.TBL_ADDR_WORD = (if d.get (pgLe h e) LE.TBL_ADDR_WORD ≥ (if d.get (pgLe h e) LE.TBL_SEL_TBL < 8 then 1279 else 1023) then 0
      else d.get (pgLe h e) LE.TBL_ADDR_WORD + 1) ∧ d.keeps (d.tblWrite h e v.toNat) [pgLe h e] := by
  obtain ⟨t, htt⟩ : ∃ t, t = d.get (pgLe h e) LE.TBL_SEL_TBL := ⟨_, rfl⟩
  obtain ⟨b, hbb⟩ : ∃ b, b = d.get (pgLe h e) LE.TBL_SEL_BANK := ⟨_, rfl⟩
  obtain ⟨w, hww⟩ : ∃ w, w = d.get (pgLe h e) LE.TBL_ADDR_WORD := ⟨_, rfl⟩
  rw [← htt] at ht hb ⊢
  rw [← hbb] at hbank hb ⊢
  rw [← hww] at hw ⊢
  have hlt : (t * 2 + b) * 2048 + w < 65536 := by omega
  have hcnt : t * 2 + b < 65536 := by omega
  obtain ⟨x, n, hx, hrun⟩ : ∃ (x : Dev) (n : Nat), (x = d.put (pgLe h e) LE.TBL_DATA_WORD v.toNat 0 ((t * 2 + b) * 2048 + w) ∨
      x = (d.put (pgLe h e) LE.TBL_DATA_WORD v.toNat 0 ((t * 2 + b) * 2048 + w)).put (pgLe h e) LE.TBL_BAD_COUNT n 0 (t * 2 + b)) ∧ d.tblWrite h e v.toNat = x.leAdvance (pgLe h e) := by
    rw [tblWrite, ← htt, ← hbb, ← hww, if_neg hb]
    dsimp only
    split
    · exact ⟨_, _, .inr rfl, rfl⟩
    · exact ⟨_, 0, .inl rfl, rfl⟩
  have hdata : x.get (pgLe h e) LE.TBL_DATA_WORD 0 ((t * 2 + b) * 2048 + w) = v.toNat := by
    rcases hx with rfl | rfl
    · exact get_put_bv _ _ _ _ _ _ rfl (by decide)
    · rw [get_put_apart _ _ (by decide) (by decide) (by decide) (by decide) (by decide) hcnt hlt]
      exact get_put_bv _ _ _ _ _ _ rfl (by decide)
  have hsame {f : Fld} (hf : f ∈ [LE.TBL_SEL_TBL, LE.TBL_ADDR_WORD]) : x.get (pgLe h e) f = d.get (pgLe h e) f := by
    have hall : f.fits = true ∧ 0 < f.cnt ∧ LE.TBL_DATA_WORD.apart f = true ∧ LE.TBL_BAD_COUNT.apart f = true := by fin_cases hf <;> decide
    obtain ⟨hfits, hc, h1, h2⟩ := hall
    rcases hx with rfl | rfl
    · exact get_put_apart _ _ h1 (by decide) hfits (by decide) hc hlt (by decide)
    · rw [get_put_apart _ _ h2 (by decide) hfits (by decide) hc hcnt (by decide), get_put_apart _ _ h1 (by decide) hfits (by decide) hc hlt (by decide)]
  have hk : d.keeps x [pgLe h e] := by
    rcases hx with rfl | rfl
    · rw [keeps_put_iff (by simp) (by decide) (by decide) hlt]
      exact keeps_refl d _
    · rw [keeps_put_iff (by simp) (by decide) (by decide) hcnt, keeps_put_iff (by simp) (by decide) (by decide) hlt]
      exact keeps_refl d _
  rw [hrun, leAdvance, hsame (by simp), hsame (by simp), ← htt, ← hww]
  refine ⟨?_, ?_, ?_⟩
  · rw [get_put_apart _ _ (by decide) (by decide) (by decide) (by decide) (by decide) (by decide) hlt, hdata]
  · rw [get_put_same _ _ _ _ _ _ (by decide)]
    refine Nat.mod_eq_of_lt (?_ : _ < 2048)
    split <;> split <;> omega
  · rw [keeps_put_iff (by simp) (by decide) (by decide) (by decide)]
    exact hk

/-! ### The plausibility supervisor -/

/-- What every sample with the count at its limit shows. -/
def plausShown (l : Nat) : Dev := (((d.leFlags h e l 128).orBits (pgLe h e) LE.PLAUS_MAP_BITS (2 ^ l)).stat (pgLe h e) 2).putBit (pgLe h e) LE.LSTAT_BITS 4 true 0 l

theorem lePlaus_raises {l : Nat} (h1 : d.on (pgLe h e) LE.LOOP_CFG_SUP_EN 0 l = true) (h2 : d.get (pgLe h e) LE.SUP_CNT_N 0 l ≠ 0)
    (h3 : d.get (pgLe h e) LE.LSTAT_CNT 0 l ≥ d.get (pgLe h e) LE.SUP_CNT_N 0 l) :
    d.lePlaus h e l = if bitN (d.get (pgLe h e) LE.LSTAT_BITS 0 l) 4 == 1 then (d.plausShown h (e := e) l).err (pgLe h e) cPLAUS l
      else (d.plausShown h (e := e) l).fault (pgLe h e) cPLAUS l [(d.plausShown h (e := e) l).get (pgLe h e) LE.RESID_Q 0 l] := by
  rw [lePlaus, h1, if_pos (by simpa using ⟨h2, h3⟩)]
  rfl

theorem lePlaus_ends {l : Nat} (hno : ¬ (d.on (pgLe h e) LE.LOOP_CFG_SUP_EN 0 l = true ∧ d.get (pgLe h e) LE.SUP_CNT_N 0 l ≠ 0 ∧
      d.get (pgLe h e) LE.LSTAT_CNT 0 l ≥ d.get (pgLe h e) LE.SUP_CNT_N 0 l)) : d.lePlaus h e l = d.putBit (pgLe h e) LE.LSTAT_BITS 4 false 0 l := by
  rw [lePlaus, if_neg]
  intro hyes
  exact hno (by simpa [and_assoc] using hyes)

/-- The flags of a sample with the count at its limit. -/
theorem plausShown_shows {l : Nat} (hl : l < 32) {x : Dev} (hx : x = d.plausShown h (e := e) l) :
    bitN (x.get (pgLe h e) LE.LFLAG_BITS 0 l) 7 = 1 ∧ bitN (x.get (pgLe h e) LE.PLAUS_MAP_BITS) l = 1 ∧ bitN (x.get (pgLe h e) HDR.STAT_BLOCK) 2 = 1 ∧
    bitN (x.get (pgLe h e) LE.LSTAT_BITS 0 l) 4 = 1 ∧ x.silt = d.silt ∧ d.keeps x [pgLe h e] := by
  have ht : l < 65536 := by omega
  have hfive : 4 < LE.LSTAT_BITS.w := by decide
  obtain ⟨y, hy⟩ : ∃ y, y = d.leFlags h e l 128 := ⟨_, rfl⟩
  have hrun : y = (d.orBits (pgLe h e) LE.LFLAG_BITS (2 ^ 7) 0 l).modLe h e (fun x => { x with raised := lmod x.raised l (Nat.lor 128) }) := by
    rw [hy, leFlags, if_neg (by decide)]
    rfl
  rw [plausShown, ← hy] at hx
  have hflag : bitN (y.get (pgLe h e) LE.LFLAG_BITS 0 l) 7 = 1 := by
    rw [hrun, get_modLe]
    exact bitN_orBits _ _ _ _ _ (by decide) (by decide)
  refine ⟨?_, ?_, ?_, ?_, ?_, ?_⟩
  · rw [hx, putBit, get_put_apart _ _ (by decide) (by decide) (by decide) (by decide) (by decide) ht ht, get_stat_apart _ _ (by decide) (by decide) (by decide) ht, orBits,
      get_put_apart _ _ (by decide) (by decide) (by decide) (by decide) (by decide) (by decide) ht, hflag]
  · rw [hx, putBit, get_put_apart _ _ (by decide) (by decide) (by decide) (by decide) (by decide) ht (by decide), get_stat_apart _ _ (by decide) (by decide) (by decide) (by decide)]
    exact bitN_orBits _ _ _ _ _ hl (by decide)
  · rw [hx, putBit, get_put_apart _ _ (by decide) (by decide) (by decide) (by decide) (by decide) ht (by decide)]
    exact bitN_stat _ _ (by decide)
  · rw [hx]
    exact bit_putBit_same _ _ _ _ _ _ (by decide) hfive
  · have hys : y.silt = d.silt := by rw [hrun]; exact modHalf_silt ..
    rw [hx, ← hys]
    rfl
  · rw [hx, putBit, keeps_put_iff (by simp) (by decide) (by decide) ht, keeps_stat_iff (by simp), orBits, keeps_put_iff (by simp) (by decide) (by decide) (by decide), hrun,
      keeps_modLe_iff, orBits, keeps_put_iff (by simp) (by decide) (by decide) ht]
    exact keeps_refl d _

/-- A count at its limit raises PLAUS at every sample, with one record for an episode. -/
theorem lePlaus_shows (he : e < 3) {l : Nat} (hl : l < 32) (h1 : d.on (pgLe h e) LE.LOOP_CFG_SUP_EN 0 l = true) (h2 : d.get (pgLe h e) LE.SUP_CNT_N 0 l ≠ 0)
    (h3 : d.get (pgLe h e) LE.LSTAT_CNT 0 l ≥ d.get (pgLe h e) LE.SUP_CNT_N 0 l) {u : Dev} (hu : u = d.lePlaus h e l) :
    bitN (u.get (pgLe h e) LE.LFLAG_BITS 0 l) 7 = 1 ∧ bitN (u.get (pgLe h e) LE.PLAUS_MAP_BITS) l = 1 ∧ bitN (u.get (pgLe h e) HDR.STAT_BLOCK) 2 = 1 ∧
    bitN (u.get (pgLe h e) LE.LSTAT_BITS 0 l) 4 = 1 ∧ u.get (pgLe h e) HDR.ERR_CODE = cPLAUS ∧ u.get (pgLe h e) HDR.ERR_DETAIL = l ∧
    (bitN (d.get (pgLe h e) LE.LSTAT_BITS 0 l) 4 = 1 → u.silt = d.silt) ∧ d.keeps u [pgLe h e, shp .slt] := by
  have ht : l < 65536 := by omega
  obtain ⟨x, hx⟩ : ∃ x, x = d.plausShown h (e := e) l := ⟨_, rfl⟩
  obtain ⟨hflag, hmap, hstat, hact, hsilt, hk⟩ := d.plausShown_shows h hl hx
  rw [d.lePlaus_raises h h1 h2 h3, ← hx] at hu
  have hslt := pgLe_ne_slt h he
  obtain ⟨hwithin, hcode, hdet, hquiet⟩ : Within (errWs (pgLe h e)) x u ∧ u.get (pgLe h e) HDR.ERR_CODE = cPLAUS ∧ u.get (pgLe h e) HDR.ERR_DETAIL = l ∧
      (bitN (d.get (pgLe h e) LE.LSTAT_BITS 0 l) 4 = 1 → u.silt = x.silt) := by
    have hcode : (x.err (pgLe h e) cPLAUS l).get (pgLe h e) HDR.ERR_CODE = cPLAUS := (get_err_code _ _ _ _).trans (by decide)
    have hdet : (x.err (pgLe h e) cPLAUS l).get (pgLe h e) HDR.ERR_DETAIL = l := by
      rw [get_err_detail _ _ _ (errUnit_pgLe h he)]
      exact Nat.mod_eq_of_lt (by omega)
    split at hu
    case isTrue =>
      rw [hu]
      exact ⟨(Within.refl _ x).err (fun _ hw => hw) _ _, hcode, hdet, fun _ => rfl⟩
    case isFalse hnew =>
      rw [hu]
      refine ⟨(Within.refl _ x).fault (fun _ hw => hw) _ _ _, ?_, ?_, fun hold => absurd (by rw [hold]; rfl) hnew⟩
      · rw [fault, get_note_other _ _ _ _ _ hslt (by decide) (by decide) (by decide), hcode]
      · rw [fault, get_note_other _ _ _ _ _ hslt (by decide) (by decide) (by decide), hdet]
  have hget {f : Fld} {t : Nat} (ha : ∀ g ∈ errFields, g.apart f = true) (hf : f.fits = true) (hc : 0 < f.cnt) (ht : t < 65536) :
      u.get (pgLe h e) f 0 t = x.get (pgLe h e) f 0 t := by
    refine hwithin.get _ _ _ _ hslt ?_ hf hc ht
    simp only [clearOf, errWs, List.all_cons, List.all_nil, Bool.and_true, ha HDR.ERR_COUNT (by simp [errFields]), ha HDR.ERR_CODE (by simp [errFields]),
      ha HDR.ERR_DETAIL (by simp [errFields]), Bool.or_true]
  refine ⟨?_, ?_, ?_, ?_, hcode, hdet, fun hold => (hquiet hold).trans hsilt, keeps_trans (keeps_mono hk (by simp)) (hwithin.frame (by simp) ?_)⟩
  · rw [hget (by decide) (by decide) (by decide) ht, hflag]
  · rw [hget (by decide) (by decide) (by decide) (by decide), hmap]
  · rw [hget (by decide) (by decide) (by decide) (by decide), hstat]
  · rw [hget (by decide) (by decide) (by decide) ht, hact]
  · simp [errWs]

end

end Dev

end Sys2Proof.Machine
end

section
/-! PROOFS. The loops of an engine that have not completed at the deadline (O23). -/
namespace Sys2Proof.Machine

open Sys2Proof

namespace Dev

theorem keyPage_of_leKept {h : HalfId} {e k : Nat} (hk : leKept h e k = true) : keyPage k = pgLe h e := by
  have hspan : pageSpan = 65536 * 32 * 4096 := by decide
  obtain ⟨hp, -⟩ := Bool.and_eq_true_iff.mp hk
  rw [keyPage, hspan, ← Nat.div_div_eq_div_mul, ← Nat.div_div_eq_div_mul]
  exact beq_iff_eq.mp hp

/-- A step that writes registers of one page only, and nothing of a half. -/
structure OnPage (p : Nat) (d e : Dev) : Prop where
  keeps : d.keeps e [p]
  half : ∀ h, e.half h = d.half h

section
variable {p : Nat} {d e x : Dev}

theorem OnPage.refl (p : Nat) (d : Dev) : OnPage p d d := ⟨keeps_refl d _, fun _ => rfl⟩

theorem OnPage.trans (h : OnPage p d e) (g : OnPage p e x) : OnPage p d x := ⟨keeps_trans h.keeps g.keeps, fun q => (g.half q).trans (h.half q)⟩

theorem OnPage.put (h : OnPage p d e) {f : Fld} (hf : f.fits = true ∧ 0 < f.cnt) (v : Nat) {t : Nat} (ht : t < 65536) : OnPage p d (e.put p f v 0 t) :=
  ⟨(keeps_put_iff (by simp) hf.1 hf.2 ht).mpr h.keeps, fun q => (half_put ..).trans (h.half q)⟩

theorem OnPage.err (h : OnPage p d e) (c y : Nat) : OnPage p d (e.err p c y) :=
  ⟨(keeps_err_iff (by simp)).mpr h.keeps, fun q => (half_err ..).trans (h.half q)⟩

theorem OnPage.ite {c : Prop} [Decidable c] (h : c → OnPage p d e) (g : ¬ c → OnPage p d x) : OnPage p d (if c then e else x) := by
  split
  case isTrue hc => exact h hc
  case isFalse hc => exact g hc

theorem OnPage.foldl {α : Type} {f : Dev → α → Dev} : ∀ (l : List α) (d : Dev), (∀ d, ∀ y ∈ l, OnPage p d (f d y)) → OnPage p d (l.foldl f d)
  | [], d, _ => refl p d
  | y :: l, d, hf => (hf d y List.mem_cons_self).trans (foldl l _ fun d z hz => hf d z (List.mem_cons_of_mem _ hz))

end

section
variable (d : Dev) (h : HalfId) {e : Nat}

/-- Whether a register belongs to what late loops put back. -/
def isBack (e : Nat) (late : List Nat) (k : Nat) : Bool := leKept h e k && late.contains (k % 65536)

/-- What late loops put back: words of their page, for the ones that stood there. -/
def wordsBack (e : Nat) (late : List Nat) : Dev :=
  let rest := d.regs.filter (fun (r : Nat × Word) => !(isBack h e late r.1))
  { d with regs := ((d.le h e).prevRegs.filter (fun (r : Nat × Word) => isBack h e late r.1)).foldl (fun acc (r : Nat × Word) => rfInsert r.1 r.2 acc) rest }

theorem rfFind_foldl_insert {k : Nat} : ∀ (l : List (Nat × Word)) (acc : List (Nat × Word)), (∀ r ∈ l, r.1 ≠ k) →
    rfFind k (l.foldl (fun acc (r : Nat × Word) => rfInsert r.1 r.2 acc) acc) = rfFind k acc
  | [], _, _ => rfl
  | r :: l, acc, hl => by
    rw [List.foldl_cons, rfFind_foldl_insert l _ fun x hx => hl x (List.mem_cons_of_mem _ hx), rfFind_insert_ne (fun hk => hl r List.mem_cons_self hk.symm)]

theorem wordsBack_onPage (late : List Nat) : OnPage (pgLe h e) d (d.wordsBack h e late) := by
  refine ⟨⟨rfl, fun k hk => ?_⟩, fun q => by cases q <;> rfl⟩
  have hno {k : Nat} (hk : keyPage k ∉ [pgLe h e]) : isBack h e late k = false := by
    rw [isBack]
    cases hkept : leKept h e k
    · rfl
    · exact absurd (List.mem_singleton.mpr (keyPage_of_leKept hkept)) hk
  rw [wordsBack, rfFind_foldl_insert, rfFind_filter (fun k => !(isBack h e late k)), hno hk]
  · rfl
  · intro r hr hrk
    have hin := (List.mem_filter.mp hr).2
    rw [hrk, hno hk] at hin
    exact absurd hin (by decide)

/-- The registers of a late loop that are not raised. -/
theorem leUnraise_eq (late : List Nat) (hlate : ∀ l ∈ late, l < 32) : ∃ (y : Dev) (q : List Rec), OnPage (pgLe h e) d y ∧
    d.leUnraise h e late = (({ y with silt := { y.silt with qUn := q } } : Dev).put (shp .slt) SLT.QUEUE_USED ({ y.silt with qUn := q } : Silt).used).modLe h e
      (fun x => { x with raised := late.foldl (fun r l => lset r l 0) x.raised }) := by
  unfold leUnraise
  extract_lets p x was kept plaus less d1 d2 d3 d4 d5 d6
  have h1 : OnPage p d d1 := OnPage.foldl _ _ fun y l hl => (OnPage.refl p y).put (by decide) _ (by have := hlate l hl; omega)
  have h2 : OnPage p d d2 := (h1.put (by decide) _ (by decide)).put (by decide) _ (by decide)
  have h3 : OnPage p d d3 := OnPage.ite (fun _ => h2) fun _ => h2.put (by decide) _ (by decide)
  have h4 : OnPage p d d4 := OnPage.ite (fun _ => h3) fun _ => h3.put (by decide) _ (by decide)
  have h5 : OnPage p d d5 := OnPage.ite (fun _ => (((h4.put (by decide) _ (by decide)).put (by decide) _ (by decide)).put (by decide) _ (by decide)).trans
    (OnPage.foldl _ _ fun y l _ => (OnPage.refl p y).err _ _)) fun _ => h4
  exact ⟨d5, _, h5, rfl⟩

/-- The loops of an engine that count as late from loop `k` on. -/
def lateOf (e k : Nat) : List Nat :=
  (List.range 32).filter (fun l => decide (k ≤ l) && d.on (pgLe h e) LE.LOOP_CFG_EN 0 l && !d.leSusp h e l && d.leDue h e l)

/-- What is left of one late loop: its state of the period before, and its flag. -/
def loopBack (prev : List LoopSt) (e : Nat) (d : Dev) (l : Nat) : Dev :=
  ((d.leUntrack h e l).modLoop h e l (fun _ => prev.getD l LoopSt.init)).orBits (pgLe h e) LE.LFLAG_BITS 64 0 l

theorem leLate_eq (k : Nat) (hne : (d.lateOf h e k).isEmpty = false) (hen : d.enabled (pgLe h e) = true) : d.leLate h e k =
    (((((d.lateOf h e k).foldl (loopBack h (d.le h e).prevLoops e) ((d.wordsBack h e (d.lateOf h e k)).leUnraise h e (d.lateOf h e k))).orBits (pgLe h e) LE.LATE_MAP_BITS
      ((d.lateOf h e k).map (fun l => 2 ^ l)).sum).stat (pgLe h e) 0).err (pgLe h e) cLATE ((d.lateOf h e k).headD 0)) := by
  rw [leLate, ← lateOf, hne, hen, if_neg (by decide)]
  rfl

/-! ### The state of a late loop -/

/-- The engine has its three pages of 32 loops. -/
def Engine (e : Nat) (d : Dev) : Prop := (d.half h).le.length = 3 ∧ (d.le h e).loops.length = 32

theorem le_modLe {h : HalfId} (g : Le → Le) (he : e < (d.half h).le.length) : (d.modLe h e g).le h e = g (d.le h e) := by
  rw [le, modLe, half_modHalf_same]
  exact getD_lmod_same _ _ he

theorem le_of_half {x y : Dev} (hh : y.half h = x.half h) : y.le h e = x.le h e := by rw [le, le, hh]

variable {h d}

theorem Engine.of_half {x : Dev} (hd : Engine h e d) (hh : x.half h = d.half h) : Engine h e x := ⟨hh ▸ hd.1, (le_of_half h hh) ▸ hd.2⟩

theorem half_leUntrack (l : Nat) (q : HalfId) : (d.leUntrack h e l).half q = d.half q := by
  unfold leUntrack
  dsimp only
  split
  · cases q <;> rfl
  · rfl

theorem keeps_leUntrack (l : Nat) (ps : List Nat) : d.keeps (d.leUntrack h e l) ps := by
  unfold leUntrack
  dsimp only
  split
  · exact keeps_refl d ps
  · exact keeps_refl d ps

theorem keeps_loopBack (prev : List LoopSt) {l : Nat} (hl : l < 32) : d.keeps (loopBack h prev e d l) [pgLe h e] := by
  rw [loopBack, orBits, keeps_put_iff (by simp) (by decide) (by decide) (by omega), modLoop, keeps_modLe_iff]
  exact keeps_leUntrack l _

/-- The state of one loop goes back, and the others stay. -/
theorem Engine.loopBack (hd : Engine h e d) (he : e < 3) (prev : List LoopSt) (l : Nat) : Engine h e (Dev.loopBack h prev e d l) ∧
    ∀ m, (Dev.loopBack h prev e d l).loopSt h e m = if m = l ∧ l < 32 then prev.getD l LoopSt.init else d.loopSt h e m := by
  have hu : Engine h e (d.leUntrack h e l) := hd.of_half (half_leUntrack l h)
  have hlen : e < ((d.leUntrack h e l).half h).le.length := by rw [hu.1]; exact he
  have hput : (Dev.loopBack h prev e d l).half h = ((d.leUntrack h e l).modLoop h e l (fun _ => prev.getD l LoopSt.init)).half h := half_put ..
  have hle : (Dev.loopBack h prev e d l).le h e = { d.le h e with loops := lmod (d.le h e).loops l (fun _ => prev.getD l LoopSt.init) } := by
    rw [le_of_half h hput, modLoop, le_modLe _ _ hlen, le_of_half h (half_leUntrack l h)]
  refine ⟨⟨?_, ?_⟩, fun m => ?_⟩
  · rw [hput, modLoop, modLe, half_modHalf_same]
    exact (length_lmod ..).trans hu.1
  · rw [hle]
    exact (length_lmod ..).trans hd.2
  · rw [loopSt, hle, loopSt, getD_lmod, hd.2]

/-- A flag of a late loop. -/
theorem flag_loopBack (prev : List LoopSt) {l m : Nat} (h6 : m = l ∨ bitN (d.get (pgLe h e) LE.LFLAG_BITS 0 m) 6 = 1) :
    bitN ((loopBack h prev e d l).get (pgLe h e) LE.LFLAG_BITS 0 m) 6 = 1 := by
  by_cases hml : m = l
  · rw [hml]
    exact bitN_orBits _ _ _ (k := 6) _ _ (by decide) (by decide)
  · have hsame : (d.leUntrack h e l).get (pgLe h e) LE.LFLAG_BITS 0 m = d.get (pgLe h e) LE.LFLAG_BITS 0 m := by
      unfold leUntrack
      dsimp only
      split <;> rfl
    rw [loopBack, orBits, get_put_tab _ _ (fun he => hml he.symm), modLoop, get_modLe, hsame]
    exact h6.resolve_left hml

/-- The late loops of an engine in service. -/
theorem leLate_shows {k l : Nat} (he : e < 3) (hd : Engine h e d) (hl : l ∈ d.lateOf h e k) (hen : d.enabled (pgLe h e) = true) :
    bitN ((d.leLate h e k).get (pgLe h e) LE.LFLAG_BITS 0 l) 6 = 1 ∧ (d.leLate h e k).get (pgLe h e) HDR.ERR_CODE = cLATE ∧
    (d.leLate h e k).loopSt h e l = (d.le h e).prevLoops.getD l LoopSt.init ∧ d.keeps (d.leLate h e k) [pgLe h e, shp .slt] := by
  have hlate : ∀ m ∈ d.lateOf h e k, m < 32 := fun m hm => List.mem_range.mp (List.mem_filter.mp hm).1
  have hne : (d.lateOf h e k).isEmpty = false := by
    cases hc : d.lateOf h e k with
    | nil => rw [hc] at hl; exact absurd hl List.not_mem_nil
    | cons => rfl
  have hl32 := hlate l hl
  have ht : l < 65536 := by omega
  obtain ⟨x, hx⟩ : ∃ x, x = d.wordsBack h e (d.lateOf h e k) := ⟨_, rfl⟩
  have hxp : OnPage (pgLe h e) d x := hx ▸ d.wordsBack_onPage h _
  obtain ⟨y, q, hy, hun⟩ := x.leUnraise_eq h (d.lateOf h e k) hlate (e := e)
  obtain ⟨z, hz⟩ : ∃ z, z = x.leUnraise h e (d.lateOf h e k) := ⟨_, rfl⟩
  obtain ⟨w, hw⟩ : ∃ w, w = (d.lateOf h e k).foldl (loopBack h (d.le h e).prevLoops e) z := ⟨_, rfl⟩
  have hrun : d.leLate h e k = ((w.orBits (pgLe h e) LE.LATE_MAP_BITS ((d.lateOf h e k).map (fun l => 2 ^ l)).sum).stat (pgLe h e) 0).err (pgLe h e) cLATE
      ((d.lateOf h e k).headD 0) := by rw [d.leLate_eq h k hne hen, hw, hz, hx]
  have hyhalf : y.half h = d.half h := (hy.half h).trans (hxp.half h)
  have hzk : d.keeps z [pgLe h e, shp .slt] := by
    rw [hz, hun, keeps_modLe_iff, keeps_put_iff (by simp) (by decide) (by decide) (by decide), keeps_with_silt]
    exact keeps_mono (keeps_trans hxp.keeps hy.keeps) (by simp)
  have hze : Engine h e z := by
    obtain ⟨v, hv⟩ : ∃ v, v = ({ y with silt := { y.silt with qUn := q } } : Dev).put (shp .slt) SLT.QUEUE_USED ({ y.silt with qUn := q } : Silt).used := ⟨_, rfl⟩
    have hvh : v.half h = d.half h := by rw [hv, half_put, ← hyhalf]; cases h <;> rfl
    have hve : Engine h e v := hd.of_half hvh
    rw [hz, hun, ← hv]
    refine ⟨?_, ?_⟩
    · rw [modLe, half_modHalf_same]
      exact (length_lmod ..).trans hve.1
    · rw [le_modLe _ _ (by rw [hve.1]; exact he)]
      exact hve.2
  obtain ⟨hflag, hst⟩ : bitN (w.get (pgLe h e) LE.LFLAG_BITS 0 l) 6 = 1 ∧ w.loopSt h e l = (d.le h e).prevLoops.getD l LoopSt.init := by
    rw [hw]
    refine (foldl_reach (x := l) (Q := fun u => Engine h e u) (P := fun u => Engine h e u ∧ bitN (u.get (pgLe h e) LE.LFLAG_BITS 0 l) 6 = 1 ∧
      u.loopSt h e l = (d.le h e).prevLoops.getD l LoopSt.init) _ _ (fun u m _ hu => (hu.loopBack he _ m).1) (fun u m hm hu => ?_) hl (fun u hu => ?_) hze).2
    · obtain ⟨hu, h6, hs⟩ := hu
      obtain ⟨hnext, hall⟩ := hu.loopBack he (d.le h e).prevLoops m
      refine ⟨hnext, flag_loopBack _ (.inr h6), ?_⟩
      rw [hall]
      split
      case isTrue hml => rw [hml.1]
      case isFalse => exact hs
    · obtain ⟨hnext, hall⟩ := hu.loopBack he (d.le h e).prevLoops l
      exact ⟨hnext, flag_loopBack _ (.inl rfl), by rw [hall, if_pos ⟨rfl, hl32⟩]⟩
  have hwk : z.keeps w [pgLe h e] := hw ▸ keeps_foldl _ _ fun u m hm => keeps_loopBack _ (hlate m hm)
  rw [hrun]
  refine ⟨?_, ?_, ?_, ?_⟩
  · rw [get_err_apart _ _ _ (by decide) (by decide) (by decide) ht, get_stat_apart _ _ (by decide) (by decide) (by decide) ht, orBits,
      get_put_apart _ _ (by decide) (by decide) (by decide) (by decide) (by decide) (by decide) ht, hflag]
  · rw [get_err_code]
    decide
  · have hhalf : (((w.orBits (pgLe h e) LE.LATE_MAP_BITS ((d.lateOf h e k).map (fun l => 2 ^ l)).sum).stat (pgLe h e) 0).err (pgLe h e) cLATE ((d.lateOf h e k).headD 0)).half h = w.half h := by
      rw [half_err, half_stat]
      exact half_put ..
    rw [loopSt, le_of_half h hhalf]
    exact hst
  · rw [keeps_err_iff (by simp), keeps_stat_iff (by simp), orBits, keeps_put_iff (by simp) (by decide) (by decide) (by decide)]
    exact keeps_trans hzk (keeps_mono hwk (by simp))

/-- What is sent again after a deadline changes the frames that wait, and no loop. -/
theorem loopLate_leaves (k : Nat) (he : e < 3) : (d.loopLate h e k).half h = (d.leLate h e k).half h ∧ (d.leLate h e k).keeps (d.loopLate h e k) [pgCan 2] ∧
    ∀ (f : Fld) (t : Nat), f.fits = true → 0 < f.cnt → t < 65536 → (d.loopLate h e k).get (pgLe h e) f 0 t = (d.leLate h e k).get (pgLe h e) f 0 t := by
  obtain ⟨x, hx⟩ : ∃ x, x = d.leLate h e k := ⟨_, rfl⟩
  obtain ⟨y, hy⟩ : ∃ y, y = if x.active h && (x.hlf h.other).servoBuf.isSome then x.modHlf h.other (fun z => { z with servoBuf := some (x.servoState h) }) else x := ⟨_, rfl⟩
  have hrun : d.loopLate h e k = if !(y.active h && y.holds h) || !y.exportNow h || y.saf.deviceSafe then y
      else (List.range 4).foldl (fun d n => if d.mpgOn h n && d.canPend 2 n then d.put (pgCan 2) CAN.TXB_D (d.mpgTrq h n) 3 n else d) y := by
    rw [hy, hx]
    rfl
  have hpage : pgCan 2 ≠ pgLe h e := by
    have hle : pgLe h e = h.n * 256 + 12 + e := rfl
    have hcan : pgCan 2 = 2 * 256 + 2 := by decide
    have hn : h.n ≤ 1 := by cases h <;> decide
    omega
  have hyx : y.half h = x.half h ∧ x.keeps y [pgCan 2] ∧ ∀ (f : Fld) (t : Nat), f.fits = true → 0 < f.cnt → t < 65536 → y.get (pgLe h e) f 0 t = x.get (pgLe h e) f 0 t := by
    rw [hy]
    split
    · exact ⟨half_modHlf .., (keeps_modHlf_iff ..).mpr (keeps_refl x _), fun _ _ _ _ _ => get_modHlf ..⟩
    · exact ⟨rfl, keeps_refl x _, fun _ _ _ _ _ => rfl⟩
  rw [← hx, hrun]
  split
  · exact hyx
  · refine foldl_keep (P := fun z : Dev => z.half h = x.half h ∧ x.keeps z [pgCan 2] ∧ ∀ (f : Fld) (t : Nat), f.fits = true → 0 < f.cnt → t < 65536 →
      z.get (pgLe h e) f 0 t = x.get (pgLe h e) f 0 t) _ _ (fun z n hn hz => ?_) hyx
    obtain ⟨hzh, hzk, hzg⟩ := hz
    have hn4 : n < 65536 := by have := List.mem_range.mp hn; omega
    split
    · exact ⟨(half_put ..).trans hzh, (keeps_put_iff (by simp) (by decide) (by decide) hn4).mpr hzk,
        fun f t hf hc ht => (get_put_other _ _ hpage (by decide) hf (by decide) hc hn4 ht).trans (hzg f t hf hc ht)⟩
    · exact ⟨hzh, hzk, hzg⟩

end

end Dev

/-- Settles O23: the port refuses the active bank, the supervisor raises PLAUS from its count, and a late loop keeps the state of the period before. -/
theorem loopEngineCommands : Obligations.LoopEngineCommands := by
  unfold Obligations.LoopEngineCommands
  intro s h e hout
  refine ⟨fun v ht hb hw => ⟨fun hact => ?_, fun hother => ?_⟩, fun l => ?_, fun k l hrun hlen hloops hkl hon hsusp hdue hen => ?_⟩
  · exact ⟨_, onDev_out (fun d => d.tblWrite h e v.toNat) hout, rfl, s.dev.tblWrite_active h e.isLt _ ht hact⟩
  · exact ⟨_, onDev_out (fun d => d.tblWrite h e v.toNat) hout, rfl, s.dev.tblWrite_stores h v ht hb hw hother⟩
  · split
    case isTrue hat =>
      obtain ⟨h1, h2, h3⟩ := hat
      exact ⟨_, onDev_out (fun d => d.lePlaus h e l) hout, rfl, s.dev.lePlaus_shows h e.isLt l.isLt h1 h2 h3 rfl⟩
    case isFalse hno =>
      refine ⟨_, onDev_out (fun d => d.lePlaus h e l) hout, rfl, ?_⟩
      rw [s.dev.lePlaus_ends h hno]
      exact ⟨Dev.bit_putBit_same _ _ _ _ _ _ (by decide) (by decide), (Dev.keeps_put_iff (by simp) (by decide) (by decide) (by omega)).mpr (Dev.keeps_refl _ _)⟩
  · have hmem : l.val ∈ s.dev.lateOf h e k := List.mem_filter.mpr ⟨List.mem_range.mpr l.isLt, by simp [hon, hsusp, hdue, hkl]⟩
    obtain ⟨hflag, hcode, hst, hk⟩ := Dev.leLate_shows e.isLt ⟨hlen, hloops⟩ hmem hen
    obtain ⟨hhalf, hkeep, hget⟩ := s.dev.loopLate_leaves (h := h) k.val e.isLt
    have hexec : exec (.loopLate h e k) s = .next { s with dev := s.dev.loopLate h e k } :=
      (onDev_out (fun d => if d.running h then d.loopLate h e k else d) hout).trans (by rw [hrun, if_pos rfl])
    refine ⟨_, hexec, rfl, ?_, ?_, ?_, ?_⟩
    · rw [hget _ _ (by decide) (by decide) (by omega), hflag]
    · rw [hget _ _ (by decide) (by decide) (by decide), hcode]
    · rw [Dev.loopSt, Dev.le_of_half h hhalf]
      exact hst
    · exact Dev.keeps_trans (Dev.keeps_mono hk (by simp)) (Dev.keeps_mono hkeep (by simp))

end Sys2Proof.Machine
end

section
/-! PROOFS. The calls and stops of Shoal: what settles a call, and what CANCEL and ARRIVE leave (O31). -/
namespace Sys2Proof.Machine

open Sys2Proof

namespace Dev

/-! ### The tables of a half -/

section
variable (d : Dev) (h : HalfId)

@[simp] theorem shl_modShl (f : Shl → Shl) : (d.modShl h f).shl h = f (d.shl h) := by rw [shl, modShl, half_modHalf_same, shl]
@[simp] theorem shl_put (p : Nat) (f : Fld) (v i t : Nat) : (d.put p f v i t).shl h = d.shl h := by rw [shl, half_put, shl]
@[simp] theorem shl_err (p c x : Nat) : (d.err p c x).shl h = d.shl h := by rw [shl, half_err, shl]
@[simp] theorem shl_stat (p k : Nat) : (d.stat p k).shl h = d.shl h := shl_put ..
@[simp] theorem shl_fresh : d.fresh.2.shl h = d.shl h := by cases h <;> rfl

theorem call_of_calls {e : Dev} (hc : (e.shl h).calls = (d.shl h).calls) (k : Nat) : e.call? h k = d.call? h k := by rw [call?, hc, call?]

theorem seq_of_stops {e : Dev} (hs : (e.shl h).stops = (d.shl h).stops) (c : Nat) : e.seqOf h c = d.seqOf h c := by rw [seqOf, hs, seqOf]

/-! ### One call -/

theorem find_before {α : Type} (k j : Nat) (hjk : j < k) (l : List (Nat × α)) : (l.filter fun e => decide (e.1 < k)).find? (fun e => e.1 == j) = l.find? (fun e => e.1 == j) := by
  rw [List.find?_filter]
  refine congrArg (fun g => List.find? g l) (funext fun e => ?_)
  by_cases he : e.1 = j
  · simp [he, hjk]
  · simp [he]

theorem find_after {α : Type} (k j : Nat) (hkj : k < j) (l : List (Nat × α)) : (l.filter fun e => decide (k < e.1)).find? (fun e => e.1 == j) = l.find? (fun e => e.1 == j) := by
  rw [List.find?_filter]
  refine congrArg (fun g => List.find? g l) (funext fun e => ?_)
  by_cases he : e.1 = j
  · simp [he, hkj]
  · simp [he]

theorem find_not_before {α : Type} (k j : Nat) (hkj : k ≤ j) (l : List (Nat × α)) : (l.filter fun e => decide (e.1 < k)).find? (fun e => e.1 == j) = none := by
  rw [List.find?_eq_none]
  intro e he
  have := (List.mem_filter.mp he).2
  simp at this ⊢
  omega

/-- A call stands in its slot, and the others stay. -/
theorem call_setCall (k j : Nat) (c : Call) : (d.setCall h k c).call? h j = if j = k then some c else d.call? h j := by
  have hcalls : ((d.setCall h k c).shl h).calls = (d.shl h).calls.filter (fun e => decide (e.1 < k)) ++ (k, c) :: (d.shl h).calls.filter (fun e => decide (k < e.1)) := by
    rw [setCall, shl_modShl]
  rw [call?, hcalls, List.find?_append, List.find?_cons, call?]
  rcases Nat.lt_trichotomy j k with hlt | heq | hgt
  · have hno : ((d.shl h).calls.filter fun e => decide (k < e.1)).find? (fun e => e.1 == j) = none := by
      rw [List.find?_eq_none]
      intro e he
      have := (List.mem_filter.mp he).2
      simp at this ⊢
      omega
    rw [find_before k j hlt, if_neg (by omega), beq_false_of_ne (by omega), hno, Option.or_none]
  · rw [heq, find_not_before k k (le_refl k), if_pos rfl, beq_self_eq_true]
    rfl
  · rw [find_not_before k j (by omega), find_after k j hgt, if_neg (by omega), beq_false_of_ne (by omega)]
    rfl

theorem stops_setCall (k : Nat) (c : Call) : ((d.setCall h k c).shl h).stops = (d.shl h).stops ∧ ((d.setCall h k c).shl h).out = (d.shl h).out := by
  rw [setCall, shl_modShl]
  exact ⟨rfl, rfl⟩

theorem shl_addRes (r : ShlRes) : (d.addRes h r).shl h = { d.shl h with out := (d.shl h).out ++ [r], decided := true } := by rw [addRes, shl_modShl]

theorem seqOf_setSeq {c : Nat} (hc : c < (d.shl h).stops.length) (s : List Stop) : (d.setSeq h c s).seqOf h c = s := by
  rw [seqOf, setSeq, shl_modShl]
  exact getD_lset_same _ _ hc

/-! ### Calls that are done -/

theorem callDone_some {k : Nat} {cl : Call} (hc : d.call? h k = some cl) :
    d.callDone h k = (d.setCall h k { cl with state := 4 }).addRes h ⟨4, 0, k, cl.car, cl.deck, cl.tag, 0, 0, false⟩ := by rw [callDone, hc]

theorem callDone_none {k : Nat} (hc : d.call? h k = none) : d.callDone h k = d := by rw [callDone, hc]

/-- A call that is done, with its result. -/
theorem callDone_shows (k : Nat) : ((d.callDone h k).shl h).stops = (d.shl h).stops ∧
    (∃ o, ((d.callDone h k).shl h).out = (d.shl h).out ++ o ∧ ∀ r ∈ o, r.event = 4 ∧ r.slot = k) ∧
    ∀ j, (d.callDone h k).call? h j = if j = k then (d.call? h j).map (fun c => { c with state := 4 }) else d.call? h j := by
  cases hc : d.call? h k with
  | none =>
    rw [d.callDone_none h hc]
    refine ⟨rfl, ⟨[], by simp, by simp⟩, fun j => ?_⟩
    split
    case isTrue hj => rw [hj, hc]; rfl
    case isFalse => rfl
  | some cl =>
    obtain ⟨hs, ho⟩ := d.stops_setCall h k { cl with state := 4 }
    rw [d.callDone_some h hc, shl_addRes]
    refine ⟨hs, ⟨[⟨4, 0, k, cl.car, cl.deck, cl.tag, 0, 0, false⟩], by rw [← ho], by simp⟩, fun j => ?_⟩
    rw [call_of_calls (d.setCall h k { cl with state := 4 }) h (by rw [shl_addRes]), call_setCall]
    split
    case isTrue hj => rw [hj, hc]; rfl
    case isFalse => rfl

/-- The calls of a list are done. -/
theorem callsDone_show : ∀ (l : List Nat) (d : Dev), ((l.foldl (fun d k => d.callDone h k) d).shl h).stops = (d.shl h).stops ∧
    (∃ o, ((l.foldl (fun d k => d.callDone h k) d).shl h).out = (d.shl h).out ++ o ∧ (∀ r ∈ o, r.event = 4 ∧ r.slot ∈ l) ∧ (l = [] → o = [])) ∧
    ∀ j, (l.foldl (fun d k => d.callDone h k) d).call? h j = if j ∈ l then (d.call? h j).map (fun c => { c with state := 4 }) else d.call? h j
  | [], d => ⟨rfl, ⟨[], by simp, by simp, fun _ => rfl⟩, fun j => by simp⟩
  | k :: l, d => by
    obtain ⟨hs, ⟨o, ho, hr⟩, hc⟩ := d.callDone_shows h k
    obtain ⟨hs', ⟨o', ho', hr', -⟩, hc'⟩ := callsDone_show l (d.callDone h k)
    rw [List.foldl_cons]
    refine ⟨hs'.trans hs, ⟨o ++ o', by rw [ho', ho, List.append_assoc], fun r hmem => ?_, fun he => absurd he (by simp)⟩, fun j => ?_⟩
    · rcases List.mem_append.mp hmem with hm | hm
      · exact ⟨(hr r hm).1, by rw [(hr r hm).2]; exact List.mem_cons_self⟩
      · exact ⟨(hr' r hm).1, List.mem_cons_of_mem _ (hr' r hm).2⟩
    · rw [hc', hc]
      by_cases hjk : j = k
      · rw [if_pos hjk, if_pos (List.mem_cons.mpr (.inl hjk)), Option.map_map]
        split <;> rfl
      · have hiff : j ∈ k :: l ↔ j ∈ l := by simp [hjk]
        rw [if_neg hjk]
        simp only [hiff]

end

/-! ### CANCEL -/

/-- What a call leaves beside no stop is never the call itself. -/
theorem unstop_left (k : Nat) : ∀ (s : List Stop) (carry : List Nat), k ∉ carry → k ∉ (unstop k carry s).2
  | [], carry, hc => hc
  | s :: r, carry, hc => by
    rw [unstop]
    dsimp only
    split
    · exact unstop_left k r _ (by simp [hc])
    · exact unstop_left k r [] (by simp)

section
variable (d : Dev) (h : HalfId)

/-- CANCEL of a call that waits for its end. -/
theorem shlCancel_settles {k tag : Nat} {cl : Call} (hc : d.call? h k = some cl) (hrej : cl.rejected = false) (hst : cl.state < 4) (hlen : (d.shl h).stops.length = 64)
    (hcar : cl.car < 64) {left : List Nat} (hleft : left = if cl.valid then (unstop k [] (d.seqOf h cl.car)).2 else []) :
    (d.shlCancel h k tag).call? h k = some { cl with state := 5 } ∧
    (∃ l, ((d.shlCancel h k tag).shl h).out = (d.shl h).out ++ l ++ [⟨5, 0, k, cl.car, cl.deck, cl.tag, 0, 0, false⟩] ∧ (∀ r ∈ l, r.event = 4 ∧ r.slot ∈ left) ∧
      (left = [] → l = [])) ∧
    (cl.valid = true → (d.shlCancel h k tag).seqOf h cl.car = (unstop k [] (d.seqOf h cl.car)).1) ∧
    (∀ j, j ≠ k → j ∉ left → (d.shlCancel h k tag).call? h j = d.call? h j) ∧
    (∀ j c, j ∈ left → d.call? h j = some c → (d.shlCancel h k tag).call? h j = some { c with state := 4 }) := by
  obtain ⟨x, hx, hseq⟩ : ∃ x, d.removeStops h k cl = left.foldl (fun d m => d.callDone h m) x ∧ (x.shl h).out = (d.shl h).out ∧ (x.shl h).calls = (d.shl h).calls ∧
      (cl.valid = true → x.seqOf h cl.car = (unstop k [] (d.seqOf h cl.car)).1) := by
    rw [removeStops]
    cases hv : cl.valid with
    | false =>
      rw [hv, if_neg (by decide)] at hleft
      exact ⟨d, by rw [hleft, if_neg (by decide)]; rfl, rfl, rfl, fun hf => absurd hf (by decide)⟩
    | true =>
      rw [hv, if_pos rfl] at hleft
      refine ⟨d.setSeq h cl.car (unstop k [] (d.seqOf h cl.car)).1, by rw [hleft, if_pos rfl], ?_, ?_, fun _ => d.seqOf_setSeq h (by omega) _⟩ <;>
        rw [setSeq, shl_modShl]
  obtain ⟨hout, hcalls, hval⟩ := hseq
  have hno : k ∉ left := by
    rw [hleft]
    split
    · exact unstop_left k _ [] (by simp)
    · simp
  obtain ⟨y, hy⟩ : ∃ y, y = d.removeStops h k cl := ⟨_, rfl⟩
  obtain ⟨hstops, ⟨o, ho, hr, hnil⟩, hcall⟩ := callsDone_show h left x
  rw [← hx, ← hy] at hstops ho hcall
  obtain ⟨hsetS, hsetO⟩ := y.stops_setCall h k { cl with state := 5 }
  obtain ⟨e, hrun, heO, heC, heS⟩ : ∃ e, d.shlCancel h k tag = e ∧ (e.shl h).out = (y.shl h).out ++ [⟨5, 0, k, cl.car, cl.deck, cl.tag, 0, 0, false⟩] ∧
      (∀ j, e.call? h j = if j = k then some { cl with state := 5 } else y.call? h j) ∧ (e.shl h).stops = (y.shl h).stops := by
    refine ⟨_, rfl, ?_⟩
    have hguard : (cl.rejected || decide (cl.state ≥ 4)) = false := by simp [hrej]; omega
    rw [shlCancel, hc]
    dsimp only
    rw [hguard, if_neg (by decide), ← hy]
    refine ⟨?_, fun j => ?_, ?_⟩
    · rw [shl_modShl, shl_addRes, ← hsetO]
    · rw [← call_setCall]
      exact call_of_calls _ h (by rw [shl_modShl, shl_addRes]) j
    · rw [shl_modShl, shl_addRes, ← hsetS]
  rw [hrun]
  refine ⟨by rw [heC, if_pos rfl], ⟨o, by rw [heO, ho, hout], hr, hnil⟩, fun hv => ?_, fun j hj hjl => ?_, fun j c hjl hjc => ?_⟩
  · rw [seq_of_stops x h (heS.trans hstops), hval hv]
  · rw [heC, if_neg hj, hcall, if_neg hjl, call_of_calls d h hcalls]
  · rw [heC, if_neg (fun hj : j = k => hno (hj ▸ hjl)), hcall, if_pos hjl, call_of_calls d h hcalls, hjc]
    rfl

/-- CANCEL of a free slot is rejected. -/
theorem shlCancel_rejects {k tag : Nat} (hc : d.call? h k = none) :
    ((d.shlCancel h k tag).shl h).out = (d.shl h).out ++ [⟨2, cSHL_SLOT, k, 0, false, tag, 0, 0, true⟩] ∧
    (d.shlCancel h k tag).get (ctl .shl h) HDR.ERR_CODE = cSHL_SLOT ∧ ((d.shlCancel h k tag).shl h).calls = (d.shl h).calls := by
  have hrun : d.shlCancel h k tag = (d.err (ctl .shl h) cSHL_SLOT k).addRes h ⟨2, cSHL_SLOT, k, 0, false, tag, 0, 0, true⟩ := by
    rw [shlCancel, hc]
    rfl
  rw [hrun, shl_addRes, shl_err]
  refine ⟨rfl, ?_, rfl⟩
  rw [addRes, get_modShl, get_err_code]
  decide

/-! ### ARRIVE -/

/-- What becomes of a call that boards. -/
def boarded (c : Call) : Call := { c with state := if c.kind = 1 then 3 else 4 }

/-- One call boards at its stop. -/
def board (h : HalfId) (d : Dev) (k : Nat) : Dev :=
  match d.call? h k with
  | some cl => if cl.kind = 1 then d.setCall h k { cl with state := 3 } else d.callDone h k
  | none => d

theorem board_shows (k : Nat) : ((board h d k).shl h).stops = (d.shl h).stops ∧ ∀ j, (board h d k).call? h j = if j = k then (d.call? h j).map boarded else d.call? h j := by
  cases hc : d.call? h k with
  | none =>
    have hrun : board h d k = d := by simp only [board, hc]
    rw [hrun]
    refine ⟨rfl, fun j => ?_⟩
    split
    case isTrue hj => rw [hj, hc]; rfl
    case isFalse => rfl
  | some cl =>
    have hrun : board h d k = if cl.kind = 1 then d.setCall h k { cl with state := 3 } else d.callDone h k := by simp only [board, hc]
    rw [hrun]
    by_cases hk : cl.kind = 1
    · rw [if_pos hk]
      refine ⟨(d.stops_setCall h k _).1, fun j => ?_⟩
      rw [call_setCall]
      split
      case isTrue hj => rw [hj, hc, Option.map_some, boarded, if_pos hk]
      case isFalse => rfl
    · rw [if_neg hk]
      obtain ⟨hs, -, hcall⟩ := d.callDone_shows h k
      refine ⟨hs, fun j => ?_⟩
      rw [hcall]
      split
      case isTrue hj => rw [hj, hc, Option.map_some, Option.map_some, boarded, if_neg hk]
      case isFalse => rfl

theorem boards_show : ∀ (l : List Nat) (d : Dev), ((l.foldl (board h) d).shl h).stops = (d.shl h).stops ∧
    ∀ j, (l.foldl (board h) d).call? h j = if j ∈ l then (d.call? h j).map boarded else d.call? h j
  | [], d => ⟨rfl, fun j => by simp⟩
  | k :: l, d => by
    obtain ⟨hs, hc⟩ := d.board_shows h k
    obtain ⟨hs', hc'⟩ := boards_show l (board h d k)
    rw [List.foldl_cons]
    refine ⟨hs'.trans hs, fun j => ?_⟩
    rw [hc', hc]
    by_cases hjk : j = k
    · rw [if_pos hjk, if_pos (List.mem_cons.mpr (.inl hjk)), Option.map_map]
      split <;> rfl
    · have hiff : j ∈ k :: l ↔ j ∈ l := by simp [hjk]
      rw [if_neg hjk]
      simp only [hiff]

theorem boardHere_tables (c : Nat) (floor : Option Nat) (count : Nat) (access : Bool) :
    ((d.boardHere h c floor count access).shl h).stops = (d.shl h).stops ∧ ((d.boardHere h c floor count access).shl h).calls = (d.shl h).calls := by
  rw [boardHere]
  split <;> rw [shl_modShl] <;> exact ⟨rfl, rfl⟩

/-- An ARRIVE at the head stop: the stop goes, its calls board and leave. -/
theorem shlArrive_eq {car tag : Nat} {st : Stop} {r : List Stop} (hin : d.inScope h car = true) (hseq : d.seqOf h car = st :: r) :
    ∃ x : Dev, (x.shl h).stops = ((d.setSeq h car r).shl h).stops ∧ (x.shl h).calls = (d.shl h).calls ∧
      d.shlArrive h car st.floor tag = st.drops.foldl (fun d k => d.callDone h k) ((st.picks ++ st.here).foldl (board h) x) := by
  have hopen (c : Bool) (y : Dev) : ((if c then y else y.modShl h (fun x => { x with servedAt := lset x.servedAt car none })).shl h).stops = (y.shl h).stops ∧
      ((if c then y else y.modShl h (fun x => { x with servedAt := lset x.servedAt car none })).shl h).calls = (y.shl h).calls := by
    cases c
    · rw [if_neg (by decide), shl_modShl]
      exact ⟨rfl, rfl⟩
    · exact ⟨rfl, rfl⟩
  unfold shlArrive
  rw [hin, if_neg (by decide), hseq]
  dsimp only
  rw [if_neg (by simp)]
  refine ⟨_, ?_, ?_, rfl⟩
  · refine (boardHere_tables _ h _ _ _ _).1.trans ((hopen _ _).1.trans ?_)
    rw [shl_modShl]
  · refine (boardHere_tables _ h _ _ _ _).2.trans ((hopen _ _).2.trans ?_)
    rw [shl_modShl, setSeq, shl_modShl]

/-- A submission without a slot is rejected. -/
theorem rejectEntry_shows {car tag why : Nat} (hw : why % 2 ^ 8 = why) : (d.rejectEntry h none car tag why).get (ctl .shl h) HDR.ERR_CODE = why ∧
    ((d.rejectEntry h none car tag why).shl h).stops = (d.shl h).stops ∧ ((d.rejectEntry h none car tag why).shl h).calls = (d.shl h).calls := by
  have hrun : ∃ res, d.rejectEntry h none car tag why = (d.fresh.2.err (ctl .shl h) why).addRes h res := ⟨_, rfl⟩
  obtain ⟨res, hrun⟩ := hrun
  rw [hrun, shl_addRes, shl_err, shl_fresh]
  refine ⟨?_, rfl, rfl⟩
  rw [addRes, get_modShl, get_err_code, hw]

/-- An ARRIVE away from the head stop is rejected. -/
theorem shlArrive_rejects {car floor tag : Nat} {st : Stop} {r : List Stop} (hin : d.inScope h car = true) (hseq : d.seqOf h car = st :: r) (hf : st.floor ≠ floor) :
    d.shlArrive h car floor tag = d.rejectEntry h none car tag cSHL_NOT_HEAD := by
  unfold shlArrive
  rw [hin, if_neg (by decide), hseq]
  dsimp only
  rw [if_pos hf]

theorem lt_of_inScope {car : Nat} (hin : d.inScope h car = true) : car < 64 := by
  rw [inScope, Bool.and_eq_true, Bool.and_eq_true] at hin
  exact of_decide_eq_true hin.1.1

/-- The calls of a head stop board, or are done. -/
theorem shlArrive_boards {car tag : Nat} {st : Stop} {r : List Stop} (hin : d.inScope h car = true) (hseq : d.seqOf h car = st :: r) (hlen : (d.shl h).stops.length = 64) :
    (d.shlArrive h car st.floor tag).seqOf h car = r ∧
    (∀ k cl, k ∈ st.picks ++ st.here → k ∉ st.drops → d.call? h k = some cl →
      ((d.shlArrive h car st.floor tag).call? h k).map Call.state = some (if cl.kind = 1 then 3 else 4)) ∧
    (∀ k cl, k ∈ st.drops → d.call? h k = some cl → ((d.shlArrive h car st.floor tag).call? h k).map Call.state = some 4) := by
  obtain ⟨x, hxs, hxc, hrun⟩ := d.shlArrive_eq h (tag := tag) hin hseq
  obtain ⟨hs, hc⟩ := boards_show h (st.picks ++ st.here) x
  obtain ⟨y, hy⟩ : ∃ y, y = (st.picks ++ st.here).foldl (board h) x := ⟨_, rfl⟩
  rw [← hy] at hs hc hrun
  obtain ⟨hs', -, hc'⟩ := callsDone_show h st.drops y
  rw [← hrun] at hs' hc'
  refine ⟨?_, fun k cl hk hno hcl => ?_, fun k cl hk hcl => ?_⟩
  · rw [seq_of_stops (d.setSeq h car r) h (hs'.trans (hs.trans hxs)), d.seqOf_setSeq h (by have := d.lt_of_inScope h hin; omega)]
  · rw [hc', if_neg hno, hc, if_pos hk, call_of_calls d h hxc, hcl]
    rfl
  · rw [hc', if_pos hk, hc, call_of_calls d h hxc, hcl]
    split <;> rfl

end

end Dev

/-- Settles O31: a call that is cancelled leaves its sequence and settles what stood beside it; a head stop's calls board before others leave. -/
theorem cancelAndArrive : Obligations.CancelAndArrive := by
  unfold Obligations.CancelAndArrive
  intro d h tag
  refine ⟨fun k cl hc hrej hst hlen hcar => d.shlCancel_settles h hc hrej hst hlen hcar rfl, fun k hc => d.shlCancel_rejects h hc,
    fun car floor st r hin hseq hlen => ⟨fun hf => ?_, fun hf => ?_⟩⟩
  · rw [d.shlArrive_rejects h hin hseq hf]
    obtain ⟨hcode, hs, hc⟩ := d.rejectEntry_shows h (car := car) (tag := tag) (why := cSHL_NOT_HEAD) (by decide)
    exact ⟨hcode, (Dev.seq_of_stops d h hs car).trans hseq, hc⟩
  · rw [← hf]
    exact d.shlArrive_boards h hin hseq hlen

end Sys2Proof.Machine
end

section
/-! PROOFS. What the operations of Shoal leave: the registers and the tables that an evaluation changes. -/
namespace Sys2Proof.Machine

open Sys2Proof

namespace Dev

/-! ### Steps on the page of Shoal -/

/-- The registers that an operation of Shoal shows itself in. -/
def shlFields : List Fld := errFields ++ [HDR.STAT_BLOCK, SHL.EVAL_LAST_NS, SHL.EVAL_MAX_NS, SHL.REASSIGN_COUNT]

theorem shlFields_fit : ∀ g ∈ shlFields, g.fits = true ∧ 0 < g.cnt := by decide

/-- An operation of Shoal: it shows itself in these registers, and changes neither memory nor a car record. -/
structure ShlStep (h : HalfId) (d e : Dev) : Prop where
  keeps : d.keeps e [ctl .shl h]
  get : ∀ (q : Nat) (f : Fld) (i t : Nat), (q ≠ ctl .shl h ∨ ∀ g ∈ shlFields, g.apart f = true) → f.fits = true → i < f.cnt → t < 65536 → e.get q f i t = d.get q f i t
  recs : (e.shl h).recs = (d.shl h).recs

namespace ShlStep

variable {h : HalfId} {d e x : Dev}

theorem refl (h : HalfId) (d : Dev) : ShlStep h d d := ⟨keeps_refl d _, fun _ _ _ _ _ _ _ _ => rfl, rfl⟩

theorem trans (s : ShlStep h d e) (t : ShlStep h e x) : ShlStep h d x :=
  ⟨keeps_trans s.keeps t.keeps, fun q f i u hq hf hi hu => (t.get q f i u hq hf hi hu).trans (s.get q f i u hq hf hi hu), t.recs.trans s.recs⟩

theorem put (s : ShlStep h d e) {g : Fld} (hg : g ∈ shlFields) (v : Nat) : ShlStep h d (e.put (ctl .shl h) g v) := by
  obtain ⟨hfits, hcnt⟩ := shlFields_fit g hg
  refine ⟨(keeps_put_iff (by simp) hfits hcnt (by decide)).mpr s.keeps, fun q f i t hq hf hi ht => ?_, by rw [shl_put]; exact s.recs⟩
  rw [← s.get q f i t hq hf hi ht]
  rcases hq with hne | ha
  · exact get_put_other _ _ hne.symm hfits hf hcnt hi (by decide) ht
  · exact get_put_field _ _ (ha g hg) hfits hf hcnt hi (by decide) ht

theorem modShl (s : ShlStep h d e) (f : Shl → Shl) (hf : ∀ x, (f x).recs = x.recs) : ShlStep h d (e.modShl h f) :=
  ⟨(keeps_modShl_iff ..).mpr s.keeps, fun q g i t hq hg hi ht => (get_modShl ..).trans (s.get q g i t hq hg hi ht), by rw [shl_modShl, hf]; exact s.recs⟩

theorem err (s : ShlStep h d e) (c y : Nat) : ShlStep h d (e.err (ctl .shl h) c y) :=
  ((s.put (by simp [shlFields, errFields]) _).put (by simp [shlFields, errFields]) _).put (by simp [shlFields, errFields]) _

theorem stat (s : ShlStep h d e) (k : Nat) : ShlStep h d (e.stat (ctl .shl h) k) := s.put (by simp [shlFields]) _

theorem fresh (s : ShlStep h d e) : ShlStep h d e.fresh.2 := ⟨s.keeps, s.get, by rw [shl_fresh]; exact s.recs⟩

theorem ite {c : Prop} [Decidable c] (s : c → ShlStep h d e) (t : ¬ c → ShlStep h d x) : ShlStep h d (if c then e else x) := by
  split
  case isTrue hc => exact s hc
  case isFalse hc => exact t hc

theorem foldl {α : Type} {f : Dev → α → Dev} : ∀ (l : List α) (d : Dev), (∀ d, ∀ y ∈ l, ShlStep h d (f d y)) → ShlStep h d (l.foldl f d)
  | [], d, _ => refl h d
  | y :: l, d, hf => (hf d y List.mem_cons_self).trans (foldl l _ fun d z hz => hf d z (List.mem_cons_of_mem _ hz))

theorem setCall (s : ShlStep h d e) (k : Nat) (c : Call) : ShlStep h d (e.setCall h k c) := s.modShl _ fun _ => rfl
theorem setSeq (s : ShlStep h d e) (c : Nat) (l : List Stop) : ShlStep h d (e.setSeq h c l) := s.modShl _ fun _ => rfl
theorem addRes (s : ShlStep h d e) (r : ShlRes) : ShlStep h d (e.addRes h r) := s.modShl _ fun _ => rfl

theorem callDone (s : ShlStep h d e) (k : Nat) : ShlStep h d (e.callDone h k) := by
  cases hc : e.call? h k with
  | none => rwa [e.callDone_none h hc]
  | some cl =>
    rw [e.callDone_some h hc]
    exact (s.setCall k _).addRes _

theorem boardHere (s : ShlStep h d e) (c : Nat) (floor : Option Nat) (count : Nat) (access : Bool) : ShlStep h d (e.boardHere h c floor count access) :=
  ite (fun _ => s.modShl _ fun _ => rfl) fun _ => s.modShl _ fun _ => rfl

theorem evalTime (s : ShlStep h d e) : ShlStep h d (e.evalTime h) := (s.put (by simp [shlFields]) _).put (by simp [shlFields]) _

theorem rejectCall (s : ShlStep h d e) (k : Nat) (cl : Call) (why : Nat) : ShlStep h d (e.rejectCall h k cl why) := ((s.setCall k _).err _ _).addRes _

theorem rejectEntry (s : ShlStep h d e) (slot : Option Nat) (car tag why : Nat) : ShlStep h d (e.rejectEntry h slot car tag why) := by
  cases slot with
  | none => exact (s.fresh.err _ _).addRes _
  | some k => exact (s.err _ _).addRes _

theorem countMove (s : ShlStep h d e) : ShlStep h d (e.countMove h) := (s.put (by simp [shlFields]) _).stat 1

theorem removeStops (s : ShlStep h d e) (k : Nat) (cl : Call) : ShlStep h d (e.removeStops h k cl) :=
  ite (fun _ => (s.setSeq _ _).trans (foldl _ _ fun x m _ => (refl h x).callDone m)) fun _ => s

theorem decide_ (s : ShlStep h d e) (k : Nat) (cl : Call) (event : Nat) (b : Nat × Nat × Plan × Bool × Nat × Nat) : ShlStep h d (e.decide_ h k cl event b) := by
  have hcar := (s.setSeq b.1 ((b.2.2.1.seq.zip (e.carEtas h b.1 ((e.rec? h b.1).getD ⟨0, 0, 0, false, none, false, 0, 0, 0, false⟩) (e.seqOf h b.1) b.2.2.1.seq
    (e.hereDwell h b.1 cl ((e.rec? h b.1).getD ⟨0, 0, 0, false, none, false, 0, 0, 0, false⟩) b.2.2.1))).map (fun q => { q.1 with eta := q.2 })))
  have hset := hcar.setCall k { cl with state := if cl.kind = 4 then 3 else 2, car := b.1, deck := b.2.2.2.1, valid := true, cost := b.2.1, etaP := eta16 b.2.2.2.2.1,
                                        etaD := if cl.kind = 1 ∨ cl.kind = 4 then eta16 b.2.2.2.2.2 else 0 }
  have hres := ((ite (c := b.2.2.1.here = true) (fun _ => hset.boardHere b.1 ((e.rec? h b.1).getD ⟨0, 0, 0, false, none, false, 0, 0, 0, false⟩).floor cl.count cl.access)
    fun _ => hset).addRes ⟨event, 0, k, b.1, b.2.2.2.1, cl.tag, eta16 b.2.2.2.2.1, if cl.kind = 1 ∨ cl.kind = 4 then eta16 b.2.2.2.2.2 else 0, false⟩)
  exact ite (c := (b.2.2.1.here && b.2.2.1.seq.isEmpty) = true) (fun _ => hres.callDone k) fun _ => hres

end ShlStep

/-! ### What a decision leaves in the tables -/

section
variable (d : Dev) (h : HalfId)

theorem mem_setCall {k : Nat} {c : Call} {q : Nat × Call} (hq : q ∈ ((d.setCall h k c).shl h).calls) : (q ∈ (d.shl h).calls ∧ q.1 ≠ k) ∨ q = (k, c) := by
  rw [setCall, shl_modShl, List.mem_append, List.mem_cons, List.mem_filter, List.mem_filter] at hq
  rcases hq with ⟨hm, hlt⟩ | rfl | ⟨hm, hlt⟩
  · exact .inl ⟨hm, Nat.ne_of_lt (of_decide_eq_true hlt)⟩
  · exact .inr rfl
  · exact .inl ⟨hm, (Nat.ne_of_lt (of_decide_eq_true hlt)).symm⟩

/-- A step that puts one call in its slot, and reports nothing. -/
structure CallPut (k : Nat) (c : Call) (d e : Dev) : Prop where
  call : ∀ j, e.call? h j = if j = k then some c else d.call? h j
  mem : ∀ q ∈ (e.shl h).calls, (q ∈ (d.shl h).calls ∧ q.1 ≠ k) ∨ q = (k, c)
  report : (e.shl h).report = (d.shl h).report

variable {d h} {e x : Dev} {k : Nat} {c : Call}

theorem CallPut.of_setCall (hc : (x.shl h).calls = (d.shl h).calls) (hr : (x.shl h).report = (d.shl h).report) : CallPut h k c d (x.setCall h k c) := by
  refine ⟨fun j => ?_, fun q hq => ?_, ?_⟩
  · rw [call_setCall, call_of_calls d h hc]
  · rw [← hc]
    exact x.mem_setCall h hq
  · rw [setCall, shl_modShl]
    exact hr

theorem CallPut.same (s : CallPut h k c d e) (hc : (x.shl h).calls = (e.shl h).calls) (hr : (x.shl h).report = (e.shl h).report) : CallPut h k c d x :=
  ⟨fun j => (call_of_calls e h hc j).trans (s.call j), fun q hq => s.mem q (hc ▸ hq), hr.trans s.report⟩

theorem CallPut.callDone (s : CallPut h k c d e) : CallPut h k { c with state := 4 } d (e.callDone h k) := by
  have hk : e.call? h k = some c := by rw [s.call, if_pos rfl]
  rw [e.callDone_some h hk]
  refine CallPut.same (e := e.setCall h k { c with state := 4 }) ⟨fun j => ?_, fun q hq => ?_, ?_⟩ (by rw [shl_addRes]) (by rw [shl_addRes])
  · rw [call_setCall, s.call]
    split <;> rfl
  · rcases e.mem_setCall h hq with ⟨hm, hne⟩ | hnew
    · rcases s.mem q hm with hold | hnew
      · exact .inl hold
      · exact absurd (by rw [hnew]) hne
    · exact .inr hnew
  · rw [setCall, shl_modShl]
    exact s.report

/-- A decision puts the call in its slot, at the car chosen. -/
theorem decide_puts (d : Dev) (h : HalfId) (k : Nat) (cl : Call) (event : Nat) (b : Nat × Nat × Plan × Bool × Nat × Nat) :
    ∃ c : Call, c.held = cl.held ∧ c.car = b.1 ∧ CallPut h k c d (d.decide_ h k cl event b) := by
  obtain ⟨es, c, r, res, hheld, hcar, hrun⟩ : ∃ (es : List Stop) (c : Call) (r : CarRec) (res : ShlRes), c.held = cl.held ∧ c.car = b.1 ∧ d.decide_ h k cl event b =
      (if (b.2.2.1.here && b.2.2.1.seq.isEmpty) = true then ((if b.2.2.1.here = true then ((d.setSeq h b.1 es).setCall h k c).boardHere h b.1 r.floor cl.count cl.access
        else (d.setSeq h b.1 es).setCall h k c).addRes h res).callDone h k
      else (if b.2.2.1.here = true then ((d.setSeq h b.1 es).setCall h k c).boardHere h b.1 r.floor cl.count cl.access
        else (d.setSeq h b.1 es).setCall h k c).addRes h res) :=
    ⟨_, { cl with state := if cl.kind = 4 then 3 else 2, car := b.1, deck := b.2.2.2.1, valid := true, cost := b.2.1, etaP := eta16 b.2.2.2.2.1,
                  etaD := if cl.kind = 1 ∨ cl.kind = 4 then eta16 b.2.2.2.2.2 else 0 }, _, _, rfl, rfl, rfl⟩
  have hseq : CallPut h k c d ((d.setSeq h b.1 es).setCall h k c) := CallPut.of_setCall (by rw [Dev.setSeq, shl_modShl]) (by rw [Dev.setSeq, shl_modShl])
  have hboard : CallPut h k c d (if b.2.2.1.here = true then ((d.setSeq h b.1 es).setCall h k c).boardHere h b.1 r.floor cl.count cl.access
      else (d.setSeq h b.1 es).setCall h k c) := by
    split
    · refine hseq.same (boardHere_tables _ h _ _ _ _).2 ?_
      rw [Dev.boardHere]
      split <;> rw [shl_modShl]
    · exact hseq
  have hres := hboard.same (x := (if b.2.2.1.here = true then ((d.setSeq h b.1 es).setCall h k c).boardHere h b.1 r.floor cl.count cl.access
      else (d.setSeq h b.1 es).setCall h k c).addRes h res) (by rw [shl_addRes]) (by rw [shl_addRes])
  rw [hrun]
  split
  · exact ⟨{ c with state := 4 }, hheld, hcar, hres.callDone⟩
  · exact ⟨_, hheld, hcar, hres⟩

/-- A call that is rejected keeps its slot. -/
theorem rejectCall_puts (d : Dev) (h : HalfId) (k : Nat) (cl : Call) (why : Nat) : CallPut h k { cl with rejected := true } d (d.rejectCall h k cl why) := by
  have hset : CallPut h k { cl with rejected := true } d (d.setCall h k { cl with rejected := true }) := CallPut.of_setCall rfl rfl
  exact hset.same (by rw [rejectCall, shl_addRes, shl_err]) (by rw [rejectCall, shl_addRes, shl_err])

theorem shl_evalTime (d : Dev) (h : HalfId) : (d.evalTime h).shl h = d.shl h := (shl_put ..).trans (shl_put ..)

end

end Dev

end Sys2Proof.Machine
end

section
/-! PROOFS. The submission ring of Shoal (O30). -/
namespace Sys2Proof.Machine

open Sys2Proof

namespace Dev

/-! ### One entry -/

section
variable {h : HalfId} {d e : Dev}

theorem ShlStep.evaluate (s : ShlStep h d e) (k : Nat) (cl : Call) (event : Nat) (cars : List Nat) : ShlStep h d (e.evaluate h k cl event cars) := by
  unfold Dev.evaluate
  extract_lets c
  split
  · exact (s.evalTime).decide_ _ _ _ _
  · exact (s.evalTime).rejectCall _ _ _

theorem ShlStep.shlNew (s : ShlStep h d e) (w0 w1 tag : Nat) : ShlStep h d (e.shlNew h w0 w1 tag) := by
  unfold Dev.shlNew
  extract_lets kind src dst car n d1 blank cl
  have h1 : ShlStep h d d1 := s.modShl _ fun _ => rfl
  split
  case h_1 => exact h1.rejectEntry _ _ _ _
  case h_2 k hk =>
    extract_lets d2
    have h2 : ShlStep h d d2 := ShlStep.modShl (h1.setCall k cl) (fun x => { x with settled := x.settled.filter (fun q => q != cl.key) }) fun _ => rfl
    refine ShlStep.ite (fun _ => h2.rejectCall _ _ _) fun _ => ShlStep.ite (fun _ => h2.rejectCall _ _ _) fun _ => ShlStep.ite (fun _ => h2.rejectCall _ _ _) fun _ =>
      ShlStep.ite (fun _ => ?_) fun _ => ?_
    · exact ShlStep.modShl h2 (fun x => { x with fwd := x.fwd ++ [⟨1, cl.toG, 0, 0⟩] }) fun _ => rfl
    · have h3 : ShlStep h d (d2.evaluate h k cl 1 (d2.scopeCars h)) := h2.evaluate _ _ _ _
      exact ShlStep.ite (fun _ => ShlStep.modShl h3 (fun x => { x with report := x.report ++ [k] }) fun _ => rfl) fun _ => h3

theorem ShlStep.shlCancel (s : ShlStep h d e) (slot tag : Nat) : ShlStep h d (e.shlCancel h slot tag) := by
  unfold Dev.shlCancel
  split
  · refine ShlStep.ite (fun _ => s.rejectEntry _ _ _ _) fun _ => ?_
    exact (((s.removeStops _ _).setCall _ _).addRes _).modShl _ fun _ => rfl
  · exact s.rejectEntry _ _ _ _

theorem ShlStep.board (s : ShlStep h d e) (k : Nat) : ShlStep h d (Dev.board h e k) := by
  unfold Dev.board
  split
  · exact ShlStep.ite (fun _ => s.setCall _ _) fun _ => s.callDone _
  · exact s

theorem ShlStep.shlArrive (s : ShlStep h d e) (car floor tag : Nat) : ShlStep h d (e.shlArrive h car floor tag) := by
  unfold Dev.shlArrive
  refine ShlStep.ite (fun _ => s.rejectEntry _ _ _ _) fun _ => ?_
  split
  · exact s.rejectEntry _ _ _ _
  · refine ShlStep.ite (fun _ => s.rejectEntry _ _ _ _) fun _ => ?_
    extract_lets f more d1 o d2 d3 d4
    have h1 : ShlStep h d d1 := (s.setSeq _ _).modShl _ fun _ => rfl
    have h2 : ShlStep h d d2 := ShlStep.ite (fun _ => h1) fun _ => h1.modShl _ fun _ => rfl
    have h3 : ShlStep h d d3 := h2.boardHere _ _ _ _
    have h4 : ShlStep h d d4 := h3.trans (ShlStep.foldl _ _ fun x k _ => (ShlStep.refl h x).board k)
    exact h4.trans (ShlStep.foldl _ _ fun x k _ => (ShlStep.refl h x).callDone k)

theorem ShlStep.shlEntry (s : ShlStep h d e) (w0 w1 w2 w3 : Nat) : ShlStep h d (e.shlEntry h w0 w1 w2 w3) :=
  ShlStep.ite (fun _ => s.rejectEntry _ _ _ _) fun _ => ShlStep.ite (fun _ => s.shlNew _ _ _) fun _ => ShlStep.ite (fun _ => s.shlCancel _ _) fun _ => s.shlArrive _ _ _

theorem ShlStep.skipEntry (s : ShlStep h d e) : ShlStep h d (e.skipEntry h) := (s.err _ _).addRes _

/-! ### The ring -/

theorem shlStep_idx (s : ShlStep h d e) : e.get (ctl .shl h) SHL.SUB_HEAD_IDX = d.get (ctl .shl h) SHL.SUB_HEAD_IDX ∧
    e.get (ctl .shl h) SHL.SUB_TAIL_IDX = d.get (ctl .shl h) SHL.SUB_TAIL_IDX :=
  ⟨s.get _ _ _ _ (.inr (by decide)) (by decide) (by decide) (by decide), s.get _ _ _ _ (.inr (by decide)) (by decide) (by decide) (by decide)⟩

/-- A ring without an entry is left as it is. -/
theorem takeRing_empty (n : Nat) (hd : d.get (ctl .shl h) SHL.SUB_TAIL_IDX = d.get (ctl .shl h) SHL.SUB_HEAD_IDX) : d.takeRing h n = d := by
  cases n with
  | zero => rfl
  | succ n => rw [takeRing, hd, if_pos (by simp)]

theorem takeRing_off (n : Nat) (hoff : d.shlTakes h = false) : d.takeRing h n = d := by
  cases n with
  | zero => rfl
  | succ n => rw [takeRing, hoff, if_pos (by simp)]

/-- The one entry of a ring is taken. -/
theorem takeRing_one (n : Nat) (hon : d.shlTakes h = true) (hne : d.get (ctl .shl h) SHL.SUB_TAIL_IDX ≠ d.get (ctl .shl h) SHL.SUB_HEAD_IDX)
    (hnext : d.get (ctl .shl h) SHL.SUB_HEAD_IDX = (d.get (ctl .shl h) SHL.SUB_TAIL_IDX + 1) % d.get (ctl .shl h) SHL.SUB_SIZE_N)
    (hhead : d.get (ctl .shl h) SHL.SUB_HEAD_IDX < 4096) :
    ShlStep h (d.put (ctl .shl h) SHL.SUB_TAIL_IDX (d.get (ctl .shl h) SHL.SUB_HEAD_IDX)) (d.takeRing h (n + 1)) := by
  obtain ⟨x, hx⟩ : ∃ x, x = d.put (ctl .shl h) SHL.SUB_TAIL_IDX (d.get (ctl .shl h) SHL.SUB_HEAD_IDX) := ⟨_, rfl⟩
  have hxt : x.get (ctl .shl h) SHL.SUB_TAIL_IDX = x.get (ctl .shl h) SHL.SUB_HEAD_IDX := by
    rw [hx, get_put_same _ _ _ _ _ _ (by decide), get_put_apart _ _ (by decide) (by decide) (by decide) (by decide) (by decide) (by decide) (by decide)]
    exact Nat.mod_eq_of_lt hhead
  have hend {e : Dev} (s : ShlStep h x e) : ShlStep h x (e.takeRing h n) := by
    obtain ⟨hh, ht⟩ := shlStep_idx s
    rw [takeRing_empty n (by rw [hh, ht, hxt])]
    exact s
  rw [takeRing, hon, if_neg (by simpa using hne), ← hnext, ← hx]
  dsimp only
  split
  · exact hend (ShlStep.refl h x).skipEntry
  · exact hend ((ShlStep.refl h x).shlEntry _ _ _ _)

end

/-! ### Words of half SRAM -/

theorem memWord_memPutWord_same (m : List Host.Cell) (a : Nat) {w : Nat} (hw : w < 2 ^ 32) : memWord (memPutWord m a w) a = w := by
  rw [memWord, memPutWord, memRead_memWrites, memRead_memWrites, memRead_memWrites, memRead_memWrites, if_pos (by simp), if_pos (by simp), if_pos (by simp), if_pos (by simp),
    Nat.sub_self, Nat.add_sub_cancel_left, Nat.add_sub_cancel_left, Nat.add_sub_cancel_left]
  simp only [List.getD_cons_zero, List.getD_cons_succ, BitVec.toNat_ofNat]
  omega

theorem memRead_memPutWord (m : List Host.Cell) {a x : Nat} (w : Nat) (hx : x < a ∨ a + 4 ≤ x) : memRead (memPutWord m a w) x = memRead m x := by
  rw [memPutWord, memRead_memWrites, if_neg (by simp; omega)]

theorem memWord_memPutWord_apart (m : List Host.Cell) {a b : Nat} (w : Nat) (hb : b + 4 ≤ a) : memWord (memPutWord m a w) b = memWord m b := by
  rw [memWord, memRead_memPutWord _ _ (by omega), memRead_memPutWord _ _ (by omega), memRead_memPutWord _ _ (by omega), memRead_memPutWord _ _ (by omega), memWord]

section
variable (d : Dev) (h : HalfId) (a w : Nat)

theorem half_sramPut : (d.sramPut h a w).half h = { d.half h with sram := memPutWord (d.half h).sram a w } := by
  cases h <;> rfl

theorem half_sramPut_other : (d.sramPut h a w).half h.other = d.half h.other := by cases h <;> rfl

theorem regs_sramPut : (d.sramPut h a w).regs = d.regs := by cases h <;> rfl

theorem mram_sramPut : (d.sramPut h a w).mram = d.mram := by cases h <;> rfl

end

/-- An entry written into its place. -/
def entryPut (d : Dev) (h : HalfId) (a w0 w1 w2 w3 : Nat) : Dev := (((d.sramPut h a w0).sramPut h (a + 4) w1).sramPut h (a + 8) w2).sramPut h (a + 12) w3

section
variable (d : Dev) (h : HalfId) (a w0 w1 w2 w3 : Nat)

theorem entryPut_regs : (d.entryPut h a w0 w1 w2 w3).regs = d.regs ∧ (d.entryPut h a w0 w1 w2 w3).mram = d.mram ∧
    (d.entryPut h a w0 w1 w2 w3).half h.other = d.half h.other ∧ (d.entryPut h a w0 w1 w2 w3).shl h = d.shl h := by
  refine ⟨?_, ?_, ?_, ?_⟩
  · rw [entryPut, regs_sramPut, regs_sramPut, regs_sramPut, regs_sramPut]
  · rw [entryPut, mram_sramPut, mram_sramPut, mram_sramPut, mram_sramPut]
  · rw [entryPut, half_sramPut_other, half_sramPut_other, half_sramPut_other, half_sramPut_other]
  · rw [entryPut, shl, half_sramPut, half_sramPut, half_sramPut, half_sramPut, shl]

theorem entryPut_sram (hw : w2 < 2 ^ 32) : memWord ((d.entryPut h a w0 w1 w2 w3).half h).sram (a + 8) = w2 ∧
    ∀ x, x < a ∨ a + 16 ≤ x → memRead ((d.entryPut h a w0 w1 w2 w3).half h).sram x = memRead (d.half h).sram x := by
  have hsram : ((d.entryPut h a w0 w1 w2 w3).half h).sram = memPutWord (memPutWord (memPutWord (memPutWord (d.half h).sram a w0) (a + 4) w1) (a + 8) w2) (a + 12) w3 := by
    rw [entryPut, half_sramPut, half_sramPut, half_sramPut, half_sramPut]
  rw [hsram]
  refine ⟨by rw [memWord_memPutWord_apart _ _ (by omega), memWord_memPutWord_same _ _ hw], fun x hx => ?_⟩
  rw [memRead_memPutWord _ _ (by omega), memRead_memPutWord _ _ (by omega), memRead_memPutWord _ _ (by omega), memRead_memPutWord _ _ (by omega)]

end

theorem shlTakes_congr {d e : Dev} {h : HalfId} (hg : ∀ f : Fld, f ∈ [HDR.CTRL_EN, SHL.SCOPE_PASSIVE, SHL.SUB_SIZE_N] → e.get (ctl .shl h) f = d.get (ctl .shl h) f)
    (ho : e.get (ctl .hlf h) HLF.STATE_OWN = d.get (ctl .hlf h) HLF.STATE_OWN) : e.shlTakes h = d.shlTakes h := by
  rw [shlTakes, shlTakes, enabled, enabled, on, on, active, active, shlPassive, shlPassive, on, on, hg _ (by simp), hg _ (by simp), hg _ (by simp), ho]

theorem sram_of_memories {d e : Dev} (h : HalfId) (hm : e.memories = d.memories) :
    (e.half h).sram = (d.half h).sram ∧ (e.half h.other).sram = (d.half h.other).sram ∧ e.mram = d.mram := by
  obtain ⟨hmram, ha, hb, -⟩ : e.mram = d.mram ∧ e.ha.sram = d.ha.sram ∧ e.hb.sram = d.hb.sram ∧ True := by simpa [memories] using hm
  cases h
  · exact ⟨ha, hb, hmram⟩
  · exact ⟨hb, ha, hmram⟩

/-- A submission to an empty ring. -/
theorem submit_shows (d : Dev) (h : HalfId) (w0 w1 w2 w3 : Nat) (hw : w2 < 2 ^ 32) (hlo : 16 ≤ d.get (ctl .shl h) SHL.SUB_SIZE_N) (hhi : d.get (ctl .shl h) SHL.SUB_SIZE_N ≤ 4096)
    (hhead : d.get (ctl .shl h) SHL.SUB_HEAD_IDX < d.get (ctl .shl h) SHL.SUB_SIZE_N) (htail : d.get (ctl .shl h) SHL.SUB_TAIL_IDX = d.get (ctl .shl h) SHL.SUB_HEAD_IDX)
    {a next_ : Nat} (ha : a = d.get (ctl .shl h) SHL.SUB_BASE_ADDR + 16 * d.get (ctl .shl h) SHL.SUB_HEAD_IDX)
    (hn : next_ = (d.get (ctl .shl h) SHL.SUB_HEAD_IDX + 1) % d.get (ctl .shl h) SHL.SUB_SIZE_N) {t : Dev} (ht : t = d.submit h w0 w1 w2 w3) :
    t.get (ctl .shl h) SHL.SUB_HEAD_IDX = next_ ∧
    t.get (ctl .shl h) SHL.SUB_TAIL_IDX = (if d.shlTakes h then next_ else d.get (ctl .shl h) SHL.SUB_TAIL_IDX) ∧
    (d.shlTakes h = false → t.shl h = d.shl h) ∧ memWord (t.half h).sram (a + 8) = w2 ∧
    (∀ x, x < a ∨ a + 16 ≤ x → memRead (t.half h).sram x = memRead (d.half h).sram x) ∧ t.mram = d.mram ∧
    (t.half h.other).sram = (d.half h.other).sram ∧ (∀ k, keyPage k ≠ ctl .shl h → rfFind k t.regs = rfFind k d.regs) := by
  obtain ⟨x, hx⟩ : ∃ x, x = d.entryPut h a w0 w1 w2 w3 := ⟨_, rfl⟩
  obtain ⟨y, hy⟩ : ∃ y, y = x.put (ctl .shl h) SHL.SUB_HEAD_IDX next_ := ⟨_, rfl⟩
  obtain ⟨hxr, hxm, hxo, hxs⟩ := d.entryPut_regs h a w0 w1 w2 w3
  obtain ⟨hword, hrest⟩ := d.entryPut_sram h a w0 w1 w2 w3 hw
  rw [← hx] at hxr hxm hxo hxs hword hrest
  have hnlt : next_ < d.get (ctl .shl h) SHL.SUB_SIZE_N := hn ▸ Nat.mod_lt _ (by omega)
  have hne : next_ ≠ d.get (ctl .shl h) SHL.SUB_HEAD_IDX := by
    rcases Nat.lt_or_ge (d.get (ctl .shl h) SHL.SUB_HEAD_IDX + 1) (d.get (ctl .shl h) SHL.SUB_SIZE_N) with hlt | hge
    · rw [hn, Nat.mod_eq_of_lt hlt]
      omega
    · have heq : d.get (ctl .shl h) SHL.SUB_HEAD_IDX + 1 = d.get (ctl .shl h) SHL.SUB_SIZE_N := by omega
      rw [hn, heq, Nat.mod_self]
      omega
  have hxg (q : Nat) (f : Fld) (i u : Nat) : x.get q f i u = d.get q f i u := get_congr hxr ..
  have hrun : t = y.takeRing h 4096 := by
    rw [ht, submit, if_neg (by omega), ← ha, ← hn]
    dsimp only
    rw [← entryPut, ← hx, subHeadWrite, hxg, if_neg (by omega), hy]
  have hyh : y.get (ctl .shl h) SHL.SUB_HEAD_IDX = next_ := by
    rw [hy, get_put_same _ _ _ _ _ _ (by decide)]
    exact Nat.mod_eq_of_lt (show next_ < 4096 by omega)
  have hyg {f : Fld} (hf : f ∈ [HDR.CTRL_EN, SHL.SCOPE_PASSIVE, SHL.SUB_SIZE_N, SHL.SUB_TAIL_IDX]) : y.get (ctl .shl h) f = d.get (ctl .shl h) f := by
    have hall : SHL.SUB_HEAD_IDX.apart f = true ∧ f.fits = true ∧ 0 < f.cnt := by fin_cases hf <;> decide
    rw [hy, get_put_apart _ _ hall.1 (by decide) hall.2.1 (by decide) hall.2.2 (by decide) (by decide), hxg]
  have hyt : y.shlTakes h = d.shlTakes h := by
    refine shlTakes_congr (fun f hf => hyg (by fin_cases hf <;> simp)) ?_
    have hpage : ctl .shl h ≠ ctl .hlf h := by cases h <;> decide
    rw [hy, get_put_other _ _ hpage (by decide) (by decide) (by decide) (by decide) (by decide) (by decide), hxg]
  have hyk (k : Nat) (hk : keyPage k ≠ ctl .shl h) : rfFind k y.regs = rfFind k d.regs := by
    rw [hy, rfFind_put_page _ _ _ _ _ _ _ (by decide) hk, hxr]
  have hym : y.memories = x.memories := by rw [hy]; rfl
  obtain ⟨hsh, hso, hsm⟩ := sram_of_memories h hym
  cases hon : d.shlTakes h with
  | false =>
    rw [hrun, takeRing_off _ (hyt.trans hon), hsh, hso, hsm]
    exact ⟨hyh, hyg (by simp), fun _ => by rw [hy, shl_put, hxs], hword, hrest, hxm, congrArg Half.sram hxo, hyk⟩
  | true =>
    have hstep := takeRing_one 4095 (hyt.trans hon) (by rwa [hyg (f := SHL.SUB_TAIL_IDX) (by simp), hyh, htail, ne_comm]) (by rw [hyh, hyg (f := SHL.SUB_TAIL_IDX) (by simp), hyg (f := SHL.SUB_SIZE_N) (by simp), htail, hn]) (by omega)
    rw [hyh, ← hrun] at hstep
    obtain ⟨hth, htt⟩ := shlStep_idx hstep
    obtain ⟨hzh, hzo, hzm⟩ := sram_of_memories h (show t.memories = x.memories from hstep.keeps.1.trans hym)
    refine ⟨?_, ?_, fun hoff => absurd hoff (by simp), by rwa [hzh], by rwa [hzh], by rw [hzm, hxm], by rw [hzo, hxo], fun k hk => ?_⟩
    · rw [hth, get_put_apart _ _ (by decide) (by decide) (by decide) (by decide) (by decide) (by decide) (by decide), hyh]
    · rw [htt, get_put_same _ _ _ _ _ _ (by decide), if_pos rfl]
      exact Nat.mod_eq_of_lt (show next_ < 4096 by omega)
    · rw [hstep.keeps.2 k (by simpa using hk), rfFind_put_page _ _ _ _ _ _ _ (by decide) hk, hyk k hk]

end Dev

/-- Settles O30: the entry is written at the head, which advances; where Shoal takes submissions the ring held this one entry, and it is taken. -/
theorem submissionsAreTaken : Obligations.SubmissionsAreTaken := by
  intro s h kind count src dst access prio car slot tag i hout hi hlo hhi hhead htail
  dsimp only
  obtain ⟨w0, w1, w3, hrun⟩ : ∃ w0 w1 w3, exec i s = onDev (fun d => d.submit h w0 w1 tag.toNat w3) s := by
    rcases hi with rfl | rfl | rfl <;> exact ⟨_, _, _, rfl⟩
  rw [hrun, onDev_out _ hout]
  exact ⟨_, rfl, rfl, s.dev.submit_shows h w0 w1 tag.toNat w3 tag.isLt hlo hhi hhead htail rfl rfl rfl⟩

end Sys2Proof.Machine
end

section
/-! PROOFS. The result ring, the car records, the sweep, the forward time-out and the publication of Shoal (O33). -/
namespace Sys2Proof.Machine

open Sys2Proof

namespace Dev

section
variable (d : Dev) (h : HalfId)

/-! ### The result ring -/

theorem resTailWrite_out {v : Nat} (hv : v ≥ d.get (ctl .shl h) SHL.RES_SIZE_N) : d.resTailWrite h v = d.err (ctl .shl h) cRANGE := by
  rw [resTailWrite, if_pos (.inl hv)]

theorem resTailWrite_head {v : Nat} (hv : v < d.get (ctl .shl h) SHL.RES_SIZE_N) (hh : v = d.get (ctl .shl h) SHL.RES_HEAD_IDX) :
    d.resTailWrite h v = d.put (ctl .shl h) SHL.RES_TAIL_IDX v := by
  rw [resTailWrite]
  exact if_neg (by rw [← hh]; omega)

theorem resTailWrite_ignored {v : Nat} (hv : v ≥ d.get (ctl .shl h) SHL.RES_SIZE_N) : (d.resTailWrite h v).get (ctl .shl h) HDR.ERR_CODE = cRANGE ∧
    (d.resTailWrite h v).get (ctl .shl h) SHL.RES_TAIL_IDX = d.get (ctl .shl h) SHL.RES_TAIL_IDX ∧ d.keeps (d.resTailWrite h v) [ctl .shl h] := by
  rw [d.resTailWrite_out h hv]
  exact ⟨get_err_code .., get_err_apart d _ _ (by decide) (by decide) (by decide) (by decide), (keeps_err_iff (by simp)).mpr (keeps_refl ..)⟩

theorem resTailWrite_taken {v : Nat} (hw : v < 2 ^ 12) (hv : v < d.get (ctl .shl h) SHL.RES_SIZE_N) (hh : v = d.get (ctl .shl h) SHL.RES_HEAD_IDX) :
    (d.resTailWrite h v).get (ctl .shl h) SHL.RES_TAIL_IDX = v ∧ d.keeps (d.resTailWrite h v) [ctl .shl h] := by
  rw [d.resTailWrite_head h hv hh]
  exact ⟨(get_put_same _ _ _ _ _ _ (by decide)).trans (Nat.mod_eq_of_lt hw), (keeps_put_iff (by simp) (by decide) (by decide) (by decide)).mpr (keeps_refl ..)⟩

/-! ### Car records -/

theorem rec?_congr {d e : Dev} {h : HalfId} (hr : (e.shl h).recs = (d.shl h).recs) (c : Nat) : e.rec? h c = d.rec? h c := by rw [rec?, hr, rec?]

theorem recordStale_shows {c : Nat} {r : CarRec} (hr : d.rec? h c = some r) (hf : r.fresh = true) :
    (d.recordStale h c).rec? h c = some { r with fresh := false, avail := max r.avail 1 } ∧
    bitN ((d.recordStale h c).get (ctl .shl h) HDR.STAT_BLOCK) 5 = 1 ∧ d.keeps (d.recordStale h c) [ctl .shl h] := by
  have hlt : c < (d.shl h).recs.length := by
    by_contra hge
    rw [rec?, List.getD_eq_default _ _ (by omega)] at hr
    exact absurd hr (by simp)
  obtain ⟨x, hx⟩ : ∃ x, x = (d.modShl h fun y => { y with recs := lset y.recs c (some { r with fresh := false, avail := max r.avail 1 }) }).stat (ctl .shl h) 5 := ⟨_, rfl⟩
  obtain ⟨lo, hi, hrun⟩ : ∃ lo hi, d.recordStale h c = (x.put (ctl .shl h) SHL.CARS_LIVE_LO lo).put (ctl .shl h) SHL.CARS_LIVE_HI hi := by
    rw [recordStale, hr]
    dsimp only
    rw [if_pos hf, ← hx]
    exact ⟨_, _, rfl⟩
  rw [hrun]
  refine ⟨?_, ?_, ?_⟩
  · rw [rec?, shl_put, shl_put, hx, shl_stat, shl_modShl]
    exact getD_lset_same _ _ hlt
  · iterate 2 rw [get_put_apart _ _ (by decide) (by decide) (by decide) (by decide) (by decide) (by decide) (by decide)]
    rw [hx]
    exact bitN_stat _ _ (by decide)
  · rw [keeps_put_iff (by simp) (by decide) (by decide) (by decide), keeps_put_iff (by simp) (by decide) (by decide) (by decide), hx, keeps_stat_iff (by simp)]
    exact (keeps_modShl_iff ..).mpr (keeps_refl ..)

/-! ### The sweep -/

theorem ShlStep.sweepCall {d e : Dev} {h : HalfId} (s : ShlStep h d e) (k : Nat) : ShlStep h d (e.sweepCall h k) := by
  unfold Dev.sweepCall
  split
  · refine ShlStep.ite (fun _ => ?_) fun _ => s
    extract_lets d0
    have h0 : ShlStep h d d0 := s.removeStops _ _
    split
    · exact ShlStep.ite (fun _ => (h0.evalTime.decide_ _ _ _ _).countMove) fun _ => s.evalTime
    · exact s.evalTime
  · exact s

theorem sweep_shows (he : d.enabled (ctl .shl h) = true) (ha : d.active h = true) (hp : d.shlPassive h = false) (hs : d.on (ctl .shl h) SHL.SWEEP_EN = true)
    (hm : d.shlMode h ≠ 2) :
    (d.sweep h).get (ctl .shl h) SHL.SWEEP_CNT_N = (d.get (ctl .shl h) SHL.SWEEP_CNT_N + 1) % 2 ^ 32 ∧
    bitN ((d.sweep h).get (ctl .shl h) HDR.STAT_BLOCK) 3 = 1 ∧ d.keeps (d.sweep h) [ctl .shl h] := by
  obtain ⟨x, hx⟩ : ∃ x, x = ((d.shl h).calls.map Prod.fst).foldl (fun d k => d.sweepCall h k) d := ⟨_, rfl⟩
  have hstep : ShlStep h d x := by
    rw [hx]
    exact ShlStep.foldl _ _ fun d k _ => (ShlStep.refl h d).sweepCall k
  rw [sweep, if_pos (by simp [he, ha, hp, hs, hm]), ← hx]
  refine ⟨?_, bitN_stat _ _ (by decide), ?_⟩
  · rw [get_stat_apart _ _ (by decide) (by decide) (by decide) (by decide), wrapUp, get_put_same _ _ _ _ _ _ (by decide),
      hstep.get _ _ _ _ (.inr (by decide)) (by decide) (by decide) (by decide)]
    rfl
  · rw [keeps_stat_iff (by simp), wrapUp, keeps_put_iff (by simp) (by decide) (by decide) (by decide)]
    exact hstep.keeps

/-! ### Cars that went OUT -/

/-- The car chosen has a fresh record, and is in service. -/
theorem best_avail {k : Nat} {cl : Call} {cars : List Nat} {b : Nat × Nat × Plan × Bool × Nat × Nat} (hb : d.best h k cl cars = some b) :
    ∃ r, d.rec? h b.1 = some r ∧ r.avail = 0 := by
  obtain ⟨-, hfeas, -⟩ := theCheapestFeasibleCar d h k cl cars b hb
  rw [carFeasible] at hfeas
  cases hr : d.rec? h b.1 with
  | none => simp [hr] at hfeas
  | some r =>
    simp only [hr, Bool.and_eq_true, beq_iff_eq] at hfeas
    exact ⟨r, rfl, hfeas.1.1.1.2.2⟩

theorem mem_callsOf {c : Nat} {q : Nat × Call} :
    q ∈ d.callsOf h c ↔ q ∈ (d.shl h).calls ∧ (q.2.state == 2 && q.2.valid && q.2.car == c && !q.2.rejected) = true := List.mem_filter

/-- One call of a car that went OUT. -/
def reassign (h : HalfId) (d : Dev) (e : Nat × Call) : Dev :=
  let cl := e.2
  let d := d.setSeq h cl.car (unstop e.1 [] (d.seqOf h cl.car)).1
  let cl := { cl with state := 1, valid := false, locked := false }
  match d.best h e.1 cl (d.scopeCars h) with
  | some b => (d.evalTime h).decide_ h e.1 cl 3 b |>.countMove h
  | none => (d.evalTime h).rejectCall h e.1 cl cSHL_NO_CAR

theorem shlStep_reassign (e : Nat × Call) : ShlStep h d (reassign h d e) := by
  unfold reassign
  extract_lets cl d1 cl1
  have h1 : ShlStep h d d1 := (ShlStep.refl h d).setSeq _ _
  split
  · exact (h1.evalTime.decide_ _ _ _ _).countMove
  · exact h1.evalTime.rejectCall _ _ _

/-- A call that was reassigned is no ASSIGNED call of the car that went OUT. -/
theorem reassign_puts {c : Nat} {r : CarRec} (hr : d.rec? h c = some r) (ha : r.avail = 2) (e : Nat × Call) :
    ∃ cl : Call, (cl.state == 2 && cl.valid && cl.car == c && !cl.rejected) = false ∧
      ∀ q ∈ ((reassign h d e).shl h).calls, (q ∈ (d.shl h).calls ∧ q.1 ≠ e.1) ∨ q = (e.1, cl) := by
  unfold reassign
  extract_lets cl d1 cl1
  have hcalls : ((d1.evalTime h).shl h).calls = (d.shl h).calls := by rw [shl_evalTime, show d1 = d.setSeq h cl.car _ from rfl, Dev.setSeq, shl_modShl]
  have hrecs : d1.rec? h c = some r := (rec?_congr ((ShlStep.refl h d).setSeq _ _).recs c).trans hr
  split
  next b hb =>
    obtain ⟨c', -, hcar, hput⟩ := (d1.evalTime h).decide_puts h e.1 cl1 3 b
    refine ⟨c', ?_, fun q hq => ?_⟩
    · obtain ⟨r', hr', h0⟩ := d1.best_avail h hb
      have hne : b.1 ≠ c := by
        intro heq
        rw [heq, hrecs] at hr'
        rw [← Option.some.inj hr', ha] at h0
        exact absurd h0 (by decide)
      simp [hcar, hne]
    · rw [countMove, bump, shl_stat, shl_put] at hq
      rw [← hcalls]
      exact hput.mem q hq
  next =>
    have hput := (d1.evalTime h).rejectCall_puts h e.1 cl1 cSHL_NO_CAR
    exact ⟨{ cl1 with rejected := true }, by simp, fun q hq => by rw [← hcalls]; exact hput.mem q hq⟩

theorem callsOf_reassign {c : Nat} {r : CarRec} (ha : r.avail = 2) : ∀ (l : List (Nat × Call)) (d : Dev), d.rec? h c = some r → (∀ q ∈ d.callsOf h c, q ∈ l) →
    (l.foldl (reassign h) d).callsOf h c = []
  | [], d, _, hl => List.eq_nil_iff_forall_not_mem.mpr fun q hq => absurd (hl q hq) List.not_mem_nil
  | e :: l, d, hr, hl => by
    obtain ⟨cl, hno, hput⟩ := d.reassign_puts h hr ha e
    refine callsOf_reassign ha l (reassign h d e) ((rec?_congr (d.shlStep_reassign h e).recs c).trans hr) fun q hq => ?_
    obtain ⟨hq, hof⟩ := (mem_callsOf ..).mp hq
    rcases hput q hq with ⟨hold, hne⟩ | rfl
    · exact (List.mem_cons.mp (hl q ((mem_callsOf ..).mpr ⟨hold, hof⟩))).resolve_left fun heq => hne (by rw [heq])
    · exact absurd hof (by simp [hno])

theorem reassignOut_shows {c : Nat} {r : CarRec} (he : d.enabled (ctl .shl h) = true) (ha : d.active h = true) (hp : d.shlPassive h = false)
    (hm : d.shlMode h ≠ 2) (hr : d.rec? h c = some r) (h2 : r.avail = 2) :
    (d.reassignOut h c).callsOf h c = [] ∧ d.keeps (d.reassignOut h c) [ctl .shl h] := by
  have hrun : d.reassignOut h c = (d.callsOf h c).foldl (reassign h) d := by
    rw [reassignOut, if_neg (by simp [he, ha, hp, hm, hr, h2])]
    rfl
  rw [hrun]
  exact ⟨callsOf_reassign h h2 _ d hr fun q hq => hq, (ShlStep.foldl _ _ fun d e _ => d.shlStep_reassign h e).keeps⟩

/-! ### A decision that does not come -/

theorem regs_modShl (f : Shl → Shl) : (d.modShl h f).regs = d.regs := by cases h <;> rfl

theorem regs_callDone (k : Nat) : (d.callDone h k).regs = d.regs := by
  rw [Dev.callDone]
  split
  · rw [addRes, regs_modShl, Dev.setCall, regs_modShl]
  · rfl

theorem regs_decide_ (k : Nat) (cl : Call) (event : Nat) (b : Nat × Nat × Plan × Bool × Nat × Nat) : (d.decide_ h k cl event b).regs = d.regs := by
  unfold Dev.decide_
  extract_lets c pl etaD etaP r es alone d1 d2 d3 d4
  have h3 : d3.regs = d2.regs := by
    show (if _ then _ else _ : Dev).regs = _
    split
    · rw [Dev.boardHere]
      split <;> rw [regs_modShl]
    · rfl
  have h4 : d4.regs = d.regs := by rw [show d4 = d3.addRes h _ from rfl, addRes, regs_modShl, h3, show d2 = d1.setCall h k _ from rfl, Dev.setCall, regs_modShl,
    show d1 = d.setSeq h c _ from rfl, Dev.setSeq, regs_modShl]
  split
  · rw [regs_callDone, h4]
  · exact h4

theorem regs_err_setCall (k : Nat) (cl : Call) (c x : Nat) : ((d.setCall h k cl).err (ctl .shl h) c x).regs = (d.err (ctl .shl h) c x).regs := by
  cases h <;> rfl

/-- An evaluation shows its time, and the call where it is rejected. -/
theorem evaluate_regs (k : Nat) (cl : Call) (event : Nat) (cars : List Nat) :
    (d.evaluate h k cl event cars).regs = (d.evalTime h).regs ∨ (d.evaluate h k cl event cars).regs = ((d.evalTime h).err (ctl .shl h) cSHL_NO_CAR k).regs := by
  unfold Dev.evaluate
  extract_lets c
  split
  · exact .inl (regs_decide_ ..)
  · refine .inr ?_
    rw [Dev.rejectCall, addRes, regs_modShl]
    exact regs_err_setCall ..

theorem evaluate_puts (k : Nat) (cl : Call) (event : Nat) (cars : List Nat) : ∃ c : Call, c.held = cl.held ∧ CallPut h k c (d.evalTime h) (d.evaluate h k cl event cars) := by
  unfold Dev.evaluate
  extract_lets c
  split
  next b _ =>
    obtain ⟨c', hheld, -, hput⟩ := (d.evalTime h).decide_puts h k c event b
    exact ⟨c', hheld, hput⟩
  next => exact ⟨{ c with rejected := true }, rfl, (d.evalTime h).rejectCall_puts h k c cSHL_NO_CAR⟩

theorem get_evalTime {f : Fld} (hlast : SHL.EVAL_LAST_NS.apart f = true) (hmax : SHL.EVAL_MAX_NS.apart f = true) (hf : f.fits = true) (hc : 0 < f.cnt) :
    (d.evalTime h).get (ctl .shl h) f = d.get (ctl .shl h) f := by
  rw [evalTime, get_put_apart _ _ hmax (by decide) hf (by decide) hc (by decide) (by decide),
    get_put_apart _ _ hlast (by decide) hf (by decide) hc (by decide) (by decide)]

theorem fwdTimeout_shows {k : Nat} {cl : Call} (hk : k < 4096) (he : d.enabled (ctl .shl h) = true) (hm : d.shlMode h = 2) (hc : d.call? h k = some cl)
    (h1 : cl.state = 1) (hr : cl.rejected = false) {t : Dev} (ht : t = d.fwdTimeout h k) :
    (t.call? h k).map Call.held = some true ∧ (t.shl h).report = (d.shl h).report ++ (if t.placed h k then [k] else []) ∧
    t.get (ctl .shl h) HDR.ERR_DETAIL = k ∧ bitN (t.get (ctl .shl h) HDR.STAT_BLOCK) 4 = 1 ∧ d.keeps t [ctl .shl h] := by
  obtain ⟨y, hy⟩ : ∃ y, y = (d.stat (ctl .shl h) 4).err (ctl .shl h) cSHL_FWD_TMO k := ⟨_, rfl⟩
  obtain ⟨own, f, x, hx, hrun⟩ : ∃ (own : List Nat) (f : Shl → List GFwd) (x : Dev), x = y.evaluate h k { cl with held := true } 1 own ∧
      t = x.modShl h (fun z => { z with report := z.report ++ (if x.placed h k then [k] else []), fwd := f z }) := by
    rw [ht, fwdTimeout, hc]
    dsimp only
    rw [if_pos (by simp [he, hm, h1, hr]), ← hy]
    exact ⟨_, _, _, rfl, rfl⟩
  obtain ⟨c, hheld, hput⟩ := y.evaluate_puts h k { cl with held := true } 1 own
  rw [← hx] at hput
  have hcall : t.call? h k = x.call? h k := call_of_calls x h (by rw [hrun, shl_modShl]) k
  have hget (g : Fld) : t.get (ctl .shl h) g = x.get (ctl .shl h) g := by rw [hrun, get_modShl]
  have hyd : y.get (ctl .shl h) HDR.ERR_DETAIL = k := by
    rw [hy, get_err_detail _ _ _ (by cases h <;> decide)]
    exact Nat.mod_eq_of_lt (by omega)
  have hys : bitN (y.get (ctl .shl h) HDR.STAT_BLOCK) 4 = 1 := by
    rw [hy, get_err_apart _ _ _ (by decide) (by decide) (by decide) (by decide)]
    exact bitN_stat _ _ (by decide)
  have hxr : x.get (ctl .shl h) HDR.ERR_DETAIL = k ∧ bitN (x.get (ctl .shl h) HDR.STAT_BLOCK) 4 = 1 := by
    rcases y.evaluate_regs h k { cl with held := true } 1 own with hregs | hregs
    · rw [hx, get_congr hregs, get_congr hregs, get_evalTime _ _ (by decide) (by decide) (by decide) (by decide),
        get_evalTime _ _ (by decide) (by decide) (by decide) (by decide)]
      exact ⟨hyd, hys⟩
    · rw [hx, get_congr hregs, get_congr hregs, get_err_detail _ _ _ (by cases h <;> decide), get_err_apart _ _ _ (by decide) (by decide) (by decide) (by decide),
        get_evalTime _ _ (by decide) (by decide) (by decide) (by decide)]
      exact ⟨Nat.mod_eq_of_lt (by omega), hys⟩
  have hstep : ShlStep h d x := by
    rw [hx, hy]
    exact (((ShlStep.refl h d).stat 4).err _ _).evaluate _ _ _ _
  refine ⟨?_, ?_, by rw [hget]; exact hxr.1, by rw [hget]; exact hxr.2, by rw [hrun]; exact (keeps_modShl_iff ..).mpr hstep.keeps⟩
  · rw [hcall, hput.call, if_pos rfl]
    exact congrArg some hheld
  · have hplaced : t.placed h k = x.placed h k := by rw [Dev.placed, hcall, Dev.placed]
    rw [hplaced, hrun, shl_modShl, hput.report, shl_evalTime, hy, shl_err, shl_stat]

/-! ### Publication -/

/-- While the standby in STANDBY_SYNC cannot be reached, nothing is published. -/
theorem shlPublishGrp_waits (ha : d.active h = true) (hm : d.mirrors h.other = false) (hs : d.get (ctl .hlf h.other) HLF.STATE_OWN = 1) : d.shlPublishGrp h = d := by
  rw [shlPublishGrp, if_pos]
  simp [shlPublishes, ha, hm, hs]

theorem OnlyRegs.shl {d e : Dev} (hd : OnlyRegs d e) (h : HalfId) : e.shl h = d.shl h := by
  rw [hd]
  cases h <;> rfl

theorem showTables_shows : ∃ e, OnlyRegs d e ∧ d.showTables h =
    (e.put (ctl .shl h) SHL.CALLS_USED (d.shl h).calls.length).modShl h (fun x => { x with shown := x.calls.map Prod.fst }) := by
  unfold showTables
  extract_lets p x d1 d2 d3
  have h1 : OnlyRegs d d1 := OnlyRegs.foldl _ _ fun d k _ => OnlyRegs.foldl _ _ fun d i _ => (OnlyRegs.refl d).put _ _ _ _ _
  have h2 : OnlyRegs d d2 := h1.trans (OnlyRegs.foldl _ _ fun d k _ => OnlyRegs.foldl _ _ fun d i _ => (OnlyRegs.refl d).put _ _ _ _ _)
  refine ⟨d3, h2.trans (OnlyRegs.foldl _ _ fun d c _ => ?_), rfl⟩
  extract_lets seq old e1 e2
  have g1 : OnlyRegs d e1 := OnlyRegs.foldl _ _ fun d i _ => ((OnlyRegs.refl d).put _ _ _ _ _).put _ _ _ _ _
  have g2 : OnlyRegs d e2 := g1.trans (OnlyRegs.foldl _ _ fun d i _ => ((OnlyRegs.refl d).put _ _ _ _ _).put _ _ _ _ _)
  exact g2.put _ _ _ _ _

theorem mram_modShl (f : Shl → Shl) : (d.modShl h f).mram = d.mram := by cases h <;> rfl

theorem mram_dropCall (k : Nat) : (d.dropCall h k).mram = d.mram := mram_modShl ..

theorem mram_postOne (r : ShlRes) : (d.postOne h r).mram = d.mram := by
  unfold postOne
  extract_lets p hd n a cl d1 d2
  have h1 : d1.mram = d.mram := by
    show (if _ then _ else _ : Dev).mram = _
    split
    · exact mram_modShl ..
    · split
      · rfl
      · exact (mram_sramPut ..).trans ((mram_sramPut ..).trans ((mram_sramPut ..).trans (mram_sramPut ..)))
  have h2 : d2.mram = d.mram := (mram_dropCall ..).trans h1
  clear_value d2 d1 cl
  split
  · split
    · split
      · exact (mram_modShl ..).trans h2
      · exact h2
    · dsimp only
      split
      · exact (mram_dropCall ..).trans h1
      · exact h1
  · exact h1

theorem mram_foldl {α : Type} {f : Dev → α → Dev} (hf : ∀ d x, (f d x).mram = d.mram) : ∀ (l : List α) (d : Dev), (l.foldl f d).mram = d.mram
  | [], _ => rfl
  | x :: l, d => (mram_foldl hf l (f d x)).trans (hf d x)

/-- The decisions of a half are shown. -/
structure Published (h : HalfId) (d e : Dev) : Prop where
  mram : e.mram = d.mram
  decided : (e.shl h).decided = false
  used : e.get (ctl .shl h) SHL.CALLS_USED = (e.shl h).calls.length % 2 ^ 13
  stat : (d.shl h).decided = true → bitN (e.get (ctl .shl h) HDR.STAT_BLOCK) 0 = 1

theorem shlPublishOne_shows (q : List ShlRes × List ShlRes) (he : d.enabled (ctl .shl h) = true) : Published h d (d.shlPublishOne h q) := by
  rw [shlPublishOne, if_neg (by simp [he])]
  extract_lets was d1 d2 d3 d4
  have h1 : d1.mram = d.mram := (mram_modShl ..).trans (mram_modShl ..)
  have h2 : d2.mram = d.mram := (mram_modShl ..).trans ((mram_foldl (fun d r => d.mram_postOne h r) ..).trans h1)
  have h3 : d3.mram = d.mram := by
    show (if _ then _ else _ : Dev).mram = _
    split
    · exact h2
    · exact h2
  obtain ⟨e, hregs, hshow⟩ := d3.showTables_shows h
  have hd4 : d4 = ((e.put (ctl .shl h) SHL.CALLS_USED (d3.shl h).calls.length).modShl h (fun x => { x with shown := x.calls.map Prod.fst })).modShl h
      (fun x => { x with decided := false }) := by rw [← hshow]
  have h4 : d4.mram = d.mram := by
    rw [hd4, mram_modShl, mram_modShl, ← h3, hregs]
    rfl
  have hdec : (d4.shl h).decided = false := by rw [hd4, shl_modShl]
  have hused : d4.get (ctl .shl h) SHL.CALLS_USED = (d4.shl h).calls.length % 2 ^ 13 := by
    rw [hd4, get_modShl, get_modShl, shl_modShl, shl_modShl, shl_put, hregs.shl]
    exact get_put_same _ _ _ _ _ _ (by decide)
  split
  case isTrue => exact ⟨h4, by rwa [shl_stat], by rwa [shl_stat, get_stat_apart _ _ (by decide) (by decide) (by decide) (by decide)], fun _ => bitN_stat _ _ (by decide)⟩
  case isFalse hwas => exact ⟨h4, hdec, hused, fun hw => absurd hw hwas⟩

/-- Nothing of what is published changes. -/
structure ShownStep (h : HalfId) (d e : Dev) : Prop where
  mram : e.mram = d.mram
  calls : (e.shl h).calls = (d.shl h).calls
  decided : (e.shl h).decided = (d.shl h).decided
  get : ∀ f : Fld, f.fits = true → 0 < f.cnt → e.get (ctl .shl h) f = d.get (ctl .shl h) f

namespace ShownStep

variable {h : HalfId} {d e x : Dev}

theorem refl (h : HalfId) (d : Dev) : ShownStep h d d := ⟨rfl, rfl, rfl, fun _ _ _ => rfl⟩

theorem trans (s : ShownStep h d e) (t : ShownStep h e x) : ShownStep h d x :=
  ⟨t.mram.trans s.mram, t.calls.trans s.calls, t.decided.trans s.decided, fun f hf hc => (t.get f hf hc).trans (s.get f hf hc)⟩

theorem ite {c : Prop} [Decidable c] (s : ShownStep h d e) (t : ShownStep h d x) : ShownStep h d (if c then e else x) := by
  split
  · exact s
  · exact t

theorem modGlk (s : ShownStep h d e) (f : Glk → Glk) : ShownStep h d (e.modGlk f) := by
  cases h <;> exact ⟨s.mram, s.calls, s.decided, s.get⟩

theorem modShl (s : ShownStep h d e) (q : HalfId) (f : Shl → Shl) (hc : ∀ x, (f x).calls = x.calls) (hd : ∀ x, (f x).decided = x.decided) : ShownStep h d (e.modShl q f) := by
  have hshl : (e.modShl q f).shl h = if h = q then f (e.shl h) else e.shl h := by cases h <;> cases q <;> rfl
  refine s.trans ⟨mram_modShl .., ?_, ?_, fun _ _ _ => get_modShl ..⟩ <;> rw [hshl] <;> split
  · exact hc _
  · rfl
  · exact hd _
  · rfl

theorem put (s : ShownStep h d e) (f : Fld) (v : Nat) (hf : f.fits = true) (hc : 0 < f.cnt) : ShownStep h d (e.put (shp .glk) f v) :=
  s.trans ⟨rfl, by rw [shl_put], by rw [shl_put], fun g hg hgc => get_put_other _ _ (by cases h <;> decide) hf hg hc hgc (by decide) (by decide)⟩

theorem err (s : ShownStep h d e) (c x : Nat) : ShownStep h d (e.err (shp .glk) c x) :=
  ((s.put _ _ (by decide) (by decide)).put _ _ (by decide) (by decide)).put _ _ (by decide) (by decide)

theorem glkPort (s : ShownStep h d e) (f : GFrame) : ShownStep h d (e.glkPort f) :=
  s.ite (ShownStep.ite ((s.put _ _ (by decide) (by decide)).err _ _) (s.modGlk _))

theorem glkSend (s : ShownStep h d e) (typ len : Nat) (msg : Option GMsg) (nums : List Nat) (leave : Bool) : ShownStep h d (e.glkSend typ len msg nums leave) :=
  s.ite (((s.modGlk _).glkPort _).glkPort _)

theorem published {c : Dev} (s : ShownStep h d e) (hp : Published h c d) : Published h c e :=
  ⟨s.mram.trans hp.mram, s.decided.trans hp.decided, by rw [s.get _ (by decide) (by decide), s.calls]; exact hp.used,
    fun hw => by rw [s.get _ (by decide) (by decide)]; exact hp.stat hw⟩

end ShownStep

theorem shlPublishGrp_shows (he : d.enabled (ctl .shl h) = true) (hm : d.mirrors h.other = false)
    (ha : d.active h = false ∨ d.get (ctl .hlf h.other) HLF.STATE_OWN ≠ 1) : Published h d (d.shlPublishGrp h) := by
  have hone : Published h d (d.shlPublish h) := by
    have hrun : d.shlPublish h = d.shlPublishOne h (d.shlRoom h) := by
      rw [shlPublish, if_neg (by simp [hm]), if_neg (by rcases ha with ha | ha <;> simp [ha])]
    rw [hrun]
    exact d.shlPublishOne_shows h _ he
  have hpub : d.shlPublishes h = true := by rcases ha with ha | ha <;> simp [shlPublishes, he, ha]
  rw [shlPublishGrp, if_neg (by simp [hpub])]
  extract_lets d1 x dec touched before after clear seqs on_ calls gone changed ds stops d2 d3
  have hclear {e : Dev} (s : ShownStep h d1 e) : ShownStep h d1 (clear e) :=
    (s.modShl .a (fun x => { x with dec := [], touched := [], lastCalls := after }) (fun _ => rfl) fun _ => rfl).modShl .b
      (fun x => { x with dec := [], touched := [], lastCalls := after }) (fun _ => rfl) fun _ => rfl
  have h0 := ShownStep.refl h d1
  have h2 : ShownStep h d1 d2 := h0.ite (h0.glkSend _ _ _ _ _)
  have h3 : ShownStep h d1 d3 := h2.ite (h2.glkSend _ _ _ _ _)
  exact ((hclear h0).ite (hclear h3)).published hone

end

end Dev

/-- Settles O33, a clause per operation. -/
theorem shoalKeepsItsTables : Obligations.ShoalKeepsItsTables := by
  intro s h hout
  refine ⟨fun v => ⟨fun hv => ?_, fun hv hh => ?_⟩, fun car r hr hf => ?_, fun he ha hp hs hm => ?_, fun car r he ha hp hm hr h2 => ?_,
    fun slot cl he hm hc h1 hr => ?_, fun ha hm hs => ?_, fun he hm ha => ?_⟩
  · exact ⟨_, onDev_out (fun d => d.resTailWrite h v.toNat) hout, rfl, s.dev.resTailWrite_ignored h hv⟩
  · exact ⟨_, onDev_out (fun d => d.resTailWrite h v.toNat) hout, rfl, s.dev.resTailWrite_taken h v.isLt hv hh⟩
  · exact ⟨_, onDev_out (fun d => d.recordStale h car.toNat) hout, rfl, s.dev.recordStale_shows h hr hf⟩
  · exact ⟨_, onDev_out (fun d => d.sweep h) hout, rfl, s.dev.sweep_shows h he ha hp hs hm⟩
  · exact ⟨_, onDev_out (fun d => d.reassignOut h car.toNat) hout, rfl, s.dev.reassignOut_shows h he ha hp hm hr h2⟩
  · exact ⟨_, onDev_out (fun d => d.fwdTimeout h slot.toNat) hout, rfl, s.dev.fwdTimeout_shows h slot.isLt he hm hc h1 hr rfl⟩
  · exact (onDev_out (fun d => (d.glkBegin).shlPublishGrp h) hout).trans (congrArg (fun d => Host.Outcome.next { s with dev := d })
      (s.dev.glkBegin.shlPublishGrp_waits h ha hm hs))
  · have hp := s.dev.glkBegin.shlPublishGrp_shows h he hm ha
    exact ⟨_, onDev_out (fun d => (d.glkBegin).shlPublishGrp h) hout, rfl, hp.decided, hp.used, hp.mram, fun hw => hp.stat (by cases h <;> exact hw)⟩

end Sys2Proof.Machine
end

section
/-! PROOFS. Encoder edges, source-P frames, the fusion of a period and the SERVO event (O17). -/
namespace Sys2Proof.Machine

open Sys2Proof

namespace Dev

/-- A register of a page behind another has its word behind every word written there, whatever entry is read. -/
theorem get_put_before (d : Dev) {p q : Nat} {f g : Fld} (v : Nat) {i j t u : Nat} (h : p < q) (hf : f.fits = true) (hi : i < f.cnt) (ht : t < 65536) :
    (d.put p f v i t).get q g j u = d.get q g j u := by
  refine get_put_ne _ _ _ _ _ _ _ _ _ _ fun he => ?_
  obtain ⟨h1, h2, h3⟩ := inside_of_fits hf hi ht
  rw [fkey_eq, fkey_eq] at he
  omega

/-! ### What an operation on one car leaves of another -/

/-- What the fusion of a car goes by, and shows. -/
def carView : List Fld := [POS.CAR_CFG_EN, POS.CAR_CFG_ENC_USE, POS.CAR_STAT_STATE, POS.CAR_STAT_ENC_LOST, POS.CAR_X_UM]

/-- The bounds of the shaft. -/
def shaftView : List Fld := [POS.SHAFT_LO_UM, POS.SHAFT_HI_UM]

theorem carView_fits {f : Fld} (hf : f ∈ carView) : f.fits = true ∧ f.cnt = 4 ∧ f.stride = 64 ∧ f.off + 256 ≤ 0x440 ∧ f.lo < 32 := by fin_cases hf <;> decide

theorem shaftView_fits {f : Fld} (hf : f ∈ shaftView) : f.fits = true ∧ f.cnt = 1 ∧ f.off < 0x440 ∧ f.lo < 32 := by fin_cases hf <;> decide

/-- An operation that leaves the position of car `n` and its copy for the safety pair as they were. -/
structure OffCar (h : HalfId) (n : Nat) (d e : Dev) : Prop where
  get : ∀ f ∈ carView, e.get (ctl .pos h) f n = d.get (ctl .pos h) f n
  shaft : ∀ f ∈ shaftView, e.get (ctl .pos h) f = d.get (ctl .pos h) f
  car : e.posCar h n = d.posCar h n
  cars : (e.half h).pos.cars.length = (d.half h).pos.cars.length
  copies : e.pCopy.length = d.pCopy.length
  copy : e.pCopy.getD (h.n * 4 + n) ⟨0, 0, 0, 0⟩ = d.pCopy.getD (h.n * 4 + n) ⟨0, 0, 0, 0⟩

namespace OffCar

variable {h : HalfId} {n m : Nat} {d e x : Dev}

theorem refl (h : HalfId) (n : Nat) (d : Dev) : OffCar h n d d := ⟨fun _ _ => rfl, fun _ _ => rfl, rfl, rfl, rfl, rfl⟩

theorem trans (s : OffCar h n d e) (t : OffCar h n e x) : OffCar h n d x :=
  ⟨fun f hf => (t.get f hf).trans (s.get f hf), fun f hf => (t.shaft f hf).trans (s.shaft f hf), t.car.trans s.car, t.cars.trans s.cars,
    t.copies.trans s.copies, t.copy.trans s.copy⟩

theorem ite {c : Prop} [Decidable c] (s : c → OffCar h n d e) (t : ¬ c → OffCar h n d x) : OffCar h n d (if c then e else x) := by
  split
  case isTrue hc => exact s hc
  case isFalse hc => exact t hc

theorem foldl {α : Type} {f : Dev → α → Dev} : ∀ (l : List α) (d : Dev), (∀ d, ∀ y ∈ l, OffCar h n d (f d y)) → OffCar h n d (l.foldl f d)
  | [], d, _ => refl h n d
  | y :: l, d, hf => (hf d y List.mem_cons_self).trans (foldl l _ fun d z hz => hf d z (List.mem_cons_of_mem _ hz))

theorem of_regs (s : OffCar h n d e) (hr : ∀ f ∈ carView, x.get (ctl .pos h) f n = e.get (ctl .pos h) f n) (hs : ∀ f ∈ shaftView, x.get (ctl .pos h) f = e.get (ctl .pos h) f)
    (hh : x.half h = e.half h) (hc : x.pCopy = e.pCopy) : OffCar h n d x :=
  s.trans ⟨hr, hs, by rw [posCar, hh, posCar], by rw [hh], by rw [hc], by rw [hc]⟩

/-- A register of another word of the page. -/
theorem put (s : OffCar h n d e) (hn : n < 4) {g : Fld} (v : Nat) {i t : Nat} (hg : g.fits = true) (hi : i < g.cnt) (ht : t < 65536)
    (hc : ∀ f ∈ carView, g.apart f = true) (hs : ∀ f ∈ shaftView, g.apart f = true) : OffCar h n d (e.put (ctl .pos h) g v i t) := by
  refine s.of_regs (fun f hf => ?_) (fun f hf => ?_) (half_put ..) rfl
  · obtain ⟨hfit, hcnt, -⟩ := carView_fits hf
    exact get_put_apart _ _ (hc f hf) hg hfit hi (by omega) ht (by decide)
  · obtain ⟨hfit, hcnt, -⟩ := shaftView_fits hf
    exact get_put_apart _ _ (hs f hf) hg hfit hi (by omega) ht (by decide)

/-- The same register of another car. -/
theorem putCar (s : OffCar h n d e) (hn : n < 4) (hm : m < 4) (hmn : m ≠ n) {g : Fld} (v : Nat) (hg : g ∈ carView) : OffCar h n d (e.put (ctl .pos h) g v m) := by
  obtain ⟨hgfit, hgcnt, hgs, -⟩ := carView_fits hg
  refine s.of_regs (fun f hf => ?_) (fun f hf => ?_) (half_put ..) rfl
  · obtain ⟨hfit, hcnt, -⟩ := carView_fits hf
    by_cases hfg : g = f
    · rw [hfg]
      exact get_put_idx _ _ (by rw [← hfg]; omega) (by decide) (by decide) hmn
    · exact get_put_apart _ _ (by revert hfg; fin_cases hg <;> fin_cases hf <;> decide) hgfit hfit (by omega) (by omega) (by decide) (by decide)
  · obtain ⟨hfit, hcnt, -⟩ := shaftView_fits hf
    exact get_put_apart _ _ (by fin_cases hg <;> fin_cases hf <;> decide) hgfit hfit (by omega) (by omega) (by decide) (by decide)

/-- A word behind those of the cars, whatever entry of its table is written. -/
theorem putBehind (s : OffCar h n d e) (hn : n < 4) {g : Fld} (v t : Nat) (hg : 0x440 ≤ g.off) : OffCar h n d (e.put (ctl .pos h) g v 0 t) := by
  refine s.of_regs (fun f hf => ?_) (fun f hf => ?_) (half_put ..) rfl
  · obtain ⟨-, -, hst, hoff, hlo⟩ := carView_fits hf
    refine get_put_ne _ _ _ _ _ _ _ _ _ _ fun he => ?_
    rw [fkey_eq, fkey_eq, hst] at he
    omega
  · obtain ⟨-, -, hoff, hlo⟩ := shaftView_fits hf
    refine get_put_ne _ _ _ _ _ _ _ _ _ _ fun he => ?_
    rw [fkey_eq, fkey_eq] at he
    omega

theorem err (s : OffCar h n d e) (hn : n < 4) (c y : Nat) : OffCar h n d (e.err (ctl .pos h) c y) :=
  ((s.put hn _ (by decide) (by decide) (by decide) (by decide) (by decide)).put hn _ (by decide) (by decide) (by decide) (by decide) (by decide)).put hn _
    (by decide) (by decide) (by decide) (by decide) (by decide)

theorem stat (s : OffCar h n d e) (hn : n < 4) (k : Nat) : OffCar h n d (e.stat (ctl .pos h) k) :=
  s.put hn _ (by decide) (by decide) (by decide) (by decide) (by decide)

theorem note (s : OffCar h n d e) (hn : n < 4) (p cls code y : Nat) (ws : List Nat) : OffCar h n d (e.note p cls code y ws) := by
  refine s.of_regs (fun f hf => ?_) (fun f hf => ?_) (half_note ..) ?_
  · obtain ⟨hfit, hcnt, -⟩ := carView_fits hf
    exact get_note_other _ _ _ _ _ (ctlPos_ne_slt h) hfit (by omega) (by decide)
  · obtain ⟨hfit, hcnt, -⟩ := shaftView_fits hf
    exact get_note_other _ _ _ _ _ (ctlPos_ne_slt h) hfit (by omega) (by decide)
  · exact post_pCopy ..

theorem modHalf (s : OffCar h n d e) {f : Half → Half} (hf : ∀ y, (f y).pos.cars = y.pos.cars) : OffCar h n d (e.modHalf h f) :=
  s.trans ⟨fun _ _ => get_modHalf .., fun _ _ => get_modHalf .., by rw [posCar, half_modHalf_same, hf, posCar], by rw [half_modHalf_same, hf], by cases h <;> rfl, by cases h <;> rfl⟩

theorem modPosCar (s : OffCar h n d e) (hmn : m ≠ n) (f : PosCar → PosCar) : OffCar h n d (e.modPosCar h m f) := by
  refine s.trans ⟨fun _ _ => get_modPosCar .., fun _ _ => get_modPosCar .., ?_, ?_, by cases h <;> rfl, by cases h <;> rfl⟩
  · rw [posCar, Dev.modPosCar, half_modHalf_same, posCar]
    exact getD_lmod_ne _ _ _ (Ne.symm hmn)
  · rw [Dev.modPosCar, half_modHalf_same]
    exact length_lmod ..

theorem modCopy (s : OffCar h n d e) (hmn : m ≠ n) (f : PosCopy → PosCopy) : OffCar h n d (e.modCopy h m f) :=
  s.trans ⟨fun _ _ => rfl, fun _ _ => rfl, by cases h <;> rfl, by cases h <;> rfl, length_lmod .., getD_lmod_ne _ _ _ (by omega)⟩

end OffCar

/-- A loop over units that reaches unit `a` with `P`, which makes `Q` of it, and keeps that. -/
theorem foldl_hit {α β : Type} {f : β → α → β} {P Q : β → Prop} {a : α} : ∀ (l : List α) (b : β), (∀ b, ∀ x ∈ l, x ≠ a → P b → P (f b x)) → (∀ b, P b → Q (f b a)) →
    (∀ b, ∀ x ∈ l, x ≠ a → Q b → Q (f b x)) → a ∈ l → l.Nodup → P b → Q (l.foldl f b)
  | x :: l, b, hP, hgo, hQ, ha, hd, hb => by
    obtain ⟨hx, hd⟩ := List.nodup_cons.mp hd
    by_cases hxa : x = a
    · subst hxa
      exact foldl_keep l _ (fun b y hy => hQ b y (List.mem_cons_of_mem _ hy) fun e => hx (e ▸ hy)) (hgo b hb)
    · exact foldl_hit l _ (fun b y hy => hP b y (List.mem_cons_of_mem _ hy)) hgo (fun b y hy => hQ b y (List.mem_cons_of_mem _ hy))
        ((List.mem_cons.mp ha).resolve_left fun e => hxa e.symm) hd (hP b x List.mem_cons_self hxa hb)

/-! ### One car -/

section
variable {h : HalfId} {n m : Nat} {d e : Dev} (hn : n < 4) (hm : m < 4) (hmn : m ≠ n)
include hn hm hmn

theorem OffCar.setPosState (s : OffCar h n d e) (st : Nat) : OffCar h n d (e.setPosState h m st) := by
  unfold Dev.setPosState
  extract_lets p old d1 d2 d3 d4
  refine OffCar.ite (fun _ => s) fun _ => ?_
  have h1 : OffCar h n d d1 := ((s.putCar hn hm hmn _ (by decide)).stat hn _).note hn _ _ _ _ _
  have h2 : OffCar h n d d2 := OffCar.ite (fun _ => (h1.stat hn _).modHalf fun _ => rfl) fun _ => h1
  have h3 : OffCar h n d d3 := OffCar.ite (fun _ => h2.modHalf fun _ => rfl) fun _ => h2
  have h4 : OffCar h n d d4 := OffCar.ite (fun _ => h3.modPosCar hmn _) fun _ => h3
  exact h4.modCopy hmn _

omit hmn in
/-- A register of a car that no other car's fusion goes by. -/
theorem OffCar.putOwn (s : OffCar h n d e) {g : Fld} (v : Nat) (hg : g.fits = true) (hc : g.cnt = 4) (ha : ∀ f ∈ carView, g.apart f = true)
    (hs : ∀ f ∈ shaftView, g.apart f = true) : OffCar h n d (e.put (ctl .pos h) g v m) := s.put hn v hg (by omega) (by decide) ha hs

omit hmn in
theorem OffCar.badFrame (s : OffCar h n d e) (code : Nat) : OffCar h n d (e.badFrame h m code) :=
  ((s.err hn _ _).putOwn hn hm _ (by decide) (by decide) (by decide) (by decide)).stat hn _

omit hmn in
theorem OffCar.posFlags (s : OffCar h n d e) : OffCar h n d (e.posFlags h m) := by
  have put {e : Dev} (s : OffCar h n d e) {g : Fld} (v : Nat) (hg : g ∈ [POS.CAR_STAT_LANDING, POS.CAR_STAT_IN_DZ, POS.CAR_STAT_LEVEL, POS.CAR_STAT_UPPER, POS.CAR_STAT_UPPER_DZ]) :
      OffCar h n d (e.put (ctl .pos h) g v m) := by
    have hall : g.fits = true ∧ g.cnt = 4 ∧ (∀ f ∈ carView, g.apart f = true) ∧ ∀ f ∈ shaftView, g.apart f = true := by fin_cases hg <;> decide
    exact s.putOwn hn hm v hall.1 hall.2.1 hall.2.2.1 hall.2.2.2
  unfold Dev.posFlags
  extract_lets p x l d1 xu u
  have h1 : OffCar h n d d1 := put (put (put s _ (by simp)) _ (by simp)) _ (by simp)
  exact OffCar.ite (fun _ => put (put h1 _ (by simp)) _ (by simp)) fun _ => put (put h1 _ (by simp)) _ (by simp)

theorem OffCar.publishPos (s : OffCar h n d e) (x v : Int) : OffCar h n d (e.publishPos h m x v) :=
  ((s.putCar hn hm hmn _ (by decide)).putOwn hn hm _ (by decide) (by decide) (by decide) (by decide)).modPosCar hmn _

theorem OffCar.slipCheck (s : OffCar h n d e) : OffCar h n d (e.slipCheck h m) :=
  OffCar.ite (fun _ => ((s.err hn _ _).note hn _ _ _ _ _).setPosState hn hm hmn _) fun _ => s

theorem OffCar.coastCheck (s : OffCar h n d e) : OffCar h n d (e.coastCheck h m) := OffCar.ite (fun _ => s.setPosState hn hm hmn _) fun _ => s

theorem OffCar.validBad (s : OffCar h n d e) : OffCar h n d (e.validBad h m) :=
  OffCar.ite (fun _ => OffCar.ite (fun _ => s.setPosState hn hm hmn _) fun _ => s.setPosState hn hm hmn _) fun _ => s

theorem OffCar.fuseInit (s : OffCar h n d e) : OffCar h n d (e.fuseInit h m) := by
  unfold Dev.fuseInit
  extract_lets p c
  split
  · extract_lets run v d1
    have h1 : OffCar h n d d1 := (s.publishPos hn hm hmn _ _).modPosCar hmn _
    exact OffCar.ite (fun _ => h1.setPosState hn hm hmn _) fun _ => h1
  · exact (s.publishPos hn hm hmn _ _).modPosCar hmn _

theorem OffCar.fuseRun (s : OffCar h n d e) : OffCar h n d (e.fuseRun h m) := by
  have put {e : Dev} (s : OffCar h n d e) {g : Fld} (v : Nat) (hg : g ∈ [POS.CAR_STAT_BAD, POS.CAR_RESID_UM]) : OffCar h n d (e.put (ctl .pos h) g v m) := by
    have hall : g.fits = true ∧ g.cnt = 4 ∧ (∀ f ∈ carView, g.apart f = true) ∧ ∀ f ∈ shaftView, g.apart f = true := by fin_cases hg <;> decide
    exact s.putOwn hn hm v hall.1 hall.2.1 hall.2.2.1 hall.2.2.2
  unfold Dev.fuseRun
  extract_lets p c st pred eu
  split
  · extract_lets r x d1 v exceeds d2 d3 d4
    refine OffCar.ite (fun _ => ?_) fun _ => ?_
    · exact ((((put s _ (by simp)).badFrame hn hm _).publishPos hn hm hmn _ _).validBad hn hm hmn).coastCheck hn hm hmn
    · have h2 : OffCar h n d d2 := (put s _ (by simp)).publishPos hn hm hmn _ _
      have h3 : OffCar h n d d3 := h2.modPosCar hmn _
      have h4 : OffCar h n d d4 := OffCar.ite (fun _ => h3.setPosState hn hm hmn _) fun _ => h3
      exact h4.slipCheck hn hm hmn
  · exact ((s.publishPos hn hm hmn _ _).validBad hn hm hmn).coastCheck hn hm hmn

end

/-- The fusion of one car. -/
def fuseCar (h : HalfId) (d : Dev) (n : Nat) : Dev :=
  if d.carEn h n then
    let d := if d.posState h n == 1 then d.fuseInit h n else if d.posState h n == 0 then d else d.fuseRun h n
    (d.posFlags h n).copyToPair h n
  else d

theorem OffCar.fuseCar {h : HalfId} {n m : Nat} {d e : Dev} (hn : n < 4) (hm : m < 4) (hmn : m ≠ n) (s : OffCar h n d e) : OffCar h n d (Dev.fuseCar h e m) := by
  unfold Dev.fuseCar
  refine OffCar.ite (fun _ => ?_) fun _ => s
  extract_lets d1
  have h1 : OffCar h n d d1 := OffCar.ite (fun _ => s.fuseInit hn hm hmn) fun _ => OffCar.ite (fun _ => s) fun _ => s.fuseRun hn hm hmn
  exact (h1.posFlags hn hm).modCopy hmn _

/-- What the fusion of a VALID car without an encoder goes by: the position of its frame lies in the shaft. -/
structure Fusible (h : HalfId) (n : Nat) (x : Int) (d : Dev) : Prop where
  en : d.carEn h n = true
  valid : d.posState h n = 2
  free : d.encUsed h n = false
  frame : ∃ b, (d.posCar h n).frame = some ⟨true, x, b⟩
  inside : d.outside h x = false
  cars : (d.half h).pos.cars.length = 4
  copies : d.pCopy.length = 8

theorem Fusible.off {h : HalfId} {n : Nat} {x : Int} {d e : Dev} (hd : Fusible h n x d) (s : OffCar h n d e) : Fusible h n x e := by
  have hon {f : Fld} (hf : f ∈ carView) : e.on (ctl .pos h) f n = d.on (ctl .pos h) f n := by rw [on, s.get f hf, on]
  obtain ⟨b, hb⟩ := hd.frame
  refine ⟨(hon (by decide)).trans hd.en, (s.get _ (by decide)).trans hd.valid, ?_, ⟨b, by rw [s.car, hb]⟩, ?_, s.cars.trans hd.cars, s.copies.trans hd.copies⟩
  · rw [encUsed, hon (by decide), hon (by decide)]
    exact hd.free
  · rw [outside, geti, geti, s.shaft _ (by decide), s.shaft _ (by decide)]
    exact hd.inside

/-- The position of a car is published, and its copy agrees. -/
structure Fused (h : HalfId) (n : Nat) (x : Int) (d : Dev) : Prop where
  pos : d.get (ctl .pos h) POS.CAR_X_UM n = encS 32 (asr x 8) % 2 ^ 32
  copy : (d.pCopy.getD (h.n * 4 + n) ⟨0, 0, 0, 0⟩).x = sgn 32 (encS 32 (asr x 8) % 2 ^ 32)

theorem Fused.off {h : HalfId} {n : Nat} {x : Int} {d e : Dev} (hd : Fused h n x d) (s : OffCar h n d e) : Fused h n x e :=
  ⟨(s.get _ (by decide)).trans hd.pos, by rw [s.copy]; exact hd.copy⟩

theorem fuseRun_shows {d : Dev} {h : HalfId} {n : Nat} {x : Int} (hn : n < 4) (hd : Fusible h n x d) :
    (d.fuseRun h n).get (ctl .pos h) POS.CAR_X_UM n = encS 32 (asr x 8) % 2 ^ 32 ∧ (d.fuseRun h n).pCopy = d.pCopy := by
  obtain ⟨b, hb⟩ := hd.frame
  obtain ⟨r, hr⟩ : ∃ r, r = asr (x - ((d.posCar h n).x + (d.posStep h n).1)) 8 := ⟨_, rfl⟩
  obtain ⟨v, hv⟩ : ∃ v, v = d.histSpeed h n x := ⟨_, rfl⟩
  obtain ⟨y, hy⟩ : ∃ y, y = ((d.puti (ctl .pos h) POS.CAR_RESID_UM r n).publishPos h n x v).modPosCar h n (fun k => { k with slipRun := 0, lastP := x }) := ⟨_, rfl⟩
  have hst : y.posState h n = 2 := by
    rw [hy, posState, get_modPosCar, publishPos, get_modPosCar]
    iterate 3 rw [puti, get_put_apart _ _ (by decide) (by decide) (by decide) hn hn (by decide) (by decide)]
    exact hd.valid
  have hslip : (y.posCar h n).slipRun = 0 := by
    have hlen : n < ((((d.puti (ctl .pos h) POS.CAR_RESID_UM r n).publishPos h n x v)).half h).pos.cars.length := by
      rw [publishPos, modPosCar, half_modHalf_same]
      simp only [length_lmod, puti, half_put, hd.cars, hn]
    rw [hy, posCar, modPosCar, half_modHalf_same]
    dsimp only
    rw [getD_lmod_same _ _ hlen]
  have hcheck : y.slipCheck h n = y := by
    rw [slipCheck, hslip]
    exact if_neg (by simp)
  have hrun : d.fuseRun h n = y := by
    unfold fuseRun
    simp only [hb, hd.free, hd.inside, Bool.false_eq_true, if_false, Bool.false_and, ← hr, ← hv, ← hy, hst]
    exact hcheck
  rw [hrun]
  refine ⟨?_, by rw [hy]; cases h <;> rfl⟩
  rw [hy, get_modPosCar, publishPos, get_modPosCar, puti, get_put_apart _ _ (by decide) (by decide) (by decide) hn hn (by decide) (by decide), puti,
    get_put_same _ _ _ _ _ _ (by decide)]
  rfl

theorem get_posFlags (d : Dev) {h : HalfId} {n : Nat} (hn : n < 4) : (d.posFlags h n).get (ctl .pos h) POS.CAR_X_UM n = d.get (ctl .pos h) POS.CAR_X_UM n := by
  have put (d : Dev) {g : Fld} (v : Nat) (hg : g ∈ [POS.CAR_STAT_LANDING, POS.CAR_STAT_IN_DZ, POS.CAR_STAT_LEVEL, POS.CAR_STAT_UPPER, POS.CAR_STAT_UPPER_DZ]) :
      (d.put (ctl .pos h) g v n).get (ctl .pos h) POS.CAR_X_UM n = d.get (ctl .pos h) POS.CAR_X_UM n := by
    have hall : g.apart POS.CAR_X_UM = true ∧ g.fits = true ∧ g.cnt = 4 := by fin_cases hg <;> decide
    exact get_put_apart _ _ hall.1 hall.2.1 (by decide) (by omega) hn (by decide) (by decide)
  unfold posFlags
  extract_lets p x l d1 xu u
  have h1 : d1.get (ctl .pos h) POS.CAR_X_UM n = d.get (ctl .pos h) POS.CAR_X_UM n := (put _ _ (by simp)).trans ((put _ _ (by simp)).trans (put _ _ (by simp)))
  split
  · exact ((put _ _ (by simp)).trans (put _ _ (by simp))).trans h1
  · exact ((put _ _ (by simp)).trans (put _ _ (by simp))).trans h1

theorem pCopy_posFlags (d : Dev) (h : HalfId) (n : Nat) : (d.posFlags h n).pCopy = d.pCopy := by
  unfold posFlags
  extract_lets p x l d1 xu u
  split <;> rfl

theorem fused_fuseCar {d : Dev} {h : HalfId} {n : Nat} {x : Int} (hn : n < 4) (hd : Fusible h n x d) : Fused h n x (fuseCar h d n) := by
  obtain ⟨hx, hcopy⟩ := fuseRun_shows hn hd
  have hrun : fuseCar h d n = ((d.fuseRun h n).posFlags h n).copyToPair h n := by simp [fuseCar, hd.en, hd.valid]
  have hpos : ((d.fuseRun h n).posFlags h n).get (ctl .pos h) POS.CAR_X_UM n = encS 32 (asr x 8) % 2 ^ 32 := (get_posFlags _ hn).trans hx
  rw [hrun]
  refine ⟨hpos, ?_⟩
  have hlen : h.n * 4 + n < ((d.fuseRun h n).posFlags h n).pCopy.length := by
    rw [pCopy_posFlags, hcopy, hd.copies]
    cases h <;> simp only [HalfId.n] <;> omega
  rw [copyToPair, modCopy, getD_lmod_same _ _ hlen]
  exact congrArg (sgn 32) hpos

/-! ### What follows the fusion of the cars -/

section
variable {h : HalfId} {n : Nat} {d e : Dev} (hn : n < 4)
include hn

theorem OffCar.lrnEnd (s : OffCar h n d e) (res : Nat) : OffCar h n d (e.lrnEnd h res) :=
  OffCar.ite (fun _ => ((s.putBehind hn _ _ (by decide)).putBehind hn _ _ (by decide)).stat hn _) fun _ => s

theorem OffCar.lrnStore (s : OffCar h n d e) (v : EdgePend) : OffCar h n d (e.lrnStore h v) :=
  OffCar.ite (fun _ => s) fun _ => OffCar.ite
    (fun _ => OffCar.ite (fun _ => s.lrnEnd hn _) fun _ => (s.putBehind hn _ _ (by decide)).putBehind hn _ _ (by decide))
    fun _ => OffCar.ite (fun _ => s) fun _ => s.putBehind hn _ _ (by decide)

theorem OffCar.dzCheck (s : OffCar h n d e) (v : EdgePend) : OffCar h n d (e.dzCheck h v) := by
  unfold Dev.dzCheck
  exact OffCar.ite (fun _ => s) fun _ => OffCar.ite (fun _ => ((s.err hn _ _).note hn _ _ _ _ _).stat hn _) fun _ => s

theorem OffCar.vaneDo (s : OffCar h n d e) (v : EdgePend) : OffCar h n d (e.vaneDo h v) := OffCar.ite (fun _ => s.lrnStore hn v) fun _ => s.dzCheck hn v

theorem OffCar.vaneFlush (s : OffCar h n d e) : OffCar h n d (e.vaneFlush h) :=
  OffCar.trans (e := e.modHalf h fun x => { x with pos := { x.pos with edges := [] } }) (s.modHalf fun _ => rfl)
    (OffCar.foldl _ _ fun x v _ => (OffCar.refl h n x).vaneDo hn v)

theorem OffCar.lrnWatch (s : OffCar h n d e) : OffCar h n d (e.lrnWatch h) := by
  unfold Dev.lrnWatch
  exact OffCar.ite (fun _ => s) fun _ => OffCar.ite (fun _ => s.lrnEnd hn _) fun _ => OffCar.ite (fun _ => s.lrnEnd hn _) fun _ => s

end

theorem posFuse_run {d : Dev} {h : HalfId} (he : d.enabled (ctl .pos h) = true) :
    d.posFuse h = (((((List.range 4).foldl (fuseCar h) d).fillLatches h).vaneFlush h).lrnWatch h).modHalf h (fun x => { x with pos := { x.pos with fused := true } }) := by
  rw [posFuse, if_pos he]
  rfl

theorem posFuse_off {d : Dev} {h : HalfId} (he : d.enabled (ctl .pos h) = false) : d.posFuse h = d := by rw [posFuse, if_neg (by simp [he])]

theorem fused_posFuse {d : Dev} {h : HalfId} {n : Nat} {x : Int} (hn : n < 4) (he : d.enabled (ctl .pos h) = true) (hd : Fusible h n x d) :
    Fused h n x (d.posFuse h) := by
  have hcars : Fused h n x ((List.range 4).foldl (fuseCar h) d) := by
    refine foldl_hit (P := Fusible h n x) (Q := Fused h n x) (a := n) _ d (fun b m hm hmn hb => hb.off (.fuseCar hn (List.mem_range.mp hm) hmn (.refl ..)))
      (fun b hb => fused_fuseCar hn hb) (fun b m hm hmn hb => hb.off (.fuseCar hn (List.mem_range.mp hm) hmn (.refl ..))) (List.mem_range.mpr hn) List.nodup_range hd
  have htail : OffCar h n ((List.range 4).foldl (fuseCar h) d) (d.posFuse h) := by
    rw [posFuse_run he]
    have hfill (x : Dev) : OffCar h n x (x.fillLatches h) := by
      unfold fillLatches
      exact OffCar.modHalf (OffCar.refl h n x) fun _ => rfl
    exact OffCar.modHalf (((hfill _).vaneFlush hn).lrnWatch hn) fun _ => rfl
  exact hcars.off htail

/-! ### Source-P frames -/

/-- The registers that a frame is shown in. -/
def ssiShown : List Fld := errFields ++ [POS.CAR_RAW_FIELD, POS.CAR_STAT_BAD, HDR.STAT_BLOCK]

theorem ssiShown_fits {g : Fld} (hg : g ∈ ssiShown) : g.fits = true ∧ (g.cnt = 1 ∨ g.cnt = 4) := by fin_cases hg <;> decide

/-- An operation that shows itself in these registers of a car of a half, and changes no other state of the part than that of the cars. -/
structure SsiStep (h : HalfId) (d e : Dev) : Prop where
  keeps : d.keeps e [ctl .pos h]
  other : e.half h.other = d.half h.other
  behind : ∀ q f i t, ctl .pos h < q → e.get q f i t = d.get q f i t
  get : ∀ (q : Nat) (f : Fld) (i : Nat), (∀ g ∈ ssiShown, g.apart f = true) → f.fits = true → i < f.cnt → e.get q f i = d.get q f i

namespace SsiStep

variable {h : HalfId} {d e x : Dev}

theorem refl (h : HalfId) (d : Dev) : SsiStep h d d := ⟨keeps_refl d _, rfl, fun _ _ _ _ _ => rfl, fun _ _ _ _ _ _ => rfl⟩

theorem put (s : SsiStep h d e) {g : Fld} (hg : g ∈ ssiShown) (v : Nat) {i : Nat} (hi : i < g.cnt) : SsiStep h d (e.put (ctl .pos h) g v i) := by
  obtain ⟨hfit, -⟩ := ssiShown_fits hg
  refine ⟨(keeps_put_iff (by simp) hfit hi (by decide)).mpr s.keeps, (half_put ..).trans s.other, fun q f j t hq => ?_, fun q f j ha hf hj => ?_⟩
  · exact (get_put_before _ _ hq hfit hi (by decide)).trans (s.behind q f j t hq)
  · exact (get_put_field _ _ (ha g hg) hfit hf hi hj (by decide) (by decide)).trans (s.get q f j ha hf hj)

theorem modPosCar (s : SsiStep h d e) (n : Nat) (f : PosCar → PosCar) : SsiStep h d (e.modPosCar h n f) :=
  ⟨(keeps_modPosCar_iff ..).mpr s.keeps, (half_modHalf_other ..).trans s.other, fun q g i t hq => (get_modPosCar ..).trans (s.behind q g i t hq),
    fun q g i ha hf hi => (get_modPosCar ..).trans (s.get q g i ha hf hi)⟩

theorem badFrame (s : SsiStep h d e) {n : Nat} (hn : n < 4) (code : Nat) : SsiStep h d (e.badFrame h n code) :=
  ((((s.put (by decide) _ (by decide)).put (by decide) _ (by decide)).put (by decide) _ (by decide)).put (g := POS.CAR_STAT_BAD) (by decide) _ hn).put (by decide) _ (by decide)

end SsiStep

theorem find_lt {p : Nat → Bool} {k n : Nat} (hf : (List.range k).find? p = some n) : n < k := List.mem_range.mp (List.mem_of_find?_eq_some hf)

theorem ssiStep_takeSsi (d : Dev) (h : HalfId) (rx : Nat) (low : Bool) (bits : Nat) : SsiStep h d (d.takeSsi h rx low bits) := by
  unfold takeSsi
  extract_lets p c
  split
  case h_1 => exact SsiStep.refl h d
  case h_2 n hn =>
    have hn4 : n < 4 := find_lt hn
    split
    · extract_lets b d1
      have h1 : SsiStep h d d1 := (SsiStep.refl h d).put (g := POS.CAR_RAW_FIELD) (by decide) _ hn4
      split
      · exact (h1.badFrame hn4 _).modPosCar _ _
      · exact (h1.put (g := POS.CAR_STAT_BAD) (by decide) _ hn4).modPosCar _ _
    · exact SsiStep.refl h d

theorem takeSsi_none (d : Dev) {h : HalfId} {rx : Nat} (low : Bool) (bits : Nat) (hn : ∀ n : Fin 4, d.carEn h n = true → d.get (ctl .pos h) POS.CAR_CFG_SSI n ≠ rx) :
    d.takeSsi h rx low bits = d := by
  have hfind : (List.range 4).find? (fun n => d.carEn h n && d.get (ctl .pos h) POS.CAR_CFG_SSI n == rx) = none := by
    refine List.find?_eq_none.mpr fun n hm => ?_
    have hne := hn ⟨n, List.mem_range.mp hm⟩
    simpa using hne
  rw [takeSsi, hfind]

/-- What a frame shows of the car that takes it. -/
structure SsiShown (h : HalfId) (n rx : Nat) (low : Bool) (bits : Nat) (d e : Dev) : Prop where
  raw : e.get (ctl .pos h) POS.CAR_RAW_FIELD n = d.ssiCount rx bits % 2 ^ 32
  good : d.ssiBad h n rx low bits = none → e.get (ctl .pos h) POS.CAR_STAT_BAD n = 0 ∧
    (e.posCar h n).frame = some ⟨true, d.ssiPos h n rx (d.ssiCount rx bits), d.get (ctl .pos h) POS.CAR_STAT_BAD n⟩
  bad : ∀ code, d.ssiBad h n rx low bits = some code → e.get (ctl .pos h) POS.CAR_STAT_BAD n = satU 8 (d.get (ctl .pos h) POS.CAR_STAT_BAD n + 1) % 2 ^ 8 ∧
    e.get (ctl .pos h) HDR.ERR_CODE = code % 2 ^ 8 ∧ e.get (ctl .pos h) HDR.ERR_DETAIL = n ∧
    (e.posCar h n).frame = some ⟨false, 0, d.get (ctl .pos h) POS.CAR_STAT_BAD n⟩

theorem frame_modPosCar_same (d : Dev) (h : HalfId) {n : Nat} (f : PosCar → PosCar) (hn : n < (d.half h).pos.cars.length) :
    (d.modPosCar h n f).posCar h n = f (d.posCar h n) := by
  rw [posCar, modPosCar, half_modHalf_same]
  exact getD_lmod_same _ _ hn

theorem takeSsi_shows (d : Dev) {h : HalfId} {n rx : Nat} (low : Bool) (bits : Nat)
    (hfind : (List.range 4).find? (fun n => d.carEn h n && d.get (ctl .pos h) POS.CAR_CFG_SSI n == rx) = some n) (he : d.enabled (ctl .pos h) = true)
    (hbits : d.get d.rxPage POS.SSI_FMT_BITS rx ≠ 0) (hcars : (d.half h).pos.cars.length = 4) : SsiShown h n rx low bits d (d.takeSsi h rx low bits) := by
  have hn : n < 4 := find_lt hfind
  obtain ⟨x, hx⟩ : ∃ x, x = d.put (ctl .pos h) POS.CAR_RAW_FIELD (d.ssiCount rx bits) n := ⟨_, rfl⟩
  have hxr : x.get (ctl .pos h) POS.CAR_RAW_FIELD n = d.ssiCount rx bits % 2 ^ 32 := by
    rw [hx]
    exact get_put_same _ _ _ _ _ _ (by decide)
  have hxb : x.get (ctl .pos h) POS.CAR_STAT_BAD n = d.get (ctl .pos h) POS.CAR_STAT_BAD n := by
    rw [hx, get_put_apart _ _ (by decide) (by decide) (by decide) hn hn (by decide) (by decide)]
  have hxl : n < (x.half h).pos.cars.length := by rw [hx, half_put, hcars]; exact hn
  have hguard : (d.enabled (ctl .pos h) && d.get d.rxPage POS.SSI_FMT_BITS rx != 0) = true := by simp [he, hbits]
  cases hbad : d.ssiBad h n rx low bits with
  | none =>
    have hrun : d.takeSsi h rx low bits = (x.put (ctl .pos h) POS.CAR_STAT_BAD 0 n).modPosCar h n
        (fun k => { k with frame := some ⟨true, d.ssiPos h n rx (d.ssiCount rx bits), d.get (ctl .pos h) POS.CAR_STAT_BAD n⟩ }) := by
      simp only [takeSsi, hfind, hguard, if_true, hbad, hx]
    rw [hrun]
    refine ⟨?_, fun _ => ⟨?_, ?_⟩, fun code hcode => absurd (hbad.symm.trans hcode) (by simp)⟩
    · rw [get_modPosCar, get_put_apart _ _ (by decide) (by decide) (by decide) hn hn (by decide) (by decide), hxr]
    · rw [get_modPosCar, get_put_same _ _ _ _ _ _ (by decide)]
      rfl
    · rw [frame_modPosCar_same _ _ _ (by rwa [half_put])]
  | some code =>
    have hrun : d.takeSsi h rx low bits = (x.badFrame h n code).modPosCar h n (fun k => { k with frame := some ⟨false, 0, d.get (ctl .pos h) POS.CAR_STAT_BAD n⟩ }) := by
      simp only [takeSsi, hfind, hguard, if_true, hbad, hx]
    have herr {f : Fld} (hf : ∀ g ∈ errFields, g.apart f = true) (hfit : f.fits = true) (hc : f.cnt = 4) : (x.err (ctl .pos h) code n).get (ctl .pos h) f n = x.get (ctl .pos h) f n :=
      get_err_apart _ _ _ hf hfit (by omega) (by decide)
    rw [hrun]
    refine ⟨?_, fun hgood => absurd (hbad.symm.trans hgood) (by simp), fun c hc => ?_⟩
    · rw [get_modPosCar, badFrame, get_stat_apart _ _ (by decide) (by decide) hn (by decide), bump,
        get_put_apart _ _ (by decide) (by decide) (by decide) hn hn (by decide) (by decide), herr (by decide) (by decide) rfl, hxr]
    · obtain rfl : code = c := Option.some.inj (hbad.symm.trans hc)
      refine ⟨?_, ?_, ?_, ?_⟩
      · rw [get_modPosCar, badFrame, get_stat_apart _ _ (by decide) (by decide) hn (by decide), bump, get_put_same _ _ _ _ _ _ (by decide),
          herr (by decide) (by decide) rfl, hxb]
        rfl
      · rw [get_modPosCar, badFrame, get_stat_apart _ _ (by decide) (by decide) (by decide) (by decide), bump,
          get_put_apart _ _ (by decide) (by decide) (by decide) hn (by decide) (by decide) (by decide), get_err_code]
      · rw [get_modPosCar, badFrame, get_stat_apart _ _ (by decide) (by decide) (by decide) (by decide), bump,
          get_put_apart _ _ (by decide) (by decide) (by decide) hn (by decide) (by decide) (by decide), get_err_detail _ _ _ (by cases h <;> decide)]
        exact Nat.mod_eq_of_lt (by omega)
      · rw [frame_modPosCar_same]
        rw [badFrame, half_stat, bump, half_put, half_err]
        exact hxl

/-! ### The frame of half B, behind that of half A -/

section
variable {d e : Dev} (s : SsiStep .a d e)
include s

theorem rxPage_of_ssiStep : e.rxPage = d.rxPage := by
  rw [rxPage, holder, on, get_of_keeps s.keeps (by decide) (by decide) (by decide) (by decide), rxPage, holder, on]

theorem fmt_of_ssiStep {f : Fld} (hf : f ∈ ssiFields) {rx : Nat} (hrx : rx < 4) : e.get e.rxPage f rx = d.get d.rxPage f rx := by
  have hall : (∀ g ∈ ssiShown, g.apart f = true) ∧ f.fits = true ∧ f.cnt = 4 := by
    simp only [ssiFields, List.mem_cons, List.not_mem_nil, or_false] at hf
    rcases hf with rfl | rfl | rfl | rfl | rfl | rfl | rfl | rfl | rfl | rfl | rfl | rfl <;> decide
  rw [rxPage_of_ssiStep s, s.get _ _ _ hall.1 hall.2.1 (by omega)]

theorem ssiCount_of_ssiStep {rx : Nat} (hrx : rx < 4) (bits : Nat) : e.ssiCount rx bits = d.ssiCount rx bits := by
  rw [ssiCount, ssiCount, on, on, ssiField, ssiField, fmt_of_ssiStep s (f := POS.SSI_FMT_GRAY) (by decide) hrx, fmt_of_ssiStep s (f := POS.SSI_FMT_PWID) (by decide) hrx,
    fmt_of_ssiStep s (f := POS.SSI_FMT_PLSB) (by decide) hrx]

theorem own_of_ssiStep (f : Fld) (i t : Nat) : e.get (ctl .pos .b) f i t = d.get (ctl .pos .b) f i t := s.behind _ _ _ _ (by decide)

theorem ssiPos_of_ssiStep {rx : Nat} (hrx : rx < 4) (n c : Nat) : e.ssiPos .b n rx c = d.ssiPos .b n rx c := by
  rw [ssiPos, ssiPos, on, on, geti, geti, own_of_ssiStep s, fmt_of_ssiStep s (f := POS.SSI_SCL_NM) (by decide) hrx, fmt_of_ssiStep s (f := POS.SSI_SCL_DIR) (by decide) hrx]

theorem posPred_of_ssiStep (n : Nat) : e.posPred .b n = d.posPred .b n := by
  have hcar : e.posCar .b n = d.posCar .b n := by rw [posCar, show e.half .b = d.half .b from s.other, posCar]
  have hT : e.servoT .b = d.servoT .b := by rw [servoT, s.behind _ _ _ _ (by decide), servoT]
  have henc : e.encUsed .b n = d.encUsed .b n := by rw [encUsed, on, on, own_of_ssiStep s, own_of_ssiStep s, encUsed, on, on]
  have hcnt : e.encCnt .b n = d.encCnt .b n := by rw [encCnt, own_of_ssiStep s, own_of_ssiStep s, encCnt]
  have hscale : e.encScale .b n = d.encScale .b n := by rw [encScale, geti, own_of_ssiStep s, own_of_ssiStep s, encScale, geti]
  have hv : e.carV .b n = d.carV .b n := by rw [carV, geti, own_of_ssiStep s, carV, geti]
  simp only [posPred, posStep, henc, hcnt, hscale, hv, hcar, hT]

theorem ssiBad_of_ssiStep {rx : Nat} (hrx : rx < 4) (n : Nat) (low : Bool) (bits : Nat) : e.ssiBad .b n rx low bits = d.ssiBad .b n rx low bits := by
  have hpar : e.ssiParityBad rx bits = d.ssiParityBad rx bits := by
    rw [ssiParityBad, ssiParityBad, ssiField, ssiField, fmt_of_ssiStep s (f := POS.SSI_FMT_PAR) (by decide) hrx, fmt_of_ssiStep s (f := POS.SSI_FMT_PWID) (by decide) hrx,
      fmt_of_ssiStep s (f := POS.SSI_FMT_PLSB) (by decide) hrx]
  have herr : e.ssiErrBit rx bits = d.ssiErrBit rx bits := by
    rw [ssiErrBit, ssiErrBit, on, on, fmt_of_ssiStep s (f := POS.SSI_FMT_EEN) (by decide) hrx, fmt_of_ssiStep s (f := POS.SSI_FMT_EBIT) (by decide) hrx,
      fmt_of_ssiStep s (f := POS.SSI_FMT_EPOL) (by decide) hrx]
  have hout (x : Int) : e.outside .b x = d.outside .b x := by rw [outside, geti, geti, own_of_ssiStep s, own_of_ssiStep s, outside, geti, geti]
  have hst : e.posState .b n = d.posState .b n := by rw [posState, own_of_ssiStep s, posState]
  simp only [ssiBad, hpar, herr, ssiCount_of_ssiStep s hrx, ssiPos_of_ssiStep s hrx, posPred_of_ssiStep s, hout, hst, own_of_ssiStep s]

end

theorem ssiStep_both (d : Dev) (rx : Nat) (low : Bool) (bits : Nat) : d.keeps (d.both fun d h => d.takeSsi h rx low bits) [ctl .pos .a, ctl .pos .b] :=
  keeps_trans (keeps_mono (ssiStep_takeSsi d .a rx low bits).keeps (by simp)) (keeps_mono (ssiStep_takeSsi _ .b rx low bits).keeps (by simp))

/-- A frame in both halves shows what it shows in the half that takes it. -/
theorem takeSsi_both (d : Dev) {h : HalfId} {n rx : Nat} (hrx : rx < 4) (low : Bool) (bits : Nat)
    (hfind : (List.range 4).find? (fun n => d.carEn h n && d.get (ctl .pos h) POS.CAR_CFG_SSI n == rx) = some n) (he : d.enabled (ctl .pos h) = true)
    (hbits : d.get d.rxPage POS.SSI_FMT_BITS rx ≠ 0) (hcars : (d.half h).pos.cars.length = 4) :
    SsiShown h n rx low bits d (d.both fun d h => d.takeSsi h rx low bits) := by
  have hn : n < 4 := find_lt hfind
  cases h with
  | a =>
    obtain ⟨hraw, hgood, hbad⟩ := takeSsi_shows d low bits hfind he hbits hcars
    obtain ⟨hk, hhalf, -, -⟩ := ssiStep_takeSsi (d.takeSsi .a rx low bits) .b rx low bits
    have hget {f : Fld} {i : Nat} (hf : f.fits = true) (hi : i < f.cnt) : (d.both fun d h => d.takeSsi h rx low bits).get (ctl .pos .a) f i = (d.takeSsi .a rx low bits).get (ctl .pos .a) f i :=
      get_of_keeps hk hf hi (by decide) (by decide)
    have hcar : (d.both fun d h => d.takeSsi h rx low bits).posCar .a n = (d.takeSsi .a rx low bits).posCar .a n := by
      rw [posCar, posCar]
      exact congrArg (fun x : Half => x.pos.cars.getD n PosCar.init) hhalf
    refine ⟨by rw [hget (by decide) hn, hraw], fun hb => ?_, fun c hb => ?_⟩
    · rw [hget (by decide) hn, hcar]
      exact hgood hb
    · rw [hget (by decide) hn, hget (by decide) (by decide), hget (by decide) (by decide), hcar]
      exact hbad c hb
  | b =>
    have hs := ssiStep_takeSsi d .a rx low bits
    have hown := own_of_ssiStep hs
    have hhalf : (d.takeSsi .a rx low bits).half .b = d.half .b := hs.other
    have hshow := takeSsi_shows (d.takeSsi .a rx low bits) (h := .b) (n := n) (rx := rx) low bits (by simpa only [carEn, on, hown] using hfind)
      (by rw [enabled, on, hown]; exact he) (by rw [fmt_of_ssiStep hs (by decide) hrx]; exact hbits) (by rw [hhalf, hcars])
    obtain ⟨hraw, hgood, hbad⟩ := hshow
    rw [ssiCount_of_ssiStep hs hrx] at hraw hgood
    rw [ssiBad_of_ssiStep hs hrx, ssiPos_of_ssiStep hs hrx, hown] at hgood
    rw [ssiBad_of_ssiStep hs hrx, hown] at hbad
    exact ⟨hraw, hgood, hbad⟩

/-! ### The SERVO event -/

/-- The state of a period leaves the half as it was. -/
theorem servoSend_keeps (d : Dev) (h q : HalfId) : (d.servoSend h).memories = d.memories ∧ ((d.servoSend h).half q).servoCnt = (d.half q).servoCnt := by
  unfold servoSend
  extract_lets o s r1 r2 n d1
  split
  · have h1 : d1.frame = d.frame := by simp [d1, r1, r2]
    rw [memories_modHlf, half_modHlf]
    exact ⟨memories_of_frame h1, servoCnt_of_frame h1 q⟩
  · exact ⟨rfl, rfl⟩

theorem servoEvent_off {d : Dev} {h : HalfId} (hr : d.running h = false) : d.servoEvent h = d := by
  unfold servoEvent
  exact if_pos (by simp [hr])

/-- A SERVO event of a half that runs counts itself; everything after leaves the count and the memories as they are. -/
theorem servoEvent_counts {d : Dev} {h : HalfId} (hr : d.running h = true) :
    (d.servoEvent h).memories = d.memories ∧ ((d.servoEvent h).half h).servoCnt = (d.half h).servoCnt + 1 := by
  obtain ⟨x, hx, hrun⟩ : ∃ x : Dev, x.frame = (d.modHalf h fun x => { x with servoCnt := x.servoCnt + 1 }).frame ∧ d.servoEvent h = (x.servoSend h).proofExport h := by
    unfold servoEvent
    rw [if_neg (by simp [hr])]
    exact ⟨_, by simp, rfl⟩
  obtain ⟨hmem, hcnt⟩ := x.servoSend_keeps h h
  have hp := frame_proofExport (x.servoSend h) h
  rw [hrun]
  refine ⟨?_, ?_⟩
  · rw [memories_of_frame hp, hmem, memories_of_frame hx]
    exact memories_modHalf _ _ fun _ => rfl
  · rw [servoCnt_of_frame hp, hcnt, servoCnt_of_frame hx, half_modHalf_same]

end Dev

/-! ### O17 -/

section
variable {s : State} (hout : s.out = true)
include hout

theorem encoderEdge_counts (e : Fin 4) (up : Bool) (hlen : s.dev.enc.length = 4) :
    ∃ t, exec (.encoderEdge e up) s = .next t ∧ t = { s with dev := { s.dev with enc := t.dev.enc } } ∧
      t.dev.enc.getD e 0 = (if up then (s.dev.enc.getD e 0 + 1) % 2 ^ 32 else (s.dev.enc.getD e 0 + (2 ^ 32 - 1)) % 2 ^ 32) ∧
      (∀ k : Fin 4, k ≠ e → t.dev.enc.getD k 0 = s.dev.enc.getD k 0) := by
  refine ⟨_, onDev_out (fun d => { d with enc := lmod d.enc e (fun c => if up then (c + 1) % 2 ^ 32 else (c + (2 ^ 32 - 1)) % 2 ^ 32) }) hout, rfl, ?_, fun k hk => ?_⟩
  · exact getD_lmod_same _ _ (by rw [hlen]; exact e.isLt)
  · exact getD_lmod_ne _ _ _ fun he => hk (Fin.ext he)

theorem ssiFrame_unnamed (rx : Fin 4) (low : Bool) (bits : BitVec 32)
    (hno : ∀ (h : HalfId) (n : Fin 4), s.dev.carEn h n = true → s.dev.get (ctl .pos h) POS.CAR_CFG_SSI n ≠ rx.val) : exec (.ssiFrame rx low bits) s = .next s := by
  have hrun : (s.dev.both fun d h => d.takeSsi h rx low bits.toNat) = s.dev := by
    rw [Dev.both, Dev.takeSsi_none s.dev low bits.toNat (hno .a), Dev.takeSsi_none s.dev low bits.toNat (hno .b)]
  exact next_of_out_eq hout rfl hrun

theorem servoEvent_of_half (h : HalfId) : ∃ t, exec (.servoEvent h) s = .next t ∧ t.pending = s.pending ∧ t.dev.memories = s.dev.memories ∧
    (s.dev.running h = false → t = s) ∧ (s.dev.running h = true → (t.dev.half h).servoCnt = (s.dev.half h).servoCnt + 1) := by
  cases hr : s.dev.running h with
  | false => exact ⟨s, next_of_out_eq hout rfl (Dev.servoEvent_off hr), rfl, rfl, fun _ => rfl, fun h1 => absurd h1 (by simp)⟩
  | true =>
    obtain ⟨hmem, hcnt⟩ := Dev.servoEvent_counts hr
    exact ⟨_, onDev_out (fun d => d.servoEvent h) hout, rfl, hmem, fun h1 => absurd h1 (by simp), fun _ => hcnt⟩

end

/-- Settles O17, a clause per source: of a frame by the half that takes it, of a fusion by the loop over the cars. -/
theorem positionSourcesAreTaken : Obligations.PositionSourcesAreTaken := by
  intro s hout
  refine ⟨encoderEdge_counts hout, ssiFrame_unnamed hout, fun h rx n low bits hfind he hbits hcars => ?_, fun h => ⟨fun he => ?_, fun he => ?_⟩, servoEvent_of_half hout⟩
  · obtain ⟨hraw, hgood, hbad⟩ := Dev.takeSsi_both s.dev rx.isLt low bits.toNat hfind he hbits hcars
    refine ⟨_, onDev_out (fun d => d.both fun d h => d.takeSsi h rx low bits.toNat) hout, rfl, hraw, ?_, Dev.ssiStep_both ..⟩
    split
    next hb => exact hgood hb
    next code hb => exact hbad code hb
  · exact next_of_out_eq hout rfl (Dev.posFuse_off he)
  · refine ⟨_, onDev_out (fun d => d.posFuse h) hout, rfl, ?_, Dev.memories_of_frame (Dev.frame_posFuse ..), fun n x b hen hst hfree hframe hin hcars hcopies => ?_⟩
    · show ((s.dev.posFuse h).half h).pos.fused = true
      rw [Dev.posFuse_run he, Dev.half_modHalf_same]
    · obtain ⟨hpos, hcopy⟩ := Dev.fused_posFuse n.isLt he ⟨hen, hst, hfree, ⟨b, hframe⟩, hin, hcars, hcopies⟩
      have hx : (s.dev.posFuse h).carX h n = sgn 32 (encS 32 (asr x 8) % 2 ^ 32) := congrArg (sgn 32) hpos
      exact ⟨hx, hcopy.trans hx.symm⟩

end Sys2Proof.Machine
end

section
/-! PROOFS. A level on the line of a switch entry (O19): what the entries, the generators and the stepper channels do with it. -/
namespace Sys2Proof.Machine

open Sys2Proof

namespace Dev

/-- The configuration of a switch entry, and what shows that a latch unit was overrun. -/
def swCfg : List Fld := [POS.SW_SRC, POS.SW_SRCK, POS.SW_CAR, POS.SW_KIND, POS.SW_POL, POS.LAT_STAT_OVR]

/-- The configuration of the switch entries, and what shows them. -/
def swAll : List Fld := POS.SW_STATE_ACT :: swCfg

theorem swAll_fits {f : Fld} (hf : f ∈ swAll) : f.fits = true ∧ 0xC8 ≤ f.off := by fin_cases hf <;> decide

/-- A stepper channel reads its supply. -/
def supplyOf (h : HalfId) (d : Dev) (c : Nat) : Dev :=
  let p := ctl .stp h
  if d.on p STP.CH_DRV_PG_EN c && d.din (d.get p STP.CH_DRV_PG_SRC c) != d.on p STP.CH_DRV_PG_POL c then d.stpOff h c else d.stpBack h c

/-- An operation that leaves the levels of the contacts, the edges that wait at the latch units, and these registers of POS as they were. -/
structure SwKept (fs : List Fld) (d e : Dev) : Prop where
  fio : e.fio = d.fio
  pos : ∀ h, (e.half h).pos = (d.half h).pos
  get : ∀ h, ∀ f ∈ fs, ∀ i < f.cnt, e.get (ctl .pos h) f i = d.get (ctl .pos h) f i

namespace SwKept

variable {fs : List Fld} {d e x : Dev}

theorem refl (fs : List Fld) (d : Dev) : SwKept fs d d := ⟨rfl, fun _ => rfl, fun _ _ _ _ _ => rfl⟩

theorem trans (s : SwKept fs d e) (t : SwKept fs e x) : SwKept fs d x :=
  ⟨t.fio.trans s.fio, fun h => (t.pos h).trans (s.pos h), fun h f hf i hi => (t.get h f hf i hi).trans (s.get h f hf i hi)⟩

theorem mono {gs : List Fld} (s : SwKept fs d e) (hs : ∀ f ∈ gs, f ∈ fs) : SwKept gs d e := ⟨s.fio, s.pos, fun h f hf => s.get h f (hs f hf)⟩

theorem ite {c : Prop} [Decidable c] (s : c → SwKept fs d e) (t : ¬ c → SwKept fs d x) : SwKept fs d (if c then e else x) := by
  split
  case isTrue hc => exact s hc
  case isFalse hc => exact t hc

theorem foldl {α : Type} {f : Dev → α → Dev} : ∀ (l : List α) (d : Dev), (∀ d, ∀ y ∈ l, SwKept fs d (f d y)) → SwKept fs d (l.foldl f d)
  | [], d, _ => refl fs d
  | y :: l, d, hf => (hf d y List.mem_cons_self).trans (foldl l _ fun d z hz => hf d z (List.mem_cons_of_mem _ hz))

/-- Other state than the registers and the contacts. -/
theorem of_eq (s : SwKept fs d e) (hr : x.regs = e.regs) (hf : x.fio = e.fio) (hp : ∀ h, (x.half h).pos = (e.half h).pos) : SwKept fs d x :=
  ⟨hf.trans s.fio, fun h => (hp h).trans (s.pos h), fun h f hm i hi => (get_congr hr ..).trans (s.get h f hm i hi)⟩

theorem modHalf (s : SwKept fs d e) (h : HalfId) (f : Half → Half) (hf : ∀ x, (f x).pos = x.pos) : SwKept fs d (e.modHalf h f) := by
  refine s.of_eq (by cases h <;> rfl) (by cases h <;> rfl) fun q => ?_
  by_cases hq : q = h
  · rw [hq, half_modHalf_same, hf]
  · rw [show q = h.other by revert hq; cases q <;> cases h <;> decide, half_modHalf_other]

theorem modMpg (s : SwKept fs d e) (h : HalfId) (n : Nat) (f : Mpg → Mpg) : SwKept fs d (e.modMpg h n f) := s.modHalf _ _ fun _ => rfl
theorem modDax (s : SwKept fs d e) (h : HalfId) (n : Nat) (f : Dax → Dax) : SwKept fs d (e.modDax h n f) := s.modHalf _ _ fun _ => rfl
theorem modStp (s : SwKept fs d e) (h : HalfId) (n : Nat) (f : StpCh → StpCh) : SwKept fs d (e.modStp h n f) := s.modHalf _ _ fun _ => rfl

section
variable (hfs : ∀ f ∈ fs, f ∈ swAll)
include hfs

/-- A register of another page. -/
theorem put (s : SwKept fs d e) {p : Nat} (hp : ∀ h, p ≠ ctl .pos h) {g : Fld} (v : Nat) {i : Nat} (hg : g.fits = true) (hi : i < g.cnt) : SwKept fs d (e.put p g v i) :=
  s.trans ⟨rfl, fun _ => congrArg Half.pos (half_put ..), fun h f hf j hj => get_put_other _ _ (hp h) hg (swAll_fits (hfs f hf)).1 hi hj (by decide) (by decide)⟩

/-- A register before those of the switches, on whatever page. -/
theorem putLow (s : SwKept fs d e) (p : Nat) {g : Fld} (v : Nat) (hg : g.off < 0xC8) (hlo : g.lo < 32) : SwKept fs d (e.put p g v) := by
  refine s.trans ⟨rfl, fun _ => congrArg Half.pos (half_put ..), fun h f hf j hj => get_put_ne _ _ _ _ _ _ _ _ _ _ fun he => ?_⟩
  obtain ⟨hfit, hoff⟩ := swAll_fits (hfs f hf)
  obtain ⟨h1, h2, h3⟩ := inside_of_fits (t := 0) hfit hj (by decide)
  rw [fkey_eq, fkey_eq] at he
  omega

/-! ### Generators -/

theorem stat (s : SwKept fs d e) (p k : Nat) : SwKept fs d (e.stat p k) := s.putLow hfs p _ (by decide) (by decide)

theorem err (s : SwKept fs d e) (p c y : Nat) : SwKept fs d (e.err p c y) :=
  ((s.putLow hfs p _ (by decide) (by decide)).putLow hfs p _ (by decide) (by decide)).putLow hfs p _ (by decide) (by decide)

omit hfs in
theorem mpgIntent (s : SwKept fs d e) (h : HalfId) (n : Nat) : SwKept fs d (e.mpgIntent h n) := by
  unfold Dev.mpgIntent sendIntent
  exact ite (fun _ => s) fun _ => s.of_eq rfl rfl fun q => by cases q <;> rfl

theorem mpgCause (s : SwKept fs d e) (h : HalfId) (n cause : Nat) : SwKept fs d (e.mpgCause h n cause) := by
  have h1 : SwKept fs d (e.put (pgMpg h n) MPG.STATE_CAUSE cause) := s.putLow hfs _ _ (by decide) (by decide)
  exact ite (fun _ => h1) fun _ => h1.stat hfs _ _

theorem mpgPlan (s : SwKept fs d e) (h : HalfId) (n mode : Nat) (tgt : Int) (up : Bool) (gs : List Seg) : SwKept fs d (e.mpgPlan h n mode tgt up gs) :=
  (((s.putLow hfs _ _ (by decide) (by decide)).putLow hfs _ _ (by decide) (by decide)).putLow hfs _ _ (by decide) (by decide)).modMpg _ _ _

theorem mpgFreeze (s : SwKept fs d e) (h : HalfId) (n cause : Nat) : SwKept fs d (e.mpgFreeze h n cause) := by
  unfold Dev.mpgFreeze
  exact ite (fun _ => s) fun _ => ((((s.putLow hfs _ _ (by decide) (by decide)).putLow hfs _ _ (by decide) (by decide)).modMpg _ _ _).mpgCause hfs _ _ _).mpgIntent _ _

theorem mpgRamp (s : SwKept fs d e) (h : HalfId) (n cause D J : Nat) (sup : Bool) : SwKept fs d (e.mpgRamp h n cause D J sup) := by
  unfold Dev.mpgRamp
  extract_lets p k up sg L runs d1 d2
  have h1 : SwKept fs d d1 := s.mpgPlan hfs _ _ _ _ _ _
  have h2 : SwKept fs d d2 := (h1.putLow hfs _ _ (by decide) (by decide)).modMpg _ _ _
  exact ite (fun _ => (ite (fun _ => h2) fun _ => h2.mpgCause hfs _ _ _).mpgIntent _ _) fun _ => s

theorem mpgLimitSw (s : SwKept fs d e) (h : HalfId) (n : Nat) : SwKept fs d (e.mpgLimitSw h n) := by
  unfold Dev.mpgLimitSw
  extract_lets up moving d1 d2
  have h1 : SwKept fs d d1 := s.modMpg _ _ _
  have h2 : SwKept fs d d2 := ite (fun _ => h1.mpgFreeze hfs _ _ _) fun _ => h1
  exact ite (fun _ => h2.mpgRamp hfs _ _ _ _ _ _) fun _ => h2

theorem mpgReplan (s : SwKept fs d e) (h : HalfId) (n : Nat) : SwKept fs d (e.mpgReplan h n) := by
  unfold Dev.mpgReplan
  exact ite (fun _ => s) fun _ => (s.mpgPlan hfs _ _ _ _ _ _).mpgIntent _ _

theorem mpgShowCap (s : SwKept fs d e) (h : HalfId) (n : Nat) : SwKept fs d (e.mpgShowCap h n) := by
  unfold Dev.mpgShowCap
  extract_lets p v cap d1
  have h1 : SwKept fs d d1 := (s.putLow hfs _ _ (by decide) (by decide)).putLow hfs _ _ (by decide) (by decide)
  exact ite (fun _ => h1.stat hfs _ _) fun _ => h1

/-! ### Stepper channels -/

theorem stpPut (s : SwKept fs d e) (h : HalfId) {g : Fld} (v : Nat) {i : Nat} (hg : g.fits = true) (hi : i < g.cnt) : SwKept fs d (e.put (ctl .stp h) g v i) :=
  s.put hfs (fun q => by cases h <;> cases q <;> decide) v hg hi

theorem stpPinsOut (s : SwKept fs d e) (h : HalfId) (c : Nat) : SwKept fs d (e.stpPinsOut h c) := by
  unfold Dev.stpPinsOut
  refine ite (fun _ => ?_) fun _ => s
  have h1 : SwKept fs d { e with stpPins := lset e.stpPins c (e.stpCh h c) } := s.of_eq rfl rfl fun q => by cases q <;> rfl
  exact h1.put hfs (fun q => by cases q <;> decide) _ (by decide) (by decide)

theorem stpOutputs (s : SwKept fs d e) (h : HalfId) (c : Nat) : SwKept fs d (e.stpOutputs h c) := by
  unfold Dev.stpOutputs
  exact (s.modStp _ _ _).stpPinsOut hfs _ _

theorem daxUncertain (s : SwKept fs d e) (h : HalfId) {k : Nat} (hk : k < 8) (cause : Nat) : SwKept fs d (e.daxUncertain h k cause) := by
  have hp (q : HalfId) : pgDax h k ≠ ctl .pos q := by
    cases h <;> cases q <;> simp only [pgDax, ctl, pageNo, Blk.region, Blk.index, HalfId.n] <;> omega
  exact ((((s.modDax h k _).put hfs hp _ (by decide) (by decide)).put hfs hp _ (by decide) (by decide)).put hfs hp _ (by decide) (by decide)).stat hfs _ _

theorem stpUncertain (s : SwKept fs d e) (h : HalfId) {c : Nat} (hc : c < 4) (cause : Nat) : SwKept fs d (e.stpUncertain h c cause) := by
  unfold Dev.stpUncertain
  extract_lets p d1
  have h1 : SwKept fs d d1 := (s.stpPut hfs h (g := STP.CH_STAT_UNCERT) _ (by decide) hc).stat hfs _ _
  split
  case h_1 k hk => exact h1.daxUncertain hfs _ (List.mem_range.mp (List.mem_of_find?_eq_some hk)) _
  case h_2 => exact h1

theorem stpOff (s : SwKept fs d e) (h : HalfId) {c : Nat} (hc : c < 4) : SwKept fs d (e.stpOff h c) := by
  unfold Dev.stpOff
  extract_lets p d1
  have h1 : SwKept fs d d1 := (((s.stpPut hfs h (g := STP.CH_STAT_DRV_OFF) _ (by decide) hc).err hfs _ _ _).modStp _ _ _).stpOutputs hfs _ _
  exact ite (fun _ => ite (fun _ => h1) fun _ => h1.stpUncertain hfs _ hc _) fun _ => s

theorem stpBack (s : SwKept fs d e) (h : HalfId) {c : Nat} (hc : c < 4) : SwKept fs d (e.stpBack h c) := by
  unfold Dev.stpBack
  extract_lets p d1 d2 i m
  have h1 : SwKept fs d d1 := s.stpPut hfs h (g := STP.CH_STAT_DRV_OFF) _ (by decide) hc
  have h2 : SwKept fs d d2 := h1.stpOutputs hfs _ _
  refine ite (fun _ => ?_) fun _ => s
  refine stpPinsOut hfs ?_ h c
  exact h2.modStp h c _

theorem stpReach (s : SwKept fs d e) : SwKept fs d e.stpReach := by
  have hstep (x : Dev) (h : HalfId) : SwKept fs x ((List.range 4).foldl (supplyOf h) x) := by
    refine foldl _ _ fun x c hc => ?_
    have hc4 : c < 4 := List.mem_range.mp hc
    unfold supplyOf
    extract_lets p
    split
    · exact (refl fs x).stpOff hfs h hc4
    · exact (refl fs x).stpBack hfs h hc4
  have hrun : e.stpReach = (List.range 4).foldl (supplyOf .b) ((List.range 4).foldl (supplyOf .a) e) := by
    unfold Dev.stpReach both
    rfl
  rw [hrun]
  exact s.trans ((hstep e .a).trans (hstep ((List.range 4).foldl (supplyOf .a) e) .b))

end

end SwKept

/-! ### The entries -/

theorem swCfg_all : ∀ f ∈ swCfg, f ∈ swAll := fun _ hf => List.mem_cons_of_mem _ hf

section
variable (d : Dev) (h : HalfId) (m : Nat)

theorem swShow_kept : SwKept swCfg d (d.swShow h m) := by
  refine ⟨rfl, fun _ => congrArg Half.pos (half_put ..), fun q f hf i hi => ?_⟩
  have hall : POS.SW_STATE_ACT.apart f = true ∧ f.fits = true := by fin_cases hf <;> decide
  exact get_put_field _ _ hall.1 (by decide) hall.2 (by decide) hi (by decide) (by decide)

/-- What follows the display of an entry leaves the display as it is. -/
theorem switchReach_shown (hsrc : d.on (ctl .pos h) POS.SW_SRCK m = false) : SwKept swAll (d.swShow h m) (d.switchReach h m) := by
  unfold switchReach
  rw [if_neg (by simp [hsrc])]
  extract_lets n d1 cap d2
  have hfs : ∀ f ∈ swAll, f ∈ swAll := fun _ hf => hf
  have h2 : SwKept swAll d1 d2 := (SwKept.refl _ _).mpgLimitSw hfs _ _
  exact .ite (fun _ => .refl _ _) fun _ => .ite (fun _ => (h2.mpgReplan hfs _ _).mpgShowCap hfs _ _) fun _ => h2

theorem switchReach_kept : SwKept swCfg d (d.switchReach h m) := by
  cases hsrc : d.on (ctl .pos h) POS.SW_SRCK m with
  | true =>
    rw [switchReach, if_pos hsrc]
    exact .refl _ _
  | false => exact (d.swShow_kept h m).trans ((d.switchReach_shown h m hsrc).mono swCfg_all)

/-- An entry whose line changed takes it. -/
def lineOf (was : Nat) (h : HalfId) (d : Dev) (m : Nat) : Dev :=
  let k := d.get (ctl .pos h) POS.SW_SRC m
  if bitN was k = bitN d.fio.lines k then d else d.switchReach h m

theorem linesReach_kept (was : Nat) : SwKept swCfg d (d.linesReach was) := by
  have hstep (x : Dev) (h : HalfId) : SwKept swCfg x ((List.range 16).foldl (lineOf was h) x) :=
    SwKept.foldl _ _ fun x m _ => SwKept.ite (fun _ => .refl _ _) fun _ => x.switchReach_kept h m
  have hrun : d.linesReach was = (List.range 16).foldl (lineOf was .b) ((List.range 16).foldl (lineOf was .a) d) := by
    unfold linesReach both
    rfl
  rw [hrun]
  exact (hstep d .a).trans (hstep ((List.range 16).foldl (lineOf was .a) d) .b)

/-- The debounced levels are to be shown, and what is configured of the switch entries is as it was. -/
structure DinReady (d : Dev) (deb : Nat) (e : Dev) : Prop where
  deb : e.fio.deb = deb
  held : e.fio.held = false
  en : e.enabled (shp .din) = true
  pos : ∀ h, (e.half h).pos = (d.half h).pos
  get : ∀ h, ∀ f ∈ swCfg, ∀ i < f.cnt, e.get (ctl .pos h) f i = d.get (ctl .pos h) f i

omit h m in
theorem get_put_din (d : Dev) {g f : Fld} (v : Nat) {i : Nat} (h : HalfId) (hg : g.fits = true) (hc : 0 < g.cnt) (hf : f ∈ swCfg) (hi : i < f.cnt) :
    (d.put (shp .din) g v).get (ctl .pos h) f i = d.get (ctl .pos h) f i :=
  get_put_other _ _ (by cases h <;> decide) hg (swAll_fits (swCfg_all f hf)).1 hc hi (by decide) (by decide)

omit h m in
theorem DinReady.put {d e : Dev} {deb : Nat} (s : DinReady d deb e) {g : Fld} (v : Nat) (hg : g.fits = true) (hc : 0 < g.cnt) (ha : g.apart HDR.CTRL_EN = true) :
    DinReady d deb (e.put (shp .din) g v) := by
  refine ⟨s.deb, s.held, ?_, fun h => (congrArg Half.pos (half_put ..)).trans (s.pos h), fun h f hf i hi => (get_put_din e v h hg hc hf hi).trans (s.get h f hf i hi)⟩
  rw [enabled, on, get_put_apart _ _ ha hg (by decide) hc (by decide) (by decide) (by decide)]
  exact s.en

/-- The level of a channel is on its line, and what is configured of the switch entries is as it was. -/
theorem dinChange_lines (n : Nat) (lvl : Bool) (hheld : d.fio.held = false) (hen : d.enabled (shp .din) = true) :
    (d.dinChange n lvl).fio.lines = setBitN d.fio.deb n lvl ∧ (∀ h, ((d.dinChange n lvl).half h).pos = (d.half h).pos) ∧
    ∀ h, ∀ f ∈ swCfg, ∀ i < f.cnt, (d.dinChange n lvl).get (ctl .pos h) f i = d.get (ctl .pos h) f i := by
  unfold dinChange
  extract_lets p was src d1 d2
  have h0 : DinReady d (setBitN d.fio.deb n lvl) { d with fio := { src with deb := setBitN d.fio.deb n lvl } } :=
    ⟨rfl, hheld, hen, fun q => by cases q <;> rfl, fun _ _ _ _ _ => rfl⟩
  have h1 : DinReady d (setBitN d.fio.deb n lvl) d1 := h0.put _ (by decide) (by decide) (by decide)
  have h2 : DinReady d (setBitN d.fio.deb n lvl) d2 := by
    show DinReady _ _ (if _ then _ else _)
    split
    · exact h1
    · split <;> exact (h1.put _ (by decide) (by decide) (by decide)).put _ (by decide) (by decide) (by decide)
  rw [if_neg (by rw [h1.held, h1.en]; decide)]
  obtain ⟨x, v, was, hlines, hget, hhalf, hrun⟩ : ∃ (x : Dev) (v was : Nat), x.fio.lines = setBitN d.fio.deb n lvl ∧ x.regs = d2.regs ∧ (∀ h, x.half h = d2.half h) ∧
      d2.dinShow = ((x.put (shp .din) DIN.LEVEL_BITS v).linesReach was).stpReach := by
    unfold dinShow
    rw [if_neg (by simp [h2.held])]
    refine ⟨_, _, _, ?_, ?_, fun q => ?_, rfl⟩
    · exact (if_pos h2.en).trans h2.deb
    · rfl
    · cases q <;> rfl
  have hk : SwKept swCfg (x.put (shp .din) DIN.LEVEL_BITS v) d2.dinShow := by
    rw [hrun]
    exact (linesReach_kept _ was).stpReach swCfg_all
  refine ⟨(congrArg Fio.lines hk.fio).trans hlines, fun h => ?_, fun h f hf i hi => ?_⟩
  · rw [hk.pos h, half_put, hhalf, h2.pos]
  · rw [hk.get h f hf i hi, get_put_din _ _ _ (by decide) (by decide) hf hi, get_congr hget, h2.get h f hf i hi]

/-- An entry of a DIN channel shows the level on its line. -/
theorem swShow_bit {m : Nat} (hm : m < 16) (hsrc : d.on (ctl .pos h) POS.SW_SRCK m = false) (hkind : d.get (ctl .pos h) POS.SW_KIND m ≠ 0) :
    bitN ((d.swShow h m).get (ctl .pos h) POS.SW_STATE_ACT) m = ((bitN d.fio.lines (d.get (ctl .pos h) POS.SW_SRC m) == 1) == d.on (ctl .pos h) POS.SW_POL m).toNat := by
  rw [swShow, bit_putBit_same _ _ _ _ _ _ (by decide) hm, swLevel, if_neg (by simp [hsrc])]
  rw [show (d.get (ctl .pos h) POS.SW_KIND m != 0) = true from bne_iff_ne.mpr hkind, Bool.true_and]

theorem switchChange_shows {m : Nat} (hm : m < 16) (level : Bool) (hsrc : d.on (ctl .pos h) POS.SW_SRCK m = false) (hkind : d.get (ctl .pos h) POS.SW_KIND m ≠ 0)
    (hen : d.enabled (shp .din) = true) (hheld : d.fio.held = false) :
    (bitN ((d.switchChange h m level).get (ctl .pos h) POS.SW_STATE_ACT) m = 1 ↔ level = d.on (ctl .pos h) POS.SW_POL m) ∧
    bitN (d.switchChange h m level).fio.lines (d.get (ctl .pos h) POS.SW_SRC m) = level.toNat := by
  obtain ⟨x, hx⟩ : ∃ x, x = d.dinChange (d.get (ctl .pos h) POS.SW_SRC m) level := ⟨_, rfl⟩
  obtain ⟨hlines, -, hget⟩ := d.dinChange_lines (d.get (ctl .pos h) POS.SW_SRC m) level hheld hen
  rw [← hx] at hlines hget
  have hrun : d.switchChange h m level = x.switchReach h m := by
    rw [switchChange, if_neg (by simp [hsrc, hen, hheld]), hx]
  have hxs : x.on (ctl .pos h) POS.SW_SRCK m = false := by
    rw [on, hget h _ (by decide) m hm]
    exact hsrc
  have hshown := x.switchReach_shown h m hxs
  have hbit : bitN x.fio.lines (d.get (ctl .pos h) POS.SW_SRC m) = level.toNat := by rw [hlines, bitN_setBitN_same]
  rw [hrun, hshown.fio, hshown.get h POS.SW_STATE_ACT (by decide) 0 (by decide),
    x.swShow_bit h hm hxs (by rwa [hget h _ (by decide) m hm]), hget h POS.SW_SRC (by decide) m hm, hbit, on, hget h POS.SW_POL (by decide) m hm, ← on]
  refine ⟨?_, hbit⟩
  cases level <;> cases d.on (ctl .pos h) POS.SW_POL m <;> decide

end

end Dev

end Sys2Proof.Machine
end

section
/-! PROOFS. Latch units, the door-zone check and the learning run (O19). -/
namespace Sys2Proof.Machine

open Sys2Proof

theorem getD_lset_ne {α : Type} {l : List α} {i j : Nat} (a x : α) (h : j ≠ i) : (lset l i x).getD j a = l.getD j a := by
  rw [lset, List.getD_eq_getElem?_getD, List.getElem?_set_ne h.symm, List.getD_eq_getElem?_getD]

namespace Dev

/-! ### Edges that wait -/

section
variable (d : Dev) (h : HalfId)

theorem latches_setLatches {m k : Nat} (l : List LatchPend) (hm : m < (d.half h).pos.latches.length) :
    (d.setLatches h m l).latches h k = if k = m then l else d.latches h k := by
  rw [latches, setLatches, half_modHalf_same, latches]
  by_cases hk : k = m
  · rw [if_pos hk, hk]
    exact getD_lset_same _ _ hm
  · rw [if_neg hk]
    exact getD_lset_ne _ _ hk

theorem length_setLatches (m : Nat) (l : List LatchPend) : ((d.setLatches h m l).half h).pos.latches.length = (d.half h).pos.latches.length := by
  rw [setLatches, half_modHalf_same]
  exact List.length_set

theorem regs_setLatches (m : Nat) (l : List LatchPend) : (d.setLatches h m l).regs = d.regs := by cases h <;> rfl

theorem regs_setRaws (l : List (Nat × Nat × Bool)) : (d.setRaws h l).regs = d.regs := by cases h <;> rfl

theorem latches_setRaws (m : Nat) (l : List (Nat × Nat × Bool)) : (d.setRaws h l).latches h m = d.latches h m := by rw [latches, setRaws, half_modHalf_same, latches]

theorem half_setLatches_other (m : Nat) (l : List LatchPend) : (d.setLatches h m l).half h.other = d.half h.other := half_modHalf_other ..

theorem half_setRaws_other (l : List (Nat × Nat × Bool)) : (d.setRaws h l).half h.other = d.half h.other := half_modHalf_other ..

/-! ### The level that confirms an edge -/

/-- A latch unit keeps the edges that lead to a level. -/
def keepAt (h : HalfId) (src : Nat) (level : Bool) (d : Dev) (m : Nat) : Dev :=
  if d.get (ctl .pos h) POS.LAT_CFG_SRC m != src then d
  else d.setLatches h m ((d.latches h m).map (fun q => if q.rising == level then { q with confirmed := true } else q))

theorem latchKeep_eq (src : Nat) (level : Bool) : d.latchKeep h src level =
    (List.range 16).foldl (keepAt h src level) (d.setRaws h ((d.half h).pos.raws.filter (fun r => !(r.1 == src && r.2.2 == level)))) := rfl

theorem keepAt_other (src : Nat) (level : Bool) {m k : Nat} (hk : k ≠ m) (hm : m < (d.half h).pos.latches.length) :
    (keepAt h src level d m).latches h k = d.latches h k := by
  unfold keepAt
  split
  · rfl
  · rw [latches_setLatches _ _ _ hm, if_neg hk]

theorem regs_keepAt (src : Nat) (level : Bool) (m : Nat) : (keepAt h src level d m).regs = d.regs := by
  unfold keepAt
  split
  · rfl
  · exact regs_setLatches ..

theorem length_keepAt (src : Nat) (level : Bool) (m : Nat) : ((keepAt h src level d m).half h).pos.latches.length = (d.half h).pos.latches.length := by
  unfold keepAt
  split
  · rfl
  · exact length_setLatches ..

theorem half_keepAt_other (src : Nat) (level : Bool) (m : Nat) : (keepAt h src level d m).half h.other = d.half h.other := by
  unfold keepAt
  split
  · rfl
  · exact half_setLatches_other ..

/-- The latch units of a half, under the registers of a part, with the edges of one of them. -/
structure Waiting (h : HalfId) (m : Nat) (regs : List (Nat × Word)) (l : List LatchPend) (d : Dev) : Prop where
  regs : d.regs = regs
  units : (d.half h).pos.latches.length = 16
  edges : d.latches h m = l

variable {d h} in
theorem latchKeep_shows {m src : Nat} (hm : m < 16) (level : Bool) (hlen : (d.half h).pos.latches.length = 16) (hsrc : d.get (ctl .pos h) POS.LAT_CFG_SRC m = src) :
    Waiting h m d.regs ((d.latches h m).map (fun q => if q.rising == level then { q with confirmed := true } else q)) (d.latchKeep h src level) := by
  have hstep {l : List LatchPend} (x : Dev) (k : Nat) (hk : k ∈ List.range 16) (hkm : k ≠ m) (hx : Waiting h m d.regs l x) : Waiting h m d.regs l (keepAt h src level x k) :=
    ⟨(regs_keepAt ..).trans hx.regs, (length_keepAt ..).trans hx.units, (keepAt_other _ _ _ _ hkm.symm (by rw [hx.units]; exact List.mem_range.mp hk)).trans hx.edges⟩
  rw [latchKeep_eq]
  refine foldl_hit (P := Waiting h m d.regs (d.latches h m)) (a := m) _ _ hstep (fun x hx => ?_) hstep (List.mem_range.mpr hm) List.nodup_range ?_
  · have hxs : x.get (ctl .pos h) POS.LAT_CFG_SRC m = src := (get_congr hx.regs ..).trans hsrc
    refine ⟨(regs_keepAt ..).trans hx.regs, (length_keepAt ..).trans hx.units, ?_⟩
    unfold keepAt
    rw [if_neg (by simp [hxs]), latches_setLatches _ _ _ (by rw [hx.units]; exact hm), if_pos rfl, hx.edges]
  · exact ⟨regs_setRaws .., by rw [setRaws, half_modHalf_same]; exact hlen, latches_setRaws ..⟩

theorem latchKeep_other (src : Nat) (level : Bool) : (d.latchKeep h src level).half h.other = d.half h.other ∧ (d.latchKeep h src level).regs = d.regs := by
  rw [latchKeep_eq]
  refine foldl_keep (P := fun x : Dev => x.half h.other = d.half h.other ∧ x.regs = d.regs) _ _ (fun x k _ hx => ?_) ⟨half_setRaws_other .., regs_setRaws ..⟩
  exact ⟨(half_keepAt_other ..).trans hx.1, (regs_keepAt ..).trans hx.2⟩

end

theorem latches_of_half {d e : Dev} {h : HalfId} (hh : e.half h = d.half h) (m : Nat) : e.latches h m = d.latches h m := by rw [latches, hh, latches]

theorem latchKeep_both (d : Dev) {h : HalfId} {m src : Nat} (hm : m < 16) (level : Bool) (hlen : (d.half h).pos.latches.length = 16)
    (hsrc : d.get (ctl .pos h) POS.LAT_CFG_SRC m = src) :
    (d.both fun d h => d.latchKeep h src level).latches h m = (d.latches h m).map (fun q => if q.rising == level then { q with confirmed := true } else q) ∧
    (d.both fun d h => d.latchKeep h src level).regs = d.regs := by
  rw [both]
  obtain ⟨hha, hra⟩ := d.latchKeep_other .a src level
  obtain ⟨hhb, hrb⟩ := (d.latchKeep .a src level).latchKeep_other .b src level
  refine ⟨?_, hrb.trans hra⟩
  cases h with
  | a => exact (latches_of_half hhb m).trans (latchKeep_shows hm level hlen hsrc).edges
  | b =>
    have hb : (d.latchKeep .a src level).half .b = d.half .b := hha
    have hshow := latchKeep_shows (d := d.latchKeep .a src level) (h := .b) hm level (by rw [hb]; exact hlen) ((get_congr hra ..).trans hsrc)
    rw [latches_of_half hb] at hshow
    exact hshow.edges

/-! ### The raw edge that is dropped -/

section
variable (d : Dev) (h : HalfId) (no m : Nat)

theorem latchDrop_taken (hq : (d.latches h m).any (fun q => q.no == no && !q.confirmed) = true) :
    d.latchDrop h no m = (d.setLatches h m ((d.latches h m).filter (fun q => q.confirmed || q.no != no))).err (ctl .pos h) cLATCH_BOUNCE m := if_pos hq

theorem latchDrop_not (hq : (d.latches h m).any (fun q => q.no == no && !q.confirmed) = false) : d.latchDrop h no m = d := if_neg (by rw [hq]; decide)

/-- An operation on the latch units of a half: it shows itself on its page, and leaves the other half and the raw edges as they are. -/
structure LatchStep (h : HalfId) (d e : Dev) : Prop where
  keeps : d.keeps e [ctl .pos h]
  other : e.half h.other = d.half h.other
  units : (e.half h).pos.latches.length = (d.half h).pos.latches.length
  raws : (e.half h).pos.raws = (d.half h).pos.raws

theorem LatchStep.refl : LatchStep h d d := ⟨keeps_refl d _, rfl, rfl, rfl⟩

variable {d h no m} in
theorem LatchStep.trans {e x : Dev} (s : LatchStep h d e) (t : LatchStep h e x) : LatchStep h d x :=
  ⟨keeps_trans s.keeps t.keeps, t.other.trans s.other, t.units.trans s.units, t.raws.trans s.raws⟩

theorem keeps_setLatches (l : List LatchPend) : d.keeps (d.setLatches h m l) [ctl .pos h] := by
  unfold setLatches
  exact (keeps_modHalf_iff (by intro; rfl)).mpr (keeps_refl d _)

theorem keeps_setRaws (l : List (Nat × Nat × Bool)) : d.keeps (d.setRaws h l) [ctl .pos h] := by
  unfold setRaws
  exact (keeps_modHalf_iff (by intro; rfl)).mpr (keeps_refl d _)

theorem latchStep_setLatches (l : List LatchPend) : LatchStep h d (d.setLatches h m l) :=
  ⟨keeps_setLatches .., half_setLatches_other .., length_setLatches .., by rw [setLatches, half_modHalf_same]⟩

theorem latchStep_latchDrop : LatchStep h d (d.latchDrop h no m) := by
  cases hq : (d.latches h m).any (fun q => q.no == no && !q.confirmed) with
  | false =>
    rw [latchDrop_not d h no m hq]
    exact .refl ..
  | true =>
    obtain ⟨hk, ho, hu, hr⟩ := d.latchStep_setLatches h m ((d.latches h m).filter (fun q => q.confirmed || q.no != no))
    rw [latchDrop_taken d h no m hq]
    exact ⟨(keeps_err_iff (by simp)).mpr hk, (half_err ..).trans ho, by rw [half_err]; exact hu, by rw [half_err]; exact hr⟩

theorem latchDrop_other {k : Nat} (hk : k ≠ m) (hm : m < (d.half h).pos.latches.length) : (d.latchDrop h no m).latches h k = d.latches h k := by
  cases hq : (d.latches h m).any (fun q => q.no == no && !q.confirmed) with
  | false => rw [latchDrop_not d h no m hq]
  | true => rw [latchDrop_taken d h no m hq, latches_of_half (half_err ..), latches_setLatches _ _ _ hm, if_neg hk]

theorem latchDrop_code (hc : d.get (ctl .pos h) HDR.ERR_CODE = cLATCH_BOUNCE) : (d.latchDrop h no m).get (ctl .pos h) HDR.ERR_CODE = cLATCH_BOUNCE := by
  cases hq : (d.latches h m).any (fun q => q.no == no && !q.confirmed) with
  | false => rwa [latchDrop_not d h no m hq]
  | true =>
    rw [latchDrop_taken d h no m hq, get_err_code]
    rfl

end

/-- The edges of a latch unit after a raw edge was dropped there. -/
structure Dropped (h : HalfId) (m : Nat) (l : List LatchPend) (d : Dev) : Prop where
  units : (d.half h).pos.latches.length = 16
  edges : d.latches h m = l
  code : d.get (ctl .pos h) HDR.ERR_CODE = cLATCH_BOUNCE

theorem dropAll_shows {d : Dev} {h : HalfId} {m no : Nat} (hm : m < 16) (hlen : (d.half h).pos.latches.length = 16)
    (hq : ∃ q ∈ d.latches h m, q.no = no ∧ q.confirmed = false) :
    Dropped h m ((d.latches h m).filter (fun q => q.confirmed || q.no != no)) ((List.range 16).foldl (fun d m => d.latchDrop h no m) d) := by
  refine foldl_hit (P := fun x : Dev => (x.half h).pos.latches.length = 16 ∧ x.latches h m = d.latches h m) (a := m) _ _ (fun x k hk hkm hx => ?_) (fun x hx => ?_)
    (fun x k hk hkm hx => ?_) (List.mem_range.mpr hm) List.nodup_range ⟨hlen, rfl⟩
  · exact ⟨(latchStep_latchDrop ..).units.trans hx.1, (latchDrop_other _ _ _ _ hkm.symm (by rw [hx.1]; exact List.mem_range.mp hk)).trans hx.2⟩
  · obtain ⟨hx16, hxl⟩ := hx
    have hany : (x.latches h m).any (fun q => q.no == no && !q.confirmed) = true := by
      obtain ⟨q, hmem, hno, hconf⟩ := hq
      exact List.any_eq_true.mpr ⟨q, by rwa [hxl], by simp [hno, hconf]⟩
    rw [latchDrop_taken x h no m hany]
    refine ⟨?_, ?_, ?_⟩
    · rw [half_err, length_setLatches, hx16]
    · rw [latches_of_half (half_err ..), latches_setLatches _ _ _ (by rw [hx16]; exact hm), if_pos rfl, hxl]
    · rw [get_err_code]
      rfl
  · exact ⟨(latchStep_latchDrop ..).units.trans hx.units, (latchDrop_other _ _ _ _ hkm.symm (by rw [hx.units]; exact List.mem_range.mp hk)).trans hx.edges,
      latchDrop_code _ _ _ _ hx.code⟩

theorem latchStep_dropAll (d : Dev) (h : HalfId) (no : Nat) : LatchStep h d ((List.range 16).foldl (fun d m => d.latchDrop h no m) d) :=
  foldl_keep (P := LatchStep h d) _ _ (fun _ _ _ hx => hx.trans (latchStep_latchDrop ..)) (.refl ..)

theorem latchBounced_some {d : Dev} {h : HalfId} {src : Nat} {r : Nat × Nat × Bool} (hr : (d.half h).pos.raws.find? (fun r => r.1 == src) = some r) :
    d.latchBounced h src = (List.range 16).foldl (fun d m => d.latchDrop h r.2.1 m) (d.setRaws h ((d.half h).pos.raws.filter (fun q => q.2.1 != r.2.1))) := by
  rw [latchBounced, hr]

theorem latchBounced_none {d : Dev} {h : HalfId} {src : Nat} (hr : (d.half h).pos.raws.find? (fun r => r.1 == src) = none) : d.latchBounced h src = d := by
  rw [latchBounced, hr]

theorem latchBounced_other (d : Dev) (h : HalfId) (src : Nat) : d.keeps (d.latchBounced h src) [ctl .pos h] ∧ (d.latchBounced h src).half h.other = d.half h.other := by
  cases hr : (d.half h).pos.raws.find? (fun r => r.1 == src) with
  | none =>
    rw [latchBounced_none hr]
    exact ⟨keeps_refl d _, rfl⟩
  | some r =>
    obtain ⟨hk, ho, -, -⟩ := latchStep_dropAll (d.setRaws h ((d.half h).pos.raws.filter (fun q => q.2.1 != r.2.1))) h r.2.1
    rw [latchBounced_some hr]
    exact ⟨keeps_trans (keeps_setRaws ..) hk, ho.trans (half_setRaws_other ..)⟩

/-- The oldest raw edge of a channel is dropped at the units that took it. -/
structure Bounced (h : HalfId) (m no : Nat) (d e : Dev) : Prop where
  edges : e.latches h m = (d.latches h m).filter (fun q => q.confirmed || q.no != no)
  raws : (e.half h).pos.raws = (d.half h).pos.raws.filter (fun r => r.2.1 != no)
  code : e.get (ctl .pos h) HDR.ERR_CODE = cLATCH_BOUNCE

theorem latchBounced_shows {d : Dev} {h : HalfId} {m src no : Nat} {up : Bool} (hm : m < 16) (hlen : (d.half h).pos.latches.length = 16)
    (hr : (d.half h).pos.raws.find? (fun r => r.1 == src) = some (src, no, up)) (hq : ∃ q ∈ d.latches h m, q.no = no ∧ q.confirmed = false) :
    Bounced h m no d (d.latchBounced h src) := by
  obtain ⟨x, hx⟩ : ∃ x, x = d.setRaws h ((d.half h).pos.raws.filter (fun q => q.2.1 != no)) := ⟨_, rfl⟩
  have hxl (k : Nat) : x.latches h k = d.latches h k := by rw [hx, latches_setRaws]
  have hxlen : (x.half h).pos.latches.length = 16 := by
    rw [hx, setRaws, half_modHalf_same]
    exact hlen
  obtain ⟨-, hedges, hcode⟩ := dropAll_shows (no := no) hm hxlen (by rwa [hxl])
  rw [latchBounced_some hr, ← hx]
  refine ⟨by rw [hedges, hxl], ?_, hcode⟩
  rw [(latchStep_dropAll x h no).raws, hx, setRaws, half_modHalf_same]

theorem latchBounced_both {d : Dev} {h : HalfId} {m src no : Nat} {up : Bool} (hm : m < 16) (hlen : (d.half h).pos.latches.length = 16)
    (hr : (d.half h).pos.raws.find? (fun r => r.1 == src) = some (src, no, up)) (hq : ∃ q ∈ d.latches h m, q.no = no ∧ q.confirmed = false) :
    Bounced h m no d (d.both fun d h => d.latchBounced h src) ∧ d.keeps (d.both fun d h => d.latchBounced h src) [ctl .pos .a, ctl .pos .b] := by
  rw [both]
  obtain ⟨hka, hha⟩ := d.latchBounced_other .a src
  obtain ⟨hkb, hhb⟩ := (d.latchBounced .a src).latchBounced_other .b src
  refine ⟨?_, keeps_trans (keeps_mono hka (by simp)) (keeps_mono hkb (by simp))⟩
  cases h with
  | a =>
    have hhalf : ((d.latchBounced .a src).latchBounced .b src).half .a = (d.latchBounced .a src).half .a := hhb
    obtain ⟨hedges, hraws, hcode⟩ := latchBounced_shows hm hlen hr hq
    exact ⟨(latches_of_half hhalf m).trans hedges, by rw [hhalf, hraws], (get_of_keeps hkb (by decide) (by decide) (by decide) (by decide)).trans hcode⟩
  | b =>
    have hhalf : (d.latchBounced .a src).half .b = d.half .b := hha
    obtain ⟨hedges, hraws, hcode⟩ := latchBounced_shows (d := d.latchBounced .a src) (h := .b) hm (by rw [hhalf]; exact hlen) (by rw [hhalf]; exact hr)
      (by rw [latches_of_half hhalf]; exact hq)
    rw [latches_of_half hhalf] at hedges
    rw [hhalf] at hraws
    exact ⟨hedges, hraws, hcode⟩

end Dev

end Sys2Proof.Machine
end

section
/-! PROOFS. Raw edges at the latch units, vane edges and the learning run (O19). -/
namespace Sys2Proof.Machine

open Sys2Proof

namespace Dev

/-! ### Raw edges -/

/-- Fields at different places in their words have registers of their own, whatever the entries. -/
theorem get_put_place (d : Dev) {p q : Nat} {f g : Fld} (v : Nat) {i j t u : Nat} (h : f.lo ≠ g.lo) (hf : f.lo < 32) (hg : g.lo < 32) (ht : t < 65536) (hu : u < 65536) :
    (d.put p f v i t).get q g j u = d.get q g j u := by
  refine get_put_ne _ _ _ _ _ _ _ _ _ _ fun he => ?_
  rw [fkey_eq, fkey_eq] at he
  omega

/-- What the unit `m` of a half goes by, and the edges that wait there, are as they were. -/
structure UnitKept (h : HalfId) (m : Nat) (d e : Dev) : Prop where
  units : (e.half h).pos.latches.length = (d.half h).pos.latches.length
  edges : e.latches h m = d.latches h m
  enc : e.enc = d.enc
  place : ∀ q f i, f.lo ≠ 1 → f.lo < 32 → e.get q f i = d.get q f i
  cont : e.get (ctl .pos h) POS.LAT_CFG_CONT m = d.get (ctl .pos h) POS.LAT_CFG_CONT m
  ovr : e.get (ctl .pos h) POS.LAT_STAT_OVR m = d.get (ctl .pos h) POS.LAT_STAT_OVR m

namespace UnitKept

variable {h q : HalfId} {m k : Nat} {d e x : Dev}

theorem refl (h : HalfId) (m : Nat) (d : Dev) : UnitKept h m d d := ⟨rfl, rfl, rfl, fun _ _ _ _ _ => rfl, rfl, rfl⟩

theorem trans (s : UnitKept h m d e) (t : UnitKept h m e x) : UnitKept h m d x :=
  ⟨t.units.trans s.units, t.edges.trans s.edges, t.enc.trans s.enc, fun q f i h1 h2 => (t.place q f i h1 h2).trans (s.place q f i h1 h2), t.cont.trans s.cont,
    t.ovr.trans s.ovr⟩

theorem foldl {α : Type} {f : Dev → α → Dev} : ∀ (l : List α) (d : Dev), (∀ d, ∀ y ∈ l, UnitKept h m d (f d y)) → UnitKept h m d (l.foldl f d)
  | [], d, _ => refl h m d
  | y :: l, d, hf => (hf d y List.mem_cons_self).trans (foldl l _ fun d z hz => hf d z (List.mem_cons_of_mem _ hz))

theorem ite {c : Prop} [Decidable c] (s : c → UnitKept h m d e) (t : ¬ c → UnitKept h m d x) : UnitKept h m d (if c then e else x) := by
  split
  case isTrue hc => exact s hc
  case isFalse hc => exact t hc

/-- Another state of a half, with the edges of this unit in their places. -/
theorem of_half (hr : ∀ p f i, e.get p f i = d.get p f i) (he : e.enc = d.enc) (hl : (e.half h).pos.latches.length = (d.half h).pos.latches.length)
    (hm : e.latches h m = d.latches h m) : UnitKept h m d e := ⟨hl, hm, he, fun p f i _ _ => hr p f i, hr _ _ _, hr _ _ _⟩

theorem ovr_put (hm : m < 16) (hk : k < 16) (hother : (q, k) ≠ (h, m)) (v : Nat) : UnitKept h m d (d.put (ctl .pos q) POS.LAT_STAT_OVR v k) := by
  refine ⟨by rw [half_put], latches_of_half (half_put ..) m, rfl, fun p f i h1 h2 => get_put_place _ _ (Ne.symm h1) (by decide) h2 (by decide) (by decide), ?_, ?_⟩
  · exact get_put_field _ _ (by decide) (by decide) (by decide) hk hm (by decide) (by decide)
  · by_cases hq : q = h
    · rw [hq]
      exact get_put_idx _ _ (by decide) (by decide) (by decide) fun he => hother (by rw [hq, he])
    · exact get_put_other _ _ (by revert hq; cases q <;> cases h <;> decide) (by decide) (by decide) hk hm (by decide) (by decide)

theorem setLatches (hother : (q, k) ≠ (h, m)) (hlen : q = h → k < (d.half q).pos.latches.length) (l : List LatchPend) : UnitKept h m d (d.setLatches q k l) := by
  have hr (p : Nat) (f : Fld) (i : Nat) : (d.setLatches q k l).get p f i = d.get p f i := get_congr (regs_setLatches ..) ..
  have he : (d.setLatches q k l).enc = d.enc := by cases q <;> rfl
  by_cases hq : q = h
  · subst hq
    exact of_half hr he (length_setLatches ..) (by rw [latches_setLatches _ _ _ (hlen rfl), if_neg fun hk => hother (by rw [hk])])
  · have hhalf : (d.setLatches q k l).half h = d.half h := by
      rw [show h = q.other by revert hq; cases q <;> cases h <;> decide]
      exact half_setLatches_other ..
    exact of_half hr he (by rw [hhalf]) (latches_of_half hhalf m)

theorem latchEdge (hm : m < 16) (hk : k < 16) (hother : (q, k) ≠ (h, m)) (hlen : q = h → (d.half q).pos.latches.length = 16) (src : Nat) (rising : Bool) (dt20 no : Nat) :
    UnitKept h m d (d.latchEdge q k src rising dt20 no) := by
  unfold Dev.latchEdge
  exact ite (fun _ => ite (fun _ => ovr_put hm hk hother 1) fun _ => setLatches hother (fun hq => by rw [hlen hq]; exact hk) _) fun _ => refl h m d

end UnitKept

/-- A raw edge at every unit of a half. -/
def edgeAll (d : Dev) (h : HalfId) (src : Nat) (rising : Bool) (dt20 : Nat) : Dev :=
  (List.range 16).foldl (fun x m => x.latchEdge h m src rising dt20 (d.half h).pos.rawNo) d

/-- A raw edge is numbered, and one of a DIN channel waits for its confirmation. -/
def numbered (d : Dev) (h : HalfId) (src no : Nat) (rising : Bool) : Dev :=
  if d.enabled (ctl .pos h) then
    d.modHalf h (fun x => { x with pos := { x.pos with rawNo := no + 1, raws := x.pos.raws ++ (if src < 32 then [(src, no, rising)] else []) } })
  else d

theorem rawEdge_eq (d : Dev) (h : HalfId) (src : Nat) (rising : Bool) (dt20 : Nat) :
    d.rawEdge h src rising dt20 = (d.edgeAll h src rising dt20).numbered h src (d.half h).pos.rawNo rising := rfl

theorem UnitKept.numbered {h q : HalfId} {m : Nat} {d e : Dev} (s : UnitKept h m d e) (src no : Nat) (rising : Bool) : UnitKept h m d (e.numbered q src no rising) := by
  refine s.trans (UnitKept.ite (fun _ => ?_) fun _ => .refl h m e)
  have hpos : ((e.modHalf q fun x => { x with pos := { x.pos with rawNo := no + 1, raws := x.pos.raws ++ (if src < 32 then [(src, no, rising)] else []) } }).half h).pos.latches =
      (e.half h).pos.latches := by
    by_cases hq : q = h
    · rw [hq, half_modHalf_same]
    · rw [show h = q.other by revert hq; cases q <;> cases h <;> decide, half_modHalf_other]
  refine .of_half (fun _ _ _ => get_modHalf ..) ?_ (congrArg List.length hpos) (congrArg (fun l => l.getD m []) hpos)
  cases q <;> rfl

theorem rawEdge_other (d : Dev) {h q : HalfId} {m : Nat} (hm : m < 16) (hq : q ≠ h) (src : Nat) (rising : Bool) (dt20 : Nat) :
    UnitKept h m d (d.rawEdge q src rising dt20) := by
  rw [rawEdge_eq]
  refine UnitKept.numbered (UnitKept.foldl _ _ fun x k hk => ?_) _ _ _
  exact .latchEdge hm (List.mem_range.mp hk) (fun he => hq (Prod.mk.inj he).1) (fun he => absurd he hq) _ _ _ _

/-- An edge that rises is at a unit that is enabled for it, and selects it. -/
structure Selects (h : HalfId) (m src : Nat) (d : Dev) : Prop where
  page : d.enabled (ctl .pos h) = true
  en : d.on (ctl .pos h) POS.LAT_CFG_EN m = true
  src : d.get (ctl .pos h) POS.LAT_CFG_SRC m = src
  edge : d.get (ctl .pos h) POS.LAT_CFG_EDGE m = 1
  units : (d.half h).pos.latches.length = 16

theorem Selects.kept {h : HalfId} {m src : Nat} {d e : Dev} (hd : Selects h m src d) (s : UnitKept h m d e) : Selects h m src e := by
  refine ⟨?_, ?_, (s.place _ _ _ (by decide) (by decide)).trans hd.src, (s.place _ _ _ (by decide) (by decide)).trans hd.edge, s.units.trans hd.units⟩
  · rw [enabled, on, s.place _ _ _ (by decide) (by decide)]
    exact hd.page
  · rw [on, s.place _ _ _ (by decide) (by decide)]
    exact hd.en

/-- Whether a unit in single mode holds a capture. -/
def holdsEdge (d : Dev) (h : HalfId) (m : Nat) : Bool := d.on (ctl .pos h) POS.LAT_STAT_FULL m && !d.on (ctl .pos h) POS.LAT_CFG_CONT m

theorem holdsEdge_kept {h : HalfId} {m : Nat} {d e : Dev} (s : UnitKept h m d e) : e.holdsEdge h m = d.holdsEdge h m := by
  rw [holdsEdge, on, on, s.place _ _ _ (by decide) (by decide), s.cont, holdsEdge, on, on]

/-- What a unit does with a rising edge that it selects. -/
structure EdgeTaken (h : HalfId) (m src dt20 : Nat) (d e : Dev) : Prop where
  ignored : d.holdsEdge h m = true → e.on (ctl .pos h) POS.LAT_STAT_OVR m = true ∧ e.latches h m = d.latches h m
  taken : d.holdsEdge h m = false → ∃ q, e.latches h m = d.latches h m ++ [q] ∧ q.dt20 = dt20 ∧ q.ts = d.now ∧ q.rising = true ∧ q.confirmed = decide (src ≥ 32) ∧
    q.dcnt = d.countsSince h (d.get (ctl .pos h) POS.LAT_CFG_CAR m)

theorem EdgeTaken.kept {h : HalfId} {m src dt20 : Nat} {d e x : Dev} (hd : EdgeTaken h m src dt20 d e) (s : UnitKept h m e x) : EdgeTaken h m src dt20 d x :=
  ⟨fun hh => ⟨by rw [on, s.ovr]; exact (hd.ignored hh).1, s.edges.trans (hd.ignored hh).2⟩, fun hh => by rw [s.edges]; exact hd.taken hh⟩

theorem EdgeTaken.before {h : HalfId} {m src dt20 : Nat} {d e x : Dev} (s : UnitKept h m d e) (he : EdgeTaken h m src dt20 e x) : EdgeTaken h m src dt20 d x := by
  have hnow : e.now = d.now := by rw [now, get64, s.place _ _ _ (by decide) (by decide), s.place _ _ _ (by decide) (by decide), now, get64]
  have hcar : e.get (ctl .pos h) POS.LAT_CFG_CAR m = d.get (ctl .pos h) POS.LAT_CFG_CAR m := s.place _ _ _ (by decide) (by decide)
  have hcount (n : Nat) : e.countsSince h n = d.countsSince h n := by
    have hgets (f : Fld) (i : Nat) (h1 : f.lo ≠ 1) (h2 : f.lo < 32) : e.get (ctl .pos h) f i = d.get (ctl .pos h) f i := s.place _ _ _ h1 h2
    rw [countsSince, encLive, encCnt, s.enc, hgets POS.CAR_CFG_ENC n (by decide) (by decide), hgets POS.ENC_CNT_COUNT _ (by decide) (by decide), countsSince, encLive, encCnt]
  obtain ⟨hign, htak⟩ := he
  rw [holdsEdge_kept s, s.edges] at hign htak
  rw [hnow, hcar, hcount] at htak
  exact ⟨hign, htak⟩

theorem latchEdge_taken {d : Dev} {h : HalfId} {m src : Nat} (hm : m < 16) (hd : Selects h m src d) (dt20 no : Nat) :
    EdgeTaken h m src dt20 d (d.latchEdge h m src true dt20 no) := by
  obtain ⟨hpage, hen, hsrc, hedge, hlen⟩ := hd
  have hsel : (d.enabled (ctl .pos h) && d.on (ctl .pos h) POS.LAT_CFG_EN m && d.get (ctl .pos h) POS.LAT_CFG_SRC m == src &&
      (if true = true then d.get (ctl .pos h) POS.LAT_CFG_EDGE m % 2 == 1 else d.get (ctl .pos h) POS.LAT_CFG_EDGE m / 2 == 1)) = true := by
    simp [hpage, hen, hsrc, hedge]
  unfold latchEdge
  rw [if_pos hsel, ← holdsEdge]
  cases hh : d.holdsEdge h m with
  | true =>
    rw [if_pos rfl]
    refine ⟨fun _ => ⟨?_, latches_of_half (half_put ..) m⟩, fun hno => absurd hno (by rw [hh]; decide)⟩
    rw [on, get_put_same _ _ _ _ _ _ (by decide)]
    rfl
  | false =>
    rw [if_neg (by decide)]
    refine ⟨fun hyes => absurd hyes (by rw [hh]; decide), fun _ => ?_⟩
    rw [latches_setLatches _ _ _ (by omega), if_pos rfl]
    exact ⟨_, rfl, rfl, rfl, rfl, rfl, rfl⟩

theorem length_latchEdge (d : Dev) (h : HalfId) (m src : Nat) (rising : Bool) (dt20 no : Nat) :
    ((d.latchEdge h m src rising dt20 no).half h).pos.latches.length = (d.half h).pos.latches.length := by
  have hite {c : Prop} [Decidable c] {x y : Dev} (hx : (x.half h).pos.latches.length = (d.half h).pos.latches.length)
      (hy : (y.half h).pos.latches.length = (d.half h).pos.latches.length) : ((if c then x else y).half h).pos.latches.length = (d.half h).pos.latches.length := by
    split
    · exact hx
    · exact hy
  unfold latchEdge
  exact hite (hite (by rw [half_put]) (length_setLatches ..)) rfl

theorem rawEdge_taken {d : Dev} {h : HalfId} {m src : Nat} (hm : m < 16) (hd : Selects h m src d) (dt20 : Nat) :
    EdgeTaken h m src dt20 d (d.rawEdge h src true dt20) := by
  have hother (x : Dev) (k : Nat) (hk : k ∈ List.range 16) (hkm : k ≠ m) (s : UnitKept h m d x) :
      UnitKept h m x (x.latchEdge h k src true dt20 (d.half h).pos.rawNo) :=
    .latchEdge hm (List.mem_range.mp hk) (fun he => hkm (Prod.mk.inj he).2) (fun _ => s.units.trans hd.units) _ _ _ _
  have hlen {x : Dev} {k : Nat} (hx : (x.half h).pos.latches.length = 16) : ((x.latchEdge h k src true dt20 (d.half h).pos.rawNo).half h).pos.latches.length = 16 :=
    (length_latchEdge ..).trans hx
  have hall : EdgeTaken h m src dt20 d (d.edgeAll h src true dt20) ∧ ((d.edgeAll h src true dt20).half h).pos.latches.length = 16 :=
    foldl_hit (P := UnitKept h m d) (Q := fun x => EdgeTaken h m src dt20 d x ∧ (x.half h).pos.latches.length = 16) (a := m) _ d
      (fun x k hk hkm s => s.trans (hother x k hk hkm s)) (fun x s => ⟨.before s (latchEdge_taken hm (hd.kept s) _ _), hlen (s.units.trans hd.units)⟩)
      (fun x k hk hkm s => ⟨s.1.kept (.latchEdge hm (List.mem_range.mp hk) (fun he => hkm (Prod.mk.inj he).2) (fun _ => s.2) _ _ _ _), hlen s.2⟩)
      (List.mem_range.mpr hm) List.nodup_range (.refl h m d)
  rw [rawEdge_eq]
  exact hall.1.kept (UnitKept.numbered (.refl ..) ..)

/-! ### The level that an edge leads to -/

/-- A raw level of a DIN channel reaches no latch unit. -/
theorem dinChange_unit (d : Dev) (n : Nat) (lvl : Bool) :
    (∀ h, ((d.dinChange n lvl).half h).pos = (d.half h).pos) ∧ ∀ h, ∀ m < 16, (d.dinChange n lvl).get (ctl .pos h) POS.LAT_STAT_OVR m = d.get (ctl .pos h) POS.LAT_STAT_OVR m := by
  by_cases hgo : d.fio.held = false ∧ d.enabled (shp .din) = true
  · obtain ⟨-, hpos, hget⟩ := d.dinChange_lines n lvl hgo.1 hgo.2
    exact ⟨hpos, fun h m hm => hget h POS.LAT_STAT_OVR (by decide) m hm⟩
  · unfold dinChange
    extract_lets p was src d1 d2
    have hen : d1.enabled p = d.enabled p := get_put_apart _ _ (by decide) (by decide) (by decide) (by decide) (by decide) (by decide) (by decide) |> congrArg (· == 1)
    rw [if_pos (by rw [hen]; show (d.fio.held || !d.enabled (shp .din)) = true; revert hgo; cases d.fio.held <;> cases d.enabled (shp .din) <;> decide)]
    exact ⟨fun h => by cases h <;> rfl, fun h m hm => get_put_din _ _ h (by decide) (by decide) (by decide) hm⟩

theorem dinRaw_unit (d : Dev) (n : Nat) (lvl : Bool) :
    (∀ h, ((d.dinRaw n lvl).half h).pos = (d.half h).pos) ∧ ∀ h, ∀ m < 16, (d.dinRaw n lvl).get (ctl .pos h) POS.LAT_STAT_OVR m = d.get (ctl .pos h) POS.LAT_STAT_OVR m := by
  unfold dinRaw
  split
  · exact d.dinChange_unit n lvl
  · exact ⟨fun h => by cases h <;> rfl, fun h m hm => get_put_din _ _ h (by decide) (by decide) (by decide) hm⟩

theorem EdgeTaken.dinRaw {h : HalfId} {m src dt20 : Nat} {d e : Dev} (hm : m < 16) (s : EdgeTaken h m src dt20 d e) (n : Nat) (lvl : Bool) :
    EdgeTaken h m src dt20 d (e.dinRaw n lvl) := by
  obtain ⟨hpos, hovr⟩ := e.dinRaw_unit n lvl
  have hl : (e.dinRaw n lvl).latches h m = e.latches h m := by rw [latches, hpos, latches]
  refine ⟨fun hh => ⟨?_, hl.trans (s.ignored hh).2⟩, fun hh => by rw [hl]; exact s.taken hh⟩
  rw [on, hovr h m hm]
  exact (s.ignored hh).1

theorem latchTake_taken {d : Dev} {h : HalfId} {m src : Nat} (hm : m < 16) (hd : Selects h m src d) (hheld : src < 32 → d.fio.held = false) (dt20 : Nat) :
    EdgeTaken h m src dt20 d (d.latchTake src true dt20) := by
  have hboth : EdgeTaken h m src dt20 d (d.both fun d h => d.rawEdge h src true dt20) := by
    rw [both]
    cases h with
    | a => exact (rawEdge_taken hm hd dt20).kept (rawEdge_other _ hm (by decide) _ _ _)
    | b => exact .before (d.rawEdge_other hm (by decide) _ _ _) (rawEdge_taken hm (hd.kept (d.rawEdge_other hm (by decide) _ _ _)) dt20)
  unfold latchTake
  extract_lets d1
  have h1 : d1 = d.both fun d h => d.rawEdge h src true dt20 :=
    if_neg fun he => by
      rw [Bool.and_eq_true, decide_eq_true_eq] at he
      exact absurd (hheld he.1) (by rw [he.2]; decide)
  rw [h1]
  split
  · exact EdgeTaken.dinRaw hm hboth _ _
  · exact hboth

end Dev

end Sys2Proof.Machine
end

section
/-! PROOFS. The door-zone check, the learning run and what O19 says of the latches. -/
namespace Sys2Proof.Machine

open Sys2Proof

namespace Dev

section
variable {d : Dev} {h : HalfId} {n : Nat}

/-! ### A vane edge at its car -/

/-- A car takes an edge of its vane. -/
def dzCar (h : HalfId) (src : Nat) (entering : Bool) (dt20 : Nat) (d : Dev) (n : Nat) : Dev :=
  if d.enabled (ctl .pos h) && d.on (ctl .pos h) POS.CAR_CFG_DZ_EN n && d.get (ctl .pos h) POS.CAR_CFG_DZ_SRC n == src && d.carEn h n then
    d.vaneEdge h ⟨false, n, entering, d.countsSince h n, dt20⟩
  else d

/-- The edge that a car takes. -/
def vane (d : Dev) (h : HalfId) (n : Nat) (entering : Bool) (dt20 : Nat) : EdgePend := ⟨false, n, entering, d.countsSince h n, dt20⟩

/-- The one car whose check is in use takes the edge. -/
theorem dzEdge_car {src : Nat} (hn : n < 4) (hen : d.enabled (ctl .pos h) = true) (hdz : d.on (ctl .pos h) POS.CAR_CFG_DZ_EN n = true)
    (hsrc : d.get (ctl .pos h) POS.CAR_CFG_DZ_SRC n = src) (hcar : d.carEn h n = true)
    (hoff : ∀ m < 4, m ≠ n → d.on (ctl .pos h) POS.CAR_CFG_DZ_EN m = false) (entering : Bool) (dt20 : Nat)
    (hkept : ∀ m < 4, (d.vaneEdge h (d.vane h n entering dt20)).on (ctl .pos h) POS.CAR_CFG_DZ_EN m = d.on (ctl .pos h) POS.CAR_CFG_DZ_EN m) :
    d.dzEdge h src entering dt20 = d.vaneEdge h (d.vane h n entering dt20) := by
  have hpass {x : Dev} {m : Nat} (hx : x.on (ctl .pos h) POS.CAR_CFG_DZ_EN m = false) : dzCar h src entering dt20 x m = x := if_neg (by rw [hx]; simp)
  have hgo : dzCar h src entering dt20 d n = d.vaneEdge h (d.vane h n entering dt20) := if_pos (by rw [hen, hdz, hsrc, hcar]; simp)
  show (List.range 4).foldl (dzCar h src entering dt20) d = _
  refine foldl_hit (P := fun x => x = d) (Q := fun x => x = d.vaneEdge h (d.vane h n entering dt20)) (a := n) _ _ ?_ (fun x hx => by rw [hx, hgo]) ?_
    (List.mem_range.mpr hn) List.nodup_range rfl
  · intro x m hm hmn hx
    rw [hx, hpass (hoff m (List.mem_range.mp hm) hmn)]
  · intro x m hm hmn hx
    rw [hx, hpass ((hkept m (List.mem_range.mp hm)).trans (hoff m (List.mem_range.mp hm) hmn))]

theorem vaneEdge_waits {e : EdgePend} (hf : (d.half h).pos.fused = false) :
    ((d.vaneEdge h e).half h).pos.edges = (d.half h).pos.edges ++ [e] ∧ (d.vaneEdge h e).regs = d.regs := by
  rw [vaneEdge, if_neg (by rw [hf]; decide), half_modHalf_same]
  exact ⟨rfl, by cases h <;> rfl⟩

theorem vaneEdge_checks {e : EdgePend} (hf : (d.half h).pos.fused = true) (hl : e.lrn = false) : d.vaneEdge h e = d.dzCheck h e := by
  rw [vaneEdge, if_pos hf, vaneDo, if_neg (by rw [hl]; decide)]

/-! ### The check of an edge -/

/-- The vane of the landing nearest an edge, at the end that the edge is of. -/
def wantOf (d : Dev) (h : HalfId) (n : Nat) (x : Int) (entering : Bool) : Int :=
  if decide (0 ≤ d.carV h n) == entering then d.geti (ctl .pos h) POS.LT_POS_UM 0 (d.nearest h x) - d.get (ctl .pos h) POS.LT_DZB_UM 0 (d.nearest h x)
  else d.geti (ctl .pos h) POS.LT_POS_UM 0 (d.nearest h x) + d.get (ctl .pos h) POS.LT_DZA_UM 0 (d.nearest h x)

/-- A vane edge out of its place is reported. -/
def mismatch (d : Dev) (h : HalfId) (n : Nat) (x want : Int) : Dev :=
  ((d.err (ctl .pos h) cDZ_MISMATCH n).note (ctl .pos h) clsFault cDZ_MISMATCH n [encS 32 x, encS 32 want]).stat (ctl .pos h) 10

theorem dzCheck_eq {e : EdgePend} (hl : d.nearest h (d.edgeAt h e) < d.get (ctl .pos h) POS.LT_CFG_COUNT) :
    d.dzCheck h e = if (d.edgeAt h e - d.wantOf h e.car (d.edgeAt h e) e.entering).natAbs > d.get (ctl .pos h) POS.LT_TOL_DZ then
      d.mismatch h e.car (d.edgeAt h e) (d.wantOf h e.car (d.edgeAt h e) e.entering) else d := by
  unfold dzCheck
  extract_lets p n x l up want
  rw [if_neg (by simpa using hl)]
  rfl

theorem get_mismatch (d : Dev) (h : HalfId) (n : Nat) (x want : Int) {f : Fld} {i : Nat} (he : ∀ g ∈ errFields, g.apart f = true) (hs : HDR.STAT_BLOCK.apart f = true)
    (hf : f.fits = true) (hi : i < f.cnt) : (d.mismatch h n x want).get (ctl .pos h) f i = d.get (ctl .pos h) f i := by
  rw [mismatch, get_stat_apart _ _ hs hf hi (by decide), get_note_other _ _ _ _ _ (ctlPos_ne_slt h) hf hi (by decide), get_err_apart _ _ _ he hf hi (by decide)]

theorem mismatch_shows (d : Dev) (h : HalfId) {n : Nat} (hn : n < 4) (x want : Int) :
    (d.mismatch h n x want).get (ctl .pos h) HDR.ERR_CODE = cDZ_MISMATCH ∧ (d.mismatch h n x want).carX h n = d.carX h n ∧
    d.keeps (d.mismatch h n x want) [ctl .pos h, shp .slt] := by
  refine ⟨?_, ?_, ?_⟩
  · rw [mismatch, get_stat_apart _ _ (by decide) (by decide) (by decide) (by decide), get_note_other _ _ _ _ _ (ctlPos_ne_slt h) (by decide) (by decide) (by decide), get_err_code]
    rfl
  · rw [carX, geti, get_mismatch _ _ _ _ _ (by decide) (by decide) (by decide) hn, carX, geti]
  · exact (keeps_stat_iff (by simp)).mpr ((keeps_note_iff (by simp)).mpr ((keeps_err_iff (by simp)).mpr (keeps_refl d _)))

/-! ### The learning run -/

/-- An entry of the buffer is cleared. -/
def clearEntry (h : HalfId) (d : Dev) (i : Nat) : Dev := (d.put (ctl .pos h) POS.LRN_LO_UM 0 0 i).put (ctl .pos h) POS.LRN_HI_UM 0 0 i

theorem get_clearEntry (h : HalfId) (d : Dev) {i : Nat} (hi : i < 65536) {f : Fld} (hlo : POS.LRN_LO_UM.apart f = true) (hhi : POS.LRN_HI_UM.apart f = true)
    (hf : f.fits = true) (hc : 0 < f.cnt) : (clearEntry h d i).get (ctl .pos h) f = d.get (ctl .pos h) f := by
  rw [clearEntry, get_put_apart _ _ hhi (by decide) hf (by decide) hc hi (by decide), get_put_apart _ _ hlo (by decide) hf (by decide) hc hi (by decide)]

/-- A run begins. -/
def runBegun (d : Dev) (h : HalfId) (n src : Nat) : Dev :=
  ((((d.put (ctl .pos h) POS.LRN_CTRL_CAR n).put (ctl .pos h) POS.LRN_CTRL_SRC src).put (ctl .pos h) POS.LRN_CTRL_RUN 1).put (ctl .pos h) POS.LRN_STAT_COUNT 0).put (ctl .pos h)
    POS.LRN_STAT_RESULT 1

theorem lrnStart_eq {src : Nat} (hen : d.enabled (ctl .pos h) = true) (hrun : d.on (ctl .pos h) POS.LRN_CTRL_RUN = false) (hn : n < 4) (hst : d.posState h n = 2) :
    d.lrnStart h n src = (List.range 256).foldl (clearEntry h) (d.runBegun h n src) := by
  unfold lrnStart
  extract_lets p d1
  have hkept {f : Fld} {i : Nat} (hcar : POS.LRN_CTRL_CAR.apart f = true) (hsrc : POS.LRN_CTRL_SRC.apart f = true) (hf : f.fits = true) (hi : i < f.cnt) :
      d1.get p f i = d.get p f i := by
    rw [get_put_apart _ _ hsrc (by decide) hf (by decide) hi (by decide) (by decide), get_put_apart _ _ hcar (by decide) hf (by decide) hi (by decide) (by decide)]
  have hrun1 : d1.on p POS.LRN_CTRL_RUN = false := by
    rw [on, hkept (by decide) (by decide) (by decide) (by decide)]
    exact hrun
  have hen1 : d1.enabled p = true := by
    rw [enabled, on, hkept (by decide) (by decide) (by decide) (by decide)]
    exact hen
  have hst1 : d1.posState h n = 2 := (hkept (by decide) (by decide) (by decide) hn).trans hst
  rw [if_neg (by rw [hrun1]; decide), if_pos (by rw [hen1, hst1]; decide)]
  rfl

theorem lrnStart_shows {src : Nat} (hen : d.enabled (ctl .pos h) = true) (hrun : d.on (ctl .pos h) POS.LRN_CTRL_RUN = false) (hn : n < 4) (hsrc : src < 32)
    (hst : d.posState h n = 2) :
    (d.lrnStart h n src).get (ctl .pos h) POS.LRN_CTRL_RUN = 1 ∧ (d.lrnStart h n src).get (ctl .pos h) POS.LRN_CTRL_CAR = n ∧
    (d.lrnStart h n src).get (ctl .pos h) POS.LRN_CTRL_SRC = src ∧ (d.lrnStart h n src).get (ctl .pos h) POS.LRN_STAT_COUNT = 0 ∧
    (d.lrnStart h n src).get (ctl .pos h) POS.LRN_STAT_RESULT = 1 ∧ d.keeps (d.lrnStart h n src) [ctl .pos h] := by
  rw [lrnStart_eq hen hrun hn hst]
  have hkept {f : Fld} (hlo : POS.LRN_LO_UM.apart f = true) (hhi : POS.LRN_HI_UM.apart f = true) (hf : f.fits = true) (hc : 0 < f.cnt) :
      ((List.range 256).foldl (clearEntry h) (d.runBegun h n src)).get (ctl .pos h) f = (d.runBegun h n src).get (ctl .pos h) f :=
    foldl_off (g := fun x => x.get (ctl .pos h) f) _ _ fun x i hi => get_clearEntry h x (by have := List.mem_range.mp hi; omega) hlo hhi hf hc
  refine ⟨?_, ?_, ?_, ?_, ?_, ?_⟩
  · rw [hkept (by decide) (by decide) (by decide) (by decide), runBegun, get_put_apart _ _ (by decide) (by decide) (by decide) (by decide) (by decide) (by decide) (by decide),
      get_put_apart _ _ (by decide) (by decide) (by decide) (by decide) (by decide) (by decide) (by decide), get_put_same _ _ _ _ _ _ (by decide)]
    rfl
  · rw [hkept (by decide) (by decide) (by decide) (by decide), runBegun, get_put_apart _ _ (by decide) (by decide) (by decide) (by decide) (by decide) (by decide) (by decide),
      get_put_apart _ _ (by decide) (by decide) (by decide) (by decide) (by decide) (by decide) (by decide),
      get_put_apart _ _ (by decide) (by decide) (by decide) (by decide) (by decide) (by decide) (by decide),
      get_put_apart _ _ (by decide) (by decide) (by decide) (by decide) (by decide) (by decide) (by decide), get_put_same _ _ _ _ _ _ (by decide)]
    exact Nat.mod_eq_of_lt hn
  · rw [hkept (by decide) (by decide) (by decide) (by decide), runBegun, get_put_apart _ _ (by decide) (by decide) (by decide) (by decide) (by decide) (by decide) (by decide),
      get_put_apart _ _ (by decide) (by decide) (by decide) (by decide) (by decide) (by decide) (by decide),
      get_put_apart _ _ (by decide) (by decide) (by decide) (by decide) (by decide) (by decide) (by decide), get_put_same _ _ _ _ _ _ (by decide)]
    exact Nat.mod_eq_of_lt hsrc
  · rw [hkept (by decide) (by decide) (by decide) (by decide), runBegun, get_put_apart _ _ (by decide) (by decide) (by decide) (by decide) (by decide) (by decide) (by decide),
      get_put_same _ _ _ _ _ _ (by decide)]
    rfl
  · rw [hkept (by decide) (by decide) (by decide) (by decide), runBegun, get_put_same _ _ _ _ _ _ (by decide)]
    rfl
  · refine foldl_keep (P := fun x => d.keeps x [ctl .pos h]) _ _ (fun x i hi hx => ?_) ?_
    · have hi : i < 65536 := by have := List.mem_range.mp hi; omega
      exact (keeps_put_iff (by simp) (by decide) (by decide) hi).mpr ((keeps_put_iff (by simp) (by decide) (by decide) hi).mpr hx)
    · simp (disch := decide) only [runBegun, keeps_put_iff (List.mem_singleton.mpr rfl)]
      exact keeps_refl d _

theorem lrnEnd_shows (hrun : d.on (ctl .pos h) POS.LRN_CTRL_RUN = true) :
    (d.lrnEnd h 2).get (ctl .pos h) POS.LRN_CTRL_RUN = 0 ∧ (d.lrnEnd h 2).get (ctl .pos h) POS.LRN_STAT_RESULT = 2 ∧ d.keeps (d.lrnEnd h 2) [ctl .pos h] := by
  rw [show d.lrnEnd h 2 = ((d.put (ctl .pos h) POS.LRN_CTRL_RUN 0).put (ctl .pos h) POS.LRN_STAT_RESULT 2).stat (ctl .pos h) 9 from if_pos hrun]
  refine ⟨?_, ?_, ?_⟩
  · rw [get_stat_apart _ _ (by decide) (by decide) (by decide) (by decide), get_put_apart _ _ (by decide) (by decide) (by decide) (by decide) (by decide) (by decide) (by decide),
      get_put_same _ _ _ _ _ _ (by decide)]
    rfl
  · rw [get_stat_apart _ _ (by decide) (by decide) (by decide) (by decide), get_put_same _ _ _ _ _ _ (by decide)]
    rfl
  · exact (keeps_stat_iff (by simp)).mpr ((keeps_put_iff (by simp) (by decide) (by decide) (by decide)).mpr
      ((keeps_put_iff (by simp) (by decide) (by decide) (by decide)).mpr (keeps_refl d _)))

/-- The edge that the run learns. -/
def learned (d : Dev) (h : HalfId) (dt20 : Nat) : EdgePend :=
  ⟨true, d.get (ctl .pos h) POS.LRN_CTRL_CAR, true, d.countsSince h (d.get (ctl .pos h) POS.LRN_CTRL_CAR), dt20⟩

theorem lrnEdge_stores {src : Nat} (hrun : d.on (ctl .pos h) POS.LRN_CTRL_RUN = true) (hc : d.get (ctl .pos h) POS.LRN_STAT_COUNT < 256)
    (hsrc : d.get (ctl .pos h) POS.LRN_CTRL_SRC = src) (hf : (d.half h).pos.fused = true) (dt20 : Nat) :
    d.lrnEdge h src true dt20 = (d.puti (ctl .pos h) POS.LRN_LO_UM (d.edgeAt h (d.learned h dt20)) 0 (d.get (ctl .pos h) POS.LRN_STAT_COUNT)).put (ctl .pos h)
      POS.LRN_STAT_COUNT (d.get (ctl .pos h) POS.LRN_STAT_COUNT + 1) := by
  unfold lrnEdge
  extract_lets p n
  rw [if_pos (by rw [hrun, hsrc]; simp), vaneEdge, if_pos hf, vaneDo, if_pos rfl]
  unfold lrnStore
  extract_lets c
  rw [if_neg (by rw [hrun]; decide), if_pos rfl, if_neg (show ¬ d.get (ctl .pos h) POS.LRN_STAT_COUNT ≥ 256 by omega)]
  rfl

end

end Dev

/-! ### What O19 says -/

section
variable {s : State} (hout : s.out = true)
include hout

theorem switchChange_reaches (h : HalfId) (m : Fin 16) (level : Bool) (hsrc : s.dev.on (ctl .pos h) POS.SW_SRCK m = false)
    (hkind : s.dev.get (ctl .pos h) POS.SW_KIND m ≠ 0) (hen : s.dev.enabled (shp .din) = true) (hheld : s.dev.fio.held = false) :
    ∃ t, exec (.switchChange h m level) s = .next t ∧ t.pending = s.pending ∧
      (bitN (t.dev.get (ctl .pos h) POS.SW_STATE_ACT) m = 1 ↔ level = s.dev.on (ctl .pos h) POS.SW_POL m) ∧
      bitN t.dev.fio.lines (s.dev.get (ctl .pos h) POS.SW_SRC m) = level.toNat ∧ t.dev.memories = s.dev.memories := by
  obtain ⟨hbit, hline⟩ := Dev.switchChange_shows _ _ m.isLt level hsrc hkind hen hheld
  exact ⟨_, onDev_out (fun d => d.switchChange h m level) hout, rfl, hbit, hline, Dev.memories_of_frame (Dev.frame_switchChange ..)⟩

theorem latchConfirm_marks (h : HalfId) (m : Fin 16) (src : Fin 32) (up : Bool) (hlen : (s.dev.half h).pos.latches.length = 16)
    (hsrc : s.dev.get (ctl .pos h) POS.LAT_CFG_SRC m = src.val) :
    ∃ t, exec (.latchConfirm src up) s = .next t ∧ t.pending = s.pending ∧
      t.dev.latches h m = (s.dev.latches h m).map (fun q => if q.rising == up then { q with confirmed := true } else q) ∧ t.dev.regs = s.dev.regs := by
  obtain ⟨hmap, hregs⟩ := s.dev.latchKeep_both m.isLt up hlen hsrc
  rw [show exec (.latchConfirm src up) s = execLatchConfirm src up s from rfl, execLatchConfirm, onDev_out _ hout]
  refine ⟨_, rfl, rfl, ?_, hregs⟩
  dsimp only
  rw [hmap]

theorem rawEdge_waits (h : HalfId) (m : Fin 16) (src : Fin 36) (dt20 : Nat) (hd : Dev.Selects h m src s.dev) (hheld : src.val < 32 → s.dev.fio.held = false) :
    (s.dev.on (ctl .pos h) POS.LAT_STAT_FULL m = true → s.dev.on (ctl .pos h) POS.LAT_CFG_CONT m = false →
      ∃ t, exec (.latchEdge src true dt20) s = .next t ∧ t.pending = s.pending ∧ t.dev.on (ctl .pos h) POS.LAT_STAT_OVR m = true ∧
        t.dev.latches h m = s.dev.latches h m) ∧
    (s.dev.on (ctl .pos h) POS.LAT_STAT_FULL m = false ∨ s.dev.on (ctl .pos h) POS.LAT_CFG_CONT m = true →
      ∃ t, exec (.latchEdge src true dt20) s = .next t ∧ t.pending = s.pending ∧
        ∃ q, t.dev.latches h m = s.dev.latches h m ++ [q] ∧ q.dt20 = dt20 ∧ q.ts = s.dev.now ∧ q.rising = true ∧ q.confirmed = decide (src.val ≥ 32) ∧
          q.dcnt = s.dev.countsSince h (s.dev.get (ctl .pos h) POS.LAT_CFG_CAR m)) := by
  obtain ⟨hign, htak⟩ := Dev.latchTake_taken m.isLt hd hheld dt20
  have hrun := onDev_out (fun d => d.latchTake src true dt20) hout
  refine ⟨fun hfull hcont => ⟨_, hrun, rfl, hign (by rw [Dev.holdsEdge, hfull, hcont]; rfl)⟩, fun hfree => ⟨_, hrun, rfl, htak ?_⟩⟩
  rcases hfree with hfull | hcont
  · rw [Dev.holdsEdge, hfull, Bool.false_and]
  · rw [Dev.holdsEdge, hcont, Bool.not_true, Bool.and_false]

theorem latchArm_clears (h : HalfId) (m : Fin 16) : ∃ t, exec (.latchArm h m) s = .next t ∧ t.pending = s.pending ∧
    t.dev.get (ctl .pos h) POS.LAT_STAT_FULL m = 0 ∧ t.dev.get (ctl .pos h) POS.LAT_STAT_OVR m = 0 ∧ s.dev.keeps t.dev [ctl .pos h] := by
  refine ⟨_, onDev_out (fun d => d.latchArm h m) hout, rfl, ?_, ?_, ?_⟩
  · rw [Dev.latchArm, Dev.get_put_apart _ _ (by decide) (by decide) (by decide) m.isLt m.isLt (by decide) (by decide), Dev.get_put_same _ _ _ _ _ _ (by decide)]
    rfl
  · rw [Dev.latchArm, Dev.get_put_same _ _ _ _ _ _ (by decide)]
    rfl
  · exact (Dev.keeps_put_iff (by simp) (by decide) m.isLt (by decide)).mpr ((Dev.keeps_put_iff (by simp) (by decide) m.isLt (by decide)).mpr (Dev.keeps_refl _ _))

theorem dzEdge_checks (h : HalfId) (n : Fin 4) (src : Fin 32) (entering : Bool) (dt20 : Nat) (hen : s.dev.enabled (ctl .pos h) = true)
    (hdz : s.dev.on (ctl .pos h) POS.CAR_CFG_DZ_EN n = true) (hsrc : s.dev.get (ctl .pos h) POS.CAR_CFG_DZ_SRC n = src.val) (hcar : s.dev.carEn h n = true)
    (hoff : ∀ m : Fin 4, m ≠ n → s.dev.on (ctl .pos h) POS.CAR_CFG_DZ_EN m = false) :
    let e := s.dev.vane h n entering dt20
    let x := s.dev.edgeAt h e
    let l := s.dev.nearest h x
    let want := s.dev.wantOf h n x entering
    ((s.dev.half h).pos.fused = false → ∃ t, exec (.dzEdge h src entering dt20) s = .next t ∧ t.pending = s.pending ∧
      (t.dev.half h).pos.edges = (s.dev.half h).pos.edges ++ [e] ∧ t.dev.regs = s.dev.regs) ∧
    ((s.dev.half h).pos.fused = true → l < s.dev.get (ctl .pos h) POS.LT_CFG_COUNT →
      ((x - want).natAbs > s.dev.get (ctl .pos h) POS.LT_TOL_DZ →
        ∃ t, exec (.dzEdge h src entering dt20) s = .next t ∧ t.pending = s.pending ∧ t.dev.get (ctl .pos h) HDR.ERR_CODE = cDZ_MISMATCH ∧
          t.dev = s.dev.mismatch h n x want ∧ t.dev.carX h n = s.dev.carX h n ∧ s.dev.keeps t.dev [ctl .pos h, shp .slt]) ∧
      ((x - want).natAbs ≤ s.dev.get (ctl .pos h) POS.LT_TOL_DZ → exec (.dzEdge h src entering dt20) s = .next s)) := by
  intro e x l want
  have hoff' (m : Nat) (hm : m < 4) (hmn : m ≠ n) : s.dev.on (ctl .pos h) POS.CAR_CFG_DZ_EN m = false := hoff ⟨m, hm⟩ fun he => hmn (congrArg Fin.val he)
  have hedge := Dev.dzEdge_car n.isLt hen hdz hsrc hcar hoff' entering dt20
  have hrun := onDev_out (fun d => d.dzEdge h src entering dt20) hout
  refine ⟨fun hf => ?_, fun hf hl => ?_⟩
  · obtain ⟨hedges, hregs⟩ := Dev.vaneEdge_waits (e := e) hf
    have hd := hedge fun m _ => congrArg (· == 1) (Dev.get_congr hregs ..)
    exact ⟨_, hrun, rfl, by rw [hd]; exact hedges, by rw [hd]; exact hregs⟩
  · have hcheck : s.dev.vaneEdge h e = if (x - want).natAbs > s.dev.get (ctl .pos h) POS.LT_TOL_DZ then s.dev.mismatch h n x want else s.dev :=
      (Dev.vaneEdge_checks hf rfl).trans (Dev.dzCheck_eq hl)
    refine ⟨fun hfar => ?_, fun hnear => ?_⟩
    · rw [if_pos hfar] at hcheck
      have hd := hedge fun m hm => by
        rw [show s.dev.vane h n entering dt20 = e from rfl, hcheck, Dev.on, Dev.get_mismatch _ _ _ _ _ (by decide) (by decide) (by decide) hm, Dev.on]
      obtain ⟨hcode, hx, hk⟩ := s.dev.mismatch_shows h n.isLt x want
      have hd' : s.dev.dzEdge h src entering dt20 = s.dev.mismatch h n x want := hd.trans hcheck
      exact ⟨_, hrun, rfl, by rw [hd']; exact hcode, hd', by rw [hd']; exact hx, by rw [hd']; exact hk⟩
    · rw [if_neg (by omega)] at hcheck
      have hd := hedge fun m _ => by rw [show s.dev.vane h n entering dt20 = e from rfl, hcheck]
      have hd' : s.dev.dzEdge h src entering dt20 = s.dev := hd.trans hcheck
      refine hrun.trans ?_
      rw [hd']

theorem lrnEdge_learns (h : HalfId) (hrunning : s.dev.on (ctl .pos h) POS.LRN_CTRL_RUN = true) (src : Fin 32) (dt20 : Nat)
    (hc : s.dev.get (ctl .pos h) POS.LRN_STAT_COUNT < 256) (hsrc : s.dev.get (ctl .pos h) POS.LRN_CTRL_SRC = src.val) (hf : (s.dev.half h).pos.fused = true) :
    ∃ t, exec (.lrnEdge h ⟨src, true⟩ dt20) s = .next t ∧ t.pending = s.pending ∧
      t.dev.get (ctl .pos h) POS.LRN_STAT_COUNT = s.dev.get (ctl .pos h) POS.LRN_STAT_COUNT + 1 ∧
      t.dev.get (ctl .pos h) POS.LRN_LO_UM 0 (s.dev.get (ctl .pos h) POS.LRN_STAT_COUNT) = encS 32 (s.dev.edgeAt h (s.dev.learned h dt20)) % 2 ^ 32 ∧
      s.dev.keeps t.dev [ctl .pos h] := by
  have hrun := onDev_out (fun d => d.lrnEdge h src true dt20) hout
  rw [Dev.lrnEdge_stores hrunning hc hsrc hf] at hrun
  obtain ⟨c, hcc⟩ : ∃ c, c = s.dev.get (ctl .pos h) POS.LRN_STAT_COUNT := ⟨_, rfl⟩
  rw [← hcc] at hc hrun ⊢
  refine ⟨_, hrun, rfl, ?_, ?_, ?_⟩
  · rw [Dev.get_put_same _ _ _ _ _ _ (by decide)]
    exact Nat.mod_eq_of_lt (show c + 1 < 512 by omega)
  · rw [Dev.get_put_apart _ _ (by decide) (by decide) (by decide) (by decide) (by decide) (by decide) (by omega), Dev.puti, Dev.get_put_same _ _ _ _ _ _ (by decide)]
    rfl
  · exact (Dev.keeps_put_iff (by simp) (by decide) (by decide) (by decide)).mpr ((Dev.keeps_put_iff (by simp) (by decide) (by decide) (by omega)).mpr (Dev.keeps_refl _ _))

end

/-- Settles O19: one lemma for each kind of event. -/
theorem latchesAndLearningRun : Obligations.LatchesAndLearningRun := by
  unfold Obligations.LatchesAndLearningRun
  intro s hout
  refine ⟨switchChange_reaches hout, fun h m src up hlen hsrc => ⟨?_, fun no up' hr hq => ?_⟩, ?_, latchArm_clears hout, ?_, ?_, fun h hrun => ⟨?_, ?_⟩⟩
  · exact latchConfirm_marks hout h m src up hlen hsrc
  · obtain ⟨⟨hedges, hraws, hcode⟩, hk⟩ := Dev.latchBounced_both m.isLt hlen hr hq
    have hrun := onDev_out (fun d => d.both fun d h => d.latchBounced h src) hout
    exact ⟨_, hrun, rfl, hedges, hraws, hcode, hk⟩
  · intro h m src dt20 hpage hen hsrc hedge hlen hheld
    exact rawEdge_waits hout h m src dt20 ⟨hpage, hen, hsrc, hedge, hlen⟩ hheld
  · intro h n src entering dt20 hen hdz hsrc hcar hoff
    exact dzEdge_checks hout h n src entering dt20 hen hdz hsrc hcar hoff
  · intro h n src hen hrunning hst
    have hstart := Dev.lrnStart_shows hen hrunning n.isLt src.isLt hst
    have hrun := onDev_out (fun d => d.lrnStart h n src) hout
    exact ⟨_, hrun, rfl, hstart⟩
  · have hend := Dev.lrnEnd_shows hrun
    have hrun := onDev_out (fun d => d.lrnEnd h 2) hout
    exact ⟨_, hrun, rfl, hend⟩
  · exact fun src dt20 => lrnEdge_learns hout h hrun src dt20

end Sys2Proof.Machine
end

section
/-! PROOFS. Frames of the group ring: ports, relays and the duplicate rule (R375 to R377, R381). -/
namespace Sys2Proof.Machine

open Sys2Proof

namespace Dev

/-! ### Edits of some registers of some pages -/

/-- A part that differs from another in the registers named and in what posted records leave, in the pages of a list, and in no byte of memory. -/
structure Edit (ps : List Nat) (ws : List (Nat × Fld)) (d e : Dev) : Prop where
  keeps : d.keeps e ps
  get : ∀ (q : Nat) (f : Fld) (i : Nat), q ≠ shp .slt → clearOf ws q f = true → f.fits = true → i < f.cnt → e.get q f i = d.get q f i

namespace Edit

variable {ps qs : List Nat} {ws vs : List (Nat × Fld)} {d e x : Dev}

theorem refl (ps : List Nat) (ws : List (Nat × Fld)) (d : Dev) : Edit ps ws d d := ⟨keeps_refl d _, fun _ _ _ _ _ _ _ => rfl⟩

theorem trans (h : Edit ps ws d e) (g : Edit ps ws e x) : Edit ps ws d x :=
  ⟨keeps_trans h.keeps g.keeps, fun q f i hq hc hf hi => (g.get q f i hq hc hf hi).trans (h.get q f i hq hc hf hi)⟩

theorem mono (h : Edit ps ws d e) (hp : ∀ p ∈ ps, p ∈ qs) (hs : ∀ w ∈ ws, w ∈ vs) : Edit qs vs d e :=
  ⟨keeps_mono h.keeps hp, fun q f i hq hc hf hi => h.get q f i hq (List.all_eq_true.mpr fun w hw => List.all_eq_true.mp hc w (hs w hw)) hf hi⟩

theorem same (h : Edit ps ws d e) (hr : x.regs = e.regs) (hm : x.memories = e.memories) : Edit ps ws d x :=
  ⟨⟨hm.trans h.keeps.1, fun k hk => by rw [hr]; exact h.keeps.2 k hk⟩, fun q f i hq hc hf hi => (get_congr hr ..).trans (h.get q f i hq hc hf hi)⟩

theorem modGlk (h : Edit ps ws d e) (g : Glk → Glk) : Edit ps ws d (e.modGlk g) := h.same rfl rfl

theorem put (h : Edit ps ws d e) {p : Nat} {f : Fld} (hp : p ∈ ps) (hm : (p, f) ∈ ws) (hf : f.fits = true) {i : Nat} (hi : i < f.cnt) (v : Nat) : Edit ps ws d (e.put p f v i) := by
  refine ⟨(keeps_put_iff hp hf hi (by decide)).mpr h.keeps, fun q g j hq hc hg hj => ?_⟩
  rw [← h.get q g j hq hc hg hj]
  rcases Bool.or_eq_true_iff.mp (List.all_eq_true.mp hc _ hm) with hne | ha
  · exact get_put_other _ _ (by simpa using hne) hf hg hi hj (by decide) (by decide)
  · exact get_put_field _ _ ha hf hg hi hj (by decide) (by decide)

theorem err (h : Edit ps ws d e) {p : Nat} (hp : p ∈ ps) (hm : ∀ w ∈ errWs p, w ∈ ws) (code det : Nat) : Edit ps ws d (e.err p code det) :=
  ((h.put hp (hm (p, HDR.ERR_COUNT) (by simp [errWs])) (by decide) (by decide) _).put hp (hm (p, HDR.ERR_CODE) (by simp [errWs])) (by decide) (by decide) _).put hp
    (hm (p, HDR.ERR_DETAIL) (by simp [errWs])) (by decide) (by decide) _

theorem stat (h : Edit ps ws d e) {p : Nat} (hp : p ∈ ps) (hm : (p, HDR.STAT_BLOCK) ∈ ws) (k : Nat) : Edit ps ws d (e.stat p k) :=
  h.put hp hm (by decide) (by decide) _

theorem note (h : Edit ps ws d e) (hslt : shp .slt ∈ ps) (p cls code det : Nat) (words : List Nat) : Edit ps ws d (e.note p cls code det words) :=
  ⟨(keeps_note_iff hslt).mpr h.keeps, fun q g j hq hc hg hj => by rw [get_note_other _ _ _ _ _ hq hg hj (by decide), h.get q g j hq hc hg hj]⟩

theorem ite {c : Prop} [Decidable c] (h : c → Edit ps ws d e) (g : ¬ c → Edit ps ws d x) : Edit ps ws d (if c then e else x) := by
  split
  case isTrue hc => exact h hc
  case isFalse hc => exact g hc

theorem foldl {α : Type} {f : Dev → α → Dev} : ∀ (l : List α) (d : Dev), (∀ d, ∀ y ∈ l, Edit ps ws d (f d y)) → Edit ps ws d (l.foldl f d)
  | [], d, _ => refl ps ws d
  | y :: l, d, hf => (hf d y List.mem_cons_self).trans (foldl l _ fun d z hz => hf d z (List.mem_cons_of_mem _ hz))

end Edit

/-! ### A frame at a port -/

/-- The registers that show a frame dropped at a full queue. -/
def dropWs : List (Nat × Fld) := (shp .glk, GLK.QDROP_COUNT) :: errWs (shp .glk)

/-- The registers that the receipt of a frame moves besides. -/
def rxWs : List (Nat × Fld) := [(shp .glk, GLK.ERR_CNT_FCS), (shp .glk, GLK.DROP_OLD), (shp .glk, GLK.EPOCH_ROLE)]

section
variable (d : Dev)

theorem glkPort_edit (f : GFrame) : Edit [shp .glk] dropWs d (d.glkPort f) := by
  refine Edit.ite (fun _ => .refl ..) fun _ => Edit.ite (fun _ => ?_) fun _ => (Edit.refl ..).modGlk _
  exact ((Edit.refl _ _ d).put (by simp) List.mem_cons_self (by decide) (by decide) _).err (by simp) (fun w hw => List.mem_cons_of_mem _ hw) _ _

theorem glkPort_glk (f : GFrame) : ∃ o q, (d.glkPort f).glk = { d.glk with out := o, queue := q } := by
  unfold glkPort
  extract_lets p
  split
  · exact ⟨_, _, rfl⟩
  · split <;> exact ⟨_, _, rfl⟩

theorem glkPort_down (f : GFrame) (h : d.linkUp f.port = false) : d.glkPort f = d := by
  unfold glkPort
  exact if_pos (by rw [h]; rfl)

theorem glkPort_full (f : GFrame) (hup : d.linkUp f.port = true) (hfull : d.portFull f = true) : d.glkPort f = (d.bump (shp .glk) GLK.QDROP_COUNT).err (shp .glk) cGLK_QFULL f.port := by
  unfold glkPort
  extract_lets p
  rw [if_neg (by rw [hup]; decide), if_pos hfull]

theorem glkPort_sends (f : GFrame) (hup : d.linkUp f.port = true) (hroom : d.portFull f = false) :
    d.glkPort f = d.modGlk (fun g => { g with out := g.out ++ [f], queue := g.queue ++ [f] }) := by
  unfold glkPort
  extract_lets p
  rw [if_neg (by rw [hup]; decide), if_neg (by rw [hroom]; decide)]

/-! ### The receipt of a frame -/

/-- A link-local frame. -/
def nearTyp (t : Nat) : Bool := t == fDELAY_REQ || t == fDELAY_RESP

/-- A frame that this ring does not know. -/
def foreignHd (hd : GHdr) : Prop := hd.ver ≠ 1 ∨ hd.group.toNat ≠ d.get (shp .glk) GLK.GROUP_ID ∨ hd.typ.toNat = 0 ∨ hd.typ.toNat > 0xB

/-- A frame after its relay on the other port. -/
def relayed (port : Nat) (hd : GHdr) (msg : Option GMsg) (len : Nat) (nums : List Nat) : Dev :=
  if hd.hops = 0 ∨ nearTyp hd.typ.toNat = true then d else d.glkPort (relayFrame port hd msg len nums)

/-- A frame is entered as the newest of its source. -/
def entered (hd : GHdr) (n : GNode) : Dev :=
  let x := d.modNode hd.src.toNat (fun _ => { n with epoch := hd.epoch.toNat, active := hd.active })
  if !x.glkActive && n.joined && !n.mis && epochHigher hd.epoch.toNat (x.get (shp .glk) GLK.EPOCH_ROLE) then x.put (shp .glk) GLK.EPOCH_ROLE hd.epoch.toNat else x

variable {d} {port : Nat} {hd : GHdr} (msg : Option GMsg) (len : Nat) (nums : List Nat) (hon : d.glkOn = true) (hup : d.linkUp port = true)
include hon hup

theorem glkAccept_hcrc (hbad : hd.hcrcOk = false) :
    d.glkAccept port hd msg len nums = ((d.bump (shp .glk) GLK.DROP_FOREIGN).bump (shp .glk) GLK.ERR_CNT_HCRC, false) := by
  unfold glkAccept
  extract_lets p typ src near
  rw [if_neg (by rw [hon, hup]; decide), if_pos (by rw [hbad]; rfl)]

theorem glkAccept_foreign (hcrc : hd.hcrcOk = true) (hf : d.foreignHd hd) : d.glkAccept port hd msg len nums = (d.bump (shp .glk) GLK.DROP_FOREIGN, false) := by
  unfold glkAccept
  extract_lets p typ src near
  rw [if_neg (by rw [hon, hup]; decide), if_neg (by rw [hcrc]; decide)]
  exact if_pos hf

theorem glkAccept_own (hcrc : hd.hcrcOk = true) (hf : ¬ d.foreignHd hd) (hsrc : hd.src.toNat = d.ringPos) :
    d.glkAccept port hd msg len nums = (if hd.fcsOk then d else d.bump (shp .glk) GLK.ERR_CNT_FCS, false) := by
  unfold glkAccept
  extract_lets p typ src near
  rw [if_neg (by rw [hon, hup]; decide), if_neg (by rw [hcrc]; decide)]
  exact (if_neg hf).trans (if_pos hsrc)

/-- A frame of another module is relayed, and then taken by its check, its type and the duplicate rule. -/
theorem glkAccept_relayed (hcrc : hd.hcrcOk = true) (hf : ¬ d.foreignHd hd) (hsrc : hd.src.toNat ≠ d.ringPos) :
    d.glkAccept port hd msg len nums =
      let x := d.relayed port hd msg len nums
      if !hd.fcsOk then (x.bump (shp .glk) GLK.ERR_CNT_FCS, false)
      else if nearTyp hd.typ.toNat then (x, true)
      else if hd.src.toNat > 17 then (x, false)
      else match (x.node hd.src.toNat).accept hd.seq.toNat with
        | (some n, _) => (x.entered hd n, hd.typ.toNat == fHELLO || (n.joined && !n.mis))
        | (none, old) => (if old then x.bump (shp .glk) GLK.DROP_OLD else x, false) := by
  unfold glkAccept
  extract_lets p typ src near
  rw [if_neg (by rw [hon, hup]; decide), if_neg (by rw [hcrc]; decide)]
  refine (if_neg hf).trans ((if_neg hsrc).trans ?_)
  rfl

end

section
variable (d : Dev) (port : Nat) (hd : GHdr) (msg : Option GMsg) (len : Nat) (nums : List Nat)

theorem relayed_edit : Edit [shp .glk] dropWs d (d.relayed port hd msg len nums) := Edit.ite (fun _ => .refl ..) fun _ => d.glkPort_edit _

theorem relayed_glk : ∃ o q, (d.relayed port hd msg len nums).glk = { d.glk with out := o, queue := q } := by
  unfold relayed
  split
  · exact ⟨_, _, rfl⟩
  · exact d.glkPort_glk _

theorem relayed_node (i : Nat) : (d.relayed port hd msg len nums).node i = d.node i := by
  obtain ⟨o, q, he⟩ := d.relayed_glk port hd msg len nums
  rw [node, he, node]

theorem entered_edit (n : GNode) : Edit [shp .glk] rxWs d (d.entered hd n) := by
  unfold entered
  extract_lets x
  have hx : Edit [shp .glk] rxWs d x := (Edit.refl ..).modGlk _
  exact Edit.ite (fun _ => hx.put (by simp) (by simp [rxWs]) (by decide) (by decide) _) fun _ => hx

theorem entered_glk (n : GNode) : (d.entered hd n).glk = { d.glk with nodes := lmod d.glk.nodes hd.src.toNat (fun _ => { n with epoch := hd.epoch.toNat, active := hd.active }) } := by
  unfold entered
  extract_lets x
  split <;> rfl

/-- What a frame that is relayed changes besides. -/
structure Taken (x e : Dev) : Prop where
  edit : Edit [shp .glk] rxWs x e
  glk : ∃ ns, e.glk = { x.glk with nodes := ns }

theorem Taken.refl (x : Dev) : Taken x x := ⟨.refl .., _, rfl⟩

theorem Taken.bump (x : Dev) {f : Fld} (hm : (shp .glk, f) ∈ rxWs) (hf : f.fits = true) (hc : 0 < f.cnt) : Taken x (x.bump (shp .glk) f) :=
  ⟨(Edit.refl ..).put (by simp) hm hf hc _, _, rfl⟩

theorem Taken.entered (x : Dev) (hd : GHdr) (n : GNode) : Taken x (x.entered hd n) := ⟨x.entered_edit hd n, _, x.entered_glk hd n⟩

variable {d port hd}

theorem glkAccept_taken (hon : d.glkOn = true) (hup : d.linkUp port = true) (hcrc : hd.hcrcOk = true) (hf : ¬ d.foreignHd hd) (hsrc : hd.src.toNat ≠ d.ringPos) :
    Taken (d.relayed port hd msg len nums) (d.glkAccept port hd msg len nums).1 := by
  rw [glkAccept_relayed msg len nums hon hup hcrc hf hsrc]
  extract_lets x
  split
  · exact .bump x (by simp [rxWs]) (by decide) (by decide)
  · split
    · exact .refl x
    · split
      · exact .refl x
      · split
        · exact .entered ..
        · split
          · exact .bump x (by simp [rxWs]) (by decide) (by decide)
          · exact .refl x

theorem glkAccept_fcs (hon : d.glkOn = true) (hup : d.linkUp port = true) (hcrc : hd.hcrcOk = true) (hf : ¬ d.foreignHd hd) (hsrc : hd.src.toNat ≠ d.ringPos)
    (hbad : hd.fcsOk = false) : d.glkAccept port hd msg len nums = ((d.relayed port hd msg len nums).bump (shp .glk) GLK.ERR_CNT_FCS, false) := by
  rw [glkAccept_relayed msg len nums hon hup hcrc hf hsrc]
  exact if_pos (by rw [hbad]; rfl)

theorem glkAccept_near (hon : d.glkOn = true) (hup : d.linkUp port = true) (hcrc : hd.hcrcOk = true) (hf : ¬ d.foreignHd hd) (hsrc : hd.src.toNat ≠ d.ringPos)
    (hfcs : hd.fcsOk = true) (hnear : nearTyp hd.typ.toNat = true) : d.glkAccept port hd msg len nums = (d, true) := by
  rw [glkAccept_relayed msg len nums hon hup hcrc hf hsrc]
  extract_lets x
  have hx : x = d := if_pos (.inr hnear)
  rw [if_neg (by rw [hfcs]; decide), if_pos hnear, hx]

theorem glkAccept_new (hon : d.glkOn = true) (hup : d.linkUp port = true) (hcrc : hd.hcrcOk = true) (hf : ¬ d.foreignHd hd) (hsrc : hd.src.toNat ≠ d.ringPos)
    (hfcs : hd.fcsOk = true) (hnear : nearTyp hd.typ.toNat = false) (h17 : hd.src.toNat ≤ 17) {n : GNode} {b : Bool} (ha : (d.node hd.src.toNat).accept hd.seq.toNat = (some n, b)) :
    d.glkAccept port hd msg len nums = ((d.relayed port hd msg len nums).entered hd n, hd.typ.toNat == fHELLO || (n.joined && !n.mis)) := by
  rw [glkAccept_relayed msg len nums hon hup hcrc hf hsrc]
  extract_lets x
  rw [if_neg (by rw [hfcs]; decide), if_neg (by rw [hnear]; decide), if_neg (by omega), show x.node hd.src.toNat = d.node hd.src.toNat from relayed_node .., ha]

theorem glkAccept_seen (hon : d.glkOn = true) (hup : d.linkUp port = true) (hcrc : hd.hcrcOk = true) (hf : ¬ d.foreignHd hd) (hsrc : hd.src.toNat ≠ d.ringPos)
    (hfcs : hd.fcsOk = true) (hnear : nearTyp hd.typ.toNat = false) (h17 : hd.src.toNat ≤ 17) {b : Bool} (ha : (d.node hd.src.toNat).accept hd.seq.toNat = (none, b)) :
    (d.glkAccept port hd msg len nums).1.glk = (d.relayed port hd msg len nums).glk ∧ (d.glkAccept port hd msg len nums).2 = false := by
  rw [glkAccept_relayed msg len nums hon hup hcrc hf hsrc]
  extract_lets x
  rw [if_neg (by rw [hfcs]; decide), if_neg (by rw [hnear]; decide), if_neg (by omega), show x.node hd.src.toNat = d.node hd.src.toNat from relayed_node .., ha]
  refine ⟨?_, rfl⟩
  show (if b = true then x.bump (shp .glk) GLK.DROP_OLD else x).glk = x.glk
  split <;> rfl

/-- A frame is entered where it stands in the list of positions. -/
theorem entered_node (n : GNode) (hlen : d.glk.nodes.length = 18) (h17 : hd.src.toNat ≤ 17) (i : Nat) :
    (d.entered hd n).node i = if i = hd.src.toNat then { n with epoch := hd.epoch.toNat, active := hd.active } else d.node i := by
  rw [node, entered_glk]
  split
  case isTrue hi =>
    rw [hi]
    exact getD_lmod_same _ _ (by omega)
  case isFalse hi => exact getD_lmod_ne _ _ _ hi

end

end Dev

end Sys2Proof.Machine
end

section
/-! PROOFS. The traffic of Shoal and USER bytes on the ring, and the delay of a link (R381, R383). -/
namespace Sys2Proof.Machine

open Sys2Proof

namespace Dev

/-- The registers that the receipt of a frame moves. -/
def lineWs : List (Nat × Fld) := (shp .glk, GLK.DROP_FOREIGN) :: (shp .glk, GLK.ERR_CNT_HCRC) :: (dropWs ++ rxWs)

/-- A frame moves counters and the epoch, the records of the positions and what waits at the ports. -/
structure Received (d e : Dev) : Prop where
  edit : Edit [shp .glk] lineWs d e
  glk : ∃ o q ns, e.glk = { d.glk with out := o, queue := q, nodes := ns }

section
variable {d : Dev} {port : Nat} {hd : GHdr}

theorem Received.refl (d : Dev) : Received d d := ⟨.refl .., _, _, _, rfl⟩

theorem Received.bump {e : Dev} (h : Received d e) {f : Fld} (hm : (shp .glk, f) ∈ lineWs) (hf : f.fits = true) (hc : 0 < f.cnt) : Received d (e.bump (shp .glk) f) :=
  ⟨h.edit.put (by simp) hm hf hc _, h.glk⟩

theorem Received.relayed (port : Nat) (hd : GHdr) (msg : Option GMsg) (len : Nat) (nums : List Nat) {e : Dev} (h : Taken (d.relayed port hd msg len nums) e) : Received d e := by
  obtain ⟨o, q, hx⟩ := d.relayed_glk port hd msg len nums
  obtain ⟨he, ns, hn⟩ := h
  refine ⟨((d.relayed_edit port hd msg len nums).mono (fun _ hp => hp) ?_).trans (he.mono (fun _ hp => hp) ?_), o, q, ns, by rw [hn, hx]⟩
  · exact fun w hw => List.mem_cons_of_mem _ (List.mem_cons_of_mem _ (List.mem_append_left _ hw))
  · exact fun w hw => List.mem_cons_of_mem _ (List.mem_cons_of_mem _ (List.mem_append_right _ hw))

theorem glkAccept_received (msg : Option GMsg) (len : Nat) (nums : List Nat) (hon : d.glkOn = true) (hup : d.linkUp port = true) :
    Received d (d.glkAccept port hd msg len nums).1 := by
  cases hcrc : hd.hcrcOk with
  | false =>
    rw [glkAccept_hcrc msg len nums hon hup hcrc]
    exact ((Received.refl d).bump (by simp [lineWs]) (by decide) (by decide)).bump (by simp [lineWs]) (by decide) (by decide)
  | true =>
    by_cases hf : d.foreignHd hd
    · rw [glkAccept_foreign msg len nums hon hup hcrc hf]
      exact (Received.refl d).bump (by simp [lineWs]) (by decide) (by decide)
    · by_cases hsrc : hd.src.toNat = d.ringPos
      · rw [glkAccept_own msg len nums hon hup hcrc hf hsrc]
        show Received d (if hd.fcsOk then d else d.bump (shp .glk) GLK.ERR_CNT_FCS)
        split
        · exact .refl d
        · exact (Received.refl d).bump (by simp [lineWs, rxWs]) (by decide) (by decide)
      · exact .relayed port hd msg len nums (glkAccept_taken msg len nums hon hup hcrc hf hsrc)

theorem relayed_on (msg : Option GMsg) (len : Nat) (nums : List Nat) (hhops : hd.hops ≠ 0) (hnear : nearTyp hd.typ.toNat = false) :
    d.relayed port hd msg len nums = d.glkPort (relayFrame port hd msg len nums) := by
  refine if_neg fun he => ?_
  rcases he with he | he
  · exact hhops he
  · rw [hnear] at he
    cases he

/-! ### The lane of Shoal -/

theorem glkLane_eq (m : GMsg) (len : Nat) : d.glkLane port hd m len =
    if (d.glkBegin.glkAccept port hd (some m) len).2 then (d.glkBegin.glkAccept port hd (some m) len).1.modGlk (fun g => { g with inbox := g.inbox ++ [m] })
    else (d.glkBegin.glkAccept port hd (some m) len).1 := rfl

/-- The lane shows the registers and the ports as the receipt leaves them. -/
theorem glkLane_line (m : GMsg) (len : Nat) : (d.glkLane port hd m len).regs = (d.glkBegin.glkAccept port hd (some m) len).1.regs ∧
    (d.glkLane port hd m len).memories = (d.glkBegin.glkAccept port hd (some m) len).1.memories ∧
    (d.glkLane port hd m len).glk.out = (d.glkBegin.glkAccept port hd (some m) len).1.glk.out ∧
    (d.glkLane port hd m len).glk.queue = (d.glkBegin.glkAccept port hd (some m) len).1.glk.queue := by
  rw [glkLane_eq]
  split <;> exact ⟨rfl, rfl, rfl, rfl⟩

theorem glkLane_not (m : GMsg) (len : Nat) (h : (d.glkBegin.glkAccept port hd (some m) len).2 = false) :
    d.glkLane port hd m len = (d.glkBegin.glkAccept port hd (some m) len).1 := by
  rw [glkLane_eq, if_neg (by rw [h]; decide)]

variable (m : GMsg) (len : Nat) (hon : d.glkOn = true) (hup : d.linkUp port = true)
include hon hup

theorem keeps_glkLane : d.keeps (d.glkLane port hd m len) [shp .glk] := by
  obtain ⟨hregs, hmem, -, -⟩ := glkLane_line (d := d) (port := port) (hd := hd) m len
  exact ((glkAccept_received (d := d.glkBegin) (some m) len [] hon hup).edit.same hregs hmem).keeps

theorem glkLane_hcrc (hbad : hd.hcrcOk = false) : (d.glkLane port hd m len).get (shp .glk) GLK.ERR_CNT_HCRC = satU 16 (d.get (shp .glk) GLK.ERR_CNT_HCRC + 1) % 2 ^ 16 ∧
    (d.glkLane port hd m len).glk = { d.glk with out := [] } := by
  have ha := glkAccept_hcrc (d := d.glkBegin) (some m) len [] hon hup hbad
  rw [glkLane_not m len (by rw [ha]), ha]
  refine ⟨?_, rfl⟩
  rw [get_bump_same _ _ _ _ _ (by decide), bump, get_put_apart _ _ (by decide) (by decide) (by decide) (by decide) (by decide) (by decide) (by decide)]
  rfl

theorem glkLane_foreign (hcrc : hd.hcrcOk = true) (hf : d.foreignHd hd) :
    (d.glkLane port hd m len).get (shp .glk) GLK.DROP_FOREIGN = satU 16 (d.get (shp .glk) GLK.DROP_FOREIGN + 1) % 2 ^ 16 ∧
    (d.glkLane port hd m len).glk = { d.glk with out := [] } := by
  have ha := glkAccept_foreign (d := d.glkBegin) (some m) len [] hon hup hcrc hf
  rw [glkLane_not m len (by rw [ha]), ha]
  exact ⟨get_bump_same _ _ _ _ _ (by decide), rfl⟩

theorem glkLane_own (hcrc : hd.hcrcOk = true) (hf : ¬ d.foreignHd hd) (hsrc : hd.src.toNat = d.ringPos) : (d.glkLane port hd m len).glk = { d.glk with out := [] } := by
  have ha := glkAccept_own (d := d.glkBegin) (some m) len [] hon hup hcrc hf hsrc
  rw [glkLane_not m len (by rw [ha]), ha]
  show (if hd.fcsOk then d.glkBegin else d.glkBegin.bump (shp .glk) GLK.ERR_CNT_FCS).glk = _
  split <;> rfl

section
variable (hcrc : hd.hcrcOk = true) (hf : ¬ d.foreignHd hd) (hsrc : hd.src.toNat ≠ d.ringPos) (hnear : nearTyp hd.typ.toNat = false)
include hcrc hf hsrc

/-- The ports of the lane are those of the relay. -/
theorem glkLane_ports : (d.glkLane port hd m len).glk.out = (d.glkBegin.relayed port hd (some m) len []).glk.out ∧
    (d.glkLane port hd m len).glk.queue = (d.glkBegin.relayed port hd (some m) len []).glk.queue ∧
    ∀ f : Fld, clearOf rxWs (shp .glk) f = true → f.fits = true → 0 < f.cnt →
      (d.glkLane port hd m len).get (shp .glk) f = (d.glkBegin.relayed port hd (some m) len []).get (shp .glk) f := by
  obtain ⟨hregs, -, hout, hqueue⟩ := glkLane_line (d := d) (port := port) (hd := hd) m len
  obtain ⟨hedit, ns, hglk⟩ := glkAccept_taken (d := d.glkBegin) (some m) len [] hon hup hcrc hf hsrc
  exact ⟨by rw [hout, hglk], by rw [hqueue, hglk], fun f hc hff hcnt => (get_congr hregs ..).trans (hedit.get _ f 0 (by decide) hc hff hcnt)⟩

include hnear

theorem glkLane_full (hhops : hd.hops ≠ 0) (hnext : d.linkUp (1 - port) = true) (hfull : d.portFull (relayFrame port hd (some m) len []) = true) :
    (d.glkLane port hd m len).glk.out = [] ∧ (d.glkLane port hd m len).glk.queue = d.glk.queue ∧
    (d.glkLane port hd m len).get (shp .glk) GLK.QDROP_COUNT = satU 16 (d.get (shp .glk) GLK.QDROP_COUNT + 1) % 2 ^ 16 ∧
    (d.glkLane port hd m len).get (shp .glk) HDR.ERR_CODE = cGLK_QFULL := by
  obtain ⟨hout, hqueue, hget⟩ := glkLane_ports m len hon hup hcrc hf hsrc
  have hr : d.glkBegin.relayed port hd (some m) len [] = (d.glkBegin.bump (shp .glk) GLK.QDROP_COUNT).err (shp .glk) cGLK_QFULL (1 - port) :=
    (relayed_on _ _ _ hhops hnear).trans (glkPort_full d.glkBegin (relayFrame port hd (some m) len []) hnext hfull)
  rw [hout, hqueue, hget _ (by decide) (by decide) (by decide), hget _ (by decide) (by decide) (by decide), hr]
  refine ⟨rfl, rfl, ?_, get_err_code ..⟩
  rw [get_err_apart _ _ _ (by decide) (by decide) (by decide) (by decide), get_bump_same _ _ _ _ _ (by decide)]
  rfl

theorem glkLane_sends (hhops : hd.hops ≠ 0) (hnext : d.linkUp (1 - port) = true) (hroom : d.portFull (relayFrame port hd (some m) len []) = false) :
    (d.glkLane port hd m len).glk.out = [relayFrame port hd (some m) len []] ∧ (d.glkLane port hd m len).glk.queue = d.glk.queue ++ [relayFrame port hd (some m) len []] := by
  obtain ⟨hout, hqueue, -⟩ := glkLane_ports m len hon hup hcrc hf hsrc
  have hr : d.glkBegin.relayed port hd (some m) len [] = d.glkBegin.modGlk (fun g =>
      { g with out := g.out ++ [relayFrame port hd (some m) len []], queue := g.queue ++ [relayFrame port hd (some m) len []] }) :=
    (relayed_on _ _ _ hhops hnear).trans (glkPort_sends d.glkBegin (relayFrame port hd (some m) len []) hnext hroom)
  rw [hout, hqueue, hr]
  exact ⟨rfl, rfl⟩

theorem glkLane_stays (hno : ¬ (hd.hops ≠ 0 ∧ d.linkUp (1 - port) = true)) :
    (d.glkLane port hd m len).glk.out = [] ∧ (d.glkLane port hd m len).glk.queue = d.glk.queue := by
  obtain ⟨hout, hqueue, -⟩ := glkLane_ports m len hon hup hcrc hf hsrc
  have hr : d.glkBegin.relayed port hd (some m) len [] = d.glkBegin := by
    by_cases hhops : hd.hops = 0
    · exact if_pos (.inl hhops)
    · refine (relayed_on _ _ _ hhops hnear).trans (glkPort_down d.glkBegin (relayFrame port hd (some m) len []) ?_)
      exact Bool.eq_false_iff.mpr fun hnext => hno ⟨hhops, hnext⟩
  rw [hout, hqueue, hr]
  exact ⟨rfl, rfl⟩

omit hnear in
theorem glkLane_fcs (hbad : hd.fcsOk = false) : (d.glkLane port hd m len).get (shp .glk) GLK.ERR_CNT_FCS = satU 16 (d.get (shp .glk) GLK.ERR_CNT_FCS + 1) % 2 ^ 16 ∧
    (d.glkLane port hd m len).glk.inbox = d.glk.inbox := by
  have ha := glkAccept_fcs (d := d.glkBegin) (some m) len [] hon hup hcrc hf hsrc hbad
  obtain ⟨o, q, hglk⟩ := d.glkBegin.relayed_glk port hd (some m) len []
  rw [glkLane_not m len (by rw [ha]), ha]
  refine ⟨?_, (congrArg Glk.inbox hglk).trans rfl⟩
  rw [get_bump_same _ _ _ _ _ (by decide), (d.glkBegin.relayed_edit port hd (some m) len []).get _ _ 0 (by decide) (by decide) (by decide) (by decide)]
  rfl

theorem glkLane_new (hfcs : hd.fcsOk = true) (h17 : hd.src.toNat ≤ 17) (hlen : d.glk.nodes.length = 18) {n : GNode} {b : Bool}
    (ha : (d.node hd.src.toNat).accept hd.seq.toNat = (some n, b)) :
    (d.glkLane port hd m len).glk.inbox = d.glk.inbox ++ (if hd.typ.toNat = fHELLO ∨ n.joined = true ∧ n.mis = false then [m] else []) ∧
    (d.glkLane port hd m len).node hd.src.toNat = { n with epoch := hd.epoch.toNat, active := hd.active } := by
  have ha := glkAccept_new (d := d.glkBegin) (some m) len [] hon hup hcrc hf hsrc hfcs hnear h17 ha
  obtain ⟨o, q, hglk⟩ := d.glkBegin.relayed_glk port hd (some m) len []
  obtain ⟨x, hx⟩ : ∃ x, x = d.glkBegin.relayed port hd (some m) len [] := ⟨_, rfl⟩
  rw [← hx] at ha hglk
  have hnode : (x.entered hd n).node hd.src.toNat = { n with epoch := hd.epoch.toNat, active := hd.active } := by
    rw [entered_node n (by rw [hglk]; exact hlen) h17, if_pos rfl]
  have hin : (x.entered hd n).glk.inbox = d.glk.inbox := by
    rw [entered_glk, hglk]
    rfl
  have hyes : (hd.typ.toNat == fHELLO || (n.joined && !n.mis)) = true ↔ hd.typ.toNat = fHELLO ∨ n.joined = true ∧ n.mis = false := by simp
  rw [glkLane_eq, ha]
  by_cases hgo : hd.typ.toNat = fHELLO ∨ n.joined = true ∧ n.mis = false
  · rw [if_pos (hyes.mpr hgo), if_pos hgo]
    exact ⟨congrArg (· ++ [m]) hin, hnode⟩
  · rw [if_neg (fun he => hgo (hyes.mp he)), if_neg hgo, List.append_nil]
    exact ⟨hin, hnode⟩

theorem glkLane_seen (hfcs : hd.fcsOk = true) (h17 : hd.src.toNat ≤ 17) {b : Bool} (ha : (d.node hd.src.toNat).accept hd.seq.toNat = (none, b)) :
    (d.glkLane port hd m len).glk.inbox = d.glk.inbox ∧ (d.glkLane port hd m len).glk.nodes = d.glk.nodes := by
  obtain ⟨hglk, hno⟩ := glkAccept_seen (d := d.glkBegin) (some m) len [] hon hup hcrc hf hsrc hfcs hnear h17 ha
  obtain ⟨o, q, hx⟩ := d.glkBegin.relayed_glk port hd (some m) len []
  rw [glkLane_not m len hno, hglk, hx]
  exact ⟨rfl, rfl⟩

end

end

/-! ### The exchanges of a link -/

section
variable {d : Dev}

/-- A time frame finds room at every port. -/
theorem portFull_time {f : GFrame} (h : d.glkPrio f = 0) : d.portFull f = false := by
  unfold portFull
  rw [h]
  rfl

theorem glkPrio_time {f : GFrame} (h : f.typ = fBEACON ∨ f.typ = fDELAY_REQ ∨ f.typ = fDELAY_RESP) : d.glkPrio f = 0 := if_pos h

/-- A link-local frame of the module goes out. -/
theorem glkLocal_sends {port typ : Nat} (nums : List Nat) (hon : d.glkOn = true) (hup : d.linkUp port = true) (ht : typ = fDELAY_REQ ∨ typ = fDELAY_RESP) :
    (d.glkLocal port typ nums).regs = d.regs ∧ (d.glkLocal port typ nums).memories = d.memories ∧ (d.glkLocal port typ nums).glk.req = d.glk.req ∧
    (d.glkLocal port typ nums).glk.out.map (fun f => (f.port, f.typ, f.nums)) =
      d.glk.out.map (fun f => (f.port, f.typ, f.nums)) ++ (if d.glk.dup = true then [] else [(port, typ, nums)]) := by
  unfold glkLocal
  cases hdup : d.glk.dup with
  | true =>
    rw [if_pos (by simp), if_pos rfl, List.append_nil]
    exact ⟨rfl, rfl, rfl, rfl⟩
  | false =>
    rw [if_neg (by rw [hon]; decide), if_neg (by decide),
      glkPort_sends d (d.ownFrame port typ 0 0 (d.glkFlags false) (8 * nums.length) none nums) hup (portFull_time (glkPrio_time (.inr ht)))]
    exact ⟨rfl, rfl, rfl, List.map_append⟩

/-- The link delay that an exchange adds. -/
def exchanged (d : Dev) (port t1 t2 t3 t4 : Nat) : List Int := (Int.fdiv (((t4 : Int) - t1) - ((t3 : Int) - t2)) 2 :: d.glk.delays.getD port []).take 8

theorem delayDone_shows {port t1 : Nat} (t2 t3 t4 : Nat) (hp : port < 2) (hr : d.glk.req.length = 2) (hl : d.glk.delays.length = 2) (h1 : d.glk.req.getD port none = some t1) :
    (d.delayDone port t2 t3 t4).glk.req.getD port none = none ∧ (d.delayDone port t2 t3 t4).glk.delays.getD port [] = d.exchanged port t1 t2 t3 t4 ∧
    d.keeps (d.delayDone port t2 t3 t4) [shp .glk] ∧
    ((d.exchanged port t1 t2 t3 t4).length = 8 → (d.delayDone port t2 t3 t4).linkDelay port =
      satU 16 (Int.fdiv (d.exchanged port t1 t2 t3 t4).sum (d.exchanged port t1 t2 t3 t4).length).toNat % 2 ^ 16) := by
  obtain ⟨l, hle⟩ : ∃ l, l = d.exchanged port t1 t2 t3 t4 := ⟨_, rfl⟩
  obtain ⟨x, hx⟩ : ∃ x, x = d.modGlk (fun g => { g with req := lset g.req port none, delays := lset g.delays port l }) := ⟨_, rfl⟩
  obtain ⟨f, hfe⟩ : ∃ f, f = if port = 0 then GLK.LINK_D0_NS else GLK.LINK_D1_NS := ⟨_, rfl⟩
  obtain ⟨hw, hfits, hcnt⟩ : f.w = 16 ∧ f.fits = true ∧ f.cnt = 1 := by
    rw [hfe]
    split <;> decide
  have hrun : d.delayDone port t2 t3 t4 = if l.length < 8 then x else x.put (shp .glk) f (satU 16 (Int.fdiv l.sum l.length).toNat) := by
    unfold delayDone
    rw [h1, hx, hfe, hle]
    rfl
  have hreq : x.glk.req.getD port none = none := by
    rw [hx]
    exact getD_lset_same _ _ (by omega)
  have hdel : x.glk.delays.getD port [] = l := by
    rw [hx]
    exact getD_lset_same _ _ (by omega)
  have hk : d.keeps x [shp .glk] := by
    rw [hx]
    exact keeps_refl d _
  rw [← hle, hrun]
  split
  case isTrue hlt => exact ⟨hreq, hdel, hk, fun h8 => absurd h8 (by omega)⟩
  case isFalse =>
    refine ⟨hreq, hdel, (keeps_put_iff (by simp) hfits (by omega) (by decide)).mpr hk, fun _ => ?_⟩
    rw [linkDelay, ← hfe, get_put_same _ _ _ _ _ _ (by omega), hw]

end

end Dev

end Sys2Proof.Machine
end

section
/-! PROOFS. USER bytes, beacons and the time of the group (R381, R383 to R385), and what O48 says. -/
namespace Sys2Proof.Machine

open Sys2Proof

namespace Dev

/-! ### Time frames -/

section
variable {d : Dev}

/-- A time frame takes no room in a queue. -/
theorem glkPort_time {f : GFrame} (ht : f.typ = fBEACON ∨ f.typ = fDELAY_REQ ∨ f.typ = fDELAY_RESP) : (d.glkPort f).regs = d.regs ∧ (d.glkPort f).memories = d.memories ∧
    (d.glkPort f).glk.seq = d.glk.seq ∧ (d.glkPort f).glk.out = d.glk.out ++ (if d.linkUp f.port then [f] else []) := by
  cases hup : d.linkUp f.port with
  | false =>
    rw [glkPort_down _ _ hup, if_neg (by decide), List.append_nil]
    exact ⟨rfl, rfl, rfl, rfl⟩
  | true =>
    rw [glkPort_sends _ _ hup (portFull_time (glkPrio_time ht)), if_pos rfl]
    exact ⟨rfl, rfl, rfl, rfl⟩

/-- The frame that a module sends on a port. -/
def sent (d : Dev) (port typ len : Nat) (msg : Option GMsg) (nums : List Nat) (leave : Bool) : GFrame :=
  d.ownFrame port typ d.workersN d.glk.seq (d.glkFlags leave) len msg nums

theorem glkSend_eq (typ len : Nat) (msg : Option GMsg) (nums : List Nat) (leave : Bool) (hon : d.glkOn = true) (hdup : d.glk.dup = false) :
    d.glkSend typ len msg nums leave =
      ((d.modGlk (fun g => { g with seq := (g.seq + 1) % 65536 })).glkPort (d.sent 0 typ len msg nums leave)).glkPort (d.sent 1 typ len msg nums leave) := by
  unfold glkSend
  exact if_neg (by rw [hon, hdup]; decide)

theorem glkSend_beacon (len : Nat) (nums : List Nat) (hon : d.glkOn = true) (hdup : d.glk.dup = false) :
    (d.glkSend fBEACON len none nums).regs = d.regs ∧ (d.glkSend fBEACON len none nums).memories = d.memories ∧
    (d.glkSend fBEACON len none nums).glk.seq = (d.glk.seq + 1) % 65536 ∧
    ∀ port : Fin 2, d.linkUp port = true → d.sent port fBEACON len none nums false ∈ (d.glkSend fBEACON len none nums).glk.out := by
  rw [glkSend_eq _ _ _ _ _ hon hdup]
  obtain ⟨x, hx⟩ : ∃ x, x = d.modGlk (fun g => { g with seq := (g.seq + 1) % 65536 }) := ⟨_, rfl⟩
  have hxs : x.glk.seq = (d.glk.seq + 1) % 65536 := by rw [hx, glk_modGlk]
  have hup (port : Nat) : x.linkUp port = d.linkUp port := by rw [hx]; rfl
  have hreg : x.regs = d.regs ∧ x.memories = d.memories := by rw [hx]; exact ⟨rfl, rfl⟩
  rw [← hx]
  obtain ⟨hr0, hm0, hs0, ho0⟩ := glkPort_time (d := x) (f := d.sent 0 fBEACON len none nums false) (.inl rfl)
  obtain ⟨hr1, hm1, hs1, ho1⟩ := glkPort_time (d := x.glkPort (d.sent 0 fBEACON len none nums false)) (f := d.sent 1 fBEACON len none nums false) (.inl rfl)
  refine ⟨hr1.trans (hr0.trans hreg.1), hm1.trans (hm0.trans hreg.2), hs1.trans (hs0.trans hxs), fun port hport => ?_⟩
  rw [ho1, ho0]
  match port with
  | 0 =>
    rw [if_pos (show x.linkUp (d.sent 0 fBEACON len none nums false).port = true from (hup 0).trans hport)]
    simp
  | 1 =>
    have hport1 : (x.glkPort (d.sent 0 fBEACON len none nums false)).linkUp (d.sent 1 fBEACON len none nums false).port = true := by
      rw [linkUp, get_congr hr0]
      exact (hup 1).trans hport
    rw [if_pos hport1]
    simp

/-! ### The time discipline -/

/-- The registers that the discipline moves beside the offset it shows. -/
def tsyncWs : List (Nat × Fld) :=
  [(shp .glk, GLK.TSYNC_STATE), (shp .glk, HDR.STAT_BLOCK), (shp .glk, GLK.TSYNC_FREQ_PPB), (shp .rtc, RTC.STATUS_BITS)] ++ errWs (shp .glk)

theorem Edit.tsyncGo {e : Dev} (h : Edit [shp .glk, shp .rtc] tsyncWs d e) (st : Nat) : Edit [shp .glk, shp .rtc] tsyncWs d (e.tsyncGo st) := by
  unfold Dev.tsyncGo
  extract_lets p was d1 d2
  have h1 : Edit [shp .glk, shp .rtc] tsyncWs d d1 :=
    ((h.put List.mem_cons_self (by simp [tsyncWs]) (by decide) (by decide) _).stat List.mem_cons_self (by simp [tsyncWs]) _).modGlk _
  have h2 : Edit [shp .glk, shp .rtc] tsyncWs d d2 := h1.put (by simp) (by simp [tsyncWs]) (by decide) (by decide) _
  exact Edit.ite (fun _ => h) fun _ => Edit.ite (fun _ => h2.err List.mem_cons_self (fun w hw => List.mem_append_right _ hw) _ _) fun _ => h2

/-- The discipline shows the offset, and goes on from there. -/
theorem discipline_edit (theta : Int) : Edit [shp .glk, shp .rtc] tsyncWs (d.puti (shp .glk) GLK.TSYNC_OFFSET_NS (satS 32 theta)) (d.discipline theta) := by
  unfold discipline
  extract_lets p d0 step v d1 st g f pp near good bad d2 d3 d4
  have h0 : Edit [shp .glk, shp .rtc] tsyncWs d0 d0 := .refl ..
  have h1 : Edit [shp .glk, shp .rtc] tsyncWs d0 d1 := h0.same rfl rfl
  have h2 : Edit [shp .glk, shp .rtc] tsyncWs d0 d2 := (h0.put List.mem_cons_self (by simp [tsyncWs]) (by decide) (by decide) _).modGlk _
  have h3 : Edit [shp .glk, shp .rtc] tsyncWs d0 d3 := Edit.ite (fun _ => h2.tsyncGo 1) fun _ => h2
  have h4 : Edit [shp .glk, shp .rtc] tsyncWs d0 d4 := h3.modGlk _
  exact Edit.ite (fun _ => (h1.tsyncGo 1).modGlk _) fun _ => Edit.ite (fun _ => Edit.ite (fun _ => h4.tsyncGo 1) fun _ => h4) fun _ =>
    Edit.ite (fun _ => h4.tsyncGo 2) fun _ => h4

theorem discipline_shows (theta : Int) : d.keeps (d.discipline theta) [shp .glk, shp .rtc] ∧
    (d.discipline theta).get (shp .glk) GLK.TSYNC_OFFSET_NS = encS 32 (satS 32 theta) % 2 ^ 32 := by
  obtain ⟨hk, hget⟩ := d.discipline_edit theta
  refine ⟨keeps_trans ((keeps_put_iff (by simp) (by decide) (by decide) (by decide)).mpr (keeps_refl d _)) hk, ?_⟩
  rw [hget _ _ 0 (by decide) (by decide) (by decide) (by decide), puti, get_put_same _ _ _ _ _ _ (by decide)]
  rfl

theorem tsyncGo_shows {st was : Nat} (hwas : d.get (shp .glk) GLK.TSYNC_STATE = was) (hne : was ≠ st) (hst : st < 4) :
    (d.tsyncGo st).get (shp .glk) GLK.TSYNC_STATE = st ∧ (d.tsyncGo st).glk.freq = d.glk.freq ∧
    (was = 2 → (d.tsyncGo st).get (shp .glk) HDR.ERR_CODE = cGLK_TSYNC_LOST) := by
  unfold tsyncGo
  extract_lets p w d1 d2
  rw [if_neg (by rw [show w = was from hwas]; exact hne)]
  have h1 : d1.get (shp .glk) GLK.TSYNC_STATE = st := by
    rw [get_modGlk, get_stat_apart _ _ (by decide) (by decide) (by decide) (by decide), get_put_same _ _ _ _ _ _ (by decide)]
    exact Nat.mod_eq_of_lt hst
  have h2 : d2.get (shp .glk) GLK.TSYNC_STATE = st := (get_put_other _ _ (by decide) (by decide) (by decide) (by decide) (by decide) (by decide) (by decide)).trans h1
  by_cases hlock : w = 2
  · rw [if_pos hlock, get_err_apart _ _ _ (by decide) (by decide) (by decide) (by decide)]
    exact ⟨h2, rfl, fun _ => get_err_code ..⟩
  · rw [if_neg hlock]
    exact ⟨h2, rfl, fun he => absurd (hwas.trans he) hlock⟩

/-! ### The beacon that a follower takes -/

/-- A follower is one by registers that the receipt of a frame leaves. -/
theorem follower_received {e : Dev} (h : Edit [shp .glk] lineWs d e) : e.follower = d.follower := by
  have hget (f : Fld) (hc : clearOf lineWs (shp .glk) f = true) (hf : f.fits = true) (hcnt : 0 < f.cnt) : e.get (shp .glk) f = d.get (shp .glk) f :=
    h.get _ f 0 (by decide) hc hf hcnt
  rw [follower, glkOn, enabled, on, on, isWorker, isManager, glkActive, on, glkStrap, hget _ (by decide) (by decide) (by decide), hget _ (by decide) (by decide) (by decide),
    hget _ (by decide) (by decide) (by decide), hget _ (by decide) (by decide) (by decide), follower, glkOn, enabled, on, on, isWorker, isManager, glkActive, on, glkStrap]

theorem follows_of {src : Nat} (hact : (d.node src).active = true) (h : ∀ i ∈ d.activeHeard, i ≠ src → epochHigher (d.node i).epoch (d.node src).epoch = false) :
    d.follows src = true := by
  have hnone : d.activeHeard.any (fun i => i != src && epochHigher (d.node i).epoch (d.node src).epoch) = false := by
    rw [List.any_eq_false]
    intro i hi hbad
    rw [Bool.and_eq_true, bne_iff_ne] at hbad
    rw [h i hi hbad.1] at hbad
    cases hbad.2
  rw [follows, hact, hnone]
  rfl

/-- The modules heard beside a source are those that were heard before its frame. -/
theorem activeHeard_other {e : Dev} {src : Nat} (hpos : e.ringPos = d.ringPos) (hn : ∀ i, i ≠ src → e.node i = d.node i) {i : Nat} (hi : i ∈ e.activeHeard) (hne : i ≠ src) :
    i ∈ d.activeHeard := by
  rw [activeHeard, List.mem_filter] at hi ⊢
  rw [← hn i hne, ← hpos]
  exact hi

end

/-- The offset that a copy of a beacon shows. -/
def beaconOffset (d : Dev) (c : GCopy) (ts : BitVec 64) (sub : BitVec 14) : Int :=
  Int.fdiv (((ts.toNat : Int) - d.now) * 1000000000) 65536 + sub.toNat - c.rsub.toNat + c.corr.toNat + d.linkDelay c.port

/-- A copy of a beacon that reaches a port. -/
def beaconCopy (d : Dev) (c : GCopy) (ts : BitVec 64) (sub : BitVec 14) : Dev × Bool :=
  d.glkBegin.glkAccept c.port.val c.hd none 16 [ts.toNat, sub.toNat, (c.corr.toNat + c.stay.toNat + d.glkBegin.linkDelay c.port.val) % 2 ^ 32]

theorem beaconRx_one {d : Dev} {c : GCopy} (ts : BitVec 64) (sub : BitVec 14) {x : Dev} (hx : d.beaconCopy c ts sub = (x, true)) (hcrc : c.hd.hcrcOk = true)
    (hfcs : c.hd.fcsOk = true) (ht : c.hd.typ.toNat = fBEACON) (hup : x.linkUp c.port = true) (hk : x.delayKnown c.port = true) (hf : x.follower = true)
    (hs : x.follows c.hd.src.toNat = true) : d.beaconRx [c] ts.toNat sub.toNat = x.discipline (x.beaconOffset c ts sub) := by
  have hr : [c].foldl (fun (a : Dev × Bool) c =>
      let x := a.1.glkAccept c.port.val c.hd none 16 [ts.toNat, sub.toNat, (c.corr.toNat + c.stay.toNat + a.1.linkDelay c.port.val) % 2 ^ 32]
      (x.1, a.2 || x.2)) (d.glkBegin, false) = (x, true) := by
    show ((d.beaconCopy c ts sub).1, false || (d.beaconCopy c ts sub).2) = _
    rw [hx]
    rfl
  unfold beaconRx
  rw [hr]
  extract_lets r d1 ok best dt
  have hok : ok = [c] := by
    show [c].filter _ = _
    rw [List.filter_cons_of_pos]
    · rfl
    · rw [hcrc, hfcs, ht, show d1.linkUp c.port = true from hup, show d1.delayKnown c.port = true from hk]
      rfl
  have hbest : best = some c := by
    show List.foldl _ none ok = _
    rw [hok]
    rfl
  rw [hbest]
  show (if (true && x.follower && x.follows c.hd.src.toNat) = true then x.discipline (x.beaconOffset c ts sub) else x) = _
  rw [if_pos (by rw [hf, hs]; rfl)]

/-- What a follower does with the one good copy of a beacon that it follows. -/
theorem beaconRx_steers {d : Dev} {c : GCopy} (ts : BitVec 64) (sub : BitVec 14) {n : GNode} {b : Bool} (hon : d.glkOn = true) (hlen : d.glk.nodes.length = 18)
    (hcrc : c.hd.hcrcOk = true) (hfcs : c.hd.fcsOk = true) (hver : c.hd.ver = 1) (hgrp : c.hd.group.toNat = d.get (shp .glk) GLK.GROUP_ID) (ht : c.hd.typ.toNat = fBEACON)
    (hsrc : c.hd.src.toNat ≠ d.ringPos) (h17 : c.hd.src.toNat ≤ 17) (hup : d.linkUp c.port = true) (hk : d.delayKnown c.port = true)
    (ha : (d.node c.hd.src.toNat).accept c.hd.seq.toNat = (some n, b)) (hj : n.joined = true) (hm : n.mis = false) (hf : d.follower = true) (hact : c.hd.active = true)
    (hold : ∀ i ∈ d.activeHeard, i ≠ c.hd.src.toNat → epochHigher (d.node i).epoch c.hd.epoch.toNat = false) :
    d.keeps (d.beaconRx [c] ts.toNat sub.toNat) [shp .glk, shp .rtc] ∧
    (d.beaconRx [c] ts.toNat sub.toNat).get (shp .glk) GLK.TSYNC_OFFSET_NS = encS 32 (satS 32 (d.beaconOffset c ts sub)) % 2 ^ 32 := by
  have hnf : ¬ d.foreignHd c.hd := by
    rintro (h | h | h | h)
    · exact h hver
    · exact h hgrp
    · rw [ht] at h; cases h
    · rw [ht] at h; exact absurd h (by decide)
  obtain ⟨nums, hnums⟩ : ∃ l, l = [ts.toNat, sub.toNat, (c.corr.toNat + c.stay.toNat + d.glkBegin.linkDelay c.port.val) % 2 ^ 32] := ⟨_, rfl⟩
  have hnew := glkAccept_new (d := d.glkBegin) (port := c.port.val) none 16 nums hon hup hcrc hnf hsrc hfcs (by rw [ht]; rfl) h17 ha
  obtain ⟨hedit, o, q, ns, hglk⟩ := glkAccept_received (d := d.glkBegin) (port := c.port.val) (hd := c.hd) none 16 nums hon hup
  obtain ⟨y, hy⟩ : ∃ y, y = d.glkBegin.relayed c.port.val c.hd none 16 nums := ⟨_, rfl⟩
  rw [hnew, ← hy] at hedit hglk
  obtain ⟨x, hx⟩ : ∃ x, x = y.entered c.hd n := ⟨_, rfl⟩
  have hcopy : d.beaconCopy c ts sub = (x, true) := by
    rw [beaconCopy, ← hnums, hnew, ← hy, ← hx, hj, hm, Bool.not_false, Bool.and_true, Bool.or_true]
  have hynode (i : Nat) : y.node i = d.node i := by
    rw [hy, relayed_node]
    rfl
  have hylen : y.glk.nodes.length = 18 := by
    obtain ⟨o', q', hy'⟩ := d.glkBegin.relayed_glk c.port.val c.hd none 16 nums
    rw [hy, hy']
    exact hlen
  have hnode (i : Nat) : x.node i = if i = c.hd.src.toNat then { n with epoch := c.hd.epoch.toNat, active := c.hd.active } else d.node i := by
    rw [hx, entered_node n hylen h17, hynode]
  rw [← hx] at hedit hglk
  have hget (f : Fld) (hc : clearOf lineWs (shp .glk) f = true) (hff : f.fits = true) (hcnt : 0 < f.cnt) : x.get (shp .glk) f = d.get (shp .glk) f :=
    hedit.get _ f 0 (by decide) hc hff hcnt
  have hpos : x.ringPos = d.ringPos := hget _ (by decide) (by decide) (by decide)
  have hfol : x.follows c.hd.src.toNat = true := by
    refine follows_of (by rw [hnode, if_pos rfl]; exact hact) fun i hi hne => ?_
    have hother (j : Nat) (hj : j ≠ c.hd.src.toNat) : x.node j = d.node j := by rw [hnode, if_neg hj]
    rw [hother i hne, hnode, if_pos rfl]
    exact hold i (activeHeard_other hpos hother hi hne) hne
  have hnow : x.now = d.now := by
    rw [now, get64, hedit.get _ _ 0 (by decide) (by decide) (by decide) (by decide), hedit.get _ _ 0 (by decide) (by decide) (by decide) (by decide)]
    rfl
  have hdel (port : Nat) : x.linkDelay port = d.linkDelay port := by
    rw [linkDelay, linkDelay]
    split <;> exact hget _ (by decide) (by decide) (by decide)
  have hrun : d.beaconRx [c] ts.toNat sub.toNat = x.discipline (d.beaconOffset c ts sub) := by
    rw [beaconRx_one ts sub hcopy hcrc hfcs ht (by rw [linkUp, hget _ (by decide) (by decide) (by decide)]; exact hup) (by rw [delayKnown, hglk]; exact hk)
      ((follower_received hedit).trans hf) hfol, beaconOffset, hnow, hdel, beaconOffset]
  obtain ⟨hkd, hoff⟩ := x.discipline_shows (d.beaconOffset c ts sub)
  rw [hrun]
  exact ⟨keeps_trans (keeps_mono (show d.keeps x [shp .glk] from hedit.keeps) (by simp)) hkd, hoff⟩

end Dev

end Sys2Proof.Machine
end

section
/-! PROOFS. What O48 says of the frames and the time of the group. -/
namespace Sys2Proof.Machine

open Sys2Proof

namespace Dev

/-- A USER frame at a port. -/
def userDo (d : Dev) (port : Nat) (hd : GHdr) (data : List Nat) (len : Nat) : Dev :=
  let r := (d.glkBegin).glkAccept port hd none len data
  if r.2 then r.1.modNode hd.src.toNat (fun n => { n with user := data }) else r.1

/-- A DELAY_REQ at a port. -/
def delayReqDo (d : Dev) (port : Nat) (hd : GHdr) (t2 t3 : Nat) : Dev :=
  let r := (d.glkBegin).glkAccept port hd none 0
  if r.2 && hd.typ.toNat == fDELAY_REQ then r.1.glkLocal port fDELAY_RESP [t2, t3] else r.1

/-- A DELAY_RESP at a port. -/
def delayRespDo (d : Dev) (port : Nat) (hd : GHdr) (t2 t3 t4 : Nat) : Dev :=
  let r := (d.glkBegin).glkAccept port hd none 16
  if r.2 && hd.typ.toNat == fDELAY_RESP then r.1.delayDone port t2 t3 t4 else r.1

end Dev

section
variable {s : State} (hout : s.out = true)
include hout

/-- The lane takes a frame of Shoal. -/
theorem glkLane_rule (hsh : s.dev.glk.nodes.length = 18) (hon : s.dev.glkOn = true) {i : Instr} {port : Fin 2} {hd : GHdr} {m : GMsg} {len : Nat}
    (hi : exec i s = onDev (fun d => d.glkLane port.val hd m len) s) (hup : s.dev.linkUp port = true) (hnear : Dev.nearTyp hd.typ.toNat = false) :
    ∃ t, exec i s = .next t ∧ t.pending = s.pending ∧ s.dev.keeps t.dev [shp .glk] ∧
      (hd.hcrcOk = false → t.dev.get (shp .glk) GLK.ERR_CNT_HCRC = satU 16 (s.dev.get (shp .glk) GLK.ERR_CNT_HCRC + 1) % 2 ^ 16 ∧ t.dev.glk = { s.dev.glk with out := [] }) ∧
      (hd.hcrcOk = true → s.dev.foreignHd hd →
        t.dev.get (shp .glk) GLK.DROP_FOREIGN = satU 16 (s.dev.get (shp .glk) GLK.DROP_FOREIGN + 1) % 2 ^ 16 ∧ t.dev.glk = { s.dev.glk with out := [] }) ∧
      (hd.hcrcOk = true → ¬ s.dev.foreignHd hd → hd.src.toNat = s.dev.ringPos → t.dev.glk = { s.dev.glk with out := [] }) ∧
      (hd.hcrcOk = true → ¬ s.dev.foreignHd hd → hd.src.toNat ≠ s.dev.ringPos →
        (let f := Dev.relayFrame port.val hd (some m) len []
         let goes := hd.hops ≠ 0 ∧ s.dev.linkUp (1 - port.val) = true
         f.port = 1 - port.val ∧ f.typ = hd.typ.toNat ∧ f.src = hd.src.toNat ∧ f.hops = hd.hops.toNat - 1 ∧ f.seq = hd.seq.toNat ∧ f.msg = some m ∧ f.fcsOk = hd.fcsOk ∧
         (goes → s.dev.portFull f = true → t.dev.glk.out = [] ∧ t.dev.glk.queue = s.dev.glk.queue ∧
           t.dev.get (shp .glk) GLK.QDROP_COUNT = satU 16 (s.dev.get (shp .glk) GLK.QDROP_COUNT + 1) % 2 ^ 16 ∧ t.dev.get (shp .glk) HDR.ERR_CODE = cGLK_QFULL) ∧
         (goes → s.dev.portFull f = false → t.dev.glk.out = [f] ∧ t.dev.glk.queue = s.dev.glk.queue ++ [f]) ∧
         (¬ goes → t.dev.glk.out = [] ∧ t.dev.glk.queue = s.dev.glk.queue)) ∧
        (hd.fcsOk = false → t.dev.get (shp .glk) GLK.ERR_CNT_FCS = satU 16 (s.dev.get (shp .glk) GLK.ERR_CNT_FCS + 1) % 2 ^ 16 ∧ t.dev.glk.inbox = s.dev.glk.inbox) ∧
        (hd.fcsOk = true → hd.src.toNat ≤ 17 →
          (∀ n b, (s.dev.node hd.src.toNat).accept hd.seq.toNat = (some n, b) →
            t.dev.glk.inbox = s.dev.glk.inbox ++ (if hd.typ.toNat = fHELLO ∨ n.joined = true ∧ n.mis = false then [m] else []) ∧
            t.dev.node hd.src.toNat = { n with epoch := hd.epoch.toNat, active := hd.active }) ∧
          (∀ b, (s.dev.node hd.src.toNat).accept hd.seq.toNat = (none, b) → t.dev.glk.inbox = s.dev.glk.inbox ∧ t.dev.glk.nodes = s.dev.glk.nodes))) := by
  refine ⟨_, hi.trans (onDev_out _ hout), rfl, Dev.keeps_glkLane m len hon hup, Dev.glkLane_hcrc m len hon hup, Dev.glkLane_foreign m len hon hup,
    Dev.glkLane_own m len hon hup, fun hcrc hf hsrc => ⟨⟨rfl, rfl, rfl, rfl, rfl, rfl, rfl, ?_, ?_, ?_⟩, ?_, fun hfcs h17 => ⟨fun n b ha => ?_, fun b ha => ?_⟩⟩⟩
  · exact fun hgoes hfull => Dev.glkLane_full m len hon hup hcrc hf hsrc hnear hgoes.1 hgoes.2 hfull
  · exact fun hgoes hroom => Dev.glkLane_sends m len hon hup hcrc hf hsrc hnear hgoes.1 hgoes.2 hroom
  · exact Dev.glkLane_stays m len hon hup hcrc hf hsrc hnear
  · exact Dev.glkLane_fcs m len hon hup hcrc hf hsrc
  · exact Dev.glkLane_new m len hon hup hcrc hf hsrc hnear hfcs h17 hsh ha
  · exact Dev.glkLane_seen m len hon hup hcrc hf hsrc hnear hfcs h17 ha

omit hout in
/-- The commands of the traffic of Shoal are frames of its lane. -/
theorem exec_lane {i : Instr} {port : Fin 2} {hd : GHdr} {m : GMsg} {len : Nat} {rs : List GRec} {fs : List GFwd} {ds : List GDec} {cs : List GCall}
    {sq : List (BitVec 6 × List GStop)} {full : Bool}
    (h : i = .recordsRx port hd rs ∧ m = .records hd.src.toNat rs ∧ len = 32 * rs.length ∨ i = .forwardRx port hd fs ∧ m = .forward hd.src.toNat fs ∧ len = 32 * fs.length ∨
        i = .decisionRx port hd ds cs sq ∧ m = .decision hd.src.toNat ds cs sq ∧ len = 32 * (ds.length + cs.length) + 8 * (sq.map (fun q => q.2.length)).sum ∨
        i = .reportReqRx port hd ∧ m = .reportReq hd.src.toNat ∧ len = 0 ∨ i = .reportRx port hd full cs ∧ m = .report hd.src.toNat full cs ∧ len = 32 * cs.length ∨
        i = .tablesRx port hd cs sq ∧ m = .tables hd.src.toNat cs sq ∧ len = 32 * cs.length + 8 * (sq.map (fun q => q.2.length)).sum) :
    exec i s = onDev (fun d => d.glkLane port.val hd m len) s := by
  rcases h with ⟨rfl, rfl, rfl⟩ | ⟨rfl, rfl, rfl⟩ | ⟨rfl, rfl, rfl⟩ | ⟨rfl, rfl, rfl⟩ | ⟨rfl, rfl, rfl⟩ | ⟨rfl, rfl, rfl⟩ <;> rfl

variable (hon : s.dev.glkOn = true)
include hon

theorem userRx_keeps_latest (hlen : s.dev.glk.nodes.length = 18) (port : Fin 2) (hd : GHdr) (data : List (BitVec 8)) {n : GNode} {b : Bool} (hup : s.dev.linkUp port = true)
    (hcrc : hd.hcrcOk = true) (hfcs : hd.fcsOk = true) (hver : hd.ver = 1) (hgrp : hd.group.toNat = s.dev.get (shp .glk) GLK.GROUP_ID) (ht : hd.typ.toNat = fUSER)
    (hsrc : hd.src.toNat ≠ s.dev.ringPos) (h17 : hd.src.toNat ≤ 17) (ha : (s.dev.node hd.src.toNat).accept hd.seq.toNat = (some n, b)) :
    ∃ t, exec (.userRx port hd data) s = .next t ∧ t.pending = s.pending ∧ s.dev.keeps t.dev [shp .glk] ∧
      (t.dev.node hd.src.toNat).user = if n.joined = true ∧ n.mis = false then data.map BitVec.toNat else n.user := by
  have hnf : ¬ s.dev.foreignHd hd := by
    rintro (h | h | h | h)
    · exact h hver
    · exact h hgrp
    · rw [ht] at h; cases h
    · rw [ht] at h; exact absurd h (by decide)
  have hnew := Dev.glkAccept_new (d := s.dev.glkBegin) (port := port.val) none data.length (data.map BitVec.toNat) hon hup hcrc hnf hsrc hfcs (by rw [ht]; rfl) h17 ha
  have hkeep : s.dev.keeps (s.dev.glkBegin.glkAccept port.val hd none data.length (data.map BitVec.toNat)).1 [shp .glk] :=
    (Dev.glkAccept_received (d := s.dev.glkBegin) (port := port.val) (hd := hd) none data.length (data.map BitVec.toNat) hon hup).edit.keeps
  obtain ⟨y, hy⟩ : ∃ y, y = s.dev.glkBegin.relayed port.val hd none data.length (data.map BitVec.toNat) := ⟨_, rfl⟩
  obtain ⟨o, q, hglk⟩ := s.dev.glkBegin.relayed_glk port.val hd none data.length (data.map BitVec.toNat)
  rw [hnew, ← hy] at hkeep
  rw [← hy] at hnew hglk
  have hylen : y.glk.nodes.length = 18 := by rw [hglk]; exact hlen
  have hnode : (y.entered hd n).node hd.src.toNat = { n with epoch := hd.epoch.toNat, active := hd.active } := by
    rw [Dev.entered_node n hylen h17, if_pos rfl]
  have hno : (hd.typ.toNat == fHELLO) = false := by rw [ht]; rfl
  have hdo : s.dev.userDo port.val hd (data.map BitVec.toNat) data.length =
      if (n.joined && !n.mis) = true then (y.entered hd n).modNode hd.src.toNat (fun n => { n with user := data.map BitVec.toNat }) else y.entered hd n := by
    unfold Dev.userDo
    rw [hnew, hno, Bool.false_or]
  have hrun := onDev_out (fun d => d.userDo port.val hd (data.map BitVec.toNat) data.length) hout
  rw [hdo] at hrun
  by_cases hgo : n.joined = true ∧ n.mis = false
  · rw [if_pos (by rw [hgo.1, hgo.2]; rfl)] at hrun
    refine ⟨_, hrun, rfl, hkeep, ?_⟩
    rw [if_pos hgo]
    have hin : hd.src.toNat < (y.entered hd n).glk.nodes.length := by
      rw [Dev.entered_glk]
      show hd.src.toNat < (lmod y.glk.nodes _ _).length
      rw [length_lmod]
      omega
    exact congrArg GNode.user (getD_lmod_same (fun n => { n with user := data.map BitVec.toNat }) GNode.init hin)
  · rw [if_neg (by simpa using hgo)] at hrun
    refine ⟨_, hrun, rfl, hkeep, ?_⟩
    rw [if_neg hgo, hnode]

theorem delayReq_goes (hreq : s.dev.glk.req.length = 2) (port : Fin 2) (t1 : BitVec 64) (hup : s.dev.linkUp port = true) :
    ∃ t, exec (.delayReqSend port t1) s = .next t ∧ t.pending = s.pending ∧ t.dev.regs = s.dev.regs ∧ t.dev.memories = s.dev.memories ∧
      t.dev.glk.req.getD port none = some t1.toNat ∧ (t.dev.glk.out.map (fun f => (f.port, f.typ))) = if s.dev.glk.dup = true then [] else [(port.val, fDELAY_REQ)] := by
  obtain ⟨x, hx⟩ : ∃ x, x = s.dev.glkBegin.modGlk (fun g => { g with req := lset g.req port.val (some t1.toNat) }) := ⟨_, rfl⟩
  have hrun := onDev_out (fun d => if d.glkOn && d.linkUp port.val then
    ((d.glkBegin).modGlk (fun g => { g with req := lset g.req port.val (some t1.toNat) })).glkLocal port.val fDELAY_REQ [] else d) hout
  rw [if_pos (by rw [hon, hup]; rfl), ← hx] at hrun
  have hxo : x.glk.out = [] ∧ x.glk.dup = s.dev.glk.dup ∧ x.glkOn = true ∧ x.linkUp port = true ∧ x.regs = s.dev.regs ∧ x.memories = s.dev.memories := by
    rw [hx]
    exact ⟨rfl, rfl, hon, hup, rfl, rfl⟩
  obtain ⟨hxo, hxd, hxon, hxup, hxr, hxm⟩ := hxo
  obtain ⟨hregs, hmem, hr, hfs⟩ := Dev.glkLocal_sends (d := x) (port := port.val) [] hxon hxup (.inl rfl)
  refine ⟨_, hrun, rfl, hregs.trans hxr, hmem.trans hxm, ?_, ?_⟩
  · rw [hr, hx]
    exact getD_lset_same _ _ (by show port.val < s.dev.glk.req.length; omega)
  · rw [hxo, hxd, List.map_nil, List.nil_append] at hfs
    rw [show (fun f : GFrame => (f.port, f.typ)) = (fun q : Nat × Nat × List Nat => (q.1, q.2.1)) ∘ (fun f => (f.port, f.typ, f.nums)) from rfl, ← List.map_map, hfs]
    split <;> rfl

omit hout in
/-- A time frame of a partner is good. -/
theorem glkAccept_time {port : Fin 2} {hd : GHdr} (len : Nat) (hup : s.dev.linkUp port = true) (hcrc : hd.hcrcOk = true) (hfcs : hd.fcsOk = true) (hver : hd.ver = 1)
    (hgrp : hd.group.toNat = s.dev.get (shp .glk) GLK.GROUP_ID) (hsrc : hd.src.toNat ≠ s.dev.ringPos) (ht : hd.typ.toNat = fDELAY_REQ ∨ hd.typ.toNat = fDELAY_RESP) :
    s.dev.glkBegin.glkAccept port.val hd none len = (s.dev.glkBegin, true) := by
  refine Dev.glkAccept_near (d := s.dev.glkBegin) none len [] hon hup hcrc ?_ hsrc hfcs (by rcases ht with ht | ht <;> rw [ht] <;> rfl)
  rintro (h | h | h | h)
  · exact h hver
  · exact h hgrp
  · rcases ht with ht | ht <;> rw [ht] at h <;> cases h
  · rcases ht with ht | ht <;> rw [ht] at h <;> exact absurd h (by decide)

theorem delayReq_answered {port : Fin 2} {hd : GHdr} (t2 t3 : BitVec 64) (hup : s.dev.linkUp port = true) (hcrc : hd.hcrcOk = true) (hfcs : hd.fcsOk = true) (hver : hd.ver = 1)
    (hgrp : hd.group.toNat = s.dev.get (shp .glk) GLK.GROUP_ID) (hsrc : hd.src.toNat ≠ s.dev.ringPos) (ht : hd.typ.toNat = fDELAY_REQ) :
    ∃ t, exec (.delayReqRx port hd t2 t3) s = .next t ∧ t.pending = s.pending ∧ t.dev.regs = s.dev.regs ∧ t.dev.memories = s.dev.memories ∧
      (t.dev.glk.out.map (fun f => (f.port, f.typ, f.nums))) = if s.dev.glk.dup = true then [] else [(port.val, fDELAY_RESP, [t2.toNat, t3.toNat])] := by
  have ha := glkAccept_time hon 0 hup hcrc hfcs hver hgrp hsrc (.inl ht)
  have hdo : s.dev.delayReqDo port.val hd t2.toNat t3.toNat = s.dev.glkBegin.glkLocal port.val fDELAY_RESP [t2.toNat, t3.toNat] := by
    unfold Dev.delayReqDo
    rw [ha]
    exact if_pos (by rw [ht]; rfl)
  have hrun := onDev_out (fun d => d.delayReqDo port.val hd t2.toNat t3.toNat) hout
  rw [hdo] at hrun
  obtain ⟨hregs, hmem, -, hfs⟩ := Dev.glkLocal_sends (d := s.dev.glkBegin) (port := port.val) [t2.toNat, t3.toNat] hon hup (.inr rfl)
  exact ⟨_, hrun, rfl, hregs, hmem, hfs⟩

theorem delayResp_completes (hreq : s.dev.glk.req.length = 2) (hdel : s.dev.glk.delays.length = 2) {port : Fin 2} {hd : GHdr} {t1 : Nat} (t2 t3 t4 : BitVec 64)
    (hup : s.dev.linkUp port = true) (hcrc : hd.hcrcOk = true) (hfcs : hd.fcsOk = true) (hver : hd.ver = 1) (hgrp : hd.group.toNat = s.dev.get (shp .glk) GLK.GROUP_ID)
    (hsrc : hd.src.toNat ≠ s.dev.ringPos) (ht : hd.typ.toNat = fDELAY_RESP) (h1 : s.dev.glk.req.getD port none = some t1) :
    let l := s.dev.exchanged port t1 t2.toNat t3.toNat t4.toNat
    ∃ t, exec (.delayRespRx port hd t2 t3 t4) s = .next t ∧ t.pending = s.pending ∧ t.dev.glk.req.getD port none = none ∧ t.dev.glk.delays.getD port [] = l ∧
      s.dev.keeps t.dev [shp .glk] ∧ (l.length = 8 → t.dev.linkDelay port = satU 16 (Int.fdiv l.sum l.length).toNat % 2 ^ 16) := by
  have ha := glkAccept_time hon 16 hup hcrc hfcs hver hgrp hsrc (.inr ht)
  have hdo : s.dev.delayRespDo port.val hd t2.toNat t3.toNat t4.toNat = s.dev.glkBegin.delayDone port.val t2.toNat t3.toNat t4.toNat := by
    unfold Dev.delayRespDo
    rw [ha]
    exact if_pos (by rw [ht]; rfl)
  have hrun := onDev_out (fun d => d.delayRespDo port.val hd t2.toNat t3.toNat t4.toNat) hout
  rw [hdo] at hrun
  exact ⟨_, hrun, rfl, Dev.delayDone_shows (d := s.dev.glkBegin) t2.toNat t3.toNat t4.toNat port.isLt hreq hdel h1⟩

theorem beaconSend_rule (sub : BitVec 14) :
    if s.dev.isManager = true ∧ s.dev.glkActive = true ∧ s.dev.glk.dup = false then
      ∃ t, exec (.glkBeaconSend sub) s = .next t ∧ t.pending = s.pending ∧ t.dev.regs = s.dev.regs ∧ t.dev.memories = s.dev.memories ∧
        t.dev.glk.seq = (s.dev.glk.seq + 1) % 65536 ∧ ∀ port : Fin 2, s.dev.linkUp port = true →
          ∃ f ∈ t.dev.glk.out, f.port = port.val ∧ f.typ = fBEACON ∧ f.seq = s.dev.glk.seq ∧ f.nums = [s.dev.now, sub.toNat, 0]
    else s.dev.isManager = false ∨ s.dev.glkActive = false → exec (.glkBeaconSend sub) s = .next s := by
  have hrun := onDev_out (fun d => if d.isManager && d.glkActive then (d.glkBegin).glkSend fBEACON 16 none [d.now, sub.toNat, 0] else d) hout
  split
  case isTrue h =>
    obtain ⟨hman, hact, hdup⟩ := h
    rw [if_pos (by rw [hman, hact]; rfl)] at hrun
    obtain ⟨hregs, hmem, hseq, hfs⟩ := Dev.glkSend_beacon (d := s.dev.glkBegin) 16 [s.dev.now, sub.toNat, 0] hon hdup
    exact ⟨_, hrun, rfl, hregs, hmem, hseq, fun port hup => ⟨_, hfs port hup, rfl, rfl, rfl, rfl⟩⟩
  case isFalse =>
    intro hno
    rw [if_neg (by rcases hno with h | h <;> rw [h] <;> simp)] at hrun
    exact hrun

omit hon in
theorem holdover_rule :
    if s.dev.follower = true ∧ (s.dev.get (shp .glk) GLK.TSYNC_STATE = 1 ∨ s.dev.get (shp .glk) GLK.TSYNC_STATE = 2) then
      ∃ t, exec .tsyncHoldover s = .next t ∧ t.pending = s.pending ∧ t.dev.get (shp .glk) GLK.TSYNC_STATE = 3 ∧ t.dev.glk.rate = s.dev.glk.freq ∧
        (s.dev.get (shp .glk) GLK.TSYNC_STATE = 2 → t.dev.get (shp .glk) HDR.ERR_CODE = cGLK_TSYNC_LOST) ∧ s.dev.keeps t.dev [shp .glk, shp .rtc]
    else exec .tsyncHoldover s = .next s := by
  have hrun := onDev_out (fun d =>
    let st := d.get (shp .glk) GLK.TSYNC_STATE
    if d.follower && (st == 1 || st == 2) then (d.tsyncGo 3).modGlk (fun g => { g with rate := g.freq }) else d) hout
  split
  case isTrue h =>
    have hgo : (s.dev.follower && (s.dev.get (shp .glk) GLK.TSYNC_STATE == 1 || s.dev.get (shp .glk) GLK.TSYNC_STATE == 2)) = true := by simpa using h
    obtain ⟨hst, hfreq, hlost⟩ := Dev.tsyncGo_shows (d := s.dev) (st := 3) rfl (by omega) (by decide)
    refine ⟨_, hrun, rfl, ?_⟩
    simp only [if_pos hgo]
    exact ⟨hst, hfreq, hlost, ((Dev.Edit.refl _ _ s.dev).tsyncGo 3).keeps⟩
  case isFalse h =>
    have hno : ¬ (s.dev.follower && (s.dev.get (shp .glk) GLK.TSYNC_STATE == 1 || s.dev.get (shp .glk) GLK.TSYNC_STATE == 2)) = true := by simpa using h
    simp only [if_neg hno] at hrun
    exact hrun

end

/-- Settles O48: the receipt of a frame by its branches, and the discipline by the registers it moves. -/
theorem groupFramesAndTime : Obligations.GroupFramesAndTime := by
  unfold Obligations.GroupFramesAndTime
  intro s hout hsh hon p
  obtain ⟨hnodes, hreq, hdel⟩ : s.dev.glk.nodes.length = 18 ∧ s.dev.glk.req.length = 2 ∧ s.dev.glk.delays.length = 2 := by
    simp only [Dev.shaped, Bool.and_eq_true, beq_iff_eq] at hsh
    tauto
  refine ⟨?_, ?_, fun port t1 hup => delayReq_goes hout hon hreq port t1 hup, ?_, beaconSend_rule hout hon, ?_, holdover_rule hout⟩
  · intro i port hd m len rs fs ds cs sq full hi hup hreqt hrespt
    have hnear : Dev.nearTyp hd.typ.toNat = false := by simp [Dev.nearTyp, hreqt, hrespt]
    exact glkLane_rule hout hnodes hon (exec_lane hi) hup hnear
  · intro port hd data n b hup hcrc hfcs hver hgrp ht hsrc h17 ha
    exact userRx_keeps_latest hout hon hnodes port hd data hup hcrc hfcs hver hgrp ht hsrc h17 ha
  · intro port hd t2 t3 t4 hup hcrc hfcs hver hgrp hsrc
    exact ⟨fun ht => delayReq_answered hout hon t2 t3 hup hcrc hfcs hver hgrp hsrc ht,
      fun t1 ht h1 => delayResp_completes hout hon hreq hdel t2 t3 t4 hup hcrc hfcs hver hgrp hsrc ht h1⟩
  · intro c ts sub n b hcrc hfcs hver hgrp ht hsrc h17 hup hk ha hj hm hf hact hold
    have hrun := onDev_out (fun d => d.beaconRx [c] ts.toNat sub.toNat) hout
    exact ⟨_, hrun, rfl, Dev.beaconRx_steers ts sub hon hnodes hcrc hfcs hver hgrp ht hsrc h17 hup hk ha hj hm hf hact hold⟩

end Sys2Proof.Machine
end

section
/-! PROOFS. Positions, roles and links of the group ring (R374, R377 to R380, R386, R387). -/
namespace Sys2Proof.Machine

open Sys2Proof

namespace Dev

/-! ### Steps of the role and of what is shown of the ring -/

/-- The registers that show the ring. -/
def showWs : List (Nat × Fld) :=
  tsyncWs ++ [GLK.HEARD0_MASK, GLK.HEARD1_MASK, GLK.COUNT_N, GLK.COUNT_W, GLK.ROLE_HAS_MGR, GLK.EPOCH_MGR_POS].map (fun f => (shp .glk, f))

/-- The registers that a tick of the role and of the ring moves. -/
def roleWs : List (Nat × Fld) := showWs ++ [GLK.ROLE_ACTIVE, GLK.EPOCH_ROLE, GLK.RING_STATE, GLK.SPLITS_COUNT, GLK.ROLE_PEER_TBL].map (fun f => (shp .glk, f))

/-- The pages of the ring, of its records and of the clock. -/
def glkPages : List Nat := [shp .glk, shp .slt, shp .rtc]

/-- Positions, duplicates and ports. -/
def ringPart (g : Glk) : List GNode × Nat × Bool × Nat × List GFrame × List GFrame × List (Option (GFrame × Nat)) := (g.nodes, g.seq, g.dup, g.dupAge, g.out, g.queue, g.cur)

/-- A step that moves some registers, and neither the positions nor the ports nor what is staged. -/
structure RoleStep (ws : List (Nat × Fld)) (d e : Dev) : Prop where
  edit : Edit glkPages ws d e
  part : ringPart e.glk = ringPart d.glk
  shadow : e.shadow = d.shadow

namespace RoleStep

variable {ws : List (Nat × Fld)} {d e x : Dev}

theorem refl (ws : List (Nat × Fld)) (d : Dev) : RoleStep ws d d := ⟨.refl .., rfl, rfl⟩

theorem trans (h : RoleStep ws d e) (g : RoleStep ws e x) : RoleStep ws d x := ⟨h.edit.trans g.edit, g.part.trans h.part, g.shadow.trans h.shadow⟩

theorem mono {vs : List (Nat × Fld)} (h : RoleStep ws d e) (hs : ∀ w ∈ ws, w ∈ vs) : RoleStep vs d e := ⟨h.edit.mono (fun _ hp => hp) hs, h.part, h.shadow⟩

theorem ite {c : Prop} [Decidable c] (h : c → RoleStep ws d e) (g : ¬ c → RoleStep ws d x) : RoleStep ws d (if c then e else x) := by
  split
  case isTrue hc => exact h hc
  case isFalse hc => exact g hc

theorem foldl {α : Type} {f : Dev → α → Dev} : ∀ (l : List α) (d : Dev), (∀ d, ∀ y ∈ l, RoleStep ws d (f d y)) → RoleStep ws d (l.foldl f d)
  | [], d, _ => refl ws d
  | y :: l, d, hf => (hf d y List.mem_cons_self).trans (foldl l _ fun d z hz => hf d z (List.mem_cons_of_mem _ hz))

theorem put (h : RoleStep ws d e) {p : Nat} {f : Fld} (hp : p ∈ glkPages) (hm : (p, f) ∈ ws) (hf : f.fits = true) (hc : 0 < f.cnt) (v : Nat) : RoleStep ws d (e.put p f v) :=
  ⟨h.edit.put hp hm hf hc v, h.part, h.shadow⟩

theorem modGlk (h : RoleStep ws d e) (g : Glk → Glk) (hg : ∀ x, ringPart (g x) = ringPart x) : RoleStep ws d (e.modGlk g) :=
  ⟨h.edit.modGlk g, (hg _).trans h.part, h.shadow⟩

theorem note (h : RoleStep ws d e) (p cls code det : Nat) (words : List Nat) : RoleStep ws d (e.note p cls code det words) :=
  ⟨h.edit.note (by simp [glkPages]) .., (congrArg ringPart (post_glk ..)).trans h.part, (post_shadow ..).trans h.shadow⟩

section
variable (hws : ∀ w ∈ showWs, w ∈ ws) (h : RoleStep ws d e)
include hws h

theorem putShown {f : Fld} (v : Nat) (hf : f.fits = true) (hc : 0 < f.cnt) (hm : (shp .glk, f) ∈ showWs) : RoleStep ws d (e.put (shp .glk) f v) :=
  h.put List.mem_cons_self (hws _ hm) hf hc v

theorem err (c y : Nat) : RoleStep ws d (e.err (shp .glk) c y) :=
  ⟨h.edit.err List.mem_cons_self (fun w hw => hws w (by simp [showWs, tsyncWs, hw])) c y, h.part, h.shadow⟩

theorem stat (k : Nat) : RoleStep ws d (e.stat (shp .glk) k) := h.putShown hws _ (by decide) (by decide) (by simp [showWs, tsyncWs])

theorem tsyncGo (st : Nat) : RoleStep ws d (e.tsyncGo st) := by
  unfold Dev.tsyncGo
  extract_lets p was d1 d2
  have h1 : RoleStep ws d d1 :=
    ((h.putShown hws st (by decide) (by decide) (by simp [showWs, tsyncWs])).stat hws _).modGlk _ fun _ => rfl
  have h2 : RoleStep ws d d2 := h1.put (by simp [glkPages]) (hws _ (by simp [showWs, tsyncWs])) (by decide) (by decide) _
  exact ite (fun _ => h) fun _ => ite (fun _ => h2.err hws _ _) fun _ => h2

theorem tsyncShow : RoleStep ws d e.tsyncShow := ite (fun _ => ite (fun _ => h.tsyncGo hws 1) fun _ => h) fun _ => h.tsyncGo hws 0

theorem ringShow : RoleStep ws d e.ringShow := by
  unfold Dev.ringShow
  extract_lets p mask best d1 d2
  have h1 : RoleStep ws d d1 :=
    ((h.putShown hws (mask 0) (by decide) (by decide) (by simp [showWs])).putShown hws (mask 1) (by decide) (by decide) (by simp [showWs])).putShown hws e.workersN (by decide) (by decide)
      (by simp [showWs])
  have h2 : RoleStep ws d d2 := (h1.putShown hws _ (by decide) (by decide) (by simp [showWs])).putShown hws _ (by decide) (by decide) (by simp [showWs])
  exact h2.putShown hws _ (by decide) (by decide) (by simp [showWs])

end

theorem showWs_role : ∀ w ∈ showWs, w ∈ roleWs := fun _ hw => List.mem_append_left _ hw

section
variable (h : RoleStep roleWs d e)
include h

theorem roleShow (active : Bool) : RoleStep roleWs d (e.roleShow active) := by
  have h1 : RoleStep roleWs d (e.putb (shp .glk) GLK.ROLE_ACTIVE active) := h.put List.mem_cons_self (by simp [roleWs]) (by decide) (by decide) _
  exact (h1.stat showWs_role 1).note ..

theorem roleDrop : RoleStep roleWs d e.roleDrop := by
  have h1 : RoleStep roleWs d (e.put (shp .glk) GLK.EPOCH_ROLE e.epochKnown) := h.put List.mem_cons_self (by simp [roleWs]) (by decide) (by decide) _
  have h2 : RoleStep roleWs d (((e.put (shp .glk) GLK.EPOCH_ROLE e.epochKnown).roleShow false).scopeAsk 1 true) :=
    (h1.roleShow false).modGlk (fun g => { g with scopeNext := some (1, true) }) fun _ => rfl
  exact h2.modGlk (fun g => { g with askReports := false, tblSent := none }) fun _ => rfl

theorem roleTick : RoleStep roleWs d e.roleTick :=
  ite (fun _ => h) fun _ => ite (fun _ => ite (fun _ => h.roleDrop) fun _ => ite (fun _ => h.roleDrop.err showWs_role _ _) fun _ => h) fun _ =>
    h.put List.mem_cons_self (by simp [roleWs]) (by decide) (by decide) _

theorem ringTick : RoleStep roleWs d e.ringTick := by
  unfold Dev.ringTick
  extract_lets p before d1 ms lost d2 st d3
  have h1 : RoleStep roleWs d d1 := h.ringShow showWs_role
  have h2 : RoleStep roleWs d d2 := h1.trans (foldl lost d1 fun x i _ => (refl _ x).err showWs_role _ _)
  have h3 : RoleStep roleWs d d3 := (h2.put List.mem_cons_self (by simp [roleWs]) (by decide) (by decide) _).stat showWs_role _
  exact ite (fun _ => h2) fun _ => ite (fun _ => h3.put List.mem_cons_self (by simp [roleWs]) (by decide) (by decide) _) fun _ => h3

end

/-- A register of the ring that such a step leaves. -/
theorem get (h : RoleStep ws d e) {f : Fld} (hc : clearOf ws (shp .glk) f = true) (hf : f.fits = true) (hcnt : 0 < f.cnt) : e.get (shp .glk) f = d.get (shp .glk) f :=
  h.edit.get _ f 0 (by decide) hc hf hcnt

theorem nodes (h : RoleStep ws d e) : e.glk.nodes = d.glk.nodes := (Prod.mk.inj h.part).1

theorem node (h : RoleStep ws d e) (i : Nat) : e.node i = d.node i := by rw [Dev.node, h.nodes, Dev.node]

theorem seq (h : RoleStep ws d e) : e.glk.seq = d.glk.seq := congrArg (fun q => q.2.1) h.part
theorem dup (h : RoleStep ws d e) : e.glk.dup = d.glk.dup := congrArg (fun q => q.2.2.1) h.part
theorem dupAge (h : RoleStep ws d e) : e.glk.dupAge = d.glk.dupAge := congrArg (fun q => q.2.2.2.1) h.part
theorem out (h : RoleStep ws d e) : e.glk.out = d.glk.out := congrArg (fun q => q.2.2.2.2.1) h.part
theorem queue (h : RoleStep ws d e) : e.glk.queue = d.glk.queue := congrArg (fun q => q.2.2.2.2.2.1) h.part
theorem cur (h : RoleStep ws d e) : e.glk.cur = d.glk.cur := congrArg (fun q => q.2.2.2.2.2.2) h.part

end RoleStep

/-! ### One position -/

/-- A step that moves the record of one position only. -/
structure OnePos (k : Nat) (d e : Dev) : Prop where
  keeps : d.keeps e [shp .glk, shp .slt]
  len : e.glk.nodes.length = d.glk.nodes.length
  other : ∀ j, j ≠ k → e.node j = d.node j

namespace OnePos

variable {k : Nat} {d e x : Dev}

theorem refl (k : Nat) (d : Dev) : OnePos k d d := ⟨keeps_refl d _, rfl, fun _ _ => rfl⟩

theorem trans (h : OnePos k d e) (g : OnePos k e x) : OnePos k d x :=
  ⟨keeps_trans h.keeps g.keeps, g.len.trans h.len, fun j hj => (g.other j hj).trans (h.other j hj)⟩

theorem ite {c : Prop} [Decidable c] (h : c → OnePos k d e) (g : ¬ c → OnePos k d x) : OnePos k d (if c then e else x) := by
  split
  case isTrue hc => exact h hc
  case isFalse hc => exact g hc

theorem modNode (h : OnePos k d e) (f : GNode → GNode) : OnePos k d (e.modNode k f) :=
  h.trans ⟨(keeps_modGlk_iff ..).mpr (keeps_refl e _), length_lmod .., fun _ hj => getD_lmod_ne _ _ _ hj⟩

theorem modGlk (h : OnePos k d e) (f : Glk → Glk) (hf : (f e.glk).nodes = e.glk.nodes) : OnePos k d (e.modGlk f) :=
  h.trans ⟨(keeps_modGlk_iff ..).mpr (keeps_refl e _), congrArg List.length hf, fun j _ => congrArg (fun l => l.getD j GNode.init) hf⟩

theorem put (h : OnePos k d e) (f : Fld) (v : Nat) (hf : f.fits = true) (hc : 0 < f.cnt) : OnePos k d (e.put (shp .glk) f v) :=
  h.trans ⟨(keeps_put_iff (by simp) hf hc (by decide)).mpr (keeps_refl e _), rfl, fun _ _ => rfl⟩

theorem stat (h : OnePos k d e) (b : Nat) : OnePos k d (e.stat (shp .glk) b) := h.put _ _ (by decide) (by decide)

theorem err (h : OnePos k d e) (c y : Nat) : OnePos k d (e.err (shp .glk) c y) :=
  ((h.put _ _ (by decide) (by decide)).put _ _ (by decide) (by decide)).put _ _ (by decide) (by decide)

theorem note (h : OnePos k d e) (p cls code det : Nat) (words : List Nat) : OnePos k d (e.note p cls code det words) :=
  h.trans ⟨(keeps_note_iff (by simp)).mpr (keeps_refl e _), congrArg (fun g => g.nodes.length) (post_glk ..),
    fun j _ => congrArg (fun g => g.nodes.getD j GNode.init) (post_glk ..)⟩

theorem glkMember (h : OnePos k d e) (i : Nat) (join : Bool) : OnePos k d (e.glkMember i join) := (h.stat 3).note ..

theorem glkGone (h : OnePos k d e) : OnePos k d (e.glkGone k) := ite (fun _ => (h.modNode _).glkMember _ _) fun _ => h.modNode _

end OnePos

section
variable {d : Dev} {k : Nat}

theorem node_modNode (f : GNode → GNode) (hk : k < d.glk.nodes.length) : (d.modNode k f).node k = f (d.node k) := getD_lmod_same f GNode.init hk

/-- The record of a position that has left. -/
def GNode.left (n : GNode) : GNode := { n with age0 := 255, age1 := 255, joined := false, mis := false, active := false, slot := none }

theorem glk_glkMember (d : Dev) (i : Nat) (join : Bool) : (d.glkMember i join).glk = d.glk := post_glk ..

theorem glkGone_node (hk : k < d.glk.nodes.length) : (d.glkGone k).node k = GNode.left (d.node k) := by
  have hn := node_modNode (d := d) (k := k) (fun n => { n with age0 := 255, age1 := 255, joined := false, mis := false, active := false, slot := none }) hk
  unfold glkGone
  extract_lets n d1
  split
  · exact (congrArg (fun g => g.nodes.getD k GNode.init) (glk_glkMember d1 k false)).trans hn
  · exact hn

/-- The duplicate rule leaves the membership. -/
theorem accept_member {n n' : GNode} {seq : Nat} {b : Bool} (h : n.accept seq = (some n', b)) : n'.mis = n.mis ∧ n'.joined = n.joined := by
  unfold GNode.accept at h
  revert h
  cases n.hi with
  | none =>
    intro h
    cases h
    exact ⟨rfl, rfl⟩
  | some hi =>
    dsimp only
    split_ifs <;> intro h <;> cases h <;> exact ⟨rfl, rfl⟩

end

/-! ### HELLO -/

section
variable {d : Dev} {port : Nat} {hd : GHdr}

/-- A HELLO after the boot count of its sender. -/
def booted (d : Dev) (hd : GHdr) (boots : Nat) : Dev :=
  if (d.node hd.src.toNat).boots != boots then d.modNode hd.src.toNat (fun n => { n with boots := boots, hi := none, seen := 0 }) else d

/-- A HELLO at a port. -/
def helloAt (d : Dev) (port : Nat) (hd : GHdr) (cfg dev boots w heard : Nat) : Dev :=
  ((d.booted hd boots).glkBegin.glkAccept port hd none 25 [cfg, dev, boots, w, heard]).1

/-- A HELLO of another configuration. -/
def setAside (d : Dev) (src : Nat) : Dev :=
  (((d.modNode src (fun n => { n with mis := true, joined := false, slot := none })).stat (shp .glk) 5).err (shp .glk) cGLK_CFG_MISMATCH src).note (shp .glk) clsState
    cGLK_CFG_MISMATCH src

/-- A HELLO of a member. -/
def member (d : Dev) (hd : GHdr) (was : Bool) : Dev :=
  let src := hd.src.toNat
  let d := d.modNode src (fun n => { n with mis := false, joined := true })
  let d := if was then d else d.glkMember src true
  let d := if !was && d.glkActive && bitN d.managers src = 1 then (d.modGlk (fun g => { g with tblSent := some d.tablesAll })).put (shp .glk) GLK.ROLE_PEER_TBL 0 else d
  if d.isWorker && hd.active then d.scopeAsk 2 false else d

/-- The sender of a HELLO as it is heard. -/
def heardOn (d : Dev) (port src dev cfg : Nat) : Dev :=
  d.modNode src (fun n => { n with dev := dev, cfg := cfg, age0 := if port = 0 then 0 else n.age0, age1 := if port = 1 then 0 else n.age1 })

/-- A HELLO that has reached its port. -/
def helloDone (x : Dev) (port : Nat) (hd : GHdr) (cfg dev : Nat) : Dev :=
  if hd.leave then x.glkGone hd.src.toNat
  else
    let y := x.heardOn port hd.src.toNat dev cfg
    if cfg ≠ y.get (shp .glk) GLK.CFG_ID_ID then (if (x.node hd.src.toNat).mis then y else y.setAside hd.src.toNat)
    else y.member hd (x.node hd.src.toNat).joined

theorem helloRx_eq {cfg dev boots w heard : Nat} (hon : d.glkOn = true) (hup : d.linkUp port = true) (hcrc : hd.hcrcOk = true) (hfcs : hd.fcsOk = true) (hver : hd.ver = 1)
    (hgrp : hd.group.toNat = d.get (shp .glk) GLK.GROUP_ID) (ht : hd.typ.toNat = fHELLO) (h17 : hd.src.toNat ≤ 17) (hsrc : hd.src.toNat ≠ d.ringPos)
    (hpos : (d.helloAt port hd cfg dev boots w heard).ringPos = d.ringPos) :
    d.helloRx port hd cfg dev boots w heard = (d.helloAt port hd cfg dev boots w heard).helloDone port hd cfg dev := by
  unfold helloRx
  extract_lets p src good d1 d2
  have hgood : good = true := by
    show (d.glkOn && d.linkUp port && hd.hcrcOk && hd.fcsOk && hd.ver == 1 && hd.group.toNat == d.get p GLK.GROUP_ID && hd.typ.toNat == fHELLO) = true
    rw [hon, hup, hcrc, hfcs, hver, hgrp, ht]
    simp [p]
  have hb : d1 = d.booted hd boots := by
    show (if (good && decide (src ≤ 17) && src != d.ringPos && (d.node src).boots != boots) = true then _ else _) = _
    rw [hgood, decide_eq_true h17, show (src != d.ringPos) = true from bne_iff_ne.mpr hsrc]
    rfl
  have hx : d2 = d.helloAt port hd cfg dev boots w heard := by
    show (d1.glkBegin.glkAccept port hd none 25 [cfg, dev, boots, w, heard]).1 = _
    rw [hb]
    rfl
  rw [← hx] at hpos ⊢
  rw [if_neg (by rw [hgood]; simpa using h17)]
  refine (if_neg (by rw [hpos]; exact hsrc)).trans ?_
  rfl

end

end Dev

end Sys2Proof.Machine
end

section
/-! PROOFS. HELLO, ticks, roles and links of the group ring (R374, R378, R380, R386 to R388). -/
namespace Sys2Proof.Machine

open Sys2Proof

namespace Dev

/-! ### A HELLO at its port -/

section
variable {d : Dev} {port : Nat} {hd : GHdr}

theorem booted_eq (boots : Nat) : ∃ g, d.booted hd boots = d.modGlk g := by
  unfold booted
  split
  · exact ⟨_, rfl⟩
  · exact ⟨id, rfl⟩

/-- What a HELLO leaves when it has reached its port. -/
structure AtPort (hd : GHdr) (d x : Dev) : Prop where
  edit : Edit [shp .glk] lineWs d x
  pos : OnePos hd.src.toNat d x
  mis : (x.node hd.src.toNat).mis = (d.node hd.src.toNat).mis

theorem booted_at (boots : Nat) (hk : hd.src.toNat < d.glk.nodes.length) : AtPort hd d (d.booted hd boots) := by
  unfold booted
  split
  · exact ⟨(Edit.refl ..).modGlk _, (OnePos.refl ..).modNode _, by rw [node_modNode _ hk]⟩
  · exact ⟨.refl .., .refl .., rfl⟩

theorem relayed_at (x : Dev) (len : Nat) (nums : List Nat) : AtPort hd x (x.relayed port hd none len nums) := by
  obtain ⟨hedit, o, q, ns, hglk⟩ := Received.relayed port hd none len nums (.refl (x.relayed port hd none len nums))
  obtain ⟨o', q', hg⟩ := x.relayed_glk port hd none len nums
  exact ⟨hedit, ⟨keeps_mono hedit.keeps (by simp), by rw [hg], fun j _ => relayed_node ..⟩, by rw [relayed_node]⟩

theorem helloAt_shows {cfg dev boots w heard : Nat} (hon : d.glkOn = true) (hup : d.linkUp port = true) (hcrc : hd.hcrcOk = true) (hfcs : hd.fcsOk = true) (hver : hd.ver = 1)
    (hgrp : hd.group.toNat = d.get (shp .glk) GLK.GROUP_ID) (ht : hd.typ.toNat = fHELLO) (h17 : hd.src.toNat ≤ 17) (hsrc : hd.src.toNat ≠ d.ringPos)
    (hlen : d.glk.nodes.length = 18) : AtPort hd d (d.helloAt port hd cfg dev boots w heard) := by
  have hb := booted_at (d := d) (hd := hd) boots (by omega)
  obtain ⟨g, hg⟩ := booted_eq (d := d) (hd := hd) boots
  obtain ⟨y, hy⟩ : ∃ y, y = (d.booted hd boots).glkBegin := ⟨_, rfl⟩
  have hym : y = (d.modGlk g).glkBegin := by rw [hy, hg]
  have hyb : AtPort hd d y := by
    rw [hy]
    exact ⟨hb.edit.modGlk _, hb.pos.modGlk _ rfl, hb.mis⟩
  have hyl : y.glk.nodes.length = 18 := hyb.pos.len.trans hlen
  have hyon : y.glkOn = true := by rw [hym]; exact hon
  have hyup : y.linkUp port = true := by rw [hym]; exact hup
  have hys : hd.src.toNat ≠ y.ringPos := by rw [hym]; exact hsrc
  have hnf : ¬ y.foreignHd hd := by
    rw [hym]
    rintro (h | h | h | h)
    · exact h hver
    · exact h hgrp
    · rw [ht] at h; cases h
    · rw [ht] at h; exact absurd h (by decide)
  have hx : AtPort hd y (y.glkAccept port hd none 25 [cfg, dev, boots, w, heard]).1 := by
    have hr := relayed_at (hd := hd) (port := port) y 25 [cfg, dev, boots, w, heard]
    have hedit := (glkAccept_received (d := y) (port := port) (hd := hd) none 25 [cfg, dev, boots, w, heard] hyon hyup).edit
    rcases ha : (y.node hd.src.toNat).accept hd.seq.toNat with ⟨_ | n, b⟩
    · obtain ⟨hglk, -⟩ := glkAccept_seen (d := y) none 25 [cfg, dev, boots, w, heard] hyon hyup hcrc hnf hys hfcs (by rw [ht]; rfl) h17 ha
      have hn (j : Nat) : (y.glkAccept port hd none 25 [cfg, dev, boots, w, heard]).1.node j = y.node j := by
        rw [node, hglk, ← node, relayed_node]
      exact ⟨hedit, ⟨keeps_mono hedit.keeps (by simp), by rw [hglk]; exact hr.pos.len, fun j _ => hn j⟩, by rw [hn]⟩
    · have hnew := glkAccept_new (d := y) none 25 [cfg, dev, boots, w, heard] hyon hyup hcrc hnf hys hfcs (by rw [ht]; rfl) h17 ha
      rw [hnew] at hedit ⊢
      have hrl : (y.relayed port hd none 25 [cfg, dev, boots, w, heard]).glk.nodes.length = 18 := hr.pos.len.trans hyl
      have hn := entered_node (d := y.relayed port hd none 25 [cfg, dev, boots, w, heard]) n hrl h17
      refine ⟨hedit, ⟨keeps_mono hedit.keeps (by simp), ?_, fun j hj => ?_⟩, ?_⟩
      · rw [entered_glk]
        exact (length_lmod ..).trans hr.pos.len
      · rw [hn, if_neg hj, relayed_node]
      · rw [hn, if_pos rfl]
        exact (accept_member ha).1
  have hfin : d.helloAt port hd cfg dev boots w heard = (y.glkAccept port hd none 25 [cfg, dev, boots, w, heard]).1 := by rw [hy]; rfl
  rw [hfin]
  exact ⟨hyb.edit.trans hx.edit, hyb.pos.trans hx.pos, hx.mis.trans hyb.mis⟩

/-! ### What a HELLO does to the membership -/

theorem setAside_shows (y : Dev) {k : Nat} (hk : k < y.glk.nodes.length) : OnePos k y (y.setAside k) ∧ ((y.setAside k).node k).joined = false ∧ ((y.setAside k).node k).mis = true ∧
    (y.setAside k).get (shp .glk) HDR.ERR_CODE = cGLK_CFG_MISMATCH := by
  obtain ⟨z, hz⟩ : ∃ z, z = y.modNode k (fun n => { n with mis := true, joined := false, slot := none }) := ⟨_, rfl⟩
  have hzn : z.node k = { y.node k with mis := true, joined := false, slot := none } := by
    rw [hz]
    exact node_modNode (fun n => { n with mis := true, joined := false, slot := none }) hk
  have hrun : y.setAside k = ((z.stat (shp .glk) 5).err (shp .glk) cGLK_CFG_MISMATCH k).note (shp .glk) clsState cGLK_CFG_MISMATCH k := by rw [hz]; rfl
  have hn : (y.setAside k).node k = z.node k := by
    rw [hrun]
    exact congrArg (fun g => g.nodes.getD k GNode.init) (post_glk ..)
  refine ⟨?_, by rw [hn, hzn], by rw [hn, hzn], ?_⟩
  · rw [hrun, hz]
    exact ((((OnePos.refl k y).modNode _).stat _).err _ _).note ..
  · rw [hrun, get_note_other _ _ _ _ _ (by decide) (by decide) (by decide) (by decide)]
    exact get_err_code ..

theorem member_shows (y : Dev) (was : Bool) (hk : hd.src.toNat < y.glk.nodes.length) : OnePos hd.src.toNat y (y.member hd was) ∧
    (y.member hd was).node hd.src.toNat = { y.node hd.src.toNat with mis := false, joined := true } := by
  unfold member
  extract_lets src d1 d2 d3
  have h1 : OnePos src y d1 := (OnePos.refl src y).modNode _
  have h2 : OnePos src y d2 := OnePos.ite (fun _ => h1) fun _ => h1.glkMember _ _
  have h3 : OnePos src y d3 := OnePos.ite (fun _ => (h2.modGlk _ rfl).put _ _ (by decide) (by decide)) fun _ => h2
  have n1 : d1.node src = { y.node src with mis := false, joined := true } := node_modNode (fun n => { n with mis := false, joined := true }) hk
  have n2 : d2.node src = d1.node src := by
    show (if was = true then d1 else d1.glkMember src true).node src = _
    split
    · rfl
    · exact congrArg (fun g => g.nodes.getD src GNode.init) (glk_glkMember d1 src true)
  have n3 : d3.node src = d2.node src := by
    show (if _ then _ else d2).node src = _
    split <;> rfl
  refine ⟨OnePos.ite (fun _ => h3.modGlk _ rfl) fun _ => h3, ?_⟩
  rw [← n1, ← n2, ← n3]
  split <;> rfl

theorem heardOn_shows (x : Dev) {k : Nat} (dev cfg : Nat) (hk : k < x.glk.nodes.length) : OnePos k x (x.heardOn port k dev cfg) ∧
    (x.heardOn port k dev cfg).node k = { x.node k with dev := dev, cfg := cfg, age0 := if port = 0 then 0 else (x.node k).age0, age1 := if port = 1 then 0 else (x.node k).age1 } :=
  ⟨(OnePos.refl k x).modNode _, node_modNode (fun n => { n with dev := dev, cfg := cfg, age0 := if port = 0 then 0 else n.age0, age1 := if port = 1 then 0 else n.age1 }) hk⟩

/-- What a HELLO does to its sender. -/
structure Hello (port : Nat) (hd : GHdr) (cfg dev : Nat) (d t : Dev) : Prop where
  leaves : hd.leave = true → (t.node hd.src.toNat).joined = false ∧ (t.node hd.src.toNat).active = false ∧ (t.node hd.src.toNat).heard = false
  joins : hd.leave = false → cfg = d.get (shp .glk) GLK.CFG_ID_ID → (t.node hd.src.toNat).joined = true ∧ (t.node hd.src.toNat).mis = false ∧
    (t.node hd.src.toNat).on port = true ∧ (t.node hd.src.toNat).dev = dev
  aside : hd.leave = false → cfg ≠ d.get (shp .glk) GLK.CFG_ID_ID → (d.node hd.src.toNat).mis = false → (t.node hd.src.toNat).joined = false ∧
    (t.node hd.src.toNat).mis = true ∧ t.get (shp .glk) HDR.ERR_CODE = cGLK_CFG_MISMATCH

theorem helloDone_shows {x : Dev} {cfg dev : Nat} (hp : port < 2) (hx : AtPort hd d x) (hk : hd.src.toNat < d.glk.nodes.length) :
    OnePos hd.src.toNat x (x.helloDone port hd cfg dev) ∧ Hello port hd cfg dev d (x.helloDone port hd cfg dev) := by
  have hkx : hd.src.toNat < x.glk.nodes.length := by rw [hx.pos.len]; exact hk
  have hcfg : x.get (shp .glk) GLK.CFG_ID_ID = d.get (shp .glk) GLK.CFG_ID_ID := hx.edit.get _ _ 0 (by decide) (by decide) (by decide) (by decide)
  unfold helloDone
  cases hl : hd.leave with
  | true =>
    rw [if_pos rfl]
    have hn := glkGone_node hkx
    refine ⟨(OnePos.refl ..).glkGone, fun _ => ?_, fun h => absurd (hl.symm.trans h) (by decide), fun h => absurd (hl.symm.trans h) (by decide)⟩
    rw [hn]
    exact ⟨rfl, rfl, rfl⟩
  | false =>
    rw [if_neg (by decide)]
    extract_lets y
    obtain ⟨hyp, hyn⟩ := heardOn_shows (port := port) x dev cfg hkx
    have hky : hd.src.toNat < y.glk.nodes.length := by rw [hyp.len]; exact hkx
    have hyc : y.get (shp .glk) GLK.CFG_ID_ID = d.get (shp .glk) GLK.CFG_ID_ID := hcfg
    have hleft {t : Dev} : hd.leave = true → (t.node hd.src.toNat).joined = false ∧ (t.node hd.src.toNat).active = false ∧ (t.node hd.src.toNat).heard = false :=
      fun h => absurd (hl.symm.trans h) (by decide)
    rw [hyc]
    by_cases hc : cfg = d.get (shp .glk) GLK.CFG_ID_ID
    · rw [if_neg (not_not_intro hc)]
      obtain ⟨hmp, hmn⟩ := member_shows (hd := hd) y (x.node hd.src.toNat).joined hky
      refine ⟨hyp.trans hmp, hleft, fun _ _ => ?_, fun _ hne => absurd hc hne⟩
      rw [hmn, hyn]
      refine ⟨rfl, rfl, ?_, rfl⟩
      rcases (by omega : port = 0 ∨ port = 1) with rfl | rfl <;> rfl
    · rw [if_pos hc]
      cases hm : (x.node hd.src.toNat).mis with
      | true => exact ⟨hyp, hleft, fun _ he => absurd he hc, fun _ _ hno => absurd (hm.symm.trans (hx.mis.trans hno)) (by decide)⟩
      | false =>
        rw [if_neg (by decide)]
        obtain ⟨hsp, hsj, hsm, hse⟩ := setAside_shows y hky
        exact ⟨hyp.trans hsp, hleft, fun _ he => absurd he hc, fun _ _ _ => ⟨hsj, hsm, hse⟩⟩

end

/-! ### The own HELLO -/

section
variable {d : Dev}

theorem portFull_room {f : GFrame} (h1 : d.glkPrio f ≠ 1) (h : (d.glk.queue.filter (fun x => x.port == f.port)).length < 32) : d.portFull f = false := by
  unfold portFull
  extract_lets room like
  have hle : (d.glk.queue.filter like).length ≤ (d.glk.queue.filter (fun x => x.port == f.port)).length := by
    refine (List.monotone_filter_right _ fun x hx => ?_).length_le
    have hx : ((x.port == f.port && (d.glkPrio x == 1) == (d.glkPrio f == 1)) && d.glkPrio x != 0) = true := hx
    exact (Bool.and_eq_true_iff.mp (Bool.and_eq_true_iff.mp hx).1).1
  rw [if_neg h1, decide_eq_false (by omega), Bool.and_false]

theorem glkPrio_own {f : GFrame} (hsrc : f.src = d.ringPos) : d.glkPrio f ≠ 1 := by
  unfold glkPrio
  split
  · decide
  · rw [if_neg (not_not_intro hsrc)]
    omega

theorem glkPort_out (f g : GFrame) (h : g ∈ d.glk.out) : g ∈ (d.glkPort f).glk.out := by
  unfold glkPort
  extract_lets p
  split
  · exact h
  · split
    · exact h
    · exact List.mem_append_left _ h

theorem glkPort_seq (f : GFrame) : (d.glkPort f).glk.seq = d.glk.seq ∧ (d.glkPort f).glk.nodes = d.glk.nodes ∧ (d.glkPort f).glk.dupAge = d.glk.dupAge := by
  obtain ⟨o, q, he⟩ := d.glkPort_glk f
  rw [he]
  exact ⟨rfl, rfl, rfl⟩

theorem glkSend_glk (typ len : Nat) (msg : Option GMsg) (nums : List Nat) (leave : Bool) :
    (d.glkSend typ len msg nums leave).glk.nodes = d.glk.nodes ∧ (d.glkSend typ len msg nums leave).glk.dupAge = d.glk.dupAge := by
  unfold glkSend
  extract_lets f
  split
  · exact ⟨rfl, rfl⟩
  · obtain ⟨-, hn0, ha0⟩ := glkPort_seq (d := d.modGlk (fun g => { g with seq := (g.seq + 1) % 65536 })) (f 0)
    obtain ⟨-, hn1, ha1⟩ := glkPort_seq (d := (d.modGlk (fun g => { g with seq := (g.seq + 1) % 65536 })).glkPort (f 0)) (f 1)
    exact ⟨hn1.trans hn0, ha1.trans ha0⟩

/-- A frame that finds room goes out. -/
theorem glkPort_goes {f : GFrame} (hup : d.linkUp f.port = true) (hsrc : f.src = d.ringPos) (hroom : (d.glk.queue.filter (fun x => x.port == f.port)).length < 32) :
    f ∈ (d.glkPort f).glk.out := by
  rw [glkPort_sends _ _ hup (portFull_room (glkPrio_own hsrc) hroom), glk_modGlk]
  exact List.mem_append_right _ (List.mem_singleton.mpr rfl)

/-- A frame at one port takes no room at the other. -/
theorem glkPort_queue {f : GFrame} {port : Nat} (h : f.port ≠ port) :
    ((d.glkPort f).glk.queue.filter (fun x => x.port == port)) = d.glk.queue.filter (fun x => x.port == port) := by
  unfold glkPort
  extract_lets p
  split
  · rfl
  · split
    · rfl
    · show (d.glk.queue ++ [f]).filter _ = _
      rw [List.filter_append, List.filter_cons_of_neg (by simpa using h), List.filter_nil, List.append_nil]

/-- An own frame goes out on each port with a link and room. -/
theorem glkSend_goes {typ len : Nat} {msg : Option GMsg} {nums : List Nat} {leave : Bool} (hon : d.glkOn = true) (hdup : d.glk.dup = false) (port : Fin 2)
    (hup : d.linkUp port = true) (hroom : (d.glk.queue.filter (fun f => f.port == port.val)).length < 32) :
    d.sent port typ len msg nums leave ∈ (d.glkSend typ len msg nums leave).glk.out := by
  rw [glkSend_eq _ _ _ _ _ hon hdup]
  obtain ⟨x, hx⟩ : ∃ x, x = d.modGlk (fun g => { g with seq := (g.seq + 1) % 65536 }) := ⟨_, rfl⟩
  rw [← hx]
  have hxup : x.linkUp port = true := by rw [hx]; exact hup
  have hxq : x.glk.queue = d.glk.queue := by rw [hx]; rfl
  have hxp : x.ringPos = d.ringPos := by rw [hx]; rfl
  match port with
  | 0 => exact glkPort_out _ _ (glkPort_goes (f := d.sent 0 typ len msg nums leave) hxup hxp.symm (by rw [hxq]; exact hroom))
  | 1 =>
    have hget (f : Fld) (hc : clearOf dropWs (shp .glk) f = true) (hf : f.fits = true) (hcnt : 0 < f.cnt) :
        (x.glkPort (d.sent 0 typ len msg nums leave)).get (shp .glk) f = x.get (shp .glk) f := (x.glkPort_edit _).get _ f 0 (by decide) hc hf hcnt
    refine glkPort_goes (f := d.sent 1 typ len msg nums leave) ?_ ?_ ?_
    · show (x.glkPort _).linkUp 1 = true
      rw [linkUp, hget _ (by decide) (by decide) (by decide)]
      exact hxup
    · rw [ringPos, hget _ (by decide) (by decide) (by decide)]
      exact hxp.symm
    · rw [glkPort_queue (f := d.sent 0 typ len msg nums leave) (port := (d.sent 1 typ len msg nums leave).port) (by show (0 : Nat) ≠ 1; decide), hxq]
      exact hroom

theorem glkSend_seq {typ len : Nat} {msg : Option GMsg} {nums : List Nat} {leave : Bool} (hon : d.glkOn = true) (hdup : d.glk.dup = false) :
    (d.glkSend typ len msg nums leave).glk.seq = (d.glk.seq + 1) % 65536 := by
  rw [glkSend_eq _ _ _ _ _ hon hdup]
  exact (glkPort_seq _).1.trans (glkPort_seq _).1

end

end Dev

end Sys2Proof.Machine
end

section
/-! PROOFS. Ticks, roles, links and the end of the ring (R374, R378, R380, R386 to R388). -/
namespace Sys2Proof.Machine

open Sys2Proof

namespace Dev

/-! ### A tick -/

section
variable {d : Dev}

/-- The count of ticks goes up to its end. -/
def older (a : Nat) : Nat := min 255 (a + 1)

theorem older_kept (a : Nat) : older a > 3 ↔ ¬ a < 3 := by
  unfold older
  omega

theorem older_heard (a b : Nat) : (!(decide (older a > 3) && decide (older b > 3))) = decide (a < 3 ∨ b < 3) := by
  rw [Bool.eq_iff_iff, Bool.not_eq_true', ← Bool.not_eq_true, Bool.and_eq_true, decide_eq_true_eq, decide_eq_true_eq, decide_eq_true_eq, older_kept, older_kept]
  omega

/-- The positions are a tick older. -/
def aged (d : Dev) : Dev :=
  ((d.glkBegin).modGlk (fun g => { g with dupAge := older g.dupAge, dup := g.dup && decide (older g.dupAge ≤ 3) })).modGlk
    (fun g => { g with nodes := g.nodes.map (fun n => { n with age0 := older n.age0, age1 := older n.age1 }) })

/-- A position that is no longer heard leaves. -/
def unheard (d : Dev) (i : Nat) : Dev :=
  if ((d.node i).joined || (d.node i).mis) && decide ((d.node i).age0 > 3) && decide ((d.node i).age1 > 3) then d.glkGone i else d

/-- The members after a tick. -/
def thinned (d : Dev) : Dev := (List.range 18).foldl unheard d.aged

theorem helloTick_eq (hon : d.glkOn = true) : d.helloTick = ((d.thinned.roleTick).ringTick).tsyncShow.glkHello false := by
  unfold helloTick
  rw [if_neg (by rw [hon]; decide)]
  rfl

theorem node_aged {k : Nat} (hk : k < d.glk.nodes.length) : d.aged.node k = { d.node k with age0 := older (d.node k).age0, age1 := older (d.node k).age1 } := by
  show (d.glk.nodes.map _).getD k GNode.init = _
  rw [List.getD_eq_getElem?_getD, List.getElem?_map, List.getElem?_eq_getElem hk]
  show GNode.mk .. = _
  rw [node, List.getD_eq_getElem?_getD, List.getElem?_eq_getElem hk]
  rfl

/-- A step that moves positions only, beside some registers. -/
structure NodeStep (d e : Dev) : Prop where
  edit : Edit glkPages roleWs d e
  len : e.glk.nodes.length = d.glk.nodes.length
  rest : (ringPart e.glk).2 = (ringPart d.glk).2

theorem NodeStep.refl (d : Dev) : NodeStep d d := ⟨.refl .., rfl, rfl⟩

theorem NodeStep.trans {e x : Dev} (h : NodeStep d e) (g : NodeStep e x) : NodeStep d x := ⟨h.edit.trans g.edit, g.len.trans h.len, g.rest.trans h.rest⟩

theorem NodeStep.modNode {e : Dev} (h : NodeStep d e) (i : Nat) (f : GNode → GNode) : NodeStep d (e.modNode i f) :=
  ⟨h.edit.modGlk _, (length_lmod ..).trans h.len, h.rest⟩

theorem nodeStep_glkGone (d : Dev) (i : Nat) : NodeStep d (d.glkGone i) := by
  unfold glkGone
  extract_lets n d1
  have h1 : NodeStep d d1 := (NodeStep.refl d).modNode i _
  split
  · refine ⟨?_, ?_, ?_⟩
    · exact (h1.edit.stat (ws := roleWs) List.mem_cons_self (by simp [roleWs, showWs, tsyncWs]) 3).note (by simp [glkPages]) ..
    · rw [glk_glkMember]
      exact h1.len
    · rw [glk_glkMember]
      exact h1.rest
  · exact h1

theorem nodeStep_unheard (d : Dev) (i : Nat) : NodeStep d (d.unheard i) := by
  unfold unheard
  split
  · exact d.nodeStep_glkGone i
  · exact .refl d

theorem nodeStep_foldl : ∀ (l : List Nat) (d : Dev), NodeStep d (l.foldl unheard d)
  | [], d => .refl d
  | i :: l, d => (d.nodeStep_unheard i).trans (nodeStep_foldl l _)

theorem unheard_other {i k : Nat} (h : k ≠ i) : (d.unheard i).node k = d.node k := by
  unfold unheard
  split
  · exact (OnePos.refl i d).glkGone.other k h
  · rfl

theorem unheard_joined {k : Nat} (hk : k < d.glk.nodes.length) :
    ((d.unheard k).node k).joined = ((d.node k).joined && !(decide ((d.node k).age0 > 3) && decide ((d.node k).age1 > 3))) := by
  unfold unheard
  split
  case isTrue h =>
    rw [glkGone_node hk, show (decide ((d.node k).age0 > 3) && decide ((d.node k).age1 > 3)) = true by
      rw [Bool.and_assoc, Bool.and_eq_true] at h
      exact h.2, Bool.not_true, Bool.and_false]
    rfl
  case isFalse h =>
    revert h
    cases (d.node k).joined <;> cases decide ((d.node k).age0 > 3) <;> cases decide ((d.node k).age1 > 3) <;> cases (d.node k).mis <;> decide

theorem thinned_joined {k : Nat} (hk : k < 18) (hlen : d.glk.nodes.length = 18) :
    (d.thinned.node k).joined = ((d.node k).joined && decide ((d.node k).age0 < 3 ∨ (d.node k).age1 < 3)) := by
  have halen : d.aged.glk.nodes.length = 18 := List.length_map .. |>.trans hlen
  have hfin : (d.thinned.node k).joined = ((d.aged.node k).joined && !(decide ((d.aged.node k).age0 > 3) && decide ((d.aged.node k).age1 > 3))) := by
    refine foldl_hit (f := unheard) (P := fun x => x.node k = d.aged.node k ∧ x.glk.nodes.length = 18)
      (Q := fun x => (x.node k).joined = ((d.aged.node k).joined && !(decide ((d.aged.node k).age0 > 3) && decide ((d.aged.node k).age1 > 3)))) (a := k) (List.range 18) d.aged
      (fun x i _ hi hx => ⟨(unheard_other hi.symm).trans hx.1, (x.nodeStep_unheard i).len.trans hx.2⟩) (fun x hx => ?_)
      (fun x i _ hi hx => by rw [unheard_other hi.symm]; exact hx) (List.mem_range.mpr hk) List.nodup_range ⟨rfl, halen⟩
    rw [unheard_joined (by omega), hx.1]
  rw [hfin, node_aged (by omega)]
  exact congrArg ((d.node k).joined && ·) (older_heard _ _)

/-- A tick ages, lets leave, and sends the own HELLO. -/
theorem helloTick_shows (hon : d.glkOn = true) (hlen : d.glk.nodes.length = 18) :
    d.helloTick.glk.dupAge = older d.glk.dupAge ∧
    (∀ k : Fin 18, (d.helloTick.node k).joined = ((d.node k).joined && decide ((d.node k).age0 < 3 ∨ (d.node k).age1 < 3))) ∧
    (d.glk.dup = false → d.helloTick.glk.seq = (d.glk.seq + 1) % 65536 ∧ ∀ port : Fin 2, d.linkUp port = true →
      (d.glk.queue.filter (fun f => f.port == port.val)).length < 32 → ∃ f ∈ d.helloTick.glk.out, f.port = port.val ∧ f.typ = fHELLO ∧ f.seq = d.glk.seq) := by
  have hthin : NodeStep d.aged d.thinned := nodeStep_foldl _ _
  obtain ⟨x, hx⟩ : ∃ x, x = ((d.thinned.roleTick).ringTick).tsyncShow := ⟨_, rfl⟩
  have hrole : RoleStep roleWs d.thinned x := by
    rw [hx]
    exact (RoleStep.refl _ d.thinned).roleTick.ringTick.tsyncShow RoleStep.showWs_role
  have hget (f : Fld) (hc : clearOf roleWs (shp .glk) f = true) (hf : f.fits = true) (hcnt : 0 < f.cnt) : x.get (shp .glk) f = d.get (shp .glk) f :=
    (hrole.get hc hf hcnt).trans (hthin.edit.get _ f 0 (by decide) hc hf hcnt)
  have hxon : x.glkOn = true := by
    rw [glkOn, glkStrap, enabled, on, hget _ (by decide) (by decide) (by decide), hget _ (by decide) (by decide) (by decide)]
    exact hon
  have hrest : (ringPart x.glk).2 = (ringPart d.aged.glk).2 := (congrArg Prod.snd hrole.part).trans hthin.rest
  have hdup : x.glk.dup = (d.glk.dup && decide (older d.glk.dupAge ≤ 3)) := congrArg (fun q => q.2.1) hrest
  have hseq : x.glk.seq = d.glk.seq := congrArg (fun q => q.1) hrest
  have hage : x.glk.dupAge = older d.glk.dupAge := congrArg (fun q => q.2.2.1) hrest
  have hqueue : x.glk.queue = d.glk.queue := congrArg (fun q => q.2.2.2.2.1) hrest
  rw [helloTick_eq hon, ← hx]
  unfold glkHello
  extract_lets p
  obtain ⟨hsn, hsa⟩ := glkSend_glk (d := x) fHELLO 25 none [x.get p GLK.CFG_ID_ID, x.devId, x.get (shp .bot) BOT.BOOTS_COUNT, x.get p GLK.COUNT_W,
    (x.get p GLK.HEARD0_MASK).lor (x.get p GLK.HEARD1_MASK)] false
  refine ⟨hsa.trans hage, fun k => ?_, fun hno => ?_⟩
  · rw [node, hsn, ← node, hrole.node]
    exact thinned_joined k.isLt hlen
  · have hxd : x.glk.dup = false := by rw [hdup, hno, Bool.false_and]
    refine ⟨(glkSend_seq hxon hxd).trans (by rw [hseq]), fun port hup hroom => ?_⟩
    refine ⟨_, glkSend_goes hxon hxd port ?_ (by rw [hqueue]; exact hroom), rfl, rfl, hseq⟩
    rw [linkUp, hget _ (by decide) (by decide) (by decide)]
    exact hup

/-! ### A passive manager takes the role -/

theorem tsyncShow_glk (d : Dev) : ∃ g b, d.tsyncShow.glk = { d.glk with good := g, bad := b } := by
  have hgo (st : Nat) : ∃ g b, (d.tsyncGo st).glk = { d.glk with good := g, bad := b } := by
    unfold tsyncGo
    extract_lets p was d1 d2
    split
    · exact ⟨_, _, rfl⟩
    · split <;> exact ⟨0, 0, rfl⟩
  unfold tsyncShow
  split
  · split
    · exact hgo 1
    · exact ⟨_, _, rfl⟩
  · exact hgo 0

theorem epoch_role (d : Dev) (active : Bool) {f : Fld} (hc : clearOf [(shp .glk, GLK.ROLE_ACTIVE), (shp .glk, HDR.STAT_BLOCK)] (shp .glk) f = true) (hf : f.fits = true)
    (hcnt : 0 < f.cnt) : (d.roleShow active).get (shp .glk) f = d.get (shp .glk) f := by
  have h1 : Edit [shp .glk, shp .slt] [(shp .glk, GLK.ROLE_ACTIVE), (shp .glk, HDR.STAT_BLOCK)] d (d.roleShow active) :=
    (((Edit.refl _ _ d).put (by simp) (by simp) (by decide) (by decide) _).stat (by simp) (by simp) _).note (by simp) ..
  exact h1.get _ f 0 (by decide) hc hf hcnt

theorem managerActivate_shows (hon : d.glkOn = true) (hman : d.isManager = true) (hact : d.glkActive = false) (hheard : d.activeHeard = []) (hmost : 2 * d.workersHeard > d.workersN) :
    d.managerActivate.get (shp .glk) GLK.ROLE_ACTIVE = 1 ∧ d.managerActivate.get (shp .glk) GLK.EPOCH_ROLE = (d.epochKnown + 1) % 65536 ∧
    d.managerActivate.get (shp .glk) GLK.EPOCH_MGR_POS = d.ringPos % 2 ^ 5 ∧ d.managerActivate.glk.askReports = true ∧
    d.managerActivate.glk.scopeNext = some (1, false) ∧ d.keeps d.managerActivate glkPages := by
  unfold managerActivate
  rw [if_neg (by rw [hon, hman, hact, hheard, decide_eq_false (by omega)]; decide)]
  extract_lets d1 d2 peer d3
  have h1 : RoleStep roleWs d d1 := (RoleStep.refl roleWs d).put List.mem_cons_self (by simp [roleWs]) (by decide) (by decide) _
  have h1s : RoleStep roleWs d (d1.roleShow true) := h1.roleShow true
  have h2 : RoleStep roleWs d d2 := (h1s.putShown RoleStep.showWs_role _ (by decide) (by decide) (by simp [showWs])).put List.mem_cons_self (by simp [roleWs]) (by decide) (by decide) _
  have hkeep2 {f : Fld} (hf : f.fits = true) (hc : 0 < f.cnt) (ha : GLK.EPOCH_MGR_POS.apart f = true) (hb : GLK.ROLE_PEER_TBL.apart f = true) :
      d2.get (shp .glk) f = (d1.roleShow true).get (shp .glk) f := by
    rw [get_put_apart _ _ hb (by decide) hf (by decide) hc (by decide) (by decide), get_put_apart _ _ ha (by decide) hf (by decide) hc (by decide) (by decide)]
  obtain ⟨x, hx⟩ : ∃ x, x = d3.scopeAsk 1 false := ⟨_, rfl⟩
  rw [← hx]
  have hxr : x.regs = d2.regs := by rw [hx]; rfl
  have hxm : x.memories = d2.memories := by rw [hx]; rfl
  have hxg : x.glk.askReports = true ∧ x.glk.scopeNext = some (1, false) := by rw [hx]; exact ⟨rfl, rfl⟩
  obtain ⟨g, b, hg⟩ := x.tsyncShow_glk
  have hshow : Edit glkPages tsyncWs x x.tsyncShow := by
    have hgo (st : Nat) : Edit glkPages tsyncWs x (x.tsyncGo st) := ((Edit.refl [shp .glk, shp .rtc] tsyncWs x).tsyncGo st).mono (by simp [glkPages]) fun _ hw => hw
    exact Edit.ite (fun _ => Edit.ite (fun _ => hgo 1) fun _ => .refl ..) fun _ => hgo 0
  have hfin {f : Fld} (hc : clearOf tsyncWs (shp .glk) f = true) (hf : f.fits = true) (hcnt : 0 < f.cnt) : x.tsyncShow.get (shp .glk) f = d2.get (shp .glk) f :=
    (hshow.get _ f 0 (by decide) hc hf hcnt).trans (get_congr hxr ..)
  refine ⟨?_, ?_, ?_, ?_, ?_, ?_⟩
  · rw [hfin (by decide) (by decide) (by decide), hkeep2 (by decide) (by decide) (by decide) (by decide), roleShow]
    rw [get_note_other _ _ _ _ _ (by decide) (by decide) (by decide) (by decide), get_stat_apart _ _ (by decide) (by decide) (by decide) (by decide), putb,
      get_put_same _ _ _ _ _ _ (by decide)]
    rfl
  · rw [hfin (by decide) (by decide) (by decide), hkeep2 (by decide) (by decide) (by decide) (by decide), epoch_role _ _ (by decide) (by decide) (by decide),
      get_put_same _ _ _ _ _ _ (by decide)]
    exact Nat.mod_mod _ _
  · rw [hfin (by decide) (by decide) (by decide), get_put_apart _ _ (by decide) (by decide) (by decide) (by decide) (by decide) (by decide) (by decide),
      get_put_same _ _ _ _ _ _ (by decide)]
    exact congrArg (· % 2 ^ 5) (h1.get (by decide) (by decide) (by decide))
  · rw [hg]
    exact hxg.1
  · rw [hg]
    exact hxg.2
  · exact keeps_trans (h2.edit.same hxr hxm).keeps hshow.keeps

end

end Dev

end Sys2Proof.Machine
end

section
/-! PROOFS. Links and the end of the ring, and what O49 says (R374, R380, R383, R387). -/
namespace Sys2Proof.Machine

open Sys2Proof

namespace Dev

/-! ### Links -/

section
variable {d : Dev} {port : Nat}

theorem bit_linkLoss (hp : port < 2) : (d.linkLoss port).linkUp port = false ∧ (d.linkLoss port).linkUp (1 - port) = d.linkUp (1 - port) ∧
    bitN ((d.linkLoss port).get (shp .glk) GLK.RING_AMP) port = 0 ∧ d.keeps (d.linkLoss port) [shp .glk] := by
  obtain ⟨x, hx⟩ : ∃ x, x = d.putBit (shp .glk) GLK.RING_LINK port false := ⟨_, rfl⟩
  have hreg (f : Fld) : (d.linkLoss port).get (shp .glk) f = (x.putBit (shp .glk) GLK.RING_AMP port false).get (shp .glk) f := by
    rw [hx]
    rfl
  have hlink (k : Nat) : (d.linkLoss port).linkUp k = x.linkUp k := by
    rw [linkUp, hreg, putBit, get_put_apart _ _ (by decide) (by decide) (by decide) (by decide) (by decide) (by decide) (by decide), linkUp]
  refine ⟨?_, ?_, ?_, ?_⟩
  · rw [hlink, linkUp, hx, bit_putBit_same _ _ _ _ _ _ (by decide) hp]
    rfl
  · rw [hlink, linkUp, hx, bit_putBit_other _ _ _ _ _ _ (by decide) (show 1 - port < 2 by omega) (by omega), linkUp]
  · rw [hreg, bit_putBit_same _ _ _ _ _ _ (by decide) hp]
    rfl
  · show d.keeps ((d.putBit (shp .glk) GLK.RING_LINK port false).putBit (shp .glk) GLK.RING_AMP port false) [shp .glk]
    exact (keeps_put_iff (by simp) (by decide) (by decide) (by decide)).mpr ((keeps_put_iff (by simp) (by decide) (by decide) (by decide)).mpr (keeps_refl d _))

theorem delayKnown_linkLoss (hp : port < d.glk.delays.length) : (d.linkLoss port).delayKnown port = false := by
  rw [delayKnown, show (d.linkLoss port).glk.delays.getD port [] = [] from getD_lset_same _ _ hp]
  rfl

theorem linkGain_shows (hp : port < 2) (low : Bool) (hon : d.glkOn = true) : (d.linkGain port low).linkUp port = true ∧ (d.linkGain port low).linkUp (1 - port) = d.linkUp (1 - port) ∧
    (bitN ((d.linkGain port low).get (shp .glk) GLK.RING_AMP) port = 1 ↔ low = true ∨ d.on (shp .glk) (if port = 0 then GLK.PHY_AMP0 else GLK.PHY_AMP1) = true) ∧
    d.keeps (d.linkGain port low) [shp .glk] := by
  obtain ⟨-, hother, -, hk⟩ := bit_linkLoss (d := d) hp
  obtain ⟨x, hx⟩ : ∃ x, x = (d.linkLoss port).putBit (shp .glk) GLK.RING_LINK port true := ⟨_, rfl⟩
  have hrun : d.linkGain port low = x.putBit (shp .glk) GLK.RING_AMP port (low || d.on (shp .glk) (if port = 0 then GLK.PHY_AMP0 else GLK.PHY_AMP1)) := by
    unfold linkGain
    rw [if_neg (by rw [hon]; decide), hx]
  have hlink (k : Nat) : (d.linkGain port low).linkUp k = x.linkUp k := by
    rw [hrun, linkUp, putBit, get_put_apart _ _ (by decide) (by decide) (by decide) (by decide) (by decide) (by decide) (by decide), linkUp]
  refine ⟨?_, ?_, ?_, ?_⟩
  · rw [hlink, linkUp, hx, bit_putBit_same _ _ _ _ _ _ (by decide) hp]
    rfl
  · rw [hlink, linkUp, hx, bit_putBit_other _ _ _ _ _ _ (by decide) (show 1 - port < 2 by omega) (by omega), ← linkUp, hother]
  · rw [hrun, bit_putBit_same _ _ _ _ _ _ (by decide) hp, ← Bool.or_eq_true]
    cases low || d.on (shp .glk) (if port = 0 then GLK.PHY_AMP0 else GLK.PHY_AMP1) <;> decide
  · rw [hrun, hx]
    exact (keeps_put_iff (by simp) (by decide) (by decide) (by decide)).mpr ((keeps_put_iff (by simp) (by decide) (by decide) (by decide)).mpr hk)

/-! ### The end of the ring -/

/-- The positions of a ring that is down. -/
def allLeft (d : Dev) : Dev :=
  (((d.linkLoss 0).linkLoss 1).modGlk (fun g => { g with nodes := g.nodes.map GNode.left })).modGlk
    (fun g => { g with dup := false, dupAge := 255, askReports := false, tblSent := none })

/-- The role and the state of a ring that is down. -/
def roleDown (d : Dev) : Dev := if d.glkActive then d.roleDrop else d
def stateDown (d : Dev) : Dev := if d.get (shp .glk) GLK.RING_STATE = 0 then d else (d.put (shp .glk) GLK.RING_STATE 0).stat (shp .glk) 0

theorem glkDown_eq (d : Dev) : d.glkDown = d.allLeft.roleDown.stateDown.ringShow.tsyncShow := rfl

theorem allLeft_link (d : Dev) : d.allLeft.get (shp .glk) GLK.RING_LINK = 0 := by
  have hreg : d.allLeft.get (shp .glk) GLK.RING_LINK = (((d.linkLoss 0).putBit (shp .glk) GLK.RING_LINK 1 false).putBit (shp .glk) GLK.RING_AMP 1 false).get (shp .glk) GLK.RING_LINK := rfl
  have hbound : d.allLeft.get (shp .glk) GLK.RING_LINK < 4 := by
    rw [hreg, putBit, get_put_apart _ _ (by decide) (by decide) (by decide) (by decide) (by decide) (by decide) (by decide), putBit, get_put_same _ _ _ _ _ _ (by decide)]
    exact Nat.mod_lt _ (by decide)
  have h1 : d.allLeft.linkUp 1 = false := (bit_linkLoss (d := d.linkLoss 0) (port := 1) (by decide)).1
  have h0 : d.allLeft.linkUp 0 = false := (bit_linkLoss (d := d.linkLoss 0) (port := 1) (by decide)).2.1.trans (bit_linkLoss (d := d) (port := 0) (by decide)).1
  rw [linkUp] at h0 h1
  generalize d.allLeft.get (shp .glk) GLK.RING_LINK = n at hbound h0 h1 ⊢
  interval_cases n
  · rfl
  all_goals revert h0 h1; decide

theorem allLeft_joined (d : Dev) (k : Nat) : (d.allLeft.node k).joined = false := by
  show ((d.glk.nodes.map GNode.left).getD k GNode.init).joined = false
  rw [List.getD_eq_getElem?_getD, List.getElem?_map]
  cases d.glk.nodes[k]? <;> rfl

theorem glkDown_shows (d : Dev) (he : d.enabled (shp .glk) = false) : d.glkDown.enabled (shp .glk) = false ∧ d.glkDown.get (shp .glk) GLK.RING_LINK = 0 ∧
    d.glkDown.get (shp .glk) GLK.RING_STATE = 0 ∧ (∀ k, (d.glkDown.node k).joined = false) ∧ d.glkDown.shadow = d.shadow := by
  have hrole : RoleStep roleWs d.allLeft d.allLeft.roleDown := RoleStep.ite (fun _ => (RoleStep.refl ..).roleDrop) fun _ => .refl ..
  obtain ⟨x, hx⟩ : ∃ x, x = d.allLeft.roleDown.stateDown := ⟨_, rfl⟩
  have hstate : RoleStep roleWs d.allLeft.roleDown x := by
    rw [hx]
    exact RoleStep.ite (fun _ => .refl ..) fun _ => ((RoleStep.refl ..).put List.mem_cons_self (by simp [roleWs]) (by decide) (by decide) _).stat RoleStep.showWs_role _
  have hdown : x.get (shp .glk) GLK.RING_STATE = 0 := by
    rw [hx, stateDown]
    split
    case isTrue h => exact h
    case isFalse =>
      rw [get_stat_apart _ _ (by decide) (by decide) (by decide) (by decide), get_put_same _ _ _ _ _ _ (by decide)]
      rfl
  have hshow : RoleStep showWs x x.ringShow.tsyncShow := ((RoleStep.refl showWs x).ringShow fun _ hw => hw).tsyncShow fun _ hw => hw
  have hall : RoleStep roleWs d.allLeft x.ringShow.tsyncShow := (hrole.trans hstate).trans (hshow.mono RoleStep.showWs_role)
  have hen : d.allLeft.get (shp .glk) HDR.CTRL_EN = d.get (shp .glk) HDR.CTRL_EN := by
    have hput (d : Dev) (q : Fld) (v : Nat) (hq : q = GLK.RING_LINK ∨ q = GLK.RING_AMP) : (d.put (shp .glk) q v).get (shp .glk) HDR.CTRL_EN = d.get (shp .glk) HDR.CTRL_EN := by
      rcases hq with rfl | rfl <;> exact get_put_apart _ _ (by decide) (by decide) (by decide) (by decide) (by decide) (by decide) (by decide)
    have hloss (d : Dev) (k : Nat) : (d.linkLoss k).get (shp .glk) HDR.CTRL_EN = d.get (shp .glk) HDR.CTRL_EN :=
      (hput _ _ _ (.inr rfl)).trans (hput _ _ _ (.inl rfl))
    exact (hloss (d.linkLoss 0) 1).trans (hloss d 0)
  rw [glkDown_eq, ← hx]
  refine ⟨?_, ?_, ?_, fun k => ?_, hall.shadow⟩
  · rw [enabled, on, hall.get (by decide) (by decide) (by decide), hen]
    exact he
  · rw [hall.get (by decide) (by decide) (by decide), allLeft_link]
  · rw [hshow.get (by decide) (by decide) (by decide), hdown]
  · rw [hall.node]
    exact d.allLeft_joined k

/-! ### One staged value is applied -/

/-- A staged value that no rule holds back is applied, and nothing else of its page. -/
theorem applyPage_one {p : Nat} {half : Option HalfId} {rules : View → List RuleFail} {bnd seq : Nat} {e : Staged} (hsh : d.shadow = [e]) (hp : e.page = p) (hh : e.half = half)
    (hhold : (d.markEvent p half seq).on p HDR.CTRL_STAGE_HOLD = false) (hfrz : (d.markEvent p half seq).cfgFrozen = false)
    (hms : (d.markEvent p half seq).shadow = d.shadow) (hlow : wordPairs.any (fun q => decide (q.1 = e.fld)) = false) (hchk : e.fld.chk.why e.val.toNat = none)
    (hrules : ∀ rf ∈ hdrFails p (fun f i t => (d.markEvent p half seq).view p half f i t) ++ (d.markEvent p half seq).roleFails p (fun f i t => (d.markEvent p half seq).view p half f i t) ++
      rules (fun f i t => (d.markEvent p half seq).view p half f i t), (e.fld, e.i, e.t) ∉ rf.fields) :
    ∃ x, (x = { d.markEvent p half seq with shadow := [] }.put p e.fld e.val.toNat e.i e.t ∨
        ∃ o n, x = ({ d.markEvent p half seq with shadow := [] }.put p e.fld e.val.toNat e.i e.t).noteConfig e 1 0 o n seq bnd) ∧
      d.applyPage p half rules bnd seq = ((x.put p HDR.STAT_APPLIED 1).put p HDR.COMMIT_RESULT 1 0 (commitIdx half)).put p HDR.COMMIT_REASON 0 0 (commitIdx half) := by
  obtain ⟨m, hm⟩ : ∃ m, m = d.markEvent p half seq := ⟨_, rfl⟩
  rw [← hm] at hhold hfrz hms hrules ⊢
  have hone : m.shadow = [e] := hms.trans hsh
  have haw : m.awaitsHigh e = false := by
    rw [awaitsHigh, Bool.and_eq_false_iff]
    right
    rw [List.any_eq_false] at hlow ⊢
    intro q hq h
    rw [Bool.and_eq_true] at h
    exact hlow q hq h.1
  have hnone : ((hdrFails p (fun f i t => m.view p half f i t) ++ m.roleFails p (fun f i t => m.view p half f i t) ++ rules (fun f i t => m.view p half f i t)).find?
      (fun rf => rf.fields.any (fun x => decide (x = (e.fld, e.i, e.t))))) = none := by
    rw [List.find?_eq_none]
    intro rf hrf hany
    obtain ⟨x, hx, hxe⟩ := List.any_eq_true.mp hany
    rw [decide_eq_true_eq] at hxe
    exact hrules rf hrf (hxe ▸ hx)
  have hst : m.shadow.filter (fun e => decide (e.page = p ∧ e.half = half)) = [e] := by rw [hone, List.filter_cons_of_pos (by simp [hp, hh]), List.filter_nil]
  obtain ⟨y, hy⟩ : ∃ y, y = { m with shadow := [] }.put p e.fld e.val.toNat e.i e.t := ⟨_, rfl⟩
  refine ⟨if m.workWord p (wordOff e) e.t = y.workWord p (wordOff e) e.t then y else y.noteConfig e 1 0 (m.workWord p (wordOff e) e.t) (y.workWord p (wordOff e) e.t) seq bnd, ?_, ?_⟩
  · rw [← hy]
    split
    · exact .inl rfl
    · exact .inr ⟨_, _, rfl⟩
  · unfold applyPage
    rw [← hm]
    extract_lets ct m' st ready view fails why held ok gone d1 d2 d3 d4
    have hwhy : why e = none := by
      show (match e.fld.chk.why e.val.toNat with | some r => some r | none => (fails.find? _).map _) = none
      rw [hchk]
      show (fails.find? _).map _ = none
      rw [show fails.find? (fun rf => rf.fields.any (fun x => decide (x = (e.fld, e.i, e.t)))) = none from hnone]
      rfl
    have hst' : st = [e] := hst
    have hready : ready = [e] := by
      show st.filter _ = _
      rw [hst', List.filter_cons_of_pos (by simp [show m'.awaitsHigh e = false from haw]), List.filter_nil]
    have hheld : held = [] := by
      show ready.filter _ = _
      rw [hready, List.filter_cons_of_neg (by simp [hwhy]), List.filter_nil]
    have hok : ok = [e] := by
      show ready.filter _ = _
      rw [hready, List.filter_cons_of_pos (by simp [hwhy]), List.filter_nil]
    have hgone : gone e = true := by
      show ok.any _ = true
      rw [hok]
      simp
    have hd1 : d1 = y := by
      rw [hy]
      show List.foldl _ { m' with shadow := m'.shadow.filterMap _ } ok = _
      rw [hok, show m'.shadow = [e] from hone, List.filterMap_cons_none (by rw [if_pos hgone]), List.filterMap_nil]
      rfl
    have hd2 : d2 = if m.workWord p (wordOff e) e.t = y.workWord p (wordOff e) e.t then y
        else y.noteConfig e 1 0 (m.workWord p (wordOff e) e.t) (y.workWord p (wordOff e) e.t) seq bnd := by
      show List.foldl _ d1 (lastOfWord ok) = _
      rw [hok, hd1]
      rfl
    have hd3 : d3 = d2 := by
      show List.foldl _ d2 (lastOfWord (held.filter _)) = _
      rw [hheld]
      rfl
    have hd4 : d4 = d3.put p HDR.STAT_APPLIED 1 := by
      show (if ok.isEmpty = true then d3 else d3.put p HDR.STAT_APPLIED 1) = _
      rw [hok]
      rfl
    rw [if_neg (by rw [hst']; exact Bool.false_ne_true),
      if_neg (by rw [show m'.on p HDR.CTRL_STAGE_HOLD = false from hhold, show m'.cfgFrozen = false from hfrz, Bool.false_and, Bool.or_false]; exact Bool.false_ne_true), hheld, hready, hst', hd4, hd3,
      hd2]
    rfl

/-- No rule of the page holds back a `CTRL.EN` of 0. -/
theorem glkRules_disable {v : View} (hv : v HDR.CTRL_EN 0 0 = 0) : ∀ rf ∈ d.glkRules v, (HDR.CTRL_EN, 0, 0) ∉ rf.fields := by
  unfold glkRules
  extract_lets p g at_ en enF rule w m pos own range5
  have hno : ¬ en := by
    show ¬ v HDR.CTRL_EN 0 0 = 1
    rw [hv]
    decide
  have henF : enF = [] := if_neg hno
  have hmap (fs : List Fld) (hfs : HDR.CTRL_EN ∉ fs) : (HDR.CTRL_EN, 0, 0) ∉ fs.map at_ := fun h => by
    obtain ⟨f, hf, he⟩ := List.mem_map.mp h
    exact hfs ((Prod.mk.inj he).1 ▸ hf)
  have hone (b : Prop) [Decidable b] (fs : List Fld) (why : Nat) (hfs : HDR.CTRL_EN ∉ fs) :
      ∀ rf ∈ (if b then [⟨fs.map at_, why⟩] else [] : List RuleFail), (HDR.CTRL_EN, 0, 0) ∉ rf.fields := by
    intro rf hrf
    split at hrf
    · rw [List.mem_singleton.mp hrf]
      exact hmap fs hfs
    · cases hrf
  have hrule (bad : Bool) (fs : List Fld) (why : Nat) (hfs : HDR.CTRL_EN ∉ fs) : ∀ rf ∈ rule bad fs why, (HDR.CTRL_EN, 0, 0) ∉ rf.fields := by
    show ∀ rf ∈ (if bad = true then [⟨fs.map at_ ++ enF, why⟩] else [] : List RuleFail), (HDR.CTRL_EN, 0, 0) ∉ rf.fields
    rw [henF, List.append_nil]
    exact hone _ fs why hfs
  have hrange (f : Fld) (lo hi : Nat) (hf : HDR.CTRL_EN ≠ f) : ∀ rf ∈ range5 f lo hi, (HDR.CTRL_EN, 0, 0) ∉ rf.fields := by
    intro rf hrf
    have hrf : rf ∈ (if g f = 0 then [⟨[at_ f], cZERO⟩] else if g f < lo ∨ g f > hi then [⟨[at_ f], cRANGE⟩] else [] : List RuleFail) := hrf
    split at hrf
    · rw [List.mem_singleton.mp hrf]
      exact hmap [f] (by simpa using hf)
    · exact hone _ [f] cRANGE (by simpa using hf) rf hrf
  have hstrap : ∀ rf ∈ (if d.glkStrap = 0 ∧ en then [⟨[at_ HDR.CTRL_EN], cRANGE⟩] else [] : List RuleFail), (HDR.CTRL_EN, 0, 0) ∉ rf.fields := by
    rw [if_neg fun h => hno h.2]
    exact fun _ h => nomatch h
  simp only [List.forall_mem_append]
  refine ⟨⟨⟨⟨⟨⟨⟨⟨⟨⟨⟨⟨?_, hstrap⟩, ?_⟩, ?_⟩, ?_⟩, ?_⟩, ?_⟩, ?_⟩, ?_⟩, ?_⟩, ?_⟩, ?_⟩, ?_⟩
  · exact hone _ _ _ (by decide)
  · exact hrule _ _ _ (by decide)
  · exact hrule _ _ _ (by decide)
  · exact hrule _ _ _ (by decide)
  · exact hrule _ _ _ (by decide)
  · exact hrule _ _ _ (by decide)
  · exact hrule _ _ _ (by decide)
  · exact hrule _ _ _ (by decide)
  · exact hrule _ _ _ (by decide)
  · exact hrange _ _ _ (by decide)
  · exact hrange _ _ _ (by decide)
  · exact hone _ [GLK.USER_LEN] _ (by decide)

theorem hdrFails_disable (p : Nat) (v : View) : ∀ rf ∈ hdrFails p v, (HDR.CTRL_EN, 0, 0) ∉ rf.fields := by
  intro rf hrf
  unfold hdrFails at hrf
  split at hrf
  · dsimp only at hrf
    split at hrf
    · cases hrf
    · rw [List.mem_singleton.mp hrf]
      decide
  · cases hrf

theorem roleFails_disable (p : Nat) {v : View} (hv : v HDR.CTRL_EN 0 0 = 0) : ∀ rf ∈ d.roleFails p v, (HDR.CTRL_EN, 0, 0) ∉ rf.fields := by
  intro rf hrf
  unfold roleFails at hrf
  split at hrf
  · rw [if_neg (by rw [hv]; simp)] at hrf
    cases hrf
  · cases hrf

/-- A `CTRL.EN` of 0 takes the ring down. -/
theorem applyGlk_leaves {e : Staged} (bnd seq : Nat) (hsh : d.shadow = [e]) (hp : e.page = shp .glk) (hh : e.half = none) (hf : e.fld = HDR.CTRL_EN) (hi : e.i = 0) (ht : e.t = 0)
    (hv : e.val = 0) (hen : d.enabled (shp .glk) = true) (hhold : d.on (shp .glk) HDR.CTRL_STAGE_HOLD = false) (hfrz : d.cfgFrozen = false) :
    (d.applyGlk bnd seq).enabled (shp .glk) = false ∧ (d.applyGlk bnd seq).get (shp .glk) GLK.RING_LINK = 0 ∧ (d.applyGlk bnd seq).get (shp .glk) GLK.RING_STATE = 0 ∧
    (∀ k, ((d.applyGlk bnd seq).node k).joined = false) ∧ (d.applyGlk bnd seq).shadow = [] := by
  have hview : (d.markEvent (shp .glk) none seq).view (shp .glk) none HDR.CTRL_EN 0 0 = 0 := by
    have hs : (d.markEvent (shp .glk) none seq).staged? (shp .glk) none HDR.CTRL_EN 0 0 = some e := by
      show d.shadow.find? _ = some e
      rw [hsh, List.find?_cons_of_pos (by simp [hp, hh, hf, hi, ht])]
    rw [view, hs]
    show e.val.toNat = 0
    rw [hv]
    rfl
  obtain ⟨x, hx, happ⟩ := applyPage_one (d := d) (rules := d.glkRules) (bnd := bnd) (seq := seq) hsh hp hh
    (by rw [markEvent, on, get_put_apart _ _ (by decide) (by decide) (by decide) (by decide) (by decide) (by decide) (by decide)]; exact hhold) hfrz rfl
    (by rw [hf]; decide) (by rw [hf]; rfl) (by
      rw [hf, hi, ht]
      simp only [List.forall_mem_append]
      exact ⟨⟨hdrFails_disable _ _, roleFails_disable _ hview⟩, glkRules_disable hview⟩)
  have hxe : x.get (shp .glk) HDR.CTRL_EN = 0 ∧ x.shadow = [] := by
    have h0 : ({ d.markEvent (shp .glk) none seq with shadow := [] }.put (shp .glk) e.fld e.val.toNat e.i e.t).get (shp .glk) HDR.CTRL_EN = 0 := by
      rw [hf, hi, ht, hv, get_put_same _ _ _ _ _ _ (by decide)]
      rfl
    rcases hx with rfl | ⟨o, n, rfl⟩
    · exact ⟨h0, rfl⟩
    · unfold noteConfig
      split
      · exact ⟨h0, rfl⟩
      · exact ⟨(get_post_other _ _ (by decide) (by decide) (by decide) (by decide)).trans h0, post_shadow ..⟩
  obtain ⟨y, hy⟩ : ∃ y, y = d.applyPage (shp .glk) none d.glkRules bnd seq := ⟨_, rfl⟩
  have hye : y.enabled (shp .glk) = false := by
    rw [hy, happ, enabled, on, get_put_apart _ _ (by decide) (by decide) (by decide) (by decide) (by decide) (by decide) (by decide),
      get_put_apart _ _ (by decide) (by decide) (by decide) (by decide) (by decide) (by decide) (by decide),
      get_put_apart _ _ (by decide) (by decide) (by decide) (by decide) (by decide) (by decide) (by decide), hxe.1]
    rfl
  have hys : y.shadow = [] := by
    rw [hy, happ]
    exact hxe.2
  obtain ⟨g, hg⟩ : ∃ g, d.applyGlk bnd seq = ({ y with glk := g } : Dev).glkDown := by
    unfold applyGlk
    extract_lets p was mask z sent
    have hz : z = y := hy.symm
    rw [if_pos (by rw [hz, show was.enabled p = true from hen, show y.enabled p = false from hye]; rfl), hz]
    exact ⟨_, rfl⟩
  rw [hg]
  obtain ⟨h1, h2, h3, h4, h5⟩ := ({ y with glk := g } : Dev).glkDown_shows hye
  exact ⟨h1, h2, h3, h4, h5.trans hys⟩

end

/-- What a staged `CTRL.EN` of 0 does. -/
def leaveDo (d : Dev) : Dev :=
  match d.staged? (shp .glk) none HDR.CTRL_EN 0 0 with
  | some e =>
    if e.val = 0 then
      (if d.glkBegin.get (shp .glk) HDR.CTRL_BSEL = 5 then d.glkBegin.applyGlk 5 (d.glkBegin.now / 65536 % 65536)
       else d.glkBegin.applyGlk 1 (d.glkBegin.get (ctl .cyx d.glkBegin.holder) CYX.CNT_CYCLE % 65536))
    else d
  | none => d

end Dev

section
variable {s : State} (hout : s.out = true)
include hout

theorem managerActivate_rule : ∃ t, exec .managerActivate s = .next t ∧ t.pending = s.pending ∧
    (if s.dev.glkOn = true ∧ s.dev.isManager = true ∧ s.dev.glkActive = false ∧ s.dev.activeHeard = [] ∧ 2 * s.dev.workersHeard > s.dev.workersN then
      t.dev.get (shp .glk) GLK.ROLE_ACTIVE = 1 ∧ t.dev.get (shp .glk) GLK.EPOCH_ROLE = (s.dev.epochKnown + 1) % 65536 ∧
        t.dev.get (shp .glk) GLK.EPOCH_MGR_POS = s.dev.ringPos % 2 ^ 5 ∧ t.dev.glk.askReports = true ∧ t.dev.glk.scopeNext = some (1, false) ∧
        s.dev.keeps t.dev [shp .glk, shp .slt, shp .rtc]
     else t.dev.regs = s.dev.regs ∧ t.dev.memories = s.dev.memories ∧ t.dev.glk = { s.dev.glk with out := [] }) := by
  refine ⟨_, onDev_out (fun d => d.glkBegin.managerActivate) hout, rfl, ?_⟩
  split
  case isTrue h =>
    obtain ⟨hon, hman, hact, hheard, hmost⟩ := h
    exact Dev.managerActivate_shows (d := s.dev.glkBegin) hon hman hact hheard hmost
  case isFalse h =>
    have hid : s.dev.glkBegin.managerActivate = s.dev.glkBegin := by
      unfold Dev.managerActivate
      refine if_pos ?_
      show (!s.dev.glkOn || !s.dev.isManager || s.dev.glkActive || !s.dev.activeHeard.isEmpty || decide (2 * s.dev.workersHeard ≤ s.dev.workersN)) = true
      rw [← Bool.not_eq_false]
      intro hno
      simp only [Bool.or_eq_false_iff, Bool.not_eq_false', decide_eq_false_iff_not, List.isEmpty_iff, Nat.not_le] at hno
      obtain ⟨⟨⟨⟨hon, hman⟩, hact⟩, hheard⟩, hmost⟩ := hno
      exact h ⟨hon, hman, hact, hheard, hmost⟩
    show (s.dev.glkBegin.managerActivate).regs = _ ∧ (s.dev.glkBegin.managerActivate).memories = _ ∧ (s.dev.glkBegin.managerActivate).glk = _
    rw [hid]
    exact ⟨rfl, rfl, rfl⟩

theorem noMgr_rule : if s.dev.isWorker = true ∧ s.dev.shlMode s.dev.holder ≠ 3 then
    ∃ t, exec .glkNoMgr s = .next t ∧ t.pending = s.pending ∧ t.dev.glk.scopeNext = some (3, false) ∧ t.dev.get (shp .glk) HDR.ERR_CODE = cGLK_NO_MGR ∧
      (∀ k : Fin 18, (t.dev.node k).active = false) ∧ s.dev.keeps t.dev [shp .glk]
    else exec .glkNoMgr s = .next s := by
  have hrun := onDev_out (fun d => if d.isWorker && d.shlMode d.holder != 3 then
    ((d.modGlk (fun g => { g with nodes := g.nodes.map (fun n => { n with active := false }) })).scopeAsk 3 false).err (shp .glk) cGLK_NO_MGR d.ringPos else d) hout
  split
  case isTrue h =>
    rw [if_pos (by simpa using h)] at hrun
    refine ⟨_, hrun, rfl, rfl, Dev.get_err_code .., fun k => ?_, (Dev.keeps_err_iff (by simp)).mpr (Dev.keeps_refl ..)⟩
    show ((s.dev.glk.nodes.map fun n => { n with active := false }).getD k GNode.init).active = false
    rw [List.getD_eq_getElem?_getD, List.getElem?_map]
    cases s.dev.glk.nodes[k.val]? <;> rfl
  case isFalse h =>
    rw [if_neg (by simpa using h)] at hrun
    exact hrun

/-- The command that applies a staged `CTRL.EN` of 0. -/
theorem glkLeave_rule {e : Staged} (hsh : s.dev.shadow = [e]) (hp : e.page = shp .glk) (hh : e.half = none) (hf : e.fld = HDR.CTRL_EN) (hi : e.i = 0) (ht : e.t = 0)
    (hv : e.val = 0) (hen : s.dev.enabled (shp .glk) = true) (hhold : s.dev.on (shp .glk) HDR.CTRL_STAGE_HOLD = false) (hfrz : s.dev.cfgFrozen = false) :
    ∃ t, exec .glkLeave s = .next t ∧ t.pending = s.pending ∧ t.dev.enabled (shp .glk) = false ∧ t.dev.get (shp .glk) GLK.RING_LINK = 0 ∧ t.dev.get (shp .glk) GLK.RING_STATE = 0 ∧
      (∀ k : Fin 18, (t.dev.node k).joined = false) ∧ t.dev.shadow = [] ∧ t.dev.memories = s.dev.memories := by
  have hstaged : s.dev.staged? (shp .glk) none HDR.CTRL_EN 0 0 = some e := by
    rw [Dev.staged?, hsh, List.find?_cons_of_pos (by simp [hp, hh, hf, hi, ht])]
  obtain ⟨bnd, seq, hrun⟩ : ∃ bnd seq, exec .glkLeave s = .next { s with dev := s.dev.glkBegin.applyGlk bnd seq } := by
    obtain ⟨bnd, seq, hdo⟩ : ∃ bnd seq, s.dev.leaveDo = s.dev.glkBegin.applyGlk bnd seq := by
      unfold Dev.leaveDo
      rw [hstaged]
      dsimp only
      rw [if_pos hv]
      split <;> exact ⟨_, _, rfl⟩
    have hrun := onDev_out (fun d => d.leaveDo) hout
    rw [hdo] at hrun
    exact ⟨bnd, seq, hrun⟩
  obtain ⟨h1, h2, h3, h4, h5⟩ := Dev.applyGlk_leaves (d := s.dev.glkBegin) bnd seq hsh hp hh hf hi ht hv hen hhold hfrz
  exact ⟨_, hrun, rfl, h1, h2, h3, fun k => h4 k, h5, Dev.memories_of_frame ((Dev.frame_applyGlk ..).trans (Dev.frame_glkBegin _))⟩

end

/-- Settles O49: the receipt of a HELLO, the tick, the roles, the links and the end of the ring, each by its steps. -/
theorem groupMembershipAndRoles : Obligations.GroupMembershipAndRoles := by
  unfold Obligations.GroupMembershipAndRoles
  intro s hout hsh p
  obtain ⟨hnodes, hdel⟩ : s.dev.glk.nodes.length = 18 ∧ s.dev.glk.delays.length = 2 := by
    simp only [Dev.shaped, Bool.and_eq_true, beq_iff_eq] at hsh
    tauto
  refine ⟨?_, ?_, managerActivate_rule hout, noMgr_rule hout, fun port => ⟨?_, fun low => ?_⟩, fun hno => ?_, ?_⟩
  · intro port hd cfg dev boots w heard hon hup hcrc hfcs hver hgrp ht h17 hsrc k
    have hat := Dev.helloAt_shows (cfg := cfg.toNat) (dev := dev.toNat) (boots := boots.toNat) (w := w.toNat) (heard := heard.toNat) hon hup hcrc hfcs hver hgrp ht h17 hsrc hnodes
    have hpos : (s.dev.helloAt port hd cfg.toNat dev.toNat boots.toNat w.toNat heard.toNat).ringPos = s.dev.ringPos :=
      hat.edit.get _ _ 0 (by decide) (by decide) (by decide) (by decide)
    obtain ⟨hone, hleave, hjoin, haside⟩ := Dev.helloDone_shows (cfg := cfg.toNat) (dev := dev.toNat) port.isLt hat (by omega)
    have hrun := onDev_out (fun d => d.helloRx port.val hd cfg.toNat dev.toNat boots.toNat w.toNat heard.toNat) hout
    rw [Dev.helloRx_eq hon hup hcrc hfcs hver hgrp ht h17 hsrc hpos] at hrun
    have hall := hat.pos.trans hone
    exact ⟨_, hrun, rfl, hall.keeps, hleave, hjoin, haside, fun j hj => hall.other j hj⟩
  · have hrun := onDev_out (fun d => d.helloTick) hout
    split
    case isTrue hon =>
      obtain ⟨hage, hjoined, hsend⟩ := Dev.helloTick_shows hon hnodes
      exact ⟨_, hrun, rfl, Dev.memories_of_frame (Dev.frame_helloTick _), hage, hjoined, hsend⟩
    case isFalse hoff =>
      have hid : s.dev.helloTick = s.dev := by
        unfold Dev.helloTick
        exact if_pos (by simpa using hoff)
      rw [hid] at hrun
      exact hrun
  · obtain ⟨hdown, hother, hamp, hk⟩ := Dev.bit_linkLoss (d := s.dev) port.isLt
    have hrun := onDev_out (fun d => d.linkLoss port.val) hout
    exact ⟨_, hrun, rfl, hdown, hother, hamp, Dev.delayKnown_linkLoss (by omega), hk⟩
  · have hrun := onDev_out (fun d => d.linkGain port.val low) hout
    split
    case isTrue hon => exact ⟨_, hrun, rfl, Dev.linkGain_shows port.isLt low hon⟩
    case isFalse hoff =>
      have hid : s.dev.linkGain port low = s.dev := by
        unfold Dev.linkGain
        exact if_pos (by simpa using hoff)
      rw [hid] at hrun
      exact hrun
  · have hnone : s.dev.staged? (shp .glk) none HDR.CTRL_EN 0 0 = none := by
      rw [Dev.staged?, List.find?_eq_none]
      intro e he h
      exact hno e he (of_decide_eq_true h).2.2.1
    have hdo : s.dev.leaveDo = s.dev := by
      unfold Dev.leaveDo
      rw [hnone]
    have hrun := onDev_out (fun d => d.leaveDo) hout
    rw [hdo] at hrun
    exact hrun
  · intro e hsh hp hh hf hi ht hv hen hhold hfrz
    exact glkLeave_rule hout hsh hp hh hf hi ht hv hen hhold hfrz

end Sys2Proof.Machine
end

section
/-! PROOFS. Transactions of the host link through the MRAM window (R522 to R526). -/
namespace Sys2Proof.Machine

open Sys2Proof

theorem length_leBytes : ∀ (k n : Nat), (leBytes k n).length = k
  | 0, _ => rfl
  | k + 1, n => congrArg Nat.succ (length_leBytes k (n / 256))

theorem leBytes_lt {x : Nat} : ∀ (k n : Nat), x ∈ leBytes k n → x < 256
  | 0, _, h => absurd h List.not_mem_nil
  | k + 1, n, h => by
    rcases List.mem_cons.mp h with rfl | h
    · exact Nat.mod_lt _ (by decide)
    · exact leBytes_lt k (n / 256) h

/-- The bytes of a word in memory. -/
def wordBytes (v : Nat) : List Byte := (leBytes 4 v).map (BitVec.ofNat 8)

theorem length_wordBytes (v : Nat) : (wordBytes v).length = 4 := (List.length_map ..).trans (length_leBytes 4 v)

theorem toNat_wordBytes (v : Nat) {q : Nat} (hq : q < 4) : ((wordBytes v).getD q 0).toNat = (leBytes 4 v).getD q 0 := by
  have hl : q < (leBytes 4 v).length := by rw [length_leBytes]; exact hq
  rw [wordBytes, List.getD_eq_getElem?_getD, List.getElem?_map, List.getElem?_eq_getElem hl, List.getD_eq_getElem?_getD, List.getElem?_eq_getElem hl]
  exact (BitVec.toNat_ofNat ..).trans (Nat.mod_eq_of_lt (leBytes_lt 4 v (List.getElem_mem hl)))

/-- A word of memory as a READ answers it. -/
def wordAt (m : List Host.Cell) (a : Nat) : Word := BitVec.ofNat 32 (ofLe ((memReads m a 4).map BitVec.toNat))

/-! ### Words stored one after the other -/

/-- The memory after words stored at the cells of a transaction. -/
def storeWords (cell : Nat → Nat) (ws : List Nat) (m : List Host.Cell) : Nat → List Host.Cell
  | 0 => m
  | n + 1 => memWrites (storeWords cell ws m n) (cell n) (wordBytes (ws.getD n 0))

theorem memRead_storeWords_outside {cell : Nat → Nat} {ws : List Nat} {m : List Host.Cell} {x : Nat} : ∀ n, (∀ j < n, x < cell j ∨ cell j + 4 ≤ x) →
    memRead (storeWords cell ws m n) x = memRead m x
  | 0, _ => rfl
  | n + 1, h => by
    have hn := h n (by omega)
    rw [storeWords, memRead_memWrites, length_wordBytes, if_neg (by omega)]
    exact memRead_storeWords_outside n fun j hj => h j (by omega)

/-- The last word stored at a cell stands there. -/
theorem memRead_storeWords_last {cell : Nat → Nat} {ws : List Nat} {m : List Host.Cell} {n j q : Nat} (hj : j < n)
    (hlast : ∀ k < n, j < k → cell j + q < cell k ∨ cell k + 4 ≤ cell j + q) (hq : q < 4) :
    (memRead (storeWords cell ws m n) (cell j + q)).toNat = (leBytes 4 (ws.getD j 0)).getD q 0 := by
  induction n with
  | zero => omega
  | succ n ih =>
    rw [storeWords, memRead_memWrites, length_wordBytes]
    by_cases hjn : j = n
    · subst hjn
      rw [if_pos (by omega), Nat.add_sub_cancel_left]
      exact toNat_wordBytes _ hq
    · have hn := hlast n (by omega) (by omega)
      rw [if_neg (by omega)]
      exact ih (by omega) fun k hk hjk => hlast k (by omega) hjk

namespace Dev

/-! ### The count of transactions -/

/-- The registers that a transaction counts in. -/
def xferWs : List (Nat × Fld) := [(shp .hst, HST.XFER_COUNT), (shp .hst, HST.IDLE_LEFT_S)]

theorem hstCount_edit (d : Dev) : Edit [shp .hst] xferWs d d.hstCount := by
  unfold hstCount
  extract_lets x
  have hx : Edit [shp .hst] xferWs d x := (Edit.refl ..).put (by simp) (by simp [xferWs]) (by decide) (by decide) _
  exact Edit.ite (fun _ => hx.put (by simp) (by simp [xferWs]) (by decide) (by decide) _) fun _ => hx

theorem hstCount_only (d : Dev) : OnlyRegs d d.hstCount := by
  unfold hstCount
  extract_lets x
  have hx : OnlyRegs d x := (OnlyRegs.refl d).put ..
  split
  · exact hx.put ..
  · exact hx

theorem hstCount_xfer (d : Dev) : d.hstCount.get (shp .hst) HST.XFER_COUNT = (d.get (shp .hst) HST.XFER_COUNT + 1) % 2 ^ 32 := by
  unfold hstCount
  extract_lets x
  have hx : x.get (shp .hst) HST.XFER_COUNT = (d.get (shp .hst) HST.XFER_COUNT + 1) % 2 ^ 32 := get_put_same _ _ _ _ _ _ (by decide)
  split
  · rw [get_put_apart _ _ (by decide) (by decide) (by decide) (by decide) (by decide) (by decide) (by decide), hx]
  · exact hx

theorem hostOn_hstCount (d : Dev) : d.hstCount.hostOn = d.hostOn := by
  rw [hostOn, d.hstCount_edit.get _ _ 0 (by decide) (by decide) (by decide) (by decide), d.hstCount_only, hostOn]

/-! ### One access through the window -/

theorem packWords_one {bs : List Nat} (h : bs.length = 4) : packWords 1 bs = [BitVec.ofNat 32 (ofLe bs)] := by
  rw [packWords, packWords, List.take_of_length_le h.le]

/-- The place of a window address of the host link in MRAM. -/
def hostCell (d : Dev) (a : Nat) : Nat := d.get (shp .hst) HST.WIN_BASE_BASE * 0x100000 + (a - 0x20000000)

section
variable {d : Dev}

theorem hostCell_eq {a : Nat} : d.winBase hostW * 0x100000 + (a - 0x20000000) = d.hostCell a := by
  unfold hostCell
  rw [show d.winBase hostW = d.get (shp .hst) HST.WIN_BASE_BASE from rfl]

theorem issues_host (hon : d.hostOn = true) : d.issues hostW = true := by
  show (((0x12 : Nat) == 0x12 && d.hostOn) || _ || _ || _) = true
  rw [hon]
  rfl

theorem place_host {a : Nat} (hlo : 0x20000000 ≤ a) (hhi : a < 0x40000000) : d.place hostW a = .mram := by
  unfold place
  rw [if_neg (by omega), if_neg (by omega), if_pos ⟨hlo, hhi⟩, if_neg (by decide)]

/-- Whether a word of MRAM is open to the host link and holds no uncorrectable error. -/
structure OpenWord (d : Dev) (a : Nat) : Prop where
  lo : 0x20000000 ≤ a
  hi : a + 4 ≤ 0x40000000
  user : d.userBase ≤ d.hostCell a
  within : d.hostCell a + 4 ≤ mramEnd
  good : ∀ b ∈ d.mbad, b + 4 ≤ d.hostCell a ∨ d.hostCell a + 4 ≤ b

theorem busRead_window {a : Nat} (hon : d.hostOn = true) (h : OpenWord d a) : d.busRead hostW a 4 = d.ans [wordAt d.mram (d.hostCell a)] := by
  obtain ⟨hlo, hhi, huser, hin, hgood⟩ := h
  have hok := mramOk_all_of_user (d.privileged hostW) false huser hin
  have hbad : d.mbad.find? (fun b => decide (d.hostCell a < b + 4 ∧ b < d.hostCell a + 4)) = none := by
    rw [List.find?_eq_none]
    intro b hb h
    have := of_decide_eq_true h
    have := hgood b hb
    omega
  unfold busRead
  rw [if_neg (show ¬ (!d.issues hostW) = true by rw [issues_host hon]; decide), place_host hlo (by omega)]
  show d.mramAccess hostW a none 4 = _
  unfold mramAccess
  extract_lets p off len zeros val no
  refine (if_neg (show ¬ off + len > mramEnd from Nat.not_lt.mpr hin)).trans ?_
  have hall : (!(List.range len).all fun i => d.mramOk (d.privileged hostW) false (off + i)) = false := congrArg (! ·) hok
  refine (if_neg (Bool.eq_false_iff.mp hall)).trans ?_
  show (match d.mbad.find? (fun b => decide (d.hostCell a < b + 4 ∧ b < d.hostCell a + 4)) with | some b => _ | none => _) = _
  rw [hbad]
  rw [if_neg Bool.false_ne_true]
  dsimp only
  have hoff : off = d.hostCell a := hostCell_eq
  rw [hoff]
  have hlen : len = 4 := rfl
  rw [hlen]
  show d.ans (packWords 1 ((memReads d.mram (d.hostCell a) 4).map BitVec.toNat)) = _
  rw [packWords_one (by rw [List.length_map, length_memReads])]
  rfl

theorem busWrite_window {a v : Nat} (hon : d.hostOn = true) (hlo : 0x20000000 ≤ a) (hhi : a + 4 ≤ 0x40000000) (huser : d.userBase ≤ d.hostCell a)
    (hin : d.hostCell a + 4 ≤ mramEnd) : ∃ bad, d.busWrite hostW a 4 v = { d with mram := memWrites d.mram (d.hostCell a) (wordBytes v), mbad := bad }.ans [] := by
  unfold busWrite
  rw [if_neg (show ¬ (!d.issues hostW) = true by rw [issues_host hon]; decide), place_host hlo (by omega)]
  show ∃ bad, d.mramAccess hostW a (some (wordBytes v)) 0 = _
  rw [mramAccess_write_holder hostCell_eq.symm huser 0 (by rw [length_wordBytes]; exact hin) fun h hh => nomatch hh]
  exact ⟨_, rfl⟩

/-! ### The words of a transaction -/

/-- A READ of words that are all open answers them in order. -/
theorem hstReadGo_window (hon : d.hostOn = true) : ∀ (l : List (Nat × Nat)) (acc : List Word) (r : Resp), (∀ x ∈ l, OpenWord d x.2) →
    hstReadGo none acc { d with resp := r } l = { d with resp := ⟨acc ++ l.map (fun x => wordAt d.mram (d.hostCell x.2)), false, 0⟩ }
  | [], acc, r, _ => by rw [List.map_nil, List.append_nil]; rfl
  | (i, a) :: l, acc, r, h => by
    have hread : Dev.busRead { d with resp := r } hostW a 4 = { d with resp := ⟨[wordAt d.mram (d.hostCell a)], false, 0⟩ } :=
      busRead_window (d := { d with resp := r }) hon ⟨(h _ List.mem_cons_self).lo, (h _ List.mem_cons_self).hi, (h _ List.mem_cons_self).user,
        (h _ List.mem_cons_self).within, (h _ List.mem_cons_self).good⟩
    rw [hstReadGo, if_neg nofun]
    simp only [hread]
    rw [if_neg (by decide), hstReadGo_window hon l _ _ fun x hx => h x (List.mem_cons_of_mem _ hx), List.append_assoc, List.map_cons]
    rfl

/-- A WRITE of words that are all open stores them in order. -/
theorem hstWriteGo_window (hon : d.hostOn = true) {adr : Nat → Nat} {ws : List Nat} {n : Nat}
    (h : ∀ j < n, 0x20000000 ≤ adr j ∧ adr j + 4 ≤ 0x40000000 ∧ d.userBase ≤ d.hostCell (adr j) ∧ d.hostCell (adr j) + 4 ≤ mramEnd) :
    ∀ k, k ≤ n → ∀ bad r, ∃ bad',
      hstWriteGo { d with mram := storeWords (fun j => d.hostCell (adr j)) ws d.mram (n - k), mbad := bad, resp := r } ((List.range' (n - k) k).map (fun j => (adr j, ws.getD j 0))) =
        { d with mram := storeWords (fun j => d.hostCell (adr j)) ws d.mram n, mbad := bad', resp := ⟨[], false, 0⟩ }
  | 0, _, bad, r => ⟨bad, rfl⟩
  | k + 1, hk, bad, r => by
    obtain ⟨hlo, hhi, huser, hin⟩ := h (n - (k + 1)) (by omega)
    obtain ⟨bad1, h1⟩ := busWrite_window (d := { d with mram := storeWords (fun j => d.hostCell (adr j)) ws d.mram (n - (k + 1)), mbad := bad, resp := r })
      (v := ws.getD (n - (k + 1)) 0) hon hlo hhi huser hin
    obtain ⟨bad', hrest⟩ := hstWriteGo_window hon h k (by omega) bad1 ⟨[], false, 0⟩
    refine ⟨bad', ?_⟩
    rw [List.range'_succ, List.map_cons, hstWriteGo]
    simp only [h1]
    rw [if_neg (by show ¬ (false || (0 : Nat) == cPRIV) = true; decide), ← hrest, show n - (k + 1) + 1 = n - k by omega]
    congr 1
    show _ = ({ d with mram := storeWords (fun j => d.hostCell (adr j)) ws d.mram (n - k), mbad := bad1, resp := ⟨[], false, 0⟩ } : Dev)
    rw [show n - k = n - (k + 1) + 1 by omega]
    rfl

end

end Dev

end Sys2Proof.Machine
end

section
/-! PROOFS. Registers and data of the enclave by requester group: nonces, ends of commands and of authorisations (R496, R502, R504). -/
namespace Sys2Proof.Machine

open Sys2Proof

theorem getD_lset_self {α : Type} (l : List α) (i : Nat) (a : α) : (lset l i a).getD i a = a := by
  by_cases h : i < l.length
  · exact getD_lset_same a a h
  · rw [List.getD_eq_default _ _ (by rw [length_lset]; omega)]

namespace Dev

/-! ### Edits of registers with a table -/

/-- A part that differs from another in the registers named, at any entry of their tables, and in what posted records leave. -/
structure Touch (ps : List Nat) (ws : List (Nat × Fld)) (d e : Dev) : Prop where
  keeps : d.keeps e ps
  get : ∀ (q : Nat) (f : Fld) (i t : Nat), q ≠ shp .slt → clearOf ws q f = true → f.fits = true → i < f.cnt → t < 65536 → e.get q f i t = d.get q f i t

namespace Touch

variable {ps qs : List Nat} {ws vs : List (Nat × Fld)} {d e x : Dev}

theorem refl (ps : List Nat) (ws : List (Nat × Fld)) (d : Dev) : Touch ps ws d d := ⟨keeps_refl d _, fun _ _ _ _ _ _ _ _ _ => rfl⟩

theorem trans (h : Touch ps ws d e) (g : Touch ps ws e x) : Touch ps ws d x :=
  ⟨keeps_trans h.keeps g.keeps, fun q f i t hq hc hf hi ht => (g.get q f i t hq hc hf hi ht).trans (h.get q f i t hq hc hf hi ht)⟩

theorem mono (h : Touch ps ws d e) (hp : ∀ p ∈ ps, p ∈ qs) (hs : ∀ w ∈ ws, w ∈ vs) : Touch qs vs d e :=
  ⟨keeps_mono h.keeps hp, fun q f i t hq hc hf hi ht => h.get q f i t hq (List.all_eq_true.mpr fun w hw => List.all_eq_true.mp hc w (hs w hw)) hf hi ht⟩

theorem same (h : Touch ps ws d e) (hr : x.regs = e.regs) (hm : x.memories = e.memories) : Touch ps ws d x :=
  ⟨⟨hm.trans h.keeps.1, fun k hk => by rw [hr]; exact h.keeps.2 k hk⟩, fun q f i t hq hc hf hi ht => (get_congr hr ..).trans (h.get q f i t hq hc hf hi ht)⟩

theorem modEnc (h : Touch ps ws d e) (g : Enc → Enc) : Touch ps ws d (e.modEnc g) := h.same rfl rfl

theorem put (h : Touch ps ws d e) {p : Nat} {f : Fld} (hp : p ∈ ps) (hm : (p, f) ∈ ws) (hf : f.fits = true) {i t : Nat} (hi : i < f.cnt) (ht : t < 65536) (v : Nat) :
    Touch ps ws d (e.put p f v i t) := by
  refine ⟨(keeps_put_iff hp hf hi ht).mpr h.keeps, fun q g j u hq hc hg hj hu => ?_⟩
  rw [← h.get q g j u hq hc hg hj hu]
  rcases Bool.or_eq_true_iff.mp (List.all_eq_true.mp hc _ hm) with hne | ha
  · exact get_put_other _ _ (by simpa using hne) hf hg hi hj ht hu
  · exact get_put_field _ _ ha hf hg hi hj ht hu

theorem err (h : Touch ps ws d e) {p : Nat} (hp : p ∈ ps) (hm : ∀ w ∈ errWs p, w ∈ ws) (code det : Nat) : Touch ps ws d (e.err p code det) :=
  ((h.put hp (hm (p, HDR.ERR_COUNT) (by simp [errWs])) (by decide) (by decide) (by decide) _).put hp (hm (p, HDR.ERR_CODE) (by simp [errWs])) (by decide) (by decide)
    (by decide) _).put hp (hm (p, HDR.ERR_DETAIL) (by simp [errWs])) (by decide) (by decide) (by decide) _

theorem stat (h : Touch ps ws d e) {p : Nat} (hp : p ∈ ps) (hm : (p, HDR.STAT_BLOCK) ∈ ws) (k : Nat) : Touch ps ws d (e.stat p k) :=
  h.put hp hm (by decide) (by decide) (by decide) _

theorem post (h : Touch ps ws d e) (hslt : shp .slt ∈ ps) (r : Rec) : Touch ps ws d (e.post r) :=
  ⟨(keeps_post_iff hslt).mpr h.keeps, fun q g j u hq hc hg hj hu => by rw [get_post_other _ _ hq hg hj hu, h.get q g j u hq hc hg hj hu]⟩

theorem ite {c : Prop} [Decidable c] (h : c → Touch ps ws d e) (g : ¬ c → Touch ps ws d x) : Touch ps ws d (if c then e else x) := by
  split
  case isTrue hc => exact h hc
  case isFalse hc => exact g hc

theorem foldl {α : Type} {f : Dev → α → Dev} : ∀ (l : List α) (d : Dev), (∀ d, ∀ y ∈ l, Touch ps ws d (f d y)) → Touch ps ws d (l.foldl f d)
  | [], d, _ => refl ps ws d
  | y :: l, d, hf => (hf d y List.mem_cons_self).trans (foldl l _ fun d z hz => hf d z (List.mem_cons_of_mem _ hz))

end Touch

/-- A part that differs from another in registers, the enclave's data and Silt's only. -/
def SecOnly (d e : Dev) : Prop := e = { d with regs := e.regs, encl := e.encl, silt := e.silt }

namespace SecOnly

variable {d e x : Dev}

theorem refl (d : Dev) : SecOnly d d := rfl

theorem trans (h : SecOnly d e) (g : SecOnly e x) : SecOnly d x := by
  rw [SecOnly] at h g ⊢
  rw [g, h]

theorem put (h : SecOnly d e) (p : Nat) (f : Fld) (v i t : Nat) : SecOnly d (e.put p f v i t) := h.trans rfl

theorem modEnc (h : SecOnly d e) (g : Enc → Enc) : SecOnly d (e.modEnc g) := h.trans rfl

theorem regs (h : SecOnly d e) (g : OnlyRegs e x) : SecOnly d x := by
  rw [OnlyRegs] at g
  refine h.trans ?_
  rw [g]
  rfl

theorem post (h : SecOnly d e) (r : Rec) : SecOnly d (e.post r) := by
  obtain ⟨s, rg, heq, -⟩ := post_eq e r
  refine h.trans ?_
  rw [heq]
  rfl

theorem foldl {α : Type} {f : Dev → α → Dev} : ∀ (l : List α) (d : Dev), (∀ d, ∀ y ∈ l, SecOnly d (f d y)) → SecOnly d (l.foldl f d)
  | [], d, _ => refl d
  | y :: l, d, hf => (hf d y List.mem_cons_self).trans (foldl l _ fun d z hz => hf d z (List.mem_cons_of_mem _ hz))

theorem keys (h : SecOnly d e) : e.keys = d.keys := by rw [h]
theorem mram (h : SecOnly d e) : e.mram = d.mram := by rw [h]
theorem boot (h : SecOnly d e) : e.boot = d.boot := by rw [h]

end SecOnly

/-! ### A 128-bit value in a register array of a group -/

section
variable (d : Dev) (g : Nat)

theorem put128_touch {f : Fld} (hf : f.fits = true) (hc : f.cnt = 4) (hg : g < 65536) (v : BitVec 128) : Touch [shp .enc] [(shp .enc, f)] d (d.put128 f g v) :=
  Touch.foldl _ _ fun d _ hy => (Touch.refl ..).put (by simp) (by simp) hf (by rw [hc]; exact List.mem_range.mp hy) hg _

theorem put128_only (f : Fld) (v : BitVec 128) : OnlyRegs d (d.put128 f g v) := OnlyRegs.foldl _ _ fun _ _ _ => (OnlyRegs.refl _).put ..

/-- Another group's entries stay. -/
theorem put128_apart (f : Fld) (v : BitVec 128) {q : Nat} (h : g ≠ q) (hg : g < 65536) (hq : q < 65536) (i : Nat) : (d.put128 f g v).get (shp .enc) f i q = d.get (shp .enc) f i q := by
  have hfold : ∀ (l : List Nat) (d : Dev), (l.foldl (fun d j => d.put (shp .enc) f (v.toNat / 2 ^ (32 * j)) j g) d).get (shp .enc) f i q = d.get (shp .enc) f i q := by
    intro l
    induction l with
    | nil => exact fun _ => rfl
    | cons j l ih =>
      intro d
      rw [List.foldl_cons, ih]
      refine get_put_ne _ _ _ _ _ _ _ _ _ _ fun he => h ?_
      unfold fkey at he
      omega
  exact hfold _ d

theorem put128_word {f : Fld} (hw : f.w = 32) (hs : f.stride ≠ 0) (hg : g < 65536) (v : BitVec 128) {k : Nat} (hk : k < 4) :
    (d.put128 f g v).get (shp .enc) f k g = v.toNat / 2 ^ (32 * k) % 2 ^ 32 := by
  have hsame : ∀ (x : Dev), (x.put (shp .enc) f (v.toNat / 2 ^ (32 * k)) k g).get (shp .enc) f k g = v.toNat / 2 ^ (32 * k) % 2 ^ 32 := fun x => by
    rw [get_put_same _ _ _ _ _ _ (by omega), hw]
  have hoff : ∀ (x : Dev) (j : Nat), j ≠ k → (x.put (shp .enc) f (v.toNat / 2 ^ (32 * j)) j g).get (shp .enc) f k g = x.get (shp .enc) f k g := fun x j h =>
    get_put_idx _ _ hs hg hg h
  show ((((d.put (shp .enc) f _ 0 g).put (shp .enc) f _ 1 g).put (shp .enc) f _ 2 g).put (shp .enc) f _ 3 g).get (shp .enc) f k g = _
  have hcases : k = 0 ∨ k = 1 ∨ k = 2 ∨ k = 3 := by omega
  rcases hcases with rfl | rfl | rfl | rfl
  · rw [hoff _ 3 (by decide), hoff _ 2 (by decide), hoff _ 1 (by decide), hsame]
  · rw [hoff _ 3 (by decide), hoff _ 2 (by decide), hsame]
  · rw [hoff _ 3 (by decide), hsame]
  · exact hsame _

/-! ### Nonces (R502) -/

/-- The registers of a nonce. -/
def nonceWs : List (Nat × Fld) := [(shp .enc, ENC.NONCE)]

theorem setNonce_touch (hg : g < 65536) (n : Option (BitVec 128)) : Touch [shp .enc] nonceWs d (d.setNonce g n) :=
  ((Touch.refl ..).modEnc _).trans (put128_touch _ g (by decide) rfl hg _)

theorem setNonce_sec (n : Option (BitVec 128)) : SecOnly d (d.setNonce g n) := ((SecOnly.refl d).modEnc _).regs (put128_only _ g _ _)

theorem setNonce_encl (n : Option (BitVec 128)) : (d.setNonce g n).encl = { d.encl with nonce := lset d.encl.nonce g n } := by
  rw [setNonce, put128_only (d.modEnc _) g _ _]
  rfl

theorem setNonce_silt (n : Option (BitVec 128)) : (d.setNonce g n).silt = d.silt := by
  rw [setNonce, put128_only (d.modEnc _) g _ _]
  rfl

theorem setNonce_word (hg : g < 65536) (n : Option (BitVec 128)) {k : Nat} (hk : k < 4) :
    (d.setNonce g n).get (shp .enc) ENC.NONCE k g = (n.getD 0).toNat / 2 ^ (32 * k) % 2 ^ 32 := put128_word _ g rfl (by decide) hg _ hk

/-! ### The end of a command (R496) -/

/-- The registers that a command's end moves. -/
def endWs : List (Nat × Fld) := [(shp .enc, ENC.CMD_ST_STATE), (shp .enc, ENC.CMD_ST_REASON), (shp .enc, HDR.STAT_BLOCK)] ++ errWs (shp .enc)

theorem errWs_endWs : ∀ w ∈ errWs (shp .enc), w ∈ endWs := fun _ hw => List.mem_append_right _ hw

theorem encEnd_touch (hg : g < 65536) (why : Option Nat) : Touch [shp .enc] endWs d (d.encEnd g why) := by
  unfold encEnd
  extract_lets p x
  have hx : Touch [shp .enc] endWs d x :=
    (((Touch.refl ..).put (by simp [p]) (by simp [p, endWs]) (by decide) (by decide) hg _).put (by simp [p]) (by simp [p, endWs]) (by decide) (by decide) hg _).stat (by simp [p])
      (by simp [p, endWs]) _
  cases why with
  | none => exact hx
  | some w => exact hx.err (by simp [p]) errWs_endWs _ _

theorem encEnd_only (why : Option Nat) : OnlyRegs d (d.encEnd g why) := by
  cases why <;> rfl

theorem encEnd_done (hg : g < 65536) : (d.encEnd g none).get (shp .enc) ENC.CMD_ST_STATE 0 g = 2 := by
  show (((d.put (shp .enc) ENC.CMD_ST_STATE 2 0 g).put (shp .enc) ENC.CMD_ST_REASON 0 0 g).stat (shp .enc) 0).get _ _ _ _ = 2
  rw [stat, orBits, get_put_field _ _ (by decide) (by decide) (by decide) (by decide) (by decide) (by decide) hg,
    get_put_field _ _ (by decide) (by decide) (by decide) (by decide) (by decide) hg hg, get_put_same _ _ _ _ _ _ (by decide)]
  rfl

theorem encEnd_refused (hg : g < 65536) (w : Nat) : (d.encEnd g (some w)).get (shp .enc) ENC.CMD_ST_STATE 0 g = 3 ∧
    (d.encEnd g (some w)).get (shp .enc) ENC.CMD_ST_REASON 0 g = w % 2 ^ 8 := by
  have herr : ∀ (x : Dev) (f : Fld), (∀ e ∈ errWs (shp .enc), e.2.apart f = true) → f.fits = true → 0 < f.cnt →
      (x.err (shp .enc) w g).get (shp .enc) f 0 g = x.get (shp .enc) f 0 g := fun x f ha hf hc =>
    ((Touch.refl [shp .enc] (errWs (shp .enc)) x).err (by simp) (fun _ h => h) w g).get _ f 0 g (by decide)
      (List.all_eq_true.mpr fun e he => Bool.or_eq_true_iff.mpr (.inr (ha e he))) hf hc hg
  show ((((d.put (shp .enc) ENC.CMD_ST_STATE 3 0 g).put (shp .enc) ENC.CMD_ST_REASON w 0 g).stat (shp .enc) 0).err (shp .enc) w g).get _ _ _ _ = 3 ∧
    ((((d.put (shp .enc) ENC.CMD_ST_STATE 3 0 g).put (shp .enc) ENC.CMD_ST_REASON w 0 g).stat (shp .enc) 0).err (shp .enc) w g).get _ _ _ _ = _
  constructor
  · rw [herr _ _ (by decide) (by decide) (by decide), stat, orBits, get_put_field _ _ (by decide) (by decide) (by decide) (by decide) (by decide) (by decide) hg,
      get_put_field _ _ (by decide) (by decide) (by decide) (by decide) (by decide) hg hg, get_put_same _ _ _ _ _ _ (by decide)]
    rfl
  · rw [herr _ _ (by decide) (by decide) (by decide), stat, orBits, get_put_field _ _ (by decide) (by decide) (by decide) (by decide) (by decide) (by decide) hg,
      get_put_same _ _ _ _ _ _ (by decide)]
    rfl

/-! ### The end of an authorisation (R504) -/

/-- The registers of the session of the host. -/
def sessionWs : List (Nat × Fld) := [(shp .hst, HST.STATUS_SESSION), (shp .hst, HST.STATUS_ROLE), (shp .hst, HST.IDLE_LEFT_S)]

/-- The registers of an authorisation and of the session of the host. -/
def authWs : List (Nat × Fld) := [(shp .enc, ENC.AUTH_ROLE), (shp .enc, ENC.AUTH_LEFT_S), (shp .enc, ENC.AUTH_KEY), (shp .enc, HDR.STAT_BLOCK)] ++ sessionWs

/-- The pages of an authorisation. -/
def authPages : List Nat := [shp .enc, shp .hst, shp .slt]

/-- The registers of an authorisation that ended. -/
def authCleared : Dev := (((d.put (shp .enc) ENC.AUTH_ROLE 0 0 g).put (shp .enc) ENC.AUTH_LEFT_S 0 0 g).put128 ENC.AUTH_KEY g 0).stat (shp .enc) 1

/-- The registers of the host's session after its end. -/
def sessionEnded : Dev := ((d.put (shp .hst) HST.STATUS_SESSION 0).put (shp .hst) HST.STATUS_ROLE 0).put (shp .hst) HST.IDLE_LEFT_S 0

/-- The authorisation of a group ends and its record is not yet posted. -/
def authEnded : Dev :=
  let x := (d.authCleared g).modEnc (fun e => { e with authKey := lset e.authKey g none })
  if g = 1 then x.sessionEnded else x

theorem authClose_none (h : d.get (shp .enc) ENC.AUTH_ROLE 0 g = 0) : d.authClose g = d := if_pos h

theorem authClose_eq (h : d.get (shp .enc) ENC.AUTH_ROLE 0 g ≠ 0) : ∃ r, d.authClose g = (d.authEnded g).post r := ⟨_, (if_neg h).trans rfl⟩

variable (hg : g < 65536)
include hg

theorem authCleared_touch : Touch [shp .enc] authWs d (d.authCleared g) :=
  ((((Touch.refl ..).put (by simp) (by simp [authWs]) (by decide) (by decide) hg _).put (by simp) (by simp [authWs]) (by decide) (by decide) hg _).trans
    ((put128_touch _ g (by decide) rfl hg _).mono (fun _ h => h) (by simp [authWs]))).stat (by simp) (by simp [authWs]) _

omit hg in
theorem authCleared_only : OnlyRegs d (d.authCleared g) := ((((OnlyRegs.refl d).put ..).put ..).trans (put128_only _ g _ _)).put ..

omit hg in
theorem sessionEnded_touch : Touch [shp .hst] sessionWs d d.sessionEnded :=
  (((Touch.refl ..).put (by simp) (by simp [sessionWs]) (by decide) (by decide) (by decide) _).put (by simp) (by simp [sessionWs]) (by decide) (by decide) (by decide) _).put
    (by simp) (by simp [sessionWs]) (by decide) (by decide) (by decide) _

theorem authEnded_touch : Touch authPages authWs d (d.authEnded g) := by
  have hx : Touch authPages authWs d ((d.authCleared g).modEnc (fun e => { e with authKey := lset e.authKey g none })) :=
    ((d.authCleared_touch g hg).mono (by simp [authPages]) fun _ h => h).modEnc _
  exact Touch.ite (fun _ => hx.trans ((sessionEnded_touch _).mono (by simp [authPages]) fun _ h => List.mem_append_right _ h)) fun _ => hx

omit hg in
theorem authEnded_encl : (d.authEnded g).encl = { d.encl with authKey := lset d.encl.authKey g none } := by
  have hx : ((d.authCleared g).modEnc (fun e => { e with authKey := lset e.authKey g none })).encl = { d.encl with authKey := lset d.encl.authKey g none } := by
    rw [authCleared_only d g]
    rfl
  unfold authEnded
  extract_lets x
  split <;> exact hx

omit hg in
theorem authEnded_sec : SecOnly d (d.authEnded g) := by
  unfold authEnded
  extract_lets x
  have hx : SecOnly d x := ((SecOnly.refl d).regs (authCleared_only d g)).modEnc _
  split
  · exact ((hx.put ..).put ..).put ..
  · exact hx

theorem authCleared_shows : (d.authCleared g).get (shp .enc) ENC.AUTH_ROLE 0 g = 0 ∧ (d.authCleared g).get (shp .enc) ENC.AUTH_LEFT_S 0 g = 0 := by
  have h128 := put128_touch ((d.put (shp .enc) ENC.AUTH_ROLE 0 0 g).put (shp .enc) ENC.AUTH_LEFT_S 0 0 g) g (f := ENC.AUTH_KEY) (by decide) rfl hg 0
  constructor
  · rw [authCleared, stat, orBits, get_put_field _ _ (by decide) (by decide) (by decide) (by decide) (by decide) (by decide) hg,
      h128.get _ _ _ _ (by decide) (by decide) (by decide) (by decide) hg, get_put_field _ _ (by decide) (by decide) (by decide) (by decide) (by decide) hg hg,
      get_put_same _ _ _ _ _ _ (by decide)]
    rfl
  · rw [authCleared, stat, orBits, get_put_field _ _ (by decide) (by decide) (by decide) (by decide) (by decide) (by decide) hg,
      h128.get _ _ _ _ (by decide) (by decide) (by decide) (by decide) hg, get_put_same _ _ _ _ _ _ (by decide)]
    rfl

theorem authEnded_shows : (d.authEnded g).get (shp .enc) ENC.AUTH_ROLE 0 g = 0 ∧ (d.authEnded g).get (shp .enc) ENC.AUTH_LEFT_S 0 g = 0 := by
  have h := d.authCleared_shows g hg
  unfold authEnded
  extract_lets x
  split
  · have hs := fun f hc hf hi => (sessionEnded_touch x).get (shp .enc) f 0 g (by decide) hc hf hi hg
    exact ⟨(hs ENC.AUTH_ROLE (by decide) (by decide) (by decide)).trans h.1, (hs ENC.AUTH_LEFT_S (by decide) (by decide) (by decide)).trans h.2⟩
  · exact h

theorem authEnded_other {q : Nat} (h : g ≠ q) (hq : q < 65536) : (d.authEnded g).get (shp .enc) ENC.AUTH_ROLE 0 q = d.get (shp .enc) ENC.AUTH_ROLE 0 q := by
  have hx : (d.authCleared g).get (shp .enc) ENC.AUTH_ROLE 0 q = d.get (shp .enc) ENC.AUTH_ROLE 0 q := by
    rw [authCleared, stat, orBits, get_put_field _ _ (by decide) (by decide) (by decide) (by decide) (by decide) (by decide) hq,
      (put128_touch _ g (by decide) rfl hg _).get _ _ _ _ (by decide) (by decide) (by decide) (by decide) hq,
      get_put_field _ _ (by decide) (by decide) (by decide) (by decide) (by decide) hg hq, get_put_tab _ _ h]
  unfold authEnded
  extract_lets x
  split
  · exact ((sessionEnded_touch x).get (shp .enc) ENC.AUTH_ROLE 0 q (by decide) (by decide) (by decide) (by decide) hq).trans hx
  · exact hx

theorem authClose_touch : Touch authPages authWs d (d.authClose g) := by
  by_cases h : d.get (shp .enc) ENC.AUTH_ROLE 0 g = 0
  · rw [d.authClose_none g h]
    exact .refl ..
  · obtain ⟨r, he⟩ := d.authClose_eq g h
    rw [he]
    exact (d.authEnded_touch g hg).post (by simp [authPages]) r

omit hg in
theorem authClose_sec : SecOnly d (d.authClose g) := by
  by_cases h : d.get (shp .enc) ENC.AUTH_ROLE 0 g = 0
  · rw [d.authClose_none g h]
    exact .refl d
  · obtain ⟨r, he⟩ := d.authClose_eq g h
    rw [he]
    exact (d.authEnded_sec g).post r

omit hg in
theorem authClose_encl : ∃ k, (d.authClose g).encl = { d.encl with authKey := k } ∧ k.length = d.encl.authKey.length := by
  by_cases h : d.get (shp .enc) ENC.AUTH_ROLE 0 g = 0
  · rw [d.authClose_none g h]
    exact ⟨_, rfl, rfl⟩
  · obtain ⟨r, he⟩ := d.authClose_eq g h
    rw [he, post_encl]
    exact ⟨_, d.authEnded_encl g, length_lset ..⟩

/-- An authorisation that stood is no more. -/
theorem authClose_shows (h : d.get (shp .enc) ENC.AUTH_ROLE 0 g ≠ 0) : (d.authClose g).get (shp .enc) ENC.AUTH_LEFT_S 0 g = 0 ∧ (d.authClose g).encl.authKey.getD g none = none := by
  obtain ⟨r, he⟩ := d.authClose_eq g h
  rw [he, get_post_other _ _ (by decide) (by decide) (by decide) hg, post_encl, d.authEnded_encl g]
  exact ⟨(d.authEnded_shows g hg).2, getD_lset_self ..⟩

theorem authClose_role : (d.authClose g).get (shp .enc) ENC.AUTH_ROLE 0 g = 0 := by
  by_cases h : d.get (shp .enc) ENC.AUTH_ROLE 0 g = 0
  · rw [d.authClose_none g h, h]
  · obtain ⟨r, he⟩ := d.authClose_eq g h
    rw [he, get_post_other _ _ (by decide) (by decide) (by decide) hg]
    exact (d.authEnded_shows g hg).1

/-- The authorisations of the other groups stand. -/
theorem authClose_other {q : Nat} (hne : g ≠ q) (hq : q < 65536) : (d.authClose g).get (shp .enc) ENC.AUTH_ROLE 0 q = d.get (shp .enc) ENC.AUTH_ROLE 0 q := by
  by_cases h : d.get (shp .enc) ENC.AUTH_ROLE 0 g = 0
  · rw [d.authClose_none g h]
  · obtain ⟨r, he⟩ := d.authClose_eq g h
    rw [he, get_post_other _ _ (by decide) (by decide) (by decide) hq]
    exact d.authEnded_other g hg hne hq

omit hg in
/-- The session of the host ends with its authorisation. -/
theorem authClose_session (h : d.get (shp .enc) ENC.AUTH_ROLE 0 1 ≠ 0) : (d.authClose 1).get (shp .hst) HST.STATUS_SESSION = 0 := by
  obtain ⟨r, he⟩ := d.authClose_eq 1 h
  rw [he, get_post_other _ _ (by decide) (by decide) (by decide) (by decide)]
  show (((_ : Dev).put (shp .hst) HST.STATUS_SESSION 0).put (shp .hst) HST.STATUS_ROLE 0 |>.put (shp .hst) HST.IDLE_LEFT_S 0).get _ _ = 0
  rw [get_put_field _ _ (by decide) (by decide) (by decide) (by decide) (by decide) (by decide) (by decide),
    get_put_field _ _ (by decide) (by decide) (by decide) (by decide) (by decide) (by decide) (by decide), get_put_same _ _ _ _ _ _ (by decide)]
  rfl

end

end Dev

end Sys2Proof.Machine
end

section
/-! PROOFS. Commands of the host link (R513, R522 to R526). -/
namespace Sys2Proof.Machine

open Sys2Proof

namespace Dev

variable {d : Dev}

theorem hstCount_release (d : Dev) : d.hstCount.boot.released = d.boot.released := by rw [d.hstCount_only]

/-- A register of HST that no transaction counts in, after the count. -/
theorem get_hstCount (d : Dev) {f : Fld} (hc : clearOf xferWs (shp .hst) f = true) (hf : f.fits = true) (h0 : 0 < f.cnt) :
    d.hstCount.get (shp .hst) f = d.get (shp .hst) f := d.hstCount_edit.get _ _ 0 (by decide) hc hf h0

/-! ### Transactions that are not taken -/

/-- What a command of the host link does. -/
def hostRun (i : Instr) (d : Dev) : Dev :=
  match i with
  | .hstStatus => d.hstStatus
  | .hstReset => d.hstReset
  | .hstBootData a ws => d.bootData a.toNat (ws.map BitVec.toNat)
  | .hstRead a n late => d.hstRead a.toNat (n.toNat + 1) false (late.map BitVec.toNat)
  | .hstReadFix a n late => d.hstRead a.toNat (n.toNat + 1) true (late.map BitVec.toNat)
  | .hstWrite a ws => d.hstWrite a.toNat ws.length false (ws.map BitVec.toNat)
  | .hstWriteFix a ws => d.hstWrite a.toNat ws.length true (ws.map BitVec.toNat)
  | .hstCsAbort wr fix a n got ws =>
    if wr then d.hstWrite a.toNat (n.toNat + 1) fix ((ws.map BitVec.toNat).take (min got.toNat n.toNat)) else d.hstRead a.toNat (min got.toNat n.toNat) fix none
  | _ => d

theorem hstRead_off (hoff : d.hostOn = false) (a n : Nat) (fix : Bool) (late : Option Nat) : d.hstRead a n fix late = d := if_pos (by rw [hoff]; rfl)

theorem hstWrite_off (hoff : d.hostOn = false) (a n : Nat) (fix : Bool) (ws : List Nat) : d.hstWrite a n fix ws = d := if_pos (by rw [hoff]; rfl)

theorem hstRead_misaligned (hon : d.hostOn = true) {a : Nat} (ha : a % 4 ≠ 0) (n : Nat) (fix : Bool) (late : Option Nat) :
    d.hstRead a n fix late = d.hstCount.hstProto a := (if_neg (by rw [hon]; decide)).trans (if_pos ha)

theorem hstWrite_misaligned (hon : d.hostOn = true) {a : Nat} (ha : a % 4 ≠ 0) (n : Nat) (fix : Bool) (ws : List Nat) :
    d.hstWrite a n fix ws = d.hstCount.hstProto a := (if_neg (by rw [hon]; decide)).trans (if_pos ha)

theorem bootData_misaligned (hon : d.hostOn = true) {a : Nat} (ha : a % 4 ≠ 0) (ws : List Nat) : d.bootData a ws = d.hstCount.hstProto a :=
  (if_neg (by rw [hon]; decide)).trans (if_pos ha)

theorem hstRead_aligned (hon : d.hostOn = true) {a : Nat} (ha : a % 4 = 0) (n : Nat) (fix : Bool) (late : Option Nat) :
    d.hstRead a n fix late = hstReadGo late [] d.hstCount (hstAddrs a n fix) := (if_neg (by rw [hon]; decide)).trans (if_neg (not_not.mpr ha))

theorem hstWrite_aligned (hon : d.hostOn = true) {a : Nat} (ha : a % 4 = 0) {n : Nat} (hroom : n ≤ d.get (shp .hst) HST.STATUS_WR_FREE) (fix : Bool) (ws : List Nat) :
    d.hstWrite a n fix ws = hstWriteGo d.hstCount ((hstAddrs a ws.length fix).map (fun x => (x.2, ws.getD x.1 0))) := by
  refine (if_neg (by rw [hon]; decide)).trans ((if_neg (not_not.mpr ha)).trans (if_neg ?_))
  rw [d.get_hstCount (by decide) (by decide) (by decide)]
  omega

theorem hstWrite_full (hon : d.hostOn = true) {a : Nat} (ha : a % 4 = 0) {n : Nat} (hroom : n > d.get (shp .hst) HST.STATUS_WR_FREE) (fix : Bool) (ws : List Nat) :
    d.hstWrite a n fix ws = ((d.hstCount.put (shp .hst) HST.STATUS_FULL 1).err (shp .hst) cHST_FULL (a % 65536)).nak [] cHST_FULL := by
  refine (if_neg (by rw [hon]; decide)).trans ((if_neg (not_not.mpr ha)).trans (if_pos ?_))
  rw [d.get_hstCount (by decide) (by decide) (by decide)]
  exact hroom

theorem proto_shows (d : Dev) (a : Nat) : d.keeps (d.hstCount.hstProto a) [shp .hst] ∧ (d.hstCount.hstProto a).get (shp .hst) HDR.ERR_CODE = cHST_PROTO ∧
    (d.hstCount.hstProto a).get (shp .hst) HST.ERR_CNT_PROTO = satU 16 (d.get (shp .hst) HST.ERR_CNT_PROTO + 1) % 2 ^ 16 ∧
    (d.hstCount.hstProto a).get (shp .hst) HST.XFER_COUNT = (d.get (shp .hst) HST.XFER_COUNT + 1) % 2 ^ 32 := by
  refine ⟨(keeps_err_iff (by simp)).mpr ((keeps_put_iff (by simp) (by decide) (by decide) (by decide)).mpr d.hstCount_edit.keeps), ?_, ?_, ?_⟩
  · exact get_err_code ..
  · rw [hstProto, get_err_apart _ _ _ (by decide) (by decide) (by decide) (by decide), get_bump_same _ _ _ _ _ (by decide),
      d.get_hstCount (by decide) (by decide) (by decide)]
    rfl
  · rw [hstProto, get_err_apart _ _ _ (by decide) (by decide) (by decide) (by decide), bump,
      get_put_apart _ _ (by decide) (by decide) (by decide) (by decide) (by decide) (by decide) (by decide), d.hstCount_xfer]

/-! ### STATUS and RESET -/

/-- The status word stays over the count. -/
theorem readWord_hstCount (d : Dev) : d.hstCount.readWord hostW (shp .hst) 0x040 = d.readWord hostW (shp .hst) 0x040 := by
  have hfld : ∀ fi ∈ fieldsAt (shp .hst) 0x040, d.hstCount.readField hostW (shp .hst) fi.1 fi.2 = d.readField hostW (shp .hst) fi.1 fi.2 := by
    have hlist : fieldsAt (shp .hst) 0x040 = [(HST.STATUS_SESSION, 0), (HST.STATUS_ROLE, 0), (HST.STATUS_BOOT_REQ, 0), (HST.STATUS_WR_ERR, 0), (HST.STATUS_FULL, 0),
      (HST.STATUS_WR_FREE, 0), (HST.STATUS_WR_CODE, 0)] := by decide
    rw [hlist]
    intro fi hfi
    fin_cases hfi
    all_goals exact d.get_hstCount (by decide) (by decide) (by decide)
  unfold readWord
  rw [List.map_congr_left fun fi hfi => by rw [hfld fi hfi]]

/-- The registers of a STATUS. -/
def hostSeen (d : Dev) : Dev := (d.hstCount.put (shp .hst) HST.STATUS_WR_ERR 0).put (shp .hst) HST.STATUS_FULL 0

theorem hostSeen_keeps (d : Dev) : d.keeps d.hostSeen [shp .hst] :=
  (keeps_put_iff (by simp) (by decide) (by decide) (by decide)).mpr ((keeps_put_iff (by simp) (by decide) (by decide) (by decide)).mpr d.hstCount_edit.keeps)

theorem hostSeen_shows (d : Dev) : d.hostSeen.get (shp .hst) HST.STATUS_WR_ERR = 0 ∧ d.hostSeen.get (shp .hst) HST.STATUS_FULL = 0 ∧
    d.hostSeen.get (shp .hst) HST.XFER_COUNT = (d.get (shp .hst) HST.XFER_COUNT + 1) % 2 ^ 32 := by
  refine ⟨?_, get_put_same _ _ _ _ _ _ (by decide), ?_⟩
  · exact (get_put_apart _ _ (by decide) (by decide) (by decide) (by decide) (by decide) (by decide) (by decide)).trans (get_put_same _ _ _ _ _ _ (by decide))
  · exact (get_put_apart _ _ (by decide) (by decide) (by decide) (by decide) (by decide) (by decide) (by decide)).trans
      ((get_put_apart _ _ (by decide) (by decide) (by decide) (by decide) (by decide) (by decide) (by decide)).trans d.hstCount_xfer)

theorem hstStatus_eq (hon : d.hostOn = true) : d.hstStatus =
    { d.hostSeen with resp := ⟨[BitVec.ofNat 32 (d.readWord ⟨0x12, false⟩ (shp .hst) 0x040)], false, 0⟩ } := by
  refine (if_neg (by rw [hon]; decide)).trans ?_
  show ({ d.hostSeen with resp := ⟨[BitVec.ofNat 32 (d.hstCount.readWord hostW (shp .hst) 0x040)], false, 0⟩ } : Dev) = _
  rw [d.readWord_hstCount]
  rfl

/-- The registers of a RESET before its session ends. -/
def hostFresh (d : Dev) : Dev := ((d.hstCount.put (shp .hst) HST.STATUS_WR_ERR 0).put (shp .hst) HST.STATUS_FULL 0).put (shp .hst) HST.STATUS_WR_FREE 64

theorem hostFresh_keeps (d : Dev) : d.keeps d.hostFresh [shp .hst] :=
  (keeps_put_iff (by simp) (by decide) (by decide) (by decide)).mpr ((keeps_put_iff (by simp) (by decide) (by decide) (by decide)).mpr
    ((keeps_put_iff (by simp) (by decide) (by decide) (by decide)).mpr d.hstCount_edit.keeps))

theorem hostFresh_shows (d : Dev) : d.hostFresh.get (shp .hst) HST.STATUS_WR_ERR = 0 ∧ d.hostFresh.get (shp .hst) HST.STATUS_FULL = 0 ∧
    d.hostFresh.get (shp .hst) HST.STATUS_WR_FREE = 64 := by
  refine ⟨?_, ?_, get_put_same _ _ _ _ _ _ (by decide)⟩
  · exact (get_put_apart _ _ (by decide) (by decide) (by decide) (by decide) (by decide) (by decide) (by decide)).trans
      ((get_put_apart _ _ (by decide) (by decide) (by decide) (by decide) (by decide) (by decide) (by decide)).trans (get_put_same _ _ _ _ _ _ (by decide)))
  · exact (get_put_apart _ _ (by decide) (by decide) (by decide) (by decide) (by decide) (by decide) (by decide)).trans (get_put_same _ _ _ _ _ _ (by decide))

theorem hstReset_shows (hon : d.hostOn = true) : let e := d.hstReset
    d.keeps e [shp .hst, shp .enc, shp .slt] ∧ e.get (shp .hst) HST.STATUS_WR_ERR = 0 ∧ e.get (shp .hst) HST.STATUS_FULL = 0 ∧ e.get (shp .hst) HST.STATUS_WR_FREE = 64 ∧
      e.get (shp .enc) ENC.AUTH_ROLE 0 1 = 0 := by
  intro e
  have he : e = if d.on (shp .hst) HST.STATUS_SESSION then (d.hostFresh.authClose 1).stat (shp .hst) 2 else d.hostFresh.authClose 1 := if_neg (by rw [hon]; decide)
  have hclose := d.hostFresh.authClose_touch 1 (by decide)
  have hk : d.keeps (d.hostFresh.authClose 1) [shp .hst, shp .enc, shp .slt] :=
    keeps_trans (keeps_mono d.hostFresh_keeps (by simp)) (keeps_mono hclose.keeps (by simp [authPages]))
  have hshow : ∀ f ∈ [HST.STATUS_WR_ERR, HST.STATUS_FULL, HST.STATUS_WR_FREE], e.get (shp .hst) f = d.hostFresh.get (shp .hst) f := by
    intro f hf
    have hfit : f.fits = true ∧ 0 < f.cnt ∧ clearOf authWs (shp .hst) f = true ∧ HDR.STAT_BLOCK.apart f = true := by fin_cases hf <;> decide
    obtain ⟨hfit, hcnt, hclear, hap⟩ := hfit
    have hget := hclose.get _ f 0 0 (by decide) hclear hfit hcnt (by decide)
    rw [he]
    split
    · exact (get_put_apart _ _ hap (by decide) hfit (by decide) hcnt (by decide) (by decide)).trans hget
    · exact hget
  obtain ⟨h1, h2, h3⟩ := d.hostFresh_shows
  refine ⟨?_, (hshow _ (by simp)).trans h1, (hshow _ (by simp)).trans h2, (hshow _ (by simp)).trans h3, ?_⟩
  · rw [he]
    split
    · exact (keeps_stat_iff (by simp)).mpr hk
    · exact hk
  · have hrole := d.hostFresh.authClose_role 1 (by decide)
    rw [he]
    split
    · exact (get_put_other _ _ (by decide) (by decide) (by decide) (by decide) (by decide) (by decide) (by decide)).trans hrole
    · exact hrole

/-! ### Words read and stored -/

theorem hostCell_hstCount (d : Dev) (a : Nat) : d.hstCount.hostCell a = d.hostCell a :=
  congrArg (fun x => x * 0x100000 + (a - 0x20000000)) (d.get_hstCount (f := HST.WIN_BASE_BASE) (by decide) (by decide) (by decide))

/-- The addresses of a transaction whose span stays in the address space. -/
theorem hstAddrs_eq {a n : Nat} {fix : Bool} (h : a + (if fix then 4 else 4 * n) ≤ 2 ^ 32) : hstAddrs a n fix = (List.range n).map (fun i => (i, a + if fix then 0 else 4 * i)) := by
  refine List.map_congr_left fun i hi => ?_
  have hin := List.mem_range.mp hi
  cases fix with
  | true => rfl
  | false =>
    have h' : a + 4 * n ≤ 2 ^ 32 := h
    show (i, (a + 4 * i) % 2 ^ 32) = (i, a + 4 * i)
    rw [Nat.mod_eq_of_lt (by omega)]

/-- Whether the words of a transaction lie in the window and in the memory open to the host. -/
structure InWindow (d : Dev) (a n : Nat) (fix : Bool) : Prop where
  lo : 0x20000000 ≤ a
  hi : a + (if fix then 4 else 4 * n) ≤ 0x40000000
  user : d.userBase ≤ d.hostCell a
  within : d.hostCell a + (if fix then 4 else 4 * n) ≤ mramEnd
  good : ∀ b ∈ d.mbad, b + 4 ≤ d.hostCell a ∨ d.hostCell a + (if fix then 4 else 4 * n) ≤ b

theorem InWindow.addrs {a n : Nat} {fix : Bool} (h : InWindow d a n fix) : hstAddrs a n fix = (List.range n).map (fun i => (i, a + if fix then 0 else 4 * i)) :=
  hstAddrs_eq (h.hi.trans (by decide))

theorem InWindow.cell {a n : Nat} {fix : Bool} (h : InWindow d a n fix) (i : Nat) : d.hostCell (a + if fix then 0 else 4 * i) = d.hostCell a + if fix then 0 else 4 * i := by
  have := h.lo
  unfold hostCell
  omega

theorem InWindow.open {a n i : Nat} {fix : Bool} (h : InWindow d a n fix) (hi : i < n) : OpenWord d (a + if fix then 0 else 4 * i) := by
  have hc := h.cell i
  obtain ⟨h1, h2, h3, h4, h5⟩ := h
  cases fix with
  | true => exact ⟨h1, h2, h3, h4, h5⟩
  | false =>
    simp only [Bool.false_eq_true, if_false] at h2 h4 h5 hc ⊢
    refine ⟨by omega, by omega, by omega, by omega, fun b hb => ?_⟩
    have := h5 b hb
    omega

theorem InWindow.count {a n : Nat} {fix : Bool} (h : InWindow d a n fix) : InWindow d.hstCount a n fix := by
  have hcell : d.hstCount.hostCell a = d.hostCell a := d.hostCell_hstCount a
  have huser : d.hstCount.userBase = d.userBase := by
    unfold userBase
    rw [d.hstCount_edit.get (shp .nvm) _ 0 (by decide) (by decide) (by decide) (by decide)]
  have hbad : d.hstCount.mbad = d.mbad := by rw [d.hstCount_only]
  obtain ⟨h1, h2, h3, h4, h5⟩ := h
  exact ⟨h1, h2, by rw [hcell, huser]; exact h3, by rw [hcell]; exact h4, by rw [hcell, hbad]; exact h5⟩

/-- A READ through the window answers the words as MRAM holds them. -/
theorem hstRead_window {a n : Nat} {fix : Bool} (hon : d.hostOn = true) (ha : a % 4 = 0) (h : InWindow d a n fix) :
    d.hstRead a n fix none = { d.hstCount with resp := ⟨(List.range n).map (fun j => wordAt d.mram (d.hostCell a + if fix then 0 else 4 * j)), false, 0⟩ } := by
  have hcell : d.hstCount.hostCell a = d.hostCell a := d.hostCell_hstCount a
  have hmram : d.hstCount.mram = d.mram := by rw [d.hstCount_only]
  have hgo := hstReadGo_window (d := d.hstCount) (d.hostOn_hstCount.trans hon) ((List.range n).map (fun i => (i, a + if fix then 0 else 4 * i))) [] d.hstCount.resp
    fun x hx => by
      obtain ⟨i, hi, rfl⟩ := List.mem_map.mp hx
      exact h.count.open (List.mem_range.mp hi)
  have hwords : (List.range n).map ((fun x : Nat × Nat => wordAt d.hstCount.mram (d.hstCount.hostCell x.2)) ∘ fun i => (i, a + if fix then 0 else 4 * i)) =
      (List.range n).map (fun j => wordAt d.mram (d.hostCell a + if fix then 0 else 4 * j)) := List.map_congr_left fun i _ =>
    congrArg₂ wordAt hmram ((h.count.cell i).trans (by rw [hcell]))
  rw [d.hstRead_aligned hon ha, h.addrs]
  refine hgo.trans ?_
  rw [List.nil_append, List.map_map, hwords]

/-- A WRITE through the window stores the words in MRAM. -/
theorem hstWrite_window {a n : Nat} {fix : Bool} {ws : List Nat} (hon : d.hostOn = true) (ha : a % 4 = 0) (hroom : n ≤ d.get (shp .hst) HST.STATUS_WR_FREE)
    (h : InWindow d a ws.length fix) : ∃ bad, d.hstWrite a n fix ws =
      { d.hstCount with mram := storeWords (fun j => d.hostCell a + if fix then 0 else 4 * j) ws d.mram ws.length, mbad := bad, resp := ⟨[], false, 0⟩ } := by
  have hcell : d.hstCount.hostCell a = d.hostCell a := d.hostCell_hstCount a
  have hmram : d.hstCount.mram = d.mram := by rw [d.hstCount_only]
  obtain ⟨bad, hgo⟩ := hstWriteGo_window (d := d.hstCount) (d.hostOn_hstCount.trans hon) (adr := fun i => a + if fix then 0 else 4 * i) (ws := ws) (n := ws.length)
    (fun j hj => ⟨(h.count.open hj).lo, (h.count.open hj).hi, (h.count.open hj).user, (h.count.open hj).within⟩) ws.length le_rfl d.hstCount.mbad d.hstCount.resp
  rw [Nat.sub_self] at hgo
  have hfun : (fun j => d.hstCount.hostCell (a + if fix then 0 else 4 * j)) = fun j => d.hostCell a + if fix then 0 else 4 * j := funext fun j => by rw [h.count.cell j, hcell]
  rw [d.hstWrite_aligned hon ha hroom, h.addrs, List.map_map, List.range_eq_range']
  refine ⟨bad, ?_⟩
  rw [hfun, hmram] at hgo
  refine Eq.trans ?_ hgo
  rw [← hmram]
  rfl

end Dev

end Sys2Proof.Machine
end

section
/-! PROOFS. Single words of the host link, its boot data and the end of its session (R513, R522 to R526). -/
namespace Sys2Proof.Machine

open Sys2Proof

namespace Dev

variable {d : Dev}

/-! ### Transactions of one word -/

theorem hstAddrs_one {a : Nat} (fix : Bool) (ha : a < 2 ^ 32) : hstAddrs a 1 fix = [(0, a)] := by
  cases fix with
  | true => rfl
  | false =>
    show [(0, (a + 4 * 0) % 2 ^ 32)] = _
    rw [Nat.mul_zero, Nat.add_zero, Nat.mod_eq_of_lt ha]

/-- A READ of one word is the access of the host at its address. -/
theorem hstRead_one (hon : d.hostOn = true) {a : Nat} (ha : a % 4 = 0) (hlt : a < 2 ^ 32) (fix : Bool) : let e := d.hstCount.busRead hostW a 4
    d.hstRead a 1 fix none = { e with resp := if e.resp.busErr then ⟨[], true, e.resp.code⟩ else ⟨e.resp.words, false, 0⟩ } := by
  intro e
  rw [hstRead_aligned hon ha, hstAddrs_one fix hlt]
  refine (if_neg nofun).trans ?_
  show (if e.resp.busErr then ({ e with resp := ⟨[], true, e.resp.code⟩ } : Dev) else { e with resp := ⟨[] ++ e.resp.words, false, 0⟩ }) = _
  split <;> rfl

theorem hstRead_late (hon : d.hostOn = true) {a : Nat} (ha : a % 4 = 0) (n : Nat) (fix : Bool) :
    d.hstRead a (n + 1) fix (some 0) = { d.hstCount with resp := ⟨[], true, cTIMEOUT⟩ } := by
  rw [hstRead_aligned hon ha, hstAddrs, List.range_succ_eq_map, List.map_cons]
  exact if_pos rfl

/-- A WRITE that a word ended: the error it shows. -/
def writeFailed (d : Dev) (a c : Nat) : Dev :=
  ((((d.put (shp .hst) HST.STATUS_WR_ERR 1).put (shp .hst) HST.STATUS_WR_CODE c).put (shp .hst) HST.WR_FAIL_ADDR a).stat (shp .hst) 0).nak [] c

/-- A WRITE of one word is the access of the host at its address. -/
theorem hstWrite_one (hon : d.hostOn = true) {a : Nat} (ha : a % 4 = 0) (hlt : a < 2 ^ 32) (hroom : 1 ≤ d.get (shp .hst) HST.STATUS_WR_FREE) (fix : Bool) (v : Nat) :
    let e := d.hstCount.busWrite hostW a 4 v
    d.hstWrite a 1 fix [v] = if e.resp.busErr || e.resp.code == cPRIV then e.writeFailed a e.resp.code else e.ans [] := by
  intro e
  rw [hstWrite_aligned hon ha hroom, show [v].length = 1 from rfl, hstAddrs_one fix hlt]
  rfl

theorem writeFailed_shows (d : Dev) {a : Nat} (ha : a < 2 ^ 32) (c : Nat) : (d.writeFailed a c).get (shp .hst) HST.STATUS_WR_ERR = 1 ∧
    (d.writeFailed a c).get (shp .hst) HST.WR_FAIL_ADDR = a ∧ (d.writeFailed a c).get (shp .hst) HST.STATUS_WR_CODE = c % 2 ^ 8 := by
  show Dev.get ((((d.put (shp .hst) HST.STATUS_WR_ERR 1).put (shp .hst) HST.STATUS_WR_CODE c).put (shp .hst) HST.WR_FAIL_ADDR a).stat (shp .hst) 0) _ _ = _ ∧
    Dev.get ((((d.put (shp .hst) HST.STATUS_WR_ERR 1).put (shp .hst) HST.STATUS_WR_CODE c).put (shp .hst) HST.WR_FAIL_ADDR a).stat (shp .hst) 0) _ _ = _ ∧
    Dev.get ((((d.put (shp .hst) HST.STATUS_WR_ERR 1).put (shp .hst) HST.STATUS_WR_CODE c).put (shp .hst) HST.WR_FAIL_ADDR a).stat (shp .hst) 0) _ _ = _
  simp (disch := decide) only [stat, orBits, get_put_apart, get_put_same]
  exact ⟨rfl, Nat.mod_eq_of_lt ha, rfl⟩

/-- Words cut off before the first is whole are not accessed. -/
theorem hstRead_none (hon : d.hostOn = true) {a : Nat} (ha : a % 4 = 0) (fix : Bool) : d.hstRead a 0 fix none = { d.hstCount with resp := ⟨[], false, 0⟩ } :=
  hstRead_aligned hon ha 0 fix none

theorem hstWrite_none (hon : d.hostOn = true) {a n : Nat} (ha : a % 4 = 0) (hroom : n ≤ d.get (shp .hst) HST.STATUS_WR_FREE) (fix : Bool) :
    d.hstWrite a n fix [] = { d.hstCount with resp := ⟨[], false, 0⟩ } := by
  rw [hstWrite_aligned hon ha hroom, show hstAddrs a ([] : List Nat).length fix = [] from rfl, List.map_nil, hstWriteGo]
  rfl

/-- A WRITE beyond the room: the registers it shows. -/
def hostFull (d : Dev) (a : Nat) : Dev := (d.hstCount.put (shp .hst) HST.STATUS_FULL 1).err (shp .hst) cHST_FULL (a % 65536)

theorem hstWrite_beyond (hon : d.hostOn = true) {a : Nat} (ha : a % 4 = 0) {n : Nat} (hroom : n > d.get (shp .hst) HST.STATUS_WR_FREE) (fix : Bool) (ws : List Nat) :
    d.hstWrite a n fix ws = { d.hostFull a with resp := ⟨[], false, cHST_FULL⟩ } := hstWrite_full hon ha hroom fix ws

theorem full_shows (d : Dev) (a : Nat) : d.keeps (d.hostFull a) [shp .hst] ∧ (d.hostFull a).get (shp .hst) HST.STATUS_FULL = 1 ∧
    (d.hostFull a).get (shp .hst) HDR.ERR_CODE = cHST_FULL := by
  have hk : d.keeps (d.hostFull a) [shp .hst] := (keeps_err_iff (by simp)).mpr ((keeps_put_iff (by simp) (by decide) (by decide) (by decide)).mpr d.hstCount_edit.keeps)
  refine ⟨hk, ?_, get_err_code ..⟩
  exact (get_err_apart (d.hstCount.put (shp .hst) HST.STATUS_FULL 1) _ _ (by decide) (by decide) (by decide) (by decide)).trans (get_put_same _ _ _ _ _ _ (by decide))

/-! ### Boot data (R526) -/

theorem bootRestart_keeps (d : Dev) : d.keeps d.bootRestart [shp .hst] :=
  (keeps_put_iff (by simp) (by decide) (by decide) (by decide)).mpr ((keeps_put_iff (by simp) (by decide) (by decide) (by decide)).mpr (keeps_of_eq rfl rfl _))

theorem bootRestart_err (d : Dev) (c x : Nat) : let e := d.bootRestart.err (shp .hst) c x
    d.keeps e [shp .hst] ∧ e.boot.hostImg = [] ∧ e.get (shp .hst) HST.BOOT_OFS_BYTES = 0 ∧ e.get (shp .hst) HDR.ERR_CODE = c % 2 ^ 8 := by
  intro e
  refine ⟨(keeps_err_iff (by simp)).mpr d.bootRestart_keeps, rfl, ?_, get_err_code ..⟩
  exact (get_err_apart _ _ _ (by decide) (by decide) (by decide) (by decide)).trans ((get_put_apart _ _ (by decide) (by decide) (by decide) (by decide) (by decide) (by decide)
    (by decide)).trans (get_put_same _ _ _ _ _ _ (by decide)))

theorem bootIdle_takes (h : d.on (shp .hst) HST.STATUS_BOOT_REQ = true) : d.bootIdle = d.bootRestart.err (shp .hst) cHST_BOOT_IDLE := if_pos h

theorem bootIdle_rests (h : d.on (shp .hst) HST.STATUS_BOOT_REQ ≠ true) : d.bootIdle = d := if_neg h

theorem on_hstCount (d : Dev) : d.hstCount.on (shp .hst) HST.STATUS_BOOT_REQ = d.on (shp .hst) HST.STATUS_BOOT_REQ := by
  rw [on, d.get_hstCount (by decide) (by decide) (by decide), on]

/-- Boot data out of order, or not asked for, is refused. -/
theorem bootData_order (hon : d.hostOn = true) {a : Nat} (ha : a % 4 = 0) (h : d.on (shp .hst) HST.STATUS_BOOT_REQ = false ∨ a ≠ d.get (shp .hst) HST.BOOT_OFS_BYTES)
    (ws : List Nat) : d.bootData a ws = (d.hstCount.bump (shp .hst) HST.ERR_CNT_BOOT).err (shp .hst) cHST_BOOT_ORDER (a % 65536) := by
  refine (if_neg (by rw [hon]; decide)).trans ((if_neg (not_not.mpr ha)).trans (if_pos ?_))
  rw [d.on_hstCount, d.get_hstCount (by decide) (by decide) (by decide)]
  simpa using h

/-- The image of a boot with more data. -/
def bootTaken (d : Dev) (img : List Byte) : Dev := { d.hstCount with boot := { d.hstCount.boot with hostImg := img } }.put (shp .hst) HST.BOOT_OFS_BYTES img.length

theorem bootTaken_keeps (d : Dev) (img : List Byte) : d.keeps (d.bootTaken img) [shp .hst] :=
  (keeps_put_iff (by simp) (by decide) (by decide) (by decide)).mpr d.hstCount_edit.keeps

section
variable (hon : d.hostOn = true) {a : Nat} (ha : a % 4 = 0) (hreq : d.on (shp .hst) HST.STATUS_BOOT_REQ = true) (hofs : a = d.get (shp .hst) HST.BOOT_OFS_BYTES)
  {ws : List Nat} {img : List Byte} (himg : img = d.boot.hostImg ++ (ws.flatMap (leBytes 4)).map (BitVec.ofNat 8))
include hon ha hreq hofs himg

theorem bootData_eq : d.bootData a ws =
    let e := d.bootTaken img
    let len := leAt (img.map BitVec.toNat) 0x10 4
    let hdr := decide (img.length ≥ 0x600)
    if hdr && decide (len > bodyMax) then (e.bootRestart).err (shp .hst) cRANGE (a % 65536)
    else
      let e := if hdr then e.put (shp .hst) HST.BOOT_LEN_BYTES (len + 0x1000) else e
      if hdr && decide (img.length ≥ len + 0x1000) then e.bootReceived else e := by
  subst himg
  refine (if_neg (by rw [hon]; decide)).trans ((if_neg (not_not.mpr ha)).trans ((if_neg ?_).trans ?_))
  · rw [d.on_hstCount, d.get_hstCount (by decide) (by decide) (by decide), hreq]
    simp [hofs]
  · have hboot : d.hstCount.boot = d.boot := by rw [d.hstCount_only]
    dsimp only
    unfold bootTaken
    rw [hboot]

/-- Boot data before the header is whole is taken. -/
theorem bootData_begins (hshort : img.length < 0x600) : d.bootData a ws = d.bootTaken img := by
  rw [bootData_eq hon ha hreq hofs himg]
  have hdr : decide (img.length ≥ 0x600) = false := decide_eq_false (by omega)
  simp only [hdr, Bool.false_and, Bool.false_eq_true, if_false]

/-- A header that names too long a body restarts the sequence. -/
theorem bootData_range (hlong : img.length ≥ 0x600) (hlen : leAt (img.map BitVec.toNat) 0x10 4 > bodyMax) :
    d.bootData a ws = ((d.bootTaken img).bootRestart).err (shp .hst) cRANGE (a % 65536) := by
  rw [bootData_eq hon ha hreq hofs himg]
  exact if_pos (by rw [decide_eq_true hlong, decide_eq_true hlen]; rfl)

end

end Dev

/-! ### The commands -/

section
variable {s : State} (hout : s.out = true)
include hout

/-- The commands of the host link, each by what it does. -/
theorem host_run {i : Instr} {a : BitVec 32} {n got : BitVec 8} {late : Option (BitVec 8)} {ws : List (BitVec 32)} {wr fix : Bool}
    (hi : i = .hstStatus ∨ i = .hstReset ∨ i = .hstBootData a ws ∨ i = .hstRead a n late ∨ i = .hstReadFix a n late ∨ i = .hstWrite a ws ∨ i = .hstWriteFix a ws ∨
      i = .hstCsAbort wr fix a n got ws) : exec i s = .next { s with dev := s.dev.hostRun i } := by
  rcases hi with rfl | rfl | rfl | rfl | rfl | rfl | rfl | rfl
  · exact onDev_out (fun d => d.hstStatus) hout
  · exact onDev_out (fun d => d.hstReset) hout
  · exact onDev_out (fun d => d.bootData a.toNat (ws.map BitVec.toNat)) hout
  · exact onDev_out (fun d => d.hstRead a.toNat (n.toNat + 1) false (late.map BitVec.toNat)) hout
  · exact onDev_out (fun d => d.hstRead a.toNat (n.toNat + 1) true (late.map BitVec.toNat)) hout
  · exact onDev_out (fun d => d.hstWrite a.toNat ws.length false (ws.map BitVec.toNat)) hout
  · exact onDev_out (fun d => d.hstWrite a.toNat ws.length true (ws.map BitVec.toNat)) hout
  · exact onDev_out (fun d => if wr then d.hstWrite a.toNat (n.toNat + 1) fix ((ws.map BitVec.toNat).take (min got.toNat n.toNat))
      else d.hstRead a.toNat (min got.toNat n.toNat) fix none) hout

omit hout in
/-- Strapped off, the host link does nothing. -/
theorem hostRun_off (hoff : s.dev.hostOn = false) (i : Instr) : s.dev.hostRun i = s.dev := by
  have hno : (!s.dev.hostOn) = true := by rw [hoff]; rfl
  unfold Dev.hostRun
  split
  · exact if_pos hno
  · exact if_pos hno
  · exact if_pos hno
  · exact Dev.hstRead_off hoff ..
  · exact Dev.hstRead_off hoff ..
  · exact Dev.hstWrite_off hoff ..
  · exact Dev.hstWrite_off hoff ..
  · split
    · exact Dev.hstWrite_off hoff ..
    · exact Dev.hstRead_off hoff ..
  · rfl

omit hout in
/-- A misaligned address is malformed. -/
theorem hostRun_misaligned (hon : s.dev.hostOn = true) {i : Instr} {a : BitVec 32} {n got : BitVec 8} {late : Option (BitVec 8)} {ws : List (BitVec 32)} {wr fix : Bool}
    (ha : a.toNat % 4 ≠ 0) (hi : i = .hstBootData a ws ∨ i = .hstRead a n late ∨ i = .hstReadFix a n late ∨ i = .hstWrite a ws ∨ i = .hstWriteFix a ws ∨
      i = .hstCsAbort wr fix a n got ws) : s.dev.hostRun i = s.dev.hstCount.hstProto a.toNat := by
  rcases hi with rfl | rfl | rfl | rfl | rfl | rfl
  · exact Dev.bootData_misaligned hon ha _
  · exact Dev.hstRead_misaligned hon ha ..
  · exact Dev.hstRead_misaligned hon ha ..
  · exact Dev.hstWrite_misaligned hon ha ..
  · exact Dev.hstWrite_misaligned hon ha ..
  · cases wr with
    | true => exact Dev.hstWrite_misaligned hon ha ..
    | false => exact Dev.hstRead_misaligned hon ha ..

/-- The transactions of the host link that are not taken. -/
theorem host_untaken {i : Instr} {a : BitVec 32} {n got : BitVec 8} {late : Option (BitVec 8)} {ws : List (BitVec 32)} {wr fix : Bool}
    (hi : i = .hstStatus ∨ i = .hstReset ∨ i = .hstBootData a ws ∨ i = .hstRead a n late ∨ i = .hstReadFix a n late ∨ i = .hstWrite a ws ∨ i = .hstWriteFix a ws ∨
      i = .hstCsAbort wr fix a n got ws) :
    (s.dev.hostOn = false → exec i s = .next s) ∧
    (s.dev.hostOn = true → a.toNat % 4 ≠ 0 → i ≠ .hstStatus → i ≠ .hstReset → ∃ t, exec i s = .next t ∧ t.pending = s.pending ∧ s.dev.keeps t.dev [shp .hst] ∧
      t.dev.get (shp .hst) HDR.ERR_CODE = cHST_PROTO ∧ t.dev.get (shp .hst) HST.ERR_CNT_PROTO = satU 16 (s.dev.get (shp .hst) HST.ERR_CNT_PROTO + 1) % 2 ^ 16 ∧
      t.dev.get (shp .hst) HST.XFER_COUNT = (s.dev.get (shp .hst) HST.XFER_COUNT + 1) % 2 ^ 32) := by
  have hrun := host_run hout hi
  refine ⟨fun hoff => ?_, fun hon ha hst hrst => ?_⟩
  · rw [hrun, hostRun_off hoff]
  · rw [hostRun_misaligned hon ha ((hi.resolve_left hst).resolve_left hrst)] at hrun
    exact ⟨_, hrun, rfl, Dev.proto_shows ..⟩

end

end Sys2Proof.Machine
end

section
/-! PROOFS. The commands of the host link by their clauses (R513, R522 to R526). -/
namespace Sys2Proof.Machine

open Sys2Proof

section
variable {s : State} (hout : s.out = true)
include hout

/-! ### The window -/

theorem hostRead_run {i : Instr} {a : BitVec 32} {fix : Bool} {k : Nat}
    (hi : (∃ n : BitVec 8, k = n.toNat + 1 ∧ (fix = false ∧ i = .hstRead a n none ∨ fix = true ∧ i = .hstReadFix a n none)) ∨
      ∃ (n got : BitVec 8) (ws : List (BitVec 32)), k = min got.toNat n.toNat ∧ i = .hstCsAbort false fix a n got ws) :
    exec i s = .next { s with dev := s.dev.hstRead a.toNat k fix none } := by
  rcases hi with ⟨n, rfl, ⟨rfl, rfl⟩ | ⟨rfl, rfl⟩⟩ | ⟨n, got, ws, rfl, rfl⟩
  · exact host_run hout (n := n) (a := a) (late := none) (got := 0) (ws := []) (wr := false) (fix := false) (by simp)
  · exact host_run hout (n := n) (a := a) (late := none) (got := 0) (ws := []) (wr := false) (fix := false) (by simp)
  · exact host_run hout (n := n) (a := a) (late := none) (got := got) (ws := ws) (wr := false) (fix := fix) (by simp)

theorem hostWrite_run {i : Instr} {a : BitVec 32} {fix : Bool} {ws : List (BitVec 32)} (hroom : ws.length ≤ s.dev.get (shp .hst) HST.STATUS_WR_FREE)
    (hi : fix = false ∧ i = .hstWrite a ws ∨ fix = true ∧ i = .hstWriteFix a ws ∨
      ∃ (n got : BitVec 8) (wt : List (BitVec 32)), ws = wt.take (min got.toNat n.toNat) ∧ n.toNat + 1 ≤ s.dev.get (shp .hst) HST.STATUS_WR_FREE ∧
        i = .hstCsAbort true fix a n got wt) :
    ∃ n ≤ s.dev.get (shp .hst) HST.STATUS_WR_FREE, exec i s = .next { s with dev := s.dev.hstWrite a.toNat n fix (ws.map BitVec.toNat) } := by
  rcases hi with ⟨rfl, rfl⟩ | ⟨rfl, rfl⟩ | ⟨n, got, wt, rfl, hn, rfl⟩
  · exact ⟨_, hroom, host_run hout (n := 0) (a := a) (late := none) (got := 0) (ws := ws) (wr := false) (fix := false) (by simp)⟩
  · exact ⟨_, hroom, host_run hout (n := 0) (a := a) (late := none) (got := 0) (ws := ws) (wr := false) (fix := false) (by simp)⟩
  · refine ⟨_, hn, ?_⟩
    rw [List.map_take]
    exact host_run hout (n := n) (a := a) (late := none) (got := got) (ws := wt) (wr := true) (fix := fix) (by simp)

variable (hon : s.dev.hostOn = true)
include hon

/-- Every word of a READ through the window is what MRAM holds. -/
theorem hostRead_rule {i : Instr} {a : BitVec 32} {fix : Bool} {k : Nat} (ha : a.toNat % 4 = 0) (hw : Dev.InWindow s.dev a.toNat k fix)
    (hi : (∃ n : BitVec 8, k = n.toNat + 1 ∧ (fix = false ∧ i = .hstRead a n none ∨ fix = true ∧ i = .hstReadFix a n none)) ∨
      ∃ (n got : BitVec 8) (ws : List (BitVec 32)), k = min got.toNat n.toNat ∧ i = .hstCsAbort false fix a n got ws) :
    ∃ t, exec i s = .next t ∧ t.pending = s.pending ∧ s.dev.keeps t.dev [shp .hst] ∧ t.dev.get (shp .hst) HST.XFER_COUNT = (s.dev.get (shp .hst) HST.XFER_COUNT + 1) % 2 ^ 32 ∧
      t.dev.resp = ⟨(List.range k).map (fun j => wordAt s.dev.mram (s.dev.hostCell a.toNat + if fix then 0 else 4 * j)), false, 0⟩ := by
  have hrun := hostRead_run hout hi
  rw [Dev.hstRead_window hon ha hw] at hrun
  exact ⟨_, hrun, rfl, s.dev.hstCount_edit.keeps, s.dev.hstCount_xfer, rfl⟩

/-- Every word of a WRITE through the window is stored in MRAM. -/
theorem hostWrite_rule {i : Instr} {a : BitVec 32} {fix : Bool} {ws : List (BitVec 32)} (ha : a.toNat % 4 = 0) (hw : Dev.InWindow s.dev a.toNat ws.length fix)
    (hroom : ws.length ≤ s.dev.get (shp .hst) HST.STATUS_WR_FREE)
    (hi : fix = false ∧ i = .hstWrite a ws ∨ fix = true ∧ i = .hstWriteFix a ws ∨
      ∃ (n got : BitVec 8) (wt : List (BitVec 32)), ws = wt.take (min got.toNat n.toNat) ∧ n.toNat + 1 ≤ s.dev.get (shp .hst) HST.STATUS_WR_FREE ∧
        i = .hstCsAbort true fix a n got wt) :
    let cell := fun j => s.dev.hostCell a.toNat + if fix then 0 else 4 * j
    ∃ t, exec i s = .next t ∧ t.pending = s.pending ∧ t.dev.get (shp .hst) HST.XFER_COUNT = (s.dev.get (shp .hst) HST.XFER_COUNT + 1) % 2 ^ 32 ∧ t.dev.resp = ⟨[], false, 0⟩ ∧
      t.dev.ha.sram = s.dev.ha.sram ∧ t.dev.hb.sram = s.dev.hb.sram ∧ (∀ k, keyPage k ≠ shp .hst → rfFind k t.dev.regs = rfFind k s.dev.regs) ∧
      (∀ x, (∀ j < ws.length, x < cell j ∨ cell j + 4 ≤ x) → memRead t.dev.mram x = memRead s.dev.mram x) ∧
      ∀ j < ws.length, (fix = true → j + 1 = ws.length) → ∀ q < 4, (memRead t.dev.mram (cell j + q)).toNat = (leBytes 4 (ws.getD j 0).toNat).getD q 0 := by
  intro cell
  obtain ⟨n, hn, hrun⟩ := hostWrite_run hout hroom hi
  have hlen : (ws.map BitVec.toNat).length = ws.length := List.length_map ..
  obtain ⟨bad, he⟩ := Dev.hstWrite_window (ws := ws.map BitVec.toNat) hon ha hn (hlen.symm ▸ hw)
  rw [he, hlen] at hrun
  have hcount := s.dev.hstCount_only
  refine ⟨_, hrun, rfl, s.dev.hstCount_xfer, rfl, by rw [hcount], by rw [hcount], fun k hk => s.dev.hstCount_edit.keeps.2 k (by simpa using hk),
    fun x hx => memRead_storeWords_outside _ hx, fun j hj hfix q hq => ?_⟩
  have hgetD : (ws.map BitVec.toNat).getD j 0 = (ws.getD j 0).toNat := by
    rw [List.getD_eq_getElem _ _ (by omega), List.getElem_map, List.getD_eq_getElem _ _ hj]
  rw [← hgetD]
  refine memRead_storeWords_last hj (fun m hm hjm => ?_) hq
  cases fix with
  | true => exact absurd (hfix rfl) (by omega)
  | false => exact .inl (by show s.dev.hostCell a.toNat + 4 * j + q < s.dev.hostCell a.toNat + 4 * m; omega)

/-! ### One word -/

variable {a : BitVec 32} (ha : a.toNat % 4 = 0)
include ha

theorem hostReadOne_rule {i : Instr} {u : State} (hi : i = .hstRead a 0 none ∨ i = .hstReadFix a 0 none)
    (hu : exec (.clearingRead ⟨0x12, false⟩ ⟨a.setWidth 64, 4, false⟩) { s with dev := s.dev.hstCount } = .next u) :
    ∃ t, exec i s = .next t ∧ t.pending = s.pending ∧ t.dev.regs = u.dev.regs ∧ t.dev.memories = u.dev.memories ∧
      (u.dev.resp.busErr = false → t.dev.resp = ⟨u.dev.resp.words, false, 0⟩) ∧ (u.dev.resp.busErr = true → t.dev.resp = ⟨[], true, u.dev.resp.code⟩) := by
  obtain ⟨fix, hfix⟩ : ∃ fix : Bool, fix = false ∧ i = .hstRead a 0 none ∨ fix = true ∧ i = .hstReadFix a 0 none := by
    rcases hi with rfl | rfl
    · exact ⟨false, .inl ⟨rfl, rfl⟩⟩
    · exact ⟨true, .inr ⟨rfl, rfl⟩⟩
  have hrun := hostRead_run hout (k := 1) (.inl ⟨0, rfl, hfix⟩)
  rw [Dev.hstRead_one hon ha a.isLt] at hrun
  have hread := onDev_out (s := { s with dev := s.dev.hstCount }) (fun d => d.busRead Dev.hostW (a.setWidth 64).toNat 4 false) ((s.dev.hstCount_release).trans hout)
  have hw : (a.setWidth 64).toNat = a.toNat := by
    rw [BitVec.toNat_setWidth]
    exact Nat.mod_eq_of_lt (by omega)
  rw [hw] at hread
  obtain rfl : { s with dev := s.dev.hstCount.busRead Dev.hostW a.toNat 4 } = u := Host.Outcome.next.inj (hread.symm.trans hu)
  exact ⟨_, hrun, rfl, rfl, rfl, fun h => if_neg (by rw [show _ = false from h]; decide), fun h => if_pos h⟩

theorem hostWriteOne_rule {i : Instr} {v : BitVec 32} {u : State} (hi : i = .hstWrite a [v] ∨ i = .hstWriteFix a [v]) (hroom : s.dev.get (shp .hst) HST.STATUS_WR_FREE ≠ 0)
    (hu : exec (.registerWrite ⟨0x12, false⟩ (a.setWidth 64) 4 (v.setWidth 64)) { s with dev := s.dev.hstCount } = .next u) :
    ∃ t, exec i s = .next t ∧ t.pending = s.pending ∧ t.dev.memories = u.dev.memories ∧ (u.dev.resp.busErr = false → u.dev.resp.code ≠ cPRIV → t.dev.regs = u.dev.regs) ∧
      (u.dev.resp.busErr = true ∨ u.dev.resp.code = cPRIV → t.dev.get (shp .hst) HST.STATUS_WR_ERR = 1 ∧ t.dev.get (shp .hst) HST.WR_FAIL_ADDR = a.toNat ∧
        t.dev.get (shp .hst) HST.STATUS_WR_CODE = u.dev.resp.code % 2 ^ 8) := by
  have hpos : 1 ≤ s.dev.get (shp .hst) HST.STATUS_WR_FREE := Nat.pos_of_ne_zero hroom
  obtain ⟨fix, hrun⟩ : ∃ fix : Bool, exec i s = .next { s with dev := s.dev.hstWrite a.toNat 1 fix [v.toNat] } := by
    rcases hi with rfl | rfl
    · exact ⟨false, onDev_out (fun d => d.hstWrite a.toNat 1 false [v.toNat]) hout⟩
    · exact ⟨true, onDev_out (fun d => d.hstWrite a.toNat 1 true [v.toNat]) hout⟩
  rw [Dev.hstWrite_one hon ha a.isLt hpos] at hrun
  have hwrite := onDev_out (s := { s with dev := s.dev.hstCount }) (fun d => d.busWrite Dev.hostW (a.setWidth 64).toNat 4 (v.setWidth 64).toNat) ((s.dev.hstCount_release).trans hout)
  have hw : ∀ x : BitVec 32, (x.setWidth 64).toNat = x.toNat := fun x => by
    rw [BitVec.toNat_setWidth]
    exact Nat.mod_eq_of_lt (by omega)
  rw [hw, hw] at hwrite
  obtain rfl : { s with dev := s.dev.hstCount.busWrite Dev.hostW a.toNat 4 v.toNat } = u := Host.Outcome.next.inj (hwrite.symm.trans hu)
  obtain ⟨e, he⟩ : ∃ e, e = s.dev.hstCount.busWrite Dev.hostW a.toNat 4 v.toNat := ⟨_, rfl⟩
  rw [← he] at hrun
  refine ⟨_, hrun, rfl, ?_⟩
  rw [State.dev_mk, State.dev_mk, ← he]
  split
  case isTrue hbad =>
    refine ⟨rfl, fun h1 h2 => ?_, fun _ => e.writeFailed_shows a.isLt _⟩
    simp [h1, h2] at hbad
  case isFalse hgood =>
    refine ⟨rfl, fun _ _ => rfl, fun h => absurd ?_ hgood⟩
    rcases h with h | h <;> simp [h]

theorem hostLate_rule {i : Instr} {n : BitVec 8} (hi : i = .hstRead a n (some 0) ∨ i = .hstReadFix a n (some 0)) :
    ∃ t, exec i s = .next t ∧ t.pending = s.pending ∧ t.dev.resp = ⟨[], true, cTIMEOUT⟩ ∧ s.dev.keeps t.dev [shp .hst] := by
  obtain ⟨fix, hrun⟩ : ∃ fix : Bool, exec i s = .next { s with dev := s.dev.hstRead a.toNat (n.toNat + 1) fix (some 0) } := by
    rcases hi with rfl | rfl
    · exact ⟨false, onDev_out (fun d => d.hstRead a.toNat (n.toNat + 1) false (some 0)) hout⟩
    · exact ⟨true, onDev_out (fun d => d.hstRead a.toNat (n.toNat + 1) true (some 0)) hout⟩
  rw [Dev.hstRead_late hon ha] at hrun
  exact ⟨_, hrun, rfl, rfl, s.dev.hstCount_edit.keeps⟩

theorem hostFull_rule {i : Instr} {ws : List (BitVec 32)} (hi : i = .hstWrite a ws ∨ i = .hstWriteFix a ws) (hroom : ws.length > s.dev.get (shp .hst) HST.STATUS_WR_FREE) :
    ∃ t, exec i s = .next t ∧ t.pending = s.pending ∧ s.dev.keeps t.dev [shp .hst] ∧ t.dev.get (shp .hst) HST.STATUS_FULL = 1 ∧
      t.dev.get (shp .hst) HDR.ERR_CODE = cHST_FULL := by
  obtain ⟨fix, hrun⟩ : ∃ fix : Bool, exec i s = .next { s with dev := s.dev.hstWrite a.toNat ws.length fix (ws.map BitVec.toNat) } := by
    rcases hi with rfl | rfl
    · exact ⟨false, onDev_out (fun d => d.hstWrite a.toNat ws.length false (ws.map BitVec.toNat)) hout⟩
    · exact ⟨true, onDev_out (fun d => d.hstWrite a.toNat ws.length true (ws.map BitVec.toNat)) hout⟩
  rw [Dev.hstWrite_beyond hon ha hroom] at hrun
  obtain ⟨hk, hfull, hcode⟩ := s.dev.full_shows a.toNat
  generalize s.dev.hostFull a.toNat = e at hrun hk hfull hcode
  exact ⟨_, hrun, rfl, hk, hfull, hcode⟩

theorem hostCut_rule {wr fix : Bool} {n : BitVec 8} {ws : List (BitVec 32)} (hroom : n.toNat + 1 ≤ s.dev.get (shp .hst) HST.STATUS_WR_FREE) :
    ∃ t, exec (.hstCsAbort wr fix a n 0 ws) s = .next t ∧ t.pending = s.pending ∧ t.dev.resp = ⟨[], false, 0⟩ ∧ s.dev.keeps t.dev [shp .hst] := by
  have hrun := host_run hout (i := .hstCsAbort wr fix a n 0 ws) (n := n) (a := a) (late := none) (got := 0) (ws := ws) (wr := wr) (fix := fix) (by simp)
  have hmin : min (0#8).toNat n.toNat = 0 := Nat.zero_min _
  have hdo : s.dev.hostRun (.hstCsAbort wr fix a n 0 ws) = { s.dev.hstCount with resp := ⟨[], false, 0⟩ } := by
    cases wr with
    | true =>
      show s.dev.hstWrite a.toNat (n.toNat + 1) fix ((ws.map BitVec.toNat).take (min (0#8).toNat n.toNat)) = _
      rw [hmin, List.take_zero]
      exact Dev.hstWrite_none hon ha hroom fix
    | false =>
      show s.dev.hstRead a.toNat (min (0#8).toNat n.toNat) fix none = _
      rw [hmin]
      exact Dev.hstRead_none hon ha fix
  rw [hdo] at hrun
  exact ⟨_, hrun, rfl, rfl, s.dev.hstCount_edit.keeps⟩

/-! ### Boot data -/

theorem hostBoot_rule (ws : List (BitVec 32)) : let p := shp .hst
    (s.dev.on p HST.STATUS_BOOT_REQ = false ∨ a.toNat ≠ s.dev.get p HST.BOOT_OFS_BYTES → ∃ t, exec (.hstBootData a ws) s = .next t ∧ t.pending = s.pending ∧
      s.dev.keeps t.dev [p] ∧ t.dev.boot = s.dev.boot ∧ t.dev.get p HDR.ERR_CODE = cHST_BOOT_ORDER) ∧
    (let img := s.dev.boot.hostImg ++ ((ws.map BitVec.toNat).flatMap (leBytes 4)).map (BitVec.ofNat 8)
     s.dev.on p HST.STATUS_BOOT_REQ = true → a.toNat = s.dev.get p HST.BOOT_OFS_BYTES →
      (img.length < 0x600 → ∃ t, exec (.hstBootData a ws) s = .next t ∧ t.pending = s.pending ∧ s.dev.keeps t.dev [p] ∧ t.dev.boot.hostImg = img ∧
        t.dev.get p HST.BOOT_OFS_BYTES = img.length) ∧
      (img.length ≥ 0x600 → leAt (img.map BitVec.toNat) 0x10 4 > Dev.bodyMax → ∃ t, exec (.hstBootData a ws) s = .next t ∧ t.pending = s.pending ∧ s.dev.keeps t.dev [p] ∧
        t.dev.boot.hostImg = [] ∧ t.dev.get p HST.BOOT_OFS_BYTES = 0 ∧ t.dev.get p HDR.ERR_CODE = cRANGE)) := by
  intro p
  have hrun := onDev_out (fun d => d.bootData a.toNat (ws.map BitVec.toNat)) hout
  refine ⟨fun h => ?_, ?_⟩
  · rw [Dev.bootData_order hon ha h] at hrun
    refine ⟨_, hrun, rfl, (Dev.keeps_err_iff (by simp [p])).mpr ((Dev.keeps_put_iff (by simp [p]) (by decide) (by decide) (by decide)).mpr s.dev.hstCount_edit.keeps), ?_,
      Dev.get_err_code ..⟩
    show s.dev.hstCount.boot = s.dev.boot
    rw [s.dev.hstCount_only]
  intro img hreq hofs
  refine ⟨fun hshort => ?_, fun hlong hlen => ?_⟩
  · rw [Dev.bootData_begins hon ha hreq hofs rfl hshort] at hrun
    refine ⟨_, hrun, rfl, Dev.bootTaken_keeps .., rfl, (Dev.get_put_same _ _ _ _ _ _ (by decide)).trans (Nat.mod_eq_of_lt ?_)⟩
    exact Nat.lt_trans hshort (by decide)
  · rw [Dev.bootData_range hon ha hreq hofs rfl hlong hlen] at hrun
    obtain ⟨hk, himg, hzero, hcode⟩ := (s.dev.bootTaken img).bootRestart_err cRANGE (a.toNat % 65536)
    exact ⟨_, hrun, rfl, Dev.keeps_trans (Dev.bootTaken_keeps ..) hk, himg, hzero, hcode⟩

end

/-- Settles O56: each command of the host link by what it does, the words of a transaction one after the other. -/
theorem hostLink : Obligations.HostLink := by
  unfold Obligations.HostLink
  intro s hout _ p
  refine ⟨fun i a n got late ws wr fix hi => host_untaken hout hi, fun hon => ⟨?_, ?_, ?_, ?_⟩, ?_, fun h => ?_, fun h => ?_⟩
  · have hrun := onDev_out (fun d => d.hstStatus) hout
    rw [Dev.hstStatus_eq hon] at hrun
    obtain ⟨herr, hfull, hcnt⟩ := s.dev.hostSeen_shows
    exact ⟨_, hrun, rfl, s.dev.hostSeen_keeps, rfl, herr, hfull, hcnt⟩
  · obtain ⟨hk, herr, hfull, hfree, hrole⟩ := Dev.hstReset_shows hon
    exact ⟨_, onDev_out (fun d => d.hstReset) hout, rfl, hk, herr, hfull, hfree, hrole⟩
  · intro a fix ha hlo off inWin cell
    exact ⟨fun i k ⟨hhi, _, huser, hend, hgood⟩ hi => hostRead_rule hout hon ha ⟨hlo, hhi, huser, hend, hgood⟩ hi,
      fun i ws ⟨hhi, _, huser, hend, hgood⟩ hroom hi => hostWrite_rule hout hon ha ⟨hlo, hhi, huser, hend, hgood⟩ hroom hi⟩
  · intro a ha
    exact ⟨fun i u hi hu => hostReadOne_rule hout hon ha hi hu, fun i n hi => hostLate_rule hout hon ha hi, fun i v u hi hroom hu => hostWriteOne_rule hout hon ha hi hroom hu,
      fun i ws hi hroom => hostFull_rule hout hon ha hi hroom, fun wr fix n ws hroom => hostCut_rule hout hon ha hroom, fun ws => hostBoot_rule hout hon ha ws⟩
  · have hrun := onDev_out (fun d => d.bootIdle) hout
    split
    case isTrue h =>
      rw [Dev.bootIdle_takes h] at hrun
      obtain ⟨hk, himg, hzero, hcode⟩ := s.dev.bootRestart_err cHST_BOOT_IDLE 0
      exact ⟨_, hrun, rfl, hk, himg, hzero, hcode⟩
    case isFalse h =>
      rw [Dev.bootIdle_rests h] at hrun
      exact hrun
  · have hrun := onDev_out (fun d => d.authClose 1) hout
    rw [s.dev.authClose_none 1 h] at hrun
    exact hrun
  · exact ⟨_, onDev_out (fun d => d.authClose 1) hout, rfl, Dev.keeps_mono (s.dev.authClose_touch 1 (by decide)).keeps (by simp [Dev.authPages, p]),
      s.dev.authClose_role 1 (by decide), s.dev.authClose_session h⟩

end Sys2Proof.Machine
end

section
/-! PROOFS. The device safe state leaves the keys and the data of the enclave (R23, R292). -/
namespace Sys2Proof.Machine

open Sys2Proof

namespace Dev

/-- The keys and the data of the enclave. -/
def vault (d : Dev) : List Key × Enc := (d.keys, d.encl)

theorem vault_congr {d e : Dev} (hk : e.keys = d.keys) (he : e.encl = d.encl) : e.vault = d.vault := by
  rw [vault, vault, hk, he]

@[simp] theorem vault_with_ha (d : Dev) (x) : ({ d with ha := x } : Dev).vault = d.vault := vault_congr rfl rfl
@[simp] theorem vault_with_hb (d : Dev) (x) : ({ d with hb := x } : Dev).vault = d.vault := vault_congr rfl rfl
@[simp] theorem vault_with_immCnt (d : Dev) (x) : ({ d with immCnt := x } : Dev).vault = d.vault := vault_congr rfl rfl
@[simp] theorem vault_with_regs (d : Dev) (x) : ({ d with regs := x } : Dev).vault = d.vault := vault_congr rfl rfl
@[simp] theorem vault_with_shadow (d : Dev) (x) : ({ d with shadow := x } : Dev).vault = d.vault := vault_congr rfl rfl
@[simp] theorem vault_with_silt (d : Dev) (x) : ({ d with silt := x } : Dev).vault = d.vault := vault_congr rfl rfl
@[simp] theorem vault_with_stpPins (d : Dev) (x) : ({ d with stpPins := x } : Dev).vault = d.vault := vault_congr rfl rfl

@[simp] theorem vault_ite (c : Prop) [Decidable c] (a b : Dev) : (if c then a else b).vault = if c then a.vault else b.vault := apply_ite vault c a b

@[simp] theorem vault_foldl {α : Type} {f : Dev → α → Dev} (hf : ∀ d x, (f d x).vault = d.vault) (l : List α) (d : Dev) :
    (l.foldl f d).vault = d.vault := by
  induction l generalizing d with
  | nil => rfl
  | cons x xs ih => exact (ih _).trans (hf d x)

@[simp] theorem vault_foldl_fst {α β : Type} {f : Dev × β → α → Dev × β} (hf : ∀ q x, (f q x).1.vault = q.1.vault) (l : List α) (q : Dev × β) :
    (l.foldl f q).1.vault = q.1.vault := by
  induction l generalizing q with
  | nil => rfl
  | cons x xs ih => exact (ih _).trans (hf q x)

@[simp] theorem vault_put (d : Dev) (p f v i t) : (d.put p f v i t).vault = d.vault := vault_congr rfl rfl

@[simp] theorem vault_bump (d : Dev) (p f i t) : (d.bump p f i t).vault = d.vault := vault_congr rfl rfl

@[simp] theorem vault_putb (d : Dev) (p f b i t) : (d.putb p f b i t).vault = d.vault := vault_congr rfl rfl

@[simp] theorem vault_puti (d : Dev) (p f x i t) : (d.puti p f x i t).vault = d.vault := vault_congr rfl rfl

@[simp] theorem vault_aoDrive (d : Dev) (c) : (d.aoDrive c).vault = d.vault := vault_congr rfl rfl

@[simp] theorem vault_fioDrive (d : Dev) : d.fioDrive.vault = d.vault := by simp [fioDrive]

@[simp] theorem vault_orBits (d : Dev) (p f m i t) : (d.orBits p f m i t).vault = d.vault := vault_congr rfl rfl

@[simp] theorem vault_stat (d : Dev) (p k) : (d.stat p k).vault = d.vault := vault_congr rfl rfl

@[simp] theorem vault_stpShow (d : Dev) : d.stpShow.vault = d.vault := vault_congr rfl rfl

@[simp] theorem vault_stpSafe (d : Dev) : d.stpSafe.vault = d.vault := vault_congr rfl rfl

@[simp] theorem vault_trimEnd (d : Dev) : d.trimEnd.vault = d.vault := by simp [trimEnd]

@[simp] theorem vault_markEvent (d : Dev) (p half seq) : (d.markEvent p half seq).vault = d.vault := by
  unfold markEvent
  split <;> simp

@[simp] theorem vault_err (d : Dev) (p code detail) : (d.err p code detail).vault = d.vault := vault_congr rfl rfl

@[simp] theorem vault_post (d : Dev) (r) : (d.post r).vault = d.vault := vault_congr (by rw [post_keys]) (by rw [post_encl])

@[simp] theorem vault_noteConfig (d : Dev) (e code reason old new seq bnd) : (d.noteConfig e code reason old new seq bnd).vault = d.vault := by simp [noteConfig]

@[simp] theorem vault_applyPage (d : Dev) (p half rules bnd seq) : (d.applyPage p half rules bnd seq).vault = d.vault := by
  unfold applyPage
  dsimp only
  refine iteInduction (motive := fun e : Dev => e.vault = d.vault) (fun _ => by simp) fun _ =>
    iteInduction (motive := fun e : Dev => e.vault = d.vault) (fun _ => by simp) fun _ => ?_
  generalize List.foldl _ none _ = rejected
  cases rejected <;> simp

@[simp] theorem vault_nextImm (d : Dev) (p) : (d.nextImm p).2.vault = d.vault := vault_congr rfl rfl

@[simp] theorem vault_applyTrm (d : Dev) (half) : (d.applyTrm half).vault = d.vault := by simp [applyTrm]

@[simp] theorem vault_trimRelease (d : Dev) : d.trimRelease.vault = d.vault := by simp [trimRelease]

@[simp] theorem vault_modSp (d : Dev) (n f) : (d.modSp n f).vault = d.vault := vault_congr rfl rfl

@[simp] theorem vault_putBit (d : Dev) (p f k b i t) : (d.putBit p f k b i t).vault = d.vault := vault_congr rfl rfl

@[simp] theorem vault_outUpdate (d : Dev) : d.outUpdate.vault = d.vault := by simp [outUpdate]

@[simp] theorem vault_carOff (d : Dev) (n) : (d.carOff n).vault = d.vault := by simp [carOff]

@[simp] theorem vault_modTh (d : Dev) (n f) : (d.modTh n f).vault = d.vault := vault_congr rfl rfl

@[simp] theorem vault_endRescue (d : Dev) (n) : (d.endRescue n).vault = d.vault := vault_congr rfl rfl

@[simp] theorem vault_note (d : Dev) (p cls code detail words) : (d.note p cls code detail words).vault = d.vault := by simp [note]

@[simp] theorem vault_safNote (d : Dev) (p code detail words) : (d.safNote p code detail words).vault = d.vault := by simp [safNote]

@[simp] theorem vault_both (d : Dev) (f : Dev → HalfId → Dev) (hf : ∀ d h, (f d h).vault = d.vault) : (d.both f).vault = d.vault := by rw [both, hf, hf]

@[simp] theorem vault_modHalf (d : Dev) (h f) : (d.modHalf h f).vault = d.vault := vault_congr (by rw [modHalf_keys]) (by rw [modHalf_encl])

@[simp] theorem vault_modMpg (d : Dev) (h n f) : (d.modMpg h n f).vault = d.vault := by simp [modMpg]

@[simp] theorem vault_stopLine (d : Dev) (n cat) : (d.stopLine n cat).vault = d.vault := by simp [stopLine]

@[simp] theorem vault_put64 (d : Dev) (p lo hi v i t) : (d.put64 p lo hi v i t).vault = d.vault := vault_congr rfl rfl

@[simp] theorem vault_thTrip (d : Dev) (n cause words) : (d.thTrip n cause words).vault = d.vault := by simp [thTrip]

@[simp] theorem vault_spStop (d : Dev) (n cause cat words) : (d.spStop n cause cat words).vault = d.vault := by simp [spStop]

@[simp] theorem vault_deviceStop (d : Dev) : d.deviceStop.vault = d.vault := by simp [deviceStop]

@[simp] theorem vault_fioSafe (d : Dev) (c) : (d.fioSafe c).vault = d.vault := by
  unfold fioSafe
  extract_lets was sel outputs d1 d2 d3
  have h1 : d1.vault = d.vault := rfl
  have h2 : d2.vault = d1.vault := by simp [d2]
  have h3 : d3.vault = d2.vault := by simp [d3]
  rw [vault_ite, vault_trimRelease, vault_fioDrive, ite_self, h3, h2, h1]

theorem keys_of_vault {d e : Dev} (h : e.vault = d.vault) : e.keys = d.keys := congrArg Prod.fst h

theorem encl_of_vault {d e : Dev} (h : e.vault = d.vault) : e.encl = d.encl := congrArg Prod.snd h

theorem vault_deviceSafe (d : Dev) : d.deviceSafe.vault = d.vault := by
  rw [deviceSafe, vault_deviceStop, vault_fioSafe]
  rfl

end Dev
end Sys2Proof.Machine
end

section
/-! PROOFS. What tamper and a change of lifecycle end: authorisations, nonces and keys (R498, R502, R504, R517). -/
namespace Sys2Proof.Machine

open Sys2Proof

namespace Dev

section
variable (d : Dev)

/-! ### The keys shown -/

/-- The registers that show the key store and the slots. -/
def keyWs : List (Nat × Fld) := [(shp .enc, ENC.KEYS_USED), (shp .enc, ENC.KEYS_CUSTODIAN), (shp .enc, ENC.SLOTA_VER_V), (shp .enc, ENC.SLOTB_VER_V), (shp .enc, HDR.STAT_BLOCK)]

theorem showSlots_touch : Touch [shp .enc] keyWs d d.showSlots :=
  ((Touch.refl ..).put (by simp) (by simp [keyWs]) (by decide) (by decide) (by decide) _).put (by simp) (by simp [keyWs]) (by decide) (by decide) (by decide) _

theorem showSlots_only : OnlyRegs d d.showSlots := ((OnlyRegs.refl d).put ..).put ..

theorem showKeys_touch : Touch [shp .enc] keyWs d d.showKeys :=
  (((Touch.refl ..).put (by simp) (by simp [keyWs]) (by decide) (by decide) (by decide) _).put (by simp) (by simp [keyWs]) (by decide) (by decide) (by decide) _).trans
    (showSlots_touch _)

theorem showKeys_only : OnlyRegs d d.showKeys := (((OnlyRegs.refl d).put ..).put ..).trans (showSlots_only _)

/-- The part with another key store, which it shows. -/
def withKeys (ks : List Key) : Dev := ({ d with keys := ks }.showKeys).stat (shp .enc) 3

theorem withKeys_touch (ks : List Key) : Touch [shp .enc] keyWs d (d.withKeys ks) :=
  (((Touch.refl [shp .enc] keyWs d).same (x := { d with keys := ks }) rfl rfl).trans (showKeys_touch _)).stat (by simp) (by simp [keyWs]) _

theorem withKeys_only (ks : List Key) : OnlyRegs { d with keys := ks } (d.withKeys ks) := (showKeys_only _).put ..

theorem zeroise_eq : d.zeroise = (d.modEnc (fun e => { e with devKey := false })).withKeys [] := rfl

theorem zeroise_touch : Touch [shp .enc] keyWs d d.zeroise := by
  rw [zeroise_eq]
  exact ((Touch.refl ..).modEnc _).trans (withKeys_touch _ _)

theorem zeroise_data : d.zeroise.keys = [] ∧ d.zeroise.encl = { d.encl with devKey := false } ∧ d.zeroise.silt = d.silt ∧ d.zeroise.boot = d.boot := by
  rw [zeroise_eq, withKeys_only]
  exact ⟨rfl, rfl, rfl, rfl⟩

/-! ### Every authorisation ends -/

theorem authCloseAll_eq : d.authCloseAll = ((d.authClose 0).authClose 1).authClose 2 := rfl

theorem authCloseAll_touch : Touch authPages authWs d d.authCloseAll :=
  Touch.foldl _ _ fun d g hg => d.authClose_touch g (Nat.lt_trans (List.mem_range.mp hg) (by decide))

theorem authCloseAll_sec : SecOnly d d.authCloseAll := SecOnly.foldl _ _ fun d g _ => d.authClose_sec g

theorem authCloseAll_encl : ∃ k, d.authCloseAll.encl = { d.encl with authKey := k } := by
  obtain ⟨k0, h0, -⟩ := d.authClose_encl 0
  obtain ⟨k1, h1, -⟩ := (d.authClose 0).authClose_encl 1
  obtain ⟨k2, h2, -⟩ := ((d.authClose 0).authClose 1).authClose_encl 2
  rw [authCloseAll_eq, h2, h1, h0]
  exact ⟨k2, rfl⟩

theorem authCloseAll_role (g : Fin 3) : d.authCloseAll.get (shp .enc) ENC.AUTH_ROLE 0 g = 0 := by
  rw [authCloseAll_eq]
  match g with
  | 0 =>
    refine (authClose_other _ 2 (by decide) (by decide) (by decide)).trans ((authClose_other _ 1 (by decide) (by decide) (by decide)).trans ?_)
    exact d.authClose_role 0 (by decide)
  | 1 => exact (authClose_other _ 2 (by decide) (by decide) (by decide)).trans (authClose_role _ 1 (by decide))
  | 2 => exact authClose_role _ 2 (by decide)

/-! ### Every nonce lapses -/

/-- The part without the nonces of its groups. -/
def noncesEnded : Dev := (List.range 3).foldl (fun d g => d.setNonce g none) d

theorem noncesEnded_eq : d.noncesEnded = ((d.setNonce 0 none).setNonce 1 none).setNonce 2 none := by
  rw [noncesEnded, show List.range 3 = [0, 1, 2] from rfl, List.foldl_cons, List.foldl_cons, List.foldl_cons, List.foldl_nil]

theorem noncesEnded_touch : Touch [shp .enc] nonceWs d d.noncesEnded :=
  Touch.foldl _ _ fun d g hg => d.setNonce_touch g (Nat.lt_trans (List.mem_range.mp hg) (by decide)) none

theorem noncesEnded_sec : SecOnly d d.noncesEnded := SecOnly.foldl _ _ fun d g _ => d.setNonce_sec g none

theorem noncesEnded_encl : d.noncesEnded.encl = { d.encl with nonce := lset (lset (lset d.encl.nonce 0 none) 1 none) 2 none } := by
  rw [noncesEnded_eq, setNonce_encl, setNonce_encl, setNonce_encl]

theorem noncesEnded_none (g : Fin 3) : d.noncesEnded.encl.nonce.getD g none = none := by
  rw [noncesEnded_encl]
  match g with
  | 0 => rw [getD_lset_ne _ _ (by decide), getD_lset_ne _ _ (by decide)]; exact getD_lset_self ..
  | 1 => rw [getD_lset_ne _ _ (by decide)]; exact getD_lset_self ..
  | 2 => exact getD_lset_self ..

/-! ### The nonce of Silt lapses -/

/-- The registers of the nonce of Silt. -/
def sltNonceWs : List (Nat × Fld) := [(shp .slt, SLT.NONCE)]

theorem sltNonceEnd_touch : Touch [shp .slt] sltNonceWs d d.sltNonceEnd :=
  ((Touch.refl _ _ d).same (x := d.modSilt (fun s => { s with nonce := none })) rfl rfl).trans
    (Touch.foldl _ _ fun d i hi => (Touch.refl ..).put (by simp) (by simp [sltNonceWs]) (by decide) (List.mem_range.mp hi) (by decide) _)

theorem sltNonceEnd_only : OnlyRegs (d.modSilt (fun s => { s with nonce := none })) d.sltNonceEnd := OnlyRegs.foldl _ _ fun _ _ _ => (OnlyRegs.refl _).put ..

theorem sltNonceEnd_data : d.sltNonceEnd.silt.nonce = none ∧ d.sltNonceEnd.encl = d.encl ∧ d.sltNonceEnd.keys = d.keys ∧ d.sltNonceEnd.boot = d.boot := by
  rw [sltNonceEnd_only]
  exact ⟨rfl, rfl, rfl, rfl⟩

theorem sltNonceEnd_sec : SecOnly d d.sltNonceEnd := (show SecOnly d (d.modSilt _) from rfl).regs d.sltNonceEnd_only

/-! ### Tamper (R517) -/

theorem deviceSafe_of_alarm {e : Dev} {b : Bool} {n : Nat} (h : e.alarm = (b, n)) : e.saf.deviceSafe = b := congrArg Prod.fst h

/-- The device safe state stands after its cause. -/
theorem deviceSafe_stands : d.deviceSafe.saf.deviceSafe = true := deviceSafe_of_alarm d.alarm_deviceSafe

/-- The flags of a tamper event. -/
def flagged (sensor : Nat) : Dev := (d.putBit (shp .enc) ENC.TAMPER_FLAGS sensor true).putBit (shp .enc) ENC.TAMPER_FLAGS 4 true

/-- What a tamper event ends. -/
def tampered (sensor : Nat) : Dev := ((((d.flagged sensor).zeroise.authCloseAll).noncesEnded).sltNonceEnd).stat (shp .enc) 4

theorem tamper_eq (sensor : Nat) : d.tamper sensor = if (d.tampered sensor).boot.released then (d.tampered sensor).deviceSafe else d.tampered sensor := rfl

/-- The registers that a tamper event moves behind its flags. -/
def tamperWs : List (Nat × Fld) := keyWs ++ authWs ++ nonceWs ++ sltNonceWs

theorem tampered_touch (sensor : Nat) : Touch authPages tamperWs (d.flagged sensor) (d.tampered sensor) :=
  ((((((zeroise_touch _).mono (by simp [authPages]) (by simp +contextual [tamperWs])).trans ((authCloseAll_touch _).mono (fun _ h => h) (by simp +contextual [tamperWs]))).trans
    ((noncesEnded_touch _).mono (by simp [authPages]) (by simp +contextual [tamperWs]))).trans
    ((sltNonceEnd_touch _).mono (by simp [authPages]) (by simp +contextual [tamperWs])))).stat (by simp [authPages]) (by simp [tamperWs, keyWs]) 4

theorem flagged_keeps (sensor : Nat) : d.keeps (d.flagged sensor) [shp .enc] :=
  (keeps_put_iff (by simp) (by decide) (by decide) (by decide)).mpr ((keeps_put_iff (by simp) (by decide) (by decide) (by decide)).mpr (keeps_refl d _))

theorem flagged_bits (sensor : Fin 4) : bitN ((d.flagged sensor).get (shp .enc) ENC.TAMPER_FLAGS) sensor = 1 ∧ bitN ((d.flagged sensor).get (shp .enc) ENC.TAMPER_FLAGS) 4 = 1 := by
  have hs := sensor.isLt
  constructor
  · rw [flagged, bit_putBit_other _ _ _ _ _ _ (by decide) (by show sensor.val < 5; omega) (by omega), bit_putBit_same _ _ _ _ _ _ (by decide) (by show sensor.val < 5; omega)]
    rfl
  · rw [flagged, bit_putBit_same _ _ _ _ _ _ (by decide) (by decide)]
    rfl

theorem tampered_data (sensor : Nat) : (d.tampered sensor).keys = [] ∧ (d.tampered sensor).encl.devKey = false ∧ (∀ g : Fin 3, (d.tampered sensor).encl.nonce.getD g none = none) ∧
    (d.tampered sensor).silt.nonce = none ∧ (d.tampered sensor).boot = d.boot := by
  obtain ⟨x, hx⟩ : ∃ x, x = (d.flagged sensor).zeroise := ⟨_, rfl⟩
  obtain ⟨hkeys, hencl, -, hboot⟩ := (d.flagged sensor).zeroise_data
  rw [← hx] at hkeys hencl hboot
  obtain ⟨k, hk⟩ := x.authCloseAll_encl
  obtain ⟨y, hy⟩ : ∃ y, y = x.authCloseAll.noncesEnded := ⟨_, rfl⟩
  have hall := x.authCloseAll_sec.trans x.authCloseAll.noncesEnded_sec
  have hnonce := x.authCloseAll.noncesEnded_none
  have hdev := congrArg Enc.devKey x.authCloseAll.noncesEnded_encl
  rw [← hy] at hall hnonce hdev
  obtain ⟨z, hz⟩ : ∃ z, z = y.sltNonceEnd := ⟨_, rfl⟩
  obtain ⟨n1, n2, n3, n4⟩ := y.sltNonceEnd_data
  rw [← hz] at n1 n2 n3 n4
  rw [tampered, ← hx, ← hy, ← hz]
  refine ⟨n3.trans (hall.keys.trans hkeys), (congrArg Enc.devKey n2).trans (hdev.trans ?_), fun g => (congrArg (fun v : Enc => v.nonce.getD g none) n2).trans (hnonce g), n1,
    n4.trans (hall.boot.trans hboot)⟩
  rw [hk, hencl]

theorem tampered_role (sensor : Nat) (g : Fin 3) : (d.tampered sensor).get (shp .enc) ENC.AUTH_ROLE 0 g = 0 := by
  have hg : g.val < 65536 := Nat.lt_trans g.isLt (by decide)
  rw [tampered, stat, orBits, get_put_field _ _ (by decide) (by decide) (by decide) (by decide) (by decide) (by decide) hg,
    (sltNonceEnd_touch _).get _ _ _ _ (by decide) (by decide) (by decide) (by decide) hg, (noncesEnded_touch _).get _ _ _ _ (by decide) (by decide) (by decide) (by decide) hg,
    authCloseAll_role]

end

end Dev

/-- The clause of O55 about tamper detection. -/
theorem tamper_rule (s : State) (sensor : Fin 4) : let e := shp .enc
    ∃ t, exec (.tamper sensor) s = .next t ∧ t.pending = s.pending ∧ t.dev.keys = [] ∧ t.dev.encl.devKey = false ∧
      (s.out = true → t.dev.saf.deviceSafe = true) ∧
      (s.out = false → bitN (t.dev.get e ENC.TAMPER_FLAGS) sensor = 1 ∧ bitN (t.dev.get e ENC.TAMPER_FLAGS) 4 = 1 ∧
        (∀ g : Fin 3, t.dev.encl.nonce.getD g none = none ∧ t.dev.get e ENC.AUTH_ROLE 0 g = 0) ∧ t.dev.silt.nonce = none ∧ s.dev.keeps t.dev [e, shp .hst, shp .slt]) := by
  intro e
  have hrun : exec (.tamper sensor) s = .next { s with dev := s.dev.tamper sensor } := rfl
  obtain ⟨hkeys, hdev, hnonce, hslt, hboot⟩ := s.dev.tampered_data sensor
  have htouch := s.dev.tampered_touch sensor
  have hrole := s.dev.tampered_role sensor
  rw [s.dev.tamper_eq] at hrun
  generalize s.dev.tampered sensor = x at hrun hkeys hdev hnonce hslt hboot htouch hrole
  cases hout : s.out with
  | true =>
    rw [if_pos (by rw [hboot]; exact hout)] at hrun
    have hk := Dev.keys_of_vault x.vault_deviceSafe
    have he := Dev.encl_of_vault x.vault_deviceSafe
    have ha : x.deviceSafe.saf.deviceSafe = true := x.deviceSafe_stands
    generalize x.deviceSafe = y at hrun hk he ha
    exact ⟨_, hrun, rfl, hk.trans hkeys, (congrArg Enc.devKey he).trans hdev, fun _ => ha, nofun⟩
  | false =>
    rw [if_neg (by rw [hboot]; exact Bool.eq_false_iff.mp hout)] at hrun
    obtain ⟨hbit, hbit4⟩ := s.dev.flagged_bits sensor
    have hflags := htouch.get (shp .enc) ENC.TAMPER_FLAGS 0 0 (by decide) (by decide) (by decide) (by decide) (by decide)
    refine ⟨_, hrun, rfl, hkeys, hdev, nofun, fun _ => ⟨?_, ?_, fun g => ⟨hnonce g, hrole g⟩, hslt, ?_⟩⟩
    · exact (congrArg (fun v => bitN v sensor) hflags).trans hbit
    · exact (congrArg (fun v => bitN v 4) hflags).trans hbit4
    · exact Dev.keeps_trans (Dev.keeps_mono (s.dev.flagged_keeps sensor) (by simp [e])) htouch.keeps

end Sys2Proof.Machine
end

section
/-! PROOFS. Commands of the enclave by requester group (R496, R502, R504, R512). -/
namespace Sys2Proof.Machine

open Sys2Proof

theorem Who.encGrp_lt_three (w : Who) : w.encGrp < 3 := by
  unfold Who.encGrp
  split
  · decide
  · split <;> decide

namespace Dev

section
variable (d : Dev)

/-! ### One operation at a time (R496) -/

/-- A command that finds another one running. -/
def busyShown (g : Nat) (j : EncJob) : Dev :=
  let x := (d.put (shp .enc) ENC.CMD_ST_REASON cBUSY 0 g).err (shp .enc) cBUSY g
  if jobGrp j = g then x else (x.put (shp .enc) ENC.CMD_ST_STATE 3 0 g).stat (shp .enc) 0

variable {d}

theorem encOne_busy {j : EncJob} (hj : d.encl.job = some j) (w : Who) (f : Dev → Dev) : d.encOne w f = d.busyShown w.encGrp j := by
  unfold encOne
  rw [hj]
  rfl

theorem encOne_free (hj : d.encl.job = none) (w : Who) (f : Dev → Dev) : d.encOne w f = f d := by
  unfold encOne
  rw [hj]

variable (d)

theorem busyShown_only (g : Nat) (j : EncJob) : OnlyRegs d (d.busyShown g j) := by
  unfold busyShown
  extract_lets x
  split <;> rfl

theorem busyShown_shows {g : Nat} (hg : g < 65536) (j : EncJob) : d.keeps (d.busyShown g j) [shp .enc] ∧ (d.busyShown g j).get (shp .enc) ENC.CMD_ST_REASON 0 g = cBUSY ∧
    (d.busyShown g j).get (shp .enc) HDR.ERR_CODE = cBUSY ∧
    (d.busyShown g j).get (shp .enc) ENC.CMD_ST_STATE 0 g = if jobGrp j = g then d.get (shp .enc) ENC.CMD_ST_STATE 0 g else 3 := by
  obtain ⟨x, hx⟩ : ∃ x, x = (d.put (shp .enc) ENC.CMD_ST_REASON cBUSY 0 g).err (shp .enc) cBUSY g := ⟨_, rfl⟩
  have hk : d.keeps x [shp .enc] := by
    rw [hx]
    exact (keeps_err_iff (by simp)).mpr ((keeps_put_iff (by simp) (by decide) (by decide) hg).mpr (keeps_refl d _))
  have hreason : x.get (shp .enc) ENC.CMD_ST_REASON 0 g = cBUSY := by
    rw [hx, get_err_apart _ _ _ (by decide) (by decide) (by decide) hg, get_put_same _ _ _ _ _ _ (by decide)]
    rfl
  have hcode : x.get (shp .enc) HDR.ERR_CODE = cBUSY := by rw [hx, get_err_code]; rfl
  have hstate : x.get (shp .enc) ENC.CMD_ST_STATE 0 g = d.get (shp .enc) ENC.CMD_ST_STATE 0 g := by
    rw [hx, get_err_apart _ _ _ (by decide) (by decide) (by decide) hg, get_put_field _ _ (by decide) (by decide) (by decide) (by decide) (by decide) hg hg]
  rw [busyShown, ← hx]
  split
  case isTrue h => exact ⟨hk, hreason, hcode, hstate⟩
  case isFalse h =>
    refine ⟨(keeps_stat_iff (by simp)).mpr ((keeps_put_iff (by simp) (by decide) (by decide) hg).mpr hk), ?_, ?_, ?_⟩
    · rw [stat, orBits, get_put_field _ _ (by decide) (by decide) (by decide) (by decide) (by decide) (by decide) hg,
        get_put_field _ _ (by decide) (by decide) (by decide) (by decide) (by decide) hg hg, hreason]
    · rw [stat, orBits, get_put_field _ _ (by decide) (by decide) (by decide) (by decide) (by decide) (by decide) (by decide),
        get_put_field _ _ (by decide) (by decide) (by decide) (by decide) (by decide) hg (by decide), hcode]
    · rw [stat, orBits, get_put_field _ _ (by decide) (by decide) (by decide) (by decide) (by decide) (by decide) hg, get_put_same _ _ _ _ _ _ (by decide)]
      rfl

/-! ### A fresh nonce (R502) -/

theorem fresh128_eq : ∃ c, d.fresh128.2 = { d with freeCtr := c } := by
  have hfold : ∀ (l : List Nat) (x : Nat × Dev) (c : Nat), x.2 = { d with freeCtr := c } →
      ∃ c', (l.foldl (fun (x : Nat × Dev) i => let f := x.2.fresh; (x.1 + f.1.toNat * 2 ^ (32 * i), f.2)) x).2 = { d with freeCtr := c' } := by
    intro l
    induction l with
    | nil => exact fun x c hx => ⟨c, hx⟩
    | cons i l ih =>
      intro x c hx
      rw [List.foldl_cons]
      refine ih _ (c + 1) ?_
      show x.2.fresh.2 = _
      rw [hx]
      rfl
  exact hfold _ ((0, d) : Nat × Dev) d.freeCtr rfl

/-- NONCE once the enclave is free. -/
def nonceDo (w : Who) : Dev :=
  let x := d.setNonce w.encGrp none
  if x.encl.withheld.getD w.encGrp false then x.encEnd w.encGrp (some cENC_RATE)
  else (x.fresh128.2.setNonce w.encGrp (some x.fresh128.1)).encEnd w.encGrp none

theorem encNonce_eq (w : Who) : d.encNonce w = d.encOne w (fun d => d.nonceDo w) := rfl

/-- The registers of a nonce and of a command's end. -/
def mailWs : List (Nat × Fld) := nonceWs ++ endWs

theorem nonceDo_shows (w : Who) (hlen : d.encl.nonce.length = 3) : let e := d.nonceDo w
    d.keeps e [shp .enc] ∧
      (if d.encl.withheld.getD w.encGrp false = true then e.encl.nonce.getD w.encGrp none = none ∧ e.get (shp .enc) ENC.CMD_ST_STATE 0 w.encGrp = 3 ∧
          e.get (shp .enc) ENC.CMD_ST_REASON 0 w.encGrp = cENC_RATE
       else e.get (shp .enc) ENC.CMD_ST_STATE 0 w.encGrp = 2 ∧ ∃ x : BitVec 128, e.encl.nonce.getD w.encGrp none = some x ∧
          ∀ k : Fin 4, e.get (shp .enc) ENC.NONCE k w.encGrp = x.toNat / 2 ^ (32 * k.val) % 2 ^ 32) := by
  intro e
  have hg := encGrp_lt w
  have h3 := w.encGrp_lt_three
  obtain ⟨x, hx⟩ : ∃ x, x = d.setNonce w.encGrp none := ⟨_, rfl⟩
  have hxe := d.setNonce_encl w.encGrp none
  have hxt := d.setNonce_touch w.encGrp hg none
  rw [← hx] at hxe hxt
  have hwith : x.encl.withheld = d.encl.withheld := by rw [hxe]
  have he : e = if x.encl.withheld.getD w.encGrp false then x.encEnd w.encGrp (some cENC_RATE)
      else (x.fresh128.2.setNonce w.encGrp (some x.fresh128.1)).encEnd w.encGrp none := by rw [hx]; rfl
  rw [he, hwith]
  split
  case isTrue hw =>
    obtain ⟨hs, hr⟩ := x.encEnd_refused w.encGrp hg cENC_RATE
    refine ⟨keeps_trans hxt.keeps (x.encEnd_touch _ hg _).keeps, ?_, hs, hr⟩
    rw [x.encEnd_only, hxe]
    exact getD_lset_self ..
  case isFalse hw =>
    obtain ⟨c, hc⟩ := x.fresh128_eq
    obtain ⟨y, hy⟩ : ∃ y, y = x.fresh128.2.setNonce w.encGrp (some x.fresh128.1) := ⟨_, rfl⟩
    have hye := x.fresh128.2.setNonce_encl w.encGrp (some x.fresh128.1)
    have hyt := x.fresh128.2.setNonce_touch w.encGrp hg (some x.fresh128.1)
    have hyw := fun k : Fin 4 => x.fresh128.2.setNonce_word w.encGrp hg (some x.fresh128.1) k.isLt
    rw [← hy] at hye hyt hyw
    rw [← hy]
    have hxc : x.keeps x.fresh128.2 [shp .enc] := by
      rw [hc]
      exact keeps_of_eq rfl rfl _
    refine ⟨keeps_trans hxt.keeps (keeps_trans hxc (keeps_trans hyt.keeps (y.encEnd_touch _ hg _).keeps)), y.encEnd_done _ hg, x.fresh128.1, ?_, fun k => ?_⟩
    · rw [y.encEnd_only, hye, hc, hxe]
      exact getD_lset_same _ _ (by rw [length_lset, hlen]; exact h3)
    · rw [(y.encEnd_touch w.encGrp hg none).get _ _ _ _ (by decide) (by decide) (by decide) k.isLt hg]
      exact hyw k

/-! ### The end of an authorisation by its group -/

theorem encClose_eq (w : Who) : d.encClose w = d.encOne w (fun d => (d.authClose w.encGrp).encEnd w.encGrp none) := rfl

theorem closed_shows (g : Nat) (hg : g < 65536) : let e := (d.authClose g).encEnd g none
    d.keeps e authPages ∧ e.get (shp .enc) ENC.AUTH_ROLE 0 g = 0 ∧ e.get (shp .enc) ENC.CMD_ST_STATE 0 g = 2 := by
  intro e
  have hend := (d.authClose g).encEnd_touch g hg none
  refine ⟨keeps_trans (d.authClose_touch g hg).keeps (keeps_mono hend.keeps (by simp [authPages])), ?_, (d.authClose g).encEnd_done g hg⟩
  rw [hend.get _ _ _ _ (by decide) (by decide) (by decide) (by decide) hg, d.authClose_role g hg]

/-! ### The report port (R512) -/

/-- The registers of the report port. -/
def reportWs : List (Nat × Fld) := [(shp .enc, ENC.REP_DATA_WORD)]

theorem putReport_touch {g : Nat} {ws : List Nat} (h : g * 1024 + ws.length < 65536) : Touch [shp .enc] reportWs d (d.putReport g ws) :=
  Touch.foldl _ _ fun d x hx => (Touch.refl ..).put (by simp) (by simp [reportWs]) (by decide) (by decide) (by have := List.snd_lt_of_mem_zipIdx hx; omega) _

theorem putReport_only (g : Nat) (ws : List Nat) : OnlyRegs d (d.putReport g ws) := OnlyRegs.foldl _ _ fun _ _ _ => (OnlyRegs.refl _).put ..

/-- The words of a report stand at their places in the port. -/
theorem putReport_word (g : Nat) (ws : List Nat) {k : Nat} (hk : k < ws.length) :
    (d.putReport g ws).get (shp .enc) ENC.REP_DATA_WORD 0 (g * 1024 + k) = ws.getD k 0 % 2 ^ 32 := by
  have hgo : ∀ (ws : List Nat) (n : Nat) (d : Dev), let e := (ws.zipIdx n).foldl (fun d x => d.put (shp .enc) ENC.REP_DATA_WORD x.1 0 (g * 1024 + x.2)) d
      (∀ j < n, e.get (shp .enc) ENC.REP_DATA_WORD 0 (g * 1024 + j) = d.get (shp .enc) ENC.REP_DATA_WORD 0 (g * 1024 + j)) ∧
        ∀ j < ws.length, e.get (shp .enc) ENC.REP_DATA_WORD 0 (g * 1024 + (n + j)) = ws.getD j 0 % 2 ^ 32 := by
    intro ws
    induction ws with
    | nil => exact fun n d => ⟨fun _ _ => rfl, fun j hj => absurd hj (Nat.not_lt_zero _)⟩
    | cons v ws ih =>
      intro n d
      obtain ⟨h1, h2⟩ := ih (n + 1) (d.put (shp .enc) ENC.REP_DATA_WORD v 0 (g * 1024 + n))
      refine ⟨fun j hj => (h1 j (by omega)).trans (get_put_tab _ _ (by omega)), fun j hj => ?_⟩
      cases j with
      | zero => exact (h1 n (by omega)).trans (get_put_same _ _ _ _ _ _ (by decide))
      | succ j =>
        have := h2 j (by simpa using hj)
        rwa [show n + 1 + j = n + (j + 1) by omega] at this
  have := (hgo ws 0 d).2 k hk
  rwa [Nat.zero_add] at this

/-- An operation that begins. -/
theorem encBusy_shows {g : Nat} (hg : g < 65536) (j : EncJob) : d.keeps (d.encBusy g j) [shp .enc] ∧ (d.encBusy g j).get (shp .enc) ENC.CMD_ST_STATE 0 g = 1 ∧
    (d.encBusy g j).encl = { d.encl with job := some j } := by
  refine ⟨(keeps_put_iff (by simp) (by decide) (by decide) hg).mpr ((keeps_put_iff (by simp) (by decide) (by decide) hg).mpr (keeps_of_eq rfl rfl _)), ?_, rfl⟩
  rw [encBusy, get_put_field _ _ (by decide) (by decide) (by decide) (by decide) (by decide) hg hg, get_put_same _ _ _ _ _ _ (by decide)]
  rfl

theorem encAttest_eq (w : Who) : d.encAttest w = d.encOne w (fun d => d.encBusy w.encGrp (.attest w.encGrp (d.attReport w.encGrp))) := rfl

/-- The words of a certificate. -/
def certWords : List Nat := [d.get (shp .enc) ENC.DEV_ID_LO, d.get (shp .enc) ENC.DEV_ID_HI] ++ (List.range 770).map (fun i => (Config.certWord (i + 2)).toNat)

theorem length_certWords : d.certWords.length = 772 := by
  rw [certWords, List.length_append, List.length_map, List.length_range]
  rfl

theorem encCert_eq (w : Who) : d.encCert w = d.encOne w (fun d => (d.putReport w.encGrp d.certWords).encEnd w.encGrp none) := rfl

theorem cert_shows (w : Who) (hid : d.get (shp .enc) ENC.DEV_ID_LO < 2 ^ 32) : let e := (d.putReport w.encGrp d.certWords).encEnd w.encGrp none
    d.keeps e [shp .enc] ∧ e.get (shp .enc) ENC.CMD_ST_STATE 0 w.encGrp = 2 ∧ e.get (shp .enc) ENC.REP_DATA_WORD 0 (w.encGrp * 1024) = d.get (shp .enc) ENC.DEV_ID_LO := by
  intro e
  have hg := encGrp_lt w
  have h3 := w.encGrp_lt_three
  have hlen := d.length_certWords
  have hrep := d.putReport_touch (g := w.encGrp) (ws := d.certWords) (by omega)
  obtain ⟨x, hx⟩ : ∃ x, x = d.putReport w.encGrp d.certWords := ⟨_, rfl⟩
  have hword := d.putReport_word w.encGrp d.certWords (k := 0) (by omega)
  have he : e = x.encEnd w.encGrp none := by rw [hx]
  rw [← hx, Nat.add_zero] at hword
  rw [← hx] at hrep
  rw [he]
  refine ⟨keeps_trans hrep.keeps (x.encEnd_touch _ hg _).keeps, x.encEnd_done _ hg, ?_⟩
  rw [(x.encEnd_touch w.encGrp hg none).get _ _ _ _ (by decide) (by decide) (by decide) (by decide) (by omega), hword]
  exact Nat.mod_eq_of_lt hid

/-- The words of a signed report. -/
def signedWords (r : List Nat) : List Nat :=
  (List.range 64).map (fun i => leAt r (4 * i) 4) ++ (List.range 320).map (fun i =>
    if d.encl.devKey then (Config.falconSign (digestBytes (r.map (BitVec.ofNat 8))) i).toNat else (Config.freeWord (d.freeCtr + i)).toNat)

/-- The part whose report is signed. -/
def signed : Dev := { d with freeCtr := if d.encl.devKey then d.freeCtr else d.freeCtr + 320 }.modEnc (fun e => { e with job := none })

theorem attestDone_eq {g : Nat} {r : List Nat} (hj : d.encl.job = some (.attest g r)) : d.attestDone = (d.signed.putReport g (d.signedWords r)).encEnd g none := by
  unfold attestDone
  rw [hj]
  rfl

theorem attestDone_shows {g : Fin 3} {r : List Nat} (hj : d.encl.job = some (.attest g r)) : let e := d.attestDone
    d.keeps e [shp .enc] ∧ e.encl.job = none ∧ e.get (shp .enc) ENC.CMD_ST_STATE 0 g = 2 ∧
      ∀ k : Fin 64, e.get (shp .enc) ENC.REP_DATA_WORD 0 (g * 1024 + k) = leAt r (4 * k.val) 4 % 2 ^ 32 := by
  intro e
  have h3 := g.isLt
  have hg : g.val < 65536 := by omega
  have hlen : (d.signedWords r).length = 384 := by
    rw [signedWords, List.length_append, List.length_map, List.length_map, List.length_range, List.length_range]
  obtain ⟨ws, hws⟩ : ∃ ws, ws = d.signedWords r := ⟨_, rfl⟩
  rw [← hws] at hlen
  have hrep := d.signed.putReport_touch (g := g) (ws := ws) (by omega)
  have hword := fun k : Fin 64 => d.signed.putReport_word g ws (k := k) (by have := k.isLt; omega)
  have honly := d.signed.putReport_only g ws
  obtain ⟨x, hx⟩ : ∃ x, x = d.signed.putReport g ws := ⟨_, rfl⟩
  rw [← hx] at hrep honly
  have he : e = x.encEnd g none := by
    rw [hx, hws]
    exact d.attestDone_eq hj
  rw [he]
  refine ⟨keeps_trans (keeps_of_eq rfl rfl _) (keeps_trans hrep.keeps (x.encEnd_touch _ hg _).keeps), ?_, x.encEnd_done _ hg, fun k => ?_⟩
  · rw [x.encEnd_only, honly]
    rfl
  · have hk := k.isLt
    have hw := hword k
    rw [← hx] at hw
    rw [(x.encEnd_touch _ hg none).get _ _ _ _ (by decide) (by decide) (by decide) (by decide) (by omega), hw, hws, signedWords,
      List.getD_append _ _ _ _ (by rw [List.length_map, List.length_range]; exact hk), List.getD_eq_getElem _ _ (by rw [List.length_map, List.length_range]; exact hk),
      List.getElem_map, List.getElem_range]

end

end Dev

end Sys2Proof.Machine
end

section
/-! PROOFS. Images of the enclave: their copies in MRAM, INSTALL and ACCEPT_VERSION (R508, R509, R511). -/
namespace Sys2Proof.Machine

open Sys2Proof

/-! ### A copy within a memory -/

/-- The part of a memory in a span of addresses reads as the memory there. -/
theorem memRead_span {m : List Host.Cell} {a n b : Nat} (h : a ≤ b ∧ b < a + n) : memRead (m.filter (fun c => decide (a ≤ c.1 ∧ c.1 < a + n))) b = memRead m b := by
  induction m with
  | nil => rfl
  | cons c r ih =>
    obtain ⟨x, w⟩ := c
    by_cases hx : a ≤ x ∧ x < a + n
    · simp only [List.filter_cons, hx, and_self, decide_true, if_true, memRead, ih]
    · have hne : x ≠ b := fun e => hx (e ▸ h)
      simp only [List.filter_cons, hx, decide_false, Bool.false_eq_true, if_false, memRead, if_neg hne, ih]

/-- Cells written one after the other at another place. -/
def placeCells (src dst : Nat) (m : List Host.Cell) (l : List Host.Cell) : List Host.Cell := l.foldl (fun m c => memWrite m (dst + (c.1 - src)) c.2) m

theorem memRead_placeCells {src dst x : Nat} : ∀ (l m : List Host.Cell), Memory.wf l = true → (∀ c ∈ l, src ≤ c.1) →
    memRead (placeCells src dst m l) (dst + x) = if memRead l (src + x) = memDflt then memRead m (dst + x) else memRead l (src + x)
  | [], m, _, _ => (if_pos rfl).symm
  | (b, v) :: l, m, hwf, hsrc => by
    obtain ⟨hv, habove, hl⟩ := Memory.wf_cons.mp hwf
    have hb : src ≤ b := hsrc _ List.mem_cons_self
    show memRead (placeCells src dst (memWrite m (dst + (b - src)) v) l) (dst + x) = _
    rw [memRead_placeCells l _ hl fun c hc => hsrc c (List.mem_cons_of_mem _ hc), memRead_memWrite]
    by_cases hbx : b = src + x
    · subst hbx
      rw [memRead_above habove, if_pos rfl, if_pos (by omega), memRead, if_pos rfl, if_neg hv]
    · rw [memRead, if_neg hbx, if_neg (show ¬ dst + x = dst + (b - src) by omega)]

theorem memRead_placeCells_outside {src dst len y : Nat} : ∀ (l m : List Host.Cell), (∀ c ∈ l, src ≤ c.1 ∧ c.1 < src + len) → (y < dst ∨ dst + len ≤ y) →
    memRead (placeCells src dst m l) y = memRead m y
  | [], _, _, _ => rfl
  | (b, v) :: l, m, hl, hy => by
    obtain ⟨hb1, hb2⟩ : src ≤ b ∧ b < src + len := hl _ List.mem_cons_self
    show memRead (placeCells src dst (memWrite m (dst + (b - src)) v) l) y = _
    rw [memRead_placeCells_outside l _ (fun c hc => hl c (List.mem_cons_of_mem _ hc)) hy, memRead_memWrite, if_neg (by omega)]

namespace Dev

theorem mramCopy_eq (m : List Host.Cell) (src dst len : Nat) :
    mramCopy m src dst len = placeCells src dst (memClear m dst len) (m.filter (fun c => decide (src ≤ c.1 ∧ c.1 < src + len))) := rfl

/-- A copied byte. -/
theorem memRead_mramCopy {m : List Host.Cell} (hwf : Memory.wf m = true) (src dst : Nat) {len x : Nat} (hx : x < len) :
    memRead (mramCopy m src dst len) (dst + x) = memRead m (src + x) := by
  rw [mramCopy_eq, memRead_placeCells _ _ (Memory.wf_filter hwf) fun c hc => (of_decide_eq_true (List.mem_filter.mp hc).2).1, memRead_span (by omega), memRead_memClear]
  have hin : dst ≤ dst + x ∧ dst + x < dst + len := by omega
  rw [if_pos hin]
  exact ite_eq_right_iff.mpr fun h => h.symm

theorem memRead_mramCopy_outside (m : List Host.Cell) (src : Nat) {dst len y : Nat} (hy : y < dst ∨ dst + len ≤ y) : memRead (mramCopy m src dst len) y = memRead m y := by
  rw [mramCopy_eq, memRead_placeCells_outside _ _ (fun c hc => of_decide_eq_true (List.mem_filter.mp hc).2) hy, memRead_memClear, if_neg (by omega)]

/-! ### Marked slots -/

section
variable (d : Dev)

theorem slotMark_touch (k : Nat) (b : Bool) : Touch [shp .enc] keyWs d (d.slotMark k b) := ((Touch.refl ..).modEnc _).trans (showSlots_touch _)

theorem slotMark_sec (k : Nat) (b : Bool) : SecOnly d (d.slotMark k b) := ((SecOnly.refl d).modEnc _).regs (showSlots_only _)

theorem slotMark_encl (k : Nat) (b : Bool) : (d.slotMark k b).encl = { d.encl with slotBad := setBitN d.encl.slotBad k b } := by
  rw [slotMark, showSlots_only]
  rfl

theorem slotHdr_marked {k : Nat} (h : bitN d.encl.slotBad k = 1) : d.slotHdr k = none := if_pos (.inl h)

/-- The validity of an image rests on the key store, the lifecycle, the identity and the version floor. -/
theorem imgWhy_congr {e : Dev} (hk : e.keys = d.keys) (hg : ∀ f ∈ [ENC.LIFE_STATE, ENC.DEV_ID_LO, ENC.DEV_ID_HI, ENC.MIN_VER_V], e.get (shp .enc) f = d.get (shp .enc) f)
    (m : List Host.Cell) (a : Nat) : e.imgWhy m a = d.imgWhy m a := by
  have hkey : ∀ k, e.imgKeyOk k = d.imgKeyOk k := fun k => by rw [imgKeyOk, imgKeyOk, hg _ (by simp), hk]
  have hsig : ∀ h, e.imgSigOk m a h = d.imgSigOk m a h := fun h => by rw [imgSigOk, imgSigOk, hkey]
  have h64 : e.get64 (shp .enc) ENC.DEV_ID_LO ENC.DEV_ID_HI = d.get64 (shp .enc) ENC.DEV_ID_LO ENC.DEV_ID_HI := by rw [get64, get64, hg _ (by simp), hg _ (by simp)]
  unfold imgWhy
  dsimp only
  rw [h64, hg ENC.MIN_VER_V (by simp)]
  split
  · rfl
  · rw [hsig]

theorem slotHdr_congr {e : Dev} (hk : e.keys = d.keys) (hm : e.mram = d.mram) (hb : e.encl.slotBad = d.encl.slotBad)
    (hg : ∀ f ∈ [ENC.LIFE_STATE, ENC.DEV_ID_LO, ENC.DEV_ID_HI, ENC.MIN_VER_V], e.get (shp .enc) f = d.get (shp .enc) f) (k : Nat) : e.slotHdr k = d.slotHdr k := by
  rw [slotHdr, slotHdr, hb, hm, d.imgWhy_congr hk hg]

/-! ### INSTALL -/

theorem encEnd_encl (g : Nat) (why : Option Nat) : (d.encEnd g why).encl = d.encl := by rw [encEnd_only]

theorem encPriv_shows (w : Who) (op : Nat) : d.keeps (d.encPriv w op) [shp .enc, shp .slt] ∧ (d.encPriv w op).encl = d.encl ∧
    (d.encPriv w op).get (shp .enc) ENC.CMD_ST_STATE 0 w.encGrp = 3 ∧ (d.encPriv w op).get (shp .enc) ENC.CMD_ST_REASON 0 w.encGrp = cPRIV := by
  have hg := encGrp_lt w
  obtain ⟨hs, hr⟩ := d.encEnd_refused w.encGrp hg cPRIV
  rw [encPriv, refuse, noteBy_eq, keeps_post_iff (by simp), post_encl, get_post_other _ _ (by decide) (by decide) (by decide) hg,
    get_post_other _ _ (by decide) (by decide) (by decide) hg]
  exact ⟨keeps_mono (d.encEnd_touch _ hg _).keeps (by simp), d.encEnd_encl .., hs, hr⟩

/-- INSTALL once the enclave is free. -/
def installDo (g : Nat) (w : Who) : Dev :=
  let a := d.get (shp .enc) ENC.INST_SRC * 65536
  let s := d.get (shp .enc) ENC.INST_SLOT
  if a < d.userBase ∨ mramEnd ≤ a then d.encEnd g (some cRANGE)
  else if d.get (shp .enc) ENC.BOOT_SLOT = s then d.encEnd g (some cENC_SLOT)
  else match d.imgWhy d.mram a with
    | some why => ((d.slotMark s true).encEnd g (some why)).encNote w why g [s]
    | none => (d.slotMark s true).encBusy g (.install g a s)

theorem encInstall_priv {w : Who} (h : d.engineer w = false) : d.encInstall w = d.encPriv w 6 := if_pos (by rw [h]; rfl)

theorem encInstall_eq {w : Who} (h : d.engineer w = true) (hph : d.get (shp .bot) BOT.PHASE_CODE ≠ 7) :
    d.encInstall w = d.encOne w (fun d => d.installDo w.encGrp w) := by
  refine (if_neg ?_).trans rfl
  rw [h, beq_eq_false_iff_ne.mpr hph, Bool.false_and]
  decide

theorem installDo_shows (w : Who) (hjob : d.encl.job = none) : let e := shp .enc
    let a := d.get e ENC.INST_SRC * 65536
    let sl := d.get e ENC.INST_SLOT
    let t := d.installDo w.encGrp w
    d.keeps t [e, shp .slt] ∧
      (if a < d.userBase ∨ mramEnd ≤ a then t.get e ENC.CMD_ST_REASON 0 w.encGrp = cRANGE ∧ t.encl = d.encl
       else if d.get e ENC.BOOT_SLOT = sl then t.get e ENC.CMD_ST_REASON 0 w.encGrp = cENC_SLOT ∧ t.encl = d.encl
       else match d.imgWhy d.mram a with
         | some why => t.get e ENC.CMD_ST_STATE 0 w.encGrp = 3 ∧ t.get e ENC.CMD_ST_REASON 0 w.encGrp = why % 2 ^ 8 ∧ t.encl.job = none ∧ bitN t.encl.slotBad sl = 1
         | none => t.get e ENC.CMD_ST_STATE 0 w.encGrp = 1 ∧ t.encl.job = some (.install w.encGrp a sl) ∧ bitN t.encl.slotBad sl = 1) := by
  intro e a sl t
  have hg := encGrp_lt w
  have hend := fun (x : Dev) (why : Option Nat) => keeps_mono (x.encEnd_touch w.encGrp hg why).keeps (qs := [e, shp .slt]) (by simp [e])
  have ht : t = if a < d.userBase ∨ mramEnd ≤ a then d.encEnd w.encGrp (some cRANGE)
      else if d.get e ENC.BOOT_SLOT = sl then d.encEnd w.encGrp (some cENC_SLOT)
      else match d.imgWhy d.mram a with
        | some why => ((d.slotMark sl true).encEnd w.encGrp (some why)).encNote w why w.encGrp [sl]
        | none => (d.slotMark sl true).encBusy w.encGrp (.install w.encGrp a sl) := rfl
  rw [ht]
  split
  · exact ⟨hend _ _, (d.encEnd_refused _ hg _).2, d.encEnd_encl ..⟩
  · split
    · exact ⟨hend _ _, (d.encEnd_refused _ hg _).2, d.encEnd_encl ..⟩
    · have hmark := keeps_mono (d.slotMark_touch sl true).keeps (qs := [e, shp .slt]) (by simp [e])
      have hbad : bitN (d.slotMark sl true).encl.slotBad sl = 1 := by
        rw [slotMark_encl]
        exact bitN_setBitN_same d.encl.slotBad sl true
      have hfree : (d.slotMark sl true).encl.job = none := by rw [slotMark_encl]; exact hjob
      split
      next why hwhy =>
        obtain ⟨hs, hr⟩ := (d.slotMark sl true).encEnd_refused w.encGrp hg why
        dsimp only
        rw [encNote, noteBy_eq, keeps_post_iff (by simp), post_encl, get_post_other _ _ (by decide) (by decide) (by decide) hg,
          get_post_other _ _ (by decide) (by decide) (by decide) hg, encEnd_encl]
        exact ⟨keeps_trans hmark (hend _ _), hs, hr, hfree, hbad⟩
      next hwhy =>
        obtain ⟨hk, hs, he⟩ := (d.slotMark sl true).encBusy_shows hg (.install w.encGrp a sl)
        dsimp only
        rw [he]
        exact ⟨keeps_trans hmark (keeps_mono hk (by simp [e])), hs, rfl, hbad⟩

/-! ### ACCEPT_VERSION -/

/-- ACCEPT_VERSION once the enclave is free. -/
def acceptDo (w : Who) : Dev :=
  let v := ((d.cyx d.holder).img.map (fun i => i.ver)).getD 0
  ((d.put (shp .enc) ENC.MIN_VER_V (max v (d.get (shp .enc) ENC.MIN_VER_V))).showSlots).encEnd w.encGrp none

theorem acceptVersion_priv {w : Who} (h : d.engineer w = false) : d.acceptVersion w = d.encPriv w 7 := if_pos (by rw [h]; rfl)

theorem acceptVersion_eq {w : Who} (h : d.engineer w = true) : d.acceptVersion w = d.encOne w (fun d => d.acceptDo w) := (if_neg (by rw [h]; decide)).trans rfl

theorem acceptDo_shows (w : Who) : d.keeps (d.acceptDo w) [shp .enc] ∧ (d.acceptDo w).get (shp .enc) ENC.CMD_ST_STATE 0 w.encGrp = 2 ∧
    (d.acceptDo w).get (shp .enc) ENC.MIN_VER_V = max (((d.cyx d.holder).img.map (fun i => i.ver)).getD 0) (d.get (shp .enc) ENC.MIN_VER_V) % 2 ^ 32 := by
  have hg := encGrp_lt w
  obtain ⟨v, hv⟩ : ∃ v, v = max (((d.cyx d.holder).img.map (fun i => i.ver)).getD 0) (d.get (shp .enc) ENC.MIN_VER_V) := ⟨_, rfl⟩
  have hdo : d.acceptDo w = ((d.put (shp .enc) ENC.MIN_VER_V v).showSlots).encEnd w.encGrp none := by rw [hv]; rfl
  rw [hdo, ← hv]
  refine ⟨keeps_trans ((keeps_put_iff (by simp) (by decide) (by decide) (by decide)).mpr (keeps_refl d _))
    (keeps_trans (showSlots_touch _).keeps (encEnd_touch _ _ hg _).keeps), encEnd_done _ _ hg, ?_⟩
  rw [(encEnd_touch _ _ hg none).get _ _ _ _ (by decide) (by decide) (by decide) (by decide) (by decide),
    (showSlots_touch _).get _ _ _ _ (by decide) (by decide) (by decide) (by decide) (by decide), get_put_same _ _ _ _ _ _ (by decide)]
  rfl

end

end Dev

end Sys2Proof.Machine
end

section
/-! PROOFS. The end of an INSTALL, and the ports of the enclave (R503, R511, R512). -/
namespace Sys2Proof.Machine

open Sys2Proof

namespace Dev

section
variable (d : Dev)

/-! ### The end of an INSTALL -/

/-- The part whose image is copied. -/
def imageCopied (a s : Nat) : Dev :=
  let len := ((imgHdr d.mram a).map (fun h => h.len)).getD 0
  { d.modEnc (fun e => { e with job := none }) with
    mram := mramCopy d.mram a (slotBase s) (0x1000 + len), mbad := d.mbad.filter (fun b => !coversWord (slotBase s) (0x1000 + len) b) }

/-- The slot after the check of its copy. -/
def slotChecked (s : Nat) : Dev :=
  let x := d.slotMark s false
  if (x.slotHdr s).isSome then x else x.slotMark s true

variable {d} {g a s : Nat} (hj : d.encl.job = some (.install g a s))
include hj

theorem installDone_fails : ∃ r, d.installDone false = ((d.imageCopied a s).encEnd g (some cECC)).post r := by
  unfold installDone
  rw [hj]
  exact ⟨_, rfl⟩

theorem installDone_checked : ∃ r, d.installDone true =
    (((d.imageCopied a s).slotChecked s).encEnd g (if (((d.imageCopied a s).slotMark s false).slotHdr s).isSome then none else some cSIGNATURE)).post r := by
  unfold installDone
  rw [hj]
  exact ⟨_, rfl⟩

omit hj
variable (d) (s)

theorem slotChecked_touch : Touch [shp .enc] keyWs d (d.slotChecked s) :=
  Touch.ite (fun _ => d.slotMark_touch s false) fun _ => (d.slotMark_touch s false).trans (slotMark_touch ..)

theorem slotChecked_sec : SecOnly d (d.slotChecked s) := by
  unfold slotChecked
  extract_lets x
  have hx : SecOnly d x := d.slotMark_sec s false
  split
  · exact hx
  · exact hx.trans (slotMark_sec ..)

theorem slotChecked_job (h : d.encl.job = none) : (d.slotChecked s).encl.job = none := by
  unfold slotChecked
  extract_lets x
  have hx : x.encl.job = none := by rw [slotMark_encl]; exact h
  split
  · exact hx
  · rw [slotMark_encl]
    exact hx

/-- A slot stands as valid just where its copy was good. -/
theorem slotHdr_checked : ((d.slotChecked s).slotHdr s).isSome = ((d.slotMark s false).slotHdr s).isSome := by
  obtain ⟨x, hx⟩ : ∃ x, x = d.slotMark s false := ⟨_, rfl⟩
  rw [slotChecked, ← hx]
  split
  case isTrue h => exact rfl
  case isFalse h =>
    have hbad : bitN (x.slotMark s true).encl.slotBad s = 1 := by
      rw [slotMark_encl]
      exact bitN_setBitN_same x.encl.slotBad s true
    rw [slotHdr_marked _ hbad, Bool.eq_false_iff.mpr h]
    rfl

/-- The registers on which the validity of an image rests stay at a command's end. -/
theorem slotHdr_ended {g : Nat} (hg : g < 65536) (why : Option Nat) (r : Rec) (k : Nat) : ((d.encEnd g why).post r).slotHdr k = d.slotHdr k := by
  refine slotHdr_congr d ?_ ?_ ?_ (fun f hf => ?_) k
  · rw [post_keys, encEnd_only]
  · rw [post_mram, encEnd_only]
  · rw [post_encl, encEnd_encl]
  · have hfit : f.fits = true ∧ 0 < f.cnt ∧ clearOf endWs (shp .enc) f = true := by fin_cases hf <;> decide
    obtain ⟨hfits, hcnt, hclear⟩ := hfit
    rw [get_post_other _ _ (by decide) hfits hcnt (by decide), (d.encEnd_touch g hg why).get _ _ _ _ (by decide) hclear hfits hcnt (by decide)]

/-! ### The ports -/

theorem repRead_shows {g : Nat} (hg : g < 65536) : let e := d.repRead g
    d.keeps e [shp .enc] ∧ e.resp = ⟨[BitVec.ofNat 32 (d.get (shp .enc) ENC.REP_DATA_WORD 0 (g * 1024 + d.get (shp .enc) ENC.REP_ADDR_WORD 0 g))], false, 0⟩ ∧
      e.get (shp .enc) ENC.REP_ADDR_WORD 0 g = (d.get (shp .enc) ENC.REP_ADDR_WORD 0 g + 1) % 2 ^ 10 := by
  intro e
  have hk : d.keeps (d.put (shp .enc) ENC.REP_ADDR_WORD (d.get (shp .enc) ENC.REP_ADDR_WORD 0 g + 1) 0 g) [shp .enc] :=
    (keeps_put_iff (by simp) (by decide) (by decide) hg).mpr (keeps_refl d _)
  exact ⟨hk, rfl, get_put_same _ _ _ _ _ _ (by decide)⟩

theorem tokWrite_shows {g : Nat} (hg : g < 3) {v : Nat} (hv : v < 2 ^ 32) (ha : d.get (shp .enc) ENC.TOK_ADDR_WORD 0 g < 1024) :
    d.keeps (d.tokWrite g v) [shp .enc] ∧ (d.tokWrite g v).get (shp .enc) ENC.TOK_DATA_WORD 0 (g * 1024 + d.get (shp .enc) ENC.TOK_ADDR_WORD 0 g) = v ∧
      (d.tokWrite g v).get (shp .enc) ENC.TOK_ADDR_WORD 0 g = if d.get (shp .enc) ENC.TOK_ADDR_WORD 0 g ≥ 863 then 0 else d.get (shp .enc) ENC.TOK_ADDR_WORD 0 g + 1 := by
  have hg' : g < 65536 := by omega
  obtain ⟨a, haddr⟩ : ∃ a, a = d.get (shp .enc) ENC.TOK_ADDR_WORD 0 g := ⟨_, rfl⟩
  rw [tokWrite, ← haddr]
  rw [← haddr] at ha
  have ht : g * 1024 + a < 65536 := by omega
  refine ⟨(keeps_put_iff (by simp) (by decide) (by decide) hg').mpr ((keeps_put_iff (by simp) (by decide) (by decide) ht).mpr (keeps_refl d _)), ?_, ?_⟩
  · rw [get_put_field _ _ (by decide) (by decide) (by decide) (by decide) (by decide) hg' ht, get_put_same _ _ _ _ _ _ (by decide)]
    exact Nat.mod_eq_of_lt hv
  · rw [get_put_same _ _ _ _ _ _ (by decide)]
    refine Nat.mod_eq_of_lt (show _ < 2 ^ 10 from ?_)
    split <;> omega

end

end Dev

section
variable {s : State} (hout : s.out = true) (g : Fin 3)
include hout

/-- The clause of O55 about the end of an INSTALL. -/
theorem installDone_rule {a : Nat} {sl : Fin 2} {ok : Bool} (hj : s.dev.encl.job = some (.install g a sl)) (hwf : s.dev.memWf = true) :
    let len := 0x1000 + ((imgHdr s.dev.mram a).map (fun h => h.len)).getD 0
    Dev.slotBase sl + 0x10000000 ≤ a → len ≤ 0x10000000 → ∃ t, exec (.encInstallDone ok) s = .next t ∧ t.pending = s.pending ∧ t.dev.encl.job = none ∧
      (∀ x, x < Dev.slotBase sl ∨ Dev.slotBase sl + 0x10000000 ≤ x → memRead t.dev.mram x = memRead s.dev.mram x) ∧
      (∀ x, x < len → memRead t.dev.mram (Dev.slotBase sl + x) = memRead s.dev.mram (a + x)) ∧ t.dev.ha.sram = s.dev.ha.sram ∧ t.dev.hb.sram = s.dev.hb.sram ∧
      (ok = false → t.dev.get (shp .enc) ENC.CMD_ST_STATE 0 g = 3 ∧ t.dev.get (shp .enc) ENC.CMD_ST_REASON 0 g = cECC) ∧
      (ok = true → t.dev.get (shp .enc) ENC.CMD_ST_STATE 0 g = if (t.dev.slotHdr sl).isSome then 2 else 3) := by
  intro len _ hlen
  have hg : g.val < 65536 := Nat.lt_trans g.isLt (by decide)
  have hrun := onDev_out (fun d => d.installDone ok) hout
  obtain ⟨y, hy⟩ : ∃ y, y = s.dev.imageCopied a sl := ⟨_, rfl⟩
  have hmram : y.mram = Dev.mramCopy s.dev.mram a (Dev.slotBase sl) len := by rw [hy]; rfl
  have hjob : y.encl.job = none := by rw [hy]; rfl
  have hsram : y.ha.sram = s.dev.ha.sram ∧ y.hb.sram = s.dev.hb.sram := by rw [hy]; exact ⟨rfl, rfl⟩
  have hmem : Memory.wf s.dev.mram = true := by
    rw [Dev.memWf, Bool.and_eq_true, Bool.and_eq_true] at hwf
    exact hwf.1.1
  have hout' : ∀ x, x < Dev.slotBase sl ∨ Dev.slotBase sl + 0x10000000 ≤ x → memRead y.mram x = memRead s.dev.mram x := fun x hx => by
    rw [hmram, Dev.memRead_mramCopy_outside _ _ (by omega)]
  have hin : ∀ x, x < len → memRead y.mram (Dev.slotBase sl + x) = memRead s.dev.mram (a + x) := fun x hx => by rw [hmram, Dev.memRead_mramCopy hmem _ _ hx]
  cases ok with
  | false =>
    obtain ⟨r, he⟩ := Dev.installDone_fails hj
    rw [he, ← hy] at hrun
    obtain ⟨hs, hr⟩ := y.encEnd_refused g hg cECC
    have honly := y.encEnd_only g (some cECC)
    obtain ⟨x, hx⟩ : ∃ x, x = y.encEnd g (some cECC) := ⟨_, rfl⟩
    rw [← hx] at hrun hs hr honly
    refine ⟨_, hrun, rfl, ?_, ?_, ?_, ?_, ?_, fun _ => ⟨?_, ?_⟩, nofun⟩
    · rw [State.dev_mk, Dev.post_encl, honly]; exact hjob
    · rw [State.dev_mk, Dev.post_mram, honly]; exact hout'
    · rw [State.dev_mk, Dev.post_mram, honly]; exact hin
    · rw [State.dev_mk, Dev.post_ha, honly]; exact hsram.1
    · rw [State.dev_mk, Dev.post_hb, honly]; exact hsram.2
    · exact (Dev.get_post_other _ _ (by decide) (by decide) (by decide) hg).trans hs
    · exact (Dev.get_post_other _ _ (by decide) (by decide) (by decide) hg).trans hr
  | true =>
    obtain ⟨r, he⟩ := Dev.installDone_checked hj
    rw [he, ← hy, ← y.slotHdr_checked] at hrun
    obtain ⟨z, hz⟩ : ∃ z, z = y.slotChecked sl := ⟨_, rfl⟩
    have hsec := y.slotChecked_sec sl
    have hzjob := y.slotChecked_job sl hjob
    rw [← hz] at hrun hsec hzjob
    obtain ⟨why, hwhy⟩ : ∃ why, why = if (z.slotHdr sl).isSome then none else some cSIGNATURE := ⟨_, rfl⟩
    rw [← hwhy] at hrun
    have honly := z.encEnd_only g why
    have hhdr := z.slotHdr_ended hg why r sl
    have hstate : (z.encEnd g why).get (shp .enc) ENC.CMD_ST_STATE 0 g = if (z.slotHdr sl).isSome then 2 else 3 := by
      rw [hwhy]
      split
      · exact z.encEnd_done g hg
      · exact (z.encEnd_refused g hg _).1
    obtain ⟨x, hx⟩ : ∃ x, x = z.encEnd g why := ⟨_, rfl⟩
    rw [← hx] at hrun hhdr hstate honly
    refine ⟨_, hrun, rfl, ?_, ?_, ?_, ?_, ?_, nofun, fun _ => ?_⟩
    · rw [State.dev_mk, Dev.post_encl, honly]; exact hzjob
    · rw [State.dev_mk, Dev.post_mram, honly, hsec]; exact hout'
    · rw [State.dev_mk, Dev.post_mram, honly, hsec]; exact hin
    · rw [State.dev_mk, Dev.post_ha, honly, hsec]; exact hsram.1
    · rw [State.dev_mk, Dev.post_hb, honly, hsec]; exact hsram.2
    · rw [State.dev_mk, hhdr]
      exact (Dev.get_post_other _ _ (by decide) (by decide) (by decide) hg).trans hstate

end

end Sys2Proof.Machine
end

section
/-! PROOFS. Presented tokens of the enclave: refusals, and what an accepted token does (R501, R503). -/
namespace Sys2Proof.Machine

open Sys2Proof

namespace Dev

/-! ### What an accepted token changes -/

/-- What every accepted token leaves as it was: memory and other pages, the refusals counted, and a nonce that has lapsed. -/
structure TokKept (g : Nat) (d e : Dev) : Prop where
  keeps : d.keeps e authPages
  refused : e.encl.refused = d.encl.refused
  nonce : d.encl.nonce.getD g none = none → e.encl.nonce.getD g none = none

section
variable (d : Dev)

/-- The registers of an authorisation that opened. -/
def authSet (g role secs : Nat) (key : BitVec 128) : Dev :=
  (((d.put (shp .enc) ENC.AUTH_ROLE role 0 g).put (shp .enc) ENC.AUTH_LEFT_S secs 0 g).put128 ENC.AUTH_KEY g key).stat (shp .enc) 1

theorem authSet_touch {g : Nat} (hg : g < 65536) (role secs : Nat) (key : BitVec 128) : Touch [shp .enc] authWs d (d.authSet g role secs key) :=
  ((((Touch.refl ..).put (by simp) (by simp [authWs]) (by decide) (by decide) hg _).put (by simp) (by simp [authWs]) (by decide) (by decide) hg _).trans
    ((put128_touch _ g (by decide) rfl hg _).mono (fun _ h => h) (by simp [authWs]))).stat (by simp) (by simp [authWs]) _

theorem authSet_only (g role secs : Nat) (key : BitVec 128) : OnlyRegs d (d.authSet g role secs key) :=
  ((((OnlyRegs.refl d).put ..).put ..).trans (put128_only _ g _ _)).put ..

theorem authSet_role {g : Nat} (hg : g < 65536) (role secs : Nat) (key : BitVec 128) : (d.authSet g role secs key).get (shp .enc) ENC.AUTH_ROLE 0 g = role % 2 ^ 3 := by
  rw [authSet, stat, orBits, get_put_field _ _ (by decide) (by decide) (by decide) (by decide) (by decide) (by decide) hg,
    (put128_touch _ g (by decide) rfl hg _).get _ _ _ _ (by decide) (by decide) (by decide) (by decide) hg,
    get_put_field _ _ (by decide) (by decide) (by decide) (by decide) (by decide) hg hg, get_put_same _ _ _ _ _ _ (by decide)]
  rfl

/-- The registers of a session that opened. -/
def sessionSet (role : Nat) : Dev :=
  ((d.put (shp .hst) HST.STATUS_SESSION 1).put (shp .hst) HST.STATUS_ROLE role).put (shp .hst) HST.IDLE_LEFT_S (d.get (shp .enc) ENC.SESS_IDLE_S)

theorem sessionSet_touch (role : Nat) : Touch [shp .hst] sessionWs d (d.sessionSet role) :=
  (((Touch.refl ..).put (by simp) (by simp [sessionWs]) (by decide) (by decide) (by decide) _).put (by simp) (by simp [sessionWs]) (by decide) (by decide) (by decide) _).put
    (by simp) (by simp [sessionWs]) (by decide) (by decide) (by decide) _

theorem sessionSet_only (role : Nat) : OnlyRegs d (d.sessionSet role) := (((OnlyRegs.refl d).put ..).put ..).put ..

theorem authOpen_eq (w : Who) (role secs : Nat) (key : BitVec 128) : d.authOpen w role secs key =
    let x := ((d.authClose w.encGrp).authSet w.encGrp role secs key).modEnc (fun e => { e with authKey := lset e.authKey w.encGrp (some key) })
    if w.encGrp = 1 then x.sessionSet role else x := rfl

theorem authOpen_shows (w : Who) (role secs : Nat) (key : BitVec 128) (hlen : d.encl.authKey.length = 3) : let e := d.authOpen w role secs key
    TokKept w.encGrp d e ∧ e.keys = d.keys ∧ e.get (shp .enc) ENC.AUTH_ROLE 0 w.encGrp = role % 2 ^ 3 ∧ e.encl.authKey.getD w.encGrp none = some key := by
  intro e
  have hg := encGrp_lt w
  have h3 := w.encGrp_lt_three
  obtain ⟨c, hc⟩ : ∃ c, c = d.authClose w.encGrp := ⟨_, rfl⟩
  have hct := d.authClose_touch w.encGrp hg
  have hcs := d.authClose_sec w.encGrp
  obtain ⟨k, hk, hklen⟩ := d.authClose_encl w.encGrp
  rw [← hc] at hct hcs hk
  obtain ⟨y, hy⟩ : ∃ y, y = c.authSet w.encGrp role secs key := ⟨_, rfl⟩
  have hyt := c.authSet_touch hg role secs key
  have hyo := c.authSet_only w.encGrp role secs key
  have hyr := c.authSet_role hg role secs key
  rw [← hy] at hyt hyo hyr
  have hye : y.encl = { d.encl with authKey := k } := by rw [hyo]; exact hk
  obtain ⟨x, hx⟩ : ∃ x, x = y.modEnc (fun e => { e with authKey := lset e.authKey w.encGrp (some key) }) := ⟨_, rfl⟩
  have hxe : x.encl = { d.encl with authKey := lset k w.encGrp (some key) } := by
    rw [hx]
    show { y.encl with authKey := lset y.encl.authKey w.encGrp (some key) } = _
    rw [hye]
  have hxk : x.keys = d.keys := by
    rw [hx]
    show y.keys = _
    rw [hyo]
    exact hcs.keys
  have hxt : Touch authPages authWs d x := by
    rw [hx]
    exact (hct.trans (hyt.mono (by simp [authPages]) fun _ h => h)).modEnc _
  have hxr : x.get (shp .enc) ENC.AUTH_ROLE 0 w.encGrp = role % 2 ^ 3 := by
    rw [hx]
    exact hyr
  have he : e = if w.encGrp = 1 then x.sessionSet role else x := by rw [hx, hy, hc]; rfl
  have hkey : (lset k w.encGrp (some key)).getD w.encGrp none = some key := getD_lset_same _ _ (by omega)
  rw [he]
  split
  · have hst := x.sessionSet_touch role
    have hso := x.sessionSet_only role
    have hsr := hst.get (shp .enc) ENC.AUTH_ROLE 0 w.encGrp (by decide) (by decide) (by decide) (by decide) hg
    generalize x.sessionSet role = z at hst hso hsr
    have hze : z.encl = x.encl := by rw [hso]
    refine ⟨⟨keeps_trans hxt.keeps (keeps_mono hst.keeps (by simp [authPages])), ?_, fun h => ?_⟩, ?_, hsr.trans hxr, ?_⟩
    · rw [hze, hxe]
    · rw [hze, hxe]; exact h
    · rw [hso]; exact hxk
    · rw [hze, hxe]; exact hkey
  · refine ⟨⟨hxt.keeps, ?_, fun h => ?_⟩, hxk, hxr, ?_⟩
    · rw [hxe]
    · rw [hxe]; exact h
    · rw [hxe]; exact hkey

theorem withKeys_kept (ks : List Key) (g : Nat) : TokKept g d (d.withKeys ks) ∧ (d.withKeys ks).keys = ks ∧ (d.withKeys ks).encl = d.encl := by
  have honly := d.withKeys_only ks
  refine ⟨⟨keeps_mono (d.withKeys_touch ks).keeps (by simp [authPages]), ?_, fun h => ?_⟩, ?_, ?_⟩
  · rw [honly]
  · rw [honly]; exact h
  · rw [honly]
  · rw [honly]

/-- Authorisations that a key opened end with it. -/
def authsRevoked (id : BitVec 128) : Dev := (List.range 3).foldl (fun d q => if d.encl.authKey.getD q none = some id then d.authClose q else d) d

theorem authsRevoked_kept (id : BitVec 128) (g : Nat) : TokKept g d (d.authsRevoked id) ∧ (d.authsRevoked id).keys = d.keys := by
  have hgo : ∀ (l : List Nat), (∀ q ∈ l, q < 65536) → ∀ d : Dev,
      let e := l.foldl (fun d q => if d.encl.authKey.getD q none = some id then d.authClose q else d) d
      d.keeps e authPages ∧ e.keys = d.keys ∧ ∃ k, e.encl = { d.encl with authKey := k } := by
    intro l
    induction l with
    | nil => exact fun _ d => ⟨keeps_refl .., rfl, _, rfl⟩
    | cons q l ih =>
      intro hl d
      have hstep : d.keeps (if d.encl.authKey.getD q none = some id then d.authClose q else d) authPages ∧
          (if d.encl.authKey.getD q none = some id then d.authClose q else d).keys = d.keys ∧
          ∃ k, (if d.encl.authKey.getD q none = some id then d.authClose q else d).encl = { d.encl with authKey := k } := by
        split
        · obtain ⟨k, hk, -⟩ := d.authClose_encl q
          exact ⟨(d.authClose_touch q (hl q List.mem_cons_self)).keeps, (d.authClose_sec q).keys, k, hk⟩
        · exact ⟨keeps_refl .., rfl, _, rfl⟩
      obtain ⟨hk, hkeys, k, he⟩ := hstep
      obtain ⟨hk', hkeys', k', he'⟩ := ih (fun q hq => hl q (List.mem_cons_of_mem _ hq)) (if d.encl.authKey.getD q none = some id then d.authClose q else d)
      exact ⟨keeps_trans hk hk', hkeys'.trans hkeys, k', he'.trans (by rw [he])⟩
  obtain ⟨hk, hkeys, k, he⟩ := hgo (List.range 3) (fun q hq => Nat.lt_trans (List.mem_range.mp hq) (by decide)) d
  have he' : (d.authsRevoked id).encl = { d.encl with authKey := k } := he
  refine ⟨⟨hk, ?_, fun h => ?_⟩, hkeys⟩
  · rw [he']
  · rw [he']; exact h

/-! ### A change of lifecycle (R498) -/

theorem lifeTo_eq (st : Nat) : d.lifeTo st = ((d.authCloseAll.put (shp .enc) ENC.LIFE_STATE st).noncesEnded).sltNonceEnd := rfl

theorem lifeTo_shows (st : Nat) (g : Fin 3) : TokKept g d (d.lifeTo st) ∧ (d.lifeTo st).keys = d.keys ∧ (d.lifeTo st).encl.devKey = d.encl.devKey ∧
    (d.lifeTo st).get (shp .enc) ENC.LIFE_STATE = st % 2 ^ 3 ∧ (d.lifeTo st).encl.nonce.getD g none = none := by
  obtain ⟨x, hx⟩ : ∃ x, x = d.authCloseAll := ⟨_, rfl⟩
  have hxt := d.authCloseAll_touch
  have hxs := d.authCloseAll_sec
  obtain ⟨k, hk⟩ := d.authCloseAll_encl
  rw [← hx] at hxt hxs hk
  obtain ⟨y, hy⟩ : ∃ y, y = x.put (shp .enc) ENC.LIFE_STATE st := ⟨_, rfl⟩
  have hyk : x.keeps y [shp .enc] := by
    rw [hy]
    exact (keeps_put_iff (by simp) (by decide) (by decide) (by decide)).mpr (keeps_refl x _)
  have hye : y.encl = x.encl := by rw [hy]; rfl
  have hykeys : y.keys = x.keys := by rw [hy]; rfl
  have hylife : y.get (shp .enc) ENC.LIFE_STATE = st % 2 ^ 3 := by rw [hy]; exact get_put_same _ _ _ _ _ _ (by decide)
  obtain ⟨n1, n2, n3, -⟩ := y.noncesEnded.sltNonceEnd_data
  have hnone := y.noncesEnded_none g
  have hencl : (d.lifeTo st).encl = { y.encl with nonce := lset (lset (lset y.encl.nonce 0 none) 1 none) 2 none } := by
    rw [d.lifeTo_eq, ← hx, ← hy, n2, y.noncesEnded_encl]
  have hkeys : (d.lifeTo st).keys = d.keys := by
    rw [d.lifeTo_eq, ← hx, ← hy, n3, y.noncesEnded_sec.keys, hykeys, hxs.keys]
  have hno : (d.lifeTo st).encl.nonce.getD g none = none := by
    rw [d.lifeTo_eq, ← hx, ← hy, n2]
    exact hnone
  refine ⟨⟨?_, ?_, fun _ => hno⟩, hkeys, ?_, ?_, hno⟩
  · rw [d.lifeTo_eq, ← hx, ← hy]
    exact keeps_trans hxt.keeps (keeps_trans (keeps_mono hyk (by simp [authPages])) (keeps_trans (keeps_mono y.noncesEnded_touch.keeps (by simp [authPages]))
      (keeps_mono (sltNonceEnd_touch _).keeps (by simp [authPages]))))
  · rw [hencl, hye, hk]
  · rw [hencl, hye, hk]
  · rw [d.lifeTo_eq, ← hx, ← hy, (sltNonceEnd_touch _).get _ _ _ _ (by decide) (by decide) (by decide) (by decide) (by decide),
      y.noncesEnded_touch.get _ _ _ _ (by decide) (by decide) (by decide) (by decide) (by decide), hylife]

theorem TokKept.trans {g : Nat} {d e x : Dev} (h : TokKept g d e) (k : TokKept g e x) : TokKept g d x :=
  ⟨keeps_trans h.keeps k.keeps, k.refused.trans h.refused, fun hn => k.nonce (h.nonce hn)⟩

theorem TokKept.post {g : Nat} {d e : Dev} (h : TokKept g d e) (r : Rec) : TokKept g d (e.post r) :=
  ⟨(keeps_post_iff (by simp [authPages])).mpr h.keeps, by rw [post_encl]; exact h.refused, fun hn => by rw [post_encl]; exact h.nonce hn⟩

theorem zeroise_kept (g : Nat) : TokKept g d d.zeroise := by
  have he := d.zeroise_data.2.1
  refine ⟨keeps_mono d.zeroise_touch.keeps (by simp [authPages]), ?_, fun h => ?_⟩
  · rw [he]
  · rw [he]; exact h

/-! ### The accepted kinds -/

variable (w : Who) {t : Token}

theorem tokDo_auth (h : tokKind t = 1) : ∃ secs, d.tokDo w t = d.authOpen w (tokRole t) secs (tokKey t) := by
  unfold tokDo
  rw [h]
  exact ⟨_, rfl⟩

theorem tokDo_keyAdd (h : tokKind t = 2) : d.tokDo w t = d.withKeys (d.keys ++ [(⟨tokArg t 0 1, tokNewKey t, tokArg t 1 1⟩ : Key)]) := by
  unfold tokDo
  rw [h]
  rfl

theorem tokDo_revoke (h : tokKind t = 3) : d.tokDo w t =
    (d.withKeys (d.keys.filter (fun k => k.id != BitVec.ofNat 128 (tokArg t 0 16)))).authsRevoked (BitVec.ofNat 128 (tokArg t 0 16)) := by
  unfold tokDo
  rw [h]
  rfl

theorem tokDo_clear (h : tokKind t = 4) : d.tokDo w t = d.modSilt (fun s => { s with token := some (tokArg t 0 1, tokArg t 4 4, tokKey t, tokAt t 0x20 8) }) := by
  unfold tokDo
  rw [h]
  rfl

theorem tokDo_life (h : tokKind t = 5) : ∃ r, d.tokDo w t = if tokArg t 0 1 = 3 then (d.zeroise.lifeTo 3).post r else (d.lifeTo 2).post r := by
  unfold tokDo
  rw [h]
  show ∃ r, (if tokArg t 0 1 = 3 then (d.zeroise.lifeTo 3).encNote w 3 w.encGrp [3] else (d.lifeTo 2).encNote w 2 w.encGrp [2]) = _
  by_cases h3 : tokArg t 0 1 = 3
  · simp only [if_pos h3]
    exact ⟨_, rfl⟩
  · simp only [if_neg h3]
    exact ⟨_, rfl⟩

/-- What each kind of token does besides. -/
structure TokDone (w : Who) (t : Token) (d e : Dev) : Prop where
  kept : TokKept w.encGrp d e
  auth : tokKind t = 1 → e.get (shp .enc) ENC.AUTH_ROLE 0 w.encGrp = tokRole t % 2 ^ 3 ∧ e.encl.authKey.getD w.encGrp none = some (tokKey t) ∧ e.keys = d.keys
  keyAdd : tokKind t = 2 → e.keys = d.keys ++ [⟨tokArg t 0 1, tokNewKey t, tokArg t 1 1⟩]
  revoke : tokKind t = 3 → e.keys = d.keys.filter (fun k => k.id != BitVec.ofNat 128 (tokArg t 0 16))
  clear : tokKind t = 4 → e.silt.token = some (tokArg t 0 1, tokArg t 4 4, tokKey t, tokAt t 0x20 8) ∧ e.keys = d.keys
  life : tokKind t = 5 → (tokArg t 0 1 = 3 → e.get (shp .enc) ENC.LIFE_STATE = 3 ∧ e.keys = [] ∧ e.encl.devKey = false) ∧
    (tokArg t 0 1 ≠ 3 → e.get (shp .enc) ENC.LIFE_STATE = 2 ∧ e.keys = d.keys)

theorem tokDo_done (hk : 1 ≤ tokKind t ∧ tokKind t ≤ 5) (hlen : d.encl.authKey.length = 3) : TokDone w t d (d.tokDo w t) := by
  have hcases : tokKind t = 1 ∨ tokKind t = 2 ∨ tokKind t = 3 ∨ tokKind t = 4 ∨ tokKind t = 5 := by omega
  rcases hcases with h | h | h | h | h
  · obtain ⟨secs, he⟩ := d.tokDo_auth w h
    obtain ⟨hkept, hkeys, hrole, hkey⟩ := d.authOpen_shows w (tokRole t) secs (tokKey t) hlen
    rw [he]
    exact ⟨hkept, fun _ => ⟨hrole, hkey, hkeys⟩, by omega, by omega, by omega, by omega⟩
  · obtain ⟨hkept, hkeys, -⟩ := d.withKeys_kept (d.keys ++ [(⟨tokArg t 0 1, tokNewKey t, tokArg t 1 1⟩ : Key)]) w.encGrp
    rw [d.tokDo_keyAdd w h]
    exact ⟨hkept, by omega, fun _ => hkeys, by omega, by omega, by omega⟩
  · obtain ⟨hkept, hkeys, -⟩ := d.withKeys_kept (d.keys.filter (fun k => k.id != BitVec.ofNat 128 (tokArg t 0 16))) w.encGrp
    obtain ⟨hkept', hkeys'⟩ := authsRevoked_kept (d.withKeys (d.keys.filter (fun k => k.id != BitVec.ofNat 128 (tokArg t 0 16)))) (BitVec.ofNat 128 (tokArg t 0 16)) w.encGrp
    rw [d.tokDo_revoke w h]
    exact ⟨hkept.trans hkept', by omega, by omega, fun _ => hkeys'.trans hkeys, by omega, by omega⟩
  · rw [d.tokDo_clear w h]
    exact ⟨⟨keeps_of_eq rfl rfl _, rfl, id⟩, by omega, by omega, by omega, fun _ => ⟨rfl, rfl⟩, by omega⟩
  · obtain ⟨r, he⟩ := d.tokDo_life w h
    rw [he]
    split
    case isTrue h3 =>
      obtain ⟨hkept, hkeys, hdev, hlife, -⟩ := d.zeroise.lifeTo_shows 3 ⟨w.encGrp, w.encGrp_lt_three⟩
      obtain ⟨zkeys, zencl, -, -⟩ := d.zeroise_data
      refine ⟨((d.zeroise_kept _).trans hkept).post r, by omega, by omega, by omega, by omega, fun _ => ⟨fun _ => ⟨?_, ?_, ?_⟩, fun hne => absurd h3 hne⟩⟩
      · rw [get_post_other _ _ (by decide) (by decide) (by decide) (by decide), hlife]
        rfl
      · rw [post_keys, hkeys, zkeys]
      · rw [post_encl, hdev, zencl]
    case isFalse h3 =>
      obtain ⟨hkept, hkeys, -, hlife, -⟩ := d.lifeTo_shows 2 ⟨w.encGrp, w.encGrp_lt_three⟩
      refine ⟨hkept.post r, by omega, by omega, by omega, by omega, fun _ => ⟨fun he => absurd he h3, fun _ => ⟨?_, ?_⟩⟩⟩
      · rw [get_post_other _ _ (by decide) (by decide) (by decide) (by decide), hlife]
        rfl
      · rw [post_keys, hkeys]

end

end Dev

end Sys2Proof.Machine
end

section
/-! PROOFS. The commands of the enclave by their clauses (O55). -/
namespace Sys2Proof.Machine

open Sys2Proof

namespace Dev

section
variable (d : Dev)

/-! ### PRESENT -/

theorem tokenDrop_touch {g : Nat} (hg : g < 3) : Touch [shp .enc] [(shp .enc, ENC.TOK_DATA_WORD)] d (d.tokenDrop g) :=
  Touch.foldl _ _ fun d i hi => (Touch.refl ..).put (by simp) (by simp) (by decide) (by decide) (by have := List.mem_range.mp hi; omega) _

theorem tokenDrop_only (g : Nat) : OnlyRegs d (d.tokenDrop g) := OnlyRegs.foldl _ _ fun _ _ _ => (OnlyRegs.refl _).put ..

/-- The part that counts a refused token. -/
def tokenRefused (g : Nat) : Dev :=
  d.modEnc (fun e => { e with refused := lset e.refused g (d.encl.refused.getD g 0 + 1), withheld := if d.encl.refused.getD g 0 + 1 ≥ 5 then lset e.withheld g true else e.withheld })

/-- The part before what an accepted token does. -/
def tokenTaken (g kind : Nat) : Dev :=
  let x := d.modEnc (fun e => { e with refused := lset e.refused g 0 })
  if kind = 4 then x else x.setNonce g none

/-- PRESENT once the enclave is free. -/
def presentDo (w : Who) : Dev :=
  let t := d.tokenOf w.encGrp
  let why := d.tokWhy w.encGrp t
  let x := d.encNote w (why.getD 0) w.encGrp (tokRecord t why)
  match why with
  | some _ => (((x.tokenRefused w.encGrp).tokenDrop w.encGrp).stat (shp .enc) 2).encEnd w.encGrp why
  | none => ((x.tokenTaken w.encGrp (tokKind t)).tokDo w t).encEnd w.encGrp none

theorem encPresent_eq (w : Who) : d.encPresent w = d.encOne w (fun d => d.presentDo w) := by
  unfold encPresent
  refine congrArg (d.encOne w) (funext fun x => ?_)
  unfold presentDo
  dsimp only
  generalize x.tokWhy w.encGrp (x.tokenOf w.encGrp) = why
  cases why with
  | none => rfl
  | some c => rfl

theorem presentKind_other {w : Who} {kind : Nat} (h : tokKind (d.tokenOf w.encGrp) ≠ kind) : d.presentKind w kind = d := if_neg h

theorem presentKind_same {w : Who} {kind : Nat} (h : tokKind (d.tokenOf w.encGrp) = kind) : d.presentKind w kind = d.encOne w (fun d => d.presentDo w) :=
  (if_pos h).trans (d.encPresent_eq w)

theorem presentDo_refuses (w : Who) {why : Nat} (h : d.tokWhy w.encGrp (d.tokenOf w.encGrp) = some why) :
    ∃ r, d.presentDo w = ((((d.post r).tokenRefused w.encGrp).tokenDrop w.encGrp).stat (shp .enc) 2).encEnd w.encGrp (some why) := by
  unfold presentDo
  extract_lets t why' x
  have hw : why' = some why := h
  rw [hw]
  exact ⟨_, rfl⟩

theorem presentDo_accepts (w : Who) (h : d.tokWhy w.encGrp (d.tokenOf w.encGrp) = none) :
    ∃ r, d.presentDo w = (((d.post r).tokenTaken w.encGrp (tokKind (d.tokenOf w.encGrp))).tokDo w (d.tokenOf w.encGrp)).encEnd w.encGrp none := by
  unfold presentDo
  extract_lets t why' x
  have hw : why' = none := h
  rw [hw]
  exact ⟨_, rfl⟩

theorem refusal_shows {w : Who} {why : Nat} (h : d.tokWhy w.encGrp (d.tokenOf w.encGrp) = some why) (hr : d.encl.refused.length = 3) (hw : d.encl.withheld.length = 3) :
    let e := d.presentDo w
    d.keeps e authPages ∧ e.get (shp .enc) ENC.CMD_ST_STATE 0 w.encGrp = 3 ∧ e.get (shp .enc) ENC.CMD_ST_REASON 0 w.encGrp = why % 2 ^ 8 ∧ e.keys = d.keys ∧
      e.encl.nonce = d.encl.nonce ∧ e.encl.authKey = d.encl.authKey ∧ e.encl.refused.getD w.encGrp 0 = d.encl.refused.getD w.encGrp 0 + 1 ∧
      (d.encl.refused.getD w.encGrp 0 ≥ 4 → e.encl.withheld.getD w.encGrp false = true) := by
  intro e
  have hg := encGrp_lt w
  have h3 := w.encGrp_lt_three
  obtain ⟨r, he⟩ := d.presentDo_refuses w h
  obtain ⟨x, hx⟩ : ∃ x, x = (d.post r).tokenRefused w.encGrp := ⟨_, rfl⟩
  have hxe : x.encl = { d.encl with
      refused := lset d.encl.refused w.encGrp (d.encl.refused.getD w.encGrp 0 + 1)
      withheld := if d.encl.refused.getD w.encGrp 0 + 1 ≥ 5 then lset d.encl.withheld w.encGrp true else d.encl.withheld } := by
    rw [hx, tokenRefused, modEnc, post_encl]
  have hxk : x.keys = d.keys := by
    rw [hx]
    exact post_keys d r
  have hxkeep : d.keeps x authPages := by
    rw [hx]
    exact (keeps_post_iff (by simp [authPages])).mpr (keeps_refl d _)
  obtain ⟨y, hy⟩ : ∃ y, y = (x.tokenDrop w.encGrp).stat (shp .enc) 2 := ⟨_, rfl⟩
  have hyk : x.keeps y authPages := by
    rw [hy]
    exact (keeps_stat_iff (by simp [authPages])).mpr (keeps_mono (x.tokenDrop_touch h3).keeps (by simp [authPages]))
  have hyo : OnlyRegs x y := by
    rw [hy]
    exact (x.tokenDrop_only w.encGrp).put ..
  obtain ⟨hs, hreason⟩ := y.encEnd_refused w.encGrp hg why
  have honly := hyo.trans (y.encEnd_only w.encGrp (some why))
  have hend := keeps_mono (y.encEnd_touch w.encGrp hg (some why)).keeps (qs := authPages) (by simp [authPages])
  have he' : e = y.encEnd w.encGrp (some why) := by rw [hy, hx]; exact he
  rw [he']
  generalize y.encEnd w.encGrp (some why) = z at hs hreason honly hend
  have hze : z.encl = x.encl := by rw [honly]
  rw [hze, hxe]
  refine ⟨keeps_trans hxkeep (keeps_trans hyk hend), hs, hreason, by rw [honly]; exact hxk, rfl, rfl, getD_lset_same _ _ (by omega), fun hfive => ?_⟩
  show (if d.encl.refused.getD w.encGrp 0 + 1 ≥ 5 then lset d.encl.withheld w.encGrp true else d.encl.withheld).getD w.encGrp false = true
  rw [if_pos (by omega)]
  exact getD_lset_same _ _ (by omega)

theorem tokenTaken_shows {g : Nat} (hg : g < 3) (kind : Nat) : let e := d.tokenTaken g kind
    d.keeps e authPages ∧ e.keys = d.keys ∧ e.encl.refused.getD g 0 = 0 ∧ e.encl.authKey = d.encl.authKey ∧ (kind ≠ 4 → e.encl.nonce.getD g none = none) := by
  intro e
  obtain ⟨x, hx⟩ : ∃ x, x = d.modEnc (fun e => { e with refused := lset e.refused g 0 }) := ⟨_, rfl⟩
  have hxe : x.encl = { d.encl with refused := lset d.encl.refused g 0 } := by rw [hx]; rfl
  have hxk : d.keeps x authPages := by rw [hx]; exact keeps_of_eq rfl rfl _
  have hxkeys : x.keys = d.keys := by rw [hx]; rfl
  have he : e = if kind = 4 then x else x.setNonce g none := by rw [hx]; rfl
  rw [he]
  split
  case isTrue h => exact ⟨hxk, hxkeys, by rw [hxe]; exact getD_lset_self .., by rw [hxe], fun hne => absurd h hne⟩
  case isFalse h =>
    refine ⟨keeps_trans hxk (keeps_mono (x.setNonce_touch g (by omega) none).keeps (by simp [authPages])), (x.setNonce_sec g none).keys.trans hxkeys, ?_, ?_, fun _ => ?_⟩
    · rw [setNonce_encl, hxe]; exact getD_lset_self ..
    · rw [setNonce_encl, hxe]
    · rw [setNonce_encl]; exact getD_lset_self ..

theorem acceptance_shows {w : Who} {kind : Nat} (hkind : tokKind (d.tokenOf w.encGrp) = kind) (h : d.tokWhy w.encGrp (d.tokenOf w.encGrp) = none) (h15 : 1 ≤ kind ∧ kind ≤ 5)
    (ha : d.encl.authKey.length = 3) : let g := w.encGrp
    let tok := d.tokenOf g
    let e := d.presentDo w
    d.keeps e authPages ∧ e.get (shp .enc) ENC.CMD_ST_STATE 0 g = 2 ∧ e.encl.refused.getD g 0 = 0 ∧ (kind ≠ 4 → e.encl.nonce.getD g none = none) ∧
      (kind = 1 → e.get (shp .enc) ENC.AUTH_ROLE 0 g = tokRole tok % 2 ^ 3 ∧ e.encl.authKey.getD g none = some (tokKey tok) ∧ e.keys = d.keys) ∧
      (kind = 2 → e.keys = d.keys ++ [⟨tokArg tok 0 1, tokNewKey tok, tokArg tok 1 1⟩]) ∧
      (kind = 3 → e.keys = d.keys.filter (fun k => k.id != BitVec.ofNat 128 (tokArg tok 0 16))) ∧
      (kind = 4 → e.silt.token = some (tokArg tok 0 1, tokArg tok 4 4, tokKey tok, tokAt tok 0x20 8) ∧ e.keys = d.keys) ∧
      (kind = 5 → (tokArg tok 0 1 = 3 → e.get (shp .enc) ENC.LIFE_STATE = 3 ∧ e.keys = [] ∧ e.encl.devKey = false) ∧
        (tokArg tok 0 1 ≠ 3 → e.get (shp .enc) ENC.LIFE_STATE = 2 ∧ e.keys = d.keys)) := by
  intro g tok e
  have hg := encGrp_lt w
  obtain ⟨r, he⟩ := d.presentDo_accepts w h
  obtain ⟨x, hx⟩ : ∃ x, x = (d.post r).tokenTaken g kind := ⟨_, rfl⟩
  obtain ⟨hxk, hxkeys, hxr, hxa, hxn⟩ := (d.post r).tokenTaken_shows w.encGrp_lt_three kind
  rw [show (d.post r).tokenTaken w.encGrp kind = x from hx.symm] at hxk hxkeys hxr hxa hxn
  rw [post_keys] at hxkeys
  rw [post_encl] at hxa
  have hpost : d.keeps (d.post r) authPages := (keeps_post_iff (by simp [authPages])).mpr (keeps_refl d _)
  have hdone := x.tokDo_done (t := tok) w (by rw [hkind]; exact h15) (by rw [hxa]; exact ha)
  obtain ⟨y, hy⟩ : ∃ y, y = x.tokDo w tok := ⟨_, rfl⟩
  rw [← hy] at hdone
  obtain ⟨⟨hyk, hyr, hyn⟩, hauth, hadd, hrev, hclr, hlife⟩ := hdone
  rw [hkind] at hauth hadd hrev hclr hlife
  rw [hxkeys] at hauth hadd hrev hclr hlife
  have hstate := y.encEnd_done g hg
  have honly := y.encEnd_only g none
  have hend := y.encEnd_touch g hg none
  have he' : e = y.encEnd g none := by
    rw [hy, hx, ← hkind]
    exact he
  rw [he']
  generalize y.encEnd g none = z at hstate honly hend
  have hze : z.encl = y.encl := by rw [honly]
  have hzk : z.keys = y.keys := by rw [honly]
  have hzs : z.silt = y.silt := by rw [honly]
  rw [hze, hzk, hzs, hend.get _ ENC.AUTH_ROLE 0 g (by decide) (by decide) (by decide) (by decide) hg,
    hend.get _ ENC.LIFE_STATE 0 0 (by decide) (by decide) (by decide) (by decide) (by decide)]
  exact ⟨keeps_trans hpost (keeps_trans hxk (keeps_trans hyk (keeps_mono hend.keeps (by simp [authPages])))), hstate, hyr ▸ hxr, fun hne => hyn (hxn hne), hauth, hadd, hrev, hclr,
    hlife⟩

end

end Dev

/-! ### The commands by their clauses -/

section
variable {s : State} (hout : s.out = true)
include hout

/-- What a command does while another runs. -/
theorem encBusy_rule {i : Instr} {w : Who} {j : EncJob} (hj : s.dev.encl.job = some j)
    (hi : i = .encNonce (BitVec.ofNat 8 w.mid) ∧ w.mach = false ∨ i = .encClose (BitVec.ofNat 8 w.mid) ∧ w.mach = false ∨ i = .encAttest (BitVec.ofNat 8 w.mid) ∧ w.mach = false ∨
      i = .encCert (BitVec.ofNat 8 w.mid) ∧ w.mach = false ∨
      i = .encInstall (BitVec.ofNat 8 w.mid) w.mach ∧ s.dev.engineer w = true ∧ s.dev.get (shp .bot) BOT.PHASE_CODE ≠ 7 ∨
      i = .encAcceptVersion (BitVec.ofNat 8 w.mid) w.mach ∧ s.dev.engineer w = true ∨
      i = .tokenAuth (BitVec.ofNat 8 w.mid) w.mach ∧ Dev.tokKind (s.dev.tokenOf w.encGrp) = 1) (hmid : w.mid < 256) :
    exec i s = .next { s with dev := s.dev.busyShown w.encGrp j } := by
  have hw : (⟨(BitVec.ofNat 8 w.mid).toNat, w.mach⟩ : Who) = w := by
    rw [BitVec.toNat_ofNat, Nat.mod_eq_of_lt hmid]
  have hrun : ∀ (f : Dev → Who → Dev), f s.dev w = s.dev.busyShown w.encGrp j →
      onDev (fun d => f d ⟨(BitVec.ofNat 8 w.mid).toNat, w.mach⟩) s = .next { s with dev := s.dev.busyShown w.encGrp j } := fun f hf => by
    rw [hw, onDev_out (fun d => f d w) hout, hf]
  rcases hi with ⟨rfl, hm⟩ | ⟨rfl, hm⟩ | ⟨rfl, hm⟩ | ⟨rfl, hm⟩ | ⟨rfl, he, hph⟩ | ⟨rfl, he⟩ | ⟨rfl, hk⟩
  · rw [hm] at hrun
    exact hrun Dev.encNonce (by rw [Dev.encNonce_eq, Dev.encOne_busy hj])
  · rw [hm] at hrun
    exact hrun Dev.encClose (by rw [Dev.encClose_eq, Dev.encOne_busy hj])
  · rw [hm] at hrun
    exact hrun Dev.encAttest (by rw [Dev.encAttest_eq, Dev.encOne_busy hj])
  · rw [hm] at hrun
    exact hrun Dev.encCert (by rw [Dev.encCert_eq, Dev.encOne_busy hj])
  · exact hrun Dev.encInstall (by rw [Dev.encInstall_eq _ he hph, Dev.encOne_busy hj])
  · exact hrun Dev.acceptVersion (by rw [Dev.acceptVersion_eq _ he, Dev.encOne_busy hj])
  · exact hrun (fun d w => d.presentKind w 1) (by rw [Dev.presentKind_same _ hk, Dev.encOne_busy hj])

/-- A token of one kind in the port of its group. -/
theorem token_run {i : Instr} {kind : Nat} {mid : BitVec 8} {mach : Bool}
    (hi : i = .tokenAuth mid mach ∧ kind = 1 ∨ i = .tokenKeyAdd mid mach ∧ kind = 2 ∨ i = .tokenKeyRevoke mid mach ∧ kind = 3 ∨ i = .tokenSiltClear mid mach ∧ kind = 4 ∨
      i = .tokenLifecycle mid mach ∧ kind = 5) :
    exec i s = .next { s with dev := s.dev.presentKind ⟨mid.toNat, mach⟩ kind } ∧ 1 ≤ kind ∧ kind ≤ 5 := by
  rcases hi with ⟨rfl, rfl⟩ | ⟨rfl, rfl⟩ | ⟨rfl, rfl⟩ | ⟨rfl, rfl⟩ | ⟨rfl, rfl⟩
  · exact ⟨onDev_out (fun d => d.presentKind ⟨mid.toNat, mach⟩ 1) hout, by decide⟩
  · exact ⟨onDev_out (fun d => d.presentKind ⟨mid.toNat, mach⟩ 2) hout, by decide⟩
  · exact ⟨onDev_out (fun d => d.presentKind ⟨mid.toNat, mach⟩ 3) hout, by decide⟩
  · exact ⟨onDev_out (fun d => d.presentKind ⟨mid.toNat, mach⟩ 4) hout, by decide⟩
  · exact ⟨onDev_out (fun d => d.presentKind ⟨mid.toNat, mach⟩ 5) hout, by decide⟩

end

/-- Settles O55: one operation at a time, and each operation of the enclave by what it leaves in the registers and the data of its group. -/
theorem enclaveOperations : Obligations.EnclaveOperations := by
  unfold Obligations.EnclaveOperations
  intro s hsh e
  obtain ⟨hnonce, hrefused, hwithheld, hauth⟩ : s.dev.encl.nonce.length = 3 ∧ s.dev.encl.refused.length = 3 ∧ s.dev.encl.withheld.length = 3 ∧ s.dev.encl.authKey.length = 3 := by
    simp only [Dev.shaped, Bool.and_eq_true, beq_iff_eq] at hsh
    tauto
  refine ⟨fun sensor => tamper_rule s sensor, fun hout => ⟨?_, fun hfree => ⟨fun mid => ?_, ?_, ?_⟩, ?_, fun g => ?_⟩⟩
  · intro i w j hj hi hmid
    have hrun := encBusy_rule hout hj hi hmid
    obtain ⟨hk, hreason, hcode, hstate⟩ := s.dev.busyShown_shows (Dev.encGrp_lt w) j
    have honly := s.dev.busyShown_only w.encGrp j
    generalize s.dev.busyShown w.encGrp j = x at hrun hk hreason hcode hstate honly
    exact ⟨_, hrun, rfl, hk, by rw [State.dev_mk, honly], by rw [State.dev_mk, honly], hreason, hcode, hstate⟩
  · have hone := fun f => Dev.encOne_free (d := s.dev) hfree ⟨mid.toNat, false⟩ f
    have hg := Dev.encGrp_lt ⟨mid.toNat, false⟩
    refine ⟨⟨_, onDev_out (fun d => d.encNonce ⟨mid.toNat, false⟩) hout, rfl, ?_⟩, ⟨_, onDev_out (fun d => d.encClose ⟨mid.toNat, false⟩) hout, rfl, ?_⟩,
      ⟨_, onDev_out (fun d => d.encAttest ⟨mid.toNat, false⟩) hout, rfl, ?_⟩, ⟨_, onDev_out (fun d => d.encCert ⟨mid.toNat, false⟩) hout, rfl, ?_⟩⟩
    · rw [State.dev_mk, Dev.encNonce_eq, hone]
      exact s.dev.nonceDo_shows _ hnonce
    · rw [State.dev_mk, Dev.encClose_eq, hone]
      exact s.dev.closed_shows _ hg
    · rw [State.dev_mk, Dev.encAttest_eq, hone]
      obtain ⟨hk, hs, he⟩ := s.dev.encBusy_shows hg (.attest (Who.encGrp ⟨mid.toNat, false⟩) (s.dev.attReport (Who.encGrp ⟨mid.toNat, false⟩)))
      exact ⟨hk, hs, by rw [he]⟩
    · rw [State.dev_mk, Dev.encCert_eq, hone]
      exact s.dev.cert_shows _ (s.dev.get_lt (by decide))
  · intro i kind mid mach hi g tok
    obtain ⟨hrun, h15⟩ := token_run hout hi
    refine ⟨fun hne => ?_, fun hk => ⟨_, hrun, rfl, ?_⟩⟩
    · rw [Dev.presentKind_other _ hne] at hrun
      exact hrun
    · have hdo : s.dev.presentKind ⟨mid.toNat, mach⟩ kind = s.dev.presentDo ⟨mid.toNat, mach⟩ := (Dev.presentKind_same _ hk).trans (Dev.encOne_free hfree _ _)
      rw [State.dev_mk, hdo]
      cases hwhy : s.dev.tokWhy g tok with
      | some why =>
        obtain ⟨hkeep, hall⟩ := s.dev.refusal_shows hwhy hrefused hwithheld
        generalize s.dev.presentDo ⟨mid.toNat, mach⟩ = x at hkeep hall
        exact ⟨hkeep, fun why' h => Option.some.inj h ▸ hall, nofun⟩
      | none =>
        obtain ⟨hkeep, hall⟩ := s.dev.acceptance_shows hk hwhy h15 hauth
        generalize s.dev.presentDo ⟨mid.toNat, mach⟩ = x at hkeep hall
        exact ⟨hkeep, nofun, fun _ => hall⟩
  · intro mid mach w a sl
    refine ⟨fun heng hph => ⟨_, onDev_out (fun d => d.encInstall w) hout, rfl, ?_⟩, fun heng => ⟨_, onDev_out (fun d => d.acceptVersion w) hout, rfl, ?_⟩⟩
    · rw [State.dev_mk, Dev.encInstall_eq _ heng hph, Dev.encOne_free hfree]
      exact s.dev.installDo_shows w hfree
    · rw [State.dev_mk, Dev.acceptVersion_eq _ heng, Dev.encOne_free hfree]
      exact s.dev.acceptDo_shows w
  · intro i mid mach hi w heng
    rcases hi with rfl | rfl
    · refine ⟨_, onDev_out (fun d => d.encInstall w) hout, rfl, ?_⟩
      rw [State.dev_mk, Dev.encInstall_priv _ heng]
      exact s.dev.encPriv_shows w 6
    · refine ⟨_, onDev_out (fun d => d.acceptVersion w) hout, rfl, ?_⟩
      rw [State.dev_mk, Dev.acceptVersion_priv _ heng]
      exact s.dev.encPriv_shows w 7
  · have hg : g.val < 65536 := Nat.lt_trans g.isLt (by decide)
    refine ⟨fun r hj => ⟨_, onDev_out (fun d => d.attestDone) hout, rfl, s.dev.attestDone_shows hj⟩, ⟨_, onDev_out (fun d => d.repRead g.val) hout, rfl, s.dev.repRead_shows hg⟩,
      fun v => ?_, fun h => ?_, fun h => ?_, ?_, ?_,
      fun a sl ok hj hwf => installDone_rule hout g hj hwf⟩
    · intro a ha
      exact ⟨_, onDev_out (fun d => d.tokWrite g.val v.toNat) hout, rfl, s.dev.tokWrite_shows g.isLt v.isLt ha⟩
    · have hrun := onDev_out (fun d => d.authClose g.val) hout
      rw [s.dev.authClose_none g h] at hrun
      exact hrun
    · obtain ⟨hleft, hkey⟩ := s.dev.authClose_shows g hg h
      exact ⟨_, onDev_out (fun d => d.authClose g.val) hout, rfl, (s.dev.authClose_touch g hg).keeps, s.dev.authClose_role g hg, hleft, hkey⟩
    · refine ⟨_, onDev_out (fun d => d.setNonce g.val none) hout, rfl, (s.dev.setNonce_touch g hg none).keeps, ?_, fun k => ?_⟩
      · rw [State.dev_mk, Dev.setNonce_encl]
        exact getD_lset_self ..
      · refine (s.dev.setNonce_word g hg none k.isLt).trans ?_
        rw [show (none.getD 0 : BitVec 128).toNat = 0 from rfl, Nat.zero_div, Nat.zero_mod]
    · exact ⟨_, onDev_out (fun d => d.modEnc (fun e => { e with withheld := lset e.withheld g.val false, refused := lset e.refused g.val 0 })) hout, rfl, rfl, rfl, getD_lset_self ..,
        getD_lset_self ..⟩

end Sys2Proof.Machine
end

section
/-! PROOFS. Registers that stand while others are written: the cycle count of a half, its state, and the lease (R315, R344, R347). -/
namespace Sys2Proof.Machine

open Sys2Proof

/-- The registers of a half's executive and state that the events of a cycle, a takeover or a stop are watched at. -/
def halfSeats (h : HalfId) : List (Nat × Fld) :=
  [CYX.CNT_CYCLE, CYX.STATE_CODE, CYX.STATE_COLD, CYX.STATE_FIRST, CYX.CYC_LAST_US, HDR.ERR_CODE].map (fun f => (ctl .cyx h, f)) ++
    [HLF.STATE_OWN, HLF.STATE_CAUSE, HLF.TAKE_COLD, HLF.GAP_US].map (fun f => (ctl .hlf h, f))

/-- The registers of the Weir that are watched besides. -/
def weirSeats : List (Nat × Fld) :=
  [WIR.LEASE_VALID, WIR.LEASE_HOLDER, WIR.LEASE_EPOCH, WIR.GRANTS_COUNT, WIR.SAFE_NOHOLD, HDR.ERR_CODE].map (fun f => (shp .wir, f))

/-- Every register that is watched. -/
def allSeats : List (Nat × Fld) := halfSeats .a ++ halfSeats .b ++ weirSeats

/-- Those of them that no error of a page and no start of a program moves. -/
def countSeats : List (Nat × Fld) :=
  [(ctl .cyx .a, CYX.CNT_CYCLE), (ctl .cyx .b, CYX.CNT_CYCLE)]

/-- What a takeover leaves to the half that takes over: its lease and what it shows of the takeover. -/
def leaseSeats : List (Nat × Fld) :=
  [HLF.STATE_OWN, HLF.TAKE_COLD, HLF.GAP_US].flatMap (fun f => [(ctl .hlf .a, f), (ctl .hlf .b, f)]) ++
    [WIR.LEASE_VALID, WIR.LEASE_HOLDER, WIR.LEASE_EPOCH, WIR.GRANTS_COUNT].map (fun f => (shp .wir, f))

/-- A list of registers of pages up to that of the Weir, each whole inside its page. -/
def seated (ws : List (Nat × Fld)) : Bool := ws.all fun w => decide (w.1 ≤ shp .wir) && w.2.fits && decide (0 < w.2.cnt)

/-- A field that begins at another bit of a page than every register of the list. -/
def beside (ws : List (Nat × Fld)) (f : Fld) : Bool := ws.all fun w => decide (f.off ≠ w.2.off ∨ f.lo ≠ w.2.lo)

/-- A field of a page that begins at another bit than every register of the list on that page. -/
def besideOn (ws : List (Nat × Fld)) (p : Nat) (f : Fld) : Bool := ws.all fun w => decide (p ≠ w.1 ∨ f.off ≠ w.2.off ∨ f.lo ≠ w.2.lo)

/-- A page that has no register of the list. -/
def offPage (ws : List (Nat × Fld)) (p : Nat) : Bool := ws.all fun w => decide (w.1 ≠ p)

namespace Dev

/-- A part in which the registers of a list read as they do in another. -/
structure Seats (ws : List (Nat × Fld)) (d e : Dev) : Prop where
  get : ∀ w ∈ ws, e.get w.1 w.2 = d.get w.1 w.2

namespace Seats

variable {ws vs : List (Nat × Fld)} {d e x : Dev}

theorem refl (ws : List (Nat × Fld)) (d : Dev) : Seats ws d d := ⟨fun _ _ => rfl⟩

theorem trans (s : Seats ws d e) (t : Seats ws e x) : Seats ws d x := ⟨fun w hw => (t.get w hw).trans (s.get w hw)⟩

theorem mono (s : Seats ws d e) (hs : ∀ w ∈ vs, w ∈ ws) : Seats vs d e := ⟨fun w hw => s.get w (hs w hw)⟩

theorem same (s : Seats ws d e) (hr : x.regs = e.regs) : Seats ws d x := ⟨fun w hw => (get_congr hr ..).trans (s.get w hw)⟩

/-- A field of another place of its page, at its first entry, is none of the list, whatever page it stands on. -/
theorem put (s : Seats ws d e) (hws : seated ws = true) {f : Fld} (hf : f.fits = true) (hb : beside ws f = true) (p v : Nat) {t : Nat} (ht : t < 65536) :
    Seats ws d (e.put p f v 0 t) := by
  refine ⟨fun w hw => ?_⟩
  refine (get_put_ne _ _ _ _ _ _ _ _ _ _ fun he => ?_).trans (s.get w hw)
  have hfit := of_decide_eq_true hf
  have hne := of_decide_eq_true (List.all_eq_true.mp hb w hw)
  obtain ⟨⟨-, hg⟩, -⟩ : (w.1 ≤ shp .wir ∧ w.2.fits = true) ∧ 0 < w.2.cnt := by simpa [seated] using List.all_eq_true.mp hws w hw
  have hgit := of_decide_eq_true hg
  rw [fkey_eq, fkey_eq] at he
  omega

/-- A field of another place of its page, or of another page, at its first entry. -/
theorem putAt (s : Seats ws d e) (hws : seated ws = true) {p : Nat} {f : Fld} (hf : f.fits = true) (hb : besideOn ws p f = true) (v : Nat) : Seats ws d (e.put p f v) := by
  refine ⟨fun w hw => ?_⟩
  refine (get_put_ne _ _ _ _ _ _ _ _ _ _ fun he => ?_).trans (s.get w hw)
  have hfit := of_decide_eq_true hf
  have hne := of_decide_eq_true (List.all_eq_true.mp hb w hw)
  obtain ⟨⟨-, hg⟩, -⟩ : (w.1 ≤ shp .wir ∧ w.2.fits = true) ∧ 0 < w.2.cnt := by simpa [seated] using List.all_eq_true.mp hws w hw
  have hgit := of_decide_eq_true hg
  rw [fkey_eq, fkey_eq] at he
  omega

/-- A step over pages that have none of the list. -/
theorem of_keeps (hws : seated ws = true) {ps : List Nat} (hk : d.keeps e ps) (hp : ps.all (offPage ws) = true) : Seats ws d e := by
  refine ⟨fun w hw => ?_⟩
  obtain ⟨⟨-, hg⟩, hc⟩ : (w.1 ≤ shp .wir ∧ w.2.fits = true) ∧ 0 < w.2.cnt := by simpa [seated] using List.all_eq_true.mp hws w hw
  refine get_of_keeps hk hg hc (by decide) fun hmem => ?_
  exact of_decide_eq_true (List.all_eq_true.mp (List.all_eq_true.mp hp _ hmem) w hw) rfl

/-- A page after that of the Weir has none of the list, whatever field and entry is written. -/
theorem putLater (s : Seats ws d e) (hws : seated ws = true) {p : Nat} (hp : shp .wir < p) (f : Fld) (v i t : Nat) : Seats ws d (e.put p f v i t) := by
  refine ⟨fun w hw => ?_⟩
  obtain ⟨⟨hle, hg⟩, hc⟩ : (w.1 ≤ shp .wir ∧ w.2.fits = true) ∧ 0 < w.2.cnt := by simpa [seated] using List.all_eq_true.mp hws w hw
  exact (get_put_later e v (Nat.lt_of_le_of_lt hle hp) hg hc (by decide)).trans (s.get w hw)

/-- A page that has none of the list. -/
theorem putPage (s : Seats ws d e) (hws : seated ws = true) {p : Nat} (hp : offPage ws p = true) {f : Fld} (hf : f.fits = true) {i : Nat} (hi : i < f.cnt) (v : Nat)
    {t : Nat} (ht : t < 65536) : Seats ws d (e.put p f v i t) := by
  refine ⟨fun w hw => ?_⟩
  obtain ⟨⟨-, hg⟩, hc⟩ : (w.1 ≤ shp .wir ∧ w.2.fits = true) ∧ 0 < w.2.cnt := by simpa [seated] using List.all_eq_true.mp hws w hw
  exact (get_put_other _ _ (Ne.symm (of_decide_eq_true (List.all_eq_true.mp hp w hw))) hf hg hi hc ht (by decide)).trans (s.get w hw)

theorem stat (s : Seats ws d e) (hws : seated ws = true) (hb : beside ws HDR.STAT_BLOCK = true) (p k : Nat) : Seats ws d (e.stat p k) :=
  s.put hws (by decide) hb _ _ (by decide)

theorem err (s : Seats ws d e) (hws : seated ws = true) (hb : (beside ws HDR.ERR_COUNT && beside ws HDR.ERR_CODE && beside ws HDR.ERR_DETAIL) = true) (p c y : Nat) :
    Seats ws d (e.err p c y) := by
  obtain ⟨⟨h1, h2⟩, h3⟩ : (beside ws HDR.ERR_COUNT = true ∧ beside ws HDR.ERR_CODE = true) ∧ beside ws HDR.ERR_DETAIL = true := by simpa using hb
  exact ((s.put hws (by decide) h1 _ _ (by decide)).put hws (by decide) h2 _ _ (by decide)).put hws (by decide) h3 _ _ (by decide)

theorem post (s : Seats ws d e) (hws : seated ws = true) (r : Rec) : Seats ws d (e.post r) := by
  refine ⟨fun w hw => ?_⟩
  obtain ⟨⟨hle, hg⟩, hc⟩ : (w.1 ≤ shp .wir ∧ w.2.fits = true) ∧ 0 < w.2.cnt := by simpa [seated] using List.all_eq_true.mp hws w hw
  exact (get_post_other _ _ (Nat.ne_of_lt (Nat.lt_of_le_of_lt hle (by decide))) hg hc (by decide)).trans (s.get w hw)

theorem note (s : Seats ws d e) (hws : seated ws = true) (p cls code det : Nat) (words : List Nat) : Seats ws d (e.note p cls code det words) := s.post hws _

theorem ite {c : Prop} [Decidable c] (s : c → Seats ws d e) (t : ¬ c → Seats ws d x) : Seats ws d (if c then e else x) := by
  split
  case isTrue hc => exact s hc
  case isFalse hc => exact t hc

theorem foldl {α : Type} {f : Dev → α → Dev} : ∀ (l : List α) (d : Dev), (∀ d, ∀ y ∈ l, Seats ws d (f d y)) → Seats ws d (l.foldl f d)
  | [], d, _ => refl ws d
  | y :: l, d, hf => (hf d y List.mem_cons_self).trans (foldl l _ fun d z hz => hf d z (List.mem_cons_of_mem _ hz))

theorem both {f : Dev → HalfId → Dev} (hf : ∀ d h, Seats ws d (f d h)) (d : Dev) : Seats ws d (d.both f) := (hf d .a).trans (hf _ .b)

end Seats

end Dev

end Sys2Proof.Machine
end

section
/-! PROOFS. What the safe state of the field outputs and a device stop leave (R347, R349, R430). -/
namespace Sys2Proof.Machine

open Sys2Proof

theorem allSeats_seated : seated allSeats = true := by decide
theorem leaseSeats_seated : seated leaseSeats = true := by decide
theorem countSeats_seated : seated countSeats = true := by decide

namespace Dev

section
variable {ws : List (Nat × Fld)} (hws : seated ws = true)
include hws

theorem seats_noteConfig (d : Dev) (e : Staged) (code reason old new seq bnd : Nat) : Seats ws d (d.noteConfig e code reason old new seq bnd) :=
  .ite (fun _ => .refl ..) fun _ => (Seats.refl ws d).post hws _

theorem seats_markEvent_later {p : Nat} (hp : shp .wir < p) (d : Dev) (half : Option HalfId) (seq : Nat) : Seats ws d (d.markEvent p half seq) := by
  cases half with
  | none => exact (Seats.refl ws d).putLater hws hp ..
  | some h => exact ((((Seats.refl ws d).putLater hws hp ..).putLater hws hp ..).putLater hws hp ..).putLater hws hp ..

/-- An event of a page after that of the Weir, whatever is staged there. -/
theorem seats_applyPage_later {p : Nat} (hp : shp .wir < p) (d : Dev) (half : Option HalfId) (rules : View → List RuleFail) (bnd seq : Nat) :
    Seats ws d (d.applyPage p half rules bnd seq) := by
  unfold applyPage
  extract_lets ct x st ready view fails why held ok gone d1 d2 d3 d4
  have hx : Seats ws d x := seats_markEvent_later hws hp ..
  have h1 : Seats ws d d1 := by
    refine Seats.trans (hx.same ?_) (.foldl _ _ fun y e _ => (Seats.refl ws y).putLater hws hp ..)
    rfl
  have h2 : Seats ws d d2 := h1.trans (.foldl _ _ fun y e _ => .ite (fun _ => .refl ..) fun _ => seats_noteConfig hws ..)
  have h3 : Seats ws d d3 := h2.trans (.foldl _ _ fun y e _ => seats_noteConfig hws ..)
  have h4 : Seats ws d d4 := .ite (fun _ => h3) fun _ => h3.putLater hws hp ..
  refine .ite (fun _ => (hx.putLater hws hp ..).putLater hws hp ..) fun _ => .ite (fun _ => (hx.putLater hws hp ..).putLater hws hp ..) fun _ => ?_
  split
  · exact ((h4.putLater hws hp ..).putLater hws hp ..).putLater hws hp ..
  · exact (h4.putLater hws hp ..).putLater hws hp ..

theorem seats_aoDrive (d : Dev) (c : Nat) : Seats ws d (d.aoDrive c) := by
  have hp : shp .wir < shp .aout := by decide
  unfold aoDrive
  extract_lets p x lost t f y
  have hy : Seats ws d y := (Seats.refl ws d).same rfl
  exact ((((hy.putLater hws hp ..).putLater hws hp ..).putLater hws hp ..).putLater hws hp ..).putLater hws hp ..

theorem seats_trimEnd (d : Dev) : Seats ws d d.trimEnd := by
  have hp : shp .wir < shp .trm := by decide
  exact .ite (fun _ => .refl ..) fun _ => ((((Seats.refl ws d).putLater hws hp ..).putLater hws hp ..).putLater hws hp ..).putLater hws hp ..

end

section
variable {ws : List (Nat × Fld)} (hws : seated ws = true) (hb : (beside ws WIR.OUT_DIG_BITS && beside ws WIR.OUT_STP_BITS && beside ws WIR.SAFE_CNT_COUNT) = true)
include hws hb

theorem seats_fioDrive (d : Dev) : Seats ws d d.fioDrive := by
  have hp : shp .wir < shp .dout := by decide
  obtain ⟨⟨hdig, -⟩, -⟩ : (beside ws WIR.OUT_DIG_BITS = true ∧ beside ws WIR.OUT_STP_BITS = true) ∧ beside ws WIR.SAFE_CNT_COUNT = true := by simpa using hb
  refine Seats.trans ?_ (.foldl _ _ fun y c _ => seats_aoDrive hws y c)
  exact (((((Seats.refl ws d).putLater hws hp ..).putLater hws hp ..).putLater hws hp ..).put hws (by decide) hdig _ _ (by decide)).putLater hws hp ..

theorem seats_stpShow (d : Dev) : Seats ws d d.stpShow := by
  obtain ⟨⟨-, hstp⟩, -⟩ : (beside ws WIR.OUT_DIG_BITS = true ∧ beside ws WIR.OUT_STP_BITS = true) ∧ beside ws WIR.SAFE_CNT_COUNT = true := by simpa using hb
  exact (Seats.refl ws d).put hws (by decide) hstp _ _ (by decide)

theorem seats_stpSafe (d : Dev) : Seats ws d d.stpSafe := by
  unfold stpSafe
  extract_lets pins
  exact Seats.trans (e := { d with stpPins := pins }) ((Seats.refl ws d).same rfl) (seats_stpShow hws hb _)

theorem seats_applyTrm (d : Dev) (half : HalfId) : Seats ws d (d.applyTrm half) := by
  have hp : shp .wir < shp .trm := by decide
  have h1 : Seats ws d ((d.nextImm (shp .trm)).2.applyPage (shp .trm) (some half) ((d.nextImm (shp .trm)).2.trmRules) 6 (d.nextImm (shp .trm)).1) :=
    ((Seats.refl ws d).same (x := (d.nextImm (shp .trm)).2) rfl).trans (seats_applyPage_later hws hp ..)
  exact .ite (fun _ => h1) fun _ => (h1.putLater hws hp ..).trans (seats_fioDrive hws hb _)

theorem seats_trimRelease (d : Dev) : Seats ws d d.trimRelease :=
  .ite (fun _ => (seats_applyTrm hws hb ..).trans (seats_fioDrive hws hb _)) fun _ => seats_fioDrive hws hb _

theorem seats_fioSafe (d : Dev) (c : Nat) : Seats ws d (d.fioSafe c) := by
  have hp : shp .wir < shp .dout := by decide
  have hq : shp .wir < shp .aout := by decide
  obtain ⟨-, hcnt⟩ : (beside ws WIR.OUT_DIG_BITS = true ∧ beside ws WIR.OUT_STP_BITS = true) ∧ beside ws WIR.SAFE_CNT_COUNT = true := by simpa using hb
  unfold fioSafe
  extract_lets was sel f x y z
  have hx : Seats ws d x := (Seats.refl ws d).same rfl
  have hy : Seats ws d y := .ite (fun _ => (((hx.putLater hws hp ..).putLater hws hq ..).put hws (by decide) hcnt _ _ (by decide)).trans (seats_trimEnd hws _)) fun _ => hx
  have hz : Seats ws d z := .ite (fun _ => hy.trans (seats_stpSafe hws hb _)) fun _ => hy
  exact .ite (fun _ => hz.trans (seats_trimRelease hws hb _)) fun _ => hz.trans (seats_fioDrive hws hb _)

end

end Dev

end Sys2Proof.Machine
end

section
/-! PROOFS. Without a grant the device stops (R23, R349). -/
namespace Sys2Proof.Machine

open Sys2Proof

namespace Dev

variable (d : Dev)

theorem OneOnly.deviceStop : OneOnly d d.deviceStop := by
  refine OneOnly.foldl _ d fun e n hn => ?_
  split
  · exact OneOnly.spStop e (List.mem_range.mp hn) _ _
  · exact OneOnly.refl e

/-- A device stop stops every car that moves. -/
theorem deviceStop_stops {n : Nat} (hn : n < 4) (hl : n < d.saf.sp.length) (hrun : d.safRun = true) (hcar : d.safCar n = true) (hmv : d.pairMoves n = true) :
    bitN (d.deviceStop.sp n).causes 0x14 = 1 := by
  refine foldl_reach (P := fun x : Dev => bitN (x.sp n).causes 0x14 = 1) (Q := fun x => Stopped d x) (x := n) _ d (fun x m hm hx => hx.trans ?_) (fun x m hm hx => ?_)
    (List.mem_range.mpr hn) (fun x hx => ?_) (Stopped.refl d)
  · split
    · exact Stopped.spStop x _ _ _ (List.mem_range.mp hm)
    · exact Stopped.refl x
  · split
    · exact ((Stopped.spStop x _ _ _ (List.mem_range.mp hm)).sp n).causes 0x14 hx
    · exact hx
  · rw [if_pos ((pairMoves_of_within hx.within (by decide) hx.copies.1 hx.cars.blk hn).trans hmv)]
    exact spStop_latches _ _ _ _ hn (by rw [hx.cars.spLen]; exact hl) ((hx.safRun stopWs_evalReads).trans hrun) ((hx.cars.safCar n).trans hcar)

theorem seats_deviceStop {ws : List (Nat × Fld)} (hc : ws.all (fun w => clearOf stopWs w.1 w.2 && decide (w.1 ≠ shp .slt) && w.2.fits && decide (0 < w.2.cnt)) = true) :
    Seats ws d d.deviceStop := by
  refine ⟨fun w hw => ?_⟩
  obtain ⟨⟨⟨h1, h2⟩, h3⟩, h4⟩ : ((clearOf stopWs w.1 w.2 = true ∧ w.1 ≠ shp .slt) ∧ w.2.fits = true) ∧ 0 < w.2.cnt := by
    simpa using List.all_eq_true.mp hc w hw
  exact (OneOnly.deviceStop d).stop.within.get _ _ _ _ h2 h1 h3 h4 (by decide)

/-- No motion intent arrives: what O44 says of the stop. -/
theorem intentTimeout_rule (s : State) (hout : s.out = true) (n : Fin 4) (hsh : s.dev.shaped = true) (hrun : s.dev.safRun = true) (hcar : s.dev.safCar n = true)
    (hmv : s.dev.pairMoves n = true) :
    ∃ t, exec .intentTimeout s = .next t ∧ t.pending = s.pending ∧ bitN (t.dev.sp n).causes 0x14 = 1 ∧
      (bitN (s.dev.sp n).causes 0x14 = 0 → bitN (s.dev.get (shp .sfc) SFC.STOPS_CAT0) n = 0 → (s.dev.th n).causes = 0 → bitN (t.dev.get (shp .sfc) SFC.STOPS_CAT1) n = 1) := by
  have hl : (n : Nat) < s.dev.saf.sp.length := by rw [spLen_of_shaped hsh]; exact n.isLt
  have hstop := deviceStop_stops s.dev n.isLt hl hrun hcar hmv
  obtain ⟨e, he⟩ : ∃ e, e = s.dev.deviceStop := ⟨_, rfl⟩
  have hone := OneOnly.deviceStop s.dev
  rw [← he] at hstop hone
  refine ⟨_, next_of_out_eq hout rfl he.symm, rfl, hstop, fun hnew hz ht => ?_⟩
  refine hone.shows n n.isLt 0x14 hnew hstop ?_
  rw [stopStands, hz, ht]
  rfl

/-- The Weir finds no grant. -/
theorem weirNohold_rule (s : State) (hout : s.out = true) : if s.dev.on (shp .wir) WIR.LEASE_VALID = true then exec .weirNohold s = .next s
     else ∃ t, exec .weirNohold s = .next t ∧ t.pending = s.pending ∧ t.dev.get (shp .wir) WIR.SAFE_NOHOLD = 1 ∧ t.dev.get (shp .wir) HDR.ERR_CODE = cWIR_NOHOLD ∧
        bitN t.dev.fio.causes 4 = 1 ∧ t.dev.memories = s.dev.memories := by
  split
  case isTrue h => exact next_of_out_eq hout rfl (show s.dev.noHold = s.dev by rw [noHold]; exact if_pos h)
  case isFalse h =>
    obtain ⟨x, hx⟩ : ∃ x, x = (s.dev.put (shp .wir) WIR.SAFE_NOHOLD 1).fault (shp .wir) cWIR_NOHOLD := ⟨_, rfl⟩
    have he : s.dev.noHold = (x.fioSafe 4).deviceStop := by
      rw [hx]
      exact if_neg h
    have hseats : Seats allSeats x (x.fioSafe 4).deviceStop := (seats_fioSafe allSeats_seated (by decide) x 4).trans (seats_deviceStop _ (by decide))
    have hmem := memories_of_frame (frame_noHold s.dev)
    have halarm : (x.fioSafe 4).deviceStop.alarm = _ := (alarm_deviceStop _).trans (alarm_fioSafe x 4)
    have hnohold : x.get (shp .wir) WIR.SAFE_NOHOLD = 1 := by
      rw [hx, fault, note, get_post_other _ _ (by decide) (by decide) (by decide) (by decide),
        get_err_apart _ _ _ (by decide) (by decide) (by decide) (by decide)]
      exact get_put_same _ _ _ _ _ _ (by decide)
    have hcode : x.get (shp .wir) HDR.ERR_CODE = cWIR_NOHOLD := by
      rw [hx]
      exact fault_code _ _ _ _ (by decide)
    rw [he] at hmem
    refine ⟨_, next_of_out_eq hout rfl he, rfl, ?_⟩
    generalize (x.fioSafe 4).deviceStop = e at *
    exact ⟨(hseats.get (shp .wir, WIR.SAFE_NOHOLD) (by decide)).trans hnohold, (hseats.get (shp .wir, HDR.ERR_CODE) (by decide)).trans hcode,
      (congrArg (fun x => bitN x.2 4) halarm).trans (bitN_setBitN_same _ _ true), hmem⟩

end Dev

end Sys2Proof.Machine
end

section
/-! PROOFS. Renewal, expiry, release and claims of the lease (R344 to R346). -/
namespace Sys2Proof.Machine

open Sys2Proof

namespace Dev

/-! ### The lease ends -/

@[simp] theorem saf_canEnd (d : Dev) (c b result lec why : Nat) : (d.canEnd c b result lec why).saf = d.saf := by
  unfold canEnd
  dsimp only
  split <;> rfl

theorem saf_canNoLease (d : Dev) : d.canNoLease.saf = d.saf := by
  refine foldl_off (g := saf) _ d fun d c _ => foldl_off (g := saf) _ d fun d b _ => ?_
  split
  · exact saf_canEnd ..
  · rfl

theorem saf_showLease (d : Dev) : d.showLease.saf = d.saf := by
  simp only [showLease, both]
  split <;> split <;> rfl

theorem saf_proofLost (d : Dev) : d.proofLost.saf = d.saf := by
  simp only [proofLost, both]
  split <;> split <;> simp only [fault, saf_note, err, bump, stat, orBits, put, modWeir]

theorem saf_leaseInvalid (d : Dev) : d.leaseInvalid.saf = d.saf := by
  unfold leaseInvalid
  dsimp only
  split
  · rfl
  · rw [saf_showLease, saf_canNoLease]
    split
    · exact saf_proofLost d
    · rfl

/-- What the end of the lease leaves: the last holder, and the states of the halves. -/
def endSeats : List (Nat × Fld) := [(shp .wir, WIR.LEASE_HOLDER), (ctl .hlf .a, HLF.STATE_OWN), (ctl .hlf .b, HLF.STATE_OWN)]

theorem seats_proofLost (d : Dev) : Seats endSeats d d.proofLost := by
  have hws : seated endSeats = true := by decide
  unfold proofLost
  extract_lets x one
  refine Seats.trans (e := x) ((Seats.refl endSeats d).same rfl) (Seats.both (fun e h => ?_) x)
  refine Seats.ite (fun _ => ?_) fun _ => .refl ..
  exact (((((Seats.refl _ e).put hws (by decide) (by decide) _ _ (by decide)).put hws (by decide) (by decide) _ _ (by decide)).stat hws (by decide) _ _).err hws (by decide) _ _ _).note hws ..

theorem seats_showLease {ws : List (Nat × Fld)} (hws : seated ws = true) (hb : leaseFields.all (beside ws) = true) (d : Dev) : Seats ws d d.showLease := by
  have hb' (f : Fld) (hf : f ∈ leaseFields) : beside ws f = true := List.all_eq_true.mp hb f hf
  unfold showLease
  extract_lets w one
  refine Seats.both (fun e h => ?_) d
  refine Seats.ite (fun _ => ?_) fun _ => .refl ..
  exact (((Seats.refl _ e).put hws (by decide) (hb' _ (by simp [leaseFields])) _ _ (by decide)).put hws (by decide) (hb' _ (by simp [leaseFields])) _ _ (by decide)).put hws
    (by decide) (hb' _ (by simp [leaseFields])) _ _ (by decide)

theorem seats_leaseInvalid (d : Dev) : Seats endSeats d d.leaseInvalid := by
  have hws : seated endSeats = true := by decide
  refine .ite (fun _ => .refl ..) fun _ => ?_
  have hx : Seats endSeats d (if d.weir.proof.isSome then d.proofLost else d) := .ite (fun _ => seats_proofLost d) fun _ => .refl ..
  exact ((hx.putAt hws (by decide) (by decide) _).trans (.of_keeps hws (keeps_canNoLease _) (by decide))).trans (seats_showLease hws (by decide) _)

theorem weir_hlfTo (d : Dev) (h : HalfId) (st cause : Nat) : (d.hlfTo h st cause).weir = d.weir := by
  have hmod (x : Dev) (g : Hlf → Hlf) : (x.modHlf h g).weir = x.weir := by cases h <;> rfl
  simp only [hlfTo, note, post_weir, putb, put, hmod, stat, orBits]

theorem weir_goStale (d : Dev) (h : HalfId) (cause : Nat) : (d.goStale h cause).weir = d.weir := by
  have hmod (x : Dev) (g : Hlf → Hlf) : (x.modHlf h g).weir = x.weir := by cases h <;> rfl
  unfold goStale
  split
  · rw [hmod, weir_hlfTo]
  · rfl

theorem holder_of_seats {ws : List (Nat × Fld)} {d e : Dev} (h : Seats ws d e) (hm : (shp .wir, WIR.LEASE_HOLDER) ∈ ws) : e.holder = d.holder := by
  rw [holder, holder, on, on, h.get _ hm]

theorem holds_of_lease {d e : Dev} (hv : e.get (shp .wir) WIR.LEASE_VALID = d.get (shp .wir) WIR.LEASE_VALID)
    (hh : e.get (shp .wir) WIR.LEASE_HOLDER = d.get (shp .wir) WIR.LEASE_HOLDER) (h : HalfId) : e.holds h = d.holds h := by
  rw [holds, holds, holder?, holder?, on, on, on, on, hv, hh]

theorem not_holds_of_invalid {d : Dev} (hv : d.on (shp .wir) WIR.LEASE_VALID = false) (h : HalfId) : d.holds h = false := by
  simp [holds, holder?, hv]

theorem hlfState_of_seats {ws : List (Nat × Fld)} {d e : Dev} (h : Seats ws d e) (hm : ∀ q, (ctl .hlf q, HLF.STATE_OWN) ∈ ws) (q : HalfId) : e.hlfState q = d.hlfState q := by
  have hq : e.get (ctl .hlf q) HLF.STATE_OWN = d.get (ctl .hlf q) HLF.STATE_OWN := h.get (ctl .hlf q, HLF.STATE_OWN) (hm q)
  rw [hlfState, hlfState, hq]

/-! ### A half abort -/

/-- A half abort of a half that is in service. -/
theorem halfAbortBy_shows (d : Dev) (h : HalfId) (rel : Bool) (hst : d.hlfState h ≤ 2) {e : Dev} (hgo : d.halfAbortBy h rel true = e) :
    e.hlfState h = 4 ∧ e.get (ctl .hlf h) HLF.STATE_CAUSE = 8 ∧ (e.hlf h).faulted = true ∧ (d.holds h = true → e.holds h = !rel) ∧
      e.hlfState h.other = d.hlfState h.other ∧ e.mram = d.mram := by
  obtain ⟨x, hx⟩ : ∃ x, x = if rel && d.holds h then d.leaseInvalid else d := ⟨_, rfl⟩
  have he : e = (x.hlfOff h 4 8).modHlf h (fun y => { y with faulted := true }) := by
    rw [hx, ← hgo]
    exact if_neg (Nat.not_lt.mpr hst)
  have hseat : Seats endSeats d x := by
    rw [hx]
    exact .ite (fun _ => seats_leaseInvalid d) fun _ => .refl ..
  have hmem : x.mram = d.mram := by
    rw [hx]
    split
    · exact mram_of_memories (memories_of_frame (frame_leaseInvalid d))
    · rfl
  have hshared {f : Fld} (ha : ∀ g ∈ linkFields, g.apart f = true) (hf : f.fits = true) (hc : 0 < f.cnt) : e.get (shp .wir) f = x.get (shp .wir) f := by
    rw [he, get_modHlf, hlfOff, get_halfReset_other _ _ (fun r => by cases r <;> decide) ha hf hc (by decide) (by cases h <;> decide)]
    exact get_of_keeps (keeps_hlfTo x h 4 8) hf hc (by decide) (by cases h <;> decide)
  have hholds : e.holds h = x.holds h := holds_of_lease (hshared (by decide) (by decide) (by decide)) (hshared (by decide) (by decide) (by decide)) h
  refine ⟨?_, ?_, ?_, fun hh => ?_, ?_, ?_⟩
  · rw [he, hlfState, get_modHlf]
    exact hlfState_hlfOff x h 4 8
  · rw [he, get_modHlf, hlfOff, cause_halfReset]
    exact cause_hlfTo x h 4 8
  · rw [he, hlf_modHlf_same]
  · rw [hholds]
    cases rel with
    | true =>
      have hgone : x = d.leaseInvalid := by rw [hx, hh, Bool.and_true, if_pos rfl]
      rw [hgone, not_holds_of_invalid (not_valid_leaseInvalid d) h, Bool.not_true]
    | false =>
      have hsame : x = d := by rw [hx, Bool.false_and, if_neg (by decide)]
      rw [hsame, hh, Bool.not_false]
  · rw [he, hlfState, get_modHlf]
    exact (hlfState_hlfOff_other x h 4 8).trans (hlfState_of_seats hseat (fun q => by cases q <;> decide) _)
  · rw [he]
    exact (mram_of_memories (memories_modHlf ..)).trans ((mram_hlfOff x h 4 8).trans hmem)

end Dev

section
variable {s : State} {h : HalfId} (hout : s.out = true)
include hout

theorem leaseRenewal_keeps (e : BitVec 16) (ha : s.dev.active h = true) (hh : s.dev.holds h = true) (he : s.dev.get (shp .wir) WIR.LEASE_EPOCH = e.toNat) :
    ∃ t, exec (.leaseRenewal h e) s = .next t ∧ t.pending = s.pending ∧ t.dev.holds h = true ∧ t.dev.get (shp .wir) WIR.LEASE_AGE = 0 ∧
      t.dev.get (shp .wir) WIR.RENEW_COUNT = (s.dev.get (shp .wir) WIR.RENEW_COUNT + 1) % 2 ^ 32 ∧ t.dev.weir.ticks = 0 := by
  obtain ⟨x, hx⟩ : ∃ x, x = ((s.dev.wrapUp (shp .wir) WIR.RENEW_COUNT).put (shp .wir) WIR.LEASE_AGE 0).modWeir (fun w => { w with ticks := 0 }) := ⟨_, rfl⟩
  have hgo : s.dev.renewal h e.toNat = match (x.hlf h.other).quiet with
      | some n => if n ≠ x.get (shp .wir) WIR.RENEW_COUNT then x.goStale h.other 5 else x
      | none => x := by
    have hgate : (!s.dev.active h) = false ∧ (!s.dev.holds h) = false ∧ ¬ e.toNat ≠ s.dev.get (shp .wir) WIR.LEASE_EPOCH := ⟨by rw [ha]; rfl, by rw [hh]; rfl, fun hne => hne he.symm⟩
    obtain ⟨h1, h2, h3⟩ := hgate
    rw [hx]
    exact (if_neg (Bool.eq_false_iff.mp h1)).trans ((if_neg (Bool.eq_false_iff.mp h2)).trans (if_neg h3))
  have hcase : s.dev.renewal h e.toNat = x ∨ s.dev.renewal h e.toNat = x.goStale h.other 5 := by
    rw [hgo]
    split
    · split
      · exact .inr rfl
      · exact .inl rfl
    · exact .inl rfl
  have hxget {f : Fld} (hf : f.fits = true) (hc : 0 < f.cnt) (h1 : WIR.RENEW_COUNT.apart f = true) (h2 : WIR.LEASE_AGE.apart f = true) : x.get (shp .wir) f = s.dev.get (shp .wir) f := by
    rw [hx, Dev.get_modWeir, Dev.get_put_field _ _ h2 (by decide) hf (by decide) hc (by decide) (by decide)]
    exact Dev.get_put_field _ _ h1 (by decide) hf (by decide) hc (by decide) (by decide)
  have hage : x.get (shp .wir) WIR.LEASE_AGE = 0 := by
    rw [hx, Dev.get_modWeir]
    exact Dev.get_put_same _ _ _ _ _ _ (by decide)
  have hcount : x.get (shp .wir) WIR.RENEW_COUNT = (s.dev.get (shp .wir) WIR.RENEW_COUNT + 1) % 2 ^ 32 := by
    rw [hx, Dev.get_modWeir, Dev.get_put_field _ _ (by decide) (by decide) (by decide) (by decide) (by decide) (by decide) (by decide)]
    exact Dev.get_put_same _ _ _ _ _ _ (by decide)
  have hticks : x.weir.ticks = 0 := by rw [hx]; rfl
  have hheld : x.holds h = true := (Dev.holds_of_lease (hxget (by decide) (by decide) (by decide) (by decide)) (hxget (by decide) (by decide) (by decide) (by decide)) h).trans hh
  rcases hcase with hc | hc
  · exact ⟨_, next_of_out_eq hout rfl hc, rfl, hheld, hage, hcount, hticks⟩
  · have hget {f : Fld} (hf : f.fits = true) (hc : 0 < f.cnt) : (x.goStale h.other 5).get (shp .wir) f = x.get (shp .wir) f :=
      Dev.get_of_keeps (Dev.keeps_goStale x h.other 5) hf hc (by decide) (by cases h <;> decide)
    refine ⟨_, next_of_out_eq hout rfl hc, rfl, ?_, (hget (by decide) (by decide)).trans hage, (hget (by decide) (by decide)).trans hcount, ?_⟩
    · exact (Dev.holds_of_lease (hget (by decide) (by decide)) (hget (by decide) (by decide)) h).trans hheld
    · rw [← hticks]
      exact congrArg Weir.ticks (Dev.weir_goStale x h.other 5)

theorem leaseExpiry_ends : ∃ t, exec .leaseExpiry s = .next t ∧ t.pending = s.pending ∧
    t.dev.on (shp .wir) WIR.LEASE_VALID = false ∧ t.dev.holder = s.dev.holder ∧ t.dev.fio = s.dev.fio ∧ t.dev.saf = s.dev.saf ∧
    t.dev.memories = s.dev.memories :=
  ⟨_, next_of_out hout rfl, rfl, Dev.not_valid_leaseInvalid s.dev, Dev.holder_of_seats (Dev.seats_leaseInvalid s.dev) (by decide), Dev.fio_leaseInvalid s.dev,
    Dev.saf_leaseInvalid s.dev, Dev.memories_of_frame (Dev.frame_leaseInvalid s.dev)⟩

theorem halfAbort_rule (i : Instr) (rel : Bool) (hi : i = .halfAbort h ∧ rel = true ∨ i = .hclkOutOfRange h rel) :
    (s.dev.hlfState h ≤ 2 → ∃ t, exec i s = .next t ∧ t.pending = s.pending ∧ t.dev.hlfState h = 4 ∧ t.dev.get (ctl .hlf h) HLF.STATE_CAUSE = 8 ∧
      (t.dev.hlf h).faulted = true ∧ (s.dev.holds h = true → t.dev.holds h = !rel) ∧ t.dev.hlfState h.other = s.dev.hlfState h.other ∧
      t.dev.mram = s.dev.mram) ∧
    (s.dev.hlfState h > 2 → exec i s = .next s) := by
  have hrun : exec i s = .next { s with dev := s.dev.halfAbortBy h rel true } := by
    rcases hi with ⟨rfl, rfl⟩ | rfl
    · exact next_of_out hout rfl
    · exact next_of_out hout rfl
  refine ⟨fun hst => ⟨_, hrun, rfl, Dev.halfAbortBy_shows s.dev h rel hst rfl⟩, fun hst => ?_⟩
  have hno : s.dev.halfAbortBy h rel true = s.dev := if_pos hst
  rw [hrun, hno]

end

end Sys2Proof.Machine
end

section
/-! PROOFS. Claims of the lease, and the claim that wins a window (R346). -/
namespace Sys2Proof.Machine

open Sys2Proof

namespace Dev

section
variable (d : Dev) (h : HalfId) {f : Fld} (hf : f.fits = true) (hc : 0 < f.cnt)
include hf hc

theorem weirPage_mirDown : d.mirDown.get (shp .wir) f = d.get (shp .wir) f := by
  have hone (y : Dev) (r : HalfId) : (y.downOne r).get (shp .wir) f = y.get (shp .wir) f :=
    get_of_keeps (keeps_downOne y r) hf hc (by decide) (by cases r <;> decide)
  by_cases hup : d.mirUp = true
  · rw [mirDown_eq d hup, both, hone, hone]
  · rw [mirDown, if_neg hup]

theorem weirPage_halfReset : (d.halfReset h).get (shp .wir) f = d.get (shp .wir) f := by
  have hgone : (d.mirDown.frcGone [h]).regs = d.mirDown.regs := by
    unfold frcGone
    dsimp only
    split <;> rfl
  have hk : (fkey (shp .wir) f 0 0 / pageSpan / 256 != h.n || keptWord h (fkey (shp .wir) f 0 0)) = true := by
    have hpage : fkey (shp .wir) f 0 0 / pageSpan = shp .wir := keyPage_fkey (shp .wir) (inside_of_fits hf hc (by decide))
    have hne : (shp .wir / 256 != h.n) = true := by cases h <;> decide
    rw [hpage, hne, Bool.true_or]
  unfold halfReset
  dsimp only
  rw [get_modHlf, get_put_mir _ (fun r => by cases r <;> decide) hf hc (by decide) _ _ _ (by decide) (by decide), get_setHalf, get]
  dsimp only
  rw [rfFind_filter (fun k => k / pageSpan / 256 != h.n || keptWord h k), if_pos hk, hgone]
  exact weirPage_mirDown d hf hc

/-- The Weir's page is the same when a half goes off. -/
theorem weirPage_hlfOff (st cause : Nat) : (d.hlfOff h st cause).get (shp .wir) f = d.get (shp .wir) f := by
  rw [hlfOff, weirPage_halfReset _ h hf hc]
  exact get_of_keeps (keeps_hlfTo d h st cause) hf hc (by decide) (by cases h <;> decide)

end

/-- The count of the claims of a half that were refused. -/
def refusals : HalfId → Fld
  | .a => WIR.REFUSED_A
  | .b => WIR.REFUSED_B

/-- A refused claim: the fence on the half's line, and the count of its refusals. -/
def refused (d : Dev) (h : HalfId) : Dev :=
  ((d.putBit (shp .wir) WIR.FENCE_LINES h.n true).bump (shp .wir) (refusals h)).fault (shp .wir) cWIR_REFUSED h.n

theorem hlfState_refused (d : Dev) (h q : HalfId) : (d.refused h).hlfState q = d.hlfState q := by
  have hk : d.keeps (d.refused h) [shp .wir, shp .slt] := by
    cases h <;> simp (disch := first | decide | simp) [refused, putBit, bump, keeps_fault_iff, keeps_put_iff]
  exact get_of_keeps hk (by decide) (by decide) (by decide) (by cases q <;> decide)

theorem refused_lines (d : Dev) (h : HalfId) : bitN ((d.refused h).get (shp .wir) WIR.FENCE_LINES) h.n = 1 := by
  have hbit : bitN ((d.putBit (shp .wir) WIR.FENCE_LINES h.n true).get (shp .wir) WIR.FENCE_LINES) h.n = 1 :=
    bit_putBit_same _ _ _ _ _ _ (by decide) (by cases h <;> decide)
  obtain ⟨x, hx⟩ : ∃ x, x = d.putBit (shp .wir) WIR.FENCE_LINES h.n true := ⟨_, rfl⟩
  rw [← hx] at hbit
  rw [← hbit, refused, ← hx, fault, get_note_other _ _ _ _ _ (by decide) (by decide) (by decide) (by decide), get_err_apart _ _ _ (by decide) (by decide) (by decide) (by decide)]
  cases h <;> exact congrArg (bitN · _) (get_put_field _ _ (by decide) (by decide) (by decide) (by decide) (by decide) (by decide) (by decide))

theorem refused_lease (d : Dev) (h : HalfId) {f : Fld} (hf : f.fits = true) (hc : 0 < f.cnt)
    (ha : ∀ g ∈ [WIR.FENCE_LINES, WIR.REFUSED_A, WIR.REFUSED_B] ++ errFields, g.apart f = true) : (d.refused h).get (shp .wir) f = d.get (shp .wir) f := by
  rw [refused, fault, get_note_other _ _ _ _ _ (by decide) hf hc (by decide), get_err_apart _ _ _ (fun g hg => ha g (by simp [hg])) hf hc (by decide)]
  have hmem : refusals h ∈ [WIR.FENCE_LINES, WIR.REFUSED_A, WIR.REFUSED_B] ++ errFields := by cases h <;> simp [refusals]
  rw [bump, get_put_field _ _ (ha _ hmem) (by cases h <;> decide) hf (by cases h <;> decide) hc (by decide) (by decide)]
  exact get_put_field _ _ (ha _ (by simp)) (by decide) hf (by decide) hc (by decide) (by decide)

theorem claim_open {d : Dev} {h : HalfId} (hmay : d.hlfState h ≤ 2 ∨ d.hlfState h = 5 ∧ (d.hlf h).ready = true) (hno : d.holds h = false) :
    ¬ (¬ (d.hlfState h ≤ 2 ∨ d.hlfState h = 5 ∧ (d.hlf h).ready = true) ∨ d.holds h = true) := by
  rintro (hnot | hyes)
  · exact hnot hmay
  · rw [hno] at hyes
    exact Bool.noConfusion hyes

theorem claim_refused {d : Dev} {h : HalfId} (hmay : d.hlfState h ≤ 2 ∨ d.hlfState h = 5 ∧ (d.hlf h).ready = true) (hno : d.holds h = false)
    (hv : d.on (shp .wir) WIR.LEASE_VALID = true) : d.claim h = ((d.refused h).hlfOff h 3 4).showLease := by
  have hgate := claim_open hmay hno
  cases h <;> exact (if_neg hgate).trans (if_pos hv)

/-- A claim that waits for its window. -/
def claimed (d : Dev) (h : HalfId) : Dev :=
  (d.modWeir (fun x => { x with claims := x.claims.filter (fun c => c.1 != h) ++ [(h, (d.get (ctl .hlf h) HLF.EPOCH_KNOWN + 1) % 65536)] })).put (shp .wir) WIR.LEASE_WIN 1

theorem claim_waits {d : Dev} {h : HalfId} (hmay : d.hlfState h ≤ 2 ∨ d.hlfState h = 5 ∧ (d.hlf h).ready = true) (hno : d.holds h = false)
    (hv : d.on (shp .wir) WIR.LEASE_VALID = false) (hst : d.hlfState h ≠ 0) : d.claim h = d.claimed h := by
  have hgate := claim_open hmay hno
  exact (if_neg hgate).trans ((if_neg (Bool.eq_false_iff.mp hv)).trans (if_neg hst))

/-- Of two claims the one with the higher epoch wins, and of equal ones the half that the strap prefers. -/
theorem winner_of_two {d : Dev} {e e' : Nat} (hcl : d.weir.claims = [(.a, e), (.b, e')]) (ha : d.outOfReset .a = true) (hb : d.outOfReset .b = true) :
    d.winner = (if epochHigher e e' = true then some (.a, e) else if epochHigher e' e = true then some (.b, e')
      else if bitN (d.get (shp .bot) BOT.STRAP_RAW) 2 = 1 then some (.b, e') else some (.a, e)) := by
  have hboth : d.weir.claims.filter (fun c => d.outOfReset c.1) = [(.a, e), (.b, e')] := by simp [hcl, ha, hb]
  rw [winner, hboth]
  dsimp only
  by_cases hstrap : bitN (d.get (shp .bot) BOT.STRAP_RAW) 2 = 1
  · simp [hstrap]
  · simp [hstrap]

end Dev

section
variable {s : State} {h : HalfId} (hout : s.out = true)
include hout

theorem standbyClaim_rule (hmay : s.dev.hlfState h ≤ 2 ∨ s.dev.hlfState h = 5 ∧ (s.dev.hlf h).ready = true) (hno : s.dev.holds h = false) :
    (s.dev.on (shp .wir) WIR.LEASE_VALID = true → ∃ t, exec (.standbyClaim h) s = .next t ∧ t.pending = s.pending ∧ t.dev.hlfState h = 3 ∧
      bitN (t.dev.get (shp .wir) WIR.FENCE_LINES) h.n = 1 ∧ t.dev.get (shp .wir) HDR.ERR_CODE = cWIR_REFUSED ∧
      t.dev.on (shp .wir) WIR.LEASE_VALID = true ∧ t.dev.holder = s.dev.holder) ∧
    (s.dev.on (shp .wir) WIR.LEASE_VALID = false → s.dev.hlfState h ≠ 0 → ∃ t, exec (.standbyClaim h) s = .next t ∧ t.pending = s.pending ∧
      (h, (s.dev.get (ctl .hlf h) HLF.EPOCH_KNOWN + 1) % 65536) ∈ t.dev.weir.claims ∧ t.dev.get (shp .wir) WIR.LEASE_WIN = 1 ∧
      t.dev.hlfState h = s.dev.hlfState h ∧ s.dev.keeps t.dev [shp .wir]) := by
  refine ⟨fun hv => ?_, fun hv hst => ?_⟩
  · have hwir {f : Fld} (hf : f.fits = true) (hc : 0 < f.cnt) : (((s.dev.refused h).hlfOff h 3 4).showLease).get (shp .wir) f = (s.dev.refused h).get (shp .wir) f :=
      (Dev.get_of_keeps (Dev.keeps_showLease _) hf hc (by decide) (by decide)).trans (Dev.weirPage_hlfOff _ h hf hc 3 4)
    refine ⟨_, next_of_out_eq hout rfl (Dev.claim_refused hmay hno hv), rfl, ?_, ?_, ?_, ?_, ?_⟩
    · exact (Dev.get_showLease _ (by decide) (by decide) (by decide) (by decide)).trans (Dev.hlfState_hlfOff _ h 3 4)
    · rw [State.dev_mk, hwir (by decide) (by decide)]
      exact Dev.refused_lines s.dev h
    · rw [State.dev_mk, hwir (by decide) (by decide)]
      exact Dev.fault_code _ _ _ _ (by decide)
    · rw [State.dev_mk, Dev.on, hwir (by decide) (by decide), Dev.refused_lease _ _ (by decide) (by decide) (by decide)]
      exact hv
    · rw [State.dev_mk, Dev.holder, Dev.holder, Dev.on, Dev.on, hwir (by decide) (by decide), Dev.refused_lease _ _ (by decide) (by decide) (by decide)]
  · refine ⟨_, next_of_out_eq hout rfl (Dev.claim_waits hmay hno hv hst), rfl, ?_, Dev.get_put_same _ _ _ _ _ _ (by decide), ?_, ?_⟩
    · exact List.mem_append_right _ List.mem_cons_self
    · exact Dev.get_put_other _ _ (by cases h <;> decide) (by decide) (by decide) (by decide) (by decide) (by decide) (by decide)
    · exact (Dev.keeps_put_iff (by simp) (by decide) (by decide) (by decide)).mpr (Dev.keeps_refl _ _)

end

end Sys2Proof.Machine
end

section
/-! PROOFS. Steps of the blocks of a half that leave the watched registers and the executive alone (R97, R128, R213, R356). -/
namespace Sys2Proof.Machine

open Sys2Proof

/-- The fields at which generators, doors, steppers and Shoal show what they do, each the first entry of its page. -/
def blockFields : List Fld :=
  [MPG.STATE_MODE, MPG.TGT_UM, MPG.STATE_DIR, MPG.STATE_SOFT, MPG.STATE_CAUSE, MPG.VCAP_UMS, MPG.STATE_CAP, DAX.STATE_MODE, DAX.STATE_CAUSE, DAX.SP_V_UMS,
    POS.LRN_CTRL_RUN, POS.LRN_STAT_RESULT, POS.SW_STATE_ACT, SHL.SUB_TAIL_IDX, SHL.EVAL_LAST_NS, SHL.EVAL_MAX_NS, SHL.REASSIGN_COUNT, SHL.CARS_LIVE_LO, SHL.CARS_LIVE_HI, WIR.OUT_STP_BITS, HDR.STAT_BLOCK, HDR.ERR_COUNT, HDR.ERR_CODE, HDR.ERR_DETAIL]

/-- A list of registers that the blocks of a half leave alone. -/
def calm (ws : List (Nat × Fld)) : Bool :=
  seated ws && blockFields.all (fun f => f.fits && beside ws f) && ws.all (fun w => decide (w.2.off % 32 ≠ STP.CH_STAT_UNCERT.off % 32))

namespace Dev

/-- A part in which the registers of a list and the executives are as in another. -/
structure Took (ws : List (Nat × Fld)) (d e : Dev) : Prop where
  seats : Seats ws d e
  cyx : ∀ q, e.cyx q = d.cyx q

@[simp] theorem cyx_post (d : Dev) (r : Rec) (q : HalfId) : (d.post r).cyx q = d.cyx q := by cases q <;> simp [cyx, half]

theorem cyx_modHalf (d : Dev) (h : HalfId) (g : Half → Half) (hg : ∀ x, (g x).cyx = x.cyx) (q : HalfId) : (d.modHalf h g).cyx q = d.cyx q := by
  by_cases hq : q = h
  · rw [hq, cyx, half_modHalf_same, hg, cyx]
  · cases h <;> cases q
    · exact absurd rfl hq
    · rfl
    · rfl
    · exact absurd rfl hq

namespace Took

variable {ws : List (Nat × Fld)} {d e x : Dev}

theorem refl (ws : List (Nat × Fld)) (d : Dev) : Took ws d d := ⟨.refl .., fun _ => rfl⟩

theorem trans (s : Took ws d e) (t : Took ws e x) : Took ws d x := ⟨s.seats.trans t.seats, fun q => (t.cyx q).trans (s.cyx q)⟩

theorem same (s : Took ws d e) (hr : x.regs = e.regs) (hc : ∀ q, x.cyx q = e.cyx q) : Took ws d x := ⟨s.seats.same hr, fun q => (hc q).trans (s.cyx q)⟩

theorem modHalf (s : Took ws d e) (h : HalfId) (g : Half → Half) (hg : ∀ x, (g x).cyx = x.cyx) : Took ws d (e.modHalf h g) :=
  s.same (modHalf_regs ..) (cyx_modHalf e h g hg)

theorem modMpg (s : Took ws d e) (h : HalfId) (n : Nat) (g : Mpg → Mpg) : Took ws d (e.modMpg h n g) := s.modHalf h _ fun _ => rfl
theorem modDax (s : Took ws d e) (h : HalfId) (k : Nat) (g : Dax → Dax) : Took ws d (e.modDax h k g) := s.modHalf h _ fun _ => rfl
theorem modStp (s : Took ws d e) (h : HalfId) (c : Nat) (g : StpCh → StpCh) : Took ws d (e.modStp h c g) := s.modHalf h _ fun _ => rfl
theorem modShl (s : Took ws d e) (h : HalfId) (g : Shl → Shl) : Took ws d (e.modShl h g) := s.modHalf h _ fun _ => rfl

theorem ite {c : Prop} [Decidable c] (s : c → Took ws d e) (t : ¬ c → Took ws d x) : Took ws d (if c then e else x) := by
  split
  case isTrue hc => exact s hc
  case isFalse hc => exact t hc

theorem foldl {α : Type} {f : Dev → α → Dev} : ∀ (l : List α) (d : Dev), (∀ d, ∀ y ∈ l, Took ws d (f d y)) → Took ws d (l.foldl f d)
  | [], d, _ => refl ws d
  | y :: l, d, hf => (hf d y List.mem_cons_self).trans (foldl l _ fun d z hz => hf d z (List.mem_cons_of_mem _ hz))

theorem both {f : Dev → HalfId → Dev} (hf : ∀ d h, Took ws d (f d h)) (d : Dev) : Took ws d (d.both f) := (hf d .a).trans (hf _ .b)

section
variable (hcalm : calm ws = true)
include hcalm

theorem seated_of_calm : seated ws = true := by
  simp only [calm, Bool.and_eq_true] at hcalm
  exact hcalm.1.1

/-- A field that shows what a block does, on whatever page. -/
theorem put (s : Took ws d e) {f : Fld} (hm : blockFields.contains f = true) (p v : Nat) : Took ws d (e.put p f v) := by
  have hall := hcalm
  simp only [calm, Bool.and_eq_true] at hall
  obtain ⟨⟨hws, hfs⟩, -⟩ := hall
  have hf := List.all_eq_true.mp hfs f (List.contains_iff_mem.mp hm)
  rw [Bool.and_eq_true] at hf
  exact ⟨s.seats.put hws hf.1 hf.2 p v (by decide), fun q => (cyx_put ..).trans (s.cyx q)⟩

theorem stat (s : Took ws d e) (p k : Nat) : Took ws d (e.stat p k) := s.put hcalm (by decide) ..

theorem err (s : Took ws d e) (p c y : Nat) : Took ws d (e.err p c y) :=
  ((s.put hcalm (by decide) _ _).put hcalm (by decide) _ _).put hcalm (by decide) _ _

/-- The mark of an uncertain channel, whatever channel an axis names. -/
theorem putUncertain (s : Took ws d e) (p v c : Nat) : Took ws d (e.put p STP.CH_STAT_UNCERT v c) := by
  have hall := hcalm
  simp only [calm, Bool.and_eq_true] at hall
  obtain ⟨⟨hws, -⟩, hu⟩ := hall
  refine ⟨⟨fun w hw => ?_⟩, fun q => (cyx_put ..).trans (s.cyx q)⟩
  refine (get_put_ne _ _ _ _ _ _ _ _ _ _ fun he => ?_).trans (s.seats.get w hw)
  have hne := of_decide_eq_true (List.all_eq_true.mp hu w hw)
  obtain ⟨⟨-, hg⟩, -⟩ : (w.1 ≤ shp .wir ∧ w.2.fits = true) ∧ 0 < w.2.cnt := by simpa [seated] using List.all_eq_true.mp hws w hw
  have hgit := of_decide_eq_true hg
  have hplace : STP.CH_STAT_UNCERT.off = 0x7C ∧ STP.CH_STAT_UNCERT.lo = 0 ∧ STP.CH_STAT_UNCERT.stride = 32 := ⟨rfl, rfl, rfl⟩
  obtain ⟨ho, hl, hs⟩ := hplace
  rw [ho] at hne
  rw [fkey_eq, fkey_eq, ho, hl, hs] at he
  omega

end

end Took

/-! ### Generators -/

section
variable {ws : List (Nat × Fld)} (hcalm : calm ws = true) {d e : Dev}
include hcalm

omit hcalm in
theorem Took.mpgIntent (s : Took ws d e) (h : HalfId) (n : Nat) : Took ws d (e.mpgIntent h n) := by
  unfold Dev.mpgIntent sendIntent
  extract_lets p k low
  split
  · exact s
  · exact s.same rfl fun q => by cases q <;> rfl

theorem Took.mpgPlan (s : Took ws d e) (h : HalfId) (n mode : Nat) (tgt : Int) (up : Bool) (gs : List Seg) : Took ws d (e.mpgPlan h n mode tgt up gs) := by
  unfold Dev.mpgPlan puti putb
  extract_lets p gs
  exact (((s.put hcalm (by decide) _ _).put hcalm (by decide) _ _).put hcalm (by decide) _ _).modMpg ..

theorem Took.mpgCause (s : Took ws d e) (h : HalfId) (n cause : Nat) : Took ws d (e.mpgCause h n cause) := by
  unfold Dev.mpgCause
  extract_lets x
  have hx : Took ws d x := s.put hcalm (by decide) _ _
  exact .ite (fun _ => hx) fun _ => hx.stat hcalm _ _

theorem Took.mpgRamp (s : Took ws d e) (h : HalfId) (n cause D J : Nat) (supplied : Bool) : Took ws d (e.mpgRamp h n cause D J supplied) := by
  unfold Dev.mpgRamp
  extract_lets p k up sg L runs x y
  have hx : Took ws d x := s.mpgPlan hcalm ..
  have hy : Took ws d y := (hx.put hcalm (by decide) _ _).modMpg ..
  exact .ite (fun _ => Took.mpgIntent (.ite (fun _ => hy) fun _ => hy.mpgCause hcalm ..) h n) fun _ => s

theorem Took.mpgStop (s : Took ws d e) (h : HalfId) (n cause : Nat) : Took ws d (e.mpgStop h n cause) := s.mpgRamp hcalm ..

theorem Took.mpgFreeze (s : Took ws d e) (h : HalfId) (n cause : Nat) : Took ws d (e.mpgFreeze h n cause) := by
  unfold Dev.mpgFreeze
  extract_lets p x
  exact .ite (fun _ => s) fun _ => Took.mpgIntent ((((s.put hcalm (by decide) _ _).put hcalm (by decide) _ _).modMpg ..).mpgCause hcalm ..) h n

theorem Took.mpgReplan (s : Took ws d e) (h : HalfId) (n : Nat) : Took ws d (e.mpgReplan h n) := by
  unfold Dev.mpgReplan
  extract_lets p mode k up sg jv V0 V gs
  exact .ite (fun _ => s) fun _ => Took.mpgIntent (s.mpgPlan hcalm ..) h n

theorem Took.mpgShowCap (s : Took ws d e) (h : HalfId) (n : Nat) : Took ws d (e.mpgShowCap h n) := by
  unfold Dev.mpgShowCap putb
  extract_lets p v cap x
  have hx : Took ws d x := (s.put hcalm (by decide) _ _).put hcalm (by decide) _ _
  exact .ite (fun _ => hx.stat hcalm _ _) fun _ => hx

theorem Took.mpgLimitSw (s : Took ws d e) (h : HalfId) (n : Nat) : Took ws d (e.mpgLimitSw h n) := by
  unfold Dev.mpgLimitSw
  extract_lets up moving d1 d2
  have h1 : Took ws d d1 := s.modMpg ..
  have h2 : Took ws d d2 := .ite (fun _ => h1.mpgFreeze hcalm ..) fun _ => h1
  exact .ite (fun _ => h2.mpgStop hcalm ..) fun _ => h2

/-- A generator after a cold takeover. -/
theorem Took.coldMpg (s : Took ws d e) (h : HalfId) (n : Nat) : Took ws d (e.coldMpg h n) := by
  unfold Dev.coldMpg
  extract_lets p x v d1 d2
  have h1 : Took ws d d1 := s.modMpg ..
  have h2 : Took ws d d2 := (h1.modMpg ..).put hcalm (by decide) _ _
  exact .ite (fun _ => s) fun _ => .ite (fun _ => (h2.put hcalm (by decide) _ _).mpgStop hcalm ..) fun _ => (h1.put hcalm (by decide) _ _).put hcalm (by decide) _ _

/-! ### Doors and steppers -/

theorem Took.daxUncertain (s : Took ws d e) (h : HalfId) (k cause : Nat) : Took ws d (e.daxUncertain h k cause) := by
  unfold Dev.daxUncertain
  extract_lets p d1 d2
  have h1 : Took ws d d1 := s.modDax ..
  have h2 : Took ws d d2 := ((h1.put hcalm (by decide) _ _).put hcalm (by decide) _ _).put hcalm (by decide) _ _
  exact h2.stat hcalm _ _

theorem Took.stpUncertain (s : Took ws d e) (h : HalfId) (c cause : Nat) : Took ws d (e.stpUncertain h c cause) := by
  unfold Dev.stpUncertain
  extract_lets p d1
  have h1 : Took ws d d1 := (s.putUncertain hcalm _ _ _).stat hcalm _ _
  split
  · exact h1.daxUncertain hcalm ..
  · exact h1

theorem Took.daxFreeze (s : Took ws d e) (h : HalfId) (k cause : Nat) : Took ws d (e.daxFreeze h k cause) :=
  .ite (fun _ => Took.modDax (((s.put hcalm (by decide) _ _).put hcalm (by decide) _ _).put hcalm (by decide) _ _) ..) fun _ => (s.stpUncertain hcalm ..).modStp ..

/-- The blocks after a cold takeover. -/
theorem Took.coldBlocks (s : Took ws d e) (h : HalfId) : Took ws d (e.coldBlocks h) := by
  unfold Dev.coldBlocks
  extract_lets d1 d2
  have h1 : Took ws d d1 := s.trans (.foldl _ _ fun x n _ => (refl ws x).coldMpg hcalm h n)
  have h2 : Took ws d d2 := h1.trans (.foldl _ _ fun x n _ => (refl ws x).modHalf h _ fun _ => rfl)
  refine h2.trans (.foldl _ _ fun x k _ => ?_)
  refine .ite (fun _ => refl ws x) fun _ => .ite (fun _ => .ite (fun _ => (refl ws x).daxFreeze hcalm ..) fun _ => refl ws x) fun _ => (refl ws x).daxFreeze hcalm ..

theorem Took.lrnEnd (s : Took ws d e) (h : HalfId) (res : Nat) : Took ws d (e.lrnEnd h res) :=
  .ite (fun _ => ((s.put hcalm (by decide) _ _).put hcalm (by decide) _ _).stat hcalm _ _) fun _ => s

end

end Dev

end Sys2Proof.Machine
end

section
/-! PROOFS. What Shoal takes, from its ring and from the group, leaves the watched registers and the executive alone (R217, R225, R244). -/
namespace Sys2Proof.Machine

open Sys2Proof

namespace Dev

section
variable {ws : List (Nat × Fld)} {d e : Dev} {h : HalfId}

namespace Took

theorem setCall (s : Took ws d e) (k : Nat) (c : Call) : Took ws d (e.setCall h k c) := s.modShl ..
theorem dropCall (s : Took ws d e) (k : Nat) : Took ws d (e.dropCall h k) := s.modShl ..
theorem setSeq (s : Took ws d e) (c : Nat) (l : List Stop) : Took ws d (e.setSeq h c l) := s.modShl ..
theorem addRes (s : Took ws d e) (r : ShlRes) : Took ws d (e.addRes h r) := s.modShl ..
theorem fresh (s : Took ws d e) : Took ws d e.fresh.2 := s.same rfl fun q => by cases q <;> rfl
theorem modGlk (s : Took ws d e) (g : Glk → Glk) : Took ws d (e.modGlk g) := s.same rfl fun q => by cases q <;> rfl

theorem callDone (s : Took ws d e) (k : Nat) : Took ws d (e.callDone h k) := by
  unfold Dev.callDone
  split
  · exact (s.setCall k _).addRes _
  · exact s

theorem boardHere (s : Took ws d e) (c : Nat) (floor : Option Nat) (count : Nat) (access : Bool) : Took ws d (e.boardHere h c floor count access) :=
  .ite (fun _ => s.modShl ..) fun _ => s.modShl ..

theorem removeStops (s : Took ws d e) (k : Nat) (cl : Call) : Took ws d (e.removeStops h k cl) :=
  .ite (fun _ => (s.setSeq _ _).trans (foldl _ _ fun x m _ => (refl ws x).callDone m)) fun _ => s

theorem insertOn (s : Took ws d e) (c k : Nat) (cl : Call) : Took ws d (e.insertOn h c k cl) := by
  unfold Dev.insertOn
  split
  · exact s.setSeq ..
  · exact s

theorem standStamp (s : Took ws d e) (c : Nat) (floor : Option Nat) : Took ws d (e.standStamp h c floor) := .ite (fun _ => s.modShl ..) fun _ => s

theorem decide_ (s : Took ws d e) (k : Nat) (cl : Call) (event : Nat) (b : Nat × Nat × Plan × Bool × Nat × Nat) : Took ws d (e.decide_ h k cl event b) := by
  unfold Dev.decide_
  extract_lets c pl etaD etaP r es alone d1 d2 d3 d4
  have h2 : Took ws d d2 := (s.setSeq _ _).setCall _ _
  have h3 : Took ws d d3 := .ite (fun _ => h2.boardHere ..) fun _ => h2
  have h4 : Took ws d d4 := h3.addRes _
  exact .ite (fun _ => h4.callDone _) fun _ => h4

section
variable (hcalm : calm ws = true)
include hcalm

theorem evalTime (s : Took ws d e) : Took ws d (e.evalTime h) := (s.put hcalm (by decide) _ _).put hcalm (by decide) _ _

theorem rejectCall (s : Took ws d e) (k : Nat) (cl : Call) (why : Nat) : Took ws d (e.rejectCall h k cl why) := ((s.setCall k _).err hcalm _ _ _).addRes _

theorem rejectEntry (s : Took ws d e) (slot : Option Nat) (car tag why : Nat) : Took ws d (e.rejectEntry h slot car tag why) := by
  cases slot with
  | none => exact (s.fresh.err hcalm _ _ _).addRes _
  | some k => exact (s.err hcalm _ _ _).addRes _

theorem countMove (s : Took ws d e) : Took ws d (e.countMove h) := (s.put hcalm (by decide) _ _).stat hcalm _ _

theorem evaluate (s : Took ws d e) (k : Nat) (cl : Call) (event : Nat) (cars : List Nat) : Took ws d (e.evaluate h k cl event cars) := by
  unfold Dev.evaluate
  extract_lets c
  split
  · exact (s.evalTime hcalm).decide_ _ _ _ _
  · exact (s.evalTime hcalm).rejectCall hcalm _ _ _

theorem shlNew (s : Took ws d e) (w0 w1 tag : Nat) : Took ws d (e.shlNew h w0 w1 tag) := by
  unfold Dev.shlNew
  extract_lets kind src dst car n d1 blank cl
  have h1 : Took ws d d1 := s.modShl ..
  split
  case h_1 => exact h1.rejectEntry hcalm _ _ _ _
  case h_2 k hk =>
    extract_lets d2
    have h2 : Took ws d d2 := (h1.setCall k cl).modShl ..
    refine .ite (fun _ => h2.rejectCall hcalm _ _ _) fun _ => .ite (fun _ => h2.rejectCall hcalm _ _ _) fun _ => .ite (fun _ => h2.rejectCall hcalm _ _ _) fun _ =>
      .ite (fun _ => h2.modShl ..) fun _ => ?_
    have h3 : Took ws d (d2.evaluate h k cl 1 (d2.scopeCars h)) := h2.evaluate hcalm _ _ _ _
    exact .ite (fun _ => h3.modShl ..) fun _ => h3

theorem shlCancel (s : Took ws d e) (slot tag : Nat) : Took ws d (e.shlCancel h slot tag) := by
  unfold Dev.shlCancel
  split
  · refine .ite (fun _ => s.rejectEntry hcalm _ _ _ _) fun _ => ?_
    exact (((s.removeStops _ _).setCall _ _).addRes _).modShl ..
  · exact s.rejectEntry hcalm _ _ _ _

theorem shlArrive (s : Took ws d e) (car floor tag : Nat) : Took ws d (e.shlArrive h car floor tag) := by
  unfold Dev.shlArrive
  refine .ite (fun _ => s.rejectEntry hcalm _ _ _ _) fun _ => ?_
  split
  · exact s.rejectEntry hcalm _ _ _ _
  · refine .ite (fun _ => s.rejectEntry hcalm _ _ _ _) fun _ => ?_
    extract_lets f more d1 o d2 d3 d4
    have h1 : Took ws d d1 := (s.setSeq _ _).modShl ..
    have h2 : Took ws d d2 := .ite (fun _ => h1) fun _ => h1.modShl ..
    have h3 : Took ws d d3 := h2.boardHere _ _ _ _
    have h4 : Took ws d d4 := by
      refine h3.trans (foldl _ _ fun x k _ => ?_)
      split
      · exact .ite (fun _ => (refl ws x).setCall _ _) fun _ => (refl ws x).callDone _
      · exact refl ws x
    exact h4.trans (foldl _ _ fun x k _ => (refl ws x).callDone k)

theorem shlEntry (s : Took ws d e) (w0 w1 w2 w3 : Nat) : Took ws d (e.shlEntry h w0 w1 w2 w3) :=
  .ite (fun _ => s.rejectEntry hcalm _ _ _ _) fun _ => .ite (fun _ => s.shlNew hcalm _ _ _) fun _ => .ite (fun _ => s.shlCancel hcalm _ _) fun _ => s.shlArrive hcalm _ _ _

theorem skipEntry (s : Took ws d e) : Took ws d (e.skipEntry h) := (s.err hcalm _ _ _).addRes _

/-- The entries of the ring, however many wait. -/
theorem takeRing : ∀ (n : Nat) {e : Dev}, Took ws d e → Took ws d (e.takeRing h n)
  | 0, _, s => s
  | n + 1, e, s => by
    unfold Dev.takeRing
    extract_lets p t a x
    have hx : Took ws d x := s.put hcalm (by decide) _ _
    exact .ite (fun _ => s) fun _ => .ite (fun _ => takeRing n (hx.skipEntry hcalm)) fun _ => takeRing n (hx.shlEntry hcalm _ _ _ _)

theorem showLive (s : Took ws d e) : Took ws d (e.showLive h) := (s.put hcalm (by decide) _ _).put hcalm (by decide) _ _

/-! ### Messages of the group -/

theorem upsert (s : Took ws d e) (c : Call) : Took ws d (e.upsert h c) := by
  unfold Dev.upsert
  split
  · exact s.setCall _ _
  · split
    · exact s.setCall _ _
    · exact s.err hcalm _ _ _

omit hcalm in
theorem settle (s : Took ws d e) (src n : Nat) : Took ws d (e.settle h src n) := by
  unfold Dev.settle
  extract_lets mine x gone y
  have hy : Took ws d y := s.modShl ..
  exact hy.trans (foldl _ _ fun z r _ => (refl ws z).dropCall _)

theorem takeRecords (s : Took ws d e) (src : Nat) (rs : List GRec) : Took ws d (e.takeRecords h src rs) := by
  unfold Dev.takeRecords
  split
  · exact s
  · refine .ite (fun _ => s.err hcalm _ _ _) fun _ => ?_
    exact ((s.modGlk _).trans (foldl _ _ fun x r _ => ((refl ws x).modShl ..).standStamp _ _)).showLive hcalm

theorem takeForward (s : Took ws d e) (src : Nat) (f : GFwd) : Took ws d (e.takeForward h src f) := by
  unfold Dev.takeForward
  refine .ite (fun _ => ?_) fun _ => .ite (fun _ => ?_) fun _ => .ite (fun _ => ?_) fun _ => s
  · dsimp only
    split
    · exact s
    · exact .ite (fun _ => (s.setCall _ _).rejectCall hcalm _ _ _) fun _ => (s.setCall _ _).evaluate hcalm _ _ _ _
    · exact (s.err hcalm _ _ _).modShl ..
  · split
    · exact (s.shlCancel hcalm _ _).settle _ _
    · exact s
  · exact .ite (fun _ => (s.shlArrive hcalm _ _ _).settle _ _) fun _ => s

theorem takeTables (s : Took ws d e) (cs : List GCall) (seqs : List (BitVec 6 × List GStop)) : Took ws d (e.takeTables h cs seqs) := by
  unfold Dev.takeTables
  refine (s.trans (foldl _ _ fun x g _ => ?_)).trans (foldl _ _ fun x q _ => (refl ws x).setSeq _ _)
  refine .ite (fun _ => ?_) fun _ => (refl ws x).upsert hcalm _
  split
  · exact (refl ws x).dropCall _
  · exact refl ws x

/-- A call that has lost its car is decided again, or rejected. -/
theorem reassigned (s : Took ws d e) (k : Nat) (cl : Call) (cars : List Nat) :
    Took ws d (match e.best h k cl cars with | some b => ((e.evalTime h).decide_ h k cl 3 b).countMove h | none => (e.evalTime h).rejectCall h k cl cSHL_NO_CAR) := by
  split
  · exact ((s.evalTime hcalm).decide_ _ _ _ _).countMove hcalm
  · exact (s.evalTime hcalm).rejectCall hcalm _ _ _

theorem takeReport (s : Took ws d e) (src : Nat) (full : Bool) (cs : List GCall) : Took ws d (e.takeReport h src full cs) := by
  unfold Dev.takeReport
  extract_lets sl x y named lost
  have hx : Took ws d x := by
    refine s.trans (foldl _ _ fun z g _ => ?_)
    dsimp only
    split
    · split
      · have hz : Took ws z z := refl ws z
        refine .ite (fun _ => ?_) fun _ => Took.insertOn ?_ _ _ _
        all_goals exact (ite (fun _ => hz) fun _ => hz.removeStops _ _).setCall _ _
      · exact refl ws z
    · split
      · exact ((refl ws z).setCall _ _).insertOn _ _ _
      · exact (refl ws z).err hcalm _ _ _
  have hy : Took ws d y := hx.modShl ..
  refine .ite (fun _ => hy) fun _ => hy.trans (foldl _ _ fun z c _ => ?_)
  exact ((refl ws z).removeStops _ _).reassigned hcalm _ _ _

theorem glkTake (s : Took ws d e) (m : GMsg) : Took ws d (e.glkTake h m) := by
  cases m with
  | records src rs => exact .ite (fun _ => s.takeRecords hcalm _ _) fun _ => s
  | forward src fs => exact .ite (fun _ => s.trans (foldl _ _ fun x f _ => (refl ws x).takeForward hcalm _ _)) fun _ => s
  | report src full cs => exact .ite (fun _ => s.takeReport hcalm _ _ _) fun _ => s
  | tables src cs seqs => exact .ite (fun _ => s) fun _ => .ite (fun _ => s.takeTables hcalm _ _) fun _ => s.modGlk _
  | decision src a b c => exact .ite (fun _ => s.modGlk _) fun _ => s
  | reportReq src => exact .ite (fun _ => s.modGlk _) fun _ => s

/-- The messages of the group that have waited for the snapshot. -/
theorem glkSnapshot (s : Took ws d e) (q : HalfId) : Took ws d (e.glkSnapshot q) := by
  unfold Dev.glkSnapshot
  extract_lets ms x
  have hx : Took ws d x := s.modGlk _
  exact hx.trans (foldl _ _ fun z m _ => (refl ws z).glkTake hcalm m)

end

end Took

end

end Dev

end Sys2Proof.Machine
end

section
/-! PROOFS. Starts and stops of a program, and what a takeover does with it, at the watched registers (R319, R321, R333, R337). -/
namespace Sys2Proof.Machine

open Sys2Proof

/-- The fields of the executive that a start or a stop of the program writes. -/
def startFields : List Fld := [CYX.STATE_CODE, CYX.STATE_COLD, CYX.STATE_FIRST, CYX.IMG_ID, CYX.RET_BASE, CYX.RET_SIZE, CYX.SHADOW_BASE, HDR.STAT_BLOCK]

/-- A list of registers that a start of a half's program leaves alone. -/
def startClear (ws : List (Nat × Fld)) (h : HalfId) : Bool :=
  seated ws && startFields.all (fun f => f.fits && besideOn ws (ctl .cyx h) f) && [TMC.USED_TIMERS, TMC.USED_EDGES].all (fun f => f.fits && besideOn ws (ctl .tmc h) f)

/-- A list of registers that the safe state of the outputs leaves alone. -/
def safeClear (ws : List (Nat × Fld)) : Bool := beside ws WIR.OUT_DIG_BITS && beside ws WIR.OUT_STP_BITS && beside ws WIR.SAFE_CNT_COUNT

namespace Dev

section
variable {ws : List (Nat × Fld)} {d e : Dev} {h : HalfId} (hc : startClear ws h = true)
include hc

theorem seated_of_startClear : seated ws = true := by
  simp only [startClear, Bool.and_eq_true] at hc
  exact hc.1.1

theorem Seats.putStart (s : Seats ws d e) {f : Fld} (hm : startFields.contains f = true) (v : Nat) : Seats ws d (e.put (ctl .cyx h) f v) := by
  have hall := hc
  simp only [startClear, Bool.and_eq_true] at hall
  have hf := List.all_eq_true.mp hall.1.2 f (List.contains_iff_mem.mp hm)
  rw [Bool.and_eq_true] at hf
  exact s.putAt hall.1.1 hf.1 hf.2 v

theorem Seats.putTimers (s : Seats ws d e) {f : Fld} (hm : f ∈ [TMC.USED_TIMERS, TMC.USED_EDGES]) (v : Nat) : Seats ws d (e.put (ctl .tmc h) f v) := by
  have hall := hc
  simp only [startClear, Bool.and_eq_true] at hall
  have hf := List.all_eq_true.mp hall.2 f hm
  rw [Bool.and_eq_true] at hf
  exact s.putAt hall.1.1 hf.1 hf.2 v

theorem Seats.showImage (s : Seats ws d e) : Seats ws d (e.showImage h) := by
  unfold Dev.showImage
  extract_lets p pr t x y
  have hx : Seats ws d x := by
    refine (Seats.putStart hc ?_ (by decide) _).putStart hc (by decide) _
    unfold Dev.laneTable
    extract_lets pick rx
    exact .ite (fun _ => s.same rfl) fun _ => s
  have hy : Seats ws d y := (hx.putStart hc (by decide) _).putStart hc (by decide) _
  exact (hy.putTimers hc (by simp) _).putTimers hc (by simp) _

theorem Seats.startHalf (s : Seats ws d e) (cold : Bool) : Seats ws d (e.startHalf h cold) := by
  unfold Dev.startHalf
  extract_lets p c m0
  split
  · exact s
  · extract_lets m x y z
    have hx : Seats ws d x := s.same (by simp [x, heal, setSram])
    have hy : Seats ws d y := .ite (fun _ => hx.same (modHalf_regs ..)) fun _ => hx
    have hz : Seats ws d z := ((hy.putStart hc (by decide) _).putStart hc (by decide) _).putStart hc (by decide) _
    exact Seats.putStart hc ((hz.showImage hc).same (modHalf_regs ..)) (by decide) _

variable (hsafe : safeClear ws = true)
include hsafe

theorem Seats.cyxHalt (s : Seats ws d e) (code : Nat) : Seats ws d (e.cyxHalt h code) := by
  unfold Dev.cyxHalt
  extract_lets x
  have hx : Seats ws d x := (s.putStart hc (by decide) _).same (modHalf_regs ..)
  exact .ite (fun _ => hx.trans (seats_fioSafe (seated_of_startClear hc) hsafe _ _)) fun _ => hx

theorem Seats.startMode (s : Seats ws d e) : Seats ws d (e.startMode h) := by
  unfold Dev.startMode
  split
  · exact s.startHalf hc _
  · exact s.startHalf hc _
  · exact s.cyxHalt hc hsafe _

end

end Dev

end Sys2Proof.Machine
end

section
/-! PROOFS. The new holder after a takeover keeps the lease and what it shows of the takeover (R333, R337, R356). -/
namespace Sys2Proof.Machine

open Sys2Proof

/-- The registers of a takeover, and the ends of Shoal's submission ring. -/
def takeSeats : List (Nat × Fld) :=
  leaseSeats ++ [SHL.SUB_TAIL_IDX, SHL.SUB_HEAD_IDX].flatMap (fun f => [(ctl .shl .a, f), (ctl .shl .b, f)])

theorem takeSeats_seated : seated takeSeats = true := by decide

namespace Dev

/-- Whether every word of a half's shadow of its forces lies inside a page. -/
def shadowInside (d : Dev) (h : HalfId) : Prop := ∀ c, (d.cyx h).shadow = some c → ∀ x ∈ c.frc, x.1 < pageSpan

/-! ### The words of a page -/

theorem rfFind_putWords {p k : Nat} (hk : k / pageSpan ≠ p) : ∀ (ws r : List (Nat × Word)), (∀ x ∈ ws, x.1 < pageSpan) → rfFind k (putWords r p ws) = rfFind k r
  | [], _, _ => rfl
  | x :: ws, r, hw => by
    have hx := hw x List.mem_cons_self
    have hne : k ≠ p * pageSpan + x.1 := fun he => hk (by
      rw [he, Nat.add_comm, Nat.add_mul_div_right _ _ (by decide), Nat.div_eq_of_lt hx, Nat.zero_add])
    exact (rfFind_putWords hk ws (rfInsert (p * pageSpan + x.1) x.2 r) fun y hy => hw y (List.mem_cons_of_mem _ hy)).trans (rfFind_insert_ne hne x.2 r)

theorem rfFind_otherWords {p k : Nat} (hk : k / pageSpan ≠ p) (r : List (Nat × Word)) : rfFind k (otherWords r p) = rfFind k r := by
  rw [otherWords, rfFind_filter (fun j => j / pageSpan != p), if_pos (by simpa using hk)]

theorem pageWords_inside (r : List (Nat × Word)) (p : Nat) : ∀ x ∈ pageWords r p, x.1 < pageSpan := by
  intro x hx
  obtain ⟨y, -, rfl⟩ := List.mem_map.mp hx
  exact Nat.mod_lt _ (by decide)

section
variable {ws : List (Nat × Fld)} {d e : Dev} {h : HalfId}

/-- The shadow of the forces replaces the words of their page and of no other. -/
theorem Seats.takeShadow (s : Seats ws d e) (hws : seated ws = true) (hp : offPage ws (ctl .frc h) = true) (hin : e.shadowInside h) (dt : Nat) :
    Seats ws d (e.takeShadow h dt) := by
  unfold Dev.takeShadow
  split
  · exact s
  · rename_i c hc
    extract_lets q runs x y
    have hx : Seats ws d x := s.same (regs_fillSram ..)
    have hxy : Seats ws x y := by
      refine ⟨fun w hw => ?_⟩
      obtain ⟨⟨-, hg⟩, hcnt⟩ : (w.1 ≤ shp .wir ∧ w.2.fits = true) ∧ 0 < w.2.cnt := by simpa [seated] using List.all_eq_true.mp hws w hw
      have hpage : fkey w.1 w.2 0 0 / pageSpan ≠ q := by
        rw [show fkey w.1 w.2 0 0 / pageSpan = w.1 from keyPage_fkey w.1 (inside_of_fits hg hcnt (by decide))]
        exact of_decide_eq_true (List.all_eq_true.mp hp w hw)
      have hwords : ∀ z ∈ (pageWords x.regs q).filter (fun (z : Nat × Word) => z.1 / 65536 / 32 < 0x40) ++ c.frc.filter (fun (z : Nat × Word) => z.1 / 65536 / 32 ≥ 0x40),
          z.1 < pageSpan := by
        intro z hz
        rcases List.mem_append.mp hz with hz | hz
        · exact pageWords_inside _ _ z (List.mem_filter.mp hz).1
        · exact hin c hc z (List.mem_filter.mp hz).1
      have hkey : rfFind (fkey w.1 w.2 0 0) y.regs = rfFind (fkey w.1 w.2 0 0) x.regs := (rfFind_putWords hpage _ _ hwords).trans (rfFind_otherWords hpage _)
      rw [Dev.get, Dev.get, hkey]
    exact (hx.trans hxy).same (regs_modCyx ..)

/-! ### A change that a takeover makes void -/

theorem cyx_showImage (d : Dev) (h q : HalfId) : (d.showImage h).cyx q = d.cyx q := by
  have hlane : (d.laneTable h).cyx q = d.cyx q := by
    unfold laneTable
    extract_lets pick rx
    split
    · cases q <;> rfl
    · rfl
  simp only [showImage, cyx_put, hlane]

theorem Seats.showOlc (s : Seats takeSeats d e) (st reason : Nat) : Seats takeSeats d (e.showOlc h st reason) := by
  have hone (x : Dev) (hx : Seats takeSeats d x) (q : HalfId) : Seats takeSeats d (x.setOlc q st reason) :=
    (hx.putAt takeSeats_seated (by decide) (by cases q <;> decide) _).putAt takeSeats_seated (by decide) (by cases q <;> decide) _
  unfold Dev.showOlc
  extract_lets x
  exact .ite (fun _ => hone _ (hone e s h) _) fun _ => hone e s h

theorem Seats.olcFail (s : Seats takeSeats d e) (why x : Nat) : Seats takeSeats d (e.olcFail h why x) := by
  have hset (y : Dev) (hy : Seats takeSeats d y) : Seats takeSeats d (y.setIdle h none) := by
    unfold setIdle
    extract_lets z
    have hz : Seats takeSeats d z := hy.same (regs_modCyx ..)
    exact .ite (fun _ => hz.same (regs_modCyx ..)) fun _ => hz
  exact ((hset _ (s.showOlc 6 why)).stat takeSeats_seated (by decide) _ _).err takeSeats_seated (by decide) _ _ _

theorem takeSeats_start (h : HalfId) : startClear takeSeats h = true := by cases h <;> decide

theorem Seats.voidSwitch (s : Seats takeSeats d e) : Seats takeSeats d (e.voidSwitch h) := by
  unfold Dev.voidSwitch
  split
  · extract_lets p x back y z
    have hy : Seats takeSeats d y := s.same (regs_modCyx ..)
    have hz : Seats takeSeats d z := (hy.putAt takeSeats_seated (by decide) (by cases h <;> decide) _).showImage (takeSeats_start h)
    exact (hz.olcFail ..).note takeSeats_seated ..
  · exact s

theorem shadowInside_voidSwitch (hin : d.shadowInside h) : (d.voidSwitch h).shadowInside h := by
  unfold voidSwitch
  split
  · extract_lets p x back y z
    have hfin : (((z.olcFail h cOLC_LOST).note p clsFault cOLC_LOST).cyx h).shadow = (x.shadow.map (fun s => { s with cells := back s.cells })) := by
      rw [note, cyx_post, cyx_olcFail, cyx_showImage, cyx_put, cyx_modCyx_same]
    intro c hc w hw
    rw [hfin] at hc
    obtain ⟨c0, hc0, rfl⟩ := Option.map_eq_some_iff.mp hc
    exact hin c0 hc0 w hw
  · exact hin

theorem Seats.takeCount (s : Seats takeSeats d e) : Seats takeSeats d (e.takeCount h) := by
  unfold Dev.takeCount
  extract_lets p m x
  have hx : Seats takeSeats d x := .ite (fun _ => s.putAt takeSeats_seated (by decide) (by cases h <;> decide) _) fun _ => s
  exact ((hx.putAt takeSeats_seated (by decide) (by cases h <;> decide) _).putAt takeSeats_seated (by decide) (by cases h <;> decide) _).same (regs_modCyx ..)

/-- The program of a half that takes over warm. -/
theorem Seats.cyxWarm (s : Seats takeSeats d e) (hin : e.shadowInside h) (dt : Nat) : Seats takeSeats d (e.cyxWarm h dt) :=
  ((s.voidSwitch.takeShadow takeSeats_seated (by cases h <;> decide) (shadowInside_voidSwitch hin) dt).takeCount).putAt takeSeats_seated (by decide) (by cases h <;> decide) _

end

/-! ### The two takeovers -/

section
variable (d : Dev) (h : HalfId) (hin : d.shadowInside h) (dt : Nat)
include hin

theorem seats_warmTake (hring : d.get (ctl .shl h) SHL.SUB_TAIL_IDX = d.get (ctl .shl h) SHL.SUB_HEAD_IDX) : Seats leaseSeats d (d.warmTake h dt) := by
  have hwarm : Seats takeSeats d (d.cyxWarm h dt) := (Seats.refl _ d).cyxWarm hin dt
  have hidle : (d.cyxWarm h dt).takeRing h 4096 = d.cyxWarm h dt := by
    refine takeRing_empty 4096 ?_
    rw [hwarm.get (ctl .shl h, SHL.SUB_TAIL_IDX) (by cases h <;> decide), hwarm.get (ctl .shl h, SHL.SUB_HEAD_IDX) (by cases h <;> decide)]
    exact hring
  have htook : Took leaseSeats (d.cyxWarm h dt) ((d.cyxWarm h dt).lrnEnd h 6) := (Took.refl ..).lrnEnd (by decide) h 6
  unfold warmTake
  rw [hidle]
  exact ((hwarm.mono fun w hw => List.mem_append_left _ hw).trans htook.seats).same rfl

theorem seats_coldTake : Seats leaseSeats d (d.coldTake h dt) := by
  have hcalm : calm leaseSeats = true := by decide
  have htook : Took leaseSeats d (((d.coldBlocks h).takeRing h 4096).lrnEnd h 6) := (((Took.refl _ d).coldBlocks hcalm h).takeRing hcalm 4096).lrnEnd hcalm h 6
  obtain ⟨x, hx⟩ : ∃ x, x = ((d.coldBlocks h).takeRing h 4096).lrnEnd h 6 := ⟨_, rfl⟩
  rw [← hx] at htook
  have hinx : x.shadowInside h := fun c hc => hin c (by rw [← htook.cyx h]; exact hc)
  have hprog : Seats leaseSeats x (x.coldProgram h dt) := by
    unfold coldProgram
    extract_lets y z
    have hy : Seats takeSeats x y := (Seats.refl _ x).voidSwitch
    have hz : Seats takeSeats x z := .ite (fun _ => hy.takeShadow takeSeats_seated (by cases h <;> decide) (shadowInside_voidSwitch hinx) dt) fun _ => hy
    exact (hz.takeCount.startMode (takeSeats_start h) (by decide)).mono fun w hw => List.mem_append_left _ hw
  unfold coldTake
  rw [← hx]
  exact ((htook.seats.trans hprog).trans (seats_fioSafe leaseSeats_seated (by decide) _ 5)).same (regs_modHlf ..)

end

end Dev

end Sys2Proof.Machine
end

section
/-! PROOFS. The end of a claim window, and O44 (R346, R347, R356). -/
namespace Sys2Proof.Machine

open Sys2Proof

namespace Dev

/-! ### A grant -/

/-- The lease as the Weir grants it to the winner of a window. -/
def leased (d : Dev) (h : HalfId) (e : Nat) : Dev :=
  let w := shp .wir
  (((((d.put w WIR.LEASE_WIN 0).modWeir (fun x => { x with claims := [], ticks := 0 })).put w WIR.LEASE_VALID 1).putb w WIR.LEASE_HOLDER (h == .b)).put w WIR.LEASE_EPOCH e).put w
    WIR.LEASE_AGE 0

/-- The grant counted, and the epoch known to the halves that hear of it. -/
def granted (d : Dev) (h : HalfId) (e : Nat) : Dev :=
  let x := ((d.leased h e).put (shp .wir) WIR.GRANTS_COUNT ((d.leased h e).get (shp .wir) WIR.GRANTS_COUNT + 1)).put (ctl .hlf h) HLF.EPOCH_KNOWN e
  if x.hlfState h.other ≤ 1 && x.mirUp then x.put (ctl .hlf h.other) HLF.EPOCH_KNOWN e else x

/-- The winner, ACTIVE, with what the takeover shows. -/
def winning (d : Dev) (h : HalfId) (e gap : Nat) : Dev := ((d.granted h e).hlfTo h 0 2).showTake h (d.hlfState h == 2) gap

section
variable (d : Dev) (h : HalfId) (e : Nat)

theorem keeps_leased : d.keeps (d.leased h e) [shp .wir] := by
  simp (disch := decide) [leased, putb, keeps_put_iff]

theorem keeps_granted : d.keeps (d.granted h e) [shp .wir, ctl .hlf .a, ctl .hlf .b] := by
  have hl : d.keeps (d.leased h e) [shp .wir, ctl .hlf .a, ctl .hlf .b] := keeps_mono (keeps_leased d h e) (by simp)
  unfold granted
  extract_lets x
  have hx : d.keeps x [shp .wir, ctl .hlf .a, ctl .hlf .b] :=
    (keeps_put_iff (by cases h <;> simp) (by decide) (by decide) (by decide)).mpr ((keeps_put_iff (by simp) (by decide) (by decide) (by decide)).mpr hl)
  split
  · exact (keeps_put_iff (by cases h <;> simp [HalfId.other]) (by decide) (by decide) (by decide)).mpr hx
  · exact hx

theorem granted_weir {f : Fld} (hf : f.fits = true) (hc : 0 < f.cnt) : (d.granted h e).get (shp .wir) f =
    ((d.leased h e).put (shp .wir) WIR.GRANTS_COUNT ((d.leased h e).get (shp .wir) WIR.GRANTS_COUNT + 1)).get (shp .wir) f := by
  have hhlf (x : Dev) (q : HalfId) (v : Nat) : (x.put (ctl .hlf q) HLF.EPOCH_KNOWN v).get (shp .wir) f = x.get (shp .wir) f :=
    get_put_other _ _ (by cases q <;> decide) (by decide) hf (by decide) hc (by decide) (by decide)
  unfold granted
  extract_lets x
  split
  · rw [hhlf]
    exact hhlf ..
  · exact hhlf ..

theorem leased_lease : (d.leased h e).get (shp .wir) WIR.LEASE_VALID = 1 ∧ (d.leased h e).get (shp .wir) WIR.LEASE_HOLDER = (h == .b).toNat ∧
    (d.leased h e).get (shp .wir) WIR.LEASE_EPOCH = e % 2 ^ 16 ∧ (d.leased h e).get (shp .wir) WIR.GRANTS_COUNT = d.get (shp .wir) WIR.GRANTS_COUNT := by
  have hbit : (h == HalfId.b).toNat % 2 = (h == HalfId.b).toNat := by cases h <;> rfl
  refine ⟨?_, ?_, ?_, ?_⟩ <;> simp (disch := decide) [leased, putb, get_put_apart, get_put_same, WIR.LEASE_VALID, WIR.LEASE_HOLDER, WIR.LEASE_EPOCH, hbit]

theorem granted_lease : (d.granted h e).get (shp .wir) WIR.LEASE_VALID = 1 ∧ (d.granted h e).get (shp .wir) WIR.LEASE_HOLDER = (h == .b).toNat ∧
    (d.granted h e).get (shp .wir) WIR.LEASE_EPOCH = e % 2 ^ 16 ∧ (d.granted h e).get (shp .wir) WIR.GRANTS_COUNT = (d.get (shp .wir) WIR.GRANTS_COUNT + 1) % 2 ^ 16 := by
  obtain ⟨h1, h2, h3, h4⟩ := leased_lease d h e
  have hcount (x : Dev) (v : Nat) {f : Fld} (hf : f.fits = true) (hc : 0 < f.cnt) (ha : WIR.GRANTS_COUNT.apart f = true) :
      (x.put (shp .wir) WIR.GRANTS_COUNT v).get (shp .wir) f = x.get (shp .wir) f := get_put_field _ _ ha (by decide) hf (by decide) hc (by decide) (by decide)
  refine ⟨?_, ?_, ?_, ?_⟩
  · rw [granted_weir _ _ _ (by decide) (by decide), hcount _ _ (by decide) (by decide) (by decide), h1]
  · rw [granted_weir _ _ _ (by decide) (by decide), hcount _ _ (by decide) (by decide) (by decide), h2]
  · rw [granted_weir _ _ _ (by decide) (by decide), hcount _ _ (by decide) (by decide) (by decide), h3]
  · rw [granted_weir _ _ _ (by decide) (by decide), h4]
    exact get_put_same _ _ _ _ _ _ (by decide)

theorem cyx_granted (q : HalfId) : (d.granted h e).cyx q = d.cyx q := by
  have hl : (d.leased h e).cyx q = d.cyx q := by
    simp only [leased, putb, cyx_put]
    cases q <;> rfl
  unfold granted
  extract_lets x
  have hx : x.cyx q = d.cyx q := by rw [cyx_put, cyx_put, hl]
  split
  · rw [cyx_put, hx]
  · exact hx

variable (gap : Nat)

theorem keeps_winning : d.keeps (d.winning h e gap) [shp .wir, ctl .hlf .a, ctl .hlf .b, ctl .cyx h, shp .slt] := by
  have hg : d.keeps ((d.granted h e).hlfTo h 0 2) [shp .wir, ctl .hlf .a, ctl .hlf .b, ctl .cyx h, shp .slt] :=
    keeps_trans (keeps_mono (keeps_granted d h e) (by simp +contextual)) (keeps_mono (keeps_hlfTo _ h 0 2) (by simp +contextual))
  cases h <;> simp (disch := first | decide | assumption) [winning, showTake, bump, putb, keeps_put_iff, keeps_stat_iff, hg]

theorem cyx_winning (q : HalfId) : (d.winning h e gap).cyx q = d.cyx q := by
  have hto : ((d.granted h e).hlfTo h 0 2).cyx q = (d.granted h e).cyx q := congrArg Half.cyx (half_hlfTo ..)
  simp only [winning, showTake, bump, putb, cyx_put, cyx_stat, hto, cyx_granted]

/-- What the takeover shows before the blocks and the program of the winner act. -/
theorem winning_shows (hst : d.hlfState h = 1 ∨ d.hlfState h = 2) (hgap : gap < 2 ^ 20) : let x := d.winning h e gap
    x.get (shp .wir) WIR.LEASE_VALID = 1 ∧ x.get (shp .wir) WIR.LEASE_HOLDER = (h == .b).toNat ∧ x.get (shp .wir) WIR.LEASE_EPOCH = e % 2 ^ 16 ∧
      x.get (shp .wir) WIR.GRANTS_COUNT = (d.get (shp .wir) WIR.GRANTS_COUNT + 1) % 2 ^ 16 ∧ x.hlfState h = 0 ∧
      x.get (ctl .hlf h) HLF.TAKE_COLD = (if d.hlfState h = 2 then 1 else 0) ∧ x.get (ctl .hlf h) HLF.GAP_US = gap := by
  intro x
  obtain ⟨g1, g2, g3, g4⟩ := granted_lease d h e
  obtain ⟨y, hy⟩ : ∃ y, y = (d.granted h e).hlfTo h 0 2 := ⟨_, rfl⟩
  have hx : x = y.showTake h (d.hlfState h == 2) gap := by rw [hy]; rfl
  have hyown : y.hlfState h = 0 := by rw [hy]; exact hlfState_hlfTo _ h 0 2
  have hyw {f : Fld} (hf : f.fits = true) (hc : 0 < f.cnt) : y.get (shp .wir) f = (d.granted h e).get (shp .wir) f := by
    rw [hy]
    exact get_of_keeps (keeps_hlfTo _ h 0 2) hf hc (by decide) (by cases h <;> decide)
  have hxw {f : Fld} (hf : f.fits = true) (hc : 0 < f.cnt) (ha : WIR.LAST_GAP_US.apart f = true) : x.get (shp .wir) f = (d.granted h e).get (shp .wir) f := by
    have hhlf (z : Dev) {g : Fld} (v : Nat) (hg : g.fits = true) (hgc : 0 < g.cnt) : (z.put (ctl .hlf h) g v).get (shp .wir) f = z.get (shp .wir) f :=
      get_put_other _ _ (by cases h <;> decide) hg hf hgc hc (by decide) (by decide)
    rw [← hyw hf hc, hx, showTake, get_put_field _ _ ha (by decide) hf (by decide) hc (by decide) (by decide), hhlf _ _ (by decide) (by decide)]
    simp only [stat, orBits, putb, bump]
    rw [hhlf _ _ (by decide) (by decide), hhlf _ _ (by decide) (by decide), hhlf _ _ (by decide) (by decide)]
  have hwir (z : Dev) (v : Nat) {f : Fld} (hf : f.fits = true) (hc : 0 < f.cnt) : (z.put (shp .wir) WIR.LAST_GAP_US v).get (ctl .hlf h) f = z.get (ctl .hlf h) f :=
    get_put_other _ _ (by cases h <;> decide) (by decide) hf (by decide) hc (by decide) (by decide)
  refine ⟨(hxw (by decide) (by decide) (by decide)).trans g1, (hxw (by decide) (by decide) (by decide)).trans g2, (hxw (by decide) (by decide) (by decide)).trans g3,
    (hxw (by decide) (by decide) (by decide)).trans g4, ?_, ?_, ?_⟩
  · rw [hx, hlfState, showTake, hwir _ _ (by decide) (by decide)]
    simp (disch := decide) only [putb, bump, stat, orBits, get_put_field]
    exact hyown
  · rw [hx, showTake, hwir _ _ (by decide) (by decide), get_put_field _ _ (by decide) (by decide) (by decide) (by decide) (by decide) (by decide) (by decide),
      get_stat_apart _ _ (by decide) (by decide) (by decide) (by decide), putb, get_put_same _ _ _ _ _ _ (by decide)]
    rcases hst with hs | hs
    · rw [hs]
      rfl
    · rw [hs]
      rfl
  · rw [hx, showTake, hwir _ _ (by decide) (by decide), get_put_same _ _ _ _ _ _ (by decide)]
    exact Nat.mod_eq_of_lt hgap

end

theorem hlfState_winning_other (d : Dev) (h : HalfId) (e gap : Nat) : (d.winning h e gap).hlfState h.other = d.hlfState h.other := by
  have hshow (y : Dev) (b : Bool) : (y.showTake h b gap).hlfState h.other = y.hlfState h.other := by
    cases h <;> simp (disch := decide) [hlfState, showTake, bump, putb, stat, orBits, get_put_other, HalfId.other]
  have hknown (y : Dev) (q : HalfId) (v : Nat) : (y.put (ctl .hlf q) HLF.EPOCH_KNOWN v).hlfState h.other = y.hlfState h.other := by
    cases h <;> cases q <;> simp (disch := decide) [hlfState, get_put_other, get_put_field, HalfId.other]
  have hwir (y : Dev) (v : Nat) : (y.put (shp .wir) WIR.GRANTS_COUNT v).hlfState h.other = y.hlfState h.other :=
    get_put_other _ _ (by cases h <;> decide) (by decide) (by decide) (by decide) (by decide) (by decide) (by decide)
  have hleased : (d.leased h e).hlfState h.other = d.hlfState h.other :=
    get_of_keeps (keeps_leased d h e) (by decide) (by decide) (by decide) (by cases h <;> decide)
  have hgranted : (d.granted h e).hlfState h.other = d.hlfState h.other := by
    unfold granted
    extract_lets x
    have hx : x.hlfState h.other = d.hlfState h.other := by rw [hknown, hwir, hleased]
    split
    · rw [hknown, hx]
    · exact hx
  rw [winning, hshow, hlfState_hlfTo_other, hgranted]

/-! ### The window -/

/-- A window that one half wins out of STANDBY_SYNC or STANDBY_STALE, with no other claim and no other half ACTIVE. -/
theorem windowEnd_eq {d : Dev} {h : HalfId} {e : Nat} (gap dt : Nat) (hwin : d.on (shp .wir) WIR.LEASE_WIN = true) (hw : d.winner = some (h, e))
    (hst : d.hlfState h = 1 ∨ d.hlfState h = 2) (ho : d.active h.other = false) (hcl : ∀ c ∈ d.weir.claims, c.1 = h) :
    d.windowEnd gap dt =
      ((if d.hlfState h = 1 then (d.winning h e gap).warmTake h dt else (d.winning h e gap).coldTake h dt).modWeir (fun x => { x with swapBy := none })).showLease := by
  have hnone : (d.weir.claims.map (fun c => c.1)).filter (fun q => q != h) = [] := by
    rw [List.filter_eq_nil_iff]
    intro q hq
    obtain ⟨c, hc, rfl⟩ := List.mem_map.mp hq
    simp [hcl c hc]
  have hother : (d.winning h e gap).active h.other = false := by
    rw [active, show (d.winning h e gap).get (ctl .hlf h.other) HLF.STATE_OWN = d.get (ctl .hlf h.other) HLF.STATE_OWN from hlfState_winning_other d h e gap]
    exact ho
  have hnot5 : d.hlfState h ≠ 5 := by omega
  unfold windowEnd
  extract_lets w losers win d0 d1
  rw [if_neg (by simp [w, hwin]), show win = some (h, e) from hw]
  split
  case h_1 hno => exact absurd hno (by simp)
  case h_2 q k hqk =>
    obtain ⟨rfl, rfl⟩ : h = q ∧ e = k := by simpa using hqk
    extract_lets ls st d2 d3 d4 d5 d6 d7 d8 d9
    have hls : ls = [] := hnone
    have hst0 : st = d.hlfState h := get_put_other _ _ (by cases h <;> decide) (by decide) (by decide) (by decide) (by decide) (by decide) (by decide)
    have h6 : d6 = d.winning h e gap := by
      refine (if_neg (by rw [hst0]; exact hnot5)).trans ?_
      rw [hst0]
      rfl
    have h7 : d7 = d.winning h e gap := by
      rw [show d7 = d6.formerActive h.other from rfl, h6, formerActive, hother]
      rfl
    have h9 : d9 = d8 := by rw [show d9 = ls.foldl (fun d l => d.loseClaim l) d8 from rfl, hls, List.foldl_nil]
    have h8 : d8 = if d.hlfState h = 1 then (d.winning h e gap).warmTake h dt else (d.winning h e gap).coldTake h dt := by
      rw [← h7]
      rcases hst with hs | hs
      · rw [if_pos hs]
        exact if_pos (hst0.trans hs)
      · have hs1 : ¬ d.hlfState h = 1 := by omega
        rw [if_neg hs1]
        exact (if_neg (by rw [hst0]; exact hs1)).trans (if_pos (hst0.trans hs))
    rw [h9, h8]

theorem causes_coldTake (d : Dev) (h : HalfId) (dt : Nat) : bitN (d.coldTake h dt).fio.causes 5 = 1 := by
  have hmod (x : Dev) (g : Hlf → Hlf) : (x.modHlf h g).fio = x.fio := by cases h <;> rfl
  rw [coldTake, hmod]
  exact (congrArg (fun x => bitN x.2 5) (alarm_fioSafe _ 5)).trans (bitN_setBitN_same _ _ true)

end Dev

section
variable {s : State} {h : HalfId} (hout : s.out = true)
include hout

theorem claimWindowEnd_grants (gap : BitVec 20) (dt : BitVec 48) (e : Nat) (hwin : s.dev.on (shp .wir) WIR.LEASE_WIN = true) (hw : s.dev.winner = some (h, e))
    (hst : s.dev.hlfState h = 1 ∨ s.dev.hlfState h = 2) (ho : s.dev.active h.other = false) (hcl : ∀ c ∈ s.dev.weir.claims, c.1 = h)
    (hring : s.dev.get (ctl .shl h) SHL.SUB_TAIL_IDX = s.dev.get (ctl .shl h) SHL.SUB_HEAD_IDX) (hin : s.dev.shadowInside h) :
    ∃ t, exec (.claimWindowEnd gap dt) s = .next t ∧ t.pending = s.pending ∧ t.dev.holds h = true ∧ t.dev.hlfState h = 0 ∧
      t.dev.get (shp .wir) WIR.LEASE_EPOCH = e % 2 ^ 16 ∧
      t.dev.get (shp .wir) WIR.GRANTS_COUNT = (s.dev.get (shp .wir) WIR.GRANTS_COUNT + 1) % 2 ^ 16 ∧
      t.dev.get (ctl .hlf h) HLF.TAKE_COLD = (if s.dev.hlfState h = 2 then 1 else 0) ∧ t.dev.get (ctl .hlf h) HLF.GAP_US = gap.toNat ∧
      (s.dev.hlfState h = 2 → bitN t.dev.fio.causes 5 = 1) := by
  obtain ⟨x, hx⟩ : ∃ x, x = s.dev.winning h e gap.toNat := ⟨_, rfl⟩
  obtain ⟨y, hy⟩ : ∃ y, y = if s.dev.hlfState h = 1 then x.warmTake h dt.toNat else x.coldTake h dt.toNat := ⟨_, rfl⟩
  have hgo : s.dev.windowEnd gap.toNat dt.toNat = (y.modWeir (fun w => { w with swapBy := none })).showLease := by
    rw [hy, hx]
    exact Dev.windowEnd_eq _ _ hwin hw hst ho hcl
  obtain ⟨w1, w2, w3, w4, w5, w6, w7⟩ := Dev.winning_shows s.dev h e gap.toNat hst gap.isLt
  have hkeep := Dev.keeps_winning s.dev h e gap.toNat
  have hcyx := Dev.cyx_winning s.dev h e gap.toNat
  rw [← hx] at w1 w2 w3 w4 w5 w6 w7 hkeep hcyx
  have hinx : x.shadowInside h := fun c hc => hin c (by rw [← hcyx h]; exact hc)
  have hxy : Dev.Seats leaseSeats x y := by
    rw [hy]
    refine Dev.Seats.ite (fun _ => Dev.seats_warmTake x h hinx _ ?_) fun _ => Dev.seats_coldTake x h hinx _
    rw [Dev.get_of_keeps hkeep (by decide) (by decide) (by decide) (by cases h <;> decide), Dev.get_of_keeps hkeep (by decide) (by decide) (by decide) (by cases h <;> decide)]
    exact hring
  have hcause : s.dev.hlfState h = 2 → bitN y.fio.causes 5 = 1 := fun hs => by
    rw [hy, if_neg (by omega)]
    exact Dev.causes_coldTake x h _
  have hend : Dev.Seats leaseSeats y (y.modWeir (fun w => { w with swapBy := none })).showLease :=
    ((Dev.Seats.refl _ y).same (x := y.modWeir (fun w => { w with swapBy := none })) rfl).trans (Dev.seats_showLease leaseSeats_seated (by decide) _)
  have hfio : (y.modWeir (fun w => { w with swapBy := none })).showLease.fio = y.fio := Dev.fio_showLease _
  have hall := hxy.trans hend
  refine ⟨_, next_of_out_eq hout rfl hgo, rfl, ?_⟩
  generalize (y.modWeir (fun w => { w with swapBy := none })).showLease = t at hall hfio
  have hget (f : Nat × Fld) (hf : f ∈ leaseSeats) : t.get f.1 f.2 = x.get f.1 f.2 := hall.get f hf
  have hvalid : t.get (shp .wir) WIR.LEASE_VALID = 1 := (hget (shp .wir, WIR.LEASE_VALID) (by decide)).trans w1
  have hholder : t.get (shp .wir) WIR.LEASE_HOLDER = (h == .b).toNat := (hget (shp .wir, WIR.LEASE_HOLDER) (by decide)).trans w2
  refine ⟨?_, (hget (ctl .hlf h, HLF.STATE_OWN) (by cases h <;> decide)).trans w5, (hget (shp .wir, WIR.LEASE_EPOCH) (by decide)).trans w3,
    (hget (shp .wir, WIR.GRANTS_COUNT) (by decide)).trans w4, (hget (ctl .hlf h, HLF.TAKE_COLD) (by cases h <;> decide)).trans w6,
    (hget (ctl .hlf h, HLF.GAP_US) (by cases h <;> decide)).trans w7, fun hs => ?_⟩
  · show t.holds h = true
    rw [Dev.holds, Dev.holder?, Dev.on, Dev.on, hvalid, hholder]
    cases h <;> rfl
  · show bitN t.fio.causes 5 = 1
    rw [hfio]
    exact hcause hs

end

/-- Settles O44: renewals, expiry and releases at the Weir's page, claims and grants at the pages of the halves, and the takeovers at the registers they leave. -/
theorem theLeaseMoves : Obligations.TheLeaseMoves := by
  unfold Obligations.TheLeaseMoves
  intro s h hout
  refine ⟨fun e => leaseRenewal_keeps hout e, fun _ => leaseExpiry_ends hout, fun i rel hi => halfAbort_rule hout i rel hi, fun hmay hno => standbyClaim_rule hout hmay hno,
    fun gap dt e hwin hw hst ho hcl hring hin => claimWindowEnd_grants hout gap dt e hwin hw hst ho hcl hring hin, fun e e' hcl ha hb _ _ => Dev.winner_of_two hcl ha hb,
    Dev.weirNohold_rule s hout, fun n hsh hrun hcar hmv => Dev.intentTimeout_rule s hout n hsh hrun hcar hmv⟩

end Sys2Proof.Machine
end

section
/-! PROOFS. A core's DONE, and the starts and stops of the program of a half (R314, R318, R319, R321). -/
namespace Sys2Proof.Machine

open Sys2Proof

/-- What a stop or a start of the other half leaves of a half: its state, its first scan and its last error, with the lease. -/
def codeSeats (h : HalfId) : List (Nat × Fld) :=
  [CYX.STATE_CODE, CYX.STATE_COLD, CYX.STATE_FIRST, HDR.ERR_CODE, CYX.CYC_LAST_US, CYX.CNT_CYCLE].map (fun f => (ctl .cyx h, f)) ++
    [WIR.LEASE_VALID, WIR.LEASE_HOLDER].map (fun f => (shp .wir, f))

/-- What a stop of a half leaves of itself. -/
def haltSeats (h : HalfId) : List (Nat × Fld) :=
  [HDR.ERR_CODE, CYX.CYC_LAST_US, CYX.CNT_CYCLE].map (fun f => (ctl .cyx h, f)) ++ [WIR.LEASE_VALID, WIR.LEASE_HOLDER].map (fun f => (shp .wir, f))

/-- What the watchdog of a program asks of its half. -/
def watchSeats (h : HalfId) : List (Nat × Fld) :=
  [(ctl .hlf h, HLF.STATE_OWN), (ctl .cyx h, CYX.WDOG_ACT), (shp .wir, WIR.LEASE_VALID), (shp .wir, WIR.LEASE_HOLDER)]

theorem codeSeats_other (h : HalfId) : startClear (codeSeats h) h.other = true := by cases h <;> decide
theorem haltSeats_mine (h : HalfId) : startClear (haltSeats h) h = true := by cases h <;> decide
theorem codeSeats_safe (h : HalfId) : safeClear (codeSeats h) = true := by cases h <;> decide
theorem haltSeats_safe (h : HalfId) : safeClear (haltSeats h) = true := by cases h <;> decide
theorem haltSeats_code (h : HalfId) : ∀ w ∈ haltSeats h, w ∈ codeSeats h := by cases h <;> decide

namespace Dev

section
variable (d : Dev) (h : HalfId)

theorem running_of_active {d : Dev} {h : HalfId} (ha : d.active h = true) : d.running h = true := by
  simp only [active, beq_iff_eq] at ha
  simp [running, ha]

/-! ### Stops -/

/-- A stop of both halves' programs, where the other half follows. -/
def haltBoth (code : Nat) : Dev := if (d.cyxHalt h code).mirrors h.other then (d.cyxHalt h code).cyxHalt h.other code else d.cyxHalt h code

theorem cyx_fioSafe (c : Nat) (q : HalfId) : (d.fioSafe c).cyx q = d.cyx q := congrArg Half.cyx (half_of_ctlPart (ctlPart_fioSafe d c) q)

theorem cyx_cyxHalt (code : Nat) : (d.cyxHalt h code).cyx h = { d.cyx h with phase := 0, stopReq := false, restart := none } := by
  unfold cyxHalt
  extract_lets x
  have hx : x.cyx h = { d.cyx h with phase := 0, stopReq := false, restart := none } := by rw [cyx_modCyx_same, cyx_put]
  split
  · rw [cyx_fioSafe, hx]
  · exact hx

theorem cyx_cyxHalt_other (code : Nat) : (d.cyxHalt h.other code).cyx h = d.cyx h := by
  unfold cyxHalt
  extract_lets x
  have hx : x.cyx h = d.cyx h := by rw [cyx_modCyx_mine, cyx_put]
  split
  · rw [cyx_fioSafe, hx]
  · exact hx

theorem causes_fioSafe (c : Nat) : (d.fioSafe c).fio.causes = setBitN d.fio.causes c true := (Prod.mk.inj (alarm_fioSafe d c)).2

/-- The half that stops its program shows it, and brings the field outputs to their safe state where it holds the lease. -/
theorem cyxHalt_shows {code : Nat} (hcode : code < 4) :
    (d.cyxHalt h code).get (ctl .cyx h) CYX.STATE_CODE = code ∧ (d.holds h = true → bitN (d.cyxHalt h code).fio.causes 3 = 1) := by
  unfold cyxHalt
  extract_lets x
  have hx : x.get (ctl .cyx h) CYX.STATE_CODE = code := (get_congr (regs_modCyx ..) ..).trans ((get_put_same _ _ _ _ _ _ (by decide)).trans (Nat.mod_eq_of_lt hcode))
  have hseats : Seats (haltSeats h) d x := ((Seats.refl _ d).putStart (haltSeats_mine h) (by decide) code).same (regs_modCyx ..)
  have hholds : x.holds h = d.holds h :=
    holds_of_lease (hseats.get (shp .wir, WIR.LEASE_VALID) (by cases h <;> decide)) (hseats.get (shp .wir, WIR.LEASE_HOLDER) (by cases h <;> decide)) h
  refine ⟨?_, fun hh => ?_⟩
  · split
    · exact (get_of_ctlPart (ctlPart_fioSafe x 3) (by cases h <;> decide) (by decide) (by decide) (by decide)).trans hx
    · exact hx
  · rw [if_pos (hholds.trans hh), causes_fioSafe, bitN_setBitN_same]
    rfl

theorem causes_cyxHalt_kept (q : HalfId) (code : Nat) (hb : bitN d.fio.causes 3 = 1) : bitN (d.cyxHalt q code).fio.causes 3 = 1 := by
  have hput : ((d.put (ctl .cyx q) CYX.STATE_CODE code).modCyx q (fun x => { x with phase := 0, stopReq := false, restart := none })).fio = d.fio := by cases q <;> rfl
  unfold cyxHalt
  extract_lets x
  split
  · rw [causes_fioSafe, bitN_setBitN_same]
    rfl
  · exact (congrArg (fun f => bitN f.causes 3) hput).trans hb

theorem cyx_haltBoth (code : Nat) : (d.haltBoth h code).cyx h = { d.cyx h with phase := 0, stopReq := false, restart := none } := by
  unfold haltBoth
  split
  · rw [cyx_cyxHalt_other, cyx_cyxHalt]
  · exact cyx_cyxHalt ..

theorem seats_haltBoth (code : Nat) : Seats (haltSeats h) d (d.haltBoth h code) := by
  have hone : Seats (haltSeats h) d (d.cyxHalt h code) := (Seats.refl _ d).cyxHalt (haltSeats_mine h) (haltSeats_safe h) code
  exact .ite (fun _ => hone.trans (((Seats.refl (codeSeats h) _).cyxHalt (codeSeats_other h) (codeSeats_safe h) code).mono (haltSeats_code h))) fun _ => hone

theorem haltBoth_shows {code : Nat} (hcode : code < 4) :
    (d.haltBoth h code).get (ctl .cyx h) CYX.STATE_CODE = code ∧ (d.holds h = true → bitN (d.haltBoth h code).fio.causes 3 = 1) := by
  obtain ⟨hone, hbit⟩ := d.cyxHalt_shows h hcode
  unfold haltBoth
  split
  · have hs : Seats (codeSeats h) (d.cyxHalt h code) ((d.cyxHalt h code).cyxHalt h.other code) := (Seats.refl _ _).cyxHalt (codeSeats_other h) (codeSeats_safe h) code
    exact ⟨(hs.get (ctl .cyx h, CYX.STATE_CODE) (by cases h <;> decide)).trans hone, fun hh => causes_cyxHalt_kept _ _ _ (hbit hh)⟩
  · exact ⟨hone, hbit⟩

/-! ### Starts -/

/-- A start of both halves' programs, where the other half follows. -/
def startBoth (cold : Bool) : Dev := if (d.startHalf h cold).mirrors h.other then (d.startHalf h cold).startHalf h.other cold else d.startHalf h cold

/-- What a start leaves of a half's executive. -/
def startedCyx (pr : Program) (cold : Bool) (x : Cyx) : Cyx :=
  { x with valid := true, restart := none, stopReq := false, phase := 0, cells := if cold || !x.valid then pr.cells.map Cell.init else x.cells }

/-- A part whose half shows that its program starts. -/
def startShown (cold : Bool) : Dev := ((d.put (ctl .cyx h) CYX.STATE_CODE 1).putb (ctl .cyx h) CYX.STATE_COLD cold).put (ctl .cyx h) CYX.STATE_FIRST 1

theorem startHalf_eq {pr : Program} (hpr : d.prog? h = some pr) (cold : Bool) : d.startHalf h cold =
    ((((d.startMem h pr (cold || !(d.cyx h).valid)).startShown h (cold || !(d.cyx h).valid)).showImage h).modCyx h
      (fun x => { x with valid := true, restart := none, stopReq := false, phase := 0 })).stat (ctl .cyx h) 4 := by
  unfold startHalf
  rw [hpr]
  rfl

theorem cyx_startMem (pr : Program) (c : Bool) : (d.startMem h pr c).cyx h = { d.cyx h with cells := if c then pr.cells.map Cell.init else (d.cyx h).cells } := by
  unfold startMem
  extract_lets m0 m x
  have hx : x.cyx h = d.cyx h := by rw [show x = (d.setSram h _).heal h _ from rfl, heal, cyx_modHlf, cyx_setSram]
  cases c
  · exact hx
  · show (x.modCyx h (fun y => { y with cells := pr.cells.map Cell.init })).cyx h = _
    rw [cyx_modCyx_same, hx]
    rfl

theorem cyx_startHalf {pr : Program} (hpr : d.prog? h = some pr) (cold : Bool) : (d.startHalf h cold).cyx h = startedCyx pr cold (d.cyx h) := by
  rw [d.startHalf_eq h hpr, cyx_stat, cyx_modCyx_same, cyx_showImage, startShown, cyx_put, putb, cyx_put, cyx_put, cyx_startMem, startedCyx]

theorem cyx_startHalf_other (cold : Bool) : (d.startHalf h.other cold).cyx h = d.cyx h := by
  unfold startHalf
  extract_lets p c m0
  split
  · rfl
  · extract_lets m x y z
    have hx : x.cyx h = d.cyx h := by rw [show x = (d.setSram h.other _).heal h.other _ from rfl, heal, cyx_modHlf, cyx_setSram]
    have hy : y.cyx h = d.cyx h := by
      by_cases hc : c = true
      · rw [show y = x.modCyx h.other _ from if_pos hc, cyx_modCyx_mine, hx]
      · rw [show y = x from if_neg hc, hx]
    rw [cyx_stat, cyx_modCyx_mine, cyx_showImage, cyx_put, putb, cyx_put, cyx_put, hy]

/-- The registers that a start shows, and the image after it leaves. -/
theorem showImage_leaves {f : Fld} (hf : f.fits = true) (hc : 0 < f.cnt) (ha : [CYX.IMG_ID, CYX.RET_BASE, CYX.RET_SIZE, CYX.SHADOW_BASE].all (fun g => g.apart f) = true) :
    (d.showImage h).get (ctl .cyx h) f = d.get (ctl .cyx h) f := by
  simp only [List.all_cons, List.all_nil, Bool.and_true, Bool.and_eq_true] at ha
  obtain ⟨h1, h2, h3, h4⟩ := ha
  have hlane : (d.laneTable h).get (ctl .cyx h) f = d.get (ctl .cyx h) f := by
    unfold laneTable
    extract_lets pick rx
    split <;> rfl
  have htmc : ctl .tmc h ≠ ctl .cyx h := by cases h <;> decide
  unfold showImage
  extract_lets p pr t x y
  rw [get_put_other _ _ htmc (by decide) hf (by decide) hc (by decide) (by decide), get_put_other _ _ htmc (by decide) hf (by decide) hc (by decide) (by decide),
    get_put_field _ _ h4 (by decide) hf (by decide) hc (by decide) (by decide), get_put_field _ _ h3 (by decide) hf (by decide) hc (by decide) (by decide),
    get_put_field _ _ h2 (by decide) hf (by decide) hc (by decide) (by decide), get_put_field _ _ h1 (by decide) hf (by decide) hc (by decide) (by decide), hlane]

theorem startHalf_shows {pr : Program} (hpr : d.prog? h = some pr) (cold : Bool) :
    (d.startHalf h cold).get (ctl .cyx h) CYX.STATE_CODE = 1 ∧ (d.startHalf h cold).get (ctl .cyx h) CYX.STATE_FIRST = 1 ∧
      (d.startHalf h cold).on (ctl .cyx h) CYX.STATE_COLD = (cold || !(d.cyx h).valid) := by
  rw [d.startHalf_eq h hpr]
  generalize (cold || !(d.cyx h).valid) = c
  generalize d.startMem h pr c = y
  have hend {f : Fld} (hf : f.fits = true) (hc : 0 < f.cnt) (ha : [HDR.STAT_BLOCK, CYX.IMG_ID, CYX.RET_BASE, CYX.RET_SIZE, CYX.SHADOW_BASE].all (fun g => g.apart f) = true) :
      ((((y.startShown h c).showImage h).modCyx h (fun x => { x with valid := true, restart := none, stopReq := false, phase := 0 })).stat (ctl .cyx h) 4).get (ctl .cyx h) f =
        (y.startShown h c).get (ctl .cyx h) f := by
    rw [List.all_cons, Bool.and_eq_true] at ha
    exact (get_put_field _ _ ha.1 (by decide) hf (by decide) hc (by decide) (by decide)).trans ((get_congr (regs_modCyx ..) ..).trans (showImage_leaves _ h hf hc ha.2))
  have hz {f : Fld} (hf : f.fits = true) (hc : 0 < f.cnt) (ha : CYX.STATE_FIRST.apart f = true) :
      (y.startShown h c).get (ctl .cyx h) f = ((y.put (ctl .cyx h) CYX.STATE_CODE 1).putb (ctl .cyx h) CYX.STATE_COLD c).get (ctl .cyx h) f :=
    get_put_field _ _ ha (by decide) hf (by decide) hc (by decide) (by decide)
  refine ⟨?_, ?_, ?_⟩
  · refine (hend (by decide) (by decide) (by decide)).trans ((hz (by decide) (by decide) (by decide)).trans ?_)
    exact (get_put_field _ _ (by decide) (by decide) (by decide) (by decide) (by decide) (by decide) (by decide)).trans (get_put_same _ _ _ _ _ _ (by decide))
  · exact (hend (by decide) (by decide) (by decide)).trans (get_put_same _ _ _ _ _ _ (by decide))
  · have hget := (hend (f := CYX.STATE_COLD) (by decide) (by decide) (by decide)).trans ((hz (by decide) (by decide) (by decide)).trans (get_put_same _ _ _ _ _ _ (by decide)))
    rw [on, hget]
    cases c <;> rfl

theorem startBoth_shows {pr : Program} (hpr : d.prog? h = some pr) (cold : Bool) :
    (d.startBoth h cold).get (ctl .cyx h) CYX.STATE_CODE = 1 ∧ (d.startBoth h cold).get (ctl .cyx h) CYX.STATE_FIRST = 1 ∧
      (d.startBoth h cold).on (ctl .cyx h) CYX.STATE_COLD = (cold || !(d.cyx h).valid) ∧ (d.startBoth h cold).cyx h = startedCyx pr cold (d.cyx h) := by
  obtain ⟨hcode, hfirst, hcold⟩ := d.startHalf_shows h hpr cold
  have hcyx := d.cyx_startHalf h hpr cold
  unfold startBoth
  split
  · have hs : Seats (codeSeats h) (d.startHalf h cold) ((d.startHalf h cold).startHalf h.other cold) := (Seats.refl _ _).startHalf (codeSeats_other h) cold
    refine ⟨(hs.get (ctl .cyx h, CYX.STATE_CODE) (by cases h <;> decide)).trans hcode, (hs.get (ctl .cyx h, CYX.STATE_FIRST) (by cases h <;> decide)).trans hfirst, ?_,
      (cyx_startHalf_other ..).trans hcyx⟩
    rw [← hcold, on, on, hs.get (ctl .cyx h, CYX.STATE_COLD) (by cases h <;> decide)]
  · exact ⟨hcode, hfirst, hcold, hcyx⟩

end

end Dev

/-! ### The clauses -/

section
variable {s : State} {h : HalfId} (hout : s.out = true)
include hout

theorem cyxDone_counts (core : Fin 4) (a : BitVec 32) (b : BitVec 8) (hph : (s.dev.cyx h).phase = 2)
    (hmask : bitN (s.dev.get (ctl .cyx h) CYX.CORE_MASK_CORES) core = 1) (hlo : 0x08080000 ≤ a.toNat) (hhi : a.toNat ≤ 0x087FFFFF) :
    ∃ t, exec (.cyxDone h core [(a, b)]) s = .next t ∧ t.pending = s.pending ∧ (t.dev.cyx h).done = setBitN (s.dev.cyx h).done core true ∧
      memRead (t.dev.half h).sram a.toNat = b ∧ (∀ x, x ≠ a.toNat → memRead (t.dev.half h).sram x = memRead (s.dev.half h).sram x) ∧
      t.dev.regs = s.dev.regs ∧ t.dev.mram = s.dev.mram := by
  obtain ⟨x, hx⟩ : ∃ x, x = (s.dev.setSram h (memWrite (s.dev.half h).sram a.toNat b)).heal h [(a.toNat, 1)] := ⟨_, rfl⟩
  have hregs : x.regs = s.dev.regs := by rw [hx, Dev.heal, Dev.regs_modHlf, Dev.setSram, Dev.modHalf_regs]
  have hcyx : x.cyx h = s.dev.cyx h := by rw [hx, Dev.heal, Dev.cyx_modHlf, Dev.cyx_setSram]
  have hsram : (x.half h).sram = memWrite (s.dev.half h).sram a.toNat b := by rw [hx, Dev.heal, Dev.half_modHlf, Dev.setSram, Dev.half_modHalf_same]
  have hmram : x.mram = s.dev.mram := by rw [hx, Dev.heal, Dev.mram_modHlf]; cases h <;> rfl
  have hgo : x.cyxDone h core.val = x.modCyx h (fun x => { x with done := setBitN x.done core.val true }) := by
    unfold Dev.cyxDone
    extract_lets p c
    have hc : c.phase = 2 := by rw [← hph, ← hcyx]
    rw [if_neg (by omega), if_pos (by rw [hc, Dev.get_congr hregs, hmask]; rfl)]
  have hstep : exec (.cyxDone h core [(a, b)]) s = .next { s with dev := x.modCyx h (fun x => { x with done := setBitN x.done core.val true }) } := by
    refine next_of_out_eq hout rfl ?_
    rw [← hgo, hx]
    simp [hlo, hhi]
  refine ⟨_, hstep, rfl, ?_, ?_, fun y hy => ?_, (Dev.regs_modCyx ..).trans hregs, ?_⟩
  · rw [Dev.cyx_modCyx_same, hcyx]
  · rw [Dev.modCyx, Dev.half_modHalf_same]
    exact (congrArg (memRead · a.toNat) hsram).trans (by rw [memRead_memWrite, if_pos rfl])
  · rw [Dev.modCyx, Dev.half_modHalf_same]
    exact (congrArg (memRead · y) hsram).trans (by rw [memRead_memWrite, if_neg hy])
  · refine Eq.trans ?_ hmram
    cases h <;> rfl

theorem cycWdog_halts (ha : s.dev.active h = true) (hcode : s.dev.get (ctl .cyx h) CYX.STATE_CODE = 1) (hph : (s.dev.cyx h).phase ≠ 0) (hall : s.dev.allDone h = false)
    (hact : s.dev.on (ctl .cyx h) CYX.WDOG_ACT = false) :
    ∃ t, exec (.cycWdog h) s = .next t ∧ t.pending = s.pending ∧ t.dev.get (ctl .cyx h) CYX.STATE_CODE = 2 ∧ t.dev.get (ctl .cyx h) HDR.ERR_CODE = cCYC_WDOG ∧
      (t.dev.cyx h).phase = 0 ∧ (s.dev.holds h = true → bitN t.dev.fio.causes 3 = 1) := by
  obtain ⟨late, hlate⟩ : ∃ n, n = bitsOf 4 (fun c => bitN (s.dev.get (ctl .cyx h) CYX.CORE_MASK_CORES) c == 1 && bitN (s.dev.cyx h).done c == 0) := ⟨_, rfl⟩
  obtain ⟨x, hx⟩ : ∃ x, x = (s.dev.stat (ctl .cyx h) 0).fault (ctl .cyx h) cCYC_WDOG late [late] := ⟨_, rfl⟩
  have hws : seated (watchSeats h) = true := by cases h <;> decide
  have hseats : Dev.Seats (watchSeats h) s.dev x := by
    rw [hx]
    exact (((Dev.Seats.refl _ s.dev).stat hws (by cases h <;> decide) _ _).err hws (by cases h <;> decide) _ _ _).note hws ..
  have hcyx : x.cyx h = s.dev.cyx h := by rw [hx, Dev.cyx_fault, Dev.cyx_stat]
  have herr : x.get (ctl .cyx h) HDR.ERR_CODE = cCYC_WDOG := by rw [hx, Dev.fault_code _ _ _ _ (by cases h <;> decide)]; rfl
  have hactive : x.active h = true := by rw [Dev.active, hseats.get (ctl .hlf h, HLF.STATE_OWN) (by cases h <;> decide)]; exact ha
  have hact' : x.on (ctl .cyx h) CYX.WDOG_ACT = false := by rw [Dev.on, hseats.get (ctl .cyx h, CYX.WDOG_ACT) (by cases h <;> decide)]; exact hact
  have hholds : x.holds h = s.dev.holds h :=
    Dev.holds_of_lease (hseats.get (shp .wir, WIR.LEASE_VALID) (by cases h <;> decide)) (hseats.get (shp .wir, WIR.LEASE_HOLDER) (by cases h <;> decide)) h
  have hrun : s.dev.running h = true := Dev.running_of_active ha
  have hgo : s.dev.cycWdog h = x.haltBoth h 2 := by
    unfold Dev.cycWdog
    extract_lets p c mask late' y soon z
    have hy : y = x := by rw [hx, hlate]
    have hz : z = x.cyxHalt h 2 := congrArg (Dev.cyxHalt · h 2) hy
    rw [if_neg (by simp [hrun, p, hcode, c, hph, hall]), hz, hy, if_neg (by simp [hactive]), if_neg (by simp [p, hact'])]
    rfl
  obtain ⟨hstate, hcause⟩ := x.haltBoth_shows h (code := 2) (by decide)
  refine ⟨_, next_of_out_eq hout rfl hgo, rfl, hstate, ((x.seats_haltBoth h 2).get (ctl .cyx h, HDR.ERR_CODE) (by cases h <;> decide)).trans herr, ?_, fun hh => hcause (hholds.trans hh)⟩
  exact congrArg Cyx.phase (x.cyx_haltBoth h 2)

theorem cyxStart_starts (i : Instr) (cold : Bool) (hi : i = .cyxWarm h ∧ cold = false ∨ i = .cyxCold h ∧ cold = true) (ha : s.dev.active h = true)
    (hpr : (s.dev.prog? h).isSome = true) (hcode : s.dev.get (ctl .cyx h) CYX.STATE_CODE ≠ 1) :
    ∃ t, exec i s = .next t ∧ t.pending = s.pending ∧ t.dev.get (ctl .cyx h) CYX.STATE_CODE = 1 ∧ t.dev.get (ctl .cyx h) CYX.STATE_FIRST = 1 ∧
      t.dev.on (ctl .cyx h) CYX.STATE_COLD = (cold || !(s.dev.cyx h).valid) ∧ (t.dev.cyx h).valid = true ∧
      ((cold || !(s.dev.cyx h).valid) = true → (t.dev.cyx h).cells = (s.dev.prog h).cells.map Cell.init) := by
  obtain ⟨pr, hsome⟩ := Option.isSome_iff_exists.mp hpr
  have hgo : s.dev.cyxStart h cold = s.dev.startBoth h cold := by
    unfold Dev.cyxStart
    rw [if_neg (by simp [ha]), if_neg (by simp [hcode])]
    rfl
  have hstep : exec i s = .next { s with dev := s.dev.startBoth h cold } := by
    rcases hi with ⟨rfl, rfl⟩ | ⟨rfl, rfl⟩
    · exact next_of_out_eq hout rfl hgo
    · exact next_of_out_eq hout rfl hgo
  obtain ⟨h1, h2, h3, h4⟩ := s.dev.startBoth_shows h hsome cold
  refine ⟨_, hstep, rfl, h1, h2, h3, congrArg Cyx.valid h4, fun hc => (congrArg Cyx.cells h4).trans ?_⟩
  rw [Dev.startedCyx, if_pos hc, Dev.prog, hsome]
  rfl

theorem cyxStop_waits (ha : s.dev.active h = true) (hcode : s.dev.get (ctl .cyx h) CYX.STATE_CODE = 1) (hin : (s.dev.cyx h).phase ≠ 0 ∨ (s.dev.cyx h).switchNow = true) :
    ∃ t, exec (.cyxStop h) s = .next t ∧ t.pending = s.pending ∧ (t.dev.cyx h).stopReq = true ∧ t.dev.get (ctl .cyx h) CYX.STATE_CODE = 1 := by
  have hgo : s.dev.cyxStop h = s.dev.modCyx h (fun x => { x with stopReq := true, restart := none }) := by
    unfold Dev.cyxStop
    rw [if_neg (by simp [ha, hcode]), if_pos (by simpa [Dev.inCycle] using hin)]
  refine ⟨_, next_of_out_eq hout rfl hgo, rfl, congrArg Cyx.stopReq (Dev.cyx_modCyx_same ..), (Dev.get_congr (Dev.regs_modCyx ..) ..).trans hcode⟩

theorem cyxStop_stops (ha : s.dev.active h = true) (hcode : s.dev.get (ctl .cyx h) CYX.STATE_CODE = 1) (hph : (s.dev.cyx h).phase = 0) (hsw : (s.dev.cyx h).switchNow = false) :
    ∃ t, exec (.cyxStop h) s = .next t ∧ t.pending = s.pending ∧ t.dev.get (ctl .cyx h) CYX.STATE_CODE = 0 ∧ (s.dev.holds h = true → bitN t.dev.fio.causes 3 = 1) := by
  have hgo : s.dev.cyxStop h = s.dev.haltBoth h 0 := by
    unfold Dev.cyxStop
    rw [if_neg (by simp [ha, hcode]), if_neg (by simp [Dev.inCycle, hph, hsw])]
    rfl
  obtain ⟨hstate, hcause⟩ := s.dev.haltBoth_shows h (code := 0) (by decide)
  exact ⟨_, next_of_out_eq hout rfl hgo, rfl, hstate, hcause⟩

end

end Sys2Proof.Machine
end

section
/-! PROOFS. The end of a cycle: what a publish leaves of the times and of the phase of its half (R315, R320, R332, R354). -/
namespace Sys2Proof.Machine

open Sys2Proof

/-- The time of the last cycle of a half. -/
def timeSeats (h : HalfId) : List (Nat × Fld) := [(ctl .cyx h, CYX.CYC_LAST_US)]

theorem timeSeats_seated (h : HalfId) : seated (timeSeats h) = true := by cases h <;> decide
theorem timeSeats_start (h q : HalfId) : startClear (timeSeats h) q = true := by cases h <;> cases q <;> decide
theorem timeSeats_safe (h : HalfId) : safeClear (timeSeats h) = true := by cases h <;> decide

namespace Dev

/-- A step after the end of a cycle of a half: its time stands, and no cycle of it begins. -/
structure Rests (h : HalfId) (d e : Dev) : Prop where
  seats : Seats (timeSeats h) d e
  phase : (d.cyx h).phase = 0 → (e.cyx h).phase = 0

namespace Rests

variable {h : HalfId} {d e x : Dev}

theorem refl (h : HalfId) (d : Dev) : Rests h d d := ⟨.refl .., id⟩

theorem trans (s : Rests h d e) (t : Rests h e x) : Rests h d x := ⟨s.seats.trans t.seats, fun hz => t.phase (s.phase hz)⟩

theorem same (s : Rests h d e) (hr : x.regs = e.regs) (hc : x.cyx h = e.cyx h) : Rests h d x := ⟨s.seats.same hr, fun hz => (congrArg Cyx.phase hc).trans (s.phase hz)⟩

theorem ite {c : Prop} [Decidable c] (s : c → Rests h d e) (t : ¬ c → Rests h d x) : Rests h d (if c then e else x) := by
  split
  case isTrue hc => exact s hc
  case isFalse hc => exact t hc

theorem put (s : Rests h d e) {f : Fld} (hf : f.fits = true) (hb : beside (timeSeats h) f = true) (p v : Nat) : Rests h d (e.put p f v) :=
  ⟨s.seats.put (timeSeats_seated h) hf hb p v (by decide), fun hz => (congrArg Cyx.phase (cyx_put ..)).trans (s.phase hz)⟩

theorem stat (s : Rests h d e) (p k : Nat) : Rests h d (e.stat p k) := s.put (by decide) (by cases h <;> decide) _ _

theorem err (s : Rests h d e) (p c y : Nat) : Rests h d (e.err p c y) :=
  ((s.put (by decide) (by cases h <;> decide) _ _).put (by decide) (by cases h <;> decide) _ _).put (by decide) (by cases h <;> decide) _ _

theorem note (s : Rests h d e) (p cls code det : Nat) (words : List Nat) : Rests h d (e.note p cls code det words) :=
  ⟨s.seats.note (timeSeats_seated h) .., fun hz => (congrArg Cyx.phase (cyx_post ..)).trans (s.phase hz)⟩

theorem fault (s : Rests h d e) (p c y : Nat) (words : List Nat) : Rests h d (e.fault p c y words) := (s.err p c y).note ..

theorem modHlf (s : Rests h d e) (q : HalfId) (g : Hlf → Hlf) : Rests h d (e.modHlf q g) := s.same (regs_modHlf ..) (cyx_modHlf ..)

theorem modCyx (s : Rests h d e) (q : HalfId) {g : Cyx → Cyx} (hg : ∀ x, (g x).phase = x.phase) : Rests h d (e.modCyx q g) := by
  refine ⟨s.seats.same (regs_modCyx ..), fun hz => Eq.trans ?_ (s.phase hz)⟩
  cases h <;> cases q
  · exact hg _
  · rfl
  · rfl
  · exact hg _

theorem cyxHalt (s : Rests h d e) (q : HalfId) (code : Nat) : Rests h d (e.cyxHalt q code) := by
  refine ⟨s.seats.cyxHalt (timeSeats_start h q) (timeSeats_safe h) code, fun hz => ?_⟩
  by_cases hq : q = h
  · rw [hq, cyx_cyxHalt]
  · obtain rfl : q = h.other := by cases h <;> cases q <;> trivial
    rw [cyx_cyxHalt_other]
    exact s.phase hz

theorem startHalf (s : Rests h d e) (q : HalfId) (cold : Bool) : Rests h d (e.startHalf q cold) := by
  refine ⟨s.seats.startHalf (timeSeats_start h q) cold, fun hz => ?_⟩
  by_cases hq : q = h
  · rw [hq]
    cases hpr : e.prog? h with
    | none =>
      have hnone : e.startHalf h cold = e := by rw [Dev.startHalf, hpr]
      rw [hnone]
      exact s.phase hz
    | some pr => rw [cyx_startHalf _ _ hpr, startedCyx]
  · obtain rfl : q = h.other := by cases h <;> cases q <;> trivial
    rw [cyx_startHalf_other]
    exact s.phase hz

/-- What waits for the end of the cycle. -/
theorem afterPublish (s : Rests h d e) : Rests h d (e.afterPublish h) := by
  unfold Dev.afterPublish
  extract_lets x y
  refine .ite (fun _ => .ite (fun _ => (s.cyxHalt h 0).cyxHalt _ _) fun _ => s.cyxHalt h 0) fun _ => ?_
  split
  · exact .ite (fun _ => (s.startHalf h _).startHalf _ _) fun _ => s.startHalf h _
  · exact s

/-- The cycle state on its way to the standby. -/
theorem sendState (s : Rests h d e) (st : CycState) : Rests h d (e.sendState h st) := by
  unfold Dev.sendState
  extract_lets r n first x y
  have hx : Rests h d x := (s.same (x := r.2) rfl (by cases h <;> rfl)).modCyx h.other fun _ => rfl
  have hy : Rests h d y := by
    refine .ite (fun _ => hx.trans ?_) fun _ => hx
    unfold rxLand
    split
    · exact (refl h x).same (regs_fillSram ..) (cyx_fillSram ..)
    · exact refl h x
  exact .ite (fun _ => (hy.put (by decide) (by cases h <;> decide) _ _).put (by decide) (by cases h <;> decide) _ _) fun _ => s

theorem cfgCycle (s : Rests h d e) (q : HalfId) : Rests h d (e.cfgCycle q) := .ite (fun _ => s.same rfl (by cases h <;> rfl)) fun _ => s

/-! ### The comparison of the standby -/

theorem goStale (s : Rests h d e) (q : HalfId) (cause : Nat) : Rests h d (e.goStale q cause) := by
  refine .ite (fun _ => Rests.modHlf ?_ _ _) fun _ => s
  unfold hlfTo
  extract_lets p o was x y z
  have hx : Rests h d x := (((s.put (by decide) (by cases h <;> decide) _ _).put (by decide) (by cases h <;> decide) _ _).put (by decide) (by cases h <;> decide) _ _).stat _ _
  have hy : Rests h d y := ((hx.put (by decide) (by cases h <;> decide) _ _).put (by decide) (by cases h <;> decide) _ _).stat _ _
  exact ((hy.modHlf _ _).put (by decide) (by cases h <;> decide) _ _).note ..

theorem cycCompare (s : Rests h d e) (q : HalfId) : Rests h d (e.cycCompare q) := by
  unfold Dev.cycCompare
  extract_lets x
  split
  · exact s
  · split
    · exact s
    · extract_lets bad y
      have hy : Rests h d y :=
        .ite (fun _ => (((s.put (by decide) (by cases h <;> decide) _ _).put (by decide) (by cases h <;> decide) _ _).stat _ _).fault ..) fun _ => s
      exact .ite (fun _ => (hy.modHlf _ _).goStale _ _) fun _ => hy.modHlf _ _

end Rests

section
variable (d : Dev) (h : HalfId)

/-! ### The end of a cycle -/

theorem endCycle_shows (us ns : Nat) : (d.endCycle h us ns).get (ctl .cyx h) CYX.CYC_LAST_US = satU 24 us % 2 ^ 24 ∧ ((d.endCycle h us ns).cyx h).phase = 0 := by
  unfold endCycle
  extract_lets p x y
  have hx : x.get p CYX.CYC_LAST_US = satU 24 us % 2 ^ 24 :=
    (get_put_field _ _ (by decide) (by decide) (by decide) (by decide) (by decide) (by decide) (by decide)).trans (get_put_same _ _ _ _ _ _ (by decide))
  have hy : y.get p CYX.CYC_LAST_US = satU 24 us % 2 ^ 24 := by
    have hmax : (x.put p CYX.CYC_MAX_US (satU 24 us)).get p CYX.CYC_LAST_US = x.get p CYX.CYC_LAST_US :=
      get_put_field _ _ (by decide) (by decide) (by decide) (by decide) (by decide) (by decide) (by decide)
    by_cases hm : x.get p CYX.CYC_MAX_US < us
    · rw [show y = x.put p CYX.CYC_MAX_US (satU 24 us) from if_pos hm, hmax, hx]
    · rw [show y = x from if_neg hm, hx]
  exact ⟨(get_congr (regs_modCyx ..) ..).trans ((get_put_field _ _ (by decide) (by decide) (by decide) (by decide) (by decide) (by decide) (by decide)).trans hy),
    congrArg Cyx.phase (cyx_modCyx_same ..)⟩

/-- A publish ends the cycle of its half, whatever its events have done before. -/
theorem publish_ends (us ns : Nat) (hr : d.running h = true) (hcode : d.get (ctl .cyx h) CYX.STATE_CODE = 1) (hall : d.allDone h = true) :
    ∃ x : Dev, Rests h (x.endCycle h us ns) (d.publish h us ns) := by
  unfold publish
  extract_lets p d1 seq act d2 d3 d4 d5 d6 st z
  refine ⟨d6, ?_⟩
  rw [if_neg (by simp [hr, hall, p, hcode])]
  have hz : Rests h (d6.endCycle h us ns) z := .refl ..
  exact .ite (fun _ => hz.modCyx h fun _ => rfl) fun _ => Rests.afterPublish (.ite (fun _ => hz.sendState st) fun _ => hz)

theorem Seats.cycleMarker {d e : Dev} (s : Seats (timeSeats h) d e) (dt ns : Nat) : Seats (timeSeats h) d (e.cycleMarker h dt ns) := by
  have hws := timeSeats_seated h
  unfold Dev.cycleMarker
  extract_lets p x y z w
  have hy : Seats (timeSeats h) d y := s.same (regs_modCyx ..)
  have hz : Seats (timeSeats h) d z := hy.put hws (by decide) (by cases h <;> decide) _ _ (by decide)
  have hw : Seats (timeSeats h) d w := .ite (fun _ => hz.put hws (by decide) (by cases h <;> decide) _ _ (by decide)) fun _ => hz
  refine .ite (fun _ => s) fun _ => .ite (fun _ => ?_) fun _ => .ite (fun _ => hw.trans ⟨fun v hv => ?_⟩) fun _ => hw
  · exact ((s.put hws (by decide) (by cases h <;> decide) _ _ (by decide)).stat hws (by cases h <;> decide) _ _).same (regs_modCyx ..)
  · obtain rfl := List.mem_singleton.mp hv
    exact get_snapshotHalf _ _ (f := CYX.CYC_LAST_US) _ _ (by decide) (by decide) (by decide) (by decide) (by decide) (by decide) (by decide) (by decide) _

/-- The publish with what follows it at the CYCLE event. -/
theorem cyclePublish_ends (us ns : Nat) (hr : d.running h = true) (hcode : d.get (ctl .cyx h) CYX.STATE_CODE = 1) (hall : d.allDone h = true) :
    ∃ x : Dev, Seats (timeSeats h) (x.endCycle h us ns) (d.cyclePublish h us ns) ∧
      (d.active h = true ∨ d.on (ctl .cyx h) CYX.STATE_LAG = false → ((d.cyclePublish h us ns).cyx h).phase = 0) := by
  obtain ⟨xa, ha⟩ := d.glkBegin.publish_ends h us ns hr hcode (by rw [← hall]; cases h <;> rfl)
  obtain ⟨xb, hb⟩ := d.publish_ends h us ns hr hcode hall
  have hza := (xa.endCycle_shows h us ns).2
  have hzb := (xb.endCycle_shows h us ns).2
  unfold cyclePublish
  extract_lets p late d1 d2 d3 first lag e1 e2
  rw [if_neg (by simp [hr, hall, p, hcode])]
  by_cases hact : d.active h = true
  · have h1 : Rests h (xa.endCycle h us ns) d1 := ha.cfgCycle h
    have h2 : Rests h (xa.endCycle h us ns) d2 := .ite (fun _ => h1.err ..) fun _ => h1
    have h3 : Rests h (xa.endCycle h us ns) d3 := .ite (fun _ => h2.modCyx h fun _ => rfl) fun _ => h2
    rw [if_pos hact]
    suffices hend : Rests h (xa.endCycle h us ns) _ from ⟨xa, hend.seats, fun _ => hend.phase hza⟩
    split
    · exact .ite (fun _ => h3.same rfl (by cases h <;> rfl)) fun _ => h3
    · exact h3
  · rw [if_neg hact]
    have h2 : Rests h (xb.endCycle h us ns) e2 := .ite (fun _ => hb.modHlf _ _) fun _ => (hb.modHlf _ _).cycCompare _
    refine ⟨xb, ?_, fun hor => ?_⟩
    · refine .ite (fun _ => ?_) fun _ => (h2.modHlf _ _).seats
      split
      · exact h2.seats.cycleMarker h _ _
      · exact h2.seats
    · have hlag : lag = false := hor.resolve_left hact
      rw [if_neg (by simp [hlag])]
      exact (h2.modHlf _ _).phase hzb

end

end Dev

section
variable {s : State} {h : HalfId} (hout : s.out = true) (us ns : Word)
include hout

theorem cyclePublish_shows (hr : s.dev.running h = true) (hcode : s.dev.get (ctl .cyx h) CYX.STATE_CODE = 1) (hall : s.dev.allDone h = true) :
    ∃ t, exec (.cyclePublish h us ns) s = .next t ∧ t.pending = s.pending ∧
      (s.dev.active h = true ∨ s.dev.on (ctl .cyx h) CYX.STATE_LAG = false → (t.dev.cyx h).phase = 0) ∧
      t.dev.get (ctl .cyx h) CYX.CYC_LAST_US = satU 24 us.toNat % 2 ^ 24 := by
  obtain ⟨x, hseats, hphase⟩ := s.dev.cyclePublish_ends h us.toNat ns.toNat hr hcode hall
  exact ⟨_, next_of_out hout rfl, rfl, hphase, (hseats.get (ctl .cyx h, CYX.CYC_LAST_US) (by simp [timeSeats])).trans (x.endCycle_shows h us.toNat ns.toNat).1⟩

theorem cyclePublish_early (hall : s.dev.allDone h = false) : exec (.cyclePublish h us ns) s = .next s := by
  have hgo : s.dev.cyclePublish h us.toNat ns.toNat = s.dev := by
    unfold Dev.cyclePublish
    exact if_pos (by simp [hall])
  exact next_of_out_eq hout rfl hgo

end

end Sys2Proof.Machine
end

section
/-! PROOFS. The snapshot that begins a cycle (R315, R317, R44). -/
namespace Sys2Proof.Machine

open Sys2Proof

/-- The cycle counter of a half. -/
def cntSeats (h : HalfId) : List (Nat × Fld) := [(ctl .cyx h, CYX.CNT_CYCLE)]

/-- What a snapshot shows of the cycle that it begins. -/
def snapSeats (h : HalfId) : List (Nat × Fld) := [(ctl .cyx h, CYX.CNT_CYCLE), (ctl .cyx h, CYX.PHASE_SNAP_NS)]

theorem cntSeats_calm (h : HalfId) : calm (cntSeats h) = true := by cases h <;> decide
theorem cntSeats_seated (h : HalfId) : seated (cntSeats h) = true := by cases h <;> decide
theorem snapSeats_seated (h : HalfId) : seated (snapSeats h) = true := by cases h <;> decide

namespace Dev

section
variable (d : Dev) (h : HalfId)

theorem cnt_wrapUp : (d.wrapUp (ctl .cyx h) CYX.CNT_CYCLE).get (ctl .cyx h) CYX.CNT_CYCLE = (d.get (ctl .cyx h) CYX.CNT_CYCLE + 1) % 2 ^ 32 :=
  get_put_same _ _ _ _ _ _ (by decide)

/-- The program phase begins with no core done, and the time of the snapshot is shown. -/
theorem snapshotHalf_shows (dt ns : Nat) : ((d.snapshotHalf h dt ns).cyx h).done = 0 ∧
    (d.snapshotHalf h dt ns).get (ctl .cyx h) CYX.PHASE_SNAP_NS = satU 16 ns % 2 ^ 16 := by
  unfold snapshotHalf
  extract_lets p x y first cs e t z w v err u
  refine ⟨congrArg Cyx.done (cyx_modCyx_same ..), (get_congr (regs_modCyx ..) ..).trans ?_⟩
  have hv : v.get p CYX.PHASE_SNAP_NS = satU 16 ns % 2 ^ 16 := get_put_same _ _ _ _ _ _ (by decide)
  have hu : (v.put p CYX.ERRT_SKIPPED 1).get p CYX.PHASE_SNAP_NS = v.get p CYX.PHASE_SNAP_NS :=
    get_put_field _ _ (by decide) (by decide) (by decide) (by decide) (by decide) (by decide) (by decide)
  by_cases hc : ((v.cyx h).due && decide ((v.prog h).errEntry = 0)) = true
  · rw [show u = v.put p CYX.ERRT_SKIPPED 1 from if_pos hc, hu, hv]
  · rw [show u = v from if_neg hc, hv]

/-- The snapshot of an active half whose program runs begins a cycle. -/
theorem snapshot_begins (dt ns : Nat) (ha : d.active h = true) (hcode : d.get (ctl .cyx h) CYX.STATE_CODE = 1) (hph : (d.cyx h).phase = 0)
    (hheld : (d.cyx h).heldNext = false) (hsw : (d.cyx h).switchNow = false) :
    (d.snapshot h dt ns).get (ctl .cyx h) CYX.CNT_CYCLE = (d.get (ctl .cyx h) CYX.CNT_CYCLE + 1) % 2 ^ 32 ∧
      (((d.snapshot h dt ns).cyx h).phase = 1 ∨ ((d.snapshot h dt ns).cyx h).phase = 2) ∧ ((d.snapshot h dt ns).cyx h).done = 0 ∧
      (d.snapshot h dt ns).get (ctl .cyx h) CYX.PHASE_SNAP_NS = satU 16 ns % 2 ^ 16 := by
  unfold snapshot
  extract_lets p x y n z
  rw [if_neg (by simp [ha, p, hcode, x, hph, hheld, hsw])]
  have hy : y.get p CYX.CNT_CYCLE = (d.get p CYX.CNT_CYCLE + 1) % 2 ^ 32 := by
    have hs : Took (cntSeats h) (d.wrapUp p CYX.CNT_CYCLE) y :=
      Took.glkSnapshot (cntSeats_calm h) (Took.same (Took.refl _ (d.wrapUp p CYX.CNT_CYCLE)) (x := (d.wrapUp p CYX.CNT_CYCLE).laneSwap) rfl fun q => by cases q <;> rfl) h
    exact (hs.seats.get (p, CYX.CNT_CYCLE) (by simp [cntSeats, p])).trans (d.cnt_wrapUp h)
  have hz : z.get p CYX.CNT_CYCLE = y.get p CYX.CNT_CYCLE := by
    have hs : Seats (cntSeats h) y z := .ite (fun _ => (Seats.refl _ y).same (regs_modCyx ..)) fun _ => .refl ..
    exact hs.get (p, CYX.CNT_CYCLE) (by simp [cntSeats, p])
  obtain ⟨hdone, hns⟩ := z.snapshotHalf_shows h dt ns
  exact ⟨(get_snapshotHalf _ _ _ _ (by decide) (by decide) (by decide) (by decide) (by decide) (by decide) (by decide) (by decide) _).trans (hz.trans hy),
    z.phase_snapshotHalf h dt ns, hdone, hns⟩

/-- The first snapshot after a release ends the boot, and leaves the cycle that it has begun. -/
theorem cycleSnap_keeps (dt ns : Nat) : Seats (snapSeats h) (d.snapshot h dt ns) (d.cycleSnap h dt ns) ∧ (d.cycleSnap h dt ns).cyx h = (d.snapshot h dt ns).cyx h := by
  have hb : shp .wir < shp .bot := by decide
  unfold cycleSnap
  extract_lets b n x r
  have hr : r.2.cyx h = x.cyx h := by cases h <;> rfl
  split
  · exact ⟨(((Seats.refl _ x).same (x := r.2) rfl).putLater (snapSeats_seated h) hb ..).putLater (snapSeats_seated h) hb .., by rw [cyx_put, cyx_put, hr]⟩
  · exact ⟨.refl .., rfl⟩

end

end Dev

theorem cycleSnapshot_begins {s : State} {h : HalfId} (hout : s.out = true) (dt : BitVec 48) (ns : Word) (ha : s.dev.active h = true)
    (hcode : s.dev.get (ctl .cyx h) CYX.STATE_CODE = 1) (hph : (s.dev.cyx h).phase = 0) (hheld : (s.dev.cyx h).heldNext = false) (hsw : (s.dev.cyx h).switchNow = false) :
    ∃ t, exec (.cycleSnapshot h dt ns) s = .next t ∧ t.pending = s.pending ∧
      t.dev.get (ctl .cyx h) CYX.CNT_CYCLE = (s.dev.get (ctl .cyx h) CYX.CNT_CYCLE + 1) % 2 ^ 32 ∧ ((t.dev.cyx h).phase = 1 ∨ (t.dev.cyx h).phase = 2) ∧
      (t.dev.cyx h).done = 0 ∧ t.dev.get (ctl .cyx h) CYX.PHASE_SNAP_NS = satU 16 ns.toNat % 2 ^ 16 := by
  obtain ⟨hcnt, hphase, hdone, hns⟩ := s.dev.snapshot_begins h dt.toNat ns.toNat ha hcode hph hheld hsw
  obtain ⟨hs, hc⟩ := s.dev.cycleSnap_keeps h dt.toNat ns.toNat
  refine ⟨_, next_of_out_eq hout rfl (show _ = s.dev.cycleSnap h dt.toNat ns.toNat from rfl), rfl, ?_⟩
  generalize s.dev.cycleSnap h dt.toNat ns.toNat = t at hs hc
  exact ⟨(hs.get (ctl .cyx h, CYX.CNT_CYCLE) (by simp [snapSeats])).trans hcnt, by rw [hc]; exact hphase, by rw [hc]; exact hdone,
    (hs.get (ctl .cyx h, CYX.PHASE_SNAP_NS) (by simp [snapSeats])).trans hns⟩

end Sys2Proof.Machine
end

section
/-! PROOFS. The CYCLE event of the shared pages stays off the CTL pages (R60, R315, R375 to R381, R420). -/
namespace Sys2Proof.Machine

open Sys2Proof

namespace Dev

@[simp] theorem ctlPart_modGlk (d : Dev) (g : Glk → Glk) : (d.modGlk g).ctlPart = d.ctlPart := rfl
@[simp] theorem ctlPart_with_glk (d : Dev) (x : Glk) : ({ d with glk := x } : Dev).ctlPart = d.ctlPart := rfl

theorem ctlPart_ite {c : Prop} [Decidable c] {d x y : Dev} (hx : c → x.ctlPart = d.ctlPart) (hy : ¬ c → y.ctlPart = d.ctlPart) : (if c then x else y).ctlPart = d.ctlPart := by
  split
  case isTrue hc => exact hx hc
  case isFalse hc => exact hy hc

/-! ### Stations and the field pages -/

theorem ctlPart_rsmDown (d : Dev) (s : Nat) : (d.rsmDown s).ctlPart = d.ctlPart := by
  have hp : 512 ≤ shp .rsm := by decide
  unfold rsmDown
  extract_lets p was x
  have hx : x.ctlPart = d.ctlPart := (ctlPart_put _ hp ..).trans (ctlPart_put _ hp ..)
  exact ctlPart_ite (fun _ => (ctlPart_fault _ hp ..).trans ((ctlPart_stat _ hp _).trans ((ctlPart_bump _ hp ..).trans hx))) fun _ => hx

theorem ctlPart_rsmShow (d : Dev) : d.rsmShow.ctlPart = d.ctlPart := by
  have hp : 512 ≤ shp .rsm := by decide
  unfold rsmShow
  extract_lets p en up l x
  exact (ctlPart_put _ hp ..).trans ((ctlPart_put _ hp ..).trans (foldl_off (g := ctlPart) _ _ fun y i _ => ctlPart_put y hp ..))

theorem ctlPart_applyRsm (d : Dev) (h : HalfId) (bnd seq : Nat) : (d.applyRsm h bnd seq).ctlPart = d.ctlPart := by
  have hp : 512 ≤ shp .rsm := by decide
  unfold applyRsm
  extract_lets p key touched x
  have hx : x.ctlPart = d.ctlPart := ctlPart_applyPage _ hp ..
  refine ctlPart_ite (fun _ => hx) fun _ => (ctlPart_rsmShow _).trans ((foldl_off (g := ctlPart) _ _ fun y s _ => ?_).trans hx)
  extract_lets en was
  exact ctlPart_ite (fun _ => ctlPart_ite (fun _ => (ctlPart_put _ hp ..).trans (ctlPart_put _ hp ..)) fun _ => rfl) fun _ => ctlPart_ite (fun _ => ctlPart_rsmDown ..) fun _ => rfl

theorem ctlPart_aiOff (d : Dev) (c : Nat) : (d.aiOff c).ctlPart = d.ctlPart := by
  have hp : 512 ≤ shp .ain := by decide
  unfold aiOff
  extract_lets p x
  exact (foldl_off (g := ctlPart) _ _ fun y f _ => ctlPart_put y hp ..).trans (ctlPart_put _ hp ..)

theorem ctlPart_applyAin (d : Dev) (h : HalfId) (bnd seq : Nat) : (d.applyAin h bnd seq).ctlPart = d.ctlPart := by
  unfold applyAin
  extract_lets p was x
  exact (foldl_off (g := ctlPart) _ _ fun y c _ => ctlPart_ite (fun _ => ctlPart_aiOff ..) fun _ => rfl).trans (ctlPart_applyPage _ (by decide) ..)

theorem ctlPart_applyDout (d : Dev) (h : HalfId) (bnd seq : Nat) : (d.applyDout h bnd seq).ctlPart = d.ctlPart :=
  (ctlPart_fioDrive _).trans (ctlPart_applyPage _ (by decide) ..)

theorem ctlPart_applyAout (d : Dev) (h : HalfId) (bnd seq : Nat) : (d.applyAout h bnd seq).ctlPart = d.ctlPart :=
  (ctlPart_fioDrive _).trans (ctlPart_applyPage _ (by decide) ..)

/-! ### The group ring -/

section
variable (d : Dev)

theorem ctlPart_tsyncGo (st : Nat) : (d.tsyncGo st).ctlPart = d.ctlPart := by
  have hp : 512 ≤ shp .glk := by decide
  unfold tsyncGo
  extract_lets p was x y
  have hy : y.ctlPart = d.ctlPart := (ctlPart_put _ (by decide) ..).trans ((ctlPart_modGlk ..).trans ((ctlPart_stat _ hp _).trans (ctlPart_put _ hp ..)))
  exact ctlPart_ite (fun _ => rfl) fun _ => ctlPart_ite (fun _ => (ctlPart_err _ hp ..).trans hy) fun _ => hy

theorem ctlPart_tsyncShow : d.tsyncShow.ctlPart = d.ctlPart :=
  ctlPart_ite (fun _ => ctlPart_ite (fun _ => ctlPart_tsyncGo ..) fun _ => rfl) fun _ => ctlPart_tsyncGo ..

theorem ctlPart_ringShow : d.ringShow.ctlPart = d.ctlPart := by
  have hp : 512 ≤ shp .glk := by decide
  unfold ringShow
  extract_lets p mask best x y
  have hx : x.ctlPart = d.ctlPart := (ctlPart_put _ hp ..).trans ((ctlPart_put _ hp ..).trans (ctlPart_put _ hp ..))
  exact (ctlPart_put _ hp ..).trans ((ctlPart_put _ hp ..).trans ((ctlPart_put _ hp ..).trans hx))

theorem ctlPart_roleDrop : d.roleDrop.ctlPart = d.ctlPart := by
  have hp : 512 ≤ shp .glk := by decide
  exact (ctlPart_modGlk ..).trans ((ctlPart_modGlk ..).trans ((ctlPart_note ..).trans ((ctlPart_stat _ hp _).trans ((ctlPart_put _ hp ..).trans (ctlPart_put _ hp ..)))))

theorem ctlPart_linkLoss (port : Nat) : (d.linkLoss port).ctlPart = d.ctlPart := by
  have hp : 512 ≤ shp .glk := by decide
  exact (ctlPart_modGlk ..).trans ((ctlPart_put _ hp ..).trans (ctlPart_put _ hp ..))

theorem ctlPart_glkDown : d.glkDown.ctlPart = d.ctlPart := by
  have hp : 512 ≤ shp .glk := by decide
  unfold glkDown
  extract_lets p x y z w v
  have hx : x.ctlPart = d.ctlPart := (ctlPart_linkLoss ..).trans (ctlPart_linkLoss ..)
  have hz : z.ctlPart = d.ctlPart := hx
  have hw : w.ctlPart = d.ctlPart := ctlPart_ite (fun _ => (ctlPart_roleDrop _).trans hz) fun _ => hz
  have hv : v.ctlPart = d.ctlPart := ctlPart_ite (fun _ => hw) fun _ => (ctlPart_stat _ hp _).trans ((ctlPart_put _ hp ..).trans hw)
  exact (ctlPart_tsyncShow _).trans ((ctlPart_ringShow _).trans hv)

theorem ctlPart_applyGlk (bnd seq : Nat) : (d.applyGlk bnd seq).ctlPart = d.ctlPart := by
  unfold applyGlk
  extract_lets p was mask x sent
  have hx : x.ctlPart = d.ctlPart := ctlPart_applyPage _ (by decide) ..
  refine ctlPart_ite (fun _ => (ctlPart_glkDown _).trans hx) fun _ => ctlPart_ite (fun _ => ?_) fun _ => ctlPart_ite (fun _ => (ctlPart_ringShow _).trans hx) fun _ => ?_
  · exact (ctlPart_tsyncShow _).trans ((ctlPart_ringShow _).trans hx)
  · exact (ctlPart_tsyncShow _).trans hx

theorem ctlPart_glkPort (f : GFrame) : (d.glkPort f).ctlPart = d.ctlPart := by
  have hp : 512 ≤ shp .glk := by decide
  exact ctlPart_ite (fun _ => rfl) fun _ => ctlPart_ite (fun _ => (ctlPart_err _ hp ..).trans (ctlPart_bump _ hp ..)) fun _ => rfl

theorem ctlPart_glkSend (typ len : Nat) (msg : Option GMsg) (nums : List Nat) (leave : Bool) : (d.glkSend typ len msg nums leave).ctlPart = d.ctlPart :=
  ctlPart_ite (fun _ => rfl) fun _ => (ctlPart_glkPort ..).trans ((ctlPart_glkPort ..).trans (ctlPart_modGlk ..))

theorem ctlPart_sendUser (h : HalfId) (src : Option Nat) : (d.sendUser h src).ctlPart = d.ctlPart := by
  unfold sendUser
  extract_lets n
  split
  · exact ctlPart_ite (fun _ => rfl) fun _ => ctlPart_glkSend ..
  · rfl

theorem ctlPart_sendTable (h : HalfId) : (d.sendTable h).ctlPart = d.ctlPart := by
  unfold sendTable
  split
  · rfl
  · extract_lets m left x
    have hx : x.ctlPart = d.ctlPart := ctlPart_ite (fun _ => rfl) fun _ => ctlPart_glkSend ..
    exact ctlPart_ite (fun _ => (ctlPart_put _ (by decide) ..).trans hx) fun _ => hx

theorem ctlPart_sendTables (h : HalfId) : (d.sendTables h).ctlPart = d.ctlPart :=
  (ctlPart_sendTable ..).trans ((ctlPart_sendTable ..).trans ((ctlPart_sendTable ..).trans (ctlPart_sendTable ..)))

theorem ctlPart_sendRecords (h : HalfId) : (d.sendRecords h).ctlPart = d.ctlPart := by
  unfold sendRecords
  refine ctlPart_ite (fun _ => rfl) fun _ => ?_
  extract_lets rs
  exact (ctlPart_modGlk ..).trans (ctlPart_glkSend ..)

end

end Dev

end Sys2Proof.Machine
end

section
/-! PROOFS. What an idle CYCLE event does beside the counter of its half (R225, R235, R237, R244, R320, R433). -/
namespace Sys2Proof.Machine

open Sys2Proof

/-- The cycle counter of a half. For the second half, the registers that say whether the first follows it stand on pages before its own as well. -/
def idleSeats : HalfId → List (Nat × Fld)
  | .a => [(ctl .cyx .a, CYX.CNT_CYCLE)]
  | .b => [(ctl .cyx .b, CYX.CNT_CYCLE), (ctl .mir .a, MIR.LINK_UP), (ctl .hlf .a, HLF.STATE_OWN)]

theorem idleSeats_calm (h : HalfId) : calm (idleSeats h) = true := by cases h <;> decide
theorem idleSeats_seated (h : HalfId) : seated (idleSeats h) = true := by cases h <;> decide
theorem idleSeats_low (h : HalfId) : ∀ w ∈ idleSeats h, w.1 < 512 := by cases h <;> decide
theorem idleSeats_cnt (h : HalfId) : (ctl .cyx h, CYX.CNT_CYCLE) ∈ idleSeats h := by cases h <;> decide

namespace Dev

/-! ### Pages behind every watched register -/

namespace Took

section
variable {ws : List (Nat × Fld)} {d e x : Dev} (hws : seated ws = true)
include hws

/-- Whatever entry is written on a page behind every register of the list. -/
theorem putAfter (s : Took ws d e) {p : Nat} (hp : ∀ w ∈ ws, w.1 < p) (f : Fld) (v i t : Nat) : Took ws d (e.put p f v i t) := by
  refine ⟨⟨fun w hw => ?_⟩, fun q => (cyx_put ..).trans (s.cyx q)⟩
  obtain ⟨⟨-, hg⟩, hc⟩ : (w.1 ≤ shp .wir ∧ w.2.fits = true) ∧ 0 < w.2.cnt := by simpa [seated] using List.all_eq_true.mp hws w hw
  exact (get_put_later e v (hp w hw) hg hc (by decide)).trans (s.seats.get w hw)

theorem post (s : Took ws d e) (r : Rec) : Took ws d (e.post r) := ⟨s.seats.post hws r, fun q => (cyx_post ..).trans (s.cyx q)⟩

/-- A step that stays off the CTL pages. -/
theorem of_ctlPart (s : Took ws d e) (hlow : ∀ w ∈ ws, w.1 < 512) (hx : x.ctlPart = e.ctlPart) : Took ws d x := by
  refine ⟨⟨fun w hw => ?_⟩, fun q => (congrArg Half.cyx (half_of_ctlPart hx q)).trans (s.cyx q)⟩
  obtain ⟨⟨-, hg⟩, hc⟩ : (w.1 ≤ shp .wir ∧ w.2.fits = true) ∧ 0 < w.2.cnt := by simpa [seated] using List.all_eq_true.mp hws w hw
  exact (get_of_ctlPart hx (hlow w hw) hg hc (by decide)).trans (s.seats.get w hw)

/-- An event of a page behind every register of the list, whatever is staged there. -/
theorem applyPage (s : Took ws d e) {p : Nat} (hp : ∀ w ∈ ws, w.1 < p) (half : Option HalfId) (rules : View → List RuleFail) (bnd seq : Nat) :
    Took ws d (e.applyPage p half rules bnd seq) := by
  have hnote (x : Dev) (c : Staged) (code reason old new seq bnd : Nat) : Took ws x (x.noteConfig c code reason old new seq bnd) :=
    .ite (fun _ => refl ws x) fun _ => (refl ws x).post hws _
  unfold Dev.applyPage
  extract_lets ct x st ready view fails why held ok gone d1 d2 d3 d4
  have hx : Took ws d x := by
    show Took ws d (e.markEvent p half seq)
    cases half with
    | none => exact s.putAfter hws hp ..
    | some h => exact (((s.putAfter hws hp ..).putAfter hws hp ..).putAfter hws hp ..).putAfter hws hp ..
  have h1 : Took ws d d1 := by
    refine Took.trans (hx.same ?_ ?_) (.foldl _ _ fun y c _ => (refl ws y).putAfter hws hp ..)
    · rfl
    · exact fun q => by cases q <;> rfl
  have h2 : Took ws d d2 := h1.trans (.foldl _ _ fun y c _ => .ite (fun _ => refl ws y) fun _ => hnote ..)
  have h3 : Took ws d d3 := h2.trans (.foldl _ _ fun y c _ => hnote ..)
  have h4 : Took ws d d4 := .ite (fun _ => h3) fun _ => h3.putAfter hws hp ..
  refine .ite (fun _ => (hx.putAfter hws hp ..).putAfter hws hp ..) fun _ => .ite (fun _ => (hx.putAfter hws hp ..).putAfter hws hp ..) fun _ => ?_
  split
  · exact ((h4.putAfter hws hp ..).putAfter hws hp ..).putAfter hws hp ..
  · exact (h4.putAfter hws hp ..).putAfter hws hp ..

end

section
variable {h : HalfId} {d e : Dev}

theorem shared (s : Took (idleSeats h) d e) {x : Dev} (hx : x.ctlPart = e.ctlPart) : Took (idleSeats h) d x :=
  s.of_ctlPart (idleSeats_seated h) (idleSeats_low h) hx

theorem errAny (s : Took (idleSeats h) d e) (p c y : Nat) : Took (idleSeats h) d (e.err p c y) := s.err (idleSeats_calm h) p c y

/-! ### Inputs, switches and steppers -/

theorem switchReach (s : Took (idleSeats h) d e) (q : HalfId) (m : Nat) : Took (idleSeats h) d (e.switchReach q m) := by
  have hc := idleSeats_calm h
  unfold Dev.switchReach
  extract_lets p n x cap y
  have hx : Took (idleSeats h) d x := s.put hc (by decide) _ _
  have hy : Took (idleSeats h) d y := hx.mpgLimitSw hc ..
  exact .ite (fun _ => s) fun _ => .ite (fun _ => hx) fun _ => .ite (fun _ => (hy.mpgReplan hc ..).mpgShowCap hc ..) fun _ => hy

theorem linesReach (s : Took (idleSeats h) d e) (was : Nat) : Took (idleSeats h) d (e.linesReach was) := by
  refine s.trans (.both (fun x q => .foldl _ _ fun y m _ => ?_) _)
  extract_lets k
  exact .ite (fun _ => refl _ y) fun _ => (refl _ y).switchReach q m

theorem stpPinsOut (s : Took (idleSeats h) d e) (q : HalfId) (c : Nat) : Took (idleSeats h) d (e.stpPinsOut q c) := by
  unfold Dev.stpPinsOut
  extract_lets pins
  exact .ite (fun _ => s.shared ((ctlPart_put _ (by decide) ..).trans (ctlPart_with_stpPins ..))) fun _ => s

theorem stpOutputs (s : Took (idleSeats h) d e) (q : HalfId) (c : Nat) : Took (idleSeats h) d (e.stpOutputs q c) := by
  unfold Dev.stpOutputs
  extract_lets p m still mode on_ i x
  have hx : Took (idleSeats h) d x := s.modStp ..
  exact hx.stpPinsOut q c

theorem putDriveOff (s : Took (idleSeats h) d e) (q : HalfId) (v : Nat) {c : Nat} (hc : c < 4) : Took (idleSeats h) d (e.put (ctl .stp q) STP.CH_STAT_DRV_OFF v c) :=
  ⟨s.seats.putPage (idleSeats_seated h) (by cases h <;> cases q <;> decide) (by decide) hc v (by decide), fun r => (cyx_put ..).trans (s.cyx r)⟩

theorem stpOff (s : Took (idleSeats h) d e) (q : HalfId) {c : Nat} (hc : c < 4) : Took (idleSeats h) d (e.stpOff q c) := by
  unfold Dev.stpOff
  extract_lets p x
  have hx : Took (idleSeats h) d x := Took.stpOutputs (Took.modStp ((s.putDriveOff q 1 hc).errAny ..) ..) q c
  exact .ite (fun _ => .ite (fun _ => hx) fun _ => hx.stpUncertain (idleSeats_calm h) ..) fun _ => s

theorem stpBack (s : Took (idleSeats h) d e) (q : HalfId) {c : Nat} (hc : c < 4) : Took (idleSeats h) d (e.stpBack q c) := by
  unfold Dev.stpBack
  extract_lets p x y i m
  have hy : Took (idleSeats h) d y := (s.putDriveOff q 0 hc).stpOutputs q c
  exact .ite (fun _ => (hy.modStp ..).stpPinsOut q c) fun _ => s

theorem dinShow (s : Took (idleSeats h) d e) : Took (idleSeats h) d e.dinShow := by
  unfold Dev.dinShow
  extract_lets p en was f x
  have hx : Took (idleSeats h) d x := s.same rfl fun q => by cases q <;> rfl
  refine .ite (fun _ => s) fun _ => ((hx.shared (ctlPart_put _ (by decide) ..)).linesReach was).trans (.both (fun y q => .foldl _ _ fun z c hc => ?_) _)
  exact .ite (fun _ => (refl _ z).stpOff q (List.mem_range.mp hc)) fun _ => (refl _ z).stpBack q (List.mem_range.mp hc)

theorem applyDin (s : Took (idleSeats h) d e) (half : HalfId) (bnd seq : Nat) : Took (idleSeats h) d (e.applyDin half bnd seq) := by
  unfold Dev.applyDin
  extract_lets p was x f y
  have hx : Took (idleSeats h) d x := s.shared (ctlPart_applyPage _ (by decide) ..)
  have hy : Took (idleSeats h) d y := .ite (fun _ => hx.same rfl fun q => by cases q <;> rfl) fun _ => hx
  exact hy.dinShow

/-! ### Shoal and the group at the boundary -/

theorem islandEval (s : Took (idleSeats h) d e) (q : HalfId) : Took (idleSeats h) d (e.islandEval q) := by
  unfold Dev.islandEval
  extract_lets x
  have hx : Took (idleSeats h) d x := s.modShl ..
  exact hx.trans (.foldl _ _ fun y c _ => (refl _ y).evaluate (idleSeats_calm h) ..)

theorem putScope (s : Took (idleSeats h) d e) (q : HalfId) {f : Fld} (hf : f ∈ [SHL.SCOPE_MODE, SHL.SCOPE_PASSIVE]) (v : Nat) :
    Took (idleSeats h) d (e.put (ctl .shl q) f v) := by
  have hfits : f.fits = true ∧ 0 < f.cnt := (by decide : ∀ g ∈ [SHL.SCOPE_MODE, SHL.SCOPE_PASSIVE], g.fits = true ∧ 0 < g.cnt) f hf
  exact ⟨s.seats.putPage (idleSeats_seated h) (by cases h <;> cases q <;> decide) hfits.1 hfits.2 v (by decide), fun r => (cyx_put ..).trans (s.cyx r)⟩

theorem scopeGo (s : Took (idleSeats h) d e) (q : HalfId) (mode : Nat) (passive : Bool) : Took (idleSeats h) d (e.scopeGo q mode passive) := by
  have hc := idleSeats_calm h
  unfold Dev.scopeGo
  extract_lets was show_ x y
  have hx : Took (idleSeats h) d x :=
    Took.stat hc (s.trans (.both (fun z r => ((refl _ z).putScope r (by simp) _).putScope r (by simp) _) _)) _ _
  have hy : Took (idleSeats h) d y := .ite (fun _ => .ite (fun _ => hx.islandEval q) fun _ => hx) fun _ => .ite (fun _ => hx.modShl ..) fun _ => hx
  exact .ite (fun _ => s) fun _ => .ite (fun _ => hy) fun _ => Took.takeRing hc _ hy

theorem glkSend (s : Took (idleSeats h) d e) (typ len : Nat) (msg : Option GMsg) (nums : List Nat) (leave : Bool) : Took (idleSeats h) d (e.glkSend typ len msg nums leave) :=
  s.shared (ctlPart_glkSend ..)

theorem takeDecision (s : Took (idleSeats h) d e) (q : HalfId) (ds : List GDec) (cs : List GCall) (seqs : List (BitVec 6 × List GStop)) :
    Took (idleSeats h) d (e.takeDecision q ds cs seqs) := by
  have hc := idleSeats_calm h
  unfold Dev.takeDecision
  extract_lets kept ours x y z
  have hx : Took (idleSeats h) d x := s.trans (.foldl _ _ fun v g _ => .ite (fun _ => (refl _ v).upsert hc _) fun _ => refl _ v)
  have hy : Took (idleSeats h) d y := by
    refine hx.trans (.foldl _ _ fun v g _ => ?_)
    extract_lets c new_ have_ old v1 mine v2 v3 lost
    have h1 : Took (idleSeats h) v v1 := .foldl _ _ fun w k _ => by
      split
      · exact (refl _ w).boardHere ..
      · exact refl _ w
    have h2 : Took (idleSeats h) v v2 := h1.setSeq ..
    have h3 : Took (idleSeats h) v v3 := h2.trans (.foldl _ _ fun w k _ => (refl _ w).insertOn ..)
    exact h3.trans (.foldl _ _ fun w k _ => (refl _ w).dropCall _)
  have hz : Took (idleSeats h) d z := hy.trans (.foldl _ _ fun v g _ => .ite (fun _ => (refl _ v).boardHere ..) fun _ => refl _ v)
  refine hz.trans (.foldl _ _ fun v g _ => ?_)
  extract_lets cl res code
  have hcode (w : Dev) (k : Nat) : Took (idleSeats h) w (code w k) := .ite (fun _ => (refl _ w).errAny ..) fun _ => refl _ w
  refine .ite (fun _ => refl _ v) fun _ => ?_
  split
  · extract_lets old st
    exact (((refl _ v).setCall ..).trans (hcode _ _)).addRes _
  · exact (((refl _ v).fresh).trans (hcode _ _)).addRes _

theorem sendForward (s : Took (idleSeats h) d e) (q : HalfId) : Took (idleSeats h) d (e.sendForward q) :=
  .ite (fun _ => .ite (fun _ => s) fun _ => (s.glkSend ..).modShl ..) fun _ => s.modShl ..

theorem sendReport (s : Took (idleSeats h) d e) (q : HalfId) (asked : Bool) : Took (idleSeats h) d (e.sendReport q asked) := by
  unfold Dev.sendReport
  extract_lets x cs rep
  refine .ite (fun _ => (s.modShl ..).glkSend ..) fun _ => .ite (fun _ => Took.modShl (.ite (fun _ => s) fun _ => s.glkSend ..) ..) fun _ => s

theorem formRecord (s : Took (idleSeats h) d e) (q : HalfId) (n : Nat) : Took (idleSeats h) d (e.formRecord q n) := by
  unfold Dev.formRecord
  extract_lets p doors x av ok r
  have hx : Took (idleSeats h) d x := Took.standStamp (s.modShl ..) _ _
  exact .ite (fun _ => s) fun _ => hx.modShl ..

theorem formRecords (s : Took (idleSeats h) d e) (q : HalfId) : Took (idleSeats h) d (e.formRecords q) :=
  .ite (fun _ => s) fun _ => Took.showLive (idleSeats_calm h) (s.trans (.foldl _ _ fun x n _ => (refl _ x).formRecord q n))

theorem forwardAgain (s : Took (idleSeats h) d e) (q : HalfId) : Took (idleSeats h) d (e.forwardAgain q) := by
  unfold Dev.forwardAgain
  exact s.modShl ..

theorem sendForwardAgain (s : Took (idleSeats h) d e) (q : HalfId) (asked : Bool) :
    Took (idleSeats h) d (((if asked then e.forwardAgain q else e).sendForward q).sendReport q asked) := by
  have hx : Took (idleSeats h) d (if asked then e.forwardAgain q else e) := .ite (fun _ => s.forwardAgain q) fun _ => s
  exact (hx.sendForward q).sendReport q asked

/-- The group's exchange at the boundary. -/
theorem glkBoundary (s : Took (idleSeats h) d e) (q : HalfId) (user : Option Nat) : Took (idleSeats h) d (e.glkBoundary q user) := by
  unfold Dev.glkBoundary
  extract_lets x arr works y z w asked v u t
  refine .ite (fun _ => s.formRecords q) fun _ => ?_
  have hx : Took (idleSeats h) d x := by
    show Took _ _ (match e.glk.scopeNext with | some (m, r) => _ | none => _)
    split
    · exact (s.modGlk _).scopeGo ..
    · exact s
  have hy : Took (idleSeats h) d y := hx.modGlk _
  have hz : Took (idleSeats h) d z := by
    refine .ite (fun _ => hy.trans (.foldl _ _ fun a m _ => ?_)) fun _ => hy
    split
    · exact .ite (fun _ => (refl _ a).takeDecision ..) fun _ => refl _ a
    · exact refl _ a
  have hw : Took (idleSeats h) d w := .ite (fun _ => (hz.modGlk _).glkSend ..) fun _ => hz
  have hv : Took (idleSeats h) d v := (hw.sendForwardAgain q asked).formRecords q
  have hu : Took (idleSeats h) d u := .ite (fun _ => hv.shared (ctlPart_sendRecords ..)) fun _ => hv
  have ht : Took (idleSeats h) d t := .ite (fun _ => hu.shared (ctlPart_sendTables ..)) fun _ => hu
  exact ht.shared (ctlPart_sendUser ..)

/-! ### The shared pages -/

theorem cycleShared (s : Took (idleSeats h) d e) (q : HalfId) (seq : Nat) : Took (idleSeats h) d (e.cycleShared q seq) := by
  unfold Dev.cycleShared
  extract_lets x y z w v u run
  have hx : Took (idleSeats h) d x := s.shared (ctlPart_applyRsm ..)
  have hy : Took (idleSeats h) d y := hx.shared (ctlPart_applyPage _ (by decide) ..)
  have hz : Took (idleSeats h) d z := .ite (fun _ => hy.applyDin ..) fun _ => hy
  have hw : Took (idleSeats h) d w := .ite (fun _ => hz.shared (ctlPart_applyAin ..)) fun _ => hz
  have hv : Took (idleSeats h) d v := hw.shared ((ctlPart_applyAout ..).trans (ctlPart_applyDout ..))
  have hu : Took (idleSeats h) d u := .ite (fun _ => hv.shared (ctlPart_applyGlk ..)) fun _ => hv
  exact hu.glkBoundary ..

end

end Took

end Dev

end Sys2Proof.Machine
end

section
/-! PROOFS. The idle CYCLE event (R320), and the cycle of the executive (R314 to R321). -/
namespace Sys2Proof.Machine

open Sys2Proof

namespace Dev

namespace Took

variable {h : HalfId} {d e : Dev}

/-! ### The CTL pages of a half -/

section
variable {q : HalfId} (hq : ∀ w ∈ idleSeats h, w.1 < ctl .tmc q)
include hq

theorem applyFrc (s : Took (idleSeats h) d e) (seq : Nat) : Took (idleSeats h) d (e.applyFrc q seq) := by
  have hws := idleSeats_seated h
  have hp : ∀ w ∈ idleSeats h, w.1 < ctl .frc q := fun w hw => Nat.lt_trans (hq w hw) (by cases q <;> decide)
  unfold Dev.applyFrc
  extract_lets p touched was x y
  have hx : Took (idleSeats h) d x := s.applyPage hws hp ..
  have hy : Took (idleSeats h) d y := by
    refine hx.trans (.foldl _ _ fun z i _ => ?_)
    unfold frcNamed
    extract_lets p
    exact .ite (fun _ => (refl _ z).errAny ..) fun _ => refl _ z
  refine .ite (fun _ => hy) fun _ => (hy.trans (.foldl _ _ fun z i _ => ?_)).putAfter hws hp ..
  exact .ite (fun _ => (refl _ z).putAfter hws hp ..) fun _ => refl _ z

theorem applyShl (s : Took (idleSeats h) d e) (bnd seq : Nat) : Took (idleSeats h) d (e.applyShl q bnd seq) := by
  have hws := idleSeats_seated h
  have hp : ∀ w ∈ idleSeats h, w.1 < ctl .shl q := fun w hw => Nat.lt_trans (hq w hw) (by cases q <;> decide)
  unfold Dev.applyShl
  extract_lets p was x moved y z
  have hx : Took (idleSeats h) d x := s.applyPage hws hp ..
  have hy : Took (idleSeats h) d y := .ite (fun _ => (hx.putAfter hws hp ..).putAfter hws hp ..) fun _ => hx
  have hz : Took (idleSeats h) d z := .ite (fun _ => (hy.putAfter hws hp ..).putAfter hws hp ..) fun _ => hy
  exact .ite (fun _ => Took.takeRing (idleSeats_calm h) _ (.ite (fun _ => hz.islandEval q) fun _ => hz)) fun _ => hz

/-- The CYCLE event of the pages of a half after that of its executive. -/
theorem cycleCtl {x : Dev} {seq : Nat} (s : Took (idleSeats h) d (x.applyPage (ctl .cyx q) none (x.cyxRules q) 1 seq)) : Took (idleSeats h) d (x.cycleCtl q seq) := by
  unfold Dev.cycleCtl
  extract_lets y z w
  have hz : Took (idleSeats h) d z := s.applyPage (idleSeats_seated h) hq ..
  have hw : Took (idleSeats h) d w := hz.applyFrc hq seq
  exact .ite (fun _ => hw.applyShl hq ..) fun _ => hw

end

/-- The page of the executive of a half with nothing staged: its event numbers itself. -/
theorem applyPage_quiet (x : Dev) (rules : View → List RuleFail) (bnd seq : Nat) (hsh : x.shadow = []) : Took (idleSeats h) x (x.applyPage (ctl .cyx h) none rules bnd seq) := by
  have hput {y : Dev} (s : Took (idleSeats h) x y) {f : Fld} (hf : f.fits = true) (hb : besideOn (idleSeats h) (ctl .cyx h) f = true) (v : Nat) :
      Took (idleSeats h) x (y.put (ctl .cyx h) f v) := ⟨s.seats.putAt (idleSeats_seated h) hf hb v, fun q => (cyx_put ..).trans (s.cyx q)⟩
  rw [x.applyPage_empty (ctl .cyx h) none rules bnd seq (by simp [hsh])]
  exact hput (hput (hput (refl _ x) (by decide) (by cases h <;> decide) _) (by decide) (by cases h <;> decide) _) (by decide) (by cases h <;> decide) _

/-! ### Publication -/

section
variable {q : HalfId} (hp : ∀ w ∈ idleSeats h, w.1 < ctl .shl q)
include hp

theorem postOne (s : Took (idleSeats h) d e) (r : ShlRes) : Took (idleSeats h) d (e.postOne q r) := by
  have hput {y : Dev} (t : Took (idleSeats h) d y) (a w : Nat) : Took (idleSeats h) d (y.sramPut q a w) := by
    unfold Dev.sramPut
    extract_lets bad f g z
    have hz : Took (idleSeats h) d z := t.same (by cases q <;> rfl) fun r => by cases q <;> cases r <;> rfl
    exact hz.modHalf q _ fun _ => rfl
  unfold Dev.postOne
  extract_lets p hd n a cl x y
  have hx : Took (idleSeats h) d x :=
    .ite (fun _ => s.modShl ..) fun _ => .ite (fun _ => s) fun _ => (hput (hput (hput (hput s _ _) _ _) _ _) _ _).putAfter (idleSeats_seated h) hp ..
  have hy : Took (idleSeats h) d y := hx.dropCall _
  clear_value y x cl
  split
  · extract_lets away
    exact .ite (fun _ => .ite (fun _ => hy.modShl ..) fun _ => hy) fun _ => .ite (fun _ => hx.dropCall _) fun _ => hx
  · exact hx

theorem showTables (s : Took (idleSeats h) d e) : Took (idleSeats h) d (e.showTables q) := by
  have hput {y x : Dev} (t : Took (idleSeats h) y x) (f : Fld) (v i k : Nat) : Took (idleSeats h) y (x.put (ctl .shl q) f v i k) := t.putAfter (idleSeats_seated h) hp f v i k
  unfold Dev.showTables
  extract_lets p sh x y z
  have hx : Took (idleSeats h) d x := s.trans (.foldl _ _ fun v k _ => .foldl _ _ fun w i _ => hput (refl _ w) ..)
  have hy : Took (idleSeats h) d y := hx.trans (.foldl _ _ fun v k _ => .foldl _ _ fun w i _ => hput (refl _ w) ..)
  have hz : Took (idleSeats h) d z := by
    refine hy.trans (.foldl _ _ fun v c _ => ?_)
    extract_lets seq old v1 v2
    have h1 : Took (idleSeats h) v v1 := .foldl _ _ fun w i _ => hput (hput (refl _ w) ..) ..
    have h2 : Took (idleSeats h) v v2 := h1.trans (.foldl _ _ fun w i _ => hput (hput (refl _ w) ..) ..)
    exact hput h2 ..
  exact (hput hz ..).modShl ..

theorem shlPublishOne (s : Took (idleSeats h) d e) (l : List ShlRes × List ShlRes) : Took (idleSeats h) d (e.shlPublishOne q l) := by
  have hc := idleSeats_calm h
  unfold Dev.shlPublishOne
  extract_lets p was x y z w
  have hx : Took (idleSeats h) d x := Took.modShl (s.modShl ..) ..
  have hy : Took (idleSeats h) d y := Took.modShl (hx.trans (.foldl _ _ fun v r _ => (refl _ v).postOne hp r)) ..
  have hz : Took (idleSeats h) d z := .ite (fun _ => hy) fun _ => (hy.stat hc _ _).errAny ..
  have hw : Took (idleSeats h) d w := (hz.showTables hp).modShl ..
  exact .ite (fun _ => s) fun _ => .ite (fun _ => hw.stat hc _ _) fun _ => hw

end

theorem shl_after (h : HalfId) : ∀ w ∈ idleSeats h, w.1 < ctl .shl h := by cases h <;> decide

/-- The tables of the first half are not shown beside those of the second: its standby does not follow. -/
theorem shlPublish (s : Took (idleSeats h) d e) (hm : h = .a ∨ e.mirrors h.other = false) : Took (idleSeats h) d (e.shlPublish h) := by
  unfold Dev.shlPublish
  extract_lets o l x y
  refine .ite (fun hc => ?_) fun _ => .ite (fun _ => s) fun _ => s.shlPublishOne (shl_after h) l
  rcases hm with rfl | hm
  · have hb : ∀ w ∈ idleSeats .a, w.1 < ctl .shl .b := by decide
    have hy : Took (idleSeats .a) d y := Took.putAfter (idleSeats_seated _) (Took.putAfter (idleSeats_seated _) (s.modShl ..) hb ..) hb ..
    exact (hy.shlPublishOne (shl_after .a) l).shlPublishOne hb l
  · simp [o, hm] at hc

theorem shlPublishGrp (s : Took (idleSeats h) d e) (hm : h = .a ∨ e.mirrors h.other = false) : Took (idleSeats h) d (e.shlPublishGrp h) := by
  unfold Dev.shlPublishGrp
  extract_lets x y dec touched before after clear seqs on_ calls gone changed ds stops z w
  have hx : Took (idleSeats h) d x := s.shlPublish hm
  have hclear {v : Dev} (t : Took (idleSeats h) d v) : Took (idleSeats h) d (clear v) := t.trans (.both (fun u r => (refl _ u).modShl ..) _)
  have hz : Took (idleSeats h) d z := .ite (fun _ => hx) fun _ => hx.glkSend ..
  have hw : Took (idleSeats h) d w := .ite (fun _ => hz) fun _ => hz.glkSend ..
  exact .ite (fun _ => s) fun _ => .ite (fun _ => hclear hx) fun _ => hclear hw

end Took

section
variable (d : Dev) (h : HalfId)

/-! ### The counter after an idle event -/

theorem mirrors_of_idleSeats {d e : Dev} (s : Took (idleSeats .b) d e) : e.mirrors .a = d.mirrors .a :=
  mirrors_congr .a (s.seats.get (ctl .mir .a, MIR.LINK_UP) (by decide)) (s.seats.get (ctl .hlf .a, HLF.STATE_OWN) (by decide))

theorem idleCycle_counts (ha : d.active h = true) (hi : d.cyxIdle h = true) (hsh : d.shadow = []) (hm : d.mirrors h.other = false) :
    (d.idleCycle h).get (ctl .cyx h) CYX.CNT_CYCLE = (d.get (ctl .cyx h) CYX.CNT_CYCLE + 1) % 2 ^ 32 := by
  have hq : ∀ w ∈ idleSeats h, w.1 < ctl .tmc h := by cases h <;> decide
  unfold idleCycle
  extract_lets p x n y z w v
  rw [if_neg (by simp [ha, hi])]
  have hy : Took (idleSeats h) x y := Took.cycleCtl hq (Took.applyPage_quiet x _ _ _ hsh)
  have hz : Took (idleSeats h) x z := .ite (fun _ => hy.cycleShared h _) fun _ => hy
  have hw : Took (idleSeats h) x w := Took.glkSnapshot (idleSeats_calm h) (hz.same (x := z.laneSwap) rfl fun r => by cases r <;> rfl) h
  have hmx : h = .b → x.mirrors .a = false := by
    rintro rfl
    refine (mirrors_congr .a ?_ ?_).trans hm
    · exact get_put_other _ _ (by decide) (by decide) (by decide) (by decide) (by decide) (by decide) (by decide)
    · exact get_put_other _ _ (by decide) (by decide) (by decide) (by decide) (by decide) (by decide) (by decide)
  have hv : Took (idleSeats h) x v := hw.shlPublishGrp (by
    cases h
    · exact .inl rfl
    · exact .inr ((mirrors_of_idleSeats hw).trans (hmx rfl)))
  have hend : Took (idleSeats h) x (if v.mirrors h.other then (v.put (ctl .cyx h.other) CYX.CNT_CYCLE n).cycleCtl h.other (n % 65536) else v) := by
    refine .ite (fun hc => ?_) fun _ => hv
    cases h
    · have hb : ∀ w ∈ idleSeats .a, w.1 < ctl .cyx .b := by decide
      exact Took.cycleCtl (by decide) ((hv.putAfter (idleSeats_seated _) hb ..).applyPage (idleSeats_seated _) hb ..)
    · exact absurd hc (by rw [show HalfId.b.other = .a from rfl, mirrors_of_idleSeats hv, hmx rfl]; decide)
  exact (hend.seats.get (p, CYX.CNT_CYCLE) (idleSeats_cnt h)).trans (d.cnt_wrapUp h)

/-- What an idle event sends to the standby leaves the counter. -/
theorem cnt_sendState (st : CycState) : (d.sendState h st).get (ctl .cyx h) CYX.CNT_CYCLE = d.get (ctl .cyx h) CYX.CNT_CYCLE := by
  have hws := cntSeats_seated h
  unfold sendState
  extract_lets r n first x y
  have hx : Seats (cntSeats h) d x := ((Seats.refl _ d).same (x := r.2) rfl).same (regs_modCyx ..)
  have hy : Seats (cntSeats h) d y := by
    refine .ite (fun _ => hx.trans ?_) fun _ => hx
    unfold rxLand
    split
    · exact (Seats.refl _ x).same (regs_fillSram ..)
    · exact .refl ..
  have hend : Seats (cntSeats h) d (if d.mirrors h.other then (y.put (ctl .mir h) MIR.CYC_BYTES_N n).showBacklog h else d) :=
    .ite (fun _ => (hy.putAt hws (by decide) (by cases h <;> decide) _).putAt hws (by decide) (by cases h <;> decide) _) fun _ => .refl ..
  exact hend.get (ctl .cyx h, CYX.CNT_CYCLE) (by simp [cntSeats])

theorem get_cfgCycle (p : Nat) (f : Fld) (i t : Nat) : (d.cfgCycle h).get p f i t = d.get p f i t := by
  unfold cfgCycle
  split <;> rfl

theorem idleEvent_counts (ha : d.active h = true) (hi : d.cyxIdle h = true) (hsh : d.shadow = []) (hm : d.mirrors h.other = false) :
    (d.idleEvent h).get (ctl .cyx h) CYX.CNT_CYCLE = (d.get (ctl .cyx h) CYX.CNT_CYCLE + 1) % 2 ^ 32 := by
  have hone := d.glkBegin.idleCycle_counts h ha hi hsh hm
  unfold idleEvent
  extract_lets x
  have hx : x.get (ctl .cyx h) CYX.CNT_CYCLE = (d.get (ctl .cyx h) CYX.CNT_CYCLE + 1) % 2 ^ 32 := (get_cfgCycle ..).trans hone
  rw [if_pos (by simp [ha, hi])]
  split
  · exact (get_modHlf ..).trans ((cnt_sendState ..).trans hx)
  · exact hx

/-! ### The memory after an idle event -/

theorem mram_of_frame {d e : Dev} (hf : e.frame = d.frame) : e.mram = d.mram := mram_of_memories (memories_of_frame hf)

theorem mram_shlPublishOne (l : List ShlRes × List ShlRes) : (d.shlPublishOne h l).mram = d.mram := by
  by_cases he : d.enabled (ctl .shl h) = true
  · exact (d.shlPublishOne_shows h l he).mram
  · rw [shlPublishOne, if_pos (by simp [he])]

theorem mram_shlPublish : (d.shlPublish h).mram = d.mram := by
  unfold shlPublish
  extract_lets o l x y
  have hy : y.mram = d.mram := mram_modShl d o _
  split
  · exact (mram_shlPublishOne ..).trans ((mram_shlPublishOne ..).trans hy)
  · split
    · rfl
    · exact mram_shlPublishOne ..

theorem mram_shlPublishGrp : (d.shlPublishGrp h).mram = d.mram := by
  unfold shlPublishGrp
  extract_lets x y dec touched before after clear seqs on_ calls gone changed ds stops z w
  have hx : x.mram = d.mram := d.mram_shlPublish h
  have hclear (v : Dev) : (clear v).mram = v.mram := rfl
  have hz : z.mram = x.mram := by
    show (if _ then _ else _ : Dev).mram = _
    split
    · rfl
    · exact mram_of_frame (frame_glkSend ..)
  have hw : w.mram = z.mram := by
    show (if _ then _ else _ : Dev).mram = _
    split
    · rfl
    · exact mram_of_frame (frame_glkSend ..)
  split
  · rfl
  · split
    · exact (hclear x).trans hx
    · exact (hclear w).trans (hw.trans (hz.trans hx))

theorem mram_idleCycle : (d.idleCycle h).mram = d.mram := by
  unfold idleCycle
  extract_lets p x n y z w v
  have hz : z.mram = d.mram := by
    refine mram_of_frame ?_
    simp only [z, y, x, frame_ite, frame_cycleShared, frame_cycleCtl, frame_wrapUp, ite_self]
  have hv : v.mram = d.mram := (mram_shlPublishGrp ..).trans ((mram_of_frame (d := z) (by simp only [w, frame_glkSnapshot, frame_laneSwap])).trans hz)
  split
  · rfl
  · split
    · exact (mram_of_frame ((frame_cycleCtl ..).trans (frame_put ..))).trans hv
    · exact hv

theorem mram_sendState (st : CycState) : (d.sendState h st).mram = d.mram := by
  unfold sendState
  extract_lets r n first x y
  have hx : x.mram = d.mram := by cases h <;> rfl
  have hy : y.mram = d.mram := by
    show (if _ then _ else _ : Dev).mram = _
    split
    · exact (mram_rxLand ..).trans hx
    · exact hx
  split
  · exact hy
  · rfl

theorem mram_idleEvent : (d.idleEvent h).mram = d.mram := by
  unfold idleEvent
  extract_lets x
  have hx : x.mram = d.mram := (mram_of_frame (frame_cfgCycle ..)).trans ((mram_idleCycle ..).trans rfl)
  split
  · split
    · exact (mram_modHlf ..).trans ((mram_sendState ..).trans hx)
    · exact hx
  · rfl

end

end Dev

section
variable {s : State} {h : HalfId} (hout : s.out = true)
include hout

theorem idleCycleEvent_counts :
    ∃ t, exec (.idleCycleEvent h) s = .next t ∧ t.pending = s.pending ∧ t.dev.mram = s.dev.mram ∧
      (s.dev.active h = true → s.dev.cyxIdle h = true → s.dev.shadow = [] → s.dev.mirrors h.other = false →
        t.dev.get (ctl .cyx h) CYX.CNT_CYCLE = (s.dev.get (ctl .cyx h) CYX.CNT_CYCLE + 1) % 2 ^ 32) :=
  ⟨_, next_of_out hout rfl, rfl, s.dev.mram_idleEvent h, fun ha hi hsh hm => s.dev.idleEvent_counts h ha hi hsh hm⟩

theorem idleCycleEvent_waits (hno : ¬ (s.dev.active h = true ∧ s.dev.cyxIdle h = true)) : exec (.idleCycleEvent h) s = .next s := by
  have hgo : s.dev.idleEvent h = s.dev := if_neg (by simpa using hno)
  exact next_of_out_eq hout rfl hgo

end

/-- Settles O41: the end and the begin of a cycle at the registers that they show, starts and stops at both halves' pages, and an idle event at its counter. -/
theorem theCycleRuns : Obligations.TheCycleRuns := by
  unfold Obligations.TheCycleRuns
  intro s h hout
  refine ⟨fun core a b hph hmask hlo hhi => cyxDone_counts hout core a b hph hmask hlo hhi,
    fun dt ns ha hcode hph hheld hsw => cycleSnapshot_begins hout dt ns ha hcode hph hheld hsw,
    fun us ns => ⟨fun hr hcode hall => cyclePublish_shows hout us ns hr hcode hall, fun hall => cyclePublish_early hout us ns hall⟩,
    fun ha hcode hph hall hact => cycWdog_halts hout ha hcode hph hall hact, fun i cold hi ha hpr hcode => cyxStart_starts hout i cold hi ha hpr hcode,
    fun ha hcode => ⟨fun hin => cyxStop_waits hout ha hcode hin, fun hph hsw => cyxStop_stops hout ha hcode hph hsw⟩, ?_⟩
  split
  case isTrue hc =>
    obtain ⟨t, hstep, hpend, hmram, hcount⟩ := idleCycleEvent_counts (h := h) hout
    exact ⟨t, hstep, hpend, hmram, hcount hc.1 hc.2⟩
  case isFalse hno => exact idleCycleEvent_waits hout hno

end Sys2Proof.Machine
end
